-- ==== Sys2Proof/Word.lean ====
section
/-!
DEFINITION. The word types of the model, and the sparse table by which it holds everything the part has many of:
memory, register fields, tiles, channels, decks, ledger entries. Plain data only; the operations over a table are in
Machine/Tbl.lean.
-/

namespace Sys2Proof

/-- One byte. -/
abbrev Byte := BitVec 8

/-- A 32-bit word. -/
abbrev Word32 := BitVec 32

/-- A 64-bit word. -/
abbrev Word64 := BitVec 64

/-- A sparse table: key and value pairs, keys strictly rising, no entry equal to what an unlisted key reads as. -/
abbrev Tbl (α : Type) := List (Nat × α)

end Sys2Proof
end

