-- ==== Sys2Proof/Syntax.lean ====
section
/-!
DEFINITION. The commands the part takes: one constructor of `Instr` per row of spec/opcode_table.json, with the operands
that the row's rule names, and the structures those operands are made of. The table gives no bits; the operands are the
model's own reading of each rule (DESIGN CHOICE, assumption 2): what comes from outside the part, and which unit acts.
-/

namespace Sys2Proof

/-- Who makes a register access: a function on a host port, or the management complex (R286, R498, R499). -/
inductive Accessor where
  | pf0 (port : Nat)
  | pf1 (port : Nat)
  | vf (k port : Nat)
  | mgmt
  deriving DecidableEq, Repr

/-- What makes a memory request: the requesters of Table 10.3 and the SOURCE codes of Table 10.6. A host request comes
from PF0 (`vf` 0) or from VF `vf` of a port; the engines are those with SOURCE codes 6 to 8. -/
inductive Src where
  | tile (j thread : Nat)
  | streamer (j : Nat)
  | seq (j : Nat)
  | host (port vf : Nat)
  | fabric (port : Nat)
  | engine (code : Nat)
  | thapel (chan : Nat)
  | runAhead (j : Nat)
  deriving DecidableEq, Repr

/-- A request to memory: its source, the hub where it enters, its partition, its address and length in bytes, its tag, and
the timebase at which it arrived at the master's port. A host request's address is its BAR4 offset, and its hub and
partition follow from the port and the segment (R290). -/
structure Req where
  src : Src
  hub : Nat
  part : Nat
  addr : Nat
  len : Nat
  tag : Nat
  arrived : Nat
  deriving DecidableEq, Repr

/-- A physical upset of one stored code word: the word's place in memory, the bits flipped in its data and in its check
bits; in T1C memory a nonzero `chk` is an on-die uncorrectable error. -/
structure Upset where
  key : Nat
  data : Nat
  chk : Nat
  deriving DecidableEq, Repr

/-- What the cryptographic checks of an image say (R414, R417): the signature, and the section types whose digest fails. -/
structure Verdict where
  sigOk : Bool
  badDigests : List Nat
  deriving DecidableEq, Repr

/-- A 256 B flit (Tables 14.4 and 14.5): its header fields and its payload bytes; `crcOk` and `rsvd0` say whether its
CRC passed and its reserved bits were 0. -/
structure Flit where
  crcOk : Bool
  rsvd0 : Bool
  ty : Nat
  vc : Nat
  dl : Nat
  seq : Nat
  ack : Nat
  ackV : Bool
  som : Bool
  eom : Bool
  crBuf : Nat
  crTotal : Nat
  len : Nat
  payload : List Byte
  deriving DecidableEq, Repr

/-- A message: the routing header of Table 14.8 with the TFLAGS of R380, the transport header of Table 15.3 (`len`: its
LENGTH), and the body, which for TYPE 0xF0 and above begins at payload byte 8. `port`: the port it arrived on, 16 when the part originated it. -/
structure Msg where
  port : Nat
  vc : Nat
  dl : Nat
  dest : Nat
  src : Nat
  hops : Nat
  ord : Bool
  ll : Bool
  ty : Nat
  opening : Bool
  last : Bool
  resend : Bool
  poison : Bool
  stream : Nat
  epoch : Nat
  seq : Nat
  addr : Nat
  len : Nat
  opx : Nat
  status : Nat
  sent : Nat
  body : List Byte
  deriving DecidableEq, Repr

/-- A training frame: its 128 bits (Table 14.3), and what the port's own receivers report beside it: the
lanes that hear frames with resolved lane numbers and polarities, the lanes whose receiver has finished EQ, the lanes
that met the target of R344, whether the verification of saved settings failed, whether the lanes are reversed,
whether the marker was found in 4 blocks and 64 blocks passed clean (LOCK), and what the receiver on the frame's lane
would have the partner's transmitter do next (TAP, ACTION and PRESET). -/
structure TrainFrame where
  bits : Nat
  heard : Nat
  ownEq : Nat
  ownOk : Nat
  verifyFail : Bool
  reversed : Bool
  locked : Bool
  askTap : Nat
  askAction : Nat
  askPreset : Nat
  deriving DecidableEq, Repr

/-- How a management message reaches the part (Table 19.1): I3C, SMBus, PF1 or DOE of PF0 on a host port. -/
inductive Transport where
  | i3c
  | smbus
  | pf1 (port : Nat)
  | doe (port : Nat)
  deriving DecidableEq, Repr

/-- An SPDM request (R367, R484): a nonce or signature is asked of CHALLENGE, and of GET_MEASUREMENTS when `signed`. -/
inductive Spdm where
  | version
  | capabilities
  | algorithms
  | digests
  | certificate
  | challenge
  | measurements (index : Nat) (signed : Bool)
  | keyExchange
  | pskExchange
  deriving DecidableEq, Repr

/-- How an operator that the vector unit computes starts: its thread, and whether a check inside the unit fails (R114). -/
structure VecStart where
  thread : Nat
  parity : Bool
  deriving DecidableEq, Repr

/-- The commands: one constructor per row of spec/opcode_table.json, in the table's order. -/
inductive Instr where
  /-- REGISTER_WRITE: a function's (or the management complex's) write of `n` bytes of value `v` at offset `off` of its register view. -/
  | registerWrite (who : Accessor) (off n v : Nat) (poisoned : Bool)
  /-- RC_FIELD_READ: a read of `n` bytes at offset `off` that covers RC fields. -/
  | rcFieldRead (who : Accessor) (off n : Nat)
  /-- TILE_THROTTLE_WRITE: a write of `v` to the TILE_THROTTLE register of a tile. -/
  | tileThrottleWrite (who : Accessor) (tile v : Nat)
  /-- THROTTLE_TAKE_EFFECT: the tile's 3-bit counter reads 0. -/
  | throttleTakeEffect (tile : Nat)
  /-- RAMP_STEP: one ramp step (L / 8 tile cycles) of one array ends. -/
  | rampStep (tile array : Nat)
  /-- SHADOW_LOAD_DONE: the held-operand load of one array completes. -/
  | shadowLoadDone (tile array : Nat)
  /-- ARRAY_CONFIG_CHANGE: the tile takes up the array configuration an operator waits for. -/
  | arrayConfigChange (tile : Nat)
  /-- PASS_COMMIT: the pass of the job led by `array` drains and commits. -/
  | passCommit (tile array : Nat)
  /-- PASS_FAULT: a fault found in the running pass of the job led by `array`; `poisoned`: its operand arrived poisoned. -/
  | passFault (tile array : Nat) (poisoned : Bool)
  /-- PREEMPT_REQUEST: the hub asks a tile to pre-empt. -/
  | preemptRequest (tile : Nat) (urgent : Bool)
  /-- PREEMPT_BOUNDARY: the job led by `array` reaches a pass boundary. -/
  | preemptBoundary (tile array : Nat)
  /-- PREEMPT_DEADLINE: 1.4 us have passed since the request without a boundary. -/
  | preemptDeadline (tile array : Nat)
  /-- URGENT_SAVE_DONE: the cut job's fed slots have drained and its set is saved; `fault`: a fault arose in the drain; `poisoned`: of an operand that arrived poisoned. -/
  | urgentSaveDone (tile array : Nat) (fault poisoned : Bool)
  /-- PREEMPT_RESUME: the tile resumes the pre-empted instance; `saveUe`: the save area read uncorrectable. -/
  | preemptResume (tile : Nat) (saveUe : Bool)
  /-- INSTANCE_START: the hub starts the graph instance of a RUN_GRAPH in an execution slot. -/
  | instanceStart (part slot : Nat)
  /-- INSTANCE_END: every participating tile of the partition's running instance has ended; `commitUe`: the session index whose structures read uncorrectable in the commit. -/
  | instanceEnd (part : Nat) (commitUe : Option Nat)
  /-- MATMUL_STREAM: operator of a tile thread. -/
  | matmulStream (tile thread : Nat)
  /-- MATMUL_STATIONARY: operator of a tile thread. -/
  | matmulStationary (tile thread : Nat)
  /-- ATTEND_PREFILL: operator of a tile thread. -/
  | attendPrefill (tile : Nat) (start : VecStart)
  /-- ATTEND_DECODE: operator of a tile thread. -/
  | attendDecode (tile : Nat) (start : VecStart)
  /-- ATTEND_BWD: operator of a tile thread. -/
  | attendBwd (tile : Nat) (start : VecStart)
  /-- NORM: operator of a tile thread. -/
  | norm (tile : Nat) (start : VecStart)
  /-- ROPE: operator of a tile thread. -/
  | rope (tile : Nat) (start : VecStart)
  /-- ACT: operator of a tile thread. -/
  | act (tile : Nat) (start : VecStart)
  /-- ROUTE: operator of a tile thread. -/
  | route (tile : Nat) (start : VecStart)
  /-- DISPATCH: operator of a tile thread. -/
  | dispatch (tile thread : Nat)
  /-- COMBINE: operator of a tile thread. -/
  | combine (tile : Nat) (start : VecStart)
  /-- SAMPLE: operator of a tile thread. -/
  | sample (tile : Nat) (start : VecStart)
  /-- EMBED: operator of a tile thread. -/
  | embed (tile : Nat) (start : VecStart)
  /-- COPY: operator of a tile thread. -/
  | copyRows (tile thread : Nat)
  /-- REDUCE: operator of a tile thread. -/
  | reduce (tile : Nat) (start : VecStart)
  /-- KV_APPEND: operator of a tile thread. -/
  | kvAppend (tile thread : Nat)
  /-- WAIT: operator of a tile thread. -/
  | waitOp (tile thread : Nat)
  /-- SIGNAL: operator of a tile thread. -/
  | signalOp (tile thread : Nat)
  /-- WAIT_SATISFIED: the count reaches a waiting thread's target. -/
  | waitSatisfied (tile thread : Nat)
  /-- WAIT_LIMIT: LIMIT_US passes for a waiting thread. -/
  | waitLimit (tile thread : Nat)
  /-- YARDER_COMPLETION: a yarder request's completion arrives, naming its tag and generation bit. -/
  | yarderCompletion (tile tag : Nat) (gen : Bool)
  /-- YARDER_TIMEOUT: TIMEOUT_US passes for a yarder request. -/
  | yarderTimeout (tile tag : Nat)
  /-- TAG_QUARANTINE_END: a timed-out tag's 2 us quarantine ends. -/
  | tagQuarantineEnd (tile tag : Nat)
  /-- INSTANCE_ABORT: the hub aborts the partition's running instance on a reported operator fault. -/
  | instanceAbort (part : Nat)
  /-- RUN_AHEAD_READ: a run-ahead read of one 4 KiB block; `faulty`: the read meets an error. -/
  | runAheadRead (tile addr : Nat) (faulty : Bool)
  /-- RESERVATION_RETRY: a frame release retries the partition's suspended reservation. -/
  | reservationRetry (part : Nat)
  /-- REGROW_CHUNK: one chunk of a regrowth completes; `fails`: its history read uncorrectable. -/
  | regrowChunk (part : Nat) (fails : Bool)
  /-- LEDGER_PIN: the ledger engine applies a pin. -/
  | ledgerPin (page thread : Nat)
  /-- LEDGER_UNPIN: the ledger engine applies an unpin. -/
  | ledgerUnpin (page : Nat)
  /-- LEDGER_REF: the ledger engine adds a reference. -/
  | ledgerRef (page : Nat)
  /-- LEDGER_UNREF: the ledger engine removes a reference. -/
  | ledgerUnref (page : Nat)
  /-- DROPPED_PAGE_RERUN: the abort for cause 0x07 completes. -/
  | droppedPageRerun (part : Nat)
  /-- MEMORY_READ: a read request; `ups`: the upsets that memory has suffered since it was last looked at. -/
  | memoryRead (rq : Req) (ups : List Upset)
  /-- MEMORY_WRITE: a write of whole code words. -/
  | memoryWrite (rq : Req) (data : List Byte) (poisoned : Bool)
  /-- PARTIAL_WRITE: a write narrower than a code word. -/
  | partialWrite (rq : Req) (data : List Byte) (poisoned : Bool)
  /-- ADDER_REDUCE: a reduce request to the memory-side adders. -/
  | adderReduce (rq : Req) (op ty : Nat) (data : List Byte)
  /-- CORRECTED_WRITE_BACK: the queued write-back of a corrected word. -/
  | correctedWriteBack (key : Nat)
  /-- HOST_WINDOW_REQUEST: a tile or hub-engine request to the host memory window. -/
  | hostWindowRequest (rq : Req) (write : Bool) (data : List Byte)
  /-- HOST_COMPLETION: a completion for a host-window read: 0 successful, 1 Unsupported Request, 2 Completer Abort, 3 poisoned. -/
  | hostCompletion (port tag status : Nat) (data : List Byte)
  /-- HOST_COMPLETION_TIMEOUT: a host-window read times out. -/
  | hostCompletionTimeout (port tag : Nat)
  /-- REFRESH: a refresh interval of a channel falls due. -/
  | refresh (chan : Nat)
  /-- HOTBANK_TICK: a microsecond ends; the banks whose requests waited in it: local channel, bank, ns. -/
  | hotbankTick (hub : Nat) (waits : List (Nat × Nat × Nat))
  /-- HOTBANK_LEAK: LEAK_US passes. -/
  | hotbankLeak (hub : Nat)
  /-- MARGIN_SWEEP_START: a write of HUB_MARGIN_CTL with START. -/
  | marginSweepStart (who : Accessor) (hub v : Nat)
  /-- MARGIN_SWEEP_DONE: a margin sweep ends with the steps passed. -/
  | marginSweepDone (hub left right lane : Nat)
  /-- THAPEL_STEP_QUEUE: the hub queues the next page step that waits for a channel. -/
  | thapelStepQueue (hub chan : Nat)
  /-- PROCESSOR_MODE_ENTRY: ordinary requests have drained and the channel enters processor mode. -/
  | processorModeEntry (chan : Nat)
  /-- ATTEND_PAGE: the channel's running step computes its page records. -/
  | attendPage (chan : Nat)
  /-- SEAL_VERIFY: the channel's running step reads a page and checks its seal. -/
  | sealVerify (chan : Nat)
  /-- YIELD_POINT: the channel reaches a yield point. -/
  | yieldPoint (chan : Nat) (unitFault : Bool)
  /-- RESULT_BUFFER_DRAIN: the hub empties a result-buffer half. -/
  | resultBufferDrain (chan : Nat)
  /-- LINGER_EXPIRY: LINGER_NS pass with an empty queue. -/
  | lingerExpiry (chan : Nat)
  /-- CHANNEL_BUSY: a held read has waited 50 us. -/
  | channelBusy (chan idx : Nat)
  /-- THAPEL_HANG: no yield point within HANG_US. -/
  | thapelHang (chan : Nat)
  /-- REFRESH_ABANDON: a refresh reaches its deadline during a step. -/
  | refreshAbandon (chan : Nat)
  /-- WINDOW_BOUNDARY: a window of an account begins: 0 to 127 account k, 128 + n the Thapel account of partition n. -/
  | windowBoundary (hub acct : Nat)
  /-- REQUEST_RELEASE: a request of `bytes` bytes arrives at a regulated master's port. -/
  | requestRelease (hub master part bytes : Nat)
  /-- URGENCY_SAMPLE: the fill of a master's urgency buffer is sampled, in per cent. -/
  | urgencySample (hub master fill : Nat)
  /-- SCALE_UPDATE: HUB_DELIV has changed. -/
  | scaleUpdate (hub : Nat)
  /-- TALLY_LEAK: 10 s of timebase have passed. -/
  | tallyLeak (hub cls : Nat)
  /-- MERGE_ENTRY_TIMEOUT: 256 ns after the hub's oldest merge entry opened. -/
  | mergeEntryTimeout (hub : Nat)
  /-- PATROL_SCRUB: the scrub reads the next word of a memory: 0 T0, 1 T1P, 2 LLM, 3 WS-E, 4 T1C. -/
  | patrolScrub (hub mem : Nat) (ups : List Upset)
  /-- READ_RAW: a START of ECC_RAW_CTL with OP 0. -/
  | readRaw (who : Accessor) (hub v : Nat)
  /-- READ_CORRECTED: a START of ECC_RAW_CTL with OP 1. -/
  | readCorrected (who : Accessor) (hub v : Nat)
  /-- WRITE_RAW: a START of ECC_RAW_CTL with OP 2. -/
  | writeRaw (who : Accessor) (hub v : Nat)
  /-- WRITE_ENCODED: a START of ECC_RAW_CTL with OP 3. -/
  | writeEncoded (who : Accessor) (hub v : Nat)
  /-- MGMT_RECORD_COPY: the management complex copies the next record. -/
  | mgmtRecordCopy (hub : Nat)
  /-- LOG_FLUSH: buffered log entries are written to flash. -/
  | logFlush (n : Nat)
  /-- HOST_LINK_TRAINING: a host port's link trains: generation 5 or 6, lanes. -/
  | hostLinkTraining (port gen width : Nat)
  /-- CONFIG_REQUEST: a configuration request; `numVfs`: NumVFs, if the request writes it. -/
  | configRequest (port fn : Nat) (numVfs : Option Nat)
  /-- DECK_DOORBELL: a write of BAR2 at a deck's DECK_DOORBELL. -/
  | deckDoorbell (fn port off n v : Nat)
  /-- DECK_CQ_DOORBELL: a write of BAR2 at a deck's DECK_CQ_DOORBELL. -/
  | deckCqDoorbell (fn port off n v : Nat)
  /-- BAR4_SEG_WRITE: a write of HIF_BAR4_SEGk. -/
  | bar4SegWrite (who : Accessor) (port k v : Nat)
  /-- VF_SEG_WRITE: a write of HIF_VF_SEGk. -/
  | vfSegWrite (who : Accessor) (port k v : Nat)
  /-- VF_FLR: an FLR of VF k. -/
  | vfFlr (k : Nat)
  /-- PF0_FLR: an FLR of a port's PF0. -/
  | pf0Flr (port : Nat)
  /-- PF1_FLR: an FLR of a port's PF1. -/
  | pf1Flr (port : Nat)
  /-- HOST_LINK_DOWN: link down or hot reset of a host port. -/
  | hostLinkDown (port : Nat)
  /-- PERST_DEASSERT: PERST# of a host port is deasserted. -/
  | perstDeassert (port : Nat)
  /-- DECK_ENABLE: a write of DECK_CFG of the selected deck. -/
  | deckEnable (who : Accessor) (v : Nat)
  /-- DECK_STOP: DECK_CTL.STOP for the selected deck. -/
  | deckStop (who : Accessor)
  /-- DECK_PARK: the hub parks an idle deck. -/
  | deckPark (deck : Nat)
  /-- DECK_ACTIVATE: a parked deck's context becomes active. -/
  | deckActivate (deck : Nat)
  /-- DECK_FETCH: the hub fetches the deck's next pending entry. -/
  | deckFetch (deck : Nat)
  /-- COMMAND_START: the deck's next fetched command starts if it can. -/
  | commandStart (deck : Nat)
  /-- RUN_GRAPH: the started command in an execution slot of the partition's home hub. -/
  | runGraph (part slot : Nat)
  /-- KV_COPY: the started command in an execution slot. -/
  | kvCopy (part slot : Nat)
  /-- KV_DROP: the started command in an execution slot. -/
  | kvDrop (part slot : Nat)
  /-- KV_PARK: the started command in an execution slot. -/
  | kvPark (part slot : Nat)
  /-- KV_UNPARK: the started command in an execution slot. -/
  | kvUnpark (part slot : Nat)
  /-- WEIGHT_LOAD: the started command in an execution slot. -/
  | weightLoad (part slot : Nat)
  /-- FENCE: the started command in an execution slot. -/
  | fence (part slot : Nat)
  /-- EVENT_WAIT: the started command in an execution slot. -/
  | eventWait (part slot : Nat)
  /-- EVENT_SIGNAL: the started command in an execution slot. -/
  | eventSignal (part slot : Nat)
  /-- TIMER: the started command in an execution slot. -/
  | timer (part slot : Nat)
  /-- FORECAST: the started command in an execution slot. -/
  | forecast (part slot : Nat)
  /-- FABRIC_SEND: the started command in an execution slot. -/
  | fabricSend (part slot : Nat)
  /-- BARRIER: the started command in an execution slot. -/
  | barrier (part slot : Nat)
  /-- BROADCAST: the started command in an execution slot. -/
  | broadcast (part slot : Nat)
  /-- SNAPSHOT: the started command in an execution slot. -/
  | snapshot (part slot : Nat)
  /-- EVENT_WAIT_SATISFIED: the event counter has reached the command's target. -/
  | eventWaitSatisfied (part slot : Nat)
  /-- TIMER_EXPIRY: the timebase has reached the command's time. -/
  | timerExpiry (part slot : Nat)
  /-- COMMAND_TIMEOUT: the timeout of a deck's command falls: the one in execution slot `idx`, or, not started, the deck's fetched entry `idx`. -/
  | commandTimeout (deck idx : Nat) (started : Bool)
  /-- LATE_RESULT: a result arrives for an execution slot and generation bit. -/
  | lateResult (part slot : Nat) (gen : Bool)
  /-- EXEC_SLOT_QUARANTINE_END: 2 us have passed since the slot was freed by a timeout. -/
  | execSlotQuarantineEnd (part slot : Nat)
  /-- SEND_CONTEXT_GRANT: a waiting command obtains a send context. -/
  | sendContextGrant (part slot : Nat)
  /-- PROT_SHADOW_WRITE: a write to a shadow map entry. -/
  | protShadowWrite (who : Accessor) (off n v : Nat)
  /-- PROT_COMMIT: a write of PROT_CTL with COMMIT. -/
  | protCommit (who : Accessor) (v : Nat)
  /-- PROT_SWAP: the timebase reaches t_c. -/
  | protSwap
  /-- PARTITION_RESET: a write of PART_CMD with OP 1. -/
  | partitionReset (who : Accessor) (v : Nat)
  /-- PARTITION_LOAD: a write of PART_CMD with OP 2; `ver`: what the cryptographic checks of the image say. -/
  | partitionLoad (who : Accessor) (v : Nat) (ver : Verdict)
  /-- PARTITION_RETIRE: a write of PART_CMD with OP 3. -/
  | partitionRetire (who : Accessor) (v : Nat)
  /-- RESET_DRAIN_DONE: every request of the resetting partition has completed. -/
  | resetDrainDone (part : Nat)
  /-- DRAIN_SLOW: 100 ms of a reset drain have passed. -/
  | drainSlow (part : Nat)
  /-- LOAD_DRAIN_DONE: DRAINED reads 1 during a partition load. -/
  | loadDrainDone (part : Nat)
  /-- LOAD_WEIGHTS_DONE: the load's writes end; `n`: how many blobs, from the first on, have been read and matched. -/
  | loadWeightsDone (part n : Nat)
  /-- LINK_DETECT: signal energy on at least 2 lanes for 1 ms. -/
  | linkDetect (port : Nat)
  /-- TRAINING_FRAME: a received training frame. -/
  | trainingFrame (port : Nat) (f : TrainFrame)
  /-- TRAINING_TIMEOUT: the port's training state times out. -/
  | trainingTimeout (port : Nat)
  /-- TRAINING_RETRY: 1 s after a failed attempt. -/
  | trainingRetry (port : Nat)
  /-- FEC_BLOCK: a received FEC block: whether its marker stood at its offset, and the symbol errors of its four codewords. -/
  | fecBlock (port : Nat) (marker : Bool) (symErrs : List Nat)
  /-- DATA_FLIT: a received DATA flit. -/
  | dataFlit (port : Nat) (f : Flit)
  /-- IDLE_FLIT: a received IDLE flit. -/
  | idleFlit (port : Nat) (f : Flit)
  /-- NAK: a received NAK. -/
  | nak (port seq : Nat)
  /-- LINK_INIT: a received LINK_INIT. -/
  | linkInit (port : Nat)
  /-- LINK_INIT_ACK: a received LINK_INIT_ACK. -/
  | linkInitAck (port : Nat)
  /-- RETRAIN_REQ: a received RETRAIN_REQ. -/
  | retrainReq (port : Nat)
  /-- LINK_RESET: a received LINK_RESET. -/
  | linkReset (port cause : Nat)
  /-- REPLAY_TIMEOUT: 2 us without ACK progress. -/
  | replayTimeout (port : Nat)
  /-- NAK_REPEAT: 1 us without the expected flit. -/
  | nakRepeat (port : Nat)
  /-- RETRAIN_COMPLETE: a warm retrain reaches up with a WIDTH code and a mask of physical lanes. -/
  | retrainComplete (port : Nat) (width lanes : Nat)
  /-- RETRAIN_TIMEOUT: a retrain misses 150 ms. -/
  | retrainTimeout (port : Nat)
  /-- PORT_RETRAIN: FAB_PORT_CTL.RETRAIN. -/
  | portRetrain (who : Accessor) (port : Nat)
  /-- PORT_QUARANTINE: a write of FAB_PORT_CTL with QUARANTINE. -/
  | portQuarantine (who : Accessor) (port : Nat)
  /-- PORT_RELEASE: FAB_PORT_CTL.RELEASE. -/
  | portRelease (who : Accessor) (port : Nat)
  /-- FAB_TALLY_LEAK: LEAK_MS passes. -/
  | fabTallyLeak (port : Nat)
  /-- FAB_RATE_INTERVAL: a new rate-limit interval begins. -/
  | fabRateInterval (port : Nat) (mgmt : Bool)
  /-- ROUTE_TABLE_WRITE: a write of one route-table entry. -/
  | routeTableWrite (who : Accessor) (off v : Nat)
  /-- MESSAGE_ROUTE: a message's SOM at the part. -/
  | messageRoute (m : Msg)
  /-- HELLO: a received HELLO. -/
  | hello (m : Msg)
  /-- HELLO_TIMER: 1 ms passes before the port is live. -/
  | helloTimer (port : Nat)
  /-- SPDM_MESSAGE: a link-local SPDM message; `verdict`: 0 the exchange goes on, 1 the part's own verification has passed, 1 + c it has failed with SPDM error code c. -/
  | spdmMessage (m : Msg) (verdict : Nat)
  /-- AUTH_TIMEOUT: 2 s pass. -/
  | authTimeout (port : Nat)
  /-- AUTH_RETRY: 10 s pass. -/
  | authRetry (port : Nat)
  /-- CRUISE_START: FAB_CRUISE_CTL.START. -/
  | cruiseStart (who : Accessor)
  /-- PROBE: a received PROBE. -/
  | probe (m : Msg)
  /-- PROBE_REPLY: a received PROBE_REPLY. -/
  | probeReply (m : Msg)
  /-- PROBE_RESEND: 100 ms pass in a cruise. -/
  | probeResend
  /-- CRUISE_END: every probe is answered or LIMIT_MS passes. -/
  | cruiseEnd
  /-- REMOTE_WRITE: a received REMOTE_WRITE. -/
  | remoteWrite (m : Msg)
  /-- REMOTE_REDUCE: a received REMOTE_REDUCE. -/
  | remoteReduce (m : Msg)
  /-- KV_PAGE_WRITE: a received KV_PAGE WRITE. -/
  | kvPageWrite (m : Msg)
  /-- KV_PAGE_READ_REQ: a received KV_PAGE READ_REQ. -/
  | kvPageReadReq (m : Msg)
  /-- KV_PAGE_READ_DATA: a received KV_PAGE READ_DATA. -/
  | kvPageReadData (m : Msg)
  /-- TOKEN_FWD: a received TOKEN_FWD. -/
  | tokenFwd (m : Msg)
  /-- STREAM: a received STREAM. -/
  | stream (m : Msg)
  /-- RESPONSE: a received RESPONSE. -/
  | response (m : Msg)
  /-- RETRANSMIT_TIMEOUT: RTO_US without progress. -/
  | retransmitTimeout (hub ctx : Nat)
  /-- NOT_READY_RESEND: 100 us after NOT_READY. -/
  | notReadyResend (hub ctx : Nat)
  /-- NOT_READY_LIMIT: NOTREADY_MS of NOT_READY. -/
  | notReadyLimit (hub ctx : Nat)
  /-- RECV_CONTEXT_CLOSE: 10 ms after LAST or of silence. -/
  | recvContextClose (hub ctx : Nat)
  /-- TIME_SYNC_PERIOD: PERIOD passes. -/
  | timeSyncPeriod
  /-- TIME_REQ: a received TIME_REQ. -/
  | timeReq (m : Msg)
  /-- TIME_RESP: a received TIME_RESP. -/
  | timeResp (m : Msg)
  /-- BAR_UP: a received BAR_UP. -/
  | barUp (m : Msg)
  /-- BAR_DOWN: a received BAR_DOWN. -/
  | barDown (m : Msg)
  /-- BCAST_UP: a received BCAST_UP. -/
  | bcastUp (m : Msg)
  /-- BCAST_DOWN: a received BCAST_DOWN. -/
  | bcastDown (m : Msg)
  /-- SNAP_UP: a received SNAP_UP. -/
  | snapUp (m : Msg)
  /-- SNAP_MARKER: a received SNAP_MARKER. -/
  | snapMarker (m : Msg)
  /-- SNAPSHOT_DRAINED: the device's commands and streams have drained past the cut. -/
  | snapshotDrained
  /-- SNAPSHOT_RESUME: FAB_GOP_CTL.RESUME. -/
  | snapshotResume (who : Accessor)
  /-- GOP_TIMEOUT: a child's up message is missing for TIMEOUT_MS. -/
  | gopTimeout (child : Nat)
  /-- FABRIC_RESET_START: FAB_GOP_CTL.RESET_START. -/
  | fabricResetStart (who : Accessor)
  /-- RESET_REQ: a received RESET_REQ. -/
  | resetReq (m : Msg)
  /-- RESET_DOWN: a received RESET_DOWN. -/
  | resetDown (m : Msg)
  /-- RESET_ACK: a received RESET_ACK. -/
  | resetAck (m : Msg)
  /-- RESET_REQ_TIMEOUT: a RESET_REQ is unanswered for 10 ms. -/
  | resetReqTimeout
  /-- RESET_ACK_TIMEOUT: 10 ms without all RESET_ACKs. -/
  | resetAckTimeout
  /-- FABRIC_LOCAL_RESET: 100 us after its RESET_ACK. -/
  | fabricLocalReset
  /-- VAON_VALID: VAON becomes valid. -/
  | vaonValid
  /-- ALWAYS_ON_START: the always-on domain runs from the crystal. -/
  | alwaysOnStart
  /-- FUSE_READ: the fuse block and extension table are read. -/
  | fuseRead
  /-- SECURE_BOOT: the Hyivias ROM verifies the firmware slots. -/
  | secureBoot (slotOk otherOk : Bool)
  /-- SELF_TEST: the self-test ends; the units that failed. -/
  | selfTest (res : List (Nat × Nat))
  /-- MEMORY_TRAINING: training ends. -/
  | memoryTraining (badChans badTiles : List Nat) (warm fatal : Bool)
  /-- IMAGE_CHECK: the loader checks the whole-part image. -/
  | imageCheck (ver : Verdict)
  /-- LINK_TRAINING_PHASE: phase 8 ends. -/
  | linkTrainingPhase
  /-- WEIGHT_LOAD_BLOB: a weight blob has been read; `ok`: its digest and length match. -/
  | weightLoadBlob (idx : Nat) (ok : Bool)
  /-- READY_ENTRY: the topology result and the weight load are both there. -/
  | readyEntry
  /-- BOOT_LOAD: BOOT_CTL.LOAD. -/
  | bootLoad (who : Accessor)
  /-- BOOT_ACCEPT: BOOT_CTL.ACCEPT. -/
  | bootAccept (who : Accessor)
  /-- BOOT_ABORT: BOOT_CTL.ABORT. -/
  | bootAbort (who : Accessor)
  /-- BOOT_RESTART: BOOT_CTL.RESTART. -/
  | bootRestart (who : Accessor)
  /-- BOOT_SAVE: BOOT_CTL.SAVE. -/
  | bootSave (who : Accessor)
  /-- SENSOR_SAMPLE: every 100 us; the readings of the sensors listed, in 1/16 °C before their trim; the others read as before. -/
  | sensorSample (temps : List (Nat × Int))
  /-- THERMAL_WARNING: a hot spot's warning comparator. -/
  | thermalWarning (spot : Nat)
  /-- TOWER_THROTTLE: the throttle comparator of a logic or bonded-layer sensor; its trimmed reading in 1/16 °C. -/
  | towerThrottle (sensor : Nat) (temp : Int)
  /-- STACK_THROTTLE: the throttle comparator of a stack or hub sensor; its trimmed reading in 1/16 °C. -/
  | stackThrottle (sensor : Nat) (temp : Int)
  /-- STACK_CAP_STEP: every 1 ms. -/
  | stackCapStep (stack : Nat)
  /-- THERMAL_SHUTDOWN: a shutdown comparator; its trimmed reading in 1/16 °C. -/
  | thermalShutdown (sensor : Nat) (temp : Int)
  /-- TRIP_RELEASE: PWR_TRIP.RELEASE. -/
  | tripRelease (who : Accessor)
  /-- POWER_FAULT: PWR_GOOD inputs that drop in one always-on cycle, bit n for rail n. -/
  | powerFault (rails : Nat)
  /-- POWER_TELEMETRY: every 1 ms, the readings of a rail; `fails`: attempts that failed before one succeeded, 4 when none did. -/
  | powerTelemetry (rail mv da dw temp : Nat) (fails : Nat)
  /-- AVS_STATUS_POLL: every 100 ms, a status read of a rail of a failed segment; `fails`: attempts that failed. -/
  | avsStatusPoll (seg sel fails : Nat)
  /-- POWER_ESTIMATE: every 10 us; the towers' estimates. -/
  | powerEstimate (watts : List Nat)
  /-- CLOCK_TARGET_UPDATE: every 1 ms. -/
  | clockTargetUpdate
  /-- CLOCK_SWITCH: the voltage has settled. -/
  | clockSwitch (tower : Nat)
  /-- RTH_ESTIMATE: every 100 ms. -/
  | rthEstimate
  /-- INLET_READ: every 100 ms; the two bytes read from the inlet sensor, if it answered in time. -/
  | inletRead (raw : Option (Nat × Nat))
  /-- FLOW_PULSE: a filtered rising edge on FLOW_PULSE. -/
  | flowPulse
  /-- FLOW_COUNT: every 100 ms. -/
  | flowCount
  /-- FLOW_STOP: 200 ms without a pulse. -/
  | flowStop
  /-- RATE_EVALUATION: every 1 ms. -/
  | rateEvaluation
  /-- FORECAST_PHASE: 200 us before a forecast phase. -/
  | forecastPhase (part : Nat)
  /-- PART_STATE_TARGET: a write of PWR_STATE_CTL. -/
  | partStateTarget (who : Accessor) (v : Nat)
  /-- AUTO_IDLE: AUTO_IDLE_MS with nothing running. -/
  | autoIdle
  /-- PART_WAKE: a doorbell, message or event wakes the part. -/
  | partWake
  /-- TILE_WAKE: a partition's tiles finish waking. -/
  | tileWake (part : Nat)
  /-- TILE_RETENTION: RET_US without an instance. -/
  | tileRetention (tile : Nat)
  /-- TILE_OFF: OFF_MS in Retention. -/
  | tileOff (tile : Nat)
  /-- SEQUENCE_STAGE: the PG inputs, bit n for rail n: the sequencer acts on them. -/
  | sequenceStage (pgs : Nat)
  /-- PG_TIMEOUT: a PG is not asserted within 10 ms. -/
  | pgTimeout (rail : Nat)
  /-- BOARD_RESET: BOARD_RST_N held low. -/
  | boardReset
  /-- POWER_DOWN: an orderly power-down. -/
  | powerDown
  /-- CABLE_CHANGE: CBL_PRSNT_N changes. -/
  | cableChange (prsnt : Nat)
  /-- SET_ENDPOINT_ID: the bus owner assigns the endpoint ID. -/
  | setEndpointId (via : Transport) (eid : Nat)
  /-- GET_SENSOR_READING: a PLDM type 2 request. -/
  | getSensorReading (via : Transport) (sensor : Nat)
  /-- SET_EVENT_RECEIVER: a PLDM request. -/
  | setEventReceiver (via : Transport) (eid : Nat)
  /-- REQUEST_UPDATE: a PLDM RequestUpdate of agent `eid`. -/
  | requestUpdate (via : Transport) (eid : Nat)
  /-- FIRMWARE_COMPONENT: a component arrives (none) or has been verified as a whole; the firmware version it holds, or the entries of the extension table. -/
  | firmwareComponent (via : Transport) (comp : Nat) (verified : Option Bool) (version : Nat) (table : List Nat)
  /-- ACTIVATE_FIRMWARE: a PLDM ActivateFirmware. -/
  | activateFirmware (via : Transport) (selfContained : Bool)
  /-- LOG_INFO: vendor command. -/
  | logInfo (via : Transport)
  /-- LOG_READ: vendor command. -/
  | logRead (via : Transport) (first n : Nat)
  /-- LOG_CLEAR: vendor command. -/
  | logClear (via : Transport)
  /-- TIME_SET: vendor command. -/
  | timeSet (via : Transport) (secs : Nat)
  /-- SET_PRIV: vendor command. -/
  | setPriv (via : Transport) (v : Nat)
  /-- DEBUG_UNLOCK: vendor command; the token's key index, and whether it verifies (R489). -/
  | debugUnlock (via : Transport) (key : Nat) (good : Bool)
  /-- SPDM_REQUEST: an SPDM request. -/
  | spdmRequest (via : Transport) (rq : Spdm)
  /-- SEC_RNG_READ: a read of SEC_RNG. -/
  | secRngRead (who : Accessor)
  /-- RNG_HEALTH_FAIL: a health test fails. -/
  | rngHealthFail (test : Nat)
  /-- DEBUG_CHALLENGE_READ: a read of MGMT_DBG_CHALLENGE0. -/
  | debugChallengeRead (who : Accessor)
  /-- RTC_SECONDS_READ: a read of RTC_SECONDS. -/
  | rtcSecondsRead (who : Accessor)
  /-- RTC_SET: RTC_CTL.SET. -/
  | rtcSet (who : Accessor)
  /-- RTC_SET_APPLY: the next calendar tick after a set. -/
  | rtcSetApply
  /-- RTC_OSC_STOP: the calendar oscillator has stopped for more than 1 s. -/
  | rtcOscStop
  /-- VAON_LOSS: loss of VAON. -/
  | vaonLoss
  /-- VBAT_LOW: VBAT falls below 2.2 V while VAON is absent. -/
  | vbatLow
  /-- FLIT_SLOT: a flit slot of an egress port. -/
  | flitSlot (port : Nat)
  /-- PART_STATE_ENTERED: an entry into Idle or Standby completes. -/
  | partStateEntered
  /-- REGISTER_HALF_READ: a 4 B read of the low half of a 64-bit register. -/
  | registerHalfRead (who : Accessor) (off : Nat)
  deriving DecidableEq, Repr

end Sys2Proof
end

