-- ==== Sys2Proof/Decode.lean ====
section
/-!
DEFINITION. The command a word spells by the table's bits: spec/opcode_table.json gives no row any bits, so none.
-/

namespace Sys2Proof

/-- The command that a word of `nbits` bits spells by the table: no row of the table has bits. -/
def decodeTableWord (_nbits _w : Nat) : Option Instr := none

end Sys2Proof
end

