-- ==== Sys2Proof/Config.lean ====
section
/-!
DEFINITION. What the spec leaves open as a value. Each constant has no body: no proof can see its value, and a statement
holds whatever it is. The vector functions are those to which Table 3.8 gives an error bound and no result (assumption 10);
the draws are values the spec calls random or undefined, taken with the counter `State.free` (assumption 4).
-/

namespace Sys2Proof.Config

/-- A byte whose value the spec leaves undefined, by draw. -/
opaque freeByte : Nat → Byte

/-- 64 random bits, by draw (R487, R489). -/
opaque random64 : Nat → BitVec 64

/-- The base-2 exponential of the exact nonzero value ±m · 2^e within the bound of Table 3.8 (its exact cases are the
model's, R127). -/
opaque exp2 : Bool → Nat → Int → BitVec 32

/-- The product of m · 2^e and log2(e) carried to 40 bits, as a magnitude and an exponent (Table 3.8): the spec doesn't say
how it is rounded. -/
opaque log2eTimes : Nat → Int → BitVec 40 × Int

/-- The base-2 logarithm of an FP32 value within the bound of Table 3.8. -/
opaque log2 : BitVec 32 → BitVec 32

/-- The natural logarithm of an FP32 value within the bound of Table 3.8. -/
opaque log : BitVec 32 → BitVec 32

/-- The hyperbolic tangent of an FP32 value within the bound of Table 3.8. -/
opaque tanh : BitVec 32 → BitVec 32

/-- The sigmoid of an FP32 value within the bound of Table 3.8. -/
opaque sigmoid : BitVec 32 → BitVec 32

/-- SiLU of an FP32 value within the bound of Table 3.8. -/
opaque silu : BitVec 32 → BitVec 32

/-- GELU in the erf form of an FP32 value within the bound of Table 3.8. -/
opaque geluErf : BitVec 32 → BitVec 32

/-- GELU in the tanh form of an FP32 value within the bound of Table 3.8. -/
opaque geluTanh : BitVec 32 → BitVec 32

/-- The sine of the exact nonzero angle ±m · 2^e within the bound of Table 3.8 (R125). -/
opaque sin : Bool → Nat → Int → BitVec 32

/-- The cosine of the exact nonzero angle ±m · 2^e within the bound of Table 3.8 (R125). -/
opaque cos : Bool → Nat → Int → BitVec 32

/-- The frequency of pair i of n rotated dimensions for a THETA that is not positive and finite: the spec states none. -/
opaque ropeFreq : BitVec 32 → Nat → Nat → BitVec 32

/-- The reciprocal of an FP32 value within the bound of Table 3.8. -/
opaque recip : BitVec 32 → BitVec 32

/-- The reciprocal square root of an FP32 value within the bound of Table 3.8. -/
opaque rsqrt : BitVec 32 → BitVec 32

/-- The stored ciphertext byte of a byte of an encrypted window (R199, R485), by partition, key generation, place and
plain byte: the cipher is not described. -/
opaque cipher : Nat → Nat → Nat → Byte → Byte

/-- The plain byte of a ciphertext byte in an encrypted window, by the same arguments. -/
opaque decipher : Nat → Nat → Nat → Byte → Byte

/-- SHA-384 of a message (R484): the function is another standard's. -/
opaque sha384 : List Byte → BitVec 384

/-- The digest of contents that the model does not hold, by measurement block and version: the ROM, a firmware slot, the fuse
block, a public key (Table 19.8). -/
opaque measure : Nat → Nat → BitVec 384

end Sys2Proof.Config
end

