-- ==== Sys2Proof/Machine/Tbl.lean ====
section
/-!
DEFINITION. The operations over a sparse table (`Tbl`). A table has a default `d`: what a key that is not listed reads
as. `put` keeps the one canonical form: keys strictly rising, and no entry equal to the default; so two tables that read
alike are equal data.
-/

namespace Sys2Proof

/-- The value a table holds at a key: the listed one, or the default. -/
def Tbl.get {α : Type} (d : α) : Tbl α → Nat → α
  | [], _ => d
  | (a, v) :: t, k => if a = k then v else Tbl.get d t k

/-- The table with the value `v`, not the default, listed at key `k`. -/
def Tbl.ins {α : Type} (t : Tbl α) (k : Nat) (v : α) : Tbl α :=
  match t with
  | [] => [(k, v)]
  | (a, w) :: t' =>
    if k < a then (k, v) :: (a, w) :: t'
    else if k = a then (k, v) :: t'
    else (a, w) :: Tbl.ins t' k v

/-- The table with `v` at key `k`; writing the default takes the entry out. -/
def Tbl.put {α : Type} [DecidableEq α] (d : α) (t : Tbl α) (k : Nat) (v : α) : Tbl α :=
  if v = d then t.filter (fun e => e.1 != k) else t.ins k v

/-- The table with the value at `k` changed by `f`. -/
def Tbl.upd {α : Type} [DecidableEq α] (d : α) (t : Tbl α) (k : Nat) (f : α → α) : Tbl α :=
  Tbl.put d t k (f (Tbl.get d t k))

/-- The table without the entries that `p` names. -/
def Tbl.drop {α : Type} (t : Tbl α) (p : Nat → α → Bool) : Tbl α :=
  t.filter (fun e => !(p e.1 e.2))

/-- Every key of the table is above `lo`, rising, and no value is the default. -/
def Tbl.wfFrom {α : Type} [DecidableEq α] (d : α) (lo : Nat) : Tbl α → Bool
  | [] => true
  | (a, v) :: t => decide (lo ≤ a) && !(decide (v = d)) && Tbl.wfFrom d (a + 1) t

/-- The canonical form of a table whose default is `d`. -/
def Tbl.wf {α : Type} [DecidableEq α] (d : α) (t : Tbl α) : Bool := Tbl.wfFrom d 0 t

/-- The entries whose keys lie in the `n` keys from `k` are taken out: all of them then read as the default. -/
def Tbl.clearRange {α : Type} (t : Tbl α) (k n : Nat) : Tbl α :=
  t.drop (fun a _ => decide (k ≤ a) && decide (a < k + n))

end Sys2Proof
end

