-- ==== Sys2Proof/Machine/Ecc.lean ====
section
/-!
DEFINITION. The codes of the memory classes (R257 to R261): the symbol code over GF(2^8), the SEC-DED code and parity,
as functions of the stored data and of the difference between the stored check bits and the encoder's, with the arithmetic of
Reed-Solomon codes over any field of characteristic 2 and the CRC-32C that other chapters use too.
-/

namespace Sys2Proof.Machine

/-- Bytes to the number they spell, byte 0 lowest (R7). -/
def leNat : List Byte → Nat
  | [] => 0
  | b :: bs => b.toNat + 256 * leNat bs

/-- The `n` low bytes of a number, byte 0 first (R7). -/
def natLE : Nat → Nat → List Byte
  | 0, _ => []
  | n + 1, v => BitVec.ofNat 8 v :: natLE n (v / 256)

/-- A field of characteristic 2 whose elements are `bits` bits wide: its polynomial as a number. -/
structure Field2 where
  bits : Nat
  poly : Nat
  deriving DecidableEq, Repr

/-- GF(2^8) of the memory's symbol code: x^8 + x^4 + x^3 + x^2 + 1 (R258). -/
def byteField : Field2 := ⟨8, 0x11D⟩

/-! CRC-32C: the reflected polynomial 0x82F63B78, register and result inverted (PRESUMED, assumption 20). -/

/-- One bit of the register's shift. -/
def crcBit (c : Nat) : Nat := if c % 2 = 1 then (c / 2) ^^^ 0x82F63B78 else c / 2

/-- One byte taken in. -/
def crcByte (c : Nat) (b : Byte) : Nat :=
  crcBit (crcBit (crcBit (crcBit (crcBit (crcBit (crcBit (crcBit (c ^^^ b.toNat))))))))

/-- The CRC-32C of bytes. -/
def crc32c (bs : List Byte) : Nat := (bs.foldl crcByte 0xFFFFFFFF) ^^^ 0xFFFFFFFF

/-! Reed-Solomon codes. -/

/-- Multiplication by α. -/
def gfDouble (F : Field2) (a : Nat) : Nat :=
  let b := a * 2
  if b < 2 ^ F.bits then b else (b ^^^ F.poly) % 2 ^ F.bits

/-- `n` steps of a product. -/
def gfMulN (F : Field2) : Nat → Nat → Nat → Nat
  | 0, _, _ => 0
  | n + 1, a, b => (if b % 2 = 1 then a else 0) ^^^ gfMulN F n (gfDouble F a) (b / 2)

/-- The product of two elements. -/
def gfMul (F : Field2) (a b : Nat) : Nat := gfMulN F F.bits a b

/-- α to the power `n`. -/
def gfPow (F : Field2) : Nat → Nat
  | 0 => 1
  | n + 1 => gfDouble F (gfPow F n)

/-- A polynomial, highest power first, times (x − α^i). -/
def polyTimes (F : Field2) (p : List Nat) (i : Nat) : List Nat :=
  List.zipWith (· ^^^ ·) (p ++ [0]) (0 :: p.map (gfMul F (gfPow F i)))

/-- The generator of a code with `n` check symbols, the product of (x − α^i) for i from 0 to n − 1, without its leading 1. -/
def rsGen (F : Field2) (n : Nat) : List Nat := ((List.range n).foldl (polyTimes F) [1]).tail

/-- One data symbol through the systematic encoder. -/
def rsStep (F : Field2) (g r : List Nat) (d : Nat) : List Nat :=
  let fb := d ^^^ r.headD 0
  List.zipWith (fun a c => a ^^^ gfMul F fb c) (r.tail ++ [0]) g

/-- The `n` check symbols of a message of symbols, the highest power first. -/
def rsParity (F : Field2) (n : Nat) (data : List Nat) : List Nat :=
  let g := rsGen F n
  data.foldl (rsStep F g) (List.replicate n 0)

/-- The eight check symbols of a 64-byte word (R258). -/
def rsEncode (data : List Byte) : List Nat := rsParity byteField 8 (data.map BitVec.toNat)

/-- The check bytes as one number, byte i in bits 8i to 8i + 7. -/
def rsCheck (data : List Byte) : Nat := (rsEncode data).foldr (fun c acc => c + 256 * acc) 0

/-- Byte `i` of a number. -/
def byteOf (v i : Nat) : Nat := v / 256 ^ i % 256

/-- Syndrome S_i of a word whose check bytes differ from the encoder's by `delta`: check byte j is the coefficient of
x^(7 − j), and the data with the encoder's check bytes contributes 0 (R258). -/
def rsSyn (delta i : Nat) : Nat :=
  (List.range 8).foldl (fun acc j => acc ^^^ gfMul byteField (byteOf delta j) (gfPow byteField (i * (7 - j)))) 0

/-- The syndrome as the records and ECC_RAW_SYN hold it: byte i is S_i. -/
def rsSyndrome (delta : Nat) : Nat :=
  (List.range 8).foldr (fun i acc => rsSyn delta i + 256 * acc) 0

/-- What a decoder answers (R259, Table 10.2): `pos` is the corrected symbol or bit, numbered as a record's POSITION. -/
inductive Verd where
  | clean
  | corrected (pos : Nat)
  | ue
  | poisoned
  deriving DecidableEq, Repr

/-- The poison pattern of the symbol code: 0xFF in check bytes 0 and 1 (R261). -/
def rsPoison : Nat := 0xFFFF

/-- The decoder of the symbol code (R259). -/
def rsDecode (delta : Nat) : Verd :=
  if delta = 0 then .clean
  else if delta = rsPoison then .poisoned
  else
    let s0 := rsSyn delta 0
    if s0 = 0 then .ue
    else
      match (List.range 72).find? (fun k =>
          (List.range 8).all (fun i => rsSyn delta i == gfMul byteField s0 (gfPow byteField (i * k)))) with
      | some k => .corrected (71 - k)
      | none => .ue

/-- A byte list with byte `j` XOR `e`. -/
def xorByte (l : List Byte) (j e : Nat) : List Byte :=
  l.modify j (· ^^^ BitVec.ofNat 8 e)

/-- The data of a word as the symbol code's decoder delivers it. -/
def rsFix (data : List Byte) (delta : Nat) : List Byte :=
  match rsDecode delta with
  | .corrected j => if j < 64 then xorByte data j (rsSyn delta 0) else data
  | _ => data

/-- The positions of data bits d0 to d63: 1 to 71 without the powers of two (R260). -/
def secPositions : List Nat :=
  (List.range 72).filter (fun p => p ∉ [0, 1, 2, 4, 8, 16, 32, 64])

/-- The parity of the bits of a number below 2^n. -/
def parityN : Nat → Nat → Nat
  | 0, _ => 0
  | n + 1, v => (v % 2) ^^^ parityN n (v / 2)

/-- The XOR of the positions of the data bits that are 1: check bits c0 to c6. -/
def secC06 (data : Nat) : Nat :=
  secPositions.zipIdx.foldl (fun acc (p, i) => if data.testBit i then acc ^^^ p else acc) 0

/-- The check byte of the SEC-DED code (R260): c7 is the XOR of all data bits and c0 to c6. -/
def secCheck (data : Nat) : Nat :=
  let c := secC06 data
  c + 128 * (parityN 64 data ^^^ parityN 7 c)

/-- The SEC-DED poison mark (R261). -/
def secPoison : Nat := 3

/-- s of a word whose check byte differs from the encoder's by `delta`. -/
def secS (delta : Nat) : Nat := delta % 128

/-- p of a word whose check byte differs from the encoder's by `delta`. -/
def secP (delta : Nat) : Nat := parityN 8 delta

/-- The outcome of Table 10.2. A corrected data bit i answers i, a check bit c_k answers 64 + k (Table 10.6). -/
def secDecode (delta : Nat) : Verd :=
  let s := secS delta
  if secP delta = 0 then (if s = 0 then .clean else if s = 3 then .poisoned else .ue)
  else if s = 0 then .corrected 71
  else if s < 72 then
    match secPositions.findIdx? (· == s) with
    | some i => .corrected i
    | none => .corrected (64 + Nat.log2 s)
  else .ue

/-- The data of a word as the SEC-DED decoder delivers it. -/
def secFix (data : List Byte) (delta : Nat) : List Byte :=
  match secDecode delta with
  | .corrected i => if i < 64 then xorByte data (i / 8) (2 ^ (i % 8)) else data
  | _ => data

end Sys2Proof.Machine
end

