-- ==== Sys2Proof/Machine/RegMap.lean ====
section
/-!
DEFINITION. The register map: one constant per functional field of the part's registers, named REGISTER.FIELD as the
spec names it, with the block, offset, access code and reset value of the register tables of spec/ (Tables 2.11 to 20.7),
and `regTable`, the list of registers by which a register-space offset is decoded (R9, R494, R495).
Reserved bits have no field: they read as 0 and ignore writes (R10).
-/

namespace Sys2Proof.Machine

/-- The register blocks of Table 20.1. `deck` and `vfq` are the banks behind the partition pages: the deck registers of
one deck (R324) and the queue registers of one partition's VF (R500); the register space shows them through the pages. -/
inductive Blk where
  | boot | power | package | mgmt | prot | hif | fabric | hub | tile | deck | vfq
  deriving DecidableEq, Repr

/-- The access codes of Table 0.4. -/
inductive Acc where
  | ro | rw | wo | w1c | w1s | rc | rwl
  deriving DecidableEq, Repr

/-- The reset that owns a register (the Owning reset column). -/
inductive Owner where
  | part | partition | vaon | vbat | flrPf0
  deriving DecidableEq, Repr

/-- Where a field's reset value comes from (R14): the table's own number, the fuse block, or the Greuc image. -/
inductive Origin where
  | value | fuse | image
  deriving DecidableEq, Repr

/-- One field of one register (or of each register of an array of `count` registers, `stride` bytes apart). -/
structure Field where
  blk : Blk
  off : Nat
  stride : Nat
  count : Nat
  lo : Nat
  w : Nat
  acc : Acc
  rst : Nat
  src : Origin
  deriving DecidableEq, Repr

/-- One register, or array of registers, with its functional fields. -/
structure RegDesc where
  blk : Blk
  off : Nat
  stride : Nat
  count : Nat
  width : Nat
  owner : Owner
  fields : List Field
  deriving DecidableEq, Repr

/-- The first offset of a block and the distance between its instances (Table 20.1); for `deck` and `vfq`, which the
register space reaches only through partition pages, a bank number of the model's own. -/
def blkBase : Blk → Nat × Nat
  | .boot => (0x000000, 0)
  | .power => (0x001000, 0)
  | .package => (0x002000, 0)
  | .mgmt => (0x003000, 0)
  | .prot => (0x008000, 0)
  | .hif => (0x010000, 0x1000)
  | .fabric => (0x020000, 0)
  | .hub => (0x100000, 0x10000)
  | .tile => (0x200000, 0x1000)
  | .deck => (0x10000000, 0x100)
  | .vfq => (0x20000000, 0x100)

/-- How many instances a block has (Table 20.1; 32,768 decks and the selectors of the deck pages; 16 partitions). -/
def blkCount : Blk → Nat
  | .hif => 2
  | .hub => 4
  | .tile => 64
  | .deck => 0x10000
  | .vfq => 16
  | _ => 1

/-- The register-space offset of register `i` of the field's array in instance `u` of its block. -/
def Field.addr (f : Field) (u i : Nat) : Nat :=
  (blkBase f.blk).1 + u * (blkBase f.blk).2 + f.off + i * f.stride

/-- The key under which the register file holds a field: its register's offset and its lowest bit. -/
def Field.key (f : Field) (u i : Nat) : Nat := f.addr u i * 64 + f.lo

/-! TILE_ARRAY_LAT (32 bits, offset table 2.11). -/
def TILE_ARRAY_LAT.A0_EXTRA : Field := ⟨.tile, 0x100, 0, 1, 0, 2, .ro, 0, .fuse⟩
def TILE_ARRAY_LAT.A1_EXTRA : Field := ⟨.tile, 0x100, 0, 1, 2, 2, .ro, 0, .fuse⟩
def TILE_ARRAY_LAT.A2_EXTRA : Field := ⟨.tile, 0x100, 0, 1, 4, 2, .ro, 0, .fuse⟩
def TILE_ARRAY_LAT.A3_EXTRA : Field := ⟨.tile, 0x100, 0, 1, 6, 2, .ro, 0, .fuse⟩
def TILE_ARRAY_LAT.PAIR01 : Field := ⟨.tile, 0x100, 0, 1, 8, 2, .ro, 0, .fuse⟩
def TILE_ARRAY_LAT.PAIR23 : Field := ⟨.tile, 0x100, 0, 1, 10, 2, .ro, 0, .fuse⟩
def TILE_ARRAY_LAT.WHOLE : Field := ⟨.tile, 0x100, 0, 1, 12, 2, .ro, 0, .fuse⟩

/-! TILE_ARRAY_REPAIR (32 bits, offset table 2.11). -/
def TILE_ARRAY_REPAIR.ROW0 : Field := ⟨.tile, 0x110, 4, 4, 0, 7, .ro, 0, .fuse⟩
def TILE_ARRAY_REPAIR.ROW0_EN : Field := ⟨.tile, 0x110, 4, 4, 7, 1, .ro, 0, .fuse⟩
def TILE_ARRAY_REPAIR.ROW1 : Field := ⟨.tile, 0x110, 4, 4, 8, 7, .ro, 0, .fuse⟩
def TILE_ARRAY_REPAIR.ROW1_EN : Field := ⟨.tile, 0x110, 4, 4, 15, 1, .ro, 0, .fuse⟩
def TILE_ARRAY_REPAIR.COL0 : Field := ⟨.tile, 0x110, 4, 4, 16, 7, .ro, 0, .fuse⟩
def TILE_ARRAY_REPAIR.COL0_EN : Field := ⟨.tile, 0x110, 4, 4, 23, 1, .ro, 0, .fuse⟩
def TILE_ARRAY_REPAIR.COL1 : Field := ⟨.tile, 0x110, 4, 4, 24, 7, .ro, 0, .fuse⟩
def TILE_ARRAY_REPAIR.COL1_EN : Field := ⟨.tile, 0x110, 4, 4, 31, 1, .ro, 0, .fuse⟩

/-! TILE_RAMP_CTL (32 bits, offset table 2.11). -/
def TILE_RAMP_CTL.LEN_IMAGE : Field := ⟨.tile, 0x120, 0, 1, 0, 5, .rwl, 0, .image⟩
def TILE_RAMP_CTL.LEN_EFF : Field := ⟨.tile, 0x120, 0, 1, 16, 5, .ro, 4, .value⟩

/-! TILE_THROTTLE (32 bits, offset table 2.11). -/
def TILE_THROTTLE.DUTY : Field := ⟨.tile, 0x124, 0, 1, 0, 3, .rw, 0, .value⟩
def TILE_THROTTLE.RAMP_LEN_MGMT : Field := ⟨.tile, 0x124, 0, 1, 8, 5, .rw, 0, .value⟩
def TILE_THROTTLE.TRIP : Field := ⟨.tile, 0x124, 0, 1, 16, 1, .ro, 0, .value⟩
def TILE_THROTTLE.DUTY_EFF : Field := ⟨.tile, 0x124, 0, 1, 24, 3, .ro, 0, .value⟩

/-! TILE_ARRAY_STATUS (32 bits, offset table 2.11). -/
def TILE_ARRAY_STATUS.A0_STATE : Field := ⟨.tile, 0x130, 0, 1, 0, 4, .ro, 0, .value⟩
def TILE_ARRAY_STATUS.A1_STATE : Field := ⟨.tile, 0x130, 0, 1, 4, 4, .ro, 0, .value⟩
def TILE_ARRAY_STATUS.A2_STATE : Field := ⟨.tile, 0x130, 0, 1, 8, 4, .ro, 0, .value⟩
def TILE_ARRAY_STATUS.A3_STATE : Field := ⟨.tile, 0x130, 0, 1, 12, 4, .ro, 0, .value⟩
def TILE_ARRAY_STATUS.SHAPE : Field := ⟨.tile, 0x130, 0, 1, 16, 3, .ro, 0, .value⟩
def TILE_ARRAY_STATUS.SAVE_LEVELS : Field := ⟨.tile, 0x130, 0, 1, 20, 2, .ro, 0, .value⟩

/-! TILE_ARRAY_EVENT (32 bits, offset table 2.11). -/
def TILE_ARRAY_EVENT.PASS_RETRIED : Field := ⟨.tile, 0x134, 0, 1, 0, 4, .w1c, 0, .value⟩
def TILE_ARRAY_EVENT.PASS_FAULT : Field := ⟨.tile, 0x134, 0, 1, 4, 4, .w1c, 0, .value⟩
def TILE_ARRAY_EVENT.URGENT_SAVE : Field := ⟨.tile, 0x134, 0, 1, 8, 4, .w1c, 0, .value⟩
def TILE_ARRAY_EVENT.DEADLINE_CONVERT : Field := ⟨.tile, 0x134, 0, 1, 12, 4, .w1c, 0, .value⟩

/-! TILE_ARRAY_COUNT (32 bits, offset table 2.11). -/
def TILE_ARRAY_COUNT.RETRIES : Field := ⟨.tile, 0x138, 0, 1, 0, 16, .rc, 0, .value⟩
def TILE_ARRAY_COUNT.URGENT_SAVES : Field := ⟨.tile, 0x138, 0, 1, 16, 16, .rc, 0, .value⟩

/-! TILE_NUM_CTL (32 bits, offset table 3.10). -/
def TILE_NUM_CTL.NAN_FAULT : Field := ⟨.tile, 0x140, 0, 1, 0, 1, .rwl, 0, .image⟩

/-! TILE_NUM_EVENT (32 bits, offset table 3.10). -/
def TILE_NUM_EVENT.NAN_OUT : Field := ⟨.tile, 0x144, 0, 1, 0, 1, .w1c, 0, .value⟩
def TILE_NUM_EVENT.ACC_OVF : Field := ⟨.tile, 0x144, 0, 1, 1, 1, .w1c, 0, .value⟩
def TILE_NUM_EVENT.INT_SAT : Field := ⟨.tile, 0x144, 0, 1, 2, 1, .w1c, 0, .value⟩
def TILE_NUM_EVENT.SAT : Field := ⟨.tile, 0x144, 0, 1, 3, 1, .w1c, 0, .value⟩
def TILE_NUM_EVENT.NAN_TO_ZERO : Field := ⟨.tile, 0x144, 0, 1, 4, 1, .w1c, 0, .value⟩
def TILE_NUM_EVENT.SAMPLE_INVALID : Field := ⟨.tile, 0x144, 0, 1, 5, 1, .w1c, 0, .value⟩

/-! TILE_NUM_COUNT (32 bits, offset table 3.10). -/
def TILE_NUM_COUNT.SAT_COUNT : Field := ⟨.tile, 0x148, 0, 1, 0, 16, .rc, 0, .value⟩
def TILE_NUM_COUNT.NAN_COUNT : Field := ⟨.tile, 0x148, 0, 1, 16, 16, .rc, 0, .value⟩

/-! TILE_SEQ_STATUS (32 bits, offset table 4.14). -/
def TILE_SEQ_STATUS.ACTIVE : Field := ⟨.tile, 0x200, 0, 1, 0, 16, .ro, 0, .value⟩
def TILE_SEQ_STATUS.LEVEL : Field := ⟨.tile, 0x200, 0, 1, 16, 2, .ro, 0, .value⟩
def TILE_SEQ_STATUS.RUNNING : Field := ⟨.tile, 0x200, 0, 1, 18, 1, .ro, 0, .value⟩
def TILE_SEQ_STATUS.GRAPH : Field := ⟨.tile, 0x200, 0, 1, 20, 4, .ro, 0, .value⟩

/-! TILE_SEQ_WAIT (32 bits, offset table 4.14). -/
def TILE_SEQ_WAIT.SEM_WAIT : Field := ⟨.tile, 0x204, 0, 1, 0, 16, .ro, 0, .value⟩
def TILE_SEQ_WAIT.MISS_WAIT : Field := ⟨.tile, 0x204, 0, 1, 16, 16, .ro, 0, .value⟩

/-! TILE_SEQ_FAULT (32 bits, offset table 4.14). -/
def TILE_SEQ_FAULT.OP_INDEX : Field := ⟨.tile, 0x208, 0, 1, 0, 16, .ro, 0, .value⟩
def TILE_SEQ_FAULT.THREAD : Field := ⟨.tile, 0x208, 0, 1, 16, 4, .ro, 0, .value⟩
def TILE_SEQ_FAULT.CAUSE : Field := ⟨.tile, 0x208, 0, 1, 20, 8, .ro, 0, .value⟩
def TILE_SEQ_FAULT.VALID : Field := ⟨.tile, 0x208, 0, 1, 31, 1, .w1c, 0, .value⟩

/-! TILE_SEQ_EVENT (32 bits, offset table 4.14). -/
def TILE_SEQ_EVENT.DISPATCH_DROP : Field := ⟨.tile, 0x20c, 0, 1, 0, 1, .w1c, 0, .value⟩
def TILE_SEQ_EVENT.SEM_SAT : Field := ⟨.tile, 0x20c, 0, 1, 1, 1, .w1c, 0, .value⟩
def TILE_SEQ_EVENT.OP_RETRIED : Field := ⟨.tile, 0x20c, 0, 1, 2, 1, .w1c, 0, .value⟩
def TILE_SEQ_EVENT.ABORTED : Field := ⟨.tile, 0x20c, 0, 1, 3, 1, .w1c, 0, .value⟩

/-! TILE_YARD_CTL (32 bits, offset table 4.14). -/
def TILE_YARD_CTL.TIMEOUT_US : Field := ⟨.tile, 0x210, 0, 1, 0, 16, .rwl, 0, .image⟩

/-! TILE_YARD_STATUS (32 bits, offset table 4.14). -/
def TILE_YARD_STATUS.BUSY : Field := ⟨.tile, 0x214, 0, 1, 0, 10, .ro, 0, .value⟩
def TILE_YARD_STATUS.QUARANTINED : Field := ⟨.tile, 0x214, 0, 1, 10, 10, .ro, 0, .value⟩

/-! TILE_YARD_COUNT (32 bits, offset table 4.14). -/
def TILE_YARD_COUNT.LATE : Field := ⟨.tile, 0x218, 0, 1, 0, 16, .rc, 0, .value⟩
def TILE_YARD_COUNT.RUNAHEAD_SUPPRESSED : Field := ⟨.tile, 0x218, 0, 1, 16, 16, .rc, 0, .value⟩

/-! ATTN_THIN_CTL (32 bits, offset table 5.6). -/
def ATTN_THIN_CTL.ROWS_FP8 : Field := ⟨.tile, 0x300, 0, 1, 0, 8, .rwl, 4, .image⟩
def ATTN_THIN_CTL.ROWS_ABF4 : Field := ⟨.tile, 0x300, 0, 1, 8, 8, .rwl, 2, .image⟩
def ATTN_THIN_CTL.MIN_TOKENS : Field := ⟨.tile, 0x300, 0, 1, 16, 16, .rwl, 64, .image⟩

/-! ATTN_EVENT (32 bits, offset table 5.6). -/
def ATTN_EVENT.EMPTY_ROW : Field := ⟨.tile, 0x304, 0, 1, 0, 1, .w1c, 0, .value⟩
def ATTN_EVENT.REC_NAN : Field := ⟨.tile, 0x304, 0, 1, 1, 1, .w1c, 0, .value⟩
def ATTN_EVENT.THAPEL_FORCED : Field := ⟨.tile, 0x304, 0, 1, 2, 1, .w1c, 0, .value⟩

/-! ATTN_COUNT (32 bits, offset table 5.6). -/
def ATTN_COUNT.THAPEL_PARTS : Field := ⟨.tile, 0x308, 0, 1, 0, 16, .rc, 0, .value⟩
def ATTN_COUNT.TILE_PARTS : Field := ⟨.tile, 0x308, 0, 1, 16, 16, .rc, 0, .value⟩

/-! KV_POOL_FREE (32 bits, offset table 6.8). -/
def KV_POOL_FREE.FREE_FRAMES : Field := ⟨.hub, 0x4000, 0, 1, 0, 23, .ro, 0, .image⟩

/-! KV_EVENT (32 bits, offset table 6.8). -/
def KV_EVENT.PAGE_EXHAUSTED : Field := ⟨.hub, 0x4004, 0, 1, 0, 1, .w1c, 0, .value⟩
def KV_EVENT.SEAL_FAIL : Field := ⟨.hub, 0x4004, 0, 1, 1, 1, .w1c, 0, .value⟩
def KV_EVENT.COMMIT_FAIL : Field := ⟨.hub, 0x4004, 0, 1, 2, 1, .w1c, 0, .value⟩
def KV_EVENT.SEG_TABLE_FULL : Field := ⟨.hub, 0x4004, 0, 1, 3, 1, .w1c, 0, .value⟩
def KV_EVENT.REGROW_FAIL : Field := ⟨.hub, 0x4004, 0, 1, 4, 1, .w1c, 0, .value⟩

/-! KV_SUSPEND (32 bits, offset table 6.8). -/
def KV_SUSPEND.PARTS : Field := ⟨.hub, 0x4008, 0, 1, 0, 16, .ro, 0, .value⟩

/-! KV_COUNT (32 bits, offset table 6.8). -/
def KV_COUNT.SEAL_FAILS : Field := ⟨.hub, 0x400c, 0, 1, 0, 16, .rc, 0, .value⟩
def KV_COUNT.SESSIONS_COPPICED : Field := ⟨.hub, 0x400c, 0, 1, 16, 16, .rc, 0, .value⟩

/-! KV_COUNT2 (32 bits, offset table 6.8). -/
def KV_COUNT2.REGROWTHS : Field := ⟨.hub, 0x4010, 0, 1, 0, 16, .rc, 0, .value⟩
def KV_COUNT2.COW_COPIES : Field := ⟨.hub, 0x4010, 0, 1, 16, 16, .rc, 0, .value⟩

/-! KV_PART_CTL (32 bits, offset table 6.8). -/
def KV_PART_CTL.COPPICE_MIN_IDLE_MS : Field := ⟨.hub, 0x4040, 4, 16, 0, 16, .rwl, 0, .image⟩
def KV_PART_CTL.COPPICE_EN : Field := ⟨.hub, 0x4040, 4, 16, 16, 1, .rwl, 0, .image⟩
def KV_PART_CTL.PARKED_ACTION : Field := ⟨.hub, 0x4040, 4, 16, 17, 1, .rwl, 0, .image⟩
def KV_PART_CTL.REGROW_GRAPH : Field := ⟨.hub, 0x4040, 4, 16, 18, 4, .rwl, 0, .image⟩

/-! HUB_WIN_BASE (64 bits, offset table 7.7). -/
def HUB_WIN_BASE.BASE : Field := ⟨.hub, 0x1000, 32, 128, 21, 23, .rwl, 0, .image⟩

/-! HUB_WIN_SIZE (64 bits, offset table 7.7). -/
def HUB_WIN_SIZE.SIZE : Field := ⟨.hub, 0x1008, 32, 128, 21, 23, .rwl, 0, .image⟩

/-! HUB_WIN_CTL (32 bits, offset table 7.7). -/
def HUB_WIN_CTL.VALID : Field := ⟨.hub, 0x1010, 32, 128, 0, 1, .rwl, 0, .image⟩
def HUB_WIN_CTL.KIND : Field := ⟨.hub, 0x1010, 32, 128, 1, 1, .rwl, 0, .image⟩
def HUB_WIN_CTL.CLASS : Field := ⟨.hub, 0x1010, 32, 128, 2, 1, .rwl, 0, .image⟩
def HUB_WIN_CTL.PREFETCHABLE : Field := ⟨.hub, 0x1010, 32, 128, 3, 1, .rwl, 0, .image⟩
def HUB_WIN_CTL.PART : Field := ⟨.hub, 0x1010, 32, 128, 4, 4, .rwl, 0, .image⟩
def HUB_WIN_CTL.K : Field := ⟨.hub, 0x1010, 32, 128, 8, 4, .rwl, 0, .image⟩
def HUB_WIN_CTL.M3 : Field := ⟨.hub, 0x1010, 32, 128, 12, 1, .rwl, 0, .image⟩

/-! HUB_WIN_LIST (32 bits, offset table 7.7). -/
def HUB_WIN_LIST.FIRST : Field := ⟨.hub, 0x1014, 32, 128, 0, 10, .rwl, 0, .image⟩

/-! HUB_CHLIST (32 bits, offset table 7.7). -/
def HUB_CHLIST.CHANNEL : Field := ⟨.hub, 0x2000, 4, 768, 0, 10, .rwl, 0, .image⟩

/-! HUB_LLM_MAP (32 bits, offset table 7.7). -/
def HUB_LLM_MAP.PART0 : Field := ⟨.hub, 0x3000, 4, 4, 0, 4, .rwl, 0, .image⟩
def HUB_LLM_MAP.PART1 : Field := ⟨.hub, 0x3000, 4, 4, 8, 4, .rwl, 0, .image⟩
def HUB_LLM_MAP.PART2 : Field := ⟨.hub, 0x3000, 4, 4, 16, 4, .rwl, 0, .image⟩
def HUB_LLM_MAP.PART3 : Field := ⟨.hub, 0x3000, 4, 4, 24, 4, .rwl, 0, .image⟩
def HUB_LLM_MAP.LANDING0 : Field := ⟨.hub, 0x3000, 4, 4, 4, 1, .rwl, 0, .image⟩
def HUB_LLM_MAP.LANDING1 : Field := ⟨.hub, 0x3000, 4, 4, 12, 1, .rwl, 0, .image⟩
def HUB_LLM_MAP.LANDING2 : Field := ⟨.hub, 0x3000, 4, 4, 20, 1, .rwl, 0, .image⟩
def HUB_LLM_MAP.LANDING3 : Field := ⟨.hub, 0x3000, 4, 4, 28, 1, .rwl, 0, .image⟩
def HUB_LLM_MAP.EN0 : Field := ⟨.hub, 0x3000, 4, 4, 5, 1, .rwl, 0, .image⟩
def HUB_LLM_MAP.EN1 : Field := ⟨.hub, 0x3000, 4, 4, 13, 1, .rwl, 0, .image⟩
def HUB_LLM_MAP.EN2 : Field := ⟨.hub, 0x3000, 4, 4, 21, 1, .rwl, 0, .image⟩
def HUB_LLM_MAP.EN3 : Field := ⟨.hub, 0x3000, 4, 4, 29, 1, .rwl, 0, .image⟩

/-! HUB_BAND (32 bits, offset table 7.7). -/
def HUB_BAND.STACK0 : Field := ⟨.hub, 0x3010, 0, 1, 0, 2, .ro, 0, .value⟩
def HUB_BAND.STACK1 : Field := ⟨.hub, 0x3010, 0, 1, 2, 2, .ro, 0, .value⟩
def HUB_BAND.STACK2 : Field := ⟨.hub, 0x3010, 0, 1, 4, 2, .ro, 0, .value⟩
def HUB_BAND.STACK3 : Field := ⟨.hub, 0x3010, 0, 1, 6, 2, .ro, 0, .value⟩
def HUB_BAND.STACK4 : Field := ⟨.hub, 0x3010, 0, 1, 8, 2, .ro, 0, .value⟩
def HUB_BAND.STACK5 : Field := ⟨.hub, 0x3010, 0, 1, 10, 2, .ro, 0, .value⟩
def HUB_BAND.TOWER0 : Field := ⟨.hub, 0x3010, 0, 1, 12, 2, .ro, 0, .value⟩
def HUB_BAND.TOWER1 : Field := ⟨.hub, 0x3010, 0, 1, 14, 2, .ro, 0, .value⟩
def HUB_BAND.TOWER2 : Field := ⟨.hub, 0x3010, 0, 1, 16, 2, .ro, 0, .value⟩
def HUB_BAND.TOWER3 : Field := ⟨.hub, 0x3010, 0, 1, 18, 2, .ro, 0, .value⟩

/-! HUB_DELIV (32 bits, offset table 7.7). -/
def HUB_DELIV.GBPS : Field := ⟨.hub, 0x3014, 0, 1, 0, 16, .ro, 10296, .value⟩

/-! HUB_MEM_EVENT (32 bits, offset table 7.7). -/
def HUB_MEM_EVENT.BAND_UP : Field := ⟨.hub, 0x3018, 0, 1, 0, 1, .w1c, 0, .value⟩
def HUB_MEM_EVENT.BAND_DOWN : Field := ⟨.hub, 0x3018, 0, 1, 1, 1, .w1c, 0, .value⟩
def HUB_MEM_EVENT.HOT_BANK : Field := ⟨.hub, 0x3018, 0, 1, 2, 1, .w1c, 0, .value⟩
def HUB_MEM_EVENT.ADDER_REFUSED : Field := ⟨.hub, 0x3018, 0, 1, 3, 1, .w1c, 0, .value⟩
def HUB_MEM_EVENT.WINDOW_MISS : Field := ⟨.hub, 0x3018, 0, 1, 4, 1, .w1c, 0, .value⟩
def HUB_MEM_EVENT.MARGIN_DONE : Field := ⟨.hub, 0x3018, 0, 1, 5, 1, .w1c, 0, .value⟩

/-! HUB_HOTBANK_CTL (32 bits, offset table 7.7). -/
def HUB_HOTBANK_CTL.BUCKET : Field := ⟨.hub, 0x3020, 0, 1, 0, 8, .rw, 64, .value⟩
def HUB_HOTBANK_CTL.LEAK_US : Field := ⟨.hub, 0x3020, 0, 1, 8, 16, .rw, 1000, .value⟩
def HUB_HOTBANK_CTL.FRAC : Field := ⟨.hub, 0x3020, 0, 1, 24, 8, .rw, 128, .value⟩

/-! HUB_HOTBANK_STATUS (32 bits, offset table 7.7). -/
def HUB_HOTBANK_STATUS.TALLY : Field := ⟨.hub, 0x3024, 0, 1, 0, 8, .ro, 0, .value⟩
def HUB_HOTBANK_STATUS.CHANNEL : Field := ⟨.hub, 0x3024, 0, 1, 8, 8, .ro, 0, .value⟩
def HUB_HOTBANK_STATUS.BANK : Field := ⟨.hub, 0x3024, 0, 1, 16, 5, .ro, 0, .value⟩

/-! HUB_MARGIN_CTL (32 bits, offset table 7.7). -/
def HUB_MARGIN_CTL.TARGET : Field := ⟨.hub, 0x3030, 0, 1, 0, 12, .rw, 0, .value⟩
def HUB_MARGIN_CTL.TIER : Field := ⟨.hub, 0x3030, 0, 1, 12, 1, .rw, 0, .value⟩
def HUB_MARGIN_CTL.KIND : Field := ⟨.hub, 0x3030, 0, 1, 13, 1, .rw, 0, .value⟩
def HUB_MARGIN_CTL.START : Field := ⟨.hub, 0x3030, 0, 1, 14, 1, .wo, 0, .value⟩
def HUB_MARGIN_CTL.STEPS : Field := ⟨.hub, 0x3030, 0, 1, 16, 8, .rw, 32, .value⟩

/-! HUB_MARGIN_RESULT (32 bits, offset table 7.7). -/
def HUB_MARGIN_RESULT.LEFT : Field := ⟨.hub, 0x3034, 0, 1, 0, 8, .ro, 0, .value⟩
def HUB_MARGIN_RESULT.RIGHT : Field := ⟨.hub, 0x3034, 0, 1, 8, 8, .ro, 0, .value⟩
def HUB_MARGIN_RESULT.DONE : Field := ⟨.hub, 0x3034, 0, 1, 30, 1, .rc, 0, .value⟩
def HUB_MARGIN_RESULT.REFUSED : Field := ⟨.hub, 0x3034, 0, 1, 31, 1, .rc, 0, .value⟩

/-! HUB_MARGIN_LANE (32 bits, offset table 7.7). -/
def HUB_MARGIN_LANE.LANE : Field := ⟨.hub, 0x3038, 0, 1, 0, 10, .ro, 0, .value⟩

/-! HUB_CHAN_OOS (32 bits, offset table 7.7). -/
def HUB_CHAN_OOS.OOS : Field := ⟨.hub, 0x3040, 4, 6, 0, 32, .ro, 0, .value⟩

/-! HUB_T0_OOS (32 bits, offset table 7.7). -/
def HUB_T0_OOS.TILES : Field := ⟨.hub, 0x3058, 0, 1, 0, 16, .ro, 0, .value⟩

/-! THAPEL_CTL (32 bits, offset table 8.11). -/
def THAPEL_CTL.LINGER_NS : Field := ⟨.hub, 0x5000, 0, 1, 0, 12, .rwl, 500, .image⟩
def THAPEL_CTL.HANG_US : Field := ⟨.hub, 0x5000, 0, 1, 12, 16, .rwl, 1000, .image⟩

/-! THAPEL_MODE (32 bits, offset table 8.11). -/
def THAPEL_MODE.PROC : Field := ⟨.hub, 0x5010, 4, 6, 0, 32, .ro, 0, .value⟩

/-! THAPEL_OOS (32 bits, offset table 8.11). -/
def THAPEL_OOS.OOS : Field := ⟨.hub, 0x5030, 4, 6, 0, 32, .ro, 0, .value⟩

/-! THAPEL_EVENT (32 bits, offset table 8.11). -/
def THAPEL_EVENT.CHAN_BUSY : Field := ⟨.hub, 0x5050, 0, 1, 0, 1, .w1c, 0, .value⟩
def THAPEL_EVENT.REFRESH_ABANDON : Field := ⟨.hub, 0x5050, 0, 1, 1, 1, .w1c, 0, .value⟩
def THAPEL_EVENT.UNIT_FAULT : Field := ⟨.hub, 0x5050, 0, 1, 2, 1, .w1c, 0, .value⟩
def THAPEL_EVENT.HANG : Field := ⟨.hub, 0x5050, 0, 1, 3, 1, .w1c, 0, .value⟩
def THAPEL_EVENT.OOS_SET : Field := ⟨.hub, 0x5050, 0, 1, 4, 1, .w1c, 0, .value⟩
def THAPEL_EVENT.ODEC_UE : Field := ⟨.hub, 0x5050, 0, 1, 5, 1, .w1c, 0, .value⟩

/-! THAPEL_BUSY_REC (32 bits, offset table 8.11). -/
def THAPEL_BUSY_REC.CHANNEL : Field := ⟨.hub, 0x5054, 0, 1, 0, 8, .ro, 0, .value⟩
def THAPEL_BUSY_REC.REQUESTER : Field := ⟨.hub, 0x5054, 0, 1, 8, 1, .ro, 0, .value⟩
def THAPEL_BUSY_REC.VALID : Field := ⟨.hub, 0x5054, 0, 1, 31, 1, .w1c, 0, .value⟩

/-! THAPEL_HELD_MAX (32 bits, offset table 8.11). -/
def THAPEL_HELD_MAX.MAX_NS : Field := ⟨.hub, 0x5058, 0, 1, 0, 20, .rc, 0, .value⟩

/-! THAPEL_COUNT (32 bits, offset table 8.11). -/
def THAPEL_COUNT.ABANDONS : Field := ⟨.hub, 0x505c, 0, 1, 0, 16, .rc, 0, .value⟩
def THAPEL_COUNT.UNIT_RETRIES : Field := ⟨.hub, 0x505c, 0, 1, 16, 16, .rc, 0, .value⟩

/-! THAPEL_COUNT2 (32 bits, offset table 8.11). -/
def THAPEL_COUNT2.CHAN_BUSY : Field := ⟨.hub, 0x5060, 0, 1, 0, 16, .rc, 0, .value⟩
def THAPEL_COUNT2.MODE_ENTRIES : Field := ⟨.hub, 0x5060, 0, 1, 16, 16, .rc, 0, .value⟩

/-! BWR_ACCT (64 bits, offset table 9.5). -/
def BWR_ACCT.VALID : Field := ⟨.hub, 0x6000, 8, 128, 0, 1, .rwl, 0, .image⟩
def BWR_ACCT.MASTER : Field := ⟨.hub, 0x6000, 8, 128, 1, 5, .rwl, 0, .image⟩
def BWR_ACCT.PART : Field := ⟨.hub, 0x6000, 8, 128, 6, 4, .rwl, 0, .image⟩
def BWR_ACCT.WINDOW_8NS : Field := ⟨.hub, 0x6000, 8, 128, 10, 13, .rwl, 125, .image⟩
def BWR_ACCT.GUAR : Field := ⟨.hub, 0x6000, 8, 128, 24, 20, .rwl, 0, .image⟩
def BWR_ACCT.BE : Field := ⟨.hub, 0x6000, 8, 128, 44, 20, .rwl, 0, .image⟩

/-! BWR_THAPEL_ACCT (64 bits, offset table 9.5). -/
def BWR_THAPEL_ACCT.VALID : Field := ⟨.hub, 0x6400, 8, 16, 0, 1, .rwl, 0, .image⟩
def BWR_THAPEL_ACCT.WINDOW_8NS : Field := ⟨.hub, 0x6400, 8, 16, 10, 13, .rwl, 125, .image⟩
def BWR_THAPEL_ACCT.GUAR : Field := ⟨.hub, 0x6400, 8, 16, 24, 20, .rwl, 0, .image⟩
def BWR_THAPEL_ACCT.BE : Field := ⟨.hub, 0x6400, 8, 16, 44, 20, .rwl, 0, .image⟩

/-! BWR_SCALE (32 bits, offset table 9.5). -/
def BWR_SCALE.FACTOR : Field := ⟨.hub, 0x6480, 0, 1, 0, 11, .ro, 1024, .value⟩

/-! BWR_GUAR_SUM (32 bits, offset table 9.5). -/
def BWR_GUAR_SUM.GBPS : Field := ⟨.hub, 0x6484, 0, 1, 0, 16, .ro, 0, .image⟩

/-! BWR_EVENT (32 bits, offset table 9.5). -/
def BWR_EVENT.SHORTFALL_START : Field := ⟨.hub, 0x6488, 0, 1, 0, 1, .w1c, 0, .value⟩
def BWR_EVENT.SHORTFALL_END : Field := ⟨.hub, 0x6488, 0, 1, 1, 1, .w1c, 0, .value⟩
def BWR_EVENT.BORROW : Field := ⟨.hub, 0x6488, 0, 1, 2, 1, .w1c, 0, .value⟩
def BWR_EVENT.HOST_STALL : Field := ⟨.hub, 0x6488, 0, 1, 3, 1, .w1c, 0, .value⟩

/-! BWR_URGENCY (32 bits, offset table 9.5). -/
def BWR_URGENCY.FAB0 : Field := ⟨.hub, 0x648c, 0, 1, 0, 2, .ro, 0, .value⟩
def BWR_URGENCY.FAB1 : Field := ⟨.hub, 0x648c, 0, 1, 2, 2, .ro, 0, .value⟩
def BWR_URGENCY.FAB2 : Field := ⟨.hub, 0x648c, 0, 1, 4, 2, .ro, 0, .value⟩
def BWR_URGENCY.FAB3 : Field := ⟨.hub, 0x648c, 0, 1, 6, 2, .ro, 0, .value⟩
def BWR_URGENCY.HOST : Field := ⟨.hub, 0x648c, 0, 1, 8, 2, .ro, 0, .value⟩

/-! BWR_MON_CTL (32 bits, offset table 9.5). -/
def BWR_MON_CTL.SEL : Field := ⟨.hub, 0x6490, 0, 1, 0, 8, .rw, 0, .value⟩
def BWR_MON_CTL.SHIFT : Field := ⟨.hub, 0x6490, 0, 1, 8, 3, .rw, 0, .value⟩

/-! BWR_MON_MAX (32 bits, offset table 9.5). -/
def BWR_MON_MAX.MAX_NS : Field := ⟨.hub, 0x64a0, 0, 1, 0, 32, .rc, 0, .value⟩

/-! BWR_MON_BIN (32 bits, offset table 9.5). -/
def BWR_MON_BIN.COUNT : Field := ⟨.hub, 0x64a4, 4, 8, 0, 32, .rc, 0, .value⟩

/-! ERR_CTL (32 bits, offset table 10.12). -/
def ERR_CTL.MERGE_T0 : Field := ⟨.hub, 0x7000, 0, 1, 0, 1, .rwl, 0, .image⟩
def ERR_CTL.MERGE_T1P : Field := ⟨.hub, 0x7000, 0, 1, 1, 1, .rwl, 0, .image⟩
def ERR_CTL.MERGE_LLM : Field := ⟨.hub, 0x7000, 0, 1, 2, 1, .rwl, 0, .image⟩
def ERR_CTL.FORCE_RMW : Field := ⟨.hub, 0x7000, 0, 1, 3, 1, .ro, 0, .value⟩

/-! ERR_EVENT (32 bits, offset table 10.12). -/
def ERR_EVENT.TALLY_OVF : Field := ⟨.hub, 0x7004, 0, 1, 0, 4, .w1c, 0, .value⟩
def ERR_EVENT.UNCORRECTED : Field := ⟨.hub, 0x7004, 0, 1, 4, 1, .w1c, 0, .value⟩
def ERR_EVENT.WRITE_REFUSED : Field := ⟨.hub, 0x7004, 0, 1, 5, 1, .w1c, 0, .value⟩
def ERR_EVENT.Q_LOST : Field := ⟨.hub, 0x7004, 0, 1, 6, 1, .w1c, 0, .value⟩
def ERR_EVENT.FATAL : Field := ⟨.hub, 0x7004, 0, 1, 7, 1, .w1c, 0, .value⟩
def ERR_EVENT.RECORD : Field := ⟨.hub, 0x7004, 0, 1, 8, 1, .w1c, 0, .value⟩
def ERR_EVENT.SEALED_WRITE : Field := ⟨.hub, 0x7004, 0, 1, 9, 1, .w1c, 0, .value⟩

/-! ERR_TALLY (32 bits, offset table 10.12). -/
def ERR_TALLY.T0 : Field := ⟨.hub, 0x7008, 0, 1, 0, 8, .ro, 0, .value⟩
def ERR_TALLY.T1P : Field := ⟨.hub, 0x7008, 0, 1, 8, 8, .ro, 0, .value⟩
def ERR_TALLY.LLM : Field := ⟨.hub, 0x7008, 0, 1, 16, 8, .ro, 0, .value⟩
def ERR_TALLY.WSE : Field := ⟨.hub, 0x7008, 0, 1, 24, 8, .ro, 0, .value⟩

/-! ERR_CE_COUNT0 (32 bits, offset table 10.12). -/
def ERR_CE_COUNT0.T0 : Field := ⟨.hub, 0x700c, 0, 1, 0, 16, .rc, 0, .value⟩
def ERR_CE_COUNT0.WSE : Field := ⟨.hub, 0x700c, 0, 1, 16, 16, .rc, 0, .value⟩

/-! ERR_CE_COUNT1 (32 bits, offset table 10.12). -/
def ERR_CE_COUNT1.LLM : Field := ⟨.hub, 0x7010, 0, 1, 0, 16, .rc, 0, .value⟩
def ERR_CE_COUNT1.T1P : Field := ⟨.hub, 0x7010, 0, 1, 16, 16, .rc, 0, .value⟩

/-! ERR_SCRUB_CTL (32 bits, offset table 10.12). -/
def ERR_SCRUB_CTL.EN : Field := ⟨.hub, 0x7014, 0, 1, 0, 1, .rwl, 0, .image⟩
def ERR_SCRUB_CTL.PERIOD_H : Field := ⟨.hub, 0x7014, 0, 1, 8, 5, .rwl, 24, .image⟩

/-! ERR_SCRUB_STATUS (32 bits, offset table 10.12). -/
def ERR_SCRUB_STATUS.PASSES : Field := ⟨.hub, 0x7018, 0, 1, 0, 16, .ro, 0, .value⟩
def ERR_SCRUB_STATUS.SEAL_VERIFIES : Field := ⟨.hub, 0x7018, 0, 1, 16, 16, .rc, 0, .value⟩

/-! ERR_SELFTEST (32 bits, offset table 10.12). -/
def ERR_SELFTEST.WS_TILES : Field := ⟨.hub, 0x701c, 0, 1, 0, 16, .ro, 0, .value⟩
def ERR_SELFTEST.LLM_SLICES : Field := ⟨.hub, 0x701c, 0, 1, 16, 16, .ro, 0, .value⟩

/-! ERR_Q_PROD (32 bits, offset table 10.12). -/
def ERR_Q_PROD.PROD : Field := ⟨.hub, 0x7030, 0, 1, 0, 16, .ro, 0, .value⟩

/-! ERR_Q_CONS (32 bits, offset table 10.12). -/
def ERR_Q_CONS.CONS : Field := ⟨.hub, 0x7034, 0, 1, 0, 16, .rw, 0, .value⟩

/-! ERR_Q_MGMT (32 bits, offset table 10.12). -/
def ERR_Q_MGMT.MGMT : Field := ⟨.hub, 0x7038, 0, 1, 0, 16, .ro, 0, .value⟩

/-! ERR_Q_STATUS (32 bits, offset table 10.12). -/
def ERR_Q_STATUS.LOST : Field := ⟨.hub, 0x703c, 0, 1, 0, 16, .rc, 0, .value⟩

/-! ECC_RAW_CTL (32 bits, offset table 10.12). -/
def ECC_RAW_CTL.OP : Field := ⟨.hub, 0x7100, 0, 1, 0, 2, .rw, 0, .value⟩
def ECC_RAW_CTL.CLASS : Field := ⟨.hub, 0x7100, 0, 1, 2, 2, .rw, 0, .value⟩
def ECC_RAW_CTL.TILE : Field := ⟨.hub, 0x7100, 0, 1, 4, 4, .rw, 0, .value⟩
def ECC_RAW_CTL.START : Field := ⟨.hub, 0x7100, 0, 1, 8, 1, .wo, 0, .value⟩

/-! ECC_RAW_ADDR (64 bits, offset table 10.12). -/
def ECC_RAW_ADDR.OFFSET : Field := ⟨.hub, 0x7108, 0, 1, 0, 36, .rw, 0, .value⟩
def ECC_RAW_ADDR.CHANNEL : Field := ⟨.hub, 0x7108, 0, 1, 36, 10, .rw, 0, .value⟩

/-! ECC_RAW_STATUS (32 bits, offset table 10.12). -/
def ECC_RAW_STATUS.RESULT : Field := ⟨.hub, 0x7110, 0, 1, 0, 3, .ro, 0, .value⟩
def ECC_RAW_STATUS.POSITION : Field := ⟨.hub, 0x7110, 0, 1, 8, 8, .ro, 0, .value⟩
def ECC_RAW_STATUS.REFUSED : Field := ⟨.hub, 0x7110, 0, 1, 30, 1, .rc, 0, .value⟩
def ECC_RAW_STATUS.DONE : Field := ⟨.hub, 0x7110, 0, 1, 31, 1, .rc, 0, .value⟩

/-! ECC_RAW_CHECK (64 bits, offset table 10.12). -/
def ECC_RAW_CHECK.CHECK : Field := ⟨.hub, 0x7118, 0, 1, 0, 64, .rw, 0, .value⟩

/-! ECC_RAW_SYN (64 bits, offset table 10.12). -/
def ECC_RAW_SYN.SYNDROME : Field := ⟨.hub, 0x7120, 0, 1, 0, 64, .ro, 0, .value⟩

/-! ECC_RAW_DATA (64 bits, offset table 10.12). -/
def ECC_RAW_DATA.DATA : Field := ⟨.hub, 0x7140, 8, 8, 0, 64, .rw, 0, .value⟩

/-! HIF_PRIV (32 bits, offset table 11.6). -/
def HIF_PRIV.PRIV : Field := ⟨.hif, 0x0, 0, 1, 0, 1, .ro, 0, .value⟩

/-! HIF_EVENT (32 bits, offset table 11.6). -/
def HIF_EVENT.DB_DISCARD : Field := ⟨.hif, 0x4, 0, 1, 0, 1, .w1c, 0, .value⟩
def HIF_EVENT.SEG_REFUSED : Field := ⟨.hif, 0x4, 0, 1, 1, 1, .w1c, 0, .value⟩
def HIF_EVENT.LINK_DOWN : Field := ⟨.hif, 0x4, 0, 1, 2, 1, .w1c, 0, .value⟩

/-! HIF_VF_BIND (32 bits, offset table 11.6). -/
def HIF_VF_BIND.PART : Field := ⟨.hif, 0x10, 4, 17, 0, 4, .rwl, 0, .image⟩
def HIF_VF_BIND.EN : Field := ⟨.hif, 0x10, 4, 17, 4, 1, .rwl, 0, .image⟩

/-! HIF_BAR4_SEG (64 bits, offset table 11.6). -/
def HIF_BAR4_SEG.VALID : Field := ⟨.hif, 0x100, 8, 16, 0, 1, .rw, 0, .value⟩
def HIF_BAR4_SEG.PART : Field := ⟨.hif, 0x100, 8, 16, 1, 4, .rw, 0, .value⟩
def HIF_BAR4_SEG.BASE : Field := ⟨.hif, 0x100, 8, 16, 32, 12, .rw, 0, .value⟩

/-! HIF_HWIN_BASE (64 bits, offset table 11.6). -/
def HIF_HWIN_BASE.BASE : Field := ⟨.hif, 0x200, 8, 16, 12, 52, .rwl, 0, .image⟩

/-! HIF_VF_SEG (64 bits, offset table 11.6). -/
def HIF_VF_SEG.VALID : Field := ⟨.hif, 0x300, 8, 17, 0, 1, .rw, 0, .value⟩
def HIF_VF_SEG.BASE : Field := ⟨.hif, 0x300, 8, 17, 32, 12, .rw, 0, .value⟩

/-! DECK_SEL (32 bits, offset table 12.13). -/
def DECK_SEL.DECK : Field := ⟨.deck, 0x0, 0, 1, 0, 15, .rw, 0, .value⟩

/-! DECK_CTL (32 bits, offset table 12.13). -/
def DECK_CTL.STOP : Field := ⟨.deck, 0x4, 0, 1, 0, 1, .wo, 0, .value⟩

/-! DECK_BASE (64 bits, offset table 12.13). -/
def DECK_BASE.BASE : Field := ⟨.deck, 0x8, 0, 1, 12, 32, .rw, 0, .value⟩

/-! DECK_CQ_BASE (64 bits, offset table 12.13). -/
def DECK_CQ_BASE.BASE : Field := ⟨.deck, 0x10, 0, 1, 12, 32, .rw, 0, .value⟩

/-! DECK_TS_BASE (64 bits, offset table 12.13). -/
def DECK_TS_BASE.BASE : Field := ⟨.deck, 0x18, 0, 1, 12, 32, .rw, 0, .value⟩

/-! DECK_CFG (32 bits, offset table 12.13). -/
def DECK_CFG.SIZE_LOG2 : Field := ⟨.deck, 0x20, 0, 1, 0, 5, .rw, 4, .value⟩
def DECK_CFG.CQ_LOG2 : Field := ⟨.deck, 0x20, 0, 1, 5, 5, .rw, 4, .value⟩
def DECK_CFG.TS_LOG2 : Field := ⟨.deck, 0x20, 0, 1, 10, 5, .rw, 6, .value⟩
def DECK_CFG.IRQ_EN : Field := ⟨.deck, 0x20, 0, 1, 15, 1, .rw, 0, .value⟩
def DECK_CFG.VECTOR : Field := ⟨.deck, 0x20, 0, 1, 16, 11, .rw, 16, .value⟩
def DECK_CFG.EN : Field := ⟨.deck, 0x20, 0, 1, 31, 1, .rw, 0, .value⟩

/-! DECK_QCFG (32 bits, offset table 12.13). -/
def DECK_QCFG.PART : Field := ⟨.deck, 0x24, 0, 1, 0, 4, .ro, 0, .image⟩
def DECK_QCFG.CLASS : Field := ⟨.deck, 0x24, 0, 1, 4, 2, .ro, 0, .image⟩
def DECK_QCFG.LIMIT : Field := ⟨.deck, 0x24, 0, 1, 6, 7, .ro, 0, .image⟩
def DECK_QCFG.ASSIGNED : Field := ⟨.deck, 0x24, 0, 1, 13, 1, .ro, 0, .image⟩

/-! DECK_STATUS (32 bits, offset table 12.13). -/
def DECK_STATUS.FETCH : Field := ⟨.deck, 0x28, 0, 1, 0, 16, .ro, 0, .value⟩
def DECK_STATUS.STATE : Field := ⟨.deck, 0x28, 0, 1, 16, 2, .ro, 0, .value⟩
def DECK_STATUS.IN_EXEC : Field := ⟨.deck, 0x28, 0, 1, 18, 7, .ro, 0, .value⟩
def DECK_STATUS.BLOCKED : Field := ⟨.deck, 0x28, 0, 1, 25, 1, .ro, 0, .value⟩

/-! DECK_RING_STATUS (32 bits, offset table 12.13). -/
def DECK_RING_STATUS.CQ_PROD : Field := ⟨.deck, 0x2c, 0, 1, 0, 16, .ro, 0, .value⟩
def DECK_RING_STATUS.TS_PROD : Field := ⟨.deck, 0x2c, 0, 1, 16, 16, .ro, 0, .value⟩

/-! DECK_EVENT (32 bits, offset table 12.13). -/
def DECK_EVENT.CFG_REFUSED : Field := ⟨.deck, 0x30, 0, 1, 0, 1, .w1c, 0, .value⟩
def DECK_EVENT.CTX_UE : Field := ⟨.deck, 0x30, 0, 1, 1, 1, .w1c, 0, .value⟩
def DECK_EVENT.ACTIVE_FULL : Field := ⟨.deck, 0x30, 0, 1, 2, 1, .w1c, 0, .value⟩
def DECK_EVENT.LATE : Field := ⟨.deck, 0x30, 0, 1, 3, 1, .w1c, 0, .value⟩

/-! DECK_COUNT (32 bits, offset table 12.13). -/
def DECK_COUNT.LATE : Field := ⟨.deck, 0x34, 0, 1, 0, 16, .rc, 0, .value⟩
def DECK_COUNT.TIMEOUTS : Field := ⟨.deck, 0x34, 0, 1, 16, 16, .rc, 0, .value⟩

/-! DECK_PARK_US (32 bits, offset table 12.13). -/
def DECK_PARK_US.IDLE_US : Field := ⟨.deck, 0x38, 0, 1, 0, 20, .rwl, 0, .image⟩

/-! EVT_SEL (32 bits, offset table 12.13). -/
def EVT_SEL.EVENT : Field := ⟨.deck, 0x40, 0, 1, 0, 10, .rw, 0, .value⟩

/-! EVT_COUNT (64 bits, offset table 12.13). -/
def EVT_COUNT.COUNT : Field := ⟨.deck, 0x48, 0, 1, 0, 64, .ro, 0, .value⟩

/-! PROT_CTL (32 bits, offset table 13.5). -/
def PROT_CTL.COMMIT : Field := ⟨.prot, 0x0, 0, 1, 0, 1, .wo, 0, .value⟩
def PROT_CTL.VIEW : Field := ⟨.prot, 0x0, 0, 1, 1, 1, .rw, 0, .value⟩

/-! PROT_GEN (32 bits, offset table 13.5). -/
def PROT_GEN.ACTIVE : Field := ⟨.prot, 0x4, 0, 1, 0, 8, .ro, 0, .value⟩
def PROT_GEN.PENDING : Field := ⟨.prot, 0x4, 0, 1, 8, 1, .ro, 0, .value⟩

/-! PROT_COMMIT_TIME (64 bits, offset table 13.5). -/
def PROT_COMMIT_TIME.T_C : Field := ⟨.prot, 0x8, 0, 1, 0, 64, .ro, 0, .value⟩

/-! PROT_FENCE (32 bits, offset table 13.5). -/
def PROT_FENCE.DRAINED : Field := ⟨.prot, 0x10, 0, 1, 0, 1, .ro, 1, .value⟩
def PROT_FENCE.OLD_COUNT : Field := ⟨.prot, 0x10, 0, 1, 8, 16, .ro, 0, .value⟩

/-! PROT_EVENT (32 bits, offset table 13.5). -/
def PROT_EVENT.REFUSED : Field := ⟨.prot, 0x14, 0, 1, 0, 1, .w1c, 0, .value⟩
def PROT_EVENT.COMMIT_REFUSED : Field := ⟨.prot, 0x14, 0, 1, 1, 1, .w1c, 0, .value⟩
def PROT_EVENT.DRAIN_SLOW : Field := ⟨.prot, 0x14, 0, 1, 2, 1, .w1c, 0, .value⟩
def PROT_EVENT.PART_RESET_DONE : Field := ⟨.prot, 0x14, 0, 1, 3, 1, .w1c, 0, .value⟩
def PROT_EVENT.LOAD_DONE : Field := ⟨.prot, 0x14, 0, 1, 4, 1, .w1c, 0, .value⟩
def PROT_EVENT.LOAD_FAIL : Field := ⟨.prot, 0x14, 0, 1, 5, 1, .w1c, 0, .value⟩
def PROT_EVENT.SHADOW_LOCKED : Field := ⟨.prot, 0x14, 0, 1, 6, 1, .w1c, 0, .value⟩

/-! PROT_REFUSE_REC (64 bits, offset table 13.5). -/
def PROT_REFUSE_REC.ADDRESS : Field := ⟨.prot, 0x18, 0, 1, 0, 44, .ro, 0, .value⟩
def PROT_REFUSE_REC.PART : Field := ⟨.prot, 0x18, 0, 1, 44, 4, .ro, 0, .value⟩
def PROT_REFUSE_REC.SOURCE : Field := ⟨.prot, 0x18, 0, 1, 48, 3, .ro, 0, .value⟩
def PROT_REFUSE_REC.RIGHT : Field := ⟨.prot, 0x18, 0, 1, 51, 3, .ro, 0, .value⟩
def PROT_REFUSE_REC.VALID : Field := ⟨.prot, 0x18, 0, 1, 63, 1, .w1c, 0, .value⟩

/-! PART_CMD (32 bits, offset table 13.5). -/
def PART_CMD.PART : Field := ⟨.prot, 0x20, 0, 1, 0, 4, .wo, 0, .value⟩
def PART_CMD.OP : Field := ⟨.prot, 0x20, 0, 1, 4, 2, .wo, 0, .value⟩

/-! PART_STATUS (32 bits, offset table 13.5). -/
def PART_STATUS.STATE0 : Field := ⟨.prot, 0x24, 0, 1, 0, 2, .ro, 0, .image⟩
def PART_STATUS.STATE1 : Field := ⟨.prot, 0x24, 0, 1, 2, 2, .ro, 0, .image⟩
def PART_STATUS.STATE2 : Field := ⟨.prot, 0x24, 0, 1, 4, 2, .ro, 0, .image⟩
def PART_STATUS.STATE3 : Field := ⟨.prot, 0x24, 0, 1, 6, 2, .ro, 0, .image⟩
def PART_STATUS.STATE4 : Field := ⟨.prot, 0x24, 0, 1, 8, 2, .ro, 0, .image⟩
def PART_STATUS.STATE5 : Field := ⟨.prot, 0x24, 0, 1, 10, 2, .ro, 0, .image⟩
def PART_STATUS.STATE6 : Field := ⟨.prot, 0x24, 0, 1, 12, 2, .ro, 0, .image⟩
def PART_STATUS.STATE7 : Field := ⟨.prot, 0x24, 0, 1, 14, 2, .ro, 0, .image⟩
def PART_STATUS.STATE8 : Field := ⟨.prot, 0x24, 0, 1, 16, 2, .ro, 0, .image⟩
def PART_STATUS.STATE9 : Field := ⟨.prot, 0x24, 0, 1, 18, 2, .ro, 0, .image⟩
def PART_STATUS.STATE10 : Field := ⟨.prot, 0x24, 0, 1, 20, 2, .ro, 0, .image⟩
def PART_STATUS.STATE11 : Field := ⟨.prot, 0x24, 0, 1, 22, 2, .ro, 0, .image⟩
def PART_STATUS.STATE12 : Field := ⟨.prot, 0x24, 0, 1, 24, 2, .ro, 0, .image⟩
def PART_STATUS.STATE13 : Field := ⟨.prot, 0x24, 0, 1, 26, 2, .ro, 0, .image⟩
def PART_STATUS.STATE14 : Field := ⟨.prot, 0x24, 0, 1, 28, 2, .ro, 0, .image⟩
def PART_STATUS.STATE15 : Field := ⟨.prot, 0x24, 0, 1, 30, 2, .ro, 0, .image⟩

/-! PART_TOWER_MAP (64 bits, offset table 13.5). -/
def PART_TOWER_MAP.PART0 : Field := ⟨.prot, 0x28, 0, 1, 0, 4, .ro, 0, .image⟩
def PART_TOWER_MAP.PART1 : Field := ⟨.prot, 0x28, 0, 1, 4, 4, .ro, 0, .image⟩
def PART_TOWER_MAP.PART2 : Field := ⟨.prot, 0x28, 0, 1, 8, 4, .ro, 0, .image⟩
def PART_TOWER_MAP.PART3 : Field := ⟨.prot, 0x28, 0, 1, 12, 4, .ro, 0, .image⟩
def PART_TOWER_MAP.PART4 : Field := ⟨.prot, 0x28, 0, 1, 16, 4, .ro, 0, .image⟩
def PART_TOWER_MAP.PART5 : Field := ⟨.prot, 0x28, 0, 1, 20, 4, .ro, 0, .image⟩
def PART_TOWER_MAP.PART6 : Field := ⟨.prot, 0x28, 0, 1, 24, 4, .ro, 0, .image⟩
def PART_TOWER_MAP.PART7 : Field := ⟨.prot, 0x28, 0, 1, 28, 4, .ro, 0, .image⟩
def PART_TOWER_MAP.PART8 : Field := ⟨.prot, 0x28, 0, 1, 32, 4, .ro, 0, .image⟩
def PART_TOWER_MAP.PART9 : Field := ⟨.prot, 0x28, 0, 1, 36, 4, .ro, 0, .image⟩
def PART_TOWER_MAP.PART10 : Field := ⟨.prot, 0x28, 0, 1, 40, 4, .ro, 0, .image⟩
def PART_TOWER_MAP.PART11 : Field := ⟨.prot, 0x28, 0, 1, 44, 4, .ro, 0, .image⟩
def PART_TOWER_MAP.PART12 : Field := ⟨.prot, 0x28, 0, 1, 48, 4, .ro, 0, .image⟩
def PART_TOWER_MAP.PART13 : Field := ⟨.prot, 0x28, 0, 1, 52, 4, .ro, 0, .image⟩
def PART_TOWER_MAP.PART14 : Field := ⟨.prot, 0x28, 0, 1, 56, 4, .ro, 0, .image⟩
def PART_TOWER_MAP.PART15 : Field := ⟨.prot, 0x28, 0, 1, 60, 4, .ro, 0, .image⟩

/-! PART_TOWER_EN (32 bits, offset table 13.5). -/
def PART_TOWER_EN.ASSIGNED : Field := ⟨.prot, 0x30, 0, 1, 0, 16, .ro, 0, .image⟩

/-! PART_LOAD_STATUS (32 bits, offset table 13.5). -/
def PART_LOAD_STATUS.RESULT : Field := ⟨.prot, 0x34, 0, 1, 0, 8, .ro, 0, .value⟩
def PART_LOAD_STATUS.SECTION : Field := ⟨.prot, 0x34, 0, 1, 8, 8, .ro, 0, .value⟩
def PART_LOAD_STATUS.PART : Field := ⟨.prot, 0x34, 0, 1, 16, 4, .ro, 0, .value⟩

/-! PART_LOAD_ADDR (64 bits, offset table 13.5). -/
def PART_LOAD_ADDR.ADDR : Field := ⟨.prot, 0x38, 0, 1, 0, 44, .rw, 0, .value⟩

/-! PROT_ENT_CTL (32 bits, offset table 13.5). -/
def PROT_ENT_CTL.VALID : Field := ⟨.prot, 0x1000, 32, 512, 0, 1, .rw, 0, .image⟩
def PROT_ENT_CTL.KIND : Field := ⟨.prot, 0x1000, 32, 512, 1, 1, .rw, 0, .image⟩
def PROT_ENT_CTL.PART : Field := ⟨.prot, 0x1000, 32, 512, 2, 4, .rw, 0, .image⟩
def PROT_ENT_CTL.RIGHTS : Field := ⟨.prot, 0x1000, 32, 512, 6, 4, .rw, 0, .image⟩
def PROT_ENT_CTL.SRC : Field := ⟨.prot, 0x1000, 32, 512, 10, 5, .rw, 0, .image⟩

/-! PROT_ENT_BASE (64 bits, offset table 13.5). -/
def PROT_ENT_BASE.BASE : Field := ⟨.prot, 0x1008, 32, 512, 0, 44, .rw, 0, .image⟩

/-! PROT_ENT_SIZE (64 bits, offset table 13.5). -/
def PROT_ENT_SIZE.SIZE : Field := ⟨.prot, 0x1010, 32, 512, 0, 44, .rw, 0, .image⟩

/-! FAB_ADDR (32 bits, offset table 14.14). -/
def FAB_ADDR.ADDR : Field := ⟨.fabric, 0x0, 0, 1, 0, 20, .rwl, 0, .image⟩

/-! FAB_SYS_ID (32 bits, offset table 14.14). -/
def FAB_SYS_ID.SYS_ID : Field := ⟨.fabric, 0x4, 0, 1, 0, 32, .rwl, 0, .image⟩

/-! FAB_CTL (32 bits, offset table 14.14). -/
def FAB_CTL.MAX_HOPS : Field := ⟨.fabric, 0x8, 0, 1, 0, 6, .rwl, 16, .image⟩
def FAB_CTL.FWD_EN : Field := ⟨.fabric, 0x8, 0, 1, 6, 1, .ro, 0, .value⟩

/-! FAB_EVENT (32 bits, offset table 14.14). -/
def FAB_EVENT.DEGRADED : Field := ⟨.fabric, 0xc, 0, 1, 0, 1, .w1c, 0, .value⟩
def FAB_EVENT.LINK_DOWN : Field := ⟨.fabric, 0xc, 0, 1, 1, 1, .w1c, 0, .value⟩
def FAB_EVENT.AUTH_FAIL : Field := ⟨.fabric, 0xc, 0, 1, 2, 1, .w1c, 0, .value⟩
def FAB_EVENT.QUARANTINE : Field := ⟨.fabric, 0xc, 0, 1, 3, 1, .w1c, 0, .value⟩
def FAB_EVENT.ROUTE_LOSS : Field := ⟨.fabric, 0xc, 0, 1, 4, 1, .w1c, 0, .value⟩
def FAB_EVENT.CRUISE_DONE : Field := ⟨.fabric, 0xc, 0, 1, 5, 1, .w1c, 0, .value⟩
def FAB_EVENT.TIME_UNCHECKED : Field := ⟨.fabric, 0xc, 0, 1, 6, 1, .w1c, 0, .value⟩

/-! FAB_CRUISE_CTL (32 bits, offset table 14.14). -/
def FAB_CRUISE_CTL.START : Field := ⟨.fabric, 0x10, 0, 1, 0, 1, .wo, 0, .value⟩
def FAB_CRUISE_CTL.GROUP_PROBE : Field := ⟨.fabric, 0x10, 0, 1, 1, 1, .rwl, 0, .image⟩
def FAB_CRUISE_CTL.LIMIT_MS : Field := ⟨.fabric, 0x10, 0, 1, 16, 16, .rwl, 5000, .image⟩

/-! FAB_CRUISE_STATUS (32 bits, offset table 14.14). -/
def FAB_CRUISE_STATUS.RUNNING : Field := ⟨.fabric, 0x14, 0, 1, 0, 1, .ro, 0, .value⟩
def FAB_CRUISE_STATUS.DONE : Field := ⟨.fabric, 0x14, 0, 1, 1, 1, .rc, 0, .value⟩

/-! FAB_LIVE (32 bits, offset table 14.14). -/
def FAB_LIVE.PORTS : Field := ⟨.fabric, 0x18, 0, 1, 0, 16, .ro, 0, .value⟩

/-! FAB_PORT_CTL (32 bits, offset table 14.14). -/
def FAB_PORT_CTL.EN : Field := ⟨.fabric, 0x1000, 64, 16, 0, 1, .rwl, 0, .image⟩
def FAB_PORT_CTL.SRC_LOCK : Field := ⟨.fabric, 0x1000, 64, 16, 1, 1, .rwl, 0, .image⟩
def FAB_PORT_CTL.DATELINE : Field := ⟨.fabric, 0x1000, 64, 16, 2, 1, .rw, 0, .image⟩
def FAB_PORT_CTL.QUARANTINE : Field := ⟨.fabric, 0x1000, 64, 16, 3, 1, .w1s, 0, .value⟩
def FAB_PORT_CTL.RELEASE : Field := ⟨.fabric, 0x1000, 64, 16, 4, 1, .wo, 0, .value⟩
def FAB_PORT_CTL.RETRAIN : Field := ⟨.fabric, 0x1000, 64, 16, 5, 1, .wo, 0, .value⟩
def FAB_PORT_CTL.WARM_OK : Field := ⟨.fabric, 0x1000, 64, 16, 6, 1, .rwl, 0, .image⟩

/-! FAB_PORT_STATUS (32 bits, offset table 14.14). -/
def FAB_PORT_STATUS.STATE : Field := ⟨.fabric, 0x1004, 64, 16, 0, 4, .ro, 0, .value⟩
def FAB_PORT_STATUS.WIDTH : Field := ⟨.fabric, 0x1004, 64, 16, 4, 2, .ro, 0, .value⟩
def FAB_PORT_STATUS.LANES : Field := ⟨.fabric, 0x1004, 64, 16, 6, 8, .ro, 0, .value⟩
def FAB_PORT_STATUS.REVERSED : Field := ⟨.fabric, 0x1004, 64, 16, 14, 1, .ro, 0, .value⟩
def FAB_PORT_STATUS.WARM : Field := ⟨.fabric, 0x1004, 64, 16, 15, 1, .ro, 0, .value⟩
def FAB_PORT_STATUS.FAIL_CAUSE : Field := ⟨.fabric, 0x1004, 64, 16, 16, 4, .ro, 0, .value⟩

/-! FAB_PORT_EXPECT (32 bits, offset table 14.14). -/
def FAB_PORT_EXPECT.ADDR : Field := ⟨.fabric, 0x1008, 64, 16, 0, 20, .rwl, 0, .image⟩
def FAB_PORT_EXPECT.ANY : Field := ⟨.fabric, 0x1008, 64, 16, 20, 1, .rwl, 0, .image⟩
def FAB_PORT_EXPECT.REQUIRED : Field := ⟨.fabric, 0x1008, 64, 16, 21, 1, .rwl, 0, .image⟩
def FAB_PORT_EXPECT.MIN_WIDTH : Field := ⟨.fabric, 0x1008, 64, 16, 22, 2, .rwl, 0, .image⟩
def FAB_PORT_EXPECT.PARTNER_PORT : Field := ⟨.fabric, 0x1008, 64, 16, 24, 4, .rwl, 0, .image⟩
def FAB_PORT_EXPECT.PORT_ANY : Field := ⟨.fabric, 0x1008, 64, 16, 28, 1, .rwl, 0, .image⟩

/-! FAB_PORT_PARTNER (32 bits, offset table 14.14). -/
def FAB_PORT_PARTNER.ADDR : Field := ⟨.fabric, 0x100c, 64, 16, 0, 20, .ro, 0, .value⟩
def FAB_PORT_PARTNER.PORT : Field := ⟨.fabric, 0x100c, 64, 16, 20, 4, .ro, 0, .value⟩
def FAB_PORT_PARTNER.VALID : Field := ⟨.fabric, 0x100c, 64, 16, 24, 1, .ro, 0, .value⟩

/-! FAB_PORT_TALLY_CTL (32 bits, offset table 14.14). -/
def FAB_PORT_TALLY_CTL.BUCKET : Field := ⟨.fabric, 0x1010, 64, 16, 0, 8, .rwl, 32, .image⟩
def FAB_PORT_TALLY_CTL.LEAK_MS : Field := ⟨.fabric, 0x1010, 64, 16, 8, 16, .rwl, 100, .image⟩

/-! FAB_PORT_TALLY (32 bits, offset table 14.14). -/
def FAB_PORT_TALLY.LEVEL : Field := ⟨.fabric, 0x1014, 64, 16, 0, 8, .ro, 0, .value⟩
def FAB_PORT_TALLY.LAST_CAUSE : Field := ⟨.fabric, 0x1014, 64, 16, 8, 4, .ro, 0, .value⟩

/-! FAB_PORT_RATE (32 bits, offset table 14.14). -/
def FAB_PORT_RATE.MSG_PER_US : Field := ⟨.fabric, 0x1018, 64, 16, 0, 16, .rwl, 0, .image⟩
def FAB_PORT_RATE.MGMT_PER_MS : Field := ⟨.fabric, 0x1018, 64, 16, 16, 16, .rwl, 65535, .image⟩

/-! FAB_PORT_ARB (32 bits, offset table 14.14). -/
def FAB_PORT_ARB.WEIGHT2 : Field := ⟨.fabric, 0x101c, 64, 16, 0, 4, .rwl, 0, .image⟩
def FAB_PORT_ARB.WEIGHT3 : Field := ⟨.fabric, 0x101c, 64, 16, 4, 4, .rwl, 0, .image⟩
def FAB_PORT_ARB.WEIGHT4 : Field := ⟨.fabric, 0x101c, 64, 16, 8, 4, .rwl, 0, .image⟩
def FAB_PORT_ARB.WEIGHT5 : Field := ⟨.fabric, 0x101c, 64, 16, 12, 4, .rwl, 0, .image⟩
def FAB_PORT_ARB.WEIGHT6 : Field := ⟨.fabric, 0x101c, 64, 16, 16, 4, .rwl, 0, .image⟩
def FAB_PORT_ARB.WEIGHT7 : Field := ⟨.fabric, 0x101c, 64, 16, 20, 4, .rwl, 0, .image⟩

/-! FAB_PORT_COUNT (32 bits, offset table 14.14). -/
def FAB_PORT_COUNT.FEC_CORR : Field := ⟨.fabric, 0x1020, 64, 16, 0, 16, .rc, 0, .value⟩
def FAB_PORT_COUNT.FEC_UNCORR : Field := ⟨.fabric, 0x1020, 64, 16, 16, 16, .rc, 0, .value⟩

/-! FAB_PORT_COUNT2 (32 bits, offset table 14.14). -/
def FAB_PORT_COUNT2.REPLAYS : Field := ⟨.fabric, 0x1024, 64, 16, 0, 16, .rc, 0, .value⟩
def FAB_PORT_COUNT2.MALFORMED : Field := ⟨.fabric, 0x1024, 64, 16, 16, 16, .rc, 0, .value⟩

/-! FAB_PORT_COUNT3 (32 bits, offset table 14.14). -/
def FAB_PORT_COUNT3.HOP_DROP : Field := ⟨.fabric, 0x1028, 64, 16, 0, 16, .rc, 0, .value⟩
def FAB_PORT_COUNT3.UNROUTABLE : Field := ⟨.fabric, 0x1028, 64, 16, 16, 16, .rc, 0, .value⟩

/-! FAB_GRP_TBL (32 bits, offset table 14.14 and Table 14.9). -/
def FAB_GRP_TBL.PATH0 : Field := ⟨.fabric, 0x4000, 4, 4096, 0, 4, .rw, 0, .image⟩
def FAB_GRP_TBL.PATH1 : Field := ⟨.fabric, 0x4000, 4, 4096, 4, 4, .rw, 0, .image⟩
def FAB_GRP_TBL.PATH2 : Field := ⟨.fabric, 0x4000, 4, 4096, 8, 4, .rw, 0, .image⟩
def FAB_GRP_TBL.PATH3 : Field := ⟨.fabric, 0x4000, 4, 4096, 12, 4, .rw, 0, .image⟩
def FAB_GRP_TBL.NPATH : Field := ⟨.fabric, 0x4000, 4, 4096, 16, 2, .rw, 0, .image⟩
def FAB_GRP_TBL.VALID : Field := ⟨.fabric, 0x4000, 4, 4096, 18, 1, .rw, 0, .image⟩
def FAB_GRP_TBL.LOCAL : Field := ⟨.fabric, 0x4000, 4, 4096, 19, 1, .rw, 0, .image⟩
def FAB_GRP_TBL.PROBE_OK : Field := ⟨.fabric, 0x4000, 4, 4096, 20, 4, .ro, 0, .value⟩
def FAB_GRP_TBL.PROBE_MEMBER : Field := ⟨.fabric, 0x4000, 4, 4096, 24, 8, .rw, 0, .image⟩

/-! FAB_MBR_TBL (32 bits, offset table 14.14 and Table 14.9). -/
def FAB_MBR_TBL.PATH0 : Field := ⟨.fabric, 0x8000, 4, 256, 0, 4, .rw, 0, .image⟩
def FAB_MBR_TBL.PATH1 : Field := ⟨.fabric, 0x8000, 4, 256, 4, 4, .rw, 0, .image⟩
def FAB_MBR_TBL.PATH2 : Field := ⟨.fabric, 0x8000, 4, 256, 8, 4, .rw, 0, .image⟩
def FAB_MBR_TBL.PATH3 : Field := ⟨.fabric, 0x8000, 4, 256, 12, 4, .rw, 0, .image⟩
def FAB_MBR_TBL.NPATH : Field := ⟨.fabric, 0x8000, 4, 256, 16, 2, .rw, 0, .image⟩
def FAB_MBR_TBL.VALID : Field := ⟨.fabric, 0x8000, 4, 256, 18, 1, .rw, 0, .image⟩
def FAB_MBR_TBL.SELF : Field := ⟨.fabric, 0x8000, 4, 256, 19, 1, .rw, 0, .image⟩
def FAB_MBR_TBL.PROBE_OK : Field := ⟨.fabric, 0x8000, 4, 256, 20, 4, .ro, 0, .value⟩

/-! FAB_TP_CTL (32 bits, offset table 15.9). -/
def FAB_TP_CTL.RTO_US : Field := ⟨.fabric, 0x100, 0, 1, 0, 16, .rwl, 50, .image⟩
def FAB_TP_CTL.RETRIES : Field := ⟨.fabric, 0x100, 0, 1, 16, 4, .rwl, 8, .image⟩
def FAB_TP_CTL.NOTREADY_MS : Field := ⟨.fabric, 0x100, 0, 1, 20, 12, .rwl, 1000, .image⟩

/-! FAB_TP_STATUS (32 bits, offset table 15.9). -/
def FAB_TP_STATUS.SEND_CTX : Field := ⟨.fabric, 0x104, 0, 1, 0, 11, .ro, 0, .value⟩
def FAB_TP_STATUS.RECV_CTX : Field := ⟨.fabric, 0x104, 0, 1, 16, 13, .ro, 0, .value⟩

/-! FAB_TP_COUNT (32 bits, offset table 15.9). -/
def FAB_TP_COUNT.RESENDS : Field := ⟨.fabric, 0x108, 0, 1, 0, 16, .rc, 0, .value⟩
def FAB_TP_COUNT.DUPLICATES : Field := ⟨.fabric, 0x108, 0, 1, 16, 16, .rc, 0, .value⟩

/-! FAB_TP_COUNT2 (32 bits, offset table 15.9). -/
def FAB_TP_COUNT2.TIMEOUTS : Field := ⟨.fabric, 0x10c, 0, 1, 0, 16, .rc, 0, .value⟩
def FAB_TP_COUNT2.NO_STREAM : Field := ⟨.fabric, 0x10c, 0, 1, 16, 16, .rc, 0, .value⟩

/-! FAB_TREE_PARENT (32 bits, offset table 15.9). -/
def FAB_TREE_PARENT.ADDR : Field := ⟨.fabric, 0x110, 0, 1, 0, 20, .rwl, 0, .image⟩
def FAB_TREE_PARENT.VALID : Field := ⟨.fabric, 0x110, 0, 1, 20, 1, .rwl, 0, .image⟩

/-! FAB_TREE_CHILD (32 bits, offset table 15.9). -/
def FAB_TREE_CHILD.ADDR : Field := ⟨.fabric, 0x140, 4, 16, 0, 20, .rwl, 0, .image⟩
def FAB_TREE_CHILD.VALID : Field := ⟨.fabric, 0x140, 4, 16, 20, 1, .rwl, 0, .image⟩

/-! FAB_BAR_CTL (32 bits, offset table 15.9). -/
def FAB_BAR_CTL.LOCAL_COUNT : Field := ⟨.fabric, 0x180, 0, 1, 0, 5, .rwl, 0, .image⟩
def FAB_BAR_CTL.PARTS : Field := ⟨.fabric, 0x180, 0, 1, 16, 16, .rwl, 0, .image⟩

/-! FAB_BAR_STATUS (32 bits, offset table 15.9). -/
def FAB_BAR_STATUS.EPOCH : Field := ⟨.fabric, 0x184, 0, 1, 0, 32, .ro, 0, .value⟩

/-! FAB_GOP_CTL (32 bits, offset table 15.9). -/
def FAB_GOP_CTL.TIMEOUT_MS : Field := ⟨.fabric, 0x188, 0, 1, 0, 16, .rwl, 100, .image⟩
def FAB_GOP_CTL.SNAP_HOLD : Field := ⟨.fabric, 0x188, 0, 1, 16, 1, .rw, 0, .value⟩
def FAB_GOP_CTL.RESUME : Field := ⟨.fabric, 0x188, 0, 1, 17, 1, .wo, 0, .value⟩
def FAB_GOP_CTL.RESET_START : Field := ⟨.fabric, 0x188, 0, 1, 18, 1, .wo, 0, .value⟩

/-! FAB_GOP_STATUS (32 bits, offset table 15.9). -/
def FAB_GOP_STATUS.BAR_WAIT : Field := ⟨.fabric, 0x18c, 0, 1, 0, 1, .ro, 0, .value⟩
def FAB_GOP_STATUS.SNAP_CUT : Field := ⟨.fabric, 0x18c, 0, 1, 1, 1, .ro, 0, .value⟩
def FAB_GOP_STATUS.SNAP_HELD : Field := ⟨.fabric, 0x18c, 0, 1, 2, 1, .ro, 0, .value⟩
def FAB_GOP_STATUS.RESET_ACTIVE : Field := ⟨.fabric, 0x18c, 0, 1, 3, 1, .ro, 0, .value⟩

/-! FAB_GOP_EVENT (32 bits, offset table 15.9). -/
def FAB_GOP_EVENT.GOP_FAIL : Field := ⟨.fabric, 0x190, 0, 1, 0, 1, .w1c, 0, .value⟩
def FAB_GOP_EVENT.SNAP_DONE : Field := ⟨.fabric, 0x190, 0, 1, 1, 1, .w1c, 0, .value⟩
def FAB_GOP_EVENT.RESET_DONE : Field := ⟨.fabric, 0x190, 0, 1, 2, 1, .w1c, 0, .value⟩
def FAB_GOP_EVENT.TIME_UNLOCK : Field := ⟨.fabric, 0x190, 0, 1, 3, 1, .w1c, 0, .value⟩
def FAB_GOP_EVENT.TIME_LOCK : Field := ⟨.fabric, 0x190, 0, 1, 4, 1, .w1c, 0, .value⟩

/-! FAB_GOP_COUNT (32 bits, offset table 15.9). -/
def FAB_GOP_COUNT.BAD : Field := ⟨.fabric, 0x194, 0, 1, 0, 16, .rc, 0, .value⟩
def FAB_GOP_COUNT.FAILS : Field := ⟨.fabric, 0x194, 0, 1, 16, 16, .rc, 0, .value⟩

/-! FAB_TIME_CTL (32 bits, offset table 15.9). -/
def FAB_TIME_CTL.PERIOD : Field := ⟨.fabric, 0x1a0, 0, 1, 0, 8, .rwl, 10, .image⟩

/-! FAB_TIME_OFFSET (32 bits, offset table 15.9). -/
def FAB_TIME_OFFSET.OFFSET_NS : Field := ⟨.fabric, 0x1a4, 0, 1, 0, 32, .ro, 0, .value⟩

/-! FAB_TIME_STATUS (32 bits, offset table 15.9). -/
def FAB_TIME_STATUS.LOCKED : Field := ⟨.fabric, 0x1a8, 0, 1, 0, 1, .ro, 0, .value⟩
def FAB_TIME_STATUS.DELAY_NS : Field := ⟨.fabric, 0x1a8, 0, 1, 16, 16, .ro, 0, .value⟩

/-! FAB_TIMEBASE (64 bits, offset table 15.9). -/
def FAB_TIMEBASE.COUNT : Field := ⟨.fabric, 0x1b0, 0, 1, 0, 64, .ro, 0, .value⟩

/-! BOOT_STATUS (32 bits, offset table 16.14). -/
def BOOT_STATUS.PHASE : Field := ⟨.boot, 0x0, 0, 1, 0, 4, .ro, 1, .value⟩
def BOOT_STATUS.WLOAD : Field := ⟨.boot, 0x0, 0, 1, 4, 1, .ro, 0, .value⟩
def BOOT_STATUS.IMAGE_ARMED : Field := ⟨.boot, 0x0, 0, 1, 5, 1, .ro, 0, .value⟩
def BOOT_STATUS.QUICK : Field := ⟨.boot, 0x0, 0, 1, 6, 1, .ro, 0, .value⟩
def BOOT_STATUS.MEM_WARM : Field := ⟨.boot, 0x0, 0, 1, 7, 1, .ro, 0, .value⟩
def BOOT_STATUS.CAUSE : Field := ⟨.boot, 0x0, 0, 1, 8, 8, .ro, 0, .value⟩
def BOOT_STATUS.SECTION : Field := ⟨.boot, 0x0, 0, 1, 16, 4, .ro, 0, .value⟩
def BOOT_STATUS.FUSE_EXT_BAD : Field := ⟨.boot, 0x0, 0, 1, 20, 1, .ro, 0, .value⟩

/-! BOOT_CTL (32 bits, offset table 16.14). -/
def BOOT_CTL.LOAD : Field := ⟨.boot, 0x4, 0, 1, 0, 1, .wo, 0, .value⟩
def BOOT_CTL.ACCEPT : Field := ⟨.boot, 0x4, 0, 1, 1, 1, .wo, 0, .value⟩
def BOOT_CTL.ABORT : Field := ⟨.boot, 0x4, 0, 1, 2, 1, .wo, 0, .value⟩
def BOOT_CTL.RESTART : Field := ⟨.boot, 0x4, 0, 1, 3, 1, .wo, 0, .value⟩
def BOOT_CTL.QUICK : Field := ⟨.boot, 0x4, 0, 1, 4, 1, .rw, 0, .value⟩
def BOOT_CTL.COLD : Field := ⟨.boot, 0x4, 0, 1, 5, 1, .rw, 0, .value⟩
def BOOT_CTL.SAVE : Field := ⟨.boot, 0x4, 0, 1, 6, 1, .wo, 0, .value⟩

/-! BOOT_IMAGE_ADDR (64 bits, offset table 16.14). -/
def BOOT_IMAGE_ADDR.ADDR : Field := ⟨.boot, 0x8, 0, 1, 12, 52, .rw, 0, .value⟩

/-! BOOT_BLOB_ADDR (64 bits, offset table 16.14). -/
def BOOT_BLOB_ADDR.ADDR : Field := ⟨.boot, 0x10, 0, 1, 12, 52, .rw, 0, .value⟩

/-! BOOT_FUSE_TILES (64 bits, offset table 16.14). -/
def BOOT_FUSE_TILES.TILES : Field := ⟨.boot, 0x18, 0, 1, 0, 64, .ro, 0, .fuse⟩

/-! BOOT_TILES (64 bits, offset table 16.14). -/
def BOOT_TILES.TILES : Field := ⟨.boot, 0x20, 0, 1, 0, 64, .ro, 0, .fuse⟩

/-! BOOT_LOAD_BYTES (64 bits, offset table 16.14). -/
def BOOT_LOAD_BYTES.BYTES : Field := ⟨.boot, 0x28, 0, 1, 0, 64, .ro, 0, .value⟩

/-! BOOT_TOPO_CTL (32 bits, offset table 16.14). -/
def BOOT_TOPO_CTL.MISSING_ALLOWED : Field := ⟨.boot, 0x30, 0, 1, 0, 5, .rwl, 0, .image⟩
def BOOT_TOPO_CTL.ROUTES_REQUIRED : Field := ⟨.boot, 0x30, 0, 1, 5, 1, .rwl, 0, .image⟩

/-! BOOT_TOPO (32 bits, offset table 16.14). -/
def BOOT_TOPO.FAILED : Field := ⟨.boot, 0x34, 0, 1, 0, 16, .ro, 0, .value⟩
def BOOT_TOPO.NARROW : Field := ⟨.boot, 0x34, 0, 1, 16, 16, .ro, 0, .value⟩

/-! BOOT_TOPO2 (32 bits, offset table 16.14). -/
def BOOT_TOPO2.RESULT : Field := ⟨.boot, 0x38, 0, 1, 0, 2, .ro, 0, .value⟩
def BOOT_TOPO2.OPT_FAILED : Field := ⟨.boot, 0x38, 0, 1, 8, 8, .ro, 0, .value⟩
def BOOT_TOPO2.UNPROBED : Field := ⟨.boot, 0x38, 0, 1, 16, 8, .ro, 0, .value⟩

/-! BOOT_GRADE (32 bits, offset table 16.14). -/
def BOOT_GRADE.GRADE : Field := ⟨.boot, 0x3c, 0, 1, 0, 2, .ro, 0, .fuse⟩
def BOOT_GRADE.STEPPING : Field := ⟨.boot, 0x3c, 0, 1, 2, 6, .ro, 0, .fuse⟩

/-! PWR_MODE (32 bits, offset table 17.10). -/
def PWR_MODE.MODE : Field := ⟨.power, 0x0, 0, 1, 0, 2, .rw, 0, .image⟩

/-! PWR_CAP_CTL (32 bits, offset table 17.10). -/
def PWR_CAP_CTL.MARGIN : Field := ⟨.power, 0x4, 0, 1, 0, 5, .rw, 5, .value⟩
def PWR_CAP_CTL.QUIET_W : Field := ⟨.power, 0x4, 0, 1, 5, 7, .rw, 80, .value⟩
def PWR_CAP_CTL.BOOST_EN : Field := ⟨.power, 0x4, 0, 1, 12, 1, .rw, 0, .image⟩
def PWR_CAP_CTL.INLET_FALLBACK : Field := ⟨.power, 0x4, 0, 1, 13, 7, .rw, 50, .value⟩

/-! PWR_CAP_STATUS (32 bits, offset table 17.10). -/
def PWR_CAP_STATUS.CAP_W : Field := ⟨.power, 0x8, 0, 1, 0, 13, .ro, 4000, .value⟩
def PWR_CAP_STATUS.BINDS : Field := ⟨.power, 0x8, 0, 1, 13, 3, .ro, 0, .value⟩
def PWR_CAP_STATUS.POWER_W : Field := ⟨.power, 0x8, 0, 1, 16, 13, .ro, 0, .value⟩
def PWR_CAP_STATUS.BOOSTING : Field := ⟨.power, 0x8, 0, 1, 29, 1, .ro, 0, .value⟩
def PWR_CAP_STATUS.RATE_TRIP : Field := ⟨.power, 0x8, 0, 1, 30, 1, .ro, 0, .value⟩

/-! PWR_RTH (32 bits, offset table 17.10). -/
def PWR_RTH.EST : Field := ⟨.power, 0xc, 0, 1, 0, 16, .ro, 12000, .value⟩
def PWR_RTH.NOM : Field := ⟨.power, 0xc, 0, 1, 16, 16, .rw, 12000, .image⟩

/-! PWR_STATE_CTL (32 bits, offset table 17.10). -/
def PWR_STATE_CTL.TARGET : Field := ⟨.power, 0x10, 0, 1, 0, 2, .wo, 0, .value⟩
def PWR_STATE_CTL.AUTO_IDLE_MS : Field := ⟨.power, 0x10, 0, 1, 2, 16, .rw, 0, .value⟩

/-! PWR_STATE_STATUS (32 bits, offset table 17.10). -/
def PWR_STATE_STATUS.STATE : Field := ⟨.power, 0x14, 0, 1, 0, 2, .ro, 0, .value⟩
def PWR_STATE_STATUS.ENTERING : Field := ⟨.power, 0x14, 0, 1, 2, 1, .ro, 0, .value⟩
def PWR_STATE_STATUS.REFUSED : Field := ⟨.power, 0x14, 0, 1, 3, 1, .rc, 0, .value⟩

/-! PWR_SLEEP_CTL (32 bits, offset table 17.10). -/
def PWR_SLEEP_CTL.RET_US : Field := ⟨.power, 0x18, 0, 1, 0, 16, .rw, 100, .value⟩
def PWR_SLEEP_CTL.OFF_MS : Field := ⟨.power, 0x18, 0, 1, 16, 16, .rw, 0, .value⟩

/-! PWR_THR_CTL (32 bits, offset table 17.10). -/
def PWR_THR_CTL.DUTY : Field := ⟨.power, 0x1c, 0, 1, 0, 3, .rw, 4, .value⟩
def PWR_THR_CTL.RAMP_LEN : Field := ⟨.power, 0x1c, 0, 1, 3, 5, .rw, 0, .value⟩
def PWR_THR_CTL.VGUARD_MV : Field := ⟨.power, 0x1c, 0, 1, 8, 8, .rw, 10, .value⟩

/-! PWR_EVENT (32 bits, offset table 17.10). -/
def PWR_EVENT.WARN : Field := ⟨.power, 0x20, 0, 1, 0, 1, .w1c, 0, .value⟩
def PWR_EVENT.THROTTLE : Field := ⟨.power, 0x20, 0, 1, 1, 1, .w1c, 0, .value⟩
def PWR_EVENT.RATE_TRIP : Field := ⟨.power, 0x20, 0, 1, 2, 1, .w1c, 0, .value⟩
def PWR_EVENT.COOLING_WARN : Field := ⟨.power, 0x20, 0, 1, 3, 1, .w1c, 0, .value⟩
def PWR_EVENT.SENSOR_FLAG : Field := ⟨.power, 0x20, 0, 1, 4, 1, .w1c, 0, .value⟩
def PWR_EVENT.FLOW_LOW : Field := ⟨.power, 0x20, 0, 1, 5, 1, .w1c, 0, .value⟩
def PWR_EVENT.FLOW_STOP : Field := ⟨.power, 0x20, 0, 1, 6, 1, .w1c, 0, .value⟩
def PWR_EVENT.INLET_LOST : Field := ⟨.power, 0x20, 0, 1, 7, 1, .w1c, 0, .value⟩
def PWR_EVENT.BOOST_START : Field := ⟨.power, 0x20, 0, 1, 8, 1, .w1c, 0, .value⟩
def PWR_EVENT.BOOST_END : Field := ⟨.power, 0x20, 0, 1, 9, 1, .w1c, 0, .value⟩
def PWR_EVENT.STATE_CHANGE : Field := ⟨.power, 0x20, 0, 1, 10, 1, .w1c, 0, .value⟩

/-! PWR_TRIP (32 bits, offset table 17.10). -/
def PWR_TRIP.CAUSE : Field := ⟨.power, 0x24, 0, 1, 0, 3, .ro, 0, .value⟩
def PWR_TRIP.SENSOR : Field := ⟨.power, 0x24, 0, 1, 3, 10, .ro, 0, .value⟩
def PWR_TRIP.LATCHED : Field := ⟨.power, 0x24, 0, 1, 13, 1, .ro, 0, .value⟩
def PWR_TRIP.RELEASE : Field := ⟨.power, 0x24, 0, 1, 14, 1, .wo, 0, .value⟩

/-! PWR_FLOW_CTL (32 bits, offset table 17.10). -/
def PWR_FLOW_CTL.PULSES_PER_L : Field := ⟨.power, 0x28, 0, 1, 0, 16, .rwl, 0, .image⟩
def PWR_FLOW_CTL.FLOW_MIN : Field := ⟨.power, 0x28, 0, 1, 16, 16, .rwl, 0, .image⟩

/-! PWR_SENSOR_REC (32 bits, offset table 17.10). -/
def PWR_SENSOR_REC.SENSOR : Field := ⟨.power, 0x2c, 0, 1, 0, 10, .ro, 0, .value⟩
def PWR_SENSOR_REC.KIND : Field := ⟨.power, 0x2c, 0, 1, 10, 2, .ro, 0, .value⟩
def PWR_SENSOR_REC.VALID : Field := ⟨.power, 0x2c, 0, 1, 31, 1, .w1c, 0, .value⟩

/-! PWR_COOLANT (64 bits, offset table 17.10). -/
def PWR_COOLANT.INLET : Field := ⟨.power, 0x30, 0, 1, 0, 16, .ro, 0, .value⟩
def PWR_COOLANT.INLET_VALID : Field := ⟨.power, 0x30, 0, 1, 16, 1, .ro, 0, .value⟩
def PWR_COOLANT.FLOW : Field := ⟨.power, 0x30, 0, 1, 32, 16, .ro, 0, .value⟩

/-! PWR_TEMP_MAX (64 bits, offset table 17.10). -/
def PWR_TEMP_MAX.LOGIC : Field := ⟨.power, 0x38, 0, 1, 0, 16, .ro, 0, .value⟩
def PWR_TEMP_MAX.BONDED : Field := ⟨.power, 0x38, 0, 1, 16, 16, .ro, 0, .value⟩
def PWR_TEMP_MAX.STACKS : Field := ⟨.power, 0x38, 0, 1, 32, 16, .ro, 0, .value⟩

/-! PWR_TEMP_TOWER (32 bits, offset table 17.10). -/
def PWR_TEMP_TOWER.LOGIC : Field := ⟨.power, 0x40, 4, 16, 0, 16, .ro, 0, .value⟩
def PWR_TEMP_TOWER.BONDED : Field := ⟨.power, 0x40, 4, 16, 16, 16, .ro, 0, .value⟩

/-! PWR_TEMP_HUB (32 bits, offset table 17.10). -/
def PWR_TEMP_HUB.LOGIC : Field := ⟨.power, 0x80, 4, 4, 0, 16, .ro, 0, .value⟩

/-! PWR_TEMP_STK (32 bits, offset table 17.10). -/
def PWR_TEMP_STK.STACK : Field := ⟨.power, 0xa0, 4, 24, 0, 16, .ro, 0, .value⟩

/-! PWR_TOWER_CLK (32 bits, offset table 17.10). -/
def PWR_TOWER_CLK.TARGET : Field := ⟨.power, 0x100, 4, 16, 0, 5, .ro, 0, .value⟩
def PWR_TOWER_CLK.CURRENT : Field := ⟨.power, 0x100, 4, 16, 5, 5, .ro, 0, .value⟩
def PWR_TOWER_CLK.VT_MV : Field := ⟨.power, 0x100, 4, 16, 10, 10, .ro, 600, .value⟩
def PWR_TOWER_CLK.THROTTLED : Field := ⟨.power, 0x100, 4, 16, 20, 1, .ro, 0, .value⟩

/-! PWR_STK_CAP (32 bits, offset table 17.10). -/
def PWR_STK_CAP.CAP : Field := ⟨.power, 0x140, 4, 24, 0, 9, .ro, 0, .value⟩
def PWR_STK_CAP.THROTTLED : Field := ⟨.power, 0x140, 4, 24, 9, 1, .ro, 0, .value⟩

/-! PKG_PG (32 bits, offset table 18.9). -/
def PKG_PG.PG : Field := ⟨.package, 0x0, 0, 1, 0, 29, .ro, 0, .value⟩

/-! PKG_SEQ (32 bits, offset table 18.9). -/
def PKG_SEQ.EN : Field := ⟨.package, 0x4, 0, 1, 1, 4, .ro, 0, .value⟩
def PKG_SEQ.STAGE : Field := ⟨.package, 0x4, 0, 1, 5, 3, .ro, 0, .value⟩
def PKG_SEQ.FAULT_RAIL : Field := ⟨.package, 0x4, 0, 1, 8, 5, .ro, 0, .value⟩
def PKG_SEQ.FAULT : Field := ⟨.package, 0x4, 0, 1, 13, 1, .w1c, 0, .value⟩

/-! PKG_AVS_STATUS (32 bits, offset table 18.9). -/
def PKG_AVS_STATUS.SEG_OK : Field := ⟨.package, 0x8, 0, 1, 0, 4, .ro, 0, .value⟩
def PKG_AVS_STATUS.SEG_FAIL : Field := ⟨.package, 0x8, 0, 1, 4, 4, .w1c, 0, .value⟩
def PKG_AVS_STATUS.RETRIES : Field := ⟨.package, 0x8, 0, 1, 16, 16, .rc, 0, .value⟩

/-! PKG_CABLE (32 bits, offset table 18.9). -/
def PKG_CABLE.PRSNT : Field := ⟨.package, 0xc, 0, 1, 0, 16, .ro, 0, .value⟩
def PKG_CABLE.CHANGED : Field := ⟨.package, 0xc, 0, 1, 16, 16, .w1c, 0, .value⟩

/-! PKG_INLET_CFG (32 bits, offset table 18.9). -/
def PKG_INLET_CFG.ADDR : Field := ⟨.package, 0x10, 0, 1, 0, 7, .rwl, 0, .image⟩
def PKG_INLET_CFG.MODE : Field := ⟨.package, 0x10, 0, 1, 7, 1, .rwl, 0, .image⟩
def PKG_INLET_CFG.REG : Field := ⟨.package, 0x10, 0, 1, 8, 8, .rwl, 0, .image⟩
def PKG_INLET_CFG.ORDER : Field := ⟨.package, 0x10, 0, 1, 16, 1, .rwl, 0, .image⟩

/-! PKG_RAIL (64 bits, offset table 18.9). -/
def PKG_RAIL.V_MV : Field := ⟨.package, 0x100, 8, 29, 0, 12, .ro, 0, .value⟩
def PKG_RAIL.I_DA : Field := ⟨.package, 0x100, 8, 29, 16, 16, .ro, 0, .value⟩
def PKG_RAIL.P_DW : Field := ⟨.package, 0x100, 8, 29, 32, 16, .ro, 0, .value⟩
def PKG_RAIL.VR_TEMP : Field := ⟨.package, 0x100, 8, 29, 48, 8, .ro, 0, .value⟩
def PKG_RAIL.VALID : Field := ⟨.package, 0x100, 8, 29, 63, 1, .ro, 0, .value⟩

/-! MGMT_STATUS (32 bits, offset table 19.10). -/
def MGMT_STATUS.RUN_SLOT : Field := ⟨.mgmt, 0x0, 0, 1, 0, 1, .ro, 0, .value⟩
def MGMT_STATUS.NEXT_SLOT : Field := ⟨.mgmt, 0x0, 0, 1, 1, 1, .ro, 0, .value⟩
def MGMT_STATUS.RECOVERY : Field := ⟨.mgmt, 0x0, 0, 1, 2, 1, .ro, 0, .value⟩
def MGMT_STATUS.UPDATE_OPEN : Field := ⟨.mgmt, 0x0, 0, 1, 3, 1, .ro, 0, .value⟩
def MGMT_STATUS.DEBUG_OPEN : Field := ⟨.mgmt, 0x0, 0, 1, 4, 1, .ro, 0, .value⟩

/-! MGMT_POLICY (32 bits, offset table 19.10). -/
def MGMT_POLICY.PF0_PRIV : Field := ⟨.mgmt, 0x4, 0, 1, 0, 1, .rwl, 0, .image⟩
def MGMT_POLICY.ABAIGA_KEY : Field := ⟨.mgmt, 0x4, 0, 1, 1, 1, .rwl, 0, .image⟩

/-! MGMT_EVENT (32 bits, offset table 19.10). -/
def MGMT_EVENT.CAUSE : Field := ⟨.mgmt, 0x8, 0, 1, 0, 7, .w1c, 0, .value⟩

/-! MGMT_LOG_STATUS (32 bits, offset table 19.10). -/
def MGMT_LOG_STATUS.LOST : Field := ⟨.mgmt, 0xc, 0, 1, 0, 16, .rc, 0, .value⟩
def MGMT_LOG_STATUS.PENDING : Field := ⟨.mgmt, 0xc, 0, 1, 16, 11, .ro, 0, .value⟩

/-! MGMT_DBG_CHALLENGE (32 bits, offset table 19.10). -/
def MGMT_DBG_CHALLENGE.CHALLENGE : Field := ⟨.mgmt, 0x10, 4, 8, 0, 32, .ro, 0, .value⟩

/-! SEC_KEY_STATUS (32 bits, offset table 19.10). -/
def SEC_KEY_STATUS.SLOT0 : Field := ⟨.mgmt, 0x40, 0, 1, 0, 2, .ro, 0, .value⟩
def SEC_KEY_STATUS.SLOT1 : Field := ⟨.mgmt, 0x40, 0, 1, 2, 2, .ro, 0, .value⟩
def SEC_KEY_STATUS.SLOT2 : Field := ⟨.mgmt, 0x40, 0, 1, 4, 2, .ro, 0, .value⟩
def SEC_KEY_STATUS.SLOT3 : Field := ⟨.mgmt, 0x40, 0, 1, 6, 2, .ro, 0, .value⟩
def SEC_KEY_STATUS.SLOT4 : Field := ⟨.mgmt, 0x40, 0, 1, 8, 2, .ro, 0, .value⟩
def SEC_KEY_STATUS.SLOT5 : Field := ⟨.mgmt, 0x40, 0, 1, 10, 2, .ro, 0, .value⟩
def SEC_KEY_STATUS.SLOT6 : Field := ⟨.mgmt, 0x40, 0, 1, 12, 2, .ro, 0, .value⟩
def SEC_KEY_STATUS.SLOT7 : Field := ⟨.mgmt, 0x40, 0, 1, 14, 2, .ro, 0, .value⟩

/-! SEC_ENC_CTL (32 bits, offset table 19.10). -/
def SEC_ENC_CTL.PARTS : Field := ⟨.mgmt, 0x44, 0, 1, 0, 16, .rwl, 0, .image⟩

/-! SEC_ENC_STATUS (32 bits, offset table 19.10). -/
def SEC_ENC_STATUS.KEYED : Field := ⟨.mgmt, 0x48, 0, 1, 0, 16, .ro, 0, .value⟩

/-! SEC_RNG (64 bits, offset table 19.10). -/
def SEC_RNG.VALUE : Field := ⟨.mgmt, 0x50, 0, 1, 0, 64, .ro, 0, .value⟩

/-! SEC_RNG_STATUS (32 bits, offset table 19.10). -/
def SEC_RNG_STATUS.VALID : Field := ⟨.mgmt, 0x58, 0, 1, 0, 1, .ro, 0, .value⟩
def SEC_RNG_STATUS.FAILED_TEST : Field := ⟨.mgmt, 0x58, 0, 1, 1, 3, .ro, 0, .value⟩

/-! RTC_SECONDS (64 bits, offset table 19.10). -/
def RTC_SECONDS.SECONDS : Field := ⟨.mgmt, 0x60, 0, 1, 0, 64, .ro, 0, .value⟩

/-! RTC_FRAC (32 bits, offset table 19.10). -/
def RTC_FRAC.FRACTION : Field := ⟨.mgmt, 0x68, 0, 1, 0, 15, .ro, 0, .value⟩

/-! RTC_SET_SEC (64 bits, offset table 19.10). -/
def RTC_SET_SEC.SECONDS : Field := ⟨.mgmt, 0x70, 0, 1, 0, 64, .rw, 0, .value⟩

/-! RTC_CTL (32 bits, offset table 19.10). -/
def RTC_CTL.SET : Field := ⟨.mgmt, 0x78, 0, 1, 0, 1, .wo, 0, .value⟩
def RTC_CTL.TIME_INVALID : Field := ⟨.mgmt, 0x78, 0, 1, 1, 1, .ro, 1, .value⟩

/-! VF_Q_PROD (32 bits, offset table 20.7). -/
def VF_Q_PROD.PROD : Field := ⟨.vfq, 0x0, 16, 4, 0, 16, .ro, 0, .value⟩

/-! VF_Q_CONS (32 bits, offset table 20.7). -/
def VF_Q_CONS.CONS : Field := ⟨.vfq, 0x4, 16, 4, 0, 16, .rw, 0, .value⟩

/-! VF_Q_STATUS (32 bits, offset table 20.7). -/
def VF_Q_STATUS.LOST : Field := ⟨.vfq, 0x8, 16, 4, 0, 16, .rc, 0, .value⟩

/-- Registers 0 to 24 of the map, in the order of the spec's chapters. -/
def regTable0 : List RegDesc := [
  -- TILE_ARRAY_LAT
  ⟨.tile, 0x100, 0, 1, 32, .part,
    [TILE_ARRAY_LAT.A0_EXTRA, TILE_ARRAY_LAT.A1_EXTRA, TILE_ARRAY_LAT.A2_EXTRA, TILE_ARRAY_LAT.A3_EXTRA, TILE_ARRAY_LAT.PAIR01, TILE_ARRAY_LAT.PAIR23, TILE_ARRAY_LAT.WHOLE]⟩,
  -- TILE_ARRAY_REPAIR
  ⟨.tile, 0x110, 4, 4, 32, .part,
    [TILE_ARRAY_REPAIR.ROW0, TILE_ARRAY_REPAIR.ROW0_EN, TILE_ARRAY_REPAIR.ROW1, TILE_ARRAY_REPAIR.ROW1_EN, TILE_ARRAY_REPAIR.COL0, TILE_ARRAY_REPAIR.COL0_EN, TILE_ARRAY_REPAIR.COL1, TILE_ARRAY_REPAIR.COL1_EN]⟩,
  -- TILE_RAMP_CTL
  ⟨.tile, 0x120, 0, 1, 32, .partition,
    [TILE_RAMP_CTL.LEN_IMAGE, TILE_RAMP_CTL.LEN_EFF]⟩,
  -- TILE_THROTTLE
  ⟨.tile, 0x124, 0, 1, 32, .part,
    [TILE_THROTTLE.DUTY, TILE_THROTTLE.RAMP_LEN_MGMT, TILE_THROTTLE.TRIP, TILE_THROTTLE.DUTY_EFF]⟩,
  -- TILE_ARRAY_STATUS
  ⟨.tile, 0x130, 0, 1, 32, .partition,
    [TILE_ARRAY_STATUS.A0_STATE, TILE_ARRAY_STATUS.A1_STATE, TILE_ARRAY_STATUS.A2_STATE, TILE_ARRAY_STATUS.A3_STATE, TILE_ARRAY_STATUS.SHAPE, TILE_ARRAY_STATUS.SAVE_LEVELS]⟩,
  -- TILE_ARRAY_EVENT
  ⟨.tile, 0x134, 0, 1, 32, .partition,
    [TILE_ARRAY_EVENT.PASS_RETRIED, TILE_ARRAY_EVENT.PASS_FAULT, TILE_ARRAY_EVENT.URGENT_SAVE, TILE_ARRAY_EVENT.DEADLINE_CONVERT]⟩,
  -- TILE_ARRAY_COUNT
  ⟨.tile, 0x138, 0, 1, 32, .partition,
    [TILE_ARRAY_COUNT.RETRIES, TILE_ARRAY_COUNT.URGENT_SAVES]⟩,
  -- TILE_NUM_CTL
  ⟨.tile, 0x140, 0, 1, 32, .partition,
    [TILE_NUM_CTL.NAN_FAULT]⟩,
  -- TILE_NUM_EVENT
  ⟨.tile, 0x144, 0, 1, 32, .partition,
    [TILE_NUM_EVENT.NAN_OUT, TILE_NUM_EVENT.ACC_OVF, TILE_NUM_EVENT.INT_SAT, TILE_NUM_EVENT.SAT, TILE_NUM_EVENT.NAN_TO_ZERO, TILE_NUM_EVENT.SAMPLE_INVALID]⟩,
  -- TILE_NUM_COUNT
  ⟨.tile, 0x148, 0, 1, 32, .partition,
    [TILE_NUM_COUNT.SAT_COUNT, TILE_NUM_COUNT.NAN_COUNT]⟩,
  -- TILE_SEQ_STATUS
  ⟨.tile, 0x200, 0, 1, 32, .partition,
    [TILE_SEQ_STATUS.ACTIVE, TILE_SEQ_STATUS.LEVEL, TILE_SEQ_STATUS.RUNNING, TILE_SEQ_STATUS.GRAPH]⟩,
  -- TILE_SEQ_WAIT
  ⟨.tile, 0x204, 0, 1, 32, .partition,
    [TILE_SEQ_WAIT.SEM_WAIT, TILE_SEQ_WAIT.MISS_WAIT]⟩,
  -- TILE_SEQ_FAULT
  ⟨.tile, 0x208, 0, 1, 32, .partition,
    [TILE_SEQ_FAULT.OP_INDEX, TILE_SEQ_FAULT.THREAD, TILE_SEQ_FAULT.CAUSE, TILE_SEQ_FAULT.VALID]⟩,
  -- TILE_SEQ_EVENT
  ⟨.tile, 0x20c, 0, 1, 32, .partition,
    [TILE_SEQ_EVENT.DISPATCH_DROP, TILE_SEQ_EVENT.SEM_SAT, TILE_SEQ_EVENT.OP_RETRIED, TILE_SEQ_EVENT.ABORTED]⟩,
  -- TILE_YARD_CTL
  ⟨.tile, 0x210, 0, 1, 32, .partition,
    [TILE_YARD_CTL.TIMEOUT_US]⟩,
  -- TILE_YARD_STATUS
  ⟨.tile, 0x214, 0, 1, 32, .partition,
    [TILE_YARD_STATUS.BUSY, TILE_YARD_STATUS.QUARANTINED]⟩,
  -- TILE_YARD_COUNT
  ⟨.tile, 0x218, 0, 1, 32, .partition,
    [TILE_YARD_COUNT.LATE, TILE_YARD_COUNT.RUNAHEAD_SUPPRESSED]⟩,
  -- ATTN_THIN_CTL
  ⟨.tile, 0x300, 0, 1, 32, .partition,
    [ATTN_THIN_CTL.ROWS_FP8, ATTN_THIN_CTL.ROWS_ABF4, ATTN_THIN_CTL.MIN_TOKENS]⟩,
  -- ATTN_EVENT
  ⟨.tile, 0x304, 0, 1, 32, .partition,
    [ATTN_EVENT.EMPTY_ROW, ATTN_EVENT.REC_NAN, ATTN_EVENT.THAPEL_FORCED]⟩,
  -- ATTN_COUNT
  ⟨.tile, 0x308, 0, 1, 32, .partition,
    [ATTN_COUNT.THAPEL_PARTS, ATTN_COUNT.TILE_PARTS]⟩,
  -- KV_POOL_FREE
  ⟨.hub, 0x4000, 0, 1, 32, .part,
    [KV_POOL_FREE.FREE_FRAMES]⟩,
  -- KV_EVENT
  ⟨.hub, 0x4004, 0, 1, 32, .part,
    [KV_EVENT.PAGE_EXHAUSTED, KV_EVENT.SEAL_FAIL, KV_EVENT.COMMIT_FAIL, KV_EVENT.SEG_TABLE_FULL, KV_EVENT.REGROW_FAIL]⟩,
  -- KV_SUSPEND
  ⟨.hub, 0x4008, 0, 1, 32, .part,
    [KV_SUSPEND.PARTS]⟩,
  -- KV_COUNT
  ⟨.hub, 0x400c, 0, 1, 32, .part,
    [KV_COUNT.SEAL_FAILS, KV_COUNT.SESSIONS_COPPICED]⟩,
  -- KV_COUNT2
  ⟨.hub, 0x4010, 0, 1, 32, .part,
    [KV_COUNT2.REGROWTHS, KV_COUNT2.COW_COPIES]⟩]

/-- Registers 25 to 49 of the map, in the order of the spec's chapters. -/
def regTable1 : List RegDesc := [
  -- KV_PART_CTL
  ⟨.hub, 0x4040, 4, 16, 32, .partition,
    [KV_PART_CTL.COPPICE_MIN_IDLE_MS, KV_PART_CTL.COPPICE_EN, KV_PART_CTL.PARKED_ACTION, KV_PART_CTL.REGROW_GRAPH]⟩,
  -- HUB_WIN_BASE
  ⟨.hub, 0x1000, 32, 128, 64, .part,
    [HUB_WIN_BASE.BASE]⟩,
  -- HUB_WIN_SIZE
  ⟨.hub, 0x1008, 32, 128, 64, .part,
    [HUB_WIN_SIZE.SIZE]⟩,
  -- HUB_WIN_CTL
  ⟨.hub, 0x1010, 32, 128, 32, .part,
    [HUB_WIN_CTL.VALID, HUB_WIN_CTL.KIND, HUB_WIN_CTL.CLASS, HUB_WIN_CTL.PREFETCHABLE, HUB_WIN_CTL.PART, HUB_WIN_CTL.K, HUB_WIN_CTL.M3]⟩,
  -- HUB_WIN_LIST
  ⟨.hub, 0x1014, 32, 128, 32, .part,
    [HUB_WIN_LIST.FIRST]⟩,
  -- HUB_CHLIST
  ⟨.hub, 0x2000, 4, 768, 32, .part,
    [HUB_CHLIST.CHANNEL]⟩,
  -- HUB_LLM_MAP
  ⟨.hub, 0x3000, 4, 4, 32, .part,
    [HUB_LLM_MAP.PART0, HUB_LLM_MAP.PART1, HUB_LLM_MAP.PART2, HUB_LLM_MAP.PART3, HUB_LLM_MAP.LANDING0, HUB_LLM_MAP.LANDING1, HUB_LLM_MAP.LANDING2, HUB_LLM_MAP.LANDING3, HUB_LLM_MAP.EN0, HUB_LLM_MAP.EN1, HUB_LLM_MAP.EN2, HUB_LLM_MAP.EN3]⟩,
  -- HUB_BAND
  ⟨.hub, 0x3010, 0, 1, 32, .part,
    [HUB_BAND.STACK0, HUB_BAND.STACK1, HUB_BAND.STACK2, HUB_BAND.STACK3, HUB_BAND.STACK4, HUB_BAND.STACK5, HUB_BAND.TOWER0, HUB_BAND.TOWER1, HUB_BAND.TOWER2, HUB_BAND.TOWER3]⟩,
  -- HUB_DELIV
  ⟨.hub, 0x3014, 0, 1, 32, .part,
    [HUB_DELIV.GBPS]⟩,
  -- HUB_MEM_EVENT
  ⟨.hub, 0x3018, 0, 1, 32, .part,
    [HUB_MEM_EVENT.BAND_UP, HUB_MEM_EVENT.BAND_DOWN, HUB_MEM_EVENT.HOT_BANK, HUB_MEM_EVENT.ADDER_REFUSED, HUB_MEM_EVENT.WINDOW_MISS, HUB_MEM_EVENT.MARGIN_DONE]⟩,
  -- HUB_HOTBANK_CTL
  ⟨.hub, 0x3020, 0, 1, 32, .part,
    [HUB_HOTBANK_CTL.BUCKET, HUB_HOTBANK_CTL.LEAK_US, HUB_HOTBANK_CTL.FRAC]⟩,
  -- HUB_HOTBANK_STATUS
  ⟨.hub, 0x3024, 0, 1, 32, .part,
    [HUB_HOTBANK_STATUS.TALLY, HUB_HOTBANK_STATUS.CHANNEL, HUB_HOTBANK_STATUS.BANK]⟩,
  -- HUB_MARGIN_CTL
  ⟨.hub, 0x3030, 0, 1, 32, .part,
    [HUB_MARGIN_CTL.TARGET, HUB_MARGIN_CTL.TIER, HUB_MARGIN_CTL.KIND, HUB_MARGIN_CTL.START, HUB_MARGIN_CTL.STEPS]⟩,
  -- HUB_MARGIN_RESULT
  ⟨.hub, 0x3034, 0, 1, 32, .part,
    [HUB_MARGIN_RESULT.LEFT, HUB_MARGIN_RESULT.RIGHT, HUB_MARGIN_RESULT.DONE, HUB_MARGIN_RESULT.REFUSED]⟩,
  -- HUB_MARGIN_LANE
  ⟨.hub, 0x3038, 0, 1, 32, .part,
    [HUB_MARGIN_LANE.LANE]⟩,
  -- HUB_CHAN_OOS
  ⟨.hub, 0x3040, 4, 6, 32, .part,
    [HUB_CHAN_OOS.OOS]⟩,
  -- HUB_T0_OOS
  ⟨.hub, 0x3058, 0, 1, 32, .part,
    [HUB_T0_OOS.TILES]⟩,
  -- THAPEL_CTL
  ⟨.hub, 0x5000, 0, 1, 32, .part,
    [THAPEL_CTL.LINGER_NS, THAPEL_CTL.HANG_US]⟩,
  -- THAPEL_MODE
  ⟨.hub, 0x5010, 4, 6, 32, .part,
    [THAPEL_MODE.PROC]⟩,
  -- THAPEL_OOS
  ⟨.hub, 0x5030, 4, 6, 32, .part,
    [THAPEL_OOS.OOS]⟩,
  -- THAPEL_EVENT
  ⟨.hub, 0x5050, 0, 1, 32, .part,
    [THAPEL_EVENT.CHAN_BUSY, THAPEL_EVENT.REFRESH_ABANDON, THAPEL_EVENT.UNIT_FAULT, THAPEL_EVENT.HANG, THAPEL_EVENT.OOS_SET, THAPEL_EVENT.ODEC_UE]⟩,
  -- THAPEL_BUSY_REC
  ⟨.hub, 0x5054, 0, 1, 32, .part,
    [THAPEL_BUSY_REC.CHANNEL, THAPEL_BUSY_REC.REQUESTER, THAPEL_BUSY_REC.VALID]⟩,
  -- THAPEL_HELD_MAX
  ⟨.hub, 0x5058, 0, 1, 32, .part,
    [THAPEL_HELD_MAX.MAX_NS]⟩,
  -- THAPEL_COUNT
  ⟨.hub, 0x505c, 0, 1, 32, .part,
    [THAPEL_COUNT.ABANDONS, THAPEL_COUNT.UNIT_RETRIES]⟩,
  -- THAPEL_COUNT2
  ⟨.hub, 0x5060, 0, 1, 32, .part,
    [THAPEL_COUNT2.CHAN_BUSY, THAPEL_COUNT2.MODE_ENTRIES]⟩]

/-- Registers 50 to 74 of the map, in the order of the spec's chapters. -/
def regTable2 : List RegDesc := [
  -- BWR_ACCT
  ⟨.hub, 0x6000, 8, 128, 64, .part,
    [BWR_ACCT.VALID, BWR_ACCT.MASTER, BWR_ACCT.PART, BWR_ACCT.WINDOW_8NS, BWR_ACCT.GUAR, BWR_ACCT.BE]⟩,
  -- BWR_THAPEL_ACCT
  ⟨.hub, 0x6400, 8, 16, 64, .part,
    [BWR_THAPEL_ACCT.VALID, BWR_THAPEL_ACCT.WINDOW_8NS, BWR_THAPEL_ACCT.GUAR, BWR_THAPEL_ACCT.BE]⟩,
  -- BWR_SCALE
  ⟨.hub, 0x6480, 0, 1, 32, .part,
    [BWR_SCALE.FACTOR]⟩,
  -- BWR_GUAR_SUM
  ⟨.hub, 0x6484, 0, 1, 32, .part,
    [BWR_GUAR_SUM.GBPS]⟩,
  -- BWR_EVENT
  ⟨.hub, 0x6488, 0, 1, 32, .part,
    [BWR_EVENT.SHORTFALL_START, BWR_EVENT.SHORTFALL_END, BWR_EVENT.BORROW, BWR_EVENT.HOST_STALL]⟩,
  -- BWR_URGENCY
  ⟨.hub, 0x648c, 0, 1, 32, .part,
    [BWR_URGENCY.FAB0, BWR_URGENCY.FAB1, BWR_URGENCY.FAB2, BWR_URGENCY.FAB3, BWR_URGENCY.HOST]⟩,
  -- BWR_MON_CTL
  ⟨.hub, 0x6490, 0, 1, 32, .part,
    [BWR_MON_CTL.SEL, BWR_MON_CTL.SHIFT]⟩,
  -- BWR_MON_MAX
  ⟨.hub, 0x64a0, 0, 1, 32, .part,
    [BWR_MON_MAX.MAX_NS]⟩,
  -- BWR_MON_BIN
  ⟨.hub, 0x64a4, 4, 8, 32, .part,
    [BWR_MON_BIN.COUNT]⟩,
  -- ERR_CTL
  ⟨.hub, 0x7000, 0, 1, 32, .part,
    [ERR_CTL.MERGE_T0, ERR_CTL.MERGE_T1P, ERR_CTL.MERGE_LLM, ERR_CTL.FORCE_RMW]⟩,
  -- ERR_EVENT
  ⟨.hub, 0x7004, 0, 1, 32, .part,
    [ERR_EVENT.TALLY_OVF, ERR_EVENT.UNCORRECTED, ERR_EVENT.WRITE_REFUSED, ERR_EVENT.Q_LOST, ERR_EVENT.FATAL, ERR_EVENT.RECORD, ERR_EVENT.SEALED_WRITE]⟩,
  -- ERR_TALLY
  ⟨.hub, 0x7008, 0, 1, 32, .part,
    [ERR_TALLY.T0, ERR_TALLY.T1P, ERR_TALLY.LLM, ERR_TALLY.WSE]⟩,
  -- ERR_CE_COUNT0
  ⟨.hub, 0x700c, 0, 1, 32, .part,
    [ERR_CE_COUNT0.T0, ERR_CE_COUNT0.WSE]⟩,
  -- ERR_CE_COUNT1
  ⟨.hub, 0x7010, 0, 1, 32, .part,
    [ERR_CE_COUNT1.LLM, ERR_CE_COUNT1.T1P]⟩,
  -- ERR_SCRUB_CTL
  ⟨.hub, 0x7014, 0, 1, 32, .part,
    [ERR_SCRUB_CTL.EN, ERR_SCRUB_CTL.PERIOD_H]⟩,
  -- ERR_SCRUB_STATUS
  ⟨.hub, 0x7018, 0, 1, 32, .part,
    [ERR_SCRUB_STATUS.PASSES, ERR_SCRUB_STATUS.SEAL_VERIFIES]⟩,
  -- ERR_SELFTEST
  ⟨.hub, 0x701c, 0, 1, 32, .part,
    [ERR_SELFTEST.WS_TILES, ERR_SELFTEST.LLM_SLICES]⟩,
  -- ERR_Q_PROD
  ⟨.hub, 0x7030, 0, 1, 32, .part,
    [ERR_Q_PROD.PROD]⟩,
  -- ERR_Q_CONS
  ⟨.hub, 0x7034, 0, 1, 32, .part,
    [ERR_Q_CONS.CONS]⟩,
  -- ERR_Q_MGMT
  ⟨.hub, 0x7038, 0, 1, 32, .part,
    [ERR_Q_MGMT.MGMT]⟩,
  -- ERR_Q_STATUS
  ⟨.hub, 0x703c, 0, 1, 32, .part,
    [ERR_Q_STATUS.LOST]⟩,
  -- ECC_RAW_CTL
  ⟨.hub, 0x7100, 0, 1, 32, .part,
    [ECC_RAW_CTL.OP, ECC_RAW_CTL.CLASS, ECC_RAW_CTL.TILE, ECC_RAW_CTL.START]⟩,
  -- ECC_RAW_ADDR
  ⟨.hub, 0x7108, 0, 1, 64, .part,
    [ECC_RAW_ADDR.OFFSET, ECC_RAW_ADDR.CHANNEL]⟩,
  -- ECC_RAW_STATUS
  ⟨.hub, 0x7110, 0, 1, 32, .part,
    [ECC_RAW_STATUS.RESULT, ECC_RAW_STATUS.POSITION, ECC_RAW_STATUS.REFUSED, ECC_RAW_STATUS.DONE]⟩,
  -- ECC_RAW_CHECK
  ⟨.hub, 0x7118, 0, 1, 64, .part,
    [ECC_RAW_CHECK.CHECK]⟩]

/-- Registers 75 to 99 of the map, in the order of the spec's chapters. -/
def regTable3 : List RegDesc := [
  -- ECC_RAW_SYN
  ⟨.hub, 0x7120, 0, 1, 64, .part,
    [ECC_RAW_SYN.SYNDROME]⟩,
  -- ECC_RAW_DATA
  ⟨.hub, 0x7140, 8, 8, 64, .part,
    [ECC_RAW_DATA.DATA]⟩,
  -- HIF_PRIV
  ⟨.hif, 0x0, 0, 1, 32, .part,
    [HIF_PRIV.PRIV]⟩,
  -- HIF_EVENT
  ⟨.hif, 0x4, 0, 1, 32, .part,
    [HIF_EVENT.DB_DISCARD, HIF_EVENT.SEG_REFUSED, HIF_EVENT.LINK_DOWN]⟩,
  -- HIF_VF_BIND
  ⟨.hif, 0x10, 4, 17, 32, .part,
    [HIF_VF_BIND.PART, HIF_VF_BIND.EN]⟩,
  -- HIF_BAR4_SEG
  ⟨.hif, 0x100, 8, 16, 64, .flrPf0,
    [HIF_BAR4_SEG.VALID, HIF_BAR4_SEG.PART, HIF_BAR4_SEG.BASE]⟩,
  -- HIF_HWIN_BASE
  ⟨.hif, 0x200, 8, 16, 64, .partition,
    [HIF_HWIN_BASE.BASE]⟩,
  -- HIF_VF_SEG
  ⟨.hif, 0x300, 8, 17, 64, .part,
    [HIF_VF_SEG.VALID, HIF_VF_SEG.BASE]⟩,
  -- DECK_SEL
  ⟨.deck, 0x0, 0, 1, 32, .partition,
    [DECK_SEL.DECK]⟩,
  -- DECK_CTL
  ⟨.deck, 0x4, 0, 1, 32, .partition,
    [DECK_CTL.STOP]⟩,
  -- DECK_BASE
  ⟨.deck, 0x8, 0, 1, 64, .partition,
    [DECK_BASE.BASE]⟩,
  -- DECK_CQ_BASE
  ⟨.deck, 0x10, 0, 1, 64, .partition,
    [DECK_CQ_BASE.BASE]⟩,
  -- DECK_TS_BASE
  ⟨.deck, 0x18, 0, 1, 64, .partition,
    [DECK_TS_BASE.BASE]⟩,
  -- DECK_CFG
  ⟨.deck, 0x20, 0, 1, 32, .partition,
    [DECK_CFG.SIZE_LOG2, DECK_CFG.CQ_LOG2, DECK_CFG.TS_LOG2, DECK_CFG.IRQ_EN, DECK_CFG.VECTOR, DECK_CFG.EN]⟩,
  -- DECK_QCFG
  ⟨.deck, 0x24, 0, 1, 32, .partition,
    [DECK_QCFG.PART, DECK_QCFG.CLASS, DECK_QCFG.LIMIT, DECK_QCFG.ASSIGNED]⟩,
  -- DECK_STATUS
  ⟨.deck, 0x28, 0, 1, 32, .partition,
    [DECK_STATUS.FETCH, DECK_STATUS.STATE, DECK_STATUS.IN_EXEC, DECK_STATUS.BLOCKED]⟩,
  -- DECK_RING_STATUS
  ⟨.deck, 0x2c, 0, 1, 32, .partition,
    [DECK_RING_STATUS.CQ_PROD, DECK_RING_STATUS.TS_PROD]⟩,
  -- DECK_EVENT
  ⟨.deck, 0x30, 0, 1, 32, .partition,
    [DECK_EVENT.CFG_REFUSED, DECK_EVENT.CTX_UE, DECK_EVENT.ACTIVE_FULL, DECK_EVENT.LATE]⟩,
  -- DECK_COUNT
  ⟨.deck, 0x34, 0, 1, 32, .partition,
    [DECK_COUNT.LATE, DECK_COUNT.TIMEOUTS]⟩,
  -- DECK_PARK_US
  ⟨.deck, 0x38, 0, 1, 32, .partition,
    [DECK_PARK_US.IDLE_US]⟩,
  -- EVT_SEL
  ⟨.deck, 0x40, 0, 1, 32, .partition,
    [EVT_SEL.EVENT]⟩,
  -- EVT_COUNT
  ⟨.deck, 0x48, 0, 1, 64, .partition,
    [EVT_COUNT.COUNT]⟩,
  -- PROT_CTL
  ⟨.prot, 0x0, 0, 1, 32, .part,
    [PROT_CTL.COMMIT, PROT_CTL.VIEW]⟩,
  -- PROT_GEN
  ⟨.prot, 0x4, 0, 1, 32, .part,
    [PROT_GEN.ACTIVE, PROT_GEN.PENDING]⟩,
  -- PROT_COMMIT_TIME
  ⟨.prot, 0x8, 0, 1, 64, .part,
    [PROT_COMMIT_TIME.T_C]⟩]

/-- Registers 100 to 124 of the map, in the order of the spec's chapters. -/
def regTable4 : List RegDesc := [
  -- PROT_FENCE
  ⟨.prot, 0x10, 0, 1, 32, .part,
    [PROT_FENCE.DRAINED, PROT_FENCE.OLD_COUNT]⟩,
  -- PROT_EVENT
  ⟨.prot, 0x14, 0, 1, 32, .part,
    [PROT_EVENT.REFUSED, PROT_EVENT.COMMIT_REFUSED, PROT_EVENT.DRAIN_SLOW, PROT_EVENT.PART_RESET_DONE, PROT_EVENT.LOAD_DONE, PROT_EVENT.LOAD_FAIL, PROT_EVENT.SHADOW_LOCKED]⟩,
  -- PROT_REFUSE_REC
  ⟨.prot, 0x18, 0, 1, 64, .part,
    [PROT_REFUSE_REC.ADDRESS, PROT_REFUSE_REC.PART, PROT_REFUSE_REC.SOURCE, PROT_REFUSE_REC.RIGHT, PROT_REFUSE_REC.VALID]⟩,
  -- PART_CMD
  ⟨.prot, 0x20, 0, 1, 32, .part,
    [PART_CMD.PART, PART_CMD.OP]⟩,
  -- PART_STATUS
  ⟨.prot, 0x24, 0, 1, 32, .part,
    [PART_STATUS.STATE0, PART_STATUS.STATE1, PART_STATUS.STATE2, PART_STATUS.STATE3, PART_STATUS.STATE4, PART_STATUS.STATE5, PART_STATUS.STATE6, PART_STATUS.STATE7, PART_STATUS.STATE8, PART_STATUS.STATE9, PART_STATUS.STATE10, PART_STATUS.STATE11, PART_STATUS.STATE12, PART_STATUS.STATE13, PART_STATUS.STATE14, PART_STATUS.STATE15]⟩,
  -- PART_TOWER_MAP
  ⟨.prot, 0x28, 0, 1, 64, .part,
    [PART_TOWER_MAP.PART0, PART_TOWER_MAP.PART1, PART_TOWER_MAP.PART2, PART_TOWER_MAP.PART3, PART_TOWER_MAP.PART4, PART_TOWER_MAP.PART5, PART_TOWER_MAP.PART6, PART_TOWER_MAP.PART7, PART_TOWER_MAP.PART8, PART_TOWER_MAP.PART9, PART_TOWER_MAP.PART10, PART_TOWER_MAP.PART11, PART_TOWER_MAP.PART12, PART_TOWER_MAP.PART13, PART_TOWER_MAP.PART14, PART_TOWER_MAP.PART15]⟩,
  -- PART_TOWER_EN
  ⟨.prot, 0x30, 0, 1, 32, .part,
    [PART_TOWER_EN.ASSIGNED]⟩,
  -- PART_LOAD_STATUS
  ⟨.prot, 0x34, 0, 1, 32, .part,
    [PART_LOAD_STATUS.RESULT, PART_LOAD_STATUS.SECTION, PART_LOAD_STATUS.PART]⟩,
  -- PART_LOAD_ADDR
  ⟨.prot, 0x38, 0, 1, 64, .part,
    [PART_LOAD_ADDR.ADDR]⟩,
  -- PROT_ENT_CTL
  ⟨.prot, 0x1000, 32, 512, 32, .part,
    [PROT_ENT_CTL.VALID, PROT_ENT_CTL.KIND, PROT_ENT_CTL.PART, PROT_ENT_CTL.RIGHTS, PROT_ENT_CTL.SRC]⟩,
  -- PROT_ENT_BASE
  ⟨.prot, 0x1008, 32, 512, 64, .part,
    [PROT_ENT_BASE.BASE]⟩,
  -- PROT_ENT_SIZE
  ⟨.prot, 0x1010, 32, 512, 64, .part,
    [PROT_ENT_SIZE.SIZE]⟩,
  -- FAB_ADDR
  ⟨.fabric, 0x0, 0, 1, 32, .part,
    [FAB_ADDR.ADDR]⟩,
  -- FAB_SYS_ID
  ⟨.fabric, 0x4, 0, 1, 32, .part,
    [FAB_SYS_ID.SYS_ID]⟩,
  -- FAB_CTL
  ⟨.fabric, 0x8, 0, 1, 32, .part,
    [FAB_CTL.MAX_HOPS, FAB_CTL.FWD_EN]⟩,
  -- FAB_EVENT
  ⟨.fabric, 0xc, 0, 1, 32, .part,
    [FAB_EVENT.DEGRADED, FAB_EVENT.LINK_DOWN, FAB_EVENT.AUTH_FAIL, FAB_EVENT.QUARANTINE, FAB_EVENT.ROUTE_LOSS, FAB_EVENT.CRUISE_DONE, FAB_EVENT.TIME_UNCHECKED]⟩,
  -- FAB_CRUISE_CTL
  ⟨.fabric, 0x10, 0, 1, 32, .part,
    [FAB_CRUISE_CTL.START, FAB_CRUISE_CTL.GROUP_PROBE, FAB_CRUISE_CTL.LIMIT_MS]⟩,
  -- FAB_CRUISE_STATUS
  ⟨.fabric, 0x14, 0, 1, 32, .part,
    [FAB_CRUISE_STATUS.RUNNING, FAB_CRUISE_STATUS.DONE]⟩,
  -- FAB_LIVE
  ⟨.fabric, 0x18, 0, 1, 32, .part,
    [FAB_LIVE.PORTS]⟩,
  -- FAB_PORT_CTL
  ⟨.fabric, 0x1000, 64, 16, 32, .part,
    [FAB_PORT_CTL.EN, FAB_PORT_CTL.SRC_LOCK, FAB_PORT_CTL.DATELINE, FAB_PORT_CTL.QUARANTINE, FAB_PORT_CTL.RELEASE, FAB_PORT_CTL.RETRAIN, FAB_PORT_CTL.WARM_OK]⟩,
  -- FAB_PORT_STATUS
  ⟨.fabric, 0x1004, 64, 16, 32, .part,
    [FAB_PORT_STATUS.STATE, FAB_PORT_STATUS.WIDTH, FAB_PORT_STATUS.LANES, FAB_PORT_STATUS.REVERSED, FAB_PORT_STATUS.WARM, FAB_PORT_STATUS.FAIL_CAUSE]⟩,
  -- FAB_PORT_EXPECT
  ⟨.fabric, 0x1008, 64, 16, 32, .part,
    [FAB_PORT_EXPECT.ADDR, FAB_PORT_EXPECT.ANY, FAB_PORT_EXPECT.REQUIRED, FAB_PORT_EXPECT.MIN_WIDTH, FAB_PORT_EXPECT.PARTNER_PORT, FAB_PORT_EXPECT.PORT_ANY]⟩,
  -- FAB_PORT_PARTNER
  ⟨.fabric, 0x100c, 64, 16, 32, .part,
    [FAB_PORT_PARTNER.ADDR, FAB_PORT_PARTNER.PORT, FAB_PORT_PARTNER.VALID]⟩,
  -- FAB_PORT_TALLY_CTL
  ⟨.fabric, 0x1010, 64, 16, 32, .part,
    [FAB_PORT_TALLY_CTL.BUCKET, FAB_PORT_TALLY_CTL.LEAK_MS]⟩,
  -- FAB_PORT_TALLY
  ⟨.fabric, 0x1014, 64, 16, 32, .part,
    [FAB_PORT_TALLY.LEVEL, FAB_PORT_TALLY.LAST_CAUSE]⟩]

/-- Registers 125 to 149 of the map, in the order of the spec's chapters. -/
def regTable5 : List RegDesc := [
  -- FAB_PORT_RATE
  ⟨.fabric, 0x1018, 64, 16, 32, .part,
    [FAB_PORT_RATE.MSG_PER_US, FAB_PORT_RATE.MGMT_PER_MS]⟩,
  -- FAB_PORT_ARB
  ⟨.fabric, 0x101c, 64, 16, 32, .part,
    [FAB_PORT_ARB.WEIGHT2, FAB_PORT_ARB.WEIGHT3, FAB_PORT_ARB.WEIGHT4, FAB_PORT_ARB.WEIGHT5, FAB_PORT_ARB.WEIGHT6, FAB_PORT_ARB.WEIGHT7]⟩,
  -- FAB_PORT_COUNT
  ⟨.fabric, 0x1020, 64, 16, 32, .part,
    [FAB_PORT_COUNT.FEC_CORR, FAB_PORT_COUNT.FEC_UNCORR]⟩,
  -- FAB_PORT_COUNT2
  ⟨.fabric, 0x1024, 64, 16, 32, .part,
    [FAB_PORT_COUNT2.REPLAYS, FAB_PORT_COUNT2.MALFORMED]⟩,
  -- FAB_PORT_COUNT3
  ⟨.fabric, 0x1028, 64, 16, 32, .part,
    [FAB_PORT_COUNT3.HOP_DROP, FAB_PORT_COUNT3.UNROUTABLE]⟩,
  -- FAB_GRP_TBL
  ⟨.fabric, 0x4000, 4, 4096, 32, .part,
    [FAB_GRP_TBL.PATH0, FAB_GRP_TBL.PATH1, FAB_GRP_TBL.PATH2, FAB_GRP_TBL.PATH3, FAB_GRP_TBL.NPATH, FAB_GRP_TBL.VALID, FAB_GRP_TBL.LOCAL, FAB_GRP_TBL.PROBE_OK, FAB_GRP_TBL.PROBE_MEMBER]⟩,
  -- FAB_MBR_TBL
  ⟨.fabric, 0x8000, 4, 256, 32, .part,
    [FAB_MBR_TBL.PATH0, FAB_MBR_TBL.PATH1, FAB_MBR_TBL.PATH2, FAB_MBR_TBL.PATH3, FAB_MBR_TBL.NPATH, FAB_MBR_TBL.VALID, FAB_MBR_TBL.SELF, FAB_MBR_TBL.PROBE_OK]⟩,
  -- FAB_TP_CTL
  ⟨.fabric, 0x100, 0, 1, 32, .part,
    [FAB_TP_CTL.RTO_US, FAB_TP_CTL.RETRIES, FAB_TP_CTL.NOTREADY_MS]⟩,
  -- FAB_TP_STATUS
  ⟨.fabric, 0x104, 0, 1, 32, .part,
    [FAB_TP_STATUS.SEND_CTX, FAB_TP_STATUS.RECV_CTX]⟩,
  -- FAB_TP_COUNT
  ⟨.fabric, 0x108, 0, 1, 32, .part,
    [FAB_TP_COUNT.RESENDS, FAB_TP_COUNT.DUPLICATES]⟩,
  -- FAB_TP_COUNT2
  ⟨.fabric, 0x10c, 0, 1, 32, .part,
    [FAB_TP_COUNT2.TIMEOUTS, FAB_TP_COUNT2.NO_STREAM]⟩,
  -- FAB_TREE_PARENT
  ⟨.fabric, 0x110, 0, 1, 32, .part,
    [FAB_TREE_PARENT.ADDR, FAB_TREE_PARENT.VALID]⟩,
  -- FAB_TREE_CHILD
  ⟨.fabric, 0x140, 4, 16, 32, .part,
    [FAB_TREE_CHILD.ADDR, FAB_TREE_CHILD.VALID]⟩,
  -- FAB_BAR_CTL
  ⟨.fabric, 0x180, 0, 1, 32, .part,
    [FAB_BAR_CTL.LOCAL_COUNT, FAB_BAR_CTL.PARTS]⟩,
  -- FAB_BAR_STATUS
  ⟨.fabric, 0x184, 0, 1, 32, .part,
    [FAB_BAR_STATUS.EPOCH]⟩,
  -- FAB_GOP_CTL
  ⟨.fabric, 0x188, 0, 1, 32, .part,
    [FAB_GOP_CTL.TIMEOUT_MS, FAB_GOP_CTL.SNAP_HOLD, FAB_GOP_CTL.RESUME, FAB_GOP_CTL.RESET_START]⟩,
  -- FAB_GOP_STATUS
  ⟨.fabric, 0x18c, 0, 1, 32, .part,
    [FAB_GOP_STATUS.BAR_WAIT, FAB_GOP_STATUS.SNAP_CUT, FAB_GOP_STATUS.SNAP_HELD, FAB_GOP_STATUS.RESET_ACTIVE]⟩,
  -- FAB_GOP_EVENT
  ⟨.fabric, 0x190, 0, 1, 32, .part,
    [FAB_GOP_EVENT.GOP_FAIL, FAB_GOP_EVENT.SNAP_DONE, FAB_GOP_EVENT.RESET_DONE, FAB_GOP_EVENT.TIME_UNLOCK, FAB_GOP_EVENT.TIME_LOCK]⟩,
  -- FAB_GOP_COUNT
  ⟨.fabric, 0x194, 0, 1, 32, .part,
    [FAB_GOP_COUNT.BAD, FAB_GOP_COUNT.FAILS]⟩,
  -- FAB_TIME_CTL
  ⟨.fabric, 0x1a0, 0, 1, 32, .part,
    [FAB_TIME_CTL.PERIOD]⟩,
  -- FAB_TIME_OFFSET
  ⟨.fabric, 0x1a4, 0, 1, 32, .part,
    [FAB_TIME_OFFSET.OFFSET_NS]⟩,
  -- FAB_TIME_STATUS
  ⟨.fabric, 0x1a8, 0, 1, 32, .part,
    [FAB_TIME_STATUS.LOCKED, FAB_TIME_STATUS.DELAY_NS]⟩,
  -- FAB_TIMEBASE
  ⟨.fabric, 0x1b0, 0, 1, 64, .part,
    [FAB_TIMEBASE.COUNT]⟩,
  -- BOOT_STATUS
  ⟨.boot, 0x0, 0, 1, 32, .vaon,
    [BOOT_STATUS.PHASE, BOOT_STATUS.WLOAD, BOOT_STATUS.IMAGE_ARMED, BOOT_STATUS.QUICK, BOOT_STATUS.MEM_WARM, BOOT_STATUS.CAUSE, BOOT_STATUS.SECTION, BOOT_STATUS.FUSE_EXT_BAD]⟩,
  -- BOOT_CTL
  ⟨.boot, 0x4, 0, 1, 32, .vaon,
    [BOOT_CTL.LOAD, BOOT_CTL.ACCEPT, BOOT_CTL.ABORT, BOOT_CTL.RESTART, BOOT_CTL.QUICK, BOOT_CTL.COLD, BOOT_CTL.SAVE]⟩]

/-- Registers 150 to 174 of the map, in the order of the spec's chapters. -/
def regTable6 : List RegDesc := [
  -- BOOT_IMAGE_ADDR
  ⟨.boot, 0x8, 0, 1, 64, .vaon,
    [BOOT_IMAGE_ADDR.ADDR]⟩,
  -- BOOT_BLOB_ADDR
  ⟨.boot, 0x10, 0, 1, 64, .vaon,
    [BOOT_BLOB_ADDR.ADDR]⟩,
  -- BOOT_FUSE_TILES
  ⟨.boot, 0x18, 0, 1, 64, .part,
    [BOOT_FUSE_TILES.TILES]⟩,
  -- BOOT_TILES
  ⟨.boot, 0x20, 0, 1, 64, .part,
    [BOOT_TILES.TILES]⟩,
  -- BOOT_LOAD_BYTES
  ⟨.boot, 0x28, 0, 1, 64, .part,
    [BOOT_LOAD_BYTES.BYTES]⟩,
  -- BOOT_TOPO_CTL
  ⟨.boot, 0x30, 0, 1, 32, .part,
    [BOOT_TOPO_CTL.MISSING_ALLOWED, BOOT_TOPO_CTL.ROUTES_REQUIRED]⟩,
  -- BOOT_TOPO
  ⟨.boot, 0x34, 0, 1, 32, .part,
    [BOOT_TOPO.FAILED, BOOT_TOPO.NARROW]⟩,
  -- BOOT_TOPO2
  ⟨.boot, 0x38, 0, 1, 32, .part,
    [BOOT_TOPO2.RESULT, BOOT_TOPO2.OPT_FAILED, BOOT_TOPO2.UNPROBED]⟩,
  -- BOOT_GRADE
  ⟨.boot, 0x3c, 0, 1, 32, .part,
    [BOOT_GRADE.GRADE, BOOT_GRADE.STEPPING]⟩,
  -- PWR_MODE
  ⟨.power, 0x0, 0, 1, 32, .part,
    [PWR_MODE.MODE]⟩,
  -- PWR_CAP_CTL
  ⟨.power, 0x4, 0, 1, 32, .part,
    [PWR_CAP_CTL.MARGIN, PWR_CAP_CTL.QUIET_W, PWR_CAP_CTL.BOOST_EN, PWR_CAP_CTL.INLET_FALLBACK]⟩,
  -- PWR_CAP_STATUS
  ⟨.power, 0x8, 0, 1, 32, .part,
    [PWR_CAP_STATUS.CAP_W, PWR_CAP_STATUS.BINDS, PWR_CAP_STATUS.POWER_W, PWR_CAP_STATUS.BOOSTING, PWR_CAP_STATUS.RATE_TRIP]⟩,
  -- PWR_RTH
  ⟨.power, 0xc, 0, 1, 32, .part,
    [PWR_RTH.EST, PWR_RTH.NOM]⟩,
  -- PWR_STATE_CTL
  ⟨.power, 0x10, 0, 1, 32, .part,
    [PWR_STATE_CTL.TARGET, PWR_STATE_CTL.AUTO_IDLE_MS]⟩,
  -- PWR_STATE_STATUS
  ⟨.power, 0x14, 0, 1, 32, .part,
    [PWR_STATE_STATUS.STATE, PWR_STATE_STATUS.ENTERING, PWR_STATE_STATUS.REFUSED]⟩,
  -- PWR_SLEEP_CTL
  ⟨.power, 0x18, 0, 1, 32, .part,
    [PWR_SLEEP_CTL.RET_US, PWR_SLEEP_CTL.OFF_MS]⟩,
  -- PWR_THR_CTL
  ⟨.power, 0x1c, 0, 1, 32, .part,
    [PWR_THR_CTL.DUTY, PWR_THR_CTL.RAMP_LEN, PWR_THR_CTL.VGUARD_MV]⟩,
  -- PWR_EVENT
  ⟨.power, 0x20, 0, 1, 32, .part,
    [PWR_EVENT.WARN, PWR_EVENT.THROTTLE, PWR_EVENT.RATE_TRIP, PWR_EVENT.COOLING_WARN, PWR_EVENT.SENSOR_FLAG, PWR_EVENT.FLOW_LOW, PWR_EVENT.FLOW_STOP, PWR_EVENT.INLET_LOST, PWR_EVENT.BOOST_START, PWR_EVENT.BOOST_END, PWR_EVENT.STATE_CHANGE]⟩,
  -- PWR_TRIP
  ⟨.power, 0x24, 0, 1, 32, .vaon,
    [PWR_TRIP.CAUSE, PWR_TRIP.SENSOR, PWR_TRIP.LATCHED, PWR_TRIP.RELEASE]⟩,
  -- PWR_FLOW_CTL
  ⟨.power, 0x28, 0, 1, 32, .part,
    [PWR_FLOW_CTL.PULSES_PER_L, PWR_FLOW_CTL.FLOW_MIN]⟩,
  -- PWR_SENSOR_REC
  ⟨.power, 0x2c, 0, 1, 32, .part,
    [PWR_SENSOR_REC.SENSOR, PWR_SENSOR_REC.KIND, PWR_SENSOR_REC.VALID]⟩,
  -- PWR_COOLANT
  ⟨.power, 0x30, 0, 1, 64, .part,
    [PWR_COOLANT.INLET, PWR_COOLANT.INLET_VALID, PWR_COOLANT.FLOW]⟩,
  -- PWR_TEMP_MAX
  ⟨.power, 0x38, 0, 1, 64, .part,
    [PWR_TEMP_MAX.LOGIC, PWR_TEMP_MAX.BONDED, PWR_TEMP_MAX.STACKS]⟩,
  -- PWR_TEMP_TOWER
  ⟨.power, 0x40, 4, 16, 32, .part,
    [PWR_TEMP_TOWER.LOGIC, PWR_TEMP_TOWER.BONDED]⟩,
  -- PWR_TEMP_HUB
  ⟨.power, 0x80, 4, 4, 32, .part,
    [PWR_TEMP_HUB.LOGIC]⟩]

/-- Registers 175 to 199 of the map, in the order of the spec's chapters. -/
def regTable7 : List RegDesc := [
  -- PWR_TEMP_STK
  ⟨.power, 0xa0, 4, 24, 32, .part,
    [PWR_TEMP_STK.STACK]⟩,
  -- PWR_TOWER_CLK
  ⟨.power, 0x100, 4, 16, 32, .part,
    [PWR_TOWER_CLK.TARGET, PWR_TOWER_CLK.CURRENT, PWR_TOWER_CLK.VT_MV, PWR_TOWER_CLK.THROTTLED]⟩,
  -- PWR_STK_CAP
  ⟨.power, 0x140, 4, 24, 32, .part,
    [PWR_STK_CAP.CAP, PWR_STK_CAP.THROTTLED]⟩,
  -- PKG_PG
  ⟨.package, 0x0, 0, 1, 32, .vaon,
    [PKG_PG.PG]⟩,
  -- PKG_SEQ
  ⟨.package, 0x4, 0, 1, 32, .vaon,
    [PKG_SEQ.EN, PKG_SEQ.STAGE, PKG_SEQ.FAULT_RAIL, PKG_SEQ.FAULT]⟩,
  -- PKG_AVS_STATUS
  ⟨.package, 0x8, 0, 1, 32, .part,
    [PKG_AVS_STATUS.SEG_OK, PKG_AVS_STATUS.SEG_FAIL, PKG_AVS_STATUS.RETRIES]⟩,
  -- PKG_CABLE
  ⟨.package, 0xc, 0, 1, 32, .part,
    [PKG_CABLE.PRSNT, PKG_CABLE.CHANGED]⟩,
  -- PKG_INLET_CFG
  ⟨.package, 0x10, 0, 1, 32, .part,
    [PKG_INLET_CFG.ADDR, PKG_INLET_CFG.MODE, PKG_INLET_CFG.REG, PKG_INLET_CFG.ORDER]⟩,
  -- PKG_RAIL
  ⟨.package, 0x100, 8, 29, 64, .part,
    [PKG_RAIL.V_MV, PKG_RAIL.I_DA, PKG_RAIL.P_DW, PKG_RAIL.VR_TEMP, PKG_RAIL.VALID]⟩,
  -- MGMT_STATUS
  ⟨.mgmt, 0x0, 0, 1, 32, .vaon,
    [MGMT_STATUS.RUN_SLOT, MGMT_STATUS.NEXT_SLOT, MGMT_STATUS.RECOVERY, MGMT_STATUS.UPDATE_OPEN, MGMT_STATUS.DEBUG_OPEN]⟩,
  -- MGMT_POLICY
  ⟨.mgmt, 0x4, 0, 1, 32, .part,
    [MGMT_POLICY.PF0_PRIV, MGMT_POLICY.ABAIGA_KEY]⟩,
  -- MGMT_EVENT
  ⟨.mgmt, 0x8, 0, 1, 32, .vaon,
    [MGMT_EVENT.CAUSE]⟩,
  -- MGMT_LOG_STATUS
  ⟨.mgmt, 0xc, 0, 1, 32, .vaon,
    [MGMT_LOG_STATUS.LOST, MGMT_LOG_STATUS.PENDING]⟩,
  -- MGMT_DBG_CHALLENGE
  ⟨.mgmt, 0x10, 4, 8, 32, .vaon,
    [MGMT_DBG_CHALLENGE.CHALLENGE]⟩,
  -- SEC_KEY_STATUS
  ⟨.mgmt, 0x40, 0, 1, 32, .vaon,
    [SEC_KEY_STATUS.SLOT0, SEC_KEY_STATUS.SLOT1, SEC_KEY_STATUS.SLOT2, SEC_KEY_STATUS.SLOT3, SEC_KEY_STATUS.SLOT4, SEC_KEY_STATUS.SLOT5, SEC_KEY_STATUS.SLOT6, SEC_KEY_STATUS.SLOT7]⟩,
  -- SEC_ENC_CTL
  ⟨.mgmt, 0x44, 0, 1, 32, .part,
    [SEC_ENC_CTL.PARTS]⟩,
  -- SEC_ENC_STATUS
  ⟨.mgmt, 0x48, 0, 1, 32, .part,
    [SEC_ENC_STATUS.KEYED]⟩,
  -- SEC_RNG
  ⟨.mgmt, 0x50, 0, 1, 64, .vaon,
    [SEC_RNG.VALUE]⟩,
  -- SEC_RNG_STATUS
  ⟨.mgmt, 0x58, 0, 1, 32, .vaon,
    [SEC_RNG_STATUS.VALID, SEC_RNG_STATUS.FAILED_TEST]⟩,
  -- RTC_SECONDS
  ⟨.mgmt, 0x60, 0, 1, 64, .vbat,
    [RTC_SECONDS.SECONDS]⟩,
  -- RTC_FRAC
  ⟨.mgmt, 0x68, 0, 1, 32, .vbat,
    [RTC_FRAC.FRACTION]⟩,
  -- RTC_SET_SEC
  ⟨.mgmt, 0x70, 0, 1, 64, .vaon,
    [RTC_SET_SEC.SECONDS]⟩,
  -- RTC_CTL
  ⟨.mgmt, 0x78, 0, 1, 32, .vbat,
    [RTC_CTL.SET, RTC_CTL.TIME_INVALID]⟩,
  -- VF_Q_PROD
  ⟨.vfq, 0x0, 16, 4, 32, .partition,
    [VF_Q_PROD.PROD]⟩,
  -- VF_Q_CONS
  ⟨.vfq, 0x4, 16, 4, 32, .partition,
    [VF_Q_CONS.CONS]⟩]

/-- Registers 200 to 200 of the map, in the order of the spec's chapters. -/
def regTable8 : List RegDesc := [
  -- VF_Q_STATUS
  ⟨.vfq, 0x8, 16, 4, 32, .partition,
    [VF_Q_STATUS.LOST]⟩]

/-- Every register of the part (Tables 20.2 to 20.7). -/
def regTable : List RegDesc :=
  regTable0 ++ regTable1 ++ regTable2 ++ regTable3 ++ regTable4 ++ regTable5 ++ regTable6 ++ regTable7 ++ regTable8

/-- The instance and index of register `r` that lie at offset `a`, if any. -/
def RegDesc.locate (r : RegDesc) (a : Nat) : Option (Nat × Nat) :=
  let base := (blkBase r.blk).1
  let step := (blkBase r.blk).2
  if a < base + r.off then none
  else
    let d := a - base
    let u := if step = 0 then 0 else d / step
    let o := if step = 0 then d else d % step
    if u < blkCount r.blk ∧ r.off ≤ o then
      let e := o - r.off
      if r.stride = 0 then (if e = 0 then some (u, 0) else none)
      else if e % r.stride = 0 ∧ e / r.stride < r.count then some (u, e / r.stride) else none
    else none

/-- The first register of a list that lies at offset `a`, with its instance and index. -/
def findReg : List RegDesc → Nat → Option (RegDesc × Nat × Nat)
  | [], _ => none
  | r :: rs, a =>
    match r.locate a with
    | some (u, i) => some (r, u, i)
    | none => findReg rs a

/-- The register at a register-space offset (R494: none where no block uses the offset). -/
def regAt (a : Nat) : Option (RegDesc × Nat × Nat) := findReg regTable a

end Sys2Proof.Machine
end

