-- ==== Sys2Proof/Machine/State.lean ====
section
/-!
DEFINITION. The state of the part: plain data, everything the spec gives the machine, and the queue of waiting commands.
Register fields lie in `regs` (keyed by register-space offset and bit, Machine/RegMap.lean); every memory byte of the
part lies in `mem` (keyed by the places of Machine/Ops.lean); the rest is the state behind the registers.
-/

namespace Sys2Proof.Machine

/-- The reasons a command stops the machine. -/
inductive Fault where
  /-- Raised by every meaning whose command names a unit the part does not have (a tile above 63, a port above 15): no
  such command exists on the hardware (`Instr.wf`). Safe: the model stops where the hardware has no case. -/
  | noSuchUnit
  deriving DecidableEq, Repr

/-- The reasons a command is refused. -/
inductive Refusal where
  /-- Answered only by a dispatch arm whose command has no meaning yet. Safe: nothing is claimed of it. -/
  | notModelled (mnemonic : String)
  deriving DecidableEq, Repr

/-- An entry of the protection map's active copy (R327, Table 13.7). -/
structure ProtEnt where
  valid : Bool := false
  kind : Nat := 0
  part : Nat := 0
  rights : Nat := 0
  src : Nat := 0
  base : Nat := 0
  size : Nat := 0
  deriving DecidableEq, Repr

/-- An error or event record (Table 10.6). `part` is none when PART does not apply. -/
structure ErrRec where
  cause : Nat := 0
  sev : Nat := 0
  src : Nat := 0
  part : Option Nat := none
  hub : Nat := 0
  unit : Nat := 0
  addr : Nat := 0
  syn : Nat := 0
  pos : Nat := 0xFFFF
  count : Nat := 0
  seq : Nat := 0
  stamp : Nat := 0
  info0 : Nat := 0
  info1 : Nat := 0
  deriving DecidableEq, Repr

/-- An open entry of a hub's merge buffer (R268): its 64 B block, when it opened, the bytes written so far with their
mask, the bytes that came poisoned, and each write that joined: its SOURCE code, its partition, its bytes. -/
structure MergeEnt where
  hub : Nat
  blk : Nat
  opened : Nat
  mask : Nat
  data : Nat
  poison : Nat
  writers : List (Nat × Nat × Nat)
  deriving DecidableEq, Repr

/-- How a request was answered (Tables 10.3, 13.2). -/
inductive RespKind where
  /-- No request has been answered yet. -/
  | none
  /-- Served; data is good, or the write is done. -/
  | ok
  /-- Served with poisoned data: the host sees the poisoned bit, an operand arrives poisoned, a sender sees POISON. -/
  | poisoned
  /-- Refused at ingress: Unsupported Request, cause 0x05, REFUSED. -/
  | refused
  /-- A bus error: a refused partial write or reduce word. -/
  | busError
  /-- A write that is dropped without a completion. -/
  | discarded
  /-- The target partition is in reset (R336). -/
  | notReady
  /-- A channel-busy return (R234). -/
  | channelBusy
  /-- Configuration Request Retry Status (R402). -/
  | retry
  /-- Completer Abort (R403). -/
  | abort
  deriving DecidableEq, Repr

/-- The last answer the part gave: to a memory request, a register read with effects, or a management command. -/
structure Resp where
  kind : RespKind := .none
  data : List Byte := []
  deriving DecidableEq, Repr

/-- One MSI-X vector of one function on one port: masked and pending as the PCI Express table holds them, and the
messages sent. -/
structure Msix where
  masked : Bool := true
  pending : Bool := false
  sent : Nat := 0
  addr : Nat := 0
  data : Nat := 0
  deriving DecidableEq, Repr

/-- A read request outstanding in the host memory window (R292). -/
structure HostRead where
  port : Nat
  tag : Nat
  part : Nat
  key : Nat
  len : Nat
  src : Nat
  addr : Nat
  deriving DecidableEq, Repr

/-- What a yarder request does (R111): it reads for its operator or into a place of the tile; it reads what a second request
then writes at an address or, on another tile, at a place; it writes bytes, of which `bad` names the poisoned ones; or it
reduces with an operation and type of Table 3.9, bytes from `used` on being row padding. -/
inductive YAct where
  | fetch (into : Option Nat)
  | relay (addr : Option Nat) (place target : Nat)
  | put (data : List Byte) (bad : Nat)
  | reduce (op ty used : Nat) (data : List Byte)
  deriving DecidableEq, Repr

/-- A request of a tile's yarder (R111): what it does, the part physical address it goes to (none: another tile), its place,
length and target. -/
structure YReq where
  act : YAct
  addr : Option Nat
  place : Nat
  len : Nat
  target : Nat
  deriving DecidableEq, Repr

/-- A yarder tag (R111, R112): in use with its request and owner, or in quarantine until `freeAt`. An orphan's operator has
ended or restarted without it; `came` is when it came to the yarder's port, before any hold; a held one waits in a channel (R233). `got`, `marks` and `refused`: what serving it has brought,
which bytes of that are poisoned, and whether it met a bus error (R204). -/
structure Tag where
  busy : Bool := false
  gen : Bool := false
  orphan : Bool := false
  level : Nat := 0
  thread : Nat := 0
  issued : Nat := 0
  came : Nat := 0
  protGen : Nat := 0
  quarantine : Bool := false
  freeAt : Nat := 0
  held : Bool := false
  rq : YReq := ⟨.fetch none, none, 0, 0, 0⟩
  got : List Byte := []
  marks : Nat := 0
  refused : Bool := false
  deriving DecidableEq, Repr

/-- What a sequencer thread is doing. -/
inductive ThrState where
  /-- Ready for its current descriptor to start. -/
  | ready
  /-- Its operator waits for a unit: its arrays, or an access that the hub does not admit yet (R104, R105, R233). -/
  | unit
  /-- Its operator runs on arrays (a `Job`). -/
  | arrays
  /-- Its operator waits for yarder requests: a miss (R104). -/
  | yarder
  /-- It stands in a WAIT. -/
  | waiting
  /-- Its operator waits for page records of Thapel steps. -/
  | steps
  /-- Its operator ended in fault. -/
  | faulted
  deriving DecidableEq, Repr

/-- A sequencer thread at one nesting level (R92, R104): which of its runs, iteration and descriptor it stands at, what it
does, since when it waits, whether its operator has been retried and has produced NaNs that NAN_FAULT forbids, and its
operator's requests not yet issued and issued. -/
structure Thr where
  run : Nat := 0
  iter : Nat := 0
  idx : Nat := 0
  st : ThrState := .ready
  since : Nat := 0
  retried : Bool := false
  nan : Bool := false
  reqs : List YReq := []
  outst : Nat := 0
  holdAt : Option Nat := none
  deriving DecidableEq, Repr

/-- Where a pre-emption of a job stands (R55 to R57). -/
inductive Preempt where
  /-- None is asked for. -/
  | none
  /-- A normal one since the given time. -/
  | normal (since : Nat)
  /-- An urgent one: feeding has stopped at the cut point. -/
  | urgent
  /-- Honoured: the arrays are free of the job until it resumes. -/
  | parked
  deriving DecidableEq, Repr

/-- A matrix operator that holds arrays (R105): its thread, its arrays, the pass that runs and how many there are, the
accumulator entries committed so far and those of the running pass (vector by vector, output by output), whether the
running pass has overflowed or saturated entries, whether its chain has been retried, whether outputs so far hold a NaN,
the configuration it runs in (R40), and how a pre-emption stands: for each array the next unfed vector or output where it was
cut (R57), and whether array sets are saved. -/
structure Job where
  thread : Nat
  stream : Bool
  arrays : List Nat
  pass : Nat
  passes : Nat
  acc : List Nat
  work : List Nat
  ovf : Bool
  intSat : Bool
  retried : Bool
  nan : Bool
  shape : Nat
  pre : Preempt
  cuts : List Nat
  saved : Bool
  deriving DecidableEq, Repr

/-- The power states of a tile (R444). -/
inductive TilePower where
  | off
  | retention
  | gated
  | run
  deriving DecidableEq, Repr

/-- A tile: the 3-bit activity counter with its fraction of a cycle (R51), the array configuration an operator waits for with
its level and thread (R105), the thread that issued last (R104), whether the hub has asked it to pre-empt, its power state
since when, and when it wakes. -/
structure Tile where
  counter : Nat := 0
  phase : Nat := 0
  want : Option (Nat × Nat × Nat) := none
  lastThr : Nat := 15
  preempting : Bool := false
  power : TilePower := .off
  since : Nat := 0
  wakeAt : Option Nat := none
  deriving DecidableEq, Repr

/-- One matrix array of a tile: its activity mask, 0 for none, the tile cycles it has spent in that mask, and those since its
feeding last stopped, up to the longest ramp (R52); whether the running pass has its held operands, and whether the shadow
registers hold those of the next (R42); the feed slots of the running pass that are not fed yet, and whether no pass is queued
behind it; the tile cycles that a drain, a save or a restore still takes (R57, R59). -/
structure Arr where
  mask : Nat := 0
  step : Nat := 0
  down : Nat := 128
  held : Bool := false
  shadow : Bool := false
  left : Nat := 0
  last : Bool := false
  busy : Nat := 0
  deriving DecidableEq, Repr

/-- What an instance at one nesting level of a partition runs (R93, R94): its graph, the execution slot of its command, the
tiles that take part, those that have ended and those stopped by a fault, its priority class, whether the hub aborted it,
and the first fault reported: cause, descriptor, tile, thread. -/
structure Inst where
  valid : Bool := false
  graph : Nat := 0
  slot : Nat := 0
  tiles : Nat := 0
  ended : Nat := 0
  faulted : Nat := 0
  aborted : Bool := false
  cls : Nat := 0
  fault : Option (Nat × Nat × Nat × Nat) := none
  deriving DecidableEq, Repr

/-- How far a partition reset or load has come (R334, R337). -/
inductive ResetStage where
  | none
  | draining (byFlr load retire : Bool) (since : Nat)
  | loadDrain (retire committed : Bool)
  | loadWeights
  | heldFailed
  deriving DecidableEq, Repr

/-- A partition: its reset and load, its instance levels, a pre-emption the hub has decided (urgent or not) with the
execution slot it is for, one more than the deck last served in each class, and its last forecast
(duration in ms, KIND, POWER, TOWERS of each phase), when it began and whether it was accepted; the image of a running load,
and the blobs written. -/
structure Part where
  stage : ResetStage := .none
  level : Nat := 0
  insts : Tbl Inst := []
  preAsk : Option (Nat × Bool) := none
  lastDeck : List Nat := [0, 0, 0, 0]
  forecast : List (Nat × Nat × Nat × Nat) := []
  forecastAt : Nat := 0
  accepted : Bool := false
  load : List Byte := []
  blobs : List Nat := []
  deriving DecidableEq, Repr

/-- What the hub has reserved for one session of a command (R161, R163): its slot, committed count and handle generation
at the reservation, the segments of the tokens it may commit, the reserved pages that become entries of full-context and
ring layers, and the pending pages; each page as layer, index, page number. -/
structure Resv where
  slot : Nat := 0
  n : Nat := 0
  count : Nat := 0
  segs : List Nat := []
  fresh : List (Nat × Nat × Nat) := []
  ring : List (Nat × Nat × Nat) := []
  pend : List (Nat × Nat × Nat) := []
  scratch : List (Nat × Nat × Nat) := []
  deriving DecidableEq, Repr

/-- A regrowth in progress (R172 to R174): the session's index in the command, the next history index and the end of the
range, the length of the running chunk, the ring layers whose rings are rebuilt in place, and, where the command is to end
after the running chunk, its status and DETAIL. -/
structure Regrow where
  sess : Nat := 0
  next : Nat := 0
  stop : Nat := 0
  count : Nat := 0
  rebuild : List Nat := []
  rings : Bool := false
  cut : Option (Nat × Nat) := none
  deriving DecidableEq, Repr

/-- How far a started command has come. -/
inductive ExStage where
  /-- Started; its first effect waits for its sessions or its turn. -/
  | started
  /-- Suspended for frames (R168), as the n-th suspension. -/
  | suspended (n : Nat)
  /-- A RUN_GRAPH, or a chunk of its regrowth, ready for its tiles. -/
  | ready
  /-- Its instance runs, or is suspended, at a nesting level. -/
  | running (level : Nat)
  /-- Waiting for an event, a time, earlier commands, or the transport. -/
  | waiting
  /-- Ended with a status and DETAIL at a nesting level; its record waits for its last pin (R159). -/
  | ending (level status detail : Nat)
  /-- Aborted by cause 0x07 at a nesting level; it reruns once its last pin is released (R177). -/
  | rerun (level : Nat)
  deriving DecidableEq, Repr

/-- A started command in an execution slot of a home hub (R303, R321): its deck and entry, when it was fetched, in which
order and when it started, how far it has come, its reservations and regrowth, the sessions it has regrown, its input
tokens with their segments and positions (R124), the sessions for which a SAMPLE found no valid logit (R86), whether it has been rerun (R177), what the transport reported, and the
slot's generation bit and quarantine; `silent`: its record is not written (R334). A KV_PARK keeps the pages it has written
and pinned, and how many were absent; `phase` counts the streams that a command has finished. -/
structure Exec where
  busy : Bool := false
  gen : Bool := false
  deck : Nat := 0
  entry : Nat := 0
  fetched : Nat := 0
  order : Nat := 0
  started : Nat := 0
  stage : ExStage := .started
  resv : List Resv := []
  later : List Resv := []
  regrow : Option Regrow := none
  regrown : Nat := 0
  toks : List Nat := []
  segs : List Nat := []
  pos : List Nat := []
  invalid : List Nat := []
  reran : Bool := false
  lateSeen : Bool := false
  got : List Byte := []
  written : List Nat := []
  absent : Nat := 0
  phase : Nat := 0
  silent : Bool := false
  quarantine : Option Nat := none
  deriving DecidableEq, Repr

/-- A deck context (R301, R302): its state (0 disabled, 1 parked, 2 active, 3 stopped), the doorbell value, the next entry
to fetch, whether it waits for an active place, its fetched entries with their fetch times, the records and token-stream
entries written since enable, those that host software has consumed, the token-stream count at each record, since when it
is idle, whether its next command cannot start, and whether it is being stopped, with or without records. -/
structure Deck where
  state : Nat := 0
  doorbell : Nat := 0
  fetch : Nat := 0
  remembered : Bool := false
  fetched : List (Nat × Nat) := []
  cqProd : Nat := 0
  cqCons : Nat := 0
  tsProd : Nat := 0
  tsFree : Nat := 0
  tsMap : List (Nat × Nat) := []
  idleSince : Nat := 0
  blocked : Bool := false
  stopping : Option Bool := none
  deriving DecidableEq, Repr

/-- The Thapel mode of a channel (R219 to R221): memory mode, entering processor mode, processor mode. -/
inductive ChanMode where
  | memory
  | entering
  | processor
  deriving DecidableEq, Repr

/-- An access held by a channel that is not in memory mode (R233, R234), or that waits at a bank (R205): the request, what it writes, when it came,
the tile, tag, generation bit and request of a yarder's, and the level at which it travels (R248). -/
structure Held where
  rq : Req
  write : Bool
  since : Nat
  data : List Byte
  poisoned : Bool
  yard : Option (Nat × Nat × Bool × YReq) := none
  level : Nat := 2
  deriving DecidableEq, Repr

/-- A row-table entry (Table 8.4). -/
structure RowEnt where
  bitmap : Nat
  pos : Nat
  seg : Nat
  deriving DecidableEq, Repr

/-- A page step (Table 8.3) with what the hub writes into the query buffer for it: its query vectors in the order KV head,
node, query head, each as its bytes, and its row table. `tag` is the hub tag, `qOff` and `tabOff` are the places in the query
buffer in 64 B units. `tile`, `level`, `thread`, `sess` and `index` say
for which session and which page of a part's list it is; `queued` when it was queued. -/
structure Step where
  op : Nat
  part : Nat
  chan : Nat
  frame : Nat
  page : Nat
  layer : Nat
  pending : Bool
  segTest : Bool
  row0 : Nat
  rows : Nat
  head0 : Nat
  heads : Nat
  group : Nat
  geom : Nat
  n : Nat
  window : Nat
  scaleC : Nat
  qfmt : Nat
  pendFirst : Nat
  tag : Nat
  qOff : Nat
  tabOff : Nat
  qs : List (List Byte)
  tab : List RowEnt
  tile : Nat
  level : Nat
  thread : Nat
  sess : Nat
  index : Nat
  handle : Nat
  queued : Nat
  deriving DecidableEq, Repr

/-- A Thapel result (Table 8.6): the step it answers, its status and its records, each as m, l and o; the visible keys, the
seal read and the seal formed, and the time of the step's close. -/
structure Result where
  step : Step
  status : Nat
  recs : List (List Nat)
  visible : Nat := 0
  sealRead : Nat := 0
  sealCalc : Nat := 0
  stamp : Nat := 0
  deriving DecidableEq, Repr

/-- A tier-1 channel: its mode, and since when it has not been in memory mode; its step queue and running step, with
whether the step has closed and its yield point follows, how it closed, and whether it has been retried; the query buffer
(R216); the full result halves; the held accesses, and those that wait at a bank (R205); the times of the last yield point
and of the start of the linger; each due refresh's deadline, and when the next falls due. -/
structure Chan where
  mode : ChanMode := .memory
  left : Nat := 0
  queue : List Step := []
  running : Option Step := none
  closed : Option Nat := none
  retried : Bool := false
  qbuf : List Byte := []
  halves : List Result := []
  held : List Held := []
  bankQ : List Held := []
  lastYield : Nat := 0
  lingerFrom : Nat := 0
  due : List Nat := []
  refreshAt : Nat := 0
  deriving DecidableEq, Repr

/-- A session of an attention operator whose pages are being read (R135, R159): its index, its pages in list order, each
pinned, the tags of the Thapel steps made of them (none: the tile reads them itself), and the results delivered. -/
structure AttnPart where
  sess : Nat
  pages : List Nat
  steps : List Nat
  got : List Result
  deriving DecidableEq, Repr

/-- A bandwidth account's run-time state (R243 to R247), in bytes: the windows begun up to now, what remains of the
guarantee and of best effort, the debt on the next window, what has been borrowed in this one, and the held requests. -/
structure Acct where
  win : Nat := 0
  guar : Nat := 0
  be : Nat := 0
  debt : Nat := 0
  borrowed : Nat := 0
  held : List Nat := []
  deriving DecidableEq, Repr

/-- A message queued at an egress port: its flits not yet sent, and whether any has been. -/
structure Queued where
  m : Msg
  flits : List Flit
  started : Bool
  deriving DecidableEq, Repr

/-- A Bolkiby port behind its registers (chapter 14): training (since when it stands in its state, when it tries again,
whether settings are saved and tried, the partner's last mask), a retrain (its cause, its start, the state before it);
what it sends (sequence number, replay buffer, flits being replayed, CTRL flits as subtype and value, queued messages,
flits sent and freed per class as the partner reports, replays without progress, the round robin, flits since an IDLE);
what it receives (the expected number, a NAK outstanding, flits freed, held and withheld per class, partial messages,
markers missed); authentication (both sides' results, times); the rate limits' counts; the last leak. On the lanes
(R343, R344, R347, R348, R466): the transmitter taps of each lane and those saved, the STATUS and the request that each
lane's frames carry, the frames sent and the last one; the flits of the FEC block being filled, the blocks sent, the
scrambler's last 58 bits, and the last block as the levels of each logical lane's unit intervals. -/
structure Port where
  stSince : Nat := 0
  retryAt : Nat := 0
  settings : Bool := false
  warmTry : Bool := false
  coldOnly : Bool := false
  before : Nat := 0
  masks : List Nat := []
  retrain : Option Nat := none
  retrainAt : Nat := 0
  txSeq : Nat := 0
  replay : List Flit := []
  resend : List Flit := []
  ctrl : List (Nat × Nat) := []
  vcq : List Queued := []
  sent : List Nat := List.replicate 16 0
  crTot : List Nat := List.replicate 16 0
  crCur : Nat := 0
  stale : Nat := 0
  progressAt : Nat := 0
  replaysUp : Nat := 0
  arbVc : Nat := 2
  arbLeft : Nat := 0
  sinceIdle : Nat := 0
  last : Option Flit := none
  rxSeq : Nat := 0
  rxAny : Bool := false
  nakAt : Option Nat := none
  freed : List Nat := List.replicate 16 0
  held : List Nat := List.replicate 16 0
  heldBack : List Nat := List.replicate 16 0
  partials : List (Nat × List Flit) := []
  missed : Nat := 0
  selfOk : Bool := false
  peerOk : Bool := false
  authAt : Nat := 0
  helloAt : Nat := 0
  msgs : Nat := 0
  mgmt : Nat := 0
  leakAt : Nat := 0
  taps : List (List Int) := List.replicate 8 [0, -8, 50, -6, 0]
  savedTaps : List (List Int) := List.replicate 8 [0, -8, 50, -6, 0]
  replies : List Nat := List.replicate 8 0
  asks : List (Nat × Nat × Nat) := List.replicate 8 (0, 0, 0)
  frames : Nat := 0
  lastFrame : Nat := 0
  blk : List Flit := []
  blocks : Nat := 0
  scr : Nat := 0
  lanes : List (List Int) := []
  deriving DecidableEq, Repr

/-- A probe of the running cruise (R370): its id, the table entry and path, the port and target, when it was last sent. -/
structure ProbeSt where
  id : Nat
  group : Bool
  entry : Nat
  path : Nat
  port : Nat
  dest : Nat
  sentAt : Nat
  answered : Bool
  deriving DecidableEq, Repr

/-- A send context (R381, R384): the stream, its command, its messages not yet acknowledged, its timers. -/
structure SendCtx where
  valid : Bool := false
  dest : Nat := 0
  stream : Nat := 0
  epoch : Nat := 0
  part : Nat := 0
  slot : Nat := 0
  ordered : Bool := false
  queue : List Msg := []
  unacked : List Msg := []
  progressAt : Nat := 0
  tries : Nat := 0
  notReady : Option (Nat × Nat) := none
  notReadyAt : Nat := 0
  poison : Bool := false
  deriving DecidableEq, Repr

/-- A receive context (R382, R383). -/
structure RecvCtx where
  valid : Bool := false
  src : Nat := 0
  stream : Nat := 0
  epoch : Nat := 0
  ordered : Bool := false
  next : Nat := 0
  applied : List Nat := []
  lastAt : Nat := 0
  doneAt : Option Nat := none
  deriving DecidableEq, Repr

/-- The combining tree's state (R391 to R396). -/
structure Tree where
  local_ : Nat := 0
  localNext : Nat := 0
  children : List Nat := []
  waiting : List (Nat × Nat) := []
  waitingNext : List (Nat × Nat) := []
  snaps : List (Nat × Nat) := []
  cut : Bool := false
  snap : Bool := false
  failed : Bool := false
  readyAt : Option Nat := none
  sentUp : Bool := false
  drained : Bool := false
  snapChildren : List Nat := []
  snapReadyAt : Option Nat := none
  snapUpSent : Bool := false
  snapFailed : Bool := false
  casts : List (Nat × Nat) := []
  resetReqAt : Option Nat := none
  resetAcks : List Nat := []
  resetDownAt : Option Nat := none
  ackSentAt : Option Nat := none
  deriving DecidableEq, Repr

/-- What the accepted Greuc image holds beside register values (Table 16.7), packed as the items lay it out. Keys are
given in Machine/LoadForm.lean. -/
structure Img where
  valid : Bool := false
  kind : Nat := 0
  descs : Tbl Nat := []
  runs : Tbl Nat := []
  slots : Tbl Nat := []
  maps : Tbl Nat := []
  mapEnds : Tbl Nat := []
  commits : Tbl Nat := []
  shapes : Tbl Nat := []
  sessions : Tbl Nat := []
  pools : Tbl Nat := []
  bases : Tbl Nat := []
  ledgers : Tbl Nat := []
  preempts : List (Nat × Nat × Nat) := []
  blobs : Tbl (List Nat) := []
  kvScales : Tbl Nat := []
  regrow : Tbl Nat := []
  windows : Tbl Nat := []
  kvLayout : Tbl Nat := []
  partRegs : Tbl Nat := []
  deriving DecidableEq, Repr

/-- The fuse block (Table 16.2) and the extension table of the boot flash (R406). -/
structure Fuses where
  crcOk : Bool := true
  grade : Nat := 0
  stepping : Nat := 2
  serial : Nat := 0
  disabled : Nat := 0
  arrayRepair : Tbl Nat := []
  fabBadLanes : Tbl Nat := []
  hostBadLanes : Nat := 0
  trims : Tbl Int := []
  vfTower : Tbl Nat := []
  vfHub : Tbl Nat := []
  repairs : List Nat := []
  extCrcOk : Bool := true
  ext : List Nat := []
  deriving DecidableEq, Repr

/-- Bring-up and part reset behind the boot registers (chapter 16): VAON is valid, the always-on domain runs and since
when, phase 3 has ended since VAON, a part reset runs, its phases skip phase 3, phase 3 is run again alone (R477), phase 5
has completed, when the phase began, the blobs written and whether weight load has ended well, an ACCEPT held (R423), and
the saved training records of the flash as firmware version plus one: channel c, 1024 + tile, 2048 + port (R409). -/
structure Boot where
  vaon : Bool := false
  ao : Bool := false
  aoAt : Nat := 0
  mgmtUp : Bool := false
  inReset : Bool := false
  warm : Bool := false
  restarting : Bool := false
  memDone : Bool := false
  phaseAt : Nat := 0
  blobs : List Nat := []
  loaded : Bool := false
  accept : Bool := false
  saved : Tbl Nat := []
  savedTaps : Tbl (List (List Int)) := []
  deriving DecidableEq, Repr

/-- One thermal sensor as the last sample left it (R426, R427): its reading with the trim, whether it is ignored, and since
when an ignored one has read plausibly. -/
structure Sensor where
  temp : Int := 0
  ignored : Bool := false
  okSince : Option Nat := none
  deriving DecidableEq, Repr

/-- One hot spot (R427, R443): its value, since when its sensors differ by more than 8 °C, whether the pair is flagged, its
last ten samples and the sums of ten at the last five evaluations, newest first, how many evaluations in a row found it
rising above 15 °C/s, and the last rate in 1/16 °C per s. -/
structure Spot where
  value : Int := 0
  diffSince : Option Nat := none
  flagged : Bool := false
  hist : List Int := []
  avgs : List Int := []
  high : Nat := 0
  rate : Int := 0
  deriving DecidableEq, Repr

/-- The thermal and power managers behind their registers (chapter 17). Temperatures are in units of 1/16 °C (R449).
`warned` and `throttled` list domains: 0 to 15 tile die of a tower, 16 to 19 hub, 20 to 35 bonded layers of a tower, 36 to 59
stack. Per tower: the throttle limit and forecast ceilings (clock steps, 20 for none), the DUTY steps of the over-cap response
and when they fell last, when the clock target was last raised, when a raised voltage has settled, the 10 µs estimate. Then the power summed
for the 100 ms average, the rate trip, the boost with what must pass before the next, the coolant, the part state being
entered and since when nothing runs, and since when each tile has had no instance is kept with the tile. -/
structure Power where
  sensors : Tbl Sensor := []
  spots : Tbl Spot := []
  warned : List Nat := []
  throttled : List Nat := []
  thrLimit : Tbl Nat := []
  ceil : Tbl Nat := []
  duty : Tbl Nat := []
  dutyAt : Nat := 0
  raisedAt : Tbl Nat := []
  settleAt : Tbl (Option Nat) := []
  est : Tbl Nat := []
  powSum : Nat := 0
  powN : Nat := 0
  rateTrip : Bool := false
  calmSince : Option Nat := none
  cooling : Bool := false
  boost : Bool := false
  boostAt : Nat := 0
  boostLen : Nat := 0
  underNs : Nat := 0
  inletFails : Nat := 0
  inletLost : Bool := false
  pulses : Nat := 0
  lastPulse : Nat := 0
  lowSince : Option Nat := none
  flowLow : Bool := false
  flowStop : Bool := false
  entering : Option Nat := none
  idleSince : Option Nat := none
  deriving DecidableEq, Repr

/-- The package pins and the sequencer (chapter 18): since when the stage before the next is complete, when the latest enable
was asserted, the lowest stage whose enable falls and when the last one fell, whether an orderly power-down keeps the enables
low; the AVSBus segments that have failed, a bit each; PERST#, THERM_ALERT_N and THERM_TRIP_N as asserted; the host links'
lanes (0: down) and generation; SR-IOV NumVFs per port; when each rail was last read. -/
structure Pkg where
  readyAt : Option Nat := none
  enAt : Nat := 0
  down : Option (Nat × Nat) := none
  off : Bool := false
  segBad : Nat := 0
  perst : List Bool := [true, true]
  alert : Bool := false
  trip : Bool := false
  hostUp : List Nat := [0, 0]
  hostGen : List Nat := [0, 0]
  numVfs : List Nat := [0, 0]
  railAt : Tbl (Option Nat) := []
  deriving DecidableEq, Repr

/-- An entry of the event and error log (R481, Table 19.6); `hub` is 0xFF for a record that management wrote. -/
structure LogEnt where
  hub : Nat
  seq : Nat
  secs : Nat
  frac : Nat
  timeInvalid : Bool
  body : ErrRec
  deriving DecidableEq, Repr

/-- The management complex behind its registers (chapter 19): the endpoint ID, the receiver of events and the events sent;
the update agent, the components verified and not yet in effect, the firmware version of each slot, the states of the key store's
image-key slots (R483), the extension table as last applied; the records on their way to the log, the entries in SRAM and in flash (oldest first), the next sequence number, the
entries lost and not yet reported; the partition keys and how many have been drawn; the calendar value that waits for the next tick, whether
the count has been lost; the signed messages of the images in force with the key of the whole-part image (R484). -/
structure Mgmt where
  eid : Nat := 0
  receiver : Option Nat := none
  events : List ErrRec := []
  update : Option Nat := none
  comps : List Nat := []
  staging : Bool := false
  slotVer : List Nat := [1, 1]
  keySlots : List Nat := [0, 0, 0, 0, 0, 0, 0, 0]
  extApplied : List Nat := []
  feed : List ErrRec := []
  buffered : List LogEnt := []
  flash : List LogEnt := []
  logSeq : Nat := 0
  lost : Nat := 0
  keys : Tbl Nat := []
  keyGen : Nat := 0
  setArmed : Option Nat := none
  oscStopped : Bool := false
  calLost : Bool := true
  imgMsg : List Byte := []
  imgKey : Nat := 0
  partMsg : Tbl (List Byte) := []
  deriving DecidableEq, Repr

/-- The state of the part. -/
structure State where
  /-- The commands that wait, first in, first out. -/
  pending : List Instr := []
  /-- The fabric timebase in ns (R389), modulo 2^64. -/
  time : Nat := 0
  /-- The calendar count: seconds times 32,768 plus fraction (R490), and the ns since its last tick. -/
  calendar : Nat := 0
  calPhase : Nat := 0
  /-- How far the timebase's slewing still has to go, in ns (R389), whether it has stepped since the last part or fabric
  reset, and whether a deck has been enabled since the last part reset. -/
  slew : Int := 0
  stepped : Bool := false
  deckEver : Bool := false
  /-- The counter that the free values are drawn from: the model's own field. -/
  free : Nat := 0
  /-- Register fields that do not hold their reset value, by field key. -/
  regs : Tbl Nat := []
  /-- Held low halves and latched high halves of 64-bit registers, by accessor (R496). -/
  halfW : Tbl (Nat × Nat) := []
  halfR : Tbl (Nat × Nat) := []
  /-- Part-wide RWL fields are sealed, and the partitions whose fields are sealed (R13). -/
  sealWide : Bool := false
  sealParts : Nat := 0
  /-- Every memory byte of the part and of the host memory it sees, by place. -/
  mem : Tbl Byte := []
  /-- Stored check bits XOR the encoder's check bits of the stored data, by the code word's place (R258 to R261). -/
  chk : Tbl Nat := []
  /-- The active copy of the protection map (R331). -/
  prot : Tbl ProtEnt := []
  /-- The last answer given to a requester. -/
  rsp : Resp := {}
  /-- Each hub's queue of records, its count of records, and the VF queues (R273, R294). -/
  errQ : Tbl ErrRec := []
  recCount : Tbl Nat := []
  vfQ : Tbl ErrRec := []
  /-- Corrections of a class since its last overflow, by hub × 4 + class (R266). -/
  ceSince : Tbl Nat := []
  /-- When each event that comes at intervals came last: hub × 16 + 0 for the hot-bank tally, 1 its leak (R206), 2 + class the
  leak of a class's tally (R266); and 6 + memory when the next word of its scrub is due (R271). -/
  ticks : Tbl Nat := []
  /-- Queued write-backs of corrected words (R265), open merge entries, oldest first (R268), scrub positions (R271). -/
  wbq : List Nat := []
  merge : List MergeEnt := []
  scrub : Tbl Nat := []
  /-- A CONFIG_UE has been met: ingress, instances and decks have stopped (R277). -/
  halted : Bool := false
  msix : Tbl Msix := []
  hostReads : List HostRead := []
  hostTag : Nat := 0
  /-- The tiles, their arrays (tile × 4 + array), threads ((tile × 4 + level) × 16 + thread), jobs ((tile × 4 + level) × 4
  + lead array), yarder tags (tile × 512 + tag) and tile-local semaphores ((tile × 4 + level) × 64 + semaphore). -/
  tiles : Tbl Tile := []
  arrs : Tbl Arr := []
  thrs : Tbl Thr := []
  jobs : Tbl (Option Job) := []
  tags : Tbl Tag := []
  tileSems : Tbl Nat := []
  /-- The partitions, their semaphores ((part × 4 + level) × 4096 + semaphore) and event counters (part × 1024 + n). -/
  parts : Tbl Part := []
  sems : Tbl Nat := []
  evts : Tbl Nat := []
  /-- Deck contexts, execution slots (hub × 1024 + slot), commands started and reservations suspended so far. -/
  decks : Tbl Deck := []
  execs : Tbl Exec := []
  startNo : Nat := 0
  suspNo : Nat := 0
  /-- Pins held at PIN 0xFFFF, page and thread, oldest first; pages that KV_DROP drops at their last unpin, with the entry
  (partition, slot, layer, index) that names each; where each session's frame allocation goes on (R157); the channels. The
  ledger itself lies in tier 1 (R156). -/
  pinHeld : List (Nat × Nat) := []
  dropLater : List (Nat × Nat × Nat × Nat × Nat) := []
  allocAt : Tbl Nat := []
  chans : Tbl Chan := []
  /-- Page steps not yet queued (R222), oldest first, how many have been made, and the attention operators whose pages are being
  read, by thread. -/
  thapWait : List Step := []
  stepNo : Nat := 0
  attn : Tbl (List AttnPart) := []
  /-- Bandwidth accounts: hub × 256 + account; 1024 + channel for a pool channel's Thapel sequencer. -/
  accts : Tbl Acct := []
  /-- The latency monitors' maximum and bins 0 to 7, by hub × 256 + selector (R254). -/
  mons : Tbl (List Nat) := []
  /-- Margin sweeps in progress, by hub. -/
  margin : Tbl Nat := []
  /-- The fabric: ports, the cruise, messages delivered to the local transport, streams, the tree. -/
  ports : Tbl Port := []
  probes : List ProbeSt := []
  cruiseAt : Option Nat := none
  routeImage : Tbl Nat := []
  inbox : List Msg := []
  sendCtx : Tbl SendCtx := []
  recvCtx : Tbl RecvCtx := []
  streamNo : Nat := 0
  syncAt : Nat := 0
  tree : Tree := {}
  /-- The image, the fuses and bring-up. -/
  img : Img := {}
  fuses : Fuses := {}
  boot : Boot := {}
  /-- The partition, plus one, that last held a resource: tile j, 64 + channel, (R337). -/
  owner : Tbl Nat := []
  power : Power := {}
  pkg : Pkg := {}
  mgmt : Mgmt := {}
  deriving DecidableEq, Repr

/-- The part before VAON becomes valid for the first time: every register field at its reset value, nothing in memory,
the queue empty, bring-up about to begin (BOOT_STATUS.PHASE 1). -/
def State.reset : State := {}

end Sys2Proof.Machine
end

