-- ==== Sys2Proof/WellFormed.lean ====
section
/-!
DEFINITION. Which commands name units the part has (R17, R31, R194, R341, R299). A command outside these ranges is no
command of the hardware.
-/

namespace Sys2Proof

/-- The accessor's port and function exist: two host ports, sixteen virtual functions (R284). -/
def Accessor.wf : Accessor → Bool
  | .pf0 p => decide (p < 2)
  | .pf1 p => decide (p < 2)
  | .vf k p => decide (1 ≤ k) && decide (k ≤ 16) && decide (p < 2)
  | .mgmt => true

/-- The request's source, hub and partition exist, and it is at least one byte long. -/
def Req.wf (r : Req) : Bool :=
  decide (r.hub < 4) && decide (r.part < 16) && decide (0 < r.len) &&
  (match r.src with
   | .tile j t => decide (j < 64) && decide (t < 16)
   | .streamer j => decide (j < 64)
   | .seq j => decide (j < 64)
   | .host p vf => decide (p < 2) && decide (vf ≤ 16)
   | .fabric p => decide (p < 16)
   | .engine c => decide (6 ≤ c) && decide (c ≤ 8)
   | .thapel c => decide (c < 768)
   | .runAhead j => decide (j < 64))

/-- A tile exists. -/
def tileOk (j : Nat) : Bool := decide (j < 64)

/-- A tile and one of its sixteen threads exist. -/
def threadOk (j t : Nat) : Bool := decide (j < 64) && decide (t < 16)

/-- A tile and one of its four arrays exist. -/
def arrayOk (j a : Nat) : Bool := decide (j < 64) && decide (a < 4)

/-- A hub exists. -/
def hubOk (h : Nat) : Bool := decide (h < 4)

/-- A partition exists. -/
def partOk (p : Nat) : Bool := decide (p < 16)

/-- A partition and one of the 1,024 execution slots of its home hub exist. -/
def slotOk (p x : Nat) : Bool := decide (p < 16) && decide (x < 1024)

/-- A tier-1 channel exists. -/
def chanOk (c : Nat) : Bool := decide (c < 768)

/-- A Bolkiby port exists. -/
def portOk (p : Nat) : Bool := decide (p < 16)

/-- A host port exists. -/
def hostOk (p : Nat) : Bool := decide (p < 2)

/-- A deck exists. -/
def deckOk (d : Nat) : Bool := decide (d < 32768)

/-- A message arrives on a port of the part. -/
def Msg.wf (m : Msg) : Bool := decide (m.port ≤ 16)

/-- The doorbell operands name a function that has doorbells. -/
def fnOk (fn : Nat) : Bool := decide (fn ≤ 17)

/-- The command is a START with its operation code. -/
def rawOk (who : Accessor) (hub v op : Nat) : Bool := who.wf && hubOk hub && v.testBit 8 && v % 4 == op

/-- A page number exists: its hub, and an index below 4,194,304. -/
def pageOk (pg : Nat) : Bool := decide (pg < 2 ^ 24)

/-- The host window's address. -/
def isHostWindow (a : Nat) : Bool := decide (0x40000000000 ≤ a) && decide (a < 0x80000000000)

/-- A unit that can fail exists: 0 tier-0 decoder of a tile, 1 sidecar decoder of a channel, 2 decoder or march of a last-level
slice (hub × 16 + slice), 3 working-store decoder of a tile, 4 merge datapath of a hub, 5 stores or cells of a tile, 6 Thapel pipes
of a channel, 7 engines, mesh or transit of a hub. -/
def unitOk (u : Nat × Nat) : Bool :=
  match u.1 with
  | 0 | 3 | 5 => decide (u.2 < 64)
  | 1 | 6 => decide (u.2 < 768)
  | 2 => decide (u.2 < 64)
  | 4 | 7 => decide (u.2 < 4)
  | _ => false

/-- The transport exists. -/
def Transport.ok : Transport → Bool
  | .i3c | .smbus => true
  | .pf1 p | .doe p => hostOk p

/-- The command names units the part has: the check that every meaning makes of its operands, and with which it answers a
fault. -/
def Instr.wf : Instr → Bool
  | .registerWrite who _ _ _ _ => who.wf
  | .rcFieldRead who _ _ => who.wf
  | .tileThrottleWrite who tile _ => who.wf && tileOk tile
  | .throttleTakeEffect tile => tileOk tile
  | .rampStep tile array => arrayOk tile array
  | .shadowLoadDone tile array => arrayOk tile array
  | .arrayConfigChange tile => tileOk tile
  | .passCommit tile array => arrayOk tile array
  | .passFault tile array _ => arrayOk tile array
  | .preemptRequest tile _ => tileOk tile
  | .preemptBoundary tile array => arrayOk tile array
  | .preemptDeadline tile array => arrayOk tile array
  | .urgentSaveDone tile array _ _ => arrayOk tile array
  | .preemptResume tile _ => tileOk tile
  | .instanceStart part slot => slotOk part slot
  | .instanceEnd part _ => partOk part
  | .matmulStream tile thread => threadOk tile thread
  | .matmulStationary tile thread => threadOk tile thread
  | .attendPrefill tile start => threadOk tile start.thread
  | .attendDecode tile start => threadOk tile start.thread
  | .attendBwd tile start => threadOk tile start.thread
  | .norm tile start => threadOk tile start.thread
  | .rope tile start => threadOk tile start.thread
  | .act tile start => threadOk tile start.thread
  | .route tile start => threadOk tile start.thread
  | .dispatch tile thread => threadOk tile thread
  | .combine tile start => threadOk tile start.thread
  | .sample tile start => threadOk tile start.thread
  | .embed tile start => threadOk tile start.thread
  | .copyRows tile thread => threadOk tile thread
  | .reduce tile start => threadOk tile start.thread
  | .kvAppend tile thread => threadOk tile thread
  | .waitOp tile thread => threadOk tile thread
  | .signalOp tile thread => threadOk tile thread
  | .waitSatisfied tile thread => threadOk tile thread
  | .waitLimit tile thread => threadOk tile thread
  | .yarderCompletion tile tag _ => tileOk tile && tag < 512
  | .yarderTimeout tile tag => tileOk tile && tag < 512
  | .tagQuarantineEnd tile tag => tileOk tile && tag < 512
  | .instanceAbort part => partOk part
  | .runAheadRead tile _ _ => tileOk tile
  | .reservationRetry part => partOk part
  | .regrowChunk part _ => partOk part
  | .ledgerPin page _ => pageOk page
  | .ledgerUnpin page => pageOk page
  | .ledgerRef page => pageOk page
  | .ledgerUnref page => pageOk page
  | .droppedPageRerun part => partOk part
  | .memoryRead rq _ => rq.wf
  | .memoryWrite rq data _ => rq.wf && data.length == rq.len
  | .partialWrite rq data _ => rq.wf && data.length == rq.len
  | .adderReduce rq op ty data => rq.wf && data.length == rq.len && rq.len % 64 == 0 && rq.len ≤ 512 && rq.addr % 64 == 0 && op < 3 && ty < 4
  | .correctedWriteBack _ => true
  | .hostWindowRequest rq write data => rq.wf && isHostWindow rq.addr && (!write || data.length == rq.len)
  | .hostCompletion port _ status _ => hostOk port && status < 4
  | .hostCompletionTimeout port _ => hostOk port
  | .refresh chan => chanOk chan
  | .hotbankTick hub _ => hubOk hub
  | .hotbankLeak hub => hubOk hub
  | .marginSweepStart who hub v => who.wf && hubOk hub && v.testBit 14
  | .marginSweepDone hub _ _ _ => hubOk hub
  | .thapelStepQueue hub chan => hubOk hub && chanOk chan
  | .processorModeEntry chan => chanOk chan
  | .attendPage chan => chanOk chan
  | .sealVerify chan => chanOk chan
  | .yieldPoint chan _ => chanOk chan
  | .resultBufferDrain chan => chanOk chan
  | .lingerExpiry chan => chanOk chan
  | .channelBusy chan _ => chanOk chan
  | .thapelHang chan => chanOk chan
  | .refreshAbandon chan => chanOk chan
  | .windowBoundary hub acct => hubOk hub && acct < 144
  | .requestRelease hub master part _ => hubOk hub && decide (master < 22) && partOk part
  | .urgencySample hub master _ => hubOk hub && decide (16 ≤ master) && decide (master ≤ 20)
  | .scaleUpdate hub => hubOk hub
  | .tallyLeak hub cls => hubOk hub && decide (cls < 4)
  | .mergeEntryTimeout hub => hubOk hub
  | .patrolScrub hub mem _ => hubOk hub && decide (mem < 5)
  | .readRaw who hub v => rawOk who hub v 0
  | .readCorrected who hub v => rawOk who hub v 1
  | .writeRaw who hub v => rawOk who hub v 2
  | .writeEncoded who hub v => rawOk who hub v 3
  | .mgmtRecordCopy hub => hubOk hub
  | .logFlush _ => true
  | .hostLinkTraining port gen width => hostOk port && (gen == 5 || gen == 6) && (width == 4 || width == 8 || width == 16)
  | .configRequest port fn _ => hostOk port && fnOk fn
  | .deckDoorbell fn port _ _ _ => fnOk fn && hostOk port
  | .deckCqDoorbell fn port _ _ _ => fnOk fn && hostOk port
  | .bar4SegWrite who port k _ => who.wf && hostOk port && decide (k < 16)
  | .vfSegWrite who port k _ => who.wf && hostOk port && decide (1 ≤ k) && decide (k ≤ 16)
  | .vfFlr k => decide (1 ≤ k) && decide (k ≤ 16)
  | .pf0Flr port => hostOk port
  | .pf1Flr port => hostOk port
  | .hostLinkDown port => hostOk port
  | .perstDeassert port => hostOk port
  | .deckEnable who _ => who.wf
  | .deckStop who => who.wf
  | .deckPark deck => deckOk deck
  | .deckActivate deck => deckOk deck
  | .deckFetch deck => deckOk deck
  | .commandStart deck => deckOk deck
  | .runGraph part slot => slotOk part slot
  | .kvCopy part slot => slotOk part slot
  | .kvDrop part slot => slotOk part slot
  | .kvPark part slot => slotOk part slot
  | .kvUnpark part slot => slotOk part slot
  | .weightLoad part slot => slotOk part slot
  | .fence part slot => slotOk part slot
  | .eventWait part slot => slotOk part slot
  | .eventSignal part slot => slotOk part slot
  | .timer part slot => slotOk part slot
  | .forecast part slot => slotOk part slot
  | .fabricSend part slot => slotOk part slot
  | .barrier part slot => slotOk part slot
  | .broadcast part slot => slotOk part slot
  | .snapshot part slot => slotOk part slot
  | .eventWaitSatisfied part slot => slotOk part slot
  | .timerExpiry part slot => slotOk part slot
  | .commandTimeout deck idx _ => deckOk deck && decide (idx < 1024)
  | .lateResult part slot _ => slotOk part slot
  | .execSlotQuarantineEnd part slot => slotOk part slot
  | .sendContextGrant part slot => slotOk part slot
  | .protShadowWrite who _ _ _ => who.wf
  | .protCommit who _ => who.wf
  | .protSwap => true
  | .partitionReset who _ => who.wf
  | .partitionLoad who _ _ => who.wf
  | .partitionRetire who _ => who.wf
  | .resetDrainDone part => partOk part
  | .drainSlow part => partOk part
  | .loadDrainDone part => partOk part
  | .loadWeightsDone part _ => partOk part
  | .linkDetect port => portOk port
  | .trainingFrame port _ => portOk port
  | .trainingTimeout port => portOk port
  | .trainingRetry port => portOk port
  | .fecBlock port _ symErrs => portOk port && symErrs.length == 4
  | .dataFlit port f => portOk port && decide (f.vc < 8) && decide (f.dl < 2)
  | .idleFlit port _ => portOk port
  | .nak port _ => portOk port
  | .linkInit port => portOk port
  | .linkInitAck port => portOk port
  | .retrainReq port => portOk port
  | .linkReset port cause => portOk port && (cause == 1 || cause == 2)
  | .replayTimeout port => portOk port
  | .nakRepeat port => portOk port
  | .retrainComplete port width _ => portOk port && decide (1 ≤ width) && decide (width ≤ 3)
  | .retrainTimeout port => portOk port
  | .portRetrain who port => who.wf && portOk port
  | .portQuarantine who port => who.wf && portOk port
  | .portRelease who port => who.wf && portOk port
  | .fabTallyLeak port => portOk port
  | .fabRateInterval port _ => portOk port
  | .routeTableWrite who _ _ => who.wf
  | .messageRoute m => m.wf
  | .hello m => m.wf
  | .helloTimer port => portOk port
  | .spdmMessage m _ => m.wf
  | .authTimeout port => portOk port
  | .authRetry port => portOk port
  | .cruiseStart who => who.wf
  | .probe m => m.wf
  | .probeReply m => m.wf
  | .probeResend => true
  | .cruiseEnd => true
  | .remoteWrite m => m.wf
  | .remoteReduce m => m.wf
  | .kvPageWrite m => m.wf
  | .kvPageReadReq m => m.wf
  | .kvPageReadData m => m.wf
  | .tokenFwd m => m.wf
  | .stream m => m.wf
  | .response m => m.wf
  | .retransmitTimeout hub ctx => hubOk hub && decide (ctx < 1024)
  | .notReadyResend hub ctx => hubOk hub && decide (ctx < 1024)
  | .notReadyLimit hub ctx => hubOk hub && decide (ctx < 1024)
  | .recvContextClose hub ctx => hubOk hub && decide (ctx < 4096)
  | .timeSyncPeriod => true
  | .timeReq m => m.wf
  | .timeResp m => m.wf
  | .barUp m => m.wf
  | .barDown m => m.wf
  | .bcastUp m => m.wf
  | .bcastDown m => m.wf
  | .snapUp m => m.wf
  | .snapMarker m => m.wf
  | .snapshotDrained => true
  | .snapshotResume who => who.wf
  | .gopTimeout child => decide (child < 16)
  | .fabricResetStart who => who.wf
  | .resetReq m => m.wf
  | .resetDown m => m.wf
  | .resetAck m => m.wf
  | .resetReqTimeout => true
  | .resetAckTimeout => true
  | .fabricLocalReset => true
  | .vaonValid => true
  | .alwaysOnStart => true
  | .fuseRead => true
  | .secureBoot _ _ => true
  | .selfTest res => res.all unitOk
  | .memoryTraining badChans badTiles _ _ => badChans.all chanOk && badTiles.all tileOk
  | .imageCheck _ => true
  | .linkTrainingPhase => true
  | .weightLoadBlob _ _ => true
  | .readyEntry => true
  | .bootLoad who => who.wf
  | .bootAccept who => who.wf
  | .bootAbort who => who.wf
  | .bootRestart who => who.wf
  | .bootSave who => who.wf
  | .sensorSample temps => temps.all (fun x => decide (x.1 < 752))
  | .thermalWarning spot => decide (spot < 376)
  | .towerThrottle sensor _ => decide (sensor < 752)
  | .stackThrottle sensor _ => decide (sensor < 752)
  | .stackCapStep stack => decide (stack < 24)
  | .thermalShutdown sensor _ => decide (sensor < 752)
  | .tripRelease who => who.wf
  | .powerFault rails => decide (rails < 2 ^ 29)
  | .powerTelemetry rail _ _ _ _ _ => decide (rail < 28)
  | .avsStatusPoll seg _ _ => decide (seg < 4)
  | .powerEstimate watts => watts.length == 16
  | .clockTargetUpdate => true
  | .clockSwitch tower => decide (tower < 16)
  | .rthEstimate => true
  | .inletRead _ => true
  | .flowPulse => true
  | .flowCount => true
  | .flowStop => true
  | .rateEvaluation => true
  | .forecastPhase part => partOk part
  | .partStateTarget who _ => who.wf
  | .autoIdle => true
  | .partWake => true
  | .tileWake part => partOk part
  | .tileRetention tile => tileOk tile
  | .tileOff tile => tileOk tile
  | .sequenceStage pgs => decide (pgs < 2 ^ 29)
  | .pgTimeout rail => decide (rail < 29)
  | .boardReset => true
  | .powerDown => true
  | .cableChange prsnt => decide (prsnt < 2 ^ 16)
  | .setEndpointId via eid => Transport.ok via && decide (eid < 256)
  | .getSensorReading via _ => Transport.ok via
  | .setEventReceiver via eid => Transport.ok via && decide (eid < 256)
  | .requestUpdate via eid => Transport.ok via && decide (eid < 256)
  | .firmwareComponent via _ _ _ _ => Transport.ok via
  | .activateFirmware via _ => Transport.ok via
  | .logInfo via => Transport.ok via
  | .logRead via _ _ => Transport.ok via
  | .logClear via => Transport.ok via
  | .timeSet via _ => Transport.ok via
  | .setPriv via _ => Transport.ok via
  | .debugUnlock via _ _ => Transport.ok via
  | .spdmRequest via _ => Transport.ok via
  | .secRngRead who => who.wf
  | .rngHealthFail test => decide (1 ≤ test) && decide (test ≤ 3)
  | .debugChallengeRead who => who.wf
  | .rtcSecondsRead who => who.wf
  | .rtcSet who => who.wf
  | .rtcSetApply => true
  | .rtcOscStop => true
  | .vaonLoss => true
  | .vbatLow => true
  | .flitSlot port => portOk port
  | .partStateEntered => true
  | .registerHalfRead who _ => who.wf

end Sys2Proof
end

