-- ==== Sys2Proof/Machine/Ops.lean ====
section
/-!
DEFINITION. The named operations over the state that every family uses: register fields, events and their vectors,
records (R273), places in memory, code words and their decoding, the address map, the protection map.
-/

namespace Sys2Proof.Machine

/-- The state with another queue of waiting commands. -/
def State.withQueue (s : State) (q : List Instr) : State := { s with pending := q }

/-! One field replaced: what every other operation is built from. -/

/-- The state with another `time`. -/
def State.withTime (s : State) (v : Nat) : State := { s with time := v }

/-- The state with another `calendar`. -/
def State.withCalendar (s : State) (v : Nat) : State := { s with calendar := v }

/-- The state with another `calPhase`. -/
def State.withCalPhase (s : State) (v : Nat) : State := { s with calPhase := v }

/-- The state with another `slew`. -/
def State.withSlew (s : State) (v : Int) : State := { s with slew := v }

/-- The state with another `stepped`. -/
def State.withStepped (s : State) (v : Bool) : State := { s with stepped := v }

/-- The state with another `deckEver`. -/
def State.withDeckEver (s : State) (v : Bool) : State := { s with deckEver := v }

/-- The state with another `free`. -/
def State.withFree (s : State) (v : Nat) : State := { s with free := v }

/-- The state with another `regs`. -/
def State.withRegs (s : State) (v : Tbl Nat) : State := { s with regs := v }

/-- The state with another `halfW`. -/
def State.withHalfW (s : State) (v : Tbl (Nat × Nat)) : State := { s with halfW := v }

/-- The state with another `halfR`. -/
def State.withHalfR (s : State) (v : Tbl (Nat × Nat)) : State := { s with halfR := v }

/-- The state with another `sealWide`. -/
def State.withSealWide (s : State) (v : Bool) : State := { s with sealWide := v }

/-- The state with another `sealParts`. -/
def State.withSealParts (s : State) (v : Nat) : State := { s with sealParts := v }

/-- The state with another `mem`. -/
def State.withMem (s : State) (v : Tbl Byte) : State := { s with mem := v }

/-- The state with another `chk`. -/
def State.withChk (s : State) (v : Tbl Nat) : State := { s with chk := v }

/-- The state with another `prot`. -/
def State.withProt (s : State) (v : Tbl ProtEnt) : State := { s with prot := v }

/-- The state with another `rsp`. -/
def State.withRsp (s : State) (v : Resp) : State := { s with rsp := v }

/-- The state with another `errQ`. -/
def State.withErrQ (s : State) (v : Tbl ErrRec) : State := { s with errQ := v }

/-- The state with another `recCount`. -/
def State.withRecCount (s : State) (v : Tbl Nat) : State := { s with recCount := v }

/-- The state with another `vfQ`. -/
def State.withVfQ (s : State) (v : Tbl ErrRec) : State := { s with vfQ := v }

/-- The state with another `ceSince`. -/
def State.withCeSince (s : State) (v : Tbl Nat) : State := { s with ceSince := v }

/-- The state with another `ticks`. -/
def State.withTicks (s : State) (v : Tbl Nat) : State := { s with ticks := v }

/-- The state with another `wbq`. -/
def State.withWbq (s : State) (v : List Nat) : State := { s with wbq := v }

/-- The state with another `merge`. -/
def State.withMerge (s : State) (v : List MergeEnt) : State := { s with merge := v }

/-- The state with another `scrub`. -/
def State.withScrub (s : State) (v : Tbl Nat) : State := { s with scrub := v }

/-- The state with another `halted`. -/
def State.withHalted (s : State) (v : Bool) : State := { s with halted := v }

/-- The state with another `msix`. -/
def State.withMsix (s : State) (v : Tbl Msix) : State := { s with msix := v }

/-- The state with another `hostReads`. -/
def State.withHostReads (s : State) (v : List HostRead) : State := { s with hostReads := v }

/-- The state with another `hostTag`. -/
def State.withHostTag (s : State) (v : Nat) : State := { s with hostTag := v }

/-- The state with another `tiles`. -/
def State.withTiles (s : State) (v : Tbl Tile) : State := { s with tiles := v }

/-- The state with another `arrs`. -/
def State.withArrs (s : State) (v : Tbl Arr) : State := { s with arrs := v }

/-- The state with another `thrs`. -/
def State.withThrs (s : State) (v : Tbl Thr) : State := { s with thrs := v }

/-- The state with another `jobs`. -/
def State.withJobs (s : State) (v : Tbl (Option Job)) : State := { s with jobs := v }

/-- The state with another `tags`. -/
def State.withTags (s : State) (v : Tbl Tag) : State := { s with tags := v }

/-- The state with another `tileSems`. -/
def State.withTileSems (s : State) (v : Tbl Nat) : State := { s with tileSems := v }

/-- The state with another `sems`. -/
def State.withSems (s : State) (v : Tbl Nat) : State := { s with sems := v }

/-- The state with another `evts`. -/
def State.withEvts (s : State) (v : Tbl Nat) : State := { s with evts := v }

/-- The state with another `decks`. -/
def State.withDecks (s : State) (v : Tbl Deck) : State := { s with decks := v }

/-- The state with another `startNo`. -/
def State.withStartNo (s : State) (v : Nat) : State := { s with startNo := v }

/-- The state with another `suspNo`. -/
def State.withSuspNo (s : State) (v : Nat) : State := { s with suspNo := v }

/-- The state with another `pinHeld`. -/
def State.withPinHeld (s : State) (v : List (Nat × Nat)) : State := { s with pinHeld := v }

/-- The state with another `dropLater`. -/
def State.withDropLater (s : State) (v : List (Nat × Nat × Nat × Nat × Nat)) : State := { s with dropLater := v }

/-- The state with another `allocAt`. -/
def State.withAllocAt (s : State) (v : Tbl Nat) : State := { s with allocAt := v }

/-- The state with another `chans`. -/
def State.withChans (s : State) (v : Tbl Chan) : State := { s with chans := v }

/-- The state with another `thapWait`. -/
def State.withThapWait (s : State) (v : List Step) : State := { s with thapWait := v }

/-- The state with another `stepNo`. -/
def State.withStepNo (s : State) (v : Nat) : State := { s with stepNo := v }

/-- The state with another `attn`. -/
def State.withAttn (s : State) (v : Tbl (List AttnPart)) : State := { s with attn := v }

/-- The state with another `mons`. -/
def State.withMons (s : State) (v : Tbl (List Nat)) : State := { s with mons := v }

/-- The state with another `margin`. -/
def State.withMargin (s : State) (v : Tbl Nat) : State := { s with margin := v }

/-- The state with another `probes`. -/
def State.withProbes (s : State) (v : List ProbeSt) : State := { s with probes := v }

/-- The state with another `cruiseAt`. -/
def State.withCruiseAt (s : State) (v : Option Nat) : State := { s with cruiseAt := v }

/-- The state with another `routeImage`. -/
def State.withRouteImage (s : State) (v : Tbl Nat) : State := { s with routeImage := v }

/-- The state with another `inbox`. -/
def State.withInbox (s : State) (v : List Msg) : State := { s with inbox := v }

/-- The state with another `sendCtx`. -/
def State.withSendCtx (s : State) (v : Tbl SendCtx) : State := { s with sendCtx := v }

/-- The state with another `recvCtx`. -/
def State.withRecvCtx (s : State) (v : Tbl RecvCtx) : State := { s with recvCtx := v }

/-- The state with another `streamNo`. -/
def State.withStreamNo (s : State) (v : Nat) : State := { s with streamNo := v }

/-- The state with another `syncAt`. -/
def State.withSyncAt (s : State) (v : Nat) : State := { s with syncAt := v }

/-- The state with another `tree`. -/
def State.withTree (s : State) (v : Tree) : State := { s with tree := v }

/-- The state with another `img`. -/
def State.withImg (s : State) (v : Img) : State := { s with img := v }

/-- The state with another `fuses`. -/
def State.withFuses (s : State) (v : Fuses) : State := { s with fuses := v }

/-- The state with another `boot`. -/
def State.withBoot (s : State) (v : Boot) : State := { s with boot := v }

/-- The state with another `owner`. -/
def State.withOwner (s : State) (v : Tbl Nat) : State := { s with owner := v }

/-- The state with another `power`. -/
def State.withPower (s : State) (v : Power) : State := { s with power := v }

/-- The state with another `pkg`. -/
def State.withPkg (s : State) (v : Pkg) : State := { s with pkg := v }

/-- The state with another `mgmt`. -/
def State.withMgmt (s : State) (v : Mgmt) : State := { s with mgmt := v }

/-- What a command at state `s` answers: the state `t` it leaves, whose queue is what it was, for a command has its effect on
everything but the queue; or a fault where it names no unit. -/
def ok (wf : Bool) (s t : State) : Host.Outcome State Fault Refusal :=
  if wf then .next (t.withQueue s.pending) else .fault .noSuchUnit

/-! Register fields. -/

/-- The value of a field of register `i` of instance `u` of its block. -/
def State.fget (s : State) (f : Field) (u i : Nat) : Nat := Tbl.get f.rst s.regs (f.key u i)

/-- The state with a field set, truncated to its width. -/
def State.fset (s : State) (f : Field) (u i v : Nat) : State :=
  { s with regs := Tbl.put f.rst s.regs (f.key u i) (v % 2 ^ f.w) }

/-- The value of the field `sh` bits above `f` in the same register: registers that hold one field per unit. -/
def State.fgetAt (s : State) (f : Field) (u i sh : Nat) : Nat := Tbl.get f.rst s.regs (f.key u i + sh)

/-- The state with the field `sh` bits above `f` set. -/
def State.fsetAt (s : State) (f : Field) (u i sh v : Nat) : State :=
  { s with regs := Tbl.put f.rst s.regs (f.key u i + sh) (v % 2 ^ f.w) }

/-- The state with a counting field one higher, saturating at its largest value. -/
def State.fcount (s : State) (f : Field) (u i : Nat) : State :=
  s.fset f u i (min (s.fget f u i + 1) (2 ^ f.w - 1))

/-- The state with a counting field `n` higher, saturating at its largest value. -/
def State.fcountN (s : State) (f : Field) (u i n : Nat) : State :=
  s.fset f u i (min (s.fget f u i + n) (2 ^ f.w - 1))

/-- The state with a wrapping field one higher. -/
def State.fwrap (s : State) (f : Field) (u i : Nat) : State := s.fset f u i (s.fget f u i + 1)

/-- Bit `n` of a field. -/
def State.fbit (s : State) (f : Field) (u i n : Nat) : Bool := (s.fget f u i).testBit n

/-- A truth value as a bit. -/
def bit (b : Bool) : Nat := if b then 1 else 0

/-- A number with bit `n` set or cleared. -/
def setBit (v n : Nat) (b : Bool) : Nat :=
  if v.testBit n then (if b then v else v - 2 ^ n) else (if b then v + 2 ^ n else v)

/-- The state with bit `n` of a field set or cleared. -/
def State.fbitSet (s : State) (f : Field) (u i n : Nat) (b : Bool) : State :=
  s.fset f u i (setBit (s.fget f u i) n b)

/-- The ramp's length divided by eight, the tile cycles of a step (R52, LEN_EFF). -/
def State.rampStep (s : State) (j : Nat) : Nat :=
  let l := max (s.fget TILE_RAMP_CTL.LEN_IMAGE j 0) (min 16 (s.fget TILE_THROTTLE.RAMP_LEN_MGMT j 0))
  if l = 0 then 4 else l

/-- An interval of `ns` has passed since the event `k` of `ticks` came last. -/
def State.due (s : State) (k ns : Nat) : Bool := decide (Tbl.get 0 s.ticks k + ns ≤ s.time)

/-- The event `k` of `ticks` has come now. -/
def State.ticked (s : State) (k : Nat) : State := s.withTicks (Tbl.put 0 s.ticks k s.time)

/-! Partitions and functions. -/

/-- The hub of a flat tile (R17). -/
def hubOfTile (j : Nat) : Nat := j / 16

/-- The hub of a tier-1 channel (R194). -/
def hubOfChan (c : Nat) : Nat := c / 192

/-- The VF bound to a partition, if any (R285). -/
def State.boundVf (s : State) (p : Nat) : Option Nat :=
  ((List.range 17).drop 1).find? (fun k =>
    s.fget HIF_VF_BIND.EN 0 k == 1 && s.fget HIF_VF_BIND.PART 0 k == p)

/-- The partition bound to VF `k`, if any. -/
def State.vfPart (s : State) (k : Nat) : Option Nat :=
  if s.fget HIF_VF_BIND.EN 0 k = 1 then some (s.fget HIF_VF_BIND.PART 0 k) else none

/-- The partition that owns a tower, if any. -/
def State.towerPart (s : State) (t : Nat) : Option Nat :=
  if s.fbit PART_TOWER_EN.ASSIGNED 0 0 t then
    some (s.fgetAt PART_TOWER_MAP.PART0 0 0 (4 * t)) else none

/-- The partition that owns a tile, if any (R325: by towers). -/
def State.tilePart (s : State) (j : Nat) : Option Nat := s.towerPart (j / 4)

/-- The tile is one of BOOT_TILES. -/
def State.tileUsable (s : State) (j : Nat) : Bool := s.fbit BOOT_TILES.TILES 0 0 j

/-- The tiles of a partition: the usable tiles of its towers, ascending. -/
def State.partTiles (s : State) (p : Nat) : List Nat :=
  (List.range 64).filter (fun j => s.tilePart j == some p && s.tileUsable j)

/-- The home hub of a partition: the hub of its lowest-numbered tower (R326). -/
def State.homeHub (s : State) (p : Nat) : Nat :=
  match (List.range 16).find? (fun t => s.towerPart t == some p) with
  | some t => t / 4
  | none => 0

/-- PART_STATUS of a partition. -/
def State.partStatus (s : State) (p : Nat) : Nat :=
  s.fgetAt PART_STATUS.STATE0 0 0 (2 * p)

/-- The state with PART_STATUS of a partition set: 0 unused, 1 running, 2 held, 3 loading. -/
def State.setPartStatus (s : State) (p v : Nat) : State :=
  s.fsetAt PART_STATUS.STATE0 0 0 (2 * p) v

/-- The state with a partition changed. -/
def State.onPart (s : State) (p : Nat) (f : Part → Part) : State :=
  { s with parts := Tbl.upd {} s.parts p f }

/-- A partition. -/
def State.part (s : State) (p : Nat) : Part := Tbl.get {} s.parts p

/-- The part has reached READY or READY-DEGRADED (R401). -/
def State.isReady (s : State) : Bool :=
  s.fget BOOT_STATUS.PHASE 0 0 == 12 || s.fget BOOT_STATUS.PHASE 0 0 == 13

/-! Interrupts (R293). -/

/-- The place of a vector: port, function (0 PF0, 1 PF1, 1 + k VF k), vector. -/
def msixKey (port fn vec : Nat) : Nat := (port * 32 + fn) * 4096 + vec

/-- One message of a vector: sent, or pending while masked. -/
def Msix.raise (m : Msix) : Msix :=
  if m.masked then { m with pending := true } else { m with sent := m.sent + 1 }

/-- The state with one vector of one function raised on one port. -/
def State.raise1 (s : State) (port fn vec : Nat) : State :=
  { s with msix := Tbl.upd {} s.msix (msixKey port fn vec) Msix.raise }

/-- The state with a vector of one function raised on both ports. -/
def State.raise2 (s : State) (fn vec : Nat) : State := (s.raise1 0 fn vec).raise1 1 fn vec

/-- The function whose vectors carry a partition's events: its VF, or PF0 (R293). -/
def State.eventFn (s : State) (p : Option Nat) : Nat :=
  match p with
  | none => 0
  | some p => match s.boundVf p with
    | some k => k + 1
    | none => 0

/-- The event vector of a field's register (Table 11.4, R470), and whether it is PF1's (R493). -/
def eventVector (f : Field) : Option (Nat × Bool) :=
  match f.blk with
  | .hub =>
    if f.off = 0x7004 then some (0, false) else if f.off = 0x4004 then some (1, false)
    else if f.off = 0x6488 then some (2, false)
    else if f.off = 0x3018 ∨ f.off = 0x5050 then some (3, false) else none
  | .power => if f.off = 0x20 then some (4, false) else none
  | .package => if f.off = 0x8 then some (4, false) else if f.off = 0xC then some (5, false) else none
  | .fabric => if f.off = 0x0C ∨ f.off = 0x190 then some (5, false) else none
  | .hif => if f.off = 0x4 then some (6, false) else none
  | .mgmt => if f.off = 0x8 then some (1, true) else none
  | _ => none

/-- Hardware sets bits of an event field: a bit that rises raises the register's vector (R293). -/
def State.evt (s : State) (f : Field) (u i mask : Nat) (p : Option Nat) : State :=
  let old := s.fget f u i
  let s' := s.fset f u i (old ||| mask)
  if (old ||| mask) = old then s'
  else match eventVector f with
    | some (v, pf1) => s'.raise2 (if pf1 then 1 else s.eventFn p) v
    | none => s'

/-! Records (R273, R274, R294). -/

/-- The records a hub has stored since the part reset. -/
def State.recs (s : State) (h : Nat) : Nat := Tbl.get 0 s.recCount h

/-- The distance from consumer to producer of a queue of `size` records; a consumer further behind acts as full (Table
10.18, Table 20.7). -/
def queueFill (size prod cons : Nat) : Nat := min size ((prod + 65536 - cons) % 65536)

/-- The VF's copy of a record whose PART names partition `p` (R294), in the queue of hub `h`. -/
def State.vfCopy (s : State) (h p : Nat) (r : ErrRec) : State :=
  match s.boundVf p with
  | none => s
  | some k =>
    let prod := s.fget VF_Q_PROD.PROD p h
    if queueFill 64 prod (s.fget VF_Q_CONS.CONS p h) = 64 then s.fcount VF_Q_STATUS.LOST p h
    else
      let s1 := (s.withVfQ (Tbl.put {} s.vfQ ((p * 4 + h) * 64 + prod % 64) r))
      (s1.fwrap VF_Q_PROD.PROD p h).raise2 (k + 1) 0

/-- The event bits a record's severity sets (Table 10.14). -/
def State.sevEvents (s : State) (h : Nat) (r : ErrRec) : State :=
  if r.sev = 1 ∨ r.sev = 2 then s.evt ERR_EVENT.UNCORRECTED h 0 1 r.part
  else if r.sev = 3 then s.evt ERR_EVENT.FATAL h 0 1 r.part else s

/-- The management complex gets a copy of every record of severity 1 and up (R273). -/
def State.recordFeed (s : State) (r : ErrRec) : State :=
  if r.sev ≥ 1 then s.withMgmt { s.mgmt with feed := s.mgmt.feed ++ [r] } else s

/-- A record goes into its hub's queue, or is counted as lost when the queue is full (R273). -/
def State.recordQueue (s : State) (h : Nat) (r : ErrRec) : State :=
  if queueFill 256 (s.fget ERR_Q_PROD.PROD h 0) (s.fget ERR_Q_CONS.CONS h 0) = 256 then
    (s.fcount ERR_Q_STATUS.LOST h 0).evt ERR_EVENT.Q_LOST h 0 1 none
  else
    let s1 := (s.withErrQ (Tbl.put {} s.errQ (h * 256 + s.recs h % 256) r)).withRecCount (Tbl.upd 0 s.recCount h (· + 1))
    (s1.fwrap ERR_Q_PROD.PROD h 0).evt ERR_EVENT.RECORD h 0 1 r.part

/-- A record arrives at hub `h`: stored in the queue, or counted as lost when the queue is full; copied to the management
complex from severity 1 up, and to the VF of its partition (R273, R294). -/
def State.record (s : State) (h : Nat) (r0 : ErrRec) : State :=
  let r := { r0 with hub := h, seq := s.recs h % 4294967296, stamp := s.time }
  let s1 := ((s.sevEvents h r).recordFeed r).recordQueue h r
  match r.part with
  | some p => s1.vfCopy h p r
  | none => s1

/-! Places in memory. -/

/-- The place of byte `a` of tile `j`'s tier-0 slice (R191). -/
def t0At (j a : Nat) : Nat := j * 2 ^ 33 + a

/-- Where a tier-0 slice offset lies (Table 7.2): byte of the word, pillar, bank, row and column within the bank, bonded
layer. -/
structure T0Loc where
  byte : Nat
  pillar : Nat
  bank : Nat
  rowCol : Nat
  layer : Nat
  deriving DecidableEq, Repr

/-- The decode of a slice offset (R191). -/
def t0Loc (a : Nat) : T0Loc := ⟨a % 64, a / 2 ^ 6 % 64, a / 2 ^ 12 % 16, a / 2 ^ 16 % 2 ^ 15, a / 2 ^ 31⟩

/-- The slice offset that a location stands for. -/
def T0Loc.offset (x : T0Loc) : Nat := x.layer * 2 ^ 31 + x.rowCol * 2 ^ 16 + x.bank * 2 ^ 12 + x.pillar * 2 ^ 6 + x.byte

/-- The place of byte `a` of tile `j`'s working store (R101). -/
def wsAt (j a : Nat) : Nat := 2 ^ 39 + j * 2 ^ 24 + a

/-- The place of byte `l` of tier-1 channel `c`: its linear slot (R194). -/
def t1At (c l : Nat) : Nat := 0x10000000000 + c * 0x90000000 + l

/-- The place of byte `o` of hub `h`'s last-level memory (R202). -/
def llmAt (h o : Nat) : Nat := 0x30000000000 + h * 0x8000000 + o

/-- The place of a host address seen through a port. -/
def hostAt (port a : Nat) : Nat := (port + 1) * 2 ^ 64 + a % 2 ^ 64

/-- Bytes in a tier-0 slice. -/
def t0Size : Nat := 0x180000000

/-- Bytes in a tier-1 channel. -/
def chanSize : Nat := 0x90000000

/-- The memory classes (Table 10.1), and host memory, which the part does not guard. -/
inductive Cls where
  | t0 | t1p | t1c | llm | wse | wsp | host
  deriving DecidableEq, Repr

/-- The valid entry of the window table of channel `c`'s hub that holds it (R195, R507). -/
def State.chanWindow (s : State) (c : Nat) : Option Nat :=
  let h := hubOfChan c
  (List.range 128).find? (fun n =>
    s.fget HUB_WIN_CTL.VALID h n == 1 &&
    (List.range (2 ^ s.fget HUB_WIN_CTL.K h n * (if s.fget HUB_WIN_CTL.M3 h n = 1 then 3 else 1))).any
      (fun i => s.fget HUB_CHLIST.CHANNEL h (s.fget HUB_WIN_LIST.FIRST h n + i) == c))

/-- The partition whose window holds a channel, if any. -/
def State.chanPart (s : State) (c : Nat) : Option Nat := (s.chanWindow c).map (fun n => s.fget HUB_WIN_CTL.PART (hubOfChan c) n)

/-- A channel is of computable class (R507: in no valid window, it is protected). -/
def State.chanComputable (s : State) (c : Nat) : Bool :=
  match s.chanWindow c with
  | some n => s.fget HUB_WIN_CTL.CLASS (hubOfChan c) n == 1
  | none => false

/-- Region `r` of tile `j`'s working store is SEC-DED (R101); region 11 always is. -/
def State.regionEcc (s : State) (j r : Nat) : Bool :=
  r == 11 || (Tbl.get 0 s.img.shapes j).testBit (16 + r)

/-- The class of a place. -/
def State.cls (s : State) (k : Nat) : Cls :=
  if k < 2 ^ 39 then .t0
  else if k < 2 ^ 40 then
    let j := (k - 2 ^ 39) / 2 ^ 24
    if s.regionEcc j ((k - 2 ^ 39) % 2 ^ 24 / 2 ^ 20) then .wse else .wsp
  else if k < 0x30000000000 then (if s.chanComputable ((k - 2 ^ 40) / chanSize) then .t1c else .t1p)
  else if k < 2 ^ 64 then .llm
  else .host

/-- Bytes in a code word of a class (Table 10.1); T1C and host memory are taken in 64 B words. -/
def Cls.word : Cls → Nat
  | .llm | .wse | .wsp => 8
  | _ => 64

/-- The first place of the code word that holds place `k`. -/
def wordOf (c : Cls) (k : Nat) : Nat := k - k % c.word

/-! Bytes. -/

/-- The one canonical form of memory: places strictly rising, and no byte listed that reads 0 unlisted. -/
def Memory.wf (m : Tbl Byte) : Bool := Tbl.wf 0 m

/-- The byte at a place. -/
def readByte (m : Tbl Byte) (k : Nat) : Byte := Tbl.get 0 m k

/-- The `n` bytes from a place. -/
def readBytes (m : Tbl Byte) (k : Nat) : Nat → List Byte
  | 0 => []
  | n + 1 => readByte m k :: readBytes m (k + 1) n

/-- The memory with bytes stored from a place on. -/
def writeBytes (m : Tbl Byte) (k : Nat) : List Byte → Tbl Byte
  | [] => m
  | b :: bs => writeBytes (Tbl.put 0 m k b) (k + 1) bs

/-- The state with bytes stored from a place on, check bits aside. -/
def State.poke (s : State) (k : Nat) (bs : List Byte) : State := { s with mem := writeBytes s.mem k bs }

/-- The number the `n` bytes from a place spell. -/
def State.peek (s : State) (k n : Nat) : Nat := leNat (readBytes s.mem k n)

/-! Code words. -/

/-- The stored check bits' difference from the encoder's. -/
def State.delta (s : State) (k : Nat) : Nat := Tbl.get 0 s.chk k

/-- The state with a code word's check difference set; 0 is a clean word. -/
def State.setDelta (s : State) (k d : Nat) : State := { s with chk := Tbl.put 0 s.chk k d }

/-- What the class's decoder says of a check difference (R259, Table 10.2; parity and on-die: any difference is UE). -/
def Cls.decode : Cls → Nat → Verd
  | .t0, d | .t1p, d => rsDecode d
  | .llm, d | .wse, d => secDecode d
  | .wsp, d | .t1c, d => if d = 0 then .clean else .ue
  | .host, d => if d = 0 then .clean else .poisoned

/-- The poison mark of a class (R261); T1C holds none. -/
def Cls.poison : Cls → Nat
  | .t0 | .t1p => rsPoison
  | .llm | .wse => secPoison
  | .wsp => 1
  | .t1c => 0
  | .host => 1

/-- The data bytes as the decoder delivers them. -/
def Cls.fix : Cls → List Byte → Nat → List Byte
  | .t0, l, d | .t1p, l, d => rsFix l d
  | .llm, l, d | .wse, l, d => secFix l d
  | _, l, _ => l

/-- The syndrome a record reports (Table 10.6). -/
def Cls.syndrome : Cls → Nat → Nat
  | .t0, d | .t1p, d => rsSyndrome d
  | .llm, d | .wse, d => secS d + 256 * secP d
  | _, _ => 0

/-- The verdict on the code word at place `w` (its first byte). -/
def State.verd (s : State) (w : Nat) : Verd := (s.cls w).decode (s.delta w)

/-- The word reads poisoned or uncorrectable: the two are handled alike (R261). -/
def State.bad (s : State) (w : Nat) : Bool :=
  match s.verd w with
  | .ue | .poisoned => true
  | _ => false

/-! The address map (R188, R189, R196). -/

/-- The window that holds address `a` in the table of hub `h`, where the request enters (R195). -/
def State.window (s : State) (h a : Nat) : Option Nat :=
  (List.range 128).find? (fun n =>
    s.fget HUB_WIN_CTL.VALID h n == 1 &&
    decide (s.fget HUB_WIN_BASE.BASE h n * 2 ^ 21 ≤ a) &&
    decide (a < (s.fget HUB_WIN_BASE.BASE h n + s.fget HUB_WIN_SIZE.SIZE h n) * 2 ^ 21))

/-- The XOR of the K-bit chunks of q's low 32 bits (R196). -/
def foldChunks (k q : Nat) : Nat → Nat
  | 0 => 0
  | n + 1 => (q >>> (n * k)) % 2 ^ k ^^^ foldChunks k q n

/-- How many K-bit chunks start in bits 0 to 31. -/
def chunkCount (k : Nat) : Nat := if k = 0 then 0 else (31 / k) + 1

/-- The list index and channel-local offset of window offset `x` in a window of C = 2^K × M channels (R196). -/
def granule (k m3 x : Nat) : Nat × Nat :=
  let g := x / 512
  let b := g % 2 ^ k
  let q := g / 2 ^ k
  let f := foldChunks k q (chunkCount k)
  if m3 = 0 then (b ^^^ f, q * 512 + x % 512)
  else ((q % 3) * 2 ^ k + (b ^^^ f), q / 3 * 512 + x % 512)

/-- The channel and channel-local offset of an address in window `n` of hub `h`'s table. -/
def State.windowAt (s : State) (h n a : Nat) : Nat × Nat :=
  let x := a - s.fget HUB_WIN_BASE.BASE h n * 2 ^ 21
  if s.fget HUB_WIN_CTL.KIND h n = 1 then
    (s.fget HUB_CHLIST.CHANNEL h (s.fget HUB_WIN_LIST.FIRST h n), x)
  else
    let (i, l) := granule (s.fget HUB_WIN_CTL.K h n) (s.fget HUB_WIN_CTL.M3 h n) x
    (s.fget HUB_CHLIST.CHANNEL h (s.fget HUB_WIN_LIST.FIRST h n + i), l)

/-- The bank of a channel-local offset (R194). -/
def bankOf (l : Nat) : Nat := ((l >>> 9) ^^^ (l >>> 23)) % 32

/-- Byte `s % 4` of HUB_LLM_MAP for slice `sl` of hub `h`: its partition, whether it is landing, whether it is used. -/
def State.slice (s : State) (h sl : Nat) : Nat × Bool × Bool :=
  let at_ (f : Field) := s.fgetAt f h (sl / 4) (8 * (sl % 4))
  (at_ HUB_LLM_MAP.PART0, at_ HUB_LLM_MAP.LANDING0 == 1, at_ HUB_LLM_MAP.EN0 == 1)

/-- The host port and host address of a host-window address for partition `p` (R292). -/
def State.hostTarget (s : State) (p a : Nat) : Nat × Nat :=
  let off := a - 0x40000000000
  (off / 2 ^ 41, s.fget HIF_HWIN_BASE.BASE 0 p * 4096 + a % 2 ^ 41)

/-- The place of an address for a requester of partition `p` at hub `h`; `tile` when the issuing tile itself may name its tier-0
slice. None is a refusal under R189. -/
def State.place (s : State) (h p : Nat) (tile : Option Nat) (a : Nat) : Option Nat :=
  if a < t0Size then tile.map (fun j => t0At j a)
  else if 0x10000000000 ≤ a ∧ a < 0x2B000000000 then
    match s.window h a with
    | some n => let (c, l) := s.windowAt h n a; some (t1At c l)
    | none => none
  else if 0x30000000000 ≤ a ∧ a < 0x30020000000 then
    let (q, land, en) := s.slice ((a - 0x30000000000) / 0x8000000) ((a - 0x30000000000) % 0x8000000 / 0x800000)
    if en && land && q == p then some a else none
  else if 0x40000000000 ≤ a ∧ a < 0x80000000000 then
    let (port, ha) := s.hostTarget p a
    some (hostAt port ha)
  else none

/-! The protection map (R328). -/

/-- The rights of the map: R, W, A, T, and for fabric entries SEND and ACCEPT (Table 13.7). -/
inductive Right where
  | read | write | add | thapel | send | accept
  deriving DecidableEq, Repr

/-- The bit of a right in RIGHTS. -/
def Right.bit : Right → Nat
  | .read => 0 | .write => 1 | .add => 2 | .thapel => 3 | .send => 0 | .accept => 1

/-- The code of a right in PROT_REFUSE_REC. -/
def Right.code : Right → Nat
  | .read => 0 | .write => 1 | .add => 2 | .thapel => 3 | .send => 4 | .accept => 5

/-- The bit of a source in an entry's mask, which is its code in PROT_REFUSE_REC: tile, host, fabric, engine, Thapel. -/
def srcProt : Src → Nat
  | .tile _ _ | .streamer _ | .seq _ | .runAhead _ => 0
  | .host _ _ => 1
  | .fabric _ => 2
  | .engine _ => 3
  | .thapel _ => 4

/-- The SOURCE code of a record (Table 10.6). -/
def srcRec : Src → Nat
  | .tile _ _ | .runAhead _ => 1
  | .streamer _ => 2
  | .seq _ => 3
  | .host _ _ => 4
  | .fabric _ => 5
  | .engine c => c
  | .thapel _ => 9

/-- An address entry admits a request (R328). -/
def ProtEnt.admits (e : ProtEnt) (p : Nat) (r : Right) (src a n : Nat) : Bool :=
  e.valid && e.kind == 0 && e.part == p && e.rights.testBit r.bit && e.src.testBit src &&
  decide (e.base ≤ a) && decide (a + n ≤ e.base + e.size)

/-- A request of partition `p` is admitted by some entry of the active map. -/
def State.admits (s : State) (p : Nat) (r : Right) (src a n : Nat) : Bool :=
  s.prot.any (fun (_, e) => e.admits p r src a n)

/-- A message between partition `p` and device `dev` is admitted by some fabric entry. -/
def State.admitsFabric (s : State) (p : Nat) (r : Right) (dev : Nat) : Bool :=
  s.prot.any (fun (_, e) => e.valid && e.kind == 1 && e.part == p && e.rights.testBit r.bit &&
    decide (e.base % 2 ^ 20 ≤ dev) && decide (dev < e.base % 2 ^ 20 + e.size))

/-- What a refusal sets: PROT_EVENT.REFUSED, and PROT_REFUSE_REC if it is empty (R330); `p` is none where the request's address
names no partition, and PART then reads 0 (DESIGN CHOICE, assumption 72). -/
def State.refusalOf (s : State) (p : Option Nat) (r : Right) (src a : Nat) : State :=
  let s1 := s.evt PROT_EVENT.REFUSED 0 0 1 p
  if s1.fget PROT_REFUSE_REC.VALID 0 0 = 1 then s1
  else
    ((((s1.fset PROT_REFUSE_REC.ADDRESS 0 0 a).fset PROT_REFUSE_REC.PART 0 0 (p.getD 0)).fset
      PROT_REFUSE_REC.SOURCE 0 0 src).fset PROT_REFUSE_REC.RIGHT 0 0 r.code).fset PROT_REFUSE_REC.VALID 0 0 1

/-- What the refusal of a partition's request sets. -/
def State.refusal (s : State) (p : Nat) (r : Right) (src a : Nat) : State := s.refusalOf (some p) r src a

/-- What a request that meets no memory sets (R189): as a refusal, with HUB_MEM_EVENT.WINDOW_MISS at the hub. -/
def State.windowMiss (s : State) (h p : Nat) (r : Right) (src a : Nat) : State :=
  (s.refusal p r src a).evt HUB_MEM_EVENT.WINDOW_MISS h 0 1 none

/-- Answers a request. -/
def State.answer (s : State) (k : RespKind) (d : List Byte) : State := { s with rsp := ⟨k, d⟩ }

/-- One draw of the free values' counter. -/
def State.draw (s : State) : State := { s with free := s.free + 1 }

/-- `n` bytes the spec leaves undefined. -/
def State.freeBytes (s : State) (n : Nat) : List Byte :=
  (List.range n).map (fun i => Config.freeByte (s.free * 4096 + i))

/-- An entry into Idle or Standby that is under way is abandoned (Table 17.9). -/
def State.abandonEntry (s : State) : State :=
  if s.power.entering.isNone then s
  else State.fset (s.withPower { s.power with entering := none }) PWR_STATE_STATUS.ENTERING 0 0 0

/-- The part admits requests at ingress: not in a HOLD that closes it, not in a part reset (R277, R403; DEDUCED,
assumption 58). -/
def State.ingressOpen (s : State) : Bool := !s.halted && !s.boot.inReset

end Sys2Proof.Machine
end

