-- ==== Sys2Proof/Machine/Lanes.lean ====
section
/-!
DEFINITION. What crosses a port's lanes: the bits of a training frame (Table 14.3), the transmitter taps that a partner's
requests move (R344, R466, Table 18.7), the bytes of a flit (Tables 14.4 and 14.5), and the FEC blocks that carry flits
(R347, R348).
-/

namespace Sys2Proof.Machine

/-! Training frames (R343). -/

/-- `w` bits of a number from bit `lo`. -/
def bitsAt (v lo w : Nat) : Nat := v / 2 ^ lo % 2 ^ w

/-- One bit into the CRC-16 of polynomial 0x1021. -/
def crc16Bit (c : Nat) (b : Bool) : Nat := (c * 2 ^^^ (if c.testBit 15 != b then 0x1021 else 0)) % 65536

/-- CRC-16 of bits [111:0] of a frame, from 0xFFFF, taken LSB first as they are sent (assumption 74: DESIGN CHOICE). -/
def frameCrc (bits : Nat) : Nat := (List.range 112).foldl (fun c i => crc16Bit c (bits.testBit i)) 0xFFFF

/-- The frame has its marker and a CRC that passes. -/
def frameOk (bits : Nat) : Bool := bitsAt bits 0 32 == 0x7E3CA55A && bitsAt bits 112 16 == frameCrc bits

/-- LANE. -/
def frameLane (f : TrainFrame) : Nat := bitsAt f.bits 32 3

/-- LANES_OK. -/
def frameLanes (f : TrainFrame) : Nat := bitsAt f.bits 42 8

/-- WARM. -/
def frameWarm (f : TrainFrame) : Bool := f.bits.testBit 50

/-- RX_READY. -/
def frameReady (f : TrainFrame) : Bool := f.bits.testBit 51

/-- TAP. -/
def frameTap (f : TrainFrame) : Nat := bitsAt f.bits 52 3

/-- ACTION. -/
def frameAction (f : TrainFrame) : Nat := bitsAt f.bits 55 2

/-- PRESET. -/
def framePreset (f : TrainFrame) : Nat := bitsAt f.bits 57 3

/-- STATUS. -/
def frameStatus (f : TrainFrame) : Nat := bitsAt f.bits 60 2

/-- The 128 bits of the frame that fields spell, with its CRC. -/
def frameBits (lane port state lanesOk : Nat) (warm rxReady : Bool) (ask : Nat × Nat × Nat) (status : Nat) (eqDone : Bool)
    (seq : Nat) : Nat :=
  let b := 0x7E3CA55A + lane % 8 * 2 ^ 32 + port % 16 * 2 ^ 35 + state % 8 * 2 ^ 39 + lanesOk % 256 * 2 ^ 42 +
    bit warm * 2 ^ 50 + bit rxReady * 2 ^ 51 + ask.1 % 8 * 2 ^ 52 + ask.2.1 % 4 * 2 ^ 55 + ask.2.2 % 8 * 2 ^ 57 +
    status % 4 * 2 ^ 60 + bit eqDone * 2 ^ 62 + seq % 65536 * 2 ^ 64
  b + frameCrc b * 2 ^ 112

/-! Transmitter taps (R466). -/

/-- The presets of Table 18.7: pre2, pre1, main, post1, post2, in 1/64 of full swing. -/
def tapPresets : List (List Int) :=
  [[0, 0, 64, 0, 0], [0, -4, 60, 0, 0], [0, -8, 56, 0, 0], [0, -4, 54, -6, 0], [0, -8, 50, -6, 0], [-2, -10, 46, -6, 0],
    [-2, -12, 44, -4, -2], [0, 0, 56, -8, 0]]

/-- A preset. -/
def tapPreset (i : Nat) : List Int := tapPresets.getD i []

/-- The five taps stay within their limits, and the sum of their magnitudes within 64. -/
def tapsOk (t : List Int) : Bool :=
  match t with
  | [a, b, c, d, e] =>
    decide (-6 ≤ a) && decide (a ≤ 0) && decide (-16 ≤ b) && decide (b ≤ 0) && decide (36 ≤ c) && decide (c ≤ 64) &&
      decide (-16 ≤ d) && decide (d ≤ 0) && decide (-6 ≤ e) && decide (e ≤ 6) &&
      decide (a.natAbs + b.natAbs + c.natAbs + d.natAbs + e.natAbs ≤ 64)
  | _ => false

/-- A partner's request on a lane: the taps after it and the STATUS that answers it, 1 done, 2 at limit; a TAP that names
no tap is refused with 3 (assumption 74: DESIGN CHOICE). -/
def tapMove (t : List Int) (tap action preset : Nat) : List Int × Nat :=
  if action = 3 then (tapPreset preset, 1)
  else if tap > 4 then (t, 3)
  else
    let u := t.modify tap (fun v => if action = 1 then v + 1 else v - 1)
    if tapsOk u then (u, 1) else (t, 2)

/-- A cold EQ starts at preset 4. -/
def Port.coldTaps (t : Port) : Port := { t with taps := List.replicate 8 (tapPreset 4) }

/-- EQ begins (R344): warm from the saved coefficients, cold from preset 4, with no request and no reply outstanding. -/
def Port.eqStart (t : Port) : Port :=
  { (if t.warmTry && !t.coldOnly then { t with taps := t.savedTaps } else t.coldTaps) with
    replies := List.replicate 8 0, asks := List.replicate 8 (0, 0, 0) }

/-- A frame in EQ (R344): the partner's request on its lane is answered once, and STATUS returns to 0 after its hold; the
port's own request stands until it is answered, and a new one waits until the partner's STATUS is 0 again. -/
def Port.eqFrame (t : Port) (f : TrainFrame) : Port :=
  let l := frameLane f
  let t1 :=
    if frameAction f = 0 then { t with replies := t.replies.set l 0 }
    else if t.replies.getD l 0 ≠ 0 then t
    else
      let (u, r) := tapMove (t.taps.getD l []) (frameTap f) (frameAction f) (framePreset f)
      { t with taps := t.taps.set l u, replies := t.replies.set l r }
  let (tap, act, pre) := t1.asks.getD l (0, 0, 0)
  if act ≠ 0 then
    (if frameStatus f ≠ 0 then { t1 with asks := t1.asks.set l (tap, 0, pre) } else t1)
  else if frameStatus f = 0 then { t1 with asks := t1.asks.set l (f.askTap % 8, f.askAction % 4, f.askPreset % 8) }
  else t1

/-- The port's next frame on the lane of the frame it heard (R343), in training state `st` of FAB_PORT_STATUS. -/
def Port.sendFrame (t : Port) (p st : Nat) (f : TrainFrame) : Port :=
  let l := frameLane f
  { t with
    lastFrame := frameBits l p (st - 2) f.ownOk (t.warmTry && !t.coldOnly) (f.heard.testBit l) (t.asks.getD l (0, 0, 0))
      (t.replies.getD l 0) (f.ownEq.testBit l) t.frames
    frames := (t.frames + 1) % 65536 }

/-! Flits as bytes (R350). -/

/-- The header word of a flit. -/
def flitWord (f : Flit) : Nat :=
  f.ty % 16 + f.vc % 8 * 2 ^ 4 + f.dl % 2 * 2 ^ 7 + f.seq % 4096 * 2 ^ 8 + f.ack % 4096 * 2 ^ 20 + bit f.ackV * 2 ^ 32 +
    bit f.som * 2 ^ 33 + bit f.eom * 2 ^ 34 + f.crBuf % 16 * 2 ^ 36 + f.crTotal % 4096 * 2 ^ 40 + f.len % 256 * 2 ^ 52

/-- The 256 bytes of a flit; payload bytes not in use are 0 (assumption 74). -/
def flitBytes (f : Flit) : List Byte :=
  let b := natLE 8 (flitWord f) ++ (f.payload ++ List.replicate 244 0).take 244
  b ++ natLE 4 (crc32c b)

/-! FEC blocks (R347, R348). -/

/-- GF(2^10) of the link's code: x^10 + x^3 + 1. -/
def linkField : Field2 := ⟨10, 0x409⟩

/-- The 80-bit marker: the pattern, BLOCK_COUNT and the width code, 0 for ×2, 1 for ×4, 2 for ×8. -/
def blockMarker (count width : Nat) : Nat := 0x96E10F78C3A55A3C + count % 256 * 2 ^ 64 + width % 16 * 2 ^ 72

/-- `n` bits of a number, bit 0 first. -/
def natBits (n v : Nat) : List Bool := (List.range n).map v.testBit

/-- Bytes as bits, byte 0 first and LSB first within each. -/
def byteBits (bs : List Byte) : List Bool := bs.flatMap (fun b => natBits 8 b.toNat)

/-- Bits through the scrambler 1 + x^39 + x^58, whose state holds the last 58 bits sent, the latest in bit 0. -/
def scramble : Nat → List Bool → List Bool × Nat
  | st, [] => ([], st)
  | st, b :: bs =>
    let o := (b != st.testBit 38) != st.testBit 57
    let (rest, out) := scramble ((st * 2 + bit o) % 2 ^ 58) bs
    (o :: rest, out)

/-- Bits as ten-bit symbols, the first bit of each its MSB. -/
def symbolsOf : Nat → List Bool → List Nat
  | 0, _ => []
  | n + 1, bs => (bs.take 10).foldl (fun a b => a * 2 + bit b) 0 :: symbolsOf n (bs.drop 10)

/-- Codeword `c` of RS(544,514): message symbols 514c to 514c + 513, then the 30 parity symbols. -/
def codeword (syms : List Nat) (c : Nat) : List Nat :=
  let m := (syms.drop (514 * c)).take 514
  m ++ rsParity linkField 30 m

/-- The 2,176 symbols of four codewords in the order they are sent: one of each codeword in turn. -/
def interleave (cs : List (List Nat)) : List Nat := (List.range 544).flatMap (fun i => cs.map (fun c => c.getD i 0))

/-- The lane level of two bits (Gray): 00 → −3, 01 → −1, 11 → +1, 10 → +3. -/
def grayLevel (v : Nat) : Int := if v = 0 then -3 else if v = 1 then -1 else if v = 3 then 1 else 3

/-- A symbol as five levels, MSB first. -/
def symbolLevels (v : Nat) : List Int := [4, 3, 2, 1, 0].map (fun i => grayLevel (bitsAt v (2 * i) 2))

/-- Symbols dealt to `n` lanes in turn, each lane as its levels. -/
def deal (n : Nat) (syms : List Nat) : List (List Int) :=
  (List.range n).map (fun l =>
    (List.range (syms.length / n)).flatMap (fun i => symbolLevels (syms.getD (i * n + l) 0)))

/-- The levels on `2 ^ width` lanes of a block of ten flits, and the scrambler's state after it; `width`: FAB_PORT_STATUS's
code, 1 for ×2, 2 for ×4, 3 for ×8. The marker goes out bit 0 first (assumption 74: DESIGN CHOICE). -/
def blockLanes (count width scr : Nat) (fs : List Flit) : List (List Int) × Nat :=
  let (bits, out) := scramble scr (byteBits (fs.flatMap flitBytes))
  let syms := symbolsOf 2056 (natBits 80 (blockMarker count (width - 1)) ++ bits)
  (deal (2 ^ width) (interleave ((List.range 4).map (codeword syms))), out)

/-- A flit joins the block being filled; the tenth sends the block. -/
def Port.intoBlock (t : Port) (width : Nat) (f : Flit) : Port :=
  let fs := t.blk ++ [f]
  if fs.length < 10 then { t with blk := fs }
  else
    let (ls, out) := blockLanes t.blocks width t.scr fs
    { t with blk := [], blocks := (t.blocks + 1) % 256, scr := out, lanes := ls }

end Sys2Proof.Machine
end

