-- ==== Sys2Proof/Machine/Regs.lean ====
section
/-!
DEFINITION. Register access (R9 to R13, R63, R286, R494 to R500): how each function's offsets find a register, who may
write it, what the access codes and the seals do, and the 4 B halves of 64-bit registers.
-/

namespace Sys2Proof.Machine

/-- The accessor is the management complex, or PF0 while its port's HIF_PRIV.PRIV is 1 (R286). -/
def State.privileged (s : State) : Accessor → Bool
  | .mgmt => true
  | .pf0 p => s.fget HIF_PRIV.PRIV p 0 == 1
  | _ => false

/-- The hub that records an accessor's sealed writes (R13). -/
def accHub : Accessor → Nat
  | .pf0 p | .pf1 p | .vf _ p => 2 * p
  | .mgmt => 0

/-- A number for each accessor, under which its register halves are kept. -/
def accCode : Accessor → Nat
  | .pf0 p => p
  | .pf1 p => 2 + p
  | .vf k p => 4 + k * 2 + p
  | .mgmt => 100

/-- The register takes writes only from privileged PF0 and the management complex (R279, R291, R340, R377, R399, R424,
R449, R493). -/
def Field.privOnly (f : Field) : Bool :=
  match f.blk with
  | .prot => true
  | .hub => decide (0x7100 ≤ f.off ∧ f.off ≤ 0x7178)
  | .boot => decide (f.off = 0x4 ∨ f.off = 0x8 ∨ f.off = 0x10)
  | .fabric => decide (f.off ≥ 0x4000) || f == FAB_PORT_CTL.DATELINE || f == FAB_PORT_CTL.QUARANTINE ||
      f == FAB_PORT_CTL.RELEASE || f == FAB_GOP_CTL.RESET_START || decide (0x110 ≤ f.off ∧ f.off ≤ 0x180)
  | .hif => decide (f.off = 0x300)
  | .power => decide (f.off = 0x0 ∨ f.off = 0x4 ∨ f.off = 0x10 ∨ f.off = 0x18 ∨ f.off = 0x1C ∨ f.off = 0x24)
  | .mgmt => decide (f.off = 0x70 ∨ f.off = 0x44) || f == RTC_CTL.SET
  | _ => false

/-- A field may be written by an accessor. TILE_THROTTLE takes writes only from the power manager (R63). -/
def State.mayWrite (s : State) (who : Accessor) (f : Field) : Bool :=
  if f.blk = .tile ∧ f.off = 0x124 then who == .mgmt
  else !f.privOnly || s.privileged who

/-- The partition to which an RWL field belongs, if any (R13, R215, R256). -/
def State.fieldPart (s : State) (f : Field) (u i : Nat) : Option Nat :=
  match f.blk with
  | .hub =>
    if f.off = 0x4040 ∨ f.off = 0x6400 then some i
    else if 0x1000 ≤ f.off ∧ f.off < 0x2000 then
      some (s.fget HUB_WIN_CTL.PART u i)
    else if f.off = 0x6000 then
      some (s.fget BWR_ACCT.PART u i)
    else if f.off = 0x3000 then
      (let j := f.lo / 8
       if s.fgetAt HUB_LLM_MAP.EN0 u i (8 * j) = 1 then some (s.fgetAt HUB_LLM_MAP.PART0 u i (8 * j)) else none)
    else none
  | .hif => if f.off = 0x200 then some i else none
  | .deck => if f.off = 0x38 then some (u - 0x9000) else none
  | _ => none

/-- The field is sealed (R13). -/
def State.isSealed (s : State) (f : Field) (u i : Nat) : Bool :=
  match s.fieldPart f u i with
  | some p => s.sealParts.testBit p
  | none => s.sealWide

/-- Where a deck-page register's fields are kept: the page's own selector, the selected deck, or the partition of the
selected deck (R324). -/
def State.deckUnit (s : State) (port fn off : Nat) : Nat :=
  let page := 0x8000 + port * 32 + fn
  if off = 0 then page
  else
    let d := s.fget DECK_SEL.DECK page 0
    if off = 0x38 ∨ off = 0x34 then 0x9000 + s.fget DECK_QCFG.PART d 0 else d

/-- The deck block of a page (R324): a selected deck outside the function's partition is not there. -/
def State.deckPage (s : State) (port fn : Nat) (own : Option Nat) (off : Nat) : Option (RegDesc × Nat × Nat) :=
  match regAt (0x10000000 + off) with
  | some (r, _, i) =>
    let d := s.fget DECK_SEL.DECK (0x8000 + port * 32 + fn) 0
    let mine := match own with
      | none => true
      | some p => s.fget DECK_QCFG.ASSIGNED d 0 == 1 && s.fget DECK_QCFG.PART d 0 == p
    if off = 0 ∨ mine = true then some (r, s.deckUnit port fn off, i) else none
  | none => none

/-- The tile block `j` answers: its tile is in BOOT_TILES (R497). -/
def State.tileBlock (s : State) (a : Nat) : Bool :=
  if 0x200000 ≤ a ∧ a < 0x240000 then s.tileUsable ((a - 0x200000) / 0x1000) else true

/-- The register an accessor reaches at an offset of its view, with instance and index (R494, R495, R498, R499). In HOLD
the tile and deck blocks do not answer (R422). -/
def State.locate (s : State) (who : Accessor) (off : Nat) : Option (RegDesc × Nat × Nat) :=
  let hold := s.fget BOOT_STATUS.PHASE 0 0 == 15
  let space (a : Nat) : Option (RegDesc × Nat × Nat) :=
    if a ≥ 0xF00000 ∨ (0x300000 ≤ a ∧ a < 0x301000) then none
    else if (hold && decide (0x200000 ≤ a ∧ a < 0x240000)) || !s.tileBlock a then none
    else regAt a
  match who with
  | .mgmt => space off
  | .pf0 p =>
    if 0x300000 ≤ off ∧ off < 0x301000 then
      (if hold then none else s.deckPage p 0 none (off - 0x300000))
    else space off
  | .pf1 _ => if off < 0x4000 then space off else none
  | .vf k p =>
    match s.vfPart k with
    | none => none
    | some n =>
      if off < 0x1000 then (if hold then none else s.deckPage p (k + 1) (some n) off)
      else if 0x1000 ≤ off ∧ off < 0x1040 then
        (match regAt (0x20000000 + (off - 0x1000)) with
         | some (r, _, i) => some (r, n, i)
         | none => none)
      else if 0x40000 ≤ off ∧ off < 0x80000 then
        (if s.tilePart ((off - 0x40000) / 0x1000) = some n then space (off - 0x40000 + 0x200000) else none)
      else none

/-- The accessor reaches register `i` of instance `u` in the register space as it sees it. -/
def State.reaches (s : State) (who : Accessor) (f : Field) (u i : Nat) : Bool := (s.locate who (f.addr u i)).isSome

/-- The registers whose every write is a command of its own in the table. -/
def ownRow (f : Field) : Bool :=
  match f.blk with
  | .tile => decide (f.off = 0x124)
  | .hif => decide (f.off = 0x100 ∨ f.off = 0x300)
  | .deck => decide (f.off = 0x20)
  | .prot => decide (f.off ≥ 0x1000)
  | .fabric => decide (f.off ≥ 0x4000)
  | _ => false

/-- A read-write field takes a value; changing the monitors' SHIFT clears every histogram of the hub, and no maximum
(R254). -/
def State.setRw (s : State) (f : Field) (u i v : Nat) : State :=
  if f = BWR_MON_CTL.SHIFT ∧ v ≠ s.fget f u i then
    State.fset (s.withMons (s.mons.filterMap (fun (k, l) =>
      if k / 256 ≠ u then some (k, l) else if l.getD 0 0 = 0 then none else some (k, [l.getD 0 0, 0, 0, 0, 0, 0, 0, 0, 0])))) f u i v
  else s.fset f u i v

/-- The field is one of the latency monitors' (Table 9.10): which value of the selected account it reads. -/
def monIndex (f : Field) (i : Nat) : Option Nat :=
  if f = BWR_MON_MAX.MAX_NS then some 0 else if f = BWR_MON_BIN.COUNT then some (i + 1) else none

/-- The key of the account that the monitors of a hub show. -/
def State.monKey (s : State) (u : Nat) : Nat := u * 256 + s.fget BWR_MON_CTL.SEL u 0

/-- What one field of a written register becomes (Table 0.4), from the register's written value; a sealed RWL field is not
among those written. -/
def State.writeField (s : State) (who : Accessor) (f : Field) (u i v : Nat) : State :=
  let nv := v / 2 ^ f.lo % 2 ^ f.w
  if !s.mayWrite who f then s
  else match f.acc with
    | .ro | .rc | .wo => s
    | .rw => s.setRw f u i nv
    | .w1c => s.fset f u i (s.fget f u i - (s.fget f u i &&& nv))
    | .w1s => if f = FAB_PORT_CTL.QUARANTINE then s else s.fset f u i (s.fget f u i ||| nv)
    | .rwl => s.fset f u i nv

/-- The RWL fields of a written register that are sealed. -/
def State.sealedFields (s : State) (who : Accessor) (fs : List Field) (u i : Nat) : List Field :=
  fs.filter (fun f => f.acc == .rwl && s.mayWrite who f && s.isSealed f u i)

/-- The lowest-numbered partition that owns one of the fields (R13). -/
def State.lowestPart (s : State) (fs : List Field) (u i : Nat) : Option Nat :=
  (List.range 16).find? (fun p => fs.any (fun f => s.fieldPart f u i == some p))

/-- The register-space offset of an offset of an accessor's view (R9, R498, R499). -/
def spaceOff (who : Accessor) (a : Nat) : Nat :=
  match who with
  | .vf _ _ => if a < 0x1000 then 0x300000 + a else if 0x40000 ≤ a then a - 0x40000 + 0x200000 else a
  | _ => a

/-- The record and event of a write that met sealed fields (R13). -/
def State.sealedWrite (s : State) (who : Accessor) (a v : Nat) (p : Option Nat) : State :=
  (s.record (accHub who) { cause := 0x48, sev := 4, part := p, info0 := spaceOff who a, info1 := v }).evt
    ERR_EVENT.SEALED_WRITE (accHub who) 0 1 p

/-- The field is a ring base of an enabled deck, which does not change (R300). -/
def State.baseHeld (s : State) (f : Field) (u : Nat) : Bool :=
  (f == DECK_BASE.BASE || f == DECK_CQ_BASE.BASE || f == DECK_TS_BASE.BASE) && s.fget DECK_CFG.EN u 0 == 1

/-- A whole register is written (R9, R10, R13): each field by its access code. A write that would move a ring of an enabled
deck sets CFG_REFUSED (R300). -/
def State.writeReg (s : State) (who : Accessor) (fs : List Field) (u i a v : Nat) : State :=
  if fs.any (fun f => s.baseHeld f u) then
    (if fs.all (fun f => v / 2 ^ f.lo % 2 ^ f.w == s.fget f u i) then s else s.evt DECK_EVENT.CFG_REFUSED u 0 1 none)
  else
  let sealed := s.sealedFields who fs u i
  let s1 := (fs.filter (fun f => !sealed.contains f)).foldl (fun t f => t.writeField who f u i v) s
  if sealed = [] then s1 else s1.sealedWrite who a v (s.lowestPart sealed u i)

/-- The level and graph of the instance that runs on a tile (Table 4.15). -/
def State.tileRuns (s : State) (j : Nat) : Option (Nat × Nat) :=
  match s.tilePart j with
  | none => none
  | some p =>
    let i : Inst := Tbl.get {} (s.part p).insts (s.part p).level
    if i.valid && !i.aborted && i.tiles.testBit j && !i.ended.testBit j && !i.faulted.testBit j then
      some ((s.part p).level, i.graph)
    else none

/-- The threads of a tile's running instance that `q` names, as a mask. -/
def State.threadMask (s : State) (j : Nat) (q : Thr → Bool) : Nat :=
  match s.tileRuns j with
  | none => 0
  | some (l, _) =>
    (List.range 16).foldl (fun m t =>
      let h : Thr := Tbl.get {} s.thrs ((j * 4 + l) * 16 + t)
      if q h then m + 2 ^ t else m) 0

/-- What a field shows where it is not stored but follows from the rest of the state. -/
def State.fview (s : State) (f : Field) (u i : Nat) : Nat :=
  if f.acc = .wo then 0
  else if (monIndex f i).isSome then (Tbl.get [] s.mons (s.monKey u)).getD ((monIndex f i).getD 0) 0
  else if f = TILE_SEQ_STATUS.ACTIVE then s.threadMask u (fun h => h.st != .ready && h.st != .faulted)
  else if f = TILE_SEQ_WAIT.SEM_WAIT then s.threadMask u (fun h => h.st == .waiting)
  else if f = TILE_SEQ_WAIT.MISS_WAIT then s.threadMask u (fun h => h.st == .yarder || h.st == .steps)
  else if f = TILE_SEQ_STATUS.LEVEL then (match s.tileRuns u with
    | some (l, _) => l
    | none => 0)
  else if f = TILE_SEQ_STATUS.RUNNING then (if (s.tileRuns u).isSome then 1 else 0)
  else if f = TILE_SEQ_STATUS.GRAPH then (match s.tileRuns u with
    | some (_, g) => g
    | none => 0)
  else if f = FAB_TIMEBASE.COUNT then s.time
  else if f = RTC_SECONDS.SECONDS then s.calendar / 32768
  else if f = TILE_RAMP_CTL.LEN_EFF then s.rampStep u
  else if f = TILE_YARD_STATUS.BUSY then
    (s.tags.filter (fun (k, t) => k / 512 == u && t.busy)).length
  else if f = TILE_YARD_STATUS.QUARANTINED then
    (s.tags.filter (fun (k, t) => k / 512 == u && t.quarantine)).length
  else if f = PROT_FENCE.OLD_COUNT then
    min 65535 (s.tags.filter (fun (_, t) => t.busy && t.protGen != s.fget PROT_GEN.ACTIVE 0 0)).length
  else if f = PROT_FENCE.DRAINED then
    (if s.tags.any (fun (_, t) => t.busy && t.protGen != s.fget PROT_GEN.ACTIVE 0 0) then 0 else 1)
  else if f = EVT_COUNT.COUNT then
    Tbl.get 0 s.evts (s.fget DECK_QCFG.PART u 0 * 1024 + s.fget EVT_SEL.EVENT u 0)
  else if f = DECK_STATUS.FETCH then (Tbl.get {} s.decks u).fetch
  else if f = DECK_STATUS.STATE then (Tbl.get {} s.decks u).state
  else if f = DECK_STATUS.BLOCKED then (if (Tbl.get {} s.decks u).blocked then 1 else 0)
  else if f = KV_SUSPEND.PARTS then
    (List.range 16).foldl (fun m p =>
      if s.homeHub p = u ∧ s.execs.any (fun (_, e) => e.busy && (match e.stage with
          | .suspended _ => true
          | _ => false) && s.fget DECK_QCFG.PART e.deck 0 == p) then m + 2 ^ p else m) 0
  else if f = DECK_STATUS.IN_EXEC then
    (s.execs.filter (fun (_, e) => e.busy && e.deck == u)).length
  else if f = DECK_RING_STATUS.CQ_PROD then (Tbl.get {} s.decks u).cqProd % 65536
  else if f = DECK_RING_STATUS.TS_PROD then (Tbl.get {} s.decks u).tsProd % 65536
  else if f = FAB_TP_STATUS.SEND_CTX then (s.sendCtx.filter (fun (_, c) => c.valid)).length
  else if f = FAB_TP_STATUS.RECV_CTX then (s.recvCtx.filter (fun (_, c) => c.valid)).length
  else if f = MGMT_LOG_STATUS.PENDING then s.mgmt.buffered.length
  else if f = PKG_RAIL.VALID then (match Tbl.get none s.pkg.railAt i with
    | some t => if s.time ≤ t + 2000000 then 1 else 0
    | none => 0)
  else if f = PROT_ENT_CTL.VALID ∧ s.fget PROT_CTL.VIEW 0 0 = 1 then
    (if (Tbl.get {} s.prot i).valid then 1 else 0)
  else if f = PROT_ENT_CTL.KIND ∧ s.fget PROT_CTL.VIEW 0 0 = 1 then (Tbl.get {} s.prot i).kind
  else if f = PROT_ENT_CTL.PART ∧ s.fget PROT_CTL.VIEW 0 0 = 1 then (Tbl.get {} s.prot i).part
  else if f = PROT_ENT_CTL.RIGHTS ∧ s.fget PROT_CTL.VIEW 0 0 = 1 then (Tbl.get {} s.prot i).rights
  else if f = PROT_ENT_CTL.SRC ∧ s.fget PROT_CTL.VIEW 0 0 = 1 then (Tbl.get {} s.prot i).src
  else if f = PROT_ENT_BASE.BASE ∧ s.fget PROT_CTL.VIEW 0 0 = 1 then (Tbl.get {} s.prot i).base
  else if f = PROT_ENT_SIZE.SIZE ∧ s.fget PROT_CTL.VIEW 0 0 = 1 then (Tbl.get {} s.prot i).size
  else s.fget f u i

/-- The value a register reads as: reserved bits 0 (R10), WO fields 0. -/
def State.regValue (s : State) (fs : List Field) (u i : Nat) : Nat :=
  fs.foldr (fun f acc => acc + s.fview f u i * 2 ^ f.lo) 0

/-- The RC fields that lie wholly in bits `lo` to `lo + n − 1` return to their reset values (R12). -/
def State.clearRc (s : State) (fs : List Field) (u i lo n : Nat) : State :=
  fs.foldl (fun t f =>
    if f.acc = .rc ∧ lo ≤ f.lo ∧ f.lo + f.w ≤ lo + n then
      (match monIndex f i with
       | some m => (t.withMons (Tbl.upd (List.replicate 9 0) t.mons (t.monKey u) (fun l => l.set m 0)))
       | none => t.fset f u i f.rst)
    else t) s

/-- An entry of an MSI-X table whose word at offset `o` of it is written: message address, message data, or the mask bit;
unmasking sends a pending message. -/
def Msix.write (m : Msix) (o v : Nat) : Msix :=
  if o = 0 then { m with addr := m.addr / 2 ^ 32 * 2 ^ 32 + v % 2 ^ 32 }
  else if o = 4 then { m with addr := v % 2 ^ 32 * 2 ^ 32 + m.addr % 2 ^ 32 }
  else if o = 8 then { m with data := v % 2 ^ 32 }
  else if o = 12 then
    (if v % 2 = 1 then { m with masked := true }
     else if m.pending then { m with masked := false, pending := false, sent := m.sent + 1 }
     else { m with masked := false })
  else m

/-- A write of a function's MSI-X table. -/
def State.msixWrite (s : State) (port fn off v : Nat) : State :=
  s.withMsix (Tbl.upd {} s.msix (msixKey port fn (off / 16)) (fun m => m.write (off % 16) v))

/-- The MSI-X table of an accessor's BAR0 that holds an offset (R293): port, function, offset in the table. -/
def msixHit : Accessor → Nat → Option (Nat × Nat × Nat)
  | .pf0 p, off => if 0xF00000 ≤ off ∧ off < 0xF08000 then some (p, 0, off - 0xF00000) else none
  | .pf1 p, off => if 0xF0000 ≤ off ∧ off < 0xF8000 then some (p, 1, off - 0xF0000) else none
  | .vf k p, off => if 0xF0000 ≤ off ∧ off < 0xF0400 then some (p, k + 1, off - 0xF0000) else none
  | .mgmt, _ => none

/-- The pending-bit array of an accessor's BAR0 that holds an offset (R293): port, function, offset in the array. -/
def pbaHit : Accessor → Nat → Option (Nat × Nat × Nat)
  | .pf0 p, off => if 0xF08000 ≤ off ∧ off < 0xF08100 then some (p, 0, off - 0xF08000) else none
  | .pf1 p, off => if 0xF8000 ≤ off ∧ off < 0xF8100 then some (p, 1, off - 0xF8000) else none
  | .vf k p, off => if 0xF8000 ≤ off ∧ off < 0xF8008 then some (p, k + 1, off - 0xF8000) else none
  | .mgmt, _ => none

/-- A record as its 64 bytes (Table 10.6). -/
def ErrRec.bytes (r : ErrRec) : List Byte :=
  natLE 2 r.cause ++ natLE 1 r.sev ++ natLE 1 r.src ++ natLE 1 (match r.part with
    | some p => 128 + p
    | none => 0) ++ natLE 1 r.hub ++ natLE 2 r.unit ++ natLE 8 r.addr ++ natLE 8 r.syn ++ natLE 2 r.pos ++
    natLE 2 r.count ++ natLE 4 r.seq ++ natLE 8 r.stamp ++ natLE 8 r.info0 ++ natLE 8 r.info1 ++ natLE 8 0

/-- The record of a queue that an accessor's offset lies in, and the offset in it: a hub's ERR_QUEUE (R282), or a hub's queue
of the VF's partition (Table 20.6). -/
def State.queueHit (s : State) (who : Accessor) (off : Nat) : Option (ErrRec × Nat) :=
  match who with
  | .vf k _ =>
    match s.vfPart k with
    | some p =>
      if 0x2000 ≤ off ∧ off < 0x6000 then
        some (Tbl.get {} s.vfQ ((p * 4 + (off - 0x2000) / 0x1000) * 64 + off % 0x1000 / 64), off % 64)
      else none
    | none => none
  | .pf1 _ => none
  | _ =>
    let h := (off - 0x100000) / 0x10000
    let o := off % 0x10000
    if 0x100000 ≤ off ∧ h < 4 ∧ 0x8000 ≤ o ∧ o < 0xC000 then some (Tbl.get {} s.errQ (h * 256 + (o - 0x8000) / 64), o % 64)
    else none

/-- The 8 bytes from an offset of the record queues, the MSI-X tables or the pending-bit arrays; none elsewhere. -/
def State.tableBytes (s : State) (who : Accessor) (off : Nat) : Option (List Byte) :=
  match s.queueHit who off, msixHit who off, pbaHit who off with
  | some (r, o), _, _ => some ((r.bytes.drop o).take 8)
  | _, some (p, fn, o), _ =>
    let m := Tbl.get {} s.msix (msixKey p fn (o / 16))
    some (((natLE 8 m.addr ++ natLE 4 m.data ++ natLE 4 (if m.masked then 1 else 0)).drop (o % 16)).take 8)
  | _, _, some (p, fn, o) =>
    some ((List.range 8).map (fun i => BitVec.ofNat 8 ((List.range 8).foldl (fun a b =>
      if (Tbl.get {} s.msix (msixKey p fn (8 * (o + i) + b))).pending then a + 2 ^ b else a) 0)))
  | _, _, _ => none

/-- The stored value of a register: what a write of one half leaves in the other. -/
def State.rawValue (s : State) (fs : List Field) (u i : Nat) : Nat :=
  fs.foldr (fun f acc => acc + s.fget f u i * 2 ^ f.lo) 0

/-- A write of `n` bytes at an offset, to the registers that `allow` names: a whole register, or half of a 64-bit one
(R496); anything else is ignored. -/
def State.regWriteIf (s : State) (allow : Field → Bool) (who : Accessor) (off n v : Nat) : State :=
  match s.locate who off with
  | some (r, u, i) =>
    let f0 := r.fields.headD TILE_ARRAY_LAT.A0_EXTRA
    if !allow f0 ∨ off % n ≠ 0 then s
    else if n * 8 = r.width then s.writeReg who r.fields u i off v
    else if n = 4 then (s.withHalfW (Tbl.put (0, 0) s.halfW (accCode who) (off + 1, v % 2 ^ 32)))
    else s
  | none =>
    if n = 4 ∧ off ≥ 4 ∧ off % 8 = 4 then
      match s.locate who (off - 4) with
      | some (r, u, i) =>
        if r.width ≠ 64 ∨ !allow (r.fields.headD TILE_ARRAY_LAT.A0_EXTRA) then s
        else
          let h := Tbl.get (0, 0) s.halfW (accCode who)
          let low := if h.1 = off - 4 + 1 then h.2 else s.rawValue r.fields u i % 2 ^ 32
          ((s.writeReg who r.fields u i (off - 4) (v % 2 ^ 32 * 2 ^ 32 + low)).withHalfW (Tbl.put (0, 0) s.halfW (accCode who) (0, 0)))
      | none => s
    else s

/-- A write to the registers that have no row of their own. -/
def State.regWrite (s : State) (who : Accessor) (off n v : Nat) : State := s.regWriteIf (fun f => !ownRow f) who off n v

/-- A poisoned host write to a register is discarded and recorded (R296). ADDRESS is that of the offset in the function's
view (DESIGN CHOICE, assumption 16). -/
def State.poisonedRegWrite (s : State) (who : Accessor) (off : Nat) : State :=
  s.record (accHub who) { cause := 0x07, sev := 2, src := 4, pos := 0xFFFF, count := 1, info0 := 1
                          addr := 0xF0000000000 + off
                          part := match who with
                            | .vf k _ => s.vfPart k
                            | _ => none }

/-- An access of this many bytes can reach a register; any other reads 0, writes nothing and clears no RC field (R496). -/
def sizeOk (n : Nat) : Bool := n == 4 || n == 8

/-- REGISTER_WRITE (R9): a register that has no row of its own, or the MSI-X table (R293). Poison comes with a host's write
only (R296). -/
def execRegisterWrite (who : Accessor) (off n v : Nat) (poisoned : Bool) (s : State) : Host.Outcome State Fault Refusal :=
  ok who.wf s
    (if poisoned && who != .mgmt then s.poisonedRegWrite who off
     else if !sizeOk n then s
     else match msixHit who off with
     | some (p, fn, o) => if n = 4 then s.msixWrite p fn o v else s
     | none => s.regWrite who off n v)

/-- A read of a whole register, or of the high half of a 64-bit one: directly after the low half it returns the latched
value (R496). The RC fields it covers clear (R12). -/
def State.regRead (s : State) (who : Accessor) (off n : Nat) : State :=
  let s0 := (s.withHalfR (Tbl.put (0, 0) s.halfR (accCode who) (0, 0)))
  match s.tableBytes who off with
  | some bs => s0.answer .ok (if sizeOk n ∧ off % n = 0 then bs.take n else natLE n 0)
  | none =>
  match s.locate who off with
  | some (r, u, i) =>
    if !sizeOk n ∨ off % n ≠ 0 ∨ n * 8 ≠ r.width then s0.answer .ok (natLE n 0)
    else (s0.clearRc r.fields u i 0 r.width).answer .ok (natLE n (s.regValue r.fields u i))
  | none =>
    if n = 4 ∧ off ≥ 4 ∧ off % 8 = 4 then
      match s.locate who (off - 4) with
      | some (r, u, i) =>
        if r.width ≠ 64 then s0.answer .ok (natLE n 0)
        else
          let l := Tbl.get (0, 0) s.halfR (accCode who)
          if l.1 = off - 4 + 1 then s0.answer .ok (natLE 4 l.2)
          else (s0.clearRc r.fields u i 32 32).answer .ok (natLE 4 (s.regValue r.fields u i / 2 ^ 32))
      | none => s0.answer .ok (natLE n 0)
    else s0.answer .ok (natLE n 0)

/-- RC_FIELD_READ (R9, R12): the value before the read is answered, and the RC fields it covers clear. -/
def execRcFieldRead (who : Accessor) (off n : Nat) (s : State) : Host.Outcome State Fault Refusal :=
  ok who.wf s (s.regRead who off n)

/-- REGISTER_HALF_READ (R496): the low half is answered and the high half is latched for the function; RC fields of the
low half clear (R12). Where no 64-bit register begins there, it is a read of 4 B. -/
def execRegisterHalfRead (who : Accessor) (off : Nat) (s : State) : Host.Outcome State Fault Refusal :=
  ok who.wf s
    (match s.locate who off with
     | some (r, u, i) =>
       if r.width = 64 ∧ off % 8 = 0 then
         let v := s.regValue r.fields u i
         (((s.clearRc r.fields u i 0 32).withHalfR (Tbl.put (0, 0) s.halfR (accCode who) (off + 1, v / 2 ^ 32)))).answer .ok (natLE 4 v)
       else s.regRead who off 4
     | none => s.regRead who off 4)

end Sys2Proof.Machine
end

