-- ==== Sys2Proof/Machine/Words.lean ====
section
/-!
DEFINITION. Code words of memory (chapter 10): where a word lies, corrections and their tallies, what a stored word reads as,
and the stores by which tiles and engines write words.
-/

namespace Sys2Proof.Machine

/-! Where a word lies, for records (Table 10.6). -/

/-- The part physical address of a channel-local offset: through its window (R195, R196 inverted), or in the channel's
linear slot when it lies in none. -/
def State.physOf (s : State) (c l : Nat) : Nat :=
  match s.chanWindow c with
  | none => t1At c l
  | some n =>
    let h := hubOfChan c
    let base := s.fget HUB_WIN_BASE.BASE h n * 2 ^ 21
    if s.fget HUB_WIN_CTL.KIND h n = 1 then base + l
    else
      let k := s.fget HUB_WIN_CTL.K h n
      let m3 := s.fget HUB_WIN_CTL.M3 h n
      let first := s.fget HUB_WIN_LIST.FIRST h n
      let i := ((List.range (2 ^ k * (if m3 = 1 then 3 else 1))).find? (fun i =>
        s.fget HUB_CHLIST.CHANNEL h (first + i) == c)).getD 0
      let r := l / 512
      let q := if m3 = 0 then r else 3 * r + i / 2 ^ k
      let b := i % 2 ^ k ^^^ foldChunks k q (chunkCount k)
      base + (q * 2 ^ k + b) * 512 + l % 512

/-- The channel of a place in tier 1. -/
def chanOfPlace (k : Nat) : Option Nat :=
  if 2 ^ 40 ≤ k ∧ k < 0x30000000000 then some ((k - 2 ^ 40) / chanSize) else none

/-- Hub, UNIT and ADDRESS of a place. -/
def State.whereIs (s : State) (k : Nat) : Nat × Nat × Nat :=
  if k < 2 ^ 39 then let j := k / 2 ^ 33; (hubOfTile j, j, k % 2 ^ 33)
  else if k < 2 ^ 40 then let j := (k - 2 ^ 39) / 2 ^ 24; (hubOfTile j, j, (k - 2 ^ 39) % 2 ^ 24)
  else if k < 0x30000000000 then
    let c := (k - 2 ^ 40) / chanSize
    (hubOfChan c, c, s.physOf c ((k - 2 ^ 40) % chanSize))
  else if k < 2 ^ 64 then
    let o := k - 0x30000000000
    let h := o / 0x8000000
    (h, h * 16 + o % 0x8000000 / 0x800000, k)
  else (0, 0, k % 2 ^ 64)

/-- The partition that owns the memory at a place, if any. -/
def State.ownerOf (s : State) (k : Nat) : Option Nat :=
  if k < 2 ^ 39 then s.tilePart (k / 2 ^ 33)
  else if k < 2 ^ 40 then s.tilePart ((k - 2 ^ 39) / 2 ^ 24)
  else if k < 0x30000000000 then
    s.chanPart ((k - 2 ^ 40) / chanSize)
  else if k < 2 ^ 64 then
    let o := k - 0x30000000000
    let (p, _, en) := s.slice (o / 0x8000000) (o % 0x8000000 / 0x800000)
    if en then some p else none
  else none

/-- The record cause of an uncorrectable word of a class (Table 10.7). -/
def Cls.ueCause : Cls → Nat
  | .t0 => 0x01 | .t1p => 0x02 | .llm => 0x03 | .wse => 0x04 | .wsp => 0x05 | .t1c => 0x08 | .host => 0x06

/-- The tally of a class: T0, T1P, LLM, WS-E; the others have none (R266). -/
def Cls.tally : Cls → Option Nat
  | .t0 => some 0 | .t1p => some 1 | .llm => some 2 | .wse => some 3 | _ => none

/-- A record about the word at `w`. -/
def State.wordRec (s : State) (w cause sev src : Nat) (p : Option Nat) (i0 i1 : Nat) : ErrRec :=
  let (_, u, a) := s.whereIs w
  { cause := cause, sev := sev, src := src, part := p, unit := u, addr := a
    syn := (s.cls w).syndrome (s.delta w)
    pos := match s.verd w with
      | .corrected n => n
      | _ => 0xFFFF
    info0 := i0, info1 := i1 }

/-! Corrections (R265, R266). -/

/-- The RC counter of a class's corrections. -/
def ceCount (n : Nat) : Field :=
  if n = 0 then ERR_CE_COUNT0.T0 else if n = 1 then ERR_CE_COUNT1.T1P else if n = 2 then ERR_CE_COUNT1.LLM
  else ERR_CE_COUNT0.WSE

/-- A correction of class tally `n` at hub `h` is counted; one that finds the level at 64 overflows the bucket (R266). `r`
is the record an overflow writes, its COUNT apart. -/
def State.tallyAdd (s : State) (h n : Nat) (r : ErrRec) : State :=
  let s1 := s.fcount (ceCount n) h 0
  let since := Tbl.get 0 s.ceSince (h * 4 + n) + 1
  let level := s.fgetAt ERR_TALLY.T0 h 0 (8 * n)
  if level = 64 then
    let s2 := ((s1.fsetAt ERR_TALLY.T0 h 0 (8 * n) 0).withCeSince (Tbl.put 0 s1.ceSince (h * 4 + n) 0))
    (s2.evt ERR_EVENT.TALLY_OVF h 0 (2 ^ n) r.part).record h { r with count := min since 0xFFFF }
  else ((s1.fsetAt ERR_TALLY.T0 h 0 (8 * n) (level + 1)).withCeSince (Tbl.put 0 s1.ceSince (h * 4 + n) since))

/-- A correction of the word at `w` by an access of SOURCE `src` is tallied. -/
def State.tallyWord (s : State) (w src : Nat) (p : Option Nat) : State :=
  match (s.cls w).tally with
  | none => s
  | some n =>
    s.tallyAdd (s.whereIs w).1 n (s.wordRec w 0x0B 0 src p n ((s.cls w).ueCause))

/-- A correction is tallied unless its write-back is queued: the error has been counted (R265). -/
def State.tallyOnce (s : State) (w src : Nat) (p : Option Nat) : State :=
  match s.verd w with
  | .corrected _ => if s.wbq.contains w then s else s.tallyWord w src p
  | _ => s

/-! Encrypted windows (R199, R257). -/

/-- The partition and key generation under which a channel's stored data is encrypted, if it is (R199, R485). -/
def State.encKey (s : State) (c : Nat) : Option (Nat × Nat) :=
  match s.chanWindow c with
  | none => none
  | some n =>
    let p := s.fget HUB_WIN_CTL.PART (hubOfChan c) n
    let g := Tbl.get 0 s.mgmt.keys p
    if s.fget HUB_WIN_CTL.KIND (hubOfChan c) n = 0 ∧ g ≠ 0 then some (p, g) else none

/-- The data bits as they are stored: ciphertext in an encrypted window. -/
def State.storedBytes (s : State) (w : Nat) : List Byte :=
  let bs := readBytes s.mem w (s.cls w).word
  match (chanOfPlace w).bind s.encKey with
  | some (p, g) => bs.mapIdx (fun i b => Config.cipher p g (w + i) b)
  | none => bs

/-- The data bits that stored bits stand for. -/
def State.plainBytes (s : State) (w : Nat) (bs : List Byte) : List Byte :=
  match (chanOfPlace w).bind s.encKey with
  | some (p, g) => bs.mapIdx (fun i b => Config.decipher p g (w + i) b)
  | none => bs

/-! What words hold. -/

/-- The data of the word at `w` as a read delivers it: in an encrypted window the code covers the ciphertext, so that is
what a correction mends (R257). -/
def State.wordData (s : State) (w : Nat) : List Byte :=
  match s.verd w with
  | .corrected _ => s.plainBytes w ((s.cls w).fix (s.storedBytes w) (s.delta w))
  | _ => readBytes s.mem w (s.cls w).word

/-- A whole code word stored clean (R263): the queued write-back of the old word is dropped (Table 10.11). -/
def State.storeClean (s : State) (w : Nat) (bs : List Byte) : State :=
  (((s.poke w bs).setDelta w 0).withWbq (s.wbq.filter (· != w)))

/-- A whole code word stored with the poison mark (R261). -/
def State.storePoison (s : State) (w : Nat) (bs : List Byte) : State :=
  (((s.poke w bs).setDelta w (s.cls w).poison).withWbq (s.wbq.filter (· != w)))

/-- The word at `w` keeps its data bits and takes the poison mark, and no write-back of it stays queued; T1C memory holds
none, and an error there stands until the whole word is written (R272). -/
def State.markPoison (s : State) (w : Nat) : State :=
  if s.cls w = .t1c then s else (s.setDelta w (s.cls w).poison).withWbq (s.wbq.filter (· != w))

/-- The first places of the code words that hold the `n` bytes from `k`; all of one class. -/
def wordsOf (c : Cls) (k n : Nat) : List Nat :=
  if n = 0 then []
  else (List.range ((k + n - 1) / c.word - k / c.word + 1)).map (fun i => wordOf c k + i * c.word)

/-- The bits of a mask for bytes `off` to `off + n − 1`. -/
def byteMask (off n : Nat) : Nat := (2 ^ n - 1) * 2 ^ off

/-- The old bytes with those that the mask names taken from `data`; both are numbered from byte `off` of a block. -/
def mergeBytes (old : List Byte) (off mask data : Nat) : List Byte :=
  old.mapIdx (fun i b => if mask.testBit (off + i) then BitVec.ofNat 8 (byteOf data (off + i)) else b)

/-- The data of the word at `w`, and whether it is poisoned or uncorrectable, as a read delivers them: with the bytes that
an open merge entry of its block holds, since a read sees all bytes written before it (R270, R268, R269). -/
def State.readData (s : State) (w : Nat) : List Byte × Bool :=
  match s.merge.find? (fun e => e.blk == w - w % 64) with
  | none => (s.wordData w, s.bad w)
  | some e =>
    let m := byteMask (w % 64) (s.cls w).word
    if e.mask &&& m = 0 then (s.wordData w, s.bad w)
    else if e.mask &&& m ≠ m ∧ s.bad w = true then (s.wordData w, true)
    else (mergeBytes (s.wordData w) (w % 64) e.mask e.data, e.poison &&& m != 0)

/-- The `n` bytes from `k` as a read delivers them, corrected, and whether any word of them is poisoned or
uncorrectable. -/
def State.look (s : State) (k n : Nat) : List Byte × Bool :=
  let c := s.cls k
  let ws := (wordsOf c k n).map s.readData
  (((ws.map Prod.fst).flatten.drop (k - wordOf c k)).take n, ws.any Prod.snd)

/-- Which of the `n` bytes from `k` lie in poisoned or uncorrectable words: a mask. -/
def State.lookMarks (s : State) (k n : Nat) : Nat :=
  let c := s.cls k
  (wordsOf c k n).foldl (fun m w =>
    if (s.readData w).2 then m ||| (byteMask 0 (min (k + n) (w + c.word) - max k w) <<< (max k w - k)) else m) 0

/-- The number the `n` bytes from `k` spell as a read delivers them. -/
def State.lookN (s : State) (k n : Nat) : Nat := leNat (s.look k n).1

/-- Bytes of a word with some of them replaced: `off` is where `bs` begin in it. -/
def splice (old : List Byte) (off : Nat) (bs : List Byte) : List Byte :=
  old.take off ++ (bs.take (old.length - off)) ++ old.drop (off + bs.length)

/-- The `n` bytes from `k` are written past the merge buffer: open entries no longer hold older ones. -/
def State.supersede (s : State) (k n : Nat) : State :=
  s.withMerge (s.merge.filterMap (fun e =>
    if e.blk = k - k % 64 then
      let m := byteMask (k % 64) n
      if e.mask &&& m = e.mask then none
      else some { e with mask := e.mask - (e.mask &&& m), poison := e.poison - (e.poison &&& m) }
    else some e))

/-- Bytes stored from `k` on by a tile or an engine that writes words whole: covered words become clean or, for poisoned
data, poisoned; a word covered in part keeps its other bytes and, if it was bad, its mark (R262, R263, R267). A correction
that the bank makes for a partial write is tallied (R266). -/
def State.storeWord (s0 : State) (w off : Nat) (bs : List Byte) (poisoned : Bool) : State :=
  let s1 := s0.supersede (w + off) bs.length
  let c := s1.cls w
  let whole := off = 0 ∧ bs.length ≥ c.word
  let s := if whole then s1 else s1.tallyOnce w 3 (s1.ownerOf w)
  let d := splice (s.wordData w) off bs
  if c = .t1c ∧ ¬whole then s.poke w d
  else if poisoned || (!decide whole && s.bad w) then s.storePoison w d else s.storeClean w d

/-- The bytes cut into code words of size `n`, from the first place on: place of the word, offset in it, bytes. -/
def chop (n : Nat) : Nat → Nat → List Byte → List (Nat × Nat × List Byte)
  | 0, _, _ => []
  | fuel + 1, k, bs =>
    if bs = [] then []
    else
      let room := n - k % n
      (k - k % n, k % n, bs.take room) :: chop n fuel (k + room) (bs.drop room)

/-- Bytes stored from `k` on, word by word (`State.storeWord`). -/
def State.store (s : State) (k : Nat) (bs : List Byte) (poisoned : Bool) : State :=
  (chop (s.cls k).word (bs.length + 1) k bs).foldl
    (fun s (w, off, b) => s.storeWord w off b poisoned) s

/-- Of `n` bytes from place `k` on, the `m` bytes from place `a` hold a poisoned one. -/
def marked (bad k a m : Nat) : Bool := (bad >>> (a - k)) % 2 ^ m != 0

/-- Bytes stored from `k` on, of which `bad` names the poisoned ones: a word that receives any of them is poisoned (R262). -/
def State.storeMarks (s : State) (k : Nat) (bs : List Byte) (bad : Nat) : State :=
  (chop (s.cls k).word (bs.length + 1) k bs).foldl
    (fun s (w, off, b) => s.storeWord w off b (marked bad k (w + off) b.length)) s

/-- Bytes moved from one place to another; poison travels with them (R262). -/
def State.move (s : State) (dst src n : Nat) : State := s.storeMarks dst (s.look src n).1 (s.lookMarks src n)

/-- Clean zero words over the `n` places from `k`: no byte and no mark is left there (R263, R410). -/
def State.zero (s : State) (k n : Nat) : State :=
  { s with mem := Tbl.clearRange s.mem k n, chk := Tbl.clearRange s.chk k n, wbq := s.wbq.filter (fun w => w < k ∨ k + n ≤ w) }

end Sys2Proof.Machine
end

