-- ==== Sys2Proof/Machine/Links.lean ====
section
/-!
DEFINITION. Bolkiby links and routing (chapter 14): training, flits, replay, credits, arbitration, the route tables and the
live set, HELLO and authentication, quarantine, rate limits. A message that has arrived whole waits in `inbox` until the
part forwards it (MESSAGE_ROUTE) or the command of its type takes it.
-/

namespace Sys2Proof.Machine

/-! Ports. -/

/-- A port. -/
def State.port (s : State) (p : Nat) : Port := Tbl.get {} s.ports p

/-- The state with a port changed. -/
def State.onPort (s : State) (p : Nat) (f : Port → Port) : State := { s with ports := Tbl.upd {} s.ports p f }

/-- FAB_PORT_STATUS.STATE of a port. -/
def State.pst (s : State) (p : Nat) : Nat := s.fget FAB_PORT_STATUS.STATE 0 p

/-- The state with a port in another STATE, standing there from now on. -/
def State.setPst (s : State) (p v : Nat) : State :=
  (s.fset FAB_PORT_STATUS.STATE 0 p v).onPort p (fun t => { t with stSince := s.time })

/-- The link is up: flits pass. -/
def State.linkUp (s : State) (p : Nat) : Bool := decide (7 ≤ s.pst p) && decide (s.pst p ≤ 11)

/-- The hub of a port (R341). -/
def hubOfPort (p : Nat) : Nat := p / 4

/-- A fabric record (R375). -/
def State.fabRecord (s : State) (p cause i0 i1 : Nat) : State :=
  s.record (hubOfPort p) { cause := cause, sev := 4, src := 5, unit := p, info0 := i0, info1 := i1 }

/-- Element `i` of a list of counts higher by `n`. -/
def listAdd (l : List Nat) (i n : Nat) : List Nat := l.modify i (· + n)

/-- Sixteen zeros: one count per buffer class. -/
def zeros16 : List Nat := List.replicate 16 0

/-- Buffer class of a virtual channel and dateline class (Table 14.5). -/
def classOf (vc dl : Nat) : Nat := vc * 2 + dl

/-- Flits a buffer class holds (Table 14.7). -/
def classSize (vc : Nat) : Nat := if vc ≤ 1 then 64 else 320

/-- Credits that a sender has in a class (R358). -/
def Port.credit (t : Port) (vc dl : Nat) : Nat :=
  classSize vc - (t.sent.getD (classOf vc dl) 0 + 4096 - t.crTot.getD (classOf vc dl) 0) % 4096

/-- The link layer as LINK_INIT leaves it (R353): counts 0, the replay and ingress buffers and partial messages empty. -/
def Port.resetLink (t : Port) : Port :=
  { t with txSeq := 0, replay := [], resend := [], sent := zeros16, crTot := zeros16, stale := 0, replaysUp := 0, rxSeq := 0,
           rxAny := false, nakAt := none, freed := zeros16, held := zeros16, heldBack := zeros16, partials := [] }

/-! Messages and flits (Tables 14.4, 14.5, 14.8, 15.3). -/

/-- The payload bytes of a message. -/
def msgBytes (m : Msg) : List Byte :=
  natLE 8 (m.dest % 2 ^ 20 + m.src % 2 ^ 20 * 2 ^ 20 + m.hops % 64 * 2 ^ 40 + bit m.ord * 2 ^ 46 + bit m.ll * 2 ^ 47 +
    m.ty % 256 * 2 ^ 48 + bit m.opening * 2 ^ 56 + bit m.last * 2 ^ 57 + bit m.resend * 2 ^ 58 + bit m.poison * 2 ^ 59) ++
  (if m.ty ≥ 0xF0 then []
   else natLE 2 m.stream ++ natLE 2 m.epoch ++ natLE 4 m.seq ++ natLE 8 m.addr ++ natLE 2 m.len ++ natLE 1 m.opx ++
     natLE 1 m.status ++ natLE 4 m.sent) ++ m.body

/-- The message that payload bytes spell, on a port and channel. -/
def parseMsg (port vc dl : Nat) (bs : List Byte) : Msg :=
  let h := leNat (bs.take 8)
  let long := decide (h / 2 ^ 48 % 256 < 0xF0)
  let f (off n : Nat) : Nat := if long then leNat ((bs.drop off).take n) else 0
  { port := port, vc := vc, dl := dl, dest := h % 2 ^ 20, src := h / 2 ^ 20 % 2 ^ 20, hops := h / 2 ^ 40 % 64,
    ord := h.testBit 46, ll := h.testBit 47, ty := h / 2 ^ 48 % 256, opening := h.testBit 56, last := h.testBit 57,
    resend := h.testBit 58, poison := h.testBit 59, stream := f 8 2, epoch := f 10 2, seq := f 12 4, addr := f 16 8,
    len := f 24 2, opx := f 26 1, status := f 27 1, sent := f 28 4, body := bs.drop (if long then 32 else 8) }

/-- A flit that carries nothing, with the header's part that does not depend on the moment of sending. -/
def blankFlit (ty : Nat) : Flit :=
  { crcOk := true, rsvd0 := true, ty := ty, vc := 0, dl := 0, seq := 0, ack := 0, ackV := false, som := false, eom := false,
    crBuf := 0, crTotal := 0, len := 244, payload := [] }

/-- The DATA flits of a message (R351). -/
def msgFlits (m : Msg) : List Flit :=
  let cs := (chop 244 ((msgBytes m).length + 1) 0 (msgBytes m)).map (fun (_, _, b) => b)
  cs.mapIdx (fun i b => { blankFlit 1 with
    vc := m.vc, dl := m.dl, som := i == 0, eom := i + 1 == cs.length, len := b.length, payload := b })

/-- The TYPE values that exist (Tables 14.8, 15.1). -/
def typeOk (t : Nat) : Bool :=
  (decide (1 ≤ t) && decide (t ≤ 5)) || t == 8 || (decide (0x10 ≤ t) && decide (t ≤ 0x1A)) || (decide (0xF0 ≤ t) && decide (t ≤ 0xF3))

/-! Routing (R361 to R364). -/

/-- The part's own device address. -/
def State.fabAddr (s : State) : Nat := s.fget FAB_ADDR.ADDR 0 0

/-- A route entry: VALID, LOCAL or SELF, its listed paths. -/
structure RouteEnt where
  valid : Bool
  own : Bool
  paths : List Nat
  deriving DecidableEq, Repr

/-- Entry `i` of the group table. -/
def State.group (s : State) (i : Nat) : RouteEnt :=
  ⟨s.fget FAB_GRP_TBL.VALID 0 i == 1, s.fget FAB_GRP_TBL.LOCAL 0 i == 1,
    [s.fget FAB_GRP_TBL.PATH0 0 i, s.fget FAB_GRP_TBL.PATH1 0 i, s.fget FAB_GRP_TBL.PATH2 0 i,
      s.fget FAB_GRP_TBL.PATH3 0 i].take (s.fget FAB_GRP_TBL.NPATH 0 i + 1)⟩

/-- Entry `i` of the member table. -/
def State.member (s : State) (i : Nat) : RouteEnt :=
  ⟨s.fget FAB_MBR_TBL.VALID 0 i == 1, s.fget FAB_MBR_TBL.SELF 0 i == 1,
    [s.fget FAB_MBR_TBL.PATH0 0 i, s.fget FAB_MBR_TBL.PATH1 0 i, s.fget FAB_MBR_TBL.PATH2 0 i,
      s.fget FAB_MBR_TBL.PATH3 0 i].take (s.fget FAB_MBR_TBL.NPATH 0 i + 1)⟩

/-- The entry that routes to a device address. -/
def State.entryFor (s : State) (dest : Nat) : RouteEnt :=
  let e := s.group (dest / 256 % 4096)
  if e.valid && e.own then s.member (dest % 256) else e

/-- A port is live (R364), as FAB_LIVE shows it. -/
def State.isLive (s : State) (p : Nat) : Bool := s.fbit FAB_LIVE.PORTS 0 0 p

/-- A port that carries a message of a type: live, or authenticated while a cruise runs and the message is a probe's (R370). -/
def State.carries (s : State) (m : Msg) (p : Nat) : Bool :=
  s.isLive p || (s.pst p == 8 && s.fget FAB_CRUISE_STATUS.RUNNING 0 0 == 1 && (m.ty == 0xF2 || m.ty == 0xF3))

/-- The dateline class of a message after it leaves through a port (R361). -/
def State.dlAfter (s : State) (m : Msg) (p : Nat) : Nat := if s.fget FAB_PORT_CTL.DATELINE 0 p = 1 then 1 else m.dl

/-- The egress port for a message (R364); none when no listed path is live. -/
def State.egress (s : State) (m : Msg) : Option Nat :=
  let e := s.entryFor m.dest
  let live := e.paths.filter (s.carries m)
  if !e.valid || live == [] then none
  else if m.ord then
    let x := m.src ^^^ m.dest
    live[(x ^^^ x / 2 ^ 10) % live.length]?
  else
    let free (p : Nat) : Nat := (s.port p).credit m.vc (s.dlAfter m p)
    live.foldl (fun b p => match b with
      | none => some p
      | some q => if free p > free q then some p else some q) none

/-- A message joins a port's queue. -/
def State.queueOn (s : State) (p : Nat) (m : Msg) : State :=
  let m2 := { m with dl := s.dlAfter m p }
  s.onPort p (fun t => { t with vcq := t.vcq ++ [⟨m2, msgFlits m2, false⟩] })

/-- A message is routed at its SOM: to this part's own transport, onto a port, or nowhere; answered with whether it was. -/
def State.routed (s : State) (m : Msg) : State × Bool :=
  if m.dest = s.fabAddr then ((s.withInbox (s.inbox ++ [{ m with port := 16 }])), true)
  else match s.egress m with
    | some p => (s.queueOn p m, true)
    | none => (s, false)

/-- The ports that are live by R364. -/
def State.liveMask (s : State) : Nat :=
  if s.fget FAB_CTL.FWD_EN 0 0 = 0 then 0
  else (List.range 16).foldl (fun m p => if s.pst p = 8 then m + 2 ^ p else m) 0

/-- The entry has a live path in a mask of live ports. -/
def RouteEnt.hasLive (e : RouteEnt) (mask : Nat) : Bool := e.paths.any (fun p => mask.testBit p)

/-- The entry has lost its last live path. -/
def RouteEnt.lost (e : RouteEnt) (old new : Nat) : Bool := e.valid && !e.own && e.hasLive old && !e.hasLive new

/-- One ROUTE_LOSS record. -/
def State.routeLost (s : State) (p tbl i : Nat) : State := (s.evt FAB_EVENT.ROUTE_LOSS 0 0 1 none).fabRecord p 0x6D tbl i

/-- Records for the entries that lost their last live path. -/
def State.lossCheck (s : State) (p old new : Nat) : State :=
  let gs := (List.range 4096).filter (fun i => (s.group i).lost old new)
  let ms := (List.range 256).filter (fun i => (s.member i).lost old new)
  ms.foldl (fun t i => t.routeLost p 1 i) (gs.foldl (fun t i => t.routeLost p 0 i) s)

/-- A port left the live set (Table 14.13): its messages that have not started are routed again, started ones are
discarded. -/
def State.requeue (s : State) (p : Nat) : State :=
  let q := (s.port p).vcq
  (q.filter (fun x => !x.started && !x.m.ll)).foldl (fun t x => (t.routed x.m).1) (s.onPort p (fun t => { t with vcq := [] }))

/-- FAB_LIVE follows the ports (R364); ports that leave the live set reroute, and entries without a path are reported. -/
def State.relive (s : State) : State :=
  let old := s.fget FAB_LIVE.PORTS 0 0
  let new := s.liveMask
  let s1 := s.fset FAB_LIVE.PORTS 0 0 new
  let gone := (List.range 16).filter (fun p => old.testBit p && !new.testBit p)
  match gone with
  | [] => s1
  | p :: _ => (gone.foldl State.requeue s1).lossCheck p old new

/-- ROUTE_TABLE_WRITE (R363): one whole entry changes; PROBE_OK is read-only. -/
def execRouteTableWrite (who : Accessor) (off v : Nat) (s : State) : Host.Outcome State Fault Refusal :=
  ok who.wf s
    (match s.locate who off with
     | some (r, u, i) =>
       if r.fields.all (fun f => f.blk == .fabric && decide (f.off ≥ 0x4000)) && off % 4 == 0 && s.privileged who then
         s.writeReg who r.fields u i off v
       else s
     | none => s)

/-! The inbox. -/

/-- Flits of a class leave the ingress buffer (R358): freed, or, at a rate limit, withheld until the next interval (R374). -/
def State.freeFlits (s : State) (p vc dl n : Nat) : State :=
  let t := s.port p
  let lim := if vc = 0 then s.fget FAB_PORT_RATE.MGMT_PER_MS 0 p else s.fget FAB_PORT_RATE.MSG_PER_US 0 p
  let used := if vc = 0 then t.mgmt else t.msgs
  let c := classOf vc dl
  s.onPort p (fun t =>
    let t1 := { t with held := t.held.modify c (· - n) }
    if vc ≠ 1 ∧ lim ≠ 0 ∧ used ≥ lim then { t1 with heldBack := listAdd t1.heldBack c n }
    else { t1 with freed := listAdd t1.freed c n })

/-- A message leaves the ingress buffer. -/
def State.takeMsg (s : State) (m : Msg) : State :=
  let s1 := (s.withInbox (s.inbox.erase m))
  if m.port < 16 then s1.freeFlits m.port m.vc m.dl (msgFlits m).length else s1

/-- A message of a type that has arrived here, acted on by its command; otherwise nothing happens. -/
def State.onMsg (s : State) (m : Msg) (ty : Nat) (f : State → State) : State :=
  if s.inbox.contains m && m.ty == ty && (m.ll || m.dest == s.fabAddr) then f (s.takeMsg m) else s

/-- MESSAGE_ROUTE (R364): a message that has arrived and is not for this part goes on by a live path, with one more hop; one
past MAX_HOPS, or with no live path, is discarded and counted. -/
def execMessageRoute (m : Msg) (s : State) : Host.Outcome State Fault Refusal :=
  ok m.wf s
    (if !s.inbox.contains m || m.ll || m.dest == s.fabAddr then s
     else
       let s1 := s.takeMsg m
       let m2 := { m with hops := m.hops + 1 }
       if m2.hops > s.fget FAB_CTL.MAX_HOPS 0 0 then s1.fcount FAB_PORT_COUNT3.HOP_DROP 0 m.port
       else match s1.routed m2 with
         | (t, true) => t
         | (t, false) => t.fcount FAB_PORT_COUNT3.UNROUTABLE 0 m.port)

/-! Training (R342 to R346). -/

/-- The attempt uses saved settings. -/
def Port.warm (t : Port) : Bool := t.warmTry && !t.coldOnly

/-- A port with EN that is off begins in DETECT. -/
def State.portStart (s : State) (p : Nat) : State :=
  if s.fget FAB_PORT_CTL.EN 0 p = 1 ∧ s.pst p = 0 then s.setPst p 1 else s

/-- LINK_DETECT (R342): an attempt begins, warm where settings are saved and WARM_OK is 1. -/
def execLinkDetect (port : Nat) (s : State) : Host.Outcome State Fault Refusal :=
  ok (portOk port) s
    (if s.pst port ≠ 1 ∨ s.fget FAB_PORT_CTL.EN 0 port = 0 then s
     else (s.setPst port 2).onPort port (fun t =>
       { t with warmTry := t.settings && s.fget FAB_PORT_CTL.WARM_OK 0 port == 1, coldOnly := false, masks := [] }))

/-- A training attempt ends in failure (R342). -/
def State.trainFail (s : State) (p cause : Nat) : State :=
  ((s.fset FAB_PORT_STATUS.FAIL_CAUSE 0 p cause).setPst p 12).onPort p (fun t => { t with retryAt := s.time + 1000000000 })

/-- The widest legal lane group inside a mask, the lowest-numbered of its width: WIDTH code and mask (R345, Table 14.1). -/
def laneGroup (mask : Nat) : Option (Nat × Nat) :=
  [(3, 0xFF), (2, 0x0F), (2, 0xF0), (1, 0x03), (1, 0x0C), (1, 0x30), (1, 0xC0)].find? (fun g => mask &&& g.2 == g.2)

/-- Logical lanes as physical ones (Table 14.1). -/
def physLanes (mask : Nat) (reversed : Bool) : Nat :=
  if reversed then (List.range 8).foldl (fun m i => if mask.testBit i then m + 2 ^ (7 - i) else m) 0 else mask

/-- A link comes up with a width: narrower than ×8 is reported (R345). -/
def State.widthReport (s : State) (p width lanes : Nat) : State :=
  let s1 := (s.fset FAB_PORT_STATUS.WIDTH 0 p width).fset FAB_PORT_STATUS.LANES 0 p lanes
  if width < 3 then (s1.evt FAB_EVENT.DEGRADED 0 0 1 none).fabRecord p 0x69 width lanes else s1

/-- A warm attempt goes on as a cold one where either side shows WARM 0 or verification fails (R344): in EQ the taps start
again from preset 4 (R466). -/
def State.coldIf (s : State) (p st : Nat) (f : TrainFrame) : State :=
  if (st = 2 ∨ st = 3) ∧ (frameWarm f = false ∨ f.verifyFail = true) then
    s.onPort p (fun t =>
      let u := { t with coldOnly := true }
      if st = 3 ∧ t.warm = true then u.coldTaps else u)
  else s

/-- In FRAME, EQ and WIDTH the port's own frame follows on the lane of the frame it heard (R343). -/
def State.answered (p : Nat) (f : TrainFrame) (s : State) : State :=
  if 2 ≤ s.pst p ∧ s.pst p ≤ 4 then s.onPort p (fun t => t.sendFrame p (s.pst p) f) else s

/-- TRAINING_FRAME (R342 to R345, R466): a frame with a bad CRC is ignored; another moves the port on as Table 14.2 says,
and in EQ answers the partner's coefficient requests. -/
def execTrainingFrame (port : Nat) (f : TrainFrame) (s : State) : Host.Outcome State Fault Refusal :=
  ok (portOk port) s
    (if !frameOk f.bits then s
     else
       let st := s.pst port
       let s0 := s.coldIf port st f
       let s1 := if st = 3 then s0.onPort port (fun t => t.eqFrame f) else s0
       State.answered port f <|
       if st = 2 then (if frameReady f && f.heard != 0 then (s1.setPst port 3).onPort port Port.eqStart else s1)
       else if st = 3 then
         (if f.heard &&& f.ownEq == f.heard then (s1.setPst port 4).onPort port (fun t => { t with masks := [] }) else s1)
       else if st = 4 then
         let bad := physLanes (Tbl.get 0 s.fuses.fabBadLanes port % 256) f.reversed
         let own := f.ownOk &&& frameLanes f &&& (0xFF ^^^ bad)
         if frameLanes f = own ∧ (s1.port port).masks = [own] then
           match laneGroup own with
           | none => s1.trainFail port 3
           | some (w, g) =>
             (((s1.fset FAB_PORT_STATUS.WIDTH 0 port w).fset FAB_PORT_STATUS.LANES 0 port (physLanes g f.reversed)).fset
               FAB_PORT_STATUS.REVERSED 0 port (bit f.reversed)).setPst port 5
         else s1.onPort port (fun t => { t with masks := [frameLanes f] })
       else if st = 5 then
         (if f.locked then (s1.setPst port 6).onPort port (fun t => { t with ctrl := t.ctrl ++ [(2, 0)] }) else s1)
       else s1)

/-- The timeout of a training state in ns (Table 14.2); 0 for none. -/
def trainLimit (st : Nat) (warm : Bool) : Nat :=
  if st = 2 then (if warm then 5000000 else 20000000)
  else if st = 3 then (if warm then 100000000 else 700000000)
  else if 4 ≤ st ∧ st ≤ 6 then 10000000 else 0

/-- TRAINING_TIMEOUT (R342): the attempt ends; a retrain has its own limit. -/
def execTrainingTimeout (port : Nat) (s : State) : Host.Outcome State Fault Refusal :=
  ok (portOk port) s
    (let t := s.port port
     let lim := trainLimit (s.pst port) t.warm
     if lim ≠ 0 ∧ t.retrain = none ∧ s.time ≥ t.stSince + lim then s.trainFail port (s.pst port - 1) else s)

/-- TRAINING_RETRY (R342): 1 s after a failed attempt a port with EN starts again. -/
def execTrainingRetry (port : Nat) (s : State) : Host.Outcome State Fault Refusal :=
  ok (portOk port) s
    (if s.pst port = 12 ∧ s.fget FAB_PORT_CTL.EN 0 port = 1 ∧ s.time ≥ (s.port port).retryAt then s.setPst port 1 else s)

/-- The port starts authentication (R366 to R368). -/
def State.authStart (s : State) (p : Nat) : State :=
  ((s.setPst p 7).fset FAB_PORT_PARTNER.VALID 0 p 0).onPort p (fun t =>
    { t with selfOk := false, peerOk := false, authAt := s.time, helloAt := s.time })

/-- LINK_INIT (R353): both sides' counts restart, and the answer is LINK_INIT_ACK. -/
def execLinkInit (port : Nat) (s : State) : Host.Outcome State Fault Refusal :=
  ok (portOk port) s
    (if s.pst port ≠ 6 ∧ s.linkUp port = false then s
     else s.onPort port (fun t => { t.resetLink with ctrl := t.ctrl ++ [(3, 0)] }))

/-- LINK_INIT_ACK (R342, R353): in LINK_INIT the link is up, unauthenticated, or still quarantined. -/
def execLinkInitAck (port : Nat) (s : State) : Host.Outcome State Fault Refusal :=
  ok (portOk port) s
    (if s.pst port = 6 then
       let warm := (s.port port).warm
       let s1 := (s.onPort port (fun t => { t.resetLink with settings := true, savedTaps := t.taps })).fset FAB_PORT_STATUS.WARM 0 port (bit warm)
       let s2 := s1.authStart port
       let s3 := s2.widthReport port (s.fget FAB_PORT_STATUS.WIDTH 0 port) (s.fget FAB_PORT_STATUS.LANES 0 port)
       if s.fget FAB_PORT_CTL.QUARANTINE 0 port = 1 then s3.setPst port 9 else s3
     else if s.linkUp port then s.onPort port Port.resetLink
     else s)

/-- A link that is up begins a warm retrain (R346): cause 0 replay, 1 partner, 2 host. Every cause but the partner's sends
RETRAIN_REQ. -/
def State.beginRetrain (s : State) (p cause : Nat) : State :=
  if !s.linkUp p || (s.port p).retrain.isSome then s
  else
    let st := s.pst p
    ((s.setPst p 2).onPort p (fun t => { t with
      retrain := some cause, retrainAt := s.time, before := st, warmTry := true, coldOnly := false
      ctrl := if cause = 1 then t.ctrl else t.ctrl ++ [(4, 0)] })).relive

/-- RETRAIN_REQ (R346). -/
def execRetrainReq (port : Nat) (s : State) : Host.Outcome State Fault Refusal := ok (portOk port) s (s.beginRetrain port 1)

/-- The accessor may write FAB_PORT_CTL's trigger, which takes a privileged one where `priv` says so. -/
def State.portCtl (s : State) (who : Accessor) (port : Nat) (priv : Bool) : Bool :=
  s.reaches who FAB_PORT_CTL.EN 0 port && (!priv || s.privileged who)

/-- PORT_RETRAIN (R346): host software requests a retrain. -/
def execPortRetrain (who : Accessor) (port : Nat) (s : State) : Host.Outcome State Fault Refusal :=
  ok (who.wf && portOk port) s (if s.portCtl who port false then s.beginRetrain port 2 else s)

/-- RETRAIN_COMPLETE (R346): within 150 ms the link layer resumes with all its state. -/
def execRetrainComplete (port width lanes : Nat) (s : State) : Host.Outcome State Fault Refusal :=
  ok (portOk port && decide (1 ≤ width) && decide (width ≤ 3)) s
    (match (s.port port).retrain with
     | none => s
     | some c =>
       let t := s.port port
       let s1 := (s.setPst port t.before).onPort port (fun t => { t with retrain := none, stale := 0, progressAt := s.time })
       ((s1.widthReport port width lanes).fabRecord port 0x6E c 0).relive)

/-- A link goes down (R346). -/
def State.linkLost (s : State) (p : Nat) : State :=
  let t := s.port p
  let s1 := s.onPort p (fun t => { t.resetLink with retrain := none, vcq := [], ctrl := [], selfOk := false, peerOk := false })
  let s2 := ((s1.setPst p 1).fset FAB_PORT_PARTNER.VALID 0 p 0).relive
  (s2.evt FAB_EVENT.LINK_DOWN 0 0 1 none).fabRecord p 0x68 (s.fget FAB_PORT_STATUS.FAIL_CAUSE 0 p) t.replaysUp

/-- RETRAIN_TIMEOUT (R346): a retrain that misses 150 ms leaves the link down, and the port trains from DETECT. -/
def execRetrainTimeout (port : Nat) (s : State) : Host.Outcome State Fault Refusal :=
  ok (portOk port) s
    (match (s.port port).retrain with
     | none => s
     | some c =>
       if s.time < (s.port port).retrainAt + 150000000 then s
       else (((s.fset FAB_PORT_STATUS.FAIL_CAUSE 0 port 6).linkLost port).fabRecord port 0x6E c 1))

/-! FEC (R349). -/

/-- FEC_BLOCK (R349): corrected symbols and uncorrectable codewords are counted; four missing markers in a row lose block
lock, and the link retrains. The flits of an uncorrectable codeword arrive as flits whose CRC fails. -/
def execFecBlock (port : Nat) (marker : Bool) (symErrs : List Nat) (s : State) : Host.Outcome State Fault Refusal :=
  ok (portOk port && symErrs.length == 4) s
    (if s.pst port < 5 ∨ s.pst port > 11 then s
     else
       let s1 := symErrs.foldl (fun t n =>
         if n ≤ 15 then t.fcountN FAB_PORT_COUNT.FEC_CORR 0 port n else t.fcount FAB_PORT_COUNT.FEC_UNCORR 0 port) s
       let missed := if marker then 0 else (s.port port).missed + 1
       if missed ≥ 4 ∧ s.linkUp port = true then
         let s2 := s1.draw
         (s2.onPort port (fun t => { t with missed := 0 })).beginRetrain port (leNat (s2.freeBytes 1))
       else s1.onPort port (fun t => { t with missed := missed }))

/-! Quarantine and malformed traffic (R371 to R373). -/

/-- A port is quarantined (R373): 0 by its tally, 1 by host software. -/
def State.quarantine (s : State) (p by_ : Nat) : State :=
  let s1 := s.fset FAB_PORT_CTL.QUARANTINE 0 p 1
  let s2 := if s.linkUp p then (s1.setPst p 9).onPort p (fun t =>
      { t.resetLink with ctrl := t.ctrl ++ [(5, 1)], selfOk := false, peerOk := false }) else s1
  let s3 := (s2.withInbox (s2.inbox.filter (fun m => m.port != p)))
  ((s3.relive.onPort p (fun t => { t with vcq := [] })).fabRecord p 0x6C by_
    (s.fget FAB_PORT_TALLY.LAST_CAUSE 0 p)).evt FAB_EVENT.QUARANTINE 0 0 1 none

/-- A malformed flit or message (R371, R372): counted, and a full tally quarantines the port. -/
def State.malformed (s : State) (p code : Nat) : State :=
  let s1 := (s.fcount FAB_PORT_COUNT2.MALFORMED 0 p).fset FAB_PORT_TALLY.LAST_CAUSE 0 p code
  let n := s1.fget FAB_PORT_TALLY.LEVEL 0 p
  if n ≥ max 1 (s1.fget FAB_PORT_TALLY_CTL.BUCKET 0 p) then s1.quarantine p 0
  else s1.fset FAB_PORT_TALLY.LEVEL 0 p (n + 1)

/-- FAB_TALLY_LEAK (R372): each LEAK_MS the tally leaks one. -/
def execFabTallyLeak (port : Nat) (s : State) : Host.Outcome State Fault Refusal :=
  ok (portOk port) s
    (if s.time < (s.port port).leakAt + max 1 (s.fget FAB_PORT_TALLY_CTL.LEAK_MS 0 port) * 1000000 then s
     else (s.fset FAB_PORT_TALLY.LEVEL 0 port (s.fget FAB_PORT_TALLY.LEVEL 0 port - 1)).onPort port (fun t =>
       { t with leakAt := s.time }))

/-- PORT_QUARANTINE (R373): host software quarantines a port. -/
def execPortQuarantine (who : Accessor) (port : Nat) (s : State) : Host.Outcome State Fault Refusal :=
  ok (who.wf && portOk port) s
    (if s.portCtl who port true && s.fget FAB_PORT_CTL.QUARANTINE 0 port == 0 then s.quarantine port 1 else s)

/-- PORT_RELEASE (R373): the tally is cleared, and a quarantined or mismatched port starts again from HELLO. -/
def execPortRelease (who : Accessor) (port : Nat) (s : State) : Host.Outcome State Fault Refusal :=
  ok (who.wf && portOk port) s
    (if !s.portCtl who port true || (s.fget FAB_PORT_CTL.QUARANTINE 0 port == 0 && s.pst port != 10) then s
     else
       let s1 := (s.fset FAB_PORT_CTL.QUARANTINE 0 port 0).fset FAB_PORT_TALLY.LEVEL 0 port 0
       if s.pst port = 9 then (s1.onPort port (fun t => { t.resetLink with ctrl := t.ctrl ++ [(2, 0)] })).authStart port
       else if s.pst port = 10 then s1.authStart port
       else s1)

/-- LINK_RESET (R353): the partner has quarantined or disabled its port: the link layer restarts, and so does
authentication. -/
def execLinkReset (port cause : Nat) (s : State) : Host.Outcome State Fault Refusal :=
  ok (portOk port && (cause == 1 || cause == 2)) s
    (if !s.linkUp port then s
     else
       let s1 := s.onPort port Port.resetLink
       if s.pst port = 9 then s1 else ((s1.authStart port).relive).onPort port (fun t => { t with vcq := [] }))

/-! What a received flit says of the sender's own flits (R351, R352, R354, R356, R358). -/

/-- The replay buffer after an acknowledgement; none for one that covers a flit not sent. -/
def Port.acked (t : Port) (ack : Nat) : Option (List Flit) :=
  match t.replay.findIdx? (fun f => f.seq == ack) with
  | some i => some (t.replay.drop (i + 1))
  | none =>
    let done := match t.replay with
      | f :: _ => (f.seq + 4095) % 4096
      | [] => (t.txSeq + 4095) % 4096
    if ack = done then some t.replay else none

/-- ACK and CR_TOTAL of a good flit take effect. -/
def State.flitHeader (s : State) (p : Nat) (f : Flit) : State :=
  let s1 := s.onPort p (fun t => { t with crTot := t.crTot.set (f.crBuf % 16) (f.crTotal % 4096) })
  if !f.ackV then s1
  else match (s1.port p).acked f.ack with
    | none => s1.malformed p 4
    | some r =>
      if r.length = (s1.port p).replay.length then s1
      else s1.onPort p (fun t => { t with
        replay := r, resend := t.resend.filter (fun x => r.any (fun y => y.seq == x.seq)), stale := 0, progressAt := s.time })

/-- A replay of the given flits begins (R354); the eighth in a row without progress asks for a retrain (R356). -/
def State.replayFrom (s : State) (p : Nat) (fs : List Flit) : State :=
  if fs = [] then s
  else
    let s1 := (s.fcount FAB_PORT_COUNT2.REPLAYS 0 p).onPort p (fun t =>
      { t with resend := fs, stale := t.stale + 1, replaysUp := t.replaysUp + 1, progressAt := s.time })
    if (s1.port p).stale ≥ 8 then s1.beginRetrain p 0 else s1

/-- NAK (R354): a replay from the named flit, unless one that includes it is under way (Table 14.13). -/
def execNak (port seq : Nat) (s : State) : Host.Outcome State Fault Refusal :=
  ok (portOk port) s
    (let t := s.port port
     if !s.linkUp port || t.resend.any (fun f => f.seq == seq) then s
     else match t.replay.findIdx? (fun f => f.seq == seq) with
       | some i => s.replayFrom port (t.replay.drop i)
       | none => s)

/-- REPLAY_TIMEOUT (R354): 2 µs without progress replay from the oldest. -/
def execReplayTimeout (port : Nat) (s : State) : Host.Outcome State Fault Refusal :=
  ok (portOk port) s
    (let t := s.port port
     if s.linkUp port && t.replay != [] && decide (s.time ≥ t.progressAt + 2000) then s.replayFrom port t.replay else s)

/-- IDLE_FLIT (R353): acknowledgements and credits only. -/
def execIdleFlit (port : Nat) (f : Flit) (s : State) : Host.Outcome State Fault Refusal :=
  ok (portOk port) s
    (if !s.linkUp port || !f.crcOk then s
     else if !f.rsvd0 || f.ty != 0 then (s.flitHeader port f).malformed port 1
     else s.flitHeader port f)

/-! Receiving DATA flits (R355, R366, R371, R374). -/

/-- One NAK for the expected flit, if none is outstanding (R355). -/
def State.sendNak (s : State) (p : Nat) : State :=
  s.onPort p (fun t => if t.nakAt.isSome then t else { t with nakAt := some s.time, ctrl := t.ctrl ++ [(1, t.rxSeq)] })

/-- NAK_REPEAT (R355): 1 µs without the expected flit. -/
def execNakRepeat (port : Nat) (s : State) : Host.Outcome State Fault Refusal :=
  ok (portOk port) s
    (match (s.port port).nakAt with
     | some t0 =>
       if s.linkUp port && decide (s.time ≥ t0 + 1000) then
         s.onPort port (fun t => { t with nakAt := some s.time, ctrl := t.ctrl ++ [(1, t.rxSeq)] })
       else s
     | none => s)

/-- The SPDM message fits the LENGTH of its body bytes 8 and 9 (R367). -/
def spdmFits (m : Msg) : Bool := decide (m.body.length ≤ 4 + leNat (m.body.take 2))

/-- The malformed cause of a message's header, 0 for none (Table 14.11). -/
def State.headerCause (s : State) (p : Nat) (f : Flit) (m : Msg) : Nat :=
  if !typeOk m.ty || leNat ((f.payload.drop 7).take 1) / 16 % 16 != 0 then 1
  else if s.pst p ≠ 8 ∧ !(m.ll && f.vc == 0 && (m.ty == 0xF0 || m.ty == 0xF1)) then 5
  else if m.ty ≠ 0xF0 ∧ (m.src = s.fabAddr ∨
      (s.fget FAB_PORT_CTL.SRC_LOCK 0 p = 1 ∧ s.fget FAB_PORT_PARTNER.VALID 0 p = 1 ∧ m.src ≠ s.fget FAB_PORT_PARTNER.ADDR 0 p)) then 6
  else if m.ll && m.ty != 0xF0 && m.ty != 0xF1 then 7
  else 0

/-- The malformed cause of an accepted DATA flit, 0 for none. -/
def State.flitCause (s : State) (p : Nat) (f : Flit) : Nat :=
  let t := s.port p
  let c := classOf f.vc f.dl
  let part := t.partials.find? (fun x => x.1 == f.vc)
  if !f.rsvd0 || f.ty != 1 then 1
  else if t.held.getD c 0 + t.heldBack.getD c 0 ≥ classSize f.vc then
    (if f.vc = 0 ∧ t.heldBack.getD c 0 ≠ 0 then 8 else 2)
  else if f.len = 0 ∨ f.len > 244 ∨ f.payload.length ≠ f.len ∨ (f.eom = false ∧ f.len ≠ 244) then 3
  else match part with
    | none => if f.som then s.headerCause p f (parseMsg p f.vc f.dl f.payload) else 3
    | some (_, fs) => if f.som ∨ fs.length ≥ 32 then 3 else 0

/-- An accepted DATA flit joins its message; the last one completes it. -/
def State.acceptFlit (s : State) (p : Nat) (f : Flit) : State :=
  let t := s.port p
  let fs := ((t.partials.find? (fun x => x.1 == f.vc)).map Prod.snd).getD []
  let s1 := s.onPort p (fun t => { t with
    held := listAdd t.held (classOf f.vc f.dl) 1
    msgs := if f.som && decide (f.vc ≥ 2) then t.msgs + 1 else t.msgs
    mgmt := if f.vc = 0 then t.mgmt + 1 else t.mgmt
    partials := t.partials.filter (fun x => x.1 != f.vc) ++ (if f.eom then [] else [(f.vc, fs ++ [f])]) })
  if !f.eom then s1
  else
    let m := parseMsg p f.vc f.dl ((fs ++ [f]).map Flit.payload).flatten
    if m.ty = 0xF1 ∧ spdmFits m = false then (s1.freeFlits p f.vc f.dl (fs.length + 1)).malformed p 7
    else (s1.withInbox (s1.inbox ++ [m]))

/-- A malformed flit is discarded, with the partial message it belongs to. -/
def State.dropFlit (s : State) (p : Nat) (f : Flit) (code : Nat) : State :=
  let fs := (((s.port p).partials.find? (fun x => x.1 == f.vc)).map Prod.snd).getD []
  let s1 := s.onPort p (fun t => { t with partials := t.partials.filter (fun x => x.1 != f.vc) })
  ((s1.freeFlits p f.vc f.dl fs.length).onPort p (fun t =>
    { t with freed := listAdd t.freed (classOf f.vc f.dl) 1 })).malformed p code

/-- DATA_FLIT (R355): a flit with a bad CRC is discarded whole (R352), a duplicate discarded, a later one answered with a
NAK; the expected one is accepted, and discarded again if it is malformed (R371). -/
def execDataFlit (port : Nat) (f : Flit) (s : State) : Host.Outcome State Fault Refusal :=
  ok (portOk port && decide (f.vc < 8) && decide (f.dl < 2)) s
    (if !s.linkUp port then s
     else if !f.crcOk then s.sendNak port
     else
       let s1 := s.flitHeader port f
       if !s1.linkUp port then s1
       else
         let want := (s1.port port).rxSeq
         if f.seq % 4096 = want then
           let s2 := s1.onPort port (fun t => { t with rxSeq := (want + 1) % 4096, rxAny := true, nakAt := none })
           if s2.pst port = 9 then s2.onPort port (fun t => { t with freed := listAdd t.freed (classOf f.vc f.dl) 1 })
           else
             let c := s2.flitCause port f
             if c = 0 then s2.acceptFlit port f else s2.dropFlit port f c
         else if (want + 4096 - f.seq % 4096) % 4096 < 2048 then s1
         else s1.sendNak port)

/-- FAB_RATE_INTERVAL (R374): a new interval of the VC 2 to 7 limit, or of the VC 0 limit, begins; withheld credits are
returned. -/
def execFabRateInterval (port : Nat) (mgmt : Bool) (s : State) : Host.Outcome State Fault Refusal :=
  ok (portOk port) s
    (s.onPort port (fun t =>
      let mine (c : Nat) : Bool := if mgmt then decide (c < 2) else decide (c ≥ 4)
      { t with
        msgs := if mgmt then t.msgs else 0
        mgmt := if mgmt then 0 else t.mgmt
        freed := t.freed.mapIdx (fun c n => if mine c then n + t.heldBack.getD c 0 else n)
        heldBack := t.heldBack.mapIdx (fun c n => if mine c then 0 else n) }))

/-! Sending (R351, R353, R358, R360). -/

/-- A flit leaves with the port's ACK and its next credit count, in the FEC block being filled (R347). -/
def State.sendFlit (s : State) (p : Nat) (f : Flit) : State :=
  s.onPort p (fun t =>
    let g := { f with
      ack := (t.rxSeq + 4095) % 4096, ackV := t.rxAny, crBuf := t.crCur, crTotal := t.freed.getD t.crCur 0 % 4096 }
    { t.intoBlock (s.fget FAB_PORT_STATUS.WIDTH 0 p) g with
      last := some g
      crCur := (t.crCur + 1) % 16
      sinceIdle := if f.ty = 0 then 0 else t.sinceIdle + 1 })

/-- The first queued message of a virtual channel that may be sent on now: its class has a credit. -/
def State.eligible (s : State) (p vc : Nat) : Option Queued :=
  let t := s.port p
  match t.vcq.find? (fun q => q.m.vc == vc && (q.m.ll || s.carries q.m p)) with
  | some q => if t.replay.length < 256 ∧ t.credit vc q.m.dl > 0 then some q else none
  | none => none

/-- The next flit of a queued message is sent. -/
def State.sendData (s : State) (p : Nat) (q : Queued) : State :=
  match q.flits with
  | [] => s.onPort p (fun t => { t with vcq := t.vcq.erase q })
  | f :: fs =>
    let f2 := { f with seq := (s.port p).txSeq }
    (s.sendFlit p f2).onPort p (fun t => { t with
      txSeq := (t.txSeq + 1) % 4096
      progressAt := if t.replay = [] then s.time else t.progressAt
      replay := t.replay ++ [f2]
      sent := listAdd t.sent (classOf f.vc f.dl) 1
      vcq := if fs = [] then t.vcq.erase q
        else t.vcq.map (fun x => if x = q then { q with flits := fs, started := true } else x) })

/-- The weight of a virtual channel in the round robin. -/
def State.arbWeight (s : State) (p vc : Nat) : Nat :=
  max 1 (if vc = 2 then s.fget FAB_PORT_ARB.WEIGHT2 0 p else if vc = 3 then s.fget FAB_PORT_ARB.WEIGHT3 0 p
    else if vc = 4 then s.fget FAB_PORT_ARB.WEIGHT4 0 p else if vc = 5 then s.fget FAB_PORT_ARB.WEIGHT5 0 p
    else if vc = 6 then s.fget FAB_PORT_ARB.WEIGHT6 0 p else s.fget FAB_PORT_ARB.WEIGHT7 0 p)

/-- The virtual channel of 2 to 7 whose turn it is: the present one while its weight lasts, else the next eligible. -/
def State.arbPick (s : State) (p : Nat) : Option (Nat × Nat) :=
  let t := s.port p
  if t.arbLeft > 0 ∧ (s.eligible p t.arbVc).isSome then some (t.arbVc, t.arbLeft - 1)
  else ((List.range 6).map (fun i => 2 + (t.arbVc - 2 + 1 + i) % 6)).find? (fun v => (s.eligible p v).isSome)
    |>.map (fun v => (v, s.arbWeight p v - 1))

/-- A CTRL flit (Table 14.6). -/
def ctrlFlit (sub v : Nat) : Flit :=
  { blankFlit 2 with payload := natLE 1 sub ++ (if sub = 1 then natLE 2 v else natLE 1 v) }

/-- FLIT_SLOT (R360): a CTRL flit, else a replayed flit, else VC 1, VC 0, VC 2 to 7 by weight, else an IDLE flit, which also
comes when 2,047 flits have gone without one (R353). In LOCK a port sends IDLE flits, in LINK_INIT LINK_INIT flits
(Table 14.2). -/
def execFlitSlot (port : Nat) (s : State) : Host.Outcome State Fault Refusal :=
  ok (portOk port) s
    (let t := s.port port
     match t.ctrl with
     | (sub, v) :: rest =>
       if s.pst port < 5 ∧ t.retrain = none then s
       else if s.pst port = 5 then s.sendFlit port (blankFlit 0)
       else (s.onPort port (fun t => { t with ctrl := rest })).sendFlit port (ctrlFlit sub v)
     | [] =>
       if s.pst port = 5 then s.sendFlit port (blankFlit 0)
       else if s.pst port = 6 then s.sendFlit port (ctrlFlit 2 0)
       else if !s.linkUp port then s
       else if t.sinceIdle ≥ 2047 ∨ s.pst port = 9 then s.sendFlit port (blankFlit 0)
       else match t.resend with
         | f :: fs => (s.onPort port (fun t => { t with resend := fs })).sendFlit port f
         | [] =>
           match s.eligible port 1, s.eligible port 0, s.arbPick port with
           | some q, _, _ => s.sendData port q
           | none, some q, _ => s.sendData port q
           | none, none, some (v, left) =>
             (match s.eligible port v with
              | some q => (s.onPort port (fun t => { t with arbVc := v, arbLeft := left })).sendData port q
              | none => s)
           | none, none, none => s.sendFlit port (blankFlit 0))

/-! HELLO and authentication (R366 to R368). -/

/-- A link-local message. -/
def linkMsg (port src ty : Nat) (body : List Byte) : Msg :=
  { port := port, vc := 0, dl := 0, dest := 0, src := src, hops := 0, ord := false, ll := true, ty := ty, opening := false,
    last := false, resend := false, poison := false, stream := 0, epoch := 0, seq := 0, addr := 0, len := 0, opx := 0,
    status := 0, sent := 0, body := body }

/-- A probe. -/
def State.probeMsg (s : State) (dest id : Nat) : Msg :=
  { linkMsg 16 s.fabAddr 0xF2 (natLE 4 id) with ll := false, dest := dest }

/-- The paths that a cruise probes: each an entry, a path number, its port and its target (R370). -/
def State.probePaths (s : State) : List (Bool × Nat × Nat × Nat × Nat) :=
  let paths (g : Bool) (i dest : Nat) (e : RouteEnt) : List (Bool × Nat × Nat × Nat × Nat) :=
    (e.paths.mapIdx (fun k p => (g, i, k, p, dest))).filter (fun (_, _, _, p, _) => s.pst p == 8)
  let ms := (List.range 256).flatMap (fun i =>
    let e := s.member i
    if e.valid && !e.own then paths false i (s.fabAddr / 256 * 256 + i) e else [])
  let gs := if s.fget FAB_CRUISE_CTL.GROUP_PROBE 0 0 = 0 then [] else
    (List.range 4096).flatMap (fun i =>
      let e := s.group i
      if e.valid && !e.own then paths true i (i * 256 + s.fget FAB_GRP_TBL.PROBE_MEMBER 0 i) e else [])
  ms ++ gs

/-- PROBE_OK of path `k` of an entry set or cleared. -/
def State.setProbe (s : State) (group : Bool) (i k : Nat) (b : Bool) : State :=
  if group then s.fbitSet FAB_GRP_TBL.PROBE_OK 0 i k b else s.fbitSet FAB_MBR_TBL.PROBE_OK 0 i k b

/-- The running cruise sends a probe over every path that it has not probed yet and whose port is authenticated (R370). -/
def State.walk (s : State) : State :=
  let ps := s.probePaths.filter (fun (g, i, k, _, _) => !s.probes.any (fun q => q.group == g && q.entry == i && q.path == k))
  ps.foldl (fun t (g, i, k, p, dest) =>
    let id := t.probes.length
    let u := (t.setProbe g i k false).queueOn p (s.probeMsg dest id)
    (u.withProbes (u.probes ++ [⟨id, g, i, k, p, dest, s.time, false⟩]))) s

/-- Both sides are done: the port is authenticated (R368). -/
def State.authCheck (s : State) (p : Nat) : State :=
  let t := s.port p
  if s.pst p = 7 ∧ t.selfOk = true ∧ t.peerOk = true then (let t2 := (s.setPst p 8).relive
     if t2.cruiseAt.isSome && t2.fget BOOT_STATUS.PHASE 0 0 == 9 then t2.walk else t2) else s

/-- A port fails authentication (R368). -/
def State.authFail (s : State) (p code : Nat) : State :=
  ((((s.setPst p 11).onPort p (fun t => { t with selfOk := false, authAt := s.time })).relive).evt
    FAB_EVENT.AUTH_FAIL 0 0 1 none).fabRecord p 0x6A code 0

/-- HELLO (R368): the partner is checked; a failure sets MISMATCH. -/
def execHello (m : Msg) (s : State) : Host.Outcome State Fault Refusal :=
  ok m.wf s
    (s.onMsg m 0xF0 (fun t =>
      let p := m.port
      let (peer, flags, sys) := (leNat (m.body.take 1) % 16, leNat ((m.body.drop 1).take 1), leNat ((m.body.drop 4).take 4))
      if t.pst p < 7 ∨ t.pst p = 9 ∨ t.pst p = 10 ∨ t.pst p > 11 then t
      else
        let t1 := ((t.fset FAB_PORT_PARTNER.ADDR 0 p m.src).fset FAB_PORT_PARTNER.PORT 0 p peer).fset FAB_PORT_PARTNER.VALID 0 p 1
        let good := sys == t.fget FAB_SYS_ID.SYS_ID 0 0 && m.src != t.fabAddr &&
          (t.fget FAB_PORT_EXPECT.ANY 0 p == 1 || m.src == t.fget FAB_PORT_EXPECT.ADDR 0 p) &&
          (t.fget FAB_PORT_EXPECT.PORT_ANY 0 p == 1 || peer == t.fget FAB_PORT_EXPECT.PARTNER_PORT 0 p)
        if good then (t1.onPort p (fun x => { x with peerOk := flags.testBit 0 })).authCheck p
        else
          (((t1.setPst p 10).relive).evt FAB_EVENT.AUTH_FAIL 0 0 1 none).fabRecord p 0x6B m.src (peer + 2 ^ 32 * sys)))

/-- HELLO_TIMER (R368): each millisecond from link up until the port is live, a HELLO is sent. -/
def execHelloTimer (port : Nat) (s : State) : Host.Outcome State Fault Refusal :=
  ok (portOk port) s
    (let t := s.port port
     let st := s.pst port
     if !(st == 7 || st == 11 || (st == 8 && !s.isLive port)) || decide (s.time < t.helloAt + 1000000) then s
     else
       let m := linkMsg 16 s.fabAddr 0xF0 (natLE 1 port ++ natLE 1 (bit t.selfOk) ++ natLE 2 0 ++ natLE 4 (s.fget FAB_SYS_ID.SYS_ID 0 0))
       (s.onPort port (fun t => { t with helloAt := s.time })).queueOn port m)

/-- SPDM_MESSAGE (R367): the exchange goes on, passes (certificate times unchecked while the calendar is invalid), or
fails. -/
def execSpdmMessage (m : Msg) (verdict : Nat) (s : State) : Host.Outcome State Fault Refusal :=
  ok m.wf s
    (s.onMsg m 0xF1 (fun t =>
      let p := m.port
      if t.pst p ≠ 7 ∨ verdict = 0 then t
      else if verdict = 1 then
        let t1 := if t.fget RTC_CTL.TIME_INVALID 0 0 = 1 then t.evt FAB_EVENT.TIME_UNCHECKED 0 0 1 none else t
        (t1.onPort p (fun x => { x with selfOk := true })).authCheck p
      else t.authFail p (verdict - 1)))

/-- AUTH_TIMEOUT (R368): 2 s without success. -/
def execAuthTimeout (port : Nat) (s : State) : Host.Outcome State Fault Refusal :=
  ok (portOk port) s
    (if s.pst port = 7 ∧ s.time ≥ (s.port port).authAt + 2000000000 then s.authFail port 0xFF else s)

/-- AUTH_RETRY (R368): the exchange is tried again after 10 s. -/
def execAuthRetry (port : Nat) (s : State) : Host.Outcome State Fault Refusal :=
  ok (portOk port) s
    (if s.pst port = 11 ∧ s.time ≥ (s.port port).authAt + 10000000000 then s.authStart port else s)

/-! The cruise (R369, R370); its end is in Machine/Boot.lean. -/

/-- A run-time cruise begins its probe walk. -/
def State.cruiseStart (s : State) : State :=
  State.walk (((s.fset FAB_CRUISE_STATUS.RUNNING 0 0 1).withProbes []).withCruiseAt (some s.time))

/-- CRUISE_START (R369): a run-time cruise repeats the probe walk. -/
def execCruiseStart (who : Accessor) (s : State) : Host.Outcome State Fault Refusal :=
  ok who.wf s
    (if s.reaches who FAB_CRUISE_CTL.START 0 0 && s.fget FAB_CRUISE_STATUS.RUNNING 0 0 == 0 then s.cruiseStart else s)

/-- PROBE (R370): the device at DEST answers with the probe's id. -/
def execProbe (m : Msg) (s : State) : Host.Outcome State Fault Refusal :=
  ok m.wf s
    (s.onMsg m 0xF2 (fun t =>
      (t.routed { linkMsg 16 t.fabAddr 0xF3 (m.body.take 4) with ll := false, dest := m.src }).1))

/-- PROBE_REPLY (R370): a reply within 100 µs of its probe sets the path's PROBE_OK bit. -/
def execProbeReply (m : Msg) (s : State) : Host.Outcome State Fault Refusal :=
  ok m.wf s
    (s.onMsg m 0xF3 (fun t =>
      match t.probes.find? (fun q => q.id == leNat (m.body.take 4) && !q.answered) with
      | none => t
      | some q =>
        if t.cruiseAt.isNone || decide (t.time > q.sentAt + 100000) then t
        else
          State.setProbe (t.withProbes (t.probes.map (fun x => if x.id = q.id then { x with answered := true } else x)))
            q.group q.entry q.path true))

/-- PROBE_RESEND (R370): probes unanswered for 100 ms are sent again. -/
def execProbeResend (s : State) : Host.Outcome State Fault Refusal :=
  ok true s
    (let late := s.probes.filter (fun q => !q.answered && decide (s.time ≥ q.sentAt + 100000000) && s.pst q.port == 8)
     if s.cruiseAt.isNone then s
     else
       let t := late.foldl (fun t q => t.queueOn q.port (s.probeMsg q.dest q.id)) s
       (t.withProbes (s.probes.map (fun q => if late.contains q then { q with sentAt := s.time } else q))))

end Sys2Proof.Machine
end

