-- ==== Sys2Proof/Machine/Fp.lean ====
section
/-!
DEFINITION. Number formats and arithmetic (chapter 3): the values of element formats (Table 3.1), exact sums and products,
rounding to nearest even, conversions (Table 3.6), block quantisation (R79, R80), the exact block dot product (R71 to
R76), the vector functions (Table 3.8), the reduction tree (R83) and the sampler's numbers (R87). A value is held as its
bit pattern, a `Nat`; `Num` is what a pattern means.
-/

namespace Sys2Proof.Machine

/-- The value of a pattern: a NaN, an infinity, or `m · 2^e` with a sign, which zero has too. -/
inductive Num where
  | nan
  | inf (neg : Bool)
  | fin (neg : Bool) (m : Nat) (e : Int)
  deriving DecidableEq, Repr

/-- The formats of Table 4.4. -/
inductive Fmt where
  | fp32 | fp16 | bf16 | e4m3 | e5m2 | mxE4m3 | mxE5m2 | mxE3m2 | mxE2m3 | mxfp4 | mxint8 | abf4
  | int8 | int32 | int64 | u8 | u16 | u32
  deriving DecidableEq, Repr

/-- The format of a code of Table 4.4; a code that is absent is rejected by the loader (R96). -/
def fmtOf : Nat → Option Fmt
  | 0 => some .fp32 | 1 => some .fp16 | 2 => some .bf16 | 3 => some .e4m3 | 4 => some .e5m2
  | 5 => some .mxE4m3 | 6 => some .mxE5m2 | 7 => some .mxE3m2 | 8 => some .mxE2m3 | 9 => some .mxfp4
  | 10 => some .mxint8 | 11 => some .abf4 | 12 => some .int8 | 13 => some .int32 | 14 => some .int64
  | 15 => some .u8 | 16 => some .u16 | 17 => some .u32 | _ => none

/-- Bits of one element. -/
def Fmt.bits : Fmt → Nat
  | .fp32 | .int32 | .u32 => 32
  | .fp16 | .bf16 | .u16 => 16
  | .int64 => 64
  | .mxE3m2 | .mxE2m3 => 6
  | .mxfp4 | .abf4 => 4
  | _ => 8

/-- The format has a scale for each block of 32 elements (Table 3.2). -/
def Fmt.block : Fmt → Bool
  | .mxE4m3 | .mxE5m2 | .mxE3m2 | .mxE2m3 | .mxfp4 | .mxint8 | .abf4 => true
  | _ => false

/-- A floating-point layout: exponent and mantissa bits, bias, and the code of the largest finite value (Table 3.1). -/
structure Lay where
  eb : Nat
  mb : Nat
  bias : Nat
  top : Nat
  deriving DecidableEq, Repr

/-- The layout of a format's elements; the integer formats and MXINT8 have none. -/
def Fmt.lay : Fmt → Option Lay
  | .fp32 => some ⟨8, 23, 127, 0x7F7FFFFF⟩
  | .fp16 => some ⟨5, 10, 15, 0x7BFF⟩
  | .bf16 => some ⟨8, 7, 127, 0x7F7F⟩
  | .e4m3 | .mxE4m3 => some ⟨4, 3, 7, 0x7E⟩
  | .e5m2 | .mxE5m2 => some ⟨5, 2, 15, 0x7B⟩
  | .mxE3m2 => some ⟨3, 2, 3, 0x1F⟩
  | .mxE2m3 => some ⟨2, 3, 1, 0x1F⟩
  | .mxfp4 | .abf4 => some ⟨2, 1, 1, 0x7⟩
  | _ => none

/-- The value of a magnitude code in a layout. -/
def Lay.mag (l : Lay) (c : Nat) : Nat × Int :=
  let e := c / 2 ^ l.mb
  let m := c % 2 ^ l.mb
  if e = 0 then (m, 1 - (l.bias : Int) - l.mb)
  else (2 ^ l.mb + m, (e : Int) - l.bias - l.mb)

/-- The value of a floating-point code: above the largest finite code lie infinity (FP32, FP16, BF16, E5M2) and NaN. -/
def Lay.value (l : Lay) (c : Nat) : Num :=
  let neg := decide (c / 2 ^ (l.eb + l.mb) % 2 = 1)
  let a := c % 2 ^ (l.eb + l.mb)
  if a ≤ l.top then let (m, e) := l.mag a; .fin neg m e
  else if a = (2 ^ l.eb - 1) * 2 ^ l.mb ∧ l.top + 1 = a then .inf neg
  else .nan

/-- A two's-complement code of `w` bits as an integer. -/
def signedOf (w c : Nat) : Int := if c % 2 ^ w < 2 ^ (w - 1) then (c % 2 ^ w : Nat) else (c % 2 ^ w : Nat) - (2 : Int) ^ w

/-- The value of an integer times `2^e`. -/
def Num.ofInt (v : Int) (e : Int) : Num := .fin (decide (v < 0)) v.natAbs e

/-- The value of an element code, block and tensor scales apart (R65, R66). -/
def Fmt.value (f : Fmt) (c : Nat) : Num :=
  match f.lay with
  | some l => l.value c
  | none => match f with
    | .mxint8 => .ofInt (signedOf 8 c) (-6)
    | .int8 => .ofInt (signedOf 8 c) 0
    | .int32 => .ofInt (signedOf 32 c) 0
    | .int64 => .ofInt (signedOf 64 c) 0
    | _ => .fin false c 0

/-- The FP32 value of a pattern. -/
def f32 (c : Nat) : Num := Fmt.fp32.value c

/-- The value of an E8M0 scale code. -/
def e8m0 (c : Nat) : Num := if c = 0xFF then .nan else .fin false 1 ((c : Int) - 127)

/-- The value of an E5M3 scale code. -/
def e5m3 (c : Nat) : Num :=
  if c = 0xFF then .nan else let (m, e) := (Lay.mag ⟨5, 3, 15, 0xFE⟩ c); .fin false m e

/-- The block scale's value: E5M3 in ABF4, E8M0 in the MX formats, 1 where the format has none. -/
def Fmt.scale (f : Fmt) (c : Nat) : Num :=
  if f = .abf4 then e5m3 c else if f.block then e8m0 c else .fin false 1 0

/-- The value is zero. -/
def Num.isZero : Num → Bool
  | .fin _ m _ => m == 0
  | _ => false

/-- The value's sign bit; a NaN has none. -/
def Num.neg? : Num → Bool
  | .nan => false
  | .inf n => n
  | .fin n _ _ => n

/-- The signed integer `m` and exponent of a finite value. -/
def Num.signed : Num → Int × Int
  | .fin n m e => (if n then -(m : Int) else m, e)
  | _ => (0, 0)

/-- The exact product, by IEEE 754's rules for specials. -/
def Num.mul : Num → Num → Num
  | .nan, _ | _, .nan => .nan
  | .inf a, y => if y.isZero then .nan else .inf (a != y.neg?)
  | x, .inf b => if x.isZero then .nan else .inf (x.neg? != b)
  | .fin a m e, .fin b n f => .fin (a != b) (m * n) (e + f)

/-- Two signed integers with exponents, over their lower exponent. -/
def addExp (a b : Int × Int) : Int × Int :=
  if a.2 ≤ b.2 then (a.1 + b.1 * 2 ^ (b.2 - a.2).toNat, a.2)
  else (a.1 * 2 ^ (a.2 - b.2).toNat + b.1, b.2)

/-- The exact sum; an exact zero is +0 unless both operands are −0 or negative zeros alone (IEEE 754, nearest). -/
def Num.add : Num → Num → Num
  | .nan, _ | _, .nan => .nan
  | .inf a, .inf b => if a = b then .inf a else .nan
  | .inf a, _ => .inf a
  | _, .inf b => .inf b
  | .fin a m e, .fin b n f =>
    if m = 0 ∧ n = 0 then .fin (a && b) 0 0
    else
      let (v, x) := addExp (Num.fin a m e).signed (Num.fin b n f).signed
      .fin (decide (v < 0)) v.natAbs x

/-- The value with its sign turned. -/
def Num.negate : Num → Num
  | .nan => .nan
  | .inf a => .inf !a
  | .fin a m e => .fin (!a) m e

/-- `x` is less than `y`, with −0 below +0 (Table 3.8); false for a NaN. -/
def Num.lt : Num → Num → Bool
  | .nan, _ | _, .nan => false
  | .inf a, .inf b => a && !b
  | .inf a, _ => a
  | _, .inf b => !b
  | .fin a m e, .fin b n f =>
    if m = 0 ∧ n = 0 then a && !b
    else
      let x := (Num.fin a m e).signed
      let y := (Num.fin b n f).signed
      let d := addExp x (-y.1, y.2)
      decide (d.1 < 0)

/-- The larger value, exact; a NaN propagates. -/
def Num.max (x y : Num) : Num :=
  match x, y with
  | .nan, _ | _, .nan => .nan
  | _, _ => if x.lt y then y else x

/-- The smaller value, exact; a NaN propagates. -/
def Num.min (x y : Num) : Num :=
  match x, y with
  | .nan, _ | _, .nan => .nan
  | _, _ => if y.lt x then y else x

/-- The exact quotient as a value over a positive divisor: x ÷ y = v ÷ d. -/
def Num.quo : Num → Num → Num × Nat
  | .nan, _ | _, .nan => (.nan, 1)
  | .inf a, y => match y with
    | .inf _ => (.nan, 1)
    | _ => (.inf (a != y.neg?), 1)
  | .fin a _ _, .inf b => (.fin (a != b) 0 0, 1)
  | .fin a m e, .fin b n f =>
    if n = 0 then (if m = 0 then (.nan, 1) else (.inf (a != b), 1))
    else (.fin (a != b) m (e - f), n)

/-! Rounding. -/

/-- The quotient of two naturals rounded to the nearest integer, ties to even. -/
def rneDiv (n d : Nat) : Nat :=
  let q := n / d
  let r := 2 * (n % d)
  if d < r then q + 1 else if r = d then q + q % 2 else q

/-- floor(log2(n / d)) for positive n and d. -/
def log2Div (n d : Nat) : Int :=
  let l : Int := (n.log2 : Int) - d.log2
  let below := if l ≥ 0 then decide (n < d * 2 ^ l.toNat) else decide (n * 2 ^ (-l).toNat < d)
  if below then l - 1 else l

/-- `n · 2^e / d` rounded to the nearest integer, ties to even. -/
def rneInt (n d : Nat) (e : Int) : Nat :=
  if e ≥ 0 then rneDiv (n * 2 ^ e.toNat) d else rneDiv n (d * 2 ^ (-e).toNat)

/-- The magnitude code of `n · 2^e / d` in a layout, rounded with unbounded exponent; subnormals at their own step. It may
lie above the largest finite code: that is overflow. -/
def Lay.round (l : Lay) (n d : Nat) (e : Int) : Nat :=
  if n = 0 then 0
  else
    let low : Int := 1 - (l.bias : Int) - l.mb
    let q := Max.max (log2Div n d + e - l.mb) low
    rneInt n d (e - q) + (q - low).toNat * 2 ^ l.mb

/-- What a conversion gives: the code, and whether it saturated, turned a NaN to zero, or wrote a NaN. -/
structure Cvt where
  code : Nat
  sat : Bool := false
  nanToZero : Bool := false
  nan : Bool := false
  deriving DecidableEq, Repr

/-- A sign bit above a layout's magnitude code. -/
def Lay.sign (l : Lay) (neg : Bool) (c : Nat) : Nat := if neg then c + 2 ^ (l.eb + l.mb) else c

/-- Conversion of `x / d` to FP32, FP16 or BF16 (Table 3.6). -/
def Lay.toWide (l : Lay) (x : Num) (d : Nat) : Cvt :=
  let infc := (2 ^ l.eb - 1) * 2 ^ l.mb
  match x with
  | .nan => { code := infc + 2 ^ (l.mb - 1), nan := true }
  | .inf a => { code := l.sign a infc }
  | .fin a m e =>
    let c := l.round m d e
    { code := l.sign a (if c > l.top then infc else c) }

/-- Conversion of `x / d` to an FP8 format: `beyond` is what overflow and infinity give without saturation. -/
def Lay.toFp8 (l : Lay) (nanc : Nat) (beyond : Bool → Cvt) (nonsat : Bool) (x : Num) (d : Nat) : Cvt :=
  let lim (a : Bool) : Cvt := if nonsat then beyond a else { code := l.sign a l.top, sat := true }
  match x with
  | .nan => { code := nanc, nan := true }
  | .inf a => lim a
  | .fin a m e => let c := l.round m d e; if c > l.top then lim a else { code := l.sign a c }

/-- Conversion of `x / d` to E3M2, E2M3 or E2M1. -/
def Lay.toSmall (l : Lay) (x : Num) (d : Nat) : Cvt :=
  match x with
  | .nan => { code := 0, nanToZero := true }
  | .inf a => { code := l.sign a l.top, sat := true }
  | .fin a m e => let c := l.round m d e
    if c > l.top then { code := l.sign a l.top, sat := true } else { code := l.sign a c }

/-- Conversion of `x / d` to an integer between −`lo` and `hi`, as a code of `w` bits. -/
def toIntCode (w lo hi : Nat) (x : Num) (d : Nat) : Cvt :=
  let neg (v : Nat) : Nat := (2 ^ w - v % 2 ^ w) % 2 ^ w
  match x with
  | .nan => { code := 0, nanToZero := true }
  | .inf a => { code := if a then neg lo else hi, sat := true }
  | .fin a m e =>
    let v := rneInt m d e
    if a then (if v > lo then { code := neg lo, sat := true } else { code := neg v })
    else (if v > hi then { code := hi, sat := true } else { code := v })

/-- The conversion of `x / d` into an element of a format (R78, Table 3.6). -/
def Fmt.cvt (f : Fmt) (nonsat : Bool) (x : Num) (d : Nat) : Cvt :=
  match f with
  | .fp32 => Lay.toWide ⟨8, 23, 127, 0x7F7FFFFF⟩ x d
  | .fp16 => Lay.toWide ⟨5, 10, 15, 0x7BFF⟩ x d
  | .bf16 => Lay.toWide ⟨8, 7, 127, 0x7F7F⟩ x d
  | .e4m3 => Lay.toFp8 ⟨4, 3, 7, 0x7E⟩ 0x7F (fun _ => { code := 0x7F, nan := true }) nonsat x d
  | .mxE4m3 => Lay.toFp8 ⟨4, 3, 7, 0x7E⟩ 0x7F (fun _ => { code := 0x7F, nan := true }) false x d
  | .e5m2 => Lay.toFp8 ⟨5, 2, 15, 0x7B⟩ 0x7E (fun a => { code := if a then 0xFC else 0x7C }) nonsat x d
  | .mxE5m2 => Lay.toFp8 ⟨5, 2, 15, 0x7B⟩ 0x7E (fun a => { code := if a then 0xFC else 0x7C }) false x d
  | .mxE3m2 => Lay.toSmall ⟨3, 2, 3, 0x1F⟩ x d
  | .mxE2m3 => Lay.toSmall ⟨2, 3, 1, 0x1F⟩ x d
  | .mxfp4 | .abf4 => Lay.toSmall ⟨2, 1, 1, 0x7⟩ x d
  | .mxint8 =>
    let y := match x with
      | .fin a m e => Num.fin a m (e + 6)
      | z => z
    toIntCode 8 127 127 y d
  | .int8 => toIntCode 8 128 127 x d
  | .int32 => toIntCode 32 (2 ^ 31) (2 ^ 31 - 1) x d
  | .int64 => toIntCode 64 (2 ^ 63) (2 ^ 63 - 1) x d
  | .u8 => toIntCode 8 0 (2 ^ 8 - 1) x d
  | .u16 => toIntCode 16 0 (2 ^ 16 - 1) x d
  | .u32 => toIntCode 32 0 (2 ^ 32 - 1) x d

/-- The FP32 pattern of a value (RNE_FP32). -/
def Num.rne32 (x : Num) : Nat := (Fmt.fp32.cvt false x 1).code

/-- The FP32 pattern of `x / d`. -/
def Num.rne32Q (x : Num × Nat) : Nat := (Fmt.fp32.cvt false x.1 x.2).code

/-! FP32 operations on patterns (Table 3.8, CR rows). -/

/-- Correctly rounded FP32 addition. -/
def add32 (a b : Nat) : Nat := ((f32 a).add (f32 b)).rne32
/-- Correctly rounded FP32 subtraction. -/
def sub32 (a b : Nat) : Nat := ((f32 a).add (f32 b).negate).rne32
/-- Correctly rounded FP32 multiplication. -/
def mul32 (a b : Nat) : Nat := ((f32 a).mul (f32 b)).rne32
/-- Correctly rounded FP32 division. -/
def div32 (a b : Nat) : Nat := Num.rne32Q ((f32 a).quo (f32 b))
/-- Correctly rounded FP32 square root: the root of an even power of two's multiple, with a sticky bit for what is cut. -/
def sqrt32 (a : Nat) : Nat :=
  match f32 a with
  | .nan => 0x7FC00000
  | .inf neg => if neg then 0x7FC00000 else 0x7F800000
  | .fin neg m e =>
    if m = 0 then a
    else if neg then 0x7FC00000
    else
      let (n, x) := if e % 2 = 0 then (m * 2 ^ 64, e) else (m * 2 ^ 65, e - 1)
      let r := Nat.sqrt n
      (Num.fin false (2 * r + (if r * r = n then 0 else 1)) (x / 2 - 33)).rne32
/-- Fused multiply-add: one rounding. -/
def fma32 (a b c : Nat) : Nat := (((f32 a).mul (f32 b)).add (f32 c)).rne32
/-- The larger of two FP32 values. -/
def max32 (a b : Nat) : Nat := ((f32 a).max (f32 b)).rne32
/-- The smaller of two FP32 values. -/
def min32 (a b : Nat) : Nat := ((f32 a).min (f32 b)).rne32
/-- The pattern is a NaN. -/
def isNan32 (a : Nat) : Bool := f32 a == .nan
/-- FP32 1.0. -/
def one32 : Nat := 0x3F800000
/-- FP32 −Inf. -/
def negInf32 : Nat := 0xFF800000
/-- FP32 +Inf. -/
def inf32 : Nat := 0x7F800000
/-- The canonical FP32 NaN (R65). -/
def nan32 : Nat := 0x7FC00000

/-- A function that Table 3.8 gives by a bound, at an FP32 pattern that is no special: its value on this part is the
constant `g` of Config, with NaNs canonical. -/
def bounded (g : BitVec 32 → BitVec 32) (a : Nat) : Nat := (f32 (g (BitVec.ofNat 32 a)).toNat).rne32

/-- A nonzero magnitude m · 2^e with its factors of two in the exponent, so that equal values are equal arguments. -/
def oddPart : Nat → Nat → Int → Nat × Int
  | 0, m, e => (m, e)
  | n + 1, m, e => if m % 2 = 0 ∧ m ≠ 0 then oddPart n (m / 2) (e + 1) else (m, e)

/-- A function of an exact nonzero value that Table 3.8 gives by a bound. -/
def boundedExact (g : Bool → Nat → Int → BitVec 32) (a : Bool) (m : Nat) (e : Int) : Nat :=
  let (m', e') := oddPart m.log2 m e
  (f32 (g a m' e').toNat).rne32

/-- exp2 of an exact value: the specials as IEEE 754 gives them, 1 at zero (R127), +0 where the result is below 2^-149
(Table 3.8), the rest by its bound. -/
def exp2Of (x : Num) : Nat :=
  match x with
  | .nan => nan32
  | .inf neg => if neg then 0 else inf32
  | .fin neg m e => if m = 0 then one32 else if x.lt (.fin true 149 0) then 0 else boundedExact Config.exp2 neg m e

/-- The vector unit's exp2. -/
def exp2v (a : Nat) : Nat := exp2Of (f32 a)

/-- exp: exp2 of x × log2(e), the product carried to 40 bits (Table 3.8). -/
def expv (a : Nat) : Nat :=
  match f32 a with
  | .fin neg m e =>
    if m = 0 then one32
    else
      let (m', e') := oddPart m.log2 m e
      let (p, q) := Config.log2eTimes m' e'
      exp2Of (.fin neg p.toNat q)
  | x => exp2Of x

/-- A logarithm that Table 3.8 gives by a bound, its specials as IEEE 754 gives them. -/
def logBy (g : BitVec 32 → BitVec 32) (a : Nat) : Nat :=
  match f32 a with
  | .nan => nan32
  | .inf neg => if neg then nan32 else inf32
  | .fin neg m _ => if m = 0 then negInf32 else if neg then nan32 else if a = one32 then 0 else bounded g a

/-- The natural logarithm. -/
def logv (a : Nat) : Nat := logBy Config.log a

/-- The base-2 logarithm. -/
def log2v (a : Nat) : Nat := logBy Config.log2 a

/-- tanh. -/
def tanhv (a : Nat) : Nat :=
  match f32 a with
  | .nan => nan32
  | .inf neg => if neg then 0xBF800000 else one32
  | .fin _ m _ => if m = 0 then a else bounded Config.tanh a

/-- The sigmoid. -/
def sigmoidv (a : Nat) : Nat :=
  match f32 a with
  | .nan => nan32
  | .inf neg => if neg then 0 else one32
  | .fin _ _ _ => bounded Config.sigmoid a

/-- SiLU; its value at −Inf, which x × sigmoid(x) does not settle, is the part's own. -/
def siluv (a : Nat) : Nat :=
  match f32 a with
  | .nan => nan32
  | .inf false => inf32
  | _ => bounded Config.silu a

/-- GELU, erf form. -/
def geluErfv (a : Nat) : Nat :=
  match f32 a with
  | .nan => nan32
  | .inf false => inf32
  | _ => bounded Config.geluErf a

/-- GELU, tanh form. -/
def geluTanhv (a : Nat) : Nat :=
  match f32 a with
  | .nan => nan32
  | .inf false => inf32
  | _ => bounded Config.geluTanh a

/-- The reciprocal. -/
def recipv (a : Nat) : Nat :=
  match f32 a with
  | .nan => nan32
  | .inf neg => if neg then 0x80000000 else 0
  | .fin neg m _ => if m = 0 then (if neg then negInf32 else inf32) else bounded Config.recip a

/-- The reciprocal square root. -/
def rsqrtv (a : Nat) : Nat :=
  match f32 a with
  | .nan => nan32
  | .inf neg => if neg then nan32 else 0
  | .fin neg m _ => if m = 0 then (if neg then negInf32 else inf32) else if neg then nan32 else bounded Config.rsqrt a

/-- The sine of an exact angle. -/
def sinv (x : Num) : Nat :=
  match x with
  | .fin a m e => if m = 0 then (if a then 0x80000000 else 0) else boundedExact Config.sin a m e
  | _ => nan32

/-- The cosine of an exact angle. -/
def cosv (x : Num) : Nat :=
  match x with
  | .fin a m e => if m = 0 then one32 else boundedExact Config.cos a m e
  | _ => nan32

/-! The reduction tree (R83). -/

/-- One level of the tree: elements 2i and 2i + 1 combined, an odd one passed on. -/
def treeLevel {α : Type} (f : α → α → α) : List α → List α
  | a :: b :: t => f a b :: treeLevel f t
  | l => l

/-- `n` levels of the tree. -/
def treeN {α : Type} (f : α → α → α) : Nat → List α → List α
  | 0, l => l
  | n + 1, l => treeN f n (treeLevel f l)

/-- The tree over one operand's elements; `z` for none. -/
def tree {α : Type} (f : α → α → α) (z : α) (l : List α) : α := (treeN f l.length l).headD z

/-- A list cut into segments of `n`. -/
def segs {α : Type} (n : Nat) : Nat → List α → List (List α)
  | 0, _ => []
  | k + 1, l => if l.isEmpty then [] else l.take n :: segs n k (l.drop n)

/-- A reduction over more than one vector operation: each 256-element segment, then the segments' results. -/
def treeSeg {α : Type} (f : α → α → α) (z : α) (l : List α) : α :=
  tree f z ((segs 256 l.length l).map (tree f z))

/-! Block quantisation (R79, R80, R503). -/

/-- A quantised block: its scale code, its elements, and whether the scale was clamped. -/
structure QBlock where
  scale : Nat
  elems : List Cvt
  scaleSat : Bool := false
  deriving DecidableEq, Repr

/-- The largest magnitude of finite values, as a value. -/
def amaxOf (xs : List Num) : Num :=
  xs.foldl (fun a x => match x with
    | .fin _ m e => a.max (.fin false m e)
    | _ => a) (.fin false 0 0)

/-- Some value is infinite or NaN. -/
def anySpecial (xs : List Num) : Bool :=
  xs.any (fun x => match x with
    | .fin _ _ _ => false
    | _ => true)

/-- emax of R79. -/
def Fmt.emax : Fmt → Int
  | .mxE4m3 => 8
  | .mxE5m2 => 15
  | .mxE3m2 => 4
  | .mxE2m3 => 2
  | .mxfp4 => 2
  | _ => 0

/-- The block of values `x_k / d` quantised into an MX format (R79). -/
def quantMx (f : Fmt) (xs : List Num) (d : Nat) : QBlock :=
  if anySpecial xs then ⟨0xFF, xs.map (fun _ => { code := 0 }), false⟩
  else
    match amaxOf xs with
    | .fin _ m e =>
      let raw : Int := if m = 0 then 0 else log2Div m d + e - f.emax + 127
      let code := if raw < 0 then 0 else if raw > 254 then 254 else raw.toNat
      ⟨code, xs.map (fun x => match x with
        | .fin a n k => f.cvt false (.fin a n (k - ((code : Int) - 127))) d
        | y => f.cvt false y d), decide (raw > 254)⟩
    | _ => ⟨0, [], false⟩

/-- `n · 2^e / d` is at most the value of scale code `c`. -/
def leScale (n d : Nat) (e : Int) (c : Nat) : Bool :=
  match e5m3 c with
  | .fin _ m k =>
    if e ≥ k then decide (n * 2 ^ (e - k).toNat ≤ m * d) else decide (n ≤ m * d * 2 ^ (k - e).toNat)
  | _ => false

/-- The block of values `x_k / d` quantised into ABF4 with tensor scale `t` (R80). -/
def quantAbf4 (xs : List Num) (d : Nat) (t : Num) : QBlock :=
  if anySpecial xs then ⟨0xFF, xs.map (fun _ => { code := 0 }), false⟩
  else
    match amaxOf xs, t with
    | .fin _ m e, .fin _ tm te =>
      let den := d * 6 * tm
      match (List.range 0xFF).find? (leScale m den (e - te)) with
      | some 0 => ⟨0, xs.map (fun _ => { code := 0 }), false⟩
      | found =>
        let s := found.getD 0xFE
        match e5m3 s with
        | .fin _ sm se =>
          ⟨s, xs.map (fun x => match x with
            | .fin a n k => Fmt.abf4.cvt false (.fin a n (k - se - te)) (d * sm * tm)
            | y => Fmt.abf4.cvt false y 1), found.isNone⟩
        | _ => ⟨s, [], false⟩
    | _, _ => ⟨0xFF, xs.map (fun _ => { code := 0 }), false⟩

/-! The block dot product (R71 to R76). -/

/-- A value is an infinity. -/
def Num.isInf : Num → Bool
  | .inf _ => true
  | _ => false

/-- Floor of the base-2 logarithm of a nonzero finite value's magnitude. -/
def Num.log2 : Num → Option Int
  | .fin _ m e => if m = 0 then none else some ((m.log2 : Int) + e)
  | _ => none

/-- A magnitude with the bits below `2^k` dropped (R75). -/
def Num.trunc (k : Int) : Num → Num
  | .fin a m e => if e ≥ k then .fin a m e else .fin a (m / 2 ^ (k - e).toNat) k
  | x => x

/-- The exact sum of finite values as a signed integer and exponent. -/
def exactSum (ps : List Num) : Int × Int := ps.foldl (fun a p => addExp a p.signed) (0, 0)

/-- The products of a block, truncated in the anchored path to E − 48 (R75). -/
def anchor (anchored : Bool) (ps : List Num) : List Num :=
  if anchored then
    match (ps.filterMap Num.log2).foldl (fun (m : Option Int) x => some (match m with
        | none => x
        | some y => Max.max x y)) none with
    | none => ps
    | some e => ps.map (Num.trunc (e - 48))
  else ps

/-- The block's term (R72, Table 3.4): the element values, then the two block scales and the two tensor scales. -/
def blockTerm (anchored : Bool) (as ws : List Num) (sa sw ta tw : Num) : Num :=
  let scales := [sa, sw, ta, tw]
  let ps := List.zipWith Num.mul as ws
  if as.any (· == .nan) || ws.any (· == .nan) || scales.any (· == .nan) then .nan
  else if ps.any (· == .nan) then .nan
  else if ps.any (· == .inf true) && ps.any (· == .inf false) then .nan
  else if ps.any (· == .inf true) then .inf true
  else if ps.any (· == .inf false) then .inf false
  else
    let b := exactSum (anchor anchored ps)
    let v := Num.ofInt b.1 b.2
    if ta.isInf || tw.isInf then
      (if ((v.mul sa).mul sw).isZero then .nan else .inf ((v.neg? != ta.neg?) != tw.neg?))
    else (((v.mul sa).mul sw).mul ta).mul tw

/-- The accumulator entry after a block (R72, R73), and whether it overflowed (R74). -/
def accumulate (acc : Nat) (t : Num) : Nat × Bool :=
  if t.isZero then (acc, false)
  else
    let r := ((f32 acc).add t).rne32
    let ovf := match f32 acc, t with
      | .fin _ _ _, .fin _ _ _ => (f32 r).isInf
      | _, _ => false
    (r, ovf)

/-- The INT32 entry after a block's products (R76), and whether it saturated. -/
def accumulateInt (acc : Nat) (as ws : List Num) : Nat × Bool :=
  let v := (exactSum (List.zipWith Num.mul as ws)).1 + signedOf 32 acc
  if v > 2 ^ 31 - 1 then (2 ^ 31 - 1, true)
  else if v < -(2 ^ 31) then (2 ^ 31, true)
  else ((v % 2 ^ 32).toNat, false)

/-! The memory-side adders and REDUCE (Table 3.9): `op` 0 add, 1 max, 2 min; `ty` 0 FP32, 1 BF16, 2 INT32, 3 INT64. -/

/-- Bytes of an adder type. -/
def adderBytes (ty : Nat) : Nat := if ty = 1 then 2 else if ty = 3 then 8 else 4

/-- The exact larger or smaller of two values of a format. -/
def pick (f : Fmt) (op a b : Nat) : Nat :=
  let r := if op = 1 then (f.value a).max (f.value b) else (f.value a).min (f.value b)
  (f.cvt false r 1).code

/-- One element combined with one element in memory. -/
def adder (op ty a b : Nat) : Nat :=
  if ty = 0 then (if op = 0 then add32 a b else pick .fp32 op a b)
  else if ty = 1 then
    (if op = 0 then
      (Fmt.bf16.cvt false (f32 (((Fmt.bf16.value a).add (Fmt.bf16.value b)).rne32)) 1).code
     else pick .bf16 op a b)
  else
    let f := if ty = 3 then Fmt.int64 else Fmt.int32
    if op = 0 then (a + b) % 2 ^ f.bits else pick f op a b

/-! The sampler's random numbers (R87). -/

/-- 64-bit left rotation. -/
def rotl64 (x k : Nat) : Nat := (x * 2 ^ k + x / 2 ^ (64 - k)) % 2 ^ 64

/-- One round of the generator. -/
def rngRound (p : Nat × Nat) : Nat × Nat :=
  let x1 := (p.1 + p.2) % 2 ^ 64
  let x2 := ((x1 ^^^ (x1 >>> 29)) * 0xA3C59E17_6B2D41F3) % 2 ^ 64
  let y1 := rotl64 p.2 23 ^^^ x2
  let y2 := ((y1 ^^^ (y1 >>> 31)) * 0x5D1E83B7_C94A2E6D) % 2 ^ 64
  (x2, y2)

/-- The draw u for key K and counter words C0 and C1, as an FP32 pattern. -/
def rngDraw (k c0 c1 : Nat) : Nat :=
  let p := rngRound (rngRound (rngRound (rngRound (c0 ^^^ k, c1 ^^^ rotl64 k 32))))
  let x := p.1 ^^^ (p.2 >>> 32)
  (Num.fin false (x >>> 40) (-24)).rne32

/-- The counter word C1: slot, generation and draw index. -/
def rngC1 (slot gen idx : Nat) : Nat := slot % 2 ^ 15 * 2 ^ 48 + gen % 2 ^ 16 * 2 ^ 32 + idx % 256

end Sys2Proof.Machine
end

