-- ==== Sys2Proof/Machine/Flags.lean ====
section
/-!
DEFINITION. The numeric conditions of a tile (R88): what the conversions and accumulations of an operator add up to, and
how they reach TILE_NUM_EVENT and TILE_NUM_COUNT.
-/

namespace Sys2Proof.Machine

/-- The numeric conditions an operator has met: elements written as NaN and elements saturated are counted, the other
conditions are bits. `special` is set too by a block whose scale is written as NaN, which no flag reports (R503). -/
structure NumEv where
  nans : Nat := 0
  sats : Nat := 0
  scaleSat : Bool := false
  nanLogit : Bool := false
  accOvf : Bool := false
  intSat : Bool := false
  nanToZero : Bool := false
  invalid : Bool := false
  special : Bool := false
  deriving DecidableEq, Repr

/-- The conditions of one conversion. -/
def Cvt.ev (c : Cvt) : NumEv :=
  { nans := if c.nan then 1 else 0, sats := if c.sat then 1 else 0, nanToZero := c.nanToZero, special := c.nan }

/-- Two sets of conditions together. -/
def NumEv.join (a b : NumEv) : NumEv :=
  { nans := a.nans + b.nans, sats := a.sats + b.sats, scaleSat := a.scaleSat || b.scaleSat,
    nanLogit := a.nanLogit || b.nanLogit, accOvf := a.accOvf || b.accOvf, intSat := a.intSat || b.intSat,
    nanToZero := a.nanToZero || b.nanToZero, invalid := a.invalid || b.invalid, special := a.special || b.special }

/-- The conditions of many conversions. -/
def evOf (cs : List Cvt) : NumEv := cs.foldl (fun a c => a.join c.ev) {}

/-- The state with an event bit of a tile's one-bit event field set when `b`. -/
def State.flagIf (s : State) (f : Field) (j : Nat) (b : Bool) : State := if b then s.fset f j 0 1 else s

/-- The conditions reach the tile's registers: each sets its bit, saturated and NaN elements are counted (R88, R89). SAT_COUNT
takes the elements that a conversion saturates; an accumulator entry that saturates or overflows sets its bit alone (DESIGN
CHOICE, assumption 76). -/
def State.numEv (s : State) (j : Nat) (e : NumEv) : State :=
  let s1 := (s.flagIf TILE_NUM_EVENT.NAN_OUT j (e.nans > 0 || e.nanLogit)).flagIf TILE_NUM_EVENT.ACC_OVF j e.accOvf
  let s2 := (s1.flagIf TILE_NUM_EVENT.INT_SAT j e.intSat).flagIf TILE_NUM_EVENT.SAT j (e.sats > 0 || e.scaleSat)
  let s3 := (s2.flagIf TILE_NUM_EVENT.NAN_TO_ZERO j e.nanToZero).flagIf TILE_NUM_EVENT.SAMPLE_INVALID j e.invalid
  (s3.fcountN TILE_NUM_COUNT.SAT_COUNT j 0 e.sats).fcountN TILE_NUM_COUNT.NAN_COUNT j 0 e.nans

/-- The operator's output makes it end in fault: it holds a NaN and TILE_NUM_CTL.NAN_FAULT is 1 (R88). -/
def State.nanFaults (s : State) (j : Nat) (e : NumEv) : Bool :=
  e.special && s.fget TILE_NUM_CTL.NAN_FAULT j 0 == 1

end Sys2Proof.Machine
end

