-- ==== Sys2Proof/Machine/Operands.lean ====
section
/-!
DEFINITION. What a descriptor's operands name: fields of descriptors, runs and slots (Tables 4.1 to 4.11), a thread's
current operator (R92), slot elements (R68, R102), semaphores (R107), and what becomes of a thread when its operator ends,
faults or is retried (R93, R114).
-/

namespace Sys2Proof.Machine

/-- The `n`-byte little-endian field at byte `off` of a packed structure (R7). -/
def fld (d off n : Nat) : Nat := d / 256 ^ off % 256 ^ n

/-! Graphs, runs, slots. -/

/-- The key of run or slot `k` of a tile in a graph of a partition. -/
def graphKey (p g j k : Nat) : Nat := ((p * 16 + g) * 64 + j) * 256 + k

/-- The run entries of a tile that a thread walks, in table order (R92). -/
def State.threadRuns (s : State) (p g j t : Nat) : List Nat :=
  ((List.range 256).map (fun k => Tbl.get 0 s.img.runs (graphKey p g j k))).filter
    (fun r => fld r 2 2 != 0 && fld r 6 1 % 16 == t)

/-- The tile takes part in the graph: its stage table is not empty (R90). -/
def State.takesPart (s : State) (p g j : Nat) : Bool :=
  (List.range 256).any (fun k => fld (Tbl.get 0 s.img.runs (graphKey p g j k)) 2 2 != 0)

/-- A slot (Table 4.11). -/
structure Slot where
  loc : Nat
  cols : Nat
  rows : Nat
  fmt : Fmt
  deriving DecidableEq, Repr

/-- Slot `n` of a tile in a graph; 0 names none (R97). -/
def State.slotOf (s : State) (p g j n : Nat) : Option Slot :=
  let e := Tbl.get 0 s.img.slots (graphKey p g j n)
  if n = 0 ∨ e = 0 then none
  else match fmtOf (fld e 10 1) with
    | some f => some ⟨fld e 0 3, fld e 4 4, fld e 8 2, f⟩
    | none => none

/-- Bytes rounded up to whole 64 B. -/
def up64 (n : Nat) : Nat := (n + 63) / 64 * 64

/-- Bytes that `n` packed elements of a format take (R68). -/
def Fmt.packed (f : Fmt) (n : Nat) : Nat := (n * f.bits + 7) / 8

/-- The row pitch of a slot (R102). -/
def Slot.pitch (sl : Slot) : Nat := up64 (sl.fmt.packed sl.cols)

/-- The pitch of its scale rows: none without block scales. -/
def Slot.scalePitch (sl : Slot) : Nat := if sl.fmt.block then up64 ((sl.cols + 31) / 32) else 0

/-- Bytes of a slot: the element rows, then the scale rows. -/
def Slot.size (sl : Slot) : Nat := sl.rows * (sl.pitch + sl.scalePitch)

/-- Working-store offset of row `r`. -/
def Slot.rowAt (sl : Slot) (r : Nat) : Nat := sl.loc + r * sl.pitch

/-- Working-store offset of the scales of row `r`. -/
def Slot.scaleAt (sl : Slot) (r : Nat) : Nat := sl.loc + sl.rows * sl.pitch + r * sl.scalePitch

/-- The codes of `n` packed elements, from the number their bytes spell (R68). -/
def unpack (f : Fmt) (v : Nat) : Nat → List Nat
  | 0 => []
  | n + 1 => v % 2 ^ f.bits :: unpack f (v / 2 ^ f.bits) n

/-- Codes packed with no gaps: the number their bytes spell. -/
def packCodes (f : Fmt) : List Nat → Nat
  | [] => 0
  | c :: cs => c % 2 ^ f.bits + 2 ^ f.bits * packCodes f cs

/-- A row read from memory: element values without scales, the values of its block scales, and whether a word of it was
poisoned or uncorrectable. -/
structure Row where
  elems : List Num
  scales : List Num
  bad : Bool
  deriving DecidableEq, Repr

/-- The row of `n` elements whose packed elements lie at one place and whose block scales lie at another. -/
def State.rowFrom (s : State) (f : Fmt) (at_ sat n : Nat) : Row :=
  let (bs, bad) := s.look at_ (f.packed n)
  let nb := if f.block then (n + 31) / 32 else 0
  let (ss, sbad) := s.look sat nb
  ⟨(unpack f (leNat bs) n).map f.value, ss.map (fun b => f.scale b.toNat), bad || sbad⟩

/-- Row `r` of a slot of tile `j`. -/
def State.slotRow (s : State) (j : Nat) (sl : Slot) (r : Nat) : Row :=
  s.rowFrom sl.fmt (wsAt j (sl.rowAt r)) (wsAt j (sl.scaleAt r)) sl.cols

/-- The value of element `k` of a row: element times block scale (R67, tensor scale apart). -/
def Row.value (r : Row) (k : Nat) : Num :=
  match r.scales with
  | [] => r.elems.getD k .nan
  | _ => (r.elems.getD k .nan).mul (r.scales.getD (k / 32) .nan)

/-- The values of a row's elements. -/
def Row.values (r : Row) : List Num := (List.range r.elems.length).map r.value

/-- The FP32 patterns of a row's values: what the vector unit works on. -/
def Row.f32s (r : Row) : List Nat := r.values.map Num.rne32

/-- A slot's elements in element order, as FP32 patterns, and whether any row was bad (R100). -/
def State.slotF32 (s : State) (j : Nat) (sl : Slot) : List Nat × Bool :=
  let rs := (List.range sl.rows).map (s.slotRow j sl)
  ((rs.map Row.f32s).flatten, rs.any Row.bad)

/-- The codes of a slot's row as they are stored (integer slots). -/
def State.slotCodes (s : State) (j : Nat) (sl : Slot) (r : Nat) : List Nat × Bool :=
  let (bs, bad) := s.look (wsAt j (sl.rowAt r)) (sl.fmt.packed sl.cols)
  (unpack sl.fmt (leNat bs) sl.cols, bad)

/-- A conversion of a run of values for a destination: codes with their packed bytes, scale bytes, conditions. -/
structure Packed where
  bytes : List Byte
  scales : List Byte
  ev : NumEv
  deriving DecidableEq, Repr

/-- Values `x / d` converted to a format (R78 to R80), block formats by blocks of 32; `t` is the tensor scale of ABF4. -/
def packRow (f : Fmt) (nonsat : Bool) (d : Nat) (t : Num) (xs : List Num) : Packed :=
  if f.block then
    let qs := (segs 32 xs.length xs).map (fun b => if f = .abf4 then quantAbf4 b d t else quantMx f b d)
    let cs := (qs.map QBlock.elems).flatten
    ⟨natLE (f.packed xs.length) (packCodes f (cs.map Cvt.code)), qs.map (fun q => BitVec.ofNat 8 q.scale),
      { evOf cs with
        scaleSat := qs.any QBlock.scaleSat
        special := qs.any (fun q => q.scale == 0xFF) }⟩
  else
    let cs := xs.map (fun x => f.cvt nonsat x d)
    ⟨natLE (f.packed xs.length) (packCodes f (cs.map Cvt.code)), [], evOf cs⟩

/-- Values written to elements `c0` on of row `r` of a slot; `c0` is a multiple of 32 in a block format. -/
def State.putElems (s : State) (j : Nat) (sl : Slot) (r c0 : Nat) (p : Packed) : State :=
  (s.store (wsAt j (sl.rowAt r + c0 * sl.fmt.bits / 8)) p.bytes false).store
    (wsAt j (sl.scaleAt r + c0 / 32)) p.scales false

/-- FP32 patterns written to row `r` of a slot from element `c0` on: the new state and the conditions. -/
def State.putF32 (s : State) (j : Nat) (sl : Slot) (r c0 : Nat) (vs : List Nat) : State × NumEv :=
  let p := packRow sl.fmt false 1 (.fin false 1 0) (vs.map f32)
  (s.putElems j sl r c0 p, p.ev)

/-- Rows of FP32 patterns written to the rows of a slot from row `r0` on. -/
def State.putRows (s : State) (j : Nat) (sl : Slot) (r0 : Nat) (rows : List (List Nat)) : State × NumEv :=
  (rows.foldl (fun (a : (State × NumEv) × Nat) vs =>
    let (t, e) := a.1.1.putF32 j sl a.2 0 vs
    ((t, a.1.2.join e), a.2 + 1)) ((s, {}), r0)).1

/-- FP32 patterns written as a slot's elements in element order from element `k` on (R100). -/
def State.putFlat (s : State) (j : Nat) (sl : Slot) (vs : List Nat) : State × NumEv :=
  s.putRows j sl 0 (segs sl.cols vs.length vs)

/-- Integer codes written to row `r` of a slot from element `c0` on. -/
def State.putCodes (s : State) (j : Nat) (sl : Slot) (r c0 : Nat) (vs : List Nat) : State :=
  s.store (wsAt j (sl.rowAt r + c0 * sl.fmt.bits / 8)) (natLE (sl.fmt.packed vs.length) (packCodes sl.fmt vs)) false

/-! Instances, threads and their current operators. -/

/-- The instance at a nesting level of a partition. -/
def State.inst (s : State) (p l : Nat) : Inst := Tbl.get {} (s.part p).insts l

/-- The state with an instance changed. -/
def State.onInst (s : State) (p l : Nat) (f : Inst → Inst) : State :=
  s.onPart p (fun q => { q with insts := Tbl.upd {} q.insts l f })

/-- The key of a thread. -/
def thrKey (j l t : Nat) : Nat := (j * 4 + l) * 16 + t

/-- A thread. -/
def State.thr (s : State) (j l t : Nat) : Thr := Tbl.get {} s.thrs (thrKey j l t)

/-- The state with a thread changed. -/
def State.onThr (s : State) (j l t : Nat) (f : Thr → Thr) : State :=
  { s with thrs := Tbl.upd {} s.thrs (thrKey j l t) f }

/-- A tile. -/
def State.tile (s : State) (j : Nat) : Tile := Tbl.get {} s.tiles j

/-- The state with a tile changed. -/
def State.onTile (s : State) (j : Nat) (f : Tile → Tile) : State := { s with tiles := Tbl.upd {} s.tiles j f }

/-- The operator at which a thread stands: its place, its descriptor and its iteration (R92). -/
structure Ctx where
  part : Nat
  level : Nat
  tile : Nat
  thread : Nat
  graph : Nat
  slot : Nat
  desc : Nat
  iter : Nat
  layerStep : Nat
  deriving DecidableEq, Repr

/-- A field of the operator's descriptor. -/
def Ctx.f (c : Ctx) (off n : Nat) : Nat := fld c.desc off n

/-- The opcode (Table 4.3). -/
def Ctx.opcode (c : Ctx) : Nat := c.f 0 1

/-- A field that the iteration advances by its step (R92). -/
def Ctx.stepped (c : Ctx) (off n stepOff : Nat) : Nat := c.f off n + c.iter * c.f stepOff 4

/-- The header's LAYER, advanced by LAYER_STEP (R92). -/
def Ctx.layer (c : Ctx) : Nat := (c.f 6 2 + c.iter * c.layerStep) % 65536

/-- LAYER_KV at its offset, advanced by LAYER_STEP. -/
def Ctx.layerKv (c : Ctx) (off : Nat) : Nat := (c.f off 2 + c.iter * c.layerStep) % 65536

/-- The slot named by the descriptor byte at `off`. -/
def State.ctxSlot (s : State) (c : Ctx) (off : Nat) : Option Slot := s.slotOf c.part c.graph c.tile (c.f off 1)

/-- The instance that runs on a tile: its partition and level, when the tile takes part in it and has neither ended nor
stopped its part. -/
def State.tileInst (s : State) (j : Nat) : Option (Nat × Nat × Inst) :=
  match s.tilePart j with
  | none => none
  | some p =>
    let l := (s.part p).level
    let i := s.inst p l
    if i.valid && !i.aborted && i.tiles.testBit j && !i.ended.testBit j && !i.faulted.testBit j then some (p, l, i)
    else none

/-- The operator at which a thread of a tile stands in the instance `i` of level `l`. -/
def State.opOf (s : State) (p l : Nat) (i : Inst) (j t : Nat) : Option Ctx :=
  let h := s.thr j l t
  match (s.threadRuns p i.graph j t)[h.run]? with
  | none => none
  | some r =>
    some ⟨p, l, j, t, i.graph, i.slot, Tbl.get 0 s.img.descs (p * 65536 + fld r 0 2 + h.idx), h.iter, fld r 8 2⟩

/-- The operator at which a thread stands in the running instance. -/
def State.cur (s : State) (j t : Nat) : Option Ctx :=
  match s.tileInst j with
  | none => none
  | some (p, l, i) => s.opOf p l i j t

/-- The thread that the sequencer picks: the first ready one that has an operator, after the thread that issued last, in
ascending number, wrapping after 15 (R104). -/
def State.picked (s : State) (j : Nat) : Option Nat :=
  ((List.range 16).map (fun i => ((s.tile j).lastThr + 1 + i) % 16)).find? (fun t => match s.cur j t with
    | some c => (s.thr j c.level t).st == .ready
    | none => false)

/-- The operator of opcode `op` that a thread of a tile may start: the sequencer picks it, or it waits for a unit and asks
again (R104, R105); the tile is awake (R26), and the hub has not asked it to pre-empt (R106). -/
def State.startOf (s : State) (op j t : Nat) : Option Ctx :=
  match s.cur j t with
  | none => none
  | some c =>
    if c.opcode == op && (s.picked j == some t || (s.thr j c.level t).st == .unit) && !(s.tile j).preempting &&
        (s.tile j).power == .run && !s.halted then some c else none

/-- The thread has issued (R104). -/
def State.issued (s : State) (j t : Nat) : State := s.onTile j (fun w => { w with lastThr := t })

/-- The operator waits for a unit (R104). -/
def State.waitUnit (s : State) (c : Ctx) : State := s.onThr c.tile c.level c.thread (fun h => { h with st := .unit })

/-- The thread has walked all its runs. -/
def State.thrEnded (s : State) (p l : Nat) (i : Inst) (j t : Nat) : Bool := (s.opOf p l i j t).isNone

/-- A tile ends its part of an instance when every thread has walked all its runs (R93), and is then clock-gated (R445). -/
def State.tileEnd (s : State) (p l j : Nat) : State :=
  let i := s.inst p l
  if i.valid && i.tiles.testBit j && (List.range 16).all (s.thrEnded p l i j) then
    (s.onInst p l (fun i => { i with ended := setBit i.ended j true })).onTile j (fun t =>
      { t with power := .gated, since := s.time })
  else s

/-- The next position of a thread after its operator: descriptor, then iteration, then run (R92). -/
def Thr.next (h : Thr) (count rep : Nat) : Thr :=
  if h.idx + 1 < count then { h with idx := h.idx + 1 }
  else if h.iter + 1 < rep then { h with idx := 0, iter := h.iter + 1 }
  else { h with idx := 0, iter := 0, run := h.run + 1 }

/-- An operator ends normally: a retried one sets OP_RETRIED, and the thread goes on to its next (R92, R114). -/
def State.opDone (s : State) (c : Ctx) : State :=
  let h := s.thr c.tile c.level c.thread
  let r := (s.threadRuns c.part c.graph c.tile c.thread).getD h.run 0
  let s1 := s.flagIf TILE_SEQ_EVENT.OP_RETRIED c.tile h.retried
  (s1.onThr c.tile c.level c.thread (fun h =>
    { h.next (fld r 2 2) (fld r 4 2) with st := .ready, retried := false, nan := false, since := 0, reqs := [], outst := 0 })).tileEnd
    c.part c.level c.tile

/-- Byte offsets of a descriptor's input slots and of its OUT, by opcode (Tables 4.5 to 4.10). -/
def opSlots (c : Ctx) : List Nat × List Nat :=
  match c.opcode with
  | 1 => ([10], [11])
  | 2 => (if c.f 12 1 / 4 % 2 = 1 then [10, 13] else [10], [11])
  | 3 | 4 => ([8, 11], [9])
  | 5 => ([8, 9, 10, 33], [11, 31, 32])
  | 6 => ([8, 10, 11, 13], [9])
  | 7 | 8 => ([8, 10], [9])
  | 9 => ([8], [9])
  | 12 => ([8, 9], [10])
  | 13 | 15 => ([8], [9])
  | 14 => (if c.f 8 1 = 0 then [10] else [], if c.f 9 1 = 0 then [11] else [])
  | 16 => ([8, 9], [])
  | _ => ([], [])

/-- Two slots share a byte. -/
def Slot.overlaps (a b : Slot) : Bool := decide (a.loc < b.loc + b.size) && decide (b.loc < a.loc + a.size)

/-- The operator may be retried from its start (R114): NORETRY 0, OUT apart from every input, no initial accumulator in
OUT, and not one of the operators that are not idempotent. -/
def State.retryable (s : State) (c : Ctx) : Bool :=
  let (ins, outs) := opSlots c
  let op := c.opcode
  c.f 1 1 % 2 == 0 &&
  !((op == 1 || op == 2) && c.f 12 1 % 2 == 1) &&
  !(op == 10 || op == 18 || (op == 15 && c.f 12 1 == 0) || (op == 11 && c.f 11 1 == 0)) &&
  !(outs.filterMap (s.ctxSlot c)).any (fun o => (ins.filterMap (s.ctxSlot c)).any o.overlaps)

/-- A cause that Table 4.12 marks as retried once. -/
def causeRetried (cause : Nat) : Bool := cause == 4 || cause == 8

/-- A fault is put into TILE_SEQ_FAULT unless it holds one (Table 4.17). -/
def State.seqFault (s : State) (j opIndex t cause : Nat) : State :=
  if s.fget TILE_SEQ_FAULT.VALID j 0 = 1 then s
  else
    (((s.fset TILE_SEQ_FAULT.OP_INDEX j 0 opIndex).fset TILE_SEQ_FAULT.THREAD j 0 t).fset
      TILE_SEQ_FAULT.CAUSE j 0 cause).fset TILE_SEQ_FAULT.VALID j 0 1

/-- The tags of an operator that ends or restarts without them. -/
def State.orphanTags (s : State) (j l t : Nat) : State :=
  (s.withTags (s.tags.map (fun (k, g) =>
      if k / 512 = j ∧ g.busy ∧ g.level = l ∧ g.thread = t then (k, { g with orphan := true }) else (k, g))))

/-- An operator ends in fault: recorded, reported to the hub, and its tile's part of the instance stops (R114, R115). -/
def State.opEndFault (s : State) (c : Ctx) (cause : Nat) : State :=
  let s1 := s.seqFault c.tile (c.f 4 2) c.thread cause
  let s2 := (s1.orphanTags c.tile c.level c.thread).onThr c.tile c.level c.thread
    (fun h => { h with st := .faulted, nan := false, reqs := [], outst := 0 })
  s2.onInst c.part c.level (fun i => { i with
    faulted := setBit i.faulted c.tile true
    fault := match i.fault with
      | none => some (cause, c.f 4 2, c.tile, c.thread)
      | some x => some x })

/-- An operator meets a fault: retried once from its start where R114 allows it, ended otherwise. -/
def State.opFault (s : State) (c : Ctx) (cause : Nat) : State :=
  if causeRetried cause && !(s.thr c.tile c.level c.thread).retried && s.retryable c then
    (s.orphanTags c.tile c.level c.thread).onThr c.tile c.level c.thread
      (fun h => { h with st := .ready, retried := true, nan := false, reqs := [], outst := 0, since := 0 })
  else s.opEndFault c cause

/-- A vector or yarder operator's outcome: a poisoned operand is fault 0x03; outputs that NAN_FAULT forbids are fault 0x02
after they are written; else it ends. -/
def State.finish (s : State) (c : Ctx) (bad : Bool) (r : State × NumEv) : State :=
  if bad then s.opFault c 0x03
  else
    let s1 := r.1.numEv c.tile r.2
    if s.nanFaults c.tile r.2 then s1.opFault c 0x02 else s1.opDone c

/-! Semaphores (R107 to R110). -/

/-- A semaphore's count: SCOPE 0 the partition's, 1 the tile's. -/
def State.sem (s : State) (c : Ctx) (scope n : Nat) : Nat :=
  if scope = 0 then Tbl.get 0 s.sems ((c.part * 4 + c.level) * 4096 + n)
  else Tbl.get 0 s.tileSems ((c.tile * 4 + c.level) * 64 + n)

/-- The places of the partition semaphores' words in the home hub, above every memory place (assumption 65). -/
def semBase : Nat := 2 ^ 71

/-- The place of semaphore `n` of a partition's level. -/
def semAt (p l n : Nat) : Nat := semBase + (p * 4 + l) * 4096 + n

/-- The words of `n` semaphores from a partition's level on are rewritten clean. -/
def State.freshSems (s : State) (p l n : Nat) : State :=
  s.withChk (s.chk.clearRange (semAt p l 0) n)

/-- The partition semaphore's word reads uncorrectable (Table 10.8). -/
def State.semBad (s : State) (c : Ctx) (scope n : Nat) : Bool := scope == 0 && s.delta (semAt c.part c.level n) != 0

/-- An operator reads a partition semaphore that is uncorrectable: one record (R276), and its thread records cause 0x03; the
instance is then aborted (R115, Table 10.8). The record's cause and SOURCE are not given: LLM_UE and 0 (DESIGN CHOICE,
assumption 65). -/
def State.semUe (s : State) (c : Ctx) : State :=
  (s.record (s.homeHub c.part) { cause := 0x03, sev := 2, part := some c.part, pos := 0xFFFF }).opFault c 0x03

/-- What an operator does with the semaphores it names (SCOPE and number): `t`, if all of them can be read; else the fault, at
state `u`. -/
def State.ifSems (s : State) (c : Ctx) (ns : List (Nat × Nat)) (u t : State) : State :=
  if ns.any (fun (k, n) => s.semBad c k n) then u.semUe c else t

/-- A count after an add: it stays at 0xFFFF_FFFF when it would pass it (R110). -/
def satAdd32 (v a : Nat) : Nat := min (v + a) 0xFFFFFFFF

/-- A SIGNAL's add; SEM_SAT is set where the count saturates. -/
def State.semAdd (s : State) (c : Ctx) (scope n add : Nat) : State :=
  let v := s.sem c scope n
  let s1 := s.flagIf TILE_SEQ_EVENT.SEM_SAT c.tile (decide (v + add > 0xFFFFFFFF))
  if scope = 0 then
    (s1.withSems (Tbl.put 0 s1.sems ((c.part * 4 + c.level) * 4096 + n) (satAdd32 v add)))
  else (s1.withTileSems (Tbl.put 0 s1.tileSems ((c.tile * 4 + c.level) * 64 + n) (satAdd32 v add)))

end Sys2Proof.Machine
end

