-- ==== Sys2Proof/Machine/Frames.lean ====
section
/-!
DEFINITION. What the image says of a partition's sessions, layers and pool, and the frames of a pool channel (R146, R147).
-/

namespace Sys2Proof.Machine

/-! What the image says of a partition's sessions and pages (Table 16.7). -/

/-- A field of the partition's SESSIONS item. -/
def State.sess (s : State) (p off n : Nat) : Nat := fld (Tbl.get 0 s.img.sessions p) off n

/-- Tokens in a page of the partition (R146). -/
def State.pageT (s : State) (p : Nat) : Nat := 32 * 2 ^ (s.sess p 1 1 % 4)

/-- A byte of a layer's KV_LAYOUT entry: 0 the format, 1 the HEAD_DIM code, 2 the KV heads. -/
def State.kvLay (s : State) (p l off : Nat) : Nat := fld (Tbl.get 0 s.img.kvLayout (p * 65536 + l)) off 1

/-- The head dimension of a HEAD_DIM code (Table 4.6). -/
def headDim (code : Nat) : Nat := 64 * 2 ^ code

/-- The head dimension of a layer. -/
def State.layerD (s : State) (p l : Nat) : Nat := headDim (s.kvLay p l 1)

/-- The KV heads of a layer. -/
def State.layerH (s : State) (p l : Nat) : Nat := s.kvLay p l 2

/-- The layer's pages are in ABF4. -/
def State.layerAbf (s : State) (p l : Nat) : Bool := s.kvLay p l 0 == 1

/-- The ring window of a layer, 0 for full context. -/
def State.layerW (s : State) (p l : Nat) : Nat := Tbl.get 0 s.img.windows (p * 65536 + l)

/-- The layers of a partition's model. -/
def State.layers (s : State) (p : Nat) : List Nat :=
  s.img.kvLayout.filterMap (fun (k, _) => if k / 65536 = p then some (k % 65536) else none)

/-- Its full-context layers. -/
def State.fullLayers (s : State) (p : Nat) : List Nat := (s.layers p).filter (fun l => s.layerW p l == 0)

/-- Its ring layers. -/
def State.ringLayers (s : State) (p : Nat) : List Nat := (s.layers p).filter (fun l => s.layerW p l != 0)

/-- Bytes that one token slot of one head takes in each data block, in order (Table 6.1). -/
def slotBytes (abf : Bool) (d : Nat) : List Nat := if abf then [d / 2, d / 32, d / 2, d / 32] else [d, d]

/-- The offset of data block `i` in a frame. -/
def blockOff (abf : Bool) (d h t i : Nat) : Nat := 512 + (((slotBytes abf d).take i).map (· * (h * t))).sum

/-- Data bytes of a page (Table 6.1). -/
def dataBytes (abf : Bool) (d h t : Nat) : Nat := ((slotBytes abf d).map (· * (h * t))).sum

/-- Data bytes of a layer's pages. -/
def State.layerBytes (s : State) (p l : Nat) : Nat := dataBytes (s.layerAbf p l) (s.layerD p l) (s.layerH p l) (s.pageT p)

/-- The partition's frame size (R147). -/
def State.frameSize (s : State) (p : Nat) : Nat :=
  (512 + ((s.layers p).map (s.layerBytes p)).foldl max 0 + 4095) / 4096 * 4096

/-- The pool channels of a partition, ascending (R147). -/
def State.poolChans (s : State) (p : Nat) : List Nat :=
  s.img.pools.filterMap (fun (c, v) => if fld v 2 1 = p then some c else none)

/-- The frames of a pool channel. -/
def State.frames (s : State) (c : Nat) : Nat := fld (Tbl.get 0 s.img.pools c) 4 4

/-- The page number of a frame: its hub, and its place from the base that its channel was given on the hub when the channel
joined the pool (DESIGN CHOICE, assumption 21). -/
def State.pageNo (s : State) (c f : Nat) : Nat := hubOfChan c * 2 ^ 22 + (Tbl.get 0 s.img.bases c - 1) + f

/-- The frame of a pool channel that holds channel-local offset `l`, if any. -/
def State.frameOf (s : State) (c l : Nat) : Option Nat :=
  let n := s.frames c
  let size := s.frameSize (fld (Tbl.get 0 s.img.pools c) 2 1)
  if l / size < n ∧ size ≠ 0 then some (l / size) else none

end Sys2Proof.Machine
end

