-- ==== Sys2Proof/Machine/Mem.lean ====
section
/-!
DEFINITION. What the hub does for a memory request (chapters 7, 10, 11, 13): admission at ingress, reads with correction
and poison, tallies and records, whole writes, the merge buffer and read-modify-write, held accesses, host memory.
-/

namespace Sys2Proof.Machine

/-! Reads (R261, R264, R265). -/

/-- A read decodes the word at `w`: a correction is tallied and its write-back queued, unless one is queued already
(R265); an uncorrectable word becomes poisoned (R261). -/
def State.readWord (s : State) (src : Nat) (p : Option Nat) (w : Nat) : State :=
  match s.verd w with
  | .corrected _ =>
    if s.wbq.contains w then s else ((s.tallyWord w src p).withWbq ((s.tallyWord w src p).wbq ++ [w]))
  | .ue => s.markPoison w
  | _ => s

/-- What a requester's reads say of themselves in a record: the tag of the request, and the OP_INDEX and LAYER of the
operator that reads. -/
structure By where
  tag : Nat := 0
  op : Nat := 0
  layer : Nat := 0
  deriving DecidableEq, Repr

/-- The page that a place of a pool channel lies in; 0 in no frame. -/
def State.pageOf (s : State) (k : Nat) : Nat :=
  let c := (k - 2 ^ 40) / chanSize
  match s.frameOf c ((k - 2 ^ 40) % chanSize) with
  | some f => s.pageNo c f
  | none => 0

/-- INFO0 and INFO1 of the record of a read that met the bad word at `w` (Table 10.7): OP_INDEX and LAYER for a streamer's
read of tier 0, the operator in the working store, the page in a frame, the request's tag elsewhere. -/
def State.ueInfo (s : State) (src : Nat) (b : By) (w : Nat) : Nat × Nat :=
  match s.verd w, s.cls w with
  | .poisoned, _ => (b.tag, 0)
  | _, .t0 => if src = 2 then (b.op, b.layer) else (0, 0)
  | _, .wse | _, .wsp => (b.op, 0)
  | _, .t1c => (s.pageOf w, 0)
  | _, _ => (b.tag, 0)

/-- The record of a read that met a bad word: POISON_READ for a word that was poisoned, else the class's cause. -/
def State.badRecord (s : State) (src : Nat) (p : Option Nat) (sev : Nat) (b : By) (w : Nat) : State :=
  let h := (s.whereIs w).1
  let (i0, i1) := s.ueInfo src b w
  match s.verd w with
  | .poisoned => s.record h (s.wordRec w 0x06 2 src p i0 i1)
  | _ => s.record h (s.wordRec w (s.cls w).ueCause sev src p i0 i1)

/-- What reading the `n` bytes from `k` does beside delivering them: one record for the first bad word (R264). -/
def State.readRange (s : State) (src : Nat) (p : Option Nat) (sev : Nat) (b : By) (k n : Nat) : State :=
  let ws := wordsOf (s.cls k) k n
  let s1 := match ws.find? s.bad with
    | some w => s.badRecord src p sev b w
    | none => s
  ws.foldl (fun t w => t.readWord src p w) s1

/-- What an operator's reads of several ranges do: SOURCE 2 for the streamer's tier-0 ranges, 3 for the working store. -/
def State.opReads (s : State) (c : Ctx) (rs : List (Nat × Nat)) : State :=
  rs.foldl (fun t (k, n) =>
    t.readRange (if k < 2 ^ 39 then 2 else 3) (some c.part) 2 { op := c.f 4 2, layer := c.layer } k n) s

/-! Writes (R263, R267 to R269). -/

/-- Read-modify-write of the word at `w`, which is `off` bytes into its block (R269). `poisoned`: poisoned bytes are among
those written (R262). `writers`: SOURCE code and partition of each write. -/
def State.rmw (s : State) (w off mask data : Nat) (poisoned : Bool) (writers : List (Nat × Nat)) : State :=
  let src := (writers.headD (0, 0)).1
  let p := writers.head?.map Prod.snd
  let h := (s.whereIs w).1
  if s.bad w then
    let s1 := (s.record h { s.wordRec w 0x07 2 src p writers.length 0 with count := writers.length }).evt
      ERR_EVENT.WRITE_REFUSED h 0 1 p
    (if s.verd w = .ue then s1.markPoison w else s1).answer .busError []
  else
    let s1 := s.tallyOnce w src p
    let d := mergeBytes (s.wordData w) off mask data
    (if poisoned then s1.storePoison w d else s1.storeClean w d).answer .ok []

/-- What a write of several words answers: a bus error if any word refused it (R269). -/
def State.orError (t : State) (k : RespKind) : State := if k = .busError then t.answer .busError [] else t

/-- A merge entry closes (R268): each word written whole is stored whole, each other word with written bytes goes through
read-modify-write. -/
def State.closeEntry (s : State) (e : MergeEnt) : State :=
  let n := (s.cls e.blk).word
  (List.range (64 / n)).foldl (fun t i =>
    let off := i * n
    let m := byteMask off n
    if e.mask &&& m = 0 then t
    else
      let bad := e.poison &&& m != 0
      let w := e.blk + off
      (if e.mask &&& m = m then
        let d := mergeBytes (List.replicate n 0) off e.mask e.data
        (if bad then t.storePoison w d else t.storeClean w d).answer .ok []
      else
        t.rmw w off (e.mask &&& m) e.data bad
          ((e.writers.filter (fun x => x.2.2 &&& m != 0)).map (fun x => (x.1, x.2.1)))).orError t.rsp.kind)
    (s.answer .none [])

/-- The block's open entry, if it has one, closes. -/
def State.closeBlock (s : State) (blk : Nat) : State :=
  match s.merge.find? (fun e => e.blk == blk) with
  | none => s
  | some e => State.closeEntry (s.withMerge (s.merge.filter (fun x => x.blk != blk))) e

/-- The open entries of the blocks that hold the `n` bytes from `k` close: a read or a whole write reaches them. -/
def State.closeRange (s : State) (k n : Nat) : State :=
  (List.range ((k % 64 + n + 63) / 64)).foldl (fun t i => t.closeBlock (k - k % 64 + 64 * i)) s

/-- The block with the bytes joined. -/
def MergeEnt.join (e : MergeEnt) (src p off : Nat) (bs : List Byte) (poisoned : Bool) : MergeEnt :=
  let m := byteMask off bs.length
  let old := (natLE 64 e.data)
  { e with
    mask := e.mask ||| m
    data := leNat (splice old off bs)
    poison := if poisoned then e.poison ||| m else e.poison
    writers := e.writers ++ [(src, p, m)] }

/-- Some code word of the block is written in full. -/
def MergeEnt.full (e : MergeEnt) (n : Nat) : Bool :=
  (List.range (64 / n)).any (fun i => e.mask &&& byteMask (i * n) n == byteMask (i * n) n)

/-- A partial write joins the block's open entry or opens one; the oldest of the hub makes room (R268). A poisoned byte
stays noted for its word until the entry closes (R262). -/
def State.mergeWrite (s : State) (src p k : Nat) (bs : List Byte) (poisoned : Bool) : State :=
  let blk := k - k % 64
  let h := (s.whereIs k).1
  let n := (s.cls k).word
  let put (t : State) (e : MergeEnt) : State :=
    let e2 := e.join src p (k % 64) bs poisoned
    if e2.full n then State.closeEntry (t.withMerge (t.merge.filter (fun x => x.blk != blk))) e2
    else
      State.answer (t.withMerge (if t.merge.any (fun x => x.blk == blk)
                       then t.merge.map (fun x => if x.blk = blk then e2 else x) else t.merge ++ [e2])) .none []
  match s.merge.find? (fun e => e.blk == blk) with
  | some e => put s e
  | none =>
    let mine := s.merge.filter (fun e => e.hub == h)
    let s1 := if mine.length ≥ 64 then
        match mine with
        | o :: _ => s.closeBlock o.blk
        | [] => s
      else s
    put s1 ⟨h, blk, s.time, 0, 0, 0, []⟩

/-- Partial writes of the class go to the merge buffer (R267, R278). -/
def State.merges (s : State) (h : Nat) (c : Cls) : Bool :=
  s.fget ERR_CTL.FORCE_RMW h 0 == 0 &&
  (match c with
   | .t0 => s.fget ERR_CTL.MERGE_T0 h 0 == 1
   | .t1p => s.fget ERR_CTL.MERGE_T1P h 0 == 1
   | .llm => s.fget ERR_CTL.MERGE_LLM h 0 == 1
   | _ => false)

/-- Bytes written to part of the word at `w`, from its byte `off` on (R267). -/
def State.partWrite (s : State) (src p w off : Nat) (bs : List Byte) (poisoned : Bool) : State :=
  match s.cls w with
  | .host | .t1c => (s.poke (w + off) bs).answer .ok []
  | .wse | .wsp => (s.storeWord w off bs poisoned).answer .ok []
  | c =>
    if s.merges (s.whereIs w).1 c then s.mergeWrite src p (w + off) bs poisoned
    else
      let b := off + w % 64
      s.rmw w (w % 64) (byteMask b bs.length) (leNat bs * 256 ^ b) poisoned [(src, p)]

/-- Bytes written to one word: whole (R263) or in part (R267). -/
def State.writeWord (s : State) (src p w off : Nat) (bs : List Byte) (poisoned : Bool) : State :=
  if off = 0 ∧ bs.length = (s.cls w).word then
    let s1 := s.closeBlock (w - w % 64)
    (if poisoned then s1.storePoison w bs else s1.storeClean w bs).answer .ok []
  else s.partWrite src p w off bs poisoned

/-- Bytes written from place `k` on, word by word; `bad` names the poisoned ones. -/
def State.writeMarks (s : State) (src p k : Nat) (bs : List Byte) (bad : Nat) : State :=
  (chop (s.cls k).word (bs.length + 1) k bs).foldl (fun t (w, off, b) =>
    (t.writeWord src p w off b (marked bad k (w + off) b.length)).orError t.rsp.kind) (s.answer .none [])

/-- Bytes written from place `k` on, all poisoned or none. -/
def State.writePlace (s : State) (src p k : Nat) (bs : List Byte) (poisoned : Bool) : State :=
  s.writeMarks src p k bs (if poisoned then byteMask 0 bs.length else 0)

/-! Hub engines' accesses to the structures they own (R265 to R270, R276). -/

/-- A hub engine reads the `n` bytes from `k`: open merge entries close, words are corrected, tallied and written back, and
a bad one is recorded and poisoned. -/
def State.engSee (s : State) (src p k n : Nat) : State :=
  ((s.closeRange k n).readRange src (some p) 2 {} k n).withRsp s.rsp

/-- A hub engine writes bytes from `k` on: in part of a word as ERR_CTL has it, and not onto a bad one. -/
def State.engWrite (s : State) (src p k : Nat) (bs : List Byte) : State := (s.writeMarks src p k bs 0).withRsp s.rsp

/-- A hub engine moves bytes between structures; poison travels with them (R262). -/
def State.engMove (s : State) (src p dst a n : Nat) : State :=
  (((s.engSee src p a n).writeMarks src p dst (s.look a n).1 (s.lookMarks a n))).withRsp s.rsp

/-! Requests at ingress (R189, R198, R290, R328 to R336). -/

/-- A host request's partition and part physical address (R290): through a segment of PF0's window, or through the VF's.
None completes with Unsupported Request; so does, as R189 states, an address outside tier 1 and landing. A segment cannot be
placed at the host window or above (R291). -/
def State.hostRoute (s : State) (port vf x : Nat) : Option (Nat × Nat) :=
  let inside (p a : Nat) : Option (Nat × Nat) :=
    if a < 0x40000000000 then some (p, a) else none
  if vf = 0 then
    let k := x / 2 ^ 32
    if k < 16 ∧ s.fget HIF_BAR4_SEG.VALID port k = 1 then
      inside (s.fget HIF_BAR4_SEG.PART port k) (s.fget HIF_BAR4_SEG.BASE port k * 2 ^ 32 + x % 2 ^ 32)
    else none
  else
    match s.vfPart vf with
    | some p =>
      if x < 2 ^ 32 ∧ s.fget HIF_VF_SEG.VALID port vf = 1 then inside p (s.fget HIF_VF_SEG.BASE port vf * 2 ^ 32 + x)
      else none
    | none => none

/-- The request as the hub sees it: hub, partition and part physical address resolved. -/
def State.route (s : State) (rq : Req) : Option Req :=
  match rq.src with
  | .host port vf => (s.hostRoute port vf rq.addr).map (fun (p, a) => { rq with hub := 2 * port, part := p, addr := a })
  | _ => some rq

/-- The range cut at 512 B granules (R198). -/
def granules : Nat → Nat → Nat → List (Nat × Nat)
  | 0, _, _ => []
  | fuel + 1, a, n =>
    if n = 0 then []
    else
      let m := min n (512 - a % 512)
      (a, m) :: granules fuel (a + m) (n - m)

/-- The issuing tile of a source that may name its own tier-0 slice (R188). -/
def ownTile : Src → Option Nat
  | .tile j _ | .streamer j | .seq j => some j
  | _ => none

/-- The places of a request's bytes, granule by granule; none is a refusal under R189. -/
def State.placesOf (s : State) (rq : Req) : Option (List (Nat × Nat)) :=
  (granules (rq.len / 512 + 2) rq.addr rq.len).foldr (fun (a, n) acc =>
    match acc, s.place rq.hub rq.part (ownTile rq.src) a, s.place rq.hub rq.part (ownTile rq.src) (a + n - 1) with
    | some l, some k, some _ => some ((k, n) :: l)
    | _, _, _ => none) (some [])

/-- A partition's traffic is turned away: from the stop of ingress to the end of its reset (R336). -/
def State.inReset (s : State) (p : Nat) : Bool :=
  match (s.part p).stage with
  | .draining _ _ _ _ => true
  | _ => false

/-- A fault that a run-ahead read of a tile meets is suppressed and counted (R208). -/
def State.suppress (s : State) (j : Nat) : State := (s.fcount TILE_YARD_COUNT.RUNAHEAD_SUPPRESSED j 0).answer .refused []

/-- What the requester sees of a refusal (Table 13.2). -/
def State.refuseAnswer (s : State) (rq : Req) (write : Bool) : State :=
  match rq.src with
  | .host _ _ => s.answer (if write then .discarded else .refused) []
  | .runAhead j => s.suppress j
  | _ => s.answer .refused []

/-- Some granule lies in a channel that is not in memory mode: it is held there (R233). -/
def State.heldBy (s : State) (ps : List (Nat × Nat)) : Option Nat :=
  (ps.filterMap (fun (k, _) => chanOfPlace k)).find? (fun c => (Tbl.get {} s.chans c).mode != .memory)

/-- A channel holds an access (R233). -/
def State.holdAt (s : State) (c : Nat) (h : Held) : State :=
  s.withChans (Tbl.upd {} s.chans c (fun k => { k with held := k.held ++ [h] }))

/-- A request that would write a tile's own slice: only the hub writes it, through the load window (R188, R192). -/
def writesT0 (rq : Req) (r : Right) : Bool := decide (rq.addr < t0Size) && r != .read

/-- The right that a request needs; requests of a tile to its own slice need none. -/
def State.permitted (s : State) (rq : Req) (r : Right) : Bool :=
  decide (rq.addr < t0Size) || s.admits rq.part r (srcProt rq.src) rq.addr rq.len

/-- A request inside one granule at ingress, after release: refused, turned away, held by a channel, or served by `go` at its
places. -/
def State.ingress1 (s : State) (rq0 : Req) (write : Bool) (r : Right) (data : List Byte) (poisoned : Bool)
    (go : State → Req → List (Nat × Nat) → State) : State :=
  if !s.ingressOpen then s
  else
    match s.route rq0 with
    | none => s.refuseAnswer rq0 write
    | some rq =>
      if s.inReset rq.part then
        (match rq.src with
         | .host _ _ => s.answer (if write then .discarded else .refused) []
         | .fabric _ => s.answer .notReady []
         | _ => s)
      else match if writesT0 rq r then none else s.placesOf rq with
        | none => (s.windowMiss rq.hub rq.part r (srcProt rq.src) rq.addr).refuseAnswer rq write
        | some ps =>
          if !s.permitted rq r then (s.refusal rq.part r (srcProt rq.src) rq.addr).refuseAnswer rq write
          else match s.heldBy ps with
            | some c => s.holdAt c { rq := rq, write := write, since := s.time, data := data, poisoned := poisoned }
            | none => go s rq ps

/-- The answer to a request in pieces: data in order; the first answer that is no success stands for all. -/
def Resp.then (a b : Resp) : Resp :=
  if a.kind = .ok then { b with data := a.data ++ b.data } else { a with data := a.data ++ b.data }

/-- A request at ingress: one that crosses granules of 512 B is split into requests, each admitted, refused or held by itself
(R198). -/
def State.ingress (s : State) (rq : Req) (write : Bool) (r : Right) (data : List Byte) (poisoned : Bool)
    (go : State → Req → List (Nat × Nat) → State) : State :=
  match granules (rq.len / 512 + 2) rq.addr rq.len with
  | [] => s.ingress1 rq write r data poisoned go
  | [_] => s.ingress1 rq write r data poisoned go
  | ps =>
    let (t, a, _) := ps.foldl (fun (x : State × Option Resp × List Byte) (a, n) =>
      let u := (x.1.answer .none []).ingress1 { rq with addr := a, len := n } write r (x.2.2.take n) poisoned go
      (u, some (match x.2.1 with
        | some b => b.then u.rsp
        | none => u.rsp), x.2.2.drop n)) (s, none, data)
    t.withRsp (a.getD {})

/-! Latency monitors (R254). -/

/-- The MASTER code of a source (Table 9.1); requests of the streamer, the deck engines and the ledger are not regulated. -/
def masterOf : Src → Option Nat
  | .tile j _ => some (j % 16)
  | .fabric p => some (16 + p % 4)
  | .host _ _ => some 20
  | .engine c => if c = 6 then some 21 else none
  | _ => none

/-- The account of a master and partition at a hub. -/
def State.account (s : State) (h m p : Nat) : Option Nat :=
  (List.range 128).find? (fun k =>
    s.fget BWR_ACCT.VALID h k == 1 && s.fget BWR_ACCT.MASTER h k == m && s.fget BWR_ACCT.PART h k == p)

/-- The bin of a latency (R254). -/
def latencyBin (shift ns : Nat) : Nat :=
  let v := ns / 2 ^ shift
  if v < 256 then 0 else min 7 (v.log2 - 7)

/-- A list with element `i` one higher, saturating at 32 bits. -/
def bumpAt (l : List Nat) (i : Nat) : List Nat := l.modify i (fun v => min (v + 1) 0xFFFFFFFF)

/-- The monitors of an account or Thapel account before any latency: maximum and eight bins. -/
def monZero : List Nat := [0, 0, 0, 0, 0, 0, 0, 0, 0]

/-- A latency is observed for account `k` of a hub. -/
def State.observe (s : State) (h k ns : Nat) : State :=
  let b := latencyBin (s.fget BWR_MON_CTL.SHIFT h 0) ns
  (s.withMons (Tbl.upd monZero s.mons (h * 256 + k) (fun l =>
      (bumpAt l (b + 1)).modify 0 (fun m => min (max m ns) 0xFFFFFFFF))))

/-- A served tier-1 request is observed. -/
def State.observeReq (s : State) (rq : Req) (ps : List (Nat × Nat)) : State :=
  if ps.all (fun (k, _) => (chanOfPlace k).isNone) then s
  else match masterOf rq.src with
    | none => s
    | some m => match s.account rq.hub m rq.part with
      | none => s
      | some k => s.observe rq.hub k (s.time - rq.arrived)

/-! Reads and writes served. -/

/-- The severity of a record for a bad word that a requester reads: 1 where the data only moves on, else 2 (R275). -/
def readSeverity : Src → Nat
  | .tile _ _ | .runAhead _ => 1
  | _ => 2

/-- The source is a run-ahead read. -/
def isRunAhead : Src → Bool
  | .runAhead _ => true
  | _ => false

/-- A read is served at its places (R264, R268): open merge entries close, words are corrected, tallied and poisoned, and
the requester is answered; a host sees undefined bytes in a poisoned completion, and a run-ahead read's bad word is
suppressed without a record (R208). -/
def State.serveRead (s : State) (rq : Req) (ps : List (Nat × Nat)) : State :=
  let s1 := ps.foldl (fun t (k, n) => t.closeRange k n) s
  let ls := ps.map (fun (k, n) => s1.look k n)
  let bad := ls.any Prod.snd
  let s2 := ps.foldl (fun t (k, n) =>
    if isRunAhead rq.src then (wordsOf (t.cls k) k n).foldl (fun u w => u.readWord 1 (some rq.part) w) t
    else t.readRange (srcRec rq.src) (some rq.part) (readSeverity rq.src) { tag := rq.tag } k n) s1
  let s3 := s2.observeReq rq ps
  if bad then
    match rq.src with
    | .host _ _ => s3.draw.answer .poisoned (s3.freeBytes rq.len)
    | .runAhead j => s3.suppress j
    | _ => s3.answer .poisoned (ls.map Prod.fst).flatten
  else s3.answer .ok (ls.map Prod.fst).flatten

/-- A write is served at its places (R263, R267). A poisoned host write is discarded in T1C memory, and records
WRITE_REFUSED wherever it lands (R296). -/
def State.serveWrite (s : State) (rq : Req) (data : List Byte) (poisoned : Bool) (ps : List (Nat × Nat)) : State :=
  let host := match rq.src with
    | .host _ _ => true
    | _ => false
  let (s1, _) := ps.foldl (fun (a : State × List Byte) (k, n) =>
    ((if host && poisoned && a.1.cls k == .t1c then a.1.answer .discarded []
      else a.1.writePlace (srcRec rq.src) rq.part k (a.2.take n) poisoned).orError a.1.rsp.kind, a.2.drop n))
    (s.answer .none [], data)
  let s2 := if host && poisoned then
      match ps with
      | (k, _) :: _ => s1.record rq.hub { s1.wordRec (wordOf (s1.cls k) k) 0x07 2 4 (some rq.part) 1 0 with count := 1 }
      | [] => s1
    else s1
  s2.observeReq rq ps

/-- The elements of a 64 B word combined with those in memory (Table 3.9). -/
def adderWord (op ty : Nat) (mem opd : Nat) : Nat :=
  let n := adderBytes ty
  (List.range (64 / n)).foldl (fun acc i =>
    acc + adder op ty (fld opd (i * n) n) (fld mem (i * n) n) * 256 ^ (i * n)) 0

/-- One 64 B word of a reduce request at landing place `k` (R203, R204): corrected before the add; a word with an
uncorrectable error refuses it and stays poisoned. Answered with whether it was refused. -/
def State.adderStep (s : State) (src : Nat) (p : Option Nat) (op ty k : Nat) (opd : List Byte) : State × Bool :=
  let s0 := s.closeBlock k
  let ws := wordsOf .llm k 64
  if ws.any s0.bad then
    (ws.foldl (fun t w => if t.verd w = .ue then t.markPoison w else t)
      (match ws.find? s0.bad with
       | some w => s0.badRecord src p 2 {} w
       | none => s0), true)
  else
    let s1 := ws.foldl (fun t w => t.tallyOnce w src p) s0
    let v := adderWord op ty (leNat (s0.look k 64).1) (leNat opd)
    (s1.store k (natLE 64 v) false, false)

/-- A reduce at landing places, one 64 B word at a time in ascending address; answered with whether a word refused it. -/
def State.reduceAt (s : State) (src : Nat) (p : Option Nat) (op ty : Nat) (ps : List (Nat × Nat)) (data : List Byte) :
    State × Bool :=
  let words := ps.flatMap (fun (k, n) => (List.range (n / 64)).map (fun i => k + 64 * i))
  (words.foldl (fun (a : (State × Bool) × List Byte) k =>
    let (t, r) := a.1.1.adderStep src p op ty k (a.2.take 64)
    ((t, a.1.2 || r), a.2.drop 64)) ((s, false), data)).1

/-- The address lies in the landing range. -/
def isLanding (a : Nat) : Bool := decide (0x30000000000 ≤ a) && decide (a < 0x30020000000)

/-! A yarder's requests served (R111, R113, R203, R233). -/

/-- A yarder's request is carried out where it lies: the state, the bytes it brings, which of them are poisoned, and whether
it met a bus error. -/
def State.yServe (s : State) (p tag : Nat) (q : YReq) : State × List Byte × Nat × Bool :=
  match q.act with
  | .fetch _ | .relay _ _ _ =>
    let s0 := s.closeRange q.place q.len
    (s0.readRange 1 (some p) 1 { tag := tag } q.place q.len, (s0.look q.place q.len).1, s0.lookMarks q.place q.len, false)
  | .put data bad =>
    let t := s.writeMarks 1 p q.place data bad
    (t, [], 0, t.rsp.kind == .busError)
  | .reduce op ty used data =>
    if !isLanding (q.addr.getD 0) then (s.evt HUB_MEM_EVENT.ADDER_REFUSED (s.whereIs q.place).1 0 1 none, [], 0, true)
    else
      let (t, refused) := s.reduceAt 11 (some p) op ty [(q.place, q.len)] data
      (if used < q.len then t.draw.store (q.place + used) (t.freeBytes (q.len - used)) false else t, [], 0, refused)

/-- A request is served for its tag, if that still waits for it: what came is kept until the completion (R112). -/
def State.yServeTag (s : State) (j g : Nat) (gen : Bool) (p : Nat) (q : YReq) : State :=
  let r := s.yServe p g q
  r.1.withTags (Tbl.upd {} r.1.tags (j * 512 + g) (fun x => if x.busy && x.gen == gen then
    { x with held := false, got := r.2.1, marks := r.2.2.1, refused := r.2.2.2 } else x))

/-- A held access is served: HELD_MAX takes how long it was held; a yarder's is carried out now and its completion may follow (R233). -/
def State.serveHeld (s : State) (c : Nat) (h : Held) : State :=
  let hub := hubOfChan c
  let s1 := s.fset THAPEL_HELD_MAX.MAX_NS hub 0 (min 0xFFFFF (max (s.fget THAPEL_HELD_MAX.MAX_NS hub 0) (s.time - h.since)))
  match h.yard with
  | some (j, g, gen, q) => s1.yServeTag j g gen h.rq.part q
  | none =>
    match s1.placesOf h.rq with
    | none => s1
    | some ps => if h.write then s1.serveWrite h.rq h.data h.poisoned ps else s1.serveRead h.rq ps

/-- The bytes flipped in a stored word: data bits and check bits (R258 to R260); the check difference follows, since the
codes are linear. In an encrypted window they are bits of the ciphertext (R257). In T1C memory a nonzero `chk` is an on-die uncorrectable error. -/
def State.upset (s : State) (u : Upset) : State :=
  let c := s.cls u.key
  let w := wordOf c u.key
  let d := natLE c.word u.data
  let s1 := s.poke w (if c = .t1p then s.plainBytes w (List.zipWith (· ^^^ ·) (s.storedBytes w) d)
    else List.zipWith (· ^^^ ·) (readBytes s.mem w c.word) d)
  let e := match c with
    | .t0 | .t1p => rsCheck d
    | .llm | .wse => secCheck u.data
    | .wsp => parityN 64 u.data
    | _ => 0
  match c with
  | .t1c | .host => if u.chk = 0 then s1 else s1.setDelta w 1
  | _ => s1.setDelta w (s.delta w ^^^ u.chk ^^^ e)

/-- Upsets reach memory one after another. -/
def State.upsets (s : State) (us : List Upset) : State := us.foldl State.upset s

/-! The commands. -/

/-- MEMORY_WRITE (R263): a write of whole code words is checked at ingress and stored. -/
def execMemoryWrite (rq : Req) (data : List Byte) (poisoned : Bool) (s : State) : Host.Outcome State Fault Refusal :=
  ok (rq.wf && data.length == rq.len) s
    (s.ingress rq true .write data poisoned (fun t r ps => t.serveWrite r data poisoned ps))

/-- PARTIAL_WRITE (R267): a write narrower than a code word is checked at ingress and takes its class's path. -/
def execPartialWrite (rq : Req) (data : List Byte) (poisoned : Bool) (s : State) : Host.Outcome State Fault Refusal :=
  ok (rq.wf && data.length == rq.len) s
    (s.ingress rq true .write data poisoned (fun t r ps => t.serveWrite r data poisoned ps))

/-- ADDER_REDUCE (R203): a reduce request; one that names other memory than landing is refused with a bus error. -/
def execAdderReduce (rq : Req) (op ty : Nat) (data : List Byte) (s : State) : Host.Outcome State Fault Refusal :=
  ok (rq.wf && data.length == rq.len && rq.len % 64 == 0 && rq.len ≤ 512 && rq.addr % 64 == 0 && op < 3 && ty < 4) s
    (if !s.ingressOpen then s
     else if (match s.route rq with
       | some q => !isLanding q.addr
       | none => false) then
       (s.evt HUB_MEM_EVENT.ADDER_REFUSED (((s.route rq).map Req.hub).getD 0) 0 1 none).answer .busError []
     else s.ingress rq true .add data false (fun s r ps =>
       let (t, refused) := s.reduceAt 11 (some r.part) op ty ps data
       t.answer (if refused then .busError else .ok) []))

/-- CORRECTED_WRITE_BACK (R265): the queued write-back of a corrected word is stored; of a word that has become
uncorrectable since, nothing is (R263). -/
def execCorrectedWriteBack (key : Nat) (s : State) : Host.Outcome State Fault Refusal :=
  ok true s
    (if !s.wbq.contains key then s
     else if s.bad key then s.withWbq (s.wbq.filter (· != key))
     else s.storeClean key (s.wordData key))

/-- MERGE_ENTRY_TIMEOUT (R268): 256 ns after it opened, the hub's oldest entry closes. -/
def execMergeEntryTimeout (hub : Nat) (s : State) : Host.Outcome State Fault Refusal :=
  ok (hubOk hub) s
    (match s.merge.find? (fun e => e.hub == hub) with
     | some e => if s.time ≥ e.opened + 256 then s.closeBlock e.blk else s
     | none => s)

/-- TALLY_LEAK (R266): the tally of a class leaks one every 10 s of timebase. -/
def execTallyLeak (hub cls : Nat) (s : State) : Host.Outcome State Fault Refusal :=
  ok (hubOk hub && decide (cls < 4)) s
    (if !s.due (hub * 16 + 2 + cls) 10000000000 then s
     else (s.ticked (hub * 16 + 2 + cls)).fsetAt ERR_TALLY.T0 hub 0 (8 * cls) (s.fgetAt ERR_TALLY.T0 hub 0 (8 * cls) - 1))

/-! The host memory window (R292). -/

/-- HOST_WINDOW_REQUEST (R292): a tile's or hub engine's request leaves through its port to the partition's host address:
a write is posted, a read waits for its completion under a tag. At most 4,096 reads are outstanding on a port (R283). -/
def execHostWindowRequest (rq : Req) (write : Bool) (data : List Byte) (s : State) : Host.Outcome State Fault Refusal :=
  ok (rq.wf && isHostWindow rq.addr && (!write || data.length == rq.len)) s
    (if !s.ingressOpen then s
     else if !s.admits rq.part (if write then .write else .read) (srcProt rq.src) rq.addr rq.len then
       (s.refusal rq.part (if write then .write else .read) (srcProt rq.src) rq.addr).refuseAnswer rq write
     else
       let (port, a) := s.hostTarget rq.part rq.addr
       if write then (if s.pkg.hostUp.getD port 0 = 0 then s.answer .discarded []
                      else (s.store (hostAt port a) data false).answer .ok [])
       else if (s.hostReads.filter (fun h => h.port == port)).length ≥ 4096 then s
       else
         State.answer ((s.withHostReads (s.hostReads ++ [⟨port, s.hostTag % 16384, rq.part, hostAt port a, rq.len, srcRec rq.src, rq.addr⟩])).withHostTag (s.hostTag + 1)) .none [])

/-- A host-window read ends without data: its requester gets poisoned data, and POISON_READ is recorded (R292). -/
def State.hostPoison (s : State) (h : HostRead) : State :=
  let s1 := (wordsOf .host h.key h.len).foldl (fun t w => t.setDelta w 1)
    (s.withHostReads (s.hostReads.filter (fun x => !(x.port == h.port && x.tag == h.tag))))
  (s1.record (2 * h.port) { cause := 0x06, sev := 2, src := h.src, part := some h.part, addr := h.addr, pos := 0xFFFF
                            info0 := h.tag }).answer .poisoned []

/-- HOST_COMPLETION (R292): status 0 brings the data; 1 Unsupported Request, 2 Completer Abort, 3 a poisoned completion
return poison to the requester. -/
def execHostCompletion (port tag status : Nat) (data : List Byte) (s : State) : Host.Outcome State Fault Refusal :=
  ok (hostOk port && status < 4) s
    (match s.hostReads.find? (fun h => h.port == port && h.tag == tag) with
     | none => s
     | some h =>
       if status ≠ 0 then s.hostPoison h
       else
         let s1 := (s.withHostReads (s.hostReads.filter (fun x => !(x.port == port && x.tag == tag))))
         (s1.store h.key (data.take h.len) false).answer .ok (data.take h.len))

/-- HOST_COMPLETION_TIMEOUT (R292). -/
def execHostCompletionTimeout (port tag : Nat) (s : State) : Host.Outcome State Fault Refusal :=
  ok (hostOk port) s
    (match s.hostReads.find? (fun h => h.port == port && h.tag == tag) with
     | none => s
     | some h => s.hostPoison h)

end Sys2Proof.Machine
end

