-- ==== Sys2Proof/Machine/Kv.lean ====
section
/-!
DEFINITION. KV pages (R146 to R160): page headers and seals, the page ledger and its operations, and the pages'
drop and release. All of them lie in tier 1: the operations here read and write that memory as the hub's engines do.
-/

namespace Sys2Proof.Machine

/-- The place of a tier-1 address, as a hub's engines reach the structures they own. -/
def State.engAt (s : State) (h a : Nat) : Nat := (s.place h 0 none a).getD a

/-! Records, tables, histories (Table 6.3, R154). -/

/-- A multiple of 4 KiB not below. -/
def up4k (n : Nat) : Nat := (n + 4095) / 4096 * 4096

/-- HIST_TOKENS of a partition. -/
def State.histTokens (s : State) (p : Nat) : Nat := s.sess p 12 4

/-- The slot lies in the partition's range (R299). -/
def State.slotIn (s : State) (p slot : Nat) : Bool :=
  decide (s.sess p 4 4 ≤ slot) && decide (slot < s.sess p 4 4 + s.sess p 8 4)

/-- Page-table entries per layer (R154). -/
def State.ptEntries (s : State) (p : Nat) : Nat := (s.histTokens p + s.pageT p - 1) / s.pageT p + 32

/-- Where histories and page tables lie: packed behind the partition's records in slot order (DESIGN CHOICE, assumption
22). -/
def State.histBase (s : State) (p slot : Nat) : Nat :=
  up4k (s.sess p 16 8 + (s.sess p 4 4 + s.sess p 8 4) * 512) + (slot - s.sess p 4 4) * s.histTokens p * 4

/-- The address of a slot's page table. -/
def State.tableBase (s : State) (p slot : Nat) : Nat :=
  up4k (s.histBase p (s.sess p 4 4 + s.sess p 8 4)) +
    (slot - s.sess p 4 4) * ((s.layers p).foldl max 0 + 1) * s.ptEntries p * 4

/-- The place of byte `off` of a slot's session record. -/
def State.recAt (s : State) (p slot off : Nat) : Nat := s.engAt (s.homeHub p) (s.sess p 16 8 + slot * 512 + off)

/-- A field of a session record. -/
def State.srec (s : State) (p slot off n : Nat) : Nat := s.lookN (s.recAt p slot off) n

/-- The record reads uncorrectable. -/
def State.recBad (s : State) (p slot : Nat) : Bool :=
  (List.range 8).any (fun i => (s.look (s.recAt p slot (64 * i)) 64).2)

/-- The state with a field of a session record written. -/
def State.setRec (s : State) (p slot off n v : Nat) : State := s.engWrite 6 p (s.recAt p slot off) (natLE n v)

/-- A flag of a session record: 0 NO_COPPICE, 1 PARKED, 2 HAS_DROPPED, 3 SEG_OVERFLOW. -/
def State.recFlag (s : State) (p slot b : Nat) : Bool := (s.srec p slot 3 1).testBit b

/-- The state with a flag of a session record set or cleared. -/
def State.setRecFlag (s : State) (p slot b : Nat) (v : Bool) : State :=
  s.setRec p slot 3 1 (setBit (s.srec p slot 3 1) b v)

/-- N, the committed tokens of a session. -/
def State.sessN (s : State) (p slot : Nat) : Nat := s.srec p slot 4 4

/-- The handle of a slot's present generation (R310). -/
def State.handleOf (s : State) (p slot : Nat) : Nat := slot + s.srec p slot 0 2 * 65536

/-- The place of entry `k` of layer `l` in a session's page table. -/
def State.pteAt (s : State) (p slot l k : Nat) : Nat :=
  s.engAt (s.homeHub p) (s.srec p slot 32 8 + (l * s.ptEntries p + k) * 4)

/-- A page-table entry: PAGE in bits 23 to 0, VALID 24, DROPPED 25, PARKED 26. -/
def State.pte (s : State) (p slot l k : Nat) : Nat := s.lookN (s.pteAt p slot l k) 4

/-- The entry reads uncorrectable. -/
def State.pteBad (s : State) (p slot l k : Nat) : Bool := (s.look (s.pteAt p slot l k) 4).2

/-- The state with a page-table entry written. -/
def State.setPte (s : State) (p slot l k v : Nat) : State := s.engWrite 6 p (s.pteAt p slot l k) (natLE 4 v)

/-- PAGE. -/
def ptePage (v : Nat) : Nat := v % 2 ^ 24
/-- An entry that names a page. -/
def pteOf (pg : Nat) : Nat := pg + 2 ^ 24
/-- VALID. -/
def pteValid (v : Nat) : Bool := v.testBit 24
/-- DROPPED. -/
def pteDropped (v : Nat) : Bool := v.testBit 25
/-- PARKED. -/
def pteParked (v : Nat) : Bool := v.testBit 26
/-- The entry marked DROPPED instead of VALID. -/
def pteDrop (v : Nat) : Nat := ptePage v + 2 ^ 25
/-- The entry marked PARKED instead of VALID. -/
def ptePark (v : Nat) : Nat := ptePage v + 2 ^ 26

/-! The ledger (Table 6.4). -/

/-- A ledger entry. FLAGS: bit 0 VALID, 1 DROPPABLE, 2 PREFETCHABLE, 3 DROPPED, 4 PENDING, 5 RING. -/
structure Led where
  ref : Nat
  pin : Nat
  flags : Nat
  part : Nat
  chan : Nat
  frame : Nat
  deriving DecidableEq, Repr

/-- The hub of a page number. -/
def hubOfPage (pg : Nat) : Nat := pg / 2 ^ 22 % 4

/-- The place of a page's ledger entry. -/
def State.ledAt (s : State) (pg : Nat) : Nat :=
  s.engAt (hubOfPage pg) (fld (Tbl.get 0 s.img.ledgers (hubOfPage pg)) 8 8 + pg % 2 ^ 22 * 16)

/-- The entry cannot be read: it is withheld (Table 10.8). -/
def State.ledBad (s : State) (pg : Nat) : Bool := (s.look (s.ledAt pg) 16).2

/-- The entry of a page. -/
def State.led (s : State) (pg : Nat) : Led :=
  let v := s.lookN (s.ledAt pg) 16
  ⟨fld v 0 2, fld v 2 2, fld v 4 1, fld v 5 1 % 16, fld v 6 2 % 1024, fld v 8 4 % 2 ^ 20⟩

/-- The entry's 16 bytes. -/
def Led.bytes (e : Led) : List Byte :=
  natLE 2 e.ref ++ natLE 2 e.pin ++ natLE 1 e.flags ++ natLE 1 e.part ++ natLE 2 e.chan ++ natLE 4 e.frame ++ natLE 4 0

/-- The state with a page's entry written. -/
def State.setLed (s : State) (pg : Nat) (e : Led) : State := s.engWrite 8 e.part (s.ledAt pg) e.bytes

/-- VALID. -/
def Led.valid (e : Led) : Bool := e.flags.testBit 0
/-- DROPPABLE. -/
def Led.droppable (e : Led) : Bool := e.flags.testBit 1
/-- DROPPED. -/
def Led.dropped (e : Led) : Bool := e.flags.testBit 3
/-- PENDING. -/
def Led.pending (e : Led) : Bool := e.flags.testBit 4

/-- The frame's prefetch bit (R186): VALID and PREFETCHABLE set, DROPPED clear. -/
def State.prefetchBit (s : State) (pg : Nat) : Bool :=
  let e := s.led pg
  e.valid && e.flags.testBit 2 && !e.dropped && !s.ledBad pg

/-- KV_POOL_FREE of the page's hub changes by one. -/
def State.poolFree (s : State) (h : Nat) (up : Bool) : State :=
  s.fset KV_POOL_FREE.FREE_FRAMES h 0
    (if up then s.fget KV_POOL_FREE.FREE_FRAMES h 0 + 1 else s.fget KV_POOL_FREE.FREE_FRAMES h 0 - 1)

/-! Pages and headers (Table 6.2). -/

/-- The place of byte `off` of a page's frame. -/
def State.pageAt (s : State) (pg off : Nat) : Nat :=
  let e := s.led pg
  t1At e.chan (e.frame * s.frameSize e.part + off)

/-- An `n`-byte field of a page's header. -/
def State.hdr (s : State) (pg off n : Nat) : Nat := s.lookN (s.pageAt pg off) n

/-- The state with a header field written. -/
def State.setHdr (s : State) (pg off n v : Nat) : State := s.engWrite 6 (s.led pg).part (s.pageAt pg off) (natLE n v)

/-- The layer in a page's header. -/
def State.hdrLayer (s : State) (pg : Nat) : Nat := s.hdr pg 22 2

/-- The token slot of each data byte of a page, block by block (R148). -/
def slotOfByte (abf : Bool) (d h t : Nat) : List Nat :=
  ((slotBytes abf d).map (fun b => (List.range (h * t * b)).map (fun i => i / b % t))).flatten

/-- The sealed byte sequence of a page of layer `l` (R150). -/
def State.sealedBytes (s : State) (p l pg : Nat) : List Byte :=
  let hd := (s.look (s.pageAt pg 0) 256).1
  let count := leNat ((hd.drop 12).take 2)
  let data := (s.look (s.pageAt pg 512) (s.layerBytes p l)).1
  (hd.set 18 0).drop 4 ++
    List.zipWith (fun b t => if t < count then b else 0) data
      (slotOfByte (s.layerAbf p l) (s.layerD p l) (s.layerH p l) (s.pageT p))

/-- The CRC-32C that a whole-page read of the page forms. -/
def State.sealCalc (s : State) (p l pg : Nat) : Nat := crc32c (s.sealedBytes p l pg)

/-- A word of the page reads with an on-die uncorrectable error. -/
def State.pageUe (s : State) (p l pg : Nat) : Bool :=
  (s.look (s.pageAt pg 0) 256).2 || (s.look (s.pageAt pg 512) (s.layerBytes p l)).2

/-- The page passes a whole-page read (R151, R229); a pending page carries no seal. -/
def State.sealOk (s : State) (p l pg : Nat) : Bool :=
  !s.pageUe p l pg && ((s.led pg).pending || s.hdr pg 0 4 == s.sealCalc p l pg)

/-- A change to sealed bytes, with the seal updated from the old and new contents (R150): since the CRC is linear, a page
that did not match its seal before does not match it after. -/
def State.sealing (s : State) (p l pg : Nat) (f : State → State) : State :=
  let t := f s
  if (t.led pg).pending then t
  else t.setHdr pg 0 4 (s.hdr pg 0 4 ^^^ s.sealCalc p l pg ^^^ t.sealCalc p l pg)

/-! Allocation and release (R157, R158). -/

/-- A frame of a pool channel is free. -/
def State.frameFree (s : State) (c f : Nat) : Bool :=
  let pg := s.pageNo c f
  !s.ledBad pg && !(s.led pg).valid

/-- The channel takes new frames: it is not out of service for Thapel work (R238). -/
def State.chanAlloc (s : State) (c : Nat) : Bool := !s.fbit THAPEL_OOS.OOS (hubOfChan c) (c % 192 / 32) (c % 192 % 32)

/-- The lowest free frame of a channel (DESIGN CHOICE, assumption 21). -/
def State.freeFrame (s : State) (c : Nat) : Option Nat :=
  if s.chanAlloc c then (List.range (s.frames c)).find? (s.frameFree c) else none

/-- Free frames of the partition. -/
def State.freeCount (s : State) (p : Nat) : Nat :=
  ((s.poolChans p).map (fun c =>
    if s.chanAlloc c then ((List.range (s.frames c)).filter (s.frameFree c)).length else 0)).sum

/-- Frames of a hub's pools that are free: their entries can be read and are not VALID. -/
def State.hubFree (s : State) (h : Nat) : Nat :=
  (s.img.pools.map (fun (c, _) =>
    if hubOfChan c = h then ((List.range (s.frames c)).filter (s.frameFree c)).length else 0)).sum

/-- The ledger engine reads a page's entry (R265, R276): a word that it finds uncorrectable is recorded, its entries are
withheld, and KV_POOL_FREE excludes their frames. -/
def State.seeLed (s : State) (pg : Nat) : State :=
  let a := s.ledAt pg
  let c := s.closeRange a 16
  let t := s.engSee 8 (s.led pg).part a 16
  if c.verd (wordOf (c.cls a) a) = .ue then t.fset KV_POOL_FREE.FREE_FRAMES (hubOfPage pg) 0 (t.hubFree (hubOfPage pg)) else t

/-- The page's channel is not in memory mode: a hub engine's access to it waits for a yield (R219, R235). -/
def State.pageHeld (s : State) (pg : Nat) : Bool := (Tbl.get {} s.chans (s.led pg).chan).mode != .memory

/-- The next frame for a session: round robin over the pool channels from where it stands (R157). -/
def State.nextFrame (s : State) (p slot : Nat) : Option (Nat × Nat × Nat) :=
  let cs := s.poolChans p
  let start := if Tbl.get 0 s.allocAt slot = 0 then slot % max 1 cs.length else Tbl.get 0 s.allocAt slot - 1
  (List.range cs.length).findSome? (fun i =>
    let x := (start + i) % cs.length
    match cs[x]? with
    | some c => (s.freeFrame c).map (fun f => (x, c, f))
    | none => none)

/-- What a new page is to hold in its header: layer, history index, position, segment, ring index, flags and owner. -/
structure PageInit where
  layer : Nat
  tok : Nat
  pos : Nat
  seg : Nat
  ring : Nat
  flags : Nat
  owner : Nat
  deriving DecidableEq, Repr

/-- The geometry byte of a layer's page headers (Table 6.2). -/
def State.geomOf (s : State) (p l : Nat) : Nat := s.sess p 1 1 % 4 + 4 * s.kvLay p l 1 + 16 * s.kvLay p l 0

/-- The page header of a new page, its seal apart (Table 6.2, R152). -/
def State.initHeader (s : State) (p : Nat) (i : PageInit) : List Byte :=
  let sc (h off : Nat) : List Byte := natLE 4 (fld (Tbl.get 0 s.img.kvScales ((p * 65536 + i.layer) * 16 + h)) off 4)
  natLE 4 0 ++ natLE 4 i.tok ++ natLE 4 i.pos ++ natLE 2 0 ++ natLE 2 i.seg ++ natLE 2 i.ring ++
    natLE 1 (i.flags / 2 % 16) ++ natLE 1 (s.geomOf p i.layer) ++ natLE 1 (s.layerH p i.layer) ++ natLE 1 0 ++ natLE 2 i.layer ++
    natLE 4 i.owner ++ natLE 36 0 ++ ((List.range 16).map (fun h => sc h 0)).flatten ++
    ((List.range 16).map (fun h => sc h 4)).flatten ++ natLE 64 0

/-- A page allocated for a session: REF 1, PIN 0, header and seal written (R149, R150, R157); frames of the channel whose
entries cannot be read are passed over. -/
def State.newPage (s : State) (p slot : Nat) (i : PageInit) : Option (State × Nat) :=
  match s.nextFrame p slot with
  | none => none
  | some (x, c, f) =>
    let pg := s.pageNo c f
    let n := (s.poolChans p).length
    let s0 := ((List.range f).filter (fun g => s.ledBad (s.pageNo c g))).foldl (fun t g => t.seeLed (t.pageNo c g)) s
    let s1 := State.poolFree (s0.withAllocAt (Tbl.put 0 s0.allocAt slot ((x + 1) % max 1 n + 1))) (hubOfChan c) false
    let s2 := s1.setLed pg ⟨1, 0, 1 + i.flags / 2 * 2, p, c, f⟩
    let s3 := s2.engWrite 6 p (s2.pageAt pg 0) (s2.initHeader p i)
    some (if i.flags.testBit 4 then s3 else s3.setHdr pg 0 4 (s3.sealCalc p i.layer pg), pg)

/-- The entry and its frame are released (R158). -/
def State.release (s : State) (pg : Nat) : State :=
  let e := s.led pg
  State.poolFree (State.setLed (s.withDropLater (s.dropLater.filter (·.1 != pg))) pg
    { e with ref := 0, pin := 0, flags := 0 }) (hubOfPage pg) true

/-- The page is dropped: DROPPED in the entry and the header (R176). -/
def State.dropPage (s : State) (pg : Nat) : State :=
  let e := s.led pg
  if s.ledBad pg || !e.valid || e.dropped then s
  else (s.setLed pg { e with flags := setBit e.flags 3 true }).setHdr pg 18 1 (setBit (s.hdr pg 18 1) 2 true)

/-- What a pin answers. -/
inductive PinAns where
  | ok | dropped | held
  deriving DecidableEq, Repr

/-- A pin (R158); an entry that cannot be read answers DROPPED (Table 10.8). -/
def State.pin (s0 : State) (pg : Nat) : State × PinAns :=
  let s := s0.seeLed pg
  let e := s.led pg
  if s.ledBad pg || !e.valid || e.dropped then (s, .dropped)
  else if e.pin = 0xFFFF then (s, .held)
  else (s.setLed pg { e with pin := e.pin + 1 }, .ok)

/-- A reference is removed (R158). -/
def State.unref (s0 : State) (pg : Nat) : State :=
  let s := s0.seeLed pg
  let e := s.led pg
  if s.ledBad pg || !e.valid || e.ref == 0 then s
  else
    let s1 := s.setLed pg { e with ref := e.ref - 1 }
    if e.ref = 1 ∧ e.pin = 0 then s1.release pg else s1

/-- A reference is added, or the answer is FULL (R158). -/
def State.ref (s0 : State) (pg : Nat) : State × Bool :=
  let s := s0.seeLed pg
  let e := s.led pg
  if s.ledBad pg || !e.valid || e.ref == 0xFFFF then (s, false)
  else (s.setLed pg { e with ref := e.ref + 1 }, true)

/-- A pin of the page would be held (R158): what needs it waits for an unpin. -/
def State.pinWaits (s : State) (pg : Nat) : Bool :=
  let e := s.led pg
  !s.ledBad pg && e.valid && !e.dropped && e.pin == 0xFFFF

/-- A hub engine that is to pin and copy the page waits: the pin would be held, or the page's channel holds accesses. -/
def State.pageWaits (s : State) (pg : Nat) : Bool := s.pinWaits pg || s.pageHeld pg

/-- A page that KV_DROP met pinned is dropped at its last unpin (R179): the entry that named it is marked DROPPED and the
page unreferenced, which releases its frame. -/
def State.dropNow (s : State) (pg : Nat) : State :=
  match s.dropLater.find? (·.1 == pg) with
  | none => s
  | some (_, p, slot, l, k) =>
    let v := s.pte p slot l k
    let t := s.withDropLater (s.dropLater.filter (·.1 != pg))
    if pteValid v && ptePage v == pg then ((t.setPte p slot l k (pteDrop v)).setRecFlag p slot 2 true).unref pg else t

/-- The pin of a page is removed (R158): a held pin takes its place; at the last one a page without references is released,
and a page that KV_DROP met pinned is dropped (R179). -/
def State.unpin (s0 : State) (pg : Nat) : State :=
  let s := s0.seeLed pg
  let e := s.led pg
  if s.ledBad pg || !e.valid || e.pin == 0 then s
  else match s.pinHeld.find? (fun h => h.1 == pg) with
    | some h => (s.withPinHeld (s.pinHeld.erase h))
    | none =>
      let s1 := s.setLed pg { e with pin := e.pin - 1 }
      if e.pin ≠ 1 then s1
      else if e.ref = 0 then s1.release pg
      else s1.dropNow pg

/-- A seal mismatch or on-die error on a whole-page read (R176, R229): the page is dropped, counted and recorded; `handle`
is the reading session's, `src` the SOURCE of the reader. -/
def State.sealFail (s : State) (p l pg handle src : Nat) : State :=
  let h := hubOfPage pg
  let e := s.led pg
  let ue := s.pageUe p l pg
  let s1 := (s.fcount KV_COUNT.SEAL_FAILS h 0).evt KV_EVENT.SEAL_FAIL h 0 1 (some p)
  (s1.record h
    { cause := if ue then 0x08 else 0x09, sev := 2, src := src, part := some p, unit := e.chan
      addr := s.physOf e.chan (e.frame * s.frameSize p), pos := 0xFFFF
      syn := if ue then 0 else s.hdr pg 0 4 + 2 ^ 32 * s.sealCalc p l pg
      info0 := pg, info1 := if ue then 0 else handle }).dropPage pg

/-- Every slot's bytes of a page, for one token: block offset and length of each head. -/
def slotPieces (abf : Bool) (d h t x : Nat) : List (Nat × Nat) :=
  ((List.range (slotBytes abf d).length).map (fun i =>
    let b := (slotBytes abf d).getD i 0
    (List.range h).map (fun k => (blockOff abf d h t i + (k * t + x) * b, b)))).flatten

/-- K, V and scale bytes of one slot copied to a slot of another page of the layer (R164). -/
def State.copySlot (s : State) (p l src x dst y : Nat) : State :=
  let (abf, d, h, t) := (s.layerAbf p l, s.layerD p l, s.layerH p l, s.pageT p)
  ((slotPieces abf d h t x).zip (slotPieces abf d h t y)).foldl (fun u ((a, n), (b, _)) =>
    u.engWrite 6 p (u.pageAt dst b) (u.look (u.pageAt src a) n).1) s

/-- The header and the slots below TOKEN_COUNT copied to another page of the layer; seal and owner follow (R158). -/
def State.copyPage (s : State) (p l src dst count owner : Nat) : State :=
  let s1 := (List.range count).foldl (fun t x => t.copySlot p l src x dst x) s
  let hd := (s1.look (s1.pageAt src 4) 252).1
  let s2 := s1.engWrite 6 p (s1.pageAt dst 4) hd
  let s3 := ((s2.setHdr dst 12 2 count).setHdr dst 24 4 owner).setHdr dst 18 1 ((s2.led dst).flags / 2 % 16)
  s3.setHdr dst 0 4 (s3.sealCalc p l dst)

/-! The ledger engine's commands. -/

/-- LEDGER_PIN (R158): PIN rises, or DROPPED is answered; at 0xFFFF the request is held until an unpin. -/
def execLedgerPin (page thread : Nat) (s : State) : Host.Outcome State Fault Refusal :=
  ok (pageOk page) s
    (match s.pin page with
     | (t, .ok) => t.answer .ok []
     | (t, .dropped) => t.answer .refused []
     | (t, .held) => State.answer (t.withPinHeld (t.pinHeld ++ [(page, thread)])) .none [])

/-- LEDGER_UNPIN (R158). -/
def execLedgerUnpin (page : Nat) (s : State) : Host.Outcome State Fault Refusal := ok (pageOk page) s (s.unpin page)

/-- LEDGER_REF (R158). -/
def execLedgerRef (page : Nat) (s : State) : Host.Outcome State Fault Refusal :=
  ok (pageOk page) s
    (let (t, done) := s.ref page
     t.answer (if done then .ok else .refused) [])

/-- LEDGER_UNREF (R158). -/
def execLedgerUnref (page : Nat) (s : State) : Host.Outcome State Fault Refusal := ok (pageOk page) s (s.unref page)

end Sys2Proof.Machine
end

