-- ==== Sys2Proof/Machine/Accounts.lean ====
section
/-!
DEFINITION. Bandwidth accounts (chapter 9): windows, spending, holding, the level at which a request travels, urgency.
-/

namespace Sys2Proof.Machine

/-- What an account's register gives: window in ns, guarantee and best effort in bytes (none: unlimited), and the factor
that scales the guarantee (R242, R244, R252). -/
structure AcctCfg where
  window : Nat
  guar : Nat
  be : Option Nat
  factor : Nat
  deriving DecidableEq, Repr

/-- GUAR scaled at a window boundary, in bytes (R252). -/
def AcctCfg.scaled (a : AcctCfg) : Nat := a.guar / 64 * a.factor / 1024 * 64

/-- The hubs on which a partition's windows hold channels. -/
def State.chargedHubs (s : State) (p : Nat) : List Nat :=
  (List.range 4).filter (fun h => (List.range 192).any (fun i => s.chanPart (192 * h + i) == some p))

/-- The smallest factor among the hubs that an account of partition `p` is charged to (R252). -/
def State.minFactor (s : State) (p : Nat) : Nat := ((s.chargedHubs p).map (fun h => s.fget BWR_SCALE.FACTOR h 0)).foldl min 1024

/-- BE in bytes; 0xF_FFFF is unlimited. -/
def beOf (v : Nat) : Option Nat := if v = 0xFFFFF then none else some (v * 64)

/-- Account `k` of a hub, if it is in use. -/
def State.acctCfg (s : State) (h k : Nat) : Option AcctCfg :=
  if s.fget BWR_ACCT.VALID h k = 1 then
    some ⟨s.fget BWR_ACCT.WINDOW_8NS h k * 8, s.fget BWR_ACCT.GUAR h k * 64, beOf (s.fget BWR_ACCT.BE h k),
      s.minFactor (s.fget BWR_ACCT.PART h k)⟩
  else none

/-- The Thapel account of partition `n` on a hub, if it is in use. -/
def State.thapelCfg (s : State) (h n : Nat) : Option AcctCfg :=
  if s.fget BWR_THAPEL_ACCT.VALID h n = 1 then
    some ⟨s.fget BWR_THAPEL_ACCT.WINDOW_8NS h n * 8, s.fget BWR_THAPEL_ACCT.GUAR h n * 64,
      beOf (s.fget BWR_THAPEL_ACCT.BE h n), s.fget BWR_SCALE.FACTOR h 0⟩
  else none

/-- The key of an account's run-time state. -/
def acctKey (h k : Nat) : Nat := h * 256 + k

/-- The key of the run-time state of a channel's Thapel sequencer (R243). -/
def thapelKey (c : Nat) : Nat := 1024 + c

/-- An account's run-time state. -/
def State.acct (s : State) (key : Nat) : Acct := Tbl.get {} s.accts key

/-- The state with an account's run-time state changed. -/
def State.onAcct (s : State) (key : Nat) (f : Acct → Acct) : State := { s with accts := Tbl.upd {} s.accts key f }

/-- What urgency lets an account borrow in a window (R249). -/
def borrowLimit (a : AcctCfg) (u : Nat) : Nat :=
  let t := a.guar + a.be.getD 0
  if u = 0 then 0 else if u = 1 then t / 16 else if u = 2 then t / 8 else t / 4

/-- A window begins: budgets are reset less the debt, which best effort bears first (R244, R246). -/
def Acct.boundary (x : Acct) (a : AcctCfg) (now : Nat) : Acct :=
  let b := a.be.getD 0
  let rest := match a.be with
    | none => 0
    | some _ => x.debt - b
  { x with win := now / max 1 a.window + 1, guar := a.scaled - rest, be := b - x.debt, debt := 0, borrowed := 0 }

/-- The allowance that is left (R245, R246). -/
def Acct.allowance (x : Acct) (a : AcctCfg) (u : Nat) : Nat :=
  x.guar + x.be + (borrowLimit a u - x.borrowed)

/-- A request is charged: the guarantee first, then best effort, then borrowing; the rest is debt (R245, R246). -/
def Acct.spend (x : Acct) (a : AcctCfg) (u n : Nat) : Acct :=
  let g := min n x.guar
  let n1 := n - g
  match a.be with
  | none => { x with guar := x.guar - g }
  | some _ =>
    let b := min n1 x.be
    let n2 := n1 - b
    let w := min n2 (borrowLimit a u - x.borrowed)
    { x with guar := x.guar - g, be := x.be - b, borrowed := x.borrowed + w, debt := x.debt + (n2 - w) }

/-- The level at which a request travels: that of its first byte (R245, R248, Table 9.3). -/
def Acct.level (x : Acct) (u : Nat) : Nat := if x.guar ≠ 0 then (if u ≥ 2 then 3 else 2) else if u ≥ 1 then 1 else 0

/-- The request may be released: its account is unlimited, or 64 B of allowance remain (R246). -/
def Acct.may (x : Acct) (a : AcctCfg) (u : Nat) : Bool := a.be.isNone || decide (x.allowance a u ≥ 64)

/-- A request is charged; the first borrowing of a window sets BORROW (R249). -/
def State.charge (s : State) (h key : Nat) (a : AcctCfg) (u n : Nat) : State :=
  let x := s.acct key
  let y := x.spend a u n
  let s1 := s.onAcct key (fun _ => y)
  if x.borrowed = 0 ∧ y.borrowed ≠ 0 then s1.evt BWR_EVENT.BORROW h 0 1 none else s1

/-- Held requests go in order while allowance remains. -/
def State.releaseHeld (s : State) (h key : Nat) (a : AcctCfg) (u : Nat) : Nat → State
  | 0 => s
  | fuel + 1 =>
    match (s.acct key).held with
    | [] => s
    | n :: rest =>
      if (s.acct key).may a u then
        State.releaseHeld ((s.charge h key a u n).onAcct key (fun x => { x with held := rest })) h key a u fuel
      else s

/-- The urgency level of a master (R249): of a fabric or host port as last sampled, of other masters 0. -/
def State.urgency (s : State) (h m : Nat) : Nat :=
  if 16 ≤ m ∧ m < 20 then s.fgetAt BWR_URGENCY.FAB0 h 0 (2 * (m - 16))
  else if m = 20 then s.fget BWR_URGENCY.HOST h 0
  else 0

/-- The urgency of a channel's Thapel sequencer: the fill of its result buffer, by halves (R249). -/
def State.thapelUrgency (s : State) (c : Nat) : Nat :=
  let n := (Tbl.get {} s.chans c : Chan).halves.length
  if n = 0 then 0 else if n = 1 then 1 else 3

/-- A window of an account whose boundary has come. -/
def State.boundaryOf (s : State) (h key : Nat) (a : AcctCfg) (u : Nat) : State :=
  if s.time / max 1 a.window + 1 > (s.acct key).win then
    let s1 := s.onAcct key (fun x => x.boundary a s.time)
    s1.releaseHeld h key a u (s1.acct key).held.length
  else s

/-- The accounts of partition `p` start afresh: nothing to spend until their first boundary (R255, Table 9.4). -/
def State.restartAccts (s : State) (p : Nat) : State :=
  (List.range 4).foldl (fun t h =>
    let t1 := ((List.range 128).filter (fun k => t.fget BWR_ACCT.VALID h k == 1 && t.fget BWR_ACCT.PART h k == p)).foldl
      (fun u k => u.onAcct (acctKey h k) (fun _ => { win := u.time / max 1 (u.fget BWR_ACCT.WINDOW_8NS h k * 8) + 1 })) t
    ((s.poolChans p).filter (fun c => hubOfChan c == h)).foldl (fun u c =>
      u.onAcct (thapelKey c) (fun _ => { win := u.time / max 1 (u.fget BWR_THAPEL_ACCT.WINDOW_8NS h p * 8) + 1 })) t1) s

/-- The opcodes whose tier-1 requests a tile yarder is charged for: COPY, EMBED, attention, KV_APPEND (Table 9.1). -/
def chargedOp (op : Nat) : Bool := [0x03, 0x04, 0x05, 0x0D, 0x0E, 0x10].contains op

/-- A yarder's request to tier 1 is released: charged to its account, with the level at which it travels; none while it is
held (R245, R247). A request that no account covers has unlimited best effort (R242). -/
def State.yardRelease (s : State) (tile part op place n : Nat) : Option (State × Nat) :=
  let h := hubOfTile tile
  if (chanOfPlace place).isNone || !chargedOp op then some (s, 2)
  else match s.account h (tile % 16) part with
    | none => some (s, 0)
    | some k => match s.acctCfg h k with
      | none => some (s, 0)
      | some a =>
        let key := acctKey h k
        let t := s.boundaryOf h key a 0
        let x := t.acct key
        if x.held = [] ∧ x.may a 0 = true then some (t.charge h key a 0 n, x.level 0) else none

end Sys2Proof.Machine
end

