-- ==== Sys2Proof/Machine/Sess.lean ====
section
/-!
DEFINITION. Sessions (R153 to R180): session records, page tables and token histories; which tokens each page holds; what a
command reserves; copy-on-write; coppicing; the commit of a step's tokens; regrowth.
-/

namespace Sys2Proof.Machine

/-! Histories and lists. -/

/-- The place of a history entry. -/
def State.histAt (s : State) (p slot i : Nat) : Nat := s.engAt (s.homeHub p) (s.srec p slot 40 8 + 4 * i)

/-- An entry of the token history. -/
def State.hist (s : State) (p slot i : Nat) : Nat := s.lookN (s.histAt p slot i) 4

/-- The entries of a layer's list: PAGES of a full-context layer, the ring's of a ring layer. -/
def State.listLen (s : State) (p slot l : Nat) : Nat :=
  if s.layerW p l = 0 then s.srec p slot 20 4 else s.layerW p l / s.pageT p

/-- Every entry of a session's lists: layer and index. -/
def State.entries (s : State) (p slot : Nat) : List (Nat × Nat) :=
  (s.layers p).flatMap (fun l => (List.range (s.listLen p slot l)).map (fun k => (l, k)))

/-- Slot, layer and index of the page-table entry at an address of the partition's tables. -/
def State.entryAt (s : State) (p a : Nat) : Nat × Nat × Nat :=
  let t := s.ptEntries p
  let i := (a - s.tableBase p (s.sess p 4 4)) / 4
  let n := ((s.layers p).foldl max 0 + 1) * t
  (s.sess p 4 4 + i / n, i % n / t, i % t)

/-- An unreadable page-table entry is rewritten as DROPPED with PAGE 0, which clears its poison, and HAS_DROPPED is set
(Table 10.8); the read is recorded (R276). Entries are read and written a word at a time, so every listed entry of the word
goes, and what is no session's is zero. -/
def State.mendPte (s : State) (p slot l k : Nat) : State :=
  let k0 := s.pteAt p slot l k
  let a := s.srec p slot 32 8 + (l * s.ptEntries p + k) * 4
  let cell (i : Nat) : Option Nat :=
    let (x, y, z) := s.entryAt p (a - a % 64 + 4 * i)
    if s.slotIn p x && s.srec p x 2 1 == 1 && (s.entries p x).contains (y, z) then some x else none
  let t := (s.engSee 6 p k0 4).storeClean (k0 - k0 % 64) ((List.range 16).map (fun i =>
    natLE 4 (if (cell i).isSome then 2 ^ 25 else 0))).flatten
  (((List.range 16).filterMap cell).eraseDups).foldl (fun u x => u.setRecFlag p x 2 true) t

/-! Which tokens the pages hold (R162, R506). -/

/-- The tokens of one full-context page: first history index, count, segment, position of the first. -/
structure PRange where
  first : Nat
  count : Nat
  seg : Nat
  pos : Nat
  deriving DecidableEq, Repr

/-- `n` tokens of a segment cut into pages of `t`. -/
def cutRun (t : Nat) : Nat → Nat → Nat → Nat → Nat → List PRange
  | 0, _, _, _, _ => []
  | fuel + 1, first, n, seg, pos =>
    if n = 0 then [] else ⟨first, min n t, seg, pos⟩ :: cutRun t fuel (first + t) (n - t) seg (pos + t)

/-- `n` tokens of a segment appended: into the last page while it has the segment and room, then into new pages; a page is
never shared by two segments (R162). A position counts the tokens of its segment (Table 5.2). -/
def addRun (t : Nat) (rs : List PRange) (first n seg : Nat) : List PRange :=
  let pos := ((rs.filter (fun r => r.seg == seg)).map PRange.count).sum
  match rs.getLast? with
  | some r =>
    if r.seg = seg ∧ r.count < t then
      let m := min n (t - r.count)
      rs.dropLast ++ [{ r with count := r.count + m }] ++ cutRun t n (first + m) (n - m) seg (pos + m)
    else rs ++ cutRun t n first n seg pos
  | none => cutRun t n first n seg pos

/-- The segment runs of a record: first index and segment. -/
def State.segRuns (s : State) (p slot : Nat) : List (Nat × Nat) :=
  (List.range (min 32 (s.srec p slot 10 2))).map (fun i => (s.srec p slot (64 + 8 * i) 4, s.srec p slot (68 + 8 * i) 2))

/-- The page ranges that segment runs up to `n` give. -/
def rangesOfRuns (t n : Nat) (runs : List (Nat × Nat)) : List PRange :=
  (runs.zip ((runs.drop 1).map Prod.fst ++ [n])).foldl (fun rs ((f, g), e) =>
    addRun t rs f (min e n - f) g) []

/-- What the header of entry `k` says, in a full-context layer where the entry is present. -/
def State.presentRange (s : State) (p slot k : Nat) : Option PRange :=
  (s.fullLayers p).findSome? (fun l =>
    let v := s.pte p slot l k
    let pg := ptePage v
    if pteValid v && !s.pteBad p slot l k && (s.led pg).valid then
      some ⟨s.hdr pg 4 4, s.hdr pg 12 2, s.hdr pg 14 2, s.hdr pg 8 4⟩
    else none)

/-- The ranges of a session whose segment table has overflowed: from page headers, an absent entry spanning the bounds of
its present neighbours (R506). -/
def State.headerRanges (s : State) (p slot : Nat) : List PRange :=
  let ps := (List.range (s.srec p slot 20 4)).map (s.presentRange p slot)
  ps.mapIdx (fun i r => match r with
    | some r => r
    | none =>
      let lo := match (ps.take i).reverse.findSome? id with
        | some q => q.first + q.count
        | none => 0
      let hi := match (ps.drop i).findSome? id with
        | some q => q.first
        | none => s.sessN p slot
      ⟨lo, hi - lo, 0, 0⟩)

/-- The tokens of each page-table entry of the session's full-context layers (R506). -/
def State.ranges (s : State) (p slot : Nat) : List PRange :=
  if s.recFlag p slot 3 then s.headerRanges p slot
  else rangesOfRuns (s.pageT p) (s.sessN p slot) (s.segRuns p slot)

/-- Ranges with tokens appended from index `n`, each of its segment. -/
def extendRanges (t : Nat) (rs : List PRange) (n : Nat) (segs : List Nat) : List PRange :=
  (segs.foldl (fun (a : List PRange × Nat) g => (addRun t a.1 a.2 1 g, a.2 + 1)) (rs, n)).1

/-- The entry and slot of a history index. -/
def findIn (rs : List PRange) (i : Nat) : Option (Nat × Nat) :=
  match rs.findIdx? (fun r => decide (r.first ≤ i) && decide (i < r.first + r.count)) with
  | some k => (rs[k]?).map (fun r => (k, i - r.first))
  | none => none

/-- CUR_SEGMENT (Table 6.3); 0 for an empty session. -/
def State.curSeg (s : State) (p slot : Nat) : Nat := if s.sessN p slot = 0 then 0 else s.srec p slot 8 2

/-- N_σ: the committed tokens of a segment below history index `n` (Table 5.2). -/
def State.segCount (s : State) (p slot n seg : Nat) : Nat :=
  (((s.ranges p slot).filter (fun r => r.seg == seg)).map (fun r => min r.count (n - r.first))).sum

/-! Graphs (Table 16.8). -/

/-- A field of a graph's commit entry. -/
def State.commitF (s : State) (p g off n : Nat) : Nat := fld (Tbl.get 0 s.img.commits (p * 16 + g)) off n

/-- The operators of a graph, each with its run. -/
def State.graphOps (s : State) (p g : Nat) : List (Nat × Nat) :=
  ((List.range 64).flatMap (fun j => (List.range 256).map (fun k => Tbl.get 0 s.img.runs (graphKey p g j k)))).flatMap
    (fun r => (List.range (fld r 2 2)).map (fun i => (Tbl.get 0 s.img.descs (p * 65536 + fld r 0 2 + i), r)))

/-- The graph contains an operator of an opcode. -/
def State.graphHas (s : State) (p g op : Nat) : Bool := (s.graphOps p g).any (fun (d, _) => fld d 0 1 == op)

/-- The layers into which the graph appends with DRAFT. -/
def State.draftLayers (s : State) (p g : Nat) : List Nat :=
  (((s.graphOps p g).filter (fun (d, _) => fld d 0 1 == 0x10 && (fld d 11 1).testBit 0)).flatMap
    (fun (d, r) => (List.range (fld r 4 2)).map (fun i => (fld d 14 2 + i * fld r 8 2) % 65536))).eraseDups

/-- The layers whose appends go to pending pages (R163). -/
def State.pendLayers (s : State) (p g : Nat) : List Nat :=
  (s.layers p).filter (fun l => s.layerW p l != 0 || (s.draftLayers p g).contains l)

/-! Commands that name sessions (R304). -/

/-- The home hub's key of an execution slot of a partition. -/
def State.execKey (s : State) (p x : Nat) : Nat := s.homeHub p * 1024 + x

/-- A started command. -/
def State.execOf (s : State) (p x : Nat) : Exec := Tbl.get {} s.execs (s.execKey p x)

/-- The state with a started command changed. -/
def State.onExec (s : State) (p x : Nat) (f : Exec → Exec) : State :=
  { s with execs := Tbl.upd {} s.execs (s.execKey p x) f }

/-- A field of the command's deck entry. -/
def Exec.f (e : Exec) (off n : Nat) : Nat := fld e.entry off n

/-- The command's opcode (Table 12.2). -/
def Exec.opcode (e : Exec) : Nat := e.f 0 1

/-- The handles a command names. -/
def Exec.handles (e : Exec) : List Nat :=
  if e.opcode = 1 then e.f 4 4 :: (List.range (min 7 (e.f 17 1 - 1))).map (fun i => e.f (36 + 4 * i) 4)
  else if e.opcode = 2 then (if (e.f 16 1).testBit 0 then [] else [e.f 4 4])
  else if e.opcode ≤ 5 then [e.f 4 4] else []

/-- The session slots a command works on; KV_COPY's destination among them. -/
def Exec.slots (e : Exec) : List Nat :=
  (e.handles.filter (fun h => !h.testBit 15)).map (· % 32768) ++ (if e.opcode = 2 then [e.f 20 4 % 32768] else [])

/-- The commands in execution of a partition: slot and command. -/
def State.partExecs (s : State) (p : Nat) : List (Nat × Exec) :=
  s.execs.filterMap (fun (k, e) =>
    if e.busy && k / 1024 == s.homeHub p && s.fget DECK_QCFG.PART e.deck 0 == p then some (k % 1024, e) else none)

/-- No command that started earlier and is still in execution names a session of this one (R304). -/
def State.sessionsFree (s : State) (p : Nat) (e : Exec) : Bool :=
  (s.partExecs p).all (fun (_, o) => decide (e.order ≤ o.order) || o.slots.all (fun x => !e.slots.contains x))

/-- Some command in execution names the session. -/
def State.slotBusy (s : State) (p slot : Nat) : Bool := (s.partExecs p).any (fun (_, e) => e.slots.contains slot)

/-! Dropped pages and repair (R167, R176). -/

/-- One entry looked at for the next reservation: an unreadable one is mended; one whose page the ledger has dropped is
marked DROPPED and unreferenced (R176). -/
def State.markEntry (s : State) (p slot l k : Nat) : State :=
  if s.pteBad p slot l k then s.mendPte p slot l k
  else
    let t := s.engSee 6 p (s.pteAt p slot l k) 4
    let v := t.pte p slot l k
    let s := if pteValid v then t.seeLed (ptePage v) else t
    let e := s.led (ptePage v)
    if pteValid v && (e.dropped || !e.valid || s.ledBad (ptePage v)) then
      ((s.unref (ptePage v)).setPte p slot l k (pteDrop v)).setRecFlag p slot 2 true
    else s

/-- Every entry of the session is looked at. -/
def State.markDropped (s : State) (p slot : Nat) : State :=
  (s.entries p slot).foldl (fun t (l, k) => t.markEntry p slot l k) s

/-- After a commit that stopped (R167): entries beyond the committed tokens are given up, and the last page's TOKEN_COUNT is
lowered to match N, its seal with it. -/
def State.repairSess (s : State) (p slot : Nat) : State :=
  let n := s.sessN p slot
  let rs := (s.ranges p slot).filter (fun r => r.first < n)
  let len := if s.recFlag p slot 3 then s.srec p slot 20 4 else rs.length
  (s.fullLayers p).foldl (fun t l =>
    let t1 := (List.range (t.ptEntries p - len)).foldl (fun u i =>
      let v := u.pte p slot l (len + i)
      if pteValid v then (u.unref (ptePage v)).setPte p slot l (len + i) 0 else u) t
    match rs[len - 1]? with
    | none => t1
    | some r =>
      let v := t1.pte p slot l (len - 1)
      let pg := ptePage v
      let want := min (t1.pageT p) (n - r.first)
      if len != 0 && pteValid v && (t1.led pg).valid && decide (t1.hdr pg 12 2 > want) then
        t1.sealing p l pg (fun u => u.setHdr pg 12 2 want)
      else t1) s

/-! Reservation (R161). -/

/-- FLAGS of a page allocated for a session: VALID, DROPPABLE unless NO_COPPICE or SEG_OVERFLOW, PREFETCHABLE (R171, R186),
RING for a ring layer. -/
def pageFlags (droppable ring : Bool) : Nat := 1 + (if droppable then 2 else 0) + 4 + (if ring then 32 else 0)

/-- FLAGS of a pending page: VALID, PREFETCHABLE, PENDING. -/
def pendFlags : Nat := 1 + 4 + 16

/-- What a reservation needs for one session: pages to copy, entries of full-context layers to add, ring entries to add,
pending pages, pages of scratch rings. -/
structure Plan where
  copies : List (Nat × Nat)
  news : List (Nat × Nat)
  rings : List (Nat × Nat)
  pends : List (Nat × Nat)
  scratch : List (Nat × Nat)
  deriving DecidableEq, Repr

/-- Frames a plan takes. -/
def Plan.size (q : Plan) : Nat := q.copies.length + q.news.length + q.rings.length + q.pends.length + q.scratch.length

/-- The ring entries that `count` tokens from index `n` fall into (R166). -/
def ringHits (w t n count : Nat) : List Nat := ((List.range count).map (fun i => (n + i) % w / t)).eraseDups

/-- Table 6.6: the range to recompute and the ring layers to rebuild; none when nothing is dropped. -/
def State.regrowRange (s : State) (p slot : Nat) : Option (Nat × Nat × List Nat) :=
  let n := s.sessN p slot
  let rs := s.ranges p slot
  let ds := (s.entries p slot).filter (fun (l, k) => pteDropped (s.pte p slot l k))
  let full := (ds.filter (fun (l, _) => s.layerW p l == 0)).map Prod.snd
  let rebuild := ((ds.filter (fun (l, _) => s.layerW p l != 0)).map Prod.fst).eraseDups
  if ds = [] then none
  else
    let firsts := full.map (fun k => (rs.getD k ⟨n, 0, 0, 0⟩).first) ++ rebuild.map (fun l => n - s.layerW p l)
    let s1 := firsts.foldl min n
    let sum := ((s.ringLayers p).map (s.layerW p)).sum
    let s0 := if s.ringLayers p = [] then s1 else s1 - sum
    let start := match findIn rs s0 with
      | some (k, _) => (rs.getD k ⟨0, 0, 0, 0⟩).first
      | none => s0
    let stop := if rebuild ≠ [] then n
      else (full.map (fun k => let r := rs.getD k ⟨0, 0, 0, 0⟩; r.first + r.count)).foldl max 0
    some (start, stop, rebuild)

/-- The pages of a session's scratch rings, in a regrowth: one ring for each ring layer whose ring is present (R173). -/
def State.scratchOf (s : State) (p slot : Nat) : List (Nat × Nat) :=
  if !s.recFlag p slot 2 then []
  else match s.regrowRange p slot with
    | none => []
    | some (_, _, rebuild) => ((s.ringLayers p).filter (fun l => !rebuild.contains l)).flatMap (fun l =>
        (List.range (s.layerW p l / s.pageT p)).map (fun k => (l, k)))

/-- The plan of a session for tokens of the given segments; `seen` counts the copies that sessions before it have claimed
of each page (R160). -/
def State.planFor (s : State) (p slot : Nat) (segs : List Nat) (pendL : List Nat) (seen : List Nat) : Plan × List Nat :=
  let t := s.pageT p
  let n := s.sessN p slot
  let old := s.ranges p slot
  let ext := extendRanges t old n segs
  let full := s.fullLayers p
  let grows := match old.getLast?, ext[old.length - 1]? with
    | some a, some b => decide (a.count < b.count)
    | _, _ => false
  let hits := (if grows then full.map (fun l => (l, old.length - 1)) else []) ++
    (s.ringLayers p).flatMap (fun l => (ringHits (s.layerW p l) t n segs.length).map (fun k => (l, k)))
  let shared := hits.filter (fun (l, k) => pteValid (s.pte p slot l k))
  let (copies, seen') := shared.foldl (fun (a : List (Nat × Nat) × List Nat) (l, k) =>
    let pg := ptePage (s.pte p slot l k)
    if (s.led pg).ref > 1 + (a.2.filter (· == pg)).length then (a.1 ++ [(l, k)], pg :: a.2) else a) ([], seen)
  (⟨copies, full.flatMap (fun l => (List.range (ext.length - old.length)).map (fun i => (l, old.length + i))),
    ((s.ringLayers p).flatMap (fun l => (ringHits (s.layerW p l) t n segs.length).map (fun k => (l, k)))).filter
      (fun (l, k) => s.pte p slot l k / 2 ^ 24 % 8 == 0),
    pendL.flatMap (fun l => (List.range ((segs.length + t - 1) / t)).map (fun k => (l, k))), s.scratchOf p slot⟩, seen')

/-- The tokens would pass HIST_TOKENS or the page table (R161). -/
def State.contextFull (s : State) (p slot : Nat) (segs : List Nat) : Bool :=
  decide (s.sessN p slot + segs.length > s.histTokens p) ||
  ((s.fullLayers p != []) &&
    decide ((extendRanges (s.pageT p) (s.ranges p slot) (s.sessN p slot) segs).length > s.ptEntries p))

/-- copy_on_write of an entry (R158), the new page with the old one's flags; answered with whether the entry is present
afterwards. -/
def State.cow (s : State) (p slot l k : Nat) : State × Bool :=
  let v := s.pte p slot l k
  let old := ptePage v
  let gone (t : State) : State := (t.setPte p slot l k (pteDrop v)).setRecFlag p slot 2 true
  match s.pin old with
  | (s1, .ok) =>
    let e := s1.led old
    match s1.newPage p slot ⟨l, s1.hdr old 4 4, s1.hdr old 8 4, s1.hdr old 14 2, s1.hdr old 16 2, e.flags,
        s1.handleOf p slot⟩ with
    | none => (s1.unpin old, true)
    | some (s2, pg) =>
      if s2.sealOk p l old then
        let s3 := s2.copyPage p l old pg (min (s2.pageT p) (s2.hdr old 12 2)) (s2.handleOf p slot)
        ((((s3.setPte p slot l k (pteOf pg)).unpin old).unref old).fcount KV_COUNT2.COW_COPIES (s.homeHub p) 0, true)
      else
        let s3 := (s2.sealFail p l old (s2.handleOf p slot) 6).release pg
        (((gone s3).unpin old).unref old, false)
  | (s1, _) => ((gone s1).unref old, false)

/-- New pages of a session installed in a reservation: each as layer, index, with what its header is to hold. -/
def State.reservePages (s : State) (p slot : Nat) (is : List (Nat × Nat × PageInit)) :
    State × List (Nat × Nat × Nat) :=
  is.foldl (fun (a : State × List (Nat × Nat × Nat)) (l, k, i) =>
    match a.1.newPage p slot i with
    | some (t, pg) => (t, a.2 ++ [(l, k, pg)])
    | none => a) (s, [])

/-- The header contents of a session's pending page `k` of a layer. -/
def State.pendInit (s : State) (p slot n l k : Nat) : PageInit :=
  ⟨l, n + k * s.pageT p, 0, 0, 0xFFFF, pendFlags, s.handleOf p slot⟩

/-- Flags of a scratch ring's page: VALID and RING alone (R171, R186). -/
def scratchFlags : Nat := 1 + 32

/-- A session's plan carried out, its copies apart: new pages, ring pages, pending pages, scratch rings. -/
def State.takePlan (s : State) (p slot : Nat) (segs : List Nat) (droppable : Bool) (q : Plan) : State × Resv :=
  let n := s.sessN p slot
  let ext := extendRanges (s.pageT p) (s.ranges p slot) n segs
  let own := s.handleOf p slot
  let (s2, fresh) := s.reservePages p slot (q.news.map (fun (l, k) =>
    let r := ext.getD k ⟨0, 0, 0, 0⟩
    (l, k, ⟨l, r.first, r.pos, r.seg, 0xFFFF, pageFlags droppable false, own⟩)))
  let (s3, ring) := s2.reservePages p slot (q.rings.map (fun (l, k) =>
    (l, k, ⟨l, 0, 0, 0, k, pageFlags droppable true, own⟩)))
  let (s4, pend) := s3.reservePages p slot (q.pends.map (fun (l, k) => (l, k, s3.pendInit p slot n l k)))
  let (s5, scratch) := s4.reservePages p slot (q.scratch.map (fun (l, k) => (l, k, ⟨l, 0, 0, 0, k, scratchFlags, own⟩)))
  (s5, ⟨slot, n, segs.length, segs, fresh, ring, pend, scratch⟩)

/-- The pages of a reservation. -/
def Resv.pages (r : Resv) : List Nat := (r.fresh ++ r.ring ++ r.pend ++ r.scratch).map (fun (_, _, pg) => pg)

/-- The frames of a reservation go back: pending pages, reserved pages that no entry took (R164), scratch rings (R173). -/
def State.unreserve (s : State) (r : Resv) : State :=
  r.pages.foldl State.unref s

/-! Coppicing (R169, R170, R179). -/

/-- An element put into a list that is rising in its first parts. -/
def insertBy (x : Nat × Nat) : List (Nat × Nat) → List (Nat × Nat)
  | [] => [x]
  | y :: t => if x.1 < y.1 then x :: y :: t else y :: insertBy x t

/-- Sorted by first parts, equal ones in their order. -/
def sortBy (l : List (Nat × Nat)) : List (Nat × Nat) := l.foldr insertBy []

/-- The candidates for coppicing, by ascending LAST_USE (R169). -/
def State.coppiceList (s : State) (p : Nat) : List Nat :=
  let h := s.homeHub p
  if s.fget KV_PART_CTL.COPPICE_EN h p = 0 then []
  else
    (sortBy (((List.range (s.sess p 8 4)).map (· + s.sess p 4 4)).filterMap (fun x =>
      if !s.recBad p x && s.srec p x 2 1 == 1 && !s.slotBusy p x && !s.recFlag p x 0 && !s.recFlag p x 3 &&
          decide (s.srec p x 24 8 + s.fget KV_PART_CTL.COPPICE_MIN_IDLE_MS h p * 1000000 ≤ s.time)
      then some (s.srec p x 24 8, x) else none))).map Prod.snd

/-- One entry coppiced (R170): its page DROPPABLE, with one reference and no pin. Answered with whether a frame was
freed. -/
def State.coppiceEntry (s : State) (p slot l k : Nat) : State × Bool :=
  if s.pteBad p slot l k then (s.mendPte p slot l k, false)
  else
    let t := s.engSee 6 p (s.pteAt p slot l k) 4
    let v := t.pte p slot l k
    let s := if pteValid v then t.seeLed (ptePage v) else t
    let e := s.led (ptePage v)
    if pteValid v && e.valid && !s.ledBad (ptePage v) && e.droppable && e.ref == 1 && e.pin == 0 then
      (((s.setPte p slot l k (pteDrop v)).setRecFlag p slot 2 true).unref (ptePage v), true)
    else (s, false)

/-- A session is coppiced (R170). -/
def State.coppice (s : State) (p slot : Nat) : State :=
  let (t, any) := (s.entries p slot).foldl (fun (a : State × Bool) (l, k) =>
    let (u, f) := a.1.coppiceEntry p slot l k
    (u, a.2 || f)) (s, false)
  if any then t.fcount KV_COUNT.SESSIONS_COPPICED (s.homeHub p) 0 else t

/-- Sessions are coppiced until `need` frames are free or no candidate is left (R168). -/
def State.coppiceFor (s : State) (p need : Nat) : State :=
  (s.coppiceList p).foldl (fun t x => if t.freeCount p ≥ need then t else t.coppice p x) s

/-! Commit (R164 to R167). -/

/-- A step's outcome for one session: the pending index of each committed token, the tokens, their segments, NEXT_TOKEN,
and a new value of NO_COPPICE. -/
structure Kept where
  path : List Nat
  tokens : List Nat
  segs : List Nat
  next : Nat
  nc : Option Bool
  deriving DecidableEq, Repr

/-- The page that holds an entry of a layer: a reserved one, or the one the table names. -/
def State.entryPage (s : State) (p slot l k : Nat) (rs : List (Nat × Nat × Nat)) : Option Nat :=
  match rs.find? (fun (a, b, _) => a == l && b == k) with
  | some (_, _, pg) => some pg
  | none =>
    let v := s.pte p slot l k
    if s.pteBad p slot l k || !pteValid v then none else some (ptePage v)

/-- The pending page of a layer that holds pending index `x`, and its slot. -/
def Resv.pendAt (r : Resv) (t l x : Nat) : Option (Nat × Nat) :=
  (r.pend.find? (fun (a, k, _) => a == l && k == x / t)).map (fun (_, _, pg) => (pg, x % t))

/-- Where committed token `i` of a step goes in a layer: entry and slot. -/
def destOf (w t n : Nat) (ext : List PRange) (i : Nat) : Option (Nat × Nat) :=
  if w = 0 then findIn ext (n + i) else some ((n + i) % w / t, (n + i) % w % t)

/-- The tokens of a step that one page of a layer takes: copied into their slots, TOKEN_COUNT raised, seal updated (R164,
R166). `ts`: token number, pending source if any, slot. -/
def State.commitPage (s : State) (p l pg n : Nat) (ring : Bool) (segs : List Nat)
    (ts : List (Nat × Option (Nat × Nat) × Nat)) : State :=
  s.sealing p l pg (fun t =>
    let t1 := ts.foldl (fun u (i, src, y) =>
      let u1 := match src with
        | some (sp, x) => if sp = pg ∧ x = y then u else u.copySlot p l sp x pg y
        | none => u
      if ring then
        let u2 := u1.setHdr pg 14 2 (segs.getD i 0)
        if y = 0 then (u2.setHdr pg 4 4 (n + i)).setHdr pg 8 4 (n + i) else u2
      else u1) t
    t1.setHdr pg 12 2 (ts.foldl (fun c (_, _, y) => max c (y + 1)) (t.hdr pg 12 2)))

/-- The tokens that a step commits in a layer: entry, token, pending source if any, slot. -/
def State.commitMoves (s : State) (p : Nat) (r : Resv) (q : Kept) (ext : List PRange) (draft : List Nat) (l : Nat) :
    List (Nat × Nat × Option (Nat × Nat) × Nat) :=
  let t := s.pageT p
  let w := s.layerW p l
  (List.range q.tokens.length).filterMap (fun i =>
    (destOf w t r.n ext i).map (fun (k, y) =>
      (k, i, (if w != 0 || draft.contains l then r.pendAt t l (q.path.getD i i) else none), y)))

/-- The pages that a session's commit works on. -/
def State.commitPages (s : State) (p : Nat) (r : Resv) (q : Kept) (draft : List Nat) : List Nat :=
  let ext := extendRanges (s.pageT p) (s.ranges p r.slot) r.n r.segs
  (s.layers p).flatMap (fun l =>
    let ms := s.commitMoves p r q ext draft l
    ((ms.map Prod.fst).eraseDups).filterMap (fun k => s.entryPage p r.slot l k (if s.layerW p l = 0 then r.fresh else r.ring)) ++
      ms.filterMap (fun (_, _, src, _) => src.map Prod.fst))

/-- A layer's part of the commit, or the index of an entry that reads uncorrectable. -/
def State.commitLayer (s : State) (p : Nat) (r : Resv) (q : Kept) (ext : List PRange) (draft : List Nat) (l : Nat) :
    State ⊕ Nat :=
  let w := s.layerW p l
  let rs := if w = 0 then r.fresh else r.ring
  let moves := s.commitMoves p r q ext draft l
  let ks := (moves.map Prod.fst).eraseDups
  match ks.find? (fun k => s.pteBad p r.slot l k) with
  | some k => .inr k
  | none =>
    .inl (ks.foldl (fun v k =>
      let u := v.engSee 6 p (v.pteAt p r.slot l k) 4
      match u.entryPage p r.slot l k rs with
      | none => u
      | some pg =>
        let u1 := if rs.any (fun (a, b, _) => a == l && b == k) then u.setPte p r.slot l k (pteOf pg) else u
        u1.commitPage p l pg r.n (w != 0) q.segs ((moves.filter (fun m => m.1 == k)).map Prod.snd)) s)

/-- The segment runs after the step's tokens, and whether a 33rd was to start (R155). -/
def runsAfter (runs : List (Nat × Nat)) (n cur : Nat) (segs : List Nat) : List (Nat × Nat) × Nat × Bool :=
  let r := segs.foldl (fun (a : List (Nat × Nat) × Option Nat × Nat × Bool) g =>
    let (rs, c, i, full) := a
    if c = some g then (rs, c, i + 1, full)
    else if rs.length < 32 then (rs ++ [(i, g)], some g, i + 1, full)
    else (rs, some g, i + 1, true)) (runs, if n = 0 then none else some cur, n, false)
  (r.1, r.2.1.getD 0, r.2.2.2)

/-- The segment table written. -/
def State.setRuns (s : State) (p slot : Nat) (runs : List (Nat × Nat)) : State :=
  (runs.mapIdx (fun i r => (i, r))).foldl (fun t (i, f, g) =>
    (t.setRec p slot (64 + 8 * i) 4 f).setRec p slot (68 + 8 * i) 4 g) (s.setRec p slot 10 2 runs.length)

/-- The record's part of the commit, N written last (R164). -/
def State.commitRecord (s : State) (p : Nat) (r : Resv) (q : Kept) (ext : List PRange) : State :=
  let a := q.tokens.length
  let h := s.homeHub p
  let (runs, cur, full) := runsAfter (s.segRuns p r.slot) r.n (s.srec p r.slot 8 2) (q.segs.take a)
  let s1 := if full then
      ((s.setRecFlag p r.slot 3 true).evt KV_EVENT.SEG_TABLE_FULL h 0 1 (some p)).record h
        { cause := 0x46, sev := 4, src := 6, part := some p, info0 := s.handleOf p r.slot }
    else s
  let s2 := (s1.setRuns p r.slot runs).setRec p r.slot 8 2 cur
  let pages := (ext.filter (fun g => g.first < r.n + a)).length
  let s3 := if s.fullLayers p = [] then s2 else s2.setRec p r.slot 20 4 pages
  let s4 := ((s3.setRec p r.slot 12 4 q.next).setRec p r.slot 24 8 s.time)
  let s5 := match q.nc with
    | some v => s4.setRecFlag p r.slot 0 v
    | none => s4
  s5.setRec p r.slot 4 4 (r.n + a)

/-- A commit stops before N is written (R167): ring pages, if any ring slot was written, are marked DROPPED. -/
def State.commitStop (s : State) (p slot : Nat) (ringDone : Bool) : State :=
  let h := s.homeHub p
  let s1 := if ringDone then
      ((s.entries p slot).filter (fun (l, _) => s.layerW p l != 0)).foldl (fun t (l, k) =>
        let v := t.pte p slot l k
        if pteValid v then ((t.unref (ptePage v)).setPte p slot l k (pteDrop v)).setRecFlag p slot 2 true else t) s
    else s
  (s1.evt KV_EVENT.COMMIT_FAIL h 0 1 (some p)).record h
    { cause := 0x43, sev := 4, src := 6, part := some p, info0 := s.handleOf p slot }

/-- The commit of one session (R164). `ue`: the record, table or history has been found uncorrectable after the layers were
written. Answered with whether N was written. -/
def State.commitSess (s0 : State) (p : Nat) (r : Resv) (q : Kept) (draft : List Nat) (ue : Bool) : State × Bool :=
  let s := s0.engSee 6 p (s0.recAt p r.slot 0) 512
  let ext := extendRanges (s.pageT p) (s.ranges p r.slot) r.n r.segs
  if s.recBad p r.slot then (s.commitStop p r.slot false, false)
  else
    let (t, fine, ring) := (s.layers p).foldl (fun (a : State × Bool × Bool) l =>
      if !a.2.1 then a
      else match a.1.commitLayer p r q ext draft l with
        | .inl u => (u, true, a.2.2 || (s.layerW p l != 0))
        | .inr k => ((a.1.engSee 6 p (a.1.pteAt p r.slot l k) 4, false, a.2.2))) (s, true, false)
    let hs := (List.range q.tokens.length).map (fun i => t.histAt p r.slot (r.n + i))
    match hs.find? (fun k => (t.look k 4).2) with
    | some k => ((t.engSee 6 p k 4).commitStop p r.slot ring, false)
    | none =>
      if !fine || ue then (t.commitStop p r.slot ring, false)
      else
        let t1 := (hs.zip q.tokens).foldl (fun u (k, v) => u.engWrite 6 p k (natLE 4 v)) t
        (t1.commitRecord p r q ext, true)

/-- The reserved pages that the table now names are kept; the others go back (R164). -/
def State.settle (s : State) (p : Nat) (r : Resv) : State :=
  s.unreserve { r with
    fresh := r.fresh.filter (fun (l, k, pg) => s.pte p r.slot l k != pteOf pg)
    ring := r.ring.filter (fun (l, k, pg) => s.pte p r.slot l k != pteOf pg) }

/-! Regrowth (R172 to R174). -/

/-- The layers' dropped entries that the tokens of a chunk touch, and that have no fresh page yet. -/
def State.regrowWant (s : State) (p : Nat) (r : Resv) (start count : Nat) : List (Nat × Nat) :=
  let rs := s.ranges p r.slot
  let ks := ((List.range count).filterMap (fun i => (findIn rs (start + i)).map Prod.fst)).eraseDups
  (s.fullLayers p).flatMap (fun l => (ks.filter (fun k =>
    pteDropped (s.pte p r.slot l k) && !r.fresh.any (fun (a, b, _) => a == l && b == k))).map (fun k => (l, k)))

/-- The dropped entries of the rings that a regrowth rebuilds in place (R173). -/
def State.ringWant (s : State) (p slot : Nat) (w : Regrow) : List (Nat × Nat) :=
  if w.rings then []
  else w.rebuild.flatMap (fun l => ((List.range (s.layerW p l / s.pageT p)).filter (fun k =>
    pteDropped (s.pte p slot l k))).map (fun k => (l, k)))

/-- Frames the next chunk of a regrowth needs: fresh pages, at the first chunk those of the rings rebuilt in place, pending
pages. -/
def State.regrowNeed (s : State) (p g : Nat) (r : Resv) (w : Regrow) (count : Nat) : Nat :=
  (s.regrowWant p r w.next count).length + (s.ringWant p r.slot w).length +
  (s.pendLayers p g).length * ((count + s.pageT p - 1) / s.pageT p)

/-- The frames of the next chunk are taken (R173). -/
def State.regrowTake (s : State) (p g : Nat) (r : Resv) (w : Regrow) (count : Nat) (droppable : Bool) :
    State × Resv × Regrow :=
  let own := s.handleOf p r.slot
  let rs := s.ranges p r.slot
  let (s1, fresh) := s.reservePages p r.slot ((s.regrowWant p r w.next count).map (fun (l, k) =>
    let q := rs.getD k ⟨0, 0, 0, 0⟩
    (l, k, ⟨l, q.first, q.pos, q.seg, 0xFFFF, pageFlags droppable false, own⟩)))
  let (s2, ring) := s1.reservePages p r.slot ((s.ringWant p r.slot w).map (fun (l, k) =>
    (l, k, ⟨l, 0, 0, 0, k, pageFlags droppable true, own⟩)))
  let (s3, pend) := s2.reservePages p r.slot ((s.pendLayers p g).flatMap (fun l =>
    (List.range ((count + s.pageT p - 1) / s.pageT p)).map (fun k => (l, k, s2.pendInit p r.slot w.next l k))))
  let segs := (List.range count).map (fun i => match findIn rs (w.next + i) with
    | some (k, _) => (rs.getD k ⟨0, 0, 0, 0⟩).seg
    | none => 0)
  (s3, { r with n := w.next, count := count, segs := segs, fresh := r.fresh ++ fresh, ring := r.ring ++ ring, pend := pend },
    { w with count := count, rings := true })

/-- A layer's part of a chunk's commit: tokens of fresh pages and of scratch rings; appends for pages that are present, those
of a dropped ring too, are discarded (R173). A full-context page enters the table once it holds all its tokens (R174). -/
def State.regrowLayer (s : State) (p : Nat) (r : Resv) (draft : List Nat) (l : Nat) : State :=
  let t := s.pageT p
  let w := s.layerW p l
  let rs := s.ranges p r.slot
  let mine := if w = 0 then r.fresh else r.ring
  let moves := (List.range r.count).filterMap (fun i =>
    (destOf w t r.n rs i).map (fun (k, y) =>
      (k, i, (if w != 0 || draft.contains l then r.pendAt t l i else none), y)))
  (moves.map Prod.fst).eraseDups.foldl (fun u k =>
    match mine.find? (fun (a, b, _) => a == l && b == k) with
    | none => u
    | some (_, _, pg) =>
      let u1 := u.commitPage p l pg r.n (w != 0) r.segs ((moves.filter (fun m => m.1 == k)).map Prod.snd)
      if w = 0 ∧ u1.hdr pg 12 2 ≥ (rs.getD k ⟨0, 0, 0, 0⟩).count then u1.setPte p r.slot l k (pteOf pg) else u1) s

/-- A chunk's commit (R174). -/
def State.regrowCommit (s : State) (p : Nat) (r : Resv) (draft : List Nat) : State :=
  (s.layers p).foldl (fun t l => t.regrowLayer p r draft l) s

/-- A regrowth ends, complete or stopped: rebuilt rings that reach N enter the table, scratch rings and unfinished pages go
back; HAS_DROPPED clears and REGROW_EPOCH rises once nothing is dropped (R174). -/
def State.regrowEnd (s : State) (p : Nat) (r : Resv) (w : Regrow) : State :=
  let n := s.sessN p r.slot
  let s1 := if w.next < n then s else
    r.ring.foldl (fun t (l, k, pg) =>
      if w.rebuild.contains l && decide (t.hdr pg 12 2 > 0) then t.setPte p r.slot l k (pteOf pg) else t) s
  let s2 := s1.settle p r
  if (s2.entries p r.slot).any (fun (l, k) => pteDropped (s2.pte p r.slot l k)) then s2
  else ((s2.setRecFlag p r.slot 2 false).setRec p r.slot 16 4 (s2.srec p r.slot 16 4 + 1)).fcount KV_COUNT2.REGROWTHS
    (s.homeHub p) 0

end Sys2Proof.Machine
end

