-- ==== Sys2Proof/Machine/Io.lean ====
section
/-!
DEFINITION. What the operators of a tile share: their pins on pages, the requests of the yarder with their tags and their check
at hub ingress (R111, R112, R328), reads of slots, and the end of a vector operator.
-/

namespace Sys2Proof.Machine

/-! Pages pinned for a reader (R158, R159). -/

/-- Pages pinned one after another; none where a pin is held, for then the reader waits for it (R158). -/
def State.pinAll (s : State) (pgs : List Nat) : Option State :=
  pgs.foldl (fun a pg => a.bind (fun t => match t.pin pg with
    | (_, .held) => none
    | (u, _) => some u)) (some s)

/-- The pages that running steps of a thread's Thapel parts read. -/
def State.stepPages (s : State) (j l t : Nat) : List Nat :=
  s.chans.filterMap (fun (_, h) => match h.running with
    | some x => if x.op = 1 ∧ x.tile = j ∧ x.level = l ∧ x.thread = t ∧ h.closed = none then some x.page else none
    | none => none)

/-- The step belongs to an attention operator's thread. -/
def Step.ofThr (x : Step) (j l t : Nat) : Bool := x.op == 1 && x.tile == j && x.level == l && x.thread == t

/-- An attention operator's pins go (R158), and its steps that wait or are queued; a running step's page keeps one pin until
that step has read it (R159). -/
def State.attnDrop (s : State) (j l t : Nat) : State :=
  let ps : List AttnPart := Tbl.get [] s.attn (thrKey j l t)
  let s1 := ((s.stepPages j l t).foldl List.erase (ps.map AttnPart.pages).flatten).foldl State.unpin s
  ((s1.withAttn (Tbl.put [] s1.attn (thrKey j l t) [])).withThapWait (s1.thapWait.filter (fun x => !x.ofThr j l t))).withChans
    (s1.chans.map (fun (k, h) => (k, { h with queue := h.queue.filter (fun x => !x.ofThr j l t) })))

/-- An operator that waits for accesses ends in fault, its pins gone. -/
def State.failIo (s : State) (c : Ctx) (cause : Nat) : State := (s.attnDrop c.tile c.level c.thread).opFault c cause

/-! Requests that leave the tile (R111, R328). -/

/-- The target of a place for the cap of 128 tags: a tier-1 channel, a hub's landing, a host port (R111). -/
def targetOf (k : Nat) : Nat :=
  match chanOfPlace k with
  | some c => c
  | none => if k < 2 ^ 64 then 1000 + (k - 0x30000000000) / 0x8000000 else 2000 + k / 2 ^ 64 - 1

/-- The right a request needs. -/
def YAct.right : YAct → Right
  | .fetch _ | .relay _ _ _ => .read
  | .put _ _ => .write
  | .reduce _ _ _ _ => .add

/-- The request changes memory. -/
def YAct.writes (a : YAct) : Bool := a.right != .read

/-- Reads of `n` bytes from a part physical address, no request across a 512 B boundary (R111, R198). -/
def fetchReqs (a n : Nat) : List YReq := (granules (n / 512 + 2) a n).map (fun (x, m) => ⟨.fetch none, some x, 0, m, 0⟩)

/-- Writes of bytes from a part physical address on. -/
def putReqs (a : Nat) (bs : List Byte) : List YReq :=
  (chop 512 (bs.length + 1) a bs).map (fun (w, off, b) => ⟨.put b 0, some (w + off), 0, b.length, 0⟩)

/-- Reduces of bytes from a part physical address on, of which the first `used` are operands. -/
def reduceReqs (op ty used a : Nat) (bs : List Byte) : List YReq :=
  (chop 512 (bs.length + 1) a bs).map (fun (w, off, b) => ⟨.reduce op ty (used - (w + off - a)) b, some (w + off), 0, b.length, 0⟩)

/-- What becomes of a request at hub ingress. -/
inductive Gate where
  /-- It is admitted. -/
  | go
  /-- Ingress is closed or the partition is being reset: its operator goes on waiting. -/
  | wait
  /-- It is refused; the state says what the refusal sets. -/
  | refused (t : State)
  deriving DecidableEq, Repr

/-- The request that a thread of a tile makes of the hub. -/
def Ctx.req (c : Ctx) (now a n : Nat) : Req := ⟨.tile c.tile c.thread, hubOfTile c.tile, c.part, a, n, 0, now⟩

/-- A request checked at ingress (R189, R328); only the load window writes a tier-0 slice (R19, R188). -/
def State.gate (s : State) (c : Ctx) (q : YReq) : Gate :=
  match q.addr with
  | none => .go
  | some a =>
    let rq := c.req s.time a q.len
    let r := q.act.right
    if !s.ingressOpen || s.inReset c.part then .wait
    else match if writesT0 rq r then none else s.placesOf rq with
      | none => .refused (s.windowMiss rq.hub c.part r 0 a)
      | some _ => if !s.permitted rq r then .refused (s.refusal c.part r 0 a) else .go

/-- The request with the place and target that the address map gives it now. -/
def State.aim (s : State) (c : Ctx) (q : YReq) : YReq :=
  match q.addr with
  | none => q
  | some a =>
    let k := (s.place (hubOfTile c.tile) c.part (some c.tile) a).getD 0
    { q with place := k, target := targetOf k }

/-! Tags (R111, R112). -/

/-- A tag of a tile. -/
def State.tag (s : State) (j g : Nat) : Tag := Tbl.get {} s.tags (j * 512 + g)

/-- The state with a tag changed. -/
def State.onTag (s : State) (j g : Nat) (f : Tag → Tag) : State := { s with tags := Tbl.upd {} s.tags (j * 512 + g) f }

/-- The lowest tag that may be allocated. -/
def State.freeTag (s : State) (j : Nat) : Option Nat :=
  (List.range 512).find? (fun g => !(s.tag j g).busy && !(s.tag j g).quarantine)

/-- Tags of a tile in use on a target. -/
def State.onTarget (s : State) (j t : Nat) : Nat :=
  (s.tags.filter (fun (k, g) => k / 512 == j && g.busy && g.rq.target == t)).length

/-- The channel and bank that a place lies in, if it lies in tier 1 (R194). -/
def bankOfPlace (k : Nat) : Option (Nat × Nat) := (chanOfPlace k).map (fun c => (c, bankOf ((k - 2 ^ 40) % chanSize)))

/-- The yarder requests outstanding at a bank (R205). -/
def State.atBank (s : State) (b : Nat × Nat) : Nat :=
  (s.tags.filter (fun (_, g) => g.busy && !g.held && bankOfPlace g.rq.place == some b)).length

/-- An admitted request takes a tag. It is held by a channel that is not in memory mode until a yield point (R233), waits at a
bank with 32 requests outstanding (R205), or is served. -/
def State.issueTag (s : State) (c : Ctx) (g : Nat) (q : YReq) (level : Nat) : State :=
  let came := ((s.thr c.tile c.level c.thread).holdAt).getD s.time
  let s1 := s.onTag c.tile g (fun x =>
    { x with busy := true, gen := !x.gen, orphan := false, level := c.level, thread := c.thread, issued := s.time, came := came
             protGen := s.fget PROT_GEN.ACTIVE 0 0, held := true, rq := q, got := [], marks := 0, refused := false })
  let gen := (s1.tag c.tile g).gen
  let h : Held := { rq := { c.req s.time (q.addr.getD 0) q.len with tag := g }, write := q.act.writes, since := s.time
                    data := [], poisoned := false, yard := some (c.tile, g, gen, q), level := level }
  match s.heldBy [(q.place, 1)], bankOfPlace q.place with
  | some k, _ => s1.holdAt k h
  | none, some b =>
    if s.atBank b ≥ 32 then s1.withChans (Tbl.upd {} s1.chans b.1 (fun x => { x with bankQ := x.bankQ ++ [h] }))
    else s1.yServeTag c.tile g gen c.part q
  | none, none => s1.yServeTag c.tile g gen c.part q

/-- MASTER of a yarder's waiting request. -/
def Held.master (h : Held) : Nat :=
  match h.yard with
  | some (j, _, _, _) => j % 16
  | none => 32

/-- A waiting request goes before another: by level, then by age, then by MASTER code (R248, Table 9.4). -/
def Held.before (a b : Held) : Bool :=
  decide (a.level > b.level) || (a.level == b.level &&
    (decide (a.since < b.since) || (a.since == b.since && decide (a.master < b.master))))

/-- The request that goes first. -/
def arbFirst : List Held → Option Held
  | [] => none
  | h :: t => match arbFirst t with
    | some x => if x.before h then some x else some h
    | none => some h

/-- A request of a bank has completed: of those that wait there, arbitration's first is issued, while the channel is in memory
mode (R205, R248). -/
def State.bankNext (s : State) (b : Nat × Nat) : State :=
  let x : Chan := Tbl.get {} s.chans b.1
  match arbFirst (x.bankQ.filter (fun h => match h.yard with
      | some (_, _, _, q) => bankOfPlace q.place == some b
      | none => false)) with
  | some h =>
    if x.mode = .memory then
      let s1 := s.withChans (Tbl.upd {} s.chans b.1 (fun k => { k with bankQ := k.bankQ.erase h }))
      match h.yard with
      | some (j, g, gen, q) => s1.yServeTag j g gen h.rq.part q
      | none => s1
    else s
  | none => s

/-- The first of a thread's requests that is not issued yet is issued, if it can be; answered with whether it was. It waits for
a tag, its target and its account; a refused one ends its operator with cause 0x05 and keeps its charge (R245, Table 13.2). -/
def State.issueOne (s : State) (c : Ctx) : State × Bool :=
  let h := s.thr c.tile c.level c.thread
  match h.reqs, s.freeTag c.tile with
  | q0 :: rest, some g =>
    let q := s.aim c q0
    if h.st != .yarder || s.onTarget c.tile q.target ≥ 128 then (s, false)
    else match s.gate c q, s.yardRelease c.tile c.part (c.f 0 1) q.place q.len with
      | .wait, _ => (s, false)
      | _, none => (s.onThr c.tile c.level c.thread (fun h => { h with holdAt := some (h.holdAt.getD s.time) }), false)
      | .refused _, some (u, _) => match u.gate c q with
        | .refused t => (t.failIo c 0x05, false)
        | _ => (s, false)
      | .go, some (u, level) =>
        ((u.issueTag c g q level).onThr c.tile c.level c.thread (fun h =>
          { h with reqs := rest, outst := h.outst + 1, holdAt := none }), true)
  | _, _ => (s, false)

/-- A thread's requests are issued until none is left or one must wait. -/
def State.issueThread : Nat → State → Ctx → State
  | 0, s, _ => s
  | n + 1, s, c =>
    let (t, more) := s.issueOne c
    if more then issueThread n t c else t

/-- The tile's yarder issues what it can for the threads of the running instance (R111). -/
def State.issueAll (s : State) (j : Nat) : State :=
  if (s.tile j).preempting then s
  else (List.range 16).foldl (fun t th =>
    match t.cur j th with
    | some c => State.issueThread ((t.thr j c.level th).reqs.length) t c
    | none => t) s

/-- An operator's thread waits for yarder requests as on a miss, and they are issued (R104, R111). -/
def State.request (s : State) (c : Ctx) (qs : List YReq) : State :=
  (s.onThr c.tile c.level c.thread (fun h => { h with st := .yarder, reqs := qs, outst := 0 })).issueAll c.tile

/-- What follows once an operator's accesses are done: `k` at once where it has none. -/
def State.withIo (s : State) (c : Ctx) (qs : List YReq) (k : State) : State := if qs = [] then k else s.request c qs

/-- The places of a range outside the tile. -/
def State.ioPlaces (s : State) (c : Ctx) (a n : Nat) : List (Nat × Nat) := (s.placesOf (c.req s.time a n)).getD []

/-- The bytes of a range outside the tile that the operator's requests have read, and whether any came poisoned. -/
def State.ioLook (s : State) (c : Ctx) (a n : Nat) : List Byte × Bool :=
  let ls := (s.ioPlaces c a n).map (fun (k, m) => s.look k m)
  ((ls.map Prod.fst).flatten, ls.any Prod.snd)

/-- An operator has written all its results and ends, in fault where NAN_FAULT forbids a NaN among them (R88). -/
def State.endWritten (s : State) (c : Ctx) : State :=
  if (s.thr c.tile c.level c.thread).nan then s.opFault c 0x02 else s.opDone c

/-- The conditions met by an operator whose results leave the tile: its tile notes them, its thread a NaN that NAN_FAULT
forbids. -/
def State.noteEv (s : State) (c : Ctx) (e : NumEv) : State :=
  (s.numEv c.tile e).onThr c.tile c.level c.thread (fun h => { h with nan := s.nanFaults c.tile e })

/-! Slots. -/

/-- The ranges of the working store that some rows of a slot take. -/
def Slot.spans (sl : Slot) (j : Nat) (rs : List Nat) : List (Nat × Nat) :=
  rs.flatMap (fun r =>
    (wsAt j (sl.rowAt r), sl.fmt.packed sl.cols) ::
      (if sl.fmt.block then [(wsAt j (sl.scaleAt r), (sl.cols + 31) / 32)] else []))

/-- The ranges of all its rows. -/
def Slot.allSpans (sl : Slot) (j : Nat) : List (Nat × Nat) := sl.spans j (List.range sl.rows)

/-- A slot's elements in element order as FP32 patterns. -/
def State.flat32 (s : State) (j : Nat) (sl : Slot) : List Nat := (s.slotF32 j sl).1

/-- A slot's codes in element order. -/
def State.flatCodes (s : State) (j : Nat) (sl : Slot) : List Nat :=
  ((List.range sl.rows).map (fun r => (s.slotCodes j sl r).1)).flatten

/-- Row `r` of a slot as FP32 patterns. -/
def State.row32 (s : State) (j : Nat) (sl : Slot) (r : Nat) : List Nat := (s.slotRow j sl r).f32s

/-- The place of byte `b` of a slot's elements in element order: rows without their padding. -/
def Slot.byteAt (sl : Slot) (j b : Nat) : Nat :=
  let n := max 1 (sl.fmt.packed sl.cols)
  wsAt j (sl.rowAt (b / n) + b % n)

/-- Bytes of a slot's elements in element order. -/
def State.slotRaw (s : State) (j : Nat) (sl : Slot) (b n : Nat) : List Byte :=
  (List.range n).map (fun i => ((s.look (sl.byteAt j (b + i)) 1).1).headD 0)

/-- Bytes put into a slot's elements in element order, from byte `b` on. -/
def State.putSlotBytes (s : State) (j : Nat) (sl : Slot) (b : Nat) (bs : List Byte) : State :=
  let n := max 1 (sl.fmt.packed sl.cols)
  (chop n (bs.length + 1) b bs).foldl (fun t (w, off, x) => t.store (wsAt j (sl.rowAt (w / n) + off)) x false) s

/-- A vector operator after its accesses: the reads of its slots are decoded and recorded; a bad word is fault 0x03; else
its outputs are written and it ends (R88, R113, R114). -/
def State.vecEnd (s : State) (c : Ctx) (reads : List (Nat × Nat)) (go : State → State × NumEv) : State :=
  let s1 := s.opReads c reads
  if reads.any (fun (k, n) => (s.look k n).2) then s1.opFault c 0x03 else s1.finish c false (go s1)

/-- The operator of opcode `op` at which a thread stands, if it may start, issued and carried out. -/
def State.startAs (s : State) (op j t : Nat) (f : Ctx → State) : State :=
  match s.startOf op j t with
  | some c => (f c).issued j t
  | none => s

/-- The same for an operator of the vector unit, whose internal check may fail: cause 0x08 (R114). -/
def State.startVec (s : State) (op j t : Nat) (parity : Bool) (f : Ctx → State) : State :=
  s.startAs op j t (fun c => if parity then s.failIo c 0x08 else f c)

end Sys2Proof.Machine
end

