-- ==== Sys2Proof/Machine/Decks.lean ====
section
/-!
DEFINITION. Decks and commands (R299 to R309, R320 to R324): rings, enable, doorbells, parking, fetch, the start of commands
with the checks of their entries, records and token-stream entries, the choice of instances, and how a command ends.
-/

namespace Sys2Proof.Machine

/-! Deck contexts. -/

/-- A deck context. -/
def State.deck (s : State) (d : Nat) : Deck := Tbl.get {} s.decks d

/-- The state with a deck context changed. -/
def State.onDeck (s : State) (d : Nat) (f : Deck → Deck) : State := { s with decks := Tbl.upd {} s.decks d f }

/-- The partition of a deck (R299). -/
def State.deckPart (s : State) (d : Nat) : Nat := s.fget DECK_QCFG.PART d 0

/-- The class of a deck. -/
def State.deckClass (s : State) (d : Nat) : Nat := s.fget DECK_QCFG.CLASS d 0

/-- The deck ring's base and entries. -/
def State.deckRing (s : State) (d : Nat) : Nat × Nat := (s.fget DECK_BASE.BASE d 0 * 4096, 2 ^ s.fget DECK_CFG.SIZE_LOG2 d 0)

/-- The completion ring's base and records. -/
def State.cqRing (s : State) (d : Nat) : Nat × Nat := (s.fget DECK_CQ_BASE.BASE d 0 * 4096, 2 ^ s.fget DECK_CFG.CQ_LOG2 d 0)

/-- The token stream's base and entries. -/
def State.tsRing (s : State) (d : Nat) : Nat × Nat := (s.fget DECK_TS_BASE.BASE d 0 * 4096, 2 ^ s.fget DECK_CFG.TS_LOG2 d 0)

/-- The host port through which a deck's records leave (R292, R300). -/
def State.deckPort (s : State) (d : Nat) : Nat := ((s.cqRing d).1 - 0x40000000000) / 2 ^ 41

/-- The deck is enabled and not being stopped. -/
def State.deckOn (s : State) (d : Nat) : Bool := s.fget DECK_CFG.EN d 0 == 1 && (s.deck d).stopping.isNone

/-- The place of a deck's context in protected tier 1 (R302). -/
def State.ctxAt (s : State) (d : Nat) : Nat := s.engAt (s.homeHub (s.deckPart d)) (s.sess (s.deckPart d) 24 8 + 256 * d)

/-- The context is written home; its layout is not stated. -/
def State.storeCtx (s : State) (d : Nat) : State := (s.draw).engWrite 7 (s.deckPart d) (s.ctxAt d) (s.freeBytes 256)

/-- The commands of a deck in execution. -/
def State.deckExecs (s : State) (d : Nat) : List Exec :=
  s.execs.filterMap (fun (_, e) => if e.busy && e.deck == d then some e else none)

/-- The deck has no pending entry, no fetched entry and no command in execution (R302). -/
def State.deckIdle (s : State) (d : Nat) : Bool :=
  let c := s.deck d
  c.fetch == c.doorbell && c.fetched == [] && s.deckExecs d == []

/-- Active decks. -/
def State.activeCount (s : State) : Nat := (s.decks.filter (fun (_, c) => c.state == 2)).length

/-! What the deck engine reads and writes (R300, R312, R329). -/

/-- The answer to an engine's read: its channel holds it, it is refused at ingress, or bytes, perhaps poisoned. -/
inductive Got where
  | wait
  | refused (t : State)
  | bytes (bs : List Byte) (bad : Bool)
  deriving DecidableEq, Repr

/-- The deck engine's request for a partition. -/
def State.engReq (s : State) (p a n : Nat) : Req := ⟨.engine 7, s.homeHub p, p, a, n, 0, s.time⟩

/-- A read by the deck engine of an address that a command or a ring names, checked at hub ingress. -/
def State.engGet (s : State) (p a n : Nat) : Got :=
  let rq := s.engReq p a n
  match s.placesOf rq with
  | none => .refused (s.windowMiss rq.hub p .read 3 a)
  | some ps =>
    if !s.permitted rq .read then .refused (s.refusal p .read 3 a)
    else if (s.heldBy ps).isSome then .wait
    else
      let ls := ps.map (fun (k, m) => s.look k m)
      .bytes (ls.map Prod.fst).flatten (ls.any Prod.snd)

/-- What such a read by an engine of SOURCE `src` does beside delivering bytes: corrections, tallies, the record of a bad
word. -/
def State.engTouch (s : State) (src p sev a n : Nat) : State :=
  (((s.placesOf (s.engReq p a n)).getD []).foldl (fun t (k, m) => (t.closeRange k m).readRange src (some p) sev {} k m) s).withRsp s.rsp

/-- A write by the deck engine: dropped where ingress refuses it; a posted write to a host port whose link is down is
discarded (R297). -/
def State.engPut (s : State) (p a : Nat) (bs : List Byte) : State :=
  let rq := s.engReq p a bs.length
  match s.placesOf rq with
  | none => s.windowMiss rq.hub p .write 3 a
  | some ps =>
    if !s.permitted rq .write then s.refusal p .write 3 a
    else if isHostWindow a && s.pkg.hostUp.getD (s.hostTarget p a).1 0 == 0 then s
    else
      (((ps.foldl (fun (x : State × List Byte) (k, m) =>
          (x.1.writePlace 7 p k (x.2.take m) false, x.2.drop m)) (s, bs)).1).withRsp s.rsp)

/-! Records (R295, R308, R314). -/

/-- A completion record is written, then its interrupt is sent (Table 12.3). -/
def State.deckRecord (s : State) (d tag status : Nat) (late : Bool) (detail : Nat) (irq : Bool) : State :=
  let k := (s.deck d).cqProd
  let (base, size) := s.cqRing d
  let phase := 1 - k / size % 2
  let rec16 := natLE 2 tag ++ natLE 1 status ++ natLE 1 (phase + (if late then 2 else 0)) ++ natLE 4 detail ++
    natLE 8 s.time
  let s1 := (s.engPut (s.deckPart d) (base + k % size * 16) rec16).onDeck d (fun c =>
    { c with cqProd := k + 1, tsMap := c.tsMap ++ [(k, c.tsProd)], idleSince := s.time })
  if irq && s.fget DECK_CFG.IRQ_EN d 0 == 1 then
    s1.raise1 (s.deckPort d) (s.eventFn (some (s.deckPart d))) (s.fget DECK_CFG.VECTOR d 0)
  else s1

/-- Token-stream entries are written in order. -/
def State.tsPut (s : State) (d : Nat) (es : List (List Byte)) : State :=
  let (base, size) := s.tsRing d
  es.foldl (fun t e =>
    let k := (t.deck d).tsProd
    (t.engPut (t.deckPart d) (base + k % size * 64) e).onDeck d (fun c => { c with tsProd := k + 1 })) s

/-- Entries beyond the first that E tokens take. -/
def moreEntries (e : Nat) : Nat := (e - 10 + 15) / 16

/-- Words padded with zeros to `n`. -/
def padWords (n : Nat) (ts : List Nat) : List Byte := ((ts.take n ++ List.replicate (n - ts.length) 0).map (natLE 4)).flatten

/-- A session's token-stream record (Table 12.6a). -/
def tokenEntries (tag idx flags handle n stamp : Nat) (ts : List Nat) : List (List Byte) :=
  (natLE 2 tag ++ natLE 1 idx ++ natLE 1 flags ++ natLE 4 handle ++ natLE 4 n ++ natLE 1 ts.length ++ natLE 3 0 ++
    natLE 8 stamp ++ padWords 10 ts) ::
  (List.range (moreEntries ts.length)).map (fun i => padWords 16 (ts.drop (10 + 16 * i)))

/-! Entries (R307). -/

/-- The entry could not be read (R301): its bytes are unknown. -/
def unreadable (v : Nat) : Bool := decide (v ≥ 2 ^ 512)

/-- Checks that bytes `a` to `b − 1` of an entry are 0. -/
def zeros (v a b : Nat) : List (Nat × Bool) := (List.range (b - a)).map (fun i => (a + i, fld v (a + i) 1 != 0))

/-- A check of the REMOTE field of FABRIC_SEND (Table 15.2): the bits that are to be 0. -/
def remoteZero (msg : Nat) : Nat :=
  if msg = 0x01 then (2 ^ 20 - 1) * 2 ^ 44 + 0x3F
  else if msg = 0x02 then (2 ^ 16 - 1) * 2 ^ 48 + 0x3F
  else if msg = 0x20 ∨ msg = 0x22 then 2 ^ 64 - 1
  else (2 ^ 10 - 1) * 2 ^ 54 + 0x3F

/-- The checks of a FABRIC_SEND body (R359, R379). -/
def fabricChecks (v : Nat) : List (Nat × Bool) :=
  let msg := fld v 16 1
  let remote := fld v 32 8
  let n := fld v 40 8
  [(16, !(msg == 1 || msg == 2 || msg == 4 || msg == 5 || msg == 0x20 || msg == 0x21 || msg == 0x22)),
   (17, fld v 17 1 != 6 && fld v 17 1 != 7)] ++ zeros v 18 20 ++
  [(22, decide (fld v 22 1 ≥ 16)), (23, fld v 23 1 != 0), (24, fld v 24 8 % 64 != 0)] ++
  (List.range 8).map (fun i => (32 + i, (fld remote i 1 &&& fld (remoteZero msg) i 1) != 0 ||
    (i == 5 && msg == 2 && fld remote 5 1 / 16 % 4 == 3))) ++
  [(40, n % 64 != 0 || decide (n > 2 ^ 26) || (n == 0 && msg != 0x20 && msg != 0x22) || (msg == 0x21 && decide (n > 4096)))] ++
  zeros v 48 64

/-- The checks of a FORECAST body (R319). -/
def forecastChecks (v : Nat) : List (Nat × Bool) :=
  let n := min 5 (fld v 16 1)
  let total := ((List.range n).map (fun i => fld v (24 + 8 * i) 2)).sum
  [(16, fld v 16 1 == 0 || decide (fld v 16 1 > 5))] ++ zeros v 17 24 ++
  [(24, decide (total < 10) || decide (total > 500))] ++
  (List.range n).flatMap (fun i => (26 + 8 * i, decide (fld v (26 + 8 * i) 1 > 3)) :: zeros v (30 + 8 * i) (32 + 8 * i))

/-- The checks of a RUN_GRAPH body (R312, Table 12.5): the graph has a commit entry, whose session count the entry names, 1
for a prefill graph; NC_SET and NC_CLEAR are not both 1. -/
def State.graphChecks (s : State) (p v : Nat) : List (Nat × Bool) :=
  let g := fld v 16 1 % 16
  let c := Tbl.get 0 s.img.commits (p * 16 + g)
  let n := fld v 17 1
  [(16, decide (fld v 16 1 ≥ 16) || c == 0),
   (17, n == 0 || decide (n > 8) || n != fld c 1 1 || (fld c 0 1 == 0 && n != 1)),
   (18, decide (fld v 18 1 ≥ 4) || fld v 18 1 == 3), (19, fld v 19 1 != 0)]

/-- The checks of the other bodies (Tables 12.7, 12.8). -/
def bodyChecks (v : Nat) : List (Nat × Bool) :=
  let op := fld v 0 1
  if op = 2 then
    (16, decide (fld v 16 1 ≥ 4)) :: zeros v 17 20 ++ [(21, decide (fld v 21 1 ≥ 128))] ++ zeros v 22 24 ++ zeros v 28 64
  else if op = 3 then (16, decide (fld v 16 1 ≥ 2)) :: zeros v 17 64
  else if op = 4 ∨ op = 5 then
    (16, decide (fld v 16 1 ≥ 2)) :: zeros v 17 20 ++ [(22, decide (fld v 22 1 ≥ 16))] ++ zeros v 23 32 ++ zeros v 48 64
  else if op = 6 then (17, decide (fld v 17 1 ≥ 2)) :: zeros v 18 20 ++ zeros v 48 64
  else if op = 7 then zeros v 16 64
  else if op = 8 ∨ op = 9 then
    zeros v 16 18 ++ [(18, decide (fld v 18 2 > 1023))] ++ zeros v 20 24 ++ zeros v 32 64
  else if op = 10 then (16, decide (fld v 16 1 ≥ 2)) :: zeros v 17 24 ++ zeros v 32 64
  else []

/-- The offset of an entry's first faulty byte, if it has one (R307). -/
def State.badByte (s : State) (p v : Nat) : Option Nat :=
  if unreadable v then some 0xFFFFFFFF
  else
    let op := fld v 0 1
    (([(0, op == 0 || decide (op > 12)), (1, decide (fld v 1 1 ≥ 4))] ++ zeros v 12 16 ++
      (if op = 1 then s.graphChecks p v
       else if op = 11 then forecastChecks v
       else if op = 12 then fabricChecks v
       else bodyChecks v)).find? Prod.snd).map Prod.fst

/-! Starting (R303 to R306). -/

/-- Token-stream entries that a RUN_GRAPH may write (R314). -/
def State.tsNeed (s : State) (p v : Nat) : Nat :=
  if fld v 0 1 = 1 ∧ (s.badByte p v).isNone = true then
    let g := fld v 16 1 % 16
    fld v 17 1 * (if s.commitF p g 0 1 = 1 then 1 + moreEntries (s.commitF p g 2 1) else 1)
  else 0

/-- Later commands of the deck wait for it: a FENCE, an EVENT_WAIT or a TIMER. -/
def Exec.blocks (e : Exec) : Bool := e.opcode == 7 || e.opcode == 8 || e.opcode == 10

/-- The next fetched entry of a deck can start (R303), a free slot apart. -/
def State.canStart (s : State) (d v : Nat) : Bool :=
  let c := s.deck d
  let es := s.deckExecs d
  let p := s.deckPart d
  decide (es.length < s.fget DECK_QCFG.LIMIT d 0) && !es.any Exec.blocks &&
  (unreadable v || fld v 0 1 != 7 || es == []) &&
  decide (c.cqProd + es.length + 1 ≤ c.cqCons + (s.cqRing d).2) &&
  (unreadable v || fld v 0 1 != 1 ||
    decide (c.tsProd + (es.map (fun e => s.tsNeed p e.entry)).sum + s.tsNeed p v ≤ c.tsFree + (s.tsRing d).2))

/-- A free execution slot of a partition's home hub: not busy, not in quarantine (R303, R321). -/
def State.freeSlot (s : State) (p : Nat) : Option Nat :=
  (List.range 1024).find? (fun x => !(s.execOf p x).busy && (s.execOf p x).quarantine.isNone)

/-- The partition takes commands: it runs, and is not being reset. -/
def State.partLive (s : State) (p : Nat) : Bool := s.partStatus p == 1 && (s.part p).stage == .none

/-- The graph that a RUN_GRAPH runs next: its own, or the regrowth graph (R172). -/
def State.execGraph (s : State) (p : Nat) (e : Exec) : Nat :=
  if e.regrow.isSome then s.fget KV_PART_CTL.REGROW_GRAPH (s.homeHub p) p else e.f 16 1 % 16

/-- The order of choice within a class (R305): decks after the one served last, then the others, each in start order. -/
def choiceKey (last : Nat) (e : Exec) : Nat × Nat := ((if e.deck < last then e.deck + 32768 else e.deck), e.order)

/-- The RUN_GRAPH that the hub chooses among those ready for their tiles (R305). -/
def State.choice (s : State) (p : Nat) : Option (Nat × Exec) :=
  let rs := (s.partExecs p).filter (fun (_, e) => e.stage == .ready)
  let top := (rs.map (fun (_, e) => s.deckClass e.deck)).foldl max 0
  let last := (s.part p).lastDeck.getD top 0
  (rs.filter (fun (_, e) => s.deckClass e.deck == top)).foldl (fun (b : Option (Nat × Exec)) c =>
    match b with
    | none => some c
    | some a =>
      let (x, y) := (choiceKey last a.2, choiceKey last c.2)
      if y.1 < x.1 ∨ (y.1 = x.1 ∧ y.2 < x.2) then some c else some a) none

/-- The chosen RUN_GRAPH may pre-empt the running instance (R306). -/
def State.mayPreempt (s : State) (p : Nat) (e : Exec) : Bool :=
  let q := s.part p
  let i := s.inst p q.level
  i.valid && !i.aborted && i.faulted == 0 && decide (q.level ≤ 2) && decide (s.deckClass e.deck > i.cls) &&
  s.img.preempts.contains (p, i.graph, s.execGraph p e)

/-- PREEMPT_DECISION: a chosen RUN_GRAPH that may pre-empt has the hub ask the tiles, urgently if its entry says so. -/
def State.preDecide (s : State) (p : Nat) : State :=
  match s.choice p with
  | some (x, e) =>
    if (s.part p).preAsk.isNone && s.mayPreempt p e then
      s.onPart p (fun q => { q with preAsk := some (x, (e.f 1 1).testBit 1) })
    else s
  | none => s

/-! How a command ends. -/

/-- A deck whose stop waits only for its commands: once none is in execution, its fetched entries are recorded ABORTED in
deck order, EN clears and it reads stopped (R322). -/
def State.stopCheck (s : State) (d : Nat) : State :=
  match (s.deck d).stopping with
  | none => s
  | some silent =>
    if s.deckExecs d != [] then s
    else
      let s1 := if silent then s else (s.deck d).fetched.foldl (fun t (v, _) =>
        t.deckRecord d (fld v 2 2) 7 false 0 (!unreadable v && (fld v 1 1).testBit 0)) s
      (s1.fset DECK_CFG.EN d 0 0).onDeck d (fun c =>
        { c with state := 3, fetched := [], stopping := none, remembered := false, blocked := false })

/-- A started command completes: its record, and its slot is free, after a timeout only once 2 µs have passed (R308,
R321). -/
def State.complete (s : State) (p x status detail : Nat) : State :=
  let e := s.execOf p x
  let s1 := if e.silent then s
    else s.deckRecord e.deck (e.f 2 2) status e.lateSeen detail (!unreadable e.entry && (e.f 1 1).testBit 0)
  (s1.onExec p x (fun e =>
    { deck := e.deck, gen := e.gen, quarantine := if status = 2 ∨ status = 7 then some (s.time + 2000) else none })).stopCheck
    e.deck

/-- Some running Thapel step belongs to the instance at a level: it holds its page's pin (R159). -/
def State.stepsOut (s : State) (p l : Nat) : Bool :=
  s.chans.any (fun (_, h) => match h.running with
    | some x => x.op == 1 && x.part == p && x.level == l && h.closed.isNone
    | none => false)

/-- Wake time of a tile in ns (Table 17.6). -/
def wakeNs : TilePower → Nat
  | .run => 0
  | .gated => 50
  | .retention => 2000
  | .off => 20000

/-- Tiles are woken from whatever state they are in (R445). -/
def State.wake (s : State) (js : List Nat) : State :=
  js.foldl (fun t j =>
    if (t.tile j).power = .run ∨ (t.tile j).wakeAt.isSome = true then t
    else t.onTile j (fun w => { w with wakeAt := some (s.time + wakeNs w.power) })) s

/-- The tiles of an instance. -/
def Inst.tileList (i : Inst) : List Nat := (List.range 64).filter (fun j => i.tiles.testBit j)

/-- The level of the running instance: the highest that holds one. -/
def topLevel (is : Tbl Inst) : Nat :=
  if (Tbl.get {} is 3).valid then 3 else if (Tbl.get {} is 2).valid then 2 else if (Tbl.get {} is 1).valid then 1 else 0

/-- The instance at a level is over: its tiles are clock-gated, and the instance it pre-empted, if it is now the running
one, is to resume (R306, R445). -/
def State.popInst (s : State) (p l : Nat) : State :=
  let i := s.inst p l
  let s1 := i.tileList.foldl (fun t j =>
    if l = (s.part p).level ∧ (t.tile j).power = .run then t.onTile j (fun w => { w with power := .gated, since := s.time }) else t) s
  let s2 := s1.onPart p (fun q =>
    let is := Tbl.put {} q.insts l {}
    { q with insts := is, level := topLevel is, preAsk := if l = q.level then none else q.preAsk })
  let low := s2.inst p (s2.part p).level
  if l = (s.part p).level ∧ low.valid = true then
    let js := low.tileList.filter (fun j => !low.ended.testBit j)
    (js.foldl (fun t j => t.onTile j (fun w => { w with preempting := true })) s2).wake js
  else s2

/-- A started command that was chosen for a pre-emption is gone: the pre-emption is not carried out. -/
def State.unask (s : State) (p x : Nat) : State :=
  s.onPart p (fun q => { q with preAsk := match q.preAsk with
    | some (y, u) => if y = x then none else some (y, u)
    | none => none })

/-- The commands of a partition whose end waited for their last pin end (R159). -/
def State.finishEndings (s : State) (p : Nat) : State :=
  (s.partExecs p).foldl (fun t (x, e) => match e.stage with
    | .ending l st det => if s.stepsOut p l then t else ((t.popInst p l).complete p x st det).preDecide p
    | _ => t) s

/-! Enabling (R300, R301). -/

/-- The `n` bytes from `a` lie in landing slices of the partition. -/
def State.inLanding (s : State) (p a n : Nat) : Bool :=
  decide (0x30000000000 ≤ a) && decide (a + n ≤ 0x30020000000) &&
  (List.range ((n + 0x7FFFFF) / 0x800000 + 1)).all (fun i =>
    let o := min (a + i * 0x800000) (a + n - 1) - 0x30000000000
    let (q, land, en) := s.slice (o / 0x8000000) (o % 0x8000000 / 0x800000)
    en && land && q == p)

/-- The `n` bytes from `a` lie in the host memory window. -/
def inHost (a n : Nat) : Bool := isHostWindow a && isHostWindow (a + n - 1)

/-- The `n` bytes from `a` lie in one of the partition's protected tier-1 windows. -/
def State.inProtected (s : State) (p a n : Nat) : Bool :=
  let h := s.homeHub p
  match s.window h a, s.window h (a + n - 1) with
  | some w, some w' => w == w' && s.fget HUB_WIN_CTL.CLASS h w == 0 && s.fget HUB_WIN_CTL.PART h w == p
  | _, _ => false

/-- VECTOR lies in the range of the table that the deck's completions use (R293, R300). -/
def State.vectorOk (s : State) (d v : Nat) : Bool :=
  if (s.boundVf (s.deckPart d)).isSome then decide (8 ≤ v) && decide (v ≤ 63) else decide (16 ≤ v) && decide (v ≤ 2047)

/-- The rules of R300 and R401 hold for a deck as its registers stand. -/
def State.deckRules (s : State) (d : Nat) : Bool :=
  let p := s.deckPart d
  let (sz, cq, ts) := (s.fget DECK_CFG.SIZE_LOG2 d 0, s.fget DECK_CFG.CQ_LOG2 d 0, s.fget DECK_CFG.TS_LOG2 d 0)
  let (b, n) := s.deckRing d
  let (cb, cn) := s.cqRing d
  let (tb, tn) := s.tsRing d
  s.isReady && s.partLive p && s.fget DECK_QCFG.ASSIGNED d 0 == 1 &&
  decide (4 ≤ sz) && decide (sz ≤ 16) && decide (4 ≤ cq) && decide (cq ≤ 16) && decide (6 ≤ ts) && decide (ts ≤ 16) &&
  (inHost b (64 * n) || s.inLanding p b (64 * n) || s.inProtected p b (64 * n)) &&
  inHost cb (16 * cn) && inHost tb (64 * tn) &&
  [cb + 16 * cn - 1, tb, tb + 64 * tn - 1].all (fun a => (a - 0x40000000000) / 2 ^ 41 == (cb - 0x40000000000) / 2 ^ 41) &&
  s.vectorOk d (s.fget DECK_CFG.VECTOR d 0)

/-- The fields of DECK_CFG that enabling fixes. -/
def State.setSizes (s : State) (d v : Nat) : State :=
  ((s.fset DECK_CFG.SIZE_LOG2 d 0 v).fset DECK_CFG.CQ_LOG2 d 0 (v / 2 ^ 5)).fset DECK_CFG.TS_LOG2 d 0 (v / 2 ^ 10)

/-- IRQ_EN and VECTOR of a written DECK_CFG. -/
def State.setIrq (s : State) (d v : Nat) : State :=
  (s.fset DECK_CFG.IRQ_EN d 0 (v / 2 ^ 15)).fset DECK_CFG.VECTOR d 0 (v / 2 ^ 16)

/-- A configuration write or an enable is refused. -/
def State.cfgRefused (s : State) (d : Nat) : State := s.evt DECK_EVENT.CFG_REFUSED d 0 1 none

/-- The deck whose registers an accessor's page shows (R324). -/
def State.deckOf (s : State) (who : Accessor) : Option Nat :=
  let off := match who with
    | .pf0 _ => 0x300020
    | _ => 0x20
  match who with
  | .pf0 _ | .vf _ _ =>
    (match s.locate who off with
     | some (_, d, _) => some d
     | none => none)
  | _ => none

/-- DECK_ENABLE (R300): a write of DECK_CFG. An enabled deck takes only IRQ_EN and VECTOR; EN of a disabled one is set only
under the rules, and starts every index at 0, the context parked. -/
def execDeckEnable (who : Accessor) (v : Nat) (s : State) : Host.Outcome State Fault Refusal :=
  ok who.wf s
    (match s.deckOf who with
     | none => s
     | some d =>
       if s.fget DECK_CFG.EN d 0 = 1 then
         let same := v % 2 ^ 5 == s.fget DECK_CFG.SIZE_LOG2 d 0 && v / 2 ^ 5 % 2 ^ 5 == s.fget DECK_CFG.CQ_LOG2 d 0 &&
           v / 2 ^ 10 % 2 ^ 5 == s.fget DECK_CFG.TS_LOG2 d 0 && v / 2 ^ 31 % 2 == 1
         let vecOk := s.vectorOk d (v / 2 ^ 16 % 2 ^ 11)
         let s1 := if vecOk then s.setIrq d v else s
         if same && vecOk then s1 else s1.cfgRefused d
       else
         let s1 := (s.setSizes d v).setIrq d v
         if v / 2 ^ 31 % 2 = 0 then s1
         else if !s1.deckRules d then s1.cfgRefused d
         else
           State.storeCtx (((s1.fset DECK_CFG.EN d 0 1).onDeck d (fun _ => { state := 1 })).withDeckEver true) d)

/-! Doorbells (R288, R301, R302, R314, R401). -/

/-- A doorbell write is discarded. -/
def State.dbDiscard (s : State) (port : Nat) : State := s.evt HIF_EVENT.DB_DISCARD port 0 1 none

/-- The deck that a doorbell write of function `fn` (0 PF0, 1 PF1, 1 + k VF k) acts on: aligned, at offset `o` of an enabled
deck of the function's. -/
def State.dbDeck (s : State) (fn off n o : Nat) : Option Nat :=
  let d := off / 256
  let mine := if fn = 0 then true
    else if fn = 1 then false
    else s.vfPart (fn - 1) == some (s.deckPart d) && s.fget DECK_QCFG.ASSIGNED d 0 == 1
  if (n == 4 || n == 8) && off % n == 0 && off % 256 == o && decide (d < 32768) && mine && s.isReady && s.deckOn d &&
      (s.part (s.deckPart d)).stage == .none then some d else none

/-- DECK_DOORBELL (R301): entries become pending, and an entry into Idle or Standby is abandoned; a parked deck waits for an active place, and ACTIVE_FULL is set where no
active deck can be parked. -/
def execDeckDoorbell (fn port off n v : Nat) (s : State) : Host.Outcome State Fault Refusal :=
  ok (fnOk fn && hostOk port) s
    (match s.dbDeck fn off n 0 with
     | none => s.dbDiscard port
     | some d =>
       let i := v % 65536
       if i ≥ (s.deckRing d).2 then s.dbDiscard port
       else
         let s1 := s.abandonEntry.onDeck d (fun c => { c with doorbell := i, remembered := c.state == 1 })
         if (s.deck d).state = 1 ∧ s.activeCount ≥ 4096 ∧
             s.decks.any (fun (x, c) => c.state == 2 && s.deckIdle x) = false then s1.evt DECK_EVENT.ACTIVE_FULL d 0 1 none
         else s1)

/-- DECK_CQ_DOORBELL (R314): the records before the consumer index, modulo the ring, are consumed; their space and that of
their token-stream entries is reclaimed. -/
def execDeckCqDoorbell (fn port off n v : Nat) (s : State) : Host.Outcome State Fault Refusal :=
  ok (fnOk fn && hostOk port) s
    (match s.dbDeck fn off n 0x40 with
     | none => s.dbDiscard port
     | some d =>
       let c := s.deck d
       let size := (s.cqRing d).2
       let done := c.cqProd - (c.cqProd + size * 65536 - v % 65536) % size
       if done ≤ c.cqCons then s
       else s.onDeck d (fun c => { c with
         cqCons := done
         tsFree := ((c.tsMap.find? (fun x => x.1 == done - 1)).map Prod.snd).getD c.tsFree
         tsMap := c.tsMap.filter (fun x => decide (x.1 ≥ done)) }))

/-! Parking (R302). -/

/-- The active deck that has been idle longest. -/
def State.longestIdle (s : State) : Option Nat :=
  ((s.decks.filter (fun (d, c) => c.state == 2 && s.deckIdle d)).foldl (fun (b : Option (Nat × Nat)) (d, c) =>
    match b with
    | some (x, t) => if c.idleSince < t then some (d, c.idleSince) else some (x, t)
    | none => some (d, c.idleSince)) none).map Prod.fst

/-- DECK_PARK (R302): an idle deck is parked after IDLE_US, or, as the one idle longest, for a deck that waits for its
place. -/
def execDeckPark (deck : Nat) (s : State) : Host.Outcome State Fault Refusal :=
  ok (deckOk deck) s
    (let c := s.deck deck
     let us := s.fget DECK_PARK_US.IDLE_US (0x9000 + s.deckPart deck) 0
     let due := us != 0 && decide (s.time ≥ c.idleSince + us * 1000)
     let wanted := decide (s.activeCount ≥ 4096) && s.decks.any (fun (_, x) => x.state == 1 && x.remembered) &&
       s.longestIdle == some deck
     if c.state = 2 ∧ s.deckOn deck = true ∧ s.deckIdle deck = true ∧ (due || wanted) = true then
       (s.onDeck deck (fun c => { c with state := 1 })).storeCtx deck
     else s)

/-- DECK_ACTIVATE (R302): a parked deck whose doorbell has rung becomes active where there is a place; a context that reads
uncorrectable stops the deck (R322). -/
def execDeckActivate (deck : Nat) (s : State) : Host.Outcome State Fault Refusal :=
  ok (deckOk deck) s
    (let c := s.deck deck
     if c.state = 1 ∧ c.remembered = true ∧ s.deckOn deck = true ∧ s.activeCount < 4096 then
       let k := s.ctxAt deck
       if (s.look k 256).2 then
         ((((s.closeRange k 256).readRange 7 (some (s.deckPart deck)) 2 {} k 256).fset DECK_CFG.EN deck 0 0).onDeck deck (fun c =>
           { c with state := 3, remembered := false, fetched := [] })).evt DECK_EVENT.CTX_UE deck 0 1 none
       else
         ((s.closeRange k 256).readRange 7 (some (s.deckPart deck)) 2 {} k 256).onDeck deck (fun c =>
           { c with state := 2, remembered := false, idleSince := s.time })
     else s)

/-! Fetch and start. -/

/-- The deck engine works on the deck: it is active and enabled, its partition runs, and the part is in Run (R446). -/
def State.deckLive (s : State) (d : Nat) : Bool :=
  s.fget PWR_STATE_STATUS.STATE 0 0 == 0 && s.deckOn d && (s.deck d).state == 2 && !s.halted && s.partLive (s.deckPart d)

/-- DECK_FETCH (R301): the next pending entry is copied into the context; one that cannot be read is recorded, and keeps
only the fact. -/
def execDeckFetch (deck : Nat) (s : State) : Host.Outcome State Fault Refusal :=
  ok (deckOk deck) s
    (let c := s.deck deck
     let p := s.deckPart deck
     let (base, size) := s.deckRing deck
     if !s.deckLive deck || c.fetch == c.doorbell then s
     else
       let a := base + c.fetch * 64
       let push (t : State) (v : Nat) : State :=
         t.onDeck deck (fun c => { c with fetch := (c.fetch + 1) % size, fetched := c.fetched ++ [(v, s.time)] })
       let lost (t : State) : State := push t.draw (2 ^ 512 + leNat (s.freeBytes 64))
       match s.engGet p a 64 with
       | .wait => s
       | .refused t => lost (t.record (s.homeHub p) { cause := 0x06, sev := 2, src := 7, part := some p, addr := a, pos := 0xFFFF })
       | .bytes bs bad =>
         let t := s.engTouch 7 p 2 a 64
         if bad then lost t else push t (leNat bs))

/-- COMMAND_START (R303): the deck's next fetched command takes an execution slot if all conditions hold; a faulty entry
completes at once (R307). -/
def execCommandStart (deck : Nat) (s : State) : Host.Outcome State Fault Refusal :=
  ok (deckOk deck) s
    (match (s.deck deck).fetched with
     | [] => s
     | (v, t0) :: rest =>
       let p := s.deckPart deck
       if !s.deckLive deck || s.tree.cut then s
       else match s.freeSlot p with
         | none => s.onDeck deck (fun c => { c with blocked := true })
         | some x =>
           if !s.canStart deck v then s.onDeck deck (fun c => { c with blocked := true })
           else
             let s1 := s.onDeck deck (fun c => { c with fetched := rest, blocked := false })
             let s2 := State.onExec (s1.withStartNo (s1.startNo + 1)) p x (fun e =>
               { busy := true, gen := !e.gen, deck := deck, entry := v, fetched := t0, order := s.startNo, started := s.time })
             match s.badByte p v with
             | some off => s2.complete p x 6 off
             | none => s2.preDecide p)

/-! Late results (R321). -/

/-- LATE_RESULT (R321): a result for a command whose timeout has been decided is discarded and counted; its record, if not
yet written, says so. -/
def execLateResult (part slot : Nat) (gen : Bool) (s : State) : Host.Outcome State Fault Refusal :=
  ok (slotOk part slot) s
    (let e := s.execOf part slot
     let ending := match e.stage with
       | .ending _ _ _ => true
       | _ => false
     if e.busy && e.gen == gen && !ending then s
     else
       let s1 := (s.fcount DECK_COUNT.LATE (0x9000 + part) 0).evt DECK_EVENT.LATE e.deck 0 1 none
       if e.busy && e.gen == gen then s1.onExec part slot (fun e => { e with lateSeen := true }) else s1)

/-- EXEC_SLOT_QUARANTINE_END (R321): 2 µs after a timeout freed it, the slot can be allocated again. -/
def execExecSlotQuarantineEnd (part slot : Nat) (s : State) : Host.Outcome State Fault Refusal :=
  ok (slotOk part slot) s
    (match (s.execOf part slot).quarantine with
     | some t => if s.time ≥ t then s.onExec part slot (fun e => { e with quarantine := none }) else s
     | none => s)

end Sys2Proof.Machine
end

