-- ==== Sys2Proof/Machine/Matmul.lean ====
section
/-!
DEFINITION. Matrix passes (R38 to R46, R70 to R76, R97, R98): how the work of a MATMUL descriptor falls into passes, where
each pass finds its weights, what it adds to the accumulator entries, and what it writes at commit. The spec gives the
order in which weights lie; which output block and contraction chunk a pass, array and group take is the model's choice
(DESIGN CHOICE, assumption 12): output blocks in ascending order, and their contraction chunks in pass order.
-/

namespace Sys2Proof.Machine

/-- A MATMUL descriptor read (Table 4.5). -/
structure Mm where
  stream : Bool
  arrays : List Nat
  across : Nat
  down : Nat
  groups : Nat
  sumGroups : Bool
  wfmt : Fmt
  inp : Slot
  out : Slot
  accum : Bool
  nonsat : Bool
  vectors : Nat
  perPass : Nat
  outs : Nat
  contract : Nat
  wPlace : Nat
  sPlace : Nat
  tscaleW : Nat
  tscaleA : Nat
  outScale : Nat
  deriving DecidableEq, Repr

/-- The arrays of a GANG code, with the arrays across and down (Tables 2.2, 4.5). -/
def gangOf (g : Nat) : List Nat × Nat × Nat :=
  if g < 4 then ([g], 1, 1) else if g = 4 then ([0, 1], 2, 1) else if g = 5 then ([2, 3], 2, 1)
  else ([0, 1, 2, 3], 2, 2)

/-- The arrays of an ARRAYS mask. -/
def arraysOf (m : Nat) : List Nat := (List.range 4).filter m.testBit

/-- The matrix operator at which a thread stands; none where a slot or a format is absent. With WSRC 1, W_BASE and WS_BASE are
both offsets in WSLOT (R98, Table 4.5; for WS_BASE a DESIGN CHOICE, assumption 78). -/
def State.mm (s : State) (c : Ctx) : Option Mm :=
  match s.ctxSlot c 10, s.ctxSlot c 11, fmtOf (c.f 9 1) with
  | some i, some o, some wf =>
    let j := c.tile
    let mode := c.f 12 1
    let w := c.stepped 24 8 48
    let ws := c.stepped 32 8 52
    if c.opcode = 1 then
      let b := c.f 8 1
      some { stream := true, arrays := arraysOf (b % 16), across := 1, down := 1
             groups := 16 / 2 ^ (b / 16 % 8), sumGroups := decide (b / 128 = 1), wfmt := wf, inp := i, out := o
             accum := decide (mode % 2 = 1), nonsat := decide (mode / 2 % 2 = 1), vectors := c.f 14 2
             perPass := c.f 14 2, outs := c.f 16 4, contract := c.f 20 4, wPlace := t0At j w, sPlace := t0At j ws
             tscaleW := c.f 40 4, tscaleA := c.f 60 4, outScale := c.f 44 4 }
    else
      let (as, a, v) := gangOf (c.f 8 1)
      let inSlot := decide (mode / 4 % 2 = 1)
      let base := match s.ctxSlot c 13 with
        | some sl => if inSlot then wsAt j sl.loc else t0At j 0
        | none => t0At j 0
      some { stream := false, arrays := as, across := a, down := v, groups := 1, sumGroups := false, wfmt := wf
             inp := i, out := o, accum := decide (mode % 2 = 1), nonsat := decide (mode / 2 % 2 = 1)
             vectors := c.f 56 4, perPass := c.f 14 2, outs := c.f 16 4, contract := c.f 20 4, wPlace := base + w
             sPlace := base + ws, tscaleW := c.f 40 4, tscaleA := c.f 60 4, outScale := c.f 44 4 }
  | _, _, _ => none

/-- The quotient rounded up. -/
def ceilDiv (a b : Nat) : Nat := if b = 0 then 0 else (a + b - 1) / b

/-- Outputs per array of a stationary pass: 256 with 4-bit weights (R39); 128 in stream mode. -/
def Mm.per (m : Mm) : Nat := if !m.stream && m.wfmt.bits == 4 then 256 else 128

/-- Outputs of a block. -/
def Mm.cols (m : Mm) : Nat := m.across * m.per

/-- Inputs of a chunk. -/
def Mm.rows (m : Mm) : Nat := 128 * m.down

/-- Output blocks. -/
def Mm.nBlocks (m : Mm) : Nat := ceilDiv m.outs m.cols

/-- Contraction chunks. -/
def Mm.nChunks (m : Mm) : Nat := ceilDiv m.contract m.rows

/-- Batches of vectors: N per stationary pass. -/
def Mm.nBatches (m : Mm) : Nat := if m.stream then 1 else ceilDiv m.vectors m.perPass

/-- Blocks that the units of one round take: a unit is an array, or a group where groups are not summed. -/
def Mm.units (m : Mm) : Nat :=
  if !m.stream then 1 else if m.sumGroups then m.arrays.length else m.arrays.length * m.groups

/-- Passes over the contraction. -/
def Mm.depth (m : Mm) : Nat := if m.sumGroups then ceilDiv m.nChunks m.groups else m.nChunks

/-- The passes of the operator. -/
def Mm.passes (m : Mm) : Nat := ceilDiv m.nBlocks m.units * m.nBatches * m.depth

/-- The round, batch and depth of pass `p`. -/
def Mm.at_ (m : Mm) (p : Nat) : Nat × Nat × Nat :=
  let d := max m.depth 1
  let b := max m.nBatches 1
  (p / (d * b), p / d % b, p % d)

/-- An output block and contraction chunk that a unit takes in a pass: first output, outputs, first input, inputs. -/
structure Item where
  ob : Nat
  on : Nat
  cb : Nat
  cn : Nat
  deriving DecidableEq, Repr

/-- The item of block `b` and chunk `c`, if both exist. -/
def Mm.item (m : Mm) (b c : Nat) : Option Item :=
  if b < m.nBlocks ∧ c < m.nChunks then
    some ⟨b * m.cols, min m.cols (m.outs - b * m.cols), c * m.rows, min m.rows (m.contract - c * m.rows)⟩
  else none

/-- The items that the `a`-th array takes in pass `p` of stream mode, group by group; in stationary mode the one item of the
gang. -/
def Mm.arrayItems (m : Mm) (p a : Nat) : List Item :=
  let (r, _, d) := m.at_ p
  if m.sumGroups then (List.range m.groups).filterMap (fun g => m.item (r * m.units + a) (d * m.groups + g))
  else if m.stream then (List.range m.groups).filterMap (fun g => m.item (r * m.units + a * m.groups + g) d)
  else (m.item (r * m.units) d).toList

/-- The items of pass `p`: over the arrays, then over the groups (R98). -/
def Mm.items (m : Mm) (p : Nat) : List Item :=
  if m.stream then (List.range m.arrays.length).flatMap (m.arrayItems p) else m.arrayItems p 0

/-- Weights of an item. -/
def Item.size (i : Item) : Nat := i.on * i.cn

/-- Block scales of an item. -/
def Item.scaleCount (i : Item) : Nat := i.on * ceilDiv i.cn 32

/-- The items of the passes before `p` and those before the `k`-th item of pass `p`, in stream mode. -/
def Mm.before (m : Mm) (p k : Nat) : List Item :=
  ((List.range p).map m.items).flatten ++ (m.items p).take k

/-- The index of the first weight and of the first block scale of the `k`-th item of pass `p` (R98: no gaps). -/
def Mm.start (m : Mm) (p k : Nat) (i : Item) : Nat × Nat :=
  if m.stream then
    let l := m.before p k
    ((l.map Item.size).sum, (l.map Item.scaleCount).sum)
  else (i.ob * m.contract + i.on * i.cb, i.ob * ceilDiv m.contract 32 + i.on * (i.cb / 32))

/-- The index, in an item, of the weight of local output `k` and local input `r`: slot by slot in stream mode; array by
array, row by row in stationary mode. A chunk of fewer than 128 rows stores only those (R98; DESIGN CHOICE, assumption 77). -/
def Mm.wIndex (m : Mm) (i : Item) (k r : Nat) : Nat :=
  if m.stream then k * i.cn + r
  else
    let v := r / 128
    let rn := min 128 (i.cn - 128 * v)
    let a := k / m.per
    let kn := min m.per (i.on - m.per * a)
    128 * v * i.on + rn * m.per * a + (r - 128 * v) * kn + (k - m.per * a)

/-- The index, in an item, of the scale of local output `k` and local block `b`. -/
def Mm.sIndex (m : Mm) (i : Item) (k b : Nat) : Nat :=
  if m.stream then k * ceilDiv i.cn 32 + b
  else
    let v := b / 4
    let bn := ceilDiv (min 128 (i.cn - 128 * v)) 32
    let a := k / m.per
    let kn := min m.per (i.on - m.per * a)
    4 * v * i.on + bn * m.per * a + (b - 4 * v) * kn + (k - m.per * a)

/-- `n` element codes from element `e` of a packed array at a place, and whether a word of them was bad. -/
def State.codesAt (s : State) (f : Fmt) (k e n : Nat) : List Nat × Bool :=
  let b := e * f.bits
  let (bs, bad) := s.look (k + b / 8) ((b % 8 + n * f.bits + 7) / 8)
  (unpack f (leNat bs / 2 ^ (b % 8)) n, bad)

/-- An item with its weights, its scales and the operand rows it meets. -/
structure ItemData where
  it : Item
  ws : List Nat
  ss : List Nat
  rows : List Row
  bad : Bool
  deriving DecidableEq, Repr

/-- The vectors of a pass. -/
def Mm.batch (m : Mm) (p : Nat) : List Nat :=
  let (_, b, _) := m.at_ p
  (List.range m.vectors).filter (fun t => m.stream || t / m.perPass == b)

/-- The elements of row `t` of the input from `cb` on. -/
def State.inputPart (s : State) (j : Nat) (sl : Slot) (t cb n : Nat) : Row :=
  s.rowFrom sl.fmt (wsAt j (sl.rowAt t + cb * sl.fmt.bits / 8)) (wsAt j (sl.scaleAt t + cb / 32)) n

/-- What the `k`-th item of pass `p` reads, as memory now stands (R20). -/
def State.itemData (s : State) (j : Nat) (m : Mm) (p k : Nat) (i : Item) : ItemData :=
  let (e, sc) := m.start p k i
  let (ws, b1) := s.codesAt m.wfmt m.wPlace e i.size
  let (ss, b2) := if m.wfmt.block then s.look (m.sPlace + sc) i.scaleCount else ([], false)
  let rows := (m.batch p).map (fun t => s.inputPart j m.inp t i.cb i.cn)
  ⟨i, ws, ss.map BitVec.toNat, rows, b1 || b2 || rows.any Row.bad⟩

/-- What pass `p` reads. -/
def State.passData (s : State) (j : Nat) (m : Mm) (p : Nat) : List ItemData :=
  (m.items p).mapIdx (fun k i => s.itemData j m p k i)

/-- The places that pass `p` reads: its items' weights and scales, and the operand rows they meet. -/
def Mm.reads (m : Mm) (j p : Nat) : List (Nat × Nat) :=
  ((m.items p).mapIdx (fun k i =>
    let (e, sc) := m.start p k i
    let b := e * m.wfmt.bits
    [(m.wPlace + b / 8, (b % 8 + i.size * m.wfmt.bits + 7) / 8)] ++
    (if m.wfmt.block then [(m.sPlace + sc, i.scaleCount)] else []) ++
    (m.batch p).flatMap (fun t =>
      [(wsAt j (m.inp.rowAt t + i.cb * m.inp.fmt.bits / 8), (i.cn * m.inp.fmt.bits + 7) / 8)] ++
      (if m.inp.fmt.block then [(wsAt j (m.inp.scaleAt t + i.cb / 32), ceilDiv i.cn 32)] else [])))).flatten

/-- A tensor scale: 1 for the MX formats (R67), else the descriptor's. -/
def tensorScale (f : Fmt) (c : Nat) : Num := if f.block && f != .abf4 then .fin false 1 0 else f32 c

/-- One accumulator entry with what its adding has shown. -/
structure Entry where
  v : Nat
  ovf : Bool := false
  sat : Bool := false
  deriving DecidableEq, Repr

/-- One block of an item added to an entry: local vector `t`, local output `k`, block `b` (R71 to R76). -/
def Mm.addBlock (m : Mm) (d : ItemData) (t k : Nat) (e : Entry) (b : Nat) : Entry :=
  let n := min 32 (d.it.cn - 32 * b)
  let row := d.rows.getD t ⟨[], [], false⟩
  let as := (row.elems.drop (32 * b)).take n
  let ws := (List.range n).map (fun r => m.wfmt.value (d.ws.getD (m.wIndex d.it k (32 * b + r)) 0))
  if m.wfmt = .int8 then
    let (v, sat) := accumulateInt e.v as ws
    { e with v := v, sat := e.sat || sat }
  else
    let sa := if m.inp.fmt.block then row.scales.getD b .nan else .fin false 1 0
    let sw := m.wfmt.scale (d.ss.getD (m.sIndex d.it k b) 0)
    let (v, o) := accumulate e.v (blockTerm (m.wfmt == .bf16) as ws sa sw (tensorScale m.inp.fmt m.tscaleA)
      (tensorScale m.wfmt m.tscaleW))
    { e with v := v, ovf := e.ovf || o }

/-- An item's blocks added to an entry, in ascending order (R38). -/
def Mm.addItem (m : Mm) (t k : Nat) (e : Entry) (d : ItemData) : Entry :=
  (List.range (ceilDiv d.it.cn 32)).foldl (m.addBlock d t (k - d.it.ob)) e

/-- A group's own sum of one output as an FP32 pattern, with its conditions; an integer sum is converted (R46). -/
def Mm.groupSum (m : Mm) (t k : Nat) (d : ItemData) : Entry :=
  let x := m.addItem t k { v := 0 } d
  if m.wfmt = .int8 then { x with v := (Fmt.int32.value x.v).rne32 } else x

/-- The groups' sums of one output, in ascending group, added in FP32, each rounded, then added to the entry (R46): to an INT32
entry as the integer that the FP32 sum is (DEDUCED, assumption 69). -/
def Mm.addGroups (m : Mm) (t k : Nat) (e : Entry) (ds : List ItemData) : Entry :=
  match ds with
  | [] => e
  | d :: rest =>
    let sum := rest.foldl (fun (a : Entry) d =>
      let x := m.groupSum t k d
      { v := add32 a.v x.v, ovf := a.ovf || x.ovf || (accumulate a.v (f32 x.v)).2, sat := a.sat || x.sat }) (m.groupSum t k d)
    if m.wfmt = .int8 then
      let (v, sat) := accumulateInt e.v [f32 sum.v] [.fin false 1 0]
      { e with v := v, sat := e.sat || sum.sat || sat }
    else
      let (v, o) := accumulate e.v (f32 sum.v)
      { e with v := v, ovf := e.ovf || sum.ovf || o }

/-- The entry of vector `t` and output `k` after pass `p`. -/
def Mm.entryAfter (m : Mm) (p : Nat) (ds : List ItemData) (t k v : Nat) : Entry :=
  match (m.batch p).idxOf? t with
  | none => { v := v }
  | some lt =>
    let mine := ds.filter (fun d => decide (d.it.ob ≤ k) && decide (k < d.it.ob + d.it.on))
    if m.sumGroups then m.addGroups lt k { v := v } mine
    else mine.foldl (fun e d => m.addItem lt k e d) { v := v }

/-- The working set of pass `p` over the committed set, whether entries overflowed or saturated, and whether an operand
arrived bad. -/
def State.passWork (s : State) (j : Nat) (m : Mm) (p : Nat) (acc : List Nat) : List Nat × Bool × Bool × Bool :=
  let ds := s.passData j m p
  let es := acc.mapIdx (fun x v => m.entryAfter p ds (x / m.outs) (x % m.outs) v)
  (es.map Entry.v, es.any Entry.ovf, es.any Entry.sat, ds.any ItemData.bad)

/-- The initial accumulator: zero, or OUT's contents (MODE.ACCUM); and whether they read bad. -/
def State.initAcc (s : State) (j : Nat) (m : Mm) : List Nat × Bool :=
  if m.accum then
    let rs := (List.range m.vectors).map (s.slotCodes j m.out)
    ((rs.map (fun r => r.1.take m.outs)).flatten, rs.any Prod.snd)
  else (List.replicate (m.vectors * m.outs) 0, false)

/-- The output blocks whose chains pass `p` completes. -/
def Mm.doneBlocks (m : Mm) (p : Nat) : List Item :=
  let (r, _, d) := m.at_ p
  if d + 1 = m.depth then (List.range m.units).filterMap (fun u => m.item (r * m.units + u) 0) else []

/-- The value of an accumulator entry. -/
def Mm.entryValue (m : Mm) (v : Nat) : Num := if m.wfmt = .int8 then Fmt.int32.value v else f32 v

/-- The outputs of a block for one vector, divided by OUT_SCALE and converted, rounded once (Table 4.5). -/
def Mm.outputs (m : Mm) (acc : List Nat) (t : Nat) (i : Item) : Packed :=
  let xs := (List.range i.on).map (fun k =>
    ((m.entryValue (acc.getD (t * m.outs + i.ob + k) 0)).quo (f32 m.outScale)).1)
  let d := match f32 m.outScale with
    | .fin _ n _ => if n = 0 then 1 else n
    | _ => 1
  packRow m.out.fmt m.nonsat d (.fin false 1 0) xs

/-- The outputs of the blocks that pass `p` completes reach OUT (R60). -/
def State.writeOutputs (s : State) (j : Nat) (m : Mm) (p : Nat) (acc : List Nat) : State × NumEv :=
  ((m.batch p).map (fun t => (m.doneBlocks p).map (fun i => (t, i)))).flatten.foldl
    (fun (a : State × NumEv) (t, i) =>
      let q := m.outputs acc t i
      (a.1.putElems j m.out t i.ob q, a.2.join q.ev)) (s, {})

/-! Feeding (R37, R47). -/

/-- The step of a pass: the feed slots that one operand pair occupies (R37). -/
def Mm.slotStep (m : Mm) : Nat := if m.wfmt == .bf16 || m.inp.fmt == .bf16 then 4 else 1

/-- The feed slots of pass `p` on its `a`-th array: S × N in stationary mode, S × K in stream mode (R47). -/
def Mm.slots (m : Mm) (p a : Nat) : Nat :=
  m.slotStep * (if m.stream then (m.arrayItems p a).foldl (fun n i => max n i.on) 0 else (m.batch p).length)

/-- The tile cycles from the last feed of a pass to its commit, the arrays having the spare-row figure `spare` (R47). -/
def Mm.drain (m : Mm) (spare : Nat) : Nat :=
  if m.stream then 128 / max 1 m.groups + 128 + spare + 3
  else 128 * m.down + 128 * m.across + 2 * m.across - 2 + m.down * spare + 3

/-- Pass `p` needs other held operands than the pass before it (R42, R46). -/
def Mm.needsLoad (m : Mm) (p : Nat) : Bool :=
  let key (q : Nat) := let (r, _, d) := m.at_ q; if m.stream then (0, d) else (r, d)
  p == 0 || key p != key (p - 1)

/-- The next pass goes on accumulating onto the set that pass `p` commits. -/
def Mm.chainGoesOn (m : Mm) (p : Nat) : Bool := let (_, _, d) := m.at_ p; d + 1 != m.depth

end Sys2Proof.Machine
end

