-- ==== Sys2Proof/Machine/Tiles.lean ====
section
/-!
DEFINITION. The matrix arrays of a tile (chapter 2): throttle and ramp, configurations, passes and their faults,
pre-emption, and the two matrix operators.
-/

namespace Sys2Proof.Machine

/-! Arrays and jobs. -/

/-- An array. -/
def State.arr (s : State) (j a : Nat) : Arr := Tbl.get {} s.arrs (j * 4 + a)

/-- The state with an array changed. -/
def State.onArr (s : State) (j a : Nat) (f : Arr → Arr) : State := { s with arrs := Tbl.upd {} s.arrs (j * 4 + a) f }

/-- The array's state (Table 2.16). -/
def State.arrState (s : State) (j a : Nat) : Nat := s.fgetAt TILE_ARRAY_STATUS.A0_STATE j 0 (4 * a)

/-- The state with the state of one of the tile's four arrays set. -/
def State.setArr (s : State) (j v : Nat) (a : Nat) : State :=
  if a < 4 then s.fsetAt TILE_ARRAY_STATUS.A0_STATE j 0 (4 * a) v else s

/-- The state with the state of several arrays set. -/
def State.setArrs (s : State) (j v : Nat) (as : List Nat) : State := as.foldl (fun t a => t.setArr j v a) s

/-- The key of the job that array `a` leads at level `l` of tile `j`. -/
def jobKey (j l a : Nat) : Nat := (j * 4 + l) * 4 + a

/-- The job that an array leads. -/
def State.job (s : State) (j l a : Nat) : Option Job := Tbl.get none s.jobs (jobKey j l a)

/-- The state with that job set or removed. -/
def State.setJob (s : State) (j l a : Nat) (b : Option Job) : State :=
  { s with jobs := Tbl.put none s.jobs (jobKey j l a) b }

/-- The jobs of a level of a tile, by their lead array. -/
def State.levelJobs (s : State) (j l : Nat) : List (Nat × Job) :=
  (List.range 4).filterMap (fun a => (s.job j l a).map (fun b => (a, b)))

/-- The job holds its arrays. -/
def Job.holds (b : Job) : Bool := b.pre != .parked

/-- Some job holds the array. -/
def State.arrayBusy (s : State) (j a : Nat) : Bool :=
  (List.range 4).any (fun l => (s.levelJobs j l).any (fun (_, b) => b.holds && b.arrays.contains a))

/-- The operator of a job. -/
def State.jobCtx (s : State) (p l j : Nat) (b : Job) : Option Ctx := s.opOf p l (s.inst p l) j b.thread

/-! Configurations (Tables 2.2, 2.3, R105). -/

/-- A0+A1 are a pair in a configuration. -/
def lowPair (sh : Nat) : Bool := sh == 1 || sh == 3

/-- A2+A3 are a pair in a configuration. -/
def highPair (sh : Nat) : Bool := sh == 2 || sh == 3

/-- The configuration lets the arrays run as asked: `gang` 4, 5, 6 for the ganged shapes, less for single arrays. -/
def shapeOk (sh gang : Nat) (as : List Nat) : Bool :=
  if gang = 4 then lowPair sh else if gang = 5 then highPair sh else if gang = 6 then sh == 4
  else sh != 4 && as.all (fun a => if a < 2 then !lowPair sh else !highPair sh)

/-- The configuration that the arrays need, the other half of the tile as it is. -/
def shapeFor (sh gang : Nat) (as : List Nat) : Nat :=
  if gang = 6 then 4
  else
    let lo := if gang = 4 then true else if as.any (· < 2) then false else lowPair sh
    let hi := if gang = 5 then true else if as.any (2 ≤ ·) then false else highPair sh
    (if lo then 1 else 0) + (if hi then 2 else 0)

/-- The arrays that an operator acquires, with the ganging code they need (R105). -/
def Ctx.arrays (c : Ctx) : Nat × List Nat :=
  if c.opcode = 1 then (0, arraysOf (c.f 8 1 % 16))
  else
    let g := c.f (if c.opcode = 2 then 8 else 30) 1
    (g, (gangOf g).1)

/-- The operator can acquire its arrays: the configuration lets them run as asked, and none is held. -/
def State.arraysFree (s : State) (c : Ctx) : Bool :=
  shapeOk (s.fget TILE_ARRAY_STATUS.SHAPE c.tile 0) c.arrays.1 c.arrays.2 && !c.arrays.2.any (s.arrayBusy c.tile)

/-- A lower-numbered thread waits for arrays that it can acquire: it is served first (R105). -/
def State.servedFirst (s : State) (c : Ctx) : Bool :=
  (List.range c.thread).any (fun t => match s.cur c.tile t with
    | some d => (s.thr c.tile d.level t).st == .unit && [1, 2, 3, 5].contains d.opcode && s.arraysFree d
    | none => false)

/-- What follows when an operator acquires its arrays; else its thread waits for them, or asks for the configuration they
need; while such a request stands, no other thread acquires any array (R105). -/
def State.withArrays (s : State) (c : Ctx) (k : State) : State :=
  match (s.tile c.tile).want with
  | some (_, l, t) =>
    if l = c.level ∧ t = c.thread ∧ s.arraysFree c = true then k.onTile c.tile (fun w => { w with want := none })
    else s.waitUnit c
  | none =>
    let sh := s.fget TILE_ARRAY_STATUS.SHAPE c.tile 0
    if !shapeOk sh c.arrays.1 c.arrays.2 then
      (s.waitUnit c).onTile c.tile (fun w => { w with want := some (shapeFor sh c.arrays.1 c.arrays.2, c.level, c.thread) })
    else if c.arrays.2.any (s.arrayBusy c.tile) || s.servedFirst c then s.waitUnit c
    else k

/-! Geometry (R33 to R38). -/

/-- A logical index carried past the repaired positions at and below it (R33). -/
def shifted (i p0 en0 p1 en1 : Nat) : Nat :=
  i + (if en0 = 1 ∧ p0 ≤ i then 1 else 0) + (if en1 = 1 ∧ p1 ≤ i then 1 else 0)

/-- The physical row of logical row `i` of array `n` (R33). -/
def State.physRow (s : State) (j n i : Nat) : Nat :=
  shifted i (s.fget TILE_ARRAY_REPAIR.ROW0 j n) (s.fget TILE_ARRAY_REPAIR.ROW0_EN j n) (s.fget TILE_ARRAY_REPAIR.ROW1 j n)
    (s.fget TILE_ARRAY_REPAIR.ROW1_EN j n)

/-- The physical column of a logical column, through the COL fields (R33). -/
def State.physCol (s : State) (j n i : Nat) : Nat :=
  shifted i (s.fget TILE_ARRAY_REPAIR.COL0 j n) (s.fget TILE_ARRAY_REPAIR.COL0_EN j n) (s.fget TILE_ARRAY_REPAIR.COL1 j n)
    (s.fget TILE_ARRAY_REPAIR.COL1_EN j n)

/-- The tile cycle, from a pass's first feed and bubbles apart, in which the cell of a logical row and column of a single array
computes vector `v` at step `sp` (R38). -/
def State.cellCycle (s : State) (j n sp v row col : Nat) : Nat := sp * v + s.physRow j n row + s.physCol j n col

/-- The spare-row figure that the arrays run with: a gang's padded figure, or a single array's own (R48). -/
def State.spareOf (s : State) (j : Nat) (as : List Nat) : Nat :=
  match as with
  | [a] => s.fgetAt TILE_ARRAY_LAT.A0_EXTRA j 0 (2 * a)
  | [0, 1] => s.fget TILE_ARRAY_LAT.PAIR01 j 0
  | [2, 3] => s.fget TILE_ARRAY_LAT.PAIR23 j 0
  | _ => s.fget TILE_ARRAY_LAT.WHOLE j 0

/-! Feed slots (R36, R51 to R54). -/

/-- The activity masks M1 to M8 (Table 2.8); none above and below. -/
def activityMask (n : Nat) : Nat := [0, 0x01, 0x11, 0x25, 0x55, 0x5B, 0x77, 0x7F, 0xFF].getD n 0

/-- Mask `n` allows a feed in a tile cycle in which the counter reads `c` (R51). -/
def maskBit (n c : Nat) : Bool := (activityMask n).testBit c

/-- A feed slot carries a valid operand: it has one, and both its ramp mask and its throttle mask M(8 − DUTY) allow it at the
counter's value (R53, R54). -/
def feedValid (ramp duty c : Nat) (operand : Bool) : Bool := operand && maskBit ramp c && maskBit (8 - duty) c

/-- A feed slot is a dummy feed: its array ramps down, and the mask in use allows one (R36, R52). -/
def feedDummy (st ramp c : Nat) : Bool := st == 4 && maskBit ramp c

/-- The mask at which an array that fed last `down` tile cycles ago starts to feed again: that of the ramp-down step it would
have reached, or M1 (R52). -/
def entryMask (len down : Nat) : Nat := if down < 8 * len then max 1 (7 - down / len) else 1

/-- One tile cycle of an array in state `st`, the counter reading `c`: a valid slot feeds an operand; behind the last with no
pass queued, ramp-down begins; a drain is followed by a save, a restore by feeding (R50 to R59). Answered with its state. -/
def Arr.cycle (r : Arr) (st duty c : Nat) : Arr × Nat :=
  let q := { r with step := min 16 (r.step + 1), busy := r.busy - 1 }
  if st = 1 ∨ st = 2 ∨ st = 7 then
    if feedValid r.mask duty c (r.held && r.left != 0) then
      if r.left = 1 ∧ r.last = true then ({ q with left := 0, mask := 7, step := 0, down := 0 }, 4)
      else ({ q with left := r.left - 1 }, st)
    else (q, st)
  else if st = 3 ∧ r.busy ≤ 1 then ({ q with busy := 32 }, 5)
  else if st = 6 ∧ r.busy ≤ 1 then (q, if r.mask = 8 then 2 else 1)
  else if st = 6 then (q, st)
  else ({ q with down := min 128 (r.down + 1) }, st)

/-- The tile cycles of one nanosecond of an array: `n` of them, the counter reading `c` in the first. -/
def Arr.cycles (r : Arr) (st duty c : Nat) : Nat → Arr × Nat
  | 0 => (r, st)
  | n + 1 => let (q, u) := r.cycle st duty c; q.cycles u duty ((c + 1) % 8) n

/-- A nanosecond passes for an array of a tile whose clock gives `n` tile cycles in it. -/
def State.arrTick (s : State) (j a n : Nat) : State :=
  let (r, st) := (s.arr j a).cycles (s.arrState j a) (s.fget TILE_THROTTLE.DUTY_EFF j 0) (s.tile j).counter n
  (s.onArr j a (fun _ => r)).setArr j st a

/-! Throttle, ramp, loads (R42, R51 to R54, R63). -/

/-- TILE_THROTTLE_WRITE (R63): only the power manager's write takes effect; DUTY and RAMP_LEN_MGMT are its fields. -/
def execTileThrottleWrite (who : Accessor) (tile v : Nat) (s : State) : Host.Outcome State Fault Refusal :=
  ok (who.wf && tileOk tile) s
    (if who = .mgmt ∧ s.tileUsable tile = true then
      (s.fset TILE_THROTTLE.DUTY tile 0 v).fset TILE_THROTTLE.RAMP_LEN_MGMT tile 0 (v / 256)
     else s)

/-- The duty in use for a value of DUTY: 7 acts as 6 (R53). -/
def dutyOf (v : Nat) : Nat := min v 6

/-- THROTTLE_TAKE_EFFECT (R53): in a tile cycle in which the counter is 0, DUTY becomes the duty in use. -/
def execThrottleTakeEffect (tile : Nat) (s : State) : Host.Outcome State Fault Refusal :=
  ok (tileOk tile) s
    (if (s.tile tile).counter = 0 then
      s.fset TILE_THROTTLE.DUTY_EFF tile 0 (dutyOf (s.fget TILE_THROTTLE.DUTY tile 0))
     else s)

/-- RAMP_STEP (R52): a step's tile cycles have passed; ramp-up goes one mask on and ends at M8; ramp-down goes one mask back
and ends with none. -/
def execRampStep (tile array : Nat) (s : State) : Host.Outcome State Fault Refusal :=
  ok (arrayOk tile array) s
    (let m := (s.arr tile array).mask
     let st := s.arrState tile array
     if (s.arr tile array).step < s.rampStep tile then s
     else if st = 1 then
       (s.onArr tile array (fun a => { a with mask := m + 1, step := 0 })).setArr tile (if m + 1 ≥ 8 then 2 else 1) array
     else if st = 4 then
       (s.onArr tile array (fun a => { a with mask := m - 1, step := 0 })).setArr tile (if m ≤ 1 then 0 else 4) array
     else s)

/-- SHADOW_LOAD_DONE (R42): the operands the running pass waits for are held, or those of the next are in the shadow
registers. -/
def execShadowLoadDone (tile array : Nat) (s : State) : Host.Outcome State Fault Refusal :=
  ok (arrayOk tile array) s
    (if s.arrayBusy tile array then
      s.onArr tile array (fun a => if a.held then { a with shadow := true } else { a with held := true })
     else s)

/-- Every array is idle, with no pass feeding or draining (R43); a faulted array is. -/
def State.arraysIdle (s : State) (j : Nat) : Bool :=
  (List.range 4).all (fun a => !s.arrayBusy j a && (s.arrState j a == 0 || s.arrState j a == 8))

/-- ARRAY_CONFIG_CHANGE (R43): the tile takes the configuration an operator waits for; the arrays stay that operator's to
acquire (R105). -/
def execArrayConfigChange (tile : Nat) (s : State) : Host.Outcome State Fault Refusal :=
  ok (tileOk tile) s
    (match (s.tile tile).want with
     | some (sh, _, _) => if s.arraysIdle tile then s.fset TILE_ARRAY_STATUS.SHAPE tile 0 sh else s
     | none => s)

/-! Passes. -/

/-- The bits of an array mask. -/
def maskOf (as : List Nat) : Nat := as.foldl (fun m a => setBit m a true) 0

/-- The state with the bits of some arrays set in a field of TILE_ARRAY_EVENT. -/
def State.arrEvent (s : State) (f : Field) (j : Nat) (as : List Nat) : State := s.fset f j 0 (s.fget f j 0 ||| maskOf as)

/-- An array is to feed `n` slots, `last` when no pass is queued behind: an array with a mask in use goes on from it, one
without starts at the ramp's entry mask (R52). -/
def Arr.begin (r : Arr) (len n : Nat) (last : Bool) : Arr :=
  if r.mask = 0 then { r with mask := entryMask len r.down, step := 0, left := n, last := last, busy := 0 }
  else { r with left := n, last := last, busy := 0 }

/-- The arrays of a job start to feed, `n` slots on the `i`-th being done already (R52, R59); `wait` tile cycles of restoring
come first. -/
def State.feed (s : State) (j : Nat) (m : Mm) (p : Nat) (fed : List Nat) (wait : Nat) : State :=
  (List.range m.arrays.length).foldl (fun t i =>
    let a := m.arrays.getD i 0
    let r := (t.arr j a).begin (t.rampStep j) (m.slots p i - fed.getD i 0) (p + 1 == m.passes)
    (t.onArr j a (fun _ => { r with busy := wait })).setArr j (if wait ≠ 0 then 6 else if r.mask = 8 then 2 else 1) a) s

/-- The arrays have fed their last slot with no pass queued: ramp-down through M7, unless it runs already (R52). -/
def State.rampDown (s : State) (j : Nat) (as : List Nat) : State :=
  as.foldl (fun t a =>
    if (t.arr j a).last && (t.arr j a).left == 0 then t.onArr j a (fun r => { r with held := false, shadow := false, last := false })
    else (t.onArr j a (fun _ => { mask := 7, down := 0 })).setArr j 4 a) s

/-- The arrays stop at once: no mask, no operands held. -/
def State.stopArrays (s : State) (j v : Nat) (as : List Nat) : State :=
  as.foldl (fun t a =>
    (t.onArr j a (fun r => { down := if r.mask = 0 ∨ t.arrState j a = 4 then r.down else 0 })).setArr j v a) s

/-- A job's operator ends in fault on its arrays (R61, R88). -/
def State.arrayFault (s : State) (c : Ctx) (lead : Nat) (as : List Nat) (cause : Nat) : State :=
  (((s.setJob c.tile c.level lead none).stopArrays c.tile 8 as).arrEvent TILE_ARRAY_EVENT.PASS_FAULT c.tile as).opEndFault
    c cause

/-- The held operands of the next pass: swapped in from the shadow registers if it needs new ones (R42). -/
def State.swapHeld (s : State) (j : Nat) (as : List Nat) (needs : Bool) : State :=
  if needs then as.foldl (fun t a => t.onArr j a (fun r => { r with held := r.shadow, shadow := false })) s else s

/-- What the reads of pass `p` do beside delivering its operands: corrections, marks and records (R264, R265). -/
def State.passTouch (s : State) (c : Ctx) (m : Mm) (p : Nat) : State := s.opReads c (m.reads c.tile p)

/-- A matrix operator starts its first pass on its arrays. -/
def State.startJob (s : State) (c : Ctx) (m : Mm) : State :=
  let j := c.tile
  let lead := m.arrays.headD 0
  let (acc, bad0) := s.initAcc j m
  let (work, ovf, sat, bad) := s.passWork j m 0 acc
  let s0 := (if m.accum then s.opReads c ((List.range m.vectors).map (fun r =>
      (wsAt j (m.out.rowAt r), m.out.fmt.packed m.out.cols))) else s).passTouch c m 0
  if m.passes = 0 then s.opDone c
  else if bad0 || bad then s0.arrayFault c lead m.arrays 0x03
  else
    let b : Job := { thread := c.thread, stream := m.stream, arrays := m.arrays, pass := 0, passes := m.passes, acc := acc
                     work := work, ovf := ovf, intSat := sat, retried := false, nan := false
                     shape := s.fget TILE_ARRAY_STATUS.SHAPE j 0, pre := .none, cuts := [], saved := false }
    let s1 := m.arrays.foldl (fun t a => t.onArr j a (fun r => { r with held := false, shadow := false })) s0
    ((s1.setJob j c.level lead (some b)).feed j m 0 [] 0).onThr j c.level c.thread (fun h => { h with st := .arrays })

/-- The running pass of a job is committed (R60): sums and finished outputs become visible; its conditions and its retry
are counted. The job is answered with the committed set. -/
def State.commitSet (s : State) (c : Ctx) (m : Mm) (b : Job) : State × Job :=
  let (s1, ev) := s.writeOutputs c.tile m b.pass b.work
  let s2 := s1.numEv c.tile (ev.join { accOvf := b.ovf, intSat := b.intSat })
  let s3 := if b.retried then
      (s2.arrEvent TILE_ARRAY_EVENT.PASS_RETRIED c.tile b.arrays).fcount TILE_ARRAY_COUNT.RETRIES c.tile 0
    else s2
  (s3, { b with acc := b.work, retried := false, nan := b.nan || ev.special })

/-- The job's operator has committed its last pass: its arrays are released and ramp down; NAN_FAULT makes it a fault. -/
def State.endJob (s : State) (c : Ctx) (lead : Nat) (b : Job) : State :=
  if b.nan && s.fget TILE_NUM_CTL.NAN_FAULT c.tile 0 == 1 then s.arrayFault c lead b.arrays 0x02
  else ((s.setJob c.tile c.level lead none).rampDown c.tile b.arrays).opDone c

/-- The job's next pass begins (R20: weights as they now stand). -/
def State.nextPass (s : State) (c : Ctx) (m : Mm) (lead : Nat) (b : Job) : State :=
  let p := b.pass + 1
  let (work, ovf, sat, bad) := s.passWork c.tile m p b.acc
  let t := s.passTouch c m p
  if bad then t.arrayFault c lead b.arrays 0x03
  else
    ((t.swapHeld c.tile b.arrays (m.needsLoad p)).setJob c.tile c.level lead
      (some { b with pass := p, work := work, ovf := ovf, intSat := sat })).feed c.tile m p [] 0

/-- The job led by an array in the running instance of its tile, with its operator. -/
def State.runningJob (s : State) (tile array : Nat) : Option (Ctx × Mm × Job) :=
  match s.tileInst tile with
  | none => none
  | some (p, l, _) =>
    match s.job tile l array with
    | none => none
    | some b =>
      match s.jobCtx p l tile b with
      | none => none
      | some c => (s.mm c).map (fun m => (c, m, b))

/-! Pre-emption (R55 to R59, R106): what is saved. -/

/-- The working-store place of array `a`'s set at a save level (R58). -/
def saveAt (j l a : Nat) : Nat := wsAt j (0xB00000 + l * 0x40000 + a * 0x10000)

/-- The working-store place of thread `t`'s context at a level; the level's tile-local semaphores follow the sixteen (R101). -/
def ctxThrAt (j l t : Nat) : Nat := wsAt j (0xBC0000 + l * 0x8000 + t * 1920)

/-- The place of the level's tile-local semaphores. -/
def ctxSemAt (j l : Nat) : Nat := ctxThrAt j l 16

/-- The entries of pass `p`'s chain that the set of its `i`-th array holds, vector by vector, output by output: in stream mode
those of the array's groups; those of a gang fill its arrays' sets in turn (DESIGN CHOICE, assumption 68). -/
def Mm.setEntries (m : Mm) (p i : Nat) : List Nat :=
  let of (l : List Item) : List Nat := (m.batch p).flatMap (fun t => l.flatMap (fun x =>
    (List.range x.on).map (fun k => t * m.outs + x.ob + k)))
  if m.stream then (of (m.arrayItems p i)).eraseDups else ((of (m.arrayItems p 0)).drop (16384 * i)).take 16384

/-- The index by which a cut counts an entry: the vector in stationary mode, the output in stream mode (R57). -/
def Mm.cutIndex (m : Mm) (p x : Nat) : Nat :=
  if m.stream then x % m.outs % m.cols else ((m.batch p).idxOf? (x / m.outs)).getD 0

/-- The entry's slot lies before the cut of the `i`-th array. -/
def Mm.wasFed (m : Mm) (p : Nat) (cuts : List Nat) (i x : Nat) : Bool := decide (m.cutIndex p x < cuts.getD i 0)

/-- The set of a job as it is saved, entry by entry of its `i`-th array: what was fed before the cut has its sum, the rest stands
as committed (R57); with no cut, the committed set (R55). -/
def Job.setOf (b : Job) (m : Mm) (i : Nat) : List Nat :=
  (m.setEntries b.pass i).map (fun x => if m.wasFed b.pass b.cuts i x then b.work.getD x 0 else b.acc.getD x 0)

/-- A job's sets are saved, each array's in its own 64 KiB (R57, R58). -/
def State.saveSets (s : State) (j l : Nat) (m : Mm) (b : Job) : State :=
  (List.range b.arrays.length).foldl (fun t i =>
    t.store (saveAt j l (b.arrays.getD i 0)) (((b.setOf m i).map (natLE 4)).flatten) false) s

/-- The ranges that hold a job's saved sets. -/
def Job.savedSpans (b : Job) (j l : Nat) (m : Mm) : List (Nat × Nat) :=
  (List.range b.arrays.length).map (fun i => (saveAt j l (b.arrays.getD i 0), 4 * (m.setEntries b.pass i).length))

/-- The saved value of an entry, if a set of the job holds it: the array that holds it, and the value. -/
def State.savedEntry (s : State) (j l : Nat) (m : Mm) (b : Job) (x : Nat) : Option (Nat × Nat) :=
  (List.range b.arrays.length).findSome? (fun i =>
    ((m.setEntries b.pass i).idxOf? x).map (fun n => (i, s.lookN (saveAt j l (b.arrays.getD i 0) + 4 * n) 4)))

/-- SAVE_LEVELS: the levels that hold a saved set. -/
def State.countLevels (s : State) (j : Nat) : State :=
  s.fset TILE_ARRAY_STATUS.SAVE_LEVELS j 0
    ((List.range 4).filter (fun l => (s.levelJobs j l).any (fun (_, b) => b.saved))).length

/-- A thread's position and progress as its context holds them: run, iteration, descriptor, whether its operator is on its
retry, since when it waits, each in 8 bytes, zeros behind (DESIGN CHOICE, assumption 68). -/
def Thr.context (h : Thr) : List Byte :=
  natLE 8 h.run ++ natLE 8 h.iter ++ natLE 8 h.idx ++ natLE 8 (if h.retried then 1 else 0) ++ natLE 8 h.since

/-- A thread with the position and progress that a context holds. -/
def Thr.restore (h : Thr) (bs : List Byte) : Thr :=
  let w (i : Nat) : Nat := leNat ((bs.drop (8 * i)).take 8)
  { h with run := w 0, iter := w 1, idx := w 2, retried := w 3 == 1, since := w 4 }

/-- When no job of the level holds arrays any more, the sequencer saves the level's context: its threads' positions and
progress and its tile-local semaphores (R101, R106). -/
def State.saveContext (s : State) (j l : Nat) : State :=
  if (s.levelJobs j l).any (fun (_, b) => b.holds) then s
  else
    ((List.range 16).foldl (fun t k => t.store (ctxThrAt j l k) (s.thr j l k).context false) (s.zero (ctxThrAt j l 0) 30720)).store
      (ctxSemAt j l) (((List.range 64).map (fun n => natLE 4 (Tbl.get 0 s.tileSems ((j * 4 + l) * 64 + n)))).flatten) false

/-- A job gives up its arrays until the resume; `save`: its sets go to the save area. -/
def State.parkJob (s : State) (c : Ctx) (m : Mm) (lead : Nat) (b : Job) (save : Bool) : State :=
  let s1 := if save then s.saveSets c.tile c.level m b else s
  (((s1.setJob c.tile c.level lead (some { b with pre := .parked, saved := save })).stopArrays c.tile 0
    b.arrays).countLevels c.tile).saveContext c.tile c.level

/-- A committed pass of a pre-empted job is its boundary (R55): the operator ends with its last pass; else its committed set is
saved if the next pass would accumulate onto it. -/
def State.boundary (s : State) (c : Ctx) (m : Mm) (lead : Nat) (b : Job) : State :=
  let (s1, b1) := s.commitSet c m b
  if b.pass + 1 = b.passes then (s1.endJob c lead b1).saveContext c.tile c.level
  else s1.parkJob c m lead { b1 with pass := b.pass + 1 } (m.chainGoesOn b.pass)

/-- PASS_COMMIT (R60): the running pass commits, and the next begins or the operator ends; where a normal pre-emption is asked,
the commit is its boundary (R55). A pass whose held operands have not loaded has not fed (R42); one that an urgent
pre-emption cut does not commit (R57). -/
def execPassCommit (tile array : Nat) (s : State) : Host.Outcome State Fault Refusal :=
  ok (arrayOk tile array) s
    (match s.runningJob tile array with
     | some (c, m, b) =>
       if ¬ b.arrays.all (fun a => (s.arr tile a).held) = true then s
       else match b.pre with
         | .urgent | .parked => s
         | .normal _ => s.boundary c m array b
         | .none =>
           let (s1, b1) := s.commitSet c m b
           if b.pass + 1 = b.passes then s1.endJob c array b1 else s1.nextPass c m array b1
     | none => s)

/-- A fault in the running pass (R61, Table 2.9): retried once from the abandoned pass, the committed set unchanged; a
pending normal pre-emption is honoured at the abandonment. -/
def State.passFault (s : State) (c : Ctx) (m : Mm) (lead : Nat) (b : Job) (poisoned : Bool) : State :=
  if poisoned then s.arrayFault c lead b.arrays 0x03
  else if b.retried then s.arrayFault c lead b.arrays 0x01
  else
    let (work, ovf, sat, bad) := s.passWork c.tile m b.pass b.acc
    let b1 := { b with retried := true, work := work, ovf := ovf, intSat := sat }
    let t := s.passTouch c m b.pass
    if bad then t.arrayFault c lead b.arrays 0x03
    else match b.pre with
      | .normal _ => t.parkJob c m lead b1 (m.chainGoesOn (b.pass - 1) && b.pass != 0)
      | _ => (((t.setJob c.tile c.level lead (some b1)).feed c.tile m b.pass [] 0)).setArrs c.tile 7 b.arrays

/-- PASS_FAULT (R61). -/
def execPassFault (tile array : Nat) (poisoned : Bool) (s : State) : Host.Outcome State Fault Refusal :=
  ok (arrayOk tile array) s
    (match s.runningJob tile array with
     | some (c, m, b) => if b.pre = .urgent ∨ b.pre = .parked then s else s.passFault c m array b poisoned
     | none => s)

/-! Pre-emption: requests, cuts, saves, resumes. -/

/-- Vectors or outputs fed so far in the running pass, array by array: the next is the unfed one (R57). -/
def State.fedOf (s : State) (j : Nat) (m : Mm) (b : Job) : List Nat :=
  (List.range b.arrays.length).map (fun i =>
    if (s.arr j (b.arrays.getD i 0)).held then (m.slots b.pass i - (s.arr j (b.arrays.getD i 0)).left) / m.slotStep else 0)

/-- The job's arrays stop feeding at the cut point, which is recorded, and what has been fed drains (R57). -/
def State.cutJob (s : State) (c : Ctx) (m : Mm) (lead : Nat) (b : Job) : State :=
  let d := m.drain (s.spareOf c.tile b.arrays)
  b.arrays.foldl (fun t a => (t.onArr c.tile a (fun r => { r with busy := d })).setArr c.tile 3 a)
    (s.setJob c.tile c.level lead (some { b with pre := .urgent, cuts := s.fedOf c.tile m b }))

/-- A job is asked to pre-empt: an urgent request cuts it at once (R56, R57). -/
def State.askJob (s : State) (c : Ctx) (m : Mm) (lead : Nat) (b : Job) (urgent : Bool) : State :=
  match b.pre with
  | .parked | .urgent => s
  | .normal _ => if urgent then s.cutJob c m lead b else s
  | .none =>
    if urgent then s.cutJob c m lead b
    else s.setJob c.tile c.level lead (some { b with pre := .normal s.time })

/-- The jobs of a level are asked to pre-empt. -/
def State.askJobs (s : State) (p j l : Nat) (urgent : Bool) : State :=
  (s.levelJobs j l).foldl (fun t (a, b) => match t.jobCtx p l j b with
    | none => t
    | some c => match t.mm c with
      | none => t
      | some m => t.askJob c m a b urgent) s

/-- A level's request for another configuration is withdrawn. -/
def Tile.unwant (w : Tile) (l : Nat) : Tile :=
  match w.want with
  | some (_, k, _) => if k = l then { w with want := none } else w
  | none => w

/-- PREEMPT_REQUEST (R55, R106): in a pre-emption that the hub has decided (R306), the tile's operators start no more, its
jobs are asked to pre-empt, its WAITs stop at once. -/
def execPreemptRequest (tile : Nat) (urgent : Bool) (s : State) : Host.Outcome State Fault Refusal :=
  ok (tileOk tile) s
    (match s.tileInst tile with
     | some (p, l, _) =>
       if (s.part p).preAsk.map Prod.snd != some urgent then s
       else ((s.askJobs p tile l urgent).onTile tile (fun t => { t.unwant l with preempting := true })).saveContext tile l
     | none => s)

/-- PREEMPT_BOUNDARY (R55, R56): the pass already fed drains and commits; the committed set is saved if the next pass would
accumulate onto it; the arrays are free. The boundary wins over the deadline. -/
def execPreemptBoundary (tile array : Nat) (s : State) : Host.Outcome State Fault Refusal :=
  ok (arrayOk tile array) s
    (match s.runningJob tile array with
     | some (c, m, b) =>
       match b.pre with
       | .normal _ => if ¬ b.arrays.all (fun a => (s.arr tile a).held) = true then s else s.boundary c m array b
       | _ => s
     | none => s)

/-- The last slot of the job's running pass has been fed: its boundary is reached (R55). -/
def State.lastFed (s : State) (j : Nat) (b : Job) : Bool :=
  b.arrays.all (fun a => (s.arr j a).held && (s.arr j a).left == 0)

/-- PREEMPT_DEADLINE (R56): more than 1.4 µs after the request with no boundary reached, the pre-emption becomes urgent and the
arrays stop feeding; a boundary at 1.4 µs wins. -/
def execPreemptDeadline (tile array : Nat) (s : State) : Host.Outcome State Fault Refusal :=
  ok (arrayOk tile array) s
    (match s.runningJob tile array with
     | some (c, m, b) =>
       match b.pre with
       | .normal since =>
         if s.time ≤ since + 1400 ∨ s.lastFed tile b = true then s
         else (s.cutJob c m array b).arrEvent TILE_ARRAY_EVENT.DEADLINE_CONVERT tile b.arrays
       | _ => s
     | none => s)

/-- URGENT_SAVE_DONE (R57, Table 2.9): the slots already fed have drained and their set is saved, or, after a fault in the
drain, nothing is saved and the pass runs again as its one retry; a fault of the retry, or of an operand that arrived
poisoned, ends the operator (R61). The arrays are free. -/
def execUrgentSaveDone (tile array : Nat) (fault poisoned : Bool) (s : State) : Host.Outcome State Fault Refusal :=
  ok (arrayOk tile array) s
    (match s.runningJob tile array with
     | some (c, m, b) =>
       if b.pre ≠ .urgent then s
       else if fault then
         (if poisoned || b.retried then
            (s.arrayFault c array b.arrays (if poisoned then 0x03 else 0x01)).saveContext tile c.level
          else s.parkJob c m array { b with retried := true, cuts := [] } false)
       else
         (((s.parkJob c m array b true).arrEvent TILE_ARRAY_EVENT.URGENT_SAVE tile
           b.arrays).fcountN TILE_ARRAY_COUNT.URGENT_SAVES tile 0 b.arrays.length)
     | none => s)

/-- A word of a job's first saved set is hit while it is parked: two check bits of its word flip. -/
def State.hitSave (s : State) (j l : Nat) (b : Job) : State :=
  if b.saved then s.setDelta (saveAt j l (b.arrays.headD 0)) (s.delta (saveAt j l (b.arrays.headD 0)) ^^^ 3) else s

/-- The committed set of a parked job with its saved entries restored, where no cut gave them sums (R59). -/
def State.restoreAcc (s : State) (j l : Nat) (m : Mm) (b : Job) : List Nat :=
  b.acc.mapIdx (fun x v => match s.savedEntry j l m b x with
    | some (i, y) => if m.wasFed b.pass b.cuts i x then v else y
    | none => v)

/-- The working set of a resumed pass: the saved sums of what was fed before the cut, the rest fed again (R59). -/
def State.restoreWork (s : State) (j l : Nat) (m : Mm) (b : Job) (work : List Nat) : List Nat :=
  work.mapIdx (fun x v => match s.savedEntry j l m b x with
    | some (i, y) => if m.wasFed b.pass b.cuts i x then y else v
    | none => v)

/-- A parked job resumes (R59): its saved sets are restored, and the rest of the pass is fed again from its sources; an
uncorrectable save area ends it without retry (Table 2.9). -/
def State.resumeJob (s : State) (c : Ctx) (m : Mm) (lead : Nat) (b : Job) : State :=
  let (j, l) := (c.tile, c.level)
  let s0 := if b.saved then s.opReads c (b.savedSpans j l m) else s
  if b.saved && (b.savedSpans j l m).any (fun (k, n) => (s.look k n).2) then s0.arrayFault c lead b.arrays 0x03
  else
    let acc := if b.saved then s.restoreAcc j l m b else b.acc
    let (work, ovf, sat, bad) := s0.passWork j m b.pass acc
    let t := s0.passTouch c m b.pass
    if bad then t.arrayFault c lead b.arrays 0x03
    else
      let b1 := { b with pre := .none, cuts := [], saved := false, acc := acc
                         work := if b.saved then s.restoreWork j l m b work else work
                         ovf := ovf || (b.cuts != [] && b.ovf), intSat := sat || (b.cuts != [] && b.intSat) }
      (t.setJob j l lead (some b1)).feed j m b.pass (b.cuts.map (· * m.slotStep)) (if b.saved then 32 else 0)

/-- The parked jobs of a level resume in turn, unless one has ended the tile's part in fault. -/
def State.resumeJobs (s : State) (p l j : Nat) : State :=
  (s.levelJobs j l).foldl (fun t (a, b) =>
    if b.pre != .parked || (t.inst p l).faulted.testBit j then t
    else match t.jobCtx p l j b with
      | none => t
      | some c => match t.mm c with
        | none => t
        | some m => t.resumeJob c m a b) s

/-- The configuration in which a level's parked jobs ran; with none, the tile's own. -/
def State.parkedShape (s : State) (j l : Nat) : Nat :=
  match s.levelJobs j l with
  | (_, b) :: _ => b.shape
  | [] => s.fget TILE_ARRAY_STATUS.SHAPE j 0

/-! The matrix operators (R38, R98). -/

/-- MATMUL_STREAM (R98): the operator acquires its arrays, each single, and its first pass begins. -/
def execMatmulStream (tile thread : Nat) (s : State) : Host.Outcome State Fault Refusal :=
  ok (threadOk tile thread) s
    (match s.startOf 0x01 tile thread with
     | some c =>
       match s.mm c with
       | some m => (s.withArrays c (s.startJob c m)).issued tile thread
       | none => s
     | none => s)

/-- MATMUL_STATIONARY (R38): the operator acquires its array or gang, and its first pass begins. -/
def execMatmulStationary (tile thread : Nat) (s : State) : Host.Outcome State Fault Refusal :=
  ok (threadOk tile thread) s
    (match s.startOf 0x02 tile thread with
     | some c =>
       match s.mm c with
       | some m => (s.withArrays c (s.startJob c m)).issued tile thread
       | none => s
     | none => s)

end Sys2Proof.Machine
end

