-- ==== Sys2Proof/Machine/Vector.lean ====
section
/-!
DEFINITION. The operators of the vector unit (Tables 4.7 to 4.10): NORM, ROPE, ACT, ROUTE, SAMPLE, EMBED, REDUCE. Where a
rule gives a formula and no order of roundings, each vector operation of the formula rounds once (assumption 11).
-/

namespace Sys2Proof.Machine

/-! NORM (Table 4.7). -/

/-- An integer as an FP32 pattern. -/
def ofNat32 (n : Nat) : Nat := (Num.fin false n 0).rne32

/-- A sum over a row (R83). -/
def sum32 (xs : List Nat) : Nat := treeSeg add32 0 xs

/-- The mean of a row. -/
def mean32 (xs : List Nat) : Nat := div32 (sum32 xs) (ofNat32 xs.length)

/-- A row normalised: KIND 0 by its root mean square, KIND 1 about its mean by its standard deviation; then times GAIN, plus
BIAS. -/
def normRow (kind eps : Nat) (gain bias : Option (List Nat)) (xs : List Nat) : List Nat :=
  let ds := if kind = 0 then xs else let m := mean32 xs; xs.map (fun x => sub32 x m)
  let inv := rsqrtv (add32 (mean32 (ds.map (fun d => mul32 d d))) eps)
  ds.mapIdx (fun i d =>
    let y := mul32 d inv
    let z := match gain with
      | some g => mul32 y (g.getD i 0)
      | none => y
    match bias with
    | some b => add32 z (b.getD i 0)
    | none => z)

/-- NORM at a thread's descriptor. -/
def State.normOp (s : State) (c : Ctx) : State :=
  let j := c.tile
  let w := c.f 16 4
  match s.ctxSlot c 8, s.ctxSlot c 9 with
  | some i, some o =>
    let rs := List.range (c.f 20 4)
    let gain := s.ctxSlot c 10
    let bias := s.ctxSlot c 11
    let resid := s.ctxSlot c 13
    let xs := rs.map (fun r =>
      let a := (s.row32 j i r).take w
      match resid with
      | some q => List.zipWith add32 a ((s.row32 j q r).take w)
      | none => a)
    let reads := i.spans j rs ++ (gain.map (fun g => g.spans j [0])).getD [] ++ (bias.map (fun g => g.spans j [0])).getD [] ++
      (resid.map (fun g => g.spans j rs)).getD []
    s.vecEnd c reads (fun t =>
      let (t1, e1) := match resid with
        | some q => t.putRows j q 0 xs
        | none => (t, {})
      let (t2, e2) := t1.putRows j o 0 (xs.map (normRow (c.f 12 1) (c.f 24 4)
        (gain.map (fun g => s.row32 j g 0)) (bias.map (fun g => s.row32 j g 0))))
      (t2, e1.join e2))
  | _, _ => s

/-- NORM. -/
def execNorm (tile : Nat) (start : VecStart) (s : State) : Host.Outcome State Fault Refusal :=
  ok (threadOk tile start.thread) s (s.startVec 0x06 tile start.thread start.parity s.normOp)

/-! ROPE (R124, R125). -/

/-- The value of FP32 magnitude code `k`, the infinity's code standing for 2^128. -/
def magValue (k : Nat) : Num := if k = 0x7F800000 then .fin false 1 128 else f32 k

/-- value(k)^n × θ^m is at most one. -/
def powLe (x θ : Num) (n m : Nat) : Bool :=
  match x, θ with
  | .fin _ a e, .fin _ b f =>
    let v := a ^ n * b ^ m
    let ex : Int := e * n + f * m
    if ex ≥ 0 then decide (v * 2 ^ ex.toNat ≤ 1) else decide (v ≤ 2 ^ (-ex).toNat)
  | _, _ => false

/-- The largest code at which `p` holds, by halves of a range of 2^n codes from `lo`, at which it holds. -/
def bisect (p : Nat → Bool) : Nat → Nat → Nat
  | 0, lo => lo
  | n + 1, lo => if p (lo + 2 ^ n) then bisect p n (lo + 2 ^ n) else bisect p n lo

/-- Half-way between the values of magnitude codes `k` and `k + 1`. -/
def midValue (k : Nat) : Num :=
  match (magValue k).add (magValue (k + 1)) with
  | .fin a m e => .fin a m (e - 1)
  | x => x

/-- f_i = THETA^(−2i ÷ ROT_DIMS) correctly rounded to FP32 (R125): the power is compared by raising both sides to
ROT_DIMS. It is computed here, since no image item brings the toolchain's values (DESIGN CHOICE, assumption 79). -/
def ropeFreq (theta i rot : Nat) : Nat :=
  match f32 theta with
  | .fin false m e =>
    if m = 0 then (f32 (Config.ropeFreq (BitVec.ofNat 32 theta) i rot).toNat).rne32
    else
      let θ := Num.fin false m e
      let le (x : Num) : Bool := powLe x θ rot (2 * i)
      let k := bisect (fun c => decide (c < 0x7F800000) && le (magValue c)) 31 0
      if !le (midValue k) then k
      else if powLe (midValue k) θ rot (2 * i) && powGe (midValue k) θ rot (2 * i) then k + k % 2
      else k + 1
  | _ => (f32 (Config.ropeFreq (BitVec.ofNat 32 theta) i rot).toNat).rne32
where
  /-- value^n × θ^m is at least one. -/
  powGe (x θ : Num) (n m : Nat) : Bool :=
    match x, θ with
    | .fin _ a e, .fin _ b f =>
      let v := a ^ n * b ^ m
      let ex : Int := e * n + f * m
      if ex ≥ 0 then decide (v * 2 ^ ex.toNat ≥ 1) else decide (v ≥ 2 ^ (-ex).toNat)
    | _, _ => false

/-- The elements of pair `i` (R125). -/
def pairOf (pairing rot i : Nat) : Nat × Nat := if pairing = 0 then (2 * i, 2 * i + 1) else (i, i + rot / 2)

/-- The pair, and whether the element is its second, of element `d` of a head; none beyond ROT_DIMS. -/
def pairAt (pairing rot d : Nat) : Option (Nat × Bool) :=
  if d ≥ rot then none
  else if pairing = 0 then some (d / 2, d % 2 == 1)
  else if d < rot / 2 then some (d, false) else some (d - rot / 2, true)

/-- One head of a row rotated at cosines and sines of its pairs. -/
def rotateHead (pairing rot : Nat) (cs : List (Nat × Nat)) (xs : List Nat) : List Nat :=
  xs.mapIdx (fun d v =>
    match pairAt pairing rot d with
    | none => v
    | some (i, second) =>
      let (a, b) := pairOf pairing rot i
      let x := xs.getD a 0
      let y := xs.getD b 0
      let (cv, sv) := cs.getD i (one32, 0)
      if second then fma32 x sv (mul32 y cv) else fma32 x cv (((f32 (mul32 y sv)).negate).rne32))

/-- The cosine and sine of each pair's angle at a position. -/
def ropeAngles (theta posScale rot pos : Nat) : List (Nat × Nat) :=
  (List.range (rot / 2)).map (fun i =>
    let a := ((Num.fin false pos 0).mul (f32 posScale)).mul (f32 (ropeFreq theta i rot))
    (cosv a, sinv a))

/-- ROPE at a thread's descriptor. -/
def State.ropeOp (s : State) (c : Ctx) : State :=
  let j := c.tile
  let d := headDim (c.f 12 1)
  let rot := c.f 14 2
  match s.ctxSlot c 8, s.ctxSlot c 9 with
  | some i, some o =>
    let rs := List.range (c.f 20 4)
    let posSl := s.ctxSlot c 10
    let pos := match posSl with
      | some q => s.flatCodes j q
      | none => (s.execOf c.part c.slot).pos
    let rows := rs.map (fun r =>
      let cs := ropeAngles (c.f 24 4) (c.f 28 4) rot (pos.getD r 0)
      let xs := (s.row32 j i r).take (c.f 16 4 * d)
      ((segs d xs.length xs).map (rotateHead (c.f 11 1) rot cs)).flatten)
    s.vecEnd c (i.spans j rs ++ (posSl.map (fun q => q.allSpans j)).getD []) (fun t => t.putRows j o 0 rows)
  | _, _ => s

/-- ROPE. -/
def execRope (tile : Nat) (start : VecStart) (s : State) : Host.Outcome State Fault Refusal :=
  ok (threadOk tile start.thread) s (s.startVec 0x07 tile start.thread start.parity s.ropeOp)

/-! ACT (Table 4.7). -/

/-- FUNC of an ACT descriptor. -/
def actFn (func x : Nat) : Nat :=
  if func = 1 then siluv x
  else if func = 2 then geluErfv x
  else if func = 3 then geluTanhv x
  else if func = 4 then max32 x 0
  else if func = 5 then sigmoidv x
  else if func = 6 then tanhv x
  else if func = 7 then expv x
  else x

/-- A row of FP32 patterns divided by an FP32 scale and converted, rounded once. -/
def packScaled (f : Fmt) (scale : Nat) (xs : List Nat) : Packed :=
  let d := match f32 scale with
    | .fin _ n _ => if n = 0 then 1 else n
    | _ => 1
  packRow f false d (.fin false 1 0) (xs.map (fun x => ((f32 x).quo (f32 scale)).1))

/-- ACT at a thread's descriptor. -/
def State.actOp (s : State) (c : Ctx) : State :=
  let j := c.tile
  let n := c.f 16 4
  match s.ctxSlot c 8, s.ctxSlot c 9 with
  | some i, some o =>
    let rs := List.range (c.f 20 4)
    let gate := s.ctxSlot c 10
    let rows := rs.map (fun r =>
      let xs := (s.row32 j i r).take n
      match gate with
      | some g => List.zipWith (fun y x => mul32 (actFn (c.f 11 1) y) x) ((s.row32 j g r).take n) xs
      | none => xs.map (actFn (c.f 11 1)))
    s.vecEnd c (i.spans j rs ++ (gate.map (fun g => g.spans j rs)).getD []) (fun t =>
      (rows.mapIdx (fun r xs => (r, packScaled o.fmt (c.f 24 4) xs))).foldl (fun (a : State × NumEv) (r, p) =>
        (a.1.putElems j o r 0 p, a.2.join p.ev)) (t, {}))
  | _, _ => s

/-- ACT. -/
def execAct (tile : Nat) (start : VecStart) (s : State) : Host.Outcome State Fault Refusal :=
  ok (threadOk tile start.thread) s (s.startVec 0x08 tile start.thread start.parity s.actOp)

/-! ROUTE (Table 4.8). -/

/-- Element `a` comes before element `b` of scores: larger first, ties to the lower index. Zeros of either sign tie: Table 3.8
orders them in min and max alone. -/
def ahead (zs : List Nat) (a b : Nat) : Bool :=
  let x := f32 (zs.getD a nan32)
  let y := f32 (zs.getD b nan32)
  if x.isZero && y.isZero then decide (a < b) else y.lt x || (!x.lt y && decide (a < b))

/-- An index put before the first that it comes ahead of. -/
def placeIdx (zs : List Nat) (a : Nat) : List Nat → List Nat
  | [] => [a]
  | b :: t => if ahead zs a b then a :: b :: t else b :: placeIdx zs a t

/-- Indices sorted by descending score, ties to the lower index. -/
def byScore (zs : List Nat) (is : List Nat) : List Nat := is.foldl (fun l a => placeIdx zs a l) []

/-- The softmax of a list: exponentials of the distance from the largest, over their sum. -/
def softmax32 (xs : List Nat) : List Nat :=
  let m := xs.foldl max32 negInf32
  let ps := xs.map (fun x => expv (sub32 x m))
  let t := sum32 ps
  ps.map (fun p => div32 p t)

/-- The experts and gates that ROUTE chooses for a row of logits. -/
def routeRow (score topk : Nat) (xs : List Nat) : List (Nat × Nat) :=
  let is := List.range xs.length
  if score = 1 then
    let ks := (byScore xs is).take topk
    ks.zip (softmax32 (ks.map (fun k => xs.getD k nan32)))
  else
    let ss := if score = 0 then softmax32 xs else xs.map sigmoidv
    let ks := (byScore ss is).take topk
    let gs := ks.map (fun k => ss.getD k nan32)
    if score = 0 then ks.zip gs
    else
      let t := sum32 gs
      ks.zip (gs.map (fun g => div32 g t))

/-- ROUTE at a thread's descriptor. -/
def State.routeOp (s : State) (c : Ctx) : State :=
  let j := c.tile
  match s.ctxSlot c 8, s.ctxSlot c 9, s.ctxSlot c 10 with
  | some i, some ix, some g =>
    let rs := List.range (c.f 16 4)
    let out := rs.map (fun r => routeRow (c.f 14 1) (c.f 11 1) ((s.row32 j i r).take (c.f 12 2)))
    s.vecEnd c (i.spans j rs) (fun t =>
      let t1 := (out.mapIdx (fun r l => (r, l.map Prod.fst))).foldl (fun u (r, ks) => u.putCodes j ix r 0 ks) t
      t1.putRows j g 0 (out.map (fun l => l.map Prod.snd)))
  | _, _, _ => s

/-- ROUTE. -/
def execRoute (tile : Nat) (start : VecStart) (s : State) : Host.Outcome State Fault Refusal :=
  ok (threadOk tile start.thread) s (s.startVec 0x09 tile start.thread start.parity s.routeOp)

/-! SAMPLE (R86, R87, R139, R140, R165). -/

/-- The sampler's parameters. -/
structure SampleP where
  temp : Nat
  topP : Nat
  topK : Nat
  seed : Nat
  deriving DecidableEq, Repr

/-- A running sum in order: each element's index with the sum up to it. -/
def runSum (ps : List (Nat × Nat)) : List (Nat × Nat) :=
  (ps.foldl (fun (a : List (Nat × Nat) × Nat) (i, p) =>
    let r := add32 a.2 p
    (a.1 ++ [(i, r)], r)) ([], 0)).1

/-- Indices in ascending order out of a list. -/
def ascending (n : Nat) (is : List Nat) : List Nat := (List.range n).filter is.contains

/-- Steps 2 to 5 of R86 on logits already divided by the temperature; `u` is the draw. -/
def sampleDraw (q : SampleP) (zs : List Nat) (u : Nat) : Nat :=
  let all := List.range zs.length
  let kept := if q.topK = 0 then all else ascending zs.length ((byScore zs all).take q.topK)
  let zmax := kept.foldl (fun m i => max32 m (zs.getD i negInf32)) negInf32
  let p (i : Nat) : Nat := exp2v (mul32 (sub32 (zs.getD i negInf32) zmax) 0x3FB8AA3B)
  let ps := all.map p
  let total := sum32 (kept.map p)
  let kept2 :=
    if (f32 q.topP).lt (f32 one32) then
      let target := mul32 q.topP total
      let order := byScore ps kept
      let run := runSum (order.map (fun i => (i, p i)))
      match run.findIdx? (fun (_, r) => !(f32 r).lt (f32 target) && !isNan32 r && !isNan32 target) with
      | some k => ascending zs.length (order.take (k + 1))
      | none => kept
    else kept
  let total2 := sum32 (kept2.map p)
  let lim := mul32 u total2
  match (runSum (kept2.map (fun i => (i, p i)))).find? (fun (_, r) => (f32 lim).lt (f32 r)) with
  | some (i, _) => i
  | none => kept2.getLastD 0

/-- What one sampling answers: the token, whether a NaN was met, whether no logit was valid. -/
structure Sampled where
  tok : Nat
  nan : Bool
  invalid : Bool
  deriving DecidableEq, Repr

/-- One token sampled from a row of logits (R86). A NaN that an infinite temperature makes of an infinite logit counts as a NaN
logit (DEDUCED, assumption 69). -/
def sampleRow (q : SampleP) (xs : List Nat) (u : Nat) : Sampled :=
  let nan := xs.any isNan32
  let zs := xs.map (fun x => if isNan32 x then negInf32 else x)
  if zs.all (· == negInf32) then ⟨0, nan || isNan32 q.temp, true⟩
  else if (f32 0).lt (f32 q.temp) && !(f32 q.temp).isZero then
    let ds := zs.map (fun z => div32 z q.temp)
    let ws := ds.map (fun z => if isNan32 z then negInf32 else z)
    if ws.all (· == negInf32) then ⟨0, true, true⟩ else ⟨sampleDraw q ws u, nan || ds.any isNan32, false⟩
  else ⟨(byScore zs (List.range zs.length)).headD 0, nan || isNan32 q.temp, false⟩

/-- The walk of R139: `choose x` is the token at node `x`, `child x y` the lowest child of `x` with token `y`. -/
def treeWalk (nodes : Nat) (choose : Nat → Sampled) (child : Nat → Nat → Option Nat) :
    Nat → Nat → List Nat → List Sampled → List Nat × List Sampled
  | 0, _, path, out => (path, out)
  | fuel + 1, x, path, out =>
    let y := choose x
    match child x y.tok with
    | some n => if path.length = nodes then (path, out ++ [y])
                else treeWalk nodes choose child fuel n (path ++ [n]) (out ++ [y])
    | none => (path, out ++ [y])

/-- The parameters of session `si` (R312, R313): from the descriptor, or from the parameter block in PARAM_SLOT. -/
def State.sampleParams (s : State) (c : Ctx) (si : Nat) : SampleP :=
  let blk : Nat := match s.slotOf c.part c.graph c.tile (s.commitF c.part c.graph 9 1) with
    | some sl => leNat (s.slotRaw c.tile sl (si * 32) 32)
    | none => 0
  if c.f 11 1 = 1 then ⟨fld blk 0 4, fld blk 4 4, fld blk 8 2, fld blk 16 8⟩
  else ⟨c.f 24 4, c.f 20 4, c.f 14 2, c.f 28 8⟩

/-- The working-store bytes of session `si`'s entry of the parameter block, if SAMPLE takes it. -/
def State.paramSpans (s : State) (c : Ctx) (si : Nat) : List (Nat × Nat) :=
  match s.slotOf c.part c.graph c.tile (s.commitF c.part c.graph 9 1) with
  | some sl => if c.f 11 1 = 1 then (List.range 32).map (fun b => (sl.byteAt c.tile (si * 32 + b), 1)) else []
  | none => []

/-- SAMPLE at a thread's descriptor. -/
def State.sampleOp (s : State) (c : Ctx) : State :=
  let j := c.tile
  let si := c.f 12 1
  let nodes := c.f 13 1 + 1
  match s.ctxSlot c 8, s.ctxSlot c 10 with
  | some lg, some o =>
    let e := s.execOf c.part c.slot
    let r := e.resv.getD si {}
    let gen := s.srec c.part r.slot 0 2
    let q := s.sampleParams c si
    let logits (row : Nat) : List Nat := (s.row32 j lg row).take (c.f 16 4)
    let draw (row c0 : Nat) : Sampled := sampleRow q (logits row) (rngDraw q.seed c0 (rngC1 r.slot gen 0))
    let draft := s.ctxSlot c 9
    let node (x : Nat) : Nat := match draft with
      | some d => leNat (s.look (wsAt j (d.rowAt (si * nodes + x))) 64).1
      | none => 0
    let (path, out) :=
      if s.commitF c.part c.graph 0 1 = 0 then
        ([0], [draw (lg.rows - 1) (r.n + s.commitF c.part c.graph 4 4 - 1)])
      else if draft.isNone then ([0], [draw (si * nodes) r.n])
      else treeWalk nodes (fun x => draw (si * nodes + x) (r.n + fld (node x) 17 1))
        (fun x y => ((List.range nodes).drop 1).find? (fun k => fld (node k) 16 1 == x && fld (node k) 20 4 == y))
        nodes 0 [0] []
    let reads := s.paramSpans c si ++ (if s.commitF c.part c.graph 0 1 = 0 then lg.spans j [lg.rows - 1]
        else lg.spans j ((List.range nodes).map (fun x => si * nodes + x))) ++
      (draft.map (fun d => d.spans j ((List.range nodes).map (fun x => si * nodes + x)))).getD []
    s.vecEnd c reads (fun t =>
      let t1 := (t.putCodes j o si 0 (path.length :: out.map Sampled.tok)).putCodes j o si 129 path
      let t2 := if out.any Sampled.invalid then
          t1.onExec c.part c.slot (fun x => { x with invalid := x.invalid ++ [si] }) else t1
      (t2, { nanLogit := out.any Sampled.nan, invalid := out.any Sampled.invalid }))
  | _, _ => s

/-- SAMPLE. -/
def execSample (tile : Nat) (start : VecStart) (s : State) : Host.Outcome State Fault Refusal :=
  ok (threadOk tile start.thread) s (s.startVec 0x0C tile start.thread start.parity s.sampleOp)

/-! EMBED (R504). -/

/-- Padded row size of an EMBED table. -/
def embedPitch (f : Fmt) (w : Nat) : Nat := up64 (f.packed w + (if f.block then w / 32 else 0))

/-- A table row's bytes as FP32 patterns: element times block scale times tensor scale (R67). -/
def embedRow (f : Fmt) (w tscale : Nat) (bs : List Byte) : List Nat :=
  let es := (unpack f (leNat (bs.take (f.packed w))) w).map f.value
  let ss := if f.block then ((bs.drop (f.packed w)).take (w / 32)).map (fun b => f.scale b.toNat) else []
  (List.range w).map (fun k => (((Row.mk es ss false).value k).mul (tensorScale f tscale)).rne32)

/-- The tokens of an EMBED: TOK's, or the instance's input tokens. -/
def State.embedToks (s : State) (c : Ctx) : List Nat :=
  match s.ctxSlot c 8 with
  | some q => s.flatCodes c.tile q
  | none => (s.execOf c.part c.slot).toks

/-- The offset or address of the table row of a token. -/
def Ctx.embedAddr (c : Ctx) (f : Fmt) (v : Nat) : Nat := c.f 32 8 + v * embedPitch f (c.f 16 4)

/-- An EMBED whose rows have been read: they are converted and written. A token outside the table has no row, and its bytes
are free. -/
def State.embedEnd (s : State) (c : Ctx) : State :=
  let j := c.tile
  let w := c.f 16 4
  match s.ctxSlot c 9, fmtOf (c.f 10 1) with
  | some o, some f =>
    let toks := (s.embedToks c).take o.rows
    let len := embedPitch f w
    let bytes := toks.mapIdx (fun r v =>
      if v ≥ c.f 20 4 then (((List.range len).map (fun i => Config.freeByte (s.free * 4096 + r * len + i))), false)
      else if c.f 11 1 = 0 then s.look (t0At j (c.embedAddr f v)) len else s.ioLook c (c.embedAddr f v) len)
    if bytes.any Prod.snd then s.opFault c 0x03
    else
      State.vecEnd (if toks.all (fun v => decide (v < c.f 20 4)) then s else s.draw) c
        (((s.ctxSlot c 8).map (fun q => q.allSpans j)).getD [])
        (fun u => u.putRows j o 0 (bytes.map (fun x => embedRow f w (c.f 24 4) x.1)))
  | _, _ => s

/-- EMBED at a thread's descriptor: each row from the tile's own slice, or from tier 1 by the yarder. -/
def State.embedOp (s : State) (c : Ctx) : State :=
  match s.ctxSlot c 9, fmtOf (c.f 10 1) with
  | some o, some f =>
    let known := ((s.embedToks c).take o.rows).filter (fun v => decide (v < c.f 20 4))
    let len := embedPitch f (c.f 16 4)
    if c.f 11 1 = 0 then (s.opReads c (known.map (fun v => (t0At c.tile (c.embedAddr f v), len)))).embedEnd c
    else s.withIo c (known.flatMap (fun v => fetchReqs (c.embedAddr f v) len)) (s.embedEnd c)
  | _, _ => s

/-- EMBED. -/
def execEmbed (tile : Nat) (start : VecStart) (s : State) : Host.Outcome State Fault Refusal :=
  ok (threadOk tile start.thread) s (s.startVec 0x0D tile start.thread start.parity s.embedOp)

/-! Merging attention records (R129 to R132). -/

/-- An attention record: m, l, and o by element. -/
structure ARec where
  m : Nat
  l : Nat
  o : List Nat
  deriving DecidableEq, Repr

/-- The record of a page without a visible key. -/
def ARec.none (d : Nat) : ARec := ⟨negInf32, 0, List.replicate d 0⟩

/-- The merge of two records, the first one first in order (R129). -/
def ARec.merge (a b : ARec) : ARec :=
  if a.m = negInf32 then b
  else if b.m = negInf32 then a
  else
    let m := max32 a.m b.m
    let x := exp2v (sub32 a.m m)
    let y := exp2v (sub32 b.m m)
    ⟨m, fma32 a.l x (mul32 b.l y), List.zipWith (fun u v => fma32 u x (mul32 v y)) a.o b.o⟩

/-- A normalised output element (R131). -/
def ARec.out (r : ARec) : List Nat := r.o.map (fun v => if (f32 r.l).isZero then 0 else div32 v r.l)

/-! REDUCE (R100, R132). -/

/-- The result of one group of parts: OP 3 merges records, the others combine element by element over the tree (R83). -/
def reduceGroup (op ty elems : Nat) (parts : List (List Nat)) : List Nat :=
  if op = 3 then
    let r := tree ARec.merge (ARec.none (elems - 2)) (parts.map (fun p => ⟨p.getD 0 0, p.getD 1 0, p.drop 2⟩))
    r.m :: r.l :: r.out
  else (List.range elems).map (fun e => tree (adder op ty) 0 (parts.map (fun p => p.getD e 0)))

/-- A REDUCE with SCOPE 1. -/
def State.reduceLocal (s : State) (c : Ctx) (i o : Slot) : State :=
  let j := c.tile
  let (op, ty, elems, parts) := (c.f 10 1, c.f 11 1, c.f 32 4, c.f 13 1)
  let es := s.flatCodes j i
  let gs := (List.range (c.f 36 4)).map (fun g => (List.range parts).map (fun k =>
    (es.drop ((g * parts + k) * elems)).take elems))
  let out := (gs.map (reduceGroup op ty elems)).flatten
  let empty := op == 3 && (gs.map (reduceGroup op ty elems)).any (fun r => r.headD 0 == negInf32)
  s.vecEnd c (i.allSpans j) (fun t =>
    let t1 := t.flagIf ATTN_EVENT.EMPTY_ROW j empty
    if ty ≤ 1 then t1.putFlat j o (if ty = 1 then out.map (fun v => (Fmt.bf16.value v).rne32) else out)
    else ((segs o.cols out.length out).mapIdx (fun r vs => (r, vs))).foldl (fun (a : State × NumEv) (r, vs) =>
      (a.1.putCodes j o r 0 vs, a.2)) (t1, {}))

/-- The landing address of a REDUCE with SCOPE 0. -/
def Ctx.land (c : Ctx) : Nat := c.stepped 16 8 44

/-- A REDUCE with SCOPE 0: each row as whole 64 B words into landing; the landing bytes that row padding reaches are
undefined afterwards (R100). -/
def State.reduceSend (s : State) (c : Ctx) (i : Slot) : State :=
  let j := c.tile
  let p := i.pitch
  let used := i.fmt.packed (c.f 32 4)
  let n := up64 used
  let rs := List.range (c.f 36 4)
  let reads := rs.map (fun r => (wsAt j (i.rowAt r), used))
  let s0 := s.opReads c reads
  if reads.any (fun (k, m) => (s.look k m).2) then s0.opFault c 0x03
  else
    s0.withIo c (rs.flatMap (fun r =>
      reduceReqs (c.f 10 1) (c.f 11 1) used (c.land + r * p) (s.look (wsAt j (i.rowAt r)) n).1)) (s0.opDone c)

/-- REDUCE at a thread's descriptor. -/
def State.reduceOp (s : State) (c : Ctx) : State :=
  match s.ctxSlot c 8 with
  | none => s
  | some i =>
    if c.f 12 1 = 0 then s.reduceSend c i
    else match s.ctxSlot c 9 with
      | none => s
      | some o => s.reduceLocal c i o

/-- REDUCE. -/
def execReduce (tile : Nat) (start : VecStart) (s : State) : Host.Outcome State Fault Refusal :=
  ok (threadOk tile start.thread) s (s.startVec 0x0F tile start.thread start.parity s.reduceOp)

end Sys2Proof.Machine
end

