-- ==== Sys2Proof/Machine/Yarder.lean ====
section
/-!
DEFINITION. The yarder and the sequencer's own operators: COPY through tags (R100, R111, R112), DISPATCH and COMBINE (R99),
KV_APPEND (R162, R163), WAIT and SIGNAL (R107 to R110), run-ahead (R207, R208).
-/

namespace Sys2Proof.Machine

/-! Tags that time out (R112). -/

/-- The operator that owns a tag, in its instance. -/
def State.tagCtx (s : State) (j : Nat) (g : Tag) : Option Ctx :=
  match s.tilePart j with
  | none => none
  | some p => s.opOf p g.level (s.inst p g.level) j g.thread

/-- A request times out: its tag is quarantined and its operator meets fault 0x04 (R112, R114). -/
def State.tagTimeout (s : State) (j t : Nat) : State :=
  let g := s.tag j t
  let s1 := s.onTag j t (fun x => { x with busy := false, quarantine := true, freeAt := s.time + 2000 })
  if g.orphan then s1
  else match s1.tagCtx j g with
    | some c => s1.failIo c 0x04
    | none => s1

/-- YARDER_TIMEOUT (R112): no completion by TIMEOUT_US after the issue; one that comes at that time wins. -/
def execYarderTimeout (tile tag : Nat) (s : State) : Host.Outcome State Fault Refusal :=
  ok (tileOk tile && tag < 512) s
    (let g := s.tag tile tag
     if !g.busy || decide (s.time ≤ g.issued + s.fget TILE_YARD_CTL.TIMEOUT_US tile 0 * 1000) then s
     else s.tagTimeout tile tag)

/-- TAG_QUARANTINE_END (R112): 2 µs after the timeout the tag may be allocated again. -/
def execTagQuarantineEnd (tile tag : Nat) (s : State) : Host.Outcome State Fault Refusal :=
  ok (tileOk tile && tag < 512) s
    (let g := s.tag tile tag
     if g.quarantine && decide (s.time ≥ g.freeAt) then
       (s.onTag tile tag (fun x => { x with quarantine := false })).issueAll tile
     else s)

/-! COPY (R100). -/

/-- One end of a COPY: bytes of a place that the tile reaches itself, or part physical addresses. -/
inductive CopyEnd where
  | here (key : Nat)
  | there (addr : Nat)
  deriving DecidableEq, Repr

/-- The end `n` bytes further on. -/
def CopyEnd.plus : CopyEnd → Nat → CopyEnd
  | .here k, n => .here (k + n)
  | .there a, n => .there (a + n)

/-- Bytes until the next 512 B boundary of an end outside the tile. -/
def CopyEnd.room : CopyEnd → Nat
  | .here _ => 512
  | .there a => 512 - a % 512

/-- A row cut into requests of at most 512 B, none across a 512 B boundary outside the tile. -/
def cutRow : Nat → CopyEnd → CopyEnd → Nat → List (CopyEnd × CopyEnd × Nat)
  | 0, _, _, _ => []
  | fuel + 1, a, b, n =>
    if n = 0 then []
    else
      let m := min n (min a.room b.room)
      (a, b, m) :: cutRow fuel (a.plus m) (b.plus m) (n - m)

/-- The source end of a COPY. -/
def State.copySrc (s : State) (c : Ctx) : CopyEnd :=
  let a := c.stepped 16 8 44
  if c.f 8 1 = 0 then .here (wsAt c.tile (((s.ctxSlot c 10).map Slot.loc).getD 0 + a))
  else if c.f 8 1 = 5 then .here (t0At c.tile a)
  else .there a

/-- The destination end of a COPY, and the other tile it lies on. -/
def State.copyDst (s : State) (c : Ctx) : CopyEnd × Option Nat :=
  let a := c.stepped 24 8 48
  if c.f 9 1 = 0 then (.here (wsAt c.tile (((s.ctxSlot c 11).map Slot.loc).getD 0 + a)), none)
  else if c.f 9 1 = 4 then
    let t := c.f 12 1
    (.here (wsAt t (((s.slotOf c.part c.graph t (c.f 11 1)).map Slot.loc).getD 0 + a)), some t)
  else (.there a, none)

/-- The pieces of a COPY, row by row: source, destination, bytes. -/
def State.copyCuts (s : State) (c : Ctx) : List (CopyEnd × CopyEnd × Nat) :=
  let a := s.copySrc c
  let b := (s.copyDst c).1
  let n := c.f 32 4
  (List.range (c.f 14 2)).flatMap (fun r => cutRow (n / 64 + 2) (a.plus (r * c.f 36 4)) (b.plus (r * c.f 40 4)) n)

/-- A piece that leaves the tile as a request; `remote` is the other tile that the destination lies on. From memory to memory
it is a read, and then a write. -/
def State.copyReq (s : State) (remote : Option Nat) (x : CopyEnd × CopyEnd × Nat) : YReq :=
  match x with
  | (.there a, .here k, n) =>
    (match remote with
     | some t => ⟨.relay none k (3000 + t), some a, 0, n, 0⟩
     | none => ⟨.fetch (some k), some a, 0, n, 0⟩)
  | (.there a, .there b, n) => ⟨.relay (some b) 0 0, some a, 0, n, 0⟩
  | (.here k, .there b, n) => ⟨.put (s.look k n).1 (s.lookMarks k n), some b, 0, n, 0⟩
  | (.here k, .here d, n) => ⟨.put (s.look k n).1 (s.lookMarks k n), none, d, n, 3000 + remote.getD 0⟩

/-- The ranges of the tile's own stores that a COPY reads. -/
def ownSpans (xs : List (CopyEnd × CopyEnd × Nat)) : List (Nat × Nat) := xs.filterMap (fun (a, _, n) => match a with
  | .here k => some (k, n)
  | .there _ => none)

/-- The yarder reads ranges of its tile's own stores (R264). -/
def State.ownReads (s : State) (c : Ctx) (rs : List (Nat × Nat)) : State :=
  rs.foldl (fun t (k, n) => t.readRange 1 (some c.part) 1 { op := c.f 4 2 } k n) s

/-- A piece moves within the tile; poison travels with it (R113). -/
def State.copyHere (s : State) (x : CopyEnd × CopyEnd × Nat) : State :=
  match x with
  | (.here k, .here d, n) => s.move d k n
  | _ => s

/-- COPY at a thread's descriptor: moved at once within the tile; else its requests are issued and the thread waits for
them as on a miss (R104, R111). -/
def State.copyOp (s : State) (c : Ctx) : State :=
  let xs := s.copyCuts c
  let remote := (s.copyDst c).2
  let s0 := s.ownReads c (ownSpans xs)
  if remote.isNone && xs.all (fun x => match x with
      | (.here _, .here _, _) => true
      | _ => false) then
    (xs.foldl State.copyHere s0).opDone c
  else s0.withIo c (xs.map (s.copyReq remote)) (s0.opDone c)

/-- COPY: it starts, or the tile's yarder goes on issuing what waits. -/
def execCopyRows (tile thread : Nat) (s : State) : Host.Outcome State Fault Refusal :=
  ok (threadOk tile thread) s
    (match s.startOf 0x0E tile thread with
     | some c => (s.copyOp c).issued tile thread
     | none => s.issueAll tile)

/-! DISPATCH and COMBINE (R99). -/

/-- An entry of the expert and return maps: LAND, SEM, CAP. -/
structure MapEnt where
  land : Nat
  sem : Nat
  cap : Nat
  deriving DecidableEq, Repr

/-- Entry `e` of a partition's maps. -/
def State.mapEnt (s : State) (p e : Nat) : MapEnt :=
  let v := Tbl.get 0 s.img.maps (p * 65536 + e)
  ⟨fld v 0 4, fld v 4 2, fld v 6 2⟩

/-- The part physical address of a landing offset. -/
def landAddr (o : Nat) : Nat := 0x30000000000 + o

/-- The (row, choice, expert) triples of a DISPATCH, in ascending row and then choice. -/
def dispatchPairs (idx : List (List Nat)) : List (Nat × Nat × Nat) :=
  (idx.mapIdx (fun r ks => ks.mapIdx (fun k e => (r, k, e)))).flatten

/-- A row tag. -/
def rowTag (rank k r gate : Nat) : List Byte := natLE 64 (rank + 256 * k + 65536 * r + 2 ^ 32 * gate)

/-- A DISPATCH whose rows and counts have landed signals each expert's semaphore (R99). -/
def State.dispatchEnd (s : State) (c : Ctx) : State :=
  let sems := (List.range (c.f 12 2)).map (fun e => (s.mapEnt c.part (c.f 24 2 + e)).sem)
  s.ifSems c (sems.map (fun n => (0, n))) s ((sems.foldl (fun t n => t.semAdd c 0 n 1) s).opDone c)

/-- DISPATCH at a thread's descriptor: rows to the experts in their order, then the counts. -/
def State.dispatchOp (s : State) (c : Ctx) : State :=
  let j := c.tile
  let (topk, experts, rank, nb) := (c.f 11 1, c.f 12 2, c.f 15 1, c.f 20 4)
  match s.ctxSlot c 8, s.ctxSlot c 9, s.ctxSlot c 10 with
  | some i, some ix, some g =>
    let rs := List.range (c.f 16 4)
    let pairs := dispatchPairs (rs.map (fun r => (s.slotCodes j ix r).1.take topk))
    let ent (e : Nat) : MapEnt := s.mapEnt c.part (c.f 24 2 + e)
    let all (e : Nat) : List (Nat × Nat × Nat) := pairs.filter (fun (_, _, x) => x == e)
    let sent (e : Nat) : List (Nat × Nat × Nat) := (all e).take (ent e).cap
    let base (e n : Nat) : Nat := landAddr ((ent e).land + 256 + rank * (ent e).cap * (64 + nb) + n * (64 + nb))
    let writes : List (Nat × List Byte) := (List.range experts).flatMap (fun e =>
      (sent e).mapIdx (fun n (r, k, _) =>
        (base e n, rowTag rank k r (((s.slotCodes j g r).1).getD k 0) ++ (s.look (wsAt j (i.rowAt r)) nb).1)))
    let counts : List (Nat × List Byte) := (List.range experts).map (fun e =>
      (landAddr ((ent e).land + 4 * rank), natLE 4 (sent e).length))
    let reads := rs.map (fun r => (wsAt j (i.rowAt r), nb)) ++ ix.spans j rs ++ g.spans j rs
    let s0 := s.opReads c reads
    if reads.any (fun (k, n) => (s.look k n).2) then s0.opFault c 0x03
    else
      let s1 := s0.flagIf TILE_SEQ_EVENT.DISPATCH_DROP j ((List.range experts).any (fun e =>
        decide ((sent e).length < (all e).length)))
      s1.withIo c ((writes ++ counts).flatMap (fun (a, bs) => putReqs a bs)) (s1.dispatchEnd c)
  | _, _, _ => s

/-- DISPATCH. -/
def execDispatch (tile thread : Nat) (s : State) : Host.Outcome State Fault Refusal :=
  ok (threadOk tile thread) s (s.startAs 0x0A tile thread s.dispatchOp)

/-- The entries of the return map that begins at MAP: to the end of the image item that holds it, at most one for each of
the 64 ranks (DESIGN CHOICE, assumption 13). -/
def State.returnMap (s : State) (p m : Nat) : List MapEnt :=
  let n := (s.img.mapEnds.filterMap (fun (k, e) =>
    if k / 65536 = p ∧ k % 65536 ≤ m ∧ m < e then some (e - m) else none)).headD 0
  (List.range (min 64 n)).map (fun i => s.mapEnt p (m + i))

/-- The rows a COMBINE takes: ROWS of them, or as many as the counts at the head of TAGS add up to; then the tags follow
the 256 B of counts (DESIGN CHOICE, assumption 13). -/
def State.combineRows (s : State) (c : Ctx) (tg : Slot) : Nat × Nat :=
  if c.f 16 4 ≠ 0 then (c.f 16 4, 0)
  else (((List.range 64).map (fun i => leNat (s.slotRaw c.tile tg (4 * i) 4))).sum, 256)

/-- A COMBINE whose rows have landed signals the semaphores of the return map, and ends. -/
def State.combineEnd (s : State) (c : Ctx) : State :=
  let sems := (s.returnMap c.part (c.f 24 2)).map MapEnt.sem
  s.ifSems c (sems.map (fun n => (0, n))) s (State.endWritten (sems.foldl (fun t n => t.semAdd c 0 n 1) s) c)

/-- The conditions of FP32 results. -/
def ev32 (xs : List Nat) : NumEv := evOf (xs.map (fun x => Fmt.fp32.cvt false (f32 x) 1))

/-- COMBINE at a thread's descriptor: each row times its gate, added or written at the sender's place. -/
def State.combineOp (s : State) (c : Ctx) : State :=
  let j := c.tile
  let (mode, topk, elems) := (c.f 11 1, c.f 12 1, c.f 20 4)
  match s.ctxSlot c 8, s.ctxSlot c 9 with
  | some i, some tg =>
    let (n, off) := s.combineRows c tg
    let ents := s.returnMap c.part (c.f 24 2)
    let rows : List (Nat × List Nat) := (List.range n).map (fun r =>
      let t := leNat (s.slotRaw j tg (off + 64 * r) 64)
      let e := ents.getD (fld t 0 1) ⟨0, 0, 0⟩
      let at_ := if mode = 0 then fld t 2 2 else fld t 2 2 * topk + fld t 1 1
      (landAddr (e.land + at_ * elems * 4), ((s.row32 j i r).take elems).map (mul32 (fld t 4 4))))
    let reads := i.spans j (List.range n) ++ (List.range (n + off / 64)).map (fun r => (tg.byteAt j (64 * r), 64))
    let s0 := s.opReads c reads
    if reads.any (fun (k, m) => (s.look k m).2) then s0.opFault c 0x03
    else
      let s1 := s0.noteEv c (ev32 (rows.flatMap Prod.snd))
      s1.withIo c (rows.flatMap (fun (a, xs) =>
        let bs := (xs.map (natLE 4)).flatten
        if mode = 0 then reduceReqs 0 0 bs.length a bs else putReqs a bs)) (s1.combineEnd c)
  | _, _ => s

/-- COMBINE. -/
def execCombine (tile : Nat) (start : VecStart) (s : State) : Host.Outcome State Fault Refusal :=
  ok (threadOk tile start.thread) s (s.startVec 0x0B tile start.thread start.parity s.combineOp)

/-! KV_APPEND (R81, R162, R163, R173). -/

/-- The page and slot that token `i` of an append goes to; none where a regrowth discards it. -/
def State.appendTo (s : State) (p : Nat) (e : Exec) (r : Resv) (ext : List PRange) (draft : Bool) (l i : Nat) :
    Option (Nat × Nat) :=
  if draft || s.layerW p l != 0 then r.pendAt (s.pageT p) l i
  else match findIn ext (r.n + i) with
    | none => none
    | some (k, y) =>
      if e.regrow.isSome then
        (r.fresh.find? (fun (a, b, _) => a == l && b == k)).map (fun (_, _, pg) => (pg, y))
      else (s.entryPage p r.slot l k r.fresh).map (fun pg => (pg, y))

/-- One head of K or V as the page's bytes: its elements and, for ABF4, its block scales (R81). -/
def kvBytes (abf : Bool) (scale : Nat) (xs : List Num) : Packed :=
  if abf then packRow .abf4 false 1 (f32 scale) xs
  else
    let d := match f32 scale with
      | .fin _ n _ => if n = 0 then 1 else n
      | _ => 1
    packRow .e4m3 false d (.fin false 1 0) (xs.map (fun x => (x.quo (f32 scale)).1))

/-- The pieces of one token of one head, at the scales that its page holds since it was allocated (R152): offset in the frame
and bytes, with the conditions met. -/
def State.kvPieces (s : State) (p l pg h y : Nat) (ks vs : List Num) : List (Nat × List Byte) × NumEv :=
  let (abf, d, hs, t) := (s.layerAbf p l, s.layerD p l, s.layerH p l, s.pageT p)
  let k := kvBytes abf (s.hdr pg (64 + 4 * h) 4) ks
  let v := kvBytes abf (s.hdr pg (128 + 4 * h) 4) vs
  let at_ (i : Nat) : Nat := blockOff abf d hs t i + (h * t + y) * (slotBytes abf d).getD i 0
  (if abf then [(at_ 0, k.bytes), (at_ 1, k.scales), (at_ 2, v.bytes), (at_ 3, v.scales)]
   else [(at_ 0, k.bytes), (at_ 1, v.bytes)], k.ev.join v.ev)

/-- KV_APPEND at a thread's descriptor. -/
def State.appendOp (s : State) (c : Ctx) : State :=
  let j := c.tile
  let p := c.part
  let l := c.layerKv 14
  let (head0, heads, d) := (c.f 12 1, c.f 13 1, headDim (c.f 20 1))
  let e := s.execOf p c.slot
  let r := e.resv.getD (c.f 10 1) {}
  let ext := if e.regrow.isSome then s.ranges p r.slot
    else extendRanges (s.pageT p) (s.ranges p r.slot) r.n r.segs
  match s.ctxSlot c 8, s.ctxSlot c 9 with
  | some kq, some vq =>
    let is := List.range (c.f 16 4)
    let cells := is.flatMap (fun i => (List.range heads).map (fun h => (i, h)))
    let made := cells.map (fun (i, h) =>
      let dest := s.appendTo p e r ext ((c.f 11 1).testBit 0) l i
      (dest.map Prod.fst, s.kvPieces p l ((dest.map Prod.fst).getD 0) (head0 + h) ((dest.map Prod.snd).getD 0)
        (((s.slotRow j kq i).values.drop (h * d)).take d) (((s.slotRow j vq i).values.drop (h * d)).take d)))
    let writes := made.flatMap (fun (dest, ps, _) => match dest with
      | some pg => ps.map (fun (o, bs) =>
          let q := s.led pg
          (s.physOf q.chan (q.frame * s.frameSize p + o), bs))
      | none => [])
    let reads := kq.spans j is ++ vq.spans j is
    let s0 := s.opReads c reads
    if reads.any (fun (k, n) => (s.look k n).2) then s0.opFault c 0x03
    else
      let s1 := s0.noteEv c (made.foldl (fun a (_, _, ev) => a.join ev) {})
      s1.withIo c (writes.flatMap (fun (a, bs) => putReqs a bs)) (s1.endWritten c)
  | _, _ => s

/-- KV_APPEND. -/
def execKvAppend (tile thread : Nat) (s : State) : Host.Outcome State Fault Refusal :=
  ok (threadOk tile thread) s (s.startAs 0x10 tile thread s.appendOp)

/-! WAIT and SIGNAL (R107 to R110). -/

/-- A WAIT's target in its iteration (R92). -/
def Ctx.target (c : Ctx) : Nat := c.f 16 4 + c.iter * c.f 20 4

/-- The WAIT's count has reached its target. -/
def State.waitMet (s : State) (c : Ctx) : Bool := decide (c.target ≤ s.sem c (c.f 8 1) (c.f 14 2))

/-- WAIT (R109): it ends at once where the count suffices; else the thread waits. -/
def execWaitOp (tile thread : Nat) (s : State) : Host.Outcome State Fault Refusal :=
  ok (threadOk tile thread) s (s.startAs 0x11 tile thread (fun c =>
    s.ifSems c [(c.f 8 1, c.f 14 2)] s
      (if s.waitMet c then s.opDone c
       else s.onThr tile c.level thread (fun h => { h with st := .waiting, since := s.time }))))

/-- The WAIT in which a thread of the running instance stands. -/
def State.waiting (s : State) (j t : Nat) : Option Ctx :=
  match s.cur j t with
  | some c => if (s.thr j c.level t).st == .waiting && !(s.tile j).preempting then some c else none
  | none => none

/-- WAIT_SATISFIED (R109). -/
def execWaitSatisfied (tile thread : Nat) (s : State) : Host.Outcome State Fault Refusal :=
  ok (threadOk tile thread) s
    (match s.waiting tile thread with
     | some c => s.ifSems c [(c.f 8 1, c.f 14 2)] s (if s.waitMet c then s.opDone c else s)
     | none => s)

/-- WAIT_LIMIT (R109): LIMIT_US of timebase with the wait still unsatisfied; a satisfying count wins. -/
def execWaitLimit (tile thread : Nat) (s : State) : Host.Outcome State Fault Refusal :=
  ok (threadOk tile thread) s
    (match s.waiting tile thread with
     | some c =>
       s.ifSems c [(c.f 8 1, c.f 14 2)] s
         (if !s.waitMet c && c.f 24 4 != 0 && decide (s.time ≥ (s.thr tile c.level thread).since + c.f 24 4 * 1000) then
            s.opFault c 0x06
          else s)
     | none => s)

/-- SIGNAL (R108, R110). -/
def execSignalOp (tile thread : Nat) (s : State) : Host.Outcome State Fault Refusal :=
  ok (threadOk tile thread) s (s.startAs 0x12 tile thread (fun c =>
    s.ifSems c [(c.f 8 1, c.f 14 2)] s ((s.semAdd c (c.f 8 1) (c.f 14 2) (c.f 16 4)).opDone c)))

/-! Run-ahead (R186, R207, R208). -/

/-- A run-ahead read of partition `p` at hub `h` may be issued into the 4 KiB block of an address: a prefetchable window of
the partition, the right to read, and the frame's prefetch bit. -/
def State.runAheadOk (s : State) (h p a : Nat) : Bool :=
  let b := a - a % 4096
  match s.window h b with
  | none => false
  | some n =>
    let (ch, l) := s.windowAt h n b
    s.fget HUB_WIN_CTL.PART h n == p && s.admits p .read 0 b 4096 && s.fget HUB_WIN_CTL.PREFETCHABLE h n == 1 &&
      (let f := l / max 1 (s.frameSize p)
       !(s.poolChans p).contains ch || f ≥ s.frames ch || s.prefetchBit (s.pageNo ch f))

/-- RUN_AHEAD_READ (R207, R208): where the test allows it the block is read, or held by its channel as any read (R234); a
fault is suppressed and counted. -/
def execRunAheadRead (tile addr : Nat) (faulty : Bool) (s : State) : Host.Outcome State Fault Refusal :=
  ok (tileOk tile) s
    (match s.tilePart tile with
     | none => s
     | some p =>
       let rq : Req := ⟨.runAhead tile, hubOfTile tile, p, addr - addr % 4096, 4096, 0, s.time⟩
       if !s.ingressOpen || !s.runAheadOk (hubOfTile tile) p addr then s
       else
         let ps := (s.placesOf rq).getD []
         if faulty then s.suppress tile
         else match s.heldBy ps with
           | some c => s.holdAt c { rq := rq, write := false, since := s.time, data := [], poisoned := false }
           | none => s.serveRead rq ps)

end Sys2Proof.Machine
end

