-- ==== Sys2Proof/Machine/Attend.lean ====
section
/-!
DEFINITION. Attention (chapter 5): the page list of a session, which keys a query row sees, page records and their merge,
the three attention operators on the tile path, and the choice of the Thapel path with the page steps it needs.
-/

namespace Sys2Proof.Machine

/-! Rows (Tables 5.2, 8.4). -/

/-- A field of an attention descriptor that ATTEND_BWD holds elsewhere. -/
def Ctx.isBwd (c : Ctx) : Bool := c.opcode == 5

/-- WINDOW. -/
def Ctx.windowF (c : Ctx) : Nat := c.f 18 2
/-- GROUP. -/
def Ctx.groupF (c : Ctx) : Nat := c.f 14 1
/-- KV_HEADS. -/
def Ctx.kvHeads (c : Ctx) : Nat := c.f 15 1
/-- Query heads of a row. -/
def Ctx.qHeads (c : Ctx) : Nat := c.kvHeads * c.groupF
/-- The head dimension. -/
def Ctx.dimF (c : Ctx) : Nat := headDim (c.f 17 1)

/-- The segment of the session's last committed token as the instance sees it; 0 for an empty session. -/
def State.viewSeg (s : State) (p : Nat) (e : Exec) (r : Resv) : Nat :=
  if e.regrow.isSome then
    (match findIn (s.ranges p r.slot) (r.n - 1) with
     | some (k, _) => if r.n = 0 then 0 else ((s.ranges p r.slot).getD k ⟨0, 0, 0, 0⟩).seg
     | none => 0)
  else s.curSeg p r.slot

/-- Positions of rows of given segments: each counts its segment's committed tokens and earlier rows (Table 5.2). -/
def State.rowPositions (s : State) (p : Nat) (r : Resv) (segs : List Nat) : List Nat :=
  segs.mapIdx (fun i g => s.segCount p r.slot r.n g + ((segs.take i).filter (· == g)).length)

/-- The query rows of a prefill chunk: SEG's segments, or the current one for every row. -/
def State.prefillRows (s : State) (c : Ctx) (e : Exec) (r : Resv) (n segOff : Nat) : List RowEnt :=
  let segs := match s.ctxSlot c segOff with
    | some q => (s.flatCodes c.tile q).take n
    | none => List.replicate n (s.viewSeg c.part e r)
  (segs.zip (s.rowPositions c.part r segs)).map (fun (g, π) => ⟨0, π, g⟩)

/-- The query nodes of session `si` of a decode part: BITMAP and DEPTH of their records; one node without TREE. -/
def State.decodeRows (s : State) (c : Ctx) (e : Exec) (r : Resv) (si queries : Nat) : List RowEnt :=
  let g := s.viewSeg c.part e r
  let base := s.segCount c.part r.slot r.n g
  (List.range queries).map (fun x => match s.ctxSlot c 11 with
    | some q =>
      let v := leNat (s.look (wsAt c.tile (q.rowAt (si * queries + x))) 64).1
      ⟨fld v 0 16, base + fld v 17 1, g⟩
    | none => ⟨1, base, g⟩)

/-! The page list (R130) and the keys of a page. -/

/-- A page of the list: a full-context page, page `k` of a ring, or pending page `k`. -/
inductive APage where
  | full (pg limit : Nat)
  | ring (pg k : Nat)
  | pend (pg k : Nat)
  deriving DecidableEq, Repr

/-- Its page number. -/
def APage.page : APage → Nat
  | .full pg _ => pg
  | .ring pg _ => pg
  | .pend pg _ => pg

/-- An element put before the first whose key is not below its own. -/
def insertOn {α : Type} (f : α → Nat) (x : α) : List α → List α
  | [] => [x]
  | y :: t => if f x ≤ f y then x :: y :: t else y :: insertOn f x t

/-- Elements by rising key, equal ones in their order. -/
def sortOn {α : Type} (f : α → Nat) (l : List α) : List α := l.foldr (insertOn f) []

/-- The page list of a session for a layer; none when an entry is dropped. Committed pages come by rising base position, pages
of equal base position, which segments can have, in page-table order (DESIGN CHOICE, assumption 70). In a full-context layer whose tokens are appended
in place, reserved pages follow the table's; while it is regrown, they stand for the dropped entries the chunk needs. -/
def State.pageList (s : State) (p g l : Nat) (e : Exec) (r : Resv) : Option (List APage) :=
  let w := s.layerW p l
  let pend := ((r.pend.filter (fun (a, _, _) => a == l)).map (fun (_, k, pg) => APage.pend pg k))
  let entry (k : Nat) (mine : List (Nat × Nat × Nat)) : Option (Option Nat) :=
    match mine.find? (fun (a, b, _) => a == l && b == k) with
    | some (_, _, pg) => some (some pg)
    | none =>
      let v := s.pte p r.slot l k
      if s.pteBad p r.slot l k || pteDropped v then none else some (if pteValid v then some (ptePage v) else none)
  if w ≠ 0 then
    let ks := List.range (w / s.pageT p)
    let es := ks.map (fun k => entry k r.ring)
    if es.any (·.isNone) then none
    else some ((ks.zip es).filterMap (fun (k, x) => match x with
      | some (some pg) => some (APage.ring pg k)
      | _ => none) ++ pend)
  else
    let inPlace := !(s.draftLayers p g).contains l
    let old := s.ranges p r.slot
    let ext := if e.regrow.isSome then old.filter (fun q => decide (q.first < r.n + r.count))
      else if inPlace then extendRanges (s.pageT p) old r.n r.segs else old
    let es := (List.range ext.length).map (fun k => entry k r.fresh)
    if es.any (·.isNone) then none
    else
      let all := ext.zip es
      let done := sortOn (fun x => x.1.pos) (all.filter (fun x => decide (x.1.first < r.n)))
      some ((done ++ all.filter (fun x => !decide (x.1.first < r.n))).filterMap (fun (q, x) => match x with
        | some (some pg) => some (APage.full pg q.count)
        | _ => none) ++ pend)

/-- A key: position, segment, and its pending index where it is not committed. -/
structure Key where
  pos : Nat
  seg : Nat
  ord : Option Nat
  deriving DecidableEq, Repr

/-- The position of ring slot `x` (R136). -/
def ringPos (n w x : Nat) : Option Nat :=
  if n = 0 ∨ w = 0 then none
  else
    let back := ((n : Int) - 1 - x) % w
    let v : Int := (n : Int) - 1 - back
    if v ≥ 0 then some v.toNat else none

/-- The key in slot `y` of a page, if there is one (R121, R123, R136, R137). `pend` gives position and segment of pending
tokens. -/
def State.keyAt (s : State) (p l : Nat) (r : Resv) (pend : List RowEnt) (a : APage) (y : Nat) : Option Key :=
  match a with
  | .full pg limit =>
    let i := s.hdr pg 4 4 + y
    let at_ : Key := ⟨s.hdr pg 8 4 + y, s.hdr pg 14 2, none⟩
    if y ≥ limit then none
    else if i < r.n then (if y < s.hdr pg 12 2 then some at_ else none)
    else if i < r.n + r.count then some { at_ with ord := some (i - r.n) }
    else none
  | .ring _ k => (ringPos r.n (s.layerW p l) (k * s.pageT p + y)).map (fun π => ⟨π, 0, none⟩)
  | .pend _ k =>
    let x := k * s.pageT p + y
    match pend[x]? with
    | some e => if x < r.count then some ⟨e.pos, e.seg, some x⟩ else none
    | none => none

/-- Table 5.3 for query row `x`. -/
def visible (mask window : Nat) (decode : Bool) (row : RowEnt) (x : Nat) (k : Key) : Bool :=
  (mask == 0 || window != 0 || k.seg == row.seg) &&
  (match k.ord with
   | none => true
   | some j => if decode then row.bitmap.testBit j else decide (j ≤ x)) &&
  (window == 0 || decide (row.pos < k.pos + window))

/-! Scores and page records (R126 to R128). -/

/-- A key or value row of a page: block 0 of the frame's data holds keys, and the values' block follows (Table 6.1). -/
def State.kvRow (s : State) (p l pg h y : Nat) (value : Bool) : Row :=
  let (abf, d, hs, t) := (s.layerAbf p l, s.layerD p l, s.layerH p l, s.pageT p)
  let b := if value then (if abf then 2 else 1) else 0
  let at_ (i : Nat) : Nat := s.pageAt pg (blockOff abf d hs t i + (h * t + y) * (slotBytes abf d).getD i 0)
  s.rowFrom (if abf then .abf4 else .e4m3) (at_ b) (at_ (b + 1)) d

/-- The page's K scale of a head, as the header holds it. -/
def State.kScale (s : State) (pg h : Nat) : Num := f32 (s.hdr pg (64 + 4 * h) 4)

/-- The page's V scale of a head. -/
def State.vScale (s : State) (pg h : Nat) : Nat := s.hdr pg (128 + 4 * h) 4

/-- The dot of a query head and a key: R72 over blocks of 32, the page's K scale as the key's tensor scale (R126); and whether
an accumulation overflowed (R74). -/
def dotAcc (q k : Row) (ck : Num) : Nat × Bool :=
  let one : Num := .fin false 1 0
  (List.range (q.elems.length / 32)).foldl (fun acc b =>
    let (v, o) := accumulate acc.1 (blockTerm false ((q.elems.drop (32 * b)).take 32) ((k.elems.drop (32 * b)).take 32)
      (q.scales.getD b one) (k.scales.getD b one) one ck)
    (v, acc.2 || o)) (0, false)

/-- The dot. -/
def dot32 (q k : Row) (ck : Num) : Nat := (dotAcc q k ck).1

/-- A query head of a row: elements and block scales `g · D` on. -/
def headOf (q : Row) (g d : Nat) : Row := ⟨(q.elems.drop (g * d)).take d, (q.scales.drop (g * d / 32)).take (d / 32), q.bad⟩

/-- The anchored sum of exact products, rounded once (R127). -/
def anchoredSum (ps : List Num) : Nat :=
  if ps.any (· == .nan) then nan32
  else (let b := exactSum (anchor true ps); Num.ofInt b.1 b.2).rne32

/-- c of R126. -/
def scoreScale (scale : Nat) : Nat := mul32 scale 0x3FB8AA3B

/-- The record of a page from the scores of its slots (none: no visible key), the values and c_v; answered with whether it
is the NaN record (R127, R128). -/
def pageRecord (d : Nat) (us : List (Option Nat)) (vs : Nat → List Num) (cv : Nat) : ARec × Bool :=
  let us := us.map (fun u => u.bind (fun v => if v = negInf32 then none else some v))
  let seen := us.filterMap id
  if seen = [] then (ARec.none d, false)
  else if seen.any (fun u => isNan32 u || u == inf32) then (⟨nan32, nan32, List.replicate d nan32⟩, true)
  else
    let m := seen.foldl max32 negInf32
    let ps := us.map (fun u => match u with
      | some v => exp2v (sub32 v m)
      | none => 0)
    let on := (List.range us.length).filter (fun t => (us.getD t none).isSome)
    let rows := on.map (fun t => (f32 (ps.getD t 0), vs t))
    (⟨m, treeSeg add32 0 ps, (List.range d).map (fun i =>
      mul32 (anchoredSum (rows.map (fun (w, v) => w.mul (v.getD i .nan)))) cv)⟩, false)

/-- The scores of a page for one query head: of the slots whose key the row sees. -/
def State.pageScores (s : State) (p l : Nat) (pg h : Nat) (c : Nat) (q : Row) (sees : Nat → Bool) : List (Option Nat) :=
  (List.range (s.pageT p)).map (fun y =>
    if sees y then some (mul32 (dot32 q (s.kvRow p l pg h y false) (s.kScale pg h)) c) else none)

/-- The record of one page for one row and query head. -/
def State.record1 (s : State) (p l : Nat) (pg h : Nat) (c : Nat) (q : Row) (sees : Nat → Bool) : ARec × Bool :=
  pageRecord q.elems.length (s.pageScores p l pg h c q sees) (fun y => (s.kvRow p l pg h y true).values) (s.vScale pg h)

/-- The pages of part `k` of `n` (R130). -/
def splitPart (ps : List APage) (k n : Nat) : List APage :=
  let l := ps.length
  (ps.drop (k * l / n)).take ((k + 1) * l / n - k * l / n)

/-! What an attention operator needs of its pages. -/

/-- The yarder's reads of a page: its frame's header and data. -/
def State.pageReqs (s : State) (p l pg : Nat) : List YReq :=
  let e := s.led pg
  fetchReqs (s.physOf e.chan (e.frame * s.frameSize p)) (512 + s.layerBytes p l)

/-- A page cannot be read: its ledger entry is withheld, not valid, or dropped (R158). -/
def State.pageGone (s : State) (pg : Nat) : Bool :=
  let e := s.led pg
  s.ledBad pg || !e.valid || e.dropped

/-- A page whose whole-page read fails, which ends its operator with cause 0x07: a pending page is recorded, any other
dropped (R135, R176); `handle` is its session's. -/
def State.pageFails (s : State) (c : Ctx) (l pg handle : Nat) : State :=
  if (s.led pg).pending then s.readRange 1 (some c.part) 2 {} (s.pageAt pg 0) (512 + s.layerBytes c.part l)
  else s.sealFail c.part l pg handle 1

/-- What follows once an operator's pages have been read, each with its session's handle: the seals are checked, and a failed
one ends it with cause 0x07 (R135, R151, R176). -/
def State.withPages (s : State) (c : Ctx) (l : Nat) (ps : List (Nat × APage)) (k : State) : State :=
  match ps.find? (fun x => !s.sealOk c.part l x.2.page) with
  | some (handle, a) => (s.pageFails c l a.page handle).failIo c 0x07
  | none => k

/-- The records of every row and query head over some pages, merged by the tree in list order (R130); answered with whether
any page's was the NaN record. Row-major. -/
def State.partRecords (s : State) (c : Ctx) (l : Nat) (r : Resv) (decode : Bool) (rows pend : List RowEnt)
    (qs : List Row) (pages : List APage) : List (List ARec) × Bool :=
  let p := c.part
  let d := c.dimF
  let sc := scoreScale (c.f 24 4)
  let out := (rows.zip qs).mapIdx (fun x (row, q) =>
    (List.range c.qHeads).map (fun g =>
      let h := c.f 16 1 + g / max 1 c.groupF
      let rs := pages.map (fun (a : APage) => s.record1 p l a.page h sc (headOf q g d) (fun y =>
        match s.keyAt p l r pend a y with
        | some k => visible (c.f 28 1) c.windowF decode row x k
        | none => false))
      (Machine.tree ARec.merge (ARec.none d) (rs.map Prod.fst), rs.any Prod.snd)))
  (out.map (fun l => l.map Prod.fst), out.any (fun l => l.any Prod.snd))

/-- A dot that those records take overflowed its accumulator (R74). -/
def State.partOvf (s : State) (c : Ctx) (l : Nat) (r : Resv) (decode : Bool) (rows pend : List RowEnt) (qs : List Row)
    (pages : List APage) : Bool :=
  ((rows.zip qs).mapIdx (fun x (row, q) => (List.range c.qHeads).any (fun g =>
    let h := c.f 16 1 + g / max 1 c.groupF
    pages.any (fun a => (List.range (s.pageT c.part)).any (fun y =>
      (match s.keyAt c.part l r pend a y with
       | some k => visible (c.f 28 1) c.windowF decode row x k
       | none => false) &&
      (dotAcc (headOf q g c.dimF) (s.kvRow c.part l a.page h y false) (s.kScale a.page h)).2))))).any id

/-! Results (Table 5.1, R120, R131, R505). -/

/-- m and l of each query head of a row. -/
def statsRow (rs : List ARec) : List Nat := rs.flatMap (fun r => [r.m, r.l])

/-- Whole records of a row. -/
def recordRow (rs : List ARec) : List Nat := rs.flatMap (fun r => r.m :: r.l :: r.o)

/-- The results of rows `r0` on written to OUT and STATS. -/
def State.putAttn (s : State) (c : Ctx) (parts r0 : Nat) (rs : List (List ARec)) : State × NumEv :=
  let j := c.tile
  let out := s.ctxSlot c 9
  let stats := s.ctxSlot c 10
  let put (t : State × NumEv) (sl : Option Slot) (rows : List (List Nat)) : State × NumEv :=
    match sl with
    | some q => let (u, e) := t.1.putRows j q r0 rows; (u, t.2.join e)
    | none => t
  if parts = 1 then
    let s1 := s.flagIf ATTN_EVENT.EMPTY_ROW j (rs.any (fun l => l.any (fun r => r.m == negInf32)))
    put (put (s1, {}) out (rs.map (fun l => (l.map ARec.out).flatten))) stats (rs.map statsRow)
  else if out.isNone || c.f 9 1 == c.f 10 1 then put (s, {}) stats (rs.map recordRow)
  else put (put (s, {}) out (rs.map (fun l => (l.map ARec.o).flatten))) stats (rs.map statsRow)

/-- A NaN record's events (R128). -/
def State.recNan (s : State) (c : Ctx) (nan : Bool) : State := s.flagIf ATTN_EVENT.REC_NAN c.tile nan

/-! ATTEND_PREFILL. -/

/-- The page list of the session that a prefill or backward operator names, with its handle. -/
def State.seqPages (s : State) (c : Ctx) : Option (List APage) :=
  let e := s.execOf c.part c.slot
  s.pageList c.part c.graph (c.layerKv 12) e (e.resv.getD (c.f 29 1) {})

/-- The pages of that session with its handle. -/
def State.seqHandled (s : State) (c : Ctx) : List (Nat × APage) :=
  let r := (s.execOf c.part c.slot).resv.getD (c.f 29 1) {}
  ((s.seqPages c).getD []).map (fun a => (s.handleOf c.part r.slot, a))

/-- ATTEND_PREFILL with its pages read: its rows' results are written. -/
def State.prefillEnd (s : State) (c : Ctx) : State :=
  let j := c.tile
  let l := c.layerKv 12
  let e := s.execOf c.part c.slot
  let r := e.resv.getD (c.f 29 1) {}
  let n := c.f 20 4
  match s.ctxSlot c 8 with
  | none => s
  | some q =>
    let rows := s.prefillRows c e r n 11
    let pend := (r.segs.zip (s.rowPositions c.part r r.segs)).map (fun (g, π) => RowEnt.mk 0 π g)
    let pages := (s.seqPages c).getD []
    s.withPages c l (s.seqHandled c) (
      let qs := (List.range n).map (s.slotRow j q)
      let (rs, nan) := s.partRecords c l r false rows pend qs pages
      let ovf := s.partOvf c l r false rows pend qs pages
      let reads := q.spans j (List.range n) ++ ((s.ctxSlot c 11).map (fun g => g.allSpans j)).getD []
      (s.attnDrop j c.level c.thread).vecEnd c reads (fun t =>
        let (u, ev) := (t.recNan c nan).putAttn c 1 0 rs
        (u, ev.join { nanLogit := nan, special := nan, accOvf := ovf })))

/-! ATTEND_DECODE. -/

/-- The layer's pages of a session admit the Thapel path within the thin limit (R134). -/
def State.thin (s : State) (c : Ctx) (l : Nat) (r : Resv) : Bool :=
  let j := c.tile
  let rr := c.f 20 1 * c.groupF
  let lim := if s.layerAbf c.part l then s.fget ATTN_THIN_CTL.ROWS_ABF4 j 0 else s.fget ATTN_THIN_CTL.ROWS_FP8 j 0
  let w := s.layerW c.part l
  let nl := if w = 0 then r.n else min r.n w
  decide (rr ≤ lim) && decide (nl ≥ 64 * s.fget ATTN_THIN_CTL.MIN_TOKENS j 0)

/-- The path of a session of the part: true for the Thapel units (R134). -/
def State.onThapel (s : State) (c : Ctx) (l : Nat) (r : Resv) : Bool :=
  if c.f 22 1 = 1 then false else if c.f 22 1 = 2 then true else s.thin c l r

/-- Bytes of a query vector in the query buffer. -/
def queryBytes (f : Fmt) (d : Nat) : Nat := up64 (f.packed d + (if f.block then d / 32 else 0))

/-- The query vector of a head as it lies in the query buffer: packed elements, then block scales, padded to 64 B (R224). -/
def State.queryVec (s : State) (j : Nat) (q : Slot) (row g d : Nat) : List Byte :=
  let es := ((s.slotCodes j q row).1.drop (g * d)).take d
  let ss := if q.fmt.block then (s.look (wsAt j (q.scaleAt row + g * d / 32)) (d / 32)).1 else []
  natLE (queryBytes q.fmt d) (packCodes q.fmt es + 256 ^ (q.fmt.packed d) * leNat ss)

/-- A step of `rows` nodes and `heads` KV heads meets the bounds of R225. -/
def stepFits (group d t qb nodes rows heads : Nat) : Bool :=
  decide (rows * group * 2 * heads * t * d ≤ 1048576) && decide (heads * rows * group * (d + 2) * 4 ≤ 32768) &&
  decide (heads * rows * group * qb + 32 * nodes ≤ 32768)

/-- The largest number from `n` down to 1 that fits. -/
def largest (ok : Nat → Bool) : Nat → Nat
  | 0 => 1
  | n + 1 => if ok (n + 1) then n + 1 else largest ok n

/-- Blocks of `k` that cover `n`: first and size. -/
def blocksOf (k n : Nat) : List (Nat × Nat) :=
  (List.range ((n + k - 1) / max 1 k)).map (fun i => (i * k, min k (n - i * k)))

/-- The division of a page into steps: node and head blocks (R225). -/
def stepShapes (group d t qb nodes heads : Nat) : List (Nat × Nat × Nat × Nat) :=
  let rr := largest (fun r => stepFits group d t qb nodes r 1) nodes
  (blocksOf rr nodes).flatMap (fun (r0, rn) =>
    (blocksOf (largest (fun h => stepFits group d t qb nodes rn h) heads) heads).map (fun (h0, hn) => (r0, rn, h0, hn)))

/-- The page steps of one page of a session's list (R223, R224); each finds its vectors at the head of the query buffer and its
row table behind them (DESIGN CHOICE, assumption 71). -/
def State.stepsOf (s : State) (c : Ctx) (l : Nat) (r : Resv) (q : Slot) (si index : Nat) (rows : List RowEnt)
    (a : APage) : List Step :=
  let p := c.part
  let d := c.dimF
  let n := rows.length
  let led := s.led a.page
  (stepShapes c.groupF d (s.pageT p) (queryBytes q.fmt d) n c.kvHeads).map (fun (r0, rn, h0, hn) =>
    { op := 1, part := p, chan := led.chan, frame := led.frame, page := a.page, layer := l
      pending := led.pending, segTest := c.f 28 1 == 1, row0 := r0, rows := rn, head0 := c.f 16 1 + h0, heads := hn
      group := c.groupF, geom := s.geomOf p l, n := r.n, window := c.windowF, scaleC := scoreScale (c.f 24 4)
      qfmt := match q.fmt with
        | .e4m3 => 3 | .e5m2 => 4 | .mxE4m3 => 5 | .mxE5m2 => 6 | .mxE3m2 => 7 | .mxE2m3 => 8 | .mxfp4 => 9 | _ => 0
      pendFirst := match a with
        | .pend _ k => k * s.pageT p
        | _ => 0
      tag := 0, qOff := 0, tabOff := hn * rn * c.groupF * queryBytes q.fmt d / 64
      qs := (List.range hn).flatMap (fun h => (List.range rn).flatMap (fun x => (List.range c.groupF).map (fun g =>
        s.queryVec c.tile q (si * n + r0 + x) ((h0 + h) * c.groupF + g) d)))
      tab := rows, tile := c.tile, level := c.level, thread := c.thread, sess := si, index := index
      handle := s.handleOf p r.slot, queued := 0 })

/-- A decode part's own numbers: part and parts of SPLIT, queries, sessions. -/
def Ctx.splitF (c : Ctx) : Nat × Nat := (c.f 23 1 % 16, c.f 23 1 / 16 + 1)

/-- The reads of a decode part: Q and TREE. -/
def State.decodeReads (s : State) (c : Ctx) (q : Slot) : List (Nat × Nat) :=
  let rs := List.range (c.f 20 1 * c.f 21 1)
  q.spans c.tile rs ++ ((s.ctxSlot c 11).map (fun g => g.spans c.tile rs)).getD []

/-- The pages of the part for session `si`; none when an entry of the list is dropped. -/
def State.decodePages (s : State) (c : Ctx) (l si : Nat) : Option (List APage) :=
  let e := s.execOf c.part c.slot
  let (k, n) := c.splitF
  (s.pageList c.part c.graph l e (e.resv.getD si {})).map (fun ps => splitPart ps k n)

/-- The records of a session's rows on the tile path. -/
def State.decodeTile (s : State) (c : Ctx) (l : Nat) (q : Slot) (si : Nat) : List (List ARec) × Bool :=
  let e := s.execOf c.part c.slot
  let r := e.resv.getD si {}
  let n := c.f 20 1
  let rows := s.decodeRows c e r si n
  s.partRecords c l r true rows rows ((List.range n).map (fun x => s.slotRow c.tile q (si * n + x)))
    ((s.decodePages c l si).getD [])

/-- A dot of a session's rows on the tile path overflowed its accumulator. -/
def State.decodeOvf (s : State) (c : Ctx) (l : Nat) (q : Slot) (si : Nat) : Bool :=
  let e := s.execOf c.part c.slot
  let r := e.resv.getD si {}
  let n := c.f 20 1
  let rows := s.decodeRows c e r si n
  s.partOvf c l r true rows rows ((List.range n).map (fun x => s.slotRow c.tile q (si * n + x)))
    ((s.decodePages c l si).getD [])

/-- Every session of the part that runs on the tile, its pages checked, then the whole part written (R135): `thapel` gives
the records of the other sessions. -/
def State.decodeFinish (s : State) (c : Ctx) (l : Nat) (q : Slot) (thapel : Nat → Option (List (List ARec))) : State :=
  let e := s.execOf c.part c.slot
  let sis := List.range (c.f 21 1)
  let mine := sis.filter (fun si => (thapel si).isNone)
  s.withPages c l (mine.flatMap (fun si => ((s.decodePages c l si).getD []).map (fun a =>
      (s.handleOf c.part (e.resv.getD si {}).slot, a)))) (
    let res := sis.map (fun si => match thapel si with
      | some rs => (rs, rs.any (fun l => l.any (fun r => isNan32 r.m)))
      | none => s.decodeTile c l q si)
    let nan := res.any Prod.snd
    (s.attnDrop c.tile c.level c.thread).vecEnd c (s.decodeReads c q) (fun t =>
      let (u, ev) := (t.recNan c nan).putAttn c c.splitF.2 0 (res.map Prod.fst).flatten
      (u, ev.join { nanLogit := nan, special := nan, accOvf := mine.any (s.decodeOvf c l q) })))

/-- The records a Thapel part's results hold, merged for each row and query head (R130, R135). -/
def AttnPart.merged (a : AttnPart) (rows heads0 heads group d : Nat) : List (List ARec) :=
  (List.range rows).map (fun x => (List.range (heads * group)).map (fun g =>
    let h := heads0 + g / max 1 group
    Machine.tree ARec.merge (ARec.none d) ((List.range a.pages.length).map (fun i =>
      match a.got.find? (fun r => r.step.index == i && decide (r.step.row0 ≤ x) && decide (x < r.step.row0 + r.step.rows) &&
          decide (r.step.head0 ≤ h) && decide (h < r.step.head0 + r.step.heads)) with
      | some r =>
        let v := r.recs.getD (((h - r.step.head0) * r.step.rows + (x - r.step.row0)) * group + g % max 1 group) []
        ⟨v.getD 0 nan32, v.getD 1 nan32, v.drop 2⟩
      | none => ARec.none d))))

/-- ATTEND_DECODE with its tile-path pages read and its Thapel results delivered: they are merged and the part's result is
written (R135). -/
def State.decodeEnd (s : State) (c : Ctx) : State :=
  let ps := Tbl.get [] s.attn (thrKey c.tile c.level c.thread)
  match s.ctxSlot c 8 with
  | none => s
  | some q => s.decodeFinish c (c.layerKv 12) q (fun si =>
      (ps.find? (fun a => a.sess == si && a.steps != [])).map (fun a =>
        a.merged (c.f 20 1) (c.f 16 1) c.kvHeads c.groupF c.dimF))

/-! ATTEND_BWD (R141, R142). -/

/-- Block-anchored accumulation of exact products x_i · y_i, in blocks of 32 (R141), and whether it overflowed (R74). -/
def anchFold (xs ys : List Num) : Nat × Bool :=
  let one : Num := .fin false 1 0
  (List.range ((xs.length + 31) / 32)).foldl (fun acc b =>
    let (v, o) := accumulate acc.1 (blockTerm true ((xs.drop (32 * b)).take 32) ((ys.drop (32 * b)).take 32) one one one one)
    (v, acc.2 || o)) (0, false)

/-- The accumulated value. -/
def anchAcc (xs ys : List Num) : Nat := (anchFold xs ys).1

/-- A key that a row sees, with what the pass computes of it for one query head: its page, slot, pending index, p and dS. -/
structure BwdKey where
  pg : Nat
  y : Nat
  ord : Option Nat
  p : Nat
  ds : Nat
  ovf : Bool
  deriving DecidableEq, Repr

/-- The pass for one row and query head: every visible key in page-list then slot order. -/
def State.bwdHead (s : State) (c : Ctx) (l : Nat) (r : Resv) (pend : List RowEnt) (pages : List APage) (x : Nat)
    (row : RowEnt) (h : Nat) (q : Row) (dO : List Num) (m lsum : Nat) : List BwdKey :=
  let p := c.part
  let sc := scoreScale (c.f 24 4)
  let keys := pages.flatMap (fun a => (List.range (s.pageT p)).filterMap (fun y =>
    match s.keyAt p l r pend a y with
    | some k => if visible (c.f 28 1) c.windowF false row x k then some (a.page, y, k.ord) else none
    | none => none))
  let ps := keys.map (fun (pg, y, _) =>
    div32 (exp2v (sub32 (mul32 (dot32 q (s.kvRow p l pg h y false) (s.kScale pg h)) sc) m)) lsum)
  let dps := keys.map (fun (pg, y, _) => mul32 (anchAcc dO (s.kvRow p l pg h y true).values) (s.vScale pg h))
  let (dsum, ovf) := anchFold (ps.map f32) (dps.map f32)
  (keys.zip (ps.zip dps)).map (fun ((pg, y, o), pt, dp) => ⟨pg, y, o, pt, mul32 pt (sub32 dp dsum),
    ovf || (dotAcc q (s.kvRow p l pg h y false) (s.kScale pg h)).2 || (anchFold dO (s.kvRow p l pg h y true).values).2⟩)

/-- What ATTEND_BWD computes: row by row dQ, dK and dV, dQ and dK times SCALE, and whether an accumulator overflowed
(R141). A row and a key that do not see each other take no index in the sums (DESIGN CHOICE, assumption 80). -/
def State.bwdGrads (s : State) (c : Ctx) (dOs q st : Slot) : List (List Nat) × List (List Nat) × List (List Nat) × Bool :=
  let j := c.tile
  let p := c.part
  let l := c.layerKv 12
  let d := c.dimF
  let e := s.execOf p c.slot
  let r := e.resv.getD (c.f 29 1) {}
  let n := c.f 20 4
  let rows := s.prefillRows c e r n 33
  let pend := (r.segs.zip (s.rowPositions p r r.segs)).map (fun (g, π) => RowEnt.mk 0 π g)
  let heads := List.range c.qHeads
  let dOf (x g : Nat) : List Num := (((s.slotRow j dOs x).values.drop (g * d)).take d)
  let qOf (x g : Nat) : Row := headOf (s.slotRow j q x) g d
  let hOf (g : Nat) : Nat := c.f 16 1 + g / max 1 c.groupF
  let work : List (Nat × Nat × List BwdKey) := (rows.mapIdx (fun x row => (x, row))).flatMap (fun (x, row) =>
    heads.map (fun g =>
      let stat := s.row32 j st x
      (x, g, s.bwdHead c l r pend ((s.seqPages c).getD []) x row (hOf g) (qOf x g) (dOf x g) (stat.getD (2 * g) nan32)
        (stat.getD (2 * g + 1) nan32))))
  let dq := (List.range n).map (fun x => heads.flatMap (fun g =>
    let ks := ((work.find? (fun w => w.1 == x && w.2.1 == g)).map (fun w => w.2.2)).getD []
    let kv := ks.map (fun k => (s.kvRow p l k.pg (hOf g) k.y false).values.map (fun v => v.mul (s.kScale k.pg (hOf g))))
    (List.range d).map (fun i => anchFold (ks.map (fun k => f32 k.ds)) (kv.map (fun v => v.getD i .nan)))))
  let grad (t hh : Nat) : List (Nat × Nat × BwdKey) := work.filterMap (fun (x, g, ks) =>
    if g / max 1 c.groupF = hh then (ks.find? (fun k => k.ord == some t)).map (fun k => (x, g, k)) else none)
  let dk := (List.range n).map (fun t => (List.range c.kvHeads).flatMap (fun hh =>
    let ws := grad t hh
    let qv := ws.map (fun (x, g, _) => (qOf x g).values)
    (List.range d).map (fun i => anchFold (ws.map (fun (_, _, k) => f32 k.ds)) (qv.map (fun v => v.getD i .nan)))))
  let dv := (List.range n).map (fun t => (List.range c.kvHeads).flatMap (fun hh =>
    let ws := grad t hh
    let ov := ws.map (fun (x, g, _) => dOf x g)
    (List.range d).map (fun i => anchFold (ws.map (fun (_, _, k) => f32 k.p)) (ov.map (fun v => v.getD i .nan)))))
  let ovf := work.any (fun w => w.2.2.any BwdKey.ovf) || (dq ++ dk ++ dv).any (fun l => l.any Prod.snd)
  let scaled (l : List (List (Nat × Bool))) : List (List Nat) := l.map (fun r => r.map (fun x => mul32 (c.f 24 4) x.1))
  (scaled dq, scaled dk, dv.map (fun r => r.map Prod.fst), ovf)

/-- ATTEND_BWD with its pages read: what it computes is written to the outputs it names. -/
def State.bwdEnd (s : State) (c : Ctx) : State :=
  let j := c.tile
  match s.ctxSlot c 8, s.ctxSlot c 9, s.ctxSlot c 10 with
  | some dOs, some q, some st =>
    s.withPages c (c.layerKv 12) (s.seqHandled c) (
      let g := s.bwdGrads c dOs q st
      let rs := List.range (c.f 20 4)
      let reads := dOs.spans j rs ++ q.spans j rs ++ st.spans j rs ++ ((s.ctxSlot c 33).map (fun g => g.allSpans j)).getD []
      (s.attnDrop j c.level c.thread).vecEnd c reads (fun t =>
        let put (u : State × NumEv) (off : Nat) (rows : List (List Nat)) : State × NumEv :=
          match s.ctxSlot c off with
          | some o => let (v, ev) := u.1.putRows j o 0 rows; (v, u.2.join ev)
          | none => u
        put (put (put (t, { accOvf := g.2.2.2 }) 11 g.1) 31 g.2.1) 32 g.2.2.1))
  | _, _, _ => s

/-! The end of an operator that waited for the yarder. -/

/-- An attention operator whose pages have come, and whose Thapel results have all been delivered, goes on (R135). -/
def State.attnEnd (s : State) (c : Ctx) : State :=
  if (s.thr c.tile c.level c.thread).st != .steps ||
      (Tbl.get [] s.attn (thrKey c.tile c.level c.thread)).any (fun a => decide (a.got.length < a.steps.length)) then s
  else if c.opcode = 3 then s.withArrays c (s.prefillEnd c)
  else if c.opcode = 5 then s.withArrays c (s.bwdEnd c)
  else s.decodeEnd c

/-- What an operator does once its last request has completed. -/
def State.afterIo (s : State) (c : Ctx) : State :=
  if c.opcode = 0x0A then s.dispatchEnd c
  else if c.opcode = 0x0B then s.combineEnd c
  else if c.opcode = 0x0D then s.embedEnd c
  else if c.opcode = 0x10 then s.endWritten c
  else if c.opcode = 3 ∨ c.opcode = 4 ∨ c.opcode = 5 then
    (s.onThr c.tile c.level c.thread (fun h => { h with st := .steps })).attnEnd c
  else s.opDone c

/-- An operator whose last request has completed goes on. -/
def State.yarderEnd (s : State) (c : Ctx) : State :=
  let h := s.thr c.tile c.level c.thread
  if h.st = .yarder ∧ h.reqs = [] ∧ h.outst = 0 then s.afterIo c else s

/-! The start of the attention operators. -/

/-- The pages of an operator's sessions are pinned and the tile's own are asked for: session index, Thapel or not, pages, steps.
A dropped page ends the operator with cause 0x07; it waits while a pin is held (R135, R158, R159). -/
def State.readPages (s s0 : State) (c : Ctx) (l : Nat) (xs : List (Nat × Bool × Option (List APage) × List Step)) : State :=
  let pgs := xs.flatMap (fun x => (x.2.2.1.getD []).map APage.page)
  if xs.any (fun x => x.2.2.1.isNone) || pgs.any s.pageGone then s.opFault c 0x07
  else match s.pinAll pgs with
    | none => s0.waitUnit c
    | some t =>
      let steps := (xs.flatMap (fun x => x.2.2.2)).mapIdx (fun i x => { x with tag := (t.stepNo + i) % 65536 })
      ((((t.withThapWait (t.thapWait ++ steps)).withStepNo (t.stepNo + steps.length)).withAttn (Tbl.put [] t.attn
        (thrKey c.tile c.level c.thread) (xs.map (fun x => ⟨x.1, (x.2.2.1.getD []).map APage.page,
          (steps.filter (fun y => y.sess == x.1)).map Step.tag, []⟩)))).request c
        (xs.flatMap (fun x => if x.2.1 then [] else (x.2.2.1.getD []).flatMap (fun a => s.pageReqs c.part l a.page)))).yarderEnd c

/-- An operator over one session's pages: first it asks for them, then, with its arrays, `k` (R105, R159). -/
def State.seqOp (s : State) (c : Ctx) (k : State) : State :=
  if Tbl.get [] s.attn (thrKey c.tile c.level c.thread) = [] then s.readPages s c (c.layerKv 12) [(0, false, s.seqPages c, [])]
  else s.withArrays c k

/-- ATTEND_PREFILL (R105): the operator reads its pages, acquires its array or gang and runs. -/
def execAttendPrefill (tile : Nat) (start : VecStart) (s : State) : Host.Outcome State Fault Refusal :=
  ok (threadOk tile start.thread) s (s.startVec 0x03 tile start.thread start.parity (fun c => s.seqOp c (s.prefillEnd c)))

/-- ATTEND_DECODE at a thread's descriptor: the path of each session is chosen and counted, its pages are pinned, and its
thread waits for pages and results as on a miss. -/
def State.decodeOp (s : State) (c : Ctx) : State :=
  let j := c.tile
  let l := c.layerKv 12
  let e := s.execOf c.part c.slot
  let sis := List.range (c.f 21 1)
  match s.ctxSlot c 8 with
  | none => s
  | some q =>
    let res (si : Nat) : Resv := e.resv.getD si {}
    let th := sis.filter (fun si => s.onThapel c l (res si))
    let s1 := (s.fcountN ATTN_COUNT.THAPEL_PARTS j 0 th.length).fcountN ATTN_COUNT.TILE_PARTS j 0 (sis.length - th.length)
    let s2 := s1.flagIf ATTN_EVENT.THAPEL_FORCED j (c.f 22 1 == 2 && th.any (fun si => !s.thin c l (res si)))
    s2.readPages s c l (sis.map (fun si =>
      let pages := s.decodePages c l si
      (si, th.contains si, pages, if th.contains si then
        ((pages.getD []).mapIdx (fun i a => s.stepsOf c l (res si) q si i (s.decodeRows c e (res si) si (c.f 20 1)) a)).flatten
        else [])))

/-- ATTEND_DECODE. -/
def execAttendDecode (tile : Nat) (start : VecStart) (s : State) : Host.Outcome State Fault Refusal :=
  ok (threadOk tile start.thread) s (s.startVec 0x04 tile start.thread start.parity s.decodeOp)

/-- ATTEND_BWD. -/
def execAttendBwd (tile : Nat) (start : VecStart) (s : State) : Host.Outcome State Fault Refusal :=
  ok (threadOk tile start.thread) s (s.startVec 0x05 tile start.thread start.parity (fun c =>
    s.seqOp c (s.bwdEnd c)))

end Sys2Proof.Machine
end

