-- ==== Sys2Proof/Machine/Regulate.lean ====
section
/-!
DEFINITION. Bandwidth regulation (chapter 9): window boundaries, the release of a port's requests, urgency, scaling.
-/

namespace Sys2Proof.Machine

/-- The tiles of a hub go on issuing what an account's boundary has let go (Table 9.2). -/
def State.issueHeld (s : State) (h m : Nat) : State := if m < 16 then s.issueAll (16 * h + m) else s

/-- WINDOW_BOUNDARY (R244): the account's budgets are reset; requests held for it go, a tile yarder's too. A Thapel account's channels each have
their own (R243). -/
def execWindowBoundary (hub acct : Nat) (s : State) : Host.Outcome State Fault Refusal :=
  ok (hubOk hub && acct < 144) s
    (if acct < 128 then
      match s.acctCfg hub acct with
      | some a =>
        let m := s.fget BWR_ACCT.MASTER hub acct
        (s.boundaryOf hub (acctKey hub acct) a (s.urgency hub m)).issueHeld hub m
      | none => s
     else
      match s.thapelCfg hub (acct - 128) with
      | some a => ((s.poolChans (acct - 128)).filter (fun c => hubOfChan c == hub)).foldl (fun t c =>
          t.boundaryOf hub (thapelKey c) a (t.thapelUrgency c)) s
      | none => s)

/-- The host port's ingress buffer is full for a partition: 64 KiB of held requests (Table 9.2). -/
def State.hostShare (s : State) (h master key : Nat) : State :=
  if master = 20 ∧ (s.acct key).held.sum ≥ 65536 then s.evt BWR_EVENT.HOST_STALL h 0 1 none else s

/-- REQUEST_RELEASE (R245): a request is charged and released, or held until the account's next boundary; a boundary that has
come is taken first (R255). A pair without an account has no guarantee and unlimited best effort (R242). The answer names the
level at which a released request travels (Table 9.3). -/
def execRequestRelease (hub master part bytes : Nat) (s : State) : Host.Outcome State Fault Refusal :=
  ok (hubOk hub && decide (master < 22) && partOk part) s
    (match s.account hub master part with
     | none => s.answer .ok (natLE 1 (Acct.level {} (s.urgency hub master)))
     | some k =>
       match s.acctCfg hub k with
       | none => s.answer .ok (natLE 1 (Acct.level {} (s.urgency hub master)))
       | some a =>
         let key := acctKey hub k
         let u := s.urgency hub master
         let s1 := s.boundaryOf hub key a u
         if (s1.acct key).held = [] ∧ (s1.acct key).may a u = true then
           (s1.charge hub key a u bytes).answer .ok (natLE 1 ((s1.acct key).level u))
         else ((s1.onAcct key (fun x => { x with held := x.held ++ [bytes] })).hostShare hub master key).answer .none [])

/-- The urgency level of a fill in per cent (R249). -/
def urgencyOf (fill : Nat) : Nat := if fill < 50 then 0 else if fill < 75 then 1 else if fill < 90 then 2 else 3

/-- URGENCY_SAMPLE (R249): the master's level follows its buffer; a request that now has allowance is released (R255). -/
def execUrgencySample (hub master fill : Nat) (s : State) : Host.Outcome State Fault Refusal :=
  ok (hubOk hub && decide (16 ≤ master) && decide (master ≤ 20)) s
    (let u := urgencyOf fill
     let s1 := if master = 20 then (if hub % 2 = 0 then s.fset BWR_URGENCY.HOST hub 0 u else s)
       else s.fsetAt BWR_URGENCY.FAB0 hub 0 (2 * (master - 16)) u
     (List.range 128).foldl (fun t k =>
       if t.fget BWR_ACCT.VALID hub k = 1 ∧ t.fget BWR_ACCT.MASTER hub k = master then
         match t.acctCfg hub k with
         | some a => t.releaseHeld hub (acctKey hub k) a (t.urgency hub master) (t.acct (acctKey hub k)).held.length
         | none => t
       else t) s1)

/-- SCALE_UPDATE (R252, R253): FACTOR follows HUB_DELIV; crossing 1,024 reports the shortfall's start or end. -/
def execScaleUpdate (hub : Nat) (s : State) : Host.Outcome State Fault Refusal :=
  ok (hubOk hub) s
    (let d := s.fget HUB_DELIV.GBPS hub 0
     let g := s.fget BWR_GUAR_SUM.GBPS hub 0
     let f := if g = 0 then 1024 else min 1024 (1024 * d / g)
     let old := s.fget BWR_SCALE.FACTOR hub 0
     let s1 := s.fset BWR_SCALE.FACTOR hub 0 f
     let r : ErrRec := { sev := 4, src := 12, info0 := f, info1 := d + 2 ^ 32 * g }
     if f < 1024 ∧ old = 1024 then (s1.evt BWR_EVENT.SHORTFALL_START hub 0 1 none).record hub { r with cause := 0x40 }
     else if f = 1024 ∧ old < 1024 then (s1.evt BWR_EVENT.SHORTFALL_END hub 0 1 none).record hub { r with cause := 0x41 }
     else s1)

end Sys2Proof.Machine
end

