-- ==== Sys2Proof/Machine/Thapel.lean ====
section
/-!
DEFINITION. The Thapel units (chapter 8): modes of a channel, page steps and their results, yield points and held accesses,
refresh, unit faults.
-/

namespace Sys2Proof.Machine

/-- A channel. -/
def State.chan (s : State) (c : Nat) : Chan := Tbl.get {} s.chans c

/-- The state with a channel changed. -/
def State.onChan (s : State) (c : Nat) (f : Chan → Chan) : State := { s with chans := Tbl.upd {} s.chans c f }

/-- A channel's number on its hub. -/
def localChan (c : Nat) : Nat := c % 192

/-- The band of a channel's stack: 0 A, 1 B, 2 C (Table 7.5). -/
def State.bandOf (s : State) (c : Nat) : Nat := s.fgetAt HUB_BAND.STACK0 (hubOfChan c) 0 (2 * (localChan c / 32))

/-- The refresh interval of a band in ns (Table 8.2). -/
def refreshInterval (band : Nat) : Nat := if band = 0 then 3900 else if band = 1 then 1950 else 975

/-- The channel's mode as THAPEL_MODE shows it. -/
def State.setProc (s : State) (c : Nat) (b : Bool) : State :=
  s.fbitSet THAPEL_MODE.PROC (hubOfChan c) (localChan c / 32) (localChan c % 32) b

/-- The channel is out of service for Thapel work. -/
def State.oos (s : State) (c : Nat) : Bool := s.fbit THAPEL_OOS.OOS (hubOfChan c) (localChan c / 32) (localChan c % 32)

/-! The layouts of Tables 8.3, 8.4 and 8.6. -/

/-- The operation descriptor of a step (Table 8.3). -/
def Step.bytes (x : Step) : List Byte :=
  natLE 1 x.op ++ natLE 1 (bit x.pending + 2 * bit x.segTest) ++ natLE 1 x.rows ++ natLE 1 x.heads ++ natLE 1 x.head0 ++
    natLE 1 x.geom ++ natLE 2 x.tag ++ natLE 4 (x.frame % 2 ^ 20) ++ natLE 4 x.n ++ natLE 4 x.window ++ natLE 4 x.scaleC ++
    natLE 2 x.qOff ++ natLE 1 x.qfmt ++ natLE 1 x.group ++ natLE 2 x.tabOff ++ natLE 2 0 ++ natLE 4 x.pendFirst ++
    natLE 1 x.row0 ++ natLE 1 x.tab.length ++ natLE 26 0

/-- A row-table entry (Table 8.4). -/
def RowEnt.bytes (e : RowEnt) : List Byte := natLE 16 e.bitmap ++ natLE 4 e.pos ++ natLE 2 e.seg ++ natLE 10 0

/-- The entry that 32 bytes spell. -/
def rowOf (bs : List Byte) : RowEnt := ⟨leNat (bs.take 16), leNat ((bs.drop 16).take 4), leNat ((bs.drop 20).take 2)⟩

/-- What the hub writes into the query buffer for a step: its query vectors and its row table (R220, R224). -/
def Step.buffer (x : Step) : List Byte := x.qs.flatten ++ (x.tab.map RowEnt.bytes).flatten

/-- A result record header (Table 8.6). -/
def Result.header (r : Result) : List Byte :=
  natLE 1 r.status ++ natLE 1 r.step.op ++ natLE 2 r.step.tag ++ natLE 4 (r.step.frame % 2 ^ 20) ++ natLE 1 r.step.rows ++
    natLE 1 r.step.heads ++ natLE 1 r.step.group ++ natLE 1 0 ++ natLE 4 r.visible ++ natLE 4 r.sealRead ++
    natLE 4 r.sealCalc ++ natLE 8 r.stamp

/-- What a half of the result buffer holds: the header, and for ATTEND_PAGE the records, each FP32 value in 4 B (R231). -/
def Result.bytes (r : Result) : List Byte := r.header ++ (r.recs.flatten.map (natLE 4)).flatten

/-! Steps and their parts. -/

/-- The attention operator that a step belongs to. -/
def State.stepCtx (s : State) (x : Step) : Option Ctx := s.opOf x.part x.level (s.inst x.part x.level) x.tile x.thread

/-- The step's result is still waited for. -/
def State.stepLive (s : State) (x : Step) : Bool :=
  (Tbl.get [] s.attn (thrKey x.tile x.level x.thread)).any (fun a => a.sess == x.sess && a.steps.contains x.tag)

/-- A step that ended otherwise than OK ends its part with cause 0x07 (Table 8.7). -/
def State.stepFails (s : State) (x : Step) : State :=
  if x.op = 1 ∧ s.stepLive x = true then
    match s.stepCtx x with
    | some c => s.failIo c 0x07
    | none => s.attnDrop x.tile x.level x.thread
  else s

/-- The page of a step that failed is dropped as by a seal failure (R176); a pending page is not. -/
def State.stepDrops (s : State) (x : Step) : State :=
  if x.pending then s else s.sealFail x.part x.layer x.page x.handle 9

/-- The pin that a SEAL_VERIFY step holds on its page goes. -/
def State.verifyUnpin (s : State) (x : Step) : State := if x.op = 2 then s.unpin x.page else s

/-- The pin of the page that a running step has read: the scrub's, or one that an abort or a failed part left (R159). -/
def State.stepUnpin (s : State) (x : Step) : State := if x.op = 1 ∧ s.stepLive x = true then s else s.unpin x.page

/-- A step ends OUT_OF_SERVICE. -/
def State.stepOos (s : State) (x : Step) : State := ((s.stepDrops x).verifyUnpin x).stepFails x

/-- The session of a refused step falls back to the tile path: it waits for no step, and the tile reads its pages, which stay
pinned (Table 13.2). -/
def State.tilePath (s : State) (c : Ctx) (x : Step) : State :=
  let key := thrKey x.tile x.level x.thread
  let ps := ((Tbl.get [] s.attn key).filter (fun a => a.sess == x.sess)).flatMap AttnPart.pages
  let s1 := s.withAttn (Tbl.upd [] s.attn key (fun l => l.map (fun a =>
    if a.sess = x.sess then { a with steps := [], got := [] } else a)))
  (State.issueAll (s1.onThr x.tile x.level x.thread (fun h =>
    { h with st := .yarder, reqs := h.reqs ++ ps.flatMap (s.pageReqs x.part x.layer) })) x.tile).yarderEnd c

/-- A refused step is not queued; the other steps of its session go with it (Table 13.2). -/
def State.stepRefused (s : State) (x : Step) : State :=
  let s1 := s.refusal x.part .thapel 4 (s.physOf x.chan (x.frame * s.frameSize x.part))
  if x.op ≠ 1 then s1.verifyUnpin x
  else
    let mine (y : Step) : Bool := y.ofThr x.tile x.level x.thread && y.sess == x.sess
    let s2 := (s1.withThapWait (s1.thapWait.filter (fun y => !mine y))).withChans
      (s1.chans.map (fun (k, h) => (k, { h with queue := h.queue.filter (fun y => !mine y) })))
    match s2.stepCtx x with
    | some c => s2.tilePath c x
    | none => s2

/-- Bytes that a step's page read takes (R230). -/
def State.stepBytes (s : State) (x : Step) : Nat := 256 + s.layerBytes x.part x.layer

/-- The Thapel account of a step's partition lets it start (R247); none has no bound. -/
def State.stepMay (s : State) (x : Step) : Bool :=
  match s.thapelCfg (hubOfChan x.chan) x.part with
  | none => true
  | some a => (s.acct (thapelKey x.chan)).may a (s.thapelUrgency x.chan)

/-- The channel's next queued step starts, if it may. -/
def State.startStep (s : State) (c : Nat) : State :=
  let h := s.chan c
  match h.running, h.queue with
  | none, x :: rest =>
    if h.mode = .processor ∧ s.stepMay x = true then
      let s1 := match s.thapelCfg (hubOfChan c) x.part with
        | some a => s.charge (hubOfChan c) (thapelKey c) a (s.thapelUrgency c) (s.stepBytes x)
        | none => s
      s1.onChan c (fun h => { h with queue := rest, running := some x, closed := none, retried := false, qbuf := x.buffer })
    else s
  | _, _ => s

/-- THAPEL_STEP_QUEUE (R220, R222): the next page step that waits for a channel is queued, if its queue has room and the map
grants T; a channel in memory mode begins its entry, and from then on holds ordinary accesses. -/
def execThapelStepQueue (hub chan : Nat) (s : State) : Host.Outcome State Fault Refusal :=
  ok (hubOk hub && chanOk chan) s
    (if hubOfChan chan ≠ hub ∨ s.ingressOpen = false then s
     else match s.thapWait.find? (fun x => x.chan == chan) with
      | none => s
      | some x =>
        if (s.chan chan).queue.length ≥ 64 then s
        else
          let s1 := (s.withThapWait (s.thapWait.erase x))
          let a := s.physOf chan (x.frame * s.frameSize x.part)
          if !s.admits x.part .thapel 4 a (s.frameSize x.part) then s1.stepRefused x
          else if s.oos chan then s1.stepOos x
          else
            (s1.onChan chan (fun h =>
              { h with queue := h.queue ++ [{ x with queued := s.time }]
                       mode := if h.mode = .memory then .entering else h.mode
                       held := h.held ++ h.bankQ, bankQ := []
                       left := if h.mode = .memory then s.time else h.left })).startStep chan)

/-- Some yarder request issued before the channel stopped taking new ones is still outstanding there (R220). -/
def State.drainLeft (s : State) (c : Nat) : Bool :=
  s.tags.any (fun (_, t) => t.busy && !t.held && chanOfPlace t.rq.place == some c)

/-- PROCESSOR_MODE_ENTRY (R220): the ordinary requests have drained; the channel enters processor mode and its first step
starts. -/
def execProcessorModeEntry (chan : Nat) (s : State) : Host.Outcome State Fault Refusal :=
  ok (chanOk chan) s
    (let h := s.chan chan
     if (h.mode = .entering ∨ (h.mode = .memory ∧ (h.queue.head?.map s.stepMay) = some true)) ∧ s.drainLeft chan = false then
       (((s.onChan chan (fun h => { h with mode := .processor, lastYield := s.time, lingerFrom := s.time })).setProc chan
         true).fcount THAPEL_COUNT2.MODE_ENTRIES (hubOfChan chan) 0).startStep chan
     else s)

/-! What the units compute. -/

/-- Phase 1 ends the step with HEADER (R228). -/
def State.headerBad (s : State) (x : Step) : Bool :=
  let f := s.hdr x.page 18 1
  f.testBit 2 || s.hdr x.page 19 1 != x.geom || f.testBit 3 != x.pending

/-- The status with which a step's page read closes (R228, R229). -/
def State.stepStatus (s : State) (x : Step) : Nat :=
  if s.headerBad x then 3
  else if s.pageUe x.part x.layer x.page then 2
  else if !x.pending && s.hdr x.page 0 4 != s.sealCalc x.part x.layer x.page then 1
  else 0

/-- Row `n` of the row table in the channel's query buffer (R224). -/
def State.bufRow (s : State) (x : Step) (n : Nat) : RowEnt := rowOf (((s.chan x.chan).qbuf.drop (64 * x.tabOff + 32 * n)).take 32)

/-- Query vector `i` of the channel's query buffer, as the number its bytes spell (R224). -/
def State.bufVec (s : State) (x : Step) (f : Fmt) (d i : Nat) : Nat :=
  leNat (((s.chan x.chan).qbuf.drop (64 * x.qOff + i * queryBytes f d)).take (queryBytes f d))

/-- The key of slot `y` for a step, and whether it is present for node `r` (R228). -/
def State.stepKey (s : State) (x : Step) (r : RowEnt) (y : Nat) : Option Key :=
  let t := s.pageT x.part
  let ring := s.hdr x.page 16 2
  if x.pending then
    let n := x.pendFirst + y
    if n < x.tab.length ∧ r.bitmap.testBit n = true then some ⟨(s.bufRow x n).pos, (s.bufRow x n).seg, none⟩ else none
  else if ring = 0xFFFF then
    (if y < s.hdr x.page 12 2 then some ⟨s.hdr x.page 8 4 + y, s.hdr x.page 14 2, none⟩ else none)
  else (ringPos x.n x.window (ring * t + y)).map (fun π => ⟨π, 0, none⟩)

/-- A query vector as a row. -/
def vecRow (f : Fmt) (d v : Nat) : Row :=
  ⟨(unpack f v d).map f.value,
    if f.block then (List.range (d / 32)).map (fun i => f.scale (fld v (f.packed d + i) 1)) else [], false⟩

/-- Slot `y` of a step's page holds a key that node `row` sees (R228). -/
def State.stepSees (s : State) (x : Step) (row : RowEnt) (y : Nat) : Bool :=
  match s.stepKey x row y with
  | some k => (!x.segTest || k.seg == row.seg) && (x.window == 0 || decide (row.pos < k.pos + x.window))
  | none => false

/-- The records of a step, in the order KV head, node, query head (R227, R231). -/
def State.stepRecords (s : State) (x : Step) : List (List Nat) :=
  let d := s.layerD x.part x.layer
  let f := (fmtOf x.qfmt).getD .e4m3
  (List.range x.heads).flatMap (fun hh => (List.range x.rows).flatMap (fun n => (List.range x.group).map (fun g =>
    let q := vecRow f d (s.bufVec x f d ((hh * x.rows + n) * x.group + g))
    let r := (s.record1 x.part x.layer x.page (x.head0 + hh) x.scaleC q (s.stepSees x (s.bufRow x (x.row0 + n)))).1
    r.m :: r.l :: r.o)))

/-- The visible keys summed over all rows of a step. -/
def State.stepVisible (s : State) (x : Step) : Nat :=
  ((List.range x.rows).map (fun n => ((List.range (s.pageT x.part)).filter (s.stepSees x (s.bufRow x (x.row0 + n)))).length)).sum

/-- What a step that closes with a status writes into its half of the result buffer (R229, R231). -/
def State.stepResult (s : State) (x : Step) (st : Nat) : Result :=
  let good := st = 0 ∧ x.op = 1
  ⟨x, st, if good then s.stepRecords x else [], if good then s.stepVisible x else 0, s.hdr x.page 0 4,
    s.sealCalc x.part x.layer x.page, s.time⟩

/-- The running step closes: a failed page is dropped, the result goes to a free half, its latency is observed (R159, R229, R231, R254). It stalls while neither half is free (R230). -/
def State.closeStep (s : State) (c : Nat) (x : Step) : State :=
  if (s.chan c).closed.isSome ∨ (s.chan c).halves.length ≥ 2 then s
  else
    let st := s.stepStatus x
    let h := hubOfChan c
    let s1 := if st = 2 then s.evt THAPEL_EVENT.ODEC_UE h 0 1 (some x.part) else s
    let s2 := if st = 0 then s1
      else if x.pending then
        (if st = 2 then s1.readRange 9 (some x.part) 2 {} (s1.pageAt x.page 0) (512 + s1.layerBytes x.part x.layer) else s1)
      else s1.stepDrops x
    let s3 := if x.op = 2 then s2.fcount ERR_SCRUB_STATUS.SEAL_VERIFIES h 0 else s2
    ((s3.observe h (128 + x.part) (s.time - x.queued)).stepUnpin x).onChan c (fun k =>
      { k with closed := some st, halves := k.halves ++ [s.stepResult x st] })

/-- A step of `s` that ran on a channel may have released the last pin a command waited for (R159). -/
def State.afterStep (s t : State) (chan : Nat) : State :=
  match (s.chan chan).running with
  | some x => t.finishEndings x.part
  | none => t

/-- ATTEND_PAGE (R226, R227): the running step computes its page records. -/
def execAttendPage (chan : Nat) (s : State) : Host.Outcome State Fault Refusal :=
  ok (chanOk chan) s
    (match (s.chan chan).running with
     | some x => if x.op = 1 then s.afterStep (s.closeStep chan x) chan else s
     | none => s)

/-- SEAL_VERIFY (R223, R229): the running step reads its page and checks header and seal. -/
def execSealVerify (chan : Nat) (s : State) : Host.Outcome State Fault Refusal :=
  ok (chanOk chan) s
    (match (s.chan chan).running with
     | some x => if x.op = 2 then s.closeStep chan x else s
     | none => s)

/-! Yield points (R233), unit faults (R238). -/

/-- Up to `n` held accesses are served in arrival order. -/
def State.serveN (s : State) (c : Nat) : Nat → State
  | 0 => s
  | n + 1 =>
    match (s.chan c).held with
    | [] => s
    | h :: rest => State.serveN ((s.onChan c (fun k => { k with held := rest })).serveHeld c h) c n

/-- What a channel does at a yield point: due refreshes, up to 16 held accesses, the next step (R233). -/
def State.yieldTail (s : State) (c : Nat) : State :=
  ((s.onChan c (fun k => { k with due := [], lastYield := s.time, lingerFrom := s.time })).serveN c 16).startStep c

/-- A channel is marked out of service: the running step and every queued one end OUT_OF_SERVICE (R238). -/
def State.markOos (s : State) (c : Nat) (x : Step) : State :=
  let h := hubOfChan c
  let s1 := ((s.fbitSet THAPEL_OOS.OOS h (localChan c / 32) (localChan c % 32) true).evt THAPEL_EVENT.OOS_SET h 0 1
    (some x.part)).record h { cause := 0x47, sev := 4, src := 9, part := some x.part, unit := c, info0 := localChan c }
  let q := (s1.chan c).queue
  let s2 := s1.onChan c (fun k => { k with queue := [], running := none, closed := none })
  let s3 := if x.op = 1 ∧ s2.stepLive x = false then s2.unpin x.page else s2
  (x :: q).foldl (fun t y => t.stepOos y) s3

/-- A step ends UNIT_FAULT or HANG: it runs once more, or its channel goes out of service (R236, R238). -/
def State.unitFault (s : State) (c : Nat) (x : Step) : State :=
  if (s.chan c).retried then s.markOos c x
  else (s.onChan c (fun k => { k with retried := true, closed := none })).fcount THAPEL_COUNT.UNIT_RETRIES (hubOfChan c) 0

/-- YIELD_POINT (R232, R233): the closed step ends with what its status asks; or, where the units' checks failed, UNIT_FAULT;
then refreshes, held accesses and the next step. -/
def execYieldPoint (chan : Nat) (unitFault : Bool) (s : State) : Host.Outcome State Fault Refusal :=
  ok (chanOk chan) s
    (let h := s.chan chan
     if h.mode ≠ .processor then s
     else match h.running with
      | none => s.yieldTail chan
      | some x =>
        match h.closed with
        | some st =>
          let s1 := s.onChan chan (fun k => { k with running := none, closed := none })
          (if st = 0 then s1 else s1.stepFails x).yieldTail chan
        | none =>
          if unitFault ∧ h.halves.length < 2 then
            s.afterStep ((((s.onChan chan (fun k => { k with halves := k.halves ++ [s.stepResult x 4] })).evt
              THAPEL_EVENT.UNIT_FAULT (hubOfChan chan) 0 1 (some x.part)).unitFault chan x).yieldTail chan) chan
          else s)

/-- RESULT_BUFFER_DRAIN (R230, R232): the hub empties the older full half; OK records wait for the merge of R130, and the
last of a part's completes its operator. -/
def execResultBufferDrain (chan : Nat) (s : State) : Host.Outcome State Fault Refusal :=
  ok (chanOk chan) s
    (match (s.chan chan).halves with
     | [] => s
     | r :: rest =>
       let x := r.step
       let s1 := s.onChan chan (fun k => { k with halves := rest })
       if x.op = 1 ∧ r.status = 0 ∧ s1.stepLive x = true then
         let s2 := (s1.withAttn (Tbl.upd [] s1.attn (thrKey x.tile x.level x.thread) (fun (l : List AttnPart) =>
           l.map (fun (a : AttnPart) => if a.sess = x.sess then AttnPart.mk a.sess a.pages a.steps (a.got ++ [r]) else a))))
         match s2.stepCtx x with
         | some c => s2.attnEnd c
         | none => s2
       else s1)

/-- LINGER_EXPIRY (R221): a processor-mode channel without a step to run returns to memory mode after LINGER_NS: due
refreshes are issued and every held access is released in order. -/
def execLingerExpiry (chan : Nat) (s : State) : Host.Outcome State Fault Refusal :=
  ok (chanOk chan) s
    (let h := s.chan chan
     let empty := match h.queue with
       | [] => true
       | x :: _ => !s.stepMay x
     if h.mode = .processor ∧ h.running = none ∧ empty = true ∧
         s.time ≥ h.lingerFrom + s.fget THAPEL_CTL.LINGER_NS (hubOfChan chan) 0 then
       let s1 := (s.onChan chan (fun k => { k with mode := .memory, due := [] })).setProc chan false
       s1.serveN chan h.held.length
     else s)

/-- CHANNEL_BUSY (R234): a tile's or host's read held for 50 µs is returned channel-busy. -/
def execChannelBusy (chan idx : Nat) (s : State) : Host.Outcome State Fault Refusal :=
  ok (chanOk chan) s
    (match (s.chan chan).held[idx]? with
     | none => s
     | some h =>
       let host := match h.rq.src with
         | .host _ _ => true
         | _ => false
       let mine := match h.rq.src with
         | .host _ _ | .tile _ _ | .runAhead _ => true
         | _ => false
       if h.write || !mine || decide (s.time < h.since + 50000) then s
       else
         let u := hubOfChan chan
         let s0 := s.fset THAPEL_HELD_MAX.MAX_NS u 0
           (min 0xFFFFF (max (s.fget THAPEL_HELD_MAX.MAX_NS u 0) (s.time - h.since)))
         let s1 := ((s0.onChan chan (fun k => { k with held := k.held.eraseIdx idx })).evt THAPEL_EVENT.CHAN_BUSY u 0 1
           (some h.rq.part)).fcount THAPEL_COUNT2.CHAN_BUSY u 0
         let s2 := if s1.fget THAPEL_BUSY_REC.VALID u 0 = 1 then s1
           else ((s1.fset THAPEL_BUSY_REC.CHANNEL u 0 (localChan chan)).fset THAPEL_BUSY_REC.REQUESTER u 0
             (if host then 1 else 0)).fset THAPEL_BUSY_REC.VALID u 0 1
         match h.rq.src, h.yard with
         | _, some (j, g, gen, _) => if (s2.tag j g).gen = gen ∧ (s2.tag j g).busy then s2.tagTimeout j g else s2
         | .host _ _, none =>
           (s2.record u { cause := 0x0A, sev := 2, src := 4, part := some h.rq.part, unit := chan, addr := h.rq.addr
                          pos := 0xFFFF, info0 := s.time - h.since }).answer .abort []
         | .runAhead j, none => (s2.fcount TILE_YARD_COUNT.RUNAHEAD_SUPPRESSED j 0).answer .channelBusy []
         | _, none => s2.answer .channelBusy [])

/-- THAPEL_HANG (R236): no yield point within HANG_US; refreshes are issued and the running step closes with HANG. -/
def execThapelHang (chan : Nat) (s : State) : Host.Outcome State Fault Refusal :=
  ok (chanOk chan) s
    (let h := s.chan chan
     match h.running with
     | some x =>
       if h.mode = .processor ∧ h.closed = none ∧ s.time ≥ h.lastYield + s.fget THAPEL_CTL.HANG_US (hubOfChan chan) 0 * 1000 then
         s.afterStep ((((s.evt THAPEL_EVENT.HANG (hubOfChan chan) 0 1 (some x.part)).onChan chan (fun k =>
           { k with due := [], lastYield := s.time })).unitFault chan x).startStep chan) chan
       else s
     | none => s)

/-! Refresh (R209, R217, R237). -/

/-- REFRESH: a refresh interval of the channel's band ends. In memory mode the refresh is issued; otherwise it becomes due,
with a deadline of eight intervals. -/
def execRefresh (chan : Nat) (s : State) : Host.Outcome State Fault Refusal :=
  ok (chanOk chan) s
    (let h := s.chan chan
     let i := refreshInterval (s.bandOf chan)
     if s.time < h.refreshAt then s
     else s.onChan chan (fun k =>
       { k with refreshAt := s.time + i
                due := if h.mode = .processor then k.due ++ [s.time + 8 * i] else k.due }))

/-- REFRESH_ABANDON (R237): a refresh reaches its deadline while a step runs: the step is abandoned, that refresh is issued, the
others wait for the next yield point, and the step starts again. -/
def execRefreshAbandon (chan : Nat) (s : State) : Host.Outcome State Fault Refusal :=
  ok (chanOk chan) s
    (let h := s.chan chan
     if h.running.isSome ∧ h.closed = none ∧ h.due.any (fun t => decide (t ≤ s.time)) = true then
       ((s.onChan chan (fun k => { k with due := k.due.filter (fun t => decide (s.time < t)) })).evt THAPEL_EVENT.REFRESH_ABANDON (hubOfChan chan) 0 1
         (h.running.map Step.part)).fcount THAPEL_COUNT.ABANDONS (hubOfChan chan) 0
     else s)

end Sys2Proof.Machine
end

