-- ==== Sys2Proof/Machine/Instances.lean ====
section
/-!
DEFINITION. RUN_GRAPH and its instances (R93, R94, R115, R161 to R177, R305, R306, R310 to R314): the checks of stage 2,
reservation and suspension, the input blocks, regrowth, the start, end and abort of an instance, the commit.
-/

namespace Sys2Proof.Machine

/-! Handles (R310). -/

/-- The byte of the entry where handle `i` begins (Tables 12.1, 12.5). -/
def handleOff (i : Nat) : Nat := if i = 0 then 4 else 32 + 4 * i

/-- What the check of handle `i` answers: nothing, or status and DETAIL. -/
def State.checkHandle (s : State) (p i h : Nat) : Option (Nat × Nat) :=
  let slot := h % 32768
  if h.testBit 15 then some (0x06, handleOff i + 1)
  else if !s.slotIn p slot then some (0x05, 4)
  else if s.recBad p slot || s.srec p slot 2 1 != 1 || s.srec p slot 0 2 != h / 65536 then some (0x04, i)
  else none

/-- An engine reads a session record (R265, R276). -/
def State.touchRec (s : State) (src p slot : Nat) : State :=
  if s.slotIn p slot then s.engSee src p (s.recAt p slot 0) 512 else s

/-- The handles are checked in turn. -/
def State.checkHandles (s : State) (p : Nat) : Nat → List Nat → State × Option (Nat × Nat)
  | _, [] => (s, none)
  | i, h :: hs =>
    let t := if h.testBit 15 then s else s.touchRec 7 p (h % 32768)
    match s.checkHandle p i h with
    | some r => (t, some r)
    | none => t.checkHandles p (i + 1) hs

/-! Suspension (R168). -/

/-- The n-th suspension, if the command is suspended. -/
def Exec.suspNo (e : Exec) : Option Nat :=
  match e.stage with
  | .suspended n => some n
  | _ => none

/-- A suspended command of the partition goes before command `x`: of a higher class, or of the same class and suspended
earlier; or, for one not yet suspended, of the same or a higher class. -/
def State.queuedBefore (s : State) (p x : Nat) : Bool :=
  let e := s.execOf p x
  let c := s.deckClass e.deck
  (s.partExecs p).any (fun (y, o) => y != x && (match o.suspNo with
    | none => false
    | some n =>
      let k := s.deckClass o.deck
      decide (k > c) || (k == c && (match e.suspNo with
        | some m => decide (n < m)
        | none => true))))

/-- The partition's frames are made to suffice for a command that needs `need`, by coppicing if they do not (R168);
answered with whether they do. -/
def State.framesFor (s : State) (p x need : Nat) : State × Bool :=
  if need = 0 then (s, true)
  else if s.queuedBefore p x then (s, false)
  else
    let t := s.coppiceFor p need
    (t, decide (t.freeCount p ≥ need))

/-- The command is suspended for frames: `handle` names the session whose frames lack, `lack` how many. The event and the record
are those of the partition's home hub (R187 does not say whose; DESIGN CHOICE, assumption 82). -/
def State.suspend (s : State) (p x handle lack : Nat) : State :=
  if (s.execOf p x).suspNo.isSome then s
  else
    let h := s.homeHub p
    let s1 := (s.evt KV_EVENT.PAGE_EXHAUSTED h 0 1 (some p)).record h
      { cause := 0x42, sev := 4, src := 6, part := some p, info0 := handle, info1 := lack }
    State.onExec (s1.withSuspNo (s1.suspNo + 1)) p x (fun e => { e with stage := .suspended s.suspNo })

/-! Blocks written to the tiles (R312, R313). -/

/-- Byte `i` of a block that the engine reads from `a` came in a bad word. -/
def State.engBad (s : State) (p a i : Nat) : Bool :=
  match s.engGet p (a + i) 1 with
  | .bytes _ b => b
  | _ => false

/-- A block's bytes written as a slot's elements; a word that receives a poisoned byte is stored poisoned (R262). -/
def State.putBlock (s : State) (j : Nat) (sl : Slot) (bs : List Byte) (bad : Nat → Bool) : State :=
  let n := max 1 (sl.fmt.packed sl.cols)
  (chop n (bs.length + 1) 0 (bs.take (sl.rows * n))).foldl (fun t (w, off, x) =>
    (chop 8 (x.length + 1) (sl.rowAt (w / n) + off) x).foldl (fun u (v, o, y) =>
      let first := w + off + (v + o - (sl.rowAt (w / n) + off))
      u.store (wsAt j (v + o)) y ((List.range y.length).any (fun i => bad (first + i)))) t) s

/-- A block written into slot `n` of a graph on every tile of the partition whose slot table holds the slot. -/
def State.putBlocks (s : State) (p g n : Nat) (bs : List Byte) (bad : Nat → Bool) : State :=
  (s.partTiles p).foldl (fun t j => match t.slotOf p g j n with
    | some sl => t.putBlock j sl bs bad
    | none => t) s

/-- Words of `n` bytes that a byte list spells. -/
def wordsIn (n : Nat) (bs : List Byte) (k : Nat) : List Nat :=
  (List.range k).map (fun i => leNat ((bs.drop (n * i)).take n))

/-- Bytes of a graph's input block (R313). -/
def State.inputLen (s : State) (p g : Nat) : Nat :=
  if s.commitF p g 0 1 = 1 then s.commitF p g 1 1 * s.commitF p g 2 1 * 64
  else
    let rows := s.commitF p g 4 4
    if s.commitF p g 3 1 = 1 then up64 (4 * rows) + 2 * rows else 4 * rows

/-- The segments of a prefill's rows: the block's, or the session's current segment for each. -/
def State.rowSegs (s : State) (p g slot : Nat) (blk : List Byte) : List Nat :=
  let rows := s.commitF p g 4 4
  if s.commitF p g 3 1 = 1 then wordsIn 2 (blk.drop (up64 (4 * rows))) rows else List.replicate rows (s.curSeg p slot)

/-- The node records of a decode graph, node 0 of each session overwritten (R313). -/
def State.nodeBlock (s : State) (p g : Nat) (slots : List Nat) (blk : List Byte) : List Byte :=
  let q := s.commitF p g 2 1 * 64
  (slots.mapIdx (fun i x =>
    let b := (blk.drop (i * q)).take q
    let b1 := splice b 0 (natLE 16 1 ++ natLE 1 0xFF ++ natLE 1 0)
    splice b1 20 (natLE 4 (s.srec p x 12 4)))).flatten

/-- The hub's reads of a RUN_GRAPH's blocks: input and parameters. -/
def State.graphReads (s : State) (p : Nat) (e : Exec) : List (Nat × Nat × Nat) :=
  let g := e.f 16 1 % 16
  (0, e.f 20 8, s.inputLen p g) ::
    (if e.f 28 8 ≠ 0 ∧ s.commitF p g 9 1 ≠ 0 then [(1, e.f 28 8, 32 * e.f 17 1)] else [])

/-- What reading the blocks answers: the first that is held or refused, or nothing. -/
def State.readsCheck (s : State) (p : Nat) : List (Nat × Nat × Nat) → Option (Option (State × Nat))
  | [] => none
  | (i, a, n) :: rs =>
    match s.engGet p a n with
    | .wait => some none
    | .refused t => some (some (t, i))
    | .bytes _ _ => s.readsCheck p rs

/-- Bytes of an admitted read. -/
def State.engBytes (s : State) (p a n : Nat) : List Byte :=
  match s.engGet p a n with
  | .bytes bs _ => bs
  | _ => []

/-- The blocks are read and written into their slots, and the command keeps its tokens, segments and positions (R124,
R312). -/
def State.loadBlocks (s : State) (p x : Nat) : State :=
  let e := s.execOf p x
  let g := e.f 16 1 % 16
  let a := e.f 20 8
  let n := s.inputLen p g
  let blk := s.engBytes p a n
  let bad := s.engBad p a
  let slots := e.slots
  let s1 := (s.graphReads p e).foldl (fun t (_, b, m) => t.engTouch 7 p 1 b m) s
  let s2 := match (s.graphReads p e).find? (fun r => r.1 == 1) with
    | some (_, b, m) => s1.putBlocks p g (s.commitF p g 9 1) (s.engBytes p b m) (s.engBad p b)
    | none => s1
  if s.commitF p g 0 1 = 1 then
    let q := s.commitF p g 2 1
    let nb := s.nodeBlock p g slots blk
    let node (i : Nat) : Nat := leNat ((nb.drop (64 * i)).take 64)
    let pos := (slots.mapIdx (fun i y =>
      (List.range q).map (fun k => s.segCount p y (s.sessN p y) (s.curSeg p y) + fld (node (i * q + k)) 17 1))).flatten
    (s2.putBlocks p g (s.commitF p g 8 1) nb bad).onExec p x (fun e => { e with
      toks := (List.range (slots.length * q)).map (fun i => fld (node i) 20 4), segs := [], pos := pos })
  else
    let rows := s.commitF p g 4 4
    let slot := slots.headD 0
    let segs := s.rowSegs p g slot blk
    let s3 := s2.putBlocks p g (s.commitF p g 8 1) (blk.take (4 * rows)) bad
    let s4 := if s.commitF p g 3 1 = 1 then
        s3.putBlocks p g (s.commitF p g 12 1) ((blk.drop (up64 (4 * rows))).take (2 * rows)) (fun i => bad (up64 (4 * rows) + i))
      else s3
    s4.onExec p x (fun e => { e with
      toks := wordsIn 4 blk rows, segs := segs, pos := s.rowPositions p (e.resv.headD {}) segs })

/-! Ending a RUN_GRAPH. -/

/-- What an instance has reserved while its sessions are regrown goes back. -/
def State.unlater (s : State) (p x : Nat) : State :=
  ((s.execOf p x).later.foldl (fun t r => t.unreserve r) s).onExec p x (fun e => { e with later := [] })

/-- Every reservation of a command goes back. -/
def State.unreserveAll (s : State) (p x : Nat) : State :=
  (((s.execOf p x).resv.foldl (fun t r => t.unreserve r) s).onExec p x (fun e => { e with resv := [] })).unlater p x

/-- A command's regrowth ends before the command's instance can start. -/
def State.regrowStop (s : State) (p x : Nat) (r : Resv) (w : Regrow) : State :=
  ((s.regrowEnd p r w).unlater p x).onExec p x (fun e => { e with regrow := none, resv := [] })

/-- A command with an instance at a level ends: at once, or once its last pin is released (R159). -/
def State.endCmd (s : State) (p x l status detail : Nat) : State :=
  if s.stepsOut p l then s.onExec p x (fun e => { e with stage := .ending l status detail })
  else ((s.popInst p l).complete p x status detail).preDecide p

/-- A command without an instance ends. -/
def State.endPlain (s : State) (p x status detail : Nat) : State :=
  (((s.unreserveAll p x).unask p x).complete p x status detail).preDecide p

/-- A regrowth fails (R174): what it has rewritten stays. -/
def State.regrowFail (s : State) (p x : Nat) : State × Nat :=
  let e := s.execOf p x
  let h := s.homeHub p
  match e.regrow with
  | none => (s, 0)
  | some w =>
    let r := e.resv.headD {}
    let slot := e.slots.getD w.sess 0
    let s1 := s.regrowStop p x r w
    let left := ((s1.entries p slot).findIdx? (fun (l, k) => pteDropped (s1.pte p slot l k))).getD 0
    let pg := match (s1.entries p slot)[left]? with
      | some (l, k) => ptePage (s1.pte p slot l k)
      | none => 0
    ((s1.evt KV_EVENT.REGROW_FAIL h 0 1 (some p)).record h
      { cause := 0x44, sev := 4, src := 6, part := some p, info0 := s1.handleOf p slot, info1 := pg }, w.sess)

/-! Regrowth (R172, R173). -/

/-- The next chunk of a command's regrowth is prepared: its frames are taken, its tokens and segments written, and it is
ready; or it waits for a channel that is not in memory mode, is suspended, or fails on a history that reads uncorrectable. -/
def State.regrowNext (s : State) (p x : Nat) : State :=
  let e := s.execOf p x
  match e.regrow with
  | none => s
  | some w =>
    let slot := e.slots.getD w.sess 0
    let g := s.execGraph p e
    let r := e.resv.headD { slot := slot }
    let count := min (Tbl.get 0 s.img.regrow p) (w.stop - w.next)
    let hs := (List.range count).map (fun i => s.histAt p slot (w.next + i))
    match hs.find? (fun k => (s.look k 4).2) with
    | some k =>
      let (t, si) := (s.engSee 6 p k 4).regrowFail p x
      t.endPlain p x 0x0A si
    | none =>
      let s := hs.foldl (fun t k => t.engSee 6 p k 4) s
      let need := s.regrowNeed p g r w count
      let (s1, fine) := s.framesFor p x need
      if !fine then s1.suspend p x (s1.handleOf p slot) (need - s1.freeCount p)
      else
        let (s2, r2, w2) := s1.regrowTake p g r w count (!s1.recFlag p slot 0 && !s1.recFlag p slot 3)
        if (r2.pages.filter (fun pg => !r.pages.contains pg)).any s2.pageHeld then s1 else
        let toks := hs.map (fun k => s2.lookN k 4)
        let s3 := s2.putBlocks p g (s2.commitF p g 8 1) ((toks.map (natLE 4)).flatten) (fun _ => false)
        let s4 := s3.putBlocks p g (s3.commitF p g 12 1) ((r2.segs.map (natLE 2)).flatten) (fun _ => false)
        (s4.onExec p x (fun e => { e with
          stage := .ready, regrow := some w2, resv := [r2], toks := toks, segs := r2.segs
          pos := s2.rowPositions p r2 r2.segs })).preDecide p

/-! Stage 2 (R161, R185, R310, R312). -/

/-- A parked session is treated as dropped (R185). The image is stale from here on, before any page is regrown: the rule says
only that it is stale afterwards (DESIGN CHOICE, assumption 73). -/
def State.unparkDrop (s : State) (p slot : Nat) : State :=
  ((s.entries p slot).foldl (fun t (l, k) =>
    let v := t.pte p slot l k
    if pteParked v then (t.setPte p slot l k (pteDrop v)).setRecFlag p slot 2 true else t) s).setRecFlag p slot 1 false

/-- Whether pages that a command allocates for a session may be dropped: its flags decide, else the session's (R171). -/
def State.droppableFor (s : State) (p slot : Nat) (e : Exec) : Bool :=
  let nc := if (e.f 18 1).testBit 0 then true else if (e.f 18 1).testBit 1 then false else s.recFlag p slot 0
  !nc && !s.recFlag p slot 3

/-- The segments of the tokens that an instance may commit to a session. -/
def State.pendSegs (s : State) (p slot : Nat) (e : Exec) : List Nat :=
  let g := e.f 16 1 % 16
  if s.commitF p g 0 1 = 1 then List.replicate (s.commitF p g 2 1) (s.curSeg p slot)
  else s.rowSegs p g slot (if s.commitF p g 3 1 = 1 then s.engBytes p (e.f 20 8) (s.inputLen p g) else [])

/-- The plans of all sessions of a command. -/
def State.plans (s : State) (p : Nat) (e : Exec) : List (Nat × List Nat × Plan) :=
  let pl := s.pendLayers p (e.f 16 1 % 16)
  (e.slots.foldl (fun (a : List (Nat × List Nat × Plan) × List Nat) slot =>
    let segs := s.pendSegs p slot e
    let (q, seen) := s.planFor p slot segs pl a.2
    (a.1 ++ [(slot, segs, q)], seen)) ([], [])).1

/-- The pages that the command's sessions will append into are copied where claim() says COPY (R158, R161). -/
def State.cowAll (s : State) (p : Nat) (qs : List (Nat × List Nat × Plan)) : State :=
  qs.foldl (fun t (slot, _, q) => q.copies.foldl (fun u (l, k) => (u.cow p slot l k).1) t) s

/-- The pages that the entries to be copied name. -/
def State.cowPages (s : State) (p : Nat) (qs : List (Nat × List Nat × Plan)) : List Nat :=
  qs.flatMap (fun (slot, _, q) => q.copies.map (fun (l, k) => ptePage (s.pte p slot l k)))

/-- The plans carried out, session by session. -/
def State.takePlans (s : State) (p : Nat) (e : Exec) (qs : List (Nat × List Nat × Plan)) : State × List Resv :=
  qs.foldl (fun (a : State × List Resv) (slot, segs, q) =>
    let (t, r) := a.1.takePlan p slot segs (a.1.droppableFor p slot e) q
    (t, a.2 ++ [r])) (s, [])

/-- Frames for the command's plans, all or nothing (R161): the state with them free, or the command suspended. -/
def State.planFrames (s : State) (p x : Nat) : State × Bool :=
  let e := s.execOf p x
  let sizes := (s.plans p e).map (fun (_, _, q) => q.size)
  let (s1, fine) := s.framesFor p x sizes.sum
  if fine then (s1, true)
  else
    let free := s1.freeCount p
    let si := ((List.range sizes.length).find? (fun i => decide ((sizes.take (i + 1)).sum > free))).getD 0
    (s1.suspend p x (s1.handleOf p (e.slots.getD si 0)) (sizes.sum - free), false)

/-- Sessions that one command can have to regrow. -/
def regrowFuel : Nat := 64

/-- A command that holds its reservation: its sessions with dropped pages are regrown in turn (R172); then its blocks are
read and it is ready for its tiles, or a block is refused. -/
def State.regrowGo : Nat → State → Nat → Nat → State
  | 0, s, _, _ => s
  | fuel + 1, s, p, x =>
    let e := s.execOf p x
    match e.slots.findIdx? (fun y => s.recFlag p y 2) with
    | some si =>
      let slot := e.slots.getD si 0
      (match s.regrowRange p slot with
       | none => State.regrowGo fuel (s.setRecFlag p slot 2 false) p x
       | some (start, stop, rebuild) =>
         let mine := e.later.getD si {}
         (s.onExec p x (fun e => { e with
           regrow := some { sess := si, next := start, stop := stop, rebuild := rebuild }
           resv := [{ slot := slot, ring := mine.scratch }]
           later := e.later.set si { mine with scratch := [] } })).regrowNext p x)
    | none =>
      match s.readsCheck p (s.graphReads p e) with
      | some none => s
      | some (some (t, i)) => t.endPlain p x 0x05 i
      | none =>
        (((s.onExec p x (fun e => { e with resv := e.later, later := [] })).loadBlocks p x).onExec p x (fun e =>
          { e with stage := .ready })).preDecide p

/-- The first session of a command that has dropped pages and cannot be regrown: its segments are not all known (R155). A
park that PARKED_ACTION 1 has given up stays given up when the command ends so (DESIGN CHOICE, assumption 73). -/
def State.lostSess (s : State) (p x : Nat) : Option Nat :=
  (s.execOf p x).slots.findIdx? (fun y => s.recFlag p y 2 && s.recFlag p y 3)

/-- Reservation (R161): pages that lack are marked, a session that cannot be regrown, a context that is full, a block that is
refused or frames that lack end or suspend the command; pages to be appended into are copied; then what has become of them
is counted with the scratch rings, and everything is reserved at once. -/
def State.reserveGo (s0 : State) (p x : Nat) : State :=
  let e := s0.execOf p x
  let g := e.f 16 1 % 16
  let s := e.slots.foldl (fun t y => (t.repairSess p y).markDropped p y) s0
  match s.lostSess p x with
  | some si => s.endPlain p x 0x0B si
  | none =>
    match (if s.commitF p g 3 1 = 1 then s.readsCheck p ((s.graphReads p e).take 1) else none) with
    | some none => s
    | some (some (t, i)) => t.endPlain p x 0x05 i
    | none =>
      match e.slots.findIdx? (fun y => s.contextFull p y (s.pendSegs p y e)) with
      | some si => s.endPlain p x 0x08 si
      | none =>
        match s.planFrames p x with
        | (s1, false) => s1
        | (s1, true) =>
          match s1.readsCheck p (s1.graphReads p e) with
          | some none => s1
          | some (some (t, i)) => t.endPlain p x 0x05 i
          | none =>
            let s2 := s1.cowAll p (s1.plans p e)
            if (s1.cowPages p (s1.plans p e)).any s1.pageWaits || (s2.cowPages p (s1.plans p e)).any s2.pageHeld then s1
            else
              match s2.lostSess p x with
              | some si => s2.endPlain p x 0x0B si
              | none =>
                match s2.planFrames p x with
                | (s3, false) => s3
                | (s3, true) =>
                  let (s4, rs) := s3.takePlans p e (s3.plans p e)
                  if (rs.flatMap Resv.pages).any s4.pageHeld then s3
                  else State.regrowGo regrowFuel (s4.onExec p x (fun e => { e with later := rs })) p x

/-- Stage 2 of a RUN_GRAPH: handles, NEXT_TOKEN, PARKED, then the reservation. One that has reserved goes on from there. -/
def State.stage2 (s : State) (p x : Nat) : State :=
  let e := s.execOf p x
  if e.regrow.isSome then s.regrowNext p x
  else if e.later ≠ [] then State.regrowGo regrowFuel s p x
  else match s.checkHandles p 0 e.handles with
  | (t, some (st, det)) => t.endPlain p x st det
  | (t, none) =>
    if t.commitF p (e.f 16 1 % 16) 0 1 = 1 ∧ e.slots.any (fun y => t.srec p y 12 4 == 0xFFFFFFFF) = true then
      t.endPlain p x 0x0F 0
    else match e.slots.findIdx? (fun y => t.recFlag p y 1) with
      | some i =>
        if t.fget KV_PART_CTL.PARKED_ACTION (t.homeHub p) p = 0 then t.endPlain p x 0x0C i
        else State.reserveGo (e.slots.foldl (fun u y => if u.recFlag p y 1 then u.unparkDrop p y else u) t) p x
      | none => t.reserveGo p x

/-- The started command of opcode `op` in a slot whose sessions are free (R304), carried out. -/
def State.runCmd (s : State) (op p x : Nat) (f : Exec → State) : State :=
  let e := s.execOf p x
  if e.busy && e.stage == .started && e.opcode == op && s.fget DECK_QCFG.PART e.deck 0 == p && s.sessionsFree p e &&
      !s.halted then f e
  else s

/-- RUN_GRAPH (R312): stage 2 of the command (Table 1.7). -/
def execRunGraph (part slot : Nat) (s : State) : Host.Outcome State Fault Refusal :=
  ok (slotOk part slot) s (s.runCmd 1 part slot (fun _ => s.stage2 part slot))

/-! Instances (R93, R94, R305, R306). -/

/-- A graph instance of a command starts at a level: its semaphores, threads and jobs are as at the start, and its tiles
wake (R26, R93, R107). -/
def State.startInst (s : State) (p x l : Nat) (e : Exec) : State :=
  let g := s.execGraph p e
  let js := (s.partTiles p).filter (fun j => s.takesPart p g j)
  let mask := js.foldl (fun m j => setBit m j true) 0
  let cls := s.deckClass e.deck
  let s1 := s.onPart p (fun q => { q with
    level := l, preAsk := none, lastDeck := q.lastDeck.set cls (e.deck + 1)
    insts := Tbl.put {} q.insts l { valid := true, graph := g, slot := x, tiles := mask, cls := cls } })
  let s2 := (s1.withSems (Tbl.clearRange s1.sems ((p * 4 + l) * 4096) 4096)).freshSems p l 4096
  let s3 := js.foldl (fun t j => State.onTile (((t.withTileSems (Tbl.clearRange t.tileSems ((j * 4 + l) * 64) 64)).withThrs (Tbl.clearRange t.thrs (thrKey j l 0) 16)).withJobs (Tbl.clearRange t.jobs (jobKey j l 0) 4)) j (fun w => { w with preempting := false, want := none })) s2
  (s3.wake js).onExec p x (fun e => { e with stage := .running l })

/-- Every tile of an instance has ended its part or given up its arrays to a pre-emption. -/
def State.allParked (s : State) (l : Nat) (i : Inst) : Bool :=
  i.tileList.all (fun j => i.ended.testBit j || ((s.tile j).preempting && !(s.levelJobs j l).any (fun (_, b) => b.holds)))

/-- INSTANCE_START (R93): the hub's choice starts; with none running, at level 0; over a running instance that it may
pre-empt and that has parked, at the next level. -/
def execInstanceStart (part slot : Nat) (s : State) : Host.Outcome State Fault Refusal :=
  ok (slotOk part slot) s
    (match s.choice part with
     | none => s
     | some (x, e) =>
       let l := (s.part part).level
       let i := s.inst part l
       if x ≠ slot ∨ s.halted = true then s
       else if !i.valid then s.startInst part slot 0 e
       else if (s.part part).preAsk.isSome && s.mayPreempt part e && s.allParked l i then s.startInst part slot (l + 1) e
       else s)

/-! The end of an instance (R93, R164, R308). -/

/-- Row `r` of the SAMPLE output that a graph's commit entry names. -/
def State.outRow (s : State) (p g r : Nat) : List Nat :=
  match s.slotOf p g (s.commitF p g 11 1) (s.commitF p g 10 1) with
  | some sl => (s.slotCodes (s.commitF p g 11 1) sl r).1
  | none => []

/-- What a step keeps for session `si`, and the tokens it emits (R140, R164, R165). -/
def State.keptOf (s : State) (p : Nat) (e : Exec) (si : Nat) : Kept × List Nat :=
  let g := e.f 16 1 % 16
  let r := e.resv.getD si {}
  let nc := if (e.f 18 1).testBit 0 then some true else if (e.f 18 1).testBit 1 then some false else none
  let row := s.outRow p g si
  if s.commitF p g 0 1 = 1 then
    let a := row.headD 0 % 256
    let path := (List.range a).map (fun i => row.getD (129 + i) 0)
    let out := (List.range a).map (fun i => row.getD (1 + i) 0)
    let q := s.commitF p g 2 1
    (⟨path, path.map (fun x => e.toks.getD (si * q + x) 0), r.segs, out.getLastD 0xFFFFFFFF, nc⟩, out)
  else
    let out := if s.commitF p g 10 1 = 0 then [] else [row.getD 1 0]
    (⟨List.range (s.commitF p g 4 4), e.toks, r.segs, out.headD 0xFFFFFFFF, nc⟩, out)

/-- The sessions commit in turn until one fails (R164, R167). -/
def State.commitAll (s : State) (p x : Nat) (ue : Option Nat) : State × Option Nat :=
  let e := s.execOf p x
  let draft := s.draftLayers p (e.f 16 1 % 16)
  (List.range e.resv.length).foldl (fun (a : State × Option Nat) si =>
    match a.2 with
    | some _ => a
    | none =>
      let (t, done) := a.1.commitSess p (e.resv.getD si {}) (s.keptOf p e si).1 draft (ue == some si)
      (t, if done then none else some si)) (s, none)

/-- A page that a command's commit works on lies in a channel that is not in memory mode: the commit waits (R235). -/
def State.commitHeld (s : State) (p x : Nat) : Bool :=
  let e := s.execOf p x
  let draft := s.draftLayers p (e.f 16 1 % 16)
  (List.range e.resv.length).any (fun si =>
    (s.commitPages p (e.resv.getD si {}) (s.keptOf p e si).1 draft).any s.pageHeld)

/-- The token-stream records of a command whose graph samples (R314). -/
def State.emitTokens (s : State) (p x : Nat) : State :=
  let e := s.execOf p x
  let g := e.f 16 1 % 16
  if !s.graphHas p g 0x0C then s
  else
    (List.range e.resv.length).foldl (fun t si =>
      let slot := (e.resv.getD si {}).slot
      let phase := 1 - (t.deck e.deck).tsProd / (t.tsRing e.deck).2 % 2
      let flags := phase + (if e.invalid.contains si then 2 else 0) + (if e.regrown.testBit si then 4 else 0)
      t.tsPut e.deck (tokenEntries (e.f 2 2) si flags (e.handles.getD si 0) (t.sessN p slot) t.time (s.keptOf p e si).2)) s

/-- The running instance of a partition when every tile has ended it: its level and instance. -/
def State.endedInst (s : State) (p : Nat) : Option (Nat × Inst) :=
  let l := (s.part p).level
  let i := s.inst p l
  if i.valid && !i.aborted && i.faulted == 0 && i.ended == i.tiles && !s.halted then some (l, i) else none

/-- INSTANCE_END (R93): the sessions commit, unused frames go back, token-stream records, completion record and interrupt
follow, and a pre-empted instance resumes. -/
def execInstanceEnd (part : Nat) (commitUe : Option Nat) (s : State) : Host.Outcome State Fault Refusal :=
  ok (partOk part) s
    (match s.endedInst part with
     | none => s
     | some (l, i) =>
       let e := s.execOf part i.slot
       if e.regrow.isSome || s.commitHeld part i.slot then s
       else
         let (s1, fail) := s.commitAll part i.slot commitUe
         let s2 := e.resv.foldl (fun t r => t.settle part r) s1
         match fail with
         | some si => s2.endCmd part i.slot l 0x09 si
         | none =>
           let s3 := s2.emitTokens part i.slot
           let first := (s2.deck e.deck).tsProd
           s3.endCmd part i.slot l (if e.invalid = [] then 0x00 else 0x01)
             (first % (s2.tsRing e.deck).2 + 65536 * (((s3.deck e.deck).tsProd - first) % 256)))

/-- REGROW_CHUNK (R174): the chunk's dropped pages are committed; the next chunk follows, or the regrowth ends and the
command's next session is regrown, or it is ready for its tiles, or, timed out or stopped meanwhile, it ends. `fails`: the chunk's commit met an uncorrectable structure. -/
def execRegrowChunk (part : Nat) (fails : Bool) (s : State) : Host.Outcome State Fault Refusal :=
  ok (partOk part) s
    (match s.endedInst part with
     | none => s
     | some (l, i) =>
       let x := i.slot
       let e := s.execOf part x
       match e.regrow with
       | none => s
       | some w =>
         if ((e.resv.headD {}).pages).any s.pageHeld then s
         else if fails then
           let (t, si) := s.regrowFail part x
           let (st, dt) := w.cut.getD (0x0A, si)
           t.endCmd part x l st dt
         else
           let r := e.resv.headD {}
           let s1 := s.regrowCommit part r (s.draftLayers part (s.execGraph part e))
           let s2 := r.pend.foldl (fun t (_, _, pg) => t.unref pg) s1
           let w2 := { w with next := w.next + w.count }
           let r2 := { r with pend := [] }
           let s3 := s2.popInst part l
           match w.cut with
           | some (st, dt) =>
             (s2.regrowStop part x r2 w2).endCmd part x l st dt
           | none => if w2.next < w.stop then
             (s3.onExec part x (fun e => { e with stage := .started, regrow := some w2, resv := [r2] })).regrowNext part x
           else
             State.regrowGo regrowFuel ((s3.regrowEnd part r2 w2).onExec part x (fun e =>
               { e with stage := .started, regrow := none, resv := [], regrown := setBit e.regrown w.sess true })) part x)

/-! Abort (R115, R159). -/

/-- The Thapel steps of an instance that are not running are CANCELLED (R222), and the pins of its parts go. -/
def State.cancelSteps (s : State) (p l : Nat) (js : List Nat) : State :=
  let mine (x : Step) : Bool := x.op == 1 && x.part == p && x.level == l
  let s1 := ((s.withThapWait (s.thapWait.filter (fun x => !mine x))).withChans (s.chans.map (fun (c, h) =>
      (c, { h with queue := h.queue.filter (fun x => !mine x), halves := h.halves.filter (fun r => !mine r.step) }))))
  js.foldl (fun t j => (List.range 16).foldl (fun u k => u.attnDrop j l k) t) s1

/-- A tile stops its part of an aborted instance at once: arrays, threads and requests (R115). -/
def State.stopTile (s : State) (p l : Nat) (i : Inst) (j : Nat) : State :=
  let s1 := (s.levelJobs j l).foldl (fun t (a, b) =>
    let t1 := t.setJob j l a none
    if b.holds then t1.stopArrays j 0 b.arrays else t1) s
  let busy := (List.range 16).filter (fun t => let h := s.thr j l t; h.st != .ready && h.st != .faulted)
  let s2 := if i.faulted.testBit j || i.ended.testBit j then s1
    else busy.foldl (fun t k => match t.opOf p l i j k with
      | some c => t.seqFault j (c.f 4 2) k 0x09
      | none => t) s1
  let s3 := (List.range 16).foldl (fun t k => t.orphanTags j l k) s2
  (State.onTile (s3.withThrs (Tbl.clearRange s3.thrs (thrKey j l 0) 16)) j (fun w =>
    { w with want := none })).countLevels j

/-- An instance is aborted on every tile of the partition. -/
def State.abortInst (s : State) (p l : Nat) : State :=
  let i := s.inst p l
  let s1 := s.cancelSteps p l i.tileList
  let s2 := i.tileList.foldl (fun t j => (t.stopTile p l i j).fset TILE_SEQ_EVENT.ABORTED j 0 1) s1
  s2.onInst p l (fun i => { i with aborted := true })

/-- The first session of a command that has a dropped page, and whether it may be regrown. -/
def State.droppedSess (s : State) (p : Nat) (e : Exec) : Nat × Bool :=
  let t := e.slots.foldl (fun u y => u.markDropped p y) s
  let si := (e.slots.findIdx? (fun y => t.recFlag p y 2)).getD 0
  (si, !t.recFlag p (e.slots.getD si 0) 3)

/-- INSTANCE_ABORT (R115): on a reported fault the instance is aborted, and its command ends with FAULT (R27), or with
REGROW_FAIL in a regrowth (R174); after cause 0x07 it is to be rerun once (R177). -/
def execInstanceAbort (part : Nat) (s : State) : Host.Outcome State Fault Refusal :=
  ok (partOk part) s
    (let l := (s.part part).level
     let i := s.inst part l
     match i.fault with
     | none => s
     | some (cause, op, tile, _) =>
       if !i.valid || i.aborted then s
       else
         let x := i.slot
         let e := s.execOf part x
         let s1 := s.abortInst part l
         let cut := match e.regrow with
           | some w => w.cut
           | none => none
         if cause = 0x07 then
           let s2 := match e.regrow with
             | some w => s1.regrowStop part x (e.resv.headD {}) w
             | none => s1.unreserveAll part x
           let (si, fine) := s2.droppedSess part e
           if e.reran || !fine || cut.isSome then
             let (st, dt) := cut.getD (0x0B, si)
             s2.endCmd part x l st dt
           else s2.onExec part x (fun e => { e with stage := .rerun l })
         else if e.regrow.isSome then
           let (t, si) := s1.regrowFail part x
           let (st, dt) := cut.getD (0x0A, si)
           t.endCmd part x l st dt
         else (s1.unreserveAll part x).endCmd part x l 0x03 (op % 65536 + cause % 256 * 2 ^ 16 + tile % 64 * 2 ^ 24))

/-- DROPPED_PAGE_RERUN (R177): once the abort for cause 0x07 is complete, the command runs again from stage 2. -/
def execDroppedPageRerun (part : Nat) (s : State) : Host.Outcome State Fault Refusal :=
  ok (partOk part) s
    (match (s.partExecs part).find? (fun (_, e) => match e.stage with
       | .rerun l => !s.stepsOut part l
       | _ => false) with
     | some (x, e) =>
       (match e.stage with
        | .rerun l =>
          ((s.popInst part l).onExec part x (fun e =>
            { e with stage := .started, reran := true, invalid := [] })).stage2 part x
        | _ => s)
     | none => s)

end Sys2Proof.Machine
end

