-- ==== Sys2Proof/Machine/Log.lean ====
section
/-!
DEFINITION. The management complex's records and its log (R481, R482), the privilege of PF0 (R479), and HOLD (R422): the
waiting state in which every failure of the part ends.
-/

namespace Sys2Proof.Machine

/-! The log. -/

/-- A record becomes a log entry in management SRAM, or is lost when 1,024 wait there (R481); it is also sent to the event
receiver, if one is set (R473). -/
def State.logAppend (s : State) (hub : Nat) (r : ErrRec) : State :=
  let m := s.mgmt
  let s1 := if m.receiver.isSome then (s.withMgmt { m with events := m.events ++ [r] }) else s
  if m.buffered.length ≥ 1024 then
    State.fcount (s1.withMgmt { s1.mgmt with lost := s1.mgmt.lost + 1 }) MGMT_LOG_STATUS.LOST 0 0
  else
    let e : LogEnt :=
      { hub := hub, seq := m.logSeq % 2 ^ 32, secs := s.calendar / 32768, frac := s.calendar % 32768
        timeInvalid := s.fget RTC_CTL.TIME_INVALID 0 0 == 1, body := r }
    (s1.withMgmt { s1.mgmt with buffered := s1.mgmt.buffered ++ [e], logSeq := m.logSeq + 1 })

/-- The next record of a hub on its way to the log, and the others. -/
def takeFeed (h : Nat) : List ErrRec → Option (ErrRec × List ErrRec)
  | [] => none
  | r :: rs =>
    if r.hub = h then some (r, rs)
    else match takeFeed h rs with
      | some (x, xs) => some (x, r :: xs)
      | none => none

/-- MGMT_RECORD_COPY (R481): the management complex copies the next record of a hub, in SEQ order, into the log, and its index
in ERR_Q_MGMT advances (R273). -/
def execMgmtRecordCopy (hub : Nat) (s : State) : Host.Outcome State Fault Refusal :=
  ok (hubOk hub) s
    (match takeFeed hub s.mgmt.feed with
     | some (r, rest) => (State.logAppend (s.withMgmt { s.mgmt with feed := rest }) hub r).fwrap ERR_Q_MGMT.MGMT hub 0
     | none => s)

/-- A record that management writes, of cause 0x74 + `n` (R482): to hub 0's queue and straight to the log, with its bit of
MGMT_EVENT. The log does not copy it a second time. -/
def State.mgmtRec (s : State) (n i0 i1 : Nat) : State :=
  let s1 := s.record 0 { cause := 0x74 + n, sev := 4, pos := 0xFFFF, info0 := i0, info1 := i1 }
  let r := (s1.mgmt.feed.getLast?).getD {}
  let s2 := (s1.withMgmt { s1.mgmt with feed := s1.mgmt.feed.dropLast })
  (s2.logAppend 0xFF r).evt MGMT_EVENT.CAUSE 0 0 (2 ^ n) none

/-- LOG_FLUSH (R481): `n` entries that wait are written to flash; a full ring loses its oldest. Once space returns, one
LOG_LOST record tells of the entries lost. -/
def execLogFlush (n : Nat) (s : State) : Host.Outcome State Fault Refusal :=
  ok true s
    (let m := s.mgmt
     let all := m.flash ++ m.buffered.take n
     let s1 := (s.withMgmt { m with flash := all.drop (all.length - 131072), buffered := m.buffered.drop n })
     if s1.mgmt.lost ≠ 0 ∧ s1.mgmt.buffered.length < 1024 then
       State.mgmtRec (s1.withMgmt { s1.mgmt with lost := 0 }) 5 s1.mgmt.lost 0
     else s1)

/-! Privilege (R479). -/

/-- HIF_PRIV.PRIV of one host port takes a value; a change is recorded with its reason. -/
def State.setPriv1 (s : State) (port v why : Nat) : State :=
  if s.fget HIF_PRIV.PRIV port 0 = v % 2 then s
  else (s.fset HIF_PRIV.PRIV port 0 v).mgmtRec 6 (v % 2) why

/-- HIF_PRIV.PRIV of both host ports takes a value: one record if either changes. -/
def State.setPriv (s : State) (v why : Nat) : State :=
  if s.fget HIF_PRIV.PRIV 0 0 = v % 2 then s.setPriv1 1 v why
  else ((s.fset HIF_PRIV.PRIV 0 0 v).fset HIF_PRIV.PRIV 1 0 v).mgmtRec 6 (v % 2) why

/-! HOLD (R422). -/

/-- A tile goes to Off (Table 17.6): its accumulator sets, sequencer registers and tile-local semaphores are lost. -/
def State.tileOff (s : State) (j : Nat) : State :=
  (((((s.withTiles (Tbl.put {} s.tiles j { power := .off, since := s.time })).withArrs (s.arrs.clearRange (j * 4) 4)).withThrs (s.thrs.clearRange (j * 64) 64)).withJobs (s.jobs.clearRange (j * 16) 16)).withTileSems (s.tileSems.clearRange (j * 256) 256))

/-- Every tile goes to Off. -/
def State.tilesOff (s : State) : State := (List.range 64).foldl State.tileOff s

/-- Every running instance is aborted and every deck stops, without records (R277, R403). -/
def State.stopWork (s : State) : State :=
  let s1 := s.parts.foldl (fun t (p, q) => q.insts.foldl (fun u (l, i) =>
    if i.valid && !i.aborted then u.abortInst p l else u) t) s
  (s1.withDecks (s1.decks.map (fun (d, c) => (d, if c.state = 0 then c else { c with state := 3 }))))

/-- The part enters HOLD with a cause (R422, Table 16.11): nothing runs, the tiles are Off, and PF0 is privileged once the
host functions answer (R479). -/
def State.enterHold (s : State) (cause : Nat) : State :=
  let s1 := ((((s.stopWork.tilesOff).fset BOOT_STATUS.PHASE 0 0 15).fset BOOT_STATUS.CAUSE 0 0 cause).fset
    BOOT_STATUS.WLOAD 0 0 0)
  let s2 := (s1.withBoot { s1.boot with inReset := false, accept := false, restarting := false })
  if s2.boot.mgmtUp then s2.setPriv 1 2 else s2

end Sys2Proof.Machine
end

