-- ==== Sys2Proof/Machine/LoadForm.lean ====
section
/-!
DEFINITION. The form of a Greuc image (R412 to R416): header, section table, items; and the state with an image's items
taken in, on which the loader's rules are checked and which becomes the part's state when the image is accepted. An image is
given by the byte at each of its offsets.
-/

namespace Sys2Proof.Machine

/-- The `n` bytes of an image from an offset. -/
def imgBytes (rd : Nat → Byte) (off n : Nat) : List Byte := (List.range n).map (fun i => rd (off + i))

/-- The number that the `n` bytes of an image from an offset spell. -/
def imgNat (rd : Nat → Byte) (off n : Nat) : Nat := leNat (imgBytes rd off n)

/-- The image that begins at a host address, as the loader reads it (R411): each 1 MiB through port index mod 2 while both
host links are up, and through the one that is up otherwise. -/
def State.hostImage (s : State) (base off : Nat) : Byte :=
  let port := if s.pkg.hostUp.getD 0 0 = 0 then 1 else if s.pkg.hostUp.getD 1 0 = 0 then 0 else off / 0x100000 % 2
  readByte s.mem (hostAt port (base + off))

/-! Sections (R413). -/

/-- A section-table entry (Table 16.6). -/
structure Sect where
  ty : Nat
  crc : Nat
  off : Nat
  len : Nat
  deriving DecidableEq, Repr

/-- The section table of an image. -/
def imgSects (rd : Nat → Byte) : List Sect :=
  (List.range (imgNat rd 10 2)).map (fun i =>
    let e := imgNat rd 32 8 + 80 * i
    ⟨imgNat rd e 1, imgNat rd (e + 4) 4, imgNat rd (e + 8) 8, imgNat rd (e + 16) 8⟩)

/-- Two byte ranges share a byte. -/
def meets (a n b m : Nat) : Bool := decide (a < b + m) && decide (b < a + n) && decide (0 < n) && decide (0 < m)

/-- Pairs of a list, each once. -/
def pairs {α : Type} : List α → List (α × α)
  | [] => []
  | x :: xs => xs.map (fun y => (x, y)) ++ pairs xs

/-- The section table keeps its rules (R412, R413) for an image of a kind. -/
def sectsOk (rd : Nat → Byte) (kind : Nat) : Bool :=
  let ss := imgSects rd
  let len := imgNat rd 24 8
  decide (2 ≤ ss.length) && decide (ss.length ≤ 11) && imgNat rd 32 8 % 64 == 0 &&
  decide (imgNat rd 32 8 + 80 * ss.length ≤ len) &&
  ss.all (fun x => decide (1 ≤ x.ty) && decide (x.ty ≤ 11) && x.off % 64 == 0 && decide (x.off + x.len ≤ len)) &&
  (pairs ss).all (fun (x, y) => x.ty != y.ty && !meets x.off x.len y.off y.len) &&
  (ss.getLast?).any (fun x => x.ty == 11 && decide (104 ≤ x.len)) &&
  ((List.range 12).drop 1).all (fun t => ss.any (fun x => x.ty == t) == (kind == 0 || t != 7))

/-- The signed message: the header and every entry but the SIGNATURE entry (R414). -/
def imgMessage (rd : Nat → Byte) : List Byte :=
  imgBytes rd 0 64 ++ imgBytes rd (imgNat rd 32 8) (80 * (imgNat rd 10 2 - 1))

/-- KEY_INDEX (R414). -/
def imgKeyIndex (rd : Nat → Byte) : Nat := imgNat rd (((imgSects rd).getLast?).map (·.off) |>.getD 0) 4

/-! Items (R415). -/

/-- An item: the section that holds it, its code, where its payload lies and how long it is. -/
structure Item16 where
  sect : Nat
  code : Nat
  at_ : Nat
  len : Nat
  deriving DecidableEq, Repr

/-- Bytes of an item's prefix and of each of its entries (Table 16.7); none for an unknown code. -/
def itemShape (code : Nat) : Option (Nat × Nat) :=
  if code = 0x0001 ∨ code = 0x0201 ∨ code = 0x0303 then some (0, 16)
  else if code = 0x0301 then some (0, 64)
  else if code = 0x0302 ∨ code = 0x0601 ∨ code = 0x0A02 then some (0, 8)
  else if code = 0x0602 then some (0, 4)
  else if code = 0x0801 then some (8, 64)
  else if code = 0x0802 ∨ code = 0x0803 then some (8, 16)
  else if code = 0x0804 ∨ code = 0x0A01 then some (8, 8)
  else if code = 0x0805 then some (8, 32)
  else if code = 0x0901 then some (0, 80)
  else if code = 0x0A03 ∨ code = 0x0A04 then some (8, 4)
  else none

/-- Entries of an item; KV_SCALES and KV_LAYOUT give their number in the prefix, a COMMIT has one. -/
def itemCount (rd : Nat → Byte) (i : Item16) : Nat :=
  if i.code = 0x0A01 then imgNat rd (i.at_ + 2) 2 * imgNat rd (i.at_ + 1) 1
  else if i.code = 0x0A04 then imgNat rd (i.at_ + 2) 2
  else if i.code = 0x0805 then 1
  else match itemShape i.code with
    | some (p, e) => (i.len - p) / e
    | none => 0

/-- An item fits its section and its own payload. A payload is a multiple of 8, so 4 B entries may leave 4 B unused. -/
def itemOk (rd : Nat → Byte) (i : Item16) : Bool :=
  (i.code / 256 == i.sect || (i.code == 1 && i.sect != 9)) && i.len % 8 == 0 &&
  (i.code == 1 || !(i.sect == 1 || i.sect == 4 || i.sect == 5 || i.sect == 7)) &&
  (match itemShape i.code with
   | some (p, e) => decide (p ≤ i.len) && decide (i.len - p - itemCount rd i * e < 8) && decide (p + itemCount rd i * e ≤ i.len)
   | none => false)

/-- The items of a section body; none where one runs past its end. -/
def itemsFrom (rd : Nat → Byte) (sect stop : Nat) : Nat → Nat → Option (List Item16)
  | 0, _ => none
  | fuel + 1, off =>
    if off = stop then some []
    else if stop < off + 8 then none
    else
      let i : Item16 := ⟨sect, imgNat rd off 2, off + 8, imgNat rd (off + 4) 4⟩
      if stop < off + 8 + i.len ∨ i.len % 8 ≠ 0 then none
      else match itemsFrom rd sect stop fuel (off + 8 + i.len) with
        | some l => some (i :: l)
        | none => none

/-- The items of a section; none where its syntax is broken. -/
def sectItems (rd : Nat → Byte) (x : Sect) : Option (List Item16) :=
  match itemsFrom rd x.ty (x.off + x.len) (x.len / 8 + 2) x.off with
  | some l => if l.all (itemOk rd) then some l else none
  | none => none

/-- The entries of an item: the place and index of each. -/
def entriesOf (rd : Nat → Byte) (i : Item16) : List (Nat × Nat) :=
  match itemShape i.code with
  | some (p, e) => (List.range (itemCount rd i)).map (fun k => (i.at_ + p + k * e, k))
  | none => []

/-! REG items (R501). -/

/-- A REG entry: block code, instance, offset, value. -/
structure RegItem where
  blk : Nat
  inst : Nat
  off : Nat
  val : Nat
  deriving DecidableEq, Repr

/-- The REG entry at a place. -/
def regItem (rd : Nat → Byte) (a : Nat) : RegItem := ⟨imgNat rd a 2, imgNat rd (a + 2) 2, imgNat rd (a + 4) 4, imgNat rd (a + 8) 8⟩

/-- The block of a BLOCK code, and its size in bytes (Table 20.1). -/
def blkOfCode (c : Nat) : Option (Blk × Nat) :=
  match c with
  | 1 => some (.boot, 0x1000)
  | 2 => some (.power, 0x1000)
  | 3 => some (.package, 0x1000)
  | 4 => some (.mgmt, 0x1000)
  | 5 => some (.prot, 0x8000)
  | 6 => some (.hif, 0x1000)
  | 7 => some (.fabric, 0x10000)
  | 8 => some (.hub, 0x10000)
  | 9 => some (.tile, 0x1000)
  | 10 => some (.deck, 0x1000)
  | _ => none

/-- The register a REG entry names, with instance and index: none where R501 rejects it. -/
def RegItem.target (r : RegItem) : Option (RegDesc × Nat × Nat) :=
  match blkOfCode r.blk with
  | none => none
  | some (b, size) =>
    if r.blk = 10 then
      (if r.off = 0x38 ∧ r.inst < 16 then
         match regAt ((blkBase .deck).1 + 0x38) with
         | some (d, _, i) => some (d, 0x9000 + r.inst, i)
         | none => none
       else none)
    else if r.off ≥ size ∨ r.inst ≥ blkCount b then none
    else match regAt ((blkBase b).1 + r.inst * (blkBase b).2 + r.off) with
      | some (d, u, i) => if d.fields.any (fun f => f.src == .image) then some (d, u, i) else none
      | none => none

/-- The image fields of a register take the values that a REG entry gives them. -/
def State.putReg (s : State) (d : RegDesc) (u i v : Nat) : State :=
  d.fields.foldl (fun t f => if f.src == .image then t.fset f u i (v / 2 ^ f.lo) else t) s

/-! Building. -/

/-- The field that a key of the register file holds, with instance and index. -/
def fieldAt (k : Nat) : Option (Field × Nat × Nat) :=
  match regAt (k / 64) with
  | some (d, u, i) => (d.fields.find? (fun f => f.lo == k % 64)).map (fun f => (f, u, i))
  | none => none

/-- Every field whose Reset is "image" is at its default, and no image is in force: what a whole-part image is built on. -/
def State.bare (s : State) : State :=
  ((s.withImg {}).withRegs (s.regs.drop (fun k _ => match fieldAt k with
      | some (f, _, _) => f.src == .image
      | none => false)))

/-- The image fields of a register at their defaults. -/
def State.bareReg (s : State) (a : Nat) : State :=
  match regAt a with
  | some (d, u, i) => d.fields.foldl (fun t f => if f.src == .image then t.fset f u i f.rst else t) s
  | none => s

/-- Entries of a table of an image that belong to partition `p` are taken out, by what the key means. -/
def dropPart {α : Type} (t : Tbl α) (f : Nat → Nat) (p : Nat) : Tbl α := t.drop (fun k _ => f k == p)

/-- The windows of partition `p`, by number, as hub `h` holds them. -/
def State.partWindows (s : State) (h p : Nat) : List Nat :=
  (List.range 128).filter (fun n => s.fget HUB_WIN_CTL.VALID h n == 1 && s.fget HUB_WIN_CTL.PART h n == p)

/-- The channel-list entries that a window uses. -/
def State.winEntries (s : State) (h n : Nat) : List Nat :=
  (List.range (2 ^ s.fget HUB_WIN_CTL.K h n * (if s.fget HUB_WIN_CTL.M3 h n = 1 then 3 else 1))).map
    (fun i => s.fget HUB_WIN_LIST.FIRST h n + i)

/-- The windows of a partition and their channel-list entries go in every hub. -/
def State.bareWindows (s : State) (p : Nat) : State :=
  (List.range 4).foldl (fun t h =>
    (t.partWindows h p).foldl (fun u n =>
      let u1 := (u.winEntries h n).foldl (fun w e => w.fset HUB_CHLIST.CHANNEL h e 0) u
      [HUB_WIN_BASE.BASE, HUB_WIN_CTL.VALID, HUB_WIN_LIST.FIRST, HUB_WIN_SIZE.SIZE].foldl
        (fun w f => w.bareReg (f.addr h n)) u1) t) s

/-- The tiles of a partition's towers, usable or not. -/
def State.towerTiles (s : State) (p : Nat) : List Nat := (List.range 64).filter (fun j => s.tilePart j == some p)

/-- What partition `p` took from its image is at its defaults and unassigned: what its new image is built on (R337). -/
def State.barePart (s : State) (p : Nat) : State :=
  let s1 := (s.towerTiles p).foldl (fun t j => (List.range 1024).foldl (fun u k => u.bareReg (0x200000 + j * 0x1000 + 4 * k)) t) s
  let s2 := s1.bareWindows p
  let s3 := (List.range 4).foldl (fun t h =>
    let t1 := ((List.range 128).filter (fun k => t.fget BWR_ACCT.VALID h k == 1 && t.fget BWR_ACCT.PART h k == p)).foldl
      (fun u k => u.bareReg (BWR_ACCT.VALID.addr h k)) t
    let t2 := [BWR_THAPEL_ACCT.VALID, KV_PART_CTL.COPPICE_EN].foldl (fun u f => u.bareReg (f.addr h p)) t1
    (List.range 16).foldl (fun u sl =>
      if u.slice h sl = (p, (u.slice h sl).2.1, true) then
        [HUB_LLM_MAP.PART0, HUB_LLM_MAP.LANDING0, HUB_LLM_MAP.EN0].foldl (fun w f => w.fsetAt f h (sl / 4) (8 * (sl % 4)) 0) u
      else u) t2) s2
  let s4 := (List.range 2).foldl (fun t u =>
    ((List.range 17).drop 1).foldl (fun w k =>
      if w.fget HIF_VF_BIND.EN u k = 1 ∧ w.fget HIF_VF_BIND.PART u k = p then w.bareReg (HIF_VF_BIND.EN.addr u k) else w)
      (t.bareReg (HIF_HWIN_BASE.BASE.addr u p))) s3
  let s5 := (List.range 16).foldl (fun t w =>
    if t.towerPart w = some p then (t.fbitSet PART_TOWER_EN.ASSIGNED 0 0 w false).fsetAt PART_TOWER_MAP.PART0 0 0 (4 * w) 0
    else t) s4
  let s6 := (List.range 512).foldl (fun t k =>
    if t.fget PROT_ENT_CTL.VALID 0 k = 1 ∧ t.fget PROT_ENT_CTL.PART 0 k = p then
      [PROT_ENT_CTL.VALID, PROT_ENT_BASE.BASE, PROT_ENT_SIZE.SIZE].foldl (fun w f => w.bareReg (f.addr 0 k)) t
    else t) s5
  let s7 := (s6.fbitSet SEC_ENC_CTL.PARTS 0 0 p false).fset DECK_PARK_US.IDLE_US (0x9000 + p) 0 DECK_PARK_US.IDLE_US.rst
  let m := s7.img
  ((s7.withRegs (s7.regs.drop (fun k _ => match fieldAt k with
      | some (f, u, _) => f.blk == .deck && f.off == 0x24 && s.fget DECK_QCFG.PART u 0 == p
      | none => false))).withImg { m with
      descs := dropPart m.descs (· / 65536) p, runs := dropPart m.runs (· / 262144) p, slots := dropPart m.slots (· / 262144) p
      maps := dropPart m.maps (· / 65536) p, mapEnds := dropPart m.mapEnds (· / 65536) p
      commits := dropPart m.commits (· / 16) p, sessions := dropPart m.sessions id p
      pools := m.pools.drop (fun _ v => fld v 2 1 == p)
      bases := m.bases.drop (fun c _ => fld (Tbl.get 0 m.pools c) 2 1 == p), preempts := m.preempts.filter (fun (q, _, _) => q != p)
      blobs := m.blobs.drop (fun k _ => k / 65536 == p + 1), kvScales := dropPart m.kvScales (· / 1048576) p
      regrow := dropPart m.regrow id p, windows := dropPart m.windows (· / 65536) p
      kvLayout := dropPart m.kvLayout (· / 65536) p
      shapes := m.shapes.drop (fun j _ => s.tilePart j == some p) })

/-- A partition's image writes its own part of a register that several share (R13, R215): its bytes of HUB_LLM_MAP, its
bit of SEC_ENC_CTL. -/
def State.putOwn (s : State) (p : Nat) (r : RegItem) : State :=
  match r.target with
  | none => s
  | some (d, u, i) =>
    match d.fields.headD SEC_ENC_CTL.PARTS with
    | f =>
      if f = SEC_ENC_CTL.PARTS then s.fbitSet f 0 0 p (r.val.testBit p)
      else if f.blk = .hub ∧ f.off = 0x3000 then
        (List.range 4).foldl (fun t k =>
          let b := fld r.val k 1
          if b % 16 = p ∧ b.testBit 5 = true then
            ((t.fsetAt HUB_LLM_MAP.PART0 u i (8 * k) b).fsetAt HUB_LLM_MAP.LANDING0 u i (8 * k) (b / 16)).fsetAt
              HUB_LLM_MAP.EN0 u i (8 * k) 1
          else t) s
      else if f = PART_TOWER_EN.ASSIGNED ∨ f.blk = .prot ∧ f.off = 0x28 then s
      else s.putReg d u i r.val

/-- The last value that REG items give PART_TOWER_MAP and PART_TOWER_EN, and the towers they give partition `p`. -/
def towersGiven (rs : List RegItem) (p : Nat) : List Nat :=
  let last (off : Nat) : Nat := ((rs.filter (fun r => r.blk == 5 && r.off == off)).getLast?.map (·.val)).getD 0
  (List.range 16).filter (fun t => (last 0x30).testBit t && last 0x28 / 16 ^ t % 16 == p)

/-- An item other than REG is taken in (Table 16.7): entry `k` of it lies at `a`. `bk` is the key of the next blob. A tile's
shape, a descriptor and a run entry are held with a bit above them, so that one of all zeros is there. -/
def State.putEntry (s : State) (rd : Nat → Byte) (bk : Nat) (i : Item16) (a k : Nat) : State :=
  let n := imgNat rd a
  let m := s.img
  let p := imgNat rd i.at_ 1
  let first := imgNat rd (i.at_ + 4) 4
  let g := imgNat rd (i.at_ + 1) 1
  let j := imgNat rd (i.at_ + 2) 1
  match i.code with
  | 0x0201 => (s.withImg { m with shapes := Tbl.put 0 m.shapes (n 1) (n 16 + 2 ^ 128) })
  | 0x0301 => (s.withImg { m with sessions := Tbl.put 0 m.sessions (n 1) (n 64) })
  | 0x0302 => (s.withImg { m with pools := Tbl.put 0 m.pools (n 2) (n 8) })
  | 0x0303 => (s.withImg { m with ledgers := Tbl.put 0 m.ledgers (n 1) (n 16) })
  | 0x0601 =>
    (((s.fset DECK_QCFG.PART (n 2) 0 (fld (n 8) 2 1)).fset DECK_QCFG.CLASS (n 2) 0 (fld (n 8) 3 1)).fset
      DECK_QCFG.LIMIT (n 2) 0 (fld (n 8) 4 1)).fset DECK_QCFG.ASSIGNED (n 2) 0 1
  | 0x0602 =>
    if fld (n 4) 1 1 = fld (n 4) 2 1 then s
    else (s.withImg { m with preempts := m.preempts ++ [(fld (n 4) 0 1, fld (n 4) 1 1, fld (n 4) 2 1)] })
  | 0x0801 => (s.withImg { m with descs := Tbl.put 0 m.descs (p * 65536 + first + k) (n 64 + 2 ^ 512) })
  | 0x0802 => (s.withImg { m with runs := Tbl.put 0 m.runs (graphKey p g j k) (n 16 + 2 ^ 128) })
  | 0x0803 => (s.withImg { m with slots := Tbl.put 0 m.slots (graphKey p g j (k + 1)) (n 16) })
  | 0x0804 =>
    (s.withImg { m with
        maps := Tbl.put 0 m.maps (p * 65536 + first + k) (n 8)
        mapEnds := Tbl.put 0 m.mapEnds (p * 65536 + first) (first + itemCount rd i) })
  | 0x0805 => (s.withImg { m with commits := Tbl.put 0 m.commits (p * 16 + g) (n 32) })
  | 0x0901 =>
    (s.withImg { m with
        blobs := Tbl.put [] m.blobs (bk + k) [n 1, imgNat rd (a + 1) 1, imgNat rd (a + 4) 4, imgNat rd (a + 8) 8,
          imgNat rd (a + 16) 8, imgNat rd (a + 24) 8] })
  | 0x0A01 =>
    (s.withImg { m with kvScales := Tbl.put 0 m.kvScales ((p * 65536 + k / max 1 g) * 16 + k % max 1 g) (n 8) })
  | 0x0A02 => (s.withImg { m with regrow := Tbl.put 0 m.regrow (n 1) (fld (n 8) 4 4) })
  | 0x0A03 => (s.withImg { m with windows := Tbl.put 0 m.windows (p * 65536 + k) (n 4) })
  | 0x0A04 => (s.withImg { m with kvLayout := Tbl.put 0 m.kvLayout (p * 65536 + k) (n 4) })
  | _ => s

/-- The REG entries of an image's items. -/
def regsOf (rd : Nat → Byte) (is : List Item16) : List RegItem :=
  (is.filter (fun i => i.code == 1)).flatMap (fun i => (entriesOf rd i).map (fun (a, _) => regItem rd a))

/-- Every item but REG is taken in; blobs are numbered in order from `bk` on. -/
def State.putItems (s : State) (rd : Nat → Byte) (bk : Nat) (is : List Item16) : State :=
  (is.foldl (fun (x : State × Nat) i =>
    ((entriesOf rd i).foldl (fun t (a, k) => t.putEntry rd x.2 i a k) x.1,
      if i.code = 0x0901 then x.2 + itemCount rd i else x.2)) (s, bk)).1

/-- Frames of the pool channels on a hub. -/
def State.hubFrames (s : State) (h : Nat) : Nat :=
  (s.img.pools.filterMap (fun (c, v) => if c / 192 = h then some (fld v 4 4) else none)).sum

/-- The ranges of page numbers of a hub's pool channels that have a base: first and one past the last. -/
def State.poolRanges (s : State) (h : Nat) : List (Nat × Nat) :=
  s.img.pools.filterMap (fun (c, v) => match (s.img.bases.find? (fun x => x.1 == c)) with
    | some (_, b) => if c / 192 = h then some (b - 1, b - 1 + fld v 4 4) else none
    | none => none)

/-- Each pool channel that has no base is given the lowest at which its frames meet no other channel's (assumption 21). The
table holds one more than the base. -/
def State.placePools (s : State) : State :=
  s.img.pools.foldl (fun t (c, v) =>
    if t.img.bases.any (fun x => x.1 == c) then t
    else
      let rs := t.poolRanges (c / 192)
      let fits (b : Nat) : Bool := rs.all (fun (x, y) => decide (b + fld v 4 4 ≤ x) || decide (y ≤ b))
      let ends := (0 :: rs.map Prod.snd).filter fits
      (t.withImg { t.img with bases := Tbl.put 0 t.img.bases c (ends.foldl min (ends.headD 0) + 1) })) s

/-- The state with a whole-part image taken in. -/
def State.withImage (s : State) (rd : Nat → Byte) (is : List Item16) : State :=
  let s1 := (regsOf rd is).foldl (fun t r => match r.target with
    | some (d, u, i) => t.putReg d u i r.val
    | none => t) s.bare
  let s2 := (s1.putItems rd 0 is).placePools
  (List.range 4).foldl (fun t h => t.fset KV_POOL_FREE.FREE_FRAMES h 0 (t.hubFrames h)) s2

/-- The state with the image of partition `p` taken in. -/
def State.withPart (s : State) (rd : Nat → Byte) (p : Nat) (is : List Item16) : State :=
  let rs := regsOf rd is
  let s1 := rs.foldl (fun t r => t.putOwn p r) (s.barePart p)
  let s2 := (towersGiven rs p).foldl (fun t w =>
    (t.fbitSet PART_TOWER_EN.ASSIGNED 0 0 w true).fsetAt PART_TOWER_MAP.PART0 0 0 (4 * w) p) s1
  (s2.putItems rd (65536 * (p + 1)) is).placePools

end Sys2Proof.Machine
end

