-- ==== Sys2Proof/Machine/LoadRules.lean ====
section
/-!
DEFINITION. The loader's rules for graphs: runs, slots, descriptors (R29, R30, R41, R58, R70, R80, R94 to R97, R101, R102, R110,
R116, R118, R119, R122, R132, R133, R136, R137, R140, R144, R146). Each is a check on the state with the image taken in:
`true` where the rule is broken.
-/

namespace Sys2Proof.Machine

/-- An operator of a graph on a tile: partition, graph, tile, its run entry, its place in the run, its descriptor. -/
structure OpAt where
  part : Nat
  graph : Nat
  tile : Nat
  run : Nat
  idx : Nat
  desc : Nat
  deriving DecidableEq, Repr

/-- A field of the descriptor. -/
def OpAt.f (o : OpAt) (off n : Nat) : Nat := fld o.desc off n

/-- Iterations of its run. -/
def OpAt.repeats (o : OpAt) : Nat := fld o.run 4 2

/-- The opcode. -/
def OpAt.op (o : OpAt) : Nat := o.f 0 1

/-- A field with its step, in the last iteration (R92); steps only add. -/
def OpAt.lastVal (o : OpAt) (off n stepOff : Nat) : Nat := o.f off n + (o.repeats - 1) * o.f stepOff 4

/-- The layers that a LAYER_KV field names over the iterations. -/
def OpAt.kvLayers (o : OpAt) (off : Nat) : List Nat :=
  (List.range o.repeats).map (fun i => (o.f off 2 + i * fld o.run 8 2) % 65536)

/-- The run entries of a tile in a graph, in table order. -/
def State.tileRunsOf (s : State) (p g j : Nat) : List Nat :=
  ((List.range 256).map (fun k => Tbl.get 0 s.img.runs (graphKey p g j k))).filter (· != 0)

/-- The operators of a tile in a graph. -/
def State.tileOps (s : State) (p g j : Nat) : List OpAt :=
  (s.tileRunsOf p g j).flatMap (fun r => (List.range (fld r 2 2)).map (fun i =>
    ⟨p, g, j, r, i, Tbl.get 0 s.img.descs (p * 65536 + fld r 0 2 + i)⟩))

/-- The operators of a graph of a partition. -/
def State.graphOpsAt (s : State) (p g : Nat) : List OpAt := (List.range 64).flatMap (s.tileOps p g)

/-- The operators of all graphs of a partition. -/
def State.partOps (s : State) (p : Nat) : List OpAt := (List.range 16).flatMap (s.graphOpsAt p)

/-! Runs and slots. -/

/-- A run entry is broken: COUNT and REPEAT outside Table 4.1, or past the pool. -/
def runBad (r : Nat) : Bool :=
  fld r 2 2 == 0 || decide (fld r 2 2 > 4096) || fld r 4 2 == 0 || decide (fld r 0 2 + fld r 2 2 > 65536)

/-- A slot entry of a tile is broken (R58, R96, R101, R102, R116): its format, its alignment, the end of the working store,
the end of a SEC-DED region, region 11. -/
def State.slotBad (s : State) (j e : Nat) : Bool :=
  match fmtOf (fld e 10 1) with
  | none => true
  | some f =>
    let sl : Slot := ⟨fld e 0 3, fld e 4 4, fld e 8 2, f⟩
    let last := sl.loc + (sl.size - 1)
    let r0 := sl.loc / 2 ^ 20
    let r1 := last / 2 ^ 20
    fld e 3 1 != 0 || fld e 11 1 / 2 != 0 || fld e 12 4 != 0 || sl.loc % 64 != 0 || sl.rows == 0 || sl.cols == 0 ||
    decide (last ≥ 12 * 2 ^ 20) || decide (r1 ≥ 11) ||
    (if s.regionEcc j r0 then r1 != r0 || decide (last % 2 ^ 20 ≥ 896 * 1024)
     else ((List.range 12).filter (fun r => decide (r0 ≤ r) && decide (r ≤ r1))).any (s.regionEcc j))

/-- The slot entries of a tile in a graph. -/
def State.slotEntries (s : State) (p g j : Nat) : List Nat :=
  ((List.range 256).map (fun k => Tbl.get 0 s.img.slots (graphKey p g j k))).filter (· != 0)

/-- Two slot entries of a pre-emption pair may not stand together (R94): they overlap and are not both SHARED. -/
def slotClash (a b : Nat) : Bool :=
  match fmtOf (fld a 10 1), fmtOf (fld b 10 1) with
  | some f, some g =>
    Slot.overlaps ⟨fld a 0 3, fld a 4 4, fld a 8 2, f⟩ ⟨fld b 0 3, fld b 4 4, fld b 8 2, g⟩ &&
      !(fld a 11 1 % 2 == 1 && fld b 11 1 % 2 == 1)
  | _, _ => false

/-! Descriptors. -/

/-- The reserved bytes of a descriptor's body by opcode (Tables 4.5 to 4.10), as ranges. -/
def reservedBytes (op : Nat) : List (Nat × Nat) :=
  match op with
  | 1 => [(13, 14), (56, 60)]
  | 2 => []
  | 3 => [(31, 64)]
  | 4 => [(29, 64)]
  | 5 => [(34, 64)]
  | 6 => [(14, 16), (28, 64)]
  | 7 => [(13, 14), (32, 64)]
  | 8 => [(12, 16), (28, 64)]
  | 9 => [(15, 16), (20, 64)]
  | 10 => [(14, 15), (26, 64)]
  | 11 => [(10, 11), (13, 16), (26, 64)]
  | 12 => [(36, 64)]
  | 13 => [(12, 16), (28, 32), (40, 64)]
  | 14 => [(13, 14), (52, 64)]
  | 15 => [(14, 16), (24, 32), (40, 44), (48, 64)]
  | 16 => [(21, 64)]
  | 17 => [(9, 14), (28, 64)]
  | 18 => [(9, 14), (20, 64)]
  | _ => []

/-- The descriptor at index `i` of a pool is broken in itself: its header, its reserved bytes, the format codes it holds
(R95 to R97). -/
def descBad (i d : Nat) : Bool :=
  let op := fld d 0 1
  op == 0 || decide (op > 18) || fld d 1 1 / 2 != 0 || fld d 2 2 != 0 || fld d 4 2 != i ||
  (reservedBytes op).any (fun (a, b) => fld d a (b - a) != 0) ||
  ((op == 1 || op == 2) && (fmtOf (fld d 9 1)).isNone) || (op == 13 && (fmtOf (fld d 10 1)).isNone)

/-- Some descriptor of a partition's pool is broken in itself, whether a run names it or not. -/
def State.descsBad (s : State) (p : Nat) : Bool :=
  s.img.descs.any (fun (k, d) => k / 65536 == p && descBad (k % 65536) d)

/-- A descriptor's header or reserved bytes are broken (R95, R97). -/
def OpAt.headBad (o : OpAt) : Bool := descBad (fld o.run 0 2 + o.idx) o.desc

/-- A slot that a descriptor byte names. -/
def State.opSlot (s : State) (o : OpAt) (off : Nat) : Option Slot := s.slotOf o.part o.graph o.tile (o.f off 1)

/-- A required slot is absent, or its format or shape is not what the operator takes: at least `rows` rows of `cols`
elements in a format that `ok` accepts. -/
def State.needs (s : State) (o : OpAt) (off rows cols : Nat) (ok : Fmt → Bool) : Bool :=
  match s.opSlot o off with
  | some sl => !(decide (rows ≤ sl.rows) && decide (cols ≤ sl.cols) && ok sl.fmt)
  | none => true

/-- An optional slot is broken: named, but not what the operator takes. -/
def State.maybe (s : State) (o : OpAt) (off rows cols : Nat) (ok : Fmt → Bool) : Bool :=
  o.f off 1 != 0 && s.needs o off rows cols ok

/-- A slot holds at least `n` elements in its element order. -/
def State.needsFlat (s : State) (o : OpAt) (off n : Nat) (ok : Fmt → Bool) : Bool :=
  match s.opSlot o off with
  | some sl => !(decide (n ≤ sl.rows * sl.cols) && ok sl.fmt)
  | none => true

/-- The formats of the exact path's symmetric pairing but ABF4 (Table 3.3). -/
def fp8Like : Fmt → Bool
  | .e4m3 | .e5m2 | .mxE4m3 | .mxE5m2 | .mxE3m2 | .mxE2m3 | .mxfp4 => true
  | _ => false

/-- The float formats of Table 4.4. -/
def floatFmt : Fmt → Bool
  | .fp32 | .fp16 | .bf16 | .abf4 | .mxint8 => true
  | f => fp8Like f

/-- A pass takes the pairing (R70, Table 3.3). -/
def pairOk (a b : Fmt) : Bool :=
  (a == .bf16 && b == .bf16) || (fp8Like a && (fp8Like b || b == .abf4)) || (a == .abf4 && fp8Like b) ||
  (a == .mxint8 && b == .mxint8) || (a == .int8 && b == .int8)

/-- The FP32 number is positive, finite and normal (R80). -/
def posNormal (c : Nat) : Bool := decide (0x00800000 ≤ c) && decide (c < 0x7F800000)

/-- The largest N of a shape (Table 2.4). -/
def maxN (gang : Nat) (w : Fmt) : Nat := (if gang = 6 then 256 else 128) / (if w.bits = 4 then 2 else 1)

/-- A matrix operator is broken (R41, R70, R80, R116, R144). -/
def State.matBad (s : State) (o : OpAt) : Bool :=
  match fmtOf (o.f 9 1), s.opSlot o 10, s.opSlot o 11 with
  | some w, some i, some out =>
    let outs := o.f 16 4
    let contract := o.f 20 4
    let mode := o.f 12 1
    let stream := o.op == 1
    let inSlot := !stream && mode.testBit 2
    let vectors := if stream then o.f 14 2 else o.f 56 4
    let wBytes := w.packed (outs * contract)
    let sBytes := if w.block then outs * ceilDiv contract 32 else 0
    let room := if inSlot then ((s.opSlot o 13).map Slot.size).getD 0 else t0Size
    !pairOk w i.fmt || outs == 0 || contract == 0 || vectors == 0 ||
    ((w.block || i.fmt.block) && contract % 32 != 0) || decide (mode ≥ (if stream then 4 else 8)) ||
    s.needs o 10 vectors contract (fun _ => true) || s.needs o 11 vectors outs (fun _ => true) ||
    (mode.testBit 0 && out.fmt != (if w == .int8 then .int32 else .fp32)) ||
    (w == .abf4 && !posNormal (o.f 40 4)) || (i.fmt == .abf4 && !posNormal (o.f 60 4)) ||
    (inSlot && (s.opSlot o 13).isNone) ||
    decide (o.lastVal 24 8 48 + wBytes > room) || (sBytes != 0 && decide (o.lastVal 32 8 52 + sBytes > room)) ||
    (if stream then o.f 8 1 % 16 == 0 || decide (o.f 8 1 / 16 % 8 > 4) || decide (vectors > 8 * 2 ^ (o.f 8 1 / 16 % 8))
     else decide (o.f 8 1 > 6) || o.f 14 2 == 0 || decide (o.f 14 2 > maxN (o.f 8 1) w))
  | _, _, _ => true

/-- The head dimension of a HEAD_DIM code. -/
def OpAt.dim (o : OpAt) (off : Nat) : Nat := headDim (o.f off 1)

/-- An operator's use of KV disagrees with KV_LAYOUT in some iteration (R146). -/
def State.kvBad (s : State) (o : OpAt) (layerOff dimOff head0 heads : Nat) : Bool :=
  decide (o.f dimOff 1 > 2) || heads == 0 || decide (heads > 16) ||
  (o.kvLayers layerOff).any (fun l =>
    !(s.layers o.part).contains l || s.kvLay o.part l 1 != o.f dimOff 1 || decide (head0 + heads > s.layerH o.part l))

/-- An attention operator is broken (R119, R122, R136, R137, R146). -/
def State.attnBad (s : State) (o : OpAt) : Bool :=
  let dec := o.op == 4
  let bwd := o.op == 5
  let d := o.dim 17
  let heads := o.f 15 1 * o.f 14 1
  let rows := if dec then o.f 20 1 * o.f 21 1 else o.f 20 4
  let w := o.f 18 2
  let parts := o.f 23 1 / 16 + 1
  s.kvBad o 12 17 (o.f 16 1) (o.f 15 1) || o.f 14 1 == 0 || decide (o.f 14 1 > 128) || rows == 0 ||
  decide (o.f 28 1 > 1) || (o.f 28 1 == 1 && w != 0) ||
  (o.kvLayers 12).any (fun l => s.layerW o.part l != w) || w % s.pageT o.part != 0 ||
  (if dec then
     decide (o.f 20 1 > 128) || decide (o.f 21 1 > 8) || decide (rows > 128) || decide (o.f 22 1 > 2) ||
     decide (o.f 23 1 % 16 ≥ parts) || s.needs o 8 rows (heads * d) fp8Like ||
     (o.f 20 1 != 1 && s.needs o 11 rows 16 (· == .u32)) ||
     (if parts = 1 then s.needs o 9 rows (heads * d) floatFmt || s.maybe o 10 rows (2 * heads) (· == .fp32)
      else if o.f 9 1 = 0 ∨ o.f 9 1 = o.f 10 1 then s.needs o 10 rows ((d + 2) * heads) (· == .fp32)
      else s.needs o 9 rows (heads * d) (· == .fp32) || s.needs o 10 rows (2 * heads) (· == .fp32))
   else
     decide (o.f 29 1 ≥ 8) || decide (o.f 30 1 > 6) || (w != 0 && decide (rows > w)) ||
     (if bwd then
        s.needs o 8 rows (heads * d) (fun f => f == .fp32 || f == .bf16) || s.needs o 9 rows (heads * d) fp8Like ||
        s.needs o 10 rows (2 * heads) (· == .fp32) || s.needs o 11 rows (heads * d) (· == .fp32) ||
        s.needs o 31 rows (o.f 15 1 * d) (· == .fp32) || s.needs o 32 rows (o.f 15 1 * d) (· == .fp32) ||
        s.maybe o 33 rows 1 (· == .u16)
      else
        s.needs o 8 rows (heads * d) fp8Like || s.needs o 9 rows (heads * d) floatFmt ||
        s.maybe o 10 rows (2 * heads) (· == .fp32) || s.maybe o 11 rows 1 (· == .u16)))

/-- A vector operator is broken: NORM, ROPE, ACT, ROUTE, SAMPLE, EMBED (Tables 4.7, 4.8, 4.10; R140, R504). -/
def State.vecBad (s : State) (o : OpAt) : Bool :=
  let any : Fmt → Bool := fun _ => true
  match o.op with
  | 6 =>
    let w := o.f 16 4
    let r := o.f 20 4
    w == 0 || r == 0 || decide (o.f 12 1 > 1) || s.needs o 8 r w any || s.needs o 9 r w any || s.needs o 10 1 w any ||
    s.maybe o 11 1 w any || s.maybe o 13 r w any
  | 7 =>
    let w := o.f 16 4 * o.dim 12
    let r := o.f 20 4
    w == 0 || r == 0 || decide (o.f 12 1 > 2) || decide (o.f 11 1 > 1) || o.f 14 2 % 2 != 0 || decide (o.f 14 2 > o.dim 12) ||
    s.needs o 8 r w any || s.needs o 9 r w any || (o.f 10 1 != 0 && s.needsFlat o 10 r (· == .u32))
  | 8 =>
    let w := o.f 16 4
    let r := o.f 20 4
    w == 0 || r == 0 || decide (o.f 11 1 > 7) || s.needs o 8 r w any || s.needs o 9 r w any || s.maybe o 10 r w any
  | 9 =>
    let r := o.f 16 4
    let k := o.f 11 1
    let e := o.f 12 2
    r == 0 || k == 0 || decide (k > 8) || e == 0 || decide (e > 256) || decide (k > e) || decide (o.f 14 1 > 2) ||
    s.needs o 8 r e any || s.needs o 9 r k (· == .u8) || s.needs o 10 r k (· == .fp32)
  | 12 =>
    let n := o.f 13 1 + 1
    let row := o.f 12 1
    decide (row ≥ 8) || decide (n > 128) || decide (o.f 14 2 > 1024) || decide (o.f 11 1 > 1) || o.f 16 4 == 0 ||
    s.needs o 8 (if s.commitF o.part o.graph 0 1 = 0 then 1 else row * n + n) (o.f 16 4) any || (o.f 9 1 != 0 && s.needs o 9 (row * n + n) 16 (· == .u32)) ||
    s.needs o 10 (row + 1) 257 (· == .u32)
  | _ =>
    let w := o.f 16 4
    match fmtOf (o.f 10 1) with
    | none => true
    | some f =>
      let pitch := up64 (f.packed w + (if f.block then w / 32 else 0))
      w == 0 || o.f 20 4 == 0 || decide (o.f 11 1 > 1) || (f.block && w % 32 != 0) || s.needs o 9 1 w any ||
      (f == .abf4 && !posNormal (o.f 24 4)) || (o.f 8 1 != 0 && s.needs o 8 1 1 (· == .u32)) ||
      (o.f 11 1 == 0 && decide (o.f 32 8 + o.f 20 4 * pitch > t0Size))

/-- The element format of a REDUCE TYPE. -/
def reduceFmt (ty : Nat) : Fmt := if ty = 0 then .fp32 else if ty = 1 then .bf16 else if ty = 2 then .int32 else .int64

/-- Bytes of a slot reach from `off`: ROWS rows of ROW_BYTES, one every `pitch`. -/
def reach (off rows bytes pitch : Nat) : Nat := off + (rows - 1) * pitch + bytes

/-- A moving operator is broken: DISPATCH, COMBINE, COPY, REDUCE, KV_APPEND (R99, R100, R132). -/
def State.moveBad (s : State) (o : OpAt) : Bool :=
  let any : Fmt → Bool := fun _ => true
  match o.op with
  | 10 =>
    let r := o.f 16 4
    let k := o.f 11 1
    r == 0 || k == 0 || decide (k > 8) || decide (o.f 15 1 ≥ 64) || o.f 20 4 == 0 || o.f 20 4 % 64 != 0 ||
    o.f 12 2 == 0 || decide (o.f 12 2 > 256) || decide (o.f 24 2 + o.f 12 2 > 65536) ||
    s.needs o 8 r 1 any || (s.opSlot o 8).any (fun sl => decide (sl.pitch < o.f 20 4)) || s.needs o 9 r k (· == .u8) || s.needs o 10 r k (· == .fp32)
  | 11 => decide (o.f 11 1 > 1) || o.f 12 1 == 0 || decide (o.f 12 1 > 8) || o.f 20 4 == 0 ||
    s.needs o 8 (max 1 (o.f 16 4)) (o.f 20 4) (· == .fp32) ||
    (match s.opSlot o 9 with
     | some sl => decide (sl.rows * sl.fmt.packed sl.cols < (if o.f 16 4 = 0 then 256 else 64 * o.f 16 4))
     | none => true)
  | 14 =>
    let sk := o.f 8 1
    let dk := o.f 9 1
    let n := o.f 14 2
    let b := o.f 32 4
    let srcEnd := reach (o.lastVal 16 8 44) n b (o.f 36 4)
    let dstEnd := reach (o.lastVal 24 8 48) n b (o.f 40 4)
    sk == 4 || decide (sk > 5) || decide (dk > 4) || (dk != 0 && dk != 4 && decide (o.f 24 8 < t0Size)) || n == 0 || b == 0 || b % 64 != 0 ||
    (sk == 0 && (match s.opSlot o 10 with
      | some sl => decide (srcEnd > sl.size)
      | none => true)) ||
    (sk == 5 && decide (srcEnd > t0Size)) ||
    (dk == 0 && (match s.opSlot o 11 with
      | some sl => decide (dstEnd > sl.size)
      | none => true)) ||
    (dk == 4 && (decide (o.f 12 1 ≥ 64) || (match s.slotOf o.part o.graph (o.f 12 1) (o.f 11 1) with
      | some sl => decide (dstEnd > sl.size)
      | none => true)))
  | 15 =>
    let f := reduceFmt (o.f 11 1)
    let e := o.f 32 4
    let r := o.f 36 4
    let op := o.f 10 1
    decide (op > 3) || decide (o.f 11 1 > 3) || decide (o.f 12 1 > 1) || e == 0 || r == 0 ||
    (if o.f 12 1 = 0 then op == 3 || decide (o.f 16 8 < t0Size) || s.needs o 8 r e (· == f)
     else
       decide (o.f 13 1 < 2) || decide (o.f 13 1 > 16) || (op == 3 && (f != .fp32 || decide (e < 3))) ||
       s.needsFlat o 8 (r * o.f 13 1 * e) (· == f) || s.needsFlat o 9 (r * e) (if op = 3 then floatFmt else (· == f)))
  | _ =>
    s.kvBad o 14 20 (o.f 12 1) (o.f 13 1) || decide (o.f 10 1 ≥ 8) || o.f 16 4 == 0 || decide (o.f 16 4 > 128) ||
    decide (o.f 11 1 > 1) || s.needs o 8 (o.f 16 4) (o.f 13 1 * o.dim 20) any || s.needs o 9 (o.f 16 4) (o.f 13 1 * o.dim 20) any

/-- A WAIT or SIGNAL is broken: its semaphore lies outside its scope (R116), ADD outside Table 4.10. -/
def OpAt.semBad (o : OpAt) : Bool :=
  decide (o.f 8 1 > 1) || decide (o.f 14 2 ≥ (if o.f 8 1 = 0 then 4096 else 64)) ||
  (o.op == 18 && (o.f 16 4 == 0 || decide (o.f 16 4 > 65535)))

/-- A descriptor breaks a rule on its tile. -/
def State.opBad (s : State) (o : OpAt) : Bool :=
  o.headBad ||
  (match o.op with
   | 1 | 2 => s.matBad o
   | 3 | 4 | 5 => s.attnBad o
   | 6 | 7 | 8 | 9 | 12 | 13 => s.vecBad o
   | 10 | 11 | 14 | 15 | 16 => s.moveBad o
   | _ => o.semBad)

/-! Whole graphs. -/

/-- The semaphores that a graph's SIGNALs name, each with its static sum of ADDs (R110): partition semaphores by number,
tile-local ones with their tile. -/
def State.semSums (s : State) (p g : Nat) : List (Nat × Nat) :=
  let sg := (s.graphOpsAt p g).filter (fun o => o.op == 18)
  let key (o : OpAt) : Nat := if o.f 8 1 = 0 then o.f 14 2 else 65536 + o.tile * 64 + o.f 14 2
  (sg.map key).eraseDups.map (fun k => (k, ((sg.filter (fun o => key o == k)).map (fun o => o.f 16 4 * o.repeats)).sum))

/-- Two attention operators disagree: another GROUP for one layer of the partition (R118), another number of SPLIT parts for
one layer of a graph (R133). -/
def attnClash (a b : OpAt) : Bool :=
  (a.kvLayers 12).any (fun l => (b.kvLayers 12).contains l) &&
  (a.f 14 1 != b.f 14 1 || (a.graph == b.graph && a.op == 4 && b.op == 4 && a.f 23 1 / 16 != b.f 23 1 / 16))

/-- A tuning graph breaks R144: a matrix operator with weights in a slot whose CONTRACT and K_TOTAL both exceed 64. -/
def State.tuningBad (s : State) (p g : Nat) : Bool :=
  let os := s.graphOpsAt p g
  os.any (fun o => o.op == 5) &&
  os.any (fun o => o.op == 2 && (o.f 12 1).testBit 2 && decide (o.f 20 4 > 64) && decide (o.f 16 4 > 64))

/-- A commit entry is broken (R416). -/
def State.commitBad (s : State) (p g : Nat) : Bool :=
  let c := Tbl.get 0 s.img.commits (p * 16 + g)
  c != 0 &&
  (decide (fld c 0 1 > 1) || fld c 1 1 == 0 || decide (fld c 1 1 > 8) || decide (fld c 3 1 > 1) ||
   (if fld c 0 1 = 0 then fld c 1 1 != 1 || fld c 2 1 != 0 || fld c 4 4 == 0
    else fld c 2 1 == 0 || decide (fld c 2 1 > 128) || fld c 4 4 != 0 || fld c 10 1 == 0) ||
   decide (fld c 11 1 ≥ 64) || fld c 13 19 != 0 ||
   (fld c 10 1 != 0 && (s.slotOf p g (fld c 11 1) (fld c 10 1)).isNone))

/-- A graph of a partition breaks a rule. -/
def State.graphBad (s : State) (p g : Nat) : Bool :=
  (List.range 64).any (fun j =>
    let rs := s.tileRunsOf p g j
    let es := s.slotEntries p g j
    ((rs != [] || es != []) && !(s.partTiles p).contains j) || rs.any runBad || es.any (s.slotBad j)) ||
  (s.graphOpsAt p g).any s.opBad || (s.semSums p g).any (fun (_, n) => decide (n > 0xFFFFFFFF)) || s.tuningBad p g ||
  s.commitBad p g

/-- The graphs of a partition break a rule. -/
def State.graphsBad (s : State) (p : Nat) : Bool :=
  s.descsBad p || (List.range 16).any (s.graphBad p) ||
  (pairs ((s.partOps p).filter (fun o => o.op == 3 || o.op == 4 || o.op == 5))).any (fun (a, b) => attnClash a b)

/-- A listed pre-emption pair is broken (R94): graphs outside the 16, or slots that clash on some tile. -/
def State.preemptBad (s : State) : Bool :=
  s.img.preempts.any (fun (p, lo, hi) => decide (p ≥ 16) || decide (lo ≥ 16) || decide (hi ≥ 16) ||
    (List.range 64).any (fun j => (s.slotEntries p lo j).any (fun a => (s.slotEntries p hi j).any (slotClash a))))

end Sys2Proof.Machine
end

