-- ==== Sys2Proof/Machine/Loader.lean ====
section
/-!
DEFINITION. The loader: its rules for memory, regulation, protection, decks and fabric (R4, R14, R156, R172, R195, R197, R225,
R242, R250, R251, R285, R299, R363, R501), the order of its checks (R417, Table 16.9), the images of single partitions (R337),
and an image's acceptance.
-/

namespace Sys2Proof.Machine

/-! Exact fractions, for admission. -/

/-- The sum of two fractions, each as numerator and denominator. -/
def fracAdd (a b : Nat × Nat) : Nat × Nat := if a.1 = 0 then b else if b.1 = 0 then a else (a.1 * b.2 + b.1 * a.2, a.2 * b.2)

/-- The sum of fractions. -/
def fracSum (l : List (Nat × Nat)) : Nat × Nat := l.foldl fracAdd (0, 1)

/-- One fraction exceeds another. -/
def fracGt (a b : Nat × Nat) : Bool := decide (a.1 * b.2 > b.1 * a.2)

/-! Memory (R195, R197). -/

/-- The channels of a window as hub 0 holds it. -/
def State.winChans (s : State) (n : Nat) : List Nat := (s.winEntries 0 n).map (fun e => s.fget HUB_CHLIST.CHANNEL 0 e)

/-- A channel is out of service (R212). -/
def State.chanOos (s : State) (c : Nat) : Bool := s.fbit HUB_CHAN_OOS.OOS (c / 192) (c % 192 / 32) (c % 32)

/-- The valid windows. -/
def State.windows (s : State) : List Nat := (List.range 128).filter (fun n => s.fget HUB_WIN_CTL.VALID 0 n == 1)

/-- The first address of a window and the one past its last. -/
def State.winRange (s : State) (n : Nat) : Nat × Nat :=
  (s.fget HUB_WIN_BASE.BASE 0 n * 2 ^ 21, (s.fget HUB_WIN_BASE.BASE 0 n + s.fget HUB_WIN_SIZE.SIZE 0 n) * 2 ^ 21)

/-- Addresses from `a` to `b` are covered by valid address entries of partition `p` in the map's shadow, each with a right
(R197). -/
def State.covered (s : State) (p b : Nat) : Nat → Nat → Bool
  | 0, a => decide (b ≤ a)
  | fuel + 1, a =>
    if b ≤ a then true
    else
      let ends := (List.range 512).filterMap (fun k =>
        let lo := s.fget PROT_ENT_BASE.BASE 0 k
        let hi := lo + s.fget PROT_ENT_SIZE.SIZE 0 k
        if s.fget PROT_ENT_CTL.VALID 0 k = 1 ∧ s.fget PROT_ENT_CTL.KIND 0 k = 0 ∧ s.fget PROT_ENT_CTL.PART 0 k = p ∧
            s.fget PROT_ENT_CTL.RIGHTS 0 k ≠ 0 ∧ lo ≤ a ∧ a < hi then some hi else none)
      match ends with
      | [] => false
      | e :: es => State.covered s p b fuel (es.foldl max e)

/-- A valid window breaks R195 or R197. -/
def State.winBad (s : State) (n : Nat) : Bool :=
  let (lo, hi) := s.winRange n
  let k := s.fget HUB_WIN_CTL.K 0 n
  let cs := s.winChans n
  let units := s.fget HUB_WIN_SIZE.SIZE 0 n
  let first := s.fget HUB_WIN_LIST.FIRST 0 n
  let comp := s.fget HUB_WIN_CTL.KIND 0 n == 1
  units == 0 || decide (lo < 0x10000000000) || decide (hi > 0x2B000000000) || decide (cs.length > 768) || decide (k > 8) ||
  decide (first + cs.length > 768) || cs.any (fun c => decide (c ≥ 768) || s.chanOos c) ||
  (if comp then cs.length != 1 || s.fget HUB_WIN_CTL.CLASS 0 n != 1 || hi - lo != chanSize ||
     lo != 0x10000000000 + cs.headD 0 * chanSize
   else (hi - lo) % (cs.length * 512) != 0 || decide (hi - lo > cs.length * chanSize))

/-- A valid window of a partition that the image brings is not covered by the map's shadow (R197). -/
def State.winBare (s : State) (mine : Nat → Bool) (n : Nat) : Bool :=
  let p := s.fget HUB_WIN_CTL.PART 0 n
  mine p && !s.covered p (s.winRange n).2 512 (s.winRange n).1

/-- The hubs' window tables and channel lists differ (R195, R501). -/
def State.copiesDiffer (s : State) : Bool :=
  (List.range 4).any (fun h =>
    (List.range 128).any (fun n => [HUB_WIN_BASE.BASE, HUB_WIN_SIZE.SIZE, HUB_WIN_CTL.VALID, HUB_WIN_CTL.KIND, HUB_WIN_CTL.CLASS,
      HUB_WIN_CTL.PREFETCHABLE, HUB_WIN_CTL.PART, HUB_WIN_CTL.K, HUB_WIN_CTL.M3, HUB_WIN_LIST.FIRST].any
        (fun f => s.fget f h n != s.fget f 0 n)) ||
    (List.range 768).any (fun n => s.fget HUB_CHLIST.CHANNEL h n != s.fget HUB_CHLIST.CHANNEL 0 n))

/-- A hub's ledger is broken (R156, R197): a hub has more than 4,194,304 frames, or frames and no ledger; the ledger's 64 MiB
lie in a window that is not protected, or whose channels are not all the hub's. -/
def State.ledgerBad (s : State) (h : Nat) : Bool :=
  let e := Tbl.get 0 s.img.ledgers h
  let a := fld e 8 8
  decide (s.hubFrames h > 4194304) || (s.hubFrames h != 0 && e == 0) ||
  (e != 0 && (match s.window 0 a with
    | none => true
    | some n => decide ((s.winRange n).2 < a + 0x4000000) || s.fget HUB_WIN_CTL.CLASS 0 n != 0 ||
        (s.winChans n).any (fun c => c / 192 != h)))

/-- A pool channel is broken (R147, R156): not a computable window of its partition, more frames than it holds, or page numbers
past the hub's 4,194,304. -/
def State.poolBad (s : State) (c v : Nat) : Bool :=
  let p := fld v 2 1
  decide (c ≥ 768) || decide (p ≥ 16) ||
  !s.windows.any (fun n => s.fget HUB_WIN_CTL.KIND 0 n == 1 && s.fget HUB_WIN_CTL.PART 0 n == p && s.winChans n == [c]) ||
  decide (fld v 4 4 * s.frameSize p > chanSize) || decide (Tbl.get 0 s.img.bases c - 1 + fld v 4 4 > 4194304)

/-- A session range is broken: T, or slots past the 32,768. -/
def sessBad (v : Nat) : Bool := decide (fld v 0 1 ≥ 16) || decide (fld v 1 1 > 2) || decide (fld v 4 4 + fld v 8 4 > 32768)

/-- The MEMORY section's rules, `mine` the partitions that the image brings. No rule asks that session records and histories lie
in a window of their partition, and none is made here: an image may place them elsewhere (DESIGN CHOICE, assumption 22). -/
def State.memBad (s : State) (mine : Nat → Bool) : Bool :=
  let ws := s.windows
  s.copiesDiffer || ws.any s.winBad || ws.any (s.winBare mine) || !(ws.flatMap s.winChans).Nodup || !(ws.flatMap (s.winEntries 0)).Nodup ||
  (pairs ws).any (fun (a, b) =>
    meets (s.winRange a).1 ((s.winRange a).2 - (s.winRange a).1) (s.winRange b).1 ((s.winRange b).2 - (s.winRange b).1)) ||
  s.img.pools.any (fun (c, v) => s.poolBad c v) || (List.range 4).any s.ledgerBad ||
  s.img.sessions.any (fun (_, v) => sessBad v) ||
  (pairs s.img.sessions).any (fun (a, b) => meets (fld a.2 4 4) (fld a.2 8 4) (fld b.2 4 4) (fld b.2 8 4)) ||
  (List.range 4).any (fun h => (List.range 16).any (fun sl => (s.slice h sl).2.2 && s.fbit ERR_SELFTEST.LLM_SLICES h 0 sl))

/-! Protection (R327). -/

/-- Entry `k` of the map's shadow. -/
def State.shadow (s : State) (k : Nat) : ProtEnt :=
  { valid := s.fget PROT_ENT_CTL.VALID 0 k == 1, kind := s.fget PROT_ENT_CTL.KIND 0 k, part := s.fget PROT_ENT_CTL.PART 0 k
    rights := s.fget PROT_ENT_CTL.RIGHTS 0 k, src := s.fget PROT_ENT_CTL.SRC 0 k, base := s.fget PROT_ENT_BASE.BASE 0 k
    size := s.fget PROT_ENT_SIZE.SIZE 0 k }

/-- A valid entry breaks the format (R327, R331). -/
def ProtEnt.bad (e : ProtEnt) : Bool :=
  e.valid &&
  (if e.kind = 0 then
     e.size == 0 || e.base % 4096 != 0 || e.size % 4096 != 0 ||
     !((decide (0x10000000000 ≤ e.base) && decide (e.base + e.size ≤ 0x2B000000000)) ||
       (decide (0x30000000000 ≤ e.base) && decide (e.base + e.size ≤ 0x30020000000)) ||
       (decide (0x40000000000 ≤ e.base) && decide (e.base + e.size ≤ 0x80000000000)))
   else e.size == 0 || decide (e.size > 1048576))

/-! Regulation (R242, R250, R251). -/

/-- The channels of a partition's windows. -/
def State.partChans (s : State) (p : Nat) : List Nat := (s.partWindows 0 p).flatMap s.winChans

/-- An account's guaranteed rate in GB/s (R250). -/
def acctRate (guar win8 : Nat) : Nat × Nat := (guar * 64, max 1 (win8 * 8))

/-- The accounts in use on a hub: number, MASTER, partition, rate. -/
def State.accounts (s : State) (h : Nat) : List (Nat × Nat × Nat × (Nat × Nat)) :=
  (List.range 128).filterMap (fun k => if s.fget BWR_ACCT.VALID h k = 1 then
    some (k, s.fget BWR_ACCT.MASTER h k, s.fget BWR_ACCT.PART h k, acctRate (s.fget BWR_ACCT.GUAR h k) (s.fget BWR_ACCT.WINDOW_8NS h k))
    else none)

/-- What partition `p`'s accounts charge to a hub (R250). -/
def State.charges (s : State) (h p : Nat) : Nat × Nat :=
  let cs := s.partChans p
  let nh := (cs.filter (fun c => c / 192 == h)).length
  let ph := (s.poolChans p).filter (fun c => c / 192 == h) |>.length
  let own := (List.range 4).flatMap (fun g => (s.accounts g).filterMap (fun (_, _, q, r) =>
    if q = p then some (r.1 * nh, r.2 * max 1 cs.length) else none))
  let th := if s.fget BWR_THAPEL_ACCT.VALID h p = 1 then
      [((acctRate (s.fget BWR_THAPEL_ACCT.GUAR h p) (s.fget BWR_THAPEL_ACCT.WINDOW_8NS h p)).1 * ph,
        (acctRate (s.fget BWR_THAPEL_ACCT.GUAR h p) (s.fget BWR_THAPEL_ACCT.WINDOW_8NS h p)).2 * 4)] else []
  fracSum (own ++ th)

/-- A hub's charge sum. -/
def State.guarSum (s : State) (h : Nat) : Nat × Nat := fracSum ((List.range 16).map (s.charges h))

/-- A port's lanes ÷ 8: as trained, or ×8 where the port has not trained (DESIGN CHOICE, assumption 33). -/
def State.portWidth (s : State) (p : Nat) : Nat := if s.pst p = 8 then 2 * 2 ^ s.fget FAB_PORT_STATUS.WIDTH 0 p else 8

/-- An account breaks R242, R244 or R251. -/
def State.acctBad (s : State) (h : Nat) (a : Nat × Nat × Nat × (Nat × Nat)) : Bool :=
  let (k, m, _, r) := a
  let w := s.fget BWR_ACCT.WINDOW_8NS h k * 8
  decide (w < 256) || decide (w > 64000) || decide (m > 21) || (m == 20 && h != 0 && h != 2) ||
  s.fget BWR_ACCT.GUAR h k + s.fget BWR_ACCT.BE h k == 0 ||
  (m == 20 && fracGt r (1152, 10)) ||
  (decide (16 ≤ m) && decide (m < 20) && fracGt r (180 * s.portWidth (4 * h + m - 16), 8))

/-- A Thapel account breaks R251. -/
def State.thapelBad (s : State) (h n : Nat) : Bool :=
  s.fget BWR_THAPEL_ACCT.VALID h n == 1 &&
  (decide (s.fget BWR_THAPEL_ACCT.WINDOW_8NS h n * 8 < 256) || decide (s.fget BWR_THAPEL_ACCT.WINDOW_8NS h n * 8 > 64000) ||
   s.fget BWR_THAPEL_ACCT.GUAR h n + s.fget BWR_THAPEL_ACCT.BE h n == 0 ||
   fracGt (acctRate (s.fget BWR_THAPEL_ACCT.GUAR h n) (s.fget BWR_THAPEL_ACCT.WINDOW_8NS h n)) (1998, 10))

/-- The pairs of MASTER and partition for which a hub has an account, listed or created (R242): its tile yarders for the
partition that owns the tile, its fabric ports, host port and page engine for every partition with a tower. -/
def State.acctPairs (s : State) (h : Nat) : List (Nat × Nat) :=
  let ps := (List.range 16).filter (fun p => (List.range 16).any (fun t => s.towerPart t == some p))
  (List.range 16).filterMap (fun j => (s.tilePart (16 * h + j)).map (fun p => (j, p))) ++
  (([16, 17, 18, 19, 21] ++ (if h = 0 ∨ h = 2 then [20] else [])).flatMap (fun m => ps.map (fun p => (m, p))))

/-- The pairs that the REGULATION section leaves out. -/
def State.missingPairs (s : State) (h : Nat) : List (Nat × Nat) :=
  let have_ := (s.accounts h).map (fun (_, m, p, _) => (m, p))
  (s.acctPairs h).filter (fun x => !have_.contains x)

/-- The REGULATION section's rules. -/
def State.regulationBad (s : State) : Bool :=
  (List.range 4).any (fun h =>
    let as := s.accounts h
    let inService := ((List.range 192).filter (fun i => !s.chanOos (192 * h + i))).length
    as.any (s.acctBad h) || !(as.map (fun (_, m, p, _) => (m, p))).Nodup || (List.range 16).any (s.thapelBad h) ||
    decide (as.length + (s.missingPairs h).length > 128) ||
    fracGt (s.guarSum h) (42525 * inService, 1000) ||
    (List.range 16).any (fun p => fracGt (s.charges h p)
      (42525 * ((s.partChans p).filter (fun c => c / 192 == h)).length, 1000)))

/-- The accounts that the section leaves out are created: guarantee 0, best effort unlimited; and the charge sums are
written (R242, R251), in whole GB/s rounded up (Table 9.7). -/
def State.fillAccounts (s : State) : State :=
  (List.range 4).foldl (fun t h =>
    let t1 := (t.missingPairs h).foldl (fun u (m, p) =>
      match (List.range 128).find? (fun k => u.fget BWR_ACCT.VALID h k == 0) with
      | none => u
      | some k =>
        ((((u.fset BWR_ACCT.VALID h k 1).fset BWR_ACCT.MASTER h k m).fset BWR_ACCT.PART h k p).fset BWR_ACCT.GUAR h k 0).fset
          BWR_ACCT.BE h k 0xFFFFF) t
    t1.fset BWR_GUAR_SUM.GBPS h 0 (ceilDiv (t.guarSum h).1 (t.guarSum h).2)) s

/-! Tiles, values, decks, Thapel geometry, fabric. -/

/-- Tiles on which an image places something, from its items (R4). -/
def itemTiles (rd : Nat → Byte) (is : List Item16) : List Nat :=
  is.flatMap (fun i =>
    if i.code = 0x0201 ∨ i.code = 0x0901 then (entriesOf rd i).map (fun (a, _) => imgNat rd a 1)
    else if i.code = 0x0802 ∨ i.code = 0x0803 then [imgNat rd (i.at_ + 2) 1] else [])

/-- Partitions that an image's items name. -/
def itemParts (rd : Nat → Byte) (is : List Item16) : List Nat :=
  is.flatMap (fun i =>
    if i.code = 0x0301 ∨ i.code = 0x0602 ∨ i.code = 0x0A02 then (entriesOf rd i).map (fun (a, _) => imgNat rd a 1)
    else if i.code = 0x0302 ∨ i.code = 0x0601 then (entriesOf rd i).map (fun (a, _) => imgNat rd (a + 2) 1)
    else if i.code / 256 = 8 ∨ i.code = 0x0A01 ∨ i.code = 0x0A03 ∨ i.code = 0x0A04 then [imgNat rd i.at_ 1] else [])

/-- An item's own values are out of range: graph numbers, pool places, table lengths, decks, blobs (Table 16.7, R90, R299). -/
def itemBad (rd : Nat → Byte) (len : Nat) (i : Item16) : Bool :=
  let n := itemCount rd i
  let es := (entriesOf rd i).map Prod.fst
  match i.code with
  | 0x0303 => es.any (fun a => decide (imgNat rd a 1 ≥ 4))
  | 0x0601 => es.any (fun a => decide (imgNat rd a 2 ≥ 32768) || decide (imgNat rd (a + 3) 1 > 3) ||
      imgNat rd (a + 4) 1 == 0 || decide (imgNat rd (a + 4) 1 > 64))
  | 0x0801 => decide (imgNat rd (i.at_ + 4) 4 + n > 65536)
  | 0x0804 => decide (imgNat rd (i.at_ + 4) 4 + n > 65536) || es.any (fun a => decide (imgNat rd (a + 4) 2 ≥ 4096))
  | 0x0802 => decide (imgNat rd (i.at_ + 1) 1 ≥ 16) || decide (n > 256)
  | 0x0803 => decide (imgNat rd (i.at_ + 1) 1 ≥ 16) || decide (n > 255)
  | 0x0805 => decide (imgNat rd (i.at_ + 1) 1 ≥ 16)
  | 0x0901 => es.any (fun a => decide (imgNat rd (a + 1) 1 > 1) || decide (imgNat rd (a + 8) 8 + imgNat rd (a + 16) 8 > t0Size) ||
      (imgNat rd (a + 1) 1 == 0 && decide (imgNat rd (a + 24) 8 + imgNat rd (a + 16) 8 > len)))
  | 0x0A01 => decide (imgNat rd (i.at_ + 1) 1 > 16)
  | 0x0A04 => es.any (fun a => decide (imgNat rd a 1 > 1) || decide (imgNat rd (a + 1) 1 > 2) || imgNat rd (a + 2) 1 == 0 ||
      decide (imgNat rd (a + 2) 1 > 16))
  | _ => false

/-- Two items give the same thing: one deck, one commit entry (R299, R416). -/
def itemsClash (rd : Nat → Byte) (is : List Item16) : Bool :=
  !((is.filter (fun i => i.code == 0x0601)).flatMap (fun i => (entriesOf rd i).map (fun (a, _) => imgNat rd a 2))).Nodup ||
  !((is.filter (fun i => i.code == 0x0805)).map (fun i => imgNat rd i.at_ 2)).Nodup

/-- The registers of a tile keep their range checks (R14, R63, Table 4.17), and its recorded latencies are the part's (R49);
region 11 is SEC-DED (R58). -/
def State.tileBad (s : State) (j : Nat) : Bool :=
  let sh := Tbl.get 0 s.img.shapes j
  let len := s.fget TILE_RAMP_CTL.LEN_IMAGE j 0
  let lat := [TILE_ARRAY_LAT.A0_EXTRA, TILE_ARRAY_LAT.A1_EXTRA, TILE_ARRAY_LAT.A2_EXTRA, TILE_ARRAY_LAT.A3_EXTRA,
    TILE_ARRAY_LAT.PAIR01, TILE_ARRAY_LAT.PAIR23, TILE_ARRAY_LAT.WHOLE].foldr (fun f acc => acc + s.fget f j 0 * 2 ^ f.lo) 0
  s.fget TILE_YARD_CTL.TIMEOUT_US j 0 == 0 || decide (len < 2) || decide (len > 16) ||
  (sh != 0 && (fld sh 4 4 % 16384 != lat || !sh.testBit 27))

/-- The hubs' range checks (R14, R236, R271). -/
def State.hubBad (s : State) : Bool :=
  (List.range 4).any (fun h => decide (s.fget THAPEL_CTL.HANG_US h 0 < 100) || s.fget ERR_SCRUB_CTL.PERIOD_H h 0 == 0 ||
    decide (s.fget ERR_SCRUB_CTL.PERIOD_H h 0 > 24))

/-- A page geometry breaks a bound of R225 for one node and one KV head with `g` query heads of `q` bytes each. -/
def geomBad (t d g q : Nat) : Bool :=
  decide (g * 2 * t * d > 1048576) || decide (g * (d + 2) * 4 > 32768) || decide (g * q + 32 > 32768)

/-- Bytes of one query vector in a Q slot's format (R224). -/
def qBytes (f : Fmt) (d : Nat) : Nat := up64 (f.packed d + (if f.block then d / 32 else 0))

/-- A partition's geometry breaks R225: with the GROUP of an ATTEND_DECODE with PLACE 2, or the thin limits of its tiles. -/
def State.thapelGeomBad (s : State) (p : Nat) : Bool :=
  let t := s.pageT p
  (s.partOps p).any (fun o => o.op == 4 && o.f 22 1 == 2 && (o.kvLayers 12).any (fun l =>
    geomBad t (s.layerD p l) (o.f 14 1) (match s.opSlot o 8 with
      | some sl => qBytes sl.fmt (s.layerD p l)
      | none => 0))) ||
  (s.partTiles p).any (fun j => (s.layers p).any (fun l =>
    geomBad t (s.layerD p l) (s.fget (if s.layerAbf p l then ATTN_THIN_CTL.ROWS_ABF4 else ATTN_THIN_CTL.ROWS_FP8) j 0)
      (qBytes .e4m3 (s.layerD p l))))

/-- REGROW_CHUNK breaks R172: not a multiple of T, past WINDOW, or the regrowth graph is no prefill graph. -/
def State.regrowBad (s : State) (p : Nat) : Bool :=
  let c := Tbl.get 0 s.img.regrow p
  let g := s.fget KV_PART_CTL.REGROW_GRAPH (s.homeHub p) p
  c != 0 && (c % s.pageT p != 0 || (s.ringLayers p).any (fun l => decide (c > s.layerW p l)) ||
    Tbl.get 0 s.img.commits (p * 16 + g) == 0 || s.commitF p g 0 1 != 0)

/-- A KV scale of an ABF4 layer, which is its tensor scale (R81), is not positive, finite and normal (R80). -/
def State.kvScaleBad (s : State) (p : Nat) : Bool :=
  (s.layers p).any (fun l => s.layerAbf p l && (List.range (s.layerH p l)).any (fun h =>
    let v := Tbl.get 0 s.img.kvScales ((p * 65536 + l) * 16 + h)
    !posNormal (fld v 0 4) || !posNormal (fld v 4 4)))

/-- A ring window breaks R136 for its partition's page size. -/
def State.ringBad (s : State) (p : Nat) : Bool := (s.ringLayers p).any (fun l => s.layerW p l % s.pageT p != 0)

/-- The VFs of each host port bind distinct partitions (R285). -/
def State.bindBad (s : State) : Bool :=
  (List.range 2).any (fun u =>
    !(((List.range 17).drop 1).filterMap (fun k =>
      if s.fget HIF_VF_BIND.EN u k = 1 then some (s.fget HIF_VF_BIND.PART u k) else none)).Nodup)

/-- The FABRIC section breaks R363: no LOCAL in the own group's entry, no SELF in the own member's, or a valid entry names a
port with EN 0. -/
def State.fabricBad (s : State) : Bool :=
  let a := s.fget FAB_ADDR.ADDR 0 0
  let off (ps : List Nat) : Bool := ps.any (fun p => s.fget FAB_PORT_CTL.EN 0 p == 0)
  s.fget FAB_GRP_TBL.LOCAL 0 (a / 256) == 0 || s.fget FAB_MBR_TBL.SELF 0 (a % 256) == 0 ||
  (List.range 4096).any (fun i => (s.group i).valid && !(s.group i).own && off (s.group i).paths) ||
  (List.range 256).any (fun i => (s.member i).valid && !(s.member i).own && off (s.member i).paths)

/-! Checking (R417). -/

/-- What the loader finds: accepted with the items, or a RESULT and the section where the failure was found. -/
inductive LoadAns where
  | pass (is : List Item16)
  | fail (result sect : Nat)
  deriving DecidableEq, Repr

/-- The first failure of a list of checks, each a RESULT, a section and whether it fails. -/
def firstFail : List (Nat × Nat × Bool) → Option (Nat × Nat)
  | [] => none
  | (r, x, b) :: rest => if b then some (r, x) else firstFail rest

/-- The signature does not hold (R414, R483): KEY_INDEX, the slot's state, Abaiga's key, or the verification itself. -/
def State.sigBad (s : State) (rd : Nat → Byte) (ver : Verdict) : Bool :=
  let k := imgKeyIndex rd
  decide (k > 7) || s.fgetAt SEC_KEY_STATUS.SLOT0 0 0 (2 * k) != 1 || (k == 0 && s.fget MGMT_POLICY.ABAIGA_KEY 0 0 == 0) ||
  !ver.sigOk

/-- A section's CRC and digest (Table 16.9, steps 5 and 6). -/
def sectChecks (rd : Nat → Byte) (ver : Verdict) (x : Sect) : List (Nat × Nat × Bool) :=
  [(3, x.ty, crc32c (imgBytes rd x.off x.len) != x.crc), (2, x.ty, ver.badDigests.contains x.ty)]

/-- Steps 1 to 6 of Table 16.9. -/
def State.formChecks (s : State) (rd : Nat → Byte) (kind part : Nat) (ver : Verdict) : List (Nat × Nat × Bool) :=
  let ss := imgSects rd
  let tiles := imgNat rd 16 8
  [(3, 0, crc32c (imgBytes rd 0 60) != imgNat rd 60 4),
   (4, 0, imgNat rd 0 4 != 0x43554547 || imgNat rd 4 2 != 1 || imgNat rd 6 1 != kind || imgNat rd 7 1 != part ||
      imgNat rd 8 1 != s.fget BOOT_GRADE.GRADE 0 0 || imgNat rd 9 1 != s.fget BOOT_GRADE.STEPPING 0 0 ||
      (tiles &&& s.fget BOOT_TILES.TILES 0 0) != tiles),
   (4, 0, !sectsOk rd kind), (2, 11, s.sigBad rd ver)] ++
  (ss.filter (fun x => x.ty != 9 && x.ty != 11)).flatMap (sectChecks rd ver) ++
  (ss.filter (fun x => x.ty == 9)).flatMap (fun x => sectChecks rd ver x ++ [(4, 9, (sectItems rd x).isNone)])

/-- The items of every section but SIGNATURE, in table order; the section whose syntax is broken otherwise. -/
def allItems (rd : Nat → Byte) : List Sect → Nat ⊕ List Item16
  | [] => .inr []
  | x :: xs =>
    if x.ty = 11 then allItems rd xs
    else match sectItems rd x with
      | none => .inl x.ty
      | some is => match allItems rd xs with
        | .inr js => .inr (is ++ js)
        | .inl t => .inl t

/-- The rules for the partitions that an image brings, on the state `c` with the image taken in, each with the section of
the items it reads. -/
def State.ruleChecks (c : State) (rd : Nat → Byte) (is : List Item16) (whole : Bool) (ps tiles : List Nat) : List (Nat × Nat × Bool) :=
  let len := imgNat rd 24 8
  let map := imgNat rd 16 8
  [(4, 1, c.bindBad), (4, 2, tiles.any c.tileBad), (4, 2, (itemTiles rd is).any (fun j => !map.testBit j || !c.tileUsable j)),
   (4, 8, is.any (itemBad rd len)), (4, 8, (itemParts rd is).any (fun p => !ps.contains p)), (4, 6, itemsClash rd is),
   (4, 3, c.memBad (fun p => whole || ps.contains p)), (4, 3, c.hubBad), (4, 5, (List.range 512).any (fun k => (c.shadow k).bad)), (4, 4, c.regulationBad),
   (4, 8, ps.any c.graphsBad), (4, 6, c.preemptBad), (4, 10, ps.any c.ringBad), (4, 10, ps.any c.kvScaleBad), (4, 10, ps.any c.regrowBad),
   (4, 8, ps.any c.thapelGeomBad)]

/-- The REG items of an image name no register that R501 rejects. -/
def regsBad (rd : Nat → Byte) (is : List Item16) : List (Nat × Nat × Bool) :=
  is.filterMap (fun i => if i.code = 1 then
    some (4, i.sect, (entriesOf rd i).any (fun (a, _) => (regItem rd a).target.isNone)) else none)

/-- Partition `p`'s encryption bit asks for a key that it does not hold before, and the random source has stopped (R488). -/
def State.needsKey (c s : State) (p : Nat) : Bool :=
  c.fbit SEC_ENC_CTL.PARTS 0 0 p && !s.fbit SEC_ENC_STATUS.KEYED 0 0 p && s.fget SEC_RNG_STATUS.VALID 0 0 == 0

/-- The loader checks a whole-part image (R417). -/
def State.checkWhole (s : State) (rd : Nat → Byte) (ver : Verdict) : LoadAns :=
  match firstFail (s.formChecks rd 0 0 ver) with
  | some (r, x) => .fail r x
  | none => match allItems rd (imgSects rd) with
    | .inl x => .fail 4 x
    | .inr is =>
      let c := s.withImage rd is
      let ps := (List.range 16).filter (fun p => (List.range 16).any (fun t => c.towerPart t == some p))
      let tiles := (List.range 64).filter c.tileUsable
      match firstFail (regsBad rd is ++ c.ruleChecks rd is true ps tiles ++ [(4, 7, c.fabricBad), (4, 10, ps.any (c.needsKey s))]) with
      | some (r, x) => .fail r x
      | none => .pass is

/-- A REG item of partition `p`'s image targets what is not the partition's (R415, R501): `b` is the state without the
partition's old image, `c` with the new one. -/
def foreign (b c : State) (p : Nat) (r : RegItem) : Bool :=
  match r.target with
  | none => true
  | some (d, u, i) =>
    let f := d.fields.headD SEC_ENC_CTL.PARTS
    match f.blk with
    | .tile => !(c.towerTiles p).contains u
    | .deck => r.inst != p
    | .hif => if f.off = 0x200 then i != p
      else if f.off = 0x10 then b.fget HIF_VF_BIND.EN u i == 1 || r.val % 16 != p else true
    | .prot => if f.off ≥ 0x1000 then b.fget PROT_ENT_CTL.VALID 0 i == 1 || c.fget PROT_ENT_CTL.PART 0 i != p
      else !(f.off == 0x28 || f == PART_TOWER_EN.ASSIGNED)
    | .mgmt => f != SEC_ENC_CTL.PARTS
    | .hub =>
      if f.off = 0x4040 ∨ f.off = 0x6400 then i != p
      else if f.off = 0x3000 then false
      else if 0x1000 ≤ f.off ∧ f.off < 0x2000 then b.fget HUB_WIN_CTL.VALID u i == 1 || c.fget HUB_WIN_CTL.PART u i != p
      else if f.off = 0x2000 then b.windows.any (fun n => (b.winEntries 0 n).contains i)
      else if f.off = 0x6000 then b.fget BWR_ACCT.VALID u i == 1 || c.fget BWR_ACCT.PART u i != p
      else true
    | _ => true

/-- What partition `p`'s image claims is already another's (R337): towers, slices, decks, channels, slot ranges, VFs. -/
def conflict (b : State) (rd : Nat → Byte) (is : List Item16) (p : Nat) : Bool :=
  let rs := regsOf rd is
  (towersGiven rs p).any (fun t => (b.towerPart t).isSome) ||
  rs.any (fun r => match r.target with
    | some (d, u, i) =>
      let f := d.fields.headD SEC_ENC_CTL.PARTS
      (f.blk == .hub && f.off == 0x3000 && (List.range 4).any (fun k =>
        fld r.val k 1 % 16 == p && (fld r.val k 1).testBit 5 && (b.slice u (4 * i + k)).2.2)) ||
      (f.blk == .hif && f.off == 0x10 && b.fget HIF_VF_BIND.EN u i == 1) ||
      (f.blk == .hub && f.off == 0x2000 && (b.chanWindow (r.val % 1024)).isSome)
    | none => false) ||
  (is.filter (fun i => i.code == 0x0601)).any (fun i => (entriesOf rd i).any (fun (a, _) =>
    b.fget DECK_QCFG.ASSIGNED (imgNat rd a 2) 0 == 1)) ||
  (is.filter (fun i => i.code == 0x0301)).any (fun i => (entriesOf rd i).any (fun (a, _) =>
    b.img.sessions.any (fun (_, v) => meets (fld v 4 4) (fld v 8 4) (imgNat rd (a + 4) 4) (imgNat rd (a + 8) 4)))) ||
  (is.filter (fun i => i.code == 0x0302)).any (fun i => (entriesOf rd i).any (fun (a, _) =>
    Tbl.get 0 b.img.pools (imgNat rd a 2) != 0)) ||
  (is.filter (fun i => i.code == 0x0303)).any (fun i => (entriesOf rd i).any (fun (a, _) =>
    !(Tbl.get 0 b.img.ledgers (imgNat rd a 1) == 0 || Tbl.get 0 b.img.ledgers (imgNat rd a 1) == imgNat rd a 16)))

/-- The loader checks the image of partition `p` (R337). A claim of another's resource is RESULT 5, found last but before
the rules that the claim itself breaks. -/
def State.checkPart (s : State) (rd : Nat → Byte) (p : Nat) (ver : Verdict) : LoadAns :=
  match firstFail (s.formChecks rd 1 p ver) with
  | some (r, x) => .fail r x
  | none => match allItems rd (imgSects rd) with
    | .inl x => .fail 4 x
    | .inr is =>
      let b := s.barePart p
      let c := s.withPart rd p is
      let rs := regsOf rd is
      match firstFail (regsBad rd is) with
      | some (r, x) => .fail r x
      | none =>
        if conflict b rd is p then .fail 5 1
        else match firstFail ((4, 1, rs.any (foreign b c p)) :: (4, 1, towersGiven rs p == []) ::
            c.ruleChecks rd is false [p] ((c.towerTiles p).filter c.tileUsable) ++ [(4, 10, c.needsKey s p)]) with
          | some (r, x) => .fail r x
          | none => .pass is

/-! Acceptance. -/

/-- The active copy of the protection map is the shadow (R331). -/
def State.protCopy (s : State) : State :=
  (s.withProt ((List.range 512).foldl (fun t k => Tbl.put {} t k (s.shadow k)) []))

/-- A partition draws a key, if its encryption bit asks for one it does not hold, and loses it when the bit is 0 (R486). -/
def State.keyFor (s : State) (p : Nat) : State :=
  let on := s.fbit SEC_ENC_CTL.PARTS 0 0 p
  let held := s.fbit SEC_ENC_STATUS.KEYED 0 0 p
  if on && !held then
    State.fbitSet (s.withMgmt { s.mgmt with keys := Tbl.put 0 s.mgmt.keys p (s.mgmt.keyGen + 1), keyGen := s.mgmt.keyGen + 1 })
      SEC_ENC_STATUS.KEYED 0 0 p true
  else if !on && held then
    State.fbitSet (s.withMgmt { s.mgmt with keys := Tbl.put 0 s.mgmt.keys p 0 }) SEC_ENC_STATUS.KEYED 0 0 p false
  else s

/-- The route tables as the image gives them are kept for a fabric reset (R396). -/
def State.keepRoutes (s : State) : State :=
  (s.withRouteImage (s.regs.filter (fun (k, _) =>
      decide (FAB_GRP_TBL.PATH0.key 0 0 ≤ k) && decide (k < FAB_MBR_TBL.PATH0.key 0 256))))

/-- The resources of partition `p` now last belonged to it (R337). -/
def State.markOwner (s : State) (p : Nat) : State :=
  (s.withOwner ((s.towerTiles p ++ (s.partChans p).map (64 + ·)).foldl (fun t k => Tbl.put 0 t k (p + 1)) s.owner))

/-- The key is of a field of the partition reset whose Reset is "image" (R14). -/
def imageKey (k : Nat) : Bool :=
  match regAt (k / 64) with
  | some (d, _, _) => d.owner == .partition && d.fields.any (fun f => f.lo == k % 64 && f.src == .image)
  | none => false

/-- A whole-part image is accepted (R417): every register and table it gives is written, and all is sealed. -/
def State.acceptWhole (s : State) (rd : Nat → Byte) (is : List Item16) : State :=
  let c0 := ((s.withImage rd is).fillAccounts.protCopy).keepRoutes
  let c := c0.withImg { c0.img with partRegs := c0.regs.filter (fun x => imageKey x.1) }
  let c1 := (List.range 16).foldl (fun t p => ((t.keyFor p).markOwner p).restartAccts p) c
  (((c1.withSealWide true).withSealParts 65535).withImg { c1.img with valid := true, kind := 0 }).withMgmt
    { c1.mgmt with imgMsg := imgMessage rd, imgKey := imgKeyIndex rd }

end Sys2Proof.Machine
end

