-- ==== Sys2Proof/Machine/Streams.lean ====
section
/-!
DEFINITION. The sending side of the transport (R379 to R385): messages of a stream, send contexts, the window of 64, resends,
and what becomes of a command whose stream fails.
-/

namespace Sys2Proof.Machine

/-! Messages. -/

/-- A message that the part originates. -/
def State.ownMsg (s : State) (ty vc dest : Nat) (body : List Byte) : Msg :=
  { port := 16, vc := vc, dl := 0, dest := dest, src := s.fabAddr, hops := 0, ord := false, ll := false, ty := ty,
    opening := false, last := false, resend := false, poison := false, stream := 0, epoch := 0, seq := 0, addr := 0,
    len := body.length, opx := 0, status := 0, sent := s.time % 2 ^ 32, body := body }

/-- The body cut where its target crosses a 4 KiB-aligned block (R387): offset in the body, target address, bytes. -/
def blocks (target : Nat) (bs : List Byte) : List (Nat × Nat × List Byte) :=
  (chop 4096 (bs.length + 1) target bs).foldl (fun (a : List (Nat × Nat × List Byte)) (w, off, b) =>
    a ++ [(w + off - target, w + off, b)]) []

/-- The messages of a transfer of bytes: each with whether its source bytes were bad (R387). `hi`: what lies above the
address in ADDR. -/
def State.dataMsgs (s : State) (ty vc dest target hi opx : Nat) (ord : Bool) (bs : List Byte) (bad : Nat → Nat → Bool) :
    List Msg :=
  (blocks target bs).map (fun (off, a, b) =>
    { s.ownMsg ty vc dest b with ord := ord, addr := a + hi * 2 ^ 44, opx := opx, poison := bad off b.length })

/-! Send contexts (R381). -/

/-- The key of a send context. -/
def sctxKey (h c : Nat) : Nat := h * 1024 + c

/-- A send context. -/
def State.sctx (s : State) (k : Nat) : SendCtx := Tbl.get {} s.sendCtx k

/-- The state with a send context changed. -/
def State.onSctx (s : State) (k : Nat) (f : SendCtx → SendCtx) : State := { s with sendCtx := Tbl.upd {} s.sendCtx k f }

/-- A free send context of a hub. -/
def State.freeCtx (s : State) (h : Nat) : Option Nat :=
  ((List.range 1024).map (sctxKey h)).find? (fun k => !(s.sctx k).valid)

/-- A command has a stream open. -/
def State.hasCtx (s : State) (p x : Nat) : Bool := s.sendCtx.any (fun (_, c) => c.valid && c.part == p && c.slot == x)

/-- A message of a stream is sent; answered with whether a path was live. -/
def State.sendMsg (s : State) (m : Msg) : State × Bool := s.routed m

/-- A command whose stream has failed ends with FABRIC_ERROR (R385); pages it pinned and frames it reserved go back. -/
def State.fabricEnd (s : State) (p x status : Nat) : State :=
  ((s.execOf p x).written.foldl State.unpin s).endPlain p x 0x12 status

/-- A stream ends without success. -/
def State.streamFail (s : State) (k status : Nat) : State :=
  let c := s.sctx k
  if !c.valid then s
  else (s.onSctx k (fun c => { c with valid := false, queue := [], unacked := [] })).fabricEnd c.part c.slot status

/-- Messages leave while the window lets them (R381); answered with whether every one had a live path. -/
def State.pumpGo : Nat → State → Nat → State × Bool
  | 0, s, _ => (s, true)
  | fuel + 1, s, k =>
    let c := s.sctx k
    match c.queue with
    | [] => (s, true)
    | m :: rest =>
      let oldest := ((c.unacked.head?).map Msg.seq).getD m.seq
      if c.unacked.length ≥ 64 ∨ m.seq ≥ oldest + 64 then (s, true)
      else
        let m2 := { m with sent := s.time % 2 ^ 32 }
        let s1 := s.onSctx k (fun c => { c with
          queue := rest, unacked := c.unacked ++ [m2], progressAt := if c.unacked = [] then s.time else c.progressAt })
        match s1.sendMsg m2 with
        | (t, true) => State.pumpGo fuel t k
        | (t, false) => (t, false)

/-- Messages leave while the window lets them; an unreachable destination ends the stream (Table 15.5). -/
def State.pump (s : State) (k : Nat) : State :=
  match s.pumpGo 64 k with
  | (t, true) => t
  | (t, false) => t.streamFail k 0x08

/-- A stream opens in context `k` for a command, with its messages in order (R381). -/
def State.openStream (s : State) (k p x dest : Nat) (ord : Bool) (ms : List Msg) : State :=
  let n := s.streamNo
  let (st, ep) := (n % 65536, n / 65536 % 65536)
  let q := ms.mapIdx (fun i m => { m with
    stream := st, epoch := ep, seq := i, opening := i == 0, last := i + 1 == ms.length })
  (State.onSctx (s.withStreamNo (n + 1)) k (fun _ =>
    { valid := true, dest := dest, stream := st, epoch := ep, part := p, slot := x, ordered := ord, queue := q
      progressAt := s.time, poison := ms.any Msg.poison })).pump k

/-- Messages of a context sent again, from the oldest (R384). -/
def State.resend (s : State) (k : Nat) (ms : List Msg) : State :=
  let (t, fine) := ms.foldl (fun (a : State × Bool) m =>
    let (u, r) := a.1.sendMsg { m with resend := true }
    (u.fcount FAB_TP_COUNT.RESENDS 0 0, a.2 && r)) (s, true)
  if fine then t else t.streamFail k 0x08

/-- RETRANSMIT_TIMEOUT (R384): RTO_US without progress; after RETRIES resends without progress the stream fails. -/
def execRetransmitTimeout (hub ctx : Nat) (s : State) : Host.Outcome State Fault Refusal :=
  ok (hubOk hub && decide (ctx < 1024)) s
    (let k := sctxKey hub ctx
     let c := s.sctx k
     let rto := max 1 (s.fget FAB_TP_CTL.RTO_US 0 0) * 1000
     if !c.valid || c.unacked == [] || c.notReady.isSome || decide (s.time < c.progressAt + rto) then s
     else if c.tries ≥ s.fget FAB_TP_CTL.RETRIES 0 0 then (s.fcount FAB_TP_COUNT2.TIMEOUTS 0 0).streamFail k 0x05
     else (s.onSctx k (fun c => { c with tries := c.tries + 1, progressAt := s.time })).resend k c.unacked)

/-- NOT_READY_RESEND (R384): the named message goes again every 100 µs. -/
def execNotReadyResend (hub ctx : Nat) (s : State) : Host.Outcome State Fault Refusal :=
  ok (hubOk hub && decide (ctx < 1024)) s
    (let k := sctxKey hub ctx
     let c := s.sctx k
     match c.notReady with
     | some (q, _) =>
       if c.valid && decide (s.time ≥ c.notReadyAt + 100000) then
         (s.onSctx k (fun c => { c with notReadyAt := s.time })).resend k (c.unacked.filter (fun m => m.seq == q))
       else s
     | none => s)

/-- NOT_READY_LIMIT (R384): after NOTREADY_MS of NOT_READY the stream fails. -/
def execNotReadyLimit (hub ctx : Nat) (s : State) : Host.Outcome State Fault Refusal :=
  ok (hubOk hub && decide (ctx < 1024)) s
    (let k := sctxKey hub ctx
     let c := s.sctx k
     match c.notReady with
     | some (_, t0) =>
       if c.valid && decide (s.time ≥ t0 + s.fget FAB_TP_CTL.NOTREADY_MS 0 0 * 1000000) then s.streamFail k 0x01 else s
     | none => s)

end Sys2Proof.Machine
end

