-- ==== Sys2Proof/Machine/KvCmds.lean ====
section
/-!
DEFINITION. The commands of a deck beside RUN_GRAPH that act on sessions, tier 0, events and time (R178 to R184, R311, R315
to R317), and the retry of suspended reservations (R168).
-/

namespace Sys2Proof.Machine

/-! KV_COPY (R178, R311). -/

/-- A session record opened in a slot whose present generation it keeps: every field 0 but those that an empty session has,
with LAST_USE not stated. -/
def State.openRec (s : State) (p slot : Nat) : State :=
  let s0 := (s.withAllocAt (Tbl.put 0 s.allocAt slot 0))
  let s1 := (s0.draw).engWrite 6 p (s.recAt p slot 2) (natLE 510 0)
  (((((s1.setRec p slot 2 1 1).setRec p slot 12 4 0xFFFFFFFF).setRec p slot 24 8 (leNat (s1.freeBytes 8))).setRec p slot 32 8
    (s.tableBase p slot)).setRec p slot 40 8 (s.histBase p slot))

/-- The page-table entries that a copy of the first `m` tokens touches, with the page ranges of full-context layers: layer,
index, tokens of the page that are copied. -/
def State.copyEntries (s : State) (p a m : Nat) : List (Nat × Nat × Nat) :=
  let rs := (s.ranges p a).filter (fun r => r.first < m)
  (s.fullLayers p).flatMap (fun l => rs.mapIdx (fun k r => (l, k, min r.count (m - r.first)))) ++
  (s.ringLayers p).flatMap (fun l => (List.range (s.listLen p a l)).map (fun k => (l, k, 0)))

/-- The entry names a page that a copy can use. -/
def State.pteHere (s : State) (p slot l k : Nat) : Bool :=
  let v := s.pte p slot l k
  !s.pteBad p slot l k && pteValid v && !s.ledBad (ptePage v) && (s.led (ptePage v)).valid

/-- The page is copied, not referenced: it holds token m − 1 together with later ones. -/
def State.splitsAt (s : State) (p a m l k : Nat) : Bool :=
  s.layerW p l == 0 && (match (s.ranges p a)[k]? with
    | some r => decide (m < r.first + r.count)
    | none => false)

/-- What one entry of the copy becomes: the table value, with the page whose frame was newly taken. -/
def State.copyEntry (s : State) (p a b n m l k count : Nat) (droppable : Bool) : State × Nat :=
  let v := s.pte p a l k
  let pg := ptePage v
  if !s.pteHere p a l k then (s, if v / 2 ^ 24 % 8 = 0 then 0 else pteDrop v)
  else if s.layerW p l ≠ 0 then (s, if m = n then pteOf pg else pteDrop v)
  else if !s.splitsAt p a m l k then (s, pteOf pg)
  else match s.pin pg with
    | (s1, .ok) =>
      if s1.sealOk p l pg then
        match s1.newPage p b ⟨l, s1.hdr pg 4 4, s1.hdr pg 8 4, s1.hdr pg 14 2, 0xFFFF, pageFlags droppable false, s1.handleOf p b⟩ with
        | some (s2, q) => ((s2.copyPage p l pg q count (s2.handleOf p b)).unpin pg, pteOf q)
        | none => (s1.unpin pg, pteDrop v)
      else ((s1.sealFail p l pg (s1.handleOf p b) 6).unpin pg, pteDrop v)
    | (s1, _) => (s1, pteDrop v)

/-- The references of a copy taken in turn, undone if one is FULL (R178). -/
def State.copyRefs (s : State) (pgs : List Nat) : State × Bool :=
  let (t, done, fine) := pgs.foldl (fun (a : State × List Nat × Bool) pg =>
    if !a.2.2 then a
    else match a.1.ref pg with
      | (u, true) => (u, a.2.1 ++ [pg], true)
      | (u, false) => (u, a.2.1, false)) (s, [], true)
  if fine then (t, true) else (done.foldl State.unref t, false)

/-- A KV_COPY of the first `m` tokens of session `a` into slot `b`, its frames being free. Where `m - 1` lies in a run whose ranges
no full-context layer holds, CUR_SEGMENT is 0 (DESIGN CHOICE, assumption 81). -/
def State.fork (s : State) (p x a b m : Nat) (nc : Bool) : State :=
  let n := s.sessN p a
  let es := s.copyEntries p a m
  let shared := es.filterMap (fun (l, k, _) =>
    if s.pteHere p a l k && (if s.layerW p l = 0 then !s.splitsAt p a m l k else m == n) then some (ptePage (s.pte p a l k)) else none)
  match s.copyRefs shared with
  | (t, false) => t.endPlain p x 0x0E 0
  | (t, true) =>
    let beyond := t.recFlag p a 3
    let t1 := t.openRec p b
    let (t2, vs) := es.foldl (fun (u : State × List (Nat × Nat × Nat)) (l, k, c) =>
      let (w, v) := u.1.copyEntry p a b n m l k c (!nc && !beyond)
      (w, u.2 ++ [(l, k, v)])) (t1, [])
    let t3 := vs.foldl (fun u (l, k, v) => if v = 0 then u else u.setPte p b l k v) t2
    let runs := (t3.segRuns p a).filter (fun r => r.1 < m)
    let seg := if m = 0 then 0 else if m = n then t3.srec p a 8 2
      else match findIn (t3.ranges p a) (m - 1) with
        | some (k, _) => ((t3.ranges p a).getD k ⟨0, 0, 0, 0⟩).seg
        | none => 0
    let t4 := (List.range m).foldl (fun u i => u.engMove 6 p (u.histAt p b i) (u.histAt p a i) 4) t3
    let t5 := (((t4.setRec p b 4 4 m).setRec p b 8 2 seg).setRuns p b runs).setRec p b 20 4
      ((t.ranges p a).filter (fun r => r.first < m)).length
    let t6 := (t5.setRec p b 12 4 (if m = n then t5.srec p a 12 4 else 0xFFFFFFFF)).setRec p b 3 1
      (bit nc + 4 * bit (vs.any (fun (_, _, v) => pteDropped v)) + 8 * bit beyond)
    t6.endPlain p x 0x00 (t6.handleOf p b)

/-- KV_COPY from its reservation on (R178): pages to be copied get frames, or the command is suspended; it waits while a pin
that it needs is held, or a channel that it works in is not in memory mode. -/
def State.copyGo (s : State) (p x : Nat) : State :=
  let e := s.execOf p x
  let (a, b) := (e.f 4 4 % 32768, e.f 20 4 % 32768)
  let m := if e.f 24 4 = 0xFFFFFFFF then s.sessN p a else e.f 24 4
  let s0 := (s.copyEntries p a m).foldl (fun t (l, k, _) =>
    if t.pteBad p a l k then t.mendPte p a l k else t.engSee 6 p (t.pteAt p a l k) 4) s
  let es0 := s0.copyEntries p a m
  let need := (es0.filter (fun (l, k, _) => s0.pteHere p a l k && s0.splitsAt p a m l k)).length
  let (s1, fine) := s0.framesFor p x need
  if fine then
    let olds := es0.filterMap (fun (l, k, _) => if s0.pteHere p a l k then some (ptePage (s0.pte p a l k)) else none)
    let t := s1.fork p x a b m ((e.f 16 1).testBit 1)
    let news := (es0.filterMap (fun (l, k, _) => if t.pteHere p b l k then some (ptePage (t.pte p b l k)) else none)).filter
      (fun pg => !olds.contains pg)
    if es0.any (fun (l, k, _) => s0.pteHere p a l k && s0.splitsAt p a m l k && s0.pageWaits (ptePage (s0.pte p a l k))) ||
        news.any t.pageHeld then s1
    else t
  else s1.suspend p x (e.f 4 4) (need - s1.freeCount p)

/-- KV_COPY (R178, R311, R315). -/
def execKvCopy (part slot : Nat) (s : State) : Host.Outcome State Fault Refusal :=
  ok (slotOk part slot) s
    (s.runCmd 2 part slot (fun e =>
      let b := e.f 20 4 % 32768
      let empty := (e.f 16 1).testBit 0
      match s.checkHandles part 0 e.handles with
      | (t, some (st, det)) => t.endPlain part slot st det
      | (t, none) =>
        if !t.slotIn part b then t.endPlain part slot 0x05 4
        else if t.recBad part b then (t.touchRec 6 part b).endPlain part slot 0x0F 0
        else if t.srec part b 2 1 = 1 then t.endPlain part slot 0x0F 0
        else if empty then
          let t1 := (t.openRec part b).setRecFlag part b 0 ((e.f 16 1).testBit 1)
          t1.endPlain part slot 0x00 (t1.handleOf part b)
        else
          let a := e.f 4 4 % 32768
          if t.recFlag part a 1 || (e.f 24 4 != 0xFFFFFFFF && decide (e.f 24 4 > t.sessN part a)) then
            t.endPlain part slot 0x0F 0
          else t.copyGo part slot))

/-! KV_DROP (R179, R180). -/

/-- One entry given up at the host's request; answered with whether a page was dropped or unreferenced. -/
def State.dropEntry (s : State) (p slot l k : Nat) : State × Nat :=
  if s.pteBad p slot l k then (s.mendPte p slot l k, 0)
  else
    let s := s.engSee 6 p (s.pteAt p slot l k) 4
    let v := s.pte p slot l k
    let pg := ptePage v
    let e := s.led pg
    if !pteValid v then (s, 0)
    else if e.ref = 1 ∧ e.pin > 0 ∧ s.ledBad pg = false then (s.withDropLater (s.dropLater ++ [(pg, p, slot, l, k)]), 1)
    else (((s.setPte p slot l k (pteDrop v)).setRecFlag p slot 2 true).unref pg, 1)

/-- Every entry is given up. -/
def State.dropSess (s : State) (p slot : Nat) : State × Nat :=
  (s.entries p slot).foldl (fun (a : State × Nat) (l, k) =>
    let (t, n) := a.1.dropEntry p slot l k
    (t, a.2 + n)) (s, 0)

/-- A slot is released (R180): its pages are unreferenced, its table, history and record freed, its GENERATION raised. -/
def State.releaseSlot (s : State) (p slot : Nat) : State × Nat :=
  let (t, n) := (s.layers p).foldl (fun (a : State × Nat) l =>
    (List.range (s.ptEntries p)).foldl (fun (b : State × Nat) k =>
      if b.1.pteBad p slot l k then (b.1.mendPte p slot l k, b.2)
      else
        let t := b.1.engSee 6 p (b.1.pteAt p slot l k) 4
        let v := t.pte p slot l k
        if v = 0 then (t, b.2)
        else if pteValid v then ((t.unref (ptePage v)).setPte p slot l k 0, b.2 + 1)
        else (t.setPte p slot l k 0, b.2)) a) (s, 0)
  let gen := t.srec p slot 0 2
  (t.engWrite 6 p (t.recAt p slot 0) (natLE 2 (gen + 1) ++ natLE 510 0), n)

/-- KV_DROP (R179, R180, R311). -/
def execKvDrop (part slot : Nat) (s : State) : Host.Outcome State Fault Refusal :=
  ok (slotOk part slot) s
    (s.runCmd 3 part slot (fun e =>
      match s.checkHandles part 0 e.handles with
      | (t, some (st, det)) => t.endPlain part slot st det
      | (t, none) =>
        let a := e.f 4 4 % 32768
        let (t1, n) := if (e.f 16 1).testBit 0 then t.releaseSlot part a else t.dropSess part a
        t1.endPlain part slot 0x00 (min n 0xFFFFFFFF)))

/-! KV_PARK (R182, R183, R315, R388). -/

/-- The present pages of a session, in list order. -/
def State.presentPages (s : State) (p slot : Nat) : List (Nat × Nat × Nat) :=
  (s.entries p slot).filterMap (fun (l, k) => if s.pteHere p slot l k then some (l, k, ptePage (s.pte p slot l k)) else none)

/-- Bytes of a page record of a layer. -/
def State.pageRec (s : State) (p l : Nat) : Nat := 256 + s.layerBytes p l

/-- The GEOMETRY byte of a partition's pages (Table 6.2), as its first layer has it. -/
def State.geometry (s : State) (p : Nat) : Nat :=
  let l := (s.layers p).headD 0
  s.sess p 1 1 % 4 + 4 * s.kvLay p l 1 + 16 * s.kvLay p l 0

/-- The park header (Table 6.7). -/
def State.parkHeader (s : State) (p slot pages absent : Nat) : List Byte :=
  let b := natLE 4 0x4B504B41 ++ natLE 2 1 ++ natLE 1 (s.geometry p) ++ natLE 1 (s.layerH p ((s.layers p).headD 0)) ++
    natLE 2 (s.layers p).length ++ natLE 2 0 ++ natLE 4 (s.sessN p slot) ++ natLE 4 pages ++ natLE 4 absent ++
    natLE 4 (s.handleOf p slot) ++ natLE 224 0
  b ++ natLE 4 (crc32c b)

/-- The pages are pinned and their seals checked (R182): the pages to be written, each with its layer, and how many are
absent. -/
def State.parkTake (s : State) (p slot : Nat) : State × List (Nat × Nat) × Nat :=
  (s.entries p slot).foldl (fun (a : State × List (Nat × Nat) × Nat) (l, k) =>
    let (t, ws, n) := a
    if t.pteBad p slot l k then (t.mendPte p slot l k, ws, n + 1)
    else if !t.pteHere p slot l k then (t, ws, if t.pte p slot l k / 2 ^ 24 % 8 = 0 then n else n + 1)
    else
      let pg := ptePage (t.pte p slot l k)
      match t.pin pg with
      | (u, .ok) =>
        if u.sealOk p l pg then (u, ws ++ [(l, pg)], n)
        else ((u.sealFail p l pg (u.handleOf p slot) 6).unpin pg, ws, n + 1)
      | (u, _) => (u, ws, n + 1)) (s, [], 0)

/-- The page records of an image. -/
def State.parkBytes (s : State) (p : Nat) (ws : List (Nat × Nat)) : List Byte :=
  (ws.map (fun (l, pg) => (s.look (s.pageAt pg 0) 256).1 ++ (s.look (s.pageAt pg 512) (s.layerBytes p l)).1)).flatten

/-- The session is parked: pages written are unpinned and unreferenced, their entries PARKED; a page dropped meanwhile stays
absent. -/
def State.parkDone (s : State) (p x slot size : Nat) : State :=
  let ws := (s.execOf p x).written
  let s1 := (s.entries p slot).foldl (fun t (l, k) =>
    let v := t.pte p slot l k
    if pteValid v && ws.contains (ptePage v) then (t.setPte p slot l k (ptePark v)).unref (ptePage v)
    else t.markEntry p slot l k) s
  let s2 := (ws.foldl State.unpin s1).onExec p x (fun e => { e with written := [] })
  (s2.setRecFlag p slot 1 true).endPlain p x 0x00 ((size + 4095) / 4096)

/-- A write by a command to a part address: whether ingress admits it. -/
def State.engMay (s : State) (p a n : Nat) (r : Right) : Bool :=
  let rq := s.engReq p a n
  (s.placesOf rq).isSome && s.permitted rq r

/-- What a refused write of a command's address sets (R330). -/
def State.engRefuse (s : State) (p a : Nat) : State :=
  match s.place (s.homeHub p) p none a with
  | none => s.windowMiss (s.homeHub p) p .write 3 a
  | some _ => s.refusal p .write 3 a

/-- Image bytes written at host memory, record by record and the header last (R315). -/
def State.putImage (s : State) (p addr : Nat) (recs hdr : List Byte) : State :=
  (s.engPut p (addr + 256) recs).engPut p addr hdr

/-- Bytes that the present pages of a session take in an image. -/
def State.imageSize (s : State) (p slot : Nat) : Nat :=
  256 + ((s.presentPages p slot).map (fun (l, _, _) => s.pageRec p l)).sum

/-- Nobody reaches the partner: the partition has no SEND right for it (R318, R328). -/
def State.sendRefused (s : State) (p x dest : Nat) : State :=
  let s1 := (s.refusal p .send 3 dest).draw
  s1.endPlain p x 0x05 (leNat (s1.freeBytes 4))

/-- The page records of a parking session go to the partner in a stream of their own (R388). -/
def State.parkStream (s : State) (k p x : Nat) : State :=
  let e := s.execOf p x
  let slot := e.f 4 4 % 32768
  let (s1, ws, absent) := s.parkTake p slot
  let s2 := s1.onExec p x (fun e => { e with stage := .waiting, written := ws.map Prod.snd, absent := absent })
  let ms := s2.dataMsgs 3 4 (e.f 20 4) (e.f 32 8 + 256) 0 0 false (s2.parkBytes p ws) (fun _ _ => false)
  if ms = [] then s2.onExec p x (fun e => { e with phase := 1 }) else s2.openStream k p x (e.f 20 4) false ms

/-- The park header follows in a second stream. -/
def State.parkHdrStream (s : State) (k p x : Nat) : State :=
  let e := s.execOf p x
  let h := s.parkHeader p (e.f 4 4 % 32768) e.written.length e.absent
  s.openStream k p x (e.f 20 4) false (s.dataMsgs 3 4 (e.f 20 4) (e.f 32 8) 0 0 false h (fun _ _ => false))

/-- KV_PARK (R182, R315): to host memory at once; to a partner once a send context is free. -/
def execKvPark (part slot : Nat) (s : State) : Host.Outcome State Fault Refusal :=
  ok (slotOk part slot) s
    (s.runCmd 4 part slot (fun e =>
      match s.checkHandles part 0 e.handles with
      | (t, some (st, det)) => t.endPlain part slot st det
      | (t, none) =>
        let a := e.f 4 4 % 32768
        let size := t.imageSize part a
        if t.recFlag part a 1 then t.endPlain part slot 0x0F 0
        else if e.f 40 8 ≠ 0 ∧ size > e.f 40 8 then t.endPlain part slot 0x10 ((size + 4095) / 4096)
        else if e.f 16 1 = 0 then
          if (t.presentPages part a).any (fun (_, _, pg) => t.pageWaits pg) then t
          else if !inHost (e.f 32 8) size then t.endPlain part slot 0x05 2
          else if !t.engMay part (e.f 32 8) size .write then (t.engRefuse part (e.f 32 8)).endPlain part slot 0x05 2
          else
            let (t1, ws, absent) := t.parkTake part a
            let t2 := t1.putImage part (e.f 32 8) (t1.parkBytes part ws) (t1.parkHeader part a ws.length absent)
            (t2.onExec part slot (fun e => { e with written := ws.map Prod.snd })).parkDone part slot a
              (256 + (ws.map (fun (l, _) => t2.pageRec part l)).sum)
        else if !t.admitsFabric part .send (e.f 20 4 % 2 ^ 20) then t.sendRefused part slot (e.f 20 4 % 2 ^ 20)
        else match t.freeCtx (t.homeHub part) with
          | some k =>
            if t.tree.cut || (t.presentPages part a).any (fun (_, _, pg) => t.pageWaits pg) then
              t.onExec part slot (fun e => { e with stage := .waiting })
            else t.parkStream k part slot
          | none => t.onExec part slot (fun e => { e with stage := .waiting })))

/-! KV_UNPARK (R184, R388). -/

/-- The parked entries of a session, in list order. -/
def State.parkedEntries (s : State) (p slot : Nat) : List (Nat × Nat) :=
  (s.entries p slot).filter (fun (l, k) => !s.pteBad p slot l k && pteParked (s.pte p slot l k))

/-- The header agrees with the session and the partition. -/
def State.headerFits (s : State) (p slot : Nat) (h : List Byte) : Bool :=
  let f (off n : Nat) : Nat := leNat ((h.drop off).take n)
  f 252 4 == crc32c (h.take 252) && f 6 1 == s.geometry p && f 7 1 == s.layerH p ((s.layers p).headD 0) &&
  f 8 2 == (s.layers p).length && f 12 4 == s.sessN p slot && f 24 4 == s.handleOf p slot

/-- A page record goes into its new frame, and its seal is checked (R184); answered with whether it passed. -/
def State.fillPage (s : State) (p slot l pg : Nat) (bs : List Byte) (droppable : Bool) : State × Bool :=
  let s1 := (s.engWrite 6 p (s.pageAt pg 0) (bs.take 256)).engWrite 6 p (s.pageAt pg 512) (bs.drop 256)
  if s1.sealOk p l pg then
    (s1.sealing p l pg (fun t => (t.setHdr pg 24 4 (t.handleOf p slot)).setHdr pg 18 1
      (pageFlags droppable (s.layerW p l != 0) / 2 % 16)), true)
  else (s1, false)

/-- The frames of the parked pages are reserved (R161). -/
def State.unparkFrames (s : State) (p x slot : Nat) : State :=
  let drop := !s.recFlag p slot 0 && !s.recFlag p slot 3
  let (t, fresh) := s.reservePages p slot ((s.parkedEntries p slot).map (fun (l, k) =>
    (l, k, ⟨l, 0, 0, 0, 0xFFFF, pageFlags drop (s.layerW p l != 0), s.handleOf p slot⟩)))
  t.onExec p x (fun e => { e with resv := [{ slot := slot, fresh := fresh }] })

/-- A page whose record is absent or unreadable: its entry stays DROPPED (R184). -/
def State.unparkLost (s : State) (p slot l k pg : Nat) : State :=
  ((s.setPte p slot l k (pteDrop (s.pte p slot l k))).setRecFlag p slot 2 true).unref pg

/-- One page record, if it is there, into its page; one that fails its seal is a seal failure (R176, R184). -/
def State.unparkPage (s : State) (p slot l k pg : Nat) (rec : Option (List Byte)) : State :=
  match rec with
  | none => s.unparkLost p slot l k pg
  | some bs =>
    let f := s.fillPage p slot l pg bs (!s.recFlag p slot 0 && !s.recFlag p slot 3)
    if f.2 then f.1.setPte p slot l k (pteOf pg)
    else (f.1.sealFail p l pg (f.1.handleOf p slot) 6).unparkLost p slot l k pg

/-- The page records, in order: where one is absent or unreadable, its entry stays DROPPED (R184). -/
def State.unparkDone (s : State) (p x slot : Nat) (recs : List (Option (List Byte))) : State :=
  let fresh := ((s.execOf p x).resv.headD {}).fresh
  let s1 := (fresh.mapIdx (fun i e => (e, recs.getD i none))).foldl (fun t (e, r) => t.unparkPage p slot e.1 e.2.1 e.2.2 r) s
  let s2 := s1.onExec p x (fun e => { e with resv := [] })
  let left := ((s2.entries p slot).filter (fun (l, k) => pteDropped (s2.pte p slot l k))).length
  ((s2.setRecFlag p slot 1 false).setRec p slot 24 8 s2.time).endPlain p x 0x00 left

/-- The offsets of an image's page records, with their bytes, one for each of the first `n` entries. -/
def State.recSpans (s : State) (p : Nat) (ls : List Nat) : List (Nat × Nat) :=
  (ls.foldl (fun (a : List (Nat × Nat) × Nat) l => (a.1 ++ [(a.2, s.pageRec p l)], a.2 + s.pageRec p l)) ([], 256)).1

/-- The messages that read an image's page records from the partner. -/
def State.readMsgs (s : State) (dest a n : Nat) : List Msg :=
  (blocks a (natLE n 0)).map (fun (_, b, l) =>
    { s.ownMsg 3 4 dest [] with ord := true, addr := b, opx := 1, len := l.length })

/-- KV_UNPARK once its header has been read. -/
def State.unparkGo (s : State) (p x : Nat) (h : List Byte) : State :=
  let e := s.execOf p x
  let slot := e.f 4 4 % 32768
  if !s.headerFits p slot h then s.endPlain p x 0x0D 0
  else
    let es := s.parkedEntries p slot
    let (s1, fine) := s.framesFor p x es.length
    if !fine then s1.suspend p x (e.f 4 4) (es.length - s1.freeCount p)
    else
      let s2 := s1.unparkFrames p x slot
      if (((s2.execOf p x).resv.headD {}).fresh).any (fun (_, _, pg) => s2.pageHeld pg) then s1 else
      let pages := leNat ((h.drop 16).take 4)
      let spans := s2.recSpans p ((es.take pages).map Prod.fst)
      if e.f 16 1 = 0 then
        let (s3, recs) := spans.foldl (fun (a : State × List (Option (List Byte))) (off, n) =>
          match a.1.engGet p (e.f 32 8 + off) n with
          | .bytes bs false => (a.1, a.2 ++ [some bs])
          | .bytes _ true => (a.1.engTouch 6 p 2 (e.f 32 8 + off) n, a.2 ++ [none])
          | .refused t => (t, a.2 ++ [none])
          | .wait => (a.1, a.2 ++ [none])) (s2, [])
        s3.unparkDone p x slot recs
      else if spans = [] then s2.unparkDone p x slot []
      else s2.onExec p x (fun e => { e with stage := .waiting, phase := 1, got := h })

/-- A stream of read requests for a KV_UNPARK from a partner: the header, then the page records. -/
def State.unparkStream (s : State) (k p x : Nat) : State :=
  let e := s.execOf p x
  if e.phase = 0 then s.openStream k p x (e.f 20 4) true (s.readMsgs (e.f 20 4) (e.f 32 8) 256)
  else
    let n := ((s.recSpans p ((((e.resv.headD {}).fresh.take (leNat ((e.got.drop 16).take 4))).map (fun (l, _, _) => l)))).map
      Prod.snd).sum
    s.openStream k p x (e.f 20 4) true (s.readMsgs (e.f 20 4) (e.f 32 8 + 256) n)

/-- KV_UNPARK of an image in host memory: its header is read (R184, Table 10.8). -/
def State.unparkHost (s : State) (p x : Nat) : State :=
  let e := s.execOf p x
  if !inHost (e.f 32 8) 256 then s.endPlain p x 0x05 2
  else match s.engGet p (e.f 32 8) 256 with
    | .wait => s
    | .refused t => t.endPlain p x 0x05 2
    | .bytes bs bad =>
      let t := s.engTouch 6 p 2 (e.f 32 8) 256
      if bad then t.endPlain p x 0x0D 0 else t.unparkGo p x bs

/-- A command of opcode 4 or 5 with KIND 1, or a FABRIC_SEND of a message, waits for a send context. -/
def State.waitsCtx (s : State) (p x : Nat) (e : Exec) : Bool :=
  e.busy && e.stage == .waiting && !s.hasCtx p x && !s.tree.cut &&
  (((e.opcode == 4 || e.opcode == 5) && e.f 16 1 == 1) || (e.opcode == 12 && decide (e.f 16 1 < 0x20)))

/-- KV_UNPARK (R184, R315). -/
def execKvUnpark (part slot : Nat) (s : State) : Host.Outcome State Fault Refusal :=
  ok (slotOk part slot) s
    (s.runCmd 5 part slot (fun e =>
      match s.checkHandles part 0 e.handles with
      | (t, some (st, det)) => t.endPlain part slot st det
      | (t, none) =>
        if !t.recFlag part (e.f 4 4 % 32768) 1 then t.endPlain part slot 0x0F 0
        else if e.f 16 1 = 0 then t.unparkHost part slot
        else if !t.admitsFabric part .send (e.f 20 4 % 2 ^ 20) then t.sendRefused part slot (e.f 20 4 % 2 ^ 20)
        else match t.freeCtx (t.homeHub part) with
          | some k => if t.tree.cut then t.onExec part slot (fun e => { e with stage := .waiting }) else t.unparkStream k part slot
                |>.onExec part slot (fun e => if e.busy then { e with stage := .waiting } else e)
          | none => t.onExec part slot (fun e => { e with stage := .waiting })))

/-! WEIGHT_LOAD (R316). -/

/-- Tier-0 words of a load, each poisoned if its source was. -/
def State.loadWords (s : State) (p src k : Nat) (bs : List Byte) : State :=
  (List.range (bs.length / 64)).foldl (fun t i =>
    let w := (bs.drop (64 * i)).take 64
    let bad := match s.engGet p (src + 64 * i) 64 with
      | .bytes _ b => b
      | _ => false
    ((t.writePlace 7 p (k + 64 * i) w bad).withRsp t.rsp)) s

/-- WEIGHT_LOAD (R316): whole words from SRC_ADDR into the tile's slice, clearing every poison there; with CHECK the CRC is
compared. -/
def execWeightLoad (part slot : Nat) (s : State) : Host.Outcome State Fault Refusal :=
  ok (slotOk part slot) s
    (s.runCmd 6 part slot (fun e =>
      let (j, src, dst, n) := (e.f 16 1, e.f 24 8, e.f 32 8, e.f 40 8)
      if !(decide (j < 64) && s.tilePart j == some part && s.tileUsable j && dst % 64 == 0 && n % 64 == 0 &&
          decide (dst + n ≤ t0Size)) then s.endPlain part slot 0x05 3
      else if n = 0 then s.endPlain part slot (if (e.f 17 1).testBit 0 && e.f 20 4 != crc32c [] then 0x11 else 0x00) (crc32c [])
      else match s.engGet part src n with
        | .wait => s
        | .refused t => t.endPlain part slot 0x05 2
        | .bytes bs _ =>
          let t := (s.loadWords part src (t0At j dst) bs).engTouch 7 part 1 src n
          let crc := crc32c bs
          t.endPlain part slot (if (e.f 17 1).testBit 0 && e.f 20 4 != crc then 0x11 else 0x00) crc))

/-! Ordering commands (R317). -/

/-- FENCE (R317): every earlier command of its deck has completed. -/
def execFence (part slot : Nat) (s : State) : Host.Outcome State Fault Refusal :=
  ok (slotOk part slot) s
    (s.runCmd 7 part slot (fun e =>
      if (s.deckExecs e.deck).any (fun o => decide (o.order < e.order)) then s else s.endPlain part slot 0 0))

/-- An event counter of a partition. -/
def State.evtOf (s : State) (p n : Nat) : Nat := Tbl.get 0 s.evts (p * 1024 + n)

/-- An event counter rises, modulo 2^64. -/
def State.evtAdd (s : State) (p n v : Nat) : State :=
  { s with evts := Tbl.upd 0 s.evts (p * 1024 + n) (fun c => (c + v) % 2 ^ 64) }

/-- EVENT_SIGNAL (R317): the counter rises once every earlier command of the deck has completed. -/
def execEventSignal (part slot : Nat) (s : State) : Host.Outcome State Fault Refusal :=
  ok (slotOk part slot) s
    (s.runCmd 9 part slot (fun e =>
      if (s.deckExecs e.deck).any (fun o => decide (o.order < e.order)) then s
      else
        let t := s.evtAdd part (e.f 18 2) (e.f 24 8)
        t.endPlain part slot 0 (t.evtOf part (e.f 18 2) % 2 ^ 32)))

/-- EVENT_WAIT (R317): it completes at once if the counter has reached TARGET, else it waits. -/
def execEventWait (part slot : Nat) (s : State) : Host.Outcome State Fault Refusal :=
  ok (slotOk part slot) s
    (s.runCmd 8 part slot (fun e =>
      let c := s.evtOf part (e.f 18 2)
      if c ≥ e.f 24 8 then s.endPlain part slot 0 (c % 2 ^ 32)
      else s.onExec part slot (fun e => { e with stage := .waiting })))

/-- A waiting command of an opcode. -/
def State.waitingCmd (s : State) (op p x : Nat) (f : Exec → State) : State :=
  let e := s.execOf p x
  if e.busy && e.stage == .waiting && e.opcode == op && s.fget DECK_QCFG.PART e.deck 0 == p then f e else s

/-- EVENT_WAIT_SATISFIED (R317). -/
def execEventWaitSatisfied (part slot : Nat) (s : State) : Host.Outcome State Fault Refusal :=
  ok (slotOk part slot) s
    (s.waitingCmd 8 part slot (fun e =>
      let c := s.evtOf part (e.f 18 2)
      if c ≥ e.f 24 8 then s.endPlain part slot 0 (c % 2 ^ 32) else s))

/-- The time at which a TIMER completes. -/
def timerEnd (e : Exec) : Nat := if (e.f 16 1).testBit 0 then e.f 24 8 else e.started + e.f 24 8

/-- TIMER (R317): it completes at once if its time has come, else it waits. -/
def execTimer (part slot : Nat) (s : State) : Host.Outcome State Fault Refusal :=
  ok (slotOk part slot) s
    (s.runCmd 10 part slot (fun e =>
      if s.time ≥ timerEnd e then s.endPlain part slot 0 0 else s.onExec part slot (fun e => { e with stage := .waiting })))

/-- TIMER_EXPIRY (R317). -/
def execTimerExpiry (part slot : Nat) (s : State) : Host.Outcome State Fault Refusal :=
  ok (slotOk part slot) s
    (s.waitingCmd 10 part slot (fun e => if s.time ≥ timerEnd e then s.endPlain part slot 0 0 else s))

/-! Retries (R168). -/

/-- The suspended command of a partition that goes first: the highest class, then the earliest suspension. -/
def State.firstSuspended (s : State) (p : Nat) : Option (Nat × Exec) :=
  (s.partExecs p).find? (fun (x, e) => e.suspNo.isSome && !s.queuedBefore p x)

/-- RESERVATION_RETRY (R168): frames have been released, and the first suspended reservation is tried again. -/
def execReservationRetry (part : Nat) (s : State) : Host.Outcome State Fault Refusal :=
  ok (partOk part) s
    (match s.firstSuspended part with
     | none => s
     | some (x, e) =>
       if s.halted then s
       else if e.opcode = 2 then s.copyGo part x
       else if e.opcode = 5 then (if e.f 16 1 = 0 then s.unparkHost part x else s.unparkGo part x e.got)
       else if e.regrow.isSome then s.regrowNext part x
       else s.reserveGo part x)

end Sys2Proof.Machine
end

