-- ==== Sys2Proof/Machine/Fabric.lean ====
section
/-!
DEFINITION. Fabric messages and global operations (chapter 15): FABRIC_SEND and its streams, what arriving messages do, the
timebase, the combining tree with barriers, broadcasts, snapshots and fabric reset.
-/

namespace Sys2Proof.Machine

/-! Sending (R385, R387, R388). -/

/-- A started FABRIC_SEND entry of the message codes that `q` takes. -/
def State.runSend (s : State) (p x : Nat) (q : Nat → Bool) (f : Exec → State) : State :=
  s.runCmd 12 p x (fun e => if q (e.f 16 1) then f e else s)

/-- The stream of a FABRIC_SEND opens in a context: its source is read, and each message carries POISON if its bytes were
bad. -/
def State.sendStream (s : State) (k p x : Nat) : State :=
  let e := s.execOf p x
  let (msg, dest, src, remote, n) := (e.f 16 1, e.f 20 4 % 2 ^ 20, e.f 24 8, e.f 32 8, e.f 40 8)
  match s.engGet p src n with
  | .wait => s
  | .refused t => t.endPlain p x 0x05 2
  | .bytes bs _ =>
    let bad (off len : Nat) : Bool := match s.engGet p (src + off) len with
      | .bytes _ b => b
      | _ => false
    let vc := if msg = 4 then 5 else if msg = 5 then e.f 17 1 else 2
    let opx := if msg = 2 then remote / 2 ^ 44 % 16 else 0
    let ord := msg != 1
    let t := (s.engTouch 7 p 1 src n).onExec p x (fun e => { e with stage := .waiting })
    t.openStream k p x dest ord (t.dataMsgs msg vc dest (remote % 2 ^ 44) (remote / 2 ^ 44) opx ord bs bad)

/-- FABRIC_SEND (R318, R381, R385): the stream opens if a send context is free, else the command waits for one. -/
def execFabricSend (part slot : Nat) (s : State) : Host.Outcome State Fault Refusal :=
  ok (slotOk part slot) s
    (s.runSend part slot (fun m => decide (m < 0x20)) (fun e =>
      let dest := e.f 20 4 % 2 ^ 20
      if !s.admitsFabric part .send dest then s.sendRefused part slot dest
      else match s.freeCtx (s.homeHub part) with
        | some k => if s.tree.cut then s.onExec part slot (fun e => { e with stage := .waiting }) else s.sendStream k part slot
        | none => s.onExec part slot (fun e => { e with stage := .waiting })))

/-- SEND_CONTEXT_GRANT (R381): a waiting command obtains a context and opens its stream. -/
def execSendContextGrant (part slot : Nat) (s : State) : Host.Outcome State Fault Refusal :=
  ok (slotOk part slot) s
    (let e := s.execOf part slot
     if !s.waitsCtx part slot e || s.halted then s
     else match s.freeCtx (s.homeHub part) with
       | none => s
       | some k =>
         if e.opcode = 12 then s.sendStream k part slot
         else if e.opcode = 5 then s.unparkStream k part slot
         else if e.phase = 0 then s.parkStream k part slot
         else s.parkHdrStream k part slot)

/-- The page records that a KV_UNPARK has received after its header. -/
def State.gotRecords (s : State) (p : Nat) (e : Exec) : List (Option (List Byte)) :=
  (s.recSpans p (((e.resv.headD {}).fresh.take (leNat ((e.got.drop 16).take 4))).map (fun (l, _, _) => l))).map
    (fun (off, n) => some ((e.got.drop off).take n))

/-- A stream has been acknowledged whole: its command completes, or goes on to its next stream (R385, R388). -/
def State.streamDone (s : State) (k : Nat) : State :=
  let c := s.sctx k
  let (p, x) := (c.part, c.slot)
  let e := s.execOf p x
  let s1 := s.onSctx k (fun c => { c with valid := false })
  if e.opcode = 12 then (if c.poison then s1.fabricEnd p x 0x03 else s1.endPlain p x 0 0)
  else if e.opcode = 4 then
    if e.phase = 0 then s1.onExec p x (fun e => { e with phase := 1 })
    else
      s1.parkDone p x (e.f 4 4 % 32768) (256 + (e.written.map (fun pg => s.pageRec p (s.hdrLayer pg))).sum)
  else if e.phase = 0 then s1.unparkGo p x e.got
  else s1.unparkDone p x (e.f 4 4 % 32768) (s.gotRecords p e)

/-- What a context keeps after an acknowledgement (R382). -/
def SendCtx.ack (c : SendCtx) (seq : Nat) : List Msg :=
  if c.ordered then c.unacked.filter (fun m => decide (m.seq > seq)) else c.unacked.filter (fun m => m.seq != seq)

/-- An acknowledgement takes effect; the window moves, and a stream with nothing left is done. -/
def State.acked (s : State) (k seq : Nat) : State :=
  let c := s.sctx k
  let left := c.ack seq
  if left.length = c.unacked.length then s
  else
    let s1 := (s.onSctx k (fun c => { c with unacked := left, progressAt := s.time, tries := 0, notReady := none })).pump k
    let d := s1.sctx k
    if d.valid && d.unacked == [] && d.queue == [] then s1.streamDone k else s1

/-- The context of a stream as its receiver names it: an open one first. -/
def State.ctxOf (s : State) (m : Msg) : Option Nat :=
  let mine := s.sendCtx.filter (fun (_, c) => c.stream == m.stream && c.epoch == m.epoch && c.dest == m.src)
  match mine.find? (fun (_, c) => c.valid) with
  | some (k, _) => some k
  | none => (mine.head?).map Prod.fst

/-- The stream is opened again under a new EPOCH and sent from its oldest unacknowledged message (R384). -/
def State.reopen (s : State) (k : Nat) : State :=
  let n := s.streamNo
  let (st, ep) := (n % 65536, n / 65536 % 65536)
  let name (m : Msg) : Msg := { m with stream := st, epoch := ep }
  let s1 := State.onSctx (s.withStreamNo (n + 1)) k (fun c => { c with
    stream := st, epoch := ep, queue := c.queue.map name, progressAt := s.time
    unacked := c.unacked.mapIdx (fun i m => { name m with opening := i == 0 }) })
  s1.resend k (s1.sctx k).unacked

/-- RESPONSE (R382, R384, R385): an acknowledgement or a status; one for a command that has ended is late (R321). -/
def execResponse (m : Msg) (s : State) : Host.Outcome State Fault Refusal :=
  ok m.wf s
    (s.onMsg m 0x08 (fun t =>
      match t.ctxOf m with
      | none => t
      | some k =>
        let c := t.sctx k
        if !c.valid then
          (t.fcount DECK_COUNT.LATE (0x9000 + c.part) 0).evt DECK_EVENT.LATE (t.execOf c.part c.slot).deck 0 1 none
        else if m.status = 0 then t.acked k m.seq
        else if m.status = 1 then
          t.onSctx k (fun c => { c with
            notReady := some (m.seq, match c.notReady with
              | some (_, t0) => t0
              | none => t.time)
            notReadyAt := if c.notReady.isSome then c.notReadyAt else t.time })
        else if m.status = 6 then t.reopen k
        else t.streamFail k m.status))

/-! Receiving (R382, R383, R386, R388). -/

/-- A receive context. -/
def State.rctx (s : State) (k : Nat) : RecvCtx := Tbl.get {} s.recvCtx k

/-- The receive context of a message's stream. -/
def State.rctxOf (s : State) (m : Msg) : Option Nat :=
  (s.recvCtx.find? (fun (_, c) => c.valid && c.src == m.src && c.stream == m.stream && c.epoch == m.epoch)).map Prod.fst

/-- A free receive context of the hub of a port. -/
def State.freeRctx (s : State) (port : Nat) : Option Nat :=
  ((List.range 4096).map (fun i => port % 16 / 4 * 4096 + i)).find? (fun k => !(s.rctx k).valid)

/-- A RESPONSE to a message (Table 15.5). -/
def State.respond (s : State) (m : Msg) (status : Nat) : State :=
  (s.routed { s.ownMsg 0x08 3 m.src [] with stream := m.stream, epoch := m.epoch, seq := m.seq, status := status }).1

/-- The message was first sent more than 10 ms ago, modulo 2^32 (R383). -/
def State.stale (s : State) (m : Msg) : Bool :=
  let d := (s.time + 2 ^ 32 - m.sent % 2 ^ 32) % 2 ^ 32
  decide (d > 10000000) && decide (d < 2 ^ 31)

/-- The SEQ of a context's applied messages after one more (R382). -/
def RecvCtx.applySeq (c : RecvCtx) (seq : Nat) : RecvCtx :=
  if c.ordered then { c with next := seq + 1 }
  else
    let l := c.applied ++ [seq]
    let run := ((List.range 64).takeWhile (fun i => l.contains (c.next + i))).length
    { c with next := c.next + run, applied := l.filter (fun q => decide (q ≥ c.next + run)) }

/-- LENGTH, alignment and OPX fit the type (R380, Table 15.5). -/
def bodyFits (m : Msg) (opxOk : Bool) (hasBody : Bool) : Bool :=
  m.len % 64 == 0 && decide (m.len ≤ 4096) && (if hasBody then m.body.length == m.len else m.body == []) &&
  m.addr % 64 == 0 && opxOk

/-- A data message that has arrived (R382, R383): suppressed, refused, or applied by `act`, which answers none while a
channel holds its access, else the state and a status; `ackOk`: success is answered with a RESPONSE. -/
def State.receive (s : State) (m : Msg) (fits ackOk : Bool) (act : State → Option (State × Nat)) : State :=
  let t := s.takeMsg m
  if t.stale m then t
  else match (match t.rctxOf m with
      | some k => some (some k)
      | none => if m.opening then some (t.freeRctx m.port) else none) with
    | none => (t.respond m 0x06).fcount FAB_TP_COUNT2.NO_STREAM 0 0
    | some none => t
    | some (some k) =>
      let c0 := t.rctx k
      let c := if c0.valid then c0 else
        { valid := true, src := m.src, stream := m.stream, epoch := m.epoch, ordered := m.ord, next := m.seq, lastAt := t.time }
      let dup := decide (m.seq < c.next) || c.applied.contains m.seq
      let out := if c.ordered then decide (m.seq > c.next) else decide (m.seq ≥ c.next + 64)
      let touch (u : State) (d : RecvCtx) : State := (u.withRecvCtx (Tbl.put {} u.recvCtx k { d with lastAt := u.time }))
      if dup then
        let u := touch (t.fcount FAB_TP_COUNT.DUPLICATES 0 0) c
        if ackOk then u.respond m 0
        else match act u with
          | some (v, st) => if st = 0 then v else v.respond m st
          | none => u
      else if out then touch t c
      else if !fits then (touch t c).respond m 0x07
      else match act t with
        | none => s
        | some (u, st) =>
          if st ≠ 0 then (touch u c).respond m st
          else
            let d := c.applySeq m.seq
            let u1 := touch u { d with doneAt := if m.last then some u.time else d.doneAt }
            if ackOk then u1.respond m 0 else u1

/-- The partition that an address names at hub `h`, if it names one (R242). -/
def State.targetPart (s : State) (h a : Nat) : Option Nat :=
  if 0x10000000000 ≤ a ∧ a < 0x2B000000000 then (s.window h a).map (fun n => s.fget HUB_WIN_CTL.PART h n)
  else if isLanding a then
    let (p, land, en) := s.slice ((a - 0x30000000000) / 0x8000000) ((a - 0x30000000000) % 0x8000000 / 0x800000)
    if en && land then some p else none
  else none

/-- What the ingress of an arriving message answers (R328, R386): it waits, it is refused with a status, or it goes on with
its request and places. -/
inductive Arrive where
  | wait
  | no (t : State) (status : Nat)
  | yes (rq : Req) (ps : List (Nat × Nat))
  deriving DecidableEq, Repr

/-- An arriving message at hub ingress, in the partition that its target address names. -/
def State.arrive (s : State) (port src a n : Nat) (r : Right) : Arrive :=
  let h := hubOfPort (port % 16)
  match s.targetPart h a with
  | none => .no ((s.refusalOf none r 2 a).evt HUB_MEM_EVENT.WINDOW_MISS h 0 1 none) 0x02
  | some p =>
    let rq : Req := ⟨.fabric (port % 16), h, p, a, n, 0, s.time⟩
    if !s.ingressOpen then .wait
    else if s.inReset p then .no s 0x01
    else if !s.admitsFabric p .accept src then .no (s.refusal p .accept 2 a) 0x02
    else match s.placesOf rq with
      | none => .no (s.windowMiss h p r 2 a) 0x02
      | some ps =>
        if !s.permitted rq r then .no (s.refusal p r 2 a) 0x02
        else if (s.heldBy ps).isSome then .wait else .yes rq ps

/-- The target address of a message. -/
def msgTarget (m : Msg) : Nat := m.addr % 2 ^ 44

/-- A body written at its target. -/
def State.applyWrite (s : State) (m : Msg) : Option (State × Nat) :=
  match s.arrive m.port m.src (msgTarget m) (max 1 m.len) .write with
  | .wait => none
  | .no t st => some (t, st)
  | .yes rq ps => some (if m.len = 0 then s else s.serveWrite rq m.body m.poison ps, 0)

/-- A body written, and, with the LAST message, the event counter raised (R388). -/
def State.applyForward (s : State) (m : Msg) : Option (State × Nat) :=
  match s.applyWrite m with
  | some (t, 0) =>
    (match s.targetPart (hubOfPort (m.port % 16)) (msgTarget m) with
     | some p => some (if m.last then t.evtAdd p (m.addr / 2 ^ 44 % 1024) 1 else t, 0)
     | none => some (t, 0))
  | r => r

/-- A body added at its landing target (R203, R388). -/
def State.applyReduce (s : State) (m : Msg) : Option (State × Nat) :=
  if !isLanding (msgTarget m) then some (s.evt HUB_MEM_EVENT.ADDER_REFUSED (hubOfPort (m.port % 16)) 0 1 none, 0x04)
  else match s.arrive m.port m.src (msgTarget m) (max 1 m.len) .add with
    | .wait => none
    | .no t st => some (t, st)
    | .yes rq ps =>
      if m.len = 0 then some (s, 0)
      else if m.poison then some (s.serveWrite rq m.body true ps, 0)
      else
        let (t, refused) := s.reduceAt 11 (some rq.part) (m.opx % 4) (m.opx / 4 % 4) ps m.body
        some (t, if refused then 0x03 else 0)

/-- Bytes of the partner region sent back in a READ_DATA message (R388). -/
def State.applyRead (s : State) (m : Msg) : Option (State × Nat) :=
  match s.arrive m.port m.src (msgTarget m) (max 1 m.len) .read with
  | .wait => none
  | .no t st => some (t, st)
  | .yes rq ps =>
    let ls := ps.map (fun (k, n) => s.look k n)
    let t := ps.foldl (fun u (k, n) => (u.closeRange k n).readRange 5 (some rq.part) 2 {} k n) s
    if ls.any Prod.snd then some (t, 0x03)
    else
      some ((t.routed { t.ownMsg 3 4 m.src (ls.map Prod.fst).flatten with
        ord := true, stream := m.stream, epoch := m.epoch, seq := m.seq, addr := m.addr, opx := 2 }).1, 0)

/-- A message of a type that waits here. -/
def State.hasMsg (s : State) (m : Msg) (ty : Nat) : Bool := s.inbox.contains m && m.ty == ty && m.dest == s.fabAddr && !m.ll

/-- REMOTE_WRITE (R388). -/
def execRemoteWrite (m : Msg) (s : State) : Host.Outcome State Fault Refusal :=
  ok m.wf s (if s.hasMsg m 1 then s.receive m (bodyFits m (m.opx == 0) true) true (fun t => t.applyWrite m) else s)

/-- REMOTE_REDUCE (R388). -/
def execRemoteReduce (m : Msg) (s : State) : Host.Outcome State Fault Refusal :=
  ok m.wf s
    (if s.hasMsg m 2 then
       s.receive m (bodyFits { m with addr := msgTarget m } (decide (m.opx < 16) && decide (m.opx % 4 < 3)) true) true
         (fun t => t.applyReduce m)
     else s)

/-- KV_PAGE_WRITE (R388): OPX 0; any value but the other two is a bad body. -/
def execKvPageWrite (m : Msg) (s : State) : Host.Outcome State Fault Refusal :=
  ok m.wf s (if s.hasMsg m 3 && m.opx != 1 && m.opx != 2 then
       s.receive m (bodyFits m (m.opx == 0) true) true (fun t => t.applyWrite m)
     else s)

/-- KV_PAGE_READ_REQ (R388): OPX 1; success is answered with the data. -/
def execKvPageReadReq (m : Msg) (s : State) : Host.Outcome State Fault Refusal :=
  ok m.wf s
    (if s.hasMsg m 3 && m.opx == 1 then s.receive m (bodyFits m true false && m.len != 0) false (fun t => t.applyRead m) else s)

/-- KV_PAGE_READ_DATA (R388): OPX 2; the data of the oldest unanswered request, which it acknowledges. -/
def execKvPageReadData (m : Msg) (s : State) : Host.Outcome State Fault Refusal :=
  ok m.wf s
    (if !(s.hasMsg m 3 && m.opx == 2) then s
     else
       let t := s.takeMsg m
       match t.ctxOf m with
       | none => t
       | some k =>
         let c := t.sctx k
         if !c.valid || (c.unacked.head?).map Msg.seq != some m.seq || (t.execOf c.part c.slot).opcode != 5 then t
         else if m.poison then t.streamFail k 0x03
         else (t.onExec c.part c.slot (fun e => { e with got := e.got ++ m.body.take m.len })).acked k m.seq)

/-- TOKEN_FWD (R388). -/
def execTokenFwd (m : Msg) (s : State) : Host.Outcome State Fault Refusal :=
  ok m.wf s (if s.hasMsg m 4 then s.receive m (bodyFits m (m.opx == 0) true) true (fun t => t.applyForward m) else s)

/-- STREAM (R388). -/
def execStream (m : Msg) (s : State) : Host.Outcome State Fault Refusal :=
  ok m.wf s (if s.hasMsg m 5 then s.receive m (bodyFits m (m.opx == 0) true) true (fun t => t.applyForward m) else s)

/-- RECV_CONTEXT_CLOSE (R383): 10 ms after LAST was applied, or after 10 ms without traffic. -/
def execRecvContextClose (hub ctx : Nat) (s : State) : Host.Outcome State Fault Refusal :=
  ok (hubOk hub && decide (ctx < 4096)) s
    (let k := hub * 4096 + ctx
     let c := s.rctx k
     let due := decide (s.time ≥ c.lastAt + 10000000) || (match c.doneAt with
       | some t => decide (s.time ≥ t + 10000000)
       | none => false)
     if c.valid && due then (s.withRecvCtx (Tbl.put {} s.recvCtx k {})) else s)

/-! The timebase (R389). -/

/-- The tree parent's address, if there is a parent. -/
def State.parent (s : State) : Option Nat :=
  if s.fget FAB_TREE_PARENT.VALID 0 0 = 1 then some (s.fget FAB_TREE_PARENT.ADDR 0 0) else none

/-- TIME_SYNC_PERIOD (R389): TIME_REQ leaves for the tree parent. -/
def execTimeSyncPeriod (s : State) : Host.Outcome State Fault Refusal :=
  ok true s
    (match s.parent with
     | none => s
     | some a =>
       if s.time < s.syncAt + max 1 (s.fget FAB_TIME_CTL.PERIOD 0 0) * 100000 then s
       else (State.routed (s.withSyncAt s.time) { s.ownMsg 0x19 1 a (natLE 8 s.time) with ord := true }).1)

/-- TIME_REQ (R389): answered with the request's stamp and this part's. -/
def execTimeReq (m : Msg) (s : State) : Host.Outcome State Fault Refusal :=
  ok m.wf s
    (s.onMsg m 0x19 (fun t =>
      (t.routed { t.ownMsg 0x1A 1 m.src (m.body.take 8 ++ natLE 8 t.time ++ natLE 8 t.time) with ord := true }).1))

/-- A value in a 32-bit two's complement field, saturating. -/
def sat32 (v : Int) : Nat := ((max (-(2 ^ 31)) (min (2 ^ 31 - 1) v)) % (2 ^ 32)).toNat

/-- TIME_RESP (R389): offset and delay; the count steps only at the first lock, with no deck ever enabled, else its rate is
slewed. -/
def execTimeResp (m : Msg) (s : State) : Host.Outcome State Fault Refusal :=
  ok m.wf s
    (s.onMsg m 0x1A (fun t =>
      if t.parent ≠ some m.src then t
      else
        let at_ (i : Nat) : Int := (leNat ((m.body.drop (8 * i)).take 8) : Int)
        let (t1, t2, t3, t4) := (at_ 0, at_ 1, at_ 2, (t.time : Int))
        let off : Int := Int.tdiv ((t2 - t1) - (t4 - t3)) 2
        let delay : Int := Int.tdiv ((t4 - t1) - (t3 - t2)) 2
        let was := t.fget FAB_TIME_STATUS.LOCKED 0 0
        let locked := bit (decide (off.natAbs ≤ 20))
        let u := ((t.fset FAB_TIME_OFFSET.OFFSET_NS 0 0 (sat32 off)).fset FAB_TIME_STATUS.DELAY_NS 0 0
          (min 0xFFFF delay.toNat)).fset FAB_TIME_STATUS.LOCKED 0 0 locked
        let u1 := if was = locked then u
          else if locked = 1 then u.evt FAB_GOP_EVENT.TIME_LOCK 0 0 1 none
          else (u.evt FAB_GOP_EVENT.TIME_UNLOCK 0 0 1 none).record 0 { cause := 0x71, sev := 4, src := 5 }
        if !t.stepped && !t.deckEver then
          (((u1.withTime ((t4 + off).toNat % 2 ^ 64)).withStepped true).withSlew 0)
        else ((u1.withSlew off).withStepped true)))

/-! The combining tree (R391 to R395). -/

/-- The state with the tree changed. -/
def State.onTree (s : State) (f : Tree → Tree) : State := { s with tree := f s.tree }

/-- The valid children: index and address. -/
def State.kids (s : State) : List (Nat × Nat) :=
  (List.range 16).filterMap (fun c =>
    if s.fget FAB_TREE_CHILD.VALID 0 c = 1 then some (c, s.fget FAB_TREE_CHILD.ADDR 0 c) else none)

/-- The current epoch. -/
def State.epoch (s : State) : Nat := s.fget FAB_BAR_STATUS.EPOCH 0 0

/-- A tree message along an edge (R391): ORIGIN lies where streams have their number. -/
def State.edgeMsg (s : State) (ty dest origin opx : Nat) : Msg :=
  { s.ownMsg ty 1 dest [] with ord := true, stream := origin % 65536, epoch := origin / 65536 % 16, seq := s.epoch, opx := opx }

/-- A tree message is sent. -/
def State.sendTree (s : State) (ty dest opx : Nat) : State := (s.routed (s.edgeMsg ty dest s.fabAddr opx)).1

/-- A tree message is sent to every child. -/
def State.sendKids (s : State) (ty opx : Nat) : State := s.kids.foldl (fun t (_, a) => t.sendTree ty a opx) s

/-- A tree message that has arrived from a child, whose index `f` takes; one from elsewhere, or of another epoch, is
discarded and counted (R391). -/
def State.fromChild (s : State) (m : Msg) (ty : Nat) (f : State → Nat → State) : State :=
  s.onMsg m ty (fun t =>
    match t.kids.find? (fun (_, a) => a == m.src) with
    | some (c, _) => if m.seq = t.epoch then f t c else t.fcount FAB_GOP_COUNT.BAD 0 0
    | none => t.fcount FAB_GOP_COUNT.BAD 0 0)

/-- A tree message that has arrived from the parent. -/
def State.fromParent (s : State) (m : Msg) (ty : Nat) (f : State → State) : State :=
  s.onMsg m ty (fun t =>
    if t.parent = some m.src ∧ m.seq = t.epoch then f t else t.fcount FAB_GOP_COUNT.BAD 0 0)

/-- A waiting command of the tree ends: OK, or FABRIC_ERROR with GOP_FAIL (R394). -/
def State.endTree (s : State) (fail : Bool) (px : Nat × Nat) : State :=
  let e := s.execOf px.1 px.2
  if !(e.busy && e.stage == .waiting && e.opcode == 12) then s
  else if fail then s.endPlain px.1 px.2 0x12 0x0A else s.endPlain px.1 px.2 0 0

/-- A global operation has failed at this node (R394). -/
def State.gopFail (s : State) : State :=
  ((s.record 0 { cause := 0x70, sev := 4, src := 5 }).fcount FAB_GOP_COUNT.FAILS 0 0).evt FAB_GOP_EVENT.GOP_FAIL 0 0 1 none

/-- A waiting command is a SNAPSHOT. -/
def State.isSnap (s : State) (px : Nat × Nat) : Bool := (s.execOf px.1 px.2).f 16 1 == 0x22

/-- The next epoch begins with the arrivals that already count toward it; where they are all it needs, this node's own
contribution is ready (R392, R394). -/
def State.nextEpoch (s : State) : State :=
  let n := s.fget FAB_BAR_CTL.LOCAL_COUNT 0 0
  let s1 := (s.fset FAB_BAR_STATUS.EPOCH 0 0 (s.epoch + 1)).fset FAB_GOP_STATUS.BAR_WAIT 0 0 0
  s1.onTree (fun t =>
    let now := t.waitingNext.take n
    { t with
      local_ := now.length, localNext := t.waitingNext.length - now.length
      waiting := now, waitingNext := t.waitingNext.drop n
      children := [], snap := now.any s.isSnap, failed := false, sentUp := false
      readyAt := if n ≤ now.length then some s.time else none })

/-- BAR_DOWN at a node (R392, R394, R395): passed to the children; waiting commands end, or, at a snapshot's cut, its
SNAPSHOT commands wait for the marker. -/
def State.barDown (s : State) (snap fail : Bool) : State :=
  let s1 := s.sendKids 0x11 (bit snap + 2 * bit fail)
  let ws := s.tree.waiting
  let cut := snap && !fail
  let keep := if cut then ws.filter s.isSnap else []
  let s2 := (ws.filter (fun w => !keep.contains w)).foldl (State.endTree · fail ·) s1
  let s3 := if fail then s2.gopFail else s2
  let s4 := s3.nextEpoch
  if cut then
    (s4.onTree (fun t => { t with
      cut := true, snaps := keep, drained := false, snapChildren := [], snapReadyAt := none, snapUpSent := false
      snapFailed := false })).fset
      FAB_GOP_STATUS.SNAP_CUT 0 0 1
  else s4

/-- The node's barrier, if its own arrivals and all children's are there: up to the parent, or down from the root (R392). -/
def State.barTry (s : State) : State :=
  let t := s.tree
  let n := s.fget FAB_BAR_CTL.LOCAL_COUNT 0 0
  if t.sentUp || decide (t.local_ < n) || (n == 0 && s.kids == [] && s.parent.isNone) then s
  else
    let s1 := s.onTree (fun t => { t with readyAt := some (t.readyAt.getD s.time) })
    if !s.kids.all (fun (c, _) => t.children.contains c) then s1
    else match s.parent with
      | some a =>
        ((s1.onTree (fun t => { t with sentUp := true })).fset FAB_GOP_STATUS.BAR_WAIT 0 0 1).sendTree 0x10 a
          (bit t.snap + 2 * bit t.failed)
      | none => s1.barDown t.snap t.failed

/-- An arrival at the barrier (R392): toward this epoch, or, beyond LOCAL_COUNT or after BAR_UP, toward the next. -/
def State.barArrive (s : State) (p x : Nat) : State :=
  let s1 := s.onExec p x (fun e => { e with stage := .waiting })
  let t := s.tree
  if t.sentUp = false ∧ t.local_ < s.fget FAB_BAR_CTL.LOCAL_COUNT 0 0 then
    (s1.onTree (fun t => { t with
      local_ := t.local_ + 1, waiting := t.waiting ++ [(p, x)], snap := t.snap || s.isSnap (p, x) })).barTry
  else s1.onTree (fun t => { t with localNext := t.localNext + 1, waitingNext := t.waitingNext ++ [(p, x)] })

/-- A BARRIER or SNAPSHOT arrives, if its partition may (R392). -/
def State.gopArrive (s : State) (p x : Nat) : State :=
  if s.fbit FAB_BAR_CTL.PARTS 0 0 p then s.barArrive p x
  else (s.draw).endPlain p x 0x05 (leNat (s.draw.freeBytes 4))

/-- BARRIER (R392). -/
def execBarrier (part slot : Nat) (s : State) : Host.Outcome State Fault Refusal :=
  ok (slotOk part slot) s (s.runSend part slot (· == 0x20) (fun _ => s.gopArrive part slot))

/-- SNAPSHOT (R395): a barrier arrival that makes its epoch a snapshot's. -/
def execSnapshot (part slot : Nat) (s : State) : Host.Outcome State Fault Refusal :=
  ok (slotOk part slot) s (s.runSend part slot (· == 0x22) (fun _ => s.gopArrive part slot))

/-- BAR_UP (R392). -/
def execBarUp (m : Msg) (s : State) : Host.Outcome State Fault Refusal :=
  ok m.wf s
    (s.fromChild m 0x10 (fun t c =>
      (t.onTree (fun r => { r with
        children := if r.children.contains c then r.children else r.children ++ [c]
        snap := r.snap || m.opx.testBit 0, failed := r.failed || m.opx.testBit 1 })).barTry))

/-- BAR_DOWN (R392). -/
def execBarDown (m : Msg) (s : State) : Host.Outcome State Fault Refusal :=
  ok m.wf s (s.fromParent m 0x11 (fun t => (t.barDown (m.opx.testBit 0) (m.opx.testBit 1)).barTry))

/-- A broadcast's own delivery finds the ingress closed or a channel that holds its accesses: it waits. -/
def State.castWaits (s : State) (m : Msg) (origin : Nat) : Bool :=
  match s.arrive m.port origin (msgTarget m) (max 1 m.len) .write with
  | .wait => true
  | _ => false

/-- A broadcast's own delivery (R393): written where the map admits it, with the event add; refused, it is counted. -/
def State.castHere (s : State) (m : Msg) (origin : Nat) : State :=
  let s1 := match s.arrive m.port origin (msgTarget m) (max 1 m.len) .write with
    | .yes rq ps => (s.serveWrite rq m.body m.poison ps).evtAdd rq.part (m.addr / 2 ^ 44 % 1024) 1
    | .no t _ => t.fcount FAB_GOP_COUNT.BAD 0 0
    | .wait => s.fcount FAB_GOP_COUNT.BAD 0 0
  if origin ≠ s.fabAddr then s1
  else match s1.tree.casts with
    | [] => s1
    | (p, x) :: rest =>
      let s2 := s1.onTree (fun t => { t with casts := rest })
      let e := s2.execOf p x
      if !(e.busy && e.stage == .waiting && e.opcode == 12) then s2
      else if m.poison then s2.endPlain p x 0x12 0x03 else s2.endPlain p x 0 0

/-- ORIGIN of a tree message. -/
def originOf (m : Msg) : Nat := m.stream % 65536 + m.epoch % 16 * 65536

/-- A broadcast descends from this node (R393). -/
def State.castDown (s : State) (m : Msg) : State :=
  let s1 := s.kids.foldl (fun t (_, a) =>
    (t.routed { m with port := 16, vc := 1, dl := 0, ty := 0x13, src := s.fabAddr, dest := a, hops := 0, seq := s.epoch }).1) s
  s1.castHere m (originOf m)

/-- A broadcast rises from this node: to the parent, or down from the root. -/
def State.castUp (s : State) (m : Msg) : State :=
  match s.parent with
  | some a => (s.routed { m with port := 16, vc := 1, dl := 0, ty := 0x12, src := s.fabAddr, dest := a, hops := 0 }).1
  | none => s.castDown m

/-- BROADCAST (R393): the body rises to the root; the command waits for its own copy. -/
def execBroadcast (part slot : Nat) (s : State) : Host.Outcome State Fault Refusal :=
  ok (slotOk part slot) s
    (s.runSend part slot (· == 0x21) (fun e =>
      match s.engGet part (e.f 24 8) (e.f 40 8) with
      | .wait => s
      | .refused t => t.endPlain part slot 0x05 2
      | .bytes bs bad =>
        let t := ((s.engTouch 7 part 1 (e.f 24 8) (e.f 40 8)).onExec part slot (fun e => { e with stage := .waiting })).onTree
          (fun r => { r with casts := r.casts ++ [(part, slot)] })
        let m := { t.edgeMsg 0x12 0 t.fabAddr 0 with addr := e.f 32 8, body := bs, len := bs.length, poison := bad }
        if t.parent.isNone && t.castWaits m t.fabAddr then s else t.castUp m))

/-- BCAST_UP (R393); at the root one whose delivery waits stays in the inbox. -/
def execBcastUp (m : Msg) (s : State) : Host.Outcome State Fault Refusal :=
  ok m.wf s (s.fromChild m 0x12 (fun t _ => if t.parent.isNone && t.castWaits m (originOf m) then s else t.castUp m))

/-- BCAST_DOWN (R393); one whose delivery waits stays in the inbox. -/
def execBcastDown (m : Msg) (s : State) : Host.Outcome State Fault Refusal :=
  ok m.wf s (s.fromParent m 0x13 (fun t => if t.castWaits m (originOf m) then s else t.castDown m))

/-! Snapshots (R395). -/

/-- The device goes on after a snapshot. -/
def State.snapResume (s : State) : State :=
  (s.onTree (fun t => { t with cut := false })).fset FAB_GOP_STATUS.SNAP_HELD 0 0 0

/-- SNAP_MARKER at a node: passed down; SNAPSHOT commands end; the device resumes, or is held. -/
def State.snapMarker (s : State) (fail : Bool) : State :=
  let s1 := s.sendKids 0x15 (2 * bit fail)
  let s2 := s.tree.snaps.foldl (State.endTree · fail ·) s1
  let s3 := (s2.onTree (fun t => { t with
    snaps := [], drained := false, snapChildren := [], snapReadyAt := none, snapUpSent := false, snapFailed := false })).fset
    FAB_GOP_STATUS.SNAP_CUT 0 0 0
  let s4 := if fail then s3.gopFail else s3.evt FAB_GOP_EVENT.SNAP_DONE 0 0 1 none
  if fail || s.fget FAB_GOP_CTL.SNAP_HOLD 0 0 == 0 then s4.snapResume else s4.fset FAB_GOP_STATUS.SNAP_HELD 0 0 1

/-- The node's drain report, if it and all its children have drained, or a child is overdue (`late`): failed where the
child is overdue or a child's own report was (R394, R395). -/
def State.snapTry (s : State) (late : Bool) : State :=
  let t := s.tree
  let fail := late || t.snapFailed
  if !t.cut || !t.drained || t.snapUpSent || !(late || s.kids.all (fun (c, _) => t.snapChildren.contains c)) then s
  else match s.parent with
    | some a => (s.onTree (fun t => { t with snapUpSent := true })).sendTree 0x14 a (2 * bit fail)
    | none => s.snapMarker fail

/-- No command but those waiting at the barrier is in execution, and no stream is open (R395). -/
def State.allDrained (s : State) : Bool :=
  s.execs.all (fun (_, e) => !e.busy ||
    (e.opcode == 12 && e.stage == .waiting && (e.f 16 1 == 0x20 || e.f 16 1 == 0x22))) &&
  s.sendCtx.all (fun (_, c) => !c.valid)

/-- SNAPSHOT_DRAINED (R395). -/
def execSnapshotDrained (s : State) : Host.Outcome State Fault Refusal :=
  ok true s
    (if s.tree.cut && !s.tree.drained && s.fget FAB_GOP_STATUS.SNAP_CUT 0 0 == 1 && s.allDrained then
       (s.onTree (fun t => { t with drained := true, snapReadyAt := some s.time })).snapTry false
     else s)

/-- SNAP_UP (R395). -/
def execSnapUp (m : Msg) (s : State) : Host.Outcome State Fault Refusal :=
  ok m.wf s
    (s.fromChild m 0x14 (fun t c =>
      (t.onTree (fun r => { r with
        snapChildren := if r.snapChildren.contains c then r.snapChildren else r.snapChildren ++ [c]
        snapFailed := r.snapFailed || m.opx.testBit 1 })).snapTry false))

/-- SNAP_MARKER (R395). -/
def execSnapMarker (m : Msg) (s : State) : Host.Outcome State Fault Refusal :=
  ok m.wf s (s.fromParent m 0x15 (fun t => if t.fget FAB_GOP_STATUS.SNAP_CUT 0 0 = 1 then t.snapMarker (m.opx.testBit 1) else t))

/-- SNAPSHOT_RESUME (R395): host software ends a snapshot hold. -/
def execSnapshotResume (who : Accessor) (s : State) : Host.Outcome State Fault Refusal :=
  ok who.wf s
    (if s.reaches who FAB_GOP_CTL.RESUME 0 0 && s.fget FAB_GOP_STATUS.SNAP_HELD 0 0 == 1 then s.snapResume else s)

/-- GOP_TIMEOUT (R394): a child's up message is missing for TIMEOUT_MS of this node's own being ready. -/
def execGopTimeout (child : Nat) (s : State) : Host.Outcome State Fault Refusal :=
  ok (decide (child < 16)) s
    (let lim := max 1 (s.fget FAB_GOP_CTL.TIMEOUT_MS 0 0) * 1000000
     let t := s.tree
     let due (r : Option Nat) : Bool := match r with
       | some t0 => decide (s.time ≥ t0 + lim)
       | none => false
     if s.fget FAB_TREE_CHILD.VALID 0 child = 0 then s
     else if due t.readyAt && !t.sentUp && !t.children.contains child then
       match s.parent with
       | some a =>
         ((s.onTree (fun t => { t with sentUp := true, failed := true })).fset FAB_GOP_STATUS.BAR_WAIT 0 0 1).sendTree 0x10 a
           (bit t.snap + 2)
       | none => s.barDown t.snap true
     else if due t.snapReadyAt && t.drained && !t.snapUpSent && !t.snapChildren.contains child then s.snapTry true
     else s)

/-! Fabric reset (R396). -/

/-- RESET_ACK goes to the parent, and the local reset follows. -/
def State.resetAck (s : State) : State :=
  let s1 := match s.parent with
    | some a => s.sendTree 0x18 a 0
    | none => s
  s1.onTree (fun t => { t with resetDownAt := none, ackSentAt := some s.time })

/-- A device begins the reset: RESET_DOWN to every child, whose RESET_ACKs it then awaits. -/
def State.resetBegin (s : State) : State :=
  if s.tree.resetDownAt.isSome || s.tree.ackSentAt.isSome then s
  else
    let s1 := ((s.fset FAB_GOP_STATUS.RESET_ACTIVE 0 0 1).sendKids 0x17 0).onTree (fun t => { t with
      resetReqAt := none, resetAcks := [], resetDownAt := some s.time })
    if s.kids = [] then s1.resetAck else s1

/-- A reset request rises, or begins at the root. -/
def State.resetAsk (s : State) : State :=
  match s.parent with
  | some a => ((s.fset FAB_GOP_STATUS.RESET_ACTIVE 0 0 1).onTree (fun t => { t with resetReqAt := some s.time })).sendTree 0x16 a 0
  | none => s.resetBegin

/-- FABRIC_RESET_START (R396): a privileged write of RESET_START. -/
def execFabricResetStart (who : Accessor) (s : State) : Host.Outcome State Fault Refusal :=
  ok who.wf s
    (if s.reaches who FAB_GOP_CTL.RESET_START 0 0 && s.privileged who && s.tree.resetReqAt.isNone then s.resetAsk else s)

/-- RESET_REQ (R396). -/
def execResetReq (m : Msg) (s : State) : Host.Outcome State Fault Refusal :=
  ok m.wf s (s.fromChild m 0x16 (fun t _ => if t.tree.resetReqAt.isSome then t else t.resetAsk))

/-- RESET_DOWN (R396). -/
def execResetDown (m : Msg) (s : State) : Host.Outcome State Fault Refusal :=
  ok m.wf s (s.fromParent m 0x17 State.resetBegin)

/-- RESET_ACK (R396): with the last child's, this device answers its parent. -/
def execResetAck (m : Msg) (s : State) : Host.Outcome State Fault Refusal :=
  ok m.wf s
    (s.fromChild m 0x18 (fun t c =>
      if t.tree.resetDownAt.isNone then t
      else
        let u := t.onTree (fun r => { r with resetAcks := if r.resetAcks.contains c then r.resetAcks else r.resetAcks ++ [c] })
        if u.kids.all (fun (c, _) => u.tree.resetAcks.contains c) then u.resetAck else u))

/-- RESET_REQ_TIMEOUT (R396): a request unanswered for 10 ms: the device begins by itself. -/
def execResetReqTimeout (s : State) : Host.Outcome State Fault Refusal :=
  ok true s
    (match s.tree.resetReqAt with
     | some t => if s.time ≥ t + 10000000 then s.resetBegin else s
     | none => s)

/-- RESET_ACK_TIMEOUT (R396): 10 ms without all RESET_ACKs. -/
def execResetAckTimeout (s : State) : Host.Outcome State Fault Refusal :=
  ok true s
    (match s.tree.resetDownAt with
     | some t => if s.time ≥ t + 10000000 then s.resetAck else s
     | none => s)

/-- The route tables as the image gave them (R396). -/
def State.routesHome (s : State) : State :=
  let lo := FAB_GRP_TBL.PATH0.key 0 0
  let hi := FAB_MBR_TBL.PATH0.key 0 256
  let s1 := (s.withRegs (s.regs.drop (fun k _ => decide (lo ≤ k) && decide (k < hi))))
  s1.routeImage.foldl (fun t (k, v) => (t.withRegs (Tbl.put 0 t.regs k v))) s1

/-- A port after a fabric reset: its status and tally as at reset, its link layer empty; it trains again, warm. -/
def State.portReset (s : State) (p : Nat) : State :=
  let s1 := [FAB_PORT_STATUS.WIDTH, FAB_PORT_STATUS.LANES, FAB_PORT_STATUS.REVERSED, FAB_PORT_STATUS.WARM,
    FAB_PORT_STATUS.FAIL_CAUSE, FAB_PORT_STATUS.STATE, FAB_PORT_TALLY.LEVEL, FAB_PORT_TALLY.LAST_CAUSE].foldl
      (fun t f => t.fset f 0 p 0) s
  (s1.onPort p (fun t => { ({} : Port) with settings := t.settings, savedTaps := t.savedTaps, leakAt := t.leakAt })).portStart p

/-- FABRIC_LOCAL_RESET (R396): 100 µs after its RESET_ACK a device's fabric starts again. -/
def execFabricLocalReset (s : State) : Host.Outcome State Fault Refusal :=
  ok true s
    (match s.tree.ackSentAt with
     | none => s
     | some t0 =>
       if s.time < t0 + 100000 then s
       else
         let ops := s.tree.waiting ++ s.tree.waitingNext ++ s.tree.snaps ++ s.tree.casts
         let s1 := ((s.withInbox []).withRecvCtx [])
         let s2 := (s1.sendCtx.filter (fun (_, c) => c.valid)).foldl (fun t (k, _) => t.streamFail k 0x09) s1
         let s3 := ops.foldl (State.endTree · true ·) s2
         let s4 := if ops ≠ [] ∨ s.tree.cut = true then s3.gopFail else s3
         let s5 := State.routesHome (((s4.withTree {}).withStepped false).withInbox [])
         let s6 := (s5.fset FAB_LIVE.PORTS 0 0 0).fset FAB_BAR_STATUS.EPOCH 0 0 0
         let s7 := [FAB_GOP_STATUS.BAR_WAIT, FAB_GOP_STATUS.SNAP_CUT, FAB_GOP_STATUS.SNAP_HELD,
           FAB_GOP_STATUS.RESET_ACTIVE].foldl (fun t f => t.fset f 0 0 0) s6
         let s8 := (List.range 16).foldl State.portReset s7
         ((s8.record 0 { cause := 0x72, sev := 4, src := 5 }).evt FAB_GOP_EVENT.RESET_DONE 0 0 1 none).barTry)

end Sys2Proof.Machine
end

