-- ==== Sys2Proof/Machine/Stops.lean ====
section
/-!
DEFINITION. Commands ended from outside: by their timeout (R320, R321), by a stop of their deck (R322), or by a partition
reset (R334).
-/

namespace Sys2Proof.Machine

/-- The streams of a command are abandoned without further sends; a response that still arrives finds its context (R385). -/
def State.dropStreams (s : State) (p x : Nat) : State :=
  (s.withSendCtx (s.sendCtx.map (fun (k, c) =>
      (k, if c.valid ∧ c.part = p ∧ c.slot = x then { c with valid := false, queue := [], unacked := [] } else c))))

/-- What a command holds goes back (Table 12.10): pins, streams, the rings of a running regrowth. -/
def State.letGo (s : State) (p x : Nat) : State :=
  let e := s.execOf p x
  let s1 := (e.written.foldl State.unpin (s.dropStreams p x)).onExec p x (fun e => { e with written := [] })
  match e.regrow with
  | some w => s1.regrowStop p x (e.resv.headD {}) w
  | none => s1.unreserveAll p x

/-- A started command is ended with a status (Table 12.10): its instance is aborted, and its record follows its last pin
(R159). One whose end has been decided keeps its own. A regrowth stops after its running chunk (R174), unless the
partition is reset (`now`). -/
def State.endBy (s : State) (p x status detail : Nat) (now : Bool) : State :=
  let e := s.execOf p x
  match e.stage with
  | .ending _ _ _ => s
  | .running l =>
    match e.regrow with
    | none => ((s.abortInst p l).letGo p x).endCmd p x l status detail
    | some w =>
      let (st, dt) := w.cut.getD (status, detail)
      if now then ((s.abortInst p l).letGo p x).endCmd p x l st dt
      else s.onExec p x (fun e => { e with regrow := some { w with cut := some (st, dt) } })
  | .rerun l => (s.letGo p x).endCmd p x l status detail
  | _ => (s.letGo p x).endPlain p x status detail

/-- How the command ends has been decided. -/
def Exec.ends (e : Exec) : Bool :=
  (match e.stage with
   | .ending _ _ _ => true
   | _ => false) || (match e.regrow with
   | some w => w.cut.isSome
   | none => false)

/-- The timebase at which an entry fetched at `t0` times out, if it has a limit. -/
def limitOf (v t0 : Nat) : Option Nat :=
  if unreadable v ∨ fld v 8 4 = 0 then none else some (t0 + fld v 8 4 * 1000)

/-- By how much the limit is overrun, saturating (Table 12.4). -/
def State.overrun (s : State) (lim : Nat) : Nat := min (s.time - lim) 0xFFFFFFFF

/-- COMMAND_TIMEOUT (R320): the timebase has reached the limit of a deck's command: the one in execution slot `idx`, or the
fetched entry `idx` that has not started, whose record waits for room in the completion ring. -/
def execCommandTimeout (deck idx : Nat) (started : Bool) (s : State) : Host.Outcome State Fault Refusal :=
  ok (deckOk deck && decide (idx < 1024)) s
    (let p := s.deckPart deck
     let count (t : State) : State := t.fcount DECK_COUNT.TIMEOUTS (0x9000 + p) 0
     if started then
       let e := s.execOf p idx
       match limitOf e.entry e.fetched with
       | none => s
       | some lim =>
         if !e.busy || e.deck != deck || decide (s.time < lim) || e.ends then s
         else (count s).endBy p idx 2 (s.overrun lim) false
     else
       let c := s.deck deck
       match c.fetched[idx]? with
       | none => s
       | some (v, t0) =>
         match limitOf v t0 with
         | none => s
         | some lim =>
           if s.time < lim ∨ c.cqProd + (s.deckExecs deck).length + 1 > c.cqCons + (s.cqRing deck).2 then s
           else
             (((count s).onDeck deck (fun c => { c with fetched := c.fetched.eraseIdx idx, blocked := false })).deckRecord deck
               (fld v 2 2) 2 false (s.overrun lim) ((fld v 1 1).testBit 0)))

/-- A deck stops (R322): its commands in execution end ABORTED; once the last has, its fetched entries are recorded and it
is disabled. `silent`: no record is written (R334); `now`: the partition is reset. -/
def State.stopDeck (s : State) (d : Nat) (silent now : Bool) : State :=
  if s.fget DECK_CFG.EN d 0 = 0 then s
  else
    let p := s.deckPart d
    let s1 := s.onDeck d (fun c => { c with stopping := some (silent || c.stopping == some true) })
    let xs := ((s.partExecs p).filter (fun (_, e) => e.deck == d)).map Prod.fst
    (xs.foldl (fun t x => (if silent then t.onExec p x (fun e => { e with silent := true }) else t).endBy p x 7 0 now) s1).stopCheck
      d

/-- DECK_STOP (R322): DECK_CTL.STOP of the selected deck. -/
def execDeckStop (who : Accessor) (s : State) : Host.Outcome State Fault Refusal :=
  ok who.wf s
    (match s.deckOf who with
     | some d => s.stopDeck d false false
     | none => s)

end Sys2Proof.Machine
end

