-- ==== Sys2Proof/Machine/Parts.lean ====
section
/-!
DEFINITION. The protection map's changes (R331, R332) and the partitions' resets, loads and retirements (R334 to R339).
-/

namespace Sys2Proof.Machine

/-! The map (R331, R332). -/

/-- The offset lies among the map's entries. -/
def isShadow (off : Nat) : Bool := decide (0x9000 ≤ off) && decide (off < 0xD000)

/-- A commit is pending. -/
def State.pendingCommit (s : State) : Bool := s.fget PROT_GEN.PENDING 0 0 == 1

/-- PROT_SHADOW_WRITE (R331): a shadow entry's register changes; while a commit is pending it is refused, and one of another size than R496 allows is
ignored. -/
def execProtShadowWrite (who : Accessor) (off n v : Nat) (s : State) : Host.Outcome State Fault Refusal :=
  ok who.wf s
    (if !isShadow off || !s.privileged who || !sizeOk n then s
     else if s.pendingCommit then s.evt PROT_EVENT.SHADOW_LOCKED 0 0 1 none
     else s.regWriteIf (fun f => f.blk == .prot && decide (f.off ≥ 0x1000)) who off n v)

/-- The first multiple of 1,024 ns that is at least 2 µs away. -/
def commitTime (now : Nat) : Nat := (now + 2000 + 1023) / 1024 * 1024

/-- A swap is scheduled. -/
def State.schedule (s : State) : State :=
  (s.fset PROT_COMMIT_TIME.T_C 0 0 (commitTime s.time)).fset PROT_GEN.PENDING 0 0 1

/-- Some valid shadow entry breaks the format. -/
def State.shadowBad (s : State) : Bool := (List.range 512).any (fun k => (s.shadow k).bad)

/-- A commit can be taken now (R332). -/
def State.commitFree (s : State) : Bool := s.fview PROT_FENCE.DRAINED 0 0 == 1 && !s.pendingCommit

/-- PROT_COMMIT (R331, R332): a write of PROT_CTL. COMMIT schedules the swap, unless older requests are in flight, a commit is
pending, or a valid shadow entry breaks R327. -/
def execProtCommit (who : Accessor) (v : Nat) (s : State) : Host.Outcome State Fault Refusal :=
  ok who.wf s
    (if !s.privileged who || !s.reaches who PROT_CTL.VIEW 0 0 then s
     else
       let s1 := s.fset PROT_CTL.VIEW 0 0 (v / 2)
       if v % 2 = 0 then s1
       else if !s.commitFree || s.shadowBad then s1.evt PROT_EVENT.COMMIT_REFUSED 0 0 1 none
       else s1.schedule)

/-- PROT_SWAP (R331): at t_c the shadow becomes the active copy and the generation advances. -/
def execProtSwap (s : State) : Host.Outcome State Fault Refusal :=
  ok true s
    (if s.pendingCommit ∧ s.time ≥ s.fget PROT_COMMIT_TIME.T_C 0 0 then
      (s.protCopy.fwrap PROT_GEN.ACTIVE 0 0).fset PROT_GEN.PENDING 0 0 0
     else s)

/-! The start of a partition reset (R334, steps 1 to 3). -/

/-- The decks of a partition that have a context. -/
def State.partDecks (s : State) (p : Nat) : List Nat :=
  (s.decks.filter (fun (d, _) => s.fget DECK_QCFG.ASSIGNED d 0 == 1 && s.deckPart d == p)).map Prod.fst

/-- Step commands of a partition other than attention: they are CANCELLED, and their pages unpinned (R222). -/
def State.cancelRest (s : State) (p : Nat) : State :=
  let mine (x : Step) : Bool := x.part == p
  let gone := s.thapWait.filter mine ++ (s.chans.map (fun (_, h) => h.queue.filter mine)).flatten
  (gone.filter (fun x => x.op == 2)).foldl (fun t x => t.verifyUnpin x)
    ((s.withThapWait (s.thapWait.filter (fun x => !mine x))).withChans (s.chans.map (fun (c, h) => (c, { h with queue := h.queue.filter (fun x => !mine x) }))))

/-- The bandwidth account belongs to the partition. -/
def State.acctOf (s : State) (p k : Nat) : Bool :=
  if k < 1024 then s.fget BWR_ACCT.VALID (k / 256) (k % 256) == 1 && s.fget BWR_ACCT.PART (k / 256) (k % 256) == p
  else s.chanPart (k - 1024) == some p

/-- The accounts of a partition changed. -/
def State.onAccts (s : State) (p : Nat) (f : Acct → Acct) : State :=
  (s.accts.filter (fun (k, _) => s.acctOf p k)).foldl (fun t (k, _) => t.onAcct k f) s

/-- The stage of a reset that runs, as a further one joins it (R339): a load or a retirement takes it over; a reset by FLR
that meets a load makes the load fail. -/
def ResetStage.join (g : ResetStage) (byFlr load retire : Bool) : ResetStage :=
  match g with
  | .draining b l r t =>
    if load then .draining false true false t else if retire then .draining b false true t
    else .draining (b || (byFlr && l)) l r t
  | g => g

/-- A partition reset starts, or joins the one that runs: its decks stop, its instances abort, its queued steps are cancelled,
and requests held by regulation are released uncharged (Table 9.4). -/
def State.startReset (s : State) (p : Nat) (byFlr load retire : Bool) : State :=
  match (s.part p).stage with
  | .draining _ _ _ _ => s.onPart p (fun q => { q with stage := q.stage.join byFlr load retire })
  | _ =>
    let s1 := (s.partDecks p).foldl (fun t d => t.stopDeck d byFlr true) s
    let s2 := (List.range 4).foldl (fun t l =>
      if (t.inst p l).valid && !(t.inst p l).aborted then t.abortInst p l else t) s1
    ((s2.cancelRest p).onAccts p (fun a => { a with held := [] })).onPart p (fun q =>
      { q with stage := .draining false load retire s.time })

/-- What a write of PART_CMD names: the partition, if the accessor may write it and OP is `op`. -/
def State.partCmd (s : State) (who : Accessor) (v op : Nat) : Option Nat :=
  if s.privileged who && s.reaches who PART_CMD.PART 0 0 && v / 16 % 4 == op then some (v % 16) else none

/-- PARTITION_RESET (R334): PART_CMD with OP 1. A partition that is unused, or held by a failed or running load, is not
reset again (R338). -/
def execPartitionReset (who : Accessor) (v : Nat) (s : State) : Host.Outcome State Fault Refusal :=
  ok who.wf s
    (match s.partCmd who v 1 with
     | none => s
     | some p =>
       match (s.part p).stage with
       | .none => if s.partStatus p = 0 then s else s.startReset p false false false
       | _ => s)

/-! Its end (R334, steps 4 to 6; R181, R500). -/

/-- Every request of the partition has completed (R334, step 4): no yarder tag, host read, held access, Thapel step or command
of it is left, and its decks are disabled. -/
def State.drained (s : State) (p : Nat) : Bool :=
  !s.tags.any (fun (k, t) => t.busy && s.tilePart (k / 512) == some p) && !s.hostReads.any (fun r => r.part == p) &&
  !s.thapWait.any (fun x => x.part == p) &&
  !s.chans.any (fun (_, h) => h.held.any (fun x => x.rq.part == p) || h.queue.any (fun x => x.part == p) ||
    (match h.running with
     | some x => x.part == p
     | none => false)) &&
  s.partExecs p == [] && (s.partDecks p).all (fun d => s.fget DECK_CFG.EN d 0 == 0)

/-- The landing slices of a partition: hub and slice. -/
def State.landings (s : State) (p : Nat) : List (Nat × Nat) :=
  (List.range 4).flatMap (fun h => ((List.range 16).filter (fun sl => s.slice h sl == (p, true, true))).map (fun sl => (h, sl)))

/-- Landing and the working stores are written with clean zero words (step 5). -/
def State.clearStores (s : State) (p : Nat) : State :=
  let s1 := (s.landings p).foldl (fun t (h, sl) =>
    (t.closeRange (llmAt h (sl * 0x800000)) 0x800000).zero (llmAt h (sl * 0x800000)) 0x800000) s
  (s.towerTiles p).foldl (fun t j => t.zero (wsAt j 0) 0x1000000) s1

/-- The partition whose pool holds the frame of a page number. -/
def State.pageOwner (s : State) (pg : Nat) : Option Nat :=
  s.img.pools.findSome? (fun (c, v) =>
    if hubOfChan c == hubOfPage pg && decide (s.pageNo c 0 ≤ pg) && decide (pg < s.pageNo c 0 + s.frames c) then some (fld v 2 1)
    else none)

/-- A ledger word that cannot be read is rewritten at the reset of the partition to which all its frames belong. -/
def State.clearLedWord (s : State) (p pg : Nat) : State :=
  if (List.range 4).all (fun i => (s.pageOwner (pg - pg % 4 + i)).getD p == p) then
    let a := s.ledAt pg
    let t := s.engWrite 8 p (a - a % 64) (List.replicate 64 0)
    t.fset KV_POOL_FREE.FREE_FRAMES (hubOfPage pg) 0 (t.hubFree (hubOfPage pg))
  else s

/-- Every ledger entry of the partition is released, one that read uncorrectable too (R181). -/
def State.clearLedger (s : State) (p : Nat) : State :=
  (s.poolChans p).foldl (fun t c => (List.range (t.frames c)).foldl (fun u f =>
    let pg := u.pageNo c f
    if u.ledBad pg then u.clearLedWord p pg
    else if (u.led pg).valid then u.release pg else u) t) s

/-- One session over a reset (R181): an uncorrectable record becomes a free one; a live session's VALID entries are marked
DROPPED. -/
def State.dropSession (s : State) (p slot : Nat) : State :=
  if s.recBad p slot then s.engWrite 6 p (s.recAt p slot 0) (List.replicate 512 0)
  else if s.srec p slot 2 1 ≠ 1 then s
  else (s.entries p slot).foldl (fun t (l, k) =>
    if t.pteBad p slot l k then t.mendPte p slot l k
    else
      let v := t.pte p slot l k
      if pteValid v then (t.setPte p slot l k (pteDrop v)).setRecFlag p slot 2 true else t) s

/-- The register with an instance and index is one of partition `p`'s; the DECK_SEL of a VF is its partition's, that of PF0
no partition's (R324; DEDUCED, assumption 28). -/
def State.regOf (s : State) (p : Nat) (d : RegDesc) (u i : Nat) : Bool :=
  match d.blk with
  | .tile => s.tilePart u == some p
  | .deck => u == 0x9000 + p || (decide (u < 0x8000) && s.fget DECK_QCFG.ASSIGNED u 0 == 1 && s.deckPart u == p) ||
      (decide (0x8002 ≤ u ∧ u < 0x8040 ∧ 2 ≤ u % 32) && s.vfPart (u % 32 - 1) == some p)
  | .vfq => u == p
  | .hub | .hif => i == p
  | _ => false

/-- The key is of a register that the partition's reset owns. -/
def State.ownedKey (s : State) (p : Nat) (k : Nat) : Bool :=
  match regAt (k / 64) with
  | some (d, u, i) => d.owner == .partition && s.regOf p d u i
  | none => false

/-- What the image has given the partition's own fields is kept beside them (R14). -/
def State.keepImage (s : State) (p : Nat) : State :=
  let mine := s.regs.filter (fun x => s.ownedKey p x.1 && imageKey x.1)
  let others := s.img.partRegs.drop (fun k _ => s.ownedKey p k)
  s.withImg { s.img with partRegs := mine.foldl (fun t (k, v) => t.ins k v) others }

/-- Every register field that the partition's reset owns returns to its reset value; for one whose Reset is "image" that is
the image's (R14, R334, R335). -/
def State.resetRegs (s : State) (p : Nat) : State :=
  s.withRegs ((s.img.partRegs.filter (fun x => s.ownedKey p x.1)).foldl (fun t (k, v) => t.ins k v)
    (s.regs.drop (fun k _ => s.ownedKey p k)))

/-- Steps 5 and 6 of a partition reset. -/
def State.finishReset (s : State) (p : Nat) : State :=
  let s1 := ((s.clearStores p).clearLedger p)
  let s2 := (List.range (s.sess p 8 4)).foldl (fun t i => t.dropSession p (s.sess p 4 4 + i)) s1
  let ts := s.towerTiles p
  let s3 := (((((((s2.withSems (s2.sems.clearRange (p * 16384) 16384)).freshSems p 0 16384).withEvts (s2.evts.clearRange (p * 1024) 1024)).withVfQ (s2.vfQ.clearRange (p * 256) 256)).withDecks (s2.decks.drop (fun d _ => s.fget DECK_QCFG.ASSIGNED d 0 == 1 && s.deckPart d == p))).withPinHeld (s2.pinHeld.filter (fun (_, t) => !ts.contains (t / 64)))).withAttn (s2.attn.drop (fun t _ => ts.contains (t / 64))))
  let s4 := ts.foldl State.tileOff (s3.resetRegs p)
  ((s4.restartAccts p).onPart p (fun q =>
    { q with level := 0, insts := [], preAsk := none, lastDeck := [0, 0, 0, 0] })).evt
      PROT_EVENT.PART_RESET_DONE 0 0 1 none

/-! Loads (R337, R338). -/

/-- An image kept as its bytes. -/
def bytesRd (l : List Byte) (i : Nat) : Byte := l.getD i 0

/-- The items of an image that has passed its checks. -/
def itemsOf (rd : Nat → Byte) : List Item16 :=
  match allItems rd (imgSects rd) with
  | .inr is => is
  | .inl _ => []

/-- PART_LOAD_STATUS. -/
def State.loadStatus (s : State) (result sect p : Nat) : State :=
  ((s.fset PART_LOAD_STATUS.RESULT 0 0 result).fset PART_LOAD_STATUS.SECTION 0 0 sect).fset PART_LOAD_STATUS.PART 0 0 p

/-- A load fails: before its apply it changes nothing else. -/
def State.loadFails (s : State) (result sect p : Nat) : State :=
  (s.loadStatus result sect p).evt PROT_EVENT.LOAD_FAIL 0 0 1 none

/-- A load fails in its apply (R338): the partition stays held and unsealed. -/
def State.applyFails (s : State) (result sect p : Nat) : State :=
  let s1 := ((s.loadFails result sect p).setPartStatus p 2).onPart p (fun q => { q with stage := .heldFailed, load := [] })
  (s1.withSealParts (setBit s1.sealParts p false))

/-- The partition has a load that is validated and not yet applied. -/
def Part.loading (q : Part) : Bool :=
  match q.stage with
  | .draining _ l _ _ => l
  | .loadDrain r c => !r && !c
  | _ => false

/-- The state as it will be once the other partitions' validated loads are applied (Table 13.4). -/
def State.withPending (s : State) (p : Nat) : State :=
  (List.range 16).foldl (fun t q =>
    if q ≠ p ∧ (s.part q).loading = true then t.withPart (bytesRd (s.part q).load) q (itemsOf (bytesRd (s.part q).load)) else t) s

/-- The partition's command OP 2 or OP 3 is taken: it is not already being loaded or retired. -/
def Part.idle (q : Part) : Bool :=
  match q.stage with
  | .none | .heldFailed => true
  | .draining _ l r _ => !l && !r
  | _ => false

/-- The image at a host-window address, as partition `p`'s window shows it (R292, R337). -/
def State.windowImage (s : State) (p base off : Nat) : Byte :=
  let (port, a) := s.hostTarget p (base + off)
  readByte s.mem (hostAt port a)

/-- The loader can read an image at a host-window address. -/
def State.imageReadable (s : State) (p base : Nat) : Bool :=
  base % 4096 == 0 && isHostWindow base && s.pkg.hostUp.getD (s.hostTarget p base).1 0 != 0

/-- PARTITION_LOAD (R337, R401): PART_CMD with OP 2. The image is validated while the partition runs on; if it passes, the
partition is reset to be held for it. -/
def execPartitionLoad (who : Accessor) (v : Nat) (ver : Verdict) (s : State) : Host.Outcome State Fault Refusal :=
  ok who.wf s
    (match s.partCmd who v 2 with
     | none => s
     | some p =>
       let base := s.fget PART_LOAD_ADDR.ADDR 0 0
       let rd := s.windowImage p base
       if !s.isReady then s.loadFails 4 0 p
       else if !(s.part p).idle then s
       else if !s.imageReadable p base then s.loadFails 3 0 p
       else match (s.withPending p).checkPart rd p ver with
         | .fail r x => s.loadFails r x p
         | .pass _ =>
           ((s.loadStatus 1 0 p).onPart p (fun q =>
             { q with load := imgBytes rd 0 (imgNat rd 24 8) })).startReset p false true false)

/-- PARTITION_RETIRE (R337, R401): PART_CMD with OP 3. -/
def execPartitionRetire (who : Accessor) (v : Nat) (s : State) : Host.Outcome State Fault Refusal :=
  ok who.wf s
    (match s.partCmd who v 3 with
     | none => s
     | some p =>
       if !s.isReady then s.loadFails 4 0 p
       else if !(s.part p).idle || s.partStatus p == 0 then s
       else s.startReset p false false true)

/-- Frames that a partition's pool channels hold on a hub. -/
def State.partFrames (s : State) (p h : Nat) : Nat :=
  ((s.poolChans p).filter (fun c => c / 192 == h)).foldl (fun n c => n + s.frames c) 0

/-- The free frames follow a change of partition `p`'s pool, all of whose frames are free. -/
def State.movePool (t s : State) (p : Nat) : State :=
  (List.range 4).foldl (fun u h =>
    u.fset KV_POOL_FREE.FREE_FRAMES h 0 (s.fget KV_POOL_FREE.FREE_FRAMES h 0 - s.partFrames p h + t.partFrames p h)) t

/-- The new image of a held partition is written, and its map entries wait for their commit (R337, step 3). -/
def State.applyImage (s : State) (p : Nat) : State :=
  let rd := bytesRd (s.part p).load
  let c := ((s.withPart rd p (itemsOf rd)).movePool s p).fillAccounts.keepImage p
  c.withSealParts (setBit c.sealParts p false)

/-- A partition is retired: its resources are unassigned, its key destroyed (R337, R486). -/
def State.retire (s : State) (p : Nat) : State :=
  let c := (((s.barePart p).keepImage p |>.movePool s p).setPartStatus p 0).keyFor p
  c.withMgmt { c.mgmt with partMsg := Tbl.put [] c.mgmt.partMsg p [] }

/-- The commit of a load or a retirement is written once it can be accepted (R332); a shadow entry of others that breaks the
format fails the load. -/
def State.loadCommit (s : State) (p : Nat) : State :=
  match (s.part p).stage with
  | .loadDrain retire false =>
    if !s.commitFree then s
    else
      let c := if retire then s.retire p else s.applyImage p
      if c.shadowBad then (if retire then s else s.applyFails 4 5 p)
      else c.schedule.onPart p (fun q => { q with stage := .loadDrain retire true })
  | _ => s

/-- RESET_DRAIN_DONE (R334): once every request has completed, the partition's state is cleared; it runs again, or is held
for its load, or is retired. -/
def execResetDrainDone (part : Nat) (s : State) : Host.Outcome State Fault Refusal :=
  ok (partOk part) s
    (match (s.part part).stage with
     | .draining flr load retire _ =>
       if !s.drained part then s
       else
         let t := s.finishReset part
         if load ∧ flr then t.applyFails 7 0 part
         else if load ∨ retire then
           State.loadCommit ((t.setPartStatus part (if load then 2 else 1)).onPart part (fun q =>
             { q with stage := .loadDrain retire false })) part
         else (t.setPartStatus part 1).onPart part (fun q => { q with stage := .none })
     | _ => s)

/-- DRAIN_SLOW (R334): 100 ms of a drain have passed; it goes on. -/
def execDrainSlow (part : Nat) (s : State) : Host.Outcome State Fault Refusal :=
  ok (partOk part) s
    (match (s.part part).stage with
     | .draining _ _ _ t0 => if s.time ≥ t0 + 100000000 then s.evt PROT_EVENT.DRAIN_SLOW 0 0 1 none else s
     | _ => s)

/-- A margin sweep runs on a target that the partition holds (R213). -/
def State.swept (s : State) (p : Nat) : Bool :=
  (List.range 4).any (fun h => Tbl.get 0 s.margin h != 0 &&
    (let x := s.fget HUB_MARGIN_CTL.TARGET h 0
     if s.fget HUB_MARGIN_CTL.TIER h 0 = 0 then decide (x < 192) && (s.partChans p).contains (192 * h + x)
     else decide (x < 1024) && (s.towerTiles p).contains (16 * h + x / 64)))

/-- LOAD_DRAIN_DONE (R337, R332, R213): the commit that waits is written; once it has taken effect, DRAINED reads 1 and no
sweep runs on the partition's targets, the weights' load begins; a retirement is complete. -/
def execLoadDrainDone (part : Nat) (s : State) : Host.Outcome State Fault Refusal :=
  ok (partOk part) s
    (match (s.part part).stage with
     | .loadDrain _ false => s.loadCommit part
     | .loadDrain retire true =>
       if !s.commitFree then s
       else if retire then s.onPart part (fun q => { q with stage := .none })
       else if s.swept part then s
       else
         ((s.setPartStatus part 3).fset BOOT_LOAD_BYTES.BYTES 0 0 0).onPart part (fun q => { q with stage := .loadWeights })
     | _ => s)

/-! Weights (R418, R337 step 4). -/

/-- Where the table of external blobs says that blob `i` lies, and its length (R418). -/
def State.extBlob (s : State) (i : Nat) : Nat × Nat :=
  let rd := s.hostImage (s.fget BOOT_BLOB_ADDR.ADDR 0 0 * 4096 + 16 * i)
  (imgNat rd 0 8, imgNat rd 8 8)

/-- A blob's external entry gives its length. -/
def State.blobLenOk (s : State) (b : List Nat) : Bool :=
  b.getD 1 0 == 0 || (s.extBlob (b.getD 2 0)).2 == b.getD 4 0

/-- A blob is written through its tile's load window; BOOT_LOAD_BYTES counts it. `rd`: the image. -/
def State.putBlob (s : State) (rd : Nat → Byte) (b : List Nat) : State :=
  let n := b.getD 4 0
  let bs := if b.getD 1 0 = 0 then imgBytes rd (b.getD 5 0) n else imgBytes (s.hostImage (s.extBlob (b.getD 2 0)).1) 0 n
  State.fset (s.store (t0At (b.getD 0 0) (b.getD 3 0)) bs false) BOOT_LOAD_BYTES.BYTES 0 0 (s.fget BOOT_LOAD_BYTES.BYTES 0 0 + n)

/-- The blobs of partition `p`'s image, in its order. -/
def State.partBlobs (s : State) (p : Nat) : List (List Nat) :=
  (s.img.blobs.filter (fun (k, _) => k / 65536 == p + 1)).map Prod.snd

/-- Every tile and channel of the partition that last belonged to another is zero. -/
def State.zeroForeign (s : State) (p : Nat) : State :=
  let other (k : Nat) : Bool := Tbl.get 0 s.owner k != 0 && Tbl.get 0 s.owner k != p + 1
  let s1 := ((s.towerTiles p).filter other).foldl (fun t j => t.zero (t0At j 0) t0Size) s
  ((s.partChans p).filter (fun c => other (64 + c))).foldl (fun t c => t.zero (t1At c 0) chanSize) s1

/-- LOAD_WEIGHTS_DONE (R337 steps 4 and 5, R338, R486): the first `n` blobs were read and matched. With all of them the
fields are sealed and the partition runs; otherwise it stays held. -/
def execLoadWeightsDone (part n : Nat) (s : State) : Host.Outcome State Fault Refusal :=
  ok (partOk part) s
    (match (s.part part).stage with
     | .loadWeights =>
       let rd := bytesRd (s.part part).load
       let bs := s.partBlobs part
       let good := (bs.take n).takeWhile s.blobLenOk
       let s1 := good.foldl (fun t b => t.putBlob rd b) (s.zeroForeign part)
       if good.length < bs.length then s1.applyFails 6 9 part
       else
         let s2 := (s1.withSealParts (setBit s1.sealParts part true))
         let s3 := ((((s2.keyFor part).markOwner part).restartAccts part).setPartStatus part 1).evt PROT_EVENT.LOAD_DONE 0 0 1 none
         State.onPart (s3.withMgmt { s3.mgmt with partMsg := Tbl.put [] s3.mgmt.partMsg part (imgMessage rd) }) part
           (fun q => { q with stage := .none, load := [], blobs := [] })
     | _ => s)

/-- A function-level reset reaches a partition (R297, R334, R338): without records, and it makes a load in its apply fail. -/
def State.flrPart (s : State) (p : Nat) : State :=
  match (s.part p).stage with
  | .none => if s.partStatus p = 0 then s else s.startReset p true false false
  | .draining _ _ _ _ => s.startReset p true false false
  | .loadDrain false _ | .loadWeights => s.applyFails 7 0 p
  | _ => s

end Sys2Proof.Machine
end

