-- ==== Sys2Proof/Machine/HostIf.lean ====
section
/-!
DEFINITION. The host ports (chapter 11): their links, configuration requests, the segment registers, function resets.
-/

namespace Sys2Proof.Machine

/-! Links (R283, R402). -/

/-- Lanes of a group of `w` at either end of the port are all good (R283, Table 16.2). -/
def State.lanesGood (s : State) (port w : Nat) : Bool :=
  let bad := s.fuses.hostBadLanes / 2 ^ (16 * port) % 2 ^ 16
  bad % 2 ^ w == 0 || bad / 2 ^ (16 - w) == 0

/-- The widest link that avoids the port's bad lanes; 0 where none does. -/
def State.hostWidth (s : State) (port : Nat) : Nat :=
  if s.lanesGood port 16 then 16 else if s.lanesGood port 8 then 8 else if s.lanesGood port 4 then 4 else 0

/-- The port may train (R402): VPCI and the VHUB rail of its hub are good, the lane map has been read, PERST# is
deasserted. -/
def State.hostTrains (s : State) (port : Nat) : Bool :=
  s.fbit PKG_PG.PG 0 0 27 && s.fbit PKG_PG.PG 0 0 (16 + 2 * port) && s.boot.ao && decide (s.fget BOOT_STATUS.PHASE 0 0 ≥ 3) &&
  !s.pkg.perst.getD port true

/-- HOST_LINK_TRAINING (R283, R402): the link comes up at the widest width that both sides have, 64 GT/s with a generation 6
partner, 32 GT/s with one of generation 5. -/
def execHostLinkTraining (port gen width : Nat) (s : State) : Host.Outcome State Fault Refusal :=
  ok (hostOk port && (gen == 5 || gen == 6) && (width == 4 || width == 8 || width == 16)) s
    (if !s.hostTrains port || s.hostWidth port == 0 then s
     else (s.withPkg { s.pkg with
        hostUp := s.pkg.hostUp.set port (min width (s.hostWidth port)), hostGen := s.pkg.hostGen.set port gen }))

/-- HOST_LINK_DOWN (R297): outstanding reads end as by completion timeout, LINK_DOWN is set; everything else runs on. -/
def execHostLinkDown (port : Nat) (s : State) : Host.Outcome State Fault Refusal :=
  ok (hostOk port) s
    (let s1 := (s.hostReads.filter (fun h => h.port == port)).foldl State.hostPoison s
     State.evt (s1.withPkg { s1.pkg with hostUp := s1.pkg.hostUp.set port 0, hostGen := s1.pkg.hostGen.set port 0 })
       HIF_EVENT.LINK_DOWN port 0 1 none)

/-- PERST_DEASSERT (R402): the port may train. -/
def execPerstDeassert (port : Nat) (s : State) : Host.Outcome State Fault Refusal :=
  ok (hostOk port) s (s.withPkg { s.pkg with perst := s.pkg.perst.set port false })

/-! Configuration (R284, R285, R402). -/

/-- What Table 11.1 gives a function (0 PF0, 1 PF1, 1 + k VF k): vendor, device, revision, class code, as configuration space
holds them. -/
def State.identity (s : State) (fn : Nat) : List Byte :=
  natLE 2 0x1D7A ++ natLE 2 ((if s.fget BOOT_GRADE.GRADE 0 0 = 0 then 0x6400 else 0x5600) + min fn 2) ++ natLE 1 2 ++
    natLE 3 (if fn = 1 then 0x088000 else 0x120000)

/-- The function answers configuration requests: a physical function, or a VF that is bound or enabled by NumVFs (R285). -/
def State.fnThere (s : State) (port fn : Nat) : Bool :=
  decide (fn < 2) || (s.vfPart (fn - 1)).isSome || decide (fn - 1 ≤ s.pkg.numVfs.getD port 0)

/-- CONFIG_REQUEST (R284, R285, R402): retried until phase 3 has ended; then the function's identity is read, after NumVFs,
if given, is written to PF0's SR-IOV capability. -/
def execConfigRequest (port fn : Nat) (numVfs : Option Nat) (s : State) : Host.Outcome State Fault Refusal :=
  ok (hostOk port && fnOk fn) s
    (if s.pkg.hostUp.getD port 0 = 0 then s
     else if !s.boot.mgmtUp then s.answer .retry []
     else if !s.fnThere port fn then s.answer .refused []
     else
       let s1 := match numVfs with
         | some n => if fn = 0 then (s.withPkg { s.pkg with numVfs := s.pkg.numVfs.set port (min n 16) }) else s
         | none => s
       s1.answer .ok (s1.identity fn))

/-! Segments (R290, R291). -/

/-- The base of a segment, in 4 GiB, is one of tier 1 or the landing base. -/
def segBaseOk (b : Nat) : Bool := (decide (0x100 ≤ b) && decide (b < 0x2B0)) || b == 0x300

/-- A segment write is refused. -/
def State.segRefused (s : State) (port : Nat) : State := s.evt HIF_EVENT.SEG_REFUSED port 0 1 none

/-- BAR4_SEG_WRITE (R291): PF0's own segment changes, if its base may be one. -/
def execBar4SegWrite (who : Accessor) (port k v : Nat) (s : State) : Host.Outcome State Fault Refusal :=
  ok (who.wf && hostOk port && decide (k < 16)) s
    (if !s.reaches who HIF_BAR4_SEG.VALID port k then s
     else if !segBaseOk (v / 2 ^ 32 % 2 ^ 12) then s.segRefused port
     else
       ((s.fset HIF_BAR4_SEG.VALID port k v).fset HIF_BAR4_SEG.PART port k (v / 2)).fset HIF_BAR4_SEG.BASE port k (v / 2 ^ 32))

/-- VF_SEG_WRITE (R291): only privileged PF0 and management move a VF's window. -/
def execVfSegWrite (who : Accessor) (port k v : Nat) (s : State) : Host.Outcome State Fault Refusal :=
  ok (who.wf && hostOk port && decide (1 ≤ k) && decide (k ≤ 16)) s
    (if !s.privileged who || !s.reaches who HIF_VF_SEG.VALID port k then s
     else if !segBaseOk (v / 2 ^ 32 % 2 ^ 12) then s.segRefused port
     else (s.fset HIF_VF_SEG.VALID port k v).fset HIF_VF_SEG.BASE port k (v / 2 ^ 32))

/-! Function resets (R297, R338, R423, R479). -/

/-- VF_FLR: a partition reset of the VF's partition, without records; bindings and segments stay. -/
def execVfFlr (k : Nat) (s : State) : Host.Outcome State Fault Refusal :=
  ok (decide (1 ≤ k) && decide (k ≤ 16)) s
    (match s.vfPart k with
     | some p => s.flrPart p
     | none => s)

/-- Image check or weight load runs. -/
def State.loadsNow (s : State) : Bool := s.fget BOOT_STATUS.PHASE 0 0 == 7 || s.fget BOOT_STATUS.WLOAD 0 0 == 1

/-- PF0_FLR of one port's PF0: PRIV and the port's BAR4 segments are cleared, and every partition without a bound VF is
reset; during image check or weight load the part enters HOLD (R423). PRIV is set again if PF0_PRIV says so, or in HOLD
(R479). -/
def execPf0Flr (port : Nat) (s : State) : Host.Outcome State Fault Refusal :=
  ok (hostOk port) s
    (let s1 := (List.range 16).foldl (fun t k =>
       ((t.fset HIF_BAR4_SEG.VALID port k 0).fset HIF_BAR4_SEG.PART port k 0).fset HIF_BAR4_SEG.BASE port k 0)
       (s.setPriv1 port 0 3)
     let s2 := ((List.range 16).filter (fun p => (s.boundVf p).isNone)).foldl State.flrPart s1
     if s.loadsNow then s2.enterHold 0x0D
     else if s.fget MGMT_POLICY.PF0_PRIV 0 0 = 1 ∨ s.fget BOOT_STATUS.PHASE 0 0 = 15 then s2.setPriv1 port 1 3 else s2)

/-- PF1_FLR: function state only: its held register halves, and its MSI-X table. -/
def execPf1Flr (port : Nat) (s : State) : Host.Outcome State Fault Refusal :=
  ok (hostOk port) s
    (((s.withHalfW (Tbl.put (0, 0) s.halfW (accCode (.pf1 port)) (0, 0))).withHalfR (Tbl.put (0, 0) s.halfR (accCode (.pf1 port)) (0, 0))).withMsix (s.msix.clearRange (msixKey port 1 0) 4096))

end Sys2Proof.Machine
end

