-- ==== Sys2Proof/Machine/Boot.lean ====
section
/-!
DEFINITION. From power to ready (chapter 16): the phases of bring-up, part reset, the topology check, HOLD's exits.
-/

namespace Sys2Proof.Machine

/-! Phases. -/

/-- BOOT_STATUS.PHASE. -/
def State.phase (s : State) : Nat := s.fget BOOT_STATUS.PHASE 0 0

/-- The phase shown, standing from now on. -/
def State.toPhase (s : State) (n : Nat) : State :=
  let s1 := s.fset BOOT_STATUS.PHASE 0 0 n
  (s1.withBoot { s1.boot with phaseAt := s1.time })

/-- VAON_VALID (R400, R491): bring-up begins; a count that was lost restarts from 0 and is recorded. -/
def execVaonValid (s : State) : Host.Outcome State Fault Refusal :=
  ok true s
    (if s.boot.vaon then s
     else
       let s1 := State.toPhase (s.withBoot { s.boot with vaon := true }) 1
       if s.mgmt.calLost then
         State.mgmtRec (State.fset (((s1.withCalendar 0).withCalPhase 0).withMgmt { s1.mgmt with calLost := false, oscStopped := false })
           RTC_CTL.TIME_INVALID 0 0 1) 2 0 0
       else s1)

/-- ALWAYS_ON_START (R400): phase 1 ends. -/
def execAlwaysOnStart (s : State) : Host.Outcome State Fault Refusal :=
  ok true s
    (if s.boot.vaon && !s.boot.ao && s.phase == 1 then
      State.toPhase (s.withBoot { s.boot with ao := true, aoAt := s.time }) 2
     else s)

/-! Part reset (R403). -/

/-- The registers that a part reset leaves: those that another, wider reset owns, and PF0's segments (R298). -/
def State.keptRegs (s : State) : Tbl Nat :=
  s.regs.filter (fun (k, _) => match regAt (k / 64) with
    | some (d, _, _) => d.owner == .vaon || d.owner == .vbat || d.owner == .flrPf0
    | none => false)

/-- A host read that a channel holds ends with Completer Abort. -/
def State.abortHost (s : State) : Resp :=
  if s.chans.any (fun (_, h) => h.held.any (fun x => !x.write && (match x.rq.src with
      | .host _ _ => true
      | _ => false))) then ⟨.abort, []⟩ else s.rsp

/-- A part reset: everything in the part and transit domains is as at reset, but for what R403 keeps; it runs phase 2 next, and
then phase 4 onward. One that meets a running one is merged. Memory keeps its bytes until phase 5 writes them. The timebase
starts again at 0, and with it what the kept parts measure from it. -/
def State.partReset (s : State) : State :=
  if s.boot.inReset || !s.boot.vaon then s
  else
    let t : State := (((((((((((((State.reset.withCalendar s.calendar).withCalPhase s.calPhase).withFree s.free).withRegs s.keptRegs).withMem s.mem).withChk s.chk).withRsp s.abortHost).withMsix s.msix).withHostTag s.hostTag).withFuses s.fuses).withBoot { s.boot with
        aoAt := 0, inReset := true, warm := true, restarting := false, memDone := false, phaseAt := 0, blobs := []
        loaded := false, accept := false }).withPkg { s.pkg with
        readyAt := none, enAt := 0, down := s.pkg.down.map (fun (st, _) => (st, 0)), off := false, segBad := 0, alert := false, railAt := [] }).withMgmt { s.mgmt with keys := [], partMsg := [] })
    (((t.toPhase 2).fset BOOT_STATUS.CAUSE 0 0 0).fset BOOT_STATUS.SECTION 0 0 0).fset BOOT_STATUS.WLOAD 0 0 0

/-- What a write of BOOT_CTL by an accessor may do (R424). -/
def State.bootCtl (s : State) (who : Accessor) : Bool := s.privileged who && s.reaches who BOOT_CTL.LOAD 0 0

/-- BOOT_RESTART (R403): host software or management starts a part reset. -/
def execBootRestart (who : Accessor) (s : State) : Host.Outcome State Fault Refusal :=
  ok who.wf s (if s.bootCtl who then s.partReset else s)

/-! Fuses (R404 to R407). -/

/-- A repair entry's fields. -/
def repKind (e : Nat) : Nat := e % 4
/-- TILE. -/
def repTile (e : Nat) : Nat := e / 4 % 64
/-- What a repair entry uses: the repair group, or the spare row. -/
def repUse (e : Nat) : Nat × Nat × Nat × Nat × Nat :=
  if repKind e = 1 then (1, repTile e, e / 256 % 64, e / 2 ^ 14 % 8, 0)
  else (2, repTile e, e / 256 % 64, e / 2 ^ 14 % 4 * 16 + e / 2 ^ 16 % 16, e / 2 ^ 31 % 32)

/-- The entries up to the end of the list. -/
def repList (l : List Nat) : List Nat := l.takeWhile (fun e => repKind e != 0)

/-- The tiles lost to repairs that share a repair group or a spare row (R405). -/
def doubleTiles (l : List Nat) : List Nat :=
  ((pairs (l.filter (fun e => repKind e != 3))).filter (fun (a, b) => repUse a == repUse b)).map (fun (a, _) => repTile a)

/-- The tiles with a pillar whose failed connections exceed its repairs: two in one repair group (R193). -/
def badPillars (l : List Nat) : List Nat := doubleTiles (l.filter (fun e => repKind e == 1))

/-- The extension table's entries that are applied: none reuses what the fuses use (R406). -/
def Fuses.extList (f : Fuses) : List Nat :=
  if f.extCrcOk then
    f.ext.filter (fun e => repKind e == 3 || (repKind e != 0 && !(repList f.repairs).any (fun r => repUse r == repUse e)))
  else []

/-- The tiles retired by the extension table or lost to double repairs. -/
def Fuses.lostTiles (f : Fuses) : List Nat :=
  (f.extList.filter (fun e => repKind e == 3)).map repTile ++ doubleTiles (repList f.repairs ++ f.extList)

/-- Bits of a mask without those listed. -/
def without (m : Nat) (js : List Nat) : Nat := js.foldl (fun a j => setBit a j false) m

/-- The fused fields of one array of a tile (Table 2.13). -/
def State.arrayFuse (s : State) (j a : Nat) : State :=
  let v := Tbl.get 0 s.fuses.arrayRepair (4 * j + a)
  [TILE_ARRAY_REPAIR.ROW0, TILE_ARRAY_REPAIR.ROW0_EN, TILE_ARRAY_REPAIR.ROW1, TILE_ARRAY_REPAIR.ROW1_EN,
    TILE_ARRAY_REPAIR.COL0, TILE_ARRAY_REPAIR.COL0_EN, TILE_ARRAY_REPAIR.COL1, TILE_ARRAY_REPAIR.COL1_EN].foldl
      (fun t f => t.fset f j a (v / 2 ^ f.lo)) s

/-- Spare rows that an array's repairs use (R34). -/
def State.spareRows (s : State) (j a : Nat) : Nat :=
  let v := Tbl.get 0 s.fuses.arrayRepair (4 * j + a)
  bit (v.testBit 7) + bit (v.testBit 15)

/-- TILE_ARRAY_LAT of a tile: each array's figure and each gang's, the largest of its arrays (R48, R49). -/
def State.latFuse (s : State) (j : Nat) : State :=
  let x := s.spareRows j
  let lo := max (x 0) (x 1)
  let hi := max (x 2) (x 3)
  [(TILE_ARRAY_LAT.A0_EXTRA, x 0), (TILE_ARRAY_LAT.A1_EXTRA, x 1), (TILE_ARRAY_LAT.A2_EXTRA, x 2),
    (TILE_ARRAY_LAT.A3_EXTRA, x 3), (TILE_ARRAY_LAT.PAIR01, lo), (TILE_ARRAY_LAT.PAIR23, hi),
    (TILE_ARRAY_LAT.WHOLE, max lo hi)].foldl (fun t (f, v) => t.fset f j 0 v) s

/-- Every field whose Reset is "fuse" is loaded (R14, R407), and HUB_T0_OOS takes the tiles with a pillar beyond repair (R193). -/
def State.loadFuses (s : State) : State :=
  let f := s.fuses
  let all := 2 ^ 64 - 1 - f.disabled % 2 ^ 64
  let s0 := (List.range 64).foldl (fun t j => (List.range 4).foldl (fun u a => u.arrayFuse j a) (t.latFuse j)) s
  let s1 := (badPillars (repList f.repairs ++ f.extList)).foldl (fun t j =>
    t.fbitSet HUB_T0_OOS.TILES (j / 16) 0 (j % 16) true) s0
  ((((s1.fset BOOT_GRADE.GRADE 0 0 f.grade).fset BOOT_GRADE.STEPPING 0 0 f.stepping).fset BOOT_FUSE_TILES.TILES 0 0 all).fset
    BOOT_TILES.TILES 0 0 (without all f.lostTiles)).fset BOOT_STATUS.FUSE_EXT_BAD 0 0 (bit (!f.extCrcOk))

/-- FUSE_READ (R400, R404): the block's CRC is checked, and its fields are loaded; phase 3 follows, or, in a part reset with
the rails up, phase 4. -/
def execFuseRead (s : State) : Host.Outcome State Fault Refusal :=
  ok true s
    (if !(s.boot.ao && s.phase == 2) || (s.boot.warm && s.fget PKG_SEQ.STAGE 0 0 != 4) then s
     else if !s.fuses.crcOk then s.enterHold 0x02
     else State.toPhase (s.loadFuses.withMgmt { s.mgmt with extApplied := s.fuses.extList }) (if s.boot.warm then 4 else 3))

/-! Management boot (R475, R477, R479, R487). -/

/-- SECURE_BOOT (R475): with the rails good the ROM boots the slot named next, or the other; with neither, the part enters HOLD
and the recovery firmware answers. A restart of management alone is followed by a part reset (R477). -/
def execSecureBoot (slotOk otherOk : Bool) (s : State) : Host.Outcome State Fault Refusal :=
  ok true s
    (if s.phase ≠ 3 ∨ s.fget PKG_SEQ.STAGE 0 0 ≠ 4 then s
     else if !slotOk && !otherOk then (s.fset MGMT_STATUS.RECOVERY 0 0 1).enterHold 0x03
     else
       let next := s.fget MGMT_STATUS.NEXT_SLOT 0 0
       let run := if slotOk then next else 1 - next
       let s1 := (((s.fset MGMT_STATUS.RUN_SLOT 0 0 run).fset MGMT_STATUS.RECOVERY 0 0 0).fset SEC_RNG_STATUS.VALID 0 0 1).fset
         SEC_RNG_STATUS.FAILED_TEST 0 0 0
       let s2 := (List.range 8).foldl (fun t k => t.fsetAt SEC_KEY_STATUS.SLOT0 0 0 (2 * k) (s.mgmt.keySlots.getD k 0)) s1
       let s3 := State.mgmtRec (s2.withBoot { s2.boot with mgmtUp := true, restarting := false }) 0 run (bit (!slotOk))
       let s4 := s3.setPriv 1 0
       if s.boot.restarting then s4.partReset else s4.toPhase 4)

/-! Self-test (R278, R408, Tables 10.10, 16.4). -/

/-- The hub of such a unit. -/
def unitHub (u : Nat × Nat) : Nat :=
  match u.1 with
  | 1 | 6 => u.2 / 192
  | 4 | 7 => u.2
  | _ => u.2 / 16

/-- A channel is marked out of service. -/
def State.markChan (s : State) (f : Field) (c : Nat) : State := s.fbitSet f (c / 192) (c % 192 / 32) (c % 32) true

/-- A tile is usable no longer. -/
def State.loseTile (s : State) (j : Nat) : State := s.fbitSet BOOT_TILES.TILES 0 0 j false

/-- A tile's tier 0 is out of service. -/
def State.markT0 (s : State) (j : Nat) : State := (s.fbitSet HUB_T0_OOS.TILES (j / 16) 0 (j % 16) true).loseTile j

/-- What the failure of a unit does; checkers are recorded, their kind and index packed as a free value. -/
def State.unitFails (s : State) (quick : Bool) (u : Nat × Nat) : State :=
  let note (t : State) : State := t.draw.record (unitHub u)
    { cause := 0x0D, sev := 3, src := 13, unit := u.2, pos := 0xFFFF, info0 := leNat (t.freeBytes 8) }
  match u.1 with
  | 0 => note (s.markT0 u.2)
  | 1 => note (s.markChan HUB_CHAN_OOS.OOS u.2)
  | 2 => note (s.fbitSet ERR_SELFTEST.LLM_SLICES (u.2 / 16) 0 (u.2 % 16) true)
  | 3 => note ((s.fbitSet ERR_SELFTEST.WS_TILES (u.2 / 16) 0 (u.2 % 16) true).loseTile u.2)
  | 4 => note (s.fset ERR_CTL.FORCE_RMW u.2 0 1)
  | 5 => s.loseTile u.2
  | 6 => if quick then s else s.markChan THAPEL_OOS.OOS u.2
  | _ => s

/-- SELF_TEST (R408): the quick test runs after a part reset with QUICK; a failed hub engine, mesh or transit path is HOLD. -/
def execSelfTest (res : List (Nat × Nat)) (s : State) : Host.Outcome State Fault Refusal :=
  ok (res.all unitOk) s
    (if s.phase ≠ 4 then s
     else
       let quick := s.boot.warm && s.fget BOOT_CTL.QUICK 0 0 == 1
       let s1 := res.foldl (fun t u => t.unitFails quick u) (s.fset BOOT_STATUS.QUICK 0 0 (bit quick))
       if res.any (fun u => u.1 == 7) then s1.enterHold 0x04 else s1.toPhase 5)

/-! Memory training (R212, R409, R410). -/

/-- The saved record of a target is used: COLD is 0 and its version is the running firmware's. -/
def State.recordOk (s : State) (k : Nat) : Bool :=
  s.fget BOOT_CTL.COLD 0 0 == 0 &&
  Tbl.get 0 s.boot.saved k == s.mgmt.slotVer.getD (s.fget MGMT_STATUS.RUN_SLOT 0 0) 0 + 1

/-- The records of targets are written to the boot flash, a link's with the taps it runs with (R344). -/
def State.saveRecords (s : State) (ks : List Nat) : State :=
  let v := s.mgmt.slotVer.getD (s.fget MGMT_STATUS.RUN_SLOT 0 0) 0 + 1
  (s.withBoot { s.boot with
    saved := ks.foldl (fun t k => Tbl.put 0 t k v) s.boot.saved
    savedTaps := (ks.filter (2048 ≤ ·)).foldl (fun t k => Tbl.put [] t (k - 2048) (s.port (k - 2048)).savedTaps) s.boot.savedTaps })

/-- The channels in service and the usable tiles, by the numbers of their records. -/
def State.trainedMem (s : State) : List Nat :=
  (List.range 768).filter (fun c => !s.chanOos c) ++ ((List.range 64).filter s.tileUsable).map (1024 + ·)

/-- A place is one that phase 5 writes: tier 0 of a usable tile, an in-service channel, last-level memory (R410); beyond the
hosts' memory, the words of tables and semaphores. -/
def State.inited (s : State) (k : Nat) : Bool :=
  if k < 2 ^ 39 then s.tileUsable (k / 2 ^ 33)
  else if k < 2 ^ 40 then false
  else if k < 0x30000000000 then !s.chanOos ((k - 2 ^ 40) / chanSize)
  else decide (k < 2 ^ 64) || decide (2 ^ 70 ≤ k)

/-- Clean zero words over all that phase 5 writes. -/
def State.memInit (s : State) : State :=
  ((((s.withMem (s.mem.drop (fun k _ => s.inited k))).withChk (s.chk.drop (fun k _ => s.inited k))).withWbq []).withMerge [])

/-- MEMORY_TRAINING (R409, R410): targets that did not train are out of service, memory is zero, records of targets trained
cold are saved; the image wait follows, or an armed load. `warm`: every saved setting passed its check. -/
def execMemoryTraining (badChans badTiles : List Nat) (warm fatal : Bool) (s : State) : Host.Outcome State Fault Refusal :=
  ok (badChans.all chanOk && badTiles.all tileOk) s
    (if s.phase ≠ 5 then s
     else if fatal then s.enterHold 0x05
     else
       let s1 := badTiles.foldl State.markT0 (badChans.foldl (fun t c => t.markChan HUB_CHAN_OOS.OOS c) s)
       let ks := s1.trainedMem
       let s2 := (s1.memInit.fset BOOT_STATUS.MEM_WARM 0 0 (bit (warm && ks.all s.recordOk))).saveRecords ks
       let s3 := s2.toPhase (if s.fget BOOT_STATUS.IMAGE_ARMED 0 0 = 1 then 7 else 6)
       (s3.withBoot { s3.boot with memDone := true, inReset := false }))

/-! The image (R411, R417, R419). -/

/-- BOOT_LOAD (R411, R422): arms the load from phase 3 on; it starts at once in phase 6, and in HOLD where the cause lets it
resume. -/
def execBootLoad (who : Accessor) (s : State) : Host.Outcome State Fault Refusal :=
  ok who.wf s
    (if !s.bootCtl who || decide (s.phase < 3) then s
     else
       let armed := s.fset BOOT_STATUS.IMAGE_ARMED 0 0 1
       let cause := s.fget BOOT_STATUS.CAUSE 0 0
       if s.phase = 15 then
         (if s.boot.memDone && decide (6 ≤ cause) && decide (cause ≤ 9) then
           (armed.fset BOOT_STATUS.CAUSE 0 0 0).toPhase 7 else s)
       else if s.phase = 6 then armed.toPhase 7 else armed)

/-- The HOLD cause of an image check's RESULT (Table 16.9). -/
def holdOf (result : Nat) : Nat := if result = 2 then 6 else if result = 3 then 7 else 8

/-- The blobs of the whole-part image. -/
def State.wholeBlobs (s : State) : List (Nat × List Nat) := s.img.blobs.filter (fun (k, _) => k < 65536)

/-- A whole-part image is in force: PRIV follows its policy, the ports it enables train, and weight load begins. -/
def State.afterImage (s : State) : State :=
  let s1 := s.setPriv (s.fget MGMT_POLICY.PF0_PRIV 0 0) 0
  let s2 := (List.range 16).foldl (fun t p => (t.onPort p (fun q => if s.recordOk (2048 + p) then
    { q with settings := true, savedTaps := Tbl.get [] s.boot.savedTaps p } else { q with settings := false })).portStart p) s1
  let s3 := ((s2.fset BOOT_STATUS.WLOAD 0 0 (bit (s.wholeBlobs != []))).fset BOOT_LOAD_BYTES.BYTES 0 0 0).fset
    BOOT_STATUS.SECTION 0 0 0
  State.toPhase (s3.withBoot { s3.boot with blobs := [], loaded := s.wholeBlobs == [], accept := false }) 8

/-- IMAGE_CHECK (R417): the whole-part image is checked as Table 16.9 orders; accepted and sealed, or HOLD. -/
def execImageCheck (ver : Verdict) (s : State) : Host.Outcome State Fault Refusal :=
  ok true s
    (if s.phase ≠ 7 then s
     else if s.pkg.hostUp.all (· == 0) then s.enterHold 7
     else
       let rd := s.hostImage (s.fget BOOT_IMAGE_ADDR.ADDR 0 0 * 4096)
       match s.checkWhole rd ver with
       | .fail r x => (s.fset BOOT_STATUS.SECTION 0 0 x).enterHold (holdOf r)
       | .pass is => (s.acceptWhole rd is).afterImage)

/-! Links and the topology check (R419, R420). -/

/-- The ports that the image enables. -/
def State.enabledPorts (s : State) : List Nat := (List.range 16).filter (fun p => s.fget FAB_PORT_CTL.EN 0 p == 1)

/-- LINK_TRAINING_PHASE (R419): phase 8 ends when every enabled port is up, after 800 ms, or after 150 ms where every port had a
record; the cruise begins. -/
def execLinkTrainingPhase (s : State) : Host.Outcome State Fault Refusal :=
  ok true s
    (let ps := s.enabledPorts
     let done := ps.all s.linkUp || decide (s.time ≥ s.boot.phaseAt + 800000000) ||
       (decide (s.time ≥ s.boot.phaseAt + 150000000) && ps.all (fun p => s.recordOk (2048 + p)))
     if s.phase ≠ 8 ∨ done = false then s
     else ((s.saveRecords ((ps.filter s.linkUp).map (2048 + ·))).toPhase 9).cruiseStart.walk)

/-- A port passes the topology check: authenticated, and as wide as MIN_WIDTH asks. -/
def State.portPasses (s : State) (p : Nat) : Bool :=
  s.pst p == 8 && decide (s.fget FAB_PORT_STATUS.WIDTH 0 p ≥ s.fget FAB_PORT_EXPECT.MIN_WIDTH 0 p + 1)

/-- Probed entries without a PROBE_OK bit. -/
def State.unprobed (s : State) : Nat :=
  ((List.range 256).filter (fun i => (s.member i).valid && !(s.member i).own && s.fget FAB_MBR_TBL.PROBE_OK 0 i == 0)).length +
  (if s.fget FAB_CRUISE_CTL.GROUP_PROBE 0 0 = 0 then 0
   else ((List.range 4096).filter (fun i => (s.group i).valid && !(s.group i).own && s.fget FAB_GRP_TBL.PROBE_OK 0 i == 0)).length)

/-- The topology result (Table 16.10): 1 READY, 2 READY-DEGRADED, 3 FABRIC-HOLD. -/
def topoResult (required : Bool) (opt allowed unprobed narrow : Nat) (routes : Bool) : Nat :=
  if required || decide (opt > allowed) || (routes && unprobed != 0) then 3
  else if opt = 0 ∧ narrow = 0 ∧ unprobed = 0 then 1 else 2

/-- The topology check (R420): its results are recorded; FABRIC-HOLD, or the check's phase until the weights are there. -/
def State.topology (s : State) : State :=
  let ps := s.enabledPorts
  let failed := ps.filter (fun p => !s.portPasses p)
  let narrow := ps.filter (fun p => s.portPasses p && decide (s.fget FAB_PORT_STATUS.WIDTH 0 p < 3))
  let opt := (failed.filter (fun p => s.fget FAB_PORT_EXPECT.REQUIRED 0 p == 0)).length
  let r := topoResult (failed.any (fun p => s.fget FAB_PORT_EXPECT.REQUIRED 0 p == 1)) opt
    (s.fget BOOT_TOPO_CTL.MISSING_ALLOWED 0 0) s.unprobed narrow.length (s.fget BOOT_TOPO_CTL.ROUTES_REQUIRED 0 0 == 1)
  ((((((s.fset BOOT_TOPO.FAILED 0 0 (maskOf failed)).fset BOOT_TOPO.NARROW 0 0 (maskOf narrow)).fset BOOT_TOPO2.RESULT 0 0 r).fset
    BOOT_TOPO2.OPT_FAILED 0 0 opt).fset BOOT_TOPO2.UNPROBED 0 0 (min 255 s.unprobed))).toPhase (if r = 3 then 14 else 11)

/-- CRUISE_END (R369, R420): every probe is answered, at start-up with every link's authentication settled, or LIMIT_MS has
passed; the start-up cruise is followed by the topology check. -/
def execCruiseEnd (s : State) : Host.Outcome State Fault Refusal :=
  ok true s
    (match s.cruiseAt with
     | none => s
     | some t0 =>
       let settled := s.phase != 9 || decide (s.time ≥ t0 + 2000000000) || !(List.range 16).any (fun p => s.pst p == 7)
       if !(settled && s.probes.all (·.answered)) && decide (s.time < t0 + s.fget FAB_CRUISE_CTL.LIMIT_MS 0 0 * 1000000) then s
       else
         let s1 := ((s.fset FAB_CRUISE_STATUS.RUNNING 0 0 0).fset FAB_CRUISE_STATUS.DONE 0 0 1).evt FAB_EVENT.CRUISE_DONE 0 0 1 none
         let s2 := State.record ((s1.withCruiseAt none).withProbes []) 0
           { cause := 0x6F, sev := 4, src := 5, pos := 0xFFFF, info0 := s.probes.length
             info1 := (s.probes.filter (·.answered)).length }
         if s.phase = 9 then s2.topology else s2)

/-! Weight load and READY (R418, R421). -/

/-- WEIGHT_LOAD_BLOB (R418): a blob that has been read and matched is written; one that has not is HOLD with cause WEIGHTS. -/
def execWeightLoadBlob (idx : Nat) (ok' : Bool) (s : State) : Host.Outcome State Fault Refusal :=
  ok true s
    (match s.wholeBlobs.find? (fun x => x.1 == idx) with
     | none => s
     | some (_, b) =>
       if s.fget BOOT_STATUS.WLOAD 0 0 = 0 ∨ s.boot.blobs.contains idx = true then s
       else if !ok' || !s.blobLenOk b then s.enterHold 0x09
       else
         let s1 := s.putBlob (s.hostImage (s.fget BOOT_IMAGE_ADDR.ADDR 0 0 * 4096)) b
         let done := s.boot.blobs ++ [idx]
         let all := done.length == s.wholeBlobs.length
         State.fset (s1.withBoot { s1.boot with blobs := done, loaded := all }) BOOT_STATUS.WLOAD 0 0 (bit (!all)))

/-- READY or READY-DEGRADED is entered: forwarding is enabled, and every partition that holds a tower runs. -/
def State.ready (s : State) (n : Nat) : State :=
  let s1 := (s.toPhase n).fset FAB_CTL.FWD_EN 0 0 1
  (((List.range 16).filter (fun p => (List.range 16).any (fun t => s.towerPart t == some p))).foldl
    (fun t p => t.setPartStatus p 1) s1).relive.barTry

/-- READY_ENTRY (R421): the weights are loaded and the topology result is there, or a FABRIC-HOLD has been accepted. -/
def execReadyEntry (s : State) : Host.Outcome State Fault Refusal :=
  ok true s
    (if !s.boot.loaded then s
     else if s.phase = 11 then s.ready (if s.fget BOOT_TOPO2.RESULT 0 0 = 1 then 12 else 13)
     else if s.phase = 14 ∧ s.boot.accept = true then s.ready 13
     else s)

/-- BOOT_ACCEPT (R421, R423): FABRIC-HOLD is accepted; before weight load ends the accept is held. -/
def execBootAccept (who : Accessor) (s : State) : Host.Outcome State Fault Refusal :=
  ok who.wf s
    (if !s.bootCtl who || s.phase != 14 then s
     else if s.boot.loaded then s.ready 13
     else (s.withBoot { s.boot with accept := true }))

/-- BOOT_ABORT (R421): FABRIC-HOLD ends in HOLD. -/
def execBootAbort (who : Accessor) (s : State) : Host.Outcome State Fault Refusal :=
  ok who.wf s (if s.bootCtl who && s.phase == 14 then s.enterHold 0x0A else s)

/-- BOOT_SAVE (R409): the records of every target that is trained now are rewritten. -/
def execBootSave (who : Accessor) (s : State) : Host.Outcome State Fault Refusal :=
  ok who.wf s
    (if s.bootCtl who then
      s.saveRecords ((if s.boot.memDone then s.trainedMem else []) ++ ((List.range 16).filter s.linkUp).map (2048 + ·))
     else s)

end Sys2Proof.Machine
end

