-- ==== Sys2Proof/Machine/Thermal.lean ====
section
/-!
DEFINITION. Sensors, hot spots, thresholds, bands and the trip (chapter 17, R209, R211). Temperatures are integers in units
of 1/16 °C.
-/

namespace Sys2Proof.Machine

/-! Numbers. -/

/-- A temperature as its 16-bit register field holds it (R449). -/
def tempBits (x : Int) : Nat := (x % 65536).toNat

/-- The temperature that a 16-bit field holds. -/
def tempOf (v : Nat) : Int := if v % 65536 ≥ 32768 then (v % 65536 : Int) - 65536 else v % 65536

/-- The largest of a list of temperatures, if it has one. -/
def hottest : List Int → Option Int
  | [] => none
  | x :: xs => match hottest xs with
    | none => some x
    | some y => some (max x y)

/-! Places (R425, Table 17.1). Domains: 0 to 15 tile die of a tower, 16 to 19 hub, 20 to 35 bonded layers of a tower, 36 to
59 stack. -/

/-- The domain of hot spot `k`. -/
def spotDomain (k : Nat) : Nat :=
  if k < 288 then (if k % 18 < 12 then k / 18 else 20 + k / 18)
  else if k < 304 then 16 + (k - 288) / 4
  else 36 + (k - 304) / 3

/-- The hot spots of a domain. -/
def domainSpots (d : Nat) : List Nat :=
  if d < 16 then (List.range 12).map (18 * d + ·)
  else if d < 20 then (List.range 4).map (288 + 4 * (d - 16) + ·)
  else if d < 36 then (List.range 6).map (18 * (d - 20) + 12 + ·)
  else (List.range 3).map (304 + 3 * (d - 36) + ·)

/-- The hot spots on the die of hot spot `k`: a tile die, one bonded layer, a hub die, one DRAM die. -/
def dieSpots (k : Nat) : List Nat :=
  if k < 288 then
    (if k % 18 < 12 then domainSpots (k / 18) else (List.range 2).map (k - k % 2 + ·))
  else if k < 304 then domainSpots (spotDomain k)
  else [k]

/-- The kind of a domain as PWR_TRIP.CAUSE names it: 1 logic, 2 bonded layers, 3 stacks. -/
def domainKind (d : Nat) : Nat := if d < 20 then 1 else if d < 36 then 2 else 3

/-- Warning threshold (Table 17.2). -/
def warnAt (d : Nat) : Int := if domainKind d = 1 then 95 * 16 else 85 * 16
/-- Throttle threshold. -/
def throttleAt (d : Nat) : Int := if domainKind d = 1 then 102 * 16 else 95 * 16
/-- Shutdown threshold. -/
def shutdownAt (d : Nat) : Int := if domainKind d = 1 then 115 * 16 else 105 * 16
/-- Hysteresis. -/
def hysteresis (d : Nat) : Int := if domainKind d = 1 then 5 * 16 else 3 * 16

/-- The towers that a domain's throttle acts on. -/
def throttleTowers (d : Nat) : List Nat :=
  if d < 16 then [d] else if d < 20 then (List.range 4).map (4 * (d - 16) + ·) else if d < 36 then [d - 20] else []

/-- The stacks that a domain's throttle acts on. -/
def throttleStacks (d : Nat) : List Nat :=
  if 16 ≤ d ∧ d < 20 then (List.range 6).map (6 * (d - 16) + ·) else if 36 ≤ d then [d - 36] else []

/-! State. -/

/-- The state with the power manager's part changed. -/
def State.onPower (s : State) (f : Power → Power) : State := { s with power := f s.power }

/-- A sensor as last sampled. -/
def State.sensor (s : State) (n : Nat) : Sensor := Tbl.get {} s.power.sensors n

/-- A hot spot as last resolved. -/
def State.spot (s : State) (k : Nat) : Spot := Tbl.get {} s.power.spots k

/-- The value reported for a domain: the maximum of its hot spots (R427). -/
def State.domainTemp (s : State) (d : Nat) : Int := (hottest ((domainSpots d).map (fun k => (s.spot k).value))).getD 0

/-- The sensor that governs a hot spot. -/
def State.spotSensor (s : State) (k : Nat) : Nat :=
  let a := s.sensor (2 * k)
  let b := s.sensor (2 * k + 1)
  if a.ignored || (!b.ignored && decide (b.temp > a.temp)) then 2 * k + 1 else 2 * k

/-- THERM_ALERT_N follows its conditions (R442). -/
def State.alert (s : State) : State :=
  let w := s.power
  (s.withPkg { s.pkg with
      alert := w.warned != [] || w.cooling || w.flowLow || w.flowStop || w.inletLost || w.rateTrip })

/-- A record of the power manager in hub 0's queue (R447). -/
def State.powerRec (s : State) (cause sev unit i0 i1 : Nat) : State :=
  s.record 0 { cause := cause, sev := sev, unit := unit, pos := 0xFFFF, info0 := i0, info1 := i1 }

/-- A record of a domain: how INFO0 codes the domain is not stated, so it is drawn (assumption 4). -/
def State.domainRec (s : State) (cause sev sensor : Nat) (temp : Int) : State :=
  (s.draw).powerRec cause sev sensor (leNat (s.freeBytes 8)) (tempBits temp)

/-! Towers: DUTY and clocks. -/

/-- DUTY of a tower throttle: 7 acts as 6 (Table 17.13). -/
def State.throttleDuty (s : State) : Nat := min 6 (s.fget PWR_THR_CTL.DUTY 0 0)

/-- The largest DUTY asked for on a tower (R430): its throttle, the over-cap response, the rate trip. -/
def State.wantDuty (s : State) (t : Nat) : Nat :=
  let a := if s.fget PWR_TOWER_CLK.THROTTLED 0 t = 1 then s.throttleDuty else 0
  max (max a (Tbl.get 0 s.power.duty t)) (if s.power.rateTrip then 6 else 0)

/-- The manager writes DUTY and TRIP of a tower's tiles. -/
def State.writeDuty (s : State) (t : Nat) : State :=
  (List.range 4).foldl (fun u i =>
    (u.fset TILE_THROTTLE.DUTY (4 * t + i) 0 (s.wantDuty t)).fset TILE_THROTTLE.TRIP (4 * t + i) 0 (bit s.power.rateTrip)) s

/-- Ten-fold mV of a fuse point of VF_TOWER: 0 at 1.0 GHz, 1 at 1.30 GHz, 2 at 1.50 GHz (Table 16.2). -/
def State.vfPoint (s : State) (t i : Nat) : Nat := 6000 + 25 * Tbl.get 0 s.fuses.vfTower (3 * t + i)

/-- `v` on the line from `a` to `b` at `k` of `n` steps, sixty-fold. -/
def along (a b k n : Nat) : Int := 60 * (a : Int) + ((b : Int) - a) * k * (60 / n)

/-- The voltage in mV for a tower's clock of `n` steps above 0.50 GHz (R434). -/
def State.voltage (s : State) (t n : Nat) : Nat :=
  let p := s.vfPoint t
  let v : Int :=
    if n ≤ 10 then along 6000 (p 0) n 10
    else if n ≤ 16 then along (p 0) (p 1) (n - 10) 6
    else along (p 1) (p 2) (n - 16) 4
  let w := (max v (60 * 6000)).toNat + 600 * s.fget PWR_THR_CTL.VGUARD_MV 0 0
  min 850 ((w + 599) / 600)

/-- A tower's clock target takes a value; for a rise the voltage is raised first, and settles after 50 µs at the earliest
(R434). -/
def State.setTarget (s : State) (t n : Nat) : State :=
  let old := s.fget PWR_TOWER_CLK.TARGET 0 t
  let s1 := s.fset PWR_TOWER_CLK.TARGET 0 t n
  if n ≤ old then s1
  else
    let s2 := if s.fget PWR_TOWER_CLK.VT_MV 0 t < s.voltage t n then s1.fset PWR_TOWER_CLK.VT_MV 0 t (s.voltage t n) else s1
    s2.onPower (fun w => { w with
      raisedAt := Tbl.put 0 w.raisedAt t s.time
      settleAt := Tbl.put none w.settleAt t (some (s.time + 50000)) })

/-! Stacks: caps and the deliverable rate (R211, R431, R435). -/

/-- The band rate of a stack in GB/s (Table 7.5). -/
def bandRate (b : Nat) : Nat := if b = 0 then 1716 else if b = 1 then 1672 else 1512

/-- The band of stack `k`. -/
def State.stackBand (s : State) (k : Nat) : Nat := s.fgetAt HUB_BAND.STACK0 (k / 6) 0 (2 * (k % 6))

/-- HUB_DELIV of a hub: the sum over its stacks of the smaller of band rate and cap. -/
def State.deliv (s : State) (h : Nat) : State :=
  s.fset HUB_DELIV.GBPS h 0 (((List.range 6).map (fun i =>
    let r := bandRate (s.stackBand (6 * h + i))
    let c := s.fget PWR_STK_CAP.CAP 0 (6 * h + i)
    if c = 0 then r else min r (8 * c))).sum)

/-- The state with HUB_DELIV of every hub brought up to date. -/
def State.delivAll (s : State) : State := (List.range 4).foldl State.deliv s

/-! Throttles (R430, R431). -/

/-- A tower is throttled by some domain. -/
def throttledTower (ds : List Nat) (t : Nat) : Bool := ds.any (fun d => (throttleTowers d).contains t)

/-- A stack is throttled by some domain. -/
def throttledStack (ds : List Nat) (k : Nat) : Bool := ds.any (fun d => (throttleStacks d).contains k)

/-- What a domain's throttle does at the crossing: DUTY on its towers, the first cap on its stacks. -/
def State.throttle (s : State) (d : Nat) : State :=
  let s1 := s.onPower (fun w => { w with throttled := w.throttled ++ [d] })
  let s2 := (throttleTowers d).foldl (fun t u => (t.fset PWR_TOWER_CLK.THROTTLED 0 u 1).writeDuty u) s1
  let s3 := (throttleStacks d).foldl (fun t k =>
    let c := t.fget PWR_STK_CAP.CAP 0 k
    (t.fset PWR_STK_CAP.THROTTLED 0 k 1).fset PWR_STK_CAP.CAP 0 k (if c = 0 then 165 else min c 165)) s2
  s3.delivAll

/-- A domain leaves its throttle state: what no other domain throttles is free of it; a cap stays until its steps remove
it, and a clock rises under R434. -/
def State.unthrottle (s : State) (d : Nat) : State :=
  let s1 := s.onPower (fun w => { w with throttled := w.throttled.filter (· != d) })
  let ds := s1.power.throttled
  let s2 := (throttleTowers d).foldl (fun t u =>
    if throttledTower ds u then t
    else ((t.fset PWR_TOWER_CLK.THROTTLED 0 u 0).onPower (fun w => { w with thrLimit := Tbl.put 20 w.thrLimit u 20 })).writeDuty u) s1
  (throttleStacks d).foldl (fun t k => if throttledStack ds k then t else t.fset PWR_STK_CAP.THROTTLED 0 k 0) s2

/-- At a sample a tower that is still at or above a throttle threshold has its clock target lowered by 100 MHz. -/
def State.lowerHot (s : State) : State :=
  (List.range 16).foldl (fun t u =>
    if s.power.throttled.any (fun d => (throttleTowers d).contains u && decide (s.domainTemp d ≥ throttleAt d)) then
      let n := min (Tbl.get 20 t.power.thrLimit u) (t.fget PWR_TOWER_CLK.TARGET 0 u) - 2
      (t.onPower (fun w => { w with thrLimit := Tbl.put 20 w.thrLimit u n })).setTarget u n
    else t) s

/-! Samples (R426 to R428, R209). -/

/-- A sensor is flagged or ignored (R427): 0 disagree, 1 high, 2 low. How INFO1 holds the two readings is not stated. -/
def State.flagSensor (s : State) (n kind : Nat) : State :=
  let s1 := s.evt PWR_EVENT.SENSOR_FLAG 0 0 1 none
  let s2 := if s1.fget PWR_SENSOR_REC.VALID 0 0 = 1 then s1
    else ((s1.fset PWR_SENSOR_REC.SENSOR 0 0 n).fset PWR_SENSOR_REC.KIND 0 0 kind).fset PWR_SENSOR_REC.VALID 0 0 1
  (s2.draw).powerRec 0x65 4 n kind (leNat (s2.freeBytes 8))

/-- Whether a reading is implausible (R427): 1 high, 2 low. -/
def State.implausible (s : State) (x : Int) : Option Nat :=
  if x > 150 * 16 then some 1
  else if s.fget PWR_STATE_STATUS.STATE 0 0 = 0 ∧ s.fget PWR_COOLANT.INLET_VALID 0 0 = 1 ∧
      x < tempOf (s.fget PWR_COOLANT.INLET 0 0) then some 2
  else none

/-- One sensor's reading, its trim in units of 0.25 °C applied. -/
def State.sampleSensor (s : State) (n : Nat) (raw : Int) : State :=
  let x := raw + 4 * Tbl.get 0 s.fuses.trims n
  let old := s.sensor n
  let put (t : State) (v : Sensor) : State := t.onPower (fun w => { w with sensors := Tbl.put {} w.sensors n v })
  match s.implausible x with
  | some k =>
    let s1 := put s { temp := x, ignored := true, okSince := none }
    if old.ignored then s1 else s1.flagSensor n k
  | none =>
    if !old.ignored then put s { old with temp := x }
    else
      let t0 := old.okSince.getD s.time
      put s (if s.time ≥ t0 + 10000000000 then { temp := x } else { temp := x, ignored := true, okSince := some t0 })

/-- A hot spot's value from its two sensors; none when both are implausible. -/
def pairValue (a b : Sensor) : Option Int :=
  match a.ignored, b.ignored with
  | false, false => some (max a.temp b.temp)
  | true, false => some (b.temp + 80)
  | false, true => some (a.temp + 80)
  | true, true => none

/-- The value of hot spot `k`; where both its sensors and every other pair of its die are implausible, the spec states
none, and it is drawn. -/
def State.resolve (s : State) (k : Nat) : Int :=
  let v (i : Nat) : Option Int := pairValue (s.sensor (2 * i)) (s.sensor (2 * i + 1))
  match v k with
  | some x => x
  | none => match hottest ((dieSpots k).filterMap v) with
    | some x => x + 160
    | none => tempOf ((Config.freeByte (s.free * 4096 + 2 * k)).toNat + 256 * (Config.freeByte (s.free * 4096 + 2 * k + 1)).toNat)

/-- A hot spot at a sample: its value, how long its sensors have disagreed, its last ten values. -/
def State.sampleSpot (s : State) (k : Nat) : Spot :=
  let a := s.sensor (2 * k)
  let b := s.sensor (2 * k + 1)
  let old := s.spot k
  let far := !a.ignored && !b.ignored && decide ((a.temp - b.temp).natAbs > 128)
  let since := if far then some (old.diffSince.getD s.time) else none
  let v := s.resolve k
  { old with
    value := v, diffSince := since
    flagged := match since with
      | some t0 => decide (s.time > t0 + 1000000000)
      | none => false
    hist := (v :: old.hist).take 10 }

/-- Every hot spot at a sample; a pair flagged now is reported (R427). -/
def State.sampleSpots (s : State) : State :=
  let ks := (List.range 376).map (fun k => (k, s.sampleSpot k))
  let new := ks.filter (fun (k, v) => v.flagged && !(s.spot k).flagged)
  let s1 := (s.draw).onPower (fun w => { w with spots := ks.filter (fun (_, v) => v != {}) })
  new.foldl (fun t (k, _) => t.flagSensor (2 * k) 0) s1

/-- The temperature registers (Table 17.15). -/
def State.showTemps (s : State) : State :=
  let s1 := (List.range 16).foldl (fun t i => (t.fset PWR_TEMP_TOWER.LOGIC 0 i (tempBits (s.domainTemp i))).fset
    PWR_TEMP_TOWER.BONDED 0 i (tempBits (s.domainTemp (20 + i)))) s
  let s2 := (List.range 4).foldl (fun t i => t.fset PWR_TEMP_HUB.LOGIC 0 i (tempBits (s.domainTemp (16 + i)))) s1
  let s3 := (List.range 24).foldl (fun t i => t.fset PWR_TEMP_STK.STACK 0 i (tempBits (s.domainTemp (36 + i)))) s2
  let top (a n : Nat) : Nat := tempBits ((hottest ((List.range n).map (fun i => s.domainTemp (a + i)))).getD 0)
  ((s3.fset PWR_TEMP_MAX.LOGIC 0 0 (top 0 20)).fset PWR_TEMP_MAX.BONDED 0 0 (top 20 16)).fset PWR_TEMP_MAX.STACKS 0 0 (top 36 24)

/-- The band after a sample (R209): it rises past the upper bound, and falls 2 °C below the lower bound of the band in use:
85, 95 and, for what is above band C, 105 °C. -/
def nextBand (b : Nat) (x : Int) : Nat :=
  let up := if x > 105 * 16 then 3 else if x > 95 * 16 then 2 else if x > 85 * 16 then 1 else 0
  if up ≥ b then up
  else if x ≤ 83 * 16 then 0
  else if b ≥ 2 ∧ x ≤ 93 * 16 then 1
  else if b = 3 ∧ x ≤ 103 * 16 then 2
  else b

/-- BAND_CHANGE (R209): a hub's stack `i`, or the bonded layers of its tower `i - 6`, at a sample. -/
def State.bandStep (s : State) (h i : Nat) : State :=
  let d := if i < 6 then 36 + 6 * h + i else 20 + 4 * h + (i - 6)
  let old := s.fgetAt HUB_BAND.STACK0 h 0 (2 * i)
  let new := nextBand old (s.domainTemp d)
  if new = old then s
  else (s.fsetAt HUB_BAND.STACK0 h 0 (2 * i) new).evt
    (if new > old then HUB_MEM_EVENT.BAND_UP else HUB_MEM_EVENT.BAND_DOWN) h 0 1 none

/-- The bands of the four hubs. -/
def State.bands (s : State) : State :=
  (List.range 4).foldl (fun t h => (List.range 10).foldl (fun u i => u.bandStep h i) t) s

/-- A domain is below a threshold by its hysteresis in every hot spot (R428). -/
def State.below (s : State) (d : Nat) (at_ : Int) : Bool := decide (s.domainTemp d < at_ - hysteresis d)

/-- Warning and throttle states that end at a sample. -/
def State.leave (s : State) : State :=
  let s1 := s.onPower (fun w => { w with warned := w.warned.filter (fun d => !s.below d (warnAt d)) })
  (s.power.throttled.filter (fun d => s.below d (throttleAt d))).foldl State.unthrottle s1

/-- SENSOR_SAMPLE (R426, R427, R428, R430, R209): sensors, hot spots, the states left, the towers still hot, the bands and
the deliverable rate. -/
def execSensorSample (temps : List (Nat × Int)) (s : State) : Host.Outcome State Fault Refusal :=
  ok (temps.all (fun x => decide (x.1 < 752))) s
    (if !s.boot.ao then s
     else
       let s1 := (temps.foldl (fun t (n, x) => t.sampleSensor n x) s).sampleSpots
       s1.showTemps.leave.lowerHot.bands.delivAll.alert)

/-! Comparators (R426, R428 to R432). -/

/-- What the comparator of a sensor sees of a reading: nothing for an ignored sensor, 5 °C more when its partner is ignored
(R427, Table 17.9). -/
def State.seen (s : State) (n : Nat) (x : Int) : Option Int :=
  if (s.sensor n).ignored then none else if (s.sensor (n ^^^ 1)).ignored then some (x + 80) else some x

/-- THERMAL_WARNING (R429): a hot spot of a domain reaches the warning threshold. -/
def execThermalWarning (spot : Nat) (s : State) : Host.Outcome State Fault Refusal :=
  ok (decide (spot < 376)) s
    (let d := spotDomain spot
     if !s.boot.ao || s.power.warned.contains d || decide ((s.spot spot).value < warnAt d) then s
     else
       let s1 := (s.onPower (fun w => { w with warned := w.warned ++ [d] })).evt PWR_EVENT.WARN 0 0 1 none
       (s1.domainRec 0x60 4 (s.spotSensor spot) (s.spot spot).value).alert)

/-- A throttle comparator of a domain. -/
def State.throttleCmp (s : State) (d n : Nat) (x : Int) : State :=
  match s.seen n x with
  | none => s
  | some y =>
    if !s.boot.ao || s.power.throttled.contains d || decide (y < throttleAt d) then s
    else (((s.throttle d).evt PWR_EVENT.THROTTLE 0 0 1 none).domainRec 0x61 4 n y)

/-- TOWER_THROTTLE (R430): the comparator of a sensor of a tile die, a hub or bonded layers. -/
def execTowerThrottle (sensor : Nat) (temp : Int) (s : State) : Host.Outcome State Fault Refusal :=
  ok (decide (sensor < 752)) s
    (let d := spotDomain (sensor / 2)
     if d < 36 then s.throttleCmp d sensor temp else s)

/-- STACK_THROTTLE (R431): the comparator of a sensor of a stack or a hub. -/
def execStackThrottle (sensor : Nat) (temp : Int) (s : State) : Host.Outcome State Fault Refusal :=
  ok (decide (sensor < 752)) s
    (let d := spotDomain (sensor / 2)
     if throttleStacks d = [] then s else s.throttleCmp d sensor temp)

/-- STACK_CAP_STEP (R431, R435): a stack's cap falls by 40 GB/s while the stack is at or above the threshold, rises by as much
after the throttle state, and is removed at the band rate; Prefill mode caps at 1,512 GB/s. No cap of R431 equals that
value. -/
def execStackCapStep (stack : Nat) (s : State) : Host.Outcome State Fault Refusal :=
  ok (decide (stack < 24)) s
    (let c := s.fget PWR_STK_CAP.CAP 0 stack
     let mode := if s.fget PWR_MODE.MODE 0 0 = 2 then 189 else 0
     let hot := s.power.throttled.any (fun d => (throttleStacks d).contains stack && decide (s.domainTemp d ≥ throttleAt d))
     let n :=
       if s.fget PWR_STK_CAP.THROTTLED 0 stack = 1 then (if hot then max 95 (c - 5) else c)
       else if c = 0 ∨ c = 189 then mode
       else if 8 * (c + 5) ≥ bandRate (s.stackBand stack) ∨ (mode ≠ 0 ∧ c + 5 ≥ mode) then mode
       else c + 5
     (s.fset PWR_STK_CAP.CAP 0 stack n).deliv (stack / 6))

/-- The part stops (R432, R433): no request is admitted, nothing runs, the cause is latched, and the part is in HOLD. -/
def State.tripStop (s : State) (cause sensor hold : Nat) : State :=
  let s1 := ((s.fset PWR_TRIP.CAUSE 0 0 cause).fset PWR_TRIP.SENSOR 0 0 sensor).fset PWR_TRIP.LATCHED 0 0 1
  State.enterHold (s1.withHalted true) hold

/-- THERMAL_SHUTDOWN (R432): THERM_TRIP_N is asserted and SEQ_EN[4] deasserted (R458); the part stops. A trip that is latched
stays as it is. -/
def execThermalShutdown (sensor : Nat) (temp : Int) (s : State) : Host.Outcome State Fault Refusal :=
  ok (decide (sensor < 752)) s
    (let d := spotDomain (sensor / 2)
     match s.seen sensor temp with
     | none => s
     | some y =>
       if !s.boot.ao || s.pkg.trip || decide (y < shutdownAt d) then s
       else
         let s1 := (s.fbitSet PKG_SEQ.EN 0 0 3 false).domainRec 0x62 3 sensor y
         State.tripStop (s1.withPkg { s1.pkg with trip := true }) (domainKind d) sensor 0x0B)

/-- TRIP_RELEASE (R432, R458): accepted only when every domain is below its warning threshold less hysteresis and no
FLOW_STOP is shown; the latch is empty, SEQ_EN[4] is asserted again, and a part reset starts. -/
def execTripRelease (who : Accessor) (s : State) : Host.Outcome State Fault Refusal :=
  ok who.wf s
    (if !s.privileged who || !s.reaches who PWR_TRIP.RELEASE 0 0 || s.fget PWR_TRIP.LATCHED 0 0 == 0 ||
        s.power.flowStop || !(List.range 60).all (fun d => s.below d (warnAt d)) then s
     else
       let s1 := ((s.fset PWR_TRIP.CAUSE 0 0 0).fset PWR_TRIP.SENSOR 0 0 0).fset PWR_TRIP.LATCHED 0 0 0
       let s2 := if s.pkg.trip then s1.fbitSet PKG_SEQ.EN 0 0 3 true else s1
       let s3 := State.partReset (s2.withPkg { s2.pkg with trip := false })
       (s3.withPkg { s3.pkg with enAt := s3.time }))

end Sys2Proof.Machine
end

