-- ==== Sys2Proof/Machine/Power.lean ====
section
/-!
DEFINITION. Power: estimates and the cap (R434 to R438), forecasts and boost (R319, R439, R440), the coolant (R441, R442), the
rate trip (R443), the sleep states of tiles and of the part (R444 to R446).
-/

namespace Sys2Proof.Machine

/-! What runs. -/

/-- A tile takes part in a running or suspended instance and has not ended its part. -/
def State.tileBusy (s : State) (j : Nat) : Bool :=
  s.parts.any (fun (_, q) => q.insts.any (fun (_, i) => i.valid && i.tiles.testBit j && !i.ended.testBit j))

/-- A tower with a busy tile. -/
def State.towerBusy (s : State) (t : Nat) : Bool := (List.range 4).any (fun i => s.tileBusy (4 * t + i))

/-- The AVSBus segment of a tower is failed (Table 18.4, R461). -/
def State.segFailed (s : State) (t : Nat) : Bool := s.pkg.segBad.testBit (t / 4)

/-- A tower's power in units of 0.1 W: measured, or on a failed segment estimated. -/
def State.towerPower (s : State) (t : Nat) : Nat :=
  if s.segFailed t then 10 * Tbl.get 0 s.power.est t else s.fget PKG_RAIL.P_DW 0 t

/-- Measured power outside the towers, 0.1 W. -/
def State.otherPower (s : State) : Nat := ((List.range 13).map (fun i => s.fget PKG_RAIL.P_DW 0 (16 + i))).sum

/-- Package power, 0.1 W. -/
def State.packagePower (s : State) : Nat := ((List.range 16).map s.towerPower).sum + s.otherPower

/-! The cap in force (R435, R436). -/

/-- The inlet that the cooling cap takes, 1/16 °C. -/
def State.inlet (s : State) : Int :=
  if s.fget PWR_COOLANT.INLET_VALID 0 0 = 1 then tempOf (s.fget PWR_COOLANT.INLET 0 0)
  else 16 * s.fget PWR_CAP_CTL.INLET_FALLBACK 0 0

/-- P_cool in W, rounded down; an estimate of 0 binds nothing. -/
def State.coolCap (s : State) : Nat :=
  let r := s.fget PWR_RTH.EST 0 0
  if r = 0 then 8191
  else ((16 * ((102 : Int) - s.fget PWR_CAP_CTL.MARGIN 0 0) - s.inlet).toNat * 62500) / r

/-- QUIET_W in W; values outside 20 to 80 act as 80. -/
def State.quietCap (s : State) : Nat :=
  let q := s.fget PWR_CAP_CTL.QUIET_W 0 0
  50 * (if 20 ≤ q ∧ q ≤ 80 then q else 80)

/-- The cap in force and what binds it: 0 design, 1 cooling, 2 Quiet, 3 boost. -/
def State.cap (s : State) : Nat × Nat :=
  let design := if s.power.boost then (4800, 3) else (4000, 0)
  let a := if s.coolCap < design.1 then (s.coolCap, 1) else design
  if s.fget PWR_MODE.MODE 0 0 = 3 ∧ s.quietCap < a.1 then (s.quietCap, 2) else a

/-- PWR_CAP_STATUS shows the cap in force. -/
def State.showCap (s : State) : State :=
  (((s.fset PWR_CAP_STATUS.CAP_W 0 0 s.cap.1).fset PWR_CAP_STATUS.BINDS 0 0 s.cap.2).fset PWR_CAP_STATUS.BOOSTING 0 0
    (bit s.power.boost)).fset PWR_CAP_STATUS.RATE_TRIP 0 0 (bit s.power.rateTrip)

/-- Ceiling of a tower's clock in the power mode (Table 17.3). -/
def State.modeCeil (s : State) : Nat := if s.fget PWR_MODE.MODE 0 0 = 1 then 10 else 20

/-! Forecasts (R319, R439). -/

/-- The phases of a FORECAST's body (Table 12.9). -/
def Exec.phases (e : Exec) : List (Nat × Nat × Nat × Nat) :=
  (List.range (e.f 16 1)).map (fun i => (e.f (24 + 8 * i) 2, e.f (26 + 8 * i) 1, e.f (27 + 8 * i) 1, e.f (28 + 8 * i) 2))

/-- FORECAST (R319, R439): the partition's earlier forecast is replaced; it is accepted unless a rate trip, COOLING_WARN or
Quiet stands. -/
def execForecast (part slot : Nat) (s : State) : Host.Outcome State Fault Refusal :=
  ok (slotOk part slot) s (s.runCmd 11 part slot (fun e =>
    let yes := !s.power.rateTrip && !s.power.cooling && s.fget PWR_MODE.MODE 0 0 != 3
    (s.onPart part (fun q => { q with forecast := e.phases, forecastAt := e.started, accepted := yes })).endPlain part slot 0
      (bit yes)))

/-- The phase of a list that starts at `t0` which covers time `t`. -/
def phaseAt (t : Nat) : Nat → List (Nat × Nat × Nat × Nat) → Option (Nat × Nat × Nat × Nat)
  | _, [] => none
  | t0, x :: xs => if t < t0 then none else if t < t0 + 1000000 * x.1 then some x else phaseAt t (t0 + 1000000 * x.1) xs

/-- The phase of a partition's accepted forecast that covers time `t`. -/
def State.forecastAt (s : State) (p t : Nat) : Option (Nat × Nat × Nat × Nat) :=
  let q := s.part p
  if q.accepted then phaseAt t q.forecastAt q.forecast else none

/-- The starts of a forecast's phases. -/
def phaseStarts : Nat → List (Nat × Nat × Nat × Nat) → List Nat
  | _, [] => []
  | t0, x :: xs => t0 :: phaseStarts (t0 + 1000000 * x.1) xs

/-- The towers of a partition. -/
def State.partTowers (s : State) (p : Nat) : List Nat := (List.range 16).filter (fun t => s.towerPart t == some p)

/-- Measured power of everything outside the towers of the partitions with a forecast for time `t`, W. -/
def State.outside (s : State) (t : Nat) : Nat :=
  let ps := (List.range 16).filter (fun p => (s.forecastAt p t).isSome)
  (s.packagePower - ((ps.flatMap s.partTowers).map s.towerPower).sum) / 10

/-- What the forecasts for time `t` expect of their partitions, W. -/
def State.expected (s : State) (t : Nat) : Nat :=
  ((List.range 16).map (fun p => match s.forecastAt p t with
    | some x => 50 * x.2.2.1
    | none => 0)).sum

/-- FORECAST_PHASE (R439): for the phase that begins within 200 µs, the ceilings of the partition's named towers; where the
expected total exceeds the cap, in proportion lower; for prefill and mixed work the voltage is raised. A tower without a
ceiling has 20. -/
def execForecastPhase (part : Nat) (s : State) : Host.Outcome State Fault Refusal :=
  ok (partOk part) s
    (let t := s.time + 200000
     let ts := s.partTowers part
     match s.forecastAt part t with
     | none => ts.foldl (fun u k => u.onPower (fun w => { w with ceil := Tbl.put 20 w.ceil k 20 })) s
     | some x =>
       let kind := x.2.1
       let named (k : Nat) : Bool := x.2.2.2.testBit k
       let base := if kind = 1 then 10 else if kind = 0 then 20 else s.modeCeil
       let total := s.expected t
       let room := s.cap.1 - s.outside t
       ts.foldl (fun u k =>
         let c := if !named k then 20
           else if kind ≠ 0 ∧ total > room then min base ((10 + s.fget PWR_TOWER_CLK.TARGET 0 k) * room / total - 10)
           else base
         let u1 := u.onPower (fun w => { w with ceil := Tbl.put 20 w.ceil k c })
         let u2 := if c < u1.fget PWR_TOWER_CLK.TARGET 0 k then u1.setTarget k c else u1
         if named k && decide (2 ≤ kind) && decide (u2.fget PWR_TOWER_CLK.VT_MV 0 k < s.voltage k c) && !s.segFailed k then
           u2.fset PWR_TOWER_CLK.VT_MV 0 k (s.voltage k c)
         else u2) s)

/-! Boost (R440). -/

/-- Partitions with a busy tower. -/
def State.busyParts (s : State) : List Nat := (List.range 16).filter (fun p => (s.partTowers p).any s.towerBusy)

/-- The expected total at a time, where every partition with a forecast now still has one. -/
def State.totalAt (s : State) (t : Nat) : Option Nat :=
  if (List.range 16).all (fun p => (s.forecastAt p s.time).isNone || (s.forecastAt p t).isSome) then
    some (s.expected t + s.outside t) else none

/-- A quieter period of at most 3,600 W begins at `t`: it lasts at least as long as the time until it begins. -/
def State.quietFrom (s : State) (starts : List Nat) (t : Nat) : Bool :=
  (t :: starts.filter (fun x => t ≤ x ∧ x < t + (t - s.time))).all (fun x => match s.totalAt x with
    | some w => decide (w ≤ 3600)
    | none => false) && (s.totalAt (t + (t - s.time) - 1)).isSome

/-- The forecasts show a quieter period that begins within 2 s; it has not begun. -/
def State.quietAhead (s : State) : Bool :=
  let starts := (List.range 16).flatMap (fun p => phaseStarts (s.part p).forecastAt (s.part p).forecast)
  (match s.totalAt s.time with
    | some w => decide (w > 3600)
    | none => false) &&
  starts.any (fun t => decide (s.time < t) && decide (t ≤ s.time + 2000000000) && s.quietFrom starts t)

/-- The conditions of a boost but for the time since the last. -/
def State.boostMay (s : State) : Bool :=
  s.fget PWR_CAP_CTL.BOOST_EN 0 0 == 1 && s.fget PWR_MODE.MODE 0 0 != 3 && !s.power.rateTrip && !s.power.cooling &&
  s.busyParts.all (fun p => (s.forecastAt p s.time).isSome) && s.quietAhead

/-- BOOST_END (R440). -/
def State.boostEnd (s : State) : State :=
  if !s.power.boost then s
  else (s.onPower (fun w => { w with boost := false, boostLen := s.time - w.boostAt, underNs := 0 })).evt PWR_EVENT.BOOST_END 0 0 1 none

/-- BOOST_START and BOOST_END at the manager's 1 ms decision (R440). -/
def State.boostStep (s : State) : State :=
  if s.power.boost then
    (if !s.boostMay || decide (s.time ≥ s.power.boostAt + 2000000000) then s.boostEnd else s)
  else if s.boostMay && decide (s.power.underNs ≥ s.power.boostLen) then
    (s.onPower (fun w => { w with boost := true, boostAt := s.time })).evt PWR_EVENT.BOOST_START 0 0 1 none
  else s

/-! Clock targets (R437, R434). -/

/-- A tower's power at a clock of `n` steps, 0.1 W: measured power scaled by f × V(f)² (R437), rounded down. -/
def State.towerEst (s : State) (t n : Nat) : Nat :=
  let f0 := 10 + s.fget PWR_TOWER_CLK.CURRENT 0 t
  let v0 := s.fget PWR_TOWER_CLK.VT_MV 0 t
  let v := s.voltage t n
  s.towerPower t * ((10 + n) * v * v) / (f0 * v0 * v0)

/-- The tower to lower: the highest clock, of equals the highest number. -/
def topTower : List (Nat × Nat) → Option (Nat × Nat)
  | [] => none
  | x :: xs => match topTower xs with
    | none => some x
    | some y => if x.2 > y.2 then some x else some y

/-- The targets lowered until the estimates fit the budget (R437). -/
def State.fit (s : State) (budget : Int) : Nat → List (Nat × Nat) → List (Nat × Nat)
  | 0, fs => fs
  | fuel + 1, fs =>
    if (((fs.map (fun (t, n) => s.towerEst t n)).sum : Nat) : Int) ≤ budget then fs
    else match topTower fs with
      | some (t, n + 1) => s.fit budget fuel (fs.map (fun (u, m) => if u = t then (u, n) else (u, m)))
      | _ => fs

/-- A tower's clock before the budget: the least of the ceilings, the limit, and one step up, which R434 allows once a ms. -/
def State.towerWish (s : State) (t : Nat) : Nat :=
  let target := s.fget PWR_TOWER_CLK.TARGET 0 t
  let now := min target (s.fget PWR_TOWER_CLK.CURRENT 0 t)
  let may := match Tbl.get (none : Option Nat) ((s.power.raisedAt.map (fun (k, v) => (k, some v)))) t with
    | some t0 => decide (s.time ≥ t0 + 1000000)
    | none => true
  if s.power.rateTrip then 0
  else min (min (min s.modeCeil (Tbl.get 20 s.power.ceil t)) (Tbl.get 20 s.power.thrLimit t))
    (if may && !s.segFailed t then now + 1 else now)

/-- A tower that the decision sets: an instance runs on it, or an accepted forecast names it with work. -/
def State.towerRuns (s : State) (t : Nat) : Bool :=
  s.towerBusy t || (match s.towerPart t with
    | some p => (match s.forecastAt p (s.time + 200000) with
      | some x => x.2.1 != 0 && x.2.2.2.testBit t
      | none => false)
    | none => false)

/-- CLOCK_TARGET_UPDATE (R434, R435, R437, R440): every 1 ms the average power, boost, the cap, the towers' targets, and
RAMP_LEN_MGMT on every tile. A tower of a failed segment keeps its clock (R461). -/
def execClockTargetUpdate (s : State) : Host.Outcome State Fault Refusal :=
  ok true s
    (if !s.boot.mgmtUp || s.phase == 15 then s
     else
       let pw := s.packagePower / 10
       let s1 := (s.fset PWR_CAP_STATUS.POWER_W 0 0 (min 8191 pw)).onPower (fun w => { w with
         powSum := w.powSum + pw, powN := w.powN + 1
         underNs := if pw < 4000 ∧ w.boost = false then w.underNs + 1000000 else w.underNs })
       let s2 := s1.boostStep.showCap
       let budget : Int := 10 * ((s2.cap.1 : Int) - 100) - s2.otherPower
       let fs := ((List.range 16).filter s2.towerRuns).map (fun t => (t, s2.towerWish t))
       let s3 := (s2.fit budget 320 fs).foldl (fun t (u, n) => if s2.segFailed u then t else t.setTarget u n) s2
       (List.range 64).foldl (fun t j =>
         t.fset TILE_THROTTLE.RAMP_LEN_MGMT j 0 (s.fget PWR_THR_CTL.RAMP_LEN 0 0)) s3)

/-- CLOCK_SWITCH (R434): a clock rises once its voltage has settled, and falls before its voltage does. -/
def execClockSwitch (tower : Nat) (s : State) : Host.Outcome State Fault Refusal :=
  ok (decide (tower < 16)) s
    (let n := s.fget PWR_TOWER_CLK.TARGET 0 tower
     let c := s.fget PWR_TOWER_CLK.CURRENT 0 tower
     if n < c then
       let s1 := s.fset PWR_TOWER_CLK.CURRENT 0 tower n
       if s.segFailed tower then s1 else s1.fset PWR_TOWER_CLK.VT_MV 0 tower (s.voltage tower n)
     else if n = c ∨ s.segFailed tower = true then s
     else match Tbl.get none s.power.settleAt tower with
       | some t => if s.time < t then s
         else (s.fset PWR_TOWER_CLK.CURRENT 0 tower n).onPower (fun w => { w with settleAt := Tbl.put none w.settleAt tower none })
       | none => s)

/-! The over-cap response (R438). -/

/-- POWER_ESTIMATE (R438): every 10 µs the towers' estimates in W; above the cap DUTY rises by one step on every busy tower,
below it falls by one step per 100 µs. -/
def execPowerEstimate (watts : List Nat) (s : State) : Host.Outcome State Fault Refusal :=
  ok (watts.length == 16) s
    (if !s.boot.mgmtUp || s.phase == 15 then s
     else
       let s1 := s.onPower (fun w => { w with est := ((List.range 16).zip watts).foldl (fun t (k, v) => Tbl.put 0 t k v) w.est })
       let total := watts.sum + s1.otherPower / 10
       let ts := List.range 16
       if total > s1.cap.1 then
         ts.foldl (fun t k => if s.towerBusy k then
           (t.onPower (fun w => { w with duty := Tbl.put 0 w.duty k (min 6 (Tbl.get 0 w.duty k + 1)) })).writeDuty k else t) s1
       else if total < s1.cap.1 ∧ s.time ≥ s.power.dutyAt + 100000 then
         ts.foldl (fun t k => (t.onPower (fun w => { w with duty := Tbl.put 0 w.duty k (Tbl.get 0 w.duty k - 1) })).writeDuty k)
           (s1.onPower (fun w => { w with dutyAt := s.time }))
       else s1)

/-! Thermal resistance (R436, R442). -/

/-- RTH_ESTIMATE (R436, R442): every 100 ms R_est in 10^-6 K/W, skipped below 1,000 W or without the inlet; COOLING_WARN above
1.25 × NOM, cleared at 1.20 × NOM. -/
def execRthEstimate (s : State) : Host.Outcome State Fault Refusal :=
  ok true s
    (if !s.boot.mgmtUp || s.phase == 15 then s
     else
       let p := if s.power.powN = 0 then 0 else s.power.powSum / s.power.powN
       let est : Int := s.fget PWR_RTH.EST 0 0
       let s1 := s.onPower (fun w => { w with powSum := 0, powN := 0 })
       let s2 :=
         if p < 1000 ∨ s.fget PWR_COOLANT.INLET_VALID 0 0 = 0 then s1
         else
           let r := (tempOf (s.fget PWR_TEMP_MAX.LOGIC 0 0) - s.inlet) * 62500 / p
           s1.fset PWR_RTH.EST 0 0 (min 65535 (est + (r - est) / 8).toNat)
       let e := s2.fget PWR_RTH.EST 0 0
       let nom := s2.fget PWR_RTH.NOM 0 0
       let s3 :=
         if !s.power.cooling && decide (4 * e > 5 * nom) then
           ((s2.onPower (fun w => { w with cooling := true })).evt PWR_EVENT.COOLING_WARN 0 0 1 none).powerRec 0x64 4 0 e nom
         else if s.power.cooling && decide (5 * e ≤ 6 * nom) then s2.onPower (fun w => { w with cooling := false })
         else s2
       (if s3.power.cooling then s3.boostEnd else s3).showCap.alert)

/-! Coolant (R441, R467, R468). -/

/-- A COOLANT record: 0 FLOW_LOW, 1 FLOW_STOP, 2 INLET_LOST, with the flow. -/
def State.coolantRec (s : State) (k : Nat) : State := s.powerRec 0x66 4 0 k (s.fget PWR_COOLANT.FLOW 0 0)

/-- The temperature that two bytes give (R468), if it is a good read. -/
def State.inletOf (s : State) (raw : Option (Nat × Nat)) : Option Int :=
  match raw with
  | none => none
  | some (a, b) =>
    let x := tempOf (if s.fget PKG_INLET_CFG.ORDER 0 0 = 1 then a % 256 + 256 * (b % 256) else b % 256 + 256 * (a % 256))
    if x < -20 * 16 ∨ x > 100 * 16 then none else some x

/-- INLET_READ (R441, R468): the third failed read in a row loses the inlet; a good one restores it. -/
def execInletRead (raw : Option (Nat × Nat)) (s : State) : Host.Outcome State Fault Refusal :=
  ok true s
    (if !s.boot.mgmtUp then s
     else match s.inletOf raw with
     | some x =>
       ((s.fset PWR_COOLANT.INLET 0 0 (tempBits x)).fset PWR_COOLANT.INLET_VALID 0 0 1).onPower (fun w =>
         { w with inletFails := 0, inletLost := false }) |>.alert
     | none =>
       let s1 := s.onPower (fun w => { w with inletFails := w.inletFails + 1 })
       if s1.power.inletFails < 3 ∨ s.power.inletLost = true then s1
       else
         let s2 := (s1.fset PWR_COOLANT.INLET_VALID 0 0 0).onPower (fun w => { w with inletLost := true })
         ((s2.evt PWR_EVENT.INLET_LOST 0 0 1 none).coolantRec 2).alert)

/-- FLOW_PULSE (R467): a rising edge is counted, and ends FLOW_STOP. -/
def execFlowPulse (s : State) : Host.Outcome State Fault Refusal :=
  ok true s
    (if !s.boot.mgmtUp then s
     else (s.onPower (fun w => { w with pulses := w.pulses + 1, lastPulse := s.time, flowStop := false })).alert)

/-- FLOW_COUNT (R441): the flow of the last 100 ms; FLOW_LOW once it has stayed below FLOW_MIN for 1 s. -/
def execFlowCount (s : State) : Host.Outcome State Fault Refusal :=
  ok true s
    (if !s.boot.mgmtUp then s
     else
       let f := min 65535 (s.power.pulses * 600000 / max 1 (s.fget PWR_FLOW_CTL.PULSES_PER_L 0 0))
       let low := decide (f < s.fget PWR_FLOW_CTL.FLOW_MIN 0 0)
       let since := if low then some (s.power.lowSince.getD s.time) else none
       let due := match since with
         | some t => decide (s.time ≥ t + 1000000000)
         | none => false
       let s1 := (s.fset PWR_COOLANT.FLOW 0 0 f).onPower (fun w => { w with pulses := 0, lowSince := since, flowLow := due })
       if due && !s.power.flowLow then ((s1.evt PWR_EVENT.FLOW_LOW 0 0 1 none).coolantRec 0).alert else s1.alert)

/-- FLOW_STOP (R441): no pulse for 200 ms. -/
def execFlowStop (s : State) : Host.Outcome State Fault Refusal :=
  ok true s
    (if !s.boot.mgmtUp || s.power.flowStop || decide (s.time < s.power.lastPulse + 200000000) then s
     else (((s.onPower (fun w => { w with flowStop := true })).evt PWR_EVENT.FLOW_STOP 0 0 1 none).coolantRec 1).alert)

/-! The rate trip (R443). -/

/-- A hot spot at an evaluation: the sum of its last ten samples, the rate over the last four in 1/16 °C per s, and how
many evaluations in a row found more than 15 °C/s. Without enough samples there is no rate. -/
def Spot.evaluate (x : Spot) : Spot :=
  if x.hist.length < 10 then x
  else
    let a := x.hist.sum
    let l := (a :: x.avgs).take 5
    if l.length < 5 then { x with avgs := l }
    else
      let r := (a - l.getD 4 0) * 25
      { x with avgs := l, rate := r, high := if r > 240 then x.high + 1 else 0 }

/-- RATE_TRIP (R443): every tower steps to 0.50 GHz with DUTY 6 and TRIP, and any boost ends. -/
def State.rateTrip (s : State) (k : Nat) : State :=
  let s1 := s.boostEnd.onPower (fun w => { w with rateTrip := true, calmSince := none })
  let s2 := (List.range 16).foldl (fun t u => (t.setTarget u 0).writeDuty u) s1
  let m := ((s.spot k).rate * 1000 / 16).toNat
  (((s2.evt PWR_EVENT.RATE_TRIP 0 0 1 none).powerRec 0x63 4 (s.spotSensor k) k m).showCap).alert

/-- The rate trip is released: DUTY is what else asks for it. -/
def State.rateRelease (s : State) : State :=
  let s1 := s.onPower (fun w => { w with rateTrip := false, calmSince := none })
  (((List.range 16).foldl State.writeDuty s1).showCap).alert

/-- RATE_EVALUATION (R443): the trip fires at the twentieth evaluation in a row, and is released after 1 s of rates below
5 °C/s without FLOW_STOP. -/
def execRateEvaluation (s : State) : Host.Outcome State Fault Refusal :=
  ok true s
    (if !s.boot.mgmtUp || s.phase == 15 then s
     else
       let ks := s.power.spots.map (fun (k, x) => (k, x.evaluate))
       let calm := ks.all (fun (_, x) => decide (x.rate < 80))
       let since := if calm then some (s.power.calmSince.getD s.time) else none
       let s1 := s.onPower (fun w => { w with spots := ks, calmSince := since })
       if s.power.rateTrip then
         (match since with
          | some t => if s.time ≥ t + 1000000000 ∧ s.power.flowStop = false then s1.rateRelease else s1
          | none => s1)
       else match ks.find? (fun (_, x) => decide (x.high ≥ 20)) with
         | some (k, _) => s1.rateTrip k
         | none => s1)

/-! Sleep (R444, R445). -/

/-- A tower's VT is 0.600 V while all four of its tiles are in Retention or Off (R444). -/
def State.towerSleep (s : State) (t : Nat) : State :=
  if (List.range 4).all (fun i => let w := (s.tile (4 * t + i)).power; w == .retention || w == .off) && !s.segFailed t then
    s.fset PWR_TOWER_CLK.VT_MV 0 t 600 else s

/-- TILE_WAKE (R445): the partition's tiles whose wake time has come are in Run; their tower has the voltage of its clock. -/
def execTileWake (part : Nat) (s : State) : Host.Outcome State Fault Refusal :=
  ok (partOk part) s
    ((s.partTiles part).foldl (fun t j => match (s.tile j).wakeAt with
      | some w =>
        if s.time < w then t
        else
          let k := j / 4
          let v := s.voltage k (max (s.fget PWR_TOWER_CLK.TARGET 0 k) (s.fget PWR_TOWER_CLK.CURRENT 0 k))
          let t1 := t.onTile j (fun x => { x with power := .run, since := s.time, wakeAt := none })
          if t1.fget PWR_TOWER_CLK.VT_MV 0 k < v then t1.fset PWR_TOWER_CLK.VT_MV 0 k v else t1
      | none => t) s)

/-- TILE_RETENTION (R445): a clock-gated tile without an instance for RET_US. -/
def execTileRetention (tile : Nat) (s : State) : Host.Outcome State Fault Refusal :=
  ok (tileOk tile) s
    (let w := s.tile tile
     if w.power != .gated || w.wakeAt.isSome || s.tileBusy tile ||
        decide (s.time < w.since + 1000 * s.fget PWR_SLEEP_CTL.RET_US 0 0) then s
     else (s.onTile tile (fun x => { x with power := .retention, since := s.time })).towerSleep (tile / 4))

/-- TILE_OFF (R445): a tile in Retention for OFF_MS, unless that is 0. -/
def execTileOff (tile : Nat) (s : State) : Host.Outcome State Fault Refusal :=
  ok (tileOk tile) s
    (let w := s.tile tile
     let ms := s.fget PWR_SLEEP_CTL.OFF_MS 0 0
     if w.power != .retention || w.wakeAt.isSome || s.tileBusy tile || ms == 0 || decide (s.time < w.since + 1000000 * ms) then s
     else (s.tileOff tile).towerSleep (tile / 4))

/-! Part states (R446). -/

/-- Idle and Standby may be entered: none of what R446 lists is present. -/
def State.mayIdle (s : State) : Bool :=
  s.isReady && s.execs.all (fun (_, e) => !e.busy) &&
  s.decks.all (fun (_, c) => c.state == 0 || c.state == 3 || (c.fetch == c.doorbell && c.fetched == [])) &&
  s.thapWait == [] && s.chans.all (fun (_, c) => c.queue == [] && c.running == none) &&
  s.sendCtx.all (fun (_, c) => !c.valid) && s.recvCtx.all (fun (_, c) => !c.valid) &&
  s.margin == [] && s.parts.all (fun (_, q) => q.stage == .none)

/-- An entry into a part state begins, where it may. -/
def State.enterState (s : State) (v : Nat) : State :=
  if s.fget PWR_STATE_STATUS.STATE 0 0 = v then s
  else (s.fset PWR_STATE_STATUS.ENTERING 0 0 1).onPower (fun w => { w with entering := some v })

/-- A Bolkiby link goes down for Standby: LINK_RESET with reason 2 is sent, and its settings are kept for a warm start. -/
def State.standbyPort (s : State) (p : Nat) : State :=
  if s.linkUp p then
    ((s.onPort p (fun t => { t.resetLink with
      ctrl := t.ctrl ++ [(5, 2)], vcq := [], retrain := none, selfOk := false, peerOk := false })).setPst p 0).fset
      FAB_PORT_PARTNER.VALID 0 p 0
  else s.setPst p 0

/-- The part is in Run again (R446); after Standby every port trains, warm. -/
def State.toRun (s : State) : State :=
  let st := s.fget PWR_STATE_STATUS.STATE 0 0
  let s1 := ((s.fset PWR_STATE_STATUS.ENTERING 0 0 0).fset PWR_STATE_STATUS.STATE 0 0 0).onPower (fun w =>
    { w with entering := none, idleSince := none })
  let s2 := if st = 2 then (List.range 16).foldl State.portStart s1 else s1
  if st = 0 then s2 else s2.evt PWR_EVENT.STATE_CHANGE 0 0 1 none

/-- PART_STATE_TARGET (R446, R449): a write of PWR_STATE_CTL. TARGET 0 or 3 wakes the part or abandons an entry; 1 and 2 enter
Idle and Standby or set REFUSED. -/
def execPartStateTarget (who : Accessor) (v : Nat) (s : State) : Host.Outcome State Fault Refusal :=
  ok who.wf s
    (if !s.privileged who || !s.reaches who PWR_STATE_CTL.TARGET 0 0 then s
     else
       let s1 := s.fset PWR_STATE_CTL.AUTO_IDLE_MS 0 0 (v / 4)
       let t := v % 4
       if t = 0 ∨ t = 3 then s1.toRun
       else if !s.mayIdle then s1.fset PWR_STATE_STATUS.REFUSED 0 0 1
       else s1.enterState t)

/-- AUTO_IDLE (R446): nothing has run for AUTO_IDLE_MS. -/
def execAutoIdle (s : State) : Host.Outcome State Fault Refusal :=
  ok true s
    (let ms := s.fget PWR_STATE_CTL.AUTO_IDLE_MS 0 0
     if ms == 0 || !s.mayIdle || s.fget PWR_STATE_STATUS.STATE 0 0 != 0 then s
     else match s.power.idleSince with
       | some t => if s.time ≥ t + 1000000 * ms then s.enterState 1 else s
       | none => s)

/-- PART_STATE_ENTERED (R446, Table 17.9): the entry completes; one that no longer may is abandoned. In Idle and Standby the
tiles are Off; in Standby the Bolkiby links are down. -/
def execPartStateEntered (s : State) : Host.Outcome State Fault Refusal :=
  ok true s
    (match s.power.entering with
     | none => s
     | some v =>
       let s1 := (s.fset PWR_STATE_STATUS.ENTERING 0 0 0).onPower (fun w => { w with entering := none })
       if !s.mayIdle then s1
       else
         let s2 := (List.range 16).foldl State.towerSleep (s1.fset PWR_STATE_STATUS.STATE 0 0 v).tilesOff
         let s3 := if v = 2 then ((List.range 16).foldl State.standbyPort s2).relive else s2
         s3.evt PWR_EVENT.STATE_CHANGE 0 0 1 none)

/-- PART_WAKE (R446): a doorbell, a fabric message for a partition, or a thermal or power event wakes the part. -/
def execPartWake (s : State) : Host.Outcome State Fault Refusal :=
  ok true s
    (if s.fget PWR_STATE_STATUS.STATE 0 0 = 0 ∧ s.power.entering = none then s else s.toRun)

end Sys2Proof.Machine
end

