-- ==== Sys2Proof/Machine/Clock.lean ====
section
/-!
DEFINITION. The passage of time: one nanosecond of the fabric timebase (R389), the calendar count (R490), the tiles' activity
counters (R51), and since when nothing runs (R446). The step takes it when no command waits (assumption 3).
-/

namespace Sys2Proof.Machine

/-- The calendar count's share of one more nanosecond: 32,768 ticks a second, kept as a remainder (R490). -/
def calTick (phase : Nat) : Nat × Nat :=
  let p := phase + 32768
  if p ≥ 1000000000 then (1, p - 1000000000) else (0, p)

/-- A tile whose clock runs at `n` steps above 0.50 GHz: its counter advances once per tile cycle (R51). `phase` counts
thousandths of a cycle. -/
def Tile.tick (w : Tile) (n : Nat) : Tile :=
  if w.power = .run then
    let p := w.phase + 500 + 50 * n
    { w with phase := p % 1000, counter := (w.counter + p / 1000) % 8 }
  else w

/-- The tile cycles that the next nanosecond completes for a tile whose clock runs at `n` steps above 0.50 GHz. -/
def Tile.cyclesIn (w : Tile) (n : Nat) : Nat := if w.power = .run then (w.phase + 500 + 50 * n) / 1000 else 0

/-- The arrays of the tiles that run go through those tile cycles (R50 to R54). -/
def State.tickArrays (s : State) : State :=
  s.arrs.foldl (fun t (k, _) => t.arrTick (k / 4) (k % 4) ((s.tile (k / 4)).cyclesIn (s.fget PWR_TOWER_CLK.CURRENT 0 (k / 16)))) s

/-- One nanosecond passes: the timebase advances by one, by none or by two while it slews (R389: a correction is spread
over the rate; the model corrects 1 ns in 5,000); the calendar advances unless its oscillator has stopped. -/
def State.tick (s : State) : State :=
  let adj : Int := if s.slew = 0 ∨ s.time % 5000 ≠ 0 then 0 else if s.slew > 0 then 1 else -1
  let (dc, ph) := if s.mgmt.oscStopped then (0, s.calPhase) else calTick s.calPhase
  ((((((s.tickArrays.withTime (if s.boot.vaon then (((s.time : Int) + 1 + adj).toNat) % 2 ^ 64 else s.time)).withSlew (if s.boot.vaon then s.slew - adj else s.slew)).withCalendar (s.calendar + dc)).withCalPhase ph).withTiles (s.tiles.map (fun (j, w) => (j, w.tick (s.fget PWR_TOWER_CLK.CURRENT 0 (j / 4)))))).withPower { s.power with idleSince := if s.mayIdle then some (s.power.idleSince.getD s.time) else none })

end Sys2Proof.Machine
end

