-- ==== Sys2Proof/Machine/Finish.lean ====
section
/-!
DEFINITION. Commands after which an operator that waited for the yarder may go on: a request's completion (R112, R113), and the
resumption of a pre-empted level (R59, R106).
-/

namespace Sys2Proof.Machine

/-- A request of an operator has completed: the operator goes on after its last, once its instance runs (R106). -/
def State.reqEnd (s : State) (c : Ctx) : State :=
  if (s.tile c.tile).preempting || c.level != (s.part c.part).level then s else s.yarderEnd c

/-- What has come for a request lands: in the tile's place for it, poison with it (R113). -/
def State.landGot (s : State) (g : Tag) : State :=
  match g.rq.act with
  | .fetch (some k) => s.storeMarks k g.got g.marks
  | _ => s

/-- The write that follows the read of a transfer from memory to memory. -/
def Tag.relayed (g : Tag) : List YReq :=
  match g.rq.act with
  | .relay a k t => [⟨.put g.got g.marks, a, k, g.got.length, t⟩]
  | _ => []

/-- The request of a tag, as the latency monitors see it (R254). -/
def Tag.rqOf (g : Tag) (j : Nat) (p : Option Nat) : Req := ⟨.tile j g.thread, hubOfTile j, p.getD 0, g.rq.addr.getD 0, g.rq.len, 0, 0⟩

/-- YARDER_COMPLETION (R112, R113, R254): the tag is free and what came lands; a bus error ends the operator with cause 0x03 (R204); a
completion that names no request in flight is late. A request that its channel holds has no completion yet (R233). -/
def execYarderCompletion (tile tag : Nat) (gen : Bool) (s : State) : Host.Outcome State Fault Refusal :=
  ok (tileOk tile && tag < 512) s
    (let g := s.tag tile tag
     if !g.busy || g.gen != gen then s.fcount TILE_YARD_COUNT.LATE tile 0
     else if g.held then s
     else
       let s0 := ((s.onTag tile tag (fun x => { x with busy := false, got := [], marks := 0 })).landGot g).observeReq
         { g.rqOf tile (s.tilePart tile) with arrived := g.came } [(g.rq.place, g.rq.len)]
       let s1 := match bankOfPlace g.rq.place with
         | some b => s0.bankNext b
         | none => s0
       if g.orphan then s1.issueAll tile
       else
         let s2 := s1.onThr tile g.level g.thread (fun h => { h with outst := h.outst - 1, reqs := h.reqs ++ g.relayed })
         match s2.tagCtx tile g with
         | some c => (if g.refused then s2.failIo c 0x03 else s2.reqEnd c).issueAll tile
         | none => s2.issueAll tile)

/-- The operators go on whose requests completed while their instance was pre-empted. -/
def State.endYards (s : State) (p l j : Nat) : State :=
  (List.range 16).foldl (fun t k => match t.opOf p l (t.inst p l) j k with
    | some c => t.yarderEnd c
    | none => t) s

/-- The sequencer restores a level's context: the threads' positions and progress, and the tile-local semaphores (R106). A
thread whose context reads bad ends its operator in fault; so does the lowest thread with an operator for bad semaphores
(DEDUCED from Table 2.9, assumption 68). -/
def State.loadContext (s : State) (p l j : Nat) : State :=
  let ctx (t : Nat) : List Byte × Bool := s.look (ctxThrAt j l t) 40
  let sems := s.look (ctxSemAt j l) 256
  let s1 := (List.range 16).foldl (fun t k => if (ctx k).2 then t else t.onThr j l k (fun h => h.restore (ctx k).1)) s
  let s2 := if sems.2 then s1 else
    (List.range 64).foldl (fun t n => t.withTileSems
      (Tbl.put 0 t.tileSems ((j * 4 + l) * 64 + n) (leNat ((sems.1.drop (4 * n)).take 4)))) s1
  let first := (List.range 16).find? (fun k => (s.opOf p l (s.inst p l) j k).isSome)
  (List.range 16).foldl (fun t k =>
    if (ctx k).2 || (sems.2 && first == some k) then
      (match t.opOf p l (t.inst p l) j k with
       | some c => ((t.opReads c [(ctxThrAt j l k, 40), (ctxSemAt j l, 256)]).attnDrop j l k).opEndFault c 0x03
       | none => t)
    else t) s2

/-- PREEMPT_RESUME (R59, R106): the tile of a pre-empted instance that is again the running one restores its configuration
(R40, R43: once every array is idle), its sets and its threads, which go on from their stop points. `saveUe`: a word of the
save area was hit meanwhile. -/
def execPreemptResume (tile : Nat) (saveUe : Bool) (s : State) : Host.Outcome State Fault Refusal :=
  ok (tileOk tile) s
    (match s.tileInst tile with
     | some (p, l, _) =>
       let sh := s.parkedShape tile l
       if (s.tile tile).preempting && (s.part p).preAsk.isNone && (s.tile tile).power == .run &&
           !(s.levelJobs tile l).any (fun (_, b) => b.holds) &&
           (sh == s.fget TILE_ARRAY_STATUS.SHAPE tile 0 || s.arraysIdle tile) then
         let s1 := if saveUe then (s.levelJobs tile l).foldl (fun t (_, b) => t.hitSave tile l b) s else s
         ((((s1.fset TILE_ARRAY_STATUS.SHAPE tile 0 sh).loadContext p l tile).resumeJobs p l tile).endYards p l tile).onTile tile
           (fun t => { t with preempting := false }) |>.countLevels tile
       else s
     | none => s)

end Sys2Proof.Machine
end

