-- ==== Sys2Proof/Machine/Hub.lean ====
section
/-!
DEFINITION. The hub's own commands: the hot-bank tally (R206), margin sweeps (R213) and raw mode (R279, R280).
-/

namespace Sys2Proof.Machine

/-- The bank with the longest wait among those whose requests waited for more than FRAC ÷ 256 of the microsecond, the first of
equals; each as local channel, bank and ns waited (R206). -/
def hotBank (frac : Nat) (waits : List (Nat × Nat × Nat)) : Option (Nat × Nat × Nat) :=
  (waits.filter (fun w => decide (w.2.2 * 256 > frac * 1000))).foldl (fun a w => match a with
    | some b => if w.2.2 > b.2.2 then some w else some b
    | none => some w) none

/-- HOTBANK_TICK (R206): each microsecond in which a bank was hot counts once; past BUCKET (0 acts as 1) the tally restarts
and the bank is reported. -/
def execHotbankTick (hub : Nat) (waits : List (Nat × Nat × Nat)) (s0 : State) : Host.Outcome State Fault Refusal :=
  ok (hubOk hub) s0
    (if !s0.due (hub * 16) 1000 then s0 else
     let s := s0.ticked (hub * 16)
     match hotBank (s.fget HUB_HOTBANK_CTL.FRAC hub 0) waits with
     | none => s
     | some (c, b, _) =>
       let n := s.fget HUB_HOTBANK_STATUS.TALLY hub 0 + 1
       if n > max 1 (s.fget HUB_HOTBANK_CTL.BUCKET hub 0) then
         ((((s.fset HUB_HOTBANK_STATUS.TALLY hub 0 0).fset HUB_HOTBANK_STATUS.CHANNEL hub 0 c).fset
           HUB_HOTBANK_STATUS.BANK hub 0 b).evt HUB_MEM_EVENT.HOT_BANK hub 0 1 none).record hub
           { cause := 0x45, sev := 4, pos := 0xFFFF, info0 := c, info1 := b }
       else s.fset HUB_HOTBANK_STATUS.TALLY hub 0 n)

/-- HOTBANK_LEAK (R206): the tally leaks one every LEAK_US, 0 acting as 1. -/
def execHotbankLeak (hub : Nat) (s : State) : Host.Outcome State Fault Refusal :=
  ok (hubOk hub) s
    (if !s.due (hub * 16 + 1) (max 1 (s.fget HUB_HOTBANK_CTL.LEAK_US hub 0) * 1000) then s
     else (s.ticked (hub * 16 + 1)).fset HUB_HOTBANK_STATUS.TALLY hub 0 (s.fget HUB_HOTBANK_STATUS.TALLY hub 0 - 1))

/-- The partition runs: PART_STATUS reads running. -/
def State.partRuns (s : State) (p : Nat) : Bool := s.partStatus p == 1

/-- A load has taken the partition's targets: it is past its wait for sweeps. -/
def State.loadHas (s : State) (p : Nat) : Bool :=
  match (s.part p).stage with
  | .loadWeights => true
  | _ => false

/-- The sweep's target lies in a running partition (R213), or in one whose load took it first (R214). The spec names no
outcome for a TARGET above 191 in tier 1: such a target is no channel, lies in no partition and is not refused (assumption
75: DESIGN CHOICE). -/
def State.sweepTaken (s : State) (hub target tier : Nat) : Bool :=
  let held (q : Option Nat) : Bool :=
    match q with
    | some p => s.partRuns p || s.loadHas p
    | none => false
  if tier = 0 then decide (target < 192) && held (s.chanPart (192 * hub + target))
  else decide (target < 1024) && held (s.tilePart (16 * hub + target / 64))

/-- MARGIN_SWEEP_START (R213): the register is written and the sweep starts, or is refused; one sweep runs on a hub at a
time. -/
def execMarginSweepStart (who : Accessor) (hub v : Nat) (s : State) : Host.Outcome State Fault Refusal :=
  ok (who.wf && hubOk hub && v.testBit 14) s
    (if !s.reaches who HUB_MARGIN_CTL.TARGET hub 0 then s
     else
       let s1 := (((s.fset HUB_MARGIN_CTL.TARGET hub 0 v).fset HUB_MARGIN_CTL.TIER hub 0 (v / 2 ^ 12)).fset
         HUB_MARGIN_CTL.KIND hub 0 (v / 2 ^ 13)).fset HUB_MARGIN_CTL.STEPS hub 0 (v / 2 ^ 16)
       if Tbl.get 0 s.margin hub ≠ 0 then s1
       else if s.sweepTaken hub (v % 2 ^ 12) (v / 2 ^ 12 % 2) then
         (s1.fset HUB_MARGIN_RESULT.REFUSED hub 0 1).fset HUB_MARGIN_RESULT.DONE hub 0 1
       else (s1.withMargin (Tbl.put 0 s1.margin hub 1)))

/-- MARGIN_SWEEP_DONE (R213): the steps passed, at most STEPS in each direction, and the limiting lane. -/
def execMarginSweepDone (hub left right lane : Nat) (s : State) : Host.Outcome State Fault Refusal :=
  ok (hubOk hub) s
    (if Tbl.get 0 s.margin hub = 0 then s
     else
       let n := s.fget HUB_MARGIN_CTL.STEPS hub 0
       let s1 := (((s.fset HUB_MARGIN_RESULT.LEFT hub 0 (min left n)).fset HUB_MARGIN_RESULT.RIGHT hub 0
         (min right n)).fset HUB_MARGIN_LANE.LANE hub 0 lane).fset HUB_MARGIN_RESULT.DONE hub 0 1
       State.evt (s1.withMargin (Tbl.put 0 s1.margin hub 0)) HUB_MEM_EVENT.MARGIN_DONE hub 0 1 none)

/-! Raw mode (R279, R280). -/

/-- The place a raw operation names, and the class of its word; none where R280 refuses any operation. -/
def State.rawPlace (s : State) (hub cls tile : Nat) : Option Nat :=
  let o := s.fget ECC_RAW_ADDR.OFFSET hub 0
  if cls = 0 then
    let j := 16 * hub + tile
    if s.tileUsable j && decide (o < t0Size) then some (t0At j (o - o % 64)) else none
  else if cls = 1 then
    let c := s.fget ECC_RAW_ADDR.CHANNEL hub 0
    if c < 768 ∧ o < chanSize then some (t1At c (o - o % 64)) else none
  else if cls = 2 then (if o < 0x8000000 then some (llmAt hub (o - o % 8)) else none)
  else none

/-- The raw write's target belongs to a running partition (R280). -/
def State.rawTaken (s : State) (k : Nat) : Bool :=
  match s.ownerOf k with
  | some p => s.partRuns p
  | none => false

/-- The eight data registers take a word's bytes; last-level memory uses only the first. -/
def State.setRawData (s : State) (hub : Nat) (bs : List Byte) : State :=
  (List.range ((bs.length + 7) / 8)).foldl (fun t i =>
    t.fset ECC_RAW_DATA.DATA hub i (leNat ((bs.drop (8 * i)).take 8))) s

/-- The bytes that the data registers hold for a word of a class. -/
def State.rawData (s : State) (hub : Nat) (c : Cls) : List Byte :=
  ((List.range (c.word / 8)).map (fun i => natLE 8 (s.fget ECC_RAW_DATA.DATA hub i))).flatten

/-- The encoder's check bits of stored bytes of a class. -/
def Cls.encode (c : Cls) (bs : List Byte) : Nat :=
  match c with
  | .t0 | .t1p => rsCheck bs
  | .llm | .wse => secCheck (leNat bs)
  | .wsp => parityN 64 (leNat bs)
  | _ => 0

/-- The verdict's code in ECC_RAW_STATUS. -/
def verdCode : Verd → Nat
  | .clean => 0
  | .corrected _ => 1
  | .ue => 2
  | .poisoned => 3

/-- The verdict and syndrome of a raw read reach their registers. -/
def State.rawStatus (s : State) (hub w : Nat) : State :=
  ((s.fset ECC_RAW_STATUS.RESULT hub 0 (verdCode (s.verd w))).fset ECC_RAW_STATUS.POSITION hub 0
    (match s.verd w with
     | .corrected n => n
     | _ => 0xFF)).fset ECC_RAW_SYN.SYNDROME hub 0 ((s.cls w).syndrome (s.delta w))

/-- A raw operation: the register write, its refusals, the close of the block's merge entry, the operation, DONE. -/
def State.rawOp (s : State) (who : Accessor) (hub v : Nat) (write : Bool) (act : State → Nat → State) : State :=
  if !s.privileged who then s
  else
    let s1 := ((s.fset ECC_RAW_CTL.OP hub 0 v).fset ECC_RAW_CTL.CLASS hub 0 (v / 4)).fset ECC_RAW_CTL.TILE hub 0 (v / 16)
    let refuse := (s1.fset ECC_RAW_STATUS.REFUSED hub 0 1).fset ECC_RAW_STATUS.DONE hub 0 1
    match s1.rawPlace hub (v / 4 % 4) (v / 16 % 16) with
    | none => refuse
    | some w =>
      if write && s1.rawTaken w then refuse
      else (act (s1.closeBlock (w - w % 64)) w).fset ECC_RAW_STATUS.DONE hub 0 1

/-- READ_RAW (R279): the stored data and check bits, with the decoder's verdict. -/
def execReadRaw (who : Accessor) (hub v : Nat) (s : State) : Host.Outcome State Fault Refusal :=
  ok (rawOk who hub v 0) s
    (s.rawOp who hub v false (fun t w =>
      let bs := t.storedBytes w
      let check := if t.cls w = .t1c then 0 else (t.cls w).encode bs ^^^ t.delta w
      ((t.setRawData hub bs).fset ECC_RAW_CHECK.CHECK hub 0 check).rawStatus hub w))

/-- READ_CORRECTED (R279): the data as a demand read would deliver it, with the verdict. -/
def execReadCorrected (who : Accessor) (hub v : Nat) (s : State) : Host.Outcome State Fault Refusal :=
  ok (rawOk who hub v 1) s (s.rawOp who hub v false (fun t w => (t.setRawData hub (t.wordData w)).rawStatus hub w))

/-- WRITE_RAW (R279): data and check bits exactly as given; in computable class the data alone (R280). -/
def execWriteRaw (who : Accessor) (hub v : Nat) (s : State) : Host.Outcome State Fault Refusal :=
  ok (rawOk who hub v 2) s
    (s.rawOp who hub v true (fun t w =>
      let bs := t.rawData hub (t.cls w)
      let c := t.fget ECC_RAW_CHECK.CHECK hub 0
      let check := if t.cls w = .llm then c % 256 else c
      let t1 := t.storeClean w (t.plainBytes w bs)
      if t.cls w = .t1c then t1 else t1.setDelta w (check ^^^ (t.cls w).encode bs)))

/-- WRITE_ENCODED (R279): data with the encoder's check bits. -/
def execWriteEncoded (who : Accessor) (hub v : Nat) (s : State) : Host.Outcome State Fault Refusal :=
  ok (rawOk who hub v 3) s
    (s.rawOp who hub v true (fun t w => t.storeClean w (t.plainBytes w (t.rawData hub (t.cls w)))))

end Sys2Proof.Machine
end

