-- ==== Sys2Proof/Machine/Package.lean ====
section
/-!
DEFINITION. The board's side of the part (chapter 18): sequencing of the rails, power faults, regulator telemetry, the cable
connectors, BOARD_RST_N and loss of VAON.
-/

namespace Sys2Proof.Machine

/-! Rails (Table 18.4). -/

/-- The sequencing stage of a rail. -/
def railStage (r : Nat) : Nat :=
  if r < 16 ∨ r = 26 then 4
  else if r < 21 ∨ r = 27 then 1
  else if r = 22 ∨ r = 24 then 2
  else if r < 26 then 3
  else 0

/-- AVSBus segment and select of a rail; VAUX has none. -/
def railAvs (r : Nat) : Option (Nat × Nat) :=
  if r < 16 then some (r / 4, r % 4)
  else if r < 20 then some (r - 16, 4)
  else match r with
    | 20 => some (0, 5)
    | 21 => some (1, 5)
    | 22 => some (1, 6)
    | 23 => some (2, 5)
    | 24 => some (2, 6)
    | 25 => some (2, 7)
    | 26 => some (3, 5)
    | 27 => some (0, 6)
    | _ => none

/-- The rails of a stage. -/
def stageRails (n : Nat) : List Nat := (List.range 29).filter (fun r => railStage r == n)

/-- Every PG of a stage is asserted. -/
def State.stageGood (s : State) (n : Nat) : Bool := (stageRails n).all (fun r => s.fbit PKG_PG.PG 0 0 r)

/-- SEQ_EN[n] is asserted; the board brings up stage 0 on its own. -/
def State.enabled (s : State) (n : Nat) : Bool := n == 0 || s.fbit PKG_SEQ.EN 0 0 (n - 1)

/-- The PG inputs take a value; STAGE is the highest stage whose PGs are all asserted. -/
def State.setPgs (s : State) (pgs : Nat) : State :=
  let s1 := s.fset PKG_PG.PG 0 0 pgs
  s1.fset PKG_SEQ.STAGE 0 0 (((List.range 5).filter s1.stageGood).foldl max 0)

/-! Sequencing (R456 to R459). -/

/-- The highest asserted enable from a stage on falls; none is left to fall once that is the last. -/
def State.dropEnable (s : State) (low : Nat) : State :=
  match ([4, 3, 2, 1].filter (fun n => low ≤ n ∧ s.enabled n = true)) with
  | [] => (s.withPkg { s.pkg with down := none })
  | n :: _ =>
    let s1 := s.fbitSet PKG_SEQ.EN 0 0 (n - 1) false
    (s1.withPkg { s1.pkg with down := some (low, s.time), readyAt := none })

/-- Enables from a stage on begin to fall, latest first, 1 ms apart. -/
def State.powerDown (s : State) (low : Nat) : State :=
  let l := match s.pkg.down with
    | some (m, _) => min m (max 1 low)
    | none => max 1 low
  match s.pkg.down with
  | some (_, t) => (s.withPkg { s.pkg with down := some (l, t) })
  | none => s.dropEnable l

/-- The next stage to enable, if the sequencer may enable it: not while enables fall, in HOLD by POWER, after an orderly
power-down, or stage 4 during a trip. -/
def State.nextStage (s : State) : Option Nat :=
  if s.pkg.down.isSome || s.pkg.off || (s.phase == 15 && s.fget BOOT_STATUS.CAUSE 0 0 == 1) then none
  else match [1, 2, 3, 4].find? (fun n => !s.enabled n) with
    | some 4 => if s.pkg.trip then none else some 4
    | n => n

/-- The stage before `n` is complete: for stage 1, the always-on domain runs. -/
def State.stageReady (s : State) (n : Nat) : Bool := if n = 1 then s.boot.ao else s.stageGood (n - 1)

/-- SEQUENCE_STAGE (R456, R457, R459): 1 ms after the stage before is complete the next enable is asserted; enables that fall
do so 1 ms apart. -/
def execSequenceStage (pgs : Nat) (s : State) : Host.Outcome State Fault Refusal :=
  ok (decide (pgs < 2 ^ 29)) s
    (if !s.boot.vaon then s
     else
       let s1 := s.setPgs pgs
       match s1.pkg.down with
       | some (low, t) => if s.time ≥ t + 1000000 then s1.dropEnable low else s1
       | none =>
         match s1.nextStage with
         | none => s1
         | some n =>
           if !s1.stageReady n then (s1.withPkg { s1.pkg with readyAt := none })
           else
             let t := if n = 1 then s.boot.aoAt else s1.pkg.readyAt.getD s.time
             if s.time ≥ t + 1000000 then
               let s2 := s1.fbitSet PKG_SEQ.EN 0 0 (n - 1) true
               (s2.withPkg { s2.pkg with enAt := s.time, readyAt := none })
             else (s1.withPkg { s1.pkg with readyAt := some t }))

/-- PG_TIMEOUT (R456): a PG that has not asserted within 10 ms of its stage's enable ends bring-up in HOLD with POWER. -/
def execPgTimeout (rail : Nat) (s : State) : Host.Outcome State Fault Refusal :=
  ok (decide (rail < 29)) s
    (let n := railStage rail
     if n == 0 || !s.enabled n || s.enabled (n + 1) && n != 4 || s.fbit PKG_PG.PG 0 0 rail ||
        decide (s.time < s.pkg.enAt + 10000000) || s.phase == 15 || s.isReady then s
     else s.enterHold 0x01)

/-! Power faults (R433, R459, R469). -/

/-- The rails of a mask whose PG drop is a fault: it was asserted, its stage is enabled, and no trip stands. -/
def State.faultRails (s : State) (rails : Nat) : List Nat :=
  (List.range 29).filter (fun r =>
    rails.testBit r && s.fbit PKG_PG.PG 0 0 r && s.enabled (railStage r) && !s.pkg.trip && decide (s.phase > 3))

/-- The PG inputs without those of a mask. -/
def State.pgsWithout (s : State) (rails : Nat) : Nat :=
  (List.range 29).foldl (fun m r => if rails.testBit r then setBit m r false else m) (s.fget PKG_PG.PG 0 0)

/-- POWER_FAULT (R433, R459): one record for the lowest rail; the part stops and is in HOLD with POWER; the enables fall from
the lowest faulted stage, latest first. With stage 1 gone the host ports no longer answer. -/
def execPowerFault (rails : Nat) (s : State) : Host.Outcome State Fault Refusal :=
  ok (decide (rails < 2 ^ 29)) s
    (let s0 := s.setPgs (s.pgsWithout rails)
     match s.faultRails rails with
     | [] => s0
     | r :: rs =>
       let low := (rs.map railStage).foldl min (railStage r)
       let s1 := (s0.fset PKG_SEQ.FAULT 0 0 1).fset PKG_SEQ.FAULT_RAIL 0 0 r
       let s2 := match railAvs r with
         | some (g, _) => s1.powerRec 0x67 3 0 r g
         | none => (s1.draw).powerRec 0x67 3 0 r (leNat (s1.freeBytes 8))
       let s3 := (s2.tripStop 4 0 0x01).powerDown low
       if low ≤ 1 then (s3.withPkg { s3.pkg with hostUp := [0, 0], hostGen := [0, 0] }) else s3)

/-! AVSBus (R434, R460, R461). -/

/-- Retries are counted; after four failed attempts the segment is marked failed (AVS_FAILURE). -/
def State.avs (s : State) (seg sel fails : Nat) (good : State → State) : State :=
  let s1 := s.fcountN PKG_AVS_STATUS.RETRIES 0 0 (min fails 3)
  if fails < 4 then good s1
  else
    let s2 := s1.fbitSet PKG_AVS_STATUS.SEG_OK 0 0 seg false
    (State.evt (s2.withPkg { s2.pkg with segBad := setBit s2.pkg.segBad seg true }) PKG_AVS_STATUS.SEG_FAIL 0 0 (2 ^ seg)
      none).powerRec 0x73 4 0 seg sel

/-- The segment is in service. -/
def State.segGood (s : State) (seg : Nat) : State :=
  let s1 := s.fbitSet PKG_AVS_STATUS.SEG_OK 0 0 seg true
  (s1.withPkg { s1.pkg with segBad := setBit s1.pkg.segBad seg false })

/-- POWER_TELEMETRY (R434, R460): the readings of one rail into PKG_RAIL. A failed segment is not read. -/
def execPowerTelemetry (rail mv da dw temp fails : Nat) (s : State) : Host.Outcome State Fault Refusal :=
  ok (decide (rail < 28)) s
    (match railAvs rail with
     | none => s
     | some (g, x) =>
       if !s.boot.mgmtUp || s.pkg.segBad.testBit g || !s.enabled (railStage rail) then s
       else s.avs g x fails (fun t =>
         let t1 := (((t.segGood g).fset PKG_RAIL.V_MV 0 rail mv).fset PKG_RAIL.I_DA 0 rail da)
         let t2 := (t1.fset PKG_RAIL.P_DW 0 rail dw).fset PKG_RAIL.VR_TEMP 0 rail temp
         (t2.withPkg { t2.pkg with railAt := Tbl.put none t2.pkg.railAt rail (some t.time) })))

/-- AVS_STATUS_POLL (R461): a status read of a failed segment; one that succeeds returns it to service. -/
def execAvsStatusPoll (seg sel fails : Nat) (s : State) : Host.Outcome State Fault Refusal :=
  ok (decide (seg < 4)) s
    (if !s.boot.mgmtUp || !s.pkg.segBad.testBit seg then s else s.avs seg sel fails (fun t => t.segGood seg))

/-! Cables (R465, R469). -/

/-- CABLE_CHANGE (R465): the presence inputs; a link whose cable is gone goes down. -/
def execCableChange (prsnt : Nat) (s : State) : Host.Outcome State Fault Refusal :=
  ok (decide (prsnt < 2 ^ 16)) s
    (if !s.boot.ao then s
     else
       let diff := s.fget PKG_CABLE.PRSNT 0 0 ^^^ prsnt
       let s1 := (s.fset PKG_CABLE.PRSNT 0 0 prsnt).evt PKG_CABLE.CHANGED 0 0 diff none
       (List.range 16).foldl (fun t p => if diff.testBit p && !prsnt.testBit p && t.linkUp p then t.linkLost p else t) s1)

/-! Loss of VAON (R403, R446, R454, R457). -/

/-- What loss of VAON leaves: the calendar with VBAT's registers, the fuses, the boot flash (saved settings, firmware slots
and which boots next, the extension table, the log), the key store, and host memory. Everything else is as at reset. -/
def State.vaonLoss (s : State) : State :=
  State.fset ((((((((State.reset.withCalendar s.calendar).withCalPhase s.calPhase).withFree s.free).withRegs (s.regs.filter (fun (k, _) => match regAt (k / 64) with
      | some (d, _, _) => d.owner == .vbat
      | none => false))).withMem (s.mem.filter (fun (k, _) => decide (2 ^ 64 ≤ k)))).withFuses s.fuses).withBoot { State.reset.boot with saved := s.boot.saved, savedTaps := s.boot.savedTaps }).withMgmt { State.reset.mgmt with
      slotVer := s.mgmt.slotVer, keySlots := s.mgmt.keySlots, flash := s.mgmt.flash, logSeq := s.mgmt.logSeq
      oscStopped := s.mgmt.oscStopped, calLost := s.mgmt.calLost }) MGMT_STATUS.NEXT_SLOT 0 0 (s.fget MGMT_STATUS.NEXT_SLOT 0 0)

/-- BOARD_RESET (R454, R457, R469): as a loss of VAON for everything but the calendar clock, while VAON stays valid: bring-up
begins again. The enables that are asserted fall in order. -/
def execBoardReset (s : State) : Host.Outcome State Fault Refusal :=
  ok true s
    (if !s.boot.vaon then s
     else
       let t := s.vaonLoss
       let u : State := ((t.withBoot { t.boot with vaon := true }).withPkg { t.pkg with perst := s.pkg.perst })
       let v := ((u.setPgs (s.fget PKG_PG.PG 0 0)).fset PKG_SEQ.EN 0 0 (s.fget PKG_SEQ.EN 0 0)).fset PKG_CABLE.PRSNT 0 0
         (s.fget PKG_CABLE.PRSNT 0 0)
       (v.toPhase 1).powerDown 1)

/-- POWER_DOWN (R457): management begins an orderly power-down: everything stops, and the enables fall from stage 4 to 1. -/
def execPowerDown (s : State) : Host.Outcome State Fault Refusal :=
  ok true s
    (if !s.boot.vaon then s
     else
       let s1 := s.stopWork.tilesOff
       State.powerDown ((s1.withHalted true).withPkg { s1.pkg with off := true }) 1)

end Sys2Proof.Machine
end

