-- ==== Sys2Proof/Machine/Manage.lean ====
section
/-!
DEFINITION. The management complex's commands (chapter 19): MCTP, PLDM and SPDM, firmware update, the log, privilege, debug, the
random source, the calendar clock, and loss of VAON.
-/

namespace Sys2Proof.Machine

/-! Messages (R471, R472, R480, R493). -/

/-- A message arrives and is handled: over I3C and SMBus from phase 1 on, over a host port once phase 3 has ended and while its
link is up; one on PF1 raises its vector 0. DOE carries SPDM only; under cause MGMT the recovery firmware answers only what
`basic` marks: MCTP control and PLDM types 0 and 5. -/
def State.message (s : State) (via : Transport) (basic spdm : Bool) (f : State → State) : State :=
  let open_ := s.boot.vaon && (basic || s.fget MGMT_STATUS.RECOVERY 0 0 == 0)
  match via with
  | .i3c | .smbus => if open_ then f s else s
  | .pf1 p =>
    if s.boot.mgmtUp && s.pkg.hostUp.getD p 0 != 0 then
      (let s1 := s.raise1 p 1 0
       if open_ then f s1 else s1)
    else s
  | .doe p => if s.boot.mgmtUp && s.pkg.hostUp.getD p 0 != 0 && spdm && open_ then f s else s

/-- A vendor command that is refused (R480): completion code 0x02. -/
def State.refuse2 (s : State) : State := s.answer .refused (natLE 1 2)

/-- SET_ENDPOINT_ID (R471): one endpoint ID for the whole part. -/
def execSetEndpointId (via : Transport) (eid : Nat) (s : State) : Host.Outcome State Fault Refusal :=
  ok (Transport.ok via && decide (eid < 256)) s (s.message via true false (fun t =>
    State.answer (t.withMgmt { t.mgmt with eid := eid }) .ok []))

/-! Monitoring (R473). -/

/-- What a sensor of Table 19.2 reports, in the units of its register field: none where there is no such sensor, no bytes where
its source is invalid. -/
def State.reading (s : State) (n : Nat) : Option (List Byte) :=
  let num (v : Nat) : Option (List Byte) := some (natLE 8 v)
  if n = 1 then num (s.fget PWR_TEMP_MAX.LOGIC 0 0)
  else if n = 2 then num (s.fget PWR_TEMP_MAX.BONDED 0 0)
  else if n = 3 then num (s.fget PWR_TEMP_MAX.STACKS 0 0)
  else if 16 ≤ n ∧ n < 32 then num (s.fget PWR_TEMP_TOWER.LOGIC 0 (n - 16))
  else if n = 32 then num (s.fget PWR_CAP_STATUS.POWER_W 0 0)
  else if n = 33 then num (s.fget PWR_CAP_STATUS.CAP_W 0 0)
  else if n = 34 then num (s.fget PWR_RTH.EST 0 0)
  else if n = 35 then (if s.fget PWR_COOLANT.INLET_VALID 0 0 = 1 then num (s.fget PWR_COOLANT.INLET 0 0) else some [])
  else if n = 36 then num (s.fget PWR_COOLANT.FLOW 0 0)
  else if 64 ≤ n ∧ n ≤ 92 then
    (let r := n - 64
     if s.fview PKG_RAIL.VALID 0 r = 1 then
       some (natLE 2 (s.fget PKG_RAIL.V_MV 0 r) ++ natLE 2 (s.fget PKG_RAIL.I_DA 0 r) ++ natLE 2 (s.fget PKG_RAIL.P_DW 0 r))
     else some [])
  else if n = 128 then num (if s.phase = 15 then 3 else s.fget PWR_STATE_STATUS.STATE 0 0)
  else if n = 129 then num (if s.phase = 15 then s.fget BOOT_STATUS.CAUSE 0 0 else s.phase)
  else if n = 130 then
    num (if s.pkg.trip then 4 else if s.power.rateTrip then 3 else if s.power.throttled != [] then 2
      else if s.power.warned != [] then 1 else 0)
  else if n = 131 then num (s.fget RTC_CTL.TIME_INVALID 0 0)
  else none

/-- GET_SENSOR_READING (R473): a reading, or the state unavailable; the repository is there once phase 3 has ended. -/
def execGetSensorReading (via : Transport) (sensor : Nat) (s : State) : Host.Outcome State Fault Refusal :=
  ok (Transport.ok via) s (s.message via false false (fun t =>
    match (if t.boot.mgmtUp then t.reading sensor else none) with
    | none => t.answer .refused []
    | some [] => t.answer .notReady []
    | some bs => t.answer .ok bs))

/-- SET_EVENT_RECEIVER (R473). -/
def execSetEventReceiver (via : Transport) (eid : Nat) (s : State) : Host.Outcome State Fault Refusal :=
  ok (Transport.ok via && decide (eid < 256)) s (s.message via false false (fun t =>
    State.answer (t.withMgmt { t.mgmt with receiver := some eid }) .ok []))

/-! Firmware update (R476 to R478). -/

/-- REQUEST_UPDATE (R476): one update at a time. -/
def execRequestUpdate (via : Transport) (eid : Nat) (s : State) : Host.Outcome State Fault Refusal :=
  ok (Transport.ok via && decide (eid < 256)) s (s.message via true false (fun t =>
    if t.mgmt.update.isSome then t.answer .refused []
    else
      let t1 := (t.withMgmt { t.mgmt with update := some eid, comps := [], staging := false })
      (State.fset t1 MGMT_STATUS.UPDATE_OPEN 0 0 1).answer .ok []))

/-- The rules of R478 for a new extension table: the present entries, unchanged and in order, and at most 1,024 in all. -/
def Fuses.extends (f : Fuses) (table : List Nat) : Bool :=
  let old := if f.extCrcOk then f.ext else []
  table.take old.length == old && decide (table.length ≤ 1024)

/-- A component that has been verified as a whole. -/
def State.compDone (s : State) (comp : Nat) (good : Bool) (version : Nat) (table : List Nat) : State :=
  let s1 : State := (s.withMgmt { s.mgmt with staging := false })
  if comp = 1 then
    (if !good then (s1.mgmtRec 1 1 2).answer .abort []
     else
       let slot := 1 - s1.fget MGMT_STATUS.RUN_SLOT 0 0
       (State.mgmtRec (s1.withMgmt { s1.mgmt with slotVer := s1.mgmt.slotVer.set slot version, comps := s1.mgmt.comps ++ [1] })
         1 1 0).answer .ok [])
  else if !good || !s1.fuses.extends table then (s1.mgmtRec 1 2 2).answer .abort []
  else
    ((State.mgmtRec ((s1.withFuses { s1.fuses with ext := table, extCrcOk := true }).withMgmt { s1.mgmt with comps := s1.mgmt.comps ++ [2] }) 1 2 0).mgmtRec 1 2 1).answer .ok []

/-- FIRMWARE_COMPONENT (R476, R478): a component is staged, or its verification ends. The extension table is taken only in HOLD
or in phase 6. A new table takes effect at the next part reset, new firmware at a management restart. -/
def execFirmwareComponent (via : Transport) (comp : Nat) (verified : Option Bool) (version : Nat) (table : List Nat) (s : State) :
    Host.Outcome State Fault Refusal :=
  ok (Transport.ok via) s (s.message via true false (fun t =>
    if t.mgmt.update.isNone || !(comp == 1 || comp == 2 && (t.phase == 15 || t.phase == 6)) then t.answer .refused []
    else match verified with
      | none => State.answer (t.withMgmt { t.mgmt with staging := true }) .ok []
      | some good => t.compDone comp good version table))

/-- ACTIVATE_FIRMWARE (R477, Table 19.9): NEXT_SLOT becomes the verified slot, and the update closes; self-contained in HOLD,
management restarts at once: phase 3 runs again, with the part held. Elsewhere the estimated time is 0xFFFF. -/
def execActivateFirmware (via : Transport) (selfContained : Bool) (s : State) : Host.Outcome State Fault Refusal :=
  ok (Transport.ok via) s (s.message via true false (fun t =>
    if t.mgmt.update.isNone || t.mgmt.staging then t.answer .refused []
    else
      let t1 := if t.mgmt.comps.contains 1 then
          (t.fset MGMT_STATUS.NEXT_SLOT 0 0 (1 - t.fget MGMT_STATUS.RUN_SLOT 0 0)).mgmtRec 1 1 1
        else t
      let t2 : State := State.fset (t1.withMgmt { t1.mgmt with update := none, comps := [] }) MGMT_STATUS.UPDATE_OPEN 0 0 0
      if selfContained && t2.phase == 15 then
        (State.toPhase (t2.withBoot { t2.boot with mgmtUp := false, restarting := true }) 3).answer .ok (natLE 2 0)
      else t2.answer .ok (natLE 2 0xFFFF)))

/-! The log (R480, R481). -/

/-- The 128 B of a log entry (Table 19.6). -/
def LogEnt.bytes (e : LogEnt) : List Byte :=
  let b := natLE 8 e.secs ++ natLE 2 (e.frac % 32768 + 32768 * bit e.timeInvalid) ++ natLE 1 e.hub ++ natLE 1 0 ++ natLE 4 e.seq ++
    e.body.bytes ++ natLE 44 0
  b ++ natLE 4 (crc32c b)

/-- The entries of the log, oldest first: those in flash, and those that wait for it. -/
def Mgmt.entries (m : Mgmt) : List LogEnt := m.flash ++ m.buffered

/-- LOG_INFO (R480): the oldest and the newest sequence number, which the spec does not state for an empty log, and the entries
lost. -/
def execLogInfo (via : Transport) (s : State) : Host.Outcome State Fault Refusal :=
  ok (Transport.ok via) s (s.message via false false (fun t =>
    let lost := natLE 4 (t.fget MGMT_LOG_STATUS.LOST 0 0)
    match t.mgmt.entries, t.mgmt.entries.getLast? with
    | a :: _, some b => t.answer .ok (natLE 4 a.seq ++ natLE 4 b.seq ++ lost)
    | _, _ => (t.draw).answer .ok (t.freeBytes 8 ++ lost)))

/-- LOG_READ (R480): up to seven entries from a sequence number on, one on SMBus; refused for one older than the oldest. -/
def execLogRead (via : Transport) (first n : Nat) (s : State) : Host.Outcome State Fault Refusal :=
  ok (Transport.ok via) s (s.message via false false (fun t =>
    let l := t.mgmt.entries
    let old := match l with
      | a :: _ => decide (first < a.seq)
      | [] => false
    if n = 0 ∨ n > 7 ∨ old = true then t.refuse2
    else t.answer .ok (((l.filter (fun e => decide (first ≤ e.seq))).take (if via = .smbus then 1 else n)).flatMap LogEnt.bytes)))

/-- LOG_CLEAR (R480, R481): the ring is emptied, and the sequence numbers run on; refused in Run with a partition running. -/
def execLogClear (via : Transport) (s : State) : Host.Outcome State Fault Refusal :=
  ok (Transport.ok via) s (s.message via false false (fun t =>
    if t.phase != 15 && t.fget PWR_STATE_STATUS.STATE 0 0 == 0 && (List.range 16).any (fun p => t.partStatus p == 1) then t.refuse2
    else State.answer (t.withMgmt { t.mgmt with flash := [] }) .ok []))

/-! Time and privilege (R479, R480, R490). -/

/-- The calendar takes a value at its next tick; a later set wins (Table 19.9). -/
def State.armTime (s : State) (secs : Nat) : State := (s.withMgmt { s.mgmt with setArmed := some (secs % 2 ^ 64) })

/-- TIME_SET (R490). -/
def execTimeSet (via : Transport) (secs : Nat) (s : State) : Host.Outcome State Fault Refusal :=
  ok (Transport.ok via) s (s.message via false false (fun t => (t.armTime secs).answer .ok []))

/-- SET_PRIV (R479, R480). -/
def execSetPriv (via : Transport) (v : Nat) (s : State) : Host.Outcome State Fault Refusal :=
  ok (Transport.ok via) s (s.message via false false (fun t => if v > 1 then t.refuse2 else (t.setPriv v 1).answer .ok []))

/-! Debug (R489). -/

/-- DEBUG_UNLOCK (R489): in HOLD, with a good token: every partition key is destroyed, measurement 7 changes, the record is
written, the port opens. -/
def execDebugUnlock (via : Transport) (key : Nat) (good : Bool) (s : State) : Host.Outcome State Fault Refusal :=
  ok (Transport.ok via) s (s.message via false false (fun t =>
    if t.phase ≠ 15 ∨ good = false then t.refuse2
    else
      let t1 := (State.fset (t.withMgmt { t.mgmt with keys := [] }) SEC_ENC_STATUS.KEYED 0 0 0).fset MGMT_STATUS.DEBUG_OPEN 0 0 1
      (t1.mgmtRec 4 key 0).answer .ok []))

/-- 64 bits of the random source at draw `k`: 0 while it is stopped (R487, R488). -/
def State.random (s : State) (k : Nat) : Nat :=
  if s.fget SEC_RNG_STATUS.VALID 0 0 = 1 then (Config.random64 k).toNat else 0

/-- DEBUG_CHALLENGE_READ (R489): a read of index 0 draws a new challenge of 32 B. -/
def execDebugChallengeRead (who : Accessor) (s : State) : Host.Outcome State Fault Refusal :=
  ok who.wf s
    (if !s.reaches who MGMT_DBG_CHALLENGE.CHALLENGE 0 0 then s.answer .ok (natLE 4 0)
     else
       let w (i : Nat) : Nat := s.random (s.free + i / 2) / 2 ^ (32 * (i % 2)) % 2 ^ 32
       let s1 := (List.range 8).foldl (fun t i => t.fset MGMT_DBG_CHALLENGE.CHALLENGE 0 i (w i)) s
       State.answer (s1.withFree (s.free + 4)) .ok (natLE 4 (w 0)))

/-! The random source (R487, R488). -/

/-- SEC_RNG_READ (R487): 64 fresh bits, or 0 while the source is stopped. -/
def execSecRngRead (who : Accessor) (s : State) : Host.Outcome State Fault Refusal :=
  ok who.wf s
    (if !s.reaches who SEC_RNG.VALUE 0 0 then s.answer .ok (natLE 8 0)
     else (s.draw).answer .ok (natLE 8 (s.random s.free)))

/-- RNG_HEALTH_FAIL (R488): 1 repetition count, 2 adaptive proportion, 3 start-up: the source stops until the next management
restart. -/
def execRngHealthFail (test : Nat) (s : State) : Host.Outcome State Fault Refusal :=
  ok (decide (1 ≤ test) && decide (test ≤ 3)) s
    (if s.fget SEC_RNG_STATUS.VALID 0 0 = 0 then s
     else ((s.fset SEC_RNG_STATUS.VALID 0 0 0).fset SEC_RNG_STATUS.FAILED_TEST 0 0 test).mgmtRec 3 test 0)

/-! Attestation (R484). -/

/-- A measurement block (Table 19.8). -/
def State.measurement (s : State) (n : Nat) : Option (List Byte) :=
  let digest (v : BitVec 384) : Option (List Byte) := some (natLE 48 v.toNat)
  match n with
  | 1 => digest (Config.measure 1 0)
  | 2 => digest (Config.measure 2 (s.mgmt.slotVer.getD (s.fget MGMT_STATUS.RUN_SLOT 0 0) 0))
  | 3 => digest (Config.measure 3 0)
  | 4 => digest (Config.sha384 (s.mgmt.extApplied.flatMap (natLE 8)))
  | 5 => digest (Config.sha384 s.mgmt.imgMsg)
  | 6 => digest (Config.measure 6 s.mgmt.imgKey)
  | 7 => digest (Config.sha384 (natLE 1 (s.fget MGMT_STATUS.DEBUG_OPEN 0 0)))
  | n =>
    if 16 ≤ n ∧ n < 32 then
      (match Tbl.get [] s.mgmt.partMsg (n - 16) with
       | [] => some (natLE 48 0)
       | m => digest (Config.sha384 m))
    else none

/-- The request needs a nonce or a signature (R488). -/
def Spdm.needsRandom : Spdm → Bool
  | .challenge => true
  | .measurements _ signed => signed
  | _ => false

/-- SPDM_REQUEST (R484, R488): measurements are answered; KEY_EXCHANGE and PSK_EXCHANGE are not supported; without the random
source, what needs it is answered with the error Unspecified. Other answers' bytes are the standard's and are not held. -/
def execSpdmRequest (via : Transport) (rq : Spdm) (s : State) : Host.Outcome State Fault Refusal :=
  ok (Transport.ok via) s (s.message via false true (fun t =>
    if Spdm.needsRandom rq && t.fget SEC_RNG_STATUS.VALID 0 0 == 0 then t.answer .abort []
    else match rq with
      | .keyExchange | .pskExchange => t.answer .refused []
      | .measurements i signed =>
        (match t.measurement i with
         | some bs => (if signed then t.draw else t).answer .ok bs
         | none => t.answer .refused [])
      | .challenge => (t.draw).answer .ok []
      | _ => t.answer .ok []))

/-! The calendar clock (R464, R490, R491). -/

/-- RTC_SECONDS_READ (R490): the seconds; the fraction is latched. -/
def execRtcSecondsRead (who : Accessor) (s : State) : Host.Outcome State Fault Refusal :=
  ok who.wf s
    (if !s.reaches who RTC_SECONDS.SECONDS 0 0 then s.answer .ok (natLE 8 0)
     else (s.fset RTC_FRAC.FRACTION 0 0 (s.calendar % 32768)).answer .ok (natLE 8 (s.calendar / 32768)))

/-- RTC_SET (R490): RTC_CTL.SET arms the count. -/
def execRtcSet (who : Accessor) (s : State) : Host.Outcome State Fault Refusal :=
  ok who.wf s
    (if s.privileged who && s.reaches who RTC_CTL.SET 0 0 then s.armTime (s.fget RTC_SET_SEC.SECONDS 0 0) else s)

/-- RTC_SET_APPLY (R490, R491): the next tick: the count takes the value with fraction 0, and TIME_INVALID clears. -/
def execRtcSetApply (s : State) : Host.Outcome State Fault Refusal :=
  ok true s
    (match s.mgmt.setArmed with
     | none => s
     | some v => State.fset (((s.withCalendar (32768 * v)).withCalPhase 0).withMgmt { s.mgmt with setArmed := none, oscStopped := false, calLost := false }) RTC_CTL.TIME_INVALID 0 0 0)

/-- RTC_OSC_STOP (R491): the count is not valid; it restarts from 0 at VAON valid. The record is written where management
runs. -/
def execRtcOscStop (s : State) : Host.Outcome State Fault Refusal :=
  ok true s
    (let s1 := State.fset (s.withMgmt { s.mgmt with oscStopped := true, calLost := true }) RTC_CTL.TIME_INVALID 0 0 1
     if s.boot.vaon then s1.mgmtRec 2 (s.time / 1000000000) 0 else s1)

/-- VAON_LOSS (R333, R446): the part is Off. -/
def execVaonLoss (s : State) : Host.Outcome State Fault Refusal := ok true s (if s.boot.vaon then s.vaonLoss else s)

/-- VBAT_LOW (R464, R491): without VAON, the count is lost. -/
def execVbatLow (s : State) : Host.Outcome State Fault Refusal :=
  ok true s
    (if s.boot.vaon then s
     else State.fset (((s.withCalendar 0).withCalPhase 0).withMgmt { s.mgmt with calLost := true }) RTC_CTL.TIME_INVALID 0 0 1)

end Sys2Proof.Machine
end

