-- ==== Sys2Proof/Machine/Scrub.lean ====
section
/-!
DEFINITION. The patrol scrub (R271, R272), and reads of memory together with what an uncorrectable word of a hub's
configuration tables does (R264, R277).
-/

namespace Sys2Proof.Machine

/-! The configuration tables (R277). -/

/-- The places above every memory place: the words of the hubs' SEC-DED tables (assumption 30). -/
def configBase : Nat := 2 ^ 70

/-- The place of the word that holds entry `n` of table `t` of a hub: 0 windows, 1 channel lists, 2 protection map,
3 accounts. -/
def configAt (h t n : Nat) : Nat := configBase + h * 2 ^ 32 + t * 2 ^ 16 + n

/-- An uncorrectable word of a table: the record, and the part stops in HOLD (R277, Table 16.11). The packing of table and entry in INFO0 is not
given: a free value. -/
def State.configUe (s : State) (h : Nat) : State :=
  let s1 := (s.draw.record h { cause := 0x0E, sev := 3, pos := 0xFFFF, info0 := leNat (s.freeBytes 8) })
  State.enterHold (s1.withHalted true) 0x0C

/-- An upset of a table word (SEC-DED) met by an access of SOURCE `src`: a correction is written back and tallied as LLM. -/
def State.configUpset (s : State) (src : Nat) (u : Upset) : State :=
  let h := (u.key - configBase) / 2 ^ 32
  match secDecode (secCheck u.data ^^^ u.chk) with
  | .clean => s
  | .corrected n => s.tallyAdd h 2
      { cause := 0x0B, src := src, syn := Cls.llm.syndrome (secCheck u.data ^^^ u.chk), pos := n, info0 := 2, info1 := 0x0E }
  | _ => s.configUe h

/-- Upsets met by a command whose access has SOURCE `src`: of memory words, of table words, and of semaphores' words, which then read uncorrectable
(assumption 65). -/
def State.meet (s : State) (src : Nat) (us : List Upset) : State :=
  us.foldl (fun t u =>
    if semBase ≤ u.key then (if u.key < semAt 16 0 0 then t.setDelta u.key 1 else t)
    else if configBase ≤ u.key then (if hubOk ((u.key - configBase) / 2 ^ 32) then t.configUpset src u else t)
    else t.upset u) s

/-- MEMORY_READ (R264): a read request is checked at ingress and served. -/
def execMemoryRead (rq : Req) (ups : List Upset) (s : State) : Host.Outcome State Fault Refusal :=
  ok rq.wf s ((s.meet (srcRec rq.src) ups).ingress rq false .read [] false (fun t r ps => t.serveRead r ps))

/-! The patrol scrub. -/

/-- The scrub reads a word of a correcting class: corrected and tallied as by a demand read, or poisoned with a SCRUB_UE
record (R271); an open merge entry of its block closes first (R268). -/
def State.scrubWord (s : State) (w : Nat) : State :=
  let t := s.closeBlock (w - w % 64)
  let p := t.ownerOf w
  let t1 := match t.verd w with
    | .ue => t.record (t.whereIs w).1 (t.wordRec w 0x0C 1 10 p ((t.cls w).tally.getD 0) 0)
    | _ => t
  t1.readWord 10 p w

/-- The scrub reads a 512 B granule of T1C memory: an on-die uncorrectable error is recorded (R272). -/
def State.scrubGranule (s : State) (k : Nat) : State :=
  match (wordsOf .t1c k 512).find? s.bad with
  | some w => s.badRecord 10 (s.ownerOf w) 1 {} w
  | none => s

/-- The step that verifies a page (R223). -/
def State.verifyStep (s : State) (pg : Nat) : Step :=
  let e := s.led pg
  { op := 2, part := e.part, chan := e.chan, frame := e.frame, page := pg, layer := s.hdrLayer pg, pending := false
    segTest := false, row0 := 0, rows := 0, head0 := 0, heads := 0, group := 0, geom := s.geomOf e.part (s.hdrLayer pg), n := 0
    window := 0, scaleC := 0, qfmt := 0, pendFirst := 0, tag := s.stepNo % 65536, qOff := 0, tabOff := 0, qs := [], tab := [], tile := 64, level := 0, thread := 0, sess := 0, index := 0
    handle := 0, queued := s.time }

/-- The scrub visits a frame: a committed page is pinned and verified, and nothing else in frames is scrubbed (R272). None
while the pin is held. -/
def State.scrubFrame (s : State) (pg : Nat) : Option State :=
  let e := s.led pg
  if s.ledBad pg || !e.valid || e.pending then some s
  else
    match s.pin pg with
    | (t, .ok) => some ((t.withThapWait (t.thapWait ++ [t.verifyStep pg])).withStepNo (t.stepNo + 1))
    | (t, .dropped) => some t
    | (_, .held) => none

/-- The units of a hub's memory, as the places where they begin, in order, and the words (for T1C, granules) of each: tier-0
slices, protected channels, the last-level memory, SEC-DED regions, computable channels. -/
def State.scrubUnits (s : State) (h mem : Nat) : List Nat × Nat :=
  let chans := (List.range 192).map (· + 192 * h)
  match mem with
  | 0 => ((List.range 16).map (fun i => t0At (h * 16 + i) 0), t0Size / 64)
  | 1 => ((chans.filter (fun c => !s.chanComputable c)).map (fun c => t1At c 0), chanSize / 64)
  | 2 => ([llmAt h 0], 0x8000000 / 8)
  | 3 => (((List.range 16).flatMap (fun i =>
      ((List.range 12).filter (fun r => s.regionEcc (h * 16 + i) r)).map (fun r => wsAt (h * 16 + i) (r * 2 ^ 20)))), 2 ^ 17)
  | _ => ((chans.filter s.chanComputable).map (fun c => t1At c 0), chanSize / 512)

/-- Bytes that one scrub read covers. -/
def scrubStride (mem : Nat) : Nat := if mem ≤ 1 then 64 else if mem ≤ 3 then 8 else 512

/-- The scrub of a memory stands at place `k`, or at its start if `k` is not in it: the place of the next read. -/
def nextScrub (us : List Nat) (bytes k : Nat) : Option Nat :=
  if us.any (fun b => decide (b ≤ k) && decide (k < b + bytes)) then some k
  else match us.find? (fun b => decide (k ≤ b)) with
    | some b => some b
    | none => us.head?

/-- The key of a scrub's position: the place of its next read; 7: the memories whose pass is complete. -/
def scrubKey (h mem : Nat) : Nat := h * 8 + mem

/-- The scrub of a memory goes on to place `k`; past the last unit its pass is complete, and with that of every memory of
the hub PASSES advances (R271, Table 10.16). A memory with no unit is always complete. -/
def State.scrubTo (s : State) (h mem : Nat) (us : List Nat) (bytes k : Nat) : State :=
  if us.any (fun b => decide (k < b + bytes)) then (s.withScrub (Tbl.put 0 s.scrub (scrubKey h mem) k))
  else
    let done := setBit (Tbl.get 0 s.scrub (scrubKey h 7)) mem true
    let all := (List.range 5).all (fun m => done.testBit m || (s.scrubUnits h m).1 == [])
    let s1 := (s.withScrub (Tbl.put 0 (Tbl.put 0 s.scrub (scrubKey h mem) 0) (scrubKey h 7) (if all then 0 else done)))
    if all then s1.fwrap ERR_SCRUB_STATUS.PASSES h 0 else s1

/-- The scrub at place `k`, `l` bytes into channel `c`: the whole frame of a page that begins there, or a granule of a channel
in memory mode. -/
def State.scrubChan (s : State) (c l k : Nat) : Option (State × Nat) :=
  match s.frameOf c l with
  | some f =>
    let size := s.frameSize (fld (Tbl.get 0 s.img.pools c) 2 1)
    (s.scrubFrame (s.pageNo c f)).map (fun t => (t, t1At c ((f + 1) * size)))
  | none => if (Tbl.get {} s.chans c).mode = .memory then some (s.scrubGranule k, k + 512) else none

/-- The scrub's read at place `k` of a memory, and the place it goes on to: none while it must wait for a channel that is
not in memory mode, or for a pin. -/
def State.scrubRead (s : State) (mem k : Nat) : Option (State × Nat) :=
  if mem < 4 then some (s.scrubWord k, k + scrubStride mem)
  else s.scrubChan ((k - 2 ^ 40) / chanSize) ((k - 2 ^ 40) % chanSize) k

/-- The band that sets the period of a scrub at place `k` (Table 10.5): of the tower's bonded layers for tier 0, of the stack
for a protected channel. -/
def State.scrubBand (s : State) (h mem k : Nat) : Nat :=
  match mem with
  | 0 => s.fgetAt HUB_BAND.STACK0 h 0 (2 * (6 + k / 2 ^ 33 % 16 / 4))
  | 1 => s.fgetAt HUB_BAND.STACK0 h 0 (2 * ((k - 2 ^ 40) / chanSize % 192 / 32))
  | _ => 0

/-- How long a scrub that covers `n` of a memory's `all` bytes takes, in ns, for an even pass (R271, Table 10.5). -/
def State.scrubTime (s : State) (h mem k n all : Nat) : Nat :=
  s.fget ERR_SCRUB_CTL.PERIOD_H h 0 * 3600000000000 * n / (2 ^ min 2 (s.scrubBand h mem k) * max 1 all)

/-- PATROL_SCRUB (R271, R272): when its time has come, the scrub of one memory of a hub reads its next word or granule, or
visits its next frame; the time of the one after follows from the period and the band. -/
def execPatrolScrub (hub mem : Nat) (ups : List Upset) (s : State) : Host.Outcome State Fault Refusal :=
  ok (hubOk hub && decide (mem < 5)) s
    (let t := s.meet 10 ups
     if t.fget ERR_SCRUB_CTL.EN hub 0 = 0 ∨ t.ingressOpen = false then t
     else
       let (us, n) := t.scrubUnits hub mem
       let bytes := n * scrubStride mem
       match nextScrub us bytes (Tbl.get 0 t.scrub (scrubKey hub mem)) with
       | none => t
       | some k =>
         if !t.due (hub * 16 + 6 + mem) 0 then t
         else match t.scrubRead mem k with
           | none => t
           | some (u, k2) =>
             (u.scrubTo hub mem us bytes k2).withTicks (Tbl.put 0 u.ticks (hub * 16 + 6 + mem)
               (u.time + t.scrubTime hub mem k (k2 - k) (bytes * us.length))))

end Sys2Proof.Machine
end

