-- ==== Sys2Proof/Machine/Dispatch.lean ====
section
/-!
DEFINITION. Which meaning each command has: one arm per row of spec/opcode_table.json.
-/

namespace Sys2Proof.Machine

/-- The effect of a command on everything but the queue. -/
def exec (i : Instr) (s : State) : Host.Outcome State Fault Refusal :=
  match i with
  | .registerWrite who off n v poisoned => Sys2Proof.Machine.execRegisterWrite who off n v poisoned s
  | .rcFieldRead who off n => Sys2Proof.Machine.execRcFieldRead who off n s
  | .tileThrottleWrite who tile v => Sys2Proof.Machine.execTileThrottleWrite who tile v s
  | .throttleTakeEffect tile => Sys2Proof.Machine.execThrottleTakeEffect tile s
  | .rampStep tile array => Sys2Proof.Machine.execRampStep tile array s
  | .shadowLoadDone tile array => Sys2Proof.Machine.execShadowLoadDone tile array s
  | .arrayConfigChange tile => Sys2Proof.Machine.execArrayConfigChange tile s
  | .passCommit tile array => Sys2Proof.Machine.execPassCommit tile array s
  | .passFault tile array poisoned => Sys2Proof.Machine.execPassFault tile array poisoned s
  | .preemptRequest tile urgent => Sys2Proof.Machine.execPreemptRequest tile urgent s
  | .preemptBoundary tile array => Sys2Proof.Machine.execPreemptBoundary tile array s
  | .preemptDeadline tile array => Sys2Proof.Machine.execPreemptDeadline tile array s
  | .urgentSaveDone tile array fault poisoned => Sys2Proof.Machine.execUrgentSaveDone tile array fault poisoned s
  | .preemptResume tile saveUe => Sys2Proof.Machine.execPreemptResume tile saveUe s
  | .instanceStart part slot => Sys2Proof.Machine.execInstanceStart part slot s
  | .instanceEnd part commitUe => Sys2Proof.Machine.execInstanceEnd part commitUe s
  | .matmulStream tile thread => Sys2Proof.Machine.execMatmulStream tile thread s
  | .matmulStationary tile thread => Sys2Proof.Machine.execMatmulStationary tile thread s
  | .attendPrefill tile start => Sys2Proof.Machine.execAttendPrefill tile start s
  | .attendDecode tile start => Sys2Proof.Machine.execAttendDecode tile start s
  | .attendBwd tile start => Sys2Proof.Machine.execAttendBwd tile start s
  | .norm tile start => Sys2Proof.Machine.execNorm tile start s
  | .rope tile start => Sys2Proof.Machine.execRope tile start s
  | .act tile start => Sys2Proof.Machine.execAct tile start s
  | .route tile start => Sys2Proof.Machine.execRoute tile start s
  | .dispatch tile thread => Sys2Proof.Machine.execDispatch tile thread s
  | .combine tile start => Sys2Proof.Machine.execCombine tile start s
  | .sample tile start => Sys2Proof.Machine.execSample tile start s
  | .embed tile start => Sys2Proof.Machine.execEmbed tile start s
  | .copyRows tile thread => Sys2Proof.Machine.execCopyRows tile thread s
  | .reduce tile start => Sys2Proof.Machine.execReduce tile start s
  | .kvAppend tile thread => Sys2Proof.Machine.execKvAppend tile thread s
  | .waitOp tile thread => Sys2Proof.Machine.execWaitOp tile thread s
  | .signalOp tile thread => Sys2Proof.Machine.execSignalOp tile thread s
  | .waitSatisfied tile thread => Sys2Proof.Machine.execWaitSatisfied tile thread s
  | .waitLimit tile thread => Sys2Proof.Machine.execWaitLimit tile thread s
  | .yarderCompletion tile tag gen => Sys2Proof.Machine.execYarderCompletion tile tag gen s
  | .yarderTimeout tile tag => Sys2Proof.Machine.execYarderTimeout tile tag s
  | .tagQuarantineEnd tile tag => Sys2Proof.Machine.execTagQuarantineEnd tile tag s
  | .instanceAbort part => Sys2Proof.Machine.execInstanceAbort part s
  | .runAheadRead tile addr faulty => Sys2Proof.Machine.execRunAheadRead tile addr faulty s
  | .reservationRetry part => Sys2Proof.Machine.execReservationRetry part s
  | .regrowChunk part fails => Sys2Proof.Machine.execRegrowChunk part fails s
  | .ledgerPin page thread => Sys2Proof.Machine.execLedgerPin page thread s
  | .ledgerUnpin page => Sys2Proof.Machine.execLedgerUnpin page s
  | .ledgerRef page => Sys2Proof.Machine.execLedgerRef page s
  | .ledgerUnref page => Sys2Proof.Machine.execLedgerUnref page s
  | .droppedPageRerun part => Sys2Proof.Machine.execDroppedPageRerun part s
  | .memoryRead rq ups => Sys2Proof.Machine.execMemoryRead rq ups s
  | .memoryWrite rq data poisoned => Sys2Proof.Machine.execMemoryWrite rq data poisoned s
  | .partialWrite rq data poisoned => Sys2Proof.Machine.execPartialWrite rq data poisoned s
  | .adderReduce rq op ty data => Sys2Proof.Machine.execAdderReduce rq op ty data s
  | .correctedWriteBack key => Sys2Proof.Machine.execCorrectedWriteBack key s
  | .hostWindowRequest rq write data => Sys2Proof.Machine.execHostWindowRequest rq write data s
  | .hostCompletion port tag status data => Sys2Proof.Machine.execHostCompletion port tag status data s
  | .hostCompletionTimeout port tag => Sys2Proof.Machine.execHostCompletionTimeout port tag s
  | .refresh chan => Sys2Proof.Machine.execRefresh chan s
  | .hotbankTick hub waits => Sys2Proof.Machine.execHotbankTick hub waits s
  | .hotbankLeak hub => Sys2Proof.Machine.execHotbankLeak hub s
  | .marginSweepStart who hub v => Sys2Proof.Machine.execMarginSweepStart who hub v s
  | .marginSweepDone hub left right lane => Sys2Proof.Machine.execMarginSweepDone hub left right lane s
  | .thapelStepQueue hub chan => Sys2Proof.Machine.execThapelStepQueue hub chan s
  | .processorModeEntry chan => Sys2Proof.Machine.execProcessorModeEntry chan s
  | .attendPage chan => Sys2Proof.Machine.execAttendPage chan s
  | .sealVerify chan => Sys2Proof.Machine.execSealVerify chan s
  | .yieldPoint chan unitFault => Sys2Proof.Machine.execYieldPoint chan unitFault s
  | .resultBufferDrain chan => Sys2Proof.Machine.execResultBufferDrain chan s
  | .lingerExpiry chan => Sys2Proof.Machine.execLingerExpiry chan s
  | .channelBusy chan idx => Sys2Proof.Machine.execChannelBusy chan idx s
  | .thapelHang chan => Sys2Proof.Machine.execThapelHang chan s
  | .refreshAbandon chan => Sys2Proof.Machine.execRefreshAbandon chan s
  | .windowBoundary hub acct => Sys2Proof.Machine.execWindowBoundary hub acct s
  | .requestRelease hub master part bytes => Sys2Proof.Machine.execRequestRelease hub master part bytes s
  | .urgencySample hub master fill => Sys2Proof.Machine.execUrgencySample hub master fill s
  | .scaleUpdate hub => Sys2Proof.Machine.execScaleUpdate hub s
  | .tallyLeak hub cls => Sys2Proof.Machine.execTallyLeak hub cls s
  | .mergeEntryTimeout hub => Sys2Proof.Machine.execMergeEntryTimeout hub s
  | .patrolScrub hub mem ups => Sys2Proof.Machine.execPatrolScrub hub mem ups s
  | .readRaw who hub v => Sys2Proof.Machine.execReadRaw who hub v s
  | .readCorrected who hub v => Sys2Proof.Machine.execReadCorrected who hub v s
  | .writeRaw who hub v => Sys2Proof.Machine.execWriteRaw who hub v s
  | .writeEncoded who hub v => Sys2Proof.Machine.execWriteEncoded who hub v s
  | .mgmtRecordCopy hub => Sys2Proof.Machine.execMgmtRecordCopy hub s
  | .logFlush n => Sys2Proof.Machine.execLogFlush n s
  | .hostLinkTraining port gen width => Sys2Proof.Machine.execHostLinkTraining port gen width s
  | .configRequest port fn numVfs => Sys2Proof.Machine.execConfigRequest port fn numVfs s
  | .deckDoorbell fn port off n v => Sys2Proof.Machine.execDeckDoorbell fn port off n v s
  | .deckCqDoorbell fn port off n v => Sys2Proof.Machine.execDeckCqDoorbell fn port off n v s
  | .bar4SegWrite who port k v => Sys2Proof.Machine.execBar4SegWrite who port k v s
  | .vfSegWrite who port k v => Sys2Proof.Machine.execVfSegWrite who port k v s
  | .vfFlr k => Sys2Proof.Machine.execVfFlr k s
  | .pf0Flr port => Sys2Proof.Machine.execPf0Flr port s
  | .pf1Flr port => Sys2Proof.Machine.execPf1Flr port s
  | .hostLinkDown port => Sys2Proof.Machine.execHostLinkDown port s
  | .perstDeassert port => Sys2Proof.Machine.execPerstDeassert port s
  | .deckEnable who v => Sys2Proof.Machine.execDeckEnable who v s
  | .deckStop who => Sys2Proof.Machine.execDeckStop who s
  | .deckPark deck => Sys2Proof.Machine.execDeckPark deck s
  | .deckActivate deck => Sys2Proof.Machine.execDeckActivate deck s
  | .deckFetch deck => Sys2Proof.Machine.execDeckFetch deck s
  | .commandStart deck => Sys2Proof.Machine.execCommandStart deck s
  | .runGraph part slot => Sys2Proof.Machine.execRunGraph part slot s
  | .kvCopy part slot => Sys2Proof.Machine.execKvCopy part slot s
  | .kvDrop part slot => Sys2Proof.Machine.execKvDrop part slot s
  | .kvPark part slot => Sys2Proof.Machine.execKvPark part slot s
  | .kvUnpark part slot => Sys2Proof.Machine.execKvUnpark part slot s
  | .weightLoad part slot => Sys2Proof.Machine.execWeightLoad part slot s
  | .fence part slot => Sys2Proof.Machine.execFence part slot s
  | .eventWait part slot => Sys2Proof.Machine.execEventWait part slot s
  | .eventSignal part slot => Sys2Proof.Machine.execEventSignal part slot s
  | .timer part slot => Sys2Proof.Machine.execTimer part slot s
  | .forecast part slot => Sys2Proof.Machine.execForecast part slot s
  | .fabricSend part slot => Sys2Proof.Machine.execFabricSend part slot s
  | .barrier part slot => Sys2Proof.Machine.execBarrier part slot s
  | .broadcast part slot => Sys2Proof.Machine.execBroadcast part slot s
  | .snapshot part slot => Sys2Proof.Machine.execSnapshot part slot s
  | .eventWaitSatisfied part slot => Sys2Proof.Machine.execEventWaitSatisfied part slot s
  | .timerExpiry part slot => Sys2Proof.Machine.execTimerExpiry part slot s
  | .commandTimeout deck idx started => Sys2Proof.Machine.execCommandTimeout deck idx started s
  | .lateResult part slot gen => Sys2Proof.Machine.execLateResult part slot gen s
  | .execSlotQuarantineEnd part slot => Sys2Proof.Machine.execExecSlotQuarantineEnd part slot s
  | .sendContextGrant part slot => Sys2Proof.Machine.execSendContextGrant part slot s
  | .protShadowWrite who off n v => Sys2Proof.Machine.execProtShadowWrite who off n v s
  | .protCommit who v => Sys2Proof.Machine.execProtCommit who v s
  | .protSwap => Sys2Proof.Machine.execProtSwap s
  | .partitionReset who v => Sys2Proof.Machine.execPartitionReset who v s
  | .partitionLoad who v ver => Sys2Proof.Machine.execPartitionLoad who v ver s
  | .partitionRetire who v => Sys2Proof.Machine.execPartitionRetire who v s
  | .resetDrainDone part => Sys2Proof.Machine.execResetDrainDone part s
  | .drainSlow part => Sys2Proof.Machine.execDrainSlow part s
  | .loadDrainDone part => Sys2Proof.Machine.execLoadDrainDone part s
  | .loadWeightsDone part n => Sys2Proof.Machine.execLoadWeightsDone part n s
  | .linkDetect port => Sys2Proof.Machine.execLinkDetect port s
  | .trainingFrame port f => Sys2Proof.Machine.execTrainingFrame port f s
  | .trainingTimeout port => Sys2Proof.Machine.execTrainingTimeout port s
  | .trainingRetry port => Sys2Proof.Machine.execTrainingRetry port s
  | .fecBlock port marker symErrs => Sys2Proof.Machine.execFecBlock port marker symErrs s
  | .dataFlit port f => Sys2Proof.Machine.execDataFlit port f s
  | .idleFlit port f => Sys2Proof.Machine.execIdleFlit port f s
  | .nak port seq => Sys2Proof.Machine.execNak port seq s
  | .linkInit port => Sys2Proof.Machine.execLinkInit port s
  | .linkInitAck port => Sys2Proof.Machine.execLinkInitAck port s
  | .retrainReq port => Sys2Proof.Machine.execRetrainReq port s
  | .linkReset port cause => Sys2Proof.Machine.execLinkReset port cause s
  | .replayTimeout port => Sys2Proof.Machine.execReplayTimeout port s
  | .nakRepeat port => Sys2Proof.Machine.execNakRepeat port s
  | .retrainComplete port width lanes => Sys2Proof.Machine.execRetrainComplete port width lanes s
  | .retrainTimeout port => Sys2Proof.Machine.execRetrainTimeout port s
  | .portRetrain who port => Sys2Proof.Machine.execPortRetrain who port s
  | .portQuarantine who port => Sys2Proof.Machine.execPortQuarantine who port s
  | .portRelease who port => Sys2Proof.Machine.execPortRelease who port s
  | .fabTallyLeak port => Sys2Proof.Machine.execFabTallyLeak port s
  | .fabRateInterval port mgmt => Sys2Proof.Machine.execFabRateInterval port mgmt s
  | .routeTableWrite who off v => Sys2Proof.Machine.execRouteTableWrite who off v s
  | .messageRoute m => Sys2Proof.Machine.execMessageRoute m s
  | .hello m => Sys2Proof.Machine.execHello m s
  | .helloTimer port => Sys2Proof.Machine.execHelloTimer port s
  | .spdmMessage m verdict => Sys2Proof.Machine.execSpdmMessage m verdict s
  | .authTimeout port => Sys2Proof.Machine.execAuthTimeout port s
  | .authRetry port => Sys2Proof.Machine.execAuthRetry port s
  | .cruiseStart who => Sys2Proof.Machine.execCruiseStart who s
  | .probe m => Sys2Proof.Machine.execProbe m s
  | .probeReply m => Sys2Proof.Machine.execProbeReply m s
  | .probeResend => Sys2Proof.Machine.execProbeResend s
  | .cruiseEnd => Sys2Proof.Machine.execCruiseEnd s
  | .remoteWrite m => Sys2Proof.Machine.execRemoteWrite m s
  | .remoteReduce m => Sys2Proof.Machine.execRemoteReduce m s
  | .kvPageWrite m => Sys2Proof.Machine.execKvPageWrite m s
  | .kvPageReadReq m => Sys2Proof.Machine.execKvPageReadReq m s
  | .kvPageReadData m => Sys2Proof.Machine.execKvPageReadData m s
  | .tokenFwd m => Sys2Proof.Machine.execTokenFwd m s
  | .stream m => Sys2Proof.Machine.execStream m s
  | .response m => Sys2Proof.Machine.execResponse m s
  | .retransmitTimeout hub ctx => Sys2Proof.Machine.execRetransmitTimeout hub ctx s
  | .notReadyResend hub ctx => Sys2Proof.Machine.execNotReadyResend hub ctx s
  | .notReadyLimit hub ctx => Sys2Proof.Machine.execNotReadyLimit hub ctx s
  | .recvContextClose hub ctx => Sys2Proof.Machine.execRecvContextClose hub ctx s
  | .timeSyncPeriod => Sys2Proof.Machine.execTimeSyncPeriod s
  | .timeReq m => Sys2Proof.Machine.execTimeReq m s
  | .timeResp m => Sys2Proof.Machine.execTimeResp m s
  | .barUp m => Sys2Proof.Machine.execBarUp m s
  | .barDown m => Sys2Proof.Machine.execBarDown m s
  | .bcastUp m => Sys2Proof.Machine.execBcastUp m s
  | .bcastDown m => Sys2Proof.Machine.execBcastDown m s
  | .snapUp m => Sys2Proof.Machine.execSnapUp m s
  | .snapMarker m => Sys2Proof.Machine.execSnapMarker m s
  | .snapshotDrained => Sys2Proof.Machine.execSnapshotDrained s
  | .snapshotResume who => Sys2Proof.Machine.execSnapshotResume who s
  | .gopTimeout child => Sys2Proof.Machine.execGopTimeout child s
  | .fabricResetStart who => Sys2Proof.Machine.execFabricResetStart who s
  | .resetReq m => Sys2Proof.Machine.execResetReq m s
  | .resetDown m => Sys2Proof.Machine.execResetDown m s
  | .resetAck m => Sys2Proof.Machine.execResetAck m s
  | .resetReqTimeout => Sys2Proof.Machine.execResetReqTimeout s
  | .resetAckTimeout => Sys2Proof.Machine.execResetAckTimeout s
  | .fabricLocalReset => Sys2Proof.Machine.execFabricLocalReset s
  | .vaonValid => Sys2Proof.Machine.execVaonValid s
  | .alwaysOnStart => Sys2Proof.Machine.execAlwaysOnStart s
  | .fuseRead => Sys2Proof.Machine.execFuseRead s
  | .secureBoot slotOk otherOk => Sys2Proof.Machine.execSecureBoot slotOk otherOk s
  | .selfTest res => Sys2Proof.Machine.execSelfTest res s
  | .memoryTraining badChans badTiles warm fatal => Sys2Proof.Machine.execMemoryTraining badChans badTiles warm fatal s
  | .imageCheck ver => Sys2Proof.Machine.execImageCheck ver s
  | .linkTrainingPhase => Sys2Proof.Machine.execLinkTrainingPhase s
  | .weightLoadBlob idx ok => Sys2Proof.Machine.execWeightLoadBlob idx ok s
  | .readyEntry => Sys2Proof.Machine.execReadyEntry s
  | .bootLoad who => Sys2Proof.Machine.execBootLoad who s
  | .bootAccept who => Sys2Proof.Machine.execBootAccept who s
  | .bootAbort who => Sys2Proof.Machine.execBootAbort who s
  | .bootRestart who => Sys2Proof.Machine.execBootRestart who s
  | .bootSave who => Sys2Proof.Machine.execBootSave who s
  | .sensorSample temps => Sys2Proof.Machine.execSensorSample temps s
  | .thermalWarning spot => Sys2Proof.Machine.execThermalWarning spot s
  | .towerThrottle sensor temp => Sys2Proof.Machine.execTowerThrottle sensor temp s
  | .stackThrottle sensor temp => Sys2Proof.Machine.execStackThrottle sensor temp s
  | .stackCapStep stack => Sys2Proof.Machine.execStackCapStep stack s
  | .thermalShutdown sensor temp => Sys2Proof.Machine.execThermalShutdown sensor temp s
  | .tripRelease who => Sys2Proof.Machine.execTripRelease who s
  | .powerFault rails => Sys2Proof.Machine.execPowerFault rails s
  | .powerTelemetry rail mv da dw temp fails => Sys2Proof.Machine.execPowerTelemetry rail mv da dw temp fails s
  | .avsStatusPoll seg sel fails => Sys2Proof.Machine.execAvsStatusPoll seg sel fails s
  | .powerEstimate watts => Sys2Proof.Machine.execPowerEstimate watts s
  | .clockTargetUpdate => Sys2Proof.Machine.execClockTargetUpdate s
  | .clockSwitch tower => Sys2Proof.Machine.execClockSwitch tower s
  | .rthEstimate => Sys2Proof.Machine.execRthEstimate s
  | .inletRead raw => Sys2Proof.Machine.execInletRead raw s
  | .flowPulse => Sys2Proof.Machine.execFlowPulse s
  | .flowCount => Sys2Proof.Machine.execFlowCount s
  | .flowStop => Sys2Proof.Machine.execFlowStop s
  | .rateEvaluation => Sys2Proof.Machine.execRateEvaluation s
  | .forecastPhase part => Sys2Proof.Machine.execForecastPhase part s
  | .partStateTarget who v => Sys2Proof.Machine.execPartStateTarget who v s
  | .autoIdle => Sys2Proof.Machine.execAutoIdle s
  | .partWake => Sys2Proof.Machine.execPartWake s
  | .tileWake part => Sys2Proof.Machine.execTileWake part s
  | .tileRetention tile => Sys2Proof.Machine.execTileRetention tile s
  | .tileOff tile => Sys2Proof.Machine.execTileOff tile s
  | .sequenceStage pgs => Sys2Proof.Machine.execSequenceStage pgs s
  | .pgTimeout rail => Sys2Proof.Machine.execPgTimeout rail s
  | .boardReset => Sys2Proof.Machine.execBoardReset s
  | .powerDown => Sys2Proof.Machine.execPowerDown s
  | .cableChange prsnt => Sys2Proof.Machine.execCableChange prsnt s
  | .setEndpointId via eid => Sys2Proof.Machine.execSetEndpointId via eid s
  | .getSensorReading via sensor => Sys2Proof.Machine.execGetSensorReading via sensor s
  | .setEventReceiver via eid => Sys2Proof.Machine.execSetEventReceiver via eid s
  | .requestUpdate via eid => Sys2Proof.Machine.execRequestUpdate via eid s
  | .firmwareComponent via comp verified version table => Sys2Proof.Machine.execFirmwareComponent via comp verified version table s
  | .activateFirmware via selfContained => Sys2Proof.Machine.execActivateFirmware via selfContained s
  | .logInfo via => Sys2Proof.Machine.execLogInfo via s
  | .logRead via first n => Sys2Proof.Machine.execLogRead via first n s
  | .logClear via => Sys2Proof.Machine.execLogClear via s
  | .timeSet via secs => Sys2Proof.Machine.execTimeSet via secs s
  | .setPriv via v => Sys2Proof.Machine.execSetPriv via v s
  | .debugUnlock via key good => Sys2Proof.Machine.execDebugUnlock via key good s
  | .spdmRequest via rq => Sys2Proof.Machine.execSpdmRequest via rq s
  | .secRngRead who => Sys2Proof.Machine.execSecRngRead who s
  | .rngHealthFail test => Sys2Proof.Machine.execRngHealthFail test s
  | .debugChallengeRead who => Sys2Proof.Machine.execDebugChallengeRead who s
  | .rtcSecondsRead who => Sys2Proof.Machine.execRtcSecondsRead who s
  | .rtcSet who => Sys2Proof.Machine.execRtcSet who s
  | .rtcSetApply => Sys2Proof.Machine.execRtcSetApply s
  | .rtcOscStop => Sys2Proof.Machine.execRtcOscStop s
  | .vaonLoss => Sys2Proof.Machine.execVaonLoss s
  | .vbatLow => Sys2Proof.Machine.execVbatLow s
  | .flitSlot port => Sys2Proof.Machine.execFlitSlot port s
  | .partStateEntered => Sys2Proof.Machine.execPartStateEntered s
  | .registerHalfRead who off => Sys2Proof.Machine.execRegisterHalfRead who off s

end Sys2Proof.Machine
end

