-- ==== Sys2Proof/Safety.lean ====
section
/-!
DEFINITION. What counts as a safe run: no step ends in a fault or a refusal; and the condition on the waiting commands under
which that holds.
-/

namespace Sys2Proof.Machine

/-- Every waiting command names units the part has. -/
def State.QueueWf (s : State) : Prop := ∀ c ∈ s.pending, c.wf = true

/-- A run of `k` steps from `s` meets neither a fault nor a refusal. -/
def SafeRun (k : Nat) (s : State) : Prop := ∃ t, core.run k s = .next t

/-- Execution slot `x` of partition `p` holds the started command `e` of opcode `op`, its deck belongs to the partition, its
sessions are free (R304), and the part is not halted: what a command needs to be carried out. -/
abbrev State.Startable (s : State) (op p x : Nat) (e : Exec) : Prop :=
  s.execOf p x = e ∧ e.busy = true ∧ e.stage = .started ∧ e.opcode = op ∧ s.fget DECK_QCFG.PART e.deck 0 = p ∧
  s.sessionsFree p e = true ∧ s.halted = false

/-- After `t`, the execution slot that `x` of partition `p` was in `s` is free. -/
abbrev Freed (s t : State) (p x : Nat) : Prop := (Tbl.get {} t.execs (s.execKey p x)).busy = false

/-- After `t`, the command of that slot has ended: its slot is free, or it waits at level `l` for its last pin (R159). -/
def Ended (s t : State) (p x l : Nat) : Prop :=
  Freed s t p x ∨ ∃ st d, (Tbl.get {} t.execs (s.execKey p x)).stage = .ending l st d

/-- The words of some ranges of memory read without an uncorrectable or a poisoned one. -/
abbrev State.Clean (s : State) (rs : List (Nat × Nat)) : Prop := ∀ x ∈ rs, (s.look x.1 x.2).2 = false

/-- A request is admitted at ingress with a right and served at once: `r` is the request as the hub sees it, `ps` are the
places of its bytes (R189, R290, R328, R336). -/
abbrev State.Admitted (s : State) (rq : Req) (right : Right) (r : Req) (ps : List (Nat × Nat)) : Prop :=
  s.ingressOpen = true ∧ s.route rq = some r ∧ s.inReset r.part = false ∧ writesT0 r right = false ∧ s.placesOf r = some ps ∧
  s.permitted r right = true ∧ s.heldBy ps = none

/-- What an operator's conditions make of it, its outputs written: it ends, or, where NAN_FAULT (as `s` has it) forbids what
it wrote, it meets fault 0x02 (R88). -/
def State.Finished (s : State) (c : Ctx) (r : State × NumEv) (t : State) : Prop :=
  (s.nanFaults c.tile r.2 = false → t = (r.1.numEv c.tile r.2).opDone c) ∧
  (s.nanFaults c.tile r.2 = true → t = (r.1.numEv c.tile r.2).opFault c 0x02)

/-- Memory and the check bits are in canonical form: what reads alike is equal data, and no entry says what an unlisted place
reads as anyway. -/
def MemOk (s : State) : Prop := Memory.wf s.mem = true ∧ Tbl.wf 0 s.chk = true

/-- The areas of the state, for frames: what a command may write, and what it leaves. -/
inductive Area
  | clock | draws | registers | vectors | memory | controllers | answers | host | records | tiles | parts | decks
  | pages | thapel | regulation | links | streams | tree | boot | power | package | management
  deriving DecidableEq, Repr

/-- Every area. -/
def Area.all : List Area :=
  [.clock, .draws, .registers, .vectors, .memory, .controllers, .answers, .host, .records, .tiles, .parts, .decks,
   .pages, .thapel, .regulation, .links, .streams, .tree, .boot, .power, .package, .management]

/-- Two states agree in an area. The waiting commands belong to no area: no command writes them. -/
def Area.same (s t : State) : Area → Prop
  | .clock => s.time = t.time ∧ s.calendar = t.calendar ∧ s.calPhase = t.calPhase
  | .draws => s.free = t.free
  | .registers => s.regs = t.regs ∧ s.halfW = t.halfW ∧ s.halfR = t.halfR
  | .vectors => s.msix = t.msix
  | .memory => s.mem = t.mem ∧ s.chk = t.chk ∧ s.wbq = t.wbq ∧ s.merge = t.merge
  | .controllers => s.prot = t.prot ∧ s.scrub = t.scrub ∧ s.ceSince = t.ceSince ∧ s.ticks = t.ticks
  | .answers => s.rsp = t.rsp
  | .host => s.hostReads = t.hostReads ∧ s.hostTag = t.hostTag
  | .records => s.errQ = t.errQ ∧ s.recCount = t.recCount ∧ s.vfQ = t.vfQ
  | .tiles => s.tiles = t.tiles ∧ s.arrs = t.arrs ∧ s.thrs = t.thrs ∧ s.jobs = t.jobs ∧ s.tags = t.tags ∧
      s.tileSems = t.tileSems
  | .parts => s.parts = t.parts ∧ s.sems = t.sems ∧ s.evts = t.evts
  | .decks => s.decks = t.decks ∧ s.execs = t.execs ∧ s.deckEver = t.deckEver ∧ s.startNo = t.startNo ∧
      s.suspNo = t.suspNo
  | .pages => s.pinHeld = t.pinHeld ∧ s.dropLater = t.dropLater ∧ s.allocAt = t.allocAt ∧ s.sealWide = t.sealWide ∧
      s.sealParts = t.sealParts
  | .thapel => s.chans = t.chans ∧ s.thapWait = t.thapWait ∧ s.attn = t.attn ∧ s.stepNo = t.stepNo
  | .regulation => s.accts = t.accts ∧ s.mons = t.mons ∧ s.margin = t.margin
  | .links => s.ports = t.ports ∧ s.probes = t.probes ∧ s.cruiseAt = t.cruiseAt ∧ s.routeImage = t.routeImage ∧
      s.inbox = t.inbox
  | .streams => s.sendCtx = t.sendCtx ∧ s.recvCtx = t.recvCtx ∧ s.streamNo = t.streamNo ∧ s.syncAt = t.syncAt
  | .tree => s.tree = t.tree
  | .boot => s.img = t.img ∧ s.fuses = t.fuses ∧ s.boot = t.boot ∧ s.owner = t.owner ∧ s.halted = t.halted
  | .power => s.power = t.power ∧ s.slew = t.slew ∧ s.stepped = t.stepped
  | .package => s.pkg = t.pkg
  | .management => s.mgmt = t.mgmt

end Sys2Proof.Machine

open Sys2Proof Sys2Proof.Machine

/-- The areas a command may write, the reports it can raise among them (an event's bit and vector, an error record, its copy
for the log), and what an end it brings about writes (a deck's record, a reservation freed, a message sent). -/
def Sys2Proof.Instr.areas : Instr → List Area
  | .memoryWrite .. | .partialWrite .. => [.registers, .vectors, .memory, .controllers, .answers, .records, .thapel,
    .regulation, .management]
  | .adderReduce .. => [.registers, .vectors, .memory, .controllers, .answers, .records, .thapel, .management]
  | .correctedWriteBack .. => [.memory]
  | .mergeEntryTimeout .. | .ledgerRef .. | .readRaw .. | .readCorrected .. | .writeRaw .. | .writeEncoded .. =>
    [.registers, .vectors, .memory, .controllers, .answers, .records, .management]
  | .tallyLeak .. | .protSwap .. | .hotbankLeak .. => [.registers, .controllers]
  | .hostWindowRequest .. | .hostCompletion .. => [.registers, .vectors, .memory, .controllers, .answers, .host,
    .records, .management]
  | .hostCompletionTimeout .. => [.registers, .vectors, .memory, .answers, .host, .records, .management]
  | .ledgerPin .. | .ledgerUnpin .. | .ledgerUnref .. => [.registers, .vectors, .memory, .controllers, .answers,
    .records, .pages, .management]
  | .tileThrottleWrite .. | .throttleTakeEffect .. | .arrayConfigChange .. | .stackCapStep .. => [.registers]
  | .rampStep .. | .preemptDeadline .. | .tileWake .. | .tileRetention .. | .tileOff .. => [.registers, .tiles]
  | .shadowLoadDone .. => [.tiles]
  | .passCommit .. | .passFault .. | .preemptBoundary .. | .urgentSaveDone .. | .matmulStream ..
    | .matmulStationary .. => [.registers, .vectors, .memory, .controllers, .records, .tiles, .parts, .management]
  | .preemptRequest .. => [.registers, .vectors, .memory, .controllers, .records, .tiles, .management]
  | .norm .. | .rope .. | .act .. | .route .. | .yarderTimeout .. | .resultBufferDrain .. | .channelBusy .. =>
    [.registers, .vectors, .memory, .controllers, .answers, .records, .tiles, .parts, .pages, .thapel, .management]
  | .sample .. | .instanceAbort .. => [.registers, .vectors, .memory, .controllers, .answers, .records, .tiles,
    .parts, .decks, .pages, .thapel, .management]
  | .embed .. | .reduce .. | .tagQuarantineEnd .. | .copyRows .. | .dispatch .. | .combine .. | .kvAppend ..
    | .attendPrefill .. | .attendDecode .. | .attendBwd .. | .windowBoundary .. | .thapelStepQueue ..
    | .yarderCompletion .. => [.draws, .registers, .vectors, .memory, .controllers, .answers, .records, .tiles,
    .parts, .pages, .thapel, .regulation, .management]
  | .waitOp .. | .waitSatisfied .. | .waitLimit .. | .signalOp .. => [.registers, .vectors, .records, .tiles,
    .parts, .management]
  | .runAheadRead .. => [.draws, .registers, .vectors, .memory, .controllers, .answers, .records, .thapel,
    .regulation, .management]
  | .requestRelease .. => [.registers, .vectors, .answers, .regulation]
  | .urgencySample .. | .marginSweepDone .. => [.registers, .vectors, .regulation]
  | .scaleUpdate .. | .logFlush .. | .rngHealthFail .. | .rtcOscStop .. => [.registers, .vectors, .records,
    .management]
  | .registerWrite .. | .routeTableWrite .. | .protShadowWrite .. => [.registers, .vectors, .records, .regulation,
    .management]
  | .rcFieldRead .. | .registerHalfRead .. => [.registers, .answers, .regulation]
  | .deckEnable .. | .deckPark .. | .deckFetch .. => [.draws, .registers, .vectors, .memory, .controllers, .answers,
    .records, .decks, .management]
  | .deckDoorbell .. => [.registers, .vectors, .decks, .power]
  | .deckCqDoorbell .. | .lateResult .. => [.registers, .vectors, .decks]
  | .deckActivate .. => [.registers, .vectors, .memory, .controllers, .answers, .records, .decks, .management]
  | .commandStart .. => [.registers, .vectors, .memory, .controllers, .answers, .records, .parts, .decks,
    .management]
  | .execSlotQuarantineEnd .. => [.decks]
  | .processorModeEntry .. => [.registers, .vectors, .thapel, .regulation]
  | .attendPage .. | .thapelHang .. => [.registers, .vectors, .memory, .controllers, .answers, .records, .tiles,
    .parts, .decks, .pages, .thapel, .regulation, .management]
  | .sealVerify .. => [.registers, .vectors, .memory, .controllers, .answers, .records, .pages, .thapel,
    .regulation, .management]
  | .yieldPoint .. => [.draws, .registers, .vectors, .memory, .controllers, .answers, .records, .tiles, .parts,
    .decks, .pages, .thapel, .regulation, .management]
  | .lingerExpiry .. => [.draws, .registers, .vectors, .memory, .controllers, .answers, .records, .tiles, .thapel,
    .regulation, .management]
  | .refresh .. => [.thapel]
  | .refreshAbandon .. => [.registers, .vectors, .thapel]
  | .runGraph .. | .kvDrop .. | .weightLoad .. | .fence .. | .eventSignal .. | .eventWait ..
    | .eventWaitSatisfied .. | .timer .. | .timerExpiry .. | .forecast .. => [.registers, .vectors, .memory,
    .controllers, .answers, .records, .parts, .decks, .pages, .management]
  | .instanceStart .. => [.memory, .tiles, .parts, .decks]
  | .instanceEnd .. | .regrowChunk .. | .droppedPageRerun .. => [.registers, .vectors, .memory, .controllers,
    .answers, .records, .tiles, .parts, .decks, .pages, .management]
  | .mgmtRecordCopy .. => [.registers, .management]
  | .messageRoute .. | .linkDetect .. | .trainingFrame .. | .trainingTimeout .. | .trainingRetry ..
    | .fabTallyLeak .. | .portRelease .. | .authRetry .. | .cruiseStart .. | .probeReply .. => [.registers, .links]
  | .linkInit .. | .nakRepeat .. | .fabRateInterval .. | .flitSlot .. | .helloTimer .. | .probe .. | .probeResend ..
    | .timeReq .. => [.links]
  | .linkInitAck .. | .retrainReq .. | .portRetrain .. | .retrainComplete .. | .retrainTimeout ..
    | .portQuarantine .. | .linkReset .. | .nak .. | .replayTimeout .. | .idleFlit .. | .dataFlit .. | .hello ..
    | .spdmMessage .. | .authTimeout .. | .cableChange .. => [.registers, .vectors, .records, .links, .management]
  | .fecBlock .. => [.draws, .registers, .vectors, .records, .links, .management]
  | .retransmitTimeout .. | .notReadyResend .. | .sendContextGrant .. | .response .. | .kvPageReadData .. =>
    [.registers, .vectors, .memory, .controllers, .answers, .records, .parts, .decks, .pages, .links, .streams,
    .management]
  | .notReadyLimit .. => [.registers, .vectors, .memory, .controllers, .answers, .records, .parts, .decks, .pages,
    .streams, .management]
  | .kvCopy .. | .reservationRetry .. => [.draws, .registers, .vectors, .memory, .controllers, .answers, .records,
    .parts, .decks, .pages, .management]
  | .kvPark .. | .kvUnpark .. | .fabricSend .. => [.draws, .registers, .vectors, .memory, .controllers, .answers,
    .records, .parts, .decks, .pages, .links, .streams, .management]
  | .remoteWrite .. | .remoteReduce .. | .kvPageWrite .. => [.registers, .vectors, .memory, .controllers, .answers,
    .records, .regulation, .links, .streams, .management]
  | .kvPageReadReq .. => [.registers, .vectors, .memory, .controllers, .answers, .records, .links, .streams,
    .management]
  | .tokenFwd .. | .stream .. => [.registers, .vectors, .memory, .controllers, .answers, .records, .parts,
    .regulation, .links, .streams, .management]
  | .recvContextClose .. => [.streams]
  | .timeSyncPeriod .. => [.links, .streams]
  | .timeResp .. => [.clock, .registers, .vectors, .records, .links, .power, .management]
  | .barrier .. | .snapshot .. => [.draws, .registers, .vectors, .memory, .controllers, .answers, .records, .parts,
    .decks, .pages, .links, .tree, .management]
  | .barUp .. | .barDown .. | .snapshotDrained .. | .snapUp .. | .snapMarker .. | .gopTimeout .. => [.registers,
    .vectors, .memory, .controllers, .answers, .records, .parts, .decks, .pages, .links, .tree, .management]
  | .broadcast .. | .bcastUp .. | .bcastDown .. => [.registers, .vectors, .memory, .controllers, .answers, .records,
    .parts, .decks, .pages, .regulation, .links, .tree, .management]
  | .snapshotResume .. => [.registers, .tree]
  | .fabricResetStart .. | .resetReq .. | .resetDown .. | .resetAck .. | .resetReqTimeout .. => [.registers, .links,
    .tree]
  | .resetAckTimeout .. => [.links, .tree]
  | .fabricLocalReset .. => [.registers, .vectors, .memory, .controllers, .answers, .records, .parts, .decks,
    .pages, .links, .streams, .tree, .power, .management]
  | .commandTimeout .. | .deckStop .. => [.registers, .vectors, .memory, .controllers, .answers, .records, .tiles,
    .parts, .decks, .pages, .thapel, .streams, .management]
  | .protCommit .. | .drainSlow .. | .bar4SegWrite .. | .vfSegWrite .. | .pf1Flr .. => [.registers, .vectors]
  | .partitionReset .. | .partitionRetire .. | .vfFlr .. => [.registers, .vectors, .memory, .controllers, .answers,
    .records, .tiles, .parts, .decks, .pages, .thapel, .regulation, .streams, .management]
  | .partitionLoad .. | .pf0Flr .. => [.registers, .vectors, .memory, .controllers, .answers, .records, .tiles,
    .parts, .decks, .pages, .thapel, .regulation, .streams, .boot, .management]
  | .resetDrainDone .. => [.registers, .vectors, .memory, .controllers, .answers, .records, .tiles, .parts, .decks,
    .pages, .thapel, .regulation, .boot, .management]
  | .loadDrainDone .. => [.registers, .vectors, .parts, .pages, .boot, .management]
  | .loadWeightsDone .. => [.registers, .vectors, .memory, .controllers, .records, .parts, .pages, .regulation,
    .boot, .management]
  | .hostLinkTraining .. | .perstDeassert .. => [.package]
  | .hostLinkDown .. => [.registers, .vectors, .memory, .answers, .host, .records, .package, .management]
  | .configRequest .. => [.answers, .package]
  | .vaonValid .. => [.clock, .registers, .vectors, .records, .boot, .management]
  | .alwaysOnStart .. | .bootLoad .. => [.registers, .boot]
  | .bootRestart .. | .secureBoot .. | .tripRelease .. | .boardReset .. | .vaonLoss .. => Area.all
  | .fuseRead .. | .memoryTraining .. | .weightLoadBlob .. | .bootAbort .. | .pgTimeout .. => [.registers, .vectors,
    .memory, .controllers, .answers, .records, .tiles, .parts, .decks, .pages, .thapel, .boot, .management]
  | .selfTest .. | .patrolScrub .. => [.draws, .registers, .vectors, .memory, .controllers, .answers, .records,
    .tiles, .parts, .decks, .pages, .thapel, .boot, .management]
  | .imageCheck .. => [.registers, .vectors, .memory, .controllers, .answers, .records, .tiles, .parts, .decks,
    .pages, .thapel, .regulation, .links, .boot, .management]
  | .linkTrainingPhase .. => [.registers, .links, .boot]
  | .cruiseEnd .. => [.registers, .vectors, .records, .links, .boot, .management]
  | .readyEntry .. | .bootAccept .. => [.registers, .vectors, .memory, .controllers, .answers, .records, .parts,
    .decks, .pages, .links, .tree, .boot, .management]
  | .bootSave .. => [.boot]
  | .sensorSample .. | .thermalWarning .. => [.draws, .registers, .vectors, .records, .power, .package, .management]
  | .towerThrottle .. | .stackThrottle .. => [.draws, .registers, .vectors, .records, .power, .management]
  | .thermalShutdown .. | .powerFault .. => [.draws, .registers, .vectors, .memory, .controllers, .answers,
    .records, .tiles, .parts, .decks, .pages, .thapel, .boot, .package, .management]
  | .forecastPhase .. | .clockSwitch .. | .powerEstimate .. | .autoIdle .. => [.registers, .power]
  | .clockTargetUpdate .. => [.registers, .vectors, .power]
  | .rthEstimate .. | .inletRead .. | .flowCount .. | .flowStop .. | .rateEvaluation .. => [.registers, .vectors,
    .records, .power, .package, .management]
  | .flowPulse .. => [.power, .package]
  | .partStateTarget .. | .partWake .. => [.registers, .vectors, .links, .power]
  | .partStateEntered .. => [.registers, .vectors, .records, .tiles, .links, .power, .management]
  | .preemptResume .. => [.draws, .registers, .vectors, .memory, .controllers, .answers, .records, .tiles, .parts,
    .pages, .thapel, .management]
  | .hotbankTick .. => [.registers, .vectors, .controllers, .records, .management]
  | .marginSweepStart .. => [.registers, .regulation]
  | .sequenceStage .. => [.registers, .package]
  | .powerTelemetry .. | .avsStatusPoll .. => [.registers, .vectors, .records, .package, .management]
  | .powerDown .. => [.registers, .vectors, .memory, .controllers, .answers, .records, .tiles, .parts, .decks,
    .pages, .thapel, .boot, .package, .management]
  | .setEndpointId .. | .setEventReceiver .. | .logClear .. | .timeSet .. => [.vectors, .answers, .management]
  | .getSensorReading .. | .logRead .. => [.vectors, .answers]
  | .requestUpdate .. => [.registers, .vectors, .answers, .management]
  | .firmwareComponent .. | .activateFirmware .. => [.registers, .vectors, .answers, .records, .boot, .management]
  | .logInfo .. | .spdmRequest .. => [.draws, .vectors, .answers]
  | .setPriv .. | .debugUnlock .. => [.registers, .vectors, .answers, .records, .management]
  | .debugChallengeRead .. => [.draws, .registers, .answers]
  | .secRngRead .. => [.draws, .answers]
  | .rtcSecondsRead .. => [.registers, .answers]
  | .rtcSet .. => [.management]
  | .rtcSetApply .. | .vbatLow .. => [.clock, .registers, .management]
  | .memoryRead .. => [.draws, .registers, .vectors, .memory, .controllers, .answers, .records, .tiles, .parts,
    .decks, .pages, .thapel, .regulation, .boot, .management]
end

