-- ==== Sys2Proof/Certificates/Slice0/Obligations.lean ====
section
/-!
DEFINITION. The statements for the provers: what each family of commands does, its frame, and the whole-machine properties.
A clause whose conclusion is `exec c s = .next t` says that the command completes, and what its next state is.
-/

open Sys2Proof Sys2Proof.Machine

/-- A step of a state whose queue begins with a command c is the meaning of c at that state with the rest of the queue; the
block has no fetch, and the queue is the model's own way to take commands in order. With an empty queue a step is one
tick of the clocks (the model's choice, log entry 3). -/
def Obligations.StepRunsFrontCommand : Prop :=
  ∀ (s : State) (c : Instr) (q : List Instr),
    step (s.withQueue (c :: q)) = exec c (s.withQueue q) ∧ step (s.withQueue []) = .next (s.withQueue []).tick
---end

/-- For every command and every state: if the command's operands name units the part has, it answers a next state whose
queue is the queue it was given; otherwise it ends in the fault noSuchUnit. No command is refused, and no data ends a
run. -/
def Obligations.CommandFaultsExactlyWhenItNamesNoUnit : Prop :=
  ∀ (c : Instr) (s : State),
    (c.wf = true → ∃ t, exec c s = .next t ∧ t.pending = s.pending) ∧
    (c.wf = false → exec c s = .fault .noSuchUnit)
---end

/-- For every state whose waiting commands all name units the part has, and every k up to their number: the run of k steps
meets no fault and no refusal, the commands then waiting are exactly the rest, in order, and, while one is left, the run
of one step more is the meaning of the next command at the state so reached with the queue's rest. In particular the run
of as many steps as commands wait is safe and ends with an empty queue: whatever the commands do to registers, memory,
decks, links and tables, none of them blocks, drops, repeats, adds or reorders a command. -/
def Obligations.WellFormedQueueRunsToItsEnd : Prop :=
  ∀ (s : State), s.QueueWf → ∀ k, k ≤ s.pending.length →
    SafeRun k s ∧
    ∃ t : State, core.run k s = .next t ∧ t.pending = s.pending.drop k ∧ t.QueueWf ∧
      ∀ c q, s.pending.drop k = c :: q → core.run (k + 1) s = exec c (t.withQueue q)
---end

/-- For every field f, register index, written register value v and accessor: a field that the accessor may not write keeps
its value; RO, RC and WO fields keep theirs; an RW field takes its bits of v; a W1C field loses the bits that v sets; a
W1S field (but for FAB_PORT_CTL.QUARANTINE, whose write is a command of its own) gains them; an unsealed RWL field takes
its bits of v. Every field at another place of the register file keeps its value. A write of a register whose one field
is RWL and sealed does nothing but raise the sealed-write event and record; one whose field is not sealed writes it. -/
def Obligations.FieldWritesFollowTheirAccessCodes : Prop :=
  ∀ (s : State) (who : Accessor) (f : Field) (u i v : Nat),
    let t := s.writeField who f u i v
    let nv := v / 2 ^ f.lo % 2 ^ f.w
    (s.mayWrite who f = false → t = s) ∧
    (f.acc = .ro ∨ f.acc = .rc ∨ f.acc = .wo → t = s) ∧
    (s.mayWrite who f = true → f.acc = .rw → t.fget f u i = nv) ∧
    (s.mayWrite who f = true → f.acc = .w1c →
      t.fget f u i = (s.fget f u i - (s.fget f u i &&& nv)) % 2 ^ f.w) ∧
    (s.mayWrite who f = true → f.acc = .w1s → f ≠ FAB_PORT_CTL.QUARANTINE →
      t.fget f u i = (s.fget f u i ||| nv) % 2 ^ f.w) ∧
    (s.mayWrite who f = true → f.acc = .rwl → t.fget f u i = nv) ∧
    (∀ a, s.mayWrite who f = true → f.acc = .rwl → s.baseHeld f u = false →
      (s.isSealed f u i = true → s.writeReg who [f] u i a v = s.sealedWrite who a v (s.lowestPart [f] u i)) ∧
      (s.isSealed f u i = false → s.writeReg who [f] u i a v = t)) ∧
    (∀ (g : Field) (u' i' : Nat), g.key u' i' ≠ f.key u i → t.fget g u' i' = s.fget g u' i') ∧
    t.mem = s.mem ∧ t.chk = s.chk
---end

/-- For a well-formed accessor, an access of neither 4 nor 8 bytes completes: a write changes nothing, and a read answers 0
and clears nothing. For one of 4 or 8 bytes where the accessor reaches register (r, u, i) at an offset: a write of the
register's whole width, for a register with no row of its own and outside the MSI-X tables, writes the register's fields
by their access codes. Outside the record queues and the MSI-X tables and arrays, a read of the whole width answers the
register's value before the read and clears the RC fields of the register. A read of the low half of a 64-bit register
answers the low 32 bits and latches the high half for the accessor. At an offset where the accessor reaches no register,
no half and none of those tables, a write changes nothing, and a read answers 0. A poisoned write of a host function is
discarded: it stores one record if the queue of its port's hub has room, and memory, decks, tiles, the protection map
and held halves are as before. A write of the whole width that meets at least one sealed RWL field which its accessor
may otherwise write, on a register that holds no ring base of an enabled deck, completes; ERR_EVENT.SEALED_WRITE at the
accessor's hub (host port times 2; hub 0 for the management complex) then reads 1, and no byte of memory changes. -/
def Obligations.RegisterAccessesReachTheirRegister : Prop :=
  ∀ (s : State) (who : Accessor) (off n v : Nat), who.wf = true →
    (n ≠ 4 → n ≠ 8 → exec (.registerWrite who off n v false) s = .next s ∧
      ∃ t, exec (.rcFieldRead who off n) s = .next t ∧ t.rsp = ⟨.ok, natLE n 0⟩ ∧ t.regs = s.regs ∧ t.mem = s.mem) ∧
    ((n = 4 ∨ n = 8) →
      (∀ (r : RegDesc) (u i : Nat), s.locate who off = some (r, u, i) → off % n = 0 → n * 8 = r.width →
        (msixHit who off = none → ownRow (r.fields.headD TILE_ARRAY_LAT.A0_EXTRA) = false →
          exec (.registerWrite who off n v false) s = .next ((s.writeReg who r.fields u i off v).withQueue s.pending)) ∧
        (s.tableBytes who off = none → ∃ t, exec (.rcFieldRead who off n) s = .next t ∧ t.rsp = ⟨.ok, natLE n (s.regValue r.fields u i)⟩ ∧
          t.mem = s.mem ∧
          (∀ f ∈ r.fields, f.acc = .rc → monIndex f i = none → (∀ g ∈ r.fields, g ≠ f → g.key u i ≠ f.key u i) →
            f.lo + f.w ≤ r.width → t.fget f u i = f.rst % 2 ^ f.w))) ∧
      (∀ (r : RegDesc) (u i : Nat), s.locate who off = some (r, u, i) → off % 8 = 0 → r.width = 64 →
        ∃ t, exec (.registerHalfRead who off) s = .next t ∧
          t.rsp = ⟨.ok, natLE 4 (s.regValue r.fields u i)⟩ ∧
          Tbl.get (0, 0) t.halfR (accCode who) = (off + 1, s.regValue r.fields u i / 2 ^ 32) ∧ t.mem = s.mem) ∧
      (s.locate who off = none → s.locate who (off - 4) = none → s.tableBytes who off = none → msixHit who off = none →
        exec (.registerWrite who off n v false) s = .next s ∧
        (∃ t, exec (.rcFieldRead who off n) s = .next t ∧ t.rsp = ⟨.ok, natLE n 0⟩ ∧ t.regs = s.regs ∧ t.mem = s.mem) ∧
        ∃ t, exec (.registerHalfRead who off) s = .next t ∧ t.rsp = ⟨.ok, natLE 4 0⟩ ∧ t.regs = s.regs ∧ t.mem = s.mem) ∧
      (∀ (r : RegDesc) (u i : Nat), s.locate who off = some (r, u, i) → off % n = 0 → n * 8 = r.width →
        msixHit who off = none → ownRow (r.fields.headD TILE_ARRAY_LAT.A0_EXTRA) = false →
        r.fields.any (fun f => s.baseHeld f u) = false → s.sealedFields who r.fields u i ≠ [] →
        ∃ t, exec (.registerWrite who off n v false) s = .next t ∧
          t.fget ERR_EVENT.SEALED_WRITE (accHub who) 0 = 1 ∧ t.mem = s.mem ∧ t.chk = s.chk) ∧
      (who ≠ .mgmt → ∃ t, exec (.registerWrite who off n v true) s = .next t ∧ t.mem = s.mem ∧ t.chk = s.chk ∧
        t.decks = s.decks ∧ t.tiles = s.tiles ∧ t.prot = s.prot ∧ t.halfW = s.halfW ∧
        (queueFill 256 (s.fget ERR_Q_PROD.PROD (accHub who) 0) (s.fget ERR_Q_CONS.CONS (accHub who) 0) ≠ 256 →
          t.recs (accHub who) = s.recs (accHub who) + 1)))
---end

/-- For a tile j and an array a: the power manager's write of TILE_THROTTLE of a usable tile sets DUTY and RAMP_LEN_MGMT and
nothing else; a host function's write changes nothing. When the tile's counter is 0, DUTY becomes the duty in use, 7
acting as 6; otherwise nothing changes. Once the tile cycles of a ramp step have passed, a ramp step of an array that
ramps up goes one mask on and, from M7, ends ramp-up; one of an array that ramps down goes one mask back and, from M1 or
below, ends with the array idle; before that nothing changes. The end of a load in an array that a job holds makes its
held operands present, or its shadow operands if they already are. The tile takes the configuration an operator waits
for exactly when every array is idle, and still waits to acquire them. Beside the fields named, the state is as it was. -/
def Obligations.ThrottleRampAndConfigurationAct : Prop :=
  ∀ (s : State) (j a v : Nat), j < 64 → a < 4 →
    (s.tileUsable j = true → exec (.tileThrottleWrite .mgmt j v) s =
      .next ((s.fset TILE_THROTTLE.DUTY j 0 v).fset TILE_THROTTLE.RAMP_LEN_MGMT j 0 (v / 256))) ∧
    (∀ who, who.wf = true → who ≠ .mgmt → exec (.tileThrottleWrite who j v) s = .next s) ∧
    ((s.tile j).counter = 0 → ∃ t, exec (.throttleTakeEffect j) s = .next t ∧
      t.fget TILE_THROTTLE.DUTY_EFF j 0 = min (s.fget TILE_THROTTLE.DUTY j 0) 6 ∧ t.mem = s.mem) ∧
    ((s.tile j).counter ≠ 0 → exec (.throttleTakeEffect j) s = .next s) ∧
    ((s.arr j a).step < s.rampStep j → exec (.rampStep j a) s = .next s) ∧
    (s.rampStep j ≤ (s.arr j a).step → s.arrState j a = 1 → ∃ t, exec (.rampStep j a) s = .next t ∧ (t.arr j a).mask = (s.arr j a).mask + 1 ∧
      t.arrState j a = (if 7 ≤ (s.arr j a).mask then 2 else 1) ∧ t.mem = s.mem) ∧
    (s.rampStep j ≤ (s.arr j a).step → s.arrState j a = 4 → ∃ t, exec (.rampStep j a) s = .next t ∧ (t.arr j a).mask = (s.arr j a).mask - 1 ∧
      t.arrState j a = (if (s.arr j a).mask ≤ 1 then 0 else 4) ∧ t.mem = s.mem) ∧
    (s.arrayBusy j a = true → ∃ t, exec (.shadowLoadDone j a) s = .next t ∧ (t.arr j a).held = true ∧
      ((s.arr j a).held = true → (t.arr j a).shadow = true) ∧ (t.arr j a).mask = (s.arr j a).mask ∧ t.regs = s.regs) ∧
    (∀ sh l th, (s.tile j).want = some (sh, l, th) →
      (s.arraysIdle j = true → exec (.arrayConfigChange j) s = .next (s.fset TILE_ARRAY_STATUS.SHAPE j 0 sh)) ∧
      (s.arraysIdle j = false → exec (.arrayConfigChange j) s = .next s))
---end

/-- For a tile and thread that may start a matrix operator whose slots and formats are given, in a configuration that lets
the operator's arrays run as asked, with those arrays free, with at least one pass, and with no operand of its first
pass or of its initial accumulator poisoned: where either no thread of the tile waits for a configuration change and no
lower-numbered thread that waits can acquire its arrays, or the thread itself is the one that asked for the
configuration, the command completes; the operator's arrays are led by its first; the job there belongs to the thread,
stands at pass 0 of its passes, its committed accumulator is the initial one, its running pass holds the first pass's
sums over it; no pre-emption is asked; and the thread stands at its arrays. If another thread asked for a configuration,
or the arrays are busy, or a lower-numbered thread is served first, the thread waits for its unit; if the configuration
does not fit, the tile also waits for the one that does, for this thread. -/
def Obligations.MatrixOperatorsStartTheirFirstPass : Prop :=
  ∀ (s : State) (j th op : Nat) (cmd : Instr) (c : Ctx) (m : Mm), threadOk j th = true →
    (cmd = .matmulStream j th ∧ op = 1 ∨ cmd = .matmulStationary j th ∧ op = 2) →
    s.startOf op j th = some c → s.mm c = some m →
    (    ((s.tile j).want = none ∧ s.servedFirst c = false ∨ ∃ sh, (s.tile j).want = some (sh, c.level, c.thread)) →
      s.arraysFree c = true → m.passes ≠ 0 → (s.initAcc j m).2 = false →
      (s.passWork j m 0 (s.initAcc j m).1).2.2.2 = false →
      ∃ t b, exec cmd s = .next t ∧ t.job j c.level (m.arrays.headD 0) = some b ∧ b.thread = th ∧ b.pass = 0 ∧
        b.passes = m.passes ∧ b.arrays = m.arrays ∧ b.acc = (s.initAcc j m).1 ∧
        b.work = (s.passWork j m 0 (s.initAcc j m).1).1 ∧ b.pre = .none ∧ b.retried = false ∧
        (t.thr j c.level th).st = .arrays ∧ (t.tile j).want = none) ∧
    ((∀ sh, (s.tile j).want ≠ some (sh, c.level, c.thread)) →
      (s.tile j).want ≠ none ∨ shapeOk (s.fget TILE_ARRAY_STATUS.SHAPE j 0) c.arrays.1 c.arrays.2 = true ∧
        (c.arrays.2.any (s.arrayBusy j) = true ∨ s.servedFirst c = true) →
      ∃ t, exec cmd s = .next t ∧ (t.thr j c.level th).st = .unit ∧ (t.tile j).want = (s.tile j).want ∧ t.jobs = s.jobs ∧
        t.mem = s.mem ∧ t.regs = s.regs) ∧
    ((s.tile j).want = none → shapeOk (s.fget TILE_ARRAY_STATUS.SHAPE j 0) c.arrays.1 c.arrays.2 = false →
      ∃ t, exec cmd s = .next t ∧ (t.thr j c.level th).st = .unit ∧
        (t.tile j).want = some (shapeFor (s.fget TILE_ARRAY_STATUS.SHAPE j 0) c.arrays.1 c.arrays.2, c.level, c.thread) ∧
        t.jobs = s.jobs ∧ t.mem = s.mem ∧ t.regs = s.regs)
---end

/-- For the job b (operator c, matrix m) that an array of a tile leads in the running instance, neither cut by an urgent
pre-emption nor parked. When its arrays hold their operands, PASS_COMMIT of its last pass releases the arrays: no job is
led by the array any more; PASS_COMMIT of another pass, if no pre-emption is asked and no operand of the next is
poisoned, makes the running set the committed one and goes on to the next pass, not retried, from that set; with a
normal pre-emption asked it is the boundary, and the job is parked at the next pass with that set committed. While an
array still waits for its operands nothing happens. PASS_FAULT by a poisoned operand, or in the retry of a pass, ends
the operator: no job is left there, and PASS_FAULT of its arrays is set. The first fault of a pass with no pre-emption
asked, if the operands read well again, keeps the committed set and begins the one retry. -/
def Obligations.PassesCommitAndFault : Prop :=
  ∀ (s : State) (j a : Nat) (c : Ctx) (m : Mm) (b : Job), arrayOk j a = true → s.runningJob j a = some (c, m, b) →
    b.pre ≠ .urgent → b.pre ≠ .parked →
    (b.arrays.all (fun x => (s.arr j x).held) = true →
      (b.pass + 1 = b.passes → ∃ t, exec (.passCommit j a) s = .next t ∧ t.job j c.level a = none) ∧
      (b.pass + 1 ≠ b.passes → (∃ since, b.pre = .normal since) → ∃ t b', exec (.passCommit j a) s = .next t ∧
        t.job j c.level a = some b' ∧ b'.pre = .parked ∧ b'.pass = b.pass + 1 ∧ b'.acc = b.work) ∧
      (b.pass + 1 ≠ b.passes → b.pre = .none → ((s.commitSet c m b).1.passWork j m (b.pass + 1) b.work).2.2.2 = false →
        ∃ t b', exec (.passCommit j a) s = .next t ∧ t.job j c.level a = some b' ∧ b'.pass = b.pass + 1 ∧
          b'.acc = b.work ∧ b'.retried = false ∧ b'.work = ((s.commitSet c m b).1.passWork j m (b.pass + 1) b.work).1)) ∧
    (b.arrays.all (fun x => (s.arr j x).held) = false → exec (.passCommit j a) s = .next s) ∧
    (∀ poisoned, poisoned = true ∨ b.retried = true →
      ∃ t, exec (.passFault j a poisoned) s = .next t ∧ t.job j c.level a = none ∧
        t.fget TILE_ARRAY_EVENT.PASS_FAULT j 0 &&& (maskOf b.arrays % 16) = maskOf b.arrays % 16 ∧ t.mem = s.mem) ∧
    (b.retried = false → b.pre = .none → (s.passWork j m b.pass b.acc).2.2.2 = false →
      ∃ t b', exec (.passFault j a false) s = .next t ∧ t.job j c.level a = some b' ∧ b'.retried = true ∧
        b'.pass = b.pass ∧ b'.acc = b.acc ∧ b'.work = (s.passWork j m b.pass b.acc).1)
---end

/-- A request that the hub has decided marks the tile of a running instance as pre-empting. For the job b that an array
leads: with a normal pre-emption asked and its operands held, a boundary frees the arrays: after the last pass no job is
left, otherwise the job is parked at the next pass with the running set committed. More than 1.4 us after the request,
with the last slot of its pass not fed, the pre-emption becomes urgent and DEADLINE_CONVERT is set for its arrays; up to
that time, and once the last slot is fed, nothing changes. When the fed slots of an urgent one have drained without
fault, the job is parked, saved, with its cut points and URGENT_SAVE is set for its arrays; after a fault in the drain
of a pass not yet retried it is parked to run again as its one retry, with nothing saved; a fault of the retry, or of an
operand that arrived poisoned, leaves no job and sets PASS_FAULT for its arrays. A resume of a tile that runs, whose
pre-emption is over and whose level holds no arrays, restores the configuration of its parked jobs and ends its
pre-empting; while arrays of another configuration are not all idle it waits. -/
def Obligations.PreemptionStopsSavesAndResumes : Prop :=
  ∀ (s : State) (j a : Nat), arrayOk j a = true →
    (∀ p l i urgent, s.tileInst j = some (p, l, i) → (s.part p).preAsk.map Prod.snd = some urgent →
      ∃ t, exec (.preemptRequest j urgent) s = .next t ∧ (t.tile j).preempting = true ∧ t.thrs = s.thrs) ∧
    (∀ c m b, s.runningJob j a = some (c, m, b) →
      (∀ since, b.pre = .normal since → b.arrays.all (fun x => (s.arr j x).held) = true →
        (b.pass + 1 = b.passes → ∃ t, exec (.preemptBoundary j a) s = .next t ∧ t.job j c.level a = none) ∧
        (b.pass + 1 ≠ b.passes → ∃ t b', exec (.preemptBoundary j a) s = .next t ∧ t.job j c.level a = some b' ∧
          b'.pre = .parked ∧ b'.pass = b.pass + 1 ∧ b'.acc = b.work)) ∧
      (∀ since, b.pre = .normal since →
        (since + 1400 < s.time → s.lastFed j b = false → ∃ t b', exec (.preemptDeadline j a) s = .next t ∧ t.job j c.level a = some b' ∧
          b'.pre = .urgent ∧ b'.acc = b.acc ∧ t.fget TILE_ARRAY_EVENT.DEADLINE_CONVERT j 0 &&& (maskOf b.arrays % 16) =
            maskOf b.arrays % 16 ∧ t.mem = s.mem) ∧
        (s.time ≤ since + 1400 ∨ s.lastFed j b = true → exec (.preemptDeadline j a) s = .next s)) ∧
      (b.pre = .urgent →
        (∃ t b', exec (.urgentSaveDone j a false false) s = .next t ∧ t.job j c.level a = some b' ∧ b'.pre = .parked ∧
          b'.saved = true ∧ b'.cuts = b.cuts ∧ b'.pass = b.pass ∧ b'.work = b.work ∧ t.fget TILE_ARRAY_EVENT.URGENT_SAVE j 0 &&& (maskOf b.arrays % 16) =
            maskOf b.arrays % 16) ∧
        (b.retried = false → ∃ t b', exec (.urgentSaveDone j a true false) s = .next t ∧ t.job j c.level a = some b' ∧
          b'.pre = .parked ∧ b'.saved = false ∧ b'.retried = true ∧ b'.cuts = [] ∧ b'.acc = b.acc) ∧
        (∀ poisoned, poisoned = true ∨ b.retried = true →
          ∃ t, exec (.urgentSaveDone j a true poisoned) s = .next t ∧ t.job j c.level a = none ∧
            t.fget TILE_ARRAY_EVENT.PASS_FAULT j 0 &&& (maskOf b.arrays % 16) = maskOf b.arrays % 16))) ∧
    (∀ p l i ue, s.tileInst j = some (p, l, i) → (s.tile j).preempting = true → (s.part p).preAsk = none →
      (s.tile j).power = .run → (s.levelJobs j l).any (fun (_, b) => b.holds) = false →
      (s.parkedShape j l = s.fget TILE_ARRAY_STATUS.SHAPE j 0 ∨ s.arraysIdle j = true →
        ∃ t, exec (.preemptResume j ue) s = .next t ∧ (t.tile j).preempting = false ∧
          t.fget TILE_ARRAY_STATUS.SHAPE j 0 = s.parkedShape j l % 8) ∧
      (s.parkedShape j l ≠ s.fget TILE_ARRAY_STATUS.SHAPE j 0 → s.arraysIdle j = false →
        exec (.preemptResume j ue) s = .next s))
---end

/-- When the hub's choice among the ready RUN_GRAPH commands of a partition is the one in the given slot, no instance is
valid at the partition's level and the part is not halted, the command starts: the partition's level is 0, its instance
there is valid and is of the command's graph, slot and class, no tile has ended or faulted, nothing is asked to
pre-empt, and every partition semaphore of level 0 reads 0. When another command is the choice, or none, nothing
changes. -/
def Obligations.InstanceStartTakesTheChosenCommand : Prop :=
  ∀ (s : State) (p x : Nat), slotOk p x = true →
    (∀ e, s.choice p = some (x, e) → (s.inst p (s.part p).level).valid = false → s.halted = false →
      ∃ t, exec (.instanceStart p x) s = .next t ∧ (t.part p).level = 0 ∧ (t.part p).preAsk = none ∧
        (t.inst p 0).valid = true ∧ (t.inst p 0).graph = s.execGraph p e ∧ (t.inst p 0).slot = x ∧
        (t.inst p 0).cls = s.deckClass e.deck ∧ (t.inst p 0).ended = 0 ∧ (t.inst p 0).faulted = 0 ∧
        (t.inst p 0).aborted = false ∧ (∀ n, n < 4096 → Tbl.get 0 t.sems (p * 4 * 4096 + n) = 0) ∧
        t.mem = s.mem ∧ t.regs = s.regs) ∧
    (s.choice p = none → exec (.instanceStart p x) s = .next s) ∧
    (∀ y e, s.choice p = some (y, e) → y ≠ x → exec (.instanceStart p x) s = .next s)
---end

/-- An ended instance of a command in no regrowth, none of whose pages to be committed lies in a channel outside memory
mode, commits its sessions in turn and the command ends: its execution slot is free, or it waits for its last pin. A
chunk of a regrowth, its pages in memory mode, whose commit fails ends its command too; one that commits ends its
instance, and it ends its command where that was timed out or stopped meanwhile. On a reported fault of a running
instance, INSTANCE_ABORT stops it: every tile that takes part shows ABORTED, and none of its threads does anything; if
the fault is not cause 0x07 and no regrowth runs, the command ends. When a command that was aborted for cause 0x07 has
no pin left, it runs again from stage 2, marked as rerun. With no reported fault, INSTANCE_ABORT changes nothing. -/
def Obligations.InstancesEndAbortAndRerun : Prop :=
  ∀ (s : State) (p : Nat), partOk p = true →
    (∀ l i ue, s.endedInst p = some (l, i) → (s.execOf p i.slot).regrow = none → s.commitHeld p i.slot = false →
      ∃ t, exec (.instanceEnd p ue) s = .next t ∧ Ended s t p i.slot l) ∧
    (∀ l i w, s.endedInst p = some (l, i) → (s.execOf p i.slot).regrow = some w →
      ((s.execOf p i.slot).resv.headD {}).pages.any s.pageHeld = false →
      (∃ t, exec (.regrowChunk p true) s = .next t ∧ Ended s t p i.slot l) ∧
      ∃ t, exec (.regrowChunk p false) s = .next t ∧ (w.cut = none → (t.inst p l).valid = false) ∧
        (w.cut ≠ none → Ended s t p i.slot l)) ∧
    (∀ f, let l := (s.part p).level
      let i := s.inst p l
      i.fault = some f → i.valid = true → i.aborted = false →
      ∃ t, exec (.instanceAbort p) s = .next t ∧
        (∀ j, i.tiles.testBit j = true → j < 64 →
          t.fget TILE_SEQ_EVENT.ABORTED j 0 = 1 ∧ ∀ k, k < 16 → t.thr j l k = {}) ∧
        (f.1 ≠ 7 → (s.execOf p i.slot).regrow = none → Ended s t p i.slot l)) ∧
    ((s.inst p (s.part p).level).fault = none → exec (.instanceAbort p) s = .next s) ∧
    (∀ x e l, (s.partExecs p).find? (fun y => match y.2.stage with
        | .rerun l => !s.stepsOut p l
        | _ => false) = some (x, e) → e.stage = .rerun l →
      exec (.droppedPageRerun p) s = .next ((((s.popInst p l).onExec p x (fun e =>
        { e with stage := .started, reran := true, invalid := [] })).stage2 p x).withQueue s.pending))
---end

/-- A write of DECK_CFG by an accessor whose page shows deck d. Of a disabled deck with EN 0 in the value: it takes the
sizes, IRQ_EN and VECTOR. With EN 1 where the rules hold for the values written: the deck is enabled, its context is
parked, and every index of it is 0. With EN 1 where the rules do not hold: EN stays 0 and DECK_EVENT.CFG_REFUSED is set.
Of an enabled deck, with the same sizes and EN 1 and a vector in range: IRQ_EN and VECTOR change and nothing else. An
accessor whose page shows no deck changes nothing. -/
def Obligations.DeckEnableFollowsItsRules : Prop :=
  ∀ (s : State) (who : Accessor) (v : Nat), who.wf = true →
    (s.deckOf who = none → exec (.deckEnable who v) s = .next s) ∧
    (∀ d, s.deckOf who = some d →
      (s.fget DECK_CFG.EN d 0 ≠ 1 → v / 2 ^ 31 % 2 = 0 →
        exec (.deckEnable who v) s = .next ((s.setSizes d v).setIrq d v)) ∧
      (s.fget DECK_CFG.EN d 0 ≠ 1 → v / 2 ^ 31 % 2 = 1 → ((s.setSizes d v).setIrq d v).deckRules d = true →
        ∃ t, exec (.deckEnable who v) s = .next t ∧ t.fget DECK_CFG.EN d 0 = 1 ∧ t.deck d = { state := 1 } ∧
          t.fget DECK_CFG.SIZE_LOG2 d 0 = v % 32 ∧ t.fget DECK_CFG.CQ_LOG2 d 0 = v / 32 % 32 ∧
          t.fget DECK_CFG.TS_LOG2 d 0 = v / 1024 % 32 ∧ t.deckEver = true ∧
          (∀ k, k ≠ d → t.deck k = s.deck k)) ∧
      (s.fget DECK_CFG.EN d 0 ≠ 1 → v / 2 ^ 31 % 2 = 1 → ((s.setSizes d v).setIrq d v).deckRules d = false →
        ∃ t, exec (.deckEnable who v) s = .next t ∧ t.fget DECK_CFG.EN d 0 = s.fget DECK_CFG.EN d 0 ∧
          t.fget DECK_EVENT.CFG_REFUSED d 0 = 1 ∧ t.decks = s.decks ∧ t.mem = s.mem) ∧
      (s.fget DECK_CFG.EN d 0 = 1 → v % 32 = s.fget DECK_CFG.SIZE_LOG2 d 0 → v / 32 % 32 = s.fget DECK_CFG.CQ_LOG2 d 0 →
        v / 1024 % 32 = s.fget DECK_CFG.TS_LOG2 d 0 → v / 2 ^ 31 % 2 = 1 → s.vectorOk d (v / 2 ^ 16 % 2048) = true →
        exec (.deckEnable who v) s = .next (s.setIrq d v)))
---end

/-- A doorbell write that finds no deck it may act on sets DB_DISCARD at its port and changes no deck and no byte of memory;
so does a DECK_DOORBELL whose index lies outside the ring. Any other DECK_DOORBELL makes the index the deck's doorbell
value, and the deck, if it is parked, waits for an active place; the other decks are as before. A DECK_CQ_DOORBELL makes
the records before its index, modulo the ring, consumed, where that is more than were consumed before; otherwise it
changes nothing. -/
def Obligations.DoorbellsMoveTheIndices : Prop :=
  ∀ (s : State) (fn port off n v : Nat), fn ≤ 17 → port < 2 →
    (s.dbDeck fn off n 0 = none → ∃ t, exec (.deckDoorbell fn port off n v) s = .next t ∧
      t.fget HIF_EVENT.DB_DISCARD port 0 = 1 ∧ t.decks = s.decks ∧ t.mem = s.mem) ∧
    (∀ d, s.dbDeck fn off n 0 = some d →
      ((s.deckRing d).2 ≤ v % 65536 → ∃ t, exec (.deckDoorbell fn port off n v) s = .next t ∧
        t.fget HIF_EVENT.DB_DISCARD port 0 = 1 ∧ t.decks = s.decks ∧ t.mem = s.mem) ∧
      (v % 65536 < (s.deckRing d).2 → ∃ t, exec (.deckDoorbell fn port off n v) s = .next t ∧
        t.deck d = { s.deck d with doorbell := v % 65536, remembered := (s.deck d).state == 1 } ∧
        (∀ k, k ≠ d → t.deck k = s.deck k) ∧ t.mem = s.mem ∧ t.execs = s.execs)) ∧
    (s.dbDeck fn off n 0x40 = none → ∃ t, exec (.deckCqDoorbell fn port off n v) s = .next t ∧
      t.fget HIF_EVENT.DB_DISCARD port 0 = 1 ∧ t.decks = s.decks ∧ t.mem = s.mem) ∧
    (∀ d, s.dbDeck fn off n 0x40 = some d →
      let size := 2 ^ s.fget DECK_CFG.CQ_LOG2 d 0
      let done := (s.deck d).cqProd - ((s.deck d).cqProd + size * 65536 - v % 65536) % size
      ((s.deck d).cqCons < done → ∃ t, exec (.deckCqDoorbell fn port off n v) s = .next t ∧
        (t.deck d).cqCons = done ∧ (t.deck d).cqProd = (s.deck d).cqProd ∧ t.regs = s.regs ∧ t.mem = s.mem) ∧
      (done ≤ (s.deck d).cqCons → exec (.deckCqDoorbell fn port off n v) s = .next s))
---end

/-- An active idle deck that is on is parked when its idle time has passed (DECK_PARK_US of its partition, if not 0) or
when, with 4,096 decks active and another deck waiting, it is the one idle longest; otherwise DECK_PARK changes nothing.
A parked deck whose doorbell has rung, that is on, becomes active where fewer than 4,096 are; if its context reads
uncorrectable it stops instead: EN 0, state stopped, CTX_UE set. A live deck with a pending entry that can be read
copies it: the fetch index moves one on in the ring and the entry with its fetch time is last among the fetched ones. -/
def Obligations.DecksParkActivateAndFetch : Prop :=
  ∀ (s : State) (d : Nat), d < 32768 →
    (let us := s.fget DECK_PARK_US.IDLE_US (0x9000 + s.deckPart d) 0
     let due := us ≠ 0 ∧ (s.deck d).idleSince + us * 1000 ≤ s.time
     let wanted := 4096 ≤ s.activeCount ∧ s.decks.any (fun (_, x) => x.state == 1 && x.remembered) = true ∧
       s.longestIdle = some d
     ((s.deck d).state = 2 → s.deckOn d = true → s.deckIdle d = true → due ∨ wanted →
       ∃ t, exec (.deckPark d) s = .next t ∧ t.deck d = { s.deck d with state := 1 } ∧ (∀ k, k ≠ d → t.deck k = s.deck k)) ∧
     (¬((s.deck d).state = 2 ∧ s.deckOn d = true ∧ s.deckIdle d = true ∧ (due ∨ wanted)) →
       exec (.deckPark d) s = .next s)) ∧
    ((s.deck d).state = 1 → (s.deck d).remembered = true → s.deckOn d = true → s.activeCount < 4096 →
      ((s.look (s.ctxAt d) 256).2 = false → ∃ t, exec (.deckActivate d) s = .next t ∧
        t.deck d = { s.deck d with state := 2, remembered := false, idleSince := s.time }) ∧
      ((s.look (s.ctxAt d) 256).2 = true → ∃ t, exec (.deckActivate d) s = .next t ∧
        t.deck d = { s.deck d with state := 3, remembered := false, fetched := [] } ∧
        t.fget DECK_CFG.EN d 0 = 0 ∧ t.fget DECK_EVENT.CTX_UE d 0 = 1)) ∧
    (s.deckLive d = true → (s.deck d).fetch ≠ (s.deck d).doorbell →
      ∀ bs, s.engGet (s.deckPart d) ((s.deckRing d).1 + (s.deck d).fetch * 64) 64 = .bytes bs false →
      ∃ t, exec (.deckFetch d) s = .next t ∧ t.deck d = { s.deck d with
        fetch := ((s.deck d).fetch + 1) % (s.deckRing d).2, fetched := (s.deck d).fetched ++ [(leNat bs, s.time)] })
---end

/-- A live deck, with no cut, whose next fetched entry can start while an execution slot x of its partition's home hub is
free: the entry leaves the fetched ones; if no byte of it is faulty, slot x holds the command as started, with its
entry, deck, fetch time, start order and time and with the other generation bit; if a byte is faulty the command has
ended and x is free. Where no slot is free or the entry cannot start, the deck is marked blocked. A timeout of a started
command whose limit has passed is counted in DECK_COUNT.TIMEOUTS of its partition; it ends the command, or, while a
chunk of its regrowth runs, marks it to end with that status after the chunk. A stop of a deck with no command in
execution leaves it disabled and stopped, with nothing fetched. A result for a slot that is free, of another generation
bit, is counted as LATE and sets its event. Once its 2 us have passed, a quarantined slot can be allocated again, and
not before. -/
def Obligations.CommandsTakeExecutionSlots : Prop :=
  ∀ (s : State) (d : Nat), d < 32768 →
    (∀ v t0 rest, (s.deck d).fetched = (v, t0) :: rest → s.deckLive d = true → s.tree.cut = false →
      (∀ x, s.freeSlot (s.deckPart d) = some x → s.canStart d v = true →
        (s.badByte (s.deckPart d) v = none → ∃ t, exec (.commandStart d) s = .next t ∧
          t.deck d = { s.deck d with fetched := rest, blocked := false } ∧ t.startNo = s.startNo + 1 ∧
          Tbl.get {} t.execs (s.execKey (s.deckPart d) x) =
            { busy := true, gen := (!(s.execOf (s.deckPart d) x).gen), deck := d, entry := v, fetched := t0, order := s.startNo
              started := s.time }) ∧
        (∀ o, s.badByte (s.deckPart d) v = some o → ∃ t, exec (.commandStart d) s = .next t ∧
          (t.deck d).fetched = rest ∧ Freed s t (s.deckPart d) x)) ∧
      (s.freeSlot (s.deckPart d) = none → ∃ t, exec (.commandStart d) s = .next t ∧
        t.deck d = { s.deck d with blocked := true } ∧ t.execs = s.execs ∧ t.mem = s.mem ∧ t.regs = s.regs)) ∧
    (∀ x lim, x < 1024 → (s.execOf (s.deckPart d) x).busy = true → (s.execOf (s.deckPart d) x).deck = d →
      limitOf (s.execOf (s.deckPart d) x).entry (s.execOf (s.deckPart d) x).fetched = some lim → lim ≤ s.time →
      (s.execOf (s.deckPart d) x).ends = false →
      ∃ t, exec (.commandTimeout d x true) s = .next t ∧
        ((s.execOf (s.deckPart d) x).regrow = none ∨ (∀ l, (s.execOf (s.deckPart d) x).stage ≠ .running l) →
          ∃ l, Ended s t (s.deckPart d) x l) ∧
        (∀ l w, (s.execOf (s.deckPart d) x).stage = .running l → (s.execOf (s.deckPart d) x).regrow = some w →
          (Tbl.get {} t.execs (s.execKey (s.deckPart d) x)).regrow = some { w with cut := some (2, s.overrun lim) }) ∧
        t.fget DECK_COUNT.TIMEOUTS (0x9000 + s.deckPart d) 0 =
          min (s.fget DECK_COUNT.TIMEOUTS (0x9000 + s.deckPart d) 0 + 1) (2 ^ DECK_COUNT.TIMEOUTS.w - 1)) ∧
    (∀ who, who.wf = true → s.deckOf who = some d → s.fget DECK_CFG.EN d 0 ≠ 0 → s.deckExecs d = [] →
      (∀ y e, (y, e) ∈ s.partExecs (s.deckPart d) → e.deck ≠ d) → (s.deck d).stopping = none →
      ∃ t, exec (.deckStop who) s = .next t ∧ t.fget DECK_CFG.EN d 0 = 0 ∧ (t.deck d).state = 3 ∧
        (t.deck d).fetched = [] ∧ (t.deck d).stopping = none) ∧
    (∀ p x gen, slotOk p x = true → (s.execOf p x).busy = false →
      ∃ t, exec (.lateResult p x gen) s = .next t ∧
        t.fget DECK_COUNT.LATE (0x9000 + p) 0 =
          min (s.fget DECK_COUNT.LATE (0x9000 + p) 0 + 1) (2 ^ DECK_COUNT.LATE.w - 1) ∧
        t.fget DECK_EVENT.LATE (s.execOf p x).deck 0 = 1 ∧ t.execs = s.execs ∧ t.mem = s.mem) ∧
    (∀ p x q, slotOk p x = true → (s.execOf p x).quarantine = some q →
      (q ≤ s.time → exec (.execSlotQuarantineEnd p x) s = .next (s.onExec p x (fun e => { e with quarantine := none }))) ∧
      (s.time < q → exec (.execSlotQuarantineEnd p x) s = .next s))
---end

/-- For a started command e of the partition that is to be carried out in slot x. FENCE ends (its slot is free) if no
earlier command of its deck is in execution, and waits, the state unchanged, otherwise. EVENT_SIGNAL, on the same
condition, adds its value to the named counter modulo 2^64 and ends, and changes no other counter. EVENT_WAIT ends if
the counter has reached its target, and else waits. TIMER ends if its time has come (absolute, or counted from its
start), and else waits. A waiting EVENT_WAIT or TIMER ends when its condition holds, and not before. No event counter
changes but by EVENT_SIGNAL. -/
def Obligations.OrderingCommandsWaitAndComplete : Prop :=
  ∀ (s : State) (p x : Nat) (e : Exec), slotOk p x = true →
    (s.Startable 7 p x e →
      ((s.deckExecs e.deck).any (fun o => decide (o.order < e.order)) = false →
        ∃ t, exec (.fence p x) s = .next t ∧ Freed s t p x ∧ t.evts = s.evts) ∧
      ((s.deckExecs e.deck).any (fun o => decide (o.order < e.order)) = true → exec (.fence p x) s = .next s)) ∧
    (s.Startable 9 p x e → (s.deckExecs e.deck).any (fun o => decide (o.order < e.order)) = false →
      ∃ t, exec (.eventSignal p x) s = .next t ∧ Freed s t p x ∧
        Tbl.get 0 t.evts (p * 1024 + e.f 18 2) = (s.evtOf p (e.f 18 2) + e.f 24 8) % 2 ^ 64 ∧
        ∀ k, k ≠ p * 1024 + e.f 18 2 → Tbl.get 0 t.evts k = Tbl.get 0 s.evts k) ∧
    (s.Startable 8 p x e →
      (e.f 24 8 ≤ s.evtOf p (e.f 18 2) → ∃ t, exec (.eventWait p x) s = .next t ∧ Freed s t p x ∧ t.evts = s.evts) ∧
      (s.evtOf p (e.f 18 2) < e.f 24 8 → ∃ t, exec (.eventWait p x) s = .next t ∧
        t.execOf p x = { e with stage := .waiting } ∧ t.mem = s.mem ∧ t.regs = s.regs)) ∧
    (s.Startable 10 p x e →
      (timerEnd e ≤ s.time → ∃ t, exec (.timer p x) s = .next t ∧ Freed s t p x ∧ t.evts = s.evts) ∧
      (s.time < timerEnd e → ∃ t, exec (.timer p x) s = .next t ∧
        t.execOf p x = { e with stage := .waiting } ∧ t.mem = s.mem ∧ t.regs = s.regs)) ∧
    (s.execOf p x = e → e.busy = true → e.stage = .waiting → s.fget DECK_QCFG.PART e.deck 0 = p →
      (e.opcode = 8 → e.f 24 8 ≤ s.evtOf p (e.f 18 2) →
        ∃ t, exec (.eventWaitSatisfied p x) s = .next t ∧ Freed s t p x ∧ t.evts = s.evts) ∧
      (e.opcode = 8 → s.evtOf p (e.f 18 2) < e.f 24 8 → exec (.eventWaitSatisfied p x) s = .next s) ∧
      (e.opcode = 10 → timerEnd e ≤ s.time → ∃ t, exec (.timerExpiry p x) s = .next t ∧ Freed s t p x ∧ t.evts = s.evts) ∧
      (e.opcode = 10 → s.time < timerEnd e → exec (.timerExpiry p x) s = .next s))
---end

/-- For a started command that is to be carried out and whose handles' check in turn finds one at fault: the command ends,
and its slot is free, whatever the command is; no event counter changes. -/
def Obligations.SessionCommandsCheckTheirHandles : Prop :=
  ∀ (s t0 : State) (p x op st det : Nat) (e : Exec) (cmd : Instr), slotOk p x = true → s.Startable op p x e →
    (cmd = .runGraph p x ∧ op = 1 ∨ cmd = .kvCopy p x ∧ op = 2 ∨ cmd = .kvDrop p x ∧ op = 3 ∨
      cmd = .kvPark p x ∧ op = 4 ∨ cmd = .kvUnpark p x ∧ op = 5) →
    s.checkHandles p 0 e.handles = (t0, some (st, det)) →
    ∃ t, exec cmd s = .next t ∧ Freed s t p x ∧ t.evts = s.evts
---end

/-- For a started command that is to be carried out and whose handles all pass, t0 the state after their check. RUN_GRAPH of
a decode graph with a session that has no next token ends with EMPTY; otherwise, with no session parked and no regrowth
begun, it goes to its reservation. KV_COPY with EMPTY into a slot that lies in the partition's sessions, reads well and
is not in use opens an empty session there and ends OK with the new handle. KV_DROP gives up the session's pages, or
with RELEASE the whole slot, and ends OK with their number. KV_PARK to host memory of a session that is not parked,
whose image fits its limit, lies in the host window and is admitted there, writes the image of the pages taken and parks
them; while a page's pin count is full or its channel is not in memory mode it waits. KV_UNPARK of a session that is not
parked ends with BAD_SESSION_STATE, and of a parked one in host memory reads its header from there. -/
def Obligations.SessionCommandsActOnTheirSessions : Prop :=
  ∀ (s t0 : State) (p x : Nat) (e : Exec), slotOk p x = true →
    let a := e.f 4 4 % 32768
    let b := e.f 20 4 % 32768
    let end_ (t : State) (st det : Nat) : Host.Outcome State Fault Refusal :=
      .next ((t.endPlain p x st det).withQueue s.pending)
    s.checkHandles p 0 e.handles = (t0, none) →
    (s.Startable 1 p x e → e.regrow = none → e.later = [] →
      (t0.commitF p (e.f 16 1 % 16) 0 1 = 1 → e.slots.any (fun y => t0.srec p y 12 4 == 0xFFFFFFFF) = true →
        exec (.runGraph p x) s = end_ t0 0x0F 0) ∧
      (t0.commitF p (e.f 16 1 % 16) 0 1 ≠ 1 → e.slots.findIdx? (fun y => t0.recFlag p y 1) = none →
        exec (.runGraph p x) s = .next ((t0.reserveGo p x).withQueue s.pending))) ∧
    (s.Startable 2 p x e → (e.f 16 1).testBit 0 = true → t0.slotIn p b = true → t0.recBad p b = false →
      t0.srec p b 2 1 ≠ 1 →
      let t1 := (t0.openRec p b).setRecFlag p b 0 ((e.f 16 1).testBit 1)
      exec (.kvCopy p x) s = end_ t1 0 (t1.handleOf p b)) ∧
    (s.Startable 3 p x e →
      ((e.f 16 1).testBit 0 = true →
        exec (.kvDrop p x) s = end_ (t0.releaseSlot p a).1 0 (min (t0.releaseSlot p a).2 0xFFFFFFFF)) ∧
      ((e.f 16 1).testBit 0 = false →
        exec (.kvDrop p x) s = end_ (t0.dropSess p a).1 0 (min (t0.dropSess p a).2 0xFFFFFFFF))) ∧
    (s.Startable 4 p x e → t0.recFlag p a 1 = false → e.f 40 8 = 0 ∨ t0.imageSize p a ≤ e.f 40 8 → e.f 16 1 = 0 →
      ((t0.presentPages p a).any (fun x => t0.pageWaits x.2.2) = true →
        exec (.kvPark p x) s = .next (t0.withQueue s.pending)) ∧
      ((t0.presentPages p a).any (fun x => t0.pageWaits x.2.2) = false →
      inHost (e.f 32 8) (t0.imageSize p a) = true → t0.engMay p (e.f 32 8) (t0.imageSize p a) .write = true →
      ∃ t1 ws absent, t0.parkTake p a = (t1, ws, absent) ∧
        let t2 := t1.putImage p (e.f 32 8) (t1.parkBytes p ws) (t1.parkHeader p a ws.length absent)
        exec (.kvPark p x) s = .next (((t2.onExec p x (fun e => { e with written := ws.map Prod.snd })).parkDone p x a
          (256 + (ws.map (fun (l, _) => t2.pageRec p l)).sum)).withQueue s.pending))) ∧
    (s.Startable 5 p x e →
      (t0.recFlag p a 1 = false → exec (.kvUnpark p x) s = end_ t0 0x0F 0) ∧
      (t0.recFlag p a 1 = true → e.f 16 1 = 0 →
        exec (.kvUnpark p x) s = .next ((t0.unparkHost p x).withQueue s.pending)))
---end

/-- A started WEIGHT_LOAD whose destination is no tile of the partition, is not aligned or does not fit a tier-0 slice ends
with PROTECTION, DETAIL 3. One of length 0 to a good destination ends with OK, or with CHECK set and another CRC than
that of no bytes with its own status, DETAIL the CRC. One whose source is refused ends with PROTECTION, DETAIL 2; one
whose source's channel is not in memory mode waits; one whose source can be read writes those bytes, word by word, to
the tile's slice and ends, DETAIL their CRC-32C. When frames have been released and no reservation is suspended, a retry
changes nothing; the first suspended KV_COPY is tried again from its reservation. -/
def Obligations.WeightLoadWritesItsTile : Prop :=
  ∀ (s : State) (p x : Nat) (e : Exec), slotOk p x = true →
    let j := e.f 16 1
    let dst := e.f 32 8
    let n := e.f 40 8
    let good := j < 64 ∧ s.tilePart j = some p ∧ s.tileUsable j = true ∧ dst % 64 = 0 ∧ n % 64 = 0 ∧ dst + n ≤ t0Size
    (s.Startable 6 p x e →
      (¬good → exec (.weightLoad p x) s = .next ((s.endPlain p x 0x05 3).withQueue s.pending)) ∧
      (good → n = 0 → exec (.weightLoad p x) s = .next ((s.endPlain p x
        (if (e.f 17 1).testBit 0 && e.f 20 4 != crc32c [] then 0x11 else 0x00) (crc32c [])).withQueue s.pending)) ∧
      (good → n ≠ 0 → s.engGet p (e.f 24 8) n = .wait → exec (.weightLoad p x) s = .next s) ∧
      (∀ t, good → n ≠ 0 → s.engGet p (e.f 24 8) n = .refused t →
        exec (.weightLoad p x) s = .next ((t.endPlain p x 0x05 2).withQueue s.pending)) ∧
      (∀ bs bad, good → n ≠ 0 → s.engGet p (e.f 24 8) n = .bytes bs bad →
        exec (.weightLoad p x) s = .next ((((s.loadWords p (e.f 24 8) (t0At j dst) bs).engTouch 7 p 1 (e.f 24 8) n).endPlain
          p x (if (e.f 17 1).testBit 0 && e.f 20 4 != crc32c bs then 0x11 else 0x00) (crc32c bs)).withQueue s.pending))) ∧
    (s.firstSuspended p = none → exec (.reservationRetry p) s = .next s) ∧
    (∀ y f, s.firstSuspended p = some (y, f) → s.halted = false → f.opcode = 2 →
      exec (.reservationRetry p) s = .next ((s.copyGo p y).withQueue s.pending))
---end

/-- A started FABRIC_SEND of a message code below 0x20 that is to be carried out. Where the partition has no SEND right for
the destination, it ends and PROT_EVENT.REFUSED is set. Where it has and no send context of its home hub is free, or a
snapshot has cut the device, it waits and nothing else changes. Where a context is free and its source is refused at
ingress, it ends; where its source is read, it goes on in that context with its stream. A command that waits for a
context obtains the first free one, and one that finds none goes on waiting with the state unchanged. -/
def Obligations.FabricSendOpensOrWaits : Prop :=
  ∀ (s : State) (p x : Nat) (e : Exec), slotOk p x = true →
    (s.Startable 12 p x e → e.f 16 1 < 0x20 →
      (s.admitsFabric p .send (e.f 20 4 % 2 ^ 20) = false →
        ∃ t, exec (.fabricSend p x) s = .next t ∧ Freed s t p x ∧ t.fget PROT_EVENT.REFUSED 0 0 = 1) ∧
      (s.admitsFabric p .send (e.f 20 4 % 2 ^ 20) = true →
        (s.freeCtx (s.homeHub p) = none ∨ s.tree.cut = true →
          ∃ t, exec (.fabricSend p x) s = .next t ∧ t.execOf p x = { e with stage := .waiting } ∧ t.mem = s.mem ∧
            t.regs = s.regs ∧ t.sendCtx = s.sendCtx) ∧
        (∀ k, s.freeCtx (s.homeHub p) = some k → s.tree.cut = false →
          (∀ u, s.engGet p (e.f 24 8) (e.f 40 8) = .refused u → ∃ t, exec (.fabricSend p x) s = .next t ∧ Freed s t p x) ∧
          exec (.fabricSend p x) s = .next ((s.sendStream k p x).withQueue s.pending)))) ∧
    (s.waitsCtx p x (s.execOf p x) = true → s.halted = false →
      (s.freeCtx (s.homeHub p) = none → exec (.sendContextGrant p x) s = .next s) ∧
      (∀ k, s.freeCtx (s.homeHub p) = some k → (s.execOf p x).opcode = 12 →
        exec (.sendContextGrant p x) s = .next ((s.sendStream k p x).withQueue s.pending)))
---end

/-- A started BARRIER or SNAPSHOT of a partition that PARTS does not list ends with PROTECTION; no arrival is counted. Of a
listed one, while this epoch's arrivals are fewer than LOCAL_COUNT by more than one and BAR_UP has not been sent, the
command waits, counts as one more local arrival and is last among those that wait; a SNAPSHOT makes the epoch a
snapshot's. Beyond LOCAL_COUNT, or after BAR_UP, it counts toward the next epoch. A started BROADCAST whose body is
read, at a node with a parent, waits as the last of this device's broadcasts and its body has risen toward the parent;
one whose body is refused ends. -/
def Obligations.GlobalOperationsArrive : Prop :=
  ∀ (s : State) (p x : Nat) (e : Exec), slotOk p x = true → s.Startable 12 p x e →
    (∀ cmd code snap, (cmd = .barrier p x ∧ code = 0x20 ∧ snap = false) ∨ (cmd = .snapshot p x ∧ code = 0x22 ∧ snap = true) →
      e.f 16 1 = code →
      (s.fbit FAB_BAR_CTL.PARTS 0 0 p = false → ∃ t, exec cmd s = .next t ∧ Freed s t p x ∧ t.tree = s.tree) ∧
      (s.fbit FAB_BAR_CTL.PARTS 0 0 p = true → s.tree.sentUp = false →
        s.tree.local_ + 1 < s.fget FAB_BAR_CTL.LOCAL_COUNT 0 0 →
        ∃ t, exec cmd s = .next t ∧ t.execOf p x = { e with stage := .waiting } ∧ t.tree = { s.tree with
          local_ := s.tree.local_ + 1, waiting := s.tree.waiting ++ [(p, x)], snap := s.tree.snap || snap } ∧
          t.mem = s.mem ∧ t.regs = s.regs) ∧
      (s.fbit FAB_BAR_CTL.PARTS 0 0 p = true →
        s.tree.sentUp = true ∨ s.fget FAB_BAR_CTL.LOCAL_COUNT 0 0 ≤ s.tree.local_ →
        ∃ t, exec cmd s = .next t ∧ t.execOf p x = { e with stage := .waiting } ∧ t.tree = { s.tree with
          localNext := s.tree.localNext + 1, waitingNext := s.tree.waitingNext ++ [(p, x)] } ∧
          t.mem = s.mem ∧ t.regs = s.regs)) ∧
    (e.f 16 1 = 0x21 →
      (∀ bs bad a, s.engGet p (e.f 24 8) (e.f 40 8) = .bytes bs bad → s.parent = some a →
        ∃ t, exec (.broadcast p x) s = .next t ∧ (t.execOf p x).stage = .waiting ∧
          t.tree.casts = s.tree.casts ++ [(p, x)] ∧ t.sendCtx = s.sendCtx) ∧
      (∀ u, s.engGet p (e.f 24 8) (e.f 40 8) = .refused u → ∃ t, exec (.broadcast p x) s = .next t ∧ Freed s t p x))
---end

/-- For the context k, valid, of a RESPONSE that has arrived for an ordered stream with nothing left to send. OK
acknowledges every unacknowledged message up to its SEQ: if some remain, exactly those are unacknowledged, no resend has
been tried and no NOT_READY stands. NOT_READY stands with its SEQ, and with the time of the first one. Any status but
OK, NOT_READY and NO_STREAM ends the stream and its command. Without progress for RTO_US, a context that has tried fewer
than RETRIES resends tries once more (or, its destination unreachable, its stream is over), and one that has tried as
often ends its stream and its command. A NOT_READY of NOTREADY_MS ends stream and command. A NOT_READY that stands is
resent every 100 us and not before. -/
def Obligations.SendContextsFollowTheirAnswers : Prop :=
  ∀ (s : State),
    (∀ (m : Msg) (k : Nat), m.wf = true → s.inbox.contains m = true → m.ty = 8 → m.ll = true ∨ m.dest = s.fabAddr →
      let t0 := s.takeMsg m
      let c := t0.sctx k
      t0.ctxOf m = some k → c.valid = true → c.ordered = true →
      (m.status = 0 → c.queue = [] → (c.unacked.filter (fun q => decide (q.seq > m.seq))).length ≠ c.unacked.length →
        c.unacked.filter (fun q => decide (q.seq > m.seq)) ≠ [] →
        ∃ t, exec (.response m) s = .next t ∧ t.sctx k = { c with
          unacked := c.unacked.filter (fun q => decide (q.seq > m.seq)), progressAt := s.time, tries := 0, notReady := none } ∧
          t.mem = s.mem) ∧
      (m.status = 1 → ∃ t, exec (.response m) s = .next t ∧
        (t.sctx k).notReady = some (m.seq, ((c.notReady.map Prod.snd).getD s.time)) ∧
        (t.sctx k).unacked = c.unacked ∧ t.mem = s.mem) ∧
      (m.status ≠ 0 → m.status ≠ 1 → m.status ≠ 6 → ∃ t, exec (.response m) s = .next t ∧ (t.sctx k).valid = false ∧
        Freed s t c.part c.slot)) ∧
    (∀ (h i : Nat), h < 4 → i < 1024 →
      let k := sctxKey h i
      let c := s.sctx k
      c.valid = true →
      (c.unacked ≠ [] → c.notReady = none → c.progressAt + max 1 (s.fget FAB_TP_CTL.RTO_US 0 0) * 1000 ≤ s.time →
        (c.tries < s.fget FAB_TP_CTL.RETRIES 0 0 → ∃ t, exec (.retransmitTimeout h i) s = .next t ∧
          ((t.sctx k).valid = false ∨ (t.sctx k).tries = c.tries + 1 ∧ (t.sctx k).unacked = c.unacked)) ∧
        (s.fget FAB_TP_CTL.RETRIES 0 0 ≤ c.tries → ∃ t, exec (.retransmitTimeout h i) s = .next t ∧
          (t.sctx k).valid = false ∧ Freed s t c.part c.slot)) ∧
      (∀ q t0, c.notReady = some (q, t0) →
        (c.notReadyAt + 100000 ≤ s.time → ∃ t, exec (.notReadyResend h i) s = .next t ∧
          ((t.sctx k).valid = false ∨ (t.sctx k).notReadyAt = s.time ∧ (t.sctx k).unacked = c.unacked)) ∧
        (s.time < c.notReadyAt + 100000 → exec (.notReadyResend h i) s = .next s) ∧
        (t0 + s.fget FAB_TP_CTL.NOTREADY_MS 0 0 * 1000000 ≤ s.time → ∃ t, exec (.notReadyLimit h i) s = .next t ∧
          (t.sctx k).valid = false ∧ Freed s t c.part c.slot) ∧
        (s.time < t0 + s.fget FAB_TP_CTL.NOTREADY_MS 0 0 * 1000000 → exec (.notReadyLimit h i) s = .next s)))
---end

/-- For each data message that waits here under its type, is not stale and opens a stream that has no receive context, where
a context k of its hub is free and its body fits: if its access is served (act answers a state u and OK), the memory is
u's, and context k is valid, of the message's source, stream, epoch and order, has applied exactly the message's SEQ,
was last used now, and is done if the message is the last. If its stream's context k has already applied its SEQ and the
message is one that a RESPONSE answers, it is not applied again: no byte of memory changes and DUPLICATES counts it. If
its channel holds its access, nothing changes at all: it stays in the inbox. A receive context closes 10 ms after its
last use, and one used less than 10 ms ago whose stream is not done does not. -/
def Obligations.ArrivingDataIsAppliedOnce : Prop :=
  ∀ (s : State) (m : Msg) (cmd : Instr) (ty : Nat) (fits ackOk : Bool) (act : State → Option (State × Nat)), m.wf = true →
    (cmd = .remoteWrite m ∧ ty = 1 ∧ fits = bodyFits m (m.opx == 0) true ∧ ackOk = true ∧ act = (fun t => t.applyWrite m) ∨
      cmd = .remoteReduce m ∧ ty = 2 ∧ ackOk = true ∧ act = (fun t => t.applyReduce m) ∧
        fits = bodyFits { m with addr := msgTarget m } (decide (m.opx < 16) && decide (m.opx % 4 < 3)) true ∨
      cmd = .kvPageWrite m ∧ ty = 3 ∧ m.opx ≠ 1 ∧ m.opx ≠ 2 ∧ fits = bodyFits m (m.opx == 0) true ∧ ackOk = true ∧ act = (fun t => t.applyWrite m) ∨
      cmd = .kvPageReadReq m ∧ ty = 3 ∧ m.opx = 1 ∧ fits = (bodyFits m true false && m.len != 0) ∧ ackOk = false ∧
        act = (fun t => t.applyRead m) ∨
      cmd = .tokenFwd m ∧ ty = 4 ∧ fits = bodyFits m (m.opx == 0) true ∧ ackOk = true ∧ act = (fun t => t.applyForward m) ∨
      cmd = .stream m ∧ ty = 5 ∧ fits = bodyFits m (m.opx == 0) true ∧ ackOk = true ∧ act = (fun t => t.applyForward m)) →
    s.hasMsg m ty = true →
    let t0 := s.takeMsg m
    t0.stale m = false →
    (∀ k u, t0.rctxOf m = none → m.opening = true → t0.freeRctx m.port = some k → fits = true → act t0 = some (u, 0) →
      ∃ t, exec cmd s = .next t ∧ t.mem = u.mem ∧ t.chk = u.chk ∧ t.rctx k = { (
        { valid := true, src := m.src, stream := m.stream, epoch := m.epoch, ordered := m.ord, next := m.seq
          lastAt := u.time, doneAt := if m.last then some u.time else none } : RecvCtx).applySeq m.seq with
        lastAt := u.time }) ∧
    (∀ k, t0.rctxOf m = some k → (t0.rctx k).valid = true → ackOk = true →
      m.seq < (t0.rctx k).next ∨ (t0.rctx k).applied.contains m.seq = true →
      ∃ t, exec cmd s = .next t ∧ t.mem = s.mem ∧ t.chk = s.chk ∧ t.evts = s.evts ∧
        t.fget FAB_TP_COUNT.DUPLICATES 0 0 =
          min (s.fget FAB_TP_COUNT.DUPLICATES 0 0 + 1) (2 ^ FAB_TP_COUNT.DUPLICATES.w - 1)) ∧
    (∀ k, t0.rctxOf m = none → m.opening = true → t0.freeRctx m.port = some k → fits = true → act t0 = none →
      exec cmd s = .next s)
---end

/-- A valid receive context unused for 10 ms, or whose last message was applied 10 ms ago, closes; another does not change.
READ_DATA for the oldest unanswered request of a KV_UNPARK's stream: poisoned, it ends the stream and its command;
otherwise its bytes are appended to what the command has received and the request is acknowledged. -/
def Obligations.ReceiveContextsCloseAndReadDataArrives : Prop :=
  ∀ (s : State),
    (∀ (h i : Nat), h < 4 → i < 4096 →
      let c := s.rctx (h * 4096 + i)
      (c.valid = true → (c.lastAt + 10000000 ≤ s.time ∨ ∃ d, c.doneAt = some d ∧ d + 10000000 ≤ s.time) →
        ∃ t, exec (.recvContextClose h i) s = .next t ∧ t.rctx (h * 4096 + i) = {} ∧
          (∀ k, k ≠ h * 4096 + i → t.rctx k = s.rctx k) ∧ t.mem = s.mem ∧ t.regs = s.regs) ∧
      (s.time < c.lastAt + 10000000 → c.doneAt = none → exec (.recvContextClose h i) s = .next s)) ∧
    (∀ (m : Msg) (k : Nat), m.wf = true → s.hasMsg m 3 = true → m.opx = 2 →
      let t0 := s.takeMsg m
      let c := t0.sctx k
      t0.ctxOf m = some k → c.valid = true → (c.unacked.head?).map Msg.seq = some m.seq →
      (t0.execOf c.part c.slot).opcode = 5 →
      (m.poison = true → ∃ t, exec (.kvPageReadData m) s = .next t ∧ (t.sctx k).valid = false ∧ Freed s t c.part c.slot) ∧
      (m.poison = false → exec (.kvPageReadData m) s = .next (((t0.onExec c.part c.slot (fun e =>
        { e with got := e.got ++ m.body.take m.len })).acked k m.seq).withQueue s.pending)))
---end

/-- A tree message of the current epoch that has arrived here and comes from a valid child (BAR_UP, BCAST_UP, SNAP_UP) or
from the parent (BAR_DOWN, BCAST_DOWN, SNAP_MARKER) is taken from the inbox and acts at the node: BAR_UP adds the child
and its marks and tries the barrier, BAR_DOWN ends this epoch's barrier and tries the next, BCAST_UP passes the
broadcast up or, at the root, down, BCAST_DOWN passes it down (both change nothing while the device's own delivery
waits), SNAP_UP adds the child and its mark and tries the drain report, SNAP_MARKER ends a cut. The same messages of
another epoch are discarded: FAB_GOP_COUNT.BAD counts them, the tree stays as it is, and no byte of memory changes. -/
def Obligations.TreeMessagesMoveTheBarrier : Prop :=
  ∀ (s : State) (m : Msg), m.wf = true → s.inbox.contains m = true → m.ll = true ∨ m.dest = s.fabAddr →
    let t0 := s.takeMsg m
    let go (t : State) : Host.Outcome State Fault Refusal := .next (t.withQueue s.pending)
    (∀ c a, t0.kids.find? (fun q => q.2 == m.src) = some (c, a) → m.seq = t0.epoch →
      (m.ty = 0x10 → exec (.barUp m) s = go ((t0.onTree (fun r => { r with
        children := if r.children.contains c then r.children else r.children ++ [c]
        snap := r.snap || m.opx.testBit 0, failed := r.failed || m.opx.testBit 1 })).barTry)) ∧
      (m.ty = 0x12 → (t0.parent.isNone && t0.castWaits m (originOf m)) = false → exec (.bcastUp m) s = go (t0.castUp m)) ∧
      (m.ty = 0x12 → t0.parent = none → t0.castWaits m (originOf m) = true → exec (.bcastUp m) s = .next s) ∧
      (m.ty = 0x14 → exec (.snapUp m) s = go ((t0.onTree (fun r => { r with
        snapChildren := if r.snapChildren.contains c then r.snapChildren else r.snapChildren ++ [c]
        snapFailed := r.snapFailed || m.opx.testBit 1 })).snapTry false))) ∧
    (t0.parent = some m.src → m.seq = t0.epoch →
      (m.ty = 0x11 → exec (.barDown m) s = go (t0.barDown (m.opx.testBit 0) (m.opx.testBit 1)).barTry) ∧
      (m.ty = 0x13 → t0.castWaits m (originOf m) = false → exec (.bcastDown m) s = go (t0.castDown m)) ∧
      (m.ty = 0x13 → t0.castWaits m (originOf m) = true → exec (.bcastDown m) s = .next s) ∧
      (m.ty = 0x15 → t0.fget FAB_GOP_STATUS.SNAP_CUT 0 0 = 1 → exec (.snapMarker m) s = go (t0.snapMarker (m.opx.testBit 1)))) ∧
    (∀ cmd, m.seq ≠ t0.epoch →
      (cmd = .barUp m ∧ m.ty = 0x10 ∨ cmd = .barDown m ∧ m.ty = 0x11 ∨ cmd = .bcastUp m ∧ m.ty = 0x12 ∨
        cmd = .bcastDown m ∧ m.ty = 0x13 ∨ cmd = .snapUp m ∧ m.ty = 0x14 ∨ cmd = .snapMarker m ∧ m.ty = 0x15) →
      ∃ t, exec cmd s = .next t ∧ t.fget FAB_GOP_COUNT.BAD 0 0 =
        min (s.fget FAB_GOP_COUNT.BAD 0 0 + 1) (2 ^ FAB_GOP_COUNT.BAD.w - 1) ∧ t.tree = s.tree ∧ t.mem = s.mem)
---end

/-- When the device has been cut and has drained, a leaf or inner node that has all its children's reports marks its drain
and has sent SNAP_UP; while a child's report is missing it only marks its drain and the time. A resume of a held
snapshot ends the cut and SNAP_HELD; without a hold it changes nothing. When a valid child's BAR_UP is missing for
TIMEOUT_MS after this node was ready, a node with a parent has sent BAR_UP, marked as failed, and waits for BAR_DOWN. A
child that is not valid times nothing out. -/
def Obligations.SnapshotsAndGlobalTimeouts : Prop :=
  ∀ (s : State) (who : Accessor) (child : Nat), who.wf = true → child < 16 →
    (s.tree.cut = true → s.tree.drained = false → s.fget FAB_GOP_STATUS.SNAP_CUT 0 0 = 1 → s.allDrained = true →
      s.tree.snapUpSent = false →
      (∀ a, s.parent = some a → s.kids.all (fun q => s.tree.snapChildren.contains q.1) = true →
        ∃ t, exec .snapshotDrained s = .next t ∧ t.tree.drained = true ∧ t.tree.snapUpSent = true ∧
          t.tree.snapReadyAt = some s.time ∧ t.mem = s.mem) ∧
      (s.kids.all (fun q => s.tree.snapChildren.contains q.1) = false →
        exec .snapshotDrained s = .next (s.onTree (fun t => { t with drained := true, snapReadyAt := some s.time })))) ∧
    (s.reaches who FAB_GOP_CTL.RESUME 0 0 = true →
      (s.fget FAB_GOP_STATUS.SNAP_HELD 0 0 = 1 → ∃ t, exec (.snapshotResume who) s = .next t ∧ t.tree.cut = false ∧
        t.fget FAB_GOP_STATUS.SNAP_HELD 0 0 = 0 ∧ t.mem = s.mem ∧ t.execs = s.execs) ∧
      (s.fget FAB_GOP_STATUS.SNAP_HELD 0 0 ≠ 1 → exec (.snapshotResume who) s = .next s)) ∧
    (s.fget FAB_TREE_CHILD.VALID 0 child = 0 → exec (.gopTimeout child) s = .next s) ∧
    (∀ a r, s.fget FAB_TREE_CHILD.VALID 0 child ≠ 0 → s.tree.readyAt = some r →
      r + max 1 (s.fget FAB_GOP_CTL.TIMEOUT_MS 0 0) * 1000000 ≤ s.time → s.tree.sentUp = false →
      s.tree.children.contains child = false → s.parent = some a →
      ∃ t, exec (.gopTimeout child) s = .next t ∧ t.tree = { s.tree with sentUp := true, failed := true } ∧
        t.fget FAB_GOP_STATUS.BAR_WAIT 0 0 = 1 ∧ t.mem = s.mem)
---end

/-- A privileged RESET_START, with no request outstanding, asks for a reset: at a node with a parent RESET_ACTIVE is 1 and
the request stands since now. A RESET_REQ of a child, a RESET_DOWN of the parent and a last RESET_ACK act as the reset
asked for, begun and answered. A request unanswered for 10 ms begins the reset here, and a reset without all its answers
for 10 ms is answered; before that neither timeout changes anything. A local reset waits 100 us from its answer.
TIME_REQ leaves for the parent when its period has passed, and its time is kept; an arriving TIME_REQ is taken and no
register changes. A TIME_RESP from the parent, before any lock or deck, steps the timebase by the offset measured;
afterwards it leaves the timebase and sets the slew. -/
def Obligations.FabricResetAndTime : Prop :=
  ∀ (s : State),
    let go (t : State) : Host.Outcome State Fault Refusal := .next (t.withQueue s.pending)
    (∀ who a, who.wf = true → s.reaches who FAB_GOP_CTL.RESET_START 0 0 = true → s.privileged who = true →
      s.tree.resetReqAt = none → s.parent = some a → ∃ t, exec (.fabricResetStart who) s = .next t ∧
        t.fget FAB_GOP_STATUS.RESET_ACTIVE 0 0 = 1 ∧ t.tree = { s.tree with resetReqAt := some s.time } ∧ t.mem = s.mem) ∧
    (∀ m, m.wf = true → s.inbox.contains m = true → m.ll = true ∨ m.dest = s.fabAddr → m.seq = (s.takeMsg m).epoch →
      (∀ c a, (s.takeMsg m).kids.find? (fun q => q.2 == m.src) = some (c, a) →
        (m.ty = 0x16 → s.tree.resetReqAt = none → exec (.resetReq m) s = go (s.takeMsg m).resetAsk) ∧
        (m.ty = 0x18 → s.tree.resetDownAt ≠ none → s.kids.all (fun q => s.tree.resetAcks.contains q.1) = true →
          exec (.resetAck m) s = go ((s.takeMsg m).onTree (fun r => { r with
            resetAcks := if r.resetAcks.contains c then r.resetAcks else r.resetAcks ++ [c] })).resetAck)) ∧
      (m.ty = 0x17 → (s.takeMsg m).parent = some m.src → exec (.resetDown m) s = go (s.takeMsg m).resetBegin)) ∧
    (∀ r, s.tree.resetReqAt = some r →
      (r + 10000000 ≤ s.time → exec .resetReqTimeout s = go s.resetBegin) ∧
      (s.time < r + 10000000 → exec .resetReqTimeout s = .next s)) ∧
    (∀ r, s.tree.resetDownAt = some r →
      (r + 10000000 ≤ s.time → ∃ t, exec .resetAckTimeout s = .next t ∧ t.tree = { s.tree with
        resetDownAt := none, ackSentAt := some s.time } ∧ t.mem = s.mem ∧ t.regs = s.regs) ∧
      (s.time < r + 10000000 → exec .resetAckTimeout s = .next s)) ∧
    (∀ r, s.tree.ackSentAt = some r → (s.time < r + 100000 → exec .fabricLocalReset s = .next s) ∧
      (r + 100000 ≤ s.time → ∃ t, exec .fabricLocalReset s = .next t ∧ t.stepped = false ∧
        t.fget FAB_GOP_EVENT.RESET_DONE 0 0 = 1)) ∧
    (∀ a, s.parent = some a → s.syncAt + max 1 (s.fget FAB_TIME_CTL.PERIOD 0 0) * 100000 ≤ s.time →
      ∃ t, exec .timeSyncPeriod s = .next t ∧ t.syncAt = s.time ∧ t.regs = s.regs ∧ t.mem = s.mem) ∧
    (∀ m, m.wf = true → s.inbox.contains m = true → m.ll = true ∨ m.dest = s.fabAddr →
      (m.ty = 0x19 → ∃ t, exec (.timeReq m) s = .next t ∧ t.regs = s.regs ∧ t.mem = s.mem ∧ t.time = s.time) ∧
      (m.ty = 0x1A → (s.takeMsg m).parent = some m.src →
        let at_ (i : Nat) : Int := (leNat ((m.body.drop (8 * i)).take 8) : Int)
        let off : Int := Int.tdiv ((at_ 1 - at_ 0) - ((s.time : Int) - at_ 2)) 2
        (s.stepped = false → s.deckEver = false → ∃ t, exec (.timeResp m) s = .next t ∧
          t.time = ((s.time : Int) + off).toNat % 2 ^ 64 ∧ t.stepped = true ∧ t.slew = 0 ∧
          t.fget FAB_TIME_STATUS.LOCKED 0 0 = (if off.natAbs ≤ 20 then 1 else 0)) ∧
        (s.stepped = true ∨ s.deckEver = true → ∃ t, exec (.timeResp m) s = .next t ∧ t.time = s.time ∧ t.slew = off)))
---end

/-- For a thread that may start the operator, with its input, output and optional slots given and every word it reads clean:
NORM without a RESID slot writes each row normalised by KIND and EPS with GAIN and BIAS; ROPE rotates each head of each
row by the angles of its position; ACT writes FUNC of each element, or FUNC of the gate times the element, scaled for
OUT. Each then ends, or meets fault 0x02 where NAN_FAULT forbids what it wrote. With a word of its reads bad, the
operator meets fault 0x03 and writes nothing; where the vector unit's own check fails, it meets fault 0x08 and writes
nothing. -/
def Obligations.NormRopeActWriteTheirRows : Prop :=
  ∀ (s : State) (j th : Nat) (c : Ctx) (i o : Slot), threadOk j th = true →
    s.ctxSlot c 8 = some i → s.ctxSlot c 9 = some o →
    let rows := List.range (c.f 20 4)
    let go (u : State) : Host.Outcome State Fault Refusal := .next ((u.issued j th).withQueue s.pending)
    (s.startOf 0x06 j th = some c → s.ctxSlot c 13 = none →
      let gain := s.ctxSlot c 10
      let bias := s.ctxSlot c 11
      let reads := i.spans c.tile rows ++ (gain.map (fun g => g.spans c.tile [0])).getD [] ++
        (bias.map (fun g => g.spans c.tile [0])).getD []
      (s.Clean reads → ∃ u, exec (.norm j ⟨th, false⟩) s = go u ∧ (s.opReads c reads).Finished c
        ((s.opReads c reads).putRows c.tile o 0 (rows.map (fun r => normRow (c.f 12 1) (c.f 24 4)
          (gain.map (fun g => s.row32 c.tile g 0)) (bias.map (fun g => s.row32 c.tile g 0))
          ((s.row32 c.tile i r).take (c.f 16 4))))) u) ∧
      ((∃ x ∈ reads, (s.look x.1 x.2).2 = true) → exec (.norm j ⟨th, false⟩) s = go ((s.opReads c reads).opFault c 0x03))) ∧
    (s.startOf 0x07 j th = some c →
      let reads := i.spans c.tile rows ++ ((s.ctxSlot c 10).map (fun q => q.allSpans c.tile)).getD []
      let pos := ((s.ctxSlot c 10).map (s.flatCodes c.tile)).getD (s.execOf c.part c.slot).pos
      s.Clean reads → ∃ u, exec (.rope j ⟨th, false⟩) s = go u ∧ (s.opReads c reads).Finished c
        ((s.opReads c reads).putRows c.tile o 0 (rows.map (fun r =>
          let xs := (s.row32 c.tile i r).take (c.f 16 4 * headDim (c.f 12 1))
          ((segs (headDim (c.f 12 1)) xs.length xs).map (rotateHead (c.f 11 1) (c.f 14 2)
            (ropeAngles (c.f 24 4) (c.f 28 4) (c.f 14 2) (pos.getD r 0)))).flatten))) u) ∧
    (s.startOf 0x08 j th = some c →
      let gate := s.ctxSlot c 10
      let reads := i.spans c.tile rows ++ (gate.map (fun g => g.spans c.tile rows)).getD []
      let out (r : Nat) : List Nat := match gate with
        | some g => List.zipWith (fun y x => mul32 (actFn (c.f 11 1) y) x) ((s.row32 c.tile g r).take (c.f 16 4))
            ((s.row32 c.tile i r).take (c.f 16 4))
        | none => ((s.row32 c.tile i r).take (c.f 16 4)).map (actFn (c.f 11 1))
      s.Clean reads → ∃ u, exec (.act j ⟨th, false⟩) s = go u ∧ (s.opReads c reads).Finished c
        (((rows.map out).mapIdx (fun r xs => (r, packScaled o.fmt (c.f 24 4) xs))).foldl (fun a x =>
          (a.1.putElems c.tile o x.1 0 x.2, a.2.join x.2.ev)) (s.opReads c reads, {})) u) ∧
    (∀ cmd op, (cmd = .norm j ⟨th, true⟩ ∧ op = 0x06 ∨ cmd = .rope j ⟨th, true⟩ ∧ op = 0x07 ∨ cmd = .act j ⟨th, true⟩ ∧ op = 0x08) →
      s.startOf op j th = some c → exec cmd s = go (s.failIo c 0x08))
---end

/-- For a thread that may start the operator with its slots given and clean reads. ROUTE writes for each row of logits the
chosen experts to INDEX and their gates to GATES: the TOPK largest scores, ties to the lower index. SAMPLE of a plain
graph writes one token, drawn at the position that follows the step's tokens, with node 0 as its path; one without a
valid logit marks its session in the command. EMBED from the tile's own slice, with every token inside the vocabulary,
writes each token's table row, element times block scale times TSCALE. Each then ends, or meets fault 0x02 where
NAN_FAULT forbids what it wrote. EMBED from tier 1 asks the yarder for the rows of the tokens inside the vocabulary. -/
def Obligations.RouteSampleEmbedChoose : Prop :=
  ∀ (s : State) (j th : Nat) (c : Ctx), threadOk j th = true →
    let go (u : State) : Host.Outcome State Fault Refusal := .next ((u.issued j th).withQueue s.pending)
    (∀ i ix g, s.startOf 0x09 j th = some c → s.ctxSlot c 8 = some i → s.ctxSlot c 9 = some ix → s.ctxSlot c 10 = some g →
      let rows := List.range (c.f 16 4)
      let reads := i.spans c.tile rows
      let chosen := rows.map (fun r => routeRow (c.f 14 1) (c.f 11 1) ((s.row32 c.tile i r).take (c.f 12 2)))
      s.Clean reads → ∃ u, exec (.route j ⟨th, false⟩) s = go u ∧ (s.opReads c reads).Finished c
        (((chosen.mapIdx (fun r l => (r, l.map Prod.fst))).foldl (fun u x => u.putCodes c.tile ix x.1 0 x.2)
          (s.opReads c reads)).putRows c.tile g 0 (chosen.map (fun l => l.map Prod.snd))) u) ∧
    (∀ lg o, s.startOf 0x0C j th = some c → s.ctxSlot c 8 = some lg → s.ctxSlot c 10 = some o → s.ctxSlot c 9 = none →
      s.commitF c.part c.graph 0 1 = 0 →
      let r := (s.execOf c.part c.slot).resv.getD (c.f 12 1) {}
      let reads := s.paramSpans c (c.f 12 1) ++ lg.spans c.tile [lg.rows - 1]
      let x := sampleRow (s.sampleParams c (c.f 12 1)) ((s.row32 c.tile lg (lg.rows - 1)).take (c.f 16 4))
        (rngDraw (s.sampleParams c (c.f 12 1)).seed (r.n + s.commitF c.part c.graph 4 4 - 1)
          (rngC1 r.slot (s.srec c.part r.slot 0 2) 0))
      let w := ((s.opReads c reads).putCodes c.tile o (c.f 12 1) 0 [1, x.tok]).putCodes c.tile o (c.f 12 1) 129 [0]
      s.Clean reads → ∃ u, exec (.sample j ⟨th, false⟩) s = go u ∧ (s.opReads c reads).Finished c
        (if x.invalid then w.onExec c.part c.slot (fun e => { e with invalid := e.invalid ++ [c.f 12 1] }) else w,
          { nanLogit := x.nan, invalid := x.invalid }) u) ∧
    (∀ o f, s.startOf 0x0D j th = some c → s.ctxSlot c 9 = some o → fmtOf (c.f 10 1) = some f → s.ctxSlot c 8 = none →
      let toks := (s.execOf c.part c.slot).toks.take o.rows
      let len := embedPitch f (c.f 16 4)
      let at_ (v : Nat) : Nat := t0At c.tile (c.embedAddr f v)
      let s1 := s.opReads c (toks.map (fun v => (at_ v, len)))
      (c.f 11 1 = 0 → (∀ v ∈ toks, v < c.f 20 4) → (∀ v ∈ toks, (s1.look (at_ v) len).2 = false) →
        ∃ u, exec (.embed j ⟨th, false⟩) s = go u ∧ s1.Finished c
          (s1.putRows c.tile o 0 (toks.map (fun v => embedRow f (c.f 16 4) (c.f 24 4) (s1.look (at_ v) len).1))) u) ∧
      (c.f 11 1 ≠ 0 →
        let qs := (toks.filter (fun v => decide (v < c.f 20 4))).flatMap (fun v => fetchReqs (c.embedAddr f v) len)
        qs ≠ [] → exec (.embed j ⟨th, false⟩) s = go (s.request c qs))) ∧
    (∀ cmd op, (cmd = .route j ⟨th, true⟩ ∧ op = 0x09 ∨ cmd = .sample j ⟨th, true⟩ ∧ op = 0x0C ∨ cmd = .embed j ⟨th, true⟩ ∧ op = 0x0D) →
      s.startOf op j th = some c → exec cmd s = go (s.failIo c 0x08))
---end

/-- For a thread that may start the operator. A failed check of the units is fault 0x08. ATTEND_PREFILL and ATTEND_BWD first
pin the session's pages, all of them present, and ask the yarder for them; while a pin is held they wait, and a page
that lacks is fault 0x07. With their pages asked for, their arrays free, every page's seal good and their slots clean,
ATTEND_PREFILL writes the merged records of its rows to OUT and STATS, and ATTEND_BWD writes dQ, dK and dV to the
outputs it names; each ends, or meets fault 0x02 where NAN_FAULT forbids what it wrote. ATTEND_DECODE of one session
pins its pages and counts its path: on the tile path it asks the yarder for the pages; on the Thapel path its page steps
wait for a queue and the thread waits for their results. An ATTEND_DECODE whose pages have all come and whose results
have all been delivered, with good seals and clean slots, writes the sessions' records and ends the same way. -/
def Obligations.AttentionOperatorsRun : Prop :=
  ∀ (s : State) (j th : Nat) (c : Ctx) (q : Slot), threadOk j th = true → s.ctxSlot c 8 = some q →
    let go (u : State) : Host.Outcome State Fault Refusal := .next ((u.issued j th).withQueue s.pending)
    let e := s.execOf c.part c.slot
    let l := c.layerKv 12
    let key := thrKey c.tile c.level c.thread
    let w := s.attnDrop c.tile c.level c.thread
    let free := (s.tile c.tile).want = none ∧ s.servedFirst c = false ∧ s.arraysFree c = true
    let sealed (ps : List (Nat × APage)) := ∀ x ∈ ps, s.sealOk c.part l x.2.page = true
    (∀ cmd op, (cmd = .attendPrefill j ⟨th, false⟩ ∧ op = 0x03 ∨ cmd = .attendBwd j ⟨th, false⟩ ∧ op = 0x05) →
      s.startOf op j th = some c → Tbl.get [] s.attn key = [] →
      (∀ pages, s.seqPages c = some pages → ((∃ a ∈ pages, s.pageGone a.page = true) → exec cmd s = go (s.opFault c 0x07)) ∧
        ((∀ a ∈ pages, s.pageGone a.page = false) → s.pinAll (pages.map APage.page) = none → exec cmd s = go (s.waitUnit c)) ∧
        (∀ u, (∀ a ∈ pages, s.pageGone a.page = false) → s.pinAll (pages.map APage.page) = some u → exec cmd s = go (((u.withAttn (Tbl.put [] u.attn key
          [⟨0, pages.map APage.page, [], []⟩])).request c (pages.flatMap (fun a => s.pageReqs c.part l a.page))).yarderEnd c))) ∧
      (s.seqPages c = none → exec cmd s = go (s.opFault c 0x07))) ∧
    (∀ cmd op, (cmd = .attendPrefill j ⟨th, true⟩ ∧ op = 0x03 ∨ cmd = .attendDecode j ⟨th, true⟩ ∧ op = 0x04 ∨
        cmd = .attendBwd j ⟨th, true⟩ ∧ op = 0x05) → s.startOf op j th = some c → exec cmd s = go (s.failIo c 0x08)) ∧
    (s.startOf 0x03 j th = some c → Tbl.get [] s.attn key ≠ [] → free → sealed (s.seqHandled c) →
      let r := e.resv.getD (c.f 29 1) {}
      let n := c.f 20 4
      let rows := s.prefillRows c e r n 11
      let pend := (r.segs.zip (s.rowPositions c.part r r.segs)).map (fun x => RowEnt.mk 0 x.2 x.1)
      let qs := (List.range n).map (s.slotRow c.tile q)
      let pages := (s.seqPages c).getD []
      let res := s.partRecords c l r false rows pend qs pages
      let reads := q.spans c.tile (List.range n) ++ ((s.ctxSlot c 11).map (fun g => g.allSpans c.tile)).getD []
      w.Clean reads → ∃ u, exec (.attendPrefill j ⟨th, false⟩) s = go u ∧ (w.opReads c reads).Finished c
        ((((w.opReads c reads).recNan c res.2).putAttn c 1 0 res.1).1,
          (((w.opReads c reads).recNan c res.2).putAttn c 1 0 res.1).2.join
            { nanLogit := res.2, special := res.2, accOvf := s.partOvf c l r false rows pend qs pages }) u) ∧
    (∀ qs st, s.startOf 0x05 j th = some c → Tbl.get [] s.attn key ≠ [] → free → s.ctxSlot c 9 = some qs →
      s.ctxSlot c 10 = some st → sealed (s.seqHandled c) →
      let rs := List.range (c.f 20 4)
      let reads := q.spans c.tile rs ++ qs.spans c.tile rs ++ st.spans c.tile rs ++
        ((s.ctxSlot c 33).map (fun g => g.allSpans c.tile)).getD []
      let g := s.bwdGrads c q qs st
      let put (u : State × NumEv) (off : Nat) (rows : List (List Nat)) : State × NumEv := match s.ctxSlot c off with
        | some o => ((u.1.putRows c.tile o 0 rows).1, u.2.join (u.1.putRows c.tile o 0 rows).2)
        | none => u
      w.Clean reads → ∃ u, exec (.attendBwd j ⟨th, false⟩) s = go u ∧ (w.opReads c reads).Finished c
        (put (put (put (w.opReads c reads, { accOvf := g.2.2.2 }) 11 g.1) 31 g.2.1) 32 g.2.2.1) u) ∧
    (s.startOf 0x04 j th = some c → c.f 21 1 = 1 → ∀ pages, s.decodePages c l 0 = some pages →
      let r := e.resv.getD 0 {}
      let steps := (pages.mapIdx (fun i a => s.stepsOf c l r q 0 i (s.decodeRows c e r 0 (c.f 20 1)) a)).flatten
      let s1 (t n : Nat) := (s.fcountN ATTN_COUNT.THAPEL_PARTS c.tile 0 t).fcountN ATTN_COUNT.TILE_PARTS c.tile 0 n
      (s.onThapel c l r = false → (∀ a ∈ pages, (s1 0 1).pageGone a.page = false) →
        ∀ u, (s1 0 1).pinAll (pages.map APage.page) = some u →
        exec (.attendDecode j ⟨th, false⟩) s = go (((u.withAttn (Tbl.put [] u.attn key [⟨0, pages.map APage.page, [], []⟩])).request
          c (pages.flatMap (fun a => (s1 0 1).pageReqs c.part l a.page))).yarderEnd c)) ∧
      (s.onThapel c l r = true → s.thin c l r = true → steps ≠ [] → (∀ a ∈ pages, (s1 1 0).pageGone a.page = false) →
        ∀ u, (s1 1 0).pinAll (pages.map APage.page) = some u →
        ∃ t, exec (.attendDecode j ⟨th, false⟩) s = .next t ∧ (t.thr j c.level th).st = .steps ∧
          (∀ x ∈ steps.mapIdx (fun i x => { x with tag := (s.stepNo + i) % 65536 }), x ∈ t.thapWait) ∧
          t.stepNo = s.stepNo + steps.length)) ∧
    (∀ a, c.opcode = 0x04 → c.f 21 1 = 1 → (s.thr c.tile c.level c.thread).st = .steps → Tbl.get [] s.attn key = [a] →
      a.sess = 0 → a.steps.length ≤ a.got.length →
      let r := e.resv.getD 0 {}
      let res := if a.steps = [] then s.decodeTile c l q 0
        else (a.merged (c.f 20 1) (c.f 16 1) c.kvHeads c.groupF c.dimF,
          (a.merged (c.f 20 1) (c.f 16 1) c.kvHeads c.groupF c.dimF).any (fun l => l.any (fun x => isNan32 x.m)))
      (a.steps = [] → sealed (((s.decodePages c l 0).getD []).map (fun a => (s.handleOf c.part r.slot, a)))) →
      w.Clean (s.decodeReads c q) → (w.opReads c (s.decodeReads c q)).Finished c
        ((((w.opReads c (s.decodeReads c q)).recNan c res.2).putAttn c c.splitF.2 0 res.1).1,
          (((w.opReads c (s.decodeReads c q)).recNan c res.2).putAttn c c.splitF.2 0 res.1).2.join
            { nanLogit := res.2, special := res.2, accOvf := a.steps == [] && s.decodeOvf c l q 0 }) (s.attnEnd c))
---end

/-- For a thread that may start the operator. REDUCE with SCOPE 1, of FP32 parts without records, its slots given and clean,
writes for each group the parts combined element by element over the tree to OUT in element order, and ends or meets
fault 0x02. REDUCE with SCOPE 0 of clean rows asks the yarder to add each row into landing at its pitch; a bad row is
fault 0x03. COPY between places of the tile itself moves each piece's bytes, poison with them, and ends. A COPY with an
end outside makes its pieces the thread's requests and issues them. Where no COPY may start, the tile issues what it can
for those already begun. -/
def Obligations.ReduceAndCopyMoveTheirRows : Prop :=
  ∀ (s : State) (j th : Nat) (c : Ctx), threadOk j th = true →
    let go (u : State) : Host.Outcome State Fault Refusal := .next ((u.issued j th).withQueue s.pending)
    (s.startOf 0x0F j th = some c → ∀ i, s.ctxSlot c 8 = some i →
      (∀ o, s.ctxSlot c 9 = some o → c.f 12 1 ≠ 0 → c.f 10 1 ≠ 3 → c.f 11 1 = 0 → s.Clean (i.allSpans c.tile) →
        let w := s.opReads c (i.allSpans c.tile)
        let part (g k : Nat) : List Nat := ((s.flatCodes c.tile i).drop ((g * c.f 13 1 + k) * c.f 32 4)).take (c.f 32 4)
        let sums := (List.range (c.f 36 4)).map (fun g => (List.range (c.f 32 4)).map (fun x =>
          tree (adder (c.f 10 1) 0) 0 ((List.range (c.f 13 1)).map (fun k => (part g k).getD x 0))))
        ∃ u, exec (.reduce j ⟨th, false⟩) s = go u ∧ w.Finished c (w.putFlat c.tile o sums.flatten) u) ∧
      (c.f 12 1 = 0 →
        let n := i.fmt.packed (c.f 32 4)
        let rows := List.range (c.f 36 4)
        let reads := rows.map (fun r => (wsAt c.tile (i.rowAt r), n))
        let qs := rows.flatMap (fun r => reduceReqs (c.f 10 1) (c.f 11 1) n (c.land + r * i.pitch)
          (s.look (wsAt c.tile (i.rowAt r)) (up64 n)).1)
        (s.Clean reads → qs ≠ [] → exec (.reduce j ⟨th, false⟩) s = go ((s.opReads c reads).request c qs)) ∧
        ((∃ x ∈ reads, (s.look x.1 x.2).2 = true) → exec (.reduce j ⟨th, false⟩) s = go ((s.opReads c reads).opFault c 0x03)))) ∧
    (s.startOf 0x0E j th = some c →
      let xs := s.copyCuts c
      let s0 := s.ownReads c (ownSpans xs)
      let here (x : CopyEnd × CopyEnd × Nat) := ∃ k d, x.1 = .here k ∧ x.2.1 = .here d
      ((s.copyDst c).2 = none → (∀ x ∈ xs, here x) → exec (.copyRows j th) s = go ((xs.foldl State.copyHere s0).opDone c)) ∧
      ((s.copyDst c).2 ≠ none ∨ (∃ x ∈ xs, ¬here x) → xs ≠ [] →
        exec (.copyRows j th) s = go (s0.request c (xs.map (s.copyReq (s.copyDst c).2))))) ∧
    (s.startOf 0x0E j th = none → exec (.copyRows j th) s = .next ((s.issueAll j).withQueue s.pending)) ∧
    (s.startOf 0x0F j th = some c → exec (.reduce j ⟨th, true⟩) s = go (s.failIo c 0x08))
---end

/-- For a thread that may start the operator with its slots given and its reads clean. DISPATCH sets DISPATCH_DROP where a
row does not fit and asks the yarder to write every row that fits the capacity of its expert's entry, behind a row tag,
into that expert's landing, then each expert's count; COMBINE asks it to add, or in the other mode to write, each row
times its tag's gate into the landing that the tag names; KV_APPEND asks it to write the K and V of each token and head
into the page and slot that the append gives it. Once the last request has completed, DISPATCH and COMBINE add 1 to the
semaphore of every entry, and each ends, COMBINE and KV_APPEND in fault 0x02 where NAN_FAULT forbids what was written. -/
def Obligations.DispatchCombineAppendSendRows : Prop :=
  ∀ (s : State) (j th : Nat) (c : Ctx), threadOk j th = true →
    let go (u : State) : Host.Outcome State Fault Refusal := .next ((u.issued j th).withQueue s.pending)
    let landed := (s.thr c.tile c.level c.thread).st = .yarder ∧ (s.thr c.tile c.level c.thread).reqs = [] ∧
      (s.thr c.tile c.level c.thread).outst = 0
    (∀ i ix g, s.startOf 0x0A j th = some c → s.ctxSlot c 8 = some i → s.ctxSlot c 9 = some ix → s.ctxSlot c 10 = some g →
      let rs := List.range (c.f 16 4)
      let n := c.f 20 4
      let ent (e : Nat) : MapEnt := s.mapEnt c.part (c.f 24 2 + e)
      let all (e : Nat) := (dispatchPairs (rs.map (fun r => (s.slotCodes c.tile ix r).1.take (c.f 11 1)))).filter
        (fun x => x.2.2 == e)
      let fit (e : Nat) := (all e).take (ent e).cap
      let rows := (List.range (c.f 12 2)).flatMap (fun e => (fit e).mapIdx (fun k x =>
        (landAddr ((ent e).land + 256 + c.f 15 1 * (ent e).cap * (64 + n) + k * (64 + n)),
          rowTag (c.f 15 1) x.2.1 x.1 (((s.slotCodes c.tile g x.1).1).getD x.2.1 0) ++
            (s.look (wsAt c.tile (i.rowAt x.1)) n).1)))
      let counts := (List.range (c.f 12 2)).map (fun e => (landAddr ((ent e).land + 4 * c.f 15 1), natLE 4 (fit e).length))
      let reads := rs.map (fun r => (wsAt c.tile (i.rowAt r), n)) ++ ix.spans c.tile rs ++ g.spans c.tile rs
      let qs := (rows ++ counts).flatMap (fun x => putReqs x.1 x.2)
      s.Clean reads → qs ≠ [] → exec (.dispatch j th) s = go (((s.opReads c reads).flagIf TILE_SEQ_EVENT.DISPATCH_DROP
        c.tile ((List.range (c.f 12 2)).any (fun e => decide ((fit e).length < (all e).length)))).request c qs)) ∧
    (c.opcode = 0x0A → landed → (∀ e ∈ List.range (c.f 12 2), s.semBad c 0 (s.mapEnt c.part (c.f 24 2 + e)).sem = false) →
      s.yarderEnd c = ((List.range (c.f 12 2)).foldl (fun t e => t.semAdd c 0 (s.mapEnt c.part (c.f 24 2 + e)).sem 1) s).opDone c) ∧
    (∀ i tg, s.startOf 0x0B j th = some c → s.ctxSlot c 8 = some i → s.ctxSlot c 9 = some tg → c.f 16 4 ≠ 0 →
      let ents := s.returnMap c.part (c.f 24 2)
      let rs := List.range (c.f 16 4)
      let tag (r : Nat) := leNat (s.slotRaw c.tile tg (64 * r) 64)
      let at_ (r : Nat) := if c.f 11 1 = 0 then fld (tag r) 2 2 else fld (tag r) 2 2 * c.f 12 1 + fld (tag r) 1 1
      let dst (r : Nat) := landAddr ((ents.getD (fld (tag r) 0 1) ⟨0, 0, 0⟩).land + at_ r * c.f 20 4 * 4)
      let out (r : Nat) := ((s.row32 c.tile i r).take (c.f 20 4)).map (mul32 (fld (tag r) 4 4))
      let bytes (r : Nat) := ((out r).map (natLE 4)).flatten
      let reads := i.spans c.tile rs ++ rs.map (fun r => (tg.byteAt c.tile (64 * r), 64))
      let qs := rs.flatMap (fun r => if c.f 11 1 = 0 then reduceReqs 0 0 (bytes r).length (dst r) (bytes r)
        else putReqs (dst r) (bytes r))
      s.Clean reads → qs ≠ [] → exec (.combine j ⟨th, false⟩) s =
        go (((s.opReads c reads).noteEv c (ev32 (rs.flatMap out))).request c qs)) ∧
    (c.opcode = 0x0B → landed → (∀ e ∈ s.returnMap c.part (c.f 24 2), s.semBad c 0 e.sem = false) →
      s.yarderEnd c = State.endWritten ((s.returnMap c.part (c.f 24 2)).foldl (fun t e => t.semAdd c 0 e.sem 1) s) c) ∧
    (s.startOf 0x0B j th = some c → exec (.combine j ⟨th, true⟩) s = go (s.failIo c 0x08)) ∧
    (∀ kq vq, s.startOf 0x10 j th = some c → s.ctxSlot c 8 = some kq → s.ctxSlot c 9 = some vq →
      let l := c.layerKv 14
      let d := headDim (c.f 20 1)
      let e := s.execOf c.part c.slot
      let r := e.resv.getD (c.f 10 1) {}
      let ext := if e.regrow.isSome then s.ranges c.part r.slot
        else extendRanges (s.pageT c.part) (s.ranges c.part r.slot) r.n r.segs
      let is := List.range (c.f 16 4)
      let cells := is.flatMap (fun i => (List.range (c.f 13 1)).map (fun h => (i, h)))
      let dst (x : Nat × Nat) := s.appendTo c.part e r ext ((c.f 11 1).testBit 0) l x.1
      let made (x : Nat × Nat) := s.kvPieces c.part l (((dst x).map Prod.fst).getD 0) (c.f 12 1 + x.2) (((dst x).map Prod.snd).getD 0)
        (((s.slotRow c.tile kq x.1).values.drop (x.2 * d)).take d) (((s.slotRow c.tile vq x.1).values.drop (x.2 * d)).take d)
      let writes := cells.flatMap (fun x => match dst x with
        | some pg => (made x).1.map (fun y =>
            (s.physOf (s.led pg.1).chan ((s.led pg.1).frame * s.frameSize c.part + y.1), y.2))
        | none => [])
      let reads := kq.spans c.tile is ++ vq.spans c.tile is
      let qs := writes.flatMap (fun x => putReqs x.1 x.2)
      s.Clean reads → qs ≠ [] → exec (.kvAppend j th) s = go (((s.opReads c reads).noteEv c
        (cells.foldl (fun a x => a.join (made x).2) {})).request c qs)) ∧
    (c.opcode = 0x10 → landed → s.yarderEnd c = s.endWritten c)
---end

/-- With a semaphore that can be read: SIGNAL of a thread that may start it adds VALUE to its semaphore, which stays at
0xFFFFFFFF where the sum would pass it, setting SEM_SAT; no other semaphore of its scope changes; it ends. WAIT ends at
once where the count has reached COUNT plus the iteration times the step, and otherwise the thread waits, from now.
WAIT_SATISFIED ends a waiting thread's operator where the count has reached its target and changes nothing otherwise.
WAIT_LIMIT makes fault 0x06 where LIMIT_US is not 0, has passed, and the count still falls short; otherwise it changes
nothing. A waiting thread whose semaphore reads uncorrectable meets fault 0x03 at WAIT_SATISFIED, with a record. A
completion that names no request in flight by its tag and generation only counts as late, and one of a request that its
channel holds does nothing; any other lands what came, frees the tag, lets the next request of its bank go, and gives
the thread a relayed write to make: a refused request is fault 0x03, a running operator goes on after its last request,
and the tile issues more. More than TIMEOUT_US after its issue the tag of a request in flight is quarantined for 2 us
and not in use; its operator, unless it has ended, meets fault 0x04; up to that time nothing happens. After the
quarantine a tag may be allocated again. A run-ahead read of a tile of a partition that the prefetch test does not allow
changes nothing; one that it allows and that meets an error counts as suppressed; a clean one is held by its channel or
served. -/
def Obligations.WaitsSignalsAndTagsSettle : Prop :=
  (∀ (s : State) (j th : Nat) (c : Ctx), threadOk j th = true →
     let go (u : State) : Host.Outcome State Fault Refusal := .next ((u.issued j th).withQueue s.pending)
     (s.startOf 0x12 j th = some c → s.semBad c (c.f 8 1) (c.f 14 2) = false → ∃ u : State, exec (.signalOp j th) s = go (u.opDone c) ∧
       u.sem c (c.f 8 1) (c.f 14 2) = min (s.sem c (c.f 8 1) (c.f 14 2) + c.f 16 4) 0xFFFFFFFF ∧
       (∀ n, n ≠ c.f 14 2 → u.sem c (c.f 8 1) n = s.sem c (c.f 8 1) n) ∧ u.mem = s.mem ∧ u.thrs = s.thrs ∧
       (0xFFFFFFFF < s.sem c (c.f 8 1) (c.f 14 2) + c.f 16 4 → u.fget TILE_SEQ_EVENT.SEM_SAT c.tile 0 = 1) ∧
       (s.sem c (c.f 8 1) (c.f 14 2) + c.f 16 4 ≤ 0xFFFFFFFF → u.regs = s.regs)) ∧
     (s.startOf 0x11 j th = some c → s.semBad c (c.f 8 1) (c.f 14 2) = false →
       (c.f 16 4 + c.iter * c.f 20 4 ≤ s.sem c (c.f 8 1) (c.f 14 2) → exec (.waitOp j th) s = go (s.opDone c)) ∧
       (s.sem c (c.f 8 1) (c.f 14 2) < c.f 16 4 + c.iter * c.f 20 4 → exec (.waitOp j th) s =
         go (s.onThr c.tile c.level th (fun h => { h with st := .waiting, since := s.time })))) ∧
     (s.waiting j th = some c → s.semBad c (c.f 8 1) (c.f 14 2) = true → exec (.waitSatisfied j th) s =
       .next ((s.semUe c).withQueue s.pending)) ∧
     (s.waiting j th = some c → s.semBad c (c.f 8 1) (c.f 14 2) = false →
       (c.target ≤ s.sem c (c.f 8 1) (c.f 14 2) → exec (.waitSatisfied j th) s = .next ((s.opDone c).withQueue s.pending) ∧
         exec (.waitLimit j th) s = .next s) ∧
       (s.sem c (c.f 8 1) (c.f 14 2) < c.target → exec (.waitSatisfied j th) s = .next s ∧
         (c.f 24 4 ≠ 0 → (s.thr j c.level th).since + c.f 24 4 * 1000 ≤ s.time →
           exec (.waitLimit j th) s = .next ((s.opEndFault c 0x06).withQueue s.pending)) ∧
         (c.f 24 4 = 0 ∨ s.time < (s.thr j c.level th).since + c.f 24 4 * 1000 → exec (.waitLimit j th) s = .next s)))) ∧
  (∀ (s : State) (j t : Nat), t < 512 → tileOk j = true →
     let g := s.tag j t
     let lim := g.issued + s.fget TILE_YARD_CTL.TIMEOUT_US j 0 * 1000
     (∀ gen, g.busy = false ∨ g.gen ≠ gen → exec (.yarderCompletion j t gen) s = .next (s.fcount TILE_YARD_COUNT.LATE j 0)) ∧
     (g.busy = true → g.held = true → exec (.yarderCompletion j t g.gen) s = .next s) ∧
     (let s0 := ((s.onTag j t (fun x => { x with busy := false, got := [], marks := 0 })).landGot g).observeReq
        { g.rqOf j (s.tilePart j) with arrived := g.came } [(g.rq.place, g.rq.len)]
      let s1 := ((bankOfPlace g.rq.place).map s0.bankNext).getD s0
      let s2 := s1.onThr j g.level g.thread (fun h => { h with outst := h.outst - 1, reqs := h.reqs ++ g.relayed })
      g.busy = true → g.held = false →
        (g.orphan = true → exec (.yarderCompletion j t g.gen) s = .next ((s1.issueAll j).withQueue s.pending)) ∧
        (∀ c, g.orphan = false → s2.tagCtx j g = some c →
          (g.refused = true → exec (.yarderCompletion j t g.gen) s = .next (((s2.failIo c 0x03).issueAll j).withQueue s.pending)) ∧
          (g.refused = false → (s2.tile c.tile).preempting = false → c.level = (s2.part c.part).level →
            exec (.yarderCompletion j t g.gen) s = .next (((s2.yarderEnd c).issueAll j).withQueue s.pending)))) ∧
     (g.busy = true → lim < s.time →
       let u := s.onTag j t (fun x => { x with busy := false, quarantine := true, freeAt := s.time + 2000 })
       (g.orphan = true → exec (.yarderTimeout j t) s = .next u) ∧
       (∀ c, g.orphan = false → u.tagCtx j g = some c →
         exec (.yarderTimeout j t) s = .next ((u.failIo c 0x04).withQueue s.pending))) ∧
     (g.busy = false ∨ s.time ≤ lim → exec (.yarderTimeout j t) s = .next s) ∧
     (g.quarantine = true → g.freeAt ≤ s.time → exec (.tagQuarantineEnd j t) s =
       .next (((s.onTag j t (fun x => { x with quarantine := false })).issueAll j).withQueue s.pending)) ∧
     (g.quarantine = false ∨ s.time < g.freeAt → exec (.tagQuarantineEnd j t) s = .next s) ∧
     (∀ p addr, s.tilePart j = some p → s.ingressOpen = true →
       let rq : Req := ⟨.runAhead j, hubOfTile j, p, addr - addr % 4096, 4096, 0, s.time⟩
       let ps := (s.placesOf rq).getD []
       (s.runAheadOk (hubOfTile j) p addr = false → ∀ b, exec (.runAheadRead j addr b) s = .next s) ∧
       (s.runAheadOk (hubOfTile j) p addr = true →
         (∃ u, exec (.runAheadRead j addr true) s = .next u ∧ u.rsp = ⟨.refused, []⟩ ∧
           u.regs = (s.fcount TILE_YARD_COUNT.RUNAHEAD_SUPPRESSED j 0).regs ∧ u.mem = s.mem) ∧
         (∀ k, s.heldBy ps = some k → exec (.runAheadRead j addr false) s = .next (s.holdAt k
           { rq := rq, write := false, since := s.time, data := [], poisoned := false })) ∧
         (s.heldBy ps = none → exec (.runAheadRead j addr false) s = .next ((s.serveRead rq ps).withQueue s.pending)))))
---end

/-- A read inside one granule of 512 B that hub ingress admits, with no merge entry open. Where every word it covers decodes
clean, the requester is answered with their bytes and nothing else changes but the latency monitors. Where one granule's
word decodes corrected and no write-back of it waits, the corrected bytes are delivered, memory keeps its bits, the
write-back is queued, and, where the class has a tally at a level below 64, its tally rises by one. Where a word is bad,
a requester other than the host and a run-ahead read is answered with the bytes as poisoned, and a run-ahead read is
answered refused with no record; memory keeps its bits. A read that crosses granules is split: where every piece is
admitted and clean, the answer is ok with the pieces' bytes in order, and memory and registers are as before. A read
admitted at a channel that is not in memory mode is held there. A read that the protection map does not admit sets the
refusal and is answered refused; one that meets no memory also sets WINDOW_MISS; while ingress is closed nothing
happens. -/
def Obligations.ReadsDeliverTheirBytes : Prop :=
  ∀ (s : State) (rq r : Req) (ps : List (Nat × Nat)), rq.wf = true →
    (rq.addr % 512 + rq.len ≤ 512 → s.Admitted rq .read r ps → s.merge = [] →
      ((∀ x ∈ ps, ∀ w ∈ wordsOf (s.cls x.1) x.1 x.2, s.verd w = .clean) →
        exec (.memoryRead rq []) s =
          .next ((s.observeReq r ps).answer .ok ((ps.map (fun x => (s.look x.1 x.2).1)).flatten))) ∧
      (∀ k n w pos, ps = [(k, n)] → wordsOf (s.cls k) k n = [w] → s.verd w = .corrected pos → s.wbq.contains w = false →
        ∃ t, exec (.memoryRead rq []) s = .next t ∧ t.rsp = ⟨.ok, (s.look k n).1⟩ ∧ t.mem = s.mem ∧ t.chk = s.chk ∧
          t.wbq = s.wbq ++ [w] ∧
          (∀ y, (s.cls w).tally = some y → s.fgetAt ERR_TALLY.T0 (s.whereIs w).1 0 (8 * y) < 64 →
            t.fgetAt ERR_TALLY.T0 (s.whereIs w).1 0 (8 * y) = s.fgetAt ERR_TALLY.T0 (s.whereIs w).1 0 (8 * y) + 1)) ∧
      ((∃ x ∈ ps, (s.look x.1 x.2).2 = true) → (∀ port vf, r.src ≠ .host port vf) → isRunAhead r.src = false →
        ∃ t, exec (.memoryRead rq []) s = .next t ∧ t.mem = s.mem ∧
          t.rsp = ⟨.poisoned, (ps.map (fun x => (s.look x.1 x.2).1)).flatten⟩) ∧
      ((∃ x ∈ ps, (s.look x.1 x.2).2 = true) → isRunAhead r.src = true →
        ∃ t, exec (.memoryRead rq []) s = .next t ∧ t.mem = s.mem ∧ t.errQ = s.errQ ∧ t.rsp = ⟨.refused, []⟩)) ∧
    (∀ place : Nat → Nat, s.merge = [] →
      (∀ x ∈ granules (rq.len / 512 + 2) rq.addr rq.len,
        (∃ q, s.Admitted { rq with addr := x.1, len := x.2 } .read q [(place x.1, x.2)]) ∧
        ∀ w ∈ wordsOf (s.cls (place x.1)) (place x.1) x.2, s.verd w = .clean) →
      ∃ t, exec (.memoryRead rq []) s = .next t ∧ t.mem = s.mem ∧ t.chk = s.chk ∧ t.regs = s.regs ∧
        t.rsp = ⟨.ok, ((granules (rq.len / 512 + 2) rq.addr rq.len).map (fun x => (s.look (place x.1) x.2).1)).flatten⟩) ∧
    (rq.addr % 512 + rq.len ≤ 512 → s.ingressOpen = true → s.route rq = some r → s.inReset r.part = false →
      (s.placesOf r = none → exec (.memoryRead rq []) s =
        .next (((s.windowMiss r.hub r.part .read (srcProt r.src) r.addr).refuseAnswer r false).withQueue s.pending)) ∧
      (s.placesOf r = some ps → s.permitted r .read = false → exec (.memoryRead rq []) s =
        .next (((s.refusal r.part .read (srcProt r.src) r.addr).refuseAnswer r false).withQueue s.pending)) ∧
      (∀ c, s.placesOf r = some ps → s.permitted r .read = true → s.heldBy ps = some c → exec (.memoryRead rq []) s =
        .next (s.holdAt c { rq := r, write := false, since := s.time, data := [], poisoned := false }))) ∧
    (s.ingressOpen = false → exec (.memoryRead rq []) s = .next s)
---end

/-- A write of one whole code word that hub ingress admits for a requester other than the host, with no merge entry open: it
is answered ok, the word holds exactly the bytes written, it decodes clean, or, when the data is poisoned and the class
can hold the mark, carries the poison mark, no write-back of the old word waits any more, and every byte of memory
outside the word and every register is as before. A write inside one granule that the protection map does not admit sets
the refusal, is answered refused, and stores nothing; one of a tile to its own tier-0 slice, which only the hub writes,
is refused as one that meets no memory. -/
def Obligations.WholeWritesStoreTheirWord : Prop :=
  ∀ (s : State) (rq r : Req) (k : Nat) (data : List Byte) (poisoned : Bool), rq.wf = true → data.length = rq.len →
    (s.Admitted rq .write r [(k, data.length)] → s.merge = [] → (∀ port vf, r.src ≠ .host port vf) →
      k % (s.cls k).word = 0 → data.length = (s.cls k).word →
      ∃ t, exec (.memoryWrite rq data poisoned) s = .next t ∧ t.rsp = ⟨.ok, []⟩ ∧ readBytes t.mem k data.length = data ∧
        t.delta k = (if poisoned then (s.cls k).poison else 0) ∧ (poisoned = false → t.verd k = .clean) ∧
        t.wbq.contains k = false ∧ (∀ a, a < k ∨ k + data.length ≤ a → readByte t.mem a = readByte s.mem a) ∧
        t.regs = s.regs) ∧
    (rq.addr % 512 + rq.len ≤ 512 → s.ingressOpen = true → s.route rq = some r → s.inReset r.part = false →
      (∀ ps, s.placesOf r = some ps → s.permitted r .write = false →
        ∃ t, exec (.memoryWrite rq data poisoned) s = .next t ∧ t.mem = s.mem ∧ t.chk = s.chk ∧
          t = ((s.refusal r.part .write (srcProt r.src) r.addr).refuseAnswer r true).withQueue s.pending) ∧
      (r.addr < t0Size → ∃ t, exec (.memoryWrite rq data poisoned) s = .next t ∧ t.mem = s.mem ∧ t.chk = s.chk ∧
          t = ((s.windowMiss r.hub r.part .write (srcProt r.src) r.addr).refuseAnswer r true).withQueue s.pending))
---end

/-- A write of some bytes of one code word that hub ingress admits for a requester other than the host, its block having no
open merge entry. In computable channels and in the working store, and in tier 0, protected channels and last-level
memory where the class does not merge and the word is not bad, the bytes land, and every byte outside the word is as
before; poisoned bytes mark the word, but in computable channels and host memory. Where the class does not merge and the
word is bad, the write is refused: WRITE_REFUSED is set, the answer is a bus error, and no byte changes. Where the class
merges and fewer than 64 entries are open at the hub, an entry opens that holds the bytes and which of them are
poisoned, and no byte of memory changes until it closes. -/
def Obligations.PartialWritesTakeTheirClassPath : Prop :=
  ∀ (s : State) (rq r : Req) (k : Nat) (data : List Byte) (poisoned : Bool), rq.wf = true → data.length = rq.len →
    s.Admitted rq .write r [(k, data.length)] → (∀ port vf, r.src ≠ .host port vf) → data ≠ [] →
    k % (s.cls k).word + data.length ≤ (s.cls k).word → data.length < (s.cls k).word →
    (∀ e ∈ s.merge, e.blk ≠ k - k % 64) →
    let w := k - k % (s.cls k).word
    let h := (s.whereIs w).1
    let direct := s.cls k = .t1c ∨ s.cls k = .host ∨ s.cls k = .wse ∨ s.cls k = .wsp
    (direct ∨ s.merges h (s.cls k) = false ∧ s.bad w = false →
      ∃ t, exec (.partialWrite rq data poisoned) s = .next t ∧ readBytes t.mem k data.length = data ∧ t.rsp = ⟨.ok, []⟩ ∧
        (poisoned = true → s.cls k ≠ .t1c → s.cls k ≠ .host → t.delta w = (s.cls k).poison) ∧
        ∀ a, a < w ∨ w + (s.cls k).word ≤ a → readByte t.mem a = readByte s.mem a) ∧
    (¬direct → s.merges h (s.cls k) = false → s.bad w = true →
      ∃ t, exec (.partialWrite rq data poisoned) s = .next t ∧ t.mem = s.mem ∧ t.rsp.kind = .busError ∧
        t.fget ERR_EVENT.WRITE_REFUSED h 0 % 2 = 1) ∧
    (¬direct → s.merges h (s.cls k) = true →
      (s.merge.filter (fun e => e.hub == (s.whereIs k).1)).length < 64 →
      ∃ t e, exec (.partialWrite rq data poisoned) s = .next t ∧ t.mem = s.mem ∧ t.merge = s.merge ++ [e] ∧
        e.blk = k - k % 64 ∧ e.hub = (s.whereIs k).1 ∧ e.opened = s.time ∧
        e.mask = byteMask (k % 64) data.length ∧ e.poison = (if poisoned then byteMask (k % 64) data.length else 0))
---end

/-- A reduce request whose part physical address lies outside landing memory is refused: ADDER_REFUSED is set at its hub,
the answer is a bus error, memory is as before. One of a single 64 B word that hub ingress admits, with no merge entry
open and every code word of it clean, stores in that word, clean, the elements of its operand combined by OP with those
in memory, is answered ok, and leaves every other byte as before. With a bad code word there it is answered with a bus
error and memory keeps its bits. A queued write-back stores the word as the decoder corrects it, clean, and is queued no
more; bytes outside the word are as before; of a word that has gone bad since it stores nothing; one that is not queued
changes nothing. 256 ns after a hub's oldest merge entry opened it closes: it is no longer open, and entries of other
blocks are; before that nothing changes. A leak, 10 s after the one before, lowers one class's tally at one hub by one,
not below 0, and touches no other register and no memory; before that it changes nothing. -/
def Obligations.ReducesAndQueuedWritesSettle : Prop :=
  (∀ (s : State) (rq r : Req) (op ty k : Nat) (data : List Byte), rq.wf = true → data.length = rq.len → op < 3 → ty < 4 →
     rq.addr % 64 = 0 → rq.len = 64 → s.ingressOpen = true →
     (s.route rq = some r → isLanding r.addr = false → exec (.adderReduce rq op ty data) s =
       .next ((s.evt HUB_MEM_EVENT.ADDER_REFUSED r.hub 0 1 none).answer .busError [])) ∧
     (isLanding r.addr = true → s.Admitted rq .add r [(k, 64)] → k % 64 = 0 → s.cls k = .llm → s.merge = [] →
       ((∀ w ∈ wordsOf .llm k 64, s.verd w = .clean) → ∃ t, exec (.adderReduce rq op ty data) s = .next t ∧
         t.rsp = ⟨.ok, []⟩ ∧ readBytes t.mem k 64 = natLE 64 (adderWord op ty (leNat (s.look k 64).1) (leNat data)) ∧
         (∀ w ∈ wordsOf .llm k 64, t.verd w = .clean) ∧
         (∀ a, a < k ∨ k + 64 ≤ a → readByte t.mem a = readByte s.mem a) ∧ t.regs = s.regs) ∧
       ((∃ w ∈ wordsOf .llm k 64, s.bad w = true) → ∃ t, exec (.adderReduce rq op ty data) s = .next t ∧
         t.rsp = ⟨.busError, []⟩ ∧ t.mem = s.mem))) ∧
  ((∀ (s : State) (k : Nat),
     (s.wbq.contains k = true → s.bad k = true → exec (.correctedWriteBack k) s = .next (s.withWbq (s.wbq.filter (· != k)))) ∧
     (s.wbq.contains k = true → s.bad k = false → ∃ t, exec (.correctedWriteBack k) s = .next t ∧ t.delta k = 0 ∧ t.wbq.contains k = false ∧
       readBytes t.mem k (s.wordData k).length = s.wordData k ∧
       (∀ a, a < k ∨ k + (s.wordData k).length ≤ a → readByte t.mem a = readByte s.mem a) ∧ t.regs = s.regs) ∧
     (s.wbq.contains k = false → exec (.correctedWriteBack k) s = .next s)) ∧
   (∀ (s : State) (h : Nat) (e : MergeEnt), h < 4 → s.merge.find? (fun x => x.hub == h) = some e →
     (e.opened + 256 ≤ s.time → ∃ t, exec (.mergeEntryTimeout h) s = .next t ∧
       t.merge = s.merge.filter (fun x => x.blk != e.blk)) ∧
     (s.time < e.opened + 256 → exec (.mergeEntryTimeout h) s = .next s)) ∧
   (∀ (s : State) (h : Nat), h < 4 → s.merge.find? (fun x => x.hub == h) = none → exec (.mergeEntryTimeout h) s = .next s) ∧
   (∀ (s : State) (h n : Nat), h < 4 → n < 4 →
     (s.due (h * 16 + 2 + n) 10000000000 = false → exec (.tallyLeak h n) s = .next s) ∧
     (s.due (h * 16 + 2 + n) 10000000000 = true → ∃ t, exec (.tallyLeak h n) s = .next t ∧
       t.fgetAt ERR_TALLY.T0 h 0 (8 * n) = (s.fgetAt ERR_TALLY.T0 h 0 (8 * n) - 1) % 256 ∧ t.mem = s.mem ∧
       Tbl.get 0 t.ticks (h * 16 + 2 + n) = s.time ∧
       ∀ d k, k ≠ ERR_TALLY.T0.key h 0 + 8 * n → Tbl.get d t.regs k = Tbl.get d s.regs k)))
---end

/-- An admitted write of a tile or hub engine to the host window, on a port whose link is up, stores its bytes in host
memory and is answered; on a port that is down it is discarded. An admitted read, with fewer than 4,096 reads out on its
port, waits under a tag; with 4,096 out it does not go. A refused one changes no byte. A good completion brings its
bytes to the waiting request and ends the wait; one of another status, and a timeout, return poison, record it, and end
the wait. A completion that no read waits for changes nothing. -/
def Obligations.HostWindowRequestsWaitForTheirCompletion : Prop :=
  (∀ (s : State) (rq : Req) (data : List Byte), rq.wf = true → isHostWindow rq.addr = true → s.ingressOpen = true →
    let port := (s.hostTarget rq.part rq.addr).1
    let key := hostAt port (s.hostTarget rq.part rq.addr).2
    (s.admits rq.part .write (srcProt rq.src) rq.addr rq.len = true → data.length = rq.len →
      (s.pkg.hostUp.getD port 0 ≠ 0 → exec (.hostWindowRequest rq true data) s =
        .next ((s.store key data false).answer .ok [])) ∧
      (s.pkg.hostUp.getD port 0 = 0 → exec (.hostWindowRequest rq true data) s = .next (s.answer .discarded []))) ∧
    (s.admits rq.part .read (srcProt rq.src) rq.addr rq.len = true →
      ((s.hostReads.filter (fun h => h.port == port)).length < 4096 → ∃ t, exec (.hostWindowRequest rq false data) s = .next t ∧
        t.hostReads = s.hostReads ++ [⟨port, s.hostTag % 16384, rq.part, key, rq.len, srcRec rq.src, rq.addr⟩] ∧ t.hostTag = s.hostTag + 1 ∧
        t.mem = s.mem ∧ t.regs = s.regs) ∧
      (4096 ≤ (s.hostReads.filter (fun h => h.port == port)).length → exec (.hostWindowRequest rq false data) s = .next s)) ∧
    (s.admits rq.part .write (srcProt rq.src) rq.addr rq.len = false → data.length = rq.len →
      ∃ t, exec (.hostWindowRequest rq true data) s = .next t ∧ t.hostReads = s.hostReads ∧ t.mem = s.mem) ∧
    (s.admits rq.part .read (srcProt rq.src) rq.addr rq.len = false → ∃ t, exec (.hostWindowRequest rq false data) s = .next t ∧
      t.hostReads = s.hostReads ∧ t.mem = s.mem)) ∧
  (∀ (s : State) (port tag : Nat) (h : HostRead), port < 2 →
    s.hostReads.find? (fun x => x.port == port && x.tag == tag) = some h →
    (∀ data, ∃ t, exec (.hostCompletion port tag 0 data) s = .next t ∧ t.rsp = ⟨.ok, data.take h.len⟩ ∧
      t.hostReads = s.hostReads.filter (fun x => !(x.port == port && x.tag == tag)) ∧ t.regs = s.regs) ∧
    (∀ st data, 0 < st → st < 4 → ∃ t, exec (.hostCompletion port tag st data) s = .next t ∧ t.rsp = ⟨.poisoned, []⟩ ∧
      t.hostReads = s.hostReads.filter (fun x => !(x.port == port && x.tag == tag)) ∧ t.mem = s.mem ∧
      (queueFill 256 (s.fget ERR_Q_PROD.PROD (2 * port) 0) (s.fget ERR_Q_CONS.CONS (2 * port) 0) ≠ 256 →
        t.recs (2 * port) = s.recs (2 * port) + 1)) ∧
    (∃ t, exec (.hostCompletionTimeout port tag) s = .next t ∧ t.rsp = ⟨.poisoned, []⟩ ∧ t.mem = s.mem ∧
      t.hostReads = s.hostReads.filter (fun x => !(x.port == port && x.tag == tag)))) ∧
  (∀ (s : State) (port tag st : Nat) (data : List Byte), port < 2 → st < 4 →
    s.hostReads.find? (fun x => x.port == port && x.tag == tag) = none →
    exec (.hostCompletion port tag st data) s = .next s ∧ exec (.hostCompletionTimeout port tag) s = .next s)
---end

/-- The hot bank of a microsecond is one whose requests waited for more than FRAC ÷ 256 of it, with the longest such wait;
there is none where no bank's did. A tick less than a microsecond after the one before changes nothing, and one of a
microsecond with no hot bank only marks its time. One with a hot bank raises the hub's tally by one, and no other
register, while it stays within BUCKET (0 acts as 1). When it exceeds BUCKET, HOT_BANK is set, HUB_HOTBANK_STATUS names
channel and bank, and the tally is 0 again. A leak, LEAK_US microseconds (0 acts as 1) after the one before, lowers the
tally by one, not below 0. No byte of memory changes. -/
def Obligations.HotBanksAreTalliedAndReported : Prop :=
  (∀ (f : Nat) (ws : List (Nat × Nat × Nat)),
    (hotBank f ws = none ↔ ∀ w ∈ ws, w.2.2 * 256 ≤ f * 1000) ∧
    (∀ w, hotBank f ws = some w → w ∈ ws ∧ f * 1000 < w.2.2 * 256 ∧ ∀ x ∈ ws, x.2.2 ≤ w.2.2)) ∧
  ∀ (s : State) (h c b ns : Nat) (waits : List (Nat × Nat × Nat)), h < 4 → c < 192 → b < 32 →
    let hot := hotBank (s.fget HUB_HOTBANK_CTL.FRAC h 0) waits
    let n := s.fget HUB_HOTBANK_STATUS.TALLY h 0
    let bucket := max 1 (s.fget HUB_HOTBANK_CTL.BUCKET h 0)
    let leak := max 1 (s.fget HUB_HOTBANK_CTL.LEAK_US h 0) * 1000
    (s.due (h * 16) 1000 = false → exec (.hotbankTick h waits) s = .next s) ∧
    (s.due (h * 16) 1000 = true →
      (hot = none → exec (.hotbankTick h waits) s = .next (s.ticked (h * 16))) ∧
      (hot = some (c, b, ns) → n + 1 ≤ bucket → n < 255 → ∃ t, exec (.hotbankTick h waits) s = .next t ∧
        t.fget HUB_HOTBANK_STATUS.TALLY h 0 = n + 1 ∧ t.mem = s.mem ∧
        ∀ d k, k ≠ HUB_HOTBANK_STATUS.TALLY.key h 0 → Tbl.get d t.regs k = Tbl.get d s.regs k) ∧
      (hot = some (c, b, ns) → bucket < n + 1 → ∃ t, exec (.hotbankTick h waits) s = .next t ∧
        t.fget HUB_HOTBANK_STATUS.TALLY h 0 = 0 ∧ t.fget HUB_HOTBANK_STATUS.CHANNEL h 0 = c ∧
        t.fget HUB_HOTBANK_STATUS.BANK h 0 = b ∧ t.fget HUB_MEM_EVENT.HOT_BANK h 0 = 1 ∧ t.mem = s.mem)) ∧
    (s.due (h * 16 + 1) leak = false → exec (.hotbankLeak h) s = .next s) ∧
    (s.due (h * 16 + 1) leak = true → ∃ t, exec (.hotbankLeak h) s = .next t ∧
      t.fget HUB_HOTBANK_STATUS.TALLY h 0 = (n - 1) % 256 ∧ t.mem = s.mem ∧
      ∀ d k, k ≠ HUB_HOTBANK_STATUS.TALLY.key h 0 → Tbl.get d t.regs k = Tbl.get d s.regs k)
---end

/-- A START by an accessor that reaches HUB_MARGIN_CTL writes its fields. Where no sweep runs on the hub: with the target in
a running partition REFUSED and DONE are set and no sweep runs; otherwise the sweep runs. While one runs a second START
starts none. When a sweep ends, LEFT and RIGHT hold the steps passed, at most STEPS, LANE the limiting lane, DONE and
MARGIN_DONE are set, and no sweep runs; all stored data is preserved. With no sweep running the end changes nothing. An
accessor that does not reach the register changes nothing. For the operation that starts and a word that R280 lets raw
mode reach, of a block with no open merge entry. READ_RAW and READ_CORRECTED answer the data, the verdict and the
syndrome, set DONE, and change no byte, no check bits and no queue. WRITE_ENCODED stores the data clean; WRITE_RAW
stores data and check bits as given; both only in a word of no running partition, setting DONE and leaving every byte
outside the word. A write to a running partition's word, and any operation where R280 finds no word, sets REFUSED and
DONE and changes no byte. An accessor without privilege changes nothing. -/
def Obligations.SweepsAndRawOperationsAct : Prop :=
  (∀ (s : State) (who : Accessor) (h v left right lane : Nat), who.wf = true → h < 4 → v.testBit 14 = true →
     (s.reaches who HUB_MARGIN_CTL.TARGET h 0 = false → exec (.marginSweepStart who h v) s = .next s) ∧
     (s.reaches who HUB_MARGIN_CTL.TARGET h 0 = true → ∃ t, exec (.marginSweepStart who h v) s = .next t ∧ t.mem = s.mem ∧
       t.fget HUB_MARGIN_CTL.TARGET h 0 = v % 2 ^ 12 ∧ t.fget HUB_MARGIN_CTL.TIER h 0 = v / 2 ^ 12 % 2 ∧
       t.fget HUB_MARGIN_CTL.KIND h 0 = v / 2 ^ 13 % 2 ∧ t.fget HUB_MARGIN_CTL.STEPS h 0 = v / 2 ^ 16 % 256 ∧
       (Tbl.get 0 s.margin h = 0 → s.sweepTaken h (v % 2 ^ 12) (v / 2 ^ 12 % 2) = true →
         t.fget HUB_MARGIN_RESULT.REFUSED h 0 = 1 ∧ t.fget HUB_MARGIN_RESULT.DONE h 0 = 1 ∧ t.margin = s.margin) ∧
       (Tbl.get 0 s.margin h = 0 → s.sweepTaken h (v % 2 ^ 12) (v / 2 ^ 12 % 2) = false → Tbl.get 0 t.margin h = 1 ∧
         ∀ k, k ≠ h → Tbl.get 0 t.margin k = Tbl.get 0 s.margin k) ∧
       (Tbl.get 0 s.margin h ≠ 0 → t.margin = s.margin)) ∧
     (Tbl.get 0 s.margin h = 0 → exec (.marginSweepDone h left right lane) s = .next s) ∧
     (Tbl.get 0 s.margin h ≠ 0 → ∃ t, exec (.marginSweepDone h left right lane) s = .next t ∧
       t.fget HUB_MARGIN_RESULT.LEFT h 0 = min left (s.fget HUB_MARGIN_CTL.STEPS h 0) % 256 ∧
       t.fget HUB_MARGIN_RESULT.RIGHT h 0 = min right (s.fget HUB_MARGIN_CTL.STEPS h 0) % 256 ∧
       t.fget HUB_MARGIN_LANE.LANE h 0 = lane % 1024 ∧ t.fget HUB_MARGIN_RESULT.DONE h 0 = 1 ∧
       t.fget HUB_MEM_EVENT.MARGIN_DONE h 0 = 1 ∧ Tbl.get 0 t.margin h = 0 ∧ t.mem = s.mem)) ∧
  (∀ (s : State) (who : Accessor) (h v w : Nat),
     (s.privileged who = false →
       ∀ c op, (c = .readRaw who h v ∧ op = 0 ∨ c = .readCorrected who h v ∧ op = 1 ∨ c = .writeRaw who h v ∧ op = 2 ∨
         c = .writeEncoded who h v ∧ op = 3) → rawOk who h v op = true → exec c s = .next s) ∧
     (s.privileged who = true → s.rawPlace h (v / 4 % 4) (v / 16 % 16) = some w → (∀ e ∈ s.merge, e.blk ≠ w - w % 64) →
       (∀ c op, (c = .readRaw who h v ∧ op = 0 ∨ c = .readCorrected who h v ∧ op = 1) → rawOk who h v op = true →
         ∃ t, exec c s = .next t ∧ t.fget ECC_RAW_STATUS.DONE h 0 = 1 ∧
           t.fget ECC_RAW_STATUS.RESULT h 0 = verdCode (s.verd w) ∧
           t.fget ECC_RAW_SYN.SYNDROME h 0 = (s.cls w).syndrome (s.delta w) % 2 ^ 64 ∧
           t.fget ECC_RAW_DATA.DATA h 0 = leNat ((if op = 0 then s.storedBytes w else s.wordData w).take 8) % 2 ^ 64 ∧
           t.mem = s.mem ∧ t.chk = s.chk ∧ t.wbq = s.wbq ∧ t.errQ = s.errQ) ∧
       (∀ c op, (c = .writeRaw who h v ∧ op = 2 ∨ c = .writeEncoded who h v ∧ op = 3) → rawOk who h v op = true →
         (s.rawTaken w = true → ∃ t, exec c s = .next t ∧ t.fget ECC_RAW_STATUS.REFUSED h 0 = 1 ∧
           t.fget ECC_RAW_STATUS.DONE h 0 = 1 ∧ t.mem = s.mem ∧ t.chk = s.chk) ∧
         (s.rawTaken w = false → ∃ t, exec c s = .next t ∧ t.fget ECC_RAW_STATUS.DONE h 0 = 1 ∧
           readBytes t.mem w (s.cls w).word = s.plainBytes w (s.rawData h (s.cls w)) ∧ t.errQ = s.errQ ∧
           (op = 3 → t.delta w = 0) ∧
           (op = 2 → s.cls w = .t0 → t.delta w = s.fget ECC_RAW_CHECK.CHECK h 0 ^^^ rsCheck (s.rawData h .t0)) ∧
           (∀ a, a < w ∨ w + (s.cls w).word ≤ a → readByte t.mem a = readByte s.mem a)))) ∧
     (s.privileged who = true → s.rawPlace h (v / 4 % 4) (v / 16 % 16) = none →
       ∀ c op, (c = .readRaw who h v ∧ op = 0 ∨ c = .readCorrected who h v ∧ op = 1 ∨ c = .writeRaw who h v ∧ op = 2 ∨
         c = .writeEncoded who h v ∧ op = 3) → rawOk who h v op = true →
       ∃ t, exec c s = .next t ∧ t.fget ECC_RAW_STATUS.REFUSED h 0 = 1 ∧ t.fget ECC_RAW_STATUS.DONE h 0 = 1 ∧
         t.mem = s.mem ∧ t.chk = s.chk))
---end

/-- A waiting step that the map grants T, for a channel in service and in memory mode with room in its queue, is queued and
the channel begins its entry, holding from then on the accesses that wait at its banks; one for a channel that already
runs steps is queued behind them; with none waiting, or no room, nothing happens. A channel with a step to run that has
drained enters processor mode and its first step, if its account lets it, runs, its vectors and row table in the query
buffer; while requests drain it does not. A running page step, wanted and good, with a free half, closes with its header
and records in that half; a running seal check closes, counted, its pin gone, and, where the seal is wrong, its page
dropped. The drain takes the older half: a wanted page's result goes to its part, and the part ends if it was its last.
With no step to run and LINGER_NS past, the channel returns to memory mode and serves what it held. -/
def Obligations.PageStepsQueueRunAndDeliver : Prop :=
  ∀ (s : State) (c : Nat) (x : Step), c < 768 →
    let h := hubOfChan c
    (s.ingressOpen = true →
      (s.thapWait.find? (fun y => y.chan == c) = none → exec (.thapelStepQueue h c) s = .next s) ∧
      (s.thapWait.find? (fun y => y.chan == c) = some x →
        (64 ≤ (s.chan c).queue.length → exec (.thapelStepQueue h c) s = .next s) ∧
        ((s.chan c).queue.length < 64 → (s.chan c).mode = .memory → s.oos c = false →
          s.admits x.part .thapel 4 (s.physOf c (x.frame * s.frameSize x.part)) (s.frameSize x.part) = true →
          exec (.thapelStepQueue h c) s = .next ((s.withThapWait (s.thapWait.erase x)).onChan c (fun k =>
            { k with queue := k.queue ++ [{ x with queued := s.time }], mode := .entering,
                     held := k.held ++ k.bankQ, bankQ := [], left := s.time }))) ∧
        ((s.chan c).queue.length < 64 → (s.chan c).mode ≠ .memory → (s.chan c).running ≠ none → s.oos c = false →
          s.admits x.part .thapel 4 (s.physOf c (x.frame * s.frameSize x.part)) (s.frameSize x.part) = true →
          ∃ t, exec (.thapelStepQueue h c) s = .next t ∧ t.thapWait = s.thapWait.erase x ∧
            (t.chan c).queue = (s.chan c).queue ++ [{ x with queued := s.time }] ∧ (t.chan c).mode = (s.chan c).mode))) ∧
    ((s.chan c).mode = .entering ∨ (s.chan c).mode = .memory →
      (s.drainLeft c = true → exec (.processorModeEntry c) s = .next s) ∧
      (∀ rest, s.drainLeft c = false → (s.chan c).running = none → (s.chan c).queue = x :: rest → s.stepMay x = true →
        ∃ t, exec (.processorModeEntry c) s = .next t ∧ t.mem = s.mem ∧
          t.chan c = { s.chan c with mode := .processor, lastYield := s.time, lingerFrom := s.time, queue := rest,
                                     running := some x, closed := none, retried := false,
                                     qbuf := x.buffer })) ∧
    ((s.chan c).running = some x → (s.chan c).closed = none → (s.chan c).halves.length < 2 →
      (x.op = 1 → s.stepStatus x = 0 → s.stepLive x = true →
        exec (.attendPage c) s = .next ((((s.observe h (128 + x.part) (s.time - x.queued)).onChan c (fun k =>
          { k with closed := some 0, halves := k.halves ++ [s.stepResult x 0] })).finishEndings x.part).withQueue s.pending)) ∧
      (x.op = 2 → s.stepStatus x = 0 ∨ s.stepStatus x = 1 →
        let u := if s.stepStatus x = 0 ∨ x.pending = true then s else s.sealFail x.part x.layer x.page x.handle 9
        exec (.sealVerify c) s = .next ((((u.fcount ERR_SCRUB_STATUS.SEAL_VERIFIES h 0).observe h (128 + x.part)
          (s.time - x.queued)).unpin x.page).onChan c (fun k =>
          { k with closed := some (s.stepStatus x), halves := k.halves ++ [s.stepResult x (s.stepStatus x)] })))) ∧
    ((s.chan c).halves = [] → exec (.resultBufferDrain c) s = .next s) ∧
    (∀ r rest, (s.chan c).halves = r :: rest →
      let u := s.onChan c (fun k => { k with halves := rest })
      (¬(r.step.op = 1 ∧ r.status = 0 ∧ s.stepLive r.step = true) → exec (.resultBufferDrain c) s = .next u) ∧
      (∀ ctx, r.step.op = 1 → r.status = 0 → s.stepLive r.step = true → s.stepCtx r.step = some ctx →
        exec (.resultBufferDrain c) s = .next ((State.attnEnd (u.withAttn (Tbl.upd [] s.attn
          (thrKey r.step.tile r.step.level r.step.thread) (fun l => l.map (fun a =>
            if a.sess = r.step.sess then AttnPart.mk a.sess a.pages a.steps (a.got ++ [r]) else a)))) ctx).withQueue s.pending))) ∧
    ((s.chan c).mode = .processor → (s.chan c).running = none →
      (s.chan c).queue = [] ∨ (∃ rest, (s.chan c).queue = x :: rest ∧ s.stepMay x = false) →
      ((s.chan c).lingerFrom + s.fget THAPEL_CTL.LINGER_NS h 0 ≤ s.time → exec (.lingerExpiry c) s =
        .next ((((s.onChan c (fun k => { k with mode := .memory, due := [] })).setProc c false).serveN c
          (s.chan c).held.length).withQueue s.pending)) ∧
      (s.time < (s.chan c).lingerFrom + s.fget THAPEL_CTL.LINGER_NS h 0 → exec (.lingerExpiry c) s = .next s))
---end

/-- In processor mode a yield point frees the channel of a step closed OK, issues due refreshes, serves up to 16 held
accesses in order and starts the next step; a step not closed whose units check well goes on; the first unit fault of a
step leaves its header in a half, is counted, and the step runs again; while no half is free it waits; outside processor
mode nothing happens. A tile's or host's read held for 50 us is returned channel-busy, a host's as Completer Abort, and
held no more; before, nothing happens. HANG_US without a yield point the first hang of a step that has not closed
counts, refreshes are issued and the step runs again; a step that has closed does not hang. A refresh falls due only
when its interval has passed: in memory mode it is issued, in processor mode it waits with a deadline of eight
intervals. A running step that a refresh's deadline meets is abandoned, counted, and runs on after that refresh; the
others stay due. -/
def Obligations.YieldPointsFaultsAndRefreshes : Prop :=
  ∀ (s : State) (c : Nat) (x : Step), c < 768 →
    let h := hubOfChan c
    ((s.chan c).mode ≠ .processor → ∀ b, exec (.yieldPoint c b) s = .next s) ∧
    ((s.chan c).mode = .processor → (s.chan c).running = some x →
      ((s.chan c).closed = some 0 → ∀ b, exec (.yieldPoint c b) s = .next
        ((((s.onChan c (fun k => { k with running := none, closed := none })).onChan c (fun k =>
          { k with due := [], lastYield := s.time, lingerFrom := s.time })).serveN c 16).startStep c)) ∧
      ((s.chan c).closed = none → exec (.yieldPoint c false) s = .next s) ∧
      ((s.chan c).closed = none → 2 ≤ (s.chan c).halves.length → exec (.yieldPoint c true) s = .next s) ∧
      ((s.chan c).closed = none → (s.chan c).halves.length < 2 → (s.chan c).retried = false → exec (.yieldPoint c true) s = .next
        ((((((s.onChan c (fun k => { k with halves := k.halves ++ [s.stepResult x 4] })).evt THAPEL_EVENT.UNIT_FAULT h 0 1
          (some x.part)).onChan c (fun k => { k with retried := true, closed := none })
          ).fcount THAPEL_COUNT.UNIT_RETRIES h 0).yieldTail c).finishEndings x.part)) ∧
      ((s.chan c).closed ≠ none → exec (.thapelHang c) s = .next s) ∧
      ((s.chan c).closed = none → (s.chan c).retried = false → (s.chan c).lastYield + s.fget THAPEL_CTL.HANG_US h 0 * 1000 ≤ s.time →
        exec (.thapelHang c) s = .next (((((((s.evt THAPEL_EVENT.HANG h 0 1 (some x.part)).onChan c (fun k =>
          { k with due := [], lastYield := s.time })).onChan c (fun k => { k with retried := true, closed := none })).fcount
          THAPEL_COUNT.UNIT_RETRIES h 0).startStep c).finishEndings x.part).withQueue s.pending)) ∧
      (s.time < (s.chan c).lastYield + s.fget THAPEL_CTL.HANG_US h 0 * 1000 → exec (.thapelHang c) s = .next s)) ∧
    (∀ i q j th, (s.chan c).held[i]? = some q → q.rq.src = .tile j th → q.yard = none → q.write = false →
      (s.time < q.since + 50000 → exec (.channelBusy c i) s = .next s) ∧
      (q.since + 50000 ≤ s.time → ∃ t, exec (.channelBusy c i) s = .next t ∧ t.rsp = ⟨.channelBusy, []⟩ ∧
        t.chan c = { s.chan c with held := (s.chan c).held.eraseIdx i } ∧ t.fget THAPEL_EVENT.CHAN_BUSY h 0 = 1 ∧
        t.fget THAPEL_BUSY_REC.VALID h 0 = 1 ∧ t.mem = s.mem)) ∧
    (∀ i q port vf, (s.chan c).held[i]? = some q → q.rq.src = .host port vf → q.yard = none → q.write = false →
      q.since + 50000 ≤ s.time → ∃ t, exec (.channelBusy c i) s = .next t ∧ t.rsp = ⟨.abort, []⟩ ∧
        t.chan c = { s.chan c with held := (s.chan c).held.eraseIdx i } ∧ t.mem = s.mem) ∧
    (s.time < (s.chan c).refreshAt → exec (.refresh c) s = .next s) ∧
    ((s.chan c).refreshAt ≤ s.time →
      let i := refreshInterval (s.bandOf c)
      ((s.chan c).mode ≠ .processor → exec (.refresh c) s = .next (s.onChan c (fun k => { k with refreshAt := s.time + i }))) ∧
      ((s.chan c).mode = .processor → exec (.refresh c) s = .next (s.onChan c (fun k =>
        { k with refreshAt := s.time + i, due := k.due ++ [s.time + 8 * i] })))) ∧
    (((s.chan c).running = some x → (s.chan c).closed = none → (∃ d ∈ (s.chan c).due, d ≤ s.time) →
      exec (.refreshAbandon c) s = .next (((s.onChan c (fun k => { k with due := k.due.filter (fun d => decide (s.time < d)) })).evt
        THAPEL_EVENT.REFRESH_ABANDON h 0 1 (some x.part)).fcount THAPEL_COUNT.ABANDONS h 0)) ∧
     ((∀ d ∈ (s.chan c).due, s.time < d) → exec (.refreshAbandon c) s = .next s))
---end

/-- A request of a master and partition without an account is released, at the level of best effort. With an account, a
window boundary that has come is taken first; none held before it and allowance left, it is then charged (guarantee
first, then best effort, then borrowing, the rest debt) and released, its answer the level of its first byte; otherwise
it is held, last in order. When an account's window boundary has come, with nothing held, its budgets are reset less its
debt, and a tile's yarder goes on issuing what waited; before it nothing is reset; a Thapel account not in use has no
boundary. A sample sets the urgency level of the fabric or host port: 0 below 50 per cent, 1 below 75, 2 below 90, else
3. FACTOR follows HUB_DELIV over the guaranteed sum, at most 1,024, and SHORTFALL_START or SHORTFALL_END is set where it
leaves or comes back to 1,024. -/
def Obligations.AccountsHoldAndReleaseRequests : Prop :=
  ∀ (s : State) (h : Nat), h < 4 →
    (∀ m p n, m < 22 → p < 16 →
      (s.account h m p = none → exec (.requestRelease h m p n) s =
        .next (s.answer .ok (natLE 1 (if s.urgency h m ≥ 1 then 1 else 0)))) ∧
      (∀ k a, s.account h m p = some k → s.acctCfg h k = some a →
        let key := acctKey h k
        let u := s.urgency h m
        let x := if s.time / max 1 a.window < (s.acct key).win then s.acct key else (s.acct key).boundary a s.time
        ((s.acct key).held = [] → x.may a u = true →
          ∃ t, exec (.requestRelease h m p n) s = .next t ∧ t.rsp = ⟨.ok, natLE 1 (x.level u)⟩ ∧
            t.acct key = x.spend a u n ∧ (∀ i, i ≠ key → t.acct i = s.acct i) ∧ t.mem = s.mem) ∧
        ((s.acct key).held = [] → x.may a u = false →
          ∃ t, exec (.requestRelease h m p n) s = .next t ∧ t.rsp = ⟨.none, []⟩ ∧
            t.acct key = { x with held := [n] } ∧ (∀ i, i ≠ key → t.acct i = s.acct i) ∧ t.mem = s.mem) ∧
        ((s.acct key).held ≠ [] → s.time / max 1 a.window < (s.acct key).win →
          ∃ t, exec (.requestRelease h m p n) s = .next t ∧ t.rsp = ⟨.none, []⟩ ∧
            t.acct key = { s.acct key with held := (s.acct key).held ++ [n] } ∧ (∀ i, i ≠ key → t.acct i = s.acct i)))) ∧
    (∀ k a, k < 128 → s.acctCfg h k = some a →
      let key := acctKey h k
      let m := s.fget BWR_ACCT.MASTER h k
      (s.time / max 1 a.window < (s.acct key).win → exec (.windowBoundary h k) s = .next (s.issueHeld h m)) ∧
      ((s.acct key).win ≤ s.time / max 1 a.window → (s.acct key).held = [] → exec (.windowBoundary h k) s =
        .next ((s.onAcct key (fun x => x.boundary a s.time)).issueHeld h m)) ∧
      (16 ≤ m → ∀ u : State, u.issueHeld h m = u)) ∧
    (∀ n, n < 16 → s.thapelCfg h n = none → exec (.windowBoundary h (128 + n)) s = .next s) ∧
    (∀ i fill, i < 4 → ∃ t, exec (.urgencySample h (16 + i) fill) s = .next t ∧
      t.fgetAt BWR_URGENCY.FAB0 h 0 (2 * i) = urgencyOf fill ∧ t.mem = s.mem) ∧
    (∀ fill, h % 2 = 0 → ∃ t, exec (.urgencySample h 20 fill) s = .next t ∧ t.fget BWR_URGENCY.HOST h 0 = urgencyOf fill ∧
      t.mem = s.mem) ∧
    (let f := if s.fget BWR_GUAR_SUM.GBPS h 0 = 0 then 1024
       else min 1024 (1024 * s.fget HUB_DELIV.GBPS h 0 / s.fget BWR_GUAR_SUM.GBPS h 0)
     ∃ t, exec (.scaleUpdate h) s = .next t ∧ t.fget BWR_SCALE.FACTOR h 0 = f ∧ t.mem = s.mem ∧
       (f < 1024 → s.fget BWR_SCALE.FACTOR h 0 = 1024 → t.fget BWR_EVENT.SHORTFALL_START h 0 = 1) ∧
       (f = 1024 → s.fget BWR_SCALE.FACTOR h 0 < 1024 → t.fget BWR_EVENT.SHORTFALL_END h 0 = 1))
---end

/-- The scrub of a hub's memory that is off, or while ingress is closed, or before its next read is due, or while its
channel is not in memory mode, does nothing. On, it reads the next word of a correcting memory, of a block with no open
merge entry: a clean word only moves it on, and sets when the next read is due, by the period and the band; an
uncorrectable one also takes the poison mark, its data bits as before. In a computable channel in memory mode it reads
the next granule outside frames. The management complex copies a hub's next record as one entry of the log, numbered on,
and its index advances, while fewer than 1,024 entries wait; with 1,024 waiting the record is lost and counted; with no
record nothing happens. A flush moves the entries to flash, of which the newest 131,072 stay; once there is room again
after losses, one LOG_LOST record tells of them and the count of losses starts again. -/
def Obligations.ScrubReadsAndTheLogGrows : Prop :=
  ∀ (s : State) (h : Nat), h < 4 →
    (∀ m, m < 5 → s.fget ERR_SCRUB_CTL.EN h 0 = 0 ∨ s.ingressOpen = false → exec (.patrolScrub h m []) s = .next s) ∧
    (∀ m k, m < 4 → s.fget ERR_SCRUB_CTL.EN h 0 ≠ 0 → s.ingressOpen = true →
      let us := (s.scrubUnits h m).1
      let bytes := (s.scrubUnits h m).2 * scrubStride m
      nextScrub us bytes (Tbl.get 0 s.scrub (scrubKey h m)) = some k → (∀ e ∈ s.merge, e.blk ≠ k - k % 64) →
      (s.due (h * 16 + 6 + m) 0 = false → exec (.patrolScrub h m []) s = .next s) ∧
      (s.due (h * 16 + 6 + m) 0 = true → s.verd k = .clean → exec (.patrolScrub h m []) s =
        .next ((s.scrubTo h m us bytes (k + scrubStride m)).withTicks (Tbl.put 0 s.ticks (h * 16 + 6 + m)
          (s.time + s.scrubTime h m k (scrubStride m) (bytes * us.length))))) ∧
      (s.due (h * 16 + 6 + m) 0 = true → s.verd k = .ue → s.cls k ≠ .t1c → ∃ t, exec (.patrolScrub h m []) s = .next t ∧ t.mem = s.mem ∧
        t.delta k = (s.cls k).poison ∧ ∀ w, w ≠ k → t.delta w = s.delta w)) ∧
    (∀ k, s.fget ERR_SCRUB_CTL.EN h 0 ≠ 0 → s.ingressOpen = true → s.due (h * 16 + 10) 0 = true →
      let us := (s.scrubUnits h 4).1
      let bytes := (s.scrubUnits h 4).2 * scrubStride 4
      nextScrub us bytes (Tbl.get 0 s.scrub (scrubKey h 4)) = some k →
      let c := (k - 2 ^ 40) / chanSize
      s.frameOf c ((k - 2 ^ 40) % chanSize) = none →
      ((s.chan c).mode ≠ .memory → exec (.patrolScrub h 4 []) s = .next s) ∧
      ((s.chan c).mode = .memory → ∃ t, exec (.patrolScrub h 4 []) s = .next t ∧ t.mem = s.mem ∧ t.chk = s.chk ∧
        Tbl.get 0 t.ticks (h * 16 + 10) = s.time + s.scrubTime h 4 k 512 (bytes * us.length))) ∧
    (takeFeed h s.mgmt.feed = none → exec (.mgmtRecordCopy h) s = .next s) ∧
    (∀ r rest, takeFeed h s.mgmt.feed = some (r, rest) →
      (s.mgmt.buffered.length < 1024 → ∃ t e, exec (.mgmtRecordCopy h) s = .next t ∧ t.mgmt.feed = rest ∧
        t.mgmt.buffered = s.mgmt.buffered ++ [e] ∧ e.body = r ∧ e.hub = h ∧ e.seq = s.mgmt.logSeq % 2 ^ 32 ∧
        t.mgmt.logSeq = s.mgmt.logSeq + 1 ∧ t.mem = s.mem ∧
        t.fget ERR_Q_MGMT.MGMT h 0 = (s.fget ERR_Q_MGMT.MGMT h 0 + 1) % 2 ^ 16) ∧
      (1024 ≤ s.mgmt.buffered.length → ∃ t, exec (.mgmtRecordCopy h) s = .next t ∧ t.mgmt.feed = rest ∧
        t.mgmt.buffered = s.mgmt.buffered ∧ t.mgmt.lost = s.mgmt.lost + 1)) ∧
    (∀ n, let all := s.mgmt.flash ++ s.mgmt.buffered.take n
      ∃ t, exec (.logFlush n) s = .next t ∧ t.mgmt.flash = all.drop (all.length - 131072) ∧ t.mem = s.mem ∧
        (s.mgmt.lost = 0 → t.mgmt.buffered = s.mgmt.buffered.drop n ∧ t.regs = s.regs) ∧
        (s.mgmt.lost ≠ 0 → (s.mgmt.buffered.drop n).length < 1024 → t.mgmt.lost = 0 ∧
          (t.fget MGMT_EVENT.CAUSE 0 0).testBit 5 = true))
---end

/-- A write of HIF_BAR4_SEGk by an accessor that reaches it, and of HIF_VF_SEGk by a privileged one, whose BASE lies in tier
1 or is the landing base, takes VALID, BASE and, for BAR4, PART. One whose BASE lies elsewhere leaves the segment
unchanged and sets SEG_REFUSED. A write by any other accessor changes nothing. No other segment and no memory changes. -/
def Obligations.SegmentsMoveOnlyToTheirRanges : Prop :=
  ∀ (s : State) (who : Accessor) (port k v : Nat), who.wf = true → port < 2 →
    let b := v / 2 ^ 32 % 2 ^ 12
    let inRange := 0x100 ≤ b ∧ b < 0x2B0 ∨ b = 0x300
    (k < 16 →
      (s.reaches who HIF_BAR4_SEG.VALID port k = false → exec (.bar4SegWrite who port k v) s = .next s) ∧
      (s.reaches who HIF_BAR4_SEG.VALID port k = true →
        (inRange → ∃ t, exec (.bar4SegWrite who port k v) s = .next t ∧ t.fget HIF_BAR4_SEG.VALID port k = v % 2 ∧
          t.fget HIF_BAR4_SEG.PART port k = v / 2 % 16 ∧ t.fget HIF_BAR4_SEG.BASE port k = b ∧ t.mem = s.mem ∧
          ∀ i, i < 16 → i ≠ k → t.fget HIF_BAR4_SEG.BASE port i = s.fget HIF_BAR4_SEG.BASE port i ∧
            t.fget HIF_BAR4_SEG.VALID port i = s.fget HIF_BAR4_SEG.VALID port i) ∧
        (¬inRange → ∃ t, exec (.bar4SegWrite who port k v) s = .next t ∧ t.fget HIF_EVENT.SEG_REFUSED port 0 = 1 ∧
          t.fget HIF_BAR4_SEG.VALID port k = s.fget HIF_BAR4_SEG.VALID port k ∧
          t.fget HIF_BAR4_SEG.PART port k = s.fget HIF_BAR4_SEG.PART port k ∧
          t.fget HIF_BAR4_SEG.BASE port k = s.fget HIF_BAR4_SEG.BASE port k ∧ t.mem = s.mem))) ∧
    (1 ≤ k → k ≤ 16 →
      (s.privileged who = false ∨ s.reaches who HIF_VF_SEG.VALID port k = false →
        exec (.vfSegWrite who port k v) s = .next s) ∧
      (s.privileged who = true → s.reaches who HIF_VF_SEG.VALID port k = true →
        (inRange → ∃ t, exec (.vfSegWrite who port k v) s = .next t ∧ t.fget HIF_VF_SEG.VALID port k = v % 2 ∧
          t.fget HIF_VF_SEG.BASE port k = b ∧ t.mem = s.mem ∧
          ∀ i, i ≤ 16 → i ≠ k → t.fget HIF_VF_SEG.BASE port i = s.fget HIF_VF_SEG.BASE port i) ∧
        (¬inRange → ∃ t, exec (.vfSegWrite who port k v) s = .next t ∧ t.fget HIF_EVENT.SEG_REFUSED port 0 = 1 ∧
          t.fget HIF_VF_SEG.VALID port k = s.fget HIF_VF_SEG.VALID port k ∧
          t.fget HIF_VF_SEG.BASE port k = s.fget HIF_VF_SEG.BASE port k ∧ t.mem = s.mem)))
---end

/-- A port whose power, lane map and PERST# let it train, and whose good lanes allow a width, comes up at the smaller of the
partner's width and its own; otherwise training changes nothing. A configuration request on a link that is up is retried
before phase 3 has ended, refused for a function that is not there, and otherwise answered with the function's identity,
NumVFs of PF0 taken first; on a link that is down nothing happens. Link down sets LINK_DOWN and takes the link down;
with no read outstanding on the port nothing else changes. PERST# deasserted is kept, and the other port's is as it was.
An FLR of a VF with no partition bound changes nothing; that of a bound, running partition with no reset under way
starts its reset, keeping bindings and segments, and sets it draining. An FLR of PF0, with no partition in use, outside
image check, weight load and HOLD and with PF0_PRIV 0, leaves PRIV of its port and its BAR4 segments cleared and those
of the other port as they were. An FLR of PF1 clears the register halves it holds and its message table at the port, and
no register, no other function's message table and no memory. -/
def Obligations.HostPortsAndFunctionResetsAct : Prop :=
  (∀ (s : State) (port : Nat), port < 2 →
     (∀ g w, g = 5 ∨ g = 6 → w = 4 ∨ w = 8 ∨ w = 16 →
       (s.hostTrains port = true → s.hostWidth port ≠ 0 → ∃ t, exec (.hostLinkTraining port g w) s = .next t ∧
         t.pkg.hostUp = s.pkg.hostUp.set port (min w (s.hostWidth port)) ∧ t.pkg.hostGen = s.pkg.hostGen.set port g ∧
         t.regs = s.regs ∧ t.mem = s.mem) ∧
       (s.hostTrains port = false ∨ s.hostWidth port = 0 → exec (.hostLinkTraining port g w) s = .next s)) ∧
     (∀ fn vfs, fn ≤ 17 → s.pkg.hostUp.getD port 0 = 0 → exec (.configRequest port fn vfs) s = .next s) ∧
     (∀ fn, fn ≤ 17 → s.pkg.hostUp.getD port 0 ≠ 0 →
       (s.boot.mgmtUp = false → exec (.configRequest port fn none) s = .next (s.answer .retry [])) ∧
       (s.boot.mgmtUp = true → s.fnThere port fn = false → exec (.configRequest port fn none) s = .next (s.answer .refused [])) ∧
       (s.boot.mgmtUp = true → s.fnThere port fn = true → exec (.configRequest port fn none) s =
         .next (s.answer .ok (s.identity fn))) ∧
       (∀ n, s.boot.mgmtUp = true → fn ≠ 0 → s.fnThere port fn = true → exec (.configRequest port fn (some n)) s =
         .next (s.answer .ok (s.identity fn))) ∧
       (∀ n, s.boot.mgmtUp = true → ∃ t, exec (.configRequest port 0 (some n)) s = .next t ∧
         t.pkg.numVfs = s.pkg.numVfs.set port (min n 16) ∧ t.rsp = ⟨.ok, s.identity 0⟩)) ∧
     (∃ t, exec (.hostLinkDown port) s = .next t ∧ t.fget HIF_EVENT.LINK_DOWN port 0 = 1 ∧
       t.pkg.hostUp = s.pkg.hostUp.set port 0 ∧ t.mem = s.mem ∧
       ((∀ r ∈ s.hostReads, r.port ≠ port) → t.chk = s.chk ∧ t.errQ = s.errQ ∧ t.rsp = s.rsp)) ∧
     (∃ t, exec (.perstDeassert port) s = .next t ∧ t.pkg.perst = s.pkg.perst.set port false ∧ t.regs = s.regs)) ∧
  ((∀ (s : State) (k : Nat), 1 ≤ k → k ≤ 16 →
     (s.vfPart k = none → exec (.vfFlr k) s = .next s) ∧
     (∀ p, s.vfPart k = some p → (s.part p).stage = .none → s.partStatus p ≠ 0 →
       ∃ t, exec (.vfFlr k) s = .next t ∧ (t.part p).stage = .draining false false false s.time)) ∧
   (∀ (s : State) (port : Nat), port < 2 → s.loadsNow = false → s.fget MGMT_POLICY.PF0_PRIV 0 0 ≠ 1 →
     s.fget BOOT_STATUS.PHASE 0 0 ≠ 15 → (∀ p, p < 16 → (s.part p).stage = .none ∧ s.partStatus p = 0) →
     ∃ t, exec (.pf0Flr port) s = .next t ∧ t.fget HIF_PRIV.PRIV port 0 = 0 ∧ t.mem = s.mem ∧
       (∀ i, i < 16 → t.fget HIF_BAR4_SEG.VALID port i = 0 ∧ t.fget HIF_BAR4_SEG.BASE port i = 0) ∧
       (∀ i, i < 16 → t.fget HIF_BAR4_SEG.VALID (1 - port) i = s.fget HIF_BAR4_SEG.VALID (1 - port) i)) ∧
   (∀ (s : State) (port : Nat), port < 2 → ∃ t, exec (.pf1Flr port) s = .next t ∧ t.regs = s.regs ∧ t.mem = s.mem ∧
     Tbl.get (0, 0) t.halfW (accCode (.pf1 port)) = (0, 0) ∧ Tbl.get (0, 0) t.halfR (accCode (.pf1 port)) = (0, 0) ∧
     (∀ v, v < 4096 → Tbl.get {} t.msix (msixKey port 1 v) = {}) ∧
     (∀ q fn v, v < 4096 → (q ≠ port ∨ fn ≠ 1) → fn < 32 → Tbl.get {} t.msix (msixKey q fn v) = Tbl.get {} s.msix (msixKey q fn v))))
---end

/-- An accessor without privilege changes nothing by a shadow write or a commit. A privileged shadow write outside the map's
entries, or of neither 4 nor 8 bytes, changes nothing, and during a pending commit it only sets SHADOW_LOCKED; otherwise
it writes its register. A COMMIT that an older request, a pending commit or an entry that breaks the format prevents
sets COMMIT_REFUSED and schedules nothing; otherwise the swap is pending for the first multiple of 1,024 ns at least 2
us away. Before that time the swap changes nothing; from then on every entry of the active map is the shadow's, the
generation is one higher, and no commit is pending. -/
def Obligations.TheMapCommitsAndSwaps : Prop :=
  (∀ (s : State) (who : Accessor) (off n v : Nat), who.wf = true →
    (s.privileged who = false → exec (.protShadowWrite who off n v) s = .next s ∧ exec (.protCommit who v) s = .next s) ∧
    (isShadow off = false ∨ (n ≠ 4 ∧ n ≠ 8) → exec (.protShadowWrite who off n v) s = .next s) ∧
    (s.privileged who = true → isShadow off = true → n = 4 ∨ n = 8 →
      (s.pendingCommit = true → ∃ t, exec (.protShadowWrite who off n v) s = .next t ∧
        t.fget PROT_EVENT.SHADOW_LOCKED 0 0 = 1 ∧ t.prot = s.prot ∧ (∀ k, k < 512 → t.shadow k = s.shadow k)) ∧
      (s.pendingCommit = false → exec (.protShadowWrite who off n v) s =
        .next ((s.regWriteIf (fun f => f.blk == .prot && decide (f.off ≥ 0x1000)) who off n v).withQueue s.pending)))) ∧
  (∀ (s : State) (who : Accessor) (v : Nat), who.wf = true → s.privileged who = true → s.reaches who PROT_CTL.VIEW 0 0 = true →
    (v % 2 = 0 → exec (.protCommit who v) s = .next (s.fset PROT_CTL.VIEW 0 0 (v / 2))) ∧
    (v % 2 = 1 → (s.fset PROT_CTL.VIEW 0 0 (v / 2)).commitFree = false ∨
        (s.fset PROT_CTL.VIEW 0 0 (v / 2)).shadowBad = true → ∃ t, exec (.protCommit who v) s = .next t ∧
      t.fget PROT_EVENT.COMMIT_REFUSED 0 0 = 1 ∧ t.fget PROT_GEN.PENDING 0 0 = s.fget PROT_GEN.PENDING 0 0 ∧ t.prot = s.prot) ∧
    (v % 2 = 1 → (s.fset PROT_CTL.VIEW 0 0 (v / 2)).commitFree = true →
        (s.fset PROT_CTL.VIEW 0 0 (v / 2)).shadowBad = false → ∃ t, exec (.protCommit who v) s = .next t ∧
      t.fget PROT_GEN.PENDING 0 0 = 1 ∧ t.fget PROT_COMMIT_TIME.T_C 0 0 = commitTime s.time % 2 ^ 64 ∧ t.prot = s.prot)) ∧
  (∀ s : State,
    (s.pendingCommit = false ∨ s.time < s.fget PROT_COMMIT_TIME.T_C 0 0 → exec .protSwap s = .next s) ∧
    (s.pendingCommit = true → s.fget PROT_COMMIT_TIME.T_C 0 0 ≤ s.time → ∃ t, exec .protSwap s = .next t ∧
      (∀ k, k < 512 → Tbl.get {} t.prot k = s.shadow k) ∧ t.pendingCommit = false ∧
      t.fget PROT_GEN.ACTIVE 0 0 = (s.fget PROT_GEN.ACTIVE 0 0 + 1) % 256 ∧ t.mem = s.mem))
---end

/-- PART_CMD with OP 1 to 3 by an accessor that may write it; by another nothing happens. A reset of a running partition
with none under way starts its drain: its instances are aborted, none of its page steps waits or stands in a queue, and
none of its accounts holds a request; of an unused one, or while a load or a retirement has it, nothing happens. A load
and a retirement before READY fail with RESULT 4 and LOAD_FAIL; a load whose image cannot be read fails with RESULT 3;
one that fails its checks reports their verdict, the partition running on; one that passes keeps the image, reports its
load as running and starts the partition's drain to be held for it, or joins the reset that drains it; a retirement of a
partition in use starts its drain. A plain drain that has completed ends with the partition running, no reset under way,
its instances gone, its semaphores and events at 0, its tiles Off, its working stores zero where it has no session and
no page, and PART_RESET_DONE set; one for a load or a retirement that cannot commit yet leaves the partition held, or
still running, for the commit. 100 ms of a drain set DRAIN_SLOW. Once the commit of a load has taken effect and no sweep
runs on its targets, the weights are loaded; when all blobs have matched the partition runs and LOAD_DONE is set. -/
def Obligations.PartitionsResetLoadAndRetire : Prop :=
  (∀ (s : State) (who : Accessor) (v p : Nat), who.wf = true →
    (s.partCmd who v 1 = some p →
      ((s.part p).stage = .none → s.partStatus p ≠ 0 → ∃ t, exec (.partitionReset who v) s = .next t ∧
        (t.part p).stage = .draining false false false s.time ∧
        (∀ l, l < 4 → (t.inst p l).valid = true → (t.inst p l).aborted = true) ∧ (∀ x ∈ t.thapWait, x.part ≠ p) ∧
        (∀ c, ∀ x ∈ (t.chan c).queue, x.part ≠ p) ∧ (∀ k, t.acctOf p k = true → (t.acct k).held = [])) ∧
      ((s.part p).stage ≠ .none → exec (.partitionReset who v) s = .next s) ∧
      ((s.part p).stage = .none → s.partStatus p = 0 → exec (.partitionReset who v) s = .next s)) ∧
    (s.partCmd who v 1 = none → exec (.partitionReset who v) s = .next s) ∧
    (∀ ver, s.partCmd who v 2 = none → exec (.partitionLoad who v ver) s = .next s) ∧
    (s.partCmd who v 3 = none → exec (.partitionRetire who v) s = .next s) ∧
    (∀ ver, s.partCmd who v 2 = some p →
      let rd := s.windowImage p (s.fget PART_LOAD_ADDR.ADDR 0 0)
      (s.isReady = false → ∃ t, exec (.partitionLoad who v ver) s = .next t ∧ t.fget PART_LOAD_STATUS.RESULT 0 0 = 4 ∧
        t.fget PROT_EVENT.LOAD_FAIL 0 0 = 1 ∧ t.parts = s.parts) ∧
      (s.isReady = true → (s.part p).idle = true →
        (s.imageReadable p (s.fget PART_LOAD_ADDR.ADDR 0 0) = false → ∃ t, exec (.partitionLoad who v ver) s = .next t ∧
          t.fget PART_LOAD_STATUS.RESULT 0 0 = 3 ∧ t.fget PROT_EVENT.LOAD_FAIL 0 0 = 1 ∧ t.parts = s.parts) ∧
        (s.imageReadable p (s.fget PART_LOAD_ADDR.ADDR 0 0) = true →
          (∀ r x, (s.withPending p).checkPart rd p ver = .fail r x → ∃ t, exec (.partitionLoad who v ver) s = .next t ∧
            t.fget PART_LOAD_STATUS.RESULT 0 0 = r % 256 ∧ t.fget PART_LOAD_STATUS.SECTION 0 0 = x % 256 ∧
            t.fget PART_LOAD_STATUS.PART 0 0 = p % 16 ∧ t.parts = s.parts ∧ t.mem = s.mem) ∧
          (∀ y, (s.withPending p).checkPart rd p ver = .pass y → ∃ t, exec (.partitionLoad who v ver) s = .next t ∧
            t.fget PART_LOAD_STATUS.RESULT 0 0 = 1 ∧ (t.part p).load = imgBytes rd 0 (imgNat rd 24 8) ∧
            ((s.part p).stage = .none ∨ (s.part p).stage = .heldFailed → (t.part p).stage = .draining false true false s.time) ∧
            ∀ b since, (s.part p).stage = .draining b false false since →
              (t.part p).stage = .draining false true false since))) ∧
      (s.isReady = true → (s.part p).idle = false → exec (.partitionLoad who v ver) s = .next s)) ∧
    (s.partCmd who v 3 = some p →
      (s.isReady = false → ∃ t, exec (.partitionRetire who v) s = .next t ∧ t.fget PART_LOAD_STATUS.RESULT 0 0 = 4 ∧
        t.fget PROT_EVENT.LOAD_FAIL 0 0 = 1 ∧ t.parts = s.parts) ∧
      (s.isReady = true → (s.part p).stage = .none → s.partStatus p ≠ 0 → ∃ t, exec (.partitionRetire who v) s = .next t ∧
        (t.part p).stage = .draining false false true s.time ∧
        (∀ l, l < 4 → (t.inst p l).valid = true → (t.inst p l).aborted = true)) ∧
      (s.isReady = true → (s.part p).idle = false ∨ s.partStatus p = 0 → exec (.partitionRetire who v) s = .next s))) ∧
  (∀ (s : State) (p : Nat), p < 16 →
    (∀ since, (s.part p).stage = .draining false false false since →
      (s.drained p = false → exec (.resetDrainDone p) s = .next s) ∧
      (s.drained p = true → ∃ t, exec (.resetDrainDone p) s = .next t ∧ (t.part p).stage = .none ∧ t.partStatus p = 1 ∧
        (t.part p).insts = [] ∧ t.fget PROT_EVENT.PART_RESET_DONE 0 0 = 1 ∧
        (∀ n, n < 16384 → Tbl.get 0 t.sems (p * 16384 + n) = 0) ∧ (∀ n, n < 1024 → Tbl.get 0 t.evts (p * 1024 + n) = 0) ∧
        (∀ j ∈ s.towerTiles p, (Tbl.get {} t.tiles j).power = .off) ∧
        (s.poolChans p = [] → s.sess p 8 4 = 0 → ∀ j ∈ s.towerTiles p, ∀ o, o < 0x1000000 →
          readByte t.mem (wsAt j o) = 0)) ∧
      (since + 100000000 ≤ s.time → ∃ t, exec (.drainSlow p) s = .next t ∧ t.fget PROT_EVENT.DRAIN_SLOW 0 0 = 1 ∧
        t.parts = s.parts ∧ t.mem = s.mem) ∧
      (s.time < since + 100000000 → exec (.drainSlow p) s = .next s)) ∧
    (∀ load retire since, (s.part p).stage = .draining false load retire since → load = true ∨ retire = true → s.drained p = true →
      s.pendingCommit = true → ∃ t, exec (.resetDrainDone p) s = .next t ∧ (t.part p).stage = .loadDrain retire false ∧
        t.partStatus p = (if load then 2 else 1) ∧ (t.part p).insts = []) ∧
    (∀ retire, (s.part p).stage = .loadDrain retire false → s.commitFree = false → exec (.loadDrainDone p) s = .next s) ∧
    ((s.part p).stage = .loadDrain false true →
      (s.commitFree = false ∨ s.swept p = true → exec (.loadDrainDone p) s = .next s) ∧
      (s.commitFree = true → s.swept p = false → ∃ t, exec (.loadDrainDone p) s = .next t ∧
        (t.part p).stage = .loadWeights ∧ t.partStatus p = 3 ∧ t.fget BOOT_LOAD_BYTES.BYTES 0 0 = 0 ∧ t.mem = s.mem)) ∧
    ((s.part p).stage = .loadDrain true true → s.commitFree = true → ∃ t, exec (.loadDrainDone p) s = .next t ∧
      (t.part p).stage = .none ∧ t.mem = s.mem) ∧
    ((s.part p).stage = .loadWeights →
      (s.partBlobs p = [] → ∃ t, exec (.loadWeightsDone p 0) s = .next t ∧ (t.part p).stage = .none ∧ t.partStatus p = 1 ∧
        t.sealParts.testBit p = true ∧ t.fget PROT_EVENT.LOAD_DONE 0 0 = 1) ∧
      (s.partBlobs p ≠ [] → ∃ t, exec (.loadWeightsDone p 0) s = .next t ∧ (t.part p).stage = .heldFailed ∧
        t.partStatus p = 2 ∧ t.sealParts.testBit p = false ∧ t.fget PART_LOAD_STATUS.RESULT 0 0 = 6)))
---end

/-- A detected port in DETECT with EN starts an attempt, warm where settings are saved and WARM_OK is 1; a frame with a bad
CRC changes nothing; good frames move it on state by state, a cold one for good where the partner shows WARM 0; EQ
begins with the saved taps, cold with preset 4, and in it each request of the partner is answered once, its tap moved
within the limits; two equal lane masks in WIDTH give the widest lane group, or fail the attempt where there is none; a
state's timeout fails the attempt with its cause, and after 1 s a port with EN starts again. LINK_INIT restarts both
sides' counts and is answered; LINK_INIT_ACK brings the link up, unauthenticated, with its settings saved. RETRAIN_REQ
and a host request take a link that is up into a warm retrain; its completion returns it to the state it left; a retrain
of 150 ms leaves the link down in DETECT, with LINK_DOWN set and cause 6. In other states, and before their times, these
change nothing. -/
def Obligations.LinksTrainAndRetrain : Prop :=
  ∀ (s : State) (p : Nat), p < 16 →
    (s.pst p = 1 → s.fget FAB_PORT_CTL.EN 0 p = 1 → ∃ t, exec (.linkDetect p) s = .next t ∧ t.pst p = 2 ∧
      (t.port p).warmTry = ((s.port p).settings && s.fget FAB_PORT_CTL.WARM_OK 0 p == 1) ∧ (t.port p).stSince = s.time ∧
      ∀ q, q < 16 → q ≠ p → t.port q = s.port q ∧ t.pst q = s.pst q) ∧
    (s.pst p ≠ 1 ∨ s.fget FAB_PORT_CTL.EN 0 p = 0 → exec (.linkDetect p) s = .next s) ∧
    (∀ f : TrainFrame, (s.port p).taps.length = 8 → (s.port p).replies.length = 8 → (s.port p).asks.length = 8 →
      (frameOk f.bits = false → exec (.trainingFrame p f) s = .next s) ∧
      (frameOk f.bits = true → frameWarm f = false → s.pst p = 2 ∨ s.pst p = 3 → ∃ t, exec (.trainingFrame p f) s = .next t ∧
        (t.port p).coldOnly = true) ∧
      (frameOk f.bits = true → frameWarm f = true → f.verifyFail = false →
        (s.pst p = 2 → frameReady f = true → f.heard ≠ 0 → ∃ t, exec (.trainingFrame p f) s = .next t ∧ t.pst p = 3 ∧
          (t.port p).taps = if (s.port p).warm then (s.port p).savedTaps else List.replicate 8 (tapPreset 4)) ∧
        (s.pst p = 2 → frameReady f = false ∨ f.heard = 0 → ∃ t, exec (.trainingFrame p f) s = .next t ∧ t.pst p = 2) ∧
        (s.pst p = 3 → ∃ t, exec (.trainingFrame p f) s = .next t ∧
          t.pst p = (if f.heard &&& f.ownEq = f.heard then 4 else 3) ∧
          (let l := frameLane f
           let mv := tapMove ((s.port p).taps.getD l []) (frameTap f) (frameAction f) (framePreset f)
           (frameAction f = 0 → (t.port p).replies.getD l 0 = 0 ∧ (t.port p).taps = (s.port p).taps) ∧
           (frameAction f ≠ 0 → (s.port p).replies.getD l 0 = 0 →
             (t.port p).replies.getD l 0 = mv.2 ∧ (t.port p).taps.getD l [] = mv.1) ∧
           (frameAction f ≠ 0 → (s.port p).replies.getD l 0 ≠ 0 → (t.port p).taps = (s.port p).taps))) ∧
        (let own := f.ownOk &&& frameLanes f &&&
           (0xFF ^^^ physLanes (Tbl.get 0 s.fuses.fabBadLanes p % 256) f.reversed)
         s.pst p = 4 → frameLanes f = own → (s.port p).masks = [own] →
           (∀ w g, laneGroup own = some (w, g) → ∃ t, exec (.trainingFrame p f) s = .next t ∧ t.pst p = 5 ∧
             t.fget FAB_PORT_STATUS.WIDTH 0 p = w ∧ t.fget FAB_PORT_STATUS.LANES 0 p = physLanes g f.reversed) ∧
           (laneGroup own = none → ∃ t, exec (.trainingFrame p f) s = .next t ∧ t.pst p = 12 ∧
             t.fget FAB_PORT_STATUS.FAIL_CAUSE 0 p = 3)) ∧
        (s.pst p = 5 → f.locked = true → ∃ t, exec (.trainingFrame p f) s = .next t ∧ t.pst p = 6 ∧
          (t.port p).ctrl = (s.port p).ctrl ++ [(2, 0)]))) ∧
    (∀ x tap act pre, tapsOk x = true → pre < 8 → tapsOk (tapMove x tap act pre).1 = true) ∧
    (let lim := trainLimit (s.pst p) (s.port p).warm
     (lim ≠ 0 → (s.port p).retrain = none → (s.port p).stSince + lim ≤ s.time → ∃ t, exec (.trainingTimeout p) s = .next t ∧
       t.pst p = 12 ∧ t.fget FAB_PORT_STATUS.FAIL_CAUSE 0 p = s.pst p - 1 ∧ (t.port p).retryAt = s.time + 1000000000) ∧
     (lim = 0 ∨ (s.port p).retrain ≠ none ∨ s.time < (s.port p).stSince + lim → exec (.trainingTimeout p) s = .next s)) ∧
    (s.pst p = 12 → s.fget FAB_PORT_CTL.EN 0 p = 1 → (s.port p).retryAt ≤ s.time →
      ∃ t, exec (.trainingRetry p) s = .next t ∧ t.pst p = 1) ∧
    (s.time < (s.port p).retryAt → exec (.trainingRetry p) s = .next s) ∧
    (s.pst p = 6 ∨ s.linkUp p = true → exec (.linkInit p) s =
      .next (s.onPort p (fun t => { t.resetLink with ctrl := t.ctrl ++ [(3, 0)] }))) ∧
    (s.pst p = 6 → s.fget FAB_PORT_CTL.QUARANTINE 0 p = 0 → ∃ t, exec (.linkInitAck p) s = .next t ∧ t.pst p = 7 ∧
      (t.port p).settings = true ∧ (t.port p).savedTaps = (s.port p).taps ∧ (t.port p).selfOk = false ∧ (t.port p).peerOk = false ∧ (t.port p).txSeq = 0 ∧
      t.fget FAB_PORT_PARTNER.VALID 0 p = 0) ∧
    (s.linkUp p = true → exec (.linkInitAck p) s = .next (s.onPort p Port.resetLink)) ∧
    (∀ c cause who, who.wf = true → s.portCtl who p false = true →
      (c = .retrainReq p ∧ cause = 1 ∨ c = .portRetrain who p ∧ cause = 2) →
      (s.linkUp p = true → (s.port p).retrain = none → ∃ t, exec c s = .next t ∧ t.pst p = 2 ∧
        (t.port p).retrain = some cause ∧ (t.port p).before = s.pst p ∧ (t.port p).warmTry = true ∧ t.mem = s.mem) ∧
      (s.linkUp p = false → exec c s = .next s)) ∧
    (∀ w l, 1 ≤ w → w ≤ 3 →
      ((s.port p).retrain ≠ none → ∃ t, exec (.retrainComplete p w l) s = .next t ∧ (t.port p).retrain = none ∧
        t.pst p = (s.port p).before % 16 ∧ t.fget FAB_PORT_STATUS.WIDTH 0 p = w) ∧
      ((s.port p).retrain = none → exec (.retrainComplete p w l) s = .next s)) ∧
    ((s.port p).retrain ≠ none → (s.port p).retrainAt + 150000000 ≤ s.time → ∃ t, exec (.retrainTimeout p) s = .next t ∧
      (t.port p).retrain = none ∧ t.pst p = 1 ∧ t.fget FAB_PORT_STATUS.FAIL_CAUSE 0 p = 6 ∧
      t.fget FAB_EVENT.LINK_DOWN 0 0 = 1) ∧
    ((s.port p).retrain = none ∨ s.time < (s.port p).retrainAt + 150000000 → exec (.retrainTimeout p) s = .next s)
---end

/-- On a link that is up. Corrected symbols of a FEC block are counted. A DATA flit with a bad CRC is answered with one NAK;
a duplicate only gives its header; a whole message in one expected good flit arrives in the inbox and the next number is
expected. An IDLE flit gives its credits. A NAK, and 2 us without progress, replay from the named or the oldest flit; an
outstanding NAK is repeated after 1 us. A slot sends a CTRL flit first, then VC 1, and an IDLE flit where nothing waits;
in LOCK an IDLE flit, in LINK_INIT a LINK_INIT flit. A flit is 256 bytes; the tenth since the last block sends a block,
whose 2,176 symbols are dealt to the lanes of the width, five levels each. The tally leaks one each LEAK_MS; a new
interval zeroes the counts of its limit. Quarantine takes the port to its state, drops its queue and sets the event;
release clears it and starts again from authentication, as LINK_RESET does. Elsewhere and before their times these
change nothing. -/
def Obligations.FlitsMoveAndPortsAreQuarantined : Prop :=
  ∀ (s : State) (p : Nat) (f : Flit), p < 16 →
    (∀ n, n ≤ 15 → 5 ≤ s.pst p → s.pst p ≤ 11 → ∃ t, exec (.fecBlock p true [n, 0, 0, 0]) s = .next t ∧
      t.fget FAB_PORT_COUNT.FEC_CORR 0 p = min (s.fget FAB_PORT_COUNT.FEC_CORR 0 p + n) (2 ^ FAB_PORT_COUNT.FEC_CORR.w - 1) ∧
      (t.port p).missed = 0) ∧
    (s.linkUp p = true → f.vc < 8 → f.dl < 2 →
      (f.crcOk = false → (s.port p).nakAt = none → exec (.dataFlit p f) s = .next (s.onPort p (fun t =>
        if t.nakAt.isSome then t else { t with nakAt := some s.time, ctrl := t.ctrl ++ [(1, t.rxSeq)] }))) ∧
      (f.crcOk = true → f.ackV = false →
        let u := s.onPort p (fun t => { t with crTot := t.crTot.set (f.crBuf % 16) (f.crTotal % 4096) })
        (f.seq % 4096 ≠ (s.port p).rxSeq → ((s.port p).rxSeq + 4096 - f.seq % 4096) % 4096 < 2048 →
          exec (.dataFlit p f) s = .next u) ∧
        (f.rsvd0 = true → f.ty = 0 → exec (.idleFlit p f) s = .next u) ∧
        (let v := u.onPort p (fun t => { t with rxSeq := ((s.port p).rxSeq + 1) % 4096, rxAny := true, nakAt := none })
         let m := parseMsg p f.vc f.dl f.payload
         f.seq % 4096 = (s.port p).rxSeq → s.pst p = 8 → v.flitCause p f = 0 → f.som = true → f.eom = true →
           (s.port p).partials.find? (fun x => x.1 == f.vc) = none → m.ty ≠ 0xF1 →
           ∃ t, exec (.dataFlit p f) s = .next t ∧ t.inbox = s.inbox ++ [m] ∧
             (t.port p).rxSeq = ((s.port p).rxSeq + 1) % 4096 ∧ (t.port p).nakAt = none ∧ t.mem = s.mem))) ∧
    (s.linkUp p = true → ∀ seq i, (s.port p).replay.findIdx? (fun x => x.seq == seq) = some i →
      (∀ x ∈ (s.port p).resend, x.seq ≠ seq) → ∃ t, exec (.nak p seq) s = .next t ∧
        (t.port p).resend = (s.port p).replay.drop i ∧ (t.port p).stale = (s.port p).stale + 1) ∧
    (s.linkUp p = true → (s.port p).replay ≠ [] → (s.port p).progressAt + 2000 ≤ s.time →
      ∃ t, exec (.replayTimeout p) s = .next t ∧ (t.port p).resend = (s.port p).replay) ∧
    (s.time < (s.port p).progressAt + 2000 → exec (.replayTimeout p) s = .next s) ∧
    (∀ t0, (s.port p).nakAt = some t0 → s.linkUp p = true → t0 + 1000 ≤ s.time → exec (.nakRepeat p) s = .next (s.onPort p
      (fun t => { t with nakAt := some s.time, ctrl := t.ctrl ++ [(1, t.rxSeq)] }))) ∧
    ((s.port p).nakAt = none → exec (.nakRepeat p) s = .next s) ∧
    (∀ sub v rest, (s.port p).ctrl = (sub, v) :: rest → 6 ≤ s.pst p → exec (.flitSlot p) s =
      .next ((s.onPort p (fun t => { t with ctrl := rest })).sendFlit p (ctrlFlit sub v))) ∧
    (s.pst p = 5 → exec (.flitSlot p) s = .next (s.sendFlit p (blankFlit 0))) ∧
    ((s.port p).ctrl = [] → s.pst p = 6 → exec (.flitSlot p) s = .next (s.sendFlit p (ctrlFlit 2 0))) ∧
    ((flitBytes f).length = 256 ∧ ∀ (t : Port) w, 1 ≤ w → w ≤ 3 →
      (t.blk.length < 9 → t.intoBlock w f = { t with blk := t.blk ++ [f] }) ∧
      (t.blk.length = 9 → (t.intoBlock w f).blk = [] ∧ (t.intoBlock w f).blocks = (t.blocks + 1) % 256 ∧
        (t.intoBlock w f).lanes.length = 2 ^ w ∧ ∀ l ∈ (t.intoBlock w f).lanes, l.length = 2176 * 5 / 2 ^ w)) ∧
    ((s.port p).ctrl = [] → s.linkUp p = true → (s.port p).sinceIdle < 2047 → s.pst p ≠ 9 → (s.port p).resend = [] →
      (∀ q, s.eligible p 1 = some q → exec (.flitSlot p) s = .next (s.sendData p q)) ∧
      (s.eligible p 1 = none → s.eligible p 0 = none → s.arbPick p = none →
        exec (.flitSlot p) s = .next (s.sendFlit p (blankFlit 0)))) ∧
    (let leak := (s.port p).leakAt + max 1 (s.fget FAB_PORT_TALLY_CTL.LEAK_MS 0 p) * 1000000
     (leak ≤ s.time → exec (.fabTallyLeak p) s = .next ((s.fset FAB_PORT_TALLY.LEVEL 0 p
       (s.fget FAB_PORT_TALLY.LEVEL 0 p - 1)).onPort p (fun t => { t with leakAt := s.time }))) ∧
     (s.time < leak → exec (.fabTallyLeak p) s = .next s)) ∧
    (∃ t, exec (.fabRateInterval p true) s = .next t ∧ (t.port p).mgmt = 0 ∧ (t.port p).msgs = (s.port p).msgs) ∧
    (∃ t, exec (.fabRateInterval p false) s = .next t ∧ (t.port p).msgs = 0 ∧ (t.port p).mgmt = (s.port p).mgmt) ∧
    (∀ who, who.wf = true →
      (s.portCtl who p true = false → exec (.portQuarantine who p) s = .next s ∧ exec (.portRelease who p) s = .next s) ∧
      (s.portCtl who p true = true → s.fget FAB_PORT_CTL.QUARANTINE 0 p = 0 → s.linkUp p = true →
        ∃ t, exec (.portQuarantine who p) s = .next t ∧ t.fget FAB_PORT_CTL.QUARANTINE 0 p = 1 ∧ t.pst p = 9 ∧
          (t.port p).vcq = [] ∧ t.fget FAB_EVENT.QUARANTINE 0 0 = 1 ∧ t.mem = s.mem) ∧
      (s.portCtl who p true = true → s.fget FAB_PORT_CTL.QUARANTINE 0 p = 1 → s.pst p = 9 →
        ∃ t, exec (.portRelease who p) s = .next t ∧ t.fget FAB_PORT_CTL.QUARANTINE 0 p = 0 ∧
          t.fget FAB_PORT_TALLY.LEVEL 0 p = 0 ∧ t.pst p = 7)) ∧
    (∀ c, c = 1 ∨ c = 2 →
      (s.linkUp p = true → s.pst p ≠ 9 → ∃ t, exec (.linkReset p c) s = .next t ∧ t.pst p = 7 ∧ (t.port p).vcq = [] ∧
        (t.port p).txSeq = 0) ∧
      (s.linkUp p = false → exec (.linkReset p c) s = .next s))
---end

/-- A table write by a privileged accessor writes that entry, by another nothing. A message not for this part leaves the
inbox: one past MAX_HOPS is counted and dropped, another goes by its path. On a port under authentication a HELLO that
fits is kept as the partner, and, both sides done, the port is authenticated; one that does not fit takes it to MISMATCH
with AUTH_FAIL. A HELLO is sent each millisecond. An SPDM failure, and 2 s without success, fail authentication; after
10 s it is tried again. A run-time cruise starts once; a probe is answered, a reply in time sets its path's PROBE_OK, a
late one sets nothing, and probes unanswered for 100 ms are sent again. -/
def Obligations.MessagesRouteAndPortsAuthenticate : Prop :=
  ∀ (s : State),
    (∀ who off v, who.wf = true →
      (s.privileged who = false → exec (.routeTableWrite who off v) s = .next s) ∧
      (∀ r u i, s.privileged who = true → s.locate who off = some (r, u, i) → off % 4 = 0 →
        r.fields.all (fun f => f.blk == .fabric && decide (f.off ≥ 0x4000)) = true →
        exec (.routeTableWrite who off v) s = .next ((s.writeReg who r.fields u i off v).withQueue s.pending))) ∧
    (∀ m : Msg, m.wf = true →
      (s.inbox.contains m = true → m.ll = false → m.dest ≠ s.fabAddr →
        (s.fget FAB_CTL.MAX_HOPS 0 0 < m.hops + 1 → exec (.messageRoute m) s =
          .next ((s.takeMsg m).fcount FAB_PORT_COUNT3.HOP_DROP 0 m.port)) ∧
        (∀ t, m.hops + 1 ≤ s.fget FAB_CTL.MAX_HOPS 0 0 →
          (s.takeMsg m).routed { m with hops := m.hops + 1 } = (t, true) →
          exec (.messageRoute m) s = .next (t.withQueue s.pending))) ∧
      (s.inbox.contains m = false → exec (.messageRoute m) s = .next s) ∧
      (s.inbox.contains m = true → m.ll = true → m.port < 16 → s.pst m.port = 7 →
        let p := m.port
        let fits := leNat ((m.body.drop 4).take 4) = s.fget FAB_SYS_ID.SYS_ID 0 0 ∧ m.src ≠ s.fabAddr ∧
          (s.fget FAB_PORT_EXPECT.ANY 0 p = 1 ∨ m.src = s.fget FAB_PORT_EXPECT.ADDR 0 p) ∧
          (s.fget FAB_PORT_EXPECT.PORT_ANY 0 p = 1 ∨ leNat (m.body.take 1) % 16 = s.fget FAB_PORT_EXPECT.PARTNER_PORT 0 p)
        (m.ty = 0xF0 →
          (fits → s.cruiseAt = none → ∃ t, exec (.hello m) s = .next t ∧ t.fget FAB_PORT_PARTNER.VALID 0 p = 1 ∧
            t.fget FAB_PORT_PARTNER.ADDR 0 p = m.src % 2 ^ 20 ∧
            t.pst p = (if (s.port p).selfOk = true ∧ (leNat ((m.body.drop 1).take 1)).testBit 0 = true then 8 else 7)) ∧
          (¬fits → ∃ t, exec (.hello m) s = .next t ∧ t.pst p = 10 ∧ t.fget FAB_EVENT.AUTH_FAIL 0 0 = 1)) ∧
        (m.ty = 0xF1 →
          (exec (.spdmMessage m 0) s = .next (s.takeMsg m)) ∧
          (∀ v, 2 ≤ v → ∃ t, exec (.spdmMessage m v) s = .next t ∧ t.pst p = 11 ∧ t.fget FAB_EVENT.AUTH_FAIL 0 0 = 1) ∧
          (s.cruiseAt = none → ∃ t, exec (.spdmMessage m 1) s = .next t ∧
            t.pst p = (if (s.port p).peerOk = true then 8 else 7) ∧ (t.port p).selfOk = true))) ∧
      (s.inbox.contains m = true → m.ll = false → m.dest = s.fabAddr →
        (m.ty = 0xF2 → exec (.probe m) s = .next (((s.takeMsg m).routed
          { linkMsg 16 s.fabAddr 0xF3 (m.body.take 4) with ll := false, dest := m.src }).1.withQueue s.pending)) ∧
        (∀ q, m.ty = 0xF3 → s.probes.find? (fun x => x.id == leNat (m.body.take 4) && !x.answered) = some q →
          s.cruiseAt ≠ none →
          (q.sentAt + 100000 < s.time → exec (.probeReply m) s = .next (s.takeMsg m)) ∧
          (s.time ≤ q.sentAt + 100000 → q.path < 4 → ∃ t, exec (.probeReply m) s = .next t ∧
            (if q.group then t.fbit FAB_GRP_TBL.PROBE_OK 0 q.entry q.path else t.fbit FAB_MBR_TBL.PROBE_OK 0 q.entry q.path) =
              true)))) ∧
    (∀ p, p < 16 →
      (s.pst p = 7 → (s.port p).helloAt + 1000000 ≤ s.time → ∃ t m, exec (.helloTimer p) s = .next t ∧
        (t.port p).helloAt = s.time ∧ (t.port p).vcq = (s.port p).vcq ++ [⟨m, msgFlits m, false⟩] ∧ m.ty = 0xF0 ∧
        m.ll = true ∧ m.src = s.fabAddr) ∧
      (s.time < (s.port p).helloAt + 1000000 → exec (.helloTimer p) s = .next s) ∧
      (s.pst p = 7 → (s.port p).authAt + 2000000000 ≤ s.time → ∃ t, exec (.authTimeout p) s = .next t ∧ t.pst p = 11 ∧
        t.fget FAB_EVENT.AUTH_FAIL 0 0 = 1) ∧
      (s.time < (s.port p).authAt + 2000000000 → exec (.authTimeout p) s = .next s) ∧
      (s.pst p = 11 → (s.port p).authAt + 10000000000 ≤ s.time → ∃ t, exec (.authRetry p) s = .next t ∧ t.pst p = 7) ∧
      (s.time < (s.port p).authAt + 10000000000 → exec (.authRetry p) s = .next s)) ∧
    (∀ who, who.wf = true →
      (s.reaches who FAB_CRUISE_CTL.START 0 0 = true → s.fget FAB_CRUISE_STATUS.RUNNING 0 0 = 0 →
        ∃ t, exec (.cruiseStart who) s = .next t ∧ t.fget FAB_CRUISE_STATUS.RUNNING 0 0 = 1 ∧ t.cruiseAt = some s.time) ∧
      (s.reaches who FAB_CRUISE_CTL.START 0 0 = false ∨ s.fget FAB_CRUISE_STATUS.RUNNING 0 0 ≠ 0 →
        exec (.cruiseStart who) s = .next s)) ∧
    (s.cruiseAt = none → exec .probeResend s = .next s) ∧
    (s.cruiseAt ≠ none → ∃ t, exec .probeResend s = .next t ∧ t.probes = s.probes.map (fun q =>
      if !q.answered && decide (q.sentAt + 100000000 ≤ s.time) && s.pst q.port == 8 then { q with sentAt := s.time } else q))
---end

/-- VAON valid begins phase 1 and the always-on domain phase 2; the fuses lead to phase 3, in a part reset to phase 4, and
with a bad CRC to HOLD with cause 2. A slot that verifies is run and phase 4 follows; with neither, HOLD with cause 3
and the recovery firmware. The self-test leads to phase 5, a failed hub engine to HOLD with cause 4. Training marks the
channels and tiles that failed out of service, leaves every place it writes zero and all others as they were, and leads
to phase 6, or 7 where a load is armed. An image check without a host link is HOLD with cause 7, a failed one with its
cause, a passed one phase 8. Training of links ends in phase 9 with the cruise running; its answered end sets
CRUISE_DONE. The last blob ends weight load; a bad one is HOLD with cause 9. READY and READY-DEGRADED follow the
topology result and enable forwarding. BOOT_LOAD, which also resumes from a HOLD of causes 6 to 9 once memory is
trained, ACCEPT, ABORT, RESTART and SAVE act for who may write BOOT_CTL and change nothing for others. Each phase's
command changes nothing in other phases. -/
def Obligations.BringUpGoesPhaseByPhase : Prop :=
  (∀ s : State,
    (s.boot.vaon = false → ∃ t, exec .vaonValid s = .next t ∧ t.boot.vaon = true ∧ t.phase = 1 ∧ t.mem = s.mem) ∧
    (s.boot.vaon = true → exec .vaonValid s = .next s) ∧
    (s.boot.vaon = true → s.boot.ao = false → s.phase = 1 → ∃ t, exec .alwaysOnStart s = .next t ∧ t.boot.ao = true ∧
      t.boot.aoAt = s.time ∧ t.phase = 2) ∧
    (s.phase ≠ 1 → exec .alwaysOnStart s = .next s) ∧
    (s.boot.ao = true → s.phase = 2 → (s.boot.warm = true → s.fget PKG_SEQ.STAGE 0 0 = 4) →
      (s.fuses.crcOk = true → ∃ t, exec .fuseRead s = .next t ∧ t.phase = (if s.boot.warm then 4 else 3) ∧
        t.fget BOOT_GRADE.GRADE 0 0 = s.fuses.grade % 2 ^ BOOT_GRADE.GRADE.w ∧
        t.fget BOOT_STATUS.FUSE_EXT_BAD 0 0 = (if s.fuses.extCrcOk then 0 else 1) ∧ t.mem = s.mem) ∧
      (s.fuses.crcOk = false → ∃ t, exec .fuseRead s = .next t ∧ t.phase = 15 ∧ t.fget BOOT_STATUS.CAUSE 0 0 = 2)) ∧
    (s.phase ≠ 2 → exec .fuseRead s = .next s) ∧
    (s.phase = 3 → s.fget PKG_SEQ.STAGE 0 0 = 4 →
      (∀ b, s.boot.restarting = false → ∃ t, exec (.secureBoot true b) s = .next t ∧ t.phase = 4 ∧
        t.fget MGMT_STATUS.RUN_SLOT 0 0 = s.fget MGMT_STATUS.NEXT_SLOT 0 0 % 2 ∧ t.fget MGMT_STATUS.RECOVERY 0 0 = 0 ∧
        t.fget SEC_RNG_STATUS.VALID 0 0 = 1 ∧ t.boot.mgmtUp = true) ∧
      (∃ t, exec (.secureBoot false false) s = .next t ∧ t.phase = 15 ∧ t.fget BOOT_STATUS.CAUSE 0 0 = 3 ∧
        t.fget MGMT_STATUS.RECOVERY 0 0 = 1)) ∧
    (∀ a b, s.phase ≠ 3 → exec (.secureBoot a b) s = .next s) ∧
    (s.phase = 4 →
      (∃ t, exec (.selfTest []) s = .next t ∧ t.phase = 5 ∧ t.mem = s.mem ∧ t.fget BOOT_STATUS.QUICK 0 0 =
        (if s.boot.warm = true ∧ s.fget BOOT_CTL.QUICK 0 0 = 1 then 1 else 0)) ∧
      ∀ u, u < 4 → ∃ t, exec (.selfTest [(7, u)]) s = .next t ∧ t.phase = 15 ∧ t.fget BOOT_STATUS.CAUSE 0 0 = 4) ∧
    (s.phase ≠ 4 → exec (.selfTest []) s = .next s) ∧
    (∀ w, s.phase = 5 →
      (∀ cs ts, cs.all chanOk = true → ts.all tileOk = true → ∃ t, exec (.memoryTraining cs ts w false) s = .next t ∧
        t.phase = (if s.fget BOOT_STATUS.IMAGE_ARMED 0 0 = 1 then 7 else 6) ∧ t.boot.memDone = true ∧ t.boot.inReset = false ∧
        (∀ c ∈ cs, t.chanOos c = true) ∧ (∀ j ∈ ts, t.tileUsable j = false) ∧
        ∀ k, Tbl.get 0 t.mem k =
          (if (ts.foldl State.markT0 (cs.foldl (fun u c => u.markChan HUB_CHAN_OOS.OOS c) s)).inited k then 0
           else Tbl.get 0 s.mem k)) ∧
      ∃ t, exec (.memoryTraining [] [] w true) s = .next t ∧ t.phase = 15 ∧ t.fget BOOT_STATUS.CAUSE 0 0 = 5) ∧
    (∀ w f, s.phase ≠ 5 → exec (.memoryTraining [] [] w f) s = .next s) ∧
    (∀ ver, s.phase = 7 →
      (s.pkg.hostUp.all (· == 0) = true → ∃ t, exec (.imageCheck ver) s = .next t ∧ t.phase = 15 ∧
        t.fget BOOT_STATUS.CAUSE 0 0 = 7) ∧
      (s.pkg.hostUp.all (· == 0) = false →
        (∀ r x, s.checkWhole (s.hostImage (s.fget BOOT_IMAGE_ADDR.ADDR 0 0 * 4096)) ver = .fail r x →
          ∃ t, exec (.imageCheck ver) s = .next t ∧ t.phase = 15 ∧ t.fget BOOT_STATUS.CAUSE 0 0 = holdOf r ∧
            t.fget BOOT_STATUS.SECTION 0 0 = x % 16) ∧
        (∀ y, s.checkWhole (s.hostImage (s.fget BOOT_IMAGE_ADDR.ADDR 0 0 * 4096)) ver = .pass y →
          ∃ t, exec (.imageCheck ver) s = .next t ∧ t.phase = 8))) ∧
    (∀ ver, s.phase ≠ 7 → exec (.imageCheck ver) s = .next s) ∧
    (s.phase = 8 → s.enabledPorts.all s.linkUp = true ∨ s.boot.phaseAt + 800000000 ≤ s.time →
      ∃ t, exec .linkTrainingPhase s = .next t ∧ t.phase = 9 ∧ t.fget FAB_CRUISE_STATUS.RUNNING 0 0 = 1 ∧
        t.cruiseAt = some s.time ∧ t.mem = s.mem) ∧
    (s.phase ≠ 8 → exec .linkTrainingPhase s = .next s) ∧
    (s.cruiseAt ≠ none → s.phase ≠ 9 → s.probes.all (·.answered) = true → ∃ t, exec .cruiseEnd s = .next t ∧
      t.fget FAB_CRUISE_STATUS.RUNNING 0 0 = 0 ∧ t.fget FAB_CRUISE_STATUS.DONE 0 0 = 1 ∧ t.cruiseAt = none ∧ t.phase = s.phase) ∧
    (s.cruiseAt = none → exec .cruiseEnd s = .next s) ∧
    (∀ i b, s.wholeBlobs.find? (fun x => x.1 == i) = some (i, b) → s.fget BOOT_STATUS.WLOAD 0 0 = 1 →
      s.boot.blobs.contains i = false →
      (s.blobLenOk b = true → ∃ t, exec (.weightLoadBlob i true) s = .next t ∧ t.boot.blobs = s.boot.blobs ++ [i] ∧
        (t.boot.loaded = true ↔ s.boot.blobs.length + 1 = s.wholeBlobs.length) ∧ t.phase = s.phase) ∧
      (∃ t, exec (.weightLoadBlob i false) s = .next t ∧ t.phase = 15 ∧ t.fget BOOT_STATUS.CAUSE 0 0 = 9)) ∧
    (s.boot.loaded = false → exec .readyEntry s = .next s) ∧
    (s.boot.loaded = true → s.phase = 11 → ∃ t, exec .readyEntry s = .next t ∧ t.fget FAB_CTL.FWD_EN 0 0 = 1 ∧
      t.phase = (if s.fget BOOT_TOPO2.RESULT 0 0 = 1 then 12 else 13))) ∧
  (∀ (s : State) (who : Accessor), who.wf = true →
    (s.bootCtl who = false → ∀ c ∈ [Instr.bootLoad who, .bootAccept who, .bootAbort who, .bootRestart who, .bootSave who],
      exec c s = .next s) ∧
    (s.bootCtl who = true →
      (3 ≤ s.phase → s.phase < 15 → ∃ t, exec (.bootLoad who) s = .next t ∧ t.fget BOOT_STATUS.IMAGE_ARMED 0 0 = 1 ∧
        t.phase = (if s.phase = 6 then 7 else s.phase) ∧ t.mem = s.mem) ∧
      (s.phase < 3 → exec (.bootLoad who) s = .next s) ∧
      (s.phase = 15 → s.boot.memDone = true → 6 ≤ s.fget BOOT_STATUS.CAUSE 0 0 → s.fget BOOT_STATUS.CAUSE 0 0 ≤ 9 →
        ∃ t, exec (.bootLoad who) s = .next t ∧ t.phase = 7 ∧ t.fget BOOT_STATUS.IMAGE_ARMED 0 0 = 1 ∧
          t.fget BOOT_STATUS.CAUSE 0 0 = 0) ∧
      (s.phase = 14 →
        (s.boot.loaded = true → ∃ t, exec (.bootAccept who) s = .next t ∧ t.phase = 13 ∧ t.fget FAB_CTL.FWD_EN 0 0 = 1) ∧
        (s.boot.loaded = false → ∃ t, exec (.bootAccept who) s = .next t ∧ t.boot.accept = true ∧ t.phase = 14) ∧
        ∃ t, exec (.bootAbort who) s = .next t ∧ t.phase = 15 ∧ t.fget BOOT_STATUS.CAUSE 0 0 = 10) ∧
      (s.phase ≠ 14 → exec (.bootAccept who) s = .next s ∧ exec (.bootAbort who) s = .next s) ∧
      (s.boot.vaon = true → s.boot.inReset = false → ∃ t, exec (.bootRestart who) s = .next t ∧ t.phase = 2 ∧
        t.boot.inReset = true ∧ t.boot.warm = true ∧ t.mem = s.mem ∧ t.execs = [] ∧ t.parts = [] ∧ t.time = 0) ∧
      (exec (.bootSave who) s = .next (s.saveRecords
        ((if s.boot.memDone then s.trainedMem else []) ++ ((List.range 16).filter s.linkUp).map (2048 + ·))))))
---end

/-- Without the always-on domain none of these changes anything. A sample shows each stack's and each tower's temperatures
as its hot spots have them, and moves every stack's band as R209 says; a plausible reading of a sensor that is not
ignored is kept with its trim. A hot spot at its warning threshold warns its domain once: event and THERM_ALERT_N. A
comparator's reading at the throttle threshold throttles its domain once: event, its towers marked with at least the
throttle's DUTY, its stacks capped at 165 units or below. A stack's cap falls by 5 units to 95 at least while it is hot,
and stands while it is throttled and not hot; no other stack's changes. A reading at the shutdown threshold trips the
part: THERM_TRIP_N, SEQ_EN[4] off, cause and sensor latched, no requests, HOLD with cause 0x0B. Readings below a
threshold and ignored sensors change nothing. The trip is released only by an accessor with privilege, while latched,
without FLOW_STOP, and with every domain below warning less hysteresis: the latch is empty, and a part reset starts. -/
def Obligations.ThermalLimitsActOnTheirDomains : Prop :=
  (∀ s : State, s.boot.ao = false → ∀ n x k, n < 752 → k < 376 →
    ∀ c ∈ [Instr.sensorSample [(n, x)], .thermalWarning k, .towerThrottle n x, .stackThrottle n x, .thermalShutdown n x],
      exec c s = .next s) ∧
  (∀ (s : State) (l : List (Nat × Int)), s.boot.ao = true → (∀ e ∈ l, e.1 < 752) →
    ∃ t, exec (.sensorSample l) s = .next t ∧ t.mem = s.mem ∧
      (∀ k, k < 24 → t.fget PWR_TEMP_STK.STACK 0 k = tempBits (t.domainTemp (36 + k)) ∧
        (s.stackBand k < 4 → t.stackBand k = nextBand (s.stackBand k) (t.domainTemp (36 + k)))) ∧
      (∀ u, u < 16 → t.fget PWR_TEMP_TOWER.LOGIC 0 u = tempBits (t.domainTemp u) ∧
        t.fget PWR_TEMP_TOWER.BONDED 0 u = tempBits (t.domainTemp (20 + u))) ∧
      (∀ n x, l = [(n, x)] → (s.sensor n).ignored = false → s.implausible (x + 4 * Tbl.get 0 s.fuses.trims n) = none →
        (t.sensor n).temp = x + 4 * Tbl.get 0 s.fuses.trims n)) ∧
  (∀ (s : State) (k : Nat), k < 376 → s.boot.ao = true →
    let d := spotDomain k
    (s.power.warned.contains d = false → warnAt d ≤ (s.spot k).value → ∃ t, exec (.thermalWarning k) s = .next t ∧
      t.power.warned = s.power.warned ++ [d] ∧ t.fget PWR_EVENT.WARN 0 0 = 1 ∧ t.pkg.alert = true ∧ t.mem = s.mem) ∧
    (s.power.warned.contains d = true ∨ (s.spot k).value < warnAt d → exec (.thermalWarning k) s = .next s)) ∧
  (∀ (s : State) (n : Nat) (x : Int), n < 752 → s.boot.ao = true →
    let d := spotDomain (n / 2)
    ∀ c, (c = .towerThrottle n x ∧ d < 36 ∨ c = .stackThrottle n x ∧ (16 ≤ d ∧ d < 20 ∨ 36 ≤ d)) →
      (∀ y, s.seen n x = some y → throttleAt d ≤ y → s.power.throttled.contains d = false →
        ∃ t, exec c s = .next t ∧ t.power.throttled = s.power.throttled ++ [d] ∧ t.fget PWR_EVENT.THROTTLE 0 0 = 1 ∧
          (∀ u ∈ throttleTowers d, t.fget PWR_TOWER_CLK.THROTTLED 0 u = 1 ∧
            ∀ i, i < 4 → t.fget TILE_THROTTLE.DUTY (4 * u + i) 0 = t.wantDuty u % 8 ∧ t.throttleDuty ≤ t.wantDuty u) ∧
          (∀ k ∈ throttleStacks d, t.fget PWR_STK_CAP.THROTTLED 0 k = 1 ∧ t.fget PWR_STK_CAP.CAP 0 k =
            (if s.fget PWR_STK_CAP.CAP 0 k = 0 then 165 else min (s.fget PWR_STK_CAP.CAP 0 k) 165))) ∧
      (s.seen n x = none ∨ (∃ y, s.seen n x = some y ∧ y < throttleAt d) ∨ s.power.throttled.contains d = true →
        exec c s = .next s)) ∧
  (∀ (s : State) (k : Nat), k < 24 → s.fget PWR_STK_CAP.CAP 0 k < 512 → ∃ t, exec (.stackCapStep k) s = .next t ∧
    (s.fget PWR_STK_CAP.THROTTLED 0 k = 1 →
      ((∃ d ∈ s.power.throttled, k ∈ throttleStacks d ∧ throttleAt d ≤ s.domainTemp d) →
        t.fget PWR_STK_CAP.CAP 0 k = max 95 (s.fget PWR_STK_CAP.CAP 0 k - 5)) ∧
      ((∀ d ∈ s.power.throttled, k ∈ throttleStacks d → s.domainTemp d < throttleAt d) →
        t.fget PWR_STK_CAP.CAP 0 k = s.fget PWR_STK_CAP.CAP 0 k)) ∧
    (s.fget PWR_STK_CAP.THROTTLED 0 k = 0 → s.fget PWR_MODE.MODE 0 0 ≠ 2 → s.fget PWR_STK_CAP.CAP 0 k ≠ 0 →
      8 * (s.fget PWR_STK_CAP.CAP 0 k + 5) < bandRate (s.stackBand k) → s.fget PWR_STK_CAP.CAP 0 k ≠ 189 →
      t.fget PWR_STK_CAP.CAP 0 k = s.fget PWR_STK_CAP.CAP 0 k + 5) ∧
    ∀ j, j < 24 → j ≠ k → t.fget PWR_STK_CAP.CAP 0 j = s.fget PWR_STK_CAP.CAP 0 j) ∧
  (∀ (s : State) (n : Nat) (x : Int), n < 752 → s.boot.ao = true →
    let d := spotDomain (n / 2)
    (∀ y, s.seen n x = some y → s.pkg.trip = false → shutdownAt d ≤ y →
      ∃ t, exec (.thermalShutdown n x) s = .next t ∧ t.pkg.trip = true ∧ t.halted = true ∧ t.phase = 15 ∧
        t.fget BOOT_STATUS.CAUSE 0 0 = 0x0B ∧ t.fget PWR_TRIP.LATCHED 0 0 = 1 ∧ t.fget PWR_TRIP.SENSOR 0 0 = n ∧
        t.fget PWR_TRIP.CAUSE 0 0 = domainKind d ∧ t.fbit PKG_SEQ.EN 0 0 3 = false) ∧
    (s.seen n x = none ∨ s.pkg.trip = true ∨ (∃ y, s.seen n x = some y ∧ y < shutdownAt d) →
      exec (.thermalShutdown n x) s = .next s)) ∧
  (∀ (s : State) (who : Accessor), who.wf = true →
    let may := s.privileged who = true ∧ s.reaches who PWR_TRIP.RELEASE 0 0 = true ∧ s.fget PWR_TRIP.LATCHED 0 0 ≠ 0 ∧
      s.power.flowStop = false ∧ ∀ d, d < 60 → s.domainTemp d < warnAt d - hysteresis d
    (¬ may → exec (.tripRelease who) s = .next s) ∧
    (may → ∃ t, exec (.tripRelease who) s = .next t ∧ t.pkg.trip = false ∧ t.fget PWR_TRIP.LATCHED 0 0 = 0 ∧
      t.fget PWR_TRIP.CAUSE 0 0 = 0 ∧ t.mem = s.mem ∧
      (s.boot.vaon = true → s.boot.inReset = false → t.phase = 2 ∧ t.boot.inReset = true)))
---end

/-- With management up and the part not in HOLD. CLOCK_TARGET_UPDATE writes RAMP_LEN to every tile, gives running towers no
target above the mode's ceiling, and 0.50 GHz during a rate trip; towers that do not run and those of failed segments
keep theirs. CLOCK_SWITCH lowers at once and raises only once the voltage has settled. POWER_ESTIMATE keeps the
estimates; above the cap busy towers' DUTY rises by one step to 6 at most, at the cap it stands, and below it falls by
one step after 100 us. RTH_ESTIMATE starts its average again; without the inlet R_est stands; above 1.25 times the
nominal value COOLING_WARN ends any boost. A good inlet read is shown as valid; the third failed one loses it. Pulses
are counted and end FLOW_STOP; the flow is what the pulses of 100 ms give; no pulse for 200 ms is FLOW_STOP. Twenty
evaluations above the limit are the rate trip: every tower at 0.50 GHz with TRIP; a second of calm without FLOW_STOP
releases it. FORECAST replaces its partition's forecast and is accepted unless a rate trip, COOLING_WARN or Quiet
stands; a decode phase with room for it limits the named towers to 1.0 GHz, and no phase leaves no ceiling. Before their
times these change nothing. -/
def Obligations.ClocksPowerAndCoolantAreManaged : Prop :=
  (∀ s : State, s.boot.mgmtUp = true → s.phase ≠ 15 →
    (∃ t, exec .clockTargetUpdate s = .next t ∧ t.mem = s.mem ∧
      (∀ j, j < 64 → t.fget TILE_THROTTLE.RAMP_LEN_MGMT j 0 = s.fget PWR_THR_CTL.RAMP_LEN 0 0 % 32) ∧
      t.fget PWR_CAP_STATUS.POWER_W 0 0 = min 8191 (s.packagePower / 10) ∧
      ∀ u, u < 16 →
        (s.towerRuns u = true → s.segFailed u = false → t.fget PWR_TOWER_CLK.TARGET 0 u ≤ s.modeCeil ∧
          (s.power.rateTrip = true → t.fget PWR_TOWER_CLK.TARGET 0 u = 0)) ∧
        (s.towerRuns u = false ∨ s.segFailed u = true →
          t.fget PWR_TOWER_CLK.TARGET 0 u = s.fget PWR_TOWER_CLK.TARGET 0 u)) ∧
    (∀ l : List Nat, l.length = 16 → ∃ t, exec (.powerEstimate l) s = .next t ∧ t.mem = s.mem ∧
      (∀ k, k < 16 → Tbl.get 0 t.power.est k = l.getD k 0) ∧
      ∀ k, k < 16 →
        (s.cap.1 < l.sum + s.otherPower / 10 → s.towerBusy k = true →
          Tbl.get 0 t.power.duty k = min 6 (Tbl.get 0 s.power.duty k + 1)) ∧
        (l.sum + s.otherPower / 10 = s.cap.1 → Tbl.get 0 t.power.duty k = Tbl.get 0 s.power.duty k) ∧
        (l.sum + s.otherPower / 10 < s.cap.1 → s.power.dutyAt + 100000 ≤ s.time →
          Tbl.get 0 t.power.duty k = Tbl.get 0 s.power.duty k - 1)) ∧
    (∃ t, exec .rthEstimate s = .next t ∧ t.power.powSum = 0 ∧ t.power.powN = 0 ∧ t.mem = s.mem ∧
      (s.fget PWR_COOLANT.INLET_VALID 0 0 = 0 → t.fget PWR_RTH.EST 0 0 = s.fget PWR_RTH.EST 0 0 ∧
        (s.power.cooling = false → 5 * s.fget PWR_RTH.NOM 0 0 < 4 * s.fget PWR_RTH.EST 0 0 → t.power.cooling = true ∧
          t.fget PWR_EVENT.COOLING_WARN 0 0 = 1 ∧ t.power.boost = false ∧ t.pkg.alert = true) ∧
        (s.power.cooling = true → 5 * s.fget PWR_RTH.EST 0 0 ≤ 6 * s.fget PWR_RTH.NOM 0 0 → t.power.cooling = false))) ∧
    (s.power.rateTrip = false → (∃ e ∈ s.power.spots, 20 ≤ e.2.evaluate.high) → ∃ t, exec .rateEvaluation s = .next t ∧
      t.power.rateTrip = true ∧ t.power.boost = false ∧ t.fget PWR_EVENT.RATE_TRIP 0 0 = 1 ∧
      (∀ u, u < 16 → t.fget PWR_TOWER_CLK.TARGET 0 u = 0) ∧ ∀ j, j < 64 → t.fget TILE_THROTTLE.TRIP j 0 = 1) ∧
    (s.power.rateTrip = false → (∀ e ∈ s.power.spots, e.2.evaluate.high < 20) → ∃ t, exec .rateEvaluation s = .next t ∧
      t.power.rateTrip = false ∧ t.regs = s.regs) ∧
    (∀ c, s.power.rateTrip = true → (∀ e ∈ s.power.spots, e.2.evaluate.rate < 80) → s.power.calmSince = some c →
      c + 1000000000 ≤ s.time → s.power.flowStop = false → ∃ t, exec .rateEvaluation s = .next t ∧
      t.power.rateTrip = false ∧ ∀ j, j < 64 → t.fget TILE_THROTTLE.TRIP j 0 = 0)) ∧
  (∀ s : State, s.boot.mgmtUp = false ∨ s.phase = 15 → ∀ l : List Nat, l.length = 16 →
    ∀ c ∈ [Instr.clockTargetUpdate, .powerEstimate l, .rthEstimate, .rateEvaluation], exec c s = .next s) ∧
  (∀ (s : State) (u : Nat), u < 16 →
    let n := s.fget PWR_TOWER_CLK.TARGET 0 u
    let c := s.fget PWR_TOWER_CLK.CURRENT 0 u
    n < 32 →
    (n < c → ∃ t, exec (.clockSwitch u) s = .next t ∧ t.fget PWR_TOWER_CLK.CURRENT 0 u = n ∧ t.mem = s.mem ∧
      (s.segFailed u = true → t.fget PWR_TOWER_CLK.VT_MV 0 u = s.fget PWR_TOWER_CLK.VT_MV 0 u)) ∧
    (n = c → exec (.clockSwitch u) s = .next s) ∧
    (∀ w, c < n → s.segFailed u = false → Tbl.get none s.power.settleAt u = some w →
      (s.time < w → exec (.clockSwitch u) s = .next s) ∧
      (w ≤ s.time → ∃ t, exec (.clockSwitch u) s = .next t ∧ t.fget PWR_TOWER_CLK.CURRENT 0 u = n ∧
        Tbl.get none t.power.settleAt u = none))) ∧
  (∀ s : State, s.boot.mgmtUp = true →
    (∀ raw x, s.inletOf raw = some x → ∃ t, exec (.inletRead raw) s = .next t ∧ t.fget PWR_COOLANT.INLET_VALID 0 0 = 1 ∧
      t.fget PWR_COOLANT.INLET 0 0 = tempBits x ∧ t.power.inletFails = 0 ∧ t.power.inletLost = false) ∧
    (∀ raw, s.inletOf raw = none → ∃ t, exec (.inletRead raw) s = .next t ∧ t.power.inletFails = s.power.inletFails + 1 ∧
      (s.power.inletFails < 2 → t.regs = s.regs) ∧
      (2 ≤ s.power.inletFails → s.power.inletLost = false → t.fget PWR_COOLANT.INLET_VALID 0 0 = 0 ∧
        t.fget PWR_EVENT.INLET_LOST 0 0 = 1 ∧ t.pkg.alert = true)) ∧
    (∃ t, exec .flowPulse s = .next t ∧ t.power.pulses = s.power.pulses + 1 ∧ t.power.lastPulse = s.time ∧
      t.power.flowStop = false ∧ t.regs = s.regs) ∧
    (∃ t, exec .flowCount s = .next t ∧ t.power.pulses = 0 ∧ t.fget PWR_COOLANT.FLOW 0 0 =
      min 65535 (s.power.pulses * 600000 / max 1 (s.fget PWR_FLOW_CTL.PULSES_PER_L 0 0))) ∧
    (s.power.flowStop = false → s.power.lastPulse + 200000000 ≤ s.time → ∃ t, exec .flowStop s = .next t ∧
      t.power.flowStop = true ∧ t.fget PWR_EVENT.FLOW_STOP 0 0 = 1 ∧ t.pkg.alert = true) ∧
    (s.power.flowStop = true ∨ s.time < s.power.lastPulse + 200000000 → exec .flowStop s = .next s)) ∧
  (∀ (s : State) (p : Nat), p < 16 →
    (∀ x e, slotOk p x = true → s.Startable 11 p x e → ∃ t, exec (.forecast p x) s = .next t ∧ Freed s t p x ∧
      (t.part p).forecast = e.phases ∧ (t.part p).forecastAt = e.started ∧
      ((t.part p).accepted = true ↔
        s.power.rateTrip = false ∧ s.power.cooling = false ∧ s.fget PWR_MODE.MODE 0 0 ≠ 3)) ∧
    (s.forecastAt p (s.time + 200000) = none → ∃ t, exec (.forecastPhase p) s = .next t ∧ t.regs = s.regs ∧
      ∀ k ∈ s.partTowers p, Tbl.get 20 t.power.ceil k = 20) ∧
    (∀ x, s.forecastAt p (s.time + 200000) = some x → x.2.1 = 1 →
      s.expected (s.time + 200000) ≤ s.cap.1 - s.outside (s.time + 200000) → ∃ t, exec (.forecastPhase p) s = .next t ∧
      ∀ k ∈ s.partTowers p, x.2.2.2.testBit k = true → Tbl.get 20 t.power.ceil k = 10 ∧
        t.fget PWR_TOWER_CLK.TARGET 0 k ≤ 10))
---end

/-- A tile whose wake time has come runs, its tower at its voltage at least; other tiles stand. A gated tile without an
instance goes to Retention after RET_US, and from there to Off after OFF_MS unless that is 0, losing its arrays.
PART_STATE_TARGET acts for who may write it: 0 and 3 go to Run, 1 and 2 begin an entry where the part may idle and else
set REFUSED; AUTO_IDLE begins one after its time. A completed entry shows the state with every tile off, in Standby
every link down; one that no longer may is abandoned. A wake shows Run; after Standby enabled ports train. A rail's
fault is recorded, stops the part in HOLD with cause 1, and its PG is gone. Telemetry shows the readings; four failures
fail the segment, which is then not read until a status poll returns it. The next stage is enabled 1 ms after the one
before is complete; enables fall 1 ms apart; a PG missing for 10 ms is HOLD with cause 1. A cable that goes takes its
link down. An orderly power-down stops everything and drops the highest enable. BOARD_RST_N and loss of VAON keep
calendar, fuses, log and host memory; all other memory is lost; the first begins bring-up again. Where their conditions
do not hold these change nothing. -/
def Obligations.SleepStatesRailsAndVaonAct : Prop :=
  (∀ (s : State) (p : Nat), p < 16 → ∃ t, exec (.tileWake p) s = .next t ∧ t.mem = s.mem ∧ ∀ j,
    (∀ w, j ∈ s.partTiles p → (s.tile j).wakeAt = some w → w ≤ s.time →
      t.tile j = { s.tile j with power := .run, since := s.time, wakeAt := none } ∧
      s.voltage (j / 4) (max (s.fget PWR_TOWER_CLK.TARGET 0 (j / 4)) (s.fget PWR_TOWER_CLK.CURRENT 0 (j / 4))) ≤
        t.fget PWR_TOWER_CLK.VT_MV 0 (j / 4)) ∧
    (j ∉ s.partTiles p ∨ (s.tile j).wakeAt = none ∨ (∃ w, (s.tile j).wakeAt = some w ∧ s.time < w) → t.tile j = s.tile j)) ∧
  (∀ (s : State) (j : Nat), j < 64 →
    ((s.tile j).power = .gated → (s.tile j).wakeAt = none → s.tileBusy j = false →
      (s.tile j).since + 1000 * s.fget PWR_SLEEP_CTL.RET_US 0 0 ≤ s.time → ∃ t, exec (.tileRetention j) s = .next t ∧
        t.tile j = { s.tile j with power := .retention, since := s.time } ∧ ∀ i, i ≠ j → t.tile i = s.tile i) ∧
    ((s.tile j).power ≠ .gated ∨ s.tileBusy j = true ∨
      s.time < (s.tile j).since + 1000 * s.fget PWR_SLEEP_CTL.RET_US 0 0 → exec (.tileRetention j) s = .next s) ∧
    ((s.tile j).power = .retention → (s.tile j).wakeAt = none → s.tileBusy j = false → s.fget PWR_SLEEP_CTL.OFF_MS 0 0 ≠ 0 →
      (s.tile j).since + 1000000 * s.fget PWR_SLEEP_CTL.OFF_MS 0 0 ≤ s.time → ∃ t, exec (.tileOff j) s = .next t ∧
        (t.tile j).power = .off ∧ (∀ a, a < 4 → Tbl.get {} t.arrs (4 * j + a) = ({} : Arr)) ∧ ∀ i, i ≠ j → t.tile i = s.tile i) ∧
    ((s.tile j).power ≠ .retention ∨ s.fget PWR_SLEEP_CTL.OFF_MS 0 0 = 0 → exec (.tileOff j) s = .next s)) ∧
  (∀ (s : State) (who : Accessor) (v : Nat), who.wf = true →
    (s.privileged who = false ∨ s.reaches who PWR_STATE_CTL.TARGET 0 0 = false → exec (.partStateTarget who v) s = .next s) ∧
    (s.privileged who = true → s.reaches who PWR_STATE_CTL.TARGET 0 0 = true → ∃ t, exec (.partStateTarget who v) s = .next t ∧
      t.fget PWR_STATE_CTL.AUTO_IDLE_MS 0 0 = v / 4 % 65536 ∧ t.mem = s.mem ∧
      (v % 4 = 0 ∨ v % 4 = 3 → t.fget PWR_STATE_STATUS.STATE 0 0 = 0 ∧ t.power.entering = none) ∧
      (v % 4 = 1 ∨ v % 4 = 2 → t.fget PWR_STATE_STATUS.STATE 0 0 = s.fget PWR_STATE_STATUS.STATE 0 0 ∧
        (s.mayIdle = false → t.fget PWR_STATE_STATUS.REFUSED 0 0 = 1 ∧ t.power = s.power) ∧
        (s.mayIdle = true → s.fget PWR_STATE_STATUS.STATE 0 0 ≠ v % 4 → t.power.entering = some (v % 4) ∧
          t.fget PWR_STATE_STATUS.ENTERING 0 0 = 1)))) ∧
  (∀ s : State,
    (∀ u, s.fget PWR_STATE_CTL.AUTO_IDLE_MS 0 0 ≠ 0 → s.mayIdle = true → s.fget PWR_STATE_STATUS.STATE 0 0 = 0 →
      s.power.idleSince = some u →
      (u + 1000000 * s.fget PWR_STATE_CTL.AUTO_IDLE_MS 0 0 ≤ s.time → ∃ t, exec .autoIdle s = .next t ∧
        t.power.entering = some 1 ∧ t.fget PWR_STATE_STATUS.ENTERING 0 0 = 1 ∧ t.mem = s.mem) ∧
      (s.time < u + 1000000 * s.fget PWR_STATE_CTL.AUTO_IDLE_MS 0 0 → exec .autoIdle s = .next s)) ∧
    (s.fget PWR_STATE_CTL.AUTO_IDLE_MS 0 0 = 0 → exec .autoIdle s = .next s) ∧
    (s.power.entering = none → exec .partStateEntered s = .next s) ∧
    (∀ v, v < 4 → s.power.entering = some v → ∃ t, exec .partStateEntered s = .next t ∧ t.power.entering = none ∧
      t.fget PWR_STATE_STATUS.ENTERING 0 0 = 0 ∧ t.mem = s.mem ∧
      (s.mayIdle = true → t.fget PWR_STATE_STATUS.STATE 0 0 = v ∧ t.fget PWR_EVENT.STATE_CHANGE 0 0 = 1 ∧
        (∀ j, j < 64 → (t.tile j).power = .off) ∧ (v = 2 → ∀ p, p < 16 → t.pst p = 0)) ∧
      (s.mayIdle = false → t.fget PWR_STATE_STATUS.STATE 0 0 = s.fget PWR_STATE_STATUS.STATE 0 0 ∧ t.tiles = s.tiles)) ∧
    (s.fget PWR_STATE_STATUS.STATE 0 0 = 0 → s.power.entering = none → exec .partWake s = .next s) ∧
    (s.fget PWR_STATE_STATUS.STATE 0 0 ≠ 0 → ∃ t, exec .partWake s = .next t ∧ t.fget PWR_STATE_STATUS.STATE 0 0 = 0 ∧
      t.power.entering = none ∧ t.fget PWR_EVENT.STATE_CHANGE 0 0 = 1 ∧
      (s.fget PWR_STATE_STATUS.STATE 0 0 = 2 → ∀ p, p < 16 → s.fget FAB_PORT_CTL.EN 0 p = 1 → s.pst p = 0 → t.pst p = 1))) ∧
  (∀ (s : State) (m : Nat), m < 2 ^ 29 →
    (s.faultRails m = [] → exec (.powerFault m) s = .next (s.setPgs (s.pgsWithout m))) ∧
    (∀ r rs, s.faultRails m = r :: rs → ∃ t, exec (.powerFault m) s = .next t ∧ t.fget PKG_SEQ.FAULT 0 0 = 1 ∧
      t.fget PKG_SEQ.FAULT_RAIL 0 0 = r ∧ t.phase = 15 ∧ t.fget BOOT_STATUS.CAUSE 0 0 = 1 ∧
      t.fget PWR_TRIP.CAUSE 0 0 = 4 ∧ t.fget PWR_TRIP.LATCHED 0 0 = 1 ∧ t.halted = true ∧
      ∀ q, q < 29 → m.testBit q = true → t.fbit PKG_PG.PG 0 0 q = false)) ∧
  (∀ (s : State) (r mv da dw c g x n : Nat), r < 28 → railAvs r = some (g, x) → s.boot.mgmtUp = true →
    (s.pkg.segBad.testBit g = false → s.enabled (railStage r) = true →
      (n < 4 → ∃ t, exec (.powerTelemetry r mv da dw c n) s = .next t ∧ t.fget PKG_RAIL.V_MV 0 r = mv % 4096 ∧
        t.fget PKG_RAIL.I_DA 0 r = da % 65536 ∧ t.fget PKG_RAIL.P_DW 0 r = dw % 65536 ∧
        t.fget PKG_RAIL.VR_TEMP 0 r = c % 256 ∧ t.mem = s.mem) ∧
      (4 ≤ n → ∃ t, exec (.powerTelemetry r mv da dw c n) s = .next t ∧ t.pkg.segBad.testBit g = true ∧
        t.fbit PKG_AVS_STATUS.SEG_OK 0 0 g = false ∧ t.fbit PKG_AVS_STATUS.SEG_FAIL 0 0 g = true ∧
        t.fget PKG_RAIL.V_MV 0 r = s.fget PKG_RAIL.V_MV 0 r)) ∧
    (s.pkg.segBad.testBit g = true → exec (.powerTelemetry r mv da dw c n) s = .next s ∧
      (n < 4 → ∃ t, exec (.avsStatusPoll g x n) s = .next t ∧ t.pkg.segBad.testBit g = false ∧
        t.fbit PKG_AVS_STATUS.SEG_OK 0 0 g = true)) ∧
    (s.pkg.segBad.testBit g = false → exec (.avsStatusPoll g x n) s = .next s)) ∧
  (∀ (s : State) (m : Nat), m < 2 ^ 29 →
    (s.boot.vaon = false → exec (.sequenceStage m) s = .next s ∧ exec .boardReset s = .next s ∧
      exec .powerDown s = .next s ∧ exec .vaonLoss s = .next s) ∧
    (s.boot.vaon = true →
      (∀ low u, s.pkg.down = some (low, u) →
        (u + 1000000 ≤ s.time → exec (.sequenceStage m) s = .next ((s.setPgs m).dropEnable low)) ∧
        (s.time < u + 1000000 → exec (.sequenceStage m) s = .next (s.setPgs m))) ∧
      (∀ n, s.pkg.down = none → (s.setPgs m).nextStage = some n → (s.setPgs m).stageReady n = true → 2 ≤ n →
        (s.pkg.readyAt = none → ∃ t, exec (.sequenceStage m) s = .next t ∧ t.pkg.readyAt = some s.time ∧
          t.enabled n = false ∧ t.fget PKG_PG.PG 0 0 = m) ∧
        (∀ u, s.pkg.readyAt = some u → u + 1000000 ≤ s.time → ∃ t, exec (.sequenceStage m) s = .next t ∧
          t.enabled n = true ∧ t.pkg.enAt = s.time ∧ t.fget PKG_PG.PG 0 0 = m)))) ∧
  (∀ (s : State) (r : Nat), r < 29 →
    (railStage r ≠ 0 → s.enabled (railStage r) = true → railStage r = 4 ∨ s.enabled (railStage r + 1) = false →
      s.fbit PKG_PG.PG 0 0 r = false → s.pkg.enAt + 10000000 ≤ s.time → s.phase ≠ 15 → s.isReady = false →
      ∃ t, exec (.pgTimeout r) s = .next t ∧ t.phase = 15 ∧ t.fget BOOT_STATUS.CAUSE 0 0 = 1) ∧
    (s.fbit PKG_PG.PG 0 0 r = true ∨ s.time < s.pkg.enAt + 10000000 → exec (.pgTimeout r) s = .next s)) ∧
  (∀ (s : State) (m : Nat), m < 2 ^ 16 →
    (s.boot.ao = false → exec (.cableChange m) s = .next s) ∧
    (s.boot.ao = true → ∃ t, exec (.cableChange m) s = .next t ∧ t.fget PKG_CABLE.PRSNT 0 0 = m ∧ t.mem = s.mem ∧
      ∀ p, p < 16 → s.fbit PKG_CABLE.PRSNT 0 0 p = true → m.testBit p = false →
        t.fbit PKG_CABLE.CHANGED 0 0 p = true ∧ (s.linkUp p = true → t.pst p = 1))) ∧
  (∀ s : State, s.boot.vaon = true →
    (∃ t, exec .powerDown s = .next t ∧ t.halted = true ∧ t.pkg.off = true ∧ (∀ j, j < 64 → (t.tile j).power = .off) ∧
      ∀ n, 1 ≤ n → n ≤ 4 → s.pkg.down = none → s.enabled n = true →
        (∀ k, n < k → k ≤ 4 → s.enabled k = false) → t.enabled n = false) ∧
    ∀ c ∈ [Instr.boardReset, .vaonLoss], ∃ t, exec c s = .next t ∧ t.calendar = s.calendar ∧ t.fuses = s.fuses ∧
      t.mgmt.flash = s.mgmt.flash ∧ t.mgmt.keySlots = s.mgmt.keySlots ∧ t.execs = [] ∧ t.boot.ao = false ∧
      (∀ k, k < 2 ^ 64 → Tbl.get 0 t.mem k = 0) ∧ (∀ k, 2 ^ 64 ≤ k → Tbl.get 0 t.mem k = Tbl.get 0 s.mem k) ∧
      (c = .boardReset → t.boot.vaon = true ∧ t.phase = 1) ∧ (c = .vaonLoss → t.boot.vaon = false))
---end

/-- A message over I3C or SMBus, VAON valid and the management complex not in recovery: exactly these commands have these
effects and answers. SET_ENDPOINT_ID and SET_EVENT_RECEIVER keep the ID. A sensor of the repository is read, one whose
source is invalid answers unavailable, one that does not exist is refused. REQUEST_UPDATE opens an update, and a second
is refused; a component without an update is refused, one begun is staged, verified firmware goes to the slot that does
not run, a failed one is recorded and answered so; ACTIVATE_FIRMWARE closes the update, and with firmware names its slot
next. LOG_INFO and LOG_READ tell and deliver the log's entries, at most seven, one on SMBus; other counts and lost
entries are refused; LOG_CLEAR empties flash in HOLD. TIME_SET waits for the next tick. SET_PRIV takes 0 and 1.
DEBUG_UNLOCK acts in HOLD with a good token: every partition key is gone, the port is open. SPDM reports a measurement,
refuses key exchange, and needs the random source for a signature. In recovery only the commands that MCTP control and
firmware update need are answered; before VAON is valid none is. -/
def Obligations.ManagementCommandsAnswer : Prop :=
  ∀ (s : State) (via : Transport), via = .i3c ∨ via = .smbus →
    let basic (e : Nat) (k : Nat) (b : Bool) : List Instr :=
      [.setEndpointId via e, .requestUpdate via e, .firmwareComponent via 1 none k [], .activateFirmware via b]
    let full (e k : Nat) (g : Bool) (q : Spdm) : List Instr :=
      [.getSensorReading via k, .setEventReceiver via e, .logInfo via, .logRead via k e, .logClear via, .timeSet via k,
        .setPriv via k, .debugUnlock via k g, .spdmRequest via q]
    (∀ e k b q, e < 256 → s.boot.vaon = false → ∀ c ∈ basic e k b ++ full e k b q, exec c s = .next s) ∧
    (∀ e k b q, e < 256 → s.fget MGMT_STATUS.RECOVERY 0 0 ≠ 0 → ∀ c ∈ full e k b q, exec c s = .next s) ∧
    (s.boot.vaon = true →
      (∀ e, e < 256 →
        exec (.setEndpointId via e) s = .next ((s.withMgmt { s.mgmt with eid := e }).answer .ok []) ∧
        (s.mgmt.update ≠ none → exec (.requestUpdate via e) s = .next (s.answer .refused [])) ∧
        (s.mgmt.update = none → ∃ t, exec (.requestUpdate via e) s = .next t ∧ t.mgmt.update = some e ∧
          t.fget MGMT_STATUS.UPDATE_OPEN 0 0 = 1 ∧ t.rsp = ⟨.ok, []⟩)) ∧
      (∀ c o v l, s.mgmt.update = none → exec (.firmwareComponent via c o v l) s = .next (s.answer .refused [])) ∧
      (∀ v l, s.mgmt.update ≠ none →
        exec (.firmwareComponent via 1 none v l) s = .next ((s.withMgmt { s.mgmt with staging := true }).answer .ok []) ∧
        (∃ t, exec (.firmwareComponent via 1 (some true) v l) s = .next t ∧ t.rsp.kind = .ok ∧
          t.mgmt.slotVer = s.mgmt.slotVer.set (1 - s.fget MGMT_STATUS.RUN_SLOT 0 0) v ∧ t.mgmt.staging = false) ∧
        (∃ t, exec (.firmwareComponent via 1 (some false) v l) s = .next t ∧ t.rsp.kind = .abort ∧
          t.mgmt.slotVer = s.mgmt.slotVer ∧ t.fuses = s.fuses)) ∧
      (s.mgmt.update = none ∨ s.mgmt.staging = true → ∀ b, exec (.activateFirmware via b) s = .next (s.answer .refused [])) ∧
      (s.mgmt.update ≠ none → s.mgmt.staging = false → ∃ t, exec (.activateFirmware via false) s = .next t ∧
        t.mgmt.update = none ∧ t.fget MGMT_STATUS.UPDATE_OPEN 0 0 = 0 ∧ t.rsp = ⟨.ok, natLE 2 0xFFFF⟩ ∧
        (s.mgmt.comps.contains 1 = true →
          t.fget MGMT_STATUS.NEXT_SLOT 0 0 = (1 - s.fget MGMT_STATUS.RUN_SLOT 0 0) % 2))) ∧
    (s.boot.vaon = true → s.fget MGMT_STATUS.RECOVERY 0 0 = 0 →
      (∀ k, exec (.getSensorReading via k) s = .next
        (match (if s.boot.mgmtUp then s.reading k else none) with
          | none => s.answer .refused []
          | some [] => s.answer .notReady []
          | some bs => s.answer .ok bs)) ∧
      (∀ e, e < 256 → exec (.setEventReceiver via e) s = .next ((s.withMgmt { s.mgmt with receiver := some e }).answer .ok [])) ∧
      (∀ a b l, s.mgmt.entries = a :: l → (a :: l).getLast? = some b → exec (.logInfo via) s =
        .next (s.answer .ok (natLE 4 a.seq ++ natLE 4 b.seq ++ natLE 4 (s.fget MGMT_LOG_STATUS.LOST 0 0)))) ∧
      (∀ first n a l, s.mgmt.entries = a :: l →
        (n = 0 ∨ 7 < n ∨ first < a.seq → exec (.logRead via first n) s = .next (s.answer .refused [2])) ∧
        (1 ≤ n → n ≤ 7 → a.seq ≤ first → exec (.logRead via first n) s = .next (s.answer .ok
          (((s.mgmt.entries.filter (fun e => decide (first ≤ e.seq))).take (if via = .smbus then 1 else n)).flatMap LogEnt.bytes)))) ∧
      (s.phase = 15 → exec (.logClear via) s = .next ((s.withMgmt { s.mgmt with flash := [] }).answer .ok [])) ∧
      (∀ k, exec (.timeSet via k) s = .next ((s.withMgmt { s.mgmt with setArmed := some (k % 2 ^ 64) }).answer .ok [])) ∧
      (∀ k, 1 < k → exec (.setPriv via k) s = .next (s.answer .refused [2])) ∧
      (∀ k, k ≤ 1 → ∃ t, exec (.setPriv via k) s = .next t ∧ t.rsp = ⟨.ok, []⟩ ∧ t.fget HIF_PRIV.PRIV 0 0 = k ∧
        t.fget HIF_PRIV.PRIV 1 0 = k) ∧
      (∀ k g, s.phase ≠ 15 ∨ g = false → exec (.debugUnlock via k g) s = .next (s.answer .refused [2])) ∧
      (∀ k, s.phase = 15 → ∃ t, exec (.debugUnlock via k true) s = .next t ∧ t.rsp = ⟨.ok, []⟩ ∧ t.mgmt.keys = [] ∧
        t.fget SEC_ENC_STATUS.KEYED 0 0 = 0 ∧ t.fget MGMT_STATUS.DEBUG_OPEN 0 0 = 1) ∧
      (∀ i bs, s.measurement i = some bs → exec (.spdmRequest via (.measurements i false)) s = .next (s.answer .ok bs)) ∧
      (∀ q ∈ [Spdm.keyExchange, .pskExchange], exec (.spdmRequest via q) s = .next (s.answer .refused [])) ∧
      (s.fget SEC_RNG_STATUS.VALID 0 0 = 0 → exec (.spdmRequest via .challenge) s = .next (s.answer .abort [])))
---end

/-- A read of SEC_RNG by who reaches it answers the next 64 bits and moves the source on, 0 while it is stopped; one that
does not answers 0. A failed health test stops the source and is shown. A read of the challenge's first word draws all
eight. RTC_SECONDS answers the calendar's seconds and latches the fraction; RTC_SET arms the count for who has
privilege, and the next tick takes it, with fraction 0 and TIME_INVALID clear. A stopped oscillator sets TIME_INVALID;
with VAON gone a low VBAT loses the count. The ledger engine first reads the entry, which changes nothing where its word
is clean and no merge entry is open. A pin of a page that can be read, is valid and not dropped raises PIN and answers
ok; a page that is not so answers DROPPED; at 0xFFFF the request is held. An unpin gives a held request its place, or
lowers PIN; at the last one a page without references is released, and of a page that a KV_DROP met pinned the entry
that named it is marked dropped, its session's HAS_DROPPED set, and the page unreferenced. A reference is added, or
refused at 0xFFFF; the last one taken from an unpinned page releases it. The pin, reference and release operations named
are the model's own (R158). -/
def Obligations.RandomClockAndLedgerAnswer : Prop :=
  (∀ (s : State) (who : Accessor), who.wf = true →
    (s.reaches who SEC_RNG.VALUE 0 0 = true → exec (.secRngRead who) s = .next (s.draw.answer .ok (natLE 8
      (if s.fget SEC_RNG_STATUS.VALID 0 0 = 1 then (Config.random64 s.free).toNat else 0)))) ∧
    (s.reaches who SEC_RNG.VALUE 0 0 = false → exec (.secRngRead who) s = .next (s.answer .ok (natLE 8 0))) ∧
    (s.reaches who MGMT_DBG_CHALLENGE.CHALLENGE 0 0 = true → ∃ t, exec (.debugChallengeRead who) s = .next t ∧
      t.free = s.free + 4 ∧ t.mem = s.mem ∧ (∃ v, t.rsp = ⟨.ok, natLE 4 v⟩ ∧ t.fget MGMT_DBG_CHALLENGE.CHALLENGE 0 0 = v) ∧
      ∀ i, i < 4 → t.fget MGMT_DBG_CHALLENGE.CHALLENGE 0 (2 * i) + 2 ^ 32 * t.fget MGMT_DBG_CHALLENGE.CHALLENGE 0 (2 * i + 1) =
        s.random (s.free + i)) ∧
    (s.reaches who RTC_SECONDS.SECONDS 0 0 = true → exec (.rtcSecondsRead who) s =
      .next ((s.fset RTC_FRAC.FRACTION 0 0 (s.calendar % 32768)).answer .ok (natLE 8 (s.calendar / 32768)))) ∧
    (s.privileged who = true → s.reaches who RTC_CTL.SET 0 0 = true → exec (.rtcSet who) s =
      .next (s.withMgmt { s.mgmt with setArmed := some (s.fget RTC_SET_SEC.SECONDS 0 0 % 2 ^ 64) })) ∧
    (s.privileged who = false → exec (.rtcSet who) s = .next s)) ∧
  (∀ s : State,
    (∀ k, 1 ≤ k → k ≤ 3 →
      (s.fget SEC_RNG_STATUS.VALID 0 0 = 0 → exec (.rngHealthFail k) s = .next s) ∧
      (s.fget SEC_RNG_STATUS.VALID 0 0 ≠ 0 → ∃ t, exec (.rngHealthFail k) s = .next t ∧
        t.fget SEC_RNG_STATUS.VALID 0 0 = 0 ∧ t.fget SEC_RNG_STATUS.FAILED_TEST 0 0 = k ∧
        t.fbit MGMT_EVENT.CAUSE 0 0 3 = true ∧ t.mem = s.mem)) ∧
    (s.mgmt.setArmed = none → exec .rtcSetApply s = .next s) ∧
    (∀ v, s.mgmt.setArmed = some v → ∃ t, exec .rtcSetApply s = .next t ∧ t.calendar = 32768 * v ∧ t.calPhase = 0 ∧
      t.mgmt.setArmed = none ∧ t.fget RTC_CTL.TIME_INVALID 0 0 = 0) ∧
    (∃ t, exec .rtcOscStop s = .next t ∧ t.fget RTC_CTL.TIME_INVALID 0 0 = 1 ∧ t.mgmt.oscStopped = true ∧ t.mem = s.mem) ∧
    (s.boot.vaon = true → exec .vbatLow s = .next s) ∧
    (s.boot.vaon = false → ∃ t, exec .vbatLow s = .next t ∧ t.calendar = 0 ∧ t.fget RTC_CTL.TIME_INVALID 0 0 = 1)) ∧
  (∀ (s : State) (pg th : Nat), pg < 2 ^ 24 →
    let u := s.seeLed pg
    let e := u.led pg
    ((∀ w ∈ wordsOf (s.cls (s.ledAt pg)) (s.ledAt pg) 16, s.verd w = .clean) →
      s.merge = [] → u = s) ∧
    (u.ledBad pg = true ∨ e.valid = false →
      exec (.ledgerPin pg th) s = .next (u.answer .refused []) ∧ exec (.ledgerRef pg) s = .next (u.answer .refused []) ∧
      exec (.ledgerUnpin pg) s = .next u ∧ exec (.ledgerUnref pg) s = .next u) ∧
    (u.ledBad pg = false → e.valid = true →
      (e.dropped = true → exec (.ledgerPin pg th) s = .next (u.answer .refused [])) ∧
      (e.dropped = false → e.pin = 0xFFFF → exec (.ledgerPin pg th) s =
        .next ((u.withPinHeld (u.pinHeld ++ [(pg, th)])).answer .none [])) ∧
      (e.dropped = false → e.pin ≠ 0xFFFF → exec (.ledgerPin pg th) s =
        .next ((u.setLed pg { e with pin := e.pin + 1 }).answer .ok [])) ∧
      (e.pin = 0 → exec (.ledgerUnpin pg) s = .next u) ∧
      (∀ h, 0 < e.pin → u.pinHeld.find? (fun h => h.1 == pg) = some h → exec (.ledgerUnpin pg) s =
        .next (u.withPinHeld (u.pinHeld.erase h))) ∧
      (1 < e.pin → u.pinHeld.find? (fun h => h.1 == pg) = none → exec (.ledgerUnpin pg) s =
        .next (u.setLed pg { e with pin := e.pin - 1 })) ∧
      (e.pin = 1 → e.ref = 0 → u.pinHeld.find? (fun h => h.1 == pg) = none → exec (.ledgerUnpin pg) s =
        .next ((u.setLed pg { e with pin := 0 }).release pg)) ∧
      (let v := u.setLed pg { e with pin := 0 }
       e.pin = 1 → e.ref ≠ 0 → u.pinHeld.find? (fun h => h.1 == pg) = none →
        (u.dropLater.find? (fun x => x.1 == pg) = none → exec (.ledgerUnpin pg) s = .next v) ∧
        (∀ n p slot l k, u.dropLater.find? (fun x => x.1 == pg) = some (n, p, slot, l, k) →
          pteValid (v.pte p slot l k) = true → ptePage (v.pte p slot l k) = pg → exec (.ledgerUnpin pg) s =
            .next ((((v.withDropLater (u.dropLater.filter (fun x => x.1 != pg))).setPte p slot l k
              (pteDrop (v.pte p slot l k))).setRecFlag p slot 2 true).unref pg))) ∧
      (e.ref = 0xFFFF → exec (.ledgerRef pg) s = .next (u.answer .refused [])) ∧
      (e.ref ≠ 0xFFFF → exec (.ledgerRef pg) s =
        .next ((u.setLed pg { e with ref := e.ref + 1 }).answer .ok [])) ∧
      (e.ref = 0 → exec (.ledgerUnref pg) s = .next u) ∧
      (2 ≤ e.ref ∨ e.ref = 1 ∧ e.pin ≠ 0 → exec (.ledgerUnref pg) s =
        .next (u.setLed pg { e with ref := e.ref - 1 })) ∧
      (e.ref = 1 → e.pin = 0 → exec (.ledgerUnref pg) s =
        .next ((u.setLed pg { e with ref := 0 }).release pg))))
---end

/-- After reset no command waits, the fabric timebase is 0, bring-up is about to begin (BOOT_STATUS.PHASE 1, no cause, no
load armed), nothing of the part is powered or runs, the registers of the power manager show their tables' values (cap
4,000 W, R_est and its nominal value 0.012 K/W, every tower at 0.50 GHz and 0.600 V), the calendar's time is not valid,
no interrupt is raised, and memory lists nothing, so it and the check bits are in canonical form. A register whose table
states no reset value, and what memory reads as before bring-up has written it, are the model's choices; this statement
names none of them. -/
def Obligations.ResetLeavesTheTablesValues : Prop :=
  State.reset.pending = [] ∧ State.reset.time = 0 ∧ State.reset.boot.vaon = false ∧ State.reset.phase = 1 ∧
  State.reset.fget BOOT_STATUS.CAUSE 0 0 = 0 ∧ State.reset.fget BOOT_STATUS.IMAGE_ARMED 0 0 = 0 ∧
  State.reset.isReady = false ∧ State.reset.execs = [] ∧ State.reset.decks = [] ∧ State.reset.msix = [] ∧
  State.reset.fget PWR_CAP_STATUS.CAP_W 0 0 = 4000 ∧ State.reset.fget PWR_RTH.EST 0 0 = 12000 ∧
  State.reset.fget PWR_RTH.NOM 0 0 = 12000 ∧
  (∀ u, State.reset.fget PWR_TOWER_CLK.CURRENT 0 u = 0 ∧ State.reset.fget PWR_TOWER_CLK.VT_MV 0 u = 600) ∧
  (∀ j, (State.reset.tile j).power = .off) ∧ (∀ p, State.reset.partStatus p = 0) ∧
  State.reset.fget RTC_CTL.TIME_INVALID 0 0 = 1 ∧ MemOk State.reset
---end

/-- For every state whose memory and check bits are in canonical form (addresses strictly rising, no entry equal to what an
unlisted place reads as), whatever commands wait: if a step answers a next state, its memory and check bits are in
canonical form too, whichever command of any family runs, a store, a reduction, a scrub, a reset that zeroes or a loss
of power among them; so a run of any length from such a state ends in one. Two states with canonical memories whose
bytes all read alike have equal memories. That memory is held in this form is the model's own; that it begins so is the
statement about reset. -/
def Obligations.EveryStepKeepsMemoryCanonical : Prop :=
  (∀ s t : State, MemOk s → step s = .next t → MemOk t) ∧
  (∀ (s : State) (k : Nat), MemOk s → ∀ t : State, core.run k s = .next t → MemOk t) ∧
  (∀ s t : State, MemOk s → MemOk t → (∀ k, Tbl.get 0 s.mem k = Tbl.get 0 t.mem k) → s.mem = t.mem)
---end

/-- For every command of every family, every state and every operand: if the command answers a next state, that state agrees
with the one before it in each area of the state that is not among the command's areas. The areas part the whole state
but for the waiting commands: clocks, free draws, registers, interrupt vectors, memory with its check bits, the memory
controllers, the last answer, host transfers, error records, tiles, partitions, decks, pages, channels, regulation,
links, streams, the barrier tree, bring-up, power, package and management. The list of each command's areas is the
model's reading of what its row says the command does, reports included. A command without the area memory changes no
byte of any memory and no check bit; one without links leaves every port, probe and delivered message; one without decks
every deck and execution slot. -/
def Obligations.CommandsWriteOnlyTheirAreas : Prop :=
  ∀ (c : Instr) (s t : State), exec c s = .next t → ∀ a, a ∉ c.areas → Area.same s t a
---end
end

