-- ==== Sys2Proof/Laws/Tbl.lean ====
section
/-!
SUPPORT. The laws of a sparse table: what a read after a write gives, and that every operation keeps the canonical form.
-/

namespace Sys2Proof

variable {α : Type} [DecidableEq α] {d : α}

/-- The canonical form above a bound holds above any lower one. -/
theorem Tbl.wfFrom_mono {t : Tbl α} {a b : Nat} (hab : b ≤ a) (h : Tbl.wfFrom d a t = true) : Tbl.wfFrom d b t = true := by
  cases t with
  | nil => rfl
  | cons x t =>
    obtain ⟨k, v⟩ := x
    simp only [Tbl.wfFrom, Bool.and_eq_true, decide_eq_true_eq] at h ⊢
    exact ⟨⟨by omega, h.1.2⟩, h.2⟩

/-- Keys below the bound of a canonical table are not listed. -/
theorem Tbl.get_below {t : Tbl α} {a k : Nat} (h : Tbl.wfFrom d a t = true) (hk : k < a) : Tbl.get d t k = d := by
  induction t generalizing a with
  | nil => rfl
  | cons x t ih =>
    obtain ⟨b, v⟩ := x
    simp only [Tbl.wfFrom, Bool.and_eq_true, decide_eq_true_eq] at h
    rw [Tbl.get, if_neg (by omega)]
    exact ih h.2 (by omega)

/-- Taking entries out keeps the canonical form above a bound. -/
theorem Tbl.wfFrom_filter {t : Tbl α} {a : Nat} (p : Nat × α → Bool) (h : Tbl.wfFrom d a t = true) :
    Tbl.wfFrom d a (t.filter p) = true := by
  induction t generalizing a with
  | nil => rfl
  | cons x t ih =>
    obtain ⟨b, w⟩ := x
    simp only [Tbl.wfFrom, Bool.and_eq_true, decide_eq_true_eq] at h
    rw [List.filter_cons]
    split
    · simp only [Tbl.wfFrom, Bool.and_eq_true, decide_eq_true_eq]
      exact ⟨h.1, ih h.2⟩
    · exact Tbl.wfFrom_mono (by omega) (ih h.2)

/-- Listing a value keeps the canonical form above its key and the table's bound. -/
theorem Tbl.wfFrom_ins {t : Tbl α} {a k : Nat} {v : α} (h : Tbl.wfFrom d a t = true) (hk : a ≤ k) (hv : v ≠ d) :
    Tbl.wfFrom d a (t.ins k v) = true := by
  induction t generalizing a with
  | nil => simp [Tbl.ins, hv, Tbl.wfFrom, hk]
  | cons x t ih =>
    obtain ⟨b, w⟩ := x
    simp only [Tbl.wfFrom, Bool.and_eq_true, decide_eq_true_eq] at h
    rw [Tbl.ins]
    split
    · simp only [Tbl.wfFrom, Bool.and_eq_true, decide_eq_true_eq]
      exact ⟨⟨hk, by simpa using hv⟩, ⟨by omega, h.1.2⟩, h.2⟩
    · split
      · simp only [Tbl.wfFrom, Bool.and_eq_true, decide_eq_true_eq]
        exact ⟨⟨hk, by simpa using hv⟩, Tbl.wfFrom_mono (by omega) h.2⟩
      · simp only [Tbl.wfFrom, Bool.and_eq_true, decide_eq_true_eq]
        exact ⟨h.1, ih h.2 (by omega)⟩

/-- A write keeps the canonical form above its key and the table's bound. -/
theorem Tbl.wfFrom_put {t : Tbl α} {a k : Nat} {v : α} (h : Tbl.wfFrom d a t = true) (hk : a ≤ k) :
    Tbl.wfFrom d a (Tbl.put d t k v) = true := by
  unfold Tbl.put
  split
  · exact Tbl.wfFrom_filter _ h
  · exact Tbl.wfFrom_ins h hk ‹_›

/-- A write keeps the canonical form. -/
@[simp] theorem Tbl.wf_put {t : Tbl α} {k : Nat} {v : α} (h : Tbl.wf d t = true) : Tbl.wf d (Tbl.put d t k v) = true :=
  Tbl.wfFrom_put h (Nat.zero_le k)

/-- Taking entries out keeps the canonical form. -/
@[simp] theorem Tbl.wf_filter {t : Tbl α} (p : Nat × α → Bool) (h : Tbl.wf d t = true) : Tbl.wf d (t.filter p) = true :=
  Tbl.wfFrom_filter p h

/-- Taking out the entries that a predicate names keeps the canonical form. -/
@[simp] theorem Tbl.wf_drop {t : Tbl α} (p : Nat → α → Bool) (h : Tbl.wf d t = true) : Tbl.wf d (t.drop p) = true :=
  Tbl.wfFrom_filter _ h

/-- Clearing a range keeps the canonical form. -/
@[simp] theorem Tbl.wf_clearRange {t : Tbl α} {k n : Nat} (h : Tbl.wf d t = true) : Tbl.wf d (t.clearRange k n) = true :=
  Tbl.wf_drop _ h

/-- Changing a value keeps the canonical form. -/
@[simp] theorem Tbl.wf_upd {t : Tbl α} {k : Nat} {f : α → α} (h : Tbl.wf d t = true) : Tbl.wf d (Tbl.upd d t k f) = true :=
  Tbl.wf_put h

/-- The empty table has the canonical form. -/
@[simp] theorem Tbl.wf_nil : Tbl.wf d ([] : Tbl α) = true := rfl

omit [DecidableEq α] in
/-- A listed value is read back. -/
theorem Tbl.get_ins_same (t : Tbl α) {k : Nat} {v : α} : Tbl.get d (t.ins k v) k = v := by
  induction t with
  | nil => simp [Tbl.ins, Tbl.get]
  | cons x t ih =>
    obtain ⟨b, w⟩ := x
    rw [Tbl.ins]
    split
    · simp [Tbl.get]
    · split
      · simp [Tbl.get]
      · rw [Tbl.get, if_neg (by omega), ih]

omit [DecidableEq α] in
/-- Listing a value leaves every other key as it was. -/
theorem Tbl.get_ins_ne (t : Tbl α) {k j : Nat} {v : α} (h : j ≠ k) : Tbl.get d (t.ins k v) j = Tbl.get d t j := by
  induction t with
  | nil => simp [Tbl.ins, Tbl.get, Ne.symm h]
  | cons x t ih =>
    obtain ⟨b, w⟩ := x
    rw [Tbl.ins]
    split
    · simp [Tbl.get, Ne.symm h]
    · split
      · rename_i hk
        simp [Tbl.get, ← hk, Ne.symm h]
      · simp only [Tbl.get, ih]

omit [DecidableEq α] in
/-- Taking the entries of one key out leaves the default there. -/
theorem Tbl.get_filter_same (t : Tbl α) {k : Nat} : Tbl.get d (t.filter (fun e => e.1 != k)) k = d := by
  induction t with
  | nil => rfl
  | cons x t ih =>
    obtain ⟨b, w⟩ := x
    by_cases hb : b = k <;> simp [hb, Tbl.get, ih]

omit [DecidableEq α] in
/-- Taking the entries of one key out leaves every other key as it was. -/
theorem Tbl.get_filter_ne (t : Tbl α) {k j : Nat} (h : j ≠ k) :
    Tbl.get d (t.filter (fun e => e.1 != k)) j = Tbl.get d t j := by
  induction t with
  | nil => rfl
  | cons x t ih =>
    obtain ⟨b, w⟩ := x
    by_cases hb : b = k
    · simp [hb, Tbl.get, ih, Ne.symm h]
    · simp [hb, Tbl.get, ih]

/-- A write is read back. -/
@[simp] theorem Tbl.get_put_same (t : Tbl α) (k : Nat) (v : α) : Tbl.get d (Tbl.put d t k v) k = v := by
  unfold Tbl.put
  split
  · rename_i hv; rw [Tbl.get_filter_same, hv]
  · exact Tbl.get_ins_same t

/-- A write leaves every other key as it was. -/
theorem Tbl.get_put_ne (t : Tbl α) {k j : Nat} {v e : α} (h : j ≠ k) :
    Tbl.get e (Tbl.put d t k v) j = Tbl.get e t j := by
  unfold Tbl.put
  split
  · exact Tbl.get_filter_ne t h
  · exact Tbl.get_ins_ne t h

/-- What a read after a write gives. -/
theorem Tbl.get_put (t : Tbl α) (k j : Nat) (v : α) :
    Tbl.get d (Tbl.put d t k v) j = if j = k then v else Tbl.get d t j := by
  split
  · rename_i h; rw [h, Tbl.get_put_same]
  · exact Tbl.get_put_ne t ‹_›

/-- Two canonical tables that read alike are equal. -/
theorem Tbl.ext_from {t u : Tbl α} {a : Nat} (ht : Tbl.wfFrom d a t = true) (hu : Tbl.wfFrom d a u = true)
    (h : ∀ k, Tbl.get d t k = Tbl.get d u k) : t = u := by
  induction t generalizing a u with
  | nil =>
    cases u with
    | nil => rfl
    | cons y u =>
      obtain ⟨b, w⟩ := y
      simp only [Tbl.wfFrom, Bool.and_eq_true, decide_eq_true_eq] at hu
      have := h b
      simp [Tbl.get] at this
      simp [← this] at hu
  | cons x t ih =>
    obtain ⟨b, w⟩ := x
    cases u with
    | nil =>
      simp only [Tbl.wfFrom, Bool.and_eq_true, decide_eq_true_eq] at ht
      have := h b
      simp [Tbl.get] at this
      simp [this] at ht
    | cons y u =>
      obtain ⟨c, x⟩ := y
      simp only [Tbl.wfFrom, Bool.and_eq_true, decide_eq_true_eq] at ht hu
      have hw : w ≠ d := by simpa using ht.1.2
      have hx : x ≠ d := by simpa using hu.1.2
      have hbc : b = c := by
        rcases Nat.lt_trichotomy b c with hlt | heq | hgt
        · refine absurd ?_ hw
          have hb := h b
          rwa [Tbl.get, if_pos rfl, Tbl.get, if_neg (by omega), Tbl.get_below hu.2 (by omega)] at hb
        · exact heq
        · refine absurd ?_ hx
          have hc := h c
          rw [Tbl.get, if_neg (by omega), Tbl.get_below ht.2 (by omega), Tbl.get, if_pos rfl] at hc
          exact hc.symm
      subst hbc
      have hb : w = x := by
        have := h b
        rwa [Tbl.get, if_pos rfl, Tbl.get, if_pos rfl] at this
      subst hb
      rw [ih ht.2 hu.2 (fun k => ?_)]
      by_cases hk : b = k
      · subst hk
        rw [Tbl.get_below ht.2 (by omega), Tbl.get_below hu.2 (by omega)]
      · have := h k
        simpa only [Tbl.get, if_neg hk] using this

omit [DecidableEq α] in
/-- Clearing a range: its keys read as the default. -/
theorem Tbl.get_clearRange_in (t : Tbl α) {k n j : Nat} (h1 : k ≤ j) (h2 : j < k + n) :
    Tbl.get d (t.clearRange k n) j = d := by
  induction t with
  | nil => rfl
  | cons x t ih =>
    obtain ⟨b, w⟩ := x
    simp only [Tbl.clearRange, Tbl.drop, List.filter_cons] at ih ⊢
    split
    · rename_i hb
      rw [Tbl.get, if_neg]
      · exact ih
      · rintro rfl
        simp [h1, h2] at hb
    · exact ih

omit [DecidableEq α] in
/-- Clearing a range leaves every other key as it was. -/
theorem Tbl.get_clearRange_out (t : Tbl α) {k n j : Nat} (h : j < k ∨ k + n ≤ j) :
    Tbl.get d (t.clearRange k n) j = Tbl.get d t j := by
  induction t with
  | nil => rfl
  | cons x t ih =>
    obtain ⟨b, w⟩ := x
    simp only [Tbl.clearRange, Tbl.drop, List.filter_cons] at ih ⊢
    split
    · simp only [Tbl.get, ih]
    · rename_i hb
      rw [ih, Tbl.get, if_neg]
      rintro rfl
      apply hb
      simp
      omega

end Sys2Proof
end

