-- ==== Sys2Proof/Laws/Keeps.lean ====
section
/-!
SUPPORT. What every operation keeps: a predicate that is open in the areas an operation writes holds after it. Here: what a predicate must bear, and the operations over registers, memory and pages.
-/

namespace Sys2Proof.Machine

set_option linter.all false

/-- A predicate is open in an area: what a command writes there cannot break it. Memory and its check bits are written in few
ways; every other field may become anything. -/
def Opens (P : State → Prop) : Area → Prop
  | .clock => (∀ s v, P s → P (s.withTime v)) ∧ (∀ s v, P s → P (s.withCalendar v)) ∧ (∀ s v, P s → P (s.withCalPhase
      v))
  | .draws => ∀ s v, P s → P (s.withFree v)
  | .registers => (∀ s v, P s → P (s.withRegs v)) ∧ (∀ s v, P s → P (s.withHalfW v)) ∧ (∀ s v, P s → P (s.withHalfR
      v))
  | .vectors => ∀ s v, P s → P (s.withMsix v)
  | .memory => (∀ s v, P s → P (s.withWbq v)) ∧ (∀ s k bs, P s → P (s.poke k bs)) ∧ (∀ s k d, P s → P (s.setDelta k d)) ∧
      (∀ s k n, P s → P (s.zero k n)) ∧
      (∀ s f, P s → P (s.withMem (s.mem.drop f))) ∧ (∀ s g, P s → P (s.withChk (s.chk.drop g))) ∧
      (∀ s v, P s → P (s.withMerge v))
  | .controllers => (∀ s v, P s → P (s.withProt v)) ∧ (∀ s v, P s → P (s.withScrub v)) ∧ (∀ s v, P s → P
      (s.withCeSince v)) ∧ (∀ s v, P s → P (s.withTicks v))
  | .answers => ∀ s v, P s → P (s.withRsp v)
  | .host => (∀ s v, P s → P (s.withHostReads v)) ∧ (∀ s v, P s → P (s.withHostTag v))
  | .records => (∀ s v, P s → P (s.withErrQ v)) ∧ (∀ s v, P s → P (s.withRecCount v)) ∧ (∀ s v, P s → P (s.withVfQ v))
  | .tiles => (∀ s v, P s → P (s.withTiles v)) ∧ (∀ s v, P s → P (s.withArrs v)) ∧ (∀ s v, P s → P (s.withThrs v)) ∧
      (∀ s v, P s → P (s.withJobs v)) ∧ (∀ s v, P s → P (s.withTags v)) ∧ (∀ s v, P s → P (s.withTileSems v))
  | .parts => (∀ s p f, P s → P (s.onPart p f)) ∧ (∀ s v, P s → P (s.withSems v)) ∧ (∀ s v, P s → P (s.withEvts v))
  | .decks => (∀ s v, P s → P (s.withDecks v)) ∧ (∀ s p x f, P s → P (s.onExec p x f)) ∧ (∀ s v, P s → P
      (s.withDeckEver v)) ∧ (∀ s v, P s → P (s.withStartNo v)) ∧ (∀ s v, P s → P (s.withSuspNo v))
  | .pages => (∀ s v, P s → P (s.withPinHeld v)) ∧ (∀ s v, P s → P (s.withDropLater v)) ∧ (∀ s v, P s → P
      (s.withAllocAt v)) ∧ (∀ s v, P s → P (s.withSealWide v)) ∧ (∀ s v, P s → P (s.withSealParts v))
  | .thapel => (∀ s v, P s → P (s.withChans v)) ∧ (∀ s v, P s → P (s.withThapWait v)) ∧ (∀ s v, P s → P (s.withAttn
      v)) ∧ (∀ s v, P s → P (s.withStepNo v))
  | .regulation => (∀ s k f, P s → P (s.onAcct k f)) ∧ (∀ s v, P s → P (s.withMons v)) ∧ (∀ s v, P s → P (s.withMargin
      v))
  | .links => (∀ s p f, P s → P (s.onPort p f)) ∧ (∀ s v, P s → P (s.withProbes v)) ∧ (∀ s v, P s → P (s.withCruiseAt
      v)) ∧ (∀ s v, P s → P (s.withRouteImage v)) ∧ (∀ s v, P s → P (s.withInbox v))
  | .streams => (∀ s v, P s → P (s.withSendCtx v)) ∧ (∀ s v, P s → P (s.withRecvCtx v)) ∧ (∀ s v, P s → P
      (s.withStreamNo v)) ∧ (∀ s v, P s → P (s.withSyncAt v))
  | .tree => ∀ s v, P s → P (s.withTree v)
  | .boot => (∀ s v, P s → P (s.withImg v)) ∧ (∀ s v, P s → P (s.withFuses v)) ∧ (∀ s v, P s → P (s.withBoot v)) ∧ (∀
      s v, P s → P (s.withOwner v)) ∧ (∀ s v, P s → P (s.withHalted v))
  | .power => (∀ s v, P s → P (s.withPower v)) ∧ (∀ s v, P s → P (s.withSlew v)) ∧ (∀ s v, P s → P (s.withStepped v))
  | .package => ∀ s v, P s → P (s.withPkg v)
  | .management => ∀ s v, P s → P (s.withMgmt v)

/-- A predicate is open in the areas of a list. -/
def Opened (l : List Area) (P : State → Prop) : Prop := ∀ a ∈ l, Opens P a

theorem Opened.mono {l m : List Area} {P : State → Prop} (h : Opened m P) (i : l ⊆ m) : Opened l P := fun a ha => h a (i ha)

/-- A predicate survives a part reset and a loss of VAON, which write every area at once. -/
def Restarts (P : State → Prop) : Prop := (∀ s, P s → P s.partReset) ∧ ∀ s, P s → P s.vaonLoss

/-- A predicate does not speak of the waiting commands. -/
def KeepsQueue (P : State → Prop) : Prop := ∀ s q, P s → P (s.withQueue q)

/-- A choice of two states. -/
theorem keeps_ite {P : State → Prop} {c : Prop} [Decidable c] {a b : State} (ha : P a) (hb : P b) : P (if c then a else b) := by
  split <;> assumption

/-- A choice of two answers. -/
theorem keeps_ite1 {P : State → Prop} {β : Type} {c : Prop} [Decidable c] {a b : State × β} (ha : P a.1) (hb : P b.1) :
    P (if c then a else b).1 := by
  split <;> assumption

/-- The state of an answer. -/
theorem keeps_pair {P : State → Prop} {β : Type} {p : State × β} {t : State} {b : β} (e : p = (t, b)) (h : P p.1) : P t := by
  rw [e] at h; exact h

/-- A fold whose every step keeps the predicate. -/
theorem keeps_foldl {P : State → Prop} {β : Type} {f : State → β → State} {l : List β} {s : State}
    (hf : ∀ t x, P t → P (f t x)) (h : P s) : P (l.foldl f s) := by
  induction l generalizing s with
  | nil => exact h
  | cons b l ih => exact ih (hf _ _ h)

/-- A fold over a state and a value. -/
theorem keeps_foldl1 {P : State → Prop} {β γ : Type} {f : State × γ → β → State × γ} {l : List β} {s : State × γ}
    (hf : ∀ t x, P t.1 → P (f t x).1) (h : P s.1) : P (l.foldl f s).1 := by
  induction l generalizing s with
  | nil => exact h
  | cons b l ih => exact ih (hf _ _ h)

/-- A fold over a state and two values. -/
theorem keeps_foldl11 {P : State → Prop} {β γ δ : Type} {f : (State × γ) × δ → β → (State × γ) × δ} {l : List β}
    {s : (State × γ) × δ} (hf : ∀ t x, P t.1.1 → P (f t x).1.1) (h : P s.1.1) : P (l.foldl f s).1.1 := by
  induction l generalizing s with
  | nil => exact h
  | cons b l ih => exact ih (hf _ _ h)

/-- What a command answers. -/
theorem keeps_ok {P : State → Prop} (hq : KeepsQueue P) {b : Bool} {s x t : State} (e : ok b s x = .next t) (h : P x) : P t := by
  unfold ok at e
  split at e
  · simp only [Host.Outcome.next.injEq] at e
    rw [← e]; exact hq _ _ h
  · simp at e

/-- A choice that gives a value gives it from its first side. -/
theorem keeps_some {α : Type} {c : Prop} [Decidable c] {x : Option α} {y : α} (e : (if c then x else none) = some y) : x = some y := by
  split at e
  · exact e
  · simp at e

theorem State.withTime_keeps {P : State → Prop} (hP : Opened [.clock] P) (s : State) (v : Nat) (oks : P s) : P
    (s.withTime v) :=
  (hP .clock (by decide)).1 s v oks

theorem State.withCalendar_keeps {P : State → Prop} (hP : Opened [.clock] P) (s : State) (v : Nat) (oks : P s) : P
    (s.withCalendar v) :=
  (hP .clock (by decide)).2.1 s v oks

theorem State.withCalPhase_keeps {P : State → Prop} (hP : Opened [.clock] P) (s : State) (v : Nat) (oks : P s) : P
    (s.withCalPhase v) :=
  (hP .clock (by decide)).2.2 s v oks

theorem State.withSlew_keeps {P : State → Prop} (hP : Opened [.power] P) (s : State) (v : Int) (oks : P s) : P
    (s.withSlew v) :=
  (hP .power (by decide)).2.1 s v oks

theorem State.withStepped_keeps {P : State → Prop} (hP : Opened [.power] P) (s : State) (v : Bool) (oks : P s) : P
    (s.withStepped v) :=
  (hP .power (by decide)).2.2 s v oks

theorem State.withDeckEver_keeps {P : State → Prop} (hP : Opened [.decks] P) (s : State) (v : Bool) (oks : P s) : P
    (s.withDeckEver v) :=
  (hP .decks (by decide)).2.2.1 s v oks

theorem State.withFree_keeps {P : State → Prop} (hP : Opened [.draws] P) (s : State) (v : Nat) (oks : P s) : P
    (s.withFree v) :=
  (hP .draws (by decide)) s v oks

theorem State.withRegs_keeps {P : State → Prop} (hP : Opened [.registers] P) (s : State) (v : Tbl Nat) (oks : P s) : P
    (s.withRegs v) :=
  (hP .registers (by decide)).1 s v oks

theorem State.withHalfW_keeps {P : State → Prop} (hP : Opened [.registers] P) (s : State) (v : Tbl (Nat × Nat)) (oks :
    P s) : P (s.withHalfW v) :=
  (hP .registers (by decide)).2.1 s v oks

theorem State.withHalfR_keeps {P : State → Prop} (hP : Opened [.registers] P) (s : State) (v : Tbl (Nat × Nat)) (oks :
    P s) : P (s.withHalfR v) :=
  (hP .registers (by decide)).2.2 s v oks

theorem State.withSealWide_keeps {P : State → Prop} (hP : Opened [.pages] P) (s : State) (v : Bool) (oks : P s) : P
    (s.withSealWide v) :=
  (hP .pages (by decide)).2.2.2.1 s v oks

theorem State.withSealParts_keeps {P : State → Prop} (hP : Opened [.pages] P) (s : State) (v : Nat) (oks : P s) : P
    (s.withSealParts v) :=
  (hP .pages (by decide)).2.2.2.2 s v oks

theorem State.withProt_keeps {P : State → Prop} (hP : Opened [.controllers] P) (s : State) (v : Tbl ProtEnt) (oks : P
    s) : P (s.withProt v) :=
  (hP .controllers (by decide)).1 s v oks

theorem State.withRsp_keeps {P : State → Prop} (hP : Opened [.answers] P) (s : State) (v : Resp) (oks : P s) : P
    (s.withRsp v) :=
  (hP .answers (by decide)) s v oks

theorem State.withErrQ_keeps {P : State → Prop} (hP : Opened [.records] P) (s : State) (v : Tbl ErrRec) (oks : P s) :
    P (s.withErrQ v) :=
  (hP .records (by decide)).1 s v oks

theorem State.withRecCount_keeps {P : State → Prop} (hP : Opened [.records] P) (s : State) (v : Tbl Nat) (oks : P s) :
    P (s.withRecCount v) :=
  (hP .records (by decide)).2.1 s v oks

theorem State.withVfQ_keeps {P : State → Prop} (hP : Opened [.records] P) (s : State) (v : Tbl ErrRec) (oks : P s) : P
    (s.withVfQ v) :=
  (hP .records (by decide)).2.2 s v oks

theorem State.withCeSince_keeps {P : State → Prop} (hP : Opened [.controllers] P) (s : State) (v : Tbl Nat) (oks : P
    s) : P (s.withCeSince v) :=
  (hP .controllers (by decide)).2.2.1 s v oks

theorem State.withTicks_keeps {P : State → Prop} (hP : Opened [.controllers] P) (s : State) (v : Tbl Nat) (oks : P s)
    : P (s.withTicks v) :=
  (hP .controllers (by decide)).2.2.2 s v oks

theorem State.withWbq_keeps {P : State → Prop} (hP : Opened [.memory] P) (s : State) (v : List Nat) (oks : P s) : P
    (s.withWbq v) :=
  (hP .memory (by decide)).1 s v oks

theorem State.withMerge_keeps {P : State → Prop} (hP : Opened [.memory] P) (s : State) (v : List MergeEnt) (oks : P s)
    : P (s.withMerge v) :=
  (hP .memory (by decide)).2.2.2.2.2.2 s v oks

theorem State.withScrub_keeps {P : State → Prop} (hP : Opened [.controllers] P) (s : State) (v : Tbl Nat) (oks : P s)
    : P (s.withScrub v) :=
  (hP .controllers (by decide)).2.1 s v oks

theorem State.withHalted_keeps {P : State → Prop} (hP : Opened [.boot] P) (s : State) (v : Bool) (oks : P s) : P
    (s.withHalted v) :=
  (hP .boot (by decide)).2.2.2.2 s v oks

theorem State.withMsix_keeps {P : State → Prop} (hP : Opened [.vectors] P) (s : State) (v : Tbl Msix) (oks : P s) : P
    (s.withMsix v) :=
  (hP .vectors (by decide)) s v oks

theorem State.withHostReads_keeps {P : State → Prop} (hP : Opened [.host] P) (s : State) (v : List HostRead) (oks : P
    s) : P (s.withHostReads v) :=
  (hP .host (by decide)).1 s v oks

theorem State.withHostTag_keeps {P : State → Prop} (hP : Opened [.host] P) (s : State) (v : Nat) (oks : P s) : P
    (s.withHostTag v) :=
  (hP .host (by decide)).2 s v oks

theorem State.withTiles_keeps {P : State → Prop} (hP : Opened [.tiles] P) (s : State) (v : Tbl Tile) (oks : P s) : P
    (s.withTiles v) :=
  (hP .tiles (by decide)).1 s v oks

theorem State.withArrs_keeps {P : State → Prop} (hP : Opened [.tiles] P) (s : State) (v : Tbl Arr) (oks : P s) : P
    (s.withArrs v) :=
  (hP .tiles (by decide)).2.1 s v oks

theorem State.withThrs_keeps {P : State → Prop} (hP : Opened [.tiles] P) (s : State) (v : Tbl Thr) (oks : P s) : P
    (s.withThrs v) :=
  (hP .tiles (by decide)).2.2.1 s v oks

theorem State.withJobs_keeps {P : State → Prop} (hP : Opened [.tiles] P) (s : State) (v : Tbl (Option Job)) (oks : P
    s) : P (s.withJobs v) :=
  (hP .tiles (by decide)).2.2.2.1 s v oks

theorem State.withTags_keeps {P : State → Prop} (hP : Opened [.tiles] P) (s : State) (v : Tbl Tag) (oks : P s) : P
    (s.withTags v) :=
  (hP .tiles (by decide)).2.2.2.2.1 s v oks

theorem State.withTileSems_keeps {P : State → Prop} (hP : Opened [.tiles] P) (s : State) (v : Tbl Nat) (oks : P s) : P
    (s.withTileSems v) :=
  (hP .tiles (by decide)).2.2.2.2.2 s v oks

theorem State.withSems_keeps {P : State → Prop} (hP : Opened [.parts] P) (s : State) (v : Tbl Nat) (oks : P s) : P
    (s.withSems v) :=
  (hP .parts (by decide)).2.1 s v oks

theorem State.withEvts_keeps {P : State → Prop} (hP : Opened [.parts] P) (s : State) (v : Tbl Nat) (oks : P s) : P
    (s.withEvts v) :=
  (hP .parts (by decide)).2.2 s v oks

theorem State.withDecks_keeps {P : State → Prop} (hP : Opened [.decks] P) (s : State) (v : Tbl Deck) (oks : P s) : P
    (s.withDecks v) :=
  (hP .decks (by decide)).1 s v oks

theorem State.withStartNo_keeps {P : State → Prop} (hP : Opened [.decks] P) (s : State) (v : Nat) (oks : P s) : P
    (s.withStartNo v) :=
  (hP .decks (by decide)).2.2.2.1 s v oks

theorem State.withSuspNo_keeps {P : State → Prop} (hP : Opened [.decks] P) (s : State) (v : Nat) (oks : P s) : P
    (s.withSuspNo v) :=
  (hP .decks (by decide)).2.2.2.2 s v oks

theorem State.withPinHeld_keeps {P : State → Prop} (hP : Opened [.pages] P) (s : State) (v : List (Nat × Nat)) (oks :
    P s) : P (s.withPinHeld v) :=
  (hP .pages (by decide)).1 s v oks

theorem State.withDropLater_keeps {P : State → Prop} (hP : Opened [.pages] P) (s : State) (v : List (Nat × Nat × Nat ×
    Nat × Nat)) (oks : P s) : P (s.withDropLater v) :=
  (hP .pages (by decide)).2.1 s v oks

theorem State.withAllocAt_keeps {P : State → Prop} (hP : Opened [.pages] P) (s : State) (v : Tbl Nat) (oks : P s) : P
    (s.withAllocAt v) :=
  (hP .pages (by decide)).2.2.1 s v oks

theorem State.withChans_keeps {P : State → Prop} (hP : Opened [.thapel] P) (s : State) (v : Tbl Chan) (oks : P s) : P
    (s.withChans v) :=
  (hP .thapel (by decide)).1 s v oks

theorem State.withThapWait_keeps {P : State → Prop} (hP : Opened [.thapel] P) (s : State) (v : List Step) (oks : P s)
    : P (s.withThapWait v) :=
  (hP .thapel (by decide)).2.1 s v oks

theorem State.withStepNo_keeps {P : State → Prop} (hP : Opened [.thapel] P) (s : State) (v : Nat) (oks : P s) : P
    (s.withStepNo v) :=
  (hP .thapel (by decide)).2.2.2 s v oks

theorem State.withAttn_keeps {P : State → Prop} (hP : Opened [.thapel] P) (s : State) (v : Tbl (List AttnPart)) (oks :
    P s) : P (s.withAttn v) :=
  (hP .thapel (by decide)).2.2.1 s v oks

theorem State.withMons_keeps {P : State → Prop} (hP : Opened [.regulation] P) (s : State) (v : Tbl (List Nat)) (oks :
    P s) : P (s.withMons v) :=
  (hP .regulation (by decide)).2.1 s v oks

theorem State.withMargin_keeps {P : State → Prop} (hP : Opened [.regulation] P) (s : State) (v : Tbl Nat) (oks : P s)
    : P (s.withMargin v) :=
  (hP .regulation (by decide)).2.2 s v oks

theorem State.withProbes_keeps {P : State → Prop} (hP : Opened [.links] P) (s : State) (v : List ProbeSt) (oks : P s)
    : P (s.withProbes v) :=
  (hP .links (by decide)).2.1 s v oks

theorem State.withCruiseAt_keeps {P : State → Prop} (hP : Opened [.links] P) (s : State) (v : Option Nat) (oks : P s)
    : P (s.withCruiseAt v) :=
  (hP .links (by decide)).2.2.1 s v oks

theorem State.withRouteImage_keeps {P : State → Prop} (hP : Opened [.links] P) (s : State) (v : Tbl Nat) (oks : P s) :
    P (s.withRouteImage v) :=
  (hP .links (by decide)).2.2.2.1 s v oks

theorem State.withInbox_keeps {P : State → Prop} (hP : Opened [.links] P) (s : State) (v : List Msg) (oks : P s) : P
    (s.withInbox v) :=
  (hP .links (by decide)).2.2.2.2 s v oks

theorem State.withSendCtx_keeps {P : State → Prop} (hP : Opened [.streams] P) (s : State) (v : Tbl SendCtx) (oks : P
    s) : P (s.withSendCtx v) :=
  (hP .streams (by decide)).1 s v oks

theorem State.withRecvCtx_keeps {P : State → Prop} (hP : Opened [.streams] P) (s : State) (v : Tbl RecvCtx) (oks : P
    s) : P (s.withRecvCtx v) :=
  (hP .streams (by decide)).2.1 s v oks

theorem State.withStreamNo_keeps {P : State → Prop} (hP : Opened [.streams] P) (s : State) (v : Nat) (oks : P s) : P
    (s.withStreamNo v) :=
  (hP .streams (by decide)).2.2.1 s v oks

theorem State.withSyncAt_keeps {P : State → Prop} (hP : Opened [.streams] P) (s : State) (v : Nat) (oks : P s) : P
    (s.withSyncAt v) :=
  (hP .streams (by decide)).2.2.2 s v oks

theorem State.withTree_keeps {P : State → Prop} (hP : Opened [.tree] P) (s : State) (v : Tree) (oks : P s) : P
    (s.withTree v) :=
  (hP .tree (by decide)) s v oks

theorem State.withImg_keeps {P : State → Prop} (hP : Opened [.boot] P) (s : State) (v : Img) (oks : P s) : P
    (s.withImg v) :=
  (hP .boot (by decide)).1 s v oks

theorem State.withFuses_keeps {P : State → Prop} (hP : Opened [.boot] P) (s : State) (v : Fuses) (oks : P s) : P
    (s.withFuses v) :=
  (hP .boot (by decide)).2.1 s v oks

theorem State.withBoot_keeps {P : State → Prop} (hP : Opened [.boot] P) (s : State) (v : Boot) (oks : P s) : P
    (s.withBoot v) :=
  (hP .boot (by decide)).2.2.1 s v oks

theorem State.withOwner_keeps {P : State → Prop} (hP : Opened [.boot] P) (s : State) (v : Tbl Nat) (oks : P s) : P
    (s.withOwner v) :=
  (hP .boot (by decide)).2.2.2.1 s v oks

theorem State.withPower_keeps {P : State → Prop} (hP : Opened [.power] P) (s : State) (v : Power) (oks : P s) : P
    (s.withPower v) :=
  (hP .power (by decide)).1 s v oks

theorem State.withPkg_keeps {P : State → Prop} (hP : Opened [.package] P) (s : State) (v : Pkg) (oks : P s) : P
    (s.withPkg v) :=
  (hP .package (by decide)) s v oks

theorem State.withMgmt_keeps {P : State → Prop} (hP : Opened [.management] P) (s : State) (v : Mgmt) (oks : P s) : P
    (s.withMgmt v) :=
  (hP .management (by decide)) s v oks

theorem State.fset_keeps {P : State → Prop} (hP : Opened [.registers] P) (s : State) (f : Field) (u i v : Nat) (oks :
    P s) : P (State.fset s f u i v) := by
  exact State.withRegs_keeps hP s _ oks

theorem State.fsetAt_keeps {P : State → Prop} (hP : Opened [.registers] P) (s : State) (f : Field) (u i sh v : Nat)
    (oks : P s) : P (State.fsetAt s f u i sh v) := by
  exact State.withRegs_keeps hP s _ oks

theorem State.fcount_keeps {P : State → Prop} (hP : Opened [.registers] P) (s : State) (f : Field) (u i : Nat) (oks :
    P s) : P (State.fcount s f u i) := by
  unfold State.fcount
  try dsimp only
  repeat' first
    | with_reducible assumption | (intro _; try dsimp only) | with_reducible apply keeps_ite
    | with_reducible apply State.fset_keeps hP | with_reducible exact keeps_pair (by assumption) (by assumption)
    | (split <;> try dsimp only)

theorem State.fcountN_keeps {P : State → Prop} (hP : Opened [.registers] P) (s : State) (f : Field) (u i n : Nat) (oks
    : P s) : P (State.fcountN s f u i n) := by
  unfold State.fcountN
  try dsimp only
  repeat' first
    | with_reducible assumption | (intro _; try dsimp only) | with_reducible apply keeps_ite
    | with_reducible apply State.fset_keeps hP | with_reducible exact keeps_pair (by assumption) (by assumption)
    | (split <;> try dsimp only)

theorem State.fwrap_keeps {P : State → Prop} (hP : Opened [.registers] P) (s : State) (f : Field) (u i : Nat) (oks : P
    s) : P (State.fwrap s f u i) := by
  unfold State.fwrap
  try dsimp only
  repeat' first
    | with_reducible assumption | (intro _; try dsimp only) | with_reducible apply keeps_ite
    | with_reducible apply State.fset_keeps hP | with_reducible exact keeps_pair (by assumption) (by assumption)
    | (split <;> try dsimp only)

theorem State.fbitSet_keeps {P : State → Prop} (hP : Opened [.registers] P) (s : State) (f : Field) (u i n : Nat) (b :
    Bool) (oks : P s) : P (State.fbitSet s f u i n b) := by
  unfold State.fbitSet
  try dsimp only
  repeat' first
    | with_reducible assumption | (intro _; try dsimp only) | with_reducible apply keeps_ite
    | with_reducible apply State.fset_keeps hP | with_reducible exact keeps_pair (by assumption) (by assumption)
    | (split <;> try dsimp only)

theorem State.ticked_keeps {P : State → Prop} (hP : Opened [.controllers] P) (s : State) (k : Nat) (oks : P s) : P
    (State.ticked s k) := by
  unfold State.ticked
  try dsimp only
  repeat' first
    | with_reducible assumption | (intro _; try dsimp only) | with_reducible apply keeps_ite
    | with_reducible apply State.withTicks_keeps hP | with_reducible exact keeps_pair (by assumption) (by assumption)
    | (split <;> try dsimp only)

theorem State.setPartStatus_keeps {P : State → Prop} (hP : Opened [.registers] P) (s : State) (p v : Nat) (oks : P s)
    : P (State.setPartStatus s p v) := by
  unfold State.setPartStatus
  try dsimp only
  repeat' first
    | with_reducible assumption | (intro _; try dsimp only) | with_reducible apply keeps_ite
    | with_reducible apply State.fsetAt_keeps hP | with_reducible exact keeps_pair (by assumption) (by assumption)
    | (split <;> try dsimp only)

theorem State.onPart_keeps {P : State → Prop} (hP : Opened [.parts] P) (s : State) (p : Nat) (f : Part → Part) (oks :
    P s) : P (State.onPart s p f) := by
  exact (hP .parts (by decide)).1 s p f oks

theorem State.raise1_keeps {P : State → Prop} (hP : Opened [.vectors] P) (s : State) (port fn vec : Nat) (oks : P s) :
    P (State.raise1 s port fn vec) := by
  exact State.withMsix_keeps hP s _ oks

theorem State.raise2_keeps {P : State → Prop} (hP : Opened [.vectors] P) (s : State) (fn vec : Nat) (oks : P s) : P
    (State.raise2 s fn vec) := by
  unfold State.raise2
  try dsimp only
  repeat' first
    | with_reducible assumption | (intro _; try dsimp only) | with_reducible apply keeps_ite
    | with_reducible apply State.raise1_keeps hP | with_reducible exact keeps_pair (by assumption) (by assumption)
    | (split <;> try dsimp only)

theorem State.evt_keeps {P : State → Prop} (hP : Opened [.registers, .vectors] P) (s : State) (f : Field) (u i mask :
    Nat) (p : Option Nat) (oks : P s) : P (State.evt s f u i mask p) := by
  have h1 : Opened [.registers] P := hP.mono (by decide)
  have h2 : Opened [.vectors] P := hP.mono (by decide)
  unfold State.evt
  try dsimp only
  repeat' first
    | with_reducible assumption | (intro _; try dsimp only) | with_reducible apply keeps_ite
    | with_reducible apply State.fset_keeps h1 | with_reducible apply State.raise2_keeps h2
    | with_reducible exact keeps_pair (by assumption) (by assumption) | (split <;> try dsimp only)

theorem State.vfCopy_keeps {P : State → Prop} (hP : Opened [.registers, .vectors, .records] P) (s : State) (h p : Nat)
    (r : ErrRec) (oks : P s) : P (State.vfCopy s h p r) := by
  have h1 : Opened [.registers] P := hP.mono (by decide)
  have h2 : Opened [.vectors] P := hP.mono (by decide)
  have h3 : Opened [.records] P := hP.mono (by decide)
  unfold State.vfCopy
  try dsimp only
  repeat' first
    | with_reducible assumption | (intro _; try dsimp only) | with_reducible apply keeps_ite
    | with_reducible apply State.fcount_keeps h1 | with_reducible apply State.fwrap_keeps h1
    | with_reducible apply State.raise2_keeps h2 | with_reducible apply State.withVfQ_keeps h3
    | with_reducible exact keeps_pair (by assumption) (by assumption) | (split <;> try dsimp only)

theorem State.sevEvents_keeps {P : State → Prop} (hP : Opened [.registers, .vectors] P) (s : State) (h : Nat) (r :
    ErrRec) (oks : P s) : P (State.sevEvents s h r) := by
  unfold State.sevEvents
  try dsimp only
  repeat' first
    | with_reducible assumption | (intro _; try dsimp only) | with_reducible apply keeps_ite
    | with_reducible apply State.evt_keeps hP | with_reducible exact keeps_pair (by assumption) (by assumption)
    | (split <;> try dsimp only)

theorem State.recordFeed_keeps {P : State → Prop} (hP : Opened [.management] P) (s : State) (r : ErrRec) (oks : P s) :
    P (State.recordFeed s r) := by
  unfold State.recordFeed
  try dsimp only
  repeat' first
    | with_reducible assumption | (intro _; try dsimp only) | with_reducible apply keeps_ite
    | with_reducible apply State.withMgmt_keeps hP | with_reducible exact keeps_pair (by assumption) (by assumption)
    | (split <;> try dsimp only)

theorem State.recordQueue_keeps {P : State → Prop} (hP : Opened [.registers, .vectors, .records] P) (s : State) (h :
    Nat) (r : ErrRec) (oks : P s) : P (State.recordQueue s h r) := by
  have h1 : Opened [.registers, .vectors] P := hP.mono (by decide)
  have h2 : Opened [.registers] P := hP.mono (by decide)
  have h3 : Opened [.records] P := hP.mono (by decide)
  unfold State.recordQueue
  try dsimp only
  repeat' first
    | with_reducible assumption | (intro _; try dsimp only) | with_reducible apply keeps_ite
    | with_reducible apply State.evt_keeps h1 | with_reducible apply State.fcount_keeps h2
    | with_reducible apply State.fwrap_keeps h2 | with_reducible apply State.withErrQ_keeps h3
    | with_reducible apply State.withRecCount_keeps h3
    | with_reducible exact keeps_pair (by assumption) (by assumption) | (split <;> try dsimp only)

theorem State.record_keeps {P : State → Prop} (hP : Opened [.registers, .vectors, .records, .management] P) (s :
    State) (h : Nat) (r0 : ErrRec) (oks : P s) : P (State.record s h r0) := by
  have h1 : Opened [.management] P := hP.mono (by decide)
  have h2 : Opened [.registers, .vectors, .records] P := hP.mono (by decide)
  have h3 : Opened [.registers, .vectors] P := hP.mono (by decide)
  unfold State.record
  try dsimp only
  repeat' first
    | with_reducible assumption | (intro _; try dsimp only) | with_reducible apply keeps_ite
    | with_reducible apply State.recordFeed_keeps h1 | with_reducible apply State.recordQueue_keeps h2
    | with_reducible apply State.sevEvents_keeps h3 | with_reducible apply State.vfCopy_keeps h2
    | with_reducible exact keeps_pair (by assumption) (by assumption) | (split <;> try dsimp only)

theorem State.poke_keeps {P : State → Prop} (hP : Opened [.memory] P) (s : State) (k : Nat) (bs : List Byte) (oks : P
    s) : P (s.poke k bs) := by
  exact (hP .memory (by decide)).2.1 s k bs oks

theorem State.setDelta_keeps {P : State → Prop} (hP : Opened [.memory] P) (s : State) (k d : Nat) (oks : P s) : P
    (s.setDelta k d) := by
  exact (hP .memory (by decide)).2.2.1 s k d oks

theorem State.refusalOf_keeps {P : State → Prop} (hP : Opened [.registers, .vectors] P) (s : State) (p : Option Nat)
    (r : Right) (src a : Nat) (oks : P s) : P (State.refusalOf s p r src a) := by
  have h1 : Opened [.registers] P := hP.mono (by decide)
  unfold State.refusalOf
  try dsimp only
  repeat' first
    | with_reducible assumption | (intro _; try dsimp only) | with_reducible apply keeps_ite
    | with_reducible apply State.evt_keeps hP | with_reducible apply State.fset_keeps h1
    | with_reducible exact keeps_pair (by assumption) (by assumption) | (split <;> try dsimp only)

theorem State.refusal_keeps {P : State → Prop} (hP : Opened [.registers, .vectors] P) (s : State) (p : Nat) (r :
    Right) (src a : Nat) (oks : P s) : P (State.refusal s p r src a) := by
  unfold State.refusal
  try dsimp only
  repeat' first
    | with_reducible assumption | (intro _; try dsimp only) | with_reducible apply keeps_ite
    | with_reducible apply State.refusalOf_keeps hP | with_reducible exact keeps_pair (by assumption) (by assumption)
    | (split <;> try dsimp only)

theorem State.windowMiss_keeps {P : State → Prop} (hP : Opened [.registers, .vectors] P) (s : State) (h p : Nat) (r :
    Right) (src a : Nat) (oks : P s) : P (State.windowMiss s h p r src a) := by
  unfold State.windowMiss
  try dsimp only
  repeat' first
    | with_reducible assumption | (intro _; try dsimp only) | with_reducible apply keeps_ite
    | with_reducible apply State.evt_keeps hP | with_reducible apply State.refusal_keeps hP
    | with_reducible exact keeps_pair (by assumption) (by assumption) | (split <;> try dsimp only)

theorem State.answer_keeps {P : State → Prop} (hP : Opened [.answers] P) (s : State) (k : RespKind) (d : List Byte)
    (oks : P s) : P (State.answer s k d) := by
  exact State.withRsp_keeps hP s _ oks

theorem State.draw_keeps {P : State → Prop} (hP : Opened [.draws] P) (s : State) (oks : P s) : P (State.draw s) := by
  exact State.withFree_keeps hP s _ oks

theorem State.abandonEntry_keeps {P : State → Prop} (hP : Opened [.registers, .power] P) (s : State) (oks : P s) : P
    (State.abandonEntry s) := by
  have h1 : Opened [.registers] P := hP.mono (by decide)
  have h2 : Opened [.power] P := hP.mono (by decide)
  unfold State.abandonEntry
  try dsimp only
  repeat' first
    | with_reducible assumption | (intro _; try dsimp only) | with_reducible apply keeps_ite
    | with_reducible apply State.fset_keeps h1 | with_reducible apply State.withPower_keeps h2
    | with_reducible exact keeps_pair (by assumption) (by assumption) | (split <;> try dsimp only)

theorem State.flagIf_keeps {P : State → Prop} (hP : Opened [.registers] P) (s : State) (f : Field) (j : Nat) (b :
    Bool) (oks : P s) : P (State.flagIf s f j b) := by
  unfold State.flagIf
  try dsimp only
  repeat' first
    | with_reducible assumption | (intro _; try dsimp only) | with_reducible apply keeps_ite
    | with_reducible apply State.fset_keeps hP | with_reducible exact keeps_pair (by assumption) (by assumption)
    | (split <;> try dsimp only)

theorem State.numEv_keeps {P : State → Prop} (hP : Opened [.registers] P) (s : State) (j : Nat) (e : NumEv) (oks : P
    s) : P (State.numEv s j e) := by
  unfold State.numEv
  try dsimp only
  repeat' first
    | with_reducible assumption | (intro _; try dsimp only) | with_reducible apply keeps_ite
    | with_reducible apply State.fcountN_keeps hP | with_reducible apply State.flagIf_keeps hP
    | with_reducible exact keeps_pair (by assumption) (by assumption) | (split <;> try dsimp only)

theorem State.tallyAdd_keeps {P : State → Prop} (hP : Opened [.registers, .vectors, .controllers, .records,
    .management] P) (s : State) (h n : Nat) (r : ErrRec) (oks : P s) : P (State.tallyAdd s h n r) := by
  have h1 : Opened [.registers, .vectors] P := hP.mono (by decide)
  have h2 : Opened [.registers] P := hP.mono (by decide)
  have h3 : Opened [.registers, .vectors, .records, .management] P := hP.mono (by decide)
  have h4 : Opened [.controllers] P := hP.mono (by decide)
  unfold State.tallyAdd
  try dsimp only
  repeat' first
    | with_reducible assumption | (intro _; try dsimp only) | with_reducible apply keeps_ite
    | with_reducible apply State.evt_keeps h1 | with_reducible apply State.fcount_keeps h2
    | with_reducible apply State.fsetAt_keeps h2 | with_reducible apply State.record_keeps h3
    | with_reducible apply State.withCeSince_keeps h4 | with_reducible exact keeps_pair (by assumption) (by assumption)
    | (split <;> try dsimp only)

theorem State.tallyWord_keeps {P : State → Prop} (hP : Opened [.registers, .vectors, .controllers, .records,
    .management] P) (s : State) (w src : Nat) (p : Option Nat) (oks : P s) : P (State.tallyWord s w src p) := by
  unfold State.tallyWord
  try dsimp only
  repeat' first
    | with_reducible assumption | (intro _; try dsimp only) | with_reducible apply keeps_ite
    | with_reducible apply State.tallyAdd_keeps hP | with_reducible exact keeps_pair (by assumption) (by assumption)
    | (split <;> try dsimp only)

theorem State.tallyOnce_keeps {P : State → Prop} (hP : Opened [.registers, .vectors, .controllers, .records,
    .management] P) (s : State) (w src : Nat) (p : Option Nat) (oks : P s) : P (State.tallyOnce s w src p) := by
  unfold State.tallyOnce
  try dsimp only
  repeat' first
    | with_reducible assumption | (intro _; try dsimp only) | with_reducible apply keeps_ite
    | with_reducible apply State.tallyWord_keeps hP | with_reducible exact keeps_pair (by assumption) (by assumption)
    | (split <;> try dsimp only)

theorem State.storeClean_keeps {P : State → Prop} (hP : Opened [.memory] P) (s : State) (w : Nat) (bs : List Byte)
    (oks : P s) : P (State.storeClean s w bs) := by
  unfold State.storeClean
  try dsimp only
  repeat' first
    | with_reducible assumption | (intro _; try dsimp only) | with_reducible apply keeps_ite
    | with_reducible apply State.poke_keeps hP | with_reducible apply State.setDelta_keeps hP
    | with_reducible apply State.withWbq_keeps hP | with_reducible exact keeps_pair (by assumption) (by assumption)
    | (split <;> try dsimp only)

theorem State.storePoison_keeps {P : State → Prop} (hP : Opened [.memory] P) (s : State) (w : Nat) (bs : List Byte)
    (oks : P s) : P (State.storePoison s w bs) := by
  unfold State.storePoison
  try dsimp only
  repeat' first
    | with_reducible assumption | (intro _; try dsimp only) | with_reducible apply keeps_ite
    | with_reducible apply State.poke_keeps hP | with_reducible apply State.setDelta_keeps hP
    | with_reducible apply State.withWbq_keeps hP | with_reducible exact keeps_pair (by assumption) (by assumption)
    | (split <;> try dsimp only)

theorem State.markPoison_keeps {P : State → Prop} (hP : Opened [.memory] P) (s : State) (w : Nat) (oks : P s) : P
    (State.markPoison s w) := by
  unfold State.markPoison
  try dsimp only
  repeat' first
    | with_reducible assumption | (intro _; try dsimp only) | with_reducible apply keeps_ite
    | with_reducible apply State.setDelta_keeps hP | with_reducible apply State.withWbq_keeps hP
    | with_reducible exact keeps_pair (by assumption) (by assumption) | (split <;> try dsimp only)

theorem State.supersede_keeps {P : State → Prop} (hP : Opened [.memory] P) (s : State) (k n : Nat) (oks : P s) : P
    (State.supersede s k n) := by
  unfold State.supersede
  try dsimp only
  repeat' first
    | with_reducible assumption | (intro _; try dsimp only) | with_reducible apply keeps_ite
    | with_reducible apply State.withMerge_keeps hP | with_reducible exact keeps_pair (by assumption) (by assumption)
    | (split <;> try dsimp only)

theorem State.storeWord_keeps {P : State → Prop} (hP : Opened [.registers, .vectors, .memory, .controllers, .records,
    .management] P) (s0 : State) (w off : Nat) (bs : List Byte) (poisoned : Bool) (oks0 : P s0) : P (State.storeWord
    s0 w off bs poisoned) := by
  have h1 : Opened [.memory] P := hP.mono (by decide)
  have h2 : Opened [.registers, .vectors, .controllers, .records, .management] P := hP.mono (by decide)
  unfold State.storeWord
  try dsimp only
  repeat' first
    | with_reducible assumption | (intro _; try dsimp only) | with_reducible apply keeps_ite
    | with_reducible apply State.poke_keeps h1 | with_reducible apply State.storeClean_keeps h1
    | with_reducible apply State.storePoison_keeps h1 | with_reducible apply State.supersede_keeps h1
    | with_reducible apply State.tallyOnce_keeps h2 | with_reducible exact keeps_pair (by assumption) (by assumption)
    | (split <;> try dsimp only)

theorem State.store_keeps {P : State → Prop} (hP : Opened [.registers, .vectors, .memory, .controllers, .records,
    .management] P) (s : State) (k : Nat) (bs : List Byte) (poisoned : Bool) (oks : P s) : P (State.store s k bs
    poisoned) := by
  unfold State.store
  try dsimp only
  repeat' first
    | with_reducible assumption | (intro _; try dsimp only) | with_reducible apply keeps_ite
    | with_reducible apply State.storeWord_keeps hP | with_reducible apply keeps_foldl
    | with_reducible apply keeps_foldl1 | with_reducible apply keeps_foldl11
    | with_reducible exact keeps_pair (by assumption) (by assumption) | (split <;> try dsimp only)

theorem State.storeMarks_keeps {P : State → Prop} (hP : Opened [.registers, .vectors, .memory, .controllers, .records,
    .management] P) (s : State) (k : Nat) (bs : List Byte) (bad : Nat) (oks : P s) : P (State.storeMarks s k bs bad)
    := by
  unfold State.storeMarks
  try dsimp only
  repeat' first
    | with_reducible assumption | (intro _; try dsimp only) | with_reducible apply keeps_ite
    | with_reducible apply State.storeWord_keeps hP | with_reducible apply keeps_foldl
    | with_reducible apply keeps_foldl1 | with_reducible apply keeps_foldl11
    | with_reducible exact keeps_pair (by assumption) (by assumption) | (split <;> try dsimp only)

theorem State.move_keeps {P : State → Prop} (hP : Opened [.registers, .vectors, .memory, .controllers, .records,
    .management] P) (s : State) (dst src n : Nat) (oks : P s) : P (State.move s dst src n) := by
  unfold State.move
  try dsimp only
  repeat' first
    | with_reducible assumption | (intro _; try dsimp only) | with_reducible apply keeps_ite
    | with_reducible apply State.storeMarks_keeps hP | with_reducible exact keeps_pair (by assumption) (by assumption)
    | (split <;> try dsimp only)

theorem State.zero_keeps {P : State → Prop} (hP : Opened [.memory] P) (s : State) (k n : Nat) (oks : P s) : P (s.zero
    k n) := by
  exact (hP .memory (by decide)).2.2.2.1 s k n oks

theorem State.putElems_keeps {P : State → Prop} (hP : Opened [.registers, .vectors, .memory, .controllers, .records,
    .management] P) (s : State) (j : Nat) (sl : Slot) (r c0 : Nat) (p : Packed) (oks : P s) : P (State.putElems s j sl
    r c0 p) := by
  unfold State.putElems
  try dsimp only
  repeat' first
    | with_reducible assumption | (intro _; try dsimp only) | with_reducible apply keeps_ite
    | with_reducible apply State.store_keeps hP | with_reducible exact keeps_pair (by assumption) (by assumption)
    | (split <;> try dsimp only)

theorem State.putF32_keeps {P : State → Prop} (hP : Opened [.registers, .vectors, .memory, .controllers, .records,
    .management] P) (s : State) (j : Nat) (sl : Slot) (r c0 : Nat) (vs : List Nat) (oks : P s) : P (State.putF32 s j
    sl r c0 vs).1 := by
  unfold State.putF32
  try dsimp only
  repeat' first
    | with_reducible assumption | (intro _; try dsimp only) | with_reducible apply keeps_ite1
    | with_reducible apply keeps_ite | with_reducible apply State.putElems_keeps hP
    | with_reducible exact keeps_pair (by assumption) (by assumption) | (split <;> try dsimp only)

theorem State.putRows_keeps {P : State → Prop} (hP : Opened [.registers, .vectors, .memory, .controllers, .records,
    .management] P) (s : State) (j : Nat) (sl : Slot) (r0 : Nat) (rows : List (List Nat)) (oks : P s) : P
    (State.putRows s j sl r0 rows).1 := by
  unfold State.putRows
  try dsimp only
  repeat' first
    | with_reducible assumption | (intro _; try dsimp only) | with_reducible apply keeps_ite1
    | with_reducible apply keeps_ite | with_reducible apply State.putF32_keeps hP | with_reducible apply keeps_foldl
    | with_reducible apply keeps_foldl1 | with_reducible apply keeps_foldl11
    | with_reducible exact keeps_pair (by assumption) (by assumption)
    | (refine keeps_pair (by assumption) ?_; with_reducible apply State.putF32_keeps hP) | (split <;> try dsimp only)

theorem State.putFlat_keeps {P : State → Prop} (hP : Opened [.registers, .vectors, .memory, .controllers, .records,
    .management] P) (s : State) (j : Nat) (sl : Slot) (vs : List Nat) (oks : P s) : P (State.putFlat s j sl vs).1 :=
    by
  unfold State.putFlat
  try dsimp only
  repeat' first
    | with_reducible assumption | (intro _; try dsimp only) | with_reducible apply keeps_ite1
    | with_reducible apply keeps_ite | with_reducible apply State.putRows_keeps hP
    | with_reducible exact keeps_pair (by assumption) (by assumption)
    | (refine keeps_pair (by assumption) ?_; with_reducible apply State.putRows_keeps hP) | (split <;> try dsimp only)

theorem State.putCodes_keeps {P : State → Prop} (hP : Opened [.registers, .vectors, .memory, .controllers, .records,
    .management] P) (s : State) (j : Nat) (sl : Slot) (r c0 : Nat) (vs : List Nat) (oks : P s) : P (State.putCodes s j
    sl r c0 vs) := by
  unfold State.putCodes
  try dsimp only
  repeat' first
    | with_reducible assumption | (intro _; try dsimp only) | with_reducible apply keeps_ite
    | with_reducible apply State.store_keeps hP | with_reducible exact keeps_pair (by assumption) (by assumption)
    | (split <;> try dsimp only)

theorem State.onInst_keeps {P : State → Prop} (hP : Opened [.parts] P) (s : State) (p l : Nat) (f : Inst → Inst) (oks
    : P s) : P (State.onInst s p l f) := by
  unfold State.onInst
  try dsimp only
  repeat' first
    | with_reducible assumption | (intro _; try dsimp only) | with_reducible apply keeps_ite
    | with_reducible apply State.onPart_keeps hP | with_reducible exact keeps_pair (by assumption) (by assumption)
    | (split <;> try dsimp only)

theorem State.onThr_keeps {P : State → Prop} (hP : Opened [.tiles] P) (s : State) (j l t : Nat) (f : Thr → Thr) (oks :
    P s) : P (State.onThr s j l t f) := by
  exact State.withThrs_keeps hP s _ oks

theorem State.onTile_keeps {P : State → Prop} (hP : Opened [.tiles] P) (s : State) (j : Nat) (f : Tile → Tile) (oks :
    P s) : P (State.onTile s j f) := by
  exact State.withTiles_keeps hP s _ oks

theorem State.issued_keeps {P : State → Prop} (hP : Opened [.tiles] P) (s : State) (j t : Nat) (oks : P s) : P
    (State.issued s j t) := by
  unfold State.issued
  try dsimp only
  repeat' first
    | with_reducible assumption | (intro _; try dsimp only) | with_reducible apply keeps_ite
    | with_reducible apply State.onTile_keeps hP | with_reducible exact keeps_pair (by assumption) (by assumption)
    | (split <;> try dsimp only)

theorem State.waitUnit_keeps {P : State → Prop} (hP : Opened [.tiles] P) (s : State) (c : Ctx) (oks : P s) : P
    (State.waitUnit s c) := by
  unfold State.waitUnit
  try dsimp only
  repeat' first
    | with_reducible assumption | (intro _; try dsimp only) | with_reducible apply keeps_ite
    | with_reducible apply State.onThr_keeps hP | with_reducible exact keeps_pair (by assumption) (by assumption)
    | (split <;> try dsimp only)

theorem State.tileEnd_keeps {P : State → Prop} (hP : Opened [.tiles, .parts] P) (s : State) (p l j : Nat) (oks : P s)
    : P (State.tileEnd s p l j) := by
  have h1 : Opened [.parts] P := hP.mono (by decide)
  have h2 : Opened [.tiles] P := hP.mono (by decide)
  unfold State.tileEnd
  try dsimp only
  repeat' first
    | with_reducible assumption | (intro _; try dsimp only) | with_reducible apply keeps_ite
    | with_reducible apply State.onInst_keeps h1 | with_reducible apply State.onTile_keeps h2
    | with_reducible exact keeps_pair (by assumption) (by assumption) | (split <;> try dsimp only)

theorem State.opDone_keeps {P : State → Prop} (hP : Opened [.registers, .tiles, .parts] P) (s : State) (c : Ctx) (oks
    : P s) : P (State.opDone s c) := by
  have h1 : Opened [.registers] P := hP.mono (by decide)
  have h2 : Opened [.tiles] P := hP.mono (by decide)
  have h3 : Opened [.tiles, .parts] P := hP.mono (by decide)
  unfold State.opDone
  try dsimp only
  repeat' first
    | with_reducible assumption | (intro _; try dsimp only) | with_reducible apply keeps_ite
    | with_reducible apply State.flagIf_keeps h1 | with_reducible apply State.onThr_keeps h2
    | with_reducible apply State.tileEnd_keeps h3 | with_reducible exact keeps_pair (by assumption) (by assumption)
    | (split <;> try dsimp only)

theorem State.seqFault_keeps {P : State → Prop} (hP : Opened [.registers] P) (s : State) (j opIndex t cause : Nat)
    (oks : P s) : P (State.seqFault s j opIndex t cause) := by
  unfold State.seqFault
  try dsimp only
  repeat' first
    | with_reducible assumption | (intro _; try dsimp only) | with_reducible apply keeps_ite
    | with_reducible apply State.fset_keeps hP | with_reducible exact keeps_pair (by assumption) (by assumption)
    | (split <;> try dsimp only)

theorem State.orphanTags_keeps {P : State → Prop} (hP : Opened [.tiles] P) (s : State) (j l t : Nat) (oks : P s) : P
    (State.orphanTags s j l t) := by
  unfold State.orphanTags
  try dsimp only
  repeat' first
    | with_reducible assumption | (intro _; try dsimp only) | with_reducible apply keeps_ite
    | with_reducible apply State.withTags_keeps hP | with_reducible exact keeps_pair (by assumption) (by assumption)
    | (split <;> try dsimp only)

theorem State.opEndFault_keeps {P : State → Prop} (hP : Opened [.registers, .tiles, .parts] P) (s : State) (c : Ctx)
    (cause : Nat) (oks : P s) : P (State.opEndFault s c cause) := by
  have h1 : Opened [.parts] P := hP.mono (by decide)
  have h2 : Opened [.tiles] P := hP.mono (by decide)
  have h3 : Opened [.registers] P := hP.mono (by decide)
  unfold State.opEndFault
  try dsimp only
  repeat' first
    | with_reducible assumption | (intro _; try dsimp only) | with_reducible apply keeps_ite
    | with_reducible apply State.onInst_keeps h1 | with_reducible apply State.onThr_keeps h2
    | with_reducible apply State.orphanTags_keeps h2 | with_reducible apply State.seqFault_keeps h3
    | with_reducible exact keeps_pair (by assumption) (by assumption) | (split <;> try dsimp only)

theorem State.opFault_keeps {P : State → Prop} (hP : Opened [.registers, .tiles, .parts] P) (s : State) (c : Ctx)
    (cause : Nat) (oks : P s) : P (State.opFault s c cause) := by
  have h1 : Opened [.tiles] P := hP.mono (by decide)
  unfold State.opFault
  try dsimp only
  repeat' first
    | with_reducible assumption | (intro _; try dsimp only) | with_reducible apply keeps_ite
    | with_reducible apply State.onThr_keeps h1 | with_reducible apply State.opEndFault_keeps hP
    | with_reducible apply State.orphanTags_keeps h1 | with_reducible exact keeps_pair (by assumption) (by assumption)
    | (split <;> try dsimp only)

theorem State.finish_keeps {P : State → Prop} (hP : Opened [.registers, .tiles, .parts] P) (s : State) (c : Ctx) (bad
    : Bool) (r : State × NumEv) (okr : P r.1) (oks : P s) : P (State.finish s c bad r) := by
  have h1 : Opened [.registers] P := hP.mono (by decide)
  unfold State.finish
  try dsimp only
  repeat' first
    | with_reducible assumption | (intro _; try dsimp only) | with_reducible apply keeps_ite
    | with_reducible apply State.numEv_keeps h1 | with_reducible apply State.opDone_keeps hP
    | with_reducible apply State.opFault_keeps hP | with_reducible exact keeps_pair (by assumption) (by assumption)
    | (split <;> try dsimp only)

theorem State.freshSems_keeps {P : State → Prop} (hP : Opened [.memory] P) (s : State) (p l n : Nat) (oks : P s) : P
    (State.freshSems s p l n) := by
  exact (hP .memory (by decide)).2.2.2.2.2.1 s _ oks

theorem State.semUe_keeps {P : State → Prop} (hP : Opened [.registers, .vectors, .records, .tiles, .parts,
    .management] P) (s : State) (c : Ctx) (oks : P s) : P (State.semUe s c) := by
  have h1 : Opened [.registers, .tiles, .parts] P := hP.mono (by decide)
  have h2 : Opened [.registers, .vectors, .records, .management] P := hP.mono (by decide)
  unfold State.semUe
  try dsimp only
  repeat' first
    | with_reducible assumption | (intro _; try dsimp only) | with_reducible apply keeps_ite
    | with_reducible apply State.opFault_keeps h1 | with_reducible apply State.record_keeps h2
    | with_reducible exact keeps_pair (by assumption) (by assumption) | (split <;> try dsimp only)

theorem State.ifSems_keeps {P : State → Prop} (hP : Opened [.registers, .vectors, .records, .tiles, .parts,
    .management] P) (s : State) (c : Ctx) (ns : List (Nat × Nat)) (u t : State) (oks : P s) (oku : P u) (okt : P t) :
    P (State.ifSems s c ns u t) := by
  unfold State.ifSems
  try dsimp only
  repeat' first
    | with_reducible assumption | (intro _; try dsimp only) | with_reducible apply keeps_ite
    | with_reducible apply State.semUe_keeps hP | with_reducible exact keeps_pair (by assumption) (by assumption)
    | (split <;> try dsimp only)

theorem State.semAdd_keeps {P : State → Prop} (hP : Opened [.registers, .tiles, .parts] P) (s : State) (c : Ctx)
    (scope n add : Nat) (oks : P s) : P (State.semAdd s c scope n add) := by
  have h1 : Opened [.registers] P := hP.mono (by decide)
  have h2 : Opened [.parts] P := hP.mono (by decide)
  have h3 : Opened [.tiles] P := hP.mono (by decide)
  unfold State.semAdd
  try dsimp only
  repeat' first
    | with_reducible assumption | (intro _; try dsimp only) | with_reducible apply keeps_ite
    | with_reducible apply State.flagIf_keeps h1 | with_reducible apply State.withSems_keeps h2
    | with_reducible apply State.withTileSems_keeps h3
    | with_reducible exact keeps_pair (by assumption) (by assumption) | (split <;> try dsimp only)

theorem State.readWord_keeps {P : State → Prop} (hP : Opened [.registers, .vectors, .memory, .controllers, .records,
    .management] P) (s : State) (src : Nat) (p : Option Nat) (w : Nat) (oks : P s) : P (State.readWord s src p w) :=
    by
  have h1 : Opened [.memory] P := hP.mono (by decide)
  have h2 : Opened [.registers, .vectors, .controllers, .records, .management] P := hP.mono (by decide)
  unfold State.readWord
  try dsimp only
  repeat' first
    | with_reducible assumption | (intro _; try dsimp only) | with_reducible apply keeps_ite
    | with_reducible apply State.markPoison_keeps h1 | with_reducible apply State.tallyWord_keeps h2
    | with_reducible apply State.withWbq_keeps h1 | with_reducible exact keeps_pair (by assumption) (by assumption)
    | (split <;> try dsimp only)

theorem State.badRecord_keeps {P : State → Prop} (hP : Opened [.registers, .vectors, .records, .management] P) (s :
    State) (src : Nat) (p : Option Nat) (sev : Nat) (b : By) (w : Nat) (oks : P s) : P (State.badRecord s src p sev b
    w) := by
  unfold State.badRecord
  try dsimp only
  repeat' first
    | with_reducible assumption | (intro _; try dsimp only) | with_reducible apply keeps_ite
    | with_reducible apply State.record_keeps hP | with_reducible exact keeps_pair (by assumption) (by assumption)
    | (split <;> try dsimp only)

theorem State.readRange_keeps {P : State → Prop} (hP : Opened [.registers, .vectors, .memory, .controllers, .records,
    .management] P) (s : State) (src : Nat) (p : Option Nat) (sev : Nat) (b : By) (k n : Nat) (oks : P s) : P
    (State.readRange s src p sev b k n) := by
  have h1 : Opened [.registers, .vectors, .records, .management] P := hP.mono (by decide)
  unfold State.readRange
  try dsimp only
  repeat' first
    | with_reducible assumption | (intro _; try dsimp only) | with_reducible apply keeps_ite
    | with_reducible apply State.badRecord_keeps h1 | with_reducible apply State.readWord_keeps hP
    | with_reducible apply keeps_foldl | with_reducible exact keeps_pair (by assumption) (by assumption)
    | (split <;> try dsimp only)

theorem State.opReads_keeps {P : State → Prop} (hP : Opened [.registers, .vectors, .memory, .controllers, .records,
    .management] P) (s : State) (c : Ctx) (rs : List (Nat × Nat)) (oks : P s) : P (State.opReads s c rs) := by
  unfold State.opReads
  try dsimp only
  repeat' first
    | with_reducible assumption | (intro _; try dsimp only) | with_reducible apply keeps_ite
    | with_reducible apply State.readRange_keeps hP | with_reducible apply keeps_foldl
    | with_reducible apply keeps_foldl1 | with_reducible apply keeps_foldl11
    | with_reducible exact keeps_pair (by assumption) (by assumption) | (split <;> try dsimp only)

theorem State.rmw_keeps {P : State → Prop} (hP : Opened [.registers, .vectors, .memory, .controllers, .answers,
    .records, .management] P) (s : State) (w off mask data : Nat) (poisoned : Bool) (writers : List (Nat × Nat)) (oks
    : P s) : P (State.rmw s w off mask data poisoned writers) := by
  have h1 : Opened [.answers] P := hP.mono (by decide)
  have h2 : Opened [.registers, .vectors] P := hP.mono (by decide)
  have h3 : Opened [.memory] P := hP.mono (by decide)
  have h4 : Opened [.registers, .vectors, .records, .management] P := hP.mono (by decide)
  have h5 : Opened [.registers, .vectors, .controllers, .records, .management] P := hP.mono (by decide)
  unfold State.rmw
  try dsimp only
  repeat' first
    | with_reducible assumption | (intro _; try dsimp only) | with_reducible apply keeps_ite
    | with_reducible apply State.answer_keeps h1 | with_reducible apply State.evt_keeps h2
    | with_reducible apply State.markPoison_keeps h3 | with_reducible apply State.record_keeps h4
    | with_reducible apply State.storeClean_keeps h3 | with_reducible apply State.storePoison_keeps h3
    | with_reducible apply State.tallyOnce_keeps h5 | with_reducible exact keeps_pair (by assumption) (by assumption)
    | (split <;> try dsimp only)

theorem State.orError_keeps {P : State → Prop} (hP : Opened [.answers] P) (t : State) (k : RespKind) (okt : P t) : P
    (State.orError t k) := by
  unfold State.orError
  try dsimp only
  repeat' first
    | with_reducible assumption | (intro _; try dsimp only) | with_reducible apply keeps_ite
    | with_reducible apply State.answer_keeps hP | with_reducible exact keeps_pair (by assumption) (by assumption)
    | (split <;> try dsimp only)

theorem State.closeEntry_keeps {P : State → Prop} (hP : Opened [.registers, .vectors, .memory, .controllers, .answers,
    .records, .management] P) (s : State) (e : MergeEnt) (oks : P s) : P (State.closeEntry s e) := by
  have h1 : Opened [.answers] P := hP.mono (by decide)
  have h2 : Opened [.memory] P := hP.mono (by decide)
  unfold State.closeEntry
  try dsimp only
  repeat' first
    | with_reducible assumption | (intro _; try dsimp only) | with_reducible apply keeps_ite
    | with_reducible apply State.answer_keeps h1 | with_reducible apply State.orError_keeps h1
    | with_reducible apply State.rmw_keeps hP | with_reducible apply State.storeClean_keeps h2
    | with_reducible apply State.storePoison_keeps h2 | with_reducible apply keeps_foldl
    | with_reducible apply keeps_foldl1 | with_reducible apply keeps_foldl11
    | with_reducible exact keeps_pair (by assumption) (by assumption) | (split <;> try dsimp only)

theorem State.closeBlock_keeps {P : State → Prop} (hP : Opened [.registers, .vectors, .memory, .controllers, .answers,
    .records, .management] P) (s : State) (blk : Nat) (oks : P s) : P (State.closeBlock s blk) := by
  have h1 : Opened [.memory] P := hP.mono (by decide)
  unfold State.closeBlock
  try dsimp only
  repeat' first
    | with_reducible assumption | (intro _; try dsimp only) | with_reducible apply keeps_ite
    | with_reducible apply State.closeEntry_keeps hP | with_reducible apply State.withMerge_keeps h1
    | with_reducible exact keeps_pair (by assumption) (by assumption) | (split <;> try dsimp only)

theorem State.closeRange_keeps {P : State → Prop} (hP : Opened [.registers, .vectors, .memory, .controllers, .answers,
    .records, .management] P) (s : State) (k n : Nat) (oks : P s) : P (State.closeRange s k n) := by
  unfold State.closeRange
  try dsimp only
  repeat' first
    | with_reducible assumption | (intro _; try dsimp only) | with_reducible apply keeps_ite
    | with_reducible apply State.closeBlock_keeps hP | with_reducible apply keeps_foldl
    | with_reducible exact keeps_pair (by assumption) (by assumption) | (split <;> try dsimp only)

theorem State.mergeWrite_keeps {P : State → Prop} (hP : Opened [.registers, .vectors, .memory, .controllers, .answers,
    .records, .management] P) (s : State) (src p k : Nat) (bs : List Byte) (poisoned : Bool) (oks : P s) : P
    (State.mergeWrite s src p k bs poisoned) := by
  have h1 : Opened [.answers] P := hP.mono (by decide)
  have h2 : Opened [.memory] P := hP.mono (by decide)
  unfold State.mergeWrite
  try dsimp only
  repeat' first
    | with_reducible assumption | (intro _; try dsimp only) | with_reducible apply keeps_ite
    | with_reducible apply State.answer_keeps h1 | with_reducible apply State.closeBlock_keeps hP
    | with_reducible apply State.closeEntry_keeps hP | with_reducible apply State.withMerge_keeps h2
    | with_reducible exact keeps_pair (by assumption) (by assumption) | (split <;> try dsimp only)

theorem State.partWrite_keeps {P : State → Prop} (hP : Opened [.registers, .vectors, .memory, .controllers, .answers,
    .records, .management] P) (s : State) (src p w off : Nat) (bs : List Byte) (poisoned : Bool) (oks : P s) : P
    (State.partWrite s src p w off bs poisoned) := by
  have h1 : Opened [.answers] P := hP.mono (by decide)
  have h2 : Opened [.memory] P := hP.mono (by decide)
  have h3 : Opened [.registers, .vectors, .memory, .controllers, .records, .management] P := hP.mono (by decide)
  unfold State.partWrite
  try dsimp only
  repeat' first
    | with_reducible assumption | (intro _; try dsimp only) | with_reducible apply keeps_ite
    | with_reducible apply State.answer_keeps h1 | with_reducible apply State.mergeWrite_keeps hP
    | with_reducible apply State.poke_keeps h2 | with_reducible apply State.rmw_keeps hP
    | with_reducible apply State.storeWord_keeps h3 | with_reducible exact keeps_pair (by assumption) (by assumption)
    | (split <;> try dsimp only)

theorem State.writeWord_keeps {P : State → Prop} (hP : Opened [.registers, .vectors, .memory, .controllers, .answers,
    .records, .management] P) (s : State) (src p w off : Nat) (bs : List Byte) (poisoned : Bool) (oks : P s) : P
    (State.writeWord s src p w off bs poisoned) := by
  have h1 : Opened [.answers] P := hP.mono (by decide)
  have h2 : Opened [.memory] P := hP.mono (by decide)
  unfold State.writeWord
  try dsimp only
  repeat' first
    | with_reducible assumption | (intro _; try dsimp only) | with_reducible apply keeps_ite
    | with_reducible apply State.answer_keeps h1 | with_reducible apply State.closeBlock_keeps hP
    | with_reducible apply State.partWrite_keeps hP | with_reducible apply State.storeClean_keeps h2
    | with_reducible apply State.storePoison_keeps h2 | with_reducible exact keeps_pair (by assumption) (by assumption)
    | (split <;> try dsimp only)

theorem State.writeMarks_keeps {P : State → Prop} (hP : Opened [.registers, .vectors, .memory, .controllers, .answers,
    .records, .management] P) (s : State) (src p k : Nat) (bs : List Byte) (bad : Nat) (oks : P s) : P
    (State.writeMarks s src p k bs bad) := by
  have h1 : Opened [.answers] P := hP.mono (by decide)
  unfold State.writeMarks
  try dsimp only
  repeat' first
    | with_reducible assumption | (intro _; try dsimp only) | with_reducible apply keeps_ite
    | with_reducible apply State.answer_keeps h1 | with_reducible apply State.orError_keeps h1
    | with_reducible apply State.writeWord_keeps hP | with_reducible apply keeps_foldl
    | with_reducible apply keeps_foldl1 | with_reducible apply keeps_foldl11
    | with_reducible exact keeps_pair (by assumption) (by assumption) | (split <;> try dsimp only)

theorem State.writePlace_keeps {P : State → Prop} (hP : Opened [.registers, .vectors, .memory, .controllers, .answers,
    .records, .management] P) (s : State) (src p k : Nat) (bs : List Byte) (poisoned : Bool) (oks : P s) : P
    (State.writePlace s src p k bs poisoned) := by
  unfold State.writePlace
  try dsimp only
  repeat' first
    | with_reducible assumption | (intro _; try dsimp only) | with_reducible apply keeps_ite
    | with_reducible apply State.writeMarks_keeps hP | with_reducible exact keeps_pair (by assumption) (by assumption)
    | (split <;> try dsimp only)

theorem State.engSee_keeps {P : State → Prop} (hP : Opened [.registers, .vectors, .memory, .controllers, .answers,
    .records, .management] P) (s : State) (src p k n : Nat) (oks : P s) : P (State.engSee s src p k n) := by
  have h1 : Opened [.registers, .vectors, .memory, .controllers, .records, .management] P := hP.mono (by decide)
  have h2 : Opened [.answers] P := hP.mono (by decide)
  unfold State.engSee
  try dsimp only
  repeat' first
    | with_reducible assumption | (intro _; try dsimp only) | with_reducible apply keeps_ite
    | with_reducible apply State.closeRange_keeps hP | with_reducible apply State.readRange_keeps h1
    | with_reducible apply State.withRsp_keeps h2 | with_reducible exact keeps_pair (by assumption) (by assumption)
    | (split <;> try dsimp only)

theorem State.engWrite_keeps {P : State → Prop} (hP : Opened [.registers, .vectors, .memory, .controllers, .answers,
    .records, .management] P) (s : State) (src p k : Nat) (bs : List Byte) (oks : P s) : P (State.engWrite s src p k
    bs) := by
  have h1 : Opened [.answers] P := hP.mono (by decide)
  unfold State.engWrite
  try dsimp only
  repeat' first
    | with_reducible assumption | (intro _; try dsimp only) | with_reducible apply keeps_ite
    | with_reducible apply State.withRsp_keeps h1 | with_reducible apply State.writeMarks_keeps hP
    | with_reducible exact keeps_pair (by assumption) (by assumption) | (split <;> try dsimp only)

theorem State.engMove_keeps {P : State → Prop} (hP : Opened [.registers, .vectors, .memory, .controllers, .answers,
    .records, .management] P) (s : State) (src p dst a n : Nat) (oks : P s) : P (State.engMove s src p dst a n) := by
  have h1 : Opened [.answers] P := hP.mono (by decide)
  unfold State.engMove
  try dsimp only
  repeat' first
    | with_reducible assumption | (intro _; try dsimp only) | with_reducible apply keeps_ite
    | with_reducible apply State.engSee_keeps hP | with_reducible apply State.withRsp_keeps h1
    | with_reducible apply State.writeMarks_keeps hP | with_reducible exact keeps_pair (by assumption) (by assumption)
    | (split <;> try dsimp only)

theorem State.suppress_keeps {P : State → Prop} (hP : Opened [.registers, .answers] P) (s : State) (j : Nat) (oks : P
    s) : P (State.suppress s j) := by
  have h1 : Opened [.answers] P := hP.mono (by decide)
  have h2 : Opened [.registers] P := hP.mono (by decide)
  unfold State.suppress
  try dsimp only
  repeat' first
    | with_reducible assumption | (intro _; try dsimp only) | with_reducible apply keeps_ite
    | with_reducible apply State.answer_keeps h1 | with_reducible apply State.fcount_keeps h2
    | with_reducible exact keeps_pair (by assumption) (by assumption) | (split <;> try dsimp only)

theorem State.refuseAnswer_keeps {P : State → Prop} (hP : Opened [.registers, .answers] P) (s : State) (rq : Req)
    (write : Bool) (oks : P s) : P (State.refuseAnswer s rq write) := by
  have h1 : Opened [.answers] P := hP.mono (by decide)
  unfold State.refuseAnswer
  try dsimp only
  repeat' first
    | with_reducible assumption | (intro _; try dsimp only) | with_reducible apply keeps_ite
    | with_reducible apply State.answer_keeps h1 | with_reducible apply State.suppress_keeps hP
    | with_reducible exact keeps_pair (by assumption) (by assumption) | (split <;> try dsimp only)

theorem State.holdAt_keeps {P : State → Prop} (hP : Opened [.thapel] P) (s : State) (c : Nat) (h : Held) (oks : P s) :
    P (State.holdAt s c h) := by
  unfold State.holdAt
  try dsimp only
  repeat' first
    | with_reducible assumption | (intro _; try dsimp only) | with_reducible apply keeps_ite
    | with_reducible apply State.withChans_keeps hP | with_reducible exact keeps_pair (by assumption) (by assumption)
    | (split <;> try dsimp only)

theorem State.ingress1_keeps {P : State → Prop} (hP : Opened [.registers, .vectors, .answers, .thapel] P) (s : State)
    (rq0 : Req) (write : Bool) (r : Right) (data : List Byte) (poisoned : Bool)
    (go : State → Req → List (Nat × Nat) → State) (oks : P s) (okgo : ∀ (t0 : State) (t1 : Req) (t2 : List (Nat × Nat)), P t0 → P (go t0 t1 t2)) : P (State.ingress1 s rq0 write r data poisoned go) := by
  have h1 : Opened [.answers] P := hP.mono (by decide)
  have h2 : Opened [.thapel] P := hP.mono (by decide)
  have h3 : Opened [.registers, .vectors] P := hP.mono (by decide)
  have h4 : Opened [.registers, .answers] P := hP.mono (by decide)
  unfold State.ingress1
  try dsimp only
  repeat' first
    | with_reducible assumption | (intro _; try dsimp only) | with_reducible apply okgo
    | with_reducible apply keeps_ite | with_reducible apply State.answer_keeps h1
    | with_reducible apply State.holdAt_keeps h2 | with_reducible apply State.refusal_keeps h3
    | with_reducible apply State.refuseAnswer_keeps h4 | with_reducible apply State.windowMiss_keeps h3
    | with_reducible exact keeps_pair (by assumption) (by assumption) | (split <;> try dsimp only)

theorem State.ingress_keeps {P : State → Prop} (hP : Opened [.registers, .vectors, .answers, .thapel] P) (s : State)
    (rq : Req) (write : Bool) (r : Right) (data : List Byte) (poisoned : Bool)
    (go : State → Req → List (Nat × Nat) → State) (oks : P s) (okgo : ∀ (t0 : State) (t1 : Req) (t2 : List (Nat × Nat)), P t0 → P (go t0 t1 t2)) : P (State.ingress s rq write r data poisoned go) := by
  have h1 : Opened [.answers] P := hP.mono (by decide)
  unfold State.ingress
  try dsimp only
  repeat' first
    | with_reducible assumption | (intro _; try dsimp only) | with_reducible apply okgo
    | with_reducible apply keeps_ite | with_reducible apply State.answer_keeps h1
    | with_reducible apply State.ingress1_keeps hP | with_reducible apply State.withRsp_keeps h1
    | with_reducible apply keeps_foldl | with_reducible apply keeps_foldl1 | with_reducible apply keeps_foldl11
    | with_reducible exact keeps_pair (by assumption) (by assumption) | (split <;> try dsimp only)

theorem State.observe_keeps {P : State → Prop} (hP : Opened [.regulation] P) (s : State) (h k ns : Nat) (oks : P s) :
    P (State.observe s h k ns) := by
  unfold State.observe
  try dsimp only
  repeat' first
    | with_reducible assumption | (intro _; try dsimp only) | with_reducible apply keeps_ite
    | with_reducible apply State.withMons_keeps hP | with_reducible exact keeps_pair (by assumption) (by assumption)
    | (split <;> try dsimp only)

theorem State.observeReq_keeps {P : State → Prop} (hP : Opened [.regulation] P) (s : State) (rq : Req) (ps : List (Nat
    × Nat)) (oks : P s) : P (State.observeReq s rq ps) := by
  unfold State.observeReq
  try dsimp only
  repeat' first
    | with_reducible assumption | (intro _; try dsimp only) | with_reducible apply keeps_ite
    | with_reducible apply State.observe_keeps hP | with_reducible exact keeps_pair (by assumption) (by assumption)
    | (split <;> try dsimp only)

theorem State.serveRead_keeps {P : State → Prop} (hP : Opened [.draws, .registers, .vectors, .memory, .controllers,
    .answers, .records, .regulation, .management] P) (s : State) (rq : Req) (ps : List (Nat × Nat)) (oks : P s) : P
    (State.serveRead s rq ps) := by
  have h1 : Opened [.answers] P := hP.mono (by decide)
  have h2 : Opened [.registers, .vectors, .memory, .controllers, .answers, .records, .management] P := hP.mono (by
      decide)
  have h3 : Opened [.draws] P := hP.mono (by decide)
  have h4 : Opened [.regulation] P := hP.mono (by decide)
  have h5 : Opened [.registers, .vectors, .memory, .controllers, .records, .management] P := hP.mono (by decide)
  have h6 : Opened [.registers, .answers] P := hP.mono (by decide)
  unfold State.serveRead
  try dsimp only
  repeat' first
    | with_reducible assumption | (intro _; try dsimp only) | with_reducible apply keeps_ite
    | with_reducible apply State.answer_keeps h1 | with_reducible apply State.closeRange_keeps h2
    | with_reducible apply State.draw_keeps h3 | with_reducible apply State.observeReq_keeps h4
    | with_reducible apply State.readRange_keeps h5 | with_reducible apply State.readWord_keeps h5
    | with_reducible apply State.suppress_keeps h6 | with_reducible apply keeps_foldl
    | with_reducible apply keeps_foldl1 | with_reducible apply keeps_foldl11
    | with_reducible exact keeps_pair (by assumption) (by assumption) | (split <;> try dsimp only)

theorem State.serveWrite_keeps {P : State → Prop} (hP : Opened [.registers, .vectors, .memory, .controllers, .answers,
    .records, .regulation, .management] P) (s : State) (rq : Req) (data : List Byte) (poisoned : Bool) (ps : List (Nat
    × Nat)) (oks : P s) : P (State.serveWrite s rq data poisoned ps) := by
  have h1 : Opened [.answers] P := hP.mono (by decide)
  have h2 : Opened [.regulation] P := hP.mono (by decide)
  have h3 : Opened [.registers, .vectors, .records, .management] P := hP.mono (by decide)
  have h4 : Opened [.registers, .vectors, .memory, .controllers, .answers, .records, .management] P := hP.mono (by
      decide)
  unfold State.serveWrite
  try dsimp only
  repeat' first
    | with_reducible assumption | (intro _; try dsimp only) | with_reducible apply keeps_ite
    | with_reducible apply State.answer_keeps h1 | with_reducible apply State.observeReq_keeps h2
    | with_reducible apply State.orError_keeps h1 | with_reducible apply State.record_keeps h3
    | with_reducible apply State.writePlace_keeps h4 | with_reducible apply keeps_foldl
    | with_reducible apply keeps_foldl1 | with_reducible apply keeps_foldl11
    | with_reducible exact keeps_pair (by assumption) (by assumption) | (split <;> try dsimp only)

theorem State.adderStep_keeps {P : State → Prop} (hP : Opened [.registers, .vectors, .memory, .controllers, .answers,
    .records, .management] P) (s : State) (src : Nat) (p : Option Nat) (op ty k : Nat) (opd : List Byte) (oks : P s) :
    P (State.adderStep s src p op ty k opd).1 := by
  have h1 : Opened [.registers, .vectors, .records, .management] P := hP.mono (by decide)
  have h2 : Opened [.memory] P := hP.mono (by decide)
  have h3 : Opened [.registers, .vectors, .memory, .controllers, .records, .management] P := hP.mono (by decide)
  have h4 : Opened [.registers, .vectors, .controllers, .records, .management] P := hP.mono (by decide)
  unfold State.adderStep
  try dsimp only
  repeat' first
    | with_reducible assumption | (intro _; try dsimp only) | with_reducible apply keeps_ite1
    | with_reducible apply keeps_ite | with_reducible apply State.badRecord_keeps h1
    | with_reducible apply State.closeBlock_keeps hP | with_reducible apply State.markPoison_keeps h2
    | with_reducible apply State.store_keeps h3 | with_reducible apply State.tallyOnce_keeps h4
    | with_reducible apply keeps_foldl | with_reducible apply keeps_foldl1 | with_reducible apply keeps_foldl11
    | with_reducible exact keeps_pair (by assumption) (by assumption) | (split <;> try dsimp only)

theorem State.reduceAt_keeps {P : State → Prop} (hP : Opened [.registers, .vectors, .memory, .controllers, .answers,
    .records, .management] P) (s : State) (src : Nat) (p : Option Nat) (op ty : Nat) (ps : List (Nat × Nat)) (data :
    List Byte) (oks : P s) : P (State.reduceAt s src p op ty ps data).1 := by
  unfold State.reduceAt
  try dsimp only
  repeat' first
    | with_reducible assumption | (intro _; try dsimp only) | with_reducible apply keeps_ite1
    | with_reducible apply keeps_ite | with_reducible apply State.adderStep_keeps hP | with_reducible apply keeps_foldl
    | with_reducible apply keeps_foldl1 | with_reducible apply keeps_foldl11
    | with_reducible exact keeps_pair (by assumption) (by assumption)
    | (refine keeps_pair (by assumption) ?_; with_reducible apply State.adderStep_keeps hP)
    | (split <;> try dsimp only)

theorem State.yServe_keeps {P : State → Prop} (hP : Opened [.draws, .registers, .vectors, .memory, .controllers,
    .answers, .records, .management] P) (s : State) (p tag : Nat) (q : YReq) (oks : P s) : P (State.yServe s p tag
    q).1 := by
  have h1 : Opened [.registers, .vectors, .memory, .controllers, .answers, .records, .management] P := hP.mono (by
      decide)
  have h2 : Opened [.draws] P := hP.mono (by decide)
  have h3 : Opened [.registers, .vectors] P := hP.mono (by decide)
  have h4 : Opened [.registers, .vectors, .memory, .controllers, .records, .management] P := hP.mono (by decide)
  unfold State.yServe
  try dsimp only
  repeat' first
    | with_reducible assumption | (intro _; try dsimp only) | with_reducible apply keeps_ite1
    | with_reducible apply keeps_ite | with_reducible apply State.closeRange_keeps h1
    | with_reducible apply State.draw_keeps h2 | with_reducible apply State.evt_keeps h3
    | with_reducible apply State.readRange_keeps h4 | with_reducible apply State.reduceAt_keeps h1
    | with_reducible apply State.store_keeps h4 | with_reducible apply State.writeMarks_keeps h1
    | with_reducible exact keeps_pair (by assumption) (by assumption)
    | (refine keeps_pair (by assumption) ?_; with_reducible apply State.reduceAt_keeps h1) | (split <;> try dsimp only)

theorem State.yServeTag_keeps {P : State → Prop} (hP : Opened [.draws, .registers, .vectors, .memory, .controllers,
    .answers, .records, .tiles, .management] P) (s : State) (j g : Nat) (gen : Bool) (p : Nat) (q : YReq) (oks : P s)
    : P (State.yServeTag s j g gen p q) := by
  have h1 : Opened [.tiles] P := hP.mono (by decide)
  have h2 : Opened [.draws, .registers, .vectors, .memory, .controllers, .answers, .records, .management] P := hP.mono
      (by decide)
  unfold State.yServeTag
  try dsimp only
  repeat' first
    | with_reducible assumption | (intro _; try dsimp only) | with_reducible apply keeps_ite
    | with_reducible apply State.withTags_keeps h1 | with_reducible apply State.yServe_keeps h2
    | with_reducible exact keeps_pair (by assumption) (by assumption)
    | (refine keeps_pair (by assumption) ?_; with_reducible apply State.yServe_keeps h2) | (split <;> try dsimp only)

theorem State.serveHeld_keeps {P : State → Prop} (hP : Opened [.draws, .registers, .vectors, .memory, .controllers,
    .answers, .records, .tiles, .regulation, .management] P) (s : State) (c : Nat) (h : Held) (oks : P s) : P
    (State.serveHeld s c h) := by
  have h1 : Opened [.registers] P := hP.mono (by decide)
  have h2 : Opened [.draws, .registers, .vectors, .memory, .controllers, .answers, .records, .regulation, .management]
      P := hP.mono (by decide)
  have h3 : Opened [.registers, .vectors, .memory, .controllers, .answers, .records, .regulation, .management] P :=
      hP.mono (by decide)
  have h4 : Opened [.draws, .registers, .vectors, .memory, .controllers, .answers, .records, .tiles, .management] P :=
      hP.mono (by decide)
  unfold State.serveHeld
  try dsimp only
  repeat' first
    | with_reducible assumption | (intro _; try dsimp only) | with_reducible apply keeps_ite
    | with_reducible apply State.fset_keeps h1 | with_reducible apply State.serveRead_keeps h2
    | with_reducible apply State.serveWrite_keeps h3 | with_reducible apply State.yServeTag_keeps h4
    | with_reducible exact keeps_pair (by assumption) (by assumption) | (split <;> try dsimp only)

theorem State.upset_keeps {P : State → Prop} (hP : Opened [.memory] P) (s : State) (u : Upset) (oks : P s) : P
    (State.upset s u) := by
  unfold State.upset
  try dsimp only
  repeat' first
    | with_reducible assumption | (intro _; try dsimp only) | with_reducible apply keeps_ite
    | with_reducible apply State.poke_keeps hP | with_reducible apply State.setDelta_keeps hP
    | with_reducible exact keeps_pair (by assumption) (by assumption) | (split <;> try dsimp only)

theorem State.upsets_keeps {P : State → Prop} (hP : Opened [.memory] P) (s : State) (us : List Upset) (oks : P s) : P
    (State.upsets s us) := by
  unfold State.upsets
  try dsimp only
  repeat' first
    | with_reducible assumption | (intro _; try dsimp only) | with_reducible apply keeps_ite
    | with_reducible apply State.upset_keeps hP | with_reducible apply keeps_foldl
    | with_reducible exact keeps_pair (by assumption) (by assumption) | (split <;> try dsimp only)

theorem State.hostPoison_keeps {P : State → Prop} (hP : Opened [.registers, .vectors, .memory, .answers, .host,
    .records, .management] P) (s : State) (h : HostRead) (oks : P s) : P (State.hostPoison s h) := by
  have h1 : Opened [.answers] P := hP.mono (by decide)
  have h2 : Opened [.registers, .vectors, .records, .management] P := hP.mono (by decide)
  have h3 : Opened [.memory] P := hP.mono (by decide)
  have h4 : Opened [.host] P := hP.mono (by decide)
  unfold State.hostPoison
  try dsimp only
  repeat' first
    | with_reducible assumption | (intro _; try dsimp only) | with_reducible apply keeps_ite
    | with_reducible apply State.answer_keeps h1 | with_reducible apply State.record_keeps h2
    | with_reducible apply State.setDelta_keeps h3 | with_reducible apply State.withHostReads_keeps h4
    | with_reducible apply keeps_foldl | with_reducible apply keeps_foldl1 | with_reducible apply keeps_foldl11
    | with_reducible exact keeps_pair (by assumption) (by assumption) | (split <;> try dsimp only)

theorem State.setRec_keeps {P : State → Prop} (hP : Opened [.registers, .vectors, .memory, .controllers, .answers,
    .records, .management] P) (s : State) (p slot off n v : Nat) (oks : P s) : P (State.setRec s p slot off n v) := by
  unfold State.setRec
  try dsimp only
  repeat' first
    | with_reducible assumption | (intro _; try dsimp only) | with_reducible apply keeps_ite
    | with_reducible apply State.engWrite_keeps hP | with_reducible exact keeps_pair (by assumption) (by assumption)
    | (split <;> try dsimp only)

theorem State.setRecFlag_keeps {P : State → Prop} (hP : Opened [.registers, .vectors, .memory, .controllers, .answers,
    .records, .management] P) (s : State) (p slot b : Nat) (v : Bool) (oks : P s) : P (State.setRecFlag s p slot b v)
    := by
  unfold State.setRecFlag
  try dsimp only
  repeat' first
    | with_reducible assumption | (intro _; try dsimp only) | with_reducible apply keeps_ite
    | with_reducible apply State.setRec_keeps hP | with_reducible exact keeps_pair (by assumption) (by assumption)
    | (split <;> try dsimp only)

theorem State.setPte_keeps {P : State → Prop} (hP : Opened [.registers, .vectors, .memory, .controllers, .answers,
    .records, .management] P) (s : State) (p slot l k v : Nat) (oks : P s) : P (State.setPte s p slot l k v) := by
  unfold State.setPte
  try dsimp only
  repeat' first
    | with_reducible assumption | (intro _; try dsimp only) | with_reducible apply keeps_ite
    | with_reducible apply State.engWrite_keeps hP | with_reducible exact keeps_pair (by assumption) (by assumption)
    | (split <;> try dsimp only)

theorem State.setLed_keeps {P : State → Prop} (hP : Opened [.registers, .vectors, .memory, .controllers, .answers,
    .records, .management] P) (s : State) (pg : Nat) (e : Led) (oks : P s) : P (State.setLed s pg e) := by
  unfold State.setLed
  try dsimp only
  repeat' first
    | with_reducible assumption | (intro _; try dsimp only) | with_reducible apply keeps_ite
    | with_reducible apply State.engWrite_keeps hP | with_reducible exact keeps_pair (by assumption) (by assumption)
    | (split <;> try dsimp only)

theorem State.poolFree_keeps {P : State → Prop} (hP : Opened [.registers] P) (s : State) (h : Nat) (up : Bool) (oks :
    P s) : P (State.poolFree s h up) := by
  unfold State.poolFree
  try dsimp only
  repeat' first
    | with_reducible assumption | (intro _; try dsimp only) | with_reducible apply keeps_ite
    | with_reducible apply State.fset_keeps hP | with_reducible exact keeps_pair (by assumption) (by assumption)
    | (split <;> try dsimp only)

theorem State.setHdr_keeps {P : State → Prop} (hP : Opened [.registers, .vectors, .memory, .controllers, .answers,
    .records, .management] P) (s : State) (pg off n v : Nat) (oks : P s) : P (State.setHdr s pg off n v) := by
  unfold State.setHdr
  try dsimp only
  repeat' first
    | with_reducible assumption | (intro _; try dsimp only) | with_reducible apply keeps_ite
    | with_reducible apply State.engWrite_keeps hP | with_reducible exact keeps_pair (by assumption) (by assumption)
    | (split <;> try dsimp only)

theorem State.sealing_keeps {P : State → Prop} (hP : Opened [.registers, .vectors, .memory, .controllers, .answers,
    .records, .management] P) (s : State) (p l pg : Nat) (f : State → State) (oks : P s) (okf : ∀ (t0 : State), P t0 →
    P (f t0)) : P (State.sealing s p l pg f) := by
  unfold State.sealing
  try dsimp only
  repeat' first
    | with_reducible assumption | (intro _; try dsimp only) | with_reducible apply okf | with_reducible apply keeps_ite
    | with_reducible apply State.setHdr_keeps hP | with_reducible exact keeps_pair (by assumption) (by assumption)
    | (split <;> try dsimp only)

theorem State.seeLed_keeps {P : State → Prop} (hP : Opened [.registers, .vectors, .memory, .controllers, .answers,
    .records, .management] P) (s : State) (pg : Nat) (oks : P s) : P (State.seeLed s pg) := by
  have h1 : Opened [.registers] P := hP.mono (by decide)
  unfold State.seeLed
  try dsimp only
  repeat' first
    | with_reducible assumption | (intro _; try dsimp only) | with_reducible apply keeps_ite
    | with_reducible apply State.closeRange_keeps hP | with_reducible apply State.engSee_keeps hP
    | with_reducible apply State.fset_keeps h1 | with_reducible exact keeps_pair (by assumption) (by assumption)
    | (split <;> try dsimp only)

theorem State.newPage_keeps {P : State → Prop} (hP : Opened [.registers, .vectors, .memory, .controllers, .answers,
    .records, .pages, .management] P) {s : State} {p slot : Nat} {i : PageInit} (oks : P s) {t' : State} {x' : Nat} (e
    : State.newPage s p slot i = some (t', x')) : P t' := by
  have h1 : Opened [.registers, .vectors, .memory, .controllers, .answers, .records, .management] P := hP.mono (by
      decide)
  have h2 : Opened [.registers] P := hP.mono (by decide)
  have h3 : Opened [.pages] P := hP.mono (by decide)
  unfold State.newPage at e
  try dsimp only at e
  repeat' first
    | with_reducible assumption | (simp at e; done) | (intro _; try dsimp only)
    | (simp only [Option.some.injEq, Prod.mk.injEq] at e) | (obtain ⟨rfl, _⟩ := e) | (obtain rfl := e)
    | (split at e <;> try dsimp only at e) | with_reducible apply keeps_ite | with_reducible apply keeps_foldl
    | with_reducible exact keeps_pair (by assumption) (by assumption) | with_reducible apply State.engWrite_keeps h1
    | with_reducible apply State.poolFree_keeps h2 | with_reducible apply State.seeLed_keeps h1
    | with_reducible apply State.setHdr_keeps h1 | with_reducible apply State.setLed_keeps h1
    | with_reducible apply State.withAllocAt_keeps h3 | (split <;> try dsimp only)

theorem State.release_keeps {P : State → Prop} (hP : Opened [.registers, .vectors, .memory, .controllers, .answers,
    .records, .pages, .management] P) (s : State) (pg : Nat) (oks : P s) : P (State.release s pg) := by
  have h1 : Opened [.registers] P := hP.mono (by decide)
  have h2 : Opened [.registers, .vectors, .memory, .controllers, .answers, .records, .management] P := hP.mono (by
      decide)
  have h3 : Opened [.pages] P := hP.mono (by decide)
  unfold State.release
  try dsimp only
  repeat' first
    | with_reducible assumption | (intro _; try dsimp only) | with_reducible apply keeps_ite
    | with_reducible apply State.poolFree_keeps h1 | with_reducible apply State.setLed_keeps h2
    | with_reducible apply State.withDropLater_keeps h3
    | with_reducible exact keeps_pair (by assumption) (by assumption) | (split <;> try dsimp only)

theorem State.dropPage_keeps {P : State → Prop} (hP : Opened [.registers, .vectors, .memory, .controllers, .answers,
    .records, .management] P) (s : State) (pg : Nat) (oks : P s) : P (State.dropPage s pg) := by
  unfold State.dropPage
  try dsimp only
  repeat' first
    | with_reducible assumption | (intro _; try dsimp only) | with_reducible apply keeps_ite
    | with_reducible apply State.setHdr_keeps hP | with_reducible apply State.setLed_keeps hP
    | with_reducible exact keeps_pair (by assumption) (by assumption) | (split <;> try dsimp only)

theorem State.pin_keeps {P : State → Prop} (hP : Opened [.registers, .vectors, .memory, .controllers, .answers,
    .records, .management] P) (s0 : State) (pg : Nat) (oks0 : P s0) : P (State.pin s0 pg).1 := by
  unfold State.pin
  try dsimp only
  repeat' first
    | with_reducible assumption | (intro _; try dsimp only) | with_reducible apply keeps_ite1
    | with_reducible apply keeps_ite | with_reducible apply State.seeLed_keeps hP
    | with_reducible apply State.setLed_keeps hP | with_reducible exact keeps_pair (by assumption) (by assumption)
    | (split <;> try dsimp only)

theorem State.unref_keeps {P : State → Prop} (hP : Opened [.registers, .vectors, .memory, .controllers, .answers,
    .records, .pages, .management] P) (s0 : State) (pg : Nat) (oks0 : P s0) : P (State.unref s0 pg) := by
  have h1 : Opened [.registers, .vectors, .memory, .controllers, .answers, .records, .management] P := hP.mono (by
      decide)
  unfold State.unref
  try dsimp only
  repeat' first
    | with_reducible assumption | (intro _; try dsimp only) | with_reducible apply keeps_ite
    | with_reducible apply State.release_keeps hP | with_reducible apply State.seeLed_keeps h1
    | with_reducible apply State.setLed_keeps h1 | with_reducible exact keeps_pair (by assumption) (by assumption)
    | (split <;> try dsimp only)

theorem State.ref_keeps {P : State → Prop} (hP : Opened [.registers, .vectors, .memory, .controllers, .answers,
    .records, .management] P) (s0 : State) (pg : Nat) (oks0 : P s0) : P (State.ref s0 pg).1 := by
  unfold State.ref
  try dsimp only
  repeat' first
    | with_reducible assumption | (intro _; try dsimp only) | with_reducible apply keeps_ite1
    | with_reducible apply keeps_ite | with_reducible apply State.seeLed_keeps hP
    | with_reducible apply State.setLed_keeps hP | with_reducible exact keeps_pair (by assumption) (by assumption)
    | (split <;> try dsimp only)

theorem State.dropNow_keeps {P : State → Prop} (hP : Opened [.registers, .vectors, .memory, .controllers, .answers,
    .records, .pages, .management] P) (s : State) (pg : Nat) (oks : P s) : P (State.dropNow s pg) := by
  have h1 : Opened [.registers, .vectors, .memory, .controllers, .answers, .records, .management] P := hP.mono (by
      decide)
  have h2 : Opened [.pages] P := hP.mono (by decide)
  unfold State.dropNow
  try dsimp only
  repeat' first
    | with_reducible assumption | (intro _; try dsimp only) | with_reducible apply keeps_ite
    | with_reducible apply State.setPte_keeps h1 | with_reducible apply State.setRecFlag_keeps h1
    | with_reducible apply State.unref_keeps hP | with_reducible apply State.withDropLater_keeps h2
    | with_reducible exact keeps_pair (by assumption) (by assumption) | (split <;> try dsimp only)

theorem State.unpin_keeps {P : State → Prop} (hP : Opened [.registers, .vectors, .memory, .controllers, .answers,
    .records, .pages, .management] P) (s0 : State) (pg : Nat) (oks0 : P s0) : P (State.unpin s0 pg) := by
  have h1 : Opened [.registers, .vectors, .memory, .controllers, .answers, .records, .management] P := hP.mono (by
      decide)
  have h2 : Opened [.pages] P := hP.mono (by decide)
  unfold State.unpin
  try dsimp only
  repeat' first
    | with_reducible assumption | (intro _; try dsimp only) | with_reducible apply keeps_ite
    | with_reducible apply State.dropNow_keeps hP | with_reducible apply State.release_keeps hP
    | with_reducible apply State.seeLed_keeps h1 | with_reducible apply State.setLed_keeps h1
    | with_reducible apply State.withPinHeld_keeps h2 | with_reducible exact keeps_pair (by assumption) (by assumption)
    | (split <;> try dsimp only)

theorem State.sealFail_keeps {P : State → Prop} (hP : Opened [.registers, .vectors, .memory, .controllers, .answers,
    .records, .management] P) (s : State) (p l pg handle src : Nat) (oks : P s) : P (State.sealFail s p l pg handle
    src) := by
  have h1 : Opened [.registers, .vectors] P := hP.mono (by decide)
  have h2 : Opened [.registers] P := hP.mono (by decide)
  have h3 : Opened [.registers, .vectors, .records, .management] P := hP.mono (by decide)
  unfold State.sealFail
  try dsimp only
  repeat' first
    | with_reducible assumption | (intro _; try dsimp only) | with_reducible apply keeps_ite
    | with_reducible apply State.dropPage_keeps hP | with_reducible apply State.evt_keeps h1
    | with_reducible apply State.fcount_keeps h2 | with_reducible apply State.record_keeps h3
    | with_reducible exact keeps_pair (by assumption) (by assumption) | (split <;> try dsimp only)

theorem State.copySlot_keeps {P : State → Prop} (hP : Opened [.registers, .vectors, .memory, .controllers, .answers,
    .records, .management] P) (s : State) (p l src x dst y : Nat) (oks : P s) : P (State.copySlot s p l src x dst y)
    := by
  unfold State.copySlot
  try dsimp only
  repeat' first
    | with_reducible assumption | (intro _; try dsimp only) | with_reducible apply keeps_ite
    | with_reducible apply State.engWrite_keeps hP | with_reducible apply keeps_foldl
    | with_reducible apply keeps_foldl1 | with_reducible apply keeps_foldl11
    | with_reducible exact keeps_pair (by assumption) (by assumption) | (split <;> try dsimp only)

theorem State.copyPage_keeps {P : State → Prop} (hP : Opened [.registers, .vectors, .memory, .controllers, .answers,
    .records, .management] P) (s : State) (p l src dst count owner : Nat) (oks : P s) : P (State.copyPage s p l src
    dst count owner) := by
  unfold State.copyPage
  try dsimp only
  repeat' first
    | with_reducible assumption | (intro _; try dsimp only) | with_reducible apply keeps_ite
    | with_reducible apply State.copySlot_keeps hP | with_reducible apply State.engWrite_keeps hP
    | with_reducible apply State.setHdr_keeps hP | with_reducible apply keeps_foldl | with_reducible apply keeps_foldl1
    | with_reducible apply keeps_foldl11 | with_reducible exact keeps_pair (by assumption) (by assumption)
    | (split <;> try dsimp only)

theorem State.onAcct_keeps {P : State → Prop} (hP : Opened [.regulation] P) (s : State) (key : Nat) (f : Acct → Acct)
    (oks : P s) : P (State.onAcct s key f) := by
  exact (hP .regulation (by decide)).1 s key f oks

theorem State.charge_keeps {P : State → Prop} (hP : Opened [.registers, .vectors, .regulation] P) (s : State) (h key :
    Nat) (a : AcctCfg) (u n : Nat) (oks : P s) : P (State.charge s h key a u n) := by
  have h1 : Opened [.registers, .vectors] P := hP.mono (by decide)
  have h2 : Opened [.regulation] P := hP.mono (by decide)
  unfold State.charge
  try dsimp only
  repeat' first
    | with_reducible assumption | (intro _; try dsimp only) | with_reducible apply keeps_ite
    | with_reducible apply State.evt_keeps h1 | with_reducible apply State.onAcct_keeps h2
    | with_reducible exact keeps_pair (by assumption) (by assumption) | (split <;> try dsimp only)

theorem State.releaseHeld_keeps {P : State → Prop} (hP : Opened [.registers, .vectors, .regulation] P) (s : State) (h
    key : Nat) (a : AcctCfg) (u n : Nat) (oks : P s) : P (s.releaseHeld h key a u n) := by
  have h1 : Opened [.regulation] P := hP.mono (by decide)
  induction n generalizing s with
  | zero => exact oks
  | succ n ih =>
    unfold State.releaseHeld
    split
    · exact oks
    · split
      · exact ih _ (State.onAcct_keeps h1 _ _ _ (State.charge_keeps hP _ _ _ _ _ _ oks))
      · exact oks

theorem State.boundaryOf_keeps {P : State → Prop} (hP : Opened [.registers, .vectors, .regulation] P) (s : State) (h
    key : Nat) (a : AcctCfg) (u : Nat) (oks : P s) : P (State.boundaryOf s h key a u) := by
  have h1 : Opened [.regulation] P := hP.mono (by decide)
  unfold State.boundaryOf
  try dsimp only
  repeat' first
    | with_reducible assumption | (intro _; try dsimp only) | with_reducible apply keeps_ite
    | with_reducible apply State.onAcct_keeps h1 | with_reducible apply State.releaseHeld_keeps hP
    | with_reducible exact keeps_pair (by assumption) (by assumption) | (split <;> try dsimp only)

theorem State.restartAccts_keeps {P : State → Prop} (hP : Opened [.regulation] P) (s : State) (p : Nat) (oks : P s) :
    P (State.restartAccts s p) := by
  unfold State.restartAccts
  try dsimp only
  repeat' first
    | with_reducible assumption | (intro _; try dsimp only) | with_reducible apply keeps_ite
    | with_reducible apply State.onAcct_keeps hP | with_reducible apply keeps_foldl
    | with_reducible exact keeps_pair (by assumption) (by assumption) | (split <;> try dsimp only)

theorem State.yardRelease_keeps {P : State → Prop} (hP : Opened [.registers, .vectors, .regulation] P) {s : State}
    {tile part op place n : Nat} (oks : P s) {t' : State} {x' : Nat} (e : State.yardRelease s tile part op place n =
    some (t', x')) : P t' := by
  unfold State.yardRelease at e
  try dsimp only at e
  repeat' first
    | with_reducible assumption | (simp at e; done) | (intro _; try dsimp only)
    | (simp only [Option.some.injEq, Prod.mk.injEq] at e) | (obtain ⟨rfl, _⟩ := e) | (obtain rfl := e)
    | (split at e <;> try dsimp only at e) | with_reducible apply keeps_ite | with_reducible apply keeps_foldl
    | with_reducible exact keeps_pair (by assumption) (by assumption) | with_reducible apply State.boundaryOf_keeps hP
    | with_reducible apply State.charge_keeps hP | (split <;> try dsimp only)

theorem State.writeOutputs_keeps {P : State → Prop} (hP : Opened [.registers, .vectors, .memory, .controllers,
    .records, .management] P) (s : State) (j : Nat) (m : Mm) (p : Nat) (acc : List Nat) (oks : P s) : P
    (State.writeOutputs s j m p acc).1 := by
  unfold State.writeOutputs
  try dsimp only
  repeat' first
    | with_reducible assumption | (intro _; try dsimp only) | with_reducible apply keeps_ite1
    | with_reducible apply keeps_ite | with_reducible apply State.putElems_keeps hP | with_reducible apply keeps_foldl
    | with_reducible apply keeps_foldl1 | with_reducible apply keeps_foldl11
    | with_reducible exact keeps_pair (by assumption) (by assumption) | (split <;> try dsimp only)

end Sys2Proof.Machine
end

