-- ==== Sys2Proof/Laws/Frame.lean ====
section
/-!
SUPPORT. The frame of an operation: it leaves every area that is not among those it writes.
-/

namespace Sys2Proof.Machine

/-- A state agrees with the first one in every area outside a list. -/
def Within (l : List Area) (s t : State) : Prop := ∀ a, a ∉ l → Area.same s t a

theorem Within.refl (l : List Area) (s : State) : Within l s s := by
  intro a _
  cases a <;> simp [Area.same]

/-- A write in one area of the list. -/
theorem within_write {l : List Area} {s0 s t : State} {b : Area} (hb : b ∈ l) (h : Within l s0 s)
    (k : ∀ a, a ≠ b → Area.same s0 s a → Area.same s0 t a) : Within l s0 t :=
  fun a ha => k a (fun e => ha (e ▸ hb)) (h a ha)

/-- Agreement outside a list is open in the areas of the list. -/
theorem within_opened (l : List Area) (s0 : State) : Opened l (Within l s0) := by
  intro b hb
  cases b
  all_goals
    simp only [Opens]
    repeat' apply And.intro
    all_goals
      intros
      refine within_write hb (by assumption) ?_
      intro a na h
      cases a
      all_goals
        first
        | exact h
        | exact absurd rfl na

theorem within_queue (l : List Area) (s0 : State) : KeepsQueue (Within l s0) := by
  intro s q h a ha
  have := h a ha
  cases a <;> exact this

end Sys2Proof.Machine
end

