-- ==== Sys2Proof/Laws/KeepsTiles.lean ====
section
/-!
SUPPORT. What every operation keeps: a predicate that is open in the areas an operation writes holds after it. Here: the operations of tiles, sessions and operators.
-/

namespace Sys2Proof.Machine

set_option linter.all false

theorem State.onArr_keeps {P : State → Prop} (hP : Opened [.tiles] P) (s : State) (j a : Nat) (f : Arr → Arr) (oks : P
    s) : P (State.onArr s j a f) := by
  exact State.withArrs_keeps hP s _ oks

theorem State.setArr_keeps {P : State → Prop} (hP : Opened [.registers] P) (s : State) (j v : Nat) (a : Nat) (oks : P
    s) : P (State.setArr s j v a) := by
  unfold State.setArr
  try dsimp only
  repeat' first
    | with_reducible assumption | (intro _; try dsimp only) | with_reducible apply keeps_ite
    | with_reducible apply State.fsetAt_keeps hP | with_reducible exact keeps_pair (by assumption) (by assumption)
    | (split <;> try dsimp only)

theorem State.setArrs_keeps {P : State → Prop} (hP : Opened [.registers] P) (s : State) (j v : Nat) (as : List Nat)
    (oks : P s) : P (State.setArrs s j v as) := by
  unfold State.setArrs
  try dsimp only
  repeat' first
    | with_reducible assumption | (intro _; try dsimp only) | with_reducible apply keeps_ite
    | with_reducible apply State.setArr_keeps hP | with_reducible apply keeps_foldl
    | with_reducible exact keeps_pair (by assumption) (by assumption) | (split <;> try dsimp only)

theorem State.setJob_keeps {P : State → Prop} (hP : Opened [.tiles] P) (s : State) (j l a : Nat) (b : Option Job) (oks
    : P s) : P (State.setJob s j l a b) := by
  exact State.withJobs_keeps hP s _ oks

theorem State.withArrays_keeps {P : State → Prop} (hP : Opened [.tiles] P) (s : State) (c : Ctx) (k : State) (oks : P
    s) (okk : P k) : P (State.withArrays s c k) := by
  unfold State.withArrays
  try dsimp only
  repeat' first
    | with_reducible assumption | (intro _; try dsimp only) | with_reducible apply keeps_ite
    | with_reducible apply State.onTile_keeps hP | with_reducible apply State.waitUnit_keeps hP
    | with_reducible exact keeps_pair (by assumption) (by assumption) | (split <;> try dsimp only)

theorem State.arrTick_keeps {P : State → Prop} (hP : Opened [.registers, .tiles] P) (s : State) (j a n : Nat) (oks : P
    s) : P (State.arrTick s j a n) := by
  have h1 : Opened [.tiles] P := hP.mono (by decide)
  have h2 : Opened [.registers] P := hP.mono (by decide)
  unfold State.arrTick
  try dsimp only
  repeat' first
    | with_reducible assumption | (intro _; try dsimp only) | with_reducible apply keeps_ite
    | with_reducible apply State.onArr_keeps h1 | with_reducible apply State.setArr_keeps h2
    | with_reducible exact keeps_pair (by assumption) (by assumption) | (split <;> try dsimp only)

theorem State.arrEvent_keeps {P : State → Prop} (hP : Opened [.registers] P) (s : State) (f : Field) (j : Nat) (as :
    List Nat) (oks : P s) : P (State.arrEvent s f j as) := by
  unfold State.arrEvent
  try dsimp only
  repeat' first
    | with_reducible assumption | (intro _; try dsimp only) | with_reducible apply keeps_ite
    | with_reducible apply State.fset_keeps hP | with_reducible exact keeps_pair (by assumption) (by assumption)
    | (split <;> try dsimp only)

theorem State.feed_keeps {P : State → Prop} (hP : Opened [.registers, .tiles] P) (s : State) (j : Nat) (m : Mm) (p :
    Nat) (fed : List Nat) (wait : Nat) (oks : P s) : P (State.feed s j m p fed wait) := by
  have h1 : Opened [.tiles] P := hP.mono (by decide)
  have h2 : Opened [.registers] P := hP.mono (by decide)
  unfold State.feed
  try dsimp only
  repeat' first
    | with_reducible assumption | (intro _; try dsimp only) | with_reducible apply keeps_ite
    | with_reducible apply State.onArr_keeps h1 | with_reducible apply State.setArr_keeps h2
    | with_reducible apply keeps_foldl | with_reducible exact keeps_pair (by assumption) (by assumption)
    | (split <;> try dsimp only)

theorem State.rampDown_keeps {P : State → Prop} (hP : Opened [.registers, .tiles] P) (s : State) (j : Nat) (as : List
    Nat) (oks : P s) : P (State.rampDown s j as) := by
  have h1 : Opened [.tiles] P := hP.mono (by decide)
  have h2 : Opened [.registers] P := hP.mono (by decide)
  unfold State.rampDown
  try dsimp only
  repeat' first
    | with_reducible assumption | (intro _; try dsimp only) | with_reducible apply keeps_ite
    | with_reducible apply State.onArr_keeps h1 | with_reducible apply State.setArr_keeps h2
    | with_reducible apply keeps_foldl | with_reducible apply keeps_foldl1 | with_reducible apply keeps_foldl11
    | with_reducible exact keeps_pair (by assumption) (by assumption) | (split <;> try dsimp only)

theorem State.stopArrays_keeps {P : State → Prop} (hP : Opened [.registers, .tiles] P) (s : State) (j v : Nat) (as :
    List Nat) (oks : P s) : P (State.stopArrays s j v as) := by
  have h1 : Opened [.tiles] P := hP.mono (by decide)
  have h2 : Opened [.registers] P := hP.mono (by decide)
  unfold State.stopArrays
  try dsimp only
  repeat' first
    | with_reducible assumption | (intro _; try dsimp only) | with_reducible apply keeps_ite
    | with_reducible apply State.onArr_keeps h1 | with_reducible apply State.setArr_keeps h2
    | with_reducible apply keeps_foldl | with_reducible exact keeps_pair (by assumption) (by assumption)
    | (split <;> try dsimp only)

theorem State.arrayFault_keeps {P : State → Prop} (hP : Opened [.registers, .tiles, .parts] P) (s : State) (c : Ctx)
    (lead : Nat) (as : List Nat) (cause : Nat) (oks : P s) : P (State.arrayFault s c lead as cause) := by
  have h1 : Opened [.registers] P := hP.mono (by decide)
  have h2 : Opened [.tiles] P := hP.mono (by decide)
  have h3 : Opened [.registers, .tiles] P := hP.mono (by decide)
  unfold State.arrayFault
  try dsimp only
  repeat' first
    | with_reducible assumption | (intro _; try dsimp only) | with_reducible apply keeps_ite
    | with_reducible apply State.arrEvent_keeps h1 | with_reducible apply State.opEndFault_keeps hP
    | with_reducible apply State.setJob_keeps h2 | with_reducible apply State.stopArrays_keeps h3
    | with_reducible exact keeps_pair (by assumption) (by assumption) | (split <;> try dsimp only)

theorem State.swapHeld_keeps {P : State → Prop} (hP : Opened [.tiles] P) (s : State) (j : Nat) (as : List Nat) (needs
    : Bool) (oks : P s) : P (State.swapHeld s j as needs) := by
  unfold State.swapHeld
  try dsimp only
  repeat' first
    | with_reducible assumption | (intro _; try dsimp only) | with_reducible apply keeps_ite
    | with_reducible apply State.onArr_keeps hP | with_reducible apply keeps_foldl | with_reducible apply keeps_foldl1
    | with_reducible apply keeps_foldl11 | with_reducible exact keeps_pair (by assumption) (by assumption)
    | (split <;> try dsimp only)

theorem State.passTouch_keeps {P : State → Prop} (hP : Opened [.registers, .vectors, .memory, .controllers, .records,
    .management] P) (s : State) (c : Ctx) (m : Mm) (p : Nat) (oks : P s) : P (State.passTouch s c m p) := by
  unfold State.passTouch
  try dsimp only
  repeat' first
    | with_reducible assumption | (intro _; try dsimp only) | with_reducible apply keeps_ite
    | with_reducible apply State.opReads_keeps hP | with_reducible exact keeps_pair (by assumption) (by assumption)
    | (split <;> try dsimp only)

theorem State.startJob_keeps {P : State → Prop} (hP : Opened [.registers, .vectors, .memory, .controllers, .records,
    .tiles, .parts, .management] P) (s : State) (c : Ctx) (m : Mm) (oks : P s) : P (State.startJob s c m) := by
  have h1 : Opened [.registers, .tiles, .parts] P := hP.mono (by decide)
  have h2 : Opened [.registers, .tiles] P := hP.mono (by decide)
  have h3 : Opened [.tiles] P := hP.mono (by decide)
  have h4 : Opened [.registers, .vectors, .memory, .controllers, .records, .management] P := hP.mono (by decide)
  unfold State.startJob
  try dsimp only
  repeat' first
    | with_reducible assumption | (intro _; try dsimp only) | with_reducible apply keeps_ite
    | with_reducible apply State.arrayFault_keeps h1 | with_reducible apply State.feed_keeps h2
    | with_reducible apply State.onArr_keeps h3 | with_reducible apply State.onThr_keeps h3
    | with_reducible apply State.opDone_keeps h1 | with_reducible apply State.opReads_keeps h4
    | with_reducible apply State.passTouch_keeps h4 | with_reducible apply State.setJob_keeps h3
    | with_reducible apply keeps_foldl | with_reducible apply keeps_foldl1 | with_reducible apply keeps_foldl11
    | with_reducible exact keeps_pair (by assumption) (by assumption) | (split <;> try dsimp only)

theorem State.commitSet_keeps {P : State → Prop} (hP : Opened [.registers, .vectors, .memory, .controllers, .records,
    .management] P) (s : State) (c : Ctx) (m : Mm) (b : Job) (oks : P s) : P (State.commitSet s c m b).1 := by
  have h1 : Opened [.registers] P := hP.mono (by decide)
  unfold State.commitSet
  try dsimp only
  repeat' first
    | with_reducible assumption | (intro _; try dsimp only) | with_reducible apply keeps_ite1
    | with_reducible apply keeps_ite | with_reducible apply State.arrEvent_keeps h1
    | with_reducible apply State.fcount_keeps h1 | with_reducible apply State.numEv_keeps h1
    | with_reducible apply State.writeOutputs_keeps hP
    | with_reducible exact keeps_pair (by assumption) (by assumption)
    | (refine keeps_pair (by assumption) ?_; with_reducible apply State.writeOutputs_keeps hP)
    | (split <;> try dsimp only)

theorem State.endJob_keeps {P : State → Prop} (hP : Opened [.registers, .tiles, .parts] P) (s : State) (c : Ctx) (lead
    : Nat) (b : Job) (oks : P s) : P (State.endJob s c lead b) := by
  have h1 : Opened [.registers, .tiles] P := hP.mono (by decide)
  have h2 : Opened [.tiles] P := hP.mono (by decide)
  unfold State.endJob
  try dsimp only
  repeat' first
    | with_reducible assumption | (intro _; try dsimp only) | with_reducible apply keeps_ite
    | with_reducible apply State.arrayFault_keeps hP | with_reducible apply State.opDone_keeps hP
    | with_reducible apply State.rampDown_keeps h1 | with_reducible apply State.setJob_keeps h2
    | with_reducible exact keeps_pair (by assumption) (by assumption) | (split <;> try dsimp only)

theorem State.nextPass_keeps {P : State → Prop} (hP : Opened [.registers, .vectors, .memory, .controllers, .records,
    .tiles, .parts, .management] P) (s : State) (c : Ctx) (m : Mm) (lead : Nat) (b : Job) (oks : P s) : P
    (State.nextPass s c m lead b) := by
  have h1 : Opened [.registers, .tiles, .parts] P := hP.mono (by decide)
  have h2 : Opened [.registers, .tiles] P := hP.mono (by decide)
  have h3 : Opened [.registers, .vectors, .memory, .controllers, .records, .management] P := hP.mono (by decide)
  have h4 : Opened [.tiles] P := hP.mono (by decide)
  unfold State.nextPass
  try dsimp only
  repeat' first
    | with_reducible assumption | (intro _; try dsimp only) | with_reducible apply keeps_ite
    | with_reducible apply State.arrayFault_keeps h1 | with_reducible apply State.feed_keeps h2
    | with_reducible apply State.passTouch_keeps h3 | with_reducible apply State.setJob_keeps h4
    | with_reducible apply State.swapHeld_keeps h4 | with_reducible exact keeps_pair (by assumption) (by assumption)
    | (split <;> try dsimp only)

theorem State.saveSets_keeps {P : State → Prop} (hP : Opened [.registers, .vectors, .memory, .controllers, .records,
    .management] P) (s : State) (j l : Nat) (m : Mm) (b : Job) (oks : P s) : P (State.saveSets s j l m b) := by
  unfold State.saveSets
  try dsimp only
  repeat' first
    | with_reducible assumption | (intro _; try dsimp only) | with_reducible apply keeps_ite
    | with_reducible apply State.store_keeps hP | with_reducible apply keeps_foldl
    | with_reducible exact keeps_pair (by assumption) (by assumption) | (split <;> try dsimp only)

theorem State.countLevels_keeps {P : State → Prop} (hP : Opened [.registers] P) (s : State) (j : Nat) (oks : P s) : P
    (State.countLevels s j) := by
  unfold State.countLevels
  try dsimp only
  repeat' first
    | with_reducible assumption | (intro _; try dsimp only) | with_reducible apply keeps_ite
    | with_reducible apply State.fset_keeps hP | with_reducible exact keeps_pair (by assumption) (by assumption)
    | (split <;> try dsimp only)

theorem State.saveContext_keeps {P : State → Prop} (hP : Opened [.registers, .vectors, .memory, .controllers,
    .records, .management] P) (s : State) (j l : Nat) (oks : P s) : P (State.saveContext s j l) := by
  have h1 : Opened [.memory] P := hP.mono (by decide)
  unfold State.saveContext
  try dsimp only
  repeat' first
    | with_reducible assumption | (intro _; try dsimp only) | with_reducible apply keeps_ite
    | with_reducible apply State.store_keeps hP | with_reducible apply State.zero_keeps h1
    | with_reducible apply keeps_foldl | with_reducible apply keeps_foldl1 | with_reducible apply keeps_foldl11
    | with_reducible exact keeps_pair (by assumption) (by assumption) | (split <;> try dsimp only)

theorem State.parkJob_keeps {P : State → Prop} (hP : Opened [.registers, .vectors, .memory, .controllers, .records,
    .tiles, .management] P) (s : State) (c : Ctx) (m : Mm) (lead : Nat) (b : Job) (save : Bool) (oks : P s) : P
    (State.parkJob s c m lead b save) := by
  have h1 : Opened [.registers] P := hP.mono (by decide)
  have h2 : Opened [.registers, .vectors, .memory, .controllers, .records, .management] P := hP.mono (by decide)
  have h3 : Opened [.tiles] P := hP.mono (by decide)
  have h4 : Opened [.registers, .tiles] P := hP.mono (by decide)
  unfold State.parkJob
  try dsimp only
  repeat' first
    | with_reducible assumption | (intro _; try dsimp only) | with_reducible apply keeps_ite
    | with_reducible apply State.countLevels_keeps h1 | with_reducible apply State.saveContext_keeps h2
    | with_reducible apply State.saveSets_keeps h2 | with_reducible apply State.setJob_keeps h3
    | with_reducible apply State.stopArrays_keeps h4 | with_reducible exact keeps_pair (by assumption) (by assumption)
    | (split <;> try dsimp only)

theorem State.boundary_keeps {P : State → Prop} (hP : Opened [.registers, .vectors, .memory, .controllers, .records,
    .tiles, .parts, .management] P) (s : State) (c : Ctx) (m : Mm) (lead : Nat) (b : Job) (oks : P s) : P
    (State.boundary s c m lead b) := by
  have h1 : Opened [.registers, .vectors, .memory, .controllers, .records, .management] P := hP.mono (by decide)
  have h2 : Opened [.registers, .tiles, .parts] P := hP.mono (by decide)
  have h3 : Opened [.registers, .vectors, .memory, .controllers, .records, .tiles, .management] P := hP.mono (by
      decide)
  unfold State.boundary
  try dsimp only
  repeat' first
    | with_reducible assumption | (intro _; try dsimp only) | with_reducible apply keeps_ite
    | with_reducible apply State.commitSet_keeps h1 | with_reducible apply State.endJob_keeps h2
    | with_reducible apply State.parkJob_keeps h3 | with_reducible apply State.saveContext_keeps h1
    | with_reducible exact keeps_pair (by assumption) (by assumption)
    | (refine keeps_pair (by assumption) ?_; with_reducible apply State.commitSet_keeps h1)
    | (split <;> try dsimp only)

theorem State.passFault_keeps {P : State → Prop} (hP : Opened [.registers, .vectors, .memory, .controllers, .records,
    .tiles, .parts, .management] P) (s : State) (c : Ctx) (m : Mm) (lead : Nat) (b : Job) (poisoned : Bool) (oks : P
    s) : P (State.passFault s c m lead b poisoned) := by
  have h1 : Opened [.registers, .tiles, .parts] P := hP.mono (by decide)
  have h2 : Opened [.registers, .tiles] P := hP.mono (by decide)
  have h3 : Opened [.registers, .vectors, .memory, .controllers, .records, .tiles, .management] P := hP.mono (by
      decide)
  have h4 : Opened [.registers, .vectors, .memory, .controllers, .records, .management] P := hP.mono (by decide)
  have h5 : Opened [.registers] P := hP.mono (by decide)
  have h6 : Opened [.tiles] P := hP.mono (by decide)
  unfold State.passFault
  try dsimp only
  repeat' first
    | with_reducible assumption | (intro _; try dsimp only) | with_reducible apply keeps_ite
    | with_reducible apply State.arrayFault_keeps h1 | with_reducible apply State.feed_keeps h2
    | with_reducible apply State.parkJob_keeps h3 | with_reducible apply State.passTouch_keeps h4
    | with_reducible apply State.setArrs_keeps h5 | with_reducible apply State.setJob_keeps h6
    | with_reducible exact keeps_pair (by assumption) (by assumption) | (split <;> try dsimp only)

theorem State.cutJob_keeps {P : State → Prop} (hP : Opened [.registers, .tiles] P) (s : State) (c : Ctx) (m : Mm)
    (lead : Nat) (b : Job) (oks : P s) : P (State.cutJob s c m lead b) := by
  have h1 : Opened [.tiles] P := hP.mono (by decide)
  have h2 : Opened [.registers] P := hP.mono (by decide)
  unfold State.cutJob
  try dsimp only
  repeat' first
    | with_reducible assumption | (intro _; try dsimp only) | with_reducible apply keeps_ite
    | with_reducible apply State.onArr_keeps h1 | with_reducible apply State.setArr_keeps h2
    | with_reducible apply State.setJob_keeps h1 | with_reducible apply keeps_foldl | with_reducible apply keeps_foldl1
    | with_reducible apply keeps_foldl11 | with_reducible exact keeps_pair (by assumption) (by assumption)
    | (split <;> try dsimp only)

theorem State.askJob_keeps {P : State → Prop} (hP : Opened [.registers, .tiles] P) (s : State) (c : Ctx) (m : Mm)
    (lead : Nat) (b : Job) (urgent : Bool) (oks : P s) : P (State.askJob s c m lead b urgent) := by
  have h1 : Opened [.tiles] P := hP.mono (by decide)
  unfold State.askJob
  try dsimp only
  repeat' first
    | with_reducible assumption | (intro _; try dsimp only) | with_reducible apply keeps_ite
    | with_reducible apply State.cutJob_keeps hP | with_reducible apply State.setJob_keeps h1
    | with_reducible exact keeps_pair (by assumption) (by assumption) | (split <;> try dsimp only)

theorem State.askJobs_keeps {P : State → Prop} (hP : Opened [.registers, .tiles] P) (s : State) (p j l : Nat) (urgent
    : Bool) (oks : P s) : P (State.askJobs s p j l urgent) := by
  unfold State.askJobs
  try dsimp only
  repeat' first
    | with_reducible assumption | (intro _; try dsimp only) | with_reducible apply keeps_ite
    | with_reducible apply State.askJob_keeps hP | with_reducible apply keeps_foldl | with_reducible apply keeps_foldl1
    | with_reducible apply keeps_foldl11 | with_reducible exact keeps_pair (by assumption) (by assumption)
    | (split <;> try dsimp only)

theorem State.hitSave_keeps {P : State → Prop} (hP : Opened [.memory] P) (s : State) (j l : Nat) (b : Job) (oks : P s)
    : P (State.hitSave s j l b) := by
  unfold State.hitSave
  try dsimp only
  repeat' first
    | with_reducible assumption | (intro _; try dsimp only) | with_reducible apply keeps_ite
    | with_reducible apply State.setDelta_keeps hP | with_reducible exact keeps_pair (by assumption) (by assumption)
    | (split <;> try dsimp only)

theorem State.resumeJob_keeps {P : State → Prop} (hP : Opened [.registers, .vectors, .memory, .controllers, .records,
    .tiles, .parts, .management] P) (s : State) (c : Ctx) (m : Mm) (lead : Nat) (b : Job) (oks : P s) : P
    (State.resumeJob s c m lead b) := by
  have h1 : Opened [.registers, .tiles, .parts] P := hP.mono (by decide)
  have h2 : Opened [.registers, .tiles] P := hP.mono (by decide)
  have h3 : Opened [.registers, .vectors, .memory, .controllers, .records, .management] P := hP.mono (by decide)
  have h4 : Opened [.tiles] P := hP.mono (by decide)
  unfold State.resumeJob
  try dsimp only
  repeat' first
    | with_reducible assumption | (intro _; try dsimp only) | with_reducible apply keeps_ite
    | with_reducible apply State.arrayFault_keeps h1 | with_reducible apply State.feed_keeps h2
    | with_reducible apply State.opReads_keeps h3 | with_reducible apply State.passTouch_keeps h3
    | with_reducible apply State.setJob_keeps h4 | with_reducible exact keeps_pair (by assumption) (by assumption)
    | (split <;> try dsimp only)

theorem State.resumeJobs_keeps {P : State → Prop} (hP : Opened [.registers, .vectors, .memory, .controllers, .records,
    .tiles, .parts, .management] P) (s : State) (p l j : Nat) (oks : P s) : P (State.resumeJobs s p l j) := by
  unfold State.resumeJobs
  try dsimp only
  repeat' first
    | with_reducible assumption | (intro _; try dsimp only) | with_reducible apply keeps_ite
    | with_reducible apply State.resumeJob_keeps hP | with_reducible apply keeps_foldl
    | with_reducible apply keeps_foldl1 | with_reducible apply keeps_foldl11
    | with_reducible exact keeps_pair (by assumption) (by assumption) | (split <;> try dsimp only)

theorem State.mendPte_keeps {P : State → Prop} (hP : Opened [.registers, .vectors, .memory, .controllers, .answers,
    .records, .management] P) (s : State) (p slot l k : Nat) (oks : P s) : P (State.mendPte s p slot l k) := by
  have h1 : Opened [.memory] P := hP.mono (by decide)
  unfold State.mendPte
  try dsimp only
  repeat' first
    | with_reducible assumption | (intro _; try dsimp only) | with_reducible apply keeps_ite
    | with_reducible apply State.engSee_keeps hP | with_reducible apply State.setRecFlag_keeps hP
    | with_reducible apply State.storeClean_keeps h1 | with_reducible apply keeps_foldl
    | with_reducible apply keeps_foldl1 | with_reducible apply keeps_foldl11
    | with_reducible exact keeps_pair (by assumption) (by assumption) | (split <;> try dsimp only)

theorem State.onExec_keeps {P : State → Prop} (hP : Opened [.decks] P) (s : State) (p x : Nat) (f : Exec → Exec) (oks
    : P s) : P (State.onExec s p x f) := by
  exact (hP .decks (by decide)).2.1 s p x f oks

theorem State.markEntry_keeps {P : State → Prop} (hP : Opened [.registers, .vectors, .memory, .controllers, .answers,
    .records, .pages, .management] P) (s : State) (p slot l k : Nat) (oks : P s) : P (State.markEntry s p slot l k) :=
    by
  have h1 : Opened [.registers, .vectors, .memory, .controllers, .answers, .records, .management] P := hP.mono (by
      decide)
  unfold State.markEntry
  try dsimp only
  repeat' first
    | with_reducible assumption | (intro _; try dsimp only) | with_reducible apply keeps_ite
    | with_reducible apply State.engSee_keeps h1 | with_reducible apply State.mendPte_keeps h1
    | with_reducible apply State.seeLed_keeps h1 | with_reducible apply State.setPte_keeps h1
    | with_reducible apply State.setRecFlag_keeps h1 | with_reducible apply State.unref_keeps hP
    | with_reducible exact keeps_pair (by assumption) (by assumption) | (split <;> try dsimp only)

theorem State.markDropped_keeps {P : State → Prop} (hP : Opened [.registers, .vectors, .memory, .controllers,
    .answers, .records, .pages, .management] P) (s : State) (p slot : Nat) (oks : P s) : P (State.markDropped s p
    slot) := by
  unfold State.markDropped
  try dsimp only
  repeat' first
    | with_reducible assumption | (intro _; try dsimp only) | with_reducible apply keeps_ite
    | with_reducible apply State.markEntry_keeps hP | with_reducible apply keeps_foldl
    | with_reducible apply keeps_foldl1 | with_reducible apply keeps_foldl11
    | with_reducible exact keeps_pair (by assumption) (by assumption) | (split <;> try dsimp only)

theorem State.repairSess_keeps {P : State → Prop} (hP : Opened [.registers, .vectors, .memory, .controllers, .answers,
    .records, .pages, .management] P) (s : State) (p slot : Nat) (oks : P s) : P (State.repairSess s p slot) := by
  have h1 : Opened [.registers, .vectors, .memory, .controllers, .answers, .records, .management] P := hP.mono (by
      decide)
  unfold State.repairSess
  try dsimp only
  repeat' first
    | with_reducible assumption | (intro _; try dsimp only) | with_reducible apply keeps_ite
    | with_reducible apply State.sealing_keeps h1 | with_reducible apply State.setHdr_keeps h1
    | with_reducible apply State.setPte_keeps h1 | with_reducible apply State.unref_keeps hP
    | with_reducible apply keeps_foldl | with_reducible exact keeps_pair (by assumption) (by assumption)
    | (split <;> try dsimp only)

theorem State.cow_keeps {P : State → Prop} (hP : Opened [.registers, .vectors, .memory, .controllers, .answers,
    .records, .pages, .management] P) (s : State) (p slot l k : Nat) (oks : P s) : P (State.cow s p slot l k).1 := by
  have h1 : Opened [.registers, .vectors, .memory, .controllers, .answers, .records, .management] P := hP.mono (by
      decide)
  have h2 : Opened [.registers] P := hP.mono (by decide)
  unfold State.cow
  try dsimp only
  repeat' first
    | with_reducible assumption | (intro _; try dsimp only) | with_reducible apply keeps_ite1
    | with_reducible apply keeps_ite | with_reducible apply State.copyPage_keeps h1
    | with_reducible apply State.fcount_keeps h2 | with_reducible apply State.pin_keeps h1
    | with_reducible apply State.release_keeps hP | with_reducible apply State.sealFail_keeps h1
    | with_reducible apply State.setPte_keeps h1 | with_reducible apply State.setRecFlag_keeps h1
    | with_reducible apply State.unpin_keeps hP | with_reducible apply State.unref_keeps hP
    | with_reducible exact keeps_pair (by assumption) (by assumption)
    | (refine State.newPage_keeps hP ?_ (by assumption))
    | (refine keeps_pair (by assumption) ?_; with_reducible apply State.pin_keeps h1) | (split <;> try dsimp only)

theorem State.reservePages_keeps {P : State → Prop} (hP : Opened [.registers, .vectors, .memory, .controllers,
    .answers, .records, .pages, .management] P) (s : State) (p slot : Nat) (is : List (Nat × Nat × PageInit)) (oks : P
    s) : P (State.reservePages s p slot is).1 := by
  unfold State.reservePages
  try dsimp only
  repeat' first
    | with_reducible assumption | (intro _; try dsimp only) | with_reducible apply keeps_ite1
    | with_reducible apply keeps_ite | with_reducible apply keeps_foldl | with_reducible apply keeps_foldl1
    | with_reducible apply keeps_foldl11 | with_reducible exact keeps_pair (by assumption) (by assumption)
    | (refine State.newPage_keeps hP ?_ (by assumption)) | (split <;> try dsimp only)

theorem State.takePlan_keeps {P : State → Prop} (hP : Opened [.registers, .vectors, .memory, .controllers, .answers,
    .records, .pages, .management] P) (s : State) (p slot : Nat) (segs : List Nat) (droppable : Bool) (q : Plan) (oks
    : P s) : P (State.takePlan s p slot segs droppable q).1 := by
  unfold State.takePlan
  try dsimp only
  repeat' first
    | with_reducible assumption | (intro _; try dsimp only) | with_reducible apply keeps_ite1
    | with_reducible apply keeps_ite | with_reducible apply State.reservePages_keeps hP
    | with_reducible exact keeps_pair (by assumption) (by assumption)
    | (refine keeps_pair (by assumption) ?_; with_reducible apply State.reservePages_keeps hP)
    | (split <;> try dsimp only)

theorem State.unreserve_keeps {P : State → Prop} (hP : Opened [.registers, .vectors, .memory, .controllers, .answers,
    .records, .pages, .management] P) (s : State) (r : Resv) (oks : P s) : P (State.unreserve s r) := by
  unfold State.unreserve
  try dsimp only
  repeat' first
    | with_reducible assumption | (intro _; try dsimp only) | with_reducible apply keeps_ite
    | with_reducible apply State.unref_keeps hP | with_reducible apply keeps_foldl
    | with_reducible exact keeps_pair (by assumption) (by assumption) | (split <;> try dsimp only)

theorem State.coppiceEntry_keeps {P : State → Prop} (hP : Opened [.registers, .vectors, .memory, .controllers,
    .answers, .records, .pages, .management] P) (s : State) (p slot l k : Nat) (oks : P s) : P (State.coppiceEntry s p
    slot l k).1 := by
  have h1 : Opened [.registers, .vectors, .memory, .controllers, .answers, .records, .management] P := hP.mono (by
      decide)
  unfold State.coppiceEntry
  try dsimp only
  repeat' first
    | with_reducible assumption | (intro _; try dsimp only) | with_reducible apply keeps_ite1
    | with_reducible apply keeps_ite | with_reducible apply State.engSee_keeps h1
    | with_reducible apply State.mendPte_keeps h1 | with_reducible apply State.seeLed_keeps h1
    | with_reducible apply State.setPte_keeps h1 | with_reducible apply State.setRecFlag_keeps h1
    | with_reducible apply State.unref_keeps hP | with_reducible exact keeps_pair (by assumption) (by assumption)
    | (split <;> try dsimp only)

theorem State.coppice_keeps {P : State → Prop} (hP : Opened [.registers, .vectors, .memory, .controllers, .answers,
    .records, .pages, .management] P) (s : State) (p slot : Nat) (oks : P s) : P (State.coppice s p slot) := by
  have h1 : Opened [.registers] P := hP.mono (by decide)
  unfold State.coppice
  try dsimp only
  repeat' first
    | with_reducible assumption | (intro _; try dsimp only) | with_reducible apply keeps_ite
    | with_reducible apply State.coppiceEntry_keeps hP | with_reducible apply State.fcount_keeps h1
    | with_reducible apply keeps_foldl | with_reducible apply keeps_foldl1 | with_reducible apply keeps_foldl11
    | with_reducible exact keeps_pair (by assumption) (by assumption)
    | (refine keeps_pair (by assumption) ?_; with_reducible apply State.coppiceEntry_keeps hP)
    | (split <;> try dsimp only)

theorem State.coppiceFor_keeps {P : State → Prop} (hP : Opened [.registers, .vectors, .memory, .controllers, .answers,
    .records, .pages, .management] P) (s : State) (p need : Nat) (oks : P s) : P (State.coppiceFor s p need) := by
  unfold State.coppiceFor
  try dsimp only
  repeat' first
    | with_reducible assumption | (intro _; try dsimp only) | with_reducible apply keeps_ite
    | with_reducible apply State.coppice_keeps hP | with_reducible apply keeps_foldl
    | with_reducible exact keeps_pair (by assumption) (by assumption) | (split <;> try dsimp only)

theorem State.commitPage_keeps {P : State → Prop} (hP : Opened [.registers, .vectors, .memory, .controllers, .answers,
    .records, .management] P) (s : State) (p l pg n : Nat) (ring : Bool) (segs : List Nat)
    (ts : List (Nat × Option (Nat × Nat) × Nat)) (oks : P s) : P (State.commitPage s p l pg n ring segs ts) := by
  unfold State.commitPage
  try dsimp only
  repeat' first
    | with_reducible assumption | (intro _; try dsimp only) | with_reducible apply keeps_ite
    | with_reducible apply State.copySlot_keeps hP | with_reducible apply State.sealing_keeps hP
    | with_reducible apply State.setHdr_keeps hP | with_reducible apply keeps_foldl | with_reducible apply keeps_foldl1
    | with_reducible apply keeps_foldl11 | with_reducible exact keeps_pair (by assumption) (by assumption)
    | (split <;> try dsimp only)

theorem State.commitLayer_keeps {P : State → Prop} (hP : Opened [.registers, .vectors, .memory, .controllers,
    .answers, .records, .management] P) {s : State} {p : Nat} {r : Resv} {q : Kept} {ext : List PRange} {draft : List
    Nat} {l : Nat} (oks : P s) {t' : State} (e : s.commitLayer p r q ext draft l = .inl t') : P t' := by
  unfold State.commitLayer at e
  dsimp only at e
  split at e
  · simp at e
  · simp only [Sum.inl.injEq] at e
    rw [← e]
    repeat' first
      | with_reducible assumption | (intro _; try dsimp only) | with_reducible apply keeps_ite
      | with_reducible apply State.engSee_keeps hP | with_reducible apply State.setPte_keeps hP
      | with_reducible apply State.commitPage_keeps hP | with_reducible apply keeps_foldl | (split <;> try dsimp only)

theorem State.setRuns_keeps {P : State → Prop} (hP : Opened [.registers, .vectors, .memory, .controllers, .answers,
    .records, .management] P) (s : State) (p slot : Nat) (runs : List (Nat × Nat)) (oks : P s) : P (State.setRuns s p
    slot runs) := by
  unfold State.setRuns
  try dsimp only
  repeat' first
    | with_reducible assumption | (intro _; try dsimp only) | with_reducible apply keeps_ite
    | with_reducible apply State.setRec_keeps hP | with_reducible apply keeps_foldl | with_reducible apply keeps_foldl1
    | with_reducible apply keeps_foldl11 | with_reducible exact keeps_pair (by assumption) (by assumption)
    | (split <;> try dsimp only)

theorem State.commitRecord_keeps {P : State → Prop} (hP : Opened [.registers, .vectors, .memory, .controllers,
    .answers, .records, .management] P) (s : State) (p : Nat) (r : Resv) (q : Kept) (ext : List PRange) (oks : P s) :
    P (State.commitRecord s p r q ext) := by
  have h1 : Opened [.registers, .vectors] P := hP.mono (by decide)
  have h2 : Opened [.registers, .vectors, .records, .management] P := hP.mono (by decide)
  unfold State.commitRecord
  try dsimp only
  repeat' first
    | with_reducible assumption | (intro _; try dsimp only) | with_reducible apply keeps_ite
    | with_reducible apply State.evt_keeps h1 | with_reducible apply State.record_keeps h2
    | with_reducible apply State.setRec_keeps hP | with_reducible apply State.setRecFlag_keeps hP
    | with_reducible apply State.setRuns_keeps hP | with_reducible exact keeps_pair (by assumption) (by assumption)
    | (split <;> try dsimp only)

theorem State.commitStop_keeps {P : State → Prop} (hP : Opened [.registers, .vectors, .memory, .controllers, .answers,
    .records, .pages, .management] P) (s : State) (p slot : Nat) (ringDone : Bool) (oks : P s) : P (State.commitStop s
    p slot ringDone) := by
  have h1 : Opened [.registers, .vectors] P := hP.mono (by decide)
  have h2 : Opened [.registers, .vectors, .records, .management] P := hP.mono (by decide)
  have h3 : Opened [.registers, .vectors, .memory, .controllers, .answers, .records, .management] P := hP.mono (by
      decide)
  unfold State.commitStop
  try dsimp only
  repeat' first
    | with_reducible assumption | (intro _; try dsimp only) | with_reducible apply keeps_ite
    | with_reducible apply State.evt_keeps h1 | with_reducible apply State.record_keeps h2
    | with_reducible apply State.setPte_keeps h3 | with_reducible apply State.setRecFlag_keeps h3
    | with_reducible apply State.unref_keeps hP | with_reducible apply keeps_foldl | with_reducible apply keeps_foldl1
    | with_reducible apply keeps_foldl11 | with_reducible exact keeps_pair (by assumption) (by assumption)
    | (split <;> try dsimp only)

theorem State.commitSess_keeps {P : State → Prop} (hP : Opened [.registers, .vectors, .memory, .controllers, .answers,
    .records, .pages, .management] P) (s0 : State) (p : Nat) (r : Resv) (q : Kept) (draft : List Nat) (ue : Bool)
    (oks0 : P s0) : P (State.commitSess s0 p r q draft ue).1 := by
  have h1 : Opened [.registers, .vectors, .memory, .controllers, .answers, .records, .management] P := hP.mono (by
      decide)
  unfold State.commitSess
  try dsimp only
  repeat' first
    | with_reducible assumption | (intro _; try dsimp only) | with_reducible apply keeps_ite1
    | with_reducible apply keeps_ite | with_reducible apply State.commitRecord_keeps h1
    | with_reducible apply State.commitStop_keeps hP | with_reducible apply State.engSee_keeps h1
    | with_reducible apply State.engWrite_keeps h1 | with_reducible apply keeps_foldl
    | with_reducible apply keeps_foldl1 | with_reducible apply keeps_foldl11
    | with_reducible exact keeps_pair (by assumption) (by assumption)
    | (refine State.commitLayer_keeps h1 ?_ (by assumption)) | (split <;> try dsimp only)

theorem State.settle_keeps {P : State → Prop} (hP : Opened [.registers, .vectors, .memory, .controllers, .answers,
    .records, .pages, .management] P) (s : State) (p : Nat) (r : Resv) (oks : P s) : P (State.settle s p r) := by
  unfold State.settle
  try dsimp only
  repeat' first
    | with_reducible assumption | (intro _; try dsimp only) | with_reducible apply keeps_ite
    | with_reducible apply State.unreserve_keeps hP | with_reducible exact keeps_pair (by assumption) (by assumption)
    | (split <;> try dsimp only)

theorem State.regrowTake_keeps {P : State → Prop} (hP : Opened [.registers, .vectors, .memory, .controllers, .answers,
    .records, .pages, .management] P) (s : State) (p g : Nat) (r : Resv) (w : Regrow) (count : Nat) (droppable : Bool)
    (oks : P s) : P (State.regrowTake s p g r w count droppable).1 := by
  unfold State.regrowTake
  try dsimp only
  repeat' first
    | with_reducible assumption | (intro _; try dsimp only) | with_reducible apply keeps_ite1
    | with_reducible apply keeps_ite | with_reducible apply State.reservePages_keeps hP
    | with_reducible exact keeps_pair (by assumption) (by assumption)
    | (refine keeps_pair (by assumption) ?_; with_reducible apply State.reservePages_keeps hP)
    | (split <;> try dsimp only)

theorem State.regrowLayer_keeps {P : State → Prop} (hP : Opened [.registers, .vectors, .memory, .controllers,
    .answers, .records, .management] P) (s : State) (p : Nat) (r : Resv) (draft : List Nat) (l : Nat) (oks : P s) : P
    (State.regrowLayer s p r draft l) := by
  unfold State.regrowLayer
  try dsimp only
  repeat' first
    | with_reducible assumption | (intro _; try dsimp only) | with_reducible apply keeps_ite
    | with_reducible apply State.commitPage_keeps hP | with_reducible apply State.setPte_keeps hP
    | with_reducible apply keeps_foldl | with_reducible apply keeps_foldl1 | with_reducible apply keeps_foldl11
    | with_reducible exact keeps_pair (by assumption) (by assumption) | (split <;> try dsimp only)

theorem State.regrowCommit_keeps {P : State → Prop} (hP : Opened [.registers, .vectors, .memory, .controllers,
    .answers, .records, .management] P) (s : State) (p : Nat) (r : Resv) (draft : List Nat) (oks : P s) : P
    (State.regrowCommit s p r draft) := by
  unfold State.regrowCommit
  try dsimp only
  repeat' first
    | with_reducible assumption | (intro _; try dsimp only) | with_reducible apply keeps_ite
    | with_reducible apply State.regrowLayer_keeps hP | with_reducible apply keeps_foldl
    | with_reducible exact keeps_pair (by assumption) (by assumption) | (split <;> try dsimp only)

theorem State.regrowEnd_keeps {P : State → Prop} (hP : Opened [.registers, .vectors, .memory, .controllers, .answers,
    .records, .pages, .management] P) (s : State) (p : Nat) (r : Resv) (w : Regrow) (oks : P s) : P (State.regrowEnd s
    p r w) := by
  have h1 : Opened [.registers] P := hP.mono (by decide)
  have h2 : Opened [.registers, .vectors, .memory, .controllers, .answers, .records, .management] P := hP.mono (by
      decide)
  unfold State.regrowEnd
  try dsimp only
  repeat' first
    | with_reducible assumption | (intro _; try dsimp only) | with_reducible apply keeps_ite
    | with_reducible apply State.fcount_keeps h1 | with_reducible apply State.setPte_keeps h2
    | with_reducible apply State.setRec_keeps h2 | with_reducible apply State.setRecFlag_keeps h2
    | with_reducible apply State.settle_keeps hP | with_reducible apply keeps_foldl | with_reducible apply keeps_foldl1
    | with_reducible apply keeps_foldl11 | with_reducible exact keeps_pair (by assumption) (by assumption)
    | (split <;> try dsimp only)

theorem State.pinAll_keeps {P : State → Prop} (hP : Opened [.registers, .vectors, .memory, .controllers, .answers,
    .records, .management] P) {s : State} {pgs : List Nat} (oks : P s) {t' : State} (e : State.pinAll s pgs = some t')
    : P t' := by
  unfold State.pinAll at e
  have none_stays : ∀ l : List Nat, l.foldl (fun (a : Option State) pg => a.bind (fun t => match t.pin pg with
      | (_, .held) => none
      | (u, _) => some u)) none = none := by
    intro l
    induction l with
    | nil => rfl
    | cons _ _ ih => simpa using ih
  induction pgs generalizing s with
  | nil =>
    simp at e
    rw [← e]; exact oks
  | cons a l ih =>
    rw [List.foldl_cons, Option.bind_some] at e
    have h := State.pin_keeps hP s a oks
    split at e
    · exact absurd ((none_stays l).symm.trans e) (by simp)
    · rename_i hu
      rw [hu] at h
      exact ih h e

theorem State.attnDrop_keeps {P : State → Prop} (hP : Opened [.registers, .vectors, .memory, .controllers, .answers,
    .records, .pages, .thapel, .management] P) (s : State) (j l t : Nat) (oks : P s) : P (State.attnDrop s j l t) :=
    by
  have h1 : Opened [.registers, .vectors, .memory, .controllers, .answers, .records, .pages, .management] P := hP.mono
      (by decide)
  have h2 : Opened [.thapel] P := hP.mono (by decide)
  unfold State.attnDrop
  try dsimp only
  repeat' first
    | with_reducible assumption | (intro _; try dsimp only) | with_reducible apply keeps_ite
    | with_reducible apply State.unpin_keeps h1 | with_reducible apply State.withAttn_keeps h2
    | with_reducible apply State.withChans_keeps h2 | with_reducible apply State.withThapWait_keeps h2
    | with_reducible apply keeps_foldl | with_reducible apply keeps_foldl1 | with_reducible apply keeps_foldl11
    | with_reducible exact keeps_pair (by assumption) (by assumption) | (split <;> try dsimp only)

theorem State.failIo_keeps {P : State → Prop} (hP : Opened [.registers, .vectors, .memory, .controllers, .answers,
    .records, .tiles, .parts, .pages, .thapel, .management] P) (s : State) (c : Ctx) (cause : Nat) (oks : P s) : P
    (State.failIo s c cause) := by
  have h1 : Opened [.registers, .vectors, .memory, .controllers, .answers, .records, .pages, .thapel, .management] P
      := hP.mono (by decide)
  have h2 : Opened [.registers, .tiles, .parts] P := hP.mono (by decide)
  unfold State.failIo
  try dsimp only
  repeat' first
    | with_reducible assumption | (intro _; try dsimp only) | with_reducible apply keeps_ite
    | with_reducible apply State.attnDrop_keeps h1 | with_reducible apply State.opFault_keeps h2
    | with_reducible exact keeps_pair (by assumption) (by assumption) | (split <;> try dsimp only)

theorem State.gate_keeps {P : State → Prop} (hP : Opened [.registers, .vectors] P) {s : State} {c : Ctx} {q : YReq}
    (oks : P s) {t : State} (e : s.gate c q = .refused t) : P t := by
  unfold State.gate at e
  try dsimp only at e
  repeat' first
    | with_reducible assumption | (simp at e; done) | (simp only [Gate.refused.injEq] at e) | (obtain rfl := e)
    | (split at e <;> try dsimp only at e) | with_reducible apply State.windowMiss_keeps hP
    | with_reducible apply State.refusal_keeps hP

theorem State.onTag_keeps {P : State → Prop} (hP : Opened [.tiles] P) (s : State) (j g : Nat) (f : Tag → Tag) (oks : P
    s) : P (State.onTag s j g f) := by
  exact State.withTags_keeps hP s _ oks

theorem State.issueTag_keeps {P : State → Prop} (hP : Opened [.draws, .registers, .vectors, .memory, .controllers,
    .answers, .records, .tiles, .thapel, .management] P) (s : State) (c : Ctx) (g : Nat) (q : YReq) (level : Nat) (oks
    : P s) : P (State.issueTag s c g q level) := by
  have h1 : Opened [.thapel] P := hP.mono (by decide)
  have h2 : Opened [.tiles] P := hP.mono (by decide)
  have h3 : Opened [.draws, .registers, .vectors, .memory, .controllers, .answers, .records, .tiles, .management] P :=
      hP.mono (by decide)
  unfold State.issueTag
  try dsimp only
  repeat' first
    | with_reducible assumption | (intro _; try dsimp only) | with_reducible apply keeps_ite
    | with_reducible apply State.holdAt_keeps h1 | with_reducible apply State.onTag_keeps h2
    | with_reducible apply State.withChans_keeps h1 | with_reducible apply State.yServeTag_keeps h3
    | with_reducible exact keeps_pair (by assumption) (by assumption) | (split <;> try dsimp only)

theorem State.bankNext_keeps {P : State → Prop} (hP : Opened [.draws, .registers, .vectors, .memory, .controllers,
    .answers, .records, .tiles, .thapel, .management] P) (s : State) (b : Nat × Nat) (oks : P s) : P (State.bankNext s
    b) := by
  have h1 : Opened [.thapel] P := hP.mono (by decide)
  have h2 : Opened [.draws, .registers, .vectors, .memory, .controllers, .answers, .records, .tiles, .management] P :=
      hP.mono (by decide)
  unfold State.bankNext
  try dsimp only
  repeat' first
    | with_reducible assumption | (intro _; try dsimp only) | with_reducible apply keeps_ite
    | with_reducible apply State.withChans_keeps h1 | with_reducible apply State.yServeTag_keeps h2
    | with_reducible exact keeps_pair (by assumption) (by assumption) | (split <;> try dsimp only)

theorem State.issueOne_keeps {P : State → Prop} (hP : Opened [.draws, .registers, .vectors, .memory, .controllers,
    .answers, .records, .tiles, .parts, .pages, .thapel, .regulation, .management] P) (s : State) (c : Ctx) (oks : P
    s) : P (s.issueOne c).1 := by
  have h1 : Opened [.tiles] P := hP.mono (by decide)
  have h2 : Opened [.registers, .vectors, .regulation] P := hP.mono (by decide)
  have h3 : Opened [.registers, .vectors, .memory, .controllers, .answers, .records, .tiles, .parts, .pages, .thapel,
      .management] P := hP.mono (by decide)
  have h4 : Opened [.registers, .vectors] P := hP.mono (by decide)
  have h5 : Opened [.draws, .registers, .vectors, .memory, .controllers, .answers, .records, .tiles, .thapel,
      .management] P := hP.mono (by decide)
  unfold State.issueOne
  dsimp only
  split
  · split
    · exact oks
    · split
      · first | exact oks | exact State.onThr_keeps h1 _ _ _ _ _ oks
      · first | exact oks | exact State.onThr_keeps h1 _ _ _ _ _ oks
      · have hu := State.yardRelease_keeps h2 oks (by assumption)
        split
        · exact State.failIo_keeps h3 _ c 5 (State.gate_keeps h4 hu (by assumption))
        · first | exact oks | exact State.onThr_keeps h1 _ _ _ _ _ oks
      · have hu := State.yardRelease_keeps h2 oks (by assumption)
        exact State.onThr_keeps h1 _ _ _ _ _ (State.issueTag_keeps h5 _ _ _ _ _ hu)
  · exact oks

theorem State.issueThread_keeps {P : State → Prop} (hP : Opened [.draws, .registers, .vectors, .memory, .controllers,
    .answers, .records, .tiles, .parts, .pages, .thapel, .regulation, .management] P) (n : Nat) (s : State) (c : Ctx)
    (oks : P s) : P (State.issueThread n s c) := by
  induction n generalizing s with
  | zero => exact oks
  | succ n ih =>
    have h := State.issueOne_keeps hP s c oks
    unfold State.issueThread
    dsimp only
    split
    · exact ih _ h
    · exact h

theorem State.issueAll_keeps {P : State → Prop} (hP : Opened [.draws, .registers, .vectors, .memory, .controllers,
    .answers, .records, .tiles, .parts, .pages, .thapel, .regulation, .management] P) (s : State) (j : Nat) (oks : P
    s) : P (State.issueAll s j) := by
  unfold State.issueAll
  try dsimp only
  repeat' first
    | with_reducible assumption | (intro _; try dsimp only) | with_reducible apply keeps_ite
    | with_reducible apply State.issueThread_keeps hP | with_reducible apply keeps_foldl
    | with_reducible exact keeps_pair (by assumption) (by assumption) | (split <;> try dsimp only)

theorem State.request_keeps {P : State → Prop} (hP : Opened [.draws, .registers, .vectors, .memory, .controllers,
    .answers, .records, .tiles, .parts, .pages, .thapel, .regulation, .management] P) (s : State) (c : Ctx) (qs : List
    YReq) (oks : P s) : P (State.request s c qs) := by
  have h1 : Opened [.tiles] P := hP.mono (by decide)
  unfold State.request
  try dsimp only
  repeat' first
    | with_reducible assumption | (intro _; try dsimp only) | with_reducible apply keeps_ite
    | with_reducible apply State.issueAll_keeps hP | with_reducible apply State.onThr_keeps h1
    | with_reducible exact keeps_pair (by assumption) (by assumption) | (split <;> try dsimp only)

theorem State.withIo_keeps {P : State → Prop} (hP : Opened [.draws, .registers, .vectors, .memory, .controllers,
    .answers, .records, .tiles, .parts, .pages, .thapel, .regulation, .management] P) (s : State) (c : Ctx) (qs : List
    YReq) (k : State) (oks : P s) (okk : P k) : P (State.withIo s c qs k) := by
  unfold State.withIo
  try dsimp only
  repeat' first
    | with_reducible assumption | (intro _; try dsimp only) | with_reducible apply keeps_ite
    | with_reducible apply State.request_keeps hP | with_reducible exact keeps_pair (by assumption) (by assumption)
    | (split <;> try dsimp only)

theorem State.endWritten_keeps {P : State → Prop} (hP : Opened [.registers, .tiles, .parts] P) (s : State) (c : Ctx)
    (oks : P s) : P (State.endWritten s c) := by
  unfold State.endWritten
  try dsimp only
  repeat' first
    | with_reducible assumption | (intro _; try dsimp only) | with_reducible apply keeps_ite
    | with_reducible apply State.opDone_keeps hP | with_reducible apply State.opFault_keeps hP
    | with_reducible exact keeps_pair (by assumption) (by assumption) | (split <;> try dsimp only)

theorem State.noteEv_keeps {P : State → Prop} (hP : Opened [.registers, .tiles] P) (s : State) (c : Ctx) (e : NumEv)
    (oks : P s) : P (State.noteEv s c e) := by
  have h1 : Opened [.registers] P := hP.mono (by decide)
  have h2 : Opened [.tiles] P := hP.mono (by decide)
  unfold State.noteEv
  try dsimp only
  repeat' first
    | with_reducible assumption | (intro _; try dsimp only) | with_reducible apply keeps_ite
    | with_reducible apply State.numEv_keeps h1 | with_reducible apply State.onThr_keeps h2
    | with_reducible exact keeps_pair (by assumption) (by assumption) | (split <;> try dsimp only)

theorem State.putSlotBytes_keeps {P : State → Prop} (hP : Opened [.registers, .vectors, .memory, .controllers,
    .records, .management] P) (s : State) (j : Nat) (sl : Slot) (b : Nat) (bs : List Byte) (oks : P s) : P
    (State.putSlotBytes s j sl b bs) := by
  unfold State.putSlotBytes
  try dsimp only
  repeat' first
    | with_reducible assumption | (intro _; try dsimp only) | with_reducible apply keeps_ite
    | with_reducible apply State.store_keeps hP | with_reducible apply keeps_foldl | with_reducible apply keeps_foldl1
    | with_reducible apply keeps_foldl11 | with_reducible exact keeps_pair (by assumption) (by assumption)
    | (split <;> try dsimp only)

theorem State.vecEnd_keeps {P : State → Prop} (hP : Opened [.registers, .vectors, .memory, .controllers, .records,
    .tiles, .parts, .management] P) (s : State) (c : Ctx) (reads : List (Nat × Nat)) (go : State → State × NumEv) (oks
    : P s) (okgo : ∀ (t0 : State), P t0 → P (go t0).1) : P (State.vecEnd s c reads go) := by
  have h1 : Opened [.registers, .tiles, .parts] P := hP.mono (by decide)
  have h2 : Opened [.registers, .vectors, .memory, .controllers, .records, .management] P := hP.mono (by decide)
  unfold State.vecEnd
  try dsimp only
  repeat' first
    | with_reducible assumption | (intro _; try dsimp only) | with_reducible apply okgo
    | with_reducible apply keeps_ite | with_reducible apply State.finish_keeps h1
    | with_reducible apply State.opFault_keeps h1 | with_reducible apply State.opReads_keeps h2
    | with_reducible exact keeps_pair (by assumption) (by assumption) | (split <;> try dsimp only)

theorem State.startAs_keeps {P : State → Prop} (hP : Opened [.tiles] P) (s : State) (op j t : Nat) (f : Ctx → State)
    (oks : P s) (okf : ∀ (t0 : Ctx), P (f t0)) : P (State.startAs s op j t f) := by
  unfold State.startAs
  try dsimp only
  repeat' first
    | with_reducible assumption | (intro _; try dsimp only) | with_reducible apply okf | with_reducible apply keeps_ite
    | with_reducible apply State.issued_keeps hP | with_reducible exact keeps_pair (by assumption) (by assumption)
    | (split <;> try dsimp only)

theorem State.startVec_keeps {P : State → Prop} (hP : Opened [.registers, .vectors, .memory, .controllers, .answers,
    .records, .tiles, .parts, .pages, .thapel, .management] P) (s : State) (op j t : Nat) (parity : Bool) (f : Ctx →
    State) (oks : P s) (okf : ∀ (t0 : Ctx), P (f t0)) : P (State.startVec s op j t parity f) := by
  have h1 : Opened [.tiles] P := hP.mono (by decide)
  unfold State.startVec
  try dsimp only
  repeat' first
    | with_reducible assumption | (intro _; try dsimp only) | with_reducible apply okf | with_reducible apply keeps_ite
    | with_reducible apply State.failIo_keeps hP | with_reducible apply State.startAs_keeps h1
    | with_reducible exact keeps_pair (by assumption) (by assumption) | (split <;> try dsimp only)

theorem State.normOp_keeps {P : State → Prop} (hP : Opened [.registers, .vectors, .memory, .controllers, .records,
    .tiles, .parts, .management] P) (s : State) (c : Ctx) (oks : P s) : P (State.normOp s c) := by
  have h1 : Opened [.registers, .vectors, .memory, .controllers, .records, .management] P := hP.mono (by decide)
  unfold State.normOp
  try dsimp only
  repeat' first
    | with_reducible assumption | (intro _; try dsimp only) | with_reducible apply keeps_ite
    | with_reducible apply State.putRows_keeps h1 | with_reducible apply State.vecEnd_keeps hP
    | with_reducible exact keeps_pair (by assumption) (by assumption)
    | (refine keeps_pair (by assumption) ?_; with_reducible apply State.putRows_keeps h1) | (split <;> try dsimp only)

theorem State.ropeOp_keeps {P : State → Prop} (hP : Opened [.registers, .vectors, .memory, .controllers, .records,
    .tiles, .parts, .management] P) (s : State) (c : Ctx) (oks : P s) : P (State.ropeOp s c) := by
  have h1 : Opened [.registers, .vectors, .memory, .controllers, .records, .management] P := hP.mono (by decide)
  unfold State.ropeOp
  try dsimp only
  repeat' first
    | with_reducible assumption | (intro _; try dsimp only) | with_reducible apply keeps_ite
    | with_reducible apply State.putRows_keeps h1 | with_reducible apply State.vecEnd_keeps hP
    | with_reducible exact keeps_pair (by assumption) (by assumption)
    | (refine keeps_pair (by assumption) ?_; with_reducible apply State.putRows_keeps h1) | (split <;> try dsimp only)

theorem State.actOp_keeps {P : State → Prop} (hP : Opened [.registers, .vectors, .memory, .controllers, .records,
    .tiles, .parts, .management] P) (s : State) (c : Ctx) (oks : P s) : P (State.actOp s c) := by
  have h1 : Opened [.registers, .vectors, .memory, .controllers, .records, .management] P := hP.mono (by decide)
  unfold State.actOp
  try dsimp only
  repeat' first
    | with_reducible assumption | (intro _; try dsimp only) | with_reducible apply keeps_ite
    | with_reducible apply State.putElems_keeps h1 | with_reducible apply State.vecEnd_keeps hP
    | with_reducible apply keeps_foldl | with_reducible apply keeps_foldl1 | with_reducible apply keeps_foldl11
    | with_reducible exact keeps_pair (by assumption) (by assumption) | (split <;> try dsimp only)

theorem State.routeOp_keeps {P : State → Prop} (hP : Opened [.registers, .vectors, .memory, .controllers, .records,
    .tiles, .parts, .management] P) (s : State) (c : Ctx) (oks : P s) : P (State.routeOp s c) := by
  have h1 : Opened [.registers, .vectors, .memory, .controllers, .records, .management] P := hP.mono (by decide)
  unfold State.routeOp
  try dsimp only
  repeat' first
    | with_reducible assumption | (intro _; try dsimp only) | with_reducible apply keeps_ite
    | with_reducible apply State.putCodes_keeps h1 | with_reducible apply State.putRows_keeps h1
    | with_reducible apply State.vecEnd_keeps hP | with_reducible apply keeps_foldl | with_reducible apply keeps_foldl1
    | with_reducible apply keeps_foldl11 | with_reducible exact keeps_pair (by assumption) (by assumption)
    | (refine keeps_pair (by assumption) ?_; with_reducible apply State.putRows_keeps h1) | (split <;> try dsimp only)

theorem State.sampleOp_keeps {P : State → Prop} (hP : Opened [.registers, .vectors, .memory, .controllers, .records,
    .tiles, .parts, .decks, .management] P) (s : State) (c : Ctx) (oks : P s) : P (State.sampleOp s c) := by
  have h1 : Opened [.decks] P := hP.mono (by decide)
  have h2 : Opened [.registers, .vectors, .memory, .controllers, .records, .management] P := hP.mono (by decide)
  have h3 : Opened [.registers, .vectors, .memory, .controllers, .records, .tiles, .parts, .management] P := hP.mono
      (by decide)
  unfold State.sampleOp
  try dsimp only
  repeat' first
    | with_reducible assumption | (intro _; try dsimp only) | with_reducible apply keeps_ite
    | with_reducible apply State.onExec_keeps h1 | with_reducible apply State.putCodes_keeps h2
    | with_reducible apply State.vecEnd_keeps h3 | with_reducible exact keeps_pair (by assumption) (by assumption)
    | (split <;> try dsimp only)

theorem State.embedEnd_keeps {P : State → Prop} (hP : Opened [.draws, .registers, .vectors, .memory, .controllers,
    .records, .tiles, .parts, .management] P) (s : State) (c : Ctx) (oks : P s) : P (State.embedEnd s c) := by
  have h1 : Opened [.draws] P := hP.mono (by decide)
  have h2 : Opened [.registers, .tiles, .parts] P := hP.mono (by decide)
  have h3 : Opened [.registers, .vectors, .memory, .controllers, .records, .management] P := hP.mono (by decide)
  have h4 : Opened [.registers, .vectors, .memory, .controllers, .records, .tiles, .parts, .management] P := hP.mono
      (by decide)
  unfold State.embedEnd
  try dsimp only
  repeat' first
    | with_reducible assumption | (intro _; try dsimp only) | with_reducible apply keeps_ite
    | with_reducible apply State.draw_keeps h1 | with_reducible apply State.opFault_keeps h2
    | with_reducible apply State.putRows_keeps h3 | with_reducible apply State.vecEnd_keeps h4
    | with_reducible exact keeps_pair (by assumption) (by assumption)
    | (refine keeps_pair (by assumption) ?_; with_reducible apply State.putRows_keeps h3) | (split <;> try dsimp only)

theorem State.embedOp_keeps {P : State → Prop} (hP : Opened [.draws, .registers, .vectors, .memory, .controllers,
    .answers, .records, .tiles, .parts, .pages, .thapel, .regulation, .management] P) (s : State) (c : Ctx) (oks : P
    s) : P (State.embedOp s c) := by
  have h1 : Opened [.draws, .registers, .vectors, .memory, .controllers, .records, .tiles, .parts, .management] P :=
      hP.mono (by decide)
  have h2 : Opened [.registers, .vectors, .memory, .controllers, .records, .management] P := hP.mono (by decide)
  unfold State.embedOp
  try dsimp only
  repeat' first
    | with_reducible assumption | (intro _; try dsimp only) | with_reducible apply keeps_ite
    | with_reducible apply State.embedEnd_keeps h1 | with_reducible apply State.opReads_keeps h2
    | with_reducible apply State.withIo_keeps hP | with_reducible exact keeps_pair (by assumption) (by assumption)
    | (split <;> try dsimp only)

theorem State.reduceLocal_keeps {P : State → Prop} (hP : Opened [.registers, .vectors, .memory, .controllers,
    .records, .tiles, .parts, .management] P) (s : State) (c : Ctx) (i o : Slot) (oks : P s) : P (State.reduceLocal s
    c i o) := by
  have h1 : Opened [.registers] P := hP.mono (by decide)
  have h2 : Opened [.registers, .vectors, .memory, .controllers, .records, .management] P := hP.mono (by decide)
  unfold State.reduceLocal
  try dsimp only
  repeat' first
    | with_reducible assumption | (intro _; try dsimp only) | with_reducible apply keeps_ite
    | with_reducible apply State.flagIf_keeps h1 | with_reducible apply State.putCodes_keeps h2
    | with_reducible apply State.putFlat_keeps h2 | with_reducible apply State.vecEnd_keeps hP
    | with_reducible apply keeps_foldl | with_reducible apply keeps_foldl1 | with_reducible apply keeps_foldl11
    | with_reducible exact keeps_pair (by assumption) (by assumption)
    | (refine keeps_pair (by assumption) ?_; with_reducible apply State.putFlat_keeps h2) | (split <;> try dsimp only)

theorem State.reduceSend_keeps {P : State → Prop} (hP : Opened [.draws, .registers, .vectors, .memory, .controllers,
    .answers, .records, .tiles, .parts, .pages, .thapel, .regulation, .management] P) (s : State) (c : Ctx) (i : Slot)
    (oks : P s) : P (State.reduceSend s c i) := by
  have h1 : Opened [.registers, .tiles, .parts] P := hP.mono (by decide)
  have h2 : Opened [.registers, .vectors, .memory, .controllers, .records, .management] P := hP.mono (by decide)
  unfold State.reduceSend
  try dsimp only
  repeat' first
    | with_reducible assumption | (intro _; try dsimp only) | with_reducible apply keeps_ite
    | with_reducible apply State.opDone_keeps h1 | with_reducible apply State.opFault_keeps h1
    | with_reducible apply State.opReads_keeps h2 | with_reducible apply State.withIo_keeps hP
    | with_reducible exact keeps_pair (by assumption) (by assumption) | (split <;> try dsimp only)

theorem State.reduceOp_keeps {P : State → Prop} (hP : Opened [.draws, .registers, .vectors, .memory, .controllers,
    .answers, .records, .tiles, .parts, .pages, .thapel, .regulation, .management] P) (s : State) (c : Ctx) (oks : P
    s) : P (State.reduceOp s c) := by
  have h1 : Opened [.registers, .vectors, .memory, .controllers, .records, .tiles, .parts, .management] P := hP.mono
      (by decide)
  unfold State.reduceOp
  try dsimp only
  repeat' first
    | with_reducible assumption | (intro _; try dsimp only) | with_reducible apply keeps_ite
    | with_reducible apply State.reduceLocal_keeps h1 | with_reducible apply State.reduceSend_keeps hP
    | with_reducible exact keeps_pair (by assumption) (by assumption) | (split <;> try dsimp only)

theorem State.tagTimeout_keeps {P : State → Prop} (hP : Opened [.registers, .vectors, .memory, .controllers, .answers,
    .records, .tiles, .parts, .pages, .thapel, .management] P) (s : State) (j t : Nat) (oks : P s) : P
    (State.tagTimeout s j t) := by
  have h1 : Opened [.tiles] P := hP.mono (by decide)
  unfold State.tagTimeout
  try dsimp only
  repeat' first
    | with_reducible assumption | (intro _; try dsimp only) | with_reducible apply keeps_ite
    | with_reducible apply State.failIo_keeps hP | with_reducible apply State.onTag_keeps h1
    | with_reducible exact keeps_pair (by assumption) (by assumption) | (split <;> try dsimp only)

theorem State.ownReads_keeps {P : State → Prop} (hP : Opened [.registers, .vectors, .memory, .controllers, .records,
    .management] P) (s : State) (c : Ctx) (rs : List (Nat × Nat)) (oks : P s) : P (State.ownReads s c rs) := by
  unfold State.ownReads
  try dsimp only
  repeat' first
    | with_reducible assumption | (intro _; try dsimp only) | with_reducible apply keeps_ite
    | with_reducible apply State.readRange_keeps hP | with_reducible apply keeps_foldl
    | with_reducible apply keeps_foldl1 | with_reducible apply keeps_foldl11
    | with_reducible exact keeps_pair (by assumption) (by assumption) | (split <;> try dsimp only)

theorem State.copyHere_keeps {P : State → Prop} (hP : Opened [.registers, .vectors, .memory, .controllers, .records,
    .management] P) (s : State) (x : CopyEnd × CopyEnd × Nat) (oks : P s) : P (State.copyHere s x) := by
  unfold State.copyHere
  try dsimp only
  repeat' first
    | with_reducible assumption | (intro _; try dsimp only) | with_reducible apply keeps_ite
    | with_reducible apply State.move_keeps hP | with_reducible exact keeps_pair (by assumption) (by assumption)
    | (split <;> try dsimp only)

theorem State.copyOp_keeps {P : State → Prop} (hP : Opened [.draws, .registers, .vectors, .memory, .controllers,
    .answers, .records, .tiles, .parts, .pages, .thapel, .regulation, .management] P) (s : State) (c : Ctx) (oks : P
    s) : P (State.copyOp s c) := by
  have h1 : Opened [.registers, .vectors, .memory, .controllers, .records, .management] P := hP.mono (by decide)
  have h2 : Opened [.registers, .tiles, .parts] P := hP.mono (by decide)
  unfold State.copyOp
  try dsimp only
  repeat' first
    | with_reducible assumption | (intro _; try dsimp only) | with_reducible apply keeps_ite
    | with_reducible apply State.copyHere_keeps h1 | with_reducible apply State.opDone_keeps h2
    | with_reducible apply State.ownReads_keeps h1 | with_reducible apply State.withIo_keeps hP
    | with_reducible apply keeps_foldl | with_reducible apply keeps_foldl1 | with_reducible apply keeps_foldl11
    | with_reducible exact keeps_pair (by assumption) (by assumption) | (split <;> try dsimp only)

theorem State.dispatchEnd_keeps {P : State → Prop} (hP : Opened [.registers, .vectors, .records, .tiles, .parts,
    .management] P) (s : State) (c : Ctx) (oks : P s) : P (State.dispatchEnd s c) := by
  have h1 : Opened [.registers, .tiles, .parts] P := hP.mono (by decide)
  unfold State.dispatchEnd
  try dsimp only
  repeat' first
    | with_reducible assumption | (intro _; try dsimp only) | with_reducible apply keeps_ite
    | with_reducible apply State.ifSems_keeps hP | with_reducible apply State.opDone_keeps h1
    | with_reducible apply State.semAdd_keeps h1 | with_reducible apply keeps_foldl | with_reducible apply keeps_foldl1
    | with_reducible apply keeps_foldl11 | with_reducible exact keeps_pair (by assumption) (by assumption)
    | (split <;> try dsimp only)

theorem State.dispatchOp_keeps {P : State → Prop} (hP : Opened [.draws, .registers, .vectors, .memory, .controllers,
    .answers, .records, .tiles, .parts, .pages, .thapel, .regulation, .management] P) (s : State) (c : Ctx) (oks : P
    s) : P (State.dispatchOp s c) := by
  have h1 : Opened [.registers, .vectors, .records, .tiles, .parts, .management] P := hP.mono (by decide)
  have h2 : Opened [.registers] P := hP.mono (by decide)
  have h3 : Opened [.registers, .tiles, .parts] P := hP.mono (by decide)
  have h4 : Opened [.registers, .vectors, .memory, .controllers, .records, .management] P := hP.mono (by decide)
  unfold State.dispatchOp
  try dsimp only
  repeat' first
    | with_reducible assumption | (intro _; try dsimp only) | with_reducible apply keeps_ite
    | with_reducible apply State.dispatchEnd_keeps h1 | with_reducible apply State.flagIf_keeps h2
    | with_reducible apply State.opFault_keeps h3 | with_reducible apply State.opReads_keeps h4
    | with_reducible apply State.withIo_keeps hP | with_reducible exact keeps_pair (by assumption) (by assumption)
    | (split <;> try dsimp only)

theorem State.combineEnd_keeps {P : State → Prop} (hP : Opened [.registers, .vectors, .records, .tiles, .parts,
    .management] P) (s : State) (c : Ctx) (oks : P s) : P (State.combineEnd s c) := by
  have h1 : Opened [.registers, .tiles, .parts] P := hP.mono (by decide)
  unfold State.combineEnd
  try dsimp only
  repeat' first
    | with_reducible assumption | (intro _; try dsimp only) | with_reducible apply keeps_ite
    | with_reducible apply State.endWritten_keeps h1 | with_reducible apply State.ifSems_keeps hP
    | with_reducible apply State.semAdd_keeps h1 | with_reducible apply keeps_foldl | with_reducible apply keeps_foldl1
    | with_reducible apply keeps_foldl11 | with_reducible exact keeps_pair (by assumption) (by assumption)
    | (split <;> try dsimp only)

theorem State.combineOp_keeps {P : State → Prop} (hP : Opened [.draws, .registers, .vectors, .memory, .controllers,
    .answers, .records, .tiles, .parts, .pages, .thapel, .regulation, .management] P) (s : State) (c : Ctx) (oks : P
    s) : P (State.combineOp s c) := by
  have h1 : Opened [.registers, .vectors, .records, .tiles, .parts, .management] P := hP.mono (by decide)
  have h2 : Opened [.registers, .tiles] P := hP.mono (by decide)
  have h3 : Opened [.registers, .tiles, .parts] P := hP.mono (by decide)
  have h4 : Opened [.registers, .vectors, .memory, .controllers, .records, .management] P := hP.mono (by decide)
  unfold State.combineOp
  try dsimp only
  repeat' first
    | with_reducible assumption | (intro _; try dsimp only) | with_reducible apply keeps_ite
    | with_reducible apply State.combineEnd_keeps h1 | with_reducible apply State.noteEv_keeps h2
    | with_reducible apply State.opFault_keeps h3 | with_reducible apply State.opReads_keeps h4
    | with_reducible apply State.withIo_keeps hP | with_reducible exact keeps_pair (by assumption) (by assumption)
    | (split <;> try dsimp only)

theorem State.appendOp_keeps {P : State → Prop} (hP : Opened [.draws, .registers, .vectors, .memory, .controllers,
    .answers, .records, .tiles, .parts, .pages, .thapel, .regulation, .management] P) (s : State) (c : Ctx) (oks : P
    s) : P (State.appendOp s c) := by
  have h1 : Opened [.registers, .tiles, .parts] P := hP.mono (by decide)
  have h2 : Opened [.registers, .tiles] P := hP.mono (by decide)
  have h3 : Opened [.registers, .vectors, .memory, .controllers, .records, .management] P := hP.mono (by decide)
  unfold State.appendOp
  try dsimp only
  repeat' first
    | with_reducible assumption | (intro _; try dsimp only) | with_reducible apply keeps_ite
    | with_reducible apply State.endWritten_keeps h1 | with_reducible apply State.noteEv_keeps h2
    | with_reducible apply State.opFault_keeps h1 | with_reducible apply State.opReads_keeps h3
    | with_reducible apply State.withIo_keeps hP | with_reducible apply keeps_foldl | with_reducible apply keeps_foldl1
    | with_reducible apply keeps_foldl11 | with_reducible exact keeps_pair (by assumption) (by assumption)
    | (split <;> try dsimp only)

theorem State.pageFails_keeps {P : State → Prop} (hP : Opened [.registers, .vectors, .memory, .controllers, .answers,
    .records, .management] P) (s : State) (c : Ctx) (l pg handle : Nat) (oks : P s) : P (State.pageFails s c l pg
    handle) := by
  have h1 : Opened [.registers, .vectors, .memory, .controllers, .records, .management] P := hP.mono (by decide)
  unfold State.pageFails
  try dsimp only
  repeat' first
    | with_reducible assumption | (intro _; try dsimp only) | with_reducible apply keeps_ite
    | with_reducible apply State.readRange_keeps h1 | with_reducible apply State.sealFail_keeps hP
    | with_reducible exact keeps_pair (by assumption) (by assumption) | (split <;> try dsimp only)

theorem State.withPages_keeps {P : State → Prop} (hP : Opened [.registers, .vectors, .memory, .controllers, .answers,
    .records, .tiles, .parts, .pages, .thapel, .management] P) (s : State) (c : Ctx) (l : Nat) (ps : List (Nat ×
    APage)) (k : State) (oks : P s) (okk : P k) : P (State.withPages s c l ps k) := by
  have h1 : Opened [.registers, .vectors, .memory, .controllers, .answers, .records, .management] P := hP.mono (by
      decide)
  unfold State.withPages
  try dsimp only
  repeat' first
    | with_reducible assumption | (intro _; try dsimp only) | with_reducible apply keeps_ite
    | with_reducible apply State.failIo_keeps hP | with_reducible apply State.pageFails_keeps h1
    | with_reducible exact keeps_pair (by assumption) (by assumption) | (split <;> try dsimp only)

theorem State.putAttn_keeps {P : State → Prop} (hP : Opened [.registers, .vectors, .memory, .controllers, .records,
    .management] P) (s : State) (c : Ctx) (parts r0 : Nat) (rs : List (List ARec)) (oks : P s) : P (State.putAttn s c
    parts r0 rs).1 := by
  have h1 : Opened [.registers] P := hP.mono (by decide)
  unfold State.putAttn
  try dsimp only
  repeat' first
    | with_reducible assumption | (intro _; try dsimp only) | with_reducible apply keeps_ite1
    | with_reducible apply keeps_ite | with_reducible apply State.flagIf_keeps h1
    | with_reducible apply State.putRows_keeps hP | with_reducible exact keeps_pair (by assumption) (by assumption)
    | (refine keeps_pair (by assumption) ?_; with_reducible apply State.putRows_keeps hP) | (split <;> try dsimp only)

theorem State.recNan_keeps {P : State → Prop} (hP : Opened [.registers] P) (s : State) (c : Ctx) (nan : Bool) (oks : P
    s) : P (State.recNan s c nan) := by
  unfold State.recNan
  try dsimp only
  repeat' first
    | with_reducible assumption | (intro _; try dsimp only) | with_reducible apply keeps_ite
    | with_reducible apply State.flagIf_keeps hP | with_reducible exact keeps_pair (by assumption) (by assumption)
    | (split <;> try dsimp only)

theorem State.prefillEnd_keeps {P : State → Prop} (hP : Opened [.registers, .vectors, .memory, .controllers, .answers,
    .records, .tiles, .parts, .pages, .thapel, .management] P) (s : State) (c : Ctx) (oks : P s) : P (State.prefillEnd
    s c) := by
  have h1 : Opened [.registers, .vectors, .memory, .controllers, .answers, .records, .pages, .thapel, .management] P
      := hP.mono (by decide)
  have h2 : Opened [.registers, .vectors, .memory, .controllers, .records, .management] P := hP.mono (by decide)
  have h3 : Opened [.registers] P := hP.mono (by decide)
  have h4 : Opened [.registers, .vectors, .memory, .controllers, .records, .tiles, .parts, .management] P := hP.mono
      (by decide)
  unfold State.prefillEnd
  try dsimp only
  repeat' first
    | with_reducible assumption | (intro _; try dsimp only) | with_reducible apply keeps_ite
    | with_reducible apply State.attnDrop_keeps h1 | with_reducible apply State.putAttn_keeps h2
    | with_reducible apply State.recNan_keeps h3 | with_reducible apply State.vecEnd_keeps h4
    | with_reducible apply State.withPages_keeps hP | with_reducible exact keeps_pair (by assumption) (by assumption)
    | (refine keeps_pair (by assumption) ?_; with_reducible apply State.putAttn_keeps h2) | (split <;> try dsimp only)

theorem State.decodeFinish_keeps {P : State → Prop} (hP : Opened [.registers, .vectors, .memory, .controllers,
    .answers, .records, .tiles, .parts, .pages, .thapel, .management] P) (s : State) (c : Ctx) (l : Nat) (q : Slot)
    (thapel : Nat → Option (List (List ARec))) (oks : P s) : P (State.decodeFinish s c l q thapel) := by
  have h1 : Opened [.registers, .vectors, .memory, .controllers, .answers, .records, .pages, .thapel, .management] P
      := hP.mono (by decide)
  have h2 : Opened [.registers, .vectors, .memory, .controllers, .records, .management] P := hP.mono (by decide)
  have h3 : Opened [.registers] P := hP.mono (by decide)
  have h4 : Opened [.registers, .vectors, .memory, .controllers, .records, .tiles, .parts, .management] P := hP.mono
      (by decide)
  unfold State.decodeFinish
  try dsimp only
  repeat' first
    | with_reducible assumption | (intro _; try dsimp only) | with_reducible apply keeps_ite
    | with_reducible apply State.attnDrop_keeps h1 | with_reducible apply State.putAttn_keeps h2
    | with_reducible apply State.recNan_keeps h3 | with_reducible apply State.vecEnd_keeps h4
    | with_reducible apply State.withPages_keeps hP | with_reducible exact keeps_pair (by assumption) (by assumption)
    | (refine keeps_pair (by assumption) ?_; with_reducible apply State.putAttn_keeps h2) | (split <;> try dsimp only)

theorem State.decodeEnd_keeps {P : State → Prop} (hP : Opened [.registers, .vectors, .memory, .controllers, .answers,
    .records, .tiles, .parts, .pages, .thapel, .management] P) (s : State) (c : Ctx) (oks : P s) : P (State.decodeEnd
    s c) := by
  unfold State.decodeEnd
  try dsimp only
  repeat' first
    | with_reducible assumption | (intro _; try dsimp only) | with_reducible apply keeps_ite
    | with_reducible apply State.decodeFinish_keeps hP
    | with_reducible exact keeps_pair (by assumption) (by assumption) | (split <;> try dsimp only)

theorem State.bwdEnd_keeps {P : State → Prop} (hP : Opened [.registers, .vectors, .memory, .controllers, .answers,
    .records, .tiles, .parts, .pages, .thapel, .management] P) (s : State) (c : Ctx) (oks : P s) : P (State.bwdEnd s
    c) := by
  have h1 : Opened [.registers, .vectors, .memory, .controllers, .answers, .records, .pages, .thapel, .management] P
      := hP.mono (by decide)
  have h2 : Opened [.registers, .vectors, .memory, .controllers, .records, .management] P := hP.mono (by decide)
  have h3 : Opened [.registers, .vectors, .memory, .controllers, .records, .tiles, .parts, .management] P := hP.mono
      (by decide)
  unfold State.bwdEnd
  try dsimp only
  repeat' first
    | with_reducible assumption | (intro _; try dsimp only) | with_reducible apply keeps_ite
    | with_reducible apply State.attnDrop_keeps h1 | with_reducible apply State.putRows_keeps h2
    | with_reducible apply State.vecEnd_keeps h3 | with_reducible apply State.withPages_keeps hP
    | with_reducible exact keeps_pair (by assumption) (by assumption)
    | (refine keeps_pair (by assumption) ?_; with_reducible apply State.putRows_keeps h2) | (split <;> try dsimp only)

theorem State.attnEnd_keeps {P : State → Prop} (hP : Opened [.registers, .vectors, .memory, .controllers, .answers,
    .records, .tiles, .parts, .pages, .thapel, .management] P) (s : State) (c : Ctx) (oks : P s) : P (State.attnEnd s
    c) := by
  have h1 : Opened [.tiles] P := hP.mono (by decide)
  unfold State.attnEnd
  try dsimp only
  repeat' first
    | with_reducible assumption | (intro _; try dsimp only) | with_reducible apply keeps_ite
    | with_reducible apply State.bwdEnd_keeps hP | with_reducible apply State.decodeEnd_keeps hP
    | with_reducible apply State.prefillEnd_keeps hP | with_reducible apply State.withArrays_keeps h1
    | with_reducible exact keeps_pair (by assumption) (by assumption) | (split <;> try dsimp only)

theorem State.afterIo_keeps {P : State → Prop} (hP : Opened [.draws, .registers, .vectors, .memory, .controllers,
    .answers, .records, .tiles, .parts, .pages, .thapel, .management] P) (s : State) (c : Ctx) (oks : P s) : P
    (State.afterIo s c) := by
  have h1 : Opened [.registers, .vectors, .memory, .controllers, .answers, .records, .tiles, .parts, .pages, .thapel,
      .management] P := hP.mono (by decide)
  have h2 : Opened [.registers, .vectors, .records, .tiles, .parts, .management] P := hP.mono (by decide)
  have h3 : Opened [.draws, .registers, .vectors, .memory, .controllers, .records, .tiles, .parts, .management] P :=
      hP.mono (by decide)
  have h4 : Opened [.registers, .tiles, .parts] P := hP.mono (by decide)
  have h5 : Opened [.tiles] P := hP.mono (by decide)
  unfold State.afterIo
  try dsimp only
  repeat' first
    | with_reducible assumption | (intro _; try dsimp only) | with_reducible apply keeps_ite
    | with_reducible apply State.attnEnd_keeps h1 | with_reducible apply State.combineEnd_keeps h2
    | with_reducible apply State.dispatchEnd_keeps h2 | with_reducible apply State.embedEnd_keeps h3
    | with_reducible apply State.endWritten_keeps h4 | with_reducible apply State.onThr_keeps h5
    | with_reducible apply State.opDone_keeps h4 | with_reducible exact keeps_pair (by assumption) (by assumption)
    | (split <;> try dsimp only)

theorem State.yarderEnd_keeps {P : State → Prop} (hP : Opened [.draws, .registers, .vectors, .memory, .controllers,
    .answers, .records, .tiles, .parts, .pages, .thapel, .management] P) (s : State) (c : Ctx) (oks : P s) : P
    (State.yarderEnd s c) := by
  unfold State.yarderEnd
  try dsimp only
  repeat' first
    | with_reducible assumption | (intro _; try dsimp only) | with_reducible apply keeps_ite
    | with_reducible apply State.afterIo_keeps hP | with_reducible exact keeps_pair (by assumption) (by assumption)
    | (split <;> try dsimp only)

theorem State.readPages_keeps {P : State → Prop} (hP : Opened [.draws, .registers, .vectors, .memory, .controllers,
    .answers, .records, .tiles, .parts, .pages, .thapel, .regulation, .management] P) (s s0 : State) (c : Ctx) (l :
    Nat) (xs : List (Nat × Bool × Option (List APage) × List Step)) (oks : P s) (oks0 : P s0) : P (State.readPages s
    s0 c l xs) := by
  have h1 : Opened [.registers, .tiles, .parts] P := hP.mono (by decide)
  have h2 : Opened [.tiles] P := hP.mono (by decide)
  have h3 : Opened [.thapel] P := hP.mono (by decide)
  have h4 : Opened [.draws, .registers, .vectors, .memory, .controllers, .answers, .records, .tiles, .parts, .pages,
      .thapel, .management] P := hP.mono (by decide)
  have h5 : Opened [.registers, .vectors, .memory, .controllers, .answers, .records, .management] P := hP.mono (by
      decide)
  unfold State.readPages
  try dsimp only
  repeat' first
    | with_reducible assumption | (intro _; try dsimp only) | with_reducible apply keeps_ite
    | with_reducible apply State.opFault_keeps h1 | with_reducible apply State.request_keeps hP
    | with_reducible apply State.waitUnit_keeps h2 | with_reducible apply State.withAttn_keeps h3
    | with_reducible apply State.withStepNo_keeps h3 | with_reducible apply State.withThapWait_keeps h3
    | with_reducible apply State.yarderEnd_keeps h4 | with_reducible exact keeps_pair (by assumption) (by assumption)
    | (refine State.pinAll_keeps h5 ?_ (by assumption)) | (split <;> try dsimp only)

theorem State.seqOp_keeps {P : State → Prop} (hP : Opened [.draws, .registers, .vectors, .memory, .controllers,
    .answers, .records, .tiles, .parts, .pages, .thapel, .regulation, .management] P) (s : State) (c : Ctx) (k :
    State) (oks : P s) (okk : P k) : P (State.seqOp s c k) := by
  have h1 : Opened [.tiles] P := hP.mono (by decide)
  unfold State.seqOp
  try dsimp only
  repeat' first
    | with_reducible assumption | (intro _; try dsimp only) | with_reducible apply keeps_ite
    | with_reducible apply State.readPages_keeps hP | with_reducible apply State.withArrays_keeps h1
    | with_reducible exact keeps_pair (by assumption) (by assumption) | (split <;> try dsimp only)

theorem State.decodeOp_keeps {P : State → Prop} (hP : Opened [.draws, .registers, .vectors, .memory, .controllers,
    .answers, .records, .tiles, .parts, .pages, .thapel, .regulation, .management] P) (s : State) (c : Ctx) (oks : P
    s) : P (State.decodeOp s c) := by
  have h1 : Opened [.registers] P := hP.mono (by decide)
  unfold State.decodeOp
  try dsimp only
  repeat' first
    | with_reducible assumption | (intro _; try dsimp only) | with_reducible apply keeps_ite
    | with_reducible apply State.fcountN_keeps h1 | with_reducible apply State.flagIf_keeps h1
    | with_reducible apply State.readPages_keeps hP | with_reducible exact keeps_pair (by assumption) (by assumption)
    | (split <;> try dsimp only)

end Sys2Proof.Machine
end

