-- ==== Sys2Proof/Laws/KeepsDecks.lean ====
section
/-!
SUPPORT. What every operation keeps: a predicate that is open in the areas an operation writes holds after it. Here: the operations of regulation, registers, decks, channels, instances, the log and links.
-/

namespace Sys2Proof.Machine

set_option linter.all false

theorem State.issueHeld_keeps {P : State → Prop} (hP : Opened [.draws, .registers, .vectors, .memory, .controllers,
    .answers, .records, .tiles, .parts, .pages, .thapel, .regulation, .management] P) (s : State) (h m : Nat) (oks : P
    s) : P (State.issueHeld s h m) := by
  unfold State.issueHeld
  try dsimp only
  repeat' first
    | with_reducible assumption | (intro _; try dsimp only) | with_reducible apply keeps_ite
    | with_reducible apply State.issueAll_keeps hP | with_reducible exact keeps_pair (by assumption) (by assumption)
    | (split <;> try dsimp only)

theorem State.hostShare_keeps {P : State → Prop} (hP : Opened [.registers, .vectors] P) (s : State) (h master key :
    Nat) (oks : P s) : P (State.hostShare s h master key) := by
  unfold State.hostShare
  try dsimp only
  repeat' first
    | with_reducible assumption | (intro _; try dsimp only) | with_reducible apply keeps_ite
    | with_reducible apply State.evt_keeps hP | with_reducible exact keeps_pair (by assumption) (by assumption)
    | (split <;> try dsimp only)

theorem State.setRw_keeps {P : State → Prop} (hP : Opened [.registers, .regulation] P) (s : State) (f : Field) (u i v
    : Nat) (oks : P s) : P (State.setRw s f u i v) := by
  have h1 : Opened [.registers] P := hP.mono (by decide)
  have h2 : Opened [.regulation] P := hP.mono (by decide)
  unfold State.setRw
  try dsimp only
  repeat' first
    | with_reducible assumption | (intro _; try dsimp only) | with_reducible apply keeps_ite
    | with_reducible apply State.fset_keeps h1 | with_reducible apply State.withMons_keeps h2
    | with_reducible exact keeps_pair (by assumption) (by assumption) | (split <;> try dsimp only)

theorem State.writeField_keeps {P : State → Prop} (hP : Opened [.registers, .regulation] P) (s : State) (who :
    Accessor) (f : Field) (u i v : Nat) (oks : P s) : P (State.writeField s who f u i v) := by
  have h1 : Opened [.registers] P := hP.mono (by decide)
  unfold State.writeField
  try dsimp only
  repeat' first
    | with_reducible assumption | (intro _; try dsimp only) | with_reducible apply keeps_ite
    | with_reducible apply State.fset_keeps h1 | with_reducible apply State.setRw_keeps hP
    | with_reducible exact keeps_pair (by assumption) (by assumption) | (split <;> try dsimp only)

theorem State.sealedWrite_keeps {P : State → Prop} (hP : Opened [.registers, .vectors, .records, .management] P) (s :
    State) (who : Accessor) (a v : Nat) (p : Option Nat) (oks : P s) : P (State.sealedWrite s who a v p) := by
  have h1 : Opened [.registers, .vectors] P := hP.mono (by decide)
  unfold State.sealedWrite
  try dsimp only
  repeat' first
    | with_reducible assumption | (intro _; try dsimp only) | with_reducible apply keeps_ite
    | with_reducible apply State.evt_keeps h1 | with_reducible apply State.record_keeps hP
    | with_reducible exact keeps_pair (by assumption) (by assumption) | (split <;> try dsimp only)

theorem State.writeReg_keeps {P : State → Prop} (hP : Opened [.registers, .vectors, .records, .regulation,
    .management] P) (s : State) (who : Accessor) (fs : List Field) (u i a v : Nat) (oks : P s) : P (State.writeReg s
    who fs u i a v) := by
  have h1 : Opened [.registers, .vectors] P := hP.mono (by decide)
  have h2 : Opened [.registers, .vectors, .records, .management] P := hP.mono (by decide)
  have h3 : Opened [.registers, .regulation] P := hP.mono (by decide)
  unfold State.writeReg
  try dsimp only
  repeat' first
    | with_reducible assumption | (intro _; try dsimp only) | with_reducible apply keeps_ite
    | with_reducible apply State.evt_keeps h1 | with_reducible apply State.sealedWrite_keeps h2
    | with_reducible apply State.writeField_keeps h3 | with_reducible apply keeps_foldl
    | with_reducible exact keeps_pair (by assumption) (by assumption) | (split <;> try dsimp only)

theorem State.clearRc_keeps {P : State → Prop} (hP : Opened [.registers, .regulation] P) (s : State) (fs : List Field)
    (u i lo n : Nat) (oks : P s) : P (State.clearRc s fs u i lo n) := by
  have h1 : Opened [.registers] P := hP.mono (by decide)
  have h2 : Opened [.regulation] P := hP.mono (by decide)
  unfold State.clearRc
  try dsimp only
  repeat' first
    | with_reducible assumption | (intro _; try dsimp only) | with_reducible apply keeps_ite
    | with_reducible apply State.fset_keeps h1 | with_reducible apply State.withMons_keeps h2
    | with_reducible apply keeps_foldl | with_reducible exact keeps_pair (by assumption) (by assumption)
    | (split <;> try dsimp only)

theorem State.msixWrite_keeps {P : State → Prop} (hP : Opened [.vectors] P) (s : State) (port fn off v : Nat) (oks : P
    s) : P (State.msixWrite s port fn off v) := by
  unfold State.msixWrite
  try dsimp only
  repeat' first
    | with_reducible assumption | (intro _; try dsimp only) | with_reducible apply keeps_ite
    | with_reducible apply State.withMsix_keeps hP | with_reducible exact keeps_pair (by assumption) (by assumption)
    | (split <;> try dsimp only)

theorem State.regWriteIf_keeps {P : State → Prop} (hP : Opened [.registers, .vectors, .records, .regulation,
    .management] P) (s : State) (allow : Field → Bool) (who : Accessor) (off n v : Nat) (oks : P s) : P
    (State.regWriteIf s allow who off n v) := by
  have h1 : Opened [.registers] P := hP.mono (by decide)
  unfold State.regWriteIf
  try dsimp only
  repeat' first
    | with_reducible assumption | (intro _; try dsimp only) | with_reducible apply keeps_ite
    | with_reducible apply State.withHalfW_keeps h1 | with_reducible apply State.writeReg_keeps hP
    | with_reducible exact keeps_pair (by assumption) (by assumption) | (split <;> try dsimp only)

theorem State.regWrite_keeps {P : State → Prop} (hP : Opened [.registers, .vectors, .records, .regulation,
    .management] P) (s : State) (who : Accessor) (off n v : Nat) (oks : P s) : P (State.regWrite s who off n v) := by
  unfold State.regWrite
  try dsimp only
  repeat' first
    | with_reducible assumption | (intro _; try dsimp only) | with_reducible apply keeps_ite
    | with_reducible apply State.regWriteIf_keeps hP | with_reducible exact keeps_pair (by assumption) (by assumption)
    | (split <;> try dsimp only)

theorem State.poisonedRegWrite_keeps {P : State → Prop} (hP : Opened [.registers, .vectors, .records, .management] P)
    (s : State) (who : Accessor) (off : Nat) (oks : P s) : P (State.poisonedRegWrite s who off) := by
  unfold State.poisonedRegWrite
  try dsimp only
  repeat' first
    | with_reducible assumption | (intro _; try dsimp only) | with_reducible apply keeps_ite
    | with_reducible apply State.record_keeps hP | with_reducible exact keeps_pair (by assumption) (by assumption)
    | (split <;> try dsimp only)

theorem State.regRead_keeps {P : State → Prop} (hP : Opened [.registers, .answers, .regulation] P) (s : State) (who :
    Accessor) (off n : Nat) (oks : P s) : P (State.regRead s who off n) := by
  have h1 : Opened [.answers] P := hP.mono (by decide)
  have h2 : Opened [.registers, .regulation] P := hP.mono (by decide)
  have h3 : Opened [.registers] P := hP.mono (by decide)
  unfold State.regRead
  try dsimp only
  repeat' first
    | with_reducible assumption | (intro _; try dsimp only) | with_reducible apply keeps_ite
    | with_reducible apply State.answer_keeps h1 | with_reducible apply State.clearRc_keeps h2
    | with_reducible apply State.withHalfR_keeps h3 | with_reducible exact keeps_pair (by assumption) (by assumption)
    | (split <;> try dsimp only)

theorem State.onDeck_keeps {P : State → Prop} (hP : Opened [.decks] P) (s : State) (d : Nat) (f : Deck → Deck) (oks :
    P s) : P (State.onDeck s d f) := by
  exact State.withDecks_keeps hP s _ oks

theorem State.storeCtx_keeps {P : State → Prop} (hP : Opened [.draws, .registers, .vectors, .memory, .controllers,
    .answers, .records, .management] P) (s : State) (d : Nat) (oks : P s) : P (State.storeCtx s d) := by
  have h1 : Opened [.draws] P := hP.mono (by decide)
  have h2 : Opened [.registers, .vectors, .memory, .controllers, .answers, .records, .management] P := hP.mono (by
      decide)
  unfold State.storeCtx
  try dsimp only
  repeat' first
    | with_reducible assumption | (intro _; try dsimp only) | with_reducible apply keeps_ite
    | with_reducible apply State.draw_keeps h1 | with_reducible apply State.engWrite_keeps h2
    | with_reducible exact keeps_pair (by assumption) (by assumption) | (split <;> try dsimp only)

theorem State.engGet_keeps {P : State → Prop} (hP : Opened [.registers, .vectors] P) {s : State} {p a n : Nat} (oks :
    P s) {t : State} (e : s.engGet p a n = .refused t) : P t := by
  unfold State.engGet at e
  try dsimp only at e
  repeat' first
    | with_reducible assumption | (simp at e; done) | (simp only [Got.refused.injEq] at e) | (obtain rfl := e)
    | (split at e <;> try dsimp only at e) | with_reducible apply State.windowMiss_keeps hP
    | with_reducible apply State.refusal_keeps hP

theorem State.engTouch_keeps {P : State → Prop} (hP : Opened [.registers, .vectors, .memory, .controllers, .answers,
    .records, .management] P) (s : State) (src p sev a n : Nat) (oks : P s) : P (State.engTouch s src p sev a n) := by
  have h1 : Opened [.registers, .vectors, .memory, .controllers, .records, .management] P := hP.mono (by decide)
  have h2 : Opened [.answers] P := hP.mono (by decide)
  unfold State.engTouch
  try dsimp only
  repeat' first
    | with_reducible assumption | (intro _; try dsimp only) | with_reducible apply keeps_ite
    | with_reducible apply State.closeRange_keeps hP | with_reducible apply State.readRange_keeps h1
    | with_reducible apply State.withRsp_keeps h2 | with_reducible apply keeps_foldl
    | with_reducible apply keeps_foldl1 | with_reducible apply keeps_foldl11
    | with_reducible exact keeps_pair (by assumption) (by assumption) | (split <;> try dsimp only)

theorem State.engPut_keeps {P : State → Prop} (hP : Opened [.registers, .vectors, .memory, .controllers, .answers,
    .records, .management] P) (s : State) (p a : Nat) (bs : List Byte) (oks : P s) : P (State.engPut s p a bs) := by
  have h1 : Opened [.registers, .vectors] P := hP.mono (by decide)
  have h2 : Opened [.answers] P := hP.mono (by decide)
  unfold State.engPut
  try dsimp only
  repeat' first
    | with_reducible assumption | (intro _; try dsimp only) | with_reducible apply keeps_ite
    | with_reducible apply State.refusal_keeps h1 | with_reducible apply State.windowMiss_keeps h1
    | with_reducible apply State.withRsp_keeps h2 | with_reducible apply State.writePlace_keeps hP
    | with_reducible apply keeps_foldl | with_reducible apply keeps_foldl1 | with_reducible apply keeps_foldl11
    | with_reducible exact keeps_pair (by assumption) (by assumption) | (split <;> try dsimp only)

theorem State.deckRecord_keeps {P : State → Prop} (hP : Opened [.registers, .vectors, .memory, .controllers, .answers,
    .records, .decks, .management] P) (s : State) (d tag status : Nat) (late : Bool) (detail : Nat) (irq : Bool) (oks
    : P s) : P (State.deckRecord s d tag status late detail irq) := by
  have h1 : Opened [.registers, .vectors, .memory, .controllers, .answers, .records, .management] P := hP.mono (by
      decide)
  have h2 : Opened [.decks] P := hP.mono (by decide)
  have h3 : Opened [.vectors] P := hP.mono (by decide)
  unfold State.deckRecord
  try dsimp only
  repeat' first
    | with_reducible assumption | (intro _; try dsimp only) | with_reducible apply keeps_ite
    | with_reducible apply State.engPut_keeps h1 | with_reducible apply State.onDeck_keeps h2
    | with_reducible apply State.raise1_keeps h3 | with_reducible exact keeps_pair (by assumption) (by assumption)
    | (split <;> try dsimp only)

theorem State.tsPut_keeps {P : State → Prop} (hP : Opened [.registers, .vectors, .memory, .controllers, .answers,
    .records, .decks, .management] P) (s : State) (d : Nat) (es : List (List Byte)) (oks : P s) : P (State.tsPut s d
    es) := by
  have h1 : Opened [.registers, .vectors, .memory, .controllers, .answers, .records, .management] P := hP.mono (by
      decide)
  have h2 : Opened [.decks] P := hP.mono (by decide)
  unfold State.tsPut
  try dsimp only
  repeat' first
    | with_reducible assumption | (intro _; try dsimp only) | with_reducible apply keeps_ite
    | with_reducible apply State.engPut_keeps h1 | with_reducible apply State.onDeck_keeps h2
    | with_reducible apply keeps_foldl | with_reducible apply keeps_foldl1 | with_reducible apply keeps_foldl11
    | with_reducible exact keeps_pair (by assumption) (by assumption) | (split <;> try dsimp only)

theorem State.preDecide_keeps {P : State → Prop} (hP : Opened [.parts] P) (s : State) (p : Nat) (oks : P s) : P
    (State.preDecide s p) := by
  unfold State.preDecide
  try dsimp only
  repeat' first
    | with_reducible assumption | (intro _; try dsimp only) | with_reducible apply keeps_ite
    | with_reducible apply State.onPart_keeps hP | with_reducible exact keeps_pair (by assumption) (by assumption)
    | (split <;> try dsimp only)

theorem State.stopCheck_keeps {P : State → Prop} (hP : Opened [.registers, .vectors, .memory, .controllers, .answers,
    .records, .decks, .management] P) (s : State) (d : Nat) (oks : P s) : P (State.stopCheck s d) := by
  have h1 : Opened [.registers] P := hP.mono (by decide)
  have h2 : Opened [.decks] P := hP.mono (by decide)
  unfold State.stopCheck
  try dsimp only
  repeat' first
    | with_reducible assumption | (intro _; try dsimp only) | with_reducible apply keeps_ite
    | with_reducible apply State.deckRecord_keeps hP | with_reducible apply State.fset_keeps h1
    | with_reducible apply State.onDeck_keeps h2 | with_reducible apply keeps_foldl | with_reducible apply keeps_foldl1
    | with_reducible apply keeps_foldl11 | with_reducible exact keeps_pair (by assumption) (by assumption)
    | (split <;> try dsimp only)

theorem State.complete_keeps {P : State → Prop} (hP : Opened [.registers, .vectors, .memory, .controllers, .answers,
    .records, .decks, .management] P) (s : State) (p x status detail : Nat) (oks : P s) : P (State.complete s p x
    status detail) := by
  have h1 : Opened [.decks] P := hP.mono (by decide)
  unfold State.complete
  try dsimp only
  repeat' first
    | with_reducible assumption | (intro _; try dsimp only) | with_reducible apply keeps_ite
    | with_reducible apply State.deckRecord_keeps hP | with_reducible apply State.onExec_keeps h1
    | with_reducible apply State.stopCheck_keeps hP | with_reducible exact keeps_pair (by assumption) (by assumption)
    | (split <;> try dsimp only)

theorem State.wake_keeps {P : State → Prop} (hP : Opened [.tiles] P) (s : State) (js : List Nat) (oks : P s) : P
    (State.wake s js) := by
  unfold State.wake
  try dsimp only
  repeat' first
    | with_reducible assumption | (intro _; try dsimp only) | with_reducible apply keeps_ite
    | with_reducible apply State.onTile_keeps hP | with_reducible apply keeps_foldl
    | with_reducible exact keeps_pair (by assumption) (by assumption) | (split <;> try dsimp only)

theorem State.popInst_keeps {P : State → Prop} (hP : Opened [.tiles, .parts] P) (s : State) (p l : Nat) (oks : P s) :
    P (State.popInst s p l) := by
  have h1 : Opened [.parts] P := hP.mono (by decide)
  have h2 : Opened [.tiles] P := hP.mono (by decide)
  unfold State.popInst
  try dsimp only
  repeat' first
    | with_reducible assumption | (intro _; try dsimp only) | with_reducible apply keeps_ite
    | with_reducible apply State.onPart_keeps h1 | with_reducible apply State.onTile_keeps h2
    | with_reducible apply State.wake_keeps h2 | with_reducible apply keeps_foldl | with_reducible apply keeps_foldl1
    | with_reducible apply keeps_foldl11 | with_reducible exact keeps_pair (by assumption) (by assumption)
    | (split <;> try dsimp only)

theorem State.unask_keeps {P : State → Prop} (hP : Opened [.parts] P) (s : State) (p x : Nat) (oks : P s) : P
    (State.unask s p x) := by
  unfold State.unask
  try dsimp only
  repeat' first
    | with_reducible assumption | (intro _; try dsimp only) | with_reducible apply keeps_ite
    | with_reducible apply State.onPart_keeps hP | with_reducible exact keeps_pair (by assumption) (by assumption)
    | (split <;> try dsimp only)

theorem State.finishEndings_keeps {P : State → Prop} (hP : Opened [.registers, .vectors, .memory, .controllers,
    .answers, .records, .tiles, .parts, .decks, .management] P) (s : State) (p : Nat) (oks : P s) : P
    (State.finishEndings s p) := by
  have h1 : Opened [.registers, .vectors, .memory, .controllers, .answers, .records, .decks, .management] P := hP.mono
      (by decide)
  have h2 : Opened [.tiles, .parts] P := hP.mono (by decide)
  have h3 : Opened [.parts] P := hP.mono (by decide)
  unfold State.finishEndings
  try dsimp only
  repeat' first
    | with_reducible assumption | (intro _; try dsimp only) | with_reducible apply keeps_ite
    | with_reducible apply State.complete_keeps h1 | with_reducible apply State.popInst_keeps h2
    | with_reducible apply State.preDecide_keeps h3 | with_reducible apply keeps_foldl
    | with_reducible apply keeps_foldl1 | with_reducible apply keeps_foldl11
    | with_reducible exact keeps_pair (by assumption) (by assumption) | (split <;> try dsimp only)

theorem State.setSizes_keeps {P : State → Prop} (hP : Opened [.registers] P) (s : State) (d v : Nat) (oks : P s) : P
    (State.setSizes s d v) := by
  unfold State.setSizes
  try dsimp only
  repeat' first
    | with_reducible assumption | (intro _; try dsimp only) | with_reducible apply keeps_ite
    | with_reducible apply State.fset_keeps hP | with_reducible exact keeps_pair (by assumption) (by assumption)
    | (split <;> try dsimp only)

theorem State.setIrq_keeps {P : State → Prop} (hP : Opened [.registers] P) (s : State) (d v : Nat) (oks : P s) : P
    (State.setIrq s d v) := by
  unfold State.setIrq
  try dsimp only
  repeat' first
    | with_reducible assumption | (intro _; try dsimp only) | with_reducible apply keeps_ite
    | with_reducible apply State.fset_keeps hP | with_reducible exact keeps_pair (by assumption) (by assumption)
    | (split <;> try dsimp only)

theorem State.cfgRefused_keeps {P : State → Prop} (hP : Opened [.registers, .vectors] P) (s : State) (d : Nat) (oks :
    P s) : P (State.cfgRefused s d) := by
  unfold State.cfgRefused
  try dsimp only
  repeat' first
    | with_reducible assumption | (intro _; try dsimp only) | with_reducible apply keeps_ite
    | with_reducible apply State.evt_keeps hP | with_reducible exact keeps_pair (by assumption) (by assumption)
    | (split <;> try dsimp only)

theorem State.dbDiscard_keeps {P : State → Prop} (hP : Opened [.registers, .vectors] P) (s : State) (port : Nat) (oks
    : P s) : P (State.dbDiscard s port) := by
  unfold State.dbDiscard
  try dsimp only
  repeat' first
    | with_reducible assumption | (intro _; try dsimp only) | with_reducible apply keeps_ite
    | with_reducible apply State.evt_keeps hP | with_reducible exact keeps_pair (by assumption) (by assumption)
    | (split <;> try dsimp only)

theorem State.onChan_keeps {P : State → Prop} (hP : Opened [.thapel] P) (s : State) (c : Nat) (f : Chan → Chan) (oks :
    P s) : P (State.onChan s c f) := by
  exact State.withChans_keeps hP s _ oks

theorem State.setProc_keeps {P : State → Prop} (hP : Opened [.registers] P) (s : State) (c : Nat) (b : Bool) (oks : P
    s) : P (State.setProc s c b) := by
  unfold State.setProc
  try dsimp only
  repeat' first
    | with_reducible assumption | (intro _; try dsimp only) | with_reducible apply keeps_ite
    | with_reducible apply State.fbitSet_keeps hP | with_reducible exact keeps_pair (by assumption) (by assumption)
    | (split <;> try dsimp only)

theorem State.stepFails_keeps {P : State → Prop} (hP : Opened [.registers, .vectors, .memory, .controllers, .answers,
    .records, .tiles, .parts, .pages, .thapel, .management] P) (s : State) (x : Step) (oks : P s) : P (State.stepFails
    s x) := by
  have h1 : Opened [.registers, .vectors, .memory, .controllers, .answers, .records, .pages, .thapel, .management] P
      := hP.mono (by decide)
  unfold State.stepFails
  try dsimp only
  repeat' first
    | with_reducible assumption | (intro _; try dsimp only) | with_reducible apply keeps_ite
    | with_reducible apply State.attnDrop_keeps h1 | with_reducible apply State.failIo_keeps hP
    | with_reducible exact keeps_pair (by assumption) (by assumption) | (split <;> try dsimp only)

theorem State.stepDrops_keeps {P : State → Prop} (hP : Opened [.registers, .vectors, .memory, .controllers, .answers,
    .records, .management] P) (s : State) (x : Step) (oks : P s) : P (State.stepDrops s x) := by
  unfold State.stepDrops
  try dsimp only
  repeat' first
    | with_reducible assumption | (intro _; try dsimp only) | with_reducible apply keeps_ite
    | with_reducible apply State.sealFail_keeps hP | with_reducible exact keeps_pair (by assumption) (by assumption)
    | (split <;> try dsimp only)

theorem State.verifyUnpin_keeps {P : State → Prop} (hP : Opened [.registers, .vectors, .memory, .controllers,
    .answers, .records, .pages, .management] P) (s : State) (x : Step) (oks : P s) : P (State.verifyUnpin s x) := by
  unfold State.verifyUnpin
  try dsimp only
  repeat' first
    | with_reducible assumption | (intro _; try dsimp only) | with_reducible apply keeps_ite
    | with_reducible apply State.unpin_keeps hP | with_reducible exact keeps_pair (by assumption) (by assumption)
    | (split <;> try dsimp only)

theorem State.stepUnpin_keeps {P : State → Prop} (hP : Opened [.registers, .vectors, .memory, .controllers, .answers,
    .records, .pages, .management] P) (s : State) (x : Step) (oks : P s) : P (State.stepUnpin s x) := by
  unfold State.stepUnpin
  try dsimp only
  repeat' first
    | with_reducible assumption | (intro _; try dsimp only) | with_reducible apply keeps_ite
    | with_reducible apply State.unpin_keeps hP | with_reducible exact keeps_pair (by assumption) (by assumption)
    | (split <;> try dsimp only)

theorem State.stepOos_keeps {P : State → Prop} (hP : Opened [.registers, .vectors, .memory, .controllers, .answers,
    .records, .tiles, .parts, .pages, .thapel, .management] P) (s : State) (x : Step) (oks : P s) : P (State.stepOos s
    x) := by
  have h1 : Opened [.registers, .vectors, .memory, .controllers, .answers, .records, .management] P := hP.mono (by
      decide)
  have h2 : Opened [.registers, .vectors, .memory, .controllers, .answers, .records, .pages, .management] P := hP.mono
      (by decide)
  unfold State.stepOos
  try dsimp only
  repeat' first
    | with_reducible assumption | (intro _; try dsimp only) | with_reducible apply keeps_ite
    | with_reducible apply State.stepDrops_keeps h1 | with_reducible apply State.stepFails_keeps hP
    | with_reducible apply State.verifyUnpin_keeps h2 | with_reducible exact keeps_pair (by assumption) (by assumption)
    | (split <;> try dsimp only)

theorem State.tilePath_keeps {P : State → Prop} (hP : Opened [.draws, .registers, .vectors, .memory, .controllers,
    .answers, .records, .tiles, .parts, .pages, .thapel, .regulation, .management] P) (s : State) (c : Ctx) (x : Step)
    (oks : P s) : P (State.tilePath s c x) := by
  have h1 : Opened [.tiles] P := hP.mono (by decide)
  have h2 : Opened [.thapel] P := hP.mono (by decide)
  have h3 : Opened [.draws, .registers, .vectors, .memory, .controllers, .answers, .records, .tiles, .parts, .pages,
      .thapel, .management] P := hP.mono (by decide)
  unfold State.tilePath
  try dsimp only
  repeat' first
    | with_reducible assumption | (intro _; try dsimp only) | with_reducible apply keeps_ite
    | with_reducible apply State.issueAll_keeps hP | with_reducible apply State.onThr_keeps h1
    | with_reducible apply State.withAttn_keeps h2 | with_reducible apply State.yarderEnd_keeps h3
    | with_reducible exact keeps_pair (by assumption) (by assumption) | (split <;> try dsimp only)

theorem State.stepRefused_keeps {P : State → Prop} (hP : Opened [.draws, .registers, .vectors, .memory, .controllers,
    .answers, .records, .tiles, .parts, .pages, .thapel, .regulation, .management] P) (s : State) (x : Step) (oks : P
    s) : P (State.stepRefused s x) := by
  have h1 : Opened [.registers, .vectors] P := hP.mono (by decide)
  have h2 : Opened [.registers, .vectors, .memory, .controllers, .answers, .records, .pages, .management] P := hP.mono
      (by decide)
  have h3 : Opened [.thapel] P := hP.mono (by decide)
  unfold State.stepRefused
  try dsimp only
  repeat' first
    | with_reducible assumption | (intro _; try dsimp only) | with_reducible apply keeps_ite
    | with_reducible apply State.refusal_keeps h1 | with_reducible apply State.tilePath_keeps hP
    | with_reducible apply State.verifyUnpin_keeps h2 | with_reducible apply State.withChans_keeps h3
    | with_reducible apply State.withThapWait_keeps h3
    | with_reducible exact keeps_pair (by assumption) (by assumption) | (split <;> try dsimp only)

theorem State.startStep_keeps {P : State → Prop} (hP : Opened [.registers, .vectors, .thapel, .regulation] P) (s :
    State) (c : Nat) (oks : P s) : P (State.startStep s c) := by
  have h1 : Opened [.registers, .vectors, .regulation] P := hP.mono (by decide)
  have h2 : Opened [.thapel] P := hP.mono (by decide)
  unfold State.startStep
  try dsimp only
  repeat' first
    | with_reducible assumption | (intro _; try dsimp only) | with_reducible apply keeps_ite
    | with_reducible apply State.charge_keeps h1 | with_reducible apply State.onChan_keeps h2
    | with_reducible exact keeps_pair (by assumption) (by assumption) | (split <;> try dsimp only)

theorem State.closeStep_keeps {P : State → Prop} (hP : Opened [.registers, .vectors, .memory, .controllers, .answers,
    .records, .pages, .thapel, .regulation, .management] P) (s : State) (c : Nat) (x : Step) (oks : P s) : P
    (State.closeStep s c x) := by
  have h1 : Opened [.registers, .vectors] P := hP.mono (by decide)
  have h2 : Opened [.registers] P := hP.mono (by decide)
  have h3 : Opened [.regulation] P := hP.mono (by decide)
  have h4 : Opened [.thapel] P := hP.mono (by decide)
  have h5 : Opened [.registers, .vectors, .memory, .controllers, .records, .management] P := hP.mono (by decide)
  have h6 : Opened [.registers, .vectors, .memory, .controllers, .answers, .records, .management] P := hP.mono (by
      decide)
  have h7 : Opened [.registers, .vectors, .memory, .controllers, .answers, .records, .pages, .management] P := hP.mono
      (by decide)
  unfold State.closeStep
  try dsimp only
  repeat' first
    | with_reducible assumption | (intro _; try dsimp only) | with_reducible apply keeps_ite
    | with_reducible apply State.evt_keeps h1 | with_reducible apply State.fcount_keeps h2
    | with_reducible apply State.observe_keeps h3 | with_reducible apply State.onChan_keeps h4
    | with_reducible apply State.readRange_keeps h5 | with_reducible apply State.stepDrops_keeps h6
    | with_reducible apply State.stepUnpin_keeps h7 | with_reducible exact keeps_pair (by assumption) (by assumption)
    | (split <;> try dsimp only)

theorem State.afterStep_keeps {P : State → Prop} (hP : Opened [.registers, .vectors, .memory, .controllers, .answers,
    .records, .tiles, .parts, .decks, .management] P) (s t : State) (chan : Nat) (oks : P s) (okt : P t) : P
    (State.afterStep s t chan) := by
  unfold State.afterStep
  try dsimp only
  repeat' first
    | with_reducible assumption | (intro _; try dsimp only) | with_reducible apply keeps_ite
    | with_reducible apply State.finishEndings_keeps hP
    | with_reducible exact keeps_pair (by assumption) (by assumption) | (split <;> try dsimp only)

theorem State.serveN_keeps {P : State → Prop} (hP : Opened [.draws, .registers, .vectors, .memory, .controllers,
    .answers, .records, .tiles, .thapel, .regulation, .management] P) (s : State) (c n : Nat) (oks : P s) : P
    (s.serveN c n) := by
  have h1 : Opened [.draws, .registers, .vectors, .memory, .controllers, .answers, .records, .tiles, .regulation,
      .management] P := hP.mono (by decide)
  have h2 : Opened [.thapel] P := hP.mono (by decide)
  induction n generalizing s with
  | zero => exact oks
  | succ n ih =>
    unfold State.serveN
    split
    · exact oks
    · exact ih _ (State.serveHeld_keeps h1 _ _ _ (State.onChan_keeps h2 _ _ _ oks))

theorem State.yieldTail_keeps {P : State → Prop} (hP : Opened [.draws, .registers, .vectors, .memory, .controllers,
    .answers, .records, .tiles, .thapel, .regulation, .management] P) (s : State) (c : Nat) (oks : P s) : P
    (State.yieldTail s c) := by
  have h1 : Opened [.thapel] P := hP.mono (by decide)
  have h2 : Opened [.registers, .vectors, .thapel, .regulation] P := hP.mono (by decide)
  unfold State.yieldTail
  try dsimp only
  repeat' first
    | with_reducible assumption | (intro _; try dsimp only) | with_reducible apply keeps_ite
    | with_reducible apply State.onChan_keeps h1 | with_reducible apply State.serveN_keeps hP
    | with_reducible apply State.startStep_keeps h2 | with_reducible exact keeps_pair (by assumption) (by assumption)
    | (split <;> try dsimp only)

theorem State.markOos_keeps {P : State → Prop} (hP : Opened [.registers, .vectors, .memory, .controllers, .answers,
    .records, .tiles, .parts, .pages, .thapel, .management] P) (s : State) (c : Nat) (x : Step) (oks : P s) : P
    (State.markOos s c x) := by
  have h1 : Opened [.registers, .vectors] P := hP.mono (by decide)
  have h2 : Opened [.registers] P := hP.mono (by decide)
  have h3 : Opened [.thapel] P := hP.mono (by decide)
  have h4 : Opened [.registers, .vectors, .records, .management] P := hP.mono (by decide)
  have h5 : Opened [.registers, .vectors, .memory, .controllers, .answers, .records, .pages, .management] P := hP.mono
      (by decide)
  unfold State.markOos
  try dsimp only
  repeat' first
    | with_reducible assumption | (intro _; try dsimp only) | with_reducible apply keeps_ite
    | with_reducible apply State.evt_keeps h1 | with_reducible apply State.fbitSet_keeps h2
    | with_reducible apply State.onChan_keeps h3 | with_reducible apply State.record_keeps h4
    | with_reducible apply State.stepOos_keeps hP | with_reducible apply State.unpin_keeps h5
    | with_reducible apply keeps_foldl | with_reducible apply keeps_foldl1 | with_reducible apply keeps_foldl11
    | with_reducible exact keeps_pair (by assumption) (by assumption) | (split <;> try dsimp only)

theorem State.unitFault_keeps {P : State → Prop} (hP : Opened [.registers, .vectors, .memory, .controllers, .answers,
    .records, .tiles, .parts, .pages, .thapel, .management] P) (s : State) (c : Nat) (x : Step) (oks : P s) : P
    (State.unitFault s c x) := by
  have h1 : Opened [.registers] P := hP.mono (by decide)
  have h2 : Opened [.thapel] P := hP.mono (by decide)
  unfold State.unitFault
  try dsimp only
  repeat' first
    | with_reducible assumption | (intro _; try dsimp only) | with_reducible apply keeps_ite
    | with_reducible apply State.fcount_keeps h1 | with_reducible apply State.markOos_keeps hP
    | with_reducible apply State.onChan_keeps h2 | with_reducible exact keeps_pair (by assumption) (by assumption)
    | (split <;> try dsimp only)

theorem State.touchRec_keeps {P : State → Prop} (hP : Opened [.registers, .vectors, .memory, .controllers, .answers,
    .records, .management] P) (s : State) (src p slot : Nat) (oks : P s) : P (State.touchRec s src p slot) := by
  unfold State.touchRec
  try dsimp only
  repeat' first
    | with_reducible assumption | (intro _; try dsimp only) | with_reducible apply keeps_ite
    | with_reducible apply State.engSee_keeps hP | with_reducible exact keeps_pair (by assumption) (by assumption)
    | (split <;> try dsimp only)

theorem State.checkHandles_keeps {P : State → Prop} (hP : Opened [.registers, .vectors, .memory, .controllers,
    .answers, .records, .management] P) (s : State) (p i : Nat) (hs : List Nat) (oks : P s) : P (s.checkHandles p i
    hs).1 := by
  induction hs generalizing s i with
  | nil => exact oks
  | cons h hs ih =>
    unfold State.checkHandles
    have ht : P (if h.testBit 15 then s else s.touchRec 7 p (h % 32768)) := keeps_ite oks (State.touchRec_keeps hP _ _ _ _ oks)
    dsimp only
    split
    · exact ht
    · exact ih _ _ ht

theorem State.framesFor_keeps {P : State → Prop} (hP : Opened [.registers, .vectors, .memory, .controllers, .answers,
    .records, .pages, .management] P) (s : State) (p x need : Nat) (oks : P s) : P (State.framesFor s p x need).1 :=
    by
  unfold State.framesFor
  try dsimp only
  repeat' first
    | with_reducible assumption | (intro _; try dsimp only) | with_reducible apply keeps_ite1
    | with_reducible apply keeps_ite | with_reducible apply State.coppiceFor_keeps hP
    | with_reducible exact keeps_pair (by assumption) (by assumption) | (split <;> try dsimp only)

theorem State.suspend_keeps {P : State → Prop} (hP : Opened [.registers, .vectors, .records, .decks, .management] P)
    (s : State) (p x handle lack : Nat) (oks : P s) : P (State.suspend s p x handle lack) := by
  have h1 : Opened [.registers, .vectors] P := hP.mono (by decide)
  have h2 : Opened [.decks] P := hP.mono (by decide)
  have h3 : Opened [.registers, .vectors, .records, .management] P := hP.mono (by decide)
  unfold State.suspend
  try dsimp only
  repeat' first
    | with_reducible assumption | (intro _; try dsimp only) | with_reducible apply keeps_ite
    | with_reducible apply State.evt_keeps h1 | with_reducible apply State.onExec_keeps h2
    | with_reducible apply State.record_keeps h3 | with_reducible apply State.withSuspNo_keeps h2
    | with_reducible exact keeps_pair (by assumption) (by assumption) | (split <;> try dsimp only)

theorem State.putBlock_keeps {P : State → Prop} (hP : Opened [.registers, .vectors, .memory, .controllers, .records,
    .management] P) (s : State) (j : Nat) (sl : Slot) (bs : List Byte) (bad : Nat → Bool) (oks : P s) : P
    (State.putBlock s j sl bs bad) := by
  unfold State.putBlock
  try dsimp only
  repeat' first
    | with_reducible assumption | (intro _; try dsimp only) | with_reducible apply keeps_ite
    | with_reducible apply State.store_keeps hP | with_reducible apply keeps_foldl | with_reducible apply keeps_foldl1
    | with_reducible apply keeps_foldl11 | with_reducible exact keeps_pair (by assumption) (by assumption)
    | (split <;> try dsimp only)

theorem State.putBlocks_keeps {P : State → Prop} (hP : Opened [.registers, .vectors, .memory, .controllers, .records,
    .management] P) (s : State) (p g n : Nat) (bs : List Byte) (bad : Nat → Bool) (oks : P s) : P (State.putBlocks s p
    g n bs bad) := by
  unfold State.putBlocks
  try dsimp only
  repeat' first
    | with_reducible assumption | (intro _; try dsimp only) | with_reducible apply keeps_ite
    | with_reducible apply State.putBlock_keeps hP | with_reducible apply keeps_foldl
    | with_reducible exact keeps_pair (by assumption) (by assumption) | (split <;> try dsimp only)

theorem State.readsCheck_keeps {P : State → Prop} (hP : Opened [.registers, .vectors] P) {s : State} {p : Nat} {l :
    List (Nat × Nat × Nat)} (oks : P s) {t : State} {i : Nat}
    (e : s.readsCheck p l = some (some (t, i))) : P t := by
  induction l with
  | nil => simp [State.readsCheck] at e
  | cons x l ih =>
    unfold State.readsCheck at e
    split at e
    · simp at e
    · simp only [Option.some.injEq, Prod.mk.injEq] at e
      rw [← e.1]
      exact State.engGet_keeps hP oks (by assumption)
    · exact ih e

theorem State.loadBlocks_keeps {P : State → Prop} (hP : Opened [.registers, .vectors, .memory, .controllers, .answers,
    .records, .decks, .management] P) (s : State) (p x : Nat) (oks : P s) : P (State.loadBlocks s p x) := by
  have h1 : Opened [.registers, .vectors, .memory, .controllers, .answers, .records, .management] P := hP.mono (by
      decide)
  have h2 : Opened [.decks] P := hP.mono (by decide)
  have h3 : Opened [.registers, .vectors, .memory, .controllers, .records, .management] P := hP.mono (by decide)
  unfold State.loadBlocks
  try dsimp only
  repeat' first
    | with_reducible assumption | (intro _; try dsimp only) | with_reducible apply keeps_ite
    | with_reducible apply State.engTouch_keeps h1 | with_reducible apply State.onExec_keeps h2
    | with_reducible apply State.putBlocks_keeps h3 | with_reducible apply keeps_foldl
    | with_reducible apply keeps_foldl1 | with_reducible apply keeps_foldl11
    | with_reducible exact keeps_pair (by assumption) (by assumption) | (split <;> try dsimp only)

theorem State.unlater_keeps {P : State → Prop} (hP : Opened [.registers, .vectors, .memory, .controllers, .answers,
    .records, .decks, .pages, .management] P) (s : State) (p x : Nat) (oks : P s) : P (State.unlater s p x) := by
  have h1 : Opened [.decks] P := hP.mono (by decide)
  have h2 : Opened [.registers, .vectors, .memory, .controllers, .answers, .records, .pages, .management] P := hP.mono
      (by decide)
  unfold State.unlater
  try dsimp only
  repeat' first
    | with_reducible assumption | (intro _; try dsimp only) | with_reducible apply keeps_ite
    | with_reducible apply State.onExec_keeps h1 | with_reducible apply State.unreserve_keeps h2
    | with_reducible apply keeps_foldl | with_reducible exact keeps_pair (by assumption) (by assumption)
    | (split <;> try dsimp only)

theorem State.unreserveAll_keeps {P : State → Prop} (hP : Opened [.registers, .vectors, .memory, .controllers,
    .answers, .records, .decks, .pages, .management] P) (s : State) (p x : Nat) (oks : P s) : P (State.unreserveAll s
    p x) := by
  have h1 : Opened [.decks] P := hP.mono (by decide)
  have h2 : Opened [.registers, .vectors, .memory, .controllers, .answers, .records, .pages, .management] P := hP.mono
      (by decide)
  unfold State.unreserveAll
  try dsimp only
  repeat' first
    | with_reducible assumption | (intro _; try dsimp only) | with_reducible apply keeps_ite
    | with_reducible apply State.onExec_keeps h1 | with_reducible apply State.unlater_keeps hP
    | with_reducible apply State.unreserve_keeps h2 | with_reducible apply keeps_foldl
    | with_reducible exact keeps_pair (by assumption) (by assumption) | (split <;> try dsimp only)

theorem State.regrowStop_keeps {P : State → Prop} (hP : Opened [.registers, .vectors, .memory, .controllers, .answers,
    .records, .decks, .pages, .management] P) (s : State) (p x : Nat) (r : Resv) (w : Regrow) (oks : P s) : P
    (State.regrowStop s p x r w) := by
  have h1 : Opened [.decks] P := hP.mono (by decide)
  have h2 : Opened [.registers, .vectors, .memory, .controllers, .answers, .records, .pages, .management] P := hP.mono
      (by decide)
  unfold State.regrowStop
  try dsimp only
  repeat' first
    | with_reducible assumption | (intro _; try dsimp only) | with_reducible apply keeps_ite
    | with_reducible apply State.onExec_keeps h1 | with_reducible apply State.regrowEnd_keeps h2
    | with_reducible apply State.unlater_keeps hP | with_reducible exact keeps_pair (by assumption) (by assumption)
    | (split <;> try dsimp only)

theorem State.endCmd_keeps {P : State → Prop} (hP : Opened [.registers, .vectors, .memory, .controllers, .answers,
    .records, .tiles, .parts, .decks, .management] P) (s : State) (p x l status detail : Nat) (oks : P s) : P
    (State.endCmd s p x l status detail) := by
  have h1 : Opened [.registers, .vectors, .memory, .controllers, .answers, .records, .decks, .management] P := hP.mono
      (by decide)
  have h2 : Opened [.decks] P := hP.mono (by decide)
  have h3 : Opened [.tiles, .parts] P := hP.mono (by decide)
  have h4 : Opened [.parts] P := hP.mono (by decide)
  unfold State.endCmd
  try dsimp only
  repeat' first
    | with_reducible assumption | (intro _; try dsimp only) | with_reducible apply keeps_ite
    | with_reducible apply State.complete_keeps h1 | with_reducible apply State.onExec_keeps h2
    | with_reducible apply State.popInst_keeps h3 | with_reducible apply State.preDecide_keeps h4
    | with_reducible exact keeps_pair (by assumption) (by assumption) | (split <;> try dsimp only)

theorem State.endPlain_keeps {P : State → Prop} (hP : Opened [.registers, .vectors, .memory, .controllers, .answers,
    .records, .parts, .decks, .pages, .management] P) (s : State) (p x status detail : Nat) (oks : P s) : P
    (State.endPlain s p x status detail) := by
  have h1 : Opened [.registers, .vectors, .memory, .controllers, .answers, .records, .decks, .management] P := hP.mono
      (by decide)
  have h2 : Opened [.parts] P := hP.mono (by decide)
  have h3 : Opened [.registers, .vectors, .memory, .controllers, .answers, .records, .decks, .pages, .management] P :=
      hP.mono (by decide)
  unfold State.endPlain
  try dsimp only
  repeat' first
    | with_reducible assumption | (intro _; try dsimp only) | with_reducible apply keeps_ite
    | with_reducible apply State.complete_keeps h1 | with_reducible apply State.preDecide_keeps h2
    | with_reducible apply State.unask_keeps h2 | with_reducible apply State.unreserveAll_keeps h3
    | with_reducible exact keeps_pair (by assumption) (by assumption) | (split <;> try dsimp only)

theorem State.regrowFail_keeps {P : State → Prop} (hP : Opened [.registers, .vectors, .memory, .controllers, .answers,
    .records, .decks, .pages, .management] P) (s : State) (p x : Nat) (oks : P s) : P (State.regrowFail s p x).1 := by
  have h1 : Opened [.registers, .vectors] P := hP.mono (by decide)
  have h2 : Opened [.registers, .vectors, .records, .management] P := hP.mono (by decide)
  unfold State.regrowFail
  try dsimp only
  repeat' first
    | with_reducible assumption | (intro _; try dsimp only) | with_reducible apply keeps_ite1
    | with_reducible apply keeps_ite | with_reducible apply State.evt_keeps h1
    | with_reducible apply State.record_keeps h2 | with_reducible apply State.regrowStop_keeps hP
    | with_reducible exact keeps_pair (by assumption) (by assumption) | (split <;> try dsimp only)

theorem State.regrowNext_keeps {P : State → Prop} (hP : Opened [.registers, .vectors, .memory, .controllers, .answers,
    .records, .parts, .decks, .pages, .management] P) (s : State) (p x : Nat) (oks : P s) : P (State.regrowNext s p x)
    := by
  have h1 : Opened [.registers, .vectors, .memory, .controllers, .answers, .records, .management] P := hP.mono (by
      decide)
  have h2 : Opened [.registers, .vectors, .memory, .controllers, .answers, .records, .pages, .management] P := hP.mono
      (by decide)
  have h3 : Opened [.decks] P := hP.mono (by decide)
  have h4 : Opened [.parts] P := hP.mono (by decide)
  have h5 : Opened [.registers, .vectors, .memory, .controllers, .records, .management] P := hP.mono (by decide)
  have h6 : Opened [.registers, .vectors, .memory, .controllers, .answers, .records, .decks, .pages, .management] P :=
      hP.mono (by decide)
  have h7 : Opened [.registers, .vectors, .records, .decks, .management] P := hP.mono (by decide)
  unfold State.regrowNext
  try dsimp only
  repeat' first
    | with_reducible assumption | (intro _; try dsimp only) | with_reducible apply keeps_ite
    | with_reducible apply State.endPlain_keeps hP | with_reducible apply State.engSee_keeps h1
    | with_reducible apply State.framesFor_keeps h2 | with_reducible apply State.onExec_keeps h3
    | with_reducible apply State.preDecide_keeps h4 | with_reducible apply State.putBlocks_keeps h5
    | with_reducible apply State.regrowFail_keeps h6 | with_reducible apply State.regrowTake_keeps h2
    | with_reducible apply State.suspend_keeps h7 | with_reducible apply keeps_foldl
    | with_reducible apply keeps_foldl1 | with_reducible apply keeps_foldl11
    | with_reducible exact keeps_pair (by assumption) (by assumption)
    | (refine keeps_pair (by assumption) ?_; with_reducible apply State.framesFor_keeps h2)
    | (refine keeps_pair (by assumption) ?_; with_reducible apply State.regrowFail_keeps h6)
    | (refine keeps_pair (by assumption) ?_; with_reducible apply State.regrowTake_keeps h2)
    | (split <;> try dsimp only)

theorem State.unparkDrop_keeps {P : State → Prop} (hP : Opened [.registers, .vectors, .memory, .controllers, .answers,
    .records, .management] P) (s : State) (p slot : Nat) (oks : P s) : P (State.unparkDrop s p slot) := by
  unfold State.unparkDrop
  try dsimp only
  repeat' first
    | with_reducible assumption | (intro _; try dsimp only) | with_reducible apply keeps_ite
    | with_reducible apply State.setPte_keeps hP | with_reducible apply State.setRecFlag_keeps hP
    | with_reducible apply keeps_foldl | with_reducible apply keeps_foldl1 | with_reducible apply keeps_foldl11
    | with_reducible exact keeps_pair (by assumption) (by assumption) | (split <;> try dsimp only)

theorem State.cowAll_keeps {P : State → Prop} (hP : Opened [.registers, .vectors, .memory, .controllers, .answers,
    .records, .pages, .management] P) (s : State) (p : Nat) (qs : List (Nat × List Nat × Plan)) (oks : P s) : P
    (State.cowAll s p qs) := by
  unfold State.cowAll
  try dsimp only
  repeat' first
    | with_reducible assumption | (intro _; try dsimp only) | with_reducible apply keeps_ite
    | with_reducible apply State.cow_keeps hP | with_reducible apply keeps_foldl | with_reducible apply keeps_foldl1
    | with_reducible apply keeps_foldl11 | with_reducible exact keeps_pair (by assumption) (by assumption)
    | (refine keeps_pair (by assumption) ?_; with_reducible apply State.cow_keeps hP) | (split <;> try dsimp only)

theorem State.takePlans_keeps {P : State → Prop} (hP : Opened [.registers, .vectors, .memory, .controllers, .answers,
    .records, .pages, .management] P) (s : State) (p : Nat) (e : Exec) (qs : List (Nat × List Nat × Plan)) (oks : P s)
    : P (State.takePlans s p e qs).1 := by
  unfold State.takePlans
  try dsimp only
  repeat' first
    | with_reducible assumption | (intro _; try dsimp only) | with_reducible apply keeps_ite1
    | with_reducible apply keeps_ite | with_reducible apply State.takePlan_keeps hP | with_reducible apply keeps_foldl
    | with_reducible apply keeps_foldl1 | with_reducible apply keeps_foldl11
    | with_reducible exact keeps_pair (by assumption) (by assumption)
    | (refine keeps_pair (by assumption) ?_; with_reducible apply State.takePlan_keeps hP) | (split <;> try dsimp only)

theorem State.planFrames_keeps {P : State → Prop} (hP : Opened [.registers, .vectors, .memory, .controllers, .answers,
    .records, .decks, .pages, .management] P) (s : State) (p x : Nat) (oks : P s) : P (State.planFrames s p x).1 := by
  have h1 : Opened [.registers, .vectors, .memory, .controllers, .answers, .records, .pages, .management] P := hP.mono
      (by decide)
  have h2 : Opened [.registers, .vectors, .records, .decks, .management] P := hP.mono (by decide)
  unfold State.planFrames
  try dsimp only
  repeat' first
    | with_reducible assumption | (intro _; try dsimp only) | with_reducible apply keeps_ite1
    | with_reducible apply keeps_ite | with_reducible apply State.framesFor_keeps h1
    | with_reducible apply State.suspend_keeps h2 | with_reducible exact keeps_pair (by assumption) (by assumption)
    | (refine keeps_pair (by assumption) ?_; with_reducible apply State.framesFor_keeps h1)
    | (split <;> try dsimp only)

theorem State.regrowGo_keeps {P : State → Prop} (hP : Opened [.registers, .vectors, .memory, .controllers, .answers,
    .records, .parts, .decks, .pages, .management] P) (n : Nat) (s : State) (p x : Nat) (oks : P s) : P
    (State.regrowGo n s p x) := by
  have h1 : Opened [.registers, .vectors, .memory, .controllers, .answers, .records, .management] P := hP.mono (by
      decide)
  have h2 : Opened [.decks] P := hP.mono (by decide)
  have h3 : Opened [.registers, .vectors, .memory, .controllers, .answers, .records, .decks, .management] P := hP.mono
      (by decide)
  have h4 : Opened [.parts] P := hP.mono (by decide)
  have h5 : Opened [.registers, .vectors] P := hP.mono (by decide)
  induction n generalizing s with
  | zero => exact oks
  | succ n ih =>
    unfold State.regrowGo
    dsimp only
    repeat' first
      | with_reducible assumption | (intro _; try dsimp only) | with_reducible apply ih
      | with_reducible apply State.setRecFlag_keeps h1 | with_reducible apply State.regrowNext_keeps hP
      | with_reducible apply State.onExec_keeps h2 | with_reducible apply State.loadBlocks_keeps h3
      | with_reducible apply State.preDecide_keeps h4 | with_reducible apply State.endPlain_keeps hP
      | (refine State.readsCheck_keeps h5 ?_ (by assumption)) | (split <;> try dsimp only)

theorem State.reserveGo_keeps {P : State → Prop} (hP : Opened [.registers, .vectors, .memory, .controllers, .answers,
    .records, .parts, .decks, .pages, .management] P) (s0 : State) (p x : Nat) (oks0 : P s0) : P (State.reserveGo s0 p
    x) := by
  have h1 : Opened [.decks] P := hP.mono (by decide)
  have h2 : Opened [.registers, .vectors, .memory, .controllers, .answers, .records, .pages, .management] P := hP.mono
      (by decide)
  have h3 : Opened [.registers, .vectors, .memory, .controllers, .answers, .records, .decks, .pages, .management] P :=
      hP.mono (by decide)
  have h4 : Opened [.registers, .vectors] P := hP.mono (by decide)
  unfold State.reserveGo
  dsimp only
  repeat' first
    | with_reducible assumption | (intro _; try dsimp only) | with_reducible apply keeps_foldl
    | with_reducible apply State.endPlain_keeps hP | with_reducible apply State.regrowGo_keeps hP
    | with_reducible apply State.onExec_keeps h1 | with_reducible apply State.cowAll_keeps h2
    | with_reducible apply State.markDropped_keeps h2 | with_reducible apply State.repairSess_keeps h2
    | with_reducible exact keeps_pair (by assumption) (by assumption)
    | (refine keeps_pair (by assumption) ?_; with_reducible apply State.planFrames_keeps h3)
    | (refine keeps_pair (by assumption) ?_; with_reducible apply State.takePlans_keeps h2)
    | with_reducible apply State.planFrames_keeps h3 | with_reducible apply State.takePlans_keeps h2
    | (refine State.readsCheck_keeps h4 ?_ (by assumption))
    | (refine State.readsCheck_keeps h4 ?_ (keeps_some (by assumption))) | (split <;> try dsimp only)

theorem State.stage2_keeps {P : State → Prop} (hP : Opened [.registers, .vectors, .memory, .controllers, .answers,
    .records, .parts, .decks, .pages, .management] P) (s : State) (p x : Nat) (oks : P s) : P (State.stage2 s p x) :=
    by
  have h1 : Opened [.registers, .vectors, .memory, .controllers, .answers, .records, .management] P := hP.mono (by
      decide)
  unfold State.stage2
  try dsimp only
  repeat' first
    | with_reducible assumption | (intro _; try dsimp only) | with_reducible apply keeps_ite
    | with_reducible apply State.checkHandles_keeps h1 | with_reducible apply State.endPlain_keeps hP
    | with_reducible apply State.regrowGo_keeps hP | with_reducible apply State.regrowNext_keeps hP
    | with_reducible apply State.reserveGo_keeps hP | with_reducible apply State.unparkDrop_keeps h1
    | with_reducible apply keeps_foldl | with_reducible apply keeps_foldl1 | with_reducible apply keeps_foldl11
    | with_reducible exact keeps_pair (by assumption) (by assumption)
    | (refine keeps_pair (by assumption) ?_; with_reducible apply State.checkHandles_keeps h1)
    | (split <;> try dsimp only)

theorem State.runCmd_keeps {P : State → Prop} (hP : Opened [] P) (s : State) (op p x : Nat) (f : Exec → State) (oks :
    P s) (okf : ∀ (t0 : Exec), P (f t0)) : P (State.runCmd s op p x f) := by
  unfold State.runCmd
  try dsimp only
  repeat' first
    | with_reducible assumption | (intro _; try dsimp only) | with_reducible apply okf | with_reducible apply keeps_ite
    | with_reducible exact keeps_pair (by assumption) (by assumption) | (split <;> try dsimp only)

theorem State.startInst_keeps {P : State → Prop} (hP : Opened [.memory, .tiles, .parts, .decks] P) (s : State) (p x l
    : Nat) (e : Exec) (oks : P s) : P (State.startInst s p x l e) := by
  have h1 : Opened [.memory] P := hP.mono (by decide)
  have h2 : Opened [.decks] P := hP.mono (by decide)
  have h3 : Opened [.parts] P := hP.mono (by decide)
  have h4 : Opened [.tiles] P := hP.mono (by decide)
  unfold State.startInst
  try dsimp only
  repeat' first
    | with_reducible assumption | (intro _; try dsimp only) | with_reducible apply keeps_ite
    | with_reducible apply State.freshSems_keeps h1 | with_reducible apply State.onExec_keeps h2
    | with_reducible apply State.onPart_keeps h3 | with_reducible apply State.onTile_keeps h4
    | with_reducible apply State.wake_keeps h4 | with_reducible apply State.withJobs_keeps h4
    | with_reducible apply State.withSems_keeps h3 | with_reducible apply State.withThrs_keeps h4
    | with_reducible apply State.withTileSems_keeps h4 | with_reducible apply keeps_foldl
    | with_reducible apply keeps_foldl1 | with_reducible apply keeps_foldl11
    | with_reducible exact keeps_pair (by assumption) (by assumption) | (split <;> try dsimp only)

theorem State.commitAll_keeps {P : State → Prop} (hP : Opened [.registers, .vectors, .memory, .controllers, .answers,
    .records, .pages, .management] P) (s : State) (p x : Nat) (ue : Option Nat) (oks : P s) : P (State.commitAll s p x
    ue).1 := by
  unfold State.commitAll
  try dsimp only
  repeat' first
    | with_reducible assumption | (intro _; try dsimp only) | with_reducible apply keeps_ite1
    | with_reducible apply keeps_ite | with_reducible apply State.commitSess_keeps hP
    | with_reducible apply keeps_foldl | with_reducible apply keeps_foldl1 | with_reducible apply keeps_foldl11
    | with_reducible exact keeps_pair (by assumption) (by assumption)
    | (refine keeps_pair (by assumption) ?_; with_reducible apply State.commitSess_keeps hP)
    | (split <;> try dsimp only)

theorem State.emitTokens_keeps {P : State → Prop} (hP : Opened [.registers, .vectors, .memory, .controllers, .answers,
    .records, .decks, .management] P) (s : State) (p x : Nat) (oks : P s) : P (State.emitTokens s p x) := by
  unfold State.emitTokens
  try dsimp only
  repeat' first
    | with_reducible assumption | (intro _; try dsimp only) | with_reducible apply keeps_ite
    | with_reducible apply State.tsPut_keeps hP | with_reducible apply keeps_foldl
    | with_reducible exact keeps_pair (by assumption) (by assumption) | (split <;> try dsimp only)

theorem State.cancelSteps_keeps {P : State → Prop} (hP : Opened [.registers, .vectors, .memory, .controllers,
    .answers, .records, .pages, .thapel, .management] P) (s : State) (p l : Nat) (js : List Nat) (oks : P s) : P
    (State.cancelSteps s p l js) := by
  have h1 : Opened [.thapel] P := hP.mono (by decide)
  unfold State.cancelSteps
  try dsimp only
  repeat' first
    | with_reducible assumption | (intro _; try dsimp only) | with_reducible apply keeps_ite
    | with_reducible apply State.attnDrop_keeps hP | with_reducible apply State.withChans_keeps h1
    | with_reducible apply State.withThapWait_keeps h1 | with_reducible apply keeps_foldl
    | with_reducible apply keeps_foldl1 | with_reducible apply keeps_foldl11
    | with_reducible exact keeps_pair (by assumption) (by assumption) | (split <;> try dsimp only)

theorem State.stopTile_keeps {P : State → Prop} (hP : Opened [.registers, .tiles] P) (s : State) (p l : Nat) (i :
    Inst) (j : Nat) (oks : P s) : P (State.stopTile s p l i j) := by
  have h1 : Opened [.registers] P := hP.mono (by decide)
  have h2 : Opened [.tiles] P := hP.mono (by decide)
  unfold State.stopTile
  try dsimp only
  repeat' first
    | with_reducible assumption | (intro _; try dsimp only) | with_reducible apply keeps_ite
    | with_reducible apply State.countLevels_keeps h1 | with_reducible apply State.onTile_keeps h2
    | with_reducible apply State.orphanTags_keeps h2 | with_reducible apply State.seqFault_keeps h1
    | with_reducible apply State.setJob_keeps h2 | with_reducible apply State.stopArrays_keeps hP
    | with_reducible apply State.withThrs_keeps h2 | with_reducible apply keeps_foldl
    | with_reducible apply keeps_foldl1 | with_reducible apply keeps_foldl11
    | with_reducible exact keeps_pair (by assumption) (by assumption) | (split <;> try dsimp only)

theorem State.abortInst_keeps {P : State → Prop} (hP : Opened [.registers, .vectors, .memory, .controllers, .answers,
    .records, .tiles, .parts, .pages, .thapel, .management] P) (s : State) (p l : Nat) (oks : P s) : P
    (State.abortInst s p l) := by
  have h1 : Opened [.registers, .vectors, .memory, .controllers, .answers, .records, .pages, .thapel, .management] P
      := hP.mono (by decide)
  have h2 : Opened [.registers] P := hP.mono (by decide)
  have h3 : Opened [.parts] P := hP.mono (by decide)
  have h4 : Opened [.registers, .tiles] P := hP.mono (by decide)
  unfold State.abortInst
  try dsimp only
  repeat' first
    | with_reducible assumption | (intro _; try dsimp only) | with_reducible apply keeps_ite
    | with_reducible apply State.cancelSteps_keeps h1 | with_reducible apply State.fset_keeps h2
    | with_reducible apply State.onInst_keeps h3 | with_reducible apply State.stopTile_keeps h4
    | with_reducible apply keeps_foldl | with_reducible exact keeps_pair (by assumption) (by assumption)
    | (split <;> try dsimp only)

theorem State.logAppend_keeps {P : State → Prop} (hP : Opened [.registers, .management] P) (s : State) (hub : Nat) (r
    : ErrRec) (oks : P s) : P (State.logAppend s hub r) := by
  have h1 : Opened [.registers] P := hP.mono (by decide)
  have h2 : Opened [.management] P := hP.mono (by decide)
  unfold State.logAppend
  try dsimp only
  repeat' first
    | with_reducible assumption | (intro _; try dsimp only) | with_reducible apply keeps_ite
    | with_reducible apply State.fcount_keeps h1 | with_reducible apply State.withMgmt_keeps h2
    | with_reducible exact keeps_pair (by assumption) (by assumption) | (split <;> try dsimp only)

theorem State.mgmtRec_keeps {P : State → Prop} (hP : Opened [.registers, .vectors, .records, .management] P) (s :
    State) (n i0 i1 : Nat) (oks : P s) : P (State.mgmtRec s n i0 i1) := by
  have h1 : Opened [.registers, .vectors] P := hP.mono (by decide)
  have h2 : Opened [.registers, .management] P := hP.mono (by decide)
  have h3 : Opened [.management] P := hP.mono (by decide)
  unfold State.mgmtRec
  try dsimp only
  repeat' first
    | with_reducible assumption | (intro _; try dsimp only) | with_reducible apply keeps_ite
    | with_reducible apply State.evt_keeps h1 | with_reducible apply State.logAppend_keeps h2
    | with_reducible apply State.record_keeps hP | with_reducible apply State.withMgmt_keeps h3
    | with_reducible exact keeps_pair (by assumption) (by assumption) | (split <;> try dsimp only)

theorem State.setPriv1_keeps {P : State → Prop} (hP : Opened [.registers, .vectors, .records, .management] P) (s :
    State) (port v why : Nat) (oks : P s) : P (State.setPriv1 s port v why) := by
  have h1 : Opened [.registers] P := hP.mono (by decide)
  unfold State.setPriv1
  try dsimp only
  repeat' first
    | with_reducible assumption | (intro _; try dsimp only) | with_reducible apply keeps_ite
    | with_reducible apply State.fset_keeps h1 | with_reducible apply State.mgmtRec_keeps hP
    | with_reducible exact keeps_pair (by assumption) (by assumption) | (split <;> try dsimp only)

theorem State.setPriv_keeps {P : State → Prop} (hP : Opened [.registers, .vectors, .records, .management] P) (s :
    State) (v why : Nat) (oks : P s) : P (State.setPriv s v why) := by
  have h1 : Opened [.registers] P := hP.mono (by decide)
  unfold State.setPriv
  try dsimp only
  repeat' first
    | with_reducible assumption | (intro _; try dsimp only) | with_reducible apply keeps_ite
    | with_reducible apply State.fset_keeps h1 | with_reducible apply State.mgmtRec_keeps hP
    | with_reducible apply State.setPriv1_keeps hP | with_reducible exact keeps_pair (by assumption) (by assumption)
    | (split <;> try dsimp only)

theorem State.tileOff_keeps {P : State → Prop} (hP : Opened [.tiles] P) (s : State) (j : Nat) (oks : P s) : P
    (State.tileOff s j) := by
  unfold State.tileOff
  try dsimp only
  repeat' first
    | with_reducible assumption | (intro _; try dsimp only) | with_reducible apply keeps_ite
    | with_reducible apply State.withArrs_keeps hP | with_reducible apply State.withJobs_keeps hP
    | with_reducible apply State.withThrs_keeps hP | with_reducible apply State.withTileSems_keeps hP
    | with_reducible apply State.withTiles_keeps hP | with_reducible exact keeps_pair (by assumption) (by assumption)
    | (split <;> try dsimp only)

theorem State.tilesOff_keeps {P : State → Prop} (hP : Opened [.tiles] P) (s : State) (oks : P s) : P (State.tilesOff
    s) := by
  unfold State.tilesOff
  try dsimp only
  repeat' first
    | with_reducible assumption | (intro _; try dsimp only) | with_reducible apply keeps_ite
    | with_reducible apply State.tileOff_keeps hP | with_reducible apply keeps_foldl
    | with_reducible exact keeps_pair (by assumption) (by assumption) | (split <;> try dsimp only)

theorem State.stopWork_keeps {P : State → Prop} (hP : Opened [.registers, .vectors, .memory, .controllers, .answers,
    .records, .tiles, .parts, .decks, .pages, .thapel, .management] P) (s : State) (oks : P s) : P (State.stopWork s)
    := by
  have h1 : Opened [.registers, .vectors, .memory, .controllers, .answers, .records, .tiles, .parts, .pages, .thapel,
      .management] P := hP.mono (by decide)
  have h2 : Opened [.decks] P := hP.mono (by decide)
  unfold State.stopWork
  try dsimp only
  repeat' first
    | with_reducible assumption | (intro _; try dsimp only) | with_reducible apply keeps_ite
    | with_reducible apply State.abortInst_keeps h1 | with_reducible apply State.withDecks_keeps h2
    | with_reducible apply keeps_foldl | with_reducible apply keeps_foldl1 | with_reducible apply keeps_foldl11
    | with_reducible exact keeps_pair (by assumption) (by assumption) | (split <;> try dsimp only)

theorem State.enterHold_keeps {P : State → Prop} (hP : Opened [.registers, .vectors, .memory, .controllers, .answers,
    .records, .tiles, .parts, .decks, .pages, .thapel, .boot, .management] P) (s : State) (cause : Nat) (oks : P s) :
    P (State.enterHold s cause) := by
  have h1 : Opened [.registers] P := hP.mono (by decide)
  have h2 : Opened [.registers, .vectors, .records, .management] P := hP.mono (by decide)
  have h3 : Opened [.registers, .vectors, .memory, .controllers, .answers, .records, .tiles, .parts, .decks, .pages,
      .thapel, .management] P := hP.mono (by decide)
  have h4 : Opened [.tiles] P := hP.mono (by decide)
  have h5 : Opened [.boot] P := hP.mono (by decide)
  unfold State.enterHold
  try dsimp only
  repeat' first
    | with_reducible assumption | (intro _; try dsimp only) | with_reducible apply keeps_ite
    | with_reducible apply State.fset_keeps h1 | with_reducible apply State.setPriv_keeps h2
    | with_reducible apply State.stopWork_keeps h3 | with_reducible apply State.tilesOff_keeps h4
    | with_reducible apply State.withBoot_keeps h5 | with_reducible exact keeps_pair (by assumption) (by assumption)
    | (split <;> try dsimp only)

theorem State.putReg_keeps {P : State → Prop} (hP : Opened [.registers] P) (s : State) (d : RegDesc) (u i v : Nat)
    (oks : P s) : P (State.putReg s d u i v) := by
  unfold State.putReg
  try dsimp only
  repeat' first
    | with_reducible assumption | (intro _; try dsimp only) | with_reducible apply keeps_ite
    | with_reducible apply State.fset_keeps hP | with_reducible apply keeps_foldl
    | with_reducible exact keeps_pair (by assumption) (by assumption) | (split <;> try dsimp only)

theorem State.bare_keeps {P : State → Prop} (hP : Opened [.registers, .boot] P) (s : State) (oks : P s) : P
    (State.bare s) := by
  have h1 : Opened [.boot] P := hP.mono (by decide)
  have h2 : Opened [.registers] P := hP.mono (by decide)
  unfold State.bare
  try dsimp only
  repeat' first
    | with_reducible assumption | (intro _; try dsimp only) | with_reducible apply keeps_ite
    | with_reducible apply State.withImg_keeps h1 | with_reducible apply State.withRegs_keeps h2
    | with_reducible exact keeps_pair (by assumption) (by assumption) | (split <;> try dsimp only)

theorem State.bareReg_keeps {P : State → Prop} (hP : Opened [.registers] P) (s : State) (a : Nat) (oks : P s) : P
    (State.bareReg s a) := by
  unfold State.bareReg
  try dsimp only
  repeat' first
    | with_reducible assumption | (intro _; try dsimp only) | with_reducible apply keeps_ite
    | with_reducible apply State.fset_keeps hP | with_reducible apply keeps_foldl | with_reducible apply keeps_foldl1
    | with_reducible apply keeps_foldl11 | with_reducible exact keeps_pair (by assumption) (by assumption)
    | (split <;> try dsimp only)

theorem State.bareWindows_keeps {P : State → Prop} (hP : Opened [.registers] P) (s : State) (p : Nat) (oks : P s) : P
    (State.bareWindows s p) := by
  unfold State.bareWindows
  try dsimp only
  repeat' first
    | with_reducible assumption | (intro _; try dsimp only) | with_reducible apply keeps_ite
    | with_reducible apply State.bareReg_keeps hP | with_reducible apply State.fset_keeps hP
    | with_reducible apply keeps_foldl | with_reducible apply keeps_foldl1 | with_reducible apply keeps_foldl11
    | with_reducible exact keeps_pair (by assumption) (by assumption) | (split <;> try dsimp only)

theorem State.barePart_keeps {P : State → Prop} (hP : Opened [.registers, .boot] P) (s : State) (p : Nat) (oks : P s)
    : P (State.barePart s p) := by
  have h1 : Opened [.registers] P := hP.mono (by decide)
  have h2 : Opened [.boot] P := hP.mono (by decide)
  unfold State.barePart
  try dsimp only
  repeat' first
    | with_reducible assumption | (intro _; try dsimp only) | with_reducible apply keeps_ite
    | with_reducible apply State.bareReg_keeps h1 | with_reducible apply State.bareWindows_keeps h1
    | with_reducible apply State.fbitSet_keeps h1 | with_reducible apply State.fset_keeps h1
    | with_reducible apply State.fsetAt_keeps h1 | with_reducible apply State.withImg_keeps h2
    | with_reducible apply State.withRegs_keeps h1 | with_reducible apply keeps_foldl
    | with_reducible apply keeps_foldl1 | with_reducible apply keeps_foldl11
    | with_reducible exact keeps_pair (by assumption) (by assumption) | (split <;> try dsimp only)

theorem State.putOwn_keeps {P : State → Prop} (hP : Opened [.registers] P) (s : State) (p : Nat) (r : RegItem) (oks :
    P s) : P (State.putOwn s p r) := by
  unfold State.putOwn
  try dsimp only
  repeat' first
    | with_reducible assumption | (intro _; try dsimp only) | with_reducible apply keeps_ite
    | with_reducible apply State.fbitSet_keeps hP | with_reducible apply State.fsetAt_keeps hP
    | with_reducible apply State.putReg_keeps hP | with_reducible apply keeps_foldl | with_reducible apply keeps_foldl1
    | with_reducible apply keeps_foldl11 | with_reducible exact keeps_pair (by assumption) (by assumption)
    | (split <;> try dsimp only)

theorem State.putEntry_keeps {P : State → Prop} (hP : Opened [.registers, .boot] P) (s : State) (rd : Nat → Byte) (bk
    : Nat) (i : Item16) (a k : Nat) (oks : P s) : P (State.putEntry s rd bk i a k) := by
  have h1 : Opened [.registers] P := hP.mono (by decide)
  have h2 : Opened [.boot] P := hP.mono (by decide)
  unfold State.putEntry
  try dsimp only
  repeat' first
    | with_reducible assumption | (intro _; try dsimp only) | with_reducible apply keeps_ite
    | with_reducible apply State.fset_keeps h1 | with_reducible apply State.withImg_keeps h2
    | with_reducible exact keeps_pair (by assumption) (by assumption) | (split <;> try dsimp only)

theorem State.putItems_keeps {P : State → Prop} (hP : Opened [.registers, .boot] P) (s : State) (rd : Nat → Byte) (bk
    : Nat) (is : List Item16) (oks : P s) : P (State.putItems s rd bk is) := by
  unfold State.putItems
  try dsimp only
  repeat' first
    | with_reducible assumption | (intro _; try dsimp only) | with_reducible apply keeps_ite
    | with_reducible apply State.putEntry_keeps hP | with_reducible apply keeps_foldl
    | with_reducible apply keeps_foldl1 | with_reducible apply keeps_foldl11
    | with_reducible exact keeps_pair (by assumption) (by assumption) | (split <;> try dsimp only)

theorem State.placePools_keeps {P : State → Prop} (hP : Opened [.boot] P) (s : State) (oks : P s) : P
    (State.placePools s) := by
  unfold State.placePools
  try dsimp only
  repeat' first
    | with_reducible assumption | (intro _; try dsimp only) | with_reducible apply keeps_ite
    | with_reducible apply State.withImg_keeps hP | with_reducible apply keeps_foldl
    | with_reducible apply keeps_foldl1 | with_reducible apply keeps_foldl11
    | with_reducible exact keeps_pair (by assumption) (by assumption) | (split <;> try dsimp only)

theorem State.withImage_keeps {P : State → Prop} (hP : Opened [.registers, .boot] P) (s : State) (rd : Nat → Byte) (is
    : List Item16) (oks : P s) : P (State.withImage s rd is) := by
  have h1 : Opened [.registers] P := hP.mono (by decide)
  have h2 : Opened [.boot] P := hP.mono (by decide)
  unfold State.withImage
  try dsimp only
  repeat' first
    | with_reducible assumption | (intro _; try dsimp only) | with_reducible apply keeps_ite
    | with_reducible apply State.bare_keeps hP | with_reducible apply State.fset_keeps h1
    | with_reducible apply State.placePools_keeps h2 | with_reducible apply State.putItems_keeps hP
    | with_reducible apply State.putReg_keeps h1 | with_reducible apply keeps_foldl | with_reducible apply keeps_foldl1
    | with_reducible apply keeps_foldl11 | with_reducible exact keeps_pair (by assumption) (by assumption)
    | (split <;> try dsimp only)

theorem State.withPart_keeps {P : State → Prop} (hP : Opened [.registers, .boot] P) (s : State) (rd : Nat → Byte) (p :
    Nat) (is : List Item16) (oks : P s) : P (State.withPart s rd p is) := by
  have h1 : Opened [.registers] P := hP.mono (by decide)
  have h2 : Opened [.boot] P := hP.mono (by decide)
  unfold State.withPart
  try dsimp only
  repeat' first
    | with_reducible assumption | (intro _; try dsimp only) | with_reducible apply keeps_ite
    | with_reducible apply State.barePart_keeps hP | with_reducible apply State.fbitSet_keeps h1
    | with_reducible apply State.fsetAt_keeps h1 | with_reducible apply State.placePools_keeps h2
    | with_reducible apply State.putItems_keeps hP | with_reducible apply State.putOwn_keeps h1
    | with_reducible apply keeps_foldl | with_reducible exact keeps_pair (by assumption) (by assumption)
    | (split <;> try dsimp only)

theorem State.onPort_keeps {P : State → Prop} (hP : Opened [.links] P) (s : State) (p : Nat) (f : Port → Port) (oks :
    P s) : P (State.onPort s p f) := by
  exact (hP .links (by decide)).1 s p f oks

theorem State.setPst_keeps {P : State → Prop} (hP : Opened [.registers, .links] P) (s : State) (p v : Nat) (oks : P s)
    : P (State.setPst s p v) := by
  have h1 : Opened [.registers] P := hP.mono (by decide)
  have h2 : Opened [.links] P := hP.mono (by decide)
  unfold State.setPst
  try dsimp only
  repeat' first
    | with_reducible assumption | (intro _; try dsimp only) | with_reducible apply keeps_ite
    | with_reducible apply State.fset_keeps h1 | with_reducible apply State.onPort_keeps h2
    | with_reducible exact keeps_pair (by assumption) (by assumption) | (split <;> try dsimp only)

theorem State.fabRecord_keeps {P : State → Prop} (hP : Opened [.registers, .vectors, .records, .management] P) (s :
    State) (p cause i0 i1 : Nat) (oks : P s) : P (State.fabRecord s p cause i0 i1) := by
  unfold State.fabRecord
  try dsimp only
  repeat' first
    | with_reducible assumption | (intro _; try dsimp only) | with_reducible apply keeps_ite
    | with_reducible apply State.record_keeps hP | with_reducible exact keeps_pair (by assumption) (by assumption)
    | (split <;> try dsimp only)

theorem State.queueOn_keeps {P : State → Prop} (hP : Opened [.links] P) (s : State) (p : Nat) (m : Msg) (oks : P s) :
    P (State.queueOn s p m) := by
  unfold State.queueOn
  try dsimp only
  repeat' first
    | with_reducible assumption | (intro _; try dsimp only) | with_reducible apply keeps_ite
    | with_reducible apply State.onPort_keeps hP | with_reducible exact keeps_pair (by assumption) (by assumption)
    | (split <;> try dsimp only)

theorem State.routed_keeps {P : State → Prop} (hP : Opened [.links] P) (s : State) (m : Msg) (oks : P s) : P
    (State.routed s m).1 := by
  unfold State.routed
  try dsimp only
  repeat' first
    | with_reducible assumption | (intro _; try dsimp only) | with_reducible apply keeps_ite1
    | with_reducible apply keeps_ite | with_reducible apply State.queueOn_keeps hP
    | with_reducible apply State.withInbox_keeps hP | with_reducible exact keeps_pair (by assumption) (by assumption)
    | (split <;> try dsimp only)

theorem State.routeLost_keeps {P : State → Prop} (hP : Opened [.registers, .vectors, .records, .management] P) (s :
    State) (p tbl i : Nat) (oks : P s) : P (State.routeLost s p tbl i) := by
  have h1 : Opened [.registers, .vectors] P := hP.mono (by decide)
  unfold State.routeLost
  try dsimp only
  repeat' first
    | with_reducible assumption | (intro _; try dsimp only) | with_reducible apply keeps_ite
    | with_reducible apply State.evt_keeps h1 | with_reducible apply State.fabRecord_keeps hP
    | with_reducible exact keeps_pair (by assumption) (by assumption) | (split <;> try dsimp only)

theorem State.lossCheck_keeps {P : State → Prop} (hP : Opened [.registers, .vectors, .records, .management] P) (s :
    State) (p old new : Nat) (oks : P s) : P (State.lossCheck s p old new) := by
  unfold State.lossCheck
  try dsimp only
  repeat' first
    | with_reducible assumption | (intro _; try dsimp only) | with_reducible apply keeps_ite
    | with_reducible apply State.routeLost_keeps hP | with_reducible apply keeps_foldl
    | with_reducible exact keeps_pair (by assumption) (by assumption) | (split <;> try dsimp only)

theorem State.requeue_keeps {P : State → Prop} (hP : Opened [.links] P) (s : State) (p : Nat) (oks : P s) : P
    (State.requeue s p) := by
  unfold State.requeue
  try dsimp only
  repeat' first
    | with_reducible assumption | (intro _; try dsimp only) | with_reducible apply keeps_ite
    | with_reducible apply State.onPort_keeps hP | with_reducible apply State.routed_keeps hP
    | with_reducible apply keeps_foldl | with_reducible apply keeps_foldl1 | with_reducible apply keeps_foldl11
    | with_reducible exact keeps_pair (by assumption) (by assumption)
    | (refine keeps_pair (by assumption) ?_; with_reducible apply State.routed_keeps hP) | (split <;> try dsimp only)

theorem State.relive_keeps {P : State → Prop} (hP : Opened [.registers, .vectors, .records, .links, .management] P) (s
    : State) (oks : P s) : P (State.relive s) := by
  have h1 : Opened [.registers] P := hP.mono (by decide)
  have h2 : Opened [.registers, .vectors, .records, .management] P := hP.mono (by decide)
  have h3 : Opened [.links] P := hP.mono (by decide)
  unfold State.relive
  try dsimp only
  repeat' first
    | with_reducible assumption | (intro _; try dsimp only) | with_reducible apply keeps_ite
    | with_reducible apply State.fset_keeps h1 | with_reducible apply State.lossCheck_keeps h2
    | with_reducible apply State.requeue_keeps h3 | with_reducible apply keeps_foldl
    | with_reducible exact keeps_pair (by assumption) (by assumption) | (split <;> try dsimp only)

theorem State.freeFlits_keeps {P : State → Prop} (hP : Opened [.links] P) (s : State) (p vc dl n : Nat) (oks : P s) :
    P (State.freeFlits s p vc dl n) := by
  unfold State.freeFlits
  try dsimp only
  repeat' first
    | with_reducible assumption | (intro _; try dsimp only) | with_reducible apply keeps_ite
    | with_reducible apply State.onPort_keeps hP | with_reducible exact keeps_pair (by assumption) (by assumption)
    | (split <;> try dsimp only)

theorem State.takeMsg_keeps {P : State → Prop} (hP : Opened [.links] P) (s : State) (m : Msg) (oks : P s) : P
    (State.takeMsg s m) := by
  unfold State.takeMsg
  try dsimp only
  repeat' first
    | with_reducible assumption | (intro _; try dsimp only) | with_reducible apply keeps_ite
    | with_reducible apply State.freeFlits_keeps hP | with_reducible apply State.withInbox_keeps hP
    | with_reducible exact keeps_pair (by assumption) (by assumption) | (split <;> try dsimp only)

theorem State.onMsg_keeps {P : State → Prop} (hP : Opened [.links] P) (s : State) (m : Msg) (ty : Nat) (f : State →
    State) (oks : P s) (okf : ∀ (t0 : State), P t0 → P (f t0)) : P (State.onMsg s m ty f) := by
  unfold State.onMsg
  try dsimp only
  repeat' first
    | with_reducible assumption | (intro _; try dsimp only) | with_reducible apply okf | with_reducible apply keeps_ite
    | with_reducible apply State.takeMsg_keeps hP | with_reducible exact keeps_pair (by assumption) (by assumption)
    | (split <;> try dsimp only)

theorem State.portStart_keeps {P : State → Prop} (hP : Opened [.registers, .links] P) (s : State) (p : Nat) (oks : P
    s) : P (State.portStart s p) := by
  unfold State.portStart
  try dsimp only
  repeat' first
    | with_reducible assumption | (intro _; try dsimp only) | with_reducible apply keeps_ite
    | with_reducible apply State.setPst_keeps hP | with_reducible exact keeps_pair (by assumption) (by assumption)
    | (split <;> try dsimp only)

theorem State.trainFail_keeps {P : State → Prop} (hP : Opened [.registers, .links] P) (s : State) (p cause : Nat) (oks
    : P s) : P (State.trainFail s p cause) := by
  have h1 : Opened [.registers] P := hP.mono (by decide)
  have h2 : Opened [.links] P := hP.mono (by decide)
  unfold State.trainFail
  try dsimp only
  repeat' first
    | with_reducible assumption | (intro _; try dsimp only) | with_reducible apply keeps_ite
    | with_reducible apply State.fset_keeps h1 | with_reducible apply State.onPort_keeps h2
    | with_reducible apply State.setPst_keeps hP | with_reducible exact keeps_pair (by assumption) (by assumption)
    | (split <;> try dsimp only)

theorem State.widthReport_keeps {P : State → Prop} (hP : Opened [.registers, .vectors, .records, .management] P) (s :
    State) (p width lanes : Nat) (oks : P s) : P (State.widthReport s p width lanes) := by
  have h1 : Opened [.registers, .vectors] P := hP.mono (by decide)
  have h2 : Opened [.registers] P := hP.mono (by decide)
  unfold State.widthReport
  try dsimp only
  repeat' first
    | with_reducible assumption | (intro _; try dsimp only) | with_reducible apply keeps_ite
    | with_reducible apply State.evt_keeps h1 | with_reducible apply State.fabRecord_keeps hP
    | with_reducible apply State.fset_keeps h2 | with_reducible exact keeps_pair (by assumption) (by assumption)
    | (split <;> try dsimp only)

theorem State.coldIf_keeps {P : State → Prop} (hP : Opened [.links] P) (s : State) (p st : Nat) (f : TrainFrame) (oks
    : P s) : P (State.coldIf s p st f) := by
  unfold State.coldIf
  try dsimp only
  repeat' first
    | with_reducible assumption | (intro _; try dsimp only) | with_reducible apply keeps_ite
    | with_reducible apply State.onPort_keeps hP | with_reducible exact keeps_pair (by assumption) (by assumption)
    | (split <;> try dsimp only)

theorem State.answered_keeps {P : State → Prop} (hP : Opened [.links] P) (p : Nat) (f : TrainFrame) (s : State) (oks :
    P s) : P (State.answered p f s) := by
  unfold State.answered
  try dsimp only
  repeat' first
    | with_reducible assumption | (intro _; try dsimp only) | with_reducible apply keeps_ite
    | with_reducible apply State.onPort_keeps hP | with_reducible exact keeps_pair (by assumption) (by assumption)
    | (split <;> try dsimp only)

theorem State.authStart_keeps {P : State → Prop} (hP : Opened [.registers, .links] P) (s : State) (p : Nat) (oks : P
    s) : P (State.authStart s p) := by
  have h1 : Opened [.registers] P := hP.mono (by decide)
  have h2 : Opened [.links] P := hP.mono (by decide)
  unfold State.authStart
  try dsimp only
  repeat' first
    | with_reducible assumption | (intro _; try dsimp only) | with_reducible apply keeps_ite
    | with_reducible apply State.fset_keeps h1 | with_reducible apply State.onPort_keeps h2
    | with_reducible apply State.setPst_keeps hP | with_reducible exact keeps_pair (by assumption) (by assumption)
    | (split <;> try dsimp only)

theorem State.beginRetrain_keeps {P : State → Prop} (hP : Opened [.registers, .vectors, .records, .links, .management]
    P) (s : State) (p cause : Nat) (oks : P s) : P (State.beginRetrain s p cause) := by
  have h1 : Opened [.links] P := hP.mono (by decide)
  have h2 : Opened [.registers, .links] P := hP.mono (by decide)
  unfold State.beginRetrain
  try dsimp only
  repeat' first
    | with_reducible assumption | (intro _; try dsimp only) | with_reducible apply keeps_ite
    | with_reducible apply State.onPort_keeps h1 | with_reducible apply State.relive_keeps hP
    | with_reducible apply State.setPst_keeps h2 | with_reducible exact keeps_pair (by assumption) (by assumption)
    | (split <;> try dsimp only)

theorem State.linkLost_keeps {P : State → Prop} (hP : Opened [.registers, .vectors, .records, .links, .management] P)
    (s : State) (p : Nat) (oks : P s) : P (State.linkLost s p) := by
  have h1 : Opened [.registers, .vectors] P := hP.mono (by decide)
  have h2 : Opened [.registers, .vectors, .records, .management] P := hP.mono (by decide)
  have h3 : Opened [.registers] P := hP.mono (by decide)
  have h4 : Opened [.links] P := hP.mono (by decide)
  have h5 : Opened [.registers, .links] P := hP.mono (by decide)
  unfold State.linkLost
  try dsimp only
  repeat' first
    | with_reducible assumption | (intro _; try dsimp only) | with_reducible apply keeps_ite
    | with_reducible apply State.evt_keeps h1 | with_reducible apply State.fabRecord_keeps h2
    | with_reducible apply State.fset_keeps h3 | with_reducible apply State.onPort_keeps h4
    | with_reducible apply State.relive_keeps hP | with_reducible apply State.setPst_keeps h5
    | with_reducible exact keeps_pair (by assumption) (by assumption) | (split <;> try dsimp only)

theorem State.quarantine_keeps {P : State → Prop} (hP : Opened [.registers, .vectors, .records, .links, .management]
    P) (s : State) (p by_ : Nat) (oks : P s) : P (State.quarantine s p by_) := by
  have h1 : Opened [.registers, .vectors] P := hP.mono (by decide)
  have h2 : Opened [.registers, .vectors, .records, .management] P := hP.mono (by decide)
  have h3 : Opened [.registers] P := hP.mono (by decide)
  have h4 : Opened [.links] P := hP.mono (by decide)
  have h5 : Opened [.registers, .links] P := hP.mono (by decide)
  unfold State.quarantine
  try dsimp only
  repeat' first
    | with_reducible assumption | (intro _; try dsimp only) | with_reducible apply keeps_ite
    | with_reducible apply State.evt_keeps h1 | with_reducible apply State.fabRecord_keeps h2
    | with_reducible apply State.fset_keeps h3 | with_reducible apply State.onPort_keeps h4
    | with_reducible apply State.relive_keeps hP | with_reducible apply State.setPst_keeps h5
    | with_reducible apply State.withInbox_keeps h4 | with_reducible exact keeps_pair (by assumption) (by assumption)
    | (split <;> try dsimp only)

theorem State.malformed_keeps {P : State → Prop} (hP : Opened [.registers, .vectors, .records, .links, .management] P)
    (s : State) (p code : Nat) (oks : P s) : P (State.malformed s p code) := by
  have h1 : Opened [.registers] P := hP.mono (by decide)
  unfold State.malformed
  try dsimp only
  repeat' first
    | with_reducible assumption | (intro _; try dsimp only) | with_reducible apply keeps_ite
    | with_reducible apply State.fcount_keeps h1 | with_reducible apply State.fset_keeps h1
    | with_reducible apply State.quarantine_keeps hP | with_reducible exact keeps_pair (by assumption) (by assumption)
    | (split <;> try dsimp only)

theorem State.flitHeader_keeps {P : State → Prop} (hP : Opened [.registers, .vectors, .records, .links, .management]
    P) (s : State) (p : Nat) (f : Flit) (oks : P s) : P (State.flitHeader s p f) := by
  have h1 : Opened [.links] P := hP.mono (by decide)
  unfold State.flitHeader
  try dsimp only
  repeat' first
    | with_reducible assumption | (intro _; try dsimp only) | with_reducible apply keeps_ite
    | with_reducible apply State.malformed_keeps hP | with_reducible apply State.onPort_keeps h1
    | with_reducible exact keeps_pair (by assumption) (by assumption) | (split <;> try dsimp only)

theorem State.replayFrom_keeps {P : State → Prop} (hP : Opened [.registers, .vectors, .records, .links, .management]
    P) (s : State) (p : Nat) (fs : List Flit) (oks : P s) : P (State.replayFrom s p fs) := by
  have h1 : Opened [.registers] P := hP.mono (by decide)
  have h2 : Opened [.links] P := hP.mono (by decide)
  unfold State.replayFrom
  try dsimp only
  repeat' first
    | with_reducible assumption | (intro _; try dsimp only) | with_reducible apply keeps_ite
    | with_reducible apply State.beginRetrain_keeps hP | with_reducible apply State.fcount_keeps h1
    | with_reducible apply State.onPort_keeps h2 | with_reducible exact keeps_pair (by assumption) (by assumption)
    | (split <;> try dsimp only)

theorem State.sendNak_keeps {P : State → Prop} (hP : Opened [.links] P) (s : State) (p : Nat) (oks : P s) : P
    (State.sendNak s p) := by
  unfold State.sendNak
  try dsimp only
  repeat' first
    | with_reducible assumption | (intro _; try dsimp only) | with_reducible apply keeps_ite
    | with_reducible apply State.onPort_keeps hP | with_reducible exact keeps_pair (by assumption) (by assumption)
    | (split <;> try dsimp only)

theorem State.acceptFlit_keeps {P : State → Prop} (hP : Opened [.registers, .vectors, .records, .links, .management]
    P) (s : State) (p : Nat) (f : Flit) (oks : P s) : P (State.acceptFlit s p f) := by
  have h1 : Opened [.links] P := hP.mono (by decide)
  unfold State.acceptFlit
  try dsimp only
  repeat' first
    | with_reducible assumption | (intro _; try dsimp only) | with_reducible apply keeps_ite
    | with_reducible apply State.freeFlits_keeps h1 | with_reducible apply State.malformed_keeps hP
    | with_reducible apply State.onPort_keeps h1 | with_reducible apply State.withInbox_keeps h1
    | with_reducible exact keeps_pair (by assumption) (by assumption) | (split <;> try dsimp only)

theorem State.dropFlit_keeps {P : State → Prop} (hP : Opened [.registers, .vectors, .records, .links, .management] P)
    (s : State) (p : Nat) (f : Flit) (code : Nat) (oks : P s) : P (State.dropFlit s p f code) := by
  have h1 : Opened [.links] P := hP.mono (by decide)
  unfold State.dropFlit
  try dsimp only
  repeat' first
    | with_reducible assumption | (intro _; try dsimp only) | with_reducible apply keeps_ite
    | with_reducible apply State.freeFlits_keeps h1 | with_reducible apply State.malformed_keeps hP
    | with_reducible apply State.onPort_keeps h1 | with_reducible exact keeps_pair (by assumption) (by assumption)
    | (split <;> try dsimp only)

theorem State.sendFlit_keeps {P : State → Prop} (hP : Opened [.links] P) (s : State) (p : Nat) (f : Flit) (oks : P s)
    : P (State.sendFlit s p f) := by
  unfold State.sendFlit
  try dsimp only
  repeat' first
    | with_reducible assumption | (intro _; try dsimp only) | with_reducible apply keeps_ite
    | with_reducible apply State.onPort_keeps hP | with_reducible exact keeps_pair (by assumption) (by assumption)
    | (split <;> try dsimp only)

theorem State.sendData_keeps {P : State → Prop} (hP : Opened [.links] P) (s : State) (p : Nat) (q : Queued) (oks : P
    s) : P (State.sendData s p q) := by
  unfold State.sendData
  try dsimp only
  repeat' first
    | with_reducible assumption | (intro _; try dsimp only) | with_reducible apply keeps_ite
    | with_reducible apply State.onPort_keeps hP | with_reducible apply State.sendFlit_keeps hP
    | with_reducible exact keeps_pair (by assumption) (by assumption) | (split <;> try dsimp only)

theorem State.setProbe_keeps {P : State → Prop} (hP : Opened [.registers] P) (s : State) (group : Bool) (i k : Nat) (b
    : Bool) (oks : P s) : P (State.setProbe s group i k b) := by
  unfold State.setProbe
  try dsimp only
  repeat' first
    | with_reducible assumption | (intro _; try dsimp only) | with_reducible apply keeps_ite
    | with_reducible apply State.fbitSet_keeps hP | with_reducible exact keeps_pair (by assumption) (by assumption)
    | (split <;> try dsimp only)

theorem State.walk_keeps {P : State → Prop} (hP : Opened [.registers, .links] P) (s : State) (oks : P s) : P
    (State.walk s) := by
  have h1 : Opened [.links] P := hP.mono (by decide)
  have h2 : Opened [.registers] P := hP.mono (by decide)
  unfold State.walk
  try dsimp only
  repeat' first
    | with_reducible assumption | (intro _; try dsimp only) | with_reducible apply keeps_ite
    | with_reducible apply State.queueOn_keeps h1 | with_reducible apply State.setProbe_keeps h2
    | with_reducible apply State.withProbes_keeps h1 | with_reducible apply keeps_foldl
    | with_reducible apply keeps_foldl1 | with_reducible apply keeps_foldl11
    | with_reducible exact keeps_pair (by assumption) (by assumption) | (split <;> try dsimp only)

theorem State.authCheck_keeps {P : State → Prop} (hP : Opened [.registers, .vectors, .records, .links, .management] P)
    (s : State) (p : Nat) (oks : P s) : P (State.authCheck s p) := by
  have h1 : Opened [.registers, .links] P := hP.mono (by decide)
  unfold State.authCheck
  try dsimp only
  repeat' first
    | with_reducible assumption | (intro _; try dsimp only) | with_reducible apply keeps_ite
    | with_reducible apply State.relive_keeps hP | with_reducible apply State.setPst_keeps h1
    | with_reducible apply State.walk_keeps h1 | with_reducible exact keeps_pair (by assumption) (by assumption)
    | (split <;> try dsimp only)

theorem State.authFail_keeps {P : State → Prop} (hP : Opened [.registers, .vectors, .records, .links, .management] P)
    (s : State) (p code : Nat) (oks : P s) : P (State.authFail s p code) := by
  have h1 : Opened [.registers, .vectors] P := hP.mono (by decide)
  have h2 : Opened [.registers, .vectors, .records, .management] P := hP.mono (by decide)
  have h3 : Opened [.links] P := hP.mono (by decide)
  have h4 : Opened [.registers, .links] P := hP.mono (by decide)
  unfold State.authFail
  try dsimp only
  repeat' first
    | with_reducible assumption | (intro _; try dsimp only) | with_reducible apply keeps_ite
    | with_reducible apply State.evt_keeps h1 | with_reducible apply State.fabRecord_keeps h2
    | with_reducible apply State.onPort_keeps h3 | with_reducible apply State.relive_keeps hP
    | with_reducible apply State.setPst_keeps h4 | with_reducible exact keeps_pair (by assumption) (by assumption)
    | (split <;> try dsimp only)

theorem State.cruiseStart_keeps {P : State → Prop} (hP : Opened [.registers, .links] P) (s : State) (oks : P s) : P
    (State.cruiseStart s) := by
  have h1 : Opened [.registers] P := hP.mono (by decide)
  have h2 : Opened [.links] P := hP.mono (by decide)
  unfold State.cruiseStart
  try dsimp only
  repeat' first
    | with_reducible assumption | (intro _; try dsimp only) | with_reducible apply keeps_ite
    | with_reducible apply State.fset_keeps h1 | with_reducible apply State.walk_keeps hP
    | with_reducible apply State.withCruiseAt_keeps h2 | with_reducible apply State.withProbes_keeps h2
    | with_reducible exact keeps_pair (by assumption) (by assumption) | (split <;> try dsimp only)

end Sys2Proof.Machine
end

