-- ==== Sys2Proof/Laws/KeepsFabric.lean ====
section
/-!
SUPPORT. What every operation keeps: a predicate that is open in the areas an operation writes holds after it. Here: the operations of images, streams and the KV commands.
-/

namespace Sys2Proof.Machine

set_option linter.all false

theorem State.fillAccounts_keeps {P : State → Prop} (hP : Opened [.registers] P) (s : State) (oks : P s) : P
    (State.fillAccounts s) := by
  unfold State.fillAccounts
  try dsimp only
  repeat' first
    | with_reducible assumption | (intro _; try dsimp only) | with_reducible apply keeps_ite
    | with_reducible apply State.fset_keeps hP | with_reducible apply keeps_foldl | with_reducible apply keeps_foldl1
    | with_reducible apply keeps_foldl11 | with_reducible exact keeps_pair (by assumption) (by assumption)
    | (split <;> try dsimp only)

theorem State.protCopy_keeps {P : State → Prop} (hP : Opened [.controllers] P) (s : State) (oks : P s) : P
    (State.protCopy s) := by
  unfold State.protCopy
  try dsimp only
  repeat' first
    | with_reducible assumption | (intro _; try dsimp only) | with_reducible apply keeps_ite
    | with_reducible apply State.withProt_keeps hP | with_reducible apply keeps_foldl
    | with_reducible exact keeps_pair (by assumption) (by assumption) | (split <;> try dsimp only)

theorem State.keyFor_keeps {P : State → Prop} (hP : Opened [.registers, .management] P) (s : State) (p : Nat) (oks : P
    s) : P (State.keyFor s p) := by
  have h1 : Opened [.registers] P := hP.mono (by decide)
  have h2 : Opened [.management] P := hP.mono (by decide)
  unfold State.keyFor
  try dsimp only
  repeat' first
    | with_reducible assumption | (intro _; try dsimp only) | with_reducible apply keeps_ite
    | with_reducible apply State.fbitSet_keeps h1 | with_reducible apply State.withMgmt_keeps h2
    | with_reducible exact keeps_pair (by assumption) (by assumption) | (split <;> try dsimp only)

theorem State.keepRoutes_keeps {P : State → Prop} (hP : Opened [.links] P) (s : State) (oks : P s) : P
    (State.keepRoutes s) := by
  unfold State.keepRoutes
  try dsimp only
  repeat' first
    | with_reducible assumption | (intro _; try dsimp only) | with_reducible apply keeps_ite
    | with_reducible apply State.withRouteImage_keeps hP
    | with_reducible exact keeps_pair (by assumption) (by assumption) | (split <;> try dsimp only)

theorem State.markOwner_keeps {P : State → Prop} (hP : Opened [.boot] P) (s : State) (p : Nat) (oks : P s) : P
    (State.markOwner s p) := by
  unfold State.markOwner
  try dsimp only
  repeat' first
    | with_reducible assumption | (intro _; try dsimp only) | with_reducible apply keeps_ite
    | with_reducible apply State.withOwner_keeps hP | with_reducible apply keeps_foldl
    | with_reducible exact keeps_pair (by assumption) (by assumption) | (split <;> try dsimp only)

theorem State.acceptWhole_keeps {P : State → Prop} (hP : Opened [.registers, .controllers, .pages, .regulation,
    .links, .boot, .management] P) (s : State) (rd : Nat → Byte) (is : List Item16) (oks : P s) : P (State.acceptWhole
    s rd is) := by
  have h1 : Opened [.registers] P := hP.mono (by decide)
  have h2 : Opened [.links] P := hP.mono (by decide)
  have h3 : Opened [.registers, .management] P := hP.mono (by decide)
  have h4 : Opened [.boot] P := hP.mono (by decide)
  have h5 : Opened [.controllers] P := hP.mono (by decide)
  have h6 : Opened [.regulation] P := hP.mono (by decide)
  have h7 : Opened [.registers, .boot] P := hP.mono (by decide)
  have h8 : Opened [.management] P := hP.mono (by decide)
  have h9 : Opened [.pages] P := hP.mono (by decide)
  unfold State.acceptWhole
  try dsimp only
  repeat' first
    | with_reducible assumption | (intro _; try dsimp only) | with_reducible apply keeps_ite
    | with_reducible apply State.fillAccounts_keeps h1 | with_reducible apply State.keepRoutes_keeps h2
    | with_reducible apply State.keyFor_keeps h3 | with_reducible apply State.markOwner_keeps h4
    | with_reducible apply State.protCopy_keeps h5 | with_reducible apply State.restartAccts_keeps h6
    | with_reducible apply State.withImage_keeps h7 | with_reducible apply State.withImg_keeps h4
    | with_reducible apply State.withMgmt_keeps h8 | with_reducible apply State.withSealParts_keeps h9
    | with_reducible apply State.withSealWide_keeps h9 | with_reducible apply keeps_foldl
    | with_reducible apply keeps_foldl1 | with_reducible apply keeps_foldl11
    | with_reducible exact keeps_pair (by assumption) (by assumption) | (split <;> try dsimp only)

theorem State.onSctx_keeps {P : State → Prop} (hP : Opened [.streams] P) (s : State) (k : Nat) (f : SendCtx → SendCtx)
    (oks : P s) : P (State.onSctx s k f) := by
  exact State.withSendCtx_keeps hP s _ oks

theorem State.sendMsg_keeps {P : State → Prop} (hP : Opened [.links] P) (s : State) (m : Msg) (oks : P s) : P
    (State.sendMsg s m).1 := by
  unfold State.sendMsg
  try dsimp only
  repeat' first
    | with_reducible assumption | (intro _; try dsimp only) | with_reducible apply keeps_ite1
    | with_reducible apply keeps_ite | with_reducible apply State.routed_keeps hP
    | with_reducible exact keeps_pair (by assumption) (by assumption)
    | (refine keeps_pair (by assumption) ?_; with_reducible apply State.routed_keeps hP) | (split <;> try dsimp only)

theorem State.fabricEnd_keeps {P : State → Prop} (hP : Opened [.registers, .vectors, .memory, .controllers, .answers,
    .records, .parts, .decks, .pages, .management] P) (s : State) (p x status : Nat) (oks : P s) : P (State.fabricEnd
    s p x status) := by
  have h1 : Opened [.registers, .vectors, .memory, .controllers, .answers, .records, .pages, .management] P := hP.mono
      (by decide)
  unfold State.fabricEnd
  try dsimp only
  repeat' first
    | with_reducible assumption | (intro _; try dsimp only) | with_reducible apply keeps_ite
    | with_reducible apply State.endPlain_keeps hP | with_reducible apply State.unpin_keeps h1
    | with_reducible apply keeps_foldl | with_reducible exact keeps_pair (by assumption) (by assumption)
    | (split <;> try dsimp only)

theorem State.streamFail_keeps {P : State → Prop} (hP : Opened [.registers, .vectors, .memory, .controllers, .answers,
    .records, .parts, .decks, .pages, .streams, .management] P) (s : State) (k status : Nat) (oks : P s) : P
    (State.streamFail s k status) := by
  have h1 : Opened [.registers, .vectors, .memory, .controllers, .answers, .records, .parts, .decks, .pages,
      .management] P := hP.mono (by decide)
  have h2 : Opened [.streams] P := hP.mono (by decide)
  unfold State.streamFail
  try dsimp only
  repeat' first
    | with_reducible assumption | (intro _; try dsimp only) | with_reducible apply keeps_ite
    | with_reducible apply State.fabricEnd_keeps h1 | with_reducible apply State.onSctx_keeps h2
    | with_reducible exact keeps_pair (by assumption) (by assumption) | (split <;> try dsimp only)

theorem State.pumpGo_keeps {P : State → Prop} (hP : Opened [.links, .streams] P) (n : Nat) (s : State) (k : Nat) (oks
    : P s) : P (State.pumpGo n s k).1 := by
  have h1 : Opened [.streams] P := hP.mono (by decide)
  have h2 : Opened [.links] P := hP.mono (by decide)
  induction n generalizing s with
  | zero => exact oks
  | succ n ih =>
    unfold State.pumpGo
    dsimp only
    repeat' first
      | with_reducible assumption | with_reducible apply ih | with_reducible apply keeps_ite1
      | with_reducible apply State.onSctx_keeps h1
      | (refine keeps_pair (by assumption) ?_; with_reducible apply State.sendMsg_keeps h2)
      | (split <;> try dsimp only)

theorem State.pump_keeps {P : State → Prop} (hP : Opened [.registers, .vectors, .memory, .controllers, .answers,
    .records, .parts, .decks, .pages, .links, .streams, .management] P) (s : State) (k : Nat) (oks : P s) : P
    (State.pump s k) := by
  have h1 : Opened [.links, .streams] P := hP.mono (by decide)
  have h2 : Opened [.registers, .vectors, .memory, .controllers, .answers, .records, .parts, .decks, .pages, .streams,
      .management] P := hP.mono (by decide)
  unfold State.pump
  try dsimp only
  repeat' first
    | with_reducible assumption | (intro _; try dsimp only) | with_reducible apply keeps_ite
    | with_reducible apply State.pumpGo_keeps h1 | with_reducible apply State.streamFail_keeps h2
    | with_reducible exact keeps_pair (by assumption) (by assumption)
    | (refine keeps_pair (by assumption) ?_; with_reducible apply State.pumpGo_keeps h1) | (split <;> try dsimp only)

theorem State.openStream_keeps {P : State → Prop} (hP : Opened [.registers, .vectors, .memory, .controllers, .answers,
    .records, .parts, .decks, .pages, .links, .streams, .management] P) (s : State) (k p x dest : Nat) (ord : Bool)
    (ms : List Msg) (oks : P s) : P (State.openStream s k p x dest ord ms) := by
  have h1 : Opened [.streams] P := hP.mono (by decide)
  unfold State.openStream
  try dsimp only
  repeat' first
    | with_reducible assumption | (intro _; try dsimp only) | with_reducible apply keeps_ite
    | with_reducible apply State.onSctx_keeps h1 | with_reducible apply State.pump_keeps hP
    | with_reducible apply State.withStreamNo_keeps h1
    | with_reducible exact keeps_pair (by assumption) (by assumption) | (split <;> try dsimp only)

theorem State.resend_keeps {P : State → Prop} (hP : Opened [.registers, .vectors, .memory, .controllers, .answers,
    .records, .parts, .decks, .pages, .links, .streams, .management] P) (s : State) (k : Nat) (ms : List Msg) (oks : P
    s) : P (State.resend s k ms) := by
  have h1 : Opened [.registers] P := hP.mono (by decide)
  have h2 : Opened [.links] P := hP.mono (by decide)
  have h3 : Opened [.registers, .vectors, .memory, .controllers, .answers, .records, .parts, .decks, .pages, .streams,
      .management] P := hP.mono (by decide)
  unfold State.resend
  try dsimp only
  repeat' first
    | with_reducible assumption | (intro _; try dsimp only) | with_reducible apply keeps_ite
    | with_reducible apply State.fcount_keeps h1 | with_reducible apply State.sendMsg_keeps h2
    | with_reducible apply State.streamFail_keeps h3 | with_reducible apply keeps_foldl
    | with_reducible apply keeps_foldl1 | with_reducible apply keeps_foldl11
    | with_reducible exact keeps_pair (by assumption) (by assumption)
    | (refine keeps_pair (by assumption) ?_; with_reducible apply State.sendMsg_keeps h2) | (split <;> try dsimp only)

theorem State.openRec_keeps {P : State → Prop} (hP : Opened [.draws, .registers, .vectors, .memory, .controllers,
    .answers, .records, .pages, .management] P) (s : State) (p slot : Nat) (oks : P s) : P (State.openRec s p slot) :=
    by
  have h1 : Opened [.draws] P := hP.mono (by decide)
  have h2 : Opened [.registers, .vectors, .memory, .controllers, .answers, .records, .management] P := hP.mono (by
      decide)
  have h3 : Opened [.pages] P := hP.mono (by decide)
  unfold State.openRec
  try dsimp only
  repeat' first
    | with_reducible assumption | (intro _; try dsimp only) | with_reducible apply keeps_ite
    | with_reducible apply State.draw_keeps h1 | with_reducible apply State.engWrite_keeps h2
    | with_reducible apply State.setRec_keeps h2 | with_reducible apply State.withAllocAt_keeps h3
    | with_reducible exact keeps_pair (by assumption) (by assumption) | (split <;> try dsimp only)

theorem State.copyEntry_keeps {P : State → Prop} (hP : Opened [.registers, .vectors, .memory, .controllers, .answers,
    .records, .pages, .management] P) (s : State) (p a b n m l k count : Nat) (droppable : Bool) (oks : P s) : P
    (State.copyEntry s p a b n m l k count droppable).1 := by
  have h1 : Opened [.registers, .vectors, .memory, .controllers, .answers, .records, .management] P := hP.mono (by
      decide)
  unfold State.copyEntry
  try dsimp only
  repeat' first
    | with_reducible assumption | (intro _; try dsimp only) | with_reducible apply keeps_ite1
    | with_reducible apply keeps_ite | with_reducible apply State.copyPage_keeps h1
    | with_reducible apply State.pin_keeps h1 | with_reducible apply State.sealFail_keeps h1
    | with_reducible apply State.unpin_keeps hP | with_reducible exact keeps_pair (by assumption) (by assumption)
    | (refine State.newPage_keeps hP ?_ (by assumption))
    | (refine keeps_pair (by assumption) ?_; with_reducible apply State.pin_keeps h1) | (split <;> try dsimp only)

theorem State.copyRefs_keeps {P : State → Prop} (hP : Opened [.registers, .vectors, .memory, .controllers, .answers,
    .records, .pages, .management] P) (s : State) (pgs : List Nat) (oks : P s) : P (State.copyRefs s pgs).1 := by
  have h1 : Opened [.registers, .vectors, .memory, .controllers, .answers, .records, .management] P := hP.mono (by
      decide)
  unfold State.copyRefs
  try dsimp only
  repeat' first
    | with_reducible assumption | (intro _; try dsimp only) | with_reducible apply keeps_ite1
    | with_reducible apply keeps_ite | with_reducible apply State.ref_keeps h1
    | with_reducible apply State.unref_keeps hP | with_reducible apply keeps_foldl | with_reducible apply keeps_foldl1
    | with_reducible apply keeps_foldl11 | with_reducible exact keeps_pair (by assumption) (by assumption)
    | (refine keeps_pair (by assumption) ?_; with_reducible apply State.ref_keeps h1) | (split <;> try dsimp only)

theorem State.fork_keeps {P : State → Prop} (hP : Opened [.draws, .registers, .vectors, .memory, .controllers,
    .answers, .records, .parts, .decks, .pages, .management] P) (s : State) (p x a b m : Nat) (nc : Bool) (oks : P s)
    : P (State.fork s p x a b m nc) := by
  have h1 : Opened [.registers, .vectors, .memory, .controllers, .answers, .records, .pages, .management] P := hP.mono
      (by decide)
  have h2 : Opened [.registers, .vectors, .memory, .controllers, .answers, .records, .parts, .decks, .pages,
      .management] P := hP.mono (by decide)
  have h3 : Opened [.registers, .vectors, .memory, .controllers, .answers, .records, .management] P := hP.mono (by
      decide)
  have h4 : Opened [.draws, .registers, .vectors, .memory, .controllers, .answers, .records, .pages, .management] P :=
      hP.mono (by decide)
  unfold State.fork
  try dsimp only
  repeat' first
    | with_reducible assumption | (intro _; try dsimp only) | with_reducible apply keeps_ite
    | with_reducible apply State.copyEntry_keeps h1 | with_reducible apply State.copyRefs_keeps h1
    | with_reducible apply State.endPlain_keeps h2 | with_reducible apply State.engMove_keeps h3
    | with_reducible apply State.openRec_keeps h4 | with_reducible apply State.setPte_keeps h3
    | with_reducible apply State.setRec_keeps h3 | with_reducible apply State.setRuns_keeps h3
    | with_reducible apply keeps_foldl | with_reducible apply keeps_foldl1 | with_reducible apply keeps_foldl11
    | with_reducible exact keeps_pair (by assumption) (by assumption)
    | (refine keeps_pair (by assumption) ?_; with_reducible apply State.copyEntry_keeps h1)
    | (refine keeps_pair (by assumption) ?_; with_reducible apply State.copyRefs_keeps h1) | (split <;> try dsimp only)

theorem State.copyGo_keeps {P : State → Prop} (hP : Opened [.draws, .registers, .vectors, .memory, .controllers,
    .answers, .records, .parts, .decks, .pages, .management] P) (s : State) (p x : Nat) (oks : P s) : P (State.copyGo
    s p x) := by
  have h1 : Opened [.registers, .vectors, .memory, .controllers, .answers, .records, .management] P := hP.mono (by
      decide)
  have h2 : Opened [.registers, .vectors, .memory, .controllers, .answers, .records, .pages, .management] P := hP.mono
      (by decide)
  have h3 : Opened [.registers, .vectors, .records, .decks, .management] P := hP.mono (by decide)
  unfold State.copyGo
  try dsimp only
  repeat' first
    | with_reducible assumption | (intro _; try dsimp only) | with_reducible apply keeps_ite
    | with_reducible apply State.engSee_keeps h1 | with_reducible apply State.fork_keeps hP
    | with_reducible apply State.framesFor_keeps h2 | with_reducible apply State.mendPte_keeps h1
    | with_reducible apply State.suspend_keeps h3 | with_reducible apply keeps_foldl
    | with_reducible apply keeps_foldl1 | with_reducible apply keeps_foldl11
    | with_reducible exact keeps_pair (by assumption) (by assumption)
    | (refine keeps_pair (by assumption) ?_; with_reducible apply State.framesFor_keeps h2)
    | (split <;> try dsimp only)

theorem State.dropEntry_keeps {P : State → Prop} (hP : Opened [.registers, .vectors, .memory, .controllers, .answers,
    .records, .pages, .management] P) (s : State) (p slot l k : Nat) (oks : P s) : P (State.dropEntry s p slot l k).1
    := by
  have h1 : Opened [.registers, .vectors, .memory, .controllers, .answers, .records, .management] P := hP.mono (by
      decide)
  have h2 : Opened [.pages] P := hP.mono (by decide)
  unfold State.dropEntry
  try dsimp only
  repeat' first
    | with_reducible assumption | (intro _; try dsimp only) | with_reducible apply keeps_ite1
    | with_reducible apply keeps_ite | with_reducible apply State.engSee_keeps h1
    | with_reducible apply State.mendPte_keeps h1 | with_reducible apply State.setPte_keeps h1
    | with_reducible apply State.setRecFlag_keeps h1 | with_reducible apply State.unref_keeps hP
    | with_reducible apply State.withDropLater_keeps h2
    | with_reducible exact keeps_pair (by assumption) (by assumption) | (split <;> try dsimp only)

theorem State.dropSess_keeps {P : State → Prop} (hP : Opened [.registers, .vectors, .memory, .controllers, .answers,
    .records, .pages, .management] P) (s : State) (p slot : Nat) (oks : P s) : P (State.dropSess s p slot).1 := by
  unfold State.dropSess
  try dsimp only
  repeat' first
    | with_reducible assumption | (intro _; try dsimp only) | with_reducible apply keeps_ite1
    | with_reducible apply keeps_ite | with_reducible apply State.dropEntry_keeps hP | with_reducible apply keeps_foldl
    | with_reducible apply keeps_foldl1 | with_reducible apply keeps_foldl11
    | with_reducible exact keeps_pair (by assumption) (by assumption)
    | (refine keeps_pair (by assumption) ?_; with_reducible apply State.dropEntry_keeps hP)
    | (split <;> try dsimp only)

theorem State.releaseSlot_keeps {P : State → Prop} (hP : Opened [.registers, .vectors, .memory, .controllers,
    .answers, .records, .pages, .management] P) (s : State) (p slot : Nat) (oks : P s) : P (State.releaseSlot s p
    slot).1 := by
  have h1 : Opened [.registers, .vectors, .memory, .controllers, .answers, .records, .management] P := hP.mono (by
      decide)
  unfold State.releaseSlot
  try dsimp only
  repeat' first
    | with_reducible assumption | (intro _; try dsimp only) | with_reducible apply keeps_ite1
    | with_reducible apply keeps_ite | with_reducible apply State.engSee_keeps h1
    | with_reducible apply State.engWrite_keeps h1 | with_reducible apply State.mendPte_keeps h1
    | with_reducible apply State.setPte_keeps h1 | with_reducible apply State.unref_keeps hP
    | with_reducible apply keeps_foldl | with_reducible apply keeps_foldl1 | with_reducible apply keeps_foldl11
    | with_reducible exact keeps_pair (by assumption) (by assumption) | (split <;> try dsimp only)

theorem State.parkTake_keeps {P : State → Prop} (hP : Opened [.registers, .vectors, .memory, .controllers, .answers,
    .records, .pages, .management] P) (s : State) (p slot : Nat) (oks : P s) : P (State.parkTake s p slot).1 := by
  have h1 : Opened [.registers, .vectors, .memory, .controllers, .answers, .records, .management] P := hP.mono (by
      decide)
  unfold State.parkTake
  try dsimp only
  repeat' first
    | with_reducible assumption | (intro _; try dsimp only) | with_reducible apply keeps_ite1
    | with_reducible apply keeps_ite | with_reducible apply State.mendPte_keeps h1
    | with_reducible apply State.pin_keeps h1 | with_reducible apply State.sealFail_keeps h1
    | with_reducible apply State.unpin_keeps hP | with_reducible apply keeps_foldl | with_reducible apply keeps_foldl1
    | with_reducible apply keeps_foldl11 | with_reducible exact keeps_pair (by assumption) (by assumption)
    | (refine keeps_pair (by assumption) ?_; with_reducible apply State.pin_keeps h1) | (split <;> try dsimp only)

theorem State.parkDone_keeps {P : State → Prop} (hP : Opened [.registers, .vectors, .memory, .controllers, .answers,
    .records, .parts, .decks, .pages, .management] P) (s : State) (p x slot size : Nat) (oks : P s) : P
    (State.parkDone s p x slot size) := by
  have h1 : Opened [.registers, .vectors, .memory, .controllers, .answers, .records, .pages, .management] P := hP.mono
      (by decide)
  have h2 : Opened [.decks] P := hP.mono (by decide)
  have h3 : Opened [.registers, .vectors, .memory, .controllers, .answers, .records, .management] P := hP.mono (by
      decide)
  unfold State.parkDone
  try dsimp only
  repeat' first
    | with_reducible assumption | (intro _; try dsimp only) | with_reducible apply keeps_ite
    | with_reducible apply State.endPlain_keeps hP | with_reducible apply State.markEntry_keeps h1
    | with_reducible apply State.onExec_keeps h2 | with_reducible apply State.setPte_keeps h3
    | with_reducible apply State.setRecFlag_keeps h3 | with_reducible apply State.unpin_keeps h1
    | with_reducible apply State.unref_keeps h1 | with_reducible apply keeps_foldl | with_reducible apply keeps_foldl1
    | with_reducible apply keeps_foldl11 | with_reducible exact keeps_pair (by assumption) (by assumption)
    | (split <;> try dsimp only)

theorem State.engRefuse_keeps {P : State → Prop} (hP : Opened [.registers, .vectors] P) (s : State) (p a : Nat) (oks :
    P s) : P (State.engRefuse s p a) := by
  unfold State.engRefuse
  try dsimp only
  repeat' first
    | with_reducible assumption | (intro _; try dsimp only) | with_reducible apply keeps_ite
    | with_reducible apply State.refusal_keeps hP | with_reducible apply State.windowMiss_keeps hP
    | with_reducible exact keeps_pair (by assumption) (by assumption) | (split <;> try dsimp only)

theorem State.putImage_keeps {P : State → Prop} (hP : Opened [.registers, .vectors, .memory, .controllers, .answers,
    .records, .management] P) (s : State) (p addr : Nat) (recs hdr : List Byte) (oks : P s) : P (State.putImage s p
    addr recs hdr) := by
  unfold State.putImage
  try dsimp only
  repeat' first
    | with_reducible assumption | (intro _; try dsimp only) | with_reducible apply keeps_ite
    | with_reducible apply State.engPut_keeps hP | with_reducible exact keeps_pair (by assumption) (by assumption)
    | (split <;> try dsimp only)

theorem State.sendRefused_keeps {P : State → Prop} (hP : Opened [.draws, .registers, .vectors, .memory, .controllers,
    .answers, .records, .parts, .decks, .pages, .management] P) (s : State) (p x dest : Nat) (oks : P s) : P
    (State.sendRefused s p x dest) := by
  have h1 : Opened [.draws] P := hP.mono (by decide)
  have h2 : Opened [.registers, .vectors, .memory, .controllers, .answers, .records, .parts, .decks, .pages,
      .management] P := hP.mono (by decide)
  have h3 : Opened [.registers, .vectors] P := hP.mono (by decide)
  unfold State.sendRefused
  try dsimp only
  repeat' first
    | with_reducible assumption | (intro _; try dsimp only) | with_reducible apply keeps_ite
    | with_reducible apply State.draw_keeps h1 | with_reducible apply State.endPlain_keeps h2
    | with_reducible apply State.refusal_keeps h3 | with_reducible exact keeps_pair (by assumption) (by assumption)
    | (split <;> try dsimp only)

theorem State.parkStream_keeps {P : State → Prop} (hP : Opened [.registers, .vectors, .memory, .controllers, .answers,
    .records, .parts, .decks, .pages, .links, .streams, .management] P) (s : State) (k p x : Nat) (oks : P s) : P
    (State.parkStream s k p x) := by
  have h1 : Opened [.decks] P := hP.mono (by decide)
  have h2 : Opened [.registers, .vectors, .memory, .controllers, .answers, .records, .pages, .management] P := hP.mono
      (by decide)
  unfold State.parkStream
  try dsimp only
  repeat' first
    | with_reducible assumption | (intro _; try dsimp only) | with_reducible apply keeps_ite
    | with_reducible apply State.onExec_keeps h1 | with_reducible apply State.openStream_keeps hP
    | with_reducible apply State.parkTake_keeps h2 | with_reducible exact keeps_pair (by assumption) (by assumption)
    | (refine keeps_pair (by assumption) ?_; with_reducible apply State.parkTake_keeps h2) | (split <;> try dsimp only)

theorem State.parkHdrStream_keeps {P : State → Prop} (hP : Opened [.registers, .vectors, .memory, .controllers,
    .answers, .records, .parts, .decks, .pages, .links, .streams, .management] P) (s : State) (k p x : Nat) (oks : P
    s) : P (State.parkHdrStream s k p x) := by
  unfold State.parkHdrStream
  try dsimp only
  repeat' first
    | with_reducible assumption | (intro _; try dsimp only) | with_reducible apply keeps_ite
    | with_reducible apply State.openStream_keeps hP | with_reducible exact keeps_pair (by assumption) (by assumption)
    | (split <;> try dsimp only)

theorem State.fillPage_keeps {P : State → Prop} (hP : Opened [.registers, .vectors, .memory, .controllers, .answers,
    .records, .management] P) (s : State) (p slot l pg : Nat) (bs : List Byte) (droppable : Bool) (oks : P s) :
    P (s.fillPage p slot l pg bs droppable).1 := by
  have h1 : P ((s.engWrite 6 p (s.pageAt pg 0) (bs.take 256)).engWrite 6 p (s.pageAt pg 512) (bs.drop 256)) :=
    State.engWrite_keeps hP _ _ _ _ _ (State.engWrite_keeps hP _ _ _ _ _ oks)
  unfold State.fillPage
  extract_lets s1
  change P s1 at h1
  clear_value s1
  have h2 : P (s1.sealing p l pg (fun t => (t.setHdr pg 24 4 (t.handleOf p slot)).setHdr pg 18 1
      (pageFlags droppable (s.layerW p l != 0) / 2 % 16))) := by
    apply State.sealing_keeps hP
    · exact h1
    · intro t h
      apply State.setHdr_keeps hP
      apply State.setHdr_keeps hP
      exact h
  split
  · exact h2
  · exact h1

theorem State.unparkFrames_keeps {P : State → Prop} (hP : Opened [.registers, .vectors, .memory, .controllers,
    .answers, .records, .decks, .pages, .management] P) (s : State) (p x slot : Nat) (oks : P s) : P
    (State.unparkFrames s p x slot) := by
  have h1 : Opened [.decks] P := hP.mono (by decide)
  have h2 : Opened [.registers, .vectors, .memory, .controllers, .answers, .records, .pages, .management] P := hP.mono
      (by decide)
  unfold State.unparkFrames
  try dsimp only
  repeat' first
    | with_reducible assumption | (intro _; try dsimp only) | with_reducible apply keeps_ite
    | with_reducible apply State.onExec_keeps h1 | with_reducible apply State.reservePages_keeps h2
    | with_reducible exact keeps_pair (by assumption) (by assumption)
    | (refine keeps_pair (by assumption) ?_; with_reducible apply State.reservePages_keeps h2)
    | (split <;> try dsimp only)

theorem State.unparkLost_keeps {P : State → Prop} (hP : Opened [.registers, .vectors, .memory, .controllers, .answers,
    .records, .pages, .management] P) (s : State) (p slot l k pg : Nat) (oks : P s) : P (State.unparkLost s p slot l k
    pg) := by
  have h1 : Opened [.registers, .vectors, .memory, .controllers, .answers, .records, .management] P := hP.mono (by
      decide)
  unfold State.unparkLost
  try dsimp only
  repeat' first
    | with_reducible assumption | (intro _; try dsimp only) | with_reducible apply keeps_ite
    | with_reducible apply State.setPte_keeps h1 | with_reducible apply State.setRecFlag_keeps h1
    | with_reducible apply State.unref_keeps hP | with_reducible exact keeps_pair (by assumption) (by assumption)
    | (split <;> try dsimp only)

theorem State.unparkPage_keeps {P : State → Prop} (hP : Opened [.registers, .vectors, .memory, .controllers, .answers,
    .records, .pages, .management] P) (s : State) (p slot l k pg : Nat) (rec : Option (List Byte)) (oks : P s) : P
    (State.unparkPage s p slot l k pg rec) := by
  have h1 : Opened [.registers, .vectors, .memory, .controllers, .answers, .records, .management] P := hP.mono (by
      decide)
  unfold State.unparkPage
  try dsimp only
  repeat' first
    | with_reducible assumption | (intro _; try dsimp only) | with_reducible apply keeps_ite
    | with_reducible apply State.fillPage_keeps h1 | with_reducible apply State.sealFail_keeps h1
    | with_reducible apply State.setPte_keeps h1 | with_reducible apply State.unparkLost_keeps hP
    | with_reducible exact keeps_pair (by assumption) (by assumption)
    | (refine keeps_pair (by assumption) ?_; with_reducible apply State.fillPage_keeps h1) | (split <;> try dsimp only)

theorem State.unparkDone_keeps {P : State → Prop} (hP : Opened [.registers, .vectors, .memory, .controllers, .answers,
    .records, .parts, .decks, .pages, .management] P) (s : State) (p x slot : Nat) (recs : List (Option (List Byte)))
    (oks : P s) : P (State.unparkDone s p x slot recs) := by
  have h1 : Opened [.decks] P := hP.mono (by decide)
  have h2 : Opened [.registers, .vectors, .memory, .controllers, .answers, .records, .management] P := hP.mono (by
      decide)
  have h3 : Opened [.registers, .vectors, .memory, .controllers, .answers, .records, .pages, .management] P := hP.mono
      (by decide)
  unfold State.unparkDone
  try dsimp only
  repeat' first
    | with_reducible assumption | (intro _; try dsimp only) | with_reducible apply keeps_ite
    | with_reducible apply State.endPlain_keeps hP | with_reducible apply State.onExec_keeps h1
    | with_reducible apply State.setRec_keeps h2 | with_reducible apply State.setRecFlag_keeps h2
    | with_reducible apply State.unparkPage_keeps h3 | with_reducible apply keeps_foldl
    | with_reducible apply keeps_foldl1 | with_reducible apply keeps_foldl11
    | with_reducible exact keeps_pair (by assumption) (by assumption) | (split <;> try dsimp only)

theorem State.unparkGo_keeps {P : State → Prop} (hP : Opened [.registers, .vectors, .memory, .controllers, .answers,
    .records, .parts, .decks, .pages, .management] P) (s : State) (p x : Nat) (h : List Byte) (oks : P s) : P
    (State.unparkGo s p x h) := by
  have h1 : Opened [.registers, .vectors, .memory, .controllers, .answers, .records, .management] P := hP.mono (by
      decide)
  have h2 : Opened [.registers, .vectors, .memory, .controllers, .answers, .records, .pages, .management] P := hP.mono
      (by decide)
  have h3 : Opened [.decks] P := hP.mono (by decide)
  have h4 : Opened [.registers, .vectors, .records, .decks, .management] P := hP.mono (by decide)
  have h5 : Opened [.registers, .vectors, .memory, .controllers, .answers, .records, .decks, .pages, .management] P :=
      hP.mono (by decide)
  have h6 : Opened [.registers, .vectors] P := hP.mono (by decide)
  unfold State.unparkGo
  try dsimp only
  repeat' first
    | with_reducible assumption | (intro _; try dsimp only) | with_reducible apply keeps_ite
    | with_reducible apply State.endPlain_keeps hP | with_reducible apply State.engTouch_keeps h1
    | with_reducible apply State.framesFor_keeps h2 | with_reducible apply State.onExec_keeps h3
    | with_reducible apply State.suspend_keeps h4 | with_reducible apply State.unparkDone_keeps hP
    | with_reducible apply State.unparkFrames_keeps h5 | with_reducible apply keeps_foldl
    | with_reducible apply keeps_foldl1 | with_reducible apply keeps_foldl11
    | with_reducible exact keeps_pair (by assumption) (by assumption)
    | (refine State.engGet_keeps h6 ?_ (by assumption))
    | (refine keeps_pair (by assumption) ?_; with_reducible apply State.framesFor_keeps h2)
    | (split <;> try dsimp only)

theorem State.unparkStream_keeps {P : State → Prop} (hP : Opened [.registers, .vectors, .memory, .controllers,
    .answers, .records, .parts, .decks, .pages, .links, .streams, .management] P) (s : State) (k p x : Nat) (oks : P
    s) : P (State.unparkStream s k p x) := by
  unfold State.unparkStream
  try dsimp only
  repeat' first
    | with_reducible assumption | (intro _; try dsimp only) | with_reducible apply keeps_ite
    | with_reducible apply State.openStream_keeps hP | with_reducible exact keeps_pair (by assumption) (by assumption)
    | (split <;> try dsimp only)

theorem State.unparkHost_keeps {P : State → Prop} (hP : Opened [.registers, .vectors, .memory, .controllers, .answers,
    .records, .parts, .decks, .pages, .management] P) (s : State) (p x : Nat) (oks : P s) : P (State.unparkHost s p x)
    := by
  have h1 : Opened [.registers, .vectors, .memory, .controllers, .answers, .records, .management] P := hP.mono (by
      decide)
  have h2 : Opened [.registers, .vectors] P := hP.mono (by decide)
  unfold State.unparkHost
  try dsimp only
  repeat' first
    | with_reducible assumption | (intro _; try dsimp only) | with_reducible apply keeps_ite
    | with_reducible apply State.endPlain_keeps hP | with_reducible apply State.engTouch_keeps h1
    | with_reducible apply State.unparkGo_keeps hP | with_reducible exact keeps_pair (by assumption) (by assumption)
    | (refine State.engGet_keeps h2 ?_ (by assumption)) | (split <;> try dsimp only)

theorem State.loadWords_keeps {P : State → Prop} (hP : Opened [.registers, .vectors, .memory, .controllers, .answers,
    .records, .management] P) (s : State) (p src k : Nat) (bs : List Byte) (oks : P s) : P (State.loadWords s p src k
    bs) := by
  have h1 : Opened [.answers] P := hP.mono (by decide)
  have h2 : Opened [.registers, .vectors] P := hP.mono (by decide)
  unfold State.loadWords
  try dsimp only
  repeat' first
    | with_reducible assumption | (intro _; try dsimp only) | with_reducible apply keeps_ite
    | with_reducible apply State.withRsp_keeps h1 | with_reducible apply State.writePlace_keeps hP
    | with_reducible apply keeps_foldl | with_reducible exact keeps_pair (by assumption) (by assumption)
    | (refine State.engGet_keeps h2 ?_ (by assumption)) | (split <;> try dsimp only)

theorem State.evtAdd_keeps {P : State → Prop} (hP : Opened [.parts] P) (s : State) (p n v : Nat) (oks : P s) : P
    (State.evtAdd s p n v) := by
  exact State.withEvts_keeps hP s _ oks

theorem State.waitingCmd_keeps {P : State → Prop} (hP : Opened [] P) (s : State) (op p x : Nat) (f : Exec → State)
    (oks : P s) (okf : ∀ (t0 : Exec), P (f t0)) : P (State.waitingCmd s op p x f) := by
  unfold State.waitingCmd
  try dsimp only
  repeat' first
    | with_reducible assumption | (intro _; try dsimp only) | with_reducible apply okf | with_reducible apply keeps_ite
    | with_reducible exact keeps_pair (by assumption) (by assumption) | (split <;> try dsimp only)

theorem State.runSend_keeps {P : State → Prop} (hP : Opened [] P) (s : State) (p x : Nat) (q : Nat → Bool) (f : Exec →
    State) (oks : P s) (okf : ∀ (t0 : Exec), P (f t0)) : P (State.runSend s p x q f) := by
  unfold State.runSend
  try dsimp only
  repeat' first
    | with_reducible assumption | (intro _; try dsimp only) | with_reducible apply okf | with_reducible apply keeps_ite
    | with_reducible apply State.runCmd_keeps hP | with_reducible exact keeps_pair (by assumption) (by assumption)
    | (split <;> try dsimp only)

theorem State.sendStream_keeps {P : State → Prop} (hP : Opened [.registers, .vectors, .memory, .controllers, .answers,
    .records, .parts, .decks, .pages, .links, .streams, .management] P) (s : State) (k p x : Nat) (oks : P s) : P
    (State.sendStream s k p x) := by
  have h1 : Opened [.registers, .vectors, .memory, .controllers, .answers, .records, .parts, .decks, .pages,
      .management] P := hP.mono (by decide)
  have h2 : Opened [.registers, .vectors, .memory, .controllers, .answers, .records, .management] P := hP.mono (by
      decide)
  have h3 : Opened [.decks] P := hP.mono (by decide)
  have h4 : Opened [.registers, .vectors] P := hP.mono (by decide)
  unfold State.sendStream
  try dsimp only
  repeat' first
    | with_reducible assumption | (intro _; try dsimp only) | with_reducible apply keeps_ite
    | with_reducible apply State.endPlain_keeps h1 | with_reducible apply State.engTouch_keeps h2
    | with_reducible apply State.onExec_keeps h3 | with_reducible apply State.openStream_keeps hP
    | with_reducible exact keeps_pair (by assumption) (by assumption)
    | (refine State.engGet_keeps h4 ?_ (by assumption)) | (split <;> try dsimp only)

theorem State.streamDone_keeps {P : State → Prop} (hP : Opened [.registers, .vectors, .memory, .controllers, .answers,
    .records, .parts, .decks, .pages, .streams, .management] P) (s : State) (k : Nat) (oks : P s) : P
    (State.streamDone s k) := by
  have h1 : Opened [.registers, .vectors, .memory, .controllers, .answers, .records, .parts, .decks, .pages,
      .management] P := hP.mono (by decide)
  have h2 : Opened [.decks] P := hP.mono (by decide)
  have h3 : Opened [.streams] P := hP.mono (by decide)
  unfold State.streamDone
  try dsimp only
  repeat' first
    | with_reducible assumption | (intro _; try dsimp only) | with_reducible apply keeps_ite
    | with_reducible apply State.endPlain_keeps h1 | with_reducible apply State.fabricEnd_keeps h1
    | with_reducible apply State.onExec_keeps h2 | with_reducible apply State.onSctx_keeps h3
    | with_reducible apply State.parkDone_keeps h1 | with_reducible apply State.unparkDone_keeps h1
    | with_reducible apply State.unparkGo_keeps h1 | with_reducible exact keeps_pair (by assumption) (by assumption)
    | (split <;> try dsimp only)

theorem State.acked_keeps {P : State → Prop} (hP : Opened [.registers, .vectors, .memory, .controllers, .answers,
    .records, .parts, .decks, .pages, .links, .streams, .management] P) (s : State) (k seq : Nat) (oks : P s) : P
    (State.acked s k seq) := by
  have h1 : Opened [.streams] P := hP.mono (by decide)
  have h2 : Opened [.registers, .vectors, .memory, .controllers, .answers, .records, .parts, .decks, .pages, .streams,
      .management] P := hP.mono (by decide)
  unfold State.acked
  try dsimp only
  repeat' first
    | with_reducible assumption | (intro _; try dsimp only) | with_reducible apply keeps_ite
    | with_reducible apply State.onSctx_keeps h1 | with_reducible apply State.pump_keeps hP
    | with_reducible apply State.streamDone_keeps h2 | with_reducible exact keeps_pair (by assumption) (by assumption)
    | (split <;> try dsimp only)

theorem State.reopen_keeps {P : State → Prop} (hP : Opened [.registers, .vectors, .memory, .controllers, .answers,
    .records, .parts, .decks, .pages, .links, .streams, .management] P) (s : State) (k : Nat) (oks : P s) : P
    (State.reopen s k) := by
  have h1 : Opened [.streams] P := hP.mono (by decide)
  unfold State.reopen
  try dsimp only
  repeat' first
    | with_reducible assumption | (intro _; try dsimp only) | with_reducible apply keeps_ite
    | with_reducible apply State.onSctx_keeps h1 | with_reducible apply State.resend_keeps hP
    | with_reducible apply State.withStreamNo_keeps h1
    | with_reducible exact keeps_pair (by assumption) (by assumption) | (split <;> try dsimp only)

theorem State.respond_keeps {P : State → Prop} (hP : Opened [.links] P) (s : State) (m : Msg) (status : Nat) (oks : P
    s) : P (State.respond s m status) := by
  unfold State.respond
  try dsimp only
  repeat' first
    | with_reducible assumption | (intro _; try dsimp only) | with_reducible apply keeps_ite
    | with_reducible apply State.routed_keeps hP | with_reducible exact keeps_pair (by assumption) (by assumption)
    | (refine keeps_pair (by assumption) ?_; with_reducible apply State.routed_keeps hP) | (split <;> try dsimp only)

theorem State.receive_keeps {P : State → Prop} (hP : Opened [.registers, .links, .streams] P) (s : State) (m : Msg)
    (fits ackOk : Bool) (act : State → Option (State × Nat)) (oks : P s)
    (okact : ∀ {t u : State} {st : Nat}, P t → act t = some (u, st) → P u) : P (s.receive m fits ackOk act) := by
  have h1 : Opened [.links] P := hP.mono (by decide)
  have h2 : Opened [.registers] P := hP.mono (by decide)
  have h3 : Opened [.streams] P := hP.mono (by decide)
  unfold State.receive
  try dsimp only
  repeat' first
    | with_reducible assumption | (intro _; try dsimp only) | with_reducible apply keeps_ite
    | with_reducible apply State.takeMsg_keeps h1 | with_reducible apply State.respond_keeps h1
    | with_reducible apply State.fcount_keeps h2 | with_reducible apply State.withRecvCtx_keeps h3
    | (refine okact ?_ (by assumption)) | (split <;> try dsimp only)

theorem State.arrive_keeps {P : State → Prop} (hP : Opened [.registers, .vectors] P) {s : State} {port src a n : Nat}
    {r : Right} (oks : P s) {t : State} {st : Nat}
    (e : s.arrive port src a n r = .no t st) : P t := by
  unfold State.arrive at e
  try dsimp only at e
  repeat' first
    | with_reducible assumption | (simp at e; done) | (simp only [Arrive.no.injEq] at e) | (obtain ⟨rfl, _⟩ := e)
    | (split at e <;> try dsimp only at e) | with_reducible apply State.evt_keeps hP
    | with_reducible apply State.refusalOf_keeps hP | with_reducible apply State.windowMiss_keeps hP
    | with_reducible apply State.refusal_keeps hP

theorem State.applyWrite_keeps {P : State → Prop} (hP : Opened [.registers, .vectors, .memory, .controllers, .answers,
    .records, .regulation, .management] P) {s : State} {m : Msg} (oks : P s) {t' : State} {x' : Nat} (e :
    State.applyWrite s m = some (t', x')) : P t' := by
  have h1 : Opened [.registers, .vectors] P := hP.mono (by decide)
  unfold State.applyWrite at e
  try dsimp only at e
  repeat' first
    | with_reducible assumption | (simp at e; done) | (intro _; try dsimp only)
    | (simp only [Option.some.injEq, Prod.mk.injEq] at e) | (obtain ⟨rfl, _⟩ := e) | (obtain rfl := e)
    | (split at e <;> try dsimp only at e) | with_reducible apply keeps_ite | with_reducible apply keeps_foldl
    | with_reducible exact keeps_pair (by assumption) (by assumption)
    | (refine State.arrive_keeps h1 ?_ (by assumption)) | with_reducible apply State.serveWrite_keeps hP
    | (split <;> try dsimp only)

theorem State.applyForward_keeps {P : State → Prop} (hP : Opened [.registers, .vectors, .memory, .controllers,
    .answers, .records, .parts, .regulation, .management] P) {s : State} {m : Msg} (oks : P s) {t' : State} {x' : Nat}
    (e : State.applyForward s m = some (t', x')) : P t' := by
  have h1 : Opened [.registers, .vectors, .memory, .controllers, .answers, .records, .regulation, .management] P :=
      hP.mono (by decide)
  have h2 : Opened [.parts] P := hP.mono (by decide)
  unfold State.applyForward at e
  try dsimp only at e
  repeat' first
    | with_reducible assumption | (simp at e; done) | (intro _; try dsimp only)
    | (simp only [Option.some.injEq, Prod.mk.injEq] at e) | (obtain ⟨rfl, _⟩ := e) | (obtain rfl := e)
    | (split at e <;> try dsimp only at e) | with_reducible apply keeps_ite | with_reducible apply keeps_foldl
    | with_reducible exact keeps_pair (by assumption) (by assumption)
    | (refine State.applyWrite_keeps h1 ?_ (by assumption)) | with_reducible apply State.evtAdd_keeps h2
    | (split <;> try dsimp only)

theorem State.applyReduce_keeps {P : State → Prop} (hP : Opened [.registers, .vectors, .memory, .controllers,
    .answers, .records, .regulation, .management] P) {s : State} {m : Msg} (oks : P s) {t' : State} {x' : Nat} (e :
    State.applyReduce s m = some (t', x')) : P t' := by
  have h1 : Opened [.registers, .vectors] P := hP.mono (by decide)
  have h2 : Opened [.registers, .vectors, .memory, .controllers, .answers, .records, .management] P := hP.mono (by
      decide)
  unfold State.applyReduce at e
  try dsimp only at e
  repeat' first
    | with_reducible assumption | (simp at e; done) | (intro _; try dsimp only)
    | (simp only [Option.some.injEq, Prod.mk.injEq] at e) | (obtain ⟨rfl, _⟩ := e) | (obtain rfl := e)
    | (split at e <;> try dsimp only at e) | with_reducible apply keeps_ite | with_reducible apply keeps_foldl
    | with_reducible exact keeps_pair (by assumption) (by assumption)
    | (refine State.arrive_keeps h1 ?_ (by assumption)) | with_reducible apply State.evt_keeps h1
    | with_reducible apply State.reduceAt_keeps h2
    | (refine keeps_pair (by assumption) ?_; with_reducible apply State.reduceAt_keeps h2)
    | with_reducible apply State.serveWrite_keeps hP | (split <;> try dsimp only)

theorem State.applyRead_keeps {P : State → Prop} (hP : Opened [.registers, .vectors, .memory, .controllers, .answers,
    .records, .links, .management] P) {s : State} {m : Msg} (oks : P s) {t' : State} {x' : Nat} (e : State.applyRead s
    m = some (t', x')) : P t' := by
  have h1 : Opened [.registers, .vectors] P := hP.mono (by decide)
  have h2 : Opened [.registers, .vectors, .memory, .controllers, .answers, .records, .management] P := hP.mono (by
      decide)
  have h3 : Opened [.registers, .vectors, .memory, .controllers, .records, .management] P := hP.mono (by decide)
  have h4 : Opened [.links] P := hP.mono (by decide)
  unfold State.applyRead at e
  try dsimp only at e
  repeat' first
    | with_reducible assumption | (simp at e; done) | (intro _; try dsimp only)
    | (simp only [Option.some.injEq, Prod.mk.injEq] at e) | (obtain ⟨rfl, _⟩ := e) | (obtain rfl := e)
    | (split at e <;> try dsimp only at e) | with_reducible apply keeps_ite | with_reducible apply keeps_foldl
    | with_reducible exact keeps_pair (by assumption) (by assumption)
    | (refine State.arrive_keeps h1 ?_ (by assumption)) | with_reducible apply State.closeRange_keeps h2
    | with_reducible apply State.readRange_keeps h3 | with_reducible apply State.routed_keeps h4
    | (refine keeps_pair (by assumption) ?_; with_reducible apply State.routed_keeps h4) | (split <;> try dsimp only)

theorem State.onTree_keeps {P : State → Prop} (hP : Opened [.tree] P) (s : State) (f : Tree → Tree) (oks : P s) : P
    (State.onTree s f) := by
  exact State.withTree_keeps hP s _ oks

theorem State.sendTree_keeps {P : State → Prop} (hP : Opened [.links] P) (s : State) (ty dest opx : Nat) (oks : P s) :
    P (State.sendTree s ty dest opx) := by
  unfold State.sendTree
  try dsimp only
  repeat' first
    | with_reducible assumption | (intro _; try dsimp only) | with_reducible apply keeps_ite
    | with_reducible apply State.routed_keeps hP | with_reducible exact keeps_pair (by assumption) (by assumption)
    | (refine keeps_pair (by assumption) ?_; with_reducible apply State.routed_keeps hP) | (split <;> try dsimp only)

theorem State.sendKids_keeps {P : State → Prop} (hP : Opened [.links] P) (s : State) (ty opx : Nat) (oks : P s) : P
    (State.sendKids s ty opx) := by
  unfold State.sendKids
  try dsimp only
  repeat' first
    | with_reducible assumption | (intro _; try dsimp only) | with_reducible apply keeps_ite
    | with_reducible apply State.sendTree_keeps hP | with_reducible apply keeps_foldl
    | with_reducible apply keeps_foldl1 | with_reducible apply keeps_foldl11
    | with_reducible exact keeps_pair (by assumption) (by assumption) | (split <;> try dsimp only)

theorem State.fromChild_keeps {P : State → Prop} (hP : Opened [.registers, .links] P) (s : State) (m : Msg) (ty : Nat)
    (f : State → Nat → State) (oks : P s) (okf : ∀ (t0 : State) (t1 : Nat), P t0 → P (f t0 t1)) : P (State.fromChild s
    m ty f) := by
  have h1 : Opened [.registers] P := hP.mono (by decide)
  have h2 : Opened [.links] P := hP.mono (by decide)
  unfold State.fromChild
  try dsimp only
  repeat' first
    | with_reducible assumption | (intro _; try dsimp only) | with_reducible apply okf | with_reducible apply keeps_ite
    | with_reducible apply State.fcount_keeps h1 | with_reducible apply State.onMsg_keeps h2
    | with_reducible exact keeps_pair (by assumption) (by assumption) | (split <;> try dsimp only)

theorem State.fromParent_keeps {P : State → Prop} (hP : Opened [.registers, .links] P) (s : State) (m : Msg) (ty :
    Nat) (f : State → State) (oks : P s) (okf : ∀ (t0 : State), P t0 → P (f t0)) : P (State.fromParent s m ty f) := by
  have h1 : Opened [.registers] P := hP.mono (by decide)
  have h2 : Opened [.links] P := hP.mono (by decide)
  unfold State.fromParent
  try dsimp only
  repeat' first
    | with_reducible assumption | (intro _; try dsimp only) | with_reducible apply okf | with_reducible apply keeps_ite
    | with_reducible apply State.fcount_keeps h1 | with_reducible apply State.onMsg_keeps h2
    | with_reducible exact keeps_pair (by assumption) (by assumption) | (split <;> try dsimp only)

theorem State.endTree_keeps {P : State → Prop} (hP : Opened [.registers, .vectors, .memory, .controllers, .answers,
    .records, .parts, .decks, .pages, .management] P) (s : State) (fail : Bool) (px : Nat × Nat) (oks : P s) : P
    (State.endTree s fail px) := by
  unfold State.endTree
  try dsimp only
  repeat' first
    | with_reducible assumption | (intro _; try dsimp only) | with_reducible apply keeps_ite
    | with_reducible apply State.endPlain_keeps hP | with_reducible exact keeps_pair (by assumption) (by assumption)
    | (split <;> try dsimp only)

theorem State.gopFail_keeps {P : State → Prop} (hP : Opened [.registers, .vectors, .records, .management] P) (s :
    State) (oks : P s) : P (State.gopFail s) := by
  have h1 : Opened [.registers, .vectors] P := hP.mono (by decide)
  have h2 : Opened [.registers] P := hP.mono (by decide)
  unfold State.gopFail
  try dsimp only
  repeat' first
    | with_reducible assumption | (intro _; try dsimp only) | with_reducible apply keeps_ite
    | with_reducible apply State.evt_keeps h1 | with_reducible apply State.fcount_keeps h2
    | with_reducible apply State.record_keeps hP | with_reducible exact keeps_pair (by assumption) (by assumption)
    | (split <;> try dsimp only)

theorem State.nextEpoch_keeps {P : State → Prop} (hP : Opened [.registers, .tree] P) (s : State) (oks : P s) : P
    (State.nextEpoch s) := by
  have h1 : Opened [.registers] P := hP.mono (by decide)
  have h2 : Opened [.tree] P := hP.mono (by decide)
  unfold State.nextEpoch
  try dsimp only
  repeat' first
    | with_reducible assumption | (intro _; try dsimp only) | with_reducible apply keeps_ite
    | with_reducible apply State.fset_keeps h1 | with_reducible apply State.onTree_keeps h2
    | with_reducible exact keeps_pair (by assumption) (by assumption) | (split <;> try dsimp only)

theorem State.barDown_keeps {P : State → Prop} (hP : Opened [.registers, .vectors, .memory, .controllers, .answers,
    .records, .parts, .decks, .pages, .links, .tree, .management] P) (s : State) (snap fail : Bool) (oks : P s) : P
    (State.barDown s snap fail) := by
  have h1 : Opened [.registers, .vectors, .memory, .controllers, .answers, .records, .parts, .decks, .pages,
      .management] P := hP.mono (by decide)
  have h2 : Opened [.registers] P := hP.mono (by decide)
  have h3 : Opened [.registers, .vectors, .records, .management] P := hP.mono (by decide)
  have h4 : Opened [.registers, .tree] P := hP.mono (by decide)
  have h5 : Opened [.tree] P := hP.mono (by decide)
  have h6 : Opened [.links] P := hP.mono (by decide)
  unfold State.barDown
  try dsimp only
  repeat' first
    | with_reducible assumption | (intro _; try dsimp only) | with_reducible apply keeps_ite
    | with_reducible apply State.endTree_keeps h1 | with_reducible apply State.fset_keeps h2
    | with_reducible apply State.gopFail_keeps h3 | with_reducible apply State.nextEpoch_keeps h4
    | with_reducible apply State.onTree_keeps h5 | with_reducible apply State.sendKids_keeps h6
    | with_reducible apply keeps_foldl | with_reducible apply keeps_foldl1 | with_reducible apply keeps_foldl11
    | with_reducible exact keeps_pair (by assumption) (by assumption) | (split <;> try dsimp only)

theorem State.barTry_keeps {P : State → Prop} (hP : Opened [.registers, .vectors, .memory, .controllers, .answers,
    .records, .parts, .decks, .pages, .links, .tree, .management] P) (s : State) (oks : P s) : P (State.barTry s) :=
    by
  have h1 : Opened [.registers] P := hP.mono (by decide)
  have h2 : Opened [.tree] P := hP.mono (by decide)
  have h3 : Opened [.links] P := hP.mono (by decide)
  unfold State.barTry
  try dsimp only
  repeat' first
    | with_reducible assumption | (intro _; try dsimp only) | with_reducible apply keeps_ite
    | with_reducible apply State.barDown_keeps hP | with_reducible apply State.fset_keeps h1
    | with_reducible apply State.onTree_keeps h2 | with_reducible apply State.sendTree_keeps h3
    | with_reducible exact keeps_pair (by assumption) (by assumption) | (split <;> try dsimp only)

theorem State.barArrive_keeps {P : State → Prop} (hP : Opened [.registers, .vectors, .memory, .controllers, .answers,
    .records, .parts, .decks, .pages, .links, .tree, .management] P) (s : State) (p x : Nat) (oks : P s) : P
    (State.barArrive s p x) := by
  have h1 : Opened [.decks] P := hP.mono (by decide)
  have h2 : Opened [.tree] P := hP.mono (by decide)
  unfold State.barArrive
  try dsimp only
  repeat' first
    | with_reducible assumption | (intro _; try dsimp only) | with_reducible apply keeps_ite
    | with_reducible apply State.barTry_keeps hP | with_reducible apply State.onExec_keeps h1
    | with_reducible apply State.onTree_keeps h2 | with_reducible exact keeps_pair (by assumption) (by assumption)
    | (split <;> try dsimp only)

theorem State.gopArrive_keeps {P : State → Prop} (hP : Opened [.draws, .registers, .vectors, .memory, .controllers,
    .answers, .records, .parts, .decks, .pages, .links, .tree, .management] P) (s : State) (p x : Nat) (oks : P s) : P
    (State.gopArrive s p x) := by
  have h1 : Opened [.registers, .vectors, .memory, .controllers, .answers, .records, .parts, .decks, .pages, .links,
      .tree, .management] P := hP.mono (by decide)
  have h2 : Opened [.draws] P := hP.mono (by decide)
  have h3 : Opened [.registers, .vectors, .memory, .controllers, .answers, .records, .parts, .decks, .pages,
      .management] P := hP.mono (by decide)
  unfold State.gopArrive
  try dsimp only
  repeat' first
    | with_reducible assumption | (intro _; try dsimp only) | with_reducible apply keeps_ite
    | with_reducible apply State.barArrive_keeps h1 | with_reducible apply State.draw_keeps h2
    | with_reducible apply State.endPlain_keeps h3 | with_reducible exact keeps_pair (by assumption) (by assumption)
    | (split <;> try dsimp only)

theorem State.castHere_keeps {P : State → Prop} (hP : Opened [.registers, .vectors, .memory, .controllers, .answers,
    .records, .parts, .decks, .pages, .regulation, .tree, .management] P) (s : State) (m : Msg) (origin : Nat) (oks :
    P s) : P (State.castHere s m origin) := by
  have h1 : Opened [.registers, .vectors, .memory, .controllers, .answers, .records, .parts, .decks, .pages,
      .management] P := hP.mono (by decide)
  have h2 : Opened [.parts] P := hP.mono (by decide)
  have h3 : Opened [.registers] P := hP.mono (by decide)
  have h4 : Opened [.tree] P := hP.mono (by decide)
  have h5 : Opened [.registers, .vectors, .memory, .controllers, .answers, .records, .regulation, .management] P :=
      hP.mono (by decide)
  have h6 : Opened [.registers, .vectors] P := hP.mono (by decide)
  unfold State.castHere
  try dsimp only
  repeat' first
    | with_reducible assumption | (intro _; try dsimp only) | with_reducible apply keeps_ite
    | with_reducible apply State.endPlain_keeps h1 | with_reducible apply State.evtAdd_keeps h2
    | with_reducible apply State.fcount_keeps h3 | with_reducible apply State.onTree_keeps h4
    | with_reducible apply State.serveWrite_keeps h5 | with_reducible exact keeps_pair (by assumption) (by assumption)
    | (refine State.arrive_keeps h6 ?_ (by assumption)) | (split <;> try dsimp only)

theorem State.castDown_keeps {P : State → Prop} (hP : Opened [.registers, .vectors, .memory, .controllers, .answers,
    .records, .parts, .decks, .pages, .regulation, .links, .tree, .management] P) (s : State) (m : Msg) (oks : P s) :
    P (State.castDown s m) := by
  have h1 : Opened [.registers, .vectors, .memory, .controllers, .answers, .records, .parts, .decks, .pages,
      .regulation, .tree, .management] P := hP.mono (by decide)
  have h2 : Opened [.links] P := hP.mono (by decide)
  unfold State.castDown
  try dsimp only
  repeat' first
    | with_reducible assumption | (intro _; try dsimp only) | with_reducible apply keeps_ite
    | with_reducible apply State.castHere_keeps h1 | with_reducible apply State.routed_keeps h2
    | with_reducible apply keeps_foldl | with_reducible apply keeps_foldl1 | with_reducible apply keeps_foldl11
    | with_reducible exact keeps_pair (by assumption) (by assumption)
    | (refine keeps_pair (by assumption) ?_; with_reducible apply State.routed_keeps h2) | (split <;> try dsimp only)

theorem State.castUp_keeps {P : State → Prop} (hP : Opened [.registers, .vectors, .memory, .controllers, .answers,
    .records, .parts, .decks, .pages, .regulation, .links, .tree, .management] P) (s : State) (m : Msg) (oks : P s) :
    P (State.castUp s m) := by
  have h1 : Opened [.links] P := hP.mono (by decide)
  unfold State.castUp
  try dsimp only
  repeat' first
    | with_reducible assumption | (intro _; try dsimp only) | with_reducible apply keeps_ite
    | with_reducible apply State.castDown_keeps hP | with_reducible apply State.routed_keeps h1
    | with_reducible exact keeps_pair (by assumption) (by assumption)
    | (refine keeps_pair (by assumption) ?_; with_reducible apply State.routed_keeps h1) | (split <;> try dsimp only)

theorem State.snapResume_keeps {P : State → Prop} (hP : Opened [.registers, .tree] P) (s : State) (oks : P s) : P
    (State.snapResume s) := by
  have h1 : Opened [.registers] P := hP.mono (by decide)
  have h2 : Opened [.tree] P := hP.mono (by decide)
  unfold State.snapResume
  try dsimp only
  repeat' first
    | with_reducible assumption | (intro _; try dsimp only) | with_reducible apply keeps_ite
    | with_reducible apply State.fset_keeps h1 | with_reducible apply State.onTree_keeps h2
    | with_reducible exact keeps_pair (by assumption) (by assumption) | (split <;> try dsimp only)

theorem State.snapMarker_keeps {P : State → Prop} (hP : Opened [.registers, .vectors, .memory, .controllers, .answers,
    .records, .parts, .decks, .pages, .links, .tree, .management] P) (s : State) (fail : Bool) (oks : P s) : P
    (State.snapMarker s fail) := by
  have h1 : Opened [.registers, .vectors, .memory, .controllers, .answers, .records, .parts, .decks, .pages,
      .management] P := hP.mono (by decide)
  have h2 : Opened [.registers, .vectors] P := hP.mono (by decide)
  have h3 : Opened [.registers] P := hP.mono (by decide)
  have h4 : Opened [.registers, .vectors, .records, .management] P := hP.mono (by decide)
  have h5 : Opened [.tree] P := hP.mono (by decide)
  have h6 : Opened [.links] P := hP.mono (by decide)
  have h7 : Opened [.registers, .tree] P := hP.mono (by decide)
  unfold State.snapMarker
  try dsimp only
  repeat' first
    | with_reducible assumption | (intro _; try dsimp only) | with_reducible apply keeps_ite
    | with_reducible apply State.endTree_keeps h1 | with_reducible apply State.evt_keeps h2
    | with_reducible apply State.fset_keeps h3 | with_reducible apply State.gopFail_keeps h4
    | with_reducible apply State.onTree_keeps h5 | with_reducible apply State.sendKids_keeps h6
    | with_reducible apply State.snapResume_keeps h7 | with_reducible apply keeps_foldl
    | with_reducible apply keeps_foldl1 | with_reducible apply keeps_foldl11
    | with_reducible exact keeps_pair (by assumption) (by assumption) | (split <;> try dsimp only)

theorem State.snapTry_keeps {P : State → Prop} (hP : Opened [.registers, .vectors, .memory, .controllers, .answers,
    .records, .parts, .decks, .pages, .links, .tree, .management] P) (s : State) (late : Bool) (oks : P s) : P
    (State.snapTry s late) := by
  have h1 : Opened [.tree] P := hP.mono (by decide)
  have h2 : Opened [.links] P := hP.mono (by decide)
  unfold State.snapTry
  try dsimp only
  repeat' first
    | with_reducible assumption | (intro _; try dsimp only) | with_reducible apply keeps_ite
    | with_reducible apply State.onTree_keeps h1 | with_reducible apply State.sendTree_keeps h2
    | with_reducible apply State.snapMarker_keeps hP | with_reducible exact keeps_pair (by assumption) (by assumption)
    | (split <;> try dsimp only)

theorem State.resetAck_keeps {P : State → Prop} (hP : Opened [.links, .tree] P) (s : State) (oks : P s) : P
    (State.resetAck s) := by
  have h1 : Opened [.tree] P := hP.mono (by decide)
  have h2 : Opened [.links] P := hP.mono (by decide)
  unfold State.resetAck
  try dsimp only
  repeat' first
    | with_reducible assumption | (intro _; try dsimp only) | with_reducible apply keeps_ite
    | with_reducible apply State.onTree_keeps h1 | with_reducible apply State.sendTree_keeps h2
    | with_reducible exact keeps_pair (by assumption) (by assumption) | (split <;> try dsimp only)

theorem State.resetBegin_keeps {P : State → Prop} (hP : Opened [.registers, .links, .tree] P) (s : State) (oks : P s)
    : P (State.resetBegin s) := by
  have h1 : Opened [.registers] P := hP.mono (by decide)
  have h2 : Opened [.tree] P := hP.mono (by decide)
  have h3 : Opened [.links, .tree] P := hP.mono (by decide)
  have h4 : Opened [.links] P := hP.mono (by decide)
  unfold State.resetBegin
  try dsimp only
  repeat' first
    | with_reducible assumption | (intro _; try dsimp only) | with_reducible apply keeps_ite
    | with_reducible apply State.fset_keeps h1 | with_reducible apply State.onTree_keeps h2
    | with_reducible apply State.resetAck_keeps h3 | with_reducible apply State.sendKids_keeps h4
    | with_reducible exact keeps_pair (by assumption) (by assumption) | (split <;> try dsimp only)

theorem State.resetAsk_keeps {P : State → Prop} (hP : Opened [.registers, .links, .tree] P) (s : State) (oks : P s) :
    P (State.resetAsk s) := by
  have h1 : Opened [.registers] P := hP.mono (by decide)
  have h2 : Opened [.tree] P := hP.mono (by decide)
  have h3 : Opened [.links] P := hP.mono (by decide)
  unfold State.resetAsk
  try dsimp only
  repeat' first
    | with_reducible assumption | (intro _; try dsimp only) | with_reducible apply keeps_ite
    | with_reducible apply State.fset_keeps h1 | with_reducible apply State.onTree_keeps h2
    | with_reducible apply State.resetBegin_keeps hP | with_reducible apply State.sendTree_keeps h3
    | with_reducible exact keeps_pair (by assumption) (by assumption) | (split <;> try dsimp only)

theorem State.routesHome_keeps {P : State → Prop} (hP : Opened [.registers] P) (s : State) (oks : P s) : P
    (State.routesHome s) := by
  unfold State.routesHome
  try dsimp only
  repeat' first
    | with_reducible assumption | (intro _; try dsimp only) | with_reducible apply keeps_ite
    | with_reducible apply State.withRegs_keeps hP | with_reducible apply keeps_foldl
    | with_reducible apply keeps_foldl1 | with_reducible apply keeps_foldl11
    | with_reducible exact keeps_pair (by assumption) (by assumption) | (split <;> try dsimp only)

theorem State.portReset_keeps {P : State → Prop} (hP : Opened [.registers, .links] P) (s : State) (p : Nat) (oks : P
    s) : P (State.portReset s p) := by
  have h1 : Opened [.registers] P := hP.mono (by decide)
  have h2 : Opened [.links] P := hP.mono (by decide)
  unfold State.portReset
  try dsimp only
  repeat' first
    | with_reducible assumption | (intro _; try dsimp only) | with_reducible apply keeps_ite
    | with_reducible apply State.fset_keeps h1 | with_reducible apply State.onPort_keeps h2
    | with_reducible apply State.portStart_keeps hP | with_reducible apply keeps_foldl
    | with_reducible apply keeps_foldl1 | with_reducible apply keeps_foldl11
    | with_reducible exact keeps_pair (by assumption) (by assumption) | (split <;> try dsimp only)

theorem State.dropStreams_keeps {P : State → Prop} (hP : Opened [.streams] P) (s : State) (p x : Nat) (oks : P s) : P
    (State.dropStreams s p x) := by
  unfold State.dropStreams
  try dsimp only
  repeat' first
    | with_reducible assumption | (intro _; try dsimp only) | with_reducible apply keeps_ite
    | with_reducible apply State.withSendCtx_keeps hP | with_reducible exact keeps_pair (by assumption) (by assumption)
    | (split <;> try dsimp only)

theorem State.letGo_keeps {P : State → Prop} (hP : Opened [.registers, .vectors, .memory, .controllers, .answers,
    .records, .decks, .pages, .streams, .management] P) (s : State) (p x : Nat) (oks : P s) : P (State.letGo s p x) :=
    by
  have h1 : Opened [.streams] P := hP.mono (by decide)
  have h2 : Opened [.decks] P := hP.mono (by decide)
  have h3 : Opened [.registers, .vectors, .memory, .controllers, .answers, .records, .decks, .pages, .management] P :=
      hP.mono (by decide)
  have h4 : Opened [.registers, .vectors, .memory, .controllers, .answers, .records, .pages, .management] P := hP.mono
      (by decide)
  unfold State.letGo
  try dsimp only
  repeat' first
    | with_reducible assumption | (intro _; try dsimp only) | with_reducible apply keeps_ite
    | with_reducible apply State.dropStreams_keeps h1 | with_reducible apply State.onExec_keeps h2
    | with_reducible apply State.regrowStop_keeps h3 | with_reducible apply State.unpin_keeps h4
    | with_reducible apply State.unreserveAll_keeps h3 | with_reducible apply keeps_foldl
    | with_reducible exact keeps_pair (by assumption) (by assumption) | (split <;> try dsimp only)

theorem State.endBy_keeps {P : State → Prop} (hP : Opened [.registers, .vectors, .memory, .controllers, .answers,
    .records, .tiles, .parts, .decks, .pages, .thapel, .streams, .management] P) (s : State) (p x status detail : Nat)
    (now : Bool) (oks : P s) : P (State.endBy s p x status detail now) := by
  have h1 : Opened [.registers, .vectors, .memory, .controllers, .answers, .records, .tiles, .parts, .pages, .thapel,
      .management] P := hP.mono (by decide)
  have h2 : Opened [.registers, .vectors, .memory, .controllers, .answers, .records, .tiles, .parts, .decks,
      .management] P := hP.mono (by decide)
  have h3 : Opened [.registers, .vectors, .memory, .controllers, .answers, .records, .parts, .decks, .pages,
      .management] P := hP.mono (by decide)
  have h4 : Opened [.registers, .vectors, .memory, .controllers, .answers, .records, .decks, .pages, .streams,
      .management] P := hP.mono (by decide)
  have h5 : Opened [.decks] P := hP.mono (by decide)
  unfold State.endBy
  try dsimp only
  repeat' first
    | with_reducible assumption | (intro _; try dsimp only) | with_reducible apply keeps_ite
    | with_reducible apply State.abortInst_keeps h1 | with_reducible apply State.endCmd_keeps h2
    | with_reducible apply State.endPlain_keeps h3 | with_reducible apply State.letGo_keeps h4
    | with_reducible apply State.onExec_keeps h5 | with_reducible exact keeps_pair (by assumption) (by assumption)
    | (split <;> try dsimp only)

theorem State.stopDeck_keeps {P : State → Prop} (hP : Opened [.registers, .vectors, .memory, .controllers, .answers,
    .records, .tiles, .parts, .decks, .pages, .thapel, .streams, .management] P) (s : State) (d : Nat) (silent now :
    Bool) (oks : P s) : P (State.stopDeck s d silent now) := by
  have h1 : Opened [.decks] P := hP.mono (by decide)
  have h2 : Opened [.registers, .vectors, .memory, .controllers, .answers, .records, .decks, .management] P := hP.mono
      (by decide)
  unfold State.stopDeck
  try dsimp only
  repeat' first
    | with_reducible assumption | (intro _; try dsimp only) | with_reducible apply keeps_ite
    | with_reducible apply State.endBy_keeps hP | with_reducible apply State.onDeck_keeps h1
    | with_reducible apply State.onExec_keeps h1 | with_reducible apply State.stopCheck_keeps h2
    | with_reducible apply keeps_foldl | with_reducible apply keeps_foldl1 | with_reducible apply keeps_foldl11
    | with_reducible exact keeps_pair (by assumption) (by assumption) | (split <;> try dsimp only)

end Sys2Proof.Machine
end

