-- ==== Sys2Proof/Laws/KeepsManage.lean ====
section
/-!
SUPPORT. What every operation keeps: a predicate that is open in the areas an operation writes holds after it. Here: the operations of partitions, bring-up, power, package, management and scrub.
-/

namespace Sys2Proof.Machine

set_option linter.all false

theorem State.schedule_keeps {P : State → Prop} (hP : Opened [.registers] P) (s : State) (oks : P s) : P
    (State.schedule s) := by
  unfold State.schedule
  try dsimp only
  repeat' first
    | with_reducible assumption | (intro _; try dsimp only) | with_reducible apply keeps_ite
    | with_reducible apply State.fset_keeps hP | with_reducible exact keeps_pair (by assumption) (by assumption)
    | (split <;> try dsimp only)

theorem State.cancelRest_keeps {P : State → Prop} (hP : Opened [.registers, .vectors, .memory, .controllers, .answers,
    .records, .pages, .thapel, .management] P) (s : State) (p : Nat) (oks : P s) : P (State.cancelRest s p) := by
  have h1 : Opened [.registers, .vectors, .memory, .controllers, .answers, .records, .pages, .management] P := hP.mono
      (by decide)
  have h2 : Opened [.thapel] P := hP.mono (by decide)
  unfold State.cancelRest
  try dsimp only
  repeat' first
    | with_reducible assumption | (intro _; try dsimp only) | with_reducible apply keeps_ite
    | with_reducible apply State.verifyUnpin_keeps h1 | with_reducible apply State.withChans_keeps h2
    | with_reducible apply State.withThapWait_keeps h2 | with_reducible apply keeps_foldl
    | with_reducible apply keeps_foldl1 | with_reducible apply keeps_foldl11
    | with_reducible exact keeps_pair (by assumption) (by assumption) | (split <;> try dsimp only)

theorem State.onAccts_keeps {P : State → Prop} (hP : Opened [.regulation] P) (s : State) (p : Nat) (f : Acct → Acct)
    (oks : P s) : P (State.onAccts s p f) := by
  unfold State.onAccts
  try dsimp only
  repeat' first
    | with_reducible assumption | (intro _; try dsimp only) | with_reducible apply keeps_ite
    | with_reducible apply State.onAcct_keeps hP | with_reducible apply keeps_foldl | with_reducible apply keeps_foldl1
    | with_reducible apply keeps_foldl11 | with_reducible exact keeps_pair (by assumption) (by assumption)
    | (split <;> try dsimp only)

theorem State.startReset_keeps {P : State → Prop} (hP : Opened [.registers, .vectors, .memory, .controllers, .answers,
    .records, .tiles, .parts, .decks, .pages, .thapel, .regulation, .streams, .management] P) (s : State) (p : Nat)
    (byFlr load retire : Bool) (oks : P s) : P (State.startReset s p byFlr load retire) := by
  have h1 : Opened [.registers, .vectors, .memory, .controllers, .answers, .records, .tiles, .parts, .pages, .thapel,
      .management] P := hP.mono (by decide)
  have h2 : Opened [.registers, .vectors, .memory, .controllers, .answers, .records, .pages, .thapel, .management] P
      := hP.mono (by decide)
  have h3 : Opened [.regulation] P := hP.mono (by decide)
  have h4 : Opened [.parts] P := hP.mono (by decide)
  have h5 : Opened [.registers, .vectors, .memory, .controllers, .answers, .records, .tiles, .parts, .decks, .pages,
      .thapel, .streams, .management] P := hP.mono (by decide)
  unfold State.startReset
  try dsimp only
  repeat' first
    | with_reducible assumption | (intro _; try dsimp only) | with_reducible apply keeps_ite
    | with_reducible apply State.abortInst_keeps h1 | with_reducible apply State.cancelRest_keeps h2
    | with_reducible apply State.onAccts_keeps h3 | with_reducible apply State.onPart_keeps h4
    | with_reducible apply State.stopDeck_keeps h5 | with_reducible apply keeps_foldl
    | with_reducible exact keeps_pair (by assumption) (by assumption) | (split <;> try dsimp only)

theorem State.clearStores_keeps {P : State → Prop} (hP : Opened [.registers, .vectors, .memory, .controllers,
    .answers, .records, .management] P) (s : State) (p : Nat) (oks : P s) : P (State.clearStores s p) := by
  have h1 : Opened [.memory] P := hP.mono (by decide)
  unfold State.clearStores
  try dsimp only
  repeat' first
    | with_reducible assumption | (intro _; try dsimp only) | with_reducible apply keeps_ite
    | with_reducible apply State.closeRange_keeps hP | with_reducible apply State.zero_keeps h1
    | with_reducible apply keeps_foldl | with_reducible apply keeps_foldl1 | with_reducible apply keeps_foldl11
    | with_reducible exact keeps_pair (by assumption) (by assumption) | (split <;> try dsimp only)

theorem State.clearLedWord_keeps {P : State → Prop} (hP : Opened [.registers, .vectors, .memory, .controllers,
    .answers, .records, .management] P) (s : State) (p pg : Nat) (oks : P s) : P (State.clearLedWord s p pg) := by
  have h1 : Opened [.registers] P := hP.mono (by decide)
  unfold State.clearLedWord
  try dsimp only
  repeat' first
    | with_reducible assumption | (intro _; try dsimp only) | with_reducible apply keeps_ite
    | with_reducible apply State.engWrite_keeps hP | with_reducible apply State.fset_keeps h1
    | with_reducible exact keeps_pair (by assumption) (by assumption) | (split <;> try dsimp only)

theorem State.clearLedger_keeps {P : State → Prop} (hP : Opened [.registers, .vectors, .memory, .controllers,
    .answers, .records, .pages, .management] P) (s : State) (p : Nat) (oks : P s) : P (State.clearLedger s p) := by
  have h1 : Opened [.registers, .vectors, .memory, .controllers, .answers, .records, .management] P := hP.mono (by
      decide)
  unfold State.clearLedger
  try dsimp only
  repeat' first
    | with_reducible assumption | (intro _; try dsimp only) | with_reducible apply keeps_ite
    | with_reducible apply State.clearLedWord_keeps h1 | with_reducible apply State.release_keeps hP
    | with_reducible apply keeps_foldl | with_reducible exact keeps_pair (by assumption) (by assumption)
    | (split <;> try dsimp only)

theorem State.dropSession_keeps {P : State → Prop} (hP : Opened [.registers, .vectors, .memory, .controllers,
    .answers, .records, .management] P) (s : State) (p slot : Nat) (oks : P s) : P (State.dropSession s p slot) := by
  unfold State.dropSession
  try dsimp only
  repeat' first
    | with_reducible assumption | (intro _; try dsimp only) | with_reducible apply keeps_ite
    | with_reducible apply State.engWrite_keeps hP | with_reducible apply State.mendPte_keeps hP
    | with_reducible apply State.setPte_keeps hP | with_reducible apply State.setRecFlag_keeps hP
    | with_reducible apply keeps_foldl | with_reducible apply keeps_foldl1 | with_reducible apply keeps_foldl11
    | with_reducible exact keeps_pair (by assumption) (by assumption) | (split <;> try dsimp only)

theorem State.keepImage_keeps {P : State → Prop} (hP : Opened [.boot] P) (s : State) (p : Nat) (oks : P s) : P
    (State.keepImage s p) := by
  unfold State.keepImage
  try dsimp only
  repeat' first
    | with_reducible assumption | (intro _; try dsimp only) | with_reducible apply keeps_ite
    | with_reducible apply State.withImg_keeps hP | with_reducible apply keeps_foldl
    | with_reducible apply keeps_foldl1 | with_reducible apply keeps_foldl11
    | with_reducible exact keeps_pair (by assumption) (by assumption) | (split <;> try dsimp only)

theorem State.resetRegs_keeps {P : State → Prop} (hP : Opened [.registers] P) (s : State) (p : Nat) (oks : P s) : P
    (State.resetRegs s p) := by
  unfold State.resetRegs
  try dsimp only
  repeat' first
    | with_reducible assumption | (intro _; try dsimp only) | with_reducible apply keeps_ite
    | with_reducible apply State.withRegs_keeps hP | with_reducible apply keeps_foldl
    | with_reducible apply keeps_foldl1 | with_reducible apply keeps_foldl11
    | with_reducible exact keeps_pair (by assumption) (by assumption) | (split <;> try dsimp only)

theorem State.finishReset_keeps {P : State → Prop} (hP : Opened [.registers, .vectors, .memory, .controllers,
    .answers, .records, .tiles, .parts, .decks, .pages, .thapel, .regulation, .management] P) (s : State) (p : Nat)
    (oks : P s) : P (State.finishReset s p) := by
  have h1 : Opened [.registers, .vectors, .memory, .controllers, .answers, .records, .pages, .management] P := hP.mono
      (by decide)
  have h2 : Opened [.registers, .vectors, .memory, .controllers, .answers, .records, .management] P := hP.mono (by
      decide)
  have h3 : Opened [.registers, .vectors] P := hP.mono (by decide)
  have h4 : Opened [.memory] P := hP.mono (by decide)
  have h5 : Opened [.parts] P := hP.mono (by decide)
  have h6 : Opened [.registers] P := hP.mono (by decide)
  have h7 : Opened [.regulation] P := hP.mono (by decide)
  have h8 : Opened [.tiles] P := hP.mono (by decide)
  have h9 : Opened [.thapel] P := hP.mono (by decide)
  have h10 : Opened [.decks] P := hP.mono (by decide)
  have h11 : Opened [.pages] P := hP.mono (by decide)
  have h12 : Opened [.records] P := hP.mono (by decide)
  unfold State.finishReset
  try dsimp only
  repeat' first
    | with_reducible assumption | (intro _; try dsimp only) | with_reducible apply keeps_ite
    | with_reducible apply State.clearLedger_keeps h1 | with_reducible apply State.clearStores_keeps h2
    | with_reducible apply State.dropSession_keeps h2 | with_reducible apply State.evt_keeps h3
    | with_reducible apply State.freshSems_keeps h4 | with_reducible apply State.onPart_keeps h5
    | with_reducible apply State.resetRegs_keeps h6 | with_reducible apply State.restartAccts_keeps h7
    | with_reducible apply State.tileOff_keeps h8 | with_reducible apply State.withAttn_keeps h9
    | with_reducible apply State.withDecks_keeps h10 | with_reducible apply State.withEvts_keeps h5
    | with_reducible apply State.withPinHeld_keeps h11 | with_reducible apply State.withSems_keeps h5
    | with_reducible apply State.withVfQ_keeps h12 | with_reducible apply keeps_foldl
    | with_reducible apply keeps_foldl1 | with_reducible apply keeps_foldl11
    | with_reducible exact keeps_pair (by assumption) (by assumption) | (split <;> try dsimp only)

theorem State.loadStatus_keeps {P : State → Prop} (hP : Opened [.registers] P) (s : State) (result sect p : Nat) (oks
    : P s) : P (State.loadStatus s result sect p) := by
  unfold State.loadStatus
  try dsimp only
  repeat' first
    | with_reducible assumption | (intro _; try dsimp only) | with_reducible apply keeps_ite
    | with_reducible apply State.fset_keeps hP | with_reducible exact keeps_pair (by assumption) (by assumption)
    | (split <;> try dsimp only)

theorem State.loadFails_keeps {P : State → Prop} (hP : Opened [.registers, .vectors] P) (s : State) (result sect p :
    Nat) (oks : P s) : P (State.loadFails s result sect p) := by
  have h1 : Opened [.registers] P := hP.mono (by decide)
  unfold State.loadFails
  try dsimp only
  repeat' first
    | with_reducible assumption | (intro _; try dsimp only) | with_reducible apply keeps_ite
    | with_reducible apply State.evt_keeps hP | with_reducible apply State.loadStatus_keeps h1
    | with_reducible exact keeps_pair (by assumption) (by assumption) | (split <;> try dsimp only)

theorem State.applyFails_keeps {P : State → Prop} (hP : Opened [.registers, .vectors, .parts, .pages] P) (s : State)
    (result sect p : Nat) (oks : P s) : P (State.applyFails s result sect p) := by
  have h1 : Opened [.registers, .vectors] P := hP.mono (by decide)
  have h2 : Opened [.parts] P := hP.mono (by decide)
  have h3 : Opened [.registers] P := hP.mono (by decide)
  have h4 : Opened [.pages] P := hP.mono (by decide)
  unfold State.applyFails
  try dsimp only
  repeat' first
    | with_reducible assumption | (intro _; try dsimp only) | with_reducible apply keeps_ite
    | with_reducible apply State.loadFails_keeps h1 | with_reducible apply State.onPart_keeps h2
    | with_reducible apply State.setPartStatus_keeps h3 | with_reducible apply State.withSealParts_keeps h4
    | with_reducible exact keeps_pair (by assumption) (by assumption) | (split <;> try dsimp only)

theorem State.withPending_keeps {P : State → Prop} (hP : Opened [.registers, .boot] P) (s : State) (p : Nat) (oks : P
    s) : P (State.withPending s p) := by
  unfold State.withPending
  try dsimp only
  repeat' first
    | with_reducible assumption | (intro _; try dsimp only) | with_reducible apply keeps_ite
    | with_reducible apply State.withPart_keeps hP | with_reducible apply keeps_foldl
    | with_reducible exact keeps_pair (by assumption) (by assumption) | (split <;> try dsimp only)

theorem State.movePool_keeps {P : State → Prop} (hP : Opened [.registers] P) (t s : State) (p : Nat) (okt : P t) (oks
    : P s) : P (State.movePool t s p) := by
  unfold State.movePool
  try dsimp only
  repeat' first
    | with_reducible assumption | (intro _; try dsimp only) | with_reducible apply keeps_ite
    | with_reducible apply State.fset_keeps hP | with_reducible apply keeps_foldl
    | with_reducible exact keeps_pair (by assumption) (by assumption) | (split <;> try dsimp only)

theorem State.applyImage_keeps {P : State → Prop} (hP : Opened [.registers, .pages, .boot] P) (s : State) (p : Nat)
    (oks : P s) : P (State.applyImage s p) := by
  have h1 : Opened [.registers] P := hP.mono (by decide)
  have h2 : Opened [.boot] P := hP.mono (by decide)
  have h3 : Opened [.registers, .boot] P := hP.mono (by decide)
  have h4 : Opened [.pages] P := hP.mono (by decide)
  unfold State.applyImage
  try dsimp only
  repeat' first
    | with_reducible assumption | (intro _; try dsimp only) | with_reducible apply keeps_ite
    | with_reducible apply State.fillAccounts_keeps h1 | with_reducible apply State.keepImage_keeps h2
    | with_reducible apply State.movePool_keeps h1 | with_reducible apply State.withPart_keeps h3
    | with_reducible apply State.withSealParts_keeps h4
    | with_reducible exact keeps_pair (by assumption) (by assumption) | (split <;> try dsimp only)

theorem State.retire_keeps {P : State → Prop} (hP : Opened [.registers, .boot, .management] P) (s : State) (p : Nat)
    (oks : P s) : P (State.retire s p) := by
  have h1 : Opened [.registers, .boot] P := hP.mono (by decide)
  have h2 : Opened [.boot] P := hP.mono (by decide)
  have h3 : Opened [.registers, .management] P := hP.mono (by decide)
  have h4 : Opened [.registers] P := hP.mono (by decide)
  have h5 : Opened [.management] P := hP.mono (by decide)
  unfold State.retire
  try dsimp only
  repeat' first
    | with_reducible assumption | (intro _; try dsimp only) | with_reducible apply keeps_ite
    | with_reducible apply State.barePart_keeps h1 | with_reducible apply State.keepImage_keeps h2
    | with_reducible apply State.keyFor_keeps h3 | with_reducible apply State.movePool_keeps h4
    | with_reducible apply State.setPartStatus_keeps h4 | with_reducible apply State.withMgmt_keeps h5
    | with_reducible exact keeps_pair (by assumption) (by assumption) | (split <;> try dsimp only)

theorem State.loadCommit_keeps {P : State → Prop} (hP : Opened [.registers, .vectors, .parts, .pages, .boot,
    .management] P) (s : State) (p : Nat) (oks : P s) : P (State.loadCommit s p) := by
  have h1 : Opened [.registers, .vectors, .parts, .pages] P := hP.mono (by decide)
  have h2 : Opened [.registers, .pages, .boot] P := hP.mono (by decide)
  have h3 : Opened [.parts] P := hP.mono (by decide)
  have h4 : Opened [.registers, .boot, .management] P := hP.mono (by decide)
  have h5 : Opened [.registers] P := hP.mono (by decide)
  unfold State.loadCommit
  try dsimp only
  repeat' first
    | with_reducible assumption | (intro _; try dsimp only) | with_reducible apply keeps_ite
    | with_reducible apply State.applyFails_keeps h1 | with_reducible apply State.applyImage_keeps h2
    | with_reducible apply State.onPart_keeps h3 | with_reducible apply State.retire_keeps h4
    | with_reducible apply State.schedule_keeps h5 | with_reducible exact keeps_pair (by assumption) (by assumption)
    | (split <;> try dsimp only)

theorem State.putBlob_keeps {P : State → Prop} (hP : Opened [.registers, .vectors, .memory, .controllers, .records,
    .management] P) (s : State) (rd : Nat → Byte) (b : List Nat) (oks : P s) : P (State.putBlob s rd b) := by
  have h1 : Opened [.registers] P := hP.mono (by decide)
  unfold State.putBlob
  try dsimp only
  repeat' first
    | with_reducible assumption | (intro _; try dsimp only) | with_reducible apply keeps_ite
    | with_reducible apply State.fset_keeps h1 | with_reducible apply State.store_keeps hP
    | with_reducible exact keeps_pair (by assumption) (by assumption) | (split <;> try dsimp only)

theorem State.zeroForeign_keeps {P : State → Prop} (hP : Opened [.memory] P) (s : State) (p : Nat) (oks : P s) : P
    (State.zeroForeign s p) := by
  unfold State.zeroForeign
  try dsimp only
  repeat' first
    | with_reducible assumption | (intro _; try dsimp only) | with_reducible apply keeps_ite
    | with_reducible apply State.zero_keeps hP | with_reducible apply keeps_foldl
    | with_reducible exact keeps_pair (by assumption) (by assumption) | (split <;> try dsimp only)

theorem State.flrPart_keeps {P : State → Prop} (hP : Opened [.registers, .vectors, .memory, .controllers, .answers,
    .records, .tiles, .parts, .decks, .pages, .thapel, .regulation, .streams, .management] P) (s : State) (p : Nat)
    (oks : P s) : P (State.flrPart s p) := by
  have h1 : Opened [.registers, .vectors, .parts, .pages] P := hP.mono (by decide)
  unfold State.flrPart
  try dsimp only
  repeat' first
    | with_reducible assumption | (intro _; try dsimp only) | with_reducible apply keeps_ite
    | with_reducible apply State.applyFails_keeps h1 | with_reducible apply State.startReset_keeps hP
    | with_reducible exact keeps_pair (by assumption) (by assumption) | (split <;> try dsimp only)

theorem State.segRefused_keeps {P : State → Prop} (hP : Opened [.registers, .vectors] P) (s : State) (port : Nat) (oks
    : P s) : P (State.segRefused s port) := by
  unfold State.segRefused
  try dsimp only
  repeat' first
    | with_reducible assumption | (intro _; try dsimp only) | with_reducible apply keeps_ite
    | with_reducible apply State.evt_keeps hP | with_reducible exact keeps_pair (by assumption) (by assumption)
    | (split <;> try dsimp only)

theorem State.toPhase_keeps {P : State → Prop} (hP : Opened [.registers, .boot] P) (s : State) (n : Nat) (oks : P s) :
    P (State.toPhase s n) := by
  have h1 : Opened [.registers] P := hP.mono (by decide)
  have h2 : Opened [.boot] P := hP.mono (by decide)
  unfold State.toPhase
  try dsimp only
  repeat' first
    | with_reducible assumption | (intro _; try dsimp only) | with_reducible apply keeps_ite
    | with_reducible apply State.fset_keeps h1 | with_reducible apply State.withBoot_keeps h2
    | with_reducible exact keeps_pair (by assumption) (by assumption) | (split <;> try dsimp only)

theorem State.partReset_keeps {P : State → Prop} (hP : Opened [.clock, .draws, .registers, .vectors, .memory,
    .controllers, .answers, .host, .records, .tiles, .parts, .decks, .pages, .thapel, .regulation, .links, .streams,
    .tree, .boot, .power, .package, .management] P) (hr : Restarts P) (s : State) (oks : P s) : P s.partReset := by
  exact hr.1 s oks

theorem State.arrayFuse_keeps {P : State → Prop} (hP : Opened [.registers] P) (s : State) (j a : Nat) (oks : P s) : P
    (State.arrayFuse s j a) := by
  unfold State.arrayFuse
  try dsimp only
  repeat' first
    | with_reducible assumption | (intro _; try dsimp only) | with_reducible apply keeps_ite
    | with_reducible apply State.fset_keeps hP | with_reducible apply keeps_foldl | with_reducible apply keeps_foldl1
    | with_reducible apply keeps_foldl11 | with_reducible exact keeps_pair (by assumption) (by assumption)
    | (split <;> try dsimp only)

theorem State.latFuse_keeps {P : State → Prop} (hP : Opened [.registers] P) (s : State) (j : Nat) (oks : P s) : P
    (State.latFuse s j) := by
  unfold State.latFuse
  try dsimp only
  repeat' first
    | with_reducible assumption | (intro _; try dsimp only) | with_reducible apply keeps_ite
    | with_reducible apply State.fset_keeps hP | with_reducible apply keeps_foldl | with_reducible apply keeps_foldl1
    | with_reducible apply keeps_foldl11 | with_reducible exact keeps_pair (by assumption) (by assumption)
    | (split <;> try dsimp only)

theorem State.loadFuses_keeps {P : State → Prop} (hP : Opened [.registers] P) (s : State) (oks : P s) : P
    (State.loadFuses s) := by
  unfold State.loadFuses
  try dsimp only
  repeat' first
    | with_reducible assumption | (intro _; try dsimp only) | with_reducible apply keeps_ite
    | with_reducible apply State.arrayFuse_keeps hP | with_reducible apply State.fbitSet_keeps hP
    | with_reducible apply State.fset_keeps hP | with_reducible apply State.latFuse_keeps hP
    | with_reducible apply keeps_foldl | with_reducible exact keeps_pair (by assumption) (by assumption)
    | (split <;> try dsimp only)

theorem State.markChan_keeps {P : State → Prop} (hP : Opened [.registers] P) (s : State) (f : Field) (c : Nat) (oks :
    P s) : P (State.markChan s f c) := by
  unfold State.markChan
  try dsimp only
  repeat' first
    | with_reducible assumption | (intro _; try dsimp only) | with_reducible apply keeps_ite
    | with_reducible apply State.fbitSet_keeps hP | with_reducible exact keeps_pair (by assumption) (by assumption)
    | (split <;> try dsimp only)

theorem State.loseTile_keeps {P : State → Prop} (hP : Opened [.registers] P) (s : State) (j : Nat) (oks : P s) : P
    (State.loseTile s j) := by
  unfold State.loseTile
  try dsimp only
  repeat' first
    | with_reducible assumption | (intro _; try dsimp only) | with_reducible apply keeps_ite
    | with_reducible apply State.fbitSet_keeps hP | with_reducible exact keeps_pair (by assumption) (by assumption)
    | (split <;> try dsimp only)

theorem State.markT0_keeps {P : State → Prop} (hP : Opened [.registers] P) (s : State) (j : Nat) (oks : P s) : P
    (State.markT0 s j) := by
  unfold State.markT0
  try dsimp only
  repeat' first
    | with_reducible assumption | (intro _; try dsimp only) | with_reducible apply keeps_ite
    | with_reducible apply State.fbitSet_keeps hP | with_reducible apply State.loseTile_keeps hP
    | with_reducible exact keeps_pair (by assumption) (by assumption) | (split <;> try dsimp only)

theorem State.unitFails_keeps {P : State → Prop} (hP : Opened [.draws, .registers, .vectors, .records, .management] P)
    (s : State) (quick : Bool) (u : Nat × Nat) (oks : P s) : P (State.unitFails s quick u) := by
  have h1 : Opened [.draws] P := hP.mono (by decide)
  have h2 : Opened [.registers] P := hP.mono (by decide)
  have h3 : Opened [.registers, .vectors, .records, .management] P := hP.mono (by decide)
  unfold State.unitFails
  try dsimp only
  repeat' first
    | with_reducible assumption | (intro _; try dsimp only) | with_reducible apply keeps_ite
    | with_reducible apply State.draw_keeps h1 | with_reducible apply State.fbitSet_keeps h2
    | with_reducible apply State.fset_keeps h2 | with_reducible apply State.loseTile_keeps h2
    | with_reducible apply State.markChan_keeps h2 | with_reducible apply State.markT0_keeps h2
    | with_reducible apply State.record_keeps h3 | with_reducible exact keeps_pair (by assumption) (by assumption)
    | (split <;> try dsimp only)

theorem State.saveRecords_keeps {P : State → Prop} (hP : Opened [.boot] P) (s : State) (ks : List Nat) (oks : P s) : P
    (State.saveRecords s ks) := by
  unfold State.saveRecords
  try dsimp only
  repeat' first
    | with_reducible assumption | (intro _; try dsimp only) | with_reducible apply keeps_ite
    | with_reducible apply State.withBoot_keeps hP | with_reducible apply keeps_foldl
    | with_reducible exact keeps_pair (by assumption) (by assumption) | (split <;> try dsimp only)

theorem State.memInit_keeps {P : State → Prop} (hP : Opened [.memory] P) (s : State) (oks : P s) : P s.memInit := by
  exact State.withMerge_keeps hP _ _ (State.withWbq_keeps hP _ _ ((hP .memory (by decide)).2.2.2.2.2.1 _ (fun k _ => s.inited k)
    ((hP .memory (by decide)).2.2.2.2.1 s (fun k _ => s.inited k) oks)))

theorem State.afterImage_keeps {P : State → Prop} (hP : Opened [.registers, .vectors, .records, .links, .boot,
    .management] P) (s : State) (oks : P s) : P (State.afterImage s) := by
  have h1 : Opened [.registers] P := hP.mono (by decide)
  have h2 : Opened [.links] P := hP.mono (by decide)
  have h3 : Opened [.registers, .links] P := hP.mono (by decide)
  have h4 : Opened [.registers, .vectors, .records, .management] P := hP.mono (by decide)
  have h5 : Opened [.registers, .boot] P := hP.mono (by decide)
  have h6 : Opened [.boot] P := hP.mono (by decide)
  unfold State.afterImage
  try dsimp only
  repeat' first
    | with_reducible assumption | (intro _; try dsimp only) | with_reducible apply keeps_ite
    | with_reducible apply State.fset_keeps h1 | with_reducible apply State.onPort_keeps h2
    | with_reducible apply State.portStart_keeps h3 | with_reducible apply State.setPriv_keeps h4
    | with_reducible apply State.toPhase_keeps h5 | with_reducible apply State.withBoot_keeps h6
    | with_reducible apply keeps_foldl | with_reducible apply keeps_foldl1 | with_reducible apply keeps_foldl11
    | with_reducible exact keeps_pair (by assumption) (by assumption) | (split <;> try dsimp only)

theorem State.topology_keeps {P : State → Prop} (hP : Opened [.registers, .boot] P) (s : State) (oks : P s) : P
    (State.topology s) := by
  have h1 : Opened [.registers] P := hP.mono (by decide)
  unfold State.topology
  try dsimp only
  repeat' first
    | with_reducible assumption | (intro _; try dsimp only) | with_reducible apply keeps_ite
    | with_reducible apply State.fset_keeps h1 | with_reducible apply State.toPhase_keeps hP
    | with_reducible exact keeps_pair (by assumption) (by assumption) | (split <;> try dsimp only)

theorem State.ready_keeps {P : State → Prop} (hP : Opened [.registers, .vectors, .memory, .controllers, .answers,
    .records, .parts, .decks, .pages, .links, .tree, .boot, .management] P) (s : State) (n : Nat) (oks : P s) : P
    (State.ready s n) := by
  have h1 : Opened [.registers, .vectors, .memory, .controllers, .answers, .records, .parts, .decks, .pages, .links,
      .tree, .management] P := hP.mono (by decide)
  have h2 : Opened [.registers] P := hP.mono (by decide)
  have h3 : Opened [.registers, .vectors, .records, .links, .management] P := hP.mono (by decide)
  have h4 : Opened [.registers, .boot] P := hP.mono (by decide)
  unfold State.ready
  try dsimp only
  repeat' first
    | with_reducible assumption | (intro _; try dsimp only) | with_reducible apply keeps_ite
    | with_reducible apply State.barTry_keeps h1 | with_reducible apply State.fset_keeps h2
    | with_reducible apply State.relive_keeps h3 | with_reducible apply State.setPartStatus_keeps h2
    | with_reducible apply State.toPhase_keeps h4 | with_reducible apply keeps_foldl
    | with_reducible exact keeps_pair (by assumption) (by assumption) | (split <;> try dsimp only)

theorem State.onPower_keeps {P : State → Prop} (hP : Opened [.power] P) (s : State) (f : Power → Power) (oks : P s) :
    P (State.onPower s f) := by
  exact State.withPower_keeps hP s _ oks

theorem State.alert_keeps {P : State → Prop} (hP : Opened [.package] P) (s : State) (oks : P s) : P (State.alert s) :=
    by
  unfold State.alert
  try dsimp only
  repeat' first
    | with_reducible assumption | (intro _; try dsimp only) | with_reducible apply keeps_ite
    | with_reducible apply State.withPkg_keeps hP | with_reducible exact keeps_pair (by assumption) (by assumption)
    | (split <;> try dsimp only)

theorem State.powerRec_keeps {P : State → Prop} (hP : Opened [.registers, .vectors, .records, .management] P) (s :
    State) (cause sev unit i0 i1 : Nat) (oks : P s) : P (State.powerRec s cause sev unit i0 i1) := by
  unfold State.powerRec
  try dsimp only
  repeat' first
    | with_reducible assumption | (intro _; try dsimp only) | with_reducible apply keeps_ite
    | with_reducible apply State.record_keeps hP | with_reducible exact keeps_pair (by assumption) (by assumption)
    | (split <;> try dsimp only)

theorem State.domainRec_keeps {P : State → Prop} (hP : Opened [.draws, .registers, .vectors, .records, .management] P)
    (s : State) (cause sev sensor : Nat) (temp : Int) (oks : P s) : P (State.domainRec s cause sev sensor temp) := by
  have h1 : Opened [.draws] P := hP.mono (by decide)
  have h2 : Opened [.registers, .vectors, .records, .management] P := hP.mono (by decide)
  unfold State.domainRec
  try dsimp only
  repeat' first
    | with_reducible assumption | (intro _; try dsimp only) | with_reducible apply keeps_ite
    | with_reducible apply State.draw_keeps h1 | with_reducible apply State.powerRec_keeps h2
    | with_reducible exact keeps_pair (by assumption) (by assumption) | (split <;> try dsimp only)

theorem State.writeDuty_keeps {P : State → Prop} (hP : Opened [.registers] P) (s : State) (t : Nat) (oks : P s) : P
    (State.writeDuty s t) := by
  unfold State.writeDuty
  try dsimp only
  repeat' first
    | with_reducible assumption | (intro _; try dsimp only) | with_reducible apply keeps_ite
    | with_reducible apply State.fset_keeps hP | with_reducible apply keeps_foldl
    | with_reducible exact keeps_pair (by assumption) (by assumption) | (split <;> try dsimp only)

theorem State.setTarget_keeps {P : State → Prop} (hP : Opened [.registers, .power] P) (s : State) (t n : Nat) (oks : P
    s) : P (State.setTarget s t n) := by
  have h1 : Opened [.registers] P := hP.mono (by decide)
  have h2 : Opened [.power] P := hP.mono (by decide)
  unfold State.setTarget
  try dsimp only
  repeat' first
    | with_reducible assumption | (intro _; try dsimp only) | with_reducible apply keeps_ite
    | with_reducible apply State.fset_keeps h1 | with_reducible apply State.onPower_keeps h2
    | with_reducible exact keeps_pair (by assumption) (by assumption) | (split <;> try dsimp only)

theorem State.deliv_keeps {P : State → Prop} (hP : Opened [.registers] P) (s : State) (h : Nat) (oks : P s) : P
    (State.deliv s h) := by
  unfold State.deliv
  try dsimp only
  repeat' first
    | with_reducible assumption | (intro _; try dsimp only) | with_reducible apply keeps_ite
    | with_reducible apply State.fset_keeps hP | with_reducible exact keeps_pair (by assumption) (by assumption)
    | (split <;> try dsimp only)

theorem State.delivAll_keeps {P : State → Prop} (hP : Opened [.registers] P) (s : State) (oks : P s) : P
    (State.delivAll s) := by
  unfold State.delivAll
  try dsimp only
  repeat' first
    | with_reducible assumption | (intro _; try dsimp only) | with_reducible apply keeps_ite
    | with_reducible apply State.deliv_keeps hP | with_reducible apply keeps_foldl
    | with_reducible exact keeps_pair (by assumption) (by assumption) | (split <;> try dsimp only)

theorem State.throttle_keeps {P : State → Prop} (hP : Opened [.registers, .power] P) (s : State) (d : Nat) (oks : P s)
    : P (State.throttle s d) := by
  have h1 : Opened [.registers] P := hP.mono (by decide)
  have h2 : Opened [.power] P := hP.mono (by decide)
  unfold State.throttle
  try dsimp only
  repeat' first
    | with_reducible assumption | (intro _; try dsimp only) | with_reducible apply keeps_ite
    | with_reducible apply State.delivAll_keeps h1 | with_reducible apply State.fset_keeps h1
    | with_reducible apply State.onPower_keeps h2 | with_reducible apply State.writeDuty_keeps h1
    | with_reducible apply keeps_foldl | with_reducible exact keeps_pair (by assumption) (by assumption)
    | (split <;> try dsimp only)

theorem State.unthrottle_keeps {P : State → Prop} (hP : Opened [.registers, .power] P) (s : State) (d : Nat) (oks : P
    s) : P (State.unthrottle s d) := by
  have h1 : Opened [.registers] P := hP.mono (by decide)
  have h2 : Opened [.power] P := hP.mono (by decide)
  unfold State.unthrottle
  try dsimp only
  repeat' first
    | with_reducible assumption | (intro _; try dsimp only) | with_reducible apply keeps_ite
    | with_reducible apply State.fset_keeps h1 | with_reducible apply State.onPower_keeps h2
    | with_reducible apply State.writeDuty_keeps h1 | with_reducible apply keeps_foldl
    | with_reducible exact keeps_pair (by assumption) (by assumption) | (split <;> try dsimp only)

theorem State.lowerHot_keeps {P : State → Prop} (hP : Opened [.registers, .power] P) (s : State) (oks : P s) : P
    (State.lowerHot s) := by
  have h1 : Opened [.power] P := hP.mono (by decide)
  unfold State.lowerHot
  try dsimp only
  repeat' first
    | with_reducible assumption | (intro _; try dsimp only) | with_reducible apply keeps_ite
    | with_reducible apply State.onPower_keeps h1 | with_reducible apply State.setTarget_keeps hP
    | with_reducible apply keeps_foldl | with_reducible exact keeps_pair (by assumption) (by assumption)
    | (split <;> try dsimp only)

theorem State.flagSensor_keeps {P : State → Prop} (hP : Opened [.draws, .registers, .vectors, .records, .management]
    P) (s : State) (n kind : Nat) (oks : P s) : P (State.flagSensor s n kind) := by
  have h1 : Opened [.draws] P := hP.mono (by decide)
  have h2 : Opened [.registers, .vectors] P := hP.mono (by decide)
  have h3 : Opened [.registers] P := hP.mono (by decide)
  have h4 : Opened [.registers, .vectors, .records, .management] P := hP.mono (by decide)
  unfold State.flagSensor
  try dsimp only
  repeat' first
    | with_reducible assumption | (intro _; try dsimp only) | with_reducible apply keeps_ite
    | with_reducible apply State.draw_keeps h1 | with_reducible apply State.evt_keeps h2
    | with_reducible apply State.fset_keeps h3 | with_reducible apply State.powerRec_keeps h4
    | with_reducible exact keeps_pair (by assumption) (by assumption) | (split <;> try dsimp only)

theorem State.sampleSensor_keeps {P : State → Prop} (hP : Opened [.draws, .registers, .vectors, .records, .power,
    .management] P) (s : State) (n : Nat) (raw : Int) (oks : P s) : P (State.sampleSensor s n raw) := by
  have h1 : Opened [.draws, .registers, .vectors, .records, .management] P := hP.mono (by decide)
  have h2 : Opened [.power] P := hP.mono (by decide)
  unfold State.sampleSensor
  try dsimp only
  repeat' first
    | with_reducible assumption | (intro _; try dsimp only) | with_reducible apply keeps_ite
    | with_reducible apply State.flagSensor_keeps h1 | with_reducible apply State.onPower_keeps h2
    | with_reducible exact keeps_pair (by assumption) (by assumption) | (split <;> try dsimp only)

theorem State.sampleSpots_keeps {P : State → Prop} (hP : Opened [.draws, .registers, .vectors, .records, .power,
    .management] P) (s : State) (oks : P s) : P (State.sampleSpots s) := by
  have h1 : Opened [.draws] P := hP.mono (by decide)
  have h2 : Opened [.draws, .registers, .vectors, .records, .management] P := hP.mono (by decide)
  have h3 : Opened [.power] P := hP.mono (by decide)
  unfold State.sampleSpots
  try dsimp only
  repeat' first
    | with_reducible assumption | (intro _; try dsimp only) | with_reducible apply keeps_ite
    | with_reducible apply State.draw_keeps h1 | with_reducible apply State.flagSensor_keeps h2
    | with_reducible apply State.onPower_keeps h3 | with_reducible apply keeps_foldl
    | with_reducible apply keeps_foldl1 | with_reducible apply keeps_foldl11
    | with_reducible exact keeps_pair (by assumption) (by assumption) | (split <;> try dsimp only)

theorem State.showTemps_keeps {P : State → Prop} (hP : Opened [.registers] P) (s : State) (oks : P s) : P
    (State.showTemps s) := by
  unfold State.showTemps
  try dsimp only
  repeat' first
    | with_reducible assumption | (intro _; try dsimp only) | with_reducible apply keeps_ite
    | with_reducible apply State.fset_keeps hP | with_reducible apply keeps_foldl
    | with_reducible exact keeps_pair (by assumption) (by assumption) | (split <;> try dsimp only)

theorem State.bandStep_keeps {P : State → Prop} (hP : Opened [.registers, .vectors] P) (s : State) (h i : Nat) (oks :
    P s) : P (State.bandStep s h i) := by
  have h1 : Opened [.registers] P := hP.mono (by decide)
  unfold State.bandStep
  try dsimp only
  repeat' first
    | with_reducible assumption | (intro _; try dsimp only) | with_reducible apply keeps_ite
    | with_reducible apply State.evt_keeps hP | with_reducible apply State.fsetAt_keeps h1
    | with_reducible exact keeps_pair (by assumption) (by assumption) | (split <;> try dsimp only)

theorem State.bands_keeps {P : State → Prop} (hP : Opened [.registers, .vectors] P) (s : State) (oks : P s) : P
    (State.bands s) := by
  unfold State.bands
  try dsimp only
  repeat' first
    | with_reducible assumption | (intro _; try dsimp only) | with_reducible apply keeps_ite
    | with_reducible apply State.bandStep_keeps hP | with_reducible apply keeps_foldl
    | with_reducible exact keeps_pair (by assumption) (by assumption) | (split <;> try dsimp only)

theorem State.leave_keeps {P : State → Prop} (hP : Opened [.registers, .power] P) (s : State) (oks : P s) : P
    (State.leave s) := by
  have h1 : Opened [.power] P := hP.mono (by decide)
  unfold State.leave
  try dsimp only
  repeat' first
    | with_reducible assumption | (intro _; try dsimp only) | with_reducible apply keeps_ite
    | with_reducible apply State.onPower_keeps h1 | with_reducible apply State.unthrottle_keeps hP
    | with_reducible apply keeps_foldl | with_reducible exact keeps_pair (by assumption) (by assumption)
    | (split <;> try dsimp only)

theorem State.throttleCmp_keeps {P : State → Prop} (hP : Opened [.draws, .registers, .vectors, .records, .power,
    .management] P) (s : State) (d n : Nat) (x : Int) (oks : P s) : P (State.throttleCmp s d n x) := by
  have h1 : Opened [.draws, .registers, .vectors, .records, .management] P := hP.mono (by decide)
  have h2 : Opened [.registers, .vectors] P := hP.mono (by decide)
  have h3 : Opened [.registers, .power] P := hP.mono (by decide)
  unfold State.throttleCmp
  try dsimp only
  repeat' first
    | with_reducible assumption | (intro _; try dsimp only) | with_reducible apply keeps_ite
    | with_reducible apply State.domainRec_keeps h1 | with_reducible apply State.evt_keeps h2
    | with_reducible apply State.throttle_keeps h3 | with_reducible exact keeps_pair (by assumption) (by assumption)
    | (split <;> try dsimp only)

theorem State.tripStop_keeps {P : State → Prop} (hP : Opened [.registers, .vectors, .memory, .controllers, .answers,
    .records, .tiles, .parts, .decks, .pages, .thapel, .boot, .management] P) (s : State) (cause sensor hold : Nat)
    (oks : P s) : P (State.tripStop s cause sensor hold) := by
  have h1 : Opened [.registers] P := hP.mono (by decide)
  have h2 : Opened [.boot] P := hP.mono (by decide)
  unfold State.tripStop
  try dsimp only
  repeat' first
    | with_reducible assumption | (intro _; try dsimp only) | with_reducible apply keeps_ite
    | with_reducible apply State.enterHold_keeps hP | with_reducible apply State.fset_keeps h1
    | with_reducible apply State.withHalted_keeps h2 | with_reducible exact keeps_pair (by assumption) (by assumption)
    | (split <;> try dsimp only)

theorem State.showCap_keeps {P : State → Prop} (hP : Opened [.registers] P) (s : State) (oks : P s) : P (State.showCap
    s) := by
  unfold State.showCap
  try dsimp only
  repeat' first
    | with_reducible assumption | (intro _; try dsimp only) | with_reducible apply keeps_ite
    | with_reducible apply State.fset_keeps hP | with_reducible exact keeps_pair (by assumption) (by assumption)
    | (split <;> try dsimp only)

theorem State.boostEnd_keeps {P : State → Prop} (hP : Opened [.registers, .vectors, .power] P) (s : State) (oks : P s)
    : P (State.boostEnd s) := by
  have h1 : Opened [.registers, .vectors] P := hP.mono (by decide)
  have h2 : Opened [.power] P := hP.mono (by decide)
  unfold State.boostEnd
  try dsimp only
  repeat' first
    | with_reducible assumption | (intro _; try dsimp only) | with_reducible apply keeps_ite
    | with_reducible apply State.evt_keeps h1 | with_reducible apply State.onPower_keeps h2
    | with_reducible exact keeps_pair (by assumption) (by assumption) | (split <;> try dsimp only)

theorem State.boostStep_keeps {P : State → Prop} (hP : Opened [.registers, .vectors, .power] P) (s : State) (oks : P
    s) : P (State.boostStep s) := by
  have h1 : Opened [.registers, .vectors] P := hP.mono (by decide)
  have h2 : Opened [.power] P := hP.mono (by decide)
  unfold State.boostStep
  try dsimp only
  repeat' first
    | with_reducible assumption | (intro _; try dsimp only) | with_reducible apply keeps_ite
    | with_reducible apply State.boostEnd_keeps hP | with_reducible apply State.evt_keeps h1
    | with_reducible apply State.onPower_keeps h2 | with_reducible exact keeps_pair (by assumption) (by assumption)
    | (split <;> try dsimp only)

theorem State.coolantRec_keeps {P : State → Prop} (hP : Opened [.registers, .vectors, .records, .management] P) (s :
    State) (k : Nat) (oks : P s) : P (State.coolantRec s k) := by
  unfold State.coolantRec
  try dsimp only
  repeat' first
    | with_reducible assumption | (intro _; try dsimp only) | with_reducible apply keeps_ite
    | with_reducible apply State.powerRec_keeps hP | with_reducible exact keeps_pair (by assumption) (by assumption)
    | (split <;> try dsimp only)

theorem State.rateTrip_keeps {P : State → Prop} (hP : Opened [.registers, .vectors, .records, .power, .package,
    .management] P) (s : State) (k : Nat) (oks : P s) : P (State.rateTrip s k) := by
  have h1 : Opened [.package] P := hP.mono (by decide)
  have h2 : Opened [.registers, .vectors, .power] P := hP.mono (by decide)
  have h3 : Opened [.registers, .vectors] P := hP.mono (by decide)
  have h4 : Opened [.power] P := hP.mono (by decide)
  have h5 : Opened [.registers, .vectors, .records, .management] P := hP.mono (by decide)
  have h6 : Opened [.registers, .power] P := hP.mono (by decide)
  have h7 : Opened [.registers] P := hP.mono (by decide)
  unfold State.rateTrip
  try dsimp only
  repeat' first
    | with_reducible assumption | (intro _; try dsimp only) | with_reducible apply keeps_ite
    | with_reducible apply State.alert_keeps h1 | with_reducible apply State.boostEnd_keeps h2
    | with_reducible apply State.evt_keeps h3 | with_reducible apply State.onPower_keeps h4
    | with_reducible apply State.powerRec_keeps h5 | with_reducible apply State.setTarget_keeps h6
    | with_reducible apply State.showCap_keeps h7 | with_reducible apply State.writeDuty_keeps h7
    | with_reducible apply keeps_foldl | with_reducible apply keeps_foldl1 | with_reducible apply keeps_foldl11
    | with_reducible exact keeps_pair (by assumption) (by assumption) | (split <;> try dsimp only)

theorem State.rateRelease_keeps {P : State → Prop} (hP : Opened [.registers, .power, .package] P) (s : State) (oks : P
    s) : P (State.rateRelease s) := by
  have h1 : Opened [.package] P := hP.mono (by decide)
  have h2 : Opened [.power] P := hP.mono (by decide)
  have h3 : Opened [.registers] P := hP.mono (by decide)
  unfold State.rateRelease
  try dsimp only
  repeat' first
    | with_reducible assumption | (intro _; try dsimp only) | with_reducible apply keeps_ite
    | with_reducible apply State.alert_keeps h1 | with_reducible apply State.onPower_keeps h2
    | with_reducible apply State.showCap_keeps h3 | with_reducible apply State.writeDuty_keeps h3
    | with_reducible apply keeps_foldl | with_reducible apply keeps_foldl1 | with_reducible apply keeps_foldl11
    | with_reducible exact keeps_pair (by assumption) (by assumption) | (split <;> try dsimp only)

theorem State.towerSleep_keeps {P : State → Prop} (hP : Opened [.registers] P) (s : State) (t : Nat) (oks : P s) : P
    (State.towerSleep s t) := by
  unfold State.towerSleep
  try dsimp only
  repeat' first
    | with_reducible assumption | (intro _; try dsimp only) | with_reducible apply keeps_ite
    | with_reducible apply State.fset_keeps hP | with_reducible exact keeps_pair (by assumption) (by assumption)
    | (split <;> try dsimp only)

theorem State.enterState_keeps {P : State → Prop} (hP : Opened [.registers, .power] P) (s : State) (v : Nat) (oks : P
    s) : P (State.enterState s v) := by
  have h1 : Opened [.registers] P := hP.mono (by decide)
  have h2 : Opened [.power] P := hP.mono (by decide)
  unfold State.enterState
  try dsimp only
  repeat' first
    | with_reducible assumption | (intro _; try dsimp only) | with_reducible apply keeps_ite
    | with_reducible apply State.fset_keeps h1 | with_reducible apply State.onPower_keeps h2
    | with_reducible exact keeps_pair (by assumption) (by assumption) | (split <;> try dsimp only)

theorem State.standbyPort_keeps {P : State → Prop} (hP : Opened [.registers, .links] P) (s : State) (p : Nat) (oks : P
    s) : P (State.standbyPort s p) := by
  have h1 : Opened [.registers] P := hP.mono (by decide)
  have h2 : Opened [.links] P := hP.mono (by decide)
  unfold State.standbyPort
  try dsimp only
  repeat' first
    | with_reducible assumption | (intro _; try dsimp only) | with_reducible apply keeps_ite
    | with_reducible apply State.fset_keeps h1 | with_reducible apply State.onPort_keeps h2
    | with_reducible apply State.setPst_keeps hP | with_reducible exact keeps_pair (by assumption) (by assumption)
    | (split <;> try dsimp only)

theorem State.toRun_keeps {P : State → Prop} (hP : Opened [.registers, .vectors, .links, .power] P) (s : State) (oks :
    P s) : P (State.toRun s) := by
  have h1 : Opened [.registers, .vectors] P := hP.mono (by decide)
  have h2 : Opened [.registers] P := hP.mono (by decide)
  have h3 : Opened [.power] P := hP.mono (by decide)
  have h4 : Opened [.registers, .links] P := hP.mono (by decide)
  unfold State.toRun
  try dsimp only
  repeat' first
    | with_reducible assumption | (intro _; try dsimp only) | with_reducible apply keeps_ite
    | with_reducible apply State.evt_keeps h1 | with_reducible apply State.fset_keeps h2
    | with_reducible apply State.onPower_keeps h3 | with_reducible apply State.portStart_keeps h4
    | with_reducible apply keeps_foldl | with_reducible apply keeps_foldl1 | with_reducible apply keeps_foldl11
    | with_reducible exact keeps_pair (by assumption) (by assumption) | (split <;> try dsimp only)

theorem State.tickArrays_keeps {P : State → Prop} (hP : Opened [.registers, .tiles] P) (s : State) (oks : P s) : P
    (State.tickArrays s) := by
  unfold State.tickArrays
  try dsimp only
  repeat' first
    | with_reducible assumption | (intro _; try dsimp only) | with_reducible apply keeps_ite
    | with_reducible apply State.arrTick_keeps hP | with_reducible apply keeps_foldl
    | with_reducible apply keeps_foldl1 | with_reducible apply keeps_foldl11
    | with_reducible exact keeps_pair (by assumption) (by assumption) | (split <;> try dsimp only)

theorem State.tick_keeps {P : State → Prop} (hP : Opened [.clock, .registers, .tiles, .power] P) (s : State) (oks : P
    s) : P (State.tick s) := by
  have h1 : Opened [.registers, .tiles] P := hP.mono (by decide)
  have h2 : Opened [.clock] P := hP.mono (by decide)
  have h3 : Opened [.power] P := hP.mono (by decide)
  have h4 : Opened [.tiles] P := hP.mono (by decide)
  unfold State.tick
  try dsimp only
  repeat' first
    | with_reducible assumption | (intro _; try dsimp only) | with_reducible apply keeps_ite
    | with_reducible apply State.tickArrays_keeps h1 | with_reducible apply State.withCalPhase_keeps h2
    | with_reducible apply State.withCalendar_keeps h2 | with_reducible apply State.withPower_keeps h3
    | with_reducible apply State.withSlew_keeps h3 | with_reducible apply State.withTiles_keeps h4
    | with_reducible apply State.withTime_keeps h2 | with_reducible exact keeps_pair (by assumption) (by assumption)
    | (split <;> try dsimp only)

theorem State.reqEnd_keeps {P : State → Prop} (hP : Opened [.draws, .registers, .vectors, .memory, .controllers,
    .answers, .records, .tiles, .parts, .pages, .thapel, .management] P) (s : State) (c : Ctx) (oks : P s) : P
    (State.reqEnd s c) := by
  unfold State.reqEnd
  try dsimp only
  repeat' first
    | with_reducible assumption | (intro _; try dsimp only) | with_reducible apply keeps_ite
    | with_reducible apply State.yarderEnd_keeps hP | with_reducible exact keeps_pair (by assumption) (by assumption)
    | (split <;> try dsimp only)

theorem State.landGot_keeps {P : State → Prop} (hP : Opened [.registers, .vectors, .memory, .controllers, .records,
    .management] P) (s : State) (g : Tag) (oks : P s) : P (State.landGot s g) := by
  unfold State.landGot
  try dsimp only
  repeat' first
    | with_reducible assumption | (intro _; try dsimp only) | with_reducible apply keeps_ite
    | with_reducible apply State.storeMarks_keeps hP | with_reducible exact keeps_pair (by assumption) (by assumption)
    | (split <;> try dsimp only)

theorem State.endYards_keeps {P : State → Prop} (hP : Opened [.draws, .registers, .vectors, .memory, .controllers,
    .answers, .records, .tiles, .parts, .pages, .thapel, .management] P) (s : State) (p l j : Nat) (oks : P s) : P
    (State.endYards s p l j) := by
  unfold State.endYards
  try dsimp only
  repeat' first
    | with_reducible assumption | (intro _; try dsimp only) | with_reducible apply keeps_ite
    | with_reducible apply State.yarderEnd_keeps hP | with_reducible apply keeps_foldl
    | with_reducible exact keeps_pair (by assumption) (by assumption) | (split <;> try dsimp only)

theorem State.loadContext_keeps {P : State → Prop} (hP : Opened [.registers, .vectors, .memory, .controllers,
    .answers, .records, .tiles, .parts, .pages, .thapel, .management] P) (s : State) (p l j : Nat) (oks : P s) : P
    (State.loadContext s p l j) := by
  have h1 : Opened [.registers, .vectors, .memory, .controllers, .answers, .records, .pages, .thapel, .management] P
      := hP.mono (by decide)
  have h2 : Opened [.tiles] P := hP.mono (by decide)
  have h3 : Opened [.registers, .tiles, .parts] P := hP.mono (by decide)
  have h4 : Opened [.registers, .vectors, .memory, .controllers, .records, .management] P := hP.mono (by decide)
  unfold State.loadContext
  try dsimp only
  repeat' first
    | with_reducible assumption | (intro _; try dsimp only) | with_reducible apply keeps_ite
    | with_reducible apply State.attnDrop_keeps h1 | with_reducible apply State.onThr_keeps h2
    | with_reducible apply State.opEndFault_keeps h3 | with_reducible apply State.opReads_keeps h4
    | with_reducible apply State.withTileSems_keeps h2 | with_reducible apply keeps_foldl
    | with_reducible apply keeps_foldl1 | with_reducible apply keeps_foldl11
    | with_reducible exact keeps_pair (by assumption) (by assumption) | (split <;> try dsimp only)

theorem State.setRawData_keeps {P : State → Prop} (hP : Opened [.registers] P) (s : State) (hub : Nat) (bs : List
    Byte) (oks : P s) : P (State.setRawData s hub bs) := by
  unfold State.setRawData
  try dsimp only
  repeat' first
    | with_reducible assumption | (intro _; try dsimp only) | with_reducible apply keeps_ite
    | with_reducible apply State.fset_keeps hP | with_reducible apply keeps_foldl
    | with_reducible exact keeps_pair (by assumption) (by assumption) | (split <;> try dsimp only)

theorem State.rawStatus_keeps {P : State → Prop} (hP : Opened [.registers] P) (s : State) (hub w : Nat) (oks : P s) :
    P (State.rawStatus s hub w) := by
  unfold State.rawStatus
  try dsimp only
  repeat' first
    | with_reducible assumption | (intro _; try dsimp only) | with_reducible apply keeps_ite
    | with_reducible apply State.fset_keeps hP | with_reducible exact keeps_pair (by assumption) (by assumption)
    | (split <;> try dsimp only)

theorem State.rawOp_keeps {P : State → Prop} (hP : Opened [.registers, .vectors, .memory, .controllers, .answers,
    .records, .management] P) (s : State) (who : Accessor) (hub v : Nat) (write : Bool) (act : State → Nat → State)
    (oks : P s) (okact : ∀ (t0 : State) (t1 : Nat), P t0 → P (act t0 t1)) : P (State.rawOp s who hub v write act) :=
    by
  have h1 : Opened [.registers] P := hP.mono (by decide)
  unfold State.rawOp
  try dsimp only
  repeat' first
    | with_reducible assumption | (intro _; try dsimp only) | with_reducible apply okact
    | with_reducible apply keeps_ite | with_reducible apply State.closeBlock_keeps hP
    | with_reducible apply State.fset_keeps h1 | with_reducible exact keeps_pair (by assumption) (by assumption)
    | (split <;> try dsimp only)

theorem State.setPgs_keeps {P : State → Prop} (hP : Opened [.registers] P) (s : State) (pgs : Nat) (oks : P s) : P
    (State.setPgs s pgs) := by
  unfold State.setPgs
  try dsimp only
  repeat' first
    | with_reducible assumption | (intro _; try dsimp only) | with_reducible apply keeps_ite
    | with_reducible apply State.fset_keeps hP | with_reducible apply keeps_foldl
    | with_reducible exact keeps_pair (by assumption) (by assumption) | (split <;> try dsimp only)

theorem State.dropEnable_keeps {P : State → Prop} (hP : Opened [.registers, .package] P) (s : State) (low : Nat) (oks
    : P s) : P (State.dropEnable s low) := by
  have h1 : Opened [.registers] P := hP.mono (by decide)
  have h2 : Opened [.package] P := hP.mono (by decide)
  unfold State.dropEnable
  try dsimp only
  repeat' first
    | with_reducible assumption | (intro _; try dsimp only) | with_reducible apply keeps_ite
    | with_reducible apply State.fbitSet_keeps h1 | with_reducible apply State.withPkg_keeps h2
    | with_reducible exact keeps_pair (by assumption) (by assumption) | (split <;> try dsimp only)

theorem State.powerDown_keeps {P : State → Prop} (hP : Opened [.registers, .package] P) (s : State) (low : Nat) (oks :
    P s) : P (State.powerDown s low) := by
  have h1 : Opened [.package] P := hP.mono (by decide)
  unfold State.powerDown
  try dsimp only
  repeat' first
    | with_reducible assumption | (intro _; try dsimp only) | with_reducible apply keeps_ite
    | with_reducible apply State.dropEnable_keeps hP | with_reducible apply State.withPkg_keeps h1
    | with_reducible exact keeps_pair (by assumption) (by assumption) | (split <;> try dsimp only)

theorem State.avs_keeps {P : State → Prop} (hP : Opened [.registers, .vectors, .records, .package, .management] P) (s
    : State) (seg sel fails : Nat) (good : State → State) (oks : P s) (okgood : ∀ (t0 : State), P t0 → P (good t0)) :
    P (State.avs s seg sel fails good) := by
  have h1 : Opened [.registers, .vectors] P := hP.mono (by decide)
  have h2 : Opened [.registers] P := hP.mono (by decide)
  have h3 : Opened [.registers, .vectors, .records, .management] P := hP.mono (by decide)
  have h4 : Opened [.package] P := hP.mono (by decide)
  unfold State.avs
  try dsimp only
  repeat' first
    | with_reducible assumption | (intro _; try dsimp only) | with_reducible apply okgood
    | with_reducible apply keeps_ite | with_reducible apply State.evt_keeps h1
    | with_reducible apply State.fbitSet_keeps h2 | with_reducible apply State.fcountN_keeps h2
    | with_reducible apply State.powerRec_keeps h3 | with_reducible apply State.withPkg_keeps h4
    | with_reducible exact keeps_pair (by assumption) (by assumption) | (split <;> try dsimp only)

theorem State.segGood_keeps {P : State → Prop} (hP : Opened [.registers, .package] P) (s : State) (seg : Nat) (oks : P
    s) : P (State.segGood s seg) := by
  have h1 : Opened [.registers] P := hP.mono (by decide)
  have h2 : Opened [.package] P := hP.mono (by decide)
  unfold State.segGood
  try dsimp only
  repeat' first
    | with_reducible assumption | (intro _; try dsimp only) | with_reducible apply keeps_ite
    | with_reducible apply State.fbitSet_keeps h1 | with_reducible apply State.withPkg_keeps h2
    | with_reducible exact keeps_pair (by assumption) (by assumption) | (split <;> try dsimp only)

theorem State.vaonLoss_keeps {P : State → Prop} (hP : Opened [.clock, .draws, .registers, .vectors, .memory,
    .controllers, .answers, .host, .records, .tiles, .parts, .decks, .pages, .thapel, .regulation, .links, .streams,
    .tree, .boot, .power, .package, .management] P) (hr : Restarts P) (s : State) (oks : P s) : P s.vaonLoss := by
  exact hr.2 s oks

theorem State.message_keeps {P : State → Prop} (hP : Opened [.vectors] P) (s : State) (via : Transport) (basic spdm :
    Bool) (f : State → State) (oks : P s) (okf : ∀ (t0 : State), P t0 → P (f t0)) : P (State.message s via basic spdm
    f) := by
  unfold State.message
  try dsimp only
  repeat' first
    | with_reducible assumption | (intro _; try dsimp only) | with_reducible apply okf | with_reducible apply keeps_ite
    | with_reducible apply State.raise1_keeps hP | with_reducible exact keeps_pair (by assumption) (by assumption)
    | (split <;> try dsimp only)

theorem State.refuse2_keeps {P : State → Prop} (hP : Opened [.answers] P) (s : State) (oks : P s) : P (State.refuse2
    s) := by
  unfold State.refuse2
  try dsimp only
  repeat' first
    | with_reducible assumption | (intro _; try dsimp only) | with_reducible apply keeps_ite
    | with_reducible apply State.answer_keeps hP | with_reducible exact keeps_pair (by assumption) (by assumption)
    | (split <;> try dsimp only)

theorem State.compDone_keeps {P : State → Prop} (hP : Opened [.registers, .vectors, .answers, .records, .boot,
    .management] P) (s : State) (comp : Nat) (good : Bool) (version : Nat) (table : List Nat) (oks : P s) : P
    (State.compDone s comp good version table) := by
  have h1 : Opened [.answers] P := hP.mono (by decide)
  have h2 : Opened [.registers, .vectors, .records, .management] P := hP.mono (by decide)
  have h3 : Opened [.boot] P := hP.mono (by decide)
  have h4 : Opened [.management] P := hP.mono (by decide)
  unfold State.compDone
  try dsimp only
  repeat' first
    | with_reducible assumption | (intro _; try dsimp only) | with_reducible apply keeps_ite
    | with_reducible apply State.answer_keeps h1 | with_reducible apply State.mgmtRec_keeps h2
    | with_reducible apply State.withFuses_keeps h3 | with_reducible apply State.withMgmt_keeps h4
    | with_reducible exact keeps_pair (by assumption) (by assumption) | (split <;> try dsimp only)

theorem State.armTime_keeps {P : State → Prop} (hP : Opened [.management] P) (s : State) (secs : Nat) (oks : P s) : P
    (State.armTime s secs) := by
  unfold State.armTime
  try dsimp only
  repeat' first
    | with_reducible assumption | (intro _; try dsimp only) | with_reducible apply keeps_ite
    | with_reducible apply State.withMgmt_keeps hP | with_reducible exact keeps_pair (by assumption) (by assumption)
    | (split <;> try dsimp only)

theorem State.configUe_keeps {P : State → Prop} (hP : Opened [.draws, .registers, .vectors, .memory, .controllers,
    .answers, .records, .tiles, .parts, .decks, .pages, .thapel, .boot, .management] P) (s : State) (h : Nat) (oks : P
    s) : P (State.configUe s h) := by
  have h1 : Opened [.draws] P := hP.mono (by decide)
  have h2 : Opened [.registers, .vectors, .memory, .controllers, .answers, .records, .tiles, .parts, .decks, .pages,
      .thapel, .boot, .management] P := hP.mono (by decide)
  have h3 : Opened [.registers, .vectors, .records, .management] P := hP.mono (by decide)
  have h4 : Opened [.boot] P := hP.mono (by decide)
  unfold State.configUe
  try dsimp only
  repeat' first
    | with_reducible assumption | (intro _; try dsimp only) | with_reducible apply keeps_ite
    | with_reducible apply State.draw_keeps h1 | with_reducible apply State.enterHold_keeps h2
    | with_reducible apply State.record_keeps h3 | with_reducible apply State.withHalted_keeps h4
    | with_reducible exact keeps_pair (by assumption) (by assumption) | (split <;> try dsimp only)

theorem State.configUpset_keeps {P : State → Prop} (hP : Opened [.draws, .registers, .vectors, .memory, .controllers,
    .answers, .records, .tiles, .parts, .decks, .pages, .thapel, .boot, .management] P) (s : State) (src : Nat) (u :
    Upset) (oks : P s) : P (State.configUpset s src u) := by
  have h1 : Opened [.registers, .vectors, .controllers, .records, .management] P := hP.mono (by decide)
  unfold State.configUpset
  try dsimp only
  repeat' first
    | with_reducible assumption | (intro _; try dsimp only) | with_reducible apply keeps_ite
    | with_reducible apply State.configUe_keeps hP | with_reducible apply State.tallyAdd_keeps h1
    | with_reducible exact keeps_pair (by assumption) (by assumption) | (split <;> try dsimp only)

theorem State.meet_keeps {P : State → Prop} (hP : Opened [.draws, .registers, .vectors, .memory, .controllers,
    .answers, .records, .tiles, .parts, .decks, .pages, .thapel, .boot, .management] P) (s : State) (src : Nat) (us :
    List Upset) (oks : P s) : P (State.meet s src us) := by
  have h1 : Opened [.memory] P := hP.mono (by decide)
  unfold State.meet
  try dsimp only
  repeat' first
    | with_reducible assumption | (intro _; try dsimp only) | with_reducible apply keeps_ite
    | with_reducible apply State.configUpset_keeps hP | with_reducible apply State.setDelta_keeps h1
    | with_reducible apply State.upset_keeps h1 | with_reducible apply keeps_foldl
    | with_reducible exact keeps_pair (by assumption) (by assumption) | (split <;> try dsimp only)

theorem State.scrubWord_keeps {P : State → Prop} (hP : Opened [.registers, .vectors, .memory, .controllers, .answers,
    .records, .management] P) (s : State) (w : Nat) (oks : P s) : P (State.scrubWord s w) := by
  have h1 : Opened [.registers, .vectors, .memory, .controllers, .records, .management] P := hP.mono (by decide)
  have h2 : Opened [.registers, .vectors, .records, .management] P := hP.mono (by decide)
  unfold State.scrubWord
  try dsimp only
  repeat' first
    | with_reducible assumption | (intro _; try dsimp only) | with_reducible apply keeps_ite
    | with_reducible apply State.closeBlock_keeps hP | with_reducible apply State.readWord_keeps h1
    | with_reducible apply State.record_keeps h2 | with_reducible exact keeps_pair (by assumption) (by assumption)
    | (split <;> try dsimp only)

theorem State.scrubGranule_keeps {P : State → Prop} (hP : Opened [.registers, .vectors, .records, .management] P) (s :
    State) (k : Nat) (oks : P s) : P (State.scrubGranule s k) := by
  unfold State.scrubGranule
  try dsimp only
  repeat' first
    | with_reducible assumption | (intro _; try dsimp only) | with_reducible apply keeps_ite
    | with_reducible apply State.badRecord_keeps hP | with_reducible exact keeps_pair (by assumption) (by assumption)
    | (split <;> try dsimp only)

theorem State.scrubFrame_keeps {P : State → Prop} (hP : Opened [.registers, .vectors, .memory, .controllers, .answers,
    .records, .thapel, .management] P) {s : State} {pg : Nat} (oks : P s) {t' : State} (e : State.scrubFrame s pg =
    some t') : P t' := by
  have h1 : Opened [.registers, .vectors, .memory, .controllers, .answers, .records, .management] P := hP.mono (by
      decide)
  have h2 : Opened [.thapel] P := hP.mono (by decide)
  unfold State.scrubFrame at e
  try dsimp only at e
  repeat' first
    | with_reducible assumption | (simp at e; done) | (intro _; try dsimp only)
    | (simp only [Option.some.injEq, Prod.mk.injEq] at e) | (obtain ⟨rfl, _⟩ := e) | (obtain rfl := e)
    | (split at e <;> try dsimp only at e) | with_reducible apply keeps_ite | with_reducible apply keeps_foldl
    | with_reducible exact keeps_pair (by assumption) (by assumption) | with_reducible apply State.pin_keeps h1
    | (refine keeps_pair (by assumption) ?_; with_reducible apply State.pin_keeps h1)
    | with_reducible apply State.withStepNo_keeps h2 | with_reducible apply State.withThapWait_keeps h2
    | (split <;> try dsimp only)

theorem State.scrubTo_keeps {P : State → Prop} (hP : Opened [.registers, .controllers] P) (s : State) (h mem : Nat)
    (us : List Nat) (bytes k : Nat) (oks : P s) : P (State.scrubTo s h mem us bytes k) := by
  have h1 : Opened [.registers] P := hP.mono (by decide)
  have h2 : Opened [.controllers] P := hP.mono (by decide)
  unfold State.scrubTo
  try dsimp only
  repeat' first
    | with_reducible assumption | (intro _; try dsimp only) | with_reducible apply keeps_ite
    | with_reducible apply State.fwrap_keeps h1 | with_reducible apply State.withScrub_keeps h2
    | with_reducible exact keeps_pair (by assumption) (by assumption) | (split <;> try dsimp only)

theorem State.scrubChan_keeps {P : State → Prop} (hP : Opened [.registers, .vectors, .memory, .controllers, .answers,
    .records, .thapel, .management] P) {s : State} {c l k : Nat} (oks : P s) {t' : State} {x' : Nat}
    (e : s.scrubChan c l k = some (t', x')) : P t' := by
  have h1 : Opened [.registers, .vectors, .records, .management] P := hP.mono (by decide)
  unfold State.scrubChan at e
  split at e
  · simp only [Option.map_eq_some_iff, Prod.mk.injEq] at e
    obtain ⟨u, hu, rfl, _⟩ := e
    exact State.scrubFrame_keeps hP oks hu
  · split at e
    · simp only [Option.some.injEq, Prod.mk.injEq] at e
      rw [← e.1]
      exact State.scrubGranule_keeps h1 _ _ oks
    · simp at e

theorem State.scrubRead_keeps {P : State → Prop} (hP : Opened [.registers, .vectors, .memory, .controllers, .answers,
    .records, .thapel, .management] P) {s : State} {mem k : Nat} (oks : P s) {t' : State} {x' : Nat}
    (e : s.scrubRead mem k = some (t', x')) : P t' := by
  have h1 : Opened [.registers, .vectors, .memory, .controllers, .answers, .records, .management] P := hP.mono (by
      decide)
  unfold State.scrubRead at e
  by_cases hm : mem < 4
  · rw [if_pos hm] at e
    simp only [Option.some.injEq, Prod.mk.injEq] at e
    rw [← e.1]
    exact State.scrubWord_keeps h1 _ _ oks
  · rw [if_neg hm] at e
    exact State.scrubChan_keeps hP oks e

end Sys2Proof.Machine
end

