-- ==== Sys2Proof/Laws/KeepsCommands.lean ====
section
/-!
SUPPORT. What every command keeps, one lemma a command: a predicate that is open in the areas the command writes.
-/

namespace Sys2Proof.Machine

set_option linter.all false

theorem execMemoryWrite_keeps {P : State → Prop} (hP : Opened [.registers, .vectors, .memory, .controllers, .answers,
    .records, .thapel, .regulation, .management] P) (hq : KeepsQueue P) (rq : Req) (data : List Byte) (poisoned :
    Bool) (s : State) (oks : P s) {t' : State} (e : execMemoryWrite rq data poisoned s = .next t') : P t' := by
  have h1 : Opened [.registers, .vectors, .answers, .thapel] P := hP.mono (by decide)
  have h2 : Opened [.registers, .vectors, .memory, .controllers, .answers, .records, .regulation, .management] P :=
      hP.mono (by decide)
  unfold execMemoryWrite at e
  refine keeps_ok hq e ?_
  clear e
  try dsimp only
  repeat' first
    | with_reducible assumption | (intro _; try dsimp only) | with_reducible apply keeps_ite
    | with_reducible apply State.ingress_keeps h1 | with_reducible apply State.serveWrite_keeps h2
    | with_reducible exact keeps_pair (by assumption) (by assumption) | (split <;> try dsimp only)

theorem execPartialWrite_keeps {P : State → Prop} (hP : Opened [.registers, .vectors, .memory, .controllers, .answers,
    .records, .thapel, .regulation, .management] P) (hq : KeepsQueue P) (rq : Req) (data : List Byte) (poisoned :
    Bool) (s : State) (oks : P s) {t' : State} (e : execPartialWrite rq data poisoned s = .next t') : P t' := by
  have h1 : Opened [.registers, .vectors, .answers, .thapel] P := hP.mono (by decide)
  have h2 : Opened [.registers, .vectors, .memory, .controllers, .answers, .records, .regulation, .management] P :=
      hP.mono (by decide)
  unfold execPartialWrite at e
  refine keeps_ok hq e ?_
  clear e
  try dsimp only
  repeat' first
    | with_reducible assumption | (intro _; try dsimp only) | with_reducible apply keeps_ite
    | with_reducible apply State.ingress_keeps h1 | with_reducible apply State.serveWrite_keeps h2
    | with_reducible exact keeps_pair (by assumption) (by assumption) | (split <;> try dsimp only)

theorem execAdderReduce_keeps {P : State → Prop} (hP : Opened [.registers, .vectors, .memory, .controllers, .answers,
    .records, .thapel, .management] P) (hq : KeepsQueue P) (rq : Req) (op ty : Nat) (data : List Byte) (s : State)
    (oks : P s) {t' : State} (e : execAdderReduce rq op ty data s = .next t') : P t' := by
  have h1 : Opened [.answers] P := hP.mono (by decide)
  have h2 : Opened [.registers, .vectors] P := hP.mono (by decide)
  have h3 : Opened [.registers, .vectors, .answers, .thapel] P := hP.mono (by decide)
  have h4 : Opened [.registers, .vectors, .memory, .controllers, .answers, .records, .management] P := hP.mono (by
      decide)
  unfold execAdderReduce at e
  refine keeps_ok hq e ?_
  clear e
  try dsimp only
  repeat' first
    | with_reducible assumption | (intro _; try dsimp only) | with_reducible apply keeps_ite
    | with_reducible apply State.answer_keeps h1 | with_reducible apply State.evt_keeps h2
    | with_reducible apply State.ingress_keeps h3 | with_reducible apply State.reduceAt_keeps h4
    | with_reducible exact keeps_pair (by assumption) (by assumption)
    | (refine keeps_pair (by assumption) ?_; with_reducible apply State.reduceAt_keeps h4) | (split <;> try dsimp only)

theorem execCorrectedWriteBack_keeps {P : State → Prop} (hP : Opened [.memory] P) (hq : KeepsQueue P) (key : Nat) (s :
    State) (oks : P s) {t' : State} (e : execCorrectedWriteBack key s = .next t') : P t' := by
  unfold execCorrectedWriteBack at e
  refine keeps_ok hq e ?_
  clear e
  try dsimp only
  repeat' first
    | with_reducible assumption | (intro _; try dsimp only) | with_reducible apply keeps_ite
    | with_reducible apply State.storeClean_keeps hP | with_reducible apply State.withWbq_keeps hP
    | with_reducible exact keeps_pair (by assumption) (by assumption) | (split <;> try dsimp only)

theorem execMergeEntryTimeout_keeps {P : State → Prop} (hP : Opened [.registers, .vectors, .memory, .controllers,
    .answers, .records, .management] P) (hq : KeepsQueue P) (hub : Nat) (s : State) (oks : P s) {t' : State} (e :
    execMergeEntryTimeout hub s = .next t') : P t' := by
  unfold execMergeEntryTimeout at e
  refine keeps_ok hq e ?_
  clear e
  try dsimp only
  repeat' first
    | with_reducible assumption | (intro _; try dsimp only) | with_reducible apply keeps_ite
    | with_reducible apply State.closeBlock_keeps hP | with_reducible exact keeps_pair (by assumption) (by assumption)
    | (split <;> try dsimp only)

theorem execTallyLeak_keeps {P : State → Prop} (hP : Opened [.registers, .controllers] P) (hq : KeepsQueue P) (hub cls
    : Nat) (s : State) (oks : P s) {t' : State} (e : execTallyLeak hub cls s = .next t') : P t' := by
  have h1 : Opened [.registers] P := hP.mono (by decide)
  have h2 : Opened [.controllers] P := hP.mono (by decide)
  unfold execTallyLeak at e
  refine keeps_ok hq e ?_
  clear e
  try dsimp only
  repeat' first
    | with_reducible assumption | (intro _; try dsimp only) | with_reducible apply keeps_ite
    | with_reducible apply State.fsetAt_keeps h1 | with_reducible apply State.ticked_keeps h2
    | with_reducible exact keeps_pair (by assumption) (by assumption) | (split <;> try dsimp only)

theorem execHostWindowRequest_keeps {P : State → Prop} (hP : Opened [.registers, .vectors, .memory, .controllers,
    .answers, .host, .records, .management] P) (hq : KeepsQueue P) (rq : Req) (write : Bool) (data : List Byte) (s :
    State) (oks : P s) {t' : State} (e : execHostWindowRequest rq write data s = .next t') : P t' := by
  have h1 : Opened [.answers] P := hP.mono (by decide)
  have h2 : Opened [.registers, .vectors] P := hP.mono (by decide)
  have h3 : Opened [.registers, .answers] P := hP.mono (by decide)
  have h4 : Opened [.registers, .vectors, .memory, .controllers, .records, .management] P := hP.mono (by decide)
  have h5 : Opened [.host] P := hP.mono (by decide)
  unfold execHostWindowRequest at e
  refine keeps_ok hq e ?_
  clear e
  try dsimp only
  repeat' first
    | with_reducible assumption | (intro _; try dsimp only) | with_reducible apply keeps_ite
    | with_reducible apply State.answer_keeps h1 | with_reducible apply State.refusal_keeps h2
    | with_reducible apply State.refuseAnswer_keeps h3 | with_reducible apply State.store_keeps h4
    | with_reducible apply State.withHostReads_keeps h5 | with_reducible apply State.withHostTag_keeps h5
    | with_reducible exact keeps_pair (by assumption) (by assumption) | (split <;> try dsimp only)

theorem execHostCompletion_keeps {P : State → Prop} (hP : Opened [.registers, .vectors, .memory, .controllers,
    .answers, .host, .records, .management] P) (hq : KeepsQueue P) (port tag status : Nat) (data : List Byte) (s :
    State) (oks : P s) {t' : State} (e : execHostCompletion port tag status data s = .next t') : P t' := by
  have h1 : Opened [.answers] P := hP.mono (by decide)
  have h2 : Opened [.registers, .vectors, .memory, .answers, .host, .records, .management] P := hP.mono (by decide)
  have h3 : Opened [.registers, .vectors, .memory, .controllers, .records, .management] P := hP.mono (by decide)
  have h4 : Opened [.host] P := hP.mono (by decide)
  unfold execHostCompletion at e
  refine keeps_ok hq e ?_
  clear e
  try dsimp only
  repeat' first
    | with_reducible assumption | (intro _; try dsimp only) | with_reducible apply keeps_ite
    | with_reducible apply State.answer_keeps h1 | with_reducible apply State.hostPoison_keeps h2
    | with_reducible apply State.store_keeps h3 | with_reducible apply State.withHostReads_keeps h4
    | with_reducible exact keeps_pair (by assumption) (by assumption) | (split <;> try dsimp only)

theorem execHostCompletionTimeout_keeps {P : State → Prop} (hP : Opened [.registers, .vectors, .memory, .answers,
    .host, .records, .management] P) (hq : KeepsQueue P) (port tag : Nat) (s : State) (oks : P s) {t' : State} (e :
    execHostCompletionTimeout port tag s = .next t') : P t' := by
  unfold execHostCompletionTimeout at e
  refine keeps_ok hq e ?_
  clear e
  try dsimp only
  repeat' first
    | with_reducible assumption | (intro _; try dsimp only) | with_reducible apply keeps_ite
    | with_reducible apply State.hostPoison_keeps hP | with_reducible exact keeps_pair (by assumption) (by assumption)
    | (split <;> try dsimp only)

theorem execLedgerPin_keeps {P : State → Prop} (hP : Opened [.registers, .vectors, .memory, .controllers, .answers,
    .records, .pages, .management] P) (hq : KeepsQueue P) (page thread : Nat) (s : State) (oks : P s) {t' : State} (e
    : execLedgerPin page thread s = .next t') : P t' := by
  have h1 : Opened [.answers] P := hP.mono (by decide)
  have h2 : Opened [.registers, .vectors, .memory, .controllers, .answers, .records, .management] P := hP.mono (by
      decide)
  have h3 : Opened [.pages] P := hP.mono (by decide)
  unfold execLedgerPin at e
  refine keeps_ok hq e ?_
  clear e
  try dsimp only
  repeat' first
    | with_reducible assumption | (intro _; try dsimp only) | with_reducible apply keeps_ite
    | with_reducible apply State.answer_keeps h1 | with_reducible apply State.pin_keeps h2
    | with_reducible apply State.withPinHeld_keeps h3 | with_reducible exact keeps_pair (by assumption) (by assumption)
    | (refine keeps_pair (by assumption) ?_; with_reducible apply State.pin_keeps h2) | (split <;> try dsimp only)

theorem execLedgerUnpin_keeps {P : State → Prop} (hP : Opened [.registers, .vectors, .memory, .controllers, .answers,
    .records, .pages, .management] P) (hq : KeepsQueue P) (page : Nat) (s : State) (oks : P s) {t' : State} (e :
    execLedgerUnpin page s = .next t') : P t' := by
  unfold execLedgerUnpin at e
  refine keeps_ok hq e ?_
  clear e
  try dsimp only
  repeat' first
    | with_reducible assumption | (intro _; try dsimp only) | with_reducible apply keeps_ite
    | with_reducible apply State.unpin_keeps hP | with_reducible exact keeps_pair (by assumption) (by assumption)
    | (split <;> try dsimp only)

theorem execLedgerRef_keeps {P : State → Prop} (hP : Opened [.registers, .vectors, .memory, .controllers, .answers,
    .records, .management] P) (hq : KeepsQueue P) (page : Nat) (s : State) (oks : P s) {t' : State} (e : execLedgerRef
    page s = .next t') : P t' := by
  have h1 : Opened [.answers] P := hP.mono (by decide)
  unfold execLedgerRef at e
  refine keeps_ok hq e ?_
  clear e
  try dsimp only
  repeat' first
    | with_reducible assumption | (intro _; try dsimp only) | with_reducible apply keeps_ite
    | with_reducible apply State.answer_keeps h1 | with_reducible apply State.ref_keeps hP
    | with_reducible exact keeps_pair (by assumption) (by assumption)
    | (refine keeps_pair (by assumption) ?_; with_reducible apply State.ref_keeps hP) | (split <;> try dsimp only)

theorem execLedgerUnref_keeps {P : State → Prop} (hP : Opened [.registers, .vectors, .memory, .controllers, .answers,
    .records, .pages, .management] P) (hq : KeepsQueue P) (page : Nat) (s : State) (oks : P s) {t' : State} (e :
    execLedgerUnref page s = .next t') : P t' := by
  unfold execLedgerUnref at e
  refine keeps_ok hq e ?_
  clear e
  try dsimp only
  repeat' first
    | with_reducible assumption | (intro _; try dsimp only) | with_reducible apply keeps_ite
    | with_reducible apply State.unref_keeps hP | with_reducible exact keeps_pair (by assumption) (by assumption)
    | (split <;> try dsimp only)

theorem execTileThrottleWrite_keeps {P : State → Prop} (hP : Opened [.registers] P) (hq : KeepsQueue P) (who :
    Accessor) (tile v : Nat) (s : State) (oks : P s) {t' : State} (e : execTileThrottleWrite who tile v s = .next t')
    : P t' := by
  unfold execTileThrottleWrite at e
  refine keeps_ok hq e ?_
  clear e
  try dsimp only
  repeat' first
    | with_reducible assumption | (intro _; try dsimp only) | with_reducible apply keeps_ite
    | with_reducible apply State.fset_keeps hP | with_reducible exact keeps_pair (by assumption) (by assumption)
    | (split <;> try dsimp only)

theorem execThrottleTakeEffect_keeps {P : State → Prop} (hP : Opened [.registers] P) (hq : KeepsQueue P) (tile : Nat)
    (s : State) (oks : P s) {t' : State} (e : execThrottleTakeEffect tile s = .next t') : P t' := by
  unfold execThrottleTakeEffect at e
  refine keeps_ok hq e ?_
  clear e
  try dsimp only
  repeat' first
    | with_reducible assumption | (intro _; try dsimp only) | with_reducible apply keeps_ite
    | with_reducible apply State.fset_keeps hP | with_reducible exact keeps_pair (by assumption) (by assumption)
    | (split <;> try dsimp only)

theorem execRampStep_keeps {P : State → Prop} (hP : Opened [.registers, .tiles] P) (hq : KeepsQueue P) (tile array :
    Nat) (s : State) (oks : P s) {t' : State} (e : execRampStep tile array s = .next t') : P t' := by
  have h1 : Opened [.tiles] P := hP.mono (by decide)
  have h2 : Opened [.registers] P := hP.mono (by decide)
  unfold execRampStep at e
  refine keeps_ok hq e ?_
  clear e
  try dsimp only
  repeat' first
    | with_reducible assumption | (intro _; try dsimp only) | with_reducible apply keeps_ite
    | with_reducible apply State.onArr_keeps h1 | with_reducible apply State.setArr_keeps h2
    | with_reducible exact keeps_pair (by assumption) (by assumption) | (split <;> try dsimp only)

theorem execShadowLoadDone_keeps {P : State → Prop} (hP : Opened [.tiles] P) (hq : KeepsQueue P) (tile array : Nat) (s
    : State) (oks : P s) {t' : State} (e : execShadowLoadDone tile array s = .next t') : P t' := by
  unfold execShadowLoadDone at e
  refine keeps_ok hq e ?_
  clear e
  try dsimp only
  repeat' first
    | with_reducible assumption | (intro _; try dsimp only) | with_reducible apply keeps_ite
    | with_reducible apply State.onArr_keeps hP | with_reducible exact keeps_pair (by assumption) (by assumption)
    | (split <;> try dsimp only)

theorem execArrayConfigChange_keeps {P : State → Prop} (hP : Opened [.registers] P) (hq : KeepsQueue P) (tile : Nat)
    (s : State) (oks : P s) {t' : State} (e : execArrayConfigChange tile s = .next t') : P t' := by
  unfold execArrayConfigChange at e
  refine keeps_ok hq e ?_
  clear e
  try dsimp only
  repeat' first
    | with_reducible assumption | (intro _; try dsimp only) | with_reducible apply keeps_ite
    | with_reducible apply State.fset_keeps hP | with_reducible exact keeps_pair (by assumption) (by assumption)
    | (split <;> try dsimp only)

theorem execPassCommit_keeps {P : State → Prop} (hP : Opened [.registers, .vectors, .memory, .controllers, .records,
    .tiles, .parts, .management] P) (hq : KeepsQueue P) (tile array : Nat) (s : State) (oks : P s) {t' : State} (e :
    execPassCommit tile array s = .next t') : P t' := by
  have h1 : Opened [.registers, .vectors, .memory, .controllers, .records, .management] P := hP.mono (by decide)
  have h2 : Opened [.registers, .tiles, .parts] P := hP.mono (by decide)
  unfold execPassCommit at e
  refine keeps_ok hq e ?_
  clear e
  try dsimp only
  repeat' first
    | with_reducible assumption | (intro _; try dsimp only) | with_reducible apply keeps_ite
    | with_reducible apply State.boundary_keeps hP | with_reducible apply State.commitSet_keeps h1
    | with_reducible apply State.endJob_keeps h2 | with_reducible apply State.nextPass_keeps hP
    | with_reducible exact keeps_pair (by assumption) (by assumption)
    | (refine keeps_pair (by assumption) ?_; with_reducible apply State.commitSet_keeps h1)
    | (split <;> try dsimp only)

theorem execPassFault_keeps {P : State → Prop} (hP : Opened [.registers, .vectors, .memory, .controllers, .records,
    .tiles, .parts, .management] P) (hq : KeepsQueue P) (tile array : Nat) (poisoned : Bool) (s : State) (oks : P s)
    {t' : State} (e : execPassFault tile array poisoned s = .next t') : P t' := by
  unfold execPassFault at e
  refine keeps_ok hq e ?_
  clear e
  try dsimp only
  repeat' first
    | with_reducible assumption | (intro _; try dsimp only) | with_reducible apply keeps_ite
    | with_reducible apply State.passFault_keeps hP | with_reducible exact keeps_pair (by assumption) (by assumption)
    | (split <;> try dsimp only)

theorem execPreemptRequest_keeps {P : State → Prop} (hP : Opened [.registers, .vectors, .memory, .controllers,
    .records, .tiles, .management] P) (hq : KeepsQueue P) (tile : Nat) (urgent : Bool) (s : State) (oks : P s) {t' :
    State} (e : execPreemptRequest tile urgent s = .next t') : P t' := by
  have h1 : Opened [.registers, .tiles] P := hP.mono (by decide)
  have h2 : Opened [.tiles] P := hP.mono (by decide)
  have h3 : Opened [.registers, .vectors, .memory, .controllers, .records, .management] P := hP.mono (by decide)
  unfold execPreemptRequest at e
  refine keeps_ok hq e ?_
  clear e
  try dsimp only
  repeat' first
    | with_reducible assumption | (intro _; try dsimp only) | with_reducible apply keeps_ite
    | with_reducible apply State.askJobs_keeps h1 | with_reducible apply State.onTile_keeps h2
    | with_reducible apply State.saveContext_keeps h3 | with_reducible exact keeps_pair (by assumption) (by assumption)
    | (split <;> try dsimp only)

theorem execPreemptBoundary_keeps {P : State → Prop} (hP : Opened [.registers, .vectors, .memory, .controllers,
    .records, .tiles, .parts, .management] P) (hq : KeepsQueue P) (tile array : Nat) (s : State) (oks : P s) {t' :
    State} (e : execPreemptBoundary tile array s = .next t') : P t' := by
  unfold execPreemptBoundary at e
  refine keeps_ok hq e ?_
  clear e
  try dsimp only
  repeat' first
    | with_reducible assumption | (intro _; try dsimp only) | with_reducible apply keeps_ite
    | with_reducible apply State.boundary_keeps hP | with_reducible exact keeps_pair (by assumption) (by assumption)
    | (split <;> try dsimp only)

theorem execPreemptDeadline_keeps {P : State → Prop} (hP : Opened [.registers, .tiles] P) (hq : KeepsQueue P) (tile
    array : Nat) (s : State) (oks : P s) {t' : State} (e : execPreemptDeadline tile array s = .next t') : P t' := by
  have h1 : Opened [.registers] P := hP.mono (by decide)
  unfold execPreemptDeadline at e
  refine keeps_ok hq e ?_
  clear e
  try dsimp only
  repeat' first
    | with_reducible assumption | (intro _; try dsimp only) | with_reducible apply keeps_ite
    | with_reducible apply State.arrEvent_keeps h1 | with_reducible apply State.cutJob_keeps hP
    | with_reducible exact keeps_pair (by assumption) (by assumption) | (split <;> try dsimp only)

theorem execUrgentSaveDone_keeps {P : State → Prop} (hP : Opened [.registers, .vectors, .memory, .controllers,
    .records, .tiles, .parts, .management] P) (hq : KeepsQueue P) (tile array : Nat) (fault poisoned : Bool) (s : State)
    (oks : P s) {t' : State} (e : execUrgentSaveDone tile array fault poisoned s = .next t') : P t' := by
  have h1 : Opened [.registers] P := hP.mono (by decide)
  have h2 : Opened [.registers, .tiles, .parts] P := hP.mono (by decide)
  have h3 : Opened [.registers, .vectors, .memory, .controllers, .records, .tiles, .management] P := hP.mono (by
      decide)
  have h4 : Opened [.registers, .vectors, .memory, .controllers, .records, .management] P := hP.mono (by decide)
  unfold execUrgentSaveDone at e
  refine keeps_ok hq e ?_
  clear e
  try dsimp only
  repeat' first
    | with_reducible assumption | (intro _; try dsimp only) | with_reducible apply keeps_ite
    | with_reducible apply State.arrEvent_keeps h1 | with_reducible apply State.arrayFault_keeps h2
    | with_reducible apply State.fcountN_keeps h1 | with_reducible apply State.parkJob_keeps h3
    | with_reducible apply State.saveContext_keeps h4 | with_reducible exact keeps_pair (by assumption) (by assumption)
    | (split <;> try dsimp only)

theorem execMatmulStream_keeps {P : State → Prop} (hP : Opened [.registers, .vectors, .memory, .controllers, .records,
    .tiles, .parts, .management] P) (hq : KeepsQueue P) (tile thread : Nat) (s : State) (oks : P s) {t' : State} (e :
    execMatmulStream tile thread s = .next t') : P t' := by
  have h1 : Opened [.tiles] P := hP.mono (by decide)
  unfold execMatmulStream at e
  refine keeps_ok hq e ?_
  clear e
  try dsimp only
  repeat' first
    | with_reducible assumption | (intro _; try dsimp only) | with_reducible apply keeps_ite
    | with_reducible apply State.issued_keeps h1 | with_reducible apply State.startJob_keeps hP
    | with_reducible apply State.withArrays_keeps h1 | with_reducible exact keeps_pair (by assumption) (by assumption)
    | (split <;> try dsimp only)

theorem execMatmulStationary_keeps {P : State → Prop} (hP : Opened [.registers, .vectors, .memory, .controllers,
    .records, .tiles, .parts, .management] P) (hq : KeepsQueue P) (tile thread : Nat) (s : State) (oks : P s) {t' :
    State} (e : execMatmulStationary tile thread s = .next t') : P t' := by
  have h1 : Opened [.tiles] P := hP.mono (by decide)
  unfold execMatmulStationary at e
  refine keeps_ok hq e ?_
  clear e
  try dsimp only
  repeat' first
    | with_reducible assumption | (intro _; try dsimp only) | with_reducible apply keeps_ite
    | with_reducible apply State.issued_keeps h1 | with_reducible apply State.startJob_keeps hP
    | with_reducible apply State.withArrays_keeps h1 | with_reducible exact keeps_pair (by assumption) (by assumption)
    | (split <;> try dsimp only)

theorem execNorm_keeps {P : State → Prop} (hP : Opened [.registers, .vectors, .memory, .controllers, .answers,
    .records, .tiles, .parts, .pages, .thapel, .management] P) (hq : KeepsQueue P) (tile : Nat) (start : VecStart)
    (s : State) (oks : P s) {t' : State} (e : execNorm tile start s = .next t') : P t' := by
  have h1 : Opened [.registers, .vectors, .memory, .controllers, .records, .tiles, .parts, .management] P := hP.mono
      (by decide)
  unfold execNorm at e
  refine keeps_ok hq e ?_
  clear e
  try dsimp only
  repeat' first
    | with_reducible assumption | (intro _; try dsimp only) | with_reducible apply keeps_ite
    | with_reducible apply State.normOp_keeps h1 | with_reducible apply State.startVec_keeps hP
    | with_reducible exact keeps_pair (by assumption) (by assumption) | (split <;> try dsimp only)

theorem execRope_keeps {P : State → Prop} (hP : Opened [.registers, .vectors, .memory, .controllers, .answers,
    .records, .tiles, .parts, .pages, .thapel, .management] P) (hq : KeepsQueue P) (tile : Nat) (start : VecStart)
    (s : State) (oks : P s) {t' : State} (e : execRope tile start s = .next t') : P t' := by
  have h1 : Opened [.registers, .vectors, .memory, .controllers, .records, .tiles, .parts, .management] P := hP.mono
      (by decide)
  unfold execRope at e
  refine keeps_ok hq e ?_
  clear e
  try dsimp only
  repeat' first
    | with_reducible assumption | (intro _; try dsimp only) | with_reducible apply keeps_ite
    | with_reducible apply State.ropeOp_keeps h1 | with_reducible apply State.startVec_keeps hP
    | with_reducible exact keeps_pair (by assumption) (by assumption) | (split <;> try dsimp only)

theorem execAct_keeps {P : State → Prop} (hP : Opened [.registers, .vectors, .memory, .controllers, .answers,
    .records, .tiles, .parts, .pages, .thapel, .management] P) (hq : KeepsQueue P) (tile : Nat) (start : VecStart)
    (s : State) (oks : P s) {t' : State} (e : execAct tile start s = .next t') : P t' := by
  have h1 : Opened [.registers, .vectors, .memory, .controllers, .records, .tiles, .parts, .management] P := hP.mono
      (by decide)
  unfold execAct at e
  refine keeps_ok hq e ?_
  clear e
  try dsimp only
  repeat' first
    | with_reducible assumption | (intro _; try dsimp only) | with_reducible apply keeps_ite
    | with_reducible apply State.actOp_keeps h1 | with_reducible apply State.startVec_keeps hP
    | with_reducible exact keeps_pair (by assumption) (by assumption) | (split <;> try dsimp only)

theorem execRoute_keeps {P : State → Prop} (hP : Opened [.registers, .vectors, .memory, .controllers, .answers,
    .records, .tiles, .parts, .pages, .thapel, .management] P) (hq : KeepsQueue P) (tile : Nat) (start : VecStart)
    (s : State) (oks : P s) {t' : State} (e : execRoute tile start s = .next t') : P t' := by
  have h1 : Opened [.registers, .vectors, .memory, .controllers, .records, .tiles, .parts, .management] P := hP.mono
      (by decide)
  unfold execRoute at e
  refine keeps_ok hq e ?_
  clear e
  try dsimp only
  repeat' first
    | with_reducible assumption | (intro _; try dsimp only) | with_reducible apply keeps_ite
    | with_reducible apply State.routeOp_keeps h1 | with_reducible apply State.startVec_keeps hP
    | with_reducible exact keeps_pair (by assumption) (by assumption) | (split <;> try dsimp only)

theorem execSample_keeps {P : State → Prop} (hP : Opened [.registers, .vectors, .memory, .controllers, .answers,
    .records, .tiles, .parts, .decks, .pages, .thapel, .management] P) (hq : KeepsQueue P) (tile : Nat) (start : VecStart) (s : State) (oks : P s) {t' : State} (e : execSample tile start s = .next t') : P t' := by
  have h1 : Opened [.registers, .vectors, .memory, .controllers, .records, .tiles, .parts, .decks, .management] P :=
      hP.mono (by decide)
  have h2 : Opened [.registers, .vectors, .memory, .controllers, .answers, .records, .tiles, .parts, .pages, .thapel,
      .management] P := hP.mono (by decide)
  unfold execSample at e
  refine keeps_ok hq e ?_
  clear e
  try dsimp only
  repeat' first
    | with_reducible assumption | (intro _; try dsimp only) | with_reducible apply keeps_ite
    | with_reducible apply State.sampleOp_keeps h1 | with_reducible apply State.startVec_keeps h2
    | with_reducible exact keeps_pair (by assumption) (by assumption) | (split <;> try dsimp only)

theorem execEmbed_keeps {P : State → Prop} (hP : Opened [.draws, .registers, .vectors, .memory, .controllers,
    .answers, .records, .tiles, .parts, .pages, .thapel, .regulation, .management] P) (hq : KeepsQueue P) (tile : Nat) (start : VecStart) (s : State) (oks : P s) {t' : State} (e : execEmbed tile start s = .next t') : P t'
    := by
  have h1 : Opened [.registers, .vectors, .memory, .controllers, .answers, .records, .tiles, .parts, .pages, .thapel,
      .management] P := hP.mono (by decide)
  unfold execEmbed at e
  refine keeps_ok hq e ?_
  clear e
  try dsimp only
  repeat' first
    | with_reducible assumption | (intro _; try dsimp only) | with_reducible apply keeps_ite
    | with_reducible apply State.embedOp_keeps hP | with_reducible apply State.startVec_keeps h1
    | with_reducible exact keeps_pair (by assumption) (by assumption) | (split <;> try dsimp only)

theorem execReduce_keeps {P : State → Prop} (hP : Opened [.draws, .registers, .vectors, .memory, .controllers,
    .answers, .records, .tiles, .parts, .pages, .thapel, .regulation, .management] P) (hq : KeepsQueue P) (tile : Nat) (start : VecStart) (s : State) (oks : P s) {t' : State} (e : execReduce tile start s = .next t') : P
    t' := by
  have h1 : Opened [.registers, .vectors, .memory, .controllers, .answers, .records, .tiles, .parts, .pages, .thapel,
      .management] P := hP.mono (by decide)
  unfold execReduce at e
  refine keeps_ok hq e ?_
  clear e
  try dsimp only
  repeat' first
    | with_reducible assumption | (intro _; try dsimp only) | with_reducible apply keeps_ite
    | with_reducible apply State.reduceOp_keeps hP | with_reducible apply State.startVec_keeps h1
    | with_reducible exact keeps_pair (by assumption) (by assumption) | (split <;> try dsimp only)

theorem execYarderTimeout_keeps {P : State → Prop} (hP : Opened [.registers, .vectors, .memory, .controllers,
    .answers, .records, .tiles, .parts, .pages, .thapel, .management] P) (hq : KeepsQueue P) (tile tag : Nat) (s :
    State) (oks : P s) {t' : State} (e : execYarderTimeout tile tag s = .next t') : P t' := by
  unfold execYarderTimeout at e
  refine keeps_ok hq e ?_
  clear e
  try dsimp only
  repeat' first
    | with_reducible assumption | (intro _; try dsimp only) | with_reducible apply keeps_ite
    | with_reducible apply State.tagTimeout_keeps hP | with_reducible exact keeps_pair (by assumption) (by assumption)
    | (split <;> try dsimp only)

theorem execTagQuarantineEnd_keeps {P : State → Prop} (hP : Opened [.draws, .registers, .vectors, .memory,
    .controllers, .answers, .records, .tiles, .parts, .pages, .thapel, .regulation, .management] P) (hq : KeepsQueue
    P) (tile tag : Nat) (s : State) (oks : P s) {t' : State} (e : execTagQuarantineEnd tile tag s = .next t') : P t'
    := by
  have h1 : Opened [.tiles] P := hP.mono (by decide)
  unfold execTagQuarantineEnd at e
  refine keeps_ok hq e ?_
  clear e
  try dsimp only
  repeat' first
    | with_reducible assumption | (intro _; try dsimp only) | with_reducible apply keeps_ite
    | with_reducible apply State.issueAll_keeps hP | with_reducible apply State.onTag_keeps h1
    | with_reducible exact keeps_pair (by assumption) (by assumption) | (split <;> try dsimp only)

theorem execCopyRows_keeps {P : State → Prop} (hP : Opened [.draws, .registers, .vectors, .memory, .controllers,
    .answers, .records, .tiles, .parts, .pages, .thapel, .regulation, .management] P) (hq : KeepsQueue P) (tile thread
    : Nat) (s : State) (oks : P s) {t' : State} (e : execCopyRows tile thread s = .next t') : P t' := by
  have h1 : Opened [.tiles] P := hP.mono (by decide)
  unfold execCopyRows at e
  refine keeps_ok hq e ?_
  clear e
  try dsimp only
  repeat' first
    | with_reducible assumption | (intro _; try dsimp only) | with_reducible apply keeps_ite
    | with_reducible apply State.copyOp_keeps hP | with_reducible apply State.issueAll_keeps hP
    | with_reducible apply State.issued_keeps h1 | with_reducible exact keeps_pair (by assumption) (by assumption)
    | (split <;> try dsimp only)

theorem execDispatch_keeps {P : State → Prop} (hP : Opened [.draws, .registers, .vectors, .memory, .controllers,
    .answers, .records, .tiles, .parts, .pages, .thapel, .regulation, .management] P) (hq : KeepsQueue P) (tile thread
    : Nat) (s : State) (oks : P s) {t' : State} (e : execDispatch tile thread s = .next t') : P t' := by
  have h1 : Opened [.tiles] P := hP.mono (by decide)
  unfold execDispatch at e
  refine keeps_ok hq e ?_
  clear e
  try dsimp only
  repeat' first
    | with_reducible assumption | (intro _; try dsimp only) | with_reducible apply keeps_ite
    | with_reducible apply State.dispatchOp_keeps hP | with_reducible apply State.startAs_keeps h1
    | with_reducible exact keeps_pair (by assumption) (by assumption) | (split <;> try dsimp only)

theorem execCombine_keeps {P : State → Prop} (hP : Opened [.draws, .registers, .vectors, .memory, .controllers,
    .answers, .records, .tiles, .parts, .pages, .thapel, .regulation, .management] P) (hq : KeepsQueue P) (tile : Nat) (start : VecStart) (s : State) (oks : P s) {t' : State} (e : execCombine tile start s = .next t') : P
    t' := by
  have h1 : Opened [.registers, .vectors, .memory, .controllers, .answers, .records, .tiles, .parts, .pages, .thapel,
      .management] P := hP.mono (by decide)
  unfold execCombine at e
  refine keeps_ok hq e ?_
  clear e
  try dsimp only
  repeat' first
    | with_reducible assumption | (intro _; try dsimp only) | with_reducible apply keeps_ite
    | with_reducible apply State.combineOp_keeps hP | with_reducible apply State.startVec_keeps h1
    | with_reducible exact keeps_pair (by assumption) (by assumption) | (split <;> try dsimp only)

theorem execKvAppend_keeps {P : State → Prop} (hP : Opened [.draws, .registers, .vectors, .memory, .controllers,
    .answers, .records, .tiles, .parts, .pages, .thapel, .regulation, .management] P) (hq : KeepsQueue P) (tile thread
    : Nat) (s : State) (oks : P s) {t' : State} (e : execKvAppend tile thread s = .next t') : P t' := by
  have h1 : Opened [.tiles] P := hP.mono (by decide)
  unfold execKvAppend at e
  refine keeps_ok hq e ?_
  clear e
  try dsimp only
  repeat' first
    | with_reducible assumption | (intro _; try dsimp only) | with_reducible apply keeps_ite
    | with_reducible apply State.appendOp_keeps hP | with_reducible apply State.startAs_keeps h1
    | with_reducible exact keeps_pair (by assumption) (by assumption) | (split <;> try dsimp only)

theorem execWaitOp_keeps {P : State → Prop} (hP : Opened [.registers, .vectors, .records, .tiles, .parts, .management]
    P) (hq : KeepsQueue P) (tile thread : Nat) (s : State) (oks : P s) {t' : State} (e : execWaitOp tile thread s =
    .next t') : P t' := by
  have h1 : Opened [.tiles] P := hP.mono (by decide)
  have h2 : Opened [.registers, .tiles, .parts] P := hP.mono (by decide)
  unfold execWaitOp at e
  refine keeps_ok hq e ?_
  clear e
  try dsimp only
  repeat' first
    | with_reducible assumption | (intro _; try dsimp only) | with_reducible apply keeps_ite
    | with_reducible apply State.ifSems_keeps hP | with_reducible apply State.onThr_keeps h1
    | with_reducible apply State.opDone_keeps h2 | with_reducible apply State.startAs_keeps h1
    | with_reducible exact keeps_pair (by assumption) (by assumption) | (split <;> try dsimp only)

theorem execWaitSatisfied_keeps {P : State → Prop} (hP : Opened [.registers, .vectors, .records, .tiles, .parts,
    .management] P) (hq : KeepsQueue P) (tile thread : Nat) (s : State) (oks : P s) {t' : State} (e :
    execWaitSatisfied tile thread s = .next t') : P t' := by
  have h1 : Opened [.registers, .tiles, .parts] P := hP.mono (by decide)
  unfold execWaitSatisfied at e
  refine keeps_ok hq e ?_
  clear e
  try dsimp only
  repeat' first
    | with_reducible assumption | (intro _; try dsimp only) | with_reducible apply keeps_ite
    | with_reducible apply State.ifSems_keeps hP | with_reducible apply State.opDone_keeps h1
    | with_reducible exact keeps_pair (by assumption) (by assumption) | (split <;> try dsimp only)

theorem execWaitLimit_keeps {P : State → Prop} (hP : Opened [.registers, .vectors, .records, .tiles, .parts,
    .management] P) (hq : KeepsQueue P) (tile thread : Nat) (s : State) (oks : P s) {t' : State} (e : execWaitLimit
    tile thread s = .next t') : P t' := by
  have h1 : Opened [.registers, .tiles, .parts] P := hP.mono (by decide)
  unfold execWaitLimit at e
  refine keeps_ok hq e ?_
  clear e
  try dsimp only
  repeat' first
    | with_reducible assumption | (intro _; try dsimp only) | with_reducible apply keeps_ite
    | with_reducible apply State.ifSems_keeps hP | with_reducible apply State.opFault_keeps h1
    | with_reducible exact keeps_pair (by assumption) (by assumption) | (split <;> try dsimp only)

theorem execSignalOp_keeps {P : State → Prop} (hP : Opened [.registers, .vectors, .records, .tiles, .parts,
    .management] P) (hq : KeepsQueue P) (tile thread : Nat) (s : State) (oks : P s) {t' : State} (e : execSignalOp
    tile thread s = .next t') : P t' := by
  have h1 : Opened [.registers, .tiles, .parts] P := hP.mono (by decide)
  have h2 : Opened [.tiles] P := hP.mono (by decide)
  unfold execSignalOp at e
  refine keeps_ok hq e ?_
  clear e
  try dsimp only
  repeat' first
    | with_reducible assumption | (intro _; try dsimp only) | with_reducible apply keeps_ite
    | with_reducible apply State.ifSems_keeps hP | with_reducible apply State.opDone_keeps h1
    | with_reducible apply State.semAdd_keeps h1 | with_reducible apply State.startAs_keeps h2
    | with_reducible exact keeps_pair (by assumption) (by assumption) | (split <;> try dsimp only)

theorem execRunAheadRead_keeps {P : State → Prop} (hP : Opened [.draws, .registers, .vectors, .memory, .controllers,
    .answers, .records, .thapel, .regulation, .management] P) (hq : KeepsQueue P) (tile addr : Nat) (faulty : Bool) (s
    : State) (oks : P s) {t' : State} (e : execRunAheadRead tile addr faulty s = .next t') : P t' := by
  have h1 : Opened [.thapel] P := hP.mono (by decide)
  have h2 : Opened [.draws, .registers, .vectors, .memory, .controllers, .answers, .records, .regulation, .management]
      P := hP.mono (by decide)
  have h3 : Opened [.registers, .answers] P := hP.mono (by decide)
  unfold execRunAheadRead at e
  refine keeps_ok hq e ?_
  clear e
  try dsimp only
  repeat' first
    | with_reducible assumption | (intro _; try dsimp only) | with_reducible apply keeps_ite
    | with_reducible apply State.holdAt_keeps h1 | with_reducible apply State.serveRead_keeps h2
    | with_reducible apply State.suppress_keeps h3 | with_reducible exact keeps_pair (by assumption) (by assumption)
    | (split <;> try dsimp only)

theorem execAttendPrefill_keeps {P : State → Prop} (hP : Opened [.draws, .registers, .vectors, .memory, .controllers,
    .answers, .records, .tiles, .parts, .pages, .thapel, .regulation, .management] P) (hq : KeepsQueue P) (tile : Nat) (start : VecStart) (s : State) (oks : P s) {t' : State} (e : execAttendPrefill tile start s = .next
    t') : P t' := by
  have h1 : Opened [.registers, .vectors, .memory, .controllers, .answers, .records, .tiles, .parts, .pages, .thapel,
      .management] P := hP.mono (by decide)
  unfold execAttendPrefill at e
  refine keeps_ok hq e ?_
  clear e
  try dsimp only
  repeat' first
    | with_reducible assumption | (intro _; try dsimp only) | with_reducible apply keeps_ite
    | with_reducible apply State.prefillEnd_keeps h1 | with_reducible apply State.seqOp_keeps hP
    | with_reducible apply State.startVec_keeps h1 | with_reducible exact keeps_pair (by assumption) (by assumption)
    | (split <;> try dsimp only)

theorem execAttendDecode_keeps {P : State → Prop} (hP : Opened [.draws, .registers, .vectors, .memory, .controllers,
    .answers, .records, .tiles, .parts, .pages, .thapel, .regulation, .management] P) (hq : KeepsQueue P) (tile : Nat) (start : VecStart) (s : State) (oks : P s) {t' : State} (e : execAttendDecode tile start s = .next t')
    : P t' := by
  have h1 : Opened [.registers, .vectors, .memory, .controllers, .answers, .records, .tiles, .parts, .pages, .thapel,
      .management] P := hP.mono (by decide)
  unfold execAttendDecode at e
  refine keeps_ok hq e ?_
  clear e
  try dsimp only
  repeat' first
    | with_reducible assumption | (intro _; try dsimp only) | with_reducible apply keeps_ite
    | with_reducible apply State.decodeOp_keeps hP | with_reducible apply State.startVec_keeps h1
    | with_reducible exact keeps_pair (by assumption) (by assumption) | (split <;> try dsimp only)

theorem execAttendBwd_keeps {P : State → Prop} (hP : Opened [.draws, .registers, .vectors, .memory, .controllers,
    .answers, .records, .tiles, .parts, .pages, .thapel, .regulation, .management] P) (hq : KeepsQueue P) (tile : Nat) (start : VecStart) (s : State) (oks : P s) {t' : State} (e : execAttendBwd tile start s = .next t') :
    P t' := by
  have h1 : Opened [.registers, .vectors, .memory, .controllers, .answers, .records, .tiles, .parts, .pages, .thapel,
      .management] P := hP.mono (by decide)
  unfold execAttendBwd at e
  refine keeps_ok hq e ?_
  clear e
  try dsimp only
  repeat' first
    | with_reducible assumption | (intro _; try dsimp only) | with_reducible apply keeps_ite
    | with_reducible apply State.bwdEnd_keeps h1 | with_reducible apply State.seqOp_keeps hP
    | with_reducible apply State.startVec_keeps h1 | with_reducible exact keeps_pair (by assumption) (by assumption)
    | (split <;> try dsimp only)

theorem execWindowBoundary_keeps {P : State → Prop} (hP : Opened [.draws, .registers, .vectors, .memory, .controllers,
    .answers, .records, .tiles, .parts, .pages, .thapel, .regulation, .management] P) (hq : KeepsQueue P) (hub acct :
    Nat) (s : State) (oks : P s) {t' : State} (e : execWindowBoundary hub acct s = .next t') : P t' := by
  have h1 : Opened [.registers, .vectors, .regulation] P := hP.mono (by decide)
  unfold execWindowBoundary at e
  refine keeps_ok hq e ?_
  clear e
  try dsimp only
  repeat' first
    | with_reducible assumption | (intro _; try dsimp only) | with_reducible apply keeps_ite
    | with_reducible apply State.boundaryOf_keeps h1 | with_reducible apply State.issueHeld_keeps hP
    | with_reducible apply keeps_foldl | with_reducible apply keeps_foldl1
    | with_reducible exact keeps_pair (by assumption) (by assumption) | (split <;> try dsimp only)

theorem execRequestRelease_keeps {P : State → Prop} (hP : Opened [.registers, .vectors, .answers, .regulation] P) (hq
    : KeepsQueue P) (hub master part bytes : Nat) (s : State) (oks : P s) {t' : State} (e : execRequestRelease hub
    master part bytes s = .next t') : P t' := by
  have h1 : Opened [.answers] P := hP.mono (by decide)
  have h2 : Opened [.registers, .vectors, .regulation] P := hP.mono (by decide)
  have h3 : Opened [.registers, .vectors] P := hP.mono (by decide)
  have h4 : Opened [.regulation] P := hP.mono (by decide)
  unfold execRequestRelease at e
  refine keeps_ok hq e ?_
  clear e
  try dsimp only
  repeat' first
    | with_reducible assumption | (intro _; try dsimp only) | with_reducible apply keeps_ite
    | with_reducible apply State.answer_keeps h1 | with_reducible apply State.boundaryOf_keeps h2
    | with_reducible apply State.charge_keeps h2 | with_reducible apply State.hostShare_keeps h3
    | with_reducible apply State.onAcct_keeps h4 | with_reducible exact keeps_pair (by assumption) (by assumption)
    | (split <;> try dsimp only)

theorem execUrgencySample_keeps {P : State → Prop} (hP : Opened [.registers, .vectors, .regulation] P) (hq :
    KeepsQueue P) (hub master fill : Nat) (s : State) (oks : P s) {t' : State} (e : execUrgencySample hub master fill
    s = .next t') : P t' := by
  have h1 : Opened [.registers] P := hP.mono (by decide)
  unfold execUrgencySample at e
  refine keeps_ok hq e ?_
  clear e
  try dsimp only
  repeat' first
    | with_reducible assumption | (intro _; try dsimp only) | with_reducible apply keeps_ite
    | with_reducible apply State.fset_keeps h1 | with_reducible apply State.fsetAt_keeps h1
    | with_reducible apply State.releaseHeld_keeps hP | with_reducible apply keeps_foldl
    | with_reducible apply keeps_foldl1 | with_reducible exact keeps_pair (by assumption) (by assumption)
    | (split <;> try dsimp only)

theorem execScaleUpdate_keeps {P : State → Prop} (hP : Opened [.registers, .vectors, .records, .management] P) (hq :
    KeepsQueue P) (hub : Nat) (s : State) (oks : P s) {t' : State} (e : execScaleUpdate hub s = .next t') : P t' := by
  have h1 : Opened [.registers, .vectors] P := hP.mono (by decide)
  have h2 : Opened [.registers] P := hP.mono (by decide)
  unfold execScaleUpdate at e
  refine keeps_ok hq e ?_
  clear e
  try dsimp only
  repeat' first
    | with_reducible assumption | (intro _; try dsimp only) | with_reducible apply keeps_ite
    | with_reducible apply State.evt_keeps h1 | with_reducible apply State.fset_keeps h2
    | with_reducible apply State.record_keeps hP | with_reducible exact keeps_pair (by assumption) (by assumption)
    | (split <;> try dsimp only)

theorem execRegisterWrite_keeps {P : State → Prop} (hP : Opened [.registers, .vectors, .records, .regulation,
    .management] P) (hq : KeepsQueue P) (who : Accessor) (off n v : Nat) (poisoned : Bool) (s : State) (oks : P s) {t'
    : State} (e : execRegisterWrite who off n v poisoned s = .next t') : P t' := by
  have h1 : Opened [.vectors] P := hP.mono (by decide)
  have h2 : Opened [.registers, .vectors, .records, .management] P := hP.mono (by decide)
  unfold execRegisterWrite at e
  refine keeps_ok hq e ?_
  clear e
  try dsimp only
  repeat' first
    | with_reducible assumption | (intro _; try dsimp only) | with_reducible apply keeps_ite
    | with_reducible apply State.msixWrite_keeps h1 | with_reducible apply State.poisonedRegWrite_keeps h2
    | with_reducible apply State.regWrite_keeps hP | with_reducible exact keeps_pair (by assumption) (by assumption)
    | (split <;> try dsimp only)

theorem execRcFieldRead_keeps {P : State → Prop} (hP : Opened [.registers, .answers, .regulation] P) (hq : KeepsQueue
    P) (who : Accessor) (off n : Nat) (s : State) (oks : P s) {t' : State} (e : execRcFieldRead who off n s = .next
    t') : P t' := by
  unfold execRcFieldRead at e
  refine keeps_ok hq e ?_
  clear e
  try dsimp only
  repeat' first
    | with_reducible assumption | (intro _; try dsimp only) | with_reducible apply keeps_ite
    | with_reducible apply State.regRead_keeps hP | with_reducible exact keeps_pair (by assumption) (by assumption)
    | (split <;> try dsimp only)

theorem execRegisterHalfRead_keeps {P : State → Prop} (hP : Opened [.registers, .answers, .regulation] P) (hq :
    KeepsQueue P) (who : Accessor) (off : Nat) (s : State) (oks : P s) {t' : State} (e : execRegisterHalfRead who off
    s = .next t') : P t' := by
  have h1 : Opened [.answers] P := hP.mono (by decide)
  have h2 : Opened [.registers, .regulation] P := hP.mono (by decide)
  have h3 : Opened [.registers] P := hP.mono (by decide)
  unfold execRegisterHalfRead at e
  refine keeps_ok hq e ?_
  clear e
  try dsimp only
  repeat' first
    | with_reducible assumption | (intro _; try dsimp only) | with_reducible apply keeps_ite
    | with_reducible apply State.answer_keeps h1 | with_reducible apply State.clearRc_keeps h2
    | with_reducible apply State.regRead_keeps hP | with_reducible apply State.withHalfR_keeps h3
    | with_reducible exact keeps_pair (by assumption) (by assumption) | (split <;> try dsimp only)

theorem execDeckEnable_keeps {P : State → Prop} (hP : Opened [.draws, .registers, .vectors, .memory, .controllers,
    .answers, .records, .decks, .management] P) (hq : KeepsQueue P) (who : Accessor) (v : Nat) (s : State) (oks : P s)
    {t' : State} (e : execDeckEnable who v s = .next t') : P t' := by
  have h1 : Opened [.registers, .vectors] P := hP.mono (by decide)
  have h2 : Opened [.registers] P := hP.mono (by decide)
  have h3 : Opened [.decks] P := hP.mono (by decide)
  have h4 : Opened [.draws, .registers, .vectors, .memory, .controllers, .answers, .records, .management] P := hP.mono
      (by decide)
  unfold execDeckEnable at e
  refine keeps_ok hq e ?_
  clear e
  try dsimp only
  repeat' first
    | with_reducible assumption | (intro _; try dsimp only) | with_reducible apply keeps_ite
    | with_reducible apply State.cfgRefused_keeps h1 | with_reducible apply State.fset_keeps h2
    | with_reducible apply State.onDeck_keeps h3 | with_reducible apply State.setIrq_keeps h2
    | with_reducible apply State.setSizes_keeps h2 | with_reducible apply State.storeCtx_keeps h4
    | with_reducible apply State.withDeckEver_keeps h3
    | with_reducible exact keeps_pair (by assumption) (by assumption) | (split <;> try dsimp only)

theorem execDeckDoorbell_keeps {P : State → Prop} (hP : Opened [.registers, .vectors, .decks, .power] P) (hq :
    KeepsQueue P) (fn port off n v : Nat) (s : State) (oks : P s) {t' : State} (e : execDeckDoorbell fn port off n v s
    = .next t') : P t' := by
  have h1 : Opened [.registers, .power] P := hP.mono (by decide)
  have h2 : Opened [.registers, .vectors] P := hP.mono (by decide)
  have h3 : Opened [.decks] P := hP.mono (by decide)
  unfold execDeckDoorbell at e
  refine keeps_ok hq e ?_
  clear e
  try dsimp only
  repeat' first
    | with_reducible assumption | (intro _; try dsimp only) | with_reducible apply keeps_ite
    | with_reducible apply State.abandonEntry_keeps h1 | with_reducible apply State.dbDiscard_keeps h2
    | with_reducible apply State.evt_keeps h2 | with_reducible apply State.onDeck_keeps h3
    | with_reducible exact keeps_pair (by assumption) (by assumption) | (split <;> try dsimp only)

theorem execDeckCqDoorbell_keeps {P : State → Prop} (hP : Opened [.registers, .vectors, .decks] P) (hq : KeepsQueue P)
    (fn port off n v : Nat) (s : State) (oks : P s) {t' : State} (e : execDeckCqDoorbell fn port off n v s = .next t')
    : P t' := by
  have h1 : Opened [.registers, .vectors] P := hP.mono (by decide)
  have h2 : Opened [.decks] P := hP.mono (by decide)
  unfold execDeckCqDoorbell at e
  refine keeps_ok hq e ?_
  clear e
  try dsimp only
  repeat' first
    | with_reducible assumption | (intro _; try dsimp only) | with_reducible apply keeps_ite
    | with_reducible apply State.dbDiscard_keeps h1 | with_reducible apply State.onDeck_keeps h2
    | with_reducible exact keeps_pair (by assumption) (by assumption) | (split <;> try dsimp only)

theorem execDeckPark_keeps {P : State → Prop} (hP : Opened [.draws, .registers, .vectors, .memory, .controllers,
    .answers, .records, .decks, .management] P) (hq : KeepsQueue P) (deck : Nat) (s : State) (oks : P s) {t' : State}
    (e : execDeckPark deck s = .next t') : P t' := by
  have h1 : Opened [.decks] P := hP.mono (by decide)
  have h2 : Opened [.draws, .registers, .vectors, .memory, .controllers, .answers, .records, .management] P := hP.mono
      (by decide)
  unfold execDeckPark at e
  refine keeps_ok hq e ?_
  clear e
  try dsimp only
  repeat' first
    | with_reducible assumption | (intro _; try dsimp only) | with_reducible apply keeps_ite
    | with_reducible apply State.onDeck_keeps h1 | with_reducible apply State.storeCtx_keeps h2
    | with_reducible exact keeps_pair (by assumption) (by assumption) | (split <;> try dsimp only)

theorem execDeckActivate_keeps {P : State → Prop} (hP : Opened [.registers, .vectors, .memory, .controllers, .answers,
    .records, .decks, .management] P) (hq : KeepsQueue P) (deck : Nat) (s : State) (oks : P s) {t' : State} (e :
    execDeckActivate deck s = .next t') : P t' := by
  have h1 : Opened [.registers, .vectors, .memory, .controllers, .answers, .records, .management] P := hP.mono (by
      decide)
  have h2 : Opened [.registers, .vectors] P := hP.mono (by decide)
  have h3 : Opened [.registers] P := hP.mono (by decide)
  have h4 : Opened [.decks] P := hP.mono (by decide)
  have h5 : Opened [.registers, .vectors, .memory, .controllers, .records, .management] P := hP.mono (by decide)
  unfold execDeckActivate at e
  refine keeps_ok hq e ?_
  clear e
  try dsimp only
  repeat' first
    | with_reducible assumption | (intro _; try dsimp only) | with_reducible apply keeps_ite
    | with_reducible apply State.closeRange_keeps h1 | with_reducible apply State.evt_keeps h2
    | with_reducible apply State.fset_keeps h3 | with_reducible apply State.onDeck_keeps h4
    | with_reducible apply State.readRange_keeps h5 | with_reducible exact keeps_pair (by assumption) (by assumption)
    | (split <;> try dsimp only)

theorem execDeckFetch_keeps {P : State → Prop} (hP : Opened [.draws, .registers, .vectors, .memory, .controllers,
    .answers, .records, .decks, .management] P) (hq : KeepsQueue P) (deck : Nat) (s : State) (oks : P s) {t' : State}
    (e : execDeckFetch deck s = .next t') : P t' := by
  have h1 : Opened [.draws] P := hP.mono (by decide)
  have h2 : Opened [.registers, .vectors, .memory, .controllers, .answers, .records, .management] P := hP.mono (by
      decide)
  have h3 : Opened [.decks] P := hP.mono (by decide)
  have h4 : Opened [.registers, .vectors, .records, .management] P := hP.mono (by decide)
  have h5 : Opened [.registers, .vectors] P := hP.mono (by decide)
  unfold execDeckFetch at e
  refine keeps_ok hq e ?_
  clear e
  try dsimp only
  repeat' first
    | with_reducible assumption | (intro _; try dsimp only) | with_reducible apply keeps_ite
    | with_reducible apply State.draw_keeps h1 | with_reducible apply State.engTouch_keeps h2
    | with_reducible apply State.onDeck_keeps h3 | with_reducible apply State.record_keeps h4
    | with_reducible exact keeps_pair (by assumption) (by assumption)
    | (refine State.engGet_keeps h5 ?_ (by assumption)) | (split <;> try dsimp only)

theorem execCommandStart_keeps {P : State → Prop} (hP : Opened [.registers, .vectors, .memory, .controllers, .answers,
    .records, .parts, .decks, .management] P) (hq : KeepsQueue P) (deck : Nat) (s : State) (oks : P s) {t' : State} (e
    : execCommandStart deck s = .next t') : P t' := by
  have h1 : Opened [.registers, .vectors, .memory, .controllers, .answers, .records, .decks, .management] P := hP.mono
      (by decide)
  have h2 : Opened [.decks] P := hP.mono (by decide)
  have h3 : Opened [.parts] P := hP.mono (by decide)
  unfold execCommandStart at e
  refine keeps_ok hq e ?_
  clear e
  try dsimp only
  repeat' first
    | with_reducible assumption | (intro _; try dsimp only) | with_reducible apply keeps_ite
    | with_reducible apply State.complete_keeps h1 | with_reducible apply State.onDeck_keeps h2
    | with_reducible apply State.onExec_keeps h2 | with_reducible apply State.preDecide_keeps h3
    | with_reducible apply State.withStartNo_keeps h2 | with_reducible exact keeps_pair (by assumption) (by assumption)
    | (split <;> try dsimp only)

theorem execLateResult_keeps {P : State → Prop} (hP : Opened [.registers, .vectors, .decks] P) (hq : KeepsQueue P)
    (part slot : Nat) (gen : Bool) (s : State) (oks : P s) {t' : State} (e : execLateResult part slot gen s = .next
    t') : P t' := by
  have h1 : Opened [.registers, .vectors] P := hP.mono (by decide)
  have h2 : Opened [.registers] P := hP.mono (by decide)
  have h3 : Opened [.decks] P := hP.mono (by decide)
  unfold execLateResult at e
  refine keeps_ok hq e ?_
  clear e
  try dsimp only
  repeat' first
    | with_reducible assumption | (intro _; try dsimp only) | with_reducible apply keeps_ite
    | with_reducible apply State.evt_keeps h1 | with_reducible apply State.fcount_keeps h2
    | with_reducible apply State.onExec_keeps h3 | with_reducible exact keeps_pair (by assumption) (by assumption)
    | (split <;> try dsimp only)

theorem execExecSlotQuarantineEnd_keeps {P : State → Prop} (hP : Opened [.decks] P) (hq : KeepsQueue P) (part slot :
    Nat) (s : State) (oks : P s) {t' : State} (e : execExecSlotQuarantineEnd part slot s = .next t') : P t' := by
  unfold execExecSlotQuarantineEnd at e
  refine keeps_ok hq e ?_
  clear e
  try dsimp only
  repeat' first
    | with_reducible assumption | (intro _; try dsimp only) | with_reducible apply keeps_ite
    | with_reducible apply State.onExec_keeps hP | with_reducible exact keeps_pair (by assumption) (by assumption)
    | (split <;> try dsimp only)

theorem execThapelStepQueue_keeps {P : State → Prop} (hP : Opened [.draws, .registers, .vectors, .memory,
    .controllers, .answers, .records, .tiles, .parts, .pages, .thapel, .regulation, .management] P) (hq : KeepsQueue
    P) (hub chan : Nat) (s : State) (oks : P s) {t' : State} (e : execThapelStepQueue hub chan s = .next t') : P t' :=
    by
  have h1 : Opened [.thapel] P := hP.mono (by decide)
  have h2 : Opened [.registers, .vectors, .thapel, .regulation] P := hP.mono (by decide)
  have h3 : Opened [.registers, .vectors, .memory, .controllers, .answers, .records, .tiles, .parts, .pages, .thapel,
      .management] P := hP.mono (by decide)
  unfold execThapelStepQueue at e
  refine keeps_ok hq e ?_
  clear e
  try dsimp only
  repeat' first
    | with_reducible assumption | (intro _; try dsimp only) | with_reducible apply keeps_ite
    | with_reducible apply State.onChan_keeps h1 | with_reducible apply State.startStep_keeps h2
    | with_reducible apply State.stepOos_keeps h3 | with_reducible apply State.stepRefused_keeps hP
    | with_reducible apply State.withThapWait_keeps h1
    | with_reducible exact keeps_pair (by assumption) (by assumption) | (split <;> try dsimp only)

theorem execProcessorModeEntry_keeps {P : State → Prop} (hP : Opened [.registers, .vectors, .thapel, .regulation] P)
    (hq : KeepsQueue P) (chan : Nat) (s : State) (oks : P s) {t' : State} (e : execProcessorModeEntry chan s = .next
    t') : P t' := by
  have h1 : Opened [.registers] P := hP.mono (by decide)
  have h2 : Opened [.thapel] P := hP.mono (by decide)
  unfold execProcessorModeEntry at e
  refine keeps_ok hq e ?_
  clear e
  try dsimp only
  repeat' first
    | with_reducible assumption | (intro _; try dsimp only) | with_reducible apply keeps_ite
    | with_reducible apply State.fcount_keeps h1 | with_reducible apply State.onChan_keeps h2
    | with_reducible apply State.setProc_keeps h1 | with_reducible apply State.startStep_keeps hP
    | with_reducible exact keeps_pair (by assumption) (by assumption) | (split <;> try dsimp only)

theorem execAttendPage_keeps {P : State → Prop} (hP : Opened [.registers, .vectors, .memory, .controllers, .answers,
    .records, .tiles, .parts, .decks, .pages, .thapel, .regulation, .management] P) (hq : KeepsQueue P) (chan : Nat)
    (s : State) (oks : P s) {t' : State} (e : execAttendPage chan s = .next t') : P t' := by
  have h1 : Opened [.registers, .vectors, .memory, .controllers, .answers, .records, .tiles, .parts, .decks,
      .management] P := hP.mono (by decide)
  have h2 : Opened [.registers, .vectors, .memory, .controllers, .answers, .records, .pages, .thapel, .regulation,
      .management] P := hP.mono (by decide)
  unfold execAttendPage at e
  refine keeps_ok hq e ?_
  clear e
  try dsimp only
  repeat' first
    | with_reducible assumption | (intro _; try dsimp only) | with_reducible apply keeps_ite
    | with_reducible apply State.afterStep_keeps h1 | with_reducible apply State.closeStep_keeps h2
    | with_reducible exact keeps_pair (by assumption) (by assumption) | (split <;> try dsimp only)

theorem execSealVerify_keeps {P : State → Prop} (hP : Opened [.registers, .vectors, .memory, .controllers, .answers,
    .records, .pages, .thapel, .regulation, .management] P) (hq : KeepsQueue P) (chan : Nat) (s : State) (oks : P s)
    {t' : State} (e : execSealVerify chan s = .next t') : P t' := by
  unfold execSealVerify at e
  refine keeps_ok hq e ?_
  clear e
  try dsimp only
  repeat' first
    | with_reducible assumption | (intro _; try dsimp only) | with_reducible apply keeps_ite
    | with_reducible apply State.closeStep_keeps hP | with_reducible exact keeps_pair (by assumption) (by assumption)
    | (split <;> try dsimp only)

theorem execYieldPoint_keeps {P : State → Prop} (hP : Opened [.draws, .registers, .vectors, .memory, .controllers,
    .answers, .records, .tiles, .parts, .decks, .pages, .thapel, .regulation, .management] P) (hq : KeepsQueue P)
    (chan : Nat) (unitFault : Bool) (s : State) (oks : P s) {t' : State} (e : execYieldPoint chan unitFault s = .next
    t') : P t' := by
  have h1 : Opened [.registers, .vectors, .memory, .controllers, .answers, .records, .tiles, .parts, .decks,
      .management] P := hP.mono (by decide)
  have h2 : Opened [.registers, .vectors] P := hP.mono (by decide)
  have h3 : Opened [.thapel] P := hP.mono (by decide)
  have h4 : Opened [.registers, .vectors, .memory, .controllers, .answers, .records, .tiles, .parts, .pages, .thapel,
      .management] P := hP.mono (by decide)
  have h5 : Opened [.draws, .registers, .vectors, .memory, .controllers, .answers, .records, .tiles, .thapel,
      .regulation, .management] P := hP.mono (by decide)
  unfold execYieldPoint at e
  refine keeps_ok hq e ?_
  clear e
  try dsimp only
  repeat' first
    | with_reducible assumption | (intro _; try dsimp only) | with_reducible apply keeps_ite
    | with_reducible apply State.afterStep_keeps h1 | with_reducible apply State.evt_keeps h2
    | with_reducible apply State.onChan_keeps h3 | with_reducible apply State.stepFails_keeps h4
    | with_reducible apply State.unitFault_keeps h4 | with_reducible apply State.yieldTail_keeps h5
    | with_reducible exact keeps_pair (by assumption) (by assumption) | (split <;> try dsimp only)

theorem execResultBufferDrain_keeps {P : State → Prop} (hP : Opened [.registers, .vectors, .memory, .controllers,
    .answers, .records, .tiles, .parts, .pages, .thapel, .management] P) (hq : KeepsQueue P) (chan : Nat) (s : State)
    (oks : P s) {t' : State} (e : execResultBufferDrain chan s = .next t') : P t' := by
  have h1 : Opened [.thapel] P := hP.mono (by decide)
  unfold execResultBufferDrain at e
  refine keeps_ok hq e ?_
  clear e
  try dsimp only
  repeat' first
    | with_reducible assumption | (intro _; try dsimp only) | with_reducible apply keeps_ite
    | with_reducible apply State.attnEnd_keeps hP | with_reducible apply State.onChan_keeps h1
    | with_reducible apply State.withAttn_keeps h1 | with_reducible exact keeps_pair (by assumption) (by assumption)
    | (split <;> try dsimp only)

theorem execLingerExpiry_keeps {P : State → Prop} (hP : Opened [.draws, .registers, .vectors, .memory, .controllers,
    .answers, .records, .tiles, .thapel, .regulation, .management] P) (hq : KeepsQueue P) (chan : Nat) (s : State)
    (oks : P s) {t' : State} (e : execLingerExpiry chan s = .next t') : P t' := by
  have h1 : Opened [.thapel] P := hP.mono (by decide)
  have h2 : Opened [.registers] P := hP.mono (by decide)
  unfold execLingerExpiry at e
  refine keeps_ok hq e ?_
  clear e
  try dsimp only
  repeat' first
    | with_reducible assumption | (intro _; try dsimp only) | with_reducible apply keeps_ite
    | with_reducible apply State.onChan_keeps h1 | with_reducible apply State.serveN_keeps hP
    | with_reducible apply State.setProc_keeps h2 | with_reducible exact keeps_pair (by assumption) (by assumption)
    | (split <;> try dsimp only)

theorem execChannelBusy_keeps {P : State → Prop} (hP : Opened [.registers, .vectors, .memory, .controllers, .answers,
    .records, .tiles, .parts, .pages, .thapel, .management] P) (hq : KeepsQueue P) (chan idx : Nat) (s : State) (oks :
    P s) {t' : State} (e : execChannelBusy chan idx s = .next t') : P t' := by
  have h1 : Opened [.answers] P := hP.mono (by decide)
  have h2 : Opened [.registers, .vectors] P := hP.mono (by decide)
  have h3 : Opened [.registers] P := hP.mono (by decide)
  have h4 : Opened [.thapel] P := hP.mono (by decide)
  have h5 : Opened [.registers, .vectors, .records, .management] P := hP.mono (by decide)
  unfold execChannelBusy at e
  refine keeps_ok hq e ?_
  clear e
  try dsimp only
  repeat' first
    | with_reducible assumption | (intro _; try dsimp only) | with_reducible apply keeps_ite
    | with_reducible apply State.answer_keeps h1 | with_reducible apply State.evt_keeps h2
    | with_reducible apply State.fcount_keeps h3 | with_reducible apply State.fset_keeps h3
    | with_reducible apply State.onChan_keeps h4 | with_reducible apply State.record_keeps h5
    | with_reducible apply State.tagTimeout_keeps hP | with_reducible exact keeps_pair (by assumption) (by assumption)
    | (split <;> try dsimp only)

theorem execThapelHang_keeps {P : State → Prop} (hP : Opened [.registers, .vectors, .memory, .controllers, .answers,
    .records, .tiles, .parts, .decks, .pages, .thapel, .regulation, .management] P) (hq : KeepsQueue P) (chan : Nat)
    (s : State) (oks : P s) {t' : State} (e : execThapelHang chan s = .next t') : P t' := by
  have h1 : Opened [.registers, .vectors, .memory, .controllers, .answers, .records, .tiles, .parts, .decks,
      .management] P := hP.mono (by decide)
  have h2 : Opened [.registers, .vectors] P := hP.mono (by decide)
  have h3 : Opened [.thapel] P := hP.mono (by decide)
  have h4 : Opened [.registers, .vectors, .thapel, .regulation] P := hP.mono (by decide)
  have h5 : Opened [.registers, .vectors, .memory, .controllers, .answers, .records, .tiles, .parts, .pages, .thapel,
      .management] P := hP.mono (by decide)
  unfold execThapelHang at e
  refine keeps_ok hq e ?_
  clear e
  try dsimp only
  repeat' first
    | with_reducible assumption | (intro _; try dsimp only) | with_reducible apply keeps_ite
    | with_reducible apply State.afterStep_keeps h1 | with_reducible apply State.evt_keeps h2
    | with_reducible apply State.onChan_keeps h3 | with_reducible apply State.startStep_keeps h4
    | with_reducible apply State.unitFault_keeps h5 | with_reducible exact keeps_pair (by assumption) (by assumption)
    | (split <;> try dsimp only)

theorem execRefresh_keeps {P : State → Prop} (hP : Opened [.thapel] P) (hq : KeepsQueue P) (chan : Nat) (s : State)
    (oks : P s) {t' : State} (e : execRefresh chan s = .next t') : P t' := by
  unfold execRefresh at e
  refine keeps_ok hq e ?_
  clear e
  try dsimp only
  repeat' first
    | with_reducible assumption | (intro _; try dsimp only) | with_reducible apply keeps_ite
    | with_reducible apply State.onChan_keeps hP | with_reducible exact keeps_pair (by assumption) (by assumption)
    | (split <;> try dsimp only)

theorem execRefreshAbandon_keeps {P : State → Prop} (hP : Opened [.registers, .vectors, .thapel] P) (hq : KeepsQueue
    P) (chan : Nat) (s : State) (oks : P s) {t' : State} (e : execRefreshAbandon chan s = .next t') : P t' := by
  have h1 : Opened [.registers, .vectors] P := hP.mono (by decide)
  have h2 : Opened [.registers] P := hP.mono (by decide)
  have h3 : Opened [.thapel] P := hP.mono (by decide)
  unfold execRefreshAbandon at e
  refine keeps_ok hq e ?_
  clear e
  try dsimp only
  repeat' first
    | with_reducible assumption | (intro _; try dsimp only) | with_reducible apply keeps_ite
    | with_reducible apply State.evt_keeps h1 | with_reducible apply State.fcount_keeps h2
    | with_reducible apply State.onChan_keeps h3 | with_reducible exact keeps_pair (by assumption) (by assumption)
    | (split <;> try dsimp only)

theorem execRunGraph_keeps {P : State → Prop} (hP : Opened [.registers, .vectors, .memory, .controllers, .answers,
    .records, .parts, .decks, .pages, .management] P) (hq : KeepsQueue P) (part slot : Nat) (s : State) (oks : P s)
    {t' : State} (e : execRunGraph part slot s = .next t') : P t' := by
  have h1 : Opened [] P := hP.mono (by decide)
  unfold execRunGraph at e
  refine keeps_ok hq e ?_
  clear e
  try dsimp only
  repeat' first
    | with_reducible assumption | (intro _; try dsimp only) | with_reducible apply keeps_ite
    | with_reducible apply State.runCmd_keeps h1 | with_reducible apply State.stage2_keeps hP
    | with_reducible exact keeps_pair (by assumption) (by assumption) | (split <;> try dsimp only)

theorem execInstanceStart_keeps {P : State → Prop} (hP : Opened [.memory, .tiles, .parts, .decks] P) (hq : KeepsQueue
    P) (part slot : Nat) (s : State) (oks : P s) {t' : State} (e : execInstanceStart part slot s = .next t') : P t' :=
    by
  unfold execInstanceStart at e
  refine keeps_ok hq e ?_
  clear e
  try dsimp only
  repeat' first
    | with_reducible assumption | (intro _; try dsimp only) | with_reducible apply keeps_ite
    | with_reducible apply State.startInst_keeps hP | with_reducible exact keeps_pair (by assumption) (by assumption)
    | (split <;> try dsimp only)

theorem execInstanceEnd_keeps {P : State → Prop} (hP : Opened [.registers, .vectors, .memory, .controllers, .answers,
    .records, .tiles, .parts, .decks, .pages, .management] P) (hq : KeepsQueue P) (part : Nat) (commitUe : Option Nat)
    (s : State) (oks : P s) {t' : State} (e : execInstanceEnd part commitUe s = .next t') : P t' := by
  have h1 : Opened [.registers, .vectors, .memory, .controllers, .answers, .records, .pages, .management] P := hP.mono
      (by decide)
  have h2 : Opened [.registers, .vectors, .memory, .controllers, .answers, .records, .decks, .management] P := hP.mono
      (by decide)
  have h3 : Opened [.registers, .vectors, .memory, .controllers, .answers, .records, .tiles, .parts, .decks,
      .management] P := hP.mono (by decide)
  unfold execInstanceEnd at e
  refine keeps_ok hq e ?_
  clear e
  try dsimp only
  repeat' first
    | with_reducible assumption | (intro _; try dsimp only) | with_reducible apply keeps_ite
    | with_reducible apply State.commitAll_keeps h1 | with_reducible apply State.emitTokens_keeps h2
    | with_reducible apply State.endCmd_keeps h3 | with_reducible apply State.settle_keeps h1
    | with_reducible apply keeps_foldl | with_reducible apply keeps_foldl1
    | with_reducible exact keeps_pair (by assumption) (by assumption)
    | (refine keeps_pair (by assumption) ?_; with_reducible apply State.commitAll_keeps h1)
    | (split <;> try dsimp only)

theorem execRegrowChunk_keeps {P : State → Prop} (hP : Opened [.registers, .vectors, .memory, .controllers, .answers,
    .records, .tiles, .parts, .decks, .pages, .management] P) (hq : KeepsQueue P) (part : Nat) (fails : Bool) (s :
    State) (oks : P s) {t' : State} (e : execRegrowChunk part fails s = .next t') : P t' := by
  have h1 : Opened [.registers, .vectors, .memory, .controllers, .answers, .records, .tiles, .parts, .decks,
      .management] P := hP.mono (by decide)
  have h2 : Opened [.decks] P := hP.mono (by decide)
  have h3 : Opened [.tiles, .parts] P := hP.mono (by decide)
  have h4 : Opened [.registers, .vectors, .memory, .controllers, .answers, .records, .management] P := hP.mono (by
      decide)
  have h5 : Opened [.registers, .vectors, .memory, .controllers, .answers, .records, .pages, .management] P := hP.mono
      (by decide)
  have h6 : Opened [.registers, .vectors, .memory, .controllers, .answers, .records, .decks, .pages, .management] P :=
      hP.mono (by decide)
  have h7 : Opened [.registers, .vectors, .memory, .controllers, .answers, .records, .parts, .decks, .pages,
      .management] P := hP.mono (by decide)
  unfold execRegrowChunk at e
  refine keeps_ok hq e ?_
  clear e
  try dsimp only
  repeat' first
    | with_reducible assumption | (intro _; try dsimp only) | with_reducible apply keeps_ite
    | with_reducible apply State.endCmd_keeps h1 | with_reducible apply State.onExec_keeps h2
    | with_reducible apply State.popInst_keeps h3 | with_reducible apply State.regrowCommit_keeps h4
    | with_reducible apply State.regrowEnd_keeps h5 | with_reducible apply State.regrowFail_keeps h6
    | with_reducible apply State.regrowGo_keeps h7 | with_reducible apply State.regrowNext_keeps h7
    | with_reducible apply State.regrowStop_keeps h6 | with_reducible apply State.unref_keeps h5
    | with_reducible apply keeps_foldl | with_reducible apply keeps_foldl1
    | with_reducible exact keeps_pair (by assumption) (by assumption)
    | (refine keeps_pair (by assumption) ?_; with_reducible apply State.regrowFail_keeps h6)
    | (split <;> try dsimp only)

theorem execInstanceAbort_keeps {P : State → Prop} (hP : Opened [.registers, .vectors, .memory, .controllers,
    .answers, .records, .tiles, .parts, .decks, .pages, .thapel, .management] P) (hq : KeepsQueue P) (part : Nat) (s :
    State) (oks : P s) {t' : State} (e : execInstanceAbort part s = .next t') : P t' := by
  have h1 : Opened [.registers, .vectors, .memory, .controllers, .answers, .records, .tiles, .parts, .pages, .thapel,
      .management] P := hP.mono (by decide)
  have h2 : Opened [.registers, .vectors, .memory, .controllers, .answers, .records, .tiles, .parts, .decks,
      .management] P := hP.mono (by decide)
  have h3 : Opened [.decks] P := hP.mono (by decide)
  have h4 : Opened [.registers, .vectors, .memory, .controllers, .answers, .records, .decks, .pages, .management] P :=
      hP.mono (by decide)
  unfold execInstanceAbort at e
  refine keeps_ok hq e ?_
  clear e
  try dsimp only
  repeat' first
    | with_reducible assumption | (intro _; try dsimp only) | with_reducible apply keeps_ite
    | with_reducible apply State.abortInst_keeps h1 | with_reducible apply State.endCmd_keeps h2
    | with_reducible apply State.onExec_keeps h3 | with_reducible apply State.regrowFail_keeps h4
    | with_reducible apply State.regrowStop_keeps h4 | with_reducible apply State.unreserveAll_keeps h4
    | with_reducible exact keeps_pair (by assumption) (by assumption)
    | (refine keeps_pair (by assumption) ?_; with_reducible apply State.regrowFail_keeps h4)
    | (split <;> try dsimp only)

theorem execDroppedPageRerun_keeps {P : State → Prop} (hP : Opened [.registers, .vectors, .memory, .controllers,
    .answers, .records, .tiles, .parts, .decks, .pages, .management] P) (hq : KeepsQueue P) (part : Nat) (s : State)
    (oks : P s) {t' : State} (e : execDroppedPageRerun part s = .next t') : P t' := by
  have h1 : Opened [.decks] P := hP.mono (by decide)
  have h2 : Opened [.tiles, .parts] P := hP.mono (by decide)
  have h3 : Opened [.registers, .vectors, .memory, .controllers, .answers, .records, .parts, .decks, .pages,
      .management] P := hP.mono (by decide)
  unfold execDroppedPageRerun at e
  refine keeps_ok hq e ?_
  clear e
  try dsimp only
  repeat' first
    | with_reducible assumption | (intro _; try dsimp only) | with_reducible apply keeps_ite
    | with_reducible apply State.onExec_keeps h1 | with_reducible apply State.popInst_keeps h2
    | with_reducible apply State.stage2_keeps h3 | with_reducible exact keeps_pair (by assumption) (by assumption)
    | (split <;> try dsimp only)

theorem execMgmtRecordCopy_keeps {P : State → Prop} (hP : Opened [.registers, .management] P) (hq : KeepsQueue P) (hub
    : Nat) (s : State) (oks : P s) {t' : State} (e : execMgmtRecordCopy hub s = .next t') : P t' := by
  have h1 : Opened [.registers] P := hP.mono (by decide)
  have h2 : Opened [.management] P := hP.mono (by decide)
  unfold execMgmtRecordCopy at e
  refine keeps_ok hq e ?_
  clear e
  try dsimp only
  repeat' first
    | with_reducible assumption | (intro _; try dsimp only) | with_reducible apply keeps_ite
    | with_reducible apply State.fwrap_keeps h1 | with_reducible apply State.logAppend_keeps hP
    | with_reducible apply State.withMgmt_keeps h2 | with_reducible exact keeps_pair (by assumption) (by assumption)
    | (split <;> try dsimp only)

theorem execLogFlush_keeps {P : State → Prop} (hP : Opened [.registers, .vectors, .records, .management] P) (hq :
    KeepsQueue P) (n : Nat) (s : State) (oks : P s) {t' : State} (e : execLogFlush n s = .next t') : P t' := by
  have h1 : Opened [.management] P := hP.mono (by decide)
  unfold execLogFlush at e
  refine keeps_ok hq e ?_
  clear e
  try dsimp only
  repeat' first
    | with_reducible assumption | (intro _; try dsimp only) | with_reducible apply keeps_ite
    | with_reducible apply State.mgmtRec_keeps hP | with_reducible apply State.withMgmt_keeps h1
    | with_reducible exact keeps_pair (by assumption) (by assumption) | (split <;> try dsimp only)

theorem execRouteTableWrite_keeps {P : State → Prop} (hP : Opened [.registers, .vectors, .records, .regulation,
    .management] P) (hq : KeepsQueue P) (who : Accessor) (off v : Nat) (s : State) (oks : P s) {t' : State} (e :
    execRouteTableWrite who off v s = .next t') : P t' := by
  unfold execRouteTableWrite at e
  refine keeps_ok hq e ?_
  clear e
  try dsimp only
  repeat' first
    | with_reducible assumption | (intro _; try dsimp only) | with_reducible apply keeps_ite
    | with_reducible apply State.writeReg_keeps hP | with_reducible exact keeps_pair (by assumption) (by assumption)
    | (split <;> try dsimp only)

theorem execMessageRoute_keeps {P : State → Prop} (hP : Opened [.registers, .links] P) (hq : KeepsQueue P) (m : Msg)
    (s : State) (oks : P s) {t' : State} (e : execMessageRoute m s = .next t') : P t' := by
  have h1 : Opened [.registers] P := hP.mono (by decide)
  have h2 : Opened [.links] P := hP.mono (by decide)
  unfold execMessageRoute at e
  refine keeps_ok hq e ?_
  clear e
  try dsimp only
  repeat' first
    | with_reducible assumption | (intro _; try dsimp only) | with_reducible apply keeps_ite
    | with_reducible apply State.fcount_keeps h1 | with_reducible apply State.routed_keeps h2
    | with_reducible apply State.takeMsg_keeps h2 | with_reducible exact keeps_pair (by assumption) (by assumption)
    | (refine keeps_pair (by assumption) ?_; with_reducible apply State.routed_keeps h2) | (split <;> try dsimp only)

theorem execLinkDetect_keeps {P : State → Prop} (hP : Opened [.registers, .links] P) (hq : KeepsQueue P) (port : Nat)
    (s : State) (oks : P s) {t' : State} (e : execLinkDetect port s = .next t') : P t' := by
  have h1 : Opened [.links] P := hP.mono (by decide)
  unfold execLinkDetect at e
  refine keeps_ok hq e ?_
  clear e
  try dsimp only
  repeat' first
    | with_reducible assumption | (intro _; try dsimp only) | with_reducible apply keeps_ite
    | with_reducible apply State.onPort_keeps h1 | with_reducible apply State.setPst_keeps hP
    | with_reducible exact keeps_pair (by assumption) (by assumption) | (split <;> try dsimp only)

theorem execTrainingFrame_keeps {P : State → Prop} (hP : Opened [.registers, .links] P) (hq : KeepsQueue P) (port :
    Nat) (f : TrainFrame) (s : State) (oks : P s) {t' : State} (e : execTrainingFrame port f s = .next t') : P t' :=
    by
  have h1 : Opened [.links] P := hP.mono (by decide)
  have h2 : Opened [.registers] P := hP.mono (by decide)
  unfold execTrainingFrame at e
  refine keeps_ok hq e ?_
  clear e
  try dsimp only
  repeat' first
    | with_reducible assumption | (intro _; try dsimp only) | with_reducible apply keeps_ite
    | with_reducible apply State.answered_keeps h1 | with_reducible apply State.coldIf_keeps h1
    | with_reducible apply State.fset_keeps h2 | with_reducible apply State.onPort_keeps h1
    | with_reducible apply State.setPst_keeps hP | with_reducible apply State.trainFail_keeps hP
    | with_reducible exact keeps_pair (by assumption) (by assumption) | (split <;> try dsimp only)

theorem execTrainingTimeout_keeps {P : State → Prop} (hP : Opened [.registers, .links] P) (hq : KeepsQueue P) (port :
    Nat) (s : State) (oks : P s) {t' : State} (e : execTrainingTimeout port s = .next t') : P t' := by
  unfold execTrainingTimeout at e
  refine keeps_ok hq e ?_
  clear e
  try dsimp only
  repeat' first
    | with_reducible assumption | (intro _; try dsimp only) | with_reducible apply keeps_ite
    | with_reducible apply State.trainFail_keeps hP | with_reducible exact keeps_pair (by assumption) (by assumption)
    | (split <;> try dsimp only)

theorem execTrainingRetry_keeps {P : State → Prop} (hP : Opened [.registers, .links] P) (hq : KeepsQueue P) (port :
    Nat) (s : State) (oks : P s) {t' : State} (e : execTrainingRetry port s = .next t') : P t' := by
  unfold execTrainingRetry at e
  refine keeps_ok hq e ?_
  clear e
  try dsimp only
  repeat' first
    | with_reducible assumption | (intro _; try dsimp only) | with_reducible apply keeps_ite
    | with_reducible apply State.setPst_keeps hP | with_reducible exact keeps_pair (by assumption) (by assumption)
    | (split <;> try dsimp only)

theorem execLinkInit_keeps {P : State → Prop} (hP : Opened [.links] P) (hq : KeepsQueue P) (port : Nat) (s : State)
    (oks : P s) {t' : State} (e : execLinkInit port s = .next t') : P t' := by
  unfold execLinkInit at e
  refine keeps_ok hq e ?_
  clear e
  try dsimp only
  repeat' first
    | with_reducible assumption | (intro _; try dsimp only) | with_reducible apply keeps_ite
    | with_reducible apply State.onPort_keeps hP | with_reducible exact keeps_pair (by assumption) (by assumption)
    | (split <;> try dsimp only)

theorem execLinkInitAck_keeps {P : State → Prop} (hP : Opened [.registers, .vectors, .records, .links, .management] P)
    (hq : KeepsQueue P) (port : Nat) (s : State) (oks : P s) {t' : State} (e : execLinkInitAck port s = .next t') : P
    t' := by
  have h1 : Opened [.registers, .links] P := hP.mono (by decide)
  have h2 : Opened [.registers] P := hP.mono (by decide)
  have h3 : Opened [.links] P := hP.mono (by decide)
  have h4 : Opened [.registers, .vectors, .records, .management] P := hP.mono (by decide)
  unfold execLinkInitAck at e
  refine keeps_ok hq e ?_
  clear e
  try dsimp only
  repeat' first
    | with_reducible assumption | (intro _; try dsimp only) | with_reducible apply keeps_ite
    | with_reducible apply State.authStart_keeps h1 | with_reducible apply State.fset_keeps h2
    | with_reducible apply State.onPort_keeps h3 | with_reducible apply State.setPst_keeps h1
    | with_reducible apply State.widthReport_keeps h4 | with_reducible exact keeps_pair (by assumption) (by assumption)
    | (split <;> try dsimp only)

theorem execRetrainReq_keeps {P : State → Prop} (hP : Opened [.registers, .vectors, .records, .links, .management] P)
    (hq : KeepsQueue P) (port : Nat) (s : State) (oks : P s) {t' : State} (e : execRetrainReq port s = .next t') : P
    t' := by
  unfold execRetrainReq at e
  refine keeps_ok hq e ?_
  clear e
  try dsimp only
  repeat' first
    | with_reducible assumption | (intro _; try dsimp only) | with_reducible apply keeps_ite
    | with_reducible apply State.beginRetrain_keeps hP
    | with_reducible exact keeps_pair (by assumption) (by assumption) | (split <;> try dsimp only)

theorem execPortRetrain_keeps {P : State → Prop} (hP : Opened [.registers, .vectors, .records, .links, .management] P)
    (hq : KeepsQueue P) (who : Accessor) (port : Nat) (s : State) (oks : P s) {t' : State} (e : execPortRetrain who
    port s = .next t') : P t' := by
  unfold execPortRetrain at e
  refine keeps_ok hq e ?_
  clear e
  try dsimp only
  repeat' first
    | with_reducible assumption | (intro _; try dsimp only) | with_reducible apply keeps_ite
    | with_reducible apply State.beginRetrain_keeps hP
    | with_reducible exact keeps_pair (by assumption) (by assumption) | (split <;> try dsimp only)

theorem execRetrainComplete_keeps {P : State → Prop} (hP : Opened [.registers, .vectors, .records, .links,
    .management] P) (hq : KeepsQueue P) (port width lanes : Nat) (s : State) (oks : P s) {t' : State} (e :
    execRetrainComplete port width lanes s = .next t') : P t' := by
  have h1 : Opened [.registers, .vectors, .records, .management] P := hP.mono (by decide)
  have h2 : Opened [.links] P := hP.mono (by decide)
  have h3 : Opened [.registers, .links] P := hP.mono (by decide)
  unfold execRetrainComplete at e
  refine keeps_ok hq e ?_
  clear e
  try dsimp only
  repeat' first
    | with_reducible assumption | (intro _; try dsimp only) | with_reducible apply keeps_ite
    | with_reducible apply State.fabRecord_keeps h1 | with_reducible apply State.onPort_keeps h2
    | with_reducible apply State.relive_keeps hP | with_reducible apply State.setPst_keeps h3
    | with_reducible apply State.widthReport_keeps h1 | with_reducible exact keeps_pair (by assumption) (by assumption)
    | (split <;> try dsimp only)

theorem execRetrainTimeout_keeps {P : State → Prop} (hP : Opened [.registers, .vectors, .records, .links, .management]
    P) (hq : KeepsQueue P) (port : Nat) (s : State) (oks : P s) {t' : State} (e : execRetrainTimeout port s = .next
    t') : P t' := by
  have h1 : Opened [.registers, .vectors, .records, .management] P := hP.mono (by decide)
  have h2 : Opened [.registers] P := hP.mono (by decide)
  unfold execRetrainTimeout at e
  refine keeps_ok hq e ?_
  clear e
  try dsimp only
  repeat' first
    | with_reducible assumption | (intro _; try dsimp only) | with_reducible apply keeps_ite
    | with_reducible apply State.fabRecord_keeps h1 | with_reducible apply State.fset_keeps h2
    | with_reducible apply State.linkLost_keeps hP | with_reducible exact keeps_pair (by assumption) (by assumption)
    | (split <;> try dsimp only)

theorem execFecBlock_keeps {P : State → Prop} (hP : Opened [.draws, .registers, .vectors, .records, .links,
    .management] P) (hq : KeepsQueue P) (port : Nat) (marker : Bool) (symErrs : List Nat) (s : State) (oks : P s) {t'
    : State} (e : execFecBlock port marker symErrs s = .next t') : P t' := by
  have h1 : Opened [.registers, .vectors, .records, .links, .management] P := hP.mono (by decide)
  have h2 : Opened [.draws] P := hP.mono (by decide)
  have h3 : Opened [.registers] P := hP.mono (by decide)
  have h4 : Opened [.links] P := hP.mono (by decide)
  unfold execFecBlock at e
  refine keeps_ok hq e ?_
  clear e
  try dsimp only
  repeat' first
    | with_reducible assumption | (intro _; try dsimp only) | with_reducible apply keeps_ite
    | with_reducible apply State.beginRetrain_keeps h1 | with_reducible apply State.draw_keeps h2
    | with_reducible apply State.fcount_keeps h3 | with_reducible apply State.fcountN_keeps h3
    | with_reducible apply State.onPort_keeps h4 | with_reducible apply keeps_foldl | with_reducible apply keeps_foldl1
    | with_reducible exact keeps_pair (by assumption) (by assumption) | (split <;> try dsimp only)

theorem execFabTallyLeak_keeps {P : State → Prop} (hP : Opened [.registers, .links] P) (hq : KeepsQueue P) (port :
    Nat) (s : State) (oks : P s) {t' : State} (e : execFabTallyLeak port s = .next t') : P t' := by
  have h1 : Opened [.registers] P := hP.mono (by decide)
  have h2 : Opened [.links] P := hP.mono (by decide)
  unfold execFabTallyLeak at e
  refine keeps_ok hq e ?_
  clear e
  try dsimp only
  repeat' first
    | with_reducible assumption | (intro _; try dsimp only) | with_reducible apply keeps_ite
    | with_reducible apply State.fset_keeps h1 | with_reducible apply State.onPort_keeps h2
    | with_reducible exact keeps_pair (by assumption) (by assumption) | (split <;> try dsimp only)

theorem execPortQuarantine_keeps {P : State → Prop} (hP : Opened [.registers, .vectors, .records, .links, .management]
    P) (hq : KeepsQueue P) (who : Accessor) (port : Nat) (s : State) (oks : P s) {t' : State} (e : execPortQuarantine
    who port s = .next t') : P t' := by
  unfold execPortQuarantine at e
  refine keeps_ok hq e ?_
  clear e
  try dsimp only
  repeat' first
    | with_reducible assumption | (intro _; try dsimp only) | with_reducible apply keeps_ite
    | with_reducible apply State.quarantine_keeps hP | with_reducible exact keeps_pair (by assumption) (by assumption)
    | (split <;> try dsimp only)

theorem execPortRelease_keeps {P : State → Prop} (hP : Opened [.registers, .links] P) (hq : KeepsQueue P) (who :
    Accessor) (port : Nat) (s : State) (oks : P s) {t' : State} (e : execPortRelease who port s = .next t') : P t' :=
    by
  have h1 : Opened [.registers] P := hP.mono (by decide)
  have h2 : Opened [.links] P := hP.mono (by decide)
  unfold execPortRelease at e
  refine keeps_ok hq e ?_
  clear e
  try dsimp only
  repeat' first
    | with_reducible assumption | (intro _; try dsimp only) | with_reducible apply keeps_ite
    | with_reducible apply State.authStart_keeps hP | with_reducible apply State.fset_keeps h1
    | with_reducible apply State.onPort_keeps h2 | with_reducible exact keeps_pair (by assumption) (by assumption)
    | (split <;> try dsimp only)

theorem execLinkReset_keeps {P : State → Prop} (hP : Opened [.registers, .vectors, .records, .links, .management] P)
    (hq : KeepsQueue P) (port cause : Nat) (s : State) (oks : P s) {t' : State} (e : execLinkReset port cause s =
    .next t') : P t' := by
  have h1 : Opened [.registers, .links] P := hP.mono (by decide)
  have h2 : Opened [.links] P := hP.mono (by decide)
  unfold execLinkReset at e
  refine keeps_ok hq e ?_
  clear e
  try dsimp only
  repeat' first
    | with_reducible assumption | (intro _; try dsimp only) | with_reducible apply keeps_ite
    | with_reducible apply State.authStart_keeps h1 | with_reducible apply State.onPort_keeps h2
    | with_reducible apply State.relive_keeps hP | with_reducible exact keeps_pair (by assumption) (by assumption)
    | (split <;> try dsimp only)

theorem execNak_keeps {P : State → Prop} (hP : Opened [.registers, .vectors, .records, .links, .management] P) (hq :
    KeepsQueue P) (port seq : Nat) (s : State) (oks : P s) {t' : State} (e : execNak port seq s = .next t') : P t' :=
    by
  unfold execNak at e
  refine keeps_ok hq e ?_
  clear e
  try dsimp only
  repeat' first
    | with_reducible assumption | (intro _; try dsimp only) | with_reducible apply keeps_ite
    | with_reducible apply State.replayFrom_keeps hP | with_reducible exact keeps_pair (by assumption) (by assumption)
    | (split <;> try dsimp only)

theorem execReplayTimeout_keeps {P : State → Prop} (hP : Opened [.registers, .vectors, .records, .links, .management]
    P) (hq : KeepsQueue P) (port : Nat) (s : State) (oks : P s) {t' : State} (e : execReplayTimeout port s = .next t')
    : P t' := by
  unfold execReplayTimeout at e
  refine keeps_ok hq e ?_
  clear e
  try dsimp only
  repeat' first
    | with_reducible assumption | (intro _; try dsimp only) | with_reducible apply keeps_ite
    | with_reducible apply State.replayFrom_keeps hP | with_reducible exact keeps_pair (by assumption) (by assumption)
    | (split <;> try dsimp only)

theorem execIdleFlit_keeps {P : State → Prop} (hP : Opened [.registers, .vectors, .records, .links, .management] P)
    (hq : KeepsQueue P) (port : Nat) (f : Flit) (s : State) (oks : P s) {t' : State} (e : execIdleFlit port f s =
    .next t') : P t' := by
  unfold execIdleFlit at e
  refine keeps_ok hq e ?_
  clear e
  try dsimp only
  repeat' first
    | with_reducible assumption | (intro _; try dsimp only) | with_reducible apply keeps_ite
    | with_reducible apply State.flitHeader_keeps hP | with_reducible apply State.malformed_keeps hP
    | with_reducible exact keeps_pair (by assumption) (by assumption) | (split <;> try dsimp only)

theorem execNakRepeat_keeps {P : State → Prop} (hP : Opened [.links] P) (hq : KeepsQueue P) (port : Nat) (s : State)
    (oks : P s) {t' : State} (e : execNakRepeat port s = .next t') : P t' := by
  unfold execNakRepeat at e
  refine keeps_ok hq e ?_
  clear e
  try dsimp only
  repeat' first
    | with_reducible assumption | (intro _; try dsimp only) | with_reducible apply keeps_ite
    | with_reducible apply State.onPort_keeps hP | with_reducible exact keeps_pair (by assumption) (by assumption)
    | (split <;> try dsimp only)

theorem execDataFlit_keeps {P : State → Prop} (hP : Opened [.registers, .vectors, .records, .links, .management] P)
    (hq : KeepsQueue P) (port : Nat) (f : Flit) (s : State) (oks : P s) {t' : State} (e : execDataFlit port f s =
    .next t') : P t' := by
  have h1 : Opened [.links] P := hP.mono (by decide)
  unfold execDataFlit at e
  refine keeps_ok hq e ?_
  clear e
  try dsimp only
  repeat' first
    | with_reducible assumption | (intro _; try dsimp only) | with_reducible apply keeps_ite
    | with_reducible apply State.acceptFlit_keeps hP | with_reducible apply State.dropFlit_keeps hP
    | with_reducible apply State.flitHeader_keeps hP | with_reducible apply State.onPort_keeps h1
    | with_reducible apply State.sendNak_keeps h1 | with_reducible exact keeps_pair (by assumption) (by assumption)
    | (split <;> try dsimp only)

theorem execFabRateInterval_keeps {P : State → Prop} (hP : Opened [.links] P) (hq : KeepsQueue P) (port : Nat) (mgmt :
    Bool) (s : State) (oks : P s) {t' : State} (e : execFabRateInterval port mgmt s = .next t') : P t' := by
  unfold execFabRateInterval at e
  refine keeps_ok hq e ?_
  clear e
  try dsimp only
  repeat' first
    | with_reducible assumption | (intro _; try dsimp only) | with_reducible apply keeps_ite
    | with_reducible apply State.onPort_keeps hP | with_reducible exact keeps_pair (by assumption) (by assumption)
    | (split <;> try dsimp only)

theorem execFlitSlot_keeps {P : State → Prop} (hP : Opened [.links] P) (hq : KeepsQueue P) (port : Nat) (s : State)
    (oks : P s) {t' : State} (e : execFlitSlot port s = .next t') : P t' := by
  unfold execFlitSlot at e
  refine keeps_ok hq e ?_
  clear e
  try dsimp only
  repeat' first
    | with_reducible assumption | (intro _; try dsimp only) | with_reducible apply keeps_ite
    | with_reducible apply State.onPort_keeps hP | with_reducible apply State.sendData_keeps hP
    | with_reducible apply State.sendFlit_keeps hP | with_reducible exact keeps_pair (by assumption) (by assumption)
    | (split <;> try dsimp only)

theorem execHello_keeps {P : State → Prop} (hP : Opened [.registers, .vectors, .records, .links, .management] P) (hq :
    KeepsQueue P) (m : Msg) (s : State) (oks : P s) {t' : State} (e : execHello m s = .next t') : P t' := by
  have h1 : Opened [.registers, .vectors] P := hP.mono (by decide)
  have h2 : Opened [.registers, .vectors, .records, .management] P := hP.mono (by decide)
  have h3 : Opened [.registers] P := hP.mono (by decide)
  have h4 : Opened [.links] P := hP.mono (by decide)
  have h5 : Opened [.registers, .links] P := hP.mono (by decide)
  unfold execHello at e
  refine keeps_ok hq e ?_
  clear e
  try dsimp only
  repeat' first
    | with_reducible assumption | (intro _; try dsimp only) | with_reducible apply keeps_ite
    | with_reducible apply State.authCheck_keeps hP | with_reducible apply State.evt_keeps h1
    | with_reducible apply State.fabRecord_keeps h2 | with_reducible apply State.fset_keeps h3
    | with_reducible apply State.onMsg_keeps h4 | with_reducible apply State.onPort_keeps h4
    | with_reducible apply State.relive_keeps hP | with_reducible apply State.setPst_keeps h5
    | with_reducible exact keeps_pair (by assumption) (by assumption) | (split <;> try dsimp only)

theorem execHelloTimer_keeps {P : State → Prop} (hP : Opened [.links] P) (hq : KeepsQueue P) (port : Nat) (s : State)
    (oks : P s) {t' : State} (e : execHelloTimer port s = .next t') : P t' := by
  unfold execHelloTimer at e
  refine keeps_ok hq e ?_
  clear e
  try dsimp only
  repeat' first
    | with_reducible assumption | (intro _; try dsimp only) | with_reducible apply keeps_ite
    | with_reducible apply State.onPort_keeps hP | with_reducible apply State.queueOn_keeps hP
    | with_reducible exact keeps_pair (by assumption) (by assumption) | (split <;> try dsimp only)

theorem execSpdmMessage_keeps {P : State → Prop} (hP : Opened [.registers, .vectors, .records, .links, .management] P)
    (hq : KeepsQueue P) (m : Msg) (verdict : Nat) (s : State) (oks : P s) {t' : State} (e : execSpdmMessage m verdict
    s = .next t') : P t' := by
  have h1 : Opened [.registers, .vectors] P := hP.mono (by decide)
  have h2 : Opened [.links] P := hP.mono (by decide)
  unfold execSpdmMessage at e
  refine keeps_ok hq e ?_
  clear e
  try dsimp only
  repeat' first
    | with_reducible assumption | (intro _; try dsimp only) | with_reducible apply keeps_ite
    | with_reducible apply State.authCheck_keeps hP | with_reducible apply State.authFail_keeps hP
    | with_reducible apply State.evt_keeps h1 | with_reducible apply State.onMsg_keeps h2
    | with_reducible apply State.onPort_keeps h2 | with_reducible exact keeps_pair (by assumption) (by assumption)
    | (split <;> try dsimp only)

theorem execAuthTimeout_keeps {P : State → Prop} (hP : Opened [.registers, .vectors, .records, .links, .management] P)
    (hq : KeepsQueue P) (port : Nat) (s : State) (oks : P s) {t' : State} (e : execAuthTimeout port s = .next t') : P
    t' := by
  unfold execAuthTimeout at e
  refine keeps_ok hq e ?_
  clear e
  try dsimp only
  repeat' first
    | with_reducible assumption | (intro _; try dsimp only) | with_reducible apply keeps_ite
    | with_reducible apply State.authFail_keeps hP | with_reducible exact keeps_pair (by assumption) (by assumption)
    | (split <;> try dsimp only)

theorem execAuthRetry_keeps {P : State → Prop} (hP : Opened [.registers, .links] P) (hq : KeepsQueue P) (port : Nat)
    (s : State) (oks : P s) {t' : State} (e : execAuthRetry port s = .next t') : P t' := by
  unfold execAuthRetry at e
  refine keeps_ok hq e ?_
  clear e
  try dsimp only
  repeat' first
    | with_reducible assumption | (intro _; try dsimp only) | with_reducible apply keeps_ite
    | with_reducible apply State.authStart_keeps hP | with_reducible exact keeps_pair (by assumption) (by assumption)
    | (split <;> try dsimp only)

theorem execCruiseStart_keeps {P : State → Prop} (hP : Opened [.registers, .links] P) (hq : KeepsQueue P) (who :
    Accessor) (s : State) (oks : P s) {t' : State} (e : execCruiseStart who s = .next t') : P t' := by
  unfold execCruiseStart at e
  refine keeps_ok hq e ?_
  clear e
  try dsimp only
  repeat' first
    | with_reducible assumption | (intro _; try dsimp only) | with_reducible apply keeps_ite
    | with_reducible apply State.cruiseStart_keeps hP | with_reducible exact keeps_pair (by assumption) (by assumption)
    | (split <;> try dsimp only)

theorem execProbe_keeps {P : State → Prop} (hP : Opened [.links] P) (hq : KeepsQueue P) (m : Msg) (s : State) (oks : P
    s) {t' : State} (e : execProbe m s = .next t') : P t' := by
  unfold execProbe at e
  refine keeps_ok hq e ?_
  clear e
  try dsimp only
  repeat' first
    | with_reducible assumption | (intro _; try dsimp only) | with_reducible apply keeps_ite
    | with_reducible apply State.onMsg_keeps hP | with_reducible apply State.routed_keeps hP
    | with_reducible exact keeps_pair (by assumption) (by assumption)
    | (refine keeps_pair (by assumption) ?_; with_reducible apply State.routed_keeps hP) | (split <;> try dsimp only)

theorem execProbeReply_keeps {P : State → Prop} (hP : Opened [.registers, .links] P) (hq : KeepsQueue P) (m : Msg) (s
    : State) (oks : P s) {t' : State} (e : execProbeReply m s = .next t') : P t' := by
  have h1 : Opened [.links] P := hP.mono (by decide)
  have h2 : Opened [.registers] P := hP.mono (by decide)
  unfold execProbeReply at e
  refine keeps_ok hq e ?_
  clear e
  try dsimp only
  repeat' first
    | with_reducible assumption | (intro _; try dsimp only) | with_reducible apply keeps_ite
    | with_reducible apply State.onMsg_keeps h1 | with_reducible apply State.setProbe_keeps h2
    | with_reducible apply State.withProbes_keeps h1 | with_reducible exact keeps_pair (by assumption) (by assumption)
    | (split <;> try dsimp only)

theorem execProbeResend_keeps {P : State → Prop} (hP : Opened [.links] P) (hq : KeepsQueue P) (s : State) (oks : P s)
    {t' : State} (e : execProbeResend s = .next t') : P t' := by
  unfold execProbeResend at e
  refine keeps_ok hq e ?_
  clear e
  try dsimp only
  repeat' first
    | with_reducible assumption | (intro _; try dsimp only) | with_reducible apply keeps_ite
    | with_reducible apply State.queueOn_keeps hP | with_reducible apply State.withProbes_keeps hP
    | with_reducible apply keeps_foldl | with_reducible apply keeps_foldl1
    | with_reducible exact keeps_pair (by assumption) (by assumption) | (split <;> try dsimp only)

theorem execRetransmitTimeout_keeps {P : State → Prop} (hP : Opened [.registers, .vectors, .memory, .controllers,
    .answers, .records, .parts, .decks, .pages, .links, .streams, .management] P) (hq : KeepsQueue P) (hub ctx : Nat)
    (s : State) (oks : P s) {t' : State} (e : execRetransmitTimeout hub ctx s = .next t') : P t' := by
  have h1 : Opened [.registers] P := hP.mono (by decide)
  have h2 : Opened [.streams] P := hP.mono (by decide)
  have h3 : Opened [.registers, .vectors, .memory, .controllers, .answers, .records, .parts, .decks, .pages, .streams,
      .management] P := hP.mono (by decide)
  unfold execRetransmitTimeout at e
  refine keeps_ok hq e ?_
  clear e
  try dsimp only
  repeat' first
    | with_reducible assumption | (intro _; try dsimp only) | with_reducible apply keeps_ite
    | with_reducible apply State.fcount_keeps h1 | with_reducible apply State.onSctx_keeps h2
    | with_reducible apply State.resend_keeps hP | with_reducible apply State.streamFail_keeps h3
    | with_reducible exact keeps_pair (by assumption) (by assumption) | (split <;> try dsimp only)

theorem execNotReadyResend_keeps {P : State → Prop} (hP : Opened [.registers, .vectors, .memory, .controllers,
    .answers, .records, .parts, .decks, .pages, .links, .streams, .management] P) (hq : KeepsQueue P) (hub ctx : Nat)
    (s : State) (oks : P s) {t' : State} (e : execNotReadyResend hub ctx s = .next t') : P t' := by
  have h1 : Opened [.streams] P := hP.mono (by decide)
  unfold execNotReadyResend at e
  refine keeps_ok hq e ?_
  clear e
  try dsimp only
  repeat' first
    | with_reducible assumption | (intro _; try dsimp only) | with_reducible apply keeps_ite
    | with_reducible apply State.onSctx_keeps h1 | with_reducible apply State.resend_keeps hP
    | with_reducible exact keeps_pair (by assumption) (by assumption) | (split <;> try dsimp only)

theorem execNotReadyLimit_keeps {P : State → Prop} (hP : Opened [.registers, .vectors, .memory, .controllers,
    .answers, .records, .parts, .decks, .pages, .streams, .management] P) (hq : KeepsQueue P) (hub ctx : Nat) (s :
    State) (oks : P s) {t' : State} (e : execNotReadyLimit hub ctx s = .next t') : P t' := by
  unfold execNotReadyLimit at e
  refine keeps_ok hq e ?_
  clear e
  try dsimp only
  repeat' first
    | with_reducible assumption | (intro _; try dsimp only) | with_reducible apply keeps_ite
    | with_reducible apply State.streamFail_keeps hP | with_reducible exact keeps_pair (by assumption) (by assumption)
    | (split <;> try dsimp only)

theorem execKvCopy_keeps {P : State → Prop} (hP : Opened [.draws, .registers, .vectors, .memory, .controllers,
    .answers, .records, .parts, .decks, .pages, .management] P) (hq : KeepsQueue P) (part slot : Nat) (s : State) (oks
    : P s) {t' : State} (e : execKvCopy part slot s = .next t') : P t' := by
  have h1 : Opened [.registers, .vectors, .memory, .controllers, .answers, .records, .management] P := hP.mono (by
      decide)
  have h2 : Opened [.registers, .vectors, .memory, .controllers, .answers, .records, .parts, .decks, .pages,
      .management] P := hP.mono (by decide)
  have h3 : Opened [.draws, .registers, .vectors, .memory, .controllers, .answers, .records, .pages, .management] P :=
      hP.mono (by decide)
  have h4 : Opened [] P := hP.mono (by decide)
  unfold execKvCopy at e
  refine keeps_ok hq e ?_
  clear e
  try dsimp only
  repeat' first
    | with_reducible assumption | (intro _; try dsimp only) | with_reducible apply keeps_ite
    | with_reducible apply State.checkHandles_keeps h1 | with_reducible apply State.copyGo_keeps hP
    | with_reducible apply State.endPlain_keeps h2 | with_reducible apply State.openRec_keeps h3
    | with_reducible apply State.runCmd_keeps h4 | with_reducible apply State.setRecFlag_keeps h1
    | with_reducible apply State.touchRec_keeps h1 | with_reducible exact keeps_pair (by assumption) (by assumption)
    | (refine keeps_pair (by assumption) ?_; with_reducible apply State.checkHandles_keeps h1)
    | (split <;> try dsimp only)

theorem execKvDrop_keeps {P : State → Prop} (hP : Opened [.registers, .vectors, .memory, .controllers, .answers,
    .records, .parts, .decks, .pages, .management] P) (hq : KeepsQueue P) (part slot : Nat) (s : State) (oks : P s)
    {t' : State} (e : execKvDrop part slot s = .next t') : P t' := by
  have h1 : Opened [.registers, .vectors, .memory, .controllers, .answers, .records, .management] P := hP.mono (by
      decide)
  have h2 : Opened [.registers, .vectors, .memory, .controllers, .answers, .records, .pages, .management] P := hP.mono
      (by decide)
  have h3 : Opened [] P := hP.mono (by decide)
  unfold execKvDrop at e
  refine keeps_ok hq e ?_
  clear e
  try dsimp only
  repeat' first
    | with_reducible assumption | (intro _; try dsimp only) | with_reducible apply keeps_ite
    | with_reducible apply State.checkHandles_keeps h1 | with_reducible apply State.dropSess_keeps h2
    | with_reducible apply State.endPlain_keeps hP | with_reducible apply State.releaseSlot_keeps h2
    | with_reducible apply State.runCmd_keeps h3 | with_reducible exact keeps_pair (by assumption) (by assumption)
    | (refine keeps_pair (by assumption) ?_; with_reducible apply State.checkHandles_keeps h1)
    | (refine keeps_pair (by assumption) ?_; with_reducible apply State.dropSess_keeps h2)
    | (refine keeps_pair (by assumption) ?_; with_reducible apply State.releaseSlot_keeps h2)
    | (split <;> try dsimp only)

set_option maxRecDepth 4000 in
theorem execKvPark_keeps {P : State → Prop} (hP : Opened [.draws, .registers, .vectors, .memory, .controllers,
    .answers, .records, .parts, .decks, .pages, .links, .streams, .management] P) (hq : KeepsQueue P) (part slot :
    Nat) (s : State) (oks : P s) {t' : State} (e : execKvPark part slot s = .next t') : P t' := by
  have h1 : Opened [.registers, .vectors, .memory, .controllers, .answers, .records, .management] P := hP.mono (by
      decide)
  have h2 : Opened [.registers, .vectors, .memory, .controllers, .answers, .records, .parts, .decks, .pages,
      .management] P := hP.mono (by decide)
  have h3 : Opened [.registers, .vectors] P := hP.mono (by decide)
  have h4 : Opened [.decks] P := hP.mono (by decide)
  have h5 : Opened [.registers, .vectors, .memory, .controllers, .answers, .records, .parts, .decks, .pages, .links,
      .streams, .management] P := hP.mono (by decide)
  have h6 : Opened [.registers, .vectors, .memory, .controllers, .answers, .records, .pages, .management] P := hP.mono
      (by decide)
  have h7 : Opened [] P := hP.mono (by decide)
  have h8 : Opened [.draws, .registers, .vectors, .memory, .controllers, .answers, .records, .parts, .decks, .pages,
      .management] P := hP.mono (by decide)
  unfold execKvPark at e
  refine keeps_ok hq e ?_
  clear e
  try dsimp only
  repeat' first
    | with_reducible assumption | (intro _; try dsimp only) | with_reducible apply keeps_ite
    | with_reducible apply State.checkHandles_keeps h1 | with_reducible apply State.endPlain_keeps h2
    | with_reducible apply State.engRefuse_keeps h3 | with_reducible apply State.onExec_keeps h4
    | with_reducible apply State.parkDone_keeps h2 | with_reducible apply State.parkStream_keeps h5
    | with_reducible apply State.parkTake_keeps h6 | with_reducible apply State.putImage_keeps h1
    | with_reducible apply State.runCmd_keeps h7 | with_reducible apply State.sendRefused_keeps h8
    | with_reducible exact keeps_pair (by assumption) (by assumption)
    | (refine keeps_pair (by assumption) ?_; with_reducible apply State.checkHandles_keeps h1)
    | (refine keeps_pair (by assumption) ?_; with_reducible apply State.parkTake_keeps h6) | (split <;> try dsimp only)

set_option maxRecDepth 4000 in
theorem execKvUnpark_keeps {P : State → Prop} (hP : Opened [.draws, .registers, .vectors, .memory, .controllers,
    .answers, .records, .parts, .decks, .pages, .links, .streams, .management] P) (hq : KeepsQueue P) (part slot :
    Nat) (s : State) (oks : P s) {t' : State} (e : execKvUnpark part slot s = .next t') : P t' := by
  have h1 : Opened [.registers, .vectors, .memory, .controllers, .answers, .records, .management] P := hP.mono (by
      decide)
  have h2 : Opened [.registers, .vectors, .memory, .controllers, .answers, .records, .parts, .decks, .pages,
      .management] P := hP.mono (by decide)
  have h3 : Opened [.decks] P := hP.mono (by decide)
  have h4 : Opened [] P := hP.mono (by decide)
  have h5 : Opened [.draws, .registers, .vectors, .memory, .controllers, .answers, .records, .parts, .decks, .pages,
      .management] P := hP.mono (by decide)
  have h6 : Opened [.registers, .vectors, .memory, .controllers, .answers, .records, .parts, .decks, .pages, .links,
      .streams, .management] P := hP.mono (by decide)
  unfold execKvUnpark at e
  refine keeps_ok hq e ?_
  clear e
  try dsimp only
  repeat' first
    | with_reducible assumption | (intro _; try dsimp only) | with_reducible apply keeps_ite
    | with_reducible apply State.checkHandles_keeps h1 | with_reducible apply State.endPlain_keeps h2
    | with_reducible apply State.onExec_keeps h3 | with_reducible apply State.runCmd_keeps h4
    | with_reducible apply State.sendRefused_keeps h5 | with_reducible apply State.unparkHost_keeps h2
    | with_reducible apply State.unparkStream_keeps h6
    | with_reducible exact keeps_pair (by assumption) (by assumption)
    | (refine keeps_pair (by assumption) ?_; with_reducible apply State.checkHandles_keeps h1)
    | (split <;> try dsimp only)

theorem execWeightLoad_keeps {P : State → Prop} (hP : Opened [.registers, .vectors, .memory, .controllers, .answers,
    .records, .parts, .decks, .pages, .management] P) (hq : KeepsQueue P) (part slot : Nat) (s : State) (oks : P s)
    {t' : State} (e : execWeightLoad part slot s = .next t') : P t' := by
  have h1 : Opened [.registers, .vectors, .memory, .controllers, .answers, .records, .management] P := hP.mono (by
      decide)
  have h2 : Opened [] P := hP.mono (by decide)
  have h3 : Opened [.registers, .vectors] P := hP.mono (by decide)
  unfold execWeightLoad at e
  refine keeps_ok hq e ?_
  clear e
  try dsimp only
  repeat' first
    | with_reducible assumption | (intro _; try dsimp only) | with_reducible apply keeps_ite
    | with_reducible apply State.endPlain_keeps hP | with_reducible apply State.engTouch_keeps h1
    | with_reducible apply State.loadWords_keeps h1 | with_reducible apply State.runCmd_keeps h2
    | with_reducible exact keeps_pair (by assumption) (by assumption)
    | (refine State.engGet_keeps h3 ?_ (by assumption)) | (split <;> try dsimp only)

theorem execFence_keeps {P : State → Prop} (hP : Opened [.registers, .vectors, .memory, .controllers, .answers,
    .records, .parts, .decks, .pages, .management] P) (hq : KeepsQueue P) (part slot : Nat) (s : State) (oks : P s)
    {t' : State} (e : execFence part slot s = .next t') : P t' := by
  have h1 : Opened [] P := hP.mono (by decide)
  unfold execFence at e
  refine keeps_ok hq e ?_
  clear e
  try dsimp only
  repeat' first
    | with_reducible assumption | (intro _; try dsimp only) | with_reducible apply keeps_ite
    | with_reducible apply State.endPlain_keeps hP | with_reducible apply State.runCmd_keeps h1
    | with_reducible exact keeps_pair (by assumption) (by assumption) | (split <;> try dsimp only)

theorem execEventSignal_keeps {P : State → Prop} (hP : Opened [.registers, .vectors, .memory, .controllers, .answers,
    .records, .parts, .decks, .pages, .management] P) (hq : KeepsQueue P) (part slot : Nat) (s : State) (oks : P s)
    {t' : State} (e : execEventSignal part slot s = .next t') : P t' := by
  have h1 : Opened [.parts] P := hP.mono (by decide)
  have h2 : Opened [] P := hP.mono (by decide)
  unfold execEventSignal at e
  refine keeps_ok hq e ?_
  clear e
  try dsimp only
  repeat' first
    | with_reducible assumption | (intro _; try dsimp only) | with_reducible apply keeps_ite
    | with_reducible apply State.endPlain_keeps hP | with_reducible apply State.evtAdd_keeps h1
    | with_reducible apply State.runCmd_keeps h2 | with_reducible exact keeps_pair (by assumption) (by assumption)
    | (split <;> try dsimp only)

theorem execEventWait_keeps {P : State → Prop} (hP : Opened [.registers, .vectors, .memory, .controllers, .answers,
    .records, .parts, .decks, .pages, .management] P) (hq : KeepsQueue P) (part slot : Nat) (s : State) (oks : P s)
    {t' : State} (e : execEventWait part slot s = .next t') : P t' := by
  have h1 : Opened [.decks] P := hP.mono (by decide)
  have h2 : Opened [] P := hP.mono (by decide)
  unfold execEventWait at e
  refine keeps_ok hq e ?_
  clear e
  try dsimp only
  repeat' first
    | with_reducible assumption | (intro _; try dsimp only) | with_reducible apply keeps_ite
    | with_reducible apply State.endPlain_keeps hP | with_reducible apply State.onExec_keeps h1
    | with_reducible apply State.runCmd_keeps h2 | with_reducible exact keeps_pair (by assumption) (by assumption)
    | (split <;> try dsimp only)

theorem execEventWaitSatisfied_keeps {P : State → Prop} (hP : Opened [.registers, .vectors, .memory, .controllers,
    .answers, .records, .parts, .decks, .pages, .management] P) (hq : KeepsQueue P) (part slot : Nat) (s : State) (oks
    : P s) {t' : State} (e : execEventWaitSatisfied part slot s = .next t') : P t' := by
  have h1 : Opened [] P := hP.mono (by decide)
  unfold execEventWaitSatisfied at e
  refine keeps_ok hq e ?_
  clear e
  try dsimp only
  repeat' first
    | with_reducible assumption | (intro _; try dsimp only) | with_reducible apply keeps_ite
    | with_reducible apply State.endPlain_keeps hP | with_reducible apply State.waitingCmd_keeps h1
    | with_reducible exact keeps_pair (by assumption) (by assumption) | (split <;> try dsimp only)

theorem execTimer_keeps {P : State → Prop} (hP : Opened [.registers, .vectors, .memory, .controllers, .answers,
    .records, .parts, .decks, .pages, .management] P) (hq : KeepsQueue P) (part slot : Nat) (s : State) (oks : P s)
    {t' : State} (e : execTimer part slot s = .next t') : P t' := by
  have h1 : Opened [.decks] P := hP.mono (by decide)
  have h2 : Opened [] P := hP.mono (by decide)
  unfold execTimer at e
  refine keeps_ok hq e ?_
  clear e
  try dsimp only
  repeat' first
    | with_reducible assumption | (intro _; try dsimp only) | with_reducible apply keeps_ite
    | with_reducible apply State.endPlain_keeps hP | with_reducible apply State.onExec_keeps h1
    | with_reducible apply State.runCmd_keeps h2 | with_reducible exact keeps_pair (by assumption) (by assumption)
    | (split <;> try dsimp only)

theorem execTimerExpiry_keeps {P : State → Prop} (hP : Opened [.registers, .vectors, .memory, .controllers, .answers,
    .records, .parts, .decks, .pages, .management] P) (hq : KeepsQueue P) (part slot : Nat) (s : State) (oks : P s)
    {t' : State} (e : execTimerExpiry part slot s = .next t') : P t' := by
  have h1 : Opened [] P := hP.mono (by decide)
  unfold execTimerExpiry at e
  refine keeps_ok hq e ?_
  clear e
  try dsimp only
  repeat' first
    | with_reducible assumption | (intro _; try dsimp only) | with_reducible apply keeps_ite
    | with_reducible apply State.endPlain_keeps hP | with_reducible apply State.waitingCmd_keeps h1
    | with_reducible exact keeps_pair (by assumption) (by assumption) | (split <;> try dsimp only)

theorem execReservationRetry_keeps {P : State → Prop} (hP : Opened [.draws, .registers, .vectors, .memory,
    .controllers, .answers, .records, .parts, .decks, .pages, .management] P) (hq : KeepsQueue P) (part : Nat) (s :
    State) (oks : P s) {t' : State} (e : execReservationRetry part s = .next t') : P t' := by
  have h1 : Opened [.registers, .vectors, .memory, .controllers, .answers, .records, .parts, .decks, .pages,
      .management] P := hP.mono (by decide)
  unfold execReservationRetry at e
  refine keeps_ok hq e ?_
  clear e
  try dsimp only
  repeat' first
    | with_reducible assumption | (intro _; try dsimp only) | with_reducible apply keeps_ite
    | with_reducible apply State.copyGo_keeps hP | with_reducible apply State.regrowNext_keeps h1
    | with_reducible apply State.reserveGo_keeps h1 | with_reducible apply State.unparkGo_keeps h1
    | with_reducible apply State.unparkHost_keeps h1 | with_reducible exact keeps_pair (by assumption) (by assumption)
    | (split <;> try dsimp only)

theorem execFabricSend_keeps {P : State → Prop} (hP : Opened [.draws, .registers, .vectors, .memory, .controllers,
    .answers, .records, .parts, .decks, .pages, .links, .streams, .management] P) (hq : KeepsQueue P) (part slot :
    Nat) (s : State) (oks : P s) {t' : State} (e : execFabricSend part slot s = .next t') : P t' := by
  have h1 : Opened [.decks] P := hP.mono (by decide)
  have h2 : Opened [] P := hP.mono (by decide)
  have h3 : Opened [.draws, .registers, .vectors, .memory, .controllers, .answers, .records, .parts, .decks, .pages,
      .management] P := hP.mono (by decide)
  have h4 : Opened [.registers, .vectors, .memory, .controllers, .answers, .records, .parts, .decks, .pages, .links,
      .streams, .management] P := hP.mono (by decide)
  unfold execFabricSend at e
  refine keeps_ok hq e ?_
  clear e
  try dsimp only
  repeat' first
    | with_reducible assumption | (intro _; try dsimp only) | with_reducible apply keeps_ite
    | with_reducible apply State.onExec_keeps h1 | with_reducible apply State.runSend_keeps h2
    | with_reducible apply State.sendRefused_keeps h3 | with_reducible apply State.sendStream_keeps h4
    | with_reducible exact keeps_pair (by assumption) (by assumption) | (split <;> try dsimp only)

theorem execSendContextGrant_keeps {P : State → Prop} (hP : Opened [.registers, .vectors, .memory, .controllers,
    .answers, .records, .parts, .decks, .pages, .links, .streams, .management] P) (hq : KeepsQueue P) (part slot :
    Nat) (s : State) (oks : P s) {t' : State} (e : execSendContextGrant part slot s = .next t') : P t' := by
  unfold execSendContextGrant at e
  refine keeps_ok hq e ?_
  clear e
  try dsimp only
  repeat' first
    | with_reducible assumption | (intro _; try dsimp only) | with_reducible apply keeps_ite
    | with_reducible apply State.parkHdrStream_keeps hP | with_reducible apply State.parkStream_keeps hP
    | with_reducible apply State.sendStream_keeps hP | with_reducible apply State.unparkStream_keeps hP
    | with_reducible exact keeps_pair (by assumption) (by assumption) | (split <;> try dsimp only)

theorem execResponse_keeps {P : State → Prop} (hP : Opened [.registers, .vectors, .memory, .controllers, .answers,
    .records, .parts, .decks, .pages, .links, .streams, .management] P) (hq : KeepsQueue P) (m : Msg) (s : State) (oks
    : P s) {t' : State} (e : execResponse m s = .next t') : P t' := by
  have h1 : Opened [.registers, .vectors] P := hP.mono (by decide)
  have h2 : Opened [.registers] P := hP.mono (by decide)
  have h3 : Opened [.links] P := hP.mono (by decide)
  have h4 : Opened [.streams] P := hP.mono (by decide)
  have h5 : Opened [.registers, .vectors, .memory, .controllers, .answers, .records, .parts, .decks, .pages, .streams,
      .management] P := hP.mono (by decide)
  unfold execResponse at e
  refine keeps_ok hq e ?_
  clear e
  try dsimp only
  repeat' first
    | with_reducible assumption | (intro _; try dsimp only) | with_reducible apply keeps_ite
    | with_reducible apply State.acked_keeps hP | with_reducible apply State.evt_keeps h1
    | with_reducible apply State.fcount_keeps h2 | with_reducible apply State.onMsg_keeps h3
    | with_reducible apply State.onSctx_keeps h4 | with_reducible apply State.reopen_keeps hP
    | with_reducible apply State.streamFail_keeps h5 | with_reducible exact keeps_pair (by assumption) (by assumption)
    | (split <;> try dsimp only)

theorem execRemoteWrite_keeps {P : State → Prop} (hP : Opened [.registers, .vectors, .memory, .controllers, .answers,
    .records, .regulation, .links, .streams, .management] P) (hq : KeepsQueue P) (m : Msg) (s : State) (oks : P s) {t'
    : State} (e : execRemoteWrite m s = .next t') : P t' := by
  have h1 : Opened [.registers, .links, .streams] P := hP.mono (by decide)
  have h2 : Opened [.registers, .vectors, .memory, .controllers, .answers, .records, .regulation, .management] P :=
      hP.mono (by decide)
  unfold execRemoteWrite at e
  refine keeps_ok hq e ?_
  clear e
  try dsimp only
  repeat' first
    | with_reducible assumption | (intro _; try dsimp only) | with_reducible apply keeps_ite
    | with_reducible apply State.receive_keeps h1 | with_reducible exact keeps_pair (by assumption) (by assumption)
    | (refine State.applyWrite_keeps h2 ?_ (by assumption)) | (split <;> try dsimp only)

theorem execRemoteReduce_keeps {P : State → Prop} (hP : Opened [.registers, .vectors, .memory, .controllers, .answers,
    .records, .regulation, .links, .streams, .management] P) (hq : KeepsQueue P) (m : Msg) (s : State) (oks : P s) {t'
    : State} (e : execRemoteReduce m s = .next t') : P t' := by
  have h1 : Opened [.registers, .links, .streams] P := hP.mono (by decide)
  have h2 : Opened [.registers, .vectors, .memory, .controllers, .answers, .records, .regulation, .management] P :=
      hP.mono (by decide)
  unfold execRemoteReduce at e
  refine keeps_ok hq e ?_
  clear e
  try dsimp only
  repeat' first
    | with_reducible assumption | (intro _; try dsimp only) | with_reducible apply keeps_ite
    | with_reducible apply State.receive_keeps h1 | with_reducible exact keeps_pair (by assumption) (by assumption)
    | (refine State.applyReduce_keeps h2 ?_ (by assumption)) | (split <;> try dsimp only)

theorem execKvPageWrite_keeps {P : State → Prop} (hP : Opened [.registers, .vectors, .memory, .controllers, .answers,
    .records, .regulation, .links, .streams, .management] P) (hq : KeepsQueue P) (m : Msg) (s : State) (oks : P s) {t'
    : State} (e : execKvPageWrite m s = .next t') : P t' := by
  have h1 : Opened [.registers, .links, .streams] P := hP.mono (by decide)
  have h2 : Opened [.registers, .vectors, .memory, .controllers, .answers, .records, .regulation, .management] P :=
      hP.mono (by decide)
  unfold execKvPageWrite at e
  refine keeps_ok hq e ?_
  clear e
  try dsimp only
  repeat' first
    | with_reducible assumption | (intro _; try dsimp only) | with_reducible apply keeps_ite
    | with_reducible apply State.receive_keeps h1 | with_reducible exact keeps_pair (by assumption) (by assumption)
    | (refine State.applyWrite_keeps h2 ?_ (by assumption)) | (split <;> try dsimp only)

theorem execKvPageReadReq_keeps {P : State → Prop} (hP : Opened [.registers, .vectors, .memory, .controllers,
    .answers, .records, .links, .streams, .management] P) (hq : KeepsQueue P) (m : Msg) (s : State) (oks : P s) {t' :
    State} (e : execKvPageReadReq m s = .next t') : P t' := by
  have h1 : Opened [.registers, .links, .streams] P := hP.mono (by decide)
  have h2 : Opened [.registers, .vectors, .memory, .controllers, .answers, .records, .links, .management] P := hP.mono
      (by decide)
  unfold execKvPageReadReq at e
  refine keeps_ok hq e ?_
  clear e
  try dsimp only
  repeat' first
    | with_reducible assumption | (intro _; try dsimp only) | with_reducible apply keeps_ite
    | with_reducible apply State.receive_keeps h1 | with_reducible exact keeps_pair (by assumption) (by assumption)
    | (refine State.applyRead_keeps h2 ?_ (by assumption)) | (split <;> try dsimp only)

theorem execKvPageReadData_keeps {P : State → Prop} (hP : Opened [.registers, .vectors, .memory, .controllers,
    .answers, .records, .parts, .decks, .pages, .links, .streams, .management] P) (hq : KeepsQueue P) (m : Msg) (s :
    State) (oks : P s) {t' : State} (e : execKvPageReadData m s = .next t') : P t' := by
  have h1 : Opened [.decks] P := hP.mono (by decide)
  have h2 : Opened [.registers, .vectors, .memory, .controllers, .answers, .records, .parts, .decks, .pages, .streams,
      .management] P := hP.mono (by decide)
  have h3 : Opened [.links] P := hP.mono (by decide)
  unfold execKvPageReadData at e
  refine keeps_ok hq e ?_
  clear e
  try dsimp only
  repeat' first
    | with_reducible assumption | (intro _; try dsimp only) | with_reducible apply keeps_ite
    | with_reducible apply State.acked_keeps hP | with_reducible apply State.onExec_keeps h1
    | with_reducible apply State.streamFail_keeps h2 | with_reducible apply State.takeMsg_keeps h3
    | with_reducible exact keeps_pair (by assumption) (by assumption) | (split <;> try dsimp only)

theorem execTokenFwd_keeps {P : State → Prop} (hP : Opened [.registers, .vectors, .memory, .controllers, .answers,
    .records, .parts, .regulation, .links, .streams, .management] P) (hq : KeepsQueue P) (m : Msg) (s : State) (oks :
    P s) {t' : State} (e : execTokenFwd m s = .next t') : P t' := by
  have h1 : Opened [.registers, .links, .streams] P := hP.mono (by decide)
  have h2 : Opened [.registers, .vectors, .memory, .controllers, .answers, .records, .parts, .regulation, .management]
      P := hP.mono (by decide)
  unfold execTokenFwd at e
  refine keeps_ok hq e ?_
  clear e
  try dsimp only
  repeat' first
    | with_reducible assumption | (intro _; try dsimp only) | with_reducible apply keeps_ite
    | with_reducible apply State.receive_keeps h1 | with_reducible exact keeps_pair (by assumption) (by assumption)
    | (refine State.applyForward_keeps h2 ?_ (by assumption)) | (split <;> try dsimp only)

theorem execStream_keeps {P : State → Prop} (hP : Opened [.registers, .vectors, .memory, .controllers, .answers,
    .records, .parts, .regulation, .links, .streams, .management] P) (hq : KeepsQueue P) (m : Msg) (s : State) (oks :
    P s) {t' : State} (e : execStream m s = .next t') : P t' := by
  have h1 : Opened [.registers, .links, .streams] P := hP.mono (by decide)
  have h2 : Opened [.registers, .vectors, .memory, .controllers, .answers, .records, .parts, .regulation, .management]
      P := hP.mono (by decide)
  unfold execStream at e
  refine keeps_ok hq e ?_
  clear e
  try dsimp only
  repeat' first
    | with_reducible assumption | (intro _; try dsimp only) | with_reducible apply keeps_ite
    | with_reducible apply State.receive_keeps h1 | with_reducible exact keeps_pair (by assumption) (by assumption)
    | (refine State.applyForward_keeps h2 ?_ (by assumption)) | (split <;> try dsimp only)

theorem execRecvContextClose_keeps {P : State → Prop} (hP : Opened [.streams] P) (hq : KeepsQueue P) (hub ctx : Nat)
    (s : State) (oks : P s) {t' : State} (e : execRecvContextClose hub ctx s = .next t') : P t' := by
  unfold execRecvContextClose at e
  refine keeps_ok hq e ?_
  clear e
  try dsimp only
  repeat' first
    | with_reducible assumption | (intro _; try dsimp only) | with_reducible apply keeps_ite
    | with_reducible apply State.withRecvCtx_keeps hP | with_reducible exact keeps_pair (by assumption) (by assumption)
    | (split <;> try dsimp only)

theorem execTimeSyncPeriod_keeps {P : State → Prop} (hP : Opened [.links, .streams] P) (hq : KeepsQueue P) (s : State)
    (oks : P s) {t' : State} (e : execTimeSyncPeriod s = .next t') : P t' := by
  have h1 : Opened [.links] P := hP.mono (by decide)
  have h2 : Opened [.streams] P := hP.mono (by decide)
  unfold execTimeSyncPeriod at e
  refine keeps_ok hq e ?_
  clear e
  try dsimp only
  repeat' first
    | with_reducible assumption | (intro _; try dsimp only) | with_reducible apply keeps_ite
    | with_reducible apply State.routed_keeps h1 | with_reducible apply State.withSyncAt_keeps h2
    | with_reducible exact keeps_pair (by assumption) (by assumption)
    | (refine keeps_pair (by assumption) ?_; with_reducible apply State.routed_keeps h1) | (split <;> try dsimp only)

theorem execTimeReq_keeps {P : State → Prop} (hP : Opened [.links] P) (hq : KeepsQueue P) (m : Msg) (s : State) (oks :
    P s) {t' : State} (e : execTimeReq m s = .next t') : P t' := by
  unfold execTimeReq at e
  refine keeps_ok hq e ?_
  clear e
  try dsimp only
  repeat' first
    | with_reducible assumption | (intro _; try dsimp only) | with_reducible apply keeps_ite
    | with_reducible apply State.onMsg_keeps hP | with_reducible apply State.routed_keeps hP
    | with_reducible exact keeps_pair (by assumption) (by assumption)
    | (refine keeps_pair (by assumption) ?_; with_reducible apply State.routed_keeps hP) | (split <;> try dsimp only)

theorem execTimeResp_keeps {P : State → Prop} (hP : Opened [.clock, .registers, .vectors, .records, .links, .power,
    .management] P) (hq : KeepsQueue P) (m : Msg) (s : State) (oks : P s) {t' : State} (e : execTimeResp m s = .next
    t') : P t' := by
  have h1 : Opened [.registers, .vectors] P := hP.mono (by decide)
  have h2 : Opened [.registers] P := hP.mono (by decide)
  have h3 : Opened [.links] P := hP.mono (by decide)
  have h4 : Opened [.registers, .vectors, .records, .management] P := hP.mono (by decide)
  have h5 : Opened [.power] P := hP.mono (by decide)
  have h6 : Opened [.clock] P := hP.mono (by decide)
  unfold execTimeResp at e
  refine keeps_ok hq e ?_
  clear e
  try dsimp only
  repeat' first
    | with_reducible assumption | (intro _; try dsimp only) | with_reducible apply keeps_ite
    | with_reducible apply State.evt_keeps h1 | with_reducible apply State.fset_keeps h2
    | with_reducible apply State.onMsg_keeps h3 | with_reducible apply State.record_keeps h4
    | with_reducible apply State.withSlew_keeps h5 | with_reducible apply State.withStepped_keeps h5
    | with_reducible apply State.withTime_keeps h6 | with_reducible exact keeps_pair (by assumption) (by assumption)
    | (split <;> try dsimp only)

theorem execBarrier_keeps {P : State → Prop} (hP : Opened [.draws, .registers, .vectors, .memory, .controllers,
    .answers, .records, .parts, .decks, .pages, .links, .tree, .management] P) (hq : KeepsQueue P) (part slot : Nat)
    (s : State) (oks : P s) {t' : State} (e : execBarrier part slot s = .next t') : P t' := by
  have h1 : Opened [] P := hP.mono (by decide)
  unfold execBarrier at e
  refine keeps_ok hq e ?_
  clear e
  try dsimp only
  repeat' first
    | with_reducible assumption | (intro _; try dsimp only) | with_reducible apply keeps_ite
    | with_reducible apply State.gopArrive_keeps hP | with_reducible apply State.runSend_keeps h1
    | with_reducible exact keeps_pair (by assumption) (by assumption) | (split <;> try dsimp only)

theorem execSnapshot_keeps {P : State → Prop} (hP : Opened [.draws, .registers, .vectors, .memory, .controllers,
    .answers, .records, .parts, .decks, .pages, .links, .tree, .management] P) (hq : KeepsQueue P) (part slot : Nat)
    (s : State) (oks : P s) {t' : State} (e : execSnapshot part slot s = .next t') : P t' := by
  have h1 : Opened [] P := hP.mono (by decide)
  unfold execSnapshot at e
  refine keeps_ok hq e ?_
  clear e
  try dsimp only
  repeat' first
    | with_reducible assumption | (intro _; try dsimp only) | with_reducible apply keeps_ite
    | with_reducible apply State.gopArrive_keeps hP | with_reducible apply State.runSend_keeps h1
    | with_reducible exact keeps_pair (by assumption) (by assumption) | (split <;> try dsimp only)

theorem execBarUp_keeps {P : State → Prop} (hP : Opened [.registers, .vectors, .memory, .controllers, .answers,
    .records, .parts, .decks, .pages, .links, .tree, .management] P) (hq : KeepsQueue P) (m : Msg) (s : State) (oks :
    P s) {t' : State} (e : execBarUp m s = .next t') : P t' := by
  have h1 : Opened [.registers, .links] P := hP.mono (by decide)
  have h2 : Opened [.tree] P := hP.mono (by decide)
  unfold execBarUp at e
  refine keeps_ok hq e ?_
  clear e
  try dsimp only
  repeat' first
    | with_reducible assumption | (intro _; try dsimp only) | with_reducible apply keeps_ite
    | with_reducible apply State.barTry_keeps hP | with_reducible apply State.fromChild_keeps h1
    | with_reducible apply State.onTree_keeps h2 | with_reducible exact keeps_pair (by assumption) (by assumption)
    | (split <;> try dsimp only)

theorem execBarDown_keeps {P : State → Prop} (hP : Opened [.registers, .vectors, .memory, .controllers, .answers,
    .records, .parts, .decks, .pages, .links, .tree, .management] P) (hq : KeepsQueue P) (m : Msg) (s : State) (oks :
    P s) {t' : State} (e : execBarDown m s = .next t') : P t' := by
  have h1 : Opened [.registers, .links] P := hP.mono (by decide)
  unfold execBarDown at e
  refine keeps_ok hq e ?_
  clear e
  try dsimp only
  repeat' first
    | with_reducible assumption | (intro _; try dsimp only) | with_reducible apply keeps_ite
    | with_reducible apply State.barDown_keeps hP | with_reducible apply State.barTry_keeps hP
    | with_reducible apply State.fromParent_keeps h1 | with_reducible exact keeps_pair (by assumption) (by assumption)
    | (split <;> try dsimp only)

theorem execBroadcast_keeps {P : State → Prop} (hP : Opened [.registers, .vectors, .memory, .controllers, .answers,
    .records, .parts, .decks, .pages, .regulation, .links, .tree, .management] P) (hq : KeepsQueue P) (part slot :
    Nat) (s : State) (oks : P s) {t' : State} (e : execBroadcast part slot s = .next t') : P t' := by
  have h1 : Opened [.registers, .vectors, .memory, .controllers, .answers, .records, .parts, .decks, .pages,
      .management] P := hP.mono (by decide)
  have h2 : Opened [.registers, .vectors, .memory, .controllers, .answers, .records, .management] P := hP.mono (by
      decide)
  have h3 : Opened [.decks] P := hP.mono (by decide)
  have h4 : Opened [.tree] P := hP.mono (by decide)
  have h5 : Opened [] P := hP.mono (by decide)
  have h6 : Opened [.registers, .vectors] P := hP.mono (by decide)
  unfold execBroadcast at e
  refine keeps_ok hq e ?_
  clear e
  try dsimp only
  repeat' first
    | with_reducible assumption | (intro _; try dsimp only) | with_reducible apply keeps_ite
    | with_reducible apply State.castUp_keeps hP | with_reducible apply State.endPlain_keeps h1
    | with_reducible apply State.engTouch_keeps h2 | with_reducible apply State.onExec_keeps h3
    | with_reducible apply State.onTree_keeps h4 | with_reducible apply State.runSend_keeps h5
    | with_reducible exact keeps_pair (by assumption) (by assumption)
    | (refine State.engGet_keeps h6 ?_ (by assumption)) | (split <;> try dsimp only)

theorem execBcastUp_keeps {P : State → Prop} (hP : Opened [.registers, .vectors, .memory, .controllers, .answers,
    .records, .parts, .decks, .pages, .regulation, .links, .tree, .management] P) (hq : KeepsQueue P) (m : Msg) (s :
    State) (oks : P s) {t' : State} (e : execBcastUp m s = .next t') : P t' := by
  have h1 : Opened [.registers, .links] P := hP.mono (by decide)
  unfold execBcastUp at e
  refine keeps_ok hq e ?_
  clear e
  try dsimp only
  repeat' first
    | with_reducible assumption | (intro _; try dsimp only) | with_reducible apply keeps_ite
    | with_reducible apply State.castUp_keeps hP | with_reducible apply State.fromChild_keeps h1
    | with_reducible exact keeps_pair (by assumption) (by assumption) | (split <;> try dsimp only)

theorem execBcastDown_keeps {P : State → Prop} (hP : Opened [.registers, .vectors, .memory, .controllers, .answers,
    .records, .parts, .decks, .pages, .regulation, .links, .tree, .management] P) (hq : KeepsQueue P) (m : Msg) (s :
    State) (oks : P s) {t' : State} (e : execBcastDown m s = .next t') : P t' := by
  have h1 : Opened [.registers, .links] P := hP.mono (by decide)
  unfold execBcastDown at e
  refine keeps_ok hq e ?_
  clear e
  try dsimp only
  repeat' first
    | with_reducible assumption | (intro _; try dsimp only) | with_reducible apply keeps_ite
    | with_reducible apply State.castDown_keeps hP | with_reducible apply State.fromParent_keeps h1
    | with_reducible exact keeps_pair (by assumption) (by assumption) | (split <;> try dsimp only)

theorem execSnapshotDrained_keeps {P : State → Prop} (hP : Opened [.registers, .vectors, .memory, .controllers,
    .answers, .records, .parts, .decks, .pages, .links, .tree, .management] P) (hq : KeepsQueue P) (s : State) (oks :
    P s) {t' : State} (e : execSnapshotDrained s = .next t') : P t' := by
  have h1 : Opened [.tree] P := hP.mono (by decide)
  unfold execSnapshotDrained at e
  refine keeps_ok hq e ?_
  clear e
  try dsimp only
  repeat' first
    | with_reducible assumption | (intro _; try dsimp only) | with_reducible apply keeps_ite
    | with_reducible apply State.onTree_keeps h1 | with_reducible apply State.snapTry_keeps hP
    | with_reducible exact keeps_pair (by assumption) (by assumption) | (split <;> try dsimp only)

theorem execSnapUp_keeps {P : State → Prop} (hP : Opened [.registers, .vectors, .memory, .controllers, .answers,
    .records, .parts, .decks, .pages, .links, .tree, .management] P) (hq : KeepsQueue P) (m : Msg) (s : State) (oks :
    P s) {t' : State} (e : execSnapUp m s = .next t') : P t' := by
  have h1 : Opened [.registers, .links] P := hP.mono (by decide)
  have h2 : Opened [.tree] P := hP.mono (by decide)
  unfold execSnapUp at e
  refine keeps_ok hq e ?_
  clear e
  try dsimp only
  repeat' first
    | with_reducible assumption | (intro _; try dsimp only) | with_reducible apply keeps_ite
    | with_reducible apply State.fromChild_keeps h1 | with_reducible apply State.onTree_keeps h2
    | with_reducible apply State.snapTry_keeps hP | with_reducible exact keeps_pair (by assumption) (by assumption)
    | (split <;> try dsimp only)

theorem execSnapMarker_keeps {P : State → Prop} (hP : Opened [.registers, .vectors, .memory, .controllers, .answers,
    .records, .parts, .decks, .pages, .links, .tree, .management] P) (hq : KeepsQueue P) (m : Msg) (s : State) (oks :
    P s) {t' : State} (e : execSnapMarker m s = .next t') : P t' := by
  have h1 : Opened [.registers, .links] P := hP.mono (by decide)
  unfold execSnapMarker at e
  refine keeps_ok hq e ?_
  clear e
  try dsimp only
  repeat' first
    | with_reducible assumption | (intro _; try dsimp only) | with_reducible apply keeps_ite
    | with_reducible apply State.fromParent_keeps h1 | with_reducible apply State.snapMarker_keeps hP
    | with_reducible exact keeps_pair (by assumption) (by assumption) | (split <;> try dsimp only)

theorem execSnapshotResume_keeps {P : State → Prop} (hP : Opened [.registers, .tree] P) (hq : KeepsQueue P) (who :
    Accessor) (s : State) (oks : P s) {t' : State} (e : execSnapshotResume who s = .next t') : P t' := by
  unfold execSnapshotResume at e
  refine keeps_ok hq e ?_
  clear e
  try dsimp only
  repeat' first
    | with_reducible assumption | (intro _; try dsimp only) | with_reducible apply keeps_ite
    | with_reducible apply State.snapResume_keeps hP | with_reducible exact keeps_pair (by assumption) (by assumption)
    | (split <;> try dsimp only)

theorem execGopTimeout_keeps {P : State → Prop} (hP : Opened [.registers, .vectors, .memory, .controllers, .answers,
    .records, .parts, .decks, .pages, .links, .tree, .management] P) (hq : KeepsQueue P) (child : Nat) (s : State)
    (oks : P s) {t' : State} (e : execGopTimeout child s = .next t') : P t' := by
  have h1 : Opened [.registers] P := hP.mono (by decide)
  have h2 : Opened [.tree] P := hP.mono (by decide)
  have h3 : Opened [.links] P := hP.mono (by decide)
  unfold execGopTimeout at e
  refine keeps_ok hq e ?_
  clear e
  try dsimp only
  repeat' first
    | with_reducible assumption | (intro _; try dsimp only) | with_reducible apply keeps_ite
    | with_reducible apply State.barDown_keeps hP | with_reducible apply State.fset_keeps h1
    | with_reducible apply State.onTree_keeps h2 | with_reducible apply State.sendTree_keeps h3
    | with_reducible apply State.snapTry_keeps hP | with_reducible exact keeps_pair (by assumption) (by assumption)
    | (split <;> try dsimp only)

theorem execFabricResetStart_keeps {P : State → Prop} (hP : Opened [.registers, .links, .tree] P) (hq : KeepsQueue P)
    (who : Accessor) (s : State) (oks : P s) {t' : State} (e : execFabricResetStart who s = .next t') : P t' := by
  unfold execFabricResetStart at e
  refine keeps_ok hq e ?_
  clear e
  try dsimp only
  repeat' first
    | with_reducible assumption | (intro _; try dsimp only) | with_reducible apply keeps_ite
    | with_reducible apply State.resetAsk_keeps hP | with_reducible exact keeps_pair (by assumption) (by assumption)
    | (split <;> try dsimp only)

theorem execResetReq_keeps {P : State → Prop} (hP : Opened [.registers, .links, .tree] P) (hq : KeepsQueue P) (m :
    Msg) (s : State) (oks : P s) {t' : State} (e : execResetReq m s = .next t') : P t' := by
  have h1 : Opened [.registers, .links] P := hP.mono (by decide)
  unfold execResetReq at e
  refine keeps_ok hq e ?_
  clear e
  try dsimp only
  repeat' first
    | with_reducible assumption | (intro _; try dsimp only) | with_reducible apply keeps_ite
    | with_reducible apply State.fromChild_keeps h1 | with_reducible apply State.resetAsk_keeps hP
    | with_reducible exact keeps_pair (by assumption) (by assumption) | (split <;> try dsimp only)

theorem execResetDown_keeps {P : State → Prop} (hP : Opened [.registers, .links, .tree] P) (hq : KeepsQueue P) (m :
    Msg) (s : State) (oks : P s) {t' : State} (e : execResetDown m s = .next t') : P t' := by
  have h1 : Opened [.registers, .links] P := hP.mono (by decide)
  unfold execResetDown at e
  refine keeps_ok hq e ?_
  clear e
  try dsimp only
  repeat' first
    | with_reducible assumption | (intro _; try dsimp only) | with_reducible apply keeps_ite
    | with_reducible apply State.fromParent_keeps h1 | with_reducible apply State.resetBegin_keeps hP
    | with_reducible exact keeps_pair (by assumption) (by assumption) | (split <;> try dsimp only)

theorem execResetAck_keeps {P : State → Prop} (hP : Opened [.registers, .links, .tree] P) (hq : KeepsQueue P) (m :
    Msg) (s : State) (oks : P s) {t' : State} (e : execResetAck m s = .next t') : P t' := by
  have h1 : Opened [.registers, .links] P := hP.mono (by decide)
  have h2 : Opened [.tree] P := hP.mono (by decide)
  have h3 : Opened [.links, .tree] P := hP.mono (by decide)
  unfold execResetAck at e
  refine keeps_ok hq e ?_
  clear e
  try dsimp only
  repeat' first
    | with_reducible assumption | (intro _; try dsimp only) | with_reducible apply keeps_ite
    | with_reducible apply State.fromChild_keeps h1 | with_reducible apply State.onTree_keeps h2
    | with_reducible apply State.resetAck_keeps h3 | with_reducible exact keeps_pair (by assumption) (by assumption)
    | (split <;> try dsimp only)

theorem execResetReqTimeout_keeps {P : State → Prop} (hP : Opened [.registers, .links, .tree] P) (hq : KeepsQueue P)
    (s : State) (oks : P s) {t' : State} (e : execResetReqTimeout s = .next t') : P t' := by
  unfold execResetReqTimeout at e
  refine keeps_ok hq e ?_
  clear e
  try dsimp only
  repeat' first
    | with_reducible assumption | (intro _; try dsimp only) | with_reducible apply keeps_ite
    | with_reducible apply State.resetBegin_keeps hP | with_reducible exact keeps_pair (by assumption) (by assumption)
    | (split <;> try dsimp only)

theorem execResetAckTimeout_keeps {P : State → Prop} (hP : Opened [.links, .tree] P) (hq : KeepsQueue P) (s : State)
    (oks : P s) {t' : State} (e : execResetAckTimeout s = .next t') : P t' := by
  unfold execResetAckTimeout at e
  refine keeps_ok hq e ?_
  clear e
  try dsimp only
  repeat' first
    | with_reducible assumption | (intro _; try dsimp only) | with_reducible apply keeps_ite
    | with_reducible apply State.resetAck_keeps hP | with_reducible exact keeps_pair (by assumption) (by assumption)
    | (split <;> try dsimp only)

theorem execFabricLocalReset_keeps {P : State → Prop} (hP : Opened [.registers, .vectors, .memory, .controllers,
    .answers, .records, .parts, .decks, .pages, .links, .streams, .tree, .power, .management] P) (hq : KeepsQueue P)
    (s : State) (oks : P s) {t' : State} (e : execFabricLocalReset s = .next t') : P t' := by
  have h1 : Opened [.registers, .vectors, .memory, .controllers, .answers, .records, .parts, .decks, .pages, .links,
      .tree, .management] P := hP.mono (by decide)
  have h2 : Opened [.registers, .vectors, .memory, .controllers, .answers, .records, .parts, .decks, .pages,
      .management] P := hP.mono (by decide)
  have h3 : Opened [.registers, .vectors] P := hP.mono (by decide)
  have h4 : Opened [.registers] P := hP.mono (by decide)
  have h5 : Opened [.registers, .vectors, .records, .management] P := hP.mono (by decide)
  have h6 : Opened [.registers, .links] P := hP.mono (by decide)
  have h7 : Opened [.registers, .vectors, .memory, .controllers, .answers, .records, .parts, .decks, .pages, .streams,
      .management] P := hP.mono (by decide)
  have h8 : Opened [.links] P := hP.mono (by decide)
  have h9 : Opened [.streams] P := hP.mono (by decide)
  have h10 : Opened [.power] P := hP.mono (by decide)
  have h11 : Opened [.tree] P := hP.mono (by decide)
  unfold execFabricLocalReset at e
  refine keeps_ok hq e ?_
  clear e
  try dsimp only
  repeat' first
    | with_reducible assumption | (intro _; try dsimp only) | with_reducible apply keeps_ite
    | with_reducible apply State.barTry_keeps h1 | with_reducible apply State.endTree_keeps h2
    | with_reducible apply State.evt_keeps h3 | with_reducible apply State.fset_keeps h4
    | with_reducible apply State.gopFail_keeps h5 | with_reducible apply State.portReset_keeps h6
    | with_reducible apply State.record_keeps h5 | with_reducible apply State.routesHome_keeps h4
    | with_reducible apply State.streamFail_keeps h7 | with_reducible apply State.withInbox_keeps h8
    | with_reducible apply State.withRecvCtx_keeps h9 | with_reducible apply State.withStepped_keeps h10
    | with_reducible apply State.withTree_keeps h11 | with_reducible apply keeps_foldl
    | with_reducible apply keeps_foldl1 | with_reducible exact keeps_pair (by assumption) (by assumption)
    | (split <;> try dsimp only)

theorem execCommandTimeout_keeps {P : State → Prop} (hP : Opened [.registers, .vectors, .memory, .controllers,
    .answers, .records, .tiles, .parts, .decks, .pages, .thapel, .streams, .management] P) (hq : KeepsQueue P) (deck
    idx : Nat) (started : Bool) (s : State) (oks : P s) {t' : State} (e : execCommandTimeout deck idx started s =
    .next t') : P t' := by
  have h1 : Opened [.registers, .vectors, .memory, .controllers, .answers, .records, .decks, .management] P := hP.mono
      (by decide)
  have h2 : Opened [.registers] P := hP.mono (by decide)
  have h3 : Opened [.decks] P := hP.mono (by decide)
  unfold execCommandTimeout at e
  refine keeps_ok hq e ?_
  clear e
  try dsimp only
  repeat' first
    | with_reducible assumption | (intro _; try dsimp only) | with_reducible apply keeps_ite
    | with_reducible apply State.deckRecord_keeps h1 | with_reducible apply State.endBy_keeps hP
    | with_reducible apply State.fcount_keeps h2 | with_reducible apply State.onDeck_keeps h3
    | with_reducible exact keeps_pair (by assumption) (by assumption) | (split <;> try dsimp only)

theorem execDeckStop_keeps {P : State → Prop} (hP : Opened [.registers, .vectors, .memory, .controllers, .answers,
    .records, .tiles, .parts, .decks, .pages, .thapel, .streams, .management] P) (hq : KeepsQueue P) (who : Accessor)
    (s : State) (oks : P s) {t' : State} (e : execDeckStop who s = .next t') : P t' := by
  unfold execDeckStop at e
  refine keeps_ok hq e ?_
  clear e
  try dsimp only
  repeat' first
    | with_reducible assumption | (intro _; try dsimp only) | with_reducible apply keeps_ite
    | with_reducible apply State.stopDeck_keeps hP | with_reducible exact keeps_pair (by assumption) (by assumption)
    | (split <;> try dsimp only)

theorem execProtShadowWrite_keeps {P : State → Prop} (hP : Opened [.registers, .vectors, .records, .regulation,
    .management] P) (hq : KeepsQueue P) (who : Accessor) (off n v : Nat) (s : State) (oks : P s) {t' : State} (e :
    execProtShadowWrite who off n v s = .next t') : P t' := by
  have h1 : Opened [.registers, .vectors] P := hP.mono (by decide)
  unfold execProtShadowWrite at e
  refine keeps_ok hq e ?_
  clear e
  try dsimp only
  repeat' first
    | with_reducible assumption | (intro _; try dsimp only) | with_reducible apply keeps_ite
    | with_reducible apply State.evt_keeps h1 | with_reducible apply State.regWriteIf_keeps hP
    | with_reducible exact keeps_pair (by assumption) (by assumption) | (split <;> try dsimp only)

theorem execProtCommit_keeps {P : State → Prop} (hP : Opened [.registers, .vectors] P) (hq : KeepsQueue P) (who :
    Accessor) (v : Nat) (s : State) (oks : P s) {t' : State} (e : execProtCommit who v s = .next t') : P t' := by
  have h1 : Opened [.registers] P := hP.mono (by decide)
  unfold execProtCommit at e
  refine keeps_ok hq e ?_
  clear e
  try dsimp only
  repeat' first
    | with_reducible assumption | (intro _; try dsimp only) | with_reducible apply keeps_ite
    | with_reducible apply State.evt_keeps hP | with_reducible apply State.fset_keeps h1
    | with_reducible apply State.schedule_keeps h1 | with_reducible exact keeps_pair (by assumption) (by assumption)
    | (split <;> try dsimp only)

theorem execProtSwap_keeps {P : State → Prop} (hP : Opened [.registers, .controllers] P) (hq : KeepsQueue P) (s :
    State) (oks : P s) {t' : State} (e : execProtSwap s = .next t') : P t' := by
  have h1 : Opened [.registers] P := hP.mono (by decide)
  have h2 : Opened [.controllers] P := hP.mono (by decide)
  unfold execProtSwap at e
  refine keeps_ok hq e ?_
  clear e
  try dsimp only
  repeat' first
    | with_reducible assumption | (intro _; try dsimp only) | with_reducible apply keeps_ite
    | with_reducible apply State.fset_keeps h1 | with_reducible apply State.fwrap_keeps h1
    | with_reducible apply State.protCopy_keeps h2 | with_reducible exact keeps_pair (by assumption) (by assumption)
    | (split <;> try dsimp only)

theorem execPartitionReset_keeps {P : State → Prop} (hP : Opened [.registers, .vectors, .memory, .controllers,
    .answers, .records, .tiles, .parts, .decks, .pages, .thapel, .regulation, .streams, .management] P) (hq :
    KeepsQueue P) (who : Accessor) (v : Nat) (s : State) (oks : P s) {t' : State} (e : execPartitionReset who v s =
    .next t') : P t' := by
  unfold execPartitionReset at e
  refine keeps_ok hq e ?_
  clear e
  try dsimp only
  repeat' first
    | with_reducible assumption | (intro _; try dsimp only) | with_reducible apply keeps_ite
    | with_reducible apply State.startReset_keeps hP | with_reducible exact keeps_pair (by assumption) (by assumption)
    | (split <;> try dsimp only)

theorem execPartitionLoad_keeps {P : State → Prop} (hP : Opened [.registers, .vectors, .memory, .controllers,
    .answers, .records, .tiles, .parts, .decks, .pages, .thapel, .regulation, .streams, .boot, .management] P) (hq :
    KeepsQueue P) (who : Accessor) (v : Nat) (ver : Verdict) (s : State) (oks : P s) {t' : State} (e :
    execPartitionLoad who v ver s = .next t') : P t' := by
  have h1 : Opened [.registers, .vectors] P := hP.mono (by decide)
  have h2 : Opened [.registers] P := hP.mono (by decide)
  have h3 : Opened [.parts] P := hP.mono (by decide)
  have h4 : Opened [.registers, .vectors, .memory, .controllers, .answers, .records, .tiles, .parts, .decks, .pages,
      .thapel, .regulation, .streams, .management] P := hP.mono (by decide)
  have h5 : Opened [.registers, .boot] P := hP.mono (by decide)
  unfold execPartitionLoad at e
  refine keeps_ok hq e ?_
  clear e
  try dsimp only
  repeat' first
    | with_reducible assumption | (intro _; try dsimp only) | with_reducible apply keeps_ite
    | with_reducible apply State.loadFails_keeps h1 | with_reducible apply State.loadStatus_keeps h2
    | with_reducible apply State.onPart_keeps h3 | with_reducible apply State.startReset_keeps h4
    | with_reducible apply State.withPending_keeps h5 | with_reducible exact keeps_pair (by assumption) (by assumption)
    | (split <;> try dsimp only)

theorem execPartitionRetire_keeps {P : State → Prop} (hP : Opened [.registers, .vectors, .memory, .controllers,
    .answers, .records, .tiles, .parts, .decks, .pages, .thapel, .regulation, .streams, .management] P) (hq :
    KeepsQueue P) (who : Accessor) (v : Nat) (s : State) (oks : P s) {t' : State} (e : execPartitionRetire who v s =
    .next t') : P t' := by
  have h1 : Opened [.registers, .vectors] P := hP.mono (by decide)
  unfold execPartitionRetire at e
  refine keeps_ok hq e ?_
  clear e
  try dsimp only
  repeat' first
    | with_reducible assumption | (intro _; try dsimp only) | with_reducible apply keeps_ite
    | with_reducible apply State.loadFails_keeps h1 | with_reducible apply State.startReset_keeps hP
    | with_reducible exact keeps_pair (by assumption) (by assumption) | (split <;> try dsimp only)

theorem execResetDrainDone_keeps {P : State → Prop} (hP : Opened [.registers, .vectors, .memory, .controllers,
    .answers, .records, .tiles, .parts, .decks, .pages, .thapel, .regulation, .boot, .management] P) (hq : KeepsQueue
    P) (part : Nat) (s : State) (oks : P s) {t' : State} (e : execResetDrainDone part s = .next t') : P t' := by
  have h1 : Opened [.registers, .vectors, .parts, .pages] P := hP.mono (by decide)
  have h2 : Opened [.registers, .vectors, .memory, .controllers, .answers, .records, .tiles, .parts, .decks, .pages,
      .thapel, .regulation, .management] P := hP.mono (by decide)
  have h3 : Opened [.registers, .vectors, .parts, .pages, .boot, .management] P := hP.mono (by decide)
  have h4 : Opened [.parts] P := hP.mono (by decide)
  have h5 : Opened [.registers] P := hP.mono (by decide)
  unfold execResetDrainDone at e
  refine keeps_ok hq e ?_
  clear e
  try dsimp only
  repeat' first
    | with_reducible assumption | (intro _; try dsimp only) | with_reducible apply keeps_ite
    | with_reducible apply State.applyFails_keeps h1 | with_reducible apply State.finishReset_keeps h2
    | with_reducible apply State.loadCommit_keeps h3 | with_reducible apply State.onPart_keeps h4
    | with_reducible apply State.setPartStatus_keeps h5
    | with_reducible exact keeps_pair (by assumption) (by assumption) | (split <;> try dsimp only)

theorem execDrainSlow_keeps {P : State → Prop} (hP : Opened [.registers, .vectors] P) (hq : KeepsQueue P) (part : Nat)
    (s : State) (oks : P s) {t' : State} (e : execDrainSlow part s = .next t') : P t' := by
  unfold execDrainSlow at e
  refine keeps_ok hq e ?_
  clear e
  try dsimp only
  repeat' first
    | with_reducible assumption | (intro _; try dsimp only) | with_reducible apply keeps_ite
    | with_reducible apply State.evt_keeps hP | with_reducible exact keeps_pair (by assumption) (by assumption)
    | (split <;> try dsimp only)

theorem execLoadDrainDone_keeps {P : State → Prop} (hP : Opened [.registers, .vectors, .parts, .pages, .boot,
    .management] P) (hq : KeepsQueue P) (part : Nat) (s : State) (oks : P s) {t' : State} (e : execLoadDrainDone part
    s = .next t') : P t' := by
  have h1 : Opened [.registers] P := hP.mono (by decide)
  have h2 : Opened [.parts] P := hP.mono (by decide)
  unfold execLoadDrainDone at e
  refine keeps_ok hq e ?_
  clear e
  try dsimp only
  repeat' first
    | with_reducible assumption | (intro _; try dsimp only) | with_reducible apply keeps_ite
    | with_reducible apply State.fset_keeps h1 | with_reducible apply State.loadCommit_keeps hP
    | with_reducible apply State.onPart_keeps h2 | with_reducible apply State.setPartStatus_keeps h1
    | with_reducible exact keeps_pair (by assumption) (by assumption) | (split <;> try dsimp only)

theorem execLoadWeightsDone_keeps {P : State → Prop} (hP : Opened [.registers, .vectors, .memory, .controllers,
    .records, .parts, .pages, .regulation, .boot, .management] P) (hq : KeepsQueue P) (part n : Nat) (s : State) (oks
    : P s) {t' : State} (e : execLoadWeightsDone part n s = .next t') : P t' := by
  have h1 : Opened [.registers, .vectors, .parts, .pages] P := hP.mono (by decide)
  have h2 : Opened [.registers, .vectors] P := hP.mono (by decide)
  have h3 : Opened [.registers, .management] P := hP.mono (by decide)
  have h4 : Opened [.boot] P := hP.mono (by decide)
  have h5 : Opened [.parts] P := hP.mono (by decide)
  have h6 : Opened [.registers, .vectors, .memory, .controllers, .records, .management] P := hP.mono (by decide)
  have h7 : Opened [.regulation] P := hP.mono (by decide)
  have h8 : Opened [.registers] P := hP.mono (by decide)
  have h9 : Opened [.management] P := hP.mono (by decide)
  have h10 : Opened [.pages] P := hP.mono (by decide)
  have h11 : Opened [.memory] P := hP.mono (by decide)
  unfold execLoadWeightsDone at e
  refine keeps_ok hq e ?_
  clear e
  try dsimp only
  repeat' first
    | with_reducible assumption | (intro _; try dsimp only) | with_reducible apply keeps_ite
    | with_reducible apply State.applyFails_keeps h1 | with_reducible apply State.evt_keeps h2
    | with_reducible apply State.keyFor_keeps h3 | with_reducible apply State.markOwner_keeps h4
    | with_reducible apply State.onPart_keeps h5 | with_reducible apply State.putBlob_keeps h6
    | with_reducible apply State.restartAccts_keeps h7 | with_reducible apply State.setPartStatus_keeps h8
    | with_reducible apply State.withMgmt_keeps h9 | with_reducible apply State.withSealParts_keeps h10
    | with_reducible apply State.zeroForeign_keeps h11 | with_reducible apply keeps_foldl
    | with_reducible apply keeps_foldl1 | with_reducible exact keeps_pair (by assumption) (by assumption)
    | (split <;> try dsimp only)

theorem execHostLinkTraining_keeps {P : State → Prop} (hP : Opened [.package] P) (hq : KeepsQueue P) (port gen width :
    Nat) (s : State) (oks : P s) {t' : State} (e : execHostLinkTraining port gen width s = .next t') : P t' := by
  unfold execHostLinkTraining at e
  refine keeps_ok hq e ?_
  clear e
  try dsimp only
  repeat' first
    | with_reducible assumption | (intro _; try dsimp only) | with_reducible apply keeps_ite
    | with_reducible apply State.withPkg_keeps hP | with_reducible exact keeps_pair (by assumption) (by assumption)
    | (split <;> try dsimp only)

theorem execHostLinkDown_keeps {P : State → Prop} (hP : Opened [.registers, .vectors, .memory, .answers, .host,
    .records, .package, .management] P) (hq : KeepsQueue P) (port : Nat) (s : State) (oks : P s) {t' : State} (e :
    execHostLinkDown port s = .next t') : P t' := by
  have h1 : Opened [.registers, .vectors] P := hP.mono (by decide)
  have h2 : Opened [.registers, .vectors, .memory, .answers, .host, .records, .management] P := hP.mono (by decide)
  have h3 : Opened [.package] P := hP.mono (by decide)
  unfold execHostLinkDown at e
  refine keeps_ok hq e ?_
  clear e
  try dsimp only
  repeat' first
    | with_reducible assumption | (intro _; try dsimp only) | with_reducible apply keeps_ite
    | with_reducible apply State.evt_keeps h1 | with_reducible apply State.hostPoison_keeps h2
    | with_reducible apply State.withPkg_keeps h3 | with_reducible apply keeps_foldl
    | with_reducible apply keeps_foldl1 | with_reducible exact keeps_pair (by assumption) (by assumption)
    | (split <;> try dsimp only)

theorem execPerstDeassert_keeps {P : State → Prop} (hP : Opened [.package] P) (hq : KeepsQueue P) (port : Nat) (s :
    State) (oks : P s) {t' : State} (e : execPerstDeassert port s = .next t') : P t' := by
  unfold execPerstDeassert at e
  refine keeps_ok hq e ?_
  clear e
  try dsimp only
  repeat' first
    | with_reducible assumption | (intro _; try dsimp only) | with_reducible apply keeps_ite
    | with_reducible apply State.withPkg_keeps hP | with_reducible exact keeps_pair (by assumption) (by assumption)
    | (split <;> try dsimp only)

theorem execConfigRequest_keeps {P : State → Prop} (hP : Opened [.answers, .package] P) (hq : KeepsQueue P) (port fn :
    Nat) (numVfs : Option Nat) (s : State) (oks : P s) {t' : State} (e : execConfigRequest port fn numVfs s = .next
    t') : P t' := by
  have h1 : Opened [.answers] P := hP.mono (by decide)
  have h2 : Opened [.package] P := hP.mono (by decide)
  unfold execConfigRequest at e
  refine keeps_ok hq e ?_
  clear e
  try dsimp only
  repeat' first
    | with_reducible assumption | (intro _; try dsimp only) | with_reducible apply keeps_ite
    | with_reducible apply State.answer_keeps h1 | with_reducible apply State.withPkg_keeps h2
    | with_reducible exact keeps_pair (by assumption) (by assumption) | (split <;> try dsimp only)

theorem execBar4SegWrite_keeps {P : State → Prop} (hP : Opened [.registers, .vectors] P) (hq : KeepsQueue P) (who :
    Accessor) (port k v : Nat) (s : State) (oks : P s) {t' : State} (e : execBar4SegWrite who port k v s = .next t') :
    P t' := by
  have h1 : Opened [.registers] P := hP.mono (by decide)
  unfold execBar4SegWrite at e
  refine keeps_ok hq e ?_
  clear e
  try dsimp only
  repeat' first
    | with_reducible assumption | (intro _; try dsimp only) | with_reducible apply keeps_ite
    | with_reducible apply State.fset_keeps h1 | with_reducible apply State.segRefused_keeps hP
    | with_reducible exact keeps_pair (by assumption) (by assumption) | (split <;> try dsimp only)

theorem execVfSegWrite_keeps {P : State → Prop} (hP : Opened [.registers, .vectors] P) (hq : KeepsQueue P) (who :
    Accessor) (port k v : Nat) (s : State) (oks : P s) {t' : State} (e : execVfSegWrite who port k v s = .next t') : P
    t' := by
  have h1 : Opened [.registers] P := hP.mono (by decide)
  unfold execVfSegWrite at e
  refine keeps_ok hq e ?_
  clear e
  try dsimp only
  repeat' first
    | with_reducible assumption | (intro _; try dsimp only) | with_reducible apply keeps_ite
    | with_reducible apply State.fset_keeps h1 | with_reducible apply State.segRefused_keeps hP
    | with_reducible exact keeps_pair (by assumption) (by assumption) | (split <;> try dsimp only)

theorem execVfFlr_keeps {P : State → Prop} (hP : Opened [.registers, .vectors, .memory, .controllers, .answers,
    .records, .tiles, .parts, .decks, .pages, .thapel, .regulation, .streams, .management] P) (hq : KeepsQueue P) (k :
    Nat) (s : State) (oks : P s) {t' : State} (e : execVfFlr k s = .next t') : P t' := by
  unfold execVfFlr at e
  refine keeps_ok hq e ?_
  clear e
  try dsimp only
  repeat' first
    | with_reducible assumption | (intro _; try dsimp only) | with_reducible apply keeps_ite
    | with_reducible apply State.flrPart_keeps hP | with_reducible exact keeps_pair (by assumption) (by assumption)
    | (split <;> try dsimp only)

theorem execPf0Flr_keeps {P : State → Prop} (hP : Opened [.registers, .vectors, .memory, .controllers, .answers,
    .records, .tiles, .parts, .decks, .pages, .thapel, .regulation, .streams, .boot, .management] P) (hq : KeepsQueue
    P) (port : Nat) (s : State) (oks : P s) {t' : State} (e : execPf0Flr port s = .next t') : P t' := by
  have h1 : Opened [.registers, .vectors, .memory, .controllers, .answers, .records, .tiles, .parts, .decks, .pages,
      .thapel, .boot, .management] P := hP.mono (by decide)
  have h2 : Opened [.registers, .vectors, .memory, .controllers, .answers, .records, .tiles, .parts, .decks, .pages,
      .thapel, .regulation, .streams, .management] P := hP.mono (by decide)
  have h3 : Opened [.registers] P := hP.mono (by decide)
  have h4 : Opened [.registers, .vectors, .records, .management] P := hP.mono (by decide)
  unfold execPf0Flr at e
  refine keeps_ok hq e ?_
  clear e
  try dsimp only
  repeat' first
    | with_reducible assumption | (intro _; try dsimp only) | with_reducible apply keeps_ite
    | with_reducible apply State.enterHold_keeps h1 | with_reducible apply State.flrPart_keeps h2
    | with_reducible apply State.fset_keeps h3 | with_reducible apply State.setPriv1_keeps h4
    | with_reducible apply keeps_foldl | with_reducible apply keeps_foldl1
    | with_reducible exact keeps_pair (by assumption) (by assumption) | (split <;> try dsimp only)

theorem execPf1Flr_keeps {P : State → Prop} (hP : Opened [.registers, .vectors] P) (hq : KeepsQueue P) (port : Nat) (s
    : State) (oks : P s) {t' : State} (e : execPf1Flr port s = .next t') : P t' := by
  have h1 : Opened [.registers] P := hP.mono (by decide)
  have h2 : Opened [.vectors] P := hP.mono (by decide)
  unfold execPf1Flr at e
  refine keeps_ok hq e ?_
  clear e
  try dsimp only
  repeat' first
    | with_reducible assumption | (intro _; try dsimp only) | with_reducible apply keeps_ite
    | with_reducible apply State.withHalfR_keeps h1 | with_reducible apply State.withHalfW_keeps h1
    | with_reducible apply State.withMsix_keeps h2 | with_reducible exact keeps_pair (by assumption) (by assumption)
    | (split <;> try dsimp only)

theorem execVaonValid_keeps {P : State → Prop} (hP : Opened [.clock, .registers, .vectors, .records, .boot,
    .management] P) (hq : KeepsQueue P) (s : State) (oks : P s) {t' : State} (e : execVaonValid s = .next t') : P t'
    := by
  have h1 : Opened [.registers] P := hP.mono (by decide)
  have h2 : Opened [.registers, .vectors, .records, .management] P := hP.mono (by decide)
  have h3 : Opened [.registers, .boot] P := hP.mono (by decide)
  have h4 : Opened [.boot] P := hP.mono (by decide)
  have h5 : Opened [.clock] P := hP.mono (by decide)
  have h6 : Opened [.management] P := hP.mono (by decide)
  unfold execVaonValid at e
  refine keeps_ok hq e ?_
  clear e
  try dsimp only
  repeat' first
    | with_reducible assumption | (intro _; try dsimp only) | with_reducible apply keeps_ite
    | with_reducible apply State.fset_keeps h1 | with_reducible apply State.mgmtRec_keeps h2
    | with_reducible apply State.toPhase_keeps h3 | with_reducible apply State.withBoot_keeps h4
    | with_reducible apply State.withCalPhase_keeps h5 | with_reducible apply State.withCalendar_keeps h5
    | with_reducible apply State.withMgmt_keeps h6 | with_reducible exact keeps_pair (by assumption) (by assumption)
    | (split <;> try dsimp only)

theorem execAlwaysOnStart_keeps {P : State → Prop} (hP : Opened [.registers, .boot] P) (hq : KeepsQueue P) (s : State)
    (oks : P s) {t' : State} (e : execAlwaysOnStart s = .next t') : P t' := by
  have h1 : Opened [.boot] P := hP.mono (by decide)
  unfold execAlwaysOnStart at e
  refine keeps_ok hq e ?_
  clear e
  try dsimp only
  repeat' first
    | with_reducible assumption | (intro _; try dsimp only) | with_reducible apply keeps_ite
    | with_reducible apply State.toPhase_keeps hP | with_reducible apply State.withBoot_keeps h1
    | with_reducible exact keeps_pair (by assumption) (by assumption) | (split <;> try dsimp only)

theorem execBootRestart_keeps {P : State → Prop} (hP : Opened [.clock, .draws, .registers, .vectors, .memory,
    .controllers, .answers, .host, .records, .tiles, .parts, .decks, .pages, .thapel, .regulation, .links, .streams,
    .tree, .boot, .power, .package, .management] P) (hr : Restarts P) (hq : KeepsQueue P) (who : Accessor) (s : State)
    (oks : P s) {t' : State} (e : execBootRestart who s = .next t') : P t' := by
  unfold execBootRestart at e
  refine keeps_ok hq e ?_
  clear e
  try dsimp only
  repeat' first
    | with_reducible assumption | (intro _; try dsimp only) | with_reducible apply keeps_ite
    | with_reducible apply State.partReset_keeps hP hr
    | with_reducible exact keeps_pair (by assumption) (by assumption) | (split <;> try dsimp only)

theorem execFuseRead_keeps {P : State → Prop} (hP : Opened [.registers, .vectors, .memory, .controllers, .answers,
    .records, .tiles, .parts, .decks, .pages, .thapel, .boot, .management] P) (hq : KeepsQueue P) (s : State) (oks : P
    s) {t' : State} (e : execFuseRead s = .next t') : P t' := by
  have h1 : Opened [.registers] P := hP.mono (by decide)
  have h2 : Opened [.registers, .boot] P := hP.mono (by decide)
  have h3 : Opened [.management] P := hP.mono (by decide)
  unfold execFuseRead at e
  refine keeps_ok hq e ?_
  clear e
  try dsimp only
  repeat' first
    | with_reducible assumption | (intro _; try dsimp only) | with_reducible apply keeps_ite
    | with_reducible apply State.enterHold_keeps hP | with_reducible apply State.loadFuses_keeps h1
    | with_reducible apply State.toPhase_keeps h2 | with_reducible apply State.withMgmt_keeps h3
    | with_reducible exact keeps_pair (by assumption) (by assumption) | (split <;> try dsimp only)

theorem execSecureBoot_keeps {P : State → Prop} (hP : Opened [.clock, .draws, .registers, .vectors, .memory,
    .controllers, .answers, .host, .records, .tiles, .parts, .decks, .pages, .thapel, .regulation, .links, .streams,
    .tree, .boot, .power, .package, .management] P) (hr : Restarts P) (hq : KeepsQueue P) (slotOk otherOk : Bool) (s :
    State) (oks : P s) {t' : State} (e : execSecureBoot slotOk otherOk s = .next t') : P t' := by
  have h1 : Opened [.registers, .vectors, .memory, .controllers, .answers, .records, .tiles, .parts, .decks, .pages,
      .thapel, .boot, .management] P := hP.mono (by decide)
  have h2 : Opened [.registers] P := hP.mono (by decide)
  have h3 : Opened [.registers, .vectors, .records, .management] P := hP.mono (by decide)
  have h4 : Opened [.registers, .boot] P := hP.mono (by decide)
  have h5 : Opened [.boot] P := hP.mono (by decide)
  unfold execSecureBoot at e
  refine keeps_ok hq e ?_
  clear e
  try dsimp only
  repeat' first
    | with_reducible assumption | (intro _; try dsimp only) | with_reducible apply keeps_ite
    | with_reducible apply State.enterHold_keeps h1 | with_reducible apply State.fset_keeps h2
    | with_reducible apply State.fsetAt_keeps h2 | with_reducible apply State.mgmtRec_keeps h3
    | with_reducible apply State.partReset_keeps hP hr | with_reducible apply State.setPriv_keeps h3
    | with_reducible apply State.toPhase_keeps h4 | with_reducible apply State.withBoot_keeps h5
    | with_reducible apply keeps_foldl | with_reducible apply keeps_foldl1
    | with_reducible exact keeps_pair (by assumption) (by assumption) | (split <;> try dsimp only)

theorem execSelfTest_keeps {P : State → Prop} (hP : Opened [.draws, .registers, .vectors, .memory, .controllers,
    .answers, .records, .tiles, .parts, .decks, .pages, .thapel, .boot, .management] P) (hq : KeepsQueue P) (res :
    List (Nat × Nat)) (s : State) (oks : P s) {t' : State} (e : execSelfTest res s = .next t') : P t' := by
  have h1 : Opened [.registers, .vectors, .memory, .controllers, .answers, .records, .tiles, .parts, .decks, .pages,
      .thapel, .boot, .management] P := hP.mono (by decide)
  have h2 : Opened [.registers] P := hP.mono (by decide)
  have h3 : Opened [.registers, .boot] P := hP.mono (by decide)
  have h4 : Opened [.draws, .registers, .vectors, .records, .management] P := hP.mono (by decide)
  unfold execSelfTest at e
  refine keeps_ok hq e ?_
  clear e
  try dsimp only
  repeat' first
    | with_reducible assumption | (intro _; try dsimp only) | with_reducible apply keeps_ite
    | with_reducible apply State.enterHold_keeps h1 | with_reducible apply State.fset_keeps h2
    | with_reducible apply State.toPhase_keeps h3 | with_reducible apply State.unitFails_keeps h4
    | with_reducible apply keeps_foldl | with_reducible apply keeps_foldl1
    | with_reducible exact keeps_pair (by assumption) (by assumption) | (split <;> try dsimp only)

theorem execMemoryTraining_keeps {P : State → Prop} (hP : Opened [.registers, .vectors, .memory, .controllers,
    .answers, .records, .tiles, .parts, .decks, .pages, .thapel, .boot, .management] P) (hq : KeepsQueue P) (badChans
    badTiles : List Nat) (warm fatal : Bool) (s : State) (oks : P s) {t' : State} (e : execMemoryTraining badChans
    badTiles warm fatal s = .next t') : P t' := by
  have h1 : Opened [.registers] P := hP.mono (by decide)
  have h2 : Opened [.memory] P := hP.mono (by decide)
  have h3 : Opened [.boot] P := hP.mono (by decide)
  have h4 : Opened [.registers, .boot] P := hP.mono (by decide)
  unfold execMemoryTraining at e
  refine keeps_ok hq e ?_
  clear e
  try dsimp only
  repeat' first
    | with_reducible assumption | (intro _; try dsimp only) | with_reducible apply keeps_ite
    | with_reducible apply State.enterHold_keeps hP | with_reducible apply State.fset_keeps h1
    | with_reducible apply State.markChan_keeps h1 | with_reducible apply State.markT0_keeps h1
    | with_reducible apply State.memInit_keeps h2 | with_reducible apply State.saveRecords_keeps h3
    | with_reducible apply State.toPhase_keeps h4 | with_reducible apply State.withBoot_keeps h3
    | with_reducible apply keeps_foldl | with_reducible apply keeps_foldl1
    | with_reducible exact keeps_pair (by assumption) (by assumption) | (split <;> try dsimp only)

theorem execBootLoad_keeps {P : State → Prop} (hP : Opened [.registers, .boot] P) (hq : KeepsQueue P) (who : Accessor)
    (s : State) (oks : P s) {t' : State} (e : execBootLoad who s = .next t') : P t' := by
  have h1 : Opened [.registers] P := hP.mono (by decide)
  unfold execBootLoad at e
  refine keeps_ok hq e ?_
  clear e
  try dsimp only
  repeat' first
    | with_reducible assumption | (intro _; try dsimp only) | with_reducible apply keeps_ite
    | with_reducible apply State.fset_keeps h1 | with_reducible apply State.toPhase_keeps hP
    | with_reducible exact keeps_pair (by assumption) (by assumption) | (split <;> try dsimp only)

theorem execImageCheck_keeps {P : State → Prop} (hP : Opened [.registers, .vectors, .memory, .controllers, .answers,
    .records, .tiles, .parts, .decks, .pages, .thapel, .regulation, .links, .boot, .management] P) (hq : KeepsQueue P)
    (ver : Verdict) (s : State) (oks : P s) {t' : State} (e : execImageCheck ver s = .next t') : P t' := by
  have h1 : Opened [.registers, .controllers, .pages, .regulation, .links, .boot, .management] P := hP.mono (by
      decide)
  have h2 : Opened [.registers, .vectors, .records, .links, .boot, .management] P := hP.mono (by decide)
  have h3 : Opened [.registers, .vectors, .memory, .controllers, .answers, .records, .tiles, .parts, .decks, .pages,
      .thapel, .boot, .management] P := hP.mono (by decide)
  have h4 : Opened [.registers] P := hP.mono (by decide)
  unfold execImageCheck at e
  refine keeps_ok hq e ?_
  clear e
  try dsimp only
  repeat' first
    | with_reducible assumption | (intro _; try dsimp only) | with_reducible apply keeps_ite
    | with_reducible apply State.acceptWhole_keeps h1 | with_reducible apply State.afterImage_keeps h2
    | with_reducible apply State.enterHold_keeps h3 | with_reducible apply State.fset_keeps h4
    | with_reducible exact keeps_pair (by assumption) (by assumption) | (split <;> try dsimp only)

theorem execLinkTrainingPhase_keeps {P : State → Prop} (hP : Opened [.registers, .links, .boot] P) (hq : KeepsQueue P)
    (s : State) (oks : P s) {t' : State} (e : execLinkTrainingPhase s = .next t') : P t' := by
  have h1 : Opened [.registers, .links] P := hP.mono (by decide)
  have h2 : Opened [.boot] P := hP.mono (by decide)
  have h3 : Opened [.registers, .boot] P := hP.mono (by decide)
  unfold execLinkTrainingPhase at e
  refine keeps_ok hq e ?_
  clear e
  try dsimp only
  repeat' first
    | with_reducible assumption | (intro _; try dsimp only) | with_reducible apply keeps_ite
    | with_reducible apply State.cruiseStart_keeps h1 | with_reducible apply State.saveRecords_keeps h2
    | with_reducible apply State.toPhase_keeps h3 | with_reducible apply State.walk_keeps h1
    | with_reducible exact keeps_pair (by assumption) (by assumption) | (split <;> try dsimp only)

theorem execCruiseEnd_keeps {P : State → Prop} (hP : Opened [.registers, .vectors, .records, .links, .boot,
    .management] P) (hq : KeepsQueue P) (s : State) (oks : P s) {t' : State} (e : execCruiseEnd s = .next t') : P t'
    := by
  have h1 : Opened [.registers, .vectors] P := hP.mono (by decide)
  have h2 : Opened [.registers] P := hP.mono (by decide)
  have h3 : Opened [.registers, .vectors, .records, .management] P := hP.mono (by decide)
  have h4 : Opened [.registers, .boot] P := hP.mono (by decide)
  have h5 : Opened [.links] P := hP.mono (by decide)
  unfold execCruiseEnd at e
  refine keeps_ok hq e ?_
  clear e
  try dsimp only
  repeat' first
    | with_reducible assumption | (intro _; try dsimp only) | with_reducible apply keeps_ite
    | with_reducible apply State.evt_keeps h1 | with_reducible apply State.fset_keeps h2
    | with_reducible apply State.record_keeps h3 | with_reducible apply State.topology_keeps h4
    | with_reducible apply State.withCruiseAt_keeps h5 | with_reducible apply State.withProbes_keeps h5
    | with_reducible exact keeps_pair (by assumption) (by assumption) | (split <;> try dsimp only)

theorem execWeightLoadBlob_keeps {P : State → Prop} (hP : Opened [.registers, .vectors, .memory, .controllers,
    .answers, .records, .tiles, .parts, .decks, .pages, .thapel, .boot, .management] P) (hq : KeepsQueue P) (idx :
    Nat) (ok' : Bool) (s : State) (oks : P s) {t' : State} (e : execWeightLoadBlob idx ok' s = .next t') : P t' := by
  have h1 : Opened [.registers] P := hP.mono (by decide)
  have h2 : Opened [.registers, .vectors, .memory, .controllers, .records, .management] P := hP.mono (by decide)
  have h3 : Opened [.boot] P := hP.mono (by decide)
  unfold execWeightLoadBlob at e
  refine keeps_ok hq e ?_
  clear e
  try dsimp only
  repeat' first
    | with_reducible assumption | (intro _; try dsimp only) | with_reducible apply keeps_ite
    | with_reducible apply State.enterHold_keeps hP | with_reducible apply State.fset_keeps h1
    | with_reducible apply State.putBlob_keeps h2 | with_reducible apply State.withBoot_keeps h3
    | with_reducible exact keeps_pair (by assumption) (by assumption) | (split <;> try dsimp only)

theorem execReadyEntry_keeps {P : State → Prop} (hP : Opened [.registers, .vectors, .memory, .controllers, .answers,
    .records, .parts, .decks, .pages, .links, .tree, .boot, .management] P) (hq : KeepsQueue P) (s : State) (oks : P
    s) {t' : State} (e : execReadyEntry s = .next t') : P t' := by
  unfold execReadyEntry at e
  refine keeps_ok hq e ?_
  clear e
  try dsimp only
  repeat' first
    | with_reducible assumption | (intro _; try dsimp only) | with_reducible apply keeps_ite
    | with_reducible apply State.ready_keeps hP | with_reducible exact keeps_pair (by assumption) (by assumption)
    | (split <;> try dsimp only)

theorem execBootAccept_keeps {P : State → Prop} (hP : Opened [.registers, .vectors, .memory, .controllers, .answers,
    .records, .parts, .decks, .pages, .links, .tree, .boot, .management] P) (hq : KeepsQueue P) (who : Accessor) (s :
    State) (oks : P s) {t' : State} (e : execBootAccept who s = .next t') : P t' := by
  have h1 : Opened [.boot] P := hP.mono (by decide)
  unfold execBootAccept at e
  refine keeps_ok hq e ?_
  clear e
  try dsimp only
  repeat' first
    | with_reducible assumption | (intro _; try dsimp only) | with_reducible apply keeps_ite
    | with_reducible apply State.ready_keeps hP | with_reducible apply State.withBoot_keeps h1
    | with_reducible exact keeps_pair (by assumption) (by assumption) | (split <;> try dsimp only)

theorem execBootAbort_keeps {P : State → Prop} (hP : Opened [.registers, .vectors, .memory, .controllers, .answers,
    .records, .tiles, .parts, .decks, .pages, .thapel, .boot, .management] P) (hq : KeepsQueue P) (who : Accessor) (s
    : State) (oks : P s) {t' : State} (e : execBootAbort who s = .next t') : P t' := by
  unfold execBootAbort at e
  refine keeps_ok hq e ?_
  clear e
  try dsimp only
  repeat' first
    | with_reducible assumption | (intro _; try dsimp only) | with_reducible apply keeps_ite
    | with_reducible apply State.enterHold_keeps hP | with_reducible exact keeps_pair (by assumption) (by assumption)
    | (split <;> try dsimp only)

theorem execBootSave_keeps {P : State → Prop} (hP : Opened [.boot] P) (hq : KeepsQueue P) (who : Accessor) (s : State)
    (oks : P s) {t' : State} (e : execBootSave who s = .next t') : P t' := by
  unfold execBootSave at e
  refine keeps_ok hq e ?_
  clear e
  try dsimp only
  repeat' first
    | with_reducible assumption | (intro _; try dsimp only) | with_reducible apply keeps_ite
    | with_reducible apply State.saveRecords_keeps hP | with_reducible exact keeps_pair (by assumption) (by assumption)
    | (split <;> try dsimp only)

theorem execSensorSample_keeps {P : State → Prop} (hP : Opened [.draws, .registers, .vectors, .records, .power,
    .package, .management] P) (hq : KeepsQueue P) (temps : List (Nat × Int)) (s : State) (oks : P s) {t' : State} (e :
    execSensorSample temps s = .next t') : P t' := by
  have h1 : Opened [.package] P := hP.mono (by decide)
  have h2 : Opened [.registers, .vectors] P := hP.mono (by decide)
  have h3 : Opened [.registers] P := hP.mono (by decide)
  have h4 : Opened [.registers, .power] P := hP.mono (by decide)
  have h5 : Opened [.draws, .registers, .vectors, .records, .power, .management] P := hP.mono (by decide)
  unfold execSensorSample at e
  refine keeps_ok hq e ?_
  clear e
  try dsimp only
  repeat' first
    | with_reducible assumption | (intro _; try dsimp only) | with_reducible apply keeps_ite
    | with_reducible apply State.alert_keeps h1 | with_reducible apply State.bands_keeps h2
    | with_reducible apply State.delivAll_keeps h3 | with_reducible apply State.leave_keeps h4
    | with_reducible apply State.lowerHot_keeps h4 | with_reducible apply State.sampleSensor_keeps h5
    | with_reducible apply State.sampleSpots_keeps h5 | with_reducible apply State.showTemps_keeps h3
    | with_reducible apply keeps_foldl | with_reducible apply keeps_foldl1
    | with_reducible exact keeps_pair (by assumption) (by assumption) | (split <;> try dsimp only)

theorem execThermalWarning_keeps {P : State → Prop} (hP : Opened [.draws, .registers, .vectors, .records, .power,
    .package, .management] P) (hq : KeepsQueue P) (spot : Nat) (s : State) (oks : P s) {t' : State} (e :
    execThermalWarning spot s = .next t') : P t' := by
  have h1 : Opened [.package] P := hP.mono (by decide)
  have h2 : Opened [.draws, .registers, .vectors, .records, .management] P := hP.mono (by decide)
  have h3 : Opened [.registers, .vectors] P := hP.mono (by decide)
  have h4 : Opened [.power] P := hP.mono (by decide)
  unfold execThermalWarning at e
  refine keeps_ok hq e ?_
  clear e
  try dsimp only
  repeat' first
    | with_reducible assumption | (intro _; try dsimp only) | with_reducible apply keeps_ite
    | with_reducible apply State.alert_keeps h1 | with_reducible apply State.domainRec_keeps h2
    | with_reducible apply State.evt_keeps h3 | with_reducible apply State.onPower_keeps h4
    | with_reducible exact keeps_pair (by assumption) (by assumption) | (split <;> try dsimp only)

theorem execTowerThrottle_keeps {P : State → Prop} (hP : Opened [.draws, .registers, .vectors, .records, .power,
    .management] P) (hq : KeepsQueue P) (sensor : Nat) (temp : Int) (s : State) (oks : P s) {t' : State} (e :
    execTowerThrottle sensor temp s = .next t') : P t' := by
  unfold execTowerThrottle at e
  refine keeps_ok hq e ?_
  clear e
  try dsimp only
  repeat' first
    | with_reducible assumption | (intro _; try dsimp only) | with_reducible apply keeps_ite
    | with_reducible apply State.throttleCmp_keeps hP | with_reducible exact keeps_pair (by assumption) (by assumption)
    | (split <;> try dsimp only)

theorem execStackThrottle_keeps {P : State → Prop} (hP : Opened [.draws, .registers, .vectors, .records, .power,
    .management] P) (hq : KeepsQueue P) (sensor : Nat) (temp : Int) (s : State) (oks : P s) {t' : State} (e :
    execStackThrottle sensor temp s = .next t') : P t' := by
  unfold execStackThrottle at e
  refine keeps_ok hq e ?_
  clear e
  try dsimp only
  repeat' first
    | with_reducible assumption | (intro _; try dsimp only) | with_reducible apply keeps_ite
    | with_reducible apply State.throttleCmp_keeps hP | with_reducible exact keeps_pair (by assumption) (by assumption)
    | (split <;> try dsimp only)

theorem execStackCapStep_keeps {P : State → Prop} (hP : Opened [.registers] P) (hq : KeepsQueue P) (stack : Nat) (s :
    State) (oks : P s) {t' : State} (e : execStackCapStep stack s = .next t') : P t' := by
  unfold execStackCapStep at e
  refine keeps_ok hq e ?_
  clear e
  try dsimp only
  repeat' first
    | with_reducible assumption | (intro _; try dsimp only) | with_reducible apply keeps_ite
    | with_reducible apply State.deliv_keeps hP | with_reducible apply State.fset_keeps hP
    | with_reducible exact keeps_pair (by assumption) (by assumption) | (split <;> try dsimp only)

theorem execThermalShutdown_keeps {P : State → Prop} (hP : Opened [.draws, .registers, .vectors, .memory,
    .controllers, .answers, .records, .tiles, .parts, .decks, .pages, .thapel, .boot, .package, .management] P) (hq :
    KeepsQueue P) (sensor : Nat) (temp : Int) (s : State) (oks : P s) {t' : State} (e : execThermalShutdown sensor
    temp s = .next t') : P t' := by
  have h1 : Opened [.draws, .registers, .vectors, .records, .management] P := hP.mono (by decide)
  have h2 : Opened [.registers] P := hP.mono (by decide)
  have h3 : Opened [.registers, .vectors, .memory, .controllers, .answers, .records, .tiles, .parts, .decks, .pages,
      .thapel, .boot, .management] P := hP.mono (by decide)
  have h4 : Opened [.package] P := hP.mono (by decide)
  unfold execThermalShutdown at e
  refine keeps_ok hq e ?_
  clear e
  try dsimp only
  repeat' first
    | with_reducible assumption | (intro _; try dsimp only) | with_reducible apply keeps_ite
    | with_reducible apply State.domainRec_keeps h1 | with_reducible apply State.fbitSet_keeps h2
    | with_reducible apply State.tripStop_keeps h3 | with_reducible apply State.withPkg_keeps h4
    | with_reducible exact keeps_pair (by assumption) (by assumption) | (split <;> try dsimp only)

theorem execTripRelease_keeps {P : State → Prop} (hP : Opened [.clock, .draws, .registers, .vectors, .memory,
    .controllers, .answers, .host, .records, .tiles, .parts, .decks, .pages, .thapel, .regulation, .links, .streams,
    .tree, .boot, .power, .package, .management] P) (hr : Restarts P) (hq : KeepsQueue P) (who : Accessor) (s : State)
    (oks : P s) {t' : State} (e : execTripRelease who s = .next t') : P t' := by
  have h1 : Opened [.registers] P := hP.mono (by decide)
  have h2 : Opened [.package] P := hP.mono (by decide)
  unfold execTripRelease at e
  refine keeps_ok hq e ?_
  clear e
  try dsimp only
  repeat' first
    | with_reducible assumption | (intro _; try dsimp only) | with_reducible apply keeps_ite
    | with_reducible apply State.fbitSet_keeps h1 | with_reducible apply State.fset_keeps h1
    | with_reducible apply State.partReset_keeps hP hr | with_reducible apply State.withPkg_keeps h2
    | with_reducible exact keeps_pair (by assumption) (by assumption) | (split <;> try dsimp only)

theorem execForecast_keeps {P : State → Prop} (hP : Opened [.registers, .vectors, .memory, .controllers, .answers,
    .records, .parts, .decks, .pages, .management] P) (hq : KeepsQueue P) (part slot : Nat) (s : State) (oks : P s)
    {t' : State} (e : execForecast part slot s = .next t') : P t' := by
  have h1 : Opened [.parts] P := hP.mono (by decide)
  have h2 : Opened [] P := hP.mono (by decide)
  unfold execForecast at e
  refine keeps_ok hq e ?_
  clear e
  try dsimp only
  repeat' first
    | with_reducible assumption | (intro _; try dsimp only) | with_reducible apply keeps_ite
    | with_reducible apply State.endPlain_keeps hP | with_reducible apply State.onPart_keeps h1
    | with_reducible apply State.runCmd_keeps h2 | with_reducible exact keeps_pair (by assumption) (by assumption)
    | (split <;> try dsimp only)

theorem execForecastPhase_keeps {P : State → Prop} (hP : Opened [.registers, .power] P) (hq : KeepsQueue P) (part :
    Nat) (s : State) (oks : P s) {t' : State} (e : execForecastPhase part s = .next t') : P t' := by
  have h1 : Opened [.registers] P := hP.mono (by decide)
  have h2 : Opened [.power] P := hP.mono (by decide)
  unfold execForecastPhase at e
  refine keeps_ok hq e ?_
  clear e
  try dsimp only
  repeat' first
    | with_reducible assumption | (intro _; try dsimp only) | with_reducible apply keeps_ite
    | with_reducible apply State.fset_keeps h1 | with_reducible apply State.onPower_keeps h2
    | with_reducible apply State.setTarget_keeps hP | with_reducible apply keeps_foldl
    | with_reducible apply keeps_foldl1 | with_reducible exact keeps_pair (by assumption) (by assumption)
    | (split <;> try dsimp only)

theorem execClockTargetUpdate_keeps {P : State → Prop} (hP : Opened [.registers, .vectors, .power] P) (hq : KeepsQueue
    P) (s : State) (oks : P s) {t' : State} (e : execClockTargetUpdate s = .next t') : P t' := by
  have h1 : Opened [.registers] P := hP.mono (by decide)
  have h2 : Opened [.power] P := hP.mono (by decide)
  have h3 : Opened [.registers, .power] P := hP.mono (by decide)
  unfold execClockTargetUpdate at e
  refine keeps_ok hq e ?_
  clear e
  try dsimp only
  repeat' first
    | with_reducible assumption | (intro _; try dsimp only) | with_reducible apply keeps_ite
    | with_reducible apply State.boostStep_keeps hP | with_reducible apply State.fset_keeps h1
    | with_reducible apply State.onPower_keeps h2 | with_reducible apply State.setTarget_keeps h3
    | with_reducible apply State.showCap_keeps h1 | with_reducible apply keeps_foldl
    | with_reducible apply keeps_foldl1 | with_reducible exact keeps_pair (by assumption) (by assumption)
    | (split <;> try dsimp only)

theorem execClockSwitch_keeps {P : State → Prop} (hP : Opened [.registers, .power] P) (hq : KeepsQueue P) (tower :
    Nat) (s : State) (oks : P s) {t' : State} (e : execClockSwitch tower s = .next t') : P t' := by
  have h1 : Opened [.registers] P := hP.mono (by decide)
  have h2 : Opened [.power] P := hP.mono (by decide)
  unfold execClockSwitch at e
  refine keeps_ok hq e ?_
  clear e
  try dsimp only
  repeat' first
    | with_reducible assumption | (intro _; try dsimp only) | with_reducible apply keeps_ite
    | with_reducible apply State.fset_keeps h1 | with_reducible apply State.onPower_keeps h2
    | with_reducible exact keeps_pair (by assumption) (by assumption) | (split <;> try dsimp only)

theorem execPowerEstimate_keeps {P : State → Prop} (hP : Opened [.registers, .power] P) (hq : KeepsQueue P) (watts :
    List Nat) (s : State) (oks : P s) {t' : State} (e : execPowerEstimate watts s = .next t') : P t' := by
  have h1 : Opened [.power] P := hP.mono (by decide)
  have h2 : Opened [.registers] P := hP.mono (by decide)
  unfold execPowerEstimate at e
  refine keeps_ok hq e ?_
  clear e
  try dsimp only
  repeat' first
    | with_reducible assumption | (intro _; try dsimp only) | with_reducible apply keeps_ite
    | with_reducible apply State.onPower_keeps h1 | with_reducible apply State.writeDuty_keeps h2
    | with_reducible apply keeps_foldl | with_reducible apply keeps_foldl1
    | with_reducible exact keeps_pair (by assumption) (by assumption) | (split <;> try dsimp only)

theorem execRthEstimate_keeps {P : State → Prop} (hP : Opened [.registers, .vectors, .records, .power, .package,
    .management] P) (hq : KeepsQueue P) (s : State) (oks : P s) {t' : State} (e : execRthEstimate s = .next t') : P t'
    := by
  have h1 : Opened [.package] P := hP.mono (by decide)
  have h2 : Opened [.registers, .vectors, .power] P := hP.mono (by decide)
  have h3 : Opened [.registers, .vectors] P := hP.mono (by decide)
  have h4 : Opened [.registers] P := hP.mono (by decide)
  have h5 : Opened [.power] P := hP.mono (by decide)
  have h6 : Opened [.registers, .vectors, .records, .management] P := hP.mono (by decide)
  unfold execRthEstimate at e
  refine keeps_ok hq e ?_
  clear e
  try dsimp only
  repeat' first
    | with_reducible assumption | (intro _; try dsimp only) | with_reducible apply keeps_ite
    | with_reducible apply State.alert_keeps h1 | with_reducible apply State.boostEnd_keeps h2
    | with_reducible apply State.evt_keeps h3 | with_reducible apply State.fset_keeps h4
    | with_reducible apply State.onPower_keeps h5 | with_reducible apply State.powerRec_keeps h6
    | with_reducible apply State.showCap_keeps h4 | with_reducible exact keeps_pair (by assumption) (by assumption)
    | (split <;> try dsimp only)

theorem execInletRead_keeps {P : State → Prop} (hP : Opened [.registers, .vectors, .records, .power, .package,
    .management] P) (hq : KeepsQueue P) (raw : Option (Nat × Nat)) (s : State) (oks : P s) {t' : State} (e :
    execInletRead raw s = .next t') : P t' := by
  have h1 : Opened [.package] P := hP.mono (by decide)
  have h2 : Opened [.registers, .vectors, .records, .management] P := hP.mono (by decide)
  have h3 : Opened [.registers, .vectors] P := hP.mono (by decide)
  have h4 : Opened [.registers] P := hP.mono (by decide)
  have h5 : Opened [.power] P := hP.mono (by decide)
  unfold execInletRead at e
  refine keeps_ok hq e ?_
  clear e
  try dsimp only
  repeat' first
    | with_reducible assumption | (intro _; try dsimp only) | with_reducible apply keeps_ite
    | with_reducible apply State.alert_keeps h1 | with_reducible apply State.coolantRec_keeps h2
    | with_reducible apply State.evt_keeps h3 | with_reducible apply State.fset_keeps h4
    | with_reducible apply State.onPower_keeps h5 | with_reducible exact keeps_pair (by assumption) (by assumption)
    | (split <;> try dsimp only)

theorem execFlowPulse_keeps {P : State → Prop} (hP : Opened [.power, .package] P) (hq : KeepsQueue P) (s : State) (oks
    : P s) {t' : State} (e : execFlowPulse s = .next t') : P t' := by
  have h1 : Opened [.package] P := hP.mono (by decide)
  have h2 : Opened [.power] P := hP.mono (by decide)
  unfold execFlowPulse at e
  refine keeps_ok hq e ?_
  clear e
  try dsimp only
  repeat' first
    | with_reducible assumption | (intro _; try dsimp only) | with_reducible apply keeps_ite
    | with_reducible apply State.alert_keeps h1 | with_reducible apply State.onPower_keeps h2
    | with_reducible exact keeps_pair (by assumption) (by assumption) | (split <;> try dsimp only)

theorem execFlowCount_keeps {P : State → Prop} (hP : Opened [.registers, .vectors, .records, .power, .package,
    .management] P) (hq : KeepsQueue P) (s : State) (oks : P s) {t' : State} (e : execFlowCount s = .next t') : P t'
    := by
  have h1 : Opened [.package] P := hP.mono (by decide)
  have h2 : Opened [.registers, .vectors, .records, .management] P := hP.mono (by decide)
  have h3 : Opened [.registers, .vectors] P := hP.mono (by decide)
  have h4 : Opened [.registers] P := hP.mono (by decide)
  have h5 : Opened [.power] P := hP.mono (by decide)
  unfold execFlowCount at e
  refine keeps_ok hq e ?_
  clear e
  try dsimp only
  repeat' first
    | with_reducible assumption | (intro _; try dsimp only) | with_reducible apply keeps_ite
    | with_reducible apply State.alert_keeps h1 | with_reducible apply State.coolantRec_keeps h2
    | with_reducible apply State.evt_keeps h3 | with_reducible apply State.fset_keeps h4
    | with_reducible apply State.onPower_keeps h5 | with_reducible exact keeps_pair (by assumption) (by assumption)
    | (split <;> try dsimp only)

theorem execFlowStop_keeps {P : State → Prop} (hP : Opened [.registers, .vectors, .records, .power, .package,
    .management] P) (hq : KeepsQueue P) (s : State) (oks : P s) {t' : State} (e : execFlowStop s = .next t') : P t' :=
    by
  have h1 : Opened [.package] P := hP.mono (by decide)
  have h2 : Opened [.registers, .vectors, .records, .management] P := hP.mono (by decide)
  have h3 : Opened [.registers, .vectors] P := hP.mono (by decide)
  have h4 : Opened [.power] P := hP.mono (by decide)
  unfold execFlowStop at e
  refine keeps_ok hq e ?_
  clear e
  try dsimp only
  repeat' first
    | with_reducible assumption | (intro _; try dsimp only) | with_reducible apply keeps_ite
    | with_reducible apply State.alert_keeps h1 | with_reducible apply State.coolantRec_keeps h2
    | with_reducible apply State.evt_keeps h3 | with_reducible apply State.onPower_keeps h4
    | with_reducible exact keeps_pair (by assumption) (by assumption) | (split <;> try dsimp only)

theorem execRateEvaluation_keeps {P : State → Prop} (hP : Opened [.registers, .vectors, .records, .power, .package,
    .management] P) (hq : KeepsQueue P) (s : State) (oks : P s) {t' : State} (e : execRateEvaluation s = .next t') : P
    t' := by
  have h1 : Opened [.power] P := hP.mono (by decide)
  have h2 : Opened [.registers, .power, .package] P := hP.mono (by decide)
  unfold execRateEvaluation at e
  refine keeps_ok hq e ?_
  clear e
  try dsimp only
  repeat' first
    | with_reducible assumption | (intro _; try dsimp only) | with_reducible apply keeps_ite
    | with_reducible apply State.onPower_keeps h1 | with_reducible apply State.rateRelease_keeps h2
    | with_reducible apply State.rateTrip_keeps hP | with_reducible exact keeps_pair (by assumption) (by assumption)
    | (split <;> try dsimp only)

theorem execTileWake_keeps {P : State → Prop} (hP : Opened [.registers, .tiles] P) (hq : KeepsQueue P) (part : Nat) (s
    : State) (oks : P s) {t' : State} (e : execTileWake part s = .next t') : P t' := by
  have h1 : Opened [.registers] P := hP.mono (by decide)
  have h2 : Opened [.tiles] P := hP.mono (by decide)
  unfold execTileWake at e
  refine keeps_ok hq e ?_
  clear e
  try dsimp only
  repeat' first
    | with_reducible assumption | (intro _; try dsimp only) | with_reducible apply keeps_ite
    | with_reducible apply State.fset_keeps h1 | with_reducible apply State.onTile_keeps h2
    | with_reducible apply keeps_foldl | with_reducible apply keeps_foldl1
    | with_reducible exact keeps_pair (by assumption) (by assumption) | (split <;> try dsimp only)

theorem execTileRetention_keeps {P : State → Prop} (hP : Opened [.registers, .tiles] P) (hq : KeepsQueue P) (tile :
    Nat) (s : State) (oks : P s) {t' : State} (e : execTileRetention tile s = .next t') : P t' := by
  have h1 : Opened [.tiles] P := hP.mono (by decide)
  have h2 : Opened [.registers] P := hP.mono (by decide)
  unfold execTileRetention at e
  refine keeps_ok hq e ?_
  clear e
  try dsimp only
  repeat' first
    | with_reducible assumption | (intro _; try dsimp only) | with_reducible apply keeps_ite
    | with_reducible apply State.onTile_keeps h1 | with_reducible apply State.towerSleep_keeps h2
    | with_reducible exact keeps_pair (by assumption) (by assumption) | (split <;> try dsimp only)

theorem execTileOff_keeps {P : State → Prop} (hP : Opened [.registers, .tiles] P) (hq : KeepsQueue P) (tile : Nat) (s
    : State) (oks : P s) {t' : State} (e : execTileOff tile s = .next t') : P t' := by
  have h1 : Opened [.tiles] P := hP.mono (by decide)
  have h2 : Opened [.registers] P := hP.mono (by decide)
  unfold execTileOff at e
  refine keeps_ok hq e ?_
  clear e
  try dsimp only
  repeat' first
    | with_reducible assumption | (intro _; try dsimp only) | with_reducible apply keeps_ite
    | with_reducible apply State.tileOff_keeps h1 | with_reducible apply State.towerSleep_keeps h2
    | with_reducible exact keeps_pair (by assumption) (by assumption) | (split <;> try dsimp only)

theorem execPartStateTarget_keeps {P : State → Prop} (hP : Opened [.registers, .vectors, .links, .power] P) (hq :
    KeepsQueue P) (who : Accessor) (v : Nat) (s : State) (oks : P s) {t' : State} (e : execPartStateTarget who v s =
    .next t') : P t' := by
  have h1 : Opened [.registers, .power] P := hP.mono (by decide)
  have h2 : Opened [.registers] P := hP.mono (by decide)
  unfold execPartStateTarget at e
  refine keeps_ok hq e ?_
  clear e
  try dsimp only
  repeat' first
    | with_reducible assumption | (intro _; try dsimp only) | with_reducible apply keeps_ite
    | with_reducible apply State.enterState_keeps h1 | with_reducible apply State.fset_keeps h2
    | with_reducible apply State.toRun_keeps hP | with_reducible exact keeps_pair (by assumption) (by assumption)
    | (split <;> try dsimp only)

theorem execAutoIdle_keeps {P : State → Prop} (hP : Opened [.registers, .power] P) (hq : KeepsQueue P) (s : State)
    (oks : P s) {t' : State} (e : execAutoIdle s = .next t') : P t' := by
  unfold execAutoIdle at e
  refine keeps_ok hq e ?_
  clear e
  try dsimp only
  repeat' first
    | with_reducible assumption | (intro _; try dsimp only) | with_reducible apply keeps_ite
    | with_reducible apply State.enterState_keeps hP | with_reducible exact keeps_pair (by assumption) (by assumption)
    | (split <;> try dsimp only)

theorem execPartStateEntered_keeps {P : State → Prop} (hP : Opened [.registers, .vectors, .records, .tiles, .links,
    .power, .management] P) (hq : KeepsQueue P) (s : State) (oks : P s) {t' : State} (e : execPartStateEntered s =
    .next t') : P t' := by
  have h1 : Opened [.registers, .vectors] P := hP.mono (by decide)
  have h2 : Opened [.registers] P := hP.mono (by decide)
  have h3 : Opened [.power] P := hP.mono (by decide)
  have h4 : Opened [.registers, .vectors, .records, .links, .management] P := hP.mono (by decide)
  have h5 : Opened [.registers, .links] P := hP.mono (by decide)
  have h6 : Opened [.tiles] P := hP.mono (by decide)
  unfold execPartStateEntered at e
  refine keeps_ok hq e ?_
  clear e
  try dsimp only
  repeat' first
    | with_reducible assumption | (intro _; try dsimp only) | with_reducible apply keeps_ite
    | with_reducible apply State.evt_keeps h1 | with_reducible apply State.fset_keeps h2
    | with_reducible apply State.onPower_keeps h3 | with_reducible apply State.relive_keeps h4
    | with_reducible apply State.standbyPort_keeps h5 | with_reducible apply State.tilesOff_keeps h6
    | with_reducible apply State.towerSleep_keeps h2 | with_reducible apply keeps_foldl
    | with_reducible apply keeps_foldl1 | with_reducible exact keeps_pair (by assumption) (by assumption)
    | (split <;> try dsimp only)

theorem execPartWake_keeps {P : State → Prop} (hP : Opened [.registers, .vectors, .links, .power] P) (hq : KeepsQueue
    P) (s : State) (oks : P s) {t' : State} (e : execPartWake s = .next t') : P t' := by
  unfold execPartWake at e
  refine keeps_ok hq e ?_
  clear e
  try dsimp only
  repeat' first
    | with_reducible assumption | (intro _; try dsimp only) | with_reducible apply keeps_ite
    | with_reducible apply State.toRun_keeps hP | with_reducible exact keeps_pair (by assumption) (by assumption)
    | (split <;> try dsimp only)

theorem execYarderCompletion_keeps {P : State → Prop} (hP : Opened [.draws, .registers, .vectors, .memory,
    .controllers, .answers, .records, .tiles, .parts, .pages, .thapel, .regulation, .management] P) (hq : KeepsQueue
    P) (tile tag : Nat) (gen : Bool) (s : State) (oks : P s) {t' : State} (e : execYarderCompletion tile tag gen s =
    .next t') : P t' := by
  have h1 : Opened [.draws, .registers, .vectors, .memory, .controllers, .answers, .records, .tiles, .thapel,
      .management] P := hP.mono (by decide)
  have h2 : Opened [.registers, .vectors, .memory, .controllers, .answers, .records, .tiles, .parts, .pages, .thapel,
      .management] P := hP.mono (by decide)
  have h3 : Opened [.registers] P := hP.mono (by decide)
  have h4 : Opened [.registers, .vectors, .memory, .controllers, .records, .management] P := hP.mono (by decide)
  have h5 : Opened [.regulation] P := hP.mono (by decide)
  have h6 : Opened [.tiles] P := hP.mono (by decide)
  have h7 : Opened [.draws, .registers, .vectors, .memory, .controllers, .answers, .records, .tiles, .parts, .pages,
      .thapel, .management] P := hP.mono (by decide)
  unfold execYarderCompletion at e
  refine keeps_ok hq e ?_
  clear e
  try dsimp only
  repeat' first
    | with_reducible assumption | (intro _; try dsimp only) | with_reducible apply keeps_ite
    | with_reducible apply State.bankNext_keeps h1 | with_reducible apply State.failIo_keeps h2
    | with_reducible apply State.fcount_keeps h3 | with_reducible apply State.issueAll_keeps hP
    | with_reducible apply State.landGot_keeps h4 | with_reducible apply State.observeReq_keeps h5
    | with_reducible apply State.onTag_keeps h6 | with_reducible apply State.onThr_keeps h6
    | with_reducible apply State.reqEnd_keeps h7 | with_reducible exact keeps_pair (by assumption) (by assumption)
    | (split <;> try dsimp only)

theorem execPreemptResume_keeps {P : State → Prop} (hP : Opened [.draws, .registers, .vectors, .memory, .controllers,
    .answers, .records, .tiles, .parts, .pages, .thapel, .management] P) (hq : KeepsQueue P) (tile : Nat) (saveUe :
    Bool) (s : State) (oks : P s) {t' : State} (e : execPreemptResume tile saveUe s = .next t') : P t' := by
  have h1 : Opened [.registers] P := hP.mono (by decide)
  have h2 : Opened [.memory] P := hP.mono (by decide)
  have h3 : Opened [.registers, .vectors, .memory, .controllers, .answers, .records, .tiles, .parts, .pages, .thapel,
      .management] P := hP.mono (by decide)
  have h4 : Opened [.tiles] P := hP.mono (by decide)
  have h5 : Opened [.registers, .vectors, .memory, .controllers, .records, .tiles, .parts, .management] P := hP.mono
      (by decide)
  unfold execPreemptResume at e
  refine keeps_ok hq e ?_
  clear e
  try dsimp only
  repeat' first
    | with_reducible assumption | (intro _; try dsimp only) | with_reducible apply keeps_ite
    | with_reducible apply State.countLevels_keeps h1 | with_reducible apply State.endYards_keeps hP
    | with_reducible apply State.fset_keeps h1 | with_reducible apply State.hitSave_keeps h2
    | with_reducible apply State.loadContext_keeps h3 | with_reducible apply State.onTile_keeps h4
    | with_reducible apply State.resumeJobs_keeps h5 | with_reducible apply keeps_foldl
    | with_reducible apply keeps_foldl1 | with_reducible exact keeps_pair (by assumption) (by assumption)
    | (split <;> try dsimp only)

theorem execHotbankTick_keeps {P : State → Prop} (hP : Opened [.registers, .vectors, .controllers, .records,
    .management] P) (hq : KeepsQueue P) (hub : Nat) (waits : List (Nat × Nat × Nat)) (s0 : State) (oks : P s0) {t' :
    State} (e : execHotbankTick hub waits s0 = .next t') : P t' := by
  have h1 : Opened [.registers, .vectors] P := hP.mono (by decide)
  have h2 : Opened [.registers] P := hP.mono (by decide)
  have h3 : Opened [.registers, .vectors, .records, .management] P := hP.mono (by decide)
  have h4 : Opened [.controllers] P := hP.mono (by decide)
  unfold execHotbankTick at e
  refine keeps_ok hq e ?_
  clear e
  try dsimp only
  repeat' first
    | with_reducible assumption | (intro _; try dsimp only) | with_reducible apply keeps_ite
    | with_reducible apply State.evt_keeps h1 | with_reducible apply State.fset_keeps h2
    | with_reducible apply State.record_keeps h3 | with_reducible apply State.ticked_keeps h4
    | with_reducible exact keeps_pair (by assumption) (by assumption) | (split <;> try dsimp only)

theorem execHotbankLeak_keeps {P : State → Prop} (hP : Opened [.registers, .controllers] P) (hq : KeepsQueue P) (hub :
    Nat) (s : State) (oks : P s) {t' : State} (e : execHotbankLeak hub s = .next t') : P t' := by
  have h1 : Opened [.registers] P := hP.mono (by decide)
  have h2 : Opened [.controllers] P := hP.mono (by decide)
  unfold execHotbankLeak at e
  refine keeps_ok hq e ?_
  clear e
  try dsimp only
  repeat' first
    | with_reducible assumption | (intro _; try dsimp only) | with_reducible apply keeps_ite
    | with_reducible apply State.fset_keeps h1 | with_reducible apply State.ticked_keeps h2
    | with_reducible exact keeps_pair (by assumption) (by assumption) | (split <;> try dsimp only)

theorem execMarginSweepStart_keeps {P : State → Prop} (hP : Opened [.registers, .regulation] P) (hq : KeepsQueue P)
    (who : Accessor) (hub v : Nat) (s : State) (oks : P s) {t' : State} (e : execMarginSweepStart who hub v s = .next
    t') : P t' := by
  have h1 : Opened [.registers] P := hP.mono (by decide)
  have h2 : Opened [.regulation] P := hP.mono (by decide)
  unfold execMarginSweepStart at e
  refine keeps_ok hq e ?_
  clear e
  try dsimp only
  repeat' first
    | with_reducible assumption | (intro _; try dsimp only) | with_reducible apply keeps_ite
    | with_reducible apply State.fset_keeps h1 | with_reducible apply State.withMargin_keeps h2
    | with_reducible exact keeps_pair (by assumption) (by assumption) | (split <;> try dsimp only)

theorem execMarginSweepDone_keeps {P : State → Prop} (hP : Opened [.registers, .vectors, .regulation] P) (hq :
    KeepsQueue P) (hub left right lane : Nat) (s : State) (oks : P s) {t' : State} (e : execMarginSweepDone hub left
    right lane s = .next t') : P t' := by
  have h1 : Opened [.registers, .vectors] P := hP.mono (by decide)
  have h2 : Opened [.registers] P := hP.mono (by decide)
  have h3 : Opened [.regulation] P := hP.mono (by decide)
  unfold execMarginSweepDone at e
  refine keeps_ok hq e ?_
  clear e
  try dsimp only
  repeat' first
    | with_reducible assumption | (intro _; try dsimp only) | with_reducible apply keeps_ite
    | with_reducible apply State.evt_keeps h1 | with_reducible apply State.fset_keeps h2
    | with_reducible apply State.withMargin_keeps h3 | with_reducible exact keeps_pair (by assumption) (by assumption)
    | (split <;> try dsimp only)

theorem execReadRaw_keeps {P : State → Prop} (hP : Opened [.registers, .vectors, .memory, .controllers, .answers,
    .records, .management] P) (hq : KeepsQueue P) (who : Accessor) (hub v : Nat) (s : State) (oks : P s) {t' : State}
    (e : execReadRaw who hub v s = .next t') : P t' := by
  have h1 : Opened [.registers] P := hP.mono (by decide)
  unfold execReadRaw at e
  refine keeps_ok hq e ?_
  clear e
  try dsimp only
  repeat' first
    | with_reducible assumption | (intro _; try dsimp only) | with_reducible apply keeps_ite
    | with_reducible apply State.fset_keeps h1 | with_reducible apply State.rawOp_keeps hP
    | with_reducible apply State.rawStatus_keeps h1 | with_reducible apply State.setRawData_keeps h1
    | with_reducible exact keeps_pair (by assumption) (by assumption) | (split <;> try dsimp only)

theorem execReadCorrected_keeps {P : State → Prop} (hP : Opened [.registers, .vectors, .memory, .controllers,
    .answers, .records, .management] P) (hq : KeepsQueue P) (who : Accessor) (hub v : Nat) (s : State) (oks : P s) {t'
    : State} (e : execReadCorrected who hub v s = .next t') : P t' := by
  have h1 : Opened [.registers] P := hP.mono (by decide)
  unfold execReadCorrected at e
  refine keeps_ok hq e ?_
  clear e
  try dsimp only
  repeat' first
    | with_reducible assumption | (intro _; try dsimp only) | with_reducible apply keeps_ite
    | with_reducible apply State.rawOp_keeps hP | with_reducible apply State.rawStatus_keeps h1
    | with_reducible apply State.setRawData_keeps h1 | with_reducible exact keeps_pair (by assumption) (by assumption)
    | (split <;> try dsimp only)

theorem execWriteRaw_keeps {P : State → Prop} (hP : Opened [.registers, .vectors, .memory, .controllers, .answers,
    .records, .management] P) (hq : KeepsQueue P) (who : Accessor) (hub v : Nat) (s : State) (oks : P s) {t' : State}
    (e : execWriteRaw who hub v s = .next t') : P t' := by
  have h1 : Opened [.memory] P := hP.mono (by decide)
  unfold execWriteRaw at e
  refine keeps_ok hq e ?_
  clear e
  try dsimp only
  repeat' first
    | with_reducible assumption | (intro _; try dsimp only) | with_reducible apply keeps_ite
    | with_reducible apply State.rawOp_keeps hP | with_reducible apply State.setDelta_keeps h1
    | with_reducible apply State.storeClean_keeps h1 | with_reducible exact keeps_pair (by assumption) (by assumption)
    | (split <;> try dsimp only)

theorem execWriteEncoded_keeps {P : State → Prop} (hP : Opened [.registers, .vectors, .memory, .controllers, .answers,
    .records, .management] P) (hq : KeepsQueue P) (who : Accessor) (hub v : Nat) (s : State) (oks : P s) {t' : State}
    (e : execWriteEncoded who hub v s = .next t') : P t' := by
  have h1 : Opened [.memory] P := hP.mono (by decide)
  unfold execWriteEncoded at e
  refine keeps_ok hq e ?_
  clear e
  try dsimp only
  repeat' first
    | with_reducible assumption | (intro _; try dsimp only) | with_reducible apply keeps_ite
    | with_reducible apply State.rawOp_keeps hP | with_reducible apply State.storeClean_keeps h1
    | with_reducible exact keeps_pair (by assumption) (by assumption) | (split <;> try dsimp only)

theorem execSequenceStage_keeps {P : State → Prop} (hP : Opened [.registers, .package] P) (hq : KeepsQueue P) (pgs :
    Nat) (s : State) (oks : P s) {t' : State} (e : execSequenceStage pgs s = .next t') : P t' := by
  have h1 : Opened [.registers] P := hP.mono (by decide)
  have h2 : Opened [.package] P := hP.mono (by decide)
  unfold execSequenceStage at e
  refine keeps_ok hq e ?_
  clear e
  try dsimp only
  repeat' first
    | with_reducible assumption | (intro _; try dsimp only) | with_reducible apply keeps_ite
    | with_reducible apply State.dropEnable_keeps hP | with_reducible apply State.fbitSet_keeps h1
    | with_reducible apply State.setPgs_keeps h1 | with_reducible apply State.withPkg_keeps h2
    | with_reducible exact keeps_pair (by assumption) (by assumption) | (split <;> try dsimp only)

theorem execPgTimeout_keeps {P : State → Prop} (hP : Opened [.registers, .vectors, .memory, .controllers, .answers,
    .records, .tiles, .parts, .decks, .pages, .thapel, .boot, .management] P) (hq : KeepsQueue P) (rail : Nat) (s :
    State) (oks : P s) {t' : State} (e : execPgTimeout rail s = .next t') : P t' := by
  unfold execPgTimeout at e
  refine keeps_ok hq e ?_
  clear e
  try dsimp only
  repeat' first
    | with_reducible assumption | (intro _; try dsimp only) | with_reducible apply keeps_ite
    | with_reducible apply State.enterHold_keeps hP | with_reducible exact keeps_pair (by assumption) (by assumption)
    | (split <;> try dsimp only)

theorem execPowerFault_keeps {P : State → Prop} (hP : Opened [.draws, .registers, .vectors, .memory, .controllers,
    .answers, .records, .tiles, .parts, .decks, .pages, .thapel, .boot, .package, .management] P) (hq : KeepsQueue P)
    (rails : Nat) (s : State) (oks : P s) {t' : State} (e : execPowerFault rails s = .next t') : P t' := by
  have h1 : Opened [.draws] P := hP.mono (by decide)
  have h2 : Opened [.registers] P := hP.mono (by decide)
  have h3 : Opened [.registers, .package] P := hP.mono (by decide)
  have h4 : Opened [.registers, .vectors, .records, .management] P := hP.mono (by decide)
  have h5 : Opened [.registers, .vectors, .memory, .controllers, .answers, .records, .tiles, .parts, .decks, .pages,
      .thapel, .boot, .management] P := hP.mono (by decide)
  have h6 : Opened [.package] P := hP.mono (by decide)
  unfold execPowerFault at e
  refine keeps_ok hq e ?_
  clear e
  try dsimp only
  repeat' first
    | with_reducible assumption | (intro _; try dsimp only) | with_reducible apply keeps_ite
    | with_reducible apply State.draw_keeps h1 | with_reducible apply State.fset_keeps h2
    | with_reducible apply State.powerDown_keeps h3 | with_reducible apply State.powerRec_keeps h4
    | with_reducible apply State.setPgs_keeps h2 | with_reducible apply State.tripStop_keeps h5
    | with_reducible apply State.withPkg_keeps h6 | with_reducible apply keeps_foldl
    | with_reducible apply keeps_foldl1 | with_reducible exact keeps_pair (by assumption) (by assumption)
    | (split <;> try dsimp only)

theorem execPowerTelemetry_keeps {P : State → Prop} (hP : Opened [.registers, .vectors, .records, .package,
    .management] P) (hq : KeepsQueue P) (rail mv da dw temp fails : Nat) (s : State) (oks : P s) {t' : State} (e :
    execPowerTelemetry rail mv da dw temp fails s = .next t') : P t' := by
  have h1 : Opened [.registers] P := hP.mono (by decide)
  have h2 : Opened [.registers, .package] P := hP.mono (by decide)
  have h3 : Opened [.package] P := hP.mono (by decide)
  unfold execPowerTelemetry at e
  refine keeps_ok hq e ?_
  clear e
  try dsimp only
  repeat' first
    | with_reducible assumption | (intro _; try dsimp only) | with_reducible apply keeps_ite
    | with_reducible apply State.avs_keeps hP | with_reducible apply State.fset_keeps h1
    | with_reducible apply State.segGood_keeps h2 | with_reducible apply State.withPkg_keeps h3
    | with_reducible exact keeps_pair (by assumption) (by assumption) | (split <;> try dsimp only)

theorem execAvsStatusPoll_keeps {P : State → Prop} (hP : Opened [.registers, .vectors, .records, .package,
    .management] P) (hq : KeepsQueue P) (seg sel fails : Nat) (s : State) (oks : P s) {t' : State} (e :
    execAvsStatusPoll seg sel fails s = .next t') : P t' := by
  have h1 : Opened [.registers, .package] P := hP.mono (by decide)
  unfold execAvsStatusPoll at e
  refine keeps_ok hq e ?_
  clear e
  try dsimp only
  repeat' first
    | with_reducible assumption | (intro _; try dsimp only) | with_reducible apply keeps_ite
    | with_reducible apply State.avs_keeps hP | with_reducible apply State.segGood_keeps h1
    | with_reducible exact keeps_pair (by assumption) (by assumption) | (split <;> try dsimp only)

theorem execCableChange_keeps {P : State → Prop} (hP : Opened [.registers, .vectors, .records, .links, .management] P)
    (hq : KeepsQueue P) (prsnt : Nat) (s : State) (oks : P s) {t' : State} (e : execCableChange prsnt s = .next t') :
    P t' := by
  have h1 : Opened [.registers, .vectors] P := hP.mono (by decide)
  have h2 : Opened [.registers] P := hP.mono (by decide)
  unfold execCableChange at e
  refine keeps_ok hq e ?_
  clear e
  try dsimp only
  repeat' first
    | with_reducible assumption | (intro _; try dsimp only) | with_reducible apply keeps_ite
    | with_reducible apply State.evt_keeps h1 | with_reducible apply State.fset_keeps h2
    | with_reducible apply State.linkLost_keeps hP | with_reducible apply keeps_foldl
    | with_reducible apply keeps_foldl1 | with_reducible exact keeps_pair (by assumption) (by assumption)
    | (split <;> try dsimp only)

theorem execBoardReset_keeps {P : State → Prop} (hP : Opened [.clock, .draws, .registers, .vectors, .memory,
    .controllers, .answers, .host, .records, .tiles, .parts, .decks, .pages, .thapel, .regulation, .links, .streams,
    .tree, .boot, .power, .package, .management] P) (hr : Restarts P) (hq : KeepsQueue P) (s : State) (oks : P s) {t'
    : State} (e : execBoardReset s = .next t') : P t' := by
  have h1 : Opened [.registers] P := hP.mono (by decide)
  have h2 : Opened [.registers, .package] P := hP.mono (by decide)
  have h3 : Opened [.registers, .boot] P := hP.mono (by decide)
  have h4 : Opened [.boot] P := hP.mono (by decide)
  have h5 : Opened [.package] P := hP.mono (by decide)
  unfold execBoardReset at e
  refine keeps_ok hq e ?_
  clear e
  try dsimp only
  repeat' first
    | with_reducible assumption | (intro _; try dsimp only) | with_reducible apply keeps_ite
    | with_reducible apply State.fset_keeps h1 | with_reducible apply State.powerDown_keeps h2
    | with_reducible apply State.setPgs_keeps h1 | with_reducible apply State.toPhase_keeps h3
    | with_reducible apply State.vaonLoss_keeps hP hr | with_reducible apply State.withBoot_keeps h4
    | with_reducible apply State.withPkg_keeps h5 | with_reducible exact keeps_pair (by assumption) (by assumption)
    | (split <;> try dsimp only)

theorem execPowerDown_keeps {P : State → Prop} (hP : Opened [.registers, .vectors, .memory, .controllers, .answers,
    .records, .tiles, .parts, .decks, .pages, .thapel, .boot, .package, .management] P) (hq : KeepsQueue P) (s :
    State) (oks : P s) {t' : State} (e : execPowerDown s = .next t') : P t' := by
  have h1 : Opened [.registers, .package] P := hP.mono (by decide)
  have h2 : Opened [.registers, .vectors, .memory, .controllers, .answers, .records, .tiles, .parts, .decks, .pages,
      .thapel, .management] P := hP.mono (by decide)
  have h3 : Opened [.tiles] P := hP.mono (by decide)
  have h4 : Opened [.boot] P := hP.mono (by decide)
  have h5 : Opened [.package] P := hP.mono (by decide)
  unfold execPowerDown at e
  refine keeps_ok hq e ?_
  clear e
  try dsimp only
  repeat' first
    | with_reducible assumption | (intro _; try dsimp only) | with_reducible apply keeps_ite
    | with_reducible apply State.powerDown_keeps h1 | with_reducible apply State.stopWork_keeps h2
    | with_reducible apply State.tilesOff_keeps h3 | with_reducible apply State.withHalted_keeps h4
    | with_reducible apply State.withPkg_keeps h5 | with_reducible exact keeps_pair (by assumption) (by assumption)
    | (split <;> try dsimp only)

theorem execSetEndpointId_keeps {P : State → Prop} (hP : Opened [.vectors, .answers, .management] P) (hq : KeepsQueue
    P) (via : Transport) (eid : Nat) (s : State) (oks : P s) {t' : State} (e : execSetEndpointId via eid s = .next t')
    : P t' := by
  have h1 : Opened [.answers] P := hP.mono (by decide)
  have h2 : Opened [.vectors] P := hP.mono (by decide)
  have h3 : Opened [.management] P := hP.mono (by decide)
  unfold execSetEndpointId at e
  refine keeps_ok hq e ?_
  clear e
  try dsimp only
  repeat' first
    | with_reducible assumption | (intro _; try dsimp only) | with_reducible apply keeps_ite
    | with_reducible apply State.answer_keeps h1 | with_reducible apply State.message_keeps h2
    | with_reducible apply State.withMgmt_keeps h3 | with_reducible exact keeps_pair (by assumption) (by assumption)
    | (split <;> try dsimp only)

theorem execGetSensorReading_keeps {P : State → Prop} (hP : Opened [.vectors, .answers] P) (hq : KeepsQueue P) (via :
    Transport) (sensor : Nat) (s : State) (oks : P s) {t' : State} (e : execGetSensorReading via sensor s = .next t')
    : P t' := by
  have h1 : Opened [.answers] P := hP.mono (by decide)
  have h2 : Opened [.vectors] P := hP.mono (by decide)
  unfold execGetSensorReading at e
  refine keeps_ok hq e ?_
  clear e
  try dsimp only
  repeat' first
    | with_reducible assumption | (intro _; try dsimp only) | with_reducible apply keeps_ite
    | with_reducible apply State.answer_keeps h1 | with_reducible apply State.message_keeps h2
    | with_reducible exact keeps_pair (by assumption) (by assumption) | (split <;> try dsimp only)

theorem execSetEventReceiver_keeps {P : State → Prop} (hP : Opened [.vectors, .answers, .management] P) (hq :
    KeepsQueue P) (via : Transport) (eid : Nat) (s : State) (oks : P s) {t' : State} (e : execSetEventReceiver via eid
    s = .next t') : P t' := by
  have h1 : Opened [.answers] P := hP.mono (by decide)
  have h2 : Opened [.vectors] P := hP.mono (by decide)
  have h3 : Opened [.management] P := hP.mono (by decide)
  unfold execSetEventReceiver at e
  refine keeps_ok hq e ?_
  clear e
  try dsimp only
  repeat' first
    | with_reducible assumption | (intro _; try dsimp only) | with_reducible apply keeps_ite
    | with_reducible apply State.answer_keeps h1 | with_reducible apply State.message_keeps h2
    | with_reducible apply State.withMgmt_keeps h3 | with_reducible exact keeps_pair (by assumption) (by assumption)
    | (split <;> try dsimp only)

theorem execRequestUpdate_keeps {P : State → Prop} (hP : Opened [.registers, .vectors, .answers, .management] P) (hq :
    KeepsQueue P) (via : Transport) (eid : Nat) (s : State) (oks : P s) {t' : State} (e : execRequestUpdate via eid s
    = .next t') : P t' := by
  have h1 : Opened [.answers] P := hP.mono (by decide)
  have h2 : Opened [.registers] P := hP.mono (by decide)
  have h3 : Opened [.vectors] P := hP.mono (by decide)
  have h4 : Opened [.management] P := hP.mono (by decide)
  unfold execRequestUpdate at e
  refine keeps_ok hq e ?_
  clear e
  try dsimp only
  repeat' first
    | with_reducible assumption | (intro _; try dsimp only) | with_reducible apply keeps_ite
    | with_reducible apply State.answer_keeps h1 | with_reducible apply State.fset_keeps h2
    | with_reducible apply State.message_keeps h3 | with_reducible apply State.withMgmt_keeps h4
    | with_reducible exact keeps_pair (by assumption) (by assumption) | (split <;> try dsimp only)

theorem execFirmwareComponent_keeps {P : State → Prop} (hP : Opened [.registers, .vectors, .answers, .records, .boot,
    .management] P) (hq : KeepsQueue P) (via : Transport) (comp : Nat) (verified : Option Bool) (version : Nat) (table
    : List Nat) (s : State) (oks : P s) {t' : State} (e : execFirmwareComponent via comp verified version table s =
    .next t') : P t' := by
  have h1 : Opened [.answers] P := hP.mono (by decide)
  have h2 : Opened [.vectors] P := hP.mono (by decide)
  have h3 : Opened [.management] P := hP.mono (by decide)
  unfold execFirmwareComponent at e
  refine keeps_ok hq e ?_
  clear e
  try dsimp only
  repeat' first
    | with_reducible assumption | (intro _; try dsimp only) | with_reducible apply keeps_ite
    | with_reducible apply State.answer_keeps h1 | with_reducible apply State.compDone_keeps hP
    | with_reducible apply State.message_keeps h2 | with_reducible apply State.withMgmt_keeps h3
    | with_reducible exact keeps_pair (by assumption) (by assumption) | (split <;> try dsimp only)

theorem execActivateFirmware_keeps {P : State → Prop} (hP : Opened [.registers, .vectors, .answers, .records, .boot,
    .management] P) (hq : KeepsQueue P) (via : Transport) (selfContained : Bool) (s : State) (oks : P s) {t' : State}
    (e : execActivateFirmware via selfContained s = .next t') : P t' := by
  have h1 : Opened [.answers] P := hP.mono (by decide)
  have h2 : Opened [.registers] P := hP.mono (by decide)
  have h3 : Opened [.vectors] P := hP.mono (by decide)
  have h4 : Opened [.registers, .vectors, .records, .management] P := hP.mono (by decide)
  have h5 : Opened [.registers, .boot] P := hP.mono (by decide)
  have h6 : Opened [.boot] P := hP.mono (by decide)
  have h7 : Opened [.management] P := hP.mono (by decide)
  unfold execActivateFirmware at e
  refine keeps_ok hq e ?_
  clear e
  try dsimp only
  repeat' first
    | with_reducible assumption | (intro _; try dsimp only) | with_reducible apply keeps_ite
    | with_reducible apply State.answer_keeps h1 | with_reducible apply State.fset_keeps h2
    | with_reducible apply State.message_keeps h3 | with_reducible apply State.mgmtRec_keeps h4
    | with_reducible apply State.toPhase_keeps h5 | with_reducible apply State.withBoot_keeps h6
    | with_reducible apply State.withMgmt_keeps h7 | with_reducible exact keeps_pair (by assumption) (by assumption)
    | (split <;> try dsimp only)

theorem execLogInfo_keeps {P : State → Prop} (hP : Opened [.draws, .vectors, .answers] P) (hq : KeepsQueue P) (via :
    Transport) (s : State) (oks : P s) {t' : State} (e : execLogInfo via s = .next t') : P t' := by
  have h1 : Opened [.answers] P := hP.mono (by decide)
  have h2 : Opened [.draws] P := hP.mono (by decide)
  have h3 : Opened [.vectors] P := hP.mono (by decide)
  unfold execLogInfo at e
  refine keeps_ok hq e ?_
  clear e
  try dsimp only
  repeat' first
    | with_reducible assumption | (intro _; try dsimp only) | with_reducible apply keeps_ite
    | with_reducible apply State.answer_keeps h1 | with_reducible apply State.draw_keeps h2
    | with_reducible apply State.message_keeps h3 | with_reducible exact keeps_pair (by assumption) (by assumption)
    | (split <;> try dsimp only)

theorem execLogRead_keeps {P : State → Prop} (hP : Opened [.vectors, .answers] P) (hq : KeepsQueue P) (via :
    Transport) (first n : Nat) (s : State) (oks : P s) {t' : State} (e : execLogRead via first n s = .next t') : P t'
    := by
  have h1 : Opened [.answers] P := hP.mono (by decide)
  have h2 : Opened [.vectors] P := hP.mono (by decide)
  unfold execLogRead at e
  refine keeps_ok hq e ?_
  clear e
  try dsimp only
  repeat' first
    | with_reducible assumption | (intro _; try dsimp only) | with_reducible apply keeps_ite
    | with_reducible apply State.answer_keeps h1 | with_reducible apply State.message_keeps h2
    | with_reducible apply State.refuse2_keeps h1 | with_reducible exact keeps_pair (by assumption) (by assumption)
    | (split <;> try dsimp only)

theorem execLogClear_keeps {P : State → Prop} (hP : Opened [.vectors, .answers, .management] P) (hq : KeepsQueue P)
    (via : Transport) (s : State) (oks : P s) {t' : State} (e : execLogClear via s = .next t') : P t' := by
  have h1 : Opened [.answers] P := hP.mono (by decide)
  have h2 : Opened [.vectors] P := hP.mono (by decide)
  have h3 : Opened [.management] P := hP.mono (by decide)
  unfold execLogClear at e
  refine keeps_ok hq e ?_
  clear e
  try dsimp only
  repeat' first
    | with_reducible assumption | (intro _; try dsimp only) | with_reducible apply keeps_ite
    | with_reducible apply State.answer_keeps h1 | with_reducible apply State.message_keeps h2
    | with_reducible apply State.refuse2_keeps h1 | with_reducible apply State.withMgmt_keeps h3
    | with_reducible exact keeps_pair (by assumption) (by assumption) | (split <;> try dsimp only)

theorem execTimeSet_keeps {P : State → Prop} (hP : Opened [.vectors, .answers, .management] P) (hq : KeepsQueue P)
    (via : Transport) (secs : Nat) (s : State) (oks : P s) {t' : State} (e : execTimeSet via secs s = .next t') : P t'
    := by
  have h1 : Opened [.answers] P := hP.mono (by decide)
  have h2 : Opened [.management] P := hP.mono (by decide)
  have h3 : Opened [.vectors] P := hP.mono (by decide)
  unfold execTimeSet at e
  refine keeps_ok hq e ?_
  clear e
  try dsimp only
  repeat' first
    | with_reducible assumption | (intro _; try dsimp only) | with_reducible apply keeps_ite
    | with_reducible apply State.answer_keeps h1 | with_reducible apply State.armTime_keeps h2
    | with_reducible apply State.message_keeps h3 | with_reducible exact keeps_pair (by assumption) (by assumption)
    | (split <;> try dsimp only)

theorem execSetPriv_keeps {P : State → Prop} (hP : Opened [.registers, .vectors, .answers, .records, .management] P)
    (hq : KeepsQueue P) (via : Transport) (v : Nat) (s : State) (oks : P s) {t' : State} (e : execSetPriv via v s =
    .next t') : P t' := by
  have h1 : Opened [.answers] P := hP.mono (by decide)
  have h2 : Opened [.vectors] P := hP.mono (by decide)
  have h3 : Opened [.registers, .vectors, .records, .management] P := hP.mono (by decide)
  unfold execSetPriv at e
  refine keeps_ok hq e ?_
  clear e
  try dsimp only
  repeat' first
    | with_reducible assumption | (intro _; try dsimp only) | with_reducible apply keeps_ite
    | with_reducible apply State.answer_keeps h1 | with_reducible apply State.message_keeps h2
    | with_reducible apply State.refuse2_keeps h1 | with_reducible apply State.setPriv_keeps h3
    | with_reducible exact keeps_pair (by assumption) (by assumption) | (split <;> try dsimp only)

theorem execDebugUnlock_keeps {P : State → Prop} (hP : Opened [.registers, .vectors, .answers, .records, .management]
    P) (hq : KeepsQueue P) (via : Transport) (key : Nat) (good : Bool) (s : State) (oks : P s) {t' : State} (e :
    execDebugUnlock via key good s = .next t') : P t' := by
  have h1 : Opened [.answers] P := hP.mono (by decide)
  have h2 : Opened [.registers] P := hP.mono (by decide)
  have h3 : Opened [.vectors] P := hP.mono (by decide)
  have h4 : Opened [.registers, .vectors, .records, .management] P := hP.mono (by decide)
  have h5 : Opened [.management] P := hP.mono (by decide)
  unfold execDebugUnlock at e
  refine keeps_ok hq e ?_
  clear e
  try dsimp only
  repeat' first
    | with_reducible assumption | (intro _; try dsimp only) | with_reducible apply keeps_ite
    | with_reducible apply State.answer_keeps h1 | with_reducible apply State.fset_keeps h2
    | with_reducible apply State.message_keeps h3 | with_reducible apply State.mgmtRec_keeps h4
    | with_reducible apply State.refuse2_keeps h1 | with_reducible apply State.withMgmt_keeps h5
    | with_reducible exact keeps_pair (by assumption) (by assumption) | (split <;> try dsimp only)

theorem execDebugChallengeRead_keeps {P : State → Prop} (hP : Opened [.draws, .registers, .answers] P) (hq :
    KeepsQueue P) (who : Accessor) (s : State) (oks : P s) {t' : State} (e : execDebugChallengeRead who s = .next t')
    : P t' := by
  have h1 : Opened [.answers] P := hP.mono (by decide)
  have h2 : Opened [.registers] P := hP.mono (by decide)
  have h3 : Opened [.draws] P := hP.mono (by decide)
  unfold execDebugChallengeRead at e
  refine keeps_ok hq e ?_
  clear e
  try dsimp only
  repeat' first
    | with_reducible assumption | (intro _; try dsimp only) | with_reducible apply keeps_ite
    | with_reducible apply State.answer_keeps h1 | with_reducible apply State.fset_keeps h2
    | with_reducible apply State.withFree_keeps h3 | with_reducible apply keeps_foldl
    | with_reducible apply keeps_foldl1 | with_reducible exact keeps_pair (by assumption) (by assumption)
    | (split <;> try dsimp only)

theorem execSecRngRead_keeps {P : State → Prop} (hP : Opened [.draws, .answers] P) (hq : KeepsQueue P) (who :
    Accessor) (s : State) (oks : P s) {t' : State} (e : execSecRngRead who s = .next t') : P t' := by
  have h1 : Opened [.answers] P := hP.mono (by decide)
  have h2 : Opened [.draws] P := hP.mono (by decide)
  unfold execSecRngRead at e
  refine keeps_ok hq e ?_
  clear e
  try dsimp only
  repeat' first
    | with_reducible assumption | (intro _; try dsimp only) | with_reducible apply keeps_ite
    | with_reducible apply State.answer_keeps h1 | with_reducible apply State.draw_keeps h2
    | with_reducible exact keeps_pair (by assumption) (by assumption) | (split <;> try dsimp only)

theorem execRngHealthFail_keeps {P : State → Prop} (hP : Opened [.registers, .vectors, .records, .management] P) (hq :
    KeepsQueue P) (test : Nat) (s : State) (oks : P s) {t' : State} (e : execRngHealthFail test s = .next t') : P t'
    := by
  have h1 : Opened [.registers] P := hP.mono (by decide)
  unfold execRngHealthFail at e
  refine keeps_ok hq e ?_
  clear e
  try dsimp only
  repeat' first
    | with_reducible assumption | (intro _; try dsimp only) | with_reducible apply keeps_ite
    | with_reducible apply State.fset_keeps h1 | with_reducible apply State.mgmtRec_keeps hP
    | with_reducible exact keeps_pair (by assumption) (by assumption) | (split <;> try dsimp only)

theorem execSpdmRequest_keeps {P : State → Prop} (hP : Opened [.draws, .vectors, .answers] P) (hq : KeepsQueue P) (via
    : Transport) (rq : Spdm) (s : State) (oks : P s) {t' : State} (e : execSpdmRequest via rq s = .next t') : P t' :=
    by
  have h1 : Opened [.answers] P := hP.mono (by decide)
  have h2 : Opened [.draws] P := hP.mono (by decide)
  have h3 : Opened [.vectors] P := hP.mono (by decide)
  unfold execSpdmRequest at e
  refine keeps_ok hq e ?_
  clear e
  try dsimp only
  repeat' first
    | with_reducible assumption | (intro _; try dsimp only) | with_reducible apply keeps_ite
    | with_reducible apply State.answer_keeps h1 | with_reducible apply State.draw_keeps h2
    | with_reducible apply State.message_keeps h3 | with_reducible exact keeps_pair (by assumption) (by assumption)
    | (split <;> try dsimp only)

theorem execRtcSecondsRead_keeps {P : State → Prop} (hP : Opened [.registers, .answers] P) (hq : KeepsQueue P) (who :
    Accessor) (s : State) (oks : P s) {t' : State} (e : execRtcSecondsRead who s = .next t') : P t' := by
  have h1 : Opened [.answers] P := hP.mono (by decide)
  have h2 : Opened [.registers] P := hP.mono (by decide)
  unfold execRtcSecondsRead at e
  refine keeps_ok hq e ?_
  clear e
  try dsimp only
  repeat' first
    | with_reducible assumption | (intro _; try dsimp only) | with_reducible apply keeps_ite
    | with_reducible apply State.answer_keeps h1 | with_reducible apply State.fset_keeps h2
    | with_reducible exact keeps_pair (by assumption) (by assumption) | (split <;> try dsimp only)

theorem execRtcSet_keeps {P : State → Prop} (hP : Opened [.management] P) (hq : KeepsQueue P) (who : Accessor) (s :
    State) (oks : P s) {t' : State} (e : execRtcSet who s = .next t') : P t' := by
  unfold execRtcSet at e
  refine keeps_ok hq e ?_
  clear e
  try dsimp only
  repeat' first
    | with_reducible assumption | (intro _; try dsimp only) | with_reducible apply keeps_ite
    | with_reducible apply State.armTime_keeps hP | with_reducible exact keeps_pair (by assumption) (by assumption)
    | (split <;> try dsimp only)

theorem execRtcSetApply_keeps {P : State → Prop} (hP : Opened [.clock, .registers, .management] P) (hq : KeepsQueue P)
    (s : State) (oks : P s) {t' : State} (e : execRtcSetApply s = .next t') : P t' := by
  have h1 : Opened [.registers] P := hP.mono (by decide)
  have h2 : Opened [.clock] P := hP.mono (by decide)
  have h3 : Opened [.management] P := hP.mono (by decide)
  unfold execRtcSetApply at e
  refine keeps_ok hq e ?_
  clear e
  try dsimp only
  repeat' first
    | with_reducible assumption | (intro _; try dsimp only) | with_reducible apply keeps_ite
    | with_reducible apply State.fset_keeps h1 | with_reducible apply State.withCalPhase_keeps h2
    | with_reducible apply State.withCalendar_keeps h2 | with_reducible apply State.withMgmt_keeps h3
    | with_reducible exact keeps_pair (by assumption) (by assumption) | (split <;> try dsimp only)

theorem execRtcOscStop_keeps {P : State → Prop} (hP : Opened [.registers, .vectors, .records, .management] P) (hq :
    KeepsQueue P) (s : State) (oks : P s) {t' : State} (e : execRtcOscStop s = .next t') : P t' := by
  have h1 : Opened [.registers] P := hP.mono (by decide)
  have h2 : Opened [.management] P := hP.mono (by decide)
  unfold execRtcOscStop at e
  refine keeps_ok hq e ?_
  clear e
  try dsimp only
  repeat' first
    | with_reducible assumption | (intro _; try dsimp only) | with_reducible apply keeps_ite
    | with_reducible apply State.fset_keeps h1 | with_reducible apply State.mgmtRec_keeps hP
    | with_reducible apply State.withMgmt_keeps h2 | with_reducible exact keeps_pair (by assumption) (by assumption)
    | (split <;> try dsimp only)

theorem execVaonLoss_keeps {P : State → Prop} (hP : Opened [.clock, .draws, .registers, .vectors, .memory,
    .controllers, .answers, .host, .records, .tiles, .parts, .decks, .pages, .thapel, .regulation, .links, .streams,
    .tree, .boot, .power, .package, .management] P) (hr : Restarts P) (hq : KeepsQueue P) (s : State) (oks : P s) {t'
    : State} (e : execVaonLoss s = .next t') : P t' := by
  unfold execVaonLoss at e
  refine keeps_ok hq e ?_
  clear e
  try dsimp only
  repeat' first
    | with_reducible assumption | (intro _; try dsimp only) | with_reducible apply keeps_ite
    | with_reducible apply State.vaonLoss_keeps hP hr | with_reducible exact keeps_pair (by assumption) (by assumption)
    | (split <;> try dsimp only)

theorem execVbatLow_keeps {P : State → Prop} (hP : Opened [.clock, .registers, .management] P) (hq : KeepsQueue P) (s
    : State) (oks : P s) {t' : State} (e : execVbatLow s = .next t') : P t' := by
  have h1 : Opened [.registers] P := hP.mono (by decide)
  have h2 : Opened [.clock] P := hP.mono (by decide)
  have h3 : Opened [.management] P := hP.mono (by decide)
  unfold execVbatLow at e
  refine keeps_ok hq e ?_
  clear e
  try dsimp only
  repeat' first
    | with_reducible assumption | (intro _; try dsimp only) | with_reducible apply keeps_ite
    | with_reducible apply State.fset_keeps h1 | with_reducible apply State.withCalPhase_keeps h2
    | with_reducible apply State.withCalendar_keeps h2 | with_reducible apply State.withMgmt_keeps h3
    | with_reducible exact keeps_pair (by assumption) (by assumption) | (split <;> try dsimp only)

theorem execMemoryRead_keeps {P : State → Prop} (hP : Opened [.draws, .registers, .vectors, .memory, .controllers,
    .answers, .records, .tiles, .parts, .decks, .pages, .thapel, .regulation, .boot, .management] P) (hq : KeepsQueue
    P) (rq : Req) (ups : List Upset) (s : State) (oks : P s) {t' : State} (e : execMemoryRead rq ups s = .next t') : P
    t' := by
  have h1 : Opened [.registers, .vectors, .answers, .thapel] P := hP.mono (by decide)
  have h2 : Opened [.draws, .registers, .vectors, .memory, .controllers, .answers, .records, .tiles, .parts, .decks,
      .pages, .thapel, .boot, .management] P := hP.mono (by decide)
  have h3 : Opened [.draws, .registers, .vectors, .memory, .controllers, .answers, .records, .regulation, .management]
      P := hP.mono (by decide)
  unfold execMemoryRead at e
  refine keeps_ok hq e ?_
  clear e
  try dsimp only
  repeat' first
    | with_reducible assumption | (intro _; try dsimp only) | with_reducible apply keeps_ite
    | with_reducible apply State.ingress_keeps h1 | with_reducible apply State.meet_keeps h2
    | with_reducible apply State.serveRead_keeps h3 | with_reducible exact keeps_pair (by assumption) (by assumption)
    | (split <;> try dsimp only)

theorem execPatrolScrub_keeps {P : State → Prop} (hP : Opened [.draws, .registers, .vectors, .memory, .controllers,
    .answers, .records, .tiles, .parts, .decks, .pages, .thapel, .boot, .management] P) (hq : KeepsQueue P) (hub mem :
    Nat) (ups : List Upset) (s : State) (oks : P s) {t' : State} (e : execPatrolScrub hub mem ups s = .next t') : P t'
    := by
  have h1 : Opened [.registers, .controllers] P := hP.mono (by decide)
  have h2 : Opened [.controllers] P := hP.mono (by decide)
  have h3 : Opened [.registers, .vectors, .memory, .controllers, .answers, .records, .thapel, .management] P :=
      hP.mono (by decide)
  unfold execPatrolScrub at e
  refine keeps_ok hq e ?_
  clear e
  try dsimp only
  repeat' first
    | with_reducible assumption | (intro _; try dsimp only) | with_reducible apply keeps_ite
    | with_reducible apply State.meet_keeps hP | with_reducible apply State.scrubTo_keeps h1
    | with_reducible apply State.withTicks_keeps h2 | with_reducible exact keeps_pair (by assumption) (by assumption)
    | (refine State.scrubRead_keeps h3 ?_ (by assumption)) | (split <;> try dsimp only)

end Sys2Proof.Machine
end

