-- ==== Sys2Proof/Laws/MemForm.lean ====
section
/-!
SUPPORT. The canonical form of memory is open in every area, and a part reset and a loss of VAON keep it.
-/

namespace Sys2Proof.Machine

/-- Bytes written one after another. -/
theorem writeBytes_wf (m : Tbl Byte) (k : Nat) (bs : List Byte) (h : Memory.wf m = true) :
    Memory.wf (writeBytes m k bs) = true := by
  induction bs generalizing m k with
  | nil => exact h
  | cons b bs ih => exact ih _ _ (Tbl.wf_put h)

theorem memOk_opens (a : Area) : Opens MemOk a := by
  cases a
  case memory =>
    exact ⟨fun _ _ h => h, fun _ _ _ h => ⟨writeBytes_wf _ _ _ h.1, h.2⟩, fun _ _ _ h => ⟨h.1, Tbl.wf_put h.2⟩,
      fun _ _ _ h => ⟨Tbl.wf_clearRange h.1, Tbl.wf_clearRange h.2⟩, fun _ _ h => ⟨Tbl.wf_drop _ h.1, h.2⟩,
      fun _ _ h => ⟨h.1, Tbl.wf_drop _ h.2⟩, fun _ _ h => h⟩
  all_goals
    first
    | exact fun _ _ h => h
    | exact ⟨fun _ _ h => h, fun _ _ h => h⟩
    | exact ⟨fun _ _ h => h, fun _ _ h => h, fun _ _ h => h⟩
    | exact ⟨fun _ _ h => h, fun _ _ h => h, fun _ _ h => h, fun _ _ h => h⟩
    | exact ⟨fun _ _ h => h, fun _ _ h => h, fun _ _ h => h, fun _ _ h => h, fun _ _ h => h⟩
    | exact ⟨fun _ _ h => h, fun _ _ h => h, fun _ _ h => h, fun _ _ h => h, fun _ _ h => h, fun _ _ h => h⟩
    | exact ⟨fun _ _ h => h, fun _ _ _ _ h => h, fun _ _ h => h, fun _ _ h => h, fun _ _ h => h⟩
    | exact ⟨fun _ _ _ h => h, fun _ _ h => h, fun _ _ h => h⟩
    | exact ⟨fun _ _ _ h => h, fun _ _ h => h, fun _ _ h => h, fun _ _ h => h, fun _ _ h => h⟩

/-- The canonical form of memory may be claimed of every command. -/
theorem memOk_opened (l : List Area) : Opened l MemOk := fun a _ => memOk_opens a

theorem memOk_queue : KeepsQueue MemOk := fun _ _ h => h

theorem memOk_restarts : Restarts MemOk := by
  constructor
  · intro s h
    unfold State.partReset
    split
    · exact h
    · exact State.fset_keeps (memOk_opened _) _ _ _ _ _ (State.fset_keeps (memOk_opened _) _ _ _ _ _
        (State.fset_keeps (memOk_opened _) _ _ _ _ _ (State.toPhase_keeps (memOk_opened _) _ _ h)))
  · intro s h
    exact ⟨Tbl.wf_filter _ h.1, rfl⟩

end Sys2Proof.Machine
end

