-- ==== Sys2Proof/Laws/State.lean ====
section
/-!
SUPPORT. What each named update of the state leaves in its fields: the field it writes, and every other as it was; so that
no proof unfolds a record update.
-/

namespace Sys2Proof.Machine

variable (s : State)

@[simp] theorem State.withTime_time (v : Nat) : (s.withTime v).time = v := rfl

/-- `State.withTime` writes `time` alone. -/
@[simp] theorem State.withTime_frame (v : Nat) :
    (s.withTime v).pending = s.pending ∧ (s.withTime v).calendar = s.calendar ∧ (s.withTime v).calPhase = s.calPhase ∧
    (s.withTime v).slew = s.slew ∧ (s.withTime v).stepped = s.stepped ∧ (s.withTime v).deckEver = s.deckEver ∧
    (s.withTime v).free = s.free ∧ (s.withTime v).regs = s.regs ∧ (s.withTime v).halfW = s.halfW ∧
    (s.withTime v).halfR = s.halfR ∧ (s.withTime v).sealWide = s.sealWide ∧ (s.withTime v).sealParts = s.sealParts ∧
    (s.withTime v).mem = s.mem ∧ (s.withTime v).chk = s.chk ∧ (s.withTime v).prot = s.prot ∧ (s.withTime v).rsp = s.rsp ∧
    (s.withTime v).errQ = s.errQ ∧ (s.withTime v).recCount = s.recCount ∧ (s.withTime v).vfQ = s.vfQ ∧
    (s.withTime v).ceSince = s.ceSince ∧ (s.withTime v).ticks = s.ticks ∧ (s.withTime v).wbq = s.wbq ∧
    (s.withTime v).merge = s.merge ∧ (s.withTime v).scrub = s.scrub ∧ (s.withTime v).halted = s.halted ∧
    (s.withTime v).msix = s.msix ∧ (s.withTime v).hostReads = s.hostReads ∧ (s.withTime v).hostTag = s.hostTag ∧
    (s.withTime v).tiles = s.tiles ∧ (s.withTime v).arrs = s.arrs ∧ (s.withTime v).thrs = s.thrs ∧
    (s.withTime v).jobs = s.jobs ∧ (s.withTime v).tags = s.tags ∧ (s.withTime v).tileSems = s.tileSems ∧
    (s.withTime v).parts = s.parts ∧ (s.withTime v).sems = s.sems ∧ (s.withTime v).evts = s.evts ∧
    (s.withTime v).decks = s.decks ∧ (s.withTime v).execs = s.execs ∧ (s.withTime v).startNo = s.startNo ∧
    (s.withTime v).suspNo = s.suspNo ∧ (s.withTime v).pinHeld = s.pinHeld ∧ (s.withTime v).dropLater = s.dropLater ∧
    (s.withTime v).allocAt = s.allocAt ∧ (s.withTime v).chans = s.chans ∧ (s.withTime v).thapWait = s.thapWait ∧
    (s.withTime v).stepNo = s.stepNo ∧ (s.withTime v).attn = s.attn ∧ (s.withTime v).accts = s.accts ∧
    (s.withTime v).mons = s.mons ∧ (s.withTime v).margin = s.margin ∧ (s.withTime v).ports = s.ports ∧
    (s.withTime v).probes = s.probes ∧ (s.withTime v).cruiseAt = s.cruiseAt ∧ (s.withTime v).routeImage = s.routeImage ∧
    (s.withTime v).inbox = s.inbox ∧ (s.withTime v).sendCtx = s.sendCtx ∧ (s.withTime v).recvCtx = s.recvCtx ∧
    (s.withTime v).streamNo = s.streamNo ∧ (s.withTime v).syncAt = s.syncAt ∧ (s.withTime v).tree = s.tree ∧
    (s.withTime v).img = s.img ∧ (s.withTime v).fuses = s.fuses ∧ (s.withTime v).boot = s.boot ∧
    (s.withTime v).owner = s.owner ∧ (s.withTime v).power = s.power ∧ (s.withTime v).pkg = s.pkg ∧
    (s.withTime v).mgmt = s.mgmt := by
  and_intros <;> rfl

@[simp] theorem State.withCalendar_calendar (v : Nat) : (s.withCalendar v).calendar = v := rfl

/-- `State.withCalendar` writes `calendar` alone. -/
@[simp] theorem State.withCalendar_frame (v : Nat) :
    (s.withCalendar v).pending = s.pending ∧ (s.withCalendar v).time = s.time ∧ (s.withCalendar v).calPhase = s.calPhase ∧
    (s.withCalendar v).slew = s.slew ∧ (s.withCalendar v).stepped = s.stepped ∧ (s.withCalendar v).deckEver = s.deckEver ∧
    (s.withCalendar v).free = s.free ∧ (s.withCalendar v).regs = s.regs ∧ (s.withCalendar v).halfW = s.halfW ∧
    (s.withCalendar v).halfR = s.halfR ∧ (s.withCalendar v).sealWide = s.sealWide ∧
    (s.withCalendar v).sealParts = s.sealParts ∧ (s.withCalendar v).mem = s.mem ∧ (s.withCalendar v).chk = s.chk ∧
    (s.withCalendar v).prot = s.prot ∧ (s.withCalendar v).rsp = s.rsp ∧ (s.withCalendar v).errQ = s.errQ ∧
    (s.withCalendar v).recCount = s.recCount ∧ (s.withCalendar v).vfQ = s.vfQ ∧ (s.withCalendar v).ceSince = s.ceSince ∧
    (s.withCalendar v).ticks = s.ticks ∧ (s.withCalendar v).wbq = s.wbq ∧ (s.withCalendar v).merge = s.merge ∧
    (s.withCalendar v).scrub = s.scrub ∧ (s.withCalendar v).halted = s.halted ∧ (s.withCalendar v).msix = s.msix ∧
    (s.withCalendar v).hostReads = s.hostReads ∧ (s.withCalendar v).hostTag = s.hostTag ∧
    (s.withCalendar v).tiles = s.tiles ∧ (s.withCalendar v).arrs = s.arrs ∧ (s.withCalendar v).thrs = s.thrs ∧
    (s.withCalendar v).jobs = s.jobs ∧ (s.withCalendar v).tags = s.tags ∧ (s.withCalendar v).tileSems = s.tileSems ∧
    (s.withCalendar v).parts = s.parts ∧ (s.withCalendar v).sems = s.sems ∧ (s.withCalendar v).evts = s.evts ∧
    (s.withCalendar v).decks = s.decks ∧ (s.withCalendar v).execs = s.execs ∧ (s.withCalendar v).startNo = s.startNo ∧
    (s.withCalendar v).suspNo = s.suspNo ∧ (s.withCalendar v).pinHeld = s.pinHeld ∧
    (s.withCalendar v).dropLater = s.dropLater ∧ (s.withCalendar v).allocAt = s.allocAt ∧
    (s.withCalendar v).chans = s.chans ∧ (s.withCalendar v).thapWait = s.thapWait ∧ (s.withCalendar v).stepNo = s.stepNo ∧
    (s.withCalendar v).attn = s.attn ∧ (s.withCalendar v).accts = s.accts ∧ (s.withCalendar v).mons = s.mons ∧
    (s.withCalendar v).margin = s.margin ∧ (s.withCalendar v).ports = s.ports ∧ (s.withCalendar v).probes = s.probes ∧
    (s.withCalendar v).cruiseAt = s.cruiseAt ∧ (s.withCalendar v).routeImage = s.routeImage ∧
    (s.withCalendar v).inbox = s.inbox ∧ (s.withCalendar v).sendCtx = s.sendCtx ∧ (s.withCalendar v).recvCtx = s.recvCtx ∧
    (s.withCalendar v).streamNo = s.streamNo ∧ (s.withCalendar v).syncAt = s.syncAt ∧ (s.withCalendar v).tree = s.tree ∧
    (s.withCalendar v).img = s.img ∧ (s.withCalendar v).fuses = s.fuses ∧ (s.withCalendar v).boot = s.boot ∧
    (s.withCalendar v).owner = s.owner ∧ (s.withCalendar v).power = s.power ∧ (s.withCalendar v).pkg = s.pkg ∧
    (s.withCalendar v).mgmt = s.mgmt := by
  and_intros <;> rfl

@[simp] theorem State.withCalPhase_calPhase (v : Nat) : (s.withCalPhase v).calPhase = v := rfl

/-- `State.withCalPhase` writes `calPhase` alone. -/
@[simp] theorem State.withCalPhase_frame (v : Nat) :
    (s.withCalPhase v).pending = s.pending ∧ (s.withCalPhase v).time = s.time ∧ (s.withCalPhase v).calendar = s.calendar ∧
    (s.withCalPhase v).slew = s.slew ∧ (s.withCalPhase v).stepped = s.stepped ∧ (s.withCalPhase v).deckEver = s.deckEver ∧
    (s.withCalPhase v).free = s.free ∧ (s.withCalPhase v).regs = s.regs ∧ (s.withCalPhase v).halfW = s.halfW ∧
    (s.withCalPhase v).halfR = s.halfR ∧ (s.withCalPhase v).sealWide = s.sealWide ∧
    (s.withCalPhase v).sealParts = s.sealParts ∧ (s.withCalPhase v).mem = s.mem ∧ (s.withCalPhase v).chk = s.chk ∧
    (s.withCalPhase v).prot = s.prot ∧ (s.withCalPhase v).rsp = s.rsp ∧ (s.withCalPhase v).errQ = s.errQ ∧
    (s.withCalPhase v).recCount = s.recCount ∧ (s.withCalPhase v).vfQ = s.vfQ ∧ (s.withCalPhase v).ceSince = s.ceSince ∧
    (s.withCalPhase v).ticks = s.ticks ∧ (s.withCalPhase v).wbq = s.wbq ∧ (s.withCalPhase v).merge = s.merge ∧
    (s.withCalPhase v).scrub = s.scrub ∧ (s.withCalPhase v).halted = s.halted ∧ (s.withCalPhase v).msix = s.msix ∧
    (s.withCalPhase v).hostReads = s.hostReads ∧ (s.withCalPhase v).hostTag = s.hostTag ∧
    (s.withCalPhase v).tiles = s.tiles ∧ (s.withCalPhase v).arrs = s.arrs ∧ (s.withCalPhase v).thrs = s.thrs ∧
    (s.withCalPhase v).jobs = s.jobs ∧ (s.withCalPhase v).tags = s.tags ∧ (s.withCalPhase v).tileSems = s.tileSems ∧
    (s.withCalPhase v).parts = s.parts ∧ (s.withCalPhase v).sems = s.sems ∧ (s.withCalPhase v).evts = s.evts ∧
    (s.withCalPhase v).decks = s.decks ∧ (s.withCalPhase v).execs = s.execs ∧ (s.withCalPhase v).startNo = s.startNo ∧
    (s.withCalPhase v).suspNo = s.suspNo ∧ (s.withCalPhase v).pinHeld = s.pinHeld ∧
    (s.withCalPhase v).dropLater = s.dropLater ∧ (s.withCalPhase v).allocAt = s.allocAt ∧
    (s.withCalPhase v).chans = s.chans ∧ (s.withCalPhase v).thapWait = s.thapWait ∧ (s.withCalPhase v).stepNo = s.stepNo ∧
    (s.withCalPhase v).attn = s.attn ∧ (s.withCalPhase v).accts = s.accts ∧ (s.withCalPhase v).mons = s.mons ∧
    (s.withCalPhase v).margin = s.margin ∧ (s.withCalPhase v).ports = s.ports ∧ (s.withCalPhase v).probes = s.probes ∧
    (s.withCalPhase v).cruiseAt = s.cruiseAt ∧ (s.withCalPhase v).routeImage = s.routeImage ∧
    (s.withCalPhase v).inbox = s.inbox ∧ (s.withCalPhase v).sendCtx = s.sendCtx ∧ (s.withCalPhase v).recvCtx = s.recvCtx ∧
    (s.withCalPhase v).streamNo = s.streamNo ∧ (s.withCalPhase v).syncAt = s.syncAt ∧ (s.withCalPhase v).tree = s.tree ∧
    (s.withCalPhase v).img = s.img ∧ (s.withCalPhase v).fuses = s.fuses ∧ (s.withCalPhase v).boot = s.boot ∧
    (s.withCalPhase v).owner = s.owner ∧ (s.withCalPhase v).power = s.power ∧ (s.withCalPhase v).pkg = s.pkg ∧
    (s.withCalPhase v).mgmt = s.mgmt := by
  and_intros <;> rfl

@[simp] theorem State.withSlew_slew (v : Int) : (s.withSlew v).slew = v := rfl

/-- `State.withSlew` writes `slew` alone. -/
@[simp] theorem State.withSlew_frame (v : Int) :
    (s.withSlew v).pending = s.pending ∧ (s.withSlew v).time = s.time ∧ (s.withSlew v).calendar = s.calendar ∧
    (s.withSlew v).calPhase = s.calPhase ∧ (s.withSlew v).stepped = s.stepped ∧ (s.withSlew v).deckEver = s.deckEver ∧
    (s.withSlew v).free = s.free ∧ (s.withSlew v).regs = s.regs ∧ (s.withSlew v).halfW = s.halfW ∧
    (s.withSlew v).halfR = s.halfR ∧ (s.withSlew v).sealWide = s.sealWide ∧ (s.withSlew v).sealParts = s.sealParts ∧
    (s.withSlew v).mem = s.mem ∧ (s.withSlew v).chk = s.chk ∧ (s.withSlew v).prot = s.prot ∧ (s.withSlew v).rsp = s.rsp ∧
    (s.withSlew v).errQ = s.errQ ∧ (s.withSlew v).recCount = s.recCount ∧ (s.withSlew v).vfQ = s.vfQ ∧
    (s.withSlew v).ceSince = s.ceSince ∧ (s.withSlew v).ticks = s.ticks ∧ (s.withSlew v).wbq = s.wbq ∧
    (s.withSlew v).merge = s.merge ∧ (s.withSlew v).scrub = s.scrub ∧ (s.withSlew v).halted = s.halted ∧
    (s.withSlew v).msix = s.msix ∧ (s.withSlew v).hostReads = s.hostReads ∧ (s.withSlew v).hostTag = s.hostTag ∧
    (s.withSlew v).tiles = s.tiles ∧ (s.withSlew v).arrs = s.arrs ∧ (s.withSlew v).thrs = s.thrs ∧
    (s.withSlew v).jobs = s.jobs ∧ (s.withSlew v).tags = s.tags ∧ (s.withSlew v).tileSems = s.tileSems ∧
    (s.withSlew v).parts = s.parts ∧ (s.withSlew v).sems = s.sems ∧ (s.withSlew v).evts = s.evts ∧
    (s.withSlew v).decks = s.decks ∧ (s.withSlew v).execs = s.execs ∧ (s.withSlew v).startNo = s.startNo ∧
    (s.withSlew v).suspNo = s.suspNo ∧ (s.withSlew v).pinHeld = s.pinHeld ∧ (s.withSlew v).dropLater = s.dropLater ∧
    (s.withSlew v).allocAt = s.allocAt ∧ (s.withSlew v).chans = s.chans ∧ (s.withSlew v).thapWait = s.thapWait ∧
    (s.withSlew v).stepNo = s.stepNo ∧ (s.withSlew v).attn = s.attn ∧ (s.withSlew v).accts = s.accts ∧
    (s.withSlew v).mons = s.mons ∧ (s.withSlew v).margin = s.margin ∧ (s.withSlew v).ports = s.ports ∧
    (s.withSlew v).probes = s.probes ∧ (s.withSlew v).cruiseAt = s.cruiseAt ∧ (s.withSlew v).routeImage = s.routeImage ∧
    (s.withSlew v).inbox = s.inbox ∧ (s.withSlew v).sendCtx = s.sendCtx ∧ (s.withSlew v).recvCtx = s.recvCtx ∧
    (s.withSlew v).streamNo = s.streamNo ∧ (s.withSlew v).syncAt = s.syncAt ∧ (s.withSlew v).tree = s.tree ∧
    (s.withSlew v).img = s.img ∧ (s.withSlew v).fuses = s.fuses ∧ (s.withSlew v).boot = s.boot ∧
    (s.withSlew v).owner = s.owner ∧ (s.withSlew v).power = s.power ∧ (s.withSlew v).pkg = s.pkg ∧
    (s.withSlew v).mgmt = s.mgmt := by
  and_intros <;> rfl

@[simp] theorem State.withStepped_stepped (v : Bool) : (s.withStepped v).stepped = v := rfl

/-- `State.withStepped` writes `stepped` alone. -/
@[simp] theorem State.withStepped_frame (v : Bool) :
    (s.withStepped v).pending = s.pending ∧ (s.withStepped v).time = s.time ∧ (s.withStepped v).calendar = s.calendar ∧
    (s.withStepped v).calPhase = s.calPhase ∧ (s.withStepped v).slew = s.slew ∧ (s.withStepped v).deckEver = s.deckEver ∧
    (s.withStepped v).free = s.free ∧ (s.withStepped v).regs = s.regs ∧ (s.withStepped v).halfW = s.halfW ∧
    (s.withStepped v).halfR = s.halfR ∧ (s.withStepped v).sealWide = s.sealWide ∧
    (s.withStepped v).sealParts = s.sealParts ∧ (s.withStepped v).mem = s.mem ∧ (s.withStepped v).chk = s.chk ∧
    (s.withStepped v).prot = s.prot ∧ (s.withStepped v).rsp = s.rsp ∧ (s.withStepped v).errQ = s.errQ ∧
    (s.withStepped v).recCount = s.recCount ∧ (s.withStepped v).vfQ = s.vfQ ∧ (s.withStepped v).ceSince = s.ceSince ∧
    (s.withStepped v).ticks = s.ticks ∧ (s.withStepped v).wbq = s.wbq ∧ (s.withStepped v).merge = s.merge ∧
    (s.withStepped v).scrub = s.scrub ∧ (s.withStepped v).halted = s.halted ∧ (s.withStepped v).msix = s.msix ∧
    (s.withStepped v).hostReads = s.hostReads ∧ (s.withStepped v).hostTag = s.hostTag ∧ (s.withStepped v).tiles = s.tiles ∧
    (s.withStepped v).arrs = s.arrs ∧ (s.withStepped v).thrs = s.thrs ∧ (s.withStepped v).jobs = s.jobs ∧
    (s.withStepped v).tags = s.tags ∧ (s.withStepped v).tileSems = s.tileSems ∧ (s.withStepped v).parts = s.parts ∧
    (s.withStepped v).sems = s.sems ∧ (s.withStepped v).evts = s.evts ∧ (s.withStepped v).decks = s.decks ∧
    (s.withStepped v).execs = s.execs ∧ (s.withStepped v).startNo = s.startNo ∧ (s.withStepped v).suspNo = s.suspNo ∧
    (s.withStepped v).pinHeld = s.pinHeld ∧ (s.withStepped v).dropLater = s.dropLater ∧
    (s.withStepped v).allocAt = s.allocAt ∧ (s.withStepped v).chans = s.chans ∧ (s.withStepped v).thapWait = s.thapWait ∧
    (s.withStepped v).stepNo = s.stepNo ∧ (s.withStepped v).attn = s.attn ∧ (s.withStepped v).accts = s.accts ∧
    (s.withStepped v).mons = s.mons ∧ (s.withStepped v).margin = s.margin ∧ (s.withStepped v).ports = s.ports ∧
    (s.withStepped v).probes = s.probes ∧ (s.withStepped v).cruiseAt = s.cruiseAt ∧
    (s.withStepped v).routeImage = s.routeImage ∧ (s.withStepped v).inbox = s.inbox ∧
    (s.withStepped v).sendCtx = s.sendCtx ∧ (s.withStepped v).recvCtx = s.recvCtx ∧
    (s.withStepped v).streamNo = s.streamNo ∧ (s.withStepped v).syncAt = s.syncAt ∧ (s.withStepped v).tree = s.tree ∧
    (s.withStepped v).img = s.img ∧ (s.withStepped v).fuses = s.fuses ∧ (s.withStepped v).boot = s.boot ∧
    (s.withStepped v).owner = s.owner ∧ (s.withStepped v).power = s.power ∧ (s.withStepped v).pkg = s.pkg ∧
    (s.withStepped v).mgmt = s.mgmt := by
  and_intros <;> rfl

@[simp] theorem State.withDeckEver_deckEver (v : Bool) : (s.withDeckEver v).deckEver = v := rfl

/-- `State.withDeckEver` writes `deckEver` alone. -/
@[simp] theorem State.withDeckEver_frame (v : Bool) :
    (s.withDeckEver v).pending = s.pending ∧ (s.withDeckEver v).time = s.time ∧ (s.withDeckEver v).calendar = s.calendar ∧
    (s.withDeckEver v).calPhase = s.calPhase ∧ (s.withDeckEver v).slew = s.slew ∧ (s.withDeckEver v).stepped = s.stepped ∧
    (s.withDeckEver v).free = s.free ∧ (s.withDeckEver v).regs = s.regs ∧ (s.withDeckEver v).halfW = s.halfW ∧
    (s.withDeckEver v).halfR = s.halfR ∧ (s.withDeckEver v).sealWide = s.sealWide ∧
    (s.withDeckEver v).sealParts = s.sealParts ∧ (s.withDeckEver v).mem = s.mem ∧ (s.withDeckEver v).chk = s.chk ∧
    (s.withDeckEver v).prot = s.prot ∧ (s.withDeckEver v).rsp = s.rsp ∧ (s.withDeckEver v).errQ = s.errQ ∧
    (s.withDeckEver v).recCount = s.recCount ∧ (s.withDeckEver v).vfQ = s.vfQ ∧ (s.withDeckEver v).ceSince = s.ceSince ∧
    (s.withDeckEver v).ticks = s.ticks ∧ (s.withDeckEver v).wbq = s.wbq ∧ (s.withDeckEver v).merge = s.merge ∧
    (s.withDeckEver v).scrub = s.scrub ∧ (s.withDeckEver v).halted = s.halted ∧ (s.withDeckEver v).msix = s.msix ∧
    (s.withDeckEver v).hostReads = s.hostReads ∧ (s.withDeckEver v).hostTag = s.hostTag ∧
    (s.withDeckEver v).tiles = s.tiles ∧ (s.withDeckEver v).arrs = s.arrs ∧ (s.withDeckEver v).thrs = s.thrs ∧
    (s.withDeckEver v).jobs = s.jobs ∧ (s.withDeckEver v).tags = s.tags ∧ (s.withDeckEver v).tileSems = s.tileSems ∧
    (s.withDeckEver v).parts = s.parts ∧ (s.withDeckEver v).sems = s.sems ∧ (s.withDeckEver v).evts = s.evts ∧
    (s.withDeckEver v).decks = s.decks ∧ (s.withDeckEver v).execs = s.execs ∧ (s.withDeckEver v).startNo = s.startNo ∧
    (s.withDeckEver v).suspNo = s.suspNo ∧ (s.withDeckEver v).pinHeld = s.pinHeld ∧
    (s.withDeckEver v).dropLater = s.dropLater ∧ (s.withDeckEver v).allocAt = s.allocAt ∧
    (s.withDeckEver v).chans = s.chans ∧ (s.withDeckEver v).thapWait = s.thapWait ∧ (s.withDeckEver v).stepNo = s.stepNo ∧
    (s.withDeckEver v).attn = s.attn ∧ (s.withDeckEver v).accts = s.accts ∧ (s.withDeckEver v).mons = s.mons ∧
    (s.withDeckEver v).margin = s.margin ∧ (s.withDeckEver v).ports = s.ports ∧ (s.withDeckEver v).probes = s.probes ∧
    (s.withDeckEver v).cruiseAt = s.cruiseAt ∧ (s.withDeckEver v).routeImage = s.routeImage ∧
    (s.withDeckEver v).inbox = s.inbox ∧ (s.withDeckEver v).sendCtx = s.sendCtx ∧ (s.withDeckEver v).recvCtx = s.recvCtx ∧
    (s.withDeckEver v).streamNo = s.streamNo ∧ (s.withDeckEver v).syncAt = s.syncAt ∧ (s.withDeckEver v).tree = s.tree ∧
    (s.withDeckEver v).img = s.img ∧ (s.withDeckEver v).fuses = s.fuses ∧ (s.withDeckEver v).boot = s.boot ∧
    (s.withDeckEver v).owner = s.owner ∧ (s.withDeckEver v).power = s.power ∧ (s.withDeckEver v).pkg = s.pkg ∧
    (s.withDeckEver v).mgmt = s.mgmt := by
  and_intros <;> rfl

@[simp] theorem State.withFree_free (v : Nat) : (s.withFree v).free = v := rfl

/-- `State.withFree` writes `free` alone. -/
@[simp] theorem State.withFree_frame (v : Nat) :
    (s.withFree v).pending = s.pending ∧ (s.withFree v).time = s.time ∧ (s.withFree v).calendar = s.calendar ∧
    (s.withFree v).calPhase = s.calPhase ∧ (s.withFree v).slew = s.slew ∧ (s.withFree v).stepped = s.stepped ∧
    (s.withFree v).deckEver = s.deckEver ∧ (s.withFree v).regs = s.regs ∧ (s.withFree v).halfW = s.halfW ∧
    (s.withFree v).halfR = s.halfR ∧ (s.withFree v).sealWide = s.sealWide ∧ (s.withFree v).sealParts = s.sealParts ∧
    (s.withFree v).mem = s.mem ∧ (s.withFree v).chk = s.chk ∧ (s.withFree v).prot = s.prot ∧ (s.withFree v).rsp = s.rsp ∧
    (s.withFree v).errQ = s.errQ ∧ (s.withFree v).recCount = s.recCount ∧ (s.withFree v).vfQ = s.vfQ ∧
    (s.withFree v).ceSince = s.ceSince ∧ (s.withFree v).ticks = s.ticks ∧ (s.withFree v).wbq = s.wbq ∧
    (s.withFree v).merge = s.merge ∧ (s.withFree v).scrub = s.scrub ∧ (s.withFree v).halted = s.halted ∧
    (s.withFree v).msix = s.msix ∧ (s.withFree v).hostReads = s.hostReads ∧ (s.withFree v).hostTag = s.hostTag ∧
    (s.withFree v).tiles = s.tiles ∧ (s.withFree v).arrs = s.arrs ∧ (s.withFree v).thrs = s.thrs ∧
    (s.withFree v).jobs = s.jobs ∧ (s.withFree v).tags = s.tags ∧ (s.withFree v).tileSems = s.tileSems ∧
    (s.withFree v).parts = s.parts ∧ (s.withFree v).sems = s.sems ∧ (s.withFree v).evts = s.evts ∧
    (s.withFree v).decks = s.decks ∧ (s.withFree v).execs = s.execs ∧ (s.withFree v).startNo = s.startNo ∧
    (s.withFree v).suspNo = s.suspNo ∧ (s.withFree v).pinHeld = s.pinHeld ∧ (s.withFree v).dropLater = s.dropLater ∧
    (s.withFree v).allocAt = s.allocAt ∧ (s.withFree v).chans = s.chans ∧ (s.withFree v).thapWait = s.thapWait ∧
    (s.withFree v).stepNo = s.stepNo ∧ (s.withFree v).attn = s.attn ∧ (s.withFree v).accts = s.accts ∧
    (s.withFree v).mons = s.mons ∧ (s.withFree v).margin = s.margin ∧ (s.withFree v).ports = s.ports ∧
    (s.withFree v).probes = s.probes ∧ (s.withFree v).cruiseAt = s.cruiseAt ∧ (s.withFree v).routeImage = s.routeImage ∧
    (s.withFree v).inbox = s.inbox ∧ (s.withFree v).sendCtx = s.sendCtx ∧ (s.withFree v).recvCtx = s.recvCtx ∧
    (s.withFree v).streamNo = s.streamNo ∧ (s.withFree v).syncAt = s.syncAt ∧ (s.withFree v).tree = s.tree ∧
    (s.withFree v).img = s.img ∧ (s.withFree v).fuses = s.fuses ∧ (s.withFree v).boot = s.boot ∧
    (s.withFree v).owner = s.owner ∧ (s.withFree v).power = s.power ∧ (s.withFree v).pkg = s.pkg ∧
    (s.withFree v).mgmt = s.mgmt := by
  and_intros <;> rfl

@[simp] theorem State.withRegs_regs (v : Tbl Nat) : (s.withRegs v).regs = v := rfl

/-- `State.withRegs` writes `regs` alone. -/
@[simp] theorem State.withRegs_frame (v : Tbl Nat) :
    (s.withRegs v).pending = s.pending ∧ (s.withRegs v).time = s.time ∧ (s.withRegs v).calendar = s.calendar ∧
    (s.withRegs v).calPhase = s.calPhase ∧ (s.withRegs v).slew = s.slew ∧ (s.withRegs v).stepped = s.stepped ∧
    (s.withRegs v).deckEver = s.deckEver ∧ (s.withRegs v).free = s.free ∧ (s.withRegs v).halfW = s.halfW ∧
    (s.withRegs v).halfR = s.halfR ∧ (s.withRegs v).sealWide = s.sealWide ∧ (s.withRegs v).sealParts = s.sealParts ∧
    (s.withRegs v).mem = s.mem ∧ (s.withRegs v).chk = s.chk ∧ (s.withRegs v).prot = s.prot ∧ (s.withRegs v).rsp = s.rsp ∧
    (s.withRegs v).errQ = s.errQ ∧ (s.withRegs v).recCount = s.recCount ∧ (s.withRegs v).vfQ = s.vfQ ∧
    (s.withRegs v).ceSince = s.ceSince ∧ (s.withRegs v).ticks = s.ticks ∧ (s.withRegs v).wbq = s.wbq ∧
    (s.withRegs v).merge = s.merge ∧ (s.withRegs v).scrub = s.scrub ∧ (s.withRegs v).halted = s.halted ∧
    (s.withRegs v).msix = s.msix ∧ (s.withRegs v).hostReads = s.hostReads ∧ (s.withRegs v).hostTag = s.hostTag ∧
    (s.withRegs v).tiles = s.tiles ∧ (s.withRegs v).arrs = s.arrs ∧ (s.withRegs v).thrs = s.thrs ∧
    (s.withRegs v).jobs = s.jobs ∧ (s.withRegs v).tags = s.tags ∧ (s.withRegs v).tileSems = s.tileSems ∧
    (s.withRegs v).parts = s.parts ∧ (s.withRegs v).sems = s.sems ∧ (s.withRegs v).evts = s.evts ∧
    (s.withRegs v).decks = s.decks ∧ (s.withRegs v).execs = s.execs ∧ (s.withRegs v).startNo = s.startNo ∧
    (s.withRegs v).suspNo = s.suspNo ∧ (s.withRegs v).pinHeld = s.pinHeld ∧ (s.withRegs v).dropLater = s.dropLater ∧
    (s.withRegs v).allocAt = s.allocAt ∧ (s.withRegs v).chans = s.chans ∧ (s.withRegs v).thapWait = s.thapWait ∧
    (s.withRegs v).stepNo = s.stepNo ∧ (s.withRegs v).attn = s.attn ∧ (s.withRegs v).accts = s.accts ∧
    (s.withRegs v).mons = s.mons ∧ (s.withRegs v).margin = s.margin ∧ (s.withRegs v).ports = s.ports ∧
    (s.withRegs v).probes = s.probes ∧ (s.withRegs v).cruiseAt = s.cruiseAt ∧ (s.withRegs v).routeImage = s.routeImage ∧
    (s.withRegs v).inbox = s.inbox ∧ (s.withRegs v).sendCtx = s.sendCtx ∧ (s.withRegs v).recvCtx = s.recvCtx ∧
    (s.withRegs v).streamNo = s.streamNo ∧ (s.withRegs v).syncAt = s.syncAt ∧ (s.withRegs v).tree = s.tree ∧
    (s.withRegs v).img = s.img ∧ (s.withRegs v).fuses = s.fuses ∧ (s.withRegs v).boot = s.boot ∧
    (s.withRegs v).owner = s.owner ∧ (s.withRegs v).power = s.power ∧ (s.withRegs v).pkg = s.pkg ∧
    (s.withRegs v).mgmt = s.mgmt := by
  and_intros <;> rfl

@[simp] theorem State.withHalfW_halfW (v : Tbl (Nat × Nat)) : (s.withHalfW v).halfW = v := rfl

/-- `State.withHalfW` writes `halfW` alone. -/
@[simp] theorem State.withHalfW_frame (v : Tbl (Nat × Nat)) :
    (s.withHalfW v).pending = s.pending ∧ (s.withHalfW v).time = s.time ∧ (s.withHalfW v).calendar = s.calendar ∧
    (s.withHalfW v).calPhase = s.calPhase ∧ (s.withHalfW v).slew = s.slew ∧ (s.withHalfW v).stepped = s.stepped ∧
    (s.withHalfW v).deckEver = s.deckEver ∧ (s.withHalfW v).free = s.free ∧ (s.withHalfW v).regs = s.regs ∧
    (s.withHalfW v).halfR = s.halfR ∧ (s.withHalfW v).sealWide = s.sealWide ∧ (s.withHalfW v).sealParts = s.sealParts ∧
    (s.withHalfW v).mem = s.mem ∧ (s.withHalfW v).chk = s.chk ∧ (s.withHalfW v).prot = s.prot ∧
    (s.withHalfW v).rsp = s.rsp ∧ (s.withHalfW v).errQ = s.errQ ∧ (s.withHalfW v).recCount = s.recCount ∧
    (s.withHalfW v).vfQ = s.vfQ ∧ (s.withHalfW v).ceSince = s.ceSince ∧ (s.withHalfW v).ticks = s.ticks ∧
    (s.withHalfW v).wbq = s.wbq ∧ (s.withHalfW v).merge = s.merge ∧ (s.withHalfW v).scrub = s.scrub ∧
    (s.withHalfW v).halted = s.halted ∧ (s.withHalfW v).msix = s.msix ∧ (s.withHalfW v).hostReads = s.hostReads ∧
    (s.withHalfW v).hostTag = s.hostTag ∧ (s.withHalfW v).tiles = s.tiles ∧ (s.withHalfW v).arrs = s.arrs ∧
    (s.withHalfW v).thrs = s.thrs ∧ (s.withHalfW v).jobs = s.jobs ∧ (s.withHalfW v).tags = s.tags ∧
    (s.withHalfW v).tileSems = s.tileSems ∧ (s.withHalfW v).parts = s.parts ∧ (s.withHalfW v).sems = s.sems ∧
    (s.withHalfW v).evts = s.evts ∧ (s.withHalfW v).decks = s.decks ∧ (s.withHalfW v).execs = s.execs ∧
    (s.withHalfW v).startNo = s.startNo ∧ (s.withHalfW v).suspNo = s.suspNo ∧ (s.withHalfW v).pinHeld = s.pinHeld ∧
    (s.withHalfW v).dropLater = s.dropLater ∧ (s.withHalfW v).allocAt = s.allocAt ∧ (s.withHalfW v).chans = s.chans ∧
    (s.withHalfW v).thapWait = s.thapWait ∧ (s.withHalfW v).stepNo = s.stepNo ∧ (s.withHalfW v).attn = s.attn ∧
    (s.withHalfW v).accts = s.accts ∧ (s.withHalfW v).mons = s.mons ∧ (s.withHalfW v).margin = s.margin ∧
    (s.withHalfW v).ports = s.ports ∧ (s.withHalfW v).probes = s.probes ∧ (s.withHalfW v).cruiseAt = s.cruiseAt ∧
    (s.withHalfW v).routeImage = s.routeImage ∧ (s.withHalfW v).inbox = s.inbox ∧ (s.withHalfW v).sendCtx = s.sendCtx ∧
    (s.withHalfW v).recvCtx = s.recvCtx ∧ (s.withHalfW v).streamNo = s.streamNo ∧ (s.withHalfW v).syncAt = s.syncAt ∧
    (s.withHalfW v).tree = s.tree ∧ (s.withHalfW v).img = s.img ∧ (s.withHalfW v).fuses = s.fuses ∧
    (s.withHalfW v).boot = s.boot ∧ (s.withHalfW v).owner = s.owner ∧ (s.withHalfW v).power = s.power ∧
    (s.withHalfW v).pkg = s.pkg ∧ (s.withHalfW v).mgmt = s.mgmt := by
  and_intros <;> rfl

@[simp] theorem State.withHalfR_halfR (v : Tbl (Nat × Nat)) : (s.withHalfR v).halfR = v := rfl

/-- `State.withHalfR` writes `halfR` alone. -/
@[simp] theorem State.withHalfR_frame (v : Tbl (Nat × Nat)) :
    (s.withHalfR v).pending = s.pending ∧ (s.withHalfR v).time = s.time ∧ (s.withHalfR v).calendar = s.calendar ∧
    (s.withHalfR v).calPhase = s.calPhase ∧ (s.withHalfR v).slew = s.slew ∧ (s.withHalfR v).stepped = s.stepped ∧
    (s.withHalfR v).deckEver = s.deckEver ∧ (s.withHalfR v).free = s.free ∧ (s.withHalfR v).regs = s.regs ∧
    (s.withHalfR v).halfW = s.halfW ∧ (s.withHalfR v).sealWide = s.sealWide ∧ (s.withHalfR v).sealParts = s.sealParts ∧
    (s.withHalfR v).mem = s.mem ∧ (s.withHalfR v).chk = s.chk ∧ (s.withHalfR v).prot = s.prot ∧
    (s.withHalfR v).rsp = s.rsp ∧ (s.withHalfR v).errQ = s.errQ ∧ (s.withHalfR v).recCount = s.recCount ∧
    (s.withHalfR v).vfQ = s.vfQ ∧ (s.withHalfR v).ceSince = s.ceSince ∧ (s.withHalfR v).ticks = s.ticks ∧
    (s.withHalfR v).wbq = s.wbq ∧ (s.withHalfR v).merge = s.merge ∧ (s.withHalfR v).scrub = s.scrub ∧
    (s.withHalfR v).halted = s.halted ∧ (s.withHalfR v).msix = s.msix ∧ (s.withHalfR v).hostReads = s.hostReads ∧
    (s.withHalfR v).hostTag = s.hostTag ∧ (s.withHalfR v).tiles = s.tiles ∧ (s.withHalfR v).arrs = s.arrs ∧
    (s.withHalfR v).thrs = s.thrs ∧ (s.withHalfR v).jobs = s.jobs ∧ (s.withHalfR v).tags = s.tags ∧
    (s.withHalfR v).tileSems = s.tileSems ∧ (s.withHalfR v).parts = s.parts ∧ (s.withHalfR v).sems = s.sems ∧
    (s.withHalfR v).evts = s.evts ∧ (s.withHalfR v).decks = s.decks ∧ (s.withHalfR v).execs = s.execs ∧
    (s.withHalfR v).startNo = s.startNo ∧ (s.withHalfR v).suspNo = s.suspNo ∧ (s.withHalfR v).pinHeld = s.pinHeld ∧
    (s.withHalfR v).dropLater = s.dropLater ∧ (s.withHalfR v).allocAt = s.allocAt ∧ (s.withHalfR v).chans = s.chans ∧
    (s.withHalfR v).thapWait = s.thapWait ∧ (s.withHalfR v).stepNo = s.stepNo ∧ (s.withHalfR v).attn = s.attn ∧
    (s.withHalfR v).accts = s.accts ∧ (s.withHalfR v).mons = s.mons ∧ (s.withHalfR v).margin = s.margin ∧
    (s.withHalfR v).ports = s.ports ∧ (s.withHalfR v).probes = s.probes ∧ (s.withHalfR v).cruiseAt = s.cruiseAt ∧
    (s.withHalfR v).routeImage = s.routeImage ∧ (s.withHalfR v).inbox = s.inbox ∧ (s.withHalfR v).sendCtx = s.sendCtx ∧
    (s.withHalfR v).recvCtx = s.recvCtx ∧ (s.withHalfR v).streamNo = s.streamNo ∧ (s.withHalfR v).syncAt = s.syncAt ∧
    (s.withHalfR v).tree = s.tree ∧ (s.withHalfR v).img = s.img ∧ (s.withHalfR v).fuses = s.fuses ∧
    (s.withHalfR v).boot = s.boot ∧ (s.withHalfR v).owner = s.owner ∧ (s.withHalfR v).power = s.power ∧
    (s.withHalfR v).pkg = s.pkg ∧ (s.withHalfR v).mgmt = s.mgmt := by
  and_intros <;> rfl

@[simp] theorem State.withSealWide_sealWide (v : Bool) : (s.withSealWide v).sealWide = v := rfl

/-- `State.withSealWide` writes `sealWide` alone. -/
@[simp] theorem State.withSealWide_frame (v : Bool) :
    (s.withSealWide v).pending = s.pending ∧ (s.withSealWide v).time = s.time ∧ (s.withSealWide v).calendar = s.calendar ∧
    (s.withSealWide v).calPhase = s.calPhase ∧ (s.withSealWide v).slew = s.slew ∧ (s.withSealWide v).stepped = s.stepped ∧
    (s.withSealWide v).deckEver = s.deckEver ∧ (s.withSealWide v).free = s.free ∧ (s.withSealWide v).regs = s.regs ∧
    (s.withSealWide v).halfW = s.halfW ∧ (s.withSealWide v).halfR = s.halfR ∧ (s.withSealWide v).sealParts = s.sealParts ∧
    (s.withSealWide v).mem = s.mem ∧ (s.withSealWide v).chk = s.chk ∧ (s.withSealWide v).prot = s.prot ∧
    (s.withSealWide v).rsp = s.rsp ∧ (s.withSealWide v).errQ = s.errQ ∧ (s.withSealWide v).recCount = s.recCount ∧
    (s.withSealWide v).vfQ = s.vfQ ∧ (s.withSealWide v).ceSince = s.ceSince ∧ (s.withSealWide v).ticks = s.ticks ∧
    (s.withSealWide v).wbq = s.wbq ∧ (s.withSealWide v).merge = s.merge ∧ (s.withSealWide v).scrub = s.scrub ∧
    (s.withSealWide v).halted = s.halted ∧ (s.withSealWide v).msix = s.msix ∧ (s.withSealWide v).hostReads = s.hostReads ∧
    (s.withSealWide v).hostTag = s.hostTag ∧ (s.withSealWide v).tiles = s.tiles ∧ (s.withSealWide v).arrs = s.arrs ∧
    (s.withSealWide v).thrs = s.thrs ∧ (s.withSealWide v).jobs = s.jobs ∧ (s.withSealWide v).tags = s.tags ∧
    (s.withSealWide v).tileSems = s.tileSems ∧ (s.withSealWide v).parts = s.parts ∧ (s.withSealWide v).sems = s.sems ∧
    (s.withSealWide v).evts = s.evts ∧ (s.withSealWide v).decks = s.decks ∧ (s.withSealWide v).execs = s.execs ∧
    (s.withSealWide v).startNo = s.startNo ∧ (s.withSealWide v).suspNo = s.suspNo ∧
    (s.withSealWide v).pinHeld = s.pinHeld ∧ (s.withSealWide v).dropLater = s.dropLater ∧
    (s.withSealWide v).allocAt = s.allocAt ∧ (s.withSealWide v).chans = s.chans ∧
    (s.withSealWide v).thapWait = s.thapWait ∧ (s.withSealWide v).stepNo = s.stepNo ∧ (s.withSealWide v).attn = s.attn ∧
    (s.withSealWide v).accts = s.accts ∧ (s.withSealWide v).mons = s.mons ∧ (s.withSealWide v).margin = s.margin ∧
    (s.withSealWide v).ports = s.ports ∧ (s.withSealWide v).probes = s.probes ∧ (s.withSealWide v).cruiseAt = s.cruiseAt ∧
    (s.withSealWide v).routeImage = s.routeImage ∧ (s.withSealWide v).inbox = s.inbox ∧
    (s.withSealWide v).sendCtx = s.sendCtx ∧ (s.withSealWide v).recvCtx = s.recvCtx ∧
    (s.withSealWide v).streamNo = s.streamNo ∧ (s.withSealWide v).syncAt = s.syncAt ∧ (s.withSealWide v).tree = s.tree ∧
    (s.withSealWide v).img = s.img ∧ (s.withSealWide v).fuses = s.fuses ∧ (s.withSealWide v).boot = s.boot ∧
    (s.withSealWide v).owner = s.owner ∧ (s.withSealWide v).power = s.power ∧ (s.withSealWide v).pkg = s.pkg ∧
    (s.withSealWide v).mgmt = s.mgmt := by
  and_intros <;> rfl

@[simp] theorem State.withSealParts_sealParts (v : Nat) : (s.withSealParts v).sealParts = v := rfl

/-- `State.withSealParts` writes `sealParts` alone. -/
@[simp] theorem State.withSealParts_frame (v : Nat) :
    (s.withSealParts v).pending = s.pending ∧ (s.withSealParts v).time = s.time ∧
    (s.withSealParts v).calendar = s.calendar ∧ (s.withSealParts v).calPhase = s.calPhase ∧
    (s.withSealParts v).slew = s.slew ∧ (s.withSealParts v).stepped = s.stepped ∧
    (s.withSealParts v).deckEver = s.deckEver ∧ (s.withSealParts v).free = s.free ∧ (s.withSealParts v).regs = s.regs ∧
    (s.withSealParts v).halfW = s.halfW ∧ (s.withSealParts v).halfR = s.halfR ∧ (s.withSealParts v).sealWide = s.sealWide ∧
    (s.withSealParts v).mem = s.mem ∧ (s.withSealParts v).chk = s.chk ∧ (s.withSealParts v).prot = s.prot ∧
    (s.withSealParts v).rsp = s.rsp ∧ (s.withSealParts v).errQ = s.errQ ∧ (s.withSealParts v).recCount = s.recCount ∧
    (s.withSealParts v).vfQ = s.vfQ ∧ (s.withSealParts v).ceSince = s.ceSince ∧ (s.withSealParts v).ticks = s.ticks ∧
    (s.withSealParts v).wbq = s.wbq ∧ (s.withSealParts v).merge = s.merge ∧ (s.withSealParts v).scrub = s.scrub ∧
    (s.withSealParts v).halted = s.halted ∧ (s.withSealParts v).msix = s.msix ∧
    (s.withSealParts v).hostReads = s.hostReads ∧ (s.withSealParts v).hostTag = s.hostTag ∧
    (s.withSealParts v).tiles = s.tiles ∧ (s.withSealParts v).arrs = s.arrs ∧ (s.withSealParts v).thrs = s.thrs ∧
    (s.withSealParts v).jobs = s.jobs ∧ (s.withSealParts v).tags = s.tags ∧ (s.withSealParts v).tileSems = s.tileSems ∧
    (s.withSealParts v).parts = s.parts ∧ (s.withSealParts v).sems = s.sems ∧ (s.withSealParts v).evts = s.evts ∧
    (s.withSealParts v).decks = s.decks ∧ (s.withSealParts v).execs = s.execs ∧ (s.withSealParts v).startNo = s.startNo ∧
    (s.withSealParts v).suspNo = s.suspNo ∧ (s.withSealParts v).pinHeld = s.pinHeld ∧
    (s.withSealParts v).dropLater = s.dropLater ∧ (s.withSealParts v).allocAt = s.allocAt ∧
    (s.withSealParts v).chans = s.chans ∧ (s.withSealParts v).thapWait = s.thapWait ∧
    (s.withSealParts v).stepNo = s.stepNo ∧ (s.withSealParts v).attn = s.attn ∧ (s.withSealParts v).accts = s.accts ∧
    (s.withSealParts v).mons = s.mons ∧ (s.withSealParts v).margin = s.margin ∧ (s.withSealParts v).ports = s.ports ∧
    (s.withSealParts v).probes = s.probes ∧ (s.withSealParts v).cruiseAt = s.cruiseAt ∧
    (s.withSealParts v).routeImage = s.routeImage ∧ (s.withSealParts v).inbox = s.inbox ∧
    (s.withSealParts v).sendCtx = s.sendCtx ∧ (s.withSealParts v).recvCtx = s.recvCtx ∧
    (s.withSealParts v).streamNo = s.streamNo ∧ (s.withSealParts v).syncAt = s.syncAt ∧ (s.withSealParts v).tree = s.tree ∧
    (s.withSealParts v).img = s.img ∧ (s.withSealParts v).fuses = s.fuses ∧ (s.withSealParts v).boot = s.boot ∧
    (s.withSealParts v).owner = s.owner ∧ (s.withSealParts v).power = s.power ∧ (s.withSealParts v).pkg = s.pkg ∧
    (s.withSealParts v).mgmt = s.mgmt := by
  and_intros <;> rfl

@[simp] theorem State.withMem_mem (v : Tbl Byte) : (s.withMem v).mem = v := rfl

/-- `State.withMem` writes `mem` alone. -/
@[simp] theorem State.withMem_frame (v : Tbl Byte) :
    (s.withMem v).pending = s.pending ∧ (s.withMem v).time = s.time ∧ (s.withMem v).calendar = s.calendar ∧
    (s.withMem v).calPhase = s.calPhase ∧ (s.withMem v).slew = s.slew ∧ (s.withMem v).stepped = s.stepped ∧
    (s.withMem v).deckEver = s.deckEver ∧ (s.withMem v).free = s.free ∧ (s.withMem v).regs = s.regs ∧
    (s.withMem v).halfW = s.halfW ∧ (s.withMem v).halfR = s.halfR ∧ (s.withMem v).sealWide = s.sealWide ∧
    (s.withMem v).sealParts = s.sealParts ∧ (s.withMem v).chk = s.chk ∧ (s.withMem v).prot = s.prot ∧
    (s.withMem v).rsp = s.rsp ∧ (s.withMem v).errQ = s.errQ ∧ (s.withMem v).recCount = s.recCount ∧
    (s.withMem v).vfQ = s.vfQ ∧ (s.withMem v).ceSince = s.ceSince ∧ (s.withMem v).ticks = s.ticks ∧
    (s.withMem v).wbq = s.wbq ∧ (s.withMem v).merge = s.merge ∧ (s.withMem v).scrub = s.scrub ∧
    (s.withMem v).halted = s.halted ∧ (s.withMem v).msix = s.msix ∧ (s.withMem v).hostReads = s.hostReads ∧
    (s.withMem v).hostTag = s.hostTag ∧ (s.withMem v).tiles = s.tiles ∧ (s.withMem v).arrs = s.arrs ∧
    (s.withMem v).thrs = s.thrs ∧ (s.withMem v).jobs = s.jobs ∧ (s.withMem v).tags = s.tags ∧
    (s.withMem v).tileSems = s.tileSems ∧ (s.withMem v).parts = s.parts ∧ (s.withMem v).sems = s.sems ∧
    (s.withMem v).evts = s.evts ∧ (s.withMem v).decks = s.decks ∧ (s.withMem v).execs = s.execs ∧
    (s.withMem v).startNo = s.startNo ∧ (s.withMem v).suspNo = s.suspNo ∧ (s.withMem v).pinHeld = s.pinHeld ∧
    (s.withMem v).dropLater = s.dropLater ∧ (s.withMem v).allocAt = s.allocAt ∧ (s.withMem v).chans = s.chans ∧
    (s.withMem v).thapWait = s.thapWait ∧ (s.withMem v).stepNo = s.stepNo ∧ (s.withMem v).attn = s.attn ∧
    (s.withMem v).accts = s.accts ∧ (s.withMem v).mons = s.mons ∧ (s.withMem v).margin = s.margin ∧
    (s.withMem v).ports = s.ports ∧ (s.withMem v).probes = s.probes ∧ (s.withMem v).cruiseAt = s.cruiseAt ∧
    (s.withMem v).routeImage = s.routeImage ∧ (s.withMem v).inbox = s.inbox ∧ (s.withMem v).sendCtx = s.sendCtx ∧
    (s.withMem v).recvCtx = s.recvCtx ∧ (s.withMem v).streamNo = s.streamNo ∧ (s.withMem v).syncAt = s.syncAt ∧
    (s.withMem v).tree = s.tree ∧ (s.withMem v).img = s.img ∧ (s.withMem v).fuses = s.fuses ∧ (s.withMem v).boot = s.boot ∧
    (s.withMem v).owner = s.owner ∧ (s.withMem v).power = s.power ∧ (s.withMem v).pkg = s.pkg ∧
    (s.withMem v).mgmt = s.mgmt := by
  and_intros <;> rfl

@[simp] theorem State.withChk_chk (v : Tbl Nat) : (s.withChk v).chk = v := rfl

/-- `State.withChk` writes `chk` alone. -/
@[simp] theorem State.withChk_frame (v : Tbl Nat) :
    (s.withChk v).pending = s.pending ∧ (s.withChk v).time = s.time ∧ (s.withChk v).calendar = s.calendar ∧
    (s.withChk v).calPhase = s.calPhase ∧ (s.withChk v).slew = s.slew ∧ (s.withChk v).stepped = s.stepped ∧
    (s.withChk v).deckEver = s.deckEver ∧ (s.withChk v).free = s.free ∧ (s.withChk v).regs = s.regs ∧
    (s.withChk v).halfW = s.halfW ∧ (s.withChk v).halfR = s.halfR ∧ (s.withChk v).sealWide = s.sealWide ∧
    (s.withChk v).sealParts = s.sealParts ∧ (s.withChk v).mem = s.mem ∧ (s.withChk v).prot = s.prot ∧
    (s.withChk v).rsp = s.rsp ∧ (s.withChk v).errQ = s.errQ ∧ (s.withChk v).recCount = s.recCount ∧
    (s.withChk v).vfQ = s.vfQ ∧ (s.withChk v).ceSince = s.ceSince ∧ (s.withChk v).ticks = s.ticks ∧
    (s.withChk v).wbq = s.wbq ∧ (s.withChk v).merge = s.merge ∧ (s.withChk v).scrub = s.scrub ∧
    (s.withChk v).halted = s.halted ∧ (s.withChk v).msix = s.msix ∧ (s.withChk v).hostReads = s.hostReads ∧
    (s.withChk v).hostTag = s.hostTag ∧ (s.withChk v).tiles = s.tiles ∧ (s.withChk v).arrs = s.arrs ∧
    (s.withChk v).thrs = s.thrs ∧ (s.withChk v).jobs = s.jobs ∧ (s.withChk v).tags = s.tags ∧
    (s.withChk v).tileSems = s.tileSems ∧ (s.withChk v).parts = s.parts ∧ (s.withChk v).sems = s.sems ∧
    (s.withChk v).evts = s.evts ∧ (s.withChk v).decks = s.decks ∧ (s.withChk v).execs = s.execs ∧
    (s.withChk v).startNo = s.startNo ∧ (s.withChk v).suspNo = s.suspNo ∧ (s.withChk v).pinHeld = s.pinHeld ∧
    (s.withChk v).dropLater = s.dropLater ∧ (s.withChk v).allocAt = s.allocAt ∧ (s.withChk v).chans = s.chans ∧
    (s.withChk v).thapWait = s.thapWait ∧ (s.withChk v).stepNo = s.stepNo ∧ (s.withChk v).attn = s.attn ∧
    (s.withChk v).accts = s.accts ∧ (s.withChk v).mons = s.mons ∧ (s.withChk v).margin = s.margin ∧
    (s.withChk v).ports = s.ports ∧ (s.withChk v).probes = s.probes ∧ (s.withChk v).cruiseAt = s.cruiseAt ∧
    (s.withChk v).routeImage = s.routeImage ∧ (s.withChk v).inbox = s.inbox ∧ (s.withChk v).sendCtx = s.sendCtx ∧
    (s.withChk v).recvCtx = s.recvCtx ∧ (s.withChk v).streamNo = s.streamNo ∧ (s.withChk v).syncAt = s.syncAt ∧
    (s.withChk v).tree = s.tree ∧ (s.withChk v).img = s.img ∧ (s.withChk v).fuses = s.fuses ∧ (s.withChk v).boot = s.boot ∧
    (s.withChk v).owner = s.owner ∧ (s.withChk v).power = s.power ∧ (s.withChk v).pkg = s.pkg ∧
    (s.withChk v).mgmt = s.mgmt := by
  and_intros <;> rfl

@[simp] theorem State.withProt_prot (v : Tbl ProtEnt) : (s.withProt v).prot = v := rfl

/-- `State.withProt` writes `prot` alone. -/
@[simp] theorem State.withProt_frame (v : Tbl ProtEnt) :
    (s.withProt v).pending = s.pending ∧ (s.withProt v).time = s.time ∧ (s.withProt v).calendar = s.calendar ∧
    (s.withProt v).calPhase = s.calPhase ∧ (s.withProt v).slew = s.slew ∧ (s.withProt v).stepped = s.stepped ∧
    (s.withProt v).deckEver = s.deckEver ∧ (s.withProt v).free = s.free ∧ (s.withProt v).regs = s.regs ∧
    (s.withProt v).halfW = s.halfW ∧ (s.withProt v).halfR = s.halfR ∧ (s.withProt v).sealWide = s.sealWide ∧
    (s.withProt v).sealParts = s.sealParts ∧ (s.withProt v).mem = s.mem ∧ (s.withProt v).chk = s.chk ∧
    (s.withProt v).rsp = s.rsp ∧ (s.withProt v).errQ = s.errQ ∧ (s.withProt v).recCount = s.recCount ∧
    (s.withProt v).vfQ = s.vfQ ∧ (s.withProt v).ceSince = s.ceSince ∧ (s.withProt v).ticks = s.ticks ∧
    (s.withProt v).wbq = s.wbq ∧ (s.withProt v).merge = s.merge ∧ (s.withProt v).scrub = s.scrub ∧
    (s.withProt v).halted = s.halted ∧ (s.withProt v).msix = s.msix ∧ (s.withProt v).hostReads = s.hostReads ∧
    (s.withProt v).hostTag = s.hostTag ∧ (s.withProt v).tiles = s.tiles ∧ (s.withProt v).arrs = s.arrs ∧
    (s.withProt v).thrs = s.thrs ∧ (s.withProt v).jobs = s.jobs ∧ (s.withProt v).tags = s.tags ∧
    (s.withProt v).tileSems = s.tileSems ∧ (s.withProt v).parts = s.parts ∧ (s.withProt v).sems = s.sems ∧
    (s.withProt v).evts = s.evts ∧ (s.withProt v).decks = s.decks ∧ (s.withProt v).execs = s.execs ∧
    (s.withProt v).startNo = s.startNo ∧ (s.withProt v).suspNo = s.suspNo ∧ (s.withProt v).pinHeld = s.pinHeld ∧
    (s.withProt v).dropLater = s.dropLater ∧ (s.withProt v).allocAt = s.allocAt ∧ (s.withProt v).chans = s.chans ∧
    (s.withProt v).thapWait = s.thapWait ∧ (s.withProt v).stepNo = s.stepNo ∧ (s.withProt v).attn = s.attn ∧
    (s.withProt v).accts = s.accts ∧ (s.withProt v).mons = s.mons ∧ (s.withProt v).margin = s.margin ∧
    (s.withProt v).ports = s.ports ∧ (s.withProt v).probes = s.probes ∧ (s.withProt v).cruiseAt = s.cruiseAt ∧
    (s.withProt v).routeImage = s.routeImage ∧ (s.withProt v).inbox = s.inbox ∧ (s.withProt v).sendCtx = s.sendCtx ∧
    (s.withProt v).recvCtx = s.recvCtx ∧ (s.withProt v).streamNo = s.streamNo ∧ (s.withProt v).syncAt = s.syncAt ∧
    (s.withProt v).tree = s.tree ∧ (s.withProt v).img = s.img ∧ (s.withProt v).fuses = s.fuses ∧
    (s.withProt v).boot = s.boot ∧ (s.withProt v).owner = s.owner ∧ (s.withProt v).power = s.power ∧
    (s.withProt v).pkg = s.pkg ∧ (s.withProt v).mgmt = s.mgmt := by
  and_intros <;> rfl

@[simp] theorem State.withRsp_rsp (v : Resp) : (s.withRsp v).rsp = v := rfl

/-- `State.withRsp` writes `rsp` alone. -/
@[simp] theorem State.withRsp_frame (v : Resp) :
    (s.withRsp v).pending = s.pending ∧ (s.withRsp v).time = s.time ∧ (s.withRsp v).calendar = s.calendar ∧
    (s.withRsp v).calPhase = s.calPhase ∧ (s.withRsp v).slew = s.slew ∧ (s.withRsp v).stepped = s.stepped ∧
    (s.withRsp v).deckEver = s.deckEver ∧ (s.withRsp v).free = s.free ∧ (s.withRsp v).regs = s.regs ∧
    (s.withRsp v).halfW = s.halfW ∧ (s.withRsp v).halfR = s.halfR ∧ (s.withRsp v).sealWide = s.sealWide ∧
    (s.withRsp v).sealParts = s.sealParts ∧ (s.withRsp v).mem = s.mem ∧ (s.withRsp v).chk = s.chk ∧
    (s.withRsp v).prot = s.prot ∧ (s.withRsp v).errQ = s.errQ ∧ (s.withRsp v).recCount = s.recCount ∧
    (s.withRsp v).vfQ = s.vfQ ∧ (s.withRsp v).ceSince = s.ceSince ∧ (s.withRsp v).ticks = s.ticks ∧
    (s.withRsp v).wbq = s.wbq ∧ (s.withRsp v).merge = s.merge ∧ (s.withRsp v).scrub = s.scrub ∧
    (s.withRsp v).halted = s.halted ∧ (s.withRsp v).msix = s.msix ∧ (s.withRsp v).hostReads = s.hostReads ∧
    (s.withRsp v).hostTag = s.hostTag ∧ (s.withRsp v).tiles = s.tiles ∧ (s.withRsp v).arrs = s.arrs ∧
    (s.withRsp v).thrs = s.thrs ∧ (s.withRsp v).jobs = s.jobs ∧ (s.withRsp v).tags = s.tags ∧
    (s.withRsp v).tileSems = s.tileSems ∧ (s.withRsp v).parts = s.parts ∧ (s.withRsp v).sems = s.sems ∧
    (s.withRsp v).evts = s.evts ∧ (s.withRsp v).decks = s.decks ∧ (s.withRsp v).execs = s.execs ∧
    (s.withRsp v).startNo = s.startNo ∧ (s.withRsp v).suspNo = s.suspNo ∧ (s.withRsp v).pinHeld = s.pinHeld ∧
    (s.withRsp v).dropLater = s.dropLater ∧ (s.withRsp v).allocAt = s.allocAt ∧ (s.withRsp v).chans = s.chans ∧
    (s.withRsp v).thapWait = s.thapWait ∧ (s.withRsp v).stepNo = s.stepNo ∧ (s.withRsp v).attn = s.attn ∧
    (s.withRsp v).accts = s.accts ∧ (s.withRsp v).mons = s.mons ∧ (s.withRsp v).margin = s.margin ∧
    (s.withRsp v).ports = s.ports ∧ (s.withRsp v).probes = s.probes ∧ (s.withRsp v).cruiseAt = s.cruiseAt ∧
    (s.withRsp v).routeImage = s.routeImage ∧ (s.withRsp v).inbox = s.inbox ∧ (s.withRsp v).sendCtx = s.sendCtx ∧
    (s.withRsp v).recvCtx = s.recvCtx ∧ (s.withRsp v).streamNo = s.streamNo ∧ (s.withRsp v).syncAt = s.syncAt ∧
    (s.withRsp v).tree = s.tree ∧ (s.withRsp v).img = s.img ∧ (s.withRsp v).fuses = s.fuses ∧ (s.withRsp v).boot = s.boot ∧
    (s.withRsp v).owner = s.owner ∧ (s.withRsp v).power = s.power ∧ (s.withRsp v).pkg = s.pkg ∧
    (s.withRsp v).mgmt = s.mgmt := by
  and_intros <;> rfl

@[simp] theorem State.withErrQ_errQ (v : Tbl ErrRec) : (s.withErrQ v).errQ = v := rfl

/-- `State.withErrQ` writes `errQ` alone. -/
@[simp] theorem State.withErrQ_frame (v : Tbl ErrRec) :
    (s.withErrQ v).pending = s.pending ∧ (s.withErrQ v).time = s.time ∧ (s.withErrQ v).calendar = s.calendar ∧
    (s.withErrQ v).calPhase = s.calPhase ∧ (s.withErrQ v).slew = s.slew ∧ (s.withErrQ v).stepped = s.stepped ∧
    (s.withErrQ v).deckEver = s.deckEver ∧ (s.withErrQ v).free = s.free ∧ (s.withErrQ v).regs = s.regs ∧
    (s.withErrQ v).halfW = s.halfW ∧ (s.withErrQ v).halfR = s.halfR ∧ (s.withErrQ v).sealWide = s.sealWide ∧
    (s.withErrQ v).sealParts = s.sealParts ∧ (s.withErrQ v).mem = s.mem ∧ (s.withErrQ v).chk = s.chk ∧
    (s.withErrQ v).prot = s.prot ∧ (s.withErrQ v).rsp = s.rsp ∧ (s.withErrQ v).recCount = s.recCount ∧
    (s.withErrQ v).vfQ = s.vfQ ∧ (s.withErrQ v).ceSince = s.ceSince ∧ (s.withErrQ v).ticks = s.ticks ∧
    (s.withErrQ v).wbq = s.wbq ∧ (s.withErrQ v).merge = s.merge ∧ (s.withErrQ v).scrub = s.scrub ∧
    (s.withErrQ v).halted = s.halted ∧ (s.withErrQ v).msix = s.msix ∧ (s.withErrQ v).hostReads = s.hostReads ∧
    (s.withErrQ v).hostTag = s.hostTag ∧ (s.withErrQ v).tiles = s.tiles ∧ (s.withErrQ v).arrs = s.arrs ∧
    (s.withErrQ v).thrs = s.thrs ∧ (s.withErrQ v).jobs = s.jobs ∧ (s.withErrQ v).tags = s.tags ∧
    (s.withErrQ v).tileSems = s.tileSems ∧ (s.withErrQ v).parts = s.parts ∧ (s.withErrQ v).sems = s.sems ∧
    (s.withErrQ v).evts = s.evts ∧ (s.withErrQ v).decks = s.decks ∧ (s.withErrQ v).execs = s.execs ∧
    (s.withErrQ v).startNo = s.startNo ∧ (s.withErrQ v).suspNo = s.suspNo ∧ (s.withErrQ v).pinHeld = s.pinHeld ∧
    (s.withErrQ v).dropLater = s.dropLater ∧ (s.withErrQ v).allocAt = s.allocAt ∧ (s.withErrQ v).chans = s.chans ∧
    (s.withErrQ v).thapWait = s.thapWait ∧ (s.withErrQ v).stepNo = s.stepNo ∧ (s.withErrQ v).attn = s.attn ∧
    (s.withErrQ v).accts = s.accts ∧ (s.withErrQ v).mons = s.mons ∧ (s.withErrQ v).margin = s.margin ∧
    (s.withErrQ v).ports = s.ports ∧ (s.withErrQ v).probes = s.probes ∧ (s.withErrQ v).cruiseAt = s.cruiseAt ∧
    (s.withErrQ v).routeImage = s.routeImage ∧ (s.withErrQ v).inbox = s.inbox ∧ (s.withErrQ v).sendCtx = s.sendCtx ∧
    (s.withErrQ v).recvCtx = s.recvCtx ∧ (s.withErrQ v).streamNo = s.streamNo ∧ (s.withErrQ v).syncAt = s.syncAt ∧
    (s.withErrQ v).tree = s.tree ∧ (s.withErrQ v).img = s.img ∧ (s.withErrQ v).fuses = s.fuses ∧
    (s.withErrQ v).boot = s.boot ∧ (s.withErrQ v).owner = s.owner ∧ (s.withErrQ v).power = s.power ∧
    (s.withErrQ v).pkg = s.pkg ∧ (s.withErrQ v).mgmt = s.mgmt := by
  and_intros <;> rfl

@[simp] theorem State.withRecCount_recCount (v : Tbl Nat) : (s.withRecCount v).recCount = v := rfl

/-- `State.withRecCount` writes `recCount` alone. -/
@[simp] theorem State.withRecCount_frame (v : Tbl Nat) :
    (s.withRecCount v).pending = s.pending ∧ (s.withRecCount v).time = s.time ∧ (s.withRecCount v).calendar = s.calendar ∧
    (s.withRecCount v).calPhase = s.calPhase ∧ (s.withRecCount v).slew = s.slew ∧ (s.withRecCount v).stepped = s.stepped ∧
    (s.withRecCount v).deckEver = s.deckEver ∧ (s.withRecCount v).free = s.free ∧ (s.withRecCount v).regs = s.regs ∧
    (s.withRecCount v).halfW = s.halfW ∧ (s.withRecCount v).halfR = s.halfR ∧ (s.withRecCount v).sealWide = s.sealWide ∧
    (s.withRecCount v).sealParts = s.sealParts ∧ (s.withRecCount v).mem = s.mem ∧ (s.withRecCount v).chk = s.chk ∧
    (s.withRecCount v).prot = s.prot ∧ (s.withRecCount v).rsp = s.rsp ∧ (s.withRecCount v).errQ = s.errQ ∧
    (s.withRecCount v).vfQ = s.vfQ ∧ (s.withRecCount v).ceSince = s.ceSince ∧ (s.withRecCount v).ticks = s.ticks ∧
    (s.withRecCount v).wbq = s.wbq ∧ (s.withRecCount v).merge = s.merge ∧ (s.withRecCount v).scrub = s.scrub ∧
    (s.withRecCount v).halted = s.halted ∧ (s.withRecCount v).msix = s.msix ∧ (s.withRecCount v).hostReads = s.hostReads ∧
    (s.withRecCount v).hostTag = s.hostTag ∧ (s.withRecCount v).tiles = s.tiles ∧ (s.withRecCount v).arrs = s.arrs ∧
    (s.withRecCount v).thrs = s.thrs ∧ (s.withRecCount v).jobs = s.jobs ∧ (s.withRecCount v).tags = s.tags ∧
    (s.withRecCount v).tileSems = s.tileSems ∧ (s.withRecCount v).parts = s.parts ∧ (s.withRecCount v).sems = s.sems ∧
    (s.withRecCount v).evts = s.evts ∧ (s.withRecCount v).decks = s.decks ∧ (s.withRecCount v).execs = s.execs ∧
    (s.withRecCount v).startNo = s.startNo ∧ (s.withRecCount v).suspNo = s.suspNo ∧
    (s.withRecCount v).pinHeld = s.pinHeld ∧ (s.withRecCount v).dropLater = s.dropLater ∧
    (s.withRecCount v).allocAt = s.allocAt ∧ (s.withRecCount v).chans = s.chans ∧
    (s.withRecCount v).thapWait = s.thapWait ∧ (s.withRecCount v).stepNo = s.stepNo ∧ (s.withRecCount v).attn = s.attn ∧
    (s.withRecCount v).accts = s.accts ∧ (s.withRecCount v).mons = s.mons ∧ (s.withRecCount v).margin = s.margin ∧
    (s.withRecCount v).ports = s.ports ∧ (s.withRecCount v).probes = s.probes ∧ (s.withRecCount v).cruiseAt = s.cruiseAt ∧
    (s.withRecCount v).routeImage = s.routeImage ∧ (s.withRecCount v).inbox = s.inbox ∧
    (s.withRecCount v).sendCtx = s.sendCtx ∧ (s.withRecCount v).recvCtx = s.recvCtx ∧
    (s.withRecCount v).streamNo = s.streamNo ∧ (s.withRecCount v).syncAt = s.syncAt ∧ (s.withRecCount v).tree = s.tree ∧
    (s.withRecCount v).img = s.img ∧ (s.withRecCount v).fuses = s.fuses ∧ (s.withRecCount v).boot = s.boot ∧
    (s.withRecCount v).owner = s.owner ∧ (s.withRecCount v).power = s.power ∧ (s.withRecCount v).pkg = s.pkg ∧
    (s.withRecCount v).mgmt = s.mgmt := by
  and_intros <;> rfl

@[simp] theorem State.withVfQ_vfQ (v : Tbl ErrRec) : (s.withVfQ v).vfQ = v := rfl

/-- `State.withVfQ` writes `vfQ` alone. -/
@[simp] theorem State.withVfQ_frame (v : Tbl ErrRec) :
    (s.withVfQ v).pending = s.pending ∧ (s.withVfQ v).time = s.time ∧ (s.withVfQ v).calendar = s.calendar ∧
    (s.withVfQ v).calPhase = s.calPhase ∧ (s.withVfQ v).slew = s.slew ∧ (s.withVfQ v).stepped = s.stepped ∧
    (s.withVfQ v).deckEver = s.deckEver ∧ (s.withVfQ v).free = s.free ∧ (s.withVfQ v).regs = s.regs ∧
    (s.withVfQ v).halfW = s.halfW ∧ (s.withVfQ v).halfR = s.halfR ∧ (s.withVfQ v).sealWide = s.sealWide ∧
    (s.withVfQ v).sealParts = s.sealParts ∧ (s.withVfQ v).mem = s.mem ∧ (s.withVfQ v).chk = s.chk ∧
    (s.withVfQ v).prot = s.prot ∧ (s.withVfQ v).rsp = s.rsp ∧ (s.withVfQ v).errQ = s.errQ ∧
    (s.withVfQ v).recCount = s.recCount ∧ (s.withVfQ v).ceSince = s.ceSince ∧ (s.withVfQ v).ticks = s.ticks ∧
    (s.withVfQ v).wbq = s.wbq ∧ (s.withVfQ v).merge = s.merge ∧ (s.withVfQ v).scrub = s.scrub ∧
    (s.withVfQ v).halted = s.halted ∧ (s.withVfQ v).msix = s.msix ∧ (s.withVfQ v).hostReads = s.hostReads ∧
    (s.withVfQ v).hostTag = s.hostTag ∧ (s.withVfQ v).tiles = s.tiles ∧ (s.withVfQ v).arrs = s.arrs ∧
    (s.withVfQ v).thrs = s.thrs ∧ (s.withVfQ v).jobs = s.jobs ∧ (s.withVfQ v).tags = s.tags ∧
    (s.withVfQ v).tileSems = s.tileSems ∧ (s.withVfQ v).parts = s.parts ∧ (s.withVfQ v).sems = s.sems ∧
    (s.withVfQ v).evts = s.evts ∧ (s.withVfQ v).decks = s.decks ∧ (s.withVfQ v).execs = s.execs ∧
    (s.withVfQ v).startNo = s.startNo ∧ (s.withVfQ v).suspNo = s.suspNo ∧ (s.withVfQ v).pinHeld = s.pinHeld ∧
    (s.withVfQ v).dropLater = s.dropLater ∧ (s.withVfQ v).allocAt = s.allocAt ∧ (s.withVfQ v).chans = s.chans ∧
    (s.withVfQ v).thapWait = s.thapWait ∧ (s.withVfQ v).stepNo = s.stepNo ∧ (s.withVfQ v).attn = s.attn ∧
    (s.withVfQ v).accts = s.accts ∧ (s.withVfQ v).mons = s.mons ∧ (s.withVfQ v).margin = s.margin ∧
    (s.withVfQ v).ports = s.ports ∧ (s.withVfQ v).probes = s.probes ∧ (s.withVfQ v).cruiseAt = s.cruiseAt ∧
    (s.withVfQ v).routeImage = s.routeImage ∧ (s.withVfQ v).inbox = s.inbox ∧ (s.withVfQ v).sendCtx = s.sendCtx ∧
    (s.withVfQ v).recvCtx = s.recvCtx ∧ (s.withVfQ v).streamNo = s.streamNo ∧ (s.withVfQ v).syncAt = s.syncAt ∧
    (s.withVfQ v).tree = s.tree ∧ (s.withVfQ v).img = s.img ∧ (s.withVfQ v).fuses = s.fuses ∧ (s.withVfQ v).boot = s.boot ∧
    (s.withVfQ v).owner = s.owner ∧ (s.withVfQ v).power = s.power ∧ (s.withVfQ v).pkg = s.pkg ∧
    (s.withVfQ v).mgmt = s.mgmt := by
  and_intros <;> rfl

@[simp] theorem State.withCeSince_ceSince (v : Tbl Nat) : (s.withCeSince v).ceSince = v := rfl

/-- `State.withCeSince` writes `ceSince` alone. -/
@[simp] theorem State.withCeSince_frame (v : Tbl Nat) :
    (s.withCeSince v).pending = s.pending ∧ (s.withCeSince v).time = s.time ∧ (s.withCeSince v).calendar = s.calendar ∧
    (s.withCeSince v).calPhase = s.calPhase ∧ (s.withCeSince v).slew = s.slew ∧ (s.withCeSince v).stepped = s.stepped ∧
    (s.withCeSince v).deckEver = s.deckEver ∧ (s.withCeSince v).free = s.free ∧ (s.withCeSince v).regs = s.regs ∧
    (s.withCeSince v).halfW = s.halfW ∧ (s.withCeSince v).halfR = s.halfR ∧ (s.withCeSince v).sealWide = s.sealWide ∧
    (s.withCeSince v).sealParts = s.sealParts ∧ (s.withCeSince v).mem = s.mem ∧ (s.withCeSince v).chk = s.chk ∧
    (s.withCeSince v).prot = s.prot ∧ (s.withCeSince v).rsp = s.rsp ∧ (s.withCeSince v).errQ = s.errQ ∧
    (s.withCeSince v).recCount = s.recCount ∧ (s.withCeSince v).vfQ = s.vfQ ∧ (s.withCeSince v).ticks = s.ticks ∧
    (s.withCeSince v).wbq = s.wbq ∧ (s.withCeSince v).merge = s.merge ∧ (s.withCeSince v).scrub = s.scrub ∧
    (s.withCeSince v).halted = s.halted ∧ (s.withCeSince v).msix = s.msix ∧ (s.withCeSince v).hostReads = s.hostReads ∧
    (s.withCeSince v).hostTag = s.hostTag ∧ (s.withCeSince v).tiles = s.tiles ∧ (s.withCeSince v).arrs = s.arrs ∧
    (s.withCeSince v).thrs = s.thrs ∧ (s.withCeSince v).jobs = s.jobs ∧ (s.withCeSince v).tags = s.tags ∧
    (s.withCeSince v).tileSems = s.tileSems ∧ (s.withCeSince v).parts = s.parts ∧ (s.withCeSince v).sems = s.sems ∧
    (s.withCeSince v).evts = s.evts ∧ (s.withCeSince v).decks = s.decks ∧ (s.withCeSince v).execs = s.execs ∧
    (s.withCeSince v).startNo = s.startNo ∧ (s.withCeSince v).suspNo = s.suspNo ∧ (s.withCeSince v).pinHeld = s.pinHeld ∧
    (s.withCeSince v).dropLater = s.dropLater ∧ (s.withCeSince v).allocAt = s.allocAt ∧ (s.withCeSince v).chans = s.chans ∧
    (s.withCeSince v).thapWait = s.thapWait ∧ (s.withCeSince v).stepNo = s.stepNo ∧ (s.withCeSince v).attn = s.attn ∧
    (s.withCeSince v).accts = s.accts ∧ (s.withCeSince v).mons = s.mons ∧ (s.withCeSince v).margin = s.margin ∧
    (s.withCeSince v).ports = s.ports ∧ (s.withCeSince v).probes = s.probes ∧ (s.withCeSince v).cruiseAt = s.cruiseAt ∧
    (s.withCeSince v).routeImage = s.routeImage ∧ (s.withCeSince v).inbox = s.inbox ∧
    (s.withCeSince v).sendCtx = s.sendCtx ∧ (s.withCeSince v).recvCtx = s.recvCtx ∧
    (s.withCeSince v).streamNo = s.streamNo ∧ (s.withCeSince v).syncAt = s.syncAt ∧ (s.withCeSince v).tree = s.tree ∧
    (s.withCeSince v).img = s.img ∧ (s.withCeSince v).fuses = s.fuses ∧ (s.withCeSince v).boot = s.boot ∧
    (s.withCeSince v).owner = s.owner ∧ (s.withCeSince v).power = s.power ∧ (s.withCeSince v).pkg = s.pkg ∧
    (s.withCeSince v).mgmt = s.mgmt := by
  and_intros <;> rfl

@[simp] theorem State.withTicks_ticks (v : Tbl Nat) : (s.withTicks v).ticks = v := rfl

/-- `State.withTicks` writes `ticks` alone. -/
@[simp] theorem State.withTicks_frame (v : Tbl Nat) :
    (s.withTicks v).pending = s.pending ∧ (s.withTicks v).time = s.time ∧ (s.withTicks v).calendar = s.calendar ∧
    (s.withTicks v).calPhase = s.calPhase ∧ (s.withTicks v).slew = s.slew ∧ (s.withTicks v).stepped = s.stepped ∧
    (s.withTicks v).deckEver = s.deckEver ∧ (s.withTicks v).free = s.free ∧ (s.withTicks v).regs = s.regs ∧
    (s.withTicks v).halfW = s.halfW ∧ (s.withTicks v).halfR = s.halfR ∧ (s.withTicks v).sealWide = s.sealWide ∧
    (s.withTicks v).sealParts = s.sealParts ∧ (s.withTicks v).mem = s.mem ∧ (s.withTicks v).chk = s.chk ∧
    (s.withTicks v).prot = s.prot ∧ (s.withTicks v).rsp = s.rsp ∧ (s.withTicks v).errQ = s.errQ ∧
    (s.withTicks v).recCount = s.recCount ∧ (s.withTicks v).vfQ = s.vfQ ∧ (s.withTicks v).ceSince = s.ceSince ∧
    (s.withTicks v).wbq = s.wbq ∧ (s.withTicks v).merge = s.merge ∧ (s.withTicks v).scrub = s.scrub ∧
    (s.withTicks v).halted = s.halted ∧ (s.withTicks v).msix = s.msix ∧ (s.withTicks v).hostReads = s.hostReads ∧
    (s.withTicks v).hostTag = s.hostTag ∧ (s.withTicks v).tiles = s.tiles ∧ (s.withTicks v).arrs = s.arrs ∧
    (s.withTicks v).thrs = s.thrs ∧ (s.withTicks v).jobs = s.jobs ∧ (s.withTicks v).tags = s.tags ∧
    (s.withTicks v).tileSems = s.tileSems ∧ (s.withTicks v).parts = s.parts ∧ (s.withTicks v).sems = s.sems ∧
    (s.withTicks v).evts = s.evts ∧ (s.withTicks v).decks = s.decks ∧ (s.withTicks v).execs = s.execs ∧
    (s.withTicks v).startNo = s.startNo ∧ (s.withTicks v).suspNo = s.suspNo ∧ (s.withTicks v).pinHeld = s.pinHeld ∧
    (s.withTicks v).dropLater = s.dropLater ∧ (s.withTicks v).allocAt = s.allocAt ∧ (s.withTicks v).chans = s.chans ∧
    (s.withTicks v).thapWait = s.thapWait ∧ (s.withTicks v).stepNo = s.stepNo ∧ (s.withTicks v).attn = s.attn ∧
    (s.withTicks v).accts = s.accts ∧ (s.withTicks v).mons = s.mons ∧ (s.withTicks v).margin = s.margin ∧
    (s.withTicks v).ports = s.ports ∧ (s.withTicks v).probes = s.probes ∧ (s.withTicks v).cruiseAt = s.cruiseAt ∧
    (s.withTicks v).routeImage = s.routeImage ∧ (s.withTicks v).inbox = s.inbox ∧ (s.withTicks v).sendCtx = s.sendCtx ∧
    (s.withTicks v).recvCtx = s.recvCtx ∧ (s.withTicks v).streamNo = s.streamNo ∧ (s.withTicks v).syncAt = s.syncAt ∧
    (s.withTicks v).tree = s.tree ∧ (s.withTicks v).img = s.img ∧ (s.withTicks v).fuses = s.fuses ∧
    (s.withTicks v).boot = s.boot ∧ (s.withTicks v).owner = s.owner ∧ (s.withTicks v).power = s.power ∧
    (s.withTicks v).pkg = s.pkg ∧ (s.withTicks v).mgmt = s.mgmt := by
  and_intros <;> rfl

@[simp] theorem State.withWbq_wbq (v : List Nat) : (s.withWbq v).wbq = v := rfl

/-- `State.withWbq` writes `wbq` alone. -/
@[simp] theorem State.withWbq_frame (v : List Nat) :
    (s.withWbq v).pending = s.pending ∧ (s.withWbq v).time = s.time ∧ (s.withWbq v).calendar = s.calendar ∧
    (s.withWbq v).calPhase = s.calPhase ∧ (s.withWbq v).slew = s.slew ∧ (s.withWbq v).stepped = s.stepped ∧
    (s.withWbq v).deckEver = s.deckEver ∧ (s.withWbq v).free = s.free ∧ (s.withWbq v).regs = s.regs ∧
    (s.withWbq v).halfW = s.halfW ∧ (s.withWbq v).halfR = s.halfR ∧ (s.withWbq v).sealWide = s.sealWide ∧
    (s.withWbq v).sealParts = s.sealParts ∧ (s.withWbq v).mem = s.mem ∧ (s.withWbq v).chk = s.chk ∧
    (s.withWbq v).prot = s.prot ∧ (s.withWbq v).rsp = s.rsp ∧ (s.withWbq v).errQ = s.errQ ∧
    (s.withWbq v).recCount = s.recCount ∧ (s.withWbq v).vfQ = s.vfQ ∧ (s.withWbq v).ceSince = s.ceSince ∧
    (s.withWbq v).ticks = s.ticks ∧ (s.withWbq v).merge = s.merge ∧ (s.withWbq v).scrub = s.scrub ∧
    (s.withWbq v).halted = s.halted ∧ (s.withWbq v).msix = s.msix ∧ (s.withWbq v).hostReads = s.hostReads ∧
    (s.withWbq v).hostTag = s.hostTag ∧ (s.withWbq v).tiles = s.tiles ∧ (s.withWbq v).arrs = s.arrs ∧
    (s.withWbq v).thrs = s.thrs ∧ (s.withWbq v).jobs = s.jobs ∧ (s.withWbq v).tags = s.tags ∧
    (s.withWbq v).tileSems = s.tileSems ∧ (s.withWbq v).parts = s.parts ∧ (s.withWbq v).sems = s.sems ∧
    (s.withWbq v).evts = s.evts ∧ (s.withWbq v).decks = s.decks ∧ (s.withWbq v).execs = s.execs ∧
    (s.withWbq v).startNo = s.startNo ∧ (s.withWbq v).suspNo = s.suspNo ∧ (s.withWbq v).pinHeld = s.pinHeld ∧
    (s.withWbq v).dropLater = s.dropLater ∧ (s.withWbq v).allocAt = s.allocAt ∧ (s.withWbq v).chans = s.chans ∧
    (s.withWbq v).thapWait = s.thapWait ∧ (s.withWbq v).stepNo = s.stepNo ∧ (s.withWbq v).attn = s.attn ∧
    (s.withWbq v).accts = s.accts ∧ (s.withWbq v).mons = s.mons ∧ (s.withWbq v).margin = s.margin ∧
    (s.withWbq v).ports = s.ports ∧ (s.withWbq v).probes = s.probes ∧ (s.withWbq v).cruiseAt = s.cruiseAt ∧
    (s.withWbq v).routeImage = s.routeImage ∧ (s.withWbq v).inbox = s.inbox ∧ (s.withWbq v).sendCtx = s.sendCtx ∧
    (s.withWbq v).recvCtx = s.recvCtx ∧ (s.withWbq v).streamNo = s.streamNo ∧ (s.withWbq v).syncAt = s.syncAt ∧
    (s.withWbq v).tree = s.tree ∧ (s.withWbq v).img = s.img ∧ (s.withWbq v).fuses = s.fuses ∧ (s.withWbq v).boot = s.boot ∧
    (s.withWbq v).owner = s.owner ∧ (s.withWbq v).power = s.power ∧ (s.withWbq v).pkg = s.pkg ∧
    (s.withWbq v).mgmt = s.mgmt := by
  and_intros <;> rfl

@[simp] theorem State.withMerge_merge (v : List MergeEnt) : (s.withMerge v).merge = v := rfl

/-- `State.withMerge` writes `merge` alone. -/
@[simp] theorem State.withMerge_frame (v : List MergeEnt) :
    (s.withMerge v).pending = s.pending ∧ (s.withMerge v).time = s.time ∧ (s.withMerge v).calendar = s.calendar ∧
    (s.withMerge v).calPhase = s.calPhase ∧ (s.withMerge v).slew = s.slew ∧ (s.withMerge v).stepped = s.stepped ∧
    (s.withMerge v).deckEver = s.deckEver ∧ (s.withMerge v).free = s.free ∧ (s.withMerge v).regs = s.regs ∧
    (s.withMerge v).halfW = s.halfW ∧ (s.withMerge v).halfR = s.halfR ∧ (s.withMerge v).sealWide = s.sealWide ∧
    (s.withMerge v).sealParts = s.sealParts ∧ (s.withMerge v).mem = s.mem ∧ (s.withMerge v).chk = s.chk ∧
    (s.withMerge v).prot = s.prot ∧ (s.withMerge v).rsp = s.rsp ∧ (s.withMerge v).errQ = s.errQ ∧
    (s.withMerge v).recCount = s.recCount ∧ (s.withMerge v).vfQ = s.vfQ ∧ (s.withMerge v).ceSince = s.ceSince ∧
    (s.withMerge v).ticks = s.ticks ∧ (s.withMerge v).wbq = s.wbq ∧ (s.withMerge v).scrub = s.scrub ∧
    (s.withMerge v).halted = s.halted ∧ (s.withMerge v).msix = s.msix ∧ (s.withMerge v).hostReads = s.hostReads ∧
    (s.withMerge v).hostTag = s.hostTag ∧ (s.withMerge v).tiles = s.tiles ∧ (s.withMerge v).arrs = s.arrs ∧
    (s.withMerge v).thrs = s.thrs ∧ (s.withMerge v).jobs = s.jobs ∧ (s.withMerge v).tags = s.tags ∧
    (s.withMerge v).tileSems = s.tileSems ∧ (s.withMerge v).parts = s.parts ∧ (s.withMerge v).sems = s.sems ∧
    (s.withMerge v).evts = s.evts ∧ (s.withMerge v).decks = s.decks ∧ (s.withMerge v).execs = s.execs ∧
    (s.withMerge v).startNo = s.startNo ∧ (s.withMerge v).suspNo = s.suspNo ∧ (s.withMerge v).pinHeld = s.pinHeld ∧
    (s.withMerge v).dropLater = s.dropLater ∧ (s.withMerge v).allocAt = s.allocAt ∧ (s.withMerge v).chans = s.chans ∧
    (s.withMerge v).thapWait = s.thapWait ∧ (s.withMerge v).stepNo = s.stepNo ∧ (s.withMerge v).attn = s.attn ∧
    (s.withMerge v).accts = s.accts ∧ (s.withMerge v).mons = s.mons ∧ (s.withMerge v).margin = s.margin ∧
    (s.withMerge v).ports = s.ports ∧ (s.withMerge v).probes = s.probes ∧ (s.withMerge v).cruiseAt = s.cruiseAt ∧
    (s.withMerge v).routeImage = s.routeImage ∧ (s.withMerge v).inbox = s.inbox ∧ (s.withMerge v).sendCtx = s.sendCtx ∧
    (s.withMerge v).recvCtx = s.recvCtx ∧ (s.withMerge v).streamNo = s.streamNo ∧ (s.withMerge v).syncAt = s.syncAt ∧
    (s.withMerge v).tree = s.tree ∧ (s.withMerge v).img = s.img ∧ (s.withMerge v).fuses = s.fuses ∧
    (s.withMerge v).boot = s.boot ∧ (s.withMerge v).owner = s.owner ∧ (s.withMerge v).power = s.power ∧
    (s.withMerge v).pkg = s.pkg ∧ (s.withMerge v).mgmt = s.mgmt := by
  and_intros <;> rfl

@[simp] theorem State.withScrub_scrub (v : Tbl Nat) : (s.withScrub v).scrub = v := rfl

/-- `State.withScrub` writes `scrub` alone. -/
@[simp] theorem State.withScrub_frame (v : Tbl Nat) :
    (s.withScrub v).pending = s.pending ∧ (s.withScrub v).time = s.time ∧ (s.withScrub v).calendar = s.calendar ∧
    (s.withScrub v).calPhase = s.calPhase ∧ (s.withScrub v).slew = s.slew ∧ (s.withScrub v).stepped = s.stepped ∧
    (s.withScrub v).deckEver = s.deckEver ∧ (s.withScrub v).free = s.free ∧ (s.withScrub v).regs = s.regs ∧
    (s.withScrub v).halfW = s.halfW ∧ (s.withScrub v).halfR = s.halfR ∧ (s.withScrub v).sealWide = s.sealWide ∧
    (s.withScrub v).sealParts = s.sealParts ∧ (s.withScrub v).mem = s.mem ∧ (s.withScrub v).chk = s.chk ∧
    (s.withScrub v).prot = s.prot ∧ (s.withScrub v).rsp = s.rsp ∧ (s.withScrub v).errQ = s.errQ ∧
    (s.withScrub v).recCount = s.recCount ∧ (s.withScrub v).vfQ = s.vfQ ∧ (s.withScrub v).ceSince = s.ceSince ∧
    (s.withScrub v).ticks = s.ticks ∧ (s.withScrub v).wbq = s.wbq ∧ (s.withScrub v).merge = s.merge ∧
    (s.withScrub v).halted = s.halted ∧ (s.withScrub v).msix = s.msix ∧ (s.withScrub v).hostReads = s.hostReads ∧
    (s.withScrub v).hostTag = s.hostTag ∧ (s.withScrub v).tiles = s.tiles ∧ (s.withScrub v).arrs = s.arrs ∧
    (s.withScrub v).thrs = s.thrs ∧ (s.withScrub v).jobs = s.jobs ∧ (s.withScrub v).tags = s.tags ∧
    (s.withScrub v).tileSems = s.tileSems ∧ (s.withScrub v).parts = s.parts ∧ (s.withScrub v).sems = s.sems ∧
    (s.withScrub v).evts = s.evts ∧ (s.withScrub v).decks = s.decks ∧ (s.withScrub v).execs = s.execs ∧
    (s.withScrub v).startNo = s.startNo ∧ (s.withScrub v).suspNo = s.suspNo ∧ (s.withScrub v).pinHeld = s.pinHeld ∧
    (s.withScrub v).dropLater = s.dropLater ∧ (s.withScrub v).allocAt = s.allocAt ∧ (s.withScrub v).chans = s.chans ∧
    (s.withScrub v).thapWait = s.thapWait ∧ (s.withScrub v).stepNo = s.stepNo ∧ (s.withScrub v).attn = s.attn ∧
    (s.withScrub v).accts = s.accts ∧ (s.withScrub v).mons = s.mons ∧ (s.withScrub v).margin = s.margin ∧
    (s.withScrub v).ports = s.ports ∧ (s.withScrub v).probes = s.probes ∧ (s.withScrub v).cruiseAt = s.cruiseAt ∧
    (s.withScrub v).routeImage = s.routeImage ∧ (s.withScrub v).inbox = s.inbox ∧ (s.withScrub v).sendCtx = s.sendCtx ∧
    (s.withScrub v).recvCtx = s.recvCtx ∧ (s.withScrub v).streamNo = s.streamNo ∧ (s.withScrub v).syncAt = s.syncAt ∧
    (s.withScrub v).tree = s.tree ∧ (s.withScrub v).img = s.img ∧ (s.withScrub v).fuses = s.fuses ∧
    (s.withScrub v).boot = s.boot ∧ (s.withScrub v).owner = s.owner ∧ (s.withScrub v).power = s.power ∧
    (s.withScrub v).pkg = s.pkg ∧ (s.withScrub v).mgmt = s.mgmt := by
  and_intros <;> rfl

@[simp] theorem State.withHalted_halted (v : Bool) : (s.withHalted v).halted = v := rfl

/-- `State.withHalted` writes `halted` alone. -/
@[simp] theorem State.withHalted_frame (v : Bool) :
    (s.withHalted v).pending = s.pending ∧ (s.withHalted v).time = s.time ∧ (s.withHalted v).calendar = s.calendar ∧
    (s.withHalted v).calPhase = s.calPhase ∧ (s.withHalted v).slew = s.slew ∧ (s.withHalted v).stepped = s.stepped ∧
    (s.withHalted v).deckEver = s.deckEver ∧ (s.withHalted v).free = s.free ∧ (s.withHalted v).regs = s.regs ∧
    (s.withHalted v).halfW = s.halfW ∧ (s.withHalted v).halfR = s.halfR ∧ (s.withHalted v).sealWide = s.sealWide ∧
    (s.withHalted v).sealParts = s.sealParts ∧ (s.withHalted v).mem = s.mem ∧ (s.withHalted v).chk = s.chk ∧
    (s.withHalted v).prot = s.prot ∧ (s.withHalted v).rsp = s.rsp ∧ (s.withHalted v).errQ = s.errQ ∧
    (s.withHalted v).recCount = s.recCount ∧ (s.withHalted v).vfQ = s.vfQ ∧ (s.withHalted v).ceSince = s.ceSince ∧
    (s.withHalted v).ticks = s.ticks ∧ (s.withHalted v).wbq = s.wbq ∧ (s.withHalted v).merge = s.merge ∧
    (s.withHalted v).scrub = s.scrub ∧ (s.withHalted v).msix = s.msix ∧ (s.withHalted v).hostReads = s.hostReads ∧
    (s.withHalted v).hostTag = s.hostTag ∧ (s.withHalted v).tiles = s.tiles ∧ (s.withHalted v).arrs = s.arrs ∧
    (s.withHalted v).thrs = s.thrs ∧ (s.withHalted v).jobs = s.jobs ∧ (s.withHalted v).tags = s.tags ∧
    (s.withHalted v).tileSems = s.tileSems ∧ (s.withHalted v).parts = s.parts ∧ (s.withHalted v).sems = s.sems ∧
    (s.withHalted v).evts = s.evts ∧ (s.withHalted v).decks = s.decks ∧ (s.withHalted v).execs = s.execs ∧
    (s.withHalted v).startNo = s.startNo ∧ (s.withHalted v).suspNo = s.suspNo ∧ (s.withHalted v).pinHeld = s.pinHeld ∧
    (s.withHalted v).dropLater = s.dropLater ∧ (s.withHalted v).allocAt = s.allocAt ∧ (s.withHalted v).chans = s.chans ∧
    (s.withHalted v).thapWait = s.thapWait ∧ (s.withHalted v).stepNo = s.stepNo ∧ (s.withHalted v).attn = s.attn ∧
    (s.withHalted v).accts = s.accts ∧ (s.withHalted v).mons = s.mons ∧ (s.withHalted v).margin = s.margin ∧
    (s.withHalted v).ports = s.ports ∧ (s.withHalted v).probes = s.probes ∧ (s.withHalted v).cruiseAt = s.cruiseAt ∧
    (s.withHalted v).routeImage = s.routeImage ∧ (s.withHalted v).inbox = s.inbox ∧ (s.withHalted v).sendCtx = s.sendCtx ∧
    (s.withHalted v).recvCtx = s.recvCtx ∧ (s.withHalted v).streamNo = s.streamNo ∧ (s.withHalted v).syncAt = s.syncAt ∧
    (s.withHalted v).tree = s.tree ∧ (s.withHalted v).img = s.img ∧ (s.withHalted v).fuses = s.fuses ∧
    (s.withHalted v).boot = s.boot ∧ (s.withHalted v).owner = s.owner ∧ (s.withHalted v).power = s.power ∧
    (s.withHalted v).pkg = s.pkg ∧ (s.withHalted v).mgmt = s.mgmt := by
  and_intros <;> rfl

@[simp] theorem State.withMsix_msix (v : Tbl Msix) : (s.withMsix v).msix = v := rfl

/-- `State.withMsix` writes `msix` alone. -/
@[simp] theorem State.withMsix_frame (v : Tbl Msix) :
    (s.withMsix v).pending = s.pending ∧ (s.withMsix v).time = s.time ∧ (s.withMsix v).calendar = s.calendar ∧
    (s.withMsix v).calPhase = s.calPhase ∧ (s.withMsix v).slew = s.slew ∧ (s.withMsix v).stepped = s.stepped ∧
    (s.withMsix v).deckEver = s.deckEver ∧ (s.withMsix v).free = s.free ∧ (s.withMsix v).regs = s.regs ∧
    (s.withMsix v).halfW = s.halfW ∧ (s.withMsix v).halfR = s.halfR ∧ (s.withMsix v).sealWide = s.sealWide ∧
    (s.withMsix v).sealParts = s.sealParts ∧ (s.withMsix v).mem = s.mem ∧ (s.withMsix v).chk = s.chk ∧
    (s.withMsix v).prot = s.prot ∧ (s.withMsix v).rsp = s.rsp ∧ (s.withMsix v).errQ = s.errQ ∧
    (s.withMsix v).recCount = s.recCount ∧ (s.withMsix v).vfQ = s.vfQ ∧ (s.withMsix v).ceSince = s.ceSince ∧
    (s.withMsix v).ticks = s.ticks ∧ (s.withMsix v).wbq = s.wbq ∧ (s.withMsix v).merge = s.merge ∧
    (s.withMsix v).scrub = s.scrub ∧ (s.withMsix v).halted = s.halted ∧ (s.withMsix v).hostReads = s.hostReads ∧
    (s.withMsix v).hostTag = s.hostTag ∧ (s.withMsix v).tiles = s.tiles ∧ (s.withMsix v).arrs = s.arrs ∧
    (s.withMsix v).thrs = s.thrs ∧ (s.withMsix v).jobs = s.jobs ∧ (s.withMsix v).tags = s.tags ∧
    (s.withMsix v).tileSems = s.tileSems ∧ (s.withMsix v).parts = s.parts ∧ (s.withMsix v).sems = s.sems ∧
    (s.withMsix v).evts = s.evts ∧ (s.withMsix v).decks = s.decks ∧ (s.withMsix v).execs = s.execs ∧
    (s.withMsix v).startNo = s.startNo ∧ (s.withMsix v).suspNo = s.suspNo ∧ (s.withMsix v).pinHeld = s.pinHeld ∧
    (s.withMsix v).dropLater = s.dropLater ∧ (s.withMsix v).allocAt = s.allocAt ∧ (s.withMsix v).chans = s.chans ∧
    (s.withMsix v).thapWait = s.thapWait ∧ (s.withMsix v).stepNo = s.stepNo ∧ (s.withMsix v).attn = s.attn ∧
    (s.withMsix v).accts = s.accts ∧ (s.withMsix v).mons = s.mons ∧ (s.withMsix v).margin = s.margin ∧
    (s.withMsix v).ports = s.ports ∧ (s.withMsix v).probes = s.probes ∧ (s.withMsix v).cruiseAt = s.cruiseAt ∧
    (s.withMsix v).routeImage = s.routeImage ∧ (s.withMsix v).inbox = s.inbox ∧ (s.withMsix v).sendCtx = s.sendCtx ∧
    (s.withMsix v).recvCtx = s.recvCtx ∧ (s.withMsix v).streamNo = s.streamNo ∧ (s.withMsix v).syncAt = s.syncAt ∧
    (s.withMsix v).tree = s.tree ∧ (s.withMsix v).img = s.img ∧ (s.withMsix v).fuses = s.fuses ∧
    (s.withMsix v).boot = s.boot ∧ (s.withMsix v).owner = s.owner ∧ (s.withMsix v).power = s.power ∧
    (s.withMsix v).pkg = s.pkg ∧ (s.withMsix v).mgmt = s.mgmt := by
  and_intros <;> rfl

@[simp] theorem State.withHostReads_hostReads (v : List HostRead) : (s.withHostReads v).hostReads = v := rfl

/-- `State.withHostReads` writes `hostReads` alone. -/
@[simp] theorem State.withHostReads_frame (v : List HostRead) :
    (s.withHostReads v).pending = s.pending ∧ (s.withHostReads v).time = s.time ∧
    (s.withHostReads v).calendar = s.calendar ∧ (s.withHostReads v).calPhase = s.calPhase ∧
    (s.withHostReads v).slew = s.slew ∧ (s.withHostReads v).stepped = s.stepped ∧
    (s.withHostReads v).deckEver = s.deckEver ∧ (s.withHostReads v).free = s.free ∧ (s.withHostReads v).regs = s.regs ∧
    (s.withHostReads v).halfW = s.halfW ∧ (s.withHostReads v).halfR = s.halfR ∧ (s.withHostReads v).sealWide = s.sealWide ∧
    (s.withHostReads v).sealParts = s.sealParts ∧ (s.withHostReads v).mem = s.mem ∧ (s.withHostReads v).chk = s.chk ∧
    (s.withHostReads v).prot = s.prot ∧ (s.withHostReads v).rsp = s.rsp ∧ (s.withHostReads v).errQ = s.errQ ∧
    (s.withHostReads v).recCount = s.recCount ∧ (s.withHostReads v).vfQ = s.vfQ ∧ (s.withHostReads v).ceSince = s.ceSince ∧
    (s.withHostReads v).ticks = s.ticks ∧ (s.withHostReads v).wbq = s.wbq ∧ (s.withHostReads v).merge = s.merge ∧
    (s.withHostReads v).scrub = s.scrub ∧ (s.withHostReads v).halted = s.halted ∧ (s.withHostReads v).msix = s.msix ∧
    (s.withHostReads v).hostTag = s.hostTag ∧ (s.withHostReads v).tiles = s.tiles ∧ (s.withHostReads v).arrs = s.arrs ∧
    (s.withHostReads v).thrs = s.thrs ∧ (s.withHostReads v).jobs = s.jobs ∧ (s.withHostReads v).tags = s.tags ∧
    (s.withHostReads v).tileSems = s.tileSems ∧ (s.withHostReads v).parts = s.parts ∧ (s.withHostReads v).sems = s.sems ∧
    (s.withHostReads v).evts = s.evts ∧ (s.withHostReads v).decks = s.decks ∧ (s.withHostReads v).execs = s.execs ∧
    (s.withHostReads v).startNo = s.startNo ∧ (s.withHostReads v).suspNo = s.suspNo ∧
    (s.withHostReads v).pinHeld = s.pinHeld ∧ (s.withHostReads v).dropLater = s.dropLater ∧
    (s.withHostReads v).allocAt = s.allocAt ∧ (s.withHostReads v).chans = s.chans ∧
    (s.withHostReads v).thapWait = s.thapWait ∧ (s.withHostReads v).stepNo = s.stepNo ∧ (s.withHostReads v).attn = s.attn ∧
    (s.withHostReads v).accts = s.accts ∧ (s.withHostReads v).mons = s.mons ∧ (s.withHostReads v).margin = s.margin ∧
    (s.withHostReads v).ports = s.ports ∧ (s.withHostReads v).probes = s.probes ∧
    (s.withHostReads v).cruiseAt = s.cruiseAt ∧ (s.withHostReads v).routeImage = s.routeImage ∧
    (s.withHostReads v).inbox = s.inbox ∧ (s.withHostReads v).sendCtx = s.sendCtx ∧
    (s.withHostReads v).recvCtx = s.recvCtx ∧ (s.withHostReads v).streamNo = s.streamNo ∧
    (s.withHostReads v).syncAt = s.syncAt ∧ (s.withHostReads v).tree = s.tree ∧ (s.withHostReads v).img = s.img ∧
    (s.withHostReads v).fuses = s.fuses ∧ (s.withHostReads v).boot = s.boot ∧ (s.withHostReads v).owner = s.owner ∧
    (s.withHostReads v).power = s.power ∧ (s.withHostReads v).pkg = s.pkg ∧ (s.withHostReads v).mgmt = s.mgmt := by
  and_intros <;> rfl

@[simp] theorem State.withHostTag_hostTag (v : Nat) : (s.withHostTag v).hostTag = v := rfl

/-- `State.withHostTag` writes `hostTag` alone. -/
@[simp] theorem State.withHostTag_frame (v : Nat) :
    (s.withHostTag v).pending = s.pending ∧ (s.withHostTag v).time = s.time ∧ (s.withHostTag v).calendar = s.calendar ∧
    (s.withHostTag v).calPhase = s.calPhase ∧ (s.withHostTag v).slew = s.slew ∧ (s.withHostTag v).stepped = s.stepped ∧
    (s.withHostTag v).deckEver = s.deckEver ∧ (s.withHostTag v).free = s.free ∧ (s.withHostTag v).regs = s.regs ∧
    (s.withHostTag v).halfW = s.halfW ∧ (s.withHostTag v).halfR = s.halfR ∧ (s.withHostTag v).sealWide = s.sealWide ∧
    (s.withHostTag v).sealParts = s.sealParts ∧ (s.withHostTag v).mem = s.mem ∧ (s.withHostTag v).chk = s.chk ∧
    (s.withHostTag v).prot = s.prot ∧ (s.withHostTag v).rsp = s.rsp ∧ (s.withHostTag v).errQ = s.errQ ∧
    (s.withHostTag v).recCount = s.recCount ∧ (s.withHostTag v).vfQ = s.vfQ ∧ (s.withHostTag v).ceSince = s.ceSince ∧
    (s.withHostTag v).ticks = s.ticks ∧ (s.withHostTag v).wbq = s.wbq ∧ (s.withHostTag v).merge = s.merge ∧
    (s.withHostTag v).scrub = s.scrub ∧ (s.withHostTag v).halted = s.halted ∧ (s.withHostTag v).msix = s.msix ∧
    (s.withHostTag v).hostReads = s.hostReads ∧ (s.withHostTag v).tiles = s.tiles ∧ (s.withHostTag v).arrs = s.arrs ∧
    (s.withHostTag v).thrs = s.thrs ∧ (s.withHostTag v).jobs = s.jobs ∧ (s.withHostTag v).tags = s.tags ∧
    (s.withHostTag v).tileSems = s.tileSems ∧ (s.withHostTag v).parts = s.parts ∧ (s.withHostTag v).sems = s.sems ∧
    (s.withHostTag v).evts = s.evts ∧ (s.withHostTag v).decks = s.decks ∧ (s.withHostTag v).execs = s.execs ∧
    (s.withHostTag v).startNo = s.startNo ∧ (s.withHostTag v).suspNo = s.suspNo ∧ (s.withHostTag v).pinHeld = s.pinHeld ∧
    (s.withHostTag v).dropLater = s.dropLater ∧ (s.withHostTag v).allocAt = s.allocAt ∧ (s.withHostTag v).chans = s.chans ∧
    (s.withHostTag v).thapWait = s.thapWait ∧ (s.withHostTag v).stepNo = s.stepNo ∧ (s.withHostTag v).attn = s.attn ∧
    (s.withHostTag v).accts = s.accts ∧ (s.withHostTag v).mons = s.mons ∧ (s.withHostTag v).margin = s.margin ∧
    (s.withHostTag v).ports = s.ports ∧ (s.withHostTag v).probes = s.probes ∧ (s.withHostTag v).cruiseAt = s.cruiseAt ∧
    (s.withHostTag v).routeImage = s.routeImage ∧ (s.withHostTag v).inbox = s.inbox ∧
    (s.withHostTag v).sendCtx = s.sendCtx ∧ (s.withHostTag v).recvCtx = s.recvCtx ∧
    (s.withHostTag v).streamNo = s.streamNo ∧ (s.withHostTag v).syncAt = s.syncAt ∧ (s.withHostTag v).tree = s.tree ∧
    (s.withHostTag v).img = s.img ∧ (s.withHostTag v).fuses = s.fuses ∧ (s.withHostTag v).boot = s.boot ∧
    (s.withHostTag v).owner = s.owner ∧ (s.withHostTag v).power = s.power ∧ (s.withHostTag v).pkg = s.pkg ∧
    (s.withHostTag v).mgmt = s.mgmt := by
  and_intros <;> rfl

@[simp] theorem State.withTiles_tiles (v : Tbl Tile) : (s.withTiles v).tiles = v := rfl

/-- `State.withTiles` writes `tiles` alone. -/
@[simp] theorem State.withTiles_frame (v : Tbl Tile) :
    (s.withTiles v).pending = s.pending ∧ (s.withTiles v).time = s.time ∧ (s.withTiles v).calendar = s.calendar ∧
    (s.withTiles v).calPhase = s.calPhase ∧ (s.withTiles v).slew = s.slew ∧ (s.withTiles v).stepped = s.stepped ∧
    (s.withTiles v).deckEver = s.deckEver ∧ (s.withTiles v).free = s.free ∧ (s.withTiles v).regs = s.regs ∧
    (s.withTiles v).halfW = s.halfW ∧ (s.withTiles v).halfR = s.halfR ∧ (s.withTiles v).sealWide = s.sealWide ∧
    (s.withTiles v).sealParts = s.sealParts ∧ (s.withTiles v).mem = s.mem ∧ (s.withTiles v).chk = s.chk ∧
    (s.withTiles v).prot = s.prot ∧ (s.withTiles v).rsp = s.rsp ∧ (s.withTiles v).errQ = s.errQ ∧
    (s.withTiles v).recCount = s.recCount ∧ (s.withTiles v).vfQ = s.vfQ ∧ (s.withTiles v).ceSince = s.ceSince ∧
    (s.withTiles v).ticks = s.ticks ∧ (s.withTiles v).wbq = s.wbq ∧ (s.withTiles v).merge = s.merge ∧
    (s.withTiles v).scrub = s.scrub ∧ (s.withTiles v).halted = s.halted ∧ (s.withTiles v).msix = s.msix ∧
    (s.withTiles v).hostReads = s.hostReads ∧ (s.withTiles v).hostTag = s.hostTag ∧ (s.withTiles v).arrs = s.arrs ∧
    (s.withTiles v).thrs = s.thrs ∧ (s.withTiles v).jobs = s.jobs ∧ (s.withTiles v).tags = s.tags ∧
    (s.withTiles v).tileSems = s.tileSems ∧ (s.withTiles v).parts = s.parts ∧ (s.withTiles v).sems = s.sems ∧
    (s.withTiles v).evts = s.evts ∧ (s.withTiles v).decks = s.decks ∧ (s.withTiles v).execs = s.execs ∧
    (s.withTiles v).startNo = s.startNo ∧ (s.withTiles v).suspNo = s.suspNo ∧ (s.withTiles v).pinHeld = s.pinHeld ∧
    (s.withTiles v).dropLater = s.dropLater ∧ (s.withTiles v).allocAt = s.allocAt ∧ (s.withTiles v).chans = s.chans ∧
    (s.withTiles v).thapWait = s.thapWait ∧ (s.withTiles v).stepNo = s.stepNo ∧ (s.withTiles v).attn = s.attn ∧
    (s.withTiles v).accts = s.accts ∧ (s.withTiles v).mons = s.mons ∧ (s.withTiles v).margin = s.margin ∧
    (s.withTiles v).ports = s.ports ∧ (s.withTiles v).probes = s.probes ∧ (s.withTiles v).cruiseAt = s.cruiseAt ∧
    (s.withTiles v).routeImage = s.routeImage ∧ (s.withTiles v).inbox = s.inbox ∧ (s.withTiles v).sendCtx = s.sendCtx ∧
    (s.withTiles v).recvCtx = s.recvCtx ∧ (s.withTiles v).streamNo = s.streamNo ∧ (s.withTiles v).syncAt = s.syncAt ∧
    (s.withTiles v).tree = s.tree ∧ (s.withTiles v).img = s.img ∧ (s.withTiles v).fuses = s.fuses ∧
    (s.withTiles v).boot = s.boot ∧ (s.withTiles v).owner = s.owner ∧ (s.withTiles v).power = s.power ∧
    (s.withTiles v).pkg = s.pkg ∧ (s.withTiles v).mgmt = s.mgmt := by
  and_intros <;> rfl

@[simp] theorem State.withArrs_arrs (v : Tbl Arr) : (s.withArrs v).arrs = v := rfl

/-- `State.withArrs` writes `arrs` alone. -/
@[simp] theorem State.withArrs_frame (v : Tbl Arr) :
    (s.withArrs v).pending = s.pending ∧ (s.withArrs v).time = s.time ∧ (s.withArrs v).calendar = s.calendar ∧
    (s.withArrs v).calPhase = s.calPhase ∧ (s.withArrs v).slew = s.slew ∧ (s.withArrs v).stepped = s.stepped ∧
    (s.withArrs v).deckEver = s.deckEver ∧ (s.withArrs v).free = s.free ∧ (s.withArrs v).regs = s.regs ∧
    (s.withArrs v).halfW = s.halfW ∧ (s.withArrs v).halfR = s.halfR ∧ (s.withArrs v).sealWide = s.sealWide ∧
    (s.withArrs v).sealParts = s.sealParts ∧ (s.withArrs v).mem = s.mem ∧ (s.withArrs v).chk = s.chk ∧
    (s.withArrs v).prot = s.prot ∧ (s.withArrs v).rsp = s.rsp ∧ (s.withArrs v).errQ = s.errQ ∧
    (s.withArrs v).recCount = s.recCount ∧ (s.withArrs v).vfQ = s.vfQ ∧ (s.withArrs v).ceSince = s.ceSince ∧
    (s.withArrs v).ticks = s.ticks ∧ (s.withArrs v).wbq = s.wbq ∧ (s.withArrs v).merge = s.merge ∧
    (s.withArrs v).scrub = s.scrub ∧ (s.withArrs v).halted = s.halted ∧ (s.withArrs v).msix = s.msix ∧
    (s.withArrs v).hostReads = s.hostReads ∧ (s.withArrs v).hostTag = s.hostTag ∧ (s.withArrs v).tiles = s.tiles ∧
    (s.withArrs v).thrs = s.thrs ∧ (s.withArrs v).jobs = s.jobs ∧ (s.withArrs v).tags = s.tags ∧
    (s.withArrs v).tileSems = s.tileSems ∧ (s.withArrs v).parts = s.parts ∧ (s.withArrs v).sems = s.sems ∧
    (s.withArrs v).evts = s.evts ∧ (s.withArrs v).decks = s.decks ∧ (s.withArrs v).execs = s.execs ∧
    (s.withArrs v).startNo = s.startNo ∧ (s.withArrs v).suspNo = s.suspNo ∧ (s.withArrs v).pinHeld = s.pinHeld ∧
    (s.withArrs v).dropLater = s.dropLater ∧ (s.withArrs v).allocAt = s.allocAt ∧ (s.withArrs v).chans = s.chans ∧
    (s.withArrs v).thapWait = s.thapWait ∧ (s.withArrs v).stepNo = s.stepNo ∧ (s.withArrs v).attn = s.attn ∧
    (s.withArrs v).accts = s.accts ∧ (s.withArrs v).mons = s.mons ∧ (s.withArrs v).margin = s.margin ∧
    (s.withArrs v).ports = s.ports ∧ (s.withArrs v).probes = s.probes ∧ (s.withArrs v).cruiseAt = s.cruiseAt ∧
    (s.withArrs v).routeImage = s.routeImage ∧ (s.withArrs v).inbox = s.inbox ∧ (s.withArrs v).sendCtx = s.sendCtx ∧
    (s.withArrs v).recvCtx = s.recvCtx ∧ (s.withArrs v).streamNo = s.streamNo ∧ (s.withArrs v).syncAt = s.syncAt ∧
    (s.withArrs v).tree = s.tree ∧ (s.withArrs v).img = s.img ∧ (s.withArrs v).fuses = s.fuses ∧
    (s.withArrs v).boot = s.boot ∧ (s.withArrs v).owner = s.owner ∧ (s.withArrs v).power = s.power ∧
    (s.withArrs v).pkg = s.pkg ∧ (s.withArrs v).mgmt = s.mgmt := by
  and_intros <;> rfl

@[simp] theorem State.withThrs_thrs (v : Tbl Thr) : (s.withThrs v).thrs = v := rfl

/-- `State.withThrs` writes `thrs` alone. -/
@[simp] theorem State.withThrs_frame (v : Tbl Thr) :
    (s.withThrs v).pending = s.pending ∧ (s.withThrs v).time = s.time ∧ (s.withThrs v).calendar = s.calendar ∧
    (s.withThrs v).calPhase = s.calPhase ∧ (s.withThrs v).slew = s.slew ∧ (s.withThrs v).stepped = s.stepped ∧
    (s.withThrs v).deckEver = s.deckEver ∧ (s.withThrs v).free = s.free ∧ (s.withThrs v).regs = s.regs ∧
    (s.withThrs v).halfW = s.halfW ∧ (s.withThrs v).halfR = s.halfR ∧ (s.withThrs v).sealWide = s.sealWide ∧
    (s.withThrs v).sealParts = s.sealParts ∧ (s.withThrs v).mem = s.mem ∧ (s.withThrs v).chk = s.chk ∧
    (s.withThrs v).prot = s.prot ∧ (s.withThrs v).rsp = s.rsp ∧ (s.withThrs v).errQ = s.errQ ∧
    (s.withThrs v).recCount = s.recCount ∧ (s.withThrs v).vfQ = s.vfQ ∧ (s.withThrs v).ceSince = s.ceSince ∧
    (s.withThrs v).ticks = s.ticks ∧ (s.withThrs v).wbq = s.wbq ∧ (s.withThrs v).merge = s.merge ∧
    (s.withThrs v).scrub = s.scrub ∧ (s.withThrs v).halted = s.halted ∧ (s.withThrs v).msix = s.msix ∧
    (s.withThrs v).hostReads = s.hostReads ∧ (s.withThrs v).hostTag = s.hostTag ∧ (s.withThrs v).tiles = s.tiles ∧
    (s.withThrs v).arrs = s.arrs ∧ (s.withThrs v).jobs = s.jobs ∧ (s.withThrs v).tags = s.tags ∧
    (s.withThrs v).tileSems = s.tileSems ∧ (s.withThrs v).parts = s.parts ∧ (s.withThrs v).sems = s.sems ∧
    (s.withThrs v).evts = s.evts ∧ (s.withThrs v).decks = s.decks ∧ (s.withThrs v).execs = s.execs ∧
    (s.withThrs v).startNo = s.startNo ∧ (s.withThrs v).suspNo = s.suspNo ∧ (s.withThrs v).pinHeld = s.pinHeld ∧
    (s.withThrs v).dropLater = s.dropLater ∧ (s.withThrs v).allocAt = s.allocAt ∧ (s.withThrs v).chans = s.chans ∧
    (s.withThrs v).thapWait = s.thapWait ∧ (s.withThrs v).stepNo = s.stepNo ∧ (s.withThrs v).attn = s.attn ∧
    (s.withThrs v).accts = s.accts ∧ (s.withThrs v).mons = s.mons ∧ (s.withThrs v).margin = s.margin ∧
    (s.withThrs v).ports = s.ports ∧ (s.withThrs v).probes = s.probes ∧ (s.withThrs v).cruiseAt = s.cruiseAt ∧
    (s.withThrs v).routeImage = s.routeImage ∧ (s.withThrs v).inbox = s.inbox ∧ (s.withThrs v).sendCtx = s.sendCtx ∧
    (s.withThrs v).recvCtx = s.recvCtx ∧ (s.withThrs v).streamNo = s.streamNo ∧ (s.withThrs v).syncAt = s.syncAt ∧
    (s.withThrs v).tree = s.tree ∧ (s.withThrs v).img = s.img ∧ (s.withThrs v).fuses = s.fuses ∧
    (s.withThrs v).boot = s.boot ∧ (s.withThrs v).owner = s.owner ∧ (s.withThrs v).power = s.power ∧
    (s.withThrs v).pkg = s.pkg ∧ (s.withThrs v).mgmt = s.mgmt := by
  and_intros <;> rfl

@[simp] theorem State.withJobs_jobs (v : Tbl (Option Job)) : (s.withJobs v).jobs = v := rfl

/-- `State.withJobs` writes `jobs` alone. -/
@[simp] theorem State.withJobs_frame (v : Tbl (Option Job)) :
    (s.withJobs v).pending = s.pending ∧ (s.withJobs v).time = s.time ∧ (s.withJobs v).calendar = s.calendar ∧
    (s.withJobs v).calPhase = s.calPhase ∧ (s.withJobs v).slew = s.slew ∧ (s.withJobs v).stepped = s.stepped ∧
    (s.withJobs v).deckEver = s.deckEver ∧ (s.withJobs v).free = s.free ∧ (s.withJobs v).regs = s.regs ∧
    (s.withJobs v).halfW = s.halfW ∧ (s.withJobs v).halfR = s.halfR ∧ (s.withJobs v).sealWide = s.sealWide ∧
    (s.withJobs v).sealParts = s.sealParts ∧ (s.withJobs v).mem = s.mem ∧ (s.withJobs v).chk = s.chk ∧
    (s.withJobs v).prot = s.prot ∧ (s.withJobs v).rsp = s.rsp ∧ (s.withJobs v).errQ = s.errQ ∧
    (s.withJobs v).recCount = s.recCount ∧ (s.withJobs v).vfQ = s.vfQ ∧ (s.withJobs v).ceSince = s.ceSince ∧
    (s.withJobs v).ticks = s.ticks ∧ (s.withJobs v).wbq = s.wbq ∧ (s.withJobs v).merge = s.merge ∧
    (s.withJobs v).scrub = s.scrub ∧ (s.withJobs v).halted = s.halted ∧ (s.withJobs v).msix = s.msix ∧
    (s.withJobs v).hostReads = s.hostReads ∧ (s.withJobs v).hostTag = s.hostTag ∧ (s.withJobs v).tiles = s.tiles ∧
    (s.withJobs v).arrs = s.arrs ∧ (s.withJobs v).thrs = s.thrs ∧ (s.withJobs v).tags = s.tags ∧
    (s.withJobs v).tileSems = s.tileSems ∧ (s.withJobs v).parts = s.parts ∧ (s.withJobs v).sems = s.sems ∧
    (s.withJobs v).evts = s.evts ∧ (s.withJobs v).decks = s.decks ∧ (s.withJobs v).execs = s.execs ∧
    (s.withJobs v).startNo = s.startNo ∧ (s.withJobs v).suspNo = s.suspNo ∧ (s.withJobs v).pinHeld = s.pinHeld ∧
    (s.withJobs v).dropLater = s.dropLater ∧ (s.withJobs v).allocAt = s.allocAt ∧ (s.withJobs v).chans = s.chans ∧
    (s.withJobs v).thapWait = s.thapWait ∧ (s.withJobs v).stepNo = s.stepNo ∧ (s.withJobs v).attn = s.attn ∧
    (s.withJobs v).accts = s.accts ∧ (s.withJobs v).mons = s.mons ∧ (s.withJobs v).margin = s.margin ∧
    (s.withJobs v).ports = s.ports ∧ (s.withJobs v).probes = s.probes ∧ (s.withJobs v).cruiseAt = s.cruiseAt ∧
    (s.withJobs v).routeImage = s.routeImage ∧ (s.withJobs v).inbox = s.inbox ∧ (s.withJobs v).sendCtx = s.sendCtx ∧
    (s.withJobs v).recvCtx = s.recvCtx ∧ (s.withJobs v).streamNo = s.streamNo ∧ (s.withJobs v).syncAt = s.syncAt ∧
    (s.withJobs v).tree = s.tree ∧ (s.withJobs v).img = s.img ∧ (s.withJobs v).fuses = s.fuses ∧
    (s.withJobs v).boot = s.boot ∧ (s.withJobs v).owner = s.owner ∧ (s.withJobs v).power = s.power ∧
    (s.withJobs v).pkg = s.pkg ∧ (s.withJobs v).mgmt = s.mgmt := by
  and_intros <;> rfl

@[simp] theorem State.withTags_tags (v : Tbl Tag) : (s.withTags v).tags = v := rfl

/-- `State.withTags` writes `tags` alone. -/
@[simp] theorem State.withTags_frame (v : Tbl Tag) :
    (s.withTags v).pending = s.pending ∧ (s.withTags v).time = s.time ∧ (s.withTags v).calendar = s.calendar ∧
    (s.withTags v).calPhase = s.calPhase ∧ (s.withTags v).slew = s.slew ∧ (s.withTags v).stepped = s.stepped ∧
    (s.withTags v).deckEver = s.deckEver ∧ (s.withTags v).free = s.free ∧ (s.withTags v).regs = s.regs ∧
    (s.withTags v).halfW = s.halfW ∧ (s.withTags v).halfR = s.halfR ∧ (s.withTags v).sealWide = s.sealWide ∧
    (s.withTags v).sealParts = s.sealParts ∧ (s.withTags v).mem = s.mem ∧ (s.withTags v).chk = s.chk ∧
    (s.withTags v).prot = s.prot ∧ (s.withTags v).rsp = s.rsp ∧ (s.withTags v).errQ = s.errQ ∧
    (s.withTags v).recCount = s.recCount ∧ (s.withTags v).vfQ = s.vfQ ∧ (s.withTags v).ceSince = s.ceSince ∧
    (s.withTags v).ticks = s.ticks ∧ (s.withTags v).wbq = s.wbq ∧ (s.withTags v).merge = s.merge ∧
    (s.withTags v).scrub = s.scrub ∧ (s.withTags v).halted = s.halted ∧ (s.withTags v).msix = s.msix ∧
    (s.withTags v).hostReads = s.hostReads ∧ (s.withTags v).hostTag = s.hostTag ∧ (s.withTags v).tiles = s.tiles ∧
    (s.withTags v).arrs = s.arrs ∧ (s.withTags v).thrs = s.thrs ∧ (s.withTags v).jobs = s.jobs ∧
    (s.withTags v).tileSems = s.tileSems ∧ (s.withTags v).parts = s.parts ∧ (s.withTags v).sems = s.sems ∧
    (s.withTags v).evts = s.evts ∧ (s.withTags v).decks = s.decks ∧ (s.withTags v).execs = s.execs ∧
    (s.withTags v).startNo = s.startNo ∧ (s.withTags v).suspNo = s.suspNo ∧ (s.withTags v).pinHeld = s.pinHeld ∧
    (s.withTags v).dropLater = s.dropLater ∧ (s.withTags v).allocAt = s.allocAt ∧ (s.withTags v).chans = s.chans ∧
    (s.withTags v).thapWait = s.thapWait ∧ (s.withTags v).stepNo = s.stepNo ∧ (s.withTags v).attn = s.attn ∧
    (s.withTags v).accts = s.accts ∧ (s.withTags v).mons = s.mons ∧ (s.withTags v).margin = s.margin ∧
    (s.withTags v).ports = s.ports ∧ (s.withTags v).probes = s.probes ∧ (s.withTags v).cruiseAt = s.cruiseAt ∧
    (s.withTags v).routeImage = s.routeImage ∧ (s.withTags v).inbox = s.inbox ∧ (s.withTags v).sendCtx = s.sendCtx ∧
    (s.withTags v).recvCtx = s.recvCtx ∧ (s.withTags v).streamNo = s.streamNo ∧ (s.withTags v).syncAt = s.syncAt ∧
    (s.withTags v).tree = s.tree ∧ (s.withTags v).img = s.img ∧ (s.withTags v).fuses = s.fuses ∧
    (s.withTags v).boot = s.boot ∧ (s.withTags v).owner = s.owner ∧ (s.withTags v).power = s.power ∧
    (s.withTags v).pkg = s.pkg ∧ (s.withTags v).mgmt = s.mgmt := by
  and_intros <;> rfl

@[simp] theorem State.withTileSems_tileSems (v : Tbl Nat) : (s.withTileSems v).tileSems = v := rfl

/-- `State.withTileSems` writes `tileSems` alone. -/
@[simp] theorem State.withTileSems_frame (v : Tbl Nat) :
    (s.withTileSems v).pending = s.pending ∧ (s.withTileSems v).time = s.time ∧ (s.withTileSems v).calendar = s.calendar ∧
    (s.withTileSems v).calPhase = s.calPhase ∧ (s.withTileSems v).slew = s.slew ∧ (s.withTileSems v).stepped = s.stepped ∧
    (s.withTileSems v).deckEver = s.deckEver ∧ (s.withTileSems v).free = s.free ∧ (s.withTileSems v).regs = s.regs ∧
    (s.withTileSems v).halfW = s.halfW ∧ (s.withTileSems v).halfR = s.halfR ∧ (s.withTileSems v).sealWide = s.sealWide ∧
    (s.withTileSems v).sealParts = s.sealParts ∧ (s.withTileSems v).mem = s.mem ∧ (s.withTileSems v).chk = s.chk ∧
    (s.withTileSems v).prot = s.prot ∧ (s.withTileSems v).rsp = s.rsp ∧ (s.withTileSems v).errQ = s.errQ ∧
    (s.withTileSems v).recCount = s.recCount ∧ (s.withTileSems v).vfQ = s.vfQ ∧ (s.withTileSems v).ceSince = s.ceSince ∧
    (s.withTileSems v).ticks = s.ticks ∧ (s.withTileSems v).wbq = s.wbq ∧ (s.withTileSems v).merge = s.merge ∧
    (s.withTileSems v).scrub = s.scrub ∧ (s.withTileSems v).halted = s.halted ∧ (s.withTileSems v).msix = s.msix ∧
    (s.withTileSems v).hostReads = s.hostReads ∧ (s.withTileSems v).hostTag = s.hostTag ∧
    (s.withTileSems v).tiles = s.tiles ∧ (s.withTileSems v).arrs = s.arrs ∧ (s.withTileSems v).thrs = s.thrs ∧
    (s.withTileSems v).jobs = s.jobs ∧ (s.withTileSems v).tags = s.tags ∧ (s.withTileSems v).parts = s.parts ∧
    (s.withTileSems v).sems = s.sems ∧ (s.withTileSems v).evts = s.evts ∧ (s.withTileSems v).decks = s.decks ∧
    (s.withTileSems v).execs = s.execs ∧ (s.withTileSems v).startNo = s.startNo ∧ (s.withTileSems v).suspNo = s.suspNo ∧
    (s.withTileSems v).pinHeld = s.pinHeld ∧ (s.withTileSems v).dropLater = s.dropLater ∧
    (s.withTileSems v).allocAt = s.allocAt ∧ (s.withTileSems v).chans = s.chans ∧
    (s.withTileSems v).thapWait = s.thapWait ∧ (s.withTileSems v).stepNo = s.stepNo ∧ (s.withTileSems v).attn = s.attn ∧
    (s.withTileSems v).accts = s.accts ∧ (s.withTileSems v).mons = s.mons ∧ (s.withTileSems v).margin = s.margin ∧
    (s.withTileSems v).ports = s.ports ∧ (s.withTileSems v).probes = s.probes ∧ (s.withTileSems v).cruiseAt = s.cruiseAt ∧
    (s.withTileSems v).routeImage = s.routeImage ∧ (s.withTileSems v).inbox = s.inbox ∧
    (s.withTileSems v).sendCtx = s.sendCtx ∧ (s.withTileSems v).recvCtx = s.recvCtx ∧
    (s.withTileSems v).streamNo = s.streamNo ∧ (s.withTileSems v).syncAt = s.syncAt ∧ (s.withTileSems v).tree = s.tree ∧
    (s.withTileSems v).img = s.img ∧ (s.withTileSems v).fuses = s.fuses ∧ (s.withTileSems v).boot = s.boot ∧
    (s.withTileSems v).owner = s.owner ∧ (s.withTileSems v).power = s.power ∧ (s.withTileSems v).pkg = s.pkg ∧
    (s.withTileSems v).mgmt = s.mgmt := by
  and_intros <;> rfl

@[simp] theorem State.withSems_sems (v : Tbl Nat) : (s.withSems v).sems = v := rfl

/-- `State.withSems` writes `sems` alone. -/
@[simp] theorem State.withSems_frame (v : Tbl Nat) :
    (s.withSems v).pending = s.pending ∧ (s.withSems v).time = s.time ∧ (s.withSems v).calendar = s.calendar ∧
    (s.withSems v).calPhase = s.calPhase ∧ (s.withSems v).slew = s.slew ∧ (s.withSems v).stepped = s.stepped ∧
    (s.withSems v).deckEver = s.deckEver ∧ (s.withSems v).free = s.free ∧ (s.withSems v).regs = s.regs ∧
    (s.withSems v).halfW = s.halfW ∧ (s.withSems v).halfR = s.halfR ∧ (s.withSems v).sealWide = s.sealWide ∧
    (s.withSems v).sealParts = s.sealParts ∧ (s.withSems v).mem = s.mem ∧ (s.withSems v).chk = s.chk ∧
    (s.withSems v).prot = s.prot ∧ (s.withSems v).rsp = s.rsp ∧ (s.withSems v).errQ = s.errQ ∧
    (s.withSems v).recCount = s.recCount ∧ (s.withSems v).vfQ = s.vfQ ∧ (s.withSems v).ceSince = s.ceSince ∧
    (s.withSems v).ticks = s.ticks ∧ (s.withSems v).wbq = s.wbq ∧ (s.withSems v).merge = s.merge ∧
    (s.withSems v).scrub = s.scrub ∧ (s.withSems v).halted = s.halted ∧ (s.withSems v).msix = s.msix ∧
    (s.withSems v).hostReads = s.hostReads ∧ (s.withSems v).hostTag = s.hostTag ∧ (s.withSems v).tiles = s.tiles ∧
    (s.withSems v).arrs = s.arrs ∧ (s.withSems v).thrs = s.thrs ∧ (s.withSems v).jobs = s.jobs ∧
    (s.withSems v).tags = s.tags ∧ (s.withSems v).tileSems = s.tileSems ∧ (s.withSems v).parts = s.parts ∧
    (s.withSems v).evts = s.evts ∧ (s.withSems v).decks = s.decks ∧ (s.withSems v).execs = s.execs ∧
    (s.withSems v).startNo = s.startNo ∧ (s.withSems v).suspNo = s.suspNo ∧ (s.withSems v).pinHeld = s.pinHeld ∧
    (s.withSems v).dropLater = s.dropLater ∧ (s.withSems v).allocAt = s.allocAt ∧ (s.withSems v).chans = s.chans ∧
    (s.withSems v).thapWait = s.thapWait ∧ (s.withSems v).stepNo = s.stepNo ∧ (s.withSems v).attn = s.attn ∧
    (s.withSems v).accts = s.accts ∧ (s.withSems v).mons = s.mons ∧ (s.withSems v).margin = s.margin ∧
    (s.withSems v).ports = s.ports ∧ (s.withSems v).probes = s.probes ∧ (s.withSems v).cruiseAt = s.cruiseAt ∧
    (s.withSems v).routeImage = s.routeImage ∧ (s.withSems v).inbox = s.inbox ∧ (s.withSems v).sendCtx = s.sendCtx ∧
    (s.withSems v).recvCtx = s.recvCtx ∧ (s.withSems v).streamNo = s.streamNo ∧ (s.withSems v).syncAt = s.syncAt ∧
    (s.withSems v).tree = s.tree ∧ (s.withSems v).img = s.img ∧ (s.withSems v).fuses = s.fuses ∧
    (s.withSems v).boot = s.boot ∧ (s.withSems v).owner = s.owner ∧ (s.withSems v).power = s.power ∧
    (s.withSems v).pkg = s.pkg ∧ (s.withSems v).mgmt = s.mgmt := by
  and_intros <;> rfl

@[simp] theorem State.withEvts_evts (v : Tbl Nat) : (s.withEvts v).evts = v := rfl

/-- `State.withEvts` writes `evts` alone. -/
@[simp] theorem State.withEvts_frame (v : Tbl Nat) :
    (s.withEvts v).pending = s.pending ∧ (s.withEvts v).time = s.time ∧ (s.withEvts v).calendar = s.calendar ∧
    (s.withEvts v).calPhase = s.calPhase ∧ (s.withEvts v).slew = s.slew ∧ (s.withEvts v).stepped = s.stepped ∧
    (s.withEvts v).deckEver = s.deckEver ∧ (s.withEvts v).free = s.free ∧ (s.withEvts v).regs = s.regs ∧
    (s.withEvts v).halfW = s.halfW ∧ (s.withEvts v).halfR = s.halfR ∧ (s.withEvts v).sealWide = s.sealWide ∧
    (s.withEvts v).sealParts = s.sealParts ∧ (s.withEvts v).mem = s.mem ∧ (s.withEvts v).chk = s.chk ∧
    (s.withEvts v).prot = s.prot ∧ (s.withEvts v).rsp = s.rsp ∧ (s.withEvts v).errQ = s.errQ ∧
    (s.withEvts v).recCount = s.recCount ∧ (s.withEvts v).vfQ = s.vfQ ∧ (s.withEvts v).ceSince = s.ceSince ∧
    (s.withEvts v).ticks = s.ticks ∧ (s.withEvts v).wbq = s.wbq ∧ (s.withEvts v).merge = s.merge ∧
    (s.withEvts v).scrub = s.scrub ∧ (s.withEvts v).halted = s.halted ∧ (s.withEvts v).msix = s.msix ∧
    (s.withEvts v).hostReads = s.hostReads ∧ (s.withEvts v).hostTag = s.hostTag ∧ (s.withEvts v).tiles = s.tiles ∧
    (s.withEvts v).arrs = s.arrs ∧ (s.withEvts v).thrs = s.thrs ∧ (s.withEvts v).jobs = s.jobs ∧
    (s.withEvts v).tags = s.tags ∧ (s.withEvts v).tileSems = s.tileSems ∧ (s.withEvts v).parts = s.parts ∧
    (s.withEvts v).sems = s.sems ∧ (s.withEvts v).decks = s.decks ∧ (s.withEvts v).execs = s.execs ∧
    (s.withEvts v).startNo = s.startNo ∧ (s.withEvts v).suspNo = s.suspNo ∧ (s.withEvts v).pinHeld = s.pinHeld ∧
    (s.withEvts v).dropLater = s.dropLater ∧ (s.withEvts v).allocAt = s.allocAt ∧ (s.withEvts v).chans = s.chans ∧
    (s.withEvts v).thapWait = s.thapWait ∧ (s.withEvts v).stepNo = s.stepNo ∧ (s.withEvts v).attn = s.attn ∧
    (s.withEvts v).accts = s.accts ∧ (s.withEvts v).mons = s.mons ∧ (s.withEvts v).margin = s.margin ∧
    (s.withEvts v).ports = s.ports ∧ (s.withEvts v).probes = s.probes ∧ (s.withEvts v).cruiseAt = s.cruiseAt ∧
    (s.withEvts v).routeImage = s.routeImage ∧ (s.withEvts v).inbox = s.inbox ∧ (s.withEvts v).sendCtx = s.sendCtx ∧
    (s.withEvts v).recvCtx = s.recvCtx ∧ (s.withEvts v).streamNo = s.streamNo ∧ (s.withEvts v).syncAt = s.syncAt ∧
    (s.withEvts v).tree = s.tree ∧ (s.withEvts v).img = s.img ∧ (s.withEvts v).fuses = s.fuses ∧
    (s.withEvts v).boot = s.boot ∧ (s.withEvts v).owner = s.owner ∧ (s.withEvts v).power = s.power ∧
    (s.withEvts v).pkg = s.pkg ∧ (s.withEvts v).mgmt = s.mgmt := by
  and_intros <;> rfl

@[simp] theorem State.withDecks_decks (v : Tbl Deck) : (s.withDecks v).decks = v := rfl

/-- `State.withDecks` writes `decks` alone. -/
@[simp] theorem State.withDecks_frame (v : Tbl Deck) :
    (s.withDecks v).pending = s.pending ∧ (s.withDecks v).time = s.time ∧ (s.withDecks v).calendar = s.calendar ∧
    (s.withDecks v).calPhase = s.calPhase ∧ (s.withDecks v).slew = s.slew ∧ (s.withDecks v).stepped = s.stepped ∧
    (s.withDecks v).deckEver = s.deckEver ∧ (s.withDecks v).free = s.free ∧ (s.withDecks v).regs = s.regs ∧
    (s.withDecks v).halfW = s.halfW ∧ (s.withDecks v).halfR = s.halfR ∧ (s.withDecks v).sealWide = s.sealWide ∧
    (s.withDecks v).sealParts = s.sealParts ∧ (s.withDecks v).mem = s.mem ∧ (s.withDecks v).chk = s.chk ∧
    (s.withDecks v).prot = s.prot ∧ (s.withDecks v).rsp = s.rsp ∧ (s.withDecks v).errQ = s.errQ ∧
    (s.withDecks v).recCount = s.recCount ∧ (s.withDecks v).vfQ = s.vfQ ∧ (s.withDecks v).ceSince = s.ceSince ∧
    (s.withDecks v).ticks = s.ticks ∧ (s.withDecks v).wbq = s.wbq ∧ (s.withDecks v).merge = s.merge ∧
    (s.withDecks v).scrub = s.scrub ∧ (s.withDecks v).halted = s.halted ∧ (s.withDecks v).msix = s.msix ∧
    (s.withDecks v).hostReads = s.hostReads ∧ (s.withDecks v).hostTag = s.hostTag ∧ (s.withDecks v).tiles = s.tiles ∧
    (s.withDecks v).arrs = s.arrs ∧ (s.withDecks v).thrs = s.thrs ∧ (s.withDecks v).jobs = s.jobs ∧
    (s.withDecks v).tags = s.tags ∧ (s.withDecks v).tileSems = s.tileSems ∧ (s.withDecks v).parts = s.parts ∧
    (s.withDecks v).sems = s.sems ∧ (s.withDecks v).evts = s.evts ∧ (s.withDecks v).execs = s.execs ∧
    (s.withDecks v).startNo = s.startNo ∧ (s.withDecks v).suspNo = s.suspNo ∧ (s.withDecks v).pinHeld = s.pinHeld ∧
    (s.withDecks v).dropLater = s.dropLater ∧ (s.withDecks v).allocAt = s.allocAt ∧ (s.withDecks v).chans = s.chans ∧
    (s.withDecks v).thapWait = s.thapWait ∧ (s.withDecks v).stepNo = s.stepNo ∧ (s.withDecks v).attn = s.attn ∧
    (s.withDecks v).accts = s.accts ∧ (s.withDecks v).mons = s.mons ∧ (s.withDecks v).margin = s.margin ∧
    (s.withDecks v).ports = s.ports ∧ (s.withDecks v).probes = s.probes ∧ (s.withDecks v).cruiseAt = s.cruiseAt ∧
    (s.withDecks v).routeImage = s.routeImage ∧ (s.withDecks v).inbox = s.inbox ∧ (s.withDecks v).sendCtx = s.sendCtx ∧
    (s.withDecks v).recvCtx = s.recvCtx ∧ (s.withDecks v).streamNo = s.streamNo ∧ (s.withDecks v).syncAt = s.syncAt ∧
    (s.withDecks v).tree = s.tree ∧ (s.withDecks v).img = s.img ∧ (s.withDecks v).fuses = s.fuses ∧
    (s.withDecks v).boot = s.boot ∧ (s.withDecks v).owner = s.owner ∧ (s.withDecks v).power = s.power ∧
    (s.withDecks v).pkg = s.pkg ∧ (s.withDecks v).mgmt = s.mgmt := by
  and_intros <;> rfl

@[simp] theorem State.withStartNo_startNo (v : Nat) : (s.withStartNo v).startNo = v := rfl

/-- `State.withStartNo` writes `startNo` alone. -/
@[simp] theorem State.withStartNo_frame (v : Nat) :
    (s.withStartNo v).pending = s.pending ∧ (s.withStartNo v).time = s.time ∧ (s.withStartNo v).calendar = s.calendar ∧
    (s.withStartNo v).calPhase = s.calPhase ∧ (s.withStartNo v).slew = s.slew ∧ (s.withStartNo v).stepped = s.stepped ∧
    (s.withStartNo v).deckEver = s.deckEver ∧ (s.withStartNo v).free = s.free ∧ (s.withStartNo v).regs = s.regs ∧
    (s.withStartNo v).halfW = s.halfW ∧ (s.withStartNo v).halfR = s.halfR ∧ (s.withStartNo v).sealWide = s.sealWide ∧
    (s.withStartNo v).sealParts = s.sealParts ∧ (s.withStartNo v).mem = s.mem ∧ (s.withStartNo v).chk = s.chk ∧
    (s.withStartNo v).prot = s.prot ∧ (s.withStartNo v).rsp = s.rsp ∧ (s.withStartNo v).errQ = s.errQ ∧
    (s.withStartNo v).recCount = s.recCount ∧ (s.withStartNo v).vfQ = s.vfQ ∧ (s.withStartNo v).ceSince = s.ceSince ∧
    (s.withStartNo v).ticks = s.ticks ∧ (s.withStartNo v).wbq = s.wbq ∧ (s.withStartNo v).merge = s.merge ∧
    (s.withStartNo v).scrub = s.scrub ∧ (s.withStartNo v).halted = s.halted ∧ (s.withStartNo v).msix = s.msix ∧
    (s.withStartNo v).hostReads = s.hostReads ∧ (s.withStartNo v).hostTag = s.hostTag ∧ (s.withStartNo v).tiles = s.tiles ∧
    (s.withStartNo v).arrs = s.arrs ∧ (s.withStartNo v).thrs = s.thrs ∧ (s.withStartNo v).jobs = s.jobs ∧
    (s.withStartNo v).tags = s.tags ∧ (s.withStartNo v).tileSems = s.tileSems ∧ (s.withStartNo v).parts = s.parts ∧
    (s.withStartNo v).sems = s.sems ∧ (s.withStartNo v).evts = s.evts ∧ (s.withStartNo v).decks = s.decks ∧
    (s.withStartNo v).execs = s.execs ∧ (s.withStartNo v).suspNo = s.suspNo ∧ (s.withStartNo v).pinHeld = s.pinHeld ∧
    (s.withStartNo v).dropLater = s.dropLater ∧ (s.withStartNo v).allocAt = s.allocAt ∧ (s.withStartNo v).chans = s.chans ∧
    (s.withStartNo v).thapWait = s.thapWait ∧ (s.withStartNo v).stepNo = s.stepNo ∧ (s.withStartNo v).attn = s.attn ∧
    (s.withStartNo v).accts = s.accts ∧ (s.withStartNo v).mons = s.mons ∧ (s.withStartNo v).margin = s.margin ∧
    (s.withStartNo v).ports = s.ports ∧ (s.withStartNo v).probes = s.probes ∧ (s.withStartNo v).cruiseAt = s.cruiseAt ∧
    (s.withStartNo v).routeImage = s.routeImage ∧ (s.withStartNo v).inbox = s.inbox ∧
    (s.withStartNo v).sendCtx = s.sendCtx ∧ (s.withStartNo v).recvCtx = s.recvCtx ∧
    (s.withStartNo v).streamNo = s.streamNo ∧ (s.withStartNo v).syncAt = s.syncAt ∧ (s.withStartNo v).tree = s.tree ∧
    (s.withStartNo v).img = s.img ∧ (s.withStartNo v).fuses = s.fuses ∧ (s.withStartNo v).boot = s.boot ∧
    (s.withStartNo v).owner = s.owner ∧ (s.withStartNo v).power = s.power ∧ (s.withStartNo v).pkg = s.pkg ∧
    (s.withStartNo v).mgmt = s.mgmt := by
  and_intros <;> rfl

@[simp] theorem State.withSuspNo_suspNo (v : Nat) : (s.withSuspNo v).suspNo = v := rfl

/-- `State.withSuspNo` writes `suspNo` alone. -/
@[simp] theorem State.withSuspNo_frame (v : Nat) :
    (s.withSuspNo v).pending = s.pending ∧ (s.withSuspNo v).time = s.time ∧ (s.withSuspNo v).calendar = s.calendar ∧
    (s.withSuspNo v).calPhase = s.calPhase ∧ (s.withSuspNo v).slew = s.slew ∧ (s.withSuspNo v).stepped = s.stepped ∧
    (s.withSuspNo v).deckEver = s.deckEver ∧ (s.withSuspNo v).free = s.free ∧ (s.withSuspNo v).regs = s.regs ∧
    (s.withSuspNo v).halfW = s.halfW ∧ (s.withSuspNo v).halfR = s.halfR ∧ (s.withSuspNo v).sealWide = s.sealWide ∧
    (s.withSuspNo v).sealParts = s.sealParts ∧ (s.withSuspNo v).mem = s.mem ∧ (s.withSuspNo v).chk = s.chk ∧
    (s.withSuspNo v).prot = s.prot ∧ (s.withSuspNo v).rsp = s.rsp ∧ (s.withSuspNo v).errQ = s.errQ ∧
    (s.withSuspNo v).recCount = s.recCount ∧ (s.withSuspNo v).vfQ = s.vfQ ∧ (s.withSuspNo v).ceSince = s.ceSince ∧
    (s.withSuspNo v).ticks = s.ticks ∧ (s.withSuspNo v).wbq = s.wbq ∧ (s.withSuspNo v).merge = s.merge ∧
    (s.withSuspNo v).scrub = s.scrub ∧ (s.withSuspNo v).halted = s.halted ∧ (s.withSuspNo v).msix = s.msix ∧
    (s.withSuspNo v).hostReads = s.hostReads ∧ (s.withSuspNo v).hostTag = s.hostTag ∧ (s.withSuspNo v).tiles = s.tiles ∧
    (s.withSuspNo v).arrs = s.arrs ∧ (s.withSuspNo v).thrs = s.thrs ∧ (s.withSuspNo v).jobs = s.jobs ∧
    (s.withSuspNo v).tags = s.tags ∧ (s.withSuspNo v).tileSems = s.tileSems ∧ (s.withSuspNo v).parts = s.parts ∧
    (s.withSuspNo v).sems = s.sems ∧ (s.withSuspNo v).evts = s.evts ∧ (s.withSuspNo v).decks = s.decks ∧
    (s.withSuspNo v).execs = s.execs ∧ (s.withSuspNo v).startNo = s.startNo ∧ (s.withSuspNo v).pinHeld = s.pinHeld ∧
    (s.withSuspNo v).dropLater = s.dropLater ∧ (s.withSuspNo v).allocAt = s.allocAt ∧ (s.withSuspNo v).chans = s.chans ∧
    (s.withSuspNo v).thapWait = s.thapWait ∧ (s.withSuspNo v).stepNo = s.stepNo ∧ (s.withSuspNo v).attn = s.attn ∧
    (s.withSuspNo v).accts = s.accts ∧ (s.withSuspNo v).mons = s.mons ∧ (s.withSuspNo v).margin = s.margin ∧
    (s.withSuspNo v).ports = s.ports ∧ (s.withSuspNo v).probes = s.probes ∧ (s.withSuspNo v).cruiseAt = s.cruiseAt ∧
    (s.withSuspNo v).routeImage = s.routeImage ∧ (s.withSuspNo v).inbox = s.inbox ∧ (s.withSuspNo v).sendCtx = s.sendCtx ∧
    (s.withSuspNo v).recvCtx = s.recvCtx ∧ (s.withSuspNo v).streamNo = s.streamNo ∧ (s.withSuspNo v).syncAt = s.syncAt ∧
    (s.withSuspNo v).tree = s.tree ∧ (s.withSuspNo v).img = s.img ∧ (s.withSuspNo v).fuses = s.fuses ∧
    (s.withSuspNo v).boot = s.boot ∧ (s.withSuspNo v).owner = s.owner ∧ (s.withSuspNo v).power = s.power ∧
    (s.withSuspNo v).pkg = s.pkg ∧ (s.withSuspNo v).mgmt = s.mgmt := by
  and_intros <;> rfl

@[simp] theorem State.withPinHeld_pinHeld (v : List (Nat × Nat)) : (s.withPinHeld v).pinHeld = v := rfl

/-- `State.withPinHeld` writes `pinHeld` alone. -/
@[simp] theorem State.withPinHeld_frame (v : List (Nat × Nat)) :
    (s.withPinHeld v).pending = s.pending ∧ (s.withPinHeld v).time = s.time ∧ (s.withPinHeld v).calendar = s.calendar ∧
    (s.withPinHeld v).calPhase = s.calPhase ∧ (s.withPinHeld v).slew = s.slew ∧ (s.withPinHeld v).stepped = s.stepped ∧
    (s.withPinHeld v).deckEver = s.deckEver ∧ (s.withPinHeld v).free = s.free ∧ (s.withPinHeld v).regs = s.regs ∧
    (s.withPinHeld v).halfW = s.halfW ∧ (s.withPinHeld v).halfR = s.halfR ∧ (s.withPinHeld v).sealWide = s.sealWide ∧
    (s.withPinHeld v).sealParts = s.sealParts ∧ (s.withPinHeld v).mem = s.mem ∧ (s.withPinHeld v).chk = s.chk ∧
    (s.withPinHeld v).prot = s.prot ∧ (s.withPinHeld v).rsp = s.rsp ∧ (s.withPinHeld v).errQ = s.errQ ∧
    (s.withPinHeld v).recCount = s.recCount ∧ (s.withPinHeld v).vfQ = s.vfQ ∧ (s.withPinHeld v).ceSince = s.ceSince ∧
    (s.withPinHeld v).ticks = s.ticks ∧ (s.withPinHeld v).wbq = s.wbq ∧ (s.withPinHeld v).merge = s.merge ∧
    (s.withPinHeld v).scrub = s.scrub ∧ (s.withPinHeld v).halted = s.halted ∧ (s.withPinHeld v).msix = s.msix ∧
    (s.withPinHeld v).hostReads = s.hostReads ∧ (s.withPinHeld v).hostTag = s.hostTag ∧ (s.withPinHeld v).tiles = s.tiles ∧
    (s.withPinHeld v).arrs = s.arrs ∧ (s.withPinHeld v).thrs = s.thrs ∧ (s.withPinHeld v).jobs = s.jobs ∧
    (s.withPinHeld v).tags = s.tags ∧ (s.withPinHeld v).tileSems = s.tileSems ∧ (s.withPinHeld v).parts = s.parts ∧
    (s.withPinHeld v).sems = s.sems ∧ (s.withPinHeld v).evts = s.evts ∧ (s.withPinHeld v).decks = s.decks ∧
    (s.withPinHeld v).execs = s.execs ∧ (s.withPinHeld v).startNo = s.startNo ∧ (s.withPinHeld v).suspNo = s.suspNo ∧
    (s.withPinHeld v).dropLater = s.dropLater ∧ (s.withPinHeld v).allocAt = s.allocAt ∧ (s.withPinHeld v).chans = s.chans ∧
    (s.withPinHeld v).thapWait = s.thapWait ∧ (s.withPinHeld v).stepNo = s.stepNo ∧ (s.withPinHeld v).attn = s.attn ∧
    (s.withPinHeld v).accts = s.accts ∧ (s.withPinHeld v).mons = s.mons ∧ (s.withPinHeld v).margin = s.margin ∧
    (s.withPinHeld v).ports = s.ports ∧ (s.withPinHeld v).probes = s.probes ∧ (s.withPinHeld v).cruiseAt = s.cruiseAt ∧
    (s.withPinHeld v).routeImage = s.routeImage ∧ (s.withPinHeld v).inbox = s.inbox ∧
    (s.withPinHeld v).sendCtx = s.sendCtx ∧ (s.withPinHeld v).recvCtx = s.recvCtx ∧
    (s.withPinHeld v).streamNo = s.streamNo ∧ (s.withPinHeld v).syncAt = s.syncAt ∧ (s.withPinHeld v).tree = s.tree ∧
    (s.withPinHeld v).img = s.img ∧ (s.withPinHeld v).fuses = s.fuses ∧ (s.withPinHeld v).boot = s.boot ∧
    (s.withPinHeld v).owner = s.owner ∧ (s.withPinHeld v).power = s.power ∧ (s.withPinHeld v).pkg = s.pkg ∧
    (s.withPinHeld v).mgmt = s.mgmt := by
  and_intros <;> rfl

@[simp] theorem State.withDropLater_dropLater (v : List (Nat × Nat × Nat × Nat × Nat)) : (s.withDropLater v).dropLater = v := rfl

/-- `State.withDropLater` writes `dropLater` alone. -/
@[simp] theorem State.withDropLater_frame (v : List (Nat × Nat × Nat × Nat × Nat)) :
    (s.withDropLater v).pending = s.pending ∧ (s.withDropLater v).time = s.time ∧
    (s.withDropLater v).calendar = s.calendar ∧ (s.withDropLater v).calPhase = s.calPhase ∧
    (s.withDropLater v).slew = s.slew ∧ (s.withDropLater v).stepped = s.stepped ∧
    (s.withDropLater v).deckEver = s.deckEver ∧ (s.withDropLater v).free = s.free ∧ (s.withDropLater v).regs = s.regs ∧
    (s.withDropLater v).halfW = s.halfW ∧ (s.withDropLater v).halfR = s.halfR ∧ (s.withDropLater v).sealWide = s.sealWide ∧
    (s.withDropLater v).sealParts = s.sealParts ∧ (s.withDropLater v).mem = s.mem ∧ (s.withDropLater v).chk = s.chk ∧
    (s.withDropLater v).prot = s.prot ∧ (s.withDropLater v).rsp = s.rsp ∧ (s.withDropLater v).errQ = s.errQ ∧
    (s.withDropLater v).recCount = s.recCount ∧ (s.withDropLater v).vfQ = s.vfQ ∧ (s.withDropLater v).ceSince = s.ceSince ∧
    (s.withDropLater v).ticks = s.ticks ∧ (s.withDropLater v).wbq = s.wbq ∧ (s.withDropLater v).merge = s.merge ∧
    (s.withDropLater v).scrub = s.scrub ∧ (s.withDropLater v).halted = s.halted ∧ (s.withDropLater v).msix = s.msix ∧
    (s.withDropLater v).hostReads = s.hostReads ∧ (s.withDropLater v).hostTag = s.hostTag ∧
    (s.withDropLater v).tiles = s.tiles ∧ (s.withDropLater v).arrs = s.arrs ∧ (s.withDropLater v).thrs = s.thrs ∧
    (s.withDropLater v).jobs = s.jobs ∧ (s.withDropLater v).tags = s.tags ∧ (s.withDropLater v).tileSems = s.tileSems ∧
    (s.withDropLater v).parts = s.parts ∧ (s.withDropLater v).sems = s.sems ∧ (s.withDropLater v).evts = s.evts ∧
    (s.withDropLater v).decks = s.decks ∧ (s.withDropLater v).execs = s.execs ∧ (s.withDropLater v).startNo = s.startNo ∧
    (s.withDropLater v).suspNo = s.suspNo ∧ (s.withDropLater v).pinHeld = s.pinHeld ∧
    (s.withDropLater v).allocAt = s.allocAt ∧ (s.withDropLater v).chans = s.chans ∧
    (s.withDropLater v).thapWait = s.thapWait ∧ (s.withDropLater v).stepNo = s.stepNo ∧ (s.withDropLater v).attn = s.attn ∧
    (s.withDropLater v).accts = s.accts ∧ (s.withDropLater v).mons = s.mons ∧ (s.withDropLater v).margin = s.margin ∧
    (s.withDropLater v).ports = s.ports ∧ (s.withDropLater v).probes = s.probes ∧
    (s.withDropLater v).cruiseAt = s.cruiseAt ∧ (s.withDropLater v).routeImage = s.routeImage ∧
    (s.withDropLater v).inbox = s.inbox ∧ (s.withDropLater v).sendCtx = s.sendCtx ∧
    (s.withDropLater v).recvCtx = s.recvCtx ∧ (s.withDropLater v).streamNo = s.streamNo ∧
    (s.withDropLater v).syncAt = s.syncAt ∧ (s.withDropLater v).tree = s.tree ∧ (s.withDropLater v).img = s.img ∧
    (s.withDropLater v).fuses = s.fuses ∧ (s.withDropLater v).boot = s.boot ∧ (s.withDropLater v).owner = s.owner ∧
    (s.withDropLater v).power = s.power ∧ (s.withDropLater v).pkg = s.pkg ∧ (s.withDropLater v).mgmt = s.mgmt := by
  and_intros <;> rfl

@[simp] theorem State.withAllocAt_allocAt (v : Tbl Nat) : (s.withAllocAt v).allocAt = v := rfl

/-- `State.withAllocAt` writes `allocAt` alone. -/
@[simp] theorem State.withAllocAt_frame (v : Tbl Nat) :
    (s.withAllocAt v).pending = s.pending ∧ (s.withAllocAt v).time = s.time ∧ (s.withAllocAt v).calendar = s.calendar ∧
    (s.withAllocAt v).calPhase = s.calPhase ∧ (s.withAllocAt v).slew = s.slew ∧ (s.withAllocAt v).stepped = s.stepped ∧
    (s.withAllocAt v).deckEver = s.deckEver ∧ (s.withAllocAt v).free = s.free ∧ (s.withAllocAt v).regs = s.regs ∧
    (s.withAllocAt v).halfW = s.halfW ∧ (s.withAllocAt v).halfR = s.halfR ∧ (s.withAllocAt v).sealWide = s.sealWide ∧
    (s.withAllocAt v).sealParts = s.sealParts ∧ (s.withAllocAt v).mem = s.mem ∧ (s.withAllocAt v).chk = s.chk ∧
    (s.withAllocAt v).prot = s.prot ∧ (s.withAllocAt v).rsp = s.rsp ∧ (s.withAllocAt v).errQ = s.errQ ∧
    (s.withAllocAt v).recCount = s.recCount ∧ (s.withAllocAt v).vfQ = s.vfQ ∧ (s.withAllocAt v).ceSince = s.ceSince ∧
    (s.withAllocAt v).ticks = s.ticks ∧ (s.withAllocAt v).wbq = s.wbq ∧ (s.withAllocAt v).merge = s.merge ∧
    (s.withAllocAt v).scrub = s.scrub ∧ (s.withAllocAt v).halted = s.halted ∧ (s.withAllocAt v).msix = s.msix ∧
    (s.withAllocAt v).hostReads = s.hostReads ∧ (s.withAllocAt v).hostTag = s.hostTag ∧ (s.withAllocAt v).tiles = s.tiles ∧
    (s.withAllocAt v).arrs = s.arrs ∧ (s.withAllocAt v).thrs = s.thrs ∧ (s.withAllocAt v).jobs = s.jobs ∧
    (s.withAllocAt v).tags = s.tags ∧ (s.withAllocAt v).tileSems = s.tileSems ∧ (s.withAllocAt v).parts = s.parts ∧
    (s.withAllocAt v).sems = s.sems ∧ (s.withAllocAt v).evts = s.evts ∧ (s.withAllocAt v).decks = s.decks ∧
    (s.withAllocAt v).execs = s.execs ∧ (s.withAllocAt v).startNo = s.startNo ∧ (s.withAllocAt v).suspNo = s.suspNo ∧
    (s.withAllocAt v).pinHeld = s.pinHeld ∧ (s.withAllocAt v).dropLater = s.dropLater ∧ (s.withAllocAt v).chans = s.chans ∧
    (s.withAllocAt v).thapWait = s.thapWait ∧ (s.withAllocAt v).stepNo = s.stepNo ∧ (s.withAllocAt v).attn = s.attn ∧
    (s.withAllocAt v).accts = s.accts ∧ (s.withAllocAt v).mons = s.mons ∧ (s.withAllocAt v).margin = s.margin ∧
    (s.withAllocAt v).ports = s.ports ∧ (s.withAllocAt v).probes = s.probes ∧ (s.withAllocAt v).cruiseAt = s.cruiseAt ∧
    (s.withAllocAt v).routeImage = s.routeImage ∧ (s.withAllocAt v).inbox = s.inbox ∧
    (s.withAllocAt v).sendCtx = s.sendCtx ∧ (s.withAllocAt v).recvCtx = s.recvCtx ∧
    (s.withAllocAt v).streamNo = s.streamNo ∧ (s.withAllocAt v).syncAt = s.syncAt ∧ (s.withAllocAt v).tree = s.tree ∧
    (s.withAllocAt v).img = s.img ∧ (s.withAllocAt v).fuses = s.fuses ∧ (s.withAllocAt v).boot = s.boot ∧
    (s.withAllocAt v).owner = s.owner ∧ (s.withAllocAt v).power = s.power ∧ (s.withAllocAt v).pkg = s.pkg ∧
    (s.withAllocAt v).mgmt = s.mgmt := by
  and_intros <;> rfl

@[simp] theorem State.withChans_chans (v : Tbl Chan) : (s.withChans v).chans = v := rfl

/-- `State.withChans` writes `chans` alone. -/
@[simp] theorem State.withChans_frame (v : Tbl Chan) :
    (s.withChans v).pending = s.pending ∧ (s.withChans v).time = s.time ∧ (s.withChans v).calendar = s.calendar ∧
    (s.withChans v).calPhase = s.calPhase ∧ (s.withChans v).slew = s.slew ∧ (s.withChans v).stepped = s.stepped ∧
    (s.withChans v).deckEver = s.deckEver ∧ (s.withChans v).free = s.free ∧ (s.withChans v).regs = s.regs ∧
    (s.withChans v).halfW = s.halfW ∧ (s.withChans v).halfR = s.halfR ∧ (s.withChans v).sealWide = s.sealWide ∧
    (s.withChans v).sealParts = s.sealParts ∧ (s.withChans v).mem = s.mem ∧ (s.withChans v).chk = s.chk ∧
    (s.withChans v).prot = s.prot ∧ (s.withChans v).rsp = s.rsp ∧ (s.withChans v).errQ = s.errQ ∧
    (s.withChans v).recCount = s.recCount ∧ (s.withChans v).vfQ = s.vfQ ∧ (s.withChans v).ceSince = s.ceSince ∧
    (s.withChans v).ticks = s.ticks ∧ (s.withChans v).wbq = s.wbq ∧ (s.withChans v).merge = s.merge ∧
    (s.withChans v).scrub = s.scrub ∧ (s.withChans v).halted = s.halted ∧ (s.withChans v).msix = s.msix ∧
    (s.withChans v).hostReads = s.hostReads ∧ (s.withChans v).hostTag = s.hostTag ∧ (s.withChans v).tiles = s.tiles ∧
    (s.withChans v).arrs = s.arrs ∧ (s.withChans v).thrs = s.thrs ∧ (s.withChans v).jobs = s.jobs ∧
    (s.withChans v).tags = s.tags ∧ (s.withChans v).tileSems = s.tileSems ∧ (s.withChans v).parts = s.parts ∧
    (s.withChans v).sems = s.sems ∧ (s.withChans v).evts = s.evts ∧ (s.withChans v).decks = s.decks ∧
    (s.withChans v).execs = s.execs ∧ (s.withChans v).startNo = s.startNo ∧ (s.withChans v).suspNo = s.suspNo ∧
    (s.withChans v).pinHeld = s.pinHeld ∧ (s.withChans v).dropLater = s.dropLater ∧ (s.withChans v).allocAt = s.allocAt ∧
    (s.withChans v).thapWait = s.thapWait ∧ (s.withChans v).stepNo = s.stepNo ∧ (s.withChans v).attn = s.attn ∧
    (s.withChans v).accts = s.accts ∧ (s.withChans v).mons = s.mons ∧ (s.withChans v).margin = s.margin ∧
    (s.withChans v).ports = s.ports ∧ (s.withChans v).probes = s.probes ∧ (s.withChans v).cruiseAt = s.cruiseAt ∧
    (s.withChans v).routeImage = s.routeImage ∧ (s.withChans v).inbox = s.inbox ∧ (s.withChans v).sendCtx = s.sendCtx ∧
    (s.withChans v).recvCtx = s.recvCtx ∧ (s.withChans v).streamNo = s.streamNo ∧ (s.withChans v).syncAt = s.syncAt ∧
    (s.withChans v).tree = s.tree ∧ (s.withChans v).img = s.img ∧ (s.withChans v).fuses = s.fuses ∧
    (s.withChans v).boot = s.boot ∧ (s.withChans v).owner = s.owner ∧ (s.withChans v).power = s.power ∧
    (s.withChans v).pkg = s.pkg ∧ (s.withChans v).mgmt = s.mgmt := by
  and_intros <;> rfl

@[simp] theorem State.withThapWait_thapWait (v : List Step) : (s.withThapWait v).thapWait = v := rfl

/-- `State.withThapWait` writes `thapWait` alone. -/
@[simp] theorem State.withThapWait_frame (v : List Step) :
    (s.withThapWait v).pending = s.pending ∧ (s.withThapWait v).time = s.time ∧ (s.withThapWait v).calendar = s.calendar ∧
    (s.withThapWait v).calPhase = s.calPhase ∧ (s.withThapWait v).slew = s.slew ∧ (s.withThapWait v).stepped = s.stepped ∧
    (s.withThapWait v).deckEver = s.deckEver ∧ (s.withThapWait v).free = s.free ∧ (s.withThapWait v).regs = s.regs ∧
    (s.withThapWait v).halfW = s.halfW ∧ (s.withThapWait v).halfR = s.halfR ∧ (s.withThapWait v).sealWide = s.sealWide ∧
    (s.withThapWait v).sealParts = s.sealParts ∧ (s.withThapWait v).mem = s.mem ∧ (s.withThapWait v).chk = s.chk ∧
    (s.withThapWait v).prot = s.prot ∧ (s.withThapWait v).rsp = s.rsp ∧ (s.withThapWait v).errQ = s.errQ ∧
    (s.withThapWait v).recCount = s.recCount ∧ (s.withThapWait v).vfQ = s.vfQ ∧ (s.withThapWait v).ceSince = s.ceSince ∧
    (s.withThapWait v).ticks = s.ticks ∧ (s.withThapWait v).wbq = s.wbq ∧ (s.withThapWait v).merge = s.merge ∧
    (s.withThapWait v).scrub = s.scrub ∧ (s.withThapWait v).halted = s.halted ∧ (s.withThapWait v).msix = s.msix ∧
    (s.withThapWait v).hostReads = s.hostReads ∧ (s.withThapWait v).hostTag = s.hostTag ∧
    (s.withThapWait v).tiles = s.tiles ∧ (s.withThapWait v).arrs = s.arrs ∧ (s.withThapWait v).thrs = s.thrs ∧
    (s.withThapWait v).jobs = s.jobs ∧ (s.withThapWait v).tags = s.tags ∧ (s.withThapWait v).tileSems = s.tileSems ∧
    (s.withThapWait v).parts = s.parts ∧ (s.withThapWait v).sems = s.sems ∧ (s.withThapWait v).evts = s.evts ∧
    (s.withThapWait v).decks = s.decks ∧ (s.withThapWait v).execs = s.execs ∧ (s.withThapWait v).startNo = s.startNo ∧
    (s.withThapWait v).suspNo = s.suspNo ∧ (s.withThapWait v).pinHeld = s.pinHeld ∧
    (s.withThapWait v).dropLater = s.dropLater ∧ (s.withThapWait v).allocAt = s.allocAt ∧
    (s.withThapWait v).chans = s.chans ∧ (s.withThapWait v).stepNo = s.stepNo ∧ (s.withThapWait v).attn = s.attn ∧
    (s.withThapWait v).accts = s.accts ∧ (s.withThapWait v).mons = s.mons ∧ (s.withThapWait v).margin = s.margin ∧
    (s.withThapWait v).ports = s.ports ∧ (s.withThapWait v).probes = s.probes ∧ (s.withThapWait v).cruiseAt = s.cruiseAt ∧
    (s.withThapWait v).routeImage = s.routeImage ∧ (s.withThapWait v).inbox = s.inbox ∧
    (s.withThapWait v).sendCtx = s.sendCtx ∧ (s.withThapWait v).recvCtx = s.recvCtx ∧
    (s.withThapWait v).streamNo = s.streamNo ∧ (s.withThapWait v).syncAt = s.syncAt ∧ (s.withThapWait v).tree = s.tree ∧
    (s.withThapWait v).img = s.img ∧ (s.withThapWait v).fuses = s.fuses ∧ (s.withThapWait v).boot = s.boot ∧
    (s.withThapWait v).owner = s.owner ∧ (s.withThapWait v).power = s.power ∧ (s.withThapWait v).pkg = s.pkg ∧
    (s.withThapWait v).mgmt = s.mgmt := by
  and_intros <;> rfl

@[simp] theorem State.withStepNo_stepNo (v : Nat) : (s.withStepNo v).stepNo = v := rfl

/-- `State.withStepNo` writes `stepNo` alone. -/
@[simp] theorem State.withStepNo_frame (v : Nat) :
    (s.withStepNo v).pending = s.pending ∧ (s.withStepNo v).time = s.time ∧ (s.withStepNo v).calendar = s.calendar ∧
    (s.withStepNo v).calPhase = s.calPhase ∧ (s.withStepNo v).slew = s.slew ∧ (s.withStepNo v).stepped = s.stepped ∧
    (s.withStepNo v).deckEver = s.deckEver ∧ (s.withStepNo v).free = s.free ∧ (s.withStepNo v).regs = s.regs ∧
    (s.withStepNo v).halfW = s.halfW ∧ (s.withStepNo v).halfR = s.halfR ∧ (s.withStepNo v).sealWide = s.sealWide ∧
    (s.withStepNo v).sealParts = s.sealParts ∧ (s.withStepNo v).mem = s.mem ∧ (s.withStepNo v).chk = s.chk ∧
    (s.withStepNo v).prot = s.prot ∧ (s.withStepNo v).rsp = s.rsp ∧ (s.withStepNo v).errQ = s.errQ ∧
    (s.withStepNo v).recCount = s.recCount ∧ (s.withStepNo v).vfQ = s.vfQ ∧ (s.withStepNo v).ceSince = s.ceSince ∧
    (s.withStepNo v).ticks = s.ticks ∧ (s.withStepNo v).wbq = s.wbq ∧ (s.withStepNo v).merge = s.merge ∧
    (s.withStepNo v).scrub = s.scrub ∧ (s.withStepNo v).halted = s.halted ∧ (s.withStepNo v).msix = s.msix ∧
    (s.withStepNo v).hostReads = s.hostReads ∧ (s.withStepNo v).hostTag = s.hostTag ∧ (s.withStepNo v).tiles = s.tiles ∧
    (s.withStepNo v).arrs = s.arrs ∧ (s.withStepNo v).thrs = s.thrs ∧ (s.withStepNo v).jobs = s.jobs ∧
    (s.withStepNo v).tags = s.tags ∧ (s.withStepNo v).tileSems = s.tileSems ∧ (s.withStepNo v).parts = s.parts ∧
    (s.withStepNo v).sems = s.sems ∧ (s.withStepNo v).evts = s.evts ∧ (s.withStepNo v).decks = s.decks ∧
    (s.withStepNo v).execs = s.execs ∧ (s.withStepNo v).startNo = s.startNo ∧ (s.withStepNo v).suspNo = s.suspNo ∧
    (s.withStepNo v).pinHeld = s.pinHeld ∧ (s.withStepNo v).dropLater = s.dropLater ∧
    (s.withStepNo v).allocAt = s.allocAt ∧ (s.withStepNo v).chans = s.chans ∧ (s.withStepNo v).thapWait = s.thapWait ∧
    (s.withStepNo v).attn = s.attn ∧ (s.withStepNo v).accts = s.accts ∧ (s.withStepNo v).mons = s.mons ∧
    (s.withStepNo v).margin = s.margin ∧ (s.withStepNo v).ports = s.ports ∧ (s.withStepNo v).probes = s.probes ∧
    (s.withStepNo v).cruiseAt = s.cruiseAt ∧ (s.withStepNo v).routeImage = s.routeImage ∧
    (s.withStepNo v).inbox = s.inbox ∧ (s.withStepNo v).sendCtx = s.sendCtx ∧ (s.withStepNo v).recvCtx = s.recvCtx ∧
    (s.withStepNo v).streamNo = s.streamNo ∧ (s.withStepNo v).syncAt = s.syncAt ∧ (s.withStepNo v).tree = s.tree ∧
    (s.withStepNo v).img = s.img ∧ (s.withStepNo v).fuses = s.fuses ∧ (s.withStepNo v).boot = s.boot ∧
    (s.withStepNo v).owner = s.owner ∧ (s.withStepNo v).power = s.power ∧ (s.withStepNo v).pkg = s.pkg ∧
    (s.withStepNo v).mgmt = s.mgmt := by
  and_intros <;> rfl

@[simp] theorem State.withAttn_attn (v : Tbl (List AttnPart)) : (s.withAttn v).attn = v := rfl

/-- `State.withAttn` writes `attn` alone. -/
@[simp] theorem State.withAttn_frame (v : Tbl (List AttnPart)) :
    (s.withAttn v).pending = s.pending ∧ (s.withAttn v).time = s.time ∧ (s.withAttn v).calendar = s.calendar ∧
    (s.withAttn v).calPhase = s.calPhase ∧ (s.withAttn v).slew = s.slew ∧ (s.withAttn v).stepped = s.stepped ∧
    (s.withAttn v).deckEver = s.deckEver ∧ (s.withAttn v).free = s.free ∧ (s.withAttn v).regs = s.regs ∧
    (s.withAttn v).halfW = s.halfW ∧ (s.withAttn v).halfR = s.halfR ∧ (s.withAttn v).sealWide = s.sealWide ∧
    (s.withAttn v).sealParts = s.sealParts ∧ (s.withAttn v).mem = s.mem ∧ (s.withAttn v).chk = s.chk ∧
    (s.withAttn v).prot = s.prot ∧ (s.withAttn v).rsp = s.rsp ∧ (s.withAttn v).errQ = s.errQ ∧
    (s.withAttn v).recCount = s.recCount ∧ (s.withAttn v).vfQ = s.vfQ ∧ (s.withAttn v).ceSince = s.ceSince ∧
    (s.withAttn v).ticks = s.ticks ∧ (s.withAttn v).wbq = s.wbq ∧ (s.withAttn v).merge = s.merge ∧
    (s.withAttn v).scrub = s.scrub ∧ (s.withAttn v).halted = s.halted ∧ (s.withAttn v).msix = s.msix ∧
    (s.withAttn v).hostReads = s.hostReads ∧ (s.withAttn v).hostTag = s.hostTag ∧ (s.withAttn v).tiles = s.tiles ∧
    (s.withAttn v).arrs = s.arrs ∧ (s.withAttn v).thrs = s.thrs ∧ (s.withAttn v).jobs = s.jobs ∧
    (s.withAttn v).tags = s.tags ∧ (s.withAttn v).tileSems = s.tileSems ∧ (s.withAttn v).parts = s.parts ∧
    (s.withAttn v).sems = s.sems ∧ (s.withAttn v).evts = s.evts ∧ (s.withAttn v).decks = s.decks ∧
    (s.withAttn v).execs = s.execs ∧ (s.withAttn v).startNo = s.startNo ∧ (s.withAttn v).suspNo = s.suspNo ∧
    (s.withAttn v).pinHeld = s.pinHeld ∧ (s.withAttn v).dropLater = s.dropLater ∧ (s.withAttn v).allocAt = s.allocAt ∧
    (s.withAttn v).chans = s.chans ∧ (s.withAttn v).thapWait = s.thapWait ∧ (s.withAttn v).stepNo = s.stepNo ∧
    (s.withAttn v).accts = s.accts ∧ (s.withAttn v).mons = s.mons ∧ (s.withAttn v).margin = s.margin ∧
    (s.withAttn v).ports = s.ports ∧ (s.withAttn v).probes = s.probes ∧ (s.withAttn v).cruiseAt = s.cruiseAt ∧
    (s.withAttn v).routeImage = s.routeImage ∧ (s.withAttn v).inbox = s.inbox ∧ (s.withAttn v).sendCtx = s.sendCtx ∧
    (s.withAttn v).recvCtx = s.recvCtx ∧ (s.withAttn v).streamNo = s.streamNo ∧ (s.withAttn v).syncAt = s.syncAt ∧
    (s.withAttn v).tree = s.tree ∧ (s.withAttn v).img = s.img ∧ (s.withAttn v).fuses = s.fuses ∧
    (s.withAttn v).boot = s.boot ∧ (s.withAttn v).owner = s.owner ∧ (s.withAttn v).power = s.power ∧
    (s.withAttn v).pkg = s.pkg ∧ (s.withAttn v).mgmt = s.mgmt := by
  and_intros <;> rfl

@[simp] theorem State.withMons_mons (v : Tbl (List Nat)) : (s.withMons v).mons = v := rfl

/-- `State.withMons` writes `mons` alone. -/
@[simp] theorem State.withMons_frame (v : Tbl (List Nat)) :
    (s.withMons v).pending = s.pending ∧ (s.withMons v).time = s.time ∧ (s.withMons v).calendar = s.calendar ∧
    (s.withMons v).calPhase = s.calPhase ∧ (s.withMons v).slew = s.slew ∧ (s.withMons v).stepped = s.stepped ∧
    (s.withMons v).deckEver = s.deckEver ∧ (s.withMons v).free = s.free ∧ (s.withMons v).regs = s.regs ∧
    (s.withMons v).halfW = s.halfW ∧ (s.withMons v).halfR = s.halfR ∧ (s.withMons v).sealWide = s.sealWide ∧
    (s.withMons v).sealParts = s.sealParts ∧ (s.withMons v).mem = s.mem ∧ (s.withMons v).chk = s.chk ∧
    (s.withMons v).prot = s.prot ∧ (s.withMons v).rsp = s.rsp ∧ (s.withMons v).errQ = s.errQ ∧
    (s.withMons v).recCount = s.recCount ∧ (s.withMons v).vfQ = s.vfQ ∧ (s.withMons v).ceSince = s.ceSince ∧
    (s.withMons v).ticks = s.ticks ∧ (s.withMons v).wbq = s.wbq ∧ (s.withMons v).merge = s.merge ∧
    (s.withMons v).scrub = s.scrub ∧ (s.withMons v).halted = s.halted ∧ (s.withMons v).msix = s.msix ∧
    (s.withMons v).hostReads = s.hostReads ∧ (s.withMons v).hostTag = s.hostTag ∧ (s.withMons v).tiles = s.tiles ∧
    (s.withMons v).arrs = s.arrs ∧ (s.withMons v).thrs = s.thrs ∧ (s.withMons v).jobs = s.jobs ∧
    (s.withMons v).tags = s.tags ∧ (s.withMons v).tileSems = s.tileSems ∧ (s.withMons v).parts = s.parts ∧
    (s.withMons v).sems = s.sems ∧ (s.withMons v).evts = s.evts ∧ (s.withMons v).decks = s.decks ∧
    (s.withMons v).execs = s.execs ∧ (s.withMons v).startNo = s.startNo ∧ (s.withMons v).suspNo = s.suspNo ∧
    (s.withMons v).pinHeld = s.pinHeld ∧ (s.withMons v).dropLater = s.dropLater ∧ (s.withMons v).allocAt = s.allocAt ∧
    (s.withMons v).chans = s.chans ∧ (s.withMons v).thapWait = s.thapWait ∧ (s.withMons v).stepNo = s.stepNo ∧
    (s.withMons v).attn = s.attn ∧ (s.withMons v).accts = s.accts ∧ (s.withMons v).margin = s.margin ∧
    (s.withMons v).ports = s.ports ∧ (s.withMons v).probes = s.probes ∧ (s.withMons v).cruiseAt = s.cruiseAt ∧
    (s.withMons v).routeImage = s.routeImage ∧ (s.withMons v).inbox = s.inbox ∧ (s.withMons v).sendCtx = s.sendCtx ∧
    (s.withMons v).recvCtx = s.recvCtx ∧ (s.withMons v).streamNo = s.streamNo ∧ (s.withMons v).syncAt = s.syncAt ∧
    (s.withMons v).tree = s.tree ∧ (s.withMons v).img = s.img ∧ (s.withMons v).fuses = s.fuses ∧
    (s.withMons v).boot = s.boot ∧ (s.withMons v).owner = s.owner ∧ (s.withMons v).power = s.power ∧
    (s.withMons v).pkg = s.pkg ∧ (s.withMons v).mgmt = s.mgmt := by
  and_intros <;> rfl

@[simp] theorem State.withMargin_margin (v : Tbl Nat) : (s.withMargin v).margin = v := rfl

/-- `State.withMargin` writes `margin` alone. -/
@[simp] theorem State.withMargin_frame (v : Tbl Nat) :
    (s.withMargin v).pending = s.pending ∧ (s.withMargin v).time = s.time ∧ (s.withMargin v).calendar = s.calendar ∧
    (s.withMargin v).calPhase = s.calPhase ∧ (s.withMargin v).slew = s.slew ∧ (s.withMargin v).stepped = s.stepped ∧
    (s.withMargin v).deckEver = s.deckEver ∧ (s.withMargin v).free = s.free ∧ (s.withMargin v).regs = s.regs ∧
    (s.withMargin v).halfW = s.halfW ∧ (s.withMargin v).halfR = s.halfR ∧ (s.withMargin v).sealWide = s.sealWide ∧
    (s.withMargin v).sealParts = s.sealParts ∧ (s.withMargin v).mem = s.mem ∧ (s.withMargin v).chk = s.chk ∧
    (s.withMargin v).prot = s.prot ∧ (s.withMargin v).rsp = s.rsp ∧ (s.withMargin v).errQ = s.errQ ∧
    (s.withMargin v).recCount = s.recCount ∧ (s.withMargin v).vfQ = s.vfQ ∧ (s.withMargin v).ceSince = s.ceSince ∧
    (s.withMargin v).ticks = s.ticks ∧ (s.withMargin v).wbq = s.wbq ∧ (s.withMargin v).merge = s.merge ∧
    (s.withMargin v).scrub = s.scrub ∧ (s.withMargin v).halted = s.halted ∧ (s.withMargin v).msix = s.msix ∧
    (s.withMargin v).hostReads = s.hostReads ∧ (s.withMargin v).hostTag = s.hostTag ∧ (s.withMargin v).tiles = s.tiles ∧
    (s.withMargin v).arrs = s.arrs ∧ (s.withMargin v).thrs = s.thrs ∧ (s.withMargin v).jobs = s.jobs ∧
    (s.withMargin v).tags = s.tags ∧ (s.withMargin v).tileSems = s.tileSems ∧ (s.withMargin v).parts = s.parts ∧
    (s.withMargin v).sems = s.sems ∧ (s.withMargin v).evts = s.evts ∧ (s.withMargin v).decks = s.decks ∧
    (s.withMargin v).execs = s.execs ∧ (s.withMargin v).startNo = s.startNo ∧ (s.withMargin v).suspNo = s.suspNo ∧
    (s.withMargin v).pinHeld = s.pinHeld ∧ (s.withMargin v).dropLater = s.dropLater ∧
    (s.withMargin v).allocAt = s.allocAt ∧ (s.withMargin v).chans = s.chans ∧ (s.withMargin v).thapWait = s.thapWait ∧
    (s.withMargin v).stepNo = s.stepNo ∧ (s.withMargin v).attn = s.attn ∧ (s.withMargin v).accts = s.accts ∧
    (s.withMargin v).mons = s.mons ∧ (s.withMargin v).ports = s.ports ∧ (s.withMargin v).probes = s.probes ∧
    (s.withMargin v).cruiseAt = s.cruiseAt ∧ (s.withMargin v).routeImage = s.routeImage ∧
    (s.withMargin v).inbox = s.inbox ∧ (s.withMargin v).sendCtx = s.sendCtx ∧ (s.withMargin v).recvCtx = s.recvCtx ∧
    (s.withMargin v).streamNo = s.streamNo ∧ (s.withMargin v).syncAt = s.syncAt ∧ (s.withMargin v).tree = s.tree ∧
    (s.withMargin v).img = s.img ∧ (s.withMargin v).fuses = s.fuses ∧ (s.withMargin v).boot = s.boot ∧
    (s.withMargin v).owner = s.owner ∧ (s.withMargin v).power = s.power ∧ (s.withMargin v).pkg = s.pkg ∧
    (s.withMargin v).mgmt = s.mgmt := by
  and_intros <;> rfl

@[simp] theorem State.withProbes_probes (v : List ProbeSt) : (s.withProbes v).probes = v := rfl

/-- `State.withProbes` writes `probes` alone. -/
@[simp] theorem State.withProbes_frame (v : List ProbeSt) :
    (s.withProbes v).pending = s.pending ∧ (s.withProbes v).time = s.time ∧ (s.withProbes v).calendar = s.calendar ∧
    (s.withProbes v).calPhase = s.calPhase ∧ (s.withProbes v).slew = s.slew ∧ (s.withProbes v).stepped = s.stepped ∧
    (s.withProbes v).deckEver = s.deckEver ∧ (s.withProbes v).free = s.free ∧ (s.withProbes v).regs = s.regs ∧
    (s.withProbes v).halfW = s.halfW ∧ (s.withProbes v).halfR = s.halfR ∧ (s.withProbes v).sealWide = s.sealWide ∧
    (s.withProbes v).sealParts = s.sealParts ∧ (s.withProbes v).mem = s.mem ∧ (s.withProbes v).chk = s.chk ∧
    (s.withProbes v).prot = s.prot ∧ (s.withProbes v).rsp = s.rsp ∧ (s.withProbes v).errQ = s.errQ ∧
    (s.withProbes v).recCount = s.recCount ∧ (s.withProbes v).vfQ = s.vfQ ∧ (s.withProbes v).ceSince = s.ceSince ∧
    (s.withProbes v).ticks = s.ticks ∧ (s.withProbes v).wbq = s.wbq ∧ (s.withProbes v).merge = s.merge ∧
    (s.withProbes v).scrub = s.scrub ∧ (s.withProbes v).halted = s.halted ∧ (s.withProbes v).msix = s.msix ∧
    (s.withProbes v).hostReads = s.hostReads ∧ (s.withProbes v).hostTag = s.hostTag ∧ (s.withProbes v).tiles = s.tiles ∧
    (s.withProbes v).arrs = s.arrs ∧ (s.withProbes v).thrs = s.thrs ∧ (s.withProbes v).jobs = s.jobs ∧
    (s.withProbes v).tags = s.tags ∧ (s.withProbes v).tileSems = s.tileSems ∧ (s.withProbes v).parts = s.parts ∧
    (s.withProbes v).sems = s.sems ∧ (s.withProbes v).evts = s.evts ∧ (s.withProbes v).decks = s.decks ∧
    (s.withProbes v).execs = s.execs ∧ (s.withProbes v).startNo = s.startNo ∧ (s.withProbes v).suspNo = s.suspNo ∧
    (s.withProbes v).pinHeld = s.pinHeld ∧ (s.withProbes v).dropLater = s.dropLater ∧
    (s.withProbes v).allocAt = s.allocAt ∧ (s.withProbes v).chans = s.chans ∧ (s.withProbes v).thapWait = s.thapWait ∧
    (s.withProbes v).stepNo = s.stepNo ∧ (s.withProbes v).attn = s.attn ∧ (s.withProbes v).accts = s.accts ∧
    (s.withProbes v).mons = s.mons ∧ (s.withProbes v).margin = s.margin ∧ (s.withProbes v).ports = s.ports ∧
    (s.withProbes v).cruiseAt = s.cruiseAt ∧ (s.withProbes v).routeImage = s.routeImage ∧
    (s.withProbes v).inbox = s.inbox ∧ (s.withProbes v).sendCtx = s.sendCtx ∧ (s.withProbes v).recvCtx = s.recvCtx ∧
    (s.withProbes v).streamNo = s.streamNo ∧ (s.withProbes v).syncAt = s.syncAt ∧ (s.withProbes v).tree = s.tree ∧
    (s.withProbes v).img = s.img ∧ (s.withProbes v).fuses = s.fuses ∧ (s.withProbes v).boot = s.boot ∧
    (s.withProbes v).owner = s.owner ∧ (s.withProbes v).power = s.power ∧ (s.withProbes v).pkg = s.pkg ∧
    (s.withProbes v).mgmt = s.mgmt := by
  and_intros <;> rfl

@[simp] theorem State.withCruiseAt_cruiseAt (v : Option Nat) : (s.withCruiseAt v).cruiseAt = v := rfl

/-- `State.withCruiseAt` writes `cruiseAt` alone. -/
@[simp] theorem State.withCruiseAt_frame (v : Option Nat) :
    (s.withCruiseAt v).pending = s.pending ∧ (s.withCruiseAt v).time = s.time ∧ (s.withCruiseAt v).calendar = s.calendar ∧
    (s.withCruiseAt v).calPhase = s.calPhase ∧ (s.withCruiseAt v).slew = s.slew ∧ (s.withCruiseAt v).stepped = s.stepped ∧
    (s.withCruiseAt v).deckEver = s.deckEver ∧ (s.withCruiseAt v).free = s.free ∧ (s.withCruiseAt v).regs = s.regs ∧
    (s.withCruiseAt v).halfW = s.halfW ∧ (s.withCruiseAt v).halfR = s.halfR ∧ (s.withCruiseAt v).sealWide = s.sealWide ∧
    (s.withCruiseAt v).sealParts = s.sealParts ∧ (s.withCruiseAt v).mem = s.mem ∧ (s.withCruiseAt v).chk = s.chk ∧
    (s.withCruiseAt v).prot = s.prot ∧ (s.withCruiseAt v).rsp = s.rsp ∧ (s.withCruiseAt v).errQ = s.errQ ∧
    (s.withCruiseAt v).recCount = s.recCount ∧ (s.withCruiseAt v).vfQ = s.vfQ ∧ (s.withCruiseAt v).ceSince = s.ceSince ∧
    (s.withCruiseAt v).ticks = s.ticks ∧ (s.withCruiseAt v).wbq = s.wbq ∧ (s.withCruiseAt v).merge = s.merge ∧
    (s.withCruiseAt v).scrub = s.scrub ∧ (s.withCruiseAt v).halted = s.halted ∧ (s.withCruiseAt v).msix = s.msix ∧
    (s.withCruiseAt v).hostReads = s.hostReads ∧ (s.withCruiseAt v).hostTag = s.hostTag ∧
    (s.withCruiseAt v).tiles = s.tiles ∧ (s.withCruiseAt v).arrs = s.arrs ∧ (s.withCruiseAt v).thrs = s.thrs ∧
    (s.withCruiseAt v).jobs = s.jobs ∧ (s.withCruiseAt v).tags = s.tags ∧ (s.withCruiseAt v).tileSems = s.tileSems ∧
    (s.withCruiseAt v).parts = s.parts ∧ (s.withCruiseAt v).sems = s.sems ∧ (s.withCruiseAt v).evts = s.evts ∧
    (s.withCruiseAt v).decks = s.decks ∧ (s.withCruiseAt v).execs = s.execs ∧ (s.withCruiseAt v).startNo = s.startNo ∧
    (s.withCruiseAt v).suspNo = s.suspNo ∧ (s.withCruiseAt v).pinHeld = s.pinHeld ∧
    (s.withCruiseAt v).dropLater = s.dropLater ∧ (s.withCruiseAt v).allocAt = s.allocAt ∧
    (s.withCruiseAt v).chans = s.chans ∧ (s.withCruiseAt v).thapWait = s.thapWait ∧ (s.withCruiseAt v).stepNo = s.stepNo ∧
    (s.withCruiseAt v).attn = s.attn ∧ (s.withCruiseAt v).accts = s.accts ∧ (s.withCruiseAt v).mons = s.mons ∧
    (s.withCruiseAt v).margin = s.margin ∧ (s.withCruiseAt v).ports = s.ports ∧ (s.withCruiseAt v).probes = s.probes ∧
    (s.withCruiseAt v).routeImage = s.routeImage ∧ (s.withCruiseAt v).inbox = s.inbox ∧
    (s.withCruiseAt v).sendCtx = s.sendCtx ∧ (s.withCruiseAt v).recvCtx = s.recvCtx ∧
    (s.withCruiseAt v).streamNo = s.streamNo ∧ (s.withCruiseAt v).syncAt = s.syncAt ∧ (s.withCruiseAt v).tree = s.tree ∧
    (s.withCruiseAt v).img = s.img ∧ (s.withCruiseAt v).fuses = s.fuses ∧ (s.withCruiseAt v).boot = s.boot ∧
    (s.withCruiseAt v).owner = s.owner ∧ (s.withCruiseAt v).power = s.power ∧ (s.withCruiseAt v).pkg = s.pkg ∧
    (s.withCruiseAt v).mgmt = s.mgmt := by
  and_intros <;> rfl

@[simp] theorem State.withRouteImage_routeImage (v : Tbl Nat) : (s.withRouteImage v).routeImage = v := rfl

/-- `State.withRouteImage` writes `routeImage` alone. -/
@[simp] theorem State.withRouteImage_frame (v : Tbl Nat) :
    (s.withRouteImage v).pending = s.pending ∧ (s.withRouteImage v).time = s.time ∧
    (s.withRouteImage v).calendar = s.calendar ∧ (s.withRouteImage v).calPhase = s.calPhase ∧
    (s.withRouteImage v).slew = s.slew ∧ (s.withRouteImage v).stepped = s.stepped ∧
    (s.withRouteImage v).deckEver = s.deckEver ∧ (s.withRouteImage v).free = s.free ∧ (s.withRouteImage v).regs = s.regs ∧
    (s.withRouteImage v).halfW = s.halfW ∧ (s.withRouteImage v).halfR = s.halfR ∧
    (s.withRouteImage v).sealWide = s.sealWide ∧ (s.withRouteImage v).sealParts = s.sealParts ∧
    (s.withRouteImage v).mem = s.mem ∧ (s.withRouteImage v).chk = s.chk ∧ (s.withRouteImage v).prot = s.prot ∧
    (s.withRouteImage v).rsp = s.rsp ∧ (s.withRouteImage v).errQ = s.errQ ∧ (s.withRouteImage v).recCount = s.recCount ∧
    (s.withRouteImage v).vfQ = s.vfQ ∧ (s.withRouteImage v).ceSince = s.ceSince ∧ (s.withRouteImage v).ticks = s.ticks ∧
    (s.withRouteImage v).wbq = s.wbq ∧ (s.withRouteImage v).merge = s.merge ∧ (s.withRouteImage v).scrub = s.scrub ∧
    (s.withRouteImage v).halted = s.halted ∧ (s.withRouteImage v).msix = s.msix ∧
    (s.withRouteImage v).hostReads = s.hostReads ∧ (s.withRouteImage v).hostTag = s.hostTag ∧
    (s.withRouteImage v).tiles = s.tiles ∧ (s.withRouteImage v).arrs = s.arrs ∧ (s.withRouteImage v).thrs = s.thrs ∧
    (s.withRouteImage v).jobs = s.jobs ∧ (s.withRouteImage v).tags = s.tags ∧ (s.withRouteImage v).tileSems = s.tileSems ∧
    (s.withRouteImage v).parts = s.parts ∧ (s.withRouteImage v).sems = s.sems ∧ (s.withRouteImage v).evts = s.evts ∧
    (s.withRouteImage v).decks = s.decks ∧ (s.withRouteImage v).execs = s.execs ∧
    (s.withRouteImage v).startNo = s.startNo ∧ (s.withRouteImage v).suspNo = s.suspNo ∧
    (s.withRouteImage v).pinHeld = s.pinHeld ∧ (s.withRouteImage v).dropLater = s.dropLater ∧
    (s.withRouteImage v).allocAt = s.allocAt ∧ (s.withRouteImage v).chans = s.chans ∧
    (s.withRouteImage v).thapWait = s.thapWait ∧ (s.withRouteImage v).stepNo = s.stepNo ∧
    (s.withRouteImage v).attn = s.attn ∧ (s.withRouteImage v).accts = s.accts ∧ (s.withRouteImage v).mons = s.mons ∧
    (s.withRouteImage v).margin = s.margin ∧ (s.withRouteImage v).ports = s.ports ∧
    (s.withRouteImage v).probes = s.probes ∧ (s.withRouteImage v).cruiseAt = s.cruiseAt ∧
    (s.withRouteImage v).inbox = s.inbox ∧ (s.withRouteImage v).sendCtx = s.sendCtx ∧
    (s.withRouteImage v).recvCtx = s.recvCtx ∧ (s.withRouteImage v).streamNo = s.streamNo ∧
    (s.withRouteImage v).syncAt = s.syncAt ∧ (s.withRouteImage v).tree = s.tree ∧ (s.withRouteImage v).img = s.img ∧
    (s.withRouteImage v).fuses = s.fuses ∧ (s.withRouteImage v).boot = s.boot ∧ (s.withRouteImage v).owner = s.owner ∧
    (s.withRouteImage v).power = s.power ∧ (s.withRouteImage v).pkg = s.pkg ∧ (s.withRouteImage v).mgmt = s.mgmt := by
  and_intros <;> rfl

@[simp] theorem State.withInbox_inbox (v : List Msg) : (s.withInbox v).inbox = v := rfl

/-- `State.withInbox` writes `inbox` alone. -/
@[simp] theorem State.withInbox_frame (v : List Msg) :
    (s.withInbox v).pending = s.pending ∧ (s.withInbox v).time = s.time ∧ (s.withInbox v).calendar = s.calendar ∧
    (s.withInbox v).calPhase = s.calPhase ∧ (s.withInbox v).slew = s.slew ∧ (s.withInbox v).stepped = s.stepped ∧
    (s.withInbox v).deckEver = s.deckEver ∧ (s.withInbox v).free = s.free ∧ (s.withInbox v).regs = s.regs ∧
    (s.withInbox v).halfW = s.halfW ∧ (s.withInbox v).halfR = s.halfR ∧ (s.withInbox v).sealWide = s.sealWide ∧
    (s.withInbox v).sealParts = s.sealParts ∧ (s.withInbox v).mem = s.mem ∧ (s.withInbox v).chk = s.chk ∧
    (s.withInbox v).prot = s.prot ∧ (s.withInbox v).rsp = s.rsp ∧ (s.withInbox v).errQ = s.errQ ∧
    (s.withInbox v).recCount = s.recCount ∧ (s.withInbox v).vfQ = s.vfQ ∧ (s.withInbox v).ceSince = s.ceSince ∧
    (s.withInbox v).ticks = s.ticks ∧ (s.withInbox v).wbq = s.wbq ∧ (s.withInbox v).merge = s.merge ∧
    (s.withInbox v).scrub = s.scrub ∧ (s.withInbox v).halted = s.halted ∧ (s.withInbox v).msix = s.msix ∧
    (s.withInbox v).hostReads = s.hostReads ∧ (s.withInbox v).hostTag = s.hostTag ∧ (s.withInbox v).tiles = s.tiles ∧
    (s.withInbox v).arrs = s.arrs ∧ (s.withInbox v).thrs = s.thrs ∧ (s.withInbox v).jobs = s.jobs ∧
    (s.withInbox v).tags = s.tags ∧ (s.withInbox v).tileSems = s.tileSems ∧ (s.withInbox v).parts = s.parts ∧
    (s.withInbox v).sems = s.sems ∧ (s.withInbox v).evts = s.evts ∧ (s.withInbox v).decks = s.decks ∧
    (s.withInbox v).execs = s.execs ∧ (s.withInbox v).startNo = s.startNo ∧ (s.withInbox v).suspNo = s.suspNo ∧
    (s.withInbox v).pinHeld = s.pinHeld ∧ (s.withInbox v).dropLater = s.dropLater ∧ (s.withInbox v).allocAt = s.allocAt ∧
    (s.withInbox v).chans = s.chans ∧ (s.withInbox v).thapWait = s.thapWait ∧ (s.withInbox v).stepNo = s.stepNo ∧
    (s.withInbox v).attn = s.attn ∧ (s.withInbox v).accts = s.accts ∧ (s.withInbox v).mons = s.mons ∧
    (s.withInbox v).margin = s.margin ∧ (s.withInbox v).ports = s.ports ∧ (s.withInbox v).probes = s.probes ∧
    (s.withInbox v).cruiseAt = s.cruiseAt ∧ (s.withInbox v).routeImage = s.routeImage ∧
    (s.withInbox v).sendCtx = s.sendCtx ∧ (s.withInbox v).recvCtx = s.recvCtx ∧ (s.withInbox v).streamNo = s.streamNo ∧
    (s.withInbox v).syncAt = s.syncAt ∧ (s.withInbox v).tree = s.tree ∧ (s.withInbox v).img = s.img ∧
    (s.withInbox v).fuses = s.fuses ∧ (s.withInbox v).boot = s.boot ∧ (s.withInbox v).owner = s.owner ∧
    (s.withInbox v).power = s.power ∧ (s.withInbox v).pkg = s.pkg ∧ (s.withInbox v).mgmt = s.mgmt := by
  and_intros <;> rfl

@[simp] theorem State.withSendCtx_sendCtx (v : Tbl SendCtx) : (s.withSendCtx v).sendCtx = v := rfl

/-- `State.withSendCtx` writes `sendCtx` alone. -/
@[simp] theorem State.withSendCtx_frame (v : Tbl SendCtx) :
    (s.withSendCtx v).pending = s.pending ∧ (s.withSendCtx v).time = s.time ∧ (s.withSendCtx v).calendar = s.calendar ∧
    (s.withSendCtx v).calPhase = s.calPhase ∧ (s.withSendCtx v).slew = s.slew ∧ (s.withSendCtx v).stepped = s.stepped ∧
    (s.withSendCtx v).deckEver = s.deckEver ∧ (s.withSendCtx v).free = s.free ∧ (s.withSendCtx v).regs = s.regs ∧
    (s.withSendCtx v).halfW = s.halfW ∧ (s.withSendCtx v).halfR = s.halfR ∧ (s.withSendCtx v).sealWide = s.sealWide ∧
    (s.withSendCtx v).sealParts = s.sealParts ∧ (s.withSendCtx v).mem = s.mem ∧ (s.withSendCtx v).chk = s.chk ∧
    (s.withSendCtx v).prot = s.prot ∧ (s.withSendCtx v).rsp = s.rsp ∧ (s.withSendCtx v).errQ = s.errQ ∧
    (s.withSendCtx v).recCount = s.recCount ∧ (s.withSendCtx v).vfQ = s.vfQ ∧ (s.withSendCtx v).ceSince = s.ceSince ∧
    (s.withSendCtx v).ticks = s.ticks ∧ (s.withSendCtx v).wbq = s.wbq ∧ (s.withSendCtx v).merge = s.merge ∧
    (s.withSendCtx v).scrub = s.scrub ∧ (s.withSendCtx v).halted = s.halted ∧ (s.withSendCtx v).msix = s.msix ∧
    (s.withSendCtx v).hostReads = s.hostReads ∧ (s.withSendCtx v).hostTag = s.hostTag ∧ (s.withSendCtx v).tiles = s.tiles ∧
    (s.withSendCtx v).arrs = s.arrs ∧ (s.withSendCtx v).thrs = s.thrs ∧ (s.withSendCtx v).jobs = s.jobs ∧
    (s.withSendCtx v).tags = s.tags ∧ (s.withSendCtx v).tileSems = s.tileSems ∧ (s.withSendCtx v).parts = s.parts ∧
    (s.withSendCtx v).sems = s.sems ∧ (s.withSendCtx v).evts = s.evts ∧ (s.withSendCtx v).decks = s.decks ∧
    (s.withSendCtx v).execs = s.execs ∧ (s.withSendCtx v).startNo = s.startNo ∧ (s.withSendCtx v).suspNo = s.suspNo ∧
    (s.withSendCtx v).pinHeld = s.pinHeld ∧ (s.withSendCtx v).dropLater = s.dropLater ∧
    (s.withSendCtx v).allocAt = s.allocAt ∧ (s.withSendCtx v).chans = s.chans ∧ (s.withSendCtx v).thapWait = s.thapWait ∧
    (s.withSendCtx v).stepNo = s.stepNo ∧ (s.withSendCtx v).attn = s.attn ∧ (s.withSendCtx v).accts = s.accts ∧
    (s.withSendCtx v).mons = s.mons ∧ (s.withSendCtx v).margin = s.margin ∧ (s.withSendCtx v).ports = s.ports ∧
    (s.withSendCtx v).probes = s.probes ∧ (s.withSendCtx v).cruiseAt = s.cruiseAt ∧
    (s.withSendCtx v).routeImage = s.routeImage ∧ (s.withSendCtx v).inbox = s.inbox ∧
    (s.withSendCtx v).recvCtx = s.recvCtx ∧ (s.withSendCtx v).streamNo = s.streamNo ∧ (s.withSendCtx v).syncAt = s.syncAt ∧
    (s.withSendCtx v).tree = s.tree ∧ (s.withSendCtx v).img = s.img ∧ (s.withSendCtx v).fuses = s.fuses ∧
    (s.withSendCtx v).boot = s.boot ∧ (s.withSendCtx v).owner = s.owner ∧ (s.withSendCtx v).power = s.power ∧
    (s.withSendCtx v).pkg = s.pkg ∧ (s.withSendCtx v).mgmt = s.mgmt := by
  and_intros <;> rfl

@[simp] theorem State.withRecvCtx_recvCtx (v : Tbl RecvCtx) : (s.withRecvCtx v).recvCtx = v := rfl

/-- `State.withRecvCtx` writes `recvCtx` alone. -/
@[simp] theorem State.withRecvCtx_frame (v : Tbl RecvCtx) :
    (s.withRecvCtx v).pending = s.pending ∧ (s.withRecvCtx v).time = s.time ∧ (s.withRecvCtx v).calendar = s.calendar ∧
    (s.withRecvCtx v).calPhase = s.calPhase ∧ (s.withRecvCtx v).slew = s.slew ∧ (s.withRecvCtx v).stepped = s.stepped ∧
    (s.withRecvCtx v).deckEver = s.deckEver ∧ (s.withRecvCtx v).free = s.free ∧ (s.withRecvCtx v).regs = s.regs ∧
    (s.withRecvCtx v).halfW = s.halfW ∧ (s.withRecvCtx v).halfR = s.halfR ∧ (s.withRecvCtx v).sealWide = s.sealWide ∧
    (s.withRecvCtx v).sealParts = s.sealParts ∧ (s.withRecvCtx v).mem = s.mem ∧ (s.withRecvCtx v).chk = s.chk ∧
    (s.withRecvCtx v).prot = s.prot ∧ (s.withRecvCtx v).rsp = s.rsp ∧ (s.withRecvCtx v).errQ = s.errQ ∧
    (s.withRecvCtx v).recCount = s.recCount ∧ (s.withRecvCtx v).vfQ = s.vfQ ∧ (s.withRecvCtx v).ceSince = s.ceSince ∧
    (s.withRecvCtx v).ticks = s.ticks ∧ (s.withRecvCtx v).wbq = s.wbq ∧ (s.withRecvCtx v).merge = s.merge ∧
    (s.withRecvCtx v).scrub = s.scrub ∧ (s.withRecvCtx v).halted = s.halted ∧ (s.withRecvCtx v).msix = s.msix ∧
    (s.withRecvCtx v).hostReads = s.hostReads ∧ (s.withRecvCtx v).hostTag = s.hostTag ∧ (s.withRecvCtx v).tiles = s.tiles ∧
    (s.withRecvCtx v).arrs = s.arrs ∧ (s.withRecvCtx v).thrs = s.thrs ∧ (s.withRecvCtx v).jobs = s.jobs ∧
    (s.withRecvCtx v).tags = s.tags ∧ (s.withRecvCtx v).tileSems = s.tileSems ∧ (s.withRecvCtx v).parts = s.parts ∧
    (s.withRecvCtx v).sems = s.sems ∧ (s.withRecvCtx v).evts = s.evts ∧ (s.withRecvCtx v).decks = s.decks ∧
    (s.withRecvCtx v).execs = s.execs ∧ (s.withRecvCtx v).startNo = s.startNo ∧ (s.withRecvCtx v).suspNo = s.suspNo ∧
    (s.withRecvCtx v).pinHeld = s.pinHeld ∧ (s.withRecvCtx v).dropLater = s.dropLater ∧
    (s.withRecvCtx v).allocAt = s.allocAt ∧ (s.withRecvCtx v).chans = s.chans ∧ (s.withRecvCtx v).thapWait = s.thapWait ∧
    (s.withRecvCtx v).stepNo = s.stepNo ∧ (s.withRecvCtx v).attn = s.attn ∧ (s.withRecvCtx v).accts = s.accts ∧
    (s.withRecvCtx v).mons = s.mons ∧ (s.withRecvCtx v).margin = s.margin ∧ (s.withRecvCtx v).ports = s.ports ∧
    (s.withRecvCtx v).probes = s.probes ∧ (s.withRecvCtx v).cruiseAt = s.cruiseAt ∧
    (s.withRecvCtx v).routeImage = s.routeImage ∧ (s.withRecvCtx v).inbox = s.inbox ∧
    (s.withRecvCtx v).sendCtx = s.sendCtx ∧ (s.withRecvCtx v).streamNo = s.streamNo ∧ (s.withRecvCtx v).syncAt = s.syncAt ∧
    (s.withRecvCtx v).tree = s.tree ∧ (s.withRecvCtx v).img = s.img ∧ (s.withRecvCtx v).fuses = s.fuses ∧
    (s.withRecvCtx v).boot = s.boot ∧ (s.withRecvCtx v).owner = s.owner ∧ (s.withRecvCtx v).power = s.power ∧
    (s.withRecvCtx v).pkg = s.pkg ∧ (s.withRecvCtx v).mgmt = s.mgmt := by
  and_intros <;> rfl

@[simp] theorem State.withStreamNo_streamNo (v : Nat) : (s.withStreamNo v).streamNo = v := rfl

/-- `State.withStreamNo` writes `streamNo` alone. -/
@[simp] theorem State.withStreamNo_frame (v : Nat) :
    (s.withStreamNo v).pending = s.pending ∧ (s.withStreamNo v).time = s.time ∧ (s.withStreamNo v).calendar = s.calendar ∧
    (s.withStreamNo v).calPhase = s.calPhase ∧ (s.withStreamNo v).slew = s.slew ∧ (s.withStreamNo v).stepped = s.stepped ∧
    (s.withStreamNo v).deckEver = s.deckEver ∧ (s.withStreamNo v).free = s.free ∧ (s.withStreamNo v).regs = s.regs ∧
    (s.withStreamNo v).halfW = s.halfW ∧ (s.withStreamNo v).halfR = s.halfR ∧ (s.withStreamNo v).sealWide = s.sealWide ∧
    (s.withStreamNo v).sealParts = s.sealParts ∧ (s.withStreamNo v).mem = s.mem ∧ (s.withStreamNo v).chk = s.chk ∧
    (s.withStreamNo v).prot = s.prot ∧ (s.withStreamNo v).rsp = s.rsp ∧ (s.withStreamNo v).errQ = s.errQ ∧
    (s.withStreamNo v).recCount = s.recCount ∧ (s.withStreamNo v).vfQ = s.vfQ ∧ (s.withStreamNo v).ceSince = s.ceSince ∧
    (s.withStreamNo v).ticks = s.ticks ∧ (s.withStreamNo v).wbq = s.wbq ∧ (s.withStreamNo v).merge = s.merge ∧
    (s.withStreamNo v).scrub = s.scrub ∧ (s.withStreamNo v).halted = s.halted ∧ (s.withStreamNo v).msix = s.msix ∧
    (s.withStreamNo v).hostReads = s.hostReads ∧ (s.withStreamNo v).hostTag = s.hostTag ∧
    (s.withStreamNo v).tiles = s.tiles ∧ (s.withStreamNo v).arrs = s.arrs ∧ (s.withStreamNo v).thrs = s.thrs ∧
    (s.withStreamNo v).jobs = s.jobs ∧ (s.withStreamNo v).tags = s.tags ∧ (s.withStreamNo v).tileSems = s.tileSems ∧
    (s.withStreamNo v).parts = s.parts ∧ (s.withStreamNo v).sems = s.sems ∧ (s.withStreamNo v).evts = s.evts ∧
    (s.withStreamNo v).decks = s.decks ∧ (s.withStreamNo v).execs = s.execs ∧ (s.withStreamNo v).startNo = s.startNo ∧
    (s.withStreamNo v).suspNo = s.suspNo ∧ (s.withStreamNo v).pinHeld = s.pinHeld ∧
    (s.withStreamNo v).dropLater = s.dropLater ∧ (s.withStreamNo v).allocAt = s.allocAt ∧
    (s.withStreamNo v).chans = s.chans ∧ (s.withStreamNo v).thapWait = s.thapWait ∧ (s.withStreamNo v).stepNo = s.stepNo ∧
    (s.withStreamNo v).attn = s.attn ∧ (s.withStreamNo v).accts = s.accts ∧ (s.withStreamNo v).mons = s.mons ∧
    (s.withStreamNo v).margin = s.margin ∧ (s.withStreamNo v).ports = s.ports ∧ (s.withStreamNo v).probes = s.probes ∧
    (s.withStreamNo v).cruiseAt = s.cruiseAt ∧ (s.withStreamNo v).routeImage = s.routeImage ∧
    (s.withStreamNo v).inbox = s.inbox ∧ (s.withStreamNo v).sendCtx = s.sendCtx ∧ (s.withStreamNo v).recvCtx = s.recvCtx ∧
    (s.withStreamNo v).syncAt = s.syncAt ∧ (s.withStreamNo v).tree = s.tree ∧ (s.withStreamNo v).img = s.img ∧
    (s.withStreamNo v).fuses = s.fuses ∧ (s.withStreamNo v).boot = s.boot ∧ (s.withStreamNo v).owner = s.owner ∧
    (s.withStreamNo v).power = s.power ∧ (s.withStreamNo v).pkg = s.pkg ∧ (s.withStreamNo v).mgmt = s.mgmt := by
  and_intros <;> rfl

@[simp] theorem State.withSyncAt_syncAt (v : Nat) : (s.withSyncAt v).syncAt = v := rfl

/-- `State.withSyncAt` writes `syncAt` alone. -/
@[simp] theorem State.withSyncAt_frame (v : Nat) :
    (s.withSyncAt v).pending = s.pending ∧ (s.withSyncAt v).time = s.time ∧ (s.withSyncAt v).calendar = s.calendar ∧
    (s.withSyncAt v).calPhase = s.calPhase ∧ (s.withSyncAt v).slew = s.slew ∧ (s.withSyncAt v).stepped = s.stepped ∧
    (s.withSyncAt v).deckEver = s.deckEver ∧ (s.withSyncAt v).free = s.free ∧ (s.withSyncAt v).regs = s.regs ∧
    (s.withSyncAt v).halfW = s.halfW ∧ (s.withSyncAt v).halfR = s.halfR ∧ (s.withSyncAt v).sealWide = s.sealWide ∧
    (s.withSyncAt v).sealParts = s.sealParts ∧ (s.withSyncAt v).mem = s.mem ∧ (s.withSyncAt v).chk = s.chk ∧
    (s.withSyncAt v).prot = s.prot ∧ (s.withSyncAt v).rsp = s.rsp ∧ (s.withSyncAt v).errQ = s.errQ ∧
    (s.withSyncAt v).recCount = s.recCount ∧ (s.withSyncAt v).vfQ = s.vfQ ∧ (s.withSyncAt v).ceSince = s.ceSince ∧
    (s.withSyncAt v).ticks = s.ticks ∧ (s.withSyncAt v).wbq = s.wbq ∧ (s.withSyncAt v).merge = s.merge ∧
    (s.withSyncAt v).scrub = s.scrub ∧ (s.withSyncAt v).halted = s.halted ∧ (s.withSyncAt v).msix = s.msix ∧
    (s.withSyncAt v).hostReads = s.hostReads ∧ (s.withSyncAt v).hostTag = s.hostTag ∧ (s.withSyncAt v).tiles = s.tiles ∧
    (s.withSyncAt v).arrs = s.arrs ∧ (s.withSyncAt v).thrs = s.thrs ∧ (s.withSyncAt v).jobs = s.jobs ∧
    (s.withSyncAt v).tags = s.tags ∧ (s.withSyncAt v).tileSems = s.tileSems ∧ (s.withSyncAt v).parts = s.parts ∧
    (s.withSyncAt v).sems = s.sems ∧ (s.withSyncAt v).evts = s.evts ∧ (s.withSyncAt v).decks = s.decks ∧
    (s.withSyncAt v).execs = s.execs ∧ (s.withSyncAt v).startNo = s.startNo ∧ (s.withSyncAt v).suspNo = s.suspNo ∧
    (s.withSyncAt v).pinHeld = s.pinHeld ∧ (s.withSyncAt v).dropLater = s.dropLater ∧
    (s.withSyncAt v).allocAt = s.allocAt ∧ (s.withSyncAt v).chans = s.chans ∧ (s.withSyncAt v).thapWait = s.thapWait ∧
    (s.withSyncAt v).stepNo = s.stepNo ∧ (s.withSyncAt v).attn = s.attn ∧ (s.withSyncAt v).accts = s.accts ∧
    (s.withSyncAt v).mons = s.mons ∧ (s.withSyncAt v).margin = s.margin ∧ (s.withSyncAt v).ports = s.ports ∧
    (s.withSyncAt v).probes = s.probes ∧ (s.withSyncAt v).cruiseAt = s.cruiseAt ∧
    (s.withSyncAt v).routeImage = s.routeImage ∧ (s.withSyncAt v).inbox = s.inbox ∧ (s.withSyncAt v).sendCtx = s.sendCtx ∧
    (s.withSyncAt v).recvCtx = s.recvCtx ∧ (s.withSyncAt v).streamNo = s.streamNo ∧ (s.withSyncAt v).tree = s.tree ∧
    (s.withSyncAt v).img = s.img ∧ (s.withSyncAt v).fuses = s.fuses ∧ (s.withSyncAt v).boot = s.boot ∧
    (s.withSyncAt v).owner = s.owner ∧ (s.withSyncAt v).power = s.power ∧ (s.withSyncAt v).pkg = s.pkg ∧
    (s.withSyncAt v).mgmt = s.mgmt := by
  and_intros <;> rfl

@[simp] theorem State.withTree_tree (v : Tree) : (s.withTree v).tree = v := rfl

/-- `State.withTree` writes `tree` alone. -/
@[simp] theorem State.withTree_frame (v : Tree) :
    (s.withTree v).pending = s.pending ∧ (s.withTree v).time = s.time ∧ (s.withTree v).calendar = s.calendar ∧
    (s.withTree v).calPhase = s.calPhase ∧ (s.withTree v).slew = s.slew ∧ (s.withTree v).stepped = s.stepped ∧
    (s.withTree v).deckEver = s.deckEver ∧ (s.withTree v).free = s.free ∧ (s.withTree v).regs = s.regs ∧
    (s.withTree v).halfW = s.halfW ∧ (s.withTree v).halfR = s.halfR ∧ (s.withTree v).sealWide = s.sealWide ∧
    (s.withTree v).sealParts = s.sealParts ∧ (s.withTree v).mem = s.mem ∧ (s.withTree v).chk = s.chk ∧
    (s.withTree v).prot = s.prot ∧ (s.withTree v).rsp = s.rsp ∧ (s.withTree v).errQ = s.errQ ∧
    (s.withTree v).recCount = s.recCount ∧ (s.withTree v).vfQ = s.vfQ ∧ (s.withTree v).ceSince = s.ceSince ∧
    (s.withTree v).ticks = s.ticks ∧ (s.withTree v).wbq = s.wbq ∧ (s.withTree v).merge = s.merge ∧
    (s.withTree v).scrub = s.scrub ∧ (s.withTree v).halted = s.halted ∧ (s.withTree v).msix = s.msix ∧
    (s.withTree v).hostReads = s.hostReads ∧ (s.withTree v).hostTag = s.hostTag ∧ (s.withTree v).tiles = s.tiles ∧
    (s.withTree v).arrs = s.arrs ∧ (s.withTree v).thrs = s.thrs ∧ (s.withTree v).jobs = s.jobs ∧
    (s.withTree v).tags = s.tags ∧ (s.withTree v).tileSems = s.tileSems ∧ (s.withTree v).parts = s.parts ∧
    (s.withTree v).sems = s.sems ∧ (s.withTree v).evts = s.evts ∧ (s.withTree v).decks = s.decks ∧
    (s.withTree v).execs = s.execs ∧ (s.withTree v).startNo = s.startNo ∧ (s.withTree v).suspNo = s.suspNo ∧
    (s.withTree v).pinHeld = s.pinHeld ∧ (s.withTree v).dropLater = s.dropLater ∧ (s.withTree v).allocAt = s.allocAt ∧
    (s.withTree v).chans = s.chans ∧ (s.withTree v).thapWait = s.thapWait ∧ (s.withTree v).stepNo = s.stepNo ∧
    (s.withTree v).attn = s.attn ∧ (s.withTree v).accts = s.accts ∧ (s.withTree v).mons = s.mons ∧
    (s.withTree v).margin = s.margin ∧ (s.withTree v).ports = s.ports ∧ (s.withTree v).probes = s.probes ∧
    (s.withTree v).cruiseAt = s.cruiseAt ∧ (s.withTree v).routeImage = s.routeImage ∧ (s.withTree v).inbox = s.inbox ∧
    (s.withTree v).sendCtx = s.sendCtx ∧ (s.withTree v).recvCtx = s.recvCtx ∧ (s.withTree v).streamNo = s.streamNo ∧
    (s.withTree v).syncAt = s.syncAt ∧ (s.withTree v).img = s.img ∧ (s.withTree v).fuses = s.fuses ∧
    (s.withTree v).boot = s.boot ∧ (s.withTree v).owner = s.owner ∧ (s.withTree v).power = s.power ∧
    (s.withTree v).pkg = s.pkg ∧ (s.withTree v).mgmt = s.mgmt := by
  and_intros <;> rfl

@[simp] theorem State.withImg_img (v : Img) : (s.withImg v).img = v := rfl

/-- `State.withImg` writes `img` alone. -/
@[simp] theorem State.withImg_frame (v : Img) :
    (s.withImg v).pending = s.pending ∧ (s.withImg v).time = s.time ∧ (s.withImg v).calendar = s.calendar ∧
    (s.withImg v).calPhase = s.calPhase ∧ (s.withImg v).slew = s.slew ∧ (s.withImg v).stepped = s.stepped ∧
    (s.withImg v).deckEver = s.deckEver ∧ (s.withImg v).free = s.free ∧ (s.withImg v).regs = s.regs ∧
    (s.withImg v).halfW = s.halfW ∧ (s.withImg v).halfR = s.halfR ∧ (s.withImg v).sealWide = s.sealWide ∧
    (s.withImg v).sealParts = s.sealParts ∧ (s.withImg v).mem = s.mem ∧ (s.withImg v).chk = s.chk ∧
    (s.withImg v).prot = s.prot ∧ (s.withImg v).rsp = s.rsp ∧ (s.withImg v).errQ = s.errQ ∧
    (s.withImg v).recCount = s.recCount ∧ (s.withImg v).vfQ = s.vfQ ∧ (s.withImg v).ceSince = s.ceSince ∧
    (s.withImg v).ticks = s.ticks ∧ (s.withImg v).wbq = s.wbq ∧ (s.withImg v).merge = s.merge ∧
    (s.withImg v).scrub = s.scrub ∧ (s.withImg v).halted = s.halted ∧ (s.withImg v).msix = s.msix ∧
    (s.withImg v).hostReads = s.hostReads ∧ (s.withImg v).hostTag = s.hostTag ∧ (s.withImg v).tiles = s.tiles ∧
    (s.withImg v).arrs = s.arrs ∧ (s.withImg v).thrs = s.thrs ∧ (s.withImg v).jobs = s.jobs ∧ (s.withImg v).tags = s.tags ∧
    (s.withImg v).tileSems = s.tileSems ∧ (s.withImg v).parts = s.parts ∧ (s.withImg v).sems = s.sems ∧
    (s.withImg v).evts = s.evts ∧ (s.withImg v).decks = s.decks ∧ (s.withImg v).execs = s.execs ∧
    (s.withImg v).startNo = s.startNo ∧ (s.withImg v).suspNo = s.suspNo ∧ (s.withImg v).pinHeld = s.pinHeld ∧
    (s.withImg v).dropLater = s.dropLater ∧ (s.withImg v).allocAt = s.allocAt ∧ (s.withImg v).chans = s.chans ∧
    (s.withImg v).thapWait = s.thapWait ∧ (s.withImg v).stepNo = s.stepNo ∧ (s.withImg v).attn = s.attn ∧
    (s.withImg v).accts = s.accts ∧ (s.withImg v).mons = s.mons ∧ (s.withImg v).margin = s.margin ∧
    (s.withImg v).ports = s.ports ∧ (s.withImg v).probes = s.probes ∧ (s.withImg v).cruiseAt = s.cruiseAt ∧
    (s.withImg v).routeImage = s.routeImage ∧ (s.withImg v).inbox = s.inbox ∧ (s.withImg v).sendCtx = s.sendCtx ∧
    (s.withImg v).recvCtx = s.recvCtx ∧ (s.withImg v).streamNo = s.streamNo ∧ (s.withImg v).syncAt = s.syncAt ∧
    (s.withImg v).tree = s.tree ∧ (s.withImg v).fuses = s.fuses ∧ (s.withImg v).boot = s.boot ∧
    (s.withImg v).owner = s.owner ∧ (s.withImg v).power = s.power ∧ (s.withImg v).pkg = s.pkg ∧
    (s.withImg v).mgmt = s.mgmt := by
  and_intros <;> rfl

@[simp] theorem State.withFuses_fuses (v : Fuses) : (s.withFuses v).fuses = v := rfl

/-- `State.withFuses` writes `fuses` alone. -/
@[simp] theorem State.withFuses_frame (v : Fuses) :
    (s.withFuses v).pending = s.pending ∧ (s.withFuses v).time = s.time ∧ (s.withFuses v).calendar = s.calendar ∧
    (s.withFuses v).calPhase = s.calPhase ∧ (s.withFuses v).slew = s.slew ∧ (s.withFuses v).stepped = s.stepped ∧
    (s.withFuses v).deckEver = s.deckEver ∧ (s.withFuses v).free = s.free ∧ (s.withFuses v).regs = s.regs ∧
    (s.withFuses v).halfW = s.halfW ∧ (s.withFuses v).halfR = s.halfR ∧ (s.withFuses v).sealWide = s.sealWide ∧
    (s.withFuses v).sealParts = s.sealParts ∧ (s.withFuses v).mem = s.mem ∧ (s.withFuses v).chk = s.chk ∧
    (s.withFuses v).prot = s.prot ∧ (s.withFuses v).rsp = s.rsp ∧ (s.withFuses v).errQ = s.errQ ∧
    (s.withFuses v).recCount = s.recCount ∧ (s.withFuses v).vfQ = s.vfQ ∧ (s.withFuses v).ceSince = s.ceSince ∧
    (s.withFuses v).ticks = s.ticks ∧ (s.withFuses v).wbq = s.wbq ∧ (s.withFuses v).merge = s.merge ∧
    (s.withFuses v).scrub = s.scrub ∧ (s.withFuses v).halted = s.halted ∧ (s.withFuses v).msix = s.msix ∧
    (s.withFuses v).hostReads = s.hostReads ∧ (s.withFuses v).hostTag = s.hostTag ∧ (s.withFuses v).tiles = s.tiles ∧
    (s.withFuses v).arrs = s.arrs ∧ (s.withFuses v).thrs = s.thrs ∧ (s.withFuses v).jobs = s.jobs ∧
    (s.withFuses v).tags = s.tags ∧ (s.withFuses v).tileSems = s.tileSems ∧ (s.withFuses v).parts = s.parts ∧
    (s.withFuses v).sems = s.sems ∧ (s.withFuses v).evts = s.evts ∧ (s.withFuses v).decks = s.decks ∧
    (s.withFuses v).execs = s.execs ∧ (s.withFuses v).startNo = s.startNo ∧ (s.withFuses v).suspNo = s.suspNo ∧
    (s.withFuses v).pinHeld = s.pinHeld ∧ (s.withFuses v).dropLater = s.dropLater ∧ (s.withFuses v).allocAt = s.allocAt ∧
    (s.withFuses v).chans = s.chans ∧ (s.withFuses v).thapWait = s.thapWait ∧ (s.withFuses v).stepNo = s.stepNo ∧
    (s.withFuses v).attn = s.attn ∧ (s.withFuses v).accts = s.accts ∧ (s.withFuses v).mons = s.mons ∧
    (s.withFuses v).margin = s.margin ∧ (s.withFuses v).ports = s.ports ∧ (s.withFuses v).probes = s.probes ∧
    (s.withFuses v).cruiseAt = s.cruiseAt ∧ (s.withFuses v).routeImage = s.routeImage ∧ (s.withFuses v).inbox = s.inbox ∧
    (s.withFuses v).sendCtx = s.sendCtx ∧ (s.withFuses v).recvCtx = s.recvCtx ∧ (s.withFuses v).streamNo = s.streamNo ∧
    (s.withFuses v).syncAt = s.syncAt ∧ (s.withFuses v).tree = s.tree ∧ (s.withFuses v).img = s.img ∧
    (s.withFuses v).boot = s.boot ∧ (s.withFuses v).owner = s.owner ∧ (s.withFuses v).power = s.power ∧
    (s.withFuses v).pkg = s.pkg ∧ (s.withFuses v).mgmt = s.mgmt := by
  and_intros <;> rfl

@[simp] theorem State.withBoot_boot (v : Boot) : (s.withBoot v).boot = v := rfl

/-- `State.withBoot` writes `boot` alone. -/
@[simp] theorem State.withBoot_frame (v : Boot) :
    (s.withBoot v).pending = s.pending ∧ (s.withBoot v).time = s.time ∧ (s.withBoot v).calendar = s.calendar ∧
    (s.withBoot v).calPhase = s.calPhase ∧ (s.withBoot v).slew = s.slew ∧ (s.withBoot v).stepped = s.stepped ∧
    (s.withBoot v).deckEver = s.deckEver ∧ (s.withBoot v).free = s.free ∧ (s.withBoot v).regs = s.regs ∧
    (s.withBoot v).halfW = s.halfW ∧ (s.withBoot v).halfR = s.halfR ∧ (s.withBoot v).sealWide = s.sealWide ∧
    (s.withBoot v).sealParts = s.sealParts ∧ (s.withBoot v).mem = s.mem ∧ (s.withBoot v).chk = s.chk ∧
    (s.withBoot v).prot = s.prot ∧ (s.withBoot v).rsp = s.rsp ∧ (s.withBoot v).errQ = s.errQ ∧
    (s.withBoot v).recCount = s.recCount ∧ (s.withBoot v).vfQ = s.vfQ ∧ (s.withBoot v).ceSince = s.ceSince ∧
    (s.withBoot v).ticks = s.ticks ∧ (s.withBoot v).wbq = s.wbq ∧ (s.withBoot v).merge = s.merge ∧
    (s.withBoot v).scrub = s.scrub ∧ (s.withBoot v).halted = s.halted ∧ (s.withBoot v).msix = s.msix ∧
    (s.withBoot v).hostReads = s.hostReads ∧ (s.withBoot v).hostTag = s.hostTag ∧ (s.withBoot v).tiles = s.tiles ∧
    (s.withBoot v).arrs = s.arrs ∧ (s.withBoot v).thrs = s.thrs ∧ (s.withBoot v).jobs = s.jobs ∧
    (s.withBoot v).tags = s.tags ∧ (s.withBoot v).tileSems = s.tileSems ∧ (s.withBoot v).parts = s.parts ∧
    (s.withBoot v).sems = s.sems ∧ (s.withBoot v).evts = s.evts ∧ (s.withBoot v).decks = s.decks ∧
    (s.withBoot v).execs = s.execs ∧ (s.withBoot v).startNo = s.startNo ∧ (s.withBoot v).suspNo = s.suspNo ∧
    (s.withBoot v).pinHeld = s.pinHeld ∧ (s.withBoot v).dropLater = s.dropLater ∧ (s.withBoot v).allocAt = s.allocAt ∧
    (s.withBoot v).chans = s.chans ∧ (s.withBoot v).thapWait = s.thapWait ∧ (s.withBoot v).stepNo = s.stepNo ∧
    (s.withBoot v).attn = s.attn ∧ (s.withBoot v).accts = s.accts ∧ (s.withBoot v).mons = s.mons ∧
    (s.withBoot v).margin = s.margin ∧ (s.withBoot v).ports = s.ports ∧ (s.withBoot v).probes = s.probes ∧
    (s.withBoot v).cruiseAt = s.cruiseAt ∧ (s.withBoot v).routeImage = s.routeImage ∧ (s.withBoot v).inbox = s.inbox ∧
    (s.withBoot v).sendCtx = s.sendCtx ∧ (s.withBoot v).recvCtx = s.recvCtx ∧ (s.withBoot v).streamNo = s.streamNo ∧
    (s.withBoot v).syncAt = s.syncAt ∧ (s.withBoot v).tree = s.tree ∧ (s.withBoot v).img = s.img ∧
    (s.withBoot v).fuses = s.fuses ∧ (s.withBoot v).owner = s.owner ∧ (s.withBoot v).power = s.power ∧
    (s.withBoot v).pkg = s.pkg ∧ (s.withBoot v).mgmt = s.mgmt := by
  and_intros <;> rfl

@[simp] theorem State.withOwner_owner (v : Tbl Nat) : (s.withOwner v).owner = v := rfl

/-- `State.withOwner` writes `owner` alone. -/
@[simp] theorem State.withOwner_frame (v : Tbl Nat) :
    (s.withOwner v).pending = s.pending ∧ (s.withOwner v).time = s.time ∧ (s.withOwner v).calendar = s.calendar ∧
    (s.withOwner v).calPhase = s.calPhase ∧ (s.withOwner v).slew = s.slew ∧ (s.withOwner v).stepped = s.stepped ∧
    (s.withOwner v).deckEver = s.deckEver ∧ (s.withOwner v).free = s.free ∧ (s.withOwner v).regs = s.regs ∧
    (s.withOwner v).halfW = s.halfW ∧ (s.withOwner v).halfR = s.halfR ∧ (s.withOwner v).sealWide = s.sealWide ∧
    (s.withOwner v).sealParts = s.sealParts ∧ (s.withOwner v).mem = s.mem ∧ (s.withOwner v).chk = s.chk ∧
    (s.withOwner v).prot = s.prot ∧ (s.withOwner v).rsp = s.rsp ∧ (s.withOwner v).errQ = s.errQ ∧
    (s.withOwner v).recCount = s.recCount ∧ (s.withOwner v).vfQ = s.vfQ ∧ (s.withOwner v).ceSince = s.ceSince ∧
    (s.withOwner v).ticks = s.ticks ∧ (s.withOwner v).wbq = s.wbq ∧ (s.withOwner v).merge = s.merge ∧
    (s.withOwner v).scrub = s.scrub ∧ (s.withOwner v).halted = s.halted ∧ (s.withOwner v).msix = s.msix ∧
    (s.withOwner v).hostReads = s.hostReads ∧ (s.withOwner v).hostTag = s.hostTag ∧ (s.withOwner v).tiles = s.tiles ∧
    (s.withOwner v).arrs = s.arrs ∧ (s.withOwner v).thrs = s.thrs ∧ (s.withOwner v).jobs = s.jobs ∧
    (s.withOwner v).tags = s.tags ∧ (s.withOwner v).tileSems = s.tileSems ∧ (s.withOwner v).parts = s.parts ∧
    (s.withOwner v).sems = s.sems ∧ (s.withOwner v).evts = s.evts ∧ (s.withOwner v).decks = s.decks ∧
    (s.withOwner v).execs = s.execs ∧ (s.withOwner v).startNo = s.startNo ∧ (s.withOwner v).suspNo = s.suspNo ∧
    (s.withOwner v).pinHeld = s.pinHeld ∧ (s.withOwner v).dropLater = s.dropLater ∧ (s.withOwner v).allocAt = s.allocAt ∧
    (s.withOwner v).chans = s.chans ∧ (s.withOwner v).thapWait = s.thapWait ∧ (s.withOwner v).stepNo = s.stepNo ∧
    (s.withOwner v).attn = s.attn ∧ (s.withOwner v).accts = s.accts ∧ (s.withOwner v).mons = s.mons ∧
    (s.withOwner v).margin = s.margin ∧ (s.withOwner v).ports = s.ports ∧ (s.withOwner v).probes = s.probes ∧
    (s.withOwner v).cruiseAt = s.cruiseAt ∧ (s.withOwner v).routeImage = s.routeImage ∧ (s.withOwner v).inbox = s.inbox ∧
    (s.withOwner v).sendCtx = s.sendCtx ∧ (s.withOwner v).recvCtx = s.recvCtx ∧ (s.withOwner v).streamNo = s.streamNo ∧
    (s.withOwner v).syncAt = s.syncAt ∧ (s.withOwner v).tree = s.tree ∧ (s.withOwner v).img = s.img ∧
    (s.withOwner v).fuses = s.fuses ∧ (s.withOwner v).boot = s.boot ∧ (s.withOwner v).power = s.power ∧
    (s.withOwner v).pkg = s.pkg ∧ (s.withOwner v).mgmt = s.mgmt := by
  and_intros <;> rfl

@[simp] theorem State.withPower_power (v : Power) : (s.withPower v).power = v := rfl

/-- `State.withPower` writes `power` alone. -/
@[simp] theorem State.withPower_frame (v : Power) :
    (s.withPower v).pending = s.pending ∧ (s.withPower v).time = s.time ∧ (s.withPower v).calendar = s.calendar ∧
    (s.withPower v).calPhase = s.calPhase ∧ (s.withPower v).slew = s.slew ∧ (s.withPower v).stepped = s.stepped ∧
    (s.withPower v).deckEver = s.deckEver ∧ (s.withPower v).free = s.free ∧ (s.withPower v).regs = s.regs ∧
    (s.withPower v).halfW = s.halfW ∧ (s.withPower v).halfR = s.halfR ∧ (s.withPower v).sealWide = s.sealWide ∧
    (s.withPower v).sealParts = s.sealParts ∧ (s.withPower v).mem = s.mem ∧ (s.withPower v).chk = s.chk ∧
    (s.withPower v).prot = s.prot ∧ (s.withPower v).rsp = s.rsp ∧ (s.withPower v).errQ = s.errQ ∧
    (s.withPower v).recCount = s.recCount ∧ (s.withPower v).vfQ = s.vfQ ∧ (s.withPower v).ceSince = s.ceSince ∧
    (s.withPower v).ticks = s.ticks ∧ (s.withPower v).wbq = s.wbq ∧ (s.withPower v).merge = s.merge ∧
    (s.withPower v).scrub = s.scrub ∧ (s.withPower v).halted = s.halted ∧ (s.withPower v).msix = s.msix ∧
    (s.withPower v).hostReads = s.hostReads ∧ (s.withPower v).hostTag = s.hostTag ∧ (s.withPower v).tiles = s.tiles ∧
    (s.withPower v).arrs = s.arrs ∧ (s.withPower v).thrs = s.thrs ∧ (s.withPower v).jobs = s.jobs ∧
    (s.withPower v).tags = s.tags ∧ (s.withPower v).tileSems = s.tileSems ∧ (s.withPower v).parts = s.parts ∧
    (s.withPower v).sems = s.sems ∧ (s.withPower v).evts = s.evts ∧ (s.withPower v).decks = s.decks ∧
    (s.withPower v).execs = s.execs ∧ (s.withPower v).startNo = s.startNo ∧ (s.withPower v).suspNo = s.suspNo ∧
    (s.withPower v).pinHeld = s.pinHeld ∧ (s.withPower v).dropLater = s.dropLater ∧ (s.withPower v).allocAt = s.allocAt ∧
    (s.withPower v).chans = s.chans ∧ (s.withPower v).thapWait = s.thapWait ∧ (s.withPower v).stepNo = s.stepNo ∧
    (s.withPower v).attn = s.attn ∧ (s.withPower v).accts = s.accts ∧ (s.withPower v).mons = s.mons ∧
    (s.withPower v).margin = s.margin ∧ (s.withPower v).ports = s.ports ∧ (s.withPower v).probes = s.probes ∧
    (s.withPower v).cruiseAt = s.cruiseAt ∧ (s.withPower v).routeImage = s.routeImage ∧ (s.withPower v).inbox = s.inbox ∧
    (s.withPower v).sendCtx = s.sendCtx ∧ (s.withPower v).recvCtx = s.recvCtx ∧ (s.withPower v).streamNo = s.streamNo ∧
    (s.withPower v).syncAt = s.syncAt ∧ (s.withPower v).tree = s.tree ∧ (s.withPower v).img = s.img ∧
    (s.withPower v).fuses = s.fuses ∧ (s.withPower v).boot = s.boot ∧ (s.withPower v).owner = s.owner ∧
    (s.withPower v).pkg = s.pkg ∧ (s.withPower v).mgmt = s.mgmt := by
  and_intros <;> rfl

@[simp] theorem State.withPkg_pkg (v : Pkg) : (s.withPkg v).pkg = v := rfl

/-- `State.withPkg` writes `pkg` alone. -/
@[simp] theorem State.withPkg_frame (v : Pkg) :
    (s.withPkg v).pending = s.pending ∧ (s.withPkg v).time = s.time ∧ (s.withPkg v).calendar = s.calendar ∧
    (s.withPkg v).calPhase = s.calPhase ∧ (s.withPkg v).slew = s.slew ∧ (s.withPkg v).stepped = s.stepped ∧
    (s.withPkg v).deckEver = s.deckEver ∧ (s.withPkg v).free = s.free ∧ (s.withPkg v).regs = s.regs ∧
    (s.withPkg v).halfW = s.halfW ∧ (s.withPkg v).halfR = s.halfR ∧ (s.withPkg v).sealWide = s.sealWide ∧
    (s.withPkg v).sealParts = s.sealParts ∧ (s.withPkg v).mem = s.mem ∧ (s.withPkg v).chk = s.chk ∧
    (s.withPkg v).prot = s.prot ∧ (s.withPkg v).rsp = s.rsp ∧ (s.withPkg v).errQ = s.errQ ∧
    (s.withPkg v).recCount = s.recCount ∧ (s.withPkg v).vfQ = s.vfQ ∧ (s.withPkg v).ceSince = s.ceSince ∧
    (s.withPkg v).ticks = s.ticks ∧ (s.withPkg v).wbq = s.wbq ∧ (s.withPkg v).merge = s.merge ∧
    (s.withPkg v).scrub = s.scrub ∧ (s.withPkg v).halted = s.halted ∧ (s.withPkg v).msix = s.msix ∧
    (s.withPkg v).hostReads = s.hostReads ∧ (s.withPkg v).hostTag = s.hostTag ∧ (s.withPkg v).tiles = s.tiles ∧
    (s.withPkg v).arrs = s.arrs ∧ (s.withPkg v).thrs = s.thrs ∧ (s.withPkg v).jobs = s.jobs ∧ (s.withPkg v).tags = s.tags ∧
    (s.withPkg v).tileSems = s.tileSems ∧ (s.withPkg v).parts = s.parts ∧ (s.withPkg v).sems = s.sems ∧
    (s.withPkg v).evts = s.evts ∧ (s.withPkg v).decks = s.decks ∧ (s.withPkg v).execs = s.execs ∧
    (s.withPkg v).startNo = s.startNo ∧ (s.withPkg v).suspNo = s.suspNo ∧ (s.withPkg v).pinHeld = s.pinHeld ∧
    (s.withPkg v).dropLater = s.dropLater ∧ (s.withPkg v).allocAt = s.allocAt ∧ (s.withPkg v).chans = s.chans ∧
    (s.withPkg v).thapWait = s.thapWait ∧ (s.withPkg v).stepNo = s.stepNo ∧ (s.withPkg v).attn = s.attn ∧
    (s.withPkg v).accts = s.accts ∧ (s.withPkg v).mons = s.mons ∧ (s.withPkg v).margin = s.margin ∧
    (s.withPkg v).ports = s.ports ∧ (s.withPkg v).probes = s.probes ∧ (s.withPkg v).cruiseAt = s.cruiseAt ∧
    (s.withPkg v).routeImage = s.routeImage ∧ (s.withPkg v).inbox = s.inbox ∧ (s.withPkg v).sendCtx = s.sendCtx ∧
    (s.withPkg v).recvCtx = s.recvCtx ∧ (s.withPkg v).streamNo = s.streamNo ∧ (s.withPkg v).syncAt = s.syncAt ∧
    (s.withPkg v).tree = s.tree ∧ (s.withPkg v).img = s.img ∧ (s.withPkg v).fuses = s.fuses ∧ (s.withPkg v).boot = s.boot ∧
    (s.withPkg v).owner = s.owner ∧ (s.withPkg v).power = s.power ∧ (s.withPkg v).mgmt = s.mgmt := by
  and_intros <;> rfl

@[simp] theorem State.withMgmt_mgmt (v : Mgmt) : (s.withMgmt v).mgmt = v := rfl

/-- `State.withMgmt` writes `mgmt` alone. -/
@[simp] theorem State.withMgmt_frame (v : Mgmt) :
    (s.withMgmt v).pending = s.pending ∧ (s.withMgmt v).time = s.time ∧ (s.withMgmt v).calendar = s.calendar ∧
    (s.withMgmt v).calPhase = s.calPhase ∧ (s.withMgmt v).slew = s.slew ∧ (s.withMgmt v).stepped = s.stepped ∧
    (s.withMgmt v).deckEver = s.deckEver ∧ (s.withMgmt v).free = s.free ∧ (s.withMgmt v).regs = s.regs ∧
    (s.withMgmt v).halfW = s.halfW ∧ (s.withMgmt v).halfR = s.halfR ∧ (s.withMgmt v).sealWide = s.sealWide ∧
    (s.withMgmt v).sealParts = s.sealParts ∧ (s.withMgmt v).mem = s.mem ∧ (s.withMgmt v).chk = s.chk ∧
    (s.withMgmt v).prot = s.prot ∧ (s.withMgmt v).rsp = s.rsp ∧ (s.withMgmt v).errQ = s.errQ ∧
    (s.withMgmt v).recCount = s.recCount ∧ (s.withMgmt v).vfQ = s.vfQ ∧ (s.withMgmt v).ceSince = s.ceSince ∧
    (s.withMgmt v).ticks = s.ticks ∧ (s.withMgmt v).wbq = s.wbq ∧ (s.withMgmt v).merge = s.merge ∧
    (s.withMgmt v).scrub = s.scrub ∧ (s.withMgmt v).halted = s.halted ∧ (s.withMgmt v).msix = s.msix ∧
    (s.withMgmt v).hostReads = s.hostReads ∧ (s.withMgmt v).hostTag = s.hostTag ∧ (s.withMgmt v).tiles = s.tiles ∧
    (s.withMgmt v).arrs = s.arrs ∧ (s.withMgmt v).thrs = s.thrs ∧ (s.withMgmt v).jobs = s.jobs ∧
    (s.withMgmt v).tags = s.tags ∧ (s.withMgmt v).tileSems = s.tileSems ∧ (s.withMgmt v).parts = s.parts ∧
    (s.withMgmt v).sems = s.sems ∧ (s.withMgmt v).evts = s.evts ∧ (s.withMgmt v).decks = s.decks ∧
    (s.withMgmt v).execs = s.execs ∧ (s.withMgmt v).startNo = s.startNo ∧ (s.withMgmt v).suspNo = s.suspNo ∧
    (s.withMgmt v).pinHeld = s.pinHeld ∧ (s.withMgmt v).dropLater = s.dropLater ∧ (s.withMgmt v).allocAt = s.allocAt ∧
    (s.withMgmt v).chans = s.chans ∧ (s.withMgmt v).thapWait = s.thapWait ∧ (s.withMgmt v).stepNo = s.stepNo ∧
    (s.withMgmt v).attn = s.attn ∧ (s.withMgmt v).accts = s.accts ∧ (s.withMgmt v).mons = s.mons ∧
    (s.withMgmt v).margin = s.margin ∧ (s.withMgmt v).ports = s.ports ∧ (s.withMgmt v).probes = s.probes ∧
    (s.withMgmt v).cruiseAt = s.cruiseAt ∧ (s.withMgmt v).routeImage = s.routeImage ∧ (s.withMgmt v).inbox = s.inbox ∧
    (s.withMgmt v).sendCtx = s.sendCtx ∧ (s.withMgmt v).recvCtx = s.recvCtx ∧ (s.withMgmt v).streamNo = s.streamNo ∧
    (s.withMgmt v).syncAt = s.syncAt ∧ (s.withMgmt v).tree = s.tree ∧ (s.withMgmt v).img = s.img ∧
    (s.withMgmt v).fuses = s.fuses ∧ (s.withMgmt v).boot = s.boot ∧ (s.withMgmt v).owner = s.owner ∧
    (s.withMgmt v).power = s.power ∧ (s.withMgmt v).pkg = s.pkg := by
  and_intros <;> rfl

@[simp] theorem State.withQueue_pending (q : List Instr) : (s.withQueue q).pending = q := rfl

/-- `State.withQueue` writes `pending` alone. -/
@[simp] theorem State.withQueue_frame (q : List Instr) :
    (s.withQueue q).time = s.time ∧ (s.withQueue q).calendar = s.calendar ∧ (s.withQueue q).calPhase = s.calPhase ∧
    (s.withQueue q).slew = s.slew ∧ (s.withQueue q).stepped = s.stepped ∧ (s.withQueue q).deckEver = s.deckEver ∧
    (s.withQueue q).free = s.free ∧ (s.withQueue q).regs = s.regs ∧ (s.withQueue q).halfW = s.halfW ∧
    (s.withQueue q).halfR = s.halfR ∧ (s.withQueue q).sealWide = s.sealWide ∧ (s.withQueue q).sealParts = s.sealParts ∧
    (s.withQueue q).mem = s.mem ∧ (s.withQueue q).chk = s.chk ∧ (s.withQueue q).prot = s.prot ∧
    (s.withQueue q).rsp = s.rsp ∧ (s.withQueue q).errQ = s.errQ ∧ (s.withQueue q).recCount = s.recCount ∧
    (s.withQueue q).vfQ = s.vfQ ∧ (s.withQueue q).ceSince = s.ceSince ∧ (s.withQueue q).ticks = s.ticks ∧
    (s.withQueue q).wbq = s.wbq ∧ (s.withQueue q).merge = s.merge ∧ (s.withQueue q).scrub = s.scrub ∧
    (s.withQueue q).halted = s.halted ∧ (s.withQueue q).msix = s.msix ∧ (s.withQueue q).hostReads = s.hostReads ∧
    (s.withQueue q).hostTag = s.hostTag ∧ (s.withQueue q).tiles = s.tiles ∧ (s.withQueue q).arrs = s.arrs ∧
    (s.withQueue q).thrs = s.thrs ∧ (s.withQueue q).jobs = s.jobs ∧ (s.withQueue q).tags = s.tags ∧
    (s.withQueue q).tileSems = s.tileSems ∧ (s.withQueue q).parts = s.parts ∧ (s.withQueue q).sems = s.sems ∧
    (s.withQueue q).evts = s.evts ∧ (s.withQueue q).decks = s.decks ∧ (s.withQueue q).execs = s.execs ∧
    (s.withQueue q).startNo = s.startNo ∧ (s.withQueue q).suspNo = s.suspNo ∧ (s.withQueue q).pinHeld = s.pinHeld ∧
    (s.withQueue q).dropLater = s.dropLater ∧ (s.withQueue q).allocAt = s.allocAt ∧ (s.withQueue q).chans = s.chans ∧
    (s.withQueue q).thapWait = s.thapWait ∧ (s.withQueue q).stepNo = s.stepNo ∧ (s.withQueue q).attn = s.attn ∧
    (s.withQueue q).accts = s.accts ∧ (s.withQueue q).mons = s.mons ∧ (s.withQueue q).margin = s.margin ∧
    (s.withQueue q).ports = s.ports ∧ (s.withQueue q).probes = s.probes ∧ (s.withQueue q).cruiseAt = s.cruiseAt ∧
    (s.withQueue q).routeImage = s.routeImage ∧ (s.withQueue q).inbox = s.inbox ∧ (s.withQueue q).sendCtx = s.sendCtx ∧
    (s.withQueue q).recvCtx = s.recvCtx ∧ (s.withQueue q).streamNo = s.streamNo ∧ (s.withQueue q).syncAt = s.syncAt ∧
    (s.withQueue q).tree = s.tree ∧ (s.withQueue q).img = s.img ∧ (s.withQueue q).fuses = s.fuses ∧
    (s.withQueue q).boot = s.boot ∧ (s.withQueue q).owner = s.owner ∧ (s.withQueue q).power = s.power ∧
    (s.withQueue q).pkg = s.pkg ∧ (s.withQueue q).mgmt = s.mgmt := by
  and_intros <;> rfl

@[simp] theorem State.fset_regs (f : Field) (u i v : Nat) : (s.fset f u i v).regs = Tbl.put f.rst s.regs (f.key u i) (v % 2 ^ f.w) := rfl

/-- `State.fset` writes `regs` alone. -/
@[simp] theorem State.fset_frame (f : Field) (u i v : Nat) :
    (s.fset f u i v).pending = s.pending ∧ (s.fset f u i v).time = s.time ∧ (s.fset f u i v).calendar = s.calendar ∧
    (s.fset f u i v).calPhase = s.calPhase ∧ (s.fset f u i v).slew = s.slew ∧ (s.fset f u i v).stepped = s.stepped ∧
    (s.fset f u i v).deckEver = s.deckEver ∧ (s.fset f u i v).free = s.free ∧ (s.fset f u i v).halfW = s.halfW ∧
    (s.fset f u i v).halfR = s.halfR ∧ (s.fset f u i v).sealWide = s.sealWide ∧ (s.fset f u i v).sealParts = s.sealParts ∧
    (s.fset f u i v).mem = s.mem ∧ (s.fset f u i v).chk = s.chk ∧ (s.fset f u i v).prot = s.prot ∧
    (s.fset f u i v).rsp = s.rsp ∧ (s.fset f u i v).errQ = s.errQ ∧ (s.fset f u i v).recCount = s.recCount ∧
    (s.fset f u i v).vfQ = s.vfQ ∧ (s.fset f u i v).ceSince = s.ceSince ∧ (s.fset f u i v).ticks = s.ticks ∧
    (s.fset f u i v).wbq = s.wbq ∧ (s.fset f u i v).merge = s.merge ∧ (s.fset f u i v).scrub = s.scrub ∧
    (s.fset f u i v).halted = s.halted ∧ (s.fset f u i v).msix = s.msix ∧ (s.fset f u i v).hostReads = s.hostReads ∧
    (s.fset f u i v).hostTag = s.hostTag ∧ (s.fset f u i v).tiles = s.tiles ∧ (s.fset f u i v).arrs = s.arrs ∧
    (s.fset f u i v).thrs = s.thrs ∧ (s.fset f u i v).jobs = s.jobs ∧ (s.fset f u i v).tags = s.tags ∧
    (s.fset f u i v).tileSems = s.tileSems ∧ (s.fset f u i v).parts = s.parts ∧ (s.fset f u i v).sems = s.sems ∧
    (s.fset f u i v).evts = s.evts ∧ (s.fset f u i v).decks = s.decks ∧ (s.fset f u i v).execs = s.execs ∧
    (s.fset f u i v).startNo = s.startNo ∧ (s.fset f u i v).suspNo = s.suspNo ∧ (s.fset f u i v).pinHeld = s.pinHeld ∧
    (s.fset f u i v).dropLater = s.dropLater ∧ (s.fset f u i v).allocAt = s.allocAt ∧ (s.fset f u i v).chans = s.chans ∧
    (s.fset f u i v).thapWait = s.thapWait ∧ (s.fset f u i v).stepNo = s.stepNo ∧ (s.fset f u i v).attn = s.attn ∧
    (s.fset f u i v).accts = s.accts ∧ (s.fset f u i v).mons = s.mons ∧ (s.fset f u i v).margin = s.margin ∧
    (s.fset f u i v).ports = s.ports ∧ (s.fset f u i v).probes = s.probes ∧ (s.fset f u i v).cruiseAt = s.cruiseAt ∧
    (s.fset f u i v).routeImage = s.routeImage ∧ (s.fset f u i v).inbox = s.inbox ∧ (s.fset f u i v).sendCtx = s.sendCtx ∧
    (s.fset f u i v).recvCtx = s.recvCtx ∧ (s.fset f u i v).streamNo = s.streamNo ∧ (s.fset f u i v).syncAt = s.syncAt ∧
    (s.fset f u i v).tree = s.tree ∧ (s.fset f u i v).img = s.img ∧ (s.fset f u i v).fuses = s.fuses ∧
    (s.fset f u i v).boot = s.boot ∧ (s.fset f u i v).owner = s.owner ∧ (s.fset f u i v).power = s.power ∧
    (s.fset f u i v).pkg = s.pkg ∧ (s.fset f u i v).mgmt = s.mgmt := by
  and_intros <;> rfl

@[simp] theorem State.fsetAt_regs (f : Field) (u i sh v : Nat) : (s.fsetAt f u i sh v).regs = Tbl.put f.rst s.regs (f.key u i + sh) (v % 2 ^ f.w) := rfl

/-- `State.fsetAt` writes `regs` alone. -/
@[simp] theorem State.fsetAt_frame (f : Field) (u i sh v : Nat) :
    (s.fsetAt f u i sh v).pending = s.pending ∧ (s.fsetAt f u i sh v).time = s.time ∧
    (s.fsetAt f u i sh v).calendar = s.calendar ∧ (s.fsetAt f u i sh v).calPhase = s.calPhase ∧
    (s.fsetAt f u i sh v).slew = s.slew ∧ (s.fsetAt f u i sh v).stepped = s.stepped ∧
    (s.fsetAt f u i sh v).deckEver = s.deckEver ∧ (s.fsetAt f u i sh v).free = s.free ∧
    (s.fsetAt f u i sh v).halfW = s.halfW ∧ (s.fsetAt f u i sh v).halfR = s.halfR ∧
    (s.fsetAt f u i sh v).sealWide = s.sealWide ∧ (s.fsetAt f u i sh v).sealParts = s.sealParts ∧
    (s.fsetAt f u i sh v).mem = s.mem ∧ (s.fsetAt f u i sh v).chk = s.chk ∧ (s.fsetAt f u i sh v).prot = s.prot ∧
    (s.fsetAt f u i sh v).rsp = s.rsp ∧ (s.fsetAt f u i sh v).errQ = s.errQ ∧ (s.fsetAt f u i sh v).recCount = s.recCount ∧
    (s.fsetAt f u i sh v).vfQ = s.vfQ ∧ (s.fsetAt f u i sh v).ceSince = s.ceSince ∧ (s.fsetAt f u i sh v).ticks = s.ticks ∧
    (s.fsetAt f u i sh v).wbq = s.wbq ∧ (s.fsetAt f u i sh v).merge = s.merge ∧ (s.fsetAt f u i sh v).scrub = s.scrub ∧
    (s.fsetAt f u i sh v).halted = s.halted ∧ (s.fsetAt f u i sh v).msix = s.msix ∧
    (s.fsetAt f u i sh v).hostReads = s.hostReads ∧ (s.fsetAt f u i sh v).hostTag = s.hostTag ∧
    (s.fsetAt f u i sh v).tiles = s.tiles ∧ (s.fsetAt f u i sh v).arrs = s.arrs ∧ (s.fsetAt f u i sh v).thrs = s.thrs ∧
    (s.fsetAt f u i sh v).jobs = s.jobs ∧ (s.fsetAt f u i sh v).tags = s.tags ∧
    (s.fsetAt f u i sh v).tileSems = s.tileSems ∧ (s.fsetAt f u i sh v).parts = s.parts ∧
    (s.fsetAt f u i sh v).sems = s.sems ∧ (s.fsetAt f u i sh v).evts = s.evts ∧ (s.fsetAt f u i sh v).decks = s.decks ∧
    (s.fsetAt f u i sh v).execs = s.execs ∧ (s.fsetAt f u i sh v).startNo = s.startNo ∧
    (s.fsetAt f u i sh v).suspNo = s.suspNo ∧ (s.fsetAt f u i sh v).pinHeld = s.pinHeld ∧
    (s.fsetAt f u i sh v).dropLater = s.dropLater ∧ (s.fsetAt f u i sh v).allocAt = s.allocAt ∧
    (s.fsetAt f u i sh v).chans = s.chans ∧ (s.fsetAt f u i sh v).thapWait = s.thapWait ∧
    (s.fsetAt f u i sh v).stepNo = s.stepNo ∧ (s.fsetAt f u i sh v).attn = s.attn ∧ (s.fsetAt f u i sh v).accts = s.accts ∧
    (s.fsetAt f u i sh v).mons = s.mons ∧ (s.fsetAt f u i sh v).margin = s.margin ∧ (s.fsetAt f u i sh v).ports = s.ports ∧
    (s.fsetAt f u i sh v).probes = s.probes ∧ (s.fsetAt f u i sh v).cruiseAt = s.cruiseAt ∧
    (s.fsetAt f u i sh v).routeImage = s.routeImage ∧ (s.fsetAt f u i sh v).inbox = s.inbox ∧
    (s.fsetAt f u i sh v).sendCtx = s.sendCtx ∧ (s.fsetAt f u i sh v).recvCtx = s.recvCtx ∧
    (s.fsetAt f u i sh v).streamNo = s.streamNo ∧ (s.fsetAt f u i sh v).syncAt = s.syncAt ∧
    (s.fsetAt f u i sh v).tree = s.tree ∧ (s.fsetAt f u i sh v).img = s.img ∧ (s.fsetAt f u i sh v).fuses = s.fuses ∧
    (s.fsetAt f u i sh v).boot = s.boot ∧ (s.fsetAt f u i sh v).owner = s.owner ∧ (s.fsetAt f u i sh v).power = s.power ∧
    (s.fsetAt f u i sh v).pkg = s.pkg ∧ (s.fsetAt f u i sh v).mgmt = s.mgmt := by
  and_intros <;> rfl

@[simp] theorem State.onPart_parts (p : Nat) (f : Part → Part) : (s.onPart p f).parts = Tbl.upd {} s.parts p f := rfl

/-- `State.onPart` writes `parts` alone. -/
@[simp] theorem State.onPart_frame (p : Nat) (f : Part → Part) :
    (s.onPart p f).pending = s.pending ∧ (s.onPart p f).time = s.time ∧ (s.onPart p f).calendar = s.calendar ∧
    (s.onPart p f).calPhase = s.calPhase ∧ (s.onPart p f).slew = s.slew ∧ (s.onPart p f).stepped = s.stepped ∧
    (s.onPart p f).deckEver = s.deckEver ∧ (s.onPart p f).free = s.free ∧ (s.onPart p f).regs = s.regs ∧
    (s.onPart p f).halfW = s.halfW ∧ (s.onPart p f).halfR = s.halfR ∧ (s.onPart p f).sealWide = s.sealWide ∧
    (s.onPart p f).sealParts = s.sealParts ∧ (s.onPart p f).mem = s.mem ∧ (s.onPart p f).chk = s.chk ∧
    (s.onPart p f).prot = s.prot ∧ (s.onPart p f).rsp = s.rsp ∧ (s.onPart p f).errQ = s.errQ ∧
    (s.onPart p f).recCount = s.recCount ∧ (s.onPart p f).vfQ = s.vfQ ∧ (s.onPart p f).ceSince = s.ceSince ∧
    (s.onPart p f).ticks = s.ticks ∧ (s.onPart p f).wbq = s.wbq ∧ (s.onPart p f).merge = s.merge ∧
    (s.onPart p f).scrub = s.scrub ∧ (s.onPart p f).halted = s.halted ∧ (s.onPart p f).msix = s.msix ∧
    (s.onPart p f).hostReads = s.hostReads ∧ (s.onPart p f).hostTag = s.hostTag ∧ (s.onPart p f).tiles = s.tiles ∧
    (s.onPart p f).arrs = s.arrs ∧ (s.onPart p f).thrs = s.thrs ∧ (s.onPart p f).jobs = s.jobs ∧
    (s.onPart p f).tags = s.tags ∧ (s.onPart p f).tileSems = s.tileSems ∧ (s.onPart p f).sems = s.sems ∧
    (s.onPart p f).evts = s.evts ∧ (s.onPart p f).decks = s.decks ∧ (s.onPart p f).execs = s.execs ∧
    (s.onPart p f).startNo = s.startNo ∧ (s.onPart p f).suspNo = s.suspNo ∧ (s.onPart p f).pinHeld = s.pinHeld ∧
    (s.onPart p f).dropLater = s.dropLater ∧ (s.onPart p f).allocAt = s.allocAt ∧ (s.onPart p f).chans = s.chans ∧
    (s.onPart p f).thapWait = s.thapWait ∧ (s.onPart p f).stepNo = s.stepNo ∧ (s.onPart p f).attn = s.attn ∧
    (s.onPart p f).accts = s.accts ∧ (s.onPart p f).mons = s.mons ∧ (s.onPart p f).margin = s.margin ∧
    (s.onPart p f).ports = s.ports ∧ (s.onPart p f).probes = s.probes ∧ (s.onPart p f).cruiseAt = s.cruiseAt ∧
    (s.onPart p f).routeImage = s.routeImage ∧ (s.onPart p f).inbox = s.inbox ∧ (s.onPart p f).sendCtx = s.sendCtx ∧
    (s.onPart p f).recvCtx = s.recvCtx ∧ (s.onPart p f).streamNo = s.streamNo ∧ (s.onPart p f).syncAt = s.syncAt ∧
    (s.onPart p f).tree = s.tree ∧ (s.onPart p f).img = s.img ∧ (s.onPart p f).fuses = s.fuses ∧
    (s.onPart p f).boot = s.boot ∧ (s.onPart p f).owner = s.owner ∧ (s.onPart p f).power = s.power ∧
    (s.onPart p f).pkg = s.pkg ∧ (s.onPart p f).mgmt = s.mgmt := by
  and_intros <;> rfl

@[simp] theorem State.raise1_msix (port fn vec : Nat) : (s.raise1 port fn vec).msix = Tbl.upd {} s.msix (msixKey port fn vec) Msix.raise := rfl

/-- `State.raise1` writes `msix` alone. -/
@[simp] theorem State.raise1_frame (port fn vec : Nat) :
    (s.raise1 port fn vec).pending = s.pending ∧ (s.raise1 port fn vec).time = s.time ∧
    (s.raise1 port fn vec).calendar = s.calendar ∧ (s.raise1 port fn vec).calPhase = s.calPhase ∧
    (s.raise1 port fn vec).slew = s.slew ∧ (s.raise1 port fn vec).stepped = s.stepped ∧
    (s.raise1 port fn vec).deckEver = s.deckEver ∧ (s.raise1 port fn vec).free = s.free ∧
    (s.raise1 port fn vec).regs = s.regs ∧ (s.raise1 port fn vec).halfW = s.halfW ∧
    (s.raise1 port fn vec).halfR = s.halfR ∧ (s.raise1 port fn vec).sealWide = s.sealWide ∧
    (s.raise1 port fn vec).sealParts = s.sealParts ∧ (s.raise1 port fn vec).mem = s.mem ∧
    (s.raise1 port fn vec).chk = s.chk ∧ (s.raise1 port fn vec).prot = s.prot ∧ (s.raise1 port fn vec).rsp = s.rsp ∧
    (s.raise1 port fn vec).errQ = s.errQ ∧ (s.raise1 port fn vec).recCount = s.recCount ∧
    (s.raise1 port fn vec).vfQ = s.vfQ ∧ (s.raise1 port fn vec).ceSince = s.ceSince ∧
    (s.raise1 port fn vec).ticks = s.ticks ∧ (s.raise1 port fn vec).wbq = s.wbq ∧ (s.raise1 port fn vec).merge = s.merge ∧
    (s.raise1 port fn vec).scrub = s.scrub ∧ (s.raise1 port fn vec).halted = s.halted ∧
    (s.raise1 port fn vec).hostReads = s.hostReads ∧ (s.raise1 port fn vec).hostTag = s.hostTag ∧
    (s.raise1 port fn vec).tiles = s.tiles ∧ (s.raise1 port fn vec).arrs = s.arrs ∧ (s.raise1 port fn vec).thrs = s.thrs ∧
    (s.raise1 port fn vec).jobs = s.jobs ∧ (s.raise1 port fn vec).tags = s.tags ∧
    (s.raise1 port fn vec).tileSems = s.tileSems ∧ (s.raise1 port fn vec).parts = s.parts ∧
    (s.raise1 port fn vec).sems = s.sems ∧ (s.raise1 port fn vec).evts = s.evts ∧ (s.raise1 port fn vec).decks = s.decks ∧
    (s.raise1 port fn vec).execs = s.execs ∧ (s.raise1 port fn vec).startNo = s.startNo ∧
    (s.raise1 port fn vec).suspNo = s.suspNo ∧ (s.raise1 port fn vec).pinHeld = s.pinHeld ∧
    (s.raise1 port fn vec).dropLater = s.dropLater ∧ (s.raise1 port fn vec).allocAt = s.allocAt ∧
    (s.raise1 port fn vec).chans = s.chans ∧ (s.raise1 port fn vec).thapWait = s.thapWait ∧
    (s.raise1 port fn vec).stepNo = s.stepNo ∧ (s.raise1 port fn vec).attn = s.attn ∧
    (s.raise1 port fn vec).accts = s.accts ∧ (s.raise1 port fn vec).mons = s.mons ∧
    (s.raise1 port fn vec).margin = s.margin ∧ (s.raise1 port fn vec).ports = s.ports ∧
    (s.raise1 port fn vec).probes = s.probes ∧ (s.raise1 port fn vec).cruiseAt = s.cruiseAt ∧
    (s.raise1 port fn vec).routeImage = s.routeImage ∧ (s.raise1 port fn vec).inbox = s.inbox ∧
    (s.raise1 port fn vec).sendCtx = s.sendCtx ∧ (s.raise1 port fn vec).recvCtx = s.recvCtx ∧
    (s.raise1 port fn vec).streamNo = s.streamNo ∧ (s.raise1 port fn vec).syncAt = s.syncAt ∧
    (s.raise1 port fn vec).tree = s.tree ∧ (s.raise1 port fn vec).img = s.img ∧ (s.raise1 port fn vec).fuses = s.fuses ∧
    (s.raise1 port fn vec).boot = s.boot ∧ (s.raise1 port fn vec).owner = s.owner ∧
    (s.raise1 port fn vec).power = s.power ∧ (s.raise1 port fn vec).pkg = s.pkg ∧ (s.raise1 port fn vec).mgmt = s.mgmt := by
  and_intros <;> rfl

@[simp] theorem State.poke_mem (k : Nat) (bs : List Byte) : (s.poke k bs).mem = writeBytes s.mem k bs := rfl

/-- `State.poke` writes `mem` alone. -/
@[simp] theorem State.poke_frame (k : Nat) (bs : List Byte) :
    (s.poke k bs).pending = s.pending ∧ (s.poke k bs).time = s.time ∧ (s.poke k bs).calendar = s.calendar ∧
    (s.poke k bs).calPhase = s.calPhase ∧ (s.poke k bs).slew = s.slew ∧ (s.poke k bs).stepped = s.stepped ∧
    (s.poke k bs).deckEver = s.deckEver ∧ (s.poke k bs).free = s.free ∧ (s.poke k bs).regs = s.regs ∧
    (s.poke k bs).halfW = s.halfW ∧ (s.poke k bs).halfR = s.halfR ∧ (s.poke k bs).sealWide = s.sealWide ∧
    (s.poke k bs).sealParts = s.sealParts ∧ (s.poke k bs).chk = s.chk ∧ (s.poke k bs).prot = s.prot ∧
    (s.poke k bs).rsp = s.rsp ∧ (s.poke k bs).errQ = s.errQ ∧ (s.poke k bs).recCount = s.recCount ∧
    (s.poke k bs).vfQ = s.vfQ ∧ (s.poke k bs).ceSince = s.ceSince ∧ (s.poke k bs).ticks = s.ticks ∧
    (s.poke k bs).wbq = s.wbq ∧ (s.poke k bs).merge = s.merge ∧ (s.poke k bs).scrub = s.scrub ∧
    (s.poke k bs).halted = s.halted ∧ (s.poke k bs).msix = s.msix ∧ (s.poke k bs).hostReads = s.hostReads ∧
    (s.poke k bs).hostTag = s.hostTag ∧ (s.poke k bs).tiles = s.tiles ∧ (s.poke k bs).arrs = s.arrs ∧
    (s.poke k bs).thrs = s.thrs ∧ (s.poke k bs).jobs = s.jobs ∧ (s.poke k bs).tags = s.tags ∧
    (s.poke k bs).tileSems = s.tileSems ∧ (s.poke k bs).parts = s.parts ∧ (s.poke k bs).sems = s.sems ∧
    (s.poke k bs).evts = s.evts ∧ (s.poke k bs).decks = s.decks ∧ (s.poke k bs).execs = s.execs ∧
    (s.poke k bs).startNo = s.startNo ∧ (s.poke k bs).suspNo = s.suspNo ∧ (s.poke k bs).pinHeld = s.pinHeld ∧
    (s.poke k bs).dropLater = s.dropLater ∧ (s.poke k bs).allocAt = s.allocAt ∧ (s.poke k bs).chans = s.chans ∧
    (s.poke k bs).thapWait = s.thapWait ∧ (s.poke k bs).stepNo = s.stepNo ∧ (s.poke k bs).attn = s.attn ∧
    (s.poke k bs).accts = s.accts ∧ (s.poke k bs).mons = s.mons ∧ (s.poke k bs).margin = s.margin ∧
    (s.poke k bs).ports = s.ports ∧ (s.poke k bs).probes = s.probes ∧ (s.poke k bs).cruiseAt = s.cruiseAt ∧
    (s.poke k bs).routeImage = s.routeImage ∧ (s.poke k bs).inbox = s.inbox ∧ (s.poke k bs).sendCtx = s.sendCtx ∧
    (s.poke k bs).recvCtx = s.recvCtx ∧ (s.poke k bs).streamNo = s.streamNo ∧ (s.poke k bs).syncAt = s.syncAt ∧
    (s.poke k bs).tree = s.tree ∧ (s.poke k bs).img = s.img ∧ (s.poke k bs).fuses = s.fuses ∧ (s.poke k bs).boot = s.boot ∧
    (s.poke k bs).owner = s.owner ∧ (s.poke k bs).power = s.power ∧ (s.poke k bs).pkg = s.pkg ∧
    (s.poke k bs).mgmt = s.mgmt := by
  and_intros <;> rfl

@[simp] theorem State.setDelta_chk (k d : Nat) : (s.setDelta k d).chk = Tbl.put 0 s.chk k d := rfl

/-- `State.setDelta` writes `chk` alone. -/
@[simp] theorem State.setDelta_frame (k d : Nat) :
    (s.setDelta k d).pending = s.pending ∧ (s.setDelta k d).time = s.time ∧ (s.setDelta k d).calendar = s.calendar ∧
    (s.setDelta k d).calPhase = s.calPhase ∧ (s.setDelta k d).slew = s.slew ∧ (s.setDelta k d).stepped = s.stepped ∧
    (s.setDelta k d).deckEver = s.deckEver ∧ (s.setDelta k d).free = s.free ∧ (s.setDelta k d).regs = s.regs ∧
    (s.setDelta k d).halfW = s.halfW ∧ (s.setDelta k d).halfR = s.halfR ∧ (s.setDelta k d).sealWide = s.sealWide ∧
    (s.setDelta k d).sealParts = s.sealParts ∧ (s.setDelta k d).mem = s.mem ∧ (s.setDelta k d).prot = s.prot ∧
    (s.setDelta k d).rsp = s.rsp ∧ (s.setDelta k d).errQ = s.errQ ∧ (s.setDelta k d).recCount = s.recCount ∧
    (s.setDelta k d).vfQ = s.vfQ ∧ (s.setDelta k d).ceSince = s.ceSince ∧ (s.setDelta k d).ticks = s.ticks ∧
    (s.setDelta k d).wbq = s.wbq ∧ (s.setDelta k d).merge = s.merge ∧ (s.setDelta k d).scrub = s.scrub ∧
    (s.setDelta k d).halted = s.halted ∧ (s.setDelta k d).msix = s.msix ∧ (s.setDelta k d).hostReads = s.hostReads ∧
    (s.setDelta k d).hostTag = s.hostTag ∧ (s.setDelta k d).tiles = s.tiles ∧ (s.setDelta k d).arrs = s.arrs ∧
    (s.setDelta k d).thrs = s.thrs ∧ (s.setDelta k d).jobs = s.jobs ∧ (s.setDelta k d).tags = s.tags ∧
    (s.setDelta k d).tileSems = s.tileSems ∧ (s.setDelta k d).parts = s.parts ∧ (s.setDelta k d).sems = s.sems ∧
    (s.setDelta k d).evts = s.evts ∧ (s.setDelta k d).decks = s.decks ∧ (s.setDelta k d).execs = s.execs ∧
    (s.setDelta k d).startNo = s.startNo ∧ (s.setDelta k d).suspNo = s.suspNo ∧ (s.setDelta k d).pinHeld = s.pinHeld ∧
    (s.setDelta k d).dropLater = s.dropLater ∧ (s.setDelta k d).allocAt = s.allocAt ∧ (s.setDelta k d).chans = s.chans ∧
    (s.setDelta k d).thapWait = s.thapWait ∧ (s.setDelta k d).stepNo = s.stepNo ∧ (s.setDelta k d).attn = s.attn ∧
    (s.setDelta k d).accts = s.accts ∧ (s.setDelta k d).mons = s.mons ∧ (s.setDelta k d).margin = s.margin ∧
    (s.setDelta k d).ports = s.ports ∧ (s.setDelta k d).probes = s.probes ∧ (s.setDelta k d).cruiseAt = s.cruiseAt ∧
    (s.setDelta k d).routeImage = s.routeImage ∧ (s.setDelta k d).inbox = s.inbox ∧ (s.setDelta k d).sendCtx = s.sendCtx ∧
    (s.setDelta k d).recvCtx = s.recvCtx ∧ (s.setDelta k d).streamNo = s.streamNo ∧ (s.setDelta k d).syncAt = s.syncAt ∧
    (s.setDelta k d).tree = s.tree ∧ (s.setDelta k d).img = s.img ∧ (s.setDelta k d).fuses = s.fuses ∧
    (s.setDelta k d).boot = s.boot ∧ (s.setDelta k d).owner = s.owner ∧ (s.setDelta k d).power = s.power ∧
    (s.setDelta k d).pkg = s.pkg ∧ (s.setDelta k d).mgmt = s.mgmt := by
  and_intros <;> rfl

@[simp] theorem State.zero_mem (k n : Nat) : (s.zero k n).mem = Tbl.clearRange s.mem k n := rfl

@[simp] theorem State.zero_chk (k n : Nat) : (s.zero k n).chk = Tbl.clearRange s.chk k n := rfl

/-- `State.zero` writes `mem` and `chk` and `wbq` alone. -/
@[simp] theorem State.zero_frame (k n : Nat) :
    (s.zero k n).pending = s.pending ∧ (s.zero k n).time = s.time ∧ (s.zero k n).calendar = s.calendar ∧
    (s.zero k n).calPhase = s.calPhase ∧ (s.zero k n).slew = s.slew ∧ (s.zero k n).stepped = s.stepped ∧
    (s.zero k n).deckEver = s.deckEver ∧ (s.zero k n).free = s.free ∧ (s.zero k n).regs = s.regs ∧
    (s.zero k n).halfW = s.halfW ∧ (s.zero k n).halfR = s.halfR ∧ (s.zero k n).sealWide = s.sealWide ∧
    (s.zero k n).sealParts = s.sealParts ∧ (s.zero k n).prot = s.prot ∧ (s.zero k n).rsp = s.rsp ∧
    (s.zero k n).errQ = s.errQ ∧ (s.zero k n).recCount = s.recCount ∧ (s.zero k n).vfQ = s.vfQ ∧
    (s.zero k n).ceSince = s.ceSince ∧ (s.zero k n).ticks = s.ticks ∧ (s.zero k n).merge = s.merge ∧
    (s.zero k n).scrub = s.scrub ∧ (s.zero k n).halted = s.halted ∧ (s.zero k n).msix = s.msix ∧
    (s.zero k n).hostReads = s.hostReads ∧ (s.zero k n).hostTag = s.hostTag ∧ (s.zero k n).tiles = s.tiles ∧
    (s.zero k n).arrs = s.arrs ∧ (s.zero k n).thrs = s.thrs ∧ (s.zero k n).jobs = s.jobs ∧ (s.zero k n).tags = s.tags ∧
    (s.zero k n).tileSems = s.tileSems ∧ (s.zero k n).parts = s.parts ∧ (s.zero k n).sems = s.sems ∧
    (s.zero k n).evts = s.evts ∧ (s.zero k n).decks = s.decks ∧ (s.zero k n).execs = s.execs ∧
    (s.zero k n).startNo = s.startNo ∧ (s.zero k n).suspNo = s.suspNo ∧ (s.zero k n).pinHeld = s.pinHeld ∧
    (s.zero k n).dropLater = s.dropLater ∧ (s.zero k n).allocAt = s.allocAt ∧ (s.zero k n).chans = s.chans ∧
    (s.zero k n).thapWait = s.thapWait ∧ (s.zero k n).stepNo = s.stepNo ∧ (s.zero k n).attn = s.attn ∧
    (s.zero k n).accts = s.accts ∧ (s.zero k n).mons = s.mons ∧ (s.zero k n).margin = s.margin ∧
    (s.zero k n).ports = s.ports ∧ (s.zero k n).probes = s.probes ∧ (s.zero k n).cruiseAt = s.cruiseAt ∧
    (s.zero k n).routeImage = s.routeImage ∧ (s.zero k n).inbox = s.inbox ∧ (s.zero k n).sendCtx = s.sendCtx ∧
    (s.zero k n).recvCtx = s.recvCtx ∧ (s.zero k n).streamNo = s.streamNo ∧ (s.zero k n).syncAt = s.syncAt ∧
    (s.zero k n).tree = s.tree ∧ (s.zero k n).img = s.img ∧ (s.zero k n).fuses = s.fuses ∧ (s.zero k n).boot = s.boot ∧
    (s.zero k n).owner = s.owner ∧ (s.zero k n).power = s.power ∧ (s.zero k n).pkg = s.pkg ∧
    (s.zero k n).mgmt = s.mgmt := by
  and_intros <;> rfl

@[simp] theorem State.answer_rsp (k : RespKind) (d : List Byte) : (s.answer k d).rsp = ⟨k, d⟩ := rfl

/-- `State.answer` writes `rsp` alone. -/
@[simp] theorem State.answer_frame (k : RespKind) (d : List Byte) :
    (s.answer k d).pending = s.pending ∧ (s.answer k d).time = s.time ∧ (s.answer k d).calendar = s.calendar ∧
    (s.answer k d).calPhase = s.calPhase ∧ (s.answer k d).slew = s.slew ∧ (s.answer k d).stepped = s.stepped ∧
    (s.answer k d).deckEver = s.deckEver ∧ (s.answer k d).free = s.free ∧ (s.answer k d).regs = s.regs ∧
    (s.answer k d).halfW = s.halfW ∧ (s.answer k d).halfR = s.halfR ∧ (s.answer k d).sealWide = s.sealWide ∧
    (s.answer k d).sealParts = s.sealParts ∧ (s.answer k d).mem = s.mem ∧ (s.answer k d).chk = s.chk ∧
    (s.answer k d).prot = s.prot ∧ (s.answer k d).errQ = s.errQ ∧ (s.answer k d).recCount = s.recCount ∧
    (s.answer k d).vfQ = s.vfQ ∧ (s.answer k d).ceSince = s.ceSince ∧ (s.answer k d).ticks = s.ticks ∧
    (s.answer k d).wbq = s.wbq ∧ (s.answer k d).merge = s.merge ∧ (s.answer k d).scrub = s.scrub ∧
    (s.answer k d).halted = s.halted ∧ (s.answer k d).msix = s.msix ∧ (s.answer k d).hostReads = s.hostReads ∧
    (s.answer k d).hostTag = s.hostTag ∧ (s.answer k d).tiles = s.tiles ∧ (s.answer k d).arrs = s.arrs ∧
    (s.answer k d).thrs = s.thrs ∧ (s.answer k d).jobs = s.jobs ∧ (s.answer k d).tags = s.tags ∧
    (s.answer k d).tileSems = s.tileSems ∧ (s.answer k d).parts = s.parts ∧ (s.answer k d).sems = s.sems ∧
    (s.answer k d).evts = s.evts ∧ (s.answer k d).decks = s.decks ∧ (s.answer k d).execs = s.execs ∧
    (s.answer k d).startNo = s.startNo ∧ (s.answer k d).suspNo = s.suspNo ∧ (s.answer k d).pinHeld = s.pinHeld ∧
    (s.answer k d).dropLater = s.dropLater ∧ (s.answer k d).allocAt = s.allocAt ∧ (s.answer k d).chans = s.chans ∧
    (s.answer k d).thapWait = s.thapWait ∧ (s.answer k d).stepNo = s.stepNo ∧ (s.answer k d).attn = s.attn ∧
    (s.answer k d).accts = s.accts ∧ (s.answer k d).mons = s.mons ∧ (s.answer k d).margin = s.margin ∧
    (s.answer k d).ports = s.ports ∧ (s.answer k d).probes = s.probes ∧ (s.answer k d).cruiseAt = s.cruiseAt ∧
    (s.answer k d).routeImage = s.routeImage ∧ (s.answer k d).inbox = s.inbox ∧ (s.answer k d).sendCtx = s.sendCtx ∧
    (s.answer k d).recvCtx = s.recvCtx ∧ (s.answer k d).streamNo = s.streamNo ∧ (s.answer k d).syncAt = s.syncAt ∧
    (s.answer k d).tree = s.tree ∧ (s.answer k d).img = s.img ∧ (s.answer k d).fuses = s.fuses ∧
    (s.answer k d).boot = s.boot ∧ (s.answer k d).owner = s.owner ∧ (s.answer k d).power = s.power ∧
    (s.answer k d).pkg = s.pkg ∧ (s.answer k d).mgmt = s.mgmt := by
  and_intros <;> rfl

@[simp] theorem State.draw_free : (s.draw).free = s.free + 1 := rfl

/-- `State.draw` writes `free` alone. -/
@[simp] theorem State.draw_frame :
    (s.draw).pending = s.pending ∧ (s.draw).time = s.time ∧ (s.draw).calendar = s.calendar ∧
    (s.draw).calPhase = s.calPhase ∧ (s.draw).slew = s.slew ∧ (s.draw).stepped = s.stepped ∧
    (s.draw).deckEver = s.deckEver ∧ (s.draw).regs = s.regs ∧ (s.draw).halfW = s.halfW ∧ (s.draw).halfR = s.halfR ∧
    (s.draw).sealWide = s.sealWide ∧ (s.draw).sealParts = s.sealParts ∧ (s.draw).mem = s.mem ∧ (s.draw).chk = s.chk ∧
    (s.draw).prot = s.prot ∧ (s.draw).rsp = s.rsp ∧ (s.draw).errQ = s.errQ ∧ (s.draw).recCount = s.recCount ∧
    (s.draw).vfQ = s.vfQ ∧ (s.draw).ceSince = s.ceSince ∧ (s.draw).ticks = s.ticks ∧ (s.draw).wbq = s.wbq ∧
    (s.draw).merge = s.merge ∧ (s.draw).scrub = s.scrub ∧ (s.draw).halted = s.halted ∧ (s.draw).msix = s.msix ∧
    (s.draw).hostReads = s.hostReads ∧ (s.draw).hostTag = s.hostTag ∧ (s.draw).tiles = s.tiles ∧ (s.draw).arrs = s.arrs ∧
    (s.draw).thrs = s.thrs ∧ (s.draw).jobs = s.jobs ∧ (s.draw).tags = s.tags ∧ (s.draw).tileSems = s.tileSems ∧
    (s.draw).parts = s.parts ∧ (s.draw).sems = s.sems ∧ (s.draw).evts = s.evts ∧ (s.draw).decks = s.decks ∧
    (s.draw).execs = s.execs ∧ (s.draw).startNo = s.startNo ∧ (s.draw).suspNo = s.suspNo ∧ (s.draw).pinHeld = s.pinHeld ∧
    (s.draw).dropLater = s.dropLater ∧ (s.draw).allocAt = s.allocAt ∧ (s.draw).chans = s.chans ∧
    (s.draw).thapWait = s.thapWait ∧ (s.draw).stepNo = s.stepNo ∧ (s.draw).attn = s.attn ∧ (s.draw).accts = s.accts ∧
    (s.draw).mons = s.mons ∧ (s.draw).margin = s.margin ∧ (s.draw).ports = s.ports ∧ (s.draw).probes = s.probes ∧
    (s.draw).cruiseAt = s.cruiseAt ∧ (s.draw).routeImage = s.routeImage ∧ (s.draw).inbox = s.inbox ∧
    (s.draw).sendCtx = s.sendCtx ∧ (s.draw).recvCtx = s.recvCtx ∧ (s.draw).streamNo = s.streamNo ∧
    (s.draw).syncAt = s.syncAt ∧ (s.draw).tree = s.tree ∧ (s.draw).img = s.img ∧ (s.draw).fuses = s.fuses ∧
    (s.draw).boot = s.boot ∧ (s.draw).owner = s.owner ∧ (s.draw).power = s.power ∧ (s.draw).pkg = s.pkg ∧
    (s.draw).mgmt = s.mgmt := by
  and_intros <;> rfl

@[simp] theorem State.onTile_tiles (j : Nat) (f : Tile → Tile) : (s.onTile j f).tiles = Tbl.upd {} s.tiles j f := rfl

/-- `State.onTile` writes `tiles` alone. -/
@[simp] theorem State.onTile_frame (j : Nat) (f : Tile → Tile) :
    (s.onTile j f).pending = s.pending ∧ (s.onTile j f).time = s.time ∧ (s.onTile j f).calendar = s.calendar ∧
    (s.onTile j f).calPhase = s.calPhase ∧ (s.onTile j f).slew = s.slew ∧ (s.onTile j f).stepped = s.stepped ∧
    (s.onTile j f).deckEver = s.deckEver ∧ (s.onTile j f).free = s.free ∧ (s.onTile j f).regs = s.regs ∧
    (s.onTile j f).halfW = s.halfW ∧ (s.onTile j f).halfR = s.halfR ∧ (s.onTile j f).sealWide = s.sealWide ∧
    (s.onTile j f).sealParts = s.sealParts ∧ (s.onTile j f).mem = s.mem ∧ (s.onTile j f).chk = s.chk ∧
    (s.onTile j f).prot = s.prot ∧ (s.onTile j f).rsp = s.rsp ∧ (s.onTile j f).errQ = s.errQ ∧
    (s.onTile j f).recCount = s.recCount ∧ (s.onTile j f).vfQ = s.vfQ ∧ (s.onTile j f).ceSince = s.ceSince ∧
    (s.onTile j f).ticks = s.ticks ∧ (s.onTile j f).wbq = s.wbq ∧ (s.onTile j f).merge = s.merge ∧
    (s.onTile j f).scrub = s.scrub ∧ (s.onTile j f).halted = s.halted ∧ (s.onTile j f).msix = s.msix ∧
    (s.onTile j f).hostReads = s.hostReads ∧ (s.onTile j f).hostTag = s.hostTag ∧ (s.onTile j f).arrs = s.arrs ∧
    (s.onTile j f).thrs = s.thrs ∧ (s.onTile j f).jobs = s.jobs ∧ (s.onTile j f).tags = s.tags ∧
    (s.onTile j f).tileSems = s.tileSems ∧ (s.onTile j f).parts = s.parts ∧ (s.onTile j f).sems = s.sems ∧
    (s.onTile j f).evts = s.evts ∧ (s.onTile j f).decks = s.decks ∧ (s.onTile j f).execs = s.execs ∧
    (s.onTile j f).startNo = s.startNo ∧ (s.onTile j f).suspNo = s.suspNo ∧ (s.onTile j f).pinHeld = s.pinHeld ∧
    (s.onTile j f).dropLater = s.dropLater ∧ (s.onTile j f).allocAt = s.allocAt ∧ (s.onTile j f).chans = s.chans ∧
    (s.onTile j f).thapWait = s.thapWait ∧ (s.onTile j f).stepNo = s.stepNo ∧ (s.onTile j f).attn = s.attn ∧
    (s.onTile j f).accts = s.accts ∧ (s.onTile j f).mons = s.mons ∧ (s.onTile j f).margin = s.margin ∧
    (s.onTile j f).ports = s.ports ∧ (s.onTile j f).probes = s.probes ∧ (s.onTile j f).cruiseAt = s.cruiseAt ∧
    (s.onTile j f).routeImage = s.routeImage ∧ (s.onTile j f).inbox = s.inbox ∧ (s.onTile j f).sendCtx = s.sendCtx ∧
    (s.onTile j f).recvCtx = s.recvCtx ∧ (s.onTile j f).streamNo = s.streamNo ∧ (s.onTile j f).syncAt = s.syncAt ∧
    (s.onTile j f).tree = s.tree ∧ (s.onTile j f).img = s.img ∧ (s.onTile j f).fuses = s.fuses ∧
    (s.onTile j f).boot = s.boot ∧ (s.onTile j f).owner = s.owner ∧ (s.onTile j f).power = s.power ∧
    (s.onTile j f).pkg = s.pkg ∧ (s.onTile j f).mgmt = s.mgmt := by
  and_intros <;> rfl

@[simp] theorem State.onThr_thrs (j l t : Nat) (f : Thr → Thr) : (s.onThr j l t f).thrs = Tbl.upd {} s.thrs (thrKey j l t) f := rfl

/-- `State.onThr` writes `thrs` alone. -/
@[simp] theorem State.onThr_frame (j l t : Nat) (f : Thr → Thr) :
    (s.onThr j l t f).pending = s.pending ∧ (s.onThr j l t f).time = s.time ∧ (s.onThr j l t f).calendar = s.calendar ∧
    (s.onThr j l t f).calPhase = s.calPhase ∧ (s.onThr j l t f).slew = s.slew ∧ (s.onThr j l t f).stepped = s.stepped ∧
    (s.onThr j l t f).deckEver = s.deckEver ∧ (s.onThr j l t f).free = s.free ∧ (s.onThr j l t f).regs = s.regs ∧
    (s.onThr j l t f).halfW = s.halfW ∧ (s.onThr j l t f).halfR = s.halfR ∧ (s.onThr j l t f).sealWide = s.sealWide ∧
    (s.onThr j l t f).sealParts = s.sealParts ∧ (s.onThr j l t f).mem = s.mem ∧ (s.onThr j l t f).chk = s.chk ∧
    (s.onThr j l t f).prot = s.prot ∧ (s.onThr j l t f).rsp = s.rsp ∧ (s.onThr j l t f).errQ = s.errQ ∧
    (s.onThr j l t f).recCount = s.recCount ∧ (s.onThr j l t f).vfQ = s.vfQ ∧ (s.onThr j l t f).ceSince = s.ceSince ∧
    (s.onThr j l t f).ticks = s.ticks ∧ (s.onThr j l t f).wbq = s.wbq ∧ (s.onThr j l t f).merge = s.merge ∧
    (s.onThr j l t f).scrub = s.scrub ∧ (s.onThr j l t f).halted = s.halted ∧ (s.onThr j l t f).msix = s.msix ∧
    (s.onThr j l t f).hostReads = s.hostReads ∧ (s.onThr j l t f).hostTag = s.hostTag ∧ (s.onThr j l t f).tiles = s.tiles ∧
    (s.onThr j l t f).arrs = s.arrs ∧ (s.onThr j l t f).jobs = s.jobs ∧ (s.onThr j l t f).tags = s.tags ∧
    (s.onThr j l t f).tileSems = s.tileSems ∧ (s.onThr j l t f).parts = s.parts ∧ (s.onThr j l t f).sems = s.sems ∧
    (s.onThr j l t f).evts = s.evts ∧ (s.onThr j l t f).decks = s.decks ∧ (s.onThr j l t f).execs = s.execs ∧
    (s.onThr j l t f).startNo = s.startNo ∧ (s.onThr j l t f).suspNo = s.suspNo ∧ (s.onThr j l t f).pinHeld = s.pinHeld ∧
    (s.onThr j l t f).dropLater = s.dropLater ∧ (s.onThr j l t f).allocAt = s.allocAt ∧ (s.onThr j l t f).chans = s.chans ∧
    (s.onThr j l t f).thapWait = s.thapWait ∧ (s.onThr j l t f).stepNo = s.stepNo ∧ (s.onThr j l t f).attn = s.attn ∧
    (s.onThr j l t f).accts = s.accts ∧ (s.onThr j l t f).mons = s.mons ∧ (s.onThr j l t f).margin = s.margin ∧
    (s.onThr j l t f).ports = s.ports ∧ (s.onThr j l t f).probes = s.probes ∧ (s.onThr j l t f).cruiseAt = s.cruiseAt ∧
    (s.onThr j l t f).routeImage = s.routeImage ∧ (s.onThr j l t f).inbox = s.inbox ∧
    (s.onThr j l t f).sendCtx = s.sendCtx ∧ (s.onThr j l t f).recvCtx = s.recvCtx ∧
    (s.onThr j l t f).streamNo = s.streamNo ∧ (s.onThr j l t f).syncAt = s.syncAt ∧ (s.onThr j l t f).tree = s.tree ∧
    (s.onThr j l t f).img = s.img ∧ (s.onThr j l t f).fuses = s.fuses ∧ (s.onThr j l t f).boot = s.boot ∧
    (s.onThr j l t f).owner = s.owner ∧ (s.onThr j l t f).power = s.power ∧ (s.onThr j l t f).pkg = s.pkg ∧
    (s.onThr j l t f).mgmt = s.mgmt := by
  and_intros <;> rfl

@[simp] theorem State.onArr_arrs (j a : Nat) (f : Arr → Arr) : (s.onArr j a f).arrs = Tbl.upd {} s.arrs (j * 4 + a) f := rfl

/-- `State.onArr` writes `arrs` alone. -/
@[simp] theorem State.onArr_frame (j a : Nat) (f : Arr → Arr) :
    (s.onArr j a f).pending = s.pending ∧ (s.onArr j a f).time = s.time ∧ (s.onArr j a f).calendar = s.calendar ∧
    (s.onArr j a f).calPhase = s.calPhase ∧ (s.onArr j a f).slew = s.slew ∧ (s.onArr j a f).stepped = s.stepped ∧
    (s.onArr j a f).deckEver = s.deckEver ∧ (s.onArr j a f).free = s.free ∧ (s.onArr j a f).regs = s.regs ∧
    (s.onArr j a f).halfW = s.halfW ∧ (s.onArr j a f).halfR = s.halfR ∧ (s.onArr j a f).sealWide = s.sealWide ∧
    (s.onArr j a f).sealParts = s.sealParts ∧ (s.onArr j a f).mem = s.mem ∧ (s.onArr j a f).chk = s.chk ∧
    (s.onArr j a f).prot = s.prot ∧ (s.onArr j a f).rsp = s.rsp ∧ (s.onArr j a f).errQ = s.errQ ∧
    (s.onArr j a f).recCount = s.recCount ∧ (s.onArr j a f).vfQ = s.vfQ ∧ (s.onArr j a f).ceSince = s.ceSince ∧
    (s.onArr j a f).ticks = s.ticks ∧ (s.onArr j a f).wbq = s.wbq ∧ (s.onArr j a f).merge = s.merge ∧
    (s.onArr j a f).scrub = s.scrub ∧ (s.onArr j a f).halted = s.halted ∧ (s.onArr j a f).msix = s.msix ∧
    (s.onArr j a f).hostReads = s.hostReads ∧ (s.onArr j a f).hostTag = s.hostTag ∧ (s.onArr j a f).tiles = s.tiles ∧
    (s.onArr j a f).thrs = s.thrs ∧ (s.onArr j a f).jobs = s.jobs ∧ (s.onArr j a f).tags = s.tags ∧
    (s.onArr j a f).tileSems = s.tileSems ∧ (s.onArr j a f).parts = s.parts ∧ (s.onArr j a f).sems = s.sems ∧
    (s.onArr j a f).evts = s.evts ∧ (s.onArr j a f).decks = s.decks ∧ (s.onArr j a f).execs = s.execs ∧
    (s.onArr j a f).startNo = s.startNo ∧ (s.onArr j a f).suspNo = s.suspNo ∧ (s.onArr j a f).pinHeld = s.pinHeld ∧
    (s.onArr j a f).dropLater = s.dropLater ∧ (s.onArr j a f).allocAt = s.allocAt ∧ (s.onArr j a f).chans = s.chans ∧
    (s.onArr j a f).thapWait = s.thapWait ∧ (s.onArr j a f).stepNo = s.stepNo ∧ (s.onArr j a f).attn = s.attn ∧
    (s.onArr j a f).accts = s.accts ∧ (s.onArr j a f).mons = s.mons ∧ (s.onArr j a f).margin = s.margin ∧
    (s.onArr j a f).ports = s.ports ∧ (s.onArr j a f).probes = s.probes ∧ (s.onArr j a f).cruiseAt = s.cruiseAt ∧
    (s.onArr j a f).routeImage = s.routeImage ∧ (s.onArr j a f).inbox = s.inbox ∧ (s.onArr j a f).sendCtx = s.sendCtx ∧
    (s.onArr j a f).recvCtx = s.recvCtx ∧ (s.onArr j a f).streamNo = s.streamNo ∧ (s.onArr j a f).syncAt = s.syncAt ∧
    (s.onArr j a f).tree = s.tree ∧ (s.onArr j a f).img = s.img ∧ (s.onArr j a f).fuses = s.fuses ∧
    (s.onArr j a f).boot = s.boot ∧ (s.onArr j a f).owner = s.owner ∧ (s.onArr j a f).power = s.power ∧
    (s.onArr j a f).pkg = s.pkg ∧ (s.onArr j a f).mgmt = s.mgmt := by
  and_intros <;> rfl

@[simp] theorem State.setJob_jobs (j l a : Nat) (b : Option Job) : (s.setJob j l a b).jobs = Tbl.put none s.jobs (jobKey j l a) b := rfl

/-- `State.setJob` writes `jobs` alone. -/
@[simp] theorem State.setJob_frame (j l a : Nat) (b : Option Job) :
    (s.setJob j l a b).pending = s.pending ∧ (s.setJob j l a b).time = s.time ∧ (s.setJob j l a b).calendar = s.calendar ∧
    (s.setJob j l a b).calPhase = s.calPhase ∧ (s.setJob j l a b).slew = s.slew ∧ (s.setJob j l a b).stepped = s.stepped ∧
    (s.setJob j l a b).deckEver = s.deckEver ∧ (s.setJob j l a b).free = s.free ∧ (s.setJob j l a b).regs = s.regs ∧
    (s.setJob j l a b).halfW = s.halfW ∧ (s.setJob j l a b).halfR = s.halfR ∧ (s.setJob j l a b).sealWide = s.sealWide ∧
    (s.setJob j l a b).sealParts = s.sealParts ∧ (s.setJob j l a b).mem = s.mem ∧ (s.setJob j l a b).chk = s.chk ∧
    (s.setJob j l a b).prot = s.prot ∧ (s.setJob j l a b).rsp = s.rsp ∧ (s.setJob j l a b).errQ = s.errQ ∧
    (s.setJob j l a b).recCount = s.recCount ∧ (s.setJob j l a b).vfQ = s.vfQ ∧ (s.setJob j l a b).ceSince = s.ceSince ∧
    (s.setJob j l a b).ticks = s.ticks ∧ (s.setJob j l a b).wbq = s.wbq ∧ (s.setJob j l a b).merge = s.merge ∧
    (s.setJob j l a b).scrub = s.scrub ∧ (s.setJob j l a b).halted = s.halted ∧ (s.setJob j l a b).msix = s.msix ∧
    (s.setJob j l a b).hostReads = s.hostReads ∧ (s.setJob j l a b).hostTag = s.hostTag ∧
    (s.setJob j l a b).tiles = s.tiles ∧ (s.setJob j l a b).arrs = s.arrs ∧ (s.setJob j l a b).thrs = s.thrs ∧
    (s.setJob j l a b).tags = s.tags ∧ (s.setJob j l a b).tileSems = s.tileSems ∧ (s.setJob j l a b).parts = s.parts ∧
    (s.setJob j l a b).sems = s.sems ∧ (s.setJob j l a b).evts = s.evts ∧ (s.setJob j l a b).decks = s.decks ∧
    (s.setJob j l a b).execs = s.execs ∧ (s.setJob j l a b).startNo = s.startNo ∧ (s.setJob j l a b).suspNo = s.suspNo ∧
    (s.setJob j l a b).pinHeld = s.pinHeld ∧ (s.setJob j l a b).dropLater = s.dropLater ∧
    (s.setJob j l a b).allocAt = s.allocAt ∧ (s.setJob j l a b).chans = s.chans ∧
    (s.setJob j l a b).thapWait = s.thapWait ∧ (s.setJob j l a b).stepNo = s.stepNo ∧ (s.setJob j l a b).attn = s.attn ∧
    (s.setJob j l a b).accts = s.accts ∧ (s.setJob j l a b).mons = s.mons ∧ (s.setJob j l a b).margin = s.margin ∧
    (s.setJob j l a b).ports = s.ports ∧ (s.setJob j l a b).probes = s.probes ∧ (s.setJob j l a b).cruiseAt = s.cruiseAt ∧
    (s.setJob j l a b).routeImage = s.routeImage ∧ (s.setJob j l a b).inbox = s.inbox ∧
    (s.setJob j l a b).sendCtx = s.sendCtx ∧ (s.setJob j l a b).recvCtx = s.recvCtx ∧
    (s.setJob j l a b).streamNo = s.streamNo ∧ (s.setJob j l a b).syncAt = s.syncAt ∧ (s.setJob j l a b).tree = s.tree ∧
    (s.setJob j l a b).img = s.img ∧ (s.setJob j l a b).fuses = s.fuses ∧ (s.setJob j l a b).boot = s.boot ∧
    (s.setJob j l a b).owner = s.owner ∧ (s.setJob j l a b).power = s.power ∧ (s.setJob j l a b).pkg = s.pkg ∧
    (s.setJob j l a b).mgmt = s.mgmt := by
  and_intros <;> rfl

@[simp] theorem State.onTag_tags (j g : Nat) (f : Tag → Tag) : (s.onTag j g f).tags = Tbl.upd {} s.tags (j * 512 + g) f := rfl

/-- `State.onTag` writes `tags` alone. -/
@[simp] theorem State.onTag_frame (j g : Nat) (f : Tag → Tag) :
    (s.onTag j g f).pending = s.pending ∧ (s.onTag j g f).time = s.time ∧ (s.onTag j g f).calendar = s.calendar ∧
    (s.onTag j g f).calPhase = s.calPhase ∧ (s.onTag j g f).slew = s.slew ∧ (s.onTag j g f).stepped = s.stepped ∧
    (s.onTag j g f).deckEver = s.deckEver ∧ (s.onTag j g f).free = s.free ∧ (s.onTag j g f).regs = s.regs ∧
    (s.onTag j g f).halfW = s.halfW ∧ (s.onTag j g f).halfR = s.halfR ∧ (s.onTag j g f).sealWide = s.sealWide ∧
    (s.onTag j g f).sealParts = s.sealParts ∧ (s.onTag j g f).mem = s.mem ∧ (s.onTag j g f).chk = s.chk ∧
    (s.onTag j g f).prot = s.prot ∧ (s.onTag j g f).rsp = s.rsp ∧ (s.onTag j g f).errQ = s.errQ ∧
    (s.onTag j g f).recCount = s.recCount ∧ (s.onTag j g f).vfQ = s.vfQ ∧ (s.onTag j g f).ceSince = s.ceSince ∧
    (s.onTag j g f).ticks = s.ticks ∧ (s.onTag j g f).wbq = s.wbq ∧ (s.onTag j g f).merge = s.merge ∧
    (s.onTag j g f).scrub = s.scrub ∧ (s.onTag j g f).halted = s.halted ∧ (s.onTag j g f).msix = s.msix ∧
    (s.onTag j g f).hostReads = s.hostReads ∧ (s.onTag j g f).hostTag = s.hostTag ∧ (s.onTag j g f).tiles = s.tiles ∧
    (s.onTag j g f).arrs = s.arrs ∧ (s.onTag j g f).thrs = s.thrs ∧ (s.onTag j g f).jobs = s.jobs ∧
    (s.onTag j g f).tileSems = s.tileSems ∧ (s.onTag j g f).parts = s.parts ∧ (s.onTag j g f).sems = s.sems ∧
    (s.onTag j g f).evts = s.evts ∧ (s.onTag j g f).decks = s.decks ∧ (s.onTag j g f).execs = s.execs ∧
    (s.onTag j g f).startNo = s.startNo ∧ (s.onTag j g f).suspNo = s.suspNo ∧ (s.onTag j g f).pinHeld = s.pinHeld ∧
    (s.onTag j g f).dropLater = s.dropLater ∧ (s.onTag j g f).allocAt = s.allocAt ∧ (s.onTag j g f).chans = s.chans ∧
    (s.onTag j g f).thapWait = s.thapWait ∧ (s.onTag j g f).stepNo = s.stepNo ∧ (s.onTag j g f).attn = s.attn ∧
    (s.onTag j g f).accts = s.accts ∧ (s.onTag j g f).mons = s.mons ∧ (s.onTag j g f).margin = s.margin ∧
    (s.onTag j g f).ports = s.ports ∧ (s.onTag j g f).probes = s.probes ∧ (s.onTag j g f).cruiseAt = s.cruiseAt ∧
    (s.onTag j g f).routeImage = s.routeImage ∧ (s.onTag j g f).inbox = s.inbox ∧ (s.onTag j g f).sendCtx = s.sendCtx ∧
    (s.onTag j g f).recvCtx = s.recvCtx ∧ (s.onTag j g f).streamNo = s.streamNo ∧ (s.onTag j g f).syncAt = s.syncAt ∧
    (s.onTag j g f).tree = s.tree ∧ (s.onTag j g f).img = s.img ∧ (s.onTag j g f).fuses = s.fuses ∧
    (s.onTag j g f).boot = s.boot ∧ (s.onTag j g f).owner = s.owner ∧ (s.onTag j g f).power = s.power ∧
    (s.onTag j g f).pkg = s.pkg ∧ (s.onTag j g f).mgmt = s.mgmt := by
  and_intros <;> rfl

@[simp] theorem State.onExec_execs (p x : Nat) (f : Exec → Exec) : (s.onExec p x f).execs = Tbl.upd {} s.execs (s.execKey p x) f := rfl

/-- `State.onExec` writes `execs` alone. -/
@[simp] theorem State.onExec_frame (p x : Nat) (f : Exec → Exec) :
    (s.onExec p x f).pending = s.pending ∧ (s.onExec p x f).time = s.time ∧ (s.onExec p x f).calendar = s.calendar ∧
    (s.onExec p x f).calPhase = s.calPhase ∧ (s.onExec p x f).slew = s.slew ∧ (s.onExec p x f).stepped = s.stepped ∧
    (s.onExec p x f).deckEver = s.deckEver ∧ (s.onExec p x f).free = s.free ∧ (s.onExec p x f).regs = s.regs ∧
    (s.onExec p x f).halfW = s.halfW ∧ (s.onExec p x f).halfR = s.halfR ∧ (s.onExec p x f).sealWide = s.sealWide ∧
    (s.onExec p x f).sealParts = s.sealParts ∧ (s.onExec p x f).mem = s.mem ∧ (s.onExec p x f).chk = s.chk ∧
    (s.onExec p x f).prot = s.prot ∧ (s.onExec p x f).rsp = s.rsp ∧ (s.onExec p x f).errQ = s.errQ ∧
    (s.onExec p x f).recCount = s.recCount ∧ (s.onExec p x f).vfQ = s.vfQ ∧ (s.onExec p x f).ceSince = s.ceSince ∧
    (s.onExec p x f).ticks = s.ticks ∧ (s.onExec p x f).wbq = s.wbq ∧ (s.onExec p x f).merge = s.merge ∧
    (s.onExec p x f).scrub = s.scrub ∧ (s.onExec p x f).halted = s.halted ∧ (s.onExec p x f).msix = s.msix ∧
    (s.onExec p x f).hostReads = s.hostReads ∧ (s.onExec p x f).hostTag = s.hostTag ∧ (s.onExec p x f).tiles = s.tiles ∧
    (s.onExec p x f).arrs = s.arrs ∧ (s.onExec p x f).thrs = s.thrs ∧ (s.onExec p x f).jobs = s.jobs ∧
    (s.onExec p x f).tags = s.tags ∧ (s.onExec p x f).tileSems = s.tileSems ∧ (s.onExec p x f).parts = s.parts ∧
    (s.onExec p x f).sems = s.sems ∧ (s.onExec p x f).evts = s.evts ∧ (s.onExec p x f).decks = s.decks ∧
    (s.onExec p x f).startNo = s.startNo ∧ (s.onExec p x f).suspNo = s.suspNo ∧ (s.onExec p x f).pinHeld = s.pinHeld ∧
    (s.onExec p x f).dropLater = s.dropLater ∧ (s.onExec p x f).allocAt = s.allocAt ∧ (s.onExec p x f).chans = s.chans ∧
    (s.onExec p x f).thapWait = s.thapWait ∧ (s.onExec p x f).stepNo = s.stepNo ∧ (s.onExec p x f).attn = s.attn ∧
    (s.onExec p x f).accts = s.accts ∧ (s.onExec p x f).mons = s.mons ∧ (s.onExec p x f).margin = s.margin ∧
    (s.onExec p x f).ports = s.ports ∧ (s.onExec p x f).probes = s.probes ∧ (s.onExec p x f).cruiseAt = s.cruiseAt ∧
    (s.onExec p x f).routeImage = s.routeImage ∧ (s.onExec p x f).inbox = s.inbox ∧ (s.onExec p x f).sendCtx = s.sendCtx ∧
    (s.onExec p x f).recvCtx = s.recvCtx ∧ (s.onExec p x f).streamNo = s.streamNo ∧ (s.onExec p x f).syncAt = s.syncAt ∧
    (s.onExec p x f).tree = s.tree ∧ (s.onExec p x f).img = s.img ∧ (s.onExec p x f).fuses = s.fuses ∧
    (s.onExec p x f).boot = s.boot ∧ (s.onExec p x f).owner = s.owner ∧ (s.onExec p x f).power = s.power ∧
    (s.onExec p x f).pkg = s.pkg ∧ (s.onExec p x f).mgmt = s.mgmt := by
  and_intros <;> rfl

@[simp] theorem State.onDeck_decks (d : Nat) (f : Deck → Deck) : (s.onDeck d f).decks = Tbl.upd {} s.decks d f := rfl

/-- `State.onDeck` writes `decks` alone. -/
@[simp] theorem State.onDeck_frame (d : Nat) (f : Deck → Deck) :
    (s.onDeck d f).pending = s.pending ∧ (s.onDeck d f).time = s.time ∧ (s.onDeck d f).calendar = s.calendar ∧
    (s.onDeck d f).calPhase = s.calPhase ∧ (s.onDeck d f).slew = s.slew ∧ (s.onDeck d f).stepped = s.stepped ∧
    (s.onDeck d f).deckEver = s.deckEver ∧ (s.onDeck d f).free = s.free ∧ (s.onDeck d f).regs = s.regs ∧
    (s.onDeck d f).halfW = s.halfW ∧ (s.onDeck d f).halfR = s.halfR ∧ (s.onDeck d f).sealWide = s.sealWide ∧
    (s.onDeck d f).sealParts = s.sealParts ∧ (s.onDeck d f).mem = s.mem ∧ (s.onDeck d f).chk = s.chk ∧
    (s.onDeck d f).prot = s.prot ∧ (s.onDeck d f).rsp = s.rsp ∧ (s.onDeck d f).errQ = s.errQ ∧
    (s.onDeck d f).recCount = s.recCount ∧ (s.onDeck d f).vfQ = s.vfQ ∧ (s.onDeck d f).ceSince = s.ceSince ∧
    (s.onDeck d f).ticks = s.ticks ∧ (s.onDeck d f).wbq = s.wbq ∧ (s.onDeck d f).merge = s.merge ∧
    (s.onDeck d f).scrub = s.scrub ∧ (s.onDeck d f).halted = s.halted ∧ (s.onDeck d f).msix = s.msix ∧
    (s.onDeck d f).hostReads = s.hostReads ∧ (s.onDeck d f).hostTag = s.hostTag ∧ (s.onDeck d f).tiles = s.tiles ∧
    (s.onDeck d f).arrs = s.arrs ∧ (s.onDeck d f).thrs = s.thrs ∧ (s.onDeck d f).jobs = s.jobs ∧
    (s.onDeck d f).tags = s.tags ∧ (s.onDeck d f).tileSems = s.tileSems ∧ (s.onDeck d f).parts = s.parts ∧
    (s.onDeck d f).sems = s.sems ∧ (s.onDeck d f).evts = s.evts ∧ (s.onDeck d f).execs = s.execs ∧
    (s.onDeck d f).startNo = s.startNo ∧ (s.onDeck d f).suspNo = s.suspNo ∧ (s.onDeck d f).pinHeld = s.pinHeld ∧
    (s.onDeck d f).dropLater = s.dropLater ∧ (s.onDeck d f).allocAt = s.allocAt ∧ (s.onDeck d f).chans = s.chans ∧
    (s.onDeck d f).thapWait = s.thapWait ∧ (s.onDeck d f).stepNo = s.stepNo ∧ (s.onDeck d f).attn = s.attn ∧
    (s.onDeck d f).accts = s.accts ∧ (s.onDeck d f).mons = s.mons ∧ (s.onDeck d f).margin = s.margin ∧
    (s.onDeck d f).ports = s.ports ∧ (s.onDeck d f).probes = s.probes ∧ (s.onDeck d f).cruiseAt = s.cruiseAt ∧
    (s.onDeck d f).routeImage = s.routeImage ∧ (s.onDeck d f).inbox = s.inbox ∧ (s.onDeck d f).sendCtx = s.sendCtx ∧
    (s.onDeck d f).recvCtx = s.recvCtx ∧ (s.onDeck d f).streamNo = s.streamNo ∧ (s.onDeck d f).syncAt = s.syncAt ∧
    (s.onDeck d f).tree = s.tree ∧ (s.onDeck d f).img = s.img ∧ (s.onDeck d f).fuses = s.fuses ∧
    (s.onDeck d f).boot = s.boot ∧ (s.onDeck d f).owner = s.owner ∧ (s.onDeck d f).power = s.power ∧
    (s.onDeck d f).pkg = s.pkg ∧ (s.onDeck d f).mgmt = s.mgmt := by
  and_intros <;> rfl

@[simp] theorem State.evtAdd_evts (p n v : Nat) : (s.evtAdd p n v).evts = Tbl.upd 0 s.evts (p * 1024 + n) (fun c => (c + v) % 2 ^ 64) := rfl

/-- `State.evtAdd` writes `evts` alone. -/
@[simp] theorem State.evtAdd_frame (p n v : Nat) :
    (s.evtAdd p n v).pending = s.pending ∧ (s.evtAdd p n v).time = s.time ∧ (s.evtAdd p n v).calendar = s.calendar ∧
    (s.evtAdd p n v).calPhase = s.calPhase ∧ (s.evtAdd p n v).slew = s.slew ∧ (s.evtAdd p n v).stepped = s.stepped ∧
    (s.evtAdd p n v).deckEver = s.deckEver ∧ (s.evtAdd p n v).free = s.free ∧ (s.evtAdd p n v).regs = s.regs ∧
    (s.evtAdd p n v).halfW = s.halfW ∧ (s.evtAdd p n v).halfR = s.halfR ∧ (s.evtAdd p n v).sealWide = s.sealWide ∧
    (s.evtAdd p n v).sealParts = s.sealParts ∧ (s.evtAdd p n v).mem = s.mem ∧ (s.evtAdd p n v).chk = s.chk ∧
    (s.evtAdd p n v).prot = s.prot ∧ (s.evtAdd p n v).rsp = s.rsp ∧ (s.evtAdd p n v).errQ = s.errQ ∧
    (s.evtAdd p n v).recCount = s.recCount ∧ (s.evtAdd p n v).vfQ = s.vfQ ∧ (s.evtAdd p n v).ceSince = s.ceSince ∧
    (s.evtAdd p n v).ticks = s.ticks ∧ (s.evtAdd p n v).wbq = s.wbq ∧ (s.evtAdd p n v).merge = s.merge ∧
    (s.evtAdd p n v).scrub = s.scrub ∧ (s.evtAdd p n v).halted = s.halted ∧ (s.evtAdd p n v).msix = s.msix ∧
    (s.evtAdd p n v).hostReads = s.hostReads ∧ (s.evtAdd p n v).hostTag = s.hostTag ∧ (s.evtAdd p n v).tiles = s.tiles ∧
    (s.evtAdd p n v).arrs = s.arrs ∧ (s.evtAdd p n v).thrs = s.thrs ∧ (s.evtAdd p n v).jobs = s.jobs ∧
    (s.evtAdd p n v).tags = s.tags ∧ (s.evtAdd p n v).tileSems = s.tileSems ∧ (s.evtAdd p n v).parts = s.parts ∧
    (s.evtAdd p n v).sems = s.sems ∧ (s.evtAdd p n v).decks = s.decks ∧ (s.evtAdd p n v).execs = s.execs ∧
    (s.evtAdd p n v).startNo = s.startNo ∧ (s.evtAdd p n v).suspNo = s.suspNo ∧ (s.evtAdd p n v).pinHeld = s.pinHeld ∧
    (s.evtAdd p n v).dropLater = s.dropLater ∧ (s.evtAdd p n v).allocAt = s.allocAt ∧ (s.evtAdd p n v).chans = s.chans ∧
    (s.evtAdd p n v).thapWait = s.thapWait ∧ (s.evtAdd p n v).stepNo = s.stepNo ∧ (s.evtAdd p n v).attn = s.attn ∧
    (s.evtAdd p n v).accts = s.accts ∧ (s.evtAdd p n v).mons = s.mons ∧ (s.evtAdd p n v).margin = s.margin ∧
    (s.evtAdd p n v).ports = s.ports ∧ (s.evtAdd p n v).probes = s.probes ∧ (s.evtAdd p n v).cruiseAt = s.cruiseAt ∧
    (s.evtAdd p n v).routeImage = s.routeImage ∧ (s.evtAdd p n v).inbox = s.inbox ∧ (s.evtAdd p n v).sendCtx = s.sendCtx ∧
    (s.evtAdd p n v).recvCtx = s.recvCtx ∧ (s.evtAdd p n v).streamNo = s.streamNo ∧ (s.evtAdd p n v).syncAt = s.syncAt ∧
    (s.evtAdd p n v).tree = s.tree ∧ (s.evtAdd p n v).img = s.img ∧ (s.evtAdd p n v).fuses = s.fuses ∧
    (s.evtAdd p n v).boot = s.boot ∧ (s.evtAdd p n v).owner = s.owner ∧ (s.evtAdd p n v).power = s.power ∧
    (s.evtAdd p n v).pkg = s.pkg ∧ (s.evtAdd p n v).mgmt = s.mgmt := by
  and_intros <;> rfl

@[simp] theorem State.onChan_chans (c : Nat) (f : Chan → Chan) : (s.onChan c f).chans = Tbl.upd {} s.chans c f := rfl

/-- `State.onChan` writes `chans` alone. -/
@[simp] theorem State.onChan_frame (c : Nat) (f : Chan → Chan) :
    (s.onChan c f).pending = s.pending ∧ (s.onChan c f).time = s.time ∧ (s.onChan c f).calendar = s.calendar ∧
    (s.onChan c f).calPhase = s.calPhase ∧ (s.onChan c f).slew = s.slew ∧ (s.onChan c f).stepped = s.stepped ∧
    (s.onChan c f).deckEver = s.deckEver ∧ (s.onChan c f).free = s.free ∧ (s.onChan c f).regs = s.regs ∧
    (s.onChan c f).halfW = s.halfW ∧ (s.onChan c f).halfR = s.halfR ∧ (s.onChan c f).sealWide = s.sealWide ∧
    (s.onChan c f).sealParts = s.sealParts ∧ (s.onChan c f).mem = s.mem ∧ (s.onChan c f).chk = s.chk ∧
    (s.onChan c f).prot = s.prot ∧ (s.onChan c f).rsp = s.rsp ∧ (s.onChan c f).errQ = s.errQ ∧
    (s.onChan c f).recCount = s.recCount ∧ (s.onChan c f).vfQ = s.vfQ ∧ (s.onChan c f).ceSince = s.ceSince ∧
    (s.onChan c f).ticks = s.ticks ∧ (s.onChan c f).wbq = s.wbq ∧ (s.onChan c f).merge = s.merge ∧
    (s.onChan c f).scrub = s.scrub ∧ (s.onChan c f).halted = s.halted ∧ (s.onChan c f).msix = s.msix ∧
    (s.onChan c f).hostReads = s.hostReads ∧ (s.onChan c f).hostTag = s.hostTag ∧ (s.onChan c f).tiles = s.tiles ∧
    (s.onChan c f).arrs = s.arrs ∧ (s.onChan c f).thrs = s.thrs ∧ (s.onChan c f).jobs = s.jobs ∧
    (s.onChan c f).tags = s.tags ∧ (s.onChan c f).tileSems = s.tileSems ∧ (s.onChan c f).parts = s.parts ∧
    (s.onChan c f).sems = s.sems ∧ (s.onChan c f).evts = s.evts ∧ (s.onChan c f).decks = s.decks ∧
    (s.onChan c f).execs = s.execs ∧ (s.onChan c f).startNo = s.startNo ∧ (s.onChan c f).suspNo = s.suspNo ∧
    (s.onChan c f).pinHeld = s.pinHeld ∧ (s.onChan c f).dropLater = s.dropLater ∧ (s.onChan c f).allocAt = s.allocAt ∧
    (s.onChan c f).thapWait = s.thapWait ∧ (s.onChan c f).stepNo = s.stepNo ∧ (s.onChan c f).attn = s.attn ∧
    (s.onChan c f).accts = s.accts ∧ (s.onChan c f).mons = s.mons ∧ (s.onChan c f).margin = s.margin ∧
    (s.onChan c f).ports = s.ports ∧ (s.onChan c f).probes = s.probes ∧ (s.onChan c f).cruiseAt = s.cruiseAt ∧
    (s.onChan c f).routeImage = s.routeImage ∧ (s.onChan c f).inbox = s.inbox ∧ (s.onChan c f).sendCtx = s.sendCtx ∧
    (s.onChan c f).recvCtx = s.recvCtx ∧ (s.onChan c f).streamNo = s.streamNo ∧ (s.onChan c f).syncAt = s.syncAt ∧
    (s.onChan c f).tree = s.tree ∧ (s.onChan c f).img = s.img ∧ (s.onChan c f).fuses = s.fuses ∧
    (s.onChan c f).boot = s.boot ∧ (s.onChan c f).owner = s.owner ∧ (s.onChan c f).power = s.power ∧
    (s.onChan c f).pkg = s.pkg ∧ (s.onChan c f).mgmt = s.mgmt := by
  and_intros <;> rfl

@[simp] theorem State.onAcct_accts (key : Nat) (f : Acct → Acct) : (s.onAcct key f).accts = Tbl.upd {} s.accts key f := rfl

/-- `State.onAcct` writes `accts` alone. -/
@[simp] theorem State.onAcct_frame (key : Nat) (f : Acct → Acct) :
    (s.onAcct key f).pending = s.pending ∧ (s.onAcct key f).time = s.time ∧ (s.onAcct key f).calendar = s.calendar ∧
    (s.onAcct key f).calPhase = s.calPhase ∧ (s.onAcct key f).slew = s.slew ∧ (s.onAcct key f).stepped = s.stepped ∧
    (s.onAcct key f).deckEver = s.deckEver ∧ (s.onAcct key f).free = s.free ∧ (s.onAcct key f).regs = s.regs ∧
    (s.onAcct key f).halfW = s.halfW ∧ (s.onAcct key f).halfR = s.halfR ∧ (s.onAcct key f).sealWide = s.sealWide ∧
    (s.onAcct key f).sealParts = s.sealParts ∧ (s.onAcct key f).mem = s.mem ∧ (s.onAcct key f).chk = s.chk ∧
    (s.onAcct key f).prot = s.prot ∧ (s.onAcct key f).rsp = s.rsp ∧ (s.onAcct key f).errQ = s.errQ ∧
    (s.onAcct key f).recCount = s.recCount ∧ (s.onAcct key f).vfQ = s.vfQ ∧ (s.onAcct key f).ceSince = s.ceSince ∧
    (s.onAcct key f).ticks = s.ticks ∧ (s.onAcct key f).wbq = s.wbq ∧ (s.onAcct key f).merge = s.merge ∧
    (s.onAcct key f).scrub = s.scrub ∧ (s.onAcct key f).halted = s.halted ∧ (s.onAcct key f).msix = s.msix ∧
    (s.onAcct key f).hostReads = s.hostReads ∧ (s.onAcct key f).hostTag = s.hostTag ∧ (s.onAcct key f).tiles = s.tiles ∧
    (s.onAcct key f).arrs = s.arrs ∧ (s.onAcct key f).thrs = s.thrs ∧ (s.onAcct key f).jobs = s.jobs ∧
    (s.onAcct key f).tags = s.tags ∧ (s.onAcct key f).tileSems = s.tileSems ∧ (s.onAcct key f).parts = s.parts ∧
    (s.onAcct key f).sems = s.sems ∧ (s.onAcct key f).evts = s.evts ∧ (s.onAcct key f).decks = s.decks ∧
    (s.onAcct key f).execs = s.execs ∧ (s.onAcct key f).startNo = s.startNo ∧ (s.onAcct key f).suspNo = s.suspNo ∧
    (s.onAcct key f).pinHeld = s.pinHeld ∧ (s.onAcct key f).dropLater = s.dropLater ∧
    (s.onAcct key f).allocAt = s.allocAt ∧ (s.onAcct key f).chans = s.chans ∧ (s.onAcct key f).thapWait = s.thapWait ∧
    (s.onAcct key f).stepNo = s.stepNo ∧ (s.onAcct key f).attn = s.attn ∧ (s.onAcct key f).mons = s.mons ∧
    (s.onAcct key f).margin = s.margin ∧ (s.onAcct key f).ports = s.ports ∧ (s.onAcct key f).probes = s.probes ∧
    (s.onAcct key f).cruiseAt = s.cruiseAt ∧ (s.onAcct key f).routeImage = s.routeImage ∧
    (s.onAcct key f).inbox = s.inbox ∧ (s.onAcct key f).sendCtx = s.sendCtx ∧ (s.onAcct key f).recvCtx = s.recvCtx ∧
    (s.onAcct key f).streamNo = s.streamNo ∧ (s.onAcct key f).syncAt = s.syncAt ∧ (s.onAcct key f).tree = s.tree ∧
    (s.onAcct key f).img = s.img ∧ (s.onAcct key f).fuses = s.fuses ∧ (s.onAcct key f).boot = s.boot ∧
    (s.onAcct key f).owner = s.owner ∧ (s.onAcct key f).power = s.power ∧ (s.onAcct key f).pkg = s.pkg ∧
    (s.onAcct key f).mgmt = s.mgmt := by
  and_intros <;> rfl

@[simp] theorem State.onPort_ports (p : Nat) (f : Port → Port) : (s.onPort p f).ports = Tbl.upd {} s.ports p f := rfl

/-- `State.onPort` writes `ports` alone. -/
@[simp] theorem State.onPort_frame (p : Nat) (f : Port → Port) :
    (s.onPort p f).pending = s.pending ∧ (s.onPort p f).time = s.time ∧ (s.onPort p f).calendar = s.calendar ∧
    (s.onPort p f).calPhase = s.calPhase ∧ (s.onPort p f).slew = s.slew ∧ (s.onPort p f).stepped = s.stepped ∧
    (s.onPort p f).deckEver = s.deckEver ∧ (s.onPort p f).free = s.free ∧ (s.onPort p f).regs = s.regs ∧
    (s.onPort p f).halfW = s.halfW ∧ (s.onPort p f).halfR = s.halfR ∧ (s.onPort p f).sealWide = s.sealWide ∧
    (s.onPort p f).sealParts = s.sealParts ∧ (s.onPort p f).mem = s.mem ∧ (s.onPort p f).chk = s.chk ∧
    (s.onPort p f).prot = s.prot ∧ (s.onPort p f).rsp = s.rsp ∧ (s.onPort p f).errQ = s.errQ ∧
    (s.onPort p f).recCount = s.recCount ∧ (s.onPort p f).vfQ = s.vfQ ∧ (s.onPort p f).ceSince = s.ceSince ∧
    (s.onPort p f).ticks = s.ticks ∧ (s.onPort p f).wbq = s.wbq ∧ (s.onPort p f).merge = s.merge ∧
    (s.onPort p f).scrub = s.scrub ∧ (s.onPort p f).halted = s.halted ∧ (s.onPort p f).msix = s.msix ∧
    (s.onPort p f).hostReads = s.hostReads ∧ (s.onPort p f).hostTag = s.hostTag ∧ (s.onPort p f).tiles = s.tiles ∧
    (s.onPort p f).arrs = s.arrs ∧ (s.onPort p f).thrs = s.thrs ∧ (s.onPort p f).jobs = s.jobs ∧
    (s.onPort p f).tags = s.tags ∧ (s.onPort p f).tileSems = s.tileSems ∧ (s.onPort p f).parts = s.parts ∧
    (s.onPort p f).sems = s.sems ∧ (s.onPort p f).evts = s.evts ∧ (s.onPort p f).decks = s.decks ∧
    (s.onPort p f).execs = s.execs ∧ (s.onPort p f).startNo = s.startNo ∧ (s.onPort p f).suspNo = s.suspNo ∧
    (s.onPort p f).pinHeld = s.pinHeld ∧ (s.onPort p f).dropLater = s.dropLater ∧ (s.onPort p f).allocAt = s.allocAt ∧
    (s.onPort p f).chans = s.chans ∧ (s.onPort p f).thapWait = s.thapWait ∧ (s.onPort p f).stepNo = s.stepNo ∧
    (s.onPort p f).attn = s.attn ∧ (s.onPort p f).accts = s.accts ∧ (s.onPort p f).mons = s.mons ∧
    (s.onPort p f).margin = s.margin ∧ (s.onPort p f).probes = s.probes ∧ (s.onPort p f).cruiseAt = s.cruiseAt ∧
    (s.onPort p f).routeImage = s.routeImage ∧ (s.onPort p f).inbox = s.inbox ∧ (s.onPort p f).sendCtx = s.sendCtx ∧
    (s.onPort p f).recvCtx = s.recvCtx ∧ (s.onPort p f).streamNo = s.streamNo ∧ (s.onPort p f).syncAt = s.syncAt ∧
    (s.onPort p f).tree = s.tree ∧ (s.onPort p f).img = s.img ∧ (s.onPort p f).fuses = s.fuses ∧
    (s.onPort p f).boot = s.boot ∧ (s.onPort p f).owner = s.owner ∧ (s.onPort p f).power = s.power ∧
    (s.onPort p f).pkg = s.pkg ∧ (s.onPort p f).mgmt = s.mgmt := by
  and_intros <;> rfl

@[simp] theorem State.onSctx_sendCtx (k : Nat) (f : SendCtx → SendCtx) : (s.onSctx k f).sendCtx = Tbl.upd {} s.sendCtx k f := rfl

/-- `State.onSctx` writes `sendCtx` alone. -/
@[simp] theorem State.onSctx_frame (k : Nat) (f : SendCtx → SendCtx) :
    (s.onSctx k f).pending = s.pending ∧ (s.onSctx k f).time = s.time ∧ (s.onSctx k f).calendar = s.calendar ∧
    (s.onSctx k f).calPhase = s.calPhase ∧ (s.onSctx k f).slew = s.slew ∧ (s.onSctx k f).stepped = s.stepped ∧
    (s.onSctx k f).deckEver = s.deckEver ∧ (s.onSctx k f).free = s.free ∧ (s.onSctx k f).regs = s.regs ∧
    (s.onSctx k f).halfW = s.halfW ∧ (s.onSctx k f).halfR = s.halfR ∧ (s.onSctx k f).sealWide = s.sealWide ∧
    (s.onSctx k f).sealParts = s.sealParts ∧ (s.onSctx k f).mem = s.mem ∧ (s.onSctx k f).chk = s.chk ∧
    (s.onSctx k f).prot = s.prot ∧ (s.onSctx k f).rsp = s.rsp ∧ (s.onSctx k f).errQ = s.errQ ∧
    (s.onSctx k f).recCount = s.recCount ∧ (s.onSctx k f).vfQ = s.vfQ ∧ (s.onSctx k f).ceSince = s.ceSince ∧
    (s.onSctx k f).ticks = s.ticks ∧ (s.onSctx k f).wbq = s.wbq ∧ (s.onSctx k f).merge = s.merge ∧
    (s.onSctx k f).scrub = s.scrub ∧ (s.onSctx k f).halted = s.halted ∧ (s.onSctx k f).msix = s.msix ∧
    (s.onSctx k f).hostReads = s.hostReads ∧ (s.onSctx k f).hostTag = s.hostTag ∧ (s.onSctx k f).tiles = s.tiles ∧
    (s.onSctx k f).arrs = s.arrs ∧ (s.onSctx k f).thrs = s.thrs ∧ (s.onSctx k f).jobs = s.jobs ∧
    (s.onSctx k f).tags = s.tags ∧ (s.onSctx k f).tileSems = s.tileSems ∧ (s.onSctx k f).parts = s.parts ∧
    (s.onSctx k f).sems = s.sems ∧ (s.onSctx k f).evts = s.evts ∧ (s.onSctx k f).decks = s.decks ∧
    (s.onSctx k f).execs = s.execs ∧ (s.onSctx k f).startNo = s.startNo ∧ (s.onSctx k f).suspNo = s.suspNo ∧
    (s.onSctx k f).pinHeld = s.pinHeld ∧ (s.onSctx k f).dropLater = s.dropLater ∧ (s.onSctx k f).allocAt = s.allocAt ∧
    (s.onSctx k f).chans = s.chans ∧ (s.onSctx k f).thapWait = s.thapWait ∧ (s.onSctx k f).stepNo = s.stepNo ∧
    (s.onSctx k f).attn = s.attn ∧ (s.onSctx k f).accts = s.accts ∧ (s.onSctx k f).mons = s.mons ∧
    (s.onSctx k f).margin = s.margin ∧ (s.onSctx k f).ports = s.ports ∧ (s.onSctx k f).probes = s.probes ∧
    (s.onSctx k f).cruiseAt = s.cruiseAt ∧ (s.onSctx k f).routeImage = s.routeImage ∧ (s.onSctx k f).inbox = s.inbox ∧
    (s.onSctx k f).recvCtx = s.recvCtx ∧ (s.onSctx k f).streamNo = s.streamNo ∧ (s.onSctx k f).syncAt = s.syncAt ∧
    (s.onSctx k f).tree = s.tree ∧ (s.onSctx k f).img = s.img ∧ (s.onSctx k f).fuses = s.fuses ∧
    (s.onSctx k f).boot = s.boot ∧ (s.onSctx k f).owner = s.owner ∧ (s.onSctx k f).power = s.power ∧
    (s.onSctx k f).pkg = s.pkg ∧ (s.onSctx k f).mgmt = s.mgmt := by
  and_intros <;> rfl

@[simp] theorem State.onTree_tree (f : Tree → Tree) : (s.onTree f).tree = f s.tree := rfl

/-- `State.onTree` writes `tree` alone. -/
@[simp] theorem State.onTree_frame (f : Tree → Tree) :
    (s.onTree f).pending = s.pending ∧ (s.onTree f).time = s.time ∧ (s.onTree f).calendar = s.calendar ∧
    (s.onTree f).calPhase = s.calPhase ∧ (s.onTree f).slew = s.slew ∧ (s.onTree f).stepped = s.stepped ∧
    (s.onTree f).deckEver = s.deckEver ∧ (s.onTree f).free = s.free ∧ (s.onTree f).regs = s.regs ∧
    (s.onTree f).halfW = s.halfW ∧ (s.onTree f).halfR = s.halfR ∧ (s.onTree f).sealWide = s.sealWide ∧
    (s.onTree f).sealParts = s.sealParts ∧ (s.onTree f).mem = s.mem ∧ (s.onTree f).chk = s.chk ∧
    (s.onTree f).prot = s.prot ∧ (s.onTree f).rsp = s.rsp ∧ (s.onTree f).errQ = s.errQ ∧
    (s.onTree f).recCount = s.recCount ∧ (s.onTree f).vfQ = s.vfQ ∧ (s.onTree f).ceSince = s.ceSince ∧
    (s.onTree f).ticks = s.ticks ∧ (s.onTree f).wbq = s.wbq ∧ (s.onTree f).merge = s.merge ∧ (s.onTree f).scrub = s.scrub ∧
    (s.onTree f).halted = s.halted ∧ (s.onTree f).msix = s.msix ∧ (s.onTree f).hostReads = s.hostReads ∧
    (s.onTree f).hostTag = s.hostTag ∧ (s.onTree f).tiles = s.tiles ∧ (s.onTree f).arrs = s.arrs ∧
    (s.onTree f).thrs = s.thrs ∧ (s.onTree f).jobs = s.jobs ∧ (s.onTree f).tags = s.tags ∧
    (s.onTree f).tileSems = s.tileSems ∧ (s.onTree f).parts = s.parts ∧ (s.onTree f).sems = s.sems ∧
    (s.onTree f).evts = s.evts ∧ (s.onTree f).decks = s.decks ∧ (s.onTree f).execs = s.execs ∧
    (s.onTree f).startNo = s.startNo ∧ (s.onTree f).suspNo = s.suspNo ∧ (s.onTree f).pinHeld = s.pinHeld ∧
    (s.onTree f).dropLater = s.dropLater ∧ (s.onTree f).allocAt = s.allocAt ∧ (s.onTree f).chans = s.chans ∧
    (s.onTree f).thapWait = s.thapWait ∧ (s.onTree f).stepNo = s.stepNo ∧ (s.onTree f).attn = s.attn ∧
    (s.onTree f).accts = s.accts ∧ (s.onTree f).mons = s.mons ∧ (s.onTree f).margin = s.margin ∧
    (s.onTree f).ports = s.ports ∧ (s.onTree f).probes = s.probes ∧ (s.onTree f).cruiseAt = s.cruiseAt ∧
    (s.onTree f).routeImage = s.routeImage ∧ (s.onTree f).inbox = s.inbox ∧ (s.onTree f).sendCtx = s.sendCtx ∧
    (s.onTree f).recvCtx = s.recvCtx ∧ (s.onTree f).streamNo = s.streamNo ∧ (s.onTree f).syncAt = s.syncAt ∧
    (s.onTree f).img = s.img ∧ (s.onTree f).fuses = s.fuses ∧ (s.onTree f).boot = s.boot ∧ (s.onTree f).owner = s.owner ∧
    (s.onTree f).power = s.power ∧ (s.onTree f).pkg = s.pkg ∧ (s.onTree f).mgmt = s.mgmt := by
  and_intros <;> rfl

@[simp] theorem State.onPower_power (f : Power → Power) : (s.onPower f).power = f s.power := rfl

/-- `State.onPower` writes `power` alone. -/
@[simp] theorem State.onPower_frame (f : Power → Power) :
    (s.onPower f).pending = s.pending ∧ (s.onPower f).time = s.time ∧ (s.onPower f).calendar = s.calendar ∧
    (s.onPower f).calPhase = s.calPhase ∧ (s.onPower f).slew = s.slew ∧ (s.onPower f).stepped = s.stepped ∧
    (s.onPower f).deckEver = s.deckEver ∧ (s.onPower f).free = s.free ∧ (s.onPower f).regs = s.regs ∧
    (s.onPower f).halfW = s.halfW ∧ (s.onPower f).halfR = s.halfR ∧ (s.onPower f).sealWide = s.sealWide ∧
    (s.onPower f).sealParts = s.sealParts ∧ (s.onPower f).mem = s.mem ∧ (s.onPower f).chk = s.chk ∧
    (s.onPower f).prot = s.prot ∧ (s.onPower f).rsp = s.rsp ∧ (s.onPower f).errQ = s.errQ ∧
    (s.onPower f).recCount = s.recCount ∧ (s.onPower f).vfQ = s.vfQ ∧ (s.onPower f).ceSince = s.ceSince ∧
    (s.onPower f).ticks = s.ticks ∧ (s.onPower f).wbq = s.wbq ∧ (s.onPower f).merge = s.merge ∧
    (s.onPower f).scrub = s.scrub ∧ (s.onPower f).halted = s.halted ∧ (s.onPower f).msix = s.msix ∧
    (s.onPower f).hostReads = s.hostReads ∧ (s.onPower f).hostTag = s.hostTag ∧ (s.onPower f).tiles = s.tiles ∧
    (s.onPower f).arrs = s.arrs ∧ (s.onPower f).thrs = s.thrs ∧ (s.onPower f).jobs = s.jobs ∧ (s.onPower f).tags = s.tags ∧
    (s.onPower f).tileSems = s.tileSems ∧ (s.onPower f).parts = s.parts ∧ (s.onPower f).sems = s.sems ∧
    (s.onPower f).evts = s.evts ∧ (s.onPower f).decks = s.decks ∧ (s.onPower f).execs = s.execs ∧
    (s.onPower f).startNo = s.startNo ∧ (s.onPower f).suspNo = s.suspNo ∧ (s.onPower f).pinHeld = s.pinHeld ∧
    (s.onPower f).dropLater = s.dropLater ∧ (s.onPower f).allocAt = s.allocAt ∧ (s.onPower f).chans = s.chans ∧
    (s.onPower f).thapWait = s.thapWait ∧ (s.onPower f).stepNo = s.stepNo ∧ (s.onPower f).attn = s.attn ∧
    (s.onPower f).accts = s.accts ∧ (s.onPower f).mons = s.mons ∧ (s.onPower f).margin = s.margin ∧
    (s.onPower f).ports = s.ports ∧ (s.onPower f).probes = s.probes ∧ (s.onPower f).cruiseAt = s.cruiseAt ∧
    (s.onPower f).routeImage = s.routeImage ∧ (s.onPower f).inbox = s.inbox ∧ (s.onPower f).sendCtx = s.sendCtx ∧
    (s.onPower f).recvCtx = s.recvCtx ∧ (s.onPower f).streamNo = s.streamNo ∧ (s.onPower f).syncAt = s.syncAt ∧
    (s.onPower f).tree = s.tree ∧ (s.onPower f).img = s.img ∧ (s.onPower f).fuses = s.fuses ∧ (s.onPower f).boot = s.boot ∧
    (s.onPower f).owner = s.owner ∧ (s.onPower f).pkg = s.pkg ∧ (s.onPower f).mgmt = s.mgmt := by
  and_intros <;> rfl

/-- `State.fcount` changes nothing but `regs`. -/
@[simp] theorem State.fcount_frame (f : Field) (u i : Nat) :
    (s.fcount f u i).pending = s.pending ∧ (s.fcount f u i).time = s.time ∧ (s.fcount f u i).calendar = s.calendar ∧
    (s.fcount f u i).calPhase = s.calPhase ∧ (s.fcount f u i).slew = s.slew ∧ (s.fcount f u i).stepped = s.stepped ∧
    (s.fcount f u i).deckEver = s.deckEver ∧ (s.fcount f u i).free = s.free ∧ (s.fcount f u i).halfW = s.halfW ∧
    (s.fcount f u i).halfR = s.halfR ∧ (s.fcount f u i).sealWide = s.sealWide ∧ (s.fcount f u i).sealParts = s.sealParts ∧
    (s.fcount f u i).mem = s.mem ∧ (s.fcount f u i).chk = s.chk ∧ (s.fcount f u i).prot = s.prot ∧
    (s.fcount f u i).rsp = s.rsp ∧ (s.fcount f u i).errQ = s.errQ ∧ (s.fcount f u i).recCount = s.recCount ∧
    (s.fcount f u i).vfQ = s.vfQ ∧ (s.fcount f u i).ceSince = s.ceSince ∧ (s.fcount f u i).ticks = s.ticks ∧
    (s.fcount f u i).wbq = s.wbq ∧ (s.fcount f u i).merge = s.merge ∧ (s.fcount f u i).scrub = s.scrub ∧
    (s.fcount f u i).halted = s.halted ∧ (s.fcount f u i).msix = s.msix ∧ (s.fcount f u i).hostReads = s.hostReads ∧
    (s.fcount f u i).hostTag = s.hostTag ∧ (s.fcount f u i).tiles = s.tiles ∧ (s.fcount f u i).arrs = s.arrs ∧
    (s.fcount f u i).thrs = s.thrs ∧ (s.fcount f u i).jobs = s.jobs ∧ (s.fcount f u i).tags = s.tags ∧
    (s.fcount f u i).tileSems = s.tileSems ∧ (s.fcount f u i).parts = s.parts ∧ (s.fcount f u i).sems = s.sems ∧
    (s.fcount f u i).evts = s.evts ∧ (s.fcount f u i).decks = s.decks ∧ (s.fcount f u i).execs = s.execs ∧
    (s.fcount f u i).startNo = s.startNo ∧ (s.fcount f u i).suspNo = s.suspNo ∧ (s.fcount f u i).pinHeld = s.pinHeld ∧
    (s.fcount f u i).dropLater = s.dropLater ∧ (s.fcount f u i).allocAt = s.allocAt ∧ (s.fcount f u i).chans = s.chans ∧
    (s.fcount f u i).thapWait = s.thapWait ∧ (s.fcount f u i).stepNo = s.stepNo ∧ (s.fcount f u i).attn = s.attn ∧
    (s.fcount f u i).accts = s.accts ∧ (s.fcount f u i).mons = s.mons ∧ (s.fcount f u i).margin = s.margin ∧
    (s.fcount f u i).ports = s.ports ∧ (s.fcount f u i).probes = s.probes ∧ (s.fcount f u i).cruiseAt = s.cruiseAt ∧
    (s.fcount f u i).routeImage = s.routeImage ∧ (s.fcount f u i).inbox = s.inbox ∧ (s.fcount f u i).sendCtx = s.sendCtx ∧
    (s.fcount f u i).recvCtx = s.recvCtx ∧ (s.fcount f u i).streamNo = s.streamNo ∧ (s.fcount f u i).syncAt = s.syncAt ∧
    (s.fcount f u i).tree = s.tree ∧ (s.fcount f u i).img = s.img ∧ (s.fcount f u i).fuses = s.fuses ∧
    (s.fcount f u i).boot = s.boot ∧ (s.fcount f u i).owner = s.owner ∧ (s.fcount f u i).power = s.power ∧
    (s.fcount f u i).pkg = s.pkg ∧ (s.fcount f u i).mgmt = s.mgmt := by
  simp [State.fcount]

/-- `State.fcountN` changes nothing but `regs`. -/
@[simp] theorem State.fcountN_frame (f : Field) (u i n : Nat) :
    (s.fcountN f u i n).pending = s.pending ∧ (s.fcountN f u i n).time = s.time ∧
    (s.fcountN f u i n).calendar = s.calendar ∧ (s.fcountN f u i n).calPhase = s.calPhase ∧
    (s.fcountN f u i n).slew = s.slew ∧ (s.fcountN f u i n).stepped = s.stepped ∧
    (s.fcountN f u i n).deckEver = s.deckEver ∧ (s.fcountN f u i n).free = s.free ∧ (s.fcountN f u i n).halfW = s.halfW ∧
    (s.fcountN f u i n).halfR = s.halfR ∧ (s.fcountN f u i n).sealWide = s.sealWide ∧
    (s.fcountN f u i n).sealParts = s.sealParts ∧ (s.fcountN f u i n).mem = s.mem ∧ (s.fcountN f u i n).chk = s.chk ∧
    (s.fcountN f u i n).prot = s.prot ∧ (s.fcountN f u i n).rsp = s.rsp ∧ (s.fcountN f u i n).errQ = s.errQ ∧
    (s.fcountN f u i n).recCount = s.recCount ∧ (s.fcountN f u i n).vfQ = s.vfQ ∧ (s.fcountN f u i n).ceSince = s.ceSince ∧
    (s.fcountN f u i n).ticks = s.ticks ∧ (s.fcountN f u i n).wbq = s.wbq ∧ (s.fcountN f u i n).merge = s.merge ∧
    (s.fcountN f u i n).scrub = s.scrub ∧ (s.fcountN f u i n).halted = s.halted ∧ (s.fcountN f u i n).msix = s.msix ∧
    (s.fcountN f u i n).hostReads = s.hostReads ∧ (s.fcountN f u i n).hostTag = s.hostTag ∧
    (s.fcountN f u i n).tiles = s.tiles ∧ (s.fcountN f u i n).arrs = s.arrs ∧ (s.fcountN f u i n).thrs = s.thrs ∧
    (s.fcountN f u i n).jobs = s.jobs ∧ (s.fcountN f u i n).tags = s.tags ∧ (s.fcountN f u i n).tileSems = s.tileSems ∧
    (s.fcountN f u i n).parts = s.parts ∧ (s.fcountN f u i n).sems = s.sems ∧ (s.fcountN f u i n).evts = s.evts ∧
    (s.fcountN f u i n).decks = s.decks ∧ (s.fcountN f u i n).execs = s.execs ∧ (s.fcountN f u i n).startNo = s.startNo ∧
    (s.fcountN f u i n).suspNo = s.suspNo ∧ (s.fcountN f u i n).pinHeld = s.pinHeld ∧
    (s.fcountN f u i n).dropLater = s.dropLater ∧ (s.fcountN f u i n).allocAt = s.allocAt ∧
    (s.fcountN f u i n).chans = s.chans ∧ (s.fcountN f u i n).thapWait = s.thapWait ∧
    (s.fcountN f u i n).stepNo = s.stepNo ∧ (s.fcountN f u i n).attn = s.attn ∧ (s.fcountN f u i n).accts = s.accts ∧
    (s.fcountN f u i n).mons = s.mons ∧ (s.fcountN f u i n).margin = s.margin ∧ (s.fcountN f u i n).ports = s.ports ∧
    (s.fcountN f u i n).probes = s.probes ∧ (s.fcountN f u i n).cruiseAt = s.cruiseAt ∧
    (s.fcountN f u i n).routeImage = s.routeImage ∧ (s.fcountN f u i n).inbox = s.inbox ∧
    (s.fcountN f u i n).sendCtx = s.sendCtx ∧ (s.fcountN f u i n).recvCtx = s.recvCtx ∧
    (s.fcountN f u i n).streamNo = s.streamNo ∧ (s.fcountN f u i n).syncAt = s.syncAt ∧ (s.fcountN f u i n).tree = s.tree ∧
    (s.fcountN f u i n).img = s.img ∧ (s.fcountN f u i n).fuses = s.fuses ∧ (s.fcountN f u i n).boot = s.boot ∧
    (s.fcountN f u i n).owner = s.owner ∧ (s.fcountN f u i n).power = s.power ∧ (s.fcountN f u i n).pkg = s.pkg ∧
    (s.fcountN f u i n).mgmt = s.mgmt := by
  simp [State.fcountN]

/-- `State.fwrap` changes nothing but `regs`. -/
@[simp] theorem State.fwrap_frame (f : Field) (u i : Nat) :
    (s.fwrap f u i).pending = s.pending ∧ (s.fwrap f u i).time = s.time ∧ (s.fwrap f u i).calendar = s.calendar ∧
    (s.fwrap f u i).calPhase = s.calPhase ∧ (s.fwrap f u i).slew = s.slew ∧ (s.fwrap f u i).stepped = s.stepped ∧
    (s.fwrap f u i).deckEver = s.deckEver ∧ (s.fwrap f u i).free = s.free ∧ (s.fwrap f u i).halfW = s.halfW ∧
    (s.fwrap f u i).halfR = s.halfR ∧ (s.fwrap f u i).sealWide = s.sealWide ∧ (s.fwrap f u i).sealParts = s.sealParts ∧
    (s.fwrap f u i).mem = s.mem ∧ (s.fwrap f u i).chk = s.chk ∧ (s.fwrap f u i).prot = s.prot ∧
    (s.fwrap f u i).rsp = s.rsp ∧ (s.fwrap f u i).errQ = s.errQ ∧ (s.fwrap f u i).recCount = s.recCount ∧
    (s.fwrap f u i).vfQ = s.vfQ ∧ (s.fwrap f u i).ceSince = s.ceSince ∧ (s.fwrap f u i).ticks = s.ticks ∧
    (s.fwrap f u i).wbq = s.wbq ∧ (s.fwrap f u i).merge = s.merge ∧ (s.fwrap f u i).scrub = s.scrub ∧
    (s.fwrap f u i).halted = s.halted ∧ (s.fwrap f u i).msix = s.msix ∧ (s.fwrap f u i).hostReads = s.hostReads ∧
    (s.fwrap f u i).hostTag = s.hostTag ∧ (s.fwrap f u i).tiles = s.tiles ∧ (s.fwrap f u i).arrs = s.arrs ∧
    (s.fwrap f u i).thrs = s.thrs ∧ (s.fwrap f u i).jobs = s.jobs ∧ (s.fwrap f u i).tags = s.tags ∧
    (s.fwrap f u i).tileSems = s.tileSems ∧ (s.fwrap f u i).parts = s.parts ∧ (s.fwrap f u i).sems = s.sems ∧
    (s.fwrap f u i).evts = s.evts ∧ (s.fwrap f u i).decks = s.decks ∧ (s.fwrap f u i).execs = s.execs ∧
    (s.fwrap f u i).startNo = s.startNo ∧ (s.fwrap f u i).suspNo = s.suspNo ∧ (s.fwrap f u i).pinHeld = s.pinHeld ∧
    (s.fwrap f u i).dropLater = s.dropLater ∧ (s.fwrap f u i).allocAt = s.allocAt ∧ (s.fwrap f u i).chans = s.chans ∧
    (s.fwrap f u i).thapWait = s.thapWait ∧ (s.fwrap f u i).stepNo = s.stepNo ∧ (s.fwrap f u i).attn = s.attn ∧
    (s.fwrap f u i).accts = s.accts ∧ (s.fwrap f u i).mons = s.mons ∧ (s.fwrap f u i).margin = s.margin ∧
    (s.fwrap f u i).ports = s.ports ∧ (s.fwrap f u i).probes = s.probes ∧ (s.fwrap f u i).cruiseAt = s.cruiseAt ∧
    (s.fwrap f u i).routeImage = s.routeImage ∧ (s.fwrap f u i).inbox = s.inbox ∧ (s.fwrap f u i).sendCtx = s.sendCtx ∧
    (s.fwrap f u i).recvCtx = s.recvCtx ∧ (s.fwrap f u i).streamNo = s.streamNo ∧ (s.fwrap f u i).syncAt = s.syncAt ∧
    (s.fwrap f u i).tree = s.tree ∧ (s.fwrap f u i).img = s.img ∧ (s.fwrap f u i).fuses = s.fuses ∧
    (s.fwrap f u i).boot = s.boot ∧ (s.fwrap f u i).owner = s.owner ∧ (s.fwrap f u i).power = s.power ∧
    (s.fwrap f u i).pkg = s.pkg ∧ (s.fwrap f u i).mgmt = s.mgmt := by
  simp [State.fwrap]

/-- `State.fbitSet` changes nothing but `regs`. -/
@[simp] theorem State.fbitSet_frame (f : Field) (u i n : Nat) (b : Bool) :
    (s.fbitSet f u i n b).pending = s.pending ∧ (s.fbitSet f u i n b).time = s.time ∧
    (s.fbitSet f u i n b).calendar = s.calendar ∧ (s.fbitSet f u i n b).calPhase = s.calPhase ∧
    (s.fbitSet f u i n b).slew = s.slew ∧ (s.fbitSet f u i n b).stepped = s.stepped ∧
    (s.fbitSet f u i n b).deckEver = s.deckEver ∧ (s.fbitSet f u i n b).free = s.free ∧
    (s.fbitSet f u i n b).halfW = s.halfW ∧ (s.fbitSet f u i n b).halfR = s.halfR ∧
    (s.fbitSet f u i n b).sealWide = s.sealWide ∧ (s.fbitSet f u i n b).sealParts = s.sealParts ∧
    (s.fbitSet f u i n b).mem = s.mem ∧ (s.fbitSet f u i n b).chk = s.chk ∧ (s.fbitSet f u i n b).prot = s.prot ∧
    (s.fbitSet f u i n b).rsp = s.rsp ∧ (s.fbitSet f u i n b).errQ = s.errQ ∧ (s.fbitSet f u i n b).recCount = s.recCount ∧
    (s.fbitSet f u i n b).vfQ = s.vfQ ∧ (s.fbitSet f u i n b).ceSince = s.ceSince ∧ (s.fbitSet f u i n b).ticks = s.ticks ∧
    (s.fbitSet f u i n b).wbq = s.wbq ∧ (s.fbitSet f u i n b).merge = s.merge ∧ (s.fbitSet f u i n b).scrub = s.scrub ∧
    (s.fbitSet f u i n b).halted = s.halted ∧ (s.fbitSet f u i n b).msix = s.msix ∧
    (s.fbitSet f u i n b).hostReads = s.hostReads ∧ (s.fbitSet f u i n b).hostTag = s.hostTag ∧
    (s.fbitSet f u i n b).tiles = s.tiles ∧ (s.fbitSet f u i n b).arrs = s.arrs ∧ (s.fbitSet f u i n b).thrs = s.thrs ∧
    (s.fbitSet f u i n b).jobs = s.jobs ∧ (s.fbitSet f u i n b).tags = s.tags ∧
    (s.fbitSet f u i n b).tileSems = s.tileSems ∧ (s.fbitSet f u i n b).parts = s.parts ∧
    (s.fbitSet f u i n b).sems = s.sems ∧ (s.fbitSet f u i n b).evts = s.evts ∧ (s.fbitSet f u i n b).decks = s.decks ∧
    (s.fbitSet f u i n b).execs = s.execs ∧ (s.fbitSet f u i n b).startNo = s.startNo ∧
    (s.fbitSet f u i n b).suspNo = s.suspNo ∧ (s.fbitSet f u i n b).pinHeld = s.pinHeld ∧
    (s.fbitSet f u i n b).dropLater = s.dropLater ∧ (s.fbitSet f u i n b).allocAt = s.allocAt ∧
    (s.fbitSet f u i n b).chans = s.chans ∧ (s.fbitSet f u i n b).thapWait = s.thapWait ∧
    (s.fbitSet f u i n b).stepNo = s.stepNo ∧ (s.fbitSet f u i n b).attn = s.attn ∧ (s.fbitSet f u i n b).accts = s.accts ∧
    (s.fbitSet f u i n b).mons = s.mons ∧ (s.fbitSet f u i n b).margin = s.margin ∧ (s.fbitSet f u i n b).ports = s.ports ∧
    (s.fbitSet f u i n b).probes = s.probes ∧ (s.fbitSet f u i n b).cruiseAt = s.cruiseAt ∧
    (s.fbitSet f u i n b).routeImage = s.routeImage ∧ (s.fbitSet f u i n b).inbox = s.inbox ∧
    (s.fbitSet f u i n b).sendCtx = s.sendCtx ∧ (s.fbitSet f u i n b).recvCtx = s.recvCtx ∧
    (s.fbitSet f u i n b).streamNo = s.streamNo ∧ (s.fbitSet f u i n b).syncAt = s.syncAt ∧
    (s.fbitSet f u i n b).tree = s.tree ∧ (s.fbitSet f u i n b).img = s.img ∧ (s.fbitSet f u i n b).fuses = s.fuses ∧
    (s.fbitSet f u i n b).boot = s.boot ∧ (s.fbitSet f u i n b).owner = s.owner ∧ (s.fbitSet f u i n b).power = s.power ∧
    (s.fbitSet f u i n b).pkg = s.pkg ∧ (s.fbitSet f u i n b).mgmt = s.mgmt := by
  simp [State.fbitSet]

/-- `State.setPartStatus` changes nothing but `regs`. -/
@[simp] theorem State.setPartStatus_frame (p v : Nat) :
    (s.setPartStatus p v).pending = s.pending ∧ (s.setPartStatus p v).time = s.time ∧
    (s.setPartStatus p v).calendar = s.calendar ∧ (s.setPartStatus p v).calPhase = s.calPhase ∧
    (s.setPartStatus p v).slew = s.slew ∧ (s.setPartStatus p v).stepped = s.stepped ∧
    (s.setPartStatus p v).deckEver = s.deckEver ∧ (s.setPartStatus p v).free = s.free ∧
    (s.setPartStatus p v).halfW = s.halfW ∧ (s.setPartStatus p v).halfR = s.halfR ∧
    (s.setPartStatus p v).sealWide = s.sealWide ∧ (s.setPartStatus p v).sealParts = s.sealParts ∧
    (s.setPartStatus p v).mem = s.mem ∧ (s.setPartStatus p v).chk = s.chk ∧ (s.setPartStatus p v).prot = s.prot ∧
    (s.setPartStatus p v).rsp = s.rsp ∧ (s.setPartStatus p v).errQ = s.errQ ∧ (s.setPartStatus p v).recCount = s.recCount ∧
    (s.setPartStatus p v).vfQ = s.vfQ ∧ (s.setPartStatus p v).ceSince = s.ceSince ∧ (s.setPartStatus p v).ticks = s.ticks ∧
    (s.setPartStatus p v).wbq = s.wbq ∧ (s.setPartStatus p v).merge = s.merge ∧ (s.setPartStatus p v).scrub = s.scrub ∧
    (s.setPartStatus p v).halted = s.halted ∧ (s.setPartStatus p v).msix = s.msix ∧
    (s.setPartStatus p v).hostReads = s.hostReads ∧ (s.setPartStatus p v).hostTag = s.hostTag ∧
    (s.setPartStatus p v).tiles = s.tiles ∧ (s.setPartStatus p v).arrs = s.arrs ∧ (s.setPartStatus p v).thrs = s.thrs ∧
    (s.setPartStatus p v).jobs = s.jobs ∧ (s.setPartStatus p v).tags = s.tags ∧
    (s.setPartStatus p v).tileSems = s.tileSems ∧ (s.setPartStatus p v).parts = s.parts ∧
    (s.setPartStatus p v).sems = s.sems ∧ (s.setPartStatus p v).evts = s.evts ∧ (s.setPartStatus p v).decks = s.decks ∧
    (s.setPartStatus p v).execs = s.execs ∧ (s.setPartStatus p v).startNo = s.startNo ∧
    (s.setPartStatus p v).suspNo = s.suspNo ∧ (s.setPartStatus p v).pinHeld = s.pinHeld ∧
    (s.setPartStatus p v).dropLater = s.dropLater ∧ (s.setPartStatus p v).allocAt = s.allocAt ∧
    (s.setPartStatus p v).chans = s.chans ∧ (s.setPartStatus p v).thapWait = s.thapWait ∧
    (s.setPartStatus p v).stepNo = s.stepNo ∧ (s.setPartStatus p v).attn = s.attn ∧ (s.setPartStatus p v).accts = s.accts ∧
    (s.setPartStatus p v).mons = s.mons ∧ (s.setPartStatus p v).margin = s.margin ∧ (s.setPartStatus p v).ports = s.ports ∧
    (s.setPartStatus p v).probes = s.probes ∧ (s.setPartStatus p v).cruiseAt = s.cruiseAt ∧
    (s.setPartStatus p v).routeImage = s.routeImage ∧ (s.setPartStatus p v).inbox = s.inbox ∧
    (s.setPartStatus p v).sendCtx = s.sendCtx ∧ (s.setPartStatus p v).recvCtx = s.recvCtx ∧
    (s.setPartStatus p v).streamNo = s.streamNo ∧ (s.setPartStatus p v).syncAt = s.syncAt ∧
    (s.setPartStatus p v).tree = s.tree ∧ (s.setPartStatus p v).img = s.img ∧ (s.setPartStatus p v).fuses = s.fuses ∧
    (s.setPartStatus p v).boot = s.boot ∧ (s.setPartStatus p v).owner = s.owner ∧ (s.setPartStatus p v).power = s.power ∧
    (s.setPartStatus p v).pkg = s.pkg ∧ (s.setPartStatus p v).mgmt = s.mgmt := by
  simp [State.setPartStatus]

/-- `State.raise2` changes nothing but `msix`. -/
@[simp] theorem State.raise2_frame (fn vec : Nat) :
    (s.raise2 fn vec).pending = s.pending ∧ (s.raise2 fn vec).time = s.time ∧ (s.raise2 fn vec).calendar = s.calendar ∧
    (s.raise2 fn vec).calPhase = s.calPhase ∧ (s.raise2 fn vec).slew = s.slew ∧ (s.raise2 fn vec).stepped = s.stepped ∧
    (s.raise2 fn vec).deckEver = s.deckEver ∧ (s.raise2 fn vec).free = s.free ∧ (s.raise2 fn vec).regs = s.regs ∧
    (s.raise2 fn vec).halfW = s.halfW ∧ (s.raise2 fn vec).halfR = s.halfR ∧ (s.raise2 fn vec).sealWide = s.sealWide ∧
    (s.raise2 fn vec).sealParts = s.sealParts ∧ (s.raise2 fn vec).mem = s.mem ∧ (s.raise2 fn vec).chk = s.chk ∧
    (s.raise2 fn vec).prot = s.prot ∧ (s.raise2 fn vec).rsp = s.rsp ∧ (s.raise2 fn vec).errQ = s.errQ ∧
    (s.raise2 fn vec).recCount = s.recCount ∧ (s.raise2 fn vec).vfQ = s.vfQ ∧ (s.raise2 fn vec).ceSince = s.ceSince ∧
    (s.raise2 fn vec).ticks = s.ticks ∧ (s.raise2 fn vec).wbq = s.wbq ∧ (s.raise2 fn vec).merge = s.merge ∧
    (s.raise2 fn vec).scrub = s.scrub ∧ (s.raise2 fn vec).halted = s.halted ∧ (s.raise2 fn vec).hostReads = s.hostReads ∧
    (s.raise2 fn vec).hostTag = s.hostTag ∧ (s.raise2 fn vec).tiles = s.tiles ∧ (s.raise2 fn vec).arrs = s.arrs ∧
    (s.raise2 fn vec).thrs = s.thrs ∧ (s.raise2 fn vec).jobs = s.jobs ∧ (s.raise2 fn vec).tags = s.tags ∧
    (s.raise2 fn vec).tileSems = s.tileSems ∧ (s.raise2 fn vec).parts = s.parts ∧ (s.raise2 fn vec).sems = s.sems ∧
    (s.raise2 fn vec).evts = s.evts ∧ (s.raise2 fn vec).decks = s.decks ∧ (s.raise2 fn vec).execs = s.execs ∧
    (s.raise2 fn vec).startNo = s.startNo ∧ (s.raise2 fn vec).suspNo = s.suspNo ∧ (s.raise2 fn vec).pinHeld = s.pinHeld ∧
    (s.raise2 fn vec).dropLater = s.dropLater ∧ (s.raise2 fn vec).allocAt = s.allocAt ∧ (s.raise2 fn vec).chans = s.chans ∧
    (s.raise2 fn vec).thapWait = s.thapWait ∧ (s.raise2 fn vec).stepNo = s.stepNo ∧ (s.raise2 fn vec).attn = s.attn ∧
    (s.raise2 fn vec).accts = s.accts ∧ (s.raise2 fn vec).mons = s.mons ∧ (s.raise2 fn vec).margin = s.margin ∧
    (s.raise2 fn vec).ports = s.ports ∧ (s.raise2 fn vec).probes = s.probes ∧ (s.raise2 fn vec).cruiseAt = s.cruiseAt ∧
    (s.raise2 fn vec).routeImage = s.routeImage ∧ (s.raise2 fn vec).inbox = s.inbox ∧
    (s.raise2 fn vec).sendCtx = s.sendCtx ∧ (s.raise2 fn vec).recvCtx = s.recvCtx ∧
    (s.raise2 fn vec).streamNo = s.streamNo ∧ (s.raise2 fn vec).syncAt = s.syncAt ∧ (s.raise2 fn vec).tree = s.tree ∧
    (s.raise2 fn vec).img = s.img ∧ (s.raise2 fn vec).fuses = s.fuses ∧ (s.raise2 fn vec).boot = s.boot ∧
    (s.raise2 fn vec).owner = s.owner ∧ (s.raise2 fn vec).power = s.power ∧ (s.raise2 fn vec).pkg = s.pkg ∧
    (s.raise2 fn vec).mgmt = s.mgmt := by
  simp [State.raise2]

/-- `State.evt` changes nothing but `regs`, `msix`. -/
@[simp] theorem State.evt_frame (f : Field) (u i mask : Nat) (p : Option Nat) :
    (s.evt f u i mask p).pending = s.pending ∧ (s.evt f u i mask p).time = s.time ∧
    (s.evt f u i mask p).calendar = s.calendar ∧ (s.evt f u i mask p).calPhase = s.calPhase ∧
    (s.evt f u i mask p).slew = s.slew ∧ (s.evt f u i mask p).stepped = s.stepped ∧
    (s.evt f u i mask p).deckEver = s.deckEver ∧ (s.evt f u i mask p).free = s.free ∧
    (s.evt f u i mask p).halfW = s.halfW ∧ (s.evt f u i mask p).halfR = s.halfR ∧
    (s.evt f u i mask p).sealWide = s.sealWide ∧ (s.evt f u i mask p).sealParts = s.sealParts ∧
    (s.evt f u i mask p).mem = s.mem ∧ (s.evt f u i mask p).chk = s.chk ∧ (s.evt f u i mask p).prot = s.prot ∧
    (s.evt f u i mask p).rsp = s.rsp ∧ (s.evt f u i mask p).errQ = s.errQ ∧ (s.evt f u i mask p).recCount = s.recCount ∧
    (s.evt f u i mask p).vfQ = s.vfQ ∧ (s.evt f u i mask p).ceSince = s.ceSince ∧ (s.evt f u i mask p).ticks = s.ticks ∧
    (s.evt f u i mask p).wbq = s.wbq ∧ (s.evt f u i mask p).merge = s.merge ∧ (s.evt f u i mask p).scrub = s.scrub ∧
    (s.evt f u i mask p).halted = s.halted ∧ (s.evt f u i mask p).hostReads = s.hostReads ∧
    (s.evt f u i mask p).hostTag = s.hostTag ∧ (s.evt f u i mask p).tiles = s.tiles ∧ (s.evt f u i mask p).arrs = s.arrs ∧
    (s.evt f u i mask p).thrs = s.thrs ∧ (s.evt f u i mask p).jobs = s.jobs ∧ (s.evt f u i mask p).tags = s.tags ∧
    (s.evt f u i mask p).tileSems = s.tileSems ∧ (s.evt f u i mask p).parts = s.parts ∧
    (s.evt f u i mask p).sems = s.sems ∧ (s.evt f u i mask p).evts = s.evts ∧ (s.evt f u i mask p).decks = s.decks ∧
    (s.evt f u i mask p).execs = s.execs ∧ (s.evt f u i mask p).startNo = s.startNo ∧
    (s.evt f u i mask p).suspNo = s.suspNo ∧ (s.evt f u i mask p).pinHeld = s.pinHeld ∧
    (s.evt f u i mask p).dropLater = s.dropLater ∧ (s.evt f u i mask p).allocAt = s.allocAt ∧
    (s.evt f u i mask p).chans = s.chans ∧ (s.evt f u i mask p).thapWait = s.thapWait ∧
    (s.evt f u i mask p).stepNo = s.stepNo ∧ (s.evt f u i mask p).attn = s.attn ∧ (s.evt f u i mask p).accts = s.accts ∧
    (s.evt f u i mask p).mons = s.mons ∧ (s.evt f u i mask p).margin = s.margin ∧ (s.evt f u i mask p).ports = s.ports ∧
    (s.evt f u i mask p).probes = s.probes ∧ (s.evt f u i mask p).cruiseAt = s.cruiseAt ∧
    (s.evt f u i mask p).routeImage = s.routeImage ∧ (s.evt f u i mask p).inbox = s.inbox ∧
    (s.evt f u i mask p).sendCtx = s.sendCtx ∧ (s.evt f u i mask p).recvCtx = s.recvCtx ∧
    (s.evt f u i mask p).streamNo = s.streamNo ∧ (s.evt f u i mask p).syncAt = s.syncAt ∧
    (s.evt f u i mask p).tree = s.tree ∧ (s.evt f u i mask p).img = s.img ∧ (s.evt f u i mask p).fuses = s.fuses ∧
    (s.evt f u i mask p).boot = s.boot ∧ (s.evt f u i mask p).owner = s.owner ∧ (s.evt f u i mask p).power = s.power ∧
    (s.evt f u i mask p).pkg = s.pkg ∧ (s.evt f u i mask p).mgmt = s.mgmt := by
  unfold State.evt
  dsimp only
  split
  · simp
  · split <;> simp

/-- `State.vfCopy` changes nothing but `regs`, `msix`, `vfQ`. -/
@[simp] theorem State.vfCopy_frame (h p : Nat) (r : ErrRec) :
    (s.vfCopy h p r).pending = s.pending ∧ (s.vfCopy h p r).time = s.time ∧ (s.vfCopy h p r).calendar = s.calendar ∧
    (s.vfCopy h p r).calPhase = s.calPhase ∧ (s.vfCopy h p r).slew = s.slew ∧ (s.vfCopy h p r).stepped = s.stepped ∧
    (s.vfCopy h p r).deckEver = s.deckEver ∧ (s.vfCopy h p r).free = s.free ∧ (s.vfCopy h p r).halfW = s.halfW ∧
    (s.vfCopy h p r).halfR = s.halfR ∧ (s.vfCopy h p r).sealWide = s.sealWide ∧ (s.vfCopy h p r).sealParts = s.sealParts ∧
    (s.vfCopy h p r).mem = s.mem ∧ (s.vfCopy h p r).chk = s.chk ∧ (s.vfCopy h p r).prot = s.prot ∧
    (s.vfCopy h p r).rsp = s.rsp ∧ (s.vfCopy h p r).errQ = s.errQ ∧ (s.vfCopy h p r).recCount = s.recCount ∧
    (s.vfCopy h p r).ceSince = s.ceSince ∧ (s.vfCopy h p r).ticks = s.ticks ∧ (s.vfCopy h p r).wbq = s.wbq ∧
    (s.vfCopy h p r).merge = s.merge ∧ (s.vfCopy h p r).scrub = s.scrub ∧ (s.vfCopy h p r).halted = s.halted ∧
    (s.vfCopy h p r).hostReads = s.hostReads ∧ (s.vfCopy h p r).hostTag = s.hostTag ∧ (s.vfCopy h p r).tiles = s.tiles ∧
    (s.vfCopy h p r).arrs = s.arrs ∧ (s.vfCopy h p r).thrs = s.thrs ∧ (s.vfCopy h p r).jobs = s.jobs ∧
    (s.vfCopy h p r).tags = s.tags ∧ (s.vfCopy h p r).tileSems = s.tileSems ∧ (s.vfCopy h p r).parts = s.parts ∧
    (s.vfCopy h p r).sems = s.sems ∧ (s.vfCopy h p r).evts = s.evts ∧ (s.vfCopy h p r).decks = s.decks ∧
    (s.vfCopy h p r).execs = s.execs ∧ (s.vfCopy h p r).startNo = s.startNo ∧ (s.vfCopy h p r).suspNo = s.suspNo ∧
    (s.vfCopy h p r).pinHeld = s.pinHeld ∧ (s.vfCopy h p r).dropLater = s.dropLater ∧
    (s.vfCopy h p r).allocAt = s.allocAt ∧ (s.vfCopy h p r).chans = s.chans ∧ (s.vfCopy h p r).thapWait = s.thapWait ∧
    (s.vfCopy h p r).stepNo = s.stepNo ∧ (s.vfCopy h p r).attn = s.attn ∧ (s.vfCopy h p r).accts = s.accts ∧
    (s.vfCopy h p r).mons = s.mons ∧ (s.vfCopy h p r).margin = s.margin ∧ (s.vfCopy h p r).ports = s.ports ∧
    (s.vfCopy h p r).probes = s.probes ∧ (s.vfCopy h p r).cruiseAt = s.cruiseAt ∧
    (s.vfCopy h p r).routeImage = s.routeImage ∧ (s.vfCopy h p r).inbox = s.inbox ∧ (s.vfCopy h p r).sendCtx = s.sendCtx ∧
    (s.vfCopy h p r).recvCtx = s.recvCtx ∧ (s.vfCopy h p r).streamNo = s.streamNo ∧ (s.vfCopy h p r).syncAt = s.syncAt ∧
    (s.vfCopy h p r).tree = s.tree ∧ (s.vfCopy h p r).img = s.img ∧ (s.vfCopy h p r).fuses = s.fuses ∧
    (s.vfCopy h p r).boot = s.boot ∧ (s.vfCopy h p r).owner = s.owner ∧ (s.vfCopy h p r).power = s.power ∧
    (s.vfCopy h p r).pkg = s.pkg ∧ (s.vfCopy h p r).mgmt = s.mgmt := by
  unfold State.vfCopy
  dsimp only
  split
  · simp
  · split <;> simp

/-- `State.sevEvents` changes nothing but `regs`, `msix`. -/
@[simp] theorem State.sevEvents_frame (h : Nat) (r : ErrRec) :
    (s.sevEvents h r).pending = s.pending ∧ (s.sevEvents h r).time = s.time ∧ (s.sevEvents h r).calendar = s.calendar ∧
    (s.sevEvents h r).calPhase = s.calPhase ∧ (s.sevEvents h r).slew = s.slew ∧ (s.sevEvents h r).stepped = s.stepped ∧
    (s.sevEvents h r).deckEver = s.deckEver ∧ (s.sevEvents h r).free = s.free ∧ (s.sevEvents h r).halfW = s.halfW ∧
    (s.sevEvents h r).halfR = s.halfR ∧ (s.sevEvents h r).sealWide = s.sealWide ∧
    (s.sevEvents h r).sealParts = s.sealParts ∧ (s.sevEvents h r).mem = s.mem ∧ (s.sevEvents h r).chk = s.chk ∧
    (s.sevEvents h r).prot = s.prot ∧ (s.sevEvents h r).rsp = s.rsp ∧ (s.sevEvents h r).errQ = s.errQ ∧
    (s.sevEvents h r).recCount = s.recCount ∧ (s.sevEvents h r).vfQ = s.vfQ ∧ (s.sevEvents h r).ceSince = s.ceSince ∧
    (s.sevEvents h r).ticks = s.ticks ∧ (s.sevEvents h r).wbq = s.wbq ∧ (s.sevEvents h r).merge = s.merge ∧
    (s.sevEvents h r).scrub = s.scrub ∧ (s.sevEvents h r).halted = s.halted ∧ (s.sevEvents h r).hostReads = s.hostReads ∧
    (s.sevEvents h r).hostTag = s.hostTag ∧ (s.sevEvents h r).tiles = s.tiles ∧ (s.sevEvents h r).arrs = s.arrs ∧
    (s.sevEvents h r).thrs = s.thrs ∧ (s.sevEvents h r).jobs = s.jobs ∧ (s.sevEvents h r).tags = s.tags ∧
    (s.sevEvents h r).tileSems = s.tileSems ∧ (s.sevEvents h r).parts = s.parts ∧ (s.sevEvents h r).sems = s.sems ∧
    (s.sevEvents h r).evts = s.evts ∧ (s.sevEvents h r).decks = s.decks ∧ (s.sevEvents h r).execs = s.execs ∧
    (s.sevEvents h r).startNo = s.startNo ∧ (s.sevEvents h r).suspNo = s.suspNo ∧ (s.sevEvents h r).pinHeld = s.pinHeld ∧
    (s.sevEvents h r).dropLater = s.dropLater ∧ (s.sevEvents h r).allocAt = s.allocAt ∧ (s.sevEvents h r).chans = s.chans ∧
    (s.sevEvents h r).thapWait = s.thapWait ∧ (s.sevEvents h r).stepNo = s.stepNo ∧ (s.sevEvents h r).attn = s.attn ∧
    (s.sevEvents h r).accts = s.accts ∧ (s.sevEvents h r).mons = s.mons ∧ (s.sevEvents h r).margin = s.margin ∧
    (s.sevEvents h r).ports = s.ports ∧ (s.sevEvents h r).probes = s.probes ∧ (s.sevEvents h r).cruiseAt = s.cruiseAt ∧
    (s.sevEvents h r).routeImage = s.routeImage ∧ (s.sevEvents h r).inbox = s.inbox ∧
    (s.sevEvents h r).sendCtx = s.sendCtx ∧ (s.sevEvents h r).recvCtx = s.recvCtx ∧
    (s.sevEvents h r).streamNo = s.streamNo ∧ (s.sevEvents h r).syncAt = s.syncAt ∧ (s.sevEvents h r).tree = s.tree ∧
    (s.sevEvents h r).img = s.img ∧ (s.sevEvents h r).fuses = s.fuses ∧ (s.sevEvents h r).boot = s.boot ∧
    (s.sevEvents h r).owner = s.owner ∧ (s.sevEvents h r).power = s.power ∧ (s.sevEvents h r).pkg = s.pkg ∧
    (s.sevEvents h r).mgmt = s.mgmt := by
  unfold State.sevEvents
  split
  · simp
  · split <;> simp

/-- `State.recordFeed` changes nothing but `mgmt`. -/
@[simp] theorem State.recordFeed_frame (r : ErrRec) :
    (s.recordFeed r).pending = s.pending ∧ (s.recordFeed r).time = s.time ∧ (s.recordFeed r).calendar = s.calendar ∧
    (s.recordFeed r).calPhase = s.calPhase ∧ (s.recordFeed r).slew = s.slew ∧ (s.recordFeed r).stepped = s.stepped ∧
    (s.recordFeed r).deckEver = s.deckEver ∧ (s.recordFeed r).free = s.free ∧ (s.recordFeed r).regs = s.regs ∧
    (s.recordFeed r).halfW = s.halfW ∧ (s.recordFeed r).halfR = s.halfR ∧ (s.recordFeed r).sealWide = s.sealWide ∧
    (s.recordFeed r).sealParts = s.sealParts ∧ (s.recordFeed r).mem = s.mem ∧ (s.recordFeed r).chk = s.chk ∧
    (s.recordFeed r).prot = s.prot ∧ (s.recordFeed r).rsp = s.rsp ∧ (s.recordFeed r).errQ = s.errQ ∧
    (s.recordFeed r).recCount = s.recCount ∧ (s.recordFeed r).vfQ = s.vfQ ∧ (s.recordFeed r).ceSince = s.ceSince ∧
    (s.recordFeed r).ticks = s.ticks ∧ (s.recordFeed r).wbq = s.wbq ∧ (s.recordFeed r).merge = s.merge ∧
    (s.recordFeed r).scrub = s.scrub ∧ (s.recordFeed r).halted = s.halted ∧ (s.recordFeed r).msix = s.msix ∧
    (s.recordFeed r).hostReads = s.hostReads ∧ (s.recordFeed r).hostTag = s.hostTag ∧ (s.recordFeed r).tiles = s.tiles ∧
    (s.recordFeed r).arrs = s.arrs ∧ (s.recordFeed r).thrs = s.thrs ∧ (s.recordFeed r).jobs = s.jobs ∧
    (s.recordFeed r).tags = s.tags ∧ (s.recordFeed r).tileSems = s.tileSems ∧ (s.recordFeed r).parts = s.parts ∧
    (s.recordFeed r).sems = s.sems ∧ (s.recordFeed r).evts = s.evts ∧ (s.recordFeed r).decks = s.decks ∧
    (s.recordFeed r).execs = s.execs ∧ (s.recordFeed r).startNo = s.startNo ∧ (s.recordFeed r).suspNo = s.suspNo ∧
    (s.recordFeed r).pinHeld = s.pinHeld ∧ (s.recordFeed r).dropLater = s.dropLater ∧
    (s.recordFeed r).allocAt = s.allocAt ∧ (s.recordFeed r).chans = s.chans ∧ (s.recordFeed r).thapWait = s.thapWait ∧
    (s.recordFeed r).stepNo = s.stepNo ∧ (s.recordFeed r).attn = s.attn ∧ (s.recordFeed r).accts = s.accts ∧
    (s.recordFeed r).mons = s.mons ∧ (s.recordFeed r).margin = s.margin ∧ (s.recordFeed r).ports = s.ports ∧
    (s.recordFeed r).probes = s.probes ∧ (s.recordFeed r).cruiseAt = s.cruiseAt ∧
    (s.recordFeed r).routeImage = s.routeImage ∧ (s.recordFeed r).inbox = s.inbox ∧ (s.recordFeed r).sendCtx = s.sendCtx ∧
    (s.recordFeed r).recvCtx = s.recvCtx ∧ (s.recordFeed r).streamNo = s.streamNo ∧ (s.recordFeed r).syncAt = s.syncAt ∧
    (s.recordFeed r).tree = s.tree ∧ (s.recordFeed r).img = s.img ∧ (s.recordFeed r).fuses = s.fuses ∧
    (s.recordFeed r).boot = s.boot ∧ (s.recordFeed r).owner = s.owner ∧ (s.recordFeed r).power = s.power ∧
    (s.recordFeed r).pkg = s.pkg := by
  unfold State.recordFeed
  split <;> simp

/-- `State.recordQueue` changes nothing but `regs`, `msix`, `errQ`, `recCount`. -/
@[simp] theorem State.recordQueue_frame (h : Nat) (r : ErrRec) :
    (s.recordQueue h r).pending = s.pending ∧ (s.recordQueue h r).time = s.time ∧
    (s.recordQueue h r).calendar = s.calendar ∧ (s.recordQueue h r).calPhase = s.calPhase ∧
    (s.recordQueue h r).slew = s.slew ∧ (s.recordQueue h r).stepped = s.stepped ∧
    (s.recordQueue h r).deckEver = s.deckEver ∧ (s.recordQueue h r).free = s.free ∧ (s.recordQueue h r).halfW = s.halfW ∧
    (s.recordQueue h r).halfR = s.halfR ∧ (s.recordQueue h r).sealWide = s.sealWide ∧
    (s.recordQueue h r).sealParts = s.sealParts ∧ (s.recordQueue h r).mem = s.mem ∧ (s.recordQueue h r).chk = s.chk ∧
    (s.recordQueue h r).prot = s.prot ∧ (s.recordQueue h r).rsp = s.rsp ∧ (s.recordQueue h r).vfQ = s.vfQ ∧
    (s.recordQueue h r).ceSince = s.ceSince ∧ (s.recordQueue h r).ticks = s.ticks ∧ (s.recordQueue h r).wbq = s.wbq ∧
    (s.recordQueue h r).merge = s.merge ∧ (s.recordQueue h r).scrub = s.scrub ∧ (s.recordQueue h r).halted = s.halted ∧
    (s.recordQueue h r).hostReads = s.hostReads ∧ (s.recordQueue h r).hostTag = s.hostTag ∧
    (s.recordQueue h r).tiles = s.tiles ∧ (s.recordQueue h r).arrs = s.arrs ∧ (s.recordQueue h r).thrs = s.thrs ∧
    (s.recordQueue h r).jobs = s.jobs ∧ (s.recordQueue h r).tags = s.tags ∧ (s.recordQueue h r).tileSems = s.tileSems ∧
    (s.recordQueue h r).parts = s.parts ∧ (s.recordQueue h r).sems = s.sems ∧ (s.recordQueue h r).evts = s.evts ∧
    (s.recordQueue h r).decks = s.decks ∧ (s.recordQueue h r).execs = s.execs ∧ (s.recordQueue h r).startNo = s.startNo ∧
    (s.recordQueue h r).suspNo = s.suspNo ∧ (s.recordQueue h r).pinHeld = s.pinHeld ∧
    (s.recordQueue h r).dropLater = s.dropLater ∧ (s.recordQueue h r).allocAt = s.allocAt ∧
    (s.recordQueue h r).chans = s.chans ∧ (s.recordQueue h r).thapWait = s.thapWait ∧
    (s.recordQueue h r).stepNo = s.stepNo ∧ (s.recordQueue h r).attn = s.attn ∧ (s.recordQueue h r).accts = s.accts ∧
    (s.recordQueue h r).mons = s.mons ∧ (s.recordQueue h r).margin = s.margin ∧ (s.recordQueue h r).ports = s.ports ∧
    (s.recordQueue h r).probes = s.probes ∧ (s.recordQueue h r).cruiseAt = s.cruiseAt ∧
    (s.recordQueue h r).routeImage = s.routeImage ∧ (s.recordQueue h r).inbox = s.inbox ∧
    (s.recordQueue h r).sendCtx = s.sendCtx ∧ (s.recordQueue h r).recvCtx = s.recvCtx ∧
    (s.recordQueue h r).streamNo = s.streamNo ∧ (s.recordQueue h r).syncAt = s.syncAt ∧ (s.recordQueue h r).tree = s.tree ∧
    (s.recordQueue h r).img = s.img ∧ (s.recordQueue h r).fuses = s.fuses ∧ (s.recordQueue h r).boot = s.boot ∧
    (s.recordQueue h r).owner = s.owner ∧ (s.recordQueue h r).power = s.power ∧ (s.recordQueue h r).pkg = s.pkg ∧
    (s.recordQueue h r).mgmt = s.mgmt := by
  unfold State.recordQueue
  dsimp only
  split <;> simp

/-- `State.record` changes nothing but `regs`, `msix`, `vfQ`, `errQ`, `recCount`, `mgmt`. -/
@[simp] theorem State.record_frame (h : Nat) (r : ErrRec) :
    (s.record h r).pending = s.pending ∧ (s.record h r).time = s.time ∧ (s.record h r).calendar = s.calendar ∧
    (s.record h r).calPhase = s.calPhase ∧ (s.record h r).slew = s.slew ∧ (s.record h r).stepped = s.stepped ∧
    (s.record h r).deckEver = s.deckEver ∧ (s.record h r).free = s.free ∧ (s.record h r).halfW = s.halfW ∧
    (s.record h r).halfR = s.halfR ∧ (s.record h r).sealWide = s.sealWide ∧ (s.record h r).sealParts = s.sealParts ∧
    (s.record h r).mem = s.mem ∧ (s.record h r).chk = s.chk ∧ (s.record h r).prot = s.prot ∧ (s.record h r).rsp = s.rsp ∧
    (s.record h r).ceSince = s.ceSince ∧ (s.record h r).ticks = s.ticks ∧ (s.record h r).wbq = s.wbq ∧
    (s.record h r).merge = s.merge ∧ (s.record h r).scrub = s.scrub ∧ (s.record h r).halted = s.halted ∧
    (s.record h r).hostReads = s.hostReads ∧ (s.record h r).hostTag = s.hostTag ∧ (s.record h r).tiles = s.tiles ∧
    (s.record h r).arrs = s.arrs ∧ (s.record h r).thrs = s.thrs ∧ (s.record h r).jobs = s.jobs ∧
    (s.record h r).tags = s.tags ∧ (s.record h r).tileSems = s.tileSems ∧ (s.record h r).parts = s.parts ∧
    (s.record h r).sems = s.sems ∧ (s.record h r).evts = s.evts ∧ (s.record h r).decks = s.decks ∧
    (s.record h r).execs = s.execs ∧ (s.record h r).startNo = s.startNo ∧ (s.record h r).suspNo = s.suspNo ∧
    (s.record h r).pinHeld = s.pinHeld ∧ (s.record h r).dropLater = s.dropLater ∧ (s.record h r).allocAt = s.allocAt ∧
    (s.record h r).chans = s.chans ∧ (s.record h r).thapWait = s.thapWait ∧ (s.record h r).stepNo = s.stepNo ∧
    (s.record h r).attn = s.attn ∧ (s.record h r).accts = s.accts ∧ (s.record h r).mons = s.mons ∧
    (s.record h r).margin = s.margin ∧ (s.record h r).ports = s.ports ∧ (s.record h r).probes = s.probes ∧
    (s.record h r).cruiseAt = s.cruiseAt ∧ (s.record h r).routeImage = s.routeImage ∧ (s.record h r).inbox = s.inbox ∧
    (s.record h r).sendCtx = s.sendCtx ∧ (s.record h r).recvCtx = s.recvCtx ∧ (s.record h r).streamNo = s.streamNo ∧
    (s.record h r).syncAt = s.syncAt ∧ (s.record h r).tree = s.tree ∧ (s.record h r).img = s.img ∧
    (s.record h r).fuses = s.fuses ∧ (s.record h r).boot = s.boot ∧ (s.record h r).owner = s.owner ∧
    (s.record h r).power = s.power ∧ (s.record h r).pkg = s.pkg := by
  unfold State.record
  dsimp only
  split <;> simp

/-- `State.refusalOf` changes nothing but `regs`, `msix`. -/
@[simp] theorem State.refusalOf_frame (p : Option Nat) (r : Right) (src a : Nat) :
    (s.refusalOf p r src a).pending = s.pending ∧ (s.refusalOf p r src a).time = s.time ∧
    (s.refusalOf p r src a).calendar = s.calendar ∧ (s.refusalOf p r src a).calPhase = s.calPhase ∧
    (s.refusalOf p r src a).slew = s.slew ∧ (s.refusalOf p r src a).stepped = s.stepped ∧
    (s.refusalOf p r src a).deckEver = s.deckEver ∧ (s.refusalOf p r src a).free = s.free ∧
    (s.refusalOf p r src a).halfW = s.halfW ∧ (s.refusalOf p r src a).halfR = s.halfR ∧
    (s.refusalOf p r src a).sealWide = s.sealWide ∧ (s.refusalOf p r src a).sealParts = s.sealParts ∧
    (s.refusalOf p r src a).mem = s.mem ∧ (s.refusalOf p r src a).chk = s.chk ∧ (s.refusalOf p r src a).prot = s.prot ∧
    (s.refusalOf p r src a).rsp = s.rsp ∧ (s.refusalOf p r src a).errQ = s.errQ ∧
    (s.refusalOf p r src a).recCount = s.recCount ∧ (s.refusalOf p r src a).vfQ = s.vfQ ∧
    (s.refusalOf p r src a).ceSince = s.ceSince ∧ (s.refusalOf p r src a).ticks = s.ticks ∧
    (s.refusalOf p r src a).wbq = s.wbq ∧ (s.refusalOf p r src a).merge = s.merge ∧
    (s.refusalOf p r src a).scrub = s.scrub ∧ (s.refusalOf p r src a).halted = s.halted ∧
    (s.refusalOf p r src a).hostReads = s.hostReads ∧ (s.refusalOf p r src a).hostTag = s.hostTag ∧
    (s.refusalOf p r src a).tiles = s.tiles ∧ (s.refusalOf p r src a).arrs = s.arrs ∧
    (s.refusalOf p r src a).thrs = s.thrs ∧ (s.refusalOf p r src a).jobs = s.jobs ∧ (s.refusalOf p r src a).tags = s.tags ∧
    (s.refusalOf p r src a).tileSems = s.tileSems ∧ (s.refusalOf p r src a).parts = s.parts ∧
    (s.refusalOf p r src a).sems = s.sems ∧ (s.refusalOf p r src a).evts = s.evts ∧
    (s.refusalOf p r src a).decks = s.decks ∧ (s.refusalOf p r src a).execs = s.execs ∧
    (s.refusalOf p r src a).startNo = s.startNo ∧ (s.refusalOf p r src a).suspNo = s.suspNo ∧
    (s.refusalOf p r src a).pinHeld = s.pinHeld ∧ (s.refusalOf p r src a).dropLater = s.dropLater ∧
    (s.refusalOf p r src a).allocAt = s.allocAt ∧ (s.refusalOf p r src a).chans = s.chans ∧
    (s.refusalOf p r src a).thapWait = s.thapWait ∧ (s.refusalOf p r src a).stepNo = s.stepNo ∧
    (s.refusalOf p r src a).attn = s.attn ∧ (s.refusalOf p r src a).accts = s.accts ∧
    (s.refusalOf p r src a).mons = s.mons ∧ (s.refusalOf p r src a).margin = s.margin ∧
    (s.refusalOf p r src a).ports = s.ports ∧ (s.refusalOf p r src a).probes = s.probes ∧
    (s.refusalOf p r src a).cruiseAt = s.cruiseAt ∧ (s.refusalOf p r src a).routeImage = s.routeImage ∧
    (s.refusalOf p r src a).inbox = s.inbox ∧ (s.refusalOf p r src a).sendCtx = s.sendCtx ∧
    (s.refusalOf p r src a).recvCtx = s.recvCtx ∧ (s.refusalOf p r src a).streamNo = s.streamNo ∧
    (s.refusalOf p r src a).syncAt = s.syncAt ∧ (s.refusalOf p r src a).tree = s.tree ∧
    (s.refusalOf p r src a).img = s.img ∧ (s.refusalOf p r src a).fuses = s.fuses ∧ (s.refusalOf p r src a).boot = s.boot ∧
    (s.refusalOf p r src a).owner = s.owner ∧ (s.refusalOf p r src a).power = s.power ∧
    (s.refusalOf p r src a).pkg = s.pkg ∧ (s.refusalOf p r src a).mgmt = s.mgmt := by
  unfold State.refusalOf
  dsimp only
  split <;> simp

/-- `State.refusal` changes nothing but `regs`, `msix`. -/
@[simp] theorem State.refusal_frame (p : Nat) (r : Right) (src a : Nat) :
    (s.refusal p r src a).pending = s.pending ∧ (s.refusal p r src a).time = s.time ∧
    (s.refusal p r src a).calendar = s.calendar ∧ (s.refusal p r src a).calPhase = s.calPhase ∧
    (s.refusal p r src a).slew = s.slew ∧ (s.refusal p r src a).stepped = s.stepped ∧
    (s.refusal p r src a).deckEver = s.deckEver ∧ (s.refusal p r src a).free = s.free ∧
    (s.refusal p r src a).halfW = s.halfW ∧ (s.refusal p r src a).halfR = s.halfR ∧
    (s.refusal p r src a).sealWide = s.sealWide ∧ (s.refusal p r src a).sealParts = s.sealParts ∧
    (s.refusal p r src a).mem = s.mem ∧ (s.refusal p r src a).chk = s.chk ∧ (s.refusal p r src a).prot = s.prot ∧
    (s.refusal p r src a).rsp = s.rsp ∧ (s.refusal p r src a).errQ = s.errQ ∧ (s.refusal p r src a).recCount = s.recCount ∧
    (s.refusal p r src a).vfQ = s.vfQ ∧ (s.refusal p r src a).ceSince = s.ceSince ∧ (s.refusal p r src a).ticks = s.ticks ∧
    (s.refusal p r src a).wbq = s.wbq ∧ (s.refusal p r src a).merge = s.merge ∧ (s.refusal p r src a).scrub = s.scrub ∧
    (s.refusal p r src a).halted = s.halted ∧ (s.refusal p r src a).hostReads = s.hostReads ∧
    (s.refusal p r src a).hostTag = s.hostTag ∧ (s.refusal p r src a).tiles = s.tiles ∧
    (s.refusal p r src a).arrs = s.arrs ∧ (s.refusal p r src a).thrs = s.thrs ∧ (s.refusal p r src a).jobs = s.jobs ∧
    (s.refusal p r src a).tags = s.tags ∧ (s.refusal p r src a).tileSems = s.tileSems ∧
    (s.refusal p r src a).parts = s.parts ∧ (s.refusal p r src a).sems = s.sems ∧ (s.refusal p r src a).evts = s.evts ∧
    (s.refusal p r src a).decks = s.decks ∧ (s.refusal p r src a).execs = s.execs ∧
    (s.refusal p r src a).startNo = s.startNo ∧ (s.refusal p r src a).suspNo = s.suspNo ∧
    (s.refusal p r src a).pinHeld = s.pinHeld ∧ (s.refusal p r src a).dropLater = s.dropLater ∧
    (s.refusal p r src a).allocAt = s.allocAt ∧ (s.refusal p r src a).chans = s.chans ∧
    (s.refusal p r src a).thapWait = s.thapWait ∧ (s.refusal p r src a).stepNo = s.stepNo ∧
    (s.refusal p r src a).attn = s.attn ∧ (s.refusal p r src a).accts = s.accts ∧ (s.refusal p r src a).mons = s.mons ∧
    (s.refusal p r src a).margin = s.margin ∧ (s.refusal p r src a).ports = s.ports ∧
    (s.refusal p r src a).probes = s.probes ∧ (s.refusal p r src a).cruiseAt = s.cruiseAt ∧
    (s.refusal p r src a).routeImage = s.routeImage ∧ (s.refusal p r src a).inbox = s.inbox ∧
    (s.refusal p r src a).sendCtx = s.sendCtx ∧ (s.refusal p r src a).recvCtx = s.recvCtx ∧
    (s.refusal p r src a).streamNo = s.streamNo ∧ (s.refusal p r src a).syncAt = s.syncAt ∧
    (s.refusal p r src a).tree = s.tree ∧ (s.refusal p r src a).img = s.img ∧ (s.refusal p r src a).fuses = s.fuses ∧
    (s.refusal p r src a).boot = s.boot ∧ (s.refusal p r src a).owner = s.owner ∧ (s.refusal p r src a).power = s.power ∧
    (s.refusal p r src a).pkg = s.pkg ∧ (s.refusal p r src a).mgmt = s.mgmt := by
  simp [State.refusal]

/-- `State.windowMiss` changes nothing but `regs`, `msix`. -/
@[simp] theorem State.windowMiss_frame (h p : Nat) (r : Right) (src a : Nat) :
    (s.windowMiss h p r src a).pending = s.pending ∧ (s.windowMiss h p r src a).time = s.time ∧
    (s.windowMiss h p r src a).calendar = s.calendar ∧ (s.windowMiss h p r src a).calPhase = s.calPhase ∧
    (s.windowMiss h p r src a).slew = s.slew ∧ (s.windowMiss h p r src a).stepped = s.stepped ∧
    (s.windowMiss h p r src a).deckEver = s.deckEver ∧ (s.windowMiss h p r src a).free = s.free ∧
    (s.windowMiss h p r src a).halfW = s.halfW ∧ (s.windowMiss h p r src a).halfR = s.halfR ∧
    (s.windowMiss h p r src a).sealWide = s.sealWide ∧ (s.windowMiss h p r src a).sealParts = s.sealParts ∧
    (s.windowMiss h p r src a).mem = s.mem ∧ (s.windowMiss h p r src a).chk = s.chk ∧
    (s.windowMiss h p r src a).prot = s.prot ∧ (s.windowMiss h p r src a).rsp = s.rsp ∧
    (s.windowMiss h p r src a).errQ = s.errQ ∧ (s.windowMiss h p r src a).recCount = s.recCount ∧
    (s.windowMiss h p r src a).vfQ = s.vfQ ∧ (s.windowMiss h p r src a).ceSince = s.ceSince ∧
    (s.windowMiss h p r src a).ticks = s.ticks ∧ (s.windowMiss h p r src a).wbq = s.wbq ∧
    (s.windowMiss h p r src a).merge = s.merge ∧ (s.windowMiss h p r src a).scrub = s.scrub ∧
    (s.windowMiss h p r src a).halted = s.halted ∧ (s.windowMiss h p r src a).hostReads = s.hostReads ∧
    (s.windowMiss h p r src a).hostTag = s.hostTag ∧ (s.windowMiss h p r src a).tiles = s.tiles ∧
    (s.windowMiss h p r src a).arrs = s.arrs ∧ (s.windowMiss h p r src a).thrs = s.thrs ∧
    (s.windowMiss h p r src a).jobs = s.jobs ∧ (s.windowMiss h p r src a).tags = s.tags ∧
    (s.windowMiss h p r src a).tileSems = s.tileSems ∧ (s.windowMiss h p r src a).parts = s.parts ∧
    (s.windowMiss h p r src a).sems = s.sems ∧ (s.windowMiss h p r src a).evts = s.evts ∧
    (s.windowMiss h p r src a).decks = s.decks ∧ (s.windowMiss h p r src a).execs = s.execs ∧
    (s.windowMiss h p r src a).startNo = s.startNo ∧ (s.windowMiss h p r src a).suspNo = s.suspNo ∧
    (s.windowMiss h p r src a).pinHeld = s.pinHeld ∧ (s.windowMiss h p r src a).dropLater = s.dropLater ∧
    (s.windowMiss h p r src a).allocAt = s.allocAt ∧ (s.windowMiss h p r src a).chans = s.chans ∧
    (s.windowMiss h p r src a).thapWait = s.thapWait ∧ (s.windowMiss h p r src a).stepNo = s.stepNo ∧
    (s.windowMiss h p r src a).attn = s.attn ∧ (s.windowMiss h p r src a).accts = s.accts ∧
    (s.windowMiss h p r src a).mons = s.mons ∧ (s.windowMiss h p r src a).margin = s.margin ∧
    (s.windowMiss h p r src a).ports = s.ports ∧ (s.windowMiss h p r src a).probes = s.probes ∧
    (s.windowMiss h p r src a).cruiseAt = s.cruiseAt ∧ (s.windowMiss h p r src a).routeImage = s.routeImage ∧
    (s.windowMiss h p r src a).inbox = s.inbox ∧ (s.windowMiss h p r src a).sendCtx = s.sendCtx ∧
    (s.windowMiss h p r src a).recvCtx = s.recvCtx ∧ (s.windowMiss h p r src a).streamNo = s.streamNo ∧
    (s.windowMiss h p r src a).syncAt = s.syncAt ∧ (s.windowMiss h p r src a).tree = s.tree ∧
    (s.windowMiss h p r src a).img = s.img ∧ (s.windowMiss h p r src a).fuses = s.fuses ∧
    (s.windowMiss h p r src a).boot = s.boot ∧ (s.windowMiss h p r src a).owner = s.owner ∧
    (s.windowMiss h p r src a).power = s.power ∧ (s.windowMiss h p r src a).pkg = s.pkg ∧
    (s.windowMiss h p r src a).mgmt = s.mgmt := by
  simp [State.windowMiss]

/-- `State.storeClean` changes nothing but `mem`, `chk`, `wbq`. -/
@[simp] theorem State.storeClean_frame (w : Nat) (bs : List Byte) :
    (s.storeClean w bs).pending = s.pending ∧ (s.storeClean w bs).time = s.time ∧
    (s.storeClean w bs).calendar = s.calendar ∧ (s.storeClean w bs).calPhase = s.calPhase ∧
    (s.storeClean w bs).slew = s.slew ∧ (s.storeClean w bs).stepped = s.stepped ∧
    (s.storeClean w bs).deckEver = s.deckEver ∧ (s.storeClean w bs).free = s.free ∧ (s.storeClean w bs).regs = s.regs ∧
    (s.storeClean w bs).halfW = s.halfW ∧ (s.storeClean w bs).halfR = s.halfR ∧ (s.storeClean w bs).sealWide = s.sealWide ∧
    (s.storeClean w bs).sealParts = s.sealParts ∧ (s.storeClean w bs).prot = s.prot ∧ (s.storeClean w bs).rsp = s.rsp ∧
    (s.storeClean w bs).errQ = s.errQ ∧ (s.storeClean w bs).recCount = s.recCount ∧ (s.storeClean w bs).vfQ = s.vfQ ∧
    (s.storeClean w bs).ceSince = s.ceSince ∧ (s.storeClean w bs).ticks = s.ticks ∧ (s.storeClean w bs).merge = s.merge ∧
    (s.storeClean w bs).scrub = s.scrub ∧ (s.storeClean w bs).halted = s.halted ∧ (s.storeClean w bs).msix = s.msix ∧
    (s.storeClean w bs).hostReads = s.hostReads ∧ (s.storeClean w bs).hostTag = s.hostTag ∧
    (s.storeClean w bs).tiles = s.tiles ∧ (s.storeClean w bs).arrs = s.arrs ∧ (s.storeClean w bs).thrs = s.thrs ∧
    (s.storeClean w bs).jobs = s.jobs ∧ (s.storeClean w bs).tags = s.tags ∧ (s.storeClean w bs).tileSems = s.tileSems ∧
    (s.storeClean w bs).parts = s.parts ∧ (s.storeClean w bs).sems = s.sems ∧ (s.storeClean w bs).evts = s.evts ∧
    (s.storeClean w bs).decks = s.decks ∧ (s.storeClean w bs).execs = s.execs ∧ (s.storeClean w bs).startNo = s.startNo ∧
    (s.storeClean w bs).suspNo = s.suspNo ∧ (s.storeClean w bs).pinHeld = s.pinHeld ∧
    (s.storeClean w bs).dropLater = s.dropLater ∧ (s.storeClean w bs).allocAt = s.allocAt ∧
    (s.storeClean w bs).chans = s.chans ∧ (s.storeClean w bs).thapWait = s.thapWait ∧
    (s.storeClean w bs).stepNo = s.stepNo ∧ (s.storeClean w bs).attn = s.attn ∧ (s.storeClean w bs).accts = s.accts ∧
    (s.storeClean w bs).mons = s.mons ∧ (s.storeClean w bs).margin = s.margin ∧ (s.storeClean w bs).ports = s.ports ∧
    (s.storeClean w bs).probes = s.probes ∧ (s.storeClean w bs).cruiseAt = s.cruiseAt ∧
    (s.storeClean w bs).routeImage = s.routeImage ∧ (s.storeClean w bs).inbox = s.inbox ∧
    (s.storeClean w bs).sendCtx = s.sendCtx ∧ (s.storeClean w bs).recvCtx = s.recvCtx ∧
    (s.storeClean w bs).streamNo = s.streamNo ∧ (s.storeClean w bs).syncAt = s.syncAt ∧ (s.storeClean w bs).tree = s.tree ∧
    (s.storeClean w bs).img = s.img ∧ (s.storeClean w bs).fuses = s.fuses ∧ (s.storeClean w bs).boot = s.boot ∧
    (s.storeClean w bs).owner = s.owner ∧ (s.storeClean w bs).power = s.power ∧ (s.storeClean w bs).pkg = s.pkg ∧
    (s.storeClean w bs).mgmt = s.mgmt := by
  simp [State.storeClean]

/-- `State.storePoison` changes nothing but `mem`, `chk`, `wbq`. -/
@[simp] theorem State.storePoison_frame (w : Nat) (bs : List Byte) :
    (s.storePoison w bs).pending = s.pending ∧ (s.storePoison w bs).time = s.time ∧
    (s.storePoison w bs).calendar = s.calendar ∧ (s.storePoison w bs).calPhase = s.calPhase ∧
    (s.storePoison w bs).slew = s.slew ∧ (s.storePoison w bs).stepped = s.stepped ∧
    (s.storePoison w bs).deckEver = s.deckEver ∧ (s.storePoison w bs).free = s.free ∧ (s.storePoison w bs).regs = s.regs ∧
    (s.storePoison w bs).halfW = s.halfW ∧ (s.storePoison w bs).halfR = s.halfR ∧
    (s.storePoison w bs).sealWide = s.sealWide ∧ (s.storePoison w bs).sealParts = s.sealParts ∧
    (s.storePoison w bs).prot = s.prot ∧ (s.storePoison w bs).rsp = s.rsp ∧ (s.storePoison w bs).errQ = s.errQ ∧
    (s.storePoison w bs).recCount = s.recCount ∧ (s.storePoison w bs).vfQ = s.vfQ ∧
    (s.storePoison w bs).ceSince = s.ceSince ∧ (s.storePoison w bs).ticks = s.ticks ∧
    (s.storePoison w bs).merge = s.merge ∧ (s.storePoison w bs).scrub = s.scrub ∧ (s.storePoison w bs).halted = s.halted ∧
    (s.storePoison w bs).msix = s.msix ∧ (s.storePoison w bs).hostReads = s.hostReads ∧
    (s.storePoison w bs).hostTag = s.hostTag ∧ (s.storePoison w bs).tiles = s.tiles ∧ (s.storePoison w bs).arrs = s.arrs ∧
    (s.storePoison w bs).thrs = s.thrs ∧ (s.storePoison w bs).jobs = s.jobs ∧ (s.storePoison w bs).tags = s.tags ∧
    (s.storePoison w bs).tileSems = s.tileSems ∧ (s.storePoison w bs).parts = s.parts ∧
    (s.storePoison w bs).sems = s.sems ∧ (s.storePoison w bs).evts = s.evts ∧ (s.storePoison w bs).decks = s.decks ∧
    (s.storePoison w bs).execs = s.execs ∧ (s.storePoison w bs).startNo = s.startNo ∧
    (s.storePoison w bs).suspNo = s.suspNo ∧ (s.storePoison w bs).pinHeld = s.pinHeld ∧
    (s.storePoison w bs).dropLater = s.dropLater ∧ (s.storePoison w bs).allocAt = s.allocAt ∧
    (s.storePoison w bs).chans = s.chans ∧ (s.storePoison w bs).thapWait = s.thapWait ∧
    (s.storePoison w bs).stepNo = s.stepNo ∧ (s.storePoison w bs).attn = s.attn ∧ (s.storePoison w bs).accts = s.accts ∧
    (s.storePoison w bs).mons = s.mons ∧ (s.storePoison w bs).margin = s.margin ∧ (s.storePoison w bs).ports = s.ports ∧
    (s.storePoison w bs).probes = s.probes ∧ (s.storePoison w bs).cruiseAt = s.cruiseAt ∧
    (s.storePoison w bs).routeImage = s.routeImage ∧ (s.storePoison w bs).inbox = s.inbox ∧
    (s.storePoison w bs).sendCtx = s.sendCtx ∧ (s.storePoison w bs).recvCtx = s.recvCtx ∧
    (s.storePoison w bs).streamNo = s.streamNo ∧ (s.storePoison w bs).syncAt = s.syncAt ∧
    (s.storePoison w bs).tree = s.tree ∧ (s.storePoison w bs).img = s.img ∧ (s.storePoison w bs).fuses = s.fuses ∧
    (s.storePoison w bs).boot = s.boot ∧ (s.storePoison w bs).owner = s.owner ∧ (s.storePoison w bs).power = s.power ∧
    (s.storePoison w bs).pkg = s.pkg ∧ (s.storePoison w bs).mgmt = s.mgmt := by
  simp [State.storePoison]

/-- `State.markPoison` changes nothing but `chk`, `wbq`. -/
@[simp] theorem State.markPoison_frame (w : Nat) :
    (s.markPoison w).pending = s.pending ∧ (s.markPoison w).time = s.time ∧ (s.markPoison w).calendar = s.calendar ∧
    (s.markPoison w).calPhase = s.calPhase ∧ (s.markPoison w).slew = s.slew ∧ (s.markPoison w).stepped = s.stepped ∧
    (s.markPoison w).deckEver = s.deckEver ∧ (s.markPoison w).free = s.free ∧ (s.markPoison w).regs = s.regs ∧
    (s.markPoison w).halfW = s.halfW ∧ (s.markPoison w).halfR = s.halfR ∧ (s.markPoison w).sealWide = s.sealWide ∧
    (s.markPoison w).sealParts = s.sealParts ∧ (s.markPoison w).mem = s.mem ∧ (s.markPoison w).prot = s.prot ∧
    (s.markPoison w).rsp = s.rsp ∧ (s.markPoison w).errQ = s.errQ ∧ (s.markPoison w).recCount = s.recCount ∧
    (s.markPoison w).vfQ = s.vfQ ∧ (s.markPoison w).ceSince = s.ceSince ∧ (s.markPoison w).ticks = s.ticks ∧
    (s.markPoison w).merge = s.merge ∧ (s.markPoison w).scrub = s.scrub ∧ (s.markPoison w).halted = s.halted ∧
    (s.markPoison w).msix = s.msix ∧ (s.markPoison w).hostReads = s.hostReads ∧ (s.markPoison w).hostTag = s.hostTag ∧
    (s.markPoison w).tiles = s.tiles ∧ (s.markPoison w).arrs = s.arrs ∧ (s.markPoison w).thrs = s.thrs ∧
    (s.markPoison w).jobs = s.jobs ∧ (s.markPoison w).tags = s.tags ∧ (s.markPoison w).tileSems = s.tileSems ∧
    (s.markPoison w).parts = s.parts ∧ (s.markPoison w).sems = s.sems ∧ (s.markPoison w).evts = s.evts ∧
    (s.markPoison w).decks = s.decks ∧ (s.markPoison w).execs = s.execs ∧ (s.markPoison w).startNo = s.startNo ∧
    (s.markPoison w).suspNo = s.suspNo ∧ (s.markPoison w).pinHeld = s.pinHeld ∧ (s.markPoison w).dropLater = s.dropLater ∧
    (s.markPoison w).allocAt = s.allocAt ∧ (s.markPoison w).chans = s.chans ∧ (s.markPoison w).thapWait = s.thapWait ∧
    (s.markPoison w).stepNo = s.stepNo ∧ (s.markPoison w).attn = s.attn ∧ (s.markPoison w).accts = s.accts ∧
    (s.markPoison w).mons = s.mons ∧ (s.markPoison w).margin = s.margin ∧ (s.markPoison w).ports = s.ports ∧
    (s.markPoison w).probes = s.probes ∧ (s.markPoison w).cruiseAt = s.cruiseAt ∧
    (s.markPoison w).routeImage = s.routeImage ∧ (s.markPoison w).inbox = s.inbox ∧ (s.markPoison w).sendCtx = s.sendCtx ∧
    (s.markPoison w).recvCtx = s.recvCtx ∧ (s.markPoison w).streamNo = s.streamNo ∧ (s.markPoison w).syncAt = s.syncAt ∧
    (s.markPoison w).tree = s.tree ∧ (s.markPoison w).img = s.img ∧ (s.markPoison w).fuses = s.fuses ∧
    (s.markPoison w).boot = s.boot ∧ (s.markPoison w).owner = s.owner ∧ (s.markPoison w).power = s.power ∧
    (s.markPoison w).pkg = s.pkg ∧ (s.markPoison w).mgmt = s.mgmt := by
  unfold State.markPoison
  split <;> simp

/-- `State.supersede` changes nothing but `merge`. -/
@[simp] theorem State.supersede_frame (k n : Nat) :
    (s.supersede k n).pending = s.pending ∧ (s.supersede k n).time = s.time ∧ (s.supersede k n).calendar = s.calendar ∧
    (s.supersede k n).calPhase = s.calPhase ∧ (s.supersede k n).slew = s.slew ∧ (s.supersede k n).stepped = s.stepped ∧
    (s.supersede k n).deckEver = s.deckEver ∧ (s.supersede k n).free = s.free ∧ (s.supersede k n).regs = s.regs ∧
    (s.supersede k n).halfW = s.halfW ∧ (s.supersede k n).halfR = s.halfR ∧ (s.supersede k n).sealWide = s.sealWide ∧
    (s.supersede k n).sealParts = s.sealParts ∧ (s.supersede k n).mem = s.mem ∧ (s.supersede k n).chk = s.chk ∧
    (s.supersede k n).prot = s.prot ∧ (s.supersede k n).rsp = s.rsp ∧ (s.supersede k n).errQ = s.errQ ∧
    (s.supersede k n).recCount = s.recCount ∧ (s.supersede k n).vfQ = s.vfQ ∧ (s.supersede k n).ceSince = s.ceSince ∧
    (s.supersede k n).ticks = s.ticks ∧ (s.supersede k n).wbq = s.wbq ∧ (s.supersede k n).scrub = s.scrub ∧
    (s.supersede k n).halted = s.halted ∧ (s.supersede k n).msix = s.msix ∧ (s.supersede k n).hostReads = s.hostReads ∧
    (s.supersede k n).hostTag = s.hostTag ∧ (s.supersede k n).tiles = s.tiles ∧ (s.supersede k n).arrs = s.arrs ∧
    (s.supersede k n).thrs = s.thrs ∧ (s.supersede k n).jobs = s.jobs ∧ (s.supersede k n).tags = s.tags ∧
    (s.supersede k n).tileSems = s.tileSems ∧ (s.supersede k n).parts = s.parts ∧ (s.supersede k n).sems = s.sems ∧
    (s.supersede k n).evts = s.evts ∧ (s.supersede k n).decks = s.decks ∧ (s.supersede k n).execs = s.execs ∧
    (s.supersede k n).startNo = s.startNo ∧ (s.supersede k n).suspNo = s.suspNo ∧ (s.supersede k n).pinHeld = s.pinHeld ∧
    (s.supersede k n).dropLater = s.dropLater ∧ (s.supersede k n).allocAt = s.allocAt ∧ (s.supersede k n).chans = s.chans ∧
    (s.supersede k n).thapWait = s.thapWait ∧ (s.supersede k n).stepNo = s.stepNo ∧ (s.supersede k n).attn = s.attn ∧
    (s.supersede k n).accts = s.accts ∧ (s.supersede k n).mons = s.mons ∧ (s.supersede k n).margin = s.margin ∧
    (s.supersede k n).ports = s.ports ∧ (s.supersede k n).probes = s.probes ∧ (s.supersede k n).cruiseAt = s.cruiseAt ∧
    (s.supersede k n).routeImage = s.routeImage ∧ (s.supersede k n).inbox = s.inbox ∧
    (s.supersede k n).sendCtx = s.sendCtx ∧ (s.supersede k n).recvCtx = s.recvCtx ∧
    (s.supersede k n).streamNo = s.streamNo ∧ (s.supersede k n).syncAt = s.syncAt ∧ (s.supersede k n).tree = s.tree ∧
    (s.supersede k n).img = s.img ∧ (s.supersede k n).fuses = s.fuses ∧ (s.supersede k n).boot = s.boot ∧
    (s.supersede k n).owner = s.owner ∧ (s.supersede k n).power = s.power ∧ (s.supersede k n).pkg = s.pkg ∧
    (s.supersede k n).mgmt = s.mgmt := by
  simp [State.supersede]

/-- `State.tallyAdd` changes nothing but `regs`, `msix`, `vfQ`, `errQ`, `recCount`, `mgmt`, `ceSince`. -/
@[simp] theorem State.tallyAdd_frame (h n : Nat) (r : ErrRec) :
    (s.tallyAdd h n r).pending = s.pending ∧ (s.tallyAdd h n r).time = s.time ∧ (s.tallyAdd h n r).calendar = s.calendar ∧
    (s.tallyAdd h n r).calPhase = s.calPhase ∧ (s.tallyAdd h n r).slew = s.slew ∧ (s.tallyAdd h n r).stepped = s.stepped ∧
    (s.tallyAdd h n r).deckEver = s.deckEver ∧ (s.tallyAdd h n r).free = s.free ∧ (s.tallyAdd h n r).halfW = s.halfW ∧
    (s.tallyAdd h n r).halfR = s.halfR ∧ (s.tallyAdd h n r).sealWide = s.sealWide ∧
    (s.tallyAdd h n r).sealParts = s.sealParts ∧ (s.tallyAdd h n r).mem = s.mem ∧ (s.tallyAdd h n r).chk = s.chk ∧
    (s.tallyAdd h n r).prot = s.prot ∧ (s.tallyAdd h n r).rsp = s.rsp ∧ (s.tallyAdd h n r).ticks = s.ticks ∧
    (s.tallyAdd h n r).wbq = s.wbq ∧ (s.tallyAdd h n r).merge = s.merge ∧ (s.tallyAdd h n r).scrub = s.scrub ∧
    (s.tallyAdd h n r).halted = s.halted ∧ (s.tallyAdd h n r).hostReads = s.hostReads ∧
    (s.tallyAdd h n r).hostTag = s.hostTag ∧ (s.tallyAdd h n r).tiles = s.tiles ∧ (s.tallyAdd h n r).arrs = s.arrs ∧
    (s.tallyAdd h n r).thrs = s.thrs ∧ (s.tallyAdd h n r).jobs = s.jobs ∧ (s.tallyAdd h n r).tags = s.tags ∧
    (s.tallyAdd h n r).tileSems = s.tileSems ∧ (s.tallyAdd h n r).parts = s.parts ∧ (s.tallyAdd h n r).sems = s.sems ∧
    (s.tallyAdd h n r).evts = s.evts ∧ (s.tallyAdd h n r).decks = s.decks ∧ (s.tallyAdd h n r).execs = s.execs ∧
    (s.tallyAdd h n r).startNo = s.startNo ∧ (s.tallyAdd h n r).suspNo = s.suspNo ∧
    (s.tallyAdd h n r).pinHeld = s.pinHeld ∧ (s.tallyAdd h n r).dropLater = s.dropLater ∧
    (s.tallyAdd h n r).allocAt = s.allocAt ∧ (s.tallyAdd h n r).chans = s.chans ∧
    (s.tallyAdd h n r).thapWait = s.thapWait ∧ (s.tallyAdd h n r).stepNo = s.stepNo ∧ (s.tallyAdd h n r).attn = s.attn ∧
    (s.tallyAdd h n r).accts = s.accts ∧ (s.tallyAdd h n r).mons = s.mons ∧ (s.tallyAdd h n r).margin = s.margin ∧
    (s.tallyAdd h n r).ports = s.ports ∧ (s.tallyAdd h n r).probes = s.probes ∧ (s.tallyAdd h n r).cruiseAt = s.cruiseAt ∧
    (s.tallyAdd h n r).routeImage = s.routeImage ∧ (s.tallyAdd h n r).inbox = s.inbox ∧
    (s.tallyAdd h n r).sendCtx = s.sendCtx ∧ (s.tallyAdd h n r).recvCtx = s.recvCtx ∧
    (s.tallyAdd h n r).streamNo = s.streamNo ∧ (s.tallyAdd h n r).syncAt = s.syncAt ∧ (s.tallyAdd h n r).tree = s.tree ∧
    (s.tallyAdd h n r).img = s.img ∧ (s.tallyAdd h n r).fuses = s.fuses ∧ (s.tallyAdd h n r).boot = s.boot ∧
    (s.tallyAdd h n r).owner = s.owner ∧ (s.tallyAdd h n r).power = s.power ∧ (s.tallyAdd h n r).pkg = s.pkg := by
  unfold State.tallyAdd
  dsimp only
  split <;> simp

/-- `State.tallyWord` changes nothing but `regs`, `msix`, `vfQ`, `errQ`, `recCount`, `mgmt`, `ceSince`. -/
@[simp] theorem State.tallyWord_frame (w src : Nat) (p : Option Nat) :
    (s.tallyWord w src p).pending = s.pending ∧ (s.tallyWord w src p).time = s.time ∧
    (s.tallyWord w src p).calendar = s.calendar ∧ (s.tallyWord w src p).calPhase = s.calPhase ∧
    (s.tallyWord w src p).slew = s.slew ∧ (s.tallyWord w src p).stepped = s.stepped ∧
    (s.tallyWord w src p).deckEver = s.deckEver ∧ (s.tallyWord w src p).free = s.free ∧
    (s.tallyWord w src p).halfW = s.halfW ∧ (s.tallyWord w src p).halfR = s.halfR ∧
    (s.tallyWord w src p).sealWide = s.sealWide ∧ (s.tallyWord w src p).sealParts = s.sealParts ∧
    (s.tallyWord w src p).mem = s.mem ∧ (s.tallyWord w src p).chk = s.chk ∧ (s.tallyWord w src p).prot = s.prot ∧
    (s.tallyWord w src p).rsp = s.rsp ∧ (s.tallyWord w src p).ticks = s.ticks ∧ (s.tallyWord w src p).wbq = s.wbq ∧
    (s.tallyWord w src p).merge = s.merge ∧ (s.tallyWord w src p).scrub = s.scrub ∧
    (s.tallyWord w src p).halted = s.halted ∧ (s.tallyWord w src p).hostReads = s.hostReads ∧
    (s.tallyWord w src p).hostTag = s.hostTag ∧ (s.tallyWord w src p).tiles = s.tiles ∧
    (s.tallyWord w src p).arrs = s.arrs ∧ (s.tallyWord w src p).thrs = s.thrs ∧ (s.tallyWord w src p).jobs = s.jobs ∧
    (s.tallyWord w src p).tags = s.tags ∧ (s.tallyWord w src p).tileSems = s.tileSems ∧
    (s.tallyWord w src p).parts = s.parts ∧ (s.tallyWord w src p).sems = s.sems ∧ (s.tallyWord w src p).evts = s.evts ∧
    (s.tallyWord w src p).decks = s.decks ∧ (s.tallyWord w src p).execs = s.execs ∧
    (s.tallyWord w src p).startNo = s.startNo ∧ (s.tallyWord w src p).suspNo = s.suspNo ∧
    (s.tallyWord w src p).pinHeld = s.pinHeld ∧ (s.tallyWord w src p).dropLater = s.dropLater ∧
    (s.tallyWord w src p).allocAt = s.allocAt ∧ (s.tallyWord w src p).chans = s.chans ∧
    (s.tallyWord w src p).thapWait = s.thapWait ∧ (s.tallyWord w src p).stepNo = s.stepNo ∧
    (s.tallyWord w src p).attn = s.attn ∧ (s.tallyWord w src p).accts = s.accts ∧ (s.tallyWord w src p).mons = s.mons ∧
    (s.tallyWord w src p).margin = s.margin ∧ (s.tallyWord w src p).ports = s.ports ∧
    (s.tallyWord w src p).probes = s.probes ∧ (s.tallyWord w src p).cruiseAt = s.cruiseAt ∧
    (s.tallyWord w src p).routeImage = s.routeImage ∧ (s.tallyWord w src p).inbox = s.inbox ∧
    (s.tallyWord w src p).sendCtx = s.sendCtx ∧ (s.tallyWord w src p).recvCtx = s.recvCtx ∧
    (s.tallyWord w src p).streamNo = s.streamNo ∧ (s.tallyWord w src p).syncAt = s.syncAt ∧
    (s.tallyWord w src p).tree = s.tree ∧ (s.tallyWord w src p).img = s.img ∧ (s.tallyWord w src p).fuses = s.fuses ∧
    (s.tallyWord w src p).boot = s.boot ∧ (s.tallyWord w src p).owner = s.owner ∧ (s.tallyWord w src p).power = s.power ∧
    (s.tallyWord w src p).pkg = s.pkg := by
  unfold State.tallyWord
  split <;> simp

/-- `State.tallyOnce` changes nothing but `regs`, `msix`, `vfQ`, `errQ`, `recCount`, `mgmt`, `ceSince`. -/
@[simp] theorem State.tallyOnce_frame (w src : Nat) (p : Option Nat) :
    (s.tallyOnce w src p).pending = s.pending ∧ (s.tallyOnce w src p).time = s.time ∧
    (s.tallyOnce w src p).calendar = s.calendar ∧ (s.tallyOnce w src p).calPhase = s.calPhase ∧
    (s.tallyOnce w src p).slew = s.slew ∧ (s.tallyOnce w src p).stepped = s.stepped ∧
    (s.tallyOnce w src p).deckEver = s.deckEver ∧ (s.tallyOnce w src p).free = s.free ∧
    (s.tallyOnce w src p).halfW = s.halfW ∧ (s.tallyOnce w src p).halfR = s.halfR ∧
    (s.tallyOnce w src p).sealWide = s.sealWide ∧ (s.tallyOnce w src p).sealParts = s.sealParts ∧
    (s.tallyOnce w src p).mem = s.mem ∧ (s.tallyOnce w src p).chk = s.chk ∧ (s.tallyOnce w src p).prot = s.prot ∧
    (s.tallyOnce w src p).rsp = s.rsp ∧ (s.tallyOnce w src p).ticks = s.ticks ∧ (s.tallyOnce w src p).wbq = s.wbq ∧
    (s.tallyOnce w src p).merge = s.merge ∧ (s.tallyOnce w src p).scrub = s.scrub ∧
    (s.tallyOnce w src p).halted = s.halted ∧ (s.tallyOnce w src p).hostReads = s.hostReads ∧
    (s.tallyOnce w src p).hostTag = s.hostTag ∧ (s.tallyOnce w src p).tiles = s.tiles ∧
    (s.tallyOnce w src p).arrs = s.arrs ∧ (s.tallyOnce w src p).thrs = s.thrs ∧ (s.tallyOnce w src p).jobs = s.jobs ∧
    (s.tallyOnce w src p).tags = s.tags ∧ (s.tallyOnce w src p).tileSems = s.tileSems ∧
    (s.tallyOnce w src p).parts = s.parts ∧ (s.tallyOnce w src p).sems = s.sems ∧ (s.tallyOnce w src p).evts = s.evts ∧
    (s.tallyOnce w src p).decks = s.decks ∧ (s.tallyOnce w src p).execs = s.execs ∧
    (s.tallyOnce w src p).startNo = s.startNo ∧ (s.tallyOnce w src p).suspNo = s.suspNo ∧
    (s.tallyOnce w src p).pinHeld = s.pinHeld ∧ (s.tallyOnce w src p).dropLater = s.dropLater ∧
    (s.tallyOnce w src p).allocAt = s.allocAt ∧ (s.tallyOnce w src p).chans = s.chans ∧
    (s.tallyOnce w src p).thapWait = s.thapWait ∧ (s.tallyOnce w src p).stepNo = s.stepNo ∧
    (s.tallyOnce w src p).attn = s.attn ∧ (s.tallyOnce w src p).accts = s.accts ∧ (s.tallyOnce w src p).mons = s.mons ∧
    (s.tallyOnce w src p).margin = s.margin ∧ (s.tallyOnce w src p).ports = s.ports ∧
    (s.tallyOnce w src p).probes = s.probes ∧ (s.tallyOnce w src p).cruiseAt = s.cruiseAt ∧
    (s.tallyOnce w src p).routeImage = s.routeImage ∧ (s.tallyOnce w src p).inbox = s.inbox ∧
    (s.tallyOnce w src p).sendCtx = s.sendCtx ∧ (s.tallyOnce w src p).recvCtx = s.recvCtx ∧
    (s.tallyOnce w src p).streamNo = s.streamNo ∧ (s.tallyOnce w src p).syncAt = s.syncAt ∧
    (s.tallyOnce w src p).tree = s.tree ∧ (s.tallyOnce w src p).img = s.img ∧ (s.tallyOnce w src p).fuses = s.fuses ∧
    (s.tallyOnce w src p).boot = s.boot ∧ (s.tallyOnce w src p).owner = s.owner ∧ (s.tallyOnce w src p).power = s.power ∧
    (s.tallyOnce w src p).pkg = s.pkg := by
  unfold State.tallyOnce
  split
  · split <;> simp
  · simp

/-- `State.storeWord` changes nothing but `mem`, `chk`, `wbq`, `merge`, `regs`, `msix`, `vfQ`, `errQ`, `recCount`, `mgmt`, `ceSince`. -/
@[simp] theorem State.storeWord_frame (w off : Nat) (bs : List Byte) (p : Bool) :
    (s.storeWord w off bs p).pending = s.pending ∧ (s.storeWord w off bs p).time = s.time ∧
    (s.storeWord w off bs p).calendar = s.calendar ∧ (s.storeWord w off bs p).calPhase = s.calPhase ∧
    (s.storeWord w off bs p).slew = s.slew ∧ (s.storeWord w off bs p).stepped = s.stepped ∧
    (s.storeWord w off bs p).deckEver = s.deckEver ∧ (s.storeWord w off bs p).free = s.free ∧
    (s.storeWord w off bs p).halfW = s.halfW ∧ (s.storeWord w off bs p).halfR = s.halfR ∧
    (s.storeWord w off bs p).sealWide = s.sealWide ∧ (s.storeWord w off bs p).sealParts = s.sealParts ∧
    (s.storeWord w off bs p).prot = s.prot ∧ (s.storeWord w off bs p).rsp = s.rsp ∧
    (s.storeWord w off bs p).ticks = s.ticks ∧ (s.storeWord w off bs p).scrub = s.scrub ∧
    (s.storeWord w off bs p).halted = s.halted ∧ (s.storeWord w off bs p).hostReads = s.hostReads ∧
    (s.storeWord w off bs p).hostTag = s.hostTag ∧ (s.storeWord w off bs p).tiles = s.tiles ∧
    (s.storeWord w off bs p).arrs = s.arrs ∧ (s.storeWord w off bs p).thrs = s.thrs ∧
    (s.storeWord w off bs p).jobs = s.jobs ∧ (s.storeWord w off bs p).tags = s.tags ∧
    (s.storeWord w off bs p).tileSems = s.tileSems ∧ (s.storeWord w off bs p).parts = s.parts ∧
    (s.storeWord w off bs p).sems = s.sems ∧ (s.storeWord w off bs p).evts = s.evts ∧
    (s.storeWord w off bs p).decks = s.decks ∧ (s.storeWord w off bs p).execs = s.execs ∧
    (s.storeWord w off bs p).startNo = s.startNo ∧ (s.storeWord w off bs p).suspNo = s.suspNo ∧
    (s.storeWord w off bs p).pinHeld = s.pinHeld ∧ (s.storeWord w off bs p).dropLater = s.dropLater ∧
    (s.storeWord w off bs p).allocAt = s.allocAt ∧ (s.storeWord w off bs p).chans = s.chans ∧
    (s.storeWord w off bs p).thapWait = s.thapWait ∧ (s.storeWord w off bs p).stepNo = s.stepNo ∧
    (s.storeWord w off bs p).attn = s.attn ∧ (s.storeWord w off bs p).accts = s.accts ∧
    (s.storeWord w off bs p).mons = s.mons ∧ (s.storeWord w off bs p).margin = s.margin ∧
    (s.storeWord w off bs p).ports = s.ports ∧ (s.storeWord w off bs p).probes = s.probes ∧
    (s.storeWord w off bs p).cruiseAt = s.cruiseAt ∧ (s.storeWord w off bs p).routeImage = s.routeImage ∧
    (s.storeWord w off bs p).inbox = s.inbox ∧ (s.storeWord w off bs p).sendCtx = s.sendCtx ∧
    (s.storeWord w off bs p).recvCtx = s.recvCtx ∧ (s.storeWord w off bs p).streamNo = s.streamNo ∧
    (s.storeWord w off bs p).syncAt = s.syncAt ∧ (s.storeWord w off bs p).tree = s.tree ∧
    (s.storeWord w off bs p).img = s.img ∧ (s.storeWord w off bs p).fuses = s.fuses ∧
    (s.storeWord w off bs p).boot = s.boot ∧ (s.storeWord w off bs p).owner = s.owner ∧
    (s.storeWord w off bs p).power = s.power ∧ (s.storeWord w off bs p).pkg = s.pkg := by
  unfold State.storeWord
  dsimp only
  split <;> (try split) <;> (try split) <;> simp

/-- `State.setArr` changes nothing but `regs`. -/
@[simp] theorem State.setArr_frame (j v a : Nat) :
    (s.setArr j v a).pending = s.pending ∧ (s.setArr j v a).time = s.time ∧ (s.setArr j v a).calendar = s.calendar ∧
    (s.setArr j v a).calPhase = s.calPhase ∧ (s.setArr j v a).slew = s.slew ∧ (s.setArr j v a).stepped = s.stepped ∧
    (s.setArr j v a).deckEver = s.deckEver ∧ (s.setArr j v a).free = s.free ∧ (s.setArr j v a).halfW = s.halfW ∧
    (s.setArr j v a).halfR = s.halfR ∧ (s.setArr j v a).sealWide = s.sealWide ∧ (s.setArr j v a).sealParts = s.sealParts ∧
    (s.setArr j v a).mem = s.mem ∧ (s.setArr j v a).chk = s.chk ∧ (s.setArr j v a).prot = s.prot ∧
    (s.setArr j v a).rsp = s.rsp ∧ (s.setArr j v a).errQ = s.errQ ∧ (s.setArr j v a).recCount = s.recCount ∧
    (s.setArr j v a).vfQ = s.vfQ ∧ (s.setArr j v a).ceSince = s.ceSince ∧ (s.setArr j v a).ticks = s.ticks ∧
    (s.setArr j v a).wbq = s.wbq ∧ (s.setArr j v a).merge = s.merge ∧ (s.setArr j v a).scrub = s.scrub ∧
    (s.setArr j v a).halted = s.halted ∧ (s.setArr j v a).msix = s.msix ∧ (s.setArr j v a).hostReads = s.hostReads ∧
    (s.setArr j v a).hostTag = s.hostTag ∧ (s.setArr j v a).tiles = s.tiles ∧ (s.setArr j v a).arrs = s.arrs ∧
    (s.setArr j v a).thrs = s.thrs ∧ (s.setArr j v a).jobs = s.jobs ∧ (s.setArr j v a).tags = s.tags ∧
    (s.setArr j v a).tileSems = s.tileSems ∧ (s.setArr j v a).parts = s.parts ∧ (s.setArr j v a).sems = s.sems ∧
    (s.setArr j v a).evts = s.evts ∧ (s.setArr j v a).decks = s.decks ∧ (s.setArr j v a).execs = s.execs ∧
    (s.setArr j v a).startNo = s.startNo ∧ (s.setArr j v a).suspNo = s.suspNo ∧ (s.setArr j v a).pinHeld = s.pinHeld ∧
    (s.setArr j v a).dropLater = s.dropLater ∧ (s.setArr j v a).allocAt = s.allocAt ∧ (s.setArr j v a).chans = s.chans ∧
    (s.setArr j v a).thapWait = s.thapWait ∧ (s.setArr j v a).stepNo = s.stepNo ∧ (s.setArr j v a).attn = s.attn ∧
    (s.setArr j v a).accts = s.accts ∧ (s.setArr j v a).mons = s.mons ∧ (s.setArr j v a).margin = s.margin ∧
    (s.setArr j v a).ports = s.ports ∧ (s.setArr j v a).probes = s.probes ∧ (s.setArr j v a).cruiseAt = s.cruiseAt ∧
    (s.setArr j v a).routeImage = s.routeImage ∧ (s.setArr j v a).inbox = s.inbox ∧ (s.setArr j v a).sendCtx = s.sendCtx ∧
    (s.setArr j v a).recvCtx = s.recvCtx ∧ (s.setArr j v a).streamNo = s.streamNo ∧ (s.setArr j v a).syncAt = s.syncAt ∧
    (s.setArr j v a).tree = s.tree ∧ (s.setArr j v a).img = s.img ∧ (s.setArr j v a).fuses = s.fuses ∧
    (s.setArr j v a).boot = s.boot ∧ (s.setArr j v a).owner = s.owner ∧ (s.setArr j v a).power = s.power ∧
    (s.setArr j v a).pkg = s.pkg ∧ (s.setArr j v a).mgmt = s.mgmt := by
  unfold State.setArr
  split <;> simp

/-- `State.flagIf` changes nothing but `regs`. -/
@[simp] theorem State.flagIf_frame (f : Field) (j : Nat) (b : Bool) :
    (s.flagIf f j b).pending = s.pending ∧ (s.flagIf f j b).time = s.time ∧ (s.flagIf f j b).calendar = s.calendar ∧
    (s.flagIf f j b).calPhase = s.calPhase ∧ (s.flagIf f j b).slew = s.slew ∧ (s.flagIf f j b).stepped = s.stepped ∧
    (s.flagIf f j b).deckEver = s.deckEver ∧ (s.flagIf f j b).free = s.free ∧ (s.flagIf f j b).halfW = s.halfW ∧
    (s.flagIf f j b).halfR = s.halfR ∧ (s.flagIf f j b).sealWide = s.sealWide ∧ (s.flagIf f j b).sealParts = s.sealParts ∧
    (s.flagIf f j b).mem = s.mem ∧ (s.flagIf f j b).chk = s.chk ∧ (s.flagIf f j b).prot = s.prot ∧
    (s.flagIf f j b).rsp = s.rsp ∧ (s.flagIf f j b).errQ = s.errQ ∧ (s.flagIf f j b).recCount = s.recCount ∧
    (s.flagIf f j b).vfQ = s.vfQ ∧ (s.flagIf f j b).ceSince = s.ceSince ∧ (s.flagIf f j b).ticks = s.ticks ∧
    (s.flagIf f j b).wbq = s.wbq ∧ (s.flagIf f j b).merge = s.merge ∧ (s.flagIf f j b).scrub = s.scrub ∧
    (s.flagIf f j b).halted = s.halted ∧ (s.flagIf f j b).msix = s.msix ∧ (s.flagIf f j b).hostReads = s.hostReads ∧
    (s.flagIf f j b).hostTag = s.hostTag ∧ (s.flagIf f j b).tiles = s.tiles ∧ (s.flagIf f j b).arrs = s.arrs ∧
    (s.flagIf f j b).thrs = s.thrs ∧ (s.flagIf f j b).jobs = s.jobs ∧ (s.flagIf f j b).tags = s.tags ∧
    (s.flagIf f j b).tileSems = s.tileSems ∧ (s.flagIf f j b).parts = s.parts ∧ (s.flagIf f j b).sems = s.sems ∧
    (s.flagIf f j b).evts = s.evts ∧ (s.flagIf f j b).decks = s.decks ∧ (s.flagIf f j b).execs = s.execs ∧
    (s.flagIf f j b).startNo = s.startNo ∧ (s.flagIf f j b).suspNo = s.suspNo ∧ (s.flagIf f j b).pinHeld = s.pinHeld ∧
    (s.flagIf f j b).dropLater = s.dropLater ∧ (s.flagIf f j b).allocAt = s.allocAt ∧ (s.flagIf f j b).chans = s.chans ∧
    (s.flagIf f j b).thapWait = s.thapWait ∧ (s.flagIf f j b).stepNo = s.stepNo ∧ (s.flagIf f j b).attn = s.attn ∧
    (s.flagIf f j b).accts = s.accts ∧ (s.flagIf f j b).mons = s.mons ∧ (s.flagIf f j b).margin = s.margin ∧
    (s.flagIf f j b).ports = s.ports ∧ (s.flagIf f j b).probes = s.probes ∧ (s.flagIf f j b).cruiseAt = s.cruiseAt ∧
    (s.flagIf f j b).routeImage = s.routeImage ∧ (s.flagIf f j b).inbox = s.inbox ∧ (s.flagIf f j b).sendCtx = s.sendCtx ∧
    (s.flagIf f j b).recvCtx = s.recvCtx ∧ (s.flagIf f j b).streamNo = s.streamNo ∧ (s.flagIf f j b).syncAt = s.syncAt ∧
    (s.flagIf f j b).tree = s.tree ∧ (s.flagIf f j b).img = s.img ∧ (s.flagIf f j b).fuses = s.fuses ∧
    (s.flagIf f j b).boot = s.boot ∧ (s.flagIf f j b).owner = s.owner ∧ (s.flagIf f j b).power = s.power ∧
    (s.flagIf f j b).pkg = s.pkg ∧ (s.flagIf f j b).mgmt = s.mgmt := by
  unfold State.flagIf
  split <;> simp

/-- `State.seqFault` changes nothing but `regs`. -/
@[simp] theorem State.seqFault_frame (j o t c : Nat) :
    (s.seqFault j o t c).pending = s.pending ∧ (s.seqFault j o t c).time = s.time ∧
    (s.seqFault j o t c).calendar = s.calendar ∧ (s.seqFault j o t c).calPhase = s.calPhase ∧
    (s.seqFault j o t c).slew = s.slew ∧ (s.seqFault j o t c).stepped = s.stepped ∧
    (s.seqFault j o t c).deckEver = s.deckEver ∧ (s.seqFault j o t c).free = s.free ∧
    (s.seqFault j o t c).halfW = s.halfW ∧ (s.seqFault j o t c).halfR = s.halfR ∧
    (s.seqFault j o t c).sealWide = s.sealWide ∧ (s.seqFault j o t c).sealParts = s.sealParts ∧
    (s.seqFault j o t c).mem = s.mem ∧ (s.seqFault j o t c).chk = s.chk ∧ (s.seqFault j o t c).prot = s.prot ∧
    (s.seqFault j o t c).rsp = s.rsp ∧ (s.seqFault j o t c).errQ = s.errQ ∧ (s.seqFault j o t c).recCount = s.recCount ∧
    (s.seqFault j o t c).vfQ = s.vfQ ∧ (s.seqFault j o t c).ceSince = s.ceSince ∧ (s.seqFault j o t c).ticks = s.ticks ∧
    (s.seqFault j o t c).wbq = s.wbq ∧ (s.seqFault j o t c).merge = s.merge ∧ (s.seqFault j o t c).scrub = s.scrub ∧
    (s.seqFault j o t c).halted = s.halted ∧ (s.seqFault j o t c).msix = s.msix ∧
    (s.seqFault j o t c).hostReads = s.hostReads ∧ (s.seqFault j o t c).hostTag = s.hostTag ∧
    (s.seqFault j o t c).tiles = s.tiles ∧ (s.seqFault j o t c).arrs = s.arrs ∧ (s.seqFault j o t c).thrs = s.thrs ∧
    (s.seqFault j o t c).jobs = s.jobs ∧ (s.seqFault j o t c).tags = s.tags ∧ (s.seqFault j o t c).tileSems = s.tileSems ∧
    (s.seqFault j o t c).parts = s.parts ∧ (s.seqFault j o t c).sems = s.sems ∧ (s.seqFault j o t c).evts = s.evts ∧
    (s.seqFault j o t c).decks = s.decks ∧ (s.seqFault j o t c).execs = s.execs ∧
    (s.seqFault j o t c).startNo = s.startNo ∧ (s.seqFault j o t c).suspNo = s.suspNo ∧
    (s.seqFault j o t c).pinHeld = s.pinHeld ∧ (s.seqFault j o t c).dropLater = s.dropLater ∧
    (s.seqFault j o t c).allocAt = s.allocAt ∧ (s.seqFault j o t c).chans = s.chans ∧
    (s.seqFault j o t c).thapWait = s.thapWait ∧ (s.seqFault j o t c).stepNo = s.stepNo ∧
    (s.seqFault j o t c).attn = s.attn ∧ (s.seqFault j o t c).accts = s.accts ∧ (s.seqFault j o t c).mons = s.mons ∧
    (s.seqFault j o t c).margin = s.margin ∧ (s.seqFault j o t c).ports = s.ports ∧
    (s.seqFault j o t c).probes = s.probes ∧ (s.seqFault j o t c).cruiseAt = s.cruiseAt ∧
    (s.seqFault j o t c).routeImage = s.routeImage ∧ (s.seqFault j o t c).inbox = s.inbox ∧
    (s.seqFault j o t c).sendCtx = s.sendCtx ∧ (s.seqFault j o t c).recvCtx = s.recvCtx ∧
    (s.seqFault j o t c).streamNo = s.streamNo ∧ (s.seqFault j o t c).syncAt = s.syncAt ∧
    (s.seqFault j o t c).tree = s.tree ∧ (s.seqFault j o t c).img = s.img ∧ (s.seqFault j o t c).fuses = s.fuses ∧
    (s.seqFault j o t c).boot = s.boot ∧ (s.seqFault j o t c).owner = s.owner ∧ (s.seqFault j o t c).power = s.power ∧
    (s.seqFault j o t c).pkg = s.pkg ∧ (s.seqFault j o t c).mgmt = s.mgmt := by
  unfold State.seqFault
  split <;> simp

/-- `State.onInst` changes nothing but `parts`. -/
@[simp] theorem State.onInst_frame (p l : Nat) (f : Inst → Inst) :
    (s.onInst p l f).pending = s.pending ∧ (s.onInst p l f).time = s.time ∧ (s.onInst p l f).calendar = s.calendar ∧
    (s.onInst p l f).calPhase = s.calPhase ∧ (s.onInst p l f).slew = s.slew ∧ (s.onInst p l f).stepped = s.stepped ∧
    (s.onInst p l f).deckEver = s.deckEver ∧ (s.onInst p l f).free = s.free ∧ (s.onInst p l f).regs = s.regs ∧
    (s.onInst p l f).halfW = s.halfW ∧ (s.onInst p l f).halfR = s.halfR ∧ (s.onInst p l f).sealWide = s.sealWide ∧
    (s.onInst p l f).sealParts = s.sealParts ∧ (s.onInst p l f).mem = s.mem ∧ (s.onInst p l f).chk = s.chk ∧
    (s.onInst p l f).prot = s.prot ∧ (s.onInst p l f).rsp = s.rsp ∧ (s.onInst p l f).errQ = s.errQ ∧
    (s.onInst p l f).recCount = s.recCount ∧ (s.onInst p l f).vfQ = s.vfQ ∧ (s.onInst p l f).ceSince = s.ceSince ∧
    (s.onInst p l f).ticks = s.ticks ∧ (s.onInst p l f).wbq = s.wbq ∧ (s.onInst p l f).merge = s.merge ∧
    (s.onInst p l f).scrub = s.scrub ∧ (s.onInst p l f).halted = s.halted ∧ (s.onInst p l f).msix = s.msix ∧
    (s.onInst p l f).hostReads = s.hostReads ∧ (s.onInst p l f).hostTag = s.hostTag ∧ (s.onInst p l f).tiles = s.tiles ∧
    (s.onInst p l f).arrs = s.arrs ∧ (s.onInst p l f).thrs = s.thrs ∧ (s.onInst p l f).jobs = s.jobs ∧
    (s.onInst p l f).tags = s.tags ∧ (s.onInst p l f).tileSems = s.tileSems ∧ (s.onInst p l f).sems = s.sems ∧
    (s.onInst p l f).evts = s.evts ∧ (s.onInst p l f).decks = s.decks ∧ (s.onInst p l f).execs = s.execs ∧
    (s.onInst p l f).startNo = s.startNo ∧ (s.onInst p l f).suspNo = s.suspNo ∧ (s.onInst p l f).pinHeld = s.pinHeld ∧
    (s.onInst p l f).dropLater = s.dropLater ∧ (s.onInst p l f).allocAt = s.allocAt ∧ (s.onInst p l f).chans = s.chans ∧
    (s.onInst p l f).thapWait = s.thapWait ∧ (s.onInst p l f).stepNo = s.stepNo ∧ (s.onInst p l f).attn = s.attn ∧
    (s.onInst p l f).accts = s.accts ∧ (s.onInst p l f).mons = s.mons ∧ (s.onInst p l f).margin = s.margin ∧
    (s.onInst p l f).ports = s.ports ∧ (s.onInst p l f).probes = s.probes ∧ (s.onInst p l f).cruiseAt = s.cruiseAt ∧
    (s.onInst p l f).routeImage = s.routeImage ∧ (s.onInst p l f).inbox = s.inbox ∧ (s.onInst p l f).sendCtx = s.sendCtx ∧
    (s.onInst p l f).recvCtx = s.recvCtx ∧ (s.onInst p l f).streamNo = s.streamNo ∧ (s.onInst p l f).syncAt = s.syncAt ∧
    (s.onInst p l f).tree = s.tree ∧ (s.onInst p l f).img = s.img ∧ (s.onInst p l f).fuses = s.fuses ∧
    (s.onInst p l f).boot = s.boot ∧ (s.onInst p l f).owner = s.owner ∧ (s.onInst p l f).power = s.power ∧
    (s.onInst p l f).pkg = s.pkg ∧ (s.onInst p l f).mgmt = s.mgmt := by
  simp [State.onInst]

/-- `State.opEndFault` changes nothing but `regs`, `tags`, `thrs`, `parts`. -/
@[simp] theorem State.opEndFault_frame (c : Ctx) (cause : Nat) :
    (s.opEndFault c cause).pending = s.pending ∧ (s.opEndFault c cause).time = s.time ∧
    (s.opEndFault c cause).calendar = s.calendar ∧ (s.opEndFault c cause).calPhase = s.calPhase ∧
    (s.opEndFault c cause).slew = s.slew ∧ (s.opEndFault c cause).stepped = s.stepped ∧
    (s.opEndFault c cause).deckEver = s.deckEver ∧ (s.opEndFault c cause).free = s.free ∧
    (s.opEndFault c cause).halfW = s.halfW ∧ (s.opEndFault c cause).halfR = s.halfR ∧
    (s.opEndFault c cause).sealWide = s.sealWide ∧ (s.opEndFault c cause).sealParts = s.sealParts ∧
    (s.opEndFault c cause).mem = s.mem ∧ (s.opEndFault c cause).chk = s.chk ∧ (s.opEndFault c cause).prot = s.prot ∧
    (s.opEndFault c cause).rsp = s.rsp ∧ (s.opEndFault c cause).errQ = s.errQ ∧
    (s.opEndFault c cause).recCount = s.recCount ∧ (s.opEndFault c cause).vfQ = s.vfQ ∧
    (s.opEndFault c cause).ceSince = s.ceSince ∧ (s.opEndFault c cause).ticks = s.ticks ∧
    (s.opEndFault c cause).wbq = s.wbq ∧ (s.opEndFault c cause).merge = s.merge ∧ (s.opEndFault c cause).scrub = s.scrub ∧
    (s.opEndFault c cause).halted = s.halted ∧ (s.opEndFault c cause).msix = s.msix ∧
    (s.opEndFault c cause).hostReads = s.hostReads ∧ (s.opEndFault c cause).hostTag = s.hostTag ∧
    (s.opEndFault c cause).tiles = s.tiles ∧ (s.opEndFault c cause).arrs = s.arrs ∧ (s.opEndFault c cause).jobs = s.jobs ∧
    (s.opEndFault c cause).tileSems = s.tileSems ∧ (s.opEndFault c cause).sems = s.sems ∧
    (s.opEndFault c cause).evts = s.evts ∧ (s.opEndFault c cause).decks = s.decks ∧
    (s.opEndFault c cause).execs = s.execs ∧ (s.opEndFault c cause).startNo = s.startNo ∧
    (s.opEndFault c cause).suspNo = s.suspNo ∧ (s.opEndFault c cause).pinHeld = s.pinHeld ∧
    (s.opEndFault c cause).dropLater = s.dropLater ∧ (s.opEndFault c cause).allocAt = s.allocAt ∧
    (s.opEndFault c cause).chans = s.chans ∧ (s.opEndFault c cause).thapWait = s.thapWait ∧
    (s.opEndFault c cause).stepNo = s.stepNo ∧ (s.opEndFault c cause).attn = s.attn ∧
    (s.opEndFault c cause).accts = s.accts ∧ (s.opEndFault c cause).mons = s.mons ∧
    (s.opEndFault c cause).margin = s.margin ∧ (s.opEndFault c cause).ports = s.ports ∧
    (s.opEndFault c cause).probes = s.probes ∧ (s.opEndFault c cause).cruiseAt = s.cruiseAt ∧
    (s.opEndFault c cause).routeImage = s.routeImage ∧ (s.opEndFault c cause).inbox = s.inbox ∧
    (s.opEndFault c cause).sendCtx = s.sendCtx ∧ (s.opEndFault c cause).recvCtx = s.recvCtx ∧
    (s.opEndFault c cause).streamNo = s.streamNo ∧ (s.opEndFault c cause).syncAt = s.syncAt ∧
    (s.opEndFault c cause).tree = s.tree ∧ (s.opEndFault c cause).img = s.img ∧ (s.opEndFault c cause).fuses = s.fuses ∧
    (s.opEndFault c cause).boot = s.boot ∧ (s.opEndFault c cause).owner = s.owner ∧
    (s.opEndFault c cause).power = s.power ∧ (s.opEndFault c cause).pkg = s.pkg ∧ (s.opEndFault c cause).mgmt = s.mgmt := by
  simp [State.opEndFault, State.orphanTags]

/-- `State.opFault` changes nothing but `regs`, `tags`, `thrs`, `parts`. -/
@[simp] theorem State.opFault_frame (c : Ctx) (cause : Nat) :
    (s.opFault c cause).pending = s.pending ∧ (s.opFault c cause).time = s.time ∧
    (s.opFault c cause).calendar = s.calendar ∧ (s.opFault c cause).calPhase = s.calPhase ∧
    (s.opFault c cause).slew = s.slew ∧ (s.opFault c cause).stepped = s.stepped ∧
    (s.opFault c cause).deckEver = s.deckEver ∧ (s.opFault c cause).free = s.free ∧ (s.opFault c cause).halfW = s.halfW ∧
    (s.opFault c cause).halfR = s.halfR ∧ (s.opFault c cause).sealWide = s.sealWide ∧
    (s.opFault c cause).sealParts = s.sealParts ∧ (s.opFault c cause).mem = s.mem ∧ (s.opFault c cause).chk = s.chk ∧
    (s.opFault c cause).prot = s.prot ∧ (s.opFault c cause).rsp = s.rsp ∧ (s.opFault c cause).errQ = s.errQ ∧
    (s.opFault c cause).recCount = s.recCount ∧ (s.opFault c cause).vfQ = s.vfQ ∧ (s.opFault c cause).ceSince = s.ceSince ∧
    (s.opFault c cause).ticks = s.ticks ∧ (s.opFault c cause).wbq = s.wbq ∧ (s.opFault c cause).merge = s.merge ∧
    (s.opFault c cause).scrub = s.scrub ∧ (s.opFault c cause).halted = s.halted ∧ (s.opFault c cause).msix = s.msix ∧
    (s.opFault c cause).hostReads = s.hostReads ∧ (s.opFault c cause).hostTag = s.hostTag ∧
    (s.opFault c cause).tiles = s.tiles ∧ (s.opFault c cause).arrs = s.arrs ∧ (s.opFault c cause).jobs = s.jobs ∧
    (s.opFault c cause).tileSems = s.tileSems ∧ (s.opFault c cause).sems = s.sems ∧ (s.opFault c cause).evts = s.evts ∧
    (s.opFault c cause).decks = s.decks ∧ (s.opFault c cause).execs = s.execs ∧ (s.opFault c cause).startNo = s.startNo ∧
    (s.opFault c cause).suspNo = s.suspNo ∧ (s.opFault c cause).pinHeld = s.pinHeld ∧
    (s.opFault c cause).dropLater = s.dropLater ∧ (s.opFault c cause).allocAt = s.allocAt ∧
    (s.opFault c cause).chans = s.chans ∧ (s.opFault c cause).thapWait = s.thapWait ∧
    (s.opFault c cause).stepNo = s.stepNo ∧ (s.opFault c cause).attn = s.attn ∧ (s.opFault c cause).accts = s.accts ∧
    (s.opFault c cause).mons = s.mons ∧ (s.opFault c cause).margin = s.margin ∧ (s.opFault c cause).ports = s.ports ∧
    (s.opFault c cause).probes = s.probes ∧ (s.opFault c cause).cruiseAt = s.cruiseAt ∧
    (s.opFault c cause).routeImage = s.routeImage ∧ (s.opFault c cause).inbox = s.inbox ∧
    (s.opFault c cause).sendCtx = s.sendCtx ∧ (s.opFault c cause).recvCtx = s.recvCtx ∧
    (s.opFault c cause).streamNo = s.streamNo ∧ (s.opFault c cause).syncAt = s.syncAt ∧ (s.opFault c cause).tree = s.tree ∧
    (s.opFault c cause).img = s.img ∧ (s.opFault c cause).fuses = s.fuses ∧ (s.opFault c cause).boot = s.boot ∧
    (s.opFault c cause).owner = s.owner ∧ (s.opFault c cause).power = s.power ∧ (s.opFault c cause).pkg = s.pkg ∧
    (s.opFault c cause).mgmt = s.mgmt := by
  unfold State.opFault
  split <;> simp [State.orphanTags]

/-- `State.tileEnd` changes nothing but `parts`, `tiles`. -/
@[simp] theorem State.tileEnd_frame (p l j : Nat) :
    (s.tileEnd p l j).pending = s.pending ∧ (s.tileEnd p l j).time = s.time ∧ (s.tileEnd p l j).calendar = s.calendar ∧
    (s.tileEnd p l j).calPhase = s.calPhase ∧ (s.tileEnd p l j).slew = s.slew ∧ (s.tileEnd p l j).stepped = s.stepped ∧
    (s.tileEnd p l j).deckEver = s.deckEver ∧ (s.tileEnd p l j).free = s.free ∧ (s.tileEnd p l j).regs = s.regs ∧
    (s.tileEnd p l j).halfW = s.halfW ∧ (s.tileEnd p l j).halfR = s.halfR ∧ (s.tileEnd p l j).sealWide = s.sealWide ∧
    (s.tileEnd p l j).sealParts = s.sealParts ∧ (s.tileEnd p l j).mem = s.mem ∧ (s.tileEnd p l j).chk = s.chk ∧
    (s.tileEnd p l j).prot = s.prot ∧ (s.tileEnd p l j).rsp = s.rsp ∧ (s.tileEnd p l j).errQ = s.errQ ∧
    (s.tileEnd p l j).recCount = s.recCount ∧ (s.tileEnd p l j).vfQ = s.vfQ ∧ (s.tileEnd p l j).ceSince = s.ceSince ∧
    (s.tileEnd p l j).ticks = s.ticks ∧ (s.tileEnd p l j).wbq = s.wbq ∧ (s.tileEnd p l j).merge = s.merge ∧
    (s.tileEnd p l j).scrub = s.scrub ∧ (s.tileEnd p l j).halted = s.halted ∧ (s.tileEnd p l j).msix = s.msix ∧
    (s.tileEnd p l j).hostReads = s.hostReads ∧ (s.tileEnd p l j).hostTag = s.hostTag ∧ (s.tileEnd p l j).arrs = s.arrs ∧
    (s.tileEnd p l j).thrs = s.thrs ∧ (s.tileEnd p l j).jobs = s.jobs ∧ (s.tileEnd p l j).tags = s.tags ∧
    (s.tileEnd p l j).tileSems = s.tileSems ∧ (s.tileEnd p l j).sems = s.sems ∧ (s.tileEnd p l j).evts = s.evts ∧
    (s.tileEnd p l j).decks = s.decks ∧ (s.tileEnd p l j).execs = s.execs ∧ (s.tileEnd p l j).startNo = s.startNo ∧
    (s.tileEnd p l j).suspNo = s.suspNo ∧ (s.tileEnd p l j).pinHeld = s.pinHeld ∧
    (s.tileEnd p l j).dropLater = s.dropLater ∧ (s.tileEnd p l j).allocAt = s.allocAt ∧ (s.tileEnd p l j).chans = s.chans ∧
    (s.tileEnd p l j).thapWait = s.thapWait ∧ (s.tileEnd p l j).stepNo = s.stepNo ∧ (s.tileEnd p l j).attn = s.attn ∧
    (s.tileEnd p l j).accts = s.accts ∧ (s.tileEnd p l j).mons = s.mons ∧ (s.tileEnd p l j).margin = s.margin ∧
    (s.tileEnd p l j).ports = s.ports ∧ (s.tileEnd p l j).probes = s.probes ∧ (s.tileEnd p l j).cruiseAt = s.cruiseAt ∧
    (s.tileEnd p l j).routeImage = s.routeImage ∧ (s.tileEnd p l j).inbox = s.inbox ∧
    (s.tileEnd p l j).sendCtx = s.sendCtx ∧ (s.tileEnd p l j).recvCtx = s.recvCtx ∧
    (s.tileEnd p l j).streamNo = s.streamNo ∧ (s.tileEnd p l j).syncAt = s.syncAt ∧ (s.tileEnd p l j).tree = s.tree ∧
    (s.tileEnd p l j).img = s.img ∧ (s.tileEnd p l j).fuses = s.fuses ∧ (s.tileEnd p l j).boot = s.boot ∧
    (s.tileEnd p l j).owner = s.owner ∧ (s.tileEnd p l j).power = s.power ∧ (s.tileEnd p l j).pkg = s.pkg ∧
    (s.tileEnd p l j).mgmt = s.mgmt := by
  unfold State.tileEnd
  dsimp only
  split <;> simp

/-- `State.opDone` changes nothing but `regs`, `thrs`, `parts`, `tiles`. -/
@[simp] theorem State.opDone_frame (c : Ctx) :
    (s.opDone c).pending = s.pending ∧ (s.opDone c).time = s.time ∧ (s.opDone c).calendar = s.calendar ∧
    (s.opDone c).calPhase = s.calPhase ∧ (s.opDone c).slew = s.slew ∧ (s.opDone c).stepped = s.stepped ∧
    (s.opDone c).deckEver = s.deckEver ∧ (s.opDone c).free = s.free ∧ (s.opDone c).halfW = s.halfW ∧
    (s.opDone c).halfR = s.halfR ∧ (s.opDone c).sealWide = s.sealWide ∧ (s.opDone c).sealParts = s.sealParts ∧
    (s.opDone c).mem = s.mem ∧ (s.opDone c).chk = s.chk ∧ (s.opDone c).prot = s.prot ∧ (s.opDone c).rsp = s.rsp ∧
    (s.opDone c).errQ = s.errQ ∧ (s.opDone c).recCount = s.recCount ∧ (s.opDone c).vfQ = s.vfQ ∧
    (s.opDone c).ceSince = s.ceSince ∧ (s.opDone c).ticks = s.ticks ∧ (s.opDone c).wbq = s.wbq ∧
    (s.opDone c).merge = s.merge ∧ (s.opDone c).scrub = s.scrub ∧ (s.opDone c).halted = s.halted ∧
    (s.opDone c).msix = s.msix ∧ (s.opDone c).hostReads = s.hostReads ∧ (s.opDone c).hostTag = s.hostTag ∧
    (s.opDone c).arrs = s.arrs ∧ (s.opDone c).jobs = s.jobs ∧ (s.opDone c).tags = s.tags ∧
    (s.opDone c).tileSems = s.tileSems ∧ (s.opDone c).sems = s.sems ∧ (s.opDone c).evts = s.evts ∧
    (s.opDone c).decks = s.decks ∧ (s.opDone c).execs = s.execs ∧ (s.opDone c).startNo = s.startNo ∧
    (s.opDone c).suspNo = s.suspNo ∧ (s.opDone c).pinHeld = s.pinHeld ∧ (s.opDone c).dropLater = s.dropLater ∧
    (s.opDone c).allocAt = s.allocAt ∧ (s.opDone c).chans = s.chans ∧ (s.opDone c).thapWait = s.thapWait ∧
    (s.opDone c).stepNo = s.stepNo ∧ (s.opDone c).attn = s.attn ∧ (s.opDone c).accts = s.accts ∧
    (s.opDone c).mons = s.mons ∧ (s.opDone c).margin = s.margin ∧ (s.opDone c).ports = s.ports ∧
    (s.opDone c).probes = s.probes ∧ (s.opDone c).cruiseAt = s.cruiseAt ∧ (s.opDone c).routeImage = s.routeImage ∧
    (s.opDone c).inbox = s.inbox ∧ (s.opDone c).sendCtx = s.sendCtx ∧ (s.opDone c).recvCtx = s.recvCtx ∧
    (s.opDone c).streamNo = s.streamNo ∧ (s.opDone c).syncAt = s.syncAt ∧ (s.opDone c).tree = s.tree ∧
    (s.opDone c).img = s.img ∧ (s.opDone c).fuses = s.fuses ∧ (s.opDone c).boot = s.boot ∧ (s.opDone c).owner = s.owner ∧
    (s.opDone c).power = s.power ∧ (s.opDone c).pkg = s.pkg ∧ (s.opDone c).mgmt = s.mgmt := by
  simp [State.opDone]

end Sys2Proof.Machine
end

