-- ==== Sys2Proof/Laws/Regs.lean ====
section
/-!
SUPPORT. What a read of a register field gives after each operation that writes fields, and what an event and a record do
to the register file.
-/

namespace Sys2Proof.Machine

variable {s t : State}

/-- A field reads the same in two states with the same register file. -/
theorem State.fget_congr (h : t.regs = s.regs) (f : Field) (u i : Nat) : t.fget f u i = s.fget f u i := by
  simp [State.fget, h]

/-- A packed field reads the same in two states with the same register file. -/
theorem State.fgetAt_congr (h : t.regs = s.regs) (f : Field) (u i sh : Nat) : t.fgetAt f u i sh = s.fgetAt f u i sh := by
  simp [State.fgetAt, h]

/-- A field holds what it was set to, truncated to its width. -/
@[simp] theorem State.fget_fset_same (s : State) (f : Field) (u i v : Nat) : (s.fset f u i v).fget f u i = v % 2 ^ f.w := by
  simp [State.fget]

/-- Setting a field leaves a field at another key as it was. -/
theorem State.fget_fset_ne (s : State) {f g : Field} {u i u' i' v : Nat} (h : g.key u' i' ≠ f.key u i) :
    (s.fset f u i v).fget g u' i' = s.fget g u' i' := by
  simp [State.fget, Tbl.get_put_ne _ h]

/-- A packed field holds what it was set to, truncated to its width. -/
@[simp] theorem State.fgetAt_fsetAt_same (s : State) (f : Field) (u i sh v : Nat) :
    (s.fsetAt f u i sh v).fgetAt f u i sh = v % 2 ^ f.w := by
  simp [State.fgetAt]

/-- Setting a packed field leaves a field at another key as it was. -/
theorem State.fgetAt_fsetAt_ne (s : State) {f g : Field} {u i u' i' sh sh' v : Nat}
    (h : g.key u' i' + sh' ≠ f.key u i + sh) : (s.fsetAt f u i sh v).fgetAt g u' i' sh' = s.fgetAt g u' i' sh' := by
  simp [State.fgetAt, Tbl.get_put_ne _ h]

/-- Setting a packed field leaves a field at another key as it was. -/
theorem State.fget_fsetAt_ne (s : State) {f g : Field} {u i u' i' sh v : Nat} (h : g.key u' i' ≠ f.key u i + sh) :
    (s.fsetAt f u i sh v).fget g u' i' = s.fget g u' i' := by
  simp [State.fget, Tbl.get_put_ne _ h]

/-- Setting a field leaves a packed field at another key as it was. -/
theorem State.fgetAt_fset_ne (s : State) {f g : Field} {u i u' i' sh v : Nat} (h : g.key u' i' + sh ≠ f.key u i) :
    (s.fset f u i v).fgetAt g u' i' sh = s.fgetAt g u' i' sh := by
  simp [State.fgetAt, Tbl.get_put_ne _ h]

/-- The queue is no register. -/
@[simp] theorem State.fget_withQueue (s : State) (q : List Instr) (f : Field) (u i : Nat) :
    (s.withQueue q).fget f u i = s.fget f u i := rfl

/-- The queue is no register. -/
@[simp] theorem State.fgetAt_withQueue (s : State) (q : List Instr) (f : Field) (u i sh : Nat) :
    (s.withQueue q).fgetAt f u i sh = s.fgetAt f u i sh := rfl

/-- A state that kept its queue is itself again when the queue is put back. -/
theorem State.withQueue_self (h : t.pending = s.pending) : t.withQueue s.pending = t := by
  rw [← h]; rfl

/-- What a command with well-formed operands answers. -/
theorem ok_true (s t : State) : ok true s t = .next (t.withQueue s.pending) := rfl

/-- What a command with operands that name no unit answers. -/
theorem ok_false (s t : State) : ok false s t = .fault .noSuchUnit := rfl

/-- An event bit is set in its field; the register file changes nowhere else. -/
@[simp] theorem State.evt_regs (s : State) (f : Field) (u i mask : Nat) (p : Option Nat) :
    (s.evt f u i mask p).regs = (s.fset f u i (s.fget f u i ||| mask)).regs := by
  unfold State.evt
  dsimp only
  split
  · rfl
  · split <;> simp

/-- An event field after the event. -/
@[simp] theorem State.fget_evt_same (s : State) (f : Field) (u i mask : Nat) (p : Option Nat) :
    (s.evt f u i mask p).fget f u i = (s.fget f u i ||| mask) % 2 ^ f.w := by
  rw [State.fget_congr (State.evt_regs ..), State.fget_fset_same]

/-- An event leaves a field at another key as it was. -/
theorem State.fget_evt_ne (s : State) {f g : Field} {u i u' i' mask : Nat} {p : Option Nat} (h : g.key u' i' ≠ f.key u i) :
    (s.evt f u i mask p).fget g u' i' = s.fget g u' i' := by
  rw [State.fget_congr (State.evt_regs ..), State.fget_fset_ne s h]

/-- An event changes the register file and the interrupt vectors, and nothing else: its bits are set, and no other field moves
(R294). -/
theorem State.evt_is (s : State) (f : Field) (u i mask : Nat) (p : Option Nat) :
    ∃ m, s.evt f u i mask p = (s.fset f u i (s.fget f u i ||| mask)).withMsix m := by
  unfold State.evt
  dsimp only
  split
  · exact ⟨s.msix, rfl⟩
  · split
    · exact ⟨_, rfl⟩
    · exact ⟨s.msix, rfl⟩

end Sys2Proof.Machine
end

