-- ==== Sys2Proof/Laws/Run.lean ====
section
/-!
SUPPORT. Runs of several steps: one step more at the end of a run.
-/

namespace Sys2Proof.Machine

/-- No step leaves the state. -/
theorem run_zero (M : Host.Core) (s : M.State) : M.run 0 s = .next s := by
  rw [Host.Core.run.eq_def]

/-- One step more at the front. -/
theorem run_succ (M : Host.Core) (k : Nat) (s : M.State) : M.run (k + 1) s = (match M.step s with
    | .next t => M.run k t
    | .fault r => .fault r
    | .refused r => .refused r) := rfl

/-- One step more at the end. -/
theorem run_succ_last (M : Host.Core) {k : Nat} {s t : M.State} (h : M.run k s = .next t) : M.run (k + 1) s = M.step t := by
  induction k generalizing s with
  | zero =>
    rw [Host.Core.run.eq_def] at h
    injection h with h
    subst h
    rw [run_succ]
    cases M.step s with
    | next u => dsimp only; rw [Host.Core.run.eq_def]
    | fault r => rfl
    | refused r => rfl
  | succ k ih =>
    rw [run_succ] at h
    rw [run_succ]
    cases hs : M.step s with
    | next u => rw [hs] at h; exact ih h
    | fault r => rw [hs] at h; cases h
    | refused r => rw [hs] at h; cases h

/-- What every step keeps, every run keeps. -/
theorem run_keeps (M : Host.Core) (P : M.State → Prop) (h : ∀ s t, P s → M.step s = .next t → P t) (k : Nat) :
    ∀ s t, P s → M.run k s = .next t → P t := by
  induction k with
  | zero => intro s t hs e; rw [run_zero] at e; injection e with e; rw [← e]; exact hs
  | succ k ih =>
    intro s t hs e
    rw [run_succ] at e
    cases hu : M.step s with
    | next u => rw [hu] at e; exact ih u t (h s u hs hu) e
    | fault r => rw [hu] at e; cases e
    | refused r => rw [hu] at e; cases e

/-- A step takes the front command. -/
theorem step_cons {s : State} {c : Instr} {q : List Instr} (h : s.pending = c :: q) : step s = exec c (s.withQueue q) := by
  unfold step
  rw [h]
  rfl

/-- A step with an empty queue is a tick. -/
theorem step_nil {s : State} (h : s.pending = []) : step s = .next s.tick := by
  unfold step
  rw [h]

end Sys2Proof.Machine
end

