-- ==== Sys2Proof/Machine/Bounds.lean ====
section
/-!
DEFINITION. The error bounds of Table 3.8 (R82), as one proposition about the part's vector functions. The functions
themselves are constants without a body (assumption 10), so the bounds are what the spec says of them and no more; a claim
that needs a bound takes `VectorBounds` as its premise.
-/

namespace Sys2Proof.Machine

/-- The finite value of an FP32 pattern as a real number; ±Inf stands at ±2^128, the next value of its scale. -/
def Real32 (a : Nat) (y : ℝ) : Prop :=
  match f32 a with
  | .nan => False
  | .inf neg => y = (if neg then -1 else 1) * (2 : ℝ) ^ (128 : ℤ)
  | .fin neg m e => y = (if neg then -1 else 1) * (m : ℝ) * (2 : ℝ) ^ e

/-- 2^e is the FP32 unit in the last place of a real number. -/
def Ulp32 (r : ℝ) (e : ℤ) : Prop :=
  -149 ≤ e ∧ |r| < (2 : ℝ) ^ (e + 24) ∧ ((2 : ℝ) ^ (e + 23) ≤ |r| ∨ e = -149)

/-- The pattern is within `n` ulp of an exact result below 2^128, or within `floor` of it if that is larger; a result from
2^128 up is an infinity. -/
def UlpWithin (n : ℝ) (floor : ℝ) (a : Nat) (r : ℝ) : Prop :=
  (|r| < (2 : ℝ) ^ (128 : ℤ) → ∃ y e, Real32 a y ∧ Ulp32 r e ∧ |y - r| ≤ max (n * (2 : ℝ) ^ e) floor) ∧
  ((2 : ℝ) ^ (128 : ℤ) ≤ |r| → f32 a = .inf (decide (r < 0)))

/-- A function of FP32 patterns keeps a bound on the finite inputs for which `dom` holds. -/
def Keeps32 (f : Nat → Nat) (n floor : ℝ) (dom : ℝ → Prop) (g : ℝ → ℝ) : Prop :=
  ∀ a x, a < 2 ^ 32 → (∃ neg m e, f32 a = .fin neg m e) → Real32 a x → dom x → UlpWithin n floor (f a) (g x)

/-- A function of an exact nonzero angle keeps 2 ulp, or 2^-28 if that is larger. -/
def KeepsAngle (f : Num → Nat) (g : ℝ → ℝ) : Prop :=
  ∀ neg m e, m ≠ 0 → UlpWithin 2 ((2 : ℝ) ^ (-28 : ℤ)) (f (.fin neg m e)) (g ((if neg then -1 else 1) * (m : ℝ) * (2 : ℝ) ^ e))

/-- Table 3.8, the rows with a bound. A result of exp2 below 2^-149 is +0 by the table's note. -/
structure VectorBounds : Prop where
  recip : Keeps32 recipv 1 0 (· ≠ 0) (fun x => x⁻¹)
  rsqrt : Keeps32 rsqrtv 1 0 (0 < ·) (fun x => (Real.sqrt x)⁻¹)
  exp2 : Keeps32 exp2v 1 0 (-149 ≤ ·) (fun x => Real.exp (x * Real.log 2))
  exp : Keeps32 expv 2 0 (fun x => -149 * Real.log 2 ≤ x) Real.exp
  log : Keeps32 logv 2 0 (0 < ·) Real.log
  log2 : Keeps32 log2v 1 0 (0 < ·) (fun x => Real.log x / Real.log 2)
  tanh : Keeps32 tanhv 2 0 (fun _ => True) Real.tanh
  sigmoid : Keeps32 sigmoidv 2 0 (fun _ => True) (fun x => (1 + Real.exp (-x))⁻¹)
  silu : Keeps32 siluv 3 0 (fun _ => True) (fun x => x * (1 + Real.exp (-x))⁻¹)
  geluErf : Keeps32 geluErfv 4 ((2 : ℝ) ^ (-30 : ℤ)) (fun _ => True)
    (fun x => x / 2 * (1 + 2 / Real.sqrt Real.pi * ∫ t in (0 : ℝ)..(x / Real.sqrt 2), Real.exp (-t ^ 2)))
  geluTanh : Keeps32 geluTanhv 4 ((2 : ℝ) ^ (-30 : ℤ)) (fun _ => True)
    (fun x => x / 2 * (1 + Real.tanh (Real.sqrt (2 / Real.pi) * (x + 0.044715 * x ^ 3))))
  sine : KeepsAngle sinv Real.sin
  cosine : KeepsAngle cosv Real.cos

end Sys2Proof.Machine
end

