-- ==== Sys2Proof/Tests/Images.lean ====
section
/-!
SUPPORT. Tests: a whole-part image and a partition's image that pass every rule of the loader, and ones that fail: the
hypotheses of BringUpGoesPhaseByPhase and PartitionsResetLoadAndRetire about images are met. The bytes were
laid out from the tables of chapters 13 and 16, their CRC-32C computed outside the model.
-/

set_option maxRecDepth 100000
set_option Elab.async false

namespace Sys2Proof.Tests

open Sys2Proof Sys2Proof.Machine

/-- The nonzero bytes of a whole-part image with one REG item, by byte number. -/
def wholeBytes : List (Nat × Nat) :=
  [(0, 71), (1, 69), (2, 85), (3, 67), (4, 1), (10, 11), (24, 104), (25, 4), (32, 64), (60, 48), (61, 181), (62, 78),
   (63, 180), (64, 1), (144, 2), (224, 3), (304, 4), (384, 5), (464, 6), (544, 7), (548, 9), (549, 28), (550, 39),
   (551, 32), (552, 192), (553, 3), (560, 40), (624, 8), (704, 9), (784, 10), (864, 11), (873, 4), (880, 104), (960, 1),
   (964, 32), (968, 7), (973, 64), (978, 8), (984, 7), (989, 128), (994, 8), (1024, 1)]

/-- The nonzero bytes of an image for partition 5 with one REG item. -/
def partBytes : List (Nat × Nat) :=
  [(0, 71), (1, 69), (2, 85), (3, 67), (4, 1), (6, 1), (7, 5), (10, 10), (24, 40), (25, 4), (32, 64), (60, 77),
   (61, 211), (62, 173), (63, 119), (64, 1), (68, 37), (69, 199), (70, 140), (71, 45), (72, 128), (73, 3), (80, 40),
   (144, 2), (224, 3), (304, 4), (384, 5), (464, 6), (544, 8), (624, 9), (704, 10), (784, 11), (792, 192), (793, 3),
   (800, 104), (896, 1), (900, 32), (904, 5), (908, 40), (912, 5), (920, 5), (924, 48), (928, 1), (960, 1)]

/-- The bytes of an image that are not 0, as memory at host address 0 of port 0. -/
def imageMem (bs : List (Nat × Nat)) : Tbl Byte := bs.map (fun x => (hostAt 0 x.1, BitVec.ofNat 8 x.2))

/-- A part whose host link 0 is up and whose image key 1 is active, with an image at host address 0. -/
def imaged (bs : List (Nat × Nat)) : State :=
  let s := State.reset.fsetAt SEC_KEY_STATUS.SLOT0 0 0 2 1
  { s with mem := imageMem bs, pkg := { s.pkg with hostUp := [16, 0] } }

/-- A graphless image state has no operator in any graph. -/
theorem graphOpsAt_none (s : State) (p g : Nat) (h : s.img.runs = []) : s.graphOpsAt p g = [] := by
  have e : ∀ j, s.tileRunsOf p g j = [] := fun j => by
    simp [State.tileRunsOf, h, Tbl.get]
  simp [State.graphOpsAt, State.tileOps, e]

theorem partOps_none (s : State) (p : Nat) (h : s.img.runs = []) : s.partOps p = [] := by
  simp [State.partOps, graphOpsAt_none s p _ h]

/-- A graphless image breaks no rule for graphs. -/
theorem graphsBad_none (s : State) (p : Nat) (h : s.img.runs = []) (h2 : s.img.slots = []) (h3 : s.img.commits = [])
    (h5 : s.img.descs = []) :
    s.graphsBad p = false := by
  have e : ∀ g j, s.tileRunsOf p g j = [] := fun g j => by
    simp [State.tileRunsOf, h, Tbl.get]
  have e2 : ∀ g j, s.slotEntries p g j = [] := fun g j => by
    simp [State.slotEntries, h2, Tbl.get]
  simp [State.graphsBad, State.graphBad, partOps_none s p h, graphOpsAt_none s p _ h, e, e2, State.semSums, State.tuningBad,
    State.commitBad, h3, State.descsBad, h5, Tbl.get, pairs]

/-- Nor one for the page geometry, where no tile of the partition is usable. -/
theorem thapelGeomBad_none (s : State) (p : Nat) (h : s.img.runs = []) (ht : s.partTiles p = []) : s.thapelGeomBad p = false := by
  simp [State.thapelGeomBad, partOps_none s p h, ht]

/-- What is known of an image's items and of the state they give decides the loader's answer on a whole image. -/
theorem checkWhole_pass (s c : State) (rd : Nat → Byte) (ver : Verdict) (is : List Item16)
    (h1 : firstFail (s.formChecks rd 0 0 ver) = none) (h2 : allItems rd (imgSects rd) = .inr is) (h3 : s.withImage rd is = c)
    (hps : (List.range 16).filter (fun p => (List.range 16).any (fun t => c.towerPart t == some p)) = [])
    (ht : (List.range 64).filter c.tileUsable = [])
    (h4 : firstFail (regsBad rd is ++ c.ruleChecks rd is true [] [] ++ [(4, 7, c.fabricBad), (4, 10, false)]) = none) :
    s.checkWhole rd ver = .pass is := by
  unfold State.checkWhole
  simp only [h1, h2, h3, hps, ht, List.any_nil, h4]

/-- The same for a partition's image. -/
theorem checkPart_pass (s c : State) (rd : Nat → Byte) (p : Nat) (ver : Verdict) (is : List Item16)
    (h1 : firstFail (s.formChecks rd 1 p ver) = none) (h2 : allItems rd (imgSects rd) = .inr is) (h3 : s.withPart rd p is = c)
    (h4 : firstFail (regsBad rd is) = none) (h5 : conflict (s.barePart p) rd is p = false)
    (h6 : firstFail ((4, 1, (regsOf rd is).any (foreign (s.barePart p) c p)) :: (4, 1, towersGiven (regsOf rd is) p == []) ::
      c.ruleChecks rd is false [p] ((c.towerTiles p).filter c.tileUsable) ++ [(4, 10, c.needsKey s p)]) = none) :
    s.checkPart rd p ver = .pass is := by
  unfold State.checkPart
  simp only [h1, h2, h3, h4, h5]
  rw [if_neg (by decide), h6]

/-! The whole-part image. -/

/-- A part in image check, the image at host address 0. -/
def whole : State := (imaged wholeBytes).fset BOOT_STATUS.PHASE 0 0 7

/-- Its items: one REG item of the FABRIC section. -/
def wholeItems : List Item16 := [⟨7, 1, 968, 32⟩]

/-- The state with them taken in. -/
def wholeTaken : State :=
  { whole with regs := (((whole.bare.fset FAB_GRP_TBL.LOCAL 0 0 1).fset FAB_MBR_TBL.SELF 0 0 1)).regs }

/-- The whole-part image as the loader reads it. -/
def wholeRead : Nat → Byte := whole.hostImage (whole.fget BOOT_IMAGE_ADDR.ADDR 0 0 * 4096)

theorem whole_form : firstFail (whole.formChecks wholeRead 0 0 ⟨true, []⟩) = none := by decide +kernel
theorem whole_items : allItems wholeRead (imgSects wholeRead) = .inr wholeItems := by decide +kernel
theorem whole_taken : whole.withImage wholeRead wholeItems = wholeTaken := by decide +kernel
theorem whole_regs : regsBad wholeRead wholeItems = [(4, 7, false)] := by decide +kernel
theorem whole_mem : wholeTaken.memBad (fun p => true || ([] : List Nat).contains p) = false := by decide +kernel
theorem whole_hubs : wholeTaken.hubBad = false ∧ wholeTaken.bindBad = false ∧ wholeTaken.preemptBad = false ∧
    (List.range 512).any (fun k => (wholeTaken.shadow k).bad) = false := by decide +kernel
theorem whole_regulation : wholeTaken.regulationBad = false := by decide +kernel
theorem whole_fabric : wholeTaken.fabricBad = false := by decide +kernel
theorem whole_own : (itemTiles wholeRead wholeItems, itemParts wholeRead wholeItems, itemsClash wholeRead wholeItems,
    wholeItems.any (itemBad wholeRead (imgNat wholeRead 24 8))) = ([], [], false, false) := by decide +kernel

theorem whole_rules : firstFail (regsBad wholeRead wholeItems ++ wholeTaken.ruleChecks wholeRead wholeItems true [] [] ++
    [(4, 7, wholeTaken.fabricBad), (4, 10, false)]) = none := by
  have h := whole_own
  simp only [Prod.mk.injEq] at h
  obtain ⟨a, b, c, d⟩ := h
  unfold State.ruleChecks
  simp only [whole_regs, whole_mem, whole_hubs.1, whole_hubs.2.1, whole_hubs.2.2.1, whole_hubs.2.2.2, whole_regulation, whole_fabric, a, b,
    c, d, List.any_nil]
  rfl

theorem whole_passes : whole.checkWhole wholeRead ⟨true, []⟩ = .pass wholeItems :=
  checkWhole_pass whole wholeTaken wholeRead ⟨true, []⟩ wholeItems whole_form whole_items whole_taken (by decide +kernel)
    (by decide +kernel) whole_rules

/-- An image that passes. -/
theorem witness_ImageCheck : whole.phase = 7 ∧ whole.pkg.hostUp.all (· == 0) = false ∧
    whole.checkWhole (whole.hostImage (whole.fget BOOT_IMAGE_ADDR.ADDR 0 0 * 4096)) ⟨true, []⟩ = .pass wholeItems :=
  ⟨by decide +kernel, by decide +kernel, whole_passes⟩

/-- A signature that does not verify. -/
theorem witness_ImageCheck_fails : whole.checkWhole (whole.hostImage (whole.fget BOOT_IMAGE_ADDR.ADDR 0 0 * 4096)) ⟨false, []⟩ =
    .fail 2 11 := by
  have h : firstFail (whole.formChecks wholeRead 0 0 ⟨false, []⟩) = some (2, 11) := by decide +kernel
  unfold State.checkWhole
  simp only [show whole.hostImage (whole.fget BOOT_IMAGE_ADDR.ADDR 0 0 * 4096) = wholeRead from rfl, h]

/-! A partition's image. -/

/-- A part in READY whose partition 5 is to be loaded from the base of its host window. -/
def partIn : State :=
  ((imaged partBytes).fset BOOT_STATUS.PHASE 0 0 12).fset PART_LOAD_ADDR.ADDR 0 0 0x40000000000

/-- Its items: one REG item of the PARTITION section, that gives partition 5 tower 0. -/
def partItems : List Item16 := [⟨1, 1, 904, 32⟩]

/-- The state with them taken in. -/
def partTaken : State :=
  { partIn with regs := ((partIn.fbitSet PART_TOWER_EN.ASSIGNED 0 0 0 true).fsetAt PART_TOWER_MAP.PART0 0 0 0 5).regs }

/-- The image as the loader reads it. -/
def partRead : Nat → Byte := partIn.windowImage 5 (partIn.fget PART_LOAD_ADDR.ADDR 0 0)

theorem part_form : firstFail (partIn.formChecks partRead 1 5 ⟨true, []⟩) = none := by decide +kernel
theorem part_items : allItems partRead (imgSects partRead) = .inr partItems := by decide +kernel
theorem part_taken : partIn.withPart partRead 5 partItems = partTaken := by decide +kernel
theorem part_regs : regsBad partRead partItems = [(4, 1, false)] := by decide +kernel
theorem part_conflict : conflict (partIn.barePart 5) partRead partItems 5 = false := by decide +kernel
theorem part_foreign : (regsOf partRead partItems).any (foreign (partIn.barePart 5) partTaken 5) = false ∧
    (towersGiven (regsOf partRead partItems) 5 == []) = false := by decide +kernel
theorem part_mem : partTaken.memBad (fun p => false || [5].contains p) = false := by decide +kernel
theorem part_hubs : partTaken.hubBad = false ∧ partTaken.bindBad = false ∧ partTaken.preemptBad = false ∧
    (List.range 512).any (fun k => (partTaken.shadow k).bad) = false ∧ partTaken.ringBad 5 = false ∧
    partTaken.kvScaleBad 5 = false ∧ partTaken.regrowBad 5 = false ∧ partTaken.needsKey partIn 5 = false := by decide +kernel
theorem part_regulation : partTaken.regulationBad = false := by decide +kernel
theorem part_tiles : (partTaken.towerTiles 5).filter partTaken.tileUsable = [] ∧ partTaken.partTiles 5 = [] := by decide +kernel
theorem part_own : (itemTiles partRead partItems, itemParts partRead partItems, itemsClash partRead partItems,
    partItems.any (itemBad partRead (imgNat partRead 24 8))) = ([], [], false, false) := by decide +kernel

theorem part_rules : firstFail ((4, 1, (regsOf partRead partItems).any (foreign (partIn.barePart 5) partTaken 5)) ::
    (4, 1, towersGiven (regsOf partRead partItems) 5 == []) :: partTaken.ruleChecks partRead partItems false [5]
      ((partTaken.towerTiles 5).filter partTaken.tileUsable) ++ [(4, 10, partTaken.needsKey partIn 5)]) = none := by
  have h := part_own
  simp only [Prod.mk.injEq] at h
  obtain ⟨a, b, c, d⟩ := h
  obtain ⟨h1, h2, h3, h4, h5, h6, h7, h8⟩ := part_hubs
  have g1 := graphsBad_none partTaken 5 rfl rfl rfl rfl
  have g2 := thapelGeomBad_none partTaken 5 rfl part_tiles.2
  unfold State.ruleChecks
  simp only [part_foreign.1, part_foreign.2, part_tiles.1, part_mem, part_regulation, h1, h2, h3, h4, h5, h6, h7, h8, g1, g2, a, b, c, d,
    List.any_nil, List.any_cons, Bool.or_false]
  rfl

theorem part_passes : partIn.checkPart partRead 5 ⟨true, []⟩ = .pass partItems :=
  checkPart_pass partIn partTaken partRead 5 ⟨true, []⟩ partItems part_form part_items part_taken
    (by rw [part_regs]; decide) part_conflict part_rules

/-- A partition's image that passes. -/
theorem witness_PartitionLoad : partIn.partCmd .mgmt 0x25 2 = some 5 ∧ partIn.isReady = true ∧ (partIn.part 5).idle = true ∧
    partIn.imageReadable 5 (partIn.fget PART_LOAD_ADDR.ADDR 0 0) = true ∧ (partIn.part 5).stage = .none ∧
    (partIn.withPending 5).checkPart (partIn.windowImage 5 (partIn.fget PART_LOAD_ADDR.ADDR 0 0)) 5 ⟨true, []⟩ = .pass partItems := by
  refine ⟨by decide +kernel, by decide +kernel, by decide +kernel, by decide +kernel, by decide +kernel, ?_⟩
  rw [show partIn.withPending 5 = partIn by decide +kernel]
  exact part_passes

/-- A signature that does not verify. -/
theorem witness_PartitionLoad_fails : (partIn.withPending 5).checkPart
    (partIn.windowImage 5 (partIn.fget PART_LOAD_ADDR.ADDR 0 0)) 5 ⟨false, []⟩ = .fail 2 11 := by
  have h : firstFail (partIn.formChecks partRead 1 5 ⟨false, []⟩) = some (2, 11) := by decide +kernel
  rw [show partIn.withPending 5 = partIn by decide +kernel]
  unfold State.checkPart
  simp only [show partIn.windowImage 5 (partIn.fget PART_LOAD_ADDR.ADDR 0 0) = partRead from rfl, h]

end Sys2Proof.Tests
end

