-- ==== Sys2Proof/Tests/Slice0.lean ====
section
/-!
SUPPORT. Tests: the checks of WellFormed refuse and accept, worked examples of the spec, and for each statement with
hypotheses a concrete state and operands that meet them (`witness_…`). The states are small: `base` and what is set on it.
The whole-part and partition images that meet a loader's rules are in Tests/Images.lean.
-/

set_option maxRecDepth 100000
set_option Elab.async false

namespace Sys2Proof.Tests

open Sys2Proof Sys2Proof.Machine

/-! States. -/

/-- A part in READY whose partition 0 runs on tower 0 (tiles 0 to 3, all usable, awake) and owns nothing else. -/
def base : State :=
  let s : State := (((State.reset.fset BOOT_TILES.TILES 0 0 (2 ^ 64 - 1)).fset PART_TOWER_EN.ASSIGNED 0 0 1).setPartStatus
    0 1).fset BOOT_STATUS.PHASE 0 0 12
  { s with tiles := [(0, { power := .run }), (1, { power := .run })] }

/-- The fields of a packed structure as one number: byte offset and value. -/
def pack (l : List (Nat × Nat)) : Nat := l.foldl (fun n (o, v) => n + v * 256 ^ o) 0

/-- A slot entry: location, columns, rows, format. -/
def slotE (loc cols rows fmt : Nat) : Nat := pack [(0, loc), (4, cols), (8, rows), (10, fmt)]

/-- `base` with an instance running on tile 0 at level 0, whose thread 0 stands at one descriptor, in a graph with some slots. -/
def atOp (d : Nat) (slots : List Nat) : State :=
  { base.onPart 0 (fun _ => { insts := [(0, { valid := true, tiles := 1 })] }) with
    img := { valid := true, runs := [(graphKey 0 0 0 0, pack [(0, 0), (2, 1), (4, 1), (6, 0)])], descs := [(0, d)]
             slots := (List.range slots.length).map (fun k => (graphKey 0 0 0 (k + 1), slots.getD k 0)) } }

/-- An answer is a next state with a property. -/
def nextIs (o : Host.Outcome State Fault Refusal) (p : State → Bool) : Bool :=
  match o with
  | .next t => p t
  | _ => false

/-- An answer is a next state. -/
def isNext (o : Host.Outcome State Fault Refusal) : Bool := nextIs o (fun _ => true)

/-! The checks of operands. -/

/-- A request of tile 0. -/
def reqAt (addr len : Nat) : Req := { src := .tile 0 0, hub := 0, part := 0, addr := addr, len := len, tag := 0, arrived := 0 }

/-- 64 bytes. -/
def b64 : List Byte := List.replicate 64 0

/-- A message without content. -/
def noMsg : Msg := linkMsg 16 0 0 []

/-- A flit without content. -/
def noFlit : Flit := blankFlit 0

/-- A training frame. -/
def noFrame : TrainFrame := ⟨0, 0, 0, 0, false, false, false, 0, 0, 0⟩

/-- Operands that name nothing of the part, one for each check: refused by the checks. -/
theorem test_wf_operands :
    [Accessor.pf0 2, .pf1 2, .vf 0 0, .vf 17 0, .vf 1 2].all (fun a => !a.wf) = true ∧
    [{ reqAt 0 64 with hub := 4 }, { reqAt 0 64 with part := 16 }, reqAt 0 0, { reqAt 0 64 with src := .tile 64 0 },
      { reqAt 0 64 with src := .tile 0 16 }, { reqAt 0 64 with src := .streamer 64 }, { reqAt 0 64 with src := .seq 64 },
      { reqAt 0 64 with src := .host 2 0 }, { reqAt 0 64 with src := .host 0 17 }, { reqAt 0 64 with src := .fabric 16 },
      { reqAt 0 64 with src := .engine 5 }, { reqAt 0 64 with src := .engine 9 }, { reqAt 0 64 with src := .thapel 768 },
      { reqAt 0 64 with src := .runAhead 64 }].all (fun r => !r.wf) = true ∧
    [(0, 64), (1, 768), (2, 64), (3, 64), (4, 4), (5, 64), (6, 768), (7, 4), (8, 0)].all (fun u => !unitOk u) = true ∧
    [Transport.pf1 2, .doe 2].all (fun v => !Transport.ok v) = true := by decide

/-- Commands that name no unit, one for each check of their operands: refused by the check. -/
theorem test_wf_refuses_0 :
    (
    [.registerWrite (.pf0 2) 0 4 0 false, .rcFieldRead (.pf0 2) 0 4, 
     .tileThrottleWrite (.pf0 2) 0 0, .tileThrottleWrite .mgmt 64 0, .throttleTakeEffect 64, .rampStep 64 0, .rampStep 0 4,
     .shadowLoadDone 64 0, .shadowLoadDone 0 4, .arrayConfigChange 64, .passCommit 64 0, .passCommit 0 4,
     .passFault 64 0 false, .passFault 0 4 false, .preemptRequest 64 false, .preemptBoundary 64 0, .preemptBoundary 0 4,
     .preemptDeadline 64 0, .preemptDeadline 0 4, .urgentSaveDone 64 0 false false, .urgentSaveDone 0 4 false false,
     .preemptResume 64 false, .instanceStart 16 0, .instanceStart 0 1024, .instanceEnd 16 none, .matmulStream 64 0,
     .matmulStream 0 16, .matmulStationary 64 0, .matmulStationary 0 16, .attendPrefill 64 ⟨0, false⟩, .attendPrefill 0 ⟨16, false⟩,
     .attendDecode 64 ⟨0, false⟩, .attendDecode 0 ⟨16, false⟩, .attendBwd 64 ⟨0, false⟩, .attendBwd 0 ⟨16, false⟩, .norm 64 ⟨0, false⟩, .norm 0 ⟨16, false⟩, .rope 64 ⟨0, false⟩,
     .rope 0 ⟨16, false⟩, .act 64 ⟨0, false⟩, .act 0 ⟨16, false⟩, .route 64 ⟨0, false⟩, .route 0 ⟨16, false⟩] : List Instr).all (fun c => !c.wf) = true := by decide +kernel

/-- Commands that name no unit, one for each check of their operands: refused by the check. -/
theorem test_wf_refuses_1 :
    (
    [.dispatch 64 0, .dispatch 0 16, .combine 64 ⟨0, false⟩, .combine 0 ⟨16, false⟩, .sample 64 ⟨0, false⟩, .sample 0 ⟨16, false⟩, .embed 64 ⟨0, false⟩, .embed 0 ⟨16, false⟩,
     .copyRows 64 0, .copyRows 0 16, .reduce 64 ⟨0, false⟩, .reduce 0 ⟨16, false⟩, .kvAppend 64 0, .kvAppend 0 16, .waitOp 64 0, .waitOp 0 16,
     .signalOp 64 0, .signalOp 0 16, .waitSatisfied 64 0, .waitSatisfied 0 16, .waitLimit 64 0, .waitLimit 0 16,
     .yarderCompletion 64 0 false, .yarderCompletion 0 512 false, .yarderTimeout 64 0, .yarderTimeout 0 512,
     .tagQuarantineEnd 64 0, .tagQuarantineEnd 0 512, .instanceAbort 16, .runAheadRead 64 0 false, .reservationRetry 16,
     .regrowChunk 16 false, .ledgerPin (2 ^ 24) 0, .ledgerUnpin (2 ^ 24), .ledgerRef (2 ^ 24), .ledgerUnref (2 ^ 24),
     .droppedPageRerun 16, .memoryRead (reqAt 0 0) [], .memoryWrite (reqAt 0 0) [] false, .memoryWrite (reqAt 0 64) [] false,
     .partialWrite (reqAt 0 0) [] false, .partialWrite (reqAt 0 64) [] false, .adderReduce (reqAt 0 0) 0 0 [],
     .adderReduce (reqAt 0 64) 0 0 [], .adderReduce (reqAt 0 32) 0 0 (b64.take 32)] : List Instr).all (fun c => !c.wf) = true := by decide +kernel

/-- Commands that name no unit, one for each check of their operands: refused by the check. -/
theorem test_wf_refuses_2 :
    (
    [.adderReduce (reqAt 0 576) 0 0 (List.replicate 576 0), .adderReduce (reqAt 32 64) 0 0 b64, .adderReduce (reqAt 0 64) 3 0 b64,
     .adderReduce (reqAt 0 64) 0 4 b64, .hostWindowRequest (reqAt 0 0) false [],
     .hostWindowRequest (reqAt 0x3FFFFFFFFFF 64) false b64, .hostWindowRequest (reqAt 0x40000000000 64) true [],
     .hostCompletion 2 0 0 [], .hostCompletion 0 0 4 [], .hostCompletionTimeout 2 0, .refresh 768, .hotbankTick 4 [],
     .hotbankLeak 4, .marginSweepStart (.pf0 2) 0 0x4000, .marginSweepStart .mgmt 4 0x4000, .marginSweepStart .mgmt 0 0,
     .marginSweepDone 4 0 0 0, .thapelStepQueue 4 0, .thapelStepQueue 0 768, .processorModeEntry 768, .attendPage 768,
     .sealVerify 768, .yieldPoint 768 false, .resultBufferDrain 768, .lingerExpiry 768, .channelBusy 768 0, .thapelHang 768,
     .refreshAbandon 768, .windowBoundary 4 0, .windowBoundary 0 144, .requestRelease 4 16 0 0, .requestRelease 0 22 0 0,
     .requestRelease 0 16 16 0, .urgencySample 4 16 0, .urgencySample 0 15 0, .urgencySample 0 21 0, .scaleUpdate 4,
     .tallyLeak 4 0, .tallyLeak 0 4, .mergeEntryTimeout 4, .patrolScrub 4 0 [], .patrolScrub 0 5 [],
     .readRaw (.pf0 2) 0 256, .readRaw .mgmt 4 256, .readRaw .mgmt 0 0] : List Instr).all (fun c => !c.wf) = true := by decide +kernel

/-- Commands that name no unit, one for each check of their operands: refused by the check. -/
theorem test_wf_refuses_3 :
    (
    [.readRaw .mgmt 0 257, .readCorrected (.pf0 2) 0 257, .readCorrected .mgmt 4 257, .readCorrected .mgmt 0 1,
     .readCorrected .mgmt 0 258, .writeRaw (.pf0 2) 0 258, .writeRaw .mgmt 4 258, .writeRaw .mgmt 0 2,
     .writeRaw .mgmt 0 259, .writeEncoded (.pf0 2) 0 259, .writeEncoded .mgmt 4 259, .writeEncoded .mgmt 0 3,
     .writeEncoded .mgmt 0 256, .mgmtRecordCopy 4, .hostLinkTraining 2 5 4, .hostLinkTraining 0 4 4,
     .hostLinkTraining 0 5 2, .configRequest 2 0 none, .configRequest 0 18 none, .deckDoorbell 18 0 0 4 0,
     .deckDoorbell 0 2 0 4 0, .deckCqDoorbell 18 0 0 4 0, .deckCqDoorbell 0 2 0 4 0, .bar4SegWrite (.pf0 2) 0 1 0,
     .bar4SegWrite .mgmt 2 1 0, .bar4SegWrite .mgmt 0 16 0, .vfSegWrite (.pf0 2) 0 1 0, .vfSegWrite .mgmt 2 1 0,
     .vfSegWrite .mgmt 0 0 0, .vfSegWrite .mgmt 0 17 0, .vfFlr 0, .vfFlr 17, .pf0Flr 2, .pf1Flr 2, .hostLinkDown 2,
     .perstDeassert 2, .deckEnable (.pf0 2) 0, .deckStop (.pf0 2), .deckPark 32768, .deckActivate 32768, .deckFetch 32768,
     .commandStart 32768, .runGraph 16 0, .runGraph 0 1024, .kvCopy 16 0] : List Instr).all (fun c => !c.wf) = true := by decide +kernel

/-- Commands that name no unit, one for each check of their operands: refused by the check. -/
theorem test_wf_refuses_4 :
    (
    [.kvCopy 0 1024, .kvDrop 16 0, .kvDrop 0 1024, .kvPark 16 0, .kvPark 0 1024, .kvUnpark 16 0, .kvUnpark 0 1024,
     .weightLoad 16 0, .weightLoad 0 1024, .fence 16 0, .fence 0 1024, .eventWait 16 0, .eventWait 0 1024,
     .eventSignal 16 0, .eventSignal 0 1024, .timer 16 0, .timer 0 1024, .forecast 16 0, .forecast 0 1024, .fabricSend 16 0,
     .fabricSend 0 1024, .barrier 16 0, .barrier 0 1024, .broadcast 16 0, .broadcast 0 1024, .snapshot 16 0,
     .snapshot 0 1024, .eventWaitSatisfied 16 0, .eventWaitSatisfied 0 1024, .timerExpiry 16 0, .timerExpiry 0 1024,
     .commandTimeout 32768 0 false, .commandTimeout 0 1024 false, .lateResult 16 0 false, .lateResult 0 1024 false,
     .execSlotQuarantineEnd 16 0, .execSlotQuarantineEnd 0 1024, .sendContextGrant 16 0, .sendContextGrant 0 1024,
     .protShadowWrite (.pf0 2) 0 4 0, .protCommit (.pf0 2) 0, .partitionReset (.pf0 2) 0,
     .partitionLoad (.pf0 2) 0 ⟨true, []⟩, .partitionRetire (.pf0 2) 0] : List Instr).all (fun c => !c.wf) = true := by decide +kernel

/-- Commands that name no unit, one for each check of their operands: refused by the check. -/
theorem test_wf_refuses_5 :
    (
    [.resetDrainDone 16, .drainSlow 16, .loadDrainDone 16, .loadWeightsDone 16 4, .linkDetect 16, .trainingFrame 16 noFrame,
     .trainingTimeout 16, .trainingRetry 16, .fecBlock 16 false [0, 0, 0, 0], .fecBlock 0 false [0], .dataFlit 16 noFlit,
     .dataFlit 0 { noFlit with vc := 8 }, .dataFlit 0 { noFlit with dl := 2 }, .idleFlit 16 noFlit, .nak 16 0, .linkInit 16,
     .linkInitAck 16, .retrainReq 16, .linkReset 16 1, .linkReset 0 3, .replayTimeout 16, .nakRepeat 16,
     .retrainComplete 16 1 0, .retrainComplete 0 0 0, .retrainComplete 0 4 0, .retrainTimeout 16, .portRetrain (.pf0 2) 0,
     .portRetrain .mgmt 16, .portQuarantine (.pf0 2) 0, .portQuarantine .mgmt 16, .portRelease (.pf0 2) 0,
     .portRelease .mgmt 16, .fabTallyLeak 16, .fabRateInterval 16 false, .routeTableWrite (.pf0 2) 0 0,
     .messageRoute { noMsg with port := 17 }, .hello { noMsg with port := 17 }, .helloTimer 16,
     .spdmMessage { noMsg with port := 17 } 0, .authTimeout 16, .authRetry 16, .cruiseStart (.pf0 2),
     .probe { noMsg with port := 17 }, .probeReply { noMsg with port := 17 }, .remoteWrite { noMsg with port := 17 }] : List Instr).all (fun c => !c.wf) = true := by decide +kernel

/-- Commands that name no unit, one for each check of their operands: refused by the check. -/
theorem test_wf_refuses_6 :
    (
    [.remoteReduce { noMsg with port := 17 }, .kvPageWrite { noMsg with port := 17 }, .kvPageReadReq { noMsg with port := 17 },
     .kvPageReadData { noMsg with port := 17 }, .tokenFwd { noMsg with port := 17 }, .stream { noMsg with port := 17 },
     .response { noMsg with port := 17 }, .retransmitTimeout 4 0, .retransmitTimeout 0 1024, .notReadyResend 4 0,
     .notReadyResend 0 1024, .notReadyLimit 4 0, .notReadyLimit 0 1024, .recvContextClose 4 0, .recvContextClose 0 4096,
     .timeReq { noMsg with port := 17 }, .timeResp { noMsg with port := 17 }, .barUp { noMsg with port := 17 },
     .barDown { noMsg with port := 17 }, .bcastUp { noMsg with port := 17 }, .bcastDown { noMsg with port := 17 },
     .snapUp { noMsg with port := 17 }, .snapMarker { noMsg with port := 17 }, .snapshotResume (.pf0 2), .gopTimeout 16,
     .fabricResetStart (.pf0 2), .resetReq { noMsg with port := 17 }, .resetDown { noMsg with port := 17 },
     .resetAck { noMsg with port := 17 }, .selfTest [(8, 0)], .memoryTraining [768] (List.replicate 16 0) false false,
     .memoryTraining (List.replicate 16 0) [64] false false, .bootLoad (.pf0 2), .bootAccept (.pf0 2), .bootAbort (.pf0 2),
     .bootRestart (.pf0 2), .bootSave (.pf0 2), .sensorSample [(752, 0)], .thermalWarning 376, .towerThrottle 752 0,
     .stackThrottle 752 0, .stackCapStep 24, .thermalShutdown 752 0, .tripRelease (.pf0 2), .powerFault (2 ^ 29)] : List Instr).all (fun c => !c.wf) = true := by decide +kernel

/-- Commands that name no unit, one for each check of their operands: refused by the check. -/
theorem test_wf_refuses_7 :
    (
    [.powerTelemetry 28 0 0 0 0 0, .avsStatusPoll 4 0 0, .powerEstimate [], .clockSwitch 16, .forecastPhase 16,
     .partStateTarget (.pf0 2) 0, .tileWake 16, .tileRetention 64, .tileOff 64, .sequenceStage (2 ^ 29), .pgTimeout 29,
     .cableChange (2 ^ 16), .setEndpointId (.pf1 2) 0, .setEndpointId .i3c 256, .getSensorReading (.pf1 2) 0,
     .setEventReceiver (.pf1 2) 0, .setEventReceiver .i3c 256, .requestUpdate (.pf1 2) 0, .requestUpdate .i3c 256,
     .firmwareComponent (.pf1 2) 0 none 0 (List.replicate 16 0), .activateFirmware (.pf1 2) false, .logInfo (.pf1 2),
     .logRead (.pf1 2) 0 4, .logClear (.pf1 2), .timeSet (.pf1 2) 0, .setPriv (.pf1 2) 0, .debugUnlock (.pf1 2) 0 false,
     .spdmRequest (.pf1 2) .version, .secRngRead (.pf0 2), .rngHealthFail 0, .rngHealthFail 4, .debugChallengeRead (.pf0 2),
     .rtcSecondsRead (.pf0 2), .rtcSet (.pf0 2), .flitSlot 16, .registerHalfRead (.pf0 2) 0] : List Instr).all (fun c => !c.wf) = true := by decide +kernel

/-- A command of each constructor that the check accepts. -/
theorem test_wf_accepts_0 :
    (
    [.registerWrite .mgmt 0 4 0 false, .rcFieldRead .mgmt 0 4, .tileThrottleWrite .mgmt 0 0, .throttleTakeEffect 0, .rampStep 0 0,
     .shadowLoadDone 0 0, .arrayConfigChange 0, .passCommit 0 0, .passFault 0 0 false, .preemptRequest 0 false,
     .preemptBoundary 0 0, .preemptDeadline 0 0, .urgentSaveDone 0 0 false false, .preemptResume 0 false, .instanceStart 0 0,
     .instanceEnd 0 none, .matmulStream 0 0, .matmulStationary 0 0, .attendPrefill 0 ⟨0, false⟩, .attendDecode 0 ⟨0, false⟩, .attendBwd 0 ⟨0, false⟩,
     .norm 0 ⟨0, false⟩, .rope 0 ⟨0, false⟩, .act 0 ⟨0, false⟩, .route 0 ⟨0, false⟩, .dispatch 0 0, .combine 0 ⟨0, false⟩, .sample 0 ⟨0, false⟩, .embed 0 ⟨0, false⟩, .copyRows 0 0,
     .reduce 0 ⟨0, false⟩, .kvAppend 0 0, .waitOp 0 0, .signalOp 0 0, .waitSatisfied 0 0, .waitLimit 0 0,
     .yarderCompletion 0 0 false, .yarderTimeout 0 0, .tagQuarantineEnd 0 0, .instanceAbort 0, .runAheadRead 0 0 false,
     .reservationRetry 0, .regrowChunk 0 false, .ledgerPin 0 0, .ledgerUnpin 0, .ledgerRef 0, .ledgerUnref 0,
     .droppedPageRerun 0, .memoryRead (reqAt 0 64) [], .memoryWrite (reqAt 0 64) b64 false, .partialWrite (reqAt 0 64) b64 false,
     .adderReduce (reqAt 0 64) 0 0 b64, .correctedWriteBack 0, .hostWindowRequest (reqAt 0x40000000000 64) false b64] : List Instr).all Instr.wf = true := by decide +kernel

/-- A command of each constructor that the check accepts. -/
theorem test_wf_accepts_1 :
    (
    [.hostCompletion 0 0 0 [], .hostCompletionTimeout 0 0, .refresh 0, .hotbankTick 0 [], .hotbankLeak 0,
     .marginSweepStart .mgmt 0 0x4000, .marginSweepDone 0 0 0 0, .thapelStepQueue 0 0, .processorModeEntry 0, .attendPage 0,
     .sealVerify 0, .yieldPoint 0 false, .resultBufferDrain 0, .lingerExpiry 0, .channelBusy 0 0, .thapelHang 0,
     .refreshAbandon 0, .windowBoundary 0 0, .requestRelease 0 16 0 0, .urgencySample 0 16 0, .scaleUpdate 0,
     .tallyLeak 0 0, .mergeEntryTimeout 0, .patrolScrub 0 0 [], .readRaw .mgmt 0 256, .readCorrected .mgmt 0 257,
     .writeRaw .mgmt 0 258, .writeEncoded .mgmt 0 259, .mgmtRecordCopy 0, .logFlush 0, .hostLinkTraining 0 5 4,
     .configRequest 0 0 none, .deckDoorbell 0 0 0 4 0, .deckCqDoorbell 0 0 0 4 0, .bar4SegWrite .mgmt 0 1 0,
     .vfSegWrite .mgmt 0 1 0, .vfFlr 1, .pf0Flr 0, .pf1Flr 0, .hostLinkDown 0, .perstDeassert 0, .deckEnable .mgmt 0,
     .deckStop .mgmt, .deckPark 0, .deckActivate 0, .deckFetch 0, .commandStart 0, .runGraph 0 0, .kvCopy 0 0, .kvDrop 0 0,
     .kvPark 0 0, .kvUnpark 0 0, .weightLoad 0 0, .fence 0 0] : List Instr).all Instr.wf = true := by decide +kernel

/-- A command of each constructor that the check accepts. -/
theorem test_wf_accepts_2 :
    (
    [.eventWait 0 0, .eventSignal 0 0, .timer 0 0, .forecast 0 0, .fabricSend 0 0, .barrier 0 0, .broadcast 0 0,
     .snapshot 0 0, .eventWaitSatisfied 0 0, .timerExpiry 0 0, .commandTimeout 0 0 false, .lateResult 0 0 false,
     .execSlotQuarantineEnd 0 0, .sendContextGrant 0 0, .protShadowWrite .mgmt 0 4 0, .protCommit .mgmt 0, .protSwap,
     .partitionReset .mgmt 0, .partitionLoad .mgmt 0 ⟨true, []⟩, .partitionRetire .mgmt 0, .resetDrainDone 0, .drainSlow 0,
     .loadDrainDone 0, .loadWeightsDone 0 4, .linkDetect 0, .trainingFrame 0 noFrame, .trainingTimeout 0, .trainingRetry 0,
     .fecBlock 0 false [0, 0, 0, 0], .dataFlit 0 noFlit, .idleFlit 0 noFlit, .nak 0 0, .linkInit 0, .linkInitAck 0,
     .retrainReq 0, .linkReset 0 1, .replayTimeout 0, .nakRepeat 0, .retrainComplete 0 1 0, .retrainTimeout 0,
     .portRetrain .mgmt 0, .portQuarantine .mgmt 0, .portRelease .mgmt 0, .fabTallyLeak 0, .fabRateInterval 0 false,
     .routeTableWrite .mgmt 0 0, .messageRoute noMsg, .hello noMsg, .helloTimer 0, .spdmMessage noMsg 0, .authTimeout 0,
     .authRetry 0, .cruiseStart .mgmt, .probe noMsg] : List Instr).all Instr.wf = true := by decide +kernel

/-- A command of each constructor that the check accepts. -/
theorem test_wf_accepts_3 :
    (
    [.probeReply noMsg, .probeResend, .cruiseEnd, .remoteWrite noMsg, .remoteReduce noMsg, .kvPageWrite noMsg, .kvPageReadReq noMsg,
     .kvPageReadData noMsg, .tokenFwd noMsg, .stream noMsg, .response noMsg, .retransmitTimeout 0 0, .notReadyResend 0 0,
     .notReadyLimit 0 0, .recvContextClose 0 0, .timeSyncPeriod, .timeReq noMsg, .timeResp noMsg, .barUp noMsg, .barDown noMsg,
     .bcastUp noMsg, .bcastDown noMsg, .snapUp noMsg, .snapMarker noMsg, .snapshotDrained, .snapshotResume .mgmt, .gopTimeout 0,
     .fabricResetStart .mgmt, .resetReq noMsg, .resetDown noMsg, .resetAck noMsg, .resetReqTimeout, .resetAckTimeout,
     .fabricLocalReset, .vaonValid, .alwaysOnStart, .fuseRead, .secureBoot false false, .selfTest [],
     .memoryTraining (List.replicate 16 0) (List.replicate 16 0) false false, .imageCheck ⟨true, []⟩, .linkTrainingPhase,
     .weightLoadBlob 0 false, .readyEntry, .bootLoad .mgmt, .bootAccept .mgmt, .bootAbort .mgmt, .bootRestart .mgmt,
     .bootSave .mgmt, .sensorSample [], .thermalWarning 0, .towerThrottle 0 0, .stackThrottle 0 0, .stackCapStep 0] : List Instr).all Instr.wf = true := by decide +kernel

/-- A command of each constructor that the check accepts. -/
theorem test_wf_accepts_4 :
    (
    [.thermalShutdown 0 0, .tripRelease .mgmt, .powerFault 0, .powerTelemetry 0 0 0 0 0 0, .avsStatusPoll 0 0 0,
     .powerEstimate (List.replicate 16 0), .clockTargetUpdate, .clockSwitch 0, .rthEstimate, .inletRead none, .flowPulse,
     .flowCount, .flowStop, .rateEvaluation, .forecastPhase 0, .partStateTarget .mgmt 0, .autoIdle, .partWake, .tileWake 0,
     .tileRetention 0, .tileOff 0, .sequenceStage 0, .pgTimeout 0, .boardReset, .powerDown, .cableChange 0,
     .setEndpointId .i3c 0, .getSensorReading .i3c 0, .setEventReceiver .i3c 0, .requestUpdate .i3c 0,
     .firmwareComponent .i3c 0 none 0 (List.replicate 16 0), .activateFirmware .i3c false, .logInfo .i3c, .logRead .i3c 0 4,
     .logClear .i3c, .timeSet .i3c 0, .setPriv .i3c 0, .debugUnlock .i3c 0 false, .spdmRequest .i3c .version,
     .secRngRead .mgmt, .rngHealthFail 1, .debugChallengeRead .mgmt, .rtcSecondsRead .mgmt, .rtcSet .mgmt, .rtcSetApply,
     .rtcOscStop, .vaonLoss, .vbatLow, .flitSlot 0, .partStateEntered, .registerHalfRead .mgmt 0] : List Instr).all Instr.wf = true := by decide +kernel

/-! Worked examples of the spec. -/

/-- Table 3.5: the block sum, its scales and the tensor scale give T, and the entry 2^24 becomes 0x4B7F_FDD5. -/
theorem test_block_sum :
    (let t := blockTerm false ([0x3C, 0xB0, 0x01, 0x7E].map Fmt.mxE4m3.value) ([0x7, 0x2, 0x1, 0xC].map Fmt.abf4.value)
       (e8m0 0x7E) (e5m3 0x7A) (f32 0x3F800000) (f32 0x3F800000)
     ((t.add (.ofInt 4543995 (-13))).isZero, accumulate 0x4B800000 t)) = (true, (0x4B7FFDD5, false)) := by decide +kernel

/-- Table 3.7: conversions from FP32 into E4M3, saturating. -/
theorem test_e4m3_saturating :
    [0x43E00000, 0x43E80000, 0x43E88000, 0x3A800000].map (fun x => ((Fmt.e4m3.cvt false (f32 x) 1).code, (Fmt.e4m3.cvt false (f32 x) 1).sat)) =
      [(0x7E, false), (0x7E, false), (0x7E, true), (0, false)] := by decide +kernel

/-- Table 3.7: the same, not saturating. -/
theorem test_e4m3_nonsaturating :
    [0x43E00000, 0x43E80000, 0x43E88000, 0x3A800000].map (fun x => (Fmt.e4m3.cvt true (f32 x) 1).code) = [0x7E, 0x7E, 0x7F, 0] := by
  decide +kernel

/-- Table 7.3: granules of a 24-channel window. -/
theorem test_interleave :
    [0x0000, 0x0200, 0x1000, 0x5A40, 0x5C00].map (granule 3 1) = [(0, 0), (1, 0), (9, 0), (16, 0x240), (19, 0x200)] := by decide

/-- The example of R136: slots of a ring of 4,096 with 10,000 tokens. -/
theorem test_ring : [0, 1807, 1808, 1855].map (ringPos 10000 4096) = [some 8192, some 9999, some 5904, some 5951] := by decide

/-- The example of R260: a landing word with s = 0b000_1010 and p = 1 has data bit 5 wrong. -/
theorem test_secded : secS 138 = 0b0001010 ∧ secP 138 = 1 ∧ secDecode 138 = .corrected 5 := by decide +kernel

/-- The example of R292: port 1 and the host address. -/
theorem test_host_window :
    (base.fset HIF_HWIN_BASE.BASE 0 3 (0x4000000000 / 4096)).hostTarget 3 0x60000001000 = (1, 0x4000001000) := by decide +kernel

/-- The example of *Thapel*, frame 5 of channel 400. -/
theorem test_frame : t1At 400 (5 * 135168) = 0x1E1000A5000 := by decide

/-- Group entry 0x5C1 lists P2, P6, P9 and P13, of which the given are live; an ordered message of 0x2A3_17 to 0x5C1_42. -/
def fourPaths (live : Nat) : State :=
  [(FAB_GRP_TBL.VALID, 1), (FAB_GRP_TBL.PATH0, 2), (FAB_GRP_TBL.PATH1, 6), (FAB_GRP_TBL.PATH2, 9), (FAB_GRP_TBL.PATH3, 13),
    (FAB_GRP_TBL.NPATH, 3)].foldl (fun s (f, v) => s.fset f 0 0x5C1 v) (base.fset FAB_LIVE.PORTS 0 0 live)

/-- The example of R364: the message leaves by P6, and once P6 is quarantined by P9. -/
theorem test_ordered_path :
    (fourPaths 0x2244).egress { linkMsg 16 0x2A317 1 [] with ll := false, ord := true, dest := 0x5C142 } = some 6 ∧
    (fourPaths 0x2204).egress { linkMsg 16 0x2A317 1 [] with ll := false, ord := true, dest := 0x5C142 } = some 9 := by
  decide +kernel

/-- The example of R331: a COMMIT at 400 ns takes effect at 3,072 ns. -/
theorem test_commit_time :
    nextIs (exec (.protCommit .mgmt 1) { base with time := 400 }) (fun t => t.fget PROT_COMMIT_TIME.T_C 0 0 == 3072) = true := by
  decide +kernel

/-- Table 17.4: P_cool with the inlet at 40 °C, as R_est rises. -/
theorem test_cooling_cap :
    [12000, 14500, 15000, 15200, 19000].map (fun r =>
      (((base.fset PWR_RTH.EST 0 0 r).fset PWR_COOLANT.INLET_VALID 0 0 1).fset PWR_COOLANT.INLET 0 0 640).coolCap) =
      [4750, 3931, 3800, 3750, 3000] := by decide +kernel

/-- The example of R431: six stacks of hub 2 with caps of 1,200 GB/s make HUB_DELIV 7,200 GB/s. -/
theorem test_deliverable :
    (((List.range 6).foldl (fun s i => s.fset PWR_STK_CAP.CAP 0 (12 + i) 150) base).deliv 2).fget HUB_DELIV.GBPS 2 0 = 7200 := by
  decide +kernel

/-! Witnesses. -/

/-- The hypotheses of CommandFaultsExactlyWhenItNamesNoUnit are met. -/
theorem witness_CommandFaultsExactlyWhenItNamesNoUnit :
    (Instr.rampStep 63 3).wf = true ∧ (Instr.rampStep 64 0).wf = false ∧ (Instr.rampStep 0 4).wf = false := by decide +kernel

/-- The hypotheses of WellFormedQueueRunsToItsEnd are met. -/
theorem witness_WellFormedQueueRunsToItsEnd :
    (base.withQueue [.rampStep 63 3, .deckPark 32767]).pending.all Instr.wf = true ∧ base.pending.all Instr.wf = true := by decide +kernel

/-- The hypotheses of CommandsWriteOnlyTheirAreas are met. -/
theorem witness_CommandsWriteOnlyTheirAreas :
    isNext (exec (.rampStep 63 3) base) = true ∧ Area.memory ∉ (Instr.rampStep 63 3).areas := by decide +kernel

/-- The hypotheses of EveryStepKeepsMemoryCanonical are met. -/
theorem witness_EveryStepKeepsMemoryCanonical :
    isNext (step base) = true ∧ isNext (core.run 2 base) = true ∧ Memory.wf base.mem = true ∧ Tbl.wf 0 base.chk = true := by decide +kernel

/-- The hypotheses of FieldWritesFollowTheirAccessCodes are met. -/
theorem witness_FieldWritesFollowTheirAccessCodes_1 :
    base.mayWrite .mgmt TILE_NUM_CTL.NAN_FAULT = true ∧ base.mayWrite (.vf 16 1) TILE_THROTTLE.DUTY = false ∧
      TILE_NUM_CTL.NAN_FAULT.acc = .rwl ∧ base.isSealed TILE_NUM_CTL.NAN_FAULT 0 0 = false ∧
      (base.withSealWide true).isSealed TILE_NUM_CTL.NAN_FAULT 0 0 = true := by decide +kernel

/-- The hypotheses of FieldWritesFollowTheirAccessCodes are met. -/
theorem witness_FieldWritesFollowTheirAccessCodes_2 :
    ERR_EVENT.RECORD.acc = .w1c ∧ base.mayWrite .mgmt ERR_EVENT.RECORD = true ∧ DECK_BASE.BASE.acc = .rw ∧
      base.mayWrite (.vf 1 0) DECK_BASE.BASE = true ∧ FAB_PORT_CTL.QUARANTINE.acc = .w1s ∧ BOOT_STATUS.PHASE.acc = .ro ∧
       DECK_BASE.BASE.key 32767 0 ≠ DECK_BASE.BASE.key 32766 0 := by decide +kernel

/-- The hypotheses of RegisterAccessesReachTheirRegister are met. -/
theorem witness_RegisterAccesses_1 :
    (base.locate .mgmt (ERR_EVENT.RECORD.addr 3 0)).any (fun x => ERR_EVENT.RECORD.addr 3 0 % 4 == 0 && x.1.width == 32 &&
      !ownRow (x.1.fields.headD TILE_ARRAY_LAT.A0_EXTRA)) = true ∧ msixHit .mgmt (ERR_EVENT.RECORD.addr 3 0) = none ∧ base.tableBytes .mgmt (ERR_EVENT.RECORD.addr 3 0) = none := by decide +kernel

/-- The hypotheses of RegisterAccessesReachTheirRegister are met. -/
theorem witness_RegisterAccesses_2 :
    (base.locate (.pf0 0) (BWR_MON_MAX.MAX_NS.addr 0 0)).isSome = true ∧ BWR_MON_MAX.MAX_NS.acc = .rc := by decide +kernel

/-- The hypotheses of RegisterAccessesReachTheirRegister are met. -/
theorem witness_RegisterAccesses_3 :
    (base.locate (.pf0 1) (FAB_TIMEBASE.COUNT.addr 0 0)).any (fun x => x.1.width == 64) = true ∧ FAB_TIMEBASE.COUNT.addr 0 0 % 8 = 0 := by decide +kernel

/-- The hypotheses of RegisterAccessesReachTheirRegister are met. -/
theorem witness_RegisterAccesses_4 :
    base.locate (.vf 16 1) 0x80000 = none ∧ base.locate (.vf 16 1) (0x80000 - 4) = none ∧ msixHit (.vf 16 1) 0x80000 = none ∧ base.tableBytes (.vf 16 1) 0x80000 = none ∧ (2 : Nat) ≠ 4 ∧ (2 : Nat) ≠ 8 := by decide +kernel

/-- `base` with the loaded whole-part configuration sealed. -/
def sealedBase : State := base.withSealWide true

/-- The hypotheses of RegisterAccessesReachTheirRegister are met. -/
theorem witness_RegisterAccesses_5 :
    (sealedBase.locate (.pf0 1) (TILE_NUM_CTL.NAN_FAULT.addr 0 0)).any (fun x => x.1.width == 32 &&
      msixHit (.pf0 1) (TILE_NUM_CTL.NAN_FAULT.addr 0 0) == none && !ownRow (x.1.fields.headD TILE_ARRAY_LAT.A0_EXTRA) &&
      !x.1.fields.any (fun f => sealedBase.baseHeld f x.2.1) &&
      sealedBase.sealedFields (.pf0 1) x.1.fields x.2.1 x.2.2 != []) = true := by decide +kernel

/-- The hypotheses of ThrottleRampAndConfigurationAct are met. -/
theorem witness_ThrottleRamp_1 :
    base.tileUsable 63 = true ∧ Accessor.wf (.vf 16 1) = true ∧ (Accessor.vf 16 1) ≠ .mgmt := by decide +kernel

/-- The hypotheses of ThrottleRampAndConfigurationAct are met. -/
theorem witness_ThrottleRamp_2 :
    (base.tile 0).counter = 0 ∧ ((base.onTile 63 (fun t => { t with counter := 7 })).tile 63).counter ≠ 0 := by decide +kernel

/-- Array 3 of tile 63 in a ramp step with a mask. -/
def ramping (st mask : Nat) : State :=
  (base.setArr 63 st 3).onArr 63 3 (fun _ => { mask := mask, held := true, step := 16 })

/-- The hypotheses of ThrottleRampAndConfigurationAct are met. -/
theorem witness_ThrottleRamp_3 :
    (ramping 1 7).rampStep 63 ≤ ((ramping 1 7).arr 63 3).step ∧ (ramping 1 7).arrState 63 3 = 1 ∧ (ramping 1 1).arrState 63 3 = 1 ∧ (ramping 4 1).arrState 63 3 = 4 ∧ (ramping 4 0).arrState 63 3 = 4 := by decide +kernel

/-- A tile that waits for array configuration 3. -/
def wanting : State := base.onTile 63 (fun t => { t with want := some (3, 0, 0) })

/-- The hypotheses of ThrottleRampAndConfigurationAct are met. -/
theorem witness_ThrottleRamp_4 :
    wanting.arraysIdle 63 = true ∧ (wanting.tile 63).want = some (3, 0, 0) ∧
      (wanting.setArr 63 3 0).arraysIdle 63 = false := by decide +kernel

/-- A stream operator of one output over `k` inputs. -/
def mmAt (k mode : Nat) : State := atOp (pack [(0, 1), (8, 1), (9, 12), (10, 1), (11, 2), (12, mode), (14, 1), (16, 1), (20, k)])
  [slotE 0 k 1 12, slotE 1048576 1 1 13]

/-- The hypotheses of MatrixOperatorsStartTheirFirstPass are met. -/
theorem witness_MatrixOperators_1 :
    ((mmAt 1 0).startOf 1 0 0).any (fun c => ((mmAt 1 0).mm c).any (fun m => ((mmAt 1 0).tile 0).want == none &&
      !(mmAt 1 0).servedFirst c && (mmAt 1 0).arraysFree c &&
      m.passes != 0 && !((mmAt 1 0).initAcc 0 m).2 &&
      !((mmAt 1 0).passWork 0 m 0 ((mmAt 1 0).initAcc 0 m).1).2.2.2)) = true := by decide +kernel

/-- The hypotheses of MatrixOperatorsStartTheirFirstPass are met. -/
theorem witness_MatrixOperators_2 :
    ((((mmAt 1 0).setArr 0 3 0).onArr 0 0 (fun _ => { mask := 8 })).startOf 1 0 0).isSome = true := by decide +kernel

/-- A stationary operator whose gang does not fit the configuration. -/
def gangAt (g : Nat) : State := atOp (pack [(0, 2), (8, g), (9, 12), (10, 1), (11, 2), (14, 1), (16, 1), (20, 1), (56, 1)])
  [slotE 0 1 1 12, slotE 1048576 1 1 13]

/-- The hypotheses of MatrixOperatorsStartTheirFirstPass are met. -/
theorem witness_MatrixOperators_3 :
    (List.range 8).any (fun g => ((gangAt g).startOf 2 0 0).any (fun c => ((gangAt g).mm c).any (fun m =>
      m.passes != 0 && !shapeOk ((gangAt g).fget TILE_ARRAY_STATUS.SHAPE 0 0) c.arrays.1 c.arrays.2 && ((gangAt g).tile 0).want == none))) = true := by decide +kernel

/-- The hypotheses of MatrixOperatorsStartTheirFirstPass are met. -/
theorem witness_MatrixOperators_4 :
    ((gangAt 0).startOf 2 0 0).any (fun c => ((gangAt 0).mm c).any (fun m => m.passes != 0 &&
      (gangAt 0).arraysFree c && !(gangAt 0).servedFirst c)) = true := by decide +kernel

/-- The state a command answers. -/
def after (o : Host.Outcome State Fault Refusal) : State :=
  match o with
  | .next t => t
  | _ => base

/-- A job of one or two passes that has begun, its operands held. -/
def jobAt (k : Nat) : State := (after (exec (.matmulStream 0 0) (mmAt k 0))).onArr 0 0 (fun a => { a with held := true })

/-- The hypotheses of PassesCommitAndFault are met. -/
theorem witness_PassesCommit_1 :
    ((jobAt 1).runningJob 0 0).any (fun x => x.2.2.pre == .none && x.2.2.arrays.all (fun y => ((jobAt 1).arr 0 y).held) &&
      x.2.2.pass + 1 == x.2.2.passes && !x.2.2.retried && !((jobAt 1).passWork 0 x.2.1 0 x.2.2.acc).2.2.2) = true := by decide +kernel

/-- A stream operator of one output on one array with one row group, over two chunks of inputs. -/
def mm2At : State := atOp (pack [(0, 1), (8, 0x41), (9, 12), (10, 1), (11, 2), (14, 1), (16, 1), (20, 129)])
  [slotE 0 129 1 12, slotE 1048576 1 1 13]

/-- Its job, operands held. -/
def job2At : State := (after (exec (.matmulStream 0 0) mm2At)).onArr 0 0 (fun a => { a with held := true })

/-- The hypotheses of PassesCommitAndFault are met. -/
theorem witness_PassesCommit_2 :
    (job2At.runningJob 0 0).any (fun x => x.2.2.arrays.all (fun y => (job2At.arr 0 y).held) && x.2.2.pass + 1 != x.2.2.passes &&
      !((job2At.commitSet x.1 x.2.1 x.2.2).1.passWork 0 x.2.1 (x.2.2.pass + 1) x.2.2.work).2.2.2) = true := by decide +kernel

/-- The hypotheses of PassesCommitAndFault are met. -/
theorem witness_PassesCommit_3 :
    (((jobAt 1).onArr 0 0 (fun a => { a with held := false })).runningJob 0 0).any (fun x =>
      !x.2.2.arrays.all (fun y => (((jobAt 1).onArr 0 0 (fun a => { a with held := false })).arr 0 y).held)) = true := by decide +kernel

/-- The job with a pre-emption of it. -/
def preAt (s : State) (p : Preempt) : State := s.setJob 0 0 0 ((s.job 0 0 0).map (fun b => { b with pre := p }))

/-- The hypotheses of PreemptionStopsSavesAndResumes are met. -/
theorem witness_Preemption_1 :
    ((jobAt 1).onPart 0 (fun q => { q with preAsk := some (1023, true) })).tileInst 0 ≠ none := by decide +kernel

/-- The hypotheses of PreemptionStopsSavesAndResumes are met. -/
theorem witness_Preemption_2 :
    ((preAt (jobAt 1) (.normal 0)).runningJob 0 0).any (fun x => x.2.2.pre == .normal 0 && x.2.2.pass + 1 == x.2.2.passes &&
      x.2.2.arrays.all (fun y => ((preAt (jobAt 1) (.normal 0)).arr 0 y).held)) = true ∧
      ((preAt job2At (.normal 0)).runningJob 0 0).any (fun x => x.2.2.pre == .normal 0 && x.2.2.pass + 1 != x.2.2.passes &&
      x.2.2.arrays.all (fun y => ((preAt job2At (.normal 0)).arr 0 y).held)) = true := by decide +kernel

/-- The hypotheses of PreemptionStopsSavesAndResumes are met. -/
theorem witness_Preemption_3 :
    ((preAt ((jobAt 1).withTime 1401) (.normal 0)).runningJob 0 0).any (fun x => !(preAt ((jobAt 1).withTime 1401) (.normal 0)).lastFed 0 x.2.2) = true ∧
      0 + 1400 < (preAt ((jobAt 1).withTime 1401) (.normal 0)).time ∧
      (preAt ((jobAt 1).withTime 1400) (.normal 0)).time ≤ 0 + 1400 := by decide +kernel

/-- The hypotheses of PreemptionStopsSavesAndResumes are met. -/
theorem witness_Preemption_4 :
    ((preAt (jobAt 1) .urgent).runningJob 0 0).any (fun x => x.2.2.pre == .urgent && !x.2.2.retried) = true := by decide +kernel

/-- A tile that pre-empts with nothing left to pre-empt. -/
def resumable : State := (mmAt 1 0).onTile 0 (fun t => { t with preempting := true })

/-- The hypotheses of PreemptionStopsSavesAndResumes are met. -/
theorem witness_Preemption_5 :
    resumable.tileInst 0 ≠ none ∧ (resumable.tile 0).preempting = true ∧ (resumable.part 0).preAsk = none ∧
      (resumable.tile 0).power = .run ∧ (resumable.levelJobs 0 0).any (fun x => x.2.holds) = false ∧
      (resumable.parkedShape 0 0 = resumable.fget TILE_ARRAY_STATUS.SHAPE 0 0 ∨ resumable.arraysIdle 0 = true) := by decide +kernel

/-- `base` with deck 0 assigned to partition 0, enabled and active, its rings in the host window, every request admitted. -/
def decked : State :=
  let s : State := (((((base.fset DECK_QCFG.ASSIGNED 0 0 1).fset DECK_QCFG.LIMIT 0 0 4).fset DECK_CFG.EN 0 0 1).fset
    DECK_BASE.BASE 0 0 0x40000000).fset DECK_CQ_BASE.BASE 0 0 0x40000001).fset DECK_TS_BASE.BASE 0 0 0x40000002
  { s with decks := [(0, { state := 2 })]
           prot := [(0, { valid := true, part := 0, rights := 15, src := 31, base := 0, size := 2 ^ 64 })] }

/-- Execution slot 0 holds a command of deck 0 with an entry, at a stage. -/
def holding (v : Nat) (st : ExStage) : State := decked.onExec 0 0 (fun _ => { busy := true, entry := v, stage := st })

/-- The hypotheses of InstanceStartTakesTheChosenCommand are met. -/
theorem witness_InstanceStart_1 :
    ((holding 1 .ready).choice 0).any (fun x => x.1 == 0) = true ∧
      ((holding 1 .ready).inst 0 ((holding 1 .ready).part 0).level).valid = false ∧ (holding 1 .ready).halted = false ∧
      (holding 1 .started).choice 0 = none ∧ slotOk 0 1023 = true := by decide +kernel

/-- A command of partition 0 whose instance has ended on its tile. -/
def endedAt (w : Option Regrow) : State :=
  ((holding 1 (.running 0)).onExec 0 0 (fun e => { e with regrow := w })).onPart 0
    (fun _ => { insts := [(0, { valid := true, tiles := 1, ended := 1 })] })

/-- The hypotheses of InstancesEndAbortAndRerun are met. -/
theorem witness_InstancesEnd_1 :
    ((endedAt none).endedInst 0).isSome = true ∧ ((endedAt none).execOf 0 0).regrow = none ∧
      ((endedAt (some {})).endedInst 0).isSome = true ∧ ((endedAt (some {})).execOf 0 0).regrow = some {} ∧
      ((endedAt (some { cut := some (2, 5) })).endedInst 0).isSome = true ∧
      ((endedAt (some { cut := some (2, 5) })).execOf 0 0).regrow = some { cut := some (2, 5) } := by decide +kernel

/-- A command whose instance has met a fault. -/
def faultedAt (cause : Nat) : State :=
  (holding 1 (.running 0)).onPart 0 (fun _ => { insts := [(0, { valid := true, tiles := 1, faulted := 1, fault := some (cause, 0, 0, 0) })] })

/-- The hypotheses of InstancesEndAbortAndRerun are met. -/
theorem witness_InstancesEnd_2 :
    ((faultedAt 6).inst 0 0).fault.isSome = true ∧ ((faultedAt 6).inst 0 0).valid = true ∧
      ((faultedAt 6).inst 0 0).aborted = false ∧ ((faultedAt 6).execOf 0 0).regrow = none ∧ (6 : Nat) ≠ 7 ∧
      ((faultedAt 7).inst 0 0).fault.isSome = true ∧ (decked.inst 0 (decked.part 0).level).fault = none := by decide +kernel

/-- The hypotheses of InstancesEndAbortAndRerun are met. -/
theorem witness_InstancesEnd_3 :
    ((holding 1 (.rerun 3)).partExecs 0).find? (fun y => match y.2.stage with
        | .rerun l => !(holding 1 (.rerun 3)).stepsOut 0 l
        | _ => false) ≠ none := by decide +kernel

/-- Deck 0 assigned and not enabled. -/
def undecked : State := decked.fset DECK_CFG.EN 0 0 0

/-- The hypotheses of DeckEnableFollowsItsRules are met. -/
theorem witness_DeckEnable_1 :
    decked.deckOf .mgmt = none ∧ decked.deckOf (.vf 16 1) = none ∧ undecked.deckOf (.pf0 1) = some 0 ∧
      undecked.fget DECK_CFG.EN 0 0 ≠ 1 ∧ (0x80101884 : Nat) / 2 ^ 31 % 2 = 1 ∧
      ((undecked.setSizes 0 0x80101884).setIrq 0 0x80101884).deckRules 0 = true ∧
      ((undecked.setSizes 0 0x80101883).setIrq 0 0x80101883).deckRules 0 = false ∧ (0x101884 : Nat) / 2 ^ 31 % 2 = 0 := by decide +kernel

/-- The hypotheses of DeckEnableFollowsItsRules are met. -/
theorem witness_DeckEnable_2 :
    decked.deckOf (.pf0 0) = some 0 ∧ decked.fget DECK_CFG.EN 0 0 = 1 ∧ 0x87FF9884 % 32 = decked.fget DECK_CFG.SIZE_LOG2 0 0 ∧
      0x87FF9884 / 32 % 32 = decked.fget DECK_CFG.CQ_LOG2 0 0 ∧ 0x87FF9884 / 1024 % 32 = decked.fget DECK_CFG.TS_LOG2 0 0 ∧
      (0x87FF9884 : Nat) / 2 ^ 31 % 2 = 1 ∧ decked.vectorOk 0 (0x87FF9884 / 2 ^ 16 % 2048) = true := by decide +kernel

/-- The hypotheses of DoorbellsMoveTheIndices are met. -/
theorem witness_Doorbells :
    decked.dbDeck 1 0 4 0 = none ∧ decked.dbDeck 0 0 4 0 = some 0 ∧ (decked.deckRing 0).2 ≤ 16 % 65536 ∧
      15 % 65536 < (decked.deckRing 0).2 ∧ decked.dbDeck 17 0x40 8 0x40 = none ∧ decked.dbDeck 0 0x40 8 0x40 = some 0 ∧
      (decked.deck 0).cqCons < 1 - (1 + 16 * 65536 - 1) % 16 := by decide +kernel

/-- Deck 0 idle since time 0, its partition's limit 1 µs. -/
def idling (t : Nat) : State := (decked.fset DECK_PARK_US.IDLE_US 0x9000 0 1).withTime t

/-- The hypotheses of DecksParkActivateAndFetch are met. -/
theorem witness_DecksPark_1 :
    ((idling 1000).deck 0).state = 2 ∧ (idling 1000).deckOn 0 = true ∧ (idling 1000).deckIdle 0 = true ∧
      (idling 1000).fget DECK_PARK_US.IDLE_US (0x9000 + (idling 1000).deckPart 0) 0 ≠ 0 ∧
      ((idling 1000).deck 0).idleSince + (idling 1000).fget DECK_PARK_US.IDLE_US (0x9000 + (idling 1000).deckPart 0) 0 * 1000 ≤
        (idling 1000).time ∧
      ¬ (((idling 999).deck 0).idleSince + (idling 999).fget DECK_PARK_US.IDLE_US (0x9000 + (idling 999).deckPart 0) 0 * 1000 ≤
        (idling 999).time) ∧ ¬ 4096 ≤ (idling 999).activeCount := by decide +kernel

/-- Deck 0 parked, its doorbell rung. -/
def rung (bad : Nat) : State :=
  let s := decked.onDeck 0 (fun c => { c with state := 1, remembered := true })
  s.setDelta (s.ctxAt 0) bad

/-- The hypotheses of DecksParkActivateAndFetch are met. -/
theorem witness_DecksPark_2 :
    ((rung 0).deck 0).state = 1 ∧ ((rung 0).deck 0).remembered = true ∧ (rung 0).deckOn 0 = true ∧ (rung 0).activeCount < 4096 ∧
      ((rung 0).look ((rung 0).ctxAt 0) 256).2 = false ∧ ((rung rsPoison).look ((rung rsPoison).ctxAt 0) 256).2 = true := by decide +kernel

/-- Deck 0 with its last entry pending. -/
def pendingAt : State := decked.onDeck 0 (fun c => { c with fetch := 15, doorbell := 0 })

/-- The hypotheses of DecksParkActivateAndFetch are met. -/
theorem witness_DecksPark_3 :
    pendingAt.deckLive 0 = true ∧ (pendingAt.deck 0).fetch ≠ (pendingAt.deck 0).doorbell ∧
      pendingAt.engGet (pendingAt.deckPart 0) ((pendingAt.deckRing 0).1 + (pendingAt.deck 0).fetch * 64) 64 =
        .bytes (List.replicate 64 0) false := by decide +kernel

/-- Deck 0 with one fetched entry. -/
def fetchedAt (v : Nat) : State := decked.onDeck 0 (fun c => { c with fetched := [(v, 5)] })

/-- The hypotheses of CommandsTakeExecutionSlots are met. -/
theorem witness_CommandStart :
    (fetchedAt 7).deckLive 0 = true ∧ (fetchedAt 7).tree.cut = false ∧ (fetchedAt 7).freeSlot 0 = some 0 ∧
      (fetchedAt 7).canStart 0 7 = true ∧ (fetchedAt 7).badByte 0 7 = none ∧ (fetchedAt 0).badByte 0 0 = some 0 ∧
      (fetchedAt 0).canStart 0 0 = true := by decide +kernel

/-- `n` entries of one value from key `k` on. -/
def filled {α : Type} (v : α) : Nat → Nat → Tbl α
  | 0, _ => []
  | n + 1, k => (k, v) :: filled v n (k + 1)

/-- What such a table holds. -/
theorem get_filled {α : Type} (d v : α) (n : Nat) : ∀ k x, k ≤ x → x < k + n → Tbl.get d (filled v n k) x = v := by
  induction n with
  | zero => intro k x a b; omega
  | succ n ih =>
    intro k x a b
    rw [filled, Tbl.get]
    by_cases h : k = x
    · rw [if_pos h]
    · rw [if_neg h]
      exact ih (k + 1) x (by omega) (by omega)

/-- Every execution slot of hub 0 is taken. -/
def fullHub : State := { (fetchedAt 7) with execs := filled { busy := true, deck := 1 } 1024 0 }

theorem witness_CommandStart_full : fullHub.freeSlot 0 = none ∧ fullHub.deckLive 0 = true := by
  refine ⟨?_, by decide +kernel⟩
  have hh : fullHub.homeHub 0 = 0 := by decide +kernel
  unfold State.freeSlot
  rw [List.find?_eq_none]
  intro x hx
  have hx := List.mem_range.1 hx
  have e : fullHub.execOf 0 x = { busy := true, deck := 1 } := by
    unfold State.execOf State.execKey
    rw [hh]
    exact get_filled _ _ _ _ _ (by omega) (by omega)
  rw [e]
  simp

/-- A TIMER that waits, with a limit of 1 µs. -/
def limited (t : Nat) : State := (holding (pack [(0, 10), (8, 1), (24, 5000)]) .waiting).withTime t

/-- The hypotheses of CommandsTakeExecutionSlots are met. -/
theorem witness_CommandTimeout :
    ((limited 1000).execOf ((limited 1000).deckPart 0) 1023).busy = false ∧
      ((limited 1000).execOf ((limited 1000).deckPart 0) 0).busy = true ∧
      ((limited 1000).execOf ((limited 1000).deckPart 0) 0).deck = 0 ∧
      limitOf ((limited 1000).execOf ((limited 1000).deckPart 0) 0).entry ((limited 1000).execOf ((limited 1000).deckPart 0) 0).fetched =
        some 1000 ∧ 1000 ≤ (limited 1000).time ∧ ((limited 1000).execOf ((limited 1000).deckPart 0) 0).ends = false ∧
      ((limited 1000).execOf ((limited 1000).deckPart 0) 0).regrow = none := by decide +kernel

/-- The same command while a chunk of its regrowth runs. -/
def regrowing : State := (limited 1000).onExec 0 0 (fun e => { e with stage := .running 0, regrow := some {} })

/-- The hypotheses of CommandsTakeExecutionSlots are met. -/
theorem witness_CommandTimeoutInRegrowth :
    (regrowing.execOf (regrowing.deckPart 0) 0).busy = true ∧ (regrowing.execOf (regrowing.deckPart 0) 0).deck = 0 ∧
      limitOf (regrowing.execOf (regrowing.deckPart 0) 0).entry (regrowing.execOf (regrowing.deckPart 0) 0).fetched = some 1000 ∧
      1000 ≤ regrowing.time ∧ (regrowing.execOf (regrowing.deckPart 0) 0).ends = false ∧
      (regrowing.execOf (regrowing.deckPart 0) 0).stage = .running 0 ∧ (regrowing.execOf (regrowing.deckPart 0) 0).regrow = some {} := by decide +kernel

/-- The hypotheses of CommandsTakeExecutionSlots are met. -/
theorem witness_DeckStop :
    decked.deckOf (.pf0 0) = some 0 ∧ decked.fget DECK_CFG.EN 0 0 ≠ 0 ∧ decked.deckExecs 0 = [] ∧
      decked.partExecs (decked.deckPart 0) = [] ∧ (decked.deck 0).stopping = none := by decide +kernel

/-- A free slot in quarantine until 2 µs. -/
def quarantined (t : Nat) : State := (decked.onExec 0 1023 (fun e => { e with quarantine := some 2000 })).withTime t

/-- The hypotheses of CommandsTakeExecutionSlots are met. -/
theorem witness_LateAndQuarantine :
    ((quarantined 2000).execOf 0 1023).busy = false ∧ ((quarantined 2000).execOf 0 1023).quarantine = some 2000 ∧
      2000 ≤ (quarantined 2000).time ∧ (quarantined 1999).time < 2000 := by decide +kernel

/-- The hypotheses of OrderingCommandsWaitAndComplete are met. -/
theorem witness_Ordering_1 :
    (holding 7 .started).Startable 7 0 0 ((holding 7 .started).execOf 0 0) ∧
      ((holding 7 .started).deckExecs 0).any (fun o => decide (o.order < 0)) = false ∧
      (((holding 7 .started).onExec 0 0 (fun e => { e with order := 1 })).onExec 0 1 (fun _ => { busy := true })).Startable 7 0 0
        { busy := true, entry := 7, order := 1 } ∧
      ((((holding 7 .started).onExec 0 0 (fun e => { e with order := 1 })).onExec 0 1 (fun _ => { busy := true })).deckExecs 0).any
        (fun o => decide (o.order < 1)) = true := by decide +kernel

/-- EVENT_SIGNAL, EVENT_WAIT or TIMER with a number and a value. -/
def evtCmd (op n v : Nat) (st : ExStage) : State := holding (pack [(0, op), (18, n), (24, v)]) st

/-- The hypotheses of OrderingCommandsWaitAndComplete are met. -/
theorem witness_Ordering_2 :
    (evtCmd 9 1023 (2 ^ 64 - 1) .started).Startable 9 0 0 ((evtCmd 9 1023 (2 ^ 64 - 1) .started).execOf 0 0) ∧
      ((evtCmd 9 1023 (2 ^ 64 - 1) .started).deckExecs 0).any (fun o => decide (o.order < 0)) = false ∧
      (evtCmd 8 1023 1 .started).Startable 8 0 0 ((evtCmd 8 1023 1 .started).execOf 0 0) ∧
      (evtCmd 8 1023 1 .started).evtOf 0 1023 < ((evtCmd 8 1023 1 .started).execOf 0 0).f 24 8 ∧
      (evtCmd 8 1023 0 .started).Startable 8 0 0 ((evtCmd 8 1023 0 .started).execOf 0 0) ∧
      ((evtCmd 8 1023 0 .started).execOf 0 0).f 24 8 ≤ (evtCmd 8 1023 0 .started).evtOf 0 1023 := by decide +kernel

/-- The hypotheses of OrderingCommandsWaitAndComplete are met. -/
theorem witness_Ordering_3 :
    (evtCmd 10 0 0 .started).Startable 10 0 0 ((evtCmd 10 0 0 .started).execOf 0 0) ∧
      timerEnd ((evtCmd 10 0 0 .started).execOf 0 0) ≤ (evtCmd 10 0 0 .started).time ∧
      (evtCmd 10 0 1 .started).Startable 10 0 0 ((evtCmd 10 0 1 .started).execOf 0 0) ∧
      (evtCmd 10 0 1 .started).time < timerEnd ((evtCmd 10 0 1 .started).execOf 0 0) := by decide +kernel

/-- The hypotheses of OrderingCommandsWaitAndComplete are met. -/
theorem witness_Ordering_4 :
    ((evtCmd 8 1023 0 .waiting).execOf 0 0).stage = .waiting ∧ ((evtCmd 8 1023 0 .waiting).execOf 0 0).busy = true ∧
      (evtCmd 8 1023 0 .waiting).fget DECK_QCFG.PART 0 0 = 0 ∧ ((evtCmd 8 1023 0 .waiting).execOf 0 0).opcode = 8 ∧
      ((evtCmd 8 1023 0 .waiting).execOf 0 0).f 24 8 ≤ (evtCmd 8 1023 0 .waiting).evtOf 0 1023 ∧
      (evtCmd 8 1023 1 .waiting).evtOf 0 1023 < ((evtCmd 8 1023 1 .waiting).execOf 0 0).f 24 8 ∧
      timerEnd ((evtCmd 10 0 0 .waiting).execOf 0 0) ≤ (evtCmd 10 0 0 .waiting).time ∧
      (evtCmd 10 0 1 .waiting).time < timerEnd ((evtCmd 10 0 1 .waiting).execOf 0 0) := by decide +kernel

/-- A started command of partition 0, which has sessions 0 to 3 of 64 tokens; session 0 is open if `o` is 1, with flags `fl`
and last token `tok`. -/
def sessCmd (entry o fl tok : Nat) : State :=
  let s : State := holding entry .started
  let s : State := { s with img := { s.img with sessions := [(0, pack [(8, 4), (12, 64), (16, 0x10000000000), (24, 0x10000100000)])]
                                                commits := [(0, 0), (1, 1)] } }
  s.poke 0x10000000000 (natLE 2 0 ++ natLE 1 o ++ natLE 1 fl ++ natLE 4 0 ++ natLE 4 0 ++ natLE 4 tok)

/-- The hypotheses of SessionCommandsCheckTheirHandles are met. -/
theorem witness_SessionCheck :
    (sessCmd (pack [(0, 3), (4, 4)]) 1 0 0).Startable 3 0 0 ((sessCmd (pack [(0, 3), (4, 4)]) 1 0 0).execOf 0 0) ∧
      ((sessCmd (pack [(0, 3), (4, 4)]) 1 0 0).checkHandles 0 0 ((sessCmd (pack [(0, 3), (4, 4)]) 1 0 0).execOf 0 0).handles).2.isSome = true := by decide +kernel

/-- The handles of the command in slot 0 pass. -/
def passes (s : State) (op : Nat) : Bool :=
  decide (s.Startable op 0 0 (s.execOf 0 0)) && (s.checkHandles 0 0 (s.execOf 0 0).handles).2 == none

/-- The hypotheses of SessionCommandsActOnTheirSessions are met. -/
theorem witness_SessionAct_1 :
    passes (sessCmd (pack [(0, 1), (16, 1), (17, 1)]) 1 0 0xFFFFFFFF) 1 = true ∧
      (sessCmd (pack [(0, 1), (16, 1), (17, 1)]) 1 0 0xFFFFFFFF).commitF 0 1 0 1 = 1 ∧
      ((sessCmd (pack [(0, 1), (16, 1), (17, 1)]) 1 0 0xFFFFFFFF).execOf 0 0).slots.any
        (fun y => (sessCmd (pack [(0, 1), (16, 1), (17, 1)]) 1 0 0xFFFFFFFF).srec 0 y 12 4 == 0xFFFFFFFF) = true ∧
      passes (sessCmd (pack [(0, 1), (17, 1)]) 1 0 5) 1 = true ∧ (sessCmd (pack [(0, 1), (17, 1)]) 1 0 5).commitF 0 0 0 1 ≠ 1 ∧
      ((sessCmd (pack [(0, 1), (17, 1)]) 1 0 5).execOf 0 0).slots.findIdx?
        (fun y => (sessCmd (pack [(0, 1), (17, 1)]) 1 0 5).recFlag 0 y 1) = none := by decide +kernel

/-- The hypotheses of SessionCommandsActOnTheirSessions are met. -/
theorem witness_SessionAct_2 :
    passes (sessCmd (pack [(0, 2), (16, 1), (20, 3)]) 1 0 0) 2 = true ∧
      (((sessCmd (pack [(0, 2), (16, 1), (20, 3)]) 1 0 0).execOf 0 0).f 16 1).testBit 0 = true ∧
      (sessCmd (pack [(0, 2), (16, 1), (20, 3)]) 1 0 0).slotIn 0 3 = true ∧
      (sessCmd (pack [(0, 2), (16, 1), (20, 3)]) 1 0 0).recBad 0 3 = false ∧
      (sessCmd (pack [(0, 2), (16, 1), (20, 3)]) 1 0 0).srec 0 3 2 1 ≠ 1 := by decide +kernel

/-- The hypotheses of SessionCommandsActOnTheirSessions are met. -/
theorem witness_SessionAct_3 :
    passes (sessCmd (pack [(0, 3), (16, 1)]) 1 0 0) 3 = true ∧ passes (sessCmd (pack [(0, 3), (16, 0)]) 1 0 0) 3 = true ∧
      (((sessCmd (pack [(0, 3), (16, 1)]) 1 0 0).execOf 0 0).f 16 1).testBit 0 = true ∧
      (((sessCmd (pack [(0, 3), (16, 0)]) 1 0 0).execOf 0 0).f 16 1).testBit 0 = false := by decide +kernel

/-- The hypotheses of SessionCommandsActOnTheirSessions are met. -/
theorem witness_SessionAct_4 :
    passes (sessCmd (pack [(0, 4), (32, 0x40000000000)]) 1 0 0) 4 = true ∧
      (sessCmd (pack [(0, 4), (32, 0x40000000000)]) 1 0 0).recFlag 0 0 1 = false ∧
      ((sessCmd (pack [(0, 4), (32, 0x40000000000)]) 1 0 0).execOf 0 0).f 40 8 = 0 ∧
      inHost 0x40000000000 ((sessCmd (pack [(0, 4), (32, 0x40000000000)]) 1 0 0).imageSize 0 0) = true ∧
      (sessCmd (pack [(0, 4), (32, 0x40000000000)]) 1 0 0).engMay 0 0x40000000000
        ((sessCmd (pack [(0, 4), (32, 0x40000000000)]) 1 0 0).imageSize 0 0) .write = true := by decide +kernel

/-- The hypotheses of SessionCommandsActOnTheirSessions are met. -/
theorem witness_SessionAct_5 :
    passes (sessCmd (pack [(0, 5)]) 1 0 0) 5 = true ∧ (sessCmd (pack [(0, 5)]) 1 0 0).recFlag 0 0 1 = false ∧
      passes (sessCmd (pack [(0, 5), (32, 0x40000000000)]) 1 2 0) 5 = true ∧
      (sessCmd (pack [(0, 5), (32, 0x40000000000)]) 1 2 0).recFlag 0 0 1 = true ∧
      ((sessCmd (pack [(0, 5), (32, 0x40000000000)]) 1 2 0).execOf 0 0).f 16 1 = 0 := by decide +kernel

/-- A started WEIGHT_LOAD to the end of tile `j`'s slice. -/
def loadCmd (j n : Nat) : State := holding (pack [(0, 6), (16, j), (24, 0x40000000000), (32, t0Size - n), (40, n)]) .started

/-- The hypotheses of WeightLoadWritesItsTile are met. -/
theorem witness_WeightLoad :
    (loadCmd 63 64).Startable 6 0 0 ((loadCmd 63 64).execOf 0 0) ∧ (loadCmd 63 64).tilePart 63 ≠ some 0 ∧
      (loadCmd 3 64).Startable 6 0 0 ((loadCmd 3 64).execOf 0 0) ∧ (loadCmd 3 64).tilePart 3 = some 0 ∧
      (loadCmd 3 64).tileUsable 3 = true ∧ ((loadCmd 3 64).execOf 0 0).f 32 8 % 64 = 0 ∧
      ((loadCmd 3 64).execOf 0 0).f 32 8 + ((loadCmd 3 64).execOf 0 0).f 40 8 ≤ t0Size ∧
      (loadCmd 3 64).engGet 0 0x40000000000 64 = .bytes (List.replicate 64 0) false ∧
      (loadCmd 3 0).Startable 6 0 0 ((loadCmd 3 0).execOf 0 0) ∧ ((loadCmd 3 0).execOf 0 0).f 40 8 = 0 := by decide +kernel

/-- The hypotheses of SessionCommandsActOnTheirSessions are met. -/
theorem witness_ReservationRetry :
    decked.firstSuspended 0 = none ∧ ((holding 2 (.suspended 0)).firstSuspended 0).any (fun x => x.2.opcode == 2) = true ∧
      (holding 2 (.suspended 0)).halted = false := by decide +kernel

/-- A started FABRIC_SEND of message code `msg` to device `dev`, from host memory; `adm`: the partition may send to device 5. -/
def sendCmd (msg dev : Nat) (adm : Bool) (st : ExStage) : State :=
  let s : State := holding (pack [(0, 12), (16, msg), (20, dev), (24, 0x40000000000), (40, 64)]) st
  if adm then { s with prot := s.prot ++ [(1, { valid := true, kind := 1, rights := 3, base := 5, size := 1 })] } else s

/-- The hypotheses of FabricSendOpensOrWaits are met. -/
theorem witness_FabricSend_1 :
    (sendCmd 1 4 true .started).Startable 12 0 0 ((sendCmd 1 4 true .started).execOf 0 0) ∧
      ((sendCmd 1 4 true .started).execOf 0 0).f 16 1 < 0x20 ∧ (sendCmd 1 4 true .started).admitsFabric 0 .send 4 = false ∧
      (sendCmd 1 6 true .started).admitsFabric 0 .send 6 = false ∧ (sendCmd 1 5 true .started).admitsFabric 0 .send 5 = true ∧
      ((sendCmd 1 5 true .started).onTree (fun t => { t with cut := true })).tree.cut = true ∧
      (sendCmd 1 5 true .started).freeCtx 0 = some 0 ∧ (sendCmd 1 5 true .started).tree.cut = false := by decide +kernel

/-- The hypotheses of FabricSendOpensOrWaits are met. -/
theorem witness_FabricSend_2 :
    ({ (sendCmd 1 5 true .started) with prot := [(1, { valid := true, kind := 1, rights := 3, base := 5, size := 1 })] } : State).engGet 0
        0x40000000000 64 ≠ .wait ∧
      (sendCmd 1 5 true .waiting).waitsCtx 0 0 ((sendCmd 1 5 true .waiting).execOf 0 0) = true ∧
      (sendCmd 1 5 true .waiting).halted = false ∧ ((sendCmd 1 5 true .waiting).execOf 0 0).opcode = 12 := by decide +kernel

/-- Every send context of hub 0 is taken. -/
def fullCtx : State := { (sendCmd 1 5 true .waiting) with sendCtx := filled { valid := true, slot := 9 } 1024 0 }

theorem witness_FabricSend_3 : fullCtx.freeCtx (fullCtx.homeHub 0) = none ∧
    fullCtx.waitsCtx 0 0 (fullCtx.execOf 0 0) = true := by
  have hh : fullCtx.homeHub 0 = 0 := by decide +kernel
  refine ⟨?_, by decide +kernel⟩
  rw [hh]
  unfold State.freeCtx
  rw [List.find?_eq_none]
  intro k hk
  obtain ⟨i, hi, rfl⟩ := List.mem_map.1 hk
  have hi := List.mem_range.1 hi
  have e : fullCtx.sctx (sctxKey 0 i) = { valid := true, slot := 9 } := by
    unfold State.sctx sctxKey
    exact get_filled _ _ _ _ _ (by omega) (by omega)
  rw [e]
  simp

/-- A started BARRIER, SNAPSHOT or BROADCAST; PARTS lists partition 0 if `on`, LOCAL_COUNT is 2, the tree parent is device 7. -/
def treeCmd (code : Nat) (on : Bool) : State :=
  let s := (((sendCmd code 0 false .started).fset FAB_BAR_CTL.LOCAL_COUNT 0 0 2).fset FAB_TREE_PARENT.VALID 0 0 1).fset
    FAB_TREE_PARENT.ADDR 0 0 7
  if on then s.fset FAB_BAR_CTL.PARTS 0 0 1 else s

/-- The hypotheses of GlobalOperationsArrive are met. -/
theorem witness_GlobalOps_1 :
    (treeCmd 0x20 false).Startable 12 0 0 ((treeCmd 0x20 false).execOf 0 0) ∧ ((treeCmd 0x20 false).execOf 0 0).f 16 1 = 0x20 ∧
      (treeCmd 0x20 false).fbit FAB_BAR_CTL.PARTS 0 0 0 = false ∧ (treeCmd 0x22 true).fbit FAB_BAR_CTL.PARTS 0 0 0 = true ∧
      ((treeCmd 0x22 true).execOf 0 0).f 16 1 = 0x22 ∧ (treeCmd 0x22 true).tree.sentUp = false ∧
      (treeCmd 0x22 true).tree.local_ + 1 < (treeCmd 0x22 true).fget FAB_BAR_CTL.LOCAL_COUNT 0 0 ∧
      ((treeCmd 0x20 true).onTree (fun t => { t with local_ := 2 })).fget FAB_BAR_CTL.LOCAL_COUNT 0 0 ≤ 2 := by decide +kernel

/-- The hypotheses of GlobalOperationsArrive are met. -/
theorem witness_GlobalOps_2 :
    ((treeCmd 0x21 true).execOf 0 0).f 16 1 = 0x21 ∧ (treeCmd 0x21 true).parent = some 7 ∧
      (treeCmd 0x21 true).engGet 0 0x40000000000 64 = .bytes (List.replicate 64 0) false ∧
      ({ (treeCmd 0x21 true) with prot := [] } : State).engGet 0 0x40000000000 64 ≠ .wait := by decide +kernel

/-- A message to this part (device 3) from device 5. -/
def msgTo (ty seq status : Nat) : Msg :=
  { port := 0, vc := 0, dl := 0, dest := 3, src := 5, hops := 0, ord := true, ll := false, ty := ty, opening := true, last := true
    resend := false, poison := false, stream := 1, epoch := 0, seq := seq, addr := 0x40000000000, len := 64, opx := 0
    status := status, sent := 0, body := List.replicate 64 1 }

/-- Send context 1023 of hub 0 has messages 4 and 5 of a stream to device 5 unacknowledged; some messages wait here. -/
def ctxAt (c : SendCtx) (ms : List Msg) : State :=
  { ((sendCmd 1 5 true .waiting).fset FAB_ADDR.ADDR 0 0 3) with inbox := ms, sendCtx := [(1023, c)] }

/-- That context. -/
def twoUnacked : SendCtx := { valid := true, dest := 5, stream := 1, ordered := true, unacked := [msgTo 1 4 0, msgTo 1 5 0] }

/-- The hypotheses of SendContextsFollowTheirAnswers are met. -/
theorem witness_SendContexts_1 :
    (msgTo 8 4 0).wf = true ∧ (ctxAt twoUnacked [msgTo 8 4 0]).inbox.contains (msgTo 8 4 0) = true ∧
      (msgTo 8 4 0).dest = (ctxAt twoUnacked [msgTo 8 4 0]).fabAddr ∧
      ((ctxAt twoUnacked [msgTo 8 4 0]).takeMsg (msgTo 8 4 0)).ctxOf (msgTo 8 4 0) = some 1023 ∧
      (twoUnacked.unacked.filter (fun q => decide (q.seq > 4))).length = 1 ∧ (msgTo 8 4 1).status = 1 ∧
      ((ctxAt twoUnacked [msgTo 8 4 5]).takeMsg (msgTo 8 4 5)).ctxOf (msgTo 8 4 5) = some 1023 := by decide +kernel

/-- The time at which the retransmission timeout of a context that made progress at time 0 passes. -/
def rto : Nat := max 1 ((ctxAt twoUnacked []).fget FAB_TP_CTL.RTO_US 0 0) * 1000

/-- The hypotheses of SendContextsFollowTheirAnswers are met. -/
theorem witness_SendContexts_2 :
    ((ctxAt twoUnacked []).withTime rto).sctx (sctxKey 0 1023) = twoUnacked ∧ twoUnacked.notReady = none ∧
      twoUnacked.progressAt + max 1 (((ctxAt twoUnacked []).withTime rto).fget FAB_TP_CTL.RTO_US 0 0) * 1000 ≤
        ((ctxAt twoUnacked []).withTime rto).time ∧
      twoUnacked.tries < ((ctxAt twoUnacked []).withTime rto).fget FAB_TP_CTL.RETRIES 0 0 ∧
      (((ctxAt { twoUnacked with tries := 15 } []).withTime rto).fset FAB_TP_CTL.RETRIES 0 0 7).fget FAB_TP_CTL.RETRIES 0 0 ≤ 15 := by decide +kernel

/-- A context whose NOT_READY stands since time 0. -/
def notReadyAt (t : Nat) : State := (ctxAt { twoUnacked with notReady := some (4, 0) } []).withTime t

/-- NOTREADY_MS in ns. -/
def nrLimit : Nat := (ctxAt twoUnacked []).fget FAB_TP_CTL.NOTREADY_MS 0 0 * 1000000

/-- The hypotheses of SendContextsFollowTheirAnswers are met. -/
theorem witness_SendContexts_3 :
    ((notReadyAt 0).sctx (sctxKey 0 1023)).notReady = some (4, 0) ∧
      ((notReadyAt 0).sctx (sctxKey 0 1023)).notReadyAt + 100000 ≤ (notReadyAt 100000).time ∧
      (notReadyAt 99999).time < ((notReadyAt 0).sctx (sctxKey 0 1023)).notReadyAt + 100000 ∧
      0 + (notReadyAt nrLimit).fget FAB_TP_CTL.NOTREADY_MS 0 0 * 1000000 ≤ (notReadyAt nrLimit).time ∧
      (notReadyAt (nrLimit - 1)).time < 0 + (notReadyAt nrLimit).fget FAB_TP_CTL.NOTREADY_MS 0 0 * 1000000 := by decide +kernel

/-- Hub 0's last-level slice 0 is landing memory of partition 0, which accepts messages of device 5; some messages wait here. -/
def landed (ms : List Msg) : State :=
  let s := (ctxAt {} ms).fset HUB_LLM_MAP.LANDING0 0 0 1
  let s := s.fset HUB_LLM_MAP.EN0 0 0 1
  { s with sendCtx := [] }

/-- A data message to that slice. -/
def dataTo (ty : Nat) : Msg := { msgTo ty 4 0 with addr := 0x30000000000 }

/-- The hypotheses of ArrivingDataIsAppliedOnce are met. -/
theorem witness_Arriving_1 :
    (dataTo 1).wf = true ∧ (landed [dataTo 1]).hasMsg (dataTo 1) 1 = true ∧
      ((landed [dataTo 1]).takeMsg (dataTo 1)).stale (dataTo 1) = false ∧
      ((landed [dataTo 1]).takeMsg (dataTo 1)).rctxOf (dataTo 1) = none ∧ (dataTo 1).opening = true ∧
      ((landed [dataTo 1]).takeMsg (dataTo 1)).freeRctx (dataTo 1).port = some 0 ∧
      bodyFits (dataTo 1) ((dataTo 1).opx == 0) true = true ∧
      (((landed [dataTo 1]).takeMsg (dataTo 1)).applyWrite (dataTo 1)).any (fun x => x.2 == 0) = true := by decide +kernel

/-- The stream of that message has applied it already. -/
def dupAt (ty : Nat) : State :=
  (landed [dataTo ty]).withRecvCtx [(0, { valid := true, src := 5, stream := 1, ordered := true, next := 5 })]

/-- The hypotheses of ArrivingDataIsAppliedOnce are met. -/
theorem witness_Arriving_2 :
    (dupAt 5).hasMsg (dataTo 5) 5 = true ∧ ((dupAt 5).takeMsg (dataTo 5)).stale (dataTo 5) = false ∧
      ((dupAt 5).takeMsg (dataTo 5)).rctxOf (dataTo 5) = some 0 ∧ (((dupAt 5).takeMsg (dataTo 5)).rctx 0).valid = true ∧
      (dataTo 5).seq < (((dupAt 5).takeMsg (dataTo 5)).rctx 0).next := by decide +kernel

/-- Receive context 4,095 of hub 3, last used at time 0. -/
def rctxAt (t : Nat) (d : Option Nat) : State := (base.withRecvCtx [(16383, { valid := true, doneAt := d })]).withTime t

/-- The hypotheses of ReceiveContextsCloseAndReadDataArrives are met. -/
theorem witness_RecvClose :
    ((rctxAt 10000000 none).rctx (3 * 4096 + 4095)).valid = true ∧ 0 + 10000000 ≤ (rctxAt 10000000 none).time ∧
      (rctxAt 9999999 none).time < ((rctxAt 9999999 none).rctx (3 * 4096 + 4095)).lastAt + 10000000 ∧
      ((rctxAt 9999999 none).rctx (3 * 4096 + 4095)).doneAt = none := by decide +kernel

/-- A KV_UNPARK whose oldest request is message 4; a READ_DATA waits here. -/
def readBack (p : Bool) : State :=
  (ctxAt twoUnacked [{ msgTo 3 4 0 with opx := 2, poison := p }]).onExec 0 0 (fun e => { e with entry := 5 })

/-- The hypotheses of ReceiveContextsCloseAndReadDataArrives are met. -/
theorem witness_ReadData :
    (readBack true).hasMsg { msgTo 3 4 0 with opx := 2, poison := true } 3 = true ∧
      ((readBack true).takeMsg { msgTo 3 4 0 with opx := 2, poison := true }).ctxOf { msgTo 3 4 0 with opx := 2, poison := true } = some 1023 ∧
      (twoUnacked.unacked.head?).map Msg.seq = some 4 ∧ ((readBack true).execOf 0 0).opcode = 5 ∧
      (readBack false).hasMsg { msgTo 3 4 0 with opx := 2 } 3 = true := by decide +kernel

/-- The node with child 15 at device 5 and the parent at device 7, or the parent at device 5, with one tree message waiting. -/
def treeAt (m : Msg) (up : Bool) : State :=
  let s := ((ctxAt {} [m]).fset FAB_TREE_PARENT.VALID 0 0 1).fset FAB_TREE_PARENT.ADDR 0 0 (if up then 5 else 7)
  if up then s else (s.fset FAB_TREE_CHILD.VALID 0 15 1).fset FAB_TREE_CHILD.ADDR 0 15 5

/-- A broadcast to slice 0's landing memory. -/
def castTo (ty : Nat) : Msg := { msgTo ty 0 0 with addr := 0x30000000000 }

/-- A device that holds it while its ingress is closed: it comes from the parent, or from child 15 at the root. -/
def closed (ty : Nat) (up : Bool) : State :=
  let s := (landed [castTo ty]).withHalted true
  if up then (s.fset FAB_TREE_PARENT.VALID 0 0 1).fset FAB_TREE_PARENT.ADDR 0 0 5
  else (s.fset FAB_TREE_CHILD.VALID 0 15 1).fset FAB_TREE_CHILD.ADDR 0 15 5

/-- The hypotheses of TreeMessagesMoveTheBarrier are met. -/
theorem witness_TreeMessages_1 :
    ((treeAt (msgTo 0x10 0 0) false).takeMsg (msgTo 0x10 0 0)).kids.find? (fun q => q.2 == (msgTo 0x10 0 0).src) = some (15, 5) ∧
      (msgTo 0x10 0 0).seq = ((treeAt (msgTo 0x10 0 0) false).takeMsg (msgTo 0x10 0 0)).epoch ∧
      ((treeAt (msgTo 0x11 0 0) true).takeMsg (msgTo 0x11 0 0)).parent = some (msgTo 0x11 0 0).src ∧
      (treeAt (msgTo 0x11 0 0) true).inbox.contains (msgTo 0x11 0 0) = true ∧
      (msgTo 0x10 1 0).seq ≠ ((treeAt (msgTo 0x10 1 0) false).takeMsg (msgTo 0x10 1 0)).epoch ∧
      ((treeAt (msgTo 0x15 0 0) true).fset FAB_GOP_STATUS.SNAP_CUT 0 0 1).fget FAB_GOP_STATUS.SNAP_CUT 0 0 = 1 ∧
      ((treeAt (castTo 0x13) true).takeMsg (castTo 0x13)).castWaits (castTo 0x13) (originOf (castTo 0x13)) = false ∧
      (((treeAt (castTo 0x12) false).takeMsg (castTo 0x12)).parent.isNone &&
        ((treeAt (castTo 0x12) false).takeMsg (castTo 0x12)).castWaits (castTo 0x12) (originOf (castTo 0x12))) = false ∧
      ((closed 0x13 true).takeMsg (castTo 0x13)).castWaits (castTo 0x13) (originOf (castTo 0x13)) = true ∧
      ((closed 0x13 true).takeMsg (castTo 0x13)).parent = some (castTo 0x13).src ∧
      ((closed 0x12 false).takeMsg (castTo 0x12)).castWaits (castTo 0x12) (originOf (castTo 0x12)) = true ∧
      ((closed 0x12 false).takeMsg (castTo 0x12)).parent = none := by decide +kernel

/-- A device that has been cut, with a tree parent and child 15. -/
def cutAt (reports : List Nat) : State :=
  let s := ((((base.fset FAB_TREE_PARENT.VALID 0 0 1).fset FAB_TREE_CHILD.VALID 0 15 1).fset FAB_TREE_CHILD.ADDR 0 15 5).fset
    FAB_GOP_STATUS.SNAP_CUT 0 0 1).onTree (fun t => { t with cut := true, snapChildren := reports })
  s.fset FAB_GOP_STATUS.SNAP_HELD 0 0 1

/-- The hypotheses of SnapshotsAndGlobalTimeouts are met. -/
theorem witness_Snapshots_1 :
    (cutAt [15]).tree.cut = true ∧ (cutAt [15]).tree.drained = false ∧ (cutAt [15]).fget FAB_GOP_STATUS.SNAP_CUT 0 0 = 1 ∧
      (cutAt [15]).allDrained = true ∧ (cutAt [15]).tree.snapUpSent = false ∧ (cutAt [15]).parent = some 0 ∧
      (cutAt [15]).kids.all (fun q => (cutAt [15]).tree.snapChildren.contains q.1) = true ∧
      (cutAt []).kids.all (fun q => (cutAt []).tree.snapChildren.contains q.1) = false ∧
      (cutAt []).reaches .mgmt FAB_GOP_CTL.RESUME 0 0 = true ∧ (cutAt []).fget FAB_GOP_STATUS.SNAP_HELD 0 0 = 1 ∧
      base.fget FAB_GOP_STATUS.SNAP_HELD 0 0 ≠ 1 ∧ base.reaches .mgmt FAB_GOP_CTL.RESUME 0 0 = true := by decide +kernel

/-- A node ready since time 0 whose child 15 is missing. -/
def readyAt : State :=
  let s := (cutAt []).onTree (fun t => { t with cut := false, readyAt := some 0 })
  s.withTime (max 1 (s.fget FAB_GOP_CTL.TIMEOUT_MS 0 0) * 1000000)

/-- The hypotheses of SnapshotsAndGlobalTimeouts are met. -/
theorem witness_Snapshots_2 :
    base.fget FAB_TREE_CHILD.VALID 0 15 = 0 ∧ readyAt.fget FAB_TREE_CHILD.VALID 0 15 ≠ 0 ∧ readyAt.tree.readyAt = some 0 ∧
      0 + max 1 (readyAt.fget FAB_GOP_CTL.TIMEOUT_MS 0 0) * 1000000 ≤ readyAt.time ∧ readyAt.tree.sentUp = false ∧
      readyAt.tree.children.contains 15 = false ∧ readyAt.parent = some 0 := by decide +kernel

/-- A node with parent 7 and child 15 (device 5), nothing asked; one message waits. -/
def rsNode (m : Msg) : State := treeAt m false

/-- The same whose tree part is `t`. -/
def rsTree (t : Tree) (now : Nat) (ack : Bool) : State :=
  let m := msgTo 0x18 0 0
  ((treeAt m false).onTree (fun _ => { t with resetAcks := if ack then [15] else [] })).withTime now

/-- The hypotheses of FabricResetAndTime are met. -/
theorem witness_FabricReset_1 :
    (rsNode (msgTo 0x16 0 0)).reaches .mgmt FAB_GOP_CTL.RESET_START 0 0 = true ∧ (rsNode (msgTo 0x16 0 0)).privileged .mgmt = true ∧
      (rsNode (msgTo 0x16 0 0)).tree.resetReqAt = none ∧ (rsNode (msgTo 0x16 0 0)).parent = some 7 ∧
      ((rsNode (msgTo 0x16 0 0)).takeMsg (msgTo 0x16 0 0)).kids.find? (fun q => q.2 == (msgTo 0x16 0 0).src) = some (15, 5) ∧
      (msgTo 0x16 0 0).seq = ((rsNode (msgTo 0x16 0 0)).takeMsg (msgTo 0x16 0 0)).epoch ∧
      (rsTree { resetDownAt := some 0 } 0 true).tree.resetDownAt ≠ none ∧
      (rsTree { resetDownAt := some 0 } 0 true).kids.all (fun q =>
        (rsTree { resetDownAt := some 0 } 0 true).tree.resetAcks.contains q.1) = true ∧
      ((treeAt (msgTo 0x17 0 0) true).takeMsg (msgTo 0x17 0 0)).parent = some (msgTo 0x17 0 0).src := by decide +kernel

/-- The hypotheses of FabricResetAndTime are met. -/
theorem witness_FabricReset_2 :
    (rsTree { resetReqAt := some 0 } 10000000 false).tree.resetReqAt = some 0 ∧ 0 + 10000000 ≤ (rsTree {} 10000000 false).time ∧
      (rsTree {} 9999999 false).time < 0 + 10000000 ∧ (rsTree { ackSentAt := some 0 } 99999 false).time < 0 + 100000 ∧
      (rsTree { ackSentAt := some 0 } 100000 false).tree.ackSentAt = some 0 ∧
      (rsTree {} 9999999 false).parent = some 7 ∧
      (rsTree {} 1000000000 false).syncAt + max 1 ((rsTree {} 1000000000 false).fget FAB_TIME_CTL.PERIOD 0 0) * 100000 ≤ 1000000000 := by decide +kernel

/-- A TIME_RESP of the parent: request sent at 0, received at `a`, here at `now`. -/
def respAt (a : Nat) : Msg :=
  { msgTo 0x1A 0 0 with body := (List.replicate 8 0) ++ natLE 8 a ++ (List.replicate 8 0) ++ List.replicate 40 0 }

/-- It waits here before (`f`) or after the first lock. -/
def lockAt (a : Nat) (f : Bool) : State := ({ (treeAt (respAt a) true) with stepped := !f, deckEver := false } : State).withTime 10

/-- The hypotheses of FabricResetAndTime are met. -/
theorem witness_FabricTime :
    (respAt 40).wf = true ∧ (lockAt 40 true).inbox.contains (respAt 40) = true ∧ (respAt 40).dest = (lockAt 40 true).fabAddr ∧
      ((lockAt 40 true).takeMsg (respAt 40)).parent = some (respAt 40).src ∧ (lockAt 40 true).stepped = false ∧
      (lockAt 40 true).deckEver = false ∧ (lockAt 40 false).stepped = true ∧ (msgTo 0x19 0 0).wf = true ∧
      (treeAt (msgTo 0x19 0 0) true).inbox.contains (msgTo 0x19 0 0) = true := by decide +kernel

/-- The operator at which thread 0 of tile 0 stands ready, if it is of opcode `op`. -/
def opAt (s : State) (op : Nat) (p : Ctx → Bool) : Bool := (s.startOf op 0 0).any p

/-- The ranges of the first rows of the slots a descriptor names at some offsets. -/
def spansAt (s : State) (c : Ctx) (offs : List Nat) (rs : List Nat) : List (Nat × Nat) :=
  offs.flatMap (fun o => ((s.ctxSlot c o).map (fun q => q.spans c.tile rs)).getD [])

/-- NORM of KIND `k` of two rows of four FP32 elements, with GAIN and BIAS. -/
def normAt (k : Nat) : State :=
  (atOp (pack [(0, 6), (8, 1), (9, 2), (10, 3), (11, 4), (12, k), (16, 4), (20, 2), (24, 0x3F800000)])
    [slotE 0 4 2 0, slotE 4096 4 2 0, slotE 8192 4 1 0, slotE 12288 4 1 0]).store (wsAt 0 0)
    (natLE 4 0x3F800000 ++ natLE 4 0xC0000000) false

/-- ROPE of one row of one head, by position. -/
def ropeAt : State :=
  atOp (pack [(0, 7), (8, 1), (9, 2), (12, 0), (14, 2), (16, 1), (20, 1), (24, 0x41200000), (28, 0x3F800000)])
    [slotE 0 64 1 0, slotE 4096 64 1 0]

/-- ACT of one row of two elements, gated if `g` is 3. -/
def actAt (g : Nat) : State :=
  (atOp (pack [(0, 8), (8, 1), (9, 2), (10, g), (11, 4), (16, 2), (20, 1), (24, 0x40000000)])
    [slotE 0 2 1 0, slotE 4096 2 1 0, slotE 8192 2 1 0]).store (wsAt 0 0) (natLE 4 0x40400000 ++ natLE 4 0xC0000000) false

/-- The hypotheses of NormRopeActWriteTheirRows are met. -/
theorem witness_NormRopeAct :
    opAt (normAt 1) 6 (fun c => ((normAt 1).ctxSlot c 9).isSome && ((normAt 1).ctxSlot c 13).isNone &&
        decide ((normAt 1).Clean (spansAt (normAt 1) c [8] [0, 1] ++ spansAt (normAt 1) c [10, 11] [0]))) = true ∧
      opAt ((normAt 0).setDelta (wsAt 0 0) rsPoison) 6 (fun c => ((normAt 0).ctxSlot c 13).isNone &&
        (((normAt 0).setDelta (wsAt 0 0) rsPoison).look (wsAt 0 0) 16).2) = true ∧
      opAt ropeAt 7 (fun c => (ropeAt.ctxSlot c 9).isSome && decide (ropeAt.Clean (spansAt ropeAt c [8] [0]))) = true ∧
      opAt (actAt 3) 8 (fun c => ((actAt 3).ctxSlot c 9).isSome && decide ((actAt 3).Clean (spansAt (actAt 3) c [8, 10] [0]))) = true ∧
      opAt (actAt 0) 8 (fun c => ((actAt 0).ctxSlot c 10).isNone && decide ((actAt 0).Clean (spansAt (actAt 0) c [8] [0]))) = true := by decide +kernel

/-- ROUTE of one row of three logits, TOPK 2. -/
def routeAt : State :=
  (atOp (pack [(0, 9), (8, 1), (9, 2), (10, 3), (11, 2), (12, 3), (14, 1), (16, 1)])
    [slotE 0 3 1 0, slotE 4096 2 1 16, slotE 8192 2 1 0]).store (wsAt 0 0) (natLE 4 0x3F800000 ++ natLE 4 0x40000000 ++ natLE 4 0) false

/-- SAMPLE of a plain graph over three logits, at temperature 0. -/
def sampleAt : State :=
  let s := (atOp (pack [(0, 12), (8, 1), (10, 2), (16, 3), (20, 0x3F800000)]) [slotE 0 3 1 0, slotE 4096 258 1 17]).store
    (wsAt 0 0) (natLE 4 0x3F800000 ++ natLE 4 0x40000000 ++ natLE 4 0) false
  s.onExec 0 0 (fun e => { e with busy := true, resv := [{ n := 5 }] })

/-- EMBED of tokens 1 and 0 from the tile's own slice of two rows of four FP32 elements. -/
def embedAt : State :=
  let s := (atOp (pack [(0, 13), (9, 1), (10, 0), (16, 4), (20, 2), (24, 0x3F800000), (32, 4096)]) [slotE 0 4 2 0]).store
    (t0At 0 (4096 + 64)) (natLE 4 0x3F800000) false
  s.onExec 0 0 (fun e => { e with busy := true, toks := [1, 0] })

/-- The hypotheses of RouteSampleEmbedChoose are met. -/
theorem witness_RouteSampleEmbed :
    opAt routeAt 9 (fun c => (routeAt.ctxSlot c 9).isSome && (routeAt.ctxSlot c 10).isSome &&
        decide (routeAt.Clean (spansAt routeAt c [8] [0]))) = true ∧
      opAt sampleAt 12 (fun c => (sampleAt.ctxSlot c 10).isSome && (sampleAt.ctxSlot c 9).isNone &&
        sampleAt.commitF c.part c.graph 0 1 == 0 && decide (sampleAt.Clean (sampleAt.paramSpans c 0 ++ spansAt sampleAt c [8] [0]))) = true ∧
      opAt embedAt 13 (fun c => (embedAt.ctxSlot c 9).isSome && (embedAt.ctxSlot c 8).isNone && fmtOf (c.f 10 1) == some .fp32 &&
        c.f 11 1 == 0 && (embedAt.execOf c.part c.slot).toks == [1, 0] && c.f 20 4 == 2 &&
        decide (embedAt.Clean [(t0At 0 4160, 64), (t0At 0 4096, 64)])) = true := by decide +kernel

/-- The reservation of `paged`: one pending page, or none. -/
def pendOf (p : Bool) : Resv := { pend := if p then [(0, 0, 5)] else [], segs := [0], count := 1 }

/-- Window 0 maps channel 0's first 2 MB alone; hub 0's page ledger lies at its middle, and page 5 (frame 0) is valid and pending,
for a session of `base` with one ring layer of one KV head; its command reserved that page, or none. -/
def paged (s : State) (p : Bool) : State :=
  let s := ((s.fset HUB_WIN_BASE.BASE 0 0 0x80000).fset HUB_WIN_SIZE.SIZE 0 0 1).fset HUB_WIN_CTL.KIND 0 0 1
  let s := s.fset HUB_WIN_CTL.VALID 0 0 1
  let s := { s with img := { s.img with ledgers := [(0, pack [(8, 0x10000100000)])], kvLayout := [(0, pack [(2, 1)])], windows := [(0, 32)] }
                    prot := [(0, { valid := true, part := 0, rights := 15, src := 31, base := 0, size := 2 ^ 64 })] }
  let s := (s.poke (t1At 0 0x100050) (Led.bytes ⟨0, 0, 0x11, 0, 0, 0⟩)).fset ATTN_THIN_CTL.ROWS_FP8 0 0 1
  let s := s.fset ATTN_THIN_CTL.MIN_TOKENS 0 0 0
  s.onExec 0 0 (fun e => { e with busy := true, resv := [pendOf p] })

/-- An attention operator of one row over that session, on the tile path (`path` 1) or by the test of R134 (`path` 0). -/
def attnAt (op path : Nat) (p : Bool) : State :=
  paged (atOp (pack [(0, op), (8, 1), (9, if op = 5 then 2 else 3), (10, 4), (14, 1), (15, 1), (18, 32),
      (20, 1), (21, if op = 4 then 1 else 0), (22, path), (24, 0x3F800000)])
    [slotE 0 64 1 3, slotE 4096 64 1 0, slotE 8192 64 1 0, slotE 12288 2 1 0]) p

/-- The state with a record of that session's pages at the operator: they have been asked for. -/
def asked (s : State) (pages : List Nat) : State := s.withAttn (Tbl.put [] s.attn (thrKey 0 0 0) [⟨0, pages, [], []⟩])

/-- Conditions of the reading of its pages: the list, and every page present. -/
def attnAsks (s : State) (op : Nat) : Bool :=
  opAt s op (fun c => Tbl.get [] s.attn (thrKey 0 0 0) == [] && s.seqPages c == some [.pend 5 0] && (s.ctxSlot c 8).isSome) && !s.pageGone 5

/-- Conditions of its computation: the arrays free, the slots clean, the pages those whose seals are asked about. -/
def attnOk (s : State) (op : Nat) (ps : List APage) : Bool :=
  let w := s.attnDrop 0 0 0
  opAt s op (fun c => Tbl.get [] s.attn (thrKey 0 0 0) != [] && s.seqPages c == some ps && (s.tile 0).want == none &&
    !s.servedFirst c && s.arraysFree c && (s.ctxSlot c 8).isSome && (s.ctxSlot c 9).isSome && (s.ctxSlot c 10).isSome &&
    decide (w.Clean (spansAt w c [8, 9, 10] [0])) && c.layerKv 12 == 0)

/-- A pending page whose words read clean passes its whole-page read. -/
theorem seal_passes (s : State) (p l pg a b n : Nat) (ha : s.pageAt pg 0 = a) (hb : s.pageAt pg 512 = b)
    (hn : s.layerBytes p l = n) (h1 : (s.look a 256).2 = false) (h2 : (s.look b n).2 = false) (h3 : (s.led pg).pending = true) :
    s.sealOk p l pg = true := by
  simp [State.sealOk, State.pageUe, ha, hb, hn, h1, h2, h3]

theorem witness_Attention_seal : (asked (attnAt 3 0 true) [5]).sealOk 0 0 5 = true :=
  seal_passes _ 0 0 5 (t1At 0 0) (t1At 0 512) 4096 (by decide +kernel) (by decide +kernel) (by decide +kernel) (by decide +kernel)
    (by decide +kernel) (by decide +kernel)

/-- The hypotheses of AttentionOperatorsRun are met. -/
theorem witness_Attention :
    attnAsks (attnAt 3 0 true) 3 = true ∧ ((attnAt 3 0 true).pinAll [5]).isSome = true ∧
      attnAsks (attnAt 5 0 true) 5 = true ∧ ((attnAt 5 0 true).pinAll [5]).isSome = true ∧
      attnAsks ((attnAt 3 0 true).setLed 5 { (attnAt 3 0 true).led 5 with pin := 0xFFFF }) 3 = true ∧
      (((attnAt 3 0 true).setLed 5 { (attnAt 3 0 true).led 5 with pin := 0xFFFF }).pinAll [5]).isNone = true ∧
      ((attnAt 3 0 true).setLed 5 { (attnAt 3 0 true).led 5 with flags := 0x19 }).pageGone 5 = true ∧
      attnOk (asked (attnAt 3 0 true) [5]) 3 [.pend 5 0] = true ∧ attnOk (asked (attnAt 5 0 false) []) 5 [] = true ∧
      opAt (attnAt 4 1 true) 4 (fun c => (attnAt 4 1 true).decodePages c 0 0 == some [.pend 5 0] && c.f 21 1 == 1 &&
        !(attnAt 4 1 true).onThapel c 0 (pendOf true) && !((attnAt 4 1 true).fcountN ATTN_COUNT.TILE_PARTS 0 0 1).pageGone 5 &&
        (((attnAt 4 1 true).fcountN ATTN_COUNT.TILE_PARTS 0 0 1).pinAll [5]).isSome) = true ∧
      opAt (attnAt 4 0 true) 4 (fun c => (attnAt 4 0 true).onThapel c 0 (pendOf true) && (attnAt 4 0 true).thin c 0 (pendOf true) &&
        ((attnAt 4 0 true).ctxSlot c 8).any (fun q => ((attnAt 4 0 true).stepsOf c 0 (pendOf true) q 0 0
          ((attnAt 4 0 true).decodeRows c ((attnAt 4 0 true).execOf 0 0) (pendOf true) 0 1) (.pend 5 0)).length != 0)) = true ∧
      ((asked (attnAt 4 1 false) []).cur 0 0).any (fun c => c.opcode == 4 && c.f 21 1 == 1 &&
        ((asked (attnAt 4 1 false) []).ctxSlot c 8).any (fun q => (asked (attnAt 4 1 false) []).decodePages c 0 0 == some [] &&
          decide (((asked (attnAt 4 1 false) []).attnDrop 0 0 0).Clean ((asked (attnAt 4 1 false) []).decodeReads c q)))) = true := by decide +kernel

/-- Hub 0's last-level slice 0 is landing memory of partition 0, and every access is admitted. -/
def landing (s : State) : State :=
  { ((s.fset HUB_LLM_MAP.LANDING0 0 0 1).fset HUB_LLM_MAP.EN0 0 0 1) with
    prot := [(0, { valid := true, part := 0, rights := 15, src := 31, base := 0, size := 2 ^ 64 })] }

/-- REDUCE of two parts of two FP32 elements to OUT (`scope` 1), or of one row of 16 into landing (`scope` 0). -/
def reduceAt (scope : Nat) : State :=
  landing ((atOp (pack [(0, 15), (8, 1), (9, 2), (12, scope), (13, 2), (16, if scope = 0 then 0x30000000000 else 0), (32, if scope = 0 then 16 else 2), (36, 1)])
    [slotE 0 (if scope = 0 then 16 else 4) 1 0, slotE 4096 2 1 0]).store (wsAt 0 0)
      (natLE 4 0x3F800000 ++ natLE 4 0x40000000 ++ natLE 4 0x3F800000 ++ natLE 4 0x3F800000) false)

/-- COPY of one row of 64 B from the working store to itself (`k` 0) or to a part physical address (`k` 1). -/
def copyAt (k : Nat) : State :=
  landing ((atOp (pack [(0, 14), (8, 0), (9, k), (14, 1), (16, 64), (24, if k = 0 then 4096 else 0x30000000000), (32, 64)])
    []).store (wsAt 0 64) (natLE 4 77) false)
/-- Both ends of a cut piece of a COPY lie in the tile. -/
def bothHere (x : CopyEnd × CopyEnd × Nat) : Bool :=
  match x.1, x.2.1 with
  | .here _, .here _ => true
  | _, _ => false

/-- The hypotheses of ReduceAndCopyMoveTheirRows are met. -/
theorem witness_ReduceCopy :
    opAt (reduceAt 1) 15 (fun c => (reduceAt 1).ctxSlot c 9 != none && c.f 12 1 != 0 && c.f 10 1 != 3 && c.f 11 1 == 0 &&
        ((reduceAt 1).ctxSlot c 8).any (fun i => decide ((reduceAt 1).Clean (i.allSpans 0)))) = true ∧
      opAt (reduceAt 0) 15 (fun c => c.f 12 1 == 0 && ((reduceAt 0).ctxSlot c 8).any (fun i =>
        (reduceReqs (c.f 10 1) (c.f 11 1) 64 c.land ((reduceAt 0).look (wsAt 0 (i.rowAt 0)) 64).1).length != 0 && c.f 36 4 == 1 &&
        decide ((reduceAt 0).Clean [(wsAt 0 (i.rowAt 0), i.fmt.packed (c.f 32 4))]))) = true ∧
      opAt ((reduceAt 0).setDelta (wsAt 0 0) rsPoison) 15 (fun c => c.f 12 1 == 0 && ((reduceAt 0).ctxSlot c 8).any (fun i =>
        (((reduceAt 0).setDelta (wsAt 0 0) rsPoison).look (wsAt 0 (i.rowAt 0)) (i.fmt.packed (c.f 32 4))).2)) = true ∧
      opAt (copyAt 0) 14 (fun c => ((copyAt 0).copyCuts c).all bothHere && ((copyAt 0).copyDst c).2 == none) = true ∧
      opAt (copyAt 1) 14 (fun c => ((copyAt 1).copyCuts c).any (fun x => !bothHere x)) = true ∧
      base.startOf 0x0E 0 15 = none ∧ threadOk 0 15 = true := by decide +kernel

/-- A COPY to landing on a tile whose 512 tags are all in use. -/
def tagless : State := { (copyAt 1) with tags := filled { busy := true } 512 0 }

theorem witness_CopyFull : tagless.freeTag 0 = none := by
  unfold State.freeTag
  rw [List.find?_eq_none]
  intro g hg
  have hg := List.mem_range.1 hg
  have e : tagless.tag 0 g = { busy := true } := get_filled _ _ _ _ _ (by omega) (by omega)
  rw [e]
  simp

/-- DISPATCH of two rows of 64 B, each to expert 0, whose entry has room for one. -/
def dispatchAt : State :=
  let s := landing (atOp (pack [(0, 10), (8, 1), (9, 2), (10, 3), (11, 1), (12, 1), (16, 2), (20, 64)])
    [slotE 0 16 2 0, slotE 4096 1 2 16, slotE 8192 1 2 0])
  { s with img := { s.img with maps := [(0, pack [(4, 9), (6, 1)])] } }

/-- COMBINE of one row of 16 elements, its tag naming return entry 0 with gate 1. -/
def combineAt : State :=
  let s := landing ((atOp (pack [(0, 11), (8, 1), (9, 2), (16, 1), (20, 16)]) [slotE 0 16 1 0, slotE 4096 64 1 12]).store
    (wsAt 0 4096) (natLE 8 (0x3F800000 * 2 ^ 32)) false)
  { s with img := { s.img with maps := [(0, pack [(0, 64), (4, 9), (6, 1)])], mapEnds := [(0, 1)] } }

/-- KV_APPEND of one token of one head into the pending page. -/
def appendAt : State :=
  paged (atOp (pack [(0, 16), (8, 1), (9, 2), (13, 1), (16, 1)]) [slotE 0 64 1 0, slotE 4096 64 1 0]) true
/-- The thread's last request has completed. -/
def lastDone (s : State) : State := s.onThr 0 0 0 (fun h => { h with st := .yarder })

/-- The hypotheses of DispatchCombineAppendSendRows are met. -/
theorem witness_DispatchCombine :
    opAt dispatchAt 10 (fun c => dispatchAt.ctxSlot c 8 != none && dispatchAt.ctxSlot c 9 != none && dispatchAt.ctxSlot c 10 != none &&
        dispatchAt.mapEnt 0 0 == ⟨0, 9, 1⟩ && c.f 12 2 == 1 && !dispatchAt.semBad c 0 9 &&
        decide (dispatchAt.Clean (spansAt dispatchAt c [8, 9, 10] [0, 1]))) = true ∧
      opAt combineAt 11 (fun c => combineAt.ctxSlot c 8 != none && combineAt.ctxSlot c 9 != none && c.f 11 1 == 0 && c.f 16 4 == 1 &&
        combineAt.returnMap 0 0 == [⟨64, 9, 1⟩] && !combineAt.semBad c 0 9 &&
        decide (combineAt.Clean (spansAt combineAt c [8, 9] [0]))) = true ∧
      opAt appendAt 16 (fun c => appendAt.ctxSlot c 8 != none && appendAt.ctxSlot c 9 != none &&
        appendAt.appendTo 0 (appendAt.execOf 0 0) (pendOf true) [] false 0 0 == some (5, 0) &&
        decide (appendAt.Clean (spansAt appendAt c [8, 9] [0]))) = true ∧
      ((lastDone dispatchAt).cur 0 0).any (fun c => c.opcode == 10 && !(lastDone dispatchAt).semBad c 0 9) = true ∧
      ((lastDone combineAt).cur 0 0).any (fun c => c.opcode == 11 && !(lastDone combineAt).semBad c 0 9) = true ∧
      ((lastDone appendAt).cur 0 0).any (fun c => c.opcode == 16) = true ∧ ((lastDone appendAt).thr 0 0 0).outst = 0 := by decide +kernel

/-- SIGNAL of 5 to partition semaphore 9, which stands at `v`. -/
def signalAt (v : Nat) : State :=
  { atOp (pack [(0, 18), (14, 9), (16, 5)]) [] with sems := [(9, v)] }

/-- A thread waits on semaphore 9, whose word reads uncorrectable. -/
def semUeAt : State := (({ atOp (pack [(0, 17), (14, 9), (16, 5)]) [] with sems := [(9, 5)] } : State).onThr 0 0 0 (fun h =>
    { h with st := .waiting })).setDelta (semAt 0 0 9) 1

/-- WAIT for 5 of semaphore 9, which stands at `v`; LIMIT_US `lim`; the thread ready or waiting since 0. -/
def waitAt (v lim : Nat) (st : ThrState) (t : Nat) : State :=
  (({ atOp (pack [(0, 17), (14, 9), (16, 5), (24, lim)]) [] with sems := [(9, v)] } : State).onThr 0 0 0 (fun h =>
    { h with st := st })).withTime t

/-- The hypotheses of WaitsSignalsAndTagsSettle are met. -/
theorem witness_WaitsSignals_1 :
    (semUeAt.waiting 0 0).any (fun c => semUeAt.semBad c 0 (c.f 14 2)) = true ∧
      opAt (signalAt 0xFFFFFFFE) 18 (fun c => !(signalAt 0xFFFFFFFE).semBad c 0 9 && (signalAt 0xFFFFFFFE).sem c 0 9 == 0xFFFFFFFE && c.f 16 4 == 5) = true ∧
      opAt (signalAt 0xFFFFFFFA) 18 (fun c => (signalAt 0xFFFFFFFA).sem c 0 9 + c.f 16 4 == 0xFFFFFFFF) = true ∧
      opAt (waitAt 5 0 .ready 0) 17 (fun c => !(waitAt 5 0 .ready 0).semBad c 0 9 && c.target == (waitAt 5 0 .ready 0).sem c 0 9) = true ∧
      opAt (waitAt 4 0 .ready 0) 17 (fun c => decide ((waitAt 4 0 .ready 0).sem c 0 9 < c.target)) = true ∧
      ((waitAt 5 0 .waiting 0).waiting 0 0).any (fun c => !(waitAt 5 0 .waiting 0).semBad c 0 9 && c.target == (waitAt 5 0 .waiting 0).sem c 0 9) = true ∧
      ((waitAt 4 1 .waiting 1000).waiting 0 0).any (fun c => c.f 24 4 == 1 && decide ((waitAt 4 1 .waiting 1000).sem c 0 9 < c.target)) = true ∧
      ((waitAt 4 1 .waiting 999).waiting 0 0).any (fun c => decide ((waitAt 4 1 .waiting 999).time < c.f 24 4 * 1000)) = true := by decide +kernel

/-- Tag 511 of tile 0 in use by thread 0's COPY since time 0, whose one write has been served: orphaned, or met by a bus error. -/
def tagged (orph ref : Bool) (t : Nat) : State :=
  ((((copyAt 1).fset TILE_YARD_CTL.TIMEOUT_US 0 0 1).onTag 0 511 (fun _ => { busy := true, orphan := orph, refused := ref, rq := ⟨.put [77] 0, some 0x30000000000, 0x30000000000, 1, 1000⟩ })).onThr 0 0 0 (fun h => { h with st := .yarder, outst := 1 })).withTime t

/-- A tag in quarantine. -/
def quarTag (t : Nat) : State := ((copyAt 1).onTag 0 511 (fun _ => { quarantine := true, freeAt := 2000 })).withTime t

/-- The hypotheses of WaitsSignalsAndTagsSettle are met. -/
theorem witness_WaitsSignals_2 :
    (base.tag 0 511).busy = false ∧ (base.tag 0 511).gen ≠ true ∧ ((tagged true false 0).tag 0 511).busy = true ∧
      ((tagged true false 0).tag 0 511).held = false ∧ ((tagged true false 0).tag 0 511).orphan = true ∧
      ((tagged false true 0).tag 0 511).refused = true ∧ (((tagged false true 0).fset BOOT_STATUS.PHASE 0 0 12).tagCtx 0 ((tagged false true 0).tag 0 511)).isSome = true ∧
      ((tagged false false 0).tag 0 511).refused = false ∧ ((tagged false false 0).tagCtx 0 ((tagged false false 0).tag 0 511)).any (fun c =>
        c.level == ((tagged false false 0).part c.part).level && !((tagged false false 0).tile c.tile).preempting) = true ∧
      ((tagged false false 0).onTag 0 511 (fun x => { x with held := true })).tag 0 511 = { (tagged false false 0).tag 0 511 with held := true } ∧
      0 + (tagged true false 1001).fget TILE_YARD_CTL.TIMEOUT_US 0 0 * 1000 < (tagged true false 1001).time ∧
      (tagged true false 1000).time ≤ 0 + (tagged true false 1000).fget TILE_YARD_CTL.TIMEOUT_US 0 0 * 1000 ∧ (quarTag 2000).time = 2000 ∧
      ((quarTag 2000).tag 0 511).quarantine = true ∧ (quarTag 1999).time < 2000 := by decide +kernel

/-- Window 0 over channel 0 belongs to partition 0 and is prefetchable if `p` is 1. -/
def ahead0 (p : Nat) : State := (paged base false).fset HUB_WIN_CTL.PREFETCHABLE 0 0 p

/-- The hypotheses of WaitsSignalsAndTagsSettle are met. -/
theorem witness_RunAhead :
    (ahead0 0).tilePart 0 = some 0 ∧ (ahead0 0).ingressOpen = true ∧ (ahead0 0).runAheadOk 0 0 0x10000000000 = false ∧
      (ahead0 1).runAheadOk 0 0 0x10000000000 = true ∧
      ((ahead0 1).placesOf ⟨.runAhead 0, hubOfTile 0, 0, 0x10000000000, 4096, 0, 0⟩).isSome = true ∧
      ((ahead0 1).onChan 0 (fun k => { k with mode := .processor })).heldBy [(t1At 0 0, 512)] = some 0 ∧
      (ahead0 1).heldBy ((List.range 8).map (fun i => (t1At 0 (512 * i), 512))) = none ∧
      (ahead0 1).Clean ((List.range 8).map (fun i => (t1At 0 (512 * i), 512))) := by decide +kernel

/-- A request of tile 0's thread 0, partition 0, for some bytes. -/
def ask (a n : Nat) : Req := ⟨.tile 0 0, 0, 0, a, n, 0, 0⟩

/-- Landing memory whose first word carries a difference between its check bits and its data. -/
def landD (d : Nat) : State := (landing base).setDelta 0x30000000000 d

/-- The landing's first word at the end of a slice of which only that half is mapped for partition 1. -/
def stranger : Req := { ask 0x30000000000 8 with part := 1 }
/-- A run-ahead read of tile 0. -/
def aheadAsk : Req := { ask 0x30000000000 8 with src := .runAhead 0 }

/-- The hypotheses of ReadsDeliverTheirBytes are met. -/
theorem witness_Reads_1 :
    (ask 0x30000000000 8).wf = true ∧ (ask 0x30000000000 8).addr % 512 + 8 ≤ 512 ∧
      (landD 0).Admitted (ask 0x30000000000 8) .read (ask 0x30000000000 8) [(0x30000000000, 8)] ∧ (landD 0).merge = [] ∧
      (∀ w ∈ wordsOf ((landD 0).cls 0x30000000000) 0x30000000000 8, (landD 0).verd w = .clean) ∧
      (landD 1).Admitted (ask 0x30000000000 8) .read (ask 0x30000000000 8) [(0x30000000000, 8)] ∧
      wordsOf ((landD 1).cls 0x30000000000) 0x30000000000 8 = [0x30000000000] ∧
      (match (landD 1).verd 0x30000000000 with
       | .corrected _ => true
       | _ => false) = true ∧ (landD 1).wbq.contains 0x30000000000 = false ∧
      ((landD 1).cls 0x30000000000).tally = some 2 ∧ (landD 1).fgetAt ERR_TALLY.T0 0 0 16 < 64 ∧
      (landD secPoison).Admitted (ask 0x30000000000 8) .read (ask 0x30000000000 8) [(0x30000000000, 8)] ∧
      ((landD secPoison).look 0x30000000000 8).2 = true := by decide +kernel

/-- The hypotheses of ReadsDeliverTheirBytes are met. -/
theorem witness_Reads_3 :
    (landD secPoison).Admitted aheadAsk .read aheadAsk [(0x30000000000, 8)] ∧ isRunAhead aheadAsk.src = true ∧
      granules (16 / 512 + 2) 0x300000001F8 16 = [(0x300000001F8, 8), (0x30000000200, 8)] ∧
      (landD 0).Admitted (ask 0x300000001F8 8) .read (ask 0x300000001F8 8) [(0x300000001F8, 8)] ∧
      (landD 0).Admitted (ask 0x30000000200 8) .read (ask 0x30000000200 8) [(0x30000000200, 8)] ∧
      (∀ w ∈ wordsOf ((landD 0).cls 0x300000001F8) 0x300000001F8 16, (landD 0).verd w = .clean) := by decide +kernel

/-- The hypotheses of ReadsDeliverTheirBytes are met. -/
theorem witness_Reads_2 :
    (landD 0).placesOf stranger = none ∧ (landD 0).route stranger = some stranger ∧ (landD 0).inReset 1 = false ∧
      ({ landD 0 with prot := [] } : State).permitted (ask 0x30000000000 8) .read = false ∧
      ((paged base false).onChan 0 (fun k => { k with mode := .processor })).heldBy [(t1At 0 0, 8)] = some 0 ∧
      ((paged base false).onChan 0 (fun k => { k with mode := .processor })).placesOf (ask 0x10000000000 8) = some [(t1At 0 0, 8)] ∧
      ((paged base false).onChan 0 (fun k => { k with mode := .processor })).permitted (ask 0x10000000000 8) .read = true ∧
      ({ landD 0 with halted := true } : State).ingressOpen = false := by decide +kernel

/-- The hypotheses of WholeWritesStoreTheirWord are met. -/
theorem witness_Writes_1 :
    (ask 0x30000000000 8).wf = true ∧
      (landD 1).Admitted (ask 0x30000000000 8) .write (ask 0x30000000000 8) [(0x30000000000, (List.replicate 8 (7 : Byte)).length)] ∧
      (landD 1).merge = [] ∧ 0x30000000000 % ((landD 1).cls 0x30000000000).word = 0 ∧
      (List.replicate 8 (7 : Byte)).length = ((landD 1).cls 0x30000000000).word ∧
      ({ landD 0 with prot := [] } : State).permitted (ask 0x30000000000 8) .write = false ∧
      ({ landD 0 with prot := [] } : State).placesOf (ask 0x30000000000 8) = some [(0x30000000000, 8)] ∧
      (landD 0).route (ask 64 8) = some (ask 64 8) ∧ (ask 64 8).addr < t0Size := by decide +kernel

/-- The landing memory merges (`m` 1) or not. -/
def mergeAt (m d : Nat) : State := (landD d).fset ERR_CTL.MERGE_LLM 0 0 m

/-- A request for three bytes of the tile's own working store's neighbour: byte 5 of a computable channel's word. -/
def inT1c : Req := ask (0x10000000000 + 61) 3

/-- The hypotheses of PartialWritesTakeTheirClassPath are met. -/
theorem witness_Partial :
    (ask 0x30000000005 3).wf = true ∧
      (mergeAt 0 0).Admitted (ask 0x30000000005 3) .write (ask 0x30000000005 3) [(0x30000000005, 3)] ∧
      (0x30000000005 : Nat) % ((mergeAt 0 0).cls 0x30000000005).word + 3 ≤ ((mergeAt 0 0).cls 0x30000000005).word ∧
      (mergeAt 0 0).merges 0 ((mergeAt 0 0).cls 0x30000000005) = false ∧ (mergeAt 0 0).bad 0x30000000000 = false ∧
      (3 : Nat) < ((mergeAt 0 0).cls 0x30000000005).word ∧ (mergeAt 0 0).merge = [] ∧ (mergeAt 0 secPoison).bad 0x30000000000 = true ∧ (mergeAt 1 0).merges 0 ((mergeAt 1 0).cls 0x30000000005) = true ∧
      ((mergeAt 1 0).merge.filter (fun e => e.hub == ((mergeAt 1 0).whereIs 0x30000000005).1)).length < 64 ∧
      ((paged base false).fset HUB_WIN_CTL.CLASS 0 0 1).Admitted inT1c .write inT1c [(t1At 0 61, 3)] ∧
      ((paged base false).fset HUB_WIN_CTL.CLASS 0 0 1).cls (t1At 0 61) = .t1c := by decide +kernel

/-- The hypotheses of ReducesAndQueuedWritesSettle are met. -/
theorem witness_Adders :
    (ask 0x30000000040 64).wf = true ∧ ((landD 0).route (ask 0x10000000000 64)).isSome = true ∧ isLanding 0x10000000000 = false ∧ isLanding 0x30000000040 = true ∧
      (landD 0).Admitted (ask 0x30000000040 64) .add (ask 0x30000000040 64) [(0x30000000040, 64)] ∧
      (landD 0).cls 0x30000000040 = .llm ∧ (0x30000000040 : Nat) % 64 = 0 ∧
      (∀ w ∈ wordsOf .llm 0x30000000040 64, (landD 0).verd w = .clean) ∧
      (∃ w ∈ wordsOf .llm 0x30000000040 64, ((landD 0).setDelta 0x30000000040 secPoison).bad w = true) := by decide +kernel

/-- Landing memory with a correctable word queued, and a merge entry of hub 0 open since time 0. -/
def queuedAt (t : Nat) : State :=
  { (landD 1).withTime t with wbq := [0x30000000000], merge := [{ hub := 0, blk := 0x30000000040, opened := 0, mask := 1, data := 0, poison := 0, writers := [] }] }
/-- The queued word has become uncorrectable. -/
def queuedUe : State := { landD secPoison with wbq := [0x30000000000] }

/-- The hypotheses of ReducesAndQueuedWritesSettle are met. -/
theorem witness_QueuedWrites :
    (queuedAt 0).wbq.contains 0x30000000000 = true ∧ (queuedAt 0).bad 0x30000000000 = false ∧ queuedUe.bad 0x30000000000 = true ∧
      queuedUe.wbq.contains 0x30000000000 = true ∧ (base.withTime 9999999999).due 53 10000000000 = false ∧
      (base.withTime 10000000000).due 53 10000000000 = true ∧ (queuedAt 0).wbq.contains 0x30000000008 = false ∧
      ((queuedAt 256).merge.find? (fun x => x.hub == 0)).any (fun e => decide (e.opened + 256 ≤ (queuedAt 256).time)) = true ∧
      ((queuedAt 255).merge.find? (fun x => x.hub == 0)).any (fun e => decide ((queuedAt 255).time < e.opened + 256)) = true ∧
      (queuedAt 0).merge.find? (fun x => x.hub == 3) = none := by decide +kernel

/-- Host ports 0 and 1 up (`u` 1) or down, every access of partition 0 admitted. -/
def hosted (u : Nat) : State :=
  let s := landing base
  { s with pkg := { s.pkg with hostUp := [u, u] } }

/-- A tile's request for the last 8 bytes that host port 1 reaches. -/
def hostAsk : Req := ask (0x80000000000 - 8) 8

/-- The hypotheses of HostWindowRequestsWaitForTheirCompletion are met. -/
theorem witness_HostWindow_1 :
    hostAsk.wf = true ∧ isHostWindow hostAsk.addr = true ∧ (hosted 1).ingressOpen = true ∧ ((hosted 1).hostTarget 0 hostAsk.addr).1 = 1 ∧
      (hosted 1).admits hostAsk.part .write (srcProt hostAsk.src) hostAsk.addr hostAsk.len = true ∧ (hosted 1).pkg.hostUp.getD 1 0 ≠ 0 ∧
      (hosted 0).pkg.hostUp.getD 1 0 = 0 ∧ (hosted 1).admits hostAsk.part .read (srcProt hostAsk.src) hostAsk.addr hostAsk.len = true ∧
      ((hosted 1).hostReads.filter (fun h => h.port == 1)).length < 4096 ∧
      base.admits hostAsk.part .read (srcProt hostAsk.src) hostAsk.addr hostAsk.len = false := by decide +kernel

/-- As many reads out on port 1 as there can be. -/
def hostFull : State := { hosted 1 with hostReads := List.replicate 4096 ⟨1, 0, 0, 0, 8, 1, 0⟩ }

theorem witness_HostWindow_2 : 4096 ≤ (hostFull.hostReads.filter (fun h => h.port == 1)).length := by
  have : hostFull.hostReads.filter (fun h => h.port == 1) = List.replicate 4096 ⟨1, 0, 0, 0, 8, 1, 0⟩ :=
    List.filter_eq_self.2 (fun a ha => by rw [List.eq_of_mem_replicate ha]; rfl)
  rw [this, List.length_replicate]

/-- One read out on port 1, under tag 16,383. -/
def oneOut : State := { hosted 1 with hostReads := [⟨1, 16383, 0, hostAt 1 0, 8, 1, 0x60000000000⟩] }

/-- The hypotheses of HostWindowRequestsWaitForTheirCompletion are met. -/
theorem witness_HostWindow_3 :
    oneOut.hostReads.find? (fun x => x.port == 1 && x.tag == 16383) = some ⟨1, 16383, 0, hostAt 1 0, 8, 1, 0x60000000000⟩ ∧
      queueFill 256 (oneOut.fget ERR_Q_PROD.PROD 2 0) (oneOut.fget ERR_Q_CONS.CONS 2 0) ≠ 256 ∧
      oneOut.hostReads.find? (fun x => x.port == 0 && x.tag == 16383) = none := by decide +kernel

/-- Hub 3's tally stands at `n`, its BUCKET at `b`, a microsecond or two into the run. -/
def hotAt (n b : Nat) : State := ((base.fset HUB_HOTBANK_STATUS.TALLY 3 0 n).fset HUB_HOTBANK_CTL.BUCKET 3 0 b).withTime 2000

/-- The hypotheses of HotBanksAreTalliedAndReported are met. -/
theorem witness_HotBanks :
    (hotAt 253 254).fget HUB_HOTBANK_STATUS.TALLY 3 0 + 1 ≤ max 1 ((hotAt 253 254).fget HUB_HOTBANK_CTL.BUCKET 3 0) ∧
      max 1 ((hotAt 1 0).fget HUB_HOTBANK_CTL.BUCKET 3 0) < (hotAt 1 0).fget HUB_HOTBANK_STATUS.TALLY 3 0 + 1 ∧
      hotBank ((hotAt 1 0).fget HUB_HOTBANK_CTL.FRAC 3 0) [(0, 0, 998), (191, 31, 999)] = some (191, 31, 999) ∧
      hotBank ((hotAt 1 0).fget HUB_HOTBANK_CTL.FRAC 3 0) [(191, 31, 0)] = none ∧ hotBank 128 [(0, 0, 500)] = none ∧
      hotBank 128 [(0, 0, 501)] = some (0, 0, 501) ∧ base.due 48 1000 = false ∧ (hotAt 1 0).due 48 1000 = true ∧
      base.due 49 (max 1 (base.fget HUB_HOTBANK_CTL.LEAK_US 3 0) * 1000) = false ∧
      ((hotAt 1 0).withTime 65535000).due 49 (max 1 ((hotAt 1 0).fget HUB_HOTBANK_CTL.LEAK_US 3 0) * 1000) = true := by decide +kernel

/-- A sweep runs on hub 0. -/
def sweeping : State := { base with margin := [(0, 1)] }

/-- The hypotheses of SweepsAndRawOperationsAct are met. -/
theorem witness_Sweeps :
    base.reaches (.vf 1 0) HUB_MARGIN_CTL.TARGET 0 0 = false ∧ base.reaches .mgmt HUB_MARGIN_CTL.TARGET 0 0 = true ∧
      (0xFF5FFF : Nat).testBit 14 = true ∧ base.sweepTaken 0 (0xFF5FFF % 2 ^ 12) (0xFF5FFF / 2 ^ 12 % 2) = false ∧
      base.sweepTaken 0 0 (0x1000 / 2 ^ 12 % 2) = true ∧ Tbl.get 0 sweeping.margin 0 ≠ 0 ∧ Tbl.get 0 base.margin 0 = 0 := by decide +kernel

/-- Hub 0's raw registers name a byte of last-level memory or of tile 15 (whose tower no partition owns), with a flipped check bit. -/
def rawAt (o : Nat) : State :=
  ((base.fset BOOT_TILES.TILES 0 0 (2 ^ 64 - 1)).fset ECC_RAW_ADDR.OFFSET 0 0 o).setDelta (t0At 15 64) 1

/-- The hypotheses of SweepsAndRawOperationsAct are met. -/
theorem witness_Raw_1 :
    base.privileged (.vf 1 0) = false ∧ base.privileged .mgmt = true ∧ rawOk .mgmt 0 (0x1F0 + 0) 0 = true ∧
      rawOk .mgmt 0 (0x1F0 + 1) 1 = true ∧ rawOk .mgmt 0 (0x1F0 + 2) 2 = true ∧ rawOk .mgmt 0 (0x1F0 + 3) 3 = true ∧
      (rawAt 127).rawPlace 0 ((0x1F0 / 4) % 4) (0x1F0 / 16 % 16) = some (t0At 15 64) ∧ (rawAt 127).rawTaken (t0At 15 64) = false ∧
      (rawAt 127).rawPlace 0 0 0 = some (t0At 0 64) ∧ (rawAt 127).rawTaken (t0At 0 64) = true ∧
      (rawAt t0Size).rawPlace 0 0 0 = none ∧ (rawAt 127).merge = [] := by decide +kernel

/-- A page step of channel 0 on page 5, for session 0 of thread 0's part; or a seal check of that page. -/
def stepOf (op : Nat) : Step :=
  { op := op, part := 0, chan := 0, frame := 0, page := 5, layer := 0, pending := true, segTest := false, row0 := 0, rows := 1
    head0 := 0, heads := 1, group := 1, geom := 0, n := 0, window := 32, scaleC := 0, qfmt := 3, pendFirst := 0
    tag := 0, qOff := 0, tabOff := 1, qs := [List.replicate 64 0], tab := [⟨0, 0, 0⟩], tile := 0, level := 0, thread := 0, sess := 0, index := 0, handle := 0
    queued := 0 }

/-- The part of `attnAt` waits for that step; channel 0 is `k`. -/
def thapAt (k : Chan) : State :=
  { (((attnAt 4 0 true).poke (t1At 0 18) [8]).onThr 0 0 0 (fun h => { h with st := .steps })) with
    thapWait := [stepOf 1], attn := [(thrKey 0 0 0, [⟨0, [5], [0], []⟩])], chans := [(0, k)] }

/-- The hypotheses of PageStepsQueueRunAndDeliver are met. -/
theorem witness_PageSteps_1 :
    (thapAt {}).ingressOpen = true ∧ (thapAt {}).thapWait.find? (fun y => y.chan == 767) = none ∧
      (thapAt {}).thapWait.find? (fun y => y.chan == 0) = some (stepOf 1) ∧ ((thapAt {}).chan 0).queue.length < 64 ∧
      ((thapAt {}).chan 0).mode = .memory ∧ (thapAt {}).oos 0 = false ∧
      (thapAt {}).admits 0 .thapel 4 ((thapAt {}).physOf 0 (0 * (thapAt {}).frameSize 0)) ((thapAt {}).frameSize 0) = true ∧
      ((thapAt { mode := .processor, running := some (stepOf 2) }).chan 0).running ≠ none ∧
      64 ≤ ((thapAt { queue := List.replicate 64 (stepOf 2) }).chan 0).queue.length := by decide +kernel

/-- Channel 0 entering with one step queued; running it; closed with its result; or lingering. -/
def entering : State := thapAt { mode := .entering, queue := [stepOf 1] }
/-- A request of a tag still drains. -/
def draining : State := entering.onTag 0 0 (fun _ => { busy := true, rq := ⟨.fetch none, some 0x10000000000, t1At 0 0, 64, 0⟩ })
/-- The partition's Thapel account has nothing left. -/
def spent (s : State) : State := s.fset BWR_THAPEL_ACCT.VALID 0 0 1
/-- A step of opcode `op` runs. -/
def running (op : Nat) : State := thapAt { mode := .processor, running := some (stepOf op) }

/-- The hypotheses of PageStepsQueueRunAndDeliver are met. -/
theorem witness_PageSteps_2 :
    (entering.chan 0).mode = .entering ∧ entering.drainLeft 0 = false ∧ entering.stepMay (stepOf 1) = true ∧
      draining.drainLeft 0 = true ∧ (running 1).stepStatus (stepOf 1) = 0 ∧ (running 1).stepLive (stepOf 1) = true ∧
      ((running 1).chan 0).closed = none ∧ ((running 1).chan 0).halves.length < 2 ∧ (running 2).stepStatus (stepOf 2) = 0 := by decide +kernel

/-- The full half holds a result of status `st`. -/
def halfAt (st : Nat) : State := thapAt { mode := .processor, halves := [⟨stepOf 1, st, [List.replicate 66 0], 0, 0, 0, 0⟩] }
/-- Channel 0 in processor mode with nothing to do, since time 0. -/
def lingering (t : Nat) : State := ((thapAt { mode := .processor }).fset THAPEL_CTL.LINGER_NS 0 0 100).withTime t

/-- The hypotheses of PageStepsQueueRunAndDeliver are met. -/
theorem witness_PageSteps_3 :
    ((thapAt {}).chan 0).halves = [] ∧ (halfAt 0).stepLive (stepOf 1) = true ∧ ((halfAt 0).stepCtx (stepOf 1)).isSome = true ∧
      ¬ ((stepOf 1).op = 1 ∧ 1 = 0 ∧ (halfAt 1).stepLive (stepOf 1) = true) ∧
      ((lingering 100).chan 0).lingerFrom + (lingering 100).fget THAPEL_CTL.LINGER_NS 0 0 ≤ (lingering 100).time ∧
      (spent entering).stepMay (stepOf 1) = false ∧ (lingering 99).time < ((lingering 99).chan 0).lingerFrom + (lingering 99).fget THAPEL_CTL.LINGER_NS 0 0 := by decide +kernel

/-- A running step that closed as `cl`, retried or not, at a time; HANG_US is 1. -/
def yieldAt (cl : Option Nat) (t : Nat) : State :=
  ((thapAt { mode := .processor, running := some (stepOf 1), closed := cl }).fset THAPEL_CTL.HANG_US 0 0 1).withTime t

/-- The hypotheses of YieldPointsFaultsAndRefreshes are met. -/
theorem witness_YieldPoints_1 :
    ((thapAt {}).chan 767).mode ≠ .processor ∧ ((yieldAt (some 0) 0).chan 0).closed = some 0 ∧ ((yieldAt none 0).chan 0).closed = none ∧
      ((yieldAt none 0).chan 0).retried = false ∧ ((yieldAt none 0).chan 0).halves.length < 2 ∧
      ((yieldAt none 1000).chan 0).lastYield + (yieldAt none 1000).fget THAPEL_CTL.HANG_US 0 0 * 1000 ≤ (yieldAt none 1000).time ∧
      (yieldAt none 999).time < ((yieldAt none 999).chan 0).lastYield + (yieldAt none 999).fget THAPEL_CTL.HANG_US 0 0 * 1000 := by decide +kernel

/-- Channel 0 holds a tile's read since time 0. -/
def heldAt (t : Nat) : State :=
  (thapAt { mode := .processor, held := [{ rq := ask 0x10000000000 64, write := false, since := 0, data := [], poisoned := false, yard := none }] }).withTime t
/-- Channel 0 holds a host's read since time 0. -/
def hostHeld (t : Nat) : State :=
  (thapAt { mode := .processor, held := [{ rq := { ask 0x10000000000 64 with src := .host 1 15 }, write := false, since := 0, data := [], poisoned := false }] }).withTime t
/-- A running step with a refresh due at 100. -/
def dueAt (m : ChanMode) (t : Nat) : State :=
  (thapAt { mode := m, running := some (stepOf 1), due := [100], refreshAt := 50 }).withTime t

/-- The hypotheses of YieldPointsFaultsAndRefreshes are met. -/
theorem witness_YieldPoints_2 :
    (((heldAt 50000).chan 0).held[0]?).any (fun q => q.rq.src == .tile 0 0 && q.yard == none && q.write == false && decide (q.since + 50000 ≤ 50000)) = true ∧
      (heldAt 49999).time < 0 + 50000 ∧ (((hostHeld 50000).chan 0).held[0]?).any (fun q => q.rq.src == .host 1 15 && q.yard == none &&
        q.write == false && decide (q.since + 50000 ≤ 50000)) = true ∧ ((dueAt .processor 100).chan 0).closed = none ∧ (dueAt .processor 49).time < ((dueAt .processor 49).chan 0).refreshAt ∧
      ((dueAt .memory 50).chan 0).refreshAt ≤ (dueAt .memory 50).time ∧ ((dueAt .memory 50).chan 0).mode ≠ .processor ∧
      (∃ d ∈ ((dueAt .processor 100).chan 0).due, d ≤ (dueAt .processor 100).time) ∧
      (∀ d ∈ ((dueAt .processor 99).chan 0).due, (dueAt .processor 99).time < d) := by decide +kernel

/-- Account 127 of hub 0 for master 21 of partition 15: 64 B of guarantee left, and some requests held. -/
def acctAt (g : Nat) (held : List Nat) (t : Nat) : State :=
  let s := (((base.fset BWR_ACCT.VALID 0 127 1).fset BWR_ACCT.MASTER 0 127 21).fset BWR_ACCT.PART 0 127 15).fset BWR_ACCT.WINDOW_8NS 0 127 125
  { (s.fset BWR_ACCT.GUAR 0 127 1).withTime t with accts := [(acctKey 0 127, { win := 1, guar := g, held := held })] }

/-- The hypotheses of AccountsHoldAndReleaseRequests are met. -/
theorem witness_Accounts :
    base.account 3 21 15 = none ∧ (acctAt 64 [] 0).account 0 21 15 = some 127 ∧
      ((acctAt 64 [] 0).acctCfg 0 127).any (fun a => ((acctAt 64 [] 0).acct (acctKey 0 127)).may a ((acctAt 64 [] 0).urgency 0 21)) = true ∧
      ((acctAt 0 [] 0).acctCfg 0 127).any (fun a => !((acctAt 0 [] 0).acct (acctKey 0 127)).may a ((acctAt 0 [] 0).urgency 0 21)) = true ∧
      ((acctAt 64 [9] 0).acct (acctKey 0 127)).held ≠ [] ∧
      ((acctAt 64 [] 999).acctCfg 0 127).any (fun a => decide (999 / max 1 a.window < 1)) = true ∧
      ((acctAt 64 [] 1000).acctCfg 0 127).any (fun a => decide (1 ≤ 1000 / max 1 a.window)) = true ∧
      base.thapelCfg 3 15 = none ∧ base.fget BWR_SCALE.FACTOR 3 0 = 1024 ∧
      1024 * ((base.fset BWR_GUAR_SUM.GBPS 3 0 100).fset HUB_DELIV.GBPS 3 0 99).fget HUB_DELIV.GBPS 3 0 / 100 < 1024 ∧
      (base.fset BWR_SCALE.FACTOR 3 0 512).fget BWR_SCALE.FACTOR 3 0 < 1024 ∧ (base.fset BWR_SCALE.FACTOR 3 0 512).fget BWR_GUAR_SUM.GBPS 3 0 = 0 := by decide +kernel

/-- The scrub of hub 0 is on; the tile memory's first word holds a difference. -/
def scrubAt (d : Nat) : State :=
  ((base.fset BOOT_TILES.TILES 0 0 1).fset ERR_SCRUB_CTL.EN 0 0 1).setDelta (t0At 0 0) d

/-- The hypotheses of ScrubReadsAndTheLogGrows are met. -/
theorem witness_ScrubLog_1 :
    base.fget ERR_SCRUB_CTL.EN 3 0 = 0 ∧ (scrubAt 0).fget ERR_SCRUB_CTL.EN 0 0 ≠ 0 ∧ (scrubAt 0).ingressOpen = true ∧ (scrubAt 0).due 6 0 = true ∧ ({ scrubAt 0 with ticks := [(6, 1)] } : State).due 6 0 = false ∧
      nextScrub ((scrubAt 0).scrubUnits 0 0).1 (((scrubAt 0).scrubUnits 0 0).2 * scrubStride 0)
        (Tbl.get 0 (scrubAt 0).scrub (scrubKey 0 0)) = some (t0At 0 0) ∧ (scrubAt 0).verd (t0At 0 0) = .clean ∧
      (scrubAt 0x101).verd (t0At 0 0) = .ue ∧ (scrubAt 0x101).cls (t0At 0 0) ≠ .t1c := by decide +kernel

/-- Hub 3 has a record to copy, with `n` entries waiting and `l` lost. -/
def logAt (n l : Nat) : State :=
  { base with mgmt := { base.mgmt with feed := [{ hub := 2 }, { hub := 3, cause := 9 }], buffered := List.replicate n ⟨0, 0, 0, 0, false, {}⟩, lost := l } }

theorem witness_ScrubLog_full : 1024 ≤ (logAt 1024 0).mgmt.buffered.length := by
  rw [show (logAt 1024 0).mgmt.buffered = List.replicate 1024 ⟨0, 0, 0, 0, false, {}⟩ from rfl, List.length_replicate]

/-- The hypotheses of ScrubReadsAndTheLogGrows are met. -/
theorem witness_ScrubLog_2 :
    takeFeed 3 base.mgmt.feed = none ∧ (takeFeed 3 (logAt 0 0).mgmt.feed).any (fun x => x.1.cause == 9 && x.2.length == 1) = true ∧
      (logAt 0 0).mgmt.buffered.length < 1024 ∧ (logAt 1 3).mgmt.lost ≠ 0 ∧ ((logAt 1 3).mgmt.buffered.drop 1).length < 1024 := by decide +kernel

/-- Hub 0 scrubs; channel 0 is computable, and a frame stands where the pass does (`f` 0) or not. -/
def scrubT1c (m : ChanMode) : State :=
  ((((paged base false).fset HUB_WIN_CTL.CLASS 0 0 1).fset ERR_SCRUB_CTL.EN 0 0 1).onChan 0
    (fun k => { k with mode := m })).withScrub [(scrubKey 0 4, t1At 0 0)]

/-- The hypotheses of ScrubReadsAndTheLogGrows are met. -/
theorem witness_ScrubLog_3 :
    (scrubT1c .memory).fget ERR_SCRUB_CTL.EN 0 0 ≠ 0 ∧ (scrubT1c .memory).ingressOpen = true ∧ (scrubT1c .memory).due 10 0 = true ∧
      nextScrub ((scrubT1c .memory).scrubUnits 0 4).1 (((scrubT1c .memory).scrubUnits 0 4).2 * scrubStride 4)
        (Tbl.get 0 (scrubT1c .memory).scrub (scrubKey 0 4)) = some (t1At 0 0) ∧
      (scrubT1c .memory).frameOf ((t1At 0 0 - 2 ^ 40) / chanSize) ((t1At 0 0 - 2 ^ 40) % chanSize) = none ∧
      ((scrubT1c .processor).chan 0).mode ≠ .memory := by decide +kernel

/-- The hypotheses of SegmentsMoveOnlyToTheirRanges are met. -/
theorem witness_Segments :
    base.reaches (.vf 1 0) HIF_BAR4_SEG.VALID 1 15 = false ∧ base.reaches (.pf0 1) HIF_BAR4_SEG.VALID 1 15 = true ∧
      (0x100 ≤ (0x10000000003 : Nat) / 2 ^ 32 % 2 ^ 12 ∧ (0x10000000003 : Nat) / 2 ^ 32 % 2 ^ 12 < 0x2B0) ∧
      (0x30000000003 : Nat) / 2 ^ 32 % 2 ^ 12 = 0x300 ∧
      ¬ (0x100 ≤ (0x2B000000003 : Nat) / 2 ^ 32 % 2 ^ 12 ∧ (0x2B000000003 : Nat) / 2 ^ 32 % 2 ^ 12 < 0x2B0 ∨
        (0x2B000000003 : Nat) / 2 ^ 32 % 2 ^ 12 = 0x300) ∧
      base.privileged (.vf 1 0) = false ∧ base.privileged .mgmt = true ∧ base.reaches .mgmt HIF_VF_SEG.VALID 1 16 = true := by decide +kernel

/-- Rails and the lane map let host port 1 train; its PERST# is deasserted. -/
def mayTrain : State :=
  let s := ((base.fbitSet PKG_PG.PG 0 0 27 true).fbitSet PKG_PG.PG 0 0 18 true)
  { s with boot := { s.boot with ao := true }, pkg := { s.pkg with perst := [true, false] } }

/-- Link 1 is up, management up or not. -/
def linked (m : Bool) : State := { base with pkg := { base.pkg with hostUp := [0, 16] }, boot := { base.boot with mgmtUp := m } }

/-- The hypotheses of HostPortsAndFunctionResetsAct are met. -/
theorem witness_HostPorts_1 :
    mayTrain.hostTrains 1 = true ∧ mayTrain.hostWidth 1 ≠ 0 ∧ base.hostTrains 1 = false ∧ (linked false).pkg.hostUp.getD 1 0 ≠ 0 ∧
      (linked true).fnThere 1 17 = false ∧ base.pkg.hostUp.getD 1 0 = 0 ∧ (linked true).fnThere 1 1 = true ∧ (∀ r ∈ (linked true).hostReads, r.port ≠ 1) := by decide +kernel

/-- VF 16 is bound to partition 0, which runs. -/
def bound : State := (base.fset HIF_VF_BIND.EN 0 16 1).fset HIF_VF_BIND.PART 0 16 0

/-- The hypotheses of HostPortsAndFunctionResetsAct are met. -/
theorem witness_HostPorts_2 :
    base.vfPart 16 = none ∧ bound.vfPart 16 = some 0 ∧ (bound.part 0).stage = .none ∧ bound.partStatus 0 ≠ 0 ∧
      (base.setPartStatus 0 0).loadsNow = false ∧ (base.setPartStatus 0 0).fget MGMT_POLICY.PF0_PRIV 0 0 ≠ 1 ∧
      (base.setPartStatus 0 0).fget BOOT_STATUS.PHASE 0 0 ≠ 15 ∧
      (∀ p ∈ List.range 16, ((base.setPartStatus 0 0).part p).stage = .none ∧ (base.setPartStatus 0 0).partStatus p = 0) := by decide +kernel

/-- A commit is pending for time 2,048. -/
def commitAt (t : Nat) : State := ((base.fset PROT_GEN.PENDING 0 0 1).fset PROT_COMMIT_TIME.T_C 0 0 2048).withTime t

/-- The hypotheses of TheMapCommitsAndSwaps are met. -/
theorem witness_MapCommits :
    base.privileged (.vf 1 0) = false ∧ isShadow 0x8FFF = false ∧ base.privileged .mgmt = true ∧ isShadow 0xCFFC = true ∧
      (commitAt 0).pendingCommit = true ∧ base.pendingCommit = false ∧ base.reaches .mgmt PROT_CTL.VIEW 0 0 = true ∧
      ((commitAt 0).fset PROT_CTL.VIEW 0 0 0).commitFree = false ∧ (base.fset PROT_CTL.VIEW 0 0 0).commitFree = true ∧
      (base.fset PROT_CTL.VIEW 0 0 0).shadowBad = false ∧ (commitAt 2047).time < (commitAt 2047).fget PROT_COMMIT_TIME.T_C 0 0 ∧
      (commitAt 2048).fget PROT_COMMIT_TIME.T_C 0 0 ≤ (commitAt 2048).time := by decide +kernel

/-- Partition 15 at a stage and with a status. -/
def stageAt (st : ResetStage) (status t : Nat) : State :=
  ((base.onPart 15 (fun q => { q with stage := st })).setPartStatus 15 status).withTime t

/-- The same part before READY. -/
def early : State := (stageAt .none 1 0).fset BOOT_STATUS.PHASE 0 0 11

/-- The hypotheses of PartitionsResetLoadAndRetire are met. -/
theorem witness_Partitions_1 :
    base.partCmd .mgmt 0x1F 1 = some 15 ∧ ((stageAt .none 1 0).part 15).stage = .none ∧ (stageAt .none 1 0).partStatus 15 ≠ 0 ∧
      base.partStatus 15 = 0 ∧ base.partCmd (.vf 1 0) 0x1F 1 = none ∧ early.isReady = false ∧ early.partCmd .mgmt 0x2F 2 = some 15 ∧
      early.partCmd .mgmt 0x3F 3 = some 15 ∧ base.isReady = true ∧ ((stageAt .none 1 0).part 15).idle = true ∧
      (stageAt .none 1 0).imageReadable 15 ((stageAt .none 1 0).fget PART_LOAD_ADDR.ADDR 0 0) = false ∧
      (stageAt .none 1 0).partCmd .mgmt 0x3F 3 = some 15 := by decide +kernel

/-- A request of partition 15's host window is out while it drains. -/
def undrained : State := { stageAt (.draining false false false 0) 1 0 with hostReads := [⟨0, 0, 15, 0, 8, 1, 0⟩] }

/-- A blob is still to be loaded for partition 15. -/
def blobbed : State :=
  { stageAt .loadWeights 3 0 with img := { base.img with blobs := [(65536 * 16, [0, 0, 0, 0, 64, 960])] } }

/-- The hypotheses of PartitionsResetLoadAndRetire are met. -/
theorem witness_Partitions_2 :
    undrained.drained 15 = false ∧ (stageAt (.draining false false false 0) 1 0).drained 15 = true ∧
      (((stageAt (.draining false true false 0) 1 0).fset PROT_GEN.PENDING 0 0 1).part 15).stage = .draining false true false 0 ∧
      ((stageAt (.draining false true false 0) 1 0).fset PROT_GEN.PENDING 0 0 1).drained 15 = true ∧
      ((stageAt (.draining false true false 0) 1 0).fset PROT_GEN.PENDING 0 0 1).pendingCommit = true ∧
      (stageAt (.loadDrain false false) 2 0 |>.part 15).stage = .loadDrain false false ∧
      0 + 100000000 ≤ (stageAt (.draining false false false 0) 1 100000000).time ∧
      (stageAt (.loadDrain false true) 2 0).commitFree = true ∧ (stageAt (.loadDrain false true) 2 0).swept 15 = false ∧
      ((stageAt (.loadDrain false true) 2 0).fset PROT_GEN.PENDING 0 0 1).commitFree = false ∧
      ((stageAt (.loadDrain true true) 2 0).part 15).stage = .loadDrain true true ∧
      (stageAt .loadWeights 3 0).partBlobs 15 = [] ∧ blobbed.partBlobs 15 ≠ [] := by decide +kernel

/-- `base` at a time with port 15 in a training or link state, the port's own data changed. -/
def portAt (st t : Nat) (f : Port → Port) : State := ((base.fset FAB_PORT_STATUS.STATE 0 15 st).onPort 15 f).withTime t

/-- A port that may train. -/
def enabledAt (st t : Nat) (f : Port → Port) : State := (portAt st t f).fset FAB_PORT_CTL.EN 0 15 1

/-- A frame on lane 7 of a port that has heard this part's lanes, all of them good, asking something of the transmitter there. -/
def frameOf (warm : Bool) (ask : Nat × Nat × Nat) : TrainFrame :=
  { bits := frameBits 7 15 2 0xFF warm true ask 0 false 1, heard := 0x80, ownEq := 0x80, ownOk := 0xFF, verifyFail := false, reversed := false
    locked := true, askTap := 0, askAction := 0, askPreset := 0 }

/-- A warm frame that asks nothing. -/
def warmFrame : TrainFrame := frameOf true (0, 0, 0)

/-- A frame whose CRC fails. -/
def brokenFrame : TrainFrame := { warmFrame with bits := warmFrame.bits + 2 ^ 64 }
/-- WIDTH, one mask taken. -/
def widthAt (m : Nat) : State := portAt 4 0 (fun t => { t with masks := [m] })

/-- The hypotheses of LinksTrainAndRetrain are met. -/
theorem witness_Links_train :
    (enabledAt 1 0 id).pst 15 = 1 ∧ (enabledAt 1 0 id).fget FAB_PORT_CTL.EN 0 15 = 1 ∧
      (((portAt 2 0 id).port 15).taps.length = 8 ∧ ((portAt 2 0 id).port 15).replies.length = 8 ∧ ((portAt 2 0 id).port 15).asks.length = 8) ∧
      frameOk brokenFrame.bits = false ∧ frameOk warmFrame.bits = true ∧ frameWarm (frameOf false (0, 0, 0)) = false ∧
      frameOk (frameOf false (0, 0, 0)).bits = true ∧ frameWarm warmFrame = true ∧ warmFrame.verifyFail = false ∧ frameReady warmFrame = true ∧
      warmFrame.heard ≠ 0 ∧ warmFrame.heard &&& warmFrame.ownEq = warmFrame.heard ∧ frameAction warmFrame = 0 ∧
      frameAction (frameOf true (1, 2, 0)) = 2 ∧ ((portAt 3 0 id).port 15).replies.getD (frameLane (frameOf true (1, 2, 0))) 0 = 0 ∧
      frameLanes warmFrame = warmFrame.ownOk &&& frameLanes warmFrame &&&
        (0xFF ^^^ physLanes (Tbl.get 0 (widthAt 0xFF).fuses.fabBadLanes 15 % 256) warmFrame.reversed) ∧
      laneGroup 0xFF = some (3, 0xFF) ∧ laneGroup 0 = none ∧ warmFrame.locked = true ∧ tapsOk (tapPreset 4) = true ∧
      (portAt 2 0 id).pst 15 = 2 ∧ (portAt 3 0 id).pst 15 = 3 ∧ (portAt 5 0 id).pst 15 = 5 ∧
      trainLimit ((portAt 2 20000000 id).pst 15) ((portAt 2 20000000 id).port 15).warm = 20000000 ∧
      ((portAt 2 20000000 id).port 15).retrain = none ∧
      ((portAt 2 20000000 id).port 15).stSince + 20000000 ≤ (portAt 2 20000000 id).time ∧
      trainLimit ((portAt 2 4999999 (fun t => { t with warmTry := true })).pst 15)
        ((portAt 2 4999999 (fun t => { t with warmTry := true })).port 15).warm = 5000000 ∧
      (enabledAt 12 1000000000 (fun t => { t with retryAt := 1000000000 })).pst 15 = 12 ∧
      ((enabledAt 12 1000000000 (fun t => { t with retryAt := 1000000000 })).port 15).retryAt ≤
        (enabledAt 12 1000000000 (fun t => { t with retryAt := 1000000000 })).time := by decide +kernel

/-- A port whose retrain began at a time, before which its link was authenticated. -/
def retraining (t : Nat) : State := portAt 2 t (fun q => { q with retrain := some 1, retrainAt := 0, before := 8, warmTry := true })

/-- The hypotheses of LinksTrainAndRetrain are met. -/
theorem witness_Links_up :
    (portAt 6 0 id).pst 15 = 6 ∧ (portAt 6 0 id).fget FAB_PORT_CTL.QUARANTINE 0 15 = 0 ∧ (portAt 7 0 id).linkUp 15 = true ∧
      (portAt 11 0 id).linkUp 15 = true ∧ (portAt 6 0 id).linkUp 15 = false ∧ base.portCtl .mgmt 15 false = true ∧
      (portAt 8 0 id).portCtl .mgmt 15 false = true ∧ ((portAt 8 0 id).port 15).retrain = none ∧
      ((retraining 150000000).port 15).retrain ≠ none ∧
      ((retraining 150000000).port 15).retrainAt + 150000000 ≤ (retraining 150000000).time ∧
      (retraining 149999999).time < ((retraining 149999999).port 15).retrainAt + 150000000 := by decide +kernel

/-- A whole one-flit message that arrives on virtual channel 7. -/
def aFlit : Flit :=
  let m : Msg := { port := 15, vc := 7, dl := 1, dest := 5, src := 9, hops := 3, ord := false, ll := false, ty := 1, opening := false,
                   last := true, resend := false, poison := false, stream := 1, epoch := 0, seq := 4, addr := 0, len := 8, opx := 0,
                   status := 0, sent := 0, body := [1, 2, 3, 4, 5, 6, 7, 8] }
  { (msgFlits m).headD (blankFlit 1) with seq := 4095, crBuf := 15, crTotal := 4095 }

/-- Port 15 authenticated and expecting flit 4095. -/
def expecting : State := portAt 8 0 (fun t => { t with rxSeq := 4095 })

/-- The same port once the flit's header has acted. -/
def expecting2 : State :=
  (expecting.onPort 15 (fun t => { t with crTot := t.crTot.set 15 4095 })).onPort 15 (fun t =>
    { t with rxSeq := 0, rxAny := true, nakAt := none })

/-- The hypotheses of FlitsMoveAndPortsAreQuarantined are met. -/
theorem witness_Flits_in :
    5 ≤ (portAt 11 0 id).pst 15 ∧ (portAt 11 0 id).pst 15 ≤ 11 ∧ expecting.linkUp 15 = true ∧ aFlit.vc < 8 ∧ aFlit.dl < 2 ∧
      (expecting.port 15).nakAt = none ∧ aFlit.crcOk = true ∧ aFlit.ackV = false ∧ expecting.pst 15 = 8 ∧
      aFlit.seq % 4096 = (expecting.port 15).rxSeq ∧ aFlit.som = true ∧ aFlit.eom = true ∧ expecting2.flitCause 15 aFlit = 0 ∧
      (expecting.port 15).partials.find? (fun x => x.1 == aFlit.vc) = none ∧ (parseMsg 15 7 1 aFlit.payload).ty ≠ 0xF1 ∧
      ({ aFlit with seq := 4094 }.seq % 4096 ≠ (expecting.port 15).rxSeq ∧
        ((expecting.port 15).rxSeq + 4096 - { aFlit with seq := 4094 }.seq % 4096) % 4096 < 2048) ∧
      ({ aFlit with ty := 0 }.rsvd0 = true ∧ { aFlit with ty := 0 }.ty = 0) := by decide +kernel

/-- Port 15 with two flits of its replay buffer not yet acknowledged. -/
def unacked (t : Nat) : State :=
  portAt 8 t (fun q => { q with replay := [{ aFlit with seq := 4095 }, { aFlit with seq := 0 }], txSeq := 1, stale := 2 })

/-- Port 15 with a message of virtual channel 1 waiting. -/
def sendable : State :=
  let m : Msg := parseMsg 16 1 0 aFlit.payload
  { portAt 8 0 (fun q => { q with vcq := [⟨m, msgFlits m, false⟩] }) with
    regs := ((portAt 8 0 id).fbitSet FAB_LIVE.PORTS 0 0 15 true).regs, ports := [(15, { vcq := [⟨m, msgFlits m, false⟩] })] }

/-- The hypotheses of FlitsMoveAndPortsAreQuarantined are met. -/
theorem witness_Flits_out :
    (portAt 5 0 id).pst 15 = 5 ∧ ((portAt 6 0 id).port 15).ctrl = [] ∧ ({ blk := List.replicate 9 (blankFlit 0) } : Port).blk.length = 9 ∧
      (unacked 2000).linkUp 15 = true ∧ ((unacked 2000).port 15).replay.findIdx? (fun x => x.seq == 0) = some 1 ∧
      (∀ x ∈ ((unacked 2000).port 15).resend, x.seq ≠ 0) ∧ ((unacked 2000).port 15).replay ≠ [] ∧
      ((unacked 2000).port 15).progressAt + 2000 ≤ (unacked 2000).time ∧
      (unacked 1999).time < ((unacked 1999).port 15).progressAt + 2000 ∧
      ((portAt 8 1000 (fun q => { q with nakAt := some 0 })).port 15).nakAt = some 0 ∧
      ((portAt 6 0 (fun q => { q with ctrl := [(2, 0), (3, 0)] })).port 15).ctrl = (2, 0) :: [(3, 0)] ∧
      (portAt 6 0 (fun q => { q with ctrl := [(2, 0), (3, 0)] })).pst 15 = 6 ∧
      ((sendable.port 15).ctrl = [] ∧ sendable.linkUp 15 = true ∧ (sendable.port 15).sinceIdle < 2047 ∧ sendable.pst 15 ≠ 9 ∧
        (sendable.port 15).resend = [] ∧ (sendable.eligible 15 1).isSome = true) ∧
      ((portAt 7 0 id).eligible 15 1 = none ∧ (portAt 7 0 id).eligible 15 0 = none ∧ (portAt 7 0 id).arbPick 15 = none) := by decide +kernel

/-- Port 15 quarantined. -/
def shut (st : Nat) : State := (portAt st 0 id).fset FAB_PORT_CTL.QUARANTINE 0 15 1

/-- The hypotheses of FlitsMoveAndPortsAreQuarantined are met. -/
theorem witness_Ports_quarantined :
    ((portAt 8 100000000 id).port 15).leakAt + max 1 ((portAt 8 100000000 id).fget FAB_PORT_TALLY_CTL.LEAK_MS 0 15) * 1000000 ≤
        (portAt 8 100000000 id).time ∧ base.portCtl (.vf 1 0) 15 true = false ∧ (portAt 8 0 id).portCtl .mgmt 15 true = true ∧
      (portAt 8 0 id).fget FAB_PORT_CTL.QUARANTINE 0 15 = 0 ∧ (portAt 8 0 id).linkUp 15 = true ∧
      (shut 9).portCtl .mgmt 15 true = true ∧ (shut 9).fget FAB_PORT_CTL.QUARANTINE 0 15 = 1 ∧ (shut 9).pst 15 = 9 ∧
      (portAt 11 0 id).linkUp 15 = true ∧ (portAt 11 0 id).pst 15 ≠ 9 ∧ (portAt 6 0 id).linkUp 15 = false := by decide +kernel

/-- A message for device address 4,095 × 256 + 255 that has come in on port 15 with some hops. -/
def passing (hops : Nat) : Msg := { parseMsg 15 7 1 aFlit.payload with dest := 1048575, hops := hops }

/-- A part at address 3 with a message in its inbox, port 15 live and the path of group 4,095. -/
def router (m : Msg) : State :=
  let s : State := ((((((portAt 8 0 id).fbitSet FAB_LIVE.PORTS 0 0 15 true).fset FAB_CTL.MAX_HOPS 0 0 16).fset FAB_GRP_TBL.VALID
    0 4095 1).fset FAB_GRP_TBL.PATH0 0 4095 15).fset FAB_ADDR.ADDR 0 0 3)
  { s with inbox := [m] }

/-- The hypotheses of MessagesRouteAndPortsAuthenticate are met. -/
theorem witness_Messages_route :
    base.privileged (.vf 1 0) = false ∧ base.privileged .mgmt = true ∧
      (base.locate .mgmt (FAB_GRP_TBL.VALID.addr 0 4095)).isSome = true ∧ FAB_GRP_TBL.VALID.addr 0 4095 % 4 = 0 ∧
      (passing 15).wf = true ∧ (router (passing 15)).inbox.contains (passing 15) = true ∧ (passing 15).ll = false ∧
      (passing 15).dest ≠ (router (passing 15)).fabAddr ∧
      (router (passing 16)).fget FAB_CTL.MAX_HOPS 0 0 < (passing 16).hops + 1 ∧
      (passing 15).hops + 1 ≤ (router (passing 15)).fget FAB_CTL.MAX_HOPS 0 0 ∧
      (((router (passing 15)).takeMsg (passing 15)).routed { passing 15 with hops := (passing 15).hops + 1 }).2 = true := by decide +kernel

/-- A link-local message in the inbox of port 15 under authentication, this side done or not. -/
def authing (m : Msg) (mine : Bool) (t : Nat) : State :=
  { (portAt 7 t (fun q => { q with selfOk := mine })).fset FAB_PORT_EXPECT.ADDR 0 15 9 with inbox := [m] }

/-- The partner's HELLO: its port 0, both flags as given, system 0. -/
def helloMsg (flag sys : Nat) : Msg := linkMsg 15 9 0xF0 (natLE 1 0 ++ natLE 1 flag ++ natLE 2 0 ++ natLE 4 sys)

/-- An SPDM message. -/
def spdmMsg : Msg := linkMsg 15 9 0xF1 (natLE 2 8 ++ natLE 2 0)

/-- The hypotheses of MessagesRouteAndPortsAuthenticate are met. -/
theorem witness_Ports_hello :
    (helloMsg 1 0).wf = true ∧ (authing (helloMsg 1 0) true 0).inbox.contains (helloMsg 1 0) = true ∧ (helloMsg 1 0).ll = true ∧
      (helloMsg 1 0).port < 16 ∧ (authing (helloMsg 1 0) true 0).pst 15 = 7 ∧ (helloMsg 1 0).ty = 0xF0 ∧
      (leNat (((helloMsg 1 0).body.drop 4).take 4) = (authing (helloMsg 1 0) true 0).fget FAB_SYS_ID.SYS_ID 0 0 ∧
        (helloMsg 1 0).src ≠ (authing (helloMsg 1 0) true 0).fabAddr ∧
        (helloMsg 1 0).src = (authing (helloMsg 1 0) true 0).fget FAB_PORT_EXPECT.ADDR 0 15 ∧
        leNat ((helloMsg 1 0).body.take 1) % 16 = (authing (helloMsg 1 0) true 0).fget FAB_PORT_EXPECT.PARTNER_PORT 0 15) ∧
      ((authing (helloMsg 1 0) true 0).port 15).selfOk = true ∧
      (leNat (((helloMsg 1 0).body.drop 1).take 1)).testBit 0 = true ∧ (authing (helloMsg 1 0) true 0).cruiseAt = none ∧
      leNat (((helloMsg 1 7).body.drop 4).take 4) ≠ (authing (helloMsg 1 7) true 0).fget FAB_SYS_ID.SYS_ID 0 0 ∧
      (authing spdmMsg false 0).inbox.contains spdmMsg = true ∧ spdmMsg.wf = true ∧ spdmMsg.ty = 0xF1 ∧
      (authing spdmMsg false 0).pst 15 = 7 ∧ (authing spdmMsg false 0).cruiseAt = none ∧
      ((portAt 7 1000000 id).port 15).helloAt + 1000000 ≤ (portAt 7 1000000 id).time ∧
      ((portAt 7 2000000000 id).port 15).authAt + 2000000000 ≤ (portAt 7 2000000000 id).time ∧
      (portAt 11 10000000000 id).pst 15 = 11 ∧
      ((portAt 11 10000000000 id).port 15).authAt + 10000000000 ≤ (portAt 11 10000000000 id).time := by decide +kernel

/-- A cruise runs at a time, its probe 6 over path 3 of group entry 4,095 outstanding since 0; a message waits. -/
def cruising (m : Msg) (t : Nat) : State :=
  { router m with time := t, cruiseAt := some 0, probes := [⟨6, true, 4095, 3, 15, 1048575, 0, false⟩] }

/-- A probe of part 9 to this one, or its reply. -/
def probeIn (ty : Nat) : Msg := { linkMsg 15 9 ty (natLE 4 6) with ll := false, dest := 3 }

/-- The hypotheses of MessagesRouteAndPortsAuthenticate are met. -/
theorem witness_Ports_cruise :
    (probeIn 0xF2).wf = true ∧ (router (probeIn 0xF2)).inbox.contains (probeIn 0xF2) = true ∧ (probeIn 0xF2).ll = false ∧
      (probeIn 0xF2).dest = (router (probeIn 0xF2)).fabAddr ∧
      (cruising (probeIn 0xF3) 100000).probes.find? (fun x => x.id == leNat ((probeIn 0xF3).body.take 4) && !x.answered) =
        some ⟨6, true, 4095, 3, 15, 1048575, 0, false⟩ ∧ (cruising (probeIn 0xF3) 100000).cruiseAt ≠ none ∧
      (cruising (probeIn 0xF3) 100000).time ≤ 0 + 100000 ∧ 0 + 100000 < (cruising (probeIn 0xF3) 100001).time ∧
      (cruising (probeIn 0xF3) 100000).inbox.contains (probeIn 0xF3) = true ∧
      (probeIn 0xF3).dest = (cruising (probeIn 0xF3) 100000).fabAddr ∧
      base.reaches .mgmt FAB_CRUISE_CTL.START 0 0 = true ∧ base.fget FAB_CRUISE_STATUS.RUNNING 0 0 = 0 ∧
      base.reaches (.vf 1 0) FAB_CRUISE_CTL.START 0 0 = false := by decide +kernel

/-- A part in a phase, its rails up, the boot state as given. -/
def inPhase (n : Nat) (b : Boot) : State :=
  { (base.fset BOOT_STATUS.PHASE 0 0 n).fset PKG_SEQ.STAGE 0 0 4 with boot := b }

/-- `inPhase` with fuses that do not pass their CRC. -/
def badFuses : State := { inPhase 2 { vaon := true, ao := true } with fuses := { crcOk := false } }

/-- The hypotheses of BringUpGoesPhaseByPhase are met. -/
theorem witness_Boot_1 :
    (inPhase 0 {}).boot.vaon = false ∧ ((inPhase 1 { vaon := true }).boot.vaon = true ∧ (inPhase 1 { vaon := true }).boot.ao = false ∧
        (inPhase 1 { vaon := true }).phase = 1) ∧
      ((inPhase 2 { vaon := true, ao := true, warm := true }).boot.ao = true ∧ (inPhase 2 { vaon := true, ao := true, warm := true }).phase = 2 ∧
        (inPhase 2 { vaon := true, ao := true, warm := true }).fget PKG_SEQ.STAGE 0 0 = 4 ∧
        (inPhase 2 { vaon := true, ao := true, warm := true }).fuses.crcOk = true) ∧
      (badFuses.boot.ao = true ∧ badFuses.phase = 2 ∧ badFuses.boot.warm = false ∧ badFuses.fuses.crcOk = false) ∧
      ((inPhase 3 {}).phase = 3 ∧ (inPhase 3 {}).fget PKG_SEQ.STAGE 0 0 = 4 ∧ (inPhase 3 {}).boot.restarting = false) ∧
      (inPhase 4 { warm := true }).phase = 4 ∧ (inPhase 5 {}).phase = 5 ∧ (inPhase 5 {}).inited 0x30000000000 = true ∧
      (inPhase 5 {}).inited (2 ^ 39) = false := by decide +kernel

/-- Phase 8 or later with time in it, a host link up. -/
def later (n t : Nat) (b : Boot) : State := { inPhase n b with time := t, pkg := { base.pkg with hostUp := [16, 0] } }

/-- Phase 9, weight load under way: one blob, of external entry 0, is left of two. -/
def loading : State :=
  { (later 9 0 { blobs := [3] }).fset BOOT_STATUS.WLOAD 0 0 1 with
    img := { base.img with blobs := [(3, [0, 0, 0, 0, 64, 960]), (65535, [0, 0, 0, 64, 64, 1024]), (65536, [])] } }

/-- A cruise runs at READY and every probe is answered. -/
def cruised : State := { later 12 0 {} with cruiseAt := some 0, probes := [⟨0, true, 4095, 3, 15, 1048575, 0, true⟩] }

/-- The hypotheses of BringUpGoesPhaseByPhase are met. -/
theorem witness_Boot_2 :
    (inPhase 7 {}).phase = 7 ∧ (inPhase 7 {}).pkg.hostUp.all (· == 0) = true ∧ (later 8 0 {}).phase = 8 ∧
      (later 8 0 {}).enabledPorts.all (later 8 0 {}).linkUp = true ∧
      (later 8 0 { phaseAt := 5 }).boot.phaseAt + 800000000 ≤ (later 8 800000005 { phaseAt := 5 }).time ∧
      (cruised.cruiseAt ≠ none ∧ cruised.phase ≠ 9 ∧ cruised.probes.all (·.answered) = true) ∧
      (loading.wholeBlobs.find? (fun x => x.1 == 65535) = some (65535, [0, 0, 0, 64, 64, 1024]) ∧
        loading.fget BOOT_STATUS.WLOAD 0 0 = 1 ∧ loading.boot.blobs.contains 65535 = false ∧
        loading.blobLenOk [0, 0, 0, 64, 64, 1024] = true ∧ loading.boot.blobs.length + 1 = loading.wholeBlobs.length) ∧
      (later 11 0 {}).boot.loaded = false ∧ (later 11 0 { loaded := true }).boot.loaded = true ∧ (later 11 0 { loaded := true }).phase = 11 := by decide +kernel

/-- The hypotheses of BringUpGoesPhaseByPhase are met. -/
theorem witness_Boot_3 :
    base.bootCtl (.vf 1 0) = false ∧ base.bootCtl .mgmt = true ∧ (inPhase 6 {}).bootCtl .mgmt = true ∧ 3 ≤ (inPhase 6 {}).phase ∧
      (inPhase 6 {}).phase < 15 ∧ (inPhase 2 {}).bootCtl .mgmt = true ∧ (inPhase 2 {}).phase < 3 ∧ (inPhase 14 {}).phase = 14 ∧
      (inPhase 14 { loaded := true }).boot.loaded = true ∧ (inPhase 14 {}).bootCtl .mgmt = true ∧
      (inPhase 12 { vaon := true }).boot.vaon = true ∧ (inPhase 12 { vaon := true }).boot.inReset = false := by decide +kernel

/-- The always-on domain runs; the power manager as given. -/
def warmPart (w : Power) : State := { base with boot := { base.boot with ao := true, vaon := true }, power := w }

/-- The hypotheses of ThermalLimitsActOnTheirDomains are met. -/
theorem witness_Thermal_samples :
    base.boot.ao = false ∧ (warmPart {}).boot.ao = true ∧ ((warmPart {}).sensor 751).ignored = false ∧
      (warmPart {}).implausible (1361 + 4 * Tbl.get 0 (warmPart {}).fuses.trims 751) = none ∧ (warmPart {}).stackBand 23 < 4 := by decide +kernel

/-- Hot spot `k` has a value. -/
def hotSpot (k : Nat) (x : Int) : State := warmPart { spots := [(k, { value := x })] }

/-- Hot spot 287 is at its warning threshold and its domain in warning. -/
def warned35 : State := { hotSpot 287 1360 with power := { (hotSpot 287 1360).power with warned := [35] } }

/-- Domain 59 is in throttle, its hot spot 375 at a value, its stack's cap as given. -/
def throttled59 (x : Int) (cap thr : Nat) : State :=
  { ((hotSpot 375 x).fset PWR_STK_CAP.CAP 0 23 cap).fset PWR_STK_CAP.THROTTLED 0 23 thr with
    power := { (hotSpot 375 x).power with throttled := if thr = 1 then [59] else [] } }

/-- The hypotheses of ThermalLimitsActOnTheirDomains are met. -/
theorem witness_Thermal_limits :
    (spotDomain 287 = 35 ∧ (hotSpot 287 1360).power.warned.contains 35 = false ∧ warnAt 35 ≤ ((hotSpot 287 1360).spot 287).value) ∧
      warned35.power.warned.contains 35 = true ∧ ((hotSpot 287 1359).spot 287).value < warnAt 35 ∧
      (spotDomain (607 / 2) = 19 ∧ (16 ≤ spotDomain (607 / 2) ∧ spotDomain (607 / 2) < 20) ∧ (warmPart {}).seen 607 1632 = some 1632 ∧
        throttleAt 19 ≤ 1632 ∧ (warmPart {}).power.throttled.contains 19 = false) ∧
      (spotDomain (751 / 2) = 59 ∧ (warmPart {}).seen 751 1519 = some 1519 ∧ (1519 : Int) < throttleAt 59) ∧
      (warmPart { sensors := [(751, { ignored := true })] }).seen 751 1600 = none ∧
      (throttled59 1520 97 1).fget PWR_STK_CAP.CAP 0 23 < 512 ∧ (throttled59 1520 97 1).fget PWR_STK_CAP.THROTTLED 0 23 = 1 ∧
      (∃ d ∈ (throttled59 1520 97 1).power.throttled, 23 ∈ throttleStacks d ∧ throttleAt d ≤ (throttled59 1520 97 1).domainTemp d) ∧
      (∀ d ∈ (throttled59 1519 97 1).power.throttled, 23 ∈ throttleStacks d → (throttled59 1519 97 1).domainTemp d < throttleAt d) ∧
      ((throttled59 0 165 0).fget PWR_STK_CAP.THROTTLED 0 23 = 0 ∧ (throttled59 0 165 0).fget PWR_MODE.MODE 0 0 ≠ 2 ∧
        (throttled59 0 165 0).fget PWR_STK_CAP.CAP 0 23 ≠ 0 ∧
        8 * ((throttled59 0 165 0).fget PWR_STK_CAP.CAP 0 23 + 5) < bandRate ((throttled59 0 165 0).stackBand 23) ∧
        (throttled59 0 165 0).fget PWR_STK_CAP.CAP 0 23 ≠ 189) := by decide +kernel

/-- The trip latched, the domains at 0 °C, or hot spot 375 at 82 °C. -/
def tripped (x : Int) : State :=
  { (hotSpot 375 x).fset PWR_TRIP.LATCHED 0 0 1 with pkg := { base.pkg with trip := true } }

/-- The hypotheses of ThermalLimitsActOnTheirDomains are met. -/
theorem witness_Thermal_trip :
    (spotDomain (751 / 2) = 59 ∧ (warmPart {}).seen 751 1680 = some 1680 ∧ (warmPart {}).pkg.trip = false ∧ shutdownAt 59 ≤ 1680) ∧
      (1679 : Int) < shutdownAt 59 ∧ (tripped 0).pkg.trip = true ∧
      ((tripped 1311).privileged .mgmt = true ∧ (tripped 1311).reaches .mgmt PWR_TRIP.RELEASE 0 0 = true ∧
        (tripped 1311).fget PWR_TRIP.LATCHED 0 0 ≠ 0 ∧ (tripped 1311).power.flowStop = false ∧
        ∀ d ∈ List.range 60, (tripped 1311).domainTemp d < warnAt d - hysteresis d) ∧
      ¬ ((tripped 1312).domainTemp 59 < warnAt 59 - hysteresis 59) ∧ (tripped 1311).boot.vaon = true ∧
      (tripped 1311).boot.inReset = false ∧ base.privileged (.vf 1 0) = false := by decide +kernel

/-- Management is up in READY; tower 0 runs an instance, or a suspended one, with the power manager as given. -/
def managed (w : Power) : State :=
  { (atOp 0 []) with boot := { base.boot with mgmtUp := true, ao := true, vaon := true }, power := w }

/-- `managed` with segment 0 failed. -/
def failedSeg (w : Power) : State := { managed w with pkg := { base.pkg with segBad := 1 } }

/-- A hot spot that has risen fast for some evaluations. -/
def risen (n : Nat) : Spot :=
  { hist := List.replicate 10 1600, avgs := [0, 0, 0, 0], high := n }

/-- A hot spot whose rate is 4.9 °C/s. -/
def calm : Spot := { hist := List.replicate 9 0 ++ [3], avgs := [0, 0, 0, 0] }

/-- The hypotheses of ClocksPowerAndCoolantAreManaged are met. -/
theorem witness_Clocks_targets :
    (managed {}).boot.mgmtUp = true ∧ (managed {}).phase ≠ 15 ∧ (managed { rateTrip := true }).towerRuns 0 = true ∧
      (managed {}).towerRuns 15 = false ∧ (managed {}).segFailed 0 = false ∧ (failedSeg {}).segFailed 0 = true ∧
      (failedSeg {}).towerRuns 0 = true ∧ (managed { rateTrip := true }).power.rateTrip = true ∧
      ((managed {}).cap.1 < (5000 :: List.replicate 15 0).sum + (managed {}).otherPower / 10 ∧ (managed {}).towerBusy 0 = true) ∧
      (3916 :: List.replicate 15 0).sum + (managed {}).otherPower / 10 = (managed {}).cap.1 ∧
      ((List.replicate 16 0).sum + (managed {}).otherPower / 10 < (managed {}).cap.1 ∧
        ({ managed { duty := [(15, 6)] } with time := 100000 }).power.dutyAt + 100000 ≤
          ({ managed { duty := [(15, 6)] } with time := 100000 }).time) ∧
      ((managed {}).fget PWR_COOLANT.INLET_VALID 0 0 = 0 ∧ ((managed {}).fset PWR_RTH.EST 0 0 15001).power.cooling = false ∧
        5 * ((managed {}).fset PWR_RTH.EST 0 0 15001).fget PWR_RTH.NOM 0 0 <
          4 * ((managed {}).fset PWR_RTH.EST 0 0 15001).fget PWR_RTH.EST 0 0) ∧
      ((managed { cooling := true }).power.cooling = true ∧
        5 * ((managed { cooling := true }).fset PWR_RTH.EST 0 0 14400).fget PWR_RTH.EST 0 0 ≤
          6 * ((managed { cooling := true }).fset PWR_RTH.EST 0 0 14400).fget PWR_RTH.NOM 0 0) := by decide +kernel

/-- The hypotheses of ClocksPowerAndCoolantAreManaged are met. -/
theorem witness_Clocks_rate :
    (managed { spots := [(375, risen 19)] }).power.rateTrip = false ∧
      (∃ e ∈ (managed { spots := [(375, risen 19)] }).power.spots, 20 ≤ e.2.evaluate.high) ∧
      (∀ e ∈ (managed { spots := [(375, risen 18)] }).power.spots, e.2.evaluate.high < 20) ∧
      (∀ e ∈ (managed { rateTrip := true, spots := [(375, calm)] }).power.spots, e.2.evaluate.rate < 80) ∧
      ({ managed { rateTrip := true, spots := [(375, calm)], calmSince := some 0 } with time := 1000000000 }).power.calmSince = some 0 ∧
      0 + 1000000000 ≤ ({ managed { rateTrip := true, spots := [(375, calm)], calmSince := some 0 } with time := 1000000000 }).time ∧
      (managed { rateTrip := true, spots := [(375, calm)], calmSince := some 0 }).power.flowStop = false := by decide +kernel

/-- Tower 15 with a target and a current clock. -/
def clockAt (n c : Nat) (w : Power) : State := ((managed w).fset PWR_TOWER_CLK.TARGET 0 15 n).fset PWR_TOWER_CLK.CURRENT 0 15 c

/-- Tower 15, on a failed segment, is to go slower. -/
def slower : State := { clockAt 19 20 {} with pkg := { base.pkg with segBad := 8 } }

/-- Tower 15's voltage settles at 50 µs. -/
def settling (t : Nat) : State := { clockAt 20 19 { settleAt := [(15, some 50000)] } with time := t }

/-- The hypotheses of ClocksPowerAndCoolantAreManaged are met. -/
theorem witness_Clocks_switch :
    (clockAt 19 20 {}).fget PWR_TOWER_CLK.TARGET 0 15 < (clockAt 19 20 {}).fget PWR_TOWER_CLK.CURRENT 0 15 ∧
      (slower.segFailed 15 = true ∧ slower.fget PWR_TOWER_CLK.TARGET 0 15 < slower.fget PWR_TOWER_CLK.CURRENT 0 15) ∧
      (settling 50000).fget PWR_TOWER_CLK.CURRENT 0 15 < (settling 50000).fget PWR_TOWER_CLK.TARGET 0 15 ∧
      (settling 50000).fget PWR_TOWER_CLK.TARGET 0 15 < 32 ∧
      (settling 50000).segFailed 15 = false ∧ Tbl.get none (settling 50000).power.settleAt 15 = some 50000 ∧
      50000 ≤ (settling 50000).time ∧ (settling 49999).time < 50000 := by decide +kernel

/-- The hypotheses of ClocksPowerAndCoolantAreManaged are met. -/
theorem witness_Coolant :
    (managed {}).inletOf (some (0x06, 0x40)) = some 1600 ∧ (managed {}).inletOf (some (0x06, 0x41)) = none ∧
      (managed {}).inletOf (some (0xFE, 0xC0)) = some (-320) ∧ (managed {}).inletOf none = none ∧
      2 ≤ (managed { inletFails := 2 }).power.inletFails ∧ (managed { inletFails := 2 }).power.inletLost = false ∧
      (managed { inletFails := 1 }).power.inletFails < 2 ∧ (managed { inletFails := 1 }).boot.mgmtUp = true ∧
      ({ managed {} with time := 200000000 }).power.flowStop = false ∧
      ({ managed {} with time := 200000000 }).power.lastPulse + 200000000 ≤ ({ managed {} with time := 200000000 }).time := by decide +kernel

/-- A FORECAST of one decode phase: 200 ms, 1,000 W, tower 0. -/
def forecastCmd : State := holding (pack [(0, 11), (16, 1), (24, 200), (26, 1), (27, 20), (28, 1)]) .started

/-- Partition 0's accepted forecast of one phase. -/
def forecasting : State :=
  (managed {}).onPart 0 (fun q => { q with forecast := [(200, 1, 20, 1)], forecastAt := 200000, accepted := true })

/-- The hypotheses of ClocksPowerAndCoolantAreManaged are met. -/
theorem witness_Forecasts :
    forecastCmd.Startable 11 0 0 (forecastCmd.execOf 0 0) ∧ (forecastCmd.power.rateTrip = false ∧ forecastCmd.power.cooling = false ∧
        forecastCmd.fget PWR_MODE.MODE 0 0 ≠ 3) ∧ (managed {}).forecastAt 15 ((managed {}).time + 200000) = none ∧
      forecasting.forecastAt 0 (forecasting.time + 200000) = some (200, 1, 20, 1) ∧
      forecasting.expected (forecasting.time + 200000) ≤ forecasting.cap.1 - forecasting.outside (forecasting.time + 200000) ∧
      0 ∈ forecasting.partTowers 0 := by decide +kernel

/-- Tile 3 in a power state, the time given. -/
def tileAt (w : Tile) (t : Nat) : State := { (managed {}) with parts := [], tiles := [(3, w)], time := t }

/-- The hypotheses of SleepStatesRailsAndVaonAct are met. -/
theorem witness_Sleep_tiles :
    (3 ∈ (tileAt { wakeAt := some 10 } 10).partTiles 0 ∧ ((tileAt { wakeAt := some 10 } 10).tile 3).wakeAt = some 10 ∧
        10 ≤ (tileAt { wakeAt := some 10 } 10).time) ∧ (tileAt { wakeAt := some 10 } 9).time < 10 ∧
      63 ∉ (tileAt { wakeAt := some 10 } 10).partTiles 0 ∧
      (((tileAt { power := .gated } 100000).tile 3).power = .gated ∧ ((tileAt { power := .gated } 100000).tile 3).wakeAt = none ∧
        (tileAt { power := .gated } 100000).tileBusy 3 = false ∧ ((tileAt { power := .gated } 100000).tile 3).since +
          1000 * (tileAt { power := .gated } 100000).fget PWR_SLEEP_CTL.RET_US 0 0 ≤ (tileAt { power := .gated } 100000).time) ∧
      (((tileAt { power := .retention } 65535000000).fset PWR_SLEEP_CTL.OFF_MS 0 0 65535).fget PWR_SLEEP_CTL.OFF_MS 0 0 ≠ 0 ∧
        (((tileAt { power := .retention } 65535000000).fset PWR_SLEEP_CTL.OFF_MS 0 0 65535).tile 3).power = .retention ∧
        0 + 1000000 * ((tileAt { power := .retention } 65535000000).fset PWR_SLEEP_CTL.OFF_MS 0 0 65535).fget
          PWR_SLEEP_CTL.OFF_MS 0 0 ≤ ((tileAt { power := .retention } 65535000000).fset PWR_SLEEP_CTL.OFF_MS 0 0 65535).time) := by decide +kernel

/-- Nothing runs; the part's shown state, the entry under way and since when nothing runs. -/
def idleAt (st : Nat) (e : Option Nat) (t : Nat) : State :=
  { (managed { entering := e, idleSince := some 0 }).fset PWR_STATE_STATUS.STATE 0 0 st with parts := [], time := t }

/-- AUTO_IDLE after 1 ms. -/
def autoAt (t : Nat) : State := (idleAt 0 none t).fset PWR_STATE_CTL.AUTO_IDLE_MS 0 0 1

/-- A message is still on its way in. -/
def busyIn (s : State) : State := { s with recvCtx := [(0, { valid := true })] }

/-- The hypotheses of SleepStatesRailsAndVaonAct are met. -/
theorem witness_Sleep_parts :
    base.privileged (.vf 1 0) = false ∧ base.privileged .mgmt = true ∧ base.reaches .mgmt PWR_STATE_CTL.TARGET 0 0 = true ∧
      (idleAt 0 none 0).mayIdle = true ∧ (busyIn (idleAt 0 none 0)).mayIdle = false ∧
      (idleAt 0 none 0).fget PWR_STATE_STATUS.STATE 0 0 ≠ 2 ∧ (autoAt 0).fget PWR_STATE_CTL.AUTO_IDLE_MS 0 0 ≠ 0 ∧
      (autoAt 0).mayIdle = true ∧ (autoAt 0).power.idleSince = some 0 ∧
      0 + 1000000 * (autoAt 1000000).fget PWR_STATE_CTL.AUTO_IDLE_MS 0 0 ≤ (autoAt 1000000).time ∧
      (idleAt 0 (some 2) 0).power.entering = some 2 ∧ (idleAt 0 (some 2) 0).mayIdle = true ∧
      (busyIn (idleAt 0 (some 2) 0)).mayIdle = false ∧ (idleAt 2 none 0).fget PWR_STATE_STATUS.STATE 0 0 = 2 ∧
      (idleAt 2 none 0).pst 15 = 0 := by decide +kernel

/-- Every stage's enable and PG is up, on the VAON domain, at a time. -/
def powered (t : Nat) : State :=
  { (((managed {}).fset PKG_SEQ.EN 0 0 15).setPgs (2 ^ 29 - 1)) with time := t }

/-- AVSBus segment 3 has failed. -/
def lostSeg : State := { powered 0 with pkg := { (powered 0).pkg with segBad := 8 } }

/-- The hypotheses of SleepStatesRailsAndVaonAct are met. -/
theorem witness_Rails :
    (powered 0).faultRails (2 ^ 28 + 2 ^ 26) = [26, 28] ∧ (powered 0).faultRails 0 = [] ∧ railAvs 26 = some (3, 5) ∧
      (powered 0).boot.mgmtUp = true ∧ (powered 0).pkg.segBad.testBit 3 = false ∧ (powered 0).enabled (railStage 26) = true ∧
      lostSeg.pkg.segBad.testBit 3 = true := by decide +kernel

/-- Stages 0 to 3 are enabled and their PGs up, stage 4 is not; since when stage 3 is complete. -/
def stage3 (u : Option Nat) (t : Nat) : State :=
  let s : State := ((managed {}).fset PKG_SEQ.EN 0 0 7).setPgs (maskOf ((List.range 29).filter (fun r => railStage r != 4)))
  { s with time := t, pkg := { s.pkg with readyAt := u } }

/-- The enables are falling from stage 1 on, the last at time 0. -/
def falling (t : Nat) : State := { powered t with pkg := { (powered t).pkg with down := some (1, 0) } }

/-- Stage 4 is enabled since time 0 and rail 26 is not good, in phase 3. -/
def slowRail (t : Nat) : State := ((powered t).fset BOOT_STATUS.PHASE 0 0 3).setPgs (2 ^ 29 - 1 - 2 ^ 26)

/-- The hypotheses of SleepStatesRailsAndVaonAct are met. -/
theorem witness_Sequencing :
    base.boot.vaon = false ∧ (powered 0).boot.vaon = true ∧ (falling 1000000).pkg.down = some (1, 0) ∧
      0 + 1000000 ≤ (falling 1000000).time ∧ (falling 999999).time < 0 + 1000000 ∧
      ((stage3 none 5).pkg.down = none ∧ ((stage3 none 5).setPgs ((stage3 none 5).fget PKG_PG.PG 0 0)).nextStage = some 4 ∧
        ((stage3 none 5).setPgs ((stage3 none 5).fget PKG_PG.PG 0 0)).stageReady 4 = true ∧ (stage3 none 5).pkg.readyAt = none) ∧
      ((stage3 (some 5) 1000005).pkg.readyAt = some 5 ∧ 5 + 1000000 ≤ (stage3 (some 5) 1000005).time) ∧
      (railStage 26 = 4 ∧ (slowRail 10000000).enabled 4 = true ∧ (slowRail 10000000).fbit PKG_PG.PG 0 0 26 = false ∧
        (slowRail 10000000).pkg.enAt + 10000000 ≤ (slowRail 10000000).time ∧ (slowRail 10000000).phase ≠ 15 ∧
        (slowRail 10000000).isReady = false) := by decide +kernel

/-- Port 15 is up, its cable there. -/
def cabled : State := { (portAt 8 0 id).fset PKG_CABLE.PRSNT 0 0 0x8000 with boot := { base.boot with ao := true } }

/-- A part with a byte of last-level memory and one of host memory. -/
def filledPart : State := { powered 0 with mem := [(0x30000000000, 7), (2 ^ 64, 9)], calendar := 77 }

/-- The hypotheses of SleepStatesRailsAndVaonAct are met. -/
theorem witness_VaonAndCables :
    base.boot.ao = false ∧ (cabled.boot.ao = true ∧ cabled.fbit PKG_CABLE.PRSNT 0 0 15 = true ∧ Nat.testBit 0x7FFF 15 = false ∧
        cabled.linkUp 15 = true) ∧ filledPart.boot.vaon = true ∧
      ((powered 0).pkg.down = none ∧ (powered 0).enabled 4 = true) := by decide +kernel

/-- VAON is valid and management up; an update is open or not, its components verified, one under way or not. -/
def answering (u : Option Nat) (cs : List Nat) (st : Bool) : State :=
  { base with boot := { base.boot with vaon := true, mgmtUp := true }, mgmt := { update := u, comps := cs, staging := st } }

/-- The recovery firmware runs. -/
def recovering : State := (answering none [] false).fset MGMT_STATUS.RECOVERY 0 0 1

/-- The hypotheses of ManagementCommandsAnswer are met. -/
theorem witness_Mgmt_basic :
    base.boot.vaon = false ∧ recovering.fget MGMT_STATUS.RECOVERY 0 0 ≠ 0 ∧ (answering none [] false).boot.vaon = true ∧
      (answering none [] false).mgmt.update = none ∧ (answering (some 255) [1] false).mgmt.update ≠ none ∧
      (answering (some 255) [1] false).mgmt.staging = false ∧ (answering (some 255) [1] false).mgmt.comps.contains 1 = true ∧
      (answering (some 255) [] true).mgmt.staging = true := by decide +kernel

/-- Three entries in the log, the oldest of sequence number 7. -/
def logged : State :=
  let e (n : Nat) : LogEnt := ⟨0xFF, n, 0, 0, true, {}⟩
  { answering none [] false with mgmt := { flash := [e 7, e 8], buffered := [e 9] } }

/-- The part in HOLD, a partition key held. -/
def held15 : State := { logged with mgmt := { logged.mgmt with keys := [(0, 5)] } }.fset BOOT_STATUS.PHASE 0 0 15

/-- The hypotheses of ManagementCommandsAnswer are met. -/
theorem witness_Mgmt_full :
    (answering none [] false).fget MGMT_STATUS.RECOVERY 0 0 = 0 ∧ (answering none [] false).reading 92 = some [] ∧
      (answering none [] false).reading 93 = none ∧ ((answering none [] false).reading 128).isSome = true ∧
      (logged.mgmt.entries.map LogEnt.seq = [7, 8, 9] ∧ (logged.mgmt.entries.getLast?.map LogEnt.seq) = some 9) ∧
      logged.phase ≠ 15 ∧ held15.phase = 15 ∧ held15.boot.vaon = true ∧ held15.fget MGMT_STATUS.RECOVERY 0 0 = 0 ∧
      (held15.measurement 31).isSome = true ∧ ((answering none [] false).fset SEC_RNG_STATUS.VALID 0 0 0).fget SEC_RNG_STATUS.VALID 0 0 = 0 := by decide +kernel

/-- The calendar stands at 5 s and a fraction; the count armed for the next tick, if any. -/
def calAt (a : Option Nat) : State := { answering none [] false with calendar := 5 * 32768 + 32767, mgmt := { setArmed := a } }

/-- The hypotheses of RandomClockAndLedgerAnswer are met. -/
theorem witness_Random_clock :
    base.reaches .mgmt SEC_RNG.VALUE 0 0 = true ∧ base.reaches (.vf 1 0) SEC_RNG.VALUE 0 0 = false ∧
      base.reaches .mgmt MGMT_DBG_CHALLENGE.CHALLENGE 0 0 = true ∧ (calAt none).reaches .mgmt RTC_SECONDS.SECONDS 0 0 = true ∧
      base.reaches .mgmt RTC_CTL.SET 0 0 = true ∧ base.privileged .mgmt = true ∧ base.privileged (.vf 1 0) = false ∧
      (base.fset SEC_RNG_STATUS.VALID 0 0 1).fget SEC_RNG_STATUS.VALID 0 0 ≠ 0 ∧ base.fget SEC_RNG_STATUS.VALID 0 0 = 0 ∧
      (calAt (some 9)).mgmt.setArmed = some 9 ∧ base.boot.vaon = false ∧ (calAt none).boot.vaon = true := by decide +kernel

/-- Page 5's entry with counts and flags; a thread may wait for a pin, the page may be marked to drop. -/
def pageAt (ref pin flags : Nat) (h : List (Nat × Nat)) (d : List (Nat × Nat × Nat × Nat × Nat)) : State :=
  { (paged base false).poke (t1At 0 0x100050) (Led.bytes ⟨ref, pin, flags, 0, 0, 0⟩) with pinHeld := h, dropLater := d }
/-- Page 5, pinned once more, is to be dropped then; entry 0 of slot 0's table names it. -/
def toDrop : State := (pageAt 1 1 3 [] [(5, 0, 0, 0, 0)]).setPte 0 0 0 0 (pteOf 5)

/-- The hypotheses of RandomClockAndLedgerAnswer are met. -/
theorem witness_Ledger :
    (pageAt 1 0 0 [] []).ledBad 5 = false ∧ ((pageAt 1 0 0 [] []).led 5).valid = false ∧ ((pageAt 1 0 1 [] []).led 5).valid = true ∧
      ((pageAt 1 0 9 [] []).led 5).dropped = true ∧
      (((pageAt 1 0xFFFF 1 [] []).led 5).dropped = false ∧ ((pageAt 1 0xFFFF 1 [] []).led 5).pin = 0xFFFF) ∧
      ((pageAt 0xFFFF 0xFFFE 1 [] []).led 5).pin ≠ 0xFFFF ∧ ((pageAt 0xFFFF 0xFFFE 1 [] []).led 5).ref = 0xFFFF ∧
      (pageAt 1 0xFFFF 1 [(5, 9)] []).pinHeld.find? (fun h => h.1 == 5) = some (5, 9) ∧
      (((pageAt 0 1 1 [] []).led 5).pin = 1 ∧ ((pageAt 0 1 1 [] []).led 5).ref = 0 ∧
        (pageAt 0 1 1 [] []).pinHeld.find? (fun h => h.1 == 5) = none) ∧
      (pageAt 1 0 0 [] []).merge = [] ∧ (∀ w ∈ wordsOf ((pageAt 1 0 0 [] []).cls ((pageAt 1 0 0 [] []).ledAt 5)) ((pageAt 1 0 0 [] []).ledAt 5) 16,
        (pageAt 1 0 0 [] []).verd w = .clean) ∧ toDrop.dropLater.find? (fun x => x.1 == 5) = some (5, 0, 0, 0, 0) ∧ (toDrop.led 5).pin = 1 ∧
      pteValid ((toDrop.setLed 5 { toDrop.led 5 with pin := 0 }).pte 0 0 0 0) = true ∧
      ptePage ((toDrop.setLed 5 { toDrop.led 5 with pin := 0 }).pte 0 0 0 0) = 5 ∧ (toDrop.led 5).ref ≠ 0 ∧
      (((pageAt 1 0 1 [] []).led 5).ref = 1 ∧ ((pageAt 1 0 1 [] []).led 5).pin = 0) ∧ 2 ≤ ((pageAt 2 0 1 [] []).led 5).ref := by decide +kernel

end Sys2Proof.Tests
end

section
/-!
SUPPORT. Register access: what a written field becomes by its access code, what a write or a read of a whole register does,
and what an access that reaches no register leaves; and the machine after reset.
-/

namespace Sys2Proof.Machine

section Fields

variable (s : State) (who : Accessor) (f : Field) (u i v : Nat)

/-- A read-write field's new value is written in the register file as by a plain write (R254 adds no register). -/
@[simp] theorem State.setRw_regs : (s.setRw f u i v).regs = (s.fset f u i v).regs := by
  unfold State.setRw
  split <;> simp

/-- A read-write field holds what it was set to, truncated to its width. -/
@[simp] theorem State.fget_setRw_same : (s.setRw f u i v).fget f u i = v % 2 ^ f.w := by
  rw [State.fget_congr (State.setRw_regs ..), State.fget_fset_same]

/-- A field that the accessor may not write keeps its value, and so does all else. -/
theorem State.writeField_of_not_mayWrite (h : s.mayWrite who f = false) : s.writeField who f u i v = s := by
  simp [State.writeField, h]

/-- No write changes an RO, RC or WO field. -/
theorem State.writeField_of_readOnly (h : f.acc = .ro ∨ f.acc = .rc ∨ f.acc = .wo) : s.writeField who f u i v = s := by
  rcases h with h | h | h <;> simp [State.writeField, h]

/-- FAB_PORT_CTL.QUARANTINE is written by a command of its own. -/
theorem State.writeField_quarantine : s.writeField who FAB_PORT_CTL.QUARANTINE u i v = s := by
  simp [State.writeField, FAB_PORT_CTL.QUARANTINE]

variable {s who f}

/-- A written RW field takes its bits. -/
theorem State.writeField_rw (hm : s.mayWrite who f = true) (h : f.acc = .rw) :
    s.writeField who f u i v = s.setRw f u i (v / 2 ^ f.lo % 2 ^ f.w) := by
  simp [State.writeField, hm, h]

/-- A written W1C field loses the bits that are set. -/
theorem State.writeField_w1c (hm : s.mayWrite who f = true) (h : f.acc = .w1c) :
    s.writeField who f u i v = s.fset f u i (s.fget f u i - (s.fget f u i &&& v / 2 ^ f.lo % 2 ^ f.w)) := by
  simp [State.writeField, hm, h]

/-- A written W1S field gains the bits that are set. -/
theorem State.writeField_w1s (hm : s.mayWrite who f = true) (h : f.acc = .w1s) (hq : f ≠ FAB_PORT_CTL.QUARANTINE) :
    s.writeField who f u i v = s.fset f u i (s.fget f u i ||| v / 2 ^ f.lo % 2 ^ f.w) := by
  simp [State.writeField, hm, h, hq]

/-- A written RWL field takes its bits; the seal is the register write's to respect. -/
theorem State.writeField_rwl (hm : s.mayWrite who f = true) (h : f.acc = .rwl) :
    s.writeField who f u i v = s.fset f u i (v / 2 ^ f.lo % 2 ^ f.w) := by
  simp [State.writeField, hm, h]

variable (s who f)

/-- Writing a field changes the register file nowhere, or at that field's place. -/
theorem State.writeField_regs_cases :
    (s.writeField who f u i v).regs = s.regs ∨ ∃ x, (s.writeField who f u i v).regs = (s.fset f u i x).regs := by
  cases hm : s.mayWrite who f with
  | false => exact .inl (by rw [State.writeField_of_not_mayWrite s who f u i v hm])
  | true =>
    cases ha : f.acc with
    | ro | rc | wo => exact .inl (by rw [State.writeField_of_readOnly s who f u i v (by simp [ha])])
    | rw => exact .inr ⟨_, by rw [State.writeField_rw u i v hm ha, State.setRw_regs]⟩
    | w1c => exact .inr ⟨_, by rw [State.writeField_w1c u i v hm ha]⟩
    | rwl => exact .inr ⟨_, by rw [State.writeField_rwl u i v hm ha]⟩
    | w1s =>
      by_cases hq : f = FAB_PORT_CTL.QUARANTINE
      · exact .inl (by rw [hq, State.writeField_quarantine])
      · exact .inr ⟨_, by rw [State.writeField_w1s u i v hm ha hq]⟩

/-- Writing a field leaves every field at another place as it was. -/
theorem State.fget_writeField_ne {g : Field} {u' i' : Nat} (h : g.key u' i' ≠ f.key u i) :
    (s.writeField who f u i v).fget g u' i' = s.fget g u' i' := by
  rcases State.writeField_regs_cases s who f u i v with e | ⟨x, e⟩
  · exact State.fget_congr e g u' i'
  · rw [State.fget_congr e, State.fget_fset_ne s h]

/-- Writing a field touches no memory. -/
theorem State.writeField_memory : (s.writeField who f u i v).mem = s.mem ∧ (s.writeField who f u i v).chk = s.chk := by
  obtain ⟨hmem, hchk, -, -⟩ := State.writeField_keeps (within_opened _ s) s who f u i v (.refl _ s) .memory (by decide)
  exact ⟨hmem.symm, hchk.symm⟩

end Fields

section Registers

variable {s : State} {who : Accessor} {fs : List Field} {u i : Nat} (a v : Nat)

/-- With no sealed field met, a register write writes each field by its access code. -/
theorem State.writeReg_of_unsealed (hb : fs.any (fun f => s.baseHeld f u) = false) (hs : s.sealedFields who fs u i = []) :
    s.writeReg who fs u i a v = fs.foldl (fun t f => t.writeField who f u i v) s := by
  simp [State.writeReg, hb, hs]

/-- With a sealed field met, a register write writes the other fields, and then raises the event and the record (R13). -/
theorem State.writeReg_of_sealed (hb : fs.any (fun f => s.baseHeld f u) = false) (hs : s.sealedFields who fs u i ≠ []) :
    s.writeReg who fs u i a v =
      ((fs.filter (fun f => !(s.sealedFields who fs u i).contains f)).foldl (fun t f => t.writeField who f u i v) s).sealedWrite
        who a v (s.lowestPart (s.sealedFields who fs u i) u i) := by
  simp [State.writeReg, hb, hs]

/-- A register write touches no memory. -/
theorem State.writeReg_memory : (s.writeReg who fs u i a v).mem = s.mem ∧ (s.writeReg who fs u i a v).chk = s.chk := by
  obtain ⟨hmem, hchk, -, -⟩ := State.writeReg_keeps (within_opened _ s) s who fs u i a v (.refl _ s) .memory (by decide)
  exact ⟨hmem.symm, hchk.symm⟩

/-- After the event and the record of a sealed write, the event bit of the accessor's hub is set. -/
theorem State.fget_sealedWrite_event (p : Option Nat) :
    (s.sealedWrite who a v p).fget ERR_EVENT.SEALED_WRITE (accHub who) 0 = 1 := by
  rw [State.sealedWrite, State.fget_evt_same]
  exact Nat.mod_two_eq_one_iff_testBit_zero.mpr (by simp)

variable {f : Field}

/-- The one field of a register is among the sealed ones when it is RWL, sealed and else to be written. -/
theorem State.sealedFields_singleton_sealed (hm : s.mayWrite who f = true) (ha : f.acc = .rwl)
    (hs : s.isSealed f u i = true) : s.sealedFields who [f] u i = [f] := by
  simp [State.sealedFields, hm, ha, hs]

/-- A register whose one field is not sealed has no sealed field. -/
theorem State.sealedFields_singleton_unsealed (hs : s.isSealed f u i = false) : s.sealedFields who [f] u i = [] := by
  simp [State.sealedFields, hs]

/-- A write of a register whose one field is sealed raises the event and the record, and does nothing else. -/
theorem State.writeReg_singleton_sealed (hm : s.mayWrite who f = true) (ha : f.acc = .rwl) (hb : s.baseHeld f u = false)
    (hs : s.isSealed f u i = true) :
    s.writeReg who [f] u i a v = s.sealedWrite who a v (s.lowestPart [f] u i) := by
  have hl := State.sealedFields_singleton_sealed hm ha hs
  rw [State.writeReg_of_sealed a v (by simp [hb]) (by simp [hl]), hl]
  simp

/-- A write of a register whose one field is not sealed writes that field. -/
theorem State.writeReg_singleton_unsealed (hb : s.baseHeld f u = false) (hs : s.isSealed f u i = false) :
    s.writeReg who [f] u i a v = s.writeField who f u i v := by
  rw [State.writeReg_of_unsealed a v (by simp [hb]) (State.sealedFields_singleton_unsealed hs)]
  rfl

end Registers

/-- Settles O4: field by field, by the access code. -/
theorem fieldWritesFollowTheirAccessCodes : Obligations.FieldWritesFollowTheirAccessCodes := by
  unfold Obligations.FieldWritesFollowTheirAccessCodes
  intro s who f u i v t nv
  have fits : nv % 2 ^ f.w = nv := Nat.mod_mod _ _
  refine ⟨State.writeField_of_not_mayWrite s who f u i v, State.writeField_of_readOnly s who f u i v,
    fun hm ha => ?_, fun hm ha => ?_, fun hm ha hq => ?_, fun hm ha => ?_, fun a hm ha hb => ⟨?_, ?_⟩,
    fun g u' i' => State.fget_writeField_ne s who f u i v, State.writeField_memory s who f u i v⟩
  · rw [show t = _ from State.writeField_rw u i v hm ha, State.fget_setRw_same, fits]
  · rw [show t = _ from State.writeField_w1c u i v hm ha, State.fget_fset_same]
  · rw [show t = _ from State.writeField_w1s u i v hm ha hq, State.fget_fset_same]
  · rw [show t = _ from State.writeField_rwl u i v hm ha, State.fget_fset_same, fits]
  · exact State.writeReg_singleton_sealed a v hm ha hb
  · exact State.writeReg_singleton_unsealed a v hb

section ClearedOnRead

variable {s : State} {f : Field} {fs : List Field} {u i lo n : Nat}

/-- The RC fields of a register clear one after another. -/
theorem State.clearRc_cons (s : State) (g : Field) (fs : List Field) (u i lo n : Nat) :
    s.clearRc (g :: fs) u i lo n = (s.clearRc [g] u i lo n).clearRc fs u i lo n := rfl

/-- An RC field in the bits read, kept in the register file, is set to its reset value. -/
theorem State.clearRc_singleton (ha : f.acc = .rc) (hm : monIndex f i = none) (hlo : lo ≤ f.lo) (hhi : f.lo + f.w ≤ lo + n) :
    s.clearRc [f] u i lo n = s.fset f u i f.rst := by
  simp [State.clearRc, ha, hm, hlo, hhi]

/-- Clearing one field leaves a field at another place as it was. -/
theorem State.fget_clearRc_singleton_ne {g : Field} (h : f.key u i ≠ g.key u i) :
    (s.clearRc [g] u i lo n).fget f u i = s.fget f u i := by
  simp only [State.clearRc, List.foldl_cons, List.foldl_nil]
  split
  · split
    · exact State.fget_congr (by simp) f u i
    · exact State.fget_fset_ne s h
  · rfl

/-- A field that reads its reset value still does after the RC fields of its register have cleared. -/
theorem State.fget_clearRc_kept (ha : f.acc = .rc) (hm : monIndex f i = none) (hlo : lo ≤ f.lo) (hhi : f.lo + f.w ≤ lo + n)
    (hk : ∀ g ∈ fs, g ≠ f → g.key u i ≠ f.key u i) (hs : s.fget f u i = f.rst % 2 ^ f.w) :
    (s.clearRc fs u i lo n).fget f u i = f.rst % 2 ^ f.w := by
  induction fs generalizing s with
  | nil => exact hs
  | cons g fs ih =>
    rw [State.clearRc_cons]
    refine ih (fun g' hg' => hk g' (List.mem_cons_of_mem g hg')) ?_
    by_cases hg : g = f
    · rw [hg, State.clearRc_singleton ha hm hlo hhi, State.fget_fset_same]
    · rw [State.fget_clearRc_singleton_ne (hk g List.mem_cons_self hg).symm, hs]

/-- A read sets each RC field of the bits read, whose place no other field of the register shares, to its reset value. -/
theorem State.fget_clearRc (hf : f ∈ fs) (ha : f.acc = .rc) (hm : monIndex f i = none) (hlo : lo ≤ f.lo)
    (hhi : f.lo + f.w ≤ lo + n) (hk : ∀ g ∈ fs, g ≠ f → g.key u i ≠ f.key u i) :
    (s.clearRc fs u i lo n).fget f u i = f.rst % 2 ^ f.w := by
  induction fs generalizing s with
  | nil => cases hf
  | cons g fs ih =>
    have hk' : ∀ g' ∈ fs, g' ≠ f → g'.key u i ≠ f.key u i := fun g' hg' => hk g' (List.mem_cons_of_mem g hg')
    rw [State.clearRc_cons]
    by_cases hg : g = f
    · refine State.fget_clearRc_kept ha hm hlo hhi hk' ?_
      rw [hg, State.clearRc_singleton ha hm hlo hhi, State.fget_fset_same]
    · exact ih ((List.mem_cons.mp hf).resolve_left (Ne.symm hg)) hk'

end ClearedOnRead

section Accesses

variable {s : State} {who : Accessor} {off n v : Nat} {r : RegDesc} {u i : Nat}

/-- An access is of 4 or of 8 bytes. -/
theorem sizeOk_iff : sizeOk n = true ↔ n = 4 ∨ n = 8 := by simp [sizeOk]

/-- What REGISTER_WRITE does at a size that no register takes (R496). -/
theorem execRegisterWrite_wrongSize (hw : who.wf = true) (hn : sizeOk n = false) :
    execRegisterWrite who off n v false s = .next s := by
  simp [execRegisterWrite, hw, hn, ok_true, State.withQueue_self]

/-- What REGISTER_WRITE does outside the MSI-X tables. -/
theorem execRegisterWrite_register (hw : who.wf = true) (hn : sizeOk n = true) (hx : msixHit who off = none) :
    execRegisterWrite who off n v false s = .next ((s.regWrite who off n v).withQueue s.pending) := by
  simp [execRegisterWrite, hw, hn, hx, ok_true]

/-- What a host function's poisoned REGISTER_WRITE does (R296). -/
theorem execRegisterWrite_poisoned (hw : who.wf = true) (hm : who ≠ .mgmt) :
    execRegisterWrite who off n v true s = .next ((s.poisonedRegWrite who off).withQueue s.pending) := by
  simp [execRegisterWrite, hw, hm, ok_true]

/-- A write of a register's whole width, the register having no row of its own, writes the register. -/
theorem State.regWrite_whole (hl : s.locate who off = some (r, u, i)) (ho : off % n = 0) (hn : n * 8 = r.width)
    (hr : ownRow (r.fields.headD TILE_ARRAY_LAT.A0_EXTRA) = false) :
    s.regWrite who off n v = s.writeReg who r.fields u i off v := by
  simp only [State.regWrite, State.regWriteIf, hl, hr]
  simp [ho, hn]

/-- A write where there is no register, and no high half of one, does nothing. -/
theorem State.regWrite_nowhere (hl : s.locate who off = none) (hh : s.locate who (off - 4) = none) :
    s.regWrite who off n v = s := by
  simp only [State.regWrite, State.regWriteIf, hl, hh]
  simp

/-- A read that finds nothing answers 0 and forgets the latched half. -/
def State.readsZero (s : State) (who : Accessor) (n : Nat) : State :=
  (s.withHalfR (Tbl.put (0, 0) s.halfR (accCode who) (0, 0))).answer .ok (natLE n 0)

/-- A read that finds nothing changes neither registers nor memory. -/
theorem State.readsZero_frame (s : State) (who : Accessor) (n : Nat) :
    (s.readsZero who n).rsp = ⟨.ok, natLE n 0⟩ ∧ (s.readsZero who n).regs = s.regs ∧ (s.readsZero who n).mem = s.mem := by
  simp [State.readsZero]

/-- A read of a size that no register has finds nothing (R496). -/
theorem State.regRead_wrongSize (hn : sizeOk n = false) : s.regRead who off n = s.readsZero who n := by
  have h4 : n ≠ 4 := fun h => by simp [h, sizeOk] at hn
  unfold State.regRead State.readsZero
  cases s.tableBytes who off with
  | some bs => simp [hn]
  | none => cases s.locate who off <;> simp [hn, h4]

/-- A read where there is no register, no high half of one and no table finds nothing. -/
theorem State.regRead_nowhere (ht : s.tableBytes who off = none) (hl : s.locate who off = none)
    (hh : s.locate who (off - 4) = none) : s.regRead who off n = s.readsZero who n := by
  simp only [State.regRead, State.readsZero, ht, hl, hh]
  simp

/-- A read of a register's whole width answers its value and clears its RC fields (R12). -/
theorem State.regRead_whole (ht : s.tableBytes who off = none) (hl : s.locate who off = some (r, u, i))
    (hs : sizeOk n = true) (ho : off % n = 0) (hn : n * 8 = r.width) :
    s.regRead who off n = ((s.withHalfR (Tbl.put (0, 0) s.halfR (accCode who) (0, 0))).clearRc r.fields u i 0 r.width).answer
      .ok (natLE n (s.regValue r.fields u i)) := by
  simp only [State.regRead, ht, hl]
  simp [hs, ho, hn]

/-- REGISTER_HALF_READ of the low half of a 64-bit register answers it and latches the high half (R496). -/
theorem execRegisterHalfRead_low (hw : who.wf = true) (hl : s.locate who off = some (r, u, i)) (ho : off % 8 = 0)
    (hr : r.width = 64) :
    execRegisterHalfRead who off s = .next ((((s.clearRc r.fields u i 0 32).withHalfR (Tbl.put (0, 0) s.halfR (accCode who)
      (off + 1, s.regValue r.fields u i / 2 ^ 32))).answer .ok (natLE 4 (s.regValue r.fields u i))).withQueue s.pending) := by
  simp only [execRegisterHalfRead, hl]
  simp [hw, ho, hr, ok_true]

/-- REGISTER_HALF_READ where there is no register is a read of 4 bytes. -/
theorem execRegisterHalfRead_nowhere (hw : who.wf = true) (hl : s.locate who off = none) :
    execRegisterHalfRead who off s = .next ((s.regRead who off 4).withQueue s.pending) := by
  simp [execRegisterHalfRead, hl, hw, ok_true]

/-- RC_FIELD_READ is the register read. -/
theorem execRcFieldRead_eq (hw : who.wf = true) :
    execRcFieldRead who off n s = .next ((s.regRead who off n).withQueue s.pending) := by
  simp [execRcFieldRead, hw, ok_true]

/-- The answer is no register. -/
@[simp] theorem State.fget_answer (s : State) (k : RespKind) (d : List Byte) (f : Field) (u i : Nat) :
    (s.answer k d).fget f u i = s.fget f u i := rfl

/-- Clearing RC fields touches no memory. -/
theorem State.clearRc_mem (s : State) (fs : List Field) (u i lo n : Nat) : (s.clearRc fs u i lo n).mem = s.mem :=
  (State.clearRc_keeps (within_opened _ s) s fs u i lo n (.refl _ s) .memory (by decide)).1.symm

end Accesses

section Records

variable {s : State} {h : Nat}

/-- Fields of two registers of one block, neither of them of an array, lie at different places. -/
theorem Field.key_ne_of_off {f g : Field} (hb : f.blk = g.blk) (ho : f.off ≠ g.off) (hf : f.stride = 0) (hg : g.stride = 0)
    (hlf : f.lo < 64) (hlg : g.lo < 64) (u i : Nat) : f.key u i ≠ g.key u i := by
  simp only [Field.key, Field.addr, hb, hf, hg]
  omega

/-- The events of a record's severity leave a hub register other than ERR_EVENT as it was. -/
theorem State.fget_sevEvents (s : State) (h : Nat) (r : ErrRec) {g : Field} (hb : g.blk = .hub) (ho : g.off ≠ 0x7004)
    (hst : g.stride = 0) (hlo : g.lo < 64) : (s.sevEvents h r).fget g h 0 = s.fget g h 0 := by
  unfold State.sevEvents
  split
  · exact State.fget_evt_ne s (Field.key_ne_of_off hb ho hst rfl hlo (by decide) h 0)
  · split
    · exact State.fget_evt_ne s (Field.key_ne_of_off hb ho hst rfl hlo (by decide) h 0)
    · rfl

/-- A record that its hub's queue has room for is stored there (R273). -/
theorem State.recs_recordQueue (r : ErrRec)
    (room : queueFill 256 (s.fget ERR_Q_PROD.PROD h 0) (s.fget ERR_Q_CONS.CONS h 0) ≠ 256) :
    (s.recordQueue h r).recs h = s.recs h + 1 := by
  simp [State.recordQueue, room, State.recs, Tbl.upd]

/-- A record's copy to a virtual function's queue is none of the hub's records. -/
theorem State.recs_vfCopy (s : State) (h p : Nat) (r : ErrRec) (k : Nat) : (s.vfCopy h p r).recs k = s.recs k := by
  simp [State.recs]

/-- A record arrives where its hub's queue has room: the hub has stored one more (R273). -/
theorem State.recs_record (r : ErrRec)
    (room : queueFill 256 (s.fget ERR_Q_PROD.PROD h 0) (s.fget ERR_Q_CONS.CONS h 0) ≠ 256) :
    (s.record h r).recs h = s.recs h + 1 := by
  have stored (q : ErrRec) : (((s.sevEvents h q).recordFeed q).recordQueue h q).recs h = s.recs h + 1 := by
    have hf (g : Field) : ((s.sevEvents h q).recordFeed q).fget g h 0 = (s.sevEvents h q).fget g h 0 :=
      State.fget_congr (by simp) g h 0
    have hprod := State.fget_sevEvents s h q (g := ERR_Q_PROD.PROD) rfl (by decide) rfl (by decide)
    have hcons := State.fget_sevEvents s h q (g := ERR_Q_CONS.CONS) rfl (by decide) rfl (by decide)
    rw [State.recs_recordQueue q (by rwa [hf, hf, hprod, hcons])]
    simp [State.recs]
  unfold State.record
  dsimp only
  split
  · rw [State.recs_vfCopy]; exact stored _
  · exact stored _

end Records

section RegisterCommands

variable {s : State} {who : Accessor} {off n v : Nat} {r : RegDesc} {u i : Nat}

/-- A read that finds nothing completes with 0. -/
theorem exec_rcFieldRead_zero (hw : who.wf = true) (hr : s.regRead who off n = s.readsZero who n) :
    ∃ t, exec (.rcFieldRead who off n) s = .next t ∧ t.rsp = ⟨.ok, natLE n 0⟩ ∧ t.regs = s.regs ∧ t.mem = s.mem :=
  ⟨_, execRcFieldRead_eq hw, by rw [hr]; exact State.readsZero_frame s who n⟩

/-- A half read where there is nothing completes with 0. -/
theorem exec_registerHalfRead_zero (hw : who.wf = true) (ht : s.tableBytes who off = none) (hl : s.locate who off = none)
    (hh : s.locate who (off - 4) = none) :
    ∃ t, exec (.registerHalfRead who off) s = .next t ∧ t.rsp = ⟨.ok, natLE 4 0⟩ ∧ t.regs = s.regs ∧ t.mem = s.mem :=
  ⟨_, execRegisterHalfRead_nowhere hw hl, by rw [State.regRead_nowhere ht hl hh]; exact State.readsZero_frame s who 4⟩

/-- RC_FIELD_READ of a whole register answers the value before the read and clears the RC fields. -/
theorem exec_rcFieldRead_whole (hw : who.wf = true) (ht : s.tableBytes who off = none)
    (hl : s.locate who off = some (r, u, i)) (hs : sizeOk n = true) (ho : off % n = 0) (hn : n * 8 = r.width) :
    ∃ t, exec (.rcFieldRead who off n) s = .next t ∧ t.rsp = ⟨.ok, natLE n (s.regValue r.fields u i)⟩ ∧ t.mem = s.mem ∧
      ∀ f ∈ r.fields, f.acc = .rc → monIndex f i = none → (∀ g ∈ r.fields, g ≠ f → g.key u i ≠ f.key u i) →
        f.lo + f.w ≤ r.width → t.fget f u i = f.rst % 2 ^ f.w := by
  refine ⟨_, execRcFieldRead_eq hw, ?_⟩
  rw [State.regRead_whole ht hl hs ho hn]
  refine ⟨by simp, by simp [State.clearRc_mem], fun f hf ha hm hk hhi => ?_⟩
  rw [State.fget_withQueue, State.fget_answer]
  exact State.fget_clearRc hf ha hm (Nat.zero_le _) (by omega) hk

/-- REGISTER_HALF_READ of a low half answers it and latches the high half for the accessor. -/
theorem exec_registerHalfRead_low (hw : who.wf = true) (hl : s.locate who off = some (r, u, i)) (ho : off % 8 = 0)
    (hr : r.width = 64) :
    ∃ t, exec (.registerHalfRead who off) s = .next t ∧ t.rsp = ⟨.ok, natLE 4 (s.regValue r.fields u i)⟩ ∧
      Tbl.get (0, 0) t.halfR (accCode who) = (off + 1, s.regValue r.fields u i / 2 ^ 32) ∧ t.mem = s.mem :=
  ⟨_, execRegisterHalfRead_low hw hl ho hr, by simp, by simp, by simp [State.clearRc_mem]⟩

/-- REGISTER_WRITE of a whole register is the write of its fields. -/
theorem exec_registerWrite_whole (hw : who.wf = true) (hx : msixHit who off = none) (hs : sizeOk n = true)
    (hl : s.locate who off = some (r, u, i)) (ho : off % n = 0) (hn : n * 8 = r.width)
    (hr : ownRow (r.fields.headD TILE_ARRAY_LAT.A0_EXTRA) = false) :
    exec (.registerWrite who off n v false) s = .next ((s.writeReg who r.fields u i off v).withQueue s.pending) :=
  (execRegisterWrite_register hw hs hx).trans (by rw [State.regWrite_whole hl ho hn hr])

/-- REGISTER_WRITE where there is no register does nothing. -/
theorem exec_registerWrite_nowhere (hw : who.wf = true) (hx : msixHit who off = none) (hs : sizeOk n = true)
    (hl : s.locate who off = none) (hh : s.locate who (off - 4) = none) :
    exec (.registerWrite who off n v false) s = .next s :=
  (execRegisterWrite_register hw hs hx).trans (by rw [State.regWrite_nowhere hl hh]; rfl)

/-- REGISTER_WRITE of a whole register with a sealed field raises the event of the accessor's hub and touches no memory. -/
theorem exec_registerWrite_sealed (hw : who.wf = true) (hx : msixHit who off = none) (hs : sizeOk n = true)
    (hl : s.locate who off = some (r, u, i)) (ho : off % n = 0) (hn : n * 8 = r.width)
    (hr : ownRow (r.fields.headD TILE_ARRAY_LAT.A0_EXTRA) = false) (hb : r.fields.any (fun f => s.baseHeld f u) = false)
    (hf : s.sealedFields who r.fields u i ≠ []) :
    ∃ t, exec (.registerWrite who off n v false) s = .next t ∧
      t.fget ERR_EVENT.SEALED_WRITE (accHub who) 0 = 1 ∧ t.mem = s.mem ∧ t.chk = s.chk := by
  refine ⟨_, exec_registerWrite_whole hw hx hs hl ho hn hr, ?_, State.writeReg_memory off v⟩
  rw [State.fget_withQueue, State.writeReg_of_sealed off v hb hf]
  exact State.fget_sealedWrite_event off v _

/-- A host function's poisoned REGISTER_WRITE is discarded and recorded (R296). -/
theorem exec_registerWrite_poisoned (hw : who.wf = true) (hm : who ≠ .mgmt) :
    ∃ t, exec (.registerWrite who off n v true) s = .next t ∧ t.mem = s.mem ∧ t.chk = s.chk ∧
      t.decks = s.decks ∧ t.tiles = s.tiles ∧ t.prot = s.prot ∧ t.halfW = s.halfW ∧
      (queueFill 256 (s.fget ERR_Q_PROD.PROD (accHub who) 0) (s.fget ERR_Q_CONS.CONS (accHub who) 0) ≠ 256 →
        t.recs (accHub who) = s.recs (accHub who) + 1) := by
  refine ⟨_, execRegisterWrite_poisoned hw hm, ?_⟩
  unfold State.poisonedRegWrite
  refine ⟨by simp, by simp, by simp, by simp, by simp, by simp, fun room => ?_⟩
  exact State.recs_record _ room

end RegisterCommands

/-- Settles O5: access by access, by size, reach and seal. -/
theorem registerAccessesReachTheirRegister : Obligations.RegisterAccessesReachTheirRegister := by
  unfold Obligations.RegisterAccessesReachTheirRegister
  intro s who off n v hw
  refine ⟨fun h4 h8 => ?wrongSize, fun hn => ?rightSize⟩
  case wrongSize =>
    have hs : sizeOk n = false := by simp [sizeOk, h4, h8]
    exact ⟨execRegisterWrite_wrongSize hw hs, exec_rcFieldRead_zero hw (State.regRead_wrongSize hs)⟩
  case rightSize =>
    have hs : sizeOk n = true := sizeOk_iff.mpr hn
    refine ⟨fun r u i hl ho hn => ⟨fun hx hr => exec_registerWrite_whole hw hx hs hl ho hn hr,
        fun ht => exec_rcFieldRead_whole hw ht hl hs ho hn⟩,
      fun r u i hl ho hr => exec_registerHalfRead_low hw hl ho hr,
      fun hl hh ht hx => ⟨exec_registerWrite_nowhere hw hx hs hl hh,
        exec_rcFieldRead_zero hw (State.regRead_nowhere ht hl hh), exec_registerHalfRead_zero hw ht hl hh⟩,
      fun r u i hl ho hn hx hr hb hf => exec_registerWrite_sealed hw hx hs hl ho hn hr hb hf,
      fun hm => exec_registerWrite_poisoned hw hm⟩

section Reset

/-- Every field reads its reset value. -/
@[simp] theorem State.fget_reset (f : Field) (u i : Nat) : State.reset.fget f u i = f.rst := rfl

/-- Every packed field reads the reset value of the first. -/
@[simp] theorem State.fgetAt_reset (f : Field) (u i sh : Nat) : State.reset.fgetAt f u i sh = f.rst := rfl

/-- No tile is powered. -/
theorem State.tile_reset (j : Nat) : (State.reset.tile j).power = .off := rfl

/-- Bring-up has not come to READY. -/
theorem State.isReady_reset : State.reset.isReady = false := by
  simp [State.isReady, BOOT_STATUS.PHASE]

/-- Memory and the check bits list nothing. -/
theorem memOk_reset : MemOk State.reset := ⟨rfl, rfl⟩

end Reset

/-- Settles O58: the state after reset lists nothing, so each field reads its table's reset value. -/
theorem resetLeavesTheTablesValues : Obligations.ResetLeavesTheTablesValues := by
  unfold Obligations.ResetLeavesTheTablesValues
  exact ⟨rfl, rfl, rfl, State.fget_reset BOOT_STATUS.PHASE 0 0, State.fget_reset BOOT_STATUS.CAUSE 0 0,
    State.fget_reset BOOT_STATUS.IMAGE_ARMED 0 0, State.isReady_reset, rfl, rfl, rfl, State.fget_reset PWR_CAP_STATUS.CAP_W 0 0,
    State.fget_reset PWR_RTH.EST 0 0, State.fget_reset PWR_RTH.NOM 0 0,
    fun u => ⟨State.fget_reset PWR_TOWER_CLK.CURRENT 0 u, State.fget_reset PWR_TOWER_CLK.VT_MV 0 u⟩, State.tile_reset,
    fun p => State.fgetAt_reset PART_STATUS.STATE0 0 0 (2 * p), State.fget_reset RTC_CTL.TIME_INVALID 0 0, memOk_reset⟩

end Sys2Proof.Machine
end

section
/-!
SUPPORT. Jobs on their arrays: what a tile's operations leave of the job an array leads, the event bits of its arrays, and the
ways a pass ends.
-/

namespace Sys2Proof.Machine

section Jobs

variable (s : State) {t : State}

/-- A job reads the same in two states with the same jobs. -/
theorem State.job_congr (h : t.jobs = s.jobs) (j l a : Nat) : t.job j l a = s.job j l a := by
  simp [State.job, h]

/-- Setting array states leaves the jobs. -/
@[simp] theorem State.setArrs_jobs (j v : Nat) (as : List Nat) : (s.setArrs j v as).jobs = s.jobs :=
  keeps_foldl (P := fun u => u.jobs = s.jobs) (fun u x h => by simpa using h) rfl

/-- Stopping arrays leaves the jobs, and memory. -/
@[simp] theorem State.stopArrays_jobs_mem (j v : Nat) (as : List Nat) :
    (s.stopArrays j v as).jobs = s.jobs ∧ (s.stopArrays j v as).mem = s.mem :=
  keeps_foldl (P := fun u => u.jobs = s.jobs ∧ u.mem = s.mem) (fun u x h => by simpa using h) ⟨rfl, rfl⟩

/-- Ramping down leaves the jobs. -/
@[simp] theorem State.rampDown_jobs (j : Nat) (as : List Nat) : (s.rampDown j as).jobs = s.jobs :=
  keeps_foldl (P := fun u => u.jobs = s.jobs) (fun u x h => by split <;> simpa using h) rfl

/-- Beginning to feed leaves the jobs. -/
@[simp] theorem State.feed_jobs (j : Nat) (m : Mm) (p : Nat) (fed : List Nat) (wait : Nat) :
    (s.feed j m p fed wait).jobs = s.jobs :=
  keeps_foldl (P := fun u => u.jobs = s.jobs) (fun u x h => by simpa using h) rfl

/-- Saving a level's context leaves the jobs: it writes memory and what reports on it. -/
@[simp] theorem State.saveContext_jobs (j l : Nat) : (s.saveContext j l).jobs = s.jobs := by
  obtain ⟨-, -, -, hjobs, -⟩ :=
    State.saveContext_keeps (within_opened _ s) s j l (.refl _ s) .tiles (by decide)
  exact hjobs.symm

/-- An operator that ends in fault on its arrays leaves no job. -/
@[simp] theorem State.job_arrayFault (c : Ctx) (lead : Nat) (as : List Nat) (cause : Nat) :
    (s.arrayFault c lead as cause).job c.tile c.level lead = none := by
  simp [State.job, State.arrayFault, State.arrEvent]

/-- An operator that ends in fault on its arrays writes no memory. -/
@[simp] theorem State.arrayFault_mem (c : Ctx) (lead : Nat) (as : List Nat) (cause : Nat) :
    (s.arrayFault c lead as cause).mem = s.mem := by
  simp [State.arrayFault, State.arrEvent]

/-- An operator that has committed its last pass leaves no job. -/
@[simp] theorem State.job_endJob (c : Ctx) (lead : Nat) (b : Job) :
    (s.endJob c lead b).job c.tile c.level lead = none := by
  unfold State.endJob
  split
  · exact s.job_arrayFault ..
  · simp [State.job]

/-- A job that gives up its arrays is parked. -/
@[simp] theorem State.job_parkJob (c : Ctx) (m : Mm) (lead : Nat) (b : Job) (save : Bool) :
    (s.parkJob c m lead b save).job c.tile c.level lead = some { b with pre := .parked, saved := save } := by
  simp [State.job, State.parkJob, State.countLevels]

end Jobs

section ArrayEvents

variable (s : State)

/-- Bits that are set in a field are found in it, as far as the field is wide. -/
theorem or_mod_and_mod (x y n : Nat) : (x ||| y) % 2 ^ n &&& y % 2 ^ n = y % 2 ^ n := by
  apply Nat.eq_of_testBit_eq
  intro i
  simp only [Nat.testBit_and, Nat.testBit_mod_two_pow, Nat.testBit_or]
  cases y.testBit i <;> simp

/-- An array event sets the bits of its arrays. -/
theorem State.fget_arrEvent_and (f : Field) (j : Nat) (as : List Nat) :
    (s.arrEvent f j as).fget f j 0 &&& (maskOf as % 2 ^ f.w) = maskOf as % 2 ^ f.w := by
  rw [State.arrEvent, State.fget_fset_same, or_mod_and_mod]

/-- A fault put into TILE_SEQ_FAULT leaves the tile's other registers. -/
theorem State.fget_seqFault_ne (j opIndex t cause : Nat) {g : Field} (hb : g.blk = .tile) (ho : g.off ≠ 0x208)
    (hst : g.stride = 0) (hlo : g.lo < 64) : (s.seqFault j opIndex t cause).fget g j 0 = s.fget g j 0 := by
  have away (f : Field) (hfb : f.blk = .tile) (hfo : f.off = 0x208) (hfs : f.stride = 0) (hfl : f.lo < 64) :
      g.key j 0 ≠ f.key j 0 :=
    Field.key_ne_of_off (hb.trans hfb.symm) (by omega) hst hfs hlo hfl j 0
  unfold State.seqFault
  split
  · rfl
  · rw [State.fget_fset_ne _ (away _ rfl rfl rfl (by decide)), State.fget_fset_ne _ (away _ rfl rfl rfl (by decide)),
      State.fget_fset_ne _ (away _ rfl rfl rfl (by decide)), State.fget_fset_ne _ (away _ rfl rfl rfl (by decide))]

/-- An operator's end in fault writes TILE_SEQ_FAULT and no other register. -/
theorem State.opEndFault_regs (c : Ctx) (cause : Nat) :
    (s.opEndFault c cause).regs = (s.seqFault c.tile (c.f 4 2) c.thread cause).regs := by
  simp [State.opEndFault, State.orphanTags]

/-- An operator that ends in fault on its arrays sets PASS_FAULT for them. -/
theorem State.fget_arrayFault_passFault (c : Ctx) (lead : Nat) (as : List Nat) (cause : Nat) :
    (s.arrayFault c lead as cause).fget TILE_ARRAY_EVENT.PASS_FAULT c.tile 0 &&& (maskOf as % 16) = maskOf as % 16 := by
  rw [State.arrayFault, State.fget_congr (State.opEndFault_regs ..),
    State.fget_seqFault_ne _ _ _ _ _ rfl (by decide) rfl (by decide)]
  exact State.fget_arrEvent_and _ TILE_ARRAY_EVENT.PASS_FAULT c.tile as

end ArrayEvents

section Passes

variable (s : State) (c : Ctx) (m : Mm) (lead : Nat) (b : Job)

/-- The next pass, its operands good, goes on from the committed set. -/
theorem State.job_nextPass (hw : (s.passWork c.tile m (b.pass + 1) b.acc).2.2.2 = false) :
    (s.nextPass c m lead b).job c.tile c.level lead =
      some { b with
        pass := b.pass + 1
        work := (s.passWork c.tile m (b.pass + 1) b.acc).1
        ovf := (s.passWork c.tile m (b.pass + 1) b.acc).2.1
        intSat := (s.passWork c.tile m (b.pass + 1) b.acc).2.2.1 } := by
  simp [State.job, State.nextPass, hw]

/-- At the boundary after its last pass an operator has ended. -/
theorem State.job_boundary_last (hp : b.pass + 1 = b.passes) :
    (s.boundary c m lead b).job c.tile c.level lead = none := by
  simp only [State.boundary, if_pos hp]
  exact (State.job_congr _ (State.saveContext_jobs ..) ..).trans (State.job_endJob ..)

/-- At the boundary after another pass the job is parked at the next one. -/
theorem State.job_boundary_next (hp : b.pass + 1 ≠ b.passes) :
    (s.boundary c m lead b).job c.tile c.level lead =
      some { (s.commitSet c m b).2 with pass := b.pass + 1, pre := .parked, saved := m.chainGoesOn b.pass } := by
  simp only [State.boundary, if_neg hp]
  exact State.job_parkJob ..

/-- A pass fault by a poisoned operand, or in the retry, ends the operator on its arrays. -/
theorem State.passFault_ends {poisoned : Bool} (h : poisoned = true ∨ b.retried = true) :
    ∃ cause, s.passFault c m lead b poisoned = s.arrayFault c lead b.arrays cause := by
  unfold State.passFault
  cases hp : poisoned with
  | true => exact ⟨0x03, rfl⟩
  | false => exact ⟨0x01, by simp [h.resolve_left (by simp [hp])]⟩

/-- The first fault of a pass, its operands good and no pre-emption asked, runs the pass again from the committed set. -/
theorem State.job_passFault_retry (hr : b.retried = false) (hpre : b.pre = .none)
    (hw : (s.passWork c.tile m b.pass b.acc).2.2.2 = false) :
    (s.passFault c m lead b false).job c.tile c.level lead =
      some { b with
        retried := true
        work := (s.passWork c.tile m b.pass b.acc).1
        ovf := (s.passWork c.tile m b.pass b.acc).2.1
        intSat := (s.passWork c.tile m b.pass b.acc).2.2.1 } := by
  simp [State.job, State.passFault, hr, hw, hpre]

end Passes

section PassCommands

variable {s : State} {j a : Nat} {c : Ctx} {m : Mm} {b : Job}

/-- The operator at which a thread of a tile stands is of that tile. -/
theorem State.opOf_tile {p l t : Nat} {i : Inst} (h : s.opOf p l i j t = some c) : c.tile = j := by
  unfold State.opOf at h
  dsimp only at h
  split at h
  · cases h
  · rw [← Option.some.inj h]

/-- The operator of a job that runs on a tile is of that tile. -/
theorem State.runningJob_tile (hr : s.runningJob j a = some (c, m, b)) : c.tile = j := by
  unfold State.runningJob at hr
  cases hi : s.tileInst j with
  | none => simp [hi] at hr
  | some pli =>
    obtain ⟨p, l, i⟩ := pli
    cases hb : s.job j l a with
    | none => simp [hi, hb] at hr
    | some b' =>
      cases hc : s.jobCtx p l j b' with
      | none => simp [hi, hb, hc] at hr
      | some c' =>
        obtain ⟨-, rfl, -⟩ : s.mm c' = some m ∧ c' = c ∧ b' = b := by simpa [hi, hb, hc] using hr
        exact State.opOf_tile hc

/-- PASS_COMMIT where an array waits for its operands. -/
theorem exec_passCommit_waits (hj : arrayOk j a = true) (hr : s.runningJob j a = some (c, m, b))
    (hh : b.arrays.all (fun x => (s.arr j x).held) = false) : exec (.passCommit j a) s = .next s := by
  change execPassCommit j a s = _
  simp [execPassCommit, hj, hr, hh, ok_true, State.withQueue_self]

/-- PASS_COMMIT with a normal pre-emption asked. -/
theorem exec_passCommit_normal (hj : arrayOk j a = true) (hr : s.runningJob j a = some (c, m, b))
    (hh : b.arrays.all (fun x => (s.arr j x).held) = true) {since : Nat} (hp : b.pre = .normal since) :
    exec (.passCommit j a) s = .next ((s.boundary c m a b).withQueue s.pending) := by
  change execPassCommit j a s = _
  simp only [execPassCommit, hj, hr, hh, hp, ok_true, not_true_eq_false, if_false]

/-- PASS_COMMIT of the last pass with no pre-emption asked. -/
theorem exec_passCommit_last (hj : arrayOk j a = true) (hr : s.runningJob j a = some (c, m, b))
    (hh : b.arrays.all (fun x => (s.arr j x).held) = true) (hp : b.pre = .none) (hl : b.pass + 1 = b.passes) :
    exec (.passCommit j a) s =
      .next (((s.commitSet c m b).1.endJob c a (s.commitSet c m b).2).withQueue s.pending) := by
  change execPassCommit j a s = _
  simp only [execPassCommit, hj, hr, hh, hp, hl, ok_true, not_true_eq_false, if_false, if_true]

/-- PASS_COMMIT of another pass with no pre-emption asked. -/
theorem exec_passCommit_next (hj : arrayOk j a = true) (hr : s.runningJob j a = some (c, m, b))
    (hh : b.arrays.all (fun x => (s.arr j x).held) = true) (hp : b.pre = .none) (hl : b.pass + 1 ≠ b.passes) :
    exec (.passCommit j a) s =
      .next (((s.commitSet c m b).1.nextPass c m a (s.commitSet c m b).2).withQueue s.pending) := by
  change execPassCommit j a s = _
  simp only [execPassCommit, hj, hr, hh, hp, hl, ok_true, not_true_eq_false, if_false]

/-- PASS_FAULT of a job neither cut nor parked. -/
theorem exec_passFault (hj : arrayOk j a = true) (hr : s.runningJob j a = some (c, m, b)) (hu : b.pre ≠ .urgent)
    (hk : b.pre ≠ .parked) (poisoned : Bool) :
    exec (.passFault j a poisoned) s = .next ((s.passFault c m a b poisoned).withQueue s.pending) := by
  change execPassFault j a poisoned s = _
  simp only [execPassFault, hj, hr, hu, hk, ok_true, or_self, if_false]

end PassCommands

/-- Settles O8: pass by pass, by whether the operands are held, the pass is the last, and a pre-emption is asked. -/
theorem passesCommitAndFault : Obligations.PassesCommitAndFault := by
  unfold Obligations.PassesCommitAndFault
  intro s j a c m b hj hr hu hk
  obtain rfl := State.runningJob_tile hr
  refine ⟨fun hh => ⟨fun hl => ?last, fun hl ⟨since, hp⟩ => ?boundary, fun hl hp hw => ?next⟩,
    exec_passCommit_waits hj hr, fun poisoned h => ?ends, fun hnr hp hw => ?retry⟩
  case last =>
    cases hp : b.pre with
    | none => exact ⟨_, exec_passCommit_last hj hr hh hp hl, State.job_endJob ..⟩
    | normal since => exact ⟨_, exec_passCommit_normal hj hr hh hp, s.job_boundary_last c m a b hl⟩
    | urgent => exact absurd hp hu
    | parked => exact absurd hp hk
  case boundary =>
    exact ⟨_, _, exec_passCommit_normal hj hr hh hp, s.job_boundary_next c m a b hl, rfl, rfl, rfl⟩
  case next =>
    exact ⟨_, _, exec_passCommit_next hj hr hh hp hl, State.job_nextPass _ c m a (s.commitSet c m b).2 hw, rfl, rfl, rfl, rfl⟩
  case ends =>
    obtain ⟨cause, hf⟩ := s.passFault_ends c m a b h
    refine ⟨_, exec_passFault hj hr hu hk poisoned, ?_⟩
    rw [hf]
    exact ⟨s.job_arrayFault .., s.fget_arrayFault_passFault .., s.arrayFault_mem ..⟩
  case retry =>
    exact ⟨_, _, exec_passFault hj hr hu hk false, s.job_passFault_retry c m a b hnr hp hw, rfl, rfl, rfl, rfl⟩

end Sys2Proof.Machine
end

section
/-!
SUPPORT. A tile, a thread and an array after they are changed; the throttle, the ramp and the configuration of the arrays; the
start of a matrix operator on its arrays.
-/

namespace Sys2Proof.Machine

section TileState

variable (s : State) {t : State}

/-- A tile reads the same in two states with the same tiles. -/
theorem State.tile_congr (h : t.tiles = s.tiles) (j : Nat) : t.tile j = s.tile j := by simp [State.tile, h]

/-- A thread reads the same in two states with the same threads. -/
theorem State.thr_congr (h : t.thrs = s.thrs) (j l k : Nat) : t.thr j l k = s.thr j l k := by simp [State.thr, h]

/-- An array reads the same in two states with the same arrays. -/
theorem State.arr_congr (h : t.arrs = s.arrs) (j a : Nat) : t.arr j a = s.arr j a := by simp [State.arr, h]

/-- A changed tile reads as it was changed. -/
@[simp] theorem State.tile_onTile (j : Nat) (f : Tile → Tile) : (s.onTile j f).tile j = f (s.tile j) := by
  simp [State.tile, Tbl.upd]

/-- A changed thread reads as it was changed. -/
@[simp] theorem State.thr_onThr (j l k : Nat) (f : Thr → Thr) : (s.onThr j l k f).thr j l k = f (s.thr j l k) := by
  simp [State.thr, Tbl.upd]

/-- A changed array reads as it was changed. -/
@[simp] theorem State.arr_onArr (j a : Nat) (f : Arr → Arr) : (s.onArr j a f).arr j a = f (s.arr j a) := by
  simp [State.arr, Tbl.upd]

/-- A job that was set is led by its array. -/
@[simp] theorem State.job_setJob (j l a : Nat) (b : Option Job) : (s.setJob j l a b).job j l a = b := by
  simp [State.job]

/-- Setting an array's state is no change of the array itself. -/
@[simp] theorem State.arr_setArr (j v a k : Nat) : (s.setArr j v a).arr j k = s.arr j k :=
  State.arr_congr s (by simp) j k

/-- The state of one of the tile's arrays reads as it was set. -/
theorem State.arrState_setArr {a v : Nat} (ha : a < 4) (hv : v < 16) (j : Nat) : (s.setArr j v a).arrState j a = v := by
  rw [State.arrState, State.setArr, if_pos ha, State.fgetAt_fsetAt_same]
  exact Nat.mod_eq_of_lt hv

/-- An array of the part names its tile and itself. -/
theorem arrayOk_iff {j a : Nat} : arrayOk j a = true ↔ j < 64 ∧ a < 4 := by simp [arrayOk]

/-- A thread of the part names its tile and itself. -/
theorem threadOk_iff {j k : Nat} : threadOk j k = true ↔ j < 64 ∧ k < 16 := by simp [threadOk]

end TileState

section ThrottleAndRamp

variable (s : State) {j a : Nat}

/-- TILE_THROTTLE_WRITE by the power manager sets the register's two fields (R63). -/
theorem exec_tileThrottleWrite_mgmt (hj : j < 64) (hu : s.tileUsable j = true) (v : Nat) :
    exec (.tileThrottleWrite .mgmt j v) s =
      .next ((s.fset TILE_THROTTLE.DUTY j 0 v).fset TILE_THROTTLE.RAMP_LEN_MGMT j 0 (v / 256)) := by
  change execTileThrottleWrite .mgmt j v s = _
  simp [execTileThrottleWrite, Accessor.wf, tileOk, hj, hu, ok_true, State.withQueue_self]

/-- TILE_THROTTLE_WRITE by a host function does nothing (R63). -/
theorem exec_tileThrottleWrite_host (hj : j < 64) {who : Accessor} (hw : who.wf = true) (hm : who ≠ .mgmt) (v : Nat) :
    exec (.tileThrottleWrite who j v) s = .next s := by
  change execTileThrottleWrite who j v s = _
  simp [execTileThrottleWrite, hw, tileOk, hj, hm, ok_true, State.withQueue_self]

/-- THROTTLE_TAKE_EFFECT in a tile cycle in which the counter is 0 (R53). -/
theorem exec_throttleTakeEffect_zero (hj : j < 64) (h : (s.tile j).counter = 0) :
    exec (.throttleTakeEffect j) s =
      .next (s.fset TILE_THROTTLE.DUTY_EFF j 0 (dutyOf (s.fget TILE_THROTTLE.DUTY j 0))) := by
  change execThrottleTakeEffect j s = _
  simp [execThrottleTakeEffect, tileOk, hj, h, ok_true, State.withQueue_self]

/-- THROTTLE_TAKE_EFFECT in any other tile cycle. -/
theorem exec_throttleTakeEffect_waits (hj : j < 64) (h : (s.tile j).counter ≠ 0) :
    exec (.throttleTakeEffect j) s = .next s := by
  change execThrottleTakeEffect j s = _
  simp [execThrottleTakeEffect, tileOk, hj, h, ok_true, State.withQueue_self]

/-- RAMP_STEP before the tile cycles of a step have passed (R52). -/
theorem exec_rampStep_waits (hj : arrayOk j a = true) (h : (s.arr j a).step < s.rampStep j) :
    exec (.rampStep j a) s = .next s := by
  change execRampStep j a s = _
  simp [execRampStep, hj, h, ok_true, State.withQueue_self]

/-- RAMP_STEP of an array that ramps up (R52). -/
theorem exec_rampStep_up (hj : arrayOk j a = true) (h : s.rampStep j ≤ (s.arr j a).step) (hs : s.arrState j a = 1) :
    exec (.rampStep j a) s = .next ((s.onArr j a (fun r => { r with mask := (s.arr j a).mask + 1, step := 0 })).setArr j
      (if 7 ≤ (s.arr j a).mask then 2 else 1) a) := by
  change execRampStep j a s = _
  simp [execRampStep, hj, Nat.not_lt.mpr h, hs, ok_true, State.withQueue_self]

/-- RAMP_STEP of an array that ramps down (R52). -/
theorem exec_rampStep_down (hj : arrayOk j a = true) (h : s.rampStep j ≤ (s.arr j a).step) (hs : s.arrState j a = 4) :
    exec (.rampStep j a) s = .next ((s.onArr j a (fun r => { r with mask := (s.arr j a).mask - 1, step := 0 })).setArr j
      (if (s.arr j a).mask ≤ 1 then 0 else 4) a) := by
  change execRampStep j a s = _
  simp [execRampStep, hj, Nat.not_lt.mpr h, hs, ok_true, State.withQueue_self]

/-- After a ramp step the array has its new mask and state, and memory is as it was. -/
theorem State.rampStepped_spec (ha : a < 4) {v n : Nat} (hv : v < 16) :
    let t := (s.onArr j a (fun r => { r with mask := n, step := 0 })).setArr j v a
    (t.arr j a).mask = n ∧ t.arrState j a = v ∧ t.mem = s.mem :=
  ⟨by simp, State.arrState_setArr _ ha hv j, by simp⟩

/-- SHADOW_LOAD_DONE in an array that a job holds (R42). -/
theorem exec_shadowLoadDone_busy (hj : arrayOk j a = true) (h : s.arrayBusy j a = true) :
    exec (.shadowLoadDone j a) s =
      .next (s.onArr j a (fun r => if r.held then { r with shadow := true } else { r with held := true })) := by
  change execShadowLoadDone j a s = _
  simp [execShadowLoadDone, hj, h, ok_true, State.withQueue_self]

/-- ARRAY_CONFIG_CHANGE of a tile in which an operator waits for a configuration (R43). -/
theorem exec_arrayConfigChange_wanted (hj : j < 64) {sh l th : Nat} (h : (s.tile j).want = some (sh, l, th)) :
    exec (.arrayConfigChange j) s =
      .next (if s.arraysIdle j then s.fset TILE_ARRAY_STATUS.SHAPE j 0 sh else s) := by
  change execArrayConfigChange j s = _
  simp only [execArrayConfigChange, tileOk, hj, h, decide_true, ok_true]
  rw [State.withQueue_self (by split <;> simp)]

end ThrottleAndRamp

/-- Settles O6: command by command, by the tile's counter, the ramp's step and the array's state. -/
theorem throttleRampAndConfigurationAct : Obligations.ThrottleRampAndConfigurationAct := by
  unfold Obligations.ThrottleRampAndConfigurationAct
  intro s j a v hj ha
  have hja : arrayOk j a = true := arrayOk_iff.mpr ⟨hj, ha⟩
  refine ⟨fun hu => exec_tileThrottleWrite_mgmt s hj hu v, fun who hw hm => exec_tileThrottleWrite_host s hj hw hm v,
    fun h => ?takesEffect, exec_throttleTakeEffect_waits s hj, exec_rampStep_waits s hja, fun h hs => ?up, fun h hs => ?down,
    fun h => ?load, fun sh l th h => ⟨fun hi => ?idle, fun hi => ?busy⟩⟩
  case takesEffect =>
    refine ⟨_, exec_throttleTakeEffect_zero s hj h, ?_, by simp⟩
    rw [State.fget_fset_same]
    exact Nat.mod_eq_of_lt (Nat.lt_of_le_of_lt (Nat.min_le_right _ 6) (by decide))
  case up => exact ⟨_, exec_rampStep_up s hja h hs, s.rampStepped_spec ha (by split <;> decide)⟩
  case down => exact ⟨_, exec_rampStep_down s hja h hs, s.rampStepped_spec ha (by split <;> decide)⟩
  case load =>
    refine ⟨_, exec_shadowLoadDone_busy s hja h, ?_⟩
    rw [State.arr_onArr]
    cases (s.arr j a).held <;> simp
  case idle => rw [exec_arrayConfigChange_wanted s hj h, if_pos hi]
  case busy => rw [exec_arrayConfigChange_wanted s hj h, if_neg (by simp [hi])]

section MatrixStart

variable (s : State) (c : Ctx) (m : Mm) (k : State)

/-- The operator at which a thread of a tile stands is of that thread. -/
theorem State.opOf_thread {s : State} {c : Ctx} {p l j th : Nat} {i : Inst} (h : s.opOf p l i j th = some c) :
    c.thread = th := by
  unfold State.opOf at h
  dsimp only at h
  split at h
  · cases h
  · rw [← Option.some.inj h]

/-- The operator at which a thread of a tile now stands is of that tile and thread. -/
theorem State.cur_place {s : State} {c : Ctx} {j th : Nat} (h : s.cur j th = some c) : c.tile = j ∧ c.thread = th := by
  unfold State.cur at h
  split at h
  · cases h
  · exact ⟨State.opOf_tile h, State.opOf_thread h⟩

/-- The operator that a thread of a tile may start is of that tile and thread. -/
theorem State.startOf_place {s : State} {c : Ctx} {op j th : Nat} (h : s.startOf op j th = some c) :
    c.tile = j ∧ c.thread = th := by
  unfold State.startOf at h
  split at h
  · cases h
  · rename_i d hd
    split at h
    · rw [← Option.some.inj h]
      exact State.cur_place hd
    · cases h

/-- The operator that asked for the configuration acquires its arrays once it can, and asks no more (R105). -/
theorem State.withArrays_asked {sh : Nat} (hw : (s.tile c.tile).want = some (sh, c.level, c.thread))
    (hf : s.arraysFree c = true) : s.withArrays c k = k.onTile c.tile (fun w => { w with want := none }) := by
  simp [State.withArrays, hw, hf]

/-- With no configuration asked for and no lower thread served first, an operator acquires arrays that are free (R105). -/
theorem State.withArrays_free (hw : (s.tile c.tile).want = none) (hf : s.arraysFree c = true)
    (hs : s.servedFirst c = false) : s.withArrays c k = k := by
  obtain ⟨hshape, hbusy⟩ : shapeOk (s.fget TILE_ARRAY_STATUS.SHAPE c.tile 0) c.arrays.1 c.arrays.2 = true ∧
      c.arrays.2.any (s.arrayBusy c.tile) = false := by
    simpa [State.arraysFree] using hf
  simp only [State.withArrays, hw, hshape, hbusy, hs, Bool.not_true, Bool.or_self, Bool.false_eq_true, if_false]

/-- While another thread asks for a configuration, an operator waits for its unit (R105). -/
theorem State.withArrays_otherAsked (hw : (s.tile c.tile).want ≠ none)
    (hn : ∀ sh, (s.tile c.tile).want ≠ some (sh, c.level, c.thread)) : s.withArrays c k = s.waitUnit c := by
  cases h : (s.tile c.tile).want with
  | none => exact absurd h hw
  | some x =>
    obtain ⟨sh, l, th⟩ := x
    simp only [State.withArrays, h]
    refine if_neg ?_
    rintro ⟨rfl, rfl, -⟩
    exact hn sh h

/-- In a configuration that fits, an operator whose arrays are held, or that a lower thread precedes, waits (R105). -/
theorem State.withArrays_busy (hw : (s.tile c.tile).want = none)
    (hf : shapeOk (s.fget TILE_ARRAY_STATUS.SHAPE c.tile 0) c.arrays.1 c.arrays.2 = true)
    (hb : c.arrays.2.any (s.arrayBusy c.tile) = true ∨ s.servedFirst c = true) : s.withArrays c k = s.waitUnit c := by
  simp only [State.withArrays, hw, hf, Bool.not_true, Bool.false_eq_true, if_false]
  exact if_pos (Bool.or_eq_true _ _ ▸ hb)

/-- In a configuration that does not fit, an operator asks for the one that does, and waits (R43, R105). -/
theorem State.withArrays_asks (hw : (s.tile c.tile).want = none)
    (hf : shapeOk (s.fget TILE_ARRAY_STATUS.SHAPE c.tile 0) c.arrays.1 c.arrays.2 = false) :
    s.withArrays c k = (s.waitUnit c).onTile c.tile (fun w => { w with
      want := some (shapeFor (s.fget TILE_ARRAY_STATUS.SHAPE c.tile 0) c.arrays.1 c.arrays.2, c.level, c.thread) }) := by
  simp only [State.withArrays, hw, hf, Bool.not_false, if_true]

/-- An operator that waits for a unit changes its thread alone. -/
theorem State.waitUnit_spec :
    ((s.waitUnit c).thr c.tile c.level c.thread).st = .unit ∧ (s.waitUnit c).tiles = s.tiles ∧
      (s.waitUnit c).jobs = s.jobs ∧ (s.waitUnit c).mem = s.mem ∧ (s.waitUnit c).regs = s.regs := by
  simp [State.waitUnit]

/-- The job of a matrix operator at its first pass (R38, R98): its committed accumulator is the initial one, and its running
pass holds the first pass's sums over it. -/
def State.firstJob : Job :=
  let acc := (s.initAcc c.tile m).1
  let w := s.passWork c.tile m 0 acc
  { thread := c.thread, stream := m.stream, arrays := m.arrays, pass := 0, passes := m.passes, acc := acc, work := w.1
    ovf := w.2.1, intSat := w.2.2.1, retried := false, nan := false, shape := s.fget TILE_ARRAY_STATUS.SHAPE c.tile 0
    pre := .none, cuts := [], saved := false }

/-- An operator's reads leave the tiles. -/
@[simp] theorem State.opReads_tiles (rs : List (Nat × Nat)) : (s.opReads c rs).tiles = s.tiles := by
  obtain ⟨htiles, -⟩ := State.opReads_keeps (within_opened _ s) s c rs (.refl _ s) .tiles (by decide)
  exact htiles.symm

/-- Beginning to feed leaves the tiles. -/
@[simp] theorem State.feed_tiles (j p : Nat) (fed : List Nat) (wait : Nat) : (s.feed j m p fed wait).tiles = s.tiles :=
  keeps_foldl (P := fun u => u.tiles = s.tiles) (fun u x h => by simpa using h) rfl

/-- A matrix operator with a pass, its operands good, begins its first job: no other change of the tile is made. -/
theorem State.startJob_begins (hp : m.passes ≠ 0) (h0 : (s.initAcc c.tile m).2 = false)
    (hw : (s.passWork c.tile m 0 (s.initAcc c.tile m).1).2.2.2 = false) :
    ∃ u : State, u.tiles = s.tiles ∧ s.startJob c m =
      ((u.setJob c.tile c.level (m.arrays.headD 0) (some (s.firstJob c m))).feed c.tile m 0 [] 0).onThr c.tile c.level
        c.thread (fun h => { h with st := .arrays }) := by
  simp only [State.startJob, hp, h0, hw, Bool.or_self, Bool.false_eq_true, if_false]
  refine ⟨_, ?_, rfl⟩
  refine keeps_foldl (P := fun u => u.tiles = s.tiles) (fun u x h => by simpa using h) ?_
  rw [State.passTouch, State.opReads_tiles]
  split <;> simp

/-- A matrix operator that begins: the job its first array leads, its thread, and the tiles as they were. -/
theorem State.startJob_spec (hp : m.passes ≠ 0) (h0 : (s.initAcc c.tile m).2 = false)
    (hw : (s.passWork c.tile m 0 (s.initAcc c.tile m).1).2.2.2 = false) :
    (s.startJob c m).job c.tile c.level (m.arrays.headD 0) = some (s.firstJob c m) ∧
      ((s.startJob c m).thr c.tile c.level c.thread).st = .arrays ∧ (s.startJob c m).tiles = s.tiles := by
  obtain ⟨u, hu, e⟩ := s.startJob_begins c m hp h0 hw
  rw [e]
  refine ⟨?_, by simp, by simp [hu]⟩
  exact (State.job_congr _ (by simp) ..).trans (State.job_setJob u ..)

/-- The two matrix operators, as a thread starts them: acquire the arrays, then the first pass (R38, R98). -/
theorem exec_matmul {s : State} {c : Ctx} {m : Mm} {j th op : Nat} {cmd : Instr} (hj : threadOk j th = true)
    (hcmd : cmd = .matmulStream j th ∧ op = 1 ∨ cmd = .matmulStationary j th ∧ op = 2)
    (hc : s.startOf op j th = some c) (hm : s.mm c = some m) :
    exec cmd s = .next (((s.withArrays c (s.startJob c m)).issued j th).withQueue s.pending) := by
  rcases hcmd with ⟨rfl, rfl⟩ | ⟨rfl, rfl⟩
  · change execMatmulStream j th s = _
    simp only [execMatmulStream, hj, hc, hm, ok_true]
  · change execMatmulStationary j th s = _
    simp only [execMatmulStationary, hj, hc, hm, ok_true]

/-- A thread's issuing writes which thread of the tile issued last, and the queue is the queue: all else reads as before. -/
theorem State.issued_withQueue_spec {j th : Nat} (q : List Instr) :
    let t := (k.issued j th).withQueue q
    (t.tile j).want = (k.tile j).want ∧ t.thrs = k.thrs ∧ t.jobs = k.jobs ∧ t.mem = k.mem ∧ t.regs = k.regs := by
  refine ⟨?_, by simp [State.issued], by simp [State.issued], by simp [State.issued], by simp [State.issued]⟩
  rw [State.tile_congr (k.issued j th) (by simp), State.issued, State.tile_onTile]

end MatrixStart

/-- Settles O7: by whether a configuration is asked for, fits, and has its arrays free. -/
theorem matrixOperatorsStartTheirFirstPass : Obligations.MatrixOperatorsStartTheirFirstPass := by
  unfold Obligations.MatrixOperatorsStartTheirFirstPass
  intro s j th op cmd c m hj hcmd hc hm
  obtain ⟨rfl, rfl⟩ := State.startOf_place hc
  have hexec := exec_matmul hj hcmd hc hm
  obtain ⟨hthr, htiles, hjobs, hmem, hregs⟩ := s.waitUnit_spec c
  refine ⟨fun hwant hf hp h0 hw => ?begins, fun hn hwait => ?waits, fun hn hf => ?asks⟩
  case begins =>
    obtain ⟨kjob, kthr, ktiles⟩ := s.startJob_spec c m hp h0 hw
    have acquired : ∃ k, s.withArrays c (s.startJob c m) = k ∧ k.jobs = (s.startJob c m).jobs ∧
        k.thrs = (s.startJob c m).thrs ∧ (k.tile c.tile).want = none := by
      rcases hwant with ⟨hn, hs⟩ | ⟨sh, ha⟩
      · exact ⟨_, s.withArrays_free c _ hn hf hs, rfl, rfl, by rw [State.tile_congr s ktiles, hn]⟩
      · exact ⟨_, s.withArrays_asked c _ ha hf, by simp, by simp, by simp⟩
    obtain ⟨k, hk, kjobs, kthrs, kwant⟩ := acquired
    rw [hk] at hexec
    obtain ⟨twant, tthrs, tjobs, -, -⟩ := k.issued_withQueue_spec (j := c.tile) (th := c.thread) s.pending
    refine ⟨_, s.firstJob c m, hexec, ?_, rfl, rfl, rfl, rfl, rfl, rfl, rfl, rfl, ?_, twant.trans kwant⟩
    · exact (State.job_congr _ (tjobs.trans kjobs) ..).trans kjob
    · rw [State.thr_congr _ (tthrs.trans kthrs), kthr]
  case waits =>
    have hk : s.withArrays c (s.startJob c m) = s.waitUnit c := by
      rcases Decidable.em ((s.tile c.tile).want = none) with h | h
      · obtain ⟨hf, hb⟩ := hwait.resolve_left (absurd h)
        exact s.withArrays_busy c _ h hf hb
      · exact s.withArrays_otherAsked c _ h hn
    rw [hk] at hexec
    obtain ⟨twant, tthrs, tjobs, tmem, tregs⟩ :=
      (s.waitUnit c).issued_withQueue_spec (j := c.tile) (th := c.thread) s.pending
    refine ⟨_, hexec, ?_, ?_, tjobs.trans hjobs, tmem.trans hmem, tregs.trans hregs⟩
    · rw [State.thr_congr _ tthrs, hthr]
    · rw [twant, State.tile_congr s htiles]
  case asks =>
    rw [s.withArrays_asks c _ hn hf] at hexec
    obtain ⟨twant, tthrs, tjobs, tmem, tregs⟩ :=
      State.issued_withQueue_spec _ (j := c.tile) (th := c.thread) s.pending
    refine ⟨_, hexec, ?_, ?_, ?_, ?_, ?_⟩
    · rw [State.thr_congr _ tthrs, State.thr_congr (s.waitUnit c) (by simp), hthr]
    · rw [twant, State.tile_onTile]
    · rw [tjobs]; simpa using hjobs
    · rw [tmem]; simpa using hmem
    · rw [tregs]; simpa using hregs

end Sys2Proof.Machine
end

section
/-!
SUPPORT. Which registers the work of a tile's operators writes: a predicate that speaks of the register file alone, and bears a
write of each of the fields listed here, holds after every memory access, record, page operation and operator's end.
-/

namespace Sys2Proof.Machine

/-- The fields that memory accesses (R264 to R270), records (R273, R294), page operations (R158, R176) and operators that end
(R88, R110, R114, R128) write. -/
def workFields : List Field :=
  [ERR_EVENT.TALLY_OVF, ERR_EVENT.UNCORRECTED, ERR_EVENT.WRITE_REFUSED, ERR_EVENT.Q_LOST, ERR_EVENT.FATAL, ERR_EVENT.RECORD,
   ERR_TALLY.T0, ERR_CE_COUNT0.T0, ERR_CE_COUNT0.WSE, ERR_CE_COUNT1.LLM, ERR_CE_COUNT1.T1P, ERR_Q_PROD.PROD,
   ERR_Q_STATUS.LOST, VF_Q_PROD.PROD, VF_Q_STATUS.LOST, KV_POOL_FREE.FREE_FRAMES, KV_COUNT.SEAL_FAILS, KV_EVENT.SEAL_FAIL,
   TILE_NUM_EVENT.NAN_OUT, TILE_NUM_EVENT.ACC_OVF, TILE_NUM_EVENT.INT_SAT, TILE_NUM_EVENT.SAT, TILE_NUM_EVENT.NAN_TO_ZERO,
   TILE_NUM_EVENT.SAMPLE_INVALID, TILE_NUM_COUNT.SAT_COUNT, TILE_NUM_COUNT.NAN_COUNT, TILE_SEQ_EVENT.SEM_SAT,
   TILE_SEQ_EVENT.OP_RETRIED, TILE_SEQ_FAULT.OP_INDEX, TILE_SEQ_FAULT.THREAD, TILE_SEQ_FAULT.CAUSE, TILE_SEQ_FAULT.VALID,
   ATTN_EVENT.EMPTY_ROW, ATTN_EVENT.REC_NAN]

/-- A predicate speaks of the register file alone and bears a write of each of those fields, in any unit, or of one packed
behind it in its register. -/
structure Spared (P : State → Prop) : Prop where
  quiet : ∀ {s t : State}, t.regs = s.regs → P s → P t
  write : ∀ {s : State} {f : Field}, P s → f ∈ workFields → ∀ {sh : Nat}, f.lo + sh < 64 →
    ∀ u i v, P (s.fsetAt f u i sh v)

namespace Spared

section Registers

variable {P : State → Prop} (hP : Spared P) {s : State} (h : P s)
include hP h

/-- A listed field is set. -/
theorem fset {f : Field} (hf : f ∈ workFields) (u i v : Nat) : P (s.fset f u i v) :=
  hP.write h hf (sh := 0) ((by decide : ∀ g ∈ workFields, g.lo + 0 < 64) f hf) u i v

/-- Bits of a listed event field are set, and its vector is raised (R293). -/
theorem evt {f : Field} (hf : f ∈ workFields) (u i mask : Nat) (p : Option Nat) : P (s.evt f u i mask p) :=
  hP.quiet (State.evt_regs ..) (hP.fset h hf u i _)

/-- A vector is raised (R293). -/
theorem raise2 (fn v : Nat) : P (s.raise2 fn v) := hP.quiet (by simp) h

/-- A request is answered. -/
theorem answer (k : RespKind) (d : List Byte) : P (s.answer k d) := hP.quiet (by simp) h

/-- An answer is put back. -/
theorem withRsp (r : Resp) : P (s.withRsp r) := hP.quiet (by simp) h

/-- A listed event bit of a tile is set where its condition holds. -/
theorem flagIf {f : Field} (hf : f ∈ workFields) (j : Nat) (b : Bool) : P (s.flagIf f j b) :=
  keeps_ite (hP.fset h hf j 0 1) h

end Registers

section Records

variable {P : State → Prop} (hP : Spared P) {s : State} (h : P s)
include hP h

/-- A record's severity sets its event bits (Table 10.14). -/
theorem sevEvents (n : Nat) (r : ErrRec) : P (s.sevEvents n r) :=
  keeps_ite (hP.evt h (by decide) ..) (keeps_ite (hP.evt h (by decide) ..) h)

/-- A record goes into its hub's queue, or is counted as lost (R273). -/
theorem recordQueue (n : Nat) (r : ErrRec) : P (s.recordQueue n r) := by
  unfold State.recordQueue
  refine keeps_ite (hP.evt (hP.fset h (by decide) ..) (by decide) ..) (hP.evt (hP.fset ?_ (by decide) ..) (by decide) ..)
  exact hP.quiet (by simp) h

/-- The virtual function gets its copy of a record (R294). -/
theorem vfCopy (n p : Nat) (r : ErrRec) : P (s.vfCopy n p r) := by
  unfold State.vfCopy
  split
  · exact h
  · refine keeps_ite (hP.fset h (by decide) ..) (hP.raise2 (hP.fset ?_ (by decide) ..) ..)
    exact hP.quiet (by simp) h

/-- A record arrives at a hub (R273, R294). -/
theorem record (n : Nat) (r : ErrRec) : P (s.record n r) := by
  have queued (q : ErrRec) : P (((s.sevEvents n q).recordFeed q).recordQueue n q) :=
    hP.recordQueue (hP.quiet (by simp) (hP.sevEvents h n q)) n q
  unfold State.record
  dsimp only
  split
  · exact hP.vfCopy (queued _) ..
  · exact queued _

end Records

section Words

variable {P : State → Prop} (hP : Spared P) {s : State} (h : P s)
include hP h

/-- A correction is tallied, and an overflowing bucket is recorded (R266). -/
theorem tallyAdd {n : Nat} (hn : n < 4) (k : Nat) (r : ErrRec) : P (s.tallyAdd k n r) := by
  have counted : P (s.fcount (ceCount n) k 0) := by
    refine hP.fset h ?_ ..
    unfold ceCount
    split_ifs <;> decide
  have packed (v : Nat) : P ((s.fcount (ceCount n) k 0).fsetAt ERR_TALLY.T0 k 0 (8 * n) v) :=
    hP.write counted (by decide) (by simp only [ERR_TALLY.T0]; omega) ..
  exact keeps_ite (hP.record (hP.evt (hP.quiet (by simp) (packed 0)) (by decide) ..) ..) (hP.quiet (by simp)
    (packed (s.fgetAt ERR_TALLY.T0 k 0 (8 * n) + 1)))

/-- A correction of a word is tallied (R266). -/
theorem tallyWord (w src : Nat) (p : Option Nat) : P (s.tallyWord w src p) := by
  unfold State.tallyWord
  split
  · exact h
  · rename_i n hn
    refine hP.tallyAdd h ?_ ..
    cases hc : s.cls w <;> simp [hc, Cls.tally] at hn <;> omega

/-- A correction is tallied unless its write-back is queued (R265). -/
theorem tallyOnce (w src : Nat) (p : Option Nat) : P (s.tallyOnce w src p) := by
  unfold State.tallyOnce
  split
  · exact keeps_ite h (hP.tallyWord h ..)
  · exact h

/-- A word takes the poison mark (R261). -/
theorem markPoison (w : Nat) : P (s.markPoison w) := hP.quiet (by simp) h

/-- A word is stored clean (R263). -/
theorem storeClean (w : Nat) (bs : List Byte) : P (s.storeClean w bs) := hP.quiet (by simp) h

/-- A word is stored with the poison mark (R261). -/
theorem storePoison (w : Nat) (bs : List Byte) : P (s.storePoison w bs) := hP.quiet (by simp) h

/-- A tile or an engine stores bytes of a word (R262, R263, R267). -/
theorem storeWord (w off : Nat) (bs : List Byte) (poisoned : Bool) : P (s.storeWord w off bs poisoned) := by
  have past : P (s.supersede (w + off) bs.length) := hP.quiet (by simp) h
  have tallied := keeps_ite (c := off = 0 ∧ bs.length ≥ ((s.supersede (w + off) bs.length).cls w).word) past
    (hP.tallyOnce past w 3 ((s.supersede (w + off) bs.length).ownerOf w))
  exact keeps_ite (hP.quiet (by simp) tallied) (keeps_ite (hP.storePoison tallied ..) (hP.storeClean tallied ..))

/-- Bytes are stored word by word. -/
theorem store (k : Nat) (bs : List Byte) (poisoned : Bool) : P (s.store k bs poisoned) :=
  keeps_foldl (fun _ _ ht => hP.storeWord ht ..) h

/-- A read decodes a word (R261, R265). -/
theorem readWord (src : Nat) (p : Option Nat) (w : Nat) : P (s.readWord src p w) := by
  unfold State.readWord
  split
  · exact keeps_ite h (hP.quiet (by simp) (hP.tallyWord h w src p))
  · exact hP.markPoison h w
  · exact h

/-- A read records a bad word (R264). -/
theorem badRecord (src : Nat) (p : Option Nat) (sev : Nat) (b : By) (w : Nat) : P (s.badRecord src p sev b w) := by
  unfold State.badRecord
  dsimp only
  split <;> exact hP.record h ..

/-- A range is read (R264). -/
theorem readRange (src : Nat) (p : Option Nat) (sev : Nat) (b : By) (k n : Nat) : P (s.readRange src p sev b k n) := by
  unfold State.readRange
  refine keeps_foldl (fun _ _ ht => hP.readWord ht ..) ?_
  split
  · exact hP.badRecord h ..
  · exact h

/-- An operator's ranges are read (R264). -/
theorem opReads (c : Ctx) (rs : List (Nat × Nat)) : P (s.opReads c rs) :=
  keeps_foldl (fun _ _ ht => hP.readRange ht ..) h

end Words

section EngineWrites

variable {P : State → Prop} (hP : Spared P) {s : State} (h : P s)
include hP h

/-- An error answer of one word stands for the whole write (R269). -/
theorem orError (k : RespKind) : P (s.orError k) := keeps_ite (hP.quiet (by simp) h) h

/-- A word goes through read-modify-write (R269). -/
theorem rmw (w off mask data : Nat) (poisoned : Bool) (ws : List (Nat × Nat)) : P (s.rmw w off mask data poisoned ws) := by
  unfold State.rmw
  dsimp only
  refine keeps_ite (hP.answer ?refused ..) (hP.answer ?stored ..)
  case refused =>
    have recorded (k : Nat) (r : ErrRec) (p : Option Nat) : P ((s.record k r).evt ERR_EVENT.WRITE_REFUSED k 0 1 p) :=
      hP.evt (hP.record h k r) (by decide) ..
    exact keeps_ite (hP.markPoison (recorded ..) w) (recorded ..)
  case stored => exact keeps_ite (hP.storePoison (hP.tallyOnce h ..) ..) (hP.storeClean (hP.tallyOnce h ..) ..)

/-- A merge entry closes (R268). -/
theorem closeEntry (e : MergeEnt) : P (s.closeEntry e) := by
  unfold State.closeEntry
  refine keeps_foldl (fun t i ht => ?_) (hP.quiet (by simp) h)
  refine keeps_ite ht (hP.orError (keeps_ite (hP.answer ?_ ..) (hP.rmw ht ..)) _)
  exact keeps_ite (hP.storePoison ht ..) (hP.storeClean ht ..)

/-- A block's open merge entry closes (R268). -/
theorem closeBlock (blk : Nat) : P (s.closeBlock blk) := by
  unfold State.closeBlock
  split
  · exact h
  · exact hP.closeEntry (hP.quiet (by simp) h) _

/-- A range's open merge entries close (R268). -/
theorem closeRange (k n : Nat) : P (s.closeRange k n) := keeps_foldl (fun _ _ ht => hP.closeBlock ht _) h

/-- A partial write joins the merge buffer (R268). -/
theorem mergeWrite (src p k : Nat) (bs : List Byte) (poisoned : Bool) : P (s.mergeWrite src p k bs poisoned) := by
  unfold State.mergeWrite
  dsimp only
  split
  · exact keeps_ite (hP.closeEntry (hP.quiet (by simp) h) _) (hP.quiet (by simp) h)
  · have room {r : State} (hr : P r) (e : MergeEnt) (l m : List MergeEnt) (full : Bool) :
        P (if full then State.closeEntry (r.withMerge l) e else State.answer (r.withMerge m) .none []) :=
      keeps_ite (hP.closeEntry (hP.quiet (by simp) hr) _) (hP.quiet (by simp) hr)
    refine room (keeps_ite ?_ h) ..
    split
    · exact hP.closeBlock h _
    · exact h

/-- Part of a word is written (R267). -/
theorem partWrite (src p w off : Nat) (bs : List Byte) (poisoned : Bool) : P (s.partWrite src p w off bs poisoned) := by
  unfold State.partWrite
  split
  · exact hP.quiet (by simp) h
  · exact hP.quiet (by simp) h
  · exact hP.answer (hP.storeWord h ..) ..
  · exact hP.answer (hP.storeWord h ..) ..
  · exact keeps_ite (hP.mergeWrite h ..) (hP.rmw h ..)

/-- A word is written whole or in part (R263, R267). -/
theorem writeWord (src p w off : Nat) (bs : List Byte) (poisoned : Bool) : P (s.writeWord src p w off bs poisoned) := by
  refine keeps_ite (hP.answer ?_ ..) (hP.partWrite h ..)
  exact keeps_ite (hP.storePoison (hP.closeBlock h _) ..) (hP.storeClean (hP.closeBlock h _) ..)

/-- Bytes are written word by word, some of them poisoned (R262). -/
theorem writeMarks (src p k : Nat) (bs : List Byte) (bad : Nat) : P (s.writeMarks src p k bs bad) :=
  keeps_foldl (fun _ _ ht => hP.orError (hP.writeWord ht ..) _) (hP.quiet (by simp) h)

/-- A hub engine reads what it owns (R265, R276). -/
theorem engSee (src p k n : Nat) : P (s.engSee src p k n) :=
  hP.withRsp (hP.readRange (hP.closeRange h k n) ..) _

/-- A hub engine writes what it owns (R269, R270). -/
theorem engWrite (src p k : Nat) (bs : List Byte) : P (s.engWrite src p k bs) :=
  hP.withRsp (hP.writeMarks h ..) _

end EngineWrites

section Pages

variable {P : State → Prop} (hP : Spared P) {s : State} (h : P s) (pg : Nat)
include hP h

/-- The ledger engine reads a page's entry (R276). -/
theorem seeLed : P (s.seeLed pg) := keeps_ite (hP.fset (hP.engSee h ..) (by decide) ..) (hP.engSee h ..)

/-- A page's ledger entry is written. -/
theorem setLed (e : Led) : P (s.setLed pg e) := hP.engWrite h ..

/-- An entry and its frame are released (R158). -/
theorem release : P (s.release pg) := hP.fset (hP.setLed (hP.quiet (by simp) h) ..) (by decide) ..

/-- A page is dropped (R176). -/
theorem dropPage : P (s.dropPage pg) := keeps_ite h (hP.engWrite (hP.setLed h ..) ..)

/-- A reference is removed (R158). -/
theorem unref : P (s.unref pg) := by
  have seen := hP.seeLed h pg
  exact keeps_ite seen (keeps_ite (hP.release (hP.setLed seen ..) _) (hP.setLed seen ..))

/-- A page that was dropped while pinned goes at its last unpin (R179). -/
theorem dropNow : P (s.dropNow pg) := by
  unfold State.dropNow
  split
  · exact h
  · have gone (v : List (Nat × Nat × Nat × Nat × Nat)) : P (s.withDropLater v) := hP.quiet (by simp) h
    exact keeps_ite (hP.unref (hP.engWrite (hP.engWrite (gone _) ..) ..) _) (gone _)

/-- A pin is removed (R158, R179). -/
theorem unpin : P (s.unpin pg) := by
  have seen := hP.seeLed h pg
  unfold State.unpin
  refine keeps_ite seen ?_
  split
  · exact hP.quiet (by simp) seen
  · exact keeps_ite (hP.setLed seen ..) (keeps_ite (hP.release (hP.setLed seen ..) _) (hP.dropNow (hP.setLed seen ..) _))

/-- A whole-page read fails (R176, R229). -/
theorem sealFail (p l handle src : Nat) : P (s.sealFail p l pg handle src) :=
  hP.dropPage (hP.record (hP.evt (hP.fset h (by decide) ..) (by decide) ..) ..) _

/-- An attention operator's pins and steps go (R158). -/
theorem attnDrop (j l t : Nat) : P (s.attnDrop j l t) := by
  have unpinned (pgs : List Nat) : P (pgs.foldl State.unpin s) := keeps_foldl (fun _ _ ht => hP.unpin ht _) h
  exact hP.quiet (by rfl) (unpinned _)

end Pages

section Operators

variable {P : State → Prop} (hP : Spared P) {s : State} (h : P s)
include hP h

/-- An operator's numeric conditions reach its tile's registers (R88). -/
theorem numEv (j : Nat) (e : NumEv) : P (s.numEv j e) := by
  refine hP.fset (hP.fset ?flags (by decide) ..) (by decide) ..
  exact hP.flagIf (hP.flagIf (hP.flagIf (hP.flagIf (hP.flagIf (hP.flagIf h (by decide) ..) (by decide) ..) (by decide) ..)
    (by decide) ..) (by decide) ..) (by decide) ..

/-- A fault is put into TILE_SEQ_FAULT (Table 4.17). -/
theorem seqFault (j opIndex t cause : Nat) : P (s.seqFault j opIndex t cause) :=
  keeps_ite h (hP.fset (hP.fset (hP.fset (hP.fset h (by decide) ..) (by decide) ..) (by decide) ..) (by decide) ..)

/-- An operator ends in fault (R114, R115). -/
theorem opEndFault (c : Ctx) (cause : Nat) : P (s.opEndFault c cause) :=
  hP.quiet (State.opEndFault_regs ..) (hP.seqFault h ..)

/-- An operator meets a fault: it is retried, or ends (R114). -/
theorem opFault (c : Ctx) (cause : Nat) : P (s.opFault c cause) := keeps_ite (hP.quiet (by rfl) h) (hP.opEndFault h ..)

/-- An operator ends normally (R92, R114). -/
theorem opDone (c : Ctx) : P (s.opDone c) :=
  hP.quiet (by simp [State.opDone]) (hP.flagIf h (f := TILE_SEQ_EVENT.OP_RETRIED) (by decide) c.tile
    (s.thr c.tile c.level c.thread).retried)

/-- An operator that waits for accesses ends in fault. -/
theorem failIo (c : Ctx) (cause : Nat) : P (s.failIo c cause) := hP.opFault (hP.attnDrop h ..) ..

/-- An operator has written its results and ends (R88). -/
theorem endWritten (c : Ctx) : P (s.endWritten c) := keeps_ite (hP.opFault h ..) (hP.opDone h _)

/-- An operator reads an uncorrectable semaphore (R276). -/
theorem semUe (c : Ctx) : P (s.semUe c) := hP.opFault (hP.record h ..) ..

/-- An operator reads the semaphores it names. -/
theorem ifSems (c : Ctx) (ns : List (Nat × Nat)) {t : State} (ht : P t) : P (State.ifSems s c ns s t) :=
  keeps_ite (hP.semUe h c) ht

/-- A semaphore is added to (R110). -/
theorem semAdd (c : Ctx) (scope n add : Nat) : P (s.semAdd c scope n add) := by
  have flagged := hP.flagIf h (f := TILE_SEQ_EVENT.SEM_SAT) (by decide) c.tile
    (decide (s.sem c scope n + add > 0xFFFFFFFF))
  exact keeps_ite (hP.quiet (by simp) flagged) (hP.quiet (by simp) flagged)

/-- Rows are written to a slot. -/
theorem putRows (j : Nat) (sl : Slot) (r0 : Nat) (rows : List (List Nat)) : P (s.putRows j sl r0 rows).1 :=
  keeps_foldl11 (fun _ _ ht => hP.store (hP.store ht ..) ..) h

omit h in
/-- An operator's outputs are written and it ends (R88). -/
theorem finish (c : Ctx) {r : State × NumEv} (hr : P r.1) : P (State.finish s c false r) := by
  simp only [State.finish, Bool.false_eq_true, if_false]
  exact keeps_ite (hP.opFault (hP.numEv hr ..) ..) (hP.opDone (hP.numEv hr ..) _)

/-- A vector operator reads its slots, writes its outputs and ends. -/
theorem vecEnd (c : Ctx) (reads : List (Nat × Nat)) {go : State → State × NumEv} (hgo : ∀ t, P t → P (go t).1) :
    P (s.vecEnd c reads go) := by
  have read := hP.opReads h c reads
  exact keeps_ite (hP.opFault read ..) (hP.finish c (hgo _ read))

end Operators

section OperatorEnds

variable {P : State → Prop} (hP : Spared P) {s : State} (h : P s) (c : Ctx)
include hP h

/-- A DISPATCH ends (R99). -/
theorem dispatchEnd : P (s.dispatchEnd c) :=
  hP.ifSems h c _ (hP.opDone (keeps_foldl (fun _ _ ht => hP.semAdd ht ..) h) c)

/-- A COMBINE ends (R99). -/
theorem combineEnd : P (s.combineEnd c) :=
  hP.ifSems h c _ (hP.endWritten (keeps_foldl (fun _ _ ht => hP.semAdd ht ..) h) c)

/-- An EMBED ends. -/
theorem embedEnd : P (s.embedEnd c) := by
  unfold State.embedEnd
  dsimp only
  split
  · refine keeps_ite (hP.opFault h ..) (hP.vecEnd (keeps_ite h (hP.quiet (by simp) h)) _ _ fun t ht => ?_)
    exact hP.putRows ht ..
  · exact h

/-- The seals of the pages read are checked before what follows (R135, R151, R176). -/
theorem withPages (l : Nat) (ps : List (Nat × APage)) {k : State} (hk : P k) : P (State.withPages s c l ps k) := by
  unfold State.withPages
  split
  · exact hP.failIo (keeps_ite (hP.readRange h ..) (hP.sealFail h ..)) ..
  · exact hk

omit h in
/-- The rows of one of an operator's outputs, where it names one. -/
theorem putSlot {r : State × NumEv} (hr : P r.1) (sl : Option Slot) (j r0 : Nat) (rows : List (List Nat)) :
    P (match sl with
      | some q => let (u, e) := r.1.putRows j q r0 rows; (u, r.2.join e)
      | none => r).1 := by
  cases sl with
  | none => exact hr
  | some q => exact hP.putRows hr ..

/-- The results of attention rows are written (R131). -/
theorem putAttn (parts r0 : Nat) (rs : List (List ARec)) : P (s.putAttn c parts r0 rs).1 := by
  unfold State.putAttn
  refine keeps_ite1 ?whole (keeps_ite1 ?records ?split)
  case whole => exact hP.putSlot (hP.putSlot (hP.flagIf h (by decide) ..) ..) ..
  case records => exact hP.putSlot h ..
  case split => exact hP.putSlot (hP.putSlot h ..) ..

/-- A NaN record is flagged (R128). -/
theorem recNan (nan : Bool) : P (s.recNan c nan) := hP.flagIf h (by decide) ..

/-- An ATTEND_PREFILL writes its results. -/
theorem prefillEnd : P (s.prefillEnd c) := by
  unfold State.prefillEnd
  dsimp only
  split
  · exact h
  · exact hP.withPages h c _ _ (hP.vecEnd (hP.attnDrop h ..) c _ fun t ht => hP.putAttn (hP.recNan ht c _) c ..)

/-- An ATTEND_DECODE part writes its results (R135). -/
theorem decodeFinish (l : Nat) (q : Slot) (th : Nat → Option (List (List ARec))) : P (s.decodeFinish c l q th) :=
  hP.withPages h c _ _ (hP.vecEnd (hP.attnDrop h ..) c _ fun _ ht => hP.putAttn (hP.recNan ht c _) c ..)

/-- An ATTEND_DECODE ends (R135). -/
theorem decodeEnd : P (s.decodeEnd c) := by
  unfold State.decodeEnd
  dsimp only
  split
  · exact h
  · exact hP.decodeFinish h c ..

/-- An ATTEND_BWD writes its results (R141). -/
theorem bwdEnd : P (s.bwdEnd c) := by
  unfold State.bwdEnd
  dsimp only
  split
  · refine hP.withPages h c _ _ (hP.vecEnd (hP.attnDrop h ..) c _ fun t ht => ?_)
    exact hP.putSlot (hP.putSlot (hP.putSlot (r := (t, _)) ht ..) ..) ..
  · exact h

/-- An operator acquires its arrays before what follows, or waits (R105). -/
theorem withArrays {k : State} (hk : P k) : P (State.withArrays s c k) := by
  have waits : P (s.waitUnit c) := hP.quiet (s.waitUnit_spec c).2.2.2.2 h
  unfold State.withArrays
  split
  · exact keeps_ite (hP.quiet (by simp) hk) waits
  · exact keeps_ite (hP.quiet (by simp) waits) (keeps_ite waits hk)

/-- An attention operator whose pages have come goes on (R135). -/
theorem attnEnd : P (s.attnEnd c) :=
  keeps_ite h (keeps_ite (hP.withArrays h c (hP.prefillEnd h c))
    (keeps_ite (hP.withArrays h c (hP.bwdEnd h c)) (hP.decodeEnd h c)))

/-- An operator whose last request has completed goes on. -/
theorem afterIo : P (s.afterIo c) :=
  keeps_ite (hP.dispatchEnd h c) (keeps_ite (hP.combineEnd h c) (keeps_ite (hP.embedEnd h c) (keeps_ite (hP.endWritten h c)
    (keeps_ite (hP.attnEnd (hP.quiet (by simp) h) c) (hP.opDone h c)))))

/-- An operator that waits for the yarder goes on after its last request. -/
theorem yarderEnd : P (s.yarderEnd c) := keeps_ite (hP.afterIo h c) h

/-- The operators of a tile go on whose requests completed meanwhile. -/
theorem endYards (p l j : Nat) : P (s.endYards p l j) := by
  refine keeps_foldl (fun t k ht => ?_) h
  split
  · exact hP.yarderEnd ht _
  · exact ht

/-- A level's context is restored (R106). -/
theorem loadContext (p l j : Nat) : P (s.loadContext p l j) := by
  unfold State.loadContext
  dsimp only
  refine keeps_foldl (fun t k ht => keeps_ite ?_ ht) (keeps_ite ?_ (keeps_foldl (fun t k ht => hP.quiet (by simp) ht) ?_))
  · split
    · exact hP.opEndFault (hP.attnDrop (hP.opReads ht ..) ..) ..
    · exact ht
  all_goals exact keeps_foldl (fun t k ht => keeps_ite ht (hP.quiet (by simp) ht)) h

/-- A level's context is saved (R101, R106). -/
theorem saveContext (j l : Nat) : P (s.saveContext j l) :=
  keeps_ite h (hP.store (keeps_foldl (fun _ _ ht => hP.store ht ..) (hP.quiet (by simp) h)) ..)

end OperatorEnds

end Spared

end Sys2Proof.Machine
end

section
/-!
SUPPORT. Pre-emption: how a job is cut, parked and saved, and how a tile resumes in the configuration of its parked jobs.
-/

namespace Sys2Proof.Machine

section ArrayRegisters

/-- The field lies apart from the array registers of the tiles, whichever unit is taken: at another offset of its 4 KiB
block, or in the bank of the virtual functions' queues. -/
def Field.apart (f : Field) : Bool :=
  ((f.blk == .hub || f.blk == .tile) && f.stride == 0 && (decide (f.off % 0x1000 < 0x100) || decide (0x140 ≤ f.off % 0x1000))) ||
    f.blk == .vfq

/-- No field that lies apart, and none packed behind it, is a field of a tile's array registers. -/
theorem Field.apart_key_ne {f g : Field} (hf : f.apart = true) (hb : g.blk = .tile) (h1 : 0x100 ≤ g.off) (h2 : g.off < 0x140)
    (hs : g.stride = 0) (hg : g.lo < 64) {j sh : Nat} (hj : j < 64) (hl : f.lo + sh < 64) (u i : Nat) :
    g.key j 0 ≠ f.key u i + sh := by
  have hgk : g.key j 0 = (0x200000 + j * 0x1000 + g.off) * 64 + g.lo := by simp [Field.key, Field.addr, hb, hs, blkBase]
  rw [hgk]
  simp only [Field.apart, Bool.or_eq_true, Bool.and_eq_true, beq_iff_eq, decide_eq_true_eq] at hf
  rcases hf with ⟨⟨hfb | hfb, hfs⟩, ho⟩ | hfb
  all_goals simp only [Field.key, Field.addr, hfb, blkBase]
  · simp only [hfs]; omega
  · simp only [hfs]; omega
  · omega

/-- What an operator's work writes lies apart from the array registers of the tiles. -/
theorem spared_arrayField {g : Field} (hb : g.blk = .tile) (h1 : 0x100 ≤ g.off) (h2 : g.off < 0x140) (hs : g.stride = 0)
    (hg : g.lo < 64) {j : Nat} (hj : j < 64) (v : Nat) : Spared (fun s => s.fget g j 0 = v) where
  quiet hr h := (State.fget_congr hr g j 0).trans h
  write {s f} h hf _ hl u i _ :=
    (State.fget_fsetAt_ne s (Field.apart_key_ne ((by decide : ∀ f ∈ workFields, f.apart = true) f hf) hb h1 h2 hs hg hj hl
      u i)).trans h

/-- The tile's configuration is `v`. -/
def ShapeIs (j v : Nat) (s : State) : Prop := s.fget TILE_ARRAY_STATUS.SHAPE j 0 = v

/-- What an operator's work writes lies apart from a tile's configuration. -/
theorem spared_shapeIs {j : Nat} (hj : j < 64) (v : Nat) : Spared (ShapeIs j v) :=
  spared_arrayField rfl (by decide) (by decide) rfl (by decide) hj v

namespace ShapeIs

variable {j v : Nat} {s : State} (h : ShapeIs j v s)
include h

theorem setArr (k x a : Nat) : ShapeIs j v (s.setArr k x a) := by
  unfold State.setArr
  split
  · refine (State.fget_fsetAt_ne s ?_).trans h
    simp only [Field.key, Field.addr, TILE_ARRAY_STATUS.SHAPE, TILE_ARRAY_STATUS.A0_STATE]
    omega
  · exact h

theorem stopArrays (k x : Nat) (as : List Nat) : ShapeIs j v (s.stopArrays k x as) := by
  refine keeps_foldl (fun t a ht => ?_) h
  have stopped : ShapeIs j v (t.onArr k a (fun r => { down := if r.mask = 0 ∨ t.arrState k a = 4 then r.down else 0 })) := ht
  exact stopped.setArr ..

theorem feed (k : Nat) (m : Mm) (p : Nat) (fed : List Nat) (wait : Nat) : ShapeIs j v (s.feed k m p fed wait) := by
  refine keeps_foldl (fun t i ht => ?_) h
  have begun (f : Arr → Arr) (a : Nat) : ShapeIs j v (t.onArr k a f) := ht
  exact (begun _ _).setArr ..

theorem countLevels (k : Nat) : ShapeIs j v (s.countLevels k) := by
  refine (State.fget_fset_ne s ?_).trans h
  simp only [Field.key, Field.addr, TILE_ARRAY_STATUS.SHAPE, TILE_ARRAY_STATUS.SAVE_LEVELS]
  omega

theorem passFault (k : Nat) (as : List Nat) : ShapeIs j v (s.arrEvent TILE_ARRAY_EVENT.PASS_FAULT k as) := by
  refine (State.fget_fset_ne s ?_).trans h
  simp only [Field.key, Field.addr, TILE_ARRAY_STATUS.SHAPE, TILE_ARRAY_EVENT.PASS_FAULT]
  omega

theorem arrayFault (hj : j < 64) (c : Ctx) (lead : Nat) (as : List Nat) (cause : Nat) :
    ShapeIs j v (s.arrayFault c lead as cause) := by
  have freed : ShapeIs j v (s.setJob c.tile c.level lead none) := h
  exact (spared_shapeIs hj v).opEndFault ((freed.stopArrays ..).passFault ..) c cause

/-- A job that resumes leaves the configuration (R59). -/
theorem resumeJob (hj : j < 64) (c : Ctx) (m : Mm) (lead : Nat) (b : Job) : ShapeIs j v (s.resumeJob c m lead b) := by
  have hP := spared_shapeIs hj v
  have restored : ShapeIs j v (if b.saved then s.opReads c (b.savedSpans c.tile c.level m) else s) :=
    keeps_ite (hP.opReads h ..) h
  have touched := hP.opReads restored c (m.reads c.tile b.pass)
  have led (b' : Option Job) : ShapeIs j v (State.setJob _ c.tile c.level lead b') := touched
  exact keeps_ite (restored.arrayFault hj ..) (keeps_ite (touched.arrayFault hj ..) ((led _).feed ..))

/-- The jobs of a level that resume leave the configuration. -/
theorem resumeJobs (hj : j < 64) (p l k : Nat) : ShapeIs j v (s.resumeJobs p l k) := by
  refine keeps_foldl (fun t x ht => keeps_ite ht ?_) h
  split
  · exact ht
  · split
    · exact ht
    · exact ht.resumeJob hj ..

end ShapeIs

end ArrayRegisters

section Requests

variable (s : State) {j : Nat}

/-- Saving a level's context writes no tile and no thread. -/
@[simp] theorem State.saveContext_tiles_thrs (k l : Nat) :
    (s.saveContext k l).tiles = s.tiles ∧ (s.saveContext k l).thrs = s.thrs := by
  obtain ⟨htiles, -, hthrs, -⟩ := State.saveContext_keeps (within_opened _ s) s k l (.refl _ s) .tiles (by decide)
  exact ⟨htiles.symm, hthrs.symm⟩

/-- A job that is cut is urgent from its cut points on; memory and the threads are as they were (R57). -/
theorem State.cutJob_spec (c : Ctx) (m : Mm) (lead : Nat) (b : Job) :
    (s.cutJob c m lead b).job c.tile c.level lead = some { b with pre := .urgent, cuts := s.fedOf c.tile m b } ∧
      (s.cutJob c m lead b).mem = s.mem ∧ (s.cutJob c m lead b).thrs = s.thrs := by
  unfold State.cutJob
  refine keeps_foldl (P := fun t => t.job c.tile c.level lead = some { b with pre := .urgent, cuts := s.fedOf c.tile m b } ∧
    t.mem = s.mem ∧ t.thrs = s.thrs) (fun t a ⟨hjob, hmem, hthrs⟩ => ⟨?_, by simpa using hmem, by simpa using hthrs⟩)
    ⟨by simp, by simp, by simp⟩
  exact (State.job_congr t (by simp) ..).trans hjob

/-- Asking a job to pre-empt leaves the threads. -/
theorem State.askJob_thrs (c : Ctx) (m : Mm) (lead : Nat) (b : Job) (urgent : Bool) :
    (s.askJob c m lead b urgent).thrs = s.thrs := by
  have cut := (s.cutJob_spec c m lead b).2.2
  unfold State.askJob
  split
  · rfl
  · rfl
  · split
    · exact cut
    · rfl
  · split
    · exact cut
    · simp

/-- Asking a level's jobs to pre-empt leaves the threads. -/
theorem State.askJobs_thrs (p k l : Nat) (urgent : Bool) : (s.askJobs p k l urgent).thrs = s.thrs := by
  refine keeps_foldl (P := fun t => t.thrs = s.thrs) (fun t ⟨a, b⟩ ht => ?_) rfl
  dsimp only
  split
  · exact ht
  · split
    · exact ht
    · exact (t.askJob_thrs ..).trans ht

/-- PREEMPT_REQUEST in a pre-emption that the hub has decided (R106). -/
theorem exec_preemptRequest_decided (hj : j < 64) {p l : Nat} {i : Inst} {urgent : Bool}
    (hi : s.tileInst j = some (p, l, i)) (ha : (s.part p).preAsk.map Prod.snd = some urgent) :
    exec (.preemptRequest j urgent) s = .next ((((s.askJobs p j l urgent).onTile j
      (fun t => { t.unwant l with preempting := true })).saveContext j l).withQueue s.pending) := by
  change execPreemptRequest j urgent s = _
  simp [execPreemptRequest, tileOk, hj, hi, ha, ok_true]

/-- PREEMPT_REQUEST marks the tile as pre-empting and leaves the threads. -/
theorem exec_preemptRequest_spec (hj : j < 64) {p l : Nat} {i : Inst} {urgent : Bool}
    (hi : s.tileInst j = some (p, l, i)) (ha : (s.part p).preAsk.map Prod.snd = some urgent) :
    ∃ t, exec (.preemptRequest j urgent) s = .next t ∧ (t.tile j).preempting = true ∧ t.thrs = s.thrs := by
  refine ⟨_, exec_preemptRequest_decided s hj hi ha, ?_, ?_⟩
  · rw [State.tile_congr ((s.askJobs p j l urgent).onTile j (fun t => { t.unwant l with preempting := true })) (by simp),
      State.tile_onTile]
  · simpa using s.askJobs_thrs p j l urgent

end Requests

section RunningJob

variable {s : State} {j a : Nat} {c : Ctx} {m : Mm} {b : Job}

/-- PREEMPT_BOUNDARY of a job that a normal pre-emption waits for and whose operands are held (R55). -/
theorem exec_preemptBoundary_held (hj : arrayOk j a = true) (hr : s.runningJob j a = some (c, m, b)) {since : Nat}
    (hp : b.pre = .normal since) (hh : b.arrays.all (fun x => (s.arr j x).held) = true) :
    exec (.preemptBoundary j a) s = .next ((s.boundary c m a b).withQueue s.pending) := by
  change execPreemptBoundary j a s = _
  simp only [execPreemptBoundary, hj, hr, hp, hh, ok_true, not_true_eq_false, if_false]

/-- PREEMPT_DEADLINE more than 1.4 µs after the request, the last slot not fed (R56). -/
theorem exec_preemptDeadline_late (hj : arrayOk j a = true) (hr : s.runningJob j a = some (c, m, b)) {since : Nat}
    (hp : b.pre = .normal since) (ht : since + 1400 < s.time) (hl : s.lastFed j b = false) :
    exec (.preemptDeadline j a) s =
      .next (((s.cutJob c m a b).arrEvent TILE_ARRAY_EVENT.DEADLINE_CONVERT j b.arrays).withQueue s.pending) := by
  change execPreemptDeadline j a s = _
  simp only [execPreemptDeadline, hj, hr, hp, hl, Nat.not_le.mpr ht, ok_true, Bool.false_eq_true, or_self, if_false]

/-- PREEMPT_DEADLINE up to 1.4 µs after the request, or once the last slot is fed (R56). -/
theorem exec_preemptDeadline_waits (hj : arrayOk j a = true) (hr : s.runningJob j a = some (c, m, b)) {since : Nat}
    (hp : b.pre = .normal since) (h : s.time ≤ since + 1400 ∨ s.lastFed j b = true) :
    exec (.preemptDeadline j a) s = .next s := by
  change execPreemptDeadline j a s = _
  simp only [execPreemptDeadline, hj, hr, hp, h, ok_true, if_true, State.withQueue_self]

/-- URGENT_SAVE_DONE of a drain without fault (R57). -/
theorem exec_urgentSaveDone_saved (hj : arrayOk j a = true) (hr : s.runningJob j a = some (c, m, b)) (hp : b.pre = .urgent) :
    exec (.urgentSaveDone j a false false) s = .next ((((s.parkJob c m a b true).arrEvent TILE_ARRAY_EVENT.URGENT_SAVE j
      b.arrays).fcountN TILE_ARRAY_COUNT.URGENT_SAVES j 0 b.arrays.length).withQueue s.pending) := by
  change execUrgentSaveDone j a false false s = _
  simp only [execUrgentSaveDone, hj, hr, hp, ok_true, ne_eq, not_true_eq_false, if_false, Bool.false_eq_true]

/-- URGENT_SAVE_DONE after the first fault in the drain of a pass (Table 2.9). -/
theorem exec_urgentSaveDone_retry (hj : arrayOk j a = true) (hr : s.runningJob j a = some (c, m, b)) (hp : b.pre = .urgent)
    (hn : b.retried = false) :
    exec (.urgentSaveDone j a true false) s =
      .next ((s.parkJob c m a { b with retried := true, cuts := [] } false).withQueue s.pending) := by
  change execUrgentSaveDone j a true false s = _
  simp only [execUrgentSaveDone, hj, hr, hp, hn, ok_true, ne_eq, not_true_eq_false, if_false, if_true, Bool.or_self,
    Bool.false_eq_true]

/-- URGENT_SAVE_DONE after a fault of the retry, or of an operand that arrived poisoned (R61, Table 2.9). -/
theorem exec_urgentSaveDone_ends (hj : arrayOk j a = true) (hr : s.runningJob j a = some (c, m, b)) (hp : b.pre = .urgent)
    {poisoned : Bool} (h : poisoned = true ∨ b.retried = true) :
    exec (.urgentSaveDone j a true poisoned) s = .next (((s.arrayFault c a b.arrays
      (if poisoned then 0x03 else 0x01)).saveContext j c.level).withQueue s.pending) := by
  have hor : (poisoned || b.retried) = true := Bool.or_eq_true _ _ ▸ h
  change execUrgentSaveDone j a true poisoned s = _
  simp only [execUrgentSaveDone, hj, hr, hp, hor, ok_true, ne_eq, not_true_eq_false, if_false, if_true]

/-- An array event leaves the jobs and memory. -/
@[simp] theorem State.arrEvent_jobs_mem (s : State) (f : Field) (k : Nat) (as : List Nat) :
    (s.arrEvent f k as).jobs = s.jobs ∧ (s.arrEvent f k as).mem = s.mem := by
  simp [State.arrEvent]

/-- A deadline that converts: the job is urgent, with its event, and memory is as it was. -/
theorem State.deadline_spec (s : State) (c : Ctx) (m : Mm) (a : Nat) (b : Job) :
    let t := (s.cutJob c m a b).arrEvent TILE_ARRAY_EVENT.DEADLINE_CONVERT c.tile b.arrays
    t.job c.tile c.level a = some { b with pre := .urgent, cuts := s.fedOf c.tile m b } ∧
      t.fget TILE_ARRAY_EVENT.DEADLINE_CONVERT c.tile 0 &&& (maskOf b.arrays % 16) = maskOf b.arrays % 16 ∧
      t.mem = s.mem := by
  obtain ⟨hjob, hmem, -⟩ := s.cutJob_spec c m a b
  exact ⟨(State.job_congr _ (by simp) ..).trans hjob,
    State.fget_arrEvent_and _ TILE_ARRAY_EVENT.DEADLINE_CONVERT c.tile b.arrays, by simpa using hmem⟩

/-- An urgent save that is done: the job is parked and saved, with its event. -/
theorem State.urgentSaved_spec (s : State) (c : Ctx) (m : Mm) (a : Nat) (b : Job) :
    let t := ((s.parkJob c m a b true).arrEvent TILE_ARRAY_EVENT.URGENT_SAVE c.tile b.arrays).fcountN
      TILE_ARRAY_COUNT.URGENT_SAVES c.tile 0 b.arrays.length
    t.job c.tile c.level a = some { b with pre := .parked, saved := true } ∧
      t.fget TILE_ARRAY_EVENT.URGENT_SAVE c.tile 0 &&& (maskOf b.arrays % 16) = maskOf b.arrays % 16 := by
  refine ⟨(State.job_congr _ (by simp) ..).trans (s.job_parkJob c m a b true), ?_⟩
  have apart : TILE_ARRAY_EVENT.URGENT_SAVE.key c.tile 0 ≠ TILE_ARRAY_COUNT.URGENT_SAVES.key c.tile 0 :=
    Field.key_ne_of_off (f := TILE_ARRAY_EVENT.URGENT_SAVE) (g := TILE_ARRAY_COUNT.URGENT_SAVES) rfl (by decide) rfl rfl
      (by decide) (by decide) c.tile 0
  rw [State.fcountN, State.fget_fset_ne _ apart]
  exact State.fget_arrEvent_and _ TILE_ARRAY_EVENT.URGENT_SAVE c.tile b.arrays

/-- An urgent pre-emption that ends its operator in fault: no job, its event set, whatever the save of the context writes. -/
theorem State.urgentFault_spec (s : State) {c : Ctx} (hj : c.tile < 64) (a : Nat) (as : List Nat) (cause : Nat) :
    let t := (s.arrayFault c a as cause).saveContext c.tile c.level
    t.job c.tile c.level a = none ∧
      t.fget TILE_ARRAY_EVENT.PASS_FAULT c.tile 0 &&& (maskOf as % 16) = maskOf as % 16 := by
  refine ⟨(State.job_congr _ (State.saveContext_jobs ..) ..).trans (s.job_arrayFault ..), ?_⟩
  have kept := (spared_arrayField (g := TILE_ARRAY_EVENT.PASS_FAULT) rfl (by decide) (by decide) rfl (by decide) hj _).saveContext
    (s := s.arrayFault c a as cause) rfl c.tile c.level
  rw [kept]
  exact s.fget_arrayFault_passFault ..

end RunningJob

section Resume

variable {s : State} {j p l : Nat} {i : Inst} {ue : Bool}

/-- The state that a resume begins from: where a word of the save area was hit, with the words hit. -/
def State.resumeFrom (s : State) (j l : Nat) (ue : Bool) : State :=
  if ue then (s.levelJobs j l).foldl (fun t (_, b) => t.hitSave j l b) s else s

/-- What a resume that goes on leaves (R59, R106). -/
def State.resumed (s : State) (p j l : Nat) (ue : Bool) : State :=
  ((((((s.resumeFrom j l ue).fset TILE_ARRAY_STATUS.SHAPE j 0 (s.parkedShape j l)).loadContext p l j).resumeJobs p l
    j).endYards p l j).onTile j (fun t => { t with preempting := false })).countLevels j

/-- PREEMPT_RESUME of a tile whose pre-emption is over, in the parked configuration or with every array idle (R59). -/
theorem exec_preemptResume_goesOn (hj : j < 64) (hi : s.tileInst j = some (p, l, i)) (ht : (s.tile j).preempting = true)
    (ha : (s.part p).preAsk = none) (hw : (s.tile j).power = .run)
    (hh : (s.levelJobs j l).any (fun (_, b) => b.holds) = false)
    (hs : s.parkedShape j l = s.fget TILE_ARRAY_STATUS.SHAPE j 0 ∨ s.arraysIdle j = true) :
    exec (.preemptResume j ue) s = .next ((s.resumed p j l ue).withQueue s.pending) := by
  have hgo : (s.parkedShape j l == s.fget TILE_ARRAY_STATUS.SHAPE j 0 || s.arraysIdle j) = true := by simpa using hs
  change execPreemptResume j ue s = _
  simp only [execPreemptResume, tileOk, hj, hi, ht, ha, hw, hh, hgo, decide_true, ok_true, Option.isNone_none, BEq.rfl,
    Bool.not_false, Bool.and_self, if_true]
  rfl

/-- PREEMPT_RESUME while arrays of another configuration are not all idle (R43). -/
theorem exec_preemptResume_waits (hj : j < 64) (hi : s.tileInst j = some (p, l, i))
    (hs : s.parkedShape j l ≠ s.fget TILE_ARRAY_STATUS.SHAPE j 0) (hn : s.arraysIdle j = false) :
    exec (.preemptResume j ue) s = .next s := by
  change execPreemptResume j ue s = _
  simp [execPreemptResume, tileOk, hj, hi, hs, hn, ok_true, State.withQueue_self]

/-- Counting the levels that hold a saved set writes no tile. -/
@[simp] theorem State.countLevels_tiles (s : State) (k : Nat) : (s.countLevels k).tiles = s.tiles := by
  simp [State.countLevels]

/-- A resume ends the tile's pre-empting, in the configuration in which its parked jobs ran. -/
theorem State.resumed_spec (hj : j < 64) :
    ((s.resumed p j l ue).tile j).preempting = false ∧
      (s.resumed p j l ue).fget TILE_ARRAY_STATUS.SHAPE j 0 = s.parkedShape j l % 8 := by
  refine ⟨?_, ?_⟩
  · rw [State.resumed, State.tile_congr _ (State.countLevels_tiles ..), State.tile_onTile]
  · have taken : ShapeIs j (s.parkedShape j l % 8) ((s.resumeFrom j l ue).fset TILE_ARRAY_STATUS.SHAPE j 0
        (s.parkedShape j l)) := State.fget_fset_same ..
    have hP := spared_shapeIs hj (s.parkedShape j l % 8)
    have gone := hP.endYards ((hP.loadContext taken p l j).resumeJobs hj p l j) p l j
    rw [State.resumed]
    exact ShapeIs.countLevels (hP.quiet (by simp) gone) j

/-- PREEMPT_RESUME that goes on ends the tile's pre-empting, in the configuration in which its parked jobs ran. -/
theorem exec_preemptResume_spec (hj : j < 64) (hi : s.tileInst j = some (p, l, i)) (ht : (s.tile j).preempting = true)
    (ha : (s.part p).preAsk = none) (hw : (s.tile j).power = .run)
    (hh : (s.levelJobs j l).any (fun (_, b) => b.holds) = false)
    (hs : s.parkedShape j l = s.fget TILE_ARRAY_STATUS.SHAPE j 0 ∨ s.arraysIdle j = true) :
    ∃ t, exec (.preemptResume j ue) s = .next t ∧ (t.tile j).preempting = false ∧
      t.fget TILE_ARRAY_STATUS.SHAPE j 0 = s.parkedShape j l % 8 := by
  obtain ⟨htile, hshape⟩ := State.resumed_spec (s := s) (p := p) (l := l) (ue := ue) hj
  refine ⟨_, exec_preemptResume_goesOn hj hi ht ha hw hh hs, ?_, ?_⟩
  · rw [State.tile_congr (s.resumed p j l ue) (by simp), htile]
  · rw [State.fget_withQueue, hshape]

end Resume

/-- Settles O9: command by command; of a running job, by the pre-emption asked of it. -/
theorem preemptionStopsSavesAndResumes : Obligations.PreemptionStopsSavesAndResumes := by
  unfold Obligations.PreemptionStopsSavesAndResumes
  intro s j a hja
  obtain ⟨hj, -⟩ := arrayOk_iff.mp hja
  refine ⟨fun p l i urgent hi ha => exec_preemptRequest_spec s hj hi ha, fun c m b hr => ?running,
    fun p l i ue hi ht ha hw hh => ⟨exec_preemptResume_spec hj hi ht ha hw hh,
      fun hs hn => exec_preemptResume_waits hj hi hs hn⟩⟩
  case running =>
    obtain rfl := State.runningJob_tile hr
    refine ⟨fun since hp hh => ⟨fun hl => ?last, fun hl => ?next⟩,
      fun since hp => ⟨fun ht hl => ?late, exec_preemptDeadline_waits hja hr hp⟩,
      fun hp => ⟨?saved, fun hn => ?retry, fun poisoned h => ?ends⟩⟩
    case last => exact ⟨_, exec_preemptBoundary_held hja hr hp hh, s.job_boundary_last c m a b hl⟩
    case next =>
      exact ⟨_, _, exec_preemptBoundary_held hja hr hp hh, s.job_boundary_next c m a b hl, rfl, rfl, rfl⟩
    case late =>
      obtain ⟨hjob, hevt, hmem⟩ := s.deadline_spec c m a b
      exact ⟨_, _, exec_preemptDeadline_late hja hr hp ht hl, hjob, rfl, rfl, hevt, hmem⟩
    case saved =>
      obtain ⟨hjob, hevt⟩ := s.urgentSaved_spec c m a b
      exact ⟨_, _, exec_urgentSaveDone_saved hja hr hp, hjob, rfl, rfl, rfl, rfl, rfl, hevt⟩
    case retry =>
      exact ⟨_, _, exec_urgentSaveDone_retry hja hr hp hn, s.job_parkJob c m a { b with retried := true, cuts := [] } false,
        rfl, rfl, rfl, rfl, rfl⟩
    case ends => exact ⟨_, exec_urgentSaveDone_ends hja hr hp h, s.urgentFault_spec hj a b.arrays _⟩

end Sys2Proof.Machine
end

section
/-!
SUPPORT. What an operator that may start answers: its effect, or fault 0x08 where the vector unit's check fails (R114); fault
0x03 where a word of its reads is bad (R264), and else its outputs and its end (R88). NORM, ROPE and ACT (Table 4.7, R125).
-/

namespace Sys2Proof.Machine

section Starts

variable {s : State} {c : Ctx} {op j th : Nat} (hj : threadOk j th = true) (hc : s.startOf op j th = some c)
include hj hc

/-- An operator that may start is carried out and issues. -/
theorem ok_startAs (f : Ctx → State) :
    ok (threadOk j th) s (s.startAs op j th f) = .next (((f c).issued j th).withQueue s.pending) := by
  rw [hj, ok_true, State.startAs, hc]

/-- An operator of the vector unit that may start, and whose check passes, is carried out and issues. -/
theorem ok_startVec_runs (f : Ctx → State) :
    ok (threadOk j th) s (s.startVec op j th false f) = .next (((f c).issued j th).withQueue s.pending) :=
  ok_startAs hj hc _

/-- An operator of the vector unit whose check fails meets fault 0x08 (R114). -/
theorem ok_startVec_fails (f : Ctx → State) :
    ok (threadOk j th) s (s.startVec op j th true f) = .next (((s.failIo c 0x08).issued j th).withQueue s.pending) :=
  ok_startAs hj hc _

end Starts

section Reads

variable {s : State} {reads : List (Nat × Nat)}

/-- No range of clean reads holds a bad word. -/
theorem State.Clean.any_bad (h : s.Clean reads) : reads.any (fun (k, n) => (s.look k n).2) = false :=
  List.any_eq_false.mpr fun x hx => Bool.not_eq_true _ ▸ h x hx

/-- Some range of the reads holds a bad word. -/
theorem State.any_bad_of_mem (h : ∃ x ∈ reads, (s.look x.1 x.2).2 = true) :
    reads.any (fun (k, n) => (s.look k n).2) = true :=
  List.any_eq_true.mpr h

variable {c : Ctx} {go : State → State × NumEv}

/-- A vector operator whose reads are clean writes its outputs and ends, or meets fault 0x02 (R88). -/
theorem State.finished_of_vecEnd (h : s.Clean reads) {t : State} (ht : t = s.vecEnd c reads go) :
    (s.opReads c reads).Finished c (go (s.opReads c reads)) t := by
  have written : t = (s.opReads c reads).finish c false (go (s.opReads c reads)) := by
    rw [ht, State.vecEnd, h.any_bad]
    exact if_neg Bool.false_ne_true
  exact ⟨fun hn => by simp [written, State.finish, hn], fun hn => by simp [written, State.finish, hn]⟩

/-- A vector operator that reads a bad word meets fault 0x03 (R264). -/
theorem State.vecEnd_bad (h : ∃ x ∈ reads, (s.look x.1 x.2).2 = true) :
    s.vecEnd c reads go = (s.opReads c reads).opFault c 0x03 := by
  rw [State.vecEnd, State.any_bad_of_mem h]
  exact if_pos rfl

/-- A vector operator that may start, with clean reads: it issues, writes its outputs and ends, or meets fault 0x02. -/
theorem ok_startVec_finishes {op j th : Nat} {f : Ctx → State} (hj : threadOk j th = true)
    (hc : s.startOf op j th = some c) (hf : f c = s.vecEnd c reads go) (h : s.Clean reads) :
    ∃ u, ok (threadOk j th) s (s.startVec op j th false f) = .next ((u.issued j th).withQueue s.pending) ∧
      (s.opReads c reads).Finished c (go (s.opReads c reads)) u :=
  ⟨f c, ok_startVec_runs hj hc f, State.finished_of_vecEnd h hf⟩

end Reads

/-- No conditions joined with others are those. -/
@[simp] theorem NumEv.empty_join (e : NumEv) : NumEv.join {} e = e := by
  simp [NumEv.join]

section NormRopeAct

variable {s : State} {c : Ctx} {i o : Slot} (hi : s.ctxSlot c 8 = some i) (ho : s.ctxSlot c 9 = some o)
include hi ho

/-- NORM without RESID writes its normalised rows (Table 4.7). -/
theorem State.normOp_eq (hr : s.ctxSlot c 13 = none) :
    s.normOp c = s.vecEnd c (i.spans c.tile (List.range (c.f 20 4)) ++
        ((s.ctxSlot c 10).map (fun g => g.spans c.tile [0])).getD [] ++
        ((s.ctxSlot c 11).map (fun g => g.spans c.tile [0])).getD [])
      (fun t => t.putRows c.tile o 0 ((List.range (c.f 20 4)).map (fun r => normRow (c.f 12 1) (c.f 24 4)
        ((s.ctxSlot c 10).map (fun g => s.row32 c.tile g 0)) ((s.ctxSlot c 11).map (fun g => s.row32 c.tile g 0))
        ((s.row32 c.tile i r).take (c.f 16 4))))) := by
  simp [State.normOp, hi, ho, hr, Function.comp_def]

/-- ROPE writes each head of each row, rotated by the angles of its position (R125). -/
theorem State.ropeOp_eq :
    s.ropeOp c = s.vecEnd c (i.spans c.tile (List.range (c.f 20 4)) ++
        ((s.ctxSlot c 10).map (fun q => q.allSpans c.tile)).getD [])
      (fun t => t.putRows c.tile o 0 ((List.range (c.f 20 4)).map (fun r =>
        let xs := (s.row32 c.tile i r).take (c.f 16 4 * headDim (c.f 12 1))
        let pos := ((s.ctxSlot c 10).map (s.flatCodes c.tile)).getD (s.execOf c.part c.slot).pos
        ((segs (headDim (c.f 12 1)) xs.length xs).map (rotateHead (c.f 11 1) (c.f 14 2)
          (ropeAngles (c.f 24 4) (c.f 28 4) (c.f 14 2) (pos.getD r 0)))).flatten))) := by
  cases h : s.ctxSlot c 10 <;> simp [State.ropeOp, hi, ho, h]

/-- ACT writes FUNC of each element, or of its gate times the element, scaled for OUT (Table 4.7). -/
theorem State.actOp_eq :
    s.actOp c = s.vecEnd c (i.spans c.tile (List.range (c.f 20 4)) ++
        ((s.ctxSlot c 10).map (fun g => g.spans c.tile (List.range (c.f 20 4)))).getD [])
      (fun t => (((List.range (c.f 20 4)).map (fun r => match s.ctxSlot c 10 with
          | some g => List.zipWith (fun y x => mul32 (actFn (c.f 11 1) y) x) ((s.row32 c.tile g r).take (c.f 16 4))
              ((s.row32 c.tile i r).take (c.f 16 4))
          | none => ((s.row32 c.tile i r).take (c.f 16 4)).map (actFn (c.f 11 1)))).mapIdx (fun r xs =>
            (r, packScaled o.fmt (c.f 24 4) xs))).foldl (fun a x =>
          (a.1.putElems c.tile o x.1 0 x.2, a.2.join x.2.ev)) (t, {})) := by
  cases h : s.ctxSlot c 10 <;> simp [State.actOp, hi, ho, h]

end NormRopeAct

/-- Settles O28: each operator reads its slots and writes its rows; a bad word, or a failed check, is its fault. -/
theorem normRopeActWriteTheirRows : Obligations.NormRopeActWriteTheirRows := by
  unfold Obligations.NormRopeActWriteTheirRows
  intro s j th c i o hj hi ho
  refine ⟨fun hc hr => ⟨fun hclean => ?norm, fun hbad => ?normBad⟩, fun hc hclean => ?rope, fun hc hclean => ?act, ?fails⟩
  case norm => exact ok_startVec_finishes hj hc (State.normOp_eq hi ho hr) hclean
  case normBad =>
    rw [← State.vecEnd_bad hbad, ← State.normOp_eq hi ho hr]
    exact ok_startVec_runs hj hc _
  case rope => exact ok_startVec_finishes hj hc (State.ropeOp_eq hi ho) hclean
  case act => exact ok_startVec_finishes hj hc (State.actOp_eq hi ho) hclean
  case fails =>
    rintro cmd op (⟨rfl, rfl⟩ | ⟨rfl, rfl⟩ | ⟨rfl, rfl⟩) hc
    all_goals exact ok_startVec_fails hj hc _

end Sys2Proof.Machine
end

section
/-!
SUPPORT. An operator's reads write no register below the hubs': which partition a tower belongs to, and so a partition's
commands, read the same after them. The operators that choose and look up: ROUTE, SAMPLE, EMBED (Table 4.8, R86, R504).
-/

namespace Sys2Proof.Machine

section LowRegisters

/-- The key below which the registers of the boot, power, package, management, protection, host and fabric blocks lie
(Table 20.1). -/
def hubKeys : Nat := 0x100000 * 64

/-- The two states read alike in every register below the hubs'. -/
def State.LowRegs (s t : State) : Prop :=
  ∀ (g : Field) (u i sh : Nat), g.key u i + sh < hubKeys → t.fgetAt g u i sh = s.fgetAt g u i sh

/-- What an operator's work writes lies in the registers of hubs, tiles and VF queues. -/
theorem workFields_key_le {f : Field} (hf : f ∈ workFields) (u i : Nat) : hubKeys ≤ f.key u i := by
  have hblk : 0x100000 ≤ (blkBase f.blk).1 := (by decide : ∀ f ∈ workFields, 0x100000 ≤ (blkBase f.blk).1) f hf
  simp only [Field.key, Field.addr, hubKeys]
  omega

/-- What an operator's work writes lies apart from the registers below the hubs'. -/
theorem spared_lowRegs (s : State) : Spared s.LowRegs where
  quiet hr h g u i sh hk := (State.fgetAt_congr hr g u i sh).trans (h g u i sh hk)
  write h hf _ _ u i v g u' i' sh' hk := by
    have hle := workFields_key_le hf u i
    exact (State.fgetAt_fsetAt_ne _ (by omega)).trans (h g u' i' sh' hk)

variable {s t : State} (h : s.LowRegs t)
include h

/-- Towers belong to the same partitions. -/
theorem State.LowRegs.towerPart {n : Nat} (hn : n < 16) : t.towerPart n = s.towerPart n := by
  have assigned : t.fget PART_TOWER_EN.ASSIGNED 0 0 = s.fget PART_TOWER_EN.ASSIGNED 0 0 := h _ 0 0 0 (by decide)
  have owner : t.fgetAt PART_TOWER_MAP.PART0 0 0 (4 * n) = s.fgetAt PART_TOWER_MAP.PART0 0 0 (4 * n) := by
    refine h _ 0 0 _ ?_
    have base : PART_TOWER_MAP.PART0.key 0 0 + 64 ≤ hubKeys := by decide
    omega
  rw [State.towerPart, State.towerPart, State.fbit, State.fbit, assigned, owner]

/-- Partitions have the same home hub. -/
theorem State.LowRegs.homeHub (p : Nat) : t.homeHub p = s.homeHub p := by
  have found : (List.range 16).find? (fun n => t.towerPart n == some p) =
      (List.range 16).find? (fun n => s.towerPart n == some p) :=
    List.find?_congr fun n hn => by rw [h.towerPart (List.mem_range.mp hn)]
  rw [State.homeHub, State.homeHub, found]

/-- With the same commands, an execution slot of a partition holds the same command. -/
theorem State.LowRegs.execOf (he : t.execs = s.execs) (p x : Nat) : t.execOf p x = s.execOf p x := by
  rw [State.execOf, State.execOf, State.execKey, State.execKey, h.homeHub, he]

end LowRegisters

section OperatorReads

variable (s : State) (c : Ctx) (rs : List (Nat × Nat))

/-- An operator's reads leave the image. -/
@[simp] theorem State.opReads_img : (s.opReads c rs).img = s.img := by
  obtain ⟨himg, -⟩ := State.opReads_keeps (within_opened _ s) s c rs (.refl _ s) .boot (by decide)
  exact himg.symm

/-- An operator's reads leave the started commands. -/
@[simp] theorem State.opReads_execs : (s.opReads c rs).execs = s.execs := by
  obtain ⟨-, hexecs, -⟩ := State.opReads_keeps (within_opened _ s) s c rs (.refl _ s) .decks (by decide)
  exact hexecs.symm

/-- After an operator's reads a descriptor names the same slots. -/
@[simp] theorem State.ctxSlot_opReads (d : Ctx) (off : Nat) : (s.opReads c rs).ctxSlot d off = s.ctxSlot d off := by
  simp [State.ctxSlot, State.slotOf]

/-- After an operator's reads an execution slot holds the same command. -/
@[simp] theorem State.execOf_opReads (p x : Nat) : (s.opReads c rs).execOf p x = s.execOf p x :=
  State.LowRegs.execOf ((spared_lowRegs s).opReads (fun _ _ _ _ _ => rfl) c rs) (s.opReads_execs c rs) p x

end OperatorReads

/-- An operator with requests hands them to the yarder (R104, R111). -/
theorem State.withIo_ne {s : State} {c : Ctx} {qs : List YReq} (h : qs ≠ []) (k : State) :
    s.withIo c qs k = s.request c qs :=
  if_neg h

/-- Mapping with the index is mapping where the index makes no difference on the list's members. -/
theorem mapIdx_eq_map_of_mem {α β : Type} {l : List α} {f : Nat → α → β} {g : α → β}
    (h : ∀ r, ∀ v ∈ l, f r v = g v) : l.mapIdx f = l.map g :=
  List.ext_getElem (by simp) fun n h1 h2 => by simp [h]

section RouteSampleEmbed

variable {s : State} {c : Ctx} {o : Slot}

/-- ROUTE writes the chosen experts of each row to INDEX and their gates to GATES (Table 4.8). -/
theorem State.routeOp_eq {i g : Slot} (hi : s.ctxSlot c 8 = some i) (ho : s.ctxSlot c 9 = some o)
    (hg : s.ctxSlot c 10 = some g) :
    let chosen := (List.range (c.f 16 4)).map (fun r =>
      routeRow (c.f 14 1) (c.f 11 1) ((s.row32 c.tile i r).take (c.f 12 2)))
    s.routeOp c = s.vecEnd c (i.spans c.tile (List.range (c.f 16 4))) (fun t =>
      ((chosen.mapIdx (fun r l => (r, l.map Prod.fst))).foldl (fun u x => u.putCodes c.tile o x.1 0 x.2) t).putRows c.tile g 0
        (chosen.map (fun l => l.map Prod.snd))) := by
  simp [State.routeOp, hi, ho, hg]

/-- SAMPLE of a plain graph writes one token and the path of node 0, and marks its session where no logit is valid (R86,
R165). -/
theorem State.sampleOp_eq {lg : Slot} (hl : s.ctxSlot c 8 = some lg) (ho : s.ctxSlot c 10 = some o)
    (hd : s.ctxSlot c 9 = none) (hg : s.commitF c.part c.graph 0 1 = 0) :
    let r := (s.execOf c.part c.slot).resv.getD (c.f 12 1) {}
    let x := sampleRow (s.sampleParams c (c.f 12 1)) ((s.row32 c.tile lg (lg.rows - 1)).take (c.f 16 4))
      (rngDraw (s.sampleParams c (c.f 12 1)).seed (r.n + s.commitF c.part c.graph 4 4 - 1)
        (rngC1 r.slot (s.srec c.part r.slot 0 2) 0))
    s.sampleOp c = s.vecEnd c (s.paramSpans c (c.f 12 1) ++ lg.spans c.tile [lg.rows - 1]) (fun t =>
      let w := (t.putCodes c.tile o (c.f 12 1) 0 [1, x.tok]).putCodes c.tile o (c.f 12 1) 129 [0]
      (if x.invalid then w.onExec c.part c.slot (fun e => { e with invalid := e.invalid ++ [c.f 12 1] }) else w,
        { nanLogit := x.nan, invalid := x.invalid })) := by
  simp [State.sampleOp, hl, ho, hd, hg]

variable {f : Fmt} {toks : List Nat} (ho : s.ctxSlot c 9 = some o) (hf : fmtOf (c.f 10 1) = some f)
  (ht : s.ctxSlot c 8 = none) (hk : (s.execOf c.part c.slot).toks.take o.rows = toks)
include ho hf ht hk

/-- EMBED from tier 1 asks the yarder for the rows of the tokens inside the vocabulary (R504). -/
theorem State.embedOp_tier1 (hm : c.f 11 1 ≠ 0) :
    s.embedOp c = s.withIo c ((toks.filter (fun v => decide (v < c.f 20 4))).flatMap
      (fun v => fetchReqs (c.embedAddr f v) (embedPitch f (c.f 16 4)))) (s.embedEnd c) := by
  simp [State.embedOp, State.embedToks, ho, hf, ht, hk, hm]

variable (hm : c.f 11 1 = 0) (hv : ∀ v ∈ toks, v < c.f 20 4)
include hm hv

/-- EMBED from the tile's own slice, every token inside the vocabulary, reads each token's table row, and goes on. -/
theorem State.embedOp_own :
    s.embedOp c = (s.opReads c (toks.map (fun v =>
      (t0At c.tile (c.embedAddr f v), embedPitch f (c.f 16 4))))).embedEnd c := by
  have known : toks.filter (fun v => decide (v < c.f 20 4)) = toks :=
    List.filter_eq_self.mpr fun v h => decide_eq_true (hv v h)
  simp [State.embedOp, State.embedToks, ho, hf, ht, hk, hm, known]

/-- An EMBED from the tile's own slice with every token inside the vocabulary, its rows read clean, writes them converted and
ends, or meets fault 0x02 (R67, R504). -/
theorem State.embedEnd_own {row : Nat → List Byte × Bool}
    (hl : ∀ v, s.look (t0At c.tile (c.embedAddr f v)) (embedPitch f (c.f 16 4)) = row v)
    (hrow : ∀ v ∈ toks, (row v).2 = false) :
    s.Finished c (s.putRows c.tile o 0 (toks.map (fun v => embedRow f (c.f 16 4) (c.f 24 4) (row v).1))) (s.embedEnd c) := by
  have allKnown : toks.all (fun v => decide (v < c.f 20 4)) = true :=
    List.all_eq_true.mpr fun v h => decide_eq_true (hv v h)
  have good : (toks.map row).any Prod.snd = false := by
    simpa [List.any_map, Function.comp_def] using hrow
  have wrote : s.embedEnd c = s.vecEnd c [] (fun u =>
      u.putRows c.tile o 0 (toks.map (fun v => embedRow f (c.f 16 4) (c.f 24 4) (row v).1))) := by
    simp only [State.embedEnd, State.embedToks, ho, hf, ht, hk, hm, hl, if_true]
    rw [mapIdx_eq_map_of_mem (g := row) fun r v h => if_neg (Nat.not_le.mpr (hv v h) : ¬v ≥ c.f 20 4)]
    simp [good, allKnown, Function.comp_def]
  exact State.finished_of_vecEnd (s := s) (by simp) wrote

end RouteSampleEmbed

/-- Settles O29: ROUTE and SAMPLE read their slots and write what they choose; EMBED's rows are read before it writes them, and
those reads leave what it then looks up. -/
theorem routeSampleEmbedChoose : Obligations.RouteSampleEmbedChoose := by
  unfold Obligations.RouteSampleEmbedChoose
  intro s j th c hj
  refine ⟨fun i ix g hc hi hx hg hclean => ?route, fun lg o hc hl ho hd hg hclean => ?sample,
    fun o f hc ho hf ht => ⟨fun hm hv hrow => ?own, fun hm hq => ?tier1⟩, ?fails⟩
  case route => exact ok_startVec_finishes hj hc (State.routeOp_eq hi hx hg) hclean
  case sample => exact ok_startVec_finishes hj hc (State.sampleOp_eq hl ho hd hg) hclean
  case own =>
    refine ⟨_, ok_startVec_runs hj hc _, ?_⟩
    rw [State.embedOp_own ho hf ht rfl hm hv]
    exact State.embedEnd_own (by simpa using ho) hf (by simpa using ht) (by simp) hm hv (fun _ => rfl) hrow
  case tier1 =>
    rw [← State.withIo_ne hq, ← State.embedOp_tier1 ho hf ht rfl hm]
    exact ok_startVec_runs hj hc _
  case fails =>
    rintro cmd op (⟨rfl, rfl⟩ | ⟨rfl, rfl⟩ | ⟨rfl, rfl⟩) hc
    all_goals exact ok_startVec_fails hj hc _

end Sys2Proof.Machine
end

section
/-!
SUPPORT. REDUCE (R100): parts combined in the tile, or rows sent to be added in landing. COPY (R100, R111, R113): pieces moved
in the tile, or made the yarder's requests.
-/

namespace Sys2Proof.Machine

section Sending

variable (s : State) (c : Ctx) (reads : List (Nat × Nat)) (t : State) (qs : List YReq) (k : State → State)

/-- An operator that sends what it reads: fault 0x03 where a word of its reads is bad; else, at the state `t`, its requests, and
`k` at once where it has none. -/
def State.sendEnd : State :=
  if reads.any (fun (p, n) => (s.look p n).2) then (s.opReads c reads).opFault c 0x03 else t.withIo c qs (k t)

variable {s c reads t qs k}

/-- With clean reads and some request, the operator asks the yarder. -/
theorem State.sendEnd_clean (h : s.Clean reads) (hq : qs ≠ []) : s.sendEnd c reads t qs k = t.request c qs := by
  rw [State.sendEnd, h.any_bad, if_neg Bool.false_ne_true, State.withIo_ne hq]

/-- With a bad word among its reads, the operator meets fault 0x03 (R264). -/
theorem State.sendEnd_bad (h : ∃ x ∈ reads, (s.look x.1 x.2).2 = true) :
    s.sendEnd c reads t qs k = (s.opReads c reads).opFault c 0x03 := by
  rw [State.sendEnd, State.any_bad_of_mem h, if_pos rfl]

variable {op j th : Nat} {f : Ctx → State} (hj : threadOk j th = true) (hc : s.startOf op j th = some c)
  (hf : f c = s.sendEnd c reads t qs k)
include hj hc hf

/-- An operator that may start and sends what it reads, with clean reads and some request: it asks the yarder and issues. -/
theorem ok_startAs_sends (h : s.Clean reads) (hq : qs ≠ []) :
    ok (threadOk j th) s (s.startAs op j th f) = .next (((t.request c qs).issued j th).withQueue s.pending) := by
  rw [ok_startAs hj hc, hf, State.sendEnd_clean h hq]

/-- An operator that may start and reads a bad word meets fault 0x03 and issues. -/
theorem ok_startAs_bad (h : ∃ x ∈ reads, (s.look x.1 x.2).2 = true) :
    ok (threadOk j th) s (s.startAs op j th f) =
      .next ((((s.opReads c reads).opFault c 0x03).issued j th).withQueue s.pending) := by
  rw [ok_startAs hj hc, hf, State.sendEnd_bad h]

end Sending

section Reduce

variable {s : State} {c : Ctx} {i : Slot} (hi : s.ctxSlot c 8 = some i)

/-- The parts of a group combine element by element over the tree where they are no records (R83). -/
theorem reduceGroup_elements {op : Nat} (h : op ≠ 3) (ty elems : Nat) (parts : List (List Nat)) :
    reduceGroup op ty elems parts =
      (List.range elems).map (fun e => tree (adder op ty) 0 (parts.map (fun p => p.getD e 0))) :=
  if_neg h

include hi

/-- REDUCE of FP32 parts in the tile writes each group's combined elements to OUT in element order (R100). -/
theorem State.reduceOp_local {o : Slot} (ho : s.ctxSlot c 9 = some o) (hs : c.f 12 1 ≠ 0) (h3 : c.f 10 1 ≠ 3)
    (ht : c.f 11 1 = 0) :
    let part (g k : Nat) : List Nat := ((s.flatCodes c.tile i).drop ((g * c.f 13 1 + k) * c.f 32 4)).take (c.f 32 4)
    s.reduceOp c = s.vecEnd c (i.allSpans c.tile) (fun t => t.putFlat c.tile o
      ((List.range (c.f 36 4)).map (fun g => (List.range (c.f 32 4)).map (fun x =>
        Machine.tree (adder (c.f 10 1) 0) 0 ((List.range (c.f 13 1)).map (fun k => (part g k).getD x 0))))).flatten) := by
  simp [State.reduceOp, State.reduceLocal, State.flagIf, hi, ho, hs, h3, ht, reduceGroup_elements h3, Function.comp_def]

/-- REDUCE into landing reads its rows and sends each to be added at its pitch (R100, R203). -/
theorem State.reduceOp_send (hs : c.f 12 1 = 0) :
    s.reduceOp c =
      let n := i.fmt.packed (c.f 32 4)
      let rows := List.range (c.f 36 4)
      let reads := rows.map (fun r => (wsAt c.tile (i.rowAt r), n))
      s.sendEnd c reads (s.opReads c reads) (rows.flatMap (fun r => reduceReqs (c.f 10 1) (c.f 11 1) n (c.land + r * i.pitch)
        (s.look (wsAt c.tile (i.rowAt r)) (up64 n)).1)) (fun t => t.opDone c) := by
  simp only [State.reduceOp, hi, hs, if_true]
  rfl

end Reduce

section Copy

variable (s : State) (c : Ctx) {j th : Nat}

/-- Both ends of a piece of a COPY lie in the tile. -/
def inTile : CopyEnd × CopyEnd × Nat → Bool
  | (.here _, .here _, _) => true
  | _ => false

/-- A piece lies in the tile exactly when each of its ends is a place there. -/
theorem inTile_iff {x : CopyEnd × CopyEnd × Nat} : inTile x = true ↔ ∃ k d, x.1 = .here k ∧ x.2.1 = .here d := by
  obtain ⟨a, b, n⟩ := x
  cases a <;> cases b <;> simp [inTile]

/-- A COPY moves its pieces at once where all of them lie in the tile, and else makes them requests. -/
theorem State.copyOp_eq :
    let xs := s.copyCuts c
    let s0 := s.ownReads c (ownSpans xs)
    s.copyOp c = if (s.copyDst c).2.isNone && xs.all inTile then (xs.foldl State.copyHere s0).opDone c
      else s0.withIo c (xs.map (s.copyReq (s.copyDst c).2)) (s0.opDone c) := rfl

variable {s} {c}

/-- COPY of pieces that all lie in the tile (R113). -/
theorem State.copyOp_moves (hd : (s.copyDst c).2 = none)
    (h : ∀ x ∈ s.copyCuts c, ∃ k d, x.1 = CopyEnd.here k ∧ x.2.1 = CopyEnd.here d) :
    s.copyOp c = ((s.copyCuts c).foldl State.copyHere (s.ownReads c (ownSpans (s.copyCuts c)))).opDone c := by
  have all : (s.copyCuts c).all inTile = true := List.all_eq_true.mpr fun x hx => inTile_iff.mpr (h x hx)
  rw [s.copyOp_eq c, hd, all]
  exact if_pos rfl

/-- COPY to another tile, or with an end outside, asks the yarder for its pieces (R111). -/
theorem State.copyOp_requests (h : (s.copyDst c).2 ≠ none ∨
      ∃ x ∈ s.copyCuts c, ¬∃ k d, x.1 = CopyEnd.here k ∧ x.2.1 = CopyEnd.here d) (hx : s.copyCuts c ≠ []) :
    s.copyOp c = (s.ownReads c (ownSpans (s.copyCuts c))).request c ((s.copyCuts c).map (s.copyReq (s.copyDst c).2)) := by
  have leaves : ((s.copyDst c).2.isNone && (s.copyCuts c).all inTile) = false := by
    rcases h with hd | ⟨x, hx, hn⟩
    · rw [Option.isNone_eq_false_iff.mpr (Option.isSome_iff_ne_none.mpr hd), Bool.false_and]
    · rw [List.all_eq_false.mpr ⟨x, hx, fun ht => hn (inTile_iff.mp ht)⟩, Bool.and_false]
  rw [s.copyOp_eq c, leaves, if_neg Bool.false_ne_true, State.withIo_ne (by simpa using hx)]

/-- COPY of a thread that may start it. -/
theorem exec_copyRows_starts (hj : threadOk j th = true) (hc : s.startOf 0x0E j th = some c) :
    exec (.copyRows j th) s = .next (((s.copyOp c).issued j th).withQueue s.pending) := by
  change execCopyRows j th s = _
  rw [execCopyRows, hj, ok_true, hc]

/-- COPY where none may start: the tile issues what it can (R111). -/
theorem exec_copyRows_issues (hj : threadOk j th = true) (hc : s.startOf 0x0E j th = none) :
    exec (.copyRows j th) s = .next ((s.issueAll j).withQueue s.pending) := by
  change execCopyRows j th s = _
  rw [execCopyRows, hj, ok_true, hc]

end Copy

/-- Settles O31: REDUCE by its scope and its reads, COPY by where its pieces lie. -/
theorem reduceAndCopyMoveTheirRows : Obligations.ReduceAndCopyMoveTheirRows := by
  unfold Obligations.ReduceAndCopyMoveTheirRows
  intro s j th c hj
  refine ⟨fun hc i hi => ⟨fun o ho hs h3 ht hclean => ?combines, fun hs => ⟨fun hclean hq => ?adds, fun hbad => ?bad⟩⟩,
    fun hc => ⟨fun hd hx => ?moves, fun hx hne => ?requests⟩, exec_copyRows_issues hj,
    fun hc => ok_startVec_fails hj hc _⟩
  case combines => exact ok_startVec_finishes hj hc (State.reduceOp_local hi ho hs h3 ht) hclean
  case adds => exact ok_startAs_sends hj hc (State.reduceOp_send hi hs) hclean hq
  case bad => exact ok_startAs_bad hj hc (State.reduceOp_send hi hs) hbad
  case moves => rw [exec_copyRows_starts hj hc, State.copyOp_moves hd hx]
  case requests => rw [exec_copyRows_starts hj hc, State.copyOp_requests hx hne]

end Sys2Proof.Machine
end

section
/-!
SUPPORT. DISPATCH, COMBINE and KV_APPEND (R99, R162, R163): what each sends of what it reads, and what it does once the last
request has completed.
-/

namespace Sys2Proof.Machine

section Landed

variable {s : State} {c : Ctx}

/-- The thread waits for the yarder, and its last request has completed. -/
def State.Landed (s : State) (c : Ctx) : Prop :=
  (s.thr c.tile c.level c.thread).st = .yarder ∧ (s.thr c.tile c.level c.thread).reqs = [] ∧
    (s.thr c.tile c.level c.thread).outst = 0

/-- An operator whose last request has completed goes on. -/
theorem State.Landed.yarderEnd (h : s.Landed c) : s.yarderEnd c = s.afterIo c := if_pos h

/-- Where all the semaphores that an operator names can be read, it goes on (R276). -/
theorem State.ifSems_good {ns : List (Nat × Nat)} (h : ∀ x ∈ ns, s.semBad c x.1 x.2 = false) (u t : State) :
    s.ifSems c ns u t = t := by
  rw [State.ifSems, List.any_eq_false.mpr fun x hx => Bool.not_eq_true _ ▸ h x hx, if_neg Bool.false_ne_true]

/-- A DISPATCH whose rows and counts have landed adds 1 to the semaphore of every entry, and ends (R99). -/
theorem State.dispatchEnd_good
    (h : ∀ e ∈ List.range (c.f 12 2), s.semBad c 0 (s.mapEnt c.part (c.f 24 2 + e)).sem = false) :
    s.dispatchEnd c = ((List.range (c.f 12 2)).foldl (fun t e =>
      t.semAdd c 0 (s.mapEnt c.part (c.f 24 2 + e)).sem 1) s).opDone c := by
  rw [State.dispatchEnd, State.ifSems_good (by simpa using h), List.foldl_map]

/-- A COMBINE whose rows have landed adds 1 to the semaphore of every entry of its return map, and ends (R99). -/
theorem State.combineEnd_good (h : ∀ e ∈ s.returnMap c.part (c.f 24 2), s.semBad c 0 e.sem = false) :
    s.combineEnd c =
      State.endWritten ((s.returnMap c.part (c.f 24 2)).foldl (fun t e => t.semAdd c 0 e.sem 1) s) c := by
  rw [State.combineEnd, State.ifSems_good (by simpa using h), List.foldl_map]

end Landed

section Sent

variable {s : State} {c : Ctx}

/-- DISPATCH reads its rows, experts and gates and sends the rows that fit, each behind its tag, then the counts (R99). -/
theorem State.dispatchOp_eq {i ix g : Slot} (hi : s.ctxSlot c 8 = some i) (hx : s.ctxSlot c 9 = some ix)
    (hg : s.ctxSlot c 10 = some g) :
    let rs := List.range (c.f 16 4)
    let n := c.f 20 4
    let ent (e : Nat) : MapEnt := s.mapEnt c.part (c.f 24 2 + e)
    let all (e : Nat) := (dispatchPairs (rs.map (fun r => (s.slotCodes c.tile ix r).1.take (c.f 11 1)))).filter
      (fun x => x.2.2 == e)
    let fit (e : Nat) := (all e).take (ent e).cap
    let rows := (List.range (c.f 12 2)).flatMap (fun e => (fit e).mapIdx (fun k x =>
      (landAddr ((ent e).land + 256 + c.f 15 1 * (ent e).cap * (64 + n) + k * (64 + n)),
        rowTag (c.f 15 1) x.2.1 x.1 (((s.slotCodes c.tile g x.1).1).getD x.2.1 0) ++
          (s.look (wsAt c.tile (i.rowAt x.1)) n).1)))
    let counts := (List.range (c.f 12 2)).map (fun e => (landAddr ((ent e).land + 4 * c.f 15 1), natLE 4 (fit e).length))
    let reads := rs.map (fun r => (wsAt c.tile (i.rowAt r), n)) ++ ix.spans c.tile rs ++ g.spans c.tile rs
    s.dispatchOp c = s.sendEnd c reads
      ((s.opReads c reads).flagIf TILE_SEQ_EVENT.DISPATCH_DROP c.tile ((List.range (c.f 12 2)).any (fun e =>
        decide ((fit e).length < (all e).length))))
      ((rows ++ counts).flatMap (fun x => putReqs x.1 x.2)) (fun t => t.dispatchEnd c) := by
  simp only [State.dispatchOp, hi, hx, hg]
  rfl

/-- COMBINE of ROWS rows reads them and their tags, notes what the products met, and sends each row times its tag's gate
(R99). -/
theorem State.combineOp_eq {i tg : Slot} (hi : s.ctxSlot c 8 = some i) (ht : s.ctxSlot c 9 = some tg) (hn : c.f 16 4 ≠ 0) :
    let ents := s.returnMap c.part (c.f 24 2)
    let rs := List.range (c.f 16 4)
    let tag (r : Nat) := leNat (s.slotRaw c.tile tg (64 * r) 64)
    let at_ (r : Nat) := if c.f 11 1 = 0 then fld (tag r) 2 2 else fld (tag r) 2 2 * c.f 12 1 + fld (tag r) 1 1
    let dst (r : Nat) := landAddr ((ents.getD (fld (tag r) 0 1) ⟨0, 0, 0⟩).land + at_ r * c.f 20 4 * 4)
    let out (r : Nat) := ((s.row32 c.tile i r).take (c.f 20 4)).map (mul32 (fld (tag r) 4 4))
    let bytes (r : Nat) := ((out r).map (natLE 4)).flatten
    let reads := i.spans c.tile rs ++ rs.map (fun r => (tg.byteAt c.tile (64 * r), 64))
    s.combineOp c = s.sendEnd c reads ((s.opReads c reads).noteEv c (ev32 (rs.flatMap out)))
      (rs.flatMap (fun r => if c.f 11 1 = 0 then reduceReqs 0 0 (bytes r).length (dst r) (bytes r)
        else putReqs (dst r) (bytes r))) (fun t => t.combineEnd c) := by
  have rows : s.combineRows c tg = (c.f 16 4, 0) := if_pos hn
  simp only [State.combineOp, hi, ht, rows, List.flatMap_map, Nat.zero_add, Nat.zero_div, Nat.add_zero]
  rfl

/-- KV_APPEND reads its tokens' K and V, notes what their conversion met, and sends each token's heads to the page and slot
that the append gives it (R162, R163). -/
theorem State.appendOp_eq {kq vq : Slot} (hk : s.ctxSlot c 8 = some kq) (hv : s.ctxSlot c 9 = some vq) :
    let l := c.layerKv 14
    let d := headDim (c.f 20 1)
    let e := s.execOf c.part c.slot
    let r := e.resv.getD (c.f 10 1) {}
    let ext := if e.regrow.isSome then s.ranges c.part r.slot
      else extendRanges (s.pageT c.part) (s.ranges c.part r.slot) r.n r.segs
    let is := List.range (c.f 16 4)
    let cells := is.flatMap (fun i => (List.range (c.f 13 1)).map (fun h => (i, h)))
    let dst (x : Nat × Nat) := s.appendTo c.part e r ext ((c.f 11 1).testBit 0) l x.1
    let made (x : Nat × Nat) := s.kvPieces c.part l (((dst x).map Prod.fst).getD 0) (c.f 12 1 + x.2)
      (((dst x).map Prod.snd).getD 0) (((s.slotRow c.tile kq x.1).values.drop (x.2 * d)).take d)
      (((s.slotRow c.tile vq x.1).values.drop (x.2 * d)).take d)
    let writes := cells.flatMap (fun x => match dst x with
      | some pg => (made x).1.map (fun y =>
          (s.physOf (s.led pg.1).chan ((s.led pg.1).frame * s.frameSize c.part + y.1), y.2))
      | none => [])
    let reads := kq.spans c.tile is ++ vq.spans c.tile is
    s.appendOp c = s.sendEnd c reads ((s.opReads c reads).noteEv c (cells.foldl (fun a x => a.join (made x).2) {}))
      (writes.flatMap (fun x => putReqs x.1 x.2)) (fun t => t.endWritten c) := by
  intro l d e r ext is cells dst made writes reads
  have written : writes = cells.flatMap (fun x => match (dst x).map Prod.fst with
      | some pg => (made x).1.map (fun y => (s.physOf (s.led pg).chan ((s.led pg).frame * s.frameSize c.part + y.1), y.2))
      | none => []) :=
    congrArg cells.flatMap (funext fun x => by cases dst x <;> rfl)
  rw [written]
  simp only [State.appendOp, hk, hv, List.flatMap_map, List.foldl_map]
  rfl

end Sent

/-- Settles O32: what each operator sends of clean reads, and its end once the last request has completed. -/
theorem dispatchCombineAppendSendRows : Obligations.DispatchCombineAppendSendRows := by
  unfold Obligations.DispatchCombineAppendSendRows
  intro s j th c hj
  refine ⟨fun i ix g hc hi hx hg hclean hq => ?dispatch, fun ho hl hs => ?dispatched,
    fun i tg hc hi ht hn hclean hq => ?combine, fun ho hl hs => ?combined, fun hc => ok_startVec_fails hj hc _,
    fun kq vq hc hk hv hclean hq => ?append, fun ho hl => ?appended⟩
  case dispatch => exact ok_startAs_sends hj hc (State.dispatchOp_eq hi hx hg) hclean hq
  case dispatched => rw [State.Landed.yarderEnd hl, State.afterIo, if_pos ho, State.dispatchEnd_good hs]
  case combine => exact ok_startAs_sends hj hc (State.combineOp_eq hi ht hn) hclean hq
  case combined => rw [State.Landed.yarderEnd hl, State.afterIo, ho, if_neg (by decide), if_pos rfl, State.combineEnd_good hs]
  case append => exact ok_startAs_sends hj hc (State.appendOp_eq hk hv) hclean hq
  case appended =>
    rw [State.Landed.yarderEnd hl, State.afterIo, ho, if_neg (by decide), if_neg (by decide), if_neg (by decide), if_pos rfl]

end Sys2Proof.Machine
end

section
/-!
SUPPORT. The start of a graph instance (R93, R107): the partition's new level and instance, and its semaphores.
-/

namespace Sys2Proof.Machine

section InstanceStart

variable (s : State) (p x l : Nat) (e : Exec)

/-- A changed partition reads as it was changed. -/
@[simp] theorem State.part_onPart (f : Part → Part) : (s.onPart p f).part p = f (s.part p) := by
  simp [State.part, Tbl.upd]

/-- A partition reads the same in two states with the same partitions. -/
theorem State.part_congr {s t : State} (h : t.parts = s.parts) (p : Nat) : t.part p = s.part p := by
  simp [State.part, h]

/-- Waking tiles writes the tiles alone. -/
theorem State.wake_frame (js : List Nat) :
    (s.wake js).parts = s.parts ∧ (s.wake js).sems = s.sems ∧ (s.wake js).mem = s.mem ∧ (s.wake js).regs = s.regs := by
  have kept := State.wake_keeps (within_opened _ s) s js (.refl _ s)
  obtain ⟨hparts, hsems, -⟩ := kept .parts (by decide)
  obtain ⟨hmem, -⟩ := kept .memory (by decide)
  obtain ⟨hregs, -⟩ := kept .registers (by decide)
  exact ⟨hparts.symm, hsems.symm, hmem.symm, hregs.symm⟩

/-- The instance that a started command gets at a level. -/
def State.newInst : Inst :=
  { valid := true, graph := s.execGraph p e, slot := x
    tiles := ((s.partTiles p).filter (fun j => s.takesPart p (s.execGraph p e) j)).foldl (fun m j => setBit m j true) 0
    cls := s.deckClass e.deck }

/-- What a start leaves: the partition at the level with the new instance, the level's semaphores cleared, memory and the
registers as they were. -/
theorem State.startInst_spec :
    ((s.startInst p x l e).part p).level = l ∧ ((s.startInst p x l e).part p).preAsk = none ∧
      (s.startInst p x l e).inst p l = s.newInst p x e ∧
      (s.startInst p x l e).sems = s.sems.clearRange ((p * 4 + l) * 4096) 4096 ∧
      (s.startInst p x l e).mem = s.mem ∧ (s.startInst p x l e).regs = s.regs := by
  obtain ⟨u, hu, hparts, hsems, hmem, hregs⟩ : ∃ u : State, s.startInst p x l e = u ∧
      u.parts = Tbl.upd {} s.parts p (fun q => { q with
        level := l, preAsk := none, lastDeck := q.lastDeck.set (s.deckClass e.deck) (e.deck + 1)
        insts := Tbl.put {} q.insts l (s.newInst p x e) }) ∧
      u.sems = s.sems.clearRange ((p * 4 + l) * 4096) 4096 ∧ u.mem = s.mem ∧ u.regs = s.regs := by
    refine ⟨_, rfl, ?_⟩
    simp only [State.startInst, State.onExec_frame, State.wake_frame]
    refine keeps_foldl (P := fun u => u.parts = _ ∧ u.sems = _ ∧ u.mem = _ ∧ u.regs = _)
      (fun u j hu => by simpa using hu) ?_
    simp [State.freshSems, State.newInst]
  rw [hu]
  simp [State.inst, State.part, hparts, hsems, hmem, hregs, Tbl.upd]

end InstanceStart

section InstanceStartCommand

variable {s : State} {p x : Nat} (hx : slotOk p x = true)
include hx

/-- INSTANCE_START of the hub's choice with no instance at the partition's level (R93, R305). -/
theorem exec_instanceStart_chosen {e : Exec} (hc : s.choice p = some (x, e))
    (hv : (s.inst p (s.part p).level).valid = false) (hh : s.halted = false) :
    exec (.instanceStart p x) s = .next ((s.startInst p x 0 e).withQueue s.pending) := by
  change execInstanceStart p x s = _
  simp [execInstanceStart, hx, hc, hv, hh, ok_true]

/-- INSTANCE_START where the hub chooses no command. -/
theorem exec_instanceStart_none (hc : s.choice p = none) : exec (.instanceStart p x) s = .next s := by
  change execInstanceStart p x s = _
  simp [execInstanceStart, hx, hc, ok_true, State.withQueue_self]

/-- INSTANCE_START of a command that is not the hub's choice. -/
theorem exec_instanceStart_other {y : Nat} {e : Exec} (hc : s.choice p = some (y, e)) (hy : y ≠ x) :
    exec (.instanceStart p x) s = .next s := by
  change execInstanceStart p x s = _
  simp [execInstanceStart, hx, hc, hy, ok_true, State.withQueue_self]

end InstanceStartCommand

/-- Settles O10: by the hub's choice. -/
theorem instanceStartTakesTheChosenCommand : Obligations.InstanceStartTakesTheChosenCommand := by
  unfold Obligations.InstanceStartTakesTheChosenCommand
  intro s p x hx
  refine ⟨fun e hc hv hh => ?chosen, exec_instanceStart_none hx, fun y e hc hy => exec_instanceStart_other hx hc hy⟩
  case chosen =>
    obtain ⟨hlevel, hask, hinst, hsems, hmem, hregs⟩ := s.startInst_spec p x 0 e
    refine ⟨_, exec_instanceStart_chosen hx hc hv hh, hlevel, hask, ?_⟩
    have taken : ((s.startInst p x 0 e).withQueue s.pending).inst p 0 = s.newInst p x e := hinst
    rw [taken]
    refine ⟨rfl, rfl, rfl, rfl, rfl, rfl, rfl, fun n hn => ?_, hmem, hregs⟩
    change Tbl.get 0 (s.startInst p x 0 e).sems _ = 0
    rw [hsems]
    exact Tbl.get_clearRange_in _ (by omega) (by omega)

end Sys2Proof.Machine
end

section
/-!
SUPPORT. SIGNAL and WAIT (R107 to R110), and the events of a thread that waits.
-/

namespace Sys2Proof.Machine

section Semaphores

variable (s : State) (c : Ctx) (scope n add : Nat)

/-- A SIGNAL's add: the semaphore holds the saturated sum, the others of its scope are as before, and neither memory nor a thread
changes (R108, R110). -/
theorem State.semAdd_spec :
    (s.semAdd c scope n add).sem c scope n = min (s.sem c scope n + add) 0xFFFFFFFF ∧
      (∀ m, m ≠ n → (s.semAdd c scope n add).sem c scope m = s.sem c scope m) ∧
      (s.semAdd c scope n add).mem = s.mem ∧ (s.semAdd c scope n add).thrs = s.thrs := by
  by_cases h : scope = 0
  · simp +contextual [State.semAdd, State.sem, h, satAdd32, Tbl.get_put_ne]
  · simp +contextual [State.semAdd, State.sem, h, satAdd32, Tbl.get_put_ne]

/-- A SIGNAL's add writes no register but SEM_SAT, where the count saturates. -/
theorem State.semAdd_regs :
    (s.semAdd c scope n add).regs =
      (s.flagIf TILE_SEQ_EVENT.SEM_SAT c.tile (decide (s.sem c scope n + add > 0xFFFFFFFF))).regs := by
  unfold State.semAdd
  dsimp only
  split <;> simp

variable {s c scope n add}

/-- An add that saturates sets SEM_SAT. -/
theorem State.semAdd_saturates (h : 0xFFFFFFFF < s.sem c scope n + add) :
    (s.semAdd c scope n add).fget TILE_SEQ_EVENT.SEM_SAT c.tile 0 = 1 := by
  rw [State.fget_congr (State.semAdd_regs ..), decide_eq_true h, State.flagIf, if_pos rfl, State.fget_fset_same]
  rfl

/-- An add that does not saturate writes no register. -/
theorem State.semAdd_regs_of_le (h : s.sem c scope n + add ≤ 0xFFFFFFFF) : (s.semAdd c scope n add).regs = s.regs := by
  rw [State.semAdd_regs, decide_eq_false (Nat.not_lt.mpr h), State.flagIf, if_neg Bool.false_ne_true]

/-- An operator that names one semaphore, which can be read, goes on. -/
theorem State.ifSem_good {k m : Nat} (h : s.semBad c k m = false) (u t : State) : s.ifSems c [(k, m)] u t = t :=
  State.ifSems_good (by simpa using h) u t

/-- An operator that names one semaphore, which reads uncorrectable, meets fault 0x03 (R276). -/
theorem State.ifSem_bad {k m : Nat} (h : s.semBad c k m = true) (u t : State) : s.ifSems c [(k, m)] u t = u.semUe c :=
  if_pos (by simpa using h)

end Semaphores

section SemaphoreOperators

variable {s : State} {c : Ctx} {j th : Nat} (hj : threadOk j th = true)
include hj

/-- SIGNAL of a readable semaphore adds VALUE and ends (R108). -/
theorem exec_signalOp_good (hc : s.startOf 0x12 j th = some c) (hb : s.semBad c (c.f 8 1) (c.f 14 2) = false) :
    exec (.signalOp j th) s =
      .next ((((s.semAdd c (c.f 8 1) (c.f 14 2) (c.f 16 4)).opDone c).issued j th).withQueue s.pending) :=
  (ok_startAs hj hc _).trans (by rw [State.ifSem_good hb])

/-- WAIT of a readable semaphore ends where its target is reached, and else its thread waits from now on (R109). -/
theorem exec_waitOp_good (hc : s.startOf 0x11 j th = some c) (hb : s.semBad c (c.f 8 1) (c.f 14 2) = false) :
    exec (.waitOp j th) s = .next (((if s.waitMet c then s.opDone c
      else s.onThr j c.level th (fun h => { h with st := .waiting, since := s.time })).issued j th).withQueue s.pending) :=
  (ok_startAs hj hc _).trans (by rw [State.ifSem_good hb])

variable (hw : s.waiting j th = some c)
include hw

/-- WAIT_SATISFIED of a thread whose semaphore reads uncorrectable (R276). -/
theorem exec_waitSatisfied_bad (hb : s.semBad c (c.f 8 1) (c.f 14 2) = true) :
    exec (.waitSatisfied j th) s = .next ((s.semUe c).withQueue s.pending) := by
  change execWaitSatisfied j th s = _
  rw [execWaitSatisfied, hj, ok_true, hw]
  dsimp only
  rw [State.ifSem_bad hb]

variable (hb : s.semBad c (c.f 8 1) (c.f 14 2) = false)
include hb

/-- WAIT_SATISFIED of a waiting thread whose semaphore can be read (R109). -/
theorem exec_waitSatisfied_good :
    exec (.waitSatisfied j th) s = .next ((if s.waitMet c then s.opDone c else s).withQueue s.pending) := by
  change execWaitSatisfied j th s = _
  rw [execWaitSatisfied, hj, ok_true, hw]
  dsimp only
  rw [State.ifSem_good hb]

/-- WAIT_LIMIT of a waiting thread whose semaphore can be read (R109). -/
theorem exec_waitLimit_good :
    exec (.waitLimit j th) s = .next ((if !s.waitMet c && c.f 24 4 != 0 &&
      decide (s.time ≥ (s.thr j c.level th).since + c.f 24 4 * 1000) then s.opFault c 0x06 else s).withQueue s.pending) := by
  change execWaitLimit j th s = _
  rw [execWaitLimit, hj, ok_true, hw]
  dsimp only
  rw [State.ifSem_good hb]

/-- A wait whose target is reached ends at WAIT_SATISFIED, and its limit does nothing. -/
theorem exec_wait_met (hm : c.target ≤ s.sem c (c.f 8 1) (c.f 14 2)) :
    exec (.waitSatisfied j th) s = .next ((s.opDone c).withQueue s.pending) ∧ exec (.waitLimit j th) s = .next s := by
  have met : s.waitMet c = true := decide_eq_true hm
  refine ⟨?_, ?_⟩
  · rw [exec_waitSatisfied_good hj hw hb, met, if_pos rfl]
  · rw [exec_waitLimit_good hj hw hb, met, Bool.not_true, Bool.false_and, Bool.false_and, if_neg Bool.false_ne_true]
    rfl

/-- A wait with no limit, or before its limit, goes on at WAIT_LIMIT. -/
theorem exec_waitLimit_before (h : c.f 24 4 = 0 ∨ s.time < (s.thr j c.level th).since + c.f 24 4 * 1000) :
    exec (.waitLimit j th) s = .next s := by
  rw [exec_waitLimit_good hj hw hb, if_neg ?_]
  · rfl
  · rcases h with h | h
    · simp [h]
    · simp [Nat.not_le.mpr h]

variable (hm : s.sem c (c.f 8 1) (c.f 14 2) < c.target)
include hm

/-- A wait that falls short goes on at WAIT_SATISFIED. -/
theorem exec_waitSatisfied_short : exec (.waitSatisfied j th) s = .next s := by
  rw [exec_waitSatisfied_good hj hw hb, State.waitMet, decide_eq_false (Nat.not_le.mpr hm), if_neg Bool.false_ne_true]
  rfl

/-- A wait that falls short when its limit has passed ends in fault 0x06, for which no retry is allowed. -/
theorem exec_waitLimit_passed (hl : c.f 24 4 ≠ 0) (ht : (s.thr j c.level th).since + c.f 24 4 * 1000 ≤ s.time) :
    exec (.waitLimit j th) s = .next ((s.opEndFault c 0x06).withQueue s.pending) := by
  rw [exec_waitLimit_good hj hw hb, State.waitMet, decide_eq_false (Nat.not_le.mpr hm)]
  simp [hl, ht, State.opFault, causeRetried]

end SemaphoreOperators

end Sys2Proof.Machine
end

section
/-!
SUPPORT. A yarder tag's completion, its timeout and its quarantine (R112, R113, R204); run-ahead (R207, R208).
-/

namespace Sys2Proof.Machine

section Tags

variable {s : State} {j t : Nat} (ht : t < 512) (hj : tileOk j = true)
include ht hj

/-- A completion that names no request in flight is late (R112). -/
theorem exec_yarderCompletion_late {gen : Bool} (h : (s.tag j t).busy = false ∨ (s.tag j t).gen ≠ gen) :
    exec (.yarderCompletion j t gen) s = .next (s.fcount TILE_YARD_COUNT.LATE j 0) := by
  change execYarderCompletion j t gen s = _
  rcases h with h | h <;> simp [execYarderCompletion, hj, ht, h, ok_true, State.withQueue_self]

variable (hb : (s.tag j t).busy = true)

section InFlight

include hb

/-- A request that its channel holds has no completion yet (R233). -/
theorem exec_yarderCompletion_held (hh : (s.tag j t).held = true) :
    exec (.yarderCompletion j t (s.tag j t).gen) s = .next s := by
  change execYarderCompletion j t _ s = _
  simp [execYarderCompletion, hj, ht, hb, hh, ok_true, State.withQueue_self]

/-- A completion frees the tag, lands what came, observes its latency, and lets the next request of its bank go (R205). -/
def State.completed (s : State) (j t : Nat) : State :=
  let g := s.tag j t
  let s0 := ((s.onTag j t (fun x => { x with busy := false, got := [], marks := 0 })).landGot g).observeReq
    { g.rqOf j (s.tilePart j) with arrived := g.came } [(g.rq.place, g.rq.len)]
  ((bankOfPlace g.rq.place).map s0.bankNext).getD s0

/-- What a completion makes of the thread of its request: one less is out, and a relayed write is to be made. -/
def State.relayedTo (s : State) (j : Nat) (g : Tag) : State :=
  s.onThr j g.level g.thread (fun h => { h with outst := h.outst - 1, reqs := h.reqs ++ g.relayed })

/-- A completion of a request in flight that no channel holds, by whether its operator still waits for it (R112, R113). -/
theorem exec_yarderCompletion_inFlight (hh : (s.tag j t).held = false) :
    exec (.yarderCompletion j t (s.tag j t).gen) s = .next ((if (s.tag j t).orphan then (s.completed j t).issueAll j
      else match ((s.completed j t).relayedTo j (s.tag j t)).tagCtx j (s.tag j t) with
        | some c => (if (s.tag j t).refused then ((s.completed j t).relayedTo j (s.tag j t)).failIo c 0x03
            else ((s.completed j t).relayedTo j (s.tag j t)).reqEnd c).issueAll j
        | none => ((s.completed j t).relayedTo j (s.tag j t)).issueAll j).withQueue s.pending) := by
  have next (s0 : State) : ((bankOfPlace (s.tag j t).rq.place).map s0.bankNext).getD s0 =
      match bankOfPlace (s.tag j t).rq.place with
      | some b => s0.bankNext b
      | none => s0 := by
    cases bankOfPlace (s.tag j t).rq.place <;> rfl
  change execYarderCompletion j t _ s = _
  simp only [execYarderCompletion, State.completed, State.relayedTo, next, hj, ht, hb, hh, decide_true, Bool.and_self, ok_true,
    bne_self_eq_false, Bool.not_true, Bool.or_self, Bool.false_eq_true, if_false] <;> rfl

variable (hh : (s.tag j t).held = false)
include hh

/-- A completion for an operator that has gone: the tile issues what it can. -/
theorem exec_yarderCompletion_orphan (ho : (s.tag j t).orphan = true) :
    exec (.yarderCompletion j t (s.tag j t).gen) s = .next (((s.completed j t).issueAll j).withQueue s.pending) := by
  rw [exec_yarderCompletion_inFlight ht hj hb hh, if_pos ho]

variable {c : Ctx} (ho : (s.tag j t).orphan = false)
  (hc : ((s.completed j t).relayedTo j (s.tag j t)).tagCtx j (s.tag j t) = some c)
include ho hc

/-- A request that was refused ends its operator with fault 0x03 (R204). -/
theorem exec_yarderCompletion_refused (hr : (s.tag j t).refused = true) :
    exec (.yarderCompletion j t (s.tag j t).gen) s = .next
      (((((s.completed j t).relayedTo j (s.tag j t)).failIo c 0x03).issueAll j).withQueue s.pending) := by
  rw [exec_yarderCompletion_inFlight ht hj hb hh, ho, hc, hr, if_neg Bool.false_ne_true]
  rfl

/-- A good request's operator goes on after its last, where its instance runs (R106). -/
theorem exec_yarderCompletion_good (hr : (s.tag j t).refused = false)
    (hp : (((s.completed j t).relayedTo j (s.tag j t)).tile c.tile).preempting = false)
    (hl : c.level = (((s.completed j t).relayedTo j (s.tag j t)).part c.part).level) :
    exec (.yarderCompletion j t (s.tag j t).gen) s = .next
      (((((s.completed j t).relayedTo j (s.tag j t)).yarderEnd c).issueAll j).withQueue s.pending) := by
  rw [exec_yarderCompletion_inFlight ht hj hb hh, ho, hc, hr, if_neg Bool.false_ne_true]
  simp only [State.reqEnd, hp, ← hl, bne_self_eq_false, Bool.or_self, Bool.false_eq_true, if_false]

end InFlight

/-- No completion in time: the tag is quarantined for 2 µs (R112). -/
def State.quarantined (s : State) (j t : Nat) : State :=
  s.onTag j t (fun x => { x with busy := false, quarantine := true, freeAt := s.time + 2000 })

section TimedOut

include hb

variable (hl : (s.tag j t).issued + s.fget TILE_YARD_CTL.TIMEOUT_US j 0 * 1000 < s.time)
include hl

/-- YARDER_TIMEOUT of a request in flight whose time has run out (R112). -/
theorem exec_yarderTimeout_late :
    exec (.yarderTimeout j t) s = .next ((s.tagTimeout j t).withQueue s.pending) := by
  change execYarderTimeout j t s = _
  simp [execYarderTimeout, hj, ht, hb, Nat.not_le.mpr hl, ok_true]

/-- A timeout for an operator that has gone quarantines the tag. -/
theorem exec_yarderTimeout_orphan (ho : (s.tag j t).orphan = true) :
    exec (.yarderTimeout j t) s = .next (s.quarantined j t) := by
  rw [exec_yarderTimeout_late ht hj hb hl, State.tagTimeout, ho, if_pos rfl]
  rfl

/-- A timeout quarantines the tag, and its operator meets fault 0x04 (R114). -/
theorem exec_yarderTimeout_fails {c : Ctx} (ho : (s.tag j t).orphan = false)
    (hc : (s.quarantined j t).tagCtx j (s.tag j t) = some c) :
    exec (.yarderTimeout j t) s = .next (((s.quarantined j t).failIo c 0x04).withQueue s.pending) := by
  rw [exec_yarderTimeout_late ht hj hb hl, State.tagTimeout, ho, if_neg Bool.false_ne_true]
  change Host.Outcome.next ((match (s.quarantined j t).tagCtx j (s.tag j t) with
    | some c => (s.quarantined j t).failIo c 0x04
    | none => s.quarantined j t).withQueue s.pending) = _
  rw [hc]

end TimedOut

/-- YARDER_TIMEOUT with nothing in flight, or in time (R112). -/
theorem exec_yarderTimeout_inTime
    (h : (s.tag j t).busy = false ∨ s.time ≤ (s.tag j t).issued + s.fget TILE_YARD_CTL.TIMEOUT_US j 0 * 1000) :
    exec (.yarderTimeout j t) s = .next s := by
  change execYarderTimeout j t s = _
  rcases h with h | h <;> simp [execYarderTimeout, hj, ht, h, ok_true, State.withQueue_self]

/-- TAG_QUARANTINE_END once the quarantine has passed: the tag is free, and the tile issues what it can (R112). -/
theorem exec_tagQuarantineEnd_over (hq : (s.tag j t).quarantine = true) (hf : (s.tag j t).freeAt ≤ s.time) :
    exec (.tagQuarantineEnd j t) s =
      .next (((s.onTag j t (fun x => { x with quarantine := false })).issueAll j).withQueue s.pending) := by
  change execTagQuarantineEnd j t s = _
  simp [execTagQuarantineEnd, hj, ht, hq, hf, ok_true]

/-- TAG_QUARANTINE_END of a tag in no quarantine, or before its end. -/
theorem exec_tagQuarantineEnd_before (h : (s.tag j t).quarantine = false ∨ s.time < (s.tag j t).freeAt) :
    exec (.tagQuarantineEnd j t) s = .next s := by
  change execTagQuarantineEnd j t s = _
  rcases h with h | h
  · simp [execTagQuarantineEnd, hj, ht, h, ok_true, State.withQueue_self]
  · simp [execTagQuarantineEnd, hj, ht, Nat.not_le.mpr h, ok_true, State.withQueue_self]

end Tags

section RunAhead

variable {s : State} {j p addr : Nat} (hj : tileOk j = true) (hp : s.tilePart j = some p) (hi : s.ingressOpen = true)
include hj hp hi

/-- A run-ahead read that the prefetch test does not allow (R186). -/
theorem exec_runAheadRead_notAllowed (h : s.runAheadOk (hubOfTile j) p addr = false) (b : Bool) :
    exec (.runAheadRead j addr b) s = .next s := by
  change execRunAheadRead j addr b s = _
  simp [execRunAheadRead, hj, hp, hi, h, ok_true, State.withQueue_self]

variable (h : s.runAheadOk (hubOfTile j) p addr = true)
include h

/-- A run-ahead read that meets an error is suppressed and counted (R208). -/
theorem exec_runAheadRead_faulty : exec (.runAheadRead j addr true) s = .next ((s.suppress j).withQueue s.pending) := by
  change execRunAheadRead j addr true s = _
  simp [execRunAheadRead, hj, hp, hi, h, ok_true]

/-- A clean run-ahead read is held by a channel that is not in memory mode (R234). -/
theorem exec_runAheadRead_held {k : Nat}
    (hk : s.heldBy ((s.placesOf ⟨.runAhead j, hubOfTile j, p, addr - addr % 4096, 4096, 0, s.time⟩).getD []) = some k) :
    exec (.runAheadRead j addr false) s = .next (s.holdAt k
      { rq := ⟨.runAhead j, hubOfTile j, p, addr - addr % 4096, 4096, 0, s.time⟩, write := false, since := s.time, data := []
        poisoned := false }) := by
  change execRunAheadRead j addr false s = _
  simp [execRunAheadRead, hj, hp, hi, h, hk, ok_true, State.withQueue_self, State.holdAt]

/-- A clean run-ahead read that no channel holds is served (R207). -/
theorem exec_runAheadRead_served
    (hk : s.heldBy ((s.placesOf ⟨.runAhead j, hubOfTile j, p, addr - addr % 4096, 4096, 0, s.time⟩).getD []) = none) :
    exec (.runAheadRead j addr false) s = .next ((s.serveRead ⟨.runAhead j, hubOfTile j, p, addr - addr % 4096, 4096, 0, s.time⟩
      ((s.placesOf ⟨.runAhead j, hubOfTile j, p, addr - addr % 4096, 4096, 0, s.time⟩).getD [])).withQueue s.pending) := by
  change execRunAheadRead j addr false s = _
  simp [execRunAheadRead, hj, hp, hi, h, hk, ok_true]

end RunAhead

/-- Settles O33: semaphores by whether the count is reached, tags by what is in flight and for how long. -/
theorem waitsSignalsAndTagsSettle : Obligations.WaitsSignalsAndTagsSettle := by
  unfold Obligations.WaitsSignalsAndTagsSettle
  refine ⟨fun s j th c hj => ⟨fun hc hb => ?signal, fun hc hb => ?wait, fun hw hb => exec_waitSatisfied_bad hj hw hb,
      fun hw hb => ⟨exec_wait_met hj hw hb, fun hm => ⟨exec_waitSatisfied_short hj hw hb hm,
        exec_waitLimit_passed hj hw hb hm, exec_waitLimit_before hj hw hb⟩⟩⟩,
    fun s j t ht hj => ⟨fun gen => exec_yarderCompletion_late ht hj, exec_yarderCompletion_held ht hj,
      fun hb hh => ⟨exec_yarderCompletion_orphan ht hj hb hh, fun c ho hc =>
        ⟨exec_yarderCompletion_refused ht hj hb hh ho hc, exec_yarderCompletion_good ht hj hb hh ho hc⟩⟩,
      fun hb hl => ⟨exec_yarderTimeout_orphan ht hj hb hl, fun c => exec_yarderTimeout_fails ht hj hb hl⟩,
      exec_yarderTimeout_inTime ht hj, exec_tagQuarantineEnd_over ht hj, exec_tagQuarantineEnd_before ht hj,
      fun p addr hp hi => ⟨exec_runAheadRead_notAllowed hj hp hi, fun h => ⟨?faulty, fun k => exec_runAheadRead_held hj hp hi h,
        exec_runAheadRead_served hj hp hi h⟩⟩⟩⟩
  case signal =>
    obtain ⟨hsem, hother, hmem, hthrs⟩ := s.semAdd_spec c (c.f 8 1) (c.f 14 2) (c.f 16 4)
    exact ⟨_, exec_signalOp_good hj hc hb, hsem, hother, hmem, hthrs, State.semAdd_saturates,
      State.semAdd_regs_of_le⟩
  case wait =>
    rw [exec_waitOp_good hj hc hb]
    obtain ⟨rfl, rfl⟩ := State.startOf_place hc
    refine ⟨fun h => ?met, fun h => ?short⟩
    case met => rw [State.waitMet, Ctx.target, decide_eq_true h, if_pos rfl]
    case short => rw [State.waitMet, Ctx.target, decide_eq_false (Nat.not_le.mpr h), if_neg Bool.false_ne_true]
  case faulty => exact ⟨_, exec_runAheadRead_faulty hj hp hi h, rfl, by simp [State.suppress], by simp [State.suppress]⟩

end Sys2Proof.Machine
end

section
/-!
SUPPORT. How the attention operators ask for their pages (R135, R158, R159), and how those on the tile path write their
results (R127 to R131, R141).
-/

namespace Sys2Proof.Machine

section ReadPages

variable (s s0 : State) (c : Ctx) (l si : Nat) (thapel : Bool) (steps : List Step)

/-- An operator whose page list holds a dropped entry meets fault 0x07 (R135). -/
theorem State.readPages_none : s.readPages s0 c l [(si, thapel, none, steps)] = s.opFault c 0x07 := by
  simp [State.readPages]

variable {s} {pages : List APage}

/-- An operator one of whose pages lacks meets fault 0x07 (R158). -/
theorem State.readPages_gone (h : ∃ a ∈ pages, s.pageGone a.page = true) :
    s.readPages s0 c l [(si, thapel, some pages, steps)] = s.opFault c 0x07 := by
  rw [State.readPages, if_pos]
  simpa using h

variable (h : ∀ a ∈ pages, s.pageGone a.page = false)
include h

/-- While a pin is held, an operator with its pages present waits (R158). -/
theorem State.readPages_held (hp : s.pinAll (pages.map APage.page) = none) :
    s.readPages s0 c l [(si, thapel, some pages, steps)] = s0.waitUnit c := by
  rw [State.readPages, if_neg (by simpa using h)]
  simp [hp]

/-- The steps of a session's pages as they join the waiting ones, each with its tag. -/
def State.tagged (u : State) (steps : List Step) : List Step :=
  steps.mapIdx (fun i x => { x with tag := (u.stepNo + i) % 65536 })

/-- The state in which an operator of one session has its pins, and its steps wait. -/
def State.pinned (u : State) (c : Ctx) (si : Nat) (pages : List APage) (steps : List Step) : State :=
  ((u.withThapWait (u.thapWait ++ u.tagged steps)).withStepNo (u.stepNo + steps.length)).withAttn
    (Tbl.put [] u.attn (thrKey c.tile c.level c.thread)
      [⟨si, pages.map APage.page, ((u.tagged steps).filter (fun y => y.sess == si)).map Step.tag, []⟩])

/-- With its pages pinned, an operator's steps wait, and it asks the yarder for the pages that the tile reads (R135). -/
theorem State.readPages_pinned {u : State} (hp : s.pinAll (pages.map APage.page) = some u) :
    s.readPages s0 c l [(si, thapel, some pages, steps)] = ((u.pinned c si pages steps).request c
      (if thapel then [] else pages.flatMap (fun a => s.pageReqs c.part l a.page))).yarderEnd c := by
  rw [State.readPages, if_neg (by simpa using h)]
  simp [hp, State.pinned, State.tagged]

omit h in
/-- With no steps, pinning adds the operator's part alone. -/
theorem State.pinned_nil (u : State) : u.pinned c si pages [] = u.withAttn
    (Tbl.put [] u.attn (thrKey c.tile c.level c.thread) [⟨si, pages.map APage.page, [], []⟩]) := by
  simp only [State.pinned, State.tagged, List.mapIdx_nil, List.append_nil, List.length_nil, Nat.add_zero]
  rfl

end ReadPages

section PageReaders

variable {s : State} {c : Ctx} {j th : Nat} {cmd : Instr} {op : Nat}

/-- ATTEND_PREFILL and ATTEND_BWD with their pages not asked for yet ask for the session's (R105, R158). -/
theorem exec_seqOp_asks (hj : threadOk j th = true)
    (hcmd : cmd = .attendPrefill j ⟨th, false⟩ ∧ op = 0x03 ∨ cmd = .attendBwd j ⟨th, false⟩ ∧ op = 0x05)
    (hc : s.startOf op j th = some c) (hk : Tbl.get [] s.attn (thrKey c.tile c.level c.thread) = []) :
    exec cmd s = .next (((s.readPages s c (c.layerKv 12) [(0, false, s.seqPages c, [])]).issued j th).withQueue s.pending) := by
  have asks (k : State) : s.seqOp c k = s.readPages s c (c.layerKv 12) [(0, false, s.seqPages c, [])] := if_pos hk
  rcases hcmd with ⟨rfl, rfl⟩ | ⟨rfl, rfl⟩
  · rw [← asks (s.prefillEnd c)]
    exact ok_startVec_runs hj hc _
  · rw [← asks (s.bwdEnd c)]
    exact ok_startVec_runs hj hc _

/-- With their pages asked for and their arrays free, what follows is their end (R105). -/
theorem State.seqOp_runs (hk : Tbl.get [] s.attn (thrKey c.tile c.level c.thread) ≠ [])
    (hfree : (s.tile c.tile).want = none ∧ s.servedFirst c = false ∧ s.arraysFree c = true) (k : State) :
    s.seqOp c k = k := by
  obtain ⟨hwant, hserved, harrays⟩ := hfree
  exact (if_neg hk).trans (State.withArrays_free s c k hwant harrays hserved)

/-- Pages with good seals let their reader go on (R135, R151). -/
theorem State.withPages_sealed {l : Nat} {ps : List (Nat × APage)} (h : ∀ x ∈ ps, s.sealOk c.part l x.2.page = true)
    (k : State) : s.withPages c l ps k = k := by
  have good : ps.find? (fun x => !s.sealOk c.part l x.2.page) = none := by simpa [List.find?_eq_none] using h
  simp [State.withPages, good]

variable {q : Slot} (hq : s.ctxSlot c 8 = some q)
  (hs : ∀ x ∈ s.seqHandled c, s.sealOk c.part (c.layerKv 12) x.2.page = true)
include hq hs

/-- ATTEND_PREFILL with good seals reads its rows and writes their merged records (R127, R130, R131). -/
theorem State.prefillEnd_sealed :
    let e := s.execOf c.part c.slot
    let r := e.resv.getD (c.f 29 1) {}
    let l := c.layerKv 12
    let n := c.f 20 4
    let rows := s.prefillRows c e r n 11
    let pend := (r.segs.zip (s.rowPositions c.part r r.segs)).map (fun x => RowEnt.mk 0 x.2 x.1)
    let qs := (List.range n).map (s.slotRow c.tile q)
    let pages := (s.seqPages c).getD []
    let res := s.partRecords c l r false rows pend qs pages
    s.prefillEnd c = (s.attnDrop c.tile c.level c.thread).vecEnd c
      (q.spans c.tile (List.range n) ++ ((s.ctxSlot c 11).map (fun g => g.allSpans c.tile)).getD [])
      (fun t => (((t.recNan c res.2).putAttn c 1 0 res.1).1, ((t.recNan c res.2).putAttn c 1 0 res.1).2.join
        { nanLogit := res.2, special := res.2, accOvf := s.partOvf c l r false rows pend qs pages })) := by
  intro e r l n rows pend qs pages res
  simp only [State.prefillEnd, hq]
  exact State.withPages_sealed hs _

/-- ATTEND_BWD with good seals reads its rows and writes dQ, dK and dV where it names an output (R141). -/
theorem State.bwdEnd_sealed {qs st : Slot} (hqs : s.ctxSlot c 9 = some qs) (hst : s.ctxSlot c 10 = some st) :
    let rs := List.range (c.f 20 4)
    let g := s.bwdGrads c q qs st
    let put (u : State × NumEv) (off : Nat) (rows : List (List Nat)) : State × NumEv := match s.ctxSlot c off with
      | some o => ((u.1.putRows c.tile o 0 rows).1, u.2.join (u.1.putRows c.tile o 0 rows).2)
      | none => u
    s.bwdEnd c = (s.attnDrop c.tile c.level c.thread).vecEnd c
      (q.spans c.tile rs ++ qs.spans c.tile rs ++ st.spans c.tile rs ++
        ((s.ctxSlot c 33).map (fun g => g.allSpans c.tile)).getD [])
      (fun t => put (put (put (t, { accOvf := g.2.2.2 }) 11 g.1) 31 g.2.1) 32 g.2.2.1) := by
  intro rs g put
  simp only [State.bwdEnd, hq, hqs, hst]
  exact State.withPages_sealed hs _

end PageReaders

section DecodeFinish

/-- The end of ATTEND_DECODE of one session: its pins go, its reads are made, and its records are written. -/
def State.decodeWrite (s : State) (c : Ctx) (q : Slot) (res : List (List ARec) × Bool) (ovf : Bool) : State :=
  (s.attnDrop c.tile c.level c.thread).vecEnd c (s.decodeReads c q) (fun t =>
    (((t.recNan c res.2).putAttn c c.splitF.2 0 res.1).1, ((t.recNan c res.2).putAttn c c.splitF.2 0 res.1).2.join
      { nanLogit := res.2, special := res.2, accOvf := ovf }))

variable {s : State} {c : Ctx} {q : Slot} {l : Nat} (h1 : c.f 21 1 = 1)
include h1

/-- ATTEND_DECODE of one session on the tile path, its seals good, writes its records (R127, R130). -/
theorem State.decodeFinish_tile {f : Nat → Option (List (List ARec))} (hf : f 0 = none)
    (hs : ∀ x ∈ ((s.decodePages c l 0).getD []).map
      (fun a => (s.handleOf c.part ((s.execOf c.part c.slot).resv.getD 0 {}).slot, a)), s.sealOk c.part l x.2.page = true) :
    s.decodeFinish c l q f = s.decodeWrite c q (s.decodeTile c l q 0) (s.decodeOvf c l q 0) := by
  have mine : (List.range 1).filter (fun si => (f si).isNone) = [0] := by simp [List.range_one, hf]
  simp only [State.decodeFinish, h1, mine]
  rw [State.withPages_sealed (by simpa using hs)]
  simp [State.decodeWrite, List.range_one, hf]

/-- ATTEND_DECODE of one session on the Thapel path writes its merged results (R130, R135). -/
theorem State.decodeFinish_thapel {f : Nat → Option (List (List ARec))} {rs : List (List ARec)} (hf : f 0 = some rs) :
    s.decodeFinish c l q f = s.decodeWrite c q (rs, rs.any (fun l => l.any (fun x => isNan32 x.m))) false := by
  have mine : (List.range 1).filter (fun si => (f si).isNone) = [] := by simp [List.range_one, hf]
  simp only [State.decodeFinish, h1, mine]
  rw [State.withPages_sealed (by simp)]
  simp [State.decodeWrite, List.range_one, hf]

variable {a : AttnPart} (hq : s.ctxSlot c 8 = some q)
  (hop : c.opcode = 0x04) (hst : (s.thr c.tile c.level c.thread).st = .steps)
  (ha : Tbl.get [] s.attn (thrKey c.tile c.level c.thread) = [a]) (h0 : a.sess = 0) (hg : a.steps.length ≤ a.got.length)
include hq hop hst ha h0 hg

/-- The records of ATTEND_DECODE of one session: the tile path's, or the merged results of its page steps (R130). -/
def State.decodeRecords (s : State) (c : Ctx) (q : Slot) (a : AttnPart) : List (List ARec) × Bool :=
  if a.steps = [] then s.decodeTile c (c.layerKv 12) q 0
  else (a.merged (c.f 20 1) (c.f 16 1) c.kvHeads c.groupF c.dimF,
    (a.merged (c.f 20 1) (c.f 16 1) c.kvHeads c.groupF c.dimF).any (fun l => l.any (fun x => isNan32 x.m)))

/-- ATTEND_DECODE of one session whose pages have come and whose results have all been delivered, its seals good where the
tile read the pages, writes its records (R135). -/
theorem State.attnEnd_decode (hs : a.steps = [] → ∀ x ∈ ((s.decodePages c (c.layerKv 12) 0).getD []).map
    (fun a => (s.handleOf c.part ((s.execOf c.part c.slot).resv.getD 0 {}).slot, a)),
      s.sealOk c.part (c.layerKv 12) x.2.page = true) :
    s.attnEnd c = s.decodeWrite c q (s.decodeRecords c q a) (a.steps == [] && s.decodeOvf c (c.layerKv 12) q 0) := by
  rw [State.attnEnd, if_neg (by simp [hst, ha, hg]), hop, if_neg (by decide), if_neg (by decide), State.decodeEnd]
  simp only [ha, hq, State.decodeRecords]
  by_cases hn : a.steps = []
  · rw [if_pos hn, State.decodeFinish_tile h1 (by simp [hn]) (hs hn), hn]
    rfl
  · rw [if_neg hn, State.decodeFinish_thapel h1 (by simp [hn, h0]; rfl), beq_eq_false_iff_ne.mpr hn, Bool.false_and]

end DecodeFinish

section DecodeStart

variable {s : State} {c : Ctx} {q : Slot} {pages : List APage} (hq : s.ctxSlot c 8 = some q) (h1 : c.f 21 1 = 1)
  (hp : s.decodePages c (c.layerKv 12) 0 = some pages)

/-- The sessions of an ATTEND_DECODE counted by path: `t` of the Thapel path, `n` of the tile's. -/
def State.countPaths (s : State) (c : Ctx) (t n : Nat) : State :=
  (s.fcountN ATTN_COUNT.THAPEL_PARTS c.tile 0 t).fcountN ATTN_COUNT.TILE_PARTS c.tile 0 n

/-- The page steps of the operator's one session (R223, R225). -/
def State.decodeSteps (s : State) (c : Ctx) (q : Slot) (pages : List APage) : List Step :=
  let e := s.execOf c.part c.slot
  let r := e.resv.getD 0 {}
  (pages.mapIdx (fun i a => s.stepsOf c (c.layerKv 12) r q 0 i (s.decodeRows c e r 0 (c.f 20 1)) a)).flatten

include hq h1 hp

/-- ATTEND_DECODE of one session on the tile path counts it and asks for its pages (R134). -/
theorem State.decodeOp_tile (ht : s.onThapel c (c.layerKv 12) ((s.execOf c.part c.slot).resv.getD 0 {}) = false) :
    s.decodeOp c = (s.countPaths c 0 1).readPages s c (c.layerKv 12) [(0, false, some pages, [])] := by
  simp [-List.getD_eq_getElem?_getD, State.decodeOp, hq, h1, hp, List.range_one, ht, State.flagIf, State.countPaths]

/-- ATTEND_DECODE of one session on the Thapel path, which its layer admits, counts it and makes its page steps (R134). -/
theorem State.decodeOp_thapel (ht : s.onThapel c (c.layerKv 12) ((s.execOf c.part c.slot).resv.getD 0 {}) = true)
    (hn : s.thin c (c.layerKv 12) ((s.execOf c.part c.slot).resv.getD 0 {}) = true) :
    s.decodeOp c = (s.countPaths c 1 0).readPages s c (c.layerKv 12) [(0, true, some pages, s.decodeSteps c q pages)] := by
  simp [-List.getD_eq_getElem?_getD, State.decodeOp, hq, h1, hp, List.range_one, ht, hn, State.flagIf, State.countPaths,
    State.decodeSteps]

end DecodeStart

end Sys2Proof.Machine
end

section
/-!
SUPPORT. While the tile issues requests of its threads (R111), a thread that has none of them keeps its record, its parts
and its waiting page steps.
-/

namespace Sys2Proof.Machine

/-- Between two states a thread's record, its attention parts, its waiting page steps and the steps' next number are the
same. -/
structure ThreadKept (j l th : Nat) (s t : State) : Prop where
  record : t.thr j l th = s.thr j l th
  parts : Tbl.get [] t.attn (thrKey j l th) = Tbl.get [] s.attn (thrKey j l th)
  waits : ∀ x ∈ s.thapWait, x.ofThr j l th = true → x ∈ t.thapWait
  number : t.stepNo = s.stepNo

section ThreadKept

variable {j l th : Nat} {s t u : State}

/-- Nothing done keeps the thread. -/
theorem ThreadKept.refl : ThreadKept j l th s s := ⟨rfl, rfl, fun _ hx _ => hx, rfl⟩

/-- What writes no thread's record and nothing of the page steps keeps the thread. -/
theorem ThreadKept.frame (h : ThreadKept j l th s t) (hr : u.thrs = t.thrs) (ha : u.attn = t.attn)
    (hw : u.thapWait = t.thapWait) (hn : u.stepNo = t.stepNo) : ThreadKept j l th s u :=
  ⟨(State.thr_congr t hr ..).trans h.record, ha ▸ h.parts, hw ▸ h.waits, hn.trans h.number⟩

/-- What writes neither of the two areas keeps the thread. -/
theorem ThreadKept.within (h : ThreadKept j l th s t) (hT : Area.same t u .tiles) (hS : Area.same t u .thapel) :
    ThreadKept j l th s u := by
  obtain ⟨-, -, hthrs, -⟩ := hT
  obtain ⟨-, hwait, hattn, hno⟩ := hS
  exact h.frame hthrs.symm hattn.symm hwait.symm hno.symm

/-- A changed instance keeps the thread. -/
theorem ThreadKept.onInst (h : ThreadKept j l th s t) (p n : Nat) (f : Inst → Inst) :
    ThreadKept j l th s (t.onInst p n f) :=
  h.frame (by simp) (by simp) (by simp) (by simp)

/-- Other channels keep the thread. -/
theorem ThreadKept.withChans (h : ThreadKept j l th s t) (v : Tbl Chan) : ThreadKept j l th s (t.withChans v) :=
  h.frame rfl rfl rfl rfl

/-- Another tag keeps the thread. -/
theorem ThreadKept.onTag (h : ThreadKept j l th s t) (i g : Nat) (f : Tag → Tag) : ThreadKept j l th s (t.onTag i g f) :=
  h.frame rfl rfl rfl rfl

/-- A request served for its tag keeps the thread (R112). -/
theorem ThreadKept.yServeTag (h : ThreadKept j l th s t) (i g : Nat) (gen : Bool) (p : Nat) (q : YReq) :
    ThreadKept j l th s (t.yServeTag i g gen p q) := by
  have kept := State.yServe_keeps (within_opened _ t) t p g q (.refl _ t)
  exact (h.within (kept .tiles (by decide)) (kept .thapel (by decide))).frame rfl rfl rfl rfl

/-- A request that takes a tag keeps the thread (R111). -/
theorem ThreadKept.issueTag (h : ThreadKept j l th s t) (c : Ctx) (g : Nat) (q : YReq) (level : Nat) :
    ThreadKept j l th s (t.issueTag c g q level) := by
  have tagged := h.onTag c.tile g
  unfold State.issueTag
  dsimp only
  split
  · exact (tagged _).withChans _
  · split
    · exact (tagged _).withChans _
    · exact (tagged _).yServeTag ..
  · exact (tagged _).yServeTag ..

variable {k m : Nat} (hk : thrKey j m k ≠ thrKey j l th)
include hk

/-- Changing another thread keeps the thread. -/
theorem ThreadKept.onThr (h : ThreadKept j l th s t) (f : Thr → Thr) : ThreadKept j l th s (t.onThr j m k f) := by
  refine ⟨?_, by simpa using h.parts, by simpa using h.waits, by simpa using h.number⟩
  rw [← h.record]
  simp [State.thr, Tbl.upd, Tbl.get_put_ne _ hk.symm]

/-- Another thread's parts and waiting steps gone keep the thread. -/
theorem ThreadKept.dropParts (h : ThreadKept j l th s t) (ho : ¬(m = l ∧ k = th)) :
    ThreadKept j l th s ((t.withAttn (Tbl.put [] t.attn (thrKey j m k) [])).withThapWait
      (t.thapWait.filter (fun x => !x.ofThr j m k))) := by
  have others : Tbl.get [] (Tbl.put [] t.attn (thrKey j m k) []) (thrKey j l th) = Tbl.get [] t.attn (thrKey j l th) :=
    Tbl.get_put_ne _ hk.symm
  refine ⟨h.record, others.trans h.parts, fun x hx hx' => ?_, h.number⟩
  refine List.mem_filter.mpr ⟨h.waits x hx hx', ?_⟩
  simp only [Step.ofThr, Bool.and_eq_true, beq_iff_eq] at hx'
  obtain ⟨⟨⟨-, -⟩, hlevel⟩, hthread⟩ := hx'
  have other : (l == m && th == k) = false := by
    simpa using fun hm hk => ho ⟨hm.symm, hk.symm⟩
  simp only [Step.ofThr, hlevel, hthread, Bool.and_assoc, other, Bool.and_false, Bool.not_false]

/-- What goes with another thread's parts keeps the thread (R158). -/
theorem ThreadKept.attnDrop (h : ThreadKept j l th s t) (ho : ¬(m = l ∧ k = th)) :
    ThreadKept j l th s (t.attnDrop j m k) := by
  have unpinned (pgs : List Nat) : ThreadKept j l th s (pgs.foldl State.unpin t) :=
    keeps_foldl (fun v pg hv =>
      have kept := State.unpin_keeps (within_opened _ v) v pg (.refl _ v)
      hv.within (kept .tiles (by decide)) (kept .thapel (by decide))) h
  exact ((unpinned _).dropParts hk ho).withChans _

variable {c : Ctx} (hj : c.tile = j) (hl : c.level = m) (ht : c.thread = k)
include hj hl ht

/-- A fault of another thread's operator keeps the thread. -/
theorem ThreadKept.opFault (h : ThreadKept j l th s t) (cause : Nat) : ThreadKept j l th s (t.opFault c cause) := by
  subst hj hl ht
  have orphaned (v : State) (hv : ThreadKept c.tile l th s v) (f : Thr → Thr) :
      ThreadKept c.tile l th s ((v.orphanTags c.tile c.level c.thread).onThr c.tile c.level c.thread f) :=
    ThreadKept.onThr hk (hv.frame (by simp [State.orphanTags]) (by simp [State.orphanTags]) (by simp [State.orphanTags])
      (by simp [State.orphanTags])) f
  unfold State.opFault
  split
  · exact orphaned t h _
  · exact (orphaned _ (h.frame (by simp) (by simp) (by simp) (by simp)) _).onInst ..

/-- A fault of another thread's operator at its accesses keeps the thread. -/
theorem ThreadKept.failIo (h : ThreadKept j l th s t) (ho : ¬(m = l ∧ k = th)) (cause : Nat) :
    ThreadKept j l th s (t.failIo c cause) := by
  have dropped := h.attnDrop hk ho
  subst hj hl ht
  exact dropped.opFault hk rfl rfl rfl cause

/-- A request of another thread issued, waiting or refused keeps the thread (R111). -/
theorem ThreadKept.issueOne (h : ThreadKept j l th s t) (ho : ¬(m = l ∧ k = th)) :
    ThreadKept j l th s (t.issueOne c).1 := by
  have released {v : State} {n tile part op place len : Nat} (e : t.yardRelease tile part op place len = some (v, n)) :
      ThreadKept j l th s v := by
    have kept := State.yardRelease_keeps (within_opened _ t) (.refl _ t) e
    exact h.within (kept .tiles (by decide)) (kept .thapel (by decide))
  have gated {v w : State} {q : YReq} (hv : ThreadKept j l th s v) (e : v.gate c q = .refused w) :
      ThreadKept j l th s w := by
    have kept := State.gate_keeps (within_opened _ v) (.refl _ v) e
    exact hv.within (kept .tiles (by decide)) (kept .thapel (by decide))
  have changed {v : State} (hv : ThreadKept j l th s v) (f : Thr → Thr) :
      ThreadKept j l th s (v.onThr c.tile c.level c.thread f) := by
    subst hj hl ht
    exact hv.onThr hk f
  unfold State.issueOne
  dsimp only
  split
  · split
    · exact h
    · split
      · exact h
      · exact changed h _
      · rename_i e
        split
        · exact (gated (released e) (by assumption)).failIo hk hj hl ht ho 0x05
        · exact h
      · rename_i e
        exact changed ((released e).issueTag ..) _
  · exact h

/-- The requests of another thread issued keep the thread. -/
theorem ThreadKept.issueThread (n : Nat) (h : ThreadKept j l th s t) (ho : ¬(m = l ∧ k = th)) :
    ThreadKept j l th s (State.issueThread n t c) := by
  induction n generalizing t with
  | zero => exact h
  | succ n ih =>
    unfold State.issueThread
    dsimp only
    split
    · exact ih (h.issueOne hk hj hl ht ho)
    · exact h.issueOne hk hj hl ht ho

omit hk hj hl ht in
/-- While the tile issues what it can, a thread without requests is kept (R111). -/
theorem ThreadKept.issueAll (h : ThreadKept j l th s t) (hth : th < 16) (hn : (s.thr j l th).reqs = []) :
    ThreadKept j l th s (t.issueAll j) := by
  unfold State.issueAll
  split
  · exact h
  · refine List.foldlRecOn _ _ h fun v hv i hi => ?_
    have hi16 : i < 16 := List.mem_range.mp hi
    split
    · rename_i d hd
      obtain ⟨htile, hthread⟩ := State.cur_place hd
      by_cases ho : d.level = l ∧ i = th
      · obtain ⟨hlevel, rfl⟩ := ho
        rw [hlevel, hv.record, hn]
        exact hv
      · have hkey : thrKey j d.level i ≠ thrKey j l th := by
          unfold thrKey
          omega
        exact hv.issueThread hkey htile rfl hthread _ ho
    · exact hv

end ThreadKept

end Sys2Proof.Machine
end

section
/-!
SUPPORT. ATTEND_DECODE on the Thapel path: its page steps wait for a queue, and its thread waits for their results (R134,
R135, R223).
-/

namespace Sys2Proof.Machine

/-- The operator that a thread may start has its opcode. -/
theorem State.startOf_opcode {s : State} {c : Ctx} {op j th : Nat} (h : s.startOf op j th = some c) : c.opcode = op := by
  unfold State.startOf at h
  split at h
  · cases h
  · split at h
    · rename_i hif
      obtain rfl := Option.some.inj h
      simp only [Bool.and_eq_true, beq_iff_eq] at hif
      obtain ⟨⟨⟨⟨hop, -⟩, -⟩, -⟩, -⟩ := hif
      exact hop
    · cases h

section Steps

variable {s u : State} {c : Ctx} {q : Slot} {pages : List APage} {steps : List Step}

/-- The page steps of an operator are of its thread and its session 0 (R223). -/
theorem State.decodeSteps_mem {x : Step} (h : x ∈ s.decodeSteps c q pages) :
    x.ofThr c.tile c.level c.thread = true ∧ x.sess = 0 := by
  simp only [State.decodeSteps, List.mem_flatten, List.mem_mapIdx] at h
  obtain ⟨xs, ⟨i, hi, rfl⟩, hx⟩ := h
  simp only [State.stepsOf, List.mem_map] at hx
  obtain ⟨y, -, rfl⟩ := hx
  simp [Step.ofThr]

/-- Pinning pages leaves the page steps as they were (R158). -/
theorem State.pinAll_thapel {pgs : List Nat} (h : s.pinAll pgs = some u) : Area.same s u .thapel :=
  State.pinAll_keeps (within_opened _ s) (.refl _ s) h .thapel (by decide)

variable (hm : ∀ x ∈ steps, x.ofThr c.tile c.level c.thread = true ∧ x.sess = 0) (hn : steps ≠ []) (hth : c.thread < 16)
  (hop : c.opcode = 0x04)
include hm

/-- Giving steps their tags leaves whose they are. -/
theorem State.tagged_own : ∀ x ∈ u.tagged steps, x.ofThr c.tile c.level c.thread = true ∧ x.sess = 0 := by
  simp only [State.tagged, List.mem_mapIdx]
  rintro _ ⟨i, hi, rfl⟩
  exact hm steps[i] (List.getElem_mem hi)

/-- The steps of a session are all of them where it is the only one. -/
theorem State.tagged_sess : (u.tagged steps).filter (fun y => y.sess == 0) = u.tagged steps :=
  List.filter_eq_self.mpr fun x hx => beq_iff_eq.mpr (State.tagged_own hm x hx).2

include hn hth hop

/-- An operator whose steps wait, and that asks the yarder for nothing, waits for the steps' results (R135). -/
theorem State.pinned_waits :
    let t := ((u.pinned c 0 pages steps).request c []).yarderEnd c
    (t.thr c.tile c.level c.thread).st = .steps ∧ (∀ x ∈ u.tagged steps, x ∈ t.thapWait) ∧
      t.stepNo = u.stepNo + steps.length := by
  obtain ⟨v, hv⟩ : ∃ v, (u.pinned c 0 pages steps).onThr c.tile c.level c.thread
      (fun h => { h with st := .yarder, reqs := [], outst := 0 }) = v := ⟨_, rfl⟩
  have hrec : v.thr c.tile c.level c.thread =
    { (u.pinned c 0 pages steps).thr c.tile c.level c.thread with st := .yarder, reqs := [], outst := 0 } := by simp [← hv]
  have kept : ThreadKept c.tile c.level c.thread v (v.issueAll c.tile) := ThreadKept.refl.issueAll hth (by rw [hrec])
  have waiting : ((v.issueAll c.tile).thr c.tile c.level c.thread).st = .yarder ∧
      ((v.issueAll c.tile).thr c.tile c.level c.thread).reqs = [] ∧
      ((v.issueAll c.tile).thr c.tile c.level c.thread).outst = 0 := by
    rw [kept.record, hrec]
    exact ⟨rfl, rfl, rfl⟩
  have parts : Tbl.get [] (v.issueAll c.tile).attn (thrKey c.tile c.level c.thread) =
      [⟨0, pages.map APage.page, (u.tagged steps).map Step.tag, []⟩] := by
    rw [kept.parts, ← hv]
    simp [State.pinned, State.tagged_sess hm]
  have short : (0 : Nat) < (u.tagged steps).length := by
    simpa [State.tagged, List.length_pos_iff] using hn
  have ends : ((u.pinned c 0 pages steps).request c []).yarderEnd c =
      (v.issueAll c.tile).onThr c.tile c.level c.thread (fun h => { h with st := .steps }) := by
    rw [State.request, hv, State.yarderEnd, if_pos waiting, State.afterIo]
    simp only [hop, State.attnEnd]
    simp [parts, short]
  rw [ends]
  refine ⟨by simp, fun x hx => ?_, ?_⟩
  · obtain ⟨hown, -⟩ := State.tagged_own hm x hx
    simpa using kept.waits x (by simp [← hv, State.pinned, hx]) hown
  · have number := kept.number
    simpa [← hv, State.pinned] using number

end Steps

section DecodeCommands

variable {s : State} {c : Ctx} {q : Slot} {j th : Nat} {pages : List APage} (hj : threadOk j th = true)
  (hc : s.startOf 0x04 j th = some c) (hq : s.ctxSlot c 8 = some q) (h1 : c.f 21 1 = 1)
  (hp : s.decodePages c (c.layerKv 12) 0 = some pages)
include hj hc hq h1 hp

/-- ATTEND_DECODE of one session on the tile path counts it and asks the yarder for its pages (R134, R135). -/
theorem exec_attendDecode_tile (ht : s.onThapel c (c.layerKv 12) ((s.execOf c.part c.slot).resv.getD 0 {}) = false)
    (h : ∀ a ∈ pages, (s.countPaths c 0 1).pageGone a.page = false) {u : State}
    (hu : (s.countPaths c 0 1).pinAll (pages.map APage.page) = some u) :
    exec (.attendDecode j ⟨th, false⟩) s = .next (((((u.withAttn (Tbl.put [] u.attn (thrKey c.tile c.level c.thread)
      [⟨0, pages.map APage.page, [], []⟩])).request c (pages.flatMap (fun a =>
        (s.countPaths c 0 1).pageReqs c.part (c.layerKv 12) a.page))).yarderEnd c).issued j th).withQueue s.pending) := by
  have runs := State.decodeOp_tile hq h1 hp ht
  rw [State.readPages_pinned _ _ _ _ _ _ h hu, State.pinned_nil, if_neg Bool.false_ne_true] at runs
  exact runs ▸ ok_startVec_runs hj hc s.decodeOp

/-- ATTEND_DECODE of one session on the Thapel path counts it, and waits for the results of its steps (R134, R135). -/
theorem exec_attendDecode_thapel (ht : s.onThapel c (c.layerKv 12) ((s.execOf c.part c.slot).resv.getD 0 {}) = true)
    (hn : s.thin c (c.layerKv 12) ((s.execOf c.part c.slot).resv.getD 0 {}) = true) (hs : s.decodeSteps c q pages ≠ [])
    (h : ∀ a ∈ pages, (s.countPaths c 1 0).pageGone a.page = false) {u : State}
    (hu : (s.countPaths c 1 0).pinAll (pages.map APage.page) = some u) :
    ∃ t, exec (.attendDecode j ⟨th, false⟩) s = .next t ∧ (t.thr j c.level th).st = .steps ∧
      (∀ x ∈ s.tagged (s.decodeSteps c q pages), x ∈ t.thapWait) ∧
      t.stepNo = s.stepNo + (s.decodeSteps c q pages).length := by
  have runs := State.decodeOp_thapel hq h1 hp ht hn
  rw [State.readPages_pinned _ _ _ _ _ _ h hu, if_pos rfl] at runs
  have number : u.stepNo = s.stepNo := by
    obtain ⟨-, -, -, hno⟩ := State.pinAll_thapel hu
    exact hno.symm
  obtain ⟨rfl, rfl⟩ := State.startOf_place hc
  have waits := State.pinned_waits (u := u) (pages := pages) (fun x => State.decodeSteps_mem) hs
    (threadOk_iff.mp hj).2 (State.startOf_opcode hc)
  rw [State.tagged, number, ← runs] at waits
  exact ⟨_, ok_startVec_runs hj hc s.decodeOp, waits⟩

end DecodeCommands

/-- An operator of the vector unit that may start, and that ends on the reads of another state, all clean: it issues, writes
its outputs and ends, or meets fault 0x02 (R88). -/
theorem ok_startVec_ends {s w : State} {c : Ctx} {op j th : Nat} {f : Ctx → State} {reads : List (Nat × Nat)}
    {go : State → State × NumEv} (hj : threadOk j th = true) (hc : s.startOf op j th = some c)
    (hf : f c = w.vecEnd c reads go) (h : w.Clean reads) :
    ∃ u, ok (threadOk j th) s (s.startVec op j th false f) = .next ((u.issued j th).withQueue s.pending) ∧
      (w.opReads c reads).Finished c (go (w.opReads c reads)) u :=
  ⟨f c, ok_startVec_runs hj hc f, State.finished_of_vecEnd h hf⟩

/-- Settles O30: by which operator runs, and whether its pages have been asked for and have come. -/
theorem attentionOperatorsRun : Obligations.AttentionOperatorsRun := by
  unfold Obligations.AttentionOperatorsRun
  intro s j th c q hj hq go e l key w free sealed
  refine ⟨fun cmd op hcmd hc hk => ?asks, ?fails, fun hc hk hf hs => ?prefills, fun qs st hc hk hf hqs hst hs => ?backward,
    fun hc h1 pages hp => ?decodes, fun a hop h1 hst ha h0 hg => ?decoded⟩
  case asks =>
    have asks := exec_seqOp_asks hj hcmd hc hk
    refine ⟨fun pages hp => ?_, fun hp => by rw [asks, hp, State.readPages_none]⟩
    rw [hp] at asks
    refine ⟨fun h => by rw [asks, State.readPages_gone _ _ _ _ _ _ h],
      fun h hu => by rw [asks, State.readPages_held _ _ _ _ _ _ h hu], fun u h hu => ?_⟩
    rw [asks, State.readPages_pinned _ _ _ _ _ _ h hu, State.pinned_nil, if_neg Bool.false_ne_true]
  case fails =>
    rintro cmd op (⟨rfl, rfl⟩ | ⟨rfl, rfl⟩ | ⟨rfl, rfl⟩) hc
    · exact ok_startVec_fails hj hc _
    · exact ok_startVec_fails hj hc _
    · exact ok_startVec_fails hj hc _
  case prefills =>
    exact ok_startVec_ends (f := fun c => s.seqOp c (s.prefillEnd c)) hj hc
      ((State.seqOp_runs hk hf _).trans (State.prefillEnd_sealed hq hs))
  case backward =>
    exact ok_startVec_ends (f := fun c => s.seqOp c (s.bwdEnd c)) hj hc
      ((State.seqOp_runs hk hf _).trans (State.bwdEnd_sealed hq hs hqs hst))
  case decodes =>
    exact ⟨fun ht h u hu => exec_attendDecode_tile hj hc hq h1 hp ht h hu,
      fun ht hn hs h u hu => exec_attendDecode_thapel hj hc hq h1 hp ht hn hs h hu⟩
  case decoded =>
    exact fun hs hw => State.finished_of_vecEnd hw (State.attnEnd_decode h1 hq hop hst ha h0 hg hs)

end Sys2Proof.Machine
end

section
/-!
SUPPORT. The work of a hub's engines (records, memory, pages) leaves the registers that say which partition a tower belongs
to, and the event registers of the tiles' sequencers.
-/

namespace Sys2Proof.Machine

section Addresses

/-- The registers of PART_TOWER_MAP and PART_TOWER_EN (Table 13.5). -/
def towerRegister (a : Nat) : Prop := 0x8028 ≤ a ∧ a < 0x8034

/-- Those registers, and TILE_SEQ_EVENT of each tile (Table 4.12). -/
def engineSpares (a : Nat) : Prop := towerRegister a ∨ 0x200000 ≤ a ∧ a < 0x240000 ∧ a % 0x1000 = 0x20c

/-- The two states read alike in the registers of some addresses. -/
structure State.Alike (A : Nat → Prop) (s t : State) : Prop where
  reads : ∀ (g : Field) (u i sh : Nat), A ((g.key u i + sh) / 64) → t.fgetAt g u i sh = s.fgetAt g u i sh

/-- The field is in none of the spared registers, whichever unit is taken. -/
def Field.engine (f : Field) : Bool :=
  decide (f.lo < 64) && ((f.blk == .hub || f.blk == .tile) && f.stride == 0 && f.off % 0x1000 != 0x20c ||
    f.blk == .prot && f.stride == 0 && decide (f.off < 0x28) || f.blk == .vfq || f.blk == .deck)

/-- A field behind another in its register has that register's address. -/
theorem Field.key_div {f : Field} {sh : Nat} (hl : f.lo + sh < 64) (u i : Nat) : (f.key u i + sh) / 64 = f.addr u i := by
  simp only [Field.key]
  omega

/-- What is in none of the spared registers lies apart from them. -/
theorem Field.engine_addr {f : Field} (hf : f.engine = true) (u i : Nat) : ¬ engineSpares (f.addr u i) := by
  simp only [Field.engine, Bool.or_eq_true, Bool.and_eq_true, beq_iff_eq, bne_iff_ne, decide_eq_true_eq] at hf
  simp only [engineSpares, towerRegister, Field.addr]
  rcases hf with ⟨-, ((⟨⟨hb | hb, hs⟩, ho⟩ | ⟨⟨hb, hs⟩, ho⟩) | hb) | hb⟩
  all_goals simp only [hb, blkBase]
  · rw [hs]; omega
  · rw [hs]; omega
  · rw [hs]; omega
  · omega
  · omega

end Addresses

section Alike

variable {A : Nat → Prop} {s t u : State}

/-- A state reads like itself. -/
theorem State.Alike.refl : State.Alike A s s := ⟨fun _ _ _ _ _ => rfl⟩

/-- Reading alike is transitive. -/
theorem State.Alike.trans (h : State.Alike A s t) (k : State.Alike A t u) : State.Alike A s u :=
  ⟨fun g x i sh ha => (k.reads g x i sh ha).trans (h.reads g x i sh ha)⟩

/-- Equal register files read alike. -/
theorem State.Alike.quiet (h : State.Alike A s t) (hr : u.regs = t.regs) : State.Alike A s u :=
  ⟨fun g x i sh ha => (State.fgetAt_congr hr g x i sh).trans (h.reads g x i sh ha)⟩

/-- A field apart from the addresses is written. -/
theorem State.Alike.write (h : State.Alike A s t) {f : Field} {sh : Nat} (hl : f.lo + sh < 64) {x i : Nat}
    (ha : ¬ A (f.addr x i)) (v : Nat) : State.Alike A s (t.fsetAt f x i sh v) := by
  refine ⟨fun g y k n hg => (State.fgetAt_fsetAt_ne _ fun e => ha ?_).trans (h.reads g y k n hg)⟩
  rwa [e, Field.key_div hl] at hg

/-- A field at one of the addresses reads the same. -/
theorem State.Alike.fget (h : State.Alike A s t) {f : Field} (hl : f.lo < 64) {x i : Nat} (ha : A (f.addr x i)) :
    t.fget f x i = s.fget f x i :=
  h.reads f x i 0 (by rwa [Field.key_div hl])

/-- A field apart from the addresses is set. -/
theorem State.Alike.fset (h : State.Alike A s t) {f : Field} (hl : f.lo < 64) {x i : Nat} (ha : ¬ A (f.addr x i)) (v : Nat) :
    State.Alike A s (t.fset f x i v) :=
  h.write (sh := 0) hl ha v

/-- With fewer addresses, states read alike all the more. -/
theorem State.Alike.mono {B : Nat → Prop} (h : State.Alike A s t) (hb : ∀ a, B a → A a) : State.Alike B s t :=
  ⟨fun g x i sh ha => h.reads g x i sh (hb _ ha)⟩

/-- States that read alike in the tower registers have the same home hubs. -/
theorem State.Alike.homeHub (h : State.Alike towerRegister s t) (p : Nat) : t.homeHub p = s.homeHub p := by
  have tower (n : Nat) (hn : n < 16) : t.towerPart n = s.towerPart n := by
    have assigned : t.fget PART_TOWER_EN.ASSIGNED 0 0 = s.fget PART_TOWER_EN.ASSIGNED 0 0 :=
      h.reads PART_TOWER_EN.ASSIGNED 0 0 0 ⟨by decide, by decide⟩
    have owner : t.fgetAt PART_TOWER_MAP.PART0 0 0 (4 * n) = s.fgetAt PART_TOWER_MAP.PART0 0 0 (4 * n) := by
      refine h.reads PART_TOWER_MAP.PART0 0 0 _ ?_
      rw [Field.key_div (by simp only [PART_TOWER_MAP.PART0]; omega)]
      exact ⟨by decide, by decide⟩
    rw [State.towerPart, State.towerPart, State.fbit, State.fbit, assigned, owner]
  have found : (List.range 16).find? (fun n => t.towerPart n == some p) =
      (List.range 16).find? (fun n => s.towerPart n == some p) :=
    List.find?_congr fun n hn => by rw [tower n (List.mem_range.mp hn)]
  rw [State.homeHub, State.homeHub, found]

end Alike

/-- The two states read alike in the registers that the hubs' engines spare. -/
def State.EngineKept (s t : State) : Prop := State.Alike engineSpares s t

namespace State.EngineKept

section Registers

variable {s t : State} (h : s.EngineKept t)
include h

/-- Home hubs stay. -/
theorem homeHub (p : Nat) : t.homeHub p = s.homeHub p := (Alike.mono h fun _ => Or.inl).homeHub p

/-- What writes no register keeps them. -/
theorem quiet {u : State} (hr : u.regs = t.regs) : s.EngineKept u := Alike.quiet h hr

/-- A field packed behind one in no spared register is written. -/
theorem fsetAt {f : Field} (hf : f.engine = true) (u i : Nat) {sh : Nat} (hl : f.lo + sh < 64) (v : Nat) :
    s.EngineKept (t.fsetAt f u i sh v) := Alike.write h hl (Field.engine_addr hf u i) v

/-- A field in no spared register is set. -/
theorem fset {f : Field} (hf : f.engine = true) (u i v : Nat) : s.EngineKept (t.fset f u i v) := by
  have hlo : f.lo < 64 := by
    simp only [Field.engine, Bool.and_eq_true, decide_eq_true_eq] at hf
    exact hf.1
  exact h.fsetAt hf u i (sh := 0) hlo v

/-- Bits of an event field are set, and its vector is raised (R293). -/
theorem evt {f : Field} (hf : f.engine = true) (u i mask : Nat) (p : Option Nat) :
    s.EngineKept (t.evt f u i mask p) := (h.fset hf u i _).quiet (State.evt_regs ..)

/-- A vector is raised (R293). -/
theorem raise2 (fn v : Nat) : s.EngineKept (t.raise2 fn v) := h.quiet (by simp)

/-- A record's severity sets its event bits (Table 10.14). -/
theorem sevEvents (n : Nat) (r : ErrRec) : s.EngineKept (t.sevEvents n r) :=
  keeps_ite (h.evt (by decide) ..) (keeps_ite (h.evt (by decide) ..) h)

/-- A record goes into its hub's queue, or is counted as lost (R273). -/
theorem recordQueue (n : Nat) (r : ErrRec) : s.EngineKept (t.recordQueue n r) := by
  unfold State.recordQueue
  refine keeps_ite (evt (fset h (by decide) ..) (by decide) ..) (evt (fset ?_ (by decide) ..) (by decide) ..)
  exact h.quiet (by simp)

/-- The virtual function gets its copy of a record (R294). -/
theorem vfCopy (n p : Nat) (r : ErrRec) : s.EngineKept (t.vfCopy n p r) := by
  unfold State.vfCopy
  split
  · exact h
  · refine keeps_ite (h.fset (by decide) ..) (raise2 (fset ?_ (by decide) ..) ..)
    exact h.quiet (by simp)

/-- A record arrives at a hub (R273, R294). -/
theorem record (n : Nat) (r : ErrRec) : s.EngineKept (t.record n r) := by
  have queued (q : ErrRec) : s.EngineKept (((t.sevEvents n q).recordFeed q).recordQueue n q) :=
    recordQueue (quiet (h.sevEvents n q) (by simp)) n q
  unfold State.record
  dsimp only
  split
  · exact (queued _).vfCopy ..
  · exact queued _

/-- What a refusal at ingress sets (R189, R330). -/
theorem refusal (p : Nat) (r : Right) (src a : Nat) : s.EngineKept (t.refusal p r src a) := by
  have flagged := h.evt (f := PROT_EVENT.REFUSED) (by decide) 0 0 1 (some p)
  exact keeps_ite flagged (fset (fset (fset (fset (fset flagged (by decide) ..) (by decide) ..) (by decide) ..)
    (by decide) ..) (by decide) ..)

/-- What a request that meets no memory sets (R189). -/
theorem windowMiss (n p : Nat) (r : Right) (src a : Nat) : s.EngineKept (t.windowMiss n p r src a) :=
  evt (h.refusal p r src a) (by decide) ..

end Registers

section Words

variable {s t : State} (h : s.EngineKept t)
include h

/-- A correction is tallied, and an overflowing bucket is recorded (R266). -/
theorem tallyAdd {n : Nat} (hn : n < 4) (k : Nat) (r : ErrRec) : s.EngineKept (t.tallyAdd k n r) := by
  have counter : (ceCount n).engine = true := by
    unfold ceCount
    split_ifs <;> decide
  have counted : s.EngineKept (t.fcount (ceCount n) k 0) := h.fset counter ..
  have packed (v : Nat) : s.EngineKept ((t.fcount (ceCount n) k 0).fsetAt ERR_TALLY.T0 k 0 (8 * n) v) :=
    counted.fsetAt (by decide) _ _ (by simp only [ERR_TALLY.T0]; omega) v
  exact keeps_ite (record (evt ((packed 0).quiet (by simp)) (by decide) ..) ..)
    ((packed (t.fgetAt ERR_TALLY.T0 k 0 (8 * n) + 1)).quiet (by simp))

/-- A correction of a word is tallied (R266). -/
theorem tallyWord (w src : Nat) (p : Option Nat) : s.EngineKept (t.tallyWord w src p) := by
  unfold State.tallyWord
  split
  · exact h
  · rename_i n hn
    refine h.tallyAdd ?_ ..
    cases hc : t.cls w <;> simp [hc, Cls.tally] at hn <;> omega

/-- A correction is tallied unless its write-back is queued (R265). -/
theorem tallyOnce (w src : Nat) (p : Option Nat) : s.EngineKept (t.tallyOnce w src p) := by
  unfold State.tallyOnce
  split
  · exact keeps_ite h (h.tallyWord ..)
  · exact h

/-- A word takes the poison mark (R261). -/
theorem markPoison (w : Nat) : s.EngineKept (t.markPoison w) := h.quiet (by simp)

/-- A read decodes a word (R261, R265). -/
theorem readWord (src : Nat) (p : Option Nat) (w : Nat) : s.EngineKept (t.readWord src p w) := by
  unfold State.readWord
  split
  · exact keeps_ite h ((h.tallyWord w src p).quiet (by simp))
  · exact h.markPoison w
  · exact h

/-- A range is read (R264). -/
theorem readRange (src : Nat) (p : Option Nat) (sev : Nat) (b : By) (k n : Nat) :
    s.EngineKept (t.readRange src p sev b k n) := by
  unfold State.readRange
  refine keeps_foldl (fun _ _ hu => hu.readWord ..) ?_
  split
  · unfold State.badRecord
    dsimp only
    split <;> exact h.record ..
  · exact h

/-- A word is stored with the poison mark or clean (R261, R263). -/
theorem storeMarked (b : Bool) (w : Nat) (bs : List Byte) :
    s.EngineKept (if b then t.storePoison w bs else t.storeClean w bs) :=
  keeps_ite (h.quiet (by simp)) (h.quiet (by simp))

/-- An engine stores bytes of a word (R262, R263, R267). -/
theorem storeWord (w off : Nat) (bs : List Byte) (poisoned : Bool) : s.EngineKept (t.storeWord w off bs poisoned) := by
  have past : s.EngineKept (t.supersede (w + off) bs.length) := h.quiet (by simp)
  have tallied := keeps_ite (c := off = 0 ∧ bs.length ≥ ((t.supersede (w + off) bs.length).cls w).word) past
    (past.tallyOnce w 3 ((t.supersede (w + off) bs.length).ownerOf w))
  exact keeps_ite (tallied.quiet (by simp)) (tallied.storeMarked ..)

end Words

section Writes

variable {s t : State} (h : s.EngineKept t)
include h

/-- A request is answered. -/
theorem answer (k : RespKind) (d : List Byte) : s.EngineKept (t.answer k d) := h.quiet (by simp)

/-- An error answer of one word stands for the whole write (R269). -/
theorem orError (k : RespKind) : s.EngineKept (t.orError k) := keeps_ite (h.quiet (by simp)) h

/-- A word goes through read-modify-write (R269). -/
theorem rmw (w off mask data : Nat) (poisoned : Bool) (ws : List (Nat × Nat)) :
    s.EngineKept (t.rmw w off mask data poisoned ws) := by
  unfold State.rmw
  dsimp only
  refine keeps_ite (answer ?refused ..) (answer ((h.tallyOnce ..).storeMarked ..) ..)
  case refused =>
    have recorded (k : Nat) (r : ErrRec) (p : Option Nat) :
        s.EngineKept ((t.record k r).evt ERR_EVENT.WRITE_REFUSED k 0 1 p) := (h.record k r).evt (by decide) ..
    exact keeps_ite ((recorded ..).markPoison w) (recorded ..)

/-- A merge entry closes (R268). -/
theorem closeEntry (e : MergeEnt) : s.EngineKept (t.closeEntry e) := by
  unfold State.closeEntry
  refine keeps_foldl (fun u i hu => ?_) (h.quiet (by simp))
  exact keeps_ite hu (orError (keeps_ite (answer (hu.storeMarked ..) ..) (hu.rmw ..)) _)

/-- A block's open merge entry closes (R268). -/
theorem closeBlock (blk : Nat) : s.EngineKept (t.closeBlock blk) := by
  unfold State.closeBlock
  split
  · exact h
  · exact closeEntry (h.quiet (by simp)) _

/-- A range's open merge entries close (R268). -/
theorem closeRange (k n : Nat) : s.EngineKept (t.closeRange k n) := keeps_foldl (fun _ _ hu => hu.closeBlock _) h

/-- A partial write joins the merge buffer (R268). -/
theorem mergeWrite (src p k : Nat) (bs : List Byte) (poisoned : Bool) :
    s.EngineKept (t.mergeWrite src p k bs poisoned) := by
  have room {r : State} (hr : s.EngineKept r) (e : MergeEnt) (l m : List MergeEnt) (full : Bool) :
      s.EngineKept (if full then State.closeEntry (r.withMerge l) e else State.answer (r.withMerge m) .none []) :=
    keeps_ite (closeEntry (hr.quiet (by simp)) _) (hr.quiet (by simp))
  unfold State.mergeWrite
  dsimp only
  split
  · exact room h ..
  · refine room (keeps_ite ?_ h) ..
    split
    · exact h.closeBlock _
    · exact h

/-- Part of a word is written (R267). -/
theorem partWrite (src p w off : Nat) (bs : List Byte) (poisoned : Bool) :
    s.EngineKept (t.partWrite src p w off bs poisoned) := by
  unfold State.partWrite
  split
  · exact h.quiet (by simp)
  · exact h.quiet (by simp)
  · exact (h.storeWord ..).answer ..
  · exact (h.storeWord ..).answer ..
  · exact keeps_ite (h.mergeWrite ..) (h.rmw ..)

/-- Bytes are written word by word, some of them poisoned (R262, R263, R267). -/
theorem writeMarks (src p k : Nat) (bs : List Byte) (bad : Nat) : s.EngineKept (t.writeMarks src p k bs bad) :=
  keeps_foldl (fun _ _ hu => orError (keeps_ite (answer ((hu.closeBlock _).storeMarked ..) ..) (hu.partWrite ..)) _)
    (h.quiet (by simp))

/-- A hub engine reads what it owns (R265, R276). -/
theorem engSee (src p k n : Nat) : s.EngineKept (t.engSee src p k n) :=
  quiet ((h.closeRange k n).readRange ..) (by rfl)

/-- A hub engine writes what it owns (R269, R270). -/
theorem engWrite (src p k : Nat) (bs : List Byte) : s.EngineKept (t.engWrite src p k bs) :=
  quiet (h.writeMarks ..) (by rfl)

/-- The deck engine writes to an address that a command or a ring names, or is refused (R297, R329). -/
theorem engPut (p a : Nat) (bs : List Byte) : s.EngineKept (t.engPut p a bs) := by
  unfold State.engPut
  dsimp only
  split
  · exact h.windowMiss ..
  · refine keeps_ite (h.refusal ..) (keeps_ite h (quiet (keeps_foldl1 (fun _ _ hu => hu.writeMarks ..) h) (by rfl)))

end Writes

section Pages

variable {s t : State} (h : s.EngineKept t)
include h

/-- The ledger engine reads a page's entry (R276). -/
theorem seeLed (pg : Nat) : s.EngineKept (t.seeLed pg) := keeps_ite ((h.engSee ..).fset (by decide) ..) (h.engSee ..)

/-- An entry and its frame are released (R158). -/
theorem release (pg : Nat) : s.EngineKept (t.release pg) :=
  fset (engWrite (h.quiet (by simp)) ..) (by decide) ..

/-- A reference is removed (R158). -/
theorem unref (pg : Nat) : s.EngineKept (t.unref pg) := by
  have seen := h.seeLed pg
  exact keeps_ite seen (keeps_ite ((seen.engWrite ..).release _) (seen.engWrite ..))

/-- The frames of a reservation go back (R164, R173). -/
theorem unreserve (r : Resv) : s.EngineKept (t.unreserve r) := keeps_foldl (fun _ _ hu => hu.unref _) h

end Pages

end State.EngineKept

end Sys2Proof.Machine
end

section
/-!
SUPPORT. Commits, regrowth and the end of a command leave the registers that the hubs' engines spare (R164, R167, R174, R308).
-/

namespace Sys2Proof.Machine

namespace State.EngineKept

section Commit

variable {s t : State} (h : s.EngineKept t)
include h

/-- A change to sealed bytes updates the seal (R150). -/
theorem sealing (p l pg : Nat) {f : State → State} (hf : ∀ u, s.EngineKept u → s.EngineKept (f u)) :
    s.EngineKept (t.sealing p l pg f) := keeps_ite (hf t h) ((hf t h).engWrite ..)

/-- A slot is copied (R164). -/
theorem copySlot (p l src x dst y : Nat) : s.EngineKept (t.copySlot p l src x dst y) :=
  keeps_foldl (fun _ _ hu => hu.engWrite ..) h

/-- A page takes its tokens of a step (R164, R166). -/
theorem commitPage (p l pg n : Nat) (ring : Bool) (segs : List Nat) (ts : List (Nat × Option (Nat × Nat) × Nat)) :
    s.EngineKept (t.commitPage p l pg n ring segs ts) := by
  refine h.sealing p l pg fun u hu => engWrite (keeps_foldl (fun v x hv => ?_) hu) ..
  obtain ⟨i, src, y⟩ := x
  have copied : s.EngineKept (match src with
      | some (sp, x) => if sp = pg ∧ x = y then v else v.copySlot p l sp x pg y
      | none => v) := by
    cases src with
    | none => exact hv
    | some q => exact keeps_ite hv (hv.copySlot ..)
  exact keeps_ite (keeps_ite (engWrite (engWrite (copied.engWrite ..) ..) ..) (copied.engWrite ..)) copied

/-- A layer's part of a commit (R164). -/
theorem commitLayer {p : Nat} {r : Resv} {q : Kept} {ext : List PRange} {draft : List Nat} {l : Nat} {u : State}
    (e : t.commitLayer p r q ext draft l = .inl u) : s.EngineKept u := by
  unfold State.commitLayer at e
  dsimp only at e
  split at e
  · cases e
  · rw [← Sum.inl.inj e]
    refine keeps_foldl (fun v k hv => ?_) h
    have seen := hv.engSee 6 p (v.pteAt p r.slot l k) 4
    split
    · exact seen
    · exact commitPage (keeps_ite (seen.engWrite ..) seen) ..

/-- The segment table is written (R155). -/
theorem setRuns (p slot : Nat) (runs : List (Nat × Nat)) : s.EngineKept (t.setRuns p slot runs) :=
  keeps_foldl (fun _ _ hu => (hu.engWrite ..).engWrite ..) (h.engWrite ..)

/-- A field of a session record is written. -/
theorem setRec (p slot off n v : Nat) : s.EngineKept (t.setRec p slot off n v) := h.engWrite ..

/-- The session record takes a step (R164). -/
theorem commitRecord (p : Nat) (r : Resv) (q : Kept) (ext : List PRange) : s.EngineKept (t.commitRecord p r q ext) := by
  have counted (b : Prop) [Decidable b] {u : State} (hu : s.EngineKept u) (pages next now : Nat) :
      s.EngineKept (((if b then u else u.setRec p r.slot 20 4 pages).setRec p r.slot 12 4 next).setRec p r.slot 24 8 now) :=
    setRec (setRec (keeps_ite hu (hu.setRec ..)) ..) ..
  unfold State.commitRecord
  dsimp only
  refine setRec ?_ ..
  have filled : s.EngineKept (if (runsAfter (t.segRuns p r.slot) r.n (t.srec p r.slot 8 2) (q.segs.take q.tokens.length)).2.2
      then ((t.setRecFlag p r.slot 3 true).evt KV_EVENT.SEG_TABLE_FULL (t.homeHub p) 0 1 (some p)).record (t.homeHub p)
        { cause := 0x46, sev := 4, src := 6, part := some p, info0 := t.handleOf p r.slot } else t) :=
    keeps_ite (record (evt (h.setRec ..) (by decide) ..) ..) h
  split
  · exact setRec (counted _ ((filled.setRuns ..).setRec ..) ..) ..
  · exact counted _ ((filled.setRuns ..).setRec ..) ..

/-- A commit stops (R167). -/
theorem commitStop (p slot : Nat) (ringDone : Bool) : s.EngineKept (t.commitStop p slot ringDone) := by
  have marked : s.EngineKept (((t.entries p slot).filter (fun (l, _) => t.layerW p l != 0)).foldl (fun t (l, k) =>
      let v := t.pte p slot l k
      if pteValid v then ((t.unref (ptePage v)).setPte p slot l k (pteDrop v)).setRecFlag p slot 2 true else t) t) :=
    keeps_foldl (fun _ _ hu => keeps_ite (setRec (engWrite (hu.unref _) ..) ..) hu) h
  unfold State.commitStop
  exact record (evt (keeps_ite marked h) (by decide) ..) ..

/-- A session commits, or its commit stops (R164, R167). -/
theorem commitSess (p : Nat) (r : Resv) (q : Kept) (draft : List Nat) (ue : Bool) :
    s.EngineKept (t.commitSess p r q draft ue).1 := by
  have seen := h.engSee 6 p (t.recAt p r.slot 0) 512
  unfold State.commitSess
  dsimp only
  refine keeps_ite1 (seen.commitStop ..) ?_
  generalize hx : List.foldl _ _ _ = x
  have layered : s.EngineKept x.1 := by
    rw [← hx]
    refine keeps_foldl1 (fun a l ha => keeps_ite1 ha ?_) seen
    split
    · exact ha.commitLayer (by assumption)
    · exact ha.engSee ..
  split
  · exact (layered.engSee ..).commitStop ..
  · exact keeps_ite1 (layered.commitStop ..) (commitRecord (keeps_foldl (fun _ _ hu => hu.engWrite ..) layered) ..)

end Commit

section CommandEnds

variable {s t : State} (h : s.EngineKept t)
include h

/-- The sessions of a command commit in turn (R164). -/
theorem commitAll (p x : Nat) (ue : Option Nat) : s.EngineKept (t.commitAll p x ue).1 := by
  refine keeps_foldl1 (fun a si ha => ?_) h
  split
  · exact ha
  · exact ha.commitSess ..

/-- What the reservations of a command did not use goes back (R164). -/
theorem settleAll (p : Nat) (rs : List Resv) : s.EngineKept (rs.foldl (fun u r => u.settle p r) t) :=
  keeps_foldl (fun _ _ hu => hu.unreserve _) h

/-- A started command changes. -/
theorem onExec (p x : Nat) (f : Exec → Exec) : s.EngineKept (t.onExec p x f) := h.quiet (by simp)

/-- A deck context changes. -/
theorem onDeck (d : Nat) (f : Deck → Deck) : s.EngineKept (t.onDeck d f) := h.quiet (by simp)

/-- A vector of one function is raised (R293). -/
theorem raise1 (port fn v : Nat) : s.EngineKept (t.raise1 port fn v) := h.quiet (by simp)

/-- Token-stream entries are written (R314). -/
theorem tsPut (d : Nat) (es : List (List Byte)) : s.EngineKept (t.tsPut d es) :=
  keeps_foldl (fun _ _ hu => (hu.engPut ..).onDeck ..) h

/-- The token-stream records of a command are written (R314). -/
theorem emitTokens (p x : Nat) : s.EngineKept (t.emitTokens p x) :=
  keeps_ite h (keeps_foldl (fun _ _ hu => hu.tsPut ..) h)

/-- A completion record is written, and its interrupt sent (R308). -/
theorem deckRecord (d tag status : Nat) (late : Bool) (detail : Nat) (irq : Bool) :
    s.EngineKept (t.deckRecord d tag status late detail irq) := by
  unfold State.deckRecord
  exact keeps_ite (raise1 (onDeck (h.engPut ..) ..) ..) (onDeck (h.engPut ..) ..)

/-- A deck whose stop waited for its commands stops (R322). -/
theorem stopCheck (d : Nat) : s.EngineKept (t.stopCheck d) := by
  unfold State.stopCheck
  dsimp only
  split
  · exact h
  · exact keeps_ite h (onDeck (fset (keeps_ite h (keeps_foldl (fun _ _ hu => hu.deckRecord ..) h)) (by decide) ..) ..)

/-- A command completes (R308). -/
theorem complete (p x status detail : Nat) : s.EngineKept (t.complete p x status detail) :=
  stopCheck (onExec (keeps_ite h (h.deckRecord ..)) ..) _

/-- An instance is over. -/
theorem popInst (p l : Nat) : s.EngineKept (t.popInst p l) := by
  have kept := State.popInst_keeps (within_opened _ t) t p l (.refl _ t)
  obtain ⟨hregs, -⟩ := kept .registers (by decide)
  exact h.quiet hregs.symm

/-- The hub decides about a pre-emption. -/
theorem preDecide (p : Nat) : s.EngineKept (t.preDecide p) := by
  have kept := State.preDecide_keeps (within_opened _ t) t p (.refl _ t)
  obtain ⟨hregs, -⟩ := kept .registers (by decide)
  exact h.quiet hregs.symm

/-- A command with an instance ends (R159). -/
theorem endCmd (p x l status detail : Nat) : s.EngineKept (t.endCmd p x l status detail) :=
  keeps_ite (h.onExec ..) (preDecide (complete (h.popInst ..) ..) _)

end CommandEnds

section Regrowth

variable {s t : State} (h : s.EngineKept t)
include h

/-- A chunk's commit (R174). -/
theorem regrowCommit (p : Nat) (r : Resv) (draft : List Nat) : s.EngineKept (t.regrowCommit p r draft) := by
  refine keeps_foldl (fun u l hu => keeps_foldl (fun v k hv => ?_) hu) h
  split
  · exact hv
  · exact keeps_ite (engWrite (hv.commitPage ..) ..) (hv.commitPage ..)

/-- A regrowth ends (R174). -/
theorem regrowEnd (p : Nat) (r : Resv) (w : Regrow) : s.EngineKept (t.regrowEnd p r w) := by
  have entered : s.EngineKept (r.ring.foldl (fun t (l, k, pg) =>
      if w.rebuild.contains l && decide (t.hdr pg 12 2 > 0) then t.setPte p r.slot l k (pteOf pg) else t) t) :=
    keeps_foldl (fun _ _ hu => keeps_ite (hu.engWrite ..) hu) h
  unfold State.regrowEnd
  have settled := unreserve (keeps_ite (c := w.next < t.sessN p r.slot) h entered)
  exact keeps_ite (settled _) (fset (setRec (setRec (settled _) ..) ..) (by decide) ..)

/-- What was reserved for later goes back. -/
theorem unlater (p x : Nat) : s.EngineKept (t.unlater p x) := onExec (keeps_foldl (fun _ _ hu => hu.unreserve _) h) ..

/-- Every reservation of a command goes back. -/
theorem unreserveAll (p x : Nat) : s.EngineKept (t.unreserveAll p x) :=
  unlater (onExec (keeps_foldl (fun _ _ hu => hu.unreserve _) h) ..) ..

/-- A command's regrowth stops. -/
theorem regrowStop (p x : Nat) (r : Resv) (w : Regrow) : s.EngineKept (t.regrowStop p x r w) :=
  onExec (unlater (h.regrowEnd ..) ..) ..

/-- A regrowth fails (R174). -/
theorem regrowFail (p x : Nat) : s.EngineKept (t.regrowFail p x).1 := by
  unfold State.regrowFail
  dsimp only
  split
  · exact h
  · dsimp only
    exact record (evt (h.regrowStop ..) (by decide) ..) ..

end Regrowth

end State.EngineKept

end Sys2Proof.Machine
end

section
/-!
SUPPORT. How a command with an instance ends (R159, R308), and what an abort leaves of its tiles (R115).
-/

namespace Sys2Proof.Machine

section CommandEnd

variable {s t : State} (p x l status detail : Nat)

/-- A completion record leaves the started commands. -/
theorem State.deckRecord_execs (d tag : Nat) (late : Bool) (irq : Bool) :
    (t.deckRecord d tag status late detail irq).execs = t.execs := by
  have written (q a : Nat) (bs : List Byte) : (t.engPut q a bs).execs = t.execs := by
    obtain ⟨-, hexecs, -⟩ := State.engPut_keeps (within_opened _ t) t q a bs (.refl _ t) .decks (by decide)
    exact hexecs.symm
  unfold State.deckRecord
  exact keeps_ite (P := fun u => u.execs = t.execs) (by simp [written]) (by simp [written])

/-- The check of a deck's stop leaves the started commands. -/
theorem State.stopCheck_execs (d : Nat) : (t.stopCheck d).execs = t.execs := by
  unfold State.stopCheck
  split
  · rfl
  · refine keeps_ite (P := fun u => u.execs = t.execs) rfl ?_
    have recorded := keeps_foldl (P := fun u => u.execs = t.execs)
      (f := fun t (x : Nat × Nat) => t.deckRecord d (fld x.1 2 2) 7 false 0 (!unreadable x.1 && (fld x.1 1 1).testBit 0))
      (l := (t.deck d).fetched) (fun u x hu => (State.deckRecord_execs ..).trans hu) rfl
    simpa using keeps_ite (P := fun u => u.execs = t.execs) rfl recorded

/-- A command that completes leaves its slot free (R308). -/
theorem State.complete_frees (h : t.homeHub p = s.homeHub p) : Freed s (t.complete p x status detail) p x := by
  unfold State.complete
  dsimp only
  generalize hu : (if (t.execOf p x).silent then t else t.deckRecord ..) = u
  have kept : t.EngineKept u := hu ▸ keeps_ite State.Alike.refl (State.EngineKept.deckRecord State.Alike.refl ..)
  have same : s.execKey p x = u.execKey p x := by rw [State.execKey, State.execKey, kept.homeHub, h]
  rw [Freed, State.stopCheck_execs, same]
  simp [State.onExec, Tbl.upd]

/-- A command with an instance ends: at once, or once its last pin is released (R159). -/
theorem State.endCmd_ended (q : List Instr) (h : t.homeHub p = s.homeHub p) :
    Ended s ((t.endCmd p x l status detail).withQueue q) p x l := by
  change Ended s (t.endCmd p x l status detail) p x l
  have popped : (t.popInst p l).homeHub p = s.homeHub p := (State.EngineKept.popInst .refl p l).homeHub p |>.trans h
  unfold State.endCmd
  split
  · refine .inr ⟨status, detail, ?_⟩
    rw [State.execKey, ← h, ← State.execKey]
    simp [State.onExec, Tbl.upd]
  · refine .inl ?_
    have kept := State.preDecide_keeps (within_opened _ _) ((t.popInst p l).complete p x status detail) p (.refl _ _)
    obtain ⟨-, hexecs, -⟩ := kept .decks (by decide)
    rw [Freed, ← hexecs]
    exact State.complete_frees p x status detail popped

end CommandEnd

section StoppedTiles

variable {s t : State} (p l : Nat) (i : Inst) (j : Nat)

/-- The jobs of a level of a tile are gone, and their arrays stop. -/
def State.stopJobs (t : State) (j l : Nat) : State :=
  (t.levelJobs j l).foldl (fun u (a, b) =>
    let v := u.setJob j l a none
    if b.holds then v.stopArrays j 0 b.arrays else v) t

/-- The operators at which a tile's busy threads stand end in fault 0x09 (Table 4.12). -/
def State.faultBusy (t u : State) (p l : Nat) (i : Inst) (j : Nat) : State :=
  if i.faulted.testBit j || i.ended.testBit j then u
  else ((List.range 16).filter (fun k => let h := t.thr j l k; h.st != .ready && h.st != .faulted)).foldl (fun u k =>
    match u.opOf p l i j k with
    | some c => u.seqFault j (c.f 4 2) k 0x09
    | none => u) u

/-- The tags of a tile's threads at a level lose their operators. -/
def State.orphanAll (t : State) (j l : Nat) : State := (List.range 16).foldl (fun u k => u.orphanTags j l k) t

/-- A tile stops: its jobs, its busy operators, its tags, its threads, and what it asked for (R115). -/
theorem State.stopTile_eq :
    let v := (t.faultBusy (t.stopJobs j l) p l i j).orphanAll j l
    t.stopTile p l i j = State.countLevels (State.onTile (v.withThrs (Tbl.clearRange v.thrs (thrKey j l 0) 16)) j
      (fun w => { w with want := none })) j := rfl

/-- Stopped jobs leave the threads, and write no register that the engines spare. -/
theorem State.stopJobs_kept : t.EngineKept (t.stopJobs j l) ∧ (t.stopJobs j l).thrs = t.thrs := by
  have stopped (v : State) (as : List Nat) : v.EngineKept (v.stopArrays j 0 as) ∧ (v.stopArrays j 0 as).thrs = v.thrs := by
    refine keeps_foldl (P := fun u => v.EngineKept u ∧ u.thrs = v.thrs) (fun u a hu => ?_) ⟨.refl, rfl⟩
    refine ⟨?_, by simpa using hu.2⟩
    unfold State.setArr
    split
    · refine (hu.1.quiet (by simp)).fsetAt (by decide) _ _ ?_ _
      simp only [TILE_ARRAY_STATUS.A0_STATE]
      omega
    · exact hu.1.quiet (by simp)
  refine keeps_foldl (P := fun u => t.EngineKept u ∧ u.thrs = t.thrs) (fun u x hu => ?_) ⟨.refl, rfl⟩
  obtain ⟨a, b⟩ := x
  have gone : t.EngineKept (u.setJob j l a none) ∧ (u.setJob j l a none).thrs = t.thrs :=
    ⟨hu.1.quiet (by simp), by simpa using hu.2⟩
  have halted := stopped (u.setJob j l a none) b.arrays
  exact keeps_ite (P := fun u => t.EngineKept u ∧ u.thrs = t.thrs) ⟨gone.1.trans halted.1, halted.2.trans gone.2⟩ gone

/-- Recorded faults leave the threads, and write no register that the engines spare. -/
theorem State.faultBusy_kept (u : State) :
    u.EngineKept (t.faultBusy u p l i j) ∧ (t.faultBusy u p l i j).thrs = u.thrs := by
  have faulted {v : State} (hv : u.EngineKept v) (o k : Nat) : u.EngineKept (v.seqFault j o k 0x09) :=
    keeps_ite hv (.fset (.fset (.fset (.fset hv (by decide) ..) (by decide) ..) (by decide) ..) (by decide) ..)
  refine keeps_ite (P := fun v => u.EngineKept v ∧ v.thrs = u.thrs) ⟨.refl, rfl⟩
    (keeps_foldl (P := fun v => u.EngineKept v ∧ v.thrs = u.thrs) (fun v k hv => ?_) ⟨.refl, rfl⟩)
  split
  · exact ⟨faulted hv.1 .., by simpa using hv.2⟩
  · exact hv

/-- Orphaned tags leave the threads and the registers. -/
theorem State.orphanAll_kept : (t.orphanAll j l).regs = t.regs ∧ (t.orphanAll j l).thrs = t.thrs :=
  keeps_foldl (P := fun u => u.regs = t.regs ∧ u.thrs = t.thrs) (fun _ _ hu => hu) ⟨rfl, rfl⟩

/-- A tile that stops its part of an instance clears its threads of the level, and writes no register that the engines spare
(R115). -/
theorem State.stopTile_kept : t.EngineKept (t.stopTile p l i j) ∧
    (t.stopTile p l i j).thrs = Tbl.clearRange t.thrs (thrKey j l 0) 16 := by
  obtain ⟨jobsKept, jobsThrs⟩ := State.stopJobs_kept (t := t) l j
  obtain ⟨busyKept, busyThrs⟩ := State.faultBusy_kept (t := t) p l i j (t.stopJobs j l)
  obtain ⟨tagRegs, tagThrs⟩ := State.orphanAll_kept (t := t.faultBusy (t.stopJobs j l) p l i j) l j
  rw [State.stopTile_eq]
  refine ⟨State.EngineKept.fset (.quiet (jobsKept.trans busyKept) (by simpa using tagRegs)) (by decide) .., ?_⟩
  simp [State.countLevels, tagThrs, busyThrs, jobsThrs]

end StoppedTiles

section AbortedInstance

/-- What holds of a list's member once a fold has met it, and stays, holds of all of them in the end. -/
theorem foldl_reaches {α β : Type} {Q : α → β → Prop} {f : β → α → β} {l : List α}
    (hf : ∀ b, ∀ a ∈ l, Q a (f b a)) (hk : ∀ b, ∀ a ∈ l, ∀ x ∈ l, Q x b → Q x (f b a)) (b : β) :
    ∀ x ∈ l, Q x (l.foldl f b) := by
  intro x hx
  obtain ⟨l1, l2, rfl⟩ := List.append_of_mem hx
  rw [List.foldl_append, List.foldl_cons]
  exact List.foldlRecOn l2 f (hf _ x hx) fun b hb a ha => hk b a (by simp [ha]) x hx hb

/-- A tile shows ABORTED, and none of its threads of a level does anything. -/
def State.TileStopped (u : State) (l j : Nat) : Prop :=
  u.fget TILE_SEQ_EVENT.ABORTED j 0 = 1 ∧ ∀ k, k < 16 → u.thr j l k = {}

variable {s t u : State} {p l j : Nat}

/-- What clears threads at most, and keeps the tile's events, leaves it stopped. -/
theorem State.TileStopped.keep (h : t.TileStopped l j) (hj : j < 64) (k : t.EngineKept u)
    (hc : u.thrs = t.thrs ∨ ∃ a, u.thrs = Tbl.clearRange t.thrs a 16) : u.TileStopped l j := by
  obtain ⟨haborted, hthreads⟩ := h
  refine ⟨?_, fun n hn => ?_⟩
  · refine (State.Alike.fget k (by decide) (.inr ?_)).trans haborted
    simp only [Field.addr, TILE_SEQ_EVENT.ABORTED, blkBase]
    omega
  · rcases hc with hc | ⟨a, hc⟩
    · exact (State.thr_congr t hc ..).trans (hthreads n hn)
    · rw [State.thr, hc]
      by_cases hin : a ≤ thrKey j l n ∧ thrKey j l n < a + 16
      · exact Tbl.get_clearRange_in _ hin.1 hin.2
      · exact (Tbl.get_clearRange_out _ (by omega)).trans (hthreads n hn)

/-- Showing ABORTED of a tile leaves the towers' registers. -/
theorem State.Alike.abort (h : State.Alike towerRegister s t) :
    State.Alike towerRegister s (t.fset TILE_SEQ_EVENT.ABORTED j 0 1) := by
  refine h.fset (by decide) ?_ 1
  simp only [towerRegister, Field.addr, TILE_SEQ_EVENT.ABORTED, blkBase]
  omega

/-- Showing ABORTED of one tile leaves every stopped tile stopped. -/
theorem State.TileStopped.abort (h : t.TileStopped l j) (i : Nat) :
    (t.fset TILE_SEQ_EVENT.ABORTED i 0 1).TileStopped l j := by
  obtain ⟨haborted, hthreads⟩ := h
  refine ⟨?_, fun n hn => (State.thr_congr t (by simp) ..).trans (hthreads n hn)⟩
  by_cases hij : j = i
  · rw [hij, State.fget_fset_same]
    rfl
  · rw [State.fget_fset_ne, haborted]
    simp only [Field.key, Field.addr, TILE_SEQ_EVENT.ABORTED, blkBase]
    omega

/-- States that read alike below the hubs' registers read alike in the towers'. -/
theorem State.LowRegs.towers (h : s.LowRegs t) : State.Alike towerRegister s t := by
  refine ⟨fun g u i sh ha => h g u i sh ?_⟩
  simp only [towerRegister, hubKeys] at ha ⊢
  omega

/-- Cancelled page steps leave the towers' registers (R222). -/
theorem State.cancelSteps_towers (js : List Nat) : State.Alike towerRegister s (s.cancelSteps p l js) := by
  have spared := spared_lowRegs s
  refine State.LowRegs.towers (keeps_foldl (fun u j hu => keeps_foldl (fun v k hv => spared.attnDrop hv j l k) hu) ?_)
  exact spared.quiet (s := s) (by rfl) fun _ _ _ _ _ => rfl

/-- An aborted instance's tiles are stopped, and home hubs are as they were (R115). -/
theorem State.abortInst_spec : (∀ j, (s.inst p l).tiles.testBit j = true → j < 64 → (s.abortInst p l).TileStopped l j) ∧
    (s.abortInst p l).homeHub p = s.homeHub p := by
  have cancelled := State.cancelSteps_towers (s := s) (p := p) (l := l) (s.inst p l).tileList
  have stopped := foldl_reaches (Q := fun j u => State.TileStopped u l j) (l := (s.inst p l).tileList)
    (f := fun u j => (u.stopTile p l (s.inst p l) j).fset TILE_SEQ_EVENT.ABORTED j 0 1) ?here ?later
    (s.cancelSteps p l (s.inst p l).tileList)
  case here =>
    intro b j _
    obtain ⟨-, hthrs⟩ := State.stopTile_kept (t := b) p l (s.inst p l) j
    refine ⟨by simp [TILE_SEQ_EVENT.ABORTED], fun k hk => ?_⟩
    rw [State.thr_congr (b.stopTile p l (s.inst p l) j) (by simp), State.thr, hthrs]
    exact Tbl.get_clearRange_in _ (by simp only [thrKey]; omega) (by simp only [thrKey]; omega)
  case later =>
    intro b i _ j hj hb
    have hj64 : j < 64 := List.mem_range.mp (List.mem_of_mem_filter hj)
    obtain ⟨kept, hthrs⟩ := State.stopTile_kept (t := b) p l (s.inst p l) i
    exact (hb.keep hj64 kept (.inr ⟨_, hthrs⟩)).abort i
  have towers : State.Alike towerRegister s (s.abortInst p l) := by
    refine .quiet (keeps_foldl (P := State.Alike towerRegister s) (fun u j hu => ?_) cancelled) (by rfl)
    obtain ⟨kept, -⟩ := State.stopTile_kept (t := u) p l (s.inst p l) j
    exact (hu.trans (kept.mono fun _ => Or.inl)).abort
  refine ⟨fun j hbit hj => ?_, towers.homeHub p⟩
  exact stopped j (List.mem_filter.mpr ⟨List.mem_range.mpr hj, hbit⟩)

end AbortedInstance

end Sys2Proof.Machine
end

section
/-!
SUPPORT. INSTANCE_END, REGROW_CHUNK, INSTANCE_ABORT and DROPPED_PAGE_RERUN (R93, R115, R164, R174, R177).
-/

namespace Sys2Proof.Machine

section InstanceKept

/-- The instance at a level of a partition is `v`. -/
def State.InstIs (p l : Nat) (v : Inst) (u : State) : Prop := u.inst p l = v

variable {p l : Nat} {v : Inst} {t : State}

/-- With the same partitions, the instance is the same. -/
theorem State.InstIs.of_parts {u : State} (h : t.InstIs p l v) (hp : u.parts = t.parts) : u.InstIs p l v := by
  rw [State.InstIs, State.inst, State.part_congr hp]
  exact h

/-- The instances are kept by what writes no partition. -/
theorem State.instIs_opened : Opened [.registers, .vectors, .memory, .controllers, .answers, .records, .decks, .pages,
    .management] (State.InstIs p l v) := by
  intro a ha
  fin_cases ha
  all_goals
    simp only [Opens]
    repeat' apply And.intro
    all_goals
      intros
      exact State.InstIs.of_parts (by assumption) (by simp)

/-- A change of a partition that leaves its instances. -/
theorem State.InstIs.onPart (h : t.InstIs p l v) (q : Nat) {f : Part → Part} (hf : ∀ x, (f x).insts = x.insts) :
    (t.onPart q f).InstIs p l v := by
  rw [← (h : t.inst p l = v)]
  simp only [State.InstIs, State.inst, State.part, State.onPart, Tbl.upd, Tbl.get_put]
  split
  · rename_i e
    rw [hf, e]
  · rfl

/-- The decision about a pre-emption leaves the instances. -/
theorem State.InstIs.preDecide (h : t.InstIs p l v) (q : Nat) : (t.preDecide q).InstIs p l v := by
  unfold State.preDecide
  split
  · exact keeps_ite (h.onPart q fun _ => rfl) h
  · exact h

/-- A changed command leaves the instances. -/
theorem State.InstIs.onExec (h : t.InstIs p l v) (q x : Nat) (f : Exec → Exec) : (t.onExec q x f).InstIs p l v :=
  h.of_parts (by simp)

/-- A command that ends without an instance leaves the instances. -/
theorem State.InstIs.endPlain (h : t.InstIs p l v) (q x status detail : Nat) :
    (t.endPlain q x status detail).InstIs p l v := by
  have back := State.unreserveAll_keeps State.instIs_opened t q x h
  have unasked : ((t.unreserveAll q x).unask q x).InstIs p l v := back.onPart q fun _ => rfl
  exact (State.complete_keeps (State.instIs_opened.mono (by decide)) _ q x status detail unasked).preDecide q

/-- The next chunk of a regrowth is prepared with the instances as they were. -/
theorem State.InstIs.regrowNext (h : t.InstIs p l v) (q x : Nat) : (t.regrowNext q x).InstIs p l v := by
  have opens {as : List Area} (ha : as ⊆ [.registers, .vectors, .memory, .controllers, .answers, .records, .decks, .pages,
      .management]) : Opened as (State.InstIs p l v) := State.instIs_opened.mono ha
  have seen {u : State} (hu : u.InstIs p l v) (k : Nat) : (u.engSee 6 q k 4).InstIs p l v :=
    State.engSee_keeps (opens (by decide)) u 6 q k 4 hu
  have put {u : State} (hu : u.InstIs p l v) (g n : Nat) (bs : List Byte) (bad : Nat → Bool) :
      (u.putBlocks q g n bs bad).InstIs p l v := State.putBlocks_keeps (opens (by decide)) u q g n bs bad hu
  have fits (ks : List Nat) (n : Nat) : ((ks.foldl (fun u k => u.engSee 6 q k 4) t).framesFor q x n).1.InstIs p l v :=
    State.framesFor_keeps (opens (by decide)) _ q x n (keeps_foldl (fun u k hu => seen hu k) h)
  unfold State.regrowNext
  dsimp only
  split
  · exact h
  · split
    · exact State.InstIs.endPlain (State.regrowFail_keeps State.instIs_opened _ q x (seen h _)) q x ..
    · refine keeps_ite (State.suspend_keeps (opens (by decide)) _ q x _ _ (fits ..)) (keeps_ite (fits ..) ?_)
      exact ((put (put (State.regrowTake_keeps (opens (by decide)) _ q _ _ _ _ _ (fits ..)) ..) ..).onExec ..).preDecide q

/-- A command that holds its reservation goes on with the instances as they were. -/
theorem State.InstIs.regrowGo (n : Nat) (h : t.InstIs p l v) (q x : Nat) : (State.regrowGo n t q x).InstIs p l v := by
  induction n generalizing t with
  | zero => exact h
  | succ n ih =>
    unfold State.regrowGo
    dsimp only
    split
    · split
      · exact ih (State.setRecFlag_keeps (State.instIs_opened.mono (by decide)) t q _ 2 false h)
      · exact (h.onExec ..).regrowNext q x
    · split
      · exact h
      · rename_i e
        exact (State.readsCheck_keeps (State.instIs_opened.mono (by decide)) h e).endPlain q x ..
      · exact (State.InstIs.onExec (State.loadBlocks_keeps (State.instIs_opened.mono (by decide)) _ q x
          (h.onExec q x _)) q x _).preDecide q

/-- An instance that is over is no more. -/
theorem State.popInst_instIs : (t.popInst p l).InstIs p l {} := by
  have gone (u : State) (ask : Part → Option (Nat × Bool)) : State.InstIs p l {} (u.onPart p (fun q =>
      { q with insts := Tbl.put {} q.insts l {}, level := topLevel (Tbl.put {} q.insts l {}), preAsk := ask q })) := by
    simp [State.InstIs, State.inst]
  have resumed {u : State} (hu : u.InstIs p l {}) (js : List Nat) :
      ((js.foldl (fun t j => t.onTile j (fun w => { w with preempting := true })) u).wake js).InstIs p l {} :=
    (keeps_foldl (P := State.InstIs p l {}) (fun v j hv => hv.of_parts (by simp)) hu).of_parts (State.wake_frame ..).1
  unfold State.popInst
  exact keeps_ite (resumed (gone ..) _) (gone ..)

end InstanceKept

section InstanceCommands

variable {s : State} {p l : Nat} {i : Inst} (hp : partOk p = true)
include hp

/-- INSTANCE_END of an ended instance in no regrowth, its pages in memory mode, ends its command, its sessions committed or
their commit stopped (R164, R167). -/
theorem exec_instanceEnd_ends (ue : Option Nat) (he : s.endedInst p = some (l, i))
    (hr : (s.execOf p i.slot).regrow = none) (hh : s.commitHeld p i.slot = false) :
    ∃ t st dt, exec (.instanceEnd p ue) s = .next ((t.endCmd p i.slot l st dt).withQueue s.pending) ∧ s.EngineKept t := by
  have committed : s.EngineKept (s.commitAll p i.slot ue).1 := .commitAll .refl ..
  have settled := committed.settleAll p (s.execOf p i.slot).resv
  change ∃ t st dt, execInstanceEnd p ue s = _ ∧ _
  cases hf : (s.commitAll p i.slot ue).2 with
  | some si =>
    refine ⟨_, 0x09, si, ?_, settled⟩
    simp [execInstanceEnd, hp, ok_true, he, hr, hh, hf]
  | none =>
    refine ⟨_, ?status, ?detail, ?run, settled.emitTokens p i.slot⟩
    case run =>
      simp only [execInstanceEnd, hp, ok_true, he, hr, hh, hf, Option.isSome_none, Bool.or_self, Bool.false_eq_true, if_false]
      rfl

variable {w : Regrow} (he : s.endedInst p = some (l, i)) (hr : (s.execOf p i.slot).regrow = some w)
  (hh : ((s.execOf p i.slot).resv.headD {}).pages.any s.pageHeld = false)
include he hr hh

/-- REGROW_CHUNK whose commit fails ends its command (R174). -/
theorem exec_regrowChunk_fails : ∃ st dt, exec (.regrowChunk p true) s =
    .next (((s.regrowFail p i.slot).1.endCmd p i.slot l st dt).withQueue s.pending) := by
  change ∃ st dt, execRegrowChunk p true s = _
  refine ⟨?status, ?detail, ?run⟩
  case run =>
    simp only [execRegrowChunk, hp, ok_true, he, hr, hh, if_true, Bool.false_eq_true, if_false]
    rfl

/-- REGROW_CHUNK that commits for a command that was timed out or stopped meanwhile ends it (R174). -/
theorem exec_regrowChunk_cut {st dt : Nat} (hc : w.cut = some (st, dt)) :
    ∃ t, exec (.regrowChunk p false) s = .next ((t.endCmd p i.slot l st dt).withQueue s.pending) ∧ s.EngineKept t := by
  change ∃ t, execRegrowChunk p false s = _ ∧ _
  simp only [execRegrowChunk, hp, ok_true, he, hr, hh, hc, Bool.false_eq_true, if_false]
  exact ⟨_, rfl, .regrowStop (keeps_foldl (fun _ _ hu => hu.unref _) (.regrowCommit .refl ..)) ..⟩

/-- REGROW_CHUNK that commits ends its instance (R174). -/
theorem exec_regrowChunk_goes (hc : w.cut = none) :
    ∃ t : State, exec (.regrowChunk p false) s = .next (t.withQueue s.pending) ∧ t.InstIs p l {} := by
  change ∃ t : State, execRegrowChunk p false s = _ ∧ _
  simp only [execRegrowChunk, hp, ok_true, he, hr, hh, hc, Bool.false_eq_true, if_false]
  refine ⟨_, rfl, keeps_ite (State.InstIs.regrowNext (State.popInst_instIs.onExec ..) ..) (State.InstIs.regrowGo _ ?_ ..)⟩
  exact State.InstIs.onExec (State.regrowEnd_keeps (State.instIs_opened.mono (by decide)) _ p _ _ State.popInst_instIs) ..

end InstanceCommands

section TilesKept

/-- The tiles' events and threads are the same in two states. -/
structure State.TilesKept (s t : State) : Prop where
  events : s.EngineKept t
  threads : t.thrs = s.thrs

namespace State.TilesKept

variable {s t u : State} (h : s.TilesKept t)
include h

/-- What writes nothing of the tiles' area, and no register that the engines spare, keeps the tiles. -/
theorem of_area (hk : s.EngineKept u) (ha : Area.same t u .tiles) : s.TilesKept u := by
  obtain ⟨-, hthrs⟩ := h
  obtain ⟨-, -, hsame, -⟩ := ha
  exact ⟨hk, hsame.symm.trans hthrs⟩

/-- A changed command keeps the tiles. -/
theorem onExec (p x : Nat) (f : Exec → Exec) : s.TilesKept (t.onExec p x f) := ⟨h.events.onExec p x f, by simpa using h.threads⟩

/-- Reservations that go back keep the tiles. -/
theorem unreserveAll (p x : Nat) : s.TilesKept (t.unreserveAll p x) :=
  h.of_area (h.events.unreserveAll p x) (State.unreserveAll_keeps (within_opened _ t) t p x (.refl _ t) .tiles (by decide))

/-- A regrowth that stops keeps the tiles. -/
theorem regrowStop (p x : Nat) (r : Resv) (w : Regrow) : s.TilesKept (t.regrowStop p x r w) :=
  h.of_area (h.events.regrowStop p x r w) (State.regrowStop_keeps (within_opened _ t) t p x r w (.refl _ t) .tiles (by decide))

/-- A regrowth that fails keeps the tiles. -/
theorem regrowFail (p x : Nat) : s.TilesKept (t.regrowFail p x).1 :=
  h.of_area (h.events.regrowFail p x) (State.regrowFail_keeps (within_opened _ t) t p x (.refl _ t) .tiles (by decide))

/-- An instance that is over leaves threads and the tiles' events. -/
theorem popInst (p l : Nat) : s.TilesKept (t.popInst p l) := by
  obtain ⟨hk, hthrs⟩ := h
  refine ⟨hk.popInst p l, ?_⟩
  have gated (v : State) (js : List Nat) (f : State → Nat → State) (hf : ∀ u j, (f u j).thrs = u.thrs) :
      (js.foldl f v).thrs = v.thrs :=
    keeps_foldl (P := fun u => u.thrs = v.thrs) (fun u j hu => (hf u j).trans hu) rfl
  have left : ((t.inst p l).tileList.foldl (fun u j => if l = (t.part p).level ∧ (u.tile j).power = .run then
      u.onTile j (fun w => { w with power := .gated, since := t.time }) else u) t).thrs = s.thrs :=
    (gated _ _ _ fun u j => by split <;> simp).trans hthrs
  have woken (v : State) (js : List Nat) : (v.wake js).thrs = v.thrs := gated _ _ _ fun u j => by split <;> simp
  unfold State.popInst
  refine keeps_ite (P := fun u => u.thrs = s.thrs) ?_ (by simpa using left)
  rw [woken, gated _ _ _ fun u j => by simp]
  simpa using left

/-- A command with an instance ends with threads and the tiles' events as they were. -/
theorem endCmd (p x l status detail : Nat) : s.TilesKept (t.endCmd p x l status detail) := by
  refine keeps_ite (h.onExec ..) ?_
  have popped := h.popInst p l
  have completed : s.TilesKept ((t.popInst p l).complete p x status detail) :=
    popped.of_area (popped.events.complete p x status detail)
      (State.complete_keeps (within_opened _ _) _ p x status detail (.refl _ _) .tiles (by decide))
  exact completed.of_area (completed.events.preDecide p)
    (State.preDecide_keeps (within_opened _ _) _ p (.refl _ _) .tiles (by decide))

end State.TilesKept

end TilesKept

section Abort

variable {s : State} {p l : Nat} {i : Inst} (hp : partOk p = true) (hl : l = (s.part p).level) (hi : i = s.inst p l)
include hp hl hi

/-- INSTANCE_ABORT with no reported fault changes nothing. -/
theorem exec_instanceAbort_none (hf : i.fault = none) : exec (.instanceAbort p) s = .next s := by
  subst hl hi
  change execInstanceAbort p s = _
  simp only [execInstanceAbort, hp, ok_true, hf]
  rfl

variable {f : Nat × Nat × Nat × Nat} (hf : i.fault = some f) (hv : i.valid = true) (ha : i.aborted = false)
include hf hv ha

/-- INSTANCE_ABORT of a fault that is not cause 0x07, in no regrowth, ends the command (R115). -/
theorem exec_instanceAbort_ends (h7 : f.1 ≠ 7) (hr : (s.execOf p i.slot).regrow = none) : ∃ dt, exec (.instanceAbort p) s =
    .next ((((s.abortInst p l).unreserveAll p i.slot).endCmd p i.slot l 0x03 dt).withQueue s.pending) := by
  subst hl hi
  obtain ⟨cause, op, tile, th⟩ := f
  change ∃ dt, execInstanceAbort p s = _
  refine ⟨?detail, ?run⟩
  case run =>
    simp only [execInstanceAbort, hp, ok_true, hf, hv, ha, hr, if_neg h7, Bool.not_true, Bool.or_self, Bool.false_eq_true,
      if_false, Option.isSome_none]
    rfl

/-- INSTANCE_ABORT leaves the tiles as the abort left them: what follows keeps threads and the tiles' events. -/
theorem exec_instanceAbort_keeps :
    ∃ t : State, exec (.instanceAbort p) s = .next (t.withQueue s.pending) ∧ (s.abortInst p l).TilesKept t := by
  subst hl hi
  obtain ⟨cause, op, tile, th⟩ := f
  have aborted : (s.abortInst p (s.part p).level).TilesKept (s.abortInst p (s.part p).level) := ⟨.refl, rfl⟩
  change ∃ t : State, execInstanceAbort p s = _ ∧ _
  simp only [execInstanceAbort, hp, ok_true, hf, hv, ha, Bool.not_true, Bool.or_self, Bool.false_eq_true, if_false]
  refine ⟨_, rfl, keeps_ite (keeps_ite (.endCmd ?_ ..) (.onExec ?_ ..)) (keeps_ite ((aborted.regrowFail ..).endCmd ..)
    ((aborted.unreserveAll ..).endCmd ..))⟩
  all_goals
    split
    · exact aborted.regrowStop ..
    · exact aborted.unreserveAll ..

end Abort

/-- DROPPED_PAGE_RERUN of a command whose last pin is gone runs it again from stage 2 (R177). -/
theorem exec_droppedPageRerun_reruns {s : State} {p x l : Nat} {e : Exec} (hp : partOk p = true)
    (hf : (s.partExecs p).find? (fun y => match y.2.stage with
      | .rerun l => !s.stepsOut p l
      | _ => false) = some (x, e)) (he : e.stage = .rerun l) :
    exec (.droppedPageRerun p) s = .next ((((s.popInst p l).onExec p x (fun e =>
      { e with stage := .started, reran := true, invalid := [] })).stage2 p x).withQueue s.pending) := by
  change execDroppedPageRerun p s = _
  rw [execDroppedPageRerun, hp, ok_true]
  split
  · rename_i found
    obtain ⟨rfl, rfl⟩ := Prod.mk.inj (Option.some.inj (found.symm.trans hf))
    simp only [he]
  · rename_i missed
    exact absurd (missed.symm.trans hf) (by simp)

/-- Settles O11: an ended instance commits and its command ends, or waits for its last pin; an abort stops the tiles first,
and nothing that follows it touches them. -/
theorem instancesEndAbortAndRerun : Obligations.InstancesEndAbortAndRerun := by
  unfold Obligations.InstancesEndAbortAndRerun
  intro s p hp
  refine ⟨fun l i ue he hr hh => ?ends, fun l i w he hr hh => ⟨?fails, ?commits⟩, ?aborts,
    fun hf => exec_instanceAbort_none hp rfl rfl hf, fun x e l hf he => exec_droppedPageRerun_reruns hp hf he⟩
  case ends =>
    obtain ⟨t, st, dt, hexec, kept⟩ := exec_instanceEnd_ends hp ue he hr hh
    exact ⟨_, hexec, State.endCmd_ended p i.slot l st dt s.pending (kept.homeHub p)⟩
  case fails =>
    obtain ⟨st, dt, hexec⟩ := exec_regrowChunk_fails hp he hr hh
    have failed : s.EngineKept (s.regrowFail p i.slot).1 := .regrowFail .refl ..
    exact ⟨_, hexec, State.endCmd_ended p i.slot l st dt s.pending (failed.homeHub p)⟩
  case commits =>
    cases hc : w.cut with
    | none =>
      obtain ⟨t, hexec, hinst⟩ := exec_regrowChunk_goes hp he hr hh hc
      refine ⟨_, hexec, fun _ => ?_, fun h => absurd rfl h⟩
      exact congrArg Inst.valid hinst
    | some c =>
      obtain ⟨t, hexec, kept⟩ := exec_regrowChunk_cut hp he hr hh hc
      exact ⟨_, hexec, fun h => by simp at h, fun _ => State.endCmd_ended p i.slot l c.1 c.2 s.pending (kept.homeHub p)⟩
  case aborts =>
    intro f l i hf hv ha
    obtain ⟨stopped, hub⟩ := s.abortInst_spec (p := p) (l := l)
    obtain ⟨t, hexec, kept, hthrs⟩ := exec_instanceAbort_keeps hp rfl rfl hf hv ha
    have tiles (j : Nat) (hbit : i.tiles.testBit j = true) (hj : j < 64) : t.TileStopped l j :=
      (stopped j hbit hj).keep hj kept (.inl hthrs)
    refine ⟨_, hexec, fun j hbit hj => tiles j hbit hj, fun h7 hr => ?_⟩
    obtain ⟨dt, hends⟩ := exec_instanceAbort_ends hp rfl rfl hf hv ha h7 hr
    rw [Host.Outcome.next.inj (hexec.symm.trans hends)]
    have back : (s.abortInst p l).EngineKept ((s.abortInst p l).unreserveAll p i.slot) := .unreserveAll .refl ..
    exact State.endCmd_ended p i.slot l 0x03 dt s.pending ((back.homeHub p).trans hub)

end Sys2Proof.Machine
end

section
/-!
SUPPORT. No operation on memory, pages or registers writes the queue of waiting commands, so a command answers the state that its
operations leave. The ledger's pins and references (R158, R179), case by case.
-/

namespace Sys2Proof.Machine

section Queue

variable {s t : State}

/-- The commands that wait are `q`. -/
def State.QueueIs (q : List Instr) (u : State) : Prop := u.pending = q

/-- No operation of any area writes the queue. -/
theorem State.queueIs_opened (l : List Area) (q : List Instr) : Opened l (State.QueueIs q) := by
  intro a _
  cases a
  all_goals
    simp only [Opens]
    repeat' apply And.intro
    all_goals
      intros
      assumption

/-- A command that leaves the queue answers the state that it leaves. -/
theorem ok_of_pending (h : t.pending = s.pending) : ok true s t = .next t := by
  rw [ok_true, State.withQueue_self h]

variable (s) (pg : Nat)

/-- A pin leaves the queue. -/
theorem State.pin_pending : (s.pin pg).1.pending = s.pending := State.pin_keeps (queueIs_opened _ _) s pg rfl

/-- A reference leaves the queue. -/
theorem State.ref_pending : (s.ref pg).1.pending = s.pending := State.ref_keeps (queueIs_opened _ _) s pg rfl

/-- An unpin leaves the queue. -/
theorem State.unpin_pending : (s.unpin pg).pending = s.pending := State.unpin_keeps (queueIs_opened _ _) s pg rfl

/-- A reference removed leaves the queue. -/
theorem State.unref_pending : (s.unref pg).pending = s.pending := State.unref_keeps (queueIs_opened _ _) s pg rfl

end Queue

section CleanReads

variable {s : State}

/-- Reading clean words changes nothing. -/
theorem State.foldl_readWord_clean {ws : List Nat} (h : ∀ w ∈ ws, s.verd w = .clean) (src : Nat) (p : Option Nat) :
    ws.foldl (fun t w => t.readWord src p w) s = s := by
  induction ws with
  | nil => rfl
  | cons w ws ih =>
    obtain ⟨hw, hws⟩ := List.forall_mem_cons.mp h
    have same : s.readWord src p w = s := by simp [State.readWord, hw]
    rw [List.foldl_cons, same, ih hws]

/-- Reading a range of clean words changes nothing (R264). -/
theorem State.readRange_clean {k n : Nat} (h : ∀ w ∈ wordsOf (s.cls k) k n, s.verd w = .clean) (src : Nat) (p : Option Nat)
    (sev : Nat) (b : By) : s.readRange src p sev b k n = s := by
  have none_bad : (wordsOf (s.cls k) k n).find? s.bad = none :=
    List.find?_eq_none.mpr fun w hw => by simp [State.bad, h w hw]
  simp only [State.readRange, none_bad]
  exact State.foldl_readWord_clean h src p

/-- With no merge entry open, none closes. -/
theorem State.closeRange_of_no_entry (h : s.merge = []) (k n : Nat) : s.closeRange k n = s :=
  keeps_foldl (P := (· = s)) (fun t i ht => by rw [ht]; simp [State.closeBlock, h]) rfl

/-- An engine's read of clean words with no merge entry open changes nothing (R265, R268). -/
theorem State.engSee_clean {k n : Nat} (h : ∀ w ∈ wordsOf (s.cls k) k n, s.verd w = .clean) (hm : s.merge = [])
    (src p : Nat) : s.engSee src p k n = s := by
  rw [State.engSee, State.closeRange_of_no_entry hm, State.readRange_clean h]
  rfl

/-- A range's first word is among its words. -/
theorem wordOf_mem_wordsOf (c : Cls) {k n : Nat} (hn : n ≠ 0) : wordOf c k ∈ wordsOf c k n := by
  rw [wordsOf, if_neg hn]
  exact List.mem_map.mpr ⟨0, by simp, by simp⟩

/-- The ledger engine's read of a clean entry with no merge entry open changes nothing (R276). -/
theorem State.seeLed_clean {pg : Nat} (h : ∀ w ∈ wordsOf (s.cls (s.ledAt pg)) (s.ledAt pg) 16, s.verd w = .clean)
    (hm : s.merge = []) : s.seeLed pg = s := by
  have first : s.verd (wordOf (s.cls (s.ledAt pg)) (s.ledAt pg)) = .clean := h _ (wordOf_mem_wordsOf _ (by decide))
  simp only [State.seeLed, State.closeRange_of_no_entry hm, first, State.engSee_clean h hm]
  rfl

end CleanReads

section Entry

variable {s u : State} {pg : Nat} (hu : s.seeLed pg = u)
include hu

/-- Of an entry that cannot be read or is not valid, a pin and a reference are refused, and nothing is removed. -/
theorem State.ledger_withheld (h : u.ledBad pg = true ∨ (u.led pg).valid = false) :
    s.pin pg = (u, .dropped) ∧ s.ref pg = (u, false) ∧ s.unpin pg = u ∧ s.unref pg = u := by
  subst hu
  rcases h with h | h <;> simp [State.pin, State.ref, State.unpin, State.unref, h]

variable {e : Led} (he : u.led pg = e) (hb : u.ledBad pg = false) (hv : e.valid = true)
include he hb hv

/-- A dropped page is not pinned. -/
theorem State.pin_dropped (h : e.dropped = true) : s.pin pg = (u, .dropped) := by
  simp [State.pin, hu, he, hb, hv, h]

/-- A pin beyond the highest count is held. -/
theorem State.pin_held (h : e.dropped = false) (hp : e.pin = 0xFFFF) : s.pin pg = (u, .held) := by
  simp [State.pin, hu, he, hb, hv, h, hp]

/-- A pin raises PIN. -/
theorem State.pin_ok (h : e.dropped = false) (hp : e.pin ≠ 0xFFFF) :
    s.pin pg = (u.setLed pg { e with pin := e.pin + 1 }, .ok) := by
  simp [State.pin, hu, he, hb, hv, h, hp]

/-- A reference beyond the highest count is refused. -/
theorem State.ref_full (h : e.ref = 0xFFFF) : s.ref pg = (u, false) := by
  simp [State.ref, hu, he, hb, hv, h]

/-- A reference raises REF. -/
theorem State.ref_ok (h : e.ref ≠ 0xFFFF) : s.ref pg = (u.setLed pg { e with ref := e.ref + 1 }, true) := by
  simp [State.ref, hu, he, hb, hv, h]

/-- No reference is removed where there is none. -/
theorem State.unref_none (h : e.ref = 0) : s.unref pg = u := by
  simp [State.unref, hu, he, hb, hv, h]

/-- A reference removed that is not the last, or from a pinned page, lowers REF. -/
theorem State.unref_lowers (h : 2 ≤ e.ref ∨ e.ref = 1 ∧ e.pin ≠ 0) :
    s.unref pg = u.setLed pg { e with ref := e.ref - 1 } := by
  have present : e.ref ≠ 0 := by omega
  have stays : ¬ (e.ref = 1 ∧ e.pin = 0) := by omega
  simp [State.unref, hu, he, hb, hv, present, stays]

/-- The last reference taken from an unpinned page releases it. -/
theorem State.unref_last (h : e.ref = 1) (hp : e.pin = 0) :
    s.unref pg = (u.setLed pg { e with ref := 0 }).release pg := by
  simp [State.unref, hu, he, hb, hv, h, hp]

/-- No pin is removed where there is none. -/
theorem State.unpin_none (h : e.pin = 0) : s.unpin pg = u := by
  simp [State.unpin, hu, he, hb, hv, h]

/-- A held request takes the place of a pin removed. -/
theorem State.unpin_hands_on (h : 0 < e.pin) {r : Nat × Nat} (hr : u.pinHeld.find? (fun h => h.1 == pg) = some r) :
    s.unpin pg = u.withPinHeld (u.pinHeld.erase r) := by
  simp [State.unpin, hu, he, hb, hv, Nat.ne_of_gt h, hr]

variable (hr : u.pinHeld.find? (fun h => h.1 == pg) = none)
include hr

/-- A pin removed that is not the last lowers PIN. -/
theorem State.unpin_lowers (h : 1 < e.pin) : s.unpin pg = u.setLed pg { e with pin := e.pin - 1 } := by
  have present : e.pin ≠ 0 := by omega
  simp [State.unpin, hu, he, hb, hv, present, Nat.ne_of_gt h, hr]

/-- The last pin removed from a page without references releases it. -/
theorem State.unpin_last_unreferenced (h : e.pin = 1) (h0 : e.ref = 0) :
    s.unpin pg = (u.setLed pg { e with pin := 0 }).release pg := by
  simp [State.unpin, hu, he, hb, hv, h, h0, hr]

/-- The last pin removed from a page with references drops it where a KV_DROP met it pinned (R179). -/
theorem State.unpin_last_referenced (h : e.pin = 1) (h0 : e.ref ≠ 0) :
    s.unpin pg = (u.setLed pg { e with pin := 0 }).dropNow pg := by
  simp [State.unpin, hu, he, hb, hv, h, h0, hr]

end Entry

section DropNow

variable {s : State} {pg : Nat}

/-- Writing an entry leaves what is to be dropped later. -/
theorem State.setLed_dropLater (s : State) (pg : Nat) (e : Led) : (s.setLed pg e).dropLater = s.dropLater := by
  obtain ⟨-, hdrop, -⟩ := State.setLed_keeps (within_opened _ s) s pg e (.refl _ s) .pages (by decide)
  exact hdrop.symm

/-- A page that no KV_DROP met pinned is not dropped. -/
theorem State.dropNow_unmarked (h : s.dropLater.find? (fun x => x.1 == pg) = none) : s.dropNow pg = s := by
  simp [State.dropNow, h]

/-- Of a page that a KV_DROP met pinned the entry that named it is marked DROPPED, and the page unreferenced (R179). -/
theorem State.dropNow_marked {n p slot l k : Nat} (h : s.dropLater.find? (fun x => x.1 == pg) = some (n, p, slot, l, k))
    (hv : pteValid (s.pte p slot l k) = true) (hp : ptePage (s.pte p slot l k) = pg) :
    s.dropNow pg = ((((s.withDropLater (s.dropLater.filter (fun x => x.1 != pg))).setPte p slot l k
      (pteDrop (s.pte p slot l k))).setRecFlag p slot 2 true).unref pg) := by
  simp [State.dropNow, h, hv, hp]

end DropNow

section LedgerCommands

variable (s : State) {pg : Nat} (hpg : pg < 2 ^ 24)
include hpg

/-- LEDGER_PIN answers what the pin answers; a held request is noted. -/
theorem exec_ledgerPin (th : Nat) {t : State} {a : PinAns} :
    s.pin pg = (t, a) → exec (.ledgerPin pg th) s = .next (match a with
      | .ok => t.answer .ok []
      | .dropped => t.answer .refused []
      | .held => (t.withPinHeld (t.pinHeld ++ [(pg, th)])).answer .none []) := by
  intro h
  have page : pageOk pg = true := decide_eq_true hpg
  have kept : t.pending = s.pending := by simpa [h] using s.pin_pending pg
  change ok (pageOk pg) s _ = _
  rw [page, h]
  cases a <;> exact ok_of_pending (by simpa using kept)

/-- LEDGER_REF answers whether the reference was added. -/
theorem exec_ledgerRef : exec (.ledgerRef pg) s =
    .next ((s.ref pg).1.answer (if (s.ref pg).2 then .ok else .refused) []) := by
  have page : pageOk pg = true := decide_eq_true hpg
  change ok (pageOk pg) s _ = _
  rw [page]
  exact ok_of_pending (by simpa using s.ref_pending pg)

/-- LEDGER_UNPIN removes a pin. -/
theorem exec_ledgerUnpin : exec (.ledgerUnpin pg) s = .next (s.unpin pg) := by
  have page : pageOk pg = true := decide_eq_true hpg
  change ok (pageOk pg) s _ = _
  rw [page, ok_of_pending (s.unpin_pending pg)]

/-- LEDGER_UNREF removes a reference. -/
theorem exec_ledgerUnref : exec (.ledgerUnref pg) s = .next (s.unref pg) := by
  have page : pageOk pg = true := decide_eq_true hpg
  change ok (pageOk pg) s _ = _
  rw [page, ok_of_pending (s.unref_pending pg)]

end LedgerCommands

end Sys2Proof.Machine
end

section
/-!
SUPPORT. The random source (R487, R488), the debug challenge (R489) and the calendar clock (R464, R490, R491): the records that
management writes, and what each command leaves in the registers.
-/

namespace Sys2Proof.Machine

section ManagementRecords

variable (s : State)

/-- A log entry writes no register but the count of entries lost (R481). -/
theorem State.fget_logAppend (h : Nat) (r : ErrRec) {g : Field} {u i : Nat}
    (hg : g.key u i ≠ MGMT_LOG_STATUS.LOST.key 0 0) : (s.logAppend h r).fget g u i = s.fget g u i := by
  unfold State.logAppend
  dsimp only
  split
  · rw [State.fcount, State.fget_fset_ne _ hg]
    exact State.fget_congr (by split <;> simp) g u i
  · exact State.fget_congr (by split <;> simp) g u i

/-- A record that management writes leaves the registers below the hubs' as they were, but for the log's count of entries
lost and the event (R482). -/
theorem State.fget_mgmtRec (n a b : Nat) {g : Field} {u i : Nat} (hlow : g.key u i < hubKeys)
    (hl : g.key u i ≠ MGMT_LOG_STATUS.LOST.key 0 0) (he : g.key u i ≠ MGMT_EVENT.CAUSE.key 0 0) :
    (s.mgmtRec n a b).fget g u i = s.fget g u i := by
  have self : s.LowRegs s := fun _ _ _ _ _ => rfl
  have recorded (r : ErrRec) : (s.record 0 r).fget g u i = s.fget g u i :=
    (spared_lowRegs s).record self 0 r g u i 0 hlow
  have fed (t : State) (m : Mgmt) : (t.withMgmt m).fget g u i = t.fget g u i := State.fget_congr (by simp) g u i
  rw [State.mgmtRec, State.fget_evt_ne _ he, State.fget_logAppend _ _ _ hl, fed, recorded]

/-- A record that management writes sets its bit of MGMT_EVENT (R482). -/
theorem State.mgmtRec_event {n : Nat} (hn : n < 7) (a b : Nat) : (s.mgmtRec n a b).fbit MGMT_EVENT.CAUSE 0 0 n = true := by
  rw [State.fbit, State.mgmtRec, State.fget_evt_same, Nat.testBit_mod_two_pow, Nat.testBit_or, Nat.testBit_two_pow_self,
    Bool.or_true, Bool.and_true]
  exact decide_eq_true hn

/-- A record that management writes is in no memory. -/
theorem State.mgmtRec_mem (n a b : Nat) : (s.mgmtRec n a b).mem = s.mem :=
  (State.mgmtRec_keeps (within_opened _ s) s n a b (.refl _ s) .memory (by decide)).1.symm

/-- A record goes to the management complex and leaves what it knows of its oscillator. -/
theorem State.record_oscStopped (h : Nat) (r : ErrRec) : (s.record h r).mgmt.oscStopped = s.mgmt.oscStopped := by
  have queued (q : ErrRec) :
      (((s.sevEvents h q).recordFeed q).recordQueue h q).mgmt.oscStopped = s.mgmt.oscStopped := by
    have fed : ((s.sevEvents h q).recordFeed q).mgmt.oscStopped = (s.sevEvents h q).mgmt.oscStopped := by
      unfold State.recordFeed
      split <;> rfl
    simpa using fed
  unfold State.record
  dsimp only
  split
  · simpa using queued _
  · exact queued _

/-- A record that management writes leaves what it knows of its oscillator. -/
theorem State.mgmtRec_oscStopped (n a b : Nat) : (s.mgmtRec n a b).mgmt.oscStopped = s.mgmt.oscStopped := by
  have logged (t : State) (h : Nat) (r : ErrRec) : (t.logAppend h r).mgmt.oscStopped = t.mgmt.oscStopped := by
    unfold State.logAppend
    dsimp only
    split <;> split <;> simp [State.fcount]
  have fed (t : State) (l : List ErrRec) : (t.withMgmt { t.mgmt with feed := l }).mgmt.oscStopped = t.mgmt.oscStopped := rfl
  have shown (t : State) (f : Field) (mask : Nat) : (t.evt f 0 0 mask none).mgmt = t.mgmt := by simp
  rw [State.mgmtRec, shown, logged, fed, State.record_oscStopped]

end ManagementRecords

section Random

variable (s : State) {who : Accessor} (hw : who.wf = true)

/-- A draw has 64 bits. -/
theorem State.random_lt (k : Nat) : s.random k < 2 ^ 64 := by
  unfold State.random
  split
  · exact (Config.random64 k).isLt
  · decide

include hw

/-- SEC_RNG_READ of who reaches it answers the next draw (R487). -/
theorem exec_secRngRead_reached (h : s.reaches who SEC_RNG.VALUE 0 0 = true) :
    exec (.secRngRead who) s = .next (s.draw.answer .ok (natLE 8 (s.random s.free))) := by
  change ok who.wf s _ = _
  rw [hw, h]
  rfl

/-- SEC_RNG_READ of who does not reach it answers 0. -/
theorem exec_secRngRead_unreached (h : s.reaches who SEC_RNG.VALUE 0 0 = false) :
    exec (.secRngRead who) s = .next (s.answer .ok (natLE 8 0)) := by
  change ok who.wf s _ = _
  rw [hw, h]
  rfl

end Random

section Challenge

variable (s : State)

/-- Word `i` of the challenge that a read now draws: four draws of 64 bits, the lower half of each first. -/
def State.challengeWord (i : Nat) : Nat := s.random (s.free + i / 2) / 2 ^ (32 * (i % 2)) % 2 ^ 32

/-- The challenge's eight registers take the words now drawn. -/
def State.challengeSet : State :=
  (List.range 8).foldl (fun t i => t.fset MGMT_DBG_CHALLENGE.CHALLENGE 0 i (s.challengeWord i)) s

/-- The state after a read of the challenge's first word: the words stand in their registers, and four draws are gone. -/
def State.challenged : State := (s.challengeSet.withFree (s.free + 4)).answer .ok (natLE 4 (s.challengeWord 0))

/-- Drawing a challenge writes neither memory nor the queue. -/
theorem State.challengeSet_frame : s.challengeSet.mem = s.mem ∧ s.challengeSet.pending = s.pending :=
  keeps_foldl (P := fun t => t.mem = s.mem ∧ t.pending = s.pending) (fun t i ht => by simpa using ht) ⟨rfl, rfl⟩

/-- DEBUG_CHALLENGE_READ of who reaches it (R489). -/
theorem exec_debugChallengeRead_reached {who : Accessor} (hw : who.wf = true)
    (h : s.reaches who MGMT_DBG_CHALLENGE.CHALLENGE 0 0 = true) :
    exec (.debugChallengeRead who) s = .next s.challenged := by
  have kept : s.challenged.pending = s.pending := by simpa [State.challenged] using s.challengeSet_frame.2
  change ok who.wf s _ = _
  rw [hw, if_neg (by simp [h])]
  exact ok_of_pending kept

/-- Registers of the challenge written in turn read what was written last, the others as before. -/
theorem State.fget_challenge_foldl (t : State) (w : Nat → Nat) (n i : Nat) :
    ((List.range n).foldl (fun t i => t.fset MGMT_DBG_CHALLENGE.CHALLENGE 0 i (w i)) t).fget MGMT_DBG_CHALLENGE.CHALLENGE 0 i =
      if i < n then w i % 2 ^ 32 else t.fget MGMT_DBG_CHALLENGE.CHALLENGE 0 i := by
  induction n with
  | zero => rfl
  | succ n ih =>
    rw [List.range_succ, List.foldl_append, List.foldl_cons, List.foldl_nil]
    by_cases h : i = n
    · subst h
      rw [State.fget_fset_same, if_pos (Nat.lt_succ_self i)]
      rfl
    · have apart : MGMT_DBG_CHALLENGE.CHALLENGE.key 0 i ≠ MGMT_DBG_CHALLENGE.CHALLENGE.key 0 n := by
        simp only [Field.key, Field.addr, MGMT_DBG_CHALLENGE.CHALLENGE]
        omega
      rw [State.fget_fset_ne _ apart, ih]
      exact if_congr (by omega) rfl rfl

/-- The challenge's registers hold its eight words. -/
theorem State.fget_challenged {i : Nat} (hi : i < 8) :
    s.challenged.fget MGMT_DBG_CHALLENGE.CHALLENGE 0 i = s.challengeWord i := by
  have same : s.challenged.regs = s.challengeSet.regs := by simp [State.challenged]
  rw [State.fget_congr same, State.challengeSet, State.fget_challenge_foldl, if_pos hi, State.challengeWord, Nat.mod_mod]

/-- Words 2 i and 2 i + 1 of the challenge are the halves of draw i. -/
theorem State.challengeWord_pair (i : Nat) :
    s.challengeWord (2 * i) + 2 ^ 32 * s.challengeWord (2 * i + 1) = s.random (s.free + i) := by
  have bound := s.random_lt (s.free + i)
  have low : s.challengeWord (2 * i) = s.random (s.free + i) % 2 ^ 32 := by
    simp [State.challengeWord]
  have high : s.challengeWord (2 * i + 1) = s.random (s.free + i) / 2 ^ 32 := by
    have half : (2 * i + 1) / 2 = i := by omega
    have odd : (2 * i + 1) % 2 = 1 := by omega
    rw [State.challengeWord, half, odd, Nat.mul_one]
    exact Nat.mod_eq_of_lt (by omega)
  rw [low, high]
  exact Nat.mod_add_div ..

/-- A challenge drawn writes no memory. -/
theorem State.challenged_mem : s.challenged.mem = s.mem := by simpa [State.challenged] using s.challengeSet_frame.1

end Challenge

section Health

variable (s : State) {k : Nat} (h1 : 1 ≤ k) (h3 : k ≤ 3)
include h1 h3

/-- RNG_HEALTH_FAIL of a stopped source changes nothing. -/
theorem exec_rngHealthFail_stopped (h : s.fget SEC_RNG_STATUS.VALID 0 0 = 0) : exec (.rngHealthFail k) s = .next s := by
  change ok (decide (1 ≤ k) && decide (k ≤ 3)) s _ = _
  rw [decide_eq_true h1, decide_eq_true h3, if_pos h]
  exact ok_of_pending rfl

/-- RNG_HEALTH_FAIL stops the source, shows the test and is recorded (R488). -/
theorem exec_rngHealthFail_stops (h : s.fget SEC_RNG_STATUS.VALID 0 0 ≠ 0) :
    ∃ t, exec (.rngHealthFail k) s = .next t ∧ t.fget SEC_RNG_STATUS.VALID 0 0 = 0 ∧
      t.fget SEC_RNG_STATUS.FAILED_TEST 0 0 = k ∧ t.fbit MGMT_EVENT.CAUSE 0 0 3 = true ∧ t.mem = s.mem := by
  have run : exec (.rngHealthFail k) s = .next ((((s.fset SEC_RNG_STATUS.VALID 0 0 0).fset SEC_RNG_STATUS.FAILED_TEST
      0 0 k).mgmtRec 3 k 0).withQueue s.pending) := by
    change ok (decide (1 ≤ k) && decide (k ≤ 3)) s _ = _
    rw [decide_eq_true h1, decide_eq_true h3, if_neg h]
    rfl
  have fits : k % 2 ^ SEC_RNG_STATUS.FAILED_TEST.w = k := Nat.mod_eq_of_lt (show k < 2 ^ 3 by omega)
  refine ⟨_, run, ?_, ?_, ?_, ?_⟩
  · rw [State.fget_withQueue, State.fget_mgmtRec _ _ _ _ (by decide) (by decide) (by decide),
      State.fget_fset_ne _ (by decide), State.fget_fset_same]
    rfl
  · rw [State.fget_withQueue, State.fget_mgmtRec _ _ _ _ (by decide) (by decide) (by decide), State.fget_fset_same, fits]
  · rw [State.fbit, State.fget_withQueue, ← State.fbit, State.mgmtRec_event _ (by decide)]
  · simp only [State.withQueue_frame, State.mgmtRec_mem, State.fset_frame]

end Health

section Calendar

variable (s : State)

/-- RTC_SECONDS_READ of who reaches it answers the seconds and latches the fraction (R490). -/
theorem exec_rtcSecondsRead_reached {who : Accessor} (hw : who.wf = true)
    (h : s.reaches who RTC_SECONDS.SECONDS 0 0 = true) : exec (.rtcSecondsRead who) s =
      .next ((s.fset RTC_FRAC.FRACTION 0 0 (s.calendar % 32768)).answer .ok (natLE 8 (s.calendar / 32768))) := by
  change ok who.wf s _ = _
  rw [hw, h]
  rfl

/-- RTC_SET arms the count for who has privilege and reaches it (R490). -/
theorem exec_rtcSet_arms {who : Accessor} (hw : who.wf = true) (hp : s.privileged who = true)
    (h : s.reaches who RTC_CTL.SET 0 0 = true) : exec (.rtcSet who) s =
      .next (s.withMgmt { s.mgmt with setArmed := some (s.fget RTC_SET_SEC.SECONDS 0 0 % 2 ^ 64) }) := by
  change ok who.wf s _ = _
  rw [hw, hp, h]
  rfl

/-- RTC_SET of who has no privilege changes nothing. -/
theorem exec_rtcSet_unprivileged {who : Accessor} (hw : who.wf = true) (hp : s.privileged who = false) :
    exec (.rtcSet who) s = .next s := by
  change ok who.wf s _ = _
  rw [hw, hp]
  rfl

/-- RTC_SET_APPLY with no count armed changes nothing. -/
theorem exec_rtcSetApply_idle (h : s.mgmt.setArmed = none) : exec .rtcSetApply s = .next s := by
  change ok true s _ = _
  rw [h]
  rfl

/-- RTC_SET_APPLY takes the armed count, with fraction 0 and TIME_INVALID clear (R490, R491). -/
theorem exec_rtcSetApply_takes {v : Nat} (h : s.mgmt.setArmed = some v) :
    ∃ t, exec .rtcSetApply s = .next t ∧ t.calendar = 32768 * v ∧ t.calPhase = 0 ∧ t.mgmt.setArmed = none ∧
      t.fget RTC_CTL.TIME_INVALID 0 0 = 0 := by
  have run : exec .rtcSetApply s = .next ((State.fset (((s.withCalendar (32768 * v)).withCalPhase 0).withMgmt
      { s.mgmt with setArmed := none, oscStopped := false, calLost := false }) RTC_CTL.TIME_INVALID 0 0 0).withQueue
      s.pending) := by
    change ok true s _ = _
    rw [h]
    rfl
  refine ⟨_, run, rfl, rfl, rfl, ?_⟩
  rw [State.fget_withQueue, State.fget_fset_same]
  rfl

/-- RTC_OSC_STOP makes the calendar's time invalid, with a record where management runs (R491). -/
theorem exec_rtcOscStop : ∃ t, exec .rtcOscStop s = .next t ∧ t.fget RTC_CTL.TIME_INVALID 0 0 = 1 ∧
    t.mgmt.oscStopped = true ∧ t.mem = s.mem := by
  refine ⟨_, rfl, ?_⟩
  simp only [State.fget_withQueue, State.withQueue_frame]
  split
  · refine ⟨?_, State.mgmtRec_oscStopped .., State.mgmtRec_mem ..⟩
    rw [State.fget_mgmtRec _ _ _ _ (by decide) (by decide) (by decide), State.fget_fset_same]
    rfl
  · refine ⟨?_, rfl, rfl⟩
    rw [State.fget_fset_same]
    rfl

/-- VBAT_LOW with VAON valid changes nothing. -/
theorem exec_vbatLow_vaon (h : s.boot.vaon = true) : exec .vbatLow s = .next s := by
  change ok true s _ = _
  rw [h]
  rfl

/-- VBAT_LOW without VAON loses the count (R464, R491). -/
theorem exec_vbatLow_lost (h : s.boot.vaon = false) :
    ∃ t, exec .vbatLow s = .next t ∧ t.calendar = 0 ∧ t.fget RTC_CTL.TIME_INVALID 0 0 = 1 := by
  have run : exec .vbatLow s = .next ((State.fset (((s.withCalendar 0).withCalPhase 0).withMgmt
      { s.mgmt with calLost := true }) RTC_CTL.TIME_INVALID 0 0 1).withQueue s.pending) := by
    change ok true s _ = _
    rw [h]
    rfl
  refine ⟨_, run, rfl, ?_⟩
  rw [State.fget_withQueue, State.fget_fset_same]
  rfl

end Calendar

/-- Settles O57: command by command; the ledger's by what the entry, once read, says of the page. -/
theorem randomClockAndLedgerAnswer : Obligations.RandomClockAndLedgerAnswer := by
  unfold Obligations.RandomClockAndLedgerAnswer
  refine ⟨fun s who hw => ?registers, fun s => ?clock, fun s pg th hpg => ?ledger⟩
  case registers =>
    refine ⟨exec_secRngRead_reached s hw, exec_secRngRead_unreached s hw, fun h => ?challenge,
      exec_rtcSecondsRead_reached s hw, exec_rtcSet_arms s hw, exec_rtcSet_unprivileged s hw⟩
    case challenge =>
      refine ⟨_, exec_debugChallengeRead_reached s hw h, rfl, s.challenged_mem,
        ⟨_, rfl, s.fget_challenged (by decide)⟩, fun i hi => ?_⟩
      rw [s.fget_challenged (by omega), s.fget_challenged (by omega), s.challengeWord_pair]
  case clock =>
    exact ⟨fun k h1 h3 => ⟨exec_rngHealthFail_stopped s h1 h3, exec_rngHealthFail_stops s h1 h3⟩, exec_rtcSetApply_idle s,
      fun v => exec_rtcSetApply_takes s, exec_rtcOscStop s, exec_vbatLow_vaon s, exec_vbatLow_lost s⟩
  case ledger =>
    intro u e
    have pinned {t : State} {a : PinAns} (h : s.pin pg = (t, a)) := exec_ledgerPin s hpg th h
    have referred {t : State} {b : Bool} (h : s.ref pg = (t, b)) : exec (.ledgerRef pg) s =
        .next (t.answer (if b then .ok else .refused) []) := by rw [exec_ledgerRef s hpg, h]
    have unpinned {t : State} (h : s.unpin pg = t) : exec (.ledgerUnpin pg) s = .next t := by rw [exec_ledgerUnpin s hpg, h]
    have unreferred {t : State} (h : s.unref pg = t) : exec (.ledgerUnref pg) s = .next t := by
      rw [exec_ledgerUnref s hpg, h]
    refine ⟨fun hclean hm => State.seeLed_clean hclean hm, fun h => ?withheld, fun hb hv => ?read⟩
    case withheld =>
      obtain ⟨hpin, href, hunpin, hunref⟩ := State.ledger_withheld (u := u) rfl h
      exact ⟨pinned hpin, referred href, unpinned hunpin, unreferred hunref⟩
    case read =>
      refine ⟨fun h => pinned (State.pin_dropped rfl rfl hb hv h), fun h hp => pinned (State.pin_held rfl rfl hb hv h hp),
        fun h hp => pinned (State.pin_ok rfl rfl hb hv h hp), fun h => unpinned (State.unpin_none rfl rfl hb hv h),
        fun r h hr => unpinned (State.unpin_hands_on rfl rfl hb hv h hr),
        fun h hr => unpinned (State.unpin_lowers rfl rfl hb hv hr h),
        fun h h0 hr => unpinned (State.unpin_last_unreferenced rfl rfl hb hv hr h h0), ?dropped,
        fun h => referred (State.ref_full rfl rfl hb hv h), fun h => referred (State.ref_ok rfl rfl hb hv h),
        fun h => unreferred (State.unref_none rfl rfl hb hv h), fun h => unreferred (State.unref_lowers rfl rfl hb hv h),
        fun h hp => unreferred (State.unref_last rfl rfl hb hv h hp)⟩
      intro v h h0 hr
      have later : v.dropLater = u.dropLater := State.setLed_dropLater ..
      have last := State.unpin_last_referenced rfl rfl hb hv hr h h0
      refine ⟨fun hf => unpinned (last.trans (State.dropNow_unmarked (by rwa [later]))), fun n p slot l k hf hp hpage => ?_⟩
      rw [← later] at hf ⊢
      exact unpinned (last.trans (State.dropNow_marked hf hp hpage))

end Sys2Proof.Machine
end

section
/-!
SUPPORT. RUN_GRAPH, KV_COPY, KV_DROP, KV_PARK and KV_UNPARK (R178 to R185, R311, R312, R315) of a command whose handles pass, `t`
the state after their check.
-/

namespace Sys2Proof.Machine

/-- A started command that is to be carried out is carried out; the queue is put back. -/
theorem ok_runCmd {s : State} {op p x : Nat} {e : Exec} (hp : slotOk p x = true) (hs : s.Startable op p x e)
    (f : Exec → State) : ok (slotOk p x) s (s.runCmd op p x f) = .next ((f e).withQueue s.pending) := by
  obtain ⟨rfl, hbusy, hstage, hop, hpart, hfree, hhalt⟩ := hs
  rw [hp, ok_true]
  simp [State.runCmd, hbusy, hstage, hop, hpart, hfree, hhalt]

section Sessions

variable {s t : State} {p x : Nat} {e : Exec} (hp : slotOk p x = true) (hh : s.checkHandles p 0 e.handles = (t, none))
include hp hh

section RunGraph

variable (hs : s.Startable 1 p x e) (hr : e.regrow = none) (hl : e.later = [])
include hs hr hl

/-- RUN_GRAPH of a decode graph with a session that has no next token ends with SESSION_STATE (R312, R315). -/
theorem exec_runGraph_noToken (hd : t.commitF p (e.f 16 1 % 16) 0 1 = 1)
    (hn : e.slots.any (fun y => t.srec p y 12 4 == 0xFFFFFFFF) = true) :
    exec (.runGraph p x) s = .next ((t.endPlain p x 0x0F 0).withQueue s.pending) := by
  refine (ok_runCmd hp hs _).trans ?_
  obtain ⟨rfl, -⟩ := hs
  simp only [State.stage2, hr, hl, hh, Option.isSome_none, ne_eq, not_true_eq_false, if_false, Bool.false_eq_true,
    if_pos (And.intro hd hn)]

/-- RUN_GRAPH of another graph with no session parked goes to its reservation (R161, R312). -/
theorem exec_runGraph_reserves (hd : t.commitF p (e.f 16 1 % 16) 0 1 ≠ 1)
    (hn : e.slots.findIdx? (fun y => t.recFlag p y 1) = none) :
    exec (.runGraph p x) s = .next ((t.reserveGo p x).withQueue s.pending) := by
  refine (ok_runCmd hp hs _).trans ?_
  obtain ⟨rfl, -⟩ := hs
  simp only [State.stage2, hr, hl, hh, Option.isSome_none, ne_eq, not_true_eq_false, if_false, Bool.false_eq_true, hd,
    false_and, hn]

end RunGraph

/-- KV_COPY with EMPTY opens an empty session in a slot that is not in use (R178). -/
theorem exec_kvCopy_empty (hs : s.Startable 2 p x e) (he : (e.f 16 1).testBit 0 = true)
    (hi : t.slotIn p (e.f 20 4 % 32768) = true) (hb : t.recBad p (e.f 20 4 % 32768) = false)
    (hu : t.srec p (e.f 20 4 % 32768) 2 1 ≠ 1) :
    let t1 := (t.openRec p (e.f 20 4 % 32768)).setRecFlag p (e.f 20 4 % 32768) 0 ((e.f 16 1).testBit 1)
    exec (.kvCopy p x) s = .next ((t1.endPlain p x 0 (t1.handleOf p (e.f 20 4 % 32768))).withQueue s.pending) := by
  intro t1
  refine (ok_runCmd hp hs _).trans ?_
  simp only [t1, hh, hi, hb, hu, he, Bool.not_true, Bool.false_eq_true, if_false, if_true]

/-- KV_DROP releases the slot, or gives up the session's pages, and ends with their number (R179, R180). -/
theorem exec_kvDrop_drops (hs : s.Startable 3 p x e) {u : State × Nat}
    (hu : (if (e.f 16 1).testBit 0 then t.releaseSlot p (e.f 4 4 % 32768) else t.dropSess p (e.f 4 4 % 32768)) = u) :
    exec (.kvDrop p x) s = .next ((u.1.endPlain p x 0 (min u.2 0xFFFFFFFF)).withQueue s.pending) := by
  subst hu
  refine (ok_runCmd hp hs _).trans ?_
  simp only [hh]

section Park

variable (hs : s.Startable 4 p x e) (hf : t.recFlag p (e.f 4 4 % 32768) 1 = false)
  (hl : e.f 40 8 = 0 ∨ t.imageSize p (e.f 4 4 % 32768) ≤ e.f 40 8) (hk : e.f 16 1 = 0)
include hs hf hl hk

/-- KV_PARK to host memory waits while a page's pin would be held or its channel is not in memory mode (R158, R219). -/
theorem exec_kvPark_waits (hw : (t.presentPages p (e.f 4 4 % 32768)).any (fun y => t.pageWaits y.2.2) = true) :
    exec (.kvPark p x) s = .next (t.withQueue s.pending) := by
  refine (ok_runCmd hp hs _).trans ?_
  have fits : ¬ (e.f 40 8 ≠ 0 ∧ t.imageSize p (e.f 4 4 % 32768) > e.f 40 8) := by omega
  simp only [hh, hf, hk, hw, if_neg fits, Bool.false_eq_true, if_false, if_true]

/-- KV_PARK to host memory writes the image of the pages taken and parks them (R182, R315). -/
theorem exec_kvPark_parks (hw : (t.presentPages p (e.f 4 4 % 32768)).any (fun y => t.pageWaits y.2.2) = false)
    (hi : inHost (e.f 32 8) (t.imageSize p (e.f 4 4 % 32768)) = true)
    (hm : t.engMay p (e.f 32 8) (t.imageSize p (e.f 4 4 % 32768)) .write = true) {t1 : State} {ws : List (Nat × Nat)}
    {absent : Nat} (ht : t.parkTake p (e.f 4 4 % 32768) = (t1, ws, absent)) :
    let t2 := t1.putImage p (e.f 32 8) (t1.parkBytes p ws) (t1.parkHeader p (e.f 4 4 % 32768) ws.length absent)
    exec (.kvPark p x) s = .next (((t2.onExec p x (fun e => { e with written := ws.map Prod.snd })).parkDone p x
      (e.f 4 4 % 32768) (256 + (ws.map (fun (l, _) => t2.pageRec p l)).sum)).withQueue s.pending) := by
  intro t2
  refine (ok_runCmd hp hs _).trans ?_
  have fits : ¬ (e.f 40 8 ≠ 0 ∧ t.imageSize p (e.f 4 4 % 32768) > e.f 40 8) := by omega
  simp only [t2, hh, hf, hk, hw, hi, hm, ht, if_neg fits, Bool.not_true, Bool.false_eq_true, if_false, if_true]

end Park

section Unpark

variable (hs : s.Startable 5 p x e)
include hs

/-- KV_UNPARK of a session that is not parked ends with SESSION_STATE (R315). -/
theorem exec_kvUnpark_unparked (hf : t.recFlag p (e.f 4 4 % 32768) 1 = false) :
    exec (.kvUnpark p x) s = .next ((t.endPlain p x 0x0F 0).withQueue s.pending) := by
  refine (ok_runCmd hp hs _).trans ?_
  simp only [hh, hf, Bool.not_false, if_true]

/-- KV_UNPARK of an image in host memory reads its header from there (R184). -/
theorem exec_kvUnpark_host (hf : t.recFlag p (e.f 4 4 % 32768) 1 = true) (hk : e.f 16 1 = 0) :
    exec (.kvUnpark p x) s = .next ((t.unparkHost p x).withQueue s.pending) := by
  refine (ok_runCmd hp hs _).trans ?_
  simp only [hh, hf, hk, Bool.not_true, Bool.false_eq_true, if_false, if_true]

end Unpark

end Sessions

/-- Settles O18: command by command, by what its session's record and its operands say. -/
theorem sessionCommandsActOnTheirSessions : Obligations.SessionCommandsActOnTheirSessions := by
  unfold Obligations.SessionCommandsActOnTheirSessions
  intro s t p x e hp a b end_ hh
  refine ⟨fun hs hr hl => ⟨exec_runGraph_noToken hp hh hs hr hl, exec_runGraph_reserves hp hh hs hr hl⟩,
    fun hs he hi hb hu => exec_kvCopy_empty hp hh hs he hi hb hu,
    fun hs => ⟨fun hd => exec_kvDrop_drops hp hh hs (by rw [hd]; rfl),
      fun hd => exec_kvDrop_drops hp hh hs (by rw [hd]; rfl)⟩,
    fun hs hf hl hk => ⟨exec_kvPark_waits hp hh hs hf hl hk, fun hw hi hm => ?_⟩,
    fun hs => ⟨exec_kvUnpark_unparked hp hh hs, exec_kvUnpark_host hp hh hs⟩⟩
  exact ⟨_, _, _, rfl, exec_kvPark_parks hp hh hs hf hl hk hw hi hm rfl⟩

end Sys2Proof.Machine
end

section
/-!
SUPPORT. Reads of memory (R264 to R266): a run-ahead read of a bad word leaves no record of that word, but it decodes the
other words it covers like any read, and a correction that finds its class's tally at 64 records TALLY_OVF.
-/

namespace Sys2Proof.Machine

/-- Landing memory of partition 0 in hub 0's last-level memory, whose tally stands at 64: its first word is off by one check
bit, its second is poisoned, and the map admits every request of partition 0. -/
def tallyFull : State :=
  { (((State.reset.fset HUB_LLM_MAP.LANDING0 0 0 1).fset HUB_LLM_MAP.EN0 0 0 1).fsetAt ERR_TALLY.T0 0 0 16 64) with
    prot := [(0, { valid := true, part := 0, rights := 15, src := 31, base := 0, size := 2 ^ 64 })]
    chk := [(0x30000000000, 1), (0x30000000008, secPoison)] }

/-- A run-ahead read of tile 0 of both words. -/
def runAheadOfTwo : Req := ⟨.runAhead 0, 0, 0, 0x30000000000, 16, 0, 0⟩

/-- Hub ingress admits the read, and its second word is bad. -/
theorem runAheadOfTwo_admitted :
    tallyFull.Admitted runAheadOfTwo .read runAheadOfTwo [(0x30000000000, 16)] ∧
      (tallyFull.look 0x30000000000 16).2 = true := by decide +kernel

/-- The correction of its first word overflows the tally, which is recorded (R266). -/
theorem runAheadOfTwo_records : (match exec (.memoryRead runAheadOfTwo []) tallyFull with
    | .next t => decide (t.errQ = tallyFull.errQ)
    | _ => true) = false := by decide +kernel

/-- Refutes O34: a run-ahead read that covers a bad word and a corrected one whose tally stands at 64 records the overflow. -/
theorem not_readsDeliverTheirBytes : ¬ Obligations.ReadsDeliverTheirBytes := by
  unfold Obligations.ReadsDeliverTheirBytes
  intro h
  obtain ⟨hadmitted, hbad⟩ := runAheadOfTwo_admitted
  obtain ⟨hgranule, -⟩ := h tallyFull runAheadOfTwo runAheadOfTwo [(0x30000000000, 16)] (by decide)
  obtain ⟨-, -, -, hrunAhead⟩ := hgranule (by decide) hadmitted rfl
  obtain ⟨t, he, -, herr, -⟩ := hrunAhead ⟨_, List.mem_singleton_self _, hbad⟩ rfl
  have hrec := runAheadOfTwo_records
  rw [he] at hrec
  simp [herr] at hrec

end Sys2Proof.Machine
end

section
/-!
SUPPORT. The host window (R292): a completion stores what it brings at the place its read waits with, and a store of part of a
word that the bank corrects is tallied (R266). A place in host memory has no tally; the statement lets the place be any.
-/

namespace Sys2Proof.Machine

/-- A read of 4 B waits on port 0 under tag 0 with a place in last-level memory, whose word is off by one check bit. -/
def readOutAtLlm : State :=
  { State.reset with hostReads := [⟨0, 0, 0, 0x30000000000, 4, 1, 0⟩], chk := [(0x30000000000, 1)] }

/-- Its completion counts the correction of that word in the registers. -/
theorem readOutAtLlm_counts : (match exec (.hostCompletion 0 0 0 [1, 2, 3, 4]) readOutAtLlm with
    | .next t => decide (t.regs = readOutAtLlm.regs)
    | _ => true) = false := by decide +kernel

/-- Refutes O38: a good completion whose read waits with a place outside host memory can count a correction in the registers. -/
theorem not_hostWindowRequestsWaitForTheirCompletion : ¬ Obligations.HostWindowRequestsWaitForTheirCompletion := by
  unfold Obligations.HostWindowRequestsWaitForTheirCompletion
  rintro ⟨-, hwaiting, -⟩
  obtain ⟨hgood, -, -⟩ := hwaiting readOutAtLlm 0 0 _ (by decide) rfl
  obtain ⟨t, he, -, -, hregs⟩ := hgood [1, 2, 3, 4]
  have hcounts := readOutAtLlm_counts
  rw [he] at hcounts
  simp [hregs] at hcounts

end Sys2Proof.Machine
end

section
/-!
SUPPORT. Raw mode (R279): the START of an operation writes ECC_RAW_CTL before the word is decoded. A window's channel list is
read by index (R196), and with the largest K that HUB_WIN_CTL holds its indices run past the list into the hub's later
registers, so that the write can change a channel's class.
-/

namespace Sys2Proof.Machine

/-- Window 0 of hub 0 is computable and takes 2^13 entries of the channel list: entry 5,184 lies at ECC_RAW_CTL. The raw
registers name the first word of channel 1, which is off by one check bit. -/
def listAtRawCtl : State :=
  { ((((State.reset.fset HUB_WIN_CTL.VALID 0 0 1).fset HUB_WIN_CTL.CLASS 0 0 1).fset HUB_WIN_CTL.K 0 0 13).fset
      ECC_RAW_ADDR.CHANNEL 0 0 1) with
    chk := [(t1At 1 0, 1)] }

/-- Before the operation channel 1 is in no window: a protected channel, whose code corrects the word. -/
theorem listAtRawCtl_corrects :
    listAtRawCtl.rawPlace 0 (261 / 4 % 4) (261 / 16 % 16) = some (t1At 1 0) ∧ verdCode (listAtRawCtl.verd (t1At 1 0)) = 1 := by
  decide +kernel

/-- READ_CORRECTED, whose OP is 1, puts channel 1 into the window: the word is decoded as T1C and reads uncorrectable. -/
theorem listAtRawCtl_readCorrected : (match exec (.readCorrected .mgmt 0 261) listAtRawCtl with
    | .next t => t.fget ECC_RAW_STATUS.RESULT 0 0
    | _ => 0) = 2 := by
  decide +kernel

/-- Refutes O40: a raw read's own register write can change the class of the word it reads. -/
theorem not_sweepsAndRawOperationsAct : ¬ Obligations.SweepsAndRawOperationsAct := by
  unfold Obligations.SweepsAndRawOperationsAct
  rintro ⟨-, hraw⟩
  obtain ⟨-, hplaced, -⟩ := hraw listAtRawCtl .mgmt 0 261 (t1At 1 0)
  obtain ⟨hplace, hverd⟩ := listAtRawCtl_corrects
  obtain ⟨hread, -⟩ := hplaced rfl hplace (by simp [listAtRawCtl, State.reset])
  obtain ⟨t, he, -, hresult, -⟩ := hread _ 1 (.inr ⟨rfl, rfl⟩) (by decide)
  have hread2 := listAtRawCtl_readCorrected
  rw [he] at hread2
  exact absurd (hresult.symm.trans hread2) (by rw [hverd]; decide)

end Sys2Proof.Machine
end

section
/-!
SUPPORT. The hot-bank tally (R206): what the choice of the hot bank returns, and what a tick and a leak write.
-/

namespace Sys2Proof.Machine

section HotBank

/-- One step of the choice: the longer of two waits, the earlier of equal ones. -/
def longerWait (a : Option (Nat × Nat × Nat)) (w : Nat × Nat × Nat) : Option (Nat × Nat × Nat) :=
  match a with
  | some b => if w.2.2 > b.2.2 then some w else some b
  | none => some w

/-- The choice is a fold over the hot banks. -/
theorem hotBank_eq (f : Nat) (ws : List (Nat × Nat × Nat)) :
    hotBank f ws = (ws.filter (fun w => decide (w.2.2 * 256 > f * 1000))).foldl longerWait none := rfl

/-- From a first wait on, the choice is that wait or one of the list, and none of them is longer. -/
theorem foldl_longerWait_some (ws : List (Nat × Nat × Nat)) (b : Nat × Nat × Nat) :
    ∃ w, ws.foldl longerWait (some b) = some w ∧ w ∈ b :: ws ∧ ∀ x ∈ b :: ws, x.2.2 ≤ w.2.2 := by
  induction ws generalizing b with
  | nil => exact ⟨b, rfl, by simp, by simp⟩
  | cons x xs ih =>
    rw [List.foldl_cons]
    by_cases hx : x.2.2 > b.2.2
    · obtain ⟨w, he, hm, hmax⟩ := ih x
      refine ⟨w, by rw [← he]; simp [longerWait, hx], List.mem_cons_of_mem _ hm, ?_⟩
      have hxw := hmax x List.mem_cons_self
      exact List.forall_mem_cons.mpr ⟨by omega, hmax⟩
    · obtain ⟨w, he, hm, hmax⟩ := ih b
      obtain ⟨hbw, hrest⟩ := List.forall_mem_cons.mp hmax
      refine ⟨w, by rw [← he]; simp [longerWait, hx], ?_, List.forall_mem_cons.mpr ⟨hbw, List.forall_mem_cons.mpr
        ⟨by omega, hrest⟩⟩⟩
      exact (List.mem_cons.mp hm).elim (fun h => h ▸ List.mem_cons_self) fun h => by simp [h]

/-- A list's choice is none where the list is empty, and else a longest wait of it. -/
theorem foldl_longerWait_none (ws : List (Nat × Nat × Nat)) : (ws.foldl longerWait none = none ↔ ws = []) ∧
    ∀ w, ws.foldl longerWait none = some w → w ∈ ws ∧ ∀ x ∈ ws, x.2.2 ≤ w.2.2 := by
  cases ws with
  | nil => simp
  | cons b xs =>
    obtain ⟨w, he, hm, hmax⟩ := foldl_longerWait_some xs b
    have hfirst : (b :: xs).foldl longerWait none = some w := he
    rw [hfirst]
    refine ⟨by simp, fun v hv => ?_⟩
    obtain rfl : w = v := Option.some.inj hv
    exact ⟨hm, hmax⟩

/-- No bank is hot just where no wait passes FRAC ÷ 256 of the microsecond. -/
theorem hotBank_eq_none (f : Nat) (ws : List (Nat × Nat × Nat)) : hotBank f ws = none ↔ ∀ w ∈ ws, w.2.2 * 256 ≤ f * 1000 := by
  rw [hotBank_eq, (foldl_longerWait_none _).1]
  simp

/-- The hot bank is one of the banks, hot, and none waited longer: one that is not hot waited less. -/
theorem hotBank_eq_some {f : Nat} {ws : List (Nat × Nat × Nat)} {w : Nat × Nat × Nat} (h : hotBank f ws = some w) :
    w ∈ ws ∧ f * 1000 < w.2.2 * 256 ∧ ∀ x ∈ ws, x.2.2 ≤ w.2.2 := by
  obtain ⟨hm, hmax⟩ := (foldl_longerWait_none _).2 w (hotBank_eq f ws ▸ h)
  obtain ⟨hw, hhot⟩ := List.mem_filter.mp hm
  have hot : f * 1000 < w.2.2 * 256 := by simpa using hhot
  refine ⟨hw, hot, fun x hx => ?_⟩
  by_cases hxhot : f * 1000 < x.2.2 * 256
  · exact hmax x (List.mem_filter.mpr ⟨hx, by simpa using hxhot⟩)
  · omega

end HotBank

/-- What memory accesses and records write lies apart from a hub's registers of the memory block, offsets 0x3000 to 0x3FFF. -/
theorem spared_hubMemField {g : Field} (hb : g.blk = .hub) (h1 : 0x3000 ≤ g.off) (h2 : g.off < 0x4000) (hs : g.stride = 0)
    (hg : g.lo < 64) {h : Nat} (hh : h < 4) (v : Nat) : Spared (fun s => s.fget g h 0 = v) where
  quiet hr ht := (State.fget_congr hr g h 0).trans ht
  write {s f} ht hf sh hl u i _ := by
    refine (State.fget_fsetAt_ne s ?_).trans ht
    have hplace : (f.blk = .hub ∧ f.stride = 0 ∧ (f.off % 0x10000 < 0x3000 ∨ 0x4000 ≤ f.off % 0x10000)) ∨
        0x200000 ≤ (blkBase f.blk).1 := by
      revert hf
      exact (by decide : ∀ f ∈ workFields, (f.blk = .hub ∧ f.stride = 0 ∧ (f.off % 0x10000 < 0x3000 ∨ 0x4000 ≤ f.off % 0x10000)) ∨
        0x200000 ≤ (blkBase f.blk).1) f
    have hgk : g.key h 0 = (0x100000 + h * 0x10000 + g.off) * 64 + g.lo := by simp [Field.key, Field.addr, hb, hs, blkBase]
    rw [hgk]
    rcases hplace with ⟨hfb, hfs, ho⟩ | hfb
    · simp only [Field.key, Field.addr, hfb, hfs, blkBase]
      omega
    · simp only [Field.key, Field.addr]
      omega

/-- Two fields of one register lie at different places. -/
theorem Field.key_ne_of_lo {f g : Field} (hb : f.blk = g.blk) (ho : f.off = g.off) (hs : f.stride = g.stride)
    (hl : f.lo ≠ g.lo) (u i : Nat) : f.key u i ≠ g.key u i := by
  simp only [Field.key, Field.addr, hb, ho, hs]
  omega

/-- Setting a field leaves another field of its register. -/
theorem State.fget_fset_lo (s : State) {f g : Field} (hb : g.blk = f.blk) (ho : g.off = f.off) (hs : g.stride = f.stride)
    (hl : g.lo ≠ f.lo) (u i : Nat) {v : Nat} : (s.fset f u i v).fget g u i = s.fget g u i :=
  State.fget_fset_ne s (Field.key_ne_of_lo hb ho hs hl u i)

section Ticks

variable {s : State} {h : Nat}

/-- The command's meaning. -/
theorem exec_hotbankTick (waits : List (Nat × Nat × Nat)) :
    exec (.hotbankTick h waits) s = execHotbankTick h waits s := rfl

/-- The command's meaning. -/
theorem exec_hotbankLeak : exec (.hotbankLeak h) s = execHotbankLeak h s := rfl

/-- The tick that takes the tally past BUCKET: the bank is reported (R206). -/
def State.reportHot (s : State) (h c b : Nat) : State :=
  ((((s.fset HUB_HOTBANK_STATUS.TALLY h 0 0).fset HUB_HOTBANK_STATUS.CHANNEL h 0 c).fset HUB_HOTBANK_STATUS.BANK h 0 b).evt
    HUB_MEM_EVENT.HOT_BANK h 0 1 none).record h { cause := 0x45, sev := 4, pos := 0xFFFF, info0 := c, info1 := b }

variable (hh : h < 4)
include hh

/-- A tick before its time changes nothing. -/
theorem exec_hotbankTick_early (waits : List (Nat × Nat × Nat)) (hd : s.due (h * 16) 1000 = false) :
    exec (.hotbankTick h waits) s = .next s := by
  simp [exec_hotbankTick, execHotbankTick, hubOk, hh, hd, ok_of_pending]

/-- A microsecond without a hot bank marks its time. -/
theorem exec_hotbankTick_none {waits : List (Nat × Nat × Nat)} (hd : s.due (h * 16) 1000 = true)
    (hot : hotBank (s.fget HUB_HOTBANK_CTL.FRAC h 0) waits = none) :
    exec (.hotbankTick h waits) s = .next (s.ticked (h * 16)) := by
  have hot' : hotBank ((s.ticked (h * 16)).fget HUB_HOTBANK_CTL.FRAC h 0) waits = none := hot
  simp only [exec_hotbankTick, execHotbankTick, hubOk, hh, decide_true, hd, Bool.not_true, Bool.false_eq_true, if_false, hot']
  exact ok_of_pending rfl

section HotBankFound

variable {waits : List (Nat × Nat × Nat)} {c b ns : Nat} (hd : s.due (h * 16) 1000 = true)
  (hot : hotBank (s.fget HUB_HOTBANK_CTL.FRAC h 0) waits = some (c, b, ns))
include hd hot

/-- A microsecond with a hot bank raises the tally within BUCKET. -/
theorem exec_hotbankTick_within
    (hle : s.fget HUB_HOTBANK_STATUS.TALLY h 0 + 1 ≤ max 1 (s.fget HUB_HOTBANK_CTL.BUCKET h 0)) :
    exec (.hotbankTick h waits) s = .next
      ((s.ticked (h * 16)).fset HUB_HOTBANK_STATUS.TALLY h 0 (s.fget HUB_HOTBANK_STATUS.TALLY h 0 + 1)) := by
  have hot' : hotBank ((s.ticked (h * 16)).fget HUB_HOTBANK_CTL.FRAC h 0) waits = some (c, b, ns) := hot
  simp only [exec_hotbankTick, execHotbankTick, hubOk, hh, decide_true, hd, Bool.not_true, Bool.false_eq_true, if_false, hot']
  exact (congrArg (ok true s) (if_neg (Nat.not_lt.mpr hle))).trans (ok_of_pending rfl)

/-- A microsecond with a hot bank reports it when the tally exceeds BUCKET. -/
theorem exec_hotbankTick_past
    (hlt : max 1 (s.fget HUB_HOTBANK_CTL.BUCKET h 0) < s.fget HUB_HOTBANK_STATUS.TALLY h 0 + 1) :
    exec (.hotbankTick h waits) s = .next ((s.ticked (h * 16)).reportHot h c b) := by
  have hot' : hotBank ((s.ticked (h * 16)).fget HUB_HOTBANK_CTL.FRAC h 0) waits = some (c, b, ns) := hot
  simp only [exec_hotbankTick, execHotbankTick, hubOk, hh, decide_true, hd, Bool.not_true, Bool.false_eq_true, if_false, hot']
  refine (congrArg (ok true s) (if_pos hlt)).trans (ok_of_pending ?_)
  simp [State.ticked, State.withTicks]

end HotBankFound

/-- A leak before its time changes nothing. -/
theorem exec_hotbankLeak_early
    (hd : s.due (h * 16 + 1) (max 1 (s.fget HUB_HOTBANK_CTL.LEAK_US h 0) * 1000) = false) :
    exec (.hotbankLeak h) s = .next s := by
  simp [exec_hotbankLeak, execHotbankLeak, hubOk, hh, hd, ok_of_pending]

/-- A leak lowers the tally. -/
theorem exec_hotbankLeak_due
    (hd : s.due (h * 16 + 1) (max 1 (s.fget HUB_HOTBANK_CTL.LEAK_US h 0) * 1000) = true) :
    exec (.hotbankLeak h) s = .next
      ((s.ticked (h * 16 + 1)).fset HUB_HOTBANK_STATUS.TALLY h 0 (s.fget HUB_HOTBANK_STATUS.TALLY h 0 - 1)) := by
  simp only [exec_hotbankLeak, execHotbankLeak, hubOk, hh, decide_true, hd, Bool.not_true, Bool.false_eq_true, if_false]
  exact ok_of_pending rfl

/-- What a report leaves in the hub's registers. -/
theorem State.reportHot_fields {c b : Nat} (hc : c < 192) (hb : b < 32) :
    (s.reportHot h c b).fget HUB_HOTBANK_STATUS.TALLY h 0 = 0 ∧
    (s.reportHot h c b).fget HUB_HOTBANK_STATUS.CHANNEL h 0 = c ∧
    (s.reportHot h c b).fget HUB_HOTBANK_STATUS.BANK h 0 = b ∧
    (s.reportHot h c b).fget HUB_MEM_EVENT.HOT_BANK h 0 = 1 ∧ (s.reportHot h c b).mem = s.mem := by
  have kept {t : State} {g : Field} (hg : g.blk = .hub) (h1 : 0x3000 ≤ g.off) (h2 : g.off < 0x4000) (hs : g.stride = 0)
      (hl : g.lo < 64) (r : ErrRec) : (t.record h r).fget g h 0 = t.fget g h 0 :=
    (spared_hubMemField hg h1 h2 hs hl hh (t.fget g h 0)).record rfl h r
  have apart {t : State} {g : Field} (hg : g.blk = .hub) (ho : g.off = 0x3024) (hs : g.stride = 0) (hl : g.lo < 64) :
      (t.evt HUB_MEM_EVENT.HOT_BANK h 0 1 none).fget g h 0 = t.fget g h 0 :=
    State.fget_evt_ne t (Field.key_ne_of_off hg (by rw [ho]; decide) hs rfl hl (by decide) h 0)
  have status {g : Field} {v : Nat} (hg : g.blk = .hub) (ho : g.off = 0x3024) (hs : g.stride = 0) (hl : g.lo < 64)
      (hv : ((((s.fset HUB_HOTBANK_STATUS.TALLY h 0 0).fset HUB_HOTBANK_STATUS.CHANNEL h 0 c).fset HUB_HOTBANK_STATUS.BANK h 0
        b).fget g h 0) = v) : (s.reportHot h c b).fget g h 0 = v := by
    rw [State.reportHot, kept hg (by rw [ho]; decide) (by rw [ho]; decide) hs hl, apart hg ho hs hl, hv]
  refine ⟨status rfl rfl rfl (by decide) ?_, status rfl rfl rfl (by decide) ?_, status rfl rfl rfl (by decide) ?_, ?_,
    by simp [State.reportHot]⟩
  · rw [State.fget_fset_lo (f := HUB_HOTBANK_STATUS.BANK) (g := HUB_HOTBANK_STATUS.TALLY) _ rfl rfl rfl (by decide),
      State.fget_fset_lo (f := HUB_HOTBANK_STATUS.CHANNEL) (g := HUB_HOTBANK_STATUS.TALLY) _ rfl rfl rfl (by decide),
      State.fget_fset_same, Nat.zero_mod]
  · rw [State.fget_fset_lo (f := HUB_HOTBANK_STATUS.BANK) (g := HUB_HOTBANK_STATUS.CHANNEL) _ rfl rfl rfl (by decide),
      State.fget_fset_same]
    exact Nat.mod_eq_of_lt (a := c) (b := 256) (by omega)
  · rw [State.fget_fset_same]
    exact Nat.mod_eq_of_lt (by simp only [HUB_HOTBANK_STATUS.BANK]; omega)
  · rw [State.reportHot, kept rfl (by decide) (by decide) rfl (by decide), State.fget_evt_same]
    simp [HUB_MEM_EVENT.HOT_BANK]

end Ticks

/-- Setting a field writes its own place in the register file. -/
theorem State.get_fset_ne (s : State) {f : Field} {u i k : Nat} (hk : k ≠ f.key u i) (d v : Nat) :
    Tbl.get d (s.fset f u i v).regs k = Tbl.get d s.regs k := by
  rw [State.fset_regs, Tbl.get_put_ne _ hk]

/-- Settles O39: the choice by induction over the waits, a tick and a leak by what they write. -/
theorem hotBanksAreTalliedAndReported : Obligations.HotBanksAreTalliedAndReported := by
  unfold Obligations.HotBanksAreTalliedAndReported
  refine ⟨fun f ws => ⟨hotBank_eq_none f ws, fun _ => hotBank_eq_some⟩, ?_⟩
  intro s h c b ns waits hh hc hb hot n bucket leak
  refine ⟨exec_hotbankTick_early hh waits, fun hd => ⟨exec_hotbankTick_none hh hd, fun hhot hle hn => ?within,
    fun hhot hlt => ?past⟩, exec_hotbankLeak_early hh, fun hd => ?leaks⟩
  case within =>
    refine ⟨_, exec_hotbankTick_within hh hd hhot hle, ?_, rfl,
      fun d k hk => State.get_fset_ne _ hk d _⟩
    rw [State.fget_fset_same]
    exact Nat.mod_eq_of_lt (a := n + 1) (b := 256) (by omega)
  case past =>
    exact ⟨_, exec_hotbankTick_past hh hd hhot hlt, State.reportHot_fields hh hc hb⟩
  case leaks =>
    exact ⟨_, exec_hotbankLeak_due hh hd, State.fget_fset_same .., rfl, fun d k hk => State.get_fset_ne _ hk d _⟩

end Sys2Proof.Machine
end

section
/-!
SUPPORT. What memory reads after a store of bytes, and after a store of clean words of last-level memory.
-/

namespace Sys2Proof.Machine

section Bytes

/-- A store leaves the bytes outside it. -/
theorem readByte_writeBytes_out (m : Tbl Byte) {k a : Nat} {bs : List Byte} (h : a < k ∨ k + bs.length ≤ a) :
    readByte (writeBytes m k bs) a = readByte m a := by
  induction bs generalizing m k with
  | nil => rfl
  | cons b bs ih =>
    rw [List.length_cons] at h
    rw [writeBytes, ih _ (by omega)]
    exact Tbl.get_put_ne _ (by omega)

/-- What is stored reads back. -/
theorem readBytes_writeBytes (m : Tbl Byte) (k : Nat) (bs : List Byte) : readBytes (writeBytes m k bs) k bs.length = bs := by
  induction bs generalizing m k with
  | nil => rfl
  | cons b bs ih =>
    rw [writeBytes, List.length_cons, readBytes, readByte_writeBytes_out _ (Or.inl (Nat.lt_succ_self k)), ih]
    simp [readByte]

/-- Stores one behind the other are one store. -/
theorem writeBytes_append (m : Tbl Byte) (k : Nat) (as bs : List Byte) :
    writeBytes m k (as ++ bs) = writeBytes (writeBytes m k as) (k + as.length) bs := by
  induction as generalizing m k with
  | nil => rfl
  | cons a as ih =>
    rw [List.cons_append, writeBytes, ih, writeBytes, List.length_cons, Nat.add_right_comm, Nat.add_assoc]

/-- As many bytes are read as are asked for. -/
@[simp] theorem readBytes_length (m : Tbl Byte) (k n : Nat) : (readBytes m k n).length = n := by
  induction n generalizing k with
  | zero => rfl
  | succ n ih => rw [readBytes, List.length_cons, ih]

/-- A number is taken apart into as many bytes as are asked for. -/
@[simp] theorem natLE_length (n v : Nat) : (natLE n v).length = n := by
  induction n generalizing v with
  | zero => rfl
  | succ n ih => rw [natLE, List.length_cons, ih]

end Bytes

section LastLevel

/-- The places of last-level memory are those between tier 1 and the host window's. -/
theorem State.cls_eq_llm (s : State) (k : Nat) : s.cls k = .llm ↔ 0x30000000000 ≤ k ∧ k < 2 ^ 64 := by
  unfold State.cls
  dsimp only
  split_ifs <;> simp <;> omega

/-- The eight words of a 64 B word of last-level memory. -/
theorem wordsOf_llm {k : Nat} (h : k % 8 = 0) : wordsOf .llm k 64 = (List.range 8).map (fun i => k + 8 * i) := by
  have count : (k + 64 - 1) / 8 - k / 8 + 1 = 8 := by omega
  rw [wordsOf, if_neg (by decide), wordOf, show Cls.llm.word = 8 from rfl, count, h]
  simp [Nat.mul_comm]

variable {s : State}

/-- With no merge entry open a store takes none's place. -/
theorem State.supersede_of_no_entry (h : s.merge = []) (k n : Nat) : s.supersede k n = s := by
  rw [State.supersede, h]
  exact congrArg s.withMerge h.symm

/-- With no merge entry open, none of a block closes. -/
theorem State.closeBlock_of_no_entry (h : s.merge = []) (blk : Nat) : s.closeBlock blk = s := by
  simp [State.closeBlock, h]

/-- A correction is tallied of no clean word. -/
theorem State.tallyOnce_clean {w : Nat} (h : s.verd w = .clean) (src : Nat) (p : Option Nat) : s.tallyOnce w src p = s := by
  simp [State.tallyOnce, h]

/-- A clean word of last-level memory stored whole (R263). -/
theorem State.storeWord_llm {w : Nat} (hc : s.cls w = .llm) (hv : s.verd w = .clean) (hm : s.merge = []) {bs : List Byte}
    (hb : bs.length = 8) : s.storeWord w 0 bs false = s.storeClean w bs := by
  have word : s.wordData w = readBytes s.mem w 8 := by simp [State.wordData, hv, hc, Cls.word]
  have all : splice (s.wordData w) 0 bs = bs := by
    rw [word, splice]
    simp [List.take_of_length_le, hb]
  simp [State.storeWord, State.supersede_of_no_entry hm, hc, Cls.word, hb, all]

/-- A clean store sets its word's check difference to 0, and leaves the others'. -/
theorem State.delta_storeClean (s : State) (w v : Nat) (bs : List Byte) :
    (s.storeClean w bs).delta v = if v = w then 0 else s.delta v := by
  split
  · next h => subst h; simp [State.delta, State.storeClean, State.withWbq]
  · next h => simp [State.delta, State.storeClean, State.withWbq, Tbl.get_put_ne _ h]

/-- A clean store writes its word's bytes. -/
theorem State.storeClean_mem (s : State) (w : Nat) (bs : List Byte) : (s.storeClean w bs).mem = writeBytes s.mem w bs := rfl

/-- What a store over whole, clean words of last-level memory leaves: the bytes written, the words clean. -/
theorem State.storeWords_llm (n : Nat) {k fuel : Nat} {bs : List Byte} (hk : k % 8 = 0) (hlo : 0x30000000000 ≤ k)
    (hhi : k + 8 * n ≤ 2 ^ 64) (hlen : bs.length = 8 * n) (hf : n < fuel) (hm : s.merge = [])
    (hv : ∀ i < n, s.verd (k + 8 * i) = .clean) {t : State}
    (ht : (chop 8 fuel k bs).foldl (fun s (w, off, b) => s.storeWord w off b false) s = t) :
    t.mem = writeBytes s.mem k bs ∧ t.regs = s.regs ∧ (∀ w, s.delta w = 0 → t.delta w = 0) ∧
      ∀ i < n, t.delta (k + 8 * i) = 0 := by
  induction n generalizing s k fuel bs with
  | zero =>
    obtain rfl : bs = [] := List.length_eq_zero_iff.mp hlen
    obtain ⟨fuel, rfl⟩ := Nat.exists_eq_succ_of_ne_zero (Nat.ne_of_gt hf)
    subst ht
    exact ⟨rfl, rfl, fun _ h => h, fun i hi => absurd hi (Nat.not_lt_zero i)⟩
  | succ n ih =>
    obtain ⟨fuel, rfl⟩ := Nat.exists_eq_succ_of_ne_zero (Nat.ne_of_gt (Nat.zero_lt_of_lt hf))
    have hne : bs ≠ [] := fun h => by simp [h] at hlen
    have hfirst : (bs.take 8).length = 8 := by rw [List.length_take]; omega
    have hstored : s.storeWord k 0 (bs.take 8) false = s.storeClean k (bs.take 8) :=
      State.storeWord_llm ((s.cls_eq_llm k).mpr (by omega)) (hv 0 (Nat.succ_pos n)) hm hfirst
    rw [chop, if_neg hne] at ht
    simp only [hk, Nat.sub_zero, List.foldl_cons, hstored] at ht
    have clean (i : Nat) (hi : i < n) : (s.storeClean k (bs.take 8)).verd (k + 8 + 8 * i) = .clean := by
      have hc (u : State) : u.cls (k + 8 + 8 * i) = .llm := (u.cls_eq_llm _).mpr (by omega)
      have was := hv (i + 1) (by omega)
      rw [show k + 8 * (i + 1) = k + 8 + 8 * i by omega, State.verd, hc] at was
      rw [State.verd, hc, State.delta_storeClean, if_neg (by omega), was]
    obtain ⟨hmem, hregs, hkept, hdelta⟩ := ih (by omega) (by omega) (by omega) (by rw [List.length_drop]; omega) (by omega)
      (by simpa using hm) clean ht
    refine ⟨?_, by simpa using hregs, fun w hw => hkept w ?_, fun i hi => ?_⟩
    · rw [hmem, State.storeClean_mem]
      conv_rhs => rw [← List.take_append_drop 8 bs, writeBytes_append, hfirst]
    · rw [State.delta_storeClean]; split <;> simp [hw]
    · rcases i with _ | i
      · exact hkept _ (by rw [State.delta_storeClean]; simp)
      · rw [show k + 8 * (i + 1) = k + 8 + 8 * i by omega]
        exact hdelta i (by omega)

end LastLevel

section Reduce

variable {s : State}

/-- A 64 B word's request inside its granule is not split (R198). -/
theorem granules_word {a : Nat} (h : a % 64 = 0) : granules (64 / 512 + 2) a 64 = [(a, 64)] := by
  have inside : min 64 (512 - a % 512) = 64 := by omega
  simp [granules, inside]

/-- A request of one 64 B word that ingress admits is served at its places. -/
theorem State.ingress_admitted {rq r : Req} {right : Right} {ps : List (Nat × Nat)} (ha : rq.addr % 64 = 0) (hl : rq.len = 64)
    (h : s.Admitted rq right r ps) (write : Bool) (data : List Byte) (poisoned : Bool)
    (go : State → Req → List (Nat × Nat) → State) : s.ingress rq write right data poisoned go = go s r ps := by
  obtain ⟨hopen, hroute, hreset, ht0, hplaces, hperm, hheld⟩ := h
  simp [State.ingress, hl, granules_word ha, State.ingress1, hopen, hroute, hreset, ht0, hplaces, hperm, hheld]

/-- The command's meaning. -/
theorem exec_adderReduce (rq : Req) (op ty : Nat) (data : List Byte) :
    exec (.adderReduce rq op ty data) s = execAdderReduce rq op ty data s := rfl

/-- A reduce of one 64 B word is one step of the adder. -/
theorem State.reduceAt_word (src : Nat) (p : Option Nat) (op ty k : Nat) {data : List Byte} (hd : data.length = 64) :
    s.reduceAt src p op ty [(k, 64)] data = s.adderStep src p op ty k data := by
  simp [State.reduceAt, List.take_of_length_le hd.le]

section Word

variable {k op ty : Nat} {data : List Byte} (hc : s.cls k = .llm) (hk : k % 64 = 0) (hm : s.merge = []) (src : Nat)
  (p : Option Nat)

include hc hk hm in
/-- The adder's step on clean words stores the combined elements, clean (R203, R204). -/
theorem State.adderStep_clean (hv : ∀ w ∈ wordsOf .llm k 64, s.verd w = .clean) :
    ∃ t, s.adderStep src p op ty k data = (t, false) ∧
      t.mem = writeBytes s.mem k (natLE 64 (adderWord op ty (leNat (s.look k 64).1) (leNat data))) ∧ t.regs = s.regs ∧
      t.pending = s.pending ∧ ∀ w ∈ wordsOf .llm k 64, t.verd w = .clean := by
  obtain ⟨hlo, hhi⟩ := (s.cls_eq_llm k).mp hc
  have hwords := wordsOf_llm (k := k) (by omega)
  have good : (wordsOf .llm k 64).any s.bad = false := List.any_eq_false.mpr fun w hw => by simp [State.bad, hv w hw]
  have untallied : (wordsOf .llm k 64).foldl (fun t w => t.tallyOnce w src p) s = s :=
    foldl_keeps_mem (· = s) _ _ (fun t w hw ht => by rw [ht, State.tallyOnce_clean (hv w hw)]) s rfl
  obtain ⟨hmem, hregs, -, hdelta⟩ := State.storeWords_llm 8 (by omega) hlo (by omega)
    (natLE_length 64 (adderWord op ty (leNat (s.look k 64).1) (leNat data))) (by decide : 8 < 65) hm
    (fun i hi => hv _ (by rw [hwords]; exact List.mem_map.mpr ⟨i, List.mem_range.mpr hi, rfl⟩)) rfl
  refine ⟨s.store k (natLE 64 (adderWord op ty (leNat (s.look k 64).1) (leNat data))) false, ?_, ?_, ?_,
    State.store_keeps (State.queueIs_opened _ _) s _ _ _ rfl, fun w hw => ?_⟩
  · simp [State.adderStep, State.closeBlock_of_no_entry hm, good, untallied]
  · rw [← hmem, State.store, hc, natLE_length]; rfl
  · rw [← hregs, State.store, hc, natLE_length]; rfl
  · obtain ⟨i, hi, rfl⟩ := List.mem_map.mp (hwords ▸ hw)
    have hi8 := List.mem_range.mp hi
    have hd := hdelta i hi8
    rw [State.verd, (State.cls_eq_llm _ _).mpr (by omega), State.store, hc, natLE_length]
    exact (congrArg secDecode hd).trans (by decide)

include hm in
/-- The adder's step on a bad word is refused and stores nothing (R204). -/
theorem State.adderStep_bad (hb : ∃ w ∈ wordsOf .llm k 64, s.bad w = true) :
    ∃ t, s.adderStep src p op ty k data = (t, true) ∧ t.mem = s.mem ∧ t.pending = s.pending := by
  have bad : (wordsOf .llm k 64).any s.bad = true := List.any_eq_true.mpr hb
  refine ⟨_, by rw [State.adderStep, State.closeBlock_of_no_entry hm]; exact if_pos bad, ?_⟩
  refine keeps_foldl (P := fun t => t.mem = s.mem ∧ t.pending = s.pending)
    (fun t w ht => keeps_ite (P := fun u => u.mem = s.mem ∧ u.pending = s.pending) (by simpa using ht) ht) ?_
  split
  · unfold State.badRecord
    dsimp only
    split <;> simp
  · exact ⟨rfl, rfl⟩

end Word

variable {rq r : Req} {op ty k : Nat} {data : List Byte} (hwf : rq.wf = true) (hd : data.length = rq.len) (hop : op < 3)
  (hty : ty < 4) (ha : rq.addr % 64 = 0) (hl : rq.len = 64)
include hwf hd hop hty ha hl

/-- A reduce outside landing memory is refused at its hub (R203). -/
theorem exec_adderReduce_refused (hopen : s.ingressOpen = true) (hr : s.route rq = some r) (hland : isLanding r.addr = false) :
    exec (.adderReduce rq op ty data) s = .next ((s.evt HUB_MEM_EVENT.ADDER_REFUSED r.hub 0 1 none).answer .busError []) := by
  refine (exec_adderReduce ..).trans ?_
  simp only [execAdderReduce, hwf, hd, hl, ha, hop, hty, hopen, hr, hland]
  exact ok_of_pending (by simp)

/-- A reduce to landing memory that ingress admits is one step of the adder, answered (R203). -/
theorem exec_adderReduce_admitted (hland : isLanding r.addr = true) (hadm : s.Admitted rq .add r [(k, 64)]) {t : State}
    {refused : Bool} (hstep : s.adderStep 11 (some r.part) op ty k data = (t, refused)) (hp : t.pending = s.pending) :
    exec (.adderReduce rq op ty data) s = .next (t.answer (if refused then .busError else .ok) []) := by
  have ⟨hopen, hroute, _⟩ := hadm
  refine (exec_adderReduce ..).trans ?_
  simp only [execAdderReduce, hwf, hd, hl, ha, hop, hty, hopen, hroute, hland, State.ingress_admitted ha hl hadm,
    State.reduceAt_word _ _ _ _ _ (hd.trans hl), hstep]
  exact ok_of_pending (by simpa using hp)

end Reduce

section WriteBack

variable {s : State} {k : Nat}

/-- The command's meaning. -/
theorem exec_correctedWriteBack (s : State) (k : Nat) : exec (.correctedWriteBack k) s = execCorrectedWriteBack k s := rfl

/-- A write-back that is not queued changes nothing. -/
theorem exec_correctedWriteBack_unqueued (hq : s.wbq.contains k = false) : exec (.correctedWriteBack k) s = .next s := by
  rw [exec_correctedWriteBack, execCorrectedWriteBack, hq]
  exact ok_of_pending rfl

/-- A write-back of a word that has gone bad stores nothing (R263). -/
theorem exec_correctedWriteBack_bad (hq : s.wbq.contains k = true) (hb : s.bad k = true) :
    exec (.correctedWriteBack k) s = .next (s.withWbq (s.wbq.filter (· != k))) := by
  rw [exec_correctedWriteBack, execCorrectedWriteBack, hq, hb]
  exact ok_of_pending rfl

/-- A queued write-back stores the word as the decoder corrects it, clean (R265). -/
theorem exec_correctedWriteBack_good (hq : s.wbq.contains k = true) (hb : s.bad k = false) :
    exec (.correctedWriteBack k) s = .next (s.storeClean k (s.wordData k)) := by
  rw [exec_correctedWriteBack, execCorrectedWriteBack, hq, hb]
  exact ok_of_pending rfl

end WriteBack

section MergeEntries

variable {s : State} {h : Nat} (hh : h < 4)

/-- Read-modify-write of a word leaves the open entries (R269). -/
@[simp] theorem State.rmw_merge (s : State) (w off mask data : Nat) (poisoned : Bool) (ws : List (Nat × Nat)) :
    (s.rmw w off mask data poisoned ws).merge = s.merge := by
  unfold State.rmw
  dsimp only
  split_ifs <;> simp

/-- Closing an entry leaves the open ones (R268). -/
theorem State.closeEntry_merge (s : State) (e : MergeEnt) : (s.closeEntry e).merge = s.merge := by
  unfold State.closeEntry
  refine keeps_foldl (P := fun t => t.merge = s.merge) (fun t i ht => ?_) (by simp)
  refine keeps_ite (P := fun t => t.merge = s.merge) ht ?_
  have after (u : State) (k : RespKind) (hu : u.merge = s.merge) : (u.orError k).merge = s.merge :=
    keeps_ite (P := fun t => t.merge = s.merge) (by simpa using hu) hu
  refine after _ _ (keeps_ite (P := fun t => t.merge = s.merge) ?_ ?_)
  · refine keeps_ite (P := fun t => (t.answer .ok []).merge = s.merge) ?_ ?_ <;> simpa using ht
  · simpa using ht

/-- Of a block with an open entry only that entry closes. -/
theorem State.closeBlock_merge {e : MergeEnt} (he : e ∈ s.merge) :
    (s.closeBlock e.blk).merge = s.merge.filter (fun x => x.blk != e.blk) := by
  cases hf : s.merge.find? (fun x => x.blk == e.blk) with
  | none => exact absurd (List.find?_eq_none.mp hf e he) (by simp)
  | some x =>
    simp only [State.closeBlock, hf, State.closeEntry_merge]
    rfl

include hh

/-- Before 256 ns have passed a hub's oldest entry stays open. -/
theorem exec_mergeEntryTimeout_early {e : MergeEnt} (he : s.merge.find? (fun x => x.hub == h) = some e)
    (ht : s.time < e.opened + 256) : exec (.mergeEntryTimeout h) s = .next s := by
  have hno : ¬ s.time ≥ e.opened + 256 := Nat.not_le.mpr ht
  show execMergeEntryTimeout h s = _
  simp only [execMergeEntryTimeout, hubOk, hh, he, hno, decide_true, if_false]
  exact ok_of_pending rfl

/-- 256 ns after it opened, a hub's oldest entry closes. -/
theorem exec_mergeEntryTimeout_due {e : MergeEnt} (he : s.merge.find? (fun x => x.hub == h) = some e)
    (ht : e.opened + 256 ≤ s.time) : exec (.mergeEntryTimeout h) s = .next (s.closeBlock e.blk) := by
  show execMergeEntryTimeout h s = _
  simp only [execMergeEntryTimeout, hubOk, hh, he, ge_iff_le, ht, decide_true, if_true]
  exact ok_of_pending (State.closeBlock_keeps (State.queueIs_opened _ _) s _ rfl)

/-- A hub without an open entry has none to close. -/
theorem exec_mergeEntryTimeout_none (he : s.merge.find? (fun x => x.hub == h) = none) :
    exec (.mergeEntryTimeout h) s = .next s := by
  show execMergeEntryTimeout h s = _
  simp only [execMergeEntryTimeout, hubOk, hh, he, decide_true]
  exact ok_of_pending rfl

end MergeEntries

section TallyLeak

variable {s : State} {h n : Nat} (hh : h < 4) (hn : n < 4)
include hh hn

/-- A leak less than 10 s after the one before changes nothing. -/
theorem exec_tallyLeak_early (hd : s.due (h * 16 + 2 + n) 10000000000 = false) : exec (.tallyLeak h n) s = .next s := by
  show execTallyLeak h n s = _
  simp only [execTallyLeak, hubOk, hh, hn, hd, decide_true, Bool.and_self, Bool.not_false, if_true]
  exact ok_of_pending rfl

/-- A leak lowers its class's tally. -/
theorem exec_tallyLeak_due (hd : s.due (h * 16 + 2 + n) 10000000000 = true) :
    exec (.tallyLeak h n) s = .next ((s.ticked (h * 16 + 2 + n)).fsetAt ERR_TALLY.T0 h 0 (8 * n)
      (s.fgetAt ERR_TALLY.T0 h 0 (8 * n) - 1)) := by
  show execTallyLeak h n s = _
  simp only [execTallyLeak, hubOk, hh, hn, hd, decide_true, Bool.and_self, Bool.not_true, Bool.false_eq_true, if_false]
  exact ok_of_pending rfl

end TallyLeak

/-- Settles O37: a reduce and a write-back by what they store, a timeout and a leak by what closes and what falls. -/
theorem reducesAndQueuedWritesSettle : Obligations.ReducesAndQueuedWritesSettle := by
  unfold Obligations.ReducesAndQueuedWritesSettle
  refine ⟨?reduce, fun s k => ⟨exec_correctedWriteBack_bad, fun hq hb => ?good, exec_correctedWriteBack_unqueued⟩,
    fun s h e hh he => ⟨fun ht => ⟨_, exec_mergeEntryTimeout_due hh he ht, State.closeBlock_merge (List.mem_of_find?_eq_some he)⟩,
      exec_mergeEntryTimeout_early hh he⟩,
    fun s h hh he => exec_mergeEntryTimeout_none hh he,
    fun s h n hh hn => ⟨exec_tallyLeak_early hh hn, fun hd => ⟨_, exec_tallyLeak_due hh hn hd, ?_, rfl, ?_, ?_⟩⟩⟩
  case reduce =>
    intro s rq r op ty k data hwf hd hop hty ha hl hopen
    refine ⟨fun hr hland => exec_adderReduce_refused hwf hd hop hty ha hl hopen hr hland,
      fun hland hadm hk hc hm => ⟨fun hv => ?_, fun hb => ?_⟩⟩
    · obtain ⟨t, hstep, hmem, hregs, hp, hclean⟩ := State.adderStep_clean (op := op) (ty := ty) (data := data) hc hk hm 11
        (some r.part) hv
      have stored := readBytes_writeBytes s.mem k (natLE 64 (adderWord op ty (leNat (s.look k 64).1) (leNat data)))
      rw [natLE_length] at stored
      refine ⟨_, exec_adderReduce_admitted hwf hd hop hty ha hl hland hadm hstep hp, rfl, ?_, hclean, fun a hout => ?_, hregs⟩
      · exact (congrArg (readBytes · k 64) hmem).trans stored
      · exact (congrArg (readByte · a) hmem).trans (readByte_writeBytes_out _ (by rwa [natLE_length]))
    · obtain ⟨t, hstep, hmem, hp⟩ := State.adderStep_bad (op := op) (ty := ty) (data := data) hm 11 (some r.part) hb
      exact ⟨_, exec_adderReduce_admitted hwf hd hop hty ha hl hland hadm hstep hp, rfl, hmem⟩
  case good =>
    refine ⟨_, exec_correctedWriteBack_good hq hb, by rw [State.delta_storeClean, if_pos rfl], ?_,
      readBytes_writeBytes _ _ _, fun a ha => readByte_writeBytes_out _ ha, rfl⟩
    simp [State.storeClean, State.withWbq]
  · exact State.fgetAt_fsetAt_same ..
  · simp [State.fsetAt, State.ticked, State.withTicks]
  · exact fun d k hk => Tbl.get_put_ne _ hk

end Sys2Proof.Machine
end

section
/-!
SUPPORT. The Thapel channels at yield points, unit faults, held accesses that are turned away, and refreshes (R209, R217, R232 to
R238).
-/

namespace Sys2Proof.Machine

section Channels

variable {s t : State} {c : Nat}

/-- A channel reads the same in two states with the same channels. -/
theorem State.chan_congr (h : t.chans = s.chans) (c : Nat) : t.chan c = s.chan c := by simp [State.chan, h]

/-- A changed channel. -/
@[simp] theorem State.chan_onChan (s : State) (c : Nat) (f : Chan → Chan) : (s.onChan c f).chan c = f (s.chan c) := by
  simp [State.chan, State.onChan, Tbl.upd]

/-- An event leaves the channels. -/
@[simp] theorem State.chan_evt (s : State) (f : Field) (u i mask : Nat) (p : Option Nat) (c : Nat) :
    (s.evt f u i mask p).chan c = s.chan c := State.chan_congr (by simp) c

/-- A register field is none of the channels. -/
@[simp] theorem State.chan_fset (s : State) (f : Field) (u i v c : Nat) : (s.fset f u i v).chan c = s.chan c := rfl

/-- A counter is none of the channels. -/
@[simp] theorem State.chan_fcount (s : State) (f : Field) (u i c : Nat) : (s.fcount f u i).chan c = s.chan c := rfl

/-- A record leaves the channels. -/
@[simp] theorem State.chan_record (s : State) (h : Nat) (r : ErrRec) (c : Nat) : (s.record h r).chan c = s.chan c :=
  State.chan_congr (by simp) c

/-- An answer leaves the channels. -/
@[simp] theorem State.chan_answer (s : State) (k : RespKind) (d : List Byte) (c : Nat) : (s.answer k d).chan c = s.chan c := rfl

/-- There are 768 channels, 192 at each hub. -/
theorem chanOk_of_lt (hc : c < 768) : chanOk c = true := by simp [chanOk, hc]

/-- A channel's hub is one of the four. -/
theorem hubOfChan_lt (hc : c < 768) : hubOfChan c < 4 := by simp only [hubOfChan]; omega

end Channels

section YieldPoints

variable {s : State} {c : Nat} {x : Step} (hc : c < 768)
include hc

/-- Outside processor mode there is no yield point. -/
theorem exec_yieldPoint_memory (hm : (s.chan c).mode ≠ .processor) (b : Bool) : exec (.yieldPoint c b) s = .next s := by
  show execYieldPoint c b s = _
  simp only [execYieldPoint, chanOk_of_lt hc, hm, ne_eq, not_false_eq_true, if_true]
  exact ok_of_pending rfl

section Running

variable (hm : (s.chan c).mode = .processor) (hr : (s.chan c).running = some x)
include hm hr

/-- A yield point of a step closed OK frees the channel and goes on (R233). -/
theorem exec_yieldPoint_closed (hs : (s.chan c).closed = some 0) (b : Bool) : exec (.yieldPoint c b) s =
    .next ((s.onChan c (fun k => { k with running := none, closed := none })).yieldTail c) := by
  show execYieldPoint c b s = _
  simp only [execYieldPoint, chanOk_of_lt hc, hm, hr, hs]
  exact ok_of_pending (State.yieldTail_keeps (State.queueIs_opened _ _) _ c rfl)

/-- A yield point of a step that has not closed changes nothing, unless its units' checks failed and a half is free. -/
theorem exec_yieldPoint_open (hs : (s.chan c).closed = none) {b : Bool} (hb : b = false ∨ 2 ≤ (s.chan c).halves.length) :
    exec (.yieldPoint c b) s = .next s := by
  have none : ¬(b = true ∧ (s.chan c).halves.length < 2) := by
    rcases hb with rfl | h
    · simp
    · omega
  show execYieldPoint c b s = _
  simp only [execYieldPoint, chanOk_of_lt hc, hm, hr, hs, none, if_false]
  exact ok_of_pending rfl

/-- The first fault of a step's units: its header takes a half, and the step runs again (R238). -/
theorem exec_yieldPoint_fault (hs : (s.chan c).closed = none) (hh : (s.chan c).halves.length < 2)
    (hf : (s.chan c).retried = false) : exec (.yieldPoint c true) s = .next
      ((((((s.onChan c (fun k => { k with halves := k.halves ++ [s.stepResult x 4] })).evt THAPEL_EVENT.UNIT_FAULT
        (hubOfChan c) 0 1 (some x.part)).onChan c (fun k => { k with retried := true, closed := none })).fcount
        THAPEL_COUNT.UNIT_RETRIES (hubOfChan c) 0).yieldTail c).finishEndings x.part) := by
  have first : (((s.onChan c (fun k => { k with halves := k.halves ++ [s.stepResult x 4] })).evt THAPEL_EVENT.UNIT_FAULT
      (hubOfChan c) 0 1 (some x.part)).chan c).retried = false := by simpa using hf
  show execYieldPoint c true s = _
  simp only [execYieldPoint, chanOk_of_lt hc, hm, hr, hs, hh, and_self, if_true, State.unitFault, first, State.afterStep]
  refine ok_of_pending (State.finishEndings_keeps (State.queueIs_opened _ _) _ _ ?_)
  refine State.yieldTail_keeps (State.queueIs_opened _ _) _ c ?_
  exact State.fcount_keeps (State.queueIs_opened _ _) _ _ _ _ (State.onChan_keeps (State.queueIs_opened _ _) _ _ _
    (State.evt_keeps (State.queueIs_opened _ _) _ _ _ _ _ _ rfl))

omit hm in
/-- A step that has closed does not hang. -/
theorem exec_thapelHang_closed (hs : (s.chan c).closed ≠ none) : exec (.thapelHang c) s = .next s := by
  show execThapelHang c s = _
  simp only [execThapelHang, chanOk_of_lt hc, hr, hs, false_and, and_false, if_false]
  exact ok_of_pending rfl

omit hm in
/-- Before HANG_US has passed no step hangs. -/
theorem exec_thapelHang_early (ht : s.time < (s.chan c).lastYield + s.fget THAPEL_CTL.HANG_US (hubOfChan c) 0 * 1000) :
    exec (.thapelHang c) s = .next s := by
  have early : ¬ s.time ≥ (s.chan c).lastYield + s.fget THAPEL_CTL.HANG_US (hubOfChan c) 0 * 1000 := Nat.not_le.mpr ht
  show execThapelHang c s = _
  simp only [execThapelHang, chanOk_of_lt hc, hr, early, and_false, if_false]
  exact ok_of_pending rfl

/-- The first hang of a step: it counts, refreshes are issued, and the step runs again (R236). -/
theorem exec_thapelHang_first (hs : (s.chan c).closed = none) (hf : (s.chan c).retried = false)
    (ht : (s.chan c).lastYield + s.fget THAPEL_CTL.HANG_US (hubOfChan c) 0 * 1000 ≤ s.time) :
    exec (.thapelHang c) s = .next (((((((s.evt THAPEL_EVENT.HANG (hubOfChan c) 0 1 (some x.part)).onChan c (fun k =>
      { k with due := [], lastYield := s.time })).onChan c (fun k => { k with retried := true, closed := none })).fcount
      THAPEL_COUNT.UNIT_RETRIES (hubOfChan c) 0).startStep c).finishEndings x.part).withQueue s.pending) := by
  have first : (((s.evt THAPEL_EVENT.HANG (hubOfChan c) 0 1 (some x.part)).onChan c (fun k =>
      { k with due := [], lastYield := s.time })).chan c).retried = false := by simpa using hf
  show execThapelHang c s = _
  simp only [execThapelHang, chanOk_of_lt hc, hm, hr, hs, ge_iff_le, ht, and_self, if_true, State.unitFault, first,
    State.afterStep]
  rfl

end Running

end YieldPoints

section Refreshes

variable {s : State} {c : Nat} (hc : c < 768)
include hc

/-- A refresh falls due only when its interval has passed. -/
theorem exec_refresh_early (ht : s.time < (s.chan c).refreshAt) : exec (.refresh c) s = .next s := by
  show execRefresh c s = _
  simp only [execRefresh, chanOk_of_lt hc, ht, if_true]
  exact ok_of_pending rfl

/-- In memory mode a refresh is issued (R217). -/
theorem exec_refresh_memory (ht : (s.chan c).refreshAt ≤ s.time) (hm : (s.chan c).mode ≠ .processor) :
    exec (.refresh c) s = .next (s.onChan c (fun k => { k with refreshAt := s.time + refreshInterval (s.bandOf c) })) := by
  show execRefresh c s = _
  simp only [execRefresh, chanOk_of_lt hc, Nat.not_lt.mpr ht, hm, if_false]
  exact ok_of_pending rfl

/-- In processor mode a refresh waits, with a deadline of eight intervals (R217). -/
theorem exec_refresh_processor (ht : (s.chan c).refreshAt ≤ s.time) (hm : (s.chan c).mode = .processor) :
    exec (.refresh c) s = .next (s.onChan c (fun k => { k with
      refreshAt := s.time + refreshInterval (s.bandOf c)
      due := k.due ++ [s.time + 8 * refreshInterval (s.bandOf c)] })) := by
  show execRefresh c s = _
  simp only [execRefresh, chanOk_of_lt hc, Nat.not_lt.mpr ht, hm, if_false]
  exact ok_of_pending rfl

/-- A refresh's deadline abandons the step that runs: that refresh is issued, the others stay due (R237). -/
theorem exec_refreshAbandon_running {x : Step} (hr : (s.chan c).running = some x) (hs : (s.chan c).closed = none)
    (hd : ∃ d ∈ (s.chan c).due, d ≤ s.time) : exec (.refreshAbandon c) s =
      .next (((s.onChan c (fun k => { k with due := k.due.filter (fun d => decide (s.time < d)) })).evt
        THAPEL_EVENT.REFRESH_ABANDON (hubOfChan c) 0 1 (some x.part)).fcount THAPEL_COUNT.ABANDONS (hubOfChan c) 0) := by
  have met : (s.chan c).due.any (fun t => decide (t ≤ s.time)) = true :=
    List.any_eq_true.mpr (by simpa using hd)
  show execRefreshAbandon c s = _
  simp only [execRefreshAbandon, chanOk_of_lt hc, hr, hs, met, Option.isSome_some, and_self, if_true, Option.map_some]
  exact ok_of_pending (State.fcount_keeps (State.queueIs_opened _ _) _ _ _ _
    (State.evt_keeps (State.queueIs_opened _ _) _ _ _ _ _ _ rfl))

/-- While no deadline is met nothing is abandoned. -/
theorem exec_refreshAbandon_early (hd : ∀ d ∈ (s.chan c).due, s.time < d) : exec (.refreshAbandon c) s = .next s := by
  have unmet : (s.chan c).due.any (fun t => decide (t ≤ s.time)) = false :=
    List.any_eq_false.mpr fun d hm => by simpa using hd d hm
  show execRefreshAbandon c s = _
  simp only [execRefreshAbandon, chanOk_of_lt hc, unmet, Bool.false_eq_true, and_false, if_false]
  exact ok_of_pending rfl

end Refreshes

section ChannelBusy

/-- A held access is turned away: what CHANNEL_BUSY counts, reports and frees before it answers (R234). -/
def State.turnAway (s : State) (c i : Nat) (q : Held) (host : Bool) : State :=
  let u := hubOfChan c
  let s0 := s.fset THAPEL_HELD_MAX.MAX_NS u 0 (min 0xFFFFF (max (s.fget THAPEL_HELD_MAX.MAX_NS u 0) (s.time - q.since)))
  let s1 := ((s0.onChan c (fun k => { k with held := k.held.eraseIdx i })).evt THAPEL_EVENT.CHAN_BUSY u 0 1
    (some q.rq.part)).fcount THAPEL_COUNT2.CHAN_BUSY u 0
  if s1.fget THAPEL_BUSY_REC.VALID u 0 = 1 then s1
  else ((s1.fset THAPEL_BUSY_REC.CHANNEL u 0 (localChan c)).fset THAPEL_BUSY_REC.REQUESTER u 0
    (if host then 1 else 0)).fset THAPEL_BUSY_REC.VALID u 0 1

variable (s : State) (c i : Nat) (q : Held) (host : Bool)

/-- What is turned away is held no more; memory and queue are as they were. -/
theorem State.turnAway_frame : (s.turnAway c i q host).chan c = { s.chan c with held := (s.chan c).held.eraseIdx i } ∧
    (s.turnAway c i q host).mem = s.mem ∧ (s.turnAway c i q host).pending = s.pending := by
  unfold State.turnAway
  dsimp only
  split <;> simp [State.fcount]

/-- CHAN_BUSY is set, and the record of the busy channel is valid. -/
theorem State.turnAway_reports : (s.turnAway c i q host).fget THAPEL_EVENT.CHAN_BUSY (hubOfChan c) 0 = 1 ∧
    (s.turnAway c i q host).fget THAPEL_BUSY_REC.VALID (hubOfChan c) 0 = 1 := by
  have other (f : Field) (t : State) (u v : Nat) (hb : THAPEL_EVENT.CHAN_BUSY.blk = f.blk)
      (ho : THAPEL_EVENT.CHAN_BUSY.off ≠ f.off) (hs : f.stride = 0) (hl : f.lo < 64) :
      (t.fset f u 0 v).fget THAPEL_EVENT.CHAN_BUSY u 0 = t.fget THAPEL_EVENT.CHAN_BUSY u 0 :=
    State.fget_fset_ne t (Field.key_ne_of_off hb ho rfl hs (by decide) hl u 0)
  have counted (t : State) : ((t.evt THAPEL_EVENT.CHAN_BUSY (hubOfChan c) 0 1 (some q.rq.part)).fcount THAPEL_COUNT2.CHAN_BUSY
      (hubOfChan c) 0).fget THAPEL_EVENT.CHAN_BUSY (hubOfChan c) 0 = 1 := by
    rw [State.fcount, other THAPEL_COUNT2.CHAN_BUSY _ _ _ rfl (by decide) rfl (by decide), State.fget_evt_same]
    simp [THAPEL_EVENT.CHAN_BUSY]
  unfold State.turnAway
  dsimp only
  split
  · next h => exact ⟨counted _, h⟩
  · refine ⟨?_, State.fget_fset_same ..⟩
    rw [other THAPEL_BUSY_REC.VALID _ _ _ rfl (by decide) rfl (by decide),
      other THAPEL_BUSY_REC.REQUESTER _ _ _ rfl (by decide) rfl (by decide),
      other THAPEL_BUSY_REC.CHANNEL _ _ _ rfl (by decide) rfl (by decide), counted]

variable {s c i q} (hc : c < 768) (hi : (s.chan c).held[i]? = some q) (hy : q.yard = none) (hw : q.write = false)
include hc hi

/-- A tile's read held for less than 50 us stays held. -/
theorem exec_channelBusy_early (ht : s.time < q.since + 50000) : exec (.channelBusy c i) s = .next s := by
  show execChannelBusy c i s = _
  simp only [execChannelBusy, chanOk_of_lt hc, hi, ht, decide_true, Bool.or_true, if_true]
  exact ok_of_pending rfl

include hy hw

/-- A tile's read held for 50 us is returned channel-busy (R234). -/
theorem exec_channelBusy_tile {j th : Nat} (hs : q.rq.src = .tile j th) (ht : q.since + 50000 ≤ s.time) :
    exec (.channelBusy c i) s = .next ((s.turnAway c i q false).answer .channelBusy []) := by
  obtain ⟨-, -, hp⟩ := s.turnAway_frame c i q false
  show execChannelBusy c i s = _
  simp only [execChannelBusy, chanOk_of_lt hc, hi, hs, hy, hw, decide_eq_false (Nat.not_lt.mpr ht)]
  exact ok_of_pending hp

/-- A host's read held for 50 us is answered with Completer Abort, and recorded (R234). -/
theorem exec_channelBusy_host {port vf : Nat} (hs : q.rq.src = .host port vf) (ht : q.since + 50000 ≤ s.time) :
    exec (.channelBusy c i) s = .next (((s.turnAway c i q true).record (hubOfChan c)
      { cause := 0x0A, sev := 2, src := 4, part := some q.rq.part, unit := c, addr := q.rq.addr, pos := 0xFFFF,
        info0 := s.time - q.since }).answer .abort []) := by
  obtain ⟨-, -, hp⟩ := s.turnAway_frame c i q true
  have kept (r : ErrRec) : (((s.turnAway c i q true).record (hubOfChan c) r).answer .abort []).pending = s.pending := by
    simpa using hp
  show execChannelBusy c i s = _
  simp only [execChannelBusy, chanOk_of_lt hc, hi, hs, hy, hw, decide_eq_false (Nat.not_lt.mpr ht)]
  exact ok_of_pending (kept _)

end ChannelBusy

/-- Settles O42: each command by the mode, the step and the times it finds at its channel. -/
theorem yieldPointsFaultsAndRefreshes : Obligations.YieldPointsFaultsAndRefreshes := by
  unfold Obligations.YieldPointsFaultsAndRefreshes
  intro s c x hc h
  refine ⟨exec_yieldPoint_memory hc, fun hm hr => ⟨exec_yieldPoint_closed hc hm hr,
      fun hs => exec_yieldPoint_open hc hm hr hs (.inl rfl), fun hs hh => exec_yieldPoint_open hc hm hr hs (.inr hh),
      exec_yieldPoint_fault hc hm hr, exec_thapelHang_closed hc hr, exec_thapelHang_first hc hm hr,
      exec_thapelHang_early hc hr⟩,
    fun i q j th hi hs hy hw => ⟨exec_channelBusy_early hc hi, fun ht => ?tile⟩,
    fun i q port vf hi hs hy hw ht => ?host, exec_refresh_early hc,
    fun ht => ⟨exec_refresh_memory hc ht, exec_refresh_processor hc ht⟩,
    exec_refreshAbandon_running hc, exec_refreshAbandon_early hc⟩
  case tile =>
    obtain ⟨hchan, hmem, -⟩ := s.turnAway_frame c i q false
    obtain ⟨hbusy, hvalid⟩ := s.turnAway_reports c i q false
    exact ⟨_, exec_channelBusy_tile hc hi hy hw hs ht, rfl, hchan, hbusy, hvalid, hmem⟩
  case host =>
    obtain ⟨hchan, hmem, -⟩ := s.turnAway_frame c i q true
    exact ⟨_, exec_channelBusy_host hc hi hy hw hs ht, rfl, by simpa using hchan, by simpa using hmem⟩

end Sys2Proof.Machine
end

section
/-!
SUPPORT. What an abort and HOLD leave of the registers below the hubs' (R115, R277, R422), and folds of which one member acts on
what is asked about.
-/

namespace Sys2Proof.Machine

/-- A fold of whose members one, met once, brings about what is asked, and the others neither prevent nor undo it. -/
theorem foldl_once {α β : Type} {P Q : β → Prop} {f : β → α → β} {l : List α} {x : α} (hx : x ∈ l) (hn : l.Nodup)
    (before : ∀ b, ∀ a ∈ l, a ≠ x → P b → P (f b a)) (here : ∀ b, P b → Q (f b x))
    (after : ∀ b, ∀ a ∈ l, a ≠ x → Q b → Q (f b a)) {b : β} (hb : P b) : Q (l.foldl f b) := by
  obtain ⟨l1, l2, rfl⟩ := List.append_of_mem hx
  have apart := List.nodup_middle.mp hn
  obtain ⟨hnot, -⟩ := List.nodup_cons.mp apart
  have ne (a : α) (ha : a ∈ l1 ++ l2) : a ≠ x := fun e => hnot (e ▸ ha)
  rw [List.foldl_append, List.foldl_cons]
  refine foldl_keeps_mem Q f l2 (fun c a ha => after c a (by simp [ha]) (ne a (by simp [ha]))) _ (here _ ?_)
  exact foldl_keeps_mem P f l1 (fun c a ha => before c a (by simp [ha]) (ne a (by simp [ha]))) _ hb

/-- The addresses of the boot, power, package, management, protection, host and fabric blocks (Table 20.1). -/
def lowRegister (a : Nat) : Prop := a < 0x100000

/-- The two states read alike in the registers below the hubs'. -/
def State.LowKept (s t : State) : Prop := State.Alike lowRegister s t

/-- What a tile's or a hub's work writes lies apart from the registers below the hubs'. -/
theorem spared_lowKept (s : State) : Spared s.LowKept where
  quiet hr h := State.Alike.quiet h hr
  write h hf sh hl u i v := by
    refine State.Alike.write h hl (fun ha => ?_) v
    have hle := workFields_key_le hf u i
    simp only [lowRegister, hubKeys, Field.key] at ha hle
    omega

namespace State.LowKept

variable {s t u : State}

/-- A state reads like itself. -/
theorem refl (s : State) : s.LowKept s := State.Alike.refl

variable (h : s.LowKept t)
include h

/-- What writes no register keeps them. -/
theorem quiet (hr : u.regs = t.regs) : s.LowKept u := State.Alike.quiet h hr

/-- A field of the hubs', the tiles', the decks' or the queues' registers is written. -/
theorem fsetAt {f : Field} {sh : Nat} (hl : f.lo + sh < 64) (hf : 0x100000 ≤ (blkBase f.blk).1) (x i v : Nat) :
    s.LowKept (t.fsetAt f x i sh v) := by
  refine State.Alike.write h hl (fun ha => ?_) v
  simp only [lowRegister, Field.addr] at ha
  omega

/-- A field of the hubs', the tiles', the decks' or the queues' registers is set. -/
theorem fset {f : Field} (hl : f.lo < 64) (hf : 0x100000 ≤ (blkBase f.blk).1) (x i v : Nat) : s.LowKept (t.fset f x i v) :=
  h.fsetAt (sh := 0) hl hf x i v

/-- A field below the hubs' reads the same. -/
theorem fget {g : Field} {x i : Nat} (hk : g.key x i < hubKeys) : t.fget g x i = s.fget g x i := by
  refine h.reads g x i 0 ?_
  simp only [lowRegister, hubKeys] at hk ⊢
  omega

/-- Stopped jobs (R115). -/
theorem stopJobs (j l : Nat) : s.LowKept (t.stopJobs j l) := by
  have stopped {v : State} (hv : s.LowKept v) (as : List Nat) : s.LowKept (v.stopArrays j 0 as) := by
    refine keeps_foldl (fun w a hw => ?_) hv
    unfold State.setArr
    split
    · exact (hw.quiet (by simp)).fsetAt (by simp only [TILE_ARRAY_STATUS.A0_STATE]; omega) (by decide) ..
    · exact hw.quiet (by simp)
  refine keeps_foldl (fun v x hv => ?_) h
  obtain ⟨a, b⟩ := x
  have gone : s.LowKept (v.setJob j l a none) := hv.quiet (by simp)
  exact keeps_ite (stopped gone _) gone

/-- Faults of a tile's busy threads (Table 4.12). -/
theorem faultBusy (r : State) (p l : Nat) (i : Inst) (j : Nat) : s.LowKept (r.faultBusy t p l i j) := by
  refine keeps_ite h (keeps_foldl (fun v k hv => ?_) h)
  split
  · exact (spared_lowKept s).seqFault hv ..
  · exact hv

/-- A tile that stops its part of an instance (R115). -/
theorem stopTile (p l : Nat) (i : Inst) (j : Nat) : s.LowKept (t.stopTile p l i j) := by
  have orphaned := (State.orphanAll_kept (t := t.faultBusy (t.stopJobs j l) p l i j) l j).1
  rw [State.stopTile_eq]
  exact fset (quiet (faultBusy (h.stopJobs j l) ..) (by simpa using orphaned)) (by decide) (by decide) ..

/-- Cancelled page steps (R222). -/
theorem cancelSteps (p l : Nat) (js : List Nat) : s.LowKept (t.cancelSteps p l js) :=
  keeps_foldl (fun _ _ hu => keeps_foldl (fun _ _ hv => (spared_lowKept s).attnDrop hv ..) hu) (h.quiet (by rfl))

/-- An aborted instance (R115). -/
theorem abortInst (p l : Nat) : s.LowKept (t.abortInst p l) := by
  unfold State.abortInst
  refine quiet (t := List.foldl _ _ _) (keeps_foldl (fun v j hv => ?_) (h.cancelSteps p l _)) (by rfl)
  exact fset (f := TILE_SEQ_EVENT.ABORTED) (hv.stopTile p l _ j) (by decide) (by decide) j 0 1

/-- All work stops (R277). -/
theorem stopWork : s.LowKept t.stopWork := by
  unfold State.stopWork
  refine quiet (t := List.foldl _ _ _) (keeps_foldl (fun v x hv => ?_) h) (by rfl)
  exact keeps_foldl (fun w y hw => keeps_ite (hw.abortInst x.1 y.1) hw) hv

/-- The tiles go to Off (Table 17.6). -/
theorem tilesOff : s.LowKept t.tilesOff := by
  obtain ⟨hregs, -⟩ := State.tilesOff_keeps (within_opened _ t) t (.refl _ t) .registers (by decide)
  exact h.quiet hregs.symm

end State.LowKept

section Hold

variable (s : State)

/-- The boot state is no register. -/
theorem State.fget_withBoot (b : Boot) (f : Field) (u i : Nat) : (s.withBoot b).fget f u i = s.fget f u i := rfl

/-- PF0's privilege that takes a value leaves the registers below the hubs' but for HIF_PRIV and what its record writes
(R479, R482). -/
theorem State.fget_setPriv (v why : Nat) {g : Field} {u i : Nat} (hlow : g.key u i < hubKeys)
    (hl : g.key u i ≠ MGMT_LOG_STATUS.LOST.key 0 0) (he : g.key u i ≠ MGMT_EVENT.CAUSE.key 0 0)
    (h0 : g.key u i ≠ HIF_PRIV.PRIV.key 0 0) (h1 : g.key u i ≠ HIF_PRIV.PRIV.key 1 0) :
    (s.setPriv v why).fget g u i = s.fget g u i := by
  unfold State.setPriv State.setPriv1
  split_ifs
  · rfl
  · rw [State.fget_mgmtRec _ _ _ _ hlow hl he, State.fget_fset_ne _ h1]
  · rw [State.fget_mgmtRec _ _ _ _ hlow hl he, State.fget_fset_ne _ h1, State.fget_fset_ne _ h0]

/-- HOLD leaves the registers below the hubs' but for BOOT_STATUS, HIF_PRIV and what the record of PF0's privilege writes. -/
theorem State.fget_enterHold (cause : Nat) {g : Field} {u i : Nat} (hb : 64 ≤ g.key u i) (hlow : g.key u i < hubKeys)
    (hl : g.key u i ≠ MGMT_LOG_STATUS.LOST.key 0 0) (he : g.key u i ≠ MGMT_EVENT.CAUSE.key 0 0)
    (h0 : g.key u i ≠ HIF_PRIV.PRIV.key 0 0) (h1 : g.key u i ≠ HIF_PRIV.PRIV.key 1 0) :
    (s.enterHold cause).fget g u i = s.fget g u i := by
  have stopped : s.stopWork.tilesOff.fget g u i = s.fget g u i :=
    (State.LowKept.refl s).stopWork.tilesOff.fget hlow
  have apart (f : Field) (hf : f.key 0 0 < 64) (t : State) (v : Nat) : (t.fset f 0 0 v).fget g u i = t.fget g u i :=
    State.fget_fset_ne t (by omega)
  have shown (b : Boot) : ((((s.stopWork.tilesOff.fset BOOT_STATUS.PHASE 0 0 15).fset BOOT_STATUS.CAUSE 0 0 cause).fset
      BOOT_STATUS.WLOAD 0 0 0).withBoot b).fget g u i = s.fget g u i := by
    rw [State.fget_withBoot, apart _ (by decide), apart _ (by decide), apart _ (by decide), stopped]
  unfold State.enterHold
  dsimp only
  split
  · rw [State.fget_setPriv _ _ _ hlow hl he h0 h1]
    exact shown _
  · exact shown _

/-- BOOT_STATUS of a part in HOLD. -/
theorem State.fget_holdStatus (t : State) (cause : Nat) (b : Boot) :
    let u := (((t.fset BOOT_STATUS.PHASE 0 0 15).fset BOOT_STATUS.CAUSE 0 0 cause).fset BOOT_STATUS.WLOAD 0 0 0).withBoot b
    u.fget BOOT_STATUS.PHASE 0 0 = 15 ∧ u.fget BOOT_STATUS.CAUSE 0 0 = cause % 256 := by
  refine ⟨?_, ?_⟩
  · rw [State.fget_withBoot,
      State.fget_fset_lo (f := BOOT_STATUS.WLOAD) (g := BOOT_STATUS.PHASE) _ rfl rfl rfl (by decide),
      State.fget_fset_lo (f := BOOT_STATUS.CAUSE) (g := BOOT_STATUS.PHASE) _ rfl rfl rfl (by decide), State.fget_fset_same]
    rfl
  · rw [State.fget_withBoot,
      State.fget_fset_lo (f := BOOT_STATUS.WLOAD) (g := BOOT_STATUS.CAUSE) _ rfl rfl rfl (by decide), State.fget_fset_same]
    rfl

/-- A value that PF0's privilege takes leaves BOOT_STATUS, and the part as halted as it was. -/
theorem State.setPriv_boot (v why : Nat) : (s.setPriv v why).fget BOOT_STATUS.PHASE 0 0 = s.fget BOOT_STATUS.PHASE 0 0 ∧
    (s.setPriv v why).fget BOOT_STATUS.CAUSE 0 0 = s.fget BOOT_STATUS.CAUSE 0 0 ∧
    (s.setPriv v why).halted = s.halted ∧ (s.setPriv v why).pkg = s.pkg := by
  have kept := State.setPriv_keeps (within_opened _ s) s v why (.refl _ s)
  obtain ⟨-, -, -, -, halted⟩ := kept .boot (by decide)
  exact ⟨s.fget_setPriv v why (by decide) (by decide) (by decide) (by decide) (by decide),
    s.fget_setPriv v why (by decide) (by decide) (by decide) (by decide) (by decide), halted.symm,
    (kept .package (by decide)).symm⟩

/-- HOLD shows its cause, and leaves whether the part is halted, and the package (R422). -/
theorem State.enterHold_shows (cause : Nat) : (s.enterHold cause).fget BOOT_STATUS.PHASE 0 0 = 15 ∧
    (s.enterHold cause).fget BOOT_STATUS.CAUSE 0 0 = cause % 256 ∧ (s.enterHold cause).halted = s.halted ∧
    (s.enterHold cause).pkg = s.pkg := by
  have stopped := State.stopWork_keeps (within_opened _ s) s (.refl _ s)
  obtain ⟨-, -, -, -, hhalted⟩ := State.tilesOff_keeps ((within_opened _ s).mono (by decide)) _ stopped .boot (by decide)
  have hpkg := State.tilesOff_keeps ((within_opened _ s).mono (by decide)) _ stopped .package (by decide)
  unfold State.enterHold
  dsimp only
  generalize s.stopWork.tilesOff = w at hhalted hpkg ⊢
  generalize hb : ({ State.boot _ with inReset := false, accept := false, restarting := false } : Boot) = b
  obtain ⟨phase, shown⟩ := State.fget_holdStatus w cause b
  split
  · obtain ⟨samePhase, sameCause, sameHalted, samePkg⟩ := State.setPriv_boot
      ((((w.fset BOOT_STATUS.PHASE 0 0 15).fset BOOT_STATUS.CAUSE 0 0 cause).fset BOOT_STATUS.WLOAD 0 0 0).withBoot b) 1 2
    exact ⟨samePhase.trans phase, sameCause.trans shown, sameHalted.trans hhalted.symm, samePkg.trans hpkg.symm⟩
  · exact ⟨phase, shown, hhalted.symm, hpkg.symm⟩

end Hold

end Sys2Proof.Machine
end

section
/-!
SUPPORT. The trip, its release by a part reset, the stack cap's steps and the warning of a domain (R428 to R432).
-/

namespace Sys2Proof.Machine

/-- Reading a table of which the entries of some keys are kept. -/
theorem Tbl.get_filter_key {α : Type} {d : α} (t : Tbl α) (q : Nat → Bool) (k : Nat) :
    Tbl.get d (t.filter (fun e => q e.1)) k = if q k then Tbl.get d t k else d := by
  induction t with
  | nil => simp [Tbl.get]
  | cons x t ih =>
    obtain ⟨b, w⟩ := x
    by_cases hb : b = k
    · subst hb
      cases hq : q b <;> simp [Tbl.get, hq] at ih ⊢
      exact ih
    · cases hq : q b <;> simp [Tbl.get, hq, hb, ih]

/-- A bit that is set or cleared reads so. -/
theorem testBit_setBit_same (v n : Nat) (b : Bool) : (setBit v n b).testBit n = b := by
  have pos : 0 < 2 ^ n := Nat.two_pow_pos n
  unfold setBit
  split_ifs with hv hb hb
  · rw [hv, hb]
  · have h1 : v / 2 ^ n % 2 = 1 := by simpa [Nat.testBit_eq_decide_div_mod_eq] using hv
    have h2 : (v - 2 ^ n) / 2 ^ n = v / 2 ^ n - 1 := by simpa using Nat.sub_mul_div v (2 ^ n) 1
    rw [Nat.testBit_eq_decide_div_mod_eq, h2]
    simp_all
    omega
  · have h1 : v / 2 ^ n % 2 = 0 := by simpa [Nat.testBit_eq_decide_div_mod_eq] using hv
    rw [Nat.testBit_eq_decide_div_mod_eq, Nat.add_div_right _ pos]
    simp_all
    omega
  · simp_all

section PartReset

variable (s : State)

/-- The place lies in a register that a part reset keeps (R403). -/
def keptPlace (k : Nat) : Bool :=
  match regAt (k / 64) with
  | some (d, _, _) => d.owner == .vaon || d.owner == .vbat || d.owner == .flrPf0
  | none => false

/-- A part reset keeps the entries of those places. -/
theorem State.keptRegs_eq : s.keptRegs = s.regs.filter (fun e => keptPlace e.1) := by
  refine List.filter_congr fun e _ => ?_
  rcases h : regAt (e.1 / 64) with _ | ⟨d, u, i⟩
  all_goals simp only [keptPlace, h]

/-- A register that reads 0 and is 0 at reset reads 0 in what a part reset keeps (R403). -/
theorem State.keptRegs_zero {k : Nat} (h : Tbl.get 0 s.regs k = 0) : Tbl.get 0 s.keptRegs k = 0 := by
  rw [State.keptRegs_eq, Tbl.get_filter_key, h, ite_self]

/-- A field apart from BOOT_STATUS that reads 0, and is 0 at reset, reads 0 after a part reset. -/
theorem State.fget_partReset_zero {g : Field} {u i : Nat} (hk : 64 ≤ g.key u i) (hr : g.rst = 0) (h : s.fget g u i = 0) :
    s.partReset.fget g u i = 0 := by
  have apart (f : Field) (hf : f.key 0 0 < 64) (t : State) (v : Nat) : (t.fset f 0 0 v).fget g u i = t.fget g u i :=
    State.fget_fset_ne t (by omega)
  have kept : Tbl.get 0 s.keptRegs (g.key u i) = 0 := s.keptRegs_zero (by rwa [State.fget, hr] at h)
  unfold State.partReset
  split
  · exact h
  · dsimp only
    rw [apart _ (by decide), apart _ (by decide), apart _ (by decide), State.toPhase, State.fget_withBoot,
      apart _ (by decide)]
    exact (congrArg (fun d => Tbl.get d s.keptRegs (g.key u i)) hr).trans kept

/-- A part reset leaves the trip's latch and memory; one that takes effect runs phase 2 (R403). -/
theorem State.partReset_shows : s.partReset.pkg.trip = s.pkg.trip ∧ s.partReset.mem = s.mem ∧
    (s.boot.vaon = true → s.boot.inReset = false → s.partReset.phase = 2 ∧ s.partReset.boot.inReset = true) := by
  unfold State.partReset
  split
  · next h => exact ⟨rfl, rfl, fun hv hi => by simp [hv, hi] at h⟩
  · refine ⟨rfl, rfl, fun _ _ => ⟨?_, rfl⟩⟩
    dsimp only
    rw [State.phase, State.fget_fset_lo (f := BOOT_STATUS.WLOAD) (g := BOOT_STATUS.PHASE) _ rfl rfl rfl (by decide),
      State.fget_fset_lo (f := BOOT_STATUS.SECTION) (g := BOOT_STATUS.PHASE) _ rfl rfl rfl (by decide),
      State.fget_fset_lo (f := BOOT_STATUS.CAUSE) (g := BOOT_STATUS.PHASE) _ rfl rfl rfl (by decide), State.toPhase,
      State.fget_withBoot, State.fget_fset_same]
    rfl

end PartReset

section TripRelease

variable {s : State} {who : Accessor} (hw : who.wf = true)

/-- The trip may be released (R432): the accessor's rights, a latched trip, coolant that flows, and every domain cool. -/
def State.mayRelease (s : State) (who : Accessor) : Prop :=
  s.privileged who = true ∧ s.reaches who PWR_TRIP.RELEASE 0 0 = true ∧ s.fget PWR_TRIP.LATCHED 0 0 ≠ 0 ∧
    s.power.flowStop = false ∧ ∀ d, d < 60 → s.domainTemp d < warnAt d - hysteresis d

/-- What the command tests is whether the trip may be released. -/
theorem State.releaseTest_iff (s : State) (who : Accessor) :
    (!s.privileged who || !s.reaches who PWR_TRIP.RELEASE 0 0 || s.fget PWR_TRIP.LATCHED 0 0 == 0 || s.power.flowStop ||
      !(List.range 60).all (fun d => s.below d (warnAt d))) = false ↔ s.mayRelease who := by
  simp [State.mayRelease, State.below, and_assoc]

/-- A released trip: the latch is empty, the supply is on again (R432, R458). -/
def State.released (s : State) : State :=
  let s1 := ((s.fset PWR_TRIP.CAUSE 0 0 0).fset PWR_TRIP.SENSOR 0 0 0).fset PWR_TRIP.LATCHED 0 0 0
  let s2 := if s.pkg.trip then s1.fbitSet PKG_SEQ.EN 0 0 3 true else s1
  s2.withPkg { s2.pkg with trip := false }

/-- The latch of a released trip is empty, and memory and boot are as they were. -/
theorem State.released_fields (s : State) : s.released.fget PWR_TRIP.LATCHED 0 0 = 0 ∧
    s.released.fget PWR_TRIP.CAUSE 0 0 = 0 ∧ s.released.pkg.trip = false ∧ s.released.mem = s.mem ∧
    s.released.boot = s.boot ∧ s.released.pending = s.pending := by
  have on (t : State) (g : Field) (hg : g.key 0 0 ≠ PKG_SEQ.EN.key 0 0) :
      (t.fbitSet PKG_SEQ.EN 0 0 3 true).fget g 0 0 = t.fget g 0 0 := State.fget_fset_ne t hg
  have packaged (t : State) (g : Field) (p : Pkg) : (t.withPkg p).fget g 0 0 = t.fget g 0 0 := rfl
  have cause (t : State) : (((t.fset PWR_TRIP.CAUSE 0 0 0).fset PWR_TRIP.SENSOR 0 0 0).fset PWR_TRIP.LATCHED 0 0 0).fget
      PWR_TRIP.CAUSE 0 0 = 0 := by
    rw [State.fget_fset_lo (f := PWR_TRIP.LATCHED) (g := PWR_TRIP.CAUSE) _ rfl rfl rfl (by decide),
      State.fget_fset_lo (f := PWR_TRIP.SENSOR) (g := PWR_TRIP.CAUSE) _ rfl rfl rfl (by decide), State.fget_fset_same]
    rfl
  unfold State.released
  dsimp only
  rw [packaged, packaged]
  split
  · rw [on _ _ (by decide), on _ _ (by decide), State.fget_fset_same, cause]
    exact ⟨rfl, rfl, rfl, rfl, rfl, rfl⟩
  · rw [State.fget_fset_same, cause]
    exact ⟨rfl, rfl, rfl, rfl, rfl, rfl⟩

include hw

/-- TRIP_RELEASE that is not accepted changes nothing. -/
theorem exec_tripRelease_refused (h : ¬ s.mayRelease who) : exec (.tripRelease who) s = .next s := by
  have test : _ = true := Bool.not_eq_false _ ▸ mt (s.releaseTest_iff who).mp h
  show execTripRelease who s = _
  rw [execTripRelease, hw, if_pos test]
  exact ok_of_pending rfl

/-- TRIP_RELEASE that is accepted starts a part reset. -/
theorem exec_tripRelease_accepted (h : s.mayRelease who) : exec (.tripRelease who) s =
    .next ((s.released.partReset.withPkg { s.released.partReset.pkg with enAt := s.released.partReset.time }).withQueue
      s.pending) := by
  have test := (s.releaseTest_iff who).mpr h
  show execTripRelease who s = _
  rw [execTripRelease, hw, if_neg (by rw [test]; decide)]
  rfl

end TripRelease

/-- The domain is released: what TRIP_RELEASE leaves when it is accepted. -/
theorem State.released_reset (s : State) {t : State}
    (ht : t = (s.released.partReset.withPkg { s.released.partReset.pkg with enAt := s.released.partReset.time }).withQueue
      s.pending) : t.pkg.trip = false ∧ t.fget PWR_TRIP.LATCHED 0 0 = 0 ∧ t.fget PWR_TRIP.CAUSE 0 0 = 0 ∧ t.mem = s.mem ∧
      (s.boot.vaon = true → s.boot.inReset = false → t.phase = 2 ∧ t.boot.inReset = true) := by
  subst ht
  obtain ⟨latched, cause, trip, mem, boot, -⟩ := s.released_fields
  obtain ⟨hpkg, hmem, hphase⟩ := s.released.partReset_shows
  rw [boot] at hphase
  exact ⟨hpkg.trans trip, s.released.fget_partReset_zero (by decide) rfl latched,
    s.released.fget_partReset_zero (by decide) rfl cause, hmem.trans mem, hphase⟩

section DomainRecords

variable (s : State) (cause sev n : Nat) (x : Int)

/-- The record of a domain leaves the registers below the hubs' (R447). -/
theorem State.domainRec_low : s.LowKept (s.domainRec cause sev n x) := by
  have drawn : s.LowKept s.draw := State.LowKept.quiet (.refl s) rfl
  rw [State.domainRec, State.powerRec]
  exact (spared_lowKept s).record drawn ..

/-- The record of a domain leaves power manager, package, memory, boot and queue. -/
@[simp] theorem State.domainRec_frame : (s.domainRec cause sev n x).power = s.power ∧
    (s.domainRec cause sev n x).pkg = s.pkg ∧ (s.domainRec cause sev n x).mem = s.mem ∧
    (s.domainRec cause sev n x).boot = s.boot ∧ (s.domainRec cause sev n x).pending = s.pending := by
  simp [State.domainRec, State.powerRec]

end DomainRecords

section Warning

/-- A hot spot's domain warns (R429). -/
def State.warn (s : State) (k : Nat) : State :=
  ((((s.onPower (fun w => { w with warned := w.warned ++ [spotDomain k] })).evt PWR_EVENT.WARN 0 0 1 none).domainRec 0x60 4
    (s.spotSensor k) (s.spot k).value)).alert

/-- What a warning leaves: the domain in the list, the event, THERM_ALERT_N. -/
theorem State.warn_fields (s : State) (k : Nat) : (s.warn k).power.warned = s.power.warned ++ [spotDomain k] ∧
    (s.warn k).fget PWR_EVENT.WARN 0 0 = 1 ∧ (s.warn k).pkg.alert = true ∧ (s.warn k).mem = s.mem ∧
    (s.warn k).pending = s.pending := by
  have alerted (t : State) : t.alert.fget PWR_EVENT.WARN 0 0 = t.fget PWR_EVENT.WARN 0 0 := rfl
  refine ⟨?_, ?_, ?_, ?_, ?_⟩
  · simp [State.warn, State.alert, State.onPower]
  · rw [State.warn, alerted, (State.domainRec_low ..).fget (by decide), State.fget_evt_same]
    simp [PWR_EVENT.WARN]
  · simp [State.warn, State.alert, State.onPower, State.withPkg]
  · simp [State.warn, State.alert, State.onPower]
  · simp [State.warn, State.alert, State.onPower]

variable {s : State} {k : Nat} (hk : k < 376)
include hk

/-- A hot spot at its warning threshold warns its domain once. -/
theorem exec_thermalWarning_warns (ha : s.boot.ao = true) (hw : s.power.warned.contains (spotDomain k) = false)
    (hv : warnAt (spotDomain k) ≤ (s.spot k).value) : exec (.thermalWarning k) s = .next (s.warn k) := by
  have test : (!s.boot.ao || s.power.warned.contains (spotDomain k) ||
      decide ((s.spot k).value < warnAt (spotDomain k))) = false := by
    rw [ha, hw, decide_eq_false (Int.not_lt.mpr hv)]
    rfl
  show execThermalWarning k s = _
  rw [execThermalWarning, decide_eq_true hk, if_neg (by rw [test]; decide)]
  exact ok_of_pending (s.warn_fields k).2.2.2.2

/-- A domain that has warned, or is below its threshold, does not warn. -/
theorem exec_thermalWarning_quiet (h : s.power.warned.contains (spotDomain k) = true ∨ (s.spot k).value < warnAt (spotDomain k)) :
    exec (.thermalWarning k) s = .next s := by
  have test : (!s.boot.ao || s.power.warned.contains (spotDomain k) ||
      decide ((s.spot k).value < warnAt (spotDomain k))) = true := by
    rcases h with h | h
    · rw [h, Bool.or_true, Bool.true_or]
    · rw [decide_eq_true h, Bool.or_true]
  show execThermalWarning k s = _
  rw [execThermalWarning, decide_eq_true hk, if_pos test]
  exact ok_of_pending rfl

end Warning

section CapStep

variable {s : State} {k : Nat} (hk : k < 24)

/-- The cap that a step leaves a stack (R431, R435). -/
def State.nextCap (s : State) (k : Nat) : Nat :=
  let c := s.fget PWR_STK_CAP.CAP 0 k
  let mode := if s.fget PWR_MODE.MODE 0 0 = 2 then 189 else 0
  if s.fget PWR_STK_CAP.THROTTLED 0 k = 1 then
    (if s.power.throttled.any (fun d => (throttleStacks d).contains k && decide (s.domainTemp d ≥ throttleAt d)) then
      max 95 (c - 5) else c)
  else if c = 0 ∨ c = 189 then mode
  else if 8 * (c + 5) ≥ bandRate (s.stackBand k) ∨ (mode ≠ 0 ∧ c + 5 ≥ mode) then mode
  else c + 5

include hk in
/-- STACK_CAP_STEP writes the next cap. -/
theorem exec_stackCapStep : exec (.stackCapStep k) s =
    .next ((s.fset PWR_STK_CAP.CAP 0 k (s.nextCap k)).deliv (k / 6)) := by
  show execStackCapStep k s = _
  rw [execStackCapStep, decide_eq_true hk]
  exact ok_of_pending rfl

/-- HUB_DELIV brought up to date leaves the registers below the hubs'. -/
theorem State.LowKept.deliv {s t : State} (h : s.LowKept t) (n : Nat) : s.LowKept (t.deliv n) :=
  State.LowKept.fset (f := HUB_DELIV.GBPS) h (by decide) (by decide) ..

include hk in
/-- A stack's cap after its step, where the next cap fits. -/
theorem State.cap_step (hn : s.nextCap k < 512) :
    ((s.fset PWR_STK_CAP.CAP 0 k (s.nextCap k)).deliv (k / 6)).fget PWR_STK_CAP.CAP 0 k = s.nextCap k := by
  have low : PWR_STK_CAP.CAP.key 0 k < hubKeys := by
    simp only [Field.key, Field.addr, PWR_STK_CAP.CAP, blkBase, hubKeys]; omega
  rw [((State.LowKept.refl _).deliv _).fget low, State.fget_fset_same]
  exact Nat.mod_eq_of_lt hn

/-- A stack's cap step leaves the other caps. -/
theorem State.cap_step_other {j n : Nat} (hj : j < 24) (hne : j ≠ k) :
    ((s.fset PWR_STK_CAP.CAP 0 k n).deliv (k / 6)).fget PWR_STK_CAP.CAP 0 j = s.fget PWR_STK_CAP.CAP 0 j := by
  have low : PWR_STK_CAP.CAP.key 0 j < hubKeys := by
    simp only [Field.key, Field.addr, PWR_STK_CAP.CAP, blkBase, hubKeys]; omega
  rw [((State.LowKept.refl _).deliv _).fget low, State.fget_fset_ne]
  simp only [Field.key, Field.addr, PWR_STK_CAP.CAP, blkBase]
  omega

/-- A throttled stack's cap falls while it is hot (R431). -/
theorem State.nextCap_hot (ht : s.fget PWR_STK_CAP.THROTTLED 0 k = 1)
    (h : ∃ d ∈ s.power.throttled, k ∈ throttleStacks d ∧ throttleAt d ≤ s.domainTemp d) :
    s.nextCap k = max 95 (s.fget PWR_STK_CAP.CAP 0 k - 5) := by
  have hot : s.power.throttled.any (fun d => (throttleStacks d).contains k && decide (s.domainTemp d ≥ throttleAt d)) = true :=
    List.any_eq_true.mpr (by simpa using h)
  simp only [State.nextCap, ht, hot, if_true]

/-- A throttled stack's cap stands while it is not hot. -/
theorem State.nextCap_cool (ht : s.fget PWR_STK_CAP.THROTTLED 0 k = 1)
    (h : ∀ d ∈ s.power.throttled, k ∈ throttleStacks d → s.domainTemp d < throttleAt d) :
    s.nextCap k = s.fget PWR_STK_CAP.CAP 0 k := by
  have cool : s.power.throttled.any (fun d => (throttleStacks d).contains k && decide (s.domainTemp d ≥ throttleAt d)) = false :=
    List.any_eq_false.mpr (by simpa using h)
  simp only [State.nextCap, ht, cool, if_true, Bool.false_eq_true, if_false]

/-- A stack's cap rises again after its throttle state (R435). -/
theorem State.nextCap_rise (ht : s.fget PWR_STK_CAP.THROTTLED 0 k = 0) (hm : s.fget PWR_MODE.MODE 0 0 ≠ 2)
    (h0 : s.fget PWR_STK_CAP.CAP 0 k ≠ 0) (hb : 8 * (s.fget PWR_STK_CAP.CAP 0 k + 5) < bandRate (s.stackBand k))
    (h189 : s.fget PWR_STK_CAP.CAP 0 k ≠ 189) : s.nextCap k = s.fget PWR_STK_CAP.CAP 0 k + 5 := by
  have below : ¬ 8 * (s.fget PWR_STK_CAP.CAP 0 k + 5) ≥ bandRate (s.stackBand k) := Nat.not_le.mpr hb
  simp [State.nextCap, ht, hm, h0, h189, below]

/-- No band delivers more than 1,716 GB/s (Table 7.5). -/
theorem bandRate_le (b : Nat) : bandRate b ≤ 1716 := by
  unfold bandRate
  split_ifs <;> decide

end CapStep

section Shutdown

/-- The part trips at a sensor (R432). -/
def State.tripAt (s : State) (n : Nat) (y : Int) : State :=
  let s1 := (s.fbitSet PKG_SEQ.EN 0 0 3 false).domainRec 0x62 3 n y
  State.tripStop (s1.withPkg { s1.pkg with trip := true }) (domainKind (spotDomain (n / 2))) n 0x0B

/-- The latch of a trip, and the part halted (R432). -/
def State.latchTrip (s : State) (cause sensor : Nat) : State :=
  (((s.fset PWR_TRIP.CAUSE 0 0 cause).fset PWR_TRIP.SENSOR 0 0 sensor).fset PWR_TRIP.LATCHED 0 0 1).withHalted true

/-- A trip latches and halts before it goes to HOLD. -/
theorem State.tripStop_eq (s : State) (cause sensor hold : Nat) :
    s.tripStop cause sensor hold = (s.latchTrip cause sensor).enterHold hold := rfl

/-- Whether the part is halted is no register. -/
theorem State.fget_withHalted (s : State) (b : Bool) (f : Field) (u i : Nat) : (s.withHalted b).fget f u i = s.fget f u i := rfl

/-- What the latch of a trip holds. -/
theorem State.latchTrip_fields (s : State) {cause n : Nat} (hc : cause < 8) (hn : n < 1024) :
    (s.latchTrip cause n).fget PWR_TRIP.LATCHED 0 0 = 1 ∧ (s.latchTrip cause n).fget PWR_TRIP.SENSOR 0 0 = n ∧
      (s.latchTrip cause n).fget PWR_TRIP.CAUSE 0 0 = cause ∧
      (s.latchTrip cause n).fget PKG_SEQ.EN 0 0 = s.fget PKG_SEQ.EN 0 0 := by
  unfold State.latchTrip
  simp only [State.fget_withHalted]
  refine ⟨State.fget_fset_same .., ?_, ?_, ?_⟩
  · rw [State.fget_fset_lo (f := PWR_TRIP.LATCHED) (g := PWR_TRIP.SENSOR) _ rfl rfl rfl (by decide), State.fget_fset_same]
    exact Nat.mod_eq_of_lt hn
  · rw [State.fget_fset_lo (f := PWR_TRIP.LATCHED) (g := PWR_TRIP.CAUSE) _ rfl rfl rfl (by decide),
      State.fget_fset_lo (f := PWR_TRIP.SENSOR) (g := PWR_TRIP.CAUSE) _ rfl rfl rfl (by decide), State.fget_fset_same]
    exact Nat.mod_eq_of_lt hc
  · rw [State.fget_fset_ne _ (by decide), State.fget_fset_ne _ (by decide), State.fget_fset_ne _ (by decide)]

/-- A trip stops the part with its latch set. -/
theorem State.tripStop_fields (s : State) {cause n : Nat} (hc : cause < 8) (hn : n < 1024) (hold : Nat) :
    (s.tripStop cause n hold).fget PWR_TRIP.LATCHED 0 0 = 1 ∧ (s.tripStop cause n hold).fget PWR_TRIP.SENSOR 0 0 = n ∧
      (s.tripStop cause n hold).fget PWR_TRIP.CAUSE 0 0 = cause ∧
      (s.tripStop cause n hold).fget PKG_SEQ.EN 0 0 = s.fget PKG_SEQ.EN 0 0 := by
  have kept (g : Field) (hg : 64 ≤ g.key 0 0 ∧ g.key 0 0 < hubKeys ∧ g.key 0 0 ≠ MGMT_LOG_STATUS.LOST.key 0 0 ∧
      g.key 0 0 ≠ MGMT_EVENT.CAUSE.key 0 0 ∧ g.key 0 0 ≠ HIF_PRIV.PRIV.key 0 0 ∧ g.key 0 0 ≠ HIF_PRIV.PRIV.key 1 0) :
      (s.tripStop cause n hold).fget g 0 0 = (s.latchTrip cause n).fget g 0 0 := by
    obtain ⟨h64, hlow, hl, he, h0, h1⟩ := hg
    rw [State.tripStop_eq, State.fget_enterHold _ _ h64 hlow hl he h0 h1]
  rw [kept _ (by decide), kept _ (by decide), kept _ (by decide), kept _ (by decide)]
  exact s.latchTrip_fields hc hn

/-- What a trip latches and shows. -/
theorem State.tripAt_fields (s : State) {n : Nat} (hn : n < 752) (y : Int) :
    (s.tripAt n y).pkg.trip = true ∧ (s.tripAt n y).halted = true ∧ (s.tripAt n y).phase = 15 ∧
      (s.tripAt n y).fget BOOT_STATUS.CAUSE 0 0 = 0x0B ∧ (s.tripAt n y).fget PWR_TRIP.LATCHED 0 0 = 1 ∧
      (s.tripAt n y).fget PWR_TRIP.SENSOR 0 0 = n ∧
      (s.tripAt n y).fget PWR_TRIP.CAUSE 0 0 = domainKind (spotDomain (n / 2)) ∧
      (s.tripAt n y).fbit PKG_SEQ.EN 0 0 3 = false := by
  have kind : domainKind (spotDomain (n / 2)) < 8 := by
    unfold domainKind
    split_ifs <;> decide
  have off : ((s.fbitSet PKG_SEQ.EN 0 0 3 false).domainRec 0x62 3 n y).fbit PKG_SEQ.EN 0 0 3 = false := by
    rw [State.fbit, (State.domainRec_low ..).fget (by decide), State.fbitSet, State.fget_fset_same,
      Nat.testBit_mod_two_pow, testBit_setBit_same, Bool.and_false]
  unfold State.tripAt
  dsimp only
  generalize (s.fbitSet PKG_SEQ.EN 0 0 3 false).domainRec 0x62 3 n y = r at off
  obtain ⟨latched, sensor, cause, en⟩ := (r.withPkg { r.pkg with trip := true }).tripStop_fields kind (by omega : n < 1024) 0x0B
  obtain ⟨phase, held, halted, pkg⟩ := ((r.withPkg { r.pkg with trip := true }).latchTrip (domainKind (spotDomain (n / 2)))
    n).enterHold_shows 0x0B
  rw [← State.tripStop_eq] at phase held halted pkg
  rw [State.phase, State.fbit, en, pkg, halted]
  exact ⟨rfl, rfl, phase, held, latched, sensor, cause, off⟩

variable {s : State} {n : Nat} {x : Int} (hn : n < 752)
include hn

/-- A reading at the shutdown threshold trips the part. -/
theorem exec_thermalShutdown_trips (ha : s.boot.ao = true) {y : Int} (hs : s.seen n x = some y) (ht : s.pkg.trip = false)
    (hy : shutdownAt (spotDomain (n / 2)) ≤ y) : exec (.thermalShutdown n x) s = .next ((s.tripAt n y).withQueue s.pending) := by
  have test : (!s.boot.ao || s.pkg.trip || decide (y < shutdownAt (spotDomain (n / 2)))) = false := by
    rw [ha, ht, decide_eq_false (Int.not_lt.mpr hy)]
    rfl
  show execThermalShutdown n x s = _
  rw [execThermalShutdown, decide_eq_true hn, hs]
  dsimp only
  rw [if_neg (by rw [test]; decide)]
  rfl

/-- An ignored sensor, a trip that is latched and a reading below the threshold change nothing. -/
theorem exec_thermalShutdown_quiet
    (h : s.seen n x = none ∨ s.pkg.trip = true ∨ ∃ y, s.seen n x = some y ∧ y < shutdownAt (spotDomain (n / 2))) :
    exec (.thermalShutdown n x) s = .next s := by
  show execThermalShutdown n x s = _
  rw [execThermalShutdown, decide_eq_true hn]
  dsimp only
  split
  · exact ok_of_pending rfl
  · rename_i y hs
    have test : (!s.boot.ao || s.pkg.trip || decide (y < shutdownAt (spotDomain (n / 2)))) = true := by
      rcases h with h | h | ⟨z, hz, hlt⟩
      · rw [hs] at h; cases h
      · rw [h, Bool.or_true, Bool.true_or]
      · obtain rfl : y = z := Option.some.inj (hs.symm.trans hz)
        rw [decide_eq_true hlt, Bool.or_true]
    rw [if_pos test]
    exact ok_of_pending rfl

end Shutdown

end Sys2Proof.Machine
end

section
/-!
SUPPORT. Throttles (R430, R431): what a domain's throttle leaves on its towers and its stacks.
-/

namespace Sys2Proof.Machine

section Duty

variable {s t : State}

/-- The DUTY that a throttled tower is asked for (R430): its throttle's, the over-cap response's, the rate trip's. -/
def State.markedDuty (s : State) (u : Nat) : Nat :=
  max (max s.throttleDuty (Tbl.get 0 s.power.duty u)) (if s.power.rateTrip then 6 else 0)

/-- The DUTY asked for on a tower that is marked. -/
theorem State.wantDuty_marked {u : Nat} (h : t.fget PWR_TOWER_CLK.THROTTLED 0 u = 1)
    (hc : t.fget PWR_THR_CTL.DUTY 0 0 = s.fget PWR_THR_CTL.DUTY 0 0) (hd : t.power.duty = s.power.duty)
    (hr : t.power.rateTrip = s.power.rateTrip) : t.wantDuty u = s.markedDuty u := by
  simp [State.wantDuty, State.markedDuty, State.throttleDuty, h, hc, hd, hr]

/-- Tile DUTY written. -/
theorem State.LowKept.writeDuty (h : s.LowKept t) (u : Nat) : s.LowKept (t.writeDuty u) := by
  refine keeps_foldl (fun v i hv => ?_) h
  have set := State.LowKept.fset (f := TILE_THROTTLE.DUTY) hv (by decide) (by decide) (4 * u + i) 0 (t.wantDuty u)
  exact State.LowKept.fset (f := TILE_THROTTLE.TRIP) set (by decide) (by decide) ..

/-- Tile DUTY written leaves the power manager. -/
@[simp] theorem State.writeDuty_power (u : Nat) : (t.writeDuty u).power = t.power :=
  keeps_foldl (P := fun v => v.power = t.power) (fun _ _ hv => hv) rfl

/-- The DUTY fields of two tiles lie apart. -/
theorem dutyKey_ne {i j : Nat} (h : i ≠ j) : TILE_THROTTLE.DUTY.key i 0 ≠ TILE_THROTTLE.DUTY.key j 0 := by
  simp only [Field.key, Field.addr, TILE_THROTTLE.DUTY, blkBase]
  omega

/-- TRIP of a tile lies apart from DUTY of any. -/
theorem dutyKey_ne_trip (i j : Nat) : TILE_THROTTLE.DUTY.key i 0 ≠ TILE_THROTTLE.TRIP.key j 0 := by
  simp only [Field.key, Field.addr, TILE_THROTTLE.DUTY, TILE_THROTTLE.TRIP, blkBase]
  omega

/-- Every tile of a tower gets the DUTY asked for. -/
theorem State.writeDuty_same {u i : Nat} (hi : i < 4) :
    (t.writeDuty u).fget TILE_THROTTLE.DUTY (4 * u + i) 0 = t.wantDuty u % 8 := by
  refine foldl_once (P := fun _ => True) (Q := fun v : State => v.fget TILE_THROTTLE.DUTY (4 * u + i) 0 = t.wantDuty u % 8)
    (List.mem_range.mpr hi) List.nodup_range (fun _ _ _ _ h => h) (fun v _ => ?_) (fun v k _ hk hv => ?_) trivial
  · rw [State.fget_fset_ne _ (dutyKey_ne_trip _ _), State.fget_fset_same]
    rfl
  · rw [State.fget_fset_ne _ (dutyKey_ne_trip _ _), State.fget_fset_ne _ (dutyKey_ne (by omega)), hv]

/-- The tiles of other towers keep their DUTY. -/
theorem State.writeDuty_other {u j : Nat} (hj : j / 4 ≠ u) :
    (t.writeDuty u).fget TILE_THROTTLE.DUTY j 0 = t.fget TILE_THROTTLE.DUTY j 0 := by
  refine foldl_keeps_mem (fun v : State => v.fget TILE_THROTTLE.DUTY j 0 = t.fget TILE_THROTTLE.DUTY j 0) _ _ (fun v i hi hv => ?_) _ rfl
  have := List.mem_range.mp hi
  rw [State.fget_fset_ne _ (dutyKey_ne_trip _ _), State.fget_fset_ne _ (dutyKey_ne (by omega)), hv]

end Duty

section Throttle

/-- A domain's throttle marks a tower. -/
def State.throttleTower (t : State) (u : Nat) : State := (t.fset PWR_TOWER_CLK.THROTTLED 0 u 1).writeDuty u

/-- A domain's throttle caps a stack. -/
def State.throttleStack (t : State) (k : Nat) : State :=
  let c := t.fget PWR_STK_CAP.CAP 0 k
  (t.fset PWR_STK_CAP.THROTTLED 0 k 1).fset PWR_STK_CAP.CAP 0 k (if c = 0 then 165 else min c 165)

/-- A throttle marks its towers, caps its stacks, and brings HUB_DELIV up to date. -/
theorem State.throttle_eq (s : State) (d : Nat) : s.throttle d =
    ((throttleStacks d).foldl State.throttleStack ((throttleTowers d).foldl State.throttleTower
      (s.onPower (fun w => { w with throttled := w.throttled ++ [d] })))).delivAll := rfl

/-- A domain's throttle acts on no tower twice, and on towers of the package only. -/
theorem throttleTowers_spec (d : Nat) : (throttleTowers d).Nodup ∧ ∀ u ∈ throttleTowers d, u < 16 := by
  unfold throttleTowers
  split_ifs
  · simpa
  · refine ⟨List.nodup_range.map fun a b h => by simpa using h, ?_⟩
    simp
    omega
  · simp
    omega
  · simp

/-- A domain's throttle acts on no stack twice, and on stacks of the package only. -/
theorem throttleStacks_spec {d : Nat} (hd : d < 60) : (throttleStacks d).Nodup ∧ ∀ k ∈ throttleStacks d, k < 24 := by
  unfold throttleStacks
  split_ifs
  · refine ⟨List.nodup_range.map fun a b h => by simpa using h, ?_⟩
    simp
    omega
  · simp
    omega
  · simp

/-- A hot spot lies in one of the 60 domains. -/
theorem spotDomain_lt {k : Nat} (hk : k < 376) : spotDomain k < 60 := by
  unfold spotDomain
  split_ifs <;> omega

variable {s t : State}

/-- The power manager's registers apart from the towers' and the stacks' are those of `s`, and so is its state but for the
list of throttled domains. -/
structure State.Manager (s t : State) : Prop where
  duty : t.fget PWR_THR_CTL.DUTY 0 0 = s.fget PWR_THR_CTL.DUTY 0 0
  power : ∃ l, t.power = { s.power with throttled := l }

/-- A tower is marked and its tiles have a DUTY. -/
def State.TowerMarked (t : State) (u x : Nat) : Prop :=
  t.fget PWR_TOWER_CLK.THROTTLED 0 u = 1 ∧ ∀ i, i < 4 → t.fget TILE_THROTTLE.DUTY (4 * u + i) 0 = x % 8

/-- A stack is throttled with a cap. -/
def State.StackCapped (t : State) (k c : Nat) : Prop :=
  t.fget PWR_STK_CAP.THROTTLED 0 k = 1 ∧ t.fget PWR_STK_CAP.CAP 0 k = c

/-- The first cap of a throttled stack (R431). -/
def firstCap (c : Nat) : Nat := if c = 0 then 165 else min c 165

/-- The marks of the towers and the caps of the stacks lie below the hubs' registers. -/
theorem markKey_low {u : Nat} (hu : u < 16) : PWR_TOWER_CLK.THROTTLED.key 0 u < hubKeys := by
  simp only [Field.key, Field.addr, PWR_TOWER_CLK.THROTTLED, blkBase, hubKeys]
  omega

/-- A tile's DUTY lies above the hubs' registers. -/
theorem dutyKey_high (j : Nat) : hubKeys < TILE_THROTTLE.DUTY.key j 0 := by
  simp only [Field.key, Field.addr, TILE_THROTTLE.DUTY, blkBase, hubKeys]
  omega

/-- Another register below the hubs' is written: the tower stays marked. -/
theorem State.TowerMarked.fset {u x : Nat} (h : t.TowerMarked u x) {f : Field} {y i v : Nat} (hf : f.key y i < hubKeys)
    (hne : PWR_TOWER_CLK.THROTTLED.key 0 u ≠ f.key y i) : (t.fset f y i v).TowerMarked u x := by
  obtain ⟨hmark, hduty⟩ := h
  refine ⟨(State.fget_fset_ne t hne).trans hmark, fun k hk => (State.fget_fset_ne t ?_).trans (hduty k hk)⟩
  have := dutyKey_high (4 * u + k)
  omega

section TowerStep

/-- A marked tower leaves the registers of the manager that are not the towers'. -/
theorem State.throttleTower_fget {u : Nat} {g : Field} {x i : Nat} (hg : g.key x i < hubKeys)
    (hne : g.key x i ≠ PWR_TOWER_CLK.THROTTLED.key 0 u) : (t.throttleTower u).fget g x i = t.fget g x i := by
  rw [State.throttleTower, ((State.LowKept.refl _).writeDuty u).fget hg, State.fget_fset_ne _ hne]

/-- A marked tower leaves the rest of the manager. -/
theorem State.Manager.throttleTower (h : s.Manager t) (u : Nat) : s.Manager (t.throttleTower u) := by
  obtain ⟨hduty, hpower⟩ := h
  refine ⟨(State.throttleTower_fget (by decide) ?_).trans hduty, by simpa [State.throttleTower] using hpower⟩
  simp only [Field.key, Field.addr, PWR_THR_CTL.DUTY, PWR_TOWER_CLK.THROTTLED, blkBase]
  omega

/-- A throttle marks its tower with the DUTY asked for. -/
theorem State.Manager.towerMarked (h : s.Manager t) (u : Nat) (hu : u < 16) : (t.throttleTower u).TowerMarked u (s.markedDuty u) := by
  obtain ⟨hduty, l, hpower⟩ := h
  have low : PWR_TOWER_CLK.THROTTLED.key 0 u ≠ PWR_THR_CTL.DUTY.key 0 0 := by
    simp only [Field.key, Field.addr, PWR_THR_CTL.DUTY, PWR_TOWER_CLK.THROTTLED, blkBase]
    omega
  have asked : (t.fset PWR_TOWER_CLK.THROTTLED 0 u 1).wantDuty u = s.markedDuty u :=
    State.wantDuty_marked (State.fget_fset_same ..) ((State.fget_fset_ne t low.symm).trans hduty)
      (by simp [hpower]) (by simp [hpower])
  refine ⟨((State.LowKept.refl _).writeDuty u).fget (markKey_low hu) |>.trans (State.fget_fset_same ..), fun i hi => ?_⟩
  rw [State.throttleTower, State.writeDuty_same hi, asked]

/-- Another tower that is marked leaves a marked one. -/
theorem State.TowerMarked.throttleTower {u x v : Nat} (hu : u < 16) (hv : v < 16) (hne : v ≠ u) (h : t.TowerMarked u x) :
    (t.throttleTower v).TowerMarked u x := by
  have apart : PWR_TOWER_CLK.THROTTLED.key 0 u ≠ PWR_TOWER_CLK.THROTTLED.key 0 v := by
    simp only [Field.key, Field.addr, PWR_TOWER_CLK.THROTTLED, blkBase]
    omega
  obtain ⟨hmark, hduty⟩ := h.fset (v := 1) (markKey_low hv) apart
  refine ⟨(((State.LowKept.refl _).writeDuty v).fget (markKey_low hu)).trans hmark, fun i hi => ?_⟩
  rw [State.throttleTower, State.writeDuty_other (by omega), hduty i hi]

end TowerStep

section StackStep

/-- A stack that is capped leaves a register of the manager that is not its own. -/
theorem State.throttleStack_fget {k : Nat} {g : Field} {x i : Nat} (h9 : g.key x i ≠ PWR_STK_CAP.THROTTLED.key 0 k)
    (h0 : g.key x i ≠ PWR_STK_CAP.CAP.key 0 k) : (t.throttleStack k).fget g x i = t.fget g x i := by
  rw [State.throttleStack, State.fget_fset_ne _ h0, State.fget_fset_ne _ h9]

/-- A throttle caps its stack. -/
theorem State.throttleStack_caps (t : State) (k : Nat) :
    (t.throttleStack k).StackCapped k (firstCap (t.fget PWR_STK_CAP.CAP 0 k)) := by
  refine ⟨?_, ?_⟩
  · rw [State.throttleStack, State.fget_fset_lo (f := PWR_STK_CAP.CAP) (g := PWR_STK_CAP.THROTTLED) _ rfl rfl rfl (by decide),
      State.fget_fset_same]
    rfl
  · rw [State.throttleStack, State.fget_fset_same]
    refine Nat.mod_eq_of_lt (b := 512) ?_
    split
    · decide
    · omega

/-- The fields of two stacks lie apart. -/
theorem stackKey_ne {j k : Nat} (h : j ≠ k) {f g : Field} (hf : f = PWR_STK_CAP.CAP ∨ f = PWR_STK_CAP.THROTTLED)
    (hg : g = PWR_STK_CAP.CAP ∨ g = PWR_STK_CAP.THROTTLED) : f.key 0 j ≠ g.key 0 k := by
  rcases hf with rfl | rfl <;> rcases hg with rfl | rfl
  all_goals
    simp only [Field.key, Field.addr, PWR_STK_CAP.CAP, PWR_STK_CAP.THROTTLED, blkBase]
    omega

/-- The fields of a stack lie apart from the marks of the towers. -/
theorem stackKey_ne_mark (u k : Nat) {f : Field} (hf : f = PWR_STK_CAP.CAP ∨ f = PWR_STK_CAP.THROTTLED) :
    PWR_TOWER_CLK.THROTTLED.key 0 u ≠ f.key 0 k := by
  rcases hf with rfl | rfl
  all_goals
    simp only [Field.key, Field.addr, PWR_STK_CAP.CAP, PWR_STK_CAP.THROTTLED, PWR_TOWER_CLK.THROTTLED, blkBase]
    omega

/-- The fields of a stack lie below the hubs' registers. -/
theorem stackKey_low {k : Nat} (hk : k < 24) {f : Field} (hf : f = PWR_STK_CAP.CAP ∨ f = PWR_STK_CAP.THROTTLED) :
    f.key 0 k < hubKeys := by
  rcases hf with rfl | rfl
  all_goals
    simp only [Field.key, Field.addr, PWR_STK_CAP.CAP, PWR_STK_CAP.THROTTLED, blkBase, hubKeys]
    omega

/-- Another stack that is capped leaves a capped one. -/
theorem State.StackCapped.throttleStack {j k c : Nat} (hne : k ≠ j) (h : t.StackCapped k c) :
    (t.throttleStack j).StackCapped k c := by
  obtain ⟨hmark, hcap⟩ := h
  refine ⟨?_, ?_⟩
  · rw [State.throttleStack_fget (stackKey_ne hne (.inr rfl) (.inr rfl)) (stackKey_ne hne (.inr rfl) (.inl rfl)), hmark]
  · rw [State.throttleStack_fget (stackKey_ne hne (.inl rfl) (.inr rfl)) (stackKey_ne hne (.inl rfl) (.inl rfl)), hcap]

end StackStep

section Folds

variable {d : Nat} (hd : d < 60)
include hd

omit hd in
/-- A throttle marks its towers. -/
theorem State.Manager.towers (h : s.Manager t) {u : Nat} (hu : u ∈ throttleTowers d) :
    ((throttleTowers d).foldl State.throttleTower t).TowerMarked u (s.markedDuty u) := by
  obtain ⟨hn, hlt⟩ := throttleTowers_spec d
  exact foldl_once (P := s.Manager) (Q := (State.TowerMarked · u (s.markedDuty u))) hu hn (fun b v _ _ hb => hb.throttleTower v) (fun b hb => hb.towerMarked u (hlt u hu))
    (fun b v hv hne hb => hb.throttleTower (hlt u hu) (hlt v hv) hne) h

omit hd in
/-- The throttle of towers leaves the stacks' caps. -/
theorem State.towers_cap (t : State) {k : Nat} (hk : k < 24) :
    ((throttleTowers d).foldl State.throttleTower t).fget PWR_STK_CAP.CAP 0 k = t.fget PWR_STK_CAP.CAP 0 k := by
  obtain ⟨-, hlt⟩ := throttleTowers_spec d
  refine foldl_keeps_mem (fun v : State => v.fget PWR_STK_CAP.CAP 0 k = t.fget PWR_STK_CAP.CAP 0 k) _ _ (fun v u hu hv => ?_) _ rfl
  rw [State.throttleTower_fget (stackKey_low hk (.inl rfl)) (stackKey_ne_mark u k (.inl rfl)).symm, hv]

/-- A throttle caps its stacks. -/
theorem State.stacks_capped (t : State) {k : Nat} (hk : k ∈ throttleStacks d) :
    ((throttleStacks d).foldl State.throttleStack t).StackCapped k (firstCap (t.fget PWR_STK_CAP.CAP 0 k)) := by
  obtain ⟨hn, hlt⟩ := throttleStacks_spec hd
  refine foldl_once (P := fun v : State => v.fget PWR_STK_CAP.CAP 0 k = t.fget PWR_STK_CAP.CAP 0 k)
    (Q := (State.StackCapped · k (firstCap (t.fget PWR_STK_CAP.CAP 0 k)))) hk hn (fun b j _ hne hb => ?_) (fun b hb => hb ▸ b.throttleStack_caps k) (fun b j _ hne hb => hb.throttleStack hne.symm) rfl
  rw [State.throttleStack_fget (stackKey_ne hne.symm (.inl rfl) (.inr rfl)) (stackKey_ne hne.symm (.inl rfl) (.inl rfl)), hb]

/-- Capped stacks leave a marked tower. -/
theorem State.TowerMarked.stacks {u x : Nat} (h : t.TowerMarked u x) :
    ((throttleStacks d).foldl State.throttleStack t).TowerMarked u x := by
  obtain ⟨-, hlt⟩ := throttleStacks_spec hd
  refine foldl_keeps_mem (State.TowerMarked · u x) _ _ (fun v k hk hv => ?_) _ h
  have capped := hv.fset (f := PWR_STK_CAP.THROTTLED) (v := 1) (stackKey_low (hlt k hk) (.inr rfl))
    (stackKey_ne_mark u k (.inr rfl))
  exact capped.fset (stackKey_low (hlt k hk) (.inl rfl)) (stackKey_ne_mark u k (.inl rfl))

end Folds

section Whole

variable {d : Nat} (hd : d < 60)

/-- HUB_DELIV of every hub leaves the registers below the hubs', and a tile's DUTY. -/
theorem State.delivAll_kept (t : State) : t.LowKept t.delivAll ∧
    ∀ j, t.delivAll.fget TILE_THROTTLE.DUTY j 0 = t.fget TILE_THROTTLE.DUTY j 0 := by
  refine ⟨keeps_foldl (fun v h hv => hv.deliv h) (.refl t), fun j => ?_⟩
  refine foldl_keeps_mem (fun v : State => v.fget TILE_THROTTLE.DUTY j 0 = t.fget TILE_THROTTLE.DUTY j 0) _ _
    (fun v h hh hv => ?_) _ rfl
  have hlt := List.mem_range.mp hh
  rw [State.deliv, State.fget_fset_ne _ ?_, hv]
  simp only [Field.key, Field.addr, TILE_THROTTLE.DUTY, HUB_DELIV.GBPS, blkBase]
  omega

/-- HUB_DELIV leaves the power manager. -/
@[simp] theorem State.delivAll_power (t : State) : t.delivAll.power = t.power :=
  keeps_foldl (P := fun v => v.power = t.power) (fun _ _ hv => hv) rfl

/-- A domain's throttle: what it does to towers and stacks, and its event and record. -/
def State.throttled (s : State) (d n : Nat) (y : Int) : State :=
  (((s.throttle d).evt PWR_EVENT.THROTTLE 0 0 1 none).domainRec 0x61 4 n y)

/-- The event and the record of a throttle leave the registers below the hubs' but PWR_EVENT, and a tile's DUTY. -/
theorem State.throttled_fget (s : State) (d n : Nat) (y : Int) : (∀ (g : Field) (i : Nat), g.key 0 i < hubKeys →
      g.key 0 i ≠ PWR_EVENT.THROTTLE.key 0 0 → (s.throttled d n y).fget g 0 i = (s.throttle d).fget g 0 i) ∧
    ∀ j, j < 64 → (s.throttled d n y).fget TILE_THROTTLE.DUTY j 0 = (s.throttle d).fget TILE_THROTTLE.DUTY j 0 := by
  refine ⟨fun g i hg hne => ?_, fun j hj => ?_⟩
  · rw [State.throttled, (State.domainRec_low ..).fget hg, State.fget_evt_ne _ hne]
  · have spared := spared_arrayField (g := TILE_THROTTLE.DUTY) rfl (by decide) (by decide) rfl (by decide) hj
      ((s.throttle d).fget TILE_THROTTLE.DUTY j 0)
    have flagged : ((s.throttle d).evt PWR_EVENT.THROTTLE 0 0 1 none).fget TILE_THROTTLE.DUTY j 0 =
        (s.throttle d).fget TILE_THROTTLE.DUTY j 0 := by
      refine State.fget_evt_ne _ ?_
      have := dutyKey_high j
      have low : PWR_EVENT.THROTTLE.key 0 0 < hubKeys := by decide
      omega
    rw [State.throttled, State.domainRec, State.powerRec]
    exact spared.record (spared.quiet (s := (s.throttle d).evt PWR_EVENT.THROTTLE 0 0 1 none) (by rfl) flagged) ..

/-- A throttle's domain joins the list, and nothing else of the power manager changes. -/
theorem State.throttle_power (s : State) (d : Nat) :
    (s.throttle d).power = { s.power with throttled := s.power.throttled ++ [d] } := by
  rw [State.throttle_eq, State.delivAll_power]
  refine (keeps_foldl (P := fun v : State => v.power = _) (fun _ _ hv => hv) ?_)
  exact keeps_foldl (P := fun v : State => v.power = _) (fun v u hv => by simpa [State.throttleTower] using hv) rfl

include hd

/-- A throttle leaves the rest of the manager. -/
theorem State.Manager.throttle (s : State) : s.Manager (s.throttle d) := by
  obtain ⟨-, hlt⟩ := throttleStacks_spec hd
  have start : s.Manager (s.onPower (fun w => { w with throttled := w.throttled ++ [d] })) := ⟨rfl, _, rfl⟩
  have towers := keeps_foldl (P := s.Manager) (f := State.throttleTower) (l := throttleTowers d)
    (fun v u hv => hv.throttleTower u) start
  obtain ⟨hduty, -⟩ := foldl_keeps_mem s.Manager State.throttleStack (throttleStacks d) (fun v k hk hv => by
    obtain ⟨hd, hp⟩ := hv
    refine ⟨(State.throttleStack_fget ?_ ?_).trans hd, hp⟩
    all_goals
      simp only [Field.key, Field.addr, PWR_STK_CAP.CAP, PWR_STK_CAP.THROTTLED, PWR_THR_CTL.DUTY, blkBase]
      omega) _ towers
  refine ⟨?_, _, s.throttle_power d⟩
  rw [State.throttle_eq, (State.delivAll_kept _).1.fget (by decide), hduty]

/-- A throttle marks its towers. -/
theorem State.throttle_marks (s : State) {u : Nat} (hu : u ∈ throttleTowers d) : (s.throttle d).TowerMarked u (s.markedDuty u) := by
  have start : s.Manager (s.onPower (fun w => { w with throttled := w.throttled ++ [d] })) := ⟨rfl, _, rfl⟩
  obtain ⟨hmark, hduty⟩ := (start.towers hu).stacks hd
  obtain ⟨low, duty⟩ := State.delivAll_kept ((throttleStacks d).foldl State.throttleStack ((throttleTowers d).foldl
    State.throttleTower (s.onPower (fun w => { w with throttled := w.throttled ++ [d] }))))
  exact ⟨(low.fget (markKey_low ((throttleTowers_spec d).2 u hu))).trans hmark, fun i hi => (duty _).trans (hduty i hi)⟩

/-- A throttle caps its stacks. -/
theorem State.throttle_caps (s : State) {k : Nat} (hk : k ∈ throttleStacks d) :
    (s.throttle d).StackCapped k (firstCap (s.fget PWR_STK_CAP.CAP 0 k)) := by
  have hk24 := (throttleStacks_spec hd).2 k hk
  obtain ⟨low, -⟩ := State.delivAll_kept ((throttleStacks d).foldl State.throttleStack ((throttleTowers d).foldl
    State.throttleTower (s.onPower (fun w => { w with throttled := w.throttled ++ [d] }))))
  obtain ⟨hmark, hcap⟩ := State.stacks_capped hd ((throttleTowers d).foldl State.throttleTower
    (s.onPower (fun w => { w with throttled := w.throttled ++ [d] }))) hk
  rw [State.towers_cap _ hk24] at hcap
  exact ⟨(low.fget (stackKey_low hk24 (.inr rfl))).trans hmark, (low.fget (stackKey_low hk24 (.inl rfl))).trans hcap⟩

/-- What a throttle leaves (R430, R431). -/
theorem State.throttled_spec (s : State) (n : Nat) (y : Int) :
    (s.throttled d n y).power.throttled = s.power.throttled ++ [d] ∧ (s.throttled d n y).fget PWR_EVENT.THROTTLE 0 0 = 1 ∧
      (∀ u ∈ throttleTowers d, (s.throttled d n y).fget PWR_TOWER_CLK.THROTTLED 0 u = 1 ∧ ∀ i, i < 4 →
        (s.throttled d n y).fget TILE_THROTTLE.DUTY (4 * u + i) 0 = (s.throttled d n y).wantDuty u % 8 ∧
          (s.throttled d n y).throttleDuty ≤ (s.throttled d n y).wantDuty u) ∧
      ∀ k ∈ throttleStacks d, (s.throttled d n y).StackCapped k (firstCap (s.fget PWR_STK_CAP.CAP 0 k)) := by
  obtain ⟨read, duty⟩ := s.throttled_fget d n y
  have power : (s.throttled d n y).power = { s.power with throttled := s.power.throttled ++ [d] } := by
    rw [← State.throttle_power]
    simp [State.throttled]
  have manager := State.Manager.throttle hd s
  have ctl : (s.throttled d n y).fget PWR_THR_CTL.DUTY 0 0 = s.fget PWR_THR_CTL.DUTY 0 0 :=
    (read _ 0 (by decide) (by decide)).trans manager.duty
  refine ⟨by rw [power], ?_, fun u hu => ?_, fun k hk => ?_⟩
  · rw [State.throttled, (State.domainRec_low ..).fget (by decide), State.fget_evt_same]
    simp [PWR_EVENT.THROTTLE]
  · have hu16 := (throttleTowers_spec d).2 u hu
    obtain ⟨hmark, hduty⟩ := State.throttle_marks hd s hu
    have apart : PWR_TOWER_CLK.THROTTLED.key 0 u ≠ PWR_EVENT.THROTTLE.key 0 0 := by
      simp only [Field.key, Field.addr, PWR_TOWER_CLK.THROTTLED, PWR_EVENT.THROTTLE, blkBase]
      omega
    have marked := (read _ u (markKey_low hu16) apart).trans hmark
    have asked : (s.throttled d n y).wantDuty u = s.markedDuty u :=
      State.wantDuty_marked marked ctl (by rw [power]) (by rw [power])
    refine ⟨marked, fun i hi => ⟨?_, ?_⟩⟩
    · rw [duty _ (by omega), hduty i hi, asked]
    · rw [asked, State.throttleDuty, ctl]
      exact (le_max_left _ _).trans (le_max_left _ _)
  · have hk24 := (throttleStacks_spec hd).2 k hk
    obtain ⟨hmark, hcap⟩ := State.throttle_caps hd s hk
    have apart {f : Field} (hf : f = PWR_STK_CAP.CAP ∨ f = PWR_STK_CAP.THROTTLED) : f.key 0 k ≠ PWR_EVENT.THROTTLE.key 0 0 := by
      rcases hf with rfl | rfl
      all_goals
        simp only [Field.key, Field.addr, PWR_STK_CAP.CAP, PWR_STK_CAP.THROTTLED, PWR_EVENT.THROTTLE, blkBase]
        omega
    exact ⟨(read _ k (stackKey_low hk24 (.inr rfl)) (apart (.inr rfl))).trans hmark,
      (read _ k (stackKey_low hk24 (.inl rfl)) (apart (.inl rfl))).trans hcap⟩

end Whole

section Comparator

variable {s : State} {n : Nat} {x : Int} (hn : n < 752) {c : Instr}
  (hc : c = .towerThrottle n x ∧ spotDomain (n / 2) < 36 ∨
    c = .stackThrottle n x ∧ (16 ≤ spotDomain (n / 2) ∧ spotDomain (n / 2) < 20 ∨ 36 ≤ spotDomain (n / 2)))
include hn hc

/-- A comparator of a domain that its command covers. -/
theorem exec_throttle : exec c s = .next ((s.throttleCmp (spotDomain (n / 2)) n x).withQueue s.pending) := by
  rcases hc with ⟨rfl, hd⟩ | ⟨rfl, hd⟩
  · show execTowerThrottle n x s = _
    rw [execTowerThrottle, decide_eq_true hn, if_pos hd]
    rfl
  · have some : throttleStacks (spotDomain (n / 2)) ≠ [] := by
      unfold throttleStacks
      rcases hd with hd | hd
      · rw [if_pos hd]; simp
      · rw [if_neg (by omega), if_pos hd]; simp
    show execStackThrottle n x s = _
    rw [execStackThrottle, decide_eq_true hn, if_neg some]
    rfl

/-- A comparator's reading at the threshold throttles its domain once. -/
theorem exec_throttle_trips (ha : s.boot.ao = true) {y : Int} (hs : s.seen n x = some y)
    (hy : throttleAt (spotDomain (n / 2)) ≤ y) (ht : s.power.throttled.contains (spotDomain (n / 2)) = false) :
    exec c s = .next ((s.throttled (spotDomain (n / 2)) n y).withQueue s.pending) := by
  have test : (!s.boot.ao || s.power.throttled.contains (spotDomain (n / 2)) ||
      decide (y < throttleAt (spotDomain (n / 2)))) = false := by
    rw [ha, ht, decide_eq_false (Int.not_lt.mpr hy)]
    rfl
  rw [exec_throttle hn hc, State.throttleCmp, hs]
  dsimp only
  rw [if_neg (by rw [test]; decide)]
  rfl

/-- An ignored sensor, a reading below the threshold and a domain that is throttled change nothing. -/
theorem exec_throttle_quiet (h : s.seen n x = none ∨ (∃ y, s.seen n x = some y ∧ y < throttleAt (spotDomain (n / 2))) ∨
    s.power.throttled.contains (spotDomain (n / 2)) = true) : exec c s = .next s := by
  rw [exec_throttle hn hc, State.throttleCmp]
  split
  · rfl
  · rename_i y hs
    have test : (!s.boot.ao || s.power.throttled.contains (spotDomain (n / 2)) ||
        decide (y < throttleAt (spotDomain (n / 2)))) = true := by
      rcases h with h | ⟨z, hz, hlt⟩ | h
      · rw [hs] at h; cases h
      · obtain rfl : y = z := Option.some.inj (hs.symm.trans hz)
        rw [decide_eq_true hlt, Bool.or_true]
      · rw [h, Bool.or_true, Bool.true_or]
    rw [if_pos test]
    rfl

end Comparator

end Throttle

end Sys2Proof.Machine
end

section
/-!
SUPPORT. A sample of the sensors (R209, R426 to R428): the temperature registers, the bands of the stacks, and what the steps of a
sample leave of them.
-/

namespace Sys2Proof.Machine

section Shown

/-- The band of a hub's stack as a field of its own. -/
def bandField (i : Nat) : Field := { HUB_BAND.STACK0 with lo := 2 * i }

/-- A stack's band is that field. -/
theorem State.fgetAt_band (s : State) (h i : Nat) : s.fgetAt HUB_BAND.STACK0 h 0 (2 * i) = s.fget (bandField i) h 0 := by
  simp [State.fgetAt, State.fget, Field.key, Field.addr, bandField, HUB_BAND.STACK0]

/-- Where a stack's band lies. -/
theorem bandKey_eq (h i : Nat) : (bandField i).key h 0 = (0x103010 + h * 0x10000) * 64 + 2 * i := by
  simp only [Field.key, Field.addr, bandField, HUB_BAND.STACK0, blkBase]
  omega

/-- A place below the clocks of the towers, or the band of a stack: what a sample shows. -/
def shownPlace (k : Nat) : Prop := k < 0x1100 * 64 ∨ ∃ h i, h < 4 ∧ i < 6 ∧ k = (0x103010 + h * 0x10000) * 64 + 2 * i

/-- A stack's band is shown. -/
theorem shownPlace_band {h i : Nat} (hh : h < 4) (hi : i < 6) : shownPlace ((bandField i).key h 0) :=
  .inr ⟨h, i, hh, hi, bandKey_eq h i⟩

/-- The fields of a tower's clock are not shown. -/
theorem not_shownPlace_clock {f : Field} (hf : f = PWR_TOWER_CLK.TARGET ∨ f = PWR_TOWER_CLK.VT_MV ∨ f = PWR_TOWER_CLK.THROTTLED)
    {u : Nat} (hu : u < 16) : ¬ shownPlace (f.key 0 u) := by
  rintro (h | ⟨h, i, hh, hi, e⟩)
  all_goals
    rcases hf with rfl | rfl | rfl
    all_goals
      simp only [Field.key, Field.addr, PWR_TOWER_CLK.TARGET, PWR_TOWER_CLK.VT_MV, PWR_TOWER_CLK.THROTTLED, blkBase] at *
      omega

/-- A stack's throttle mark is not shown: it lies in bit 9 of its register. -/
theorem not_shownPlace_stack (k : Nat) : ¬ shownPlace (PWR_STK_CAP.THROTTLED.key 0 k) := by
  rintro (h | ⟨h, i, hh, hi, e⟩)
  all_goals
    simp only [Field.key, Field.addr, PWR_STK_CAP.THROTTLED, blkBase] at *
    omega

/-- A tile's throttle fields are not shown. -/
theorem not_shownPlace_tile {f : Field} (hf : f = TILE_THROTTLE.DUTY ∨ f = TILE_THROTTLE.TRIP) (j : Nat) :
    ¬ shownPlace (f.key j 0) := by
  rintro (h | ⟨h, i, hh, hi, e⟩)
  all_goals
    rcases hf with rfl | rfl
    all_goals
      simp only [Field.key, Field.addr, TILE_THROTTLE.DUTY, TILE_THROTTLE.TRIP, blkBase] at *
      omega

/-- What a sample shows, and the sensors and hot spots, are the same in two states. -/
structure State.ShownKept (s t : State) : Prop where
  reads : ∀ (g : Field) (x i : Nat), shownPlace (g.key x i) → t.fget g x i = s.fget g x i
  spots : t.power.spots = s.power.spots
  sensors : t.power.sensors = s.power.sensors

namespace State.ShownKept

variable {s t : State}

/-- A state shows what it shows. -/
theorem refl (s : State) : s.ShownKept s := ⟨fun _ _ _ _ => rfl, rfl, rfl⟩

variable (h : s.ShownKept t)
include h

/-- A field that is not shown is set. -/
theorem fset {f : Field} {x i : Nat} (hf : ¬ shownPlace (f.key x i)) (v : Nat) : s.ShownKept (t.fset f x i v) := by
  obtain ⟨reads, spots, sensors⟩ := h
  exact ⟨fun g y k hk => (State.fget_fset_ne t fun e => hf (e ▸ hk)).trans (reads g y k hk), spots, sensors⟩

/-- Another part of the power manager's state changes. -/
theorem onPower {f : Power → Power} (hs : (f t.power).spots = t.power.spots) (hn : (f t.power).sensors = t.power.sensors) :
    s.ShownKept (t.onPower f) := by
  obtain ⟨reads, spots, sensors⟩ := h
  exact ⟨reads, hs.trans spots, hn.trans sensors⟩

/-- DUTY of a tower's tiles is written. -/
theorem writeDuty (u : Nat) : s.ShownKept (t.writeDuty u) :=
  keeps_foldl (fun _ _ hv => (hv.fset (not_shownPlace_tile (.inl rfl) _) _).fset (not_shownPlace_tile (.inr rfl) _) _) h

/-- A tower's clock target takes a value (R434). -/
theorem setTarget {u : Nat} (hu : u < 16) (n : Nat) : s.ShownKept (t.setTarget u n) := by
  have target := h.fset (not_shownPlace_clock (.inl rfl) hu) n
  unfold State.setTarget
  dsimp only
  exact keeps_ite target (onPower (keeps_ite (target.fset (not_shownPlace_clock (.inr (.inl rfl)) hu) _) target) rfl rfl)

/-- A domain leaves its throttle state. -/
theorem unthrottle (d : Nat) : s.ShownKept (t.unthrottle d) := by
  obtain ⟨-, hlt⟩ := throttleTowers_spec d
  unfold State.unthrottle
  dsimp only
  refine keeps_foldl (fun v k hv => keeps_ite hv (hv.fset (not_shownPlace_stack k) 0)) ?_
  refine foldl_keeps_mem s.ShownKept _ _ (fun v u hu hv => keeps_ite hv ?_) _ (h.onPower rfl rfl)
  exact writeDuty (onPower (hv.fset (not_shownPlace_clock (.inr (.inr rfl)) (hlt u hu)) 0) rfl rfl) u

/-- Warning and throttle states end at a sample (R428). -/
theorem leave : s.ShownKept t.leave := keeps_foldl (fun _ d hv => hv.unthrottle d) (h.onPower rfl rfl)

/-- Towers that are hot have their clocks lowered (R430). -/
theorem lowerHot : s.ShownKept t.lowerHot :=
  foldl_keeps_mem s.ShownKept _ _ (fun _ _ hu hv =>
    keeps_ite (setTarget (hv.onPower rfl rfl) (List.mem_range.mp hu) _) hv) _ h

end State.ShownKept

end Shown

section Front

/-- The stacks' bands are the same in two states. -/
def State.BandsKept (s t : State) : Prop :=
  ∀ h i, h < 4 → i < 6 → t.fget (bandField i) h 0 = s.fget (bandField i) h 0

/-- A field below the hubs' registers is set: the bands stay. -/
theorem State.BandsKept.fset {s t : State} (h : s.BandsKept t) {f : Field} {x i : Nat} (hf : f.key x i < hubKeys) (v : Nat) :
    s.BandsKept (t.fset f x i v) := by
  refine fun n k hn hk => (State.fget_fset_ne t ?_).trans (h n k hn hk)
  rw [bandKey_eq]
  simp only [hubKeys] at hf
  omega

/-- The power manager's state is no register. -/
theorem State.BandsKept.onPower {s t : State} (h : s.BandsKept t) (f : Power → Power) : s.BandsKept (t.onPower f) := h

/-- A record leaves the bands. -/
theorem State.BandsKept.record {s t : State} (h : s.BandsKept t) (n : Nat) (r : ErrRec) : s.BandsKept (t.record n r) :=
  fun m k hm hk => (spared_hubMemField (g := bandField k) rfl (by show 0x3000 ≤ 0x3010; decide) (by show 0x3010 < 0x4000; decide)
    rfl (by simp only [bandField]; omega) hm _).record (h m k hm hk) n r

/-- A sensor that is flagged leaves the bands, and the power manager (R427). -/
theorem State.BandsKept.flagSensor {s t : State} (h : s.BandsKept t) (n kind : Nat) : s.BandsKept (t.flagSensor n kind) := by
  have flagged : s.BandsKept (t.evt PWR_EVENT.SENSOR_FLAG 0 0 1 none) := fun m k hm hk =>
    (State.fget_congr (State.evt_regs ..) ..).trans (h.fset (f := PWR_EVENT.SENSOR_FLAG) (by decide) _ m k hm hk)
  unfold State.flagSensor
  dsimp only
  refine State.BandsKept.record (n := 0) (fun m k hm hk => ?_) _
  exact keeps_ite (P := s.BandsKept) flagged (((flagged.fset (f := PWR_SENSOR_REC.SENSOR) (by decide) n).fset
    (f := PWR_SENSOR_REC.KIND) (by decide) kind).fset (f := PWR_SENSOR_REC.VALID) (by decide) 1) m k hm hk

/-- A flagged sensor leaves the power manager. -/
@[simp] theorem State.flagSensor_power (t : State) (n kind : Nat) : (t.flagSensor n kind).power = t.power := by
  unfold State.flagSensor
  dsimp only
  split <;> simp [State.powerRec]

/-- A sensor's reading leaves the bands. -/
theorem State.BandsKept.sampleSensor {s t : State} (h : s.BandsKept t) (n : Nat) (x : Int) :
    s.BandsKept (t.sampleSensor n x) := by
  unfold State.sampleSensor
  dsimp only
  split
  · exact keeps_ite (h.onPower _) ((h.onPower _).flagSensor _ _)
  · exact keeps_ite (h.onPower _) (h.onPower _)

/-- The hot spots' sample leaves the bands. -/
theorem State.BandsKept.sampleSpots {s t : State} (h : s.BandsKept t) : s.BandsKept t.sampleSpots := by
  have start (f : Power → Power) : s.BandsKept (t.draw.onPower f) := State.BandsKept.onPower (t := t.draw) h f
  unfold State.sampleSpots
  dsimp only
  exact keeps_foldl (fun v x hv => hv.flagSensor (2 * x.1) 0) (start _)

/-- The hot spots' sample leaves the sensors. -/
theorem State.sampleSpots_sensors (t : State) : t.sampleSpots.power.sensors = t.power.sensors :=
  keeps_foldl (P := fun v : State => v.power.sensors = t.power.sensors) (fun _ _ hv => by simpa using hv) rfl

/-- A plausible reading of a sensor that is not ignored is kept with its trim (R427). -/
theorem State.sampleSensor_kept {s : State} {n : Nat} {x : Int} (hi : (s.sensor n).ignored = false)
    (hp : s.implausible (x + 4 * Tbl.get 0 s.fuses.trims n) = none) :
    ((s.sampleSensor n x).sensor n).temp = x + 4 * Tbl.get 0 s.fuses.trims n := by
  have put : s.sampleSensor n x = s.onPower (fun w => { w with
      sensors := Tbl.put {} w.sensors n { s.sensor n with temp := x + 4 * Tbl.get 0 s.fuses.trims n } }) := by
    simp only [State.sampleSensor, hp, hi, Bool.not_false, if_true]
  rw [put]
  simp [State.sensor, State.onPower]

/-- A temperature register holds 16 bits. -/
theorem tempBits_mod (x : Int) : tempBits x % 2 ^ 16 = tempBits x := by
  unfold tempBits
  omega

end Front

section Temperatures

/-- The registers of the power manager lie at their own places. -/
theorem powerKey_eq {f : Field} (hb : f.blk = .power) (x i : Nat) : f.key x i = (0x1000 + f.off + i * f.stride) * 64 + f.lo := by
  simp [Field.key, Field.addr, hb, blkBase]

/-- A sample's write of a tower's temperatures. -/
def State.showTower (s t : State) (i : Nat) : State := (t.fset PWR_TEMP_TOWER.LOGIC 0 i (tempBits (s.domainTemp i))).fset
  PWR_TEMP_TOWER.BONDED 0 i (tempBits (s.domainTemp (20 + i)))

/-- A sample's write of the hubs' temperatures and of the largest ones, after those of towers and stacks. -/
theorem State.showTemps_eq (s : State) : ∃ a b c, s.showTemps =
    ((((List.range 24).foldl (fun t i => t.fset PWR_TEMP_STK.STACK 0 i (tempBits (s.domainTemp (36 + i))))
      ((List.range 4).foldl (fun t i => t.fset PWR_TEMP_HUB.LOGIC 0 i (tempBits (s.domainTemp (16 + i))))
        ((List.range 16).foldl s.showTower s))).fset PWR_TEMP_MAX.LOGIC 0 0 a).fset PWR_TEMP_MAX.BONDED 0 0 b).fset
      PWR_TEMP_MAX.STACKS 0 0 c := ⟨_, _, _, rfl⟩

/-- The temperature registers show the stacks' temperatures (Table 17.15). -/
theorem State.showTemps_stack (s : State) {k : Nat} (hk : k < 24) :
    s.showTemps.fget PWR_TEMP_STK.STACK 0 k = tempBits (s.domainTemp (36 + k)) := by
  obtain ⟨a, b, c, e⟩ := s.showTemps_eq
  have most {f : Field} (hf : f = PWR_TEMP_MAX.LOGIC ∨ f = PWR_TEMP_MAX.BONDED ∨ f = PWR_TEMP_MAX.STACKS) :
      PWR_TEMP_STK.STACK.key 0 k ≠ f.key 0 0 := by
    rcases hf with rfl | rfl | rfl
    all_goals
      rw [powerKey_eq rfl, powerKey_eq rfl]
      simp only [PWR_TEMP_STK.STACK, PWR_TEMP_MAX.LOGIC, PWR_TEMP_MAX.BONDED, PWR_TEMP_MAX.STACKS]
      omega
  rw [e, State.fget_fset_ne _ (most (.inr (.inr rfl))), State.fget_fset_ne _ (most (.inr (.inl rfl))),
    State.fget_fset_ne _ (most (.inl rfl))]
  refine foldl_once (P := fun _ => True) (Q := fun v : State => v.fget PWR_TEMP_STK.STACK 0 k = tempBits (s.domainTemp (36 + k)))
    (List.mem_range.mpr hk) List.nodup_range (fun _ _ _ _ h => h) (fun v _ => ?_) (fun v i _ hi hv => ?_) trivial
  · rw [State.fget_fset_same]
    exact tempBits_mod _
  · refine (State.fget_fset_ne v ?_).trans hv
    rw [powerKey_eq rfl, powerKey_eq rfl]
    simp only [PWR_TEMP_STK.STACK]
    omega

/-- The temperature registers show the towers' temperatures (Table 17.15). -/
theorem State.showTemps_tower (s : State) {u : Nat} (hu : u < 16) :
    s.showTemps.fget PWR_TEMP_TOWER.LOGIC 0 u = tempBits (s.domainTemp u) ∧
      s.showTemps.fget PWR_TEMP_TOWER.BONDED 0 u = tempBits (s.domainTemp (20 + u)) := by
  obtain ⟨a, b, c, e⟩ := s.showTemps_eq
  have later {g f : Field} (hg : g = PWR_TEMP_TOWER.LOGIC ∨ g = PWR_TEMP_TOWER.BONDED)
      (hf : f = PWR_TEMP_MAX.LOGIC ∨ f = PWR_TEMP_MAX.BONDED ∨ f = PWR_TEMP_MAX.STACKS) : g.key 0 u ≠ f.key 0 0 := by
    rcases hg with rfl | rfl <;> rcases hf with rfl | rfl | rfl
    all_goals
      rw [powerKey_eq rfl, powerKey_eq rfl]
      simp only [PWR_TEMP_TOWER.LOGIC, PWR_TEMP_TOWER.BONDED, PWR_TEMP_MAX.LOGIC, PWR_TEMP_MAX.BONDED, PWR_TEMP_MAX.STACKS]
      omega
  have beyond {g f : Field} (hg : g = PWR_TEMP_TOWER.LOGIC ∨ g = PWR_TEMP_TOWER.BONDED)
      (hf : f = PWR_TEMP_HUB.LOGIC ∨ f = PWR_TEMP_STK.STACK) (i : Nat) : g.key 0 u ≠ f.key 0 i := by
    rcases hg with rfl | rfl <;> rcases hf with rfl | rfl
    all_goals
      rw [powerKey_eq rfl, powerKey_eq rfl]
      simp only [PWR_TEMP_TOWER.LOGIC, PWR_TEMP_TOWER.BONDED, PWR_TEMP_HUB.LOGIC, PWR_TEMP_STK.STACK]
      omega
  have kept {g : Field} (hg : g = PWR_TEMP_TOWER.LOGIC ∨ g = PWR_TEMP_TOWER.BONDED) :
      s.showTemps.fget g 0 u = ((List.range 16).foldl s.showTower s).fget g 0 u := by
    rw [e, State.fget_fset_ne _ (later hg (.inr (.inr rfl))), State.fget_fset_ne _ (later hg (.inr (.inl rfl))),
      State.fget_fset_ne _ (later hg (.inl rfl))]
    have hubs := keeps_foldl (P := fun v : State => v.fget g 0 u = ((List.range 16).foldl s.showTower s).fget g 0 u)
      (f := fun t i => t.fset PWR_TEMP_HUB.LOGIC 0 i (tempBits (s.domainTemp (16 + i)))) (l := List.range 4)
      (fun v i hv => (State.fget_fset_ne v (beyond hg (.inl rfl) i)).trans hv) rfl
    exact keeps_foldl (P := fun v : State => v.fget g 0 u = ((List.range 16).foldl s.showTower s).fget g 0 u)
      (fun v i hv => (State.fget_fset_ne v (beyond hg (.inr rfl) i)).trans hv) hubs
  rw [kept (.inl rfl), kept (.inr rfl)]
  refine foldl_once (P := fun _ => True) (Q := fun v : State => v.fget PWR_TEMP_TOWER.LOGIC 0 u = tempBits (s.domainTemp u) ∧
    v.fget PWR_TEMP_TOWER.BONDED 0 u = tempBits (s.domainTemp (20 + u)))
    (List.mem_range.mpr hu) List.nodup_range (fun _ _ _ _ h => h) (fun v _ => ⟨?_, ?_⟩) (fun v i _ hi hv => ?_) trivial
  · rw [State.showTower, State.fget_fset_lo (f := PWR_TEMP_TOWER.BONDED) (g := PWR_TEMP_TOWER.LOGIC) _ rfl rfl rfl (by decide),
      State.fget_fset_same]
    exact tempBits_mod _
  · rw [State.showTower, State.fget_fset_same]
    exact tempBits_mod _
  · have other {g f : Field} (hg : g = PWR_TEMP_TOWER.LOGIC ∨ g = PWR_TEMP_TOWER.BONDED)
        (hf : f = PWR_TEMP_TOWER.LOGIC ∨ f = PWR_TEMP_TOWER.BONDED) : g.key 0 u ≠ f.key 0 i := by
      rcases hg with rfl | rfl <;> rcases hf with rfl | rfl
      all_goals
        rw [powerKey_eq rfl, powerKey_eq rfl]
        simp only [PWR_TEMP_TOWER.LOGIC, PWR_TEMP_TOWER.BONDED]
        omega
    have same {g : Field} (hg : g = PWR_TEMP_TOWER.LOGIC ∨ g = PWR_TEMP_TOWER.BONDED) :
        (s.showTower v i).fget g 0 u = v.fget g 0 u := by
      rw [State.showTower, State.fget_fset_ne _ (other hg (.inr rfl)), State.fget_fset_ne _ (other hg (.inl rfl))]
    obtain ⟨hlogic, hbonded⟩ := hv
    exact ⟨(same (.inl rfl)).trans hlogic, (same (.inr rfl)).trans hbonded⟩

/-- The bands and the power manager's state are the same in two states. -/
structure State.ManagerKept (s t : State) : Prop where
  bands : s.BandsKept t
  power : t.power = s.power

/-- A field below the hubs' registers is set. -/
theorem State.ManagerKept.fset {s t : State} (h : s.ManagerKept t) {f : Field} {x i : Nat} (hf : f.key x i < hubKeys) (v : Nat) :
    s.ManagerKept (t.fset f x i v) := by
  obtain ⟨bands, power⟩ := h
  exact ⟨bands.fset hf v, power⟩

/-- The temperature registers lie below the hubs'. -/
theorem tempKey_low {f : Field} (hf : f = PWR_TEMP_TOWER.LOGIC ∨ f = PWR_TEMP_TOWER.BONDED ∨ f = PWR_TEMP_HUB.LOGIC ∨
    f = PWR_TEMP_STK.STACK) {i : Nat} (hi : i < 24) : f.key 0 i < hubKeys := by
  rcases hf with rfl | rfl | rfl | rfl
  all_goals
    rw [powerKey_eq rfl]
    simp only [PWR_TEMP_TOWER.LOGIC, PWR_TEMP_TOWER.BONDED, PWR_TEMP_HUB.LOGIC, PWR_TEMP_STK.STACK, hubKeys]
    omega

/-- Temperature registers are written one after another. -/
theorem State.ManagerKept.foldl {s t : State} (h : s.ManagerKept t) {n : Nat} (hn : n ≤ 24) {f : State → Nat → State}
    (hf : ∀ u i, i < 24 → s.ManagerKept u → s.ManagerKept (f u i)) : s.ManagerKept ((List.range n).foldl f t) :=
  foldl_keeps_mem s.ManagerKept f _ (fun u _ hi hu => hf u _ ((List.mem_range.mp hi).trans_le hn) hu) t h

/-- The temperature registers are written below the hubs', and the power manager's state stays. -/
theorem State.showTemps_kept (s : State) : s.ManagerKept s.showTemps := by
  obtain ⟨a, b, c, e⟩ := s.showTemps_eq
  have start : s.ManagerKept s := ⟨fun _ _ _ _ => rfl, rfl⟩
  have towers := start.foldl (n := 16) (f := s.showTower) (by decide) fun u i hi hu =>
    State.ManagerKept.fset (hu.fset (tempKey_low (.inl rfl) hi) _) (tempKey_low (.inr (.inl rfl)) hi) _
  have hubs := towers.foldl (n := 4) (by decide) fun u i hi hu =>
    hu.fset (tempKey_low (.inr (.inr (.inl rfl))) hi) (tempBits (s.domainTemp (16 + i)))
  have stacked := hubs.foldl (n := 24) (by decide) fun u i hi hu =>
    hu.fset (tempKey_low (.inr (.inr (.inr rfl))) hi) (tempBits (s.domainTemp (36 + i)))
  rw [e]
  exact ((stacked.fset (f := PWR_TEMP_MAX.LOGIC) (by decide) a).fset (f := PWR_TEMP_MAX.BONDED) (by decide) b).fset
    (f := PWR_TEMP_MAX.STACKS) (by decide) c

end Temperatures

section Bands

variable {s t : State}

/-- A band's step leaves the power manager, and the registers below the hubs'. -/
theorem State.bandStep_kept (t : State) (h i : Nat) (hi : i < 10) : (t.bandStep h i).power = t.power ∧ t.LowKept (t.bandStep h i) := by
  have band (v : Nat) : t.LowKept (t.fsetAt HUB_BAND.STACK0 h 0 (2 * i) v) :=
    (State.LowKept.refl t).fsetAt (by simp only [HUB_BAND.STACK0]; omega) (by decide) ..
  unfold State.bandStep
  dsimp only
  generalize (if i < 6 then 36 + 6 * h + i else 20 + 4 * h + (i - 6)) = d
  split
  · exact ⟨rfl, .refl t⟩
  · refine ⟨by simp, ?_⟩
    split
    · exact ((band _).fset (f := HUB_MEM_EVENT.BAND_UP) (by decide) (by decide) ..).quiet (State.evt_regs ..)
    · exact ((band _).fset (f := HUB_MEM_EVENT.BAND_DOWN) (by decide) (by decide) ..).quiet (State.evt_regs ..)

/-- A band lies apart from the events of the bands. -/
theorem bandKey_ne_event {f : Field} (hf : f = HUB_MEM_EVENT.BAND_UP ∨ f = HUB_MEM_EVENT.BAND_DOWN) {h i : Nat} (hi : i < 10)
    (g : Nat) : (bandField i).key h 0 ≠ f.key g 0 := by
  rw [bandKey_eq]
  rcases hf with rfl | rfl
  all_goals
    simp only [Field.key, Field.addr, HUB_MEM_EVENT.BAND_UP, HUB_MEM_EVENT.BAND_DOWN, blkBase]
    omega

/-- A band takes a value with its event: the field holds it. -/
theorem State.bandSet_fget (t : State) {f : Field} (hf : f = HUB_MEM_EVENT.BAND_UP ∨ f = HUB_MEM_EVENT.BAND_DOWN) {i : Nat}
    (hi : i < 10) (h v : Nat) :
    ((t.fsetAt HUB_BAND.STACK0 h 0 (2 * i) v).evt f h 0 1 none).fget (bandField i) h 0 = v % 4 := by
  rw [State.fget_evt_ne _ (bandKey_ne_event hf hi h), ← State.fgetAt_band, State.fgetAt_fsetAt_same]
  rfl

/-- A band's step moves its band (R209). -/
theorem State.bandStep_same (t : State) {h i : Nat} (hi : i < 6) (hb : t.fget (bandField i) h 0 < 4) :
    (t.bandStep h i).fget (bandField i) h 0 =
      nextBand (t.fget (bandField i) h 0) (t.domainTemp (36 + 6 * h + i)) := by
  have fits (x : Int) : nextBand (t.fget (bandField i) h 0) x < 4 := by
    unfold nextBand
    dsimp only
    split_ifs <;> omega
  unfold State.bandStep
  simp only [State.fgetAt_band, hi, if_true]
  split
  · next e => exact e.symm
  · refine Eq.trans ?_ (Nat.mod_eq_of_lt (fits (t.domainTemp (36 + 6 * h + i))))
    split
    · exact t.bandSet_fget (.inl rfl) (by omega) h _
    · exact t.bandSet_fget (.inr rfl) (by omega) h _

/-- A band's step leaves every other band. -/
theorem State.bandStep_other (t : State) {h i g k : Nat} (hi : i < 10) (hk : k < 10) (hne : g ≠ h ∨ k ≠ i) :
    (t.bandStep g k).fget (bandField i) h 0 = t.fget (bandField i) h 0 := by
  have apart (v : Nat) : (t.fsetAt HUB_BAND.STACK0 g 0 (2 * k) v).fget (bandField i) h 0 = t.fget (bandField i) h 0 := by
    refine State.fget_fsetAt_ne t ?_
    rw [bandKey_eq]
    simp only [Field.key, Field.addr, HUB_BAND.STACK0, blkBase]
    omega
  unfold State.bandStep
  dsimp only
  generalize (if k < 6 then 36 + 6 * g + k else 20 + 4 * g + (k - 6)) = d
  split
  · rfl
  · split
    · rw [State.fget_evt_ne _ (bandKey_ne_event (.inl rfl) hi g), apart]
    · rw [State.fget_evt_ne _ (bandKey_ne_event (.inr rfl) hi g), apart]

/-- The bands of one hub. -/
def State.hubBands (t : State) (h : Nat) : State := (List.range 10).foldl (fun u i => u.bandStep h i) t

/-- The bands are moved hub by hub. -/
theorem State.bands_eq (t : State) : t.bands = (List.range 4).foldl State.hubBands t := rfl

/-- A hub's bands leave the power manager, and the registers below the hubs'. -/
theorem State.hubBands_kept (t : State) (h : Nat) : (t.hubBands h).power = t.power ∧ t.LowKept (t.hubBands h) :=
  foldl_keeps_mem (fun v => v.power = t.power ∧ t.LowKept v) _ _ (fun v i hi hv => by
    obtain ⟨hpower, hlow⟩ := v.bandStep_kept h i (List.mem_range.mp hi)
    exact ⟨hpower.trans hv.1, State.Alike.trans hv.2 hlow⟩) t ⟨rfl, .refl t⟩

/-- The bands leave the power manager, and the registers below the hubs'. -/
theorem State.bands_kept (t : State) : t.bands.power = t.power ∧ t.LowKept t.bands :=
  keeps_foldl (P := fun v => v.power = t.power ∧ t.LowKept v) (fun v h hv => by
    obtain ⟨hpower, hlow⟩ := v.hubBands_kept h
    exact ⟨hpower.trans hv.1, State.Alike.trans hv.2 hlow⟩) ⟨rfl, .refl t⟩

/-- A temperature is what the hot spots say. -/
theorem State.domainTemp_congr (h : t.power.spots = s.power.spots) (d : Nat) : t.domainTemp d = s.domainTemp d := by
  simp [State.domainTemp, State.spot, h]

/-- A hub's bands leave the bands of the others. -/
theorem State.hubBands_other (t : State) {h i g : Nat} (hi : i < 6) (hg : g ≠ h) :
    (t.hubBands g).fget (bandField i) h 0 = t.fget (bandField i) h 0 :=
  foldl_keeps_mem (fun v : State => v.fget (bandField i) h 0 = t.fget (bandField i) h 0) _ _ (fun v k hk hv =>
    (v.bandStep_other (by omega) (List.mem_range.mp hk) (.inl hg)).trans hv) t rfl

/-- A hub's bands move each by its temperature. -/
theorem State.hubBands_same (t : State) {h i : Nat} (hi : i < 6) (hb : t.fget (bandField i) h 0 < 4) :
    (t.hubBands h).fget (bandField i) h 0 = nextBand (t.fget (bandField i) h 0) (t.domainTemp (36 + 6 * h + i)) := by
  refine foldl_once (P := fun v : State => v.power = t.power ∧ v.fget (bandField i) h 0 = t.fget (bandField i) h 0)
    (Q := fun v : State => v.fget (bandField i) h 0 = nextBand (t.fget (bandField i) h 0) (t.domainTemp (36 + 6 * h + i)))
    (List.mem_range.mpr (by omega : i < 10)) List.nodup_range (fun v k hk hne hv => ?_) (fun v hv => ?_) (fun v k hk hne hv => ?_)
    ⟨rfl, rfl⟩
  · obtain ⟨hpower, hband⟩ := hv
    have hk10 := List.mem_range.mp hk
    exact ⟨(v.bandStep_kept h k hk10).1.trans hpower, (v.bandStep_other (by omega) hk10 (.inr hne)).trans hband⟩
  · obtain ⟨hpower, hband⟩ := hv
    rw [v.bandStep_same hi (by rwa [hband]), hband, State.domainTemp_congr (s := t) (by rw [hpower])]
  · exact (v.bandStep_other (by omega) (List.mem_range.mp hk) (.inr hne)).trans hv

/-- Every stack's band moves by its temperature (R209). -/
theorem State.bands_move (t : State) {h i : Nat} (hh : h < 4) (hi : i < 6) (hb : t.fget (bandField i) h 0 < 4) :
    t.bands.fget (bandField i) h 0 = nextBand (t.fget (bandField i) h 0) (t.domainTemp (36 + 6 * h + i)) := by
  rw [State.bands_eq]
  refine foldl_once (P := fun v : State => v.power = t.power ∧ v.fget (bandField i) h 0 = t.fget (bandField i) h 0)
    (Q := fun v : State => v.fget (bandField i) h 0 = nextBand (t.fget (bandField i) h 0) (t.domainTemp (36 + 6 * h + i)))
    (List.mem_range.mpr hh) List.nodup_range (fun v g _ hne hv => ?_) (fun v hv => ?_) (fun v g _ hne hv => ?_) ⟨rfl, rfl⟩
  · obtain ⟨hpower, hband⟩ := hv
    exact ⟨(v.hubBands_kept g).1.trans hpower, (v.hubBands_other hi hne).trans hband⟩
  · obtain ⟨hpower, hband⟩ := hv
    rw [v.hubBands_same hi (by rwa [hband]), hband, State.domainTemp_congr (s := t) (by rw [hpower])]
  · exact (v.hubBands_other hi hne).trans hv

end Bands

section Sample

/-- A sample of the sensors: their readings, then hot spots, then what follows from them. -/
def State.sampled (s : State) (l : List (Nat × Int)) : State := (l.foldl (fun t (n, x) => t.sampleSensor n x) s).sampleSpots

/-- What follows from the hot spots of a sample. -/
def State.settled (s : State) : State := s.showTemps.leave.lowerHot.bands.delivAll.alert

/-- SENSOR_SAMPLE with the always-on domain. -/
theorem exec_sensorSample {s : State} {l : List (Nat × Int)} (ha : s.boot.ao = true) (hl : ∀ e ∈ l, e.1 < 752) :
    exec (.sensorSample l) s = .next ((s.sampled l).settled.withQueue s.pending) := by
  have good : l.all (fun x => decide (x.1 < 752)) = true := List.all_eq_true.mpr fun e he => decide_eq_true (hl e he)
  show execSensorSample l s = _
  rw [execSensorSample, good, ha, if_neg (by simp)]
  exact ok_true _ _

/-- A sample's readings leave the bands. -/
theorem State.sampled_bands (s : State) (l : List (Nat × Int)) : s.BandsKept (s.sampled l) :=
  State.BandsKept.sampleSpots (keeps_foldl (P := s.BandsKept) (fun _ x hv => hv.sampleSensor x.1 x.2) fun _ _ _ _ => rfl)

/-- THERM_ALERT_N is no part of the power manager's state. -/
theorem State.alert_power (t : State) : t.alert.power = t.power := rfl

/-- THERM_ALERT_N is no register. -/
theorem State.fget_alert (t : State) (g : Field) (x i : Nat) : t.alert.fget g x i = t.fget g x i := rfl

/-- HUB_DELIV of every hub leaves the bands. -/
theorem State.delivAll_band (t : State) {h i : Nat} (hi : i < 6) : t.delivAll.fget (bandField i) h 0 = t.fget (bandField i) h 0 :=
  keeps_foldl (P := fun v : State => v.fget (bandField i) h 0 = t.fget (bandField i) h 0) (fun v g hv => by
    rw [State.deliv, State.fget_fset_ne _ ?_, hv]
    rw [bandKey_eq]
    simp only [Field.key, Field.addr, HUB_DELIV.GBPS, blkBase]
    omega) rfl

/-- What a sample settles leaves hot spots and sensors, shows the temperatures, and moves the bands. -/
theorem State.settled_spec (s : State) : s.settled.power.spots = s.power.spots ∧ s.settled.power.sensors = s.power.sensors ∧
    (∀ (g : Field) (i : Nat), g.key 0 i < 0x1100 * 64 → s.settled.fget g 0 i = s.showTemps.fget g 0 i) ∧
    ∀ h i, h < 4 → i < 6 → s.fget (bandField i) h 0 < 4 → s.settled.fget (bandField i) h 0 =
      nextBand (s.fget (bandField i) h 0) (s.domainTemp (36 + 6 * h + i)) := by
  have shown : s.showTemps.ShownKept s.showTemps.leave.lowerHot := (State.ShownKept.refl _).leave.lowerHot
  obtain ⟨front, managed⟩ := s.showTemps_kept
  obtain ⟨reads, spots, sensors⟩ := shown
  generalize hw : s.showTemps.leave.lowerHot = w at reads spots sensors
  obtain ⟨bandsPower, bandsLow⟩ := w.bands_kept
  obtain ⟨delivLow, -⟩ := w.bands.delivAll_kept
  have power : s.settled.power = w.power := by
    rw [State.settled, hw, State.alert_power, State.delivAll_power, bandsPower]
  have alerted (g : Field) (x i : Nat) : s.settled.fget g x i = w.bands.delivAll.fget g x i := by
    rw [State.settled, hw, State.fget_alert]
  refine ⟨by rw [power, spots, managed], by rw [power, sensors, managed], fun g i hg => ?_, fun h i hh hi hb => ?_⟩
  · have low : g.key 0 i < hubKeys := by
      simp only [hubKeys]
      omega
    rw [alerted, delivLow.fget low, bandsLow.fget low, reads _ _ _ (.inl hg)]
  · have start : w.fget (bandField i) h 0 = s.fget (bandField i) h 0 :=
      (reads _ _ _ (shownPlace_band hh hi)).trans (front h i hh hi)
    rw [alerted, w.bands.delivAll_band hi, w.bands_move hh hi (by rwa [start]), start,
      State.domainTemp_congr (s := s) (by rw [spots, managed])]

/-- A stack's place in its hub. -/
theorem State.stackBand_eq (s : State) (k : Nat) : s.stackBand k = s.fget (bandField (k % 6)) (k / 6) 0 := s.fgetAt_band ..

/-- What a sample shows, and how it moves the bands (R209, R426). -/
theorem State.sampled_spec (s : State) (l : List (Nat × Int)) {t : State} (ht : t = (s.sampled l).settled) :
    (∀ k, k < 24 → t.fget PWR_TEMP_STK.STACK 0 k = tempBits (t.domainTemp (36 + k)) ∧
      (s.stackBand k < 4 → t.stackBand k = nextBand (s.stackBand k) (t.domainTemp (36 + k)))) ∧
    ∀ u, u < 16 → t.fget PWR_TEMP_TOWER.LOGIC 0 u = tempBits (t.domainTemp u) ∧
      t.fget PWR_TEMP_TOWER.BONDED 0 u = tempBits (t.domainTemp (20 + u)) := by
  obtain ⟨spots, -, reads, bands⟩ := (s.sampled l).settled_spec
  rw [← ht] at spots reads bands
  have temp := State.domainTemp_congr spots
  have low {f : Field} (hf : f = PWR_TEMP_TOWER.LOGIC ∨ f = PWR_TEMP_TOWER.BONDED ∨ f = PWR_TEMP_STK.STACK) {i : Nat} (hi : i < 24) :
      f.key 0 i < 0x1100 * 64 := by
    rcases hf with rfl | rfl | rfl
    all_goals
      rw [powerKey_eq rfl]
      simp only [PWR_TEMP_TOWER.LOGIC, PWR_TEMP_TOWER.BONDED, PWR_TEMP_STK.STACK]
      omega
  refine ⟨fun k hk => ⟨?_, fun hb => ?_⟩, fun u hu => ?_⟩
  · rw [reads _ _ (low (.inr (.inr rfl)) hk), State.showTemps_stack _ hk, temp]
  · have same : (s.sampled l).fget (bandField (k % 6)) (k / 6) 0 = s.stackBand k :=
      (s.sampled_bands l _ _ (by omega) (by omega)).trans (s.stackBand_eq k).symm
    have moved := bands (k / 6) (k % 6) (by omega) (by omega) (by rwa [same])
    rw [State.stackBand_eq t, moved, same, temp, show 36 + 6 * (k / 6) + k % 6 = 36 + k by omega]
  · obtain ⟨logic, bonded⟩ := (s.sampled l).showTemps_tower hu
    rw [reads _ _ (low (.inl rfl) (by omega)), reads _ _ (low (.inr (.inl rfl)) (by omega)), logic, bonded, temp, temp]
    exact ⟨rfl, rfl⟩

/-- A plausible reading of one sensor that is not ignored is kept through a sample (R427). -/
theorem State.sampled_sensor (s : State) {n : Nat} {x : Int} (hi : (s.sensor n).ignored = false)
    (hp : s.implausible (x + 4 * Tbl.get 0 s.fuses.trims n) = none) :
    ((s.sampled [(n, x)]).settled.sensor n).temp = x + 4 * Tbl.get 0 s.fuses.trims n := by
  obtain ⟨-, sensors, -, -⟩ := (s.sampled [(n, x)]).settled_spec
  have kept : (s.sampled [(n, x)]).power.sensors = (s.sampleSensor n x).power.sensors := State.sampleSpots_sensors _
  rw [State.sensor, sensors, kept]
  exact State.sampleSensor_kept hi hp

end Sample

section ThermalLimits

/-- Without the always-on domain a comparator does nothing. -/
theorem State.throttleCmp_off {s : State} (ha : s.boot.ao = false) (d n : Nat) (x : Int) : s.throttleCmp d n x = s := by
  rw [State.throttleCmp]
  split
  · rfl
  · rw [ha]
    rfl

/-- Without the always-on domain no thermal command changes anything. -/
theorem exec_thermal_off {s : State} (ha : s.boot.ao = false) {n k : Nat} (x : Int) (hn : n < 752) (hk : k < 376) :
    ∀ c ∈ [Instr.sensorSample [(n, x)], .thermalWarning k, .towerThrottle n x, .stackThrottle n x, .thermalShutdown n x],
      exec c s = .next s := by
  have sample : execSensorSample [(n, x)] s = .next s := by
    rw [execSensorSample, List.all_cons, List.all_nil, decide_eq_true hn, ha]
    exact ok_of_pending rfl
  have warning : execThermalWarning k s = .next s := by
    rw [execThermalWarning, decide_eq_true hk, ha]
    exact ok_of_pending rfl
  have tower : execTowerThrottle n x s = .next s := by
    rw [execTowerThrottle, decide_eq_true hn]
    dsimp only
    rw [State.throttleCmp_off ha, ite_self]
    exact ok_of_pending rfl
  have stack : execStackThrottle n x s = .next s := by
    rw [execStackThrottle, decide_eq_true hn]
    dsimp only
    rw [State.throttleCmp_off ha, ite_self]
    exact ok_of_pending rfl
  have shutdown : execThermalShutdown n x s = .next s := by
    rw [execThermalShutdown, decide_eq_true hn, ha]
    dsimp only
    split <;> exact ok_of_pending rfl
  intro c hc
  fin_cases hc
  exacts [sample, warning, tower, stack, shutdown]

/-- A sample changes no byte of memory. -/
theorem exec_sensorSample_mem {s t : State} {l : List (Nat × Int)} (h : exec (.sensorSample l) s = .next t) : t.mem = s.mem := by
  obtain ⟨hmem, -⟩ := execSensorSample_keeps (within_opened _ s) (within_queue _ s) l s (.refl _ s) h .memory (by decide)
  exact hmem.symm

variable (s : State) {k : Nat}

/-- The next cap of a stack and the caps of the others, where the cap fits its field. -/
theorem exec_stackCapStep_spec (hk : k < 24) (hc : s.fget PWR_STK_CAP.CAP 0 k < 512) :
    ∃ t, exec (.stackCapStep k) s = .next t ∧
    (s.fget PWR_STK_CAP.THROTTLED 0 k = 1 →
      ((∃ d ∈ s.power.throttled, k ∈ throttleStacks d ∧ throttleAt d ≤ s.domainTemp d) →
        t.fget PWR_STK_CAP.CAP 0 k = max 95 (s.fget PWR_STK_CAP.CAP 0 k - 5)) ∧
      ((∀ d ∈ s.power.throttled, k ∈ throttleStacks d → s.domainTemp d < throttleAt d) →
        t.fget PWR_STK_CAP.CAP 0 k = s.fget PWR_STK_CAP.CAP 0 k)) ∧
    (s.fget PWR_STK_CAP.THROTTLED 0 k = 0 → s.fget PWR_MODE.MODE 0 0 ≠ 2 → s.fget PWR_STK_CAP.CAP 0 k ≠ 0 →
      8 * (s.fget PWR_STK_CAP.CAP 0 k + 5) < bandRate (s.stackBand k) → s.fget PWR_STK_CAP.CAP 0 k ≠ 189 →
      t.fget PWR_STK_CAP.CAP 0 k = s.fget PWR_STK_CAP.CAP 0 k + 5) ∧
    ∀ j, j < 24 → j ≠ k → t.fget PWR_STK_CAP.CAP 0 j = s.fget PWR_STK_CAP.CAP 0 j := by
  refine ⟨_, exec_stackCapStep hk, fun ht => ⟨fun hot => ?_, fun cool => ?_⟩, fun ht hm h0 hb h9 => ?_,
    fun j hj hne => State.cap_step_other hj hne⟩
  · have next := State.nextCap_hot ht hot
    rw [State.cap_step hk (by omega), next]
  · have next := State.nextCap_cool ht cool
    rw [State.cap_step hk (by omega), next]
  · have next := State.nextCap_rise ht hm h0 hb h9
    have rate := bandRate_le (s.stackBand k)
    rw [State.cap_step hk (by omega), next]

/-- Settles O53: a sample, the comparators, the cap step, the trip and its release, each by its own lemma. -/
theorem thermalLimitsActOnTheirDomains : Obligations.ThermalLimitsActOnTheirDomains := by
  unfold Obligations.ThermalLimitsActOnTheirDomains
  refine ⟨fun s ha n x k hn hk => exec_thermal_off ha x hn hk, fun s l ha hl => ?_, fun s k hk ha => ⟨fun hw hv => ?_, ?_⟩,
    fun s n x hn ha c hc => ⟨fun y hs hy ht => ?_, exec_throttle_quiet hn hc⟩, fun s k hk hc => exec_stackCapStep_spec s hk hc,
    fun s n x hn ha => ⟨fun y hs ht hy => ?_, exec_thermalShutdown_quiet hn⟩, fun s who hw =>
    ⟨exec_tripRelease_refused hw, fun may => ⟨_, exec_tripRelease_accepted hw may, s.released_reset rfl⟩⟩⟩
  · have sampled := exec_sensorSample ha hl
    obtain ⟨stk, tower⟩ := s.sampled_spec l rfl
    have kept (n : Nat) (x : Int) (he : l = [(n, x)]) (hi : (s.sensor n).ignored = false)
        (hp : s.implausible (x + 4 * Tbl.get 0 s.fuses.trims n) = none) :
        ((s.sampled l).settled.sensor n).temp = x + 4 * Tbl.get 0 s.fuses.trims n := he ▸ s.sampled_sensor hi hp
    have mem := exec_sensorSample_mem sampled
    generalize (s.sampled l).settled = t at sampled stk tower kept mem
    exact ⟨_, sampled, mem, stk, tower, kept⟩
  · obtain ⟨warned, event, alert, mem, -⟩ := s.warn_fields k
    exact ⟨_, exec_thermalWarning_warns hk ha hw hv, warned, event, alert, mem⟩
  · exact exec_thermalWarning_quiet hk
  · obtain ⟨listed, event, towers, capped⟩ := State.throttled_spec (spotDomain_lt (by omega : n / 2 < 376)) s n y
    exact ⟨_, exec_throttle_trips hn hc ha hs hy ht, listed, event, towers, capped⟩
  · obtain ⟨trip, halted, phase, hold, latched, sensor, cause, off⟩ := s.tripAt_fields hn y
    have trips := exec_thermalShutdown_trips hn ha hs ht hy
    generalize s.tripAt n y = t at trips trip halted phase hold latched sensor cause off
    exact ⟨_, trips, trip, halted, phase, hold, latched, sensor, cause, off⟩

end ThermalLimits

end Sys2Proof.Machine
end

section
/-!
SUPPORT. What the start of a partition's reset leaves (R334): PART_LOAD_STATUS and the image of a load that is under way.
-/

namespace Sys2Proof.Machine

section StatusKept

/-- The register PART_LOAD_STATUS (Table 13.5). -/
def statusRegister (a : Nat) : Prop := a = 0x8034

/-- The two states read alike in PART_LOAD_STATUS. -/
def State.StatusKept (s t : State) : Prop := State.Alike statusRegister s t

/-- The field is in another register, whichever unit is taken. -/
def Field.offStatus (f : Field) : Bool :=
  decide (f.lo < 64) && (f.blk == .prot && f.stride == 0 && decide (f.off < 0x34) || decide (0x100000 ≤ (blkBase f.blk).1))

/-- Such a field lies apart from PART_LOAD_STATUS. -/
theorem Field.offStatus_addr {f : Field} (hf : f.offStatus = true) (u i : Nat) : f.lo < 64 ∧ ¬ statusRegister (f.addr u i) := by
  simp only [Field.offStatus, Bool.and_eq_true, Bool.or_eq_true, beq_iff_eq, decide_eq_true_eq] at hf
  obtain ⟨hl, ⟨⟨hb, hs⟩, ho⟩ | hb⟩ := hf
  all_goals
    refine ⟨hl, ?_⟩
    simp only [statusRegister, Field.addr]
  · rw [hs, hb]
    simp only [blkBase]
    omega
  · omega

/-- What an engine's work writes lies apart from PART_LOAD_STATUS. -/
theorem spared_statusKept (s : State) : Spared s.StatusKept where
  quiet hr h := State.Alike.quiet h hr
  write h hf sh hl u i v := by
    refine State.Alike.write h hl (fun ha => ?_) v
    have hle := workFields_key_le hf u i
    simp only [statusRegister, hubKeys, Field.key] at ha hle
    omega

end StatusKept

namespace State.StatusKept

section Registers

variable {s t u : State} (h : s.StatusKept t)
include h

/-- What writes no register keeps it. -/
theorem quiet (hr : u.regs = t.regs) : s.StatusKept u := State.Alike.quiet h hr

/-- A field in another register is set. -/
theorem fset {f : Field} (hf : f.offStatus = true) (x i v : Nat) : s.StatusKept (t.fset f x i v) :=
  State.Alike.fset h (Field.offStatus_addr hf x i).1 (Field.offStatus_addr hf x i).2 v

/-- Bits of an event field in another register are set. -/
theorem evt {f : Field} (hf : f.offStatus = true) (x i mask : Nat) (p : Option Nat) : s.StatusKept (t.evt f x i mask p) :=
  (h.fset hf x i _).quiet (State.evt_regs ..)

/-- What keeps the registers below the hubs' keeps it. -/
theorem low (hk : t.LowKept u) : s.StatusKept u :=
  State.Alike.trans h (State.Alike.mono hk fun a ha => by
    simp only [statusRegister] at ha
    simp only [lowRegister]
    omega)

/-- What a refusal at ingress sets (R189, R330). -/
theorem refusal (p : Nat) (r : Right) (src a : Nat) : s.StatusKept (t.refusal p r src a) := by
  have flagged := h.evt (f := PROT_EVENT.REFUSED) (by decide) 0 0 1 (some p)
  exact keeps_ite flagged (fset (fset (fset (fset (fset flagged (by decide) ..) (by decide) ..) (by decide) ..)
    (by decide) ..) (by decide) ..)

/-- The deck engine writes, or is refused (R297, R329). -/
theorem engPut (p a : Nat) (bs : List Byte) : s.StatusKept (t.engPut p a bs) := by
  unfold State.engPut
  dsimp only
  split
  · exact (h.refusal ..).evt (by decide) ..
  · refine keeps_ite (h.refusal ..) (keeps_ite h (quiet (keeps_foldl1 (fun _ _ hu => ?_) h) (by rfl)))
    exact (spared_statusKept s).writeMarks hu ..

end Registers

section Reservations

variable {s t : State} (h : s.StatusKept t)
include h

/-- The frames of a reservation go back (R164, R173). -/
theorem unreserve (r : Resv) : s.StatusKept (t.unreserve r) := keeps_foldl (fun _ _ hu => (spared_statusKept s).unref hu _) h

/-- A started command changes. -/
theorem onExec (p x : Nat) (f : Exec → Exec) : s.StatusKept (t.onExec p x f) := h.quiet (by simp)

/-- A deck context changes. -/
theorem onDeck (d : Nat) (f : Deck → Deck) : s.StatusKept (t.onDeck d f) := h.quiet (by simp)

/-- What was reserved for later goes back. -/
theorem unlater (p x : Nat) : s.StatusKept (t.unlater p x) := onExec (keeps_foldl (fun _ _ hu => hu.unreserve _) h) ..

/-- Every reservation of a command goes back. -/
theorem unreserveAll (p x : Nat) : s.StatusKept (t.unreserveAll p x) :=
  unlater (onExec (keeps_foldl (fun _ _ hu => hu.unreserve _) h) ..) ..

/-- A regrowth ends (R174). -/
theorem regrowEnd (p : Nat) (r : Resv) (w : Regrow) : s.StatusKept (t.regrowEnd p r w) := by
  have written {u : State} (hu : s.StatusKept u) (src q k : Nat) (bs : List Byte) : s.StatusKept (u.engWrite src q k bs) :=
    (spared_statusKept s).engWrite hu ..
  have entered : s.StatusKept (r.ring.foldl (fun t (l, k, pg) =>
      if w.rebuild.contains l && decide (t.hdr pg 12 2 > 0) then t.setPte p r.slot l k (pteOf pg) else t) t) :=
    keeps_foldl (fun _ _ hu => keeps_ite (written hu ..) hu) h
  unfold State.regrowEnd
  have settled := unreserve (keeps_ite (c := w.next < t.sessN p r.slot) h entered)
  exact keeps_ite (settled _) (fset (written (written (settled _) ..) ..) (by decide) ..)

/-- A command lets go of what it holds (R322). -/
theorem letGo (p x : Nat) : s.StatusKept (t.letGo p x) := by
  have freed : s.StatusKept (((t.execOf p x).written.foldl State.unpin (t.dropStreams p x)).onExec p x
      (fun e => { e with written := [] })) :=
    onExec (keeps_foldl (fun _ _ hu => (spared_statusKept s).unpin hu _) (h.quiet (by rfl))) ..
  unfold State.letGo
  dsimp only
  split
  · exact onExec (unlater (freed.regrowEnd ..) ..) ..
  · exact freed.unreserveAll ..

end Reservations

section Completion

variable {s t : State} (h : s.StatusKept t)
include h

/-- A vector of one function is raised (R293). -/
theorem raise1 (port fn v : Nat) : s.StatusKept (t.raise1 port fn v) := h.quiet (by simp)

/-- A completion record is written, and its interrupt sent (R308). -/
theorem deckRecord (d tag status : Nat) (late : Bool) (detail : Nat) (irq : Bool) :
    s.StatusKept (t.deckRecord d tag status late detail irq) := by
  unfold State.deckRecord
  exact keeps_ite (raise1 (onDeck (h.engPut ..) ..) ..) (onDeck (h.engPut ..) ..)

/-- A deck whose stop waited for its commands stops (R322). -/
theorem stopCheck (d : Nat) : s.StatusKept (t.stopCheck d) := by
  unfold State.stopCheck
  dsimp only
  split
  · exact h
  · exact keeps_ite h (onDeck (fset (keeps_ite h (keeps_foldl (fun _ _ hu => hu.deckRecord ..) h)) (by decide) ..) ..)

/-- A command completes (R308). -/
theorem complete (p x status detail : Nat) : s.StatusKept (t.complete p x status detail) :=
  stopCheck (onExec (keeps_ite h (h.deckRecord ..)) ..) _

end Completion

end State.StatusKept

/-- An abort marks the instance, and changes nothing else of the partitions (R115). -/
theorem State.abortInst_parts (t : State) (p l : Nat) :
    (t.abortInst p l).parts = (t.onInst p l (fun i => { i with aborted := true })).parts := by
  have cancelled : (t.cancelSteps p l (t.inst p l).tileList).parts = t.parts := by
    obtain ⟨hparts, -⟩ := State.cancelSteps_keeps (within_opened _ t) t p l (t.inst p l).tileList (.refl _ t) .parts (by decide)
    exact hparts.symm
  have flagged (u : State) (j : Nat) : (u.fset TILE_SEQ_EVENT.ABORTED j 0 1).parts = u.parts := rfl
  have stopped := keeps_foldl (P := fun u => u.parts = t.parts) (l := (t.inst p l).tileList)
    (f := fun u j => (u.stopTile p l (t.inst p l) j).fset TILE_SEQ_EVENT.ABORTED j 0 1) (fun u j hu => by
      obtain ⟨hparts, -⟩ := State.stopTile_keeps (within_opened _ u) u p l (t.inst p l) j (.refl _ u) .parts (by decide)
      exact (flagged _ j).trans (hparts.symm.trans hu)) cancelled
  rw [State.abortInst, State.onInst, State.onPart, stopped]
  rfl

section LoadKept

variable {s t u : State} {p : Nat}

/-- PART_LOAD_STATUS reads the same, and the partition's load has the same image. -/
structure State.LoadKept (p : Nat) (s t : State) : Prop where
  status : s.StatusKept t
  load : (t.part p).load = (s.part p).load

namespace State.LoadKept

/-- A state keeps its own. -/
theorem refl (s : State) : LoadKept p s s := ⟨State.Alike.refl, rfl⟩

variable (h : LoadKept p s t)
include h

/-- What writes no partition keeps the image. -/
theorem of_status (hk : t.StatusKept u) (hp : u.parts = t.parts) : LoadKept p s u := by
  obtain ⟨status, load⟩ := h
  exact ⟨State.Alike.trans status hk, (congrArg Part.load (State.part_congr hp p)).trans load⟩

/-- What writes neither keeps them. -/
theorem quiet (hr : u.regs = t.regs) (hp : u.parts = t.parts) : LoadKept p s u := h.of_status (State.Alike.refl.quiet hr) hp

/-- A change of a partition that leaves its image. -/
theorem onPart (q : Nat) {f : Part → Part} (hf : ∀ x, (f x).load = x.load) : LoadKept p s (t.onPart q f) := by
  obtain ⟨status, load⟩ := h
  refine ⟨status.quiet rfl, Eq.trans ?_ load⟩
  simp only [State.part, State.onPart, Tbl.upd, Tbl.get_put]
  split
  · rename_i e
    rw [hf, e]
  · rfl

/-- A started command changes. -/
theorem onExec (q x : Nat) (f : Exec → Exec) : LoadKept p s (t.onExec q x f) := h.quiet (by simp) (by simp)

/-- A command lets go of what it holds (R322). -/
theorem letGo (q x : Nat) : LoadKept p s (t.letGo q x) := by
  obtain ⟨hparts, -⟩ := State.letGo_keeps (within_opened _ t) t q x (.refl _ t) .parts (by decide)
  exact h.of_status (State.StatusKept.letGo .refl q x) hparts.symm

/-- A command completes (R308). -/
theorem complete (q x status detail : Nat) : LoadKept p s (t.complete q x status detail) := by
  obtain ⟨hparts, -⟩ := State.complete_keeps (within_opened _ t) t q x status detail (.refl _ t) .parts (by decide)
  exact h.of_status (State.StatusKept.complete .refl ..) hparts.symm

/-- The check of a deck's stop (R322). -/
theorem stopCheck (d : Nat) : LoadKept p s (t.stopCheck d) := by
  obtain ⟨hparts, -⟩ := State.stopCheck_keeps (within_opened _ t) t d (.refl _ t) .parts (by decide)
  exact h.of_status (State.StatusKept.stopCheck .refl d) hparts.symm

/-- Every reservation of a command goes back. -/
theorem unreserveAll (q x : Nat) : LoadKept p s (t.unreserveAll q x) := by
  obtain ⟨hparts, -⟩ := State.unreserveAll_keeps (within_opened _ t) t q x (.refl _ t) .parts (by decide)
  exact h.of_status (State.StatusKept.unreserveAll .refl q x) hparts.symm

/-- The hub decides about a pre-emption. -/
theorem preDecide (q : Nat) : LoadKept p s (t.preDecide q) := by
  unfold State.preDecide
  split
  · exact keeps_ite (h.onPart q fun _ => rfl) h
  · exact h

/-- A command that ends without an instance. -/
theorem endPlain (q x status detail : Nat) : LoadKept p s (t.endPlain q x status detail) := by
  have unasked : LoadKept p s ((t.unreserveAll q x).unask q x) := (h.unreserveAll q x).onPart q fun _ => rfl
  exact (unasked.complete ..).preDecide q

/-- Waking tiles writes the tiles alone. -/
theorem wake (js : List Nat) : LoadKept p s (t.wake js) := by
  obtain ⟨hparts, -, -, hregs⟩ := t.wake_frame js
  exact h.quiet hregs hparts

/-- An instance is over. -/
theorem popInst (q l : Nat) : LoadKept p s (t.popInst q l) := by
  have gated : LoadKept p s ((t.inst q l).tileList.foldl (fun u j =>
      if l = (t.part q).level ∧ (u.tile j).power = .run then u.onTile j (fun w => { w with power := .gated, since := t.time })
      else u) t) :=
    keeps_foldl (fun _ _ hu => keeps_ite (hu.quiet (by simp) (by simp)) hu) h
  have popped := gated.onPart q (f := fun a => { a with
    insts := Tbl.put {} a.insts l {}, level := topLevel (Tbl.put {} a.insts l {}),
    preAsk := if l = a.level then none else a.preAsk }) fun _ => rfl
  unfold State.popInst
  refine keeps_ite ?_ popped
  refine wake (keeps_foldl (fun u j hu => ?_) popped) _
  exact hu.quiet (by simp) (by simp)

/-- A command with an instance ends (R159). -/
theorem endCmd (q x l status detail : Nat) : LoadKept p s (t.endCmd q x l status detail) :=
  keeps_ite (h.onExec ..) (((h.popInst ..).complete ..).preDecide q)

/-- An instance aborts (R115). -/
theorem abortInst (q l : Nat) : LoadKept p s (t.abortInst q l) := by
  have marked := h.onPart q (f := fun a => { a with insts := Tbl.upd {} a.insts l (fun i => { i with aborted := true }) })
    fun _ => rfl
  obtain ⟨-, load⟩ := marked
  obtain ⟨status, -⟩ := h
  exact ⟨status.low ((State.LowKept.refl t).abortInst q l),
    (congrArg Part.load (State.part_congr (t.abortInst_parts q l) p)).trans load⟩

/-- A command is ended by its deck's stop (R322). -/
theorem endBy (q x status detail : Nat) (now : Bool) : LoadKept p s (t.endBy q x status detail now) := by
  unfold State.endBy
  dsimp only
  split
  · exact h
  · split
    · exact ((h.abortInst ..).letGo ..).endCmd ..
    · exact keeps_ite (((h.abortInst ..).letGo ..).endCmd ..) (h.onExec ..)
  · exact (h.letGo ..).endCmd ..
  · exact (h.letGo ..).endPlain ..

/-- A deck stops (R322). -/
theorem stopDeck (d : Nat) (silent now : Bool) : LoadKept p s (t.stopDeck d silent now) := by
  refine keeps_ite h (stopCheck (keeps_foldl (fun u x hu => ?_) (h.quiet (by simp) (by simp))) d)
  exact endBy (keeps_ite (hu.onExec ..) hu) ..

end State.LoadKept

end LoadKept

end Sys2Proof.Machine
end

section
/-!
SUPPORT. The start of a partition's reset (R334, steps 1 to 3): its decks stop, its instances abort, its page steps are
cancelled, and its held requests are released.
-/

namespace Sys2Proof.Machine

section Tables

variable {α : Type} {d : α} {t : Tbl α} {k : Nat}

/-- What is read from a table whose values are changed. -/
theorem Tbl.get_map {f : α → α} (hd : f d = d) (t : Tbl α) (k : Nat) :
    Tbl.get d (t.map (fun (a, v) => (a, f v))) k = f (Tbl.get d t k) := by
  induction t with
  | nil => exact hd.symm
  | cons x t ih =>
    simp only [List.map_cons, Tbl.get, ih]
    split <;> rfl

/-- What is not the default is listed. -/
theorem Tbl.mem_of_get (h : Tbl.get d t k ≠ d) : ∃ v, (k, v) ∈ t := by
  induction t with
  | nil => exact absurd rfl h
  | cons x t ih =>
    obtain ⟨a, v⟩ := x
    by_cases e : a = k
    · exact ⟨v, by simp [e]⟩
    · obtain ⟨w, hw⟩ := ih (by simpa [Tbl.get, e] using h)
      exact ⟨w, List.mem_cons_of_mem _ hw⟩

end Tables

section Start

/-- The decks of the partition stop. -/
def State.stopDecks (s : State) (p : Nat) (byFlr : Bool) : State := (s.partDecks p).foldl (fun t d => t.stopDeck d byFlr true) s

/-- The instances of the partition abort. -/
def State.abortInsts (s : State) (p : Nat) : State :=
  (List.range 4).foldl (fun t l => if (t.inst p l).valid && !(t.inst p l).aborted then t.abortInst p l else t) s

/-- The work of the partition is stopped. -/
def State.stopped (s : State) (p : Nat) (byFlr : Bool) : State :=
  (((s.stopDecks p byFlr).abortInsts p).cancelRest p).onAccts p (fun a => { a with held := [] })

variable (s : State) (p : Nat) (byFlr load retire : Bool)

/-- A reset of a partition that does not drain stops its work. -/
theorem State.startReset_eq (h : ∀ b l r since, (s.part p).stage ≠ .draining b l r since) :
    s.startReset p byFlr load retire = (s.stopped p byFlr).onPart p (fun q =>
      { q with stage := .draining false load retire s.time }) := by
  unfold State.startReset
  split
  · rename_i e
    exact (h _ _ _ _ e).elim
  · rfl

/-- A reset of a partition that drains joins the one that runs (R339). -/
theorem State.startReset_joins {b l r : Bool} {since : Nat} (h : (s.part p).stage = .draining b l r since) :
    s.startReset p byFlr load retire = s.onPart p (fun q => { q with stage := q.stage.join byFlr load retire }) := by
  unfold State.startReset
  rw [h]

end Start

section Aborted

variable {s : State} {p : Nat}

/-- An instance at the level is aborted if it is valid. -/
def State.LevelStopped (s : State) (p l : Nat) : Prop := (s.inst p l).valid = true → (s.inst p l).aborted = true

/-- The instances after an abort. -/
theorem State.abortInst_inst (l k : Nat) :
    (s.abortInst p l).inst p k = if k = l then { s.inst p l with aborted := true } else s.inst p k := by
  rw [State.inst, State.part_congr (s.abortInst_parts p l), State.onInst, State.part_onPart]
  simp only [Tbl.upd, Tbl.get_put]
  rfl

/-- All instances of the partition are aborted. -/
theorem State.abortInsts_stopped {l : Nat} (hl : l < 4) : (s.abortInsts p).LevelStopped p l := by
  refine foldl_reaches (Q := fun l u => State.LevelStopped u p l) (fun u k _ => ?_) (fun u k _ l _ hu => ?_) s l
    (List.mem_range.mpr hl)
  · split
    · intro _
      rw [State.abortInst_inst, if_pos rfl]
    · rename_i e
      intro hv
      simpa [hv] using e
  · split
    · intro hv
      rw [State.abortInst_inst] at hv ⊢
      by_cases e : l = k
      · rw [if_pos e]
      · rw [if_neg e] at hv ⊢
        exact hu hv
    · exact hu

end Aborted

section Cancelled

variable {s : State} {p : Nat}

/-- Cancelled steps leave the partitions. -/
theorem State.cancelRest_parts : (s.cancelRest p).parts = s.parts := by
  obtain ⟨hparts, -⟩ := State.cancelRest_keeps (within_opened _ s) s p (.refl _ s) .parts (by decide)
  exact hparts.symm

/-- A channel whose queue holds none of the partition's page steps. -/
def Chan.without (p : Nat) (h : Chan) : Chan := { h with queue := h.queue.filter (fun x => !(x.part == p)) }

/-- The partition's page steps are in no queue and wait nowhere (R222). -/
def State.withoutSteps (s : State) (p : Nat) : State :=
  (s.withThapWait (s.thapWait.filter (fun x => !(x.part == p)))).withChans
    (s.chans.map (fun (c, h) => (c, h.without p)))

/-- Beside its steps, a cancelled partition loses pins. -/
theorem State.cancelRest_eq : ∃ l : List Step, s.cancelRest p = l.foldl (fun t x => t.verifyUnpin x) (s.withoutSteps p) :=
  ⟨_, rfl⟩

/-- No page step of the partition waits or stands in a queue once its steps are cancelled. -/
theorem State.cancelRest_thapel : (∀ x ∈ (s.cancelRest p).thapWait, x.part ≠ p) ∧
    ∀ c, ∀ x ∈ ((s.cancelRest p).chan c).queue, x.part ≠ p := by
  obtain ⟨l, hl⟩ := s.cancelRest_eq (p := p)
  obtain ⟨hchans, hwait⟩ : (s.cancelRest p).chans = (s.withoutSteps p).chans ∧
      (s.cancelRest p).thapWait = (s.withoutSteps p).thapWait := by
    rw [hl]
    refine keeps_foldl (P := fun u => u.chans = _ ∧ u.thapWait = _) (fun u x hu => ?_) ⟨rfl, rfl⟩
    obtain ⟨hc, hw, -⟩ := State.verifyUnpin_keeps (within_opened _ u) u x (.refl _ u) .thapel (by decide)
    exact ⟨hc.symm.trans hu.1, hw.symm.trans hu.2⟩
  refine ⟨fun x hx => ?_, fun c x hx => ?_⟩
  · rw [hwait] at hx
    simpa using (List.mem_filter.mp hx).2
  · rw [State.chan, hchans, State.withoutSteps, State.withChans, Tbl.get_map (by rfl)] at hx
    simpa using (List.mem_filter.mp hx).2

/-- Cancelled steps leave PART_LOAD_STATUS. -/
theorem State.cancelRest_status (s : State) (p : Nat) : s.StatusKept (s.cancelRest p) := by
  obtain ⟨l, hl⟩ := s.cancelRest_eq (p := p)
  rw [hl]
  refine keeps_foldl (fun u x hu => ?_) (State.Alike.refl.quiet (by rfl))
  exact keeps_ite ((spared_statusKept s).unpin hu _) hu

/-- Released accounts hold no request (Table 9.4). -/
theorem State.onAccts_released (k : Nat) (hk : s.acctOf p k = true) :
    ((s.onAccts p (fun a => { a with held := [] })).acct k).held = [] := by
  have after (u : State) (j : Nat) (hu : (u.acct k).held = []) :
      ((u.onAcct j (fun a => { a with held := [] })).acct k).held = [] := by
    simp only [State.acct, State.onAcct_accts, Tbl.upd, Tbl.get_put]
    split
    · rfl
    · exact hu
  by_cases hs : (s.acct k).held = []
  · exact keeps_foldl (P := fun u => (u.acct k).held = []) (fun u x hu => after u x.1 hu) hs
  · obtain ⟨v, hv⟩ := Tbl.mem_of_get (d := ({} : Acct)) (t := s.accts) (k := k) fun e => hs (congrArg Acct.held e)
    have listed : (k, v) ∈ s.accts.filter (fun x => s.acctOf p x.1) := List.mem_filter.mpr ⟨hv, hk⟩
    refine foldl_reaches (Q := fun x u => (State.acct u x.1).held = []) (fun u x _ => ?_) (fun u y _ x _ hu => ?_) s (k, v) listed
    · simp [State.acct, Tbl.upd]
    · simp only [State.acct, State.onAcct_accts, Tbl.upd, Tbl.get_put]
      split
      · rfl
      · exact hu

end Cancelled

section Drains

variable (s : State) (p : Nat) (byFlr load retire : Bool)

/-- The start of a reset leaves a load's image and status. -/
theorem State.LoadKept.stopped : LoadKept p s (s.stopped p byFlr) := by
  have decks : LoadKept p s (s.stopDecks p byFlr) := keeps_foldl (fun _ _ hu => hu.stopDeck ..) (.refl s)
  have aborted : LoadKept p s ((s.stopDecks p byFlr).abortInsts p) :=
    keeps_foldl (fun _ _ hu => keeps_ite (hu.abortInst ..) hu) decks
  have cancelled : LoadKept p s (((s.stopDecks p byFlr).abortInsts p).cancelRest p) := by
    refine aborted.of_status ?_ State.cancelRest_parts
    exact ((s.stopDecks p byFlr).abortInsts p).cancelRest_status p
  exact keeps_foldl (P := LoadKept p s) (fun _ _ hu => hu.quiet rfl rfl) cancelled

/-- Changed accounts leave the registers, the partitions and the page steps. -/
theorem State.onAccts_frame (f : Acct → Acct) : (s.onAccts p f).regs = s.regs ∧ (s.onAccts p f).parts = s.parts ∧
    (s.onAccts p f).thapWait = s.thapWait ∧ (s.onAccts p f).chans = s.chans :=
  keeps_foldl (P := fun u => u.regs = s.regs ∧ u.parts = s.parts ∧ u.thapWait = s.thapWait ∧ u.chans = s.chans)
    (fun _ _ hu => hu) ⟨rfl, rfl, rfl, rfl⟩

/-- The partition of an account is what the registers say. -/
theorem State.acctOf_congr {s t : State} (h : t.regs = s.regs) (p k : Nat) : t.acctOf p k = s.acctOf p k := by
  have reads := State.fget_congr h
  simp only [State.acctOf, State.chanPart, State.chanWindow, reads]

/-- What stops of a partition's work. -/
theorem State.stopped_spec {t : State} (ht : t = s.stopped p byFlr) : (∀ l, l < 4 → t.LevelStopped p l) ∧
    (∀ x ∈ t.thapWait, x.part ≠ p) ∧ (∀ c, ∀ x ∈ (t.chan c).queue, x.part ≠ p) ∧
      ∀ k, t.acctOf p k = true → (t.acct k).held = [] := by
  have aborted (l : Nat) (hl : l < 4) := (s.stopDecks p byFlr).abortInsts_stopped (p := p) hl
  rw [State.stopped] at ht
  generalize (s.stopDecks p byFlr).abortInsts p = u at ht aborted
  obtain ⟨waiting, queued⟩ := u.cancelRest_thapel (p := p)
  have parts := u.cancelRest_parts (p := p)
  generalize u.cancelRest p = v at ht waiting queued parts
  obtain ⟨hregs, hparts, hwait, hchans⟩ := v.onAccts_frame p (fun a => { a with held := [] })
  have released := v.onAccts_released (p := p)
  rw [← ht] at hregs hparts hwait hchans released
  refine ⟨fun l hl => ?_, hwait ▸ waiting, fun c => ?_, fun k hk => released k ?_⟩
  · have same : t.inst p l = u.inst p l :=
      congrArg (fun q : Part => Tbl.get ({} : Inst) q.insts l) (State.part_congr (hparts.trans parts) p)
    rw [State.LevelStopped, same]
    exact aborted l hl
  · rw [State.chan, hchans]
    exact queued c
  · rwa [State.acctOf_congr hregs] at hk

/-- What the start of a reset leaves of a partition's work. -/
theorem State.startReset_spec (h : ∀ b l r since, (s.part p).stage ≠ .draining b l r since) {t : State}
    (ht : t = s.startReset p byFlr load retire) : (t.part p).stage = .draining false load retire s.time ∧
      (∀ l, l < 4 → t.LevelStopped p l) ∧ (∀ x ∈ t.thapWait, x.part ≠ p) ∧
      (∀ c, ∀ x ∈ (t.chan c).queue, x.part ≠ p) ∧ (∀ k, t.acctOf p k = true → (t.acct k).held = []) ∧ State.LoadKept p s t := by
  obtain ⟨aborted, waiting, queued, released⟩ := s.stopped_spec p byFlr rfl
  have kept := State.LoadKept.stopped s p byFlr
  rw [s.startReset_eq p byFlr load retire h] at ht
  generalize s.stopped p byFlr = u at ht aborted waiting queued released kept
  subst ht
  refine ⟨by rw [State.part_onPart], fun l hl => ?_, waiting, queued, released, kept.onPart p fun _ => rfl⟩
  rw [State.LevelStopped, State.inst, State.part_onPart]
  exact aborted l hl

end Drains

end Sys2Proof.Machine
end

section
/-!
SUPPORT. PART_CMD (R334, R337): what a reset, a load and a retirement answer.
-/

namespace Sys2Proof.Machine

section LoadFails

variable (s : State) (result sect p : Nat)

/-- What PART_LOAD_STATUS shows. -/
theorem State.loadStatus_fields : (s.loadStatus result sect p).fget PART_LOAD_STATUS.RESULT 0 0 = result % 256 ∧
    (s.loadStatus result sect p).fget PART_LOAD_STATUS.SECTION 0 0 = sect % 256 ∧
    (s.loadStatus result sect p).fget PART_LOAD_STATUS.PART 0 0 = p % 16 := by
  refine ⟨?_, ?_, State.fget_fset_same ..⟩
  · rw [State.loadStatus, State.fget_fset_ne _ (by decide), State.fget_fset_ne _ (by decide), State.fget_fset_same]
    rfl
  · rw [State.loadStatus, State.fget_fset_ne _ (by decide), State.fget_fset_same]
    rfl

/-- A load that fails shows its result, and sets LOAD_FAIL (R338). -/
theorem State.loadFails_fields : (s.loadFails result sect p).fget PART_LOAD_STATUS.RESULT 0 0 = result % 256 ∧
    (s.loadFails result sect p).fget PART_LOAD_STATUS.SECTION 0 0 = sect % 256 ∧
    (s.loadFails result sect p).fget PART_LOAD_STATUS.PART 0 0 = p % 16 ∧
    (s.loadFails result sect p).fget PROT_EVENT.LOAD_FAIL 0 0 = 1 := by
  obtain ⟨hresult, hsect, hpart⟩ := s.loadStatus_fields result sect p
  have kept (g : Field) (hg : g.key 0 0 ≠ PROT_EVENT.LOAD_FAIL.key 0 0) :
      (s.loadFails result sect p).fget g 0 0 = (s.loadStatus result sect p).fget g 0 0 := State.fget_evt_ne _ hg
  refine ⟨(kept _ (by decide)).trans hresult, (kept _ (by decide)).trans hsect, (kept _ (by decide)).trans hpart, ?_⟩
  rw [State.loadFails, State.fget_evt_same]
  simp [PROT_EVENT.LOAD_FAIL]

/-- A load that fails leaves partitions, memory and queue. -/
theorem State.loadFails_frame : (s.loadFails result sect p).parts = s.parts ∧ (s.loadFails result sect p).mem = s.mem ∧
    (s.loadFails result sect p).pending = s.pending := by
  simp [State.loadFails, State.loadStatus]

end LoadFails

section Commands

variable {s : State} {who : Accessor} {v p : Nat} (hw : who.wf = true)
include hw

/-- PART_CMD by an accessor that may not write it, or of another OP. -/
theorem exec_partCmd_unnamed : (s.partCmd who v 1 = none → exec (.partitionReset who v) s = .next s) ∧
    (∀ ver, s.partCmd who v 2 = none → exec (.partitionLoad who v ver) s = .next s) ∧
    (s.partCmd who v 3 = none → exec (.partitionRetire who v) s = .next s) := by
  refine ⟨fun h => ?_, fun ver h => ?_, fun h => ?_⟩
  · show execPartitionReset who v s = _
    rw [execPartitionReset, hw, h]
    exact ok_of_pending rfl
  · show execPartitionLoad who v ver s = _
    rw [execPartitionLoad, hw, h]
    exact ok_of_pending rfl
  · show execPartitionRetire who v s = _
    rw [execPartitionRetire, hw, h]
    exact ok_of_pending rfl

section Reset

variable (hc : s.partCmd who v 1 = some p)
include hc

/-- A reset of a running partition starts. -/
theorem exec_partitionReset_starts (hs : (s.part p).stage = .none) (hu : s.partStatus p ≠ 0) :
    exec (.partitionReset who v) s = .next ((s.startReset p false false false).withQueue s.pending) := by
  show execPartitionReset who v s = _
  rw [execPartitionReset, hw, hc, ok_true]
  dsimp only
  rw [hs]
  dsimp only
  rw [if_neg hu]

/-- An unused partition, and one with a reset, a load or a retirement, is not reset again (R338). -/
theorem exec_partitionReset_idle (h : (s.part p).stage ≠ .none ∨ s.partStatus p = 0) :
    exec (.partitionReset who v) s = .next s := by
  show execPartitionReset who v s = _
  rw [execPartitionReset, hw, hc]
  dsimp only
  split
  · rename_i hs
    rw [if_pos (h.resolve_left (absurd hs))]
    exact ok_of_pending rfl
  · exact ok_of_pending rfl

end Reset

section Load

variable (ver : Verdict) (hc : s.partCmd who v 2 = some p)
include hc

/-- A load before READY fails. -/
theorem exec_partitionLoad_early (hr : s.isReady = false) : exec (.partitionLoad who v ver) s = .next (s.loadFails 4 0 p) := by
  show execPartitionLoad who v ver s = _
  rw [execPartitionLoad, hw, hc]
  dsimp only
  rw [hr]
  exact ok_of_pending (s.loadFails_frame 4 0 p).2.2

variable (hr : s.isReady = true)
include hr

/-- A partition that is loaded or retired already is not loaded again. -/
theorem exec_partitionLoad_busy (hi : (s.part p).idle = false) : exec (.partitionLoad who v ver) s = .next s := by
  show execPartitionLoad who v ver s = _
  rw [execPartitionLoad, hw, hc]
  dsimp only
  rw [hr, hi]
  exact ok_of_pending rfl

variable (hi : (s.part p).idle = true)
include hi

/-- A load whose image cannot be read fails. -/
theorem exec_partitionLoad_unreadable (hb : s.imageReadable p (s.fget PART_LOAD_ADDR.ADDR 0 0) = false) :
    exec (.partitionLoad who v ver) s = .next (s.loadFails 3 0 p) := by
  show execPartitionLoad who v ver s = _
  rw [execPartitionLoad, hw, hc]
  dsimp only
  rw [hr, hi, hb]
  exact ok_of_pending (s.loadFails_frame 3 0 p).2.2

variable (hb : s.imageReadable p (s.fget PART_LOAD_ADDR.ADDR 0 0) = true)
include hb

/-- A load that fails its checks reports their verdict. -/
theorem exec_partitionLoad_fails {r x : Nat}
    (hv : (s.withPending p).checkPart (s.windowImage p (s.fget PART_LOAD_ADDR.ADDR 0 0)) p ver = .fail r x) :
    exec (.partitionLoad who v ver) s = .next (s.loadFails r x p) := by
  show execPartitionLoad who v ver s = _
  rw [execPartitionLoad, hw, hc]
  dsimp only
  rw [hr, hi, hb, hv]
  exact ok_of_pending (s.loadFails_frame r x p).2.2

/-- A load that passes its checks is under way, with its image kept. -/
theorem exec_partitionLoad_passes {y : _}
    (hv : (s.withPending p).checkPart (s.windowImage p (s.fget PART_LOAD_ADDR.ADDR 0 0)) p ver = .pass y) :
    exec (.partitionLoad who v ver) s = .next ((((s.loadStatus 1 0 p).onPart p (fun q => { q with
      load := imgBytes (s.windowImage p (s.fget PART_LOAD_ADDR.ADDR 0 0)) 0
        (imgNat (s.windowImage p (s.fget PART_LOAD_ADDR.ADDR 0 0)) 24 8) })).startReset p false true false).withQueue
          s.pending) := by
  show execPartitionLoad who v ver s = _
  rw [execPartitionLoad, hw, hc]
  dsimp only
  rw [hr, hi, hb, hv]
  exact ok_true ..

end Load

section Retire

variable (hc : s.partCmd who v 3 = some p)
include hc

/-- A retirement before READY fails. -/
theorem exec_partitionRetire_early (hr : s.isReady = false) : exec (.partitionRetire who v) s = .next (s.loadFails 4 0 p) := by
  show execPartitionRetire who v s = _
  rw [execPartitionRetire, hw, hc]
  dsimp only
  rw [hr]
  exact ok_of_pending (s.loadFails_frame 4 0 p).2.2

variable (hr : s.isReady = true)
include hr

/-- A retirement of a partition that is unused, loaded or retired already does nothing. -/
theorem exec_partitionRetire_busy (h : (s.part p).idle = false ∨ s.partStatus p = 0) :
    exec (.partitionRetire who v) s = .next s := by
  have test : (!(s.part p).idle || s.partStatus p == 0) = true := by
    rcases h with h | h <;> simp [h]
  show execPartitionRetire who v s = _
  rw [execPartitionRetire, hw, hc]
  dsimp only
  rw [hr, test]
  exact ok_of_pending rfl

/-- A retirement of a partition in use starts its drain. -/
theorem exec_partitionRetire_starts (hi : (s.part p).idle = true) (hu : s.partStatus p ≠ 0) :
    exec (.partitionRetire who v) s = .next ((s.startReset p false false true).withQueue s.pending) := by
  have test : (!(s.part p).idle || s.partStatus p == 0) = false := by simp [hi, hu]
  show execPartitionRetire who v s = _
  rw [execPartitionRetire, hw, hc]
  dsimp only
  rw [hr, test]
  exact ok_true ..

end Retire

end Commands

/-- A load that passed: its status and its image, and its partition's drain (R337). -/
theorem State.loadStarts_spec (s : State) (p : Nat) (bs : List Byte) {t : State}
    (ht : t = ((s.loadStatus 1 0 p).onPart p (fun q => { q with load := bs })).startReset p false true false) :
    t.fget PART_LOAD_STATUS.RESULT 0 0 = 1 ∧ (t.part p).load = bs ∧
      ((s.part p).stage = .none ∨ (s.part p).stage = .heldFailed → (t.part p).stage = .draining false true false s.time) ∧
      ∀ b since, (s.part p).stage = .draining b false false since → (t.part p).stage = .draining false true false since := by
  obtain ⟨result, -, -⟩ := s.loadStatus_fields 1 0 p
  have before : ((s.loadStatus 1 0 p).onPart p (fun q => { q with load := bs })).part p = { s.part p with load := bs } :=
    State.part_onPart ..
  have time : ((s.loadStatus 1 0 p).onPart p (fun q => { q with load := bs })).time = s.time := rfl
  have shown : ((s.loadStatus 1 0 p).onPart p (fun q => { q with load := bs })).fget PART_LOAD_STATUS.RESULT 0 0 = 1 := result
  generalize (s.loadStatus 1 0 p).onPart p (fun q => { q with load := bs }) = u at ht before time shown
  have stage : (u.part p).stage = (s.part p).stage := by rw [before]
  by_cases drains : ∃ b l r since, (s.part p).stage = .draining b l r since
  · obtain ⟨b, l, r, since, hs⟩ := drains
    rw [u.startReset_joins p false true false (stage.trans hs)] at ht
    have joined : t.part p = { u.part p with stage := (u.part p).stage.join false true false } := ht ▸ State.part_onPart ..
    refine ⟨ht ▸ shown, by rw [joined, before], fun h => ?_, fun c at' hd => ?_⟩
    · rcases h with h | h <;> rw [h] at hs <;> cases hs
    · rw [joined, stage, hd]
      rfl
  · have start (b l r : Bool) (since : Nat) : (u.part p).stage ≠ .draining b l r since := fun e =>
      drains ⟨b, l, r, since, stage.symm.trans e⟩
    obtain ⟨draining, -, -, -, -, status, load⟩ := u.startReset_spec p false true false start ht
    refine ⟨?_, load.trans (by rw [before]), fun _ => draining.trans (by rw [time]),
      fun b since hd => (drains ⟨_, _, _, _, hd⟩).elim⟩
    exact (State.Alike.fget status (by decide) (show _ = _ by decide)).trans shown

end Sys2Proof.Machine
end

section
/-!
SUPPORT. The end of a partition's reset (R334, steps 4 to 6): what its clearing of memory, tables and registers leaves.
-/

namespace Sys2Proof.Machine

section Steps

/-- A partition's memory after its reset: landing and working stores, the ledger, the sessions (R181). -/
def State.resetMemory (s : State) (p : Nat) : State :=
  (List.range (s.sess p 8 4)).foldl (fun t i => t.dropSession p (s.sess p 4 4 + i)) ((s.clearStores p).clearLedger p)

/-- The tables that a partition's reset empties, of a state `u` that its memory has been cleared in (R334). -/
def State.resetTables (s u : State) (p : Nat) : State :=
  ((((((u.withSems (u.sems.clearRange (p * 16384) 16384)).freshSems p 0 16384).withEvts
    (u.evts.clearRange (p * 1024) 1024)).withVfQ (u.vfQ.clearRange (p * 256) 256)).withDecks
      (u.decks.drop (fun d _ => s.fget DECK_QCFG.ASSIGNED d 0 == 1 && s.deckPart d == p))).withPinHeld
        (u.pinHeld.filter (fun (_, t) => !(s.towerTiles p).contains (t / 64)))).withAttn
          (u.attn.drop (fun t _ => (s.towerTiles p).contains (t / 64)))

/-- The tables emptied, the registers reset, the tiles Off. -/
def State.resetTiles (s : State) (p : Nat) : State :=
  (s.towerTiles p).foldl State.tileOff ((s.resetTables (s.resetMemory p) p).resetRegs p)

/-- A partition's reset clears memory, tables, registers and tiles, and reports. -/
theorem State.finishReset_eq (s : State) (p : Nat) : s.finishReset p =
    (((s.resetTiles p).restartAccts p).onPart p (fun q =>
      { q with level := 0, insts := [], preAsk := none, lastDeck := [0, 0, 0, 0] })).evt PROT_EVENT.PART_RESET_DONE 0 0 1 none :=
  rfl

end Steps

section Tables

variable (s u : State) (p : Nat)

/-- The emptied tables leave registers and memory. -/
theorem State.resetTables_frame : (s.resetTables u p).regs = u.regs ∧ (s.resetTables u p).mem = u.mem := by
  simp [State.resetTables, State.freshSems]

/-- The partition's semaphores and events are 0. -/
theorem State.resetTables_zero : (∀ n, n < 16384 → Tbl.get 0 (s.resetTables u p).sems (p * 16384 + n) = 0) ∧
    ∀ n, n < 1024 → Tbl.get 0 (s.resetTables u p).evts (p * 1024 + n) = 0 := by
  have sems : (s.resetTables u p).sems = u.sems.clearRange (p * 16384) 16384 := rfl
  have evts : (s.resetTables u p).evts = u.evts.clearRange (p * 1024) 1024 := rfl
  rw [sems, evts]
  exact ⟨fun n hn => Tbl.get_clearRange_in _ (by omega) (by omega), fun n hn => Tbl.get_clearRange_in _ (by omega) (by omega)⟩

end Tables

section Registers

variable (s : State) (p : Nat)

/-- A register that no partition owns is not reset. -/
theorem State.resetRegs_other {f : Field} {u i : Nat} (h : s.ownedKey p (f.key u i) = false) :
    (s.resetRegs p).fget f u i = s.fget f u i := by
  have dropped : Tbl.get f.rst (s.regs.drop (fun k _ => s.ownedKey p k)) (f.key u i) = Tbl.get f.rst s.regs (f.key u i) := by
    rw [Tbl.drop, Tbl.get_filter_key s.regs (fun k => !s.ownedKey p k), h]
    rfl
  have kept := foldl_keeps_mem (fun t : Tbl Nat => Tbl.get f.rst t (f.key u i) = Tbl.get f.rst s.regs (f.key u i))
    (fun t (x : Nat × Nat) => t.ins x.1 x.2) (s.img.partRegs.filter (fun x => s.ownedKey p x.1)) (fun t x hx ht => by
      have owned := (List.mem_filter.mp hx).2
      refine (Tbl.get_ins_ne t fun e => ?_).trans ht
      rw [← e, h] at owned
      cases owned) _ dropped
  exact kept

/-- No partition owns the registers of the protection map. -/
theorem State.ownedKey_pending : s.ownedKey p (PROT_GEN.PENDING.key 0 0) = false := by
  have apart : (regAt (PROT_GEN.PENDING.key 0 0 / 64)).all (fun r => r.1.owner != .partition) = true := by decide
  unfold State.ownedKey
  rcases h : regAt (PROT_GEN.PENDING.key 0 0 / 64) with _ | ⟨d, u, i⟩
  · rfl
  · rw [h] at apart
    simp_all

end Registers

section Memory

variable {s : State} {p : Nat}

/-- Cleared memory leaves the registers below the hubs' (R181). -/
theorem State.resetMemory_low : s.LowKept (s.resetMemory p) := by
  have sp := spared_lowKept s
  have cleared : s.LowKept (s.clearStores p) := by
    refine keeps_foldl (fun u j hu => hu.quiet (by simp)) (keeps_foldl (fun u x hu => ?_) (.refl s))
    exact (sp.closeRange hu (llmAt x.1 (x.2 * 0x800000)) 0x800000).quiet (by simp)
  have ledger : s.LowKept ((s.clearStores p).clearLedger p) := by
    refine keeps_foldl (fun u c hu => keeps_foldl (fun v f hv => ?_) hu) cleared
    exact keeps_ite (keeps_ite (sp.fset (sp.engWrite hv ..) (by decide) ..) hv) (keeps_ite (sp.release hv _) hv)
  refine keeps_foldl (fun u i hu => ?_) ledger
  refine keeps_ite (sp.engWrite hu ..) (keeps_ite hu (keeps_foldl (fun v x hv => ?_) hu))
  refine keeps_ite (keeps_foldl (fun w y hw => sp.engWrite hw ..) (sp.storeClean (sp.engSee hv ..) ..)) ?_
  exact keeps_ite (sp.engWrite (sp.engWrite hv ..) ..) hv

/-- The partition's working stores read zero once they are cleared. -/
theorem State.clearStores_zero {j o : Nat} (hj : j ∈ s.towerTiles p) (ho : o < 0x1000000) :
    readByte (s.clearStores p).mem (wsAt j o) = 0 := by
  refine foldl_reaches (Q := fun j u => ∀ o, o < 0x1000000 → readByte (State.mem u) (wsAt j o) = 0) (fun u k _ o ho => ?_)
    (fun u k _ i _ hu o ho => ?_) _ j hj o ho
  · exact Tbl.get_clearRange_in _ (by simp only [wsAt]; omega) (by simp only [wsAt]; omega)
  · by_cases inside : wsAt k 0 ≤ wsAt i o ∧ wsAt i o < wsAt k 0 + 0x1000000
    · exact Tbl.get_clearRange_in _ inside.1 inside.2
    · exact (Tbl.get_clearRange_out _ (by omega)).trans (hu o ho)

/-- A partition without sessions and pages has only its stores cleared. -/
theorem State.resetMemory_bare (hp : s.poolChans p = []) (hs : s.sess p 8 4 = 0) : s.resetMemory p = s.clearStores p := by
  have none : (s.clearStores p).poolChans p = [] := by
    obtain ⟨himg, -⟩ := State.clearStores_keeps (within_opened _ s) s p (.refl _ s) .boot (by decide)
    rw [State.poolChans, ← himg]
    exact hp
  rw [State.resetMemory, hs, State.clearLedger, none]
  rfl

end Memory

section Finish

variable (s : State) (p : Nat)

/-- A tile that goes Off stays Off as others do. -/
theorem State.resetTiles_off : ∀ j ∈ s.towerTiles p, (Tbl.get {} (s.resetTiles p).tiles j).power = .off := by
  refine foldl_reaches (Q := fun j u => (Tbl.get {} (State.tiles u) j).power = .off) (fun u j _ => ?_) (fun u k _ j _ hu => ?_) _
  · exact congrArg Tile.power (Tbl.get_put_same ..)
  · refine (congrArg Tile.power (Tbl.get_put ..)).trans ?_
    split
    · rfl
    · exact hu

/-- Tiles that go Off leave registers, memory, semaphores and events. -/
theorem State.tilesOffOf_frame (js : List Nat) (t : State) : (js.foldl State.tileOff t).regs = t.regs ∧
    (js.foldl State.tileOff t).mem = t.mem ∧ (js.foldl State.tileOff t).sems = t.sems ∧
    (js.foldl State.tileOff t).evts = t.evts :=
  keeps_foldl (P := fun u => State.regs u = t.regs ∧ State.mem u = t.mem ∧ State.sems u = t.sems ∧ State.evts u = t.evts)
    (fun _ _ hu => by simpa [State.tileOff] using hu) ⟨rfl, rfl, rfl, rfl⟩

/-- Registers that are reset leave memory, semaphores and events. -/
theorem State.resetRegs_frame (t : State) : (t.resetRegs p).mem = t.mem ∧ (t.resetRegs p).sems = t.sems ∧
    (t.resetRegs p).evts = t.evts := by
  simp [State.resetRegs]

/-- Accounts that start again leave registers, memory, semaphores, events and tiles. -/
theorem State.restartAccts_frame (t : State) : (t.restartAccts p).regs = t.regs ∧ (t.restartAccts p).mem = t.mem ∧
    (t.restartAccts p).sems = t.sems ∧ (t.restartAccts p).evts = t.evts ∧ (t.restartAccts p).tiles = t.tiles := by
  have kept := State.restartAccts_keeps (within_opened _ t) t p (.refl _ t)
  obtain ⟨hregs, -⟩ := kept .registers (by decide)
  obtain ⟨hmem, -⟩ := kept .memory (by decide)
  obtain ⟨-, hsems, hevts⟩ := kept .parts (by decide)
  obtain ⟨htiles, -⟩ := kept .tiles (by decide)
  exact ⟨hregs.symm, hmem.symm, hsems.symm, hevts.symm, htiles.symm⟩

/-- What a partition's reset leaves (R334). -/
theorem State.finishReset_spec {t : State} (ht : t = s.finishReset p) : (t.part p).insts = [] ∧
    t.fget PROT_EVENT.PART_RESET_DONE 0 0 = 1 ∧ t.pendingCommit = s.pendingCommit ∧
    (∀ n, n < 16384 → Tbl.get 0 t.sems (p * 16384 + n) = 0) ∧ (∀ n, n < 1024 → Tbl.get 0 t.evts (p * 1024 + n) = 0) ∧
    (∀ j ∈ s.towerTiles p, (Tbl.get {} t.tiles j).power = .off) ∧
    (s.poolChans p = [] → s.sess p 8 4 = 0 → ∀ j ∈ s.towerTiles p, ∀ o, o < 0x1000000 →
      readByte t.mem (wsAt j o) = 0) := by
  have off := s.resetTiles_off p
  have low := s.resetMemory_low (p := p)
  have stores : s.poolChans p = [] → s.sess p 8 4 = 0 → ∀ j ∈ s.towerTiles p, ∀ o, o < 0x1000000 →
      readByte (s.resetMemory p).mem (wsAt j o) = 0 := fun hp hs j hj o ho => by
    rw [State.resetMemory_bare hp hs, State.clearStores_zero hj ho]
  rw [State.finishReset_eq] at ht
  obtain ⟨hregs, hmem, hsems, hevts⟩ := State.tilesOffOf_frame (s.towerTiles p)
    ((s.resetTables (s.resetMemory p) p).resetRegs p)
  rw [← State.resetTiles] at hregs hmem hsems hevts
  generalize s.resetTiles p = w at ht off hregs hmem hsems hevts
  generalize s.resetMemory p = m at low stores hregs hmem hsems hevts
  obtain ⟨tregs, tmem⟩ := s.resetTables_frame m p
  obtain ⟨zsems, zevts⟩ := s.resetTables_zero m p
  generalize s.resetTables m p = u at hregs hmem hsems hevts tregs tmem zsems zevts
  obtain ⟨rmem, rsems, revts⟩ := State.resetRegs_frame p u
  obtain ⟨aregs, amem, asems, aevts, atiles⟩ := w.restartAccts_frame p
  generalize w.restartAccts p = x at ht aregs amem asems aevts atiles
  have pending : x.fget PROT_GEN.PENDING 0 0 = s.fget PROT_GEN.PENDING 0 0 := by
    rw [State.fget_congr (aregs.trans hregs), State.resetRegs_other u p (u.ownedKey_pending p), State.fget_congr tregs,
      low.fget (by decide)]
  subst ht
  refine ⟨?_, ?_, ?_, fun n hn => ?_, fun n hn => ?_, fun j hj => ?_, fun hp hs j hj o ho => ?_⟩
  · simp [State.part, Tbl.upd]
  · rw [State.fget_evt_same]
    simp [PROT_EVENT.PART_RESET_DONE]
  · rw [State.pendingCommit, State.fget_evt_ne _ (by decide), State.pendingCommit, ← pending]
    rfl
  · simp only [State.evt_frame, State.onPart_frame, asems, hsems, rsems, zsems n hn]
  · simp only [State.evt_frame, State.onPart_frame, aevts, hevts, revts, zevts n hn]
  · simp only [State.evt_frame, State.onPart_frame, atiles, off j hj]
  · simp only [State.evt_frame, State.onPart_frame, amem, hmem, rmem, tmem, stores hp hs j hj o ho]

end Finish

end Sys2Proof.Machine
end

section
/-!
SUPPORT. What follows a partition's drain (R334, R337, R338): its end, the commit of a load or a retirement, and the weights.
-/

namespace Sys2Proof.Machine

section Status

variable (s : State) {p : Nat}

/-- A partition's status reads what was set. -/
theorem State.partStatus_set (v : Nat) : (s.setPartStatus p v).partStatus p = v % 4 := State.fgetAt_fsetAt_same ..

/-- A partition's status is no part of its state. -/
theorem State.part_setPartStatus (s : State) (p q v : Nat) : (s.setPartStatus q v).part p = s.part p := by
  simp [State.part]

/-- A partition's status is a register. -/
theorem State.partStatus_congr {s t : State} (h : t.regs = s.regs) (p : Nat) : t.partStatus p = s.partStatus p :=
  State.fgetAt_congr h ..

variable (hp : p < 16)
include hp

/-- A field outside PART_STATUS leaves the partition's status. -/
theorem State.partStatus_fset {f : Field} (v : Nat) (hf : f.key 0 0 < PART_STATUS.STATE0.key 0 0 ∨
    PART_STATUS.STATE0.key 0 0 + 32 ≤ f.key 0 0) : (s.fset f 0 0 v).partStatus p = s.partStatus p :=
  State.fgetAt_fset_ne s (g := PART_STATUS.STATE0) (by omega)

/-- An event leaves the partition's status. -/
theorem State.partStatus_evt {f : Field} (mask : Nat) (q : Option Nat) (hf : f.key 0 0 < PART_STATUS.STATE0.key 0 0 ∨
    PART_STATUS.STATE0.key 0 0 + 32 ≤ f.key 0 0) : (s.evt f 0 0 mask q).partStatus p = s.partStatus p :=
  (State.partStatus_congr (State.evt_regs ..) p).trans (s.partStatus_fset hp _ hf)

/-- A partition's status leaves the fields outside PART_STATUS. -/
theorem State.fget_setPartStatus (v : Nat) {f : Field} (hf : f.key 0 0 < PART_STATUS.STATE0.key 0 0 ∨
    PART_STATUS.STATE0.key 0 0 + 32 ≤ f.key 0 0) : (s.setPartStatus p v).fget f 0 0 = s.fget f 0 0 :=
  State.fget_fsetAt_ne s (by omega)

end Status

section DrainDone

variable {s : State} {p : Nat} (hp : p < 16)
include hp

/-- A drain that has not completed goes on. -/
theorem exec_resetDrainDone_waits {b l r : Bool} {since : Nat} (hs : (s.part p).stage = .draining b l r since)
    (hd : s.drained p = false) : exec (.resetDrainDone p) s = .next s := by
  show execResetDrainDone p s = _
  rw [execResetDrainDone, partOk, decide_eq_true hp, hs]
  dsimp only
  rw [hd]
  exact ok_of_pending rfl

/-- A plain drain that has completed ends the reset. -/
theorem exec_resetDrainDone_plain {since : Nat} (hs : (s.part p).stage = .draining false false false since)
    (hd : s.drained p = true) : exec (.resetDrainDone p) s =
      .next ((((s.finishReset p).setPartStatus p 1).onPart p (fun q => { q with stage := .none })).withQueue s.pending) := by
  show execResetDrainDone p s = _
  rw [execResetDrainDone, partOk, decide_eq_true hp, hs]
  dsimp only
  rw [hd]
  exact ok_true ..

/-- The drain of a load or a retirement that has completed. -/
theorem exec_resetDrainDone_held {load retire : Bool} {since : Nat} (hs : (s.part p).stage = .draining false load retire since)
    (hl : load = true ∨ retire = true) (hd : s.drained p = true) : exec (.resetDrainDone p) s =
      .next ((State.loadCommit (((s.finishReset p).setPartStatus p (if load then 2 else 1)).onPart p (fun q =>
        { q with stage := .loadDrain retire false })) p).withQueue s.pending) := by
  show execResetDrainDone p s = _
  rw [execResetDrainDone, partOk, decide_eq_true hp, hs, ok_true]
  dsimp only
  rw [hd, if_neg (by simp), if_neg (by simp), if_pos hl]

/-- 100 ms of a drain. -/
theorem exec_drainSlow_late {b l r : Bool} {since : Nat} (hs : (s.part p).stage = .draining b l r since)
    (ht : since + 100000000 ≤ s.time) : exec (.drainSlow p) s = .next (s.evt PROT_EVENT.DRAIN_SLOW 0 0 1 none) := by
  show execDrainSlow p s = _
  rw [execDrainSlow, partOk, decide_eq_true hp, hs]
  dsimp only
  rw [if_pos ht]
  exact ok_of_pending (by simp)

/-- Before 100 ms of a drain. -/
theorem exec_drainSlow_early {b l r : Bool} {since : Nat} (hs : (s.part p).stage = .draining b l r since)
    (ht : s.time < since + 100000000) : exec (.drainSlow p) s = .next s := by
  show execDrainSlow p s = _
  rw [execDrainSlow, partOk, decide_eq_true hp, hs]
  dsimp only
  rw [if_neg (Nat.not_le.mpr ht)]
  exact ok_of_pending rfl

end DrainDone

/-- The end of a plain reset (R334). -/
theorem State.plainReset_spec (s : State) {p : Nat} (hp : p < 16) {t : State}
    (ht : t = ((s.finishReset p).setPartStatus p 1).onPart p (fun q => { q with stage := .none })) :
    (t.part p).stage = .none ∧ t.partStatus p = 1 ∧ (t.part p).insts = [] ∧ t.fget PROT_EVENT.PART_RESET_DONE 0 0 = 1 ∧
      (∀ n, n < 16384 → Tbl.get 0 t.sems (p * 16384 + n) = 0) ∧ (∀ n, n < 1024 → Tbl.get 0 t.evts (p * 1024 + n) = 0) ∧
      (∀ j ∈ s.towerTiles p, (Tbl.get {} t.tiles j).power = .off) ∧
      (s.poolChans p = [] → s.sess p 8 4 = 0 → ∀ j ∈ s.towerTiles p, ∀ o, o < 0x1000000 →
        readByte t.mem (wsAt j o) = 0) := by
  obtain ⟨insts, done, -, sems, evts, off, stores⟩ := s.finishReset_spec p rfl
  generalize s.finishReset p = u at ht insts done sems evts off stores
  have part : t.part p = { u.part p with stage := .none } := by
    rw [ht, State.part_onPart]
    exact congrArg (fun q : Part => { q with stage := .none }) (u.part_setPartStatus p p 1)
  refine ⟨by rw [part], ?_, by rw [part, insts], ?_, ?_, ?_, ?_, ?_⟩
  · rw [ht]
    exact u.partStatus_set 1
  · rw [ht]
    exact (u.fget_setPartStatus hp 1 (by decide)).trans done
  all_goals
    rw [ht]
    simpa using (by assumption)

/-- The end of the drain of a load or a retirement whose commit waits (R332). -/
theorem State.heldReset_spec (s : State) {p : Nat} (hp : p < 16) (load retire : Bool) (hc : s.pendingCommit = true) {t : State}
    (ht : t = State.loadCommit (((s.finishReset p).setPartStatus p (if load then 2 else 1)).onPart p (fun q =>
      { q with stage := .loadDrain retire false })) p) :
    (t.part p).stage = .loadDrain retire false ∧ t.partStatus p = (if load then 2 else 1) ∧ (t.part p).insts = [] := by
  obtain ⟨insts, -, pending, -⟩ := s.finishReset_spec p rfl
  generalize s.finishReset p = u at ht insts pending
  have status := u.partStatus_set (p := p) (if load then 2 else 1)
  have part : (u.setPartStatus p (if load then 2 else 1)).part p = u.part p := u.part_setPartStatus ..
  have held : (u.setPartStatus p (if load then 2 else 1)).pendingCommit = true := by
    rw [State.pendingCommit, u.fget_setPartStatus hp _ (by decide), ← State.pendingCommit, pending, hc]
  generalize u.setPartStatus p (if load then 2 else 1) = v at ht status part held
  have stays : t = v.onPart p (fun q => { q with stage := .loadDrain retire false }) := by
    have busy : (v.onPart p (fun q => { q with stage := .loadDrain retire false })).commitFree = false := by
      have same : (v.onPart p (fun q => { q with stage := .loadDrain retire false })).pendingCommit = true := held
      rw [State.commitFree, same, Bool.not_true, Bool.and_false]
    rw [ht, State.loadCommit, State.part_onPart]
    dsimp only
    rw [busy]
    rfl
  refine ⟨by rw [stays, State.part_onPart], ?_, by rw [stays, State.part_onPart, part, insts]⟩
  rw [stays]
  refine Eq.trans status ?_
  split <;> rfl

section LoadDrain

variable {s : State} {p : Nat} (hp : p < 16)
include hp

/-- A commit that cannot be accepted yet waits. -/
theorem exec_loadDrainDone_waits {r c : Bool} (hs : (s.part p).stage = .loadDrain r c) (hf : s.commitFree = false) :
    exec (.loadDrainDone p) s = .next s := by
  show execLoadDrainDone p s = _
  rw [execLoadDrainDone, partOk, decide_eq_true hp, hs]
  cases c
  · dsimp only
    rw [State.loadCommit, hs]
    dsimp only
    rw [hf]
    exact ok_of_pending rfl
  · dsimp only
    rw [hf]
    exact ok_of_pending rfl

/-- A sweep on the partition's targets holds its weights (R213). -/
theorem exec_loadDrainDone_swept (hs : (s.part p).stage = .loadDrain false true) (hw : s.swept p = true) :
    exec (.loadDrainDone p) s = .next s := by
  show execLoadDrainDone p s = _
  rw [execLoadDrainDone, partOk, decide_eq_true hp, hs]
  dsimp only
  rw [hw]
  cases s.commitFree <;> exact ok_of_pending rfl

/-- The weights of a load whose commit has taken effect are loaded. -/
theorem exec_loadDrainDone_weights (hs : (s.part p).stage = .loadDrain false true) (hf : s.commitFree = true)
    (hw : s.swept p = false) : exec (.loadDrainDone p) s =
      .next (((s.setPartStatus p 3).fset BOOT_LOAD_BYTES.BYTES 0 0 0).onPart p (fun q => { q with stage := .loadWeights })) := by
  show execLoadDrainDone p s = _
  rw [execLoadDrainDone, partOk, decide_eq_true hp, hs]
  dsimp only
  rw [hf, hw]
  exact ok_of_pending (by simp)

/-- A retirement whose commit has taken effect is complete. -/
theorem exec_loadDrainDone_retired (hs : (s.part p).stage = .loadDrain true true) (hf : s.commitFree = true) :
    exec (.loadDrainDone p) s = .next (s.onPart p (fun q => { q with stage := .none })) := by
  show execLoadDrainDone p s = _
  rw [execLoadDrainDone, partOk, decide_eq_true hp, hs]
  dsimp only
  rw [hf]
  exact ok_of_pending rfl

/-- A partition whose weights are loaded. -/
theorem State.weightsBegin_spec (s : State) {t : State}
    (ht : t = ((s.setPartStatus p 3).fset BOOT_LOAD_BYTES.BYTES 0 0 0).onPart p (fun q => { q with stage := .loadWeights })) :
    (t.part p).stage = .loadWeights ∧ t.partStatus p = 3 ∧ t.fget BOOT_LOAD_BYTES.BYTES 0 0 = 0 ∧ t.mem = s.mem := by
  have status : ((s.setPartStatus p 3).fset BOOT_LOAD_BYTES.BYTES 0 0 0).partStatus p = 3 :=
    (State.partStatus_fset _ hp 0 (by decide)).trans (s.partStatus_set 3)
  have bytes : ((s.setPartStatus p 3).fset BOOT_LOAD_BYTES.BYTES 0 0 0).fget BOOT_LOAD_BYTES.BYTES 0 0 = 0 := by
    rw [State.fget_fset_same, Nat.zero_mod]
  subst ht
  exact ⟨by rw [State.part_onPart], status, bytes, by simp⟩

end LoadDrain

section Weights

variable {s : State} {p : Nat} (hp : p < 16)

/-- A partition whose weights have matched: sealed, with its key and its stores its own (R337, R486). -/
def State.weightsMatched (s : State) (p : Nat) : State :=
  let s2 := (s.zeroForeign p).withSealParts (setBit (s.zeroForeign p).sealParts p true)
  ((((s2.keyFor p).markOwner p).restartAccts p).setPartStatus p 1).evt PROT_EVENT.LOAD_DONE 0 0 1 none

/-- The partition's message is the image's, and it runs. -/
def State.running (s : State) (p : Nat) (msg : List Byte) : State :=
  (s.withMgmt { s.mgmt with partMsg := Tbl.put [] s.mgmt.partMsg p msg }).onPart p
    (fun q => { q with stage := .none, load := [], blobs := [] })

include hp

/-- A partition without blobs runs. -/
theorem exec_loadWeightsDone_none (hs : (s.part p).stage = .loadWeights) (hb : s.partBlobs p = []) :
    exec (.loadWeightsDone p 0) s =
      .next (((s.weightsMatched p).running p (imgMessage (bytesRd (s.part p).load))).withQueue s.pending) := by
  show execLoadWeightsDone p 0 s = _
  rw [execLoadWeightsDone, partOk, decide_eq_true hp, hs]
  dsimp only
  rw [hb, List.take_nil, List.takeWhile_nil, List.foldl_nil, if_neg (by simp)]
  exact ok_true ..

/-- A partition whose blobs have not all matched stays held (R338). -/
theorem exec_loadWeightsDone_short (hs : (s.part p).stage = .loadWeights) (hb : s.partBlobs p ≠ []) :
    exec (.loadWeightsDone p 0) s = .next (((s.zeroForeign p).applyFails 6 9 p).withQueue s.pending) := by
  show execLoadWeightsDone p 0 s = _
  rw [execLoadWeightsDone, partOk, decide_eq_true hp, hs]
  dsimp only
  rw [List.take_zero, List.takeWhile_nil, List.foldl_nil, List.length_nil, if_pos (List.length_pos_iff.mpr hb)]
  exact ok_true ..

/-- A partition that runs with its weights. -/
theorem State.weightsMatched_spec (msg : List Byte) {t : State} (ht : t = (s.weightsMatched p).running p msg) :
    (t.part p).stage = .none ∧ t.partStatus p = 1 ∧ t.sealParts.testBit p = true ∧ t.fget PROT_EVENT.LOAD_DONE 0 0 = 1 := by
  have matched : (s.weightsMatched p).partStatus p = 1 ∧ (s.weightsMatched p).sealParts.testBit p = true ∧
      (s.weightsMatched p).fget PROT_EVENT.LOAD_DONE 0 0 = 1 := by
    unfold State.weightsMatched
    dsimp only
    have bit : ((s.zeroForeign p).withSealParts (setBit (s.zeroForeign p).sealParts p true)).sealParts.testBit p = true :=
      testBit_setBit_same ..
    generalize (s.zeroForeign p).withSealParts (setBit (s.zeroForeign p).sealParts p true) = u at bit
    obtain ⟨-, -, -, -, key⟩ := State.keyFor_keeps (within_opened _ u) u p (.refl _ u) .pages (by decide)
    generalize u.keyFor p = v at key
    obtain ⟨-, -, -, -, own⟩ := State.markOwner_keeps (within_opened _ v) v p (.refl _ v) .pages (by decide)
    generalize v.markOwner p = w at own
    obtain ⟨-, -, -, -, acct⟩ := State.restartAccts_keeps (within_opened _ w) w p (.refl _ w) .pages (by decide)
    generalize w.restartAccts p = x at acct
    refine ⟨(State.partStatus_evt _ hp 1 none (by decide)).trans (x.partStatus_set 1), ?_, ?_⟩
    · rw [key, own, acct] at bit
      simpa using bit
    · rw [State.fget_evt_same]
      simp [PROT_EVENT.LOAD_DONE]
  generalize s.weightsMatched p = u at ht matched
  subst ht
  exact ⟨congrArg Part.stage (State.part_onPart ..), matched⟩

/-- A load that fails in its apply leaves its partition held and unsealed (R338). -/
theorem State.applyFails_spec (s : State) (result sect : Nat) {t : State} (ht : t = s.applyFails result sect p) :
    (t.part p).stage = .heldFailed ∧ t.partStatus p = 2 ∧ t.sealParts.testBit p = false ∧
      t.fget PART_LOAD_STATUS.RESULT 0 0 = result % 256 := by
  obtain ⟨shown, -⟩ := s.loadFails_fields result sect p
  rw [State.applyFails] at ht
  generalize s.loadFails result sect p = u at ht shown
  have status := u.partStatus_set (p := p) 2
  have kept := (u.fget_setPartStatus (f := PART_LOAD_STATUS.RESULT) hp 2 (by decide)).trans shown
  generalize u.setPartStatus p 2 = v at ht status kept
  have stage : (t.part p).stage = .heldFailed := by
    rw [ht, State.part_congr (s := v.onPart p (fun q => { q with stage := .heldFailed, load := [] })) (by simp) p,
      State.part_onPart]
  subst ht
  exact ⟨stage, status, testBit_setBit_same .., kept⟩

end Weights

end Sys2Proof.Machine
end

section
/-!
O48. PART_CMD and what follows it (R213, R334, R336 to R339, R401).
-/

namespace Sys2Proof.Machine

section PartCommands

variable {s : State} {who : Accessor} {v p : Nat} (hw : who.wf = true)
include hw

/-- A partition's reset by command. -/
theorem partitionReset_starts (hc : s.partCmd who v 1 = some p) (hs : (s.part p).stage = .none) (hu : s.partStatus p ≠ 0) :
    ∃ t, exec (.partitionReset who v) s = .next t ∧ (t.part p).stage = .draining false false false s.time ∧
      (∀ l, l < 4 → (t.inst p l).valid = true → (t.inst p l).aborted = true) ∧ (∀ x ∈ t.thapWait, x.part ≠ p) ∧
      (∀ c, ∀ x ∈ (t.chan c).queue, x.part ≠ p) ∧ (∀ k, t.acctOf p k = true → (t.acct k).held = []) := by
  have starts := exec_partitionReset_starts hw hc hs hu
  obtain ⟨stage, aborted, waiting, queued, released, -⟩ := s.startReset_spec p false false false
    (fun b l r since e => by rw [hs] at e; cases e) rfl
  generalize s.startReset p false false false = t at starts stage aborted waiting queued released
  exact ⟨_, starts, stage, aborted, waiting, queued, released⟩

/-- A partition's retirement by command. -/
theorem partitionRetire_starts (hc : s.partCmd who v 3 = some p) (hr : s.isReady = true) (hs : (s.part p).stage = .none)
    (hu : s.partStatus p ≠ 0) : ∃ t, exec (.partitionRetire who v) s = .next t ∧
      (t.part p).stage = .draining false false true s.time ∧
      (∀ l, l < 4 → (t.inst p l).valid = true → (t.inst p l).aborted = true) := by
  have starts := exec_partitionRetire_starts hw hc hr (by rw [Part.idle, hs]) hu
  obtain ⟨stage, aborted, -⟩ := s.startReset_spec p false false true (fun b l r since e => by rw [hs] at e; cases e) rfl
  generalize s.startReset p false false true = t at starts stage aborted
  exact ⟨_, starts, stage, aborted⟩

/-- A load that passes its checks. -/
theorem partitionLoad_passes (ver : Verdict) (hc : s.partCmd who v 2 = some p) (hr : s.isReady = true)
    (hi : (s.part p).idle = true) (hb : s.imageReadable p (s.fget PART_LOAD_ADDR.ADDR 0 0) = true) {y : _}
    (hv : (s.withPending p).checkPart (s.windowImage p (s.fget PART_LOAD_ADDR.ADDR 0 0)) p ver = .pass y) :
    ∃ t, exec (.partitionLoad who v ver) s = .next t ∧ t.fget PART_LOAD_STATUS.RESULT 0 0 = 1 ∧
      (t.part p).load = imgBytes (s.windowImage p (s.fget PART_LOAD_ADDR.ADDR 0 0)) 0
        (imgNat (s.windowImage p (s.fget PART_LOAD_ADDR.ADDR 0 0)) 24 8) ∧
      ((s.part p).stage = .none ∨ (s.part p).stage = .heldFailed → (t.part p).stage = .draining false true false s.time) ∧
      ∀ b since, (s.part p).stage = .draining b false false since → (t.part p).stage = .draining false true false since := by
  have passes := exec_partitionLoad_passes hw ver hc hr hi hb hv
  obtain ⟨result, load, fresh, joined⟩ := s.loadStarts_spec p _ rfl
  generalize State.startReset _ p false true false = t at passes result load fresh joined
  exact ⟨_, passes, result, load, fresh, joined⟩

omit hw in
/-- A load or a retirement that fails before its apply reports so. -/
theorem loadFails_reports {c : Instr} {r x : Nat} (h : exec c s = .next (s.loadFails r x p)) (hr : r < 256) :
    ∃ t, exec c s = .next t ∧ t.fget PART_LOAD_STATUS.RESULT 0 0 = r ∧ t.fget PROT_EVENT.LOAD_FAIL 0 0 = 1 ∧
      t.parts = s.parts := by
  obtain ⟨result, -, -, failed⟩ := s.loadFails_fields r x p
  obtain ⟨parts, -, -⟩ := s.loadFails_frame r x p
  exact ⟨_, h, result.trans (Nat.mod_eq_of_lt hr), failed, parts⟩

end PartCommands

/-- Settles O48: each answer of PART_CMD, of the drain's end, of the commit and of the weights by its own lemma. -/
theorem partitionsResetLoadAndRetire : Obligations.PartitionsResetLoadAndRetire := by
  unfold Obligations.PartitionsResetLoadAndRetire
  refine ⟨fun s who v p hw => ?_, fun s p hp => ?_⟩
  · obtain ⟨reset, load, retire⟩ := exec_partCmd_unnamed (s := s) (v := v) hw
    refine ⟨fun hc => ⟨partitionReset_starts hw hc, fun hs => exec_partitionReset_idle hw hc (.inl hs),
      fun _ hu => exec_partitionReset_idle hw hc (.inr hu)⟩, reset, load, retire, fun ver hc => ?_, fun hc => ?_⟩
    · refine ⟨fun hr => ?_, fun hr hi => ⟨fun hb => ?_, fun hb => ⟨fun r x hv => ?_, fun y hv =>
        partitionLoad_passes hw ver hc hr hi hb hv⟩⟩, fun hr hi => exec_partitionLoad_busy hw ver hc hr hi⟩
      · exact loadFails_reports (exec_partitionLoad_early hw ver hc hr) (by decide)
      · exact loadFails_reports (exec_partitionLoad_unreadable hw ver hc hr hi hb) (by decide)
      · obtain ⟨result, sect, part, -⟩ := s.loadFails_fields r x p
        obtain ⟨parts, mem, -⟩ := s.loadFails_frame r x p
        exact ⟨_, exec_partitionLoad_fails hw ver hc hr hi hb hv, result, sect, part, parts, mem⟩
    · exact ⟨fun hr => loadFails_reports (exec_partitionRetire_early hw hc hr) (by decide),
        partitionRetire_starts hw hc, exec_partitionRetire_busy hw hc⟩
  · refine ⟨fun since hs => ⟨exec_resetDrainDone_waits hp hs, fun hd => ?_, fun ht => ?_, exec_drainSlow_early hp hs⟩,
      fun l r since hs hl hd hc => ?_, fun r hs => exec_loadDrainDone_waits hp hs, fun hs => ⟨?_, fun hf hw => ?_⟩,
      fun hs hf => ⟨_, exec_loadDrainDone_retired hp hs hf, congrArg Part.stage (State.part_onPart ..), rfl⟩,
      fun hs => ⟨fun hb => ?_, fun hb => ?_⟩⟩
    · have done := exec_resetDrainDone_plain hp hs hd
      have spec := s.plainReset_spec hp rfl
      generalize State.onPart (State.setPartStatus (s.finishReset p) p 1) p _ = t at done spec
      exact ⟨_, done, spec⟩
    · refine ⟨_, exec_drainSlow_late hp hs ht, ?_, by simp, by simp⟩
      rw [State.fget_evt_same]
      simp [PROT_EVENT.DRAIN_SLOW]
    · have held := exec_resetDrainDone_held hp hs hl hd
      have spec := s.heldReset_spec hp l r hc rfl
      generalize State.loadCommit _ p = t at held spec
      exact ⟨_, held, spec⟩
    · rintro (hf | hw)
      · exact exec_loadDrainDone_waits hp hs hf
      · exact exec_loadDrainDone_swept hp hs hw
    · exact ⟨_, exec_loadDrainDone_weights hp hs hf hw, State.weightsBegin_spec hp s rfl⟩
    · have done := exec_loadWeightsDone_none hp hs hb
      have spec := State.weightsMatched_spec (s := s) hp (imgMessage (bytesRd (s.part p).load)) rfl
      generalize (s.weightsMatched p).running p _ = t at done spec
      exact ⟨_, done, spec⟩
    · have short := exec_loadWeightsDone_short hp hs hb
      have spec := (s.zeroForeign p).applyFails_spec hp 6 9 rfl
      generalize (s.zeroForeign p).applyFails 6 9 p = t at short spec
      exact ⟨_, short, spec⟩

end Sys2Proof.Machine
end

section
/-!
SUPPORT. The entry into processor mode (R220, R247): the channel's bit of THAPEL_MODE is written before the account of its first
step is asked. A step's partition is an index into BWR_THAPEL_ACCT, and one far past the 16 partitions runs past a hub's
accounts into the next hub's registers, so that the write can give the step an account with nothing left.
-/

namespace Sys2Proof.Machine

/-- A seal check of a page of channel 0 for partition 7,554: the account of that number at hub 0 would lie at offset
0x106400 + 8 × 7,554 = 0x115010, which is THAPEL_MODE of hub 1. -/
def stepPastParts : Step :=
  { op := 2, part := 7554, chan := 0, frame := 0, page := 0, layer := 0, pending := false, segTest := false, row0 := 0, rows := 0
    head0 := 0, heads := 0, group := 0, geom := 0, n := 0, window := 0, scaleC := 0, qfmt := 0, pendFirst := 0, tag := 0
    qOff := 0, tabOff := 0, qs := [], tab := [], tile := 0, level := 0, thread := 0, sess := 0, index := 0, handle := 0
    queued := 0 }

/-- That step is queued at channel 192, hub 1's first, which enters processor mode; nothing drains, and no account is in use. -/
def enteringPastParts : State := { State.reset with chans := [(192, { mode := .entering, queue := [stepPastParts] })] }

/-- Before the entry the step has no account, and so may start. -/
theorem enteringPastParts_may : enteringPastParts.stepMay stepPastParts = true := rfl

/-- The entry sets the mode bit: now the step has an account, with nothing to spend, and it does not run. -/
theorem enteringPastParts_waits : (match exec (.processorModeEntry 192) enteringPastParts with
    | .next t => (t.chan 192).running
    | _ => some stepPastParts) = none := by
  decide +kernel

/-- Refutes O41: a channel's own mode bit can give its first step an account, which then does not let it start. -/
theorem not_pageStepsQueueRunAndDeliver : ¬ Obligations.PageStepsQueueRunAndDeliver := by
  unfold Obligations.PageStepsQueueRunAndDeliver
  intro h
  obtain ⟨-, hentry, -⟩ := h enteringPastParts 192 stepPastParts (by decide)
  obtain ⟨-, hstarts⟩ := hentry (.inl rfl)
  obtain ⟨t, he, -, hchan⟩ := hstarts [] rfl rfl rfl enteringPastParts_may
  have hwaits := enteringPastParts_waits
  rw [he] at hwaits
  simp [hchan] at hwaits

end Sys2Proof.Machine
end

section
/-!
SUPPORT. Bandwidth regulation (chapter 9): what a charge, a release of held requests and a window boundary do to accounts,
registers and memory; what WINDOW_BOUNDARY, REQUEST_RELEASE, URGENCY_SAMPLE and SCALE_UPDATE leave.
That a port's or page engine's request is charged by REQUEST_RELEASE is the model's choice (log entry 57).
-/

namespace Sys2Proof.Machine

section Accounts

variable {s : State} {h key u n : Nat} {a : AcctCfg}

/-- A changed account reads as changed. -/
@[simp] theorem State.acct_onAcct_same (f : Acct → Acct) : (s.onAcct key f).acct key = f (s.acct key) := by
  simp [State.acct, Tbl.upd]

/-- A change of one account leaves the others. -/
theorem State.acct_onAcct_ne (f : Acct → Acct) {i : Nat} (hi : i ≠ key) : (s.onAcct key f).acct i = s.acct i := by
  simp [State.acct, Tbl.upd, Tbl.get_put_ne _ hi]

/-- A charge spends from its account and touches no other (R245). -/
@[simp] theorem State.charge_accts :
    (s.charge h key a u n).accts = (s.onAcct key (fun _ => (s.acct key).spend a u n)).accts := by
  unfold State.charge
  dsimp only
  split <;> simp

/-- A charge writes neither memory nor the queue. -/
@[simp] theorem State.charge_frame :
    (s.charge h key a u n).mem = s.mem ∧ (s.charge h key a u n).pending = s.pending := by
  unfold State.charge
  dsimp only
  split <;> simp

/-- In the register file a charge writes at most BORROW of its hub (R249). -/
theorem State.charge_register {k : Nat} (hk : k ≠ BWR_EVENT.BORROW.key h 0) (d : Nat) :
    Tbl.get d (s.charge h key a u n).regs k = Tbl.get d s.regs k := by
  unfold State.charge
  dsimp only
  split
  · rw [State.evt_regs, State.get_fset_ne _ hk]
    simp
  · simp

/-- The release of held requests writes at most BORROW of its hub. -/
theorem State.releaseHeld_register {k : Nat} (hk : k ≠ BWR_EVENT.BORROW.key h 0) (d fuel : Nat) :
    Tbl.get d (s.releaseHeld h key a u fuel).regs k = Tbl.get d s.regs k := by
  induction fuel generalizing s with
  | zero => rfl
  | succ fuel ih =>
    unfold State.releaseHeld
    split
    · rfl
    · split
      · rw [ih]
        simpa using State.charge_register hk d
      · rfl

/-- The release of held requests writes no memory. -/
theorem State.releaseHeld_mem (fuel : Nat) : (s.releaseHeld h key a u fuel).mem = s.mem :=
  (State.releaseHeld_keeps (within_opened _ s) s h key a u fuel (.refl _ s) .memory (by decide)).1.symm

/-- A full share of the host port writes no account, no memory and no queue (Table 9.2). -/
@[simp] theorem State.hostShare_frame (m : Nat) : (s.hostShare h m key).accts = s.accts ∧
    (s.hostShare h m key).mem = s.mem ∧ (s.hostShare h m key).pending = s.pending := by
  unfold State.hostShare
  split <;> simp

end Accounts

section Boundaries

variable {s : State} {h key u : Nat} {a : AcctCfg}

/-- An account at the current time: its window's boundary is taken if it has come (R244, R255). -/
def State.acctNow (s : State) (key : Nat) (a : AcctCfg) : Acct :=
  if s.time / max 1 a.window < (s.acct key).win then s.acct key else (s.acct key).boundary a s.time

/-- Before its boundary an account's window goes on. -/
theorem State.boundaryOf_early (hw : s.time / max 1 a.window < (s.acct key).win) : s.boundaryOf h key a u = s :=
  if_neg (by omega)

/-- A boundary that has come, with nothing held, only resets the budgets (R244). -/
theorem State.boundaryOf_come (hw : (s.acct key).win ≤ s.time / max 1 a.window) (hh : (s.acct key).held = []) :
    s.boundaryOf h key a u = s.onAcct key (fun x => x.boundary a s.time) := by
  have held : ((s.onAcct key (fun x => x.boundary a s.time)).acct key).held = [] := by simpa [Acct.boundary] using hh
  refine (if_pos (by omega)).trans ?_
  dsimp only
  rw [held]
  rfl

/-- With nothing held, the account is as it is now, and the others, memory and queue are as they were. -/
theorem State.boundaryOf_spec (hh : (s.acct key).held = []) :
    (s.boundaryOf h key a u).acct key = s.acctNow key a ∧ (∀ i, i ≠ key → (s.boundaryOf h key a u).acct i = s.acct i) ∧
      (s.boundaryOf h key a u).mem = s.mem := by
  by_cases hw : s.time / max 1 a.window < (s.acct key).win
  · rw [State.boundaryOf_early hw, State.acctNow, if_pos hw]
    exact ⟨rfl, fun _ _ => rfl, rfl⟩
  · rw [State.boundaryOf_come (Nat.not_lt.mp hw) hh, State.acctNow, if_neg hw]
    exact ⟨State.acct_onAcct_same _, fun _ hi => State.acct_onAcct_ne _ hi, by simp⟩

/-- With nothing held, nothing is held when a boundary has been taken. -/
theorem State.acctNow_held (hh : (s.acct key).held = []) : (s.acctNow key a).held = [] := by
  unfold State.acctNow
  split <;> simpa [Acct.boundary] using hh

end Boundaries

section Requests

variable {s : State} {h m p k n : Nat} {a : AcctCfg} (hh : h < 4) (hm : m < 22) (hp : p < 16)
include hh hm hp

/-- A request without an account is released at the level of best effort (R242). -/
theorem exec_requestRelease_unaccounted (hk : s.account h m p = none) : exec (.requestRelease h m p n) s =
    .next (s.answer .ok (natLE 1 (if s.urgency h m ≥ 1 then 1 else 0))) := by
  change ok _ s _ = _
  simp only [hubOk, partOk, hh, hm, hp, decide_true, Bool.and_self, hk]
  exact ok_of_pending rfl

variable (hk : s.account h m p = some k) (ha : s.acctCfg h k = some a)
include hk ha

/-- A request with an account is charged and released if nothing is held before it and allowance is left, and else held
(R245). -/
theorem exec_requestRelease_accounted : exec (.requestRelease h m p n) s =
    .next (State.withQueue (
      let b := s.boundaryOf h (acctKey h k) a (s.urgency h m)
      if (b.acct (acctKey h k)).held = [] ∧ (b.acct (acctKey h k)).may a (s.urgency h m) = true then
        (b.charge h (acctKey h k) a (s.urgency h m) n).answer .ok (natLE 1 ((b.acct (acctKey h k)).level (s.urgency h m)))
      else ((b.onAcct (acctKey h k) (fun x => { x with held := x.held ++ [n] })).hostShare h m (acctKey h k)).answer .none [])
      s.pending) := by
  change ok _ s _ = _
  simp only [hubOk, partOk, hh, hm, hp, decide_true, Bool.and_self, hk, ha]
  rfl

/-- A request that may go, with nothing held before it, is charged and released at the level of its first byte. -/
theorem exec_requestRelease_released (hheld : (s.acct (acctKey h k)).held = [])
    (hmay : (s.acctNow (acctKey h k) a).may a (s.urgency h m) = true) :
    ∃ t, exec (.requestRelease h m p n) s = .next t ∧
      t.rsp = ⟨.ok, natLE 1 ((s.acctNow (acctKey h k) a).level (s.urgency h m))⟩ ∧
      t.acct (acctKey h k) = (s.acctNow (acctKey h k) a).spend a (s.urgency h m) n ∧
      (∀ i, i ≠ acctKey h k → t.acct i = s.acct i) ∧ t.mem = s.mem := by
  obtain ⟨hnow, hothers, hmem⟩ := State.boundaryOf_spec (h := h) (u := s.urgency h m) (a := a) hheld
  refine ⟨_, exec_requestRelease_accounted hh hm hp hk ha, ?_⟩
  dsimp only
  rw [hnow, if_pos ⟨State.acctNow_held hheld, hmay⟩]
  generalize s.boundaryOf h (acctKey h k) a (s.urgency h m) = b at hnow hothers hmem ⊢
  have charged (i : Nat) : (((b.charge h (acctKey h k) a (s.urgency h m) n).answer .ok
      (natLE 1 ((s.acctNow (acctKey h k) a).level (s.urgency h m)))).withQueue s.pending).acct i =
      (b.onAcct (acctKey h k) (fun _ => (b.acct (acctKey h k)).spend a (s.urgency h m) n)).acct i := by
    simp [State.acct]
  refine ⟨by simp, ?_, fun i hi => ?_, by simp [hmem]⟩
  · rw [charged, State.acct_onAcct_same, hnow]
  · rw [charged, State.acct_onAcct_ne _ hi, hothers i hi]

/-- A request that may not go yet waits behind those held before it, for the boundary taken as `b` leaves it. -/
theorem exec_requestRelease_held {b : State} (hb : s.boundaryOf h (acctKey h k) a (s.urgency h m) = b)
    (hwaits : ¬((b.acct (acctKey h k)).held = [] ∧ (b.acct (acctKey h k)).may a (s.urgency h m) = true)) :
    ∃ t, exec (.requestRelease h m p n) s = .next t ∧ t.rsp = ⟨.none, []⟩ ∧
      t.acct (acctKey h k) = { b.acct (acctKey h k) with held := (b.acct (acctKey h k)).held ++ [n] } ∧
      (∀ i, i ≠ acctKey h k → t.acct i = b.acct i) ∧ t.mem = b.mem := by
  refine ⟨_, exec_requestRelease_accounted hh hm hp hk ha, ?_⟩
  dsimp only
  rw [hb, if_neg hwaits]
  have added (i : Nat) : ((((b.onAcct (acctKey h k) (fun x => { x with held := x.held ++ [n] })).hostShare h m
      (acctKey h k)).answer .none []).withQueue s.pending).acct i =
      (b.onAcct (acctKey h k) (fun x => { x with held := x.held ++ [n] })).acct i := by
    simp [State.acct]
  refine ⟨by simp, ?_, fun i hi => ?_, by simp⟩
  · rw [added, State.acct_onAcct_same]
  · rw [added, State.acct_onAcct_ne _ hi]

/-- A request without allowance, with nothing held before it, is the one that is held. -/
theorem exec_requestRelease_first (hheld : (s.acct (acctKey h k)).held = [])
    (hmay : (s.acctNow (acctKey h k) a).may a (s.urgency h m) = false) :
    ∃ t, exec (.requestRelease h m p n) s = .next t ∧ t.rsp = ⟨.none, []⟩ ∧
      t.acct (acctKey h k) = { s.acctNow (acctKey h k) a with held := [n] } ∧
      (∀ i, i ≠ acctKey h k → t.acct i = s.acct i) ∧ t.mem = s.mem := by
  obtain ⟨hnow, hothers, hmem⟩ := State.boundaryOf_spec (h := h) (u := s.urgency h m) (a := a) hheld
  obtain ⟨t, he, hrsp, hacct, hrest, htmem⟩ :=
    exec_requestRelease_held (n := n) hh hm hp hk ha rfl (by rw [hnow, hmay]; simp)
  refine ⟨t, he, hrsp, ?_, fun i hi => (hrest i hi).trans (hothers i hi), htmem.trans hmem⟩
  rw [hacct, hnow, State.acctNow_held hheld, List.nil_append]

/-- A request behind held ones is held last, within the account's window. -/
theorem exec_requestRelease_last (hheld : (s.acct (acctKey h k)).held ≠ [])
    (hw : s.time / max 1 a.window < (s.acct (acctKey h k)).win) :
    ∃ t, exec (.requestRelease h m p n) s = .next t ∧ t.rsp = ⟨.none, []⟩ ∧
      t.acct (acctKey h k) = { s.acct (acctKey h k) with held := (s.acct (acctKey h k)).held ++ [n] } ∧
      ∀ i, i ≠ acctKey h k → t.acct i = s.acct i := by
  obtain ⟨t, he, hrsp, hacct, hrest, -⟩ :=
    exec_requestRelease_held (n := n) hh hm hp hk ha (State.boundaryOf_early hw) (fun hgo => hheld hgo.1)
  exact ⟨t, he, hrsp, hacct, hrest⟩

end Requests

section Windows

variable {s : State} {h k m : Nat} {a : AcctCfg}

/-- What a tile's yarder issues leaves the queue. -/
theorem State.issueHeld_pending : (s.issueHeld h m).pending = s.pending :=
  State.issueHeld_keeps (State.queueIs_opened _ _) s h m rfl

/-- A master that is no tile has no yarder. -/
theorem State.issueHeld_port (hm : 16 ≤ m) : s.issueHeld h m = s := if_neg (Nat.not_lt.mpr hm)

variable (hh : h < 4)
include hh

/-- The boundary of an account in use: what the window's end leaves, and then the tile's yarder goes on (R244). -/
theorem exec_windowBoundary_account (hk : k < 128) (ha : s.acctCfg h k = some a) {b : State}
    (hb : s.boundaryOf h (acctKey h k) a (s.urgency h (s.fget BWR_ACCT.MASTER h k)) = b) (hq : b.pending = s.pending) :
    exec (.windowBoundary h k) s = .next (b.issueHeld h (s.fget BWR_ACCT.MASTER h k)) := by
  change ok _ s _ = _
  simp only [hubOk, hh, Nat.lt_trans hk (by decide : 128 < 144), decide_true, Bool.and_self, hk, if_true, ha, hb]
  exact ok_of_pending (State.issueHeld_pending.trans hq)

/-- A Thapel account not in use has no boundary (R243). -/
theorem exec_windowBoundary_thapel_unused {n : Nat} (hn : n < 16) (ht : s.thapelCfg h n = none) :
    exec (.windowBoundary h (128 + n)) s = .next s := by
  have hacct : 128 + n < 144 := by omega
  have hthapel : ¬ 128 + n < 128 := by omega
  change ok _ s _ = _
  simp only [hubOk, hh, hacct, decide_true, Bool.and_self, hthapel, if_false, Nat.add_sub_cancel_left, ht]
  exact ok_of_pending rfl

end Windows

section Samples

variable {s : State} {h m : Nat}

/-- The held requests of a master's accounts that now have allowance go (R255). -/
def State.releaseMaster (s : State) (h m : Nat) : State :=
  (List.range 128).foldl (fun t k =>
    if t.fget BWR_ACCT.VALID h k = 1 ∧ t.fget BWR_ACCT.MASTER h k = m then
      match t.acctCfg h k with
      | some a => t.releaseHeld h (acctKey h k) a (t.urgency h m) (t.acct (acctKey h k)).held.length
      | none => t
    else t) s

/-- A master's release writes at most BORROW of its hub, and no memory. -/
theorem State.releaseMaster_keeps {k : Nat} (hk : k ≠ BWR_EVENT.BORROW.key h 0) (d : Nat) :
    Tbl.get d (s.releaseMaster h m).regs k = Tbl.get d s.regs k ∧ (s.releaseMaster h m).mem = s.mem := by
  refine keeps_foldl (P := fun t => Tbl.get d t.regs k = Tbl.get d s.regs k ∧ t.mem = s.mem) (fun t x ht => ?_) ⟨rfl, rfl⟩
  obtain ⟨hregs, hmem⟩ := ht
  refine keeps_ite (P := fun t => Tbl.get d t.regs k = Tbl.get d s.regs k ∧ t.mem = s.mem) ?_ ⟨hregs, hmem⟩
  split
  · exact ⟨(State.releaseHeld_register hk ..).trans hregs, (State.releaseHeld_mem _).trans hmem⟩
  · exact ⟨hregs, hmem⟩

/-- An urgency level fits its two bits (R249). -/
theorem urgencyOf_mod (fill : Nat) : urgencyOf fill % 2 ^ 2 = urgencyOf fill := by
  unfold urgencyOf
  split_ifs <;> rfl

/-- URGENCY_SAMPLE of a fabric or host port: the port's level follows its buffer, and then its accounts' requests go (R249). -/
theorem exec_urgencySample (hh : h < 4) (hlow : 16 ≤ m) (hhigh : m ≤ 20) (fill : Nat) : exec (.urgencySample h m fill) s =
    .next (((if m = 20 then (if h % 2 = 0 then s.fset BWR_URGENCY.HOST h 0 (urgencyOf fill) else s)
      else s.fsetAt BWR_URGENCY.FAB0 h 0 (2 * (m - 16)) (urgencyOf fill)).releaseMaster h m).withQueue s.pending) := by
  change ok _ s _ = _
  simp only [hubOk, hh, hlow, hhigh, decide_true, Bool.and_self]
  rfl

variable (hh : h < 4)
include hh

/-- A sample of a fabric port's buffer sets the port's level. -/
theorem exec_urgencySample_fabric {i : Nat} (hi : i < 4) (fill : Nat) :
    ∃ t, exec (.urgencySample h (16 + i) fill) s = .next t ∧
    t.fgetAt BWR_URGENCY.FAB0 h 0 (2 * i) = urgencyOf fill ∧ t.mem = s.mem := by
  have hplace : BWR_URGENCY.FAB0.key h 0 + 2 * i ≠ BWR_EVENT.BORROW.key h 0 := by
    simp only [Field.key, Field.addr, BWR_URGENCY.FAB0, BWR_EVENT.BORROW]
    omega
  refine ⟨_, exec_urgencySample hh (by omega) (by omega) fill, ?_⟩
  rw [if_neg (by omega), Nat.add_sub_cancel_left]
  obtain ⟨hreg, hmem⟩ := State.releaseMaster_keeps (s := s.fsetAt BWR_URGENCY.FAB0 h 0 (2 * i) (urgencyOf fill)) (m := 16 + i)
    hplace BWR_URGENCY.FAB0.rst
  refine ⟨?_, by simpa using hmem⟩
  rw [State.fgetAt_withQueue, State.fgetAt, hreg, ← State.fgetAt, State.fgetAt_fsetAt_same]
  exact urgencyOf_mod fill

/-- A sample of the host port's buffer sets the port's level, at the hubs that have one. -/
theorem exec_urgencySample_host (heven : h % 2 = 0) (fill : Nat) : ∃ t, exec (.urgencySample h 20 fill) s = .next t ∧
    t.fget BWR_URGENCY.HOST h 0 = urgencyOf fill ∧ t.mem = s.mem := by
  have hplace : BWR_URGENCY.HOST.key h 0 ≠ BWR_EVENT.BORROW.key h 0 :=
    Field.key_ne_of_off (f := BWR_URGENCY.HOST) (g := BWR_EVENT.BORROW) rfl (by decide) rfl rfl (by decide) (by decide) h 0
  refine ⟨_, exec_urgencySample hh (by decide) (by decide) fill, ?_⟩
  rw [if_pos rfl, if_pos heven]
  obtain ⟨hreg, hmem⟩ := State.releaseMaster_keeps (s := s.fset BWR_URGENCY.HOST h 0 (urgencyOf fill)) (m := 20)
    hplace BWR_URGENCY.HOST.rst
  refine ⟨?_, by simpa using hmem⟩
  rw [State.fget_withQueue, State.fget, hreg, ← State.fget, State.fget_fset_same]
  exact urgencyOf_mod fill

end Samples

section Scaling

variable {s : State} {h : Nat}

/-- A record of no partition leaves a hub's registers below those of the error block as they were (R273). -/
theorem State.fget_record_below {r : ErrRec} (hr : r.part = none) {g : Field} (hb : g.blk = .hub) (ho : g.off < 0x7000)
    (hst : g.stride = 0) (hlo : g.lo < 64) : (s.record h r).fget g h 0 = s.fget g h 0 := by
  have apart {f : Field} (hf : f.blk = .hub ∧ 0x7000 ≤ f.off ∧ f.stride = 0 ∧ f.lo < 64) : g.key h 0 ≠ f.key h 0 := by
    obtain ⟨hfb, hfo, hfs, hfl⟩ := hf
    exact Field.key_ne_of_off (hb.trans hfb.symm) (by omega) hst hfs hlo hfl h 0
  have queued (t : State) (q : ErrRec) : (t.recordQueue h q).fget g h 0 = t.fget g h 0 := by
    unfold State.recordQueue
    dsimp only
    split
    · rw [State.fget_evt_ne _ (apart (by decide)), State.fcount, State.fget_fset_ne _ (apart (by decide))]
    · rw [State.fget_evt_ne _ (apart (by decide)), State.fwrap, State.fget_fset_ne _ (apart (by decide))]
      exact State.fget_congr (by simp) g h 0
  have fed (t : State) (q : ErrRec) : (t.recordFeed q).fget g h 0 = t.fget g h 0 := State.fget_congr (by simp) g h 0
  unfold State.record
  simp only [hr]
  rw [queued, fed, State.fget_sevEvents s h _ hb (by omega) hst hlo]

/-- FACTOR as HUB_DELIV gives it: over the guaranteed sum, at most 1,024 (R252). -/
def State.deliveredFactor (s : State) (h : Nat) : Nat :=
  if s.fget BWR_GUAR_SUM.GBPS h 0 = 0 then 1024
  else min 1024 (1024 * s.fget HUB_DELIV.GBPS h 0 / s.fget BWR_GUAR_SUM.GBPS h 0)

/-- FACTOR fits its eleven bits. -/
theorem State.deliveredFactor_le (s : State) (h : Nat) : s.deliveredFactor h ≤ 1024 := by
  unfold State.deliveredFactor
  split_ifs
  · exact le_rfl
  · exact min_le_left ..

/-- FACTOR takes its value. -/
def State.rescaled (s : State) (h : Nat) : State := s.fset BWR_SCALE.FACTOR h 0 (s.deliveredFactor h)

/-- FACTOR holds its value. -/
theorem State.rescaled_factor : (s.rescaled h).fget BWR_SCALE.FACTOR h 0 = s.deliveredFactor h := by
  rw [State.rescaled, State.fget_fset_same]
  exact Nat.mod_eq_of_lt (Nat.lt_of_le_of_lt (s.deliveredFactor_le h) (by decide))

/-- The record of a shortfall's start or end (R253). -/
def State.shortfallRec (s : State) (h cause : Nat) : ErrRec :=
  { cause, sev := 4, src := 12, info0 := s.deliveredFactor h, info1 := s.fget HUB_DELIV.GBPS h 0 + 2 ^ 32 *
      s.fget BWR_GUAR_SUM.GBPS h 0 }

/-- A report of a shortfall's start or end sets its event bit; FACTOR and memory are as they were. -/
theorem State.reported_fields {t : State} {f : Field} (hf : f = BWR_EVENT.SHORTFALL_START ∨ f = BWR_EVENT.SHORTFALL_END)
    (cause : Nat) : ((t.evt f h 0 1 none).record h (s.shortfallRec h cause)).fget f h 0 = 1 ∧
      ((t.evt f h 0 1 none).record h (s.shortfallRec h cause)).fget BWR_SCALE.FACTOR h 0 = t.fget BWR_SCALE.FACTOR h 0 ∧
      ((t.evt f h 0 1 none).record h (s.shortfallRec h cause)).mem = t.mem := by
  obtain ⟨hb, ho, hs, hl, hw⟩ : f.blk = .hub ∧ f.off = 0x6488 ∧ f.stride = 0 ∧ f.lo < 64 ∧ f.w = 1 := by
    rcases hf with rfl | rfl <;> decide
  refine ⟨?_, ?_, by simp⟩
  · rw [State.fget_record_below rfl hb (by omega) hs hl, State.fget_evt_same, hw, pow_one, Nat.or_mod_two_eq_one]
    exact .inr rfl
  · rw [State.fget_record_below rfl rfl (by decide) rfl (by decide)]
    exact State.fget_evt_ne t (Field.key_ne_of_off (g := f) hb.symm (by rw [ho]; decide) rfl hs (by decide) hl h 0)

/-- FACTOR takes its value, and where it leaves 1,024 or comes back to it that is reported (R252, R253). -/
def State.rescale (s : State) (h : Nat) : State :=
  if s.deliveredFactor h < 1024 ∧ s.fget BWR_SCALE.FACTOR h 0 = 1024 then
    ((s.rescaled h).evt BWR_EVENT.SHORTFALL_START h 0 1 none).record h (s.shortfallRec h 0x40)
  else if s.deliveredFactor h = 1024 ∧ s.fget BWR_SCALE.FACTOR h 0 < 1024 then
    ((s.rescaled h).evt BWR_EVENT.SHORTFALL_END h 0 1 none).record h (s.shortfallRec h 0x41)
  else s.rescaled h

/-- SCALE_UPDATE brings FACTOR up to date. -/
theorem exec_scaleUpdate (hh : h < 4) : exec (.scaleUpdate h) s = .next ((s.rescale h).withQueue s.pending) := by
  change ok _ s _ = _
  simp only [hubOk, hh, decide_true]
  rfl

/-- FACTOR and the reports of a shortfall after an update. -/
theorem State.rescale_spec : (s.rescale h).fget BWR_SCALE.FACTOR h 0 = s.deliveredFactor h ∧ (s.rescale h).mem = s.mem ∧
    (s.deliveredFactor h < 1024 → s.fget BWR_SCALE.FACTOR h 0 = 1024 →
      (s.rescale h).fget BWR_EVENT.SHORTFALL_START h 0 = 1) ∧
    (s.deliveredFactor h = 1024 → s.fget BWR_SCALE.FACTOR h 0 < 1024 →
      (s.rescale h).fget BWR_EVENT.SHORTFALL_END h 0 = 1) := by
  unfold State.rescale
  split_ifs with hstart hend
  · obtain ⟨hshown, hfactor, hmem⟩ := State.reported_fields (s := s) (t := s.rescaled h) (h := h) (.inl rfl) 0x40
    exact ⟨hfactor.trans State.rescaled_factor, hmem, fun _ _ => hshown, by omega⟩
  · obtain ⟨hshown, hfactor, hmem⟩ := State.reported_fields (s := s) (t := s.rescaled h) (h := h) (.inr rfl) 0x41
    exact ⟨hfactor.trans State.rescaled_factor, hmem, by omega, fun _ _ => hshown⟩
  · exact ⟨State.rescaled_factor, rfl, fun hf ho => absurd ⟨hf, ho⟩ hstart, fun hf ho => absurd ⟨hf, ho⟩ hend⟩

end Scaling

/-- Settles O43: a request by whether it has an account, allowance and requests held before it; a boundary by whether it has
come; samples and scaling by what they write. -/
theorem accountsHoldAndReleaseRequests : Obligations.AccountsHoldAndReleaseRequests := by
  unfold Obligations.AccountsHoldAndReleaseRequests
  intro s h hh
  refine ⟨fun m p n hm hp => ⟨exec_requestRelease_unaccounted hh hm hp, fun k a hk ha => ?request⟩,
    fun k a hk ha => ?window, fun n => exec_windowBoundary_thapel_unused hh,
    fun i fill hi => exec_urgencySample_fabric hh hi fill, fun fill heven => exec_urgencySample_host hh heven fill,
    ⟨_, exec_scaleUpdate hh, State.rescale_spec⟩⟩
  case request =>
    exact ⟨exec_requestRelease_released hh hm hp hk ha, exec_requestRelease_first hh hm hp hk ha,
      exec_requestRelease_last hh hm hp hk ha⟩
  case window =>
    refine ⟨fun hw => ?_, fun hw hheld => ?_, fun hm u => State.issueHeld_port hm⟩
    · exact exec_windowBoundary_account hh hk ha (State.boundaryOf_early hw) rfl
    · exact exec_windowBoundary_account hh hk ha (State.boundaryOf_come hw hheld) rfl

end Sys2Proof.Machine
end

section
/-!
SUPPORT. Writes served at hub ingress (R198, R261 to R263, R330): a request inside one granule is one request; a write that is
one whole code word stores it; a refused write stores nothing.
-/

namespace Sys2Proof.Machine

section Ingress

variable {s : State} {rq r : Req} {right : Right} {ps : List (Nat × Nat)}

/-- A range inside one granule is not cut in two (R198). -/
theorem granules_inside {a n : Nat} (h : a % 512 + n ≤ 512) : (granules (n / 512 + 2) a n).length ≤ 1 := by
  have whole : min n (512 - a % 512) = n := by omega
  rw [granules, whole]
  split <;> simp [granules]

/-- A request's places are as many as the granules it covers, and as long. -/
theorem State.placesOf_lengths (h : s.placesOf r = some ps) :
    ps.map Prod.snd = (granules (r.len / 512 + 2) r.addr r.len).map Prod.snd := by
  unfold State.placesOf at h
  generalize granules (r.len / 512 + 2) r.addr r.len = gs at h ⊢
  induction gs generalizing ps with
  | nil => obtain rfl := Option.some.inj h; rfl
  | cons g gs ih =>
    obtain ⟨a, n⟩ := g
    simp only [List.foldr_cons] at h
    split at h
    next rest k _ hrest _ _ =>
      obtain rfl := Option.some.inj h
      simp [ih hrest]
    next => cases h

/-- A request that no host sends is what the hub sees (R290). -/
theorem State.route_eq (h : s.route rq = some r) (hnot : ∀ port vf, r.src ≠ .host port vf) : rq = r := by
  unfold State.route at h
  split at h
  next port vf hsrc =>
    obtain ⟨x, -, rfl⟩ := Option.map_eq_some_iff.mp h
    exact absurd hsrc (hnot port vf)
  next => exact Option.some.inj h

variable (write : Bool) (data : List Byte) (poisoned : Bool) (go : State → Req → List (Nat × Nat) → State)

/-- A request of one granule is not split (R198). -/
theorem State.ingress_unsplit (h : (granules (rq.len / 512 + 2) rq.addr rq.len).length ≤ 1) :
    s.ingress rq write right data poisoned go = s.ingress1 rq write right data poisoned go := by
  unfold State.ingress
  split
  next => rfl
  next => rfl
  next hnil hone =>
    rcases Nat.le_one_iff_eq_zero_or_eq_one.mp h with h0 | h1
    · exact absurd (List.length_eq_zero_iff.mp h0) hnil
    · obtain ⟨g, hg⟩ := List.length_eq_one_iff.mp h1
      exact absurd hg (hone g)

/-- A request that ingress admits is served at its places. -/
theorem State.ingress1_admitted (h : s.Admitted rq right r ps) :
    s.ingress1 rq write right data poisoned go = go s r ps := by
  obtain ⟨hopen, hroute, hreset, ht0, hplaces, hperm, hheld⟩ := h
  simp [State.ingress1, hopen, hroute, hreset, ht0, hplaces, hperm, hheld]

/-- A request at one place that ingress admits of a requester other than the host is served there. -/
theorem State.ingress_at {k n : Nat} (h : s.Admitted rq right r [(k, n)]) (hnot : ∀ port vf, r.src ≠ .host port vf) :
    s.ingress rq write right data poisoned go = go s r [(k, n)] := by
  have ⟨_, hroute, _, _, hplaces, _⟩ := h
  have single := congrArg List.length (State.placesOf_lengths hplaces)
  rw [State.ingress_unsplit, State.ingress1_admitted _ _ _ _ h]
  rw [State.route_eq hroute hnot]
  simpa using single.ge

variable (hopen : s.ingressOpen = true) (hroute : s.route rq = some r) (hreset : s.inReset r.part = false)
include hopen hroute hreset

/-- A request that the map does not admit is refused (R328, R330). -/
theorem State.ingress1_unpermitted (hplaces : s.placesOf r = some ps) (hperm : s.permitted r right = false) :
    s.ingress1 rq write right data poisoned go =
      (s.refusal r.part right (srcProt r.src) r.addr).refuseAnswer r write := by
  have ht0 : writesT0 r right = false := by
    have high : decide (r.addr < t0Size) = false := (Bool.or_eq_false_iff.mp hperm).1
    rw [writesT0, high, Bool.false_and]
  simp [State.ingress1, hopen, hroute, hreset, ht0, hplaces, hperm]

/-- A write of a tile's own tier-0 slice meets no memory (R188, R189). -/
theorem State.ingress1_own_slice (ht0 : writesT0 r right = true) :
    s.ingress1 rq write right data poisoned go =
      (s.windowMiss r.hub r.part right (srcProt r.src) r.addr).refuseAnswer r write := by
  simp [State.ingress1, hopen, hroute, hreset, ht0]

end Ingress

section Answers

variable (s : State)

/-- What a refused requester is answered leaves memory and its check bits. -/
theorem State.refuseAnswer_memory (rq : Req) (write : Bool) :
    (s.refuseAnswer rq write).mem = s.mem ∧ (s.refuseAnswer rq write).chk = s.chk := by
  unfold State.refuseAnswer State.suppress
  split <;> simp

/-- A served request changes nothing but the latency monitors of its account (R254). -/
theorem State.observeReq_eq (rq : Req) (ps : List (Nat × Nat)) : ∃ v, s.observeReq rq ps = s.withMons v := by
  unfold State.observeReq
  split
  next => exact ⟨s.mons, rfl⟩
  next =>
    split
    next => exact ⟨s.mons, rfl⟩
    next =>
      split
      · exact ⟨s.mons, rfl⟩
      · exact ⟨_, rfl⟩

end Answers

section WholeWords

/-- A code word is not empty. -/
theorem Cls.word_pos (c : Cls) : 0 < c.word := by cases c <;> decide

/-- A word without a difference in its check bits decodes clean, in every class (Table 10.2). -/
theorem Cls.decode_zero (c : Cls) : c.decode 0 = .clean := by cases c <;> decide

/-- Bytes that fill one code word from its beginning are one piece. -/
theorem chop_word {n k fuel : Nat} {bs : List Byte} (hk : k % n = 0) (hb : bs.length = n) (hn : 0 < n) :
    chop n (fuel + 2) k bs = [(k, 0, bs)] := by
  have hne : bs ≠ [] := List.length_pos_iff.mp (hb ▸ hn)
  simp [chop, hne, hk, hb, List.take_of_length_le, List.drop_of_length_le]

/-- Of bytes that are all poisoned, or none, a piece from their beginning is as they are. -/
theorem marked_all (b : Bool) (k : Nat) {n : Nat} (hn : 0 < n) : marked (if b then byteMask 0 n else 0) k k n = b := by
  have two : 2 ≤ 2 ^ n := Nat.le_self_pow hn.ne' 2
  cases b
  · simp [marked]
  · have low : (2 ^ n - 1) % 2 ^ n = 2 ^ n - 1 := Nat.mod_eq_of_lt (by omega)
    simp only [marked, byteMask, if_true, Nat.pow_zero, Nat.mul_one, Nat.sub_self, Nat.shiftRight_zero, low]
    exact bne_iff_ne.mpr (by omega)

variable (s : State) (w : Nat) (bs : List Byte) (poisoned : Bool)

/-- A code word stored whole, clean or with the poison mark of its class (R261, R263). -/
def State.storeWhole : State := if poisoned then s.storePoison w bs else s.storeClean w bs

/-- What a whole store leaves: the bytes, the mark, and no write-back of the old word. -/
theorem State.storeWhole_eq : s.storeWhole w bs poisoned =
    ((s.poke w bs).setDelta w (if poisoned then (s.cls w).poison else 0)).withWbq (s.wbq.filter (· != w)) := by
  cases poisoned <;> rfl

variable {s w bs} (hm : s.merge = []) (hw : w % (s.cls w).word = 0) (hb : bs.length = (s.cls w).word)
include hm hw hb

/-- A write of one whole code word, no merge entry open, stores it whole and is answered (R263). -/
theorem State.writePlace_whole (src p : Nat) :
    s.writePlace src p w bs poisoned = (s.storeWhole w bs poisoned).answer .ok [] := by
  have hpos : 0 < bs.length := hb ▸ (s.cls w).word_pos
  obtain ⟨n, hn⟩ := Nat.exists_eq_succ_of_ne_zero hpos.ne'
  have hchop : chop (s.cls w).word (bs.length + 1) w bs = [(w, 0, bs)] := hn ▸ chop_word hw hb (s.cls w).word_pos
  have hclose := State.closeBlock_of_no_entry (s := s.answer .none []) hm (w - w % 64)
  have hword : (s.answer .none []).writeWord src p w 0 bs poisoned = (s.storeWhole w bs poisoned).answer .ok [] := by
    rw [State.writeWord, if_pos ⟨rfl, hb⟩, hclose]
    cases poisoned <;> rfl
  simp only [State.writePlace, State.writeMarks, hchop, List.foldl_cons, List.foldl_nil, Nat.add_zero,
    marked_all poisoned w hpos, hword]
  rfl

/-- Served at ingress for a requester other than the host, it is observed besides. -/
theorem State.serveWrite_whole {rq : Req} (hnot : ∀ port vf, rq.src ≠ .host port vf) :
    s.serveWrite rq bs poisoned [(w, bs.length)] =
      ((s.storeWhole w bs poisoned).answer .ok []).observeReq rq [(w, bs.length)] := by
  have hplace := State.writePlace_whole (s := s.answer .none []) poisoned hm hw hb (srcRec rq.src) rq.part
  unfold State.serveWrite
  split
  next port vf hsrc => exact absurd hsrc (hnot port vf)
  next =>
    simp only [Bool.false_and, List.foldl_cons, List.foldl_nil, List.take_length, hplace]
    cases poisoned <;> rfl

end WholeWords

section Commands

variable {s : State} {rq r : Req} {data : List Byte} (poisoned : Bool) (hwf : rq.wf = true) (hd : data.length = rq.len)
include hwf hd

/-- The command is the request at ingress, its writes served there. -/
theorem exec_memoryWrite : exec (.memoryWrite rq data poisoned) s =
    .next ((s.ingress rq true .write data poisoned (fun t r ps => t.serveWrite r data poisoned ps)).withQueue s.pending) := by
  change execMemoryWrite rq data poisoned s = _
  simp [execMemoryWrite, ok, hwf, hd]

/-- An admitted write of one whole code word, no merge entry open (R263). -/
theorem exec_memoryWrite_whole {k : Nat} (hadm : s.Admitted rq .write r [(k, data.length)]) (hm : s.merge = [])
    (hnot : ∀ port vf, r.src ≠ .host port vf) (hk : k % (s.cls k).word = 0) (hlen : data.length = (s.cls k).word) :
    ∃ v, exec (.memoryWrite rq data poisoned) s =
      .next (((s.storeWhole k data poisoned).answer .ok []).withMons v) := by
  obtain ⟨v, hobs⟩ := State.observeReq_eq ((s.storeWhole k data poisoned).answer .ok []) r [(k, data.length)]
  refine ⟨v, ?_⟩
  rw [exec_memoryWrite poisoned hwf hd, State.ingress_at _ _ _ _ hadm hnot, State.serveWrite_whole poisoned hm hk hlen hnot,
    hobs, State.storeWhole_eq]
  rfl

end Commands

/-- Settles O35: an admitted whole write is one store of its code word, and a refused one only sets the refusal. -/
theorem wholeWritesStoreTheirWord : Obligations.WholeWritesStoreTheirWord := by
  unfold Obligations.WholeWritesStoreTheirWord
  intro s rq r k data poisoned hwf hd
  refine ⟨fun hadm hm hnot hk hlen => ?_, fun hinside hopen hroute hreset => ?_⟩
  · obtain ⟨v, hexec⟩ := exec_memoryWrite_whole poisoned hwf hd hadm hm hnot hk hlen
    rw [State.storeWhole_eq] at hexec
    refine ⟨_, hexec, rfl, readBytes_writeBytes s.mem k data, Tbl.get_put_same .., ?_, ?_,
      fun a ha => readByte_writeBytes_out s.mem ha, rfl⟩
    · rintro rfl
      exact (congrArg _ (Tbl.get_put_same ..)).trans (Cls.decode_zero _)
    · simp
  · rw [exec_memoryWrite poisoned hwf hd, State.ingress_unsplit _ _ _ _ (granules_inside hinside)]
    refine ⟨fun ps hplaces hperm => ?_, fun hlow => ?_⟩
    · rw [State.ingress1_unpermitted _ _ _ _ hopen hroute hreset hplaces hperm]
      obtain ⟨hmem, hchk⟩ := State.refuseAnswer_memory (s.refusal r.part .write (srcProt r.src) r.addr) r true
      exact ⟨_, rfl, by simpa using hmem, by simpa using hchk, rfl⟩
    · rw [State.ingress1_own_slice _ _ _ _ hopen hroute hreset (by simp [writesT0, hlow])]
      obtain ⟨hmem, hchk⟩ := State.refuseAnswer_memory (s.windowMiss r.hub r.part .write (srcProt r.src) r.addr) r true
      exact ⟨_, rfl, by simpa using hmem, by simpa using hchk, rfl⟩
end Sys2Proof.Machine
end

section
/-!
SUPPORT. The class of a word that meets an error (R261, R266, R271, R273): the record that it makes advances ERR_Q_PROD before
the word takes its mark. With the largest K that HUB_WIN_CTL holds a window's indices run past the channel list (R196) into the
hub's later registers, so that the record can put a protected channel into a computable window, where a word holds no mark.
-/

namespace Sys2Proof.Machine

/-- Window 0 of hub 0 is computable and takes 2^13 entries of the channel list: entry 5,132 lies at ERR_Q_PROD, where one record
has been stored. The check bits of channel 2's first word differ by `d`. -/
def listAtRecords (d : Nat) : State :=
  { ((((State.reset.fset HUB_WIN_CTL.VALID 0 0 1).fset HUB_WIN_CTL.CLASS 0 0 1).fset HUB_WIN_CTL.K 0 0 13).fset
      ERR_Q_PROD.PROD 0 0 1) with
    chk := [(t1At 2 0, d)] }

/-- Channel 2's first word is off by one check bit and the tally of its class stands at 64. Hub 1's window 0 holds the channel,
and the map admits every request of partition 0. -/
def overflowing : State :=
  { (((((listAtRecords 1).fset HUB_WIN_CTL.VALID 1 0 1).fset HUB_WIN_BASE.BASE 1 0 0x80000).fset HUB_WIN_SIZE.SIZE 1 0 1).fset
      HUB_CHLIST.CHANNEL 1 0 2).fsetAt ERR_TALLY.T0 0 0 8 64 with
    prot := [(0, { valid := true, part := 0, rights := 15, src := 31, base := 0, size := 2 ^ 64 })] }

/-- A request of tile 0 at hub 1 for the first byte of the window. -/
def firstByte : Req := ⟨.tile 0 0, 1, 0, 0x10000000000, 1, 0, 0⟩

/-- Hub ingress admits the write at channel 2's first word, a word of a protected channel that is not bad and does not merge. -/
theorem firstByte_admitted : overflowing.Admitted firstByte .write firstByte [(t1At 2 0, 1)] ∧
    overflowing.cls (t1At 2 0) = .t1p ∧ overflowing.merges (overflowing.whereIs (t1At 2 0)).1 .t1p = false ∧
    overflowing.bad (t1At 2 0) = false := by
  decide +kernel

/-- The correction overflows the tally (R266), and the poisoned byte leaves no mark. -/
theorem firstByte_unmarked : (match exec (.partialWrite firstByte [7] true) overflowing with
    | .next t => t.delta (t1At 2 0)
    | _ => rsPoison) = 0 := by
  decide +kernel

/-- Refutes O36: the record of a correction that a partial write makes can change the class of its word, which then takes no
poison mark. -/
theorem not_partialWritesTakeTheirClassPath : ¬ Obligations.PartialWritesTakeTheirClassPath := by
  unfold Obligations.PartialWritesTakeTheirClassPath
  intro h
  obtain ⟨hadmitted, hclass, hmerges, hbad⟩ := firstByte_admitted
  have hword : t1At 2 0 - t1At 2 0 % Cls.t1p.word = t1At 2 0 := by decide
  have hpaths := h overflowing firstByte firstByte (t1At 2 0) [7] true (by decide) rfl hadmitted (by simp [firstByte]) (by simp)
  rw [hclass, hword] at hpaths
  obtain ⟨hlands, -, -⟩ := hpaths (by decide) (by decide) (by simp [overflowing, listAtRecords, State.reset])
  obtain ⟨t, he, -, -, hmark, -⟩ := hlands (.inr ⟨hmerges, hbad⟩)
  have hunmarked := firstByte_unmarked
  rw [he] at hunmarked
  exact absurd ((hmark rfl (by decide) (by decide)).symm.trans hunmarked) (by decide)

section Scrub

variable {s t : State} {h m k : Nat}

/-- A scrub that stands in one of its memory's units reads there next. -/
theorem nextScrub_inside {us : List Nat} {b bytes : Nat} (hb : b ∈ us) (hlo : b ≤ k) (hhi : k < b + bytes) :
    nextScrub us bytes k = some k :=
  if_pos (List.any_eq_true.mpr ⟨b, hb, by simp [hlo, hhi]⟩)

/-- The protected channels of a hub are units of its scrub. -/
theorem State.protected_mem_scrubUnits {c : Nat} (hc : hubOfChan c = h) (hp : s.chanComputable c = false) :
    t1At c 0 ∈ (s.scrubUnits h 1).1 := by
  unfold hubOfChan at hc
  refine List.mem_map.mpr ⟨c, List.mem_filter.mpr ⟨List.mem_map.mpr ⟨c % 192, ?_, by omega⟩, by simp [hp]⟩, rfl⟩
  exact List.mem_range.mpr (Nat.mod_lt _ (by decide))

/-- Where a scrub goes on to is no matter of check bits. -/
theorem State.scrubTo_chk (us : List Nat) (bytes : Nat) : (s.scrubTo h m us bytes k).chk = s.chk := by
  unfold State.scrubTo
  dsimp only
  split_ifs <;> simp

variable (hh : h < 4) (hm : m < 4) (hen : s.fget ERR_SCRUB_CTL.EN h 0 ≠ 0) (hopen : s.ingressOpen = true)
  {us : List Nat} {bytes : Nat} (hus : (s.scrubUnits h m).1 = us) (hbytes : (s.scrubUnits h m).2 * scrubStride m = bytes)
  (hnext : nextScrub us bytes (Tbl.get 0 s.scrub (scrubKey h m)) = some k) (hdue : s.due (h * 16 + 6 + m) 0 = true)
include hh hm hen hopen hus hbytes hnext hdue

/-- A scrub of a correcting memory that is on and due reads its next word and goes on (R271). -/
theorem exec_patrolScrub_word :
    exec (.patrolScrub h m []) s =
      .next ((((s.scrubWord k).scrubTo h m us bytes (k + scrubStride m)).withTicks (Tbl.put 0 (s.scrubWord k).ticks
        (h * 16 + 6 + m) ((s.scrubWord k).time + s.scrubTime h m k (scrubStride m) (bytes * us.length)))).withQueue
        s.pending) := by
  have hub : hubOk h = true := decide_eq_true hh
  have hmeet : s.meet 10 [] = s := rfl
  have hread : s.scrubRead m k = some (s.scrubWord k, k + scrubStride m) := if_pos hm
  have hfive : m < 5 := by omega
  change execPatrolScrub h m [] s = _
  simp [execPatrolScrub, ok, hub, hfive, hmeet, hen, hopen, hus, hbytes, hnext, hdue, hread]

/-- The check bits it leaves are those that the read of that word leaves. -/
theorem patrolScrub_word_delta (he : exec (.patrolScrub h m []) s = .next t) (w : Nat) : t.delta w = (s.scrubWord k).delta w := by
  obtain rfl := Host.Outcome.next.inj (he.symm.trans (exec_patrolScrub_word hh hm hen hopen hus hbytes hnext hdue))
  simp [State.delta, State.scrubTo_chk]

end Scrub

/-- Channel 2's first word is uncorrectable, and the scrub of hub 0's protected channels, which is on and due, stands there. -/
def scrubbing : State :=
  { (listAtRecords 0x101).fset ERR_SCRUB_CTL.EN 0 0 1 with scrub := [(scrubKey 0 1, t1At 2 0)] }

/-- The word reads uncorrectable as one of a protected channel. -/
theorem scrubbing_ue : scrubbing.verd (t1At 2 0) = .ue ∧ scrubbing.chanComputable 2 = false ∧ scrubbing.cls (t1At 2 0) = .t1p := by
  decide +kernel

/-- The scrub's own record of it leaves the word without the mark. -/
theorem scrubbing_unmarked : (scrubbing.scrubWord (t1At 2 0)).delta (t1At 2 0) = 0x101 := by
  decide +kernel

/-- Refutes O44: the record that the scrub makes of an uncorrectable word can change the word's class, which then takes no
poison mark. -/
theorem not_scrubReadsAndTheLogGrows : ¬ Obligations.ScrubReadsAndTheLogGrows := by
  unfold Obligations.ScrubReadsAndTheLogGrows
  intro h
  obtain ⟨hue, hprotected, hclass⟩ := scrubbing_ue
  have hnext := nextScrub_inside (State.protected_mem_scrubUnits (h := 0) rfl hprotected) le_rfl
    (by decide : t1At 2 0 < t1At 2 0 + chanSize / 64 * scrubStride 1)
  have hdue : scrubbing.due (0 * 16 + 6 + 1) 0 = true := by decide
  obtain ⟨-, hwords, -⟩ := h scrubbing 0 (by decide)
  obtain ⟨-, -, hmarks⟩ := hwords 1 (t1At 2 0) (by decide) (by decide) rfl hnext (by simp [scrubbing, listAtRecords, State.reset])
  obtain ⟨t, he, -, hmark, -⟩ := hmarks hdue hue (by rw [hclass]; decide)
  have hkept := patrolScrub_word_delta (by decide) (by decide) (by decide) rfl rfl rfl hnext hdue he (t1At 2 0)
  rw [hclass] at hmark
  exact absurd (hmark.symm.trans (hkept.trans scrubbing_unmarked)) (by decide)

end Sys2Proof.Machine
end

section
/-!
SUPPORT. HIF_EVENT and the segment registers of a host port (R291): what an event and a write of a segment leave of the
others.
-/

namespace Sys2Proof.Machine

section Keys

variable {f g : Field} (u : Nat) {i j : Nat}

/-- Fields of two registers of an array have two keys. -/
theorem Field.key_ne_of_index (hb : f.blk = g.blk) (ho : f.off = g.off) (hs : f.stride = g.stride) (hp : 0 < f.stride)
    (hf : f.lo < 64) (hg : g.lo < 64) (hij : i ≠ j) : f.key u i ≠ g.key u j := by
  intro e
  have addrs : f.addr u i = g.addr u j := by
    rw [← Field.key_div (sh := 0) hf, ← Field.key_div (sh := 0) hg]
    exact congrArg (· / 64) e
  rw [Field.addr, Field.addr, ← hb, ← ho, ← hs] at addrs
  exact hij (Nat.eq_of_mul_eq_mul_right hp (Nat.add_left_cancel addrs))

/-- A field of an array that begins above a lone register has another key than a field of that one. -/
theorem Field.key_ne_of_below (hb : f.blk = g.blk) (hs : f.stride = 0) (ho : f.off < g.off) (hf : f.lo < 64) :
    g.key u j ≠ f.key u i := by
  simp only [Field.key, Field.addr, hb, hs]
  omega

end Keys

section Segments

variable (s : State) (port : Nat)

/-- An event field of one bit is set once its event has come. -/
theorem State.fget_evt_one {f : Field} (hw : f.w = 1) (u i : Nat) (p : Option Nat) : (s.evt f u i 1 p).fget f u i = 1 := by
  rw [State.fget_evt_same, hw]
  exact Nat.mod_two_eq_one_iff_testBit_zero.mpr (by simp)

/-- The bases that a segment may have (R291). -/
theorem segBaseOk_iff (b : Nat) : segBaseOk b = true ↔ 0x100 ≤ b ∧ b < 0x2B0 ∨ b = 0x300 := by
  simp [segBaseOk]

/-- A refused write of a segment sets SEG_REFUSED. -/
theorem State.segRefused_event : (s.segRefused port).fget HIF_EVENT.SEG_REFUSED port 0 = 1 := s.fget_evt_one rfl ..

/-- A refused write leaves the port's registers above HIF_EVENT. -/
theorem State.fget_segRefused {g : Field} (hb : g.blk = .hif) (ho : 0x4 < g.off) (j : Nat) :
    (s.segRefused port).fget g port j = s.fget g port j :=
  State.fget_evt_ne s (Field.key_ne_of_below (f := HIF_EVENT.SEG_REFUSED) port hb.symm rfl ho (by decide))

/-- A refused write is in no memory. -/
theorem State.segRefused_mem : (s.segRefused port).mem = s.mem := by simp [State.segRefused]

end Segments

section Bar4

/-- The fields of segment `k` of a port set. -/
def State.setBar4 (s : State) (port k valid part base : Nat) : State :=
  ((s.fset HIF_BAR4_SEG.VALID port k valid).fset HIF_BAR4_SEG.PART port k part).fset HIF_BAR4_SEG.BASE port k base

variable (s : State) (port k valid part base : Nat)

/-- A segment holds what it was set to. -/
theorem State.setBar4_fields : (s.setBar4 port k valid part base).fget HIF_BAR4_SEG.VALID port k = valid % 2 ∧
    (s.setBar4 port k valid part base).fget HIF_BAR4_SEG.PART port k = part % 16 ∧
    (s.setBar4 port k valid part base).fget HIF_BAR4_SEG.BASE port k = base % 4096 := by
  refine ⟨?_, ?_, State.fget_fset_same ..⟩
  · rw [State.setBar4, State.fget_fset_lo (f := HIF_BAR4_SEG.BASE) (g := HIF_BAR4_SEG.VALID) _ rfl rfl rfl (by decide),
      State.fget_fset_lo (f := HIF_BAR4_SEG.PART) (g := HIF_BAR4_SEG.VALID) _ rfl rfl rfl (by decide), State.fget_fset_same]
    rfl
  · rw [State.setBar4, State.fget_fset_lo (f := HIF_BAR4_SEG.BASE) (g := HIF_BAR4_SEG.PART) _ rfl rfl rfl (by decide),
      State.fget_fset_same]
    rfl

/-- Setting a segment leaves a field at other keys than its three. -/
theorem State.fget_setBar4_ne {g : Field} {u i : Nat} (hv : g.key u i ≠ HIF_BAR4_SEG.VALID.key port k)
    (hp : g.key u i ≠ HIF_BAR4_SEG.PART.key port k) (hb : g.key u i ≠ HIF_BAR4_SEG.BASE.key port k) :
    (s.setBar4 port k valid part base).fget g u i = s.fget g u i := by
  rw [State.setBar4, State.fget_fset_ne _ hb, State.fget_fset_ne _ hp, State.fget_fset_ne _ hv]

variable {k}

/-- Setting a segment leaves the port's others. -/
theorem State.fget_setBar4_index {g : Field} (hb : g.blk = .hif) (ho : g.off = 0x100) (hs : g.stride = 8) (hl : g.lo < 64)
    {i : Nat} (hi : i ≠ k) : (s.setBar4 port k valid part base).fget g port i = s.fget g port i := by
  have apart {f : Field} (hfb : f.blk = .hif) (hfo : f.off = 0x100) (hfs : f.stride = 8) (hfl : f.lo < 64) :
      g.key port i ≠ f.key port k :=
    Field.key_ne_of_index port (hb.trans hfb.symm) (ho.trans hfo.symm) (hs.trans hfs.symm) (by omega) hl hfl hi
  exact s.fget_setBar4_ne port k valid part base (apart rfl rfl rfl (by decide)) (apart rfl rfl rfl (by decide))
    (apart rfl rfl rfl (by decide))

variable {who : Accessor} (hw : who.wf = true) (hp : port < 2) (hk : k < 16) (v : Nat)
include hw hp hk

/-- The command's meaning for operands that name a segment. -/
theorem exec_bar4SegWrite : exec (.bar4SegWrite who port k v) s = ok true s
    (if !s.reaches who HIF_BAR4_SEG.VALID port k then s
     else if !segBaseOk (v / 2 ^ 32 % 2 ^ 12) then s.segRefused port
     else s.setBar4 port k v (v / 2) (v / 2 ^ 32)) := by
  change ok (who.wf && decide (port < 2) && decide (k < 16)) s _ = _
  rw [hw, decide_eq_true hp, decide_eq_true hk]
  rfl

/-- Who does not reach the segment changes nothing. -/
theorem exec_bar4SegWrite_unreached (h : s.reaches who HIF_BAR4_SEG.VALID port k = false) :
    exec (.bar4SegWrite who port k v) s = .next s := by
  rw [exec_bar4SegWrite s port hw hp hk, h]
  rfl

variable (h : s.reaches who HIF_BAR4_SEG.VALID port k = true)
include h

/-- A base in range is taken with the other fields. -/
theorem exec_bar4SegWrite_taken (hb : segBaseOk (v / 2 ^ 32 % 2 ^ 12) = true) :
    exec (.bar4SegWrite who port k v) s = .next (s.setBar4 port k v (v / 2) (v / 2 ^ 32)) := by
  rw [exec_bar4SegWrite s port hw hp hk, h, hb]
  rfl

/-- A base out of range is refused. -/
theorem exec_bar4SegWrite_refused (hb : segBaseOk (v / 2 ^ 32 % 2 ^ 12) = false) :
    exec (.bar4SegWrite who port k v) s = .next (s.segRefused port) := by
  rw [exec_bar4SegWrite s port hw hp hk, h, hb]
  exact ok_of_pending (by simp [State.segRefused])

end Bar4

section Vf

/-- The fields of VF `k`'s segment set. -/
def State.setVfSeg (s : State) (port k valid base : Nat) : State :=
  (s.fset HIF_VF_SEG.VALID port k valid).fset HIF_VF_SEG.BASE port k base

variable (s : State) (port k valid base : Nat)

/-- A VF's segment holds what it was set to. -/
theorem State.setVfSeg_fields : (s.setVfSeg port k valid base).fget HIF_VF_SEG.VALID port k = valid % 2 ∧
    (s.setVfSeg port k valid base).fget HIF_VF_SEG.BASE port k = base % 4096 := by
  refine ⟨?_, State.fget_fset_same ..⟩
  rw [State.setVfSeg, State.fget_fset_lo (f := HIF_VF_SEG.BASE) (g := HIF_VF_SEG.VALID) _ rfl rfl rfl (by decide),
    State.fget_fset_same]
  rfl

variable {k}

/-- Setting a VF's segment leaves the bases of the port's others. -/
theorem State.fget_setVfSeg_index {i : Nat} (hi : i ≠ k) :
    (s.setVfSeg port k valid base).fget HIF_VF_SEG.BASE port i = s.fget HIF_VF_SEG.BASE port i := by
  have apart {f : Field} (hb : f.blk = .hif) (ho : f.off = 0x300) (hs : f.stride = 8) (hl : f.lo < 64) :
      HIF_VF_SEG.BASE.key port i ≠ f.key port k :=
    Field.key_ne_of_index port hb.symm ho.symm hs.symm (by decide) (by decide) hl hi
  rw [State.setVfSeg, State.fget_fset_ne _ (apart rfl rfl rfl (by decide)),
    State.fget_fset_ne _ (apart rfl rfl rfl (by decide))]

variable {who : Accessor} (hw : who.wf = true) (hp : port < 2) (h1 : 1 ≤ k) (hk : k ≤ 16) (v : Nat)
include hw hp h1 hk

/-- The command's meaning for operands that name a VF's segment. -/
theorem exec_vfSegWrite : exec (.vfSegWrite who port k v) s = ok true s
    (if !s.privileged who || !s.reaches who HIF_VF_SEG.VALID port k then s
     else if !segBaseOk (v / 2 ^ 32 % 2 ^ 12) then s.segRefused port
     else s.setVfSeg port k v (v / 2 ^ 32)) := by
  change ok (who.wf && decide (port < 2) && decide (1 ≤ k) && decide (k ≤ 16)) s _ = _
  rw [hw, decide_eq_true hp, decide_eq_true h1, decide_eq_true hk]
  rfl

/-- Who has no privilege, or does not reach the segment, changes nothing. -/
theorem exec_vfSegWrite_denied (h : s.privileged who = false ∨ s.reaches who HIF_VF_SEG.VALID port k = false) :
    exec (.vfSegWrite who port k v) s = .next s := by
  have test : (!s.privileged who || !s.reaches who HIF_VF_SEG.VALID port k) = true := by
    rcases h with h | h <;> simp [h]
  rw [exec_vfSegWrite s port hw hp h1 hk, test]
  rfl

variable (hpriv : s.privileged who = true) (h : s.reaches who HIF_VF_SEG.VALID port k = true)
include hpriv h

/-- A base in range is taken with VALID. -/
theorem exec_vfSegWrite_taken (hb : segBaseOk (v / 2 ^ 32 % 2 ^ 12) = true) :
    exec (.vfSegWrite who port k v) s = .next (s.setVfSeg port k v (v / 2 ^ 32)) := by
  rw [exec_vfSegWrite s port hw hp h1 hk, hpriv, h, hb]
  rfl

/-- A base out of range is refused. -/
theorem exec_vfSegWrite_refused (hb : segBaseOk (v / 2 ^ 32 % 2 ^ 12) = false) :
    exec (.vfSegWrite who port k v) s = .next (s.segRefused port) := by
  rw [exec_vfSegWrite s port hw hp h1 hk, hpriv, h, hb]
  exact ok_of_pending (by simp [State.segRefused])

end Vf

/-- Settles O45: by whether the base lies in range, for each of the two commands. -/
theorem segmentsMoveOnlyToTheirRanges : Obligations.SegmentsMoveOnlyToTheirRanges := by
  unfold Obligations.SegmentsMoveOnlyToTheirRanges
  intro s who port k v hw hp b inRange
  have taken (h : inRange) : segBaseOk (v / 2 ^ 32 % 2 ^ 12) = true := (segBaseOk_iff _).mpr h
  have refused (h : ¬inRange) : segBaseOk (v / 2 ^ 32 % 2 ^ 12) = false :=
    Bool.eq_false_iff.mpr fun e => h ((segBaseOk_iff _).mp e)
  have event := s.segRefused_event port
  have mem := s.segRefused_mem port
  have kept {g : Field} (hb : g.blk = .hif) (ho : 0x4 < g.off) := s.fget_segRefused port hb ho k
  refine ⟨fun hk => ⟨exec_bar4SegWrite_unreached s port hw hp hk v, fun h => ⟨fun hb => ?bar4Taken, fun hb => ?bar4Refused⟩⟩,
    fun h1 hk => ⟨exec_vfSegWrite_denied s port hw hp h1 hk v, fun hpriv h => ⟨fun hb => ?vfTaken, fun hb => ?vfRefused⟩⟩⟩
  case bar4Taken =>
    obtain ⟨valid, part, base⟩ := s.setBar4_fields port k v (v / 2) (v / 2 ^ 32)
    exact ⟨_, exec_bar4SegWrite_taken s port hw hp hk v h (taken hb), valid, part, base, rfl, fun i _ hi =>
      ⟨s.fget_setBar4_index port _ _ _ rfl rfl rfl (by decide) hi, s.fget_setBar4_index port _ _ _ rfl rfl rfl (by decide) hi⟩⟩
  case bar4Refused =>
    exact ⟨_, exec_bar4SegWrite_refused s port hw hp hk v h (refused hb), event, kept rfl (by decide), kept rfl (by decide),
      kept rfl (by decide), mem⟩
  case vfTaken =>
    obtain ⟨valid, base⟩ := s.setVfSeg_fields port k v (v / 2 ^ 32)
    exact ⟨_, exec_vfSegWrite_taken s port hw hp h1 hk v hpriv h (taken hb), valid, base, rfl,
      fun i _ hi => s.fget_setVfSeg_index port _ _ hi⟩
  case vfRefused =>
    exact ⟨_, exec_vfSegWrite_refused s port hw hp h1 hk v hpriv h (refused hb), event, kept rfl (by decide),
      kept rfl (by decide), mem⟩

end Sys2Proof.Machine
end

section
/-!
SUPPORT. The doorbells (R288, R301, R314): a discarded one, one that moves a deck's index, and what each leaves.
-/

namespace Sys2Proof.Machine

section Decks

variable (s : State) (d : Nat)

/-- A deck changed, and the others as they were. -/
theorem State.deck_onDeck (f : Deck → Deck) (k : Nat) : (s.onDeck d f).deck k = if k = d then f (s.deck d) else s.deck k := by
  simp only [State.deck, State.onDeck_decks, Tbl.upd, Tbl.get_put]

/-- A deck reads the same in two states with the same decks. -/
theorem State.deck_congr {s t : State} (h : t.decks = s.decks) (k : Nat) : t.deck k = s.deck k := by
  simp [State.deck, h]

/-- An entry into Idle or Standby abandoned leaves the decks, their commands, memory and the queue. -/
theorem State.abandonEntry_frame : s.abandonEntry.decks = s.decks ∧ s.abandonEntry.execs = s.execs ∧
    s.abandonEntry.mem = s.mem ∧ s.abandonEntry.pending = s.pending := by
  have kept := State.abandonEntry_keeps (within_opened _ s) s (.refl _ s)
  obtain ⟨decks, execs, -⟩ := kept .decks (by decide)
  obtain ⟨mem, -⟩ := kept .memory (by decide)
  exact ⟨decks.symm, execs.symm, mem.symm, State.abandonEntry_keeps (State.queueIs_opened _ _) s rfl⟩

/-- A discarded doorbell sets its event, and leaves the decks, memory and the queue (R301). -/
theorem State.dbDiscard_spec (port : Nat) : (s.dbDiscard port).fget HIF_EVENT.DB_DISCARD port 0 = 1 ∧
    (s.dbDiscard port).decks = s.decks ∧ (s.dbDiscard port).mem = s.mem ∧ (s.dbDiscard port).pending = s.pending :=
  ⟨s.fget_evt_one rfl .., by simp [State.dbDiscard], by simp [State.dbDiscard], by simp [State.dbDiscard]⟩

end Decks

section Doorbell

/-- Deck `d` with its doorbell at index `i`. -/
def State.ring (s : State) (d i : Nat) : State :=
  s.abandonEntry.onDeck d (fun c => { c with doorbell := i, remembered := c.state == 1 })

/-- A doorbell that rings at its deck, for which no active deck may be parkable (R302). -/
def State.ringFull (s : State) (d i : Nat) : State :=
  if (s.deck d).state = 1 ∧ s.activeCount ≥ 4096 ∧ s.decks.any (fun (x, c) => c.state == 2 && s.deckIdle x) = false
  then (s.ring d i).evt DECK_EVENT.ACTIVE_FULL d 0 1 none else s.ring d i

/-- Beside its deck, a doorbell leaves memory, the commands in execution and the queue. -/
theorem State.ringFull_frame (s : State) (d i : Nat) : (s.ringFull d i).decks = (s.ring d i).decks ∧
    (s.ringFull d i).mem = s.mem ∧ (s.ringFull d i).execs = s.execs ∧ (s.ringFull d i).pending = s.pending := by
  obtain ⟨-, execs, mem, pending⟩ := s.abandonEntry_frame
  unfold State.ringFull
  split
  · simp [State.ring, execs, mem, pending]
  · simp [State.ring, execs, mem, pending]

/-- A doorbell is the deck's, and no other's. -/
theorem State.deck_ringFull (s : State) (d i k : Nat) : (s.ringFull d i).deck k =
    if k = d then { s.deck d with doorbell := i, remembered := (s.deck d).state == 1 } else s.deck k := by
  obtain ⟨decks, -⟩ := s.abandonEntry_frame
  have same := State.deck_congr decks
  rw [State.deck_congr (s.ringFull_frame d i).1, State.ring, State.deck_onDeck, same, same]

variable (s : State) {fn port : Nat} (hf : fn ≤ 17) (hp : port < 2) (off n v : Nat)
include hf hp

/-- The command's meaning for operands that name a function and a port. -/
theorem exec_deckDoorbell : exec (.deckDoorbell fn port off n v) s = ok true s
    (match s.dbDeck fn off n 0 with
     | none => s.dbDiscard port
     | some d => if v % 65536 ≥ (s.deckRing d).2 then s.dbDiscard port else s.ringFull d (v % 65536)) := by
  change ok (decide (fn ≤ 17) && decide (port < 2)) s _ = _
  rw [decide_eq_true hf, decide_eq_true hp]
  rfl

/-- A doorbell for no deck is discarded. -/
theorem exec_deckDoorbell_none (h : s.dbDeck fn off n 0 = none) :
    exec (.deckDoorbell fn port off n v) s = .next (s.dbDiscard port) := by
  obtain ⟨-, -, -, pending⟩ := s.dbDiscard_spec port
  rw [exec_deckDoorbell s hf hp, h]
  exact ok_of_pending pending

variable {d : Nat} (h : s.dbDeck fn off n 0 = some d)
include h

/-- A doorbell with an index outside the ring is discarded. -/
theorem exec_deckDoorbell_outside (hv : (s.deckRing d).2 ≤ v % 65536) :
    exec (.deckDoorbell fn port off n v) s = .next (s.dbDiscard port) := by
  obtain ⟨-, -, -, pending⟩ := s.dbDiscard_spec port
  rw [exec_deckDoorbell s hf hp, h]
  dsimp only
  rw [if_pos hv]
  exact ok_of_pending pending

/-- A doorbell with an index in the ring rings. -/
theorem exec_deckDoorbell_inside (hv : v % 65536 < (s.deckRing d).2) :
    exec (.deckDoorbell fn port off n v) s = .next (s.ringFull d (v % 65536)) := by
  obtain ⟨-, -, -, pending⟩ := s.ringFull_frame d (v % 65536)
  rw [exec_deckDoorbell s hf hp, h]
  dsimp only
  rw [if_neg (Nat.not_le.mpr hv)]
  exact ok_of_pending pending

end Doorbell

section Completions

/-- The number of completion records before the index `v`, modulo deck `d`'s ring (R314). -/
def State.cqDone (s : State) (d v : Nat) : Nat :=
  (s.deck d).cqProd - ((s.deck d).cqProd + (s.cqRing d).2 * 65536 - v % 65536) % (s.cqRing d).2

/-- A deck whose first `m` completion records are consumed. -/
def Deck.consumed (m : Nat) (c : Deck) : Deck :=
  { c with
    cqCons := m
    tsFree := ((c.tsMap.find? (fun x => x.1 == m - 1)).map Prod.snd).getD c.tsFree
    tsMap := c.tsMap.filter (fun x => decide (x.1 ≥ m)) }

variable (s : State) {fn port : Nat} (hf : fn ≤ 17) (hp : port < 2) (off n v : Nat)
include hf hp

/-- The command's meaning for operands that name a function and a port. -/
theorem exec_deckCqDoorbell : exec (.deckCqDoorbell fn port off n v) s = ok true s
    (match s.dbDeck fn off n 0x40 with
     | none => s.dbDiscard port
     | some d => if s.cqDone d v ≤ (s.deck d).cqCons then s else s.onDeck d (Deck.consumed (s.cqDone d v))) := by
  change ok (decide (fn ≤ 17) && decide (port < 2)) s _ = _
  rw [decide_eq_true hf, decide_eq_true hp]
  rfl

/-- A completion doorbell for no deck is discarded. -/
theorem exec_deckCqDoorbell_none (h : s.dbDeck fn off n 0x40 = none) :
    exec (.deckCqDoorbell fn port off n v) s = .next (s.dbDiscard port) := by
  obtain ⟨-, -, -, pending⟩ := s.dbDiscard_spec port
  rw [exec_deckCqDoorbell s hf hp, h]
  exact ok_of_pending pending

variable {d : Nat} (h : s.dbDeck fn off n 0x40 = some d)
include h

/-- A completion doorbell that consumes no more records changes nothing. -/
theorem exec_deckCqDoorbell_behind (hv : s.cqDone d v ≤ (s.deck d).cqCons) :
    exec (.deckCqDoorbell fn port off n v) s = .next s := by
  rw [exec_deckCqDoorbell s hf hp, h]
  dsimp only
  rw [if_pos hv]
  rfl

/-- A completion doorbell consumes the records before its index. -/
theorem exec_deckCqDoorbell_ahead (hv : (s.deck d).cqCons < s.cqDone d v) :
    exec (.deckCqDoorbell fn port off n v) s = .next (s.onDeck d (Deck.consumed (s.cqDone d v))) := by
  rw [exec_deckCqDoorbell s hf hp, h]
  dsimp only
  rw [if_neg (Nat.not_le.mpr hv)]
  rfl

end Completions

/-- Settles O13: by the deck that the doorbell finds, and by where its index lies. -/
theorem doorbellsMoveTheIndices : Obligations.DoorbellsMoveTheIndices := by
  unfold Obligations.DoorbellsMoveTheIndices
  intro s fn port off n v hf hp
  obtain ⟨event, decks, mem, -⟩ := s.dbDiscard_spec port
  refine ⟨fun h => ⟨_, exec_deckDoorbell_none s hf hp off n v h, event, decks, mem⟩, fun d h => ⟨fun hv => ?outside,
    fun hv => ?inside⟩, fun h => ⟨_, exec_deckCqDoorbell_none s hf hp off n v h, event, decks, mem⟩,
    fun d h => ⟨fun hv => ?ahead, exec_deckCqDoorbell_behind s hf hp off n v h⟩⟩
  case outside => exact ⟨_, exec_deckDoorbell_outside s hf hp off n v h hv, event, decks, mem⟩
  case inside =>
    obtain ⟨-, hmem, hexecs, -⟩ := s.ringFull_frame d (v % 65536)
    have deck := s.deck_ringFull d (v % 65536)
    exact ⟨_, exec_deckDoorbell_inside s hf hp off n v h hv, (deck d).trans (if_pos rfl),
      fun k hk => (deck k).trans (if_neg hk), hmem, hexecs⟩
  case ahead =>
    have deck := (s.deck_onDeck d (Deck.consumed (s.cqDone d v)) d).trans (if_pos rfl)
    refine ⟨_, exec_deckCqDoorbell_ahead s hf hp off n v h hv, ?_, ?_, rfl, rfl⟩
    · rw [deck]
      rfl
    · rw [deck]
      rfl

end Sys2Proof.Machine
end

section
/-!
SUPPORT. The host ports' links and their configuration requests (R283, R284, R285, R297, R402).
-/

namespace Sys2Proof.Machine

section Training

variable (s : State) {port : Nat} (hp : port < 2) {g w : Nat} (hg : g = 5 ∨ g = 6) (hw : w = 4 ∨ w = 8 ∨ w = 16)
include hp hg hw

/-- The command's meaning for operands that a partner can have. -/
theorem exec_hostLinkTraining : exec (.hostLinkTraining port g w) s = ok true s
    (if !s.hostTrains port || s.hostWidth port == 0 then s
     else s.withPkg { s.pkg with
       hostUp := s.pkg.hostUp.set port (min w (s.hostWidth port)), hostGen := s.pkg.hostGen.set port g }) := by
  have gen : (g == 5 || g == 6) = true := by simpa using hg
  have width : (w == 4 || w == 8 || w == 16) = true := by simpa [or_assoc] using hw
  change ok (decide (port < 2) && (g == 5 || g == 6) && (w == 4 || w == 8 || w == 16)) s _ = _
  rw [decide_eq_true hp, gen, width]
  rfl

/-- A port that may train and has a width comes up (R283). -/
theorem exec_hostLinkTraining_up (ht : s.hostTrains port = true) (h0 : s.hostWidth port ≠ 0) :
    exec (.hostLinkTraining port g w) s = .next (s.withPkg { s.pkg with
      hostUp := s.pkg.hostUp.set port (min w (s.hostWidth port)), hostGen := s.pkg.hostGen.set port g }) := by
  rw [exec_hostLinkTraining s hp hg hw, ht, beq_false_of_ne h0]
  rfl

/-- A port that may not train, or has no width, changes nothing. -/
theorem exec_hostLinkTraining_not (h : s.hostTrains port = false ∨ s.hostWidth port = 0) :
    exec (.hostLinkTraining port g w) s = .next s := by
  have test : (!s.hostTrains port || s.hostWidth port == 0) = true := by
    rcases h with h | h <;> simp [h]
  rw [exec_hostLinkTraining s hp hg hw, test]
  rfl

end Training

section Configuration

/-- The state once NumVFs of the port's PF0 is written (R285). -/
def State.setNumVfs (s : State) (port n : Nat) : State :=
  s.withPkg { s.pkg with numVfs := s.pkg.numVfs.set port (min n 16) }

variable (s : State) {port fn : Nat} (hp : port < 2) (hf : fn ≤ 17) (vfs : Option Nat)
include hp hf

/-- The command's meaning for a function of a port. -/
theorem exec_configRequest : exec (.configRequest port fn vfs) s = ok true s
    (if s.pkg.hostUp.getD port 0 = 0 then s
     else if !s.boot.mgmtUp then s.answer .retry []
     else if !s.fnThere port fn then s.answer .refused []
     else
       let s1 := match vfs with
         | some n => if fn = 0 then s.setNumVfs port n else s
         | none => s
       s1.answer .ok (s1.identity fn)) := by
  change ok (decide (port < 2) && decide (fn ≤ 17)) s _ = _
  rw [decide_eq_true hp, decide_eq_true hf]
  rfl

/-- On a link that is down nothing happens. -/
theorem exec_configRequest_down (h : s.pkg.hostUp.getD port 0 = 0) : exec (.configRequest port fn vfs) s = .next s := by
  rw [exec_configRequest s hp hf, if_pos h]
  rfl

variable (hup : s.pkg.hostUp.getD port 0 ≠ 0)
include hup

/-- A request before phase 3 has ended is retried (R402). -/
theorem exec_configRequest_early (hm : s.boot.mgmtUp = false) :
    exec (.configRequest port fn vfs) s = .next (s.answer .retry []) := by
  rw [exec_configRequest s hp hf, if_neg hup, hm]
  rfl

variable (hm : s.boot.mgmtUp = true)
include hm

/-- A request to a function that is not there is refused. -/
theorem exec_configRequest_absent (ht : s.fnThere port fn = false) :
    exec (.configRequest port fn vfs) s = .next (s.answer .refused []) := by
  rw [exec_configRequest s hp hf, if_neg hup, hm, ht]
  rfl

/-- A request that is no write of PF0's NumVFs is answered with the function's identity. -/
theorem exec_configRequest_identity (ht : s.fnThere port fn = true) (hv : vfs = none ∨ fn ≠ 0) :
    exec (.configRequest port fn vfs) s = .next (s.answer .ok (s.identity fn)) := by
  rw [exec_configRequest s hp hf, if_neg hup, hm, ht]
  cases vfs with
  | none => rfl
  | some n =>
    have other : fn ≠ 0 := hv.resolve_left (by simp)
    dsimp only
    rw [if_neg other]
    rfl

end Configuration

/-- A write of PF0's NumVFs is taken first. -/
theorem exec_configRequest_numVfs (s : State) {port : Nat} (hp : port < 2) (hup : s.pkg.hostUp.getD port 0 ≠ 0)
    (hm : s.boot.mgmtUp = true) (n : Nat) : exec (.configRequest port 0 (some n)) s =
    .next ((s.setNumVfs port n).answer .ok (s.identity 0)) := by
  have there : s.fnThere port 0 = true := rfl
  rw [exec_configRequest s hp (Nat.zero_le 17), if_neg hup, hm, there]
  rfl

section Down

/-- A read that ends by poison is in no data of memory, and leaves the package and the queue. -/
theorem State.hostPoison_frame (s : State) (r : HostRead) : (s.hostPoison r).mem = s.mem ∧ (s.hostPoison r).pkg = s.pkg ∧
    (s.hostPoison r).pending = s.pending := by
  have marked (t : State) (ws : List Nat) : (ws.foldl (fun t w => t.setDelta w 1) t).mem = t.mem :=
    foldl_same State.mem _ (fun u w => by simp) ws t
  refine ⟨?_, (State.hostPoison_keeps (within_opened _ s) s r (.refl _ s) .package (by decide)).symm,
    State.hostPoison_keeps (State.queueIs_opened _ _) s r rfl⟩
  simp [State.hostPoison, State.answer, marked]

/-- The outstanding reads of a port end (R292, R297). -/
def State.endReads (s : State) (port : Nat) : State :=
  (s.hostReads.filter (fun r => r.port == port)).foldl State.hostPoison s

/-- Reads that end leave what each leaves. -/
theorem State.endReads_frame (s : State) (port : Nat) : (s.endReads port).mem = s.mem ∧ (s.endReads port).pkg = s.pkg ∧
    (s.endReads port).pending = s.pending :=
  foldl_keeps (fun t : State => t.mem = s.mem ∧ t.pkg = s.pkg ∧ t.pending = s.pending) _
    (fun t r ⟨mem, pkg, pending⟩ => by
      obtain ⟨mem', pkg', pending'⟩ := t.hostPoison_frame r
      exact ⟨mem'.trans mem, pkg'.trans pkg, pending'.trans pending⟩) _ s ⟨rfl, rfl, rfl⟩

/-- With no read outstanding on the port none ends. -/
theorem State.endReads_none {s : State} {port : Nat} (h : ∀ r ∈ s.hostReads, r.port ≠ port) : s.endReads port = s := by
  have none : s.hostReads.filter (fun r => r.port == port) = [] := List.filter_eq_nil_iff.mpr fun r hr => by simp [h r hr]
  rw [State.endReads, none, List.foldl_nil]

/-- The port's link is down, which its event reports. -/
def State.dropLink (s : State) (port : Nat) : State :=
  (s.withPkg { s.pkg with hostUp := s.pkg.hostUp.set port 0, hostGen := s.pkg.hostGen.set port 0 }).evt
    HIF_EVENT.LINK_DOWN port 0 1 none

/-- What a link that goes down leaves. -/
theorem State.dropLink_frame (s : State) (port : Nat) : (s.dropLink port).pkg.hostUp = s.pkg.hostUp.set port 0 ∧
    (s.dropLink port).mem = s.mem ∧ (s.dropLink port).chk = s.chk ∧ (s.dropLink port).errQ = s.errQ ∧
    (s.dropLink port).rsp = s.rsp ∧ (s.dropLink port).pending = s.pending := by
  simp [State.dropLink]

/-- A link down ends the port's reads and takes the link down (R297). -/
theorem exec_hostLinkDown (s : State) {port : Nat} (hp : port < 2) :
    exec (.hostLinkDown port) s = .next ((s.endReads port).dropLink port) := by
  obtain ⟨-, -, reads⟩ := s.endReads_frame port
  obtain ⟨-, -, -, -, -, pending⟩ := (s.endReads port).dropLink_frame port
  change ok (decide (port < 2)) s ((s.endReads port).dropLink port) = _
  rw [decide_eq_true hp]
  exact ok_of_pending (pending.trans reads)

/-- PERST# deasserted is kept (R402). -/
theorem exec_perstDeassert (s : State) {port : Nat} (hp : port < 2) :
    exec (.perstDeassert port) s = .next (s.withPkg { s.pkg with perst := s.pkg.perst.set port false }) := by
  change ok (decide (port < 2)) s _ = _
  rw [decide_eq_true hp]
  rfl

/-- What a link that goes down reports, and what it leaves where no read is outstanding on the port. -/
theorem hostLinkDown_spec (s : State) {port : Nat} (hp : port < 2) :
    ∃ t, exec (.hostLinkDown port) s = .next t ∧ t.fget HIF_EVENT.LINK_DOWN port 0 = 1 ∧
      t.pkg.hostUp = s.pkg.hostUp.set port 0 ∧ t.mem = s.mem ∧
      ((∀ r ∈ s.hostReads, r.port ≠ port) → t.chk = s.chk ∧ t.errQ = s.errQ ∧ t.rsp = s.rsp) := by
  obtain ⟨mem, pkg, -⟩ := s.endReads_frame port
  obtain ⟨up, mem', chk, errQ, rsp, -⟩ := (s.endReads port).dropLink_frame port
  refine ⟨_, exec_hostLinkDown s hp, State.fget_evt_one _ rfl .., by rw [up, pkg], mem'.trans mem, fun h => ?_⟩
  rw [chk, errQ, rsp, State.endReads_none h]
  exact ⟨rfl, rfl, rfl⟩

end Down

end Sys2Proof.Machine
end

section
/-!
SUPPORT. Function-level resets (R297, R334, R338, R479): what the reset of a VF, of PF0 and of PF1 answers and leaves.
-/

namespace Sys2Proof.Machine

section Vf

variable {s : State} {p : Nat}

/-- An FLR that reaches a partition that is unused changes nothing. -/
theorem State.flrPart_unused (hs : (s.part p).stage = .none) (hu : s.partStatus p = 0) : s.flrPart p = s := by
  simp [State.flrPart, hs, hu]

/-- An FLR that reaches a partition in use starts its reset. -/
theorem State.flrPart_starts (hs : (s.part p).stage = .none) (hu : s.partStatus p ≠ 0) :
    s.flrPart p = s.startReset p true false false := by
  simp [State.flrPart, hs, hu]

variable {k : Nat} (h1 : 1 ≤ k) (hk : k ≤ 16)
include h1 hk

/-- An FLR of a VF with no partition bound changes nothing. -/
theorem exec_vfFlr_unbound (h : s.vfPart k = none) : exec (.vfFlr k) s = .next s := by
  change ok (decide (1 ≤ k) && decide (k ≤ 16)) s _ = _
  rw [decide_eq_true h1, decide_eq_true hk, h]
  rfl

/-- An FLR of a VF reaches the partition that is bound to it. -/
theorem exec_vfFlr_bound (h : s.vfPart k = some p) : exec (.vfFlr k) s = .next ((s.flrPart p).withQueue s.pending) := by
  change ok (decide (1 ≤ k) && decide (k ≤ 16)) s _ = _
  rw [decide_eq_true h1, decide_eq_true hk, h]
  rfl

end Vf

section Privilege

variable (s : State) (port v why : Nat)

/-- A port's privilege that takes a value leaves the registers below the hubs' but for that HIF_PRIV and what its record
writes (R479, R482). -/
theorem State.fget_setPriv1 {g : Field} {u i : Nat} (hlow : g.key u i < hubKeys)
    (hl : g.key u i ≠ MGMT_LOG_STATUS.LOST.key 0 0) (he : g.key u i ≠ MGMT_EVENT.CAUSE.key 0 0)
    (h : g.key u i ≠ HIF_PRIV.PRIV.key port 0) : (s.setPriv1 port v why).fget g u i = s.fget g u i := by
  unfold State.setPriv1
  split
  · rfl
  · rw [State.fget_mgmtRec _ _ _ _ hlow hl he, State.fget_fset_ne _ h]

/-- A port's privilege leaves memory, the partitions and the queue. -/
theorem State.setPriv1_frame : (s.setPriv1 port v why).mem = s.mem ∧ (s.setPriv1 port v why).parts = s.parts ∧
    (s.setPriv1 port v why).pending = s.pending := by
  have kept := State.setPriv1_keeps (within_opened _ s) s port v why (.refl _ s)
  obtain ⟨mem, -⟩ := kept .memory (by decide)
  obtain ⟨parts, -⟩ := kept .parts (by decide)
  exact ⟨mem.symm, parts.symm, State.setPriv1_keeps (State.queueIs_opened _ _) s port v why rfl⟩

variable {port}

/-- A register of the host interface of a port lies apart from what management's record writes. -/
theorem Field.hif_key {g : Field} (hb : g.blk = .hif) {i : Nat} (ha : g.off + i * g.stride < 0x1000) (hl : g.lo < 64)
    (hp : port < 2) : g.key port i < hubKeys ∧ g.key port i ≠ MGMT_LOG_STATUS.LOST.key 0 0 ∧
      g.key port i ≠ MGMT_EVENT.CAUSE.key 0 0 := by
  simp only [Field.key, Field.addr, hb, blkBase, hubKeys, MGMT_LOG_STATUS.LOST, MGMT_EVENT.CAUSE]
  omega

/-- A port's privilege holds what it was set to. -/
theorem State.setPriv1_priv (hp : port < 2) : (s.setPriv1 port v why).fget HIF_PRIV.PRIV port 0 = v % 2 := by
  unfold State.setPriv1
  split
  · assumption
  · obtain ⟨low, lost, cause⟩ := Field.hif_key (g := HIF_PRIV.PRIV) (i := 0) rfl (by decide) (by decide) hp
    rw [State.fget_mgmtRec _ _ _ _ low lost cause, State.fget_fset_same]
    rfl

end Privilege

section Cleared

/-- PF0's BAR4 segments of a port cleared (R297). -/
def State.clearBar4 (s : State) (port : Nat) : State := (List.range 16).foldl (fun t k => t.setBar4 port k 0 0 0) s

variable (s : State) (port : Nat)

/-- Cleared segments leave memory, the partitions and the queue. -/
theorem State.clearBar4_frame : (s.clearBar4 port).mem = s.mem ∧ (s.clearBar4 port).parts = s.parts ∧
    (s.clearBar4 port).pending = s.pending := by
  unfold State.clearBar4
  exact foldl_keeps (fun t : State => t.mem = s.mem ∧ t.parts = s.parts ∧ t.pending = s.pending) _
    (fun t k ht => by simpa [State.setBar4] using ht) _ s ⟨rfl, rfl, rfl⟩

/-- Cleared segments leave the registers outside their array. -/
theorem State.fget_clearBar4 {g : Field} {u i : Nat} (hl : g.lo < 64)
    (ha : g.addr u i < 0x10100 + port * 0x1000 ∨ 0x10180 + port * 0x1000 ≤ g.addr u i) :
    (s.clearBar4 port).fget g u i = s.fget g u i := by
  refine foldl_keeps_mem (fun t : State => t.fget g u i = s.fget g u i) _ _ (fun t k hk ht => ?_) s rfl
  have inside := List.mem_range.mp hk
  have apart {f : Field} (hb : f.blk = .hif) (ho : f.off = 0x100) (hs : f.stride = 8) (hf : f.lo < 64) :
      g.key u i ≠ f.key port k := by
    have place : f.addr port k = 0x10000 + port * 0x1000 + 0x100 + k * 8 := by
      rw [Field.addr, hb, ho, hs]
      rfl
    rw [Field.key, Field.key, place]
    omega
  exact (t.fget_setBar4_ne port k 0 0 0 (apart rfl rfl rfl (by decide)) (apart rfl rfl rfl (by decide))
    (apart rfl rfl rfl (by decide))).trans ht

/-- Every segment of the port is cleared. -/
theorem State.clearBar4_cleared {i : Nat} (hi : i < 16) : (s.clearBar4 port).fget HIF_BAR4_SEG.VALID port i = 0 ∧
    (s.clearBar4 port).fget HIF_BAR4_SEG.BASE port i = 0 := by
  refine foldl_reaches (Q := fun i t => State.fget t HIF_BAR4_SEG.VALID port i = 0 ∧ State.fget t HIF_BAR4_SEG.BASE port i = 0)
    (fun t k _ => ?_) (fun t k _ i _ ⟨valid, base⟩ => ?_) s i (List.mem_range.mpr hi)
  · obtain ⟨valid, -, base⟩ := t.setBar4_fields port k 0 0 0
    exact ⟨valid, base⟩
  · by_cases e : i = k
    · subst e
      obtain ⟨valid, -, base⟩ := t.setBar4_fields port i 0 0 0
      exact ⟨valid, base⟩
    · rw [t.fget_setBar4_index port 0 0 0 rfl rfl rfl (by decide) e, t.fget_setBar4_index port 0 0 0 rfl rfl rfl (by decide) e]
      exact ⟨valid, base⟩

end Cleared

section Pf0

/-- PART_STATUS of a partition as a field of its own. -/
def statusField (p : Nat) : Field := { PART_STATUS.STATE0 with lo := 2 * p }

/-- A partition's status is what its field holds. -/
theorem State.partStatus_eq (s : State) (p : Nat) : s.partStatus p = s.fget (statusField p) 0 0 := by
  simp [State.partStatus, State.fgetAt, State.fget, Field.key, Field.addr, statusField, PART_STATUS.STATE0]

/-- A port's PF0 loses its privilege and its segments (R297, R479). -/
def State.resetPf0 (s : State) (port : Nat) : State := (s.setPriv1 port 0 3).clearBar4 port

/-- An FLR of PF0 at state `s` reaches the partitions without a bound VF, in the state `t` (R297). -/
def State.resetUnbound (s t : State) : State :=
  ((List.range 16).filter (fun p => (s.boundVf p).isNone)).foldl State.flrPart t

variable (s : State)

/-- What the reset of a port's PF0 leaves. -/
theorem State.resetPf0_frame (port : Nat) : (s.resetPf0 port).mem = s.mem ∧ (s.resetPf0 port).parts = s.parts ∧
    (s.resetPf0 port).pending = s.pending := by
  obtain ⟨mem, parts, pending⟩ := (s.setPriv1 port 0 3).clearBar4_frame port
  obtain ⟨mem', parts', pending'⟩ := s.setPriv1_frame port 0 3
  exact ⟨mem.trans mem', parts.trans parts', pending.trans pending'⟩

/-- The reset leaves the status of the partitions. -/
theorem State.partStatus_resetPf0 (port : Nat) {p : Nat} (hlt : p < 16) : (s.resetPf0 port).partStatus p = s.partStatus p := by
  have place : (statusField p).addr 0 0 = 0x8024 := rfl
  have key : (statusField p).key 0 0 = 0x8024 * 64 + 2 * p := rfl
  have bit : (statusField p).lo < 64 := show 2 * p < 64 by omega
  rw [State.partStatus_eq, State.partStatus_eq, State.resetPf0, State.fget_clearBar4 _ _ bit (by omega),
    State.fget_setPriv1] <;> rw [key]
  · simp only [hubKeys]; omega
  · simp only [Field.key, Field.addr, MGMT_LOG_STATUS.LOST, blkBase]; omega
  · simp only [Field.key, Field.addr, MGMT_EVENT.CAUSE, blkBase]; omega
  · simp only [Field.key, Field.addr, HIF_PRIV.PRIV, blkBase]; omega

/-- With no partition in use PF0's FLR resets none. -/
theorem State.resetUnbound_unused (port : Nat) (hparts : ∀ p, p < 16 → (s.part p).stage = .none ∧ s.partStatus p = 0) :
    s.resetUnbound (s.resetPf0 port) = s.resetPf0 port := by
  obtain ⟨-, parts, -⟩ := s.resetPf0_frame port
  refine foldl_keeps_mem (fun t => t = s.resetPf0 port) _ _ (fun t p hm ht => ?_) _ rfl
  have hlt : p < 16 := List.mem_range.mp (List.mem_filter.mp hm).1
  obtain ⟨stage, status⟩ := hparts p hlt
  rw [ht]
  exact State.flrPart_unused ((congrArg Part.stage (State.part_congr parts p)).trans stage)
    ((s.partStatus_resetPf0 port hlt).trans status)

variable {port : Nat} (hp : port < 2)
include hp

/-- The port's PF0 has no privilege. -/
theorem State.resetPf0_priv : (s.resetPf0 port).fget HIF_PRIV.PRIV port 0 = 0 := by
  have below : HIF_PRIV.PRIV.addr port 0 < 0x10100 + port * 0x1000 := by
    simp only [Field.addr, HIF_PRIV.PRIV, blkBase]
    omega
  rw [State.resetPf0, State.fget_clearBar4 _ _ (by decide) (.inl below), State.setPriv1_priv _ _ _ hp]

/-- The reset leaves the segments of the other port. -/
theorem State.resetPf0_other {i : Nat} (hi : i < 16) :
    (s.resetPf0 port).fget HIF_BAR4_SEG.VALID (1 - port) i = s.fget HIF_BAR4_SEG.VALID (1 - port) i := by
  have place : HIF_BAR4_SEG.VALID.addr (1 - port) i = 0x10100 + (1 - port) * 0x1000 + i * 8 := by
    simp only [Field.addr, HIF_BAR4_SEG.VALID, blkBase]
    omega
  obtain ⟨low, lost, cause⟩ := Field.hif_key (g := HIF_BAR4_SEG.VALID) (i := i) rfl
    (show 0x100 + i * 8 < 0x1000 by omega) (by decide) (show 1 - port < 2 by omega)
  rw [State.resetPf0, State.fget_clearBar4 _ _ (by decide) (by omega), State.fget_setPriv1 _ _ _ _ low lost cause]
  simp only [Field.key, place]
  simp only [Field.addr, HIF_PRIV.PRIV, HIF_BAR4_SEG.VALID, blkBase]
  omega

/-- PF0's FLR with no partition in use, where no load runs and its privilege stays off, resets that port's PF0 alone. -/
theorem exec_pf0Flr_unused (hload : s.loadsNow = false) (hpol : s.fget MGMT_POLICY.PF0_PRIV 0 0 ≠ 1)
    (hphase : s.fget BOOT_STATUS.PHASE 0 0 ≠ 15) (hparts : ∀ p, p < 16 → (s.part p).stage = .none ∧ s.partStatus p = 0) :
    exec (.pf0Flr port) s = .next (s.resetPf0 port) := by
  obtain ⟨-, -, pending⟩ := s.resetPf0_frame port
  change ok (decide (port < 2)) s
    (if s.loadsNow then (s.resetUnbound (s.resetPf0 port)).enterHold 0x0D
     else if s.fget MGMT_POLICY.PF0_PRIV 0 0 = 1 ∨ s.fget BOOT_STATUS.PHASE 0 0 = 15 then
       (s.resetUnbound (s.resetPf0 port)).setPriv1 port 1 3
     else s.resetUnbound (s.resetPf0 port)) = _
  rw [s.resetUnbound_unused port hparts, hload, decide_eq_true hp, if_neg Bool.false_ne_true,
    if_neg (not_or.mpr ⟨hpol, hphase⟩)]
  exact ok_of_pending pending

end Pf0

section Pf1

/-- PF1 of a port loses its register halves and its message table. -/
def State.resetPf1 (s : State) (port : Nat) : State :=
  ((s.withHalfW (Tbl.put (0, 0) s.halfW (accCode (.pf1 port)) (0, 0))).withHalfR
    (Tbl.put (0, 0) s.halfR (accCode (.pf1 port)) (0, 0))).withMsix (s.msix.clearRange (msixKey port 1 0) 4096)

variable (s : State) {port : Nat}

/-- PF1's FLR resets that port's PF1. -/
theorem exec_pf1Flr (hp : port < 2) : exec (.pf1Flr port) s = .next (s.resetPf1 port) := by
  change ok (decide (port < 2)) s _ = _
  rw [decide_eq_true hp]
  rfl

/-- It holds no register half. -/
theorem State.resetPf1_halves : Tbl.get (0, 0) (s.resetPf1 port).halfW (accCode (.pf1 port)) = (0, 0) ∧
    Tbl.get (0, 0) (s.resetPf1 port).halfR (accCode (.pf1 port)) = (0, 0) := by
  simp [State.resetPf1]

/-- Its message table is empty. -/
theorem State.resetPf1_own {v : Nat} (hv : v < 4096) : Tbl.get {} (s.resetPf1 port).msix (msixKey port 1 v) = {} := by
  refine Tbl.get_clearRange_in _ ?_ ?_ <;> simp only [msixKey] <;> omega

/-- The other functions' tables are as they were. -/
theorem State.resetPf1_other {q fn v : Nat} (hv : v < 4096) (h : q ≠ port ∨ fn ≠ 1) (hf : fn < 32) :
    Tbl.get {} (s.resetPf1 port).msix (msixKey q fn v) = Tbl.get {} s.msix (msixKey q fn v) := by
  refine Tbl.get_clearRange_out _ ?_
  simp only [msixKey]
  omega

end Pf1

/-- Settles O46: command by command, by the cases of each; the reset of PF0 by its fold over partitions that are all unused. -/
theorem hostPortsAndFunctionResetsAct : Obligations.HostPortsAndFunctionResetsAct := by
  unfold Obligations.HostPortsAndFunctionResetsAct
  refine ⟨fun s port hp => ⟨fun g w hg hw => ⟨fun ht h0 => ?up, exec_hostLinkTraining_not s hp hg hw⟩,
    fun fn vfs hf => exec_configRequest_down s hp hf vfs, fun fn hf hup => ?config, hostLinkDown_spec s hp,
    ⟨_, exec_perstDeassert s hp, rfl, rfl⟩⟩, fun s k h1 hk => ⟨exec_vfFlr_unbound h1 hk, fun p hb hs hu => ?vf⟩,
    fun s port hp hload hpol hphase hparts => ?pf0, fun s port hp => ?pf1⟩
  case up => exact ⟨_, exec_hostLinkTraining_up s hp hg hw ht h0, rfl, rfl, rfl, rfl⟩
  case config =>
    exact ⟨exec_configRequest_early s hp hf none hup, exec_configRequest_absent s hp hf none hup,
      fun hm ht => exec_configRequest_identity s hp hf none hup hm ht (.inl rfl),
      fun n hm hn ht => exec_configRequest_identity s hp hf (some n) hup hm ht (.inr hn),
      fun n hm => ⟨_, exec_configRequest_numVfs s hp hup hm n, rfl, rfl⟩⟩
  case vf =>
    have start (b l r : Bool) (since : Nat) : (s.part p).stage ≠ .draining b l r since := by simp [hs]
    obtain ⟨draining, -⟩ := s.startReset_spec p true false false start rfl
    refine ⟨_, exec_vfFlr_bound h1 hk hb, ?_⟩
    rw [State.flrPart_starts hs hu]
    exact draining
  case pf0 =>
    obtain ⟨mem, -, -⟩ := s.resetPf0_frame port
    exact ⟨_, exec_pf0Flr_unused s hp hload hpol hphase hparts, s.resetPf0_priv hp, mem,
      fun i hi => (s.setPriv1 port 0 3).clearBar4_cleared port hi, fun i hi => s.resetPf0_other hp hi⟩
  case pf1 =>
    obtain ⟨halfW, halfR⟩ := s.resetPf1_halves (port := port)
    exact ⟨_, exec_pf1Flr s hp, rfl, rfl, halfW, halfR, fun v hv => s.resetPf1_own hv,
      fun q fn v hv h hf => s.resetPf1_other hv h hf⟩

end Sys2Proof.Machine
end

section
/-!
SUPPORT. Commands and steps as a whole: a command answers `ok` of its operands' check; what is open in a command's areas it keeps;
how the queue shrinks, and what follows for every area, for the form of memory, and for runs.
-/

namespace Sys2Proof.Machine

/-- Every command first makes the check of its operands, and then answers some state. -/
theorem exec_is_ok (c : Instr) (s : State) : ∃ t, exec c s = ok c.wf s t := by
  cases c <;> exact ⟨_, rfl⟩

/-- A command keeps each predicate that is open in its areas; the commands that write every area at once do so by a part
reset or a loss of VAON. -/
theorem exec_keeps {P : State → Prop} {c : Instr} (hP : Opened c.areas P) (hr : c.areas = Area.all → Restarts P)
    (hq : KeepsQueue P) {s t : State} (hs : P s) (e : exec c s = .next t) : P t := by
  cases c with
  | registerWrite => exact execRegisterWrite_keeps hP hq (oks := hs) (e := e)
  | rcFieldRead => exact execRcFieldRead_keeps hP hq (oks := hs) (e := e)
  | tileThrottleWrite => exact execTileThrottleWrite_keeps hP hq (oks := hs) (e := e)
  | throttleTakeEffect => exact execThrottleTakeEffect_keeps hP hq (oks := hs) (e := e)
  | rampStep => exact execRampStep_keeps hP hq (oks := hs) (e := e)
  | shadowLoadDone => exact execShadowLoadDone_keeps hP hq (oks := hs) (e := e)
  | arrayConfigChange => exact execArrayConfigChange_keeps hP hq (oks := hs) (e := e)
  | passCommit => exact execPassCommit_keeps hP hq (oks := hs) (e := e)
  | passFault => exact execPassFault_keeps hP hq (oks := hs) (e := e)
  | preemptRequest => exact execPreemptRequest_keeps hP hq (oks := hs) (e := e)
  | preemptBoundary => exact execPreemptBoundary_keeps hP hq (oks := hs) (e := e)
  | preemptDeadline => exact execPreemptDeadline_keeps hP hq (oks := hs) (e := e)
  | urgentSaveDone => exact execUrgentSaveDone_keeps hP hq (oks := hs) (e := e)
  | preemptResume => exact execPreemptResume_keeps hP hq (oks := hs) (e := e)
  | instanceStart => exact execInstanceStart_keeps hP hq (oks := hs) (e := e)
  | instanceEnd => exact execInstanceEnd_keeps hP hq (oks := hs) (e := e)
  | matmulStream => exact execMatmulStream_keeps hP hq (oks := hs) (e := e)
  | matmulStationary => exact execMatmulStationary_keeps hP hq (oks := hs) (e := e)
  | attendPrefill => exact execAttendPrefill_keeps hP hq (oks := hs) (e := e)
  | attendDecode => exact execAttendDecode_keeps hP hq (oks := hs) (e := e)
  | attendBwd => exact execAttendBwd_keeps hP hq (oks := hs) (e := e)
  | norm => exact execNorm_keeps hP hq (oks := hs) (e := e)
  | rope => exact execRope_keeps hP hq (oks := hs) (e := e)
  | act => exact execAct_keeps hP hq (oks := hs) (e := e)
  | route => exact execRoute_keeps hP hq (oks := hs) (e := e)
  | dispatch => exact execDispatch_keeps hP hq (oks := hs) (e := e)
  | combine => exact execCombine_keeps hP hq (oks := hs) (e := e)
  | sample => exact execSample_keeps hP hq (oks := hs) (e := e)
  | embed => exact execEmbed_keeps hP hq (oks := hs) (e := e)
  | copyRows => exact execCopyRows_keeps hP hq (oks := hs) (e := e)
  | reduce => exact execReduce_keeps hP hq (oks := hs) (e := e)
  | kvAppend => exact execKvAppend_keeps hP hq (oks := hs) (e := e)
  | waitOp => exact execWaitOp_keeps hP hq (oks := hs) (e := e)
  | signalOp => exact execSignalOp_keeps hP hq (oks := hs) (e := e)
  | waitSatisfied => exact execWaitSatisfied_keeps hP hq (oks := hs) (e := e)
  | waitLimit => exact execWaitLimit_keeps hP hq (oks := hs) (e := e)
  | yarderCompletion => exact execYarderCompletion_keeps hP hq (oks := hs) (e := e)
  | yarderTimeout => exact execYarderTimeout_keeps hP hq (oks := hs) (e := e)
  | tagQuarantineEnd => exact execTagQuarantineEnd_keeps hP hq (oks := hs) (e := e)
  | instanceAbort => exact execInstanceAbort_keeps hP hq (oks := hs) (e := e)
  | runAheadRead => exact execRunAheadRead_keeps hP hq (oks := hs) (e := e)
  | reservationRetry => exact execReservationRetry_keeps hP hq (oks := hs) (e := e)
  | regrowChunk => exact execRegrowChunk_keeps hP hq (oks := hs) (e := e)
  | ledgerPin => exact execLedgerPin_keeps hP hq (oks := hs) (e := e)
  | ledgerUnpin => exact execLedgerUnpin_keeps hP hq (oks := hs) (e := e)
  | ledgerRef => exact execLedgerRef_keeps hP hq (oks := hs) (e := e)
  | ledgerUnref => exact execLedgerUnref_keeps hP hq (oks := hs) (e := e)
  | droppedPageRerun => exact execDroppedPageRerun_keeps hP hq (oks := hs) (e := e)
  | memoryRead => exact execMemoryRead_keeps hP hq (oks := hs) (e := e)
  | memoryWrite => exact execMemoryWrite_keeps hP hq (oks := hs) (e := e)
  | partialWrite => exact execPartialWrite_keeps hP hq (oks := hs) (e := e)
  | adderReduce => exact execAdderReduce_keeps hP hq (oks := hs) (e := e)
  | correctedWriteBack => exact execCorrectedWriteBack_keeps hP hq (oks := hs) (e := e)
  | hostWindowRequest => exact execHostWindowRequest_keeps hP hq (oks := hs) (e := e)
  | hostCompletion => exact execHostCompletion_keeps hP hq (oks := hs) (e := e)
  | hostCompletionTimeout => exact execHostCompletionTimeout_keeps hP hq (oks := hs) (e := e)
  | refresh => exact execRefresh_keeps hP hq (oks := hs) (e := e)
  | hotbankTick => exact execHotbankTick_keeps hP hq (oks := hs) (e := e)
  | hotbankLeak => exact execHotbankLeak_keeps hP hq (oks := hs) (e := e)
  | marginSweepStart => exact execMarginSweepStart_keeps hP hq (oks := hs) (e := e)
  | marginSweepDone => exact execMarginSweepDone_keeps hP hq (oks := hs) (e := e)
  | thapelStepQueue => exact execThapelStepQueue_keeps hP hq (oks := hs) (e := e)
  | processorModeEntry => exact execProcessorModeEntry_keeps hP hq (oks := hs) (e := e)
  | attendPage => exact execAttendPage_keeps hP hq (oks := hs) (e := e)
  | sealVerify => exact execSealVerify_keeps hP hq (oks := hs) (e := e)
  | yieldPoint => exact execYieldPoint_keeps hP hq (oks := hs) (e := e)
  | resultBufferDrain => exact execResultBufferDrain_keeps hP hq (oks := hs) (e := e)
  | lingerExpiry => exact execLingerExpiry_keeps hP hq (oks := hs) (e := e)
  | channelBusy => exact execChannelBusy_keeps hP hq (oks := hs) (e := e)
  | thapelHang => exact execThapelHang_keeps hP hq (oks := hs) (e := e)
  | refreshAbandon => exact execRefreshAbandon_keeps hP hq (oks := hs) (e := e)
  | windowBoundary => exact execWindowBoundary_keeps hP hq (oks := hs) (e := e)
  | requestRelease => exact execRequestRelease_keeps hP hq (oks := hs) (e := e)
  | urgencySample => exact execUrgencySample_keeps hP hq (oks := hs) (e := e)
  | scaleUpdate => exact execScaleUpdate_keeps hP hq (oks := hs) (e := e)
  | tallyLeak => exact execTallyLeak_keeps hP hq (oks := hs) (e := e)
  | mergeEntryTimeout => exact execMergeEntryTimeout_keeps hP hq (oks := hs) (e := e)
  | patrolScrub => exact execPatrolScrub_keeps hP hq (oks := hs) (e := e)
  | readRaw => exact execReadRaw_keeps hP hq (oks := hs) (e := e)
  | readCorrected => exact execReadCorrected_keeps hP hq (oks := hs) (e := e)
  | writeRaw => exact execWriteRaw_keeps hP hq (oks := hs) (e := e)
  | writeEncoded => exact execWriteEncoded_keeps hP hq (oks := hs) (e := e)
  | mgmtRecordCopy => exact execMgmtRecordCopy_keeps hP hq (oks := hs) (e := e)
  | logFlush => exact execLogFlush_keeps hP hq (oks := hs) (e := e)
  | hostLinkTraining => exact execHostLinkTraining_keeps hP hq (oks := hs) (e := e)
  | configRequest => exact execConfigRequest_keeps hP hq (oks := hs) (e := e)
  | deckDoorbell => exact execDeckDoorbell_keeps hP hq (oks := hs) (e := e)
  | deckCqDoorbell => exact execDeckCqDoorbell_keeps hP hq (oks := hs) (e := e)
  | bar4SegWrite => exact execBar4SegWrite_keeps hP hq (oks := hs) (e := e)
  | vfSegWrite => exact execVfSegWrite_keeps hP hq (oks := hs) (e := e)
  | vfFlr => exact execVfFlr_keeps hP hq (oks := hs) (e := e)
  | pf0Flr => exact execPf0Flr_keeps hP hq (oks := hs) (e := e)
  | pf1Flr => exact execPf1Flr_keeps hP hq (oks := hs) (e := e)
  | hostLinkDown => exact execHostLinkDown_keeps hP hq (oks := hs) (e := e)
  | perstDeassert => exact execPerstDeassert_keeps hP hq (oks := hs) (e := e)
  | deckEnable => exact execDeckEnable_keeps hP hq (oks := hs) (e := e)
  | deckStop => exact execDeckStop_keeps hP hq (oks := hs) (e := e)
  | deckPark => exact execDeckPark_keeps hP hq (oks := hs) (e := e)
  | deckActivate => exact execDeckActivate_keeps hP hq (oks := hs) (e := e)
  | deckFetch => exact execDeckFetch_keeps hP hq (oks := hs) (e := e)
  | commandStart => exact execCommandStart_keeps hP hq (oks := hs) (e := e)
  | runGraph => exact execRunGraph_keeps hP hq (oks := hs) (e := e)
  | kvCopy => exact execKvCopy_keeps hP hq (oks := hs) (e := e)
  | kvDrop => exact execKvDrop_keeps hP hq (oks := hs) (e := e)
  | kvPark => exact execKvPark_keeps hP hq (oks := hs) (e := e)
  | kvUnpark => exact execKvUnpark_keeps hP hq (oks := hs) (e := e)
  | weightLoad => exact execWeightLoad_keeps hP hq (oks := hs) (e := e)
  | fence => exact execFence_keeps hP hq (oks := hs) (e := e)
  | eventWait => exact execEventWait_keeps hP hq (oks := hs) (e := e)
  | eventSignal => exact execEventSignal_keeps hP hq (oks := hs) (e := e)
  | timer => exact execTimer_keeps hP hq (oks := hs) (e := e)
  | forecast => exact execForecast_keeps hP hq (oks := hs) (e := e)
  | fabricSend => exact execFabricSend_keeps hP hq (oks := hs) (e := e)
  | barrier => exact execBarrier_keeps hP hq (oks := hs) (e := e)
  | broadcast => exact execBroadcast_keeps hP hq (oks := hs) (e := e)
  | snapshot => exact execSnapshot_keeps hP hq (oks := hs) (e := e)
  | eventWaitSatisfied => exact execEventWaitSatisfied_keeps hP hq (oks := hs) (e := e)
  | timerExpiry => exact execTimerExpiry_keeps hP hq (oks := hs) (e := e)
  | commandTimeout => exact execCommandTimeout_keeps hP hq (oks := hs) (e := e)
  | lateResult => exact execLateResult_keeps hP hq (oks := hs) (e := e)
  | execSlotQuarantineEnd => exact execExecSlotQuarantineEnd_keeps hP hq (oks := hs) (e := e)
  | sendContextGrant => exact execSendContextGrant_keeps hP hq (oks := hs) (e := e)
  | protShadowWrite => exact execProtShadowWrite_keeps hP hq (oks := hs) (e := e)
  | protCommit => exact execProtCommit_keeps hP hq (oks := hs) (e := e)
  | protSwap => exact execProtSwap_keeps hP hq (oks := hs) (e := e)
  | partitionReset => exact execPartitionReset_keeps hP hq (oks := hs) (e := e)
  | partitionLoad => exact execPartitionLoad_keeps hP hq (oks := hs) (e := e)
  | partitionRetire => exact execPartitionRetire_keeps hP hq (oks := hs) (e := e)
  | resetDrainDone => exact execResetDrainDone_keeps hP hq (oks := hs) (e := e)
  | drainSlow => exact execDrainSlow_keeps hP hq (oks := hs) (e := e)
  | loadDrainDone => exact execLoadDrainDone_keeps hP hq (oks := hs) (e := e)
  | loadWeightsDone => exact execLoadWeightsDone_keeps hP hq (oks := hs) (e := e)
  | linkDetect => exact execLinkDetect_keeps hP hq (oks := hs) (e := e)
  | trainingFrame => exact execTrainingFrame_keeps hP hq (oks := hs) (e := e)
  | trainingTimeout => exact execTrainingTimeout_keeps hP hq (oks := hs) (e := e)
  | trainingRetry => exact execTrainingRetry_keeps hP hq (oks := hs) (e := e)
  | fecBlock => exact execFecBlock_keeps hP hq (oks := hs) (e := e)
  | dataFlit => exact execDataFlit_keeps hP hq (oks := hs) (e := e)
  | idleFlit => exact execIdleFlit_keeps hP hq (oks := hs) (e := e)
  | nak => exact execNak_keeps hP hq (oks := hs) (e := e)
  | linkInit => exact execLinkInit_keeps hP hq (oks := hs) (e := e)
  | linkInitAck => exact execLinkInitAck_keeps hP hq (oks := hs) (e := e)
  | retrainReq => exact execRetrainReq_keeps hP hq (oks := hs) (e := e)
  | linkReset => exact execLinkReset_keeps hP hq (oks := hs) (e := e)
  | replayTimeout => exact execReplayTimeout_keeps hP hq (oks := hs) (e := e)
  | nakRepeat => exact execNakRepeat_keeps hP hq (oks := hs) (e := e)
  | retrainComplete => exact execRetrainComplete_keeps hP hq (oks := hs) (e := e)
  | retrainTimeout => exact execRetrainTimeout_keeps hP hq (oks := hs) (e := e)
  | portRetrain => exact execPortRetrain_keeps hP hq (oks := hs) (e := e)
  | portQuarantine => exact execPortQuarantine_keeps hP hq (oks := hs) (e := e)
  | portRelease => exact execPortRelease_keeps hP hq (oks := hs) (e := e)
  | fabTallyLeak => exact execFabTallyLeak_keeps hP hq (oks := hs) (e := e)
  | fabRateInterval => exact execFabRateInterval_keeps hP hq (oks := hs) (e := e)
  | routeTableWrite => exact execRouteTableWrite_keeps hP hq (oks := hs) (e := e)
  | messageRoute => exact execMessageRoute_keeps hP hq (oks := hs) (e := e)
  | hello => exact execHello_keeps hP hq (oks := hs) (e := e)
  | helloTimer => exact execHelloTimer_keeps hP hq (oks := hs) (e := e)
  | spdmMessage => exact execSpdmMessage_keeps hP hq (oks := hs) (e := e)
  | authTimeout => exact execAuthTimeout_keeps hP hq (oks := hs) (e := e)
  | authRetry => exact execAuthRetry_keeps hP hq (oks := hs) (e := e)
  | cruiseStart => exact execCruiseStart_keeps hP hq (oks := hs) (e := e)
  | probe => exact execProbe_keeps hP hq (oks := hs) (e := e)
  | probeReply => exact execProbeReply_keeps hP hq (oks := hs) (e := e)
  | probeResend => exact execProbeResend_keeps hP hq (oks := hs) (e := e)
  | cruiseEnd => exact execCruiseEnd_keeps hP hq (oks := hs) (e := e)
  | remoteWrite => exact execRemoteWrite_keeps hP hq (oks := hs) (e := e)
  | remoteReduce => exact execRemoteReduce_keeps hP hq (oks := hs) (e := e)
  | kvPageWrite => exact execKvPageWrite_keeps hP hq (oks := hs) (e := e)
  | kvPageReadReq => exact execKvPageReadReq_keeps hP hq (oks := hs) (e := e)
  | kvPageReadData => exact execKvPageReadData_keeps hP hq (oks := hs) (e := e)
  | tokenFwd => exact execTokenFwd_keeps hP hq (oks := hs) (e := e)
  | stream => exact execStream_keeps hP hq (oks := hs) (e := e)
  | response => exact execResponse_keeps hP hq (oks := hs) (e := e)
  | retransmitTimeout => exact execRetransmitTimeout_keeps hP hq (oks := hs) (e := e)
  | notReadyResend => exact execNotReadyResend_keeps hP hq (oks := hs) (e := e)
  | notReadyLimit => exact execNotReadyLimit_keeps hP hq (oks := hs) (e := e)
  | recvContextClose => exact execRecvContextClose_keeps hP hq (oks := hs) (e := e)
  | timeSyncPeriod => exact execTimeSyncPeriod_keeps hP hq (oks := hs) (e := e)
  | timeReq => exact execTimeReq_keeps hP hq (oks := hs) (e := e)
  | timeResp => exact execTimeResp_keeps hP hq (oks := hs) (e := e)
  | barUp => exact execBarUp_keeps hP hq (oks := hs) (e := e)
  | barDown => exact execBarDown_keeps hP hq (oks := hs) (e := e)
  | bcastUp => exact execBcastUp_keeps hP hq (oks := hs) (e := e)
  | bcastDown => exact execBcastDown_keeps hP hq (oks := hs) (e := e)
  | snapUp => exact execSnapUp_keeps hP hq (oks := hs) (e := e)
  | snapMarker => exact execSnapMarker_keeps hP hq (oks := hs) (e := e)
  | snapshotDrained => exact execSnapshotDrained_keeps hP hq (oks := hs) (e := e)
  | snapshotResume => exact execSnapshotResume_keeps hP hq (oks := hs) (e := e)
  | gopTimeout => exact execGopTimeout_keeps hP hq (oks := hs) (e := e)
  | fabricResetStart => exact execFabricResetStart_keeps hP hq (oks := hs) (e := e)
  | resetReq => exact execResetReq_keeps hP hq (oks := hs) (e := e)
  | resetDown => exact execResetDown_keeps hP hq (oks := hs) (e := e)
  | resetAck => exact execResetAck_keeps hP hq (oks := hs) (e := e)
  | resetReqTimeout => exact execResetReqTimeout_keeps hP hq (oks := hs) (e := e)
  | resetAckTimeout => exact execResetAckTimeout_keeps hP hq (oks := hs) (e := e)
  | fabricLocalReset => exact execFabricLocalReset_keeps hP hq (oks := hs) (e := e)
  | vaonValid => exact execVaonValid_keeps hP hq (oks := hs) (e := e)
  | alwaysOnStart => exact execAlwaysOnStart_keeps hP hq (oks := hs) (e := e)
  | fuseRead => exact execFuseRead_keeps hP hq (oks := hs) (e := e)
  | secureBoot => exact execSecureBoot_keeps hP (hr rfl) hq (oks := hs) (e := e)
  | selfTest => exact execSelfTest_keeps hP hq (oks := hs) (e := e)
  | memoryTraining => exact execMemoryTraining_keeps hP hq (oks := hs) (e := e)
  | imageCheck => exact execImageCheck_keeps hP hq (oks := hs) (e := e)
  | linkTrainingPhase => exact execLinkTrainingPhase_keeps hP hq (oks := hs) (e := e)
  | weightLoadBlob => exact execWeightLoadBlob_keeps hP hq (oks := hs) (e := e)
  | readyEntry => exact execReadyEntry_keeps hP hq (oks := hs) (e := e)
  | bootLoad => exact execBootLoad_keeps hP hq (oks := hs) (e := e)
  | bootAccept => exact execBootAccept_keeps hP hq (oks := hs) (e := e)
  | bootAbort => exact execBootAbort_keeps hP hq (oks := hs) (e := e)
  | bootRestart => exact execBootRestart_keeps hP (hr rfl) hq (oks := hs) (e := e)
  | bootSave => exact execBootSave_keeps hP hq (oks := hs) (e := e)
  | sensorSample => exact execSensorSample_keeps hP hq (oks := hs) (e := e)
  | thermalWarning => exact execThermalWarning_keeps hP hq (oks := hs) (e := e)
  | towerThrottle => exact execTowerThrottle_keeps hP hq (oks := hs) (e := e)
  | stackThrottle => exact execStackThrottle_keeps hP hq (oks := hs) (e := e)
  | stackCapStep => exact execStackCapStep_keeps hP hq (oks := hs) (e := e)
  | thermalShutdown => exact execThermalShutdown_keeps hP hq (oks := hs) (e := e)
  | tripRelease => exact execTripRelease_keeps hP (hr rfl) hq (oks := hs) (e := e)
  | powerFault => exact execPowerFault_keeps hP hq (oks := hs) (e := e)
  | powerTelemetry => exact execPowerTelemetry_keeps hP hq (oks := hs) (e := e)
  | avsStatusPoll => exact execAvsStatusPoll_keeps hP hq (oks := hs) (e := e)
  | powerEstimate => exact execPowerEstimate_keeps hP hq (oks := hs) (e := e)
  | clockTargetUpdate => exact execClockTargetUpdate_keeps hP hq (oks := hs) (e := e)
  | clockSwitch => exact execClockSwitch_keeps hP hq (oks := hs) (e := e)
  | rthEstimate => exact execRthEstimate_keeps hP hq (oks := hs) (e := e)
  | inletRead => exact execInletRead_keeps hP hq (oks := hs) (e := e)
  | flowPulse => exact execFlowPulse_keeps hP hq (oks := hs) (e := e)
  | flowCount => exact execFlowCount_keeps hP hq (oks := hs) (e := e)
  | flowStop => exact execFlowStop_keeps hP hq (oks := hs) (e := e)
  | rateEvaluation => exact execRateEvaluation_keeps hP hq (oks := hs) (e := e)
  | forecastPhase => exact execForecastPhase_keeps hP hq (oks := hs) (e := e)
  | partStateTarget => exact execPartStateTarget_keeps hP hq (oks := hs) (e := e)
  | autoIdle => exact execAutoIdle_keeps hP hq (oks := hs) (e := e)
  | partWake => exact execPartWake_keeps hP hq (oks := hs) (e := e)
  | tileWake => exact execTileWake_keeps hP hq (oks := hs) (e := e)
  | tileRetention => exact execTileRetention_keeps hP hq (oks := hs) (e := e)
  | tileOff => exact execTileOff_keeps hP hq (oks := hs) (e := e)
  | sequenceStage => exact execSequenceStage_keeps hP hq (oks := hs) (e := e)
  | pgTimeout => exact execPgTimeout_keeps hP hq (oks := hs) (e := e)
  | boardReset => exact execBoardReset_keeps hP (hr rfl) hq (oks := hs) (e := e)
  | powerDown => exact execPowerDown_keeps hP hq (oks := hs) (e := e)
  | cableChange => exact execCableChange_keeps hP hq (oks := hs) (e := e)
  | setEndpointId => exact execSetEndpointId_keeps hP hq (oks := hs) (e := e)
  | getSensorReading => exact execGetSensorReading_keeps hP hq (oks := hs) (e := e)
  | setEventReceiver => exact execSetEventReceiver_keeps hP hq (oks := hs) (e := e)
  | requestUpdate => exact execRequestUpdate_keeps hP hq (oks := hs) (e := e)
  | firmwareComponent => exact execFirmwareComponent_keeps hP hq (oks := hs) (e := e)
  | activateFirmware => exact execActivateFirmware_keeps hP hq (oks := hs) (e := e)
  | logInfo => exact execLogInfo_keeps hP hq (oks := hs) (e := e)
  | logRead => exact execLogRead_keeps hP hq (oks := hs) (e := e)
  | logClear => exact execLogClear_keeps hP hq (oks := hs) (e := e)
  | timeSet => exact execTimeSet_keeps hP hq (oks := hs) (e := e)
  | setPriv => exact execSetPriv_keeps hP hq (oks := hs) (e := e)
  | debugUnlock => exact execDebugUnlock_keeps hP hq (oks := hs) (e := e)
  | spdmRequest => exact execSpdmRequest_keeps hP hq (oks := hs) (e := e)
  | secRngRead => exact execSecRngRead_keeps hP hq (oks := hs) (e := e)
  | rngHealthFail => exact execRngHealthFail_keeps hP hq (oks := hs) (e := e)
  | debugChallengeRead => exact execDebugChallengeRead_keeps hP hq (oks := hs) (e := e)
  | rtcSecondsRead => exact execRtcSecondsRead_keeps hP hq (oks := hs) (e := e)
  | rtcSet => exact execRtcSet_keeps hP hq (oks := hs) (e := e)
  | rtcSetApply => exact execRtcSetApply_keeps hP hq (oks := hs) (e := e)
  | rtcOscStop => exact execRtcOscStop_keeps hP hq (oks := hs) (e := e)
  | vaonLoss => exact execVaonLoss_keeps hP (hr rfl) hq (oks := hs) (e := e)
  | vbatLow => exact execVbatLow_keeps hP hq (oks := hs) (e := e)
  | flitSlot => exact execFlitSlot_keeps hP hq (oks := hs) (e := e)
  | partStateEntered => exact execPartStateEntered_keeps hP hq (oks := hs) (e := e)
  | registerHalfRead => exact execRegisterHalfRead_keeps hP hq (oks := hs) (e := e)
/-- Settles O1: the two branches of a step. -/
theorem stepRunsFrontCommand : Obligations.StepRunsFrontCommand :=
  fun _ _ _ => ⟨step_cons rfl, step_nil rfl⟩

/-- Settles O2: the answer is `ok`, which gives the queue back. -/
theorem commandFaultsExactlyWhenItNamesNoUnit : Obligations.CommandFaultsExactlyWhenItNamesNoUnit := by
  unfold Obligations.CommandFaultsExactlyWhenItNamesNoUnit
  intro c s
  obtain ⟨t, answer⟩ := exec_is_ok c s
  refine ⟨fun wf => ⟨t.withQueue s.pending, ?_, rfl⟩, fun wf => ?_⟩
  · rw [answer, wf, ok_true]
  · rw [answer, wf, ok_false]

/-- A run over a queue of well-formed commands takes them one by one from the front. -/
theorem run_takes_front {s : State} (hs : s.QueueWf) {k : Nat} (hk : k ≤ s.pending.length) :
    ∃ t : State, core.run k s = .next t ∧ t.pending = s.pending.drop k := by
  induction k with
  | zero => exact ⟨s, run_zero core s, rfl⟩
  | succ k ih =>
    obtain ⟨t, run, rest⟩ := ih (by omega)
    have front := List.drop_eq_getElem_cons (show k < s.pending.length by omega)
    obtain ⟨u, next, queue⟩ := (commandFaultsExactlyWhenItNamesNoUnit s.pending[k]
      (t.withQueue (s.pending.drop (k + 1)))).1 (hs _ (List.getElem_mem _))
    exact ⟨u, (run_succ_last core run).trans ((step_cons (rest.trans front)).trans next), queue⟩

/-- Settles O3: by the run's length, one front command at a time. -/
theorem wellFormedQueueRunsToItsEnd : Obligations.WellFormedQueueRunsToItsEnd := by
  unfold Obligations.WellFormedQueueRunsToItsEnd
  intro s hs k hk
  obtain ⟨t, run, rest⟩ := run_takes_front hs hk
  refine ⟨⟨t, run⟩, t, run, rest, fun c hc => hs c (List.mem_of_mem_drop (rest ▸ hc)), fun c q front => ?_⟩
  exact (run_succ_last core run).trans (step_cons (rest.trans front))

/-- A step keeps the canonical form of memory. -/
theorem memOk_step {s t : State} (hs : MemOk s) (e : step s = .next t) : MemOk t := by
  cases queue : s.pending with
  | nil =>
    rw [step_nil queue] at e
    injection e with e
    exact e ▸ State.tick_keeps (memOk_opened _) s hs
  | cons c q =>
    rw [step_cons queue] at e
    exact exec_keeps (memOk_opened _) (fun _ => memOk_restarts) memOk_queue (memOk_queue s q hs) e

/-- Settles O59: every command and the tick keep the form, and a canonical table is what it reads as. -/
theorem everyStepKeepsMemoryCanonical : Obligations.EveryStepKeepsMemoryCanonical :=
  ⟨fun _ _ hs e => memOk_step hs e, fun s k hs t e => run_keeps core MemOk (fun _ _ h e => memOk_step h e) k s t hs e,
    fun _ _ hs ht h => Tbl.ext_from hs.1 ht.1 h⟩

/-- Agreement outside every area says nothing, so that a restart keeps it. -/
theorem within_all_restarts (s : State) : Restarts (Within Area.all s) := by
  have all (t : State) : Within Area.all s t := fun a ha => absurd (show a ∈ Area.all by cases a <;> decide) ha
  exact ⟨fun _ _ => all _, fun _ _ => all _⟩

/-- Settles O60: agreement outside a command's areas is open in them, so that the command keeps it. -/
theorem commandsWriteOnlyTheirAreas : Obligations.CommandsWriteOnlyTheirAreas :=
  fun c s _ e => exec_keeps (within_opened c.areas s) (fun all => all ▸ within_all_restarts s) (within_queue c.areas s)
    (.refl _ s) e

end Sys2Proof.Machine
end

section
/-!
SUPPORT. RUN_GRAPH (R312): its handles are checked before its reservation. Of one that holds its reservation and has begun to
regrow, the next chunk is prepared, and no handle is looked at again.
-/

namespace Sys2Proof.Machine

/-- A RUN_GRAPH of partition 0 that has begun to regrow its session, of handle 0. -/
def regrowingRun : Exec := { busy := true, entry := 1, regrow := some {} }

/-- The command in slot 0 of a part without session tables. -/
def regrowingPart : State := { State.reset with execs := [(State.reset.execKey 0 0, regrowingRun)] }

/-- The command is to be carried out, and the check of its handle finds a fault. -/
theorem regrowingPart_startable : regrowingPart.Startable 1 0 0 regrowingRun ∧
    (regrowingPart.checkHandles 0 0 regrowingRun.handles).2 = some (0x05, 4) := by decide +kernel

/-- Carried out, it goes on with its regrowth. -/
theorem regrowingPart_goesOn : (match exec (.runGraph 0 0) regrowingPart with
    | .next t => (Tbl.get {} t.execs (regrowingPart.execKey 0 0)).busy
    | _ => false) = true := by decide +kernel

/-- Refutes O17: a RUN_GRAPH whose regrowth has begun goes on, whatever has become of its handle. -/
theorem not_sessionCommandsCheckTheirHandles : ¬ Obligations.SessionCommandsCheckTheirHandles := by
  unfold Obligations.SessionCommandsCheckTheirHandles
  intro h
  obtain ⟨startable, faulty⟩ := regrowingPart_startable
  obtain ⟨t, answer, freed, -⟩ := h regrowingPart _ 0 0 1 0x05 4 regrowingRun (.runGraph 0 0) (by decide) startable
    (.inl ⟨rfl, rfl⟩) (Prod.ext rfl faulty)
  have busy := regrowingPart_goesOn
  rw [answer] at busy
  exact absurd (freed.symm.trans busy) (by decide)

end Sys2Proof.Machine
end

section
/-!
SUPPORT. A command without an instance ends (R308): its slot is free, and the event counters are as they were. The ordering
commands (R317), and those that wait.
-/

namespace Sys2Proof.Machine

section EndPlain

variable {s t : State} (p x status detail : Nat)

/-- What writes of one partition keep, an end without an instance keeps where it is open in the other areas it writes. -/
theorem State.endPlain_bears {P : State → Prop} (hP : Opened [.registers, .vectors, .memory, .controllers, .answers, .records,
    .decks, .pages, .management] P) (onPart : ∀ u q f, P u → P (u.onPart q f)) (h : P t) :
    P (t.endPlain p x status detail) := by
  have unasked : P ((t.unreserveAll p x).unask p x) := onPart _ p _ (State.unreserveAll_keeps hP t p x h)
  have completed := State.complete_keeps (hP.mono (by decide)) _ p x status detail unasked
  unfold State.endPlain State.preDecide
  split
  · exact keeps_ite (onPart _ _ _ completed) completed
  · exact completed

/-- It leaves the event counters. -/
theorem State.endPlain_evts : (t.endPlain p x status detail).evts = t.evts := by
  refine State.endPlain_bears (P := fun u => u.evts = t.evts) p x status detail ?_ (fun _ _ _ hu => by simpa using hu) rfl
  intro a ha
  fin_cases ha
  all_goals
    simp only [Opens]
    repeat' apply And.intro
    all_goals
      intros
      simpa

/-- The decision about a pre-emption leaves the commands. -/
theorem State.preDecide_execs (t : State) (p : Nat) : (t.preDecide p).execs = t.execs := by
  obtain ⟨-, execs, -⟩ := State.preDecide_keeps (within_opened _ t) t p (.refl _ t) .decks (by decide)
  exact execs.symm

/-- It frees the command's slot. -/
theorem State.endPlain_frees (h : t.homeHub p = s.homeHub p) : Freed s (t.endPlain p x status detail) p x := by
  have back : t.EngineKept ((t.unreserveAll p x).unask p x) :=
    (State.EngineKept.unreserveAll .refl p x).quiet (by simp [State.unask])
  rw [Freed, State.endPlain, State.preDecide_execs]
  exact State.complete_frees p x status detail ((back.homeHub p).trans h)

end EndPlain

/-- The queue is no slot. -/
theorem Freed.withQueue {s t : State} {p x : Nat} (h : Freed s t p x) (q : List Instr) : Freed s (t.withQueue q) p x := h

/-- The queue is no command. -/
@[simp] theorem State.execOf_withQueue (s : State) (q : List Instr) (p x : Nat) :
    (s.withQueue q).execOf p x = s.execOf p x := rfl

/-- A changed command is what it is changed to. -/
@[simp] theorem State.execOf_onExec (s : State) (p x : Nat) (f : Exec → Exec) :
    (s.onExec p x f).execOf p x = f (s.execOf p x) := by
  change Tbl.get {} (Tbl.upd {} s.execs (s.execKey p x) f) (s.execKey p x) = _
  rw [Tbl.upd, Tbl.get_put_same, State.execOf]

section Ordering

variable {s : State} {p x : Nat} {e : Exec}

/-- A waiting command whose condition is looked at; the queue is put back. -/
theorem ok_waitingCmd {op : Nat} (hp : slotOk p x = true) (he : s.execOf p x = e) (hb : e.busy = true)
    (hw : e.stage = .waiting) (hd : s.fget DECK_QCFG.PART e.deck 0 = p) (ho : e.opcode = op) (f : Exec → State) :
    ok (slotOk p x) s (s.waitingCmd op p x f) = .next ((f e).withQueue s.pending) := by
  subst he
  rw [hp, ok_true]
  simp [State.waitingCmd, hb, hw, hd, ho]

/-- An ended command's answer. -/
theorem ends_with (t : State) (status detail : Nat) (h : t.homeHub p = s.homeHub p) {a : Host.Outcome State Fault Refusal}
    (ha : a = .next ((t.endPlain p x status detail).withQueue s.pending)) :
    ∃ u, a = .next u ∧ Freed s u p x ∧ u.evts = t.evts :=
  ⟨_, ha, (State.endPlain_frees p x status detail h).withQueue _,
    (by simp : ∀ v : State, (v.withQueue s.pending).evts = v.evts) _ |>.trans (State.endPlain_evts ..)⟩

/-- A command that begins to wait. -/
theorem waits_with {a : Host.Outcome State Fault Refusal} (he : s.execOf p x = e)
    (ha : a = .next ((s.onExec p x (fun e => { e with stage := .waiting })).withQueue s.pending)) :
    ∃ u, a = .next u ∧ u.execOf p x = { e with stage := .waiting } ∧ u.mem = s.mem ∧ u.regs = s.regs :=
  ⟨_, ha, by rw [State.execOf_withQueue, State.execOf_onExec, he], rfl, rfl⟩

variable (hp : slotOk p x = true)
include hp

/-- FENCE ends or waits by the earlier commands of its deck (R317). -/
theorem exec_fence (hs : s.Startable 7 p x e) : exec (.fence p x) s = .next
    ((if (s.deckExecs e.deck).any (fun o => decide (o.order < e.order)) then s else s.endPlain p x 0 0).withQueue s.pending) :=
  ok_runCmd hp hs _

/-- EVENT_SIGNAL, by the same condition, adds to its counter and ends (R317). -/
theorem exec_eventSignal (hs : s.Startable 9 p x e)
    (hf : (s.deckExecs e.deck).any (fun o => decide (o.order < e.order)) = false) :
    let t := s.evtAdd p (e.f 18 2) (e.f 24 8)
    exec (.eventSignal p x) s = .next ((t.endPlain p x 0 (t.evtOf p (e.f 18 2) % 2 ^ 32)).withQueue s.pending) := by
  refine (ok_runCmd hp hs _).trans ?_
  rw [hf, if_neg Bool.false_ne_true]

/-- EVENT_WAIT ends or waits by its counter (R317). -/
theorem exec_eventWait (hs : s.Startable 8 p x e) : exec (.eventWait p x) s = .next
    ((if s.evtOf p (e.f 18 2) ≥ e.f 24 8 then s.endPlain p x 0 (s.evtOf p (e.f 18 2) % 2 ^ 32)
      else s.onExec p x (fun e => { e with stage := .waiting })).withQueue s.pending) :=
  ok_runCmd hp hs _

/-- TIMER ends or waits by its time (R317). -/
theorem exec_timer (hs : s.Startable 10 p x e) : exec (.timer p x) s = .next
    ((if s.time ≥ timerEnd e then s.endPlain p x 0 0 else s.onExec p x (fun e => { e with stage := .waiting })).withQueue
      s.pending) :=
  ok_runCmd hp hs _

end Ordering

/-- Settles O16: each command by its condition; an end frees the slot and leaves the counters. -/
theorem orderingCommandsWaitAndComplete : Obligations.OrderingCommandsWaitAndComplete := by
  unfold Obligations.OrderingCommandsWaitAndComplete
  intro s p x e hp
  refine ⟨fun hs => ⟨fun free => ?_, fun held => ?_⟩, fun hs free => ?_, fun hs => ⟨fun reached => ?_, fun short => ?_⟩,
    fun hs => ⟨fun due => ?_, fun early => ?_⟩, fun he hb hw hd => ⟨fun ho reached => ?_, fun ho short => ?_,
    fun ho due => ?_, fun ho early => ?_⟩⟩
  · exact ends_with s 0 0 rfl ((exec_fence hp hs).trans (by rw [free, if_neg Bool.false_ne_true]))
  · exact (exec_fence hp hs).trans (by rw [held]; rfl)
  · obtain ⟨t, ht, freed, evts⟩ := ends_with _ 0 _ rfl (exec_eventSignal hp hs free)
    refine ⟨t, ht, freed, ?_, fun k hk => ?_⟩ <;> rw [evts, State.evtAdd_evts, Tbl.upd]
    · rw [Tbl.get_put_same, State.evtOf]
    · exact Tbl.get_put_ne _ hk
  · exact ends_with s 0 _ rfl ((exec_eventWait hp hs).trans (by rw [if_pos reached]))
  · exact waits_with hs.1 ((exec_eventWait hp hs).trans (by rw [if_neg (by omega)]))
  · exact ends_with s 0 0 rfl ((exec_timer hp hs).trans (by rw [if_pos due]))
  · exact waits_with hs.1 ((exec_timer hp hs).trans (by rw [if_neg (by omega)]))
  · exact ends_with s 0 _ rfl ((ok_waitingCmd hp he hb hw hd ho _).trans (by rw [if_pos reached]))
  · exact (ok_waitingCmd hp he hb hw hd ho _).trans (by rw [if_neg (by omega)]; rfl)
  · exact ends_with s 0 0 rfl ((ok_waitingCmd hp he hb hw hd ho _).trans (by rw [if_pos due]))
  · exact (ok_waitingCmd hp he hb hw hd ho _).trans (by rw [if_neg (by omega)]; rfl)

end Sys2Proof.Machine
end

section
/-!
SUPPORT. Enabling a deck (R300) writes its context home, and what the memory meets there is recorded. A deck page of PF0 shows the
deck that its DECK_SEL reads, and in a state where that is no number of a deck, the registers shown are those of a virtual
function's error queue.
-/

namespace Sys2Proof.Machine

/-- A number no deck has: the place of its DECK_CFG is that of VF_Q_PROD of partition 0 and hub 2. -/
def strayDeck : Nat := 0x100000

/-- READY, partition 0 running and bound to VF 1, hub 2 without merging. -/
def readyBound : State :=
  ((((State.reset.fset BOOT_STATUS.PHASE 0 0 12).fsetAt PART_STATUS.STATE0 0 0 0 1).fset HIF_VF_BIND.EN 0 1 1).fset
    HIF_VF_BIND.PART 0 1 0).fset ERR_CTL.FORCE_RMW 2 0 1

/-- PF0's page shows the stray deck, whose rings lie in the host window; the place of its context is part of a poisoned word in
tier 0 of tile 32. -/
def strayPage : State :=
  let t := (((readyBound.fset DECK_BASE.BASE strayDeck 0 0x40000000).fset DECK_CQ_BASE.BASE strayDeck 0 0x40000000).fset
    DECK_TS_BASE.BASE strayDeck 0 0x40000000).fset DECK_QCFG.ASSIGNED strayDeck 0 1
  { t with
    regs := Tbl.put 0 t.regs (DECK_SEL.DECK.key 0x8000 0) strayDeck
    img := { t.img with sessions := [(0, (2 ^ 38 + 32 - 256 * strayDeck) * 2 ^ 192)] }
    chk := [(2 ^ 38, rsPoison)] }

/-- Sizes of 16, 16 and 64 entries, vector 8, and EN. -/
def enableValue : Nat := 2 ^ 31 + 8 * 2 ^ 16 + 6 * 2 ^ 10 + 4 * 2 ^ 5 + 4

/-- The page shows the deck, which is disabled, and the rules hold. -/
theorem strayPage_rules : strayPage.deckOf (.pf0 0) = some strayDeck ∧ strayPage.fget DECK_CFG.EN strayDeck 0 ≠ 1 ∧
    ((strayPage.setSizes strayDeck enableValue).setIrq strayDeck enableValue).deckRules strayDeck = true := by decide +kernel

/-- The record of the poisoned word goes into the virtual function's queue, whose count is where SIZE_LOG2 is. -/
theorem strayPage_records : (match exec (.deckEnable (.pf0 0) enableValue) strayPage with
    | .next t => t.fget DECK_CFG.SIZE_LOG2 strayDeck 0
    | _ => 4) = 1 := by decide +kernel

/-- Refutes O12: with more in DECK_SEL than its 15 bits hold, the record of a poisoned context overwrites the sizes. -/
theorem not_deckEnableFollowsItsRules : ¬ Obligations.DeckEnableFollowsItsRules := by
  unfold Obligations.DeckEnableFollowsItsRules
  intro h
  obtain ⟨shown, disabled, rules⟩ := strayPage_rules
  obtain ⟨t, answer, -, -, size, -⟩ := ((h strayPage (.pf0 0) enableValue rfl).2 strayDeck shown).2.1 disabled (by decide) rules
  have counted := strayPage_records
  rw [answer] at counted
  exact absurd (size.symm.trans counted) (by decide)

end Sys2Proof.Machine
end

section
/-!
SUPPORT. Parking, activating and fetching (R301, R302, R322): what each leaves of the decks.
-/

namespace Sys2Proof.Machine

/-- A command's answer has what its effect has, where the queue plays no part. -/
theorem answers_with {P : State → Prop} {a : Host.Outcome State Fault Refusal} {u : State} {q : List Instr} (h : P u)
    (hq : KeepsQueue P) (ha : a = .next (u.withQueue q)) : ∃ t, a = .next t ∧ P t :=
  ⟨_, ha, hq _ _ h⟩

/-- States that agree in the area of decks have the same deck contexts. -/
theorem Area.same.decks_eq {s t : State} (h : Area.same s t .decks) : t.decks = s.decks := h.1.symm

section Decks

variable (s : State) {d : Nat}

/-- A deck's context written home leaves the decks (R302). -/
theorem State.storeCtx_decks (k : Nat) : (s.storeCtx k).decks = s.decks :=
  Area.same.decks_eq (State.storeCtx_keeps (within_opened _ s) s k (.refl _ s) .decks (by decide))

/-- What an engine's read does beside delivering bytes leaves the decks. -/
theorem State.engTouch_decks (src p sev a n : Nat) : (s.engTouch src p sev a n).decks = s.decks :=
  Area.same.decks_eq (State.engTouch_keeps (within_opened _ s) s src p sev a n (.refl _ s) .decks (by decide))

/-- A context read from its home. -/
def State.readCtx (s : State) (d : Nat) : State :=
  (s.closeRange (s.ctxAt d) 256).readRange 7 (some (s.deckPart d)) 2 {} (s.ctxAt d) 256

/-- An event leaves the decks. -/
theorem State.deck_evt (f : Field) (u i mask : Nat) (p : Option Nat) (k : Nat) : (s.evt f u i mask p).deck k = s.deck k :=
  State.deck_congr (by simp) k

/-- A register written leaves the decks. -/
@[simp] theorem State.deck_fset (f : Field) (u i v k : Nat) : (s.fset f u i v).deck k = s.deck k := rfl

/-- A deck is no register. -/
@[simp] theorem State.fget_onDeck (c : Deck → Deck) (f : Field) (u i : Nat) : (s.onDeck d c).fget f u i = s.fget f u i := rfl

/-- It leaves the decks. -/
theorem State.readCtx_decks (k : Nat) : (s.readCtx k).decks = s.decks := by
  exact Area.same.decks_eq (State.readRange_keeps (within_opened [.registers, .vectors, .memory, .controllers, .answers,
    .records, .management] s |>.mono (by decide)) _ 7 _ 2 {} _ 256
    (State.closeRange_keeps (within_opened _ s) s _ 256 (.refl _ s)) .decks (by decide))

end Decks

section DeckCommands

variable {s : State} {d : Nat}

/-- DECK_PARK parks a deck that is due or whose place is wanted, and else does nothing (R302). -/
theorem exec_deckPark (hd : d < 32768) : exec (.deckPark d) s = ok true s
    (let us := s.fget DECK_PARK_US.IDLE_US (0x9000 + s.deckPart d) 0
     if (s.deck d).state = 2 ∧ s.deckOn d = true ∧ s.deckIdle d = true ∧
         (us ≠ 0 ∧ (s.deck d).idleSince + us * 1000 ≤ s.time ∨ 4096 ≤ s.activeCount ∧
           s.decks.any (fun (_, x) => x.state == 1 && x.remembered) = true ∧ s.longestIdle = some d)
     then (s.onDeck d (fun c => { c with state := 1 })).storeCtx d else s) := by
  have deck : deckOk d = true := decide_eq_true hd
  change ok (deckOk d) s _ = _
  simp only [deck, Bool.or_eq_true, Bool.and_eq_true, bne_iff_ne, ge_iff_le, decide_eq_true_eq, beq_iff_eq, and_assoc]

/-- DECK_ACTIVATE of a deck that is to be active, by what its context reads as (R302, R322). -/
theorem exec_deckActivate (hd : d < 32768) (hs : (s.deck d).state = 1) (hr : (s.deck d).remembered = true)
    (ho : s.deckOn d = true) (ha : s.activeCount < 4096) : exec (.deckActivate d) s = ok true s
      (if (s.look (s.ctxAt d) 256).2 then
        (((s.readCtx d).fset DECK_CFG.EN d 0 0).onDeck d (fun c =>
          { c with state := 3, remembered := false, fetched := [] })).evt DECK_EVENT.CTX_UE d 0 1 none
       else (s.readCtx d).onDeck d (fun c => { c with state := 2, remembered := false, idleSince := s.time })) := by
  have deck : deckOk d = true := decide_eq_true hd
  change ok (deckOk d) s _ = _
  rw [deck, if_pos ⟨hs, hr, ho, ha⟩]
  rfl

/-- DECK_FETCH of a pending entry that reads clean (R301). -/
theorem exec_deckFetch (hd : d < 32768) (hl : s.deckLive d = true) (hp : (s.deck d).fetch ≠ (s.deck d).doorbell)
    {bs : List Byte} (hg : s.engGet (s.deckPart d) ((s.deckRing d).1 + (s.deck d).fetch * 64) 64 = .bytes bs false) :
    exec (.deckFetch d) s = ok true s
      ((s.engTouch 7 (s.deckPart d) 2 ((s.deckRing d).1 + (s.deck d).fetch * 64) 64).onDeck d (fun c =>
        { c with fetch := (c.fetch + 1) % (s.deckRing d).2, fetched := c.fetched ++ [(leNat bs, s.time)] })) := by
  have deck : deckOk d = true := decide_eq_true hd
  change ok (deckOk d) s _ = _
  rw [deck]
  simp [hl, hp, hg]

end DeckCommands

/-- Settles O14: command by command; what a read or a write of the context does beside leaves the decks. -/
theorem decksParkActivateAndFetch : Obligations.DecksParkActivateAndFetch := by
  unfold Obligations.DecksParkActivateAndFetch
  intro s d hd
  refine ⟨⟨fun hs ho hi why => ?_, fun stays => ?_⟩, fun hs hr ho ha => ⟨fun clean => ?_, fun bad => ?_⟩,
    fun hl hp bs hg => ?_⟩
  · refine answers_with ⟨?_, fun k hk => ?_⟩ (fun _ _ h => h) ((exec_deckPark hd).trans
      (congrArg _ (if_pos ⟨hs, ho, hi, why⟩)))
    · rw [State.deck_congr (State.storeCtx_decks ..), State.deck_onDeck, if_pos rfl]
    · rw [State.deck_congr (State.storeCtx_decks ..), State.deck_onDeck, if_neg hk]
  · exact (exec_deckPark hd).trans (congrArg _ (if_neg stays))
  · refine answers_with (P := fun t => t.deck d = _) ?_ (fun _ _ h => h) ((exec_deckActivate hd hs hr ho ha).trans
      (by rw [clean, if_neg Bool.false_ne_true, ok_true]))
    rw [State.deck_onDeck, if_pos rfl, State.deck_congr (s.readCtx_decks d)]
  · refine answers_with ⟨?_, ?_, ?_⟩ (fun _ _ h => h) ((exec_deckActivate hd hs hr ho ha).trans
      (by rw [bad, if_pos rfl, ok_true]))
    · rw [State.deck_evt, State.deck_onDeck, if_pos rfl, State.deck_fset, State.deck_congr (s.readCtx_decks d)]
    · rw [State.fget_evt_ne _ (by simp only [Field.key, Field.addr, DECK_CFG.EN, DECK_EVENT.CTX_UE]; omega),
        State.fget_onDeck, State.fget_fset_same]
      rfl
    · exact State.fget_evt_one _ rfl ..
  · refine answers_with (P := fun t => t.deck d = _) ?_ (fun _ _ h => h) (exec_deckFetch hd hl hp hg)
    rw [State.deck_onDeck, if_pos rfl, State.deck_congr (State.engTouch_decks ..)]

end Sys2Proof.Machine
end

section
/-!
SUPPORT. Which registers the end of a command writes, its instance aborted or not (R115, R308, R322), beside those of the hubs'
and tiles' work: a predicate of the register file that bears those writes holds after every way in which a command ends.
-/

namespace Sys2Proof.Machine

/-- The fields that ends of commands and aborted instances write beside `workFields` and what a refusal sets. -/
def endFields : List Field :=
  [HUB_MEM_EVENT.WINDOW_MISS, DECK_CFG.EN, KV_COUNT2.REGROWTHS, TILE_ARRAY_STATUS.A0_STATE, TILE_SEQ_EVENT.ABORTED,
   TILE_ARRAY_STATUS.SAVE_LEVELS]

/-- A predicate that bears the hubs' and tiles' work bears the ends of commands too: refusals at ingress, and a write of each of
those fields, in any unit, or of one packed behind it in its register. -/
structure SparedEnds (P : State → Prop) : Prop extends Spared P where
  refusal : ∀ {s : State}, P s → ∀ p r src a, P (s.refusal p r src a)
  writeEnd : ∀ {s : State} {f : Field}, P s → f ∈ endFields → ∀ {sh : Nat}, f.lo + sh < 64 →
    ∀ u i v, P (s.fsetAt f u i sh v)

namespace SparedEnds

variable {P : State → Prop} (hP : SparedEnds P) {s : State} (h : P s)
include hP h

section Registers

/-- A listed field is set. -/
theorem fsetEnd {f : Field} (hf : f ∈ endFields) (u i v : Nat) : P (s.fset f u i v) :=
  hP.writeEnd h hf (sh := 0) ((by decide : ∀ g ∈ endFields, g.lo + 0 < 64) f hf) u i v

/-- A request met no memory (R189). -/
theorem windowMiss (n p : Nat) (r : Right) (src a : Nat) : P (s.windowMiss n p r src a) :=
  hP.quiet (State.evt_regs ..) (hP.fsetEnd (hP.refusal h p r src a) (by decide) ..)

/-- The deck engine writes to an address that a command or a ring names, or is refused (R297, R329). -/
theorem engPut (p a : Nat) (bs : List Byte) : P (s.engPut p a bs) := by
  unfold State.engPut
  dsimp only
  split
  · exact hP.windowMiss h ..
  · refine keeps_ite (hP.refusal h ..) (keeps_ite h (hP.withRsp (keeps_foldl1 (fun _ _ hu => ?_) h) _))
    exact hP.writeMarks hu ..

end Registers

section Reservations

/-- The frames of a reservation go back (R164, R173). -/
theorem unreserve (r : Resv) : P (s.unreserve r) := keeps_foldl (fun _ _ hu => hP.unref hu _) h

/-- A started command changes. -/
theorem onExec (p x : Nat) (f : Exec → Exec) : P (s.onExec p x f) := hP.quiet (by simp) h

/-- A deck context changes. -/
theorem onDeck (d : Nat) (f : Deck → Deck) : P (s.onDeck d f) := hP.quiet (by simp) h

/-- A partition changes. -/
theorem onPart (p : Nat) (f : Part → Part) : P (s.onPart p f) := hP.quiet (by simp) h

/-- What was reserved for later goes back. -/
theorem unlater (p x : Nat) : P (s.unlater p x) := hP.onExec (keeps_foldl (fun _ _ hu => hP.unreserve hu _) h) ..

/-- Every reservation of a command goes back. -/
theorem unreserveAll (p x : Nat) : P (s.unreserveAll p x) :=
  hP.unlater (hP.onExec (keeps_foldl (fun _ _ hu => hP.unreserve hu _) h) ..) ..

/-- A regrowth ends (R174). -/
theorem regrowEnd (p : Nat) (r : Resv) (w : Regrow) : P (s.regrowEnd p r w) := by
  have entered : P (r.ring.foldl (fun t (l, k, pg) =>
      if w.rebuild.contains l && decide (t.hdr pg 12 2 > 0) then t.setPte p r.slot l k (pteOf pg) else t) s) :=
    keeps_foldl (fun _ _ hu => keeps_ite (hP.engWrite hu ..) hu) h
  unfold State.regrowEnd
  have settled := hP.unreserve (keeps_ite (c := w.next < s.sessN p r.slot) h entered)
  exact keeps_ite (settled _) (hP.fsetEnd (hP.engWrite (hP.engWrite (settled _) ..) ..) (by decide) ..)

/-- A command lets go of what it holds (R322). -/
theorem letGo (p x : Nat) : P (s.letGo p x) := by
  have freed : P (((s.execOf p x).written.foldl State.unpin (s.dropStreams p x)).onExec p x
      (fun e => { e with written := [] })) :=
    hP.onExec (keeps_foldl (fun _ _ hu => hP.unpin hu _) (hP.quiet (by rfl) h)) ..
  unfold State.letGo
  dsimp only
  split
  · exact hP.onExec (hP.unlater (hP.regrowEnd freed ..) ..) ..
  · exact hP.unreserveAll freed ..

end Reservations

section Completion

/-- A completion record is written, and its interrupt sent (R308). -/
theorem deckRecord (d tag status : Nat) (late : Bool) (detail : Nat) (irq : Bool) :
    P (s.deckRecord d tag status late detail irq) := by
  have raised {t : State} (ht : P t) (port fn v : Nat) : P (t.raise1 port fn v) := hP.quiet (by simp) ht
  unfold State.deckRecord
  exact keeps_ite (raised (hP.onDeck (hP.engPut h ..) ..) ..) (hP.onDeck (hP.engPut h ..) ..)

/-- A deck whose stop waited for its commands stops (R322). -/
theorem stopCheck (d : Nat) : P (s.stopCheck d) := by
  unfold State.stopCheck
  dsimp only
  split
  · exact h
  · have recorded := keeps_foldl (P := P) (l := (s.deck d).fetched) (f := fun t (x : Nat × Nat) =>
      t.deckRecord d (fld x.1 2 2) 7 false 0 (!unreadable x.1 && (fld x.1 1 1).testBit 0))
      (fun _ _ hu => hP.deckRecord hu ..) h
    exact keeps_ite h (hP.onDeck (hP.fsetEnd (keeps_ite h recorded) (by decide) ..) ..)

/-- A command completes (R308). -/
theorem complete (p x status detail : Nat) : P (s.complete p x status detail) :=
  hP.stopCheck (hP.onExec (keeps_ite h (hP.deckRecord h ..)) ..) _

/-- The hub decides about a pre-emption. -/
theorem preDecide (p : Nat) : P (s.preDecide p) := by
  unfold State.preDecide
  split
  · exact keeps_ite (hP.onPart h ..) h
  · exact h

/-- An instance is over. -/
theorem popInst (p l : Nat) : P (s.popInst p l) := by
  obtain ⟨regs, -⟩ := State.popInst_keeps (within_opened _ s) s p l (.refl _ s) .registers (by decide)
  exact hP.quiet regs.symm h

/-- A command with an instance ends (R159). -/
theorem endCmd (p x l status detail : Nat) : P (s.endCmd p x l status detail) :=
  keeps_ite (hP.onExec h ..) (hP.preDecide (hP.complete (hP.popInst h ..) ..) _)

/-- A command without an instance ends (R308). -/
theorem endPlain (p x status detail : Nat) : P (s.endPlain p x status detail) :=
  hP.preDecide (hP.complete (hP.onPart (hP.unreserveAll h ..) ..) ..) _

end Completion

section Aborts

/-- Stopped jobs (R115). -/
theorem stopJobs (j l : Nat) : P (s.stopJobs j l) := by
  have stopped {v : State} (hv : P v) (as : List Nat) : P (v.stopArrays j 0 as) := by
    refine keeps_foldl (fun w a hw => ?_) hv
    unfold State.setArr
    split
    · refine hP.writeEnd (hP.quiet (by simp) hw) (by decide) ?_ ..
      simp only [TILE_ARRAY_STATUS.A0_STATE]
      omega
    · exact hP.quiet (by simp) hw
  refine keeps_foldl (fun v x hv => ?_) h
  obtain ⟨a, b⟩ := x
  have gone : P (v.setJob j l a none) := hP.quiet (by simp) hv
  exact keeps_ite (stopped gone _) gone

/-- Faults of a tile's busy threads (Table 4.12). -/
theorem faultBusy (r : State) (p l : Nat) (i : Inst) (j : Nat) : P (r.faultBusy s p l i j) := by
  refine keeps_ite h (keeps_foldl (fun v k hv => ?_) h)
  split
  · exact hP.seqFault hv ..
  · exact hv

/-- A tile that stops its part of an instance (R115). -/
theorem stopTile (p l : Nat) (i : Inst) (j : Nat) : P (s.stopTile p l i j) := by
  have orphaned := (State.orphanAll_kept (t := s.faultBusy (s.stopJobs j l) p l i j) l j).1
  rw [State.stopTile_eq]
  exact hP.fsetEnd (hP.quiet (by simpa using orphaned) (hP.faultBusy (hP.stopJobs h j l) ..)) (by decide) ..

/-- An aborted instance (R115). -/
theorem abortInst (p l : Nat) : P (s.abortInst p l) := by
  have cancelled : P (s.cancelSteps p l (s.inst p l).tileList) :=
    keeps_foldl (fun _ _ hu => keeps_foldl (fun _ _ hv => hP.attnDrop hv ..) hu) (hP.quiet (by rfl) h)
  unfold State.abortInst
  refine hP.quiet (s := List.foldl _ _ _) (by rfl) (keeps_foldl (fun v j hv => ?_) cancelled)
  exact hP.fsetEnd (hP.stopTile hv p l _ j) (by decide) ..

/-- A command is ended with a status, at once or after its chunk (R174, R322). -/
theorem endBy (p x status detail : Nat) (now : Bool) : P (s.endBy p x status detail now) := by
  have aborted (l st dt : Nat) : P (((s.abortInst p l).letGo p x).endCmd p x l st dt) :=
    hP.endCmd (hP.letGo (hP.abortInst h ..) ..) ..
  unfold State.endBy
  dsimp only
  split
  · exact h
  · split
    · exact aborted ..
    · exact keeps_ite (aborted ..) (hP.onExec h ..)
  · exact hP.endCmd (hP.letGo h ..) ..
  · exact hP.endPlain (hP.letGo h ..) ..

end Aborts

end SparedEnds

end Sys2Proof.Machine
end

section
/-!
SUPPORT. The ends of commands leave the tower registers, so the home hubs, and each partition's DECK_COUNT. A command that is ended
by a timeout or a stop (R320, R322).
-/

namespace Sys2Proof.Machine

section Apart

/-- The fields that a refusal at ingress writes (R189, R330). -/
def refusalFields : List Field :=
  [PROT_EVENT.REFUSED, PROT_REFUSE_REC.ADDRESS, PROT_REFUSE_REC.PART, PROT_REFUSE_REC.SOURCE, PROT_REFUSE_REC.RIGHT,
   PROT_REFUSE_REC.VALID]

/-- What bears a write of each of those fields bears a refusal. -/
theorem State.refusal_bears {P : State → Prop} (quiet : ∀ {s t : State}, t.regs = s.regs → P s → P t)
    (write : ∀ {s : State} {f : Field}, P s → f ∈ refusalFields → ∀ v, P (s.fset f 0 0 v)) {s : State} (h : P s)
    (p : Nat) (r : Right) (src a : Nat) : P (s.refusal p r src a) := by
  have flagged : P (s.evt PROT_EVENT.REFUSED 0 0 1 (some p)) := quiet (State.evt_regs ..) (write h (by decide) _)
  exact keeps_ite flagged (write (write (write (write (write flagged (by decide) _) (by decide) _) (by decide) _)
    (by decide) _) (by decide) _)

/-- Addresses at which no end of a command writes are read alike after it. -/
theorem sparedEnds_alike {A : Nat → Prop} (hA : ∀ f ∈ workFields ++ endFields ++ refusalFields, ∀ u i, ¬ A (f.addr u i))
    (s : State) : SparedEnds (State.Alike A s) where
  quiet hr h := State.Alike.quiet h hr
  write h hf _ hl u i v := State.Alike.write h hl (hA _ (by simp [hf]) u i) v
  writeEnd h hf _ hl u i v := State.Alike.write h hl (hA _ (by simp [hf]) u i) v
  refusal h p r src a := State.refusal_bears (fun hr h => State.Alike.quiet h hr) (fun h hf v =>
    State.Alike.fset h ((by decide : ∀ g ∈ refusalFields, g.lo < 64) _ hf) (hA _ (by simp [hf]) 0 0) v) h p r src a

/-- The field lies apart from the tower registers, whichever unit is taken. -/
def Field.offTowers (f : Field) : Bool :=
  f.blk == .prot && f.stride == 0 && decide (f.off < 0x28) || decide (0x100000 ≤ (blkBase f.blk).1)

/-- So no end of a command writes a tower register. -/
theorem Field.offTowers_addr {f : Field} (hf : f.offTowers = true) (u i : Nat) : ¬ towerRegister (f.addr u i) := by
  simp only [Field.offTowers, Bool.or_eq_true, Bool.and_eq_true, beq_iff_eq, decide_eq_true_eq] at hf
  simp only [towerRegister, Field.addr]
  rcases hf with ⟨⟨hb, hs⟩, ho⟩ | hb
  · simp only [hb, hs, blkBase]
    omega
  · omega

/-- The ends of commands leave the tower registers. -/
theorem sparedEnds_towers (s : State) : SparedEnds (State.Alike towerRegister s) :=
  sparedEnds_alike (fun f hf => Field.offTowers_addr ((by decide : ∀ g ∈ workFields ++ endFields ++ refusalFields,
    g.offTowers = true) f hf)) s

/-- The registers DECK_COUNT, behind the same bits of their addresses (Table 12.11). -/
def countRegister (a : Nat) : Prop := a % 0x100 = 0x34

/-- The field lies at other bits, whichever unit is taken. -/
def Field.offCount (f : Field) : Bool :=
  f.stride == 0 && f.off % 0x100 != 0x34 || f.stride == 0x10 && f.off % 0x10 != 4

/-- So no end of a command writes a DECK_COUNT. -/
theorem Field.offCount_addr {f : Field} (hf : f.offCount = true) (u i : Nat) : ¬ countRegister (f.addr u i) := by
  simp only [Field.offCount, Bool.or_eq_true, Bool.and_eq_true, beq_iff_eq, bne_iff_ne] at hf
  simp only [countRegister, Field.addr]
  rcases hf with ⟨hs, ho⟩ | ⟨hs, ho⟩
  all_goals
    rw [hs]
    cases f.blk
    all_goals
      simp only [blkBase]
      omega

/-- The ends of commands leave DECK_COUNT. -/
theorem sparedEnds_counts (s : State) : SparedEnds (State.Alike countRegister s) :=
  sparedEnds_alike (fun f hf => Field.offCount_addr ((by decide : ∀ g ∈ workFields ++ endFields ++ refusalFields,
    g.offCount = true) f hf)) s

/-- A partition's DECK_COUNT.TIMEOUTS is read alike. -/
theorem State.Alike.timeouts {s t : State} (h : State.Alike countRegister s t) (u : Nat) :
    t.fget DECK_COUNT.TIMEOUTS u 0 = s.fget DECK_COUNT.TIMEOUTS u 0 := by
  refine h.fget (by decide) ?_
  simp only [countRegister, Field.addr, DECK_COUNT.TIMEOUTS, blkBase]
  omega

end Apart

section EndBy

variable {s t : State} {p x status detail : Nat}

/-- A command whose end has not been decided, and whose instance is not in a chunk, is ended (R322). -/
theorem State.endBy_ended (hh : t.homeHub p = s.homeHub p) (he : (t.execOf p x).ends = false)
    (hr : (t.execOf p x).regrow = none ∨ ∀ l, (t.execOf p x).stage ≠ .running l) :
    ∃ l, Ended s (t.endBy p x status detail false) p x l := by
  have free {u : State} (hu : State.Alike towerRegister t u) : State.Alike towerRegister t (u.letGo p x) :=
    (sparedEnds_towers t).letGo hu p x
  have let_go := (free .refl).homeHub p |>.trans hh
  have aborted (l : Nat) := (free ((sparedEnds_towers t).abortInst .refl p l)).homeHub p |>.trans hh
  unfold State.endBy
  dsimp only
  split
  · rename_i stage
    simp [Exec.ends, stage] at he
  · rename_i l stage
    have none : (t.execOf p x).regrow = none := hr.resolve_right (fun h => h l stage)
    rw [none]
    exact ⟨l, State.endCmd_ended p x l status detail [] (aborted l)⟩
  · rename_i l _
    exact ⟨l, State.endCmd_ended p x l status detail [] let_go⟩
  · exact ⟨0, .inl (State.endPlain_frees p x status detail let_go)⟩

/-- A command whose regrowth has a chunk running is marked to end after it (R174). -/
theorem State.endBy_marks {l : Nat} {w : Regrow} (hs : (t.execOf p x).stage = .running l)
    (hw : (t.execOf p x).regrow = some w) (he : (t.execOf p x).ends = false) :
    t.endBy p x status detail false =
      t.onExec p x (fun e => { e with regrow := some { w with cut := some (status, detail) } }) := by
  have uncut : w.cut = none := by simpa [Exec.ends, hs, hw] using he
  simp [State.endBy, hs, hw, uncut]

end EndBy

end Sys2Proof.Machine
end

section
/-!
SUPPORT. COMMAND_START, COMMAND_TIMEOUT, DECK_STOP, LATE_RESULT and EXEC_SLOT_QUARANTINE_END (R303, R307, R320 to R322).
-/

namespace Sys2Proof.Machine

section Decks

variable {s : State} {d : Nat}

/-- What the deck engine writes leaves the decks. -/
theorem State.engPut_decks (p a : Nat) (bs : List Byte) : (s.engPut p a bs).decks = s.decks :=
  Area.same.decks_eq (State.engPut_keeps (within_opened _ s) s p a bs (.refl _ s) .decks (by decide))

/-- The decision about a pre-emption leaves the decks and the start order. -/
theorem State.preDecide_decks (p : Nat) : (s.preDecide p).decks = s.decks ∧ (s.preDecide p).startNo = s.startNo := by
  obtain ⟨decks, -, -, startNo, -⟩ := State.preDecide_keeps (within_opened _ s) s p (.refl _ s) .decks (by decide)
  exact ⟨decks.symm, startNo.symm⟩

/-- A changed command leaves the decks. -/
@[simp] theorem State.deck_onExec (p x : Nat) (f : Exec → Exec) (k : Nat) : (s.onExec p x f).deck k = s.deck k := rfl

/-- The start order counts no deck. -/
@[simp] theorem State.deck_withStartNo (n k : Nat) : (s.withStartNo n).deck k = s.deck k := rfl

/-- A raised vector leaves the decks. -/
@[simp] theorem State.deck_raise1 (port fn v k : Nat) : (s.raise1 port fn v).deck k = s.deck k :=
  State.deck_congr (by simp) k

/-- A completion record leaves what the deck has fetched and whether it is being stopped (R308). -/
theorem State.deckRecord_fetched (tag status : Nat) (late : Bool) (detail : Nat) (irq : Bool) (k : Nat) :
    ((s.deckRecord d tag status late detail irq).deck k).fetched = (s.deck k).fetched ∧
      ((s.deckRecord d tag status late detail irq).deck k).stopping = (s.deck k).stopping := by
  have same (p a : Nat) (bs : List Byte) := State.deck_congr (s.engPut_decks p a bs)
  have told (p a : Nat) (bs : List Byte) (f : Deck → Deck) (hf : ∀ c, (f c).fetched = c.fetched ∧ (f c).stopping = c.stopping) :
      (((s.engPut p a bs).onDeck d f).deck k).fetched = (s.deck k).fetched ∧
        (((s.engPut p a bs).onDeck d f).deck k).stopping = (s.deck k).stopping := by
    rw [State.deck_onDeck, same, same]
    split
    · rename_i e
      rw [e]
      exact hf _
    · exact ⟨rfl, rfl⟩
  unfold State.deckRecord
  refine keeps_ite (P := fun t => (t.deck k).fetched = (s.deck k).fetched ∧ (t.deck k).stopping = (s.deck k).stopping) ?_
    (told _ _ _ _ fun _ => ⟨rfl, rfl⟩)
  rw [State.deck_raise1]
  exact told _ _ _ _ fun _ => ⟨rfl, rfl⟩

/-- The check of a deck that is not being stopped does nothing (R322). -/
theorem State.stopCheck_not (h : (s.deck d).stopping = none) : s.stopCheck d = s := by
  simp [State.stopCheck, h]

/-- A command that completes on a deck that is not being stopped leaves what the deck has fetched (R308). -/
theorem State.complete_fetched {p x : Nat} (hd : (s.execOf p x).deck = d) (h : (s.deck d).stopping = none)
    (status detail : Nat) : ((s.complete p x status detail).deck d).fetched = (s.deck d).fetched := by
  subst hd
  have recorded : ∀ t, t = (if (s.execOf p x).silent then s else s.deckRecord (s.execOf p x).deck ((s.execOf p x).f 2 2) status
      (s.execOf p x).lateSeen detail (!unreadable (s.execOf p x).entry && ((s.execOf p x).f 1 1).testBit 0)) →
      (t.deck (s.execOf p x).deck).fetched = (s.deck (s.execOf p x).deck).fetched ∧
        (t.deck (s.execOf p x).deck).stopping = (s.deck (s.execOf p x).deck).stopping := by
    rintro t rfl
    exact keeps_ite (P := fun t => (t.deck (s.execOf p x).deck).fetched = (s.deck (s.execOf p x).deck).fetched ∧
      (t.deck (s.execOf p x).deck).stopping = (s.deck (s.execOf p x).deck).stopping) ⟨rfl, rfl⟩
      (State.deckRecord_fetched ..)
  obtain ⟨fetched, stopping⟩ := recorded _ rfl
  unfold State.complete
  dsimp only
  rw [State.stopCheck_not (by rw [State.deck_onExec, stopping, h]), State.deck_onExec, fetched]

end Decks

section Start

variable {s : State} {d v t0 : Nat} {rest : List (Nat × Nat)}

/-- The deck's next command takes execution slot `x` (R303). -/
def State.startedIn (s : State) (d x v t0 : Nat) (rest : List (Nat × Nat)) : State :=
  let s1 := s.onDeck d (fun c => { c with fetched := rest, blocked := false })
  State.onExec (s1.withStartNo (s1.startNo + 1)) (s.deckPart d) x (fun e =>
    { busy := true, gen := !e.gen, deck := d, entry := v, fetched := t0, order := s.startNo, started := s.time })

/-- The command started. -/
theorem State.startedIn_exec (x : Nat) : (s.startedIn d x v t0 rest).execOf (s.deckPart d) x =
    { busy := true, gen := !(s.execOf (s.deckPart d) x).gen, deck := d, entry := v, fetched := t0, order := s.startNo,
      started := s.time } := by
  rw [State.startedIn, State.execOf_onExec]
  rfl

/-- The deck of the command started. -/
theorem State.startedIn_deck (x : Nat) :
    (s.startedIn d x v t0 rest).deck d = { s.deck d with fetched := rest, blocked := false } := by
  rw [State.startedIn, State.deck_onExec, State.deck_withStartNo, State.deck_onDeck, if_pos rfl]

variable (hd : d < 32768) (hf : (s.deck d).fetched = (v, t0) :: rest) (hl : s.deckLive d = true) (hc : s.tree.cut = false)
include hd hf hl hc

/-- COMMAND_START without a free slot marks the deck blocked (R303). -/
theorem exec_commandStart_full (hx : s.freeSlot (s.deckPart d) = none) :
    exec (.commandStart d) s = ok true s (s.onDeck d (fun c => { c with blocked := true })) := by
  have deck : deckOk d = true := decide_eq_true hd
  change ok (deckOk d) s _ = _
  rw [deck, hf]
  simp only [hl, hc, hx, Bool.not_true, Bool.or_self, Bool.false_eq_true, if_false]

variable {x : Nat} (hx : s.freeSlot (s.deckPart d) = some x) (hs : s.canStart d v = true)
include hx hs

/-- COMMAND_START of an entry without a faulty byte (R303). -/
theorem exec_commandStart_good (hb : s.badByte (s.deckPart d) v = none) :
    exec (.commandStart d) s = ok true s ((s.startedIn d x v t0 rest).preDecide (s.deckPart d)) := by
  have deck : deckOk d = true := decide_eq_true hd
  change ok (deckOk d) s _ = _
  rw [deck, hf]
  simp only [hl, hc, hx, hs, hb, Bool.not_true, Bool.or_self, Bool.false_eq_true, if_false]
  rfl

/-- COMMAND_START of an entry with a faulty byte: it completes at once (R307). -/
theorem exec_commandStart_bad {o : Nat} (hb : s.badByte (s.deckPart d) v = some o) :
    exec (.commandStart d) s = ok true s ((s.startedIn d x v t0 rest).complete (s.deckPart d) x 6 o) := by
  have deck : deckOk d = true := decide_eq_true hd
  change ok (deckOk d) s _ = _
  rw [deck, hf]
  simp only [hl, hc, hx, hs, hb, Bool.not_true, Bool.or_self, Bool.false_eq_true, if_false]
  rfl

end Start

section Timeout

variable {s : State} {d x lim : Nat}

/-- The count of a partition's timeouts, one higher. -/
def State.countTimeout (s : State) (p : Nat) : State := s.fcount DECK_COUNT.TIMEOUTS (0x9000 + p) 0

/-- COMMAND_TIMEOUT of a started command whose limit has passed and whose end has not been decided (R320). -/
theorem exec_commandTimeout_started (hd : d < 32768) (hx : x < 1024) (hb : (s.execOf (s.deckPart d) x).busy = true)
    (he : (s.execOf (s.deckPart d) x).deck = d)
    (hlim : limitOf (s.execOf (s.deckPart d) x).entry (s.execOf (s.deckPart d) x).fetched = some lim) (ht : lim ≤ s.time)
    (hends : (s.execOf (s.deckPart d) x).ends = false) : exec (.commandTimeout d x true) s = ok true s
      ((s.countTimeout (s.deckPart d)).endBy (s.deckPart d) x 2 (s.overrun lim) false) := by
  have wf : (deckOk d && decide (x < 1024)) = true := by simp [deckOk, hd, hx]
  change ok (deckOk d && decide (x < 1024)) s _ = _
  rw [wf]
  have late : decide (s.time < lim) = false := by simpa using ht
  simp only [hlim, hb, he, hends, late, if_true, bne_self_eq_false, Bool.not_true, Bool.or_self, Bool.false_eq_true, if_false]
  rfl

/-- The count of timeouts is no command, and no home hub. -/
theorem State.countTimeout_execOf (p q y : Nat) : (s.countTimeout p).homeHub q = s.homeHub q ∧
    (s.countTimeout p).execOf q y = s.execOf q y := by
  have alike : State.Alike towerRegister s (s.countTimeout p) := by
    refine State.Alike.fset .refl (by decide) ?_ _
    simp only [towerRegister, Field.addr, DECK_COUNT.TIMEOUTS, blkBase]
    omega
  have hub := alike.homeHub q
  exact ⟨hub, by rw [State.execOf, State.execKey, hub]; rfl⟩

end Timeout

section Stop

variable {s : State} {who : Accessor} {d : Nat}

/-- A deck that is being stopped, with no command in execution, is disabled (R322). -/
theorem State.stopCheck_idle {silent : Bool} (hs : (s.deck d).stopping = some silent) (hx : s.deckExecs d = []) :
    ∃ u : State, s.stopCheck d = (u.fset DECK_CFG.EN d 0 0).onDeck d (fun c =>
      { c with state := 3, fetched := [], stopping := none, remembered := false, blocked := false }) := by
  unfold State.stopCheck
  rw [hs]
  exact ⟨_, if_neg (by simp [hx])⟩

/-- DECK_STOP of a deck with no command in execution disables it (R322). -/
theorem State.stopDeck_idle (hen : s.fget DECK_CFG.EN d 0 ≠ 0) (hx : s.deckExecs d = [])
    (hp : ∀ y e, (y, e) ∈ s.partExecs (s.deckPart d) → e.deck ≠ d) :
    ∃ u : State, s.stopDeck d false false = (u.fset DECK_CFG.EN d 0 0).onDeck d (fun c =>
      { c with state := 3, fetched := [], stopping := none, remembered := false, blocked := false }) := by
  have none : (s.partExecs (s.deckPart d)).filter (fun x => x.2.deck == d) = [] := by
    rw [List.filter_eq_nil_iff]
    exact fun x hx => by simpa using hp x.1 x.2 hx
  obtain ⟨u, hu⟩ := State.stopCheck_idle (s := s.onDeck d (fun c => { c with stopping := some (false || c.stopping == some true) }))
    (d := d) (by rw [State.deck_onDeck, if_pos rfl]) hx
  refine ⟨u, ?_⟩
  unfold State.stopDeck
  rw [if_neg hen]
  dsimp only
  rw [none]
  exact hu

end Stop

section Late

variable {s : State} {p x : Nat}

/-- LATE_RESULT for a slot that is free is counted, and its event is set (R321). -/
theorem exec_lateResult_free (h : slotOk p x = true) (hb : (s.execOf p x).busy = false) (gen : Bool) :
    exec (.lateResult p x gen) s = ok true s
      ((s.fcount DECK_COUNT.LATE (0x9000 + p) 0).evt DECK_EVENT.LATE (s.execOf p x).deck 0 1 none) := by
  change ok (slotOk p x) s _ = _
  rw [h]
  simp only [hb, Bool.false_and, Bool.false_eq_true, if_false]

/-- A deck's events lie apart from the partitions' counts. -/
theorem deckCount_ne_event (p d : Nat) : DECK_COUNT.LATE.key (0x9000 + p) 0 ≠ DECK_EVENT.LATE.key d 0 := by
  simp only [Field.key, Field.addr, DECK_COUNT.LATE, DECK_EVENT.LATE, blkBase]
  omega

/-- EXEC_SLOT_QUARANTINE_END waits for its time (R321). -/
theorem exec_quarantineEnd {q : Nat} (h : slotOk p x = true) (hq : (s.execOf p x).quarantine = some q) :
    exec (.execSlotQuarantineEnd p x) s =
      ok true s (if s.time ≥ q then s.onExec p x (fun e => { e with quarantine := none }) else s) := by
  change ok (slotOk p x) s _ = _
  rw [h, hq]

end Late

section Start

variable {s : State} {d v t0 : Nat} {rest : List (Nat × Nat)}

/-- A command is at its key in the table of commands. -/
theorem State.execOf_get (s : State) (p x : Nat) : Tbl.get {} s.execs (s.execKey p x) = s.execOf p x := rfl

/-- The home hub of the command started is the deck's partition's. -/
theorem State.startedIn_homeHub (x p : Nat) : (s.startedIn d x v t0 rest).homeHub p = s.homeHub p := rfl

end Start

end Sys2Proof.Machine
end

section
/-!
PROOF. O15.
-/

namespace Sys2Proof.Machine

/-- Settles O15: command by command; what a record or an end writes lies apart from what the statement reads. -/
theorem commandsTakeExecutionSlots : Obligations.CommandsTakeExecutionSlots := by
  unfold Obligations.CommandsTakeExecutionSlots
  intro s d hd
  refine ⟨fun v t0 rest hf hl hc => ⟨fun x hx hs => ⟨fun hb => ?_, fun o hb => ?_⟩, fun hx => ?_⟩, fun x lim hx hb he hlim ht
    hends => ?_, fun who hw hdeck hen hx hp _ => ?_, fun p x gen h hb => ?_, fun p x q h hq => ?_⟩
  · obtain ⟨decks, number⟩ := (s.startedIn d x v t0 rest).preDecide_decks (s.deckPart d)
    refine answers_with ⟨?_, number, ?_⟩ (fun _ _ h => h) (exec_commandStart_good hd hf hl hc hx hs hb)
    · rw [State.deck_congr decks, State.startedIn_deck]
    · rw [State.preDecide_execs]
      exact State.startedIn_exec x
  · have started : ((s.startedIn d x v t0 rest).execOf (s.deckPart d) x).deck = d := by rw [State.startedIn_exec]
    refine answers_with (P := fun t => (t.deck d).fetched = rest ∧ Freed s t (s.deckPart d) x)
      ⟨?_, State.complete_frees _ x 6 o (State.startedIn_homeHub x _)⟩ (fun _ q h => ⟨h.1, h.2.withQueue q⟩)
      (exec_commandStart_bad hd hf hl hc hx hs hb)
    · have on : (s.deck d).stopping = none := by
        simp only [State.deckLive, State.deckOn, Bool.and_eq_true, Option.isNone_iff_eq_none] at hl
        exact hl.1.1.1.2.2
      rw [State.complete_fetched started (by rw [State.startedIn_deck]; exact on),
        State.startedIn_deck]
  · refine ⟨_, exec_commandStart_full hd hf hl hc hx, ?_, rfl, rfl, rfl⟩
    rw [State.deck_congr (s := s.onDeck d (fun c => { c with blocked := true })) (by simp), State.deck_onDeck, if_pos rfl]
  · have counted := s.countTimeout_execOf (s.deckPart d)
    refine answers_with ⟨fun hr => ?_, fun l w hl hw => ?_, ?_⟩ (fun _ _ h => h)
      (exec_commandTimeout_started hd hx hb he hlim ht hends)
    · refine State.endBy_ended (counted _ x).1 ?_ ?_
      · rwa [(counted _ x).2]
      · rwa [(counted _ x).2]
    · rw [State.endBy_marks (by rw [(counted _ x).2, hl]) (by rw [(counted _ x).2, hw]) (by rw [(counted _ x).2, hends])]
      have key : s.execKey (s.deckPart d) x = (s.countTimeout (s.deckPart d)).execKey (s.deckPart d) x := by
        rw [State.execKey, State.execKey, (counted _ x).1]
      rw [key]
      exact congrArg Exec.regrow (State.execOf_onExec ..)
    · rw [((sparedEnds_counts _).endBy .refl ..).timeouts, State.countTimeout, State.fcount, State.fget_fset_same]
      exact Nat.mod_eq_of_lt (Nat.lt_of_le_of_lt (Nat.min_le_right ..) (by decide))
  · obtain ⟨u, hu⟩ := State.stopDeck_idle hen hx hp
    refine answers_with ⟨?_, ?_, ?_, ?_⟩ (fun _ _ h => h) (u := s.stopDeck d false false) (q := s.pending) ?_
    · rw [hu, State.fget_onDeck, State.fget_fset_same]
      rfl
    · rw [hu, State.deck_onDeck, if_pos rfl]
    · rw [hu, State.deck_onDeck, if_pos rfl]
    · rw [hu, State.deck_onDeck, if_pos rfl]
    · change ok who.wf s _ = _
      rw [hw, hdeck, ok_true]
  · refine answers_with ⟨?_, State.fget_evt_one _ rfl .., ?_⟩ (fun _ _ h => h) (exec_lateResult_free h hb gen)
    · rw [State.fget_evt_ne _ (deckCount_ne_event p _), State.fcount, State.fget_fset_same]
      exact Nat.mod_eq_of_lt (Nat.lt_of_le_of_lt (Nat.min_le_right ..) (by decide))
    · exact ⟨by simp [State.fcount], by simp [State.fcount]⟩
  · refine ⟨fun now => ?_, fun later => ?_⟩
    · rw [exec_quarantineEnd h hq, if_pos now]
      exact ok_of_pending rfl
    · rw [exec_quarantineEnd h hq, if_neg (Nat.not_le.mpr later)]
      exact ok_of_pending rfl

end Sys2Proof.Machine
end

section
/-!
PROOF. WEIGHT_LOAD and RESERVATION_RETRY (R168, R316).
-/

namespace Sys2Proof.Machine

/-- The destination of a WEIGHT_LOAD is a tile of the partition, aligned, and holds it. -/
abbrev State.loadFits (s : State) (p : Nat) (e : Exec) : Prop :=
  e.f 16 1 < 64 ∧ s.tilePart (e.f 16 1) = some p ∧ s.tileUsable (e.f 16 1) = true ∧ e.f 32 8 % 64 = 0 ∧ e.f 40 8 % 64 = 0 ∧
    e.f 32 8 + e.f 40 8 ≤ t0Size

/-- The status of a WEIGHT_LOAD of some bytes: CHECK compares their CRC. -/
def loadStatus (e : Exec) (bs : List Byte) : Nat := if (e.f 17 1).testBit 0 && e.f 20 4 != crc32c bs then 0x11 else 0x00

/-- WEIGHT_LOAD: its destination, its length, and what its source answers (R316). -/
theorem exec_weightLoad {s : State} {p x : Nat} {e : Exec} (hp : slotOk p x = true) (hs : s.Startable 6 p x e) :
    exec (.weightLoad p x) s = .next (State.withQueue (if ¬ s.loadFits p e then s.endPlain p x 0x05 3
      else if e.f 40 8 = 0 then s.endPlain p x (loadStatus e []) (crc32c [])
      else match s.engGet p (e.f 24 8) (e.f 40 8) with
        | .wait => s
        | .refused t => t.endPlain p x 0x05 2
        | .bytes bs _ => ((s.loadWords p (e.f 24 8) (t0At (e.f 16 1) (e.f 32 8)) bs).engTouch 7 p 1 (e.f 24 8)
            (e.f 40 8)).endPlain p x (loadStatus e bs) (crc32c bs)) s.pending) := by
  refine (ok_runCmd hp hs _).trans (congrArg (fun u : State => Host.Outcome.next (u.withQueue s.pending)) ?_)
  have check : (!(decide (e.f 16 1 < 64) && s.tilePart (e.f 16 1) == some p && s.tileUsable (e.f 16 1) &&
      e.f 32 8 % 64 == 0 && e.f 40 8 % 64 == 0 && decide (e.f 32 8 + e.f 40 8 ≤ t0Size))) = decide (¬ s.loadFits p e) := by
    rw [decide_not]
    congr 1
    simp only [State.loadFits, Bool.decide_and, Bool.and_assoc, beq_eq_decide, Bool.decide_eq_true]
  dsimp only
  rw [check]
  simp only [decide_eq_true_eq]
  rfl

/-- A partition whose slots exist exists. -/
theorem partOk_of_slotOk {p x : Nat} (h : slotOk p x = true) : partOk p = true := by
  simp only [slotOk, Bool.and_eq_true] at h
  exact h.1

/-- RESERVATION_RETRY where no reservation is suspended. -/
theorem exec_reservationRetry_none {s : State} {p : Nat} (hp : partOk p = true) (h : s.firstSuspended p = none) :
    exec (.reservationRetry p) s = .next s := by
  change ok (partOk p) s _ = _
  rw [hp, h]
  exact ok_of_pending rfl

/-- RESERVATION_RETRY of a suspended KV_COPY (R168). -/
theorem exec_reservationRetry_copy {s : State} {p y : Nat} {f : Exec} (hp : partOk p = true)
    (h : s.firstSuspended p = some (y, f)) (hh : s.halted = false) (ho : f.opcode = 2) :
    exec (.reservationRetry p) s = .next ((s.copyGo p y).withQueue s.pending) := by
  change ok (partOk p) s _ = _
  rw [hp, h, ok_true]
  simp only [hh, ho, Bool.false_eq_true, if_false, if_true]

/-- Settles O19: WEIGHT_LOAD by its checks in turn, then by what its source answers; a retry by who is first suspended. -/
theorem weightLoadWritesItsTile : Obligations.WeightLoadWritesItsTile := by
  unfold Obligations.WeightLoadWritesItsTile
  intro s p x e hp
  have part := partOk_of_slotOk hp
  refine ⟨fun hs => ⟨fun bad => ?_, fun good empty => ?_, fun good some wait => ?_, fun t good some refused => ?_,
    fun bs bad good some read => ?_⟩, exec_reservationRetry_none part, fun y f => exec_reservationRetry_copy part⟩
  all_goals rw [exec_weightLoad hp hs]
  · rw [if_pos bad]
  · rw [if_neg (not_not.mpr good), if_pos empty]
    rfl
  all_goals rw [if_neg (not_not.mpr good), if_neg some]
  · rw [wait]
    rfl
  · rw [refused]
  · rw [read]
    rfl

end Sys2Proof.Machine
end

section
/-!
PROOF. FABRIC_SEND and SEND_CONTEXT_GRANT (R318, R381): a read refused at ingress (R189), and the refusal bit, which no end of a
command clears (R330).
-/

namespace Sys2Proof.Machine

section Refusals

variable {s : State}

/-- A free draw leaves the registers. -/
theorem State.draw_regs (s : State) : s.draw.regs = s.regs := by simp

/-- A read refused at ingress writes what a refusal writes (R189, R330). -/
theorem State.engGet_refused {P : State → Prop} (hP : SparedEnds P) (h : P s) {p a n : Nat} {u : State}
    (hg : s.engGet p a n = .refused u) : P u := by
  unfold State.engGet at hg
  dsimp only at hg
  split at hg
  · cases hg
    exact hP.windowMiss h ..
  · split at hg
    · cases hg
      exact hP.refusal h ..
    · split at hg
      all_goals cases hg

/-- So the home hubs are as they were. -/
theorem State.engGet_refused_homeHub {p a n : Nat} {u : State} (hg : s.engGet p a n = .refused u) (q : Nat) :
    u.homeHub q = s.homeHub q :=
  (State.engGet_refused (sparedEnds_towers s) .refl hg).homeHub q

/-- The refusal bit is set. -/
def State.Refused (s : State) : Prop := s.fget PROT_EVENT.REFUSED 0 0 = 1

/-- A refusal sets its bit (R330). -/
theorem State.refused_refusal (p : Nat) (r : Right) (src a : Nat) : (s.refusal p r src a).Refused := by
  have flagged : (s.evt PROT_EVENT.REFUSED 0 0 1 (some p)).Refused := State.fget_evt_one _ rfl ..
  refine keeps_ite flagged ?_
  have aside {t : State} {f : Field} (hk : PROT_EVENT.REFUSED.key 0 0 ≠ f.key 0 0) (v : Nat) (ht : t.Refused) :
      (t.fset f 0 0 v).Refused := (State.fget_fset_ne t hk).trans ht
  exact aside (by decide) _ (aside (by decide) _ (aside (by decide) _ (aside (by decide) _ (aside (by decide) _ flagged))))

/-- A register of hubs, tiles or decks written leaves the bit. -/
theorem State.Refused.write {f : Field} (h : s.Refused) (hf : decide (0x100000 ≤ (blkBase f.blk).1) = true) {sh : Nat}
    (hl : f.lo + sh < 64) (u i v : Nat) : (s.fsetAt f u i sh v).Refused := by
  have alike : State.Alike (· = PROT_EVENT.REFUSED.addr 0 0) s (s.fsetAt f u i sh v) := by
    refine State.Alike.write .refl hl ?_ v
    simp only [decide_eq_true_eq] at hf
    simp only [Field.addr, PROT_EVENT.REFUSED, blkBase] at hf ⊢
    omega
  exact (alike.fget (by decide) rfl).trans h

/-- No end of a command clears it. -/
theorem sparedEnds_refused : SparedEnds State.Refused where
  quiet hr h := (State.fget_congr hr ..).trans h
  write h hf _ hl := h.write ((by decide : ∀ g ∈ workFields, decide (0x100000 ≤ (blkBase g.blk).1) = true) _ hf) hl
  writeEnd h hf _ hl := h.write ((by decide : ∀ g ∈ endFields, decide (0x100000 ≤ (blkBase g.blk).1) = true) _ hf) hl
  refusal _ := State.refused_refusal

end Refusals

section Commands

variable {s : State} {p x : Nat} {e : Exec} (hp : slotOk p x = true)
include hp

/-- A command to the fabric engine whose message code is among those asked for. -/
theorem ok_runSend {q : Nat → Bool} (hs : s.Startable 12 p x e) (hq : q (e.f 16 1) = true) (f : Exec → State) :
    ok (slotOk p x) s (s.runSend p x q f) = .next ((f e).withQueue s.pending) := by
  rw [State.runSend, ok_runCmd hp hs, if_pos hq]

/-- A FABRIC_SEND of a message code: its right, then a send context (R318, R381). -/
theorem exec_fabricSend (hs : s.Startable 12 p x e) (hm : e.f 16 1 < 0x20) : exec (.fabricSend p x) s = .next (State.withQueue
    (if !s.admitsFabric p .send (e.f 20 4 % 2 ^ 20) then s.sendRefused p x (e.f 20 4 % 2 ^ 20)
     else match s.freeCtx (s.homeHub p) with
       | some k => if s.tree.cut then s.onExec p x (fun e => { e with stage := .waiting }) else s.sendStream k p x
       | none => s.onExec p x (fun e => { e with stage := .waiting })) s.pending) := by
  refine (ok_runSend hp hs (decide_eq_true hm) _).trans ?_
  cases s.freeCtx (s.homeHub p)
  all_goals rfl

/-- SEND_CONTEXT_GRANT for a command that waits for a context (R381). -/
theorem exec_sendContextGrant_none (hw : s.waitsCtx p x (s.execOf p x) = true) (hh : s.halted = false)
    (hk : s.freeCtx (s.homeHub p) = none) : exec (.sendContextGrant p x) s = .next s := by
  change ok (slotOk p x) s _ = _
  simp only [hp, hw, hh, hk, Bool.not_true, Bool.or_self, Bool.false_eq_true, if_false]
  exact ok_of_pending rfl

/-- A FABRIC_SEND that waits obtains a free context (R381). -/
theorem exec_sendContextGrant_send {k : Nat} (hw : s.waitsCtx p x (s.execOf p x) = true) (hh : s.halted = false)
    (hk : s.freeCtx (s.homeHub p) = some k) (ho : (s.execOf p x).opcode = 12) :
    exec (.sendContextGrant p x) s = .next ((s.sendStream k p x).withQueue s.pending) := by
  change ok (slotOk p x) s _ = _
  simp only [hp, hw, hh, hk, ho, Bool.not_true, Bool.or_self, Bool.false_eq_true, if_false, if_true]
  rfl

end Commands

/-- Settles O20: FABRIC_SEND by its right and the free context; what ends it frees its slot, and the refusal bit stays set. -/
theorem fabricSendOpensOrWaits : Obligations.FabricSendOpensOrWaits := by
  unfold Obligations.FabricSendOpensOrWaits
  intro s p x e hp
  refine ⟨fun hs hm => ⟨fun barred => ?_, fun admitted => ⟨fun held => ?_, fun k free uncut => ⟨fun u refused => ?_, ?_⟩⟩⟩,
    fun hw hh => ⟨exec_sendContextGrant_none hp hw hh, fun k => exec_sendContextGrant_send hp hw hh⟩⟩
  · have hub : (((s.refusal p .send 3 (e.f 20 4 % 2 ^ 20)).draw).homeHub p) = s.homeHub p :=
      ((sparedEnds_towers s).quiet (State.draw_regs _) ((sparedEnds_towers s).refusal .refl p .send 3 _)).homeHub p
    refine answers_with (P := fun t => Freed s t p x ∧ t.Refused) ⟨?_, ?_⟩ (fun _ q h => h)
      ((exec_fabricSend hp hs hm).trans (by rw [barred, Bool.not_false, if_pos rfl, State.sendRefused]))
    · exact State.endPlain_frees p x 5 _ hub
    · exact sparedEnds_refused.endPlain (sparedEnds_refused.quiet (State.draw_regs _) (State.refused_refusal ..)) ..
  all_goals have send := (exec_fabricSend hp hs hm).trans (by rw [admitted, Bool.not_true, if_neg Bool.false_ne_true])
  · have waits : exec (.fabricSend p x) s =
        .next ((s.onExec p x (fun e => { e with stage := .waiting })).withQueue s.pending) := by
      rw [send]
      rcases held with none | cut
      · rw [none]
      · rw [cut]
        cases s.freeCtx (s.homeHub p)
        all_goals rfl
    exact ⟨_, waits, by rw [State.execOf_withQueue, State.execOf_onExec, hs.1], rfl, rfl, rfl⟩
  · refine answers_with (q := s.pending) (State.endPlain_frees p x 5 2 (State.engGet_refused_homeHub refused p))
      (fun _ q h => h.withQueue q) (send.trans ?_)
    rw [free, uncut]
    simp only [Bool.false_eq_true, if_false, State.sendStream, hs.1, refused]
  · rw [send, free, uncut]
    simp only [Bool.false_eq_true, if_false]

end Sys2Proof.Machine
end

section
/-!
PROOF. BARRIER, SNAPSHOT and BROADCAST arrive at the tree (R392, R393, R395): a routed message changes the links alone.
-/

namespace Sys2Proof.Machine

section Tree

variable {s : State}

/-- A routed message changes the links alone (R363). -/
theorem State.routed_same (s : State) (m : Msg) {a : Area} (ha : a ≠ .links) : Area.same s (s.routed m).1 a :=
  State.routed_keeps (within_opened _ s) s m (.refl _ s) a (by simpa using ha)

/-- So no register. -/
theorem State.routed_regs (s : State) (m : Msg) : (s.routed m).1.regs = s.regs :=
  (s.routed_same m (a := .registers) (by decide)).1.symm

/-- No command. -/
theorem State.routed_execOf (s : State) (m : Msg) (p x : Nat) : (s.routed m).1.execOf p x = s.execOf p x := by
  obtain ⟨-, execs, -⟩ := s.routed_same m (a := .decks) (by decide)
  have hub : (s.routed m).1.homeHub p = s.homeHub p := ((sparedEnds_towers s).quiet (s.routed_regs m) .refl).homeHub p
  rw [State.execOf, State.execOf, State.execKey, State.execKey, hub, execs]

/-- Not the tree. -/
theorem State.routed_tree (s : State) (m : Msg) : (s.routed m).1.tree = s.tree :=
  (s.routed_same m (a := .tree) (by decide)).symm

/-- No send context. -/
theorem State.routed_sendCtx (s : State) (m : Msg) : (s.routed m).1.sendCtx = s.sendCtx :=
  (s.routed_same m (a := .streams) (by decide)).1.symm

/-- The end of a command leaves the tree. -/
theorem State.endPlain_tree (p x status detail : Nat) : (s.endPlain p x status detail).tree = s.tree :=
  (State.endPlain_keeps (within_opened _ s) s p x status detail (.refl _ s) .tree (by decide)).symm

/-- What an engine's read does beside delivering bytes leaves the other areas. -/
theorem State.engTouch_same (s : State) (src p sev a n : Nat) {b : Area}
    (hb : b ∉ [Area.registers, .vectors, .memory, .controllers, .answers, .records, .management]) :
    Area.same s (s.engTouch src p sev a n) b :=
  State.engTouch_keeps (within_opened _ s) s src p sev a n (.refl _ s) b hb

end Tree

/-- What an engine's read does beside delivering bytes. -/
theorem Spared.engTouch {P : State → Prop} (hP : Spared P) {s : State} (h : P s) (src p sev a n : Nat) :
    P (s.engTouch src p sev a n) := by
  refine hP.withRsp (keeps_foldl (fun _ _ hu => ?_) h) _
  exact hP.readRange (hP.closeRange hu ..) ..

section Arrivals

variable {s : State} {p x : Nat} {e : Exec}

/-- One more local arrival at this epoch's barrier (R392). -/
def State.arrived (s : State) (p x : Nat) : State :=
  (s.onExec p x (fun e => { e with stage := .waiting })).onTree (fun t => { t with
    local_ := t.local_ + 1, waiting := t.waiting ++ [(p, x)], snap := t.snap || s.isSnap (p, x) })

/-- One more local arrival at the next epoch's. -/
def State.arrivedNext (s : State) (p x : Nat) : State :=
  (s.onExec p x (fun e => { e with stage := .waiting })).onTree (fun t => { t with
    localNext := t.localNext + 1, waitingNext := t.waitingNext ++ [(p, x)] })

/-- A partition that PARTS does not list may not arrive. -/
theorem State.gopArrive_unlisted (h : s.fbit FAB_BAR_CTL.PARTS 0 0 p = false) :
    s.gopArrive p x = s.draw.endPlain p x 0x05 (leNat (s.draw.freeBytes 4)) := by
  rw [State.gopArrive, h, if_neg Bool.false_ne_true]

/-- An arrival that is not yet the last only counts. -/
theorem State.barArrive_early (hs : s.tree.sentUp = false) (hl : s.tree.local_ + 1 < s.fget FAB_BAR_CTL.LOCAL_COUNT 0 0) :
    s.barArrive p x = s.arrived p x := by
  have few : s.tree.local_ < s.fget FAB_BAR_CTL.LOCAL_COUNT 0 0 := by omega
  unfold State.barArrive
  dsimp only
  rw [if_pos ⟨hs, few⟩]
  refine if_pos ?_
  have short : decide ((s.arrived p x).tree.local_ < (s.arrived p x).fget FAB_BAR_CTL.LOCAL_COUNT 0 0) = true :=
    decide_eq_true hl
  simp only [Bool.or_eq_true]
  exact .inl (.inr short)

/-- An arrival beyond LOCAL_COUNT, or after BAR_UP, counts toward the next epoch. -/
theorem State.barArrive_late (h : s.tree.sentUp = true ∨ s.fget FAB_BAR_CTL.LOCAL_COUNT 0 0 ≤ s.tree.local_) :
    s.barArrive p x = s.arrivedNext p x := by
  unfold State.barArrive
  refine if_neg fun ⟨unsent, few⟩ => ?_
  rcases h with sent | full
  · rw [sent] at unsent
    exact Bool.noConfusion unsent
  · omega

/-- The tree after an arrival; memory and registers are as they were. -/
theorem State.arrived_shows : (s.arrived p x).tree = { s.tree with
    local_ := s.tree.local_ + 1, waiting := s.tree.waiting ++ [(p, x)], snap := s.tree.snap || s.isSnap (p, x) } ∧
    (s.arrived p x).mem = s.mem ∧ (s.arrived p x).regs = s.regs := ⟨rfl, rfl, rfl⟩

/-- The tree after an arrival toward the next epoch; memory and registers are as they were. -/
theorem State.arrivedNext_shows : (s.arrivedNext p x).tree = { s.tree with
    localNext := s.tree.localNext + 1, waitingNext := s.tree.waitingNext ++ [(p, x)] } ∧
    (s.arrivedNext p x).mem = s.mem ∧ (s.arrivedNext p x).regs = s.regs := ⟨rfl, rfl, rfl⟩

/-- The command of an arrival waits. -/
theorem State.execOf_arrived : (s.arrived p x).execOf p x = { s.execOf p x with stage := .waiting } ∧
    (s.arrivedNext p x).execOf p x = { s.execOf p x with stage := .waiting } := by
  have waits := State.execOf_onExec s p x (fun e => { e with stage := .waiting })
  exact ⟨waits, waits⟩

variable (hp : slotOk p x = true) (hs : s.Startable 12 p x e)
include hp hs

/-- A command to the fabric engine of a message code. -/
theorem ok_runSend_code {code : Nat} (hm : e.f 16 1 = code) (f : Exec → State) :
    ok (slotOk p x) s (s.runSend p x (· == code) f) = .next ((f e).withQueue s.pending) :=
  ok_runSend (q := (· == code)) hp hs (beq_iff_eq.mpr hm) f

/-- BARRIER and SNAPSHOT arrive (R392, R395). -/
theorem exec_gopArrive {cmd : Instr} {code : Nat} {snap : Bool} (hc : (cmd = .barrier p x ∧ code = 0x20 ∧ snap = false) ∨
    (cmd = .snapshot p x ∧ code = 0x22 ∧ snap = true)) (hm : e.f 16 1 = code) :
    exec cmd s = .next ((s.gopArrive p x).withQueue s.pending) ∧ s.isSnap (p, x) = snap := by
  have code_of : s.isSnap (p, x) = (e.f 16 1 == 0x22) := by rw [State.isSnap, hs.1]
  rw [code_of, hm]
  rcases hc with ⟨rfl, rfl, rfl⟩ | ⟨rfl, rfl, rfl⟩
  · exact ⟨ok_runSend_code hp hs hm _, rfl⟩
  · exact ⟨ok_runSend_code hp hs hm _, rfl⟩

/-- A BROADCAST whose body is refused ends (R393). -/
theorem exec_broadcast_refused {u : State} (hm : e.f 16 1 = 0x21) (hg : s.engGet p (e.f 24 8) (e.f 40 8) = .refused u) :
    exec (.broadcast p x) s = .next ((u.endPlain p x 0x05 2).withQueue s.pending) := by
  refine (ok_runSend_code hp hs hm _).trans ?_
  rw [hg]

/-- The command of a BROADCAST waits as the last of this device's (R393). -/
def State.castWaiting (s : State) (p x : Nat) (e : Exec) : State :=
  ((s.engTouch 7 p 1 (e.f 24 8) (e.f 40 8)).onExec p x (fun e => { e with stage := .waiting })).onTree
    (fun r => { r with casts := r.casts ++ [(p, x)] })

omit hp hs in
/-- Its tree parent is as it was: what a read of a source writes lies apart from it. -/
theorem State.castWaiting_parent : (s.castWaiting p x e).parent = s.parent := by
  have kept : s.LowKept (s.castWaiting p x e) :=
    ((spared_lowKept s).engTouch (.refl s) 7 p 1 (e.f 24 8) (e.f 40 8)).quiet (by rfl)
  rw [State.parent, State.parent, kept.fget (g := FAB_TREE_PARENT.VALID) (by decide),
    kept.fget (g := FAB_TREE_PARENT.ADDR) (by decide)]

omit hp hs in
/-- Its command waits. -/
theorem State.execOf_castWaiting : ((s.castWaiting p x e).execOf p x).stage = .waiting :=
  congrArg Exec.stage (State.execOf_onExec (s.engTouch 7 p 1 (e.f 24 8) (e.f 40 8)) p x
    (fun e => { e with stage := .waiting }))

omit hp hs in
/-- It is last among this device's; the streams are as they were. -/
theorem State.castWaiting_shows : (s.castWaiting p x e).tree.casts = s.tree.casts ++ [(p, x)] ∧
    (s.castWaiting p x e).sendCtx = s.sendCtx := by
  have touched {b : Area} := s.engTouch_same 7 p 1 (e.f 24 8) (e.f 40 8) (b := b)
  exact ⟨congrArg (fun r : Tree => r.casts ++ [(p, x)]) (touched (b := .tree) (by decide)).symm,
    (touched (b := .streams) (by decide)).1.symm⟩

/-- A BROADCAST whose body is read rises (R393). -/
theorem exec_broadcast_rises {bs : List Byte} {bad : Bool} {a : Nat} (hm : e.f 16 1 = 0x21)
    (hg : s.engGet p (e.f 24 8) (e.f 40 8) = .bytes bs bad) (ha : s.parent = some a) :
    ∃ m, exec (.broadcast p x) s = .next ((((s.castWaiting p x e).routed m).1).withQueue s.pending) := by
  refine ⟨?_, (ok_runSend_code hp hs hm _).trans ?_⟩
  rotate_left
  · have parent : (s.castWaiting p x e).parent = some a := State.castWaiting_parent.trans ha
    rw [hg]
    change Host.Outcome.next (State.withQueue (if (s.castWaiting p x e).parent.isNone && _ then s else
      (s.castWaiting p x e).castUp _) _) = _
    rw [parent, Option.isNone_some, Bool.false_and, if_neg Bool.false_ne_true, State.castUp, parent]

end Arrivals

/-- Settles O21: an arrival by PARTS and LOCAL_COUNT; a broadcast by what its body's read answers. -/
theorem globalOperationsArrive : Obligations.GlobalOperationsArrive := by
  unfold Obligations.GlobalOperationsArrive
  intro s p x e hp hs
  refine ⟨fun cmd code snap hc hm => ?_, fun hm => ⟨fun bs bad a read up => ?_, fun u refused => ?_⟩⟩
  · obtain ⟨arrives, is_snap⟩ := exec_gopArrive hp hs hc hm
    refine ⟨fun unlisted => ?_, fun listed unsent few => ?_, fun listed full => ?_⟩
    · have draw_hub : s.draw.homeHub p = s.homeHub p := ((sparedEnds_towers s).quiet (State.draw_regs s) .refl).homeHub p
      rw [State.gopArrive_unlisted unlisted] at arrives
      refine answers_with (P := fun t => Freed s t p x ∧ t.tree = s.tree) ⟨?_, ?_⟩ (fun _ q h => ⟨h.1.withQueue q, h.2⟩) arrives
      · exact State.endPlain_frees p x 5 _ draw_hub
      · rw [State.endPlain_tree]
        rfl
    all_goals
      rw [State.gopArrive, if_pos listed] at arrives
    · rw [State.barArrive_early unsent few] at arrives
      exact ⟨_, arrives, by rw [State.execOf_withQueue, State.execOf_arrived.1, hs.1], is_snap ▸ State.arrived_shows⟩
    · rw [State.barArrive_late full] at arrives
      exact ⟨_, arrives, by rw [State.execOf_withQueue, State.execOf_arrived.2, hs.1], State.arrivedNext_shows⟩
  · obtain ⟨m, rises⟩ := exec_broadcast_rises hp hs hm read up
    refine answers_with (P := fun t => (t.execOf p x).stage = .waiting ∧ t.tree.casts = s.tree.casts ++ [(p, x)] ∧
      t.sendCtx = s.sendCtx) ⟨?_, ?_, ?_⟩ (fun _ _ h => h) rises
    · rw [State.routed_execOf, State.execOf_castWaiting]
    · rw [State.routed_tree, State.castWaiting_shows.1]
    · rw [State.routed_sendCtx, State.castWaiting_shows.2]
  · exact answers_with (State.endPlain_frees p x 5 2 (State.engGet_refused_homeHub refused p)) (fun _ q h => h.withQueue q)
      (exec_broadcast_refused hp hs hm refused)

end Sys2Proof.Machine
end

section
/-!
PROOF. RESPONSE, RETRANSMIT_TIMEOUT, NOT_READY_RESEND and NOT_READY_LIMIT (R381 to R385): what a failed stream and a resend
leave of their context.
-/

namespace Sys2Proof.Machine

section Messages

variable {s : State} {m : Msg}

/-- A message taken from the inbox changes the links alone. -/
theorem State.takeMsg_same (s : State) (m : Msg) {a : Area} (ha : a ≠ .links) : Area.same s (s.takeMsg m) a :=
  State.takeMsg_keeps (within_opened _ s) s m (.refl _ s) a (by simpa using ha)

/-- So no register. -/
theorem State.takeMsg_regs (s : State) (m : Msg) : (s.takeMsg m).regs = s.regs :=
  (s.takeMsg_same m (a := .registers) (by decide)).1.symm

/-- And no command. -/
theorem State.takeMsg_homeHub (s : State) (m : Msg) (p : Nat) : (s.takeMsg m).homeHub p = s.homeHub p :=
  ((sparedEnds_towers s).quiet (s.takeMsg_regs m) .refl).homeHub p

/-- Not the time. -/
theorem State.takeMsg_time (s : State) (m : Msg) : (s.takeMsg m).time = s.time :=
  (s.takeMsg_same m (a := .clock) (by decide)).1.symm

/-- And no memory. -/
theorem State.takeMsg_mem (s : State) (m : Msg) : (s.takeMsg m).mem = s.mem :=
  (s.takeMsg_same m (a := .memory) (by decide)).1.symm

/-- A message that has arrived here is taken and acted on. -/
theorem State.onMsg_here {ty : Nat} (hi : s.inbox.contains m = true) (ht : m.ty = ty) (hd : m.ll = true ∨ m.dest = s.fabAddr)
    (f : State → State) : s.onMsg m ty f = f (s.takeMsg m) := by
  have here : (m.ll || m.dest == s.fabAddr) = true := by simpa using hd
  rw [State.onMsg, hi, ht, here, beq_self_eq_true, Bool.true_and, Bool.true_and, if_pos rfl]

end Messages

/-- A register of the fabric written leaves the tower registers. -/
theorem State.fset_fabric {s : State} {f : Field} (hb : f.blk = .fabric) (hl : f.lo < 64) (u i v : Nat) :
    State.Alike towerRegister s (s.fset f u i v) := by
  refine State.Alike.fset .refl hl ?_ v
  simp only [towerRegister, Field.addr, hb, blkBase]
  omega

section Streams

variable {s : State} {k : Nat}

/-- A changed send context is what it is changed to. -/
theorem State.sctx_onSctx (s : State) (k : Nat) (f : SendCtx → SendCtx) : (s.onSctx k f).sctx k = f (s.sctx k) := by
  rw [State.sctx, State.onSctx_sendCtx, Tbl.upd, Tbl.get_put_same, State.sctx]

/-- The contexts are those of the table. -/
theorem State.sctx_congr {t : State} (h : t.sendCtx = s.sendCtx) (k : Nat) : t.sctx k = s.sctx k := by
  rw [State.sctx, State.sctx, h]

/-- The end of a command with FABRIC_ERROR leaves the streams. -/
theorem State.fabricEnd_sendCtx (p x status : Nat) : (s.fabricEnd p x status).sendCtx = s.sendCtx :=
  (State.fabricEnd_keeps (within_opened _ s) s p x status (.refl _ s) .streams (by decide)).1.symm

/-- It frees the command's slot (R385). -/
theorem State.fabricEnd_frees {t : State} {p x : Nat} (status : Nat) (h : t.homeHub p = s.homeHub p) :
    Freed s (t.fabricEnd p x status) p x := by
  have unpinned : State.Alike towerRegister t ((t.execOf p x).written.foldl State.unpin t) :=
    keeps_foldl (fun _ _ hu => (sparedEnds_towers t).unpin hu _) .refl
  exact State.endPlain_frees p x 0x12 status ((unpinned.homeHub p).trans h)

/-- A stream that fails is over, and its command has ended (R385). -/
theorem State.streamFail_over {t : State} (hv : (t.sctx k).valid = true) (status : Nat)
    (h : t.homeHub (t.sctx k).part = s.homeHub (t.sctx k).part) :
    ((t.streamFail k status).sctx k).valid = false ∧ Freed s (t.streamFail k status) (t.sctx k).part (t.sctx k).slot := by
  unfold State.streamFail
  dsimp only
  rw [hv, Bool.not_true, if_neg Bool.false_ne_true]
  refine ⟨?_, State.fabricEnd_frees status h⟩
  rw [State.sctx_congr (State.fabricEnd_sendCtx ..), State.sctx_onSctx]

/-- Messages sent again leave the contexts, unless a destination is unreachable: then the stream is over (R384). -/
theorem State.resend_sctx (hv : (s.sctx k).valid = true) (ms : List Msg) :
    ((s.resend k ms).sctx k).valid = false ∨ (s.resend k ms).sctx k = s.sctx k := by
  have sent : (ms.foldl (fun (a : State × Bool) m =>
      ((a.1.sendMsg { m with resend := true }).1.fcount FAB_TP_COUNT.RESENDS 0 0, a.2 && (a.1.sendMsg { m with resend := true }).2))
      (s, true)).1.sctx k = s.sctx k := by
    refine keeps_foldl1 (P := fun t => t.sctx k = s.sctx k) (fun a m ha => ?_) rfl
    exact (State.sctx_congr (State.routed_sendCtx a.1 { m with resend := true }) k).trans ha
  unfold State.resend
  dsimp only
  split
  · exact .inr sent
  · exact .inl (State.streamFail_over (by rw [sent, hv]) 8 rfl).1

end Streams

section Response

variable {s : State} {m : Msg} {k : Nat} (hw : m.wf = true) (hi : s.inbox.contains m = true) (ht : m.ty = 8)
  (hd : m.ll = true ∨ m.dest = s.fabAddr) (hk : (s.takeMsg m).ctxOf m = some k) (hv : ((s.takeMsg m).sctx k).valid = true)
include hw hi ht hd hk hv

/-- A NOT_READY stands with the time of the first one (R384). -/
def State.standsNotReady (s : State) (k seq : Nat) : State :=
  s.onSctx k (fun c => { c with
    notReady := some (seq, match c.notReady with
      | some (_, t0) => t0
      | none => s.time)
    notReadyAt := if c.notReady.isSome then c.notReadyAt else s.time })

/-- RESPONSE for an open stream, by its status (R382, R384, R385). -/
theorem exec_response : exec (.response m) s = .next (State.withQueue (if m.status = 0 then (s.takeMsg m).acked k m.seq
    else if m.status = 1 then (s.takeMsg m).standsNotReady k m.seq
    else if m.status = 6 then (s.takeMsg m).reopen k else (s.takeMsg m).streamFail k m.status) s.pending) := by
  change ok m.wf s (s.onMsg m 8 _) = _
  rw [State.onMsg_here hi ht hd, hw, hk]
  dsimp only
  rw [hv, Bool.not_true, if_neg Bool.false_ne_true]
  rfl

end Response

section Acknowledged

variable {s : State} {k seq : Nat}

/-- An acknowledgement with which an ordered stream's unacknowledged messages become fewer, some of them left (R382). -/
theorem State.acked_some (ho : (s.sctx k).ordered = true) (hq : (s.sctx k).queue = [])
    (hl : ((s.sctx k).unacked.filter (fun q => decide (q.seq > seq))).length ≠ (s.sctx k).unacked.length)
    (hn : (s.sctx k).unacked.filter (fun q => decide (q.seq > seq)) ≠ []) :
    s.acked k seq = s.onSctx k (fun c => { c with
      unacked := (s.sctx k).unacked.filter (fun q => decide (q.seq > seq)), progressAt := s.time, tries := 0, notReady := none }) := by
  have left : (s.sctx k).ack seq = (s.sctx k).unacked.filter (fun q => decide (q.seq > seq)) := by rw [SendCtx.ack, if_pos ho]
  have idle {t : State} (h : (t.sctx k).queue = []) : t.pump k = t := by simp [State.pump, State.pumpGo, h]
  unfold State.acked
  dsimp only
  rw [left, if_neg hl, idle (by rw [State.sctx_onSctx, hq]), State.sctx_onSctx]
  refine if_neg ?_
  simp [hn]

end Acknowledged

section Timeouts

variable {s : State} {h i : Nat} (hh : h < 4) (hi : i < 1024)
include hh hi

/-- A send context exists. -/
theorem sctx_wf : (hubOk h && decide (i < 1024)) = true := by simp [hubOk, hh, hi]

variable (hv : (s.sctx (sctxKey h i)).valid = true)
include hv

/-- RETRANSMIT_TIMEOUT without progress for RTO_US (R384). -/
theorem exec_retransmitTimeout (hu : (s.sctx (sctxKey h i)).unacked ≠ []) (hn : (s.sctx (sctxKey h i)).notReady = none)
    (ht : (s.sctx (sctxKey h i)).progressAt + max 1 (s.fget FAB_TP_CTL.RTO_US 0 0) * 1000 ≤ s.time) :
    exec (.retransmitTimeout h i) s = .next (State.withQueue
      (if (s.sctx (sctxKey h i)).tries ≥ s.fget FAB_TP_CTL.RETRIES 0 0 then
        (s.fcount FAB_TP_COUNT2.TIMEOUTS 0 0).streamFail (sctxKey h i) 0x05
       else (s.onSctx (sctxKey h i) (fun c => { c with tries := c.tries + 1, progressAt := s.time })).resend (sctxKey h i)
         (s.sctx (sctxKey h i)).unacked) s.pending) := by
  have some : ((s.sctx (sctxKey h i)).unacked == []) = false := by simpa using hu
  have due : decide (s.time < (s.sctx (sctxKey h i)).progressAt + max 1 (s.fget FAB_TP_CTL.RTO_US 0 0) * 1000) = false :=
    decide_eq_false (by omega)
  change ok (hubOk h && decide (i < 1024)) s _ = _
  rw [sctx_wf hh hi, ok_true]
  dsimp only
  rw [hv, some, hn, due]
  rfl

variable {q t0 : Nat} (hn : (s.sctx (sctxKey h i)).notReady = some (q, t0))
include hn

/-- NOT_READY_RESEND of a NOT_READY that stands, by its time (R384). -/
theorem exec_notReadyResend : exec (.notReadyResend h i) s = .next (State.withQueue
    (if s.time ≥ (s.sctx (sctxKey h i)).notReadyAt + 100000 then
      (s.onSctx (sctxKey h i) (fun c => { c with notReadyAt := s.time })).resend (sctxKey h i)
        ((s.sctx (sctxKey h i)).unacked.filter (fun m => m.seq == q))
     else s) s.pending) := by
  change ok (hubOk h && decide (i < 1024)) s _ = _
  rw [sctx_wf hh hi, ok_true]
  dsimp only
  rw [hn]
  dsimp only
  rw [hv, Bool.true_and]
  simp only [decide_eq_true_eq]

/-- NOT_READY_LIMIT of a NOT_READY that stands, by the time of the first one (R384). -/
theorem exec_notReadyLimit : exec (.notReadyLimit h i) s = .next (State.withQueue
    (if s.time ≥ t0 + s.fget FAB_TP_CTL.NOTREADY_MS 0 0 * 1000000 then s.streamFail (sctxKey h i) 0x01 else s) s.pending) := by
  change ok (hubOk h && decide (i < 1024)) s _ = _
  rw [sctx_wf hh hi, ok_true]
  dsimp only
  rw [hn]
  dsimp only
  rw [hv, Bool.true_and]
  simp only [decide_eq_true_eq]

end Timeouts

/-- Settles O22: a RESPONSE by its status, a context by its times; what fails ends the stream's command. -/
theorem sendContextsFollowTheirAnswers : Obligations.SendContextsFollowTheirAnswers := by
  unfold Obligations.SendContextsFollowTheirAnswers
  refine fun s => ⟨fun m k hw hi ht hd => ?_, fun h i hh hi => ?_⟩
  · intro t0 c hk hv ho
    have answered := exec_response hw hi ht hd hk hv
    refine ⟨fun ok hq hl hn => ?_, fun not_ready => ?_, fun h0 h1 h6 => ?_⟩
    · rw [if_pos ok, State.acked_some ho hq hl hn] at answered
      refine answers_with (P := fun t => t.sctx k = _ ∧ t.mem = s.mem) ⟨?_, ?_⟩ (fun _ _ h => h) answered
      · rw [State.sctx_onSctx, State.takeMsg_time]
      · exact s.takeMsg_mem m
    · rw [if_neg (by omega), if_pos not_ready] at answered
      refine answers_with (P := fun t => (t.sctx k).notReady = _ ∧ (t.sctx k).unacked = _ ∧ t.mem = s.mem) ⟨?_, ?_, ?_⟩
        (fun _ _ h => h) answered
      · rw [State.standsNotReady, State.sctx_onSctx]
        dsimp only
        rw [State.takeMsg_time]
        change some (m.seq, _) = some (m.seq, (((s.takeMsg m).sctx k).notReady.map Prod.snd).getD s.time)
        cases ((s.takeMsg m).sctx k).notReady
        all_goals rfl
      · rw [State.standsNotReady, State.sctx_onSctx]
      · exact s.takeMsg_mem m
    · rw [if_neg h0, if_neg h1, if_neg h6] at answered
      exact answers_with (State.streamFail_over hv m.status (s.takeMsg_homeHub m _)) (fun _ q h => ⟨h.1, h.2.withQueue q⟩)
        answered
  · intro k c hv
    refine ⟨fun hu hn due => ⟨fun few => ?_, fun many => ?_⟩, fun q t0 hn => ⟨fun due => ?_, fun early => ?_, fun due => ?_,
      fun early => ?_⟩⟩
    · have timed := exec_retransmitTimeout hh hi hv hu hn due
      rw [if_neg (Nat.not_le.mpr few)] at timed
      refine answers_with (P := fun t => (t.sctx k).valid = false ∨ (t.sctx k).tries = _ ∧ (t.sctx k).unacked = _) ?_
        (fun _ _ h => h) timed
      refine (State.resend_sctx (by rw [State.sctx_onSctx]; exact hv) _).imp id fun same => ?_
      rw [same, State.sctx_onSctx]
      exact ⟨rfl, rfl⟩
    · have timed := exec_retransmitTimeout hh hi hv hu hn due
      rw [if_pos many] at timed
      have counted : (s.fcount FAB_TP_COUNT2.TIMEOUTS 0 0).homeHub c.part = s.homeHub c.part :=
        (State.fset_fabric (f := FAB_TP_COUNT2.TIMEOUTS) rfl (by decide) 0 0 _).homeHub c.part
      exact answers_with (State.streamFail_over (t := s.fcount FAB_TP_COUNT2.TIMEOUTS 0 0) hv 5 counted)
        (fun _ q h => ⟨h.1, h.2.withQueue q⟩) timed
    · have timed := exec_notReadyResend hh hi hv hn
      rw [if_pos due] at timed
      refine answers_with (P := fun t => (t.sctx k).valid = false ∨ (t.sctx k).notReadyAt = _ ∧ (t.sctx k).unacked = _) ?_
        (fun _ _ h => h) timed
      refine (State.resend_sctx (by rw [State.sctx_onSctx]; exact hv) _).imp id fun same => ?_
      rw [same, State.sctx_onSctx]
      exact ⟨rfl, rfl⟩
    · have timed := exec_notReadyResend hh hi hv hn
      rw [if_neg (Nat.not_le.mpr early)] at timed
      exact timed.trans (congrArg _ (State.withQueue_self rfl))
    · have timed := exec_notReadyLimit hh hi hv hn
      rw [if_pos due] at timed
      exact answers_with (State.streamFail_over hv 1 rfl) (fun _ q h => ⟨h.1, h.2.withQueue q⟩) timed
    · have timed := exec_notReadyLimit hh hi hv hn
      rw [if_neg (by omega)] at timed
      exact timed.trans (congrArg _ (State.withQueue_self rfl))

end Sys2Proof.Machine
end

section
/-!
PROOF. The data messages (R382, R383, R386, R388): what is received from a message that opens its stream, comes twice, or whose
channel holds its access.
-/

namespace Sys2Proof.Machine

section Receive

variable {s : State} {m : Msg} {k : Nat} {fits ackOk : Bool} {act : State → Option (State × Nat)}

/-- The context that a message opens (R382). -/
def openedBy (m : Msg) (now : Nat) : RecvCtx :=
  { valid := true, src := m.src, stream := m.stream, epoch := m.epoch, ordered := m.ord, next := m.seq, lastAt := now }

/-- A receive context is used. -/
def State.useRctx (s : State) (k : Nat) (c : RecvCtx) : State :=
  s.withRecvCtx (Tbl.put {} s.recvCtx k { c with lastAt := s.time })

/-- The context used. -/
theorem State.rctx_useRctx (s : State) (k : Nat) (c : RecvCtx) : (s.useRctx k c).rctx k = { c with lastAt := s.time } := by
  rw [State.rctx, State.useRctx]
  exact Tbl.get_put_same ..

/-- A RESPONSE changes the links alone. -/
theorem State.respond_same (s : State) (m : Msg) (status : Nat) {a : Area} (ha : a ≠ .links) :
    Area.same s (s.respond m status) a :=
  s.routed_same _ ha

/-- A free receive context is not valid. -/
theorem State.freeRctx_invalid {port : Nat} (h : s.freeRctx port = some k) : (s.rctx k).valid = false := by
  simpa using List.find?_some h

variable (hs : (s.takeMsg m).stale m = false)
include hs

section Opens

variable (hr : (s.takeMsg m).rctxOf m = none) (ho : m.opening = true) (hk : (s.takeMsg m).freeRctx m.port = some k)
  (hf : fits = true)
include hr ho hk hf

/-- A message that opens its stream is applied, or waits while a channel holds its access (R382). -/
theorem State.receive_opens : s.receive m fits ackOk act = match act (s.takeMsg m) with
    | none => s
    | some (u, st) => if st ≠ 0 then (u.useRctx k (openedBy m (s.takeMsg m).time)).respond m st
      else
        let d := (openedBy m (s.takeMsg m).time).applySeq m.seq
        let u1 := u.useRctx k { d with doneAt := if m.last then some u.time else d.doneAt }
        if ackOk then u1.respond m 0 else u1 := by
  have fresh : ((s.takeMsg m).rctx k).valid = false := State.freeRctx_invalid hk
  have once : (decide (m.seq < m.seq) || ([] : List Nat).contains m.seq) = false := by simp
  have inside : (if m.ord = true then decide (m.seq > m.seq) else decide (m.seq ≥ m.seq + 64)) = false := by simp
  simp only [State.receive, hs, hr, ho, hk, hf, fresh, once, inside, Bool.false_eq_true, if_false, if_true, Bool.not_true]
  rfl

end Opens

/-- A message that comes twice is counted, and answered again (R382). -/
theorem State.receive_twice (hr : (s.takeMsg m).rctxOf m = some k) (hv : ((s.takeMsg m).rctx k).valid = true)
    (ha : ackOk = true) (hd : m.seq < ((s.takeMsg m).rctx k).next ∨ ((s.takeMsg m).rctx k).applied.contains m.seq = true) :
    s.receive m fits ackOk act =
      (((s.takeMsg m).fcount FAB_TP_COUNT.DUPLICATES 0 0).useRctx k ((s.takeMsg m).rctx k)).respond m 0 := by
  have dup : (decide (m.seq < ((s.takeMsg m).rctx k).next) || ((s.takeMsg m).rctx k).applied.contains m.seq) = true := by
    simpa using hd
  simp only [State.receive, State.useRctx, hs, hr, hv, dup, ha, Bool.false_eq_true, if_false, if_true]

end Receive

/-- The context that a message opens, once the message is applied at `b`: the time at which it was opened plays no part. -/
theorem openedBy_applied (m : Msg) (a b : Nat) :
    { (openedBy m a).applySeq m.seq with
      doneAt := if m.last then some b else ((openedBy m a).applySeq m.seq).doneAt, lastAt := b } =
    { ({ openedBy m b with doneAt := if m.last then some b else none } : RecvCtx).applySeq m.seq with lastAt := b } := by
  unfold RecvCtx.applySeq openedBy
  cases m.ord
  all_goals rfl

/-- A data message, its type, whether its body fits, whether a RESPONSE answers it, and how it is applied (R388). -/
def isData (m : Msg) (cmd : Instr) (ty : Nat) (fits ackOk : Bool) (act : State → Option (State × Nat)) : Prop :=
  cmd = .remoteWrite m ∧ ty = 1 ∧ fits = bodyFits m (m.opx == 0) true ∧ ackOk = true ∧ act = (fun t => t.applyWrite m) ∨
    cmd = .remoteReduce m ∧ ty = 2 ∧ ackOk = true ∧ act = (fun t => t.applyReduce m) ∧
      fits = bodyFits { m with addr := msgTarget m } (decide (m.opx < 16) && decide (m.opx % 4 < 3)) true ∨
    cmd = .kvPageWrite m ∧ ty = 3 ∧ m.opx ≠ 1 ∧ m.opx ≠ 2 ∧ fits = bodyFits m (m.opx == 0) true ∧ ackOk = true ∧
      act = (fun t => t.applyWrite m) ∨
    cmd = .kvPageReadReq m ∧ ty = 3 ∧ m.opx = 1 ∧ fits = (bodyFits m true false && m.len != 0) ∧ ackOk = false ∧
      act = (fun t => t.applyRead m) ∨
    cmd = .tokenFwd m ∧ ty = 4 ∧ fits = bodyFits m (m.opx == 0) true ∧ ackOk = true ∧ act = (fun t => t.applyForward m) ∨
    cmd = .stream m ∧ ty = 5 ∧ fits = bodyFits m (m.opx == 0) true ∧ ackOk = true ∧ act = (fun t => t.applyForward m)

/-- Such a message that waits here is received. -/
theorem exec_data {s : State} {m : Msg} {cmd : Instr} {ty : Nat} {fits ackOk : Bool} {act : State → Option (State × Nat)}
    (hw : m.wf = true) (hc : isData m cmd ty fits ackOk act) (hm : s.hasMsg m ty = true) :
    exec cmd s = .next ((s.receive m fits ackOk act).withQueue s.pending) := by
  have here (v : State) : ok m.wf s (if s.hasMsg m ty then v else s) = .next (v.withQueue s.pending) := by
    rw [hw, hm, if_pos rfl, ok_true]
  rcases hc with ⟨rfl, rfl, rfl, rfl, rfl⟩ | ⟨rfl, rfl, rfl, rfl, rfl⟩ | ⟨rfl, rfl, h1, h2, rfl, rfl, rfl⟩ |
    ⟨rfl, rfl, h1, rfl, rfl, rfl⟩ | ⟨rfl, rfl, rfl, rfl, rfl⟩ | ⟨rfl, rfl, rfl, rfl, rfl⟩
  · exact here _
  · exact here _
  · have other : (s.hasMsg m 3 && m.opx != 1 && m.opx != 2) = s.hasMsg m 3 := by
      rw [bne_iff_ne.mpr h1, bne_iff_ne.mpr h2, Bool.and_true, Bool.and_true]
    refine Eq.trans ?_ (here _)
    change ok m.wf s (if s.hasMsg m 3 && m.opx != 1 && m.opx != 2 then _ else s) = _
    rw [other]
  · have request : (s.hasMsg m 3 && m.opx == 1) = s.hasMsg m 3 := by
      rw [beq_iff_eq.mpr h1, Bool.and_true]
    refine Eq.trans ?_ (here _)
    change ok m.wf s (if s.hasMsg m 3 && m.opx == 1 then _ else s) = _
    rw [request]
  · exact here _
  · exact here _

/-- Settles O23: each data message is received alike; it opens its stream, comes twice, or waits. -/
theorem arrivingDataIsAppliedOnce : Obligations.ArrivingDataIsAppliedOnce := by
  unfold Obligations.ArrivingDataIsAppliedOnce
  intro s m cmd ty fits ackOk act hw hc hm t0 hs
  have received := exec_data hw hc hm
  refine ⟨fun k u hr ho hk hf hact => ?_, fun k hr hv ha hd => ?_, fun k hr ho hk hf hact => ?_⟩
  · rw [State.receive_opens hs hr ho hk hf, hact] at received
    dsimp only at received
    rw [if_neg (by decide)] at received
    have answered (v : State) : Area.same v (if ackOk then v.respond m 0 else v) .memory ∧
        (if ackOk then v.respond m 0 else v).recvCtx = v.recvCtx := by
      split
      · exact ⟨v.respond_same m 0 (by decide), (v.respond_same m 0 (a := .streams) (by decide)).2.1.symm⟩
      · exact ⟨Within.refl [] v .memory (by decide), rfl⟩
    obtain ⟨⟨mem, chk, -⟩, recvCtx⟩ := answered (u.useRctx k _)
    refine answers_with (P := fun t => t.mem = u.mem ∧ t.chk = u.chk ∧ t.rctx k = _) ⟨mem.symm, chk.symm, ?_⟩
      (fun _ _ h => h) received
    rw [State.rctx, recvCtx]
    exact (State.rctx_useRctx u k _).trans (openedBy_applied m (s.takeMsg m).time u.time)
  · rw [State.receive_twice hs hr hv ha hd] at received
    have answered {a : Area} (ha : a ≠ .links) := State.respond_same
      (((s.takeMsg m).fcount FAB_TP_COUNT.DUPLICATES 0 0).useRctx k ((s.takeMsg m).rctx k)) m 0 ha
    refine answers_with (P := fun t => t.mem = s.mem ∧ t.chk = s.chk ∧ t.evts = s.evts ∧ t.fget FAB_TP_COUNT.DUPLICATES 0 0 = _)
      ⟨?_, ?_, ?_, ?_⟩ (fun _ _ h => h) received
    · exact (answered (a := .memory) (by decide)).1.symm.trans (s.takeMsg_mem m)
    · exact (answered (a := .memory) (by decide)).2.1.symm.trans (s.takeMsg_same m (a := .memory) (by decide)).2.1.symm
    · exact (answered (a := .parts) (by decide)).2.2.symm.trans (s.takeMsg_same m (a := .parts) (by decide)).2.2.symm
    · rw [State.fget_congr (answered (a := .registers) (by decide)).1.symm]
      refine (State.fget_fset_same ..).trans ?_
      rw [State.fget_congr (s.takeMsg_regs m)]
      exact Nat.mod_eq_of_lt (Nat.lt_of_le_of_lt (Nat.min_le_right ..) (by decide))
  · rw [State.receive_opens hs hr ho hk hf, hact] at received
    exact received.trans (congrArg _ (State.withQueue_self rfl))

end Sys2Proof.Machine
end

section
/-!
PROOF. RECV_CONTEXT_CLOSE and KV_PAGE_READ_DATA (R383, R388). The tree's messages (R391 to R395).
-/

namespace Sys2Proof.Machine

section Close

variable {s : State} {h i : Nat} (hh : h < 4) (hi : i < 4096)
include hh hi

/-- RECV_CONTEXT_CLOSE by the times of the context (R383). -/
theorem exec_recvContextClose : exec (.recvContextClose h i) s = ok true s
    (if (s.rctx (h * 4096 + i)).valid && (decide (s.time ≥ (s.rctx (h * 4096 + i)).lastAt + 10000000) ||
        (match (s.rctx (h * 4096 + i)).doneAt with
         | some t => decide (s.time ≥ t + 10000000)
         | none => false))
     then s.withRecvCtx (Tbl.put {} s.recvCtx (h * 4096 + i) {}) else s) := by
  have wf : (hubOk h && decide (i < 4096)) = true := by simp [hubOk, hh, hi]
  exact congrArg (fun w => ok w s _) wf

/-- A context unused for 10 ms, or done 10 ms ago, closes. -/
theorem exec_recvContextClose_due (hv : (s.rctx (h * 4096 + i)).valid = true)
    (hd : (s.rctx (h * 4096 + i)).lastAt + 10000000 ≤ s.time ∨
      ∃ d, (s.rctx (h * 4096 + i)).doneAt = some d ∧ d + 10000000 ≤ s.time) :
    exec (.recvContextClose h i) s = ok true s (s.withRecvCtx (Tbl.put {} s.recvCtx (h * 4096 + i) {})) := by
  rw [exec_recvContextClose hh hi, hv, Bool.true_and]
  refine congrArg (ok true s) (if_pos ?_)
  rcases hd with idle | ⟨d, done, past⟩
  · rw [decide_eq_true idle, Bool.true_or]
  · rw [done]
    simp [past]

/-- One used less than 10 ms ago, whose stream is not done, does not. -/
theorem exec_recvContextClose_early (hl : s.time < (s.rctx (h * 4096 + i)).lastAt + 10000000)
    (hd : (s.rctx (h * 4096 + i)).doneAt = none) : exec (.recvContextClose h i) s = .next s := by
  rw [exec_recvContextClose hh hi, hd, decide_eq_false (Nat.not_le.mpr hl), Bool.or_self, Bool.and_false,
    if_neg Bool.false_ne_true]
  exact ok_of_pending rfl

end Close

section ReadData

variable {s : State} {m : Msg} {k : Nat} (hw : m.wf = true) (hm : s.hasMsg m 3 = true) (ho : m.opx = 2)
  (hk : (s.takeMsg m).ctxOf m = some k) (hv : ((s.takeMsg m).sctx k).valid = true)
  (hu : ((s.takeMsg m).sctx k).unacked.head?.map Msg.seq = some m.seq)
  (hx : ((s.takeMsg m).execOf ((s.takeMsg m).sctx k).part ((s.takeMsg m).sctx k).slot).opcode = 5)
include hw hm ho hk hv hu hx

/-- KV_PAGE_READ_DATA for the oldest unanswered request of a KV_UNPARK's stream (R388). -/
theorem exec_kvPageReadData : exec (.kvPageReadData m) s = .next (State.withQueue
    (if m.poison then (s.takeMsg m).streamFail k 0x03
     else ((s.takeMsg m).onExec ((s.takeMsg m).sctx k).part ((s.takeMsg m).sctx k).slot
       (fun e => { e with got := e.got ++ m.body.take m.len })).acked k m.seq) s.pending) := by
  change ok m.wf s _ = _
  rw [hw, ok_true, hm, ho]
  dsimp only
  rw [hk]
  dsimp only
  rw [hv, hu, hx]
  simp

end ReadData

/-- Settles O24: a context closes by its times; read data by whether it is poisoned. -/
theorem receiveContextsCloseAndReadDataArrives : Obligations.ReceiveContextsCloseAndReadDataArrives := by
  unfold Obligations.ReceiveContextsCloseAndReadDataArrives
  refine fun s => ⟨fun h i hh hi => ⟨fun hv hd => ?_, exec_recvContextClose_early hh hi⟩,
    fun m k hw hm ho hk hv hu hx => ⟨fun bad => ?_, fun good => ?_⟩⟩
  · have closed (k : Nat) : (s.withRecvCtx (Tbl.put {} s.recvCtx (h * 4096 + i) {})).rctx k =
        if k = h * 4096 + i then {} else s.rctx k :=
      Tbl.get_put (d := ({} : RecvCtx)) s.recvCtx (h * 4096 + i) k {}
    exact ⟨_, exec_recvContextClose_due hh hi hv hd, (closed _).trans (if_pos rfl), fun k hk => (closed k).trans (if_neg hk),
      rfl, rfl⟩
  all_goals have answered := exec_kvPageReadData hw hm ho hk hv hu hx
  · rw [bad, if_pos rfl] at answered
    exact answers_with (State.streamFail_over hv 3 (s.takeMsg_homeHub m _)) (fun _ q h => ⟨h.1, h.2.withQueue q⟩) answered
  · rw [good, if_neg Bool.false_ne_true] at answered
    exact answered

section Edges

variable {s : State} {m : Msg} {ty : Nat} (hw : m.wf = true) (hi : s.inbox.contains m = true)
  (hd : m.ll = true ∨ m.dest = s.fabAddr) (ht : m.ty = ty)
include hw hi hd ht

/-- A tree message of this epoch from a child is acted on (R391). -/
theorem ok_fromChild {c a : Nat} (hc : (s.takeMsg m).kids.find? (fun q => q.2 == m.src) = some (c, a))
    (he : m.seq = (s.takeMsg m).epoch) (f : State → Nat → State) :
    ok m.wf s (s.fromChild m ty f) = .next ((f (s.takeMsg m) c).withQueue s.pending) := by
  rw [State.fromChild, State.onMsg_here hi ht hd, hw, ok_true, hc]
  dsimp only
  rw [if_pos he]

/-- One from the parent is. -/
theorem ok_fromParent (hp : (s.takeMsg m).parent = some m.src) (he : m.seq = (s.takeMsg m).epoch) (f : State → State) :
    ok m.wf s (s.fromParent m ty f) = .next ((f (s.takeMsg m)).withQueue s.pending) := by
  rw [State.fromParent, State.onMsg_here hi ht hd, hw, ok_true, if_pos ⟨hp, he⟩]

variable (he : m.seq ≠ (s.takeMsg m).epoch)
include he

/-- One of another epoch is counted (R391). -/
theorem ok_fromChild_stale (f : State → Nat → State) : ok m.wf s (s.fromChild m ty f) =
    .next (((s.takeMsg m).fcount FAB_GOP_COUNT.BAD 0 0).withQueue s.pending) := by
  rw [State.fromChild, State.onMsg_here hi ht hd, hw, ok_true]
  dsimp only
  split
  · rw [if_neg he]
  · rfl

/-- From the parent too. -/
theorem ok_fromParent_stale (f : State → State) : ok m.wf s (s.fromParent m ty f) =
    .next (((s.takeMsg m).fcount FAB_GOP_COUNT.BAD 0 0).withQueue s.pending) := by
  rw [State.fromParent, State.onMsg_here hi ht hd, hw, ok_true, if_neg fun h => he h.2]

end Edges

/-- Settles O25: a message of the tree acts where it comes along its edge in this epoch, and is counted in another. -/
theorem treeMessagesMoveTheBarrier : Obligations.TreeMessagesMoveTheBarrier := by
  unfold Obligations.TreeMessagesMoveTheBarrier
  intro s m hw hi hd t0 go
  refine ⟨fun c a hc he => ⟨fun ht => ?_, fun ht free => ?_, fun ht root waits => ?_, fun ht => ?_⟩,
    fun hp he => ⟨fun ht => ?_, fun ht free => ?_, fun ht waits => ?_, fun ht cut => ?_⟩, fun cmd he hc => ?_⟩
  · exact ok_fromChild hw hi hd ht hc he _
  · exact (ok_fromChild hw hi hd ht hc he _).trans (by rw [if_neg (by rw [free]; exact Bool.false_ne_true)])
  · refine (ok_fromChild hw hi hd ht hc he _).trans ?_
    rw [if_pos (by rw [root, waits]; rfl), State.withQueue_self rfl]
  · exact ok_fromChild hw hi hd ht hc he _
  · exact ok_fromParent hw hi hd ht hp he _
  · exact (ok_fromParent hw hi hd ht hp he _).trans (by rw [if_neg (by rw [free]; exact Bool.false_ne_true)])
  · refine (ok_fromParent hw hi hd ht hp he _).trans ?_
    rw [if_pos waits, State.withQueue_self rfl]
  · exact (ok_fromParent hw hi hd ht hp he _).trans (by rw [if_pos cut])
  · have discarded : exec cmd s = .next (((s.takeMsg m).fcount FAB_GOP_COUNT.BAD 0 0).withQueue s.pending) := by
      rcases hc with ⟨rfl, ht⟩ | ⟨rfl, ht⟩ | ⟨rfl, ht⟩ | ⟨rfl, ht⟩ | ⟨rfl, ht⟩ | ⟨rfl, ht⟩
      · exact ok_fromChild_stale hw hi hd ht he _
      · exact ok_fromParent_stale hw hi hd ht he _
      · exact ok_fromChild_stale hw hi hd ht he _
      · exact ok_fromParent_stale hw hi hd ht he _
      · exact ok_fromChild_stale hw hi hd ht he _
      · exact ok_fromParent_stale hw hi hd ht he _
    refine answers_with (P := fun t => t.fget FAB_GOP_COUNT.BAD 0 0 = _ ∧ t.tree = s.tree ∧ t.mem = s.mem) ⟨?_, ?_, ?_⟩
      (fun _ _ h => h) discarded
    · refine (State.fget_fset_same ..).trans ?_
      rw [State.fget_congr (s.takeMsg_regs m)]
      exact Nat.mod_eq_of_lt (Nat.lt_of_le_of_lt (Nat.min_le_right ..) (by decide))
    · exact (s.takeMsg_same m (a := .tree) (by decide)).symm
    · exact s.takeMsg_mem m

end Sys2Proof.Machine
end

section
/-!
PROOF. SNAPSHOT_DRAINED, SNAPSHOT_RESUME and GOP_TIMEOUT (R394, R395). Fabric reset and the timebase (R389, R396).
-/

namespace Sys2Proof.Machine

section Tree

variable {s : State}

/-- A message along an edge changes the links alone. -/
theorem State.sendTree_same (s : State) (ty dest opx : Nat) {a : Area} (ha : a ≠ .links) : Area.same s (s.sendTree ty dest opx) a :=
  s.routed_same _ ha

/-- So no register. -/
theorem State.fget_sendTree (s : State) (ty dest opx : Nat) (f : Field) (u i : Nat) :
    (s.sendTree ty dest opx).fget f u i = s.fget f u i :=
  State.fget_congr (s.routed_regs _) f u i

/-- The tree is no register. -/
@[simp] theorem State.fget_onTree (s : State) (g : Tree → Tree) (f : Field) (u i : Nat) : (s.onTree g).fget f u i = s.fget f u i := rfl

/-- A node with a parent whose own drain and all its children's are there reports its drain (R395). -/
theorem State.snapTry_reports {a : Nat} (hc : s.tree.cut = true) (hd : s.tree.drained = true) (hs : s.tree.snapUpSent = false)
    (hk : s.kids.all (fun q => s.tree.snapChildren.contains q.1) = true) (hp : s.parent = some a) :
    s.snapTry false = (s.onTree (fun t => { t with snapUpSent := true })).sendTree 0x14 a (2 * bit s.tree.snapFailed) := by
  have kids : s.kids.all (fun x => match x with | (c, _) => s.tree.snapChildren.contains c) = true := hk
  unfold State.snapTry
  dsimp only
  rw [hc, hd, hs, kids, hp]
  rfl

/-- While a report of a child is missing, it waits. -/
theorem State.snapTry_waits (hk : s.kids.all (fun q => s.tree.snapChildren.contains q.1) = false) : s.snapTry false = s := by
  have kids : s.kids.all (fun x => match x with | (c, _) => s.tree.snapChildren.contains c) = false := hk
  unfold State.snapTry
  dsimp only
  rw [kids]
  exact if_pos (by simp)

/-- This device has drained. -/
def State.drainedNow (s : State) : State := s.onTree (fun t => { t with drained := true, snapReadyAt := some s.time })

/-- SNAPSHOT_DRAINED of a device that has been cut and has drained (R395). -/
theorem exec_snapshotDrained (hc : s.tree.cut = true) (hd : s.tree.drained = false)
    (hr : s.fget FAB_GOP_STATUS.SNAP_CUT 0 0 = 1) (ha : s.allDrained = true) :
    exec .snapshotDrained s = ok true s (s.drainedNow.snapTry false) := by
  change ok true s (if _ then _ else _) = _
  rw [if_pos (by rw [hc, hd, hr, ha]; rfl)]
  rfl

/-- SNAPSHOT_RESUME by an accessor that reaches it (R395). -/
theorem exec_snapshotResume {who : Accessor} (hw : who.wf = true) (hr : s.reaches who FAB_GOP_CTL.RESUME 0 0 = true) :
    exec (.snapshotResume who) s = ok true s (if s.fget FAB_GOP_STATUS.SNAP_HELD 0 0 = 1 then s.snapResume else s) := by
  change ok who.wf s (if _ then _ else _) = _
  rw [hw, hr, Bool.true_and]
  simp only [beq_iff_eq]

/-- GOP_TIMEOUT for a child that is not valid. -/
theorem exec_gopTimeout_none {child : Nat} (hc : child < 16) (hv : s.fget FAB_TREE_CHILD.VALID 0 child = 0) :
    exec (.gopTimeout child) s = .next s := by
  change ok (decide (child < 16)) s (if _ then _ else _) = _
  rw [decide_eq_true hc, if_pos hv]
  exact ok_of_pending rfl

/-- GOP_TIMEOUT for a child whose BAR_UP is missing, at a node with a parent (R394). -/
theorem exec_gopTimeout_up {child a r : Nat} (hc : child < 16) (hv : s.fget FAB_TREE_CHILD.VALID 0 child ≠ 0)
    (hr : s.tree.readyAt = some r) (ht : r + max 1 (s.fget FAB_GOP_CTL.TIMEOUT_MS 0 0) * 1000000 ≤ s.time)
    (hs : s.tree.sentUp = false) (hk : s.tree.children.contains child = false) (hp : s.parent = some a) :
    exec (.gopTimeout child) s = ok true s
      (((s.onTree (fun t => { t with sentUp := true, failed := true })).fset FAB_GOP_STATUS.BAR_WAIT 0 0 1).sendTree 0x10 a
        (bit s.tree.snap + 2)) := by
  change ok (decide (child < 16)) s (if _ then _ else _) = _
  rw [decide_eq_true hc, if_neg hv]
  dsimp only
  rw [hr, hs, hk, hp]
  exact congrArg (ok true s) (if_pos (by simpa using ht))

end Tree

/-- Settles O26: a drain by the children's reports, a resume by the hold, a timeout by the child. -/
theorem snapshotsAndGlobalTimeouts : Obligations.SnapshotsAndGlobalTimeouts := by
  unfold Obligations.SnapshotsAndGlobalTimeouts
  intro s who child hw hc
  refine ⟨fun cut undrained shown all unsent => ⟨fun a up kids => ?_, fun missing => ?_⟩,
    fun reach => ⟨fun held => ?_, fun free => ?_⟩, exec_gopTimeout_none hc,
    fun a r valid ready due unsent absent up => ?_⟩
  · have sent := s.drainedNow.snapTry_reports (a := a) cut rfl unsent kids up
    have drained := exec_snapshotDrained cut undrained shown all
    rw [sent] at drained
    have edge {b : Area} (hb : b ≠ .links) := (s.drainedNow.onTree (fun t => { t with snapUpSent := true })).sendTree_same
      0x14 a (2 * bit s.drainedNow.tree.snapFailed) hb
    have tree := (edge (b := .tree) (by decide)).symm
    refine answers_with (P := fun t => t.tree.drained = true ∧ t.tree.snapUpSent = true ∧ t.tree.snapReadyAt = some s.time ∧
      t.mem = s.mem) ⟨?_, ?_, ?_, ?_⟩ (fun _ _ h => h) drained
    · exact congrArg Tree.drained tree
    · exact congrArg Tree.snapUpSent tree
    · exact congrArg Tree.snapReadyAt tree
    · exact (edge (b := .memory) (by decide)).1.symm
  · rw [exec_snapshotDrained cut undrained shown all, s.drainedNow.snapTry_waits missing]
    exact ok_of_pending rfl
  · have resumed := exec_snapshotResume hw reach
    rw [if_pos held] at resumed
    refine answers_with (P := fun t => t.tree.cut = false ∧ t.fget FAB_GOP_STATUS.SNAP_HELD 0 0 = 0 ∧ t.mem = s.mem ∧
      t.execs = s.execs) ⟨rfl, ?_, rfl, rfl⟩ (fun _ _ h => h) (u := s.snapResume) (q := s.pending) resumed
    exact State.fget_fset_same (s.onTree (fun t => { t with cut := false })) FAB_GOP_STATUS.SNAP_HELD 0 0 0
  · rw [exec_snapshotResume hw reach, if_neg free]
    exact ok_of_pending rfl
  · have timed := exec_gopTimeout_up hc valid ready due unsent absent up
    have edge {b : Area} (hb : b ≠ .links) := ((s.onTree (fun t => { t with sentUp := true, failed := true })).fset
      FAB_GOP_STATUS.BAR_WAIT 0 0 1).sendTree_same 0x10 a (bit s.tree.snap + 2) hb
    refine answers_with (P := fun t => t.tree = _ ∧ t.fget FAB_GOP_STATUS.BAR_WAIT 0 0 = 1 ∧ t.mem = s.mem) ⟨?_, ?_, ?_⟩
      (fun _ _ h => h) timed
    · exact (edge (b := .tree) (by decide)).symm
    · rw [State.fget_sendTree, State.fget_fset_same]
      rfl
    · exact (edge (b := .memory) (by decide)).1.symm

end Sys2Proof.Machine
end

section
/-!
PROOF. Fabric reset (R396) and the timebase (R389).
-/

namespace Sys2Proof.Machine

/-- The children are registers. -/
theorem State.kids_congr {s t : State} (h : t.regs = s.regs) : t.kids = s.kids := by
  simp only [State.kids, State.fget_congr h]

section Reset

variable {s : State}

/-- A node with a parent asks it for the reset (R396). -/
theorem State.resetAsk_up {a : Nat} (hp : s.parent = some a) : s.resetAsk = ((s.fset FAB_GOP_STATUS.RESET_ACTIVE 0 0 1).onTree
    (fun t => { t with resetReqAt := some s.time })).sendTree 0x16 a 0 := by
  rw [State.resetAsk, hp]

/-- FABRIC_RESET_START by a privileged accessor with no request outstanding (R396). -/
theorem exec_fabricResetStart {who : Accessor} (hw : who.wf = true) (hr : s.reaches who FAB_GOP_CTL.RESET_START 0 0 = true)
    (hv : s.privileged who = true) (hn : s.tree.resetReqAt = none) : exec (.fabricResetStart who) s = ok true s s.resetAsk := by
  change ok who.wf s (if _ then _ else _) = _
  rw [hw, hr, hv, hn]
  rfl

/-- RESET_REQ_TIMEOUT by the time of the request (R396). -/
theorem exec_resetReqTimeout {r : Nat} (h : s.tree.resetReqAt = some r) :
    exec .resetReqTimeout s = ok true s (if s.time ≥ r + 10000000 then s.resetBegin else s) := by
  change ok true s _ = _
  rw [h]

/-- RESET_ACK_TIMEOUT by the time of the reset (R396). -/
theorem exec_resetAckTimeout {r : Nat} (h : s.tree.resetDownAt = some r) :
    exec .resetAckTimeout s = ok true s (if s.time ≥ r + 10000000 then s.resetAck else s) := by
  change ok true s _ = _
  rw [h]

/-- An answer to the parent ends the wait for the children's, and changes the links alone beside. -/
theorem State.resetAck_shows : s.resetAck.tree = { s.tree with resetDownAt := none, ackSentAt := some s.time } ∧
    s.resetAck.mem = s.mem ∧ s.resetAck.regs = s.regs := by
  unfold State.resetAck
  cases s.parent with
  | none => exact ⟨rfl, rfl, rfl⟩
  | some a =>
    have edge {b : Area} (hb : b ≠ .links) := s.sendTree_same 0x18 a 0 hb
    refine ⟨?_, (edge (b := .memory) (by decide)).1.symm, (edge (b := .registers) (by decide)).1.symm⟩
    exact congrArg (fun t : Tree => { t with resetDownAt := none, ackSentAt := some s.time }) (edge (b := .tree) (by decide)).symm

/-- The fabric's registers and ports as a reset leaves them, and its record. -/
def State.fabricAnew (s : State) : State :=
  let s6 := (s.routesHome.fset FAB_LIVE.PORTS 0 0 0).fset FAB_BAR_STATUS.EPOCH 0 0 0
  let s7 := [FAB_GOP_STATUS.BAR_WAIT, FAB_GOP_STATUS.SNAP_CUT, FAB_GOP_STATUS.SNAP_HELD,
    FAB_GOP_STATUS.RESET_ACTIVE].foldl (fun t f => t.fset f 0 0 0) s6
  ((List.range 16).foldl State.portReset s7).record 0 { cause := 0x72, sev := 4, src := 5 }

/-- They are all it changes. -/
theorem State.fabricAnew_same (s : State) {b : Area} (hb : b ∉ [Area.registers, .vectors, .records, .links, .management]) :
    Area.same s s.fabricAnew b := by
  have opened : Opened [.registers, .vectors, .records, .links, .management]
      (Within [.registers, .vectors, .records, .links, .management] s) := within_opened _ s
  have set {t : State} (f : Field) (ht : Within [.registers, .vectors, .records, .links, .management] s t) :
      Within [.registers, .vectors, .records, .links, .management] s (t.fset f 0 0 0) :=
    State.fset_keeps (opened.mono (by decide)) t f 0 0 0 ht
  have ports {t : State} (p : Nat) (ht : Within [.registers, .vectors, .records, .links, .management] s t) :
      Within [.registers, .vectors, .records, .links, .management] s (t.portReset p) :=
    State.portReset_keeps (opened.mono (by decide)) t p ht
  have all : Within [.registers, .vectors, .records, .links, .management] s s.fabricAnew := by
    unfold State.fabricAnew
    refine State.record_keeps (opened.mono (by decide)) _ _ _ (keeps_foldl (fun _ p hu => ports p hu) ?_)
    refine keeps_foldl (fun _ f hu => set f hu) (set _ (set _ ?_))
    exact State.routesHome_keeps (opened.mono (by decide)) s (.refl _ s)
  exact all b hb

/-- A barrier tried with an empty tree leaves what is done, and the events (R392): nothing has arrived, so it does not end. -/
theorem State.barTry_empty (h : s.tree = {}) : s.barTry.stepped = s.stepped ∧
    s.barTry.fget FAB_GOP_EVENT.RESET_DONE 0 0 = s.fget FAB_GOP_EVENT.RESET_DONE 0 0 := by
  unfold State.barTry
  dsimp only
  rw [h]
  split
  · exact ⟨rfl, rfl⟩
  · rename_i waits
    split
    · exact ⟨rfl, rfl⟩
    · rename_i all
      split
      · refine ⟨((State.sendTree_same _ 0x10 _ _ (a := .power) (by decide)).2.2).symm, ?_⟩
        rw [State.fget_sendTree, State.fget_fset_ne _ (by decide)]
        rfl
      · rename_i root
        have childless : s.kids = [] := by
          simpa [List.eq_nil_iff_forall_not_mem] using all
        exact absurd (by simp [childless, root, Nat.pos_iff_ne_zero]; omega) waits

/-- FABRIC_LOCAL_RESET before its time (R396). -/
theorem exec_fabricLocalReset_early {r : Nat} (h : s.tree.ackSentAt = some r) (ht : s.time < r + 100000) :
    exec .fabricLocalReset s = .next s := by
  change ok true s _ = _
  rw [h]
  dsimp only
  rw [if_pos ht]
  exact ok_of_pending rfl

/-- FABRIC_LOCAL_RESET from its time on: the fabric begins anew (R396). -/
theorem exec_fabricLocalReset_due {r : Nat} (h : s.tree.ackSentAt = some r) (ht : r + 100000 ≤ s.time) :
    ∃ a : State, a.tree = {} ∧ a.stepped = false ∧
      exec .fabricLocalReset s = ok true s (a.fabricAnew.evt FAB_GOP_EVENT.RESET_DONE 0 0 1 none).barTry := by
  refine ⟨((State.withTree ?_ {}).withStepped false).withInbox [], rfl, rfl, ?_⟩
  rotate_left
  · change ok true s _ = _
    rw [h]
    dsimp only
    rw [if_neg (Nat.not_lt.mpr ht)]
    rfl

end Reset

section Timebase

variable {s : State} {m : Msg}

/-- TIME_SYNC_PERIOD of a node with a parent, its period past (R389). -/
theorem exec_timeSyncPeriod {a : Nat} (hp : s.parent = some a)
    (ht : s.syncAt + max 1 (s.fget FAB_TIME_CTL.PERIOD 0 0) * 100000 ≤ s.time) : exec .timeSyncPeriod s =
      ok true s ((s.withSyncAt s.time).routed { s.ownMsg 0x19 1 a (natLE 8 s.time) with ord := true }).1 := by
  change ok true s _ = _
  rw [hp]
  dsimp only
  rw [if_neg (Nat.not_lt.mpr ht)]

/-- The bytes of a TIME_RESP as a time. -/
def timeAt (m : Msg) (i : Nat) : Int := (leNat ((m.body.drop (8 * i)).take 8) : Int)

/-- The offset that a TIME_RESP gives (R389). -/
def timeOffset (m : Msg) (now : Nat) : Int := Int.tdiv ((timeAt m 1 - timeAt m 0) - ((now : Int) - timeAt m 2)) 2

/-- The offset and the delay shown, with the lock's event. -/
def State.timeShown (t : State) (off delay : Int) : State :=
  let was := t.fget FAB_TIME_STATUS.LOCKED 0 0
  let locked := bit (decide (off.natAbs ≤ 20))
  let u := ((t.fset FAB_TIME_OFFSET.OFFSET_NS 0 0 (sat32 off)).fset FAB_TIME_STATUS.DELAY_NS 0 0
    (min 0xFFFF delay.toNat)).fset FAB_TIME_STATUS.LOCKED 0 0 locked
  if was = locked then u
  else if locked = 1 then u.evt FAB_GOP_EVENT.TIME_LOCK 0 0 1 none
  else (u.evt FAB_GOP_EVENT.TIME_UNLOCK 0 0 1 none).record 0 { cause := 0x71, sev := 4, src := 5 }

/-- It leaves the time, and shows whether the clock is locked. -/
theorem State.timeShown_shows (t : State) (off delay : Int) : (t.timeShown off delay).time = t.time ∧
    (t.timeShown off delay).fget FAB_TIME_STATUS.LOCKED 0 0 = if off.natAbs ≤ 20 then 1 else 0 := by
  have locked (u : State) : (u.fset FAB_TIME_STATUS.LOCKED 0 0 (bit (decide (off.natAbs ≤ 20)))).fget FAB_TIME_STATUS.LOCKED 0 0 =
      if off.natAbs ≤ 20 then 1 else 0 := by
    rw [State.fget_fset_same, bit]
    by_cases near : off.natAbs ≤ 20
    · simp [near, FAB_TIME_STATUS.LOCKED]
    · simp [near]
  have told (u : State) (f : Field) (hf : FAB_TIME_STATUS.LOCKED.key 0 0 ≠ f.key 0 0) :
      (u.evt f 0 0 1 none).fget FAB_TIME_STATUS.LOCKED 0 0 = u.fget FAB_TIME_STATUS.LOCKED 0 0 := State.fget_evt_ne u hf
  unfold State.timeShown
  dsimp only
  split
  · exact ⟨rfl, locked _⟩
  · split
    · exact ⟨by simp, (told _ _ (by decide)).trans (locked _)⟩
    · refine ⟨by simp, ?_⟩
      rw [((spared_lowKept _).record (.refl _) ..).fget (by decide), told _ _ (by decide), locked]

variable (hw : m.wf = true) (hi : s.inbox.contains m = true) (hd : m.ll = true ∨ m.dest = s.fabAddr)
include hw hi hd

/-- TIME_REQ is answered (R389). -/
theorem exec_timeReq (ht : m.ty = 0x19) : ∃ a, exec (.timeReq m) s = .next (((s.takeMsg m).routed a).1.withQueue s.pending) := by
  refine ⟨?_, ?_⟩
  rotate_left
  · change ok m.wf s (s.onMsg m 0x19 _) = _
    rw [State.onMsg_here hi ht hd, hw, ok_true]

/-- TIME_RESP from the parent: the timebase steps where it never has and no deck was enabled, else it is slewed (R389). -/
theorem exec_timeResp (ht : m.ty = 0x1A) (hp : (s.takeMsg m).parent = some m.src) : ∃ delay,
    exec (.timeResp m) s = .next (State.withQueue
      (let t := s.takeMsg m
       let u1 := t.timeShown (timeOffset m t.time) delay
       if !t.stepped && !t.deckEver then
         ((u1.withTime (((t.time : Int) + timeOffset m t.time).toNat % 2 ^ 64)).withStepped true).withSlew 0
       else (u1.withSlew (timeOffset m t.time)).withStepped true) s.pending) := by
  refine ⟨?_, ?_⟩
  rotate_left
  · change ok m.wf s (s.onMsg m 0x1A _) = _
    rw [State.onMsg_here hi ht hd, hw, ok_true]
    dsimp only
    rw [if_neg (not_not.mpr hp)]
    rfl

end Timebase

/-- Settles O27: each command of the reset and the timebase by its condition; messages change the links alone. -/
theorem fabricResetAndTime : Obligations.FabricResetAndTime := by
  unfold Obligations.FabricResetAndTime
  intro s go
  refine ⟨fun who a hw hr hv hn hp => ?_, fun m hw hi hd he => ⟨fun c a hc => ⟨fun ht hn => ?_, fun ht hn all => ?_⟩,
    fun ht hp => ?_⟩, fun r hr => ⟨fun due => ?_, fun early => ?_⟩, fun r hr => ⟨fun due => ?_, fun early => ?_⟩,
    fun r hr => ⟨exec_fabricLocalReset_early hr, fun due => ?_⟩, fun a hp due => ?_, fun m hw hi hd => ⟨fun ht => ?_,
    fun ht hp => ?_⟩⟩
  · have asked := exec_fabricResetStart hw hr hv hn
    rw [State.resetAsk_up hp] at asked
    have edge {b : Area} (hb : b ≠ .links) := ((s.fset FAB_GOP_STATUS.RESET_ACTIVE 0 0 1).onTree
      (fun t => { t with resetReqAt := some s.time })).sendTree_same 0x16 a 0 hb
    refine answers_with (P := fun t => t.fget FAB_GOP_STATUS.RESET_ACTIVE 0 0 = 1 ∧ t.tree = _ ∧ t.mem = s.mem) ⟨?_, ?_, ?_⟩
      (fun _ _ h => h) asked
    · rw [State.fget_sendTree, State.fget_onTree, State.fget_fset_same]
      rfl
    · exact (edge (b := .tree) (by decide)).symm
    · exact (edge (b := .memory) (by decide)).1.symm
  · have tree : (s.takeMsg m).tree = s.tree := (s.takeMsg_same m (a := .tree) (by decide)).symm
    exact (ok_fromChild hw hi hd ht hc he _).trans (by rw [tree, hn]; rfl)
  · have tree : (s.takeMsg m).tree = s.tree := (s.takeMsg_same m (a := .tree) (by decide)).symm
    have kids : (s.takeMsg m).kids = s.kids := State.kids_congr (s.takeMsg_regs m)
    refine (ok_fromChild hw hi hd ht hc he _).trans (congrArg (fun u : State => Host.Outcome.next (u.withQueue s.pending)) ?_)
    rw [if_neg (by rw [tree, Option.isNone_iff_eq_none]; exact hn)]
    refine if_pos ?_
    change (s.takeMsg m).kids.all (fun q => (if (s.takeMsg m).tree.resetAcks.contains c then (s.takeMsg m).tree.resetAcks
      else (s.takeMsg m).tree.resetAcks ++ [c]).contains q.1) = true
    rw [kids, tree]
    refine List.all_eq_true.mpr fun q hq => ?_
    have acked := List.all_eq_true.mp all q hq
    split
    · exact acked
    · rw [List.contains_iff_mem] at acked ⊢
      exact List.mem_append_left _ acked
  · exact ok_fromParent hw hi hd ht hp he _
  · rw [exec_resetReqTimeout hr, if_pos due]
    rfl
  · rw [exec_resetReqTimeout hr, if_neg (Nat.not_le.mpr early)]
    exact ok_of_pending rfl
  · have timed := exec_resetAckTimeout hr
    rw [if_pos due] at timed
    exact answers_with s.resetAck_shows (fun _ _ h => h) timed
  · rw [exec_resetAckTimeout hr, if_neg (Nat.not_le.mpr early)]
    exact ok_of_pending rfl
  · obtain ⟨a, tree, stepped, anew⟩ := exec_fabricLocalReset_due hr due
    have done : (a.fabricAnew.evt FAB_GOP_EVENT.RESET_DONE 0 0 1 none).tree = {} := by
      rw [← tree, a.fabricAnew_same (b := .tree) (by decide)]
      simp
    obtain ⟨steps, events⟩ := State.barTry_empty done
    refine answers_with (P := fun t => t.stepped = false ∧ t.fget FAB_GOP_EVENT.RESET_DONE 0 0 = 1) ⟨?_, ?_⟩
      (fun _ _ h => h) anew
    · rw [steps, ← stepped, (a.fabricAnew_same (b := .power) (by decide)).2.2]
      simp
    · rw [events, State.fget_evt_one _ rfl]
  · have sent {b : Area} (hb : b ≠ .links) := (s.withSyncAt s.time).routed_same
      { s.ownMsg 0x19 1 a (natLE 8 s.time) with ord := true } hb
    exact answers_with (P := fun t => t.syncAt = s.time ∧ t.regs = s.regs ∧ t.mem = s.mem)
      ⟨(sent (b := .streams) (by decide)).2.2.2.symm, (sent (b := .registers) (by decide)).1.symm,
        (sent (b := .memory) (by decide)).1.symm⟩ (fun _ _ h => h) (exec_timeSyncPeriod hp due)
  · obtain ⟨a, answered⟩ := exec_timeReq hw hi hd ht
    have sent {b : Area} (hb : b ≠ .links) := (s.takeMsg m).routed_same a hb
    exact answers_with (P := fun t => t.regs = s.regs ∧ t.mem = s.mem ∧ t.time = s.time)
      ⟨((s.takeMsg m).routed_regs a).trans (s.takeMsg_regs m), (sent (b := .memory) (by decide)).1.symm.trans (s.takeMsg_mem m),
        (sent (b := .clock) (by decide)).1.symm.trans (s.takeMsg_time m)⟩ (fun _ _ h => h) answered
  · obtain ⟨delay, answered⟩ := exec_timeResp hw hi hd ht hp
    obtain ⟨time, locked⟩ := (s.takeMsg m).timeShown_shows (timeOffset m s.time) delay
    have stepped : (s.takeMsg m).stepped = s.stepped := (s.takeMsg_same m (a := .power) (by decide)).2.2.symm
    have ever : (s.takeMsg m).deckEver = s.deckEver := (s.takeMsg_same m (a := .decks) (by decide)).2.2.1.symm
    dsimp only at answered
    rw [stepped, ever, s.takeMsg_time] at answered
    refine ⟨fun first none => ?_, fun later => ?_⟩
    · rw [first, none] at answered
      exact ⟨_, answered, rfl, rfl, rfl, locked⟩
    · rw [if_neg (by rcases later with h | h <;> simp [h])] at answered
      exact ⟨_, answered, time.trans (s.takeMsg_time m), rfl⟩

end Sys2Proof.Machine
end

section
/-!
PROOF. PROT_SHADOW_WRITE, PROT_COMMIT and PROT_SWAP (R327, R331, R332).
-/

namespace Sys2Proof.Machine

/-- A table into which a value is put for each key of a list reads as those values there. -/
theorem Tbl.get_foldl_put {α : Type} [DecidableEq α] {d : α} (g : Nat → α) {l : List Nat} {t : Tbl α} {k : Nat}
    (h : k ∈ l ∨ Tbl.get d t k = g k) : Tbl.get d (l.foldl (fun t k => Tbl.put d t k (g k)) t) k = g k := by
  induction l generalizing t with
  | nil => exact h.resolve_left (by simp)
  | cons j l ih =>
    refine ih ?_
    rw [Tbl.get_put]
    by_cases now : k = j
    · exact .inr (by rw [if_pos now, now])
    · rw [if_neg now]
      exact h.imp_left fun h => (List.mem_cons.mp h).resolve_left now

section Map

variable {s : State}

/-- PROT_FENCE.DRAINED shows that no older request is in flight (R332). -/
theorem State.fview_drained (s : State) : s.fview PROT_FENCE.DRAINED 0 0 =
    if s.tags.any (fun x => x.2.busy && x.2.protGen != s.fget PROT_GEN.ACTIVE 0 0) then 0 else 1 := rfl

/-- Which copy is viewed plays no part in whether a commit can be taken. -/
theorem State.commitFree_view (s : State) (v : Nat) : (s.fset PROT_CTL.VIEW 0 0 v).commitFree = s.commitFree := by
  have active := State.fget_fset_ne s (f := PROT_CTL.VIEW) (g := PROT_GEN.ACTIVE) (u := 0) (i := 0) (u' := 0) (i' := 0) (v := v)
    (by decide)
  have pending := State.fget_fset_ne s (f := PROT_CTL.VIEW) (g := PROT_GEN.PENDING) (u := 0) (i := 0) (u' := 0) (i' := 0) (v := v)
    (by decide)
  rw [State.commitFree, State.commitFree, State.fview_drained, State.fview_drained, active, State.pendingCommit, pending]
  rfl

/-- The shadow's entries lie apart from what is set below them. -/
theorem State.shadow_fset (s : State) {f : Field} (hb : f.blk = .prot) (hs : f.stride = 0) (ho : f.off < 0x1000)
    (hl : f.lo < 64) (v k : Nat) : (s.fset f 0 0 v).shadow k = s.shadow k := by
  have apart {g : Field} (hg : g.blk = .prot) (hgo : 0x1000 ≤ g.off) (hgl : g.lo < 64) :
      (s.fset f 0 0 v).fget g 0 k = s.fget g 0 k := by
    refine State.fget_fset_ne s ?_
    simp only [Field.key, Field.addr, hb, hs, hg, blkBase]
    generalize k * g.stride = m
    omega
  simp only [State.shadow, apart (g := PROT_ENT_CTL.VALID) rfl (by decide) (by decide),
    apart (g := PROT_ENT_CTL.KIND) rfl (by decide) (by decide), apart (g := PROT_ENT_CTL.PART) rfl (by decide) (by decide),
    apart (g := PROT_ENT_CTL.RIGHTS) rfl (by decide) (by decide), apart (g := PROT_ENT_CTL.SRC) rfl (by decide) (by decide),
    apart (g := PROT_ENT_BASE.BASE) rfl (by decide) (by decide), apart (g := PROT_ENT_SIZE.SIZE) rfl (by decide) (by decide)]

/-- Nor does the view play a part in whether an entry breaks the format. -/
theorem State.shadowBad_view (s : State) (v : Nat) : (s.fset PROT_CTL.VIEW 0 0 v).shadowBad = s.shadowBad := by
  simp only [State.shadowBad, State.shadow_fset s (f := PROT_CTL.VIEW) rfl rfl (by decide) (by decide)]

/-- The shadow is registers. -/
theorem State.shadow_congr {t : State} (h : t.regs = s.regs) (k : Nat) : t.shadow k = s.shadow k := by
  simp only [State.shadow, State.fget_congr h]

/-- The active map after a copy is the shadow (R331). -/
theorem State.protCopy_get (s : State) {k : Nat} (hk : k < 512) : Tbl.get {} s.protCopy.prot k = s.shadow k := by
  have here : k ∈ List.range 512 := List.mem_range.mpr hk
  rw [State.protCopy, State.withProt_prot]
  generalize List.range 512 = l at here
  exact Tbl.get_foldl_put s.shadow (.inl here)

/-- A copy leaves the registers. -/
theorem State.protCopy_regs (s : State) : s.protCopy.regs = s.regs :=
  (State.protCopy_keeps (within_opened _ s) s (.refl _ s) .registers (by decide)).1.symm

/-- A copy leaves memory. -/
theorem State.protCopy_mem (s : State) : s.protCopy.mem = s.mem :=
  (State.protCopy_keeps (within_opened _ s) s (.refl _ s) .memory (by decide)).1.symm

end Map

section Commands

variable {s : State} {who : Accessor}

/-- PROT_SHADOW_WRITE by its checks in turn (R331). -/
theorem exec_protShadowWrite (hw : who.wf = true) (off n v : Nat) : exec (.protShadowWrite who off n v) s = ok true s
    (if !isShadow off || !s.privileged who || !sizeOk n then s
     else if s.pendingCommit then s.evt PROT_EVENT.SHADOW_LOCKED 0 0 1 none
     else s.regWriteIf (fun f => f.blk == .prot && decide (f.off ≥ 0x1000)) who off n v) := by
  change ok who.wf s _ = _
  rw [hw]

/-- A write of an entry's register by a privileged accessor. -/
theorem exec_protShadowWrite_fit (hw : who.wf = true) (hp : s.privileged who = true) {off n : Nat} (ho : isShadow off = true)
    (hn : n = 4 ∨ n = 8) (v : Nat) : exec (.protShadowWrite who off n v) s = ok true s
    (if s.pendingCommit then s.evt PROT_EVENT.SHADOW_LOCKED 0 0 1 none
     else s.regWriteIf (fun f => f.blk == .prot && decide (f.off ≥ 0x1000)) who off n v) := by
  have size : sizeOk n = true := by rcases hn with rfl | rfl <;> rfl
  rw [exec_protShadowWrite hw, hp, ho, size]
  rfl

/-- PROT_COMMIT by an accessor that may write PROT_CTL (R332). -/
theorem exec_protCommit (hw : who.wf = true) (hp : s.privileged who = true) (hr : s.reaches who PROT_CTL.VIEW 0 0 = true)
    (v : Nat) : exec (.protCommit who v) s = ok true s
    (let s1 := s.fset PROT_CTL.VIEW 0 0 (v / 2)
     if v % 2 = 0 then s1
     else if !s1.commitFree || s1.shadowBad then s1.evt PROT_EVENT.COMMIT_REFUSED 0 0 1 none
     else s1.schedule) := by
  change ok who.wf s (if _ then _ else _) = _
  rw [hw, hp, hr]
  dsimp only
  rw [State.commitFree_view, State.shadowBad_view]
  rfl

/-- PROT_SWAP at its time (R331). -/
theorem exec_protSwap : exec .protSwap s = ok true s (if s.pendingCommit = true ∧ s.time ≥ s.fget PROT_COMMIT_TIME.T_C 0 0 then
    (s.protCopy.fwrap PROT_GEN.ACTIVE 0 0).fset PROT_GEN.PENDING 0 0 0 else s) := rfl

end Commands

/-- Settles O47: each command by its checks in turn; the registers it sets lie apart from the map's entries. -/
theorem theMapCommitsAndSwaps : Obligations.TheMapCommitsAndSwaps := by
  unfold Obligations.TheMapCommitsAndSwaps
  refine ⟨fun s who off n v hw => ⟨fun hp => ⟨?_, ?_⟩, fun outside => ?_, fun hp inside size =>
    ⟨fun pending => ?_, fun free => ?_⟩⟩, fun s who v hw hp hr => ⟨fun view => ?_, fun commit barred => ?_,
    fun commit free good => ?_⟩, fun s => ⟨fun early => ?_, fun pending due => ?_⟩⟩
  · rw [exec_protShadowWrite hw, hp]
    simp only [Bool.not_false, Bool.or_true, Bool.true_or, if_true]
    exact ok_of_pending rfl
  · change ok who.wf s (if _ then _ else _) = _
    rw [hw, hp]
    exact ok_of_pending rfl
  · rw [exec_protShadowWrite hw]
    have barred : (!isShadow off || !s.privileged who || !sizeOk n) = true := by
      rcases outside with off | size
      · simp [off]
      · simp [sizeOk, size]
    rw [if_pos barred]
    exact ok_of_pending rfl
  · have locked := exec_protShadowWrite_fit hw hp inside size v
    rw [if_pos pending] at locked
    refine answers_with (P := fun t => t.fget PROT_EVENT.SHADOW_LOCKED 0 0 = 1 ∧ t.prot = s.prot ∧
      ∀ k, k < 512 → t.shadow k = s.shadow k) ⟨State.fget_evt_one _ rfl .., by simp, fun k _ => ?_⟩ (fun _ _ h => h) locked
    rw [State.shadow_congr (State.evt_regs ..), State.shadow_fset s rfl rfl (by decide) (by decide)]
  · rw [exec_protShadowWrite_fit hw hp inside size, free, if_neg Bool.false_ne_true]
    rfl
  · rw [exec_protCommit hw hp hr v]
    dsimp only
    rw [if_pos view]
    exact ok_of_pending rfl
  · have committed := exec_protCommit hw hp hr v
    dsimp only at committed
    rw [if_neg (by omega), if_pos (by rcases barred with h | h <;> simp [h])] at committed
    refine answers_with (P := fun t => t.fget PROT_EVENT.COMMIT_REFUSED 0 0 = 1 ∧ t.fget PROT_GEN.PENDING 0 0 = _ ∧
      t.prot = s.prot) ⟨State.fget_evt_one _ rfl .., ?_, by simp⟩ (fun _ _ h => h) committed
    rw [State.fget_evt_ne _ (by decide), State.fget_fset_ne _ (by decide)]
  · have committed := exec_protCommit hw hp hr v
    dsimp only at committed
    rw [if_neg (by omega), if_neg (by simp [free, good])] at committed
    refine answers_with (P := fun t => t.fget PROT_GEN.PENDING 0 0 = 1 ∧ t.fget PROT_COMMIT_TIME.T_C 0 0 = _ ∧
      t.prot = s.prot) ⟨?_, ?_, rfl⟩ (fun _ _ h => h) (u := (s.fset PROT_CTL.VIEW 0 0 (v / 2)).schedule) (q := s.pending) committed
    · exact State.fget_fset_same ..
    rw [State.schedule, State.fget_fset_ne _ (by decide), State.fget_fset_same]
    rfl
  · rw [exec_protSwap, if_neg]
    · exact ok_of_pending rfl
    · rintro ⟨pending, due⟩
      rcases early with h | h
      · exact Bool.noConfusion (h.symm.trans pending)
      · omega
  · have swapped := exec_protSwap (s := s)
    rw [if_pos ⟨pending, due⟩] at swapped
    refine answers_with (P := fun t => (∀ k, k < 512 → Tbl.get {} t.prot k = s.shadow k) ∧ t.pendingCommit = false ∧
      t.fget PROT_GEN.ACTIVE 0 0 = _ ∧ t.mem = s.mem) ⟨fun k hk => ?_, ?_, ?_, ?_⟩
      (fun _ _ h => h) (u := (s.protCopy.fwrap PROT_GEN.ACTIVE 0 0).fset PROT_GEN.PENDING 0 0 0) (q := s.pending) swapped
    · rw [← s.protCopy_get hk]
      simp only [State.fwrap, State.fset_frame]
    · rw [State.pendingCommit, State.fget_fset_same]
      rfl
    · rw [State.fget_fset_ne _ (by decide), State.fwrap, State.fget_fset_same, State.fget_congr s.protCopy_regs]
      rfl
    · rw [← s.protCopy_mem]
      simp only [State.fwrap, State.fset_frame]

end Sys2Proof.Machine
end

section
/-!
SUPPORT. The ports' rules: what a read of a port returns after a write to it, to another, to its STATE or to a register; what a
change of the live set leaves (R364).
-/

namespace Sys2Proof.Machine

/-- Two fields of one array that lie at different places of its registers. -/
theorem Field.key_apart (f g : Field) (u i : Nat)
    (h : (f.blk == g.blk && f.stride == g.stride && f.off * 64 + f.lo != g.off * 64 + g.lo) = true := by decide) :
    f.key u i ≠ g.key u i := by
  simp only [Bool.and_eq_true, beq_iff_eq, bne_iff_ne] at h
  obtain ⟨⟨hb, hs⟩, h⟩ := h
  simp only [Field.key, Field.addr, hb, hs]
  generalize u * (blkBase g.blk).2 = m
  generalize i * g.stride = n
  omega

/-- One field of two ports. -/
theorem Field.key_ne_port {f : Field} (hs : f.stride ≠ 0) {p q : Nat} (h : p ≠ q) (u : Nat) : f.key u p ≠ f.key u q := by
  simp only [Field.key, Field.addr]
  have apart : p * f.stride ≠ q * f.stride := fun e => h (Nat.eq_of_mul_eq_mul_right (Nat.pos_of_ne_zero hs) e)
  omega

section Ports

variable (s : State) {p q : Nat}

/-- A changed port is what it is changed to. -/
@[simp] theorem State.port_onPort_same (f : Port → Port) : (s.onPort p f).port p = f (s.port p) := by
  rw [State.port, State.onPort_ports, Tbl.upd, Tbl.get_put_same, State.port]

/-- Another port is as it was. -/
theorem State.port_onPort_ne (h : q ≠ p) (f : Port → Port) : (s.onPort p f).port q = s.port q := by
  rw [State.port, State.onPort_ports, Tbl.upd, Tbl.get_put_ne _ h, State.port]

/-- A port is no register. -/
@[simp] theorem State.fget_onPort (f : Port → Port) (g : Field) (u i : Nat) : (s.onPort p f).fget g u i = s.fget g u i := rfl

/-- Nor a STATE. -/
@[simp] theorem State.pst_onPort (f : Port → Port) : (s.onPort p f).pst q = s.pst q := rfl

/-- A register is no port. -/
@[simp] theorem State.port_fset (f : Field) (u i v : Nat) : (s.fset f u i v).port q = s.port q := rfl

variable {s} in
/-- The ports are those of the table. -/
theorem State.port_congr {t : State} (h : t.ports = s.ports) (q : Nat) : t.port q = s.port q := by
  rw [State.port, State.port, h]

/-- An event is no port. -/
@[simp] theorem State.port_evt (f : Field) (u i mask : Nat) (v : Option Nat) : (s.evt f u i mask v).port q = s.port q :=
  State.port_congr (by simp) q

/-- A fabric record is no port. -/
@[simp] theorem State.port_fabRecord (n cause i0 i1 : Nat) : (s.fabRecord n cause i0 i1).port q = s.port q :=
  State.port_congr (by simp [State.fabRecord]) q

/-- A fabric record leaves the registers below the hubs'. -/
theorem State.fabRecord_low (n cause i0 i1 : Nat) : s.LowKept (s.fabRecord n cause i0 i1) := (spared_lowKept s).record (.refl s) ..

/-- So the fabric's. -/
theorem State.fget_fabRecord (n cause i0 i1 : Nat) {g : Field} {u i : Nat} (hg : g.key u i < hubKeys) :
    (s.fabRecord n cause i0 i1).fget g u i = s.fget g u i := (s.fabRecord_low n cause i0 i1).fget hg

/-- A port whose STATE changes stands there from now on. -/
@[simp] theorem State.port_setPst_same (v : Nat) : (s.setPst p v).port p = { s.port p with stSince := s.time } := by
  rw [State.setPst, State.port_onPort_same, State.port_fset]

/-- Another port is as it was. -/
theorem State.port_setPst_ne (h : q ≠ p) (v : Nat) : (s.setPst p v).port q = s.port q := by
  rw [State.setPst, State.port_onPort_ne _ h, State.port_fset]

/-- A port's STATE is what it is set to. -/
theorem State.pst_setPst_same (v : Nat) : (s.setPst p v).pst p = v % 16 := by
  rw [State.setPst, State.pst_onPort, State.pst, State.fget_fset_same]
  rfl

/-- Another field is as it was. -/
theorem State.fget_setPst {g : Field} {u i : Nat} (h : g.key u i ≠ FAB_PORT_STATUS.STATE.key 0 p) (v : Nat) :
    (s.setPst p v).fget g u i = s.fget g u i := by
  rw [State.setPst, State.fget_onPort, State.fget_fset_ne _ h]

/-- Another port's STATE is. -/
theorem State.pst_setPst_ne (h : q ≠ p) (v : Nat) : (s.setPst p v).pst q = s.pst q :=
  s.fget_setPst (Field.key_ne_port (by decide) h 0) v

/-- A register set apart from STATE leaves it. -/
theorem State.pst_fset {f : Field} {u i : Nat} (h : FAB_PORT_STATUS.STATE.key 0 q ≠ f.key u i) (v : Nat) :
    (s.fset f u i v).pst q = s.pst q := State.fget_fset_ne s h

/-- The registers of a port lie below the hubs'. -/
theorem portKey_low {g : Field} (hb : g.blk = .fabric) (hs : g.stride = 64) (ho : g.off < 0x2000) (hl : g.lo < 64) (hp : p < 16) :
    g.key 0 p < hubKeys := by
  simp only [Field.key, Field.addr, hb, hs, blkBase, hubKeys]
  omega

end Ports

section Live

/-- The addresses below the hubs' apart from FAB_LIVE and FAB_EVENT. -/
def liveSpares (a : Nat) : Prop := a < 0x100000 ∧ a ≠ 0x20018 ∧ a ≠ 0x2000c

/-- Registers below the hubs' apart from FAB_LIVE and FAB_EVENT read alike, and the ports are alike but for their queues. -/
structure State.Relived (s t : State) : Prop where
  alike : State.Alike liveSpares s t
  port : ∀ q, { t.port q with vcq := [] } = { s.port q with vcq := [] }

variable {s t u : State}

/-- A state is like itself. -/
theorem State.Relived.refl (s : State) : s.Relived s := ⟨.refl, fun _ => rfl⟩

/-- What writes no register and no port keeps this. -/
theorem State.Relived.quiet (h : s.Relived t) (hr : u.regs = t.regs) (hp : u.ports = t.ports) : s.Relived u :=
  ⟨h.alike.quiet hr, fun q => by rw [State.port_congr hp, h.port q]⟩

/-- A queue changed does. -/
theorem State.Relived.queue (h : s.Relived t) (p : Nat) (f : Port → Port) (hf : ∀ x, { f x with vcq := [] } = { x with vcq := [] }) :
    s.Relived (t.onPort p f) := by
  refine ⟨h.alike.quiet rfl, fun q => ?_⟩
  by_cases same : q = p
  · rw [same, State.port_onPort_same, hf, h.port p]
  · rw [State.port_onPort_ne _ same, h.port q]

/-- A message routed does. -/
theorem State.Relived.routed (h : s.Relived t) (m : Msg) : s.Relived (t.routed m).1 := by
  unfold State.routed
  split
  · exact h.quiet rfl rfl
  · split
    · exact h.queue _ _ fun _ => rfl
    · exact h

/-- The messages of a port that left the live set are routed again. -/
theorem State.Relived.requeue (h : s.Relived t) (p : Nat) : s.Relived (t.requeue p) :=
  keeps_foldl (fun _ _ hu => hu.routed _) (h.queue _ _ fun _ => rfl)

/-- A route lost is reported. -/
theorem State.Relived.routeLost (h : s.Relived t) (p tbl i : Nat) : s.Relived (t.routeLost p tbl i) := by
  have told : State.Alike liveSpares s (t.evt FAB_EVENT.ROUTE_LOSS 0 0 1 none) :=
    (h.alike.fset (f := FAB_EVENT.ROUTE_LOSS) (by decide) (fun ha => ha.2.2 rfl) _).quiet (State.evt_regs ..)
  refine ⟨told.trans (State.Alike.mono (State.fabRecord_low _ p 0x6D tbl i) fun a ha => ha.1), fun q => ?_⟩
  rw [State.routeLost, State.port_fabRecord, State.port_evt, h.port q]

/-- The live set follows the ports (R364). -/
theorem State.relive_relived (s : State) : s.Relived s.relive := by
  have shown : s.Relived (s.fset FAB_LIVE.PORTS 0 0 s.liveMask) :=
    ⟨State.Alike.refl.fset (f := FAB_LIVE.PORTS) (by decide) (fun ha => ha.2.1 rfl) _, fun _ => rfl⟩
  unfold State.relive
  dsimp only
  split
  · exact shown
  · unfold State.lossCheck
    exact keeps_foldl (fun _ _ hu => hu.routeLost ..) (keeps_foldl (fun _ _ hu => hu.routeLost ..)
      (keeps_foldl (fun _ _ hu => hu.requeue _) shown))

/-- A field at one of the addresses reads the same. -/
theorem State.Relived.fget (h : s.Relived t) {g : Field} (hl : g.lo < 64) {u i : Nat} (ha : liveSpares (g.addr u i)) :
    t.fget g u i = s.fget g u i := h.alike.fget hl ha

/-- A port's registers are among them. -/
theorem liveSpares_port {g : Field} (hb : g.blk = .fabric) (hs : g.stride = 64) (ho : 0x1000 ≤ g.off) (ho' : g.off < 0x2000) {p : Nat}
    (hp : p < 16) : liveSpares (g.addr 0 p) := by
  simp only [liveSpares, Field.addr, hb, hs, blkBase]
  omega

/-- A port's STATE is. -/
theorem State.Relived.pst (h : s.Relived t) {p : Nat} (hp : p < 16) : t.pst p = s.pst p :=
  h.fget (by decide) (liveSpares_port rfl rfl (by decide) (by decide) hp)

/-- The live set leaves memory. -/
theorem State.relive_mem (s : State) : s.relive.mem = s.mem :=
  (State.relive_keeps (within_opened _ s) s (.refl _ s) .memory (by decide)).1.symm

end Live

end Sys2Proof.Machine
end

section
/-!
PROOF. Link training, LINK_INIT and retraining (R342 to R346, R353, R466).
-/

namespace Sys2Proof.Machine

section Taps

/-- What a request makes of taps within their limits is within them (R466). -/
theorem tapsOk_tapMove {x : List Int} {tap act pre : Nat} (hx : tapsOk x = true) (hp : pre < 8) :
    tapsOk (tapMove x tap act pre).1 = true := by
  have presets : ∀ i < 8, tapsOk (tapPreset i) = true := by decide
  unfold tapMove
  split
  · exact presets pre hp
  · split
    · exact hx
    · dsimp only
      generalize x.modify tap (fun v => if act = 1 then v + 1 else v - 1) = u
      by_cases within : tapsOk u = true
      · rwa [if_pos within]
      · rwa [if_neg within]

variable (t : Port) (f : TrainFrame)

/-- The port after the partner's request on the frame's lane has been answered (R344). -/
def Port.replied (t : Port) (f : TrainFrame) : Port :=
  if frameAction f = 0 then { t with replies := t.replies.set (frameLane f) 0 }
  else if t.replies.getD (frameLane f) 0 ≠ 0 then t
  else
    let (u, r) := tapMove (t.taps.getD (frameLane f) []) (frameTap f) (frameAction f) (framePreset f)
    { t with taps := t.taps.set (frameLane f) u, replies := t.replies.set (frameLane f) r }

/-- The port's own request on the frame's lane stands until it is answered (R344). -/
def Port.asked (t : Port) (f : TrainFrame) : Port :=
  let (tap, act, pre) := t.asks.getD (frameLane f) (0, 0, 0)
  if act ≠ 0 then
    (if frameStatus f ≠ 0 then { t with asks := t.asks.set (frameLane f) (tap, 0, pre) } else t)
  else if frameStatus f = 0 then { t with asks := t.asks.set (frameLane f) (f.askTap % 8, f.askAction % 4, f.askPreset % 8) }
  else t

/-- A frame in EQ answers the partner's request, then takes up the port's own. -/
theorem Port.eqFrame_eq : t.eqFrame f = (t.replied f).asked f := rfl

/-- The port's own requests are all that the latter changes. -/
theorem Port.asked_shows : ∃ as, t.asked f = { t with asks := as } := by
  unfold Port.asked
  dsimp only
  split
  · split
    · exact ⟨_, rfl⟩
    · exact ⟨t.asks, rfl⟩
  · split
    · exact ⟨_, rfl⟩
    · exact ⟨t.asks, rfl⟩

/-- An answer leaves whether the attempt is a cold one. -/
theorem Port.replied_coldOnly : (t.replied f).coldOnly = t.coldOnly := by
  unfold Port.replied
  split
  · rfl
  · split
    all_goals rfl

/-- What a frame in EQ leaves of the port beside its own request. -/
theorem Port.eqFrame_shows : (t.eqFrame f).taps = (t.replied f).taps ∧ (t.eqFrame f).replies = (t.replied f).replies ∧
    (t.eqFrame f).coldOnly = t.coldOnly := by
  obtain ⟨as, asked⟩ := (t.replied f).asked_shows f
  rw [t.eqFrame_eq, asked]
  exact ⟨rfl, rfl, t.replied_coldOnly f⟩

/-- A lane is one of eight. -/
theorem frameLane_lt : frameLane f < 8 := Nat.mod_lt _ (by decide)

/-- Each request of the partner is answered once (R344). -/
theorem Port.replied_shows (ht : t.taps.length = 8) (hr : t.replies.length = 8) :
    let l := frameLane f
    let mv := tapMove (t.taps.getD l []) (frameTap f) (frameAction f) (framePreset f)
    (frameAction f = 0 → (t.replied f).replies.getD l 0 = 0 ∧ (t.replied f).taps = t.taps) ∧
    (frameAction f ≠ 0 → t.replies.getD l 0 = 0 → (t.replied f).replies.getD l 0 = mv.2 ∧ (t.replied f).taps.getD l [] = mv.1) ∧
    (frameAction f ≠ 0 → t.replies.getD l 0 ≠ 0 → (t.replied f).taps = t.taps) := by
  have lane := frameLane_lt f
  have here {α : Type} (xs : List α) (v d : α) (hx : xs.length = 8) : (xs.set (frameLane f) v).getD (frameLane f) d = v := by
    simp [hx, lane]
  refine ⟨fun none => ?_, fun some free => ?_, fun some held => ?_⟩
  · rw [Port.replied, if_pos none]
    exact ⟨here _ _ _ hr, rfl⟩
  · rw [Port.replied, if_neg some, if_neg (not_not.mpr free)]
    exact ⟨here _ _ _ hr, here _ _ _ ht⟩
  · rw [Port.replied, if_neg some, if_pos held]

end Taps

section Frames

variable {s : State} {p : Nat} {f : TrainFrame}

/-- The port's own frame that follows changes what it sends alone. -/
theorem State.answered_port (s : State) (p : Nat) (f : TrainFrame) :
    ∃ a n, (State.answered p f s).port p = { s.port p with lastFrame := a, frames := n } := by
  unfold State.answered
  split
  · exact ⟨_, _, s.port_onPort_same _⟩
  · exact ⟨(s.port p).lastFrame, (s.port p).frames, rfl⟩

/-- And no register. -/
theorem State.fget_answered (s : State) (p : Nat) (f : TrainFrame) (g : Field) (u i : Nat) :
    (State.answered p f s).fget g u i = s.fget g u i := by
  unfold State.answered
  split
  · rfl
  · rfl

/-- Nor a STATE. -/
theorem State.pst_answered (s : State) (p : Nat) (f : TrainFrame) (q : Nat) : (State.answered p f s).pst q = s.pst q :=
  s.fget_answered p f ..

/-- A warm frame whose verification does not fail leaves the attempt as it is (R344). -/
theorem State.coldIf_warm (hw : frameWarm f = true) (hv : f.verifyFail = false) (st : Nat) : s.coldIf p st f = s := by
  rw [State.coldIf, hw, hv]
  simp

/-- A frame that shows WARM 0 makes the attempt a cold one (R344). -/
theorem State.coldIf_cold (hw : frameWarm f = false) {st : Nat} (hst : st = 2 ∨ st = 3) :
    ((s.coldIf p st f).port p).coldOnly = true := by
  rw [State.coldIf, if_pos ⟨hst, .inl hw⟩, State.port_onPort_same]
  dsimp only
  split
  all_goals rfl

variable (hp : p < 16)
include hp

/-- TRAINING_FRAME with a bad CRC (R343). -/
theorem exec_trainingFrame_bad (hf : frameOk f.bits = false) : exec (.trainingFrame p f) s = .next s := by
  change ok (portOk p) s (if _ then _ else _) = _
  rw [portOk, decide_eq_true hp, hf]
  exact ok_of_pending rfl

variable (hf : frameOk f.bits = true)
include hf

/-- TRAINING_FRAME in FRAME (R343). -/
theorem exec_trainingFrame_frame (h : s.pst p = 2) : exec (.trainingFrame p f) s = ok true s (State.answered p f
    (if frameReady f && f.heard != 0 then ((s.coldIf p 2 f).setPst p 3).onPort p Port.eqStart else s.coldIf p 2 f)) := by
  change ok (portOk p) s (if _ then _ else _) = _
  rw [portOk, decide_eq_true hp, hf, h]
  rfl

/-- TRAINING_FRAME in EQ (R344). -/
theorem exec_trainingFrame_eq (h : s.pst p = 3) : exec (.trainingFrame p f) s = ok true s (State.answered p f
    (let s1 := (s.coldIf p 3 f).onPort p (fun t => t.eqFrame f)
     if f.heard &&& f.ownEq == f.heard then (s1.setPst p 4).onPort p (fun t => { t with masks := [] }) else s1)) := by
  change ok (portOk p) s (if _ then _ else _) = _
  rw [portOk, decide_eq_true hp, hf, h]
  rfl

/-- The lanes that both sides can use (R345). -/
def State.goodLanes (s : State) (p : Nat) (f : TrainFrame) : Nat :=
  f.ownOk &&& frameLanes f &&& (0xFF ^^^ physLanes (Tbl.get 0 s.fuses.fabBadLanes p % 256) f.reversed)

/-- TRAINING_FRAME in WIDTH, with two equal lane masks (R345). -/
theorem exec_trainingFrame_width (h : s.pst p = 4) (hl : frameLanes f = s.goodLanes p f)
    (hm : (s.port p).masks = [s.goodLanes p f]) : exec (.trainingFrame p f) s = ok true s (State.answered p f
    (match laneGroup (s.goodLanes p f) with
     | none => s.trainFail p 3
     | some (w, g) =>
       (((s.fset FAB_PORT_STATUS.WIDTH 0 p w).fset FAB_PORT_STATUS.LANES 0 p (physLanes g f.reversed)).fset
         FAB_PORT_STATUS.REVERSED 0 p (bit f.reversed)).setPst p 5)) := by
  change ok (portOk p) s (if _ then _ else _) = _
  have same : s.coldIf p 4 f = s := if_neg (by simp)
  rw [portOk, decide_eq_true hp, hf, h]
  change ok true s (State.answered p f (if frameLanes f = s.goodLanes p f ∧ ((s.coldIf p 4 f).port p).masks = [s.goodLanes p f] then
    _ else _)) = _
  rw [same, if_pos ⟨hl, hm⟩]
  unfold State.goodLanes
  generalize laneGroup _ = g
  cases g
  all_goals rfl

/-- TRAINING_FRAME in LOCK (R342). -/
theorem exec_trainingFrame_lock (h : s.pst p = 5) : exec (.trainingFrame p f) s = ok true s (State.answered p f
    (if f.locked then ((s.coldIf p 5 f).setPst p 6).onPort p (fun t => { t with ctrl := t.ctrl ++ [(2, 0)] })
     else s.coldIf p 5 f)) := by
  change ok (portOk p) s (if _ then _ else _) = _
  rw [portOk, decide_eq_true hp, hf, h]
  rfl

end Frames

end Sys2Proof.Machine
end

section
/-!
PROOF. Attempts and their ends, LINK_INIT and retraining (R342, R346, R353).
-/

namespace Sys2Proof.Machine

section Attempts

variable {s : State} {p : Nat} (hp : p < 16)

/-- A failed attempt (R342). -/
theorem State.trainFail_shows (s : State) (p cause : Nat) : (s.trainFail p cause).pst p = 12 ∧
    (s.trainFail p cause).fget FAB_PORT_STATUS.FAIL_CAUSE 0 p = cause % 16 ∧
    ((s.trainFail p cause).port p).retryAt = s.time + 1000000000 := by
  refine ⟨?_, ?_, ?_⟩
  · rw [State.trainFail, State.pst_onPort, State.pst_setPst_same]
  · rw [State.trainFail, State.fget_onPort, State.fget_setPst _ (Field.key_apart FAB_PORT_STATUS.FAIL_CAUSE _ 0 p), State.fget_fset_same]
    rfl
  · rw [State.trainFail, State.port_onPort_same]

/-- The width's report leaves the ports and STATE, and shows the width (R345). -/
theorem State.widthReport_shows (s : State) (hp : p < 16) (w l : Nat) : (∀ q, (s.widthReport p w l).port q = s.port q) ∧
    (s.widthReport p w l).pst p = s.pst p ∧ (s.widthReport p w l).fget FAB_PORT_STATUS.WIDTH 0 p = w % 4 ∧
    (s.widthReport p w l).fget FAB_PORT_PARTNER.VALID 0 p = s.fget FAB_PORT_PARTNER.VALID 0 p := by
  have shown {g : Field} (h : g.key 0 p ≠ FAB_PORT_STATUS.WIDTH.key 0 p) (h' : g.key 0 p ≠ FAB_PORT_STATUS.LANES.key 0 p) :
      ((s.fset FAB_PORT_STATUS.WIDTH 0 p w).fset FAB_PORT_STATUS.LANES 0 p l).fget g 0 p = s.fget g 0 p := by
    rw [State.fget_fset_ne _ h', State.fget_fset_ne _ h]
  have width : ((s.fset FAB_PORT_STATUS.WIDTH 0 p w).fset FAB_PORT_STATUS.LANES 0 p l).fget FAB_PORT_STATUS.WIDTH 0 p = w % 4 := by
    rw [State.fget_fset_ne _ (Field.key_apart FAB_PORT_STATUS.WIDTH FAB_PORT_STATUS.LANES 0 p), State.fget_fset_same]
    rfl
  have state := shown (Field.key_apart FAB_PORT_STATUS.STATE _ 0 p) (Field.key_apart _ _ 0 p)
  have partner := shown (Field.key_apart FAB_PORT_PARTNER.VALID _ 0 p) (Field.key_apart _ _ 0 p)
  have told {t : State} {g : Field} (hb : g.blk = .fabric) (hs : g.stride = 64) (ho : 0x1000 ≤ g.off) (ho' : g.off < 0x2000)
      (hl : g.lo < 64) : ((t.evt FAB_EVENT.DEGRADED 0 0 1 none).fabRecord p 0x69 w l).fget g 0 p = t.fget g 0 p := by
    rw [State.fget_fabRecord _ _ _ _ _ (portKey_low hb hs ho' hl hp), State.fget_evt_ne]
    simp only [Field.key, Field.addr, hb, hs, FAB_EVENT.DEGRADED, blkBase]
    omega
  unfold State.widthReport
  dsimp only
  split
  · refine ⟨fun q => ?_, ?_, ?_, ?_⟩
    · rw [State.port_fabRecord, State.port_evt, State.port_fset, State.port_fset]
    · rw [State.pst, told rfl rfl (by decide) (by decide) (by decide), state, State.pst]
    · rw [told rfl rfl (by decide) (by decide) (by decide), width]
    · rw [told rfl rfl (by decide) (by decide) (by decide), partner]
  · exact ⟨fun _ => rfl, state, width, partner⟩

/-- A port that starts authentication (R366). -/
theorem State.authStart_shows (s : State) (p : Nat) : (s.authStart p).pst p = 7 ∧
    (s.authStart p).fget FAB_PORT_PARTNER.VALID 0 p = 0 ∧ (s.authStart p).port p =
      { s.port p with stSince := s.time, selfOk := false, peerOk := false, authAt := s.time, helloAt := s.time } := by
  refine ⟨?_, ?_, ?_⟩
  · rw [State.authStart, State.pst_onPort, State.pst_fset _ (Field.key_apart _ FAB_PORT_PARTNER.VALID 0 p), State.pst_setPst_same]
  · rw [State.authStart, State.fget_onPort, State.fget_fset_same]
    rfl
  · rw [State.authStart, State.port_onPort_same, State.port_fset, State.port_setPst_same]

/-- A link that is up, and retrains not, begins a warm retrain (R346). -/
theorem State.beginRetrain_shows (hp : p < 16) (hu : s.linkUp p = true) (hr : (s.port p).retrain = none) (cause : Nat) :
    (s.beginRetrain p cause).pst p = 2 ∧ ((s.beginRetrain p cause).port p).retrain = some cause ∧
      ((s.beginRetrain p cause).port p).before = s.pst p ∧ ((s.beginRetrain p cause).port p).warmTry = true ∧
      (s.beginRetrain p cause).mem = s.mem := by
  have begun : s.beginRetrain p cause = ((s.setPst p 2).onPort p (fun t => { t with
      retrain := some cause, retrainAt := s.time, before := s.pst p, warmTry := true, coldOnly := false
      ctrl := if cause = 1 then t.ctrl else t.ctrl ++ [(4, 0)] })).relive := by
    rw [State.beginRetrain, hu, hr]
    rfl
  rw [begun]
  have lived := State.relive_relived ((s.setPst p 2).onPort p (fun t => { t with
      retrain := some cause, retrainAt := s.time, before := s.pst p, warmTry := true, coldOnly := false
      ctrl := if cause = 1 then t.ctrl else t.ctrl ++ [(4, 0)] }))
  have port := lived.port p
  rw [State.port_onPort_same] at port
  refine ⟨?_, congrArg Port.retrain port, congrArg Port.before port, congrArg Port.warmTry port, ?_⟩
  · rw [lived.pst hp, State.pst_onPort, State.pst_setPst_same]
  · rw [State.relive_mem]
    rfl

/-- A link that is not up does not. -/
theorem State.beginRetrain_down (hu : s.linkUp p = false) (cause : Nat) : s.beginRetrain p cause = s := by
  rw [State.beginRetrain, hu]
  rfl

/-- A link that goes down (R346). -/
theorem State.linkLost_shows (s : State) (hp : p < 16) : ((s.linkLost p).port p).retrain = none ∧ (s.linkLost p).pst p = 1 ∧
    (s.linkLost p).fget FAB_PORT_STATUS.FAIL_CAUSE 0 p = s.fget FAB_PORT_STATUS.FAIL_CAUSE 0 p ∧
    (s.linkLost p).fget FAB_EVENT.LINK_DOWN 0 0 = 1 := by
  have lived := State.relive_relived (((s.onPort p (fun t =>
    { t.resetLink with retrain := none, vcq := [], ctrl := [], selfOk := false, peerOk := false })).setPst p 1).fset
    FAB_PORT_PARTNER.VALID 0 p 0)
  have port := lived.port p
  rw [State.port_fset, State.port_setPst_same, State.port_onPort_same] at port
  have told {t : State} {g : Field} (hb : g.blk = .fabric) (hs : g.stride = 64) (ho : 0x1000 ≤ g.off) (ho' : g.off < 0x2000)
      (hl : g.lo < 64) (n r : Nat) : ((t.evt FAB_EVENT.LINK_DOWN 0 0 1 none).fabRecord p 0x68 n r).fget g 0 p = t.fget g 0 p := by
    rw [State.fget_fabRecord _ _ _ _ _ (portKey_low hb hs ho' hl hp), State.fget_evt_ne]
    simp only [Field.key, Field.addr, hb, hs, FAB_EVENT.LINK_DOWN, blkBase]
    omega
  unfold State.linkLost
  refine ⟨?_, ?_, ?_, ?_⟩
  · rw [State.port_fabRecord, State.port_evt]
    exact congrArg Port.retrain port
  · rw [State.pst, told rfl rfl (by decide) (by decide) (by decide)]
    refine (lived.pst hp).trans ?_
    rw [State.pst_fset _ (Field.key_apart _ FAB_PORT_PARTNER.VALID 0 p), State.pst_setPst_same]
  · rw [told rfl rfl (by decide) (by decide) (by decide),
      lived.fget (by decide) (liveSpares_port rfl rfl (by decide) (by decide) hp),
      State.fget_fset_ne _ (Field.key_apart FAB_PORT_STATUS.FAIL_CAUSE FAB_PORT_PARTNER.VALID 0 p),
      State.fget_setPst _ (Field.key_apart FAB_PORT_STATUS.FAIL_CAUSE _ 0 p), State.fget_onPort]
  · rw [State.fget_fabRecord _ _ _ _ _ (by decide), State.fget_evt_one _ rfl]

include hp

/-- LINK_DETECT (R342). -/
theorem exec_linkDetect : exec (.linkDetect p) s = ok true s
    (if s.pst p ≠ 1 ∨ s.fget FAB_PORT_CTL.EN 0 p = 0 then s
     else (s.setPst p 2).onPort p (fun t =>
       { t with warmTry := t.settings && s.fget FAB_PORT_CTL.WARM_OK 0 p == 1, coldOnly := false, masks := [] })) := by
  change ok (portOk p) s _ = _
  rw [portOk, decide_eq_true hp]

/-- TRAINING_TIMEOUT (R342). -/
theorem exec_trainingTimeout : exec (.trainingTimeout p) s = ok true s
    (if trainLimit (s.pst p) (s.port p).warm ≠ 0 ∧ (s.port p).retrain = none ∧
        s.time ≥ (s.port p).stSince + trainLimit (s.pst p) (s.port p).warm then s.trainFail p (s.pst p - 1) else s) := by
  change ok (portOk p) s _ = _
  rw [portOk, decide_eq_true hp]

/-- TRAINING_RETRY (R342). -/
theorem exec_trainingRetry : exec (.trainingRetry p) s = ok true s
    (if s.pst p = 12 ∧ s.fget FAB_PORT_CTL.EN 0 p = 1 ∧ s.time ≥ (s.port p).retryAt then s.setPst p 1 else s) := by
  change ok (portOk p) s _ = _
  rw [portOk, decide_eq_true hp]

/-- LINK_INIT (R353). -/
theorem exec_linkInit (h : s.pst p = 6 ∨ s.linkUp p = true) : exec (.linkInit p) s =
    .next (s.onPort p (fun t => { t.resetLink with ctrl := t.ctrl ++ [(3, 0)] })) := by
  change ok (portOk p) s (if _ then _ else _) = _
  rw [portOk, decide_eq_true hp, if_neg]
  · exact ok_of_pending rfl
  · rintro ⟨hn, hd⟩
    rcases h with h | h
    · exact hn h
    · exact Bool.noConfusion (hd.symm.trans h)

/-- The counts restart, and the settings are saved (R342, R353). -/
def State.linkSaved (s : State) (p : Nat) : State :=
  (s.onPort p (fun t => { t.resetLink with settings := true, savedTaps := t.taps })).fset FAB_PORT_STATUS.WARM 0 p
    (bit (s.port p).warm)

/-- LINK_INIT_ACK in LINK_INIT, the port not quarantined (R342). -/
theorem exec_linkInitAck_up (h : s.pst p = 6) (hq : s.fget FAB_PORT_CTL.QUARANTINE 0 p = 0) : exec (.linkInitAck p) s = ok true s
    (((s.linkSaved p).authStart p).widthReport p (s.fget FAB_PORT_STATUS.WIDTH 0 p) (s.fget FAB_PORT_STATUS.LANES 0 p)) := by
  change ok (portOk p) s (if _ then _ else _) = _
  rw [portOk, decide_eq_true hp, if_pos h]
  dsimp only
  rw [hq]
  rfl

/-- LINK_INIT_ACK of a link that is up. -/
theorem exec_linkInitAck_again (h : s.linkUp p = true) : exec (.linkInitAck p) s = .next (s.onPort p Port.resetLink) := by
  have past : s.pst p ≠ 6 := by
    simp only [State.linkUp, Bool.and_eq_true, decide_eq_true_eq] at h
    omega
  change ok (portOk p) s (if _ then _ else _) = _
  rw [portOk, decide_eq_true hp, if_neg past, if_pos h]
  exact ok_of_pending rfl

/-- RETRAIN_REQ and a host's request (R346). -/
theorem exec_retrain {c : Instr} {cause : Nat} {who : Accessor} (hw : who.wf = true) (hc : s.portCtl who p false = true)
    (h : c = .retrainReq p ∧ cause = 1 ∨ c = .portRetrain who p ∧ cause = 2) :
    exec c s = ok true s (s.beginRetrain p cause) := by
  have port : portOk p = true := decide_eq_true hp
  rcases h with ⟨rfl, rfl⟩ | ⟨rfl, rfl⟩
  · change ok (portOk p) s _ = _
    rw [port]
  · change ok (who.wf && portOk p) s (if _ then _ else _) = _
    rw [hw, port, hc]
    rfl

/-- RETRAIN_COMPLETE without a retrain. -/
theorem exec_retrainComplete_none {w l : Nat} (hw : 1 ≤ w) (hw' : w ≤ 3) (h : (s.port p).retrain = none) :
    exec (.retrainComplete p w l) s = .next s := by
  change ok (portOk p && decide (1 ≤ w) && decide (w ≤ 3)) s _ = _
  rw [portOk, decide_eq_true hp, decide_eq_true hw, decide_eq_true hw', h]
  exact ok_of_pending rfl

/-- RETRAIN_COMPLETE of a retrain (R346). -/
theorem exec_retrainComplete {w l c : Nat} (hw : 1 ≤ w) (hw' : w ≤ 3) (h : (s.port p).retrain = some c) :
    exec (.retrainComplete p w l) s = ok true s
      ((((((s.setPst p (s.port p).before).onPort p (fun t => { t with retrain := none, stale := 0, progressAt := s.time })).widthReport
        p w l).fabRecord p 0x6E c 0).relive)) := by
  change ok (portOk p && decide (1 ≤ w) && decide (w ≤ 3)) s _ = _
  rw [portOk, decide_eq_true hp, decide_eq_true hw, decide_eq_true hw', h]
  rfl

/-- RETRAIN_TIMEOUT before its time. -/
theorem exec_retrainTimeout_none (h : (s.port p).retrain = none ∨ s.time < (s.port p).retrainAt + 150000000) :
    exec (.retrainTimeout p) s = .next s := by
  change ok (portOk p) s _ = _
  rw [portOk, decide_eq_true hp]
  cases hr : (s.port p).retrain with
  | none => exact ok_of_pending rfl
  | some c =>
    dsimp only
    rw [if_pos (h.resolve_left (by simp [hr]))]
    exact ok_of_pending rfl

/-- RETRAIN_TIMEOUT at its time (R346). -/
theorem exec_retrainTimeout {c : Nat} (h : (s.port p).retrain = some c) (ht : (s.port p).retrainAt + 150000000 ≤ s.time) :
    exec (.retrainTimeout p) s =
      ok true s (((s.fset FAB_PORT_STATUS.FAIL_CAUSE 0 p 6).linkLost p).fabRecord p 0x6E c 1) := by
  change ok (portOk p) s _ = _
  rw [portOk, decide_eq_true hp, h]
  dsimp only
  rw [if_neg (Nat.not_lt.mpr ht)]

end Attempts

section Settled

variable {s : State} {p : Nat} {f : TrainFrame} (hp : p < 16)

/-- The settings saved lie apart from what is set after them. -/
theorem State.linkSaved_port (s : State) (p : Nat) :
    (s.linkSaved p).port p = { (s.port p).resetLink with settings := true, savedTaps := (s.port p).taps } := by
  rw [State.linkSaved, State.port_fset, State.port_onPort_same]

/-- The lanes that a width gives are eight at most. -/
theorem laneGroup_lt {m w g : Nat} (h : laneGroup m = some (w, g)) (r : Bool) : w < 4 ∧ physLanes g r < 256 := by
  have all : ∀ x ∈ [(3, 0xFF), (2, 0x0F), (2, 0xF0), (1, 0x03), (1, 0x0C), (1, 0x30), (1, 0xC0)],
      ∀ r, x.1 < 4 ∧ physLanes x.2 r < 256 := by decide
  exact all (w, g) (List.mem_of_find?_eq_some h) r

/-- A state with a limit is one of FRAME to LINK_INIT. -/
theorem trainLimit_lt {st : Nat} {warm : Bool} (h : trainLimit st warm ≠ 0) : st - 1 < 16 := by
  by_contra far
  exact h (by simp [trainLimit, show st ≠ 2 by omega, show st ≠ 3 by omega, show ¬ st ≤ 6 by omega])

/-- The taps with which EQ begins (R344). -/
theorem Port.eqStart_taps (t : Port) :
    t.eqStart.taps = if t.warm then t.savedTaps else List.replicate 8 (tapPreset 4) := by
  by_cases warm : (t.warmTry && !t.coldOnly) = true
  · simp [Port.eqStart, Port.warm, warm]
  · simp [Port.eqStart, Port.warm, warm, Port.coldTaps]

/-- Where a frame in FRAME or EQ takes the port (R342). -/
def State.movedOn (s : State) (p : Nat) (f : TrainFrame) : State :=
  if s.pst p = 2 then
    (if frameReady f && f.heard != 0 then ((s.coldIf p 2 f).setPst p 3).onPort p Port.eqStart else s.coldIf p 2 f)
  else
    let s1 := (s.coldIf p 3 f).onPort p (fun t => t.eqFrame f)
    if f.heard &&& f.ownEq == f.heard then (s1.setPst p 4).onPort p (fun t => { t with masks := [] }) else s1

/-- It leaves whether the attempt is a cold one. -/
theorem State.movedOn_coldOnly {st : Nat} (h : s.pst p = st) (hst : st = 2 ∨ st = 3) :
    ((s.movedOn p f).port p).coldOnly = ((s.coldIf p st f).port p).coldOnly := by
  have start (t : Port) : t.eqStart.coldOnly = t.coldOnly := by
    by_cases warm : (t.warmTry && !t.coldOnly) = true
    · simp [Port.eqStart, warm]
    · simp [Port.eqStart, warm, Port.coldTaps]
  unfold State.movedOn
  rcases hst with rfl | rfl
  · rw [if_pos h]
    split
    · rw [State.port_onPort_same, State.port_setPst_same, start]
    · rfl
  · rw [if_neg (by omega)]
    dsimp only
    split
    · rw [State.port_onPort_same, State.port_setPst_same, State.port_onPort_same]
      exact (Port.eqFrame_shows _ f).2.2
    · rw [State.port_onPort_same]
      exact (Port.eqFrame_shows _ f).2.2

/-- In EQ it answers the partner's request (R344). -/
theorem State.movedOn_replied (f : TrainFrame) (h : s.pst p = 3) :
    ((s.movedOn p f).port p).taps = (((s.coldIf p 3 f).port p).replied f).taps ∧
    ((s.movedOn p f).port p).replies = (((s.coldIf p 3 f).port p).replied f).replies := by
  obtain ⟨taps, replies, -⟩ := Port.eqFrame_shows ((s.coldIf p 3 f).port p) f
  rw [State.movedOn, if_neg (show s.pst p ≠ 2 by omega)]
  dsimp only
  split
  · rw [State.port_onPort_same, State.port_setPst_same, State.port_onPort_same]
    exact ⟨taps, replies⟩
  · rw [State.port_onPort_same]
    exact ⟨taps, replies⟩

include hp in
/-- TRAINING_FRAME in FRAME or EQ (R342). -/
theorem exec_trainingFrame_moves {st : Nat} (hf : frameOk f.bits = true) (h : s.pst p = st) (hst : st = 2 ∨ st = 3) :
    exec (.trainingFrame p f) s = ok true s (State.answered p f (s.movedOn p f)) := by
  unfold State.movedOn
  rcases hst with rfl | rfl
  · rw [exec_trainingFrame_frame hp hf h, if_pos h]
  · rw [exec_trainingFrame_eq hp hf h, if_neg (show s.pst p ≠ 2 by omega)]

end Settled

/-- Settles O49: state by state, what a frame, a time or a request makes of the port; the live set that follows changes queues
alone. -/
theorem linksTrainAndRetrain : Obligations.LinksTrainAndRetrain := by
  unfold Obligations.LinksTrainAndRetrain
  intro s p hp
  refine ⟨fun hst hen => ?_, fun h => ?_, fun f ht hr ha => ⟨exec_trainingFrame_bad hp, fun hf hw hst => ?_,
    fun hf hw hv => ⟨fun hst hready hheard => ?_, fun hst hwait => ?_, fun hst => ?_, ?_, fun hst hlock => ?_⟩⟩,
    fun x tap act pre => tapsOk_tapMove, ⟨fun hl hn ht => ?_, fun h => ?_⟩, fun hst hen ht => ?_, fun ht => ?_,
    exec_linkInit hp, fun hst hq => ?_, exec_linkInitAck_again hp, fun c cause who hw hc h => ⟨fun hu hn => ?_, fun hu => ?_⟩,
    fun w l hw hw' => ⟨fun hn => ?_, exec_retrainComplete_none hp hw hw'⟩, fun hn ht => ?_, exec_retrainTimeout_none hp⟩
  · have detected := exec_linkDetect (s := s) hp
    rw [if_neg (by omega)] at detected
    refine answers_with (P := fun t => t.pst p = 2 ∧ (t.port p).warmTry = _ ∧ (t.port p).stSince = s.time ∧
      ∀ q, q < 16 → q ≠ p → t.port q = s.port q ∧ t.pst q = s.pst q) ⟨?_, ?_, ?_, fun q _ hne => ⟨?_, ?_⟩⟩ (fun _ _ h => h) detected
    · rw [State.pst_onPort, State.pst_setPst_same]
    · rw [State.port_onPort_same, State.port_setPst_same]
    · rw [State.port_onPort_same, State.port_setPst_same]
    · rw [State.port_onPort_ne _ hne, State.port_setPst_ne _ hne]
    · rw [State.pst_onPort, State.pst_setPst_ne _ hne]
  · rw [exec_linkDetect hp, if_pos h]
    exact ok_of_pending rfl
  · refine answers_with (P := fun t => (t.port p).coldOnly = true) ?_ (fun _ _ h => h) (exec_trainingFrame_moves hp hf rfl hst)
    obtain ⟨a, n, port⟩ := State.answered_port (s.movedOn p f) p f
    rw [port]
    exact (State.movedOn_coldOnly rfl hst).trans (State.coldIf_cold hw hst)
  · have framed := exec_trainingFrame_frame hp hf hst
    rw [State.coldIf_warm hw hv, hready, if_pos (by simpa using hheard)] at framed
    refine answers_with (P := fun t => t.pst p = 3 ∧ (t.port p).taps = _) ⟨?_, ?_⟩ (fun _ _ h => h) framed
    · rw [State.pst_answered, State.pst_onPort, State.pst_setPst_same]
    · obtain ⟨a, n, port⟩ := State.answered_port ((s.setPst p 3).onPort p Port.eqStart) p f
      rw [port, State.port_onPort_same, State.port_setPst_same]
      exact Port.eqStart_taps _
  · have framed := exec_trainingFrame_frame hp hf hst
    rw [State.coldIf_warm hw hv, if_neg (by rcases hwait with h | h <;> simp [h])] at framed
    exact answers_with (P := fun t => t.pst p = 2) ((State.pst_answered ..).trans hst) (fun _ _ h => h) framed
  · have framed := exec_trainingFrame_eq hp hf hst
    rw [State.coldIf_warm hw hv] at framed
    refine answers_with (P := fun t => t.pst p = _ ∧ _) ⟨?_, ?_⟩ (fun _ _ h => h) framed
    · rw [State.pst_answered]
      by_cases all : f.heard &&& f.ownEq = f.heard
      · simp [all, State.pst_onPort, State.pst_setPst_same]
      · simp [all, State.pst_onPort, hst]
    · obtain ⟨taps, replies⟩ := s.movedOn_replied f hst
      rw [State.movedOn, if_neg (show s.pst p ≠ 2 by omega), State.coldIf_warm hw hv] at taps replies
      obtain ⟨a, n, port⟩ := State.answered_port (if f.heard &&& f.ownEq == f.heard then
        ((s.onPort p (fun t => t.eqFrame f)).setPst p 4).onPort p (fun t => { t with masks := [] })
        else s.onPort p (fun t => t.eqFrame f)) p f
      dsimp only at port ⊢
      rw [port]
      dsimp only
      rw [taps, replies]
      exact (s.port p).replied_shows f ht hr
  · intro own hst hl hm
    have framed := exec_trainingFrame_width hp hf hst hl hm
    refine ⟨fun w g hg => ?_, fun hg => ?_⟩
    · obtain ⟨width, lanes⟩ := laneGroup_lt hg f.reversed
      rw [show laneGroup (s.goodLanes p f) = some (w, g) from hg] at framed
      refine answers_with (P := fun t => t.pst p = 5 ∧ t.fget FAB_PORT_STATUS.WIDTH 0 p = w ∧
        t.fget FAB_PORT_STATUS.LANES 0 p = physLanes g f.reversed) ⟨?_, ?_, ?_⟩ (fun _ _ h => h) framed
      · rw [State.pst_answered, State.pst_setPst_same]
      · rw [State.fget_answered, State.fget_setPst _ (Field.key_apart FAB_PORT_STATUS.WIDTH _ 0 p),
          State.fget_fset_ne _ (Field.key_apart FAB_PORT_STATUS.WIDTH FAB_PORT_STATUS.REVERSED 0 p),
          State.fget_fset_ne _ (Field.key_apart FAB_PORT_STATUS.WIDTH FAB_PORT_STATUS.LANES 0 p), State.fget_fset_same]
        exact Nat.mod_eq_of_lt width
      · rw [State.fget_answered, State.fget_setPst _ (Field.key_apart FAB_PORT_STATUS.LANES _ 0 p),
          State.fget_fset_ne _ (Field.key_apart FAB_PORT_STATUS.LANES FAB_PORT_STATUS.REVERSED 0 p), State.fget_fset_same]
        exact Nat.mod_eq_of_lt lanes
    · rw [show laneGroup (s.goodLanes p f) = none from hg] at framed
      obtain ⟨state, cause, -⟩ := s.trainFail_shows p 3
      exact answers_with (P := fun t => t.pst p = 12 ∧ t.fget FAB_PORT_STATUS.FAIL_CAUSE 0 p = 3)
        ⟨(State.pst_answered ..).trans state, (State.fget_answered ..).trans cause⟩ (fun _ _ h => h) framed
  · have framed := exec_trainingFrame_lock hp hf hst
    rw [State.coldIf_warm hw hv, if_pos hlock] at framed
    refine answers_with (P := fun t => t.pst p = 6 ∧ (t.port p).ctrl = _) ⟨?_, ?_⟩ (fun _ _ h => h) framed
    · rw [State.pst_answered, State.pst_onPort, State.pst_setPst_same]
    · obtain ⟨a, n, port⟩ := State.answered_port
        ((s.setPst p 6).onPort p (fun t => { t with ctrl := t.ctrl ++ [(2, 0)] })) p f
      rw [port, State.port_onPort_same, State.port_setPst_same]
  · have timed := exec_trainingTimeout (s := s) hp
    rw [if_pos ⟨hl, hn, ht⟩] at timed
    obtain ⟨state, cause, retry⟩ := s.trainFail_shows p (s.pst p - 1)
    refine answers_with (P := fun t => t.pst p = 12 ∧ t.fget FAB_PORT_STATUS.FAIL_CAUSE 0 p = _ ∧ (t.port p).retryAt = _)
      ⟨state, ?_, retry⟩ (fun _ _ h => h) timed
    rw [cause]
    exact Nat.mod_eq_of_lt (trainLimit_lt hl)
  · rw [exec_trainingTimeout hp, if_neg]
    · exact ok_of_pending rfl
    · rintro ⟨hl, hn, ht⟩
      rcases h with h | h | h
      · exact hl h
      · exact h hn
      · omega
  · have retried := exec_trainingRetry (s := s) hp
    rw [if_pos ⟨hst, hen, ht⟩] at retried
    exact answers_with (P := fun t => t.pst p = 1) (State.pst_setPst_same ..) (fun _ _ h => h) retried
  · rw [exec_trainingRetry hp, if_neg fun h => absurd h.2.2 (Nat.not_le.mpr ht)]
    exact ok_of_pending rfl
  · obtain ⟨port, state, -, partner⟩ := ((s.linkSaved p).authStart p).widthReport_shows hp
      (s.fget FAB_PORT_STATUS.WIDTH 0 p) (s.fget FAB_PORT_STATUS.LANES 0 p)
    obtain ⟨begun, invalid, auth⟩ := (s.linkSaved p).authStart_shows p
    have settled := (port p).trans auth
    rw [s.linkSaved_port p] at settled
    refine answers_with (P := fun t => t.pst p = 7 ∧ (t.port p).settings = true ∧ (t.port p).savedTaps = _ ∧
      (t.port p).selfOk = false ∧ (t.port p).peerOk = false ∧ (t.port p).txSeq = 0 ∧ t.fget FAB_PORT_PARTNER.VALID 0 p = 0)
      ⟨state.trans begun, ?_, ?_, ?_, ?_, ?_, partner.trans invalid⟩ (fun _ _ h => h) (exec_linkInitAck_up hp hst hq)
    all_goals rw [settled]
    rfl
  · have begun := exec_retrain hp hw hc h
    exact answers_with (State.beginRetrain_shows hp hu hn cause) (fun _ _ h => h) begun
  · rw [exec_retrain hp hw hc h, State.beginRetrain_down hu]
    exact ok_of_pending rfl
  · obtain ⟨c, hn⟩ := Option.ne_none_iff_exists'.mp hn
    obtain ⟨port, state, width, -⟩ := ((s.setPst p (s.port p).before).onPort p
      (fun t => { t with retrain := none, stale := 0, progressAt := s.time })).widthReport_shows hp w l
    have lived := State.relive_relived ((((s.setPst p (s.port p).before).onPort p
      (fun t => { t with retrain := none, stale := 0, progressAt := s.time })).widthReport p w l).fabRecord p 0x6E c 0)
    refine answers_with (P := fun t => (t.port p).retrain = none ∧ t.pst p = _ ∧ t.fget FAB_PORT_STATUS.WIDTH 0 p = w)
      ⟨?_, ?_, ?_⟩ (fun _ _ h => h) (exec_retrainComplete hp hw hw' hn (l := l))
    · refine (congrArg Port.retrain (lived.port p)).trans ?_
      rw [State.port_fabRecord, port, State.port_onPort_same]
    · rw [lived.pst hp, State.pst, State.fget_fabRecord _ _ _ _ _ (portKey_low rfl rfl (by decide) (by decide) hp)]
      rw [← State.pst, state, State.pst_onPort, State.pst_setPst_same]
    · rw [lived.fget (by decide) (liveSpares_port rfl rfl (by decide) (by decide) hp),
        State.fget_fabRecord _ _ _ _ _ (portKey_low rfl rfl (by decide) (by decide) hp), width]
      omega
  · obtain ⟨c, hn⟩ := Option.ne_none_iff_exists'.mp hn
    obtain ⟨retrain, state, cause, down⟩ := (s.fset FAB_PORT_STATUS.FAIL_CAUSE 0 p 6).linkLost_shows hp
    refine answers_with (P := fun t => (t.port p).retrain = none ∧ t.pst p = 1 ∧ t.fget FAB_PORT_STATUS.FAIL_CAUSE 0 p = 6 ∧
      t.fget FAB_EVENT.LINK_DOWN 0 0 = 1) ⟨?_, ?_, ?_, ?_⟩ (fun _ _ h => h) (exec_retrainTimeout hp hn ht)
    · rw [State.port_fabRecord, retrain]
    · rw [State.pst, State.fget_fabRecord _ _ _ _ _ (portKey_low rfl rfl (by decide) (by decide) hp)]
      exact state
    · rw [State.fget_fabRecord _ _ _ _ _ (portKey_low rfl rfl (by decide) (by decide) hp), cause, State.fget_fset_same]
      rfl
    · rw [State.fget_fabRecord _ _ _ _ _ (by decide), down]

end Sys2Proof.Machine
end

section
/-!
PROOF. Flits, replay, FEC blocks, tallies and quarantine (R347 to R360, R372 to R374).
-/

namespace Sys2Proof.Machine

section Blocks

/-- A flit is 256 bytes (R350). -/
theorem flitBytes_length (f : Flit) : (flitBytes f).length = 256 := by
  unfold flitBytes
  dsimp only
  rw [List.length_append, List.length_append, natLE_length, natLE_length, List.length_take, List.length_append,
    List.length_replicate, Nat.min_eq_left (Nat.le_add_left ..)]

/-- Symbols dealt to lanes: five levels of each (R347). -/
theorem deal_lanes (n : Nat) (syms : List Nat) : (deal n syms).length = n ∧
    ∀ l ∈ deal n syms, l.length = syms.length / n * 5 := by
  refine ⟨by simp [deal], fun l hl => ?_⟩
  obtain ⟨k, -, rfl⟩ := List.mem_map.mp hl
  simp [List.length_flatMap, symbolLevels]

/-- The four codewords of a block give 2,176 symbols (R347). -/
theorem interleave_length (f : Nat → List Nat) : (interleave ((List.range 4).map f)).length = 2176 := by
  have each : (fun i : Nat => (((List.range 4).map f).map (fun c => c.getD i 0)).length) = fun _ => 4 :=
    funext fun _ => by rw [List.length_map, List.length_map, List.length_range]
  rw [interleave, List.length_flatMap, each, List.map_const', List.sum_replicate, List.length_range]
  rfl

/-- A block's lanes are those of its width, five levels to each symbol (R347, R348). -/
theorem blockLanes_lanes (count width scr : Nat) (fs : List Flit) : (blockLanes count width scr fs).1.length = 2 ^ width ∧
    ∀ l ∈ (blockLanes count width scr fs).1, l.length = 2176 / 2 ^ width * 5 := by
  obtain ⟨lanes, levels⟩ := deal_lanes (2 ^ width) (interleave ((List.range 4).map (codeword (symbolsOf 2056
    (natBits 80 (blockMarker count (width - 1)) ++ (scramble scr (byteBits (fs.flatMap flitBytes))).1)))))
  rw [interleave_length] at levels
  exact ⟨lanes, levels⟩

variable (t : Port) (w : Nat) (f : Flit)

/-- A flit that does not fill the block joins it. -/
theorem Port.intoBlock_joins (h : t.blk.length < 9) : t.intoBlock w f = { t with blk := t.blk ++ [f] } := by
  unfold Port.intoBlock
  exact if_pos (by rw [List.length_append]; exact Nat.succ_lt_succ h)

/-- The tenth sends it. -/
theorem Port.intoBlock_sends (h : t.blk.length = 9) : t.intoBlock w f = { t with
    blk := [], blocks := (t.blocks + 1) % 256, scr := (blockLanes t.blocks w t.scr (t.blk ++ [f])).2,
    lanes := (blockLanes t.blocks w t.scr (t.blk ++ [f])).1 } := by
  unfold Port.intoBlock
  exact if_neg (by rw [List.length_append, h, List.length_singleton]; decide)

end Blocks

section Received

variable {s : State} {p : Nat} {f : Flit}

/-- Whether the link is up is in the registers. -/
theorem State.linkUp_onPort (s : State) (p q : Nat) (g : Port → Port) : (s.onPort p g).linkUp q = s.linkUp q := rfl

/-- A good flit that acknowledges nothing gives its credits (R358). -/
theorem State.flitHeader_credits (h : f.ackV = false) : s.flitHeader p f =
    s.onPort p (fun t => { t with crTot := t.crTot.set (f.crBuf % 16) (f.crTotal % 4096) }) := by
  rw [State.flitHeader, h]
  rfl

/-- A block's corrected symbols are added to their count, which stays at its largest value. -/
theorem State.fget_fcountN (s : State) (g : Field) (u i n : Nat) :
    (s.fcountN g u i n).fget g u i = min (s.fget g u i + n) (2 ^ g.w - 1) := by
  rw [State.fcountN, State.fget_fset_same]
  have := Nat.two_pow_pos g.w
  exact Nat.mod_eq_of_lt (by omega)

/-- What of a port is not its queue is left as the live set follows. -/
theorem State.Relived.kept {t : State} {α : Type} (h : s.Relived t) (g : Port → α) (hg : ∀ x : Port, g { x with vcq := [] } = g x)
    (q : Nat) : g (t.port q) = g (s.port q) := by
  rw [← hg, h.port q, hg]

/-- A retrain leaves what is sent again, and its count (R346). -/
theorem State.beginRetrain_replay (s : State) (p cause : Nat) :
    ((s.beginRetrain p cause).port p).resend = (s.port p).resend ∧ ((s.beginRetrain p cause).port p).stale = (s.port p).stale := by
  have begun (ctrl : Port → List (Nat × Nat)) :
      let u := ((s.setPst p 2).onPort p (fun t => { t with
        retrain := some cause, retrainAt := s.time, before := s.pst p, warmTry := true, coldOnly := false, ctrl := ctrl t })).relive
      (u.port p).resend = (s.port p).resend ∧ (u.port p).stale = (s.port p).stale := by
    intro u
    rw [(State.relive_relived _).kept Port.resend (fun _ => rfl), (State.relive_relived _).kept Port.stale (fun _ => rfl),
      State.port_onPort_same, State.port_setPst_same]
    exact ⟨rfl, rfl⟩
  unfold State.beginRetrain
  by_cases stays : (!s.linkUp p || (s.port p).retrain.isSome) = true
  · rw [if_pos stays]
    exact ⟨rfl, rfl⟩
  · rw [if_neg stays]
    exact begun _

/-- What a good flit that has acknowledged does besides (R355). -/
def State.dataTaken (s : State) (p : Nat) (f : Flit) : State :=
  if !s.linkUp p then s
  else if f.seq % 4096 = (s.port p).rxSeq then
    let s2 := s.onPort p (fun t => { t with rxSeq := ((s.port p).rxSeq + 1) % 4096, rxAny := true, nakAt := none })
    if s2.pst p = 9 then s2.onPort p (fun t => { t with freed := listAdd t.freed (classOf f.vc f.dl) 1 })
    else if s2.flitCause p f = 0 then s2.acceptFlit p f else s2.dropFlit p f (s2.flitCause p f)
  else if ((s.port p).rxSeq + 4096 - f.seq % 4096) % 4096 < 2048 then s
  else s.sendNak p

/-- What a replay begins with is what the port sends again (R354, R356). -/
theorem State.replayFrom_shows {fs : List Flit} (h : fs ≠ []) : ((s.replayFrom p fs).port p).resend = fs ∧
    ((s.replayFrom p fs).port p).stale = (s.port p).stale + 1 := by
  have begun : (((s.fcount FAB_PORT_COUNT2.REPLAYS 0 p).onPort p (fun t =>
      { t with resend := fs, stale := t.stale + 1, replaysUp := t.replaysUp + 1, progressAt := s.time })).port p) =
      { s.port p with resend := fs, stale := (s.port p).stale + 1, replaysUp := (s.port p).replaysUp + 1, progressAt := s.time } := by
    rw [State.port_onPort_same]
    rfl
  unfold State.replayFrom
  rw [if_neg h]
  dsimp only
  split
  · obtain ⟨resend, stale⟩ := State.beginRetrain_replay ((s.fcount FAB_PORT_COUNT2.REPLAYS 0 p).onPort p (fun t =>
      { t with resend := fs, stale := t.stale + 1, replaysUp := t.replaysUp + 1, progressAt := s.time })) p 0
    rw [resend, stale, begun]
    exact ⟨rfl, rfl⟩
  · rw [begun]
    exact ⟨rfl, rfl⟩

variable (hp : p < 16)
include hp

/-- A block with its marker, its first codeword alone corrected (R349). -/
theorem exec_fecBlock {n : Nat} (hn : n ≤ 15) (h : 5 ≤ s.pst p) (h' : s.pst p ≤ 11) : exec (.fecBlock p true [n, 0, 0, 0]) s =
    ok true s (((((s.fcountN FAB_PORT_COUNT.FEC_CORR 0 p n).fcountN FAB_PORT_COUNT.FEC_CORR 0 p 0).fcountN
      FAB_PORT_COUNT.FEC_CORR 0 p 0).fcountN FAB_PORT_COUNT.FEC_CORR 0 p 0).onPort p (fun t => { t with missed := 0 })) := by
  change ok (portOk p && _) s (if _ then _ else _) = _
  rw [portOk, decide_eq_true hp, if_neg (by omega)]
  dsimp only
  rw [if_neg (by simp)]
  simp [hn]

section Data

variable (hu : s.linkUp p = true) (hv : f.vc < 8) (hd : f.dl < 2)
include hu hv hd

/-- DATA_FLIT with a bad CRC (R352). -/
theorem exec_dataFlit_bad (hc : f.crcOk = false) : exec (.dataFlit p f) s = .next (s.sendNak p) := by
  change ok (portOk p && decide (f.vc < 8) && decide (f.dl < 2)) s (if _ then _ else _) = _
  rw [portOk, decide_eq_true hp, decide_eq_true hv, decide_eq_true hd, hu, hc]
  exact ok_of_pending rfl

/-- DATA_FLIT with a good CRC (R355). -/
theorem exec_dataFlit_good (hc : f.crcOk = true) : exec (.dataFlit p f) s = ok true s ((s.flitHeader p f).dataTaken p f) := by
  change ok (portOk p && decide (f.vc < 8) && decide (f.dl < 2)) s (if _ then _ else _) = _
  rw [portOk, decide_eq_true hp, decide_eq_true hv, decide_eq_true hd, hu, hc]
  rfl

end Data

/-- IDLE_FLIT of a good one (R353). -/
theorem exec_idleFlit (hu : s.linkUp p = true) (hc : f.crcOk = true) (hr : f.rsvd0 = true) (ht : f.ty = 0) :
    exec (.idleFlit p f) s = ok true s (s.flitHeader p f) := by
  change ok (portOk p) s (if _ then _ else _) = _
  rw [portOk, decide_eq_true hp, hu, hc, hr, ht]
  rfl

/-- NAK of a flit in the replay buffer, no replay of it under way (R354). -/
theorem exec_nak {seq i : Nat} (hu : s.linkUp p = true) (hi : (s.port p).replay.findIdx? (fun x => x.seq == seq) = some i)
    (hn : ∀ x ∈ (s.port p).resend, x.seq ≠ seq) : exec (.nak p seq) s = ok true s (s.replayFrom p ((s.port p).replay.drop i)) := by
  have fresh : ((s.port p).resend.any fun x => x.seq == seq) = false := by simpa using hn
  change ok (portOk p) s (if _ then _ else _) = _
  rw [portOk, decide_eq_true hp, hu, fresh]
  rw [hi]
  rfl

/-- REPLAY_TIMEOUT (R354). -/
theorem exec_replayTimeout : exec (.replayTimeout p) s = ok true s
    (if s.linkUp p && (s.port p).replay != [] && decide (s.time ≥ (s.port p).progressAt + 2000) then
      s.replayFrom p (s.port p).replay else s) := by
  change ok (portOk p) s _ = _
  rw [portOk, decide_eq_true hp]

/-- NAK_REPEAT with a NAK outstanding for 1 us (R355). -/
theorem exec_nakRepeat {t0 : Nat} (hn : (s.port p).nakAt = some t0) (hu : s.linkUp p = true) (ht : t0 + 1000 ≤ s.time) :
    exec (.nakRepeat p) s = .next (s.onPort p (fun t => { t with nakAt := some s.time, ctrl := t.ctrl ++ [(1, t.rxSeq)] })) := by
  change ok (portOk p) s _ = _
  rw [portOk, decide_eq_true hp, hn, hu]
  dsimp only
  rw [if_pos (by simpa using ht)]
  exact ok_of_pending rfl

/-- NAK_REPEAT with none. -/
theorem exec_nakRepeat_none (hn : (s.port p).nakAt = none) : exec (.nakRepeat p) s = .next s := by
  change ok (portOk p) s _ = _
  rw [portOk, decide_eq_true hp, hn]
  exact ok_of_pending rfl

section Slots

omit hp in
/-- A flit sent leaves the commands that wait. -/
theorem State.sendData_pending (s : State) (p : Nat) (q : Queued) : (s.sendData p q).pending = s.pending := by
  unfold State.sendData
  split
  all_goals rfl

/-- FLIT_SLOT with a CTRL flit that waits (R360). -/
theorem exec_flitSlot_ctrl {sub v : Nat} {rest : List (Nat × Nat)} (hc : (s.port p).ctrl = (sub, v) :: rest) (h : 6 ≤ s.pst p) :
    exec (.flitSlot p) s = .next ((s.onPort p (fun t => { t with ctrl := rest })).sendFlit p (ctrlFlit sub v)) := by
  change ok (portOk p) s _ = _
  rw [portOk, decide_eq_true hp]
  dsimp only
  rw [hc]
  dsimp only
  rw [if_neg (by omega), if_neg (by omega)]
  exact ok_of_pending rfl

/-- FLIT_SLOT in LOCK (Table 14.2). -/
theorem exec_flitSlot_lock (h : s.pst p = 5) : exec (.flitSlot p) s = .next (s.sendFlit p (blankFlit 0)) := by
  change ok (portOk p) s _ = _
  rw [portOk, decide_eq_true hp]
  dsimp only
  cases (s.port p).ctrl with
  | nil =>
    dsimp only
    rw [if_pos h]
    exact ok_of_pending rfl
  | cons c rest =>
    dsimp only
    rw [if_neg (by omega), if_pos h]
    exact ok_of_pending rfl

variable (hc : (s.port p).ctrl = [])
include hc

/-- FLIT_SLOT in LINK_INIT (Table 14.2). -/
theorem exec_flitSlot_init (h : s.pst p = 6) : exec (.flitSlot p) s = .next (s.sendFlit p (ctrlFlit 2 0)) := by
  change ok (portOk p) s _ = _
  rw [portOk, decide_eq_true hp]
  dsimp only
  rw [hc]
  dsimp only
  rw [if_neg (by omega), if_pos h]
  exact ok_of_pending rfl

variable (hu : s.linkUp p = true) (hi : (s.port p).sinceIdle < 2047) (hq : s.pst p ≠ 9) (hr : (s.port p).resend = [])
include hu hi hq hr

/-- FLIT_SLOT of a link that is up, with no CTRL flit, IDLE flit or replay due (R360). -/
theorem exec_flitSlot_free : exec (.flitSlot p) s = ok true s
    (match s.eligible p 1, s.eligible p 0, s.arbPick p with
     | some q, _, _ => s.sendData p q
     | none, some q, _ => s.sendData p q
     | none, none, some (v, left) =>
       (match s.eligible p v with
        | some q => (s.onPort p (fun t => { t with arbVc := v, arbLeft := left })).sendData p q
        | none => s)
     | none, none, none => s.sendFlit p (blankFlit 0)) := by
  have up : 7 ≤ s.pst p := by
    simp only [State.linkUp, Bool.and_eq_true, decide_eq_true_eq] at hu
    exact hu.1
  change ok (portOk p) s _ = _
  rw [portOk, decide_eq_true hp]
  dsimp only
  rw [hc]
  dsimp only
  rw [if_neg (by omega), if_neg (by omega), if_neg (by simp [hu]), if_neg (by omega), hr]
  all_goals rfl

/-- FLIT_SLOT of a link that is up, with no CTRL flit, IDLE flit or replay due: VC 1 first (R360). -/
theorem exec_flitSlot_first {q : Queued} (h : s.eligible p 1 = some q) : exec (.flitSlot p) s = .next (s.sendData p q) := by
  rw [exec_flitSlot_free hp hc hu hi hq hr, h]
  exact ok_of_pending (s.sendData_pending p q)

/-- An IDLE flit where nothing waits (R360). -/
theorem exec_flitSlot_idle (h1 : s.eligible p 1 = none) (h0 : s.eligible p 0 = none) (h : s.arbPick p = none) :
    exec (.flitSlot p) s = .next (s.sendFlit p (blankFlit 0)) := by
  rw [exec_flitSlot_free hp hc hu hi hq hr, h1, h0, h]
  exact ok_of_pending rfl

end Slots

/-- FAB_TALLY_LEAK (R372). -/
theorem exec_fabTallyLeak : exec (.fabTallyLeak p) s = ok true s
    (if s.time < (s.port p).leakAt + max 1 (s.fget FAB_PORT_TALLY_CTL.LEAK_MS 0 p) * 1000000 then s
     else (s.fset FAB_PORT_TALLY.LEVEL 0 p (s.fget FAB_PORT_TALLY.LEVEL 0 p - 1)).onPort p (fun t => { t with leakAt := s.time })) := by
  change ok (portOk p) s _ = _
  rw [portOk, decide_eq_true hp]

/-- FAB_RATE_INTERVAL (R374): the counts of its limit alone restart. -/
theorem exec_fabRateInterval (mgmt : Bool) : ∃ t, exec (.fabRateInterval p mgmt) s = .next t ∧
    (t.port p).mgmt = (if mgmt then 0 else (s.port p).mgmt) ∧ (t.port p).msgs = (if mgmt then (s.port p).msgs else 0) := by
  have begun : exec (.fabRateInterval p mgmt) s = ok true s (s.onPort p (fun t =>
      let mine (c : Nat) : Bool := if mgmt then decide (c < 2) else decide (c ≥ 4)
      { t with
        msgs := if mgmt then t.msgs else 0
        mgmt := if mgmt then 0 else t.mgmt
        freed := t.freed.mapIdx (fun c n => if mine c then n + t.heldBack.getD c 0 else n)
        heldBack := t.heldBack.mapIdx (fun c n => if mine c then 0 else n) })) := by
    change ok (portOk p) s _ = _
    rw [portOk, decide_eq_true hp]
  refine answers_with (P := fun t => (t.port p).mgmt = _ ∧ (t.port p).msgs = _) ⟨?_, ?_⟩ (fun _ _ h => h) begun
  · rw [State.port_onPort_same]
  · rw [State.port_onPort_same]

section Quarantines

variable {who : Accessor} (hw : who.wf = true)
include hw

/-- PORT_QUARANTINE (R373). -/
theorem exec_portQuarantine : exec (.portQuarantine who p) s = ok true s
    (if s.portCtl who p true && s.fget FAB_PORT_CTL.QUARANTINE 0 p == 0 then s.quarantine p 1 else s) := by
  change ok (who.wf && portOk p) s _ = _
  rw [portOk, decide_eq_true hp, hw, Bool.and_self]

/-- PORT_RELEASE by who may not. -/
theorem exec_portRelease_none (h : s.portCtl who p true = false) : exec (.portRelease who p) s = .next s := by
  change ok (who.wf && portOk p) s (if _ then _ else _) = _
  rw [portOk, decide_eq_true hp, hw, h]
  exact ok_of_pending rfl

/-- PORT_RELEASE of a port in QUARANTINE (R373). -/
theorem exec_portRelease (h : s.portCtl who p true = true) (hq : s.fget FAB_PORT_CTL.QUARANTINE 0 p = 1) (hs : s.pst p = 9) :
    exec (.portRelease who p) s = ok true s ((((s.fset FAB_PORT_CTL.QUARANTINE 0 p 0).fset FAB_PORT_TALLY.LEVEL 0 p 0).onPort p
      (fun t => { t.resetLink with ctrl := t.ctrl ++ [(2, 0)] })).authStart p) := by
  change ok (who.wf && portOk p) s (if _ then _ else _) = _
  rw [portOk, decide_eq_true hp, hw, h, hq, hs]
  rfl

end Quarantines

/-- LINK_RESET of a link that is up and not quarantined (R353). -/
theorem exec_linkReset {c : Nat} (hc : c = 1 ∨ c = 2) (hu : s.linkUp p = true) (hq : s.pst p ≠ 9) : exec (.linkReset p c) s =
    ok true s ((((s.onPort p Port.resetLink).authStart p).relive).onPort p (fun t => { t with vcq := [] })) := by
  change ok (portOk p && (c == 1 || c == 2)) s (if _ then _ else _) = _
  have operand : (c == 1 || c == 2) = true := by simpa using hc
  rw [portOk, decide_eq_true hp, operand, hu]
  dsimp only
  rw [if_neg hq]
  rfl

/-- LINK_RESET of one that is not. -/
theorem exec_linkReset_down {c : Nat} (hc : c = 1 ∨ c = 2) (hu : s.linkUp p = false) : exec (.linkReset p c) s = .next s := by
  change ok (portOk p && (c == 1 || c == 2)) s (if _ then _ else _) = _
  have operand : (c == 1 || c == 2) = true := by simpa using hc
  rw [portOk, decide_eq_true hp, operand, hu]
  exact ok_of_pending rfl

omit hp in
/-- A message is no register. -/
theorem State.fget_withInbox (s : State) (l : List Msg) (g : Field) (u i : Nat) : (s.withInbox l).fget g u i = s.fget g u i := rfl

/-- A port set to QUARANTINE (R373). -/
def State.inQuarantine (s : State) (p : Nat) : State :=
  ((s.fset FAB_PORT_CTL.QUARANTINE 0 p 1).setPst p 9).onPort p (fun t =>
    { t.resetLink with ctrl := t.ctrl ++ [(5, 1)], selfOk := false, peerOk := false })

omit hp in
/-- Quarantine of a port whose link is up (R373). -/
theorem State.quarantine_up (hu : s.linkUp p = true) (n : Nat) : s.quarantine p n =
    (((((s.inQuarantine p).withInbox ((s.inQuarantine p).inbox.filter (fun m => m.port != p))).relive.onPort p
      (fun t => { t with vcq := [] })).fabRecord p 0x6C n (s.fget FAB_PORT_TALLY.LAST_CAUSE 0 p)).evt
      FAB_EVENT.QUARANTINE 0 0 1 none) := by
  unfold State.quarantine
  dsimp only
  rw [if_pos hu]
  rfl

/-- A quarantined port of a link that is up (R373). -/
theorem State.quarantine_shows (hu : s.linkUp p = true) (n : Nat) : (s.quarantine p n).fget FAB_PORT_CTL.QUARANTINE 0 p = 1 ∧
    (s.quarantine p n).pst p = 9 ∧ ((s.quarantine p n).port p).vcq = [] ∧ (s.quarantine p n).fget FAB_EVENT.QUARANTINE 0 0 = 1 ∧
    (s.quarantine p n).mem = s.mem := by
  have told {t : State} {g : Field} (hb : g.blk = .fabric) (hs : g.stride = 64) (ho : 0x1000 ≤ g.off) (ho' : g.off < 0x2000)
      (hl : g.lo < 64) (i r : Nat) : ((t.fabRecord p 0x6C i r).evt FAB_EVENT.QUARANTINE 0 0 1 none).fget g 0 p = t.fget g 0 p := by
    rw [State.fget_evt_ne, State.fget_fabRecord _ _ _ _ _ (portKey_low hb hs ho' hl hp)]
    simp only [Field.key, Field.addr, hb, hs, FAB_EVENT.QUARANTINE, blkBase]
    omega
  rw [State.quarantine_up hu]
  have lived := State.relive_relived ((s.inQuarantine p).withInbox ((s.inQuarantine p).inbox.filter (fun m => m.port != p)))
  refine ⟨?_, ?_, ?_, State.fget_evt_one _ rfl .., ?_⟩
  · rw [told rfl rfl (by decide) (by decide) (by decide), State.fget_onPort,
      lived.fget (by decide) (liveSpares_port rfl rfl (by decide) (by decide) hp), State.fget_withInbox,
      State.inQuarantine, State.fget_onPort, State.fget_setPst _ (Field.key_apart FAB_PORT_CTL.QUARANTINE _ 0 p), State.fget_fset_same]
    rfl
  · rw [State.pst, told rfl rfl (by decide) (by decide) (by decide), State.fget_onPort]
    refine (lived.pst hp).trans ?_
    rw [State.pst, State.fget_withInbox, ← State.pst, State.inQuarantine, State.pst_onPort,
      State.pst_setPst_same]
  · rw [State.port_evt, State.port_fabRecord, State.port_onPort_same]
  · have quiet (t : State) (i r : Nat) : ((t.fabRecord p 0x6C i r).evt FAB_EVENT.QUARANTINE 0 0 1 none).mem = t.mem := by
      simp [State.fabRecord]
    rw [quiet]
    exact State.relive_mem _

/-- A port whose link layer and authentication restart (R353). -/
theorem State.linkReset_shows (s : State) :
    let t := (((s.onPort p Port.resetLink).authStart p).relive).onPort p (fun t => { t with vcq := [] })
    t.pst p = 7 ∧ (t.port p).vcq = [] ∧ (t.port p).txSeq = 0 := by
  obtain ⟨state, -, auth⟩ := (s.onPort p Port.resetLink).authStart_shows p
  have lived := State.relive_relived ((s.onPort p Port.resetLink).authStart p)
  refine ⟨?_, ?_, ?_⟩
  · rw [State.pst_onPort, lived.pst hp, state]
  · rw [State.port_onPort_same]
  · rw [State.port_onPort_same]
    refine (lived.kept Port.txSeq (fun _ => rfl) p).trans ?_
    rw [auth, State.port_onPort_same]
    rfl

omit hp in
/-- An accepted flit that holds a whole message arrives in the inbox (R355). -/
theorem State.acceptFlit_whole (s : State) (p : Nat) (he : f.eom = true)
    (hn : (s.port p).partials.find? (fun x => x.1 == f.vc) = none) (hm : (parseMsg p f.vc f.dl f.payload).ty ≠ 0xF1) :
    ∃ g : Port → Port, s.acceptFlit p f = (s.onPort p g).withInbox (s.inbox ++ [parseMsg p f.vc f.dl f.payload]) ∧
      ∀ t, (g t).rxSeq = t.rxSeq ∧ (g t).nakAt = t.nakAt := by
  have one : (([] ++ [f]).map Flit.payload).flatten = f.payload := by simp
  refine ⟨?joined, ?_, ?_⟩
  rotate_left
  · unfold State.acceptFlit
    dsimp only
    rw [hn, Option.map_none, Option.getD_none, he, one, if_neg (by decide), if_neg fun h => hm h.1]
    rfl
  · exact fun t => ⟨rfl, rfl⟩

omit hp in
/-- With it nothing else of the inbox, nor memory, and of the port's receiver its buffers alone. -/
theorem State.acceptFlit_shows (s : State) (p : Nat) (he : f.eom = true)
    (hn : (s.port p).partials.find? (fun x => x.1 == f.vc) = none) (hm : (parseMsg p f.vc f.dl f.payload).ty ≠ 0xF1) :
    (s.acceptFlit p f).inbox = s.inbox ++ [parseMsg p f.vc f.dl f.payload] ∧
      ((s.acceptFlit p f).port p).rxSeq = (s.port p).rxSeq ∧ ((s.acceptFlit p f).port p).nakAt = (s.port p).nakAt ∧
      (s.acceptFlit p f).mem = s.mem := by
  obtain ⟨g, whole, kept⟩ := s.acceptFlit_whole p he hn hm
  have port : (s.acceptFlit p f).port p = g (s.port p) := by
    rw [whole]
    exact s.port_onPort_same g
  rw [port, (kept _).1, (kept _).2, whole]
  exact ⟨rfl, rfl, rfl, rfl⟩

end Received

/-- Settles O50: command by command. -/
theorem flitsMoveAndPortsAreQuarantined : Obligations.FlitsMoveAndPortsAreQuarantined := by
  unfold Obligations.FlitsMoveAndPortsAreQuarantined
  intro s p f hp
  refine ⟨fun n hn h h' => ?_, fun hu hv hd => ⟨fun hc _ => exec_dataFlit_bad hp hu hv hd hc, fun hc ha =>
    ⟨fun hne hold => ?_, fun hr ht => ?_, fun hseq hst hcause hsom heom hpart hty => ?_⟩⟩, fun hu seq i hi hn => ?_,
    fun hu hr ht => ?_, fun ht => ?_, fun t0 hn hu ht => exec_nakRepeat hp hn hu ht, exec_nakRepeat_none hp,
    fun sub v rest hc h => exec_flitSlot_ctrl hp hc h, exec_flitSlot_lock hp, exec_flitSlot_init hp, ⟨flitBytes_length f,
    fun t w hw hw' => ⟨Port.intoBlock_joins t w f, fun hb => ?_⟩⟩, fun hc hu hi hq hr =>
    ⟨fun q => exec_flitSlot_first hp hc hu hi hq hr, exec_flitSlot_idle hp hc hu hi hq hr⟩, ⟨fun ht => ?_, fun ht => ?_⟩,
    exec_fabRateInterval hp true, ?_, fun who hw => ⟨fun h => ⟨?_, exec_portRelease_none hp hw h⟩, fun h hq hu => ?_, fun h hq hst => ?_⟩,
    fun c hc => ⟨fun hu hq => ?_, exec_linkReset_down hp hc⟩⟩
  · refine answers_with (P := fun t => t.fget FAB_PORT_COUNT.FEC_CORR 0 p = _ ∧ (t.port p).missed = 0) ⟨?_, ?_⟩ (fun _ _ h => h)
      (exec_fecBlock hp hn h h')
    · rw [State.fget_onPort, State.fget_fcountN, State.fget_fcountN, State.fget_fcountN, State.fget_fcountN]
      omega
    · rw [State.port_onPort_same]
  · rw [exec_dataFlit_good hp hu hv hd hc, State.flitHeader_credits ha, State.dataTaken, State.linkUp_onPort, hu, if_neg (by decide),
      State.port_onPort_same, if_neg hne, if_pos hold]
    exact ok_of_pending rfl
  · rw [exec_idleFlit hp hu hc hr ht, State.flitHeader_credits ha]
    exact ok_of_pending rfl
  · have accepted := exec_dataFlit_good hp hu hv hd hc
    rw [State.flitHeader_credits ha, State.dataTaken, State.linkUp_onPort, hu, if_neg (by decide), State.port_onPort_same,
      if_pos hseq] at accepted
    dsimp only at accepted
    rw [State.pst_onPort, State.pst_onPort, if_neg (by omega), if_pos hcause] at accepted
    obtain ⟨inbox, seq, nak, mem⟩ := State.acceptFlit_shows (f := f) ((s.onPort p (fun t =>
      { t with crTot := t.crTot.set (f.crBuf % 16) (f.crTotal % 4096) })).onPort p (fun t =>
      { t with rxSeq := ((s.port p).rxSeq + 1) % 4096, rxAny := true, nakAt := none })) p heom
      (by rw [State.port_onPort_same, State.port_onPort_same]; exact hpart) hty
    rw [State.port_onPort_same] at seq nak
    exact answers_with (P := fun t => t.inbox = _ ∧ (t.port p).rxSeq = _ ∧ (t.port p).nakAt = none ∧ t.mem = s.mem)
      ⟨inbox, seq, nak, mem⟩ (fun _ _ h => h) accepted
  · have replayed : (s.port p).replay.drop i ≠ [] := by
      obtain ⟨hlt, -⟩ := List.findIdx?_eq_some_iff_getElem.mp hi
      simpa using hlt
    exact answers_with (P := fun t => (t.port p).resend = _ ∧ (t.port p).stale = _) (State.replayFrom_shows replayed)
      (fun _ _ h => h) (exec_nak hp hu hi hn)
  · have replayed := exec_replayTimeout (s := s) hp
    rw [if_pos (by simp [hu, hr, ht])] at replayed
    exact answers_with (P := fun t => (t.port p).resend = _) (State.replayFrom_shows hr).1 (fun _ _ h => h) replayed
  · rw [exec_replayTimeout hp, if_neg (by simp; omega)]
    exact ok_of_pending rfl
  · obtain ⟨lanes, levels⟩ := blockLanes_lanes t.blocks w t.scr (t.blk ++ [f])
    rw [Port.intoBlock_sends t w f hb]
    refine ⟨rfl, rfl, lanes, fun l hl => (levels l hl).trans ?_⟩
    obtain rfl | rfl | rfl : w = 1 ∨ w = 2 ∨ w = 3 := by omega
    all_goals rfl
  · rw [exec_fabTallyLeak hp, if_neg (Nat.not_lt.mpr ht)]
    exact ok_of_pending rfl
  · rw [exec_fabTallyLeak hp, if_pos ht]
    exact ok_of_pending rfl
  · obtain ⟨t, next, mgmt, msgs⟩ := exec_fabRateInterval (s := s) hp false
    exact ⟨t, next, msgs, mgmt⟩
  · rw [exec_portQuarantine hp hw, h]
    exact ok_of_pending rfl
  · have told := exec_portQuarantine (s := s) hp hw
    rw [h, hq] at told
    exact answers_with (P := fun t => t.fget FAB_PORT_CTL.QUARANTINE 0 p = 1 ∧ t.pst p = 9 ∧ (t.port p).vcq = [] ∧
      t.fget FAB_EVENT.QUARANTINE 0 0 = 1 ∧ t.mem = s.mem) (State.quarantine_shows hp hu 1) (fun _ _ h => h) told
  · obtain ⟨state, -, -⟩ := (((s.fset FAB_PORT_CTL.QUARANTINE 0 p 0).fset FAB_PORT_TALLY.LEVEL 0 p 0).onPort p
      (fun t => { t.resetLink with ctrl := t.ctrl ++ [(2, 0)] })).authStart_shows p
    refine answers_with (P := fun t => t.fget FAB_PORT_CTL.QUARANTINE 0 p = 0 ∧ t.fget FAB_PORT_TALLY.LEVEL 0 p = 0 ∧ t.pst p = 7)
      ⟨?_, ?_, state⟩ (fun _ _ h => h) (exec_portRelease hp hw h hq hst)
    · rw [State.authStart, State.fget_onPort,
        State.fget_fset_ne _ (Field.key_apart FAB_PORT_CTL.QUARANTINE FAB_PORT_PARTNER.VALID 0 p),
        State.fget_setPst _ (Field.key_apart FAB_PORT_CTL.QUARANTINE _ 0 p), State.fget_onPort,
        State.fget_fset_ne _ (Field.key_apart FAB_PORT_CTL.QUARANTINE FAB_PORT_TALLY.LEVEL 0 p), State.fget_fset_same]
      rfl
    · rw [State.authStart, State.fget_onPort,
        State.fget_fset_ne _ (Field.key_apart FAB_PORT_TALLY.LEVEL FAB_PORT_PARTNER.VALID 0 p),
        State.fget_setPst _ (Field.key_apart FAB_PORT_TALLY.LEVEL _ 0 p), State.fget_onPort, State.fget_fset_same]
      rfl
  · exact answers_with (P := fun t => t.pst p = 7 ∧ (t.port p).vcq = [] ∧ (t.port p).txSeq = 0) (State.linkReset_shows hp s)
      (fun _ _ h => h) (exec_linkReset hp hc hu hq)

end Sys2Proof.Machine
end

section
/-!
PROOF. Routes, HELLO, SPDM, probes and the cruise (R363 to R370).
-/

namespace Sys2Proof.Machine

section Kept

variable {s t : State}

/-- A message taken from the inbox leaves the probes and the cruise. -/
theorem State.takeMsg_cruise (s : State) (m : Msg) : (s.takeMsg m).probes = s.probes ∧ (s.takeMsg m).cruiseAt = s.cruiseAt := by
  unfold State.takeMsg
  dsimp only
  split
  · exact ⟨rfl, rfl⟩
  · exact ⟨rfl, rfl⟩

/-- And the commands that wait. -/
theorem State.takeMsg_pending (s : State) (m : Msg) : (s.takeMsg m).pending = s.pending := by
  unfold State.takeMsg
  dsimp only
  split
  · rfl
  · rfl

/-- It leaves a port's authentication. -/
theorem State.takeMsg_auth (s : State) (m : Msg) (p : Nat) : ((s.takeMsg m).port p).selfOk = (s.port p).selfOk ∧
    ((s.takeMsg m).port p).peerOk = (s.port p).peerOk := by
  have freed (t : State) (q vc dl n : Nat) : ((t.freeFlits q vc dl n).port p).selfOk = (t.port p).selfOk ∧
      ((t.freeFlits q vc dl n).port p).peerOk = (t.port p).peerOk := by
    unfold State.freeFlits
    dsimp only
    by_cases same : p = q
    · simp only [same, State.port_onPort_same, apply_ite Port.selfOk, apply_ite Port.peerOk, ite_self, and_self]
    · rw [State.port_onPort_ne _ same]
      exact ⟨rfl, rfl⟩
  unfold State.takeMsg
  dsimp only
  split
  · exact freed ..
  · exact ⟨rfl, rfl⟩

/-- So it leaves the device's address. -/
theorem State.takeMsg_fabAddr (s : State) (m : Msg) : (s.takeMsg m).fabAddr = s.fabAddr := State.fget_congr (s.takeMsg_regs m) ..

/-- And the ports' STATE. -/
theorem State.takeMsg_pst (s : State) (m : Msg) (p : Nat) : (s.takeMsg m).pst p = s.pst p := State.fget_congr (s.takeMsg_regs m) ..

/-- A message routed leaves the cruise. -/
theorem State.routed_cruiseAt (s : State) (m : Msg) : (s.routed m).1.cruiseAt = s.cruiseAt := by
  unfold State.routed
  split
  · rfl
  · split
    · rfl
    · rfl

/-- A report of lost paths leaves the cruise. -/
theorem State.routeLost_cruiseAt (s : State) (p tbl i : Nat) : (s.routeLost p tbl i).cruiseAt = s.cruiseAt := by
  simp [State.routeLost, State.fabRecord]

/-- Any number of them leave it. -/
theorem State.routeLosts_cruiseAt (s : State) (p tbl : Nat) (l : List Nat) :
    (l.foldl (fun t i => t.routeLost p tbl i) s).cruiseAt = s.cruiseAt := by
  induction l generalizing s with
  | nil => rfl
  | cons i l ih => rw [List.foldl_cons, ih, State.routeLost_cruiseAt]

/-- The check for lost paths leaves the cruise. -/
theorem State.lossCheck_cruiseAt (s : State) (p old new : Nat) : (s.lossCheck p old new).cruiseAt = s.cruiseAt := by
  unfold State.lossCheck
  rw [State.routeLosts_cruiseAt, State.routeLosts_cruiseAt]

/-- Messages routed again leave the cruise. -/
theorem State.requeue_cruiseAt (s : State) (p : Nat) : (s.requeue p).cruiseAt = s.cruiseAt := by
  unfold State.requeue
  exact keeps_foldl (P := fun u : State => u.cruiseAt = s.cruiseAt) (fun u _ hu => (u.routed_cruiseAt _).trans hu) rfl

/-- The live set leaves the cruise. -/
theorem State.relive_cruiseAt (s : State) : s.relive.cruiseAt = s.cruiseAt := by
  unfold State.relive
  dsimp only
  split
  · rfl
  · rw [State.lossCheck_cruiseAt]
    exact keeps_foldl (P := fun u : State => u.cruiseAt = s.cruiseAt) (fun u q hu => (u.requeue_cruiseAt q).trans hu) rfl

/-- PROBE_OK set reads so (R370). -/
theorem State.setProbe_reads (s : State) (group : Bool) (i : Nat) {k : Nat} (hk : k < 4) :
    (if group then (s.setProbe group i k true).fbit FAB_GRP_TBL.PROBE_OK 0 i k
     else (s.setProbe group i k true).fbit FAB_MBR_TBL.PROBE_OK 0 i k) = true := by
  have set (f : Field) (hw : f.w = 4) : (s.fbitSet f 0 i k true).fbit f 0 i k = true := by
    rw [State.fbit, State.fbitSet, State.fget_fset_same, hw, Nat.testBit_mod_two_pow, testBit_setBit_same, decide_eq_true hk]
    rfl
  cases group
  · exact set FAB_MBR_TBL.PROBE_OK rfl
  · exact set FAB_GRP_TBL.PROBE_OK rfl

/-- The walk of a cruise leaves the registers below the tables, and when it began (R370). -/
theorem State.walk_shows (s : State) {g : Field} {u n : Nat} (hg : g.key u n < 0x24000 * 64) :
    s.walk.cruiseAt = s.cruiseAt ∧ s.walk.fget g u n = s.fget g u n := by
  have apart {f : Field} (hb : f.blk = .fabric) (ho : 0x4000 ≤ f.off) (i : Nat) : g.key u n ≠ f.key 0 i := by
    have above : 0x24000 * 64 ≤ f.key 0 i := by
      simp only [Field.key, Field.addr, hb, blkBase]
      omega
    omega
  have probed (t : State) (group : Bool) (i k : Nat) (b : Bool) : (t.setProbe group i k b).cruiseAt = t.cruiseAt ∧
      (t.setProbe group i k b).fget g u n = t.fget g u n := by
    cases group
    · exact ⟨rfl, State.fget_fset_ne _ (apart (f := FAB_MBR_TBL.PROBE_OK) rfl (by decide) i)⟩
    · exact ⟨rfl, State.fget_fset_ne _ (apart (f := FAB_GRP_TBL.PROBE_OK) rfl (by decide) i)⟩
  refine keeps_foldl (P := fun t => t.cruiseAt = s.cruiseAt ∧ t.fget g u n = s.fget g u n) (fun t x h => ?_) ⟨rfl, rfl⟩
  obtain ⟨group, i, k, p, dest⟩ := x
  obtain ⟨begun, read⟩ := probed t group i k false
  exact ⟨begun.trans h.1, read.trans h.2⟩

end Kept

section Authentication

variable (s : State) {p : Nat} (hp : p < 16)
include hp

/-- Both sides done, with no cruise, authenticate a port that was at it (R368). -/
theorem State.authCheck_shows (h : s.pst p = 7) (hc : s.cruiseAt = none) :
    (s.authCheck p).pst p = (if (s.port p).selfOk = true ∧ (s.port p).peerOk = true then 8 else 7) ∧
    ((s.authCheck p).port p).selfOk = (s.port p).selfOk ∧
    (s.authCheck p).fget FAB_PORT_PARTNER.VALID 0 p = s.fget FAB_PORT_PARTNER.VALID 0 p ∧
    (s.authCheck p).fget FAB_PORT_PARTNER.ADDR 0 p = s.fget FAB_PORT_PARTNER.ADDR 0 p := by
  have lived := State.relive_relived (s.setPst p 8)
  have still : (s.setPst p 8).relive.cruiseAt.isSome = false := by
    rw [State.relive_cruiseAt]
    simp [State.setPst, hc]
  unfold State.authCheck
  dsimp only
  by_cases done : (s.port p).selfOk = true ∧ (s.port p).peerOk = true
  · rw [if_pos done, if_pos ⟨h, done⟩, still, Bool.false_and, if_neg (by decide)]
    refine ⟨?_, ?_, ?_, ?_⟩
    · rw [lived.pst hp, State.pst_setPst_same]
    · rw [lived.kept Port.selfOk (fun _ => rfl), State.port_setPst_same]
    · rw [lived.fget (by decide) (liveSpares_port rfl rfl (by decide) (by decide) hp),
        State.fget_setPst _ (Field.key_apart FAB_PORT_PARTNER.VALID _ 0 p)]
    · rw [lived.fget (by decide) (liveSpares_port rfl rfl (by decide) (by decide) hp),
        State.fget_setPst _ (Field.key_apart FAB_PORT_PARTNER.ADDR _ 0 p)]
  · rw [if_neg done, if_neg fun hd => done hd.2]
    exact ⟨h, rfl, rfl, rfl⟩

omit s in
/-- A port that fails authentication keeps its STATE, and the event is set (R368). -/
theorem authEnds_shows (t : State) (cause i r : Nat) :
    ((t.relive.evt FAB_EVENT.AUTH_FAIL 0 0 1 none).fabRecord p cause i r).pst p = t.pst p ∧
    ((t.relive.evt FAB_EVENT.AUTH_FAIL 0 0 1 none).fabRecord p cause i r).fget FAB_EVENT.AUTH_FAIL 0 0 = 1 := by
  refine ⟨?_, ?_⟩
  · rw [State.pst, State.fget_fabRecord _ _ _ _ _ (portKey_low rfl rfl (by decide) (by decide) hp), State.fget_evt_ne]
    · exact (State.relive_relived t).pst hp
    · simp only [Field.key, Field.addr, FAB_PORT_STATUS.STATE, FAB_EVENT.AUTH_FAIL, blkBase]
      omega
  · rw [State.fget_fabRecord _ _ _ _ _ (by decide), State.fget_evt_one _ rfl]

/-- A failure of the exchange (R368). -/
theorem State.authFail_shows (code : Nat) : (s.authFail p code).pst p = 11 ∧
    (s.authFail p code).fget FAB_EVENT.AUTH_FAIL 0 0 = 1 := by
  obtain ⟨state, event⟩ := authEnds_shows hp ((s.setPst p 11).onPort p (fun t => { t with selfOk := false, authAt := s.time }))
    0x6A code 0
  exact ⟨state.trans ((State.pst_onPort ..).trans (State.pst_setPst_same ..)), event⟩

end Authentication

section Messages

variable {s : State} {m : Msg} (hm : m.wf = true) (hi : s.inbox.contains m = true)

/-- ROUTE_TABLE_WRITE of one without privilege (R363). -/
theorem exec_routeTableWrite_none {who : Accessor} {off v : Nat} (hw : who.wf = true) (hp : s.privileged who = false) :
    exec (.routeTableWrite who off v) s = .next s := by
  change ok who.wf s _ = _
  rw [hw, hp]
  cases s.locate who off with
  | none => exact ok_of_pending rfl
  | some l =>
    dsimp only
    rw [Bool.and_false, if_neg (by decide)]
    exact ok_of_pending rfl

include hm

/-- MESSAGE_ROUTE of a message not in the inbox. -/
theorem exec_messageRoute_none (h : s.inbox.contains m = false) : exec (.messageRoute m) s = .next s := by
  change ok m.wf s _ = _
  rw [hm, h]
  exact ok_of_pending rfl

include hi

section Routes

variable (hl : m.ll = false) (hd : m.dest ≠ s.fabAddr)
include hl hd

/-- MESSAGE_ROUTE of a message past MAX_HOPS (R364). -/
theorem exec_messageRoute_dropped (hh : s.fget FAB_CTL.MAX_HOPS 0 0 < m.hops + 1) : exec (.messageRoute m) s =
    .next ((s.takeMsg m).fcount FAB_PORT_COUNT3.HOP_DROP 0 m.port) := by
  change ok m.wf s (if _ then _ else _) = _
  rw [hm, if_neg (by simp only [hi, hl]; simpa using hd)]
  dsimp only
  rw [if_pos hh]
  exact ok_of_pending (s.takeMsg_pending m)

/-- MESSAGE_ROUTE of a message that has a path (R364). -/
theorem exec_messageRoute_routed {t : State} (hh : m.hops + 1 ≤ s.fget FAB_CTL.MAX_HOPS 0 0)
    (hr : (s.takeMsg m).routed { m with hops := m.hops + 1 } = (t, true)) :
    exec (.messageRoute m) s = .next (t.withQueue s.pending) := by
  change ok m.wf s (if _ then _ else _) = _
  rw [hm, if_neg (by simp only [hi, hl]; simpa using hd)]
  dsimp only
  rw [if_neg (Nat.not_lt.mpr hh), hr]
  rfl

end Routes

section Links

variable (hl : m.ll = true) (hst : s.pst m.port = 7)
include hl hst

/-- A HELLO's partner port. -/
def helloPeer (m : Msg) : Nat := leNat (m.body.take 1) % 16

/-- A HELLO fits what the port expects (R368). -/
def State.helloGood (s : State) (m : Msg) : Bool :=
  leNat ((m.body.drop 4).take 4) == s.fget FAB_SYS_ID.SYS_ID 0 0 && m.src != s.fabAddr &&
    (s.fget FAB_PORT_EXPECT.ANY 0 m.port == 1 || m.src == s.fget FAB_PORT_EXPECT.ADDR 0 m.port) &&
    (s.fget FAB_PORT_EXPECT.PORT_ANY 0 m.port == 1 || helloPeer m == s.fget FAB_PORT_EXPECT.PARTNER_PORT 0 m.port)

omit hm hi hl hst in
/-- What fits is in the registers. -/
theorem State.helloGood_iff : (s.takeMsg m).helloGood m = true ↔
    leNat ((m.body.drop 4).take 4) = s.fget FAB_SYS_ID.SYS_ID 0 0 ∧ m.src ≠ s.fabAddr ∧
      (s.fget FAB_PORT_EXPECT.ANY 0 m.port = 1 ∨ m.src = s.fget FAB_PORT_EXPECT.ADDR 0 m.port) ∧
      (s.fget FAB_PORT_EXPECT.PORT_ANY 0 m.port = 1 ∨ leNat (m.body.take 1) % 16 = s.fget FAB_PORT_EXPECT.PARTNER_PORT 0 m.port) := by
  have same (g : Field) (u i : Nat) : (s.takeMsg m).fget g u i = s.fget g u i := State.fget_congr (s.takeMsg_regs m) ..
  simp only [State.helloGood, State.takeMsg_fabAddr, same, helloPeer, Bool.and_eq_true, Bool.or_eq_true, beq_iff_eq,
    bne_iff_ne, and_assoc]

/-- The partner that a HELLO shows (R368). -/
def State.partnerKept (s : State) (m : Msg) : State :=
  ((s.fset FAB_PORT_PARTNER.ADDR 0 m.port m.src).fset FAB_PORT_PARTNER.PORT 0 m.port (helloPeer m)).fset
    FAB_PORT_PARTNER.VALID 0 m.port 1

omit hm hi hl hst in
/-- It leaves the port's STATE. -/
theorem State.partnerKept_pst (s : State) (m : Msg) : (s.partnerKept m).pst m.port = s.pst m.port := by
  rw [State.partnerKept, State.pst_fset _ (Field.key_apart _ FAB_PORT_PARTNER.VALID 0 m.port),
    State.pst_fset _ (Field.key_apart _ FAB_PORT_PARTNER.PORT 0 m.port),
    State.pst_fset _ (Field.key_apart _ FAB_PORT_PARTNER.ADDR 0 m.port)]

omit hm hi hl hst in
/-- Time unchecked is told in the registers, apart from the port's (R367). -/
theorem State.timeTold_shows (s : State) (m : Msg) (hp : m.port < 16) :
    let t := if s.fget RTC_CTL.TIME_INVALID 0 0 = 1 then s.evt FAB_EVENT.TIME_UNCHECKED 0 0 1 none else s
    t.pst m.port = s.pst m.port ∧ t.port m.port = s.port m.port ∧ t.cruiseAt = s.cruiseAt := by
  dsimp only
  split
  · refine ⟨State.fget_evt_ne _ ?_, by rw [State.port_evt], by simp⟩
    simp only [Field.key, Field.addr, FAB_PORT_STATUS.STATE, FAB_EVENT.TIME_UNCHECKED, blkBase]
    omega
  · exact ⟨rfl, rfl, rfl⟩

/-- HELLO of a port under authentication (R368). -/
theorem exec_hello (ht : m.ty = 0xF0) : exec (.hello m) s = ok true s
    (if (s.takeMsg m).helloGood m then (((s.takeMsg m).partnerKept m).onPort m.port (fun x =>
        { x with peerOk := (leNat ((m.body.drop 1).take 1)).testBit 0 })).authCheck m.port
     else (((((s.takeMsg m).partnerKept m).setPst m.port 10).relive).evt FAB_EVENT.AUTH_FAIL 0 0 1 none).fabRecord m.port 0x6B
       m.src (helloPeer m + 2 ^ 32 * leNat ((m.body.drop 4).take 4))) := by
  change ok m.wf s (s.onMsg m 0xF0 _) = _
  rw [hm, State.onMsg_here hi ht (.inl hl)]
  dsimp only
  rw [State.takeMsg_pst, hst, if_neg (by decide)]
  rfl

/-- SPDM_MESSAGE of a port under authentication (R367). -/
theorem exec_spdmMessage (ht : m.ty = 0xF1) (v : Nat) : exec (.spdmMessage m v) s = ok true s
    (if v = 0 then s.takeMsg m
     else if v = 1 then ((if (s.takeMsg m).fget RTC_CTL.TIME_INVALID 0 0 = 1 then (s.takeMsg m).evt FAB_EVENT.TIME_UNCHECKED 0 0 1 none
       else s.takeMsg m).onPort m.port (fun x => { x with selfOk := true })).authCheck m.port
     else (s.takeMsg m).authFail m.port (v - 1)) := by
  change ok m.wf s (s.onMsg m 0xF1 _) = _
  rw [hm, State.onMsg_here hi ht (.inl hl)]
  dsimp only
  rw [State.takeMsg_pst, hst]
  by_cases first : v = 0
  · rw [if_pos first, if_pos (.inr first)]
  · rw [if_neg first, if_neg (by simpa using first)]

end Links

section Here

variable (hd : m.dest = s.fabAddr)
include hd

/-- PROBE (R370). -/
theorem exec_probe (ht : m.ty = 0xF2) : exec (.probe m) s = .next (((s.takeMsg m).routed
    { linkMsg 16 s.fabAddr 0xF3 (m.body.take 4) with ll := false, dest := m.src }).1.withQueue s.pending) := by
  change ok m.wf s (s.onMsg m 0xF2 _) = _
  rw [hm, State.onMsg_here hi ht (.inr hd), ← State.takeMsg_fabAddr s m]
  rfl

/-- PROBE_REPLY to a probe that waits for it, while a cruise runs (R370). -/
theorem exec_probeReply (ht : m.ty = 0xF3) {q : ProbeSt}
    (hq : s.probes.find? (fun x => x.id == leNat (m.body.take 4) && !x.answered) = some q) (hc : s.cruiseAt ≠ none) :
    exec (.probeReply m) s = ok true s (if s.time > q.sentAt + 100000 then s.takeMsg m
      else State.setProbe ((s.takeMsg m).withProbes ((s.takeMsg m).probes.map (fun x =>
        if x.id = q.id then { x with answered := true } else x))) q.group q.entry q.path true) := by
  obtain ⟨probes, cruise⟩ := s.takeMsg_cruise m
  have runs : (s.takeMsg m).cruiseAt.isNone = false := by
    rw [cruise]
    exact Option.isNone_eq_false_iff.mpr (Option.isSome_iff_ne_none.mpr hc)
  change ok m.wf s (s.onMsg m 0xF3 _) = _
  rw [hm, State.onMsg_here hi ht (.inr hd), probes, hq]
  dsimp only
  rw [runs, State.takeMsg_time, Bool.false_or, ← probes]
  simp only [decide_eq_true_eq]

end Here

end Messages

section Timers

variable {s : State} {p : Nat} (hp : p < 16)

/-- The HELLO of a port (R368). -/
def State.helloOf (s : State) (p : Nat) : Msg :=
  linkMsg 16 s.fabAddr 0xF0 (natLE 1 p ++ natLE 1 (bit (s.port p).selfOk) ++ natLE 2 0 ++ natLE 4 (s.fget FAB_SYS_ID.SYS_ID 0 0))

/-- It joins the port's queue (R368). -/
theorem State.hello_queued (s : State) (p : Nat) : ∃ m,
    let t := (s.onPort p (fun t => { t with helloAt := s.time })).queueOn p (s.helloOf p)
    (t.port p).helloAt = s.time ∧ (t.port p).vcq = (s.port p).vcq ++ [⟨m, msgFlits m, false⟩] ∧ m.ty = 0xF0 ∧ m.ll = true ∧
      m.src = s.fabAddr := by
  refine ⟨{ s.helloOf p with dl := (s.onPort p (fun t => { t with helloAt := s.time })).dlAfter (s.helloOf p) p }, ?_, ?_, rfl, rfl,
    rfl⟩
  · rw [State.queueOn, State.port_onPort_same, State.port_onPort_same]
  · rw [State.queueOn, State.port_onPort_same, State.port_onPort_same]

include hp

/-- HELLO_TIMER of a port under authentication (R368). -/
theorem exec_helloTimer (h : s.pst p = 7) (ht : (s.port p).helloAt + 1000000 ≤ s.time) : exec (.helloTimer p) s =
    ok true s ((s.onPort p (fun t => { t with helloAt := s.time })).queueOn p (s.helloOf p)) := by
  change ok (portOk p) s (if _ then _ else _) = _
  rw [portOk, decide_eq_true hp, if_neg (by simp [h, ht])]
  rfl

/-- HELLO_TIMER before its time. -/
theorem exec_helloTimer_early (ht : s.time < (s.port p).helloAt + 1000000) : exec (.helloTimer p) s = .next s := by
  change ok (portOk p) s (if _ then _ else _) = _
  rw [portOk, decide_eq_true hp, if_pos (by simp [ht])]
  exact ok_of_pending rfl

/-- AUTH_TIMEOUT (R368). -/
theorem exec_authTimeout : exec (.authTimeout p) s = ok true s
    (if s.pst p = 7 ∧ s.time ≥ (s.port p).authAt + 2000000000 then s.authFail p 0xFF else s) := by
  change ok (portOk p) s _ = _
  rw [portOk, decide_eq_true hp]

/-- AUTH_RETRY (R368). -/
theorem exec_authRetry : exec (.authRetry p) s = ok true s
    (if s.pst p = 11 ∧ s.time ≥ (s.port p).authAt + 10000000000 then s.authStart p else s) := by
  change ok (portOk p) s _ = _
  rw [portOk, decide_eq_true hp]

omit hp in
/-- CRUISE_START (R369). -/
theorem exec_cruiseStart {who : Accessor} (hw : who.wf = true) : exec (.cruiseStart who) s = ok true s
    (if s.reaches who FAB_CRUISE_CTL.START 0 0 && s.fget FAB_CRUISE_STATUS.RUNNING 0 0 == 0 then s.cruiseStart else s) := by
  change ok who.wf s _ = _
  rw [hw]

/-- A probe unanswered for 100 ms, its port authenticated (R370). -/
def State.probeLate (s : State) (q : ProbeSt) : Bool :=
  !q.answered && decide (s.time ≥ q.sentAt + 100000000) && s.pst q.port == 8

omit hp in
/-- PROBE_RESEND with no cruise. -/
theorem exec_probeResend_none (h : s.cruiseAt = none) : exec .probeResend s = .next s := by
  change ok true s (if _ then _ else _) = _
  rw [h]
  exact ok_of_pending rfl

omit hp in
/-- PROBE_RESEND (R370). -/
theorem exec_probeResend (h : s.cruiseAt ≠ none) : exec .probeResend s = ok true s
    (((s.probes.filter s.probeLate).foldl (fun t q => t.queueOn q.port (s.probeMsg q.dest q.id)) s).withProbes
      (s.probes.map (fun q => if (s.probes.filter s.probeLate).contains q then { q with sentAt := s.time } else q))) := by
  change ok true s (if _ then _ else _) = _
  rw [if_neg (by simpa using h)]
  rfl

omit hp in
/-- The probes sent again are the late ones. -/
theorem State.probes_resent (s : State) :
    s.probes.map (fun q => if (s.probes.filter s.probeLate).contains q then { q with sentAt := s.time } else q) =
    s.probes.map (fun q => if s.probeLate q then { q with sentAt := s.time } else q) := by
  refine List.map_congr_left fun q hq => ?_
  simp [List.mem_filter, hq]

end Timers

/-- Settles O51: command by command. -/
theorem messagesRouteAndPortsAuthenticate : Obligations.MessagesRouteAndPortsAuthenticate := by
  unfold Obligations.MessagesRouteAndPortsAuthenticate
  intro s
  refine ⟨fun who off v hw => ⟨exec_routeTableWrite_none hw, fun r u i hp hl ho hf => ?_⟩, fun m hm =>
    ⟨fun hi hl hd => ⟨exec_messageRoute_dropped hm hi hl hd, fun t => exec_messageRoute_routed hm hi hl hd⟩, exec_messageRoute_none hm,
      fun hi hl hp hst => ⟨fun ht => ⟨fun hf hc => ?_, fun hf => ?_⟩, fun ht => ⟨?_, fun v hv => ?_, fun hc => ?_⟩⟩,
      fun hi hl hd => ⟨exec_probe hm hi hd, fun q ht hq hc => ⟨fun hlate => ?_, fun hsoon hk => ?_⟩⟩⟩,
    fun p hp => ⟨fun hst ht => ?_, exec_helloTimer_early hp, fun hst ht => ?_, fun ht => ?_, fun hst ht => ?_, fun ht => ?_⟩,
    fun who hw => ⟨fun hr hn => ?_, fun h => ?_⟩, exec_probeResend_none, fun hc => ?_⟩
  · change ok who.wf s _ = _
    rw [hw, hl]
    dsimp only
    rw [hf, hp, ho]
    rfl
  · have heard := exec_hello hm hi hl hst ht
    rw [if_pos (State.helloGood_iff.mpr hf)] at heard
    obtain ⟨state, -, valid, addr⟩ := State.authCheck_shows (((s.takeMsg m).partnerKept m).onPort m.port (fun x =>
      { x with peerOk := (leNat ((m.body.drop 1).take 1)).testBit 0 })) hp (((State.pst_onPort ..).trans (State.partnerKept_pst ..)).trans ((State.takeMsg_pst ..).trans hst))
      ((State.takeMsg_cruise s m).2.trans hc)
    refine answers_with (P := fun t => t.fget FAB_PORT_PARTNER.VALID 0 m.port = 1 ∧ t.fget FAB_PORT_PARTNER.ADDR 0 m.port = _ ∧
      t.pst m.port = _) ⟨?_, ?_, ?_⟩ (fun _ _ h => h) heard
    · rw [valid, State.fget_onPort, State.partnerKept, State.fget_fset_same]
      rfl
    · rw [addr, State.fget_onPort, State.partnerKept,
        State.fget_fset_ne _ (Field.key_apart FAB_PORT_PARTNER.ADDR FAB_PORT_PARTNER.VALID 0 m.port),
        State.fget_fset_ne _ (Field.key_apart FAB_PORT_PARTNER.ADDR FAB_PORT_PARTNER.PORT 0 m.port), State.fget_fset_same]
      rfl
    · rw [state, State.port_onPort_same]
      dsimp only
      rw [State.partnerKept, State.port_fset, State.port_fset, State.port_fset, (State.takeMsg_auth s m m.port).1]
  · have heard := exec_hello hm hi hl hst ht
    rw [if_neg (fun h => hf (State.helloGood_iff.mp h))] at heard
    obtain ⟨state, event⟩ := authEnds_shows hp (((s.takeMsg m).partnerKept m).setPst m.port 10) 0x6B m.src
      (helloPeer m + 2 ^ 32 * leNat ((m.body.drop 4).take 4))
    exact answers_with (P := fun t => t.pst m.port = 10 ∧ t.fget FAB_EVENT.AUTH_FAIL 0 0 = 1)
      ⟨state.trans (State.pst_setPst_same ..), event⟩ (fun _ _ h => h) heard
  · rw [exec_spdmMessage hm hi hl hst ht, if_pos rfl]
    exact ok_of_pending (s.takeMsg_pending m)
  · have failed := exec_spdmMessage hm hi hl hst ht v
    rw [if_neg (by omega), if_neg (by omega)] at failed
    exact answers_with (P := fun t => t.pst m.port = 11 ∧ t.fget FAB_EVENT.AUTH_FAIL 0 0 = 1) (State.authFail_shows _ hp (v - 1))
      (fun _ _ h => h) failed
  · have passed := exec_spdmMessage hm hi hl hst ht 1
    rw [if_neg (by decide), if_pos rfl] at passed
    obtain ⟨told, port, cruise⟩ := State.timeTold_shows (s.takeMsg m) m hp
    obtain ⟨self, peer⟩ := State.takeMsg_auth s m m.port
    obtain ⟨state, kept, -⟩ := State.authCheck_shows ((if (s.takeMsg m).fget RTC_CTL.TIME_INVALID 0 0 = 1 then
      (s.takeMsg m).evt FAB_EVENT.TIME_UNCHECKED 0 0 1 none else s.takeMsg m).onPort m.port (fun x => { x with selfOk := true })) hp
      ((State.pst_onPort ..).trans (told.trans ((State.takeMsg_pst ..).trans hst))) (cruise.trans ((State.takeMsg_cruise s m).2.trans hc))
    rw [State.port_onPort_same, port] at state kept
    dsimp only at state
    rw [peer] at state
    exact answers_with (P := fun t => t.pst m.port = _ ∧ (t.port m.port).selfOk = true) ⟨state.trans (by simp), kept⟩ (fun _ _ h => h) passed
  · rw [exec_probeReply hm hi hd ht hq hc, if_pos hlate]
    exact ok_of_pending (s.takeMsg_pending m)
  · have replied := exec_probeReply hm hi hd ht hq hc
    rw [if_neg (Nat.not_lt.mpr hsoon)] at replied
    exact answers_with (P := fun t => (if q.group then t.fbit FAB_GRP_TBL.PROBE_OK 0 q.entry q.path
      else t.fbit FAB_MBR_TBL.PROBE_OK 0 q.entry q.path) = true) (State.setProbe_reads _ q.group q.entry hk) (fun _ _ h => h) replied
  · obtain ⟨m, sent⟩ := s.hello_queued p
    obtain ⟨t, next, shows⟩ := answers_with (P := fun t => (t.port p).helloAt = s.time ∧
      (t.port p).vcq = (s.port p).vcq ++ [(⟨m, msgFlits m, false⟩ : Queued)] ∧ m.ty = 0xF0 ∧ m.ll = true ∧ m.src = s.fabAddr)
      sent (fun _ _ h => h) (exec_helloTimer hp hst ht)
    exact ⟨t, m, next, shows⟩
  · have failed := exec_authTimeout (s := s) hp
    rw [if_pos ⟨hst, ht⟩] at failed
    exact answers_with (P := fun t => t.pst p = 11 ∧ t.fget FAB_EVENT.AUTH_FAIL 0 0 = 1) (State.authFail_shows _ hp 0xFF)
      (fun _ _ h => h) failed
  · rw [exec_authTimeout hp, if_neg fun h => absurd h.2 (Nat.not_le.mpr ht)]
    exact ok_of_pending rfl
  · have retried := exec_authRetry (s := s) hp
    rw [if_pos ⟨hst, ht⟩] at retried
    exact answers_with (P := fun t => t.pst p = 7) (s.authStart_shows p).1 (fun _ _ h => h) retried
  · rw [exec_authRetry hp, if_neg fun h => absurd h.2 (Nat.not_le.mpr ht)]
    exact ok_of_pending rfl
  · have started := exec_cruiseStart (s := s) hw
    rw [hr, hn, if_pos (by decide)] at started
    obtain ⟨cruise, running⟩ := State.walk_shows (((s.fset FAB_CRUISE_STATUS.RUNNING 0 0 1).withProbes []).withCruiseAt (some s.time))
      (g := FAB_CRUISE_STATUS.RUNNING) (u := 0) (n := 0) (by decide)
    refine answers_with (P := fun t => t.fget FAB_CRUISE_STATUS.RUNNING 0 0 = 1 ∧ t.cruiseAt = some s.time)
      ⟨running.trans ?_, cruise⟩ (fun _ _ h => h) started
    change (s.fset FAB_CRUISE_STATUS.RUNNING 0 0 1).fget FAB_CRUISE_STATUS.RUNNING 0 0 = 1
    rw [State.fget_fset_same]
    rfl
  · rw [exec_cruiseStart hw, if_neg (by rcases h with h | h <;> simp [h])]
    exact ok_of_pending rfl
  · refine answers_with (P := fun t => t.probes = _) ?_ (fun _ _ h => h) (exec_probeResend hc)
    exact s.probes_resent

end Sys2Proof.Machine
end

section
/-!
SUPPORT. The phase shown, HOLD, and bits of the out-of-service masks (R400, R409, R422).
-/

namespace Sys2Proof.Machine

section Phases

variable (s : State)

/-- The phase shown is the one set (R400). -/
theorem State.toPhase_phase (n : Nat) : (s.toPhase n).phase = n % 16 := by
  rw [State.phase, State.toPhase, State.fget_withBoot, State.fget_fset_same]
  rfl

/-- Another register is as it was. -/
theorem State.fget_toPhase {g : Field} {u i : Nat} (h : g.key u i ≠ BOOT_STATUS.PHASE.key 0 0) (n : Nat) :
    (s.toPhase n).fget g u i = s.fget g u i := by
  rw [State.toPhase, State.fget_withBoot, State.fget_fset_ne _ h]

/-- The phase stands from now on. -/
theorem State.toPhase_boot (n : Nat) : (s.toPhase n).boot = { s.boot with phaseAt := s.time } := rfl

/-- The phase is no memory. -/
theorem State.toPhase_mem (n : Nat) : (s.toPhase n).mem = s.mem := rfl

/-- A phase is in the registers. -/
theorem State.phase_congr {t : State} (h : t.regs = s.regs) : t.phase = s.phase := State.fget_congr h ..

/-- A register apart from PHASE leaves the phase. -/
theorem State.phase_fset {f : Field} {u i : Nat} (h : BOOT_STATUS.PHASE.key 0 0 ≠ f.key u i) (v : Nat) :
    (s.fset f u i v).phase = s.phase := State.fget_fset_ne s h

/-- A command that ends in HOLD (R422). -/
theorem holds_with {s t : State} {c : Instr} {cause : Nat} (hc : cause < 256) (h : exec c s = ok true s (t.enterHold cause)) :
    ∃ u, exec c s = .next u ∧ u.phase = 15 ∧ u.fget BOOT_STATUS.CAUSE 0 0 = cause := by
  obtain ⟨phase, shown, -⟩ := t.enterHold_shows cause
  exact answers_with (P := fun u => u.phase = 15 ∧ u.fget BOOT_STATUS.CAUSE 0 0 = cause)
    ⟨phase, shown.trans (Nat.mod_eq_of_lt hc)⟩ (fun _ _ h => h) h

/-- A record of management leaves the phase. -/
theorem State.phase_mgmtRec (n a b : Nat) : (s.mgmtRec n a b).phase = s.phase :=
  s.fget_mgmtRec n a b (by decide) (by decide) (by decide)

/-- And the boot state. -/
theorem State.mgmtRec_boot (n a b : Nat) : (s.mgmtRec n a b).boot = s.boot :=
  (State.mgmtRec_keeps (within_opened _ s) s n a b (.refl _ s) .boot (by decide)).2.2.1.symm

end Phases

section Bits

/-- A clear bit set leaves the others. -/
theorem testBit_add_two_pow_ne {v n m : Nat} (hn : v.testBit n = false) (h : m ≠ n) : (v + 2 ^ n).testBit m = v.testBit m := by
  rcases Nat.lt_or_gt_of_ne h with below | above
  · rw [Nat.add_comm, Nat.testBit_two_pow_add_gt below]
  · have even : v / 2 ^ n % 2 = 0 := by simpa [Nat.testBit_eq_decide_div_mod_eq] using hn
    have high : (v + 2 ^ n) / 2 ^ (n + 1) = v / 2 ^ (n + 1) := by
      rw [Nat.pow_succ, ← Nat.div_div_eq_div_mul, ← Nat.div_div_eq_div_mul, Nat.add_div_right _ (Nat.two_pow_pos n)]
      omega
    obtain ⟨k, rfl⟩ := Nat.exists_eq_add_of_lt above
    rw [show n + k + 1 = k + (n + 1) by omega, ← Nat.testBit_div_two_pow, ← Nat.testBit_div_two_pow, high]

/-- A bit set or cleared leaves the others. -/
theorem testBit_setBit_ne (v : Nat) {n m : Nat} (h : m ≠ n) (b : Bool) : (setBit v n b).testBit m = v.testBit m := by
  unfold setBit
  split_ifs with hv hb hb
  · rfl
  · have le : 2 ^ n ≤ v := Nat.ge_two_pow_of_testBit hv
    have clear : (v - 2 ^ n).testBit n = false := by
      have := testBit_setBit_same v n false
      rwa [setBit, if_pos hv, if_neg (by decide)] at this
    conv_rhs => rw [← Nat.sub_add_cancel le]
    exact (testBit_add_two_pow_ne clear h).symm
  · exact testBit_add_two_pow_ne (by simpa using hv) h
  · rfl

variable {s : State} {f g : Field} {u i u' i' n m : Nat} {b : Bool}

/-- A bit reads as before where other bits, or bits of another field, are set, and where it is set to what it was. -/
theorem State.fbit_fbitSet_kept (hm : m < f.w) (hk : f.key u i = g.key u' i' → f = g ∧ u = u' ∧ i = i') (h : s.fbit f u i m = b) :
    (s.fbitSet g u' i' n b).fbit f u i m = b := by
  rw [State.fbit] at h ⊢
  by_cases same : f.key u i = g.key u' i'
  · obtain ⟨rfl, rfl, rfl⟩ := hk same
    rw [State.fbitSet, State.fget_fset_same, Nat.testBit_mod_two_pow, decide_eq_true hm, Bool.true_and]
    by_cases bit : m = n
    · rw [bit, testBit_setBit_same]
    · rw [testBit_setBit_ne _ bit, h]
  · rw [State.fbitSet, State.fget_fset_ne _ same, h]

/-- A bit reads as before where bits of another field are set. -/
theorem State.fbit_fbitSet_ne (hk : f.key u i ≠ g.key u' i') : (s.fbitSet g u' i' n b).fbit f u i m = s.fbit f u i m := by
  rw [State.fbit, State.fbitSet, State.fget_fset_ne _ hk, State.fbit]

/-- A bit that is set reads so. -/
theorem State.fbit_fbitSet_same (hm : m < f.w) (b : Bool) : (s.fbitSet f u i m b).fbit f u i m = b := by
  rw [State.fbit, State.fbitSet, State.fget_fset_same, Nat.testBit_mod_two_pow, decide_eq_true hm, Bool.true_and,
    testBit_setBit_same]

end Bits

section Ready

/-- The registers BOOT_STATUS and FAB_CTL. -/
def readyRegister (a : Nat) : Prop := a = 0 ∨ a = 0x20008

/-- The ends of commands leave them. -/
theorem sparedEnds_ready (s : State) : SparedEnds (State.Alike readyRegister s) := by
  refine sparedEnds_alike (fun f hf u i => ?_) s
  have off : f.offTowers = true := (by decide : ∀ g ∈ workFields ++ endFields ++ refusalFields, g.offTowers = true) f hf
  simp only [Field.offTowers, Bool.or_eq_true, Bool.and_eq_true, beq_iff_eq, decide_eq_true_eq] at off
  simp only [readyRegister, Field.addr]
  rcases off with ⟨⟨hb, hs⟩, ho⟩ | hb
  · simp only [hb, hs, blkBase]
    omega
  · omega

variable {s t : State} (h : State.Alike readyRegister s t)
include h

/-- A lone register of the fabric apart from FAB_CTL leaves them. -/
theorem readyKept_fset {f : Field} (hb : f.blk = .fabric) (ho : f.off ≠ 8) (hs : f.stride = 0) (hl : f.lo < 64) (v : Nat) :
    State.Alike readyRegister s (t.fset f 0 0 v) := by
  refine h.fset hl ?_ v
  simp only [readyRegister, Field.addr, hb, hs, blkBase]
  omega

/-- An event of the fabric does. -/
theorem readyKept_evt {f : Field} (hb : f.blk = .fabric) (ho : f.off ≠ 8) (hs : f.stride = 0) (hl : f.lo < 64) (mask : Nat)
    (p : Option Nat) : State.Alike readyRegister s (t.evt f 0 0 mask p) :=
  (readyKept_fset h hb ho hs hl _).quiet (State.evt_regs ..)

/-- The tree does. -/
theorem readyKept_onTree (f : Tree → Tree) : State.Alike readyRegister s (t.onTree f) := h.quiet rfl

/-- A waiting command of the tree that ends does (R394). -/
theorem readyKept_endTree (fail : Bool) (px : Nat × Nat) : State.Alike readyRegister s (t.endTree fail px) :=
  keeps_ite h (keeps_ite ((sparedEnds_ready s).endPlain h ..) ((sparedEnds_ready s).endPlain h ..))

/-- BAR_DOWN does (R392). -/
theorem readyKept_barDown (snap fail : Bool) : State.Alike readyRegister s (t.barDown snap fail) := by
  have sent : State.Alike readyRegister s (t.sendKids 0x11 (bit snap + 2 * bit fail)) :=
    keeps_foldl (fun u _ hu => hu.quiet (u.routed_regs _)) h
  have failed {u : State} (hu : State.Alike readyRegister s u) : State.Alike readyRegister s u.gopFail :=
    readyKept_evt (readyKept_fset ((sparedEnds_ready s).record hu ..) rfl (by decide) rfl (by decide) _) rfl (by decide) rfl
      (by decide) ..
  have next {u : State} (hu : State.Alike readyRegister s u) : State.Alike readyRegister s u.nextEpoch :=
    (readyKept_fset (readyKept_fset hu (f := FAB_BAR_STATUS.EPOCH) rfl (by decide) rfl (by decide) (u.epoch + 1))
      (f := FAB_GOP_STATUS.BAR_WAIT) rfl (by decide) rfl (by decide) 0).quiet rfl
  have ended (ws : List (Nat × Nat)) := keeps_foldl (P := State.Alike readyRegister s) (l := ws) (f := (State.endTree · fail ·))
    (fun _ _ hu => readyKept_endTree hu fail _) sent
  unfold State.barDown
  exact keeps_ite (readyKept_fset (readyKept_onTree (next (keeps_ite (failed (ended _)) (ended _))) _) rfl (by decide) rfl
    (by decide) _) (next (keeps_ite (failed (ended _)) (ended _)))

/-- The node's barrier does (R392). -/
theorem readyKept_barTry : State.Alike readyRegister s t.barTry := by
  have begun : State.Alike readyRegister s (t.onTree (fun u => { u with readyAt := some (u.readyAt.getD t.time) })) := h.quiet rfl
  unfold State.barTry
  refine keeps_ite h (keeps_ite begun ?_)
  split
  · exact (readyKept_fset (begun.quiet rfl) (f := FAB_GOP_STATUS.BAR_WAIT) rfl (by decide) rfl (by decide) _).quiet
      (State.routed_regs ..)
  · exact readyKept_barDown begun ..

/-- The live set does (R364). -/
theorem readyKept_relive : State.Alike readyRegister s t.relive :=
  h.trans ((State.relive_relived t).alike.mono fun a ha => by
    simp only [readyRegister] at ha
    simp only [liveSpares]
    omega)

omit h in
/-- READY shows its phase, and enables forwarding (R421). -/
theorem State.ready_shows (s : State) (n : Nat) : (s.ready n).phase = n % 16 ∧ (s.ready n).fget FAB_CTL.FWD_EN 0 0 = 1 := by
  have shown : ((s.toPhase n).fset FAB_CTL.FWD_EN 0 0 1).phase = n % 16 ∧
      ((s.toPhase n).fset FAB_CTL.FWD_EN 0 0 1).fget FAB_CTL.FWD_EN 0 0 = 1 := by
    refine ⟨?_, ?_⟩
    · rw [State.phase_fset _ (by decide), State.toPhase_phase]
    · rw [State.fget_fset_same]
      rfl
  have run : State.Alike readyRegister ((s.toPhase n).fset FAB_CTL.FWD_EN 0 0 1) (s.ready n) := by
    refine readyKept_barTry (readyKept_relive (foldl_keeps_mem (State.Alike readyRegister ((s.toPhase n).fset FAB_CTL.FWD_EN 0 0 1))
      _ _ (fun u p hp hu => ?_) _ .refl))
    have part : p < 16 := List.mem_range.mp (List.mem_filter.mp hp).1
    refine hu.write (f := PART_STATUS.STATE0) (sh := 2 * p) ?_ ?_ 1
    · simp only [PART_STATUS.STATE0]
      omega
    · simp only [readyRegister, Field.addr, PART_STATUS.STATE0, blkBase]
      omega
  exact ⟨(run.fget (by decide) (.inl rfl)).trans shown.1, (run.fget (by decide) (.inr rfl)).trans shown.2⟩

end Ready

end Sys2Proof.Machine
end

section
/-!
PROOF. Bring-up, phase by phase, and BOOT_CTL (R400 to R421, R475).
-/

namespace Sys2Proof.Machine

section Early

variable {s : State}

/-- VAON_VALID of a part whose VAON is not valid (R400). -/
theorem exec_vaonValid (h : s.boot.vaon = false) : ∃ t, exec .vaonValid s = .next t ∧ t.boot.vaon = true ∧ t.phase = 1 ∧
    t.mem = s.mem := by
  have shown := (s.withBoot { s.boot with vaon := true }).toPhase_phase 1
  have cleared (t : State) (m : Mgmt) (ht : t.phase = 1) (hb : t.boot.vaon = true) (hm : t.mem = s.mem) :
      let u := State.mgmtRec (State.fset (((t.withCalendar 0).withCalPhase 0).withMgmt m) RTC_CTL.TIME_INVALID 0 0 1) 2 0 0
      u.boot.vaon = true ∧ u.phase = 1 ∧ u.mem = s.mem := by
    dsimp only
    rw [State.mgmtRec_boot, State.phase_mgmtRec, State.mgmtRec_mem, State.phase_fset _ (by decide)]
    exact ⟨hb, ht, hm⟩
  have step : exec .vaonValid s = ok true s (if s.mgmt.calLost then State.mgmtRec (State.fset
      ((((State.toPhase (s.withBoot { s.boot with vaon := true }) 1).withCalendar 0).withCalPhase 0).withMgmt
        { (State.toPhase (s.withBoot { s.boot with vaon := true }) 1).mgmt with calLost := false, oscStopped := false })
      RTC_CTL.TIME_INVALID 0 0 1) 2 0 0 else State.toPhase (s.withBoot { s.boot with vaon := true }) 1) := by
    change ok true s (if _ then _ else _) = _
    rw [h]
    rfl
  refine answers_with (P := fun t => t.boot.vaon = true ∧ t.phase = 1 ∧ t.mem = s.mem) ?_ (fun _ _ h => h) step
  split
  · exact cleared _ _ shown rfl rfl
  · exact ⟨rfl, shown, rfl⟩

/-- VAON_VALID of one whose VAON is. -/
theorem exec_vaonValid_none (h : s.boot.vaon = true) : exec .vaonValid s = .next s := by
  change ok true s (if _ then _ else _) = _
  rw [h]
  exact ok_of_pending rfl

/-- ALWAYS_ON_START (R400). -/
theorem exec_alwaysOnStart : exec .alwaysOnStart s = ok true s (if s.boot.vaon && !s.boot.ao && s.phase == 1 then
    State.toPhase (s.withBoot { s.boot with ao := true, aoAt := s.time }) 2 else s) := rfl

/-- FUSE_READ (R404). -/
theorem exec_fuseRead : exec .fuseRead s = ok true s
    (if !(s.boot.ao && s.phase == 2) || (s.boot.warm && s.fget PKG_SEQ.STAGE 0 0 != 4) then s
     else if !s.fuses.crcOk then s.enterHold 0x02
     else State.toPhase (s.loadFuses.withMgmt { s.mgmt with extApplied := s.fuses.extList }) (if s.boot.warm then 4 else 3)) := rfl

/-- The fuses' grade and extension table are shown (R407). -/
theorem State.loadFuses_shows (s : State) : s.loadFuses.fget BOOT_GRADE.GRADE 0 0 = s.fuses.grade % 2 ^ BOOT_GRADE.GRADE.w ∧
    s.loadFuses.fget BOOT_STATUS.FUSE_EXT_BAD 0 0 = (if s.fuses.extCrcOk then 0 else 1) ∧ s.loadFuses.mem = s.mem := by
  refine ⟨?_, ?_, (State.loadFuses_keeps (within_opened _ s) s (.refl _ s) .memory (by decide)).1.symm⟩
  · unfold State.loadFuses
    dsimp only
    rw [State.fget_fset_ne _ (by decide), State.fget_fset_ne _ (by decide), State.fget_fset_ne _ (by decide),
      State.fget_fset_ne _ (by decide), State.fget_fset_same]
  · unfold State.loadFuses
    dsimp only
    rw [State.fget_fset_same]
    cases s.fuses.extCrcOk
    · rfl
    · rfl

/-- SECURE_BOOT (R475). -/
theorem exec_secureBoot_none (a b : Bool) (h : s.phase ≠ 3) : exec (.secureBoot a b) s = .next s := by
  change ok true s (if _ then _ else _) = _
  rw [if_pos (.inl h)]
  exact ok_of_pending rfl

variable (hp : s.phase = 3) (hs : s.fget PKG_SEQ.STAGE 0 0 = 4)

/-- What the firmware of a slot that runs shows (R475, R487). -/
def State.slotShown (s : State) (run : Nat) : State :=
  (List.range 8).foldl (fun t k => t.fsetAt SEC_KEY_STATUS.SLOT0 0 0 (2 * k) (s.mgmt.keySlots.getD k 0))
    ((((s.fset MGMT_STATUS.RUN_SLOT 0 0 run).fset MGMT_STATUS.RECOVERY 0 0 0).fset SEC_RNG_STATUS.VALID 0 0 1).fset
      SEC_RNG_STATUS.FAILED_TEST 0 0 0)

/-- The firmware of a slot runs (R475). -/
def State.slotRuns (s : State) (run failed : Nat) : State :=
  (State.mgmtRec ((s.slotShown run).withBoot { (s.slotShown run).boot with mgmtUp := true, restarting := false }) 0 run failed).setPriv 1 0

/-- The keys' status lies apart from another register of the block. -/
theorem State.fget_slotShown (s : State) (run : Nat) {g : Field} (hg : g.key 0 0 < SEC_KEY_STATUS.SLOT0.key 0 0 ∨
    SEC_KEY_STATUS.SLOT0.key 0 0 + 64 ≤ g.key 0 0) : (s.slotShown run).fget g 0 0 =
    ((((s.fset MGMT_STATUS.RUN_SLOT 0 0 run).fset MGMT_STATUS.RECOVERY 0 0 0).fset SEC_RNG_STATUS.VALID 0 0 1).fset
      SEC_RNG_STATUS.FAILED_TEST 0 0 0).fget g 0 0 := by
  refine foldl_keeps_mem (fun t : State => t.fget g 0 0 = _) _ _ (fun t k hk ht => ?_) _ rfl
  have := List.mem_range.mp hk
  exact (State.fget_fsetAt_ne t (by omega)).trans ht

/-- What the firmware that runs shows (R475). -/
theorem State.slotRuns_shows (s : State) (run failed : Nat) :
    (s.slotRuns run failed).fget MGMT_STATUS.RUN_SLOT 0 0 = run % 2 ∧
    (s.slotRuns run failed).fget MGMT_STATUS.RECOVERY 0 0 = 0 ∧ (s.slotRuns run failed).fget SEC_RNG_STATUS.VALID 0 0 = 1 ∧
    (s.slotRuns run failed).boot.mgmtUp = true := by
  have through {g : Field} (hlow : g.key 0 0 < hubKeys) (hl : g.key 0 0 ≠ MGMT_LOG_STATUS.LOST.key 0 0)
      (he : g.key 0 0 ≠ MGMT_EVENT.CAUSE.key 0 0) (h0 : g.key 0 0 ≠ HIF_PRIV.PRIV.key 0 0)
      (h1 : g.key 0 0 ≠ HIF_PRIV.PRIV.key 1 0) : (s.slotRuns run failed).fget g 0 0 = (s.slotShown run).fget g 0 0 := by
    rw [State.slotRuns, State.fget_setPriv _ _ _ hlow hl he h0 h1, State.fget_mgmtRec _ _ _ _ hlow hl he, State.fget_withBoot]
  refine ⟨?_, ?_, ?_, ?_⟩
  · rw [through (by decide) (by decide) (by decide) (by decide) (by decide), State.fget_slotShown _ _ (by decide),
      State.fget_fset_ne _ (by decide), State.fget_fset_ne _ (by decide), State.fget_fset_ne _ (by decide), State.fget_fset_same]
    rfl
  · rw [through (by decide) (by decide) (by decide) (by decide) (by decide), State.fget_slotShown _ _ (by decide),
      State.fget_fset_ne _ (by decide), State.fget_fset_ne _ (by decide), State.fget_fset_same]
    rfl
  · rw [through (by decide) (by decide) (by decide) (by decide) (by decide), State.fget_slotShown _ _ (by decide),
      State.fget_fset_ne _ (by decide), State.fget_fset_same]
    rfl
  · have boot := (State.setPriv_keeps (within_opened _ _) (State.mgmtRec ((s.slotShown run).withBoot { (s.slotShown run).boot with
      mgmtUp := true, restarting := false }) 0 run failed) 1 0 (.refl _ _) .boot (by decide)).2.2.1
    rw [State.slotRuns, ← boot, State.mgmtRec_boot]
    rfl

include hp hs

/-- SECURE_BOOT with a slot that verifies (R475). -/
theorem exec_secureBoot_runs (b : Bool) (hr : s.boot.restarting = false) : exec (.secureBoot true b) s = ok true s
    ((s.slotRuns (s.fget MGMT_STATUS.NEXT_SLOT 0 0) 0).toPhase 4) := by
  change ok true s (if _ then _ else _) = _
  rw [if_neg (by simp [hp, hs]), hr]
  rfl

/-- SECURE_BOOT with none (R475). -/
theorem exec_secureBoot_holds : exec (.secureBoot false false) s = ok true s ((s.fset MGMT_STATUS.RECOVERY 0 0 1).enterHold 0x03) := by
  change ok true s (if _ then _ else _) = _
  rw [if_neg (by simp [hp, hs])]
  rfl

end Early

section Middle

variable {s : State}

/-- SELF_TEST in another phase. -/
theorem exec_selfTest_none (h : s.phase ≠ 4) : exec (.selfTest []) s = .next s := by
  change ok (List.all [] unitOk) s (if _ then _ else _) = _
  rw [if_pos h]
  exact ok_of_pending rfl

/-- SELF_TEST with no failed unit (R408). -/
theorem exec_selfTest (h : s.phase = 4) : exec (.selfTest []) s =
    ok true s ((s.fset BOOT_STATUS.QUICK 0 0 (bit (s.boot.warm && s.fget BOOT_CTL.QUICK 0 0 == 1))).toPhase 5) := by
  change ok (List.all [] unitOk) s (if _ then _ else _) = _
  rw [if_neg (not_not.mpr h)]
  rfl

/-- SELF_TEST with a failed hub engine (R408). -/
theorem exec_selfTest_holds (h : s.phase = 4) {u : Nat} (hu : u < 4) : exec (.selfTest [(7, u)]) s =
    ok true s ((s.fset BOOT_STATUS.QUICK 0 0 (bit (s.boot.warm && s.fget BOOT_CTL.QUICK 0 0 == 1))).enterHold 0x04) := by
  have wf : ([(7, u)].all unitOk) = true := by simp [unitOk, hu]
  change ok ([(7, u)].all unitOk) s (if _ then _ else _) = _
  rw [if_neg (not_not.mpr h), wf]
  rfl

/-- MEMORY_TRAINING in another phase. -/
theorem exec_memoryTraining_none (w f : Bool) (h : s.phase ≠ 5) : exec (.memoryTraining [] [] w f) s = .next s := by
  change ok (List.all [] chanOk && List.all [] tileOk) s (if _ then _ else _) = _
  rw [if_pos h]
  exact ok_of_pending rfl

/-- MEMORY_TRAINING that fails (R409). -/
theorem exec_memoryTraining_holds (w : Bool) (h : s.phase = 5) : exec (.memoryTraining [] [] w true) s =
    ok true s (s.enterHold 0x05) := by
  change ok (List.all [] chanOk && List.all [] tileOk) s (if _ then _ else _) = _
  rw [if_neg (not_not.mpr h)]
  rfl

/-- The channels and tiles that failed are out of service (R409). -/
def State.failedOut (s : State) (cs ts : List Nat) : State :=
  ts.foldl State.markT0 (cs.foldl (fun u c => u.markChan HUB_CHAN_OOS.OOS c) s)

/-- Memory is written, and the records of what trained are saved (R409, R410). -/
def State.trainedOn (s : State) (warm : Bool) : State :=
  (s.memInit.fset BOOT_STATUS.MEM_WARM 0 0 (bit warm)).saveRecords s.trainedMem

/-- Phase 5 is over (R410). -/
def State.trainedIn (s : State) (n : Nat) : State :=
  (s.toPhase n).withBoot { (s.toPhase n).boot with memDone := true, inReset := false }

/-- The phase that follows is shown. -/
theorem State.trainedIn_phase (s : State) (n : Nat) : (s.trainedIn n).phase = n % 16 := s.toPhase_phase n

variable {cs ts : List Nat} (hc : cs.all chanOk = true) (ht : ts.all tileOk = true)

include hc ht in
/-- MEMORY_TRAINING (R409, R410). -/
theorem exec_memoryTraining (w : Bool) (h : s.phase = 5) : exec (.memoryTraining cs ts w false) s =
    ok true s (((s.failedOut cs ts).trainedOn (w && (s.failedOut cs ts).trainedMem.all s.recordOk)).trainedIn (if s.fget BOOT_STATUS.IMAGE_ARMED 0 0 = 1 then 7 else 6)) := by
  change ok (cs.all chanOk && ts.all tileOk) s (if _ then _ else _) = _
  rw [hc, ht, Bool.and_self, if_neg (not_not.mpr h), if_neg (by decide : ¬ false = true)]
  dsimp only [State.trainedIn, State.trainedOn, State.failedOut]

/-- Records of targets are no registers. -/
theorem State.fget_saveRecords (s : State) (ks : List Nat) (g : Field) (u i : Nat) : (s.saveRecords ks).fget g u i = s.fget g u i := rfl

/-- Nor is memory. -/
theorem State.memInit_regs (s : State) : s.memInit.regs = s.regs := rfl

/-- What phase 5 ends with is out of service as before. -/
theorem State.trained_kept (s : State) (w : Bool) (n : Nat) {g : Field} {u i : Nat}
    (h0 : g.key u i ≠ BOOT_STATUS.PHASE.key 0 0) (h1 : g.key u i ≠ BOOT_STATUS.MEM_WARM.key 0 0) :
    ((s.trainedOn w).trainedIn n).fget g u i = s.fget g u i := by
  rw [State.trainedIn, State.fget_withBoot, State.fget_toPhase _ h0, State.trainedOn, State.fget_saveRecords,
    State.fget_fset_ne _ h1, State.fget_congr s.memInit_regs]

/-- A mask of channels out of service lies apart from a mask of tiles. -/
theorem chanOosKey_ne {c : Nat} {g : Field} (hl : g.lo < 64)
    (hg : g.blk = .hub ∧ g.off = 0x3058 ∧ g.stride = 0 ∨ g.blk = .boot ∧ g.off < 0x1000 ∧ g.stride = 0) (u : Nat) : HUB_CHAN_OOS.OOS.key (c / 192) (c % 192 / 32) ≠ g.key u 0 := by
  have index : c % 192 / 32 < 6 := by omega
  generalize c % 192 / 32 = i at index ⊢
  generalize c / 192 = h
  simp only [Field.key, Field.addr, HUB_CHAN_OOS.OOS]
  rcases hg with ⟨hb, ho, hs⟩ | ⟨hb, ho, hs⟩
  · simp only [hb, ho, hs, blkBase]
    omega
  · simp only [hb, hs, blkBase]
    omega

/-- Masks of channels of two numbers are two registers, or the same. -/
theorem chanOosKey_inj {c d : Nat}
    (h : HUB_CHAN_OOS.OOS.key (c / 192) (c % 192 / 32) = HUB_CHAN_OOS.OOS.key (d / 192) (d % 192 / 32)) :
    HUB_CHAN_OOS.OOS = HUB_CHAN_OOS.OOS ∧ c / 192 = d / 192 ∧ c % 192 / 32 = d % 192 / 32 := by
  have index : c % 192 / 32 < 6 := by omega
  have index' : d % 192 / 32 < 6 := by omega
  simp only [Field.key, Field.addr, HUB_CHAN_OOS.OOS, blkBase] at h
  exact ⟨rfl, by omega, by omega⟩

/-- A marked channel is out of service, and stays so. -/
theorem State.chanOos_failedOut (s : State) {c : Nat} (hm : c ∈ cs) : (s.failedOut cs ts).chanOos c = true := by
  have small : c % 32 < HUB_CHAN_OOS.OOS.w := Nat.mod_lt _ (by decide)
  have tile (t : State) (j : Nat) : (t.markT0 j).chanOos c = t.chanOos c := by
    rw [State.markT0, State.loseTile, State.chanOos, State.fbit_fbitSet_ne (chanOosKey_ne (by decide) (.inr ⟨rfl, by decide, rfl⟩) 0),
      State.fbit_fbitSet_ne (chanOosKey_ne (by decide) (.inl ⟨rfl, rfl, rfl⟩) _)]
    rfl
  obtain ⟨l, l', rfl⟩ := List.append_of_mem hm
  unfold State.failedOut
  refine foldl_keeps_mem (fun t : State => t.chanOos c = true) _ _ (fun t j _ h => (tile t j).trans h) _ ?_
  rw [List.foldl_append, List.foldl_cons]
  refine foldl_keeps_mem (fun t : State => t.chanOos c = true) _ _ (fun t d _ h => ?_) _ (State.fbit_fbitSet_same small true)
  exact State.fbit_fbitSet_kept small chanOosKey_inj h

/-- A tile that failed is not usable. -/
theorem State.tileUsable_failedOut (s : State) {j : Nat} (hj : j < 64) (hm : j ∈ ts) : (s.failedOut cs ts).tileUsable j = false := by
  have apart (k : Nat) : BOOT_TILES.TILES.key 0 0 ≠ HUB_T0_OOS.TILES.key (k / 16) 0 := by
    simp only [Field.key, Field.addr, BOOT_TILES.TILES, HUB_T0_OOS.TILES, blkBase]
    omega
  obtain ⟨l, l', rfl⟩ := List.append_of_mem hm
  unfold State.failedOut
  rw [List.foldl_append, List.foldl_cons]
  refine foldl_keeps_mem (fun t : State => t.tileUsable j = false) _ _ (fun t k _ h => ?_) _
    (State.fbit_fbitSet_same hj false)
  exact State.fbit_fbitSet_kept hj (fun _ => ⟨rfl, rfl, rfl⟩) ((State.fbit_fbitSet_ne (apart k)).trans h)

/-- The units that failed are in no other register of BOOT_STATUS. -/
theorem State.fget_failedOut (s : State) (cs ts : List Nat) {g : Field} (hg : g.blk = .boot) (hs : g.stride = 0) (ho : g.off < 0x20)
    (hl : g.lo < 64) : (s.failedOut cs ts).fget g 0 0 = s.fget g 0 0 := by
  have low : g.key 0 0 < BOOT_TILES.TILES.key 0 0 := by
    simp only [Field.key, Field.addr, hg, hs, BOOT_TILES.TILES, blkBase]
    omega
  have tiles : BOOT_TILES.TILES.key 0 0 < hubKeys := by decide
  have apart (f : Field) (hf : f.blk = .hub) (u i : Nat) : g.key 0 0 ≠ f.key u i := by
    have above : hubKeys ≤ f.key u i := by
      simp only [hubKeys, Field.key, Field.addr, hf, blkBase]
      omega
    omega
  unfold State.failedOut
  refine foldl_keeps_mem (fun t : State => t.fget g 0 0 = s.fget g 0 0) _ _ (fun t j _ h => ?_) _
    (foldl_keeps_mem (fun t : State => t.fget g 0 0 = s.fget g 0 0) _ _ (fun t c _ h => ?_) _ rfl)
  · rw [State.markT0, State.loseTile, State.fbitSet, State.fget_fset_ne _ (by omega), State.fbitSet,
      State.fget_fset_ne _ (apart _ rfl _ _), h]
  · rw [State.markChan, State.fbitSet, State.fget_fset_ne _ (apart _ rfl _ _), h]

/-- Nor in memory. -/
theorem State.failedOut_mem (s : State) (cs ts : List Nat) : (s.failedOut cs ts).mem = s.mem := by
  unfold State.failedOut
  exact foldl_keeps_mem (fun t : State => t.mem = s.mem) State.markT0 _ (fun t j _ h => h) _
    (foldl_keeps_mem (fun t : State => t.mem = s.mem) (fun t c => t.markChan HUB_CHAN_OOS.OOS c) _ (fun t c _ h => h) _ rfl)

/-- Every place that phase 5 writes is zero, and every other is as it was (R410). -/
theorem State.trained_reads (s : State) (w : Bool) (n k : Nat) :
    Tbl.get 0 ((s.trainedOn w).trainedIn n).mem k = (if s.inited k then 0 else Tbl.get 0 s.mem k) := by
  have dropped : ((s.trainedOn w).trainedIn n).mem = s.mem.filter (fun e => !(s.inited e.1)) := rfl
  rw [dropped, Tbl.get_filter_key _ (fun k => !s.inited k)]
  cases s.inited k
  · rfl
  · rfl

/-- HOLD leaves the section that failed. -/
theorem State.enterHold_section (s : State) (cause : Nat) :
    (s.enterHold cause).fget BOOT_STATUS.SECTION 0 0 = s.fget BOOT_STATUS.SECTION 0 0 := by
  have stopped : s.stopWork.tilesOff.fget BOOT_STATUS.SECTION 0 0 = s.fget BOOT_STATUS.SECTION 0 0 :=
    (State.LowKept.refl s).stopWork.tilesOff.fget (by decide)
  have shown (b : Boot) : ((((s.stopWork.tilesOff.fset BOOT_STATUS.PHASE 0 0 15).fset BOOT_STATUS.CAUSE 0 0 cause).fset
      BOOT_STATUS.WLOAD 0 0 0).withBoot b).fget BOOT_STATUS.SECTION 0 0 = s.fget BOOT_STATUS.SECTION 0 0 := by
    rw [State.fget_withBoot, State.fget_fset_ne _ (by decide), State.fget_fset_ne _ (by decide), State.fget_fset_ne _ (by decide),
      stopped]
  unfold State.enterHold
  dsimp only
  split
  · rw [State.fget_setPriv _ _ _ (by decide) (by decide) (by decide) (by decide) (by decide)]
    exact shown _
  · exact shown _

/-- IMAGE_CHECK in another phase. -/
theorem exec_imageCheck_none (ver : Verdict) (h : s.phase ≠ 7) : exec (.imageCheck ver) s = .next s := by
  change ok true s (if _ then _ else _) = _
  rw [if_pos h]
  exact ok_of_pending rfl

variable {ver : Verdict} (hp : s.phase = 7)
include hp

/-- IMAGE_CHECK without a host link. -/
theorem exec_imageCheck_unlinked (h : s.pkg.hostUp.all (· == 0) = true) : exec (.imageCheck ver) s = ok true s (s.enterHold 7) := by
  change ok true s (if _ then _ else _) = _
  rw [if_neg (not_not.mpr hp), if_pos h]

variable (hu : s.pkg.hostUp.all (· == 0) = false)
include hu

/-- IMAGE_CHECK of an image that fails (R417). -/
theorem exec_imageCheck_fails {r x : Nat} (h : s.checkWhole (s.hostImage (s.fget BOOT_IMAGE_ADDR.ADDR 0 0 * 4096)) ver = .fail r x) :
    exec (.imageCheck ver) s = ok true s ((s.fset BOOT_STATUS.SECTION 0 0 x).enterHold (holdOf r)) := by
  change ok true s (if _ then _ else _) = _
  rw [if_neg (not_not.mpr hp), if_neg (by simp [hu])]
  dsimp only
  rw [h]

/-- IMAGE_CHECK of one that passes (R417). -/
theorem exec_imageCheck_passes {y : List Item16} (h : s.checkWhole (s.hostImage (s.fget BOOT_IMAGE_ADDR.ADDR 0 0 * 4096)) ver = .pass y) :
    exec (.imageCheck ver) s =
      ok true s ((s.acceptWhole (s.hostImage (s.fget BOOT_IMAGE_ADDR.ADDR 0 0 * 4096)) y).afterImage) := by
  change ok true s (if _ then _ else _) = _
  rw [if_neg (not_not.mpr hp), if_neg (by simp [hu])]
  dsimp only
  rw [h]

end Middle

section Late

variable {s : State}

/-- LINK_TRAINING_PHASE in another phase. -/
theorem exec_linkTrainingPhase_none (h : s.phase ≠ 8) : exec .linkTrainingPhase s = .next s := by
  change ok true s (if _ then _ else _) = _
  rw [if_pos (.inl h)]
  exact ok_of_pending rfl

/-- LINK_TRAINING_PHASE whose ports are up, or that has had its time (R419). -/
theorem exec_linkTrainingPhase (hp : s.phase = 8) (h : s.enabledPorts.all s.linkUp = true ∨ s.boot.phaseAt + 800000000 ≤ s.time) :
    exec .linkTrainingPhase s =
      ok true s (((s.saveRecords ((s.enabledPorts.filter s.linkUp).map (2048 + ·))).toPhase 9).cruiseStart.walk) := by
  change ok true s (if _ then _ else _) = _
  rw [if_neg]
  rintro (far | waits)
  · exact far hp
  · simp only [Bool.or_eq_false_iff, decide_eq_false_iff_not] at waits
    rcases h with up | late
    · rw [up] at waits
      exact Bool.noConfusion waits.1.1
    · exact waits.1.2 late

/-- A cruise that starts (R369). -/
theorem State.cruiseBegun_shows (s : State) : s.cruiseStart.walk.cruiseAt = some s.time ∧
    s.cruiseStart.walk.fget FAB_CRUISE_STATUS.RUNNING 0 0 = 1 ∧ s.cruiseStart.walk.phase = s.phase ∧
    s.cruiseStart.walk.mem = s.mem := by
  have walked (t : State) : t.walk.mem = t.mem := (State.walk_keeps (within_opened _ t) t (.refl _ t) .memory (by decide)).1.symm
  have read {g : Field} (hg : g.key 0 0 < 0x24000 * 64) : s.cruiseStart.walk.fget g 0 0 =
      (s.fset FAB_CRUISE_STATUS.RUNNING 0 0 1).fget g 0 0 :=
    (State.walk_shows _ hg).2.trans (State.walk_shows _ hg).2
  refine ⟨?_, ?_, ?_, ?_⟩
  · exact (State.walk_shows _ (g := FAB_CRUISE_STATUS.RUNNING) (u := 0) (n := 0) (by decide)).1.trans
      (State.walk_shows _ (g := FAB_CRUISE_STATUS.RUNNING) (u := 0) (n := 0) (by decide)).1
  · rw [read (by decide), State.fget_fset_same]
    rfl
  · exact (read (by decide)).trans (State.fget_fset_ne _ (by decide))
  · rw [walked, State.cruiseStart, walked]
    rfl

/-- CRUISE_END without a cruise. -/
theorem exec_cruiseEnd_none (h : s.cruiseAt = none) : exec .cruiseEnd s = .next s := by
  change ok true s _ = _
  rw [h]
  exact ok_of_pending rfl

/-- The registers of a cruise that is over (R369). -/
def State.cruiseDone (s : State) : State :=
  State.record (((((s.fset FAB_CRUISE_STATUS.RUNNING 0 0 0).fset FAB_CRUISE_STATUS.DONE 0 0 1).evt
    FAB_EVENT.CRUISE_DONE 0 0 1 none).withCruiseAt none).withProbes []) 0
    { cause := 0x6F, sev := 4, src := 5, pos := 0xFFFF, info0 := s.probes.length, info1 := (s.probes.filter (·.answered)).length }

/-- CRUISE_END of a cruise after start-up whose probes are all answered (R369). -/
theorem exec_cruiseEnd (hc : s.cruiseAt ≠ none) (hp : s.phase ≠ 9) (ha : s.probes.all (·.answered) = true) :
    exec .cruiseEnd s = ok true s s.cruiseDone := by
  obtain ⟨t0, at_⟩ := Option.ne_none_iff_exists'.mp hc
  have settled : (s.phase != 9) = true := by simpa using hp
  change ok true s _ = _
  rw [at_]
  dsimp only
  rw [settled, ha, Bool.true_or, Bool.true_or, if_neg (by simp), if_neg hp]
  rfl

/-- A cruise that is over (R369). -/
theorem State.cruiseDone_shows (s : State) : s.cruiseDone.fget FAB_CRUISE_STATUS.RUNNING 0 0 = 0 ∧
    s.cruiseDone.fget FAB_CRUISE_STATUS.DONE 0 0 = 1 ∧ s.cruiseDone.cruiseAt = none ∧ s.cruiseDone.phase = s.phase := by
  have read {g : Field} (hg : g.key 0 0 < hubKeys) (he : g.key 0 0 ≠ FAB_EVENT.CRUISE_DONE.key 0 0) : s.cruiseDone.fget g 0 0 =
      ((s.fset FAB_CRUISE_STATUS.RUNNING 0 0 0).fset FAB_CRUISE_STATUS.DONE 0 0 1).fget g 0 0 :=
    (((spared_lowKept _).record (.refl _) ..).fget hg).trans (State.fget_evt_ne _ he)
  refine ⟨?_, ?_, by simp [State.cruiseDone], ?_⟩
  · rw [read (by decide) (by decide), State.fget_fset_ne _ (by decide), State.fget_fset_same]
    rfl
  · rw [read (by decide) (by decide), State.fget_fset_same]
    rfl
  · rw [State.phase, read (by decide) (by decide), State.fget_fset_ne _ (by decide), State.fget_fset_ne _ (by decide), State.phase]

section Blobs

variable {i : Nat} {b : List Nat} (hf : s.wholeBlobs.find? (fun x => x.1 == i) = some (i, b)) (hw : s.fget BOOT_STATUS.WLOAD 0 0 = 1)
  (hn : s.boot.blobs.contains i = false)
include hf hw hn

/-- WEIGHT_LOAD_BLOB of a blob that has not matched (R418). -/
theorem exec_weightLoadBlob_holds : exec (.weightLoadBlob i false) s = ok true s (s.enterHold 0x09) := by
  change ok true s _ = _
  rw [hf]
  dsimp only
  rw [if_neg (by rw [hw, hn]; simp)]
  rfl

/-- A blob written (R418). -/
def State.blobDone (s : State) (i : Nat) (b : List Nat) : State :=
  let s1 := s.putBlob (s.hostImage (s.fget BOOT_IMAGE_ADDR.ADDR 0 0 * 4096)) b
  State.fset (s1.withBoot { s1.boot with
    blobs := s.boot.blobs ++ [i], loaded := (s.boot.blobs ++ [i]).length == s.wholeBlobs.length })
    BOOT_STATUS.WLOAD 0 0 (bit (!((s.boot.blobs ++ [i]).length == s.wholeBlobs.length)))

/-- WEIGHT_LOAD_BLOB of one that has (R418). -/
theorem exec_weightLoadBlob (hl : s.blobLenOk b = true) : exec (.weightLoadBlob i true) s = ok true s (s.blobDone i b) := by
  change ok true s _ = _
  rw [hf]
  dsimp only
  rw [if_neg (by rw [hw, hn]; simp), hl]
  rfl

omit hf hw hn in
/-- What a blob written shows. -/
theorem State.blobDone_shows (s : State) (i : Nat) (b : List Nat) : (s.blobDone i b).boot.blobs = s.boot.blobs ++ [i] ∧
    ((s.blobDone i b).boot.loaded = true ↔ s.boot.blobs.length + 1 = s.wholeBlobs.length) ∧ (s.blobDone i b).phase = s.phase := by
  refine ⟨rfl, ?_, ?_⟩
  · change ((s.boot.blobs ++ [i]).length == s.wholeBlobs.length) = true ↔ _
    rw [beq_iff_eq, List.length_append, List.length_singleton]
  · rw [State.blobDone, State.phase_fset _ (by decide)]
    refine (State.phase_fset _ (by decide) _).trans ?_
    exact ((spared_lowKept s).store (.refl s) ..).fget (by decide)

end Blobs

/-- READY_ENTRY before the weights are loaded. -/
theorem exec_readyEntry_none (h : s.boot.loaded = false) : exec .readyEntry s = .next s := by
  change ok true s (if _ then _ else _) = _
  rw [h]
  exact ok_of_pending rfl

/-- READY_ENTRY after the topology check (R421). -/
theorem exec_readyEntry (h : s.boot.loaded = true) (hp : s.phase = 11) : exec .readyEntry s =
    ok true s (s.ready (if s.fget BOOT_TOPO2.RESULT 0 0 = 1 then 12 else 13)) := by
  change ok true s (if _ then _ else _) = _
  rw [h, if_neg (by decide), if_pos hp]

end Late

section Control

variable {s : State} {who : Accessor} (hw : who.wf = true)
include hw

/-- BOOT_CTL of one who may not write it (R424). -/
theorem exec_bootCtl_none (h : s.bootCtl who = false) :
    ∀ c ∈ [Instr.bootLoad who, .bootAccept who, .bootAbort who, .bootRestart who, .bootSave who], exec c s = .next s := by
  intro c hc
  simp only [List.mem_cons, List.not_mem_nil, or_false] at hc
  rcases hc with rfl | rfl | rfl | rfl | rfl
  all_goals
    change ok who.wf s (if _ then _ else _) = _
    rw [hw, h]
    exact ok_of_pending rfl

variable (hc : s.bootCtl who = true)
include hc

omit hc in
/-- BOOT_LOAD before phase 3 (R411). -/
theorem exec_bootLoad_early (h : s.phase < 3) : exec (.bootLoad who) s = .next s := by
  change ok who.wf s (if _ then _ else _) = _
  rw [hw, if_pos (by simp [h])]
  exact ok_of_pending rfl

/-- BOOT_LOAD from phase 3 on (R411). -/
theorem exec_bootLoad (h : 3 ≤ s.phase) (h' : s.phase < 15) : exec (.bootLoad who) s = ok true s
    (if s.phase = 6 then (s.fset BOOT_STATUS.IMAGE_ARMED 0 0 1).toPhase 7 else s.fset BOOT_STATUS.IMAGE_ARMED 0 0 1) := by
  change ok who.wf s (if _ then _ else _) = _
  rw [hw, hc, if_neg (by simp [h])]
  dsimp only
  rw [if_neg (show ¬ s.phase = 15 by omega)]

/-- BOOT_LOAD in a HOLD that resumes (R422). -/
theorem exec_bootLoad_resumes (h : s.phase = 15) (hm : s.boot.memDone = true) (hl : 6 ≤ s.fget BOOT_STATUS.CAUSE 0 0)
    (hh : s.fget BOOT_STATUS.CAUSE 0 0 ≤ 9) : exec (.bootLoad who) s =
    ok true s (((s.fset BOOT_STATUS.IMAGE_ARMED 0 0 1).fset BOOT_STATUS.CAUSE 0 0 0).toPhase 7) := by
  change ok who.wf s (if _ then _ else _) = _
  rw [hw, hc, if_neg (by simp [h])]
  dsimp only
  rw [if_pos h, if_pos (by simp [hm, hl, hh])]

/-- BOOT_ACCEPT (R421). -/
theorem exec_bootAccept (h : s.phase = 14) : exec (.bootAccept who) s = ok true s
    (if s.boot.loaded then s.ready 13 else s.withBoot { s.boot with accept := true }) := by
  change ok who.wf s (if _ then _ else _) = _
  rw [hw, hc, h, if_neg (by decide)]

/-- BOOT_ABORT (R421). -/
theorem exec_bootAbort (h : s.phase = 14) : exec (.bootAbort who) s = ok true s (s.enterHold 0x0A) := by
  change ok who.wf s (if _ then _ else _) = _
  rw [hw, hc, h, if_pos (by decide)]

omit hc in
/-- BOOT_ACCEPT and BOOT_ABORT in other phases. -/
theorem exec_bootAccept_none (h : s.phase ≠ 14) : exec (.bootAccept who) s = .next s ∧ exec (.bootAbort who) s = .next s := by
  have far : (s.phase == 14) = false := by simpa using h
  refine ⟨?_, ?_⟩
  · change ok who.wf s (if _ then _ else _) = _
    rw [hw, bne, far, if_pos (by simp)]
    exact ok_of_pending rfl
  · change ok who.wf s (if _ then _ else _) = _
    rw [hw, far, if_neg (by simp)]
    exact ok_of_pending rfl

/-- BOOT_RESTART (R403). -/
theorem exec_bootRestart : exec (.bootRestart who) s = ok true s s.partReset := by
  change ok who.wf s (if _ then _ else _) = _
  rw [hw, hc]
  rfl

/-- BOOT_SAVE (R409). -/
theorem exec_bootSave : exec (.bootSave who) s = .next (s.saveRecords
    ((if s.boot.memDone then s.trainedMem else []) ++ ((List.range 16).filter s.linkUp).map (2048 + ·))) := by
  change ok who.wf s (if _ then _ else _) = _
  rw [hw, hc, if_pos rfl]
  exact ok_of_pending rfl

omit hw hc in
/-- A part reset begins with everything off (R403). -/
theorem State.partReset_off (hv : s.boot.vaon = true) (hi : s.boot.inReset = false) : s.partReset.boot.warm = true ∧
    s.partReset.execs = [] ∧ s.partReset.parts = [] ∧ s.partReset.time = 0 := by
  unfold State.partReset
  rw [hi, hv, if_neg (by decide)]
  exact ⟨rfl, rfl, rfl, rfl⟩

end Control

/-- Settles O52: phase by phase. -/
theorem bringUpGoesPhaseByPhase : Obligations.BringUpGoesPhaseByPhase := by
  unfold Obligations.BringUpGoesPhaseByPhase
  refine ⟨fun s => ⟨exec_vaonValid, exec_vaonValid_none, fun hv ha hp => ?_, fun hp => ?_, fun ha hp hs => ⟨fun hc => ?_, fun hc => ?_⟩,
    fun hp => ?_, fun hp hs => ⟨fun b hr => ?_, ?_⟩, exec_secureBoot_none, fun hp => ⟨?_, fun u hu => ?_⟩, exec_selfTest_none,
    fun w hp => ⟨fun cs ts hc ht => ?_, ?_⟩, exec_memoryTraining_none, fun ver hp => ⟨fun hu => ?_, fun hu => ⟨fun r x h => ?_,
      fun y h => ?_⟩⟩, fun ver => exec_imageCheck_none ver, fun hp h => ?_, exec_linkTrainingPhase_none, fun hc hp ha => ?_,
    exec_cruiseEnd_none, fun i b hf hw hn => ⟨fun hl => ?_, ?_⟩, exec_readyEntry_none, fun hl hp => ?_⟩,
    fun s who hw => ⟨exec_bootCtl_none hw, fun hc => ⟨fun h h' => ?_, exec_bootLoad_early hw, fun hp hm hl hh => ?_,
      fun hp => ⟨fun hl => ?_, fun hl => ?_, ?_⟩, exec_bootAccept_none hw, fun hv hi => ?_, exec_bootSave hw hc⟩⟩⟩
  · have started := exec_alwaysOnStart (s := s)
    rw [hv, ha, hp, if_pos (by decide)] at started
    exact answers_with (P := fun t => t.boot.ao = true ∧ t.boot.aoAt = s.time ∧ t.phase = 2)
      ⟨rfl, rfl, State.toPhase_phase _ 2⟩ (fun _ _ h => h) started
  · rw [exec_alwaysOnStart, if_neg (by simp [hp])]
    exact ok_of_pending rfl
  · have read := exec_fuseRead (s := s)
    obtain ⟨grade, ext, mem⟩ := s.loadFuses_shows
    rw [if_neg (by rw [ha, hp]; cases hb : s.boot.warm <;> simp [hb, hs]), hc, if_neg (by decide)] at read
    generalize s.loadFuses = f at read grade ext mem
    refine answers_with (P := fun t => t.phase = _ ∧ t.fget BOOT_GRADE.GRADE 0 0 = _ ∧ t.fget BOOT_STATUS.FUSE_EXT_BAD 0 0 = _ ∧
      t.mem = s.mem) ⟨?_, ?_, ?_, ?_⟩ (fun _ _ h => h) read
    · rw [State.toPhase_phase]
      split
      · rfl
      · rfl
    · exact (State.fget_toPhase _ (by decide) _).trans grade
    · exact (State.fget_toPhase _ (by decide) _).trans ext
    · exact mem
  · have read := exec_fuseRead (s := s)
    rw [if_neg (by rw [ha, hp]; cases hb : s.boot.warm <;> simp [hb, hs]), hc, if_pos (by decide)] at read
    exact holds_with (by decide) read
  · rw [exec_fuseRead, if_pos (by simp [hp])]
    exact ok_of_pending rfl
  · obtain ⟨run, recovery, valid, up⟩ := s.slotRuns_shows (s.fget MGMT_STATUS.NEXT_SLOT 0 0) 0
    refine answers_with (P := fun t => t.phase = 4 ∧ t.fget MGMT_STATUS.RUN_SLOT 0 0 = _ ∧ t.fget MGMT_STATUS.RECOVERY 0 0 = 0 ∧
      t.fget SEC_RNG_STATUS.VALID 0 0 = 1 ∧ t.boot.mgmtUp = true) ⟨State.toPhase_phase _ 4, ?_, ?_, ?_, up⟩ (fun _ _ h => h)
      (exec_secureBoot_runs hp hs b hr)
    · exact (State.fget_toPhase _ (by decide) _).trans run
    · exact (State.fget_toPhase _ (by decide) _).trans recovery
    · exact (State.fget_toPhase _ (by decide) _).trans valid
  · obtain ⟨phase, cause, -⟩ := (s.fset MGMT_STATUS.RECOVERY 0 0 1).enterHold_shows 0x03
    refine answers_with (P := fun t => t.phase = 15 ∧ t.fget BOOT_STATUS.CAUSE 0 0 = 3 ∧ t.fget MGMT_STATUS.RECOVERY 0 0 = 1)
      ⟨phase, cause, ?_⟩ (fun _ _ h => h) (exec_secureBoot_holds hp hs)
    rw [State.fget_enterHold _ _ (by decide) (by decide) (by decide) (by decide) (by decide) (by decide), State.fget_fset_same]
    rfl
  · refine answers_with (P := fun t => t.phase = 5 ∧ t.mem = s.mem ∧ t.fget BOOT_STATUS.QUICK 0 0 = _)
      ⟨?_, ?_, ?_⟩ (fun _ _ h => h) (exec_selfTest hp)
    · exact State.toPhase_phase _ 5
    · rfl
    rw [State.fget_toPhase _ (by decide), State.fget_fset_same]
    by_cases quick : s.boot.warm = true ∧ s.fget BOOT_CTL.QUICK 0 0 = 1
    · rw [if_pos quick, quick.1, quick.2]
      rfl
    · have none : (s.boot.warm && s.fget BOOT_CTL.QUICK 0 0 == 1) = false := by simpa using quick
      rw [if_neg quick, none]
      rfl
  · exact holds_with (by decide) (exec_selfTest_holds hp hu)
  · have trained := exec_memoryTraining hc ht w hp
    generalize (w && (s.failedOut cs ts).trainedMem.all s.recordOk) = cold at trained
    generalize hn : (if s.fget BOOT_STATUS.IMAGE_ARMED 0 0 = 1 then 7 else 6) = n at trained ⊢
    have small : n < 16 := by
      rw [← hn]
      split
      · decide
      · decide
    refine answers_with (P := fun t => t.phase = n ∧ t.boot.memDone = true ∧ t.boot.inReset = false ∧ (∀ c ∈ cs, t.chanOos c = true) ∧
      (∀ j ∈ ts, t.tileUsable j = false) ∧ ∀ k, Tbl.get 0 t.mem k = _) ⟨?_, ?_, ?_, fun c hm => ?_, fun j hm => ?_, fun k => ?_⟩
      (fun _ _ h => h) trained
    · exact (State.trainedIn_phase _ n).trans (Nat.mod_eq_of_lt small)
    · rfl
    · rfl
    · rw [State.chanOos, State.fbit, State.trained_kept _ _ _ (chanOosKey_ne (by decide) (.inr ⟨rfl, by decide, rfl⟩) 0)
        (chanOosKey_ne (by decide) (.inr ⟨rfl, by decide, rfl⟩) 0)]
      exact State.chanOos_failedOut s hm
    · rw [State.tileUsable, State.fbit, State.trained_kept _ _ _ (by decide) (by decide)]
      exact State.tileUsable_failedOut s (by simpa [tileOk] using List.all_eq_true.mp ht j hm) hm
    · rw [State.trained_reads, State.failedOut_mem]
      rfl
  · exact holds_with (by decide) (exec_memoryTraining_holds w hp)
  · exact holds_with (by decide) (exec_imageCheck_unlinked hp hu)
  · obtain ⟨phase, cause, -⟩ := (s.fset BOOT_STATUS.SECTION 0 0 x).enterHold_shows (holdOf r)
    have small : holdOf r < 256 := by
      unfold holdOf
      split
      · decide
      · split
        · decide
        · decide
    refine answers_with (P := fun t => t.phase = 15 ∧ t.fget BOOT_STATUS.CAUSE 0 0 = holdOf r ∧ t.fget BOOT_STATUS.SECTION 0 0 = x % 16)
      ⟨phase, cause.trans (Nat.mod_eq_of_lt small), ?_⟩ (fun _ _ h => h) (exec_imageCheck_fails hp hu h)
    rw [State.enterHold_section, State.fget_fset_same]
    rfl
  · exact answers_with (P := fun t => t.phase = 8) (State.toPhase_phase _ 8) (fun _ _ h => h) (exec_imageCheck_passes hp hu h)
  · obtain ⟨at_, running, phase, mem⟩ := State.cruiseBegun_shows
      ((s.saveRecords ((s.enabledPorts.filter s.linkUp).map (2048 + ·))).toPhase 9)
    exact answers_with (P := fun t => t.phase = 9 ∧ t.fget FAB_CRUISE_STATUS.RUNNING 0 0 = 1 ∧ t.cruiseAt = some s.time ∧ t.mem = s.mem)
      ⟨phase.trans (State.toPhase_phase _ 9), running, at_, mem⟩ (fun _ _ h => h) (exec_linkTrainingPhase hp h)
  · exact answers_with (P := fun t => t.fget FAB_CRUISE_STATUS.RUNNING 0 0 = 0 ∧ t.fget FAB_CRUISE_STATUS.DONE 0 0 = 1 ∧
      t.cruiseAt = none ∧ t.phase = s.phase) s.cruiseDone_shows (fun _ _ h => h) (exec_cruiseEnd hc hp ha)
  · exact answers_with (P := fun t => t.boot.blobs = _ ∧ (t.boot.loaded = true ↔ _) ∧ t.phase = s.phase) (s.blobDone_shows i b)
      (fun _ _ h => h) (exec_weightLoadBlob hf hw hn hl)
  · exact holds_with (by decide) (exec_weightLoadBlob_holds hf hw hn)
  · obtain ⟨phase, forwards⟩ := s.ready_shows (if s.fget BOOT_TOPO2.RESULT 0 0 = 1 then 12 else 13)
    refine answers_with (P := fun t => t.fget FAB_CTL.FWD_EN 0 0 = 1 ∧ t.phase = _) ⟨forwards, phase.trans ?_⟩ (fun _ _ h => h)
      (exec_readyEntry hl hp)
    split
    · rfl
    · rfl
  · have armed : (s.fset BOOT_STATUS.IMAGE_ARMED 0 0 1).fget BOOT_STATUS.IMAGE_ARMED 0 0 = 1 := by
      rw [State.fget_fset_same]
      rfl
    refine answers_with (P := fun t => t.fget BOOT_STATUS.IMAGE_ARMED 0 0 = 1 ∧ t.phase = _ ∧ t.mem = s.mem) ?_ (fun _ _ h => h)
      (exec_bootLoad hw hc h h')
    split
    · exact ⟨(State.fget_toPhase _ (by decide) _).trans armed, State.toPhase_phase _ 7, rfl⟩
    · exact ⟨armed, State.phase_fset _ (by decide) _, rfl⟩
  · refine answers_with (P := fun t => t.phase = 7 ∧ t.fget BOOT_STATUS.IMAGE_ARMED 0 0 = 1 ∧ t.fget BOOT_STATUS.CAUSE 0 0 = 0)
      ⟨State.toPhase_phase _ 7, ?_, ?_⟩ (fun _ _ h => h) (exec_bootLoad_resumes hw hc hp hm hl hh)
    · rw [State.fget_toPhase _ (by decide), State.fget_fset_ne _ (by decide), State.fget_fset_same]
      rfl
    · rw [State.fget_toPhase _ (by decide), State.fget_fset_same]
      rfl
  · have accepted := exec_bootAccept hw hc hp
    rw [if_pos hl] at accepted
    exact answers_with (P := fun t => t.phase = 13 ∧ t.fget FAB_CTL.FWD_EN 0 0 = 1) (s.ready_shows 13) (fun _ _ h => h) accepted
  · have accepted := exec_bootAccept hw hc hp
    rw [hl, if_neg (by decide)] at accepted
    refine answers_with (P := fun t => t.boot.accept = true ∧ t.phase = 14) ⟨?_, ?_⟩ (fun _ _ h => h) accepted
    · rfl
    · exact hp
  · exact holds_with (by decide) (exec_bootAbort hw hc hp)
  · obtain ⟨-, mem, begun⟩ := s.partReset_shows
    obtain ⟨phase, reset⟩ := begun hv hi
    obtain ⟨warm, execs, parts, time⟩ := State.partReset_off hv hi
    exact answers_with (P := fun t => t.phase = 2 ∧ t.boot.inReset = true ∧ t.boot.warm = true ∧ t.mem = s.mem ∧ t.execs = [] ∧
      t.parts = [] ∧ t.time = 0) ⟨phase, reset, warm, mem, execs, parts, time⟩ (fun _ _ h => h) (exec_bootRestart hw hc)

end Sys2Proof.Machine
end

section
/-!
PROOF. The management complex's messages (R471 to R490): a message over I3C or SMBus is handled from phase 1 on, under the
recovery firmware only what it knows.
-/

namespace Sys2Proof.Machine

section Records

variable (s : State)

/-- Where a record goes leaves of the management complex all but what waits for the log. -/
theorem State.record_mgmt (h : Nat) (r : ErrRec) : ∃ l, (s.record h r).mgmt = { s.mgmt with feed := l } := by
  have queued (q : ErrRec) : ∃ l, (((s.sevEvents h q).recordFeed q).recordQueue h q).mgmt = { s.mgmt with feed := l } := by
    have fed : ∃ l, ((s.sevEvents h q).recordFeed q).mgmt = { (s.sevEvents h q).mgmt with feed := l } := by
      unfold State.recordFeed
      split
      · exact ⟨_, rfl⟩
      · exact ⟨(s.sevEvents h q).mgmt.feed, rfl⟩
    simpa using fed
  unfold State.record
  dsimp only
  split
  · simpa using queued _
  · exact queued _

/-- What the log takes leaves of the management complex all but the log and what waits for its receiver. -/
theorem State.logAppend_mgmt (h : Nat) (r : ErrRec) : ∃ es bs n x,
    (s.logAppend h r).mgmt = { s.mgmt with events := es, buffered := bs, logSeq := n, lost := x } := by
  have told : ∃ es, (if s.mgmt.receiver.isSome then (s.withMgmt { s.mgmt with events := s.mgmt.events ++ [r] }) else s).mgmt =
      { s.mgmt with events := es } := by
    split
    · exact ⟨_, rfl⟩
    · exact ⟨s.mgmt.events, rfl⟩
  obtain ⟨es, told⟩ := told
  unfold State.logAppend
  dsimp only
  generalize (if s.mgmt.receiver.isSome then _ else s : State) = u at told ⊢
  split
  · exact ⟨es, s.mgmt.buffered, s.mgmt.logSeq, u.mgmt.lost + 1, by simp [State.fcount, told]⟩
  · exact ⟨es, _, _, s.mgmt.lost, by rw [State.withMgmt, told]⟩

/-- A record of management's own leaves of the management complex all but the log and what waits for it. -/
theorem State.mgmtRec_mgmt_eq (n a b : Nat) : ∃ es l bs q x,
    (s.mgmtRec n a b).mgmt = { s.mgmt with events := es, feed := l, buffered := bs, logSeq := q, lost := x } := by
  obtain ⟨l, recorded⟩ := s.record_mgmt 0 { cause := 0x74 + n, sev := 4, pos := 0xFFFF, info0 := a, info1 := b }
  obtain ⟨f, i, m, u, r, eq, fed⟩ : ∃ f i m u r, s.mgmtRec n a b = (State.logAppend u 0xFF r).evt f 0 i m none ∧
      u.mgmt = { s.mgmt with feed := l.dropLast } := by
    refine ⟨_, _, _, (s.record 0 _).withMgmt { (s.record 0 _).mgmt with feed := (s.record 0 _).mgmt.feed.dropLast }, _, rfl, ?_⟩
    rw [State.withMgmt, recorded]
  obtain ⟨es, bs, q, x, logged⟩ := u.logAppend_mgmt 0xFF r
  have shown (t : State) : (t.evt f 0 i m none).mgmt = t.mgmt := by simp
  exact ⟨es, l.dropLast, bs, q, x, by rw [eq, shown, logged, fed]⟩

/-- So it leaves the update, the firmware slots and the partitions' keys. -/
theorem State.mgmtRec_mgmt (n a b : Nat) : (s.mgmtRec n a b).mgmt.update = s.mgmt.update ∧
    (s.mgmtRec n a b).mgmt.staging = s.mgmt.staging ∧ (s.mgmtRec n a b).mgmt.comps = s.mgmt.comps ∧
    (s.mgmtRec n a b).mgmt.slotVer = s.mgmt.slotVer ∧ (s.mgmtRec n a b).mgmt.keys = s.mgmt.keys := by
  obtain ⟨es, l, bs, q, x, shown⟩ := s.mgmtRec_mgmt_eq n a b
  rw [shown]
  exact ⟨rfl, rfl, rfl, rfl, rfl⟩

/-- It leaves the fuses. -/
theorem State.mgmtRec_fuses (n a b : Nat) : (s.mgmtRec n a b).fuses = s.fuses :=
  (State.mgmtRec_keeps (within_opened _ s) s n a b (.refl _ s) .boot (by decide)).2.1.symm

/-- Privilege is shown on both host ports (R479). -/
theorem State.setPriv_priv (v why : Nat) : (s.setPriv v why).fget HIF_PRIV.PRIV 0 0 = v % 2 ∧
    (s.setPriv v why).fget HIF_PRIV.PRIV 1 0 = v % 2 := by
  unfold State.setPriv
  split
  · next same =>
    refine ⟨?_, State.setPriv1_priv _ _ _ (by decide)⟩
    rw [State.fget_setPriv1 _ _ _ _ (by decide) (by decide) (by decide) (by decide), same]
  · constructor
    · rw [State.fget_mgmtRec _ _ _ _ (by decide) (by decide) (by decide), State.fget_fset_ne _ (by decide), State.fget_fset_same]
      rfl
    · rw [State.fget_mgmtRec _ _ _ _ (by decide) (by decide) (by decide), State.fget_fset_same]
      rfl

end Records

/-- An answer is no part of the management complex. -/
theorem State.answer_mgmt (s : State) (k : RespKind) (d : List Byte) : (s.answer k d).mgmt = s.mgmt := rfl

/-- Nor of the fuses. -/
theorem State.answer_fuses (s : State) (k : RespKind) (d : List Byte) : (s.answer k d).fuses = s.fuses := rfl

section Messages

variable {s : State} {via : Transport} (hv : via = .i3c ∨ via = .smbus)
include hv

/-- A message that arrives while it is answered (R471). -/
theorem State.message_open {basic : Bool} (spdm : Bool) (f : State → State) (hb : s.boot.vaon = true)
    (ho : basic = true ∨ s.fget MGMT_STATUS.RECOVERY 0 0 = 0) : s.message via basic spdm f = f s := by
  have answered : (s.boot.vaon && (basic || s.fget MGMT_STATUS.RECOVERY 0 0 == 0)) = true := by
    rcases ho with h | h <;> simp [hb, h]
  rcases hv with rfl | rfl
  · exact if_pos answered
  · exact if_pos answered

/-- One that arrives while it is not. -/
theorem State.message_closed {basic : Bool} (spdm : Bool) (f : State → State)
    (h : s.boot.vaon = false ∨ basic = false ∧ s.fget MGMT_STATUS.RECOVERY 0 0 ≠ 0) : s.message via basic spdm f = s := by
  have unanswered : ¬ (s.boot.vaon && (basic || s.fget MGMT_STATUS.RECOVERY 0 0 == 0)) = true := by
    rcases h with h | ⟨h, hr⟩
    · simp [h]
    · simp [h, hr]
  rcases hv with rfl | rfl
  · exact if_neg unanswered
  · exact if_neg unanswered

/-- The transport is one the part has. -/
theorem Transport.ok_of_bus : Transport.ok via = true := by
  rcases hv with rfl | rfl
  · rfl
  · rfl

/-- A command that answers what its message does. -/
theorem exec_message {c : Instr} {wf basic spdm : Bool} {f : State → State}
    (hc : exec c s = Machine.ok wf s (s.message via basic spdm f)) (hw : wf = true) (hb : s.boot.vaon = true)
    (ho : basic = true ∨ s.fget MGMT_STATUS.RECOVERY 0 0 = 0) : exec c s = Machine.ok true s (f s) := by
  rw [hc, hw, State.message_open hv spdm f hb ho]

/-- A command whose message is not answered changes nothing. -/
theorem exec_message_closed {c : Instr} {wf basic spdm : Bool} {f : State → State}
    (hc : exec c s = Machine.ok wf s (s.message via basic spdm f)) (hw : wf = true)
    (h : s.boot.vaon = false ∨ basic = false ∧ s.fget MGMT_STATUS.RECOVERY 0 0 ≠ 0) : exec c s = .next s := by
  rw [hc, hw, State.message_closed hv spdm f h]
  exact ok_of_pending rfl

/-- The commands that the recovery firmware answers too: before VAON is valid none of them is. -/
theorem exec_basic_closed {e k : Nat} {b : Bool} (he : e < 256) (h : s.boot.vaon = false) : ∀ c ∈
    [Instr.setEndpointId via e, .requestUpdate via e, .firmwareComponent via 1 none k [], .activateFirmware via b],
    exec c s = .next s := by
  have bus := Transport.ok_of_bus hv
  have bus' : (Transport.ok via && decide (e < 256)) = true := by simp [bus, he]
  intro c hc
  simp only [List.mem_cons, List.not_mem_nil, or_false] at hc
  obtain rfl | rfl | rfl | rfl := hc
  · exact exec_message_closed hv rfl bus' (.inl h)
  · exact exec_message_closed hv rfl bus' (.inl h)
  · exact exec_message_closed hv rfl bus (.inl h)
  · exact exec_message_closed hv rfl bus (.inl h)

/-- The other commands: in recovery none of them is answered either. -/
theorem exec_full_closed {e k : Nat} {g : Bool} {q : Spdm} (he : e < 256)
    (h : s.boot.vaon = false ∨ s.fget MGMT_STATUS.RECOVERY 0 0 ≠ 0) : ∀ c ∈
    [Instr.getSensorReading via k, .setEventReceiver via e, .logInfo via, .logRead via k e, .logClear via, .timeSet via k,
      .setPriv via k, .debugUnlock via k g, .spdmRequest via q], exec c s = .next s := by
  have bus := Transport.ok_of_bus hv
  have bus' : (Transport.ok via && decide (e < 256)) = true := by simp [bus, he]
  have closed : s.boot.vaon = false ∨ false = false ∧ s.fget MGMT_STATUS.RECOVERY 0 0 ≠ 0 := h.imp id (fun h => ⟨rfl, h⟩)
  intro c hc
  simp only [List.mem_cons, List.not_mem_nil, or_false] at hc
  obtain rfl | rfl | rfl | rfl | rfl | rfl | rfl | rfl | rfl := hc
  · exact exec_message_closed hv rfl bus closed
  · exact exec_message_closed hv rfl bus' closed
  · exact exec_message_closed hv rfl bus closed
  · exact exec_message_closed hv rfl bus closed
  · exact exec_message_closed hv rfl bus closed
  · exact exec_message_closed hv rfl bus closed
  · exact exec_message_closed hv rfl bus closed
  · exact exec_message_closed hv rfl bus closed
  · exact exec_message_closed hv rfl bus closed

variable (hb : s.boot.vaon = true)
include hb

section Update

/-- SET_ENDPOINT_ID (R471). -/
theorem exec_setEndpointId {e : Nat} (he : e < 256) :
    exec (.setEndpointId via e) s = .next ((s.withMgmt { s.mgmt with eid := e }).answer .ok []) := by
  rw [exec_message hv (c := .setEndpointId via e) rfl (by simp [Transport.ok_of_bus hv, he]) hb (.inl rfl)]
  exact ok_of_pending rfl

/-- REQUEST_UPDATE while an update is open (R476). -/
theorem exec_requestUpdate_refused {e : Nat} (he : e < 256) (hu : s.mgmt.update ≠ none) :
    exec (.requestUpdate via e) s = .next (s.answer .refused []) := by
  rw [exec_message hv (c := .requestUpdate via e) rfl (by simp [Transport.ok_of_bus hv, he]) hb (.inl rfl),
    if_pos (Option.isSome_iff_ne_none.mpr hu)]
  exact ok_of_pending rfl

/-- REQUEST_UPDATE otherwise. -/
theorem exec_requestUpdate {e : Nat} (he : e < 256) (hu : s.mgmt.update = none) : exec (.requestUpdate via e) s = Machine.ok true s
    ((State.fset (s.withMgmt { s.mgmt with update := some e, comps := [], staging := false }) MGMT_STATUS.UPDATE_OPEN 0 0 1).answer
      .ok []) := by
  rw [exec_message hv (c := .requestUpdate via e) rfl (by simp [Transport.ok_of_bus hv, he]) hb (.inl rfl),
    if_neg (by simp [hu])]

/-- FIRMWARE_COMPONENT without an update (R476). -/
theorem exec_firmwareComponent_refused (c : Nat) (o : Option Bool) (v : Nat) (l : List Nat) (hu : s.mgmt.update = none) :
    exec (.firmwareComponent via c o v l) s = .next (s.answer .refused []) := by
  rw [exec_message hv (c := .firmwareComponent via c o v l) rfl (Transport.ok_of_bus hv) hb (.inl rfl), if_pos (by simp [hu])]
  exact ok_of_pending rfl

/-- FIRMWARE_COMPONENT of firmware that is staged (R476). -/
theorem exec_firmwareComponent_staged (v : Nat) (l : List Nat) (hu : s.mgmt.update ≠ none) :
    exec (.firmwareComponent via 1 none v l) s = .next (State.answer (s.withMgmt { s.mgmt with staging := true }) .ok []) := by
  rw [exec_message hv (c := .firmwareComponent via 1 none v l) rfl (Transport.ok_of_bus hv) hb (.inl rfl), if_neg (by simp [hu])]
  exact ok_of_pending rfl

/-- FIRMWARE_COMPONENT of firmware whose verification ends (R476). -/
theorem exec_firmwareComponent_verified (good : Bool) (v : Nat) (l : List Nat) (hu : s.mgmt.update ≠ none) :
    exec (.firmwareComponent via 1 (some good) v l) s = Machine.ok true s (s.compDone 1 good v l) := by
  rw [exec_message hv (c := .firmwareComponent via 1 (some good) v l) rfl (Transport.ok_of_bus hv) hb (.inl rfl),
    if_neg (by simp [hu])]

omit hv hb in
/-- A record, and then an answer: the answer is given, and the slots and what is staged stand. -/
theorem State.recorded_answer (s : State) (n a b : Nat) (k : RespKind) : ((s.mgmtRec n a b).answer k []).rsp.kind = k ∧
    ((s.mgmtRec n a b).answer k []).mgmt.slotVer = s.mgmt.slotVer ∧
    ((s.mgmtRec n a b).answer k []).mgmt.staging = s.mgmt.staging ∧ ((s.mgmtRec n a b).answer k []).fuses = s.fuses := by
  obtain ⟨-, staging, -, slots, -⟩ := s.mgmtRec_mgmt n a b
  rw [State.answer_mgmt, State.answer_fuses]
  exact ⟨rfl, slots, staging, s.mgmtRec_fuses n a b⟩

/-- The slot that does not run takes the firmware (R476). -/
def State.slotTakes (s : State) (v : Nat) : State := s.withMgmt { s.mgmt with
  staging := false, slotVer := s.mgmt.slotVer.set (1 - s.fget MGMT_STATUS.RUN_SLOT 0 0) v, comps := s.mgmt.comps ++ [1] }

omit hv hb in
/-- Verified firmware. -/
theorem State.compDone_good (s : State) (v : Nat) (l : List Nat) :
    s.compDone 1 true v l = ((s.slotTakes v).mgmtRec 1 1 0).answer .ok [] := rfl

omit hv hb in
/-- Firmware that fails (R476). -/
theorem State.compDone_bad (s : State) (v : Nat) (l : List Nat) :
    s.compDone 1 false v l = ((s.withMgmt { s.mgmt with staging := false }).mgmtRec 1 1 2).answer .abort [] := rfl

/-- ACTIVATE_FIRMWARE without an update, or before its component is verified (R477). -/
theorem exec_activateFirmware_refused (b : Bool) (hu : s.mgmt.update = none ∨ s.mgmt.staging = true) :
    exec (.activateFirmware via b) s = .next (s.answer .refused []) := by
  rw [exec_message hv (c := .activateFirmware via b) rfl (Transport.ok_of_bus hv) hb (.inl rfl),
    if_pos (by rcases hu with h | h <;> simp [h])]
  exact ok_of_pending rfl

/-- With new firmware the slot that does not run boots next (R477). -/
def State.nextSlot (s : State) : State :=
  if s.mgmt.comps.contains 1 then
    (s.fset MGMT_STATUS.NEXT_SLOT 0 0 (1 - s.fget MGMT_STATUS.RUN_SLOT 0 0)).mgmtRec 1 1 1
  else s

/-- ACTIVATE_FIRMWARE that is not self-contained (R477). -/
theorem exec_activateFirmware (hu : s.mgmt.update ≠ none) (hs : s.mgmt.staging = false) :
    exec (.activateFirmware via false) s = Machine.ok true s ((State.fset (s.nextSlot.withMgmt
      { s.nextSlot.mgmt with update := none, comps := [] }) MGMT_STATUS.UPDATE_OPEN 0 0 0).answer .ok (natLE 2 0xFFFF)) := by
  rw [exec_message hv (c := .activateFirmware via false) rfl (Transport.ok_of_bus hv) hb (.inl rfl), if_neg (by simp [hu, hs])]
  rfl

omit hv hb in
/-- The slot that boots next is shown. -/
theorem State.nextSlot_shows (m : Mgmt) (h : s.mgmt.comps.contains 1 = true) :
    (((s.nextSlot.withMgmt m).fset MGMT_STATUS.UPDATE_OPEN 0 0 0).answer .ok (natLE 2 0xFFFF)).fget MGMT_STATUS.NEXT_SLOT 0 0 =
      (1 - s.fget MGMT_STATUS.RUN_SLOT 0 0) % 2 := by
  have kept : (s.nextSlot.withMgmt m).regs = s.nextSlot.regs := rfl
  rw [State.fget_answer, State.fget_fset_ne _ (by decide), State.fget_congr kept, State.nextSlot, if_pos h,
    State.fget_mgmtRec _ _ _ _ (by decide) (by decide) (by decide), State.fget_fset_same]
  rfl

end Update

section Full

variable (hr : s.fget MGMT_STATUS.RECOVERY 0 0 = 0)
include hr

/-- GET_SENSOR_READING (R473). -/
theorem exec_getSensorReading (k : Nat) : exec (.getSensorReading via k) s = .next
    (match (if s.boot.mgmtUp then s.reading k else none) with
      | none => s.answer .refused []
      | some [] => s.answer .notReady []
      | some bs => s.answer .ok bs) := by
  rw [exec_message hv (c := .getSensorReading via k) rfl (Transport.ok_of_bus hv) hb (.inr hr)]
  refine ok_of_pending ?_
  split
  · rfl
  · rfl
  · rfl

/-- SET_EVENT_RECEIVER (R473). -/
theorem exec_setEventReceiver {e : Nat} (he : e < 256) :
    exec (.setEventReceiver via e) s = .next ((s.withMgmt { s.mgmt with receiver := some e }).answer .ok []) := by
  rw [exec_message hv (c := .setEventReceiver via e) rfl (by simp [Transport.ok_of_bus hv, he]) hb (.inr hr)]
  exact ok_of_pending rfl

/-- LOG_INFO of a log with entries (R480). -/
theorem exec_logInfo {a b : LogEnt} {l : List LogEnt} (hl : s.mgmt.entries = a :: l) (hn : (a :: l).getLast? = some b) :
    exec (.logInfo via) s =
      .next (s.answer .ok (natLE 4 a.seq ++ natLE 4 b.seq ++ natLE 4 (s.fget MGMT_LOG_STATUS.LOST 0 0))) := by
  rw [exec_message hv (c := .logInfo via) rfl (Transport.ok_of_bus hv) hb (.inr hr)]
  dsimp only
  rw [hl, hn]
  exact ok_of_pending rfl

/-- LOG_READ of other counts, or from an entry that the log has lost (R480). -/
theorem exec_logRead_refused {first n : Nat} {a : LogEnt} {l : List LogEnt} (hl : s.mgmt.entries = a :: l)
    (h : n = 0 ∨ 7 < n ∨ first < a.seq) : exec (.logRead via first n) s = .next (s.answer .refused [2]) := by
  rw [exec_message hv (c := .logRead via first n) rfl (Transport.ok_of_bus hv) hb (.inr hr)]
  dsimp only
  rw [hl, if_pos (by simpa using h)]
  exact ok_of_pending rfl

/-- LOG_READ otherwise. -/
theorem exec_logRead {first n : Nat} {a : LogEnt} {l : List LogEnt} (hl : s.mgmt.entries = a :: l) (h1 : 1 ≤ n) (h7 : n ≤ 7)
    (ha : a.seq ≤ first) : exec (.logRead via first n) s = .next (s.answer .ok
      (((s.mgmt.entries.filter (fun e => decide (first ≤ e.seq))).take (if via = .smbus then 1 else n)).flatMap LogEnt.bytes)) := by
  rw [exec_message hv (c := .logRead via first n) rfl (Transport.ok_of_bus hv) hb (.inr hr)]
  dsimp only
  rw [hl, if_neg (by simp; omega)]
  exact ok_of_pending rfl

/-- LOG_CLEAR in HOLD (R481). -/
theorem exec_logClear (h : s.phase = 15) : exec (.logClear via) s = .next ((s.withMgmt { s.mgmt with flash := [] }).answer .ok []) := by
  rw [exec_message hv (c := .logClear via) rfl (Transport.ok_of_bus hv) hb (.inr hr), if_neg (by simp [h])]
  exact ok_of_pending rfl

/-- TIME_SET (R490). -/
theorem exec_timeSet (k : Nat) :
    exec (.timeSet via k) s = .next ((s.withMgmt { s.mgmt with setArmed := some (k % 2 ^ 64) }).answer .ok []) := by
  rw [exec_message hv (c := .timeSet via k) rfl (Transport.ok_of_bus hv) hb (.inr hr)]
  exact ok_of_pending rfl

/-- SET_PRIV of another value (R480). -/
theorem exec_setPriv_refused {k : Nat} (h : 1 < k) : exec (.setPriv via k) s = .next (s.answer .refused [2]) := by
  rw [exec_message hv (c := .setPriv via k) rfl (Transport.ok_of_bus hv) hb (.inr hr), if_pos h]
  exact ok_of_pending rfl

/-- SET_PRIV of 0 and 1. -/
theorem exec_setPriv {k : Nat} (h : k ≤ 1) : exec (.setPriv via k) s = Machine.ok true s ((s.setPriv k 1).answer .ok []) := by
  rw [exec_message hv (c := .setPriv via k) rfl (Transport.ok_of_bus hv) hb (.inr hr), if_neg (by omega)]

/-- DEBUG_UNLOCK outside HOLD, or with a bad token (R489). -/
theorem exec_debugUnlock_refused (k : Nat) {g : Bool} (h : s.phase ≠ 15 ∨ g = false) :
    exec (.debugUnlock via k g) s = .next (s.answer .refused [2]) := by
  rw [exec_message hv (c := .debugUnlock via k g) rfl (Transport.ok_of_bus hv) hb (.inr hr), if_pos h]
  exact ok_of_pending rfl

/-- The keys are destroyed and the port is open (R489). -/
def State.unlocked (s : State) (k : Nat) : State :=
  State.mgmtRec ((State.fset (s.withMgmt { s.mgmt with keys := [] }) SEC_ENC_STATUS.KEYED 0 0 0).fset MGMT_STATUS.DEBUG_OPEN 0 0 1)
    4 k 0

omit hv hb hr in
/-- Both are shown. -/
theorem State.unlocked_shows (s : State) (k : Nat) : (s.unlocked k).mgmt.keys = [] ∧
    (s.unlocked k).fget SEC_ENC_STATUS.KEYED 0 0 = 0 ∧ (s.unlocked k).fget MGMT_STATUS.DEBUG_OPEN 0 0 = 1 := by
  unfold State.unlocked
  refine ⟨?_, ?_, ?_⟩
  · obtain ⟨-, -, -, -, keys⟩ := State.mgmtRec_mgmt ((State.fset (s.withMgmt { s.mgmt with keys := [] })
      SEC_ENC_STATUS.KEYED 0 0 0).fset MGMT_STATUS.DEBUG_OPEN 0 0 1) 4 k 0
    exact keys
  · rw [State.fget_mgmtRec _ _ _ _ (by decide) (by decide) (by decide), State.fget_fset_ne _ (by decide), State.fget_fset_same]
    rfl
  · rw [State.fget_mgmtRec _ _ _ _ (by decide) (by decide) (by decide), State.fget_fset_same]
    rfl

/-- DEBUG_UNLOCK in HOLD with a good token (R489). -/
theorem exec_debugUnlock (k : Nat) (h : s.phase = 15) :
    exec (.debugUnlock via k true) s = Machine.ok true s ((s.unlocked k).answer .ok []) := by
  rw [exec_message hv (c := .debugUnlock via k true) rfl (Transport.ok_of_bus hv) hb (.inr hr), if_neg (by simp [h])]
  rfl

/-- A measurement without a signature (R484). -/
theorem exec_spdmMeasurement {i : Nat} {bs : List Byte} (h : s.measurement i = some bs) :
    exec (.spdmRequest via (.measurements i false)) s = .next (s.answer .ok bs) := by
  rw [exec_message hv (c := .spdmRequest via (.measurements i false)) rfl (Transport.ok_of_bus hv) hb (.inr hr), if_neg (by simp [Spdm.needsRandom])]
  dsimp only
  rw [h]
  exact ok_of_pending rfl

/-- Key exchange (R484). -/
theorem exec_spdmExchange : ∀ q ∈ [Spdm.keyExchange, .pskExchange], exec (.spdmRequest via q) s = .next (s.answer .refused []) := by
  intro q hq
  rw [exec_message hv (c := .spdmRequest via q) rfl (Transport.ok_of_bus hv) hb (.inr hr)]
  simp only [List.mem_cons, List.not_mem_nil, or_false] at hq
  obtain rfl | rfl := hq
  · exact ok_of_pending rfl
  · exact ok_of_pending rfl

/-- A challenge without the random source (R488). -/
theorem exec_spdmChallenge (h : s.fget SEC_RNG_STATUS.VALID 0 0 = 0) :
    exec (.spdmRequest via .challenge) s = .next (s.answer .abort []) := by
  rw [exec_message hv (c := .spdmRequest via .challenge) rfl (Transport.ok_of_bus hv) hb (.inr hr), if_pos (by simp [Spdm.needsRandom, h])]
  exact ok_of_pending rfl

end Full

end Messages

/-- Settles O56: each command's message is handled or not; the command follows from its case. -/
theorem managementCommandsAnswer : Obligations.ManagementCommandsAnswer := by
  unfold Obligations.ManagementCommandsAnswer
  intro s via hv
  dsimp only
  refine ⟨fun e k b q he h c hc => ?_, fun e k b q he h => exec_full_closed hv he (.inr h), fun hb => ?_, fun hb hr => ?_⟩
  · rcases List.mem_append.mp hc with hc | hc
    · exact exec_basic_closed hv he h c hc
    · exact exec_full_closed hv he (.inl h) c hc
  · refine ⟨fun e he => ⟨exec_setEndpointId hv hb he, fun hu => exec_requestUpdate_refused hv hb he hu, fun hu => ?_⟩,
      fun c o v l hu => exec_firmwareComponent_refused hv hb c o v l hu, fun v l hu => ⟨?_, ?_, ?_⟩,
      fun hu b => exec_activateFirmware_refused hv hb b hu, fun hu hs => ?_⟩
    · exact answers_with (P := fun t => t.mgmt.update = some e ∧ t.fget MGMT_STATUS.UPDATE_OPEN 0 0 = 1 ∧ t.rsp = ⟨.ok, []⟩)
        ⟨rfl, (State.fget_answer ..).trans (State.fget_fset_same ..), rfl⟩ (fun _ _ h => h) (exec_requestUpdate hv hb he hu)
    · exact exec_firmwareComponent_staged hv hb v l hu
    · obtain ⟨kind, slots, staging, -⟩ := (s.slotTakes v).recorded_answer 1 1 0 .ok
      refine answers_with (P := fun t => t.rsp.kind = .ok ∧
        t.mgmt.slotVer = s.mgmt.slotVer.set (1 - s.fget MGMT_STATUS.RUN_SLOT 0 0) v ∧ t.mgmt.staging = false)
        ?_ (fun _ _ h => h) (exec_firmwareComponent_verified hv hb true v l hu)
      rw [State.compDone_good]
      exact ⟨kind, slots, staging⟩
    · obtain ⟨kind, slots, -, fuses⟩ := (s.withMgmt { s.mgmt with staging := false }).recorded_answer 1 1 2 .abort
      refine answers_with (P := fun t => t.rsp.kind = .abort ∧ t.mgmt.slotVer = s.mgmt.slotVer ∧ t.fuses = s.fuses)
        ?_ (fun _ _ h => h) (exec_firmwareComponent_verified hv hb false v l hu)
      rw [State.compDone_bad]
      exact ⟨kind, slots, fuses⟩
    · exact answers_with (P := fun t => t.mgmt.update = none ∧ t.fget MGMT_STATUS.UPDATE_OPEN 0 0 = 0 ∧
        t.rsp = ⟨.ok, natLE 2 0xFFFF⟩ ∧ (s.mgmt.comps.contains 1 = true →
          t.fget MGMT_STATUS.NEXT_SLOT 0 0 = (1 - s.fget MGMT_STATUS.RUN_SLOT 0 0) % 2))
        ⟨rfl, (State.fget_answer ..).trans (State.fget_fset_same ..), rfl, State.nextSlot_shows _⟩
        (fun _ _ h => h) (exec_activateFirmware hv hb hu hs)
  · refine ⟨exec_getSensorReading hv hb hr, fun e he => exec_setEventReceiver hv hb hr he,
      fun a b l hl hn => exec_logInfo hv hb hr hl hn,
      fun first n a l hl => ⟨exec_logRead_refused hv hb hr hl, exec_logRead hv hb hr hl⟩, exec_logClear hv hb hr,
      exec_timeSet hv hb hr, fun k => exec_setPriv_refused hv hb hr, fun k hk => ?_,
      fun k g => exec_debugUnlock_refused hv hb hr k, fun k h => ?_, fun i bs => exec_spdmMeasurement hv hb hr,
      exec_spdmExchange hv hb hr, exec_spdmChallenge hv hb hr⟩
    · have small : k % 2 = k := Nat.mod_eq_of_lt (by omega)
      obtain ⟨p0, p1⟩ := s.setPriv_priv k 1
      exact answers_with (P := fun t => t.rsp = ⟨.ok, []⟩ ∧ t.fget HIF_PRIV.PRIV 0 0 = k ∧ t.fget HIF_PRIV.PRIV 1 0 = k)
        (u := (s.setPriv k 1).answer .ok []) ⟨rfl, (State.fget_answer ..).trans (p0.trans small),
          (State.fget_answer ..).trans (p1.trans small)⟩ (fun _ _ h => h) (exec_setPriv hv hb hr hk)
    · obtain ⟨keys, keyed, opened⟩ := s.unlocked_shows k
      exact answers_with (P := fun t => t.rsp = ⟨.ok, []⟩ ∧ t.mgmt.keys = [] ∧ t.fget SEC_ENC_STATUS.KEYED 0 0 = 0 ∧
          t.fget MGMT_STATUS.DEBUG_OPEN 0 0 = 1)
        (u := (s.unlocked k).answer .ok []) ⟨rfl, (congrArg Mgmt.keys (State.answer_mgmt ..)).trans keys,
          (State.fget_answer ..).trans keyed, (State.fget_answer ..).trans opened⟩ (fun _ _ h => h) (exec_debugUnlock hv hb hr k h)

end Sys2Proof.Machine
end

section
/-!
SUPPORT. The sleep states of tiles and of the part (R444 to R446): what each step of a wake shows, and what the ports' step leaves.
-/

namespace Sys2Proof.Machine

/-- What the power manager holds is no register. -/
theorem State.fget_onPower (s : State) (f : Power → Power) (g : Field) (u i : Nat) : (s.onPower f).fget g u i = s.fget g u i := rfl

/-! Tiles. -/

/-- A changed tile leaves another. -/
theorem State.tile_onTile_ne (s : State) {i j : Nat} (h : i ≠ j) (f : Tile → Tile) : (s.onTile j f).tile i = s.tile i := by
  simp [State.tile, Tbl.upd, Tbl.get_put_ne _ h]

/-- A tower that sleeps is no tile's state. -/
theorem State.towerSleep_tiles (s : State) (k : Nat) : (s.towerSleep k).tiles = s.tiles := by
  unfold State.towerSleep
  split
  · rfl
  · rfl

/-- Nor its arrays. -/
theorem State.towerSleep_arrs (s : State) (k : Nat) : (s.towerSleep k).arrs = s.arrs := by
  unfold State.towerSleep
  split
  · rfl
  · rfl

/-- Nor memory. -/
theorem State.towerSleep_mem (s : State) (k : Nat) : (s.towerSleep k).mem = s.mem := by
  unfold State.towerSleep
  split
  · rfl
  · rfl

/-- Nor what the power manager holds. -/
theorem State.towerSleep_power (s : State) (k : Nat) : (s.towerSleep k).power = s.power := by
  unfold State.towerSleep
  split
  · rfl
  · rfl

/-- It writes its own voltage target only. -/
theorem State.fget_towerSleep (s : State) {k : Nat} {g : Field} {u i : Nat} (h : g.key u i ≠ PWR_TOWER_CLK.VT_MV.key 0 k) :
    (s.towerSleep k).fget g u i = s.fget g u i := by
  unfold State.towerSleep
  split
  · exact State.fget_fset_ne _ h
  · rfl

/-- A tile that goes Off is off, its arrays empty. -/
theorem State.tileOff_shows (s : State) (j : Nat) : ((s.tileOff j).tile j).power = .off ∧
    (∀ a, a < 4 → Tbl.get {} (s.tileOff j).arrs (4 * j + a) = ({} : Arr)) ∧ ∀ i, i ≠ j → (s.tileOff j).tile i = s.tile i := by
  refine ⟨congrArg Tile.power (Tbl.get_put_same ..), fun a ha => ?_, fun i hi => Tbl.get_put_ne _ hi⟩
  exact Tbl.get_clearRange_in _ (by omega) (by omega)

/-- Every tile that goes Off is off. -/
theorem State.tilesOff_off (s : State) {j : Nat} (hj : j < 64) : ((s.tilesOff).tile j).power = .off := by
  refine foldl_once (P := fun _ : State => True) (Q := fun t : State => (t.tile j).power = .off) (f := State.tileOff)
    (List.mem_range.mpr hj) List.nodup_range (fun _ _ _ _ _ => trivial) (fun t _ => (t.tileOff_shows j).1) ?_ trivial
  exact fun t k _ hk h => (congrArg Tile.power ((t.tileOff_shows k).2.2 j hk.symm)).trans h

/-- Tiles that go Off are in no memory. -/
theorem State.tilesOff_mem (s : State) : s.tilesOff.mem = s.mem :=
  (State.tilesOff_keeps (within_opened _ s) s (.refl _ s) .memory (by decide)).1.symm

/-- And no register. -/
theorem State.tilesOff_regs (s : State) : s.tilesOff.regs = s.regs :=
  (State.tilesOff_keeps (within_opened _ s) s (.refl _ s) .registers (by decide)).1.symm

/-! Wake. -/

/-- The voltage of the clock that a tower runs at or goes to. -/
def State.clockVoltage (s : State) (k : Nat) : Nat :=
  s.voltage k (max (s.fget PWR_TOWER_CLK.TARGET 0 k) (s.fget PWR_TOWER_CLK.CURRENT 0 k))

/-- A voltage is at most 0.850 V (R434). -/
theorem State.clockVoltage_le (s : State) (k : Nat) : s.clockVoltage k ≤ 850 := Nat.min_le_left ..

/-- A tile runs, its tower at the voltage of its clock. -/
def State.wakeTile (s t : State) (j : Nat) : State :=
  let t1 := t.onTile j (fun x => { x with power := .run, since := s.time, wakeAt := none })
  if t1.fget PWR_TOWER_CLK.VT_MV 0 (j / 4) < s.clockVoltage (j / 4) then
    t1.fset PWR_TOWER_CLK.VT_MV 0 (j / 4) (s.clockVoltage (j / 4))
  else t1

/-- One tile of TILE_WAKE. -/
def State.wakeStep (s t : State) (j : Nat) : State :=
  match (s.tile j).wakeAt with
  | some w => if s.time < w then t else s.wakeTile t j
  | none => t

section Wake

variable (s t : State) (j : Nat)

/-- A tower's voltage is no tile's state. -/
theorem State.wakeTile_tiles : (s.wakeTile t j).tiles =
    (t.onTile j (fun x => { x with power := .run, since := s.time, wakeAt := none })).tiles := by
  unfold State.wakeTile
  dsimp only
  split
  · rfl
  · rfl

/-- The tile runs. -/
theorem State.wakeTile_same : (s.wakeTile t j).tile j = { t.tile j with power := .run, since := s.time, wakeAt := none } := by
  rw [State.tile_congr _ (s.wakeTile_tiles t j)]
  exact State.tile_onTile t j _

variable {j} in
/-- Another is as it was. -/
theorem State.wakeTile_ne {i : Nat} (h : i ≠ j) : (s.wakeTile t j).tile i = t.tile i := by
  rw [State.tile_congr _ (s.wakeTile_tiles t j)]
  exact t.tile_onTile_ne h _

/-- Memory is. -/
theorem State.wakeTile_mem : (s.wakeTile t j).mem = t.mem := by
  unfold State.wakeTile
  dsimp only
  split
  · rfl
  · rfl

/-- The tower has the voltage of its clock at least. -/
theorem State.wakeTile_volt : s.clockVoltage (j / 4) ≤ (s.wakeTile t j).fget PWR_TOWER_CLK.VT_MV 0 (j / 4) := by
  have small := s.clockVoltage_le (j / 4)
  unfold State.wakeTile
  dsimp only
  split
  · rw [State.fget_fset_same]
    exact (Nat.mod_eq_of_lt (show s.clockVoltage (j / 4) < 2 ^ 10 by omega)).ge
  · next h => exact Nat.le_of_not_lt h

/-- A tower that has it keeps it. -/
theorem State.wakeTile_keepsVolt {k : Nat} (h : s.clockVoltage k ≤ t.fget PWR_TOWER_CLK.VT_MV 0 k) :
    s.clockVoltage k ≤ (s.wakeTile t j).fget PWR_TOWER_CLK.VT_MV 0 k := by
  by_cases same : k = j / 4
  · rw [same]
    exact s.wakeTile_volt t j
  · have apart : PWR_TOWER_CLK.VT_MV.key 0 k ≠ PWR_TOWER_CLK.VT_MV.key 0 (j / 4) := by
      simp only [Field.key, Field.addr, PWR_TOWER_CLK.VT_MV]
      omega
    unfold State.wakeTile
    dsimp only
    split
    · rw [State.fget_fset_ne _ apart]
      exact h
    · exact h

/-- A tile whose time has come wakes. -/
theorem State.wakeStep_due {w : Nat} (h : (s.tile j).wakeAt = some w) (hw : w ≤ s.time) : s.wakeStep t j = s.wakeTile t j := by
  rw [State.wakeStep, h]
  exact if_neg (Nat.not_lt.mpr hw)

/-- Another stands. -/
theorem State.wakeStep_not (h : (s.tile j).wakeAt = none ∨ ∃ w, (s.tile j).wakeAt = some w ∧ s.time < w) : s.wakeStep t j = t := by
  obtain h | ⟨w, h, hw⟩ := h
  · rw [State.wakeStep, h]
  · rw [State.wakeStep, h]
    exact if_pos hw

/-- A step wakes its tile or does nothing. -/
theorem State.wakeStep_cases : s.wakeStep t j = s.wakeTile t j ∨ s.wakeStep t j = t := by
  unfold State.wakeStep
  split
  · split
    · exact .inr rfl
    · exact .inl rfl
  · exact .inr rfl

/-- What a waking tile keeps, a step keeps. -/
theorem State.wakeStep_keeps {P : State → Prop} (h : P t) (hw : P (s.wakeTile t j)) : P (s.wakeStep t j) := by
  rcases s.wakeStep_cases t j with e | e
  · rwa [e]
  · rwa [e]

end Wake

/-- A partition's tiles are numbered once each. -/
theorem State.partTiles_nodup (s : State) (p : Nat) : (s.partTiles p).Nodup := List.nodup_range.filter _

/-- TILE_WAKE (R445). -/
theorem exec_tileWake {s : State} {p : Nat} (hp : p < 16) :
    exec (.tileWake p) s = ok true s ((s.partTiles p).foldl s.wakeStep s) := by
  have wf : partOk p = true := decide_eq_true hp
  change ok (partOk p) s _ = _
  rw [wf]
  rfl

/-- The tiles whose time has come run, their towers at their voltage (R445). -/
theorem State.wakes (s : State) {p j w : Nat} (hj : j ∈ s.partTiles p) (h : (s.tile j).wakeAt = some w) (hw : w ≤ s.time) :
    ((s.partTiles p).foldl s.wakeStep s).tile j = { s.tile j with power := .run, since := s.time, wakeAt := none } ∧
    s.clockVoltage (j / 4) ≤ ((s.partTiles p).foldl s.wakeStep s).fget PWR_TOWER_CLK.VT_MV 0 (j / 4) := by
  refine foldl_once (P := fun t : State => t.tile j = s.tile j)
    (Q := fun t : State => t.tile j = { s.tile j with power := .run, since := s.time, wakeAt := none } ∧
      s.clockVoltage (j / 4) ≤ t.fget PWR_TOWER_CLK.VT_MV 0 (j / 4)) hj (s.partTiles_nodup p) ?_ ?_ ?_ rfl
  · intro t k _ hk ht
    exact s.wakeStep_keeps (P := fun t : State => t.tile j = s.tile j) t k ht ((s.wakeTile_ne t hk.symm).trans ht)
  · intro t ht
    rw [s.wakeStep_due t j h hw]
    refine ⟨?_, s.wakeTile_volt t j⟩
    rw [State.wakeTile_same, ht]
  · rintro t k _ hk ⟨ht, hv⟩
    exact s.wakeStep_keeps (P := fun t : State => t.tile j = _ ∧ s.clockVoltage (j / 4) ≤ t.fget PWR_TOWER_CLK.VT_MV 0 (j / 4)) t k
      ⟨ht, hv⟩ ⟨(s.wakeTile_ne t hk.symm).trans ht, s.wakeTile_keepsVolt t k hv⟩

/-- Other tiles stand. -/
theorem State.wakes_not (s : State) {p j : Nat} (h : j ∉ s.partTiles p ∨ (s.tile j).wakeAt = none ∨
    ∃ w, (s.tile j).wakeAt = some w ∧ s.time < w) : ((s.partTiles p).foldl s.wakeStep s).tile j = s.tile j := by
  refine foldl_keeps_mem (fun t : State => t.tile j = s.tile j) _ _ (fun t k hk ht => ?_) _ rfl
  by_cases same : k = j
  · subst same
    rw [s.wakeStep_not t k (h.resolve_left (not_not.mpr hk)), ht]
  · exact s.wakeStep_keeps (P := fun t : State => t.tile j = s.tile j) t k ht ((s.wakeTile_ne t (Ne.symm same)).trans ht)

/-- Memory stands. -/
theorem State.wakes_mem (s : State) (p : Nat) : ((s.partTiles p).foldl s.wakeStep s).mem = s.mem :=
  foldl_keeps_mem (fun t : State => t.mem = s.mem) _ _
    (fun t k _ ht => s.wakeStep_keeps (P := fun t : State => t.mem = s.mem) t k ht ((s.wakeTile_mem t k).trans ht)) _ rfl

/-! Ports. -/

/-- The keys below the fabric's. -/
def fabricKeys : Nat := 0x20000 * 64

/-- A port's registers lie above. -/
theorem fabricKeys_le {f : Field} (hf : f.blk = .fabric) (p : Nat) : fabricKeys ≤ f.key 0 p := by
  simp only [fabricKeys, Field.key, Field.addr, hf, blkBase]
  omega

section PortSteps

variable (s : State) {g : Field} {u i : Nat} (hg : g.key u i < fabricKeys)
include hg

/-- A port that changes its state leaves the registers below the fabric's. -/
theorem State.fget_setPst_low (p v : Nat) : (s.setPst p v).fget g u i = s.fget g u i :=
  s.fget_setPst ((hg.trans_le (fabricKeys_le rfl p)).ne) v

/-- So does one that starts to train. -/
theorem State.fget_portStart (p : Nat) : (s.portStart p).fget g u i = s.fget g u i := by
  unfold State.portStart
  split
  · exact s.fget_setPst_low hg p 1
  · rfl

/-- And one that goes down for Standby. -/
theorem State.fget_standbyPort (p : Nat) : (s.standbyPort p).fget g u i = s.fget g u i := by
  unfold State.standbyPort
  split
  · rw [State.fget_fset_ne _ ((hg.trans_le (fabricKeys_le rfl p)).ne), State.fget_setPst_low _ hg, State.fget_onPort]
  · exact s.fget_setPst_low hg p 0

/-- The live set's registers are among the fabric's. -/
theorem State.fget_relive (hl : g.lo < 64) : s.relive.fget g u i = s.fget g u i := by
  refine s.relive_relived.fget hl ?_
  have addr : g.addr u i < 0x20000 := by
    simp only [fabricKeys, Field.key] at hg
    omega
  exact ⟨by omega, by omega, by omega⟩

end PortSteps

section PortStates

variable (s : State) {p q : Nat}

/-- A port with EN that is down starts. -/
theorem State.portStart_same (he : s.fget FAB_PORT_CTL.EN 0 p = 1) (hp : s.pst p = 0) : (s.portStart p).pst p = 1 := by
  rw [State.portStart, if_pos ⟨he, hp⟩, State.pst_setPst_same]

/-- Another port is as it was. -/
theorem State.portStart_ne (h : q ≠ p) : (s.portStart p).pst q = s.pst q := by
  unfold State.portStart
  split
  · exact s.pst_setPst_ne h 1
  · rfl

/-- Which ports may train is. -/
theorem State.portStart_en : (s.portStart p).fget FAB_PORT_CTL.EN 0 q = s.fget FAB_PORT_CTL.EN 0 q := by
  unfold State.portStart
  split
  · refine s.fget_setPst ?_ 1
    simp only [Field.key, Field.addr, FAB_PORT_CTL.EN, FAB_PORT_STATUS.STATE]
    omega
  · rfl

/-- A port is down for Standby. -/
theorem State.standbyPort_same : (s.standbyPort p).pst p = 0 := by
  unfold State.standbyPort
  split
  · rw [State.pst_fset, State.pst_setPst_same]
    simp only [Field.key, Field.addr, FAB_PORT_PARTNER.VALID, FAB_PORT_STATUS.STATE, blkBase]
    omega
  · exact s.pst_setPst_same 0

/-- Another is as it was. -/
theorem State.standbyPort_ne (h : q ≠ p) : (s.standbyPort p).pst q = s.pst q := by
  unfold State.standbyPort
  split
  · rw [State.pst_fset, State.pst_setPst_ne _ h, State.pst_onPort]
    simp only [Field.key, Field.addr, FAB_PORT_PARTNER.VALID, FAB_PORT_STATUS.STATE, blkBase]
    omega
  · exact s.pst_setPst_ne h 0

/-- Memory and tiles are. -/
theorem State.standbyPort_frame : (s.standbyPort p).mem = s.mem ∧ (s.standbyPort p).tiles = s.tiles ∧
    (s.standbyPort p).power = s.power := by
  have kept := State.standbyPort_keeps (within_opened _ s) s p (.refl _ s)
  obtain ⟨mem, -⟩ := kept .memory (by decide)
  obtain ⟨tiles, -⟩ := kept .tiles (by decide)
  obtain ⟨power, -⟩ := kept .power (by decide)
  exact ⟨mem.symm, tiles.symm, power.symm⟩

end PortStates

/-! The part's states (R446). -/

section PartStates

variable (s : State)

/-- The part is in Run; after Standby its ports start. -/
def State.inRun (s : State) (st : Nat) : State :=
  let s1 := ((s.fset PWR_STATE_STATUS.ENTERING 0 0 0).fset PWR_STATE_STATUS.STATE 0 0 0).onPower (fun w =>
    { w with entering := none, idleSince := none })
  if st = 2 then (List.range 16).foldl State.portStart s1 else s1

/-- A wake. -/
theorem State.toRun_eq : s.toRun = if s.fget PWR_STATE_STATUS.STATE 0 0 = 0 then s.inRun (s.fget PWR_STATE_STATUS.STATE 0 0)
    else (s.inRun (s.fget PWR_STATE_STATUS.STATE 0 0)).evt PWR_EVENT.STATE_CHANGE 0 0 1 none := rfl

/-- The ports start in the state that runs. -/
theorem State.inRun_keeps {P : State → Prop} (st : Nat) (h : P (((s.fset PWR_STATE_STATUS.ENTERING 0 0 0).fset
      PWR_STATE_STATUS.STATE 0 0 0).onPower (fun w => { w with entering := none, idleSince := none })))
    (hp : ∀ t p, P t → P (State.portStart t p)) : P (s.inRun st) := by
  unfold State.inRun
  dsimp only
  split
  · exact foldl_keeps P _ hp _ _ h
  · exact h

/-- What runs leaves the other registers below the fabric's. -/
theorem State.fget_inRun (st : Nat) {g : Field} (hg : g.key 0 0 < fabricKeys) (h1 : g.key 0 0 ≠ PWR_STATE_STATUS.ENTERING.key 0 0)
    (h2 : g.key 0 0 ≠ PWR_STATE_STATUS.STATE.key 0 0) : (s.inRun st).fget g 0 0 = s.fget g 0 0 := by
  refine s.inRun_keeps (P := fun t => t.fget g 0 0 = s.fget g 0 0) st ?_ (fun t p h => (t.fget_portStart hg p).trans h)
  rw [State.fget_onPower, State.fget_fset_ne _ h2, State.fget_fset_ne _ h1]

/-- The part is shown in Run. -/
theorem State.inRun_state (st : Nat) : (s.inRun st).fget PWR_STATE_STATUS.STATE 0 0 = 0 :=
  s.inRun_keeps (P := fun t => t.fget PWR_STATE_STATUS.STATE 0 0 = 0) st ((State.fget_onPower ..).trans (State.fget_fset_same ..))
    (fun t p h => (t.fget_portStart (by decide) p).trans h)

/-- No entry is under way, and memory is as it was. -/
theorem State.inRun_rest (st : Nat) : (s.inRun st).power.entering = none ∧ (s.inRun st).mem = s.mem := by
  refine s.inRun_keeps (P := fun t => t.power.entering = none ∧ t.mem = s.mem) st ⟨rfl, rfl⟩ (fun t p h => ?_)
  unfold State.portStart
  split
  · exact h
  · exact h

/-- After Standby the ports that may train start. -/
theorem State.inRun_ports {p : Nat} (hp : p < 16) (he : s.fget FAB_PORT_CTL.EN 0 p = 1) (h0 : s.pst p = 0) :
    (s.inRun 2).pst p = 1 := by
  have apart : FAB_PORT_STATUS.STATE.key 0 p ≠ PWR_STATE_STATUS.STATE.key 0 0 ∧
      FAB_PORT_STATUS.STATE.key 0 p ≠ PWR_STATE_STATUS.ENTERING.key 0 0 ∧
      FAB_PORT_CTL.EN.key 0 p ≠ PWR_STATE_STATUS.STATE.key 0 0 ∧ FAB_PORT_CTL.EN.key 0 p ≠ PWR_STATE_STATUS.ENTERING.key 0 0 := by
    simp only [Field.key, Field.addr, FAB_PORT_CTL.EN, FAB_PORT_STATUS.STATE, PWR_STATE_STATUS.STATE, PWR_STATE_STATUS.ENTERING,
      blkBase]
    omega
  obtain ⟨h1, h2, h3, h4⟩ := apart
  unfold State.inRun
  dsimp only
  rw [if_pos rfl]
  refine foldl_once (P := fun t : State => t.pst p = 0 ∧ t.fget FAB_PORT_CTL.EN 0 p = 1) (Q := fun t : State => t.pst p = 1)
    (List.mem_range.mpr hp) List.nodup_range ?_ (fun t ht => t.portStart_same ht.2 ht.1) ?_ ⟨?_, ?_⟩
  · exact fun t q _ hq ht => ⟨(t.portStart_ne hq.symm).trans ht.1, t.portStart_en.trans ht.2⟩
  · exact fun t q _ hq ht => (t.portStart_ne hq.symm).trans ht
  · rw [State.pst, State.fget_onPower, State.fget_fset_ne _ h1, State.fget_fset_ne _ h2]
    exact h0
  · rw [State.fget_onPower, State.fget_fset_ne _ h3, State.fget_fset_ne _ h4, he]

/-- What a wake shows. -/
theorem State.toRun_shows : s.toRun.fget PWR_STATE_STATUS.STATE 0 0 = 0 ∧ s.toRun.power.entering = none ∧ s.toRun.mem = s.mem ∧
    s.toRun.fget PWR_STATE_CTL.AUTO_IDLE_MS 0 0 = s.fget PWR_STATE_CTL.AUTO_IDLE_MS 0 0 := by
  obtain ⟨entering, mem⟩ := s.inRun_rest (s.fget PWR_STATE_STATUS.STATE 0 0)
  have state := s.inRun_state (s.fget PWR_STATE_STATUS.STATE 0 0)
  have auto := s.fget_inRun (s.fget PWR_STATE_STATUS.STATE 0 0) (g := PWR_STATE_CTL.AUTO_IDLE_MS) (by decide) (by decide) (by decide)
  rw [State.toRun_eq]
  split
  · exact ⟨state, entering, mem, auto⟩
  · exact ⟨(State.fget_evt_ne _ (by decide)).trans state, by simpa using entering, by simpa using mem,
      (State.fget_evt_ne _ (by decide)).trans auto⟩

variable {s} in
/-- A part that was not in Run has changed its state. -/
theorem State.toRun_changed (h : s.fget PWR_STATE_STATUS.STATE 0 0 ≠ 0) : s.toRun.fget PWR_EVENT.STATE_CHANGE 0 0 = 1 ∧
    (s.fget PWR_STATE_STATUS.STATE 0 0 = 2 → ∀ p, p < 16 → s.fget FAB_PORT_CTL.EN 0 p = 1 → s.pst p = 0 → s.toRun.pst p = 1) := by
  rw [State.toRun_eq, if_neg h]
  refine ⟨State.fget_evt_one _ rfl _ _ _, fun h2 p hp he h0 => ?_⟩
  rw [h2]
  refine (State.fget_evt_ne _ ?_).trans (s.inRun_ports hp he h0)
  simp only [Field.key, Field.addr, FAB_PORT_STATUS.STATE, PWR_EVENT.STATE_CHANGE, blkBase]
  omega

/-- An entry that begins. -/
theorem State.enterState_shows {v : Nat} (h : s.fget PWR_STATE_STATUS.STATE 0 0 ≠ v) :
    (s.enterState v).power.entering = some v ∧ (s.enterState v).fget PWR_STATE_STATUS.ENTERING 0 0 = 1 := by
  rw [State.enterState, if_neg h]
  exact ⟨rfl, (State.fget_onPower ..).trans (State.fget_fset_same ..)⟩

/-- It leaves the state shown, what idles by itself, and memory. -/
theorem State.enterState_kept (v : Nat) : (s.enterState v).mem = s.mem ∧
    (s.enterState v).fget PWR_STATE_STATUS.STATE 0 0 = s.fget PWR_STATE_STATUS.STATE 0 0 ∧
    (s.enterState v).fget PWR_STATE_CTL.AUTO_IDLE_MS 0 0 = s.fget PWR_STATE_CTL.AUTO_IDLE_MS 0 0 := by
  unfold State.enterState
  split
  · exact ⟨rfl, rfl, rfl⟩
  · refine ⟨rfl, ?_, ?_⟩
    · rw [State.fget_onPower, State.fget_fset_ne _ (by decide)]
    · rw [State.fget_onPower, State.fget_fset_ne _ (by decide)]

/-- The entry is over. -/
def State.entryOver (s : State) : State :=
  (s.fset PWR_STATE_STATUS.ENTERING 0 0 0).onPower (fun w => { w with entering := none })

/-- The tiles of a part that idles are Off (Table 17.9). -/
def State.idled (s : State) (v : Nat) : State :=
  (List.range 16).foldl State.towerSleep (s.entryOver.fset PWR_STATE_STATUS.STATE 0 0 v).tilesOff

/-- In Standby its links are down. -/
def State.portsDown (s : State) : State := ((List.range 16).foldl State.standbyPort s).relive

/-- What idles shows its state. -/
theorem State.idled_shows (v : Nat) : (s.idled v).fget PWR_STATE_STATUS.ENTERING 0 0 = 0 ∧
    (s.idled v).fget PWR_STATE_STATUS.STATE 0 0 = v % 4 := by
  have apart {g : Field} (hg : g.addr 0 0 < 0x1100) (hl : g.lo < 64) (k : Nat) : g.key 0 0 ≠ PWR_TOWER_CLK.VT_MV.key 0 k := by
    simp only [Field.key, Field.addr, PWR_TOWER_CLK.VT_MV, blkBase] at hg ⊢
    omega
  have asleep {g : Field} (hg : g.addr 0 0 < 0x1100) (hl : g.lo < 64) :
      (s.idled v).fget g 0 0 = (s.entryOver.fset PWR_STATE_STATUS.STATE 0 0 v).fget g 0 0 := by
    rw [← State.fget_congr (State.tilesOff_regs (s.entryOver.fset PWR_STATE_STATUS.STATE 0 0 v))]
    exact foldl_keeps_mem (fun t : State => t.fget g 0 0 = _) _ _ (fun t k _ h => (t.fget_towerSleep (apart hg hl k)).trans h) _ rfl
  constructor
  · rw [asleep (by decide) (by decide), State.fget_fset_ne _ (by decide)]
    exact (State.fget_onPower ..).trans (State.fget_fset_same ..)
  · rw [asleep (by decide) (by decide), State.fget_fset_same]
    rfl

/-- Its tiles are off; memory and the entry's end stand. -/
theorem State.idled_rest (v : Nat) : (∀ j, j < 64 → ((s.idled v).tile j).power = .off) ∧ (s.idled v).mem = s.mem ∧
    (s.idled v).power.entering = none := by
  have tiles : (s.idled v).tiles = (s.entryOver.fset PWR_STATE_STATUS.STATE 0 0 v).tilesOff.tiles :=
    foldl_keeps_mem (fun t : State => t.tiles = _) _ _ (fun t k _ h => (t.towerSleep_tiles k).trans h) _ rfl
  refine ⟨fun j hj => ?_, ?_, ?_⟩
  · rw [State.tile_congr _ tiles]
    exact State.tilesOff_off _ hj
  · have slept : (s.idled v).mem = (s.entryOver.fset PWR_STATE_STATUS.STATE 0 0 v).tilesOff.mem :=
      foldl_keeps_mem (fun t : State => t.mem = _) _ _ (fun t k _ h => (t.towerSleep_mem k).trans h) _ rfl
    rw [slept, State.tilesOff_mem]
    rfl
  · have slept : (s.idled v).power = (s.entryOver.fset PWR_STATE_STATUS.STATE 0 0 v).tilesOff.power :=
      foldl_keeps_mem (fun t : State => t.power = _) _ _ (fun t k _ h => (t.towerSleep_power k).trans h) _ rfl
    have kept := State.tilesOff_keeps (within_opened _ _) (s.entryOver.fset PWR_STATE_STATUS.STATE 0 0 v) (.refl _ _) .power (by decide)
    rw [slept, ← kept.1]
    rfl

/-- Ports that go down leave the registers below the fabric's. -/
theorem State.fget_portsDown {g : Field} (hg : g.key 0 0 < fabricKeys) (hl : g.lo < 64) :
    s.portsDown.fget g 0 0 = s.fget g 0 0 := by
  rw [State.portsDown, State.fget_relive _ hg hl]
  exact foldl_keeps_mem (fun t : State => t.fget g 0 0 = s.fget g 0 0) _ _ (fun t k _ h => (t.fget_standbyPort hg k).trans h) _ rfl

/-- Every port is down. -/
theorem State.portsDown_pst {p : Nat} (hp : p < 16) : s.portsDown.pst p = 0 := by
  rw [State.portsDown, (State.relive_relived _).pst hp]
  exact foldl_once (P := fun _ : State => True) (Q := fun t : State => t.pst p = 0) (List.mem_range.mpr hp) List.nodup_range
    (fun _ _ _ _ _ => trivial) (fun t _ => t.standbyPort_same) (fun t q _ hq h => (t.standbyPort_ne hq.symm).trans h) trivial

/-- Memory, tiles and the power manager's part stand. -/
theorem State.portsDown_frame : s.portsDown.mem = s.mem ∧ s.portsDown.tiles = s.tiles ∧ s.portsDown.power = s.power := by
  have kept := State.relive_keeps (within_opened _ _) ((List.range 16).foldl State.standbyPort s) (.refl _ _)
  obtain ⟨tiles, -⟩ := kept .tiles (by decide)
  obtain ⟨power, -⟩ := kept .power (by decide)
  have stood := foldl_keeps_mem (fun t : State => t.mem = s.mem ∧ t.tiles = s.tiles ∧ t.power = s.power) State.standbyPort
    (List.range 16) (fun t p _ h => by
      obtain ⟨mem, tiles, power⟩ := t.standbyPort_frame (p := p)
      exact ⟨mem.trans h.1, tiles.trans h.2.1, power.trans h.2.2⟩) s ⟨rfl, rfl, rfl⟩
  obtain ⟨mem', tiles', power'⟩ := stood
  exact ⟨(State.relive_mem _).trans mem', tiles.symm.trans tiles', power.symm.trans power'⟩

end PartStates

end Sys2Proof.Machine
end

section
/-!
SUPPORT. The board's side of the part (R433, R454 to R465): what the sequencer, a power fault, a regulator's readings and a cable
that goes leave and show.
-/

namespace Sys2Proof.Machine

/-- The board's state is no register. -/
theorem State.fget_withPkg (s : State) (p : Pkg) (f : Field) (u i : Nat) : (s.withPkg p).fget f u i = s.fget f u i := rfl

section Sequencer

variable (s : State)

/-- The PG inputs take their value (R456). -/
theorem State.setPgs_pg {m : Nat} (hm : m < 2 ^ 29) : (s.setPgs m).fget PKG_PG.PG 0 0 = m := by
  rw [State.setPgs, State.fget_fset_ne _ (by decide), State.fget_fset_same]
  exact Nat.mod_eq_of_lt hm

/-- Other registers than these inputs and the stage are as they were. -/
theorem State.fget_setPgs (m : Nat) {g : Field} {u i : Nat} (h1 : g.key u i ≠ PKG_PG.PG.key 0 0)
    (h2 : g.key u i ≠ PKG_SEQ.STAGE.key 0 0) : (s.setPgs m).fget g u i = s.fget g u i := by
  rw [State.setPgs, State.fget_fset_ne _ h2, State.fget_fset_ne _ h1]

/-- The PGs of a mask are gone from the inputs. -/
theorem State.pgsWithout_testBit {m q : Nat} (hq : q < 29) (h : m.testBit q = true) : (s.pgsWithout m).testBit q = false := by
  refine foldl_once (P := fun _ : Nat => True) (Q := fun v : Nat => v.testBit q = false) (List.mem_range.mpr hq) List.nodup_range
    (fun _ _ _ _ _ => trivial) (fun v _ => ?_) (fun v r _ hr hv => ?_) trivial
  · rw [if_pos h]
    exact testBit_setBit_same v q false
  · split
    · exact (testBit_setBit_ne v hr.symm false).trans hv
    · exact hv

/-- An enable that falls, or none, is all that a power-down writes at once. -/
theorem State.dropEnable_frame (low : Nat) : ∃ r k, s.dropEnable low = ({ s with regs := r }).withPkg k ∧
    (∀ (g : Field) (u i : Nat), g.key u i ≠ PKG_SEQ.EN.key 0 0 → (s.dropEnable low).fget g u i = s.fget g u i) ∧
    k.off = s.pkg.off := by
  unfold State.dropEnable
  split
  · exact ⟨s.regs, _, rfl, fun _ _ _ _ => rfl, rfl⟩
  · exact ⟨_, _, rfl, fun g u i h => State.fget_fset_ne _ h, rfl⟩

/-- So for enables that begin to fall. -/
theorem State.powerDown_frame (low : Nat) : ∃ r k, s.powerDown low = ({ s with regs := r }).withPkg k ∧
    (∀ (g : Field) (u i : Nat), g.key u i ≠ PKG_SEQ.EN.key 0 0 → (s.powerDown low).fget g u i = s.fget g u i) ∧
    k.off = s.pkg.off := by
  unfold State.powerDown
  dsimp only
  split
  · exact ⟨s.regs, _, rfl, fun _ _ _ _ => rfl, rfl⟩
  · exact s.dropEnable_frame _

/-- A power-down leaves the other registers. -/
theorem State.fget_powerDown (low : Nat) {g : Field} {u i : Nat} (h : g.key u i ≠ PKG_SEQ.EN.key 0 0) :
    (s.powerDown low).fget g u i = s.fget g u i := by
  obtain ⟨r, k, -, kept, -⟩ := s.powerDown_frame low
  exact kept g u i h

/-- It leaves whether the part is halted. -/
theorem State.powerDown_halted (low : Nat) : (s.powerDown low).halted = s.halted := by
  obtain ⟨r, k, e, -⟩ := s.powerDown_frame low
  rw [e]
  rfl

variable {s}

/-- The highest enable falls first (R457). -/
theorem State.dropEnable_highest {n : Nat} (h1 : 1 ≤ n) (h4 : n ≤ 4) (he : s.enabled n = true)
    (hi : ∀ k, n < k → k ≤ 4 → s.enabled k = false) : (s.dropEnable 1).enabled n = false := by
  have falls (l : List Nat) (h : [4, 3, 2, 1].filter (fun k => 1 ≤ k ∧ s.enabled k = true) = n :: l) :
      (s.dropEnable 1).enabled n = false := by
    have bit : ((s.fbitSet PKG_SEQ.EN 0 0 (n - 1) false).fbit PKG_SEQ.EN 0 0 (n - 1)) = false :=
      State.fbit_fbitSet_same (show n - 1 < 4 by omega) false
    unfold State.dropEnable
    rw [h]
    simp only [State.enabled, Bool.or_eq_false_iff, beq_eq_false_iff_ne]
    exact ⟨by omega, bit⟩
  have off {k : Nat} (hk : n < k) (hk4 : k ≤ 4) : ¬ s.enabled k = true := by simp [hi k hk hk4]
  interval_cases n
  · exact falls [] (by simp [he, off])
  · exact falls _ (by simp [he, off]; rfl)
  · exact falls _ (by simp [he, off]; rfl)
  · exact falls _ (by simp [he]; rfl)

/-- An enable that is asserted is. -/
theorem State.enabled_raised {n : Nat} (h1 : 1 ≤ n) (h4 : n ≤ 4) : (s.fbitSet PKG_SEQ.EN 0 0 (n - 1) true).enabled n = true := by
  have bit : ((s.fbitSet PKG_SEQ.EN 0 0 (n - 1) true).fbit PKG_SEQ.EN 0 0 (n - 1)) = true :=
    State.fbit_fbitSet_same (show n - 1 < 4 by omega) true
  rw [State.enabled, bit, Bool.or_true]

/-- A stage that may be enabled next is one of the four, and is not enabled. -/
theorem State.nextStage_off {n : Nat} (h : s.nextStage = some n) : 1 ≤ n ∧ n ≤ 4 ∧ s.enabled n = false := by
  have found {k : Nat} (hk : [1, 2, 3, 4].find? (fun n => !s.enabled n) = some k) : 1 ≤ k ∧ k ≤ 4 ∧ s.enabled k = false := by
    have off := List.find?_some hk
    have mem := List.mem_of_find?_eq_some hk
    simp only [List.mem_cons, List.not_mem_nil, or_false] at mem
    exact ⟨by omega, by omega, by simpa using off⟩
  unfold State.nextStage at h
  split at h
  · cases h
  · split at h
    · next h4 =>
      split at h
      · cases h
      · obtain rfl := Option.some.inj h
        exact found h4
    · exact found h

end Sequencer

section Fault

variable (s : State)

/-- What the latch of a trip and HOLD after it leave. -/
theorem State.fget_tripStop (cause sensor hold : Nat) {g : Field} {u i : Nat} (h64 : 64 ≤ g.key u i) (hlow : g.key u i < hubKeys)
    (hl : g.key u i ≠ MGMT_LOG_STATUS.LOST.key 0 0) (he : g.key u i ≠ MGMT_EVENT.CAUSE.key 0 0)
    (h0 : g.key u i ≠ HIF_PRIV.PRIV.key 0 0) (h1 : g.key u i ≠ HIF_PRIV.PRIV.key 1 0)
    (ht : g.key u i ≠ PWR_TRIP.CAUSE.key 0 0 ∧ g.key u i ≠ PWR_TRIP.SENSOR.key 0 0 ∧ g.key u i ≠ PWR_TRIP.LATCHED.key 0 0) :
    (s.tripStop cause sensor hold).fget g u i = s.fget g u i := by
  obtain ⟨hc, hs, hla⟩ := ht
  rw [State.tripStop_eq, State.fget_enterHold _ _ h64 hlow hl he h0 h1, State.latchTrip, State.fget_withHalted,
    State.fget_fset_ne _ hla, State.fget_fset_ne _ hs, State.fget_fset_ne _ hc]

/-- The record of a rail's fault (R447). -/
def State.faultRec (s : State) (r : Nat) : State :=
  match railAvs r with
  | some (g, _) => s.powerRec 0x67 3 0 r g
  | none => (s.draw).powerRec 0x67 3 0 r (leNat (s.freeBytes 8))

/-- A record leaves the registers below the hubs'. -/
theorem State.fget_faultRec (r : Nat) {g : Field} {u i : Nat} (hg : g.key u i < hubKeys) :
    (s.faultRec r).fget g u i = s.fget g u i := by
  have recorded (t : State) (i0 i1 : Nat) : (t.powerRec 0x67 3 0 i0 i1).fget g u i = t.fget g u i :=
    State.LowKept.fget ((spared_lowKept t).record (.refl t) ..) hg
  unfold State.faultRec
  split
  · exact recorded _ _ _
  · exact recorded _ _ _

/-- A rail's fault stops the part (R433, R459). -/
def State.railFault (s : State) (r : Nat) : State :=
  (((s.fset PKG_SEQ.FAULT 0 0 1).fset PKG_SEQ.FAULT_RAIL 0 0 r).faultRec r).tripStop 4 0 0x01

/-- What it shows. -/
theorem State.railFault_shows {r : Nat} (hr : r < 29) : (s.railFault r).fget PKG_SEQ.FAULT 0 0 = 1 ∧
    (s.railFault r).fget PKG_SEQ.FAULT_RAIL 0 0 = r ∧ (s.railFault r).phase = 15 ∧
    (s.railFault r).fget BOOT_STATUS.CAUSE 0 0 = 1 ∧ (s.railFault r).fget PWR_TRIP.CAUSE 0 0 = 4 ∧
    (s.railFault r).fget PWR_TRIP.LATCHED 0 0 = 1 ∧ (s.railFault r).halted = true ∧
    (s.railFault r).fget PKG_PG.PG 0 0 = s.fget PKG_PG.PG 0 0 := by
  unfold State.railFault
  obtain ⟨latched, -, cause, -⟩ := State.tripStop_fields (((s.fset PKG_SEQ.FAULT 0 0 1).fset PKG_SEQ.FAULT_RAIL 0 0 r).faultRec r)
    (show 4 < 8 by decide) (show 0 < 1024 by decide) 0x01
  obtain ⟨phase, hold, halted, -⟩ := ((((s.fset PKG_SEQ.FAULT 0 0 1).fset PKG_SEQ.FAULT_RAIL 0 0 r).faultRec r).latchTrip 4
    0).enterHold_shows 0x01
  rw [← State.tripStop_eq] at phase hold halted
  refine ⟨?_, ?_, phase, hold, cause, latched, halted, ?_⟩
  · rw [State.fget_tripStop _ _ _ _ (by decide) (by decide) (by decide) (by decide) (by decide) (by decide) (by decide),
      State.fget_faultRec _ _ (by decide), State.fget_fset_ne _ (by decide), State.fget_fset_same]
    rfl
  · rw [State.fget_tripStop _ _ _ _ (by decide) (by decide) (by decide) (by decide) (by decide) (by decide) (by decide),
      State.fget_faultRec _ _ (by decide), State.fget_fset_same]
    exact Nat.mod_eq_of_lt (show r < 2 ^ 5 by omega)
  · rw [State.fget_tripStop _ _ _ _ (by decide) (by decide) (by decide) (by decide) (by decide) (by decide) (by decide),
      State.fget_faultRec _ _ (by decide), State.fget_fset_ne _ (by decide), State.fget_fset_ne _ (by decide)]

/-- With stage 1 gone the host ports no longer answer. -/
def State.hostsGone (s : State) (low : Nat) : State :=
  if low ≤ 1 then (s.withPkg { s.pkg with hostUp := [0, 0], hostGen := [0, 0] }) else s

/-- That is no register, and the part stays halted. -/
theorem State.hostsGone_shows (low : Nat) : (∀ (g : Field) (u i : Nat), (s.hostsGone low).fget g u i = s.fget g u i) ∧
    (s.hostsGone low).halted = s.halted := by
  unfold State.hostsGone
  split
  · exact ⟨fun _ _ _ => rfl, rfl⟩
  · exact ⟨fun _ _ _ => rfl, rfl⟩

end Fault

section Readings

variable (s : State)

/-- Attempts that failed are counted. -/
theorem State.avs_good {g x n : Nat} (hn : n < 4) (f : State → State) :
    s.avs g x n f = f (s.fcountN PKG_AVS_STATUS.RETRIES 0 0 (min n 3)) := if_pos hn

/-- The segment fails (R461). -/
def State.segLost (s : State) (g : Nat) : State :=
  let s2 := s.fbitSet PKG_AVS_STATUS.SEG_OK 0 0 g false
  State.evt (s2.withPkg { s2.pkg with segBad := setBit s2.pkg.segBad g true }) PKG_AVS_STATUS.SEG_FAIL 0 0 (2 ^ g) none

/-- After four attempts it does. -/
theorem State.avs_bad {g x n : Nat} (hn : 4 ≤ n) (f : State → State) :
    s.avs g x n f = ((s.fcountN PKG_AVS_STATUS.RETRIES 0 0 (min n 3)).segLost g).powerRec 0x73 4 0 g x :=
  if_neg (Nat.not_lt.mpr hn)

/-- What a failed segment shows. -/
theorem State.segLost_shows {g : Nat} (hg : g < 4) : (s.segLost g).pkg.segBad.testBit g = true ∧
    (s.segLost g).fbit PKG_AVS_STATUS.SEG_OK 0 0 g = false ∧ (s.segLost g).fbit PKG_AVS_STATUS.SEG_FAIL 0 0 g = true := by
  have ok : (s.fbitSet PKG_AVS_STATUS.SEG_OK 0 0 g false).fbit PKG_AVS_STATUS.SEG_OK 0 0 g = false :=
    State.fbit_fbitSet_same hg false
  unfold State.segLost
  dsimp only
  refine ⟨?_, ?_, ?_⟩
  · simp only [State.evt_frame]
    exact testBit_setBit_same _ g true
  · rw [State.fbit, State.fget_evt_ne _ (by decide)]
    exact ok
  · rw [State.fbit, State.fget_evt_same, Nat.testBit_mod_two_pow, Nat.testBit_or, Nat.testBit_two_pow_self, Bool.or_true,
      Bool.and_true]
    exact decide_eq_true hg

/-- A segment returns to service. -/
theorem State.segGood_shows {g : Nat} (hg : g < 4) : (s.segGood g).pkg.segBad.testBit g = false ∧
    (s.segGood g).fbit PKG_AVS_STATUS.SEG_OK 0 0 g = true :=
  ⟨testBit_setBit_same _ g false, State.fbit_fbitSet_same (s := s) (f := PKG_AVS_STATUS.SEG_OK) hg true⟩

/-- The readings of one rail (R460). -/
def State.railRead (s : State) (g r mv da dw c : Nat) : State :=
  let t1 := (((s.segGood g).fset PKG_RAIL.V_MV 0 r mv).fset PKG_RAIL.I_DA 0 r da)
  let t2 := (t1.fset PKG_RAIL.P_DW 0 r dw).fset PKG_RAIL.VR_TEMP 0 r c
  (t2.withPkg { t2.pkg with railAt := Tbl.put none t2.pkg.railAt r (some s.time) })

/-- They are shown. -/
theorem State.railRead_shows (g r mv da dw c : Nat) : (s.railRead g r mv da dw c).fget PKG_RAIL.V_MV 0 r = mv % 4096 ∧
    (s.railRead g r mv da dw c).fget PKG_RAIL.I_DA 0 r = da % 65536 ∧ (s.railRead g r mv da dw c).fget PKG_RAIL.P_DW 0 r = dw % 65536 ∧
    (s.railRead g r mv da dw c).fget PKG_RAIL.VR_TEMP 0 r = c % 256 ∧ (s.railRead g r mv da dw c).mem = s.mem := by
  unfold State.railRead
  simp only [State.fget_withPkg]
  refine ⟨?_, ?_, ?_, ?_, by simp [State.segGood, State.fbitSet]⟩
  · rw [State.fget_fset_lo (f := PKG_RAIL.VR_TEMP) (g := PKG_RAIL.V_MV) _ rfl rfl rfl (by decide),
      State.fget_fset_lo (f := PKG_RAIL.P_DW) (g := PKG_RAIL.V_MV) _ rfl rfl rfl (by decide),
      State.fget_fset_lo (f := PKG_RAIL.I_DA) (g := PKG_RAIL.V_MV) _ rfl rfl rfl (by decide), State.fget_fset_same]
    rfl
  · rw [State.fget_fset_lo (f := PKG_RAIL.VR_TEMP) (g := PKG_RAIL.I_DA) _ rfl rfl rfl (by decide),
      State.fget_fset_lo (f := PKG_RAIL.P_DW) (g := PKG_RAIL.I_DA) _ rfl rfl rfl (by decide), State.fget_fset_same]
    rfl
  · rw [State.fget_fset_lo (f := PKG_RAIL.VR_TEMP) (g := PKG_RAIL.P_DW) _ rfl rfl rfl (by decide), State.fget_fset_same]
    rfl
  · rw [State.fget_fset_same]
    rfl

/-- A rail's segment is one of four. -/
theorem railAvs_segment {r g x : Nat} (h : railAvs r = some (g, x)) : g < 4 := by
  unfold railAvs at h
  split at h
  · simp only [Option.some.injEq, Prod.mk.injEq] at h
    omega
  · split at h
    · simp only [Option.some.injEq, Prod.mk.injEq] at h
      omega
    · split at h <;> simp only [Option.some.injEq, Prod.mk.injEq, reduceCtorEq] at h <;> omega

/-- A failed segment's rail keeps its reading. -/
theorem State.segLost_rail (g n r : Nat) :
    ((s.fcountN PKG_AVS_STATUS.RETRIES 0 0 n).segLost g).fget PKG_RAIL.V_MV 0 r = s.fget PKG_RAIL.V_MV 0 r := by
  have apart {f : Field} (hf : f.blk = .package) (ho : f.off < 0x100) (hl : f.lo < 64) (hs : f.stride = 0) :
      PKG_RAIL.V_MV.key 0 r ≠ f.key 0 0 := by
    simp only [Field.key, Field.addr, PKG_RAIL.V_MV, hf, hs, blkBase]
    omega
  unfold State.segLost
  dsimp only
  rw [State.fget_evt_ne _ (apart rfl (by decide) (by decide) rfl), State.fget_withPkg, State.fbitSet,
    State.fget_fset_ne _ (apart rfl (by decide) (by decide) rfl), State.fcountN,
    State.fget_fset_ne _ (apart rfl (by decide) (by decide) rfl)]

end Readings

section Cables

variable (s : State)

/-- A link that is lost leaves the registers below the fabric's. -/
theorem State.fget_linkLost (p : Nat) {g : Field} {u i : Nat} (hg : g.key u i < fabricKeys) (hl : g.lo < 64) :
    (s.linkLost p).fget g u i = s.fget g u i := by
  have low : g.key u i < hubKeys := hg.trans (by decide)
  have event : fabricKeys ≤ FAB_EVENT.LINK_DOWN.key 0 0 := fabricKeys_le rfl 0
  unfold State.linkLost
  rw [State.fget_fabRecord _ _ _ _ _ low, State.fget_evt_ne _ (hg.trans_le event).ne, State.fget_relive _ hg hl,
    State.fget_fset_ne _ ((hg.trans_le (fabricKeys_le rfl p)).ne), State.fget_setPst_low _ hg, State.fget_onPort]

/-- Another port is as it was. -/
theorem State.linkLost_ne {p q : Nat} (hq : q < 16) (h : q ≠ p) : (s.linkLost p).pst q = s.pst q := by
  have low : FAB_PORT_STATUS.STATE.key 0 q < hubKeys := portKey_low rfl rfl (by decide) (by decide) hq
  have event : FAB_PORT_STATUS.STATE.key 0 q ≠ FAB_EVENT.LINK_DOWN.key 0 0 := by
    simp only [Field.key, Field.addr, FAB_PORT_STATUS.STATE, FAB_EVENT.LINK_DOWN, blkBase]
    omega
  have partner : FAB_PORT_STATUS.STATE.key 0 q ≠ FAB_PORT_PARTNER.VALID.key 0 p := by
    simp only [Field.key, Field.addr, FAB_PORT_STATUS.STATE, FAB_PORT_PARTNER.VALID, blkBase]
    omega
  unfold State.linkLost
  rw [State.pst, State.fget_fabRecord _ _ _ _ _ low, State.fget_evt_ne _ event]
  refine ((State.relive_relived _).pst hq).trans ?_
  rw [State.pst_fset _ partner, State.pst_setPst_ne _ h, State.pst_onPort]

/-- Memory is. -/
theorem State.linkLost_mem (p : Nat) : (s.linkLost p).mem = s.mem :=
  (State.linkLost_keeps (within_opened _ s) s p (.refl _ s) .memory (by decide)).1.symm

/-- A link whose cable is gone goes down (R465). -/
def State.unplug (diff prsnt : Nat) (s : State) (p : Nat) : State :=
  if diff.testBit p && !prsnt.testBit p && s.linkUp p then s.linkLost p else s

/-- A step keeps what a lost link keeps. -/
theorem State.unplug_keeps {P : State → Prop} (diff prsnt p : Nat) (h : P s) (hl : P (s.linkLost p)) :
    P (State.unplug diff prsnt s p) := by
  unfold State.unplug
  split
  · exact hl
  · exact h

/-- The inputs as they changed. -/
def State.cabled (s : State) (m : Nat) : State :=
  (s.fset PKG_CABLE.PRSNT 0 0 m).evt PKG_CABLE.CHANGED 0 0 (s.fget PKG_CABLE.PRSNT 0 0 ^^^ m) none

/-- What they show. -/
theorem State.cabled_shows {m : Nat} (hm : m < 2 ^ 16) : (s.cabled m).fget PKG_CABLE.PRSNT 0 0 = m ∧
    ∀ p, p < 16 → s.fbit PKG_CABLE.PRSNT 0 0 p = true → m.testBit p = false → (s.cabled m).fbit PKG_CABLE.CHANGED 0 0 p = true := by
  unfold State.cabled
  refine ⟨?_, fun p hp h0 h1 => ?_⟩
  · rw [State.fget_evt_ne _ (by decide), State.fget_fset_same]
    exact Nat.mod_eq_of_lt hm
  · rw [State.fbit] at h0
    rw [State.fbit, State.fget_evt_same, Nat.testBit_mod_two_pow, Nat.testBit_or, Nat.testBit_xor, h0, h1]
    simp only [Bool.xor_false, Bool.or_true, Bool.and_true]
    exact decide_eq_true hp

/-- A change of presence is no port. -/
theorem State.cabled_pst (m p : Nat) : (s.cabled m).pst p = s.pst p := by
  have apart {f : Field} (hf : f.key 0 0 < fabricKeys) : FAB_PORT_STATUS.STATE.key 0 p ≠ f.key 0 0 :=
    (hf.trans_le (fabricKeys_le rfl p)).ne'
  rw [State.pst, State.cabled, State.fget_evt_ne _ (apart (by decide)), State.fget_fset_ne _ (apart (by decide)), State.pst]

/-- The links of cables that go. -/
def State.unplugged (s : State) (m : Nat) : State :=
  (List.range 16).foldl (State.unplug (s.fget PKG_CABLE.PRSNT 0 0 ^^^ m) m) (s.cabled m)

/-- CABLE_CHANGE (R465). -/
theorem exec_cableChange {s : State} {m : Nat} (hm : m < 2 ^ 16) (ha : s.boot.ao = true) :
    exec (.cableChange m) s = ok true s (s.unplugged m) := by
  have wf : decide (m < 2 ^ 16) = true := decide_eq_true hm
  change ok (decide (m < 2 ^ 16)) s (if !s.boot.ao then s else _) = _
  rw [wf, ha]
  rfl

/-- Registers below the fabric's and memory stand. -/
theorem State.unplugged_kept (m : Nat) : (∀ g : Field, g.key 0 0 < fabricKeys → g.lo < 64 →
    (s.unplugged m).fget g 0 0 = (s.cabled m).fget g 0 0) ∧ (s.unplugged m).mem = s.mem := by
  constructor
  · exact fun g hg hl => foldl_keeps_mem (fun t : State => t.fget g 0 0 = (s.cabled m).fget g 0 0) _ _
      (fun t p _ h => t.unplug_keeps (P := fun t : State => t.fget g 0 0 = (s.cabled m).fget g 0 0) _ _ p h
        ((t.fget_linkLost p hg hl).trans h)) _ rfl
  · refine foldl_keeps_mem (fun t : State => t.mem = s.mem) _ _
      (fun t p _ h => t.unplug_keeps (P := fun t : State => t.mem = s.mem) _ _ p h ((t.linkLost_mem p).trans h)) _ ?_
    simp [State.cabled]

/-- A link whose cable is gone is down. -/
theorem State.unplugged_down {m p : Nat} (hp : p < 16) (h0 : s.fbit PKG_CABLE.PRSNT 0 0 p = true) (h1 : m.testBit p = false)
    (hu : s.linkUp p = true) : (s.unplugged m).pst p = 1 := by
  have gone : (s.fget PKG_CABLE.PRSNT 0 0 ^^^ m).testBit p = true := by
    rw [State.fbit] at h0
    rw [Nat.testBit_xor, h0, h1]
    rfl
  refine foldl_once (P := fun t : State => t.pst p = s.pst p) (Q := fun t : State => t.pst p = 1) (List.mem_range.mpr hp)
    List.nodup_range ?_ ?_ ?_ (s.cabled_pst m p)
  · exact fun t q _ hq h => t.unplug_keeps (P := fun t : State => t.pst p = s.pst p) _ _ q h ((t.linkLost_ne hp hq.symm).trans h)
  · intro t h
    have up : t.linkUp p = true := by rw [State.linkUp, h]; exact hu
    rw [State.unplug, if_pos (by rw [gone, h1, up]; rfl)]
    exact (t.linkLost_shows hp).2.1
  · exact fun t q _ hq h => t.unplug_keeps (P := fun t : State => t.pst p = 1) _ _ q h ((t.linkLost_ne hp hq.symm).trans h)

end Cables

section Loss

variable (s : State)

/-- What loss of VAON leaves (R446, R454): the calendar, the fuses, the flash and the keys, and host memory. -/
theorem State.vaonLoss_leaves : s.vaonLoss.calendar = s.calendar ∧ s.vaonLoss.fuses = s.fuses ∧
    s.vaonLoss.mgmt.flash = s.mgmt.flash ∧ s.vaonLoss.mgmt.keySlots = s.mgmt.keySlots ∧ s.vaonLoss.execs = [] ∧
    s.vaonLoss.boot.ao = false ∧ s.vaonLoss.mem = s.mem.filter (fun e => decide (2 ^ 64 ≤ e.1)) ∧ s.vaonLoss.boot.vaon = false :=
  ⟨rfl, rfl, rfl, rfl, rfl, rfl, rfl, rfl⟩

/-- Host memory stays; other memory reads zero. -/
theorem Tbl.get_hostMemory (m : Tbl Byte) : (∀ k, k < 2 ^ 64 → Tbl.get 0 (m.filter (fun e => decide (2 ^ 64 ≤ e.1))) k = 0) ∧
    ∀ k, 2 ^ 64 ≤ k → Tbl.get 0 (m.filter (fun e => decide (2 ^ 64 ≤ e.1))) k = Tbl.get 0 m k := by
  refine ⟨fun k hk => ?_, fun k hk => ?_⟩
  · rw [Tbl.get_filter_key m (fun k => decide (2 ^ 64 ≤ k)), if_neg (by simpa using hk)]
  · rw [Tbl.get_filter_key m (fun k => decide (2 ^ 64 ≤ k)), if_pos (by simpa using hk)]

/-- Bring-up begins again with VAON valid (R454). -/
def State.boardAgain (s : State) : State :=
  let t := s.vaonLoss
  let u : State := ((t.withBoot { t.boot with vaon := true }).withPkg { t.pkg with perst := s.pkg.perst })
  let v := ((u.setPgs (s.fget PKG_PG.PG 0 0)).fset PKG_SEQ.EN 0 0 (s.fget PKG_SEQ.EN 0 0)).fset PKG_CABLE.PRSNT 0 0
    (s.fget PKG_CABLE.PRSNT 0 0)
  v.toPhase 1

/-- It leaves what loss of VAON leaves. -/
theorem State.boardAgain_leaves : s.boardAgain.calendar = s.calendar ∧ s.boardAgain.fuses = s.fuses ∧
    s.boardAgain.mgmt.flash = s.mgmt.flash ∧ s.boardAgain.mgmt.keySlots = s.mgmt.keySlots ∧ s.boardAgain.execs = [] ∧
    s.boardAgain.boot.ao = false ∧ s.boardAgain.mem = s.mem.filter (fun e => decide (2 ^ 64 ≤ e.1)) ∧
    s.boardAgain.boot.vaon = true ∧ s.boardAgain.phase = 1 :=
  ⟨rfl, rfl, rfl, rfl, rfl, rfl, rfl, rfl, State.toPhase_phase _ 1⟩

/-- Everything stops for an orderly power-down (R457). -/
def State.shutDown (s : State) : State :=
  let s1 := s.stopWork.tilesOff
  (s1.withHalted true).withPkg { s1.pkg with off := true }

/-- The part is halted and its tiles are off; the enables stand. -/
theorem State.shutDown_shows : s.shutDown.halted = true ∧ s.shutDown.pkg = { s.pkg with off := true } ∧
    (∀ j, j < 64 → (s.shutDown.tile j).power = .off) ∧ ∀ n, s.shutDown.enabled n = s.enabled n := by
  have stopped := State.stopWork_keeps (within_opened _ s) s (.refl _ s)
  have pkg := State.tilesOff_keeps ((within_opened _ s).mono (by decide)) _ stopped .package (by decide)
  have en : s.stopWork.tilesOff.fget PKG_SEQ.EN 0 0 = s.fget PKG_SEQ.EN 0 0 :=
    (State.LowKept.refl s).stopWork.tilesOff.fget (by decide)
  have shown : s.shutDown.pkg = { s.stopWork.tilesOff.pkg with off := true } := rfl
  have tiles : s.shutDown.tiles = s.stopWork.tilesOff.tiles := rfl
  refine ⟨rfl, ?_, fun j hj => ?_, fun n => ?_⟩
  · rw [shown, ← pkg]
  · rw [State.tile_congr _ tiles]
    exact s.stopWork.tilesOff_off hj
  · have regs : s.shutDown.regs = s.stopWork.tilesOff.regs := by
      unfold State.shutDown
      generalize s.stopWork.tilesOff = w
      rfl
    rw [State.enabled, State.fbit, State.fget_congr regs, en, State.enabled, State.fbit]

end Loss

end Sys2Proof.Machine
end

section
/-!
PROOF. Sleep of tiles and part, the rails' sequence and faults, telemetry, cables, resets and loss of VAON (R433 to R465).
-/

namespace Sys2Proof.Machine

section Sleep

variable {s : State}

/-- TILE_RETENTION of a tile that may go there (R445). -/
theorem exec_tileRetention {j : Nat} (hj : j < 64) (hg : (s.tile j).power = .gated) (hw : (s.tile j).wakeAt = none)
    (hb : s.tileBusy j = false) (ht : (s.tile j).since + 1000 * s.fget PWR_SLEEP_CTL.RET_US 0 0 ≤ s.time) :
    exec (.tileRetention j) s =
      ok true s ((s.onTile j (fun x => { x with power := .retention, since := s.time })).towerSleep (j / 4)) := by
  have wf : tileOk j = true := decide_eq_true hj
  change ok (tileOk j) s (if _ then _ else _) = _
  rw [wf, if_neg (by simp [hg, hw, hb, ht])]

/-- TILE_RETENTION otherwise. -/
theorem exec_tileRetention_none {j : Nat} (hj : j < 64) (h : (s.tile j).power ≠ .gated ∨ s.tileBusy j = true ∨
    s.time < (s.tile j).since + 1000 * s.fget PWR_SLEEP_CTL.RET_US 0 0) : exec (.tileRetention j) s = .next s := by
  have wf : tileOk j = true := decide_eq_true hj
  change ok (tileOk j) s (if _ then _ else _) = _
  rw [wf, if_pos (by obtain h | h | h := h <;> simp [h])]
  exact ok_of_pending rfl

/-- TILE_OFF of a tile that may go there (R445). -/
theorem exec_tileOff {j : Nat} (hj : j < 64) (hg : (s.tile j).power = .retention) (hw : (s.tile j).wakeAt = none)
    (hb : s.tileBusy j = false) (hm : s.fget PWR_SLEEP_CTL.OFF_MS 0 0 ≠ 0)
    (ht : (s.tile j).since + 1000000 * s.fget PWR_SLEEP_CTL.OFF_MS 0 0 ≤ s.time) :
    exec (.tileOff j) s = ok true s ((s.tileOff j).towerSleep (j / 4)) := by
  have wf : tileOk j = true := decide_eq_true hj
  change ok (tileOk j) s (if _ then _ else _) = _
  rw [wf, if_neg (by simp [hg, hw, hb, hm, ht])]

/-- TILE_OFF otherwise. -/
theorem exec_tileOff_none {j : Nat} (hj : j < 64) (h : (s.tile j).power ≠ .retention ∨ s.fget PWR_SLEEP_CTL.OFF_MS 0 0 = 0) :
    exec (.tileOff j) s = .next s := by
  have wf : tileOk j = true := decide_eq_true hj
  change ok (tileOk j) s (if _ then _ else _) = _
  rw [wf, if_pos (by obtain h | h := h <;> simp [h])]
  exact ok_of_pending rfl

/-- PART_STATE_TARGET by one who may not write it (R446). -/
theorem exec_partStateTarget_none {who : Accessor} (hw : who.wf = true) (v : Nat)
    (h : s.privileged who = false ∨ s.reaches who PWR_STATE_CTL.TARGET 0 0 = false) :
    exec (.partStateTarget who v) s = .next s := by
  change ok who.wf s (if _ then _ else _) = _
  rw [hw, if_pos (by obtain h | h := h <;> simp [h])]
  exact ok_of_pending rfl

/-- PART_STATE_TARGET by one who may. -/
theorem exec_partStateTarget {who : Accessor} (hw : who.wf = true) (v : Nat) (hp : s.privileged who = true)
    (hr : s.reaches who PWR_STATE_CTL.TARGET 0 0 = true) : exec (.partStateTarget who v) s = ok true s
      (if v % 4 = 0 ∨ v % 4 = 3 then (s.fset PWR_STATE_CTL.AUTO_IDLE_MS 0 0 (v / 4)).toRun
       else if !s.mayIdle then (s.fset PWR_STATE_CTL.AUTO_IDLE_MS 0 0 (v / 4)).fset PWR_STATE_STATUS.REFUSED 0 0 1
       else (s.fset PWR_STATE_CTL.AUTO_IDLE_MS 0 0 (v / 4)).enterState (v % 4)) := by
  change ok who.wf s (if _ then _ else _) = _
  rw [hw, if_neg (by simp [hp, hr])]

/-- AUTO_IDLE (R446). -/
theorem exec_autoIdle : exec .autoIdle s = ok true s
    (let ms := s.fget PWR_STATE_CTL.AUTO_IDLE_MS 0 0
     if ms == 0 || !s.mayIdle || s.fget PWR_STATE_STATUS.STATE 0 0 != 0 then s
     else match s.power.idleSince with
       | some t => if s.time ≥ t + 1000000 * ms then s.enterState 1 else s
       | none => s) := rfl

/-- PART_STATE_ENTERED without an entry. -/
theorem exec_partStateEntered_none (h : s.power.entering = none) : exec .partStateEntered s = .next s := by
  change execPartStateEntered s = _
  rw [execPartStateEntered, h]
  exact ok_of_pending rfl

/-- PART_STATE_ENTERED of an entry that no longer may (R446). -/
theorem exec_partStateEntered_abandoned {v : Nat} (h : s.power.entering = some v) (hm : s.mayIdle = false) :
    exec .partStateEntered s = ok true s s.entryOver := by
  change execPartStateEntered s = _
  rw [execPartStateEntered, h]
  dsimp only
  rw [hm]
  rfl

/-- PART_STATE_ENTERED of an entry that completes. -/
theorem exec_partStateEntered {v : Nat} (h : s.power.entering = some v) (hm : s.mayIdle = true) :
    exec .partStateEntered s =
      ok true s ((if v = 2 then (s.idled v).portsDown else s.idled v).evt PWR_EVENT.STATE_CHANGE 0 0 1 none) := by
  change execPartStateEntered s = _
  rw [execPartStateEntered, h]
  dsimp only
  rw [hm]
  rfl

/-- What a completed entry shows. -/
theorem State.entered_shows (s : State) {v : Nat} (hv : v < 4) {t : State}
    (ht : t = (if v = 2 then (s.idled v).portsDown else s.idled v).evt PWR_EVENT.STATE_CHANGE 0 0 1 none) :
    t.power.entering = none ∧ t.fget PWR_STATE_STATUS.ENTERING 0 0 = 0 ∧ t.mem = s.mem ∧ t.fget PWR_STATE_STATUS.STATE 0 0 = v ∧
    t.fget PWR_EVENT.STATE_CHANGE 0 0 = 1 ∧ (∀ j, j < 64 → (t.tile j).power = .off) ∧ (v = 2 → ∀ p, p < 16 → t.pst p = 0) := by
  obtain ⟨entering, state⟩ := s.idled_shows v
  rw [Nat.mod_eq_of_lt hv] at state
  obtain ⟨off, mem, none⟩ := s.idled_rest v
  have told (u : State) (he : u.power.entering = Option.none) (h1 : u.fget PWR_STATE_STATUS.ENTERING 0 0 = 0) (hm : u.mem = s.mem)
      (hs : u.fget PWR_STATE_STATUS.STATE 0 0 = v) (ho : ∀ j, j < 64 → (u.tile j).power = .off) (w : State)
      (hw : w = u.evt PWR_EVENT.STATE_CHANGE 0 0 1 Option.none) : w.power.entering = Option.none ∧
      w.fget PWR_STATE_STATUS.ENTERING 0 0 = 0 ∧ w.mem = s.mem ∧ w.fget PWR_STATE_STATUS.STATE 0 0 = v ∧
      w.fget PWR_EVENT.STATE_CHANGE 0 0 = 1 ∧ ∀ j, j < 64 → (w.tile j).power = .off := by
    subst hw
    refine ⟨by simpa using he, (State.fget_evt_ne _ (by decide)).trans h1, by simpa using hm,
      (State.fget_evt_ne _ (by decide)).trans hs, State.fget_evt_one _ rfl _ _ _, fun j hj => ?_⟩
    rw [State.tile_congr u (by simp)]
    exact ho j hj
  split at ht
  · next h2 =>
    obtain ⟨mem', tiles, power⟩ := (s.idled v).portsDown_frame
    obtain ⟨a, b, c, d, e, f⟩ := told _ ((congrArg Power.entering power).trans none)
      (((s.idled v).fget_portsDown (by decide) (by decide)).trans entering) (mem'.trans mem)
      (((s.idled v).fget_portsDown (by decide) (by decide)).trans state)
      (fun j hj => (congrArg Tile.power (State.tile_congr _ tiles j)).trans (off j hj)) t ht
    refine ⟨a, b, c, d, e, f, fun _ p hp => ?_⟩
    subst ht
    refine (State.fget_evt_ne _ ?_).trans ((s.idled v).portsDown_pst hp)
    exact ((show PWR_EVENT.STATE_CHANGE.key 0 0 < fabricKeys by decide).trans_le (fabricKeys_le rfl p)).ne'
  · next h2 =>
    obtain ⟨a, b, c, d, e, f⟩ := told _ none entering mem state off t ht
    exact ⟨a, b, c, d, e, f, fun h => absurd h h2⟩

/-- PART_WAKE of a part in Run. -/
theorem exec_partWake_none (h : s.fget PWR_STATE_STATUS.STATE 0 0 = 0) (he : s.power.entering = none) :
    exec .partWake s = .next s := by
  change ok true s (if _ then _ else _) = _
  rw [if_pos ⟨h, he⟩]
  exact ok_of_pending rfl

/-- PART_WAKE of another (R446). -/
theorem exec_partWake (h : s.fget PWR_STATE_STATUS.STATE 0 0 ≠ 0) : exec .partWake s = ok true s s.toRun := by
  change ok true s (if _ then _ else _) = _
  rw [if_neg (fun c => h c.1)]

end Sleep

section Board

variable {s : State}

/-- POWER_FAULT of rails whose loss is no fault (R433). -/
theorem exec_powerFault_none {m : Nat} (hm : m < 2 ^ 29) (h : s.faultRails m = []) :
    exec (.powerFault m) s = .next (s.setPgs (s.pgsWithout m)) := by
  have wf : decide (m < 2 ^ 29) = true := decide_eq_true hm
  change ok (decide (m < 2 ^ 29)) s _ = _
  rw [wf, h]
  exact ok_of_pending rfl

/-- POWER_FAULT of others (R433, R459). -/
theorem exec_powerFault {m r : Nat} {rs : List Nat} (hm : m < 2 ^ 29) (h : s.faultRails m = r :: rs) :
    exec (.powerFault m) s = ok true s ((((s.setPgs (s.pgsWithout m)).railFault r).powerDown
      ((rs.map railStage).foldl min (railStage r))).hostsGone ((rs.map railStage).foldl min (railStage r))) := by
  have wf : decide (m < 2 ^ 29) = true := decide_eq_true hm
  change ok (decide (m < 2 ^ 29)) s _ = _
  rw [wf, h]
  rfl

/-- What a fault shows (R433). -/
theorem State.fault_shows (s : State) {m r low : Nat} {rs : List Nat} (h : s.faultRails m = r :: rs) {t : State}
    (ht : t = (((s.setPgs (s.pgsWithout m)).railFault r).powerDown low).hostsGone low) : t.fget PKG_SEQ.FAULT 0 0 = 1 ∧
      t.fget PKG_SEQ.FAULT_RAIL 0 0 = r ∧ t.phase = 15 ∧ t.fget BOOT_STATUS.CAUSE 0 0 = 1 ∧
      t.fget PWR_TRIP.CAUSE 0 0 = 4 ∧ t.fget PWR_TRIP.LATCHED 0 0 = 1 ∧ t.halted = true ∧
      ∀ q, q < 29 → m.testBit q = true → t.fbit PKG_PG.PG 0 0 q = false := by
  have rail : r < 29 := by
    have mem : r ∈ s.faultRails m := by rw [h]; exact List.mem_cons_self
    exact List.mem_range.mp (List.mem_of_mem_filter mem)
  obtain ⟨fault, frail, phase, cause, trip, latched, halted, pg⟩ := (s.setPgs (s.pgsWithout m)).railFault_shows rail
  obtain ⟨gone, stays⟩ := (((s.setPgs (s.pgsWithout m)).railFault r).powerDown low).hostsGone_shows low
  have kept {g : Field} (hg : g.key 0 0 ≠ PKG_SEQ.EN.key 0 0) :
      t.fget g 0 0 = ((s.setPgs (s.pgsWithout m)).railFault r).fget g 0 0 := by
    rw [ht, gone, State.fget_powerDown _ _ hg]
  refine ⟨(kept (by decide)).trans fault, (kept (by decide)).trans frail, (kept (by decide)).trans phase,
    (kept (by decide)).trans cause, (kept (by decide)).trans trip, (kept (by decide)).trans latched, ?_, fun q hq hb => ?_⟩
  · rw [ht, stays, State.powerDown_halted, halted]
  · rw [State.fbit, kept (by decide), pg, State.setPgs, State.fget_fset_ne _ (by decide), State.fget_fset_same,
      Nat.testBit_mod_two_pow, s.pgsWithout_testBit hq hb, Bool.and_false]

section Rails

variable {r g x : Nat} (hr : r < 28) (ha : railAvs r = some (g, x)) (hm : s.boot.mgmtUp = true)
include hr ha hm

/-- POWER_TELEMETRY of a rail whose segment is in service (R460). -/
theorem exec_powerTelemetry (mv da dw c n : Nat) (hb : s.pkg.segBad.testBit g = false) (he : s.enabled (railStage r) = true) :
    exec (.powerTelemetry r mv da dw c n) s = ok true s (s.avs g x n (fun t => t.railRead g r mv da dw c)) := by
  have wf : decide (r < 28) = true := decide_eq_true hr
  change execPowerTelemetry r mv da dw c n s = _
  rw [execPowerTelemetry, wf, ha]
  dsimp only
  rw [if_neg (by simp [hm, hb, he])]
  rfl

omit hm in
/-- POWER_TELEMETRY of one whose segment has failed. -/
theorem exec_powerTelemetry_none (mv da dw c n : Nat) (hb : s.pkg.segBad.testBit g = true) :
    exec (.powerTelemetry r mv da dw c n) s = .next s := by
  have wf : decide (r < 28) = true := decide_eq_true hr
  change execPowerTelemetry r mv da dw c n s = _
  rw [execPowerTelemetry, wf, ha]
  dsimp only
  rw [if_pos (by simp [hb])]
  exact ok_of_pending rfl

omit hr in
/-- AVS_STATUS_POLL of a failed segment (R461). -/
theorem exec_avsStatusPoll (n : Nat) (hb : s.pkg.segBad.testBit g = true) :
    exec (.avsStatusPoll g x n) s = ok true s (s.avs g x n (fun t => t.segGood g)) := by
  have wf : decide (g < 4) = true := decide_eq_true (railAvs_segment ha)
  change ok (decide (g < 4)) s (if _ then _ else _) = _
  rw [wf, if_neg (by simp [hm, hb])]

omit hr hm in
/-- AVS_STATUS_POLL of one in service. -/
theorem exec_avsStatusPoll_none (n : Nat) (hb : s.pkg.segBad.testBit g = false) : exec (.avsStatusPoll g x n) s = .next s := by
  have wf : decide (g < 4) = true := decide_eq_true (railAvs_segment ha)
  change ok (decide (g < 4)) s (if _ then _ else _) = _
  rw [wf, if_pos (by simp [hb])]
  exact ok_of_pending rfl

omit hr hm in
/-- A segment whose four attempts fail is marked (R461). -/
theorem State.avs_bad_shows (s : State) {n : Nat} (hn : 4 ≤ n) (f : State → State) :
    (s.avs g x n f).pkg.segBad.testBit g = true ∧ (s.avs g x n f).fbit PKG_AVS_STATUS.SEG_OK 0 0 g = false ∧
    (s.avs g x n f).fbit PKG_AVS_STATUS.SEG_FAIL 0 0 g = true ∧
    (r < 28 → (s.avs g x n f).fget PKG_RAIL.V_MV 0 r = s.fget PKG_RAIL.V_MV 0 r) := by
  obtain ⟨bad, ok, fail⟩ := (s.fcountN PKG_AVS_STATUS.RETRIES 0 0 (min n 3)).segLost_shows (railAvs_segment ha)
  have rail := s.segLost_rail g (min n 3) r
  rw [s.avs_bad hn f]
  generalize (s.fcountN PKG_AVS_STATUS.RETRIES 0 0 (min n 3)).segLost g = u at bad ok fail rail
  have kept {h : Field} {i : Nat} (hg : h.key 0 i < hubKeys) : (u.powerRec 0x73 4 0 g x).fget h 0 i = u.fget h 0 i :=
    State.LowKept.fget ((spared_lowKept u).record (.refl u) ..) hg
  have pkg := State.powerRec_keeps (within_opened _ u) u 0x73 4 0 g x (.refl _ u) .package (by decide)
  refine ⟨?_, ?_, ?_, fun hr => ?_⟩
  · rw [← pkg]
    exact bad
  · rw [State.fbit, kept (by decide)]
    exact ok
  · rw [State.fbit, kept (by decide)]
    exact fail
  · refine (kept ?_).trans rail
    simp only [Field.key, Field.addr, PKG_RAIL.V_MV, blkBase, hubKeys]
    omega

end Rails

/-- Without VAON the sequencer, a reset and a power-down do nothing. -/
theorem exec_board_none {m : Nat} (hm : m < 2 ^ 29) (hv : s.boot.vaon = false) : exec (.sequenceStage m) s = .next s ∧
    exec .boardReset s = .next s ∧ exec .powerDown s = .next s ∧ exec .vaonLoss s = .next s := by
  have wf : decide (m < 2 ^ 29) = true := decide_eq_true hm
  refine ⟨?_, ?_, ?_, ?_⟩
  · change ok (decide (m < 2 ^ 29)) s (if _ then _ else _) = _
    rw [wf, if_pos (by simp [hv])]
    exact ok_of_pending rfl
  · change ok true s (if _ then _ else _) = _
    rw [if_pos (by simp [hv])]
    exact ok_of_pending rfl
  · change ok true s (if _ then _ else _) = _
    rw [if_pos (by simp [hv])]
    exact ok_of_pending rfl
  · change ok true s (if _ then _ else _) = _
    rw [if_neg (by simp [hv])]
    exact ok_of_pending rfl

section Stage

variable {m : Nat} (hm : m < 2 ^ 29) (hv : s.boot.vaon = true)
include hm hv

/-- SEQUENCE_STAGE while enables fall (R457). -/
theorem exec_sequenceStage_falls {low u : Nat} (h : s.pkg.down = some (low, u)) (ht : u + 1000000 ≤ s.time) :
    exec (.sequenceStage m) s = .next ((s.setPgs m).dropEnable low) := by
  have wf : decide (m < 2 ^ 29) = true := decide_eq_true hm
  have down : (s.setPgs m).pkg.down = some (low, u) := h
  change execSequenceStage m s = _
  rw [execSequenceStage, wf, hv]
  dsimp only
  rw [down, if_neg (by decide)]
  dsimp only
  rw [if_pos ht]
  obtain ⟨r, k, e, -⟩ := (s.setPgs m).dropEnable_frame low
  exact ok_of_pending (by rw [e]; rfl)

/-- SEQUENCE_STAGE before the next falls. -/
theorem exec_sequenceStage_waits {low u : Nat} (h : s.pkg.down = some (low, u)) (ht : s.time < u + 1000000) :
    exec (.sequenceStage m) s = .next (s.setPgs m) := by
  have wf : decide (m < 2 ^ 29) = true := decide_eq_true hm
  have down : (s.setPgs m).pkg.down = some (low, u) := h
  change execSequenceStage m s = _
  rw [execSequenceStage, wf, hv]
  dsimp only
  rw [down, if_neg (by decide)]
  dsimp only
  rw [if_neg (Nat.not_le.mpr ht)]
  exact ok_of_pending rfl

variable {n : Nat} (hd : s.pkg.down = none) (hn : (s.setPgs m).nextStage = some n) (hr : (s.setPgs m).stageReady n = true)
  (h2 : 2 ≤ n)
include hd hn hr h2

/-- SEQUENCE_STAGE when the stage before is complete (R456). -/
theorem exec_sequenceStage : exec (.sequenceStage m) s = ok true s
    (if s.time ≥ s.pkg.readyAt.getD s.time + 1000000 then
       (((s.setPgs m).fbitSet PKG_SEQ.EN 0 0 (n - 1) true).withPkg
         { ((s.setPgs m).fbitSet PKG_SEQ.EN 0 0 (n - 1) true).pkg with enAt := s.time, readyAt := none })
     else ((s.setPgs m).withPkg { (s.setPgs m).pkg with readyAt := some (s.pkg.readyAt.getD s.time) })) := by
  have wf : decide (m < 2 ^ 29) = true := decide_eq_true hm
  have down : (s.setPgs m).pkg.down = none := hd
  change execSequenceStage m s = _
  rw [execSequenceStage, wf, hv]
  dsimp only
  rw [down, if_neg (by decide)]
  dsimp only
  rw [hn]
  dsimp only
  rw [hr, if_neg (by decide), if_neg (by omega : ¬ n = 1)]
  rfl

end Stage

/-- PG_TIMEOUT (R456). -/
theorem exec_pgTimeout {r : Nat} (hr : r < 29) (h0 : railStage r ≠ 0) (he : s.enabled (railStage r) = true)
    (hl : railStage r = 4 ∨ s.enabled (railStage r + 1) = false) (hp : s.fbit PKG_PG.PG 0 0 r = false)
    (ht : s.pkg.enAt + 10000000 ≤ s.time) (h15 : s.phase ≠ 15) (hn : s.isReady = false) :
    exec (.pgTimeout r) s = ok true s (s.enterHold 0x01) := by
  have wf : decide (r < 29) = true := decide_eq_true hr
  change ok (decide (r < 29)) s (if _ then _ else _) = _
  have next : (s.enabled (railStage r + 1) && railStage r != 4) = false := by obtain h | h := hl <;> simp [h]
  rw [wf, next, if_neg (by simp [h0, he, hp, ht, h15, hn])]

/-- PG_TIMEOUT of a rail that is good, or too early. -/
theorem exec_pgTimeout_none {r : Nat} (hr : r < 29) (h : s.fbit PKG_PG.PG 0 0 r = true ∨ s.time < s.pkg.enAt + 10000000) :
    exec (.pgTimeout r) s = .next s := by
  have wf : decide (r < 29) = true := decide_eq_true hr
  change ok (decide (r < 29)) s (if _ then _ else _) = _
  rw [wf, if_pos (by obtain h | h := h <;> simp [h])]
  exact ok_of_pending rfl

/-- CABLE_CHANGE before the always-on domain runs. -/
theorem exec_cableChange_none {m : Nat} (hm : m < 2 ^ 16) (ha : s.boot.ao = false) : exec (.cableChange m) s = .next s := by
  have wf : decide (m < 2 ^ 16) = true := decide_eq_true hm
  change ok (decide (m < 2 ^ 16)) s (if !s.boot.ao then s else _) = _
  rw [wf, if_pos (by simp [ha])]
  exact ok_of_pending rfl

section Vaon

variable (hv : s.boot.vaon = true)
include hv

/-- POWER_DOWN (R457). -/
theorem exec_powerDown : exec .powerDown s = ok true s (s.shutDown.powerDown 1) := by
  change ok true s (if _ then _ else _) = _
  rw [if_neg (by simp [hv])]
  rfl

/-- BOARD_RESET (R454). -/
theorem exec_boardReset : exec .boardReset s = ok true s (s.boardAgain.powerDown 1) := by
  change ok true s (if _ then _ else _) = _
  rw [if_neg (by simp [hv])]
  rfl

/-- VAON_LOSS (R446). -/
theorem exec_vaonLoss : exec .vaonLoss s = ok true s s.vaonLoss := by
  change ok true s (if _ then _ else _) = _
  rw [if_pos hv]

end Vaon

/-- The first enable to fall falls at once. -/
theorem State.powerDown_first (h : s.pkg.down = none) : s.powerDown 1 = s.dropEnable 1 := by
  rw [State.powerDown, h]
  rfl

/-- What an orderly power-down shows (R457). -/
theorem State.shutDown_powerDown (s : State) {t : State} (ht : t = s.shutDown.powerDown 1) : t.halted = true ∧ t.pkg.off = true ∧
    (∀ j, j < 64 → (t.tile j).power = .off) ∧ ∀ n, 1 ≤ n → n ≤ 4 → s.pkg.down = none → s.enabled n = true →
      (∀ k, n < k → k ≤ 4 → s.enabled k = false) → t.enabled n = false := by
  obtain ⟨halted, pkg, off, en⟩ := s.shutDown_shows
  subst ht
  generalize s.shutDown = w at *
  obtain ⟨r, k, e, -, koff⟩ := w.powerDown_frame 1
  have tiles : (w.powerDown 1).tiles = w.tiles := by rw [e]; rfl
  refine ⟨(State.powerDown_halted _ _).trans halted, ?_, fun j hj => ?_, fun n h1 h4 hd hn hi => ?_⟩
  · have shown : (w.powerDown 1).pkg = k := by rw [e]; rfl
    rw [shown, koff, pkg]
  · rw [State.tile_congr _ tiles]
    exact off j hj
  · have down : w.pkg.down = none := by rw [pkg]; exact hd
    rw [State.powerDown_first down]
    exact State.dropEnable_highest h1 h4 ((en n).trans hn) (fun k hk hk4 => (en k).trans (hi k hk hk4))

end Board

/-- Settles O55: each command's case, and what that case shows. -/
theorem sleepStatesRailsAndVaonAct : Obligations.SleepStatesRailsAndVaonAct := by
  unfold Obligations.SleepStatesRailsAndVaonAct
  refine ⟨fun s p hp => ?_, fun s j hj => ⟨fun hg hw hb ht => ?_, exec_tileRetention_none hj, fun hg hw hb hm ht => ?_,
    exec_tileOff_none hj⟩, fun s who v hw => ⟨exec_partStateTarget_none hw v, fun hp hr => ?_⟩, fun s => ⟨fun u ha hm h0 hi =>
    ⟨fun ht => ?_, fun ht => ?_⟩, fun ha => ?_, exec_partStateEntered_none, fun v hv he => ?_, exec_partWake_none, fun h => ?_⟩,
    fun s m hm => ⟨exec_powerFault_none hm, fun r rs h => ?_⟩, fun s r mv da dw c g x n hr ha hm => ⟨fun hb he => ⟨fun hn => ?_,
    fun hn => ?_⟩, fun hb => ⟨exec_powerTelemetry_none hr ha mv da dw c n hb, fun hn => ?_⟩, exec_avsStatusPoll_none ha n⟩,
    fun s m hm => ⟨exec_board_none hm, fun hv => ⟨fun low u h => ⟨exec_sequenceStage_falls hm hv h, exec_sequenceStage_waits hm hv h⟩,
    fun n hd hn hr h2 => ⟨fun ha => ?_, fun u ha ht => ?_⟩⟩⟩, fun s r hr => ⟨fun h0 he hl hp ht h15 hn => ?_, exec_pgTimeout_none hr⟩,
    fun s m hm => ⟨exec_cableChange_none hm, fun ha => ?_⟩, fun s hv => ⟨?_, ?_⟩⟩
  · exact answers_with (P := fun t => t.mem = s.mem ∧ ∀ j,
      (∀ w, j ∈ s.partTiles p → (s.tile j).wakeAt = some w → w ≤ s.time →
        t.tile j = { s.tile j with power := .run, since := s.time, wakeAt := none } ∧
        s.clockVoltage (j / 4) ≤ t.fget PWR_TOWER_CLK.VT_MV 0 (j / 4)) ∧
      (j ∉ s.partTiles p ∨ (s.tile j).wakeAt = none ∨ (∃ w, (s.tile j).wakeAt = some w ∧ s.time < w) → t.tile j = s.tile j))
      ⟨s.wakes_mem p, fun j => ⟨fun w hj h hw => s.wakes hj h hw, s.wakes_not⟩⟩ (fun _ _ h => h) (exec_tileWake hp)
  · exact answers_with (P := fun t => t.tile j = { s.tile j with power := .retention, since := s.time } ∧
        ∀ i, i ≠ j → t.tile i = s.tile i)
      ⟨(State.tile_congr _ (State.towerSleep_tiles ..) j).trans (s.tile_onTile j _),
        fun i hi => (State.tile_congr _ (State.towerSleep_tiles ..) i).trans (s.tile_onTile_ne hi _)⟩
      (fun _ _ h => h) (exec_tileRetention hj hg hw hb ht)
  · obtain ⟨off, arrays, others⟩ := s.tileOff_shows j
    exact answers_with (P := fun t => (t.tile j).power = .off ∧ (∀ a, a < 4 → Tbl.get {} t.arrs (4 * j + a) = ({} : Arr)) ∧
        ∀ i, i ≠ j → t.tile i = s.tile i)
      ⟨(congrArg Tile.power (State.tile_congr _ (State.towerSleep_tiles ..) j)).trans off,
        fun a ha => by rw [State.towerSleep_arrs]; exact arrays a ha,
        fun i hi => (State.tile_congr _ (State.towerSleep_tiles ..) i).trans (others i hi)⟩
      (fun _ _ h => h) (exec_tileOff hj hg hw hb hm ht)
  · refine answers_with (P := fun t => t.fget PWR_STATE_CTL.AUTO_IDLE_MS 0 0 = v / 4 % 65536 ∧ t.mem = s.mem ∧
      (v % 4 = 0 ∨ v % 4 = 3 → t.fget PWR_STATE_STATUS.STATE 0 0 = 0 ∧ t.power.entering = none) ∧
      (v % 4 = 1 ∨ v % 4 = 2 → t.fget PWR_STATE_STATUS.STATE 0 0 = s.fget PWR_STATE_STATUS.STATE 0 0 ∧
        (s.mayIdle = false → t.fget PWR_STATE_STATUS.REFUSED 0 0 = 1 ∧ t.power = s.power) ∧
        (s.mayIdle = true → s.fget PWR_STATE_STATUS.STATE 0 0 ≠ v % 4 → t.power.entering = some (v % 4) ∧
          t.fget PWR_STATE_STATUS.ENTERING 0 0 = 1))) ?_ (fun _ _ h => h) (exec_partStateTarget hw v hp hr)
    have auto : (s.fset PWR_STATE_CTL.AUTO_IDLE_MS 0 0 (v / 4)).fget PWR_STATE_CTL.AUTO_IDLE_MS 0 0 = v / 4 % 65536 :=
      State.fget_fset_same ..
    have state : (s.fset PWR_STATE_CTL.AUTO_IDLE_MS 0 0 (v / 4)).fget PWR_STATE_STATUS.STATE 0 0 =
      s.fget PWR_STATE_STATUS.STATE 0 0 := State.fget_fset_ne _ (by decide)
    split
    · next run =>
      obtain ⟨inRun, entering, mem, kept⟩ := (s.fset PWR_STATE_CTL.AUTO_IDLE_MS 0 0 (v / 4)).toRun_shows
      exact ⟨kept.trans auto, mem, fun _ => ⟨inRun, entering⟩, fun h => by omega⟩
    · next run =>
      split
      · next may =>
        refine ⟨(State.fget_fset_ne _ (by decide)).trans auto, rfl, fun h => absurd h run, fun _ =>
          ⟨(State.fget_fset_ne _ (by decide)).trans state, fun _ => ⟨State.fget_fset_same .., rfl⟩, fun h => ?_⟩⟩
        simp [h] at may
      · next may =>
        obtain ⟨mem, stays, kept⟩ := (s.fset PWR_STATE_CTL.AUTO_IDLE_MS 0 0 (v / 4)).enterState_kept (v % 4)
        refine ⟨kept.trans auto, mem, fun h => absurd h run, fun _ => ⟨stays.trans state, fun h => ?_, fun _ hs => ?_⟩⟩
        · simp [h] at may
        · exact State.enterState_shows _ (by rwa [state])
  · refine answers_with (P := fun t => t.power.entering = some 1 ∧ t.fget PWR_STATE_STATUS.ENTERING 0 0 = 1 ∧ t.mem = s.mem) ?_
      (fun _ _ h => h) exec_autoIdle
    dsimp only
    rw [if_neg (by simp [ha, hm, h0]), hi]
    dsimp only
    rw [if_pos ht]
    obtain ⟨entering, shown⟩ := s.enterState_shows (v := 1) (by omega)
    exact ⟨entering, shown, (s.enterState_kept 1).1⟩
  · rw [exec_autoIdle]
    dsimp only
    rw [if_neg (by simp [ha, hm, h0]), hi]
    dsimp only
    rw [if_neg (Nat.not_le.mpr ht)]
    exact ok_of_pending rfl
  · rw [exec_autoIdle]
    dsimp only
    rw [if_pos (by simp [ha])]
    exact ok_of_pending rfl
  · cases may : s.mayIdle
    · exact answers_with (P := fun t => t.power.entering = none ∧ t.fget PWR_STATE_STATUS.ENTERING 0 0 = 0 ∧ t.mem = s.mem ∧
        (false = true → t.fget PWR_STATE_STATUS.STATE 0 0 = v ∧ t.fget PWR_EVENT.STATE_CHANGE 0 0 = 1 ∧
          (∀ j, j < 64 → (t.tile j).power = .off) ∧ (v = 2 → ∀ p, p < 16 → t.pst p = 0)) ∧
        (false = false → t.fget PWR_STATE_STATUS.STATE 0 0 = s.fget PWR_STATE_STATUS.STATE 0 0 ∧ t.tiles = s.tiles))
        (u := s.entryOver) ⟨rfl, (State.fget_onPower ..).trans (State.fget_fset_same ..), rfl, fun h => (nomatch h),
          fun _ => ⟨(State.fget_onPower ..).trans (State.fget_fset_ne _ (by decide)), rfl⟩⟩ (fun _ _ h => h)
        (exec_partStateEntered_abandoned he may)
    · obtain ⟨entering, ended, mem, state, changed, off, down⟩ := s.entered_shows hv rfl
      exact answers_with (P := fun t => t.power.entering = none ∧ t.fget PWR_STATE_STATUS.ENTERING 0 0 = 0 ∧ t.mem = s.mem ∧
        (true = true → t.fget PWR_STATE_STATUS.STATE 0 0 = v ∧ t.fget PWR_EVENT.STATE_CHANGE 0 0 = 1 ∧
          (∀ j, j < 64 → (t.tile j).power = .off) ∧ (v = 2 → ∀ p, p < 16 → t.pst p = 0)) ∧
        (true = false → t.fget PWR_STATE_STATUS.STATE 0 0 = s.fget PWR_STATE_STATUS.STATE 0 0 ∧ t.tiles = s.tiles))
        ⟨entering, ended, mem, fun _ => ⟨state, changed, off, down⟩, fun h => (nomatch h)⟩ (fun _ _ h => h)
        (exec_partStateEntered he may)
  · obtain ⟨state, entering, -, -⟩ := s.toRun_shows
    obtain ⟨changed, ports⟩ := State.toRun_changed h
    exact answers_with (P := fun t => t.fget PWR_STATE_STATUS.STATE 0 0 = 0 ∧ t.power.entering = none ∧
        t.fget PWR_EVENT.STATE_CHANGE 0 0 = 1 ∧ (s.fget PWR_STATE_STATUS.STATE 0 0 = 2 → ∀ p, p < 16 →
          s.fget FAB_PORT_CTL.EN 0 p = 1 → s.pst p = 0 → t.pst p = 1))
      ⟨state, entering, changed, ports⟩ (fun _ _ h => h) (exec_partWake h)
  · exact answers_with (P := fun t => t.fget PKG_SEQ.FAULT 0 0 = 1 ∧ t.fget PKG_SEQ.FAULT_RAIL 0 0 = r ∧ t.phase = 15 ∧
        t.fget BOOT_STATUS.CAUSE 0 0 = 1 ∧ t.fget PWR_TRIP.CAUSE 0 0 = 4 ∧ t.fget PWR_TRIP.LATCHED 0 0 = 1 ∧ t.halted = true ∧
        ∀ q, q < 29 → m.testBit q = true → t.fbit PKG_PG.PG 0 0 q = false)
      (s.fault_shows h rfl) (fun _ _ h => h) (exec_powerFault hm h)
  · refine answers_with (P := fun t => t.fget PKG_RAIL.V_MV 0 r = mv % 4096 ∧ t.fget PKG_RAIL.I_DA 0 r = da % 65536 ∧
        t.fget PKG_RAIL.P_DW 0 r = dw % 65536 ∧ t.fget PKG_RAIL.VR_TEMP 0 r = c % 256 ∧ t.mem = s.mem) ?_ (fun _ _ h => h)
      (exec_powerTelemetry hr ha hm mv da dw c n hb he)
    rw [s.avs_good hn]
    exact State.railRead_shows _ g r mv da dw c
  · obtain ⟨bad, ok, fail, rail⟩ := s.avs_bad_shows (r := r) ha hn (fun t => t.railRead g r mv da dw c)
    exact answers_with (P := fun t => t.pkg.segBad.testBit g = true ∧ t.fbit PKG_AVS_STATUS.SEG_OK 0 0 g = false ∧
        t.fbit PKG_AVS_STATUS.SEG_FAIL 0 0 g = true ∧ t.fget PKG_RAIL.V_MV 0 r = s.fget PKG_RAIL.V_MV 0 r)
      ⟨bad, ok, fail, rail hr⟩ (fun _ _ h => h) (exec_powerTelemetry hr ha hm mv da dw c n hb he)
  · refine answers_with (P := fun t => t.pkg.segBad.testBit g = false ∧ t.fbit PKG_AVS_STATUS.SEG_OK 0 0 g = true) ?_
      (fun _ _ h => h) (exec_avsStatusPoll ha hm n hb)
    rw [s.avs_good hn]
    exact State.segGood_shows _ (railAvs_segment ha)
  · obtain ⟨h1, h4, off⟩ := State.nextStage_off hn
    refine answers_with (P := fun t => t.pkg.readyAt = some s.time ∧ t.enabled n = false ∧ t.fget PKG_PG.PG 0 0 = m) ?_
      (fun _ _ h => h) (exec_sequenceStage hm hv hd hn hr h2)
    rw [ha, Option.getD_none, if_neg (by omega)]
    exact ⟨rfl, off, s.setPgs_pg hm⟩
  · obtain ⟨h1, h4, -⟩ := State.nextStage_off hn
    refine answers_with (P := fun t => t.enabled n = true ∧ t.pkg.enAt = s.time ∧ t.fget PKG_PG.PG 0 0 = m) ?_
      (fun _ _ h => h) (exec_sequenceStage hm hv hd hn hr h2)
    rw [ha, Option.getD_some, if_pos ht]
    exact ⟨State.enabled_raised h1 h4, rfl, (State.fget_withPkg ..).trans ((State.fget_fset_ne _ (by decide)).trans (s.setPgs_pg hm))⟩
  · exact holds_with (by decide) (exec_pgTimeout hr h0 he hl hp ht h15 hn)
  · obtain ⟨kept, mem⟩ := s.unplugged_kept m
    obtain ⟨present, changed⟩ := s.cabled_shows hm
    exact answers_with (P := fun t => t.fget PKG_CABLE.PRSNT 0 0 = m ∧ t.mem = s.mem ∧
        ∀ p, p < 16 → s.fbit PKG_CABLE.PRSNT 0 0 p = true → m.testBit p = false →
          t.fbit PKG_CABLE.CHANGED 0 0 p = true ∧ (s.linkUp p = true → t.pst p = 1))
      ⟨(kept _ (by decide) (by decide)).trans present, mem, fun p hp h0 h1 =>
        ⟨(congrArg (Nat.testBit · p) (kept PKG_CABLE.CHANGED (by decide) (by decide))).trans (changed p hp h0 h1),
          s.unplugged_down hp h0 h1⟩⟩ (fun _ _ h => h) (exec_cableChange hm ha)
  · exact answers_with (P := fun t => t.halted = true ∧ t.pkg.off = true ∧ (∀ j, j < 64 → (t.tile j).power = .off) ∧
        ∀ n, 1 ≤ n → n ≤ 4 → s.pkg.down = none → s.enabled n = true →
          (∀ k, n < k → k ≤ 4 → s.enabled k = false) → t.enabled n = false)
      (s.shutDown_powerDown rfl) (fun _ _ h => h) (exec_powerDown hv)
  · obtain ⟨lost, host⟩ := Tbl.get_hostMemory s.mem
    intro c hc
    simp only [List.mem_cons, List.not_mem_nil, or_false] at hc
    obtain rfl | rfl := hc
    · obtain ⟨r, k, e, kept, -⟩ := s.boardAgain.powerDown_frame 1
      obtain ⟨calendar, fuses, flash, keys, execs, ao, mem, vaon, phase⟩ := s.boardAgain_leaves
      have phase' : (s.boardAgain.powerDown 1).phase = 1 := (kept _ 0 0 (by decide)).trans phase
      refine answers_with (P := fun t => t.calendar = s.calendar ∧ t.fuses = s.fuses ∧ t.mgmt.flash = s.mgmt.flash ∧
        t.mgmt.keySlots = s.mgmt.keySlots ∧ t.execs = [] ∧ t.boot.ao = false ∧ (∀ k, k < 2 ^ 64 → Tbl.get 0 t.mem k = 0) ∧
        (∀ k, 2 ^ 64 ≤ k → Tbl.get 0 t.mem k = Tbl.get 0 s.mem k) ∧ (Instr.boardReset = .boardReset → t.boot.vaon = true ∧ t.phase = 1) ∧
        (Instr.boardReset = .vaonLoss → t.boot.vaon = false)) ?_ (fun _ _ h => h) (exec_boardReset hv)
      rw [e] at phase' ⊢
      refine ⟨calendar, fuses, flash, keys, execs, ao, fun k hk => ?_, fun k hk => ?_, fun _ => ⟨vaon, phase'⟩, fun h => (nomatch h)⟩
      · exact (congrArg (Tbl.get 0 · k) mem).trans (lost k hk)
      · exact (congrArg (Tbl.get 0 · k) mem).trans (host k hk)
    · obtain ⟨calendar, fuses, flash, keys, execs, ao, mem, vaon⟩ := s.vaonLoss_leaves
      refine answers_with (P := fun t => t.calendar = s.calendar ∧ t.fuses = s.fuses ∧ t.mgmt.flash = s.mgmt.flash ∧
        t.mgmt.keySlots = s.mgmt.keySlots ∧ t.execs = [] ∧ t.boot.ao = false ∧ (∀ k, k < 2 ^ 64 → Tbl.get 0 t.mem k = 0) ∧
        (∀ k, 2 ^ 64 ≤ k → Tbl.get 0 t.mem k = Tbl.get 0 s.mem k) ∧ (Instr.vaonLoss = .boardReset → t.boot.vaon = true ∧ t.phase = 1) ∧
        (Instr.vaonLoss = .vaonLoss → t.boot.vaon = false)) ?_ (fun _ _ h => h) (exec_vaonLoss hv)
      refine ⟨calendar, fuses, flash, keys, execs, ao, fun k hk => ?_, fun k hk => ?_, fun h => (nomatch h), fun _ => vaon⟩
      · rw [mem]
        exact lost k hk
      · rw [mem]
        exact host k hk

end Sys2Proof.Machine
end

section
/-!
SUPPORT. Clocks, power and coolant (R434 to R443): what a clock's target, the cap's display, a boost's end and a tower's DUTY
leave and show, and that the targets which fit the budget are no higher than they were.
-/

namespace Sys2Proof.Machine

section Target

variable (s : State) {u k n : Nat}

/-- Targets of two towers lie apart. -/
theorem targetKey_ne (h : u ≠ k) : PWR_TOWER_CLK.TARGET.key 0 u ≠ PWR_TOWER_CLK.TARGET.key 0 k :=
  Field.key_ne_port (by decide) h 0

/-- A target lies apart from a voltage. -/
theorem targetKey_ne_volt (u k : Nat) : PWR_TOWER_CLK.TARGET.key 0 u ≠ PWR_TOWER_CLK.VT_MV.key 0 k := by
  simp only [Field.key, Field.addr, PWR_TOWER_CLK.TARGET, PWR_TOWER_CLK.VT_MV, blkBase]
  omega

/-- A target that is set writes the target, at most the voltage, and when it rose. -/
theorem State.setTarget_cases {P : State → Prop} (h : P (s.fset PWR_TOWER_CLK.TARGET 0 u n))
    (hv : ∀ t v, P t → P (State.fset t PWR_TOWER_CLK.VT_MV 0 u v))
    (hp : ∀ t r w, P t → P (State.onPower t (fun p => { p with raisedAt := r, settleAt := w }))) : P (s.setTarget u n) := by
  unfold State.setTarget
  dsimp only
  split
  · exact h
  · split
    · exact hp _ _ _ (hv _ _ h)
    · exact hp _ _ _ h

/-- The target reads so. -/
theorem State.setTarget_same (hn : n < 32) : (s.setTarget u n).fget PWR_TOWER_CLK.TARGET 0 u = n := by
  refine s.setTarget_cases (P := fun t => t.fget PWR_TOWER_CLK.TARGET 0 u = n) ?_ (fun t v h => ?_) (fun _ _ _ h => h)
  · rw [State.fget_fset_same]
    exact Nat.mod_eq_of_lt hn
  · rw [State.fget_fset_ne _ (targetKey_ne_volt u u), h]

/-- Other registers are as they were. -/
theorem State.fget_setTarget (n : Nat) {g : Field} {x i : Nat} (ht : g.key x i ≠ PWR_TOWER_CLK.TARGET.key 0 u)
    (hv : g.key x i ≠ PWR_TOWER_CLK.VT_MV.key 0 u) : (s.setTarget u n).fget g x i = s.fget g x i :=
  s.setTarget_cases (P := fun t => t.fget g x i = s.fget g x i) (State.fget_fset_ne _ ht)
    (fun _ _ h => (State.fget_fset_ne _ hv).trans h) (fun _ _ _ h => h)

/-- Another tower's target is. -/
theorem State.setTarget_ne (n : Nat) (h : k ≠ u) : (s.setTarget u n).fget PWR_TOWER_CLK.TARGET 0 k = s.fget PWR_TOWER_CLK.TARGET 0 k :=
  s.fget_setTarget n (targetKey_ne h) (targetKey_ne_volt k u)

/-- So are memory, the rate trip and the ceilings. -/
theorem State.setTarget_kept (u n : Nat) : (s.setTarget u n).mem = s.mem ∧ (s.setTarget u n).power.rateTrip = s.power.rateTrip ∧
    (s.setTarget u n).power.ceil = s.power.ceil ∧ (s.setTarget u n).power.boost = s.power.boost :=
  s.setTarget_cases (P := fun t => t.mem = s.mem ∧ t.power.rateTrip = s.power.rateTrip ∧ t.power.ceil = s.power.ceil ∧
    t.power.boost = s.power.boost) ⟨rfl, rfl, rfl, rfl⟩ (fun _ _ h => h) (fun _ _ _ h => h)

end Target

/-! The budget (R437). -/

/-- The tower to lower is one of those given. -/
theorem topTower_mem {l : List (Nat × Nat)} {y : Nat × Nat} (h : topTower l = some y) : y ∈ l := by
  induction l generalizing y with
  | nil => cases h
  | cons x xs ih =>
    unfold topTower at h
    split at h
    · obtain rfl := Option.some.inj h
      exact List.mem_cons_self
    · next z hz =>
      split at h
      · obtain rfl := Option.some.inj h
        exact List.mem_cons_self
      · obtain rfl := Option.some.inj h
        exact List.mem_cons_of_mem _ (ih hz)

/-- Targets that fit are of the towers given, and no higher than what bounds the ones given. -/
theorem State.fit_spec (s : State) (b : Int) (B : Nat → Nat) (fuel : Nat) {fs : List (Nat × Nat)} (h : ∀ e ∈ fs, e.2 ≤ B e.1) :
    (s.fit b fuel fs).map Prod.fst = fs.map Prod.fst ∧ ∀ e ∈ s.fit b fuel fs, e.2 ≤ B e.1 := by
  induction fuel generalizing fs with
  | zero => exact ⟨rfl, h⟩
  | succ fuel ih =>
    unfold State.fit
    split
    · exact ⟨rfl, h⟩
    · split
      · next t n top =>
        have old : n + 1 ≤ B t := h _ (topTower_mem top)
        have lowered : ∀ e ∈ fs.map (fun (e : Nat × Nat) => if e.1 = t then (e.1, n) else (e.1, e.2)), e.2 ≤ B e.1 := by
          intro e he
          obtain ⟨⟨u, m⟩, hm, rfl⟩ := List.mem_map.mp he
          dsimp only
          split
          · next same =>
            dsimp only at same ⊢
            rw [same]
            omega
          · exact h _ hm
        obtain ⟨names, bounds⟩ := ih lowered
        refine ⟨names.trans ?_, bounds⟩
        rw [List.map_map]
        refine List.map_congr_left fun e _ => ?_
        simp only [Function.comp_apply]
        split
        · rfl
        · rfl
      · exact ⟨rfl, h⟩

/-- One tower of a decision takes its target; one of a failed segment keeps its clock (R461). -/
def State.decideTower (s t : State) (e : Nat × Nat) : State := if s.segFailed e.1 then t else t.setTarget e.1 e.2

/-- A decision keeps what every target that is set keeps. -/
theorem State.decideTower_keeps {P : State → Prop} (s t : State) (e : Nat × Nat) (h : P t) (hs : P (t.setTarget e.1 e.2)) :
    P (s.decideTower t e) := by
  unfold State.decideTower
  split
  · exact h
  · exact hs

section Decision

variable (s : State) (l : List (Nat × Nat)) {u : Nat}

/-- A tower that is not named, or whose segment has failed, keeps its target. -/
theorem State.decideTowers_kept (h : u ∉ l.map Prod.fst ∨ s.segFailed u = true) :
    (l.foldl s.decideTower s).fget PWR_TOWER_CLK.TARGET 0 u = s.fget PWR_TOWER_CLK.TARGET 0 u := by
  refine foldl_keeps_mem (fun t : State => t.fget PWR_TOWER_CLK.TARGET 0 u = s.fget PWR_TOWER_CLK.TARGET 0 u) _ _
    (fun t e he ht => ?_) _ rfl
  by_cases same : e.1 = u
  · have failed : s.segFailed e.1 = true := by
      rw [same]
      exact h.resolve_left (not_not.mpr (same ▸ List.mem_map_of_mem he))
    rw [State.decideTower, if_pos failed, ht]
  · exact s.decideTower_keeps (P := fun t : State => t.fget PWR_TOWER_CLK.TARGET 0 u = s.fget PWR_TOWER_CLK.TARGET 0 u) t e ht
      ((t.setTarget_ne e.2 (Ne.symm same)).trans ht)

/-- Another is bounded as its targets are. -/
theorem State.decideTowers_le {B : Nat → Nat} (hB : ∀ e ∈ l, e.2 ≤ B e.1) (h32 : B u < 32) (hu : u ∈ l.map Prod.fst)
    (hf : s.segFailed u = false) : (l.foldl s.decideTower s).fget PWR_TOWER_CLK.TARGET 0 u ≤ B u := by
  have step (t : State) (e : Nat × Nat) (he : e ∈ l) (h : e.1 = u ∨ t.fget PWR_TOWER_CLK.TARGET 0 u ≤ B u) :
      (s.decideTower t e).fget PWR_TOWER_CLK.TARGET 0 u ≤ B u := by
    by_cases same : e.1 = u
    · have bound := hB e he
      rw [same] at bound
      rw [State.decideTower, if_neg (by rw [same, hf]; decide), same, State.setTarget_same _ (by omega)]
      exact bound
    · have old := h.resolve_left same
      exact s.decideTower_keeps (P := fun t : State => t.fget PWR_TOWER_CLK.TARGET 0 u ≤ B u) t e old
        ((t.setTarget_ne e.2 (Ne.symm same)).trans_le old)
  obtain ⟨e, he, named⟩ := List.mem_map.mp hu
  obtain ⟨l1, l2, rfl⟩ := List.append_of_mem he
  rw [List.foldl_append, List.foldl_cons]
  exact foldl_keeps_mem (fun t : State => t.fget PWR_TOWER_CLK.TARGET 0 u ≤ B u) _ _
    (fun t d hd h => step t d (by simp [hd]) (.inr h)) _ (step _ e he (.inl named))

/-- A decision leaves memory and what is neither a target nor a voltage. -/
theorem State.decideTowers_rest : (l.foldl s.decideTower s).mem = s.mem ∧ ∀ g : Field, g.addr 0 0 < 0x1100 → g.lo < 64 →
    (l.foldl s.decideTower s).fget g 0 0 = s.fget g 0 0 := by
  refine ⟨foldl_keeps_mem (fun t : State => t.mem = s.mem) _ _ (fun t e _ h => s.decideTower_keeps (P := fun t : State => t.mem = s.mem)
    t e h ((t.setTarget_kept e.1 e.2).1.trans h)) _ rfl, fun g hg hl => ?_⟩
  refine foldl_keeps_mem (fun t : State => t.fget g 0 0 = s.fget g 0 0) _ _ (fun t e _ h => ?_) _ rfl
  refine s.decideTower_keeps (P := fun t : State => t.fget g 0 0 = s.fget g 0 0) t e h ((t.fget_setTarget e.2 ?_ ?_).trans h)
  · simp only [Field.key, Field.addr, PWR_TOWER_CLK.TARGET, blkBase] at hg ⊢
    omega
  · simp only [Field.key, Field.addr, PWR_TOWER_CLK.VT_MV, blkBase] at hg ⊢
    omega

end Decision

/-! RAMP_LEN_MGMT of every tile. -/

/-- Every tile takes a length of its ramp. -/
def State.rampAll (s : State) (v : Nat) : State := (List.range 64).foldl (fun t j => t.fset TILE_THROTTLE.RAMP_LEN_MGMT j 0 v) s

/-- Every tile's length reads so. -/
theorem State.rampAll_ramp (s : State) (v : Nat) {j : Nat} (hj : j < 64) :
    (s.rampAll v).fget TILE_THROTTLE.RAMP_LEN_MGMT j 0 = v % 32 := by
  refine foldl_once (P := fun _ : State => True) (Q := fun t : State => t.fget TILE_THROTTLE.RAMP_LEN_MGMT j 0 = v % 32)
    (List.mem_range.mpr hj) List.nodup_range (fun _ _ _ _ _ => trivial) (fun t _ => State.fget_fset_same ..)
    (fun t k _ hk h => ?_) trivial
  rw [State.fget_fset_ne _ ?_, h]
  simp only [Field.key, Field.addr, TILE_THROTTLE.RAMP_LEN_MGMT, blkBase]
  omega

/-- The registers below the hubs' and memory stand. -/
theorem State.rampAll_low (s : State) (v : Nat) : s.LowKept (s.rampAll v) ∧ (s.rampAll v).mem = s.mem :=
  ⟨keeps_foldl (fun _ j h => State.LowKept.fset (f := TILE_THROTTLE.RAMP_LEN_MGMT) h (by decide) (by decide) j 0 v) (.refl s),
    foldl_keeps_mem (fun t : State => t.mem = s.mem) (fun t j => t.fset TILE_THROTTLE.RAMP_LEN_MGMT j 0 v) _ (fun _ _ _ h => h) _ rfl⟩

/-! The cap's display and the end of a boost. -/

section Display

variable (s : State)

/-- The cap's display is in one register. -/
theorem State.showCap_alike : State.Alike (· ≠ 0x1008) s s.showCap := by
  unfold State.showCap
  exact (((State.Alike.refl.fset (f := PWR_CAP_STATUS.CAP_W) (by decide) (by decide) _).fset (f := PWR_CAP_STATUS.BINDS) (by decide)
    (by decide) _).fset (f := PWR_CAP_STATUS.BOOSTING) (by decide) (by decide) _).fset (f := PWR_CAP_STATUS.RATE_TRIP) (by decide)
    (by decide) _

/-- It leaves the power shown. -/
theorem State.showCap_power : s.showCap.fget PWR_CAP_STATUS.POWER_W 0 0 = s.fget PWR_CAP_STATUS.POWER_W 0 0 := by
  rw [State.showCap, State.fget_fset_ne _ (by decide), State.fget_fset_ne _ (by decide), State.fget_fset_ne _ (by decide),
    State.fget_fset_ne _ (by decide)]

/-- An event of the power manager is in one register. -/
theorem State.powerEvt_alike {f : Field} (hl : f.lo < 64) (ha : f.addr 0 0 = 0x1020) :
    State.Alike (· ≠ 0x1020) s (s.evt f 0 0 1 none) :=
  (State.Alike.refl.fset hl (not_not.mpr ha) _).quiet (State.evt_regs ..)

/-- So is what the end of a boost shows. -/
theorem State.boostEnd_alike : State.Alike (· ≠ 0x1020) s s.boostEnd := by
  unfold State.boostEnd
  split
  · exact .refl
  · exact State.Alike.trans (t := s.onPower _) (State.Alike.refl.quiet rfl)
      (State.powerEvt_alike _ (f := PWR_EVENT.BOOST_END) (by decide) (by decide))

/-- And what a decision about it shows. -/
theorem State.boostStep_alike : State.Alike (· ≠ 0x1020) s s.boostStep := by
  unfold State.boostStep
  split
  · split
    · exact s.boostEnd_alike
    · exact .refl
  · split
    · exact State.Alike.trans (t := s.onPower _) (State.Alike.refl.quiet rfl)
        (State.powerEvt_alike _ (f := PWR_EVENT.BOOST_START) (by decide) (by decide))
    · exact .refl

/-- A boost that ends is over; the rest of the manager's state stands. -/
theorem State.boostEnd_power : s.boostEnd.power.boost = false ∧ s.boostEnd.power.rateTrip = s.power.rateTrip ∧
    s.boostEnd.power.cooling = s.power.cooling ∧ s.boostEnd.power.powSum = s.power.powSum ∧
    s.boostEnd.power.powN = s.power.powN := by
  unfold State.boostEnd
  split
  · next h => exact ⟨by simpa using h, rfl, rfl, rfl, rfl⟩
  · simp

/-- A decision about it leaves the rate trip. -/
theorem State.boostStep_rateTrip : s.boostStep.power.rateTrip = s.power.rateTrip := by
  unfold State.boostStep
  split
  · split
    · exact s.boostEnd_power.2.1
    · rfl
  · split
    · simp
    · rfl

/-- A record leaves the manager's state and the registers below the hubs'. -/
theorem State.powerRec_kept (cause sev unit i0 i1 : Nat) : (s.powerRec cause sev unit i0 i1).power = s.power ∧
    (s.powerRec cause sev unit i0 i1).mem = s.mem ∧ s.LowKept (s.powerRec cause sev unit i0 i1) := by
  have kept := State.powerRec_keeps (within_opened _ s) s cause sev unit i0 i1 (.refl _ s)
  obtain ⟨power, -⟩ := kept .power (by decide)
  obtain ⟨mem, -⟩ := kept .memory (by decide)
  exact ⟨power.symm, mem.symm, (spared_lowKept s).record (.refl s) ..⟩

end Display

/-! TRIP of the tiles. -/

section Trip

variable {t : State} {u i j : Nat}

/-- TRIP of two tiles lies apart. -/
theorem tripKey_ne (h : i ≠ j) : TILE_THROTTLE.TRIP.key i 0 ≠ TILE_THROTTLE.TRIP.key j 0 := by
  simp only [Field.key, Field.addr, TILE_THROTTLE.TRIP, blkBase]
  omega

/-- Every tile of a tower shows the rate trip. -/
theorem State.writeDuty_trip (hi : i < 4) : (t.writeDuty u).fget TILE_THROTTLE.TRIP (4 * u + i) 0 = bit t.power.rateTrip := by
  refine foldl_once (P := fun _ => True) (Q := fun v : State => v.fget TILE_THROTTLE.TRIP (4 * u + i) 0 = bit t.power.rateTrip)
    (List.mem_range.mpr hi) List.nodup_range (fun _ _ _ _ h => h) (fun v _ => ?_) (fun v k _ hk hv => ?_) trivial
  · rw [State.fget_fset_same]
    cases t.power.rateTrip
    · rfl
    · rfl
  · rw [State.fget_fset_ne _ (tripKey_ne (by omega)), State.fget_fset_ne _ (dutyKey_ne_trip _ _).symm, hv]

/-- The tiles of other towers keep their TRIP. -/
theorem State.writeDuty_trip_other (hj : j / 4 ≠ u) : (t.writeDuty u).fget TILE_THROTTLE.TRIP j 0 = t.fget TILE_THROTTLE.TRIP j 0 := by
  refine foldl_keeps_mem (fun v : State => v.fget TILE_THROTTLE.TRIP j 0 = t.fget TILE_THROTTLE.TRIP j 0) _ _ (fun v i hi hv => ?_) _ rfl
  have := List.mem_range.mp hi
  rw [State.fget_fset_ne _ (tripKey_ne (by omega)), State.fget_fset_ne _ (dutyKey_ne_trip _ _).symm, hv]

/-- The targets stand. -/
theorem State.writeDuty_target (k : Nat) (hk : k < 16) : (t.writeDuty u).fget PWR_TOWER_CLK.TARGET 0 k = t.fget PWR_TOWER_CLK.TARGET 0 k := by
  refine ((State.LowKept.refl t).writeDuty u).fget ?_
  simp only [Field.key, Field.addr, PWR_TOWER_CLK.TARGET, blkBase, hubKeys]
  omega

/-- TRIP lies above the power manager's registers. -/
theorem tripKey_high (j : Nat) : hubKeys ≤ TILE_THROTTLE.TRIP.key j 0 := by
  simp only [Field.key, Field.addr, TILE_THROTTLE.TRIP, blkBase, hubKeys]
  omega

/-- A tower steps to 0.50 GHz with what its DUTY asks for (R443). -/
def State.tripTower (t : State) (u : Nat) : State := (t.setTarget u 0).writeDuty u

/-- Its target is 0, and its tiles show the trip. -/
theorem State.tripTower_same (hu : u < 16) (hi : i < 4) : (t.tripTower u).fget PWR_TOWER_CLK.TARGET 0 u = 0 ∧
    (t.tripTower u).fget TILE_THROTTLE.TRIP (4 * u + i) 0 = bit t.power.rateTrip := by
  constructor
  · rw [State.tripTower, State.writeDuty_target _ hu, State.setTarget_same _ (by decide)]
  · rw [State.tripTower, State.writeDuty_trip hi, (t.setTarget_kept u 0).2.1]

/-- Other towers and their tiles are as they were. -/
theorem State.tripTower_other {k : Nat} (hk : k < 16) (h : k ≠ u) (hj : j / 4 = k) :
    (t.tripTower u).fget PWR_TOWER_CLK.TARGET 0 k = t.fget PWR_TOWER_CLK.TARGET 0 k ∧
    (t.tripTower u).fget TILE_THROTTLE.TRIP j 0 = t.fget TILE_THROTTLE.TRIP j 0 := by
  have high := tripKey_high j
  constructor
  · rw [State.tripTower, State.writeDuty_target _ hk, State.setTarget_ne _ _ h]
  · rw [State.tripTower, State.writeDuty_trip_other (by omega), State.fget_setTarget]
    · simp only [Field.key, Field.addr, PWR_TOWER_CLK.TARGET, TILE_THROTTLE.TRIP, blkBase]
      omega
    · simp only [Field.key, Field.addr, PWR_TOWER_CLK.VT_MV, TILE_THROTTLE.TRIP, blkBase]
      omega

/-- The rate trip and the boost stand. -/
theorem State.tripTower_kept (u : Nat) : (t.tripTower u).power.rateTrip = t.power.rateTrip ∧
    (t.tripTower u).power.boost = t.power.boost := by
  obtain ⟨-, trip, -, boost⟩ := t.setTarget_kept u 0
  rw [State.tripTower, State.writeDuty_power]
  exact ⟨trip, boost⟩

end Trip

/-! Forecasts. -/

section Forecast

variable {s t : State}

/-- States that read alike in the tower registers give a tower to the same partition. -/
theorem State.Alike.towerPart (h : State.Alike towerRegister s t) {n : Nat} (hn : n < 16) : t.towerPart n = s.towerPart n := by
  have assigned : t.fget PART_TOWER_EN.ASSIGNED 0 0 = s.fget PART_TOWER_EN.ASSIGNED 0 0 :=
    h.reads PART_TOWER_EN.ASSIGNED 0 0 0 ⟨by decide, by decide⟩
  have owner : t.fgetAt PART_TOWER_MAP.PART0 0 0 (4 * n) = s.fgetAt PART_TOWER_MAP.PART0 0 0 (4 * n) := by
    refine h.reads PART_TOWER_MAP.PART0 0 0 _ ?_
    rw [Field.key_div (by simp only [PART_TOWER_MAP.PART0]; omega)]
    exact ⟨by decide, by decide⟩
  rw [State.towerPart, State.towerPart, State.fbit, State.fbit, assigned, owner]

/-- Which towers run is in the partitions, their towers and the time. -/
theorem State.towerRuns_congr (h : State.Alike towerRegister s t) (hp : t.parts = s.parts) (ht : t.time = s.time) {u : Nat}
    (hu : u < 16) : t.towerRuns u = s.towerRuns u := by
  have busy (j : Nat) : t.tileBusy j = s.tileBusy j := by rw [State.tileBusy, State.tileBusy, hp]
  have towers : t.towerBusy u = s.towerBusy u := by simp only [State.towerBusy, busy]
  have forecast (p x : Nat) : t.forecastAt p x = s.forecastAt p x := by
    have part : t.part p = s.part p := by rw [State.part, State.part, hp]
    rw [State.forecastAt, State.forecastAt, part]
  simp only [State.towerRuns, towers, h.towerPart hu, forecast, ht]

/-- The end of a command without an instance leaves its partition's forecast. -/
theorem State.endPlain_forecast (t : State) (p x status detail : Nat) :
    ((t.endPlain p x status detail).part p).forecast = (t.part p).forecast ∧
    ((t.endPlain p x status detail).part p).forecastAt = (t.part p).forecastAt ∧
    ((t.endPlain p x status detail).part p).accepted = (t.part p).accepted := by
  have parts {a b : State} (h : b.parts = a.parts) : b.part p = a.part p := by rw [State.part, State.part, h]
  obtain ⟨back, -⟩ := State.unreserveAll_keeps (within_opened _ t) t p x (.refl _ t) .parts (by decide)
  obtain ⟨done, -⟩ := State.complete_keeps (within_opened _ _) ((t.unreserveAll p x).unask p x) p x status detail (.refl _ _) .parts (by decide)
  have unasked : (((t.unreserveAll p x).unask p x).part p).forecast = (t.part p).forecast ∧
      (((t.unreserveAll p x).unask p x).part p).forecastAt = (t.part p).forecastAt ∧
      (((t.unreserveAll p x).unask p x).part p).accepted = (t.part p).accepted := by
    rw [State.unask, State.part_onPart, parts back.symm]
    exact ⟨rfl, rfl, rfl⟩
  have decided (v : State) : ((v.preDecide p).part p).forecast = (v.part p).forecast ∧
      ((v.preDecide p).part p).forecastAt = (v.part p).forecastAt ∧ ((v.preDecide p).part p).accepted = (v.part p).accepted := by
    unfold State.preDecide
    split
    · split
      · rw [State.part_onPart]
        exact ⟨rfl, rfl, rfl⟩
      · exact ⟨rfl, rfl, rfl⟩
    · exact ⟨rfl, rfl, rfl⟩
  obtain ⟨f, a, y⟩ := decided (((t.unreserveAll p x).unask p x).complete p x status detail)
  obtain ⟨f', a', y'⟩ := unasked
  rw [parts done.symm] at f a y
  exact ⟨f.trans f', a.trans a', y.trans y'⟩

/-- A tower's ceiling in a phase (R439). -/
def State.phaseCeil (s : State) (x : Nat × Nat × Nat × Nat) (t0 k : Nat) : Nat :=
  let kind := x.2.1
  let base := if kind = 1 then 10 else if kind = 0 then 20 else s.modeCeil
  if !x.2.2.2.testBit k then 20
  else if kind ≠ 0 ∧ s.expected t0 > s.cap.1 - s.outside t0 then
    min base ((10 + s.fget PWR_TOWER_CLK.TARGET 0 k) * (s.cap.1 - s.outside t0) / s.expected t0 - 10)
  else base

/-- A target above a ceiling comes down to it. -/
def State.lowerTo (u : State) (k c : Nat) : State := if c < u.fget PWR_TOWER_CLK.TARGET 0 k then u.setTarget k c else u

/-- One tower of a phase takes its ceiling. -/
def State.ceilStep (s : State) (x : Nat × Nat × Nat × Nat) (t0 : Nat) (u : State) (k : Nat) : State :=
  let c := s.phaseCeil x t0 k
  let u1 := u.onPower (fun w => { w with ceil := Tbl.put 20 w.ceil k c })
  let u2 := u1.lowerTo k c
  if x.2.2.2.testBit k && decide (2 ≤ x.2.1) && decide (u2.fget PWR_TOWER_CLK.VT_MV 0 k < s.voltage k c) && !s.segFailed k then
    u2.fset PWR_TOWER_CLK.VT_MV 0 k (s.voltage k c)
  else u2

/-- What a target that is lowered, and a voltage that is raised, keep, the step keeps. -/
theorem State.ceilStep_cases {P : State → Prop} (x : Nat × Nat × Nat × Nat) (t0 : Nat) (u : State) (k : Nat)
    (h : P ((u.onPower (fun w => { w with ceil := Tbl.put 20 w.ceil k (s.phaseCeil x t0 k) })).lowerTo k (s.phaseCeil x t0 k)))
    (hv : ∀ t v, P t → P (State.fset t PWR_TOWER_CLK.VT_MV 0 k v)) : P (s.ceilStep x t0 u k) := by
  unfold State.ceilStep
  dsimp only
  split
  · exact hv _ _ h
  · exact h

/-- Another tower's ceiling and target are as they were. -/
theorem State.ceilStep_other (x : Nat × Nat × Nat × Nat) (t0 : Nat) (u : State) {k j : Nat} (h : j ≠ k) :
    Tbl.get 20 (s.ceilStep x t0 u k).power.ceil j = Tbl.get 20 u.power.ceil j ∧
    (s.ceilStep x t0 u k).fget PWR_TOWER_CLK.TARGET 0 j = u.fget PWR_TOWER_CLK.TARGET 0 j := by
  refine s.ceilStep_cases (P := fun v : State => Tbl.get 20 v.power.ceil j = Tbl.get 20 u.power.ceil j ∧
    v.fget PWR_TOWER_CLK.TARGET 0 j = u.fget PWR_TOWER_CLK.TARGET 0 j) x t0 u k ?_
    (fun v w hv => ⟨hv.1, (State.fget_fset_ne _ (targetKey_ne_volt j k)).trans hv.2⟩)
  have put : Tbl.get 20 (Tbl.put 20 u.power.ceil k (s.phaseCeil x t0 k)) j = Tbl.get 20 u.power.ceil j := Tbl.get_put_ne _ h
  unfold State.lowerTo
  split
  · rw [(State.setTarget_kept _ _ _).2.2.1, State.setTarget_ne _ _ h]
    exact ⟨put, rfl⟩
  · exact ⟨put, rfl⟩

/-- A tower has its ceiling, and a target no higher. -/
theorem State.ceilStep_same (x : Nat × Nat × Nat × Nat) (t0 : Nat) (u : State) {k c : Nat} (hc : s.phaseCeil x t0 k = c)
    (h32 : c < 32) : Tbl.get 20 (s.ceilStep x t0 u k).power.ceil k = c ∧
    (s.ceilStep x t0 u k).fget PWR_TOWER_CLK.TARGET 0 k ≤ c := by
  refine s.ceilStep_cases (P := fun v : State => Tbl.get 20 v.power.ceil k = c ∧ v.fget PWR_TOWER_CLK.TARGET 0 k ≤ c) x t0 u k ?_
    (fun v w hv => ⟨hv.1, (State.fget_fset_ne _ (targetKey_ne_volt k k)).trans_le hv.2⟩)
  have put : Tbl.get 20 (Tbl.put 20 u.power.ceil k c) k = c := Tbl.get_put_same ..
  rw [hc]
  unfold State.lowerTo
  split
  · rw [(State.setTarget_kept _ _ _).2.2.1, State.setTarget_same _ h32]
    exact ⟨put, le_rfl⟩
  · next h => exact ⟨put, Nat.le_of_not_lt h⟩

/-- A decode phase with room for it has its ceiling at 1.0 GHz. -/
theorem State.phaseCeil_decode {x : Nat × Nat × Nat × Nat} {t0 k : Nat} (h1 : x.2.1 = 1) (hk : x.2.2.2.testBit k = true)
    (hr : s.expected t0 ≤ s.cap.1 - s.outside t0) : s.phaseCeil x t0 k = 10 := by
  have room : ¬ (x.2.1 ≠ 0 ∧ s.expected t0 > s.cap.1 - s.outside t0) := fun h => Nat.not_lt.mpr hr h.2
  unfold State.phaseCeil
  dsimp only
  rw [if_neg (by simp [hk]), if_neg room, if_pos h1]

/-- A partition's towers are numbered once each. -/
theorem State.partTowers_nodup (s : State) (p : Nat) : (s.partTowers p).Nodup := List.nodup_range.filter _

/-- No phase leaves a tower without a ceiling. -/
def State.noCeil (u : State) (k : Nat) : State := u.onPower (fun w => { w with ceil := Tbl.put 20 w.ceil k 20 })

/-- Towers without a ceiling have 20. -/
theorem State.noCeils_shows (s : State) {l : List Nat} (hl : l.Nodup) : (l.foldl State.noCeil s).regs = s.regs ∧
    ∀ k ∈ l, Tbl.get 20 (l.foldl State.noCeil s).power.ceil k = 20 := by
  refine ⟨foldl_keeps_mem (fun t : State => t.regs = s.regs) State.noCeil _ (fun _ _ _ h => h) _ rfl, fun k hk => ?_⟩
  refine foldl_once (P := fun _ : State => True) (Q := fun t : State => Tbl.get 20 t.power.ceil k = 20) hk hl
    (fun _ _ _ _ _ => trivial) (fun t _ => ?_) (fun t j _ hj h => ?_) trivial
  · exact Tbl.get_put_same t.power.ceil k 20
  · exact (Tbl.get_put_ne (d := 20) (v := 20) (e := 20) t.power.ceil hj.symm).trans h

end Forecast

end Sys2Proof.Machine
end

section
/-!
PROOF. Clocks, power and coolant (R434 to R443, R467, R468).
-/

namespace Sys2Proof.Machine

/-! The manager's 1 ms decision. -/

section Decide

variable (s : State)

/-- The power measured (R435). -/
def State.measured (s : State) : State :=
  (s.fset PWR_CAP_STATUS.POWER_W 0 0 (min 8191 (s.packagePower / 10))).onPower (fun w => { w with
    powSum := w.powSum + s.packagePower / 10, powN := w.powN + 1
    underNs := if s.packagePower / 10 < 4000 ∧ w.boost = false then w.underNs + 1000000 else w.underNs })

/-- The boost and the cap decided. -/
def State.decided (s : State) : State := s.measured.boostStep.showCap

/-- The towers' targets that fit the budget (R437). -/
def State.targets (s : State) : List (Nat × Nat) :=
  s.decided.fit (10 * ((s.decided.cap.1 : Int) - 100) - s.decided.otherPower) 320
    (((List.range 16).filter s.decided.towerRuns).map (fun t => (t, s.decided.towerWish t)))

/-- CLOCK_TARGET_UPDATE (R434, R437). -/
theorem exec_clockTargetUpdate {s : State} (hu : s.boot.mgmtUp = true) (h15 : s.phase ≠ 15) : exec .clockTargetUpdate s =
    ok true s ((s.targets.foldl s.decided.decideTower s.decided).rampAll (s.fget PWR_THR_CTL.RAMP_LEN 0 0)) := by
  change ok true s (if _ then _ else _) = _
  rw [if_neg (by simp [hu, h15])]
  rfl

/-- The decision's registers. -/
def clockSpares (a : Nat) : Prop := a ≠ 0x1008 ∧ a ≠ 0x1020

/-- A boost's decision and the cap's display are shown in two registers, and leave the rest. -/
theorem State.boostShown_kept : State.Alike clockSpares s s.boostStep.showCap ∧ s.boostStep.showCap.parts = s.parts ∧
    s.boostStep.showCap.time = s.time ∧ s.boostStep.showCap.pkg = s.pkg ∧ s.boostStep.showCap.mem = s.mem ∧
    s.boostStep.showCap.power.rateTrip = s.power.rateTrip ∧
    s.boostStep.showCap.fget PWR_CAP_STATUS.POWER_W 0 0 = s.fget PWR_CAP_STATUS.POWER_W 0 0 := by
  have kept := State.boostStep_keeps (within_opened _ s) s (.refl _ s)
  obtain ⟨parts, -⟩ := kept .parts (by decide)
  obtain ⟨time, -⟩ := kept .clock (by decide)
  obtain ⟨mem, -⟩ := kept .memory (by decide)
  have pkg := kept .package (by decide)
  have trip := s.boostStep_rateTrip
  have boost := s.boostStep_alike
  have power := boost.fget (f := PWR_CAP_STATUS.POWER_W) (x := 0) (i := 0) (by decide) (by decide)
  generalize s.boostStep = w at *
  exact ⟨(boost.mono fun a ha => ha.2).trans (w.showCap_alike.mono fun a ha => ha.1), parts.symm, time.symm, pkg.symm, mem.symm,
    trip, w.showCap_power.trans power⟩

/-- What is decided before the targets leaves the rest. -/
theorem State.decided_kept : State.Alike clockSpares s s.decided ∧ s.decided.parts = s.parts ∧ s.decided.time = s.time ∧
    s.decided.pkg = s.pkg ∧ s.decided.mem = s.mem ∧ s.decided.power.rateTrip = s.power.rateTrip ∧
    s.decided.fget PWR_CAP_STATUS.POWER_W 0 0 = min 8191 (s.packagePower / 10) := by
  obtain ⟨alike, parts, time, pkg, mem, trip, power⟩ := s.measured.boostShown_kept
  have measured : State.Alike clockSpares s s.measured :=
    (State.Alike.refl.fset (f := PWR_CAP_STATUS.POWER_W) (by decide) (fun h => h.1 rfl) _).quiet rfl
  have shown : s.measured.fget PWR_CAP_STATUS.POWER_W 0 0 = min 8191 (s.packagePower / 10) := by
    rw [State.measured, State.fget_onPower, State.fget_fset_same]
    exact Nat.mod_eq_of_lt (show min 8191 (s.packagePower / 10) < 2 ^ 13 by omega)
  exact ⟨measured.trans alike, parts, time, pkg, mem, trip, power.trans shown⟩

/-- A wish is no higher than the mode's ceiling, and 0 during a rate trip. -/
theorem State.towerWish_le (u : Nat) : s.towerWish u ≤ s.modeCeil ∧ (s.power.rateTrip = true → s.towerWish u = 0) := by
  unfold State.towerWish
  dsimp only
  split
  · exact ⟨Nat.zero_le _, fun _ => rfl⟩
  · next h => exact ⟨by omega, fun c => absurd c h⟩

/-- A mode's ceiling is at most 1.5 GHz. -/
theorem State.modeCeil_le : s.modeCeil ≤ 20 := by
  unfold State.modeCeil
  split
  · decide
  · exact le_rfl

/-- What the decision shows (R434, R437, R461). -/
theorem State.decision_shows {t : State}
    (ht : t = (s.targets.foldl s.decided.decideTower s.decided).rampAll (s.fget PWR_THR_CTL.RAMP_LEN 0 0)) : t.mem = s.mem ∧
    (∀ j, j < 64 → t.fget TILE_THROTTLE.RAMP_LEN_MGMT j 0 = s.fget PWR_THR_CTL.RAMP_LEN 0 0 % 32) ∧
    t.fget PWR_CAP_STATUS.POWER_W 0 0 = min 8191 (s.packagePower / 10) ∧ ∀ u, u < 16 →
      (s.towerRuns u = true → s.segFailed u = false → t.fget PWR_TOWER_CLK.TARGET 0 u ≤ s.modeCeil ∧
        (s.power.rateTrip = true → t.fget PWR_TOWER_CLK.TARGET 0 u = 0)) ∧
      (s.towerRuns u = false ∨ s.segFailed u = true →
        t.fget PWR_TOWER_CLK.TARGET 0 u = s.fget PWR_TOWER_CLK.TARGET 0 u) := by
  subst ht
  obtain ⟨alike, parts, time, pkg, mem, trip, power⟩ := s.decided_kept
  obtain ⟨low, rmem⟩ := (s.targets.foldl s.decided.decideTower s.decided).rampAll_low (s.fget PWR_THR_CTL.RAMP_LEN 0 0)
  obtain ⟨dmem, rest⟩ := s.decided.decideTowers_rest s.targets
  obtain ⟨names, bounds⟩ := s.decided.fit_spec (10 * ((s.decided.cap.1 : Int) - 100) - s.decided.otherPower) s.decided.towerWish 320
    (fs := ((List.range 16).filter s.decided.towerRuns).map (fun t => (t, s.decided.towerWish t))) (by
      intro e he
      obtain ⟨u, -, rfl⟩ := List.mem_map.mp he
      exact le_rfl)
  have ceil : s.decided.modeCeil = s.modeCeil := by
    rw [State.modeCeil, State.modeCeil, alike.fget (by decide) ⟨by decide, by decide⟩]
  refine ⟨rmem.trans (dmem.trans mem), fun j hj => State.rampAll_ramp _ _ hj, ?_, fun u hu => ?_⟩
  · rw [low.fget (by decide), rest _ (by decide) (by decide), power]
  have shown := low.fget (g := PWR_TOWER_CLK.TARGET) (x := 0) (i := u) (by
    simp only [Field.key, Field.addr, PWR_TOWER_CLK.TARGET, blkBase, hubKeys]
    omega)
  have runs : s.decided.towerRuns u = s.towerRuns u :=
    State.towerRuns_congr (alike.mono fun a ha => by simp only [towerRegister] at ha; exact ⟨by omega, by omega⟩) parts time hu
  have failed : s.decided.segFailed u = s.segFailed u := by rw [State.segFailed, State.segFailed, pkg]
  have named : u ∈ s.targets.map Prod.fst ↔ s.towerRuns u = true := by
    have names' : s.targets.map Prod.fst = (((List.range 16).filter s.decided.towerRuns).map
      (fun t => (t, s.decided.towerWish t))).map Prod.fst := names
    rw [names', List.map_map]
    simp [hu, runs]
  refine ⟨fun hr hf => ?_, fun h => ?_⟩
  · obtain ⟨wish, tripped⟩ := s.decided.towerWish_le u
    have c20 := s.modeCeil_le
    have le := s.decided.decideTowers_le s.targets bounds (show s.decided.towerWish u < 32 by omega) (named.mpr hr) (failed.trans hf)
    rw [shown]
    refine ⟨by omega, fun h => ?_⟩
    have zero := tripped (trip.trans h)
    omega
  · have kept := s.decided.decideTowers_kept s.targets (u := u) (h.imp (fun hr hn => by simp [named.mp hn] at hr) failed.trans)
    have addr : clockSpares (PWR_TOWER_CLK.TARGET.addr 0 u) := by
      simp only [clockSpares, Field.addr, PWR_TOWER_CLK.TARGET, blkBase]
      omega
    rw [shown, kept, alike.fget (by decide) addr]

end Decide

/-! The over-cap response (R438). -/

section Estimate

variable (s : State)

/-- The estimates are kept. -/
def State.estimated (s : State) (l : List Nat) : State :=
  s.onPower (fun w => { w with est := ((List.range 16).zip l).foldl (fun t (k, v) => Tbl.put 0 t k v) w.est })

/-- A tower's DUTY takes a value. -/
def State.setDuty (t : State) (k v : Nat) : State := (t.onPower (fun w => { w with duty := Tbl.put 0 w.duty k v })).writeDuty k

/-- Above the cap a busy tower's DUTY rises by one step. -/
def State.raiseDuty (s t : State) (k : Nat) : State :=
  if s.towerBusy k then t.setDuty k (min 6 (Tbl.get 0 t.power.duty k + 1)) else t

/-- Below it, it falls by one. -/
def State.lowerDuty (t : State) (k : Nat) : State := t.setDuty k (Tbl.get 0 t.power.duty k - 1)

/-- POWER_ESTIMATE (R438). -/
theorem exec_powerEstimate {s : State} {l : List Nat} (hl : l.length = 16) (hu : s.boot.mgmtUp = true) (h15 : s.phase ≠ 15) :
    exec (.powerEstimate l) s = ok true s
      (if l.sum + s.otherPower / 10 > s.cap.1 then (List.range 16).foldl s.raiseDuty (s.estimated l)
       else if l.sum + s.otherPower / 10 < s.cap.1 ∧ s.time ≥ s.power.dutyAt + 100000 then
         (List.range 16).foldl State.lowerDuty ((s.estimated l).onPower (fun w => { w with dutyAt := s.time }))
       else s.estimated l) := by
  have wf : (l.length == 16) = true := by simp [hl]
  change ok (l.length == 16) s (if _ then _ else _) = _
  rw [wf, if_neg (by simp [hu, h15])]
  rfl

/-- A DUTY that is set is kept; the estimates and memory stand. -/
theorem State.setDuty_shows (t : State) (k v : Nat) : Tbl.get 0 (t.setDuty k v).power.duty k = v ∧
    (∀ j, j ≠ k → Tbl.get 0 (t.setDuty k v).power.duty j = Tbl.get 0 t.power.duty j) ∧ (t.setDuty k v).power.est = t.power.est ∧
    (t.setDuty k v).mem = t.mem := by
  obtain ⟨mem, -⟩ := State.writeDuty_keeps (within_opened _ _) (t.onPower (fun w => { w with duty := Tbl.put 0 w.duty k v })) k
    (.refl _ _) .memory (by decide)
  refine ⟨?_, fun j hj => ?_, ?_, mem.symm⟩
  · rw [State.setDuty, State.writeDuty_power]
    exact Tbl.get_put_same t.power.duty k v
  · rw [State.setDuty, State.writeDuty_power]
    exact Tbl.get_put_ne (d := 0) (v := v) (e := 0) t.power.duty hj
  · rw [State.setDuty, State.writeDuty_power]
    rfl

/-- Towers' DUTY set one after the other: each takes its value, and the estimates and memory stand. -/
theorem State.setDuties_shows {f : State → Nat → State} {g : Nat → Nat} (b : State)
    (hf : ∀ t k, (f t k).power.est = t.power.est ∧ (f t k).mem = t.mem ∧
      ∀ j, j ≠ k → Tbl.get 0 (f t k).power.duty j = Tbl.get 0 t.power.duty j)
    {k : Nat} (hk : k < 16) (hg : ∀ t : State, Tbl.get 0 t.power.duty k = Tbl.get 0 b.power.duty k →
      Tbl.get 0 (f t k).power.duty k = g (Tbl.get 0 b.power.duty k)) :
    Tbl.get 0 ((List.range 16).foldl f b).power.duty k = g (Tbl.get 0 b.power.duty k) := by
  refine foldl_once (P := fun t : State => Tbl.get 0 t.power.duty k = Tbl.get 0 b.power.duty k)
    (Q := fun t : State => Tbl.get 0 t.power.duty k = g (Tbl.get 0 b.power.duty k)) (List.mem_range.mpr hk) List.nodup_range
    (fun t j _ hj h => ?_) hg (fun t j _ hj h => ?_) rfl
  · exact ((hf t j).2.2 k hj.symm).trans h
  · exact ((hf t j).2.2 k hj.symm).trans h

/-- The estimates and memory stand. -/
theorem State.setDuties_rest {f : State → Nat → State} (b : State)
    (hf : ∀ t k, (f t k).power.est = t.power.est ∧ (f t k).mem = t.mem ∧
      ∀ j, j ≠ k → Tbl.get 0 (f t k).power.duty j = Tbl.get 0 t.power.duty j) :
    ((List.range 16).foldl f b).power.est = b.power.est ∧ ((List.range 16).foldl f b).mem = b.mem :=
  foldl_keeps_mem (fun t : State => t.power.est = b.power.est ∧ t.mem = b.mem) _ _
    (fun t k _ h => ⟨(hf t k).1.trans h.1, (hf t k).2.1.trans h.2⟩) _ ⟨rfl, rfl⟩

/-- A step up is one of these. -/
theorem State.raiseDuty_frame (t : State) (k : Nat) : (s.raiseDuty t k).power.est = t.power.est ∧ (s.raiseDuty t k).mem = t.mem ∧
    ∀ j, j ≠ k → Tbl.get 0 (s.raiseDuty t k).power.duty j = Tbl.get 0 t.power.duty j := by
  unfold State.raiseDuty
  split
  · obtain ⟨-, other, est, mem⟩ := t.setDuty_shows k (min 6 (Tbl.get 0 t.power.duty k + 1))
    exact ⟨est, mem, other⟩
  · exact ⟨rfl, rfl, fun _ _ => rfl⟩

/-- So is a step down. -/
theorem State.lowerDuty_frame (t : State) (k : Nat) : (t.lowerDuty k).power.est = t.power.est ∧ (t.lowerDuty k).mem = t.mem ∧
    ∀ j, j ≠ k → Tbl.get 0 (t.lowerDuty k).power.duty j = Tbl.get 0 t.power.duty j := by
  obtain ⟨-, other, est, mem⟩ := t.setDuty_shows k (Tbl.get 0 t.power.duty k - 1)
  exact ⟨est, mem, other⟩

/-- Each estimate is kept. -/
theorem State.estimated_est {l : List Nat} (hl : l.length = 16) {k : Nat} (hk : k < 16) :
    Tbl.get 0 (s.estimated l).power.est k = l.getD k 0 := by
  have pairs : (List.range 16).zip l = (List.range 16).map (fun i => (i, l.getD i 0)) := by
    refine List.ext_getElem (by simp [hl]) fun i h1 h2 => ?_
    simp only [List.length_zip, List.length_range, hl] at h1
    simp [List.getD_eq_getElem?_getD, List.getElem?_eq_getElem (show i < l.length by omega)]
  have fold : (s.estimated l).power.est = (List.range 16).foldl (fun t k => Tbl.put 0 t k (l.getD k 0)) s.power.est := by
    change ((List.range 16).zip l).foldl (fun t (e : Nat × Nat) => Tbl.put 0 t e.1 e.2) s.power.est = _
    rw [pairs, List.foldl_map]
  rw [fold]
  exact Tbl.get_foldl_put (fun k => l.getD k 0) (.inl (List.mem_range.mpr hk))

/-- What an estimate shows. -/
theorem State.estimate_shows {l : List Nat} (hl : l.length = 16) {t : State}
    (ht : t = (if l.sum + s.otherPower / 10 > s.cap.1 then (List.range 16).foldl s.raiseDuty (s.estimated l)
       else if l.sum + s.otherPower / 10 < s.cap.1 ∧ s.time ≥ s.power.dutyAt + 100000 then
         (List.range 16).foldl State.lowerDuty ((s.estimated l).onPower (fun w => { w with dutyAt := s.time }))
       else s.estimated l)) : t.mem = s.mem ∧ (∀ k, k < 16 → Tbl.get 0 t.power.est k = l.getD k 0) ∧
      ∀ k, k < 16 →
        (s.cap.1 < l.sum + s.otherPower / 10 → s.towerBusy k = true →
          Tbl.get 0 t.power.duty k = min 6 (Tbl.get 0 s.power.duty k + 1)) ∧
        (l.sum + s.otherPower / 10 = s.cap.1 → Tbl.get 0 t.power.duty k = Tbl.get 0 s.power.duty k) ∧
        (l.sum + s.otherPower / 10 < s.cap.1 → s.power.dutyAt + 100000 ≤ s.time →
          Tbl.get 0 t.power.duty k = Tbl.get 0 s.power.duty k - 1) := by
  have est {k : Nat} (hk : k < 16) := s.estimated_est hl hk
  split at ht
  · next above =>
    subst ht
    obtain ⟨rest, mem⟩ := State.setDuties_rest (s.estimated l) s.raiseDuty_frame
    refine ⟨mem, fun k hk => (congrArg (Tbl.get 0 · k) rest).trans (est hk), fun k hk => ⟨fun _ busy => ?_, fun h => by omega,
      fun h => by omega⟩⟩
    refine State.setDuties_shows (g := fun d => min 6 (d + 1)) (s.estimated l) s.raiseDuty_frame hk (fun t h => ?_)
    rw [State.raiseDuty, if_pos busy, (t.setDuty_shows k _).1, h]
  · next above =>
    split at ht
    · next below =>
      subst ht
      obtain ⟨rest, mem⟩ := State.setDuties_rest ((s.estimated l).onPower (fun w => { w with dutyAt := s.time })) State.lowerDuty_frame
      refine ⟨mem, fun k hk => (congrArg (Tbl.get 0 · k) rest).trans (est hk), fun k hk => ⟨fun h => absurd h above,
        fun h => by omega, fun _ _ => ?_⟩⟩
      refine State.setDuties_shows (g := fun d => d - 1) ((s.estimated l).onPower (fun w => { w with dutyAt := s.time }))
        State.lowerDuty_frame hk (fun t h => ?_)
      rw [State.lowerDuty, (t.setDuty_shows k _).1, h]
    · next below =>
      subst ht
      exact ⟨rfl, fun k hk => est hk, fun k hk => ⟨fun h => absurd h above, fun _ => rfl, fun h ht => absurd ⟨h, ht⟩ below⟩⟩

end Estimate

/-! Thermal resistance (R436, R442). -/

section Resistance

variable (s : State)

/-- The average power. -/
def State.meanPower (s : State) : Nat := if s.power.powN = 0 then 0 else s.power.powSum / s.power.powN

/-- The average starts again, and R_est is estimated. -/
def State.rthRead (s : State) : State :=
  let p := s.meanPower
  let est : Int := s.fget PWR_RTH.EST 0 0
  let s1 := s.onPower (fun w => { w with powSum := 0, powN := 0 })
  if p < 1000 ∨ s.fget PWR_COOLANT.INLET_VALID 0 0 = 0 then s1
  else
    let r := (tempOf (s.fget PWR_TEMP_MAX.LOGIC 0 0) - s.inlet) * 62500 / p
    s1.fset PWR_RTH.EST 0 0 (min 65535 (est + (r - est) / 8).toNat)

/-- COOLING_WARN follows R_est (R442). -/
def State.rthWarn (s : State) : State :=
  let e := s.fget PWR_RTH.EST 0 0
  let nom := s.fget PWR_RTH.NOM 0 0
  if !s.power.cooling && decide (4 * e > 5 * nom) then
    ((s.onPower (fun w => { w with cooling := true })).evt PWR_EVENT.COOLING_WARN 0 0 1 none).powerRec 0x64 4 0 e nom
  else if s.power.cooling && decide (5 * e ≤ 6 * nom) then s.onPower (fun w => { w with cooling := false })
  else s

/-- A warning ends any boost. -/
def State.rthEnd (s : State) : State := (if s.power.cooling then s.boostEnd else s).showCap.alert

/-- RTH_ESTIMATE (R436). -/
theorem exec_rthEstimate {s : State} (hu : s.boot.mgmtUp = true) (h15 : s.phase ≠ 15) :
    exec .rthEstimate s = ok true s s.rthRead.rthWarn.rthEnd := by
  have cool : s.rthRead.power.cooling = s.power.cooling := by
    unfold State.rthRead
    dsimp only
    split
    · rfl
    · rfl
  change ok true s (if _ then _ else _) = _
  rw [if_neg (by simp [hu, h15])]
  unfold State.rthWarn
  rw [cool]
  rfl

/-- The average has started again. -/
theorem State.rthRead_shows : s.rthRead.power.powSum = 0 ∧ s.rthRead.power.powN = 0 ∧ s.rthRead.mem = s.mem ∧
    s.rthRead.power.cooling = s.power.cooling := by
  unfold State.rthRead
  dsimp only
  split
  · exact ⟨rfl, rfl, rfl, rfl⟩
  · exact ⟨rfl, rfl, rfl, rfl⟩

/-- Without the inlet R_est stands. -/
theorem State.rthRead_kept (h : s.fget PWR_COOLANT.INLET_VALID 0 0 = 0) : s.rthRead.regs = s.regs := by
  unfold State.rthRead
  dsimp only
  rw [if_pos (.inr h)]
  rfl

/-- A warning that begins. -/
theorem State.rthWarn_begins (hc : s.power.cooling = false) (h : 5 * s.fget PWR_RTH.NOM 0 0 < 4 * s.fget PWR_RTH.EST 0 0) :
    s.rthWarn.power.cooling = true ∧ s.rthWarn.fget PWR_EVENT.COOLING_WARN 0 0 = 1 := by
  have told := State.powerRec_kept ((s.onPower (fun w => { w with cooling := true })).evt PWR_EVENT.COOLING_WARN 0 0 1 none) 0x64 4 0
    (s.fget PWR_RTH.EST 0 0) (s.fget PWR_RTH.NOM 0 0)
  obtain ⟨power, -, low⟩ := told
  unfold State.rthWarn
  dsimp only
  rw [if_pos (by simp [hc, h])]
  refine ⟨?_, ?_⟩
  · rw [power]
    simp
  · rw [low.fget (by decide), State.fget_evt_one _ rfl]

/-- One that ends. -/
theorem State.rthWarn_ends (hc : s.power.cooling = true) (h : 5 * s.fget PWR_RTH.EST 0 0 ≤ 6 * s.fget PWR_RTH.NOM 0 0) :
    s.rthWarn.power.cooling = false := by
  unfold State.rthWarn
  dsimp only
  rw [if_neg (by simp [hc]), if_pos (by simp [hc, h])]
  rfl

/-- It leaves R_est, the average and memory. -/
theorem State.rthWarn_kept : s.rthWarn.fget PWR_RTH.EST 0 0 = s.fget PWR_RTH.EST 0 0 ∧ s.rthWarn.power.powSum = s.power.powSum ∧
    s.rthWarn.power.powN = s.power.powN ∧ s.rthWarn.mem = s.mem := by
  unfold State.rthWarn
  dsimp only
  split
  · obtain ⟨power, mem, low⟩ := State.powerRec_kept ((s.onPower (fun w => { w with cooling := true })).evt
      PWR_EVENT.COOLING_WARN 0 0 1 none) 0x64 4 0 (s.fget PWR_RTH.EST 0 0) (s.fget PWR_RTH.NOM 0 0)
    refine ⟨?_, ?_, ?_, ?_⟩
    · rw [low.fget (by decide), State.fget_evt_ne _ (by decide), State.fget_onPower]
    · rw [power]
      simp
    · rw [power]
      simp
    · rw [mem]
      simp
  · split
    · exact ⟨rfl, rfl, rfl, rfl⟩
    · exact ⟨rfl, rfl, rfl, rfl⟩

/-- Displays leave the manager's state and memory. -/
theorem State.displayed (u : State) : u.showCap.alert.power = u.power ∧ u.showCap.alert.mem = u.mem := by
  obtain ⟨mem, -⟩ := State.showCap_keeps (within_opened _ u) u (.refl _ u) .memory (by decide)
  obtain ⟨mem', -⟩ := State.alert_keeps (within_opened _ u.showCap) u.showCap (.refl _ _) .memory (by decide)
  obtain ⟨power, -⟩ := State.showCap_keeps (within_opened _ u) u (.refl _ u) .power (by decide)
  exact ⟨(State.alert_power _).trans power.symm, (mem.trans mem').symm⟩

/-- What follows leaves R_est, the average, the warning and memory. -/
theorem State.rthEnd_kept : s.rthEnd.fget PWR_RTH.EST 0 0 = s.fget PWR_RTH.EST 0 0 ∧ s.rthEnd.power.powSum = s.power.powSum ∧
    s.rthEnd.power.powN = s.power.powN ∧ s.rthEnd.mem = s.mem ∧ s.rthEnd.power.cooling = s.power.cooling ∧
    s.rthEnd.fget PWR_EVENT.COOLING_WARN 0 0 = s.fget PWR_EVENT.COOLING_WARN 0 0 := by
  have shown (u : State) (g : Field) (hl : g.lo < 64) (hg : g.addr 0 0 ≠ 0x1008) : u.showCap.alert.fget g 0 0 = u.fget g 0 0 :=
    (State.fget_alert ..).trans (u.showCap_alike.fget hl hg)
  obtain ⟨-, -, cooling, sum, n⟩ := s.boostEnd_power
  obtain ⟨mem, -⟩ := State.boostEnd_keeps (within_opened _ s) s (.refl _ s) .memory (by decide)
  have est := s.boostEnd_alike.fget (f := PWR_RTH.EST) (x := 0) (i := 0) (by decide) (by decide)
  have warn : s.boostEnd.fget PWR_EVENT.COOLING_WARN 0 0 = s.fget PWR_EVENT.COOLING_WARN 0 0 := by
    unfold State.boostEnd
    split
    · rfl
    · rw [State.fget_evt_ne _ (by decide), State.fget_onPower]
  unfold State.rthEnd
  generalize s.boostEnd = w at *
  split
  · rw [shown w _ (by decide) (by decide), shown w _ (by decide) (by decide), w.displayed.1, w.displayed.2]
    exact ⟨est, sum, n, mem.symm, cooling, warn⟩
  · rw [shown s _ (by decide) (by decide), shown s _ (by decide) (by decide), s.displayed.1, s.displayed.2]
    exact ⟨rfl, rfl, rfl, rfl, rfl, rfl⟩

/-- With a warning no boost is left, and THERM_ALERT_N is asserted. -/
theorem State.rthEnd_warned (h : s.power.cooling = true) : s.rthEnd.power.boost = false ∧ s.rthEnd.pkg.alert = true := by
  obtain ⟨boost, -, cooling, -⟩ := s.boostEnd_power
  unfold State.rthEnd
  rw [if_pos h]
  refine ⟨(congrArg Power.boost s.boostEnd.displayed.1).trans boost, ?_⟩
  obtain ⟨power, -⟩ := s.boostEnd.displayed
  have warned : s.boostEnd.showCap.power.cooling = true := (congrArg Power.cooling power).trans (cooling.trans h)
  simp only [State.alert, State.withPkg, warned, Bool.or_true, Bool.true_or]

end Resistance

/-! The rate trip (R443). -/

section Rate

variable (s : State)

/-- The spots are evaluated. -/
def State.evaluated (s : State) : State :=
  let ks := s.power.spots.map (fun (e : Nat × Spot) => (e.1, e.2.evaluate))
  s.onPower (fun w => { w with spots := ks
                               calmSince := if ks.all (fun e => decide (e.2.rate < 80)) then some (s.power.calmSince.getD s.time) else none })

/-- RATE_EVALUATION (R443). -/
theorem exec_rateEvaluation {s : State} (hu : s.boot.mgmtUp = true) (h15 : s.phase ≠ 15) : exec .rateEvaluation s = ok true s
    (if s.power.rateTrip then
       (match (if (s.power.spots.map (fun (e : Nat × Spot) => (e.1, e.2.evaluate))).all (fun e => decide (e.2.rate < 80)) then
           some (s.power.calmSince.getD s.time) else none) with
        | some t => if s.time ≥ t + 1000000000 ∧ s.power.flowStop = false then s.evaluated.rateRelease else s.evaluated
        | none => s.evaluated)
     else match (s.power.spots.map (fun (e : Nat × Spot) => (e.1, e.2.evaluate))).find? (fun e => decide (e.2.high ≥ 20)) with
       | some (k, _) => s.evaluated.rateTrip k
       | none => s.evaluated) := by
  change ok true s (if _ then _ else _) = _
  rw [if_neg (by simp [hu, h15])]
  rfl

/-- The trip is set and the towers step down. -/
def State.tripped (s : State) : State :=
  (List.range 16).foldl State.tripTower (s.boostEnd.onPower (fun w => { w with rateTrip := true, calmSince := none }))

/-- A rate trip (R443). -/
theorem State.rateTrip_eq (k : Nat) : s.rateTrip k = (((s.tripped.evt PWR_EVENT.RATE_TRIP 0 0 1 none).powerRec 0x63 4 (s.spotSensor k) k
    ((s.spot k).rate * 1000 / 16).toNat).showCap).alert := rfl

/-- It trips, and no boost is left. -/
theorem State.tripped_power : s.tripped.power.rateTrip = true ∧ s.tripped.power.boost = false :=
  foldl_keeps_mem (fun t : State => t.power.rateTrip = true ∧ t.power.boost = false) State.tripTower _
    (fun t u _ h => ⟨(t.tripTower_kept u).1.trans h.1, (t.tripTower_kept u).2.trans h.2⟩) _ ⟨rfl, s.boostEnd_power.1⟩

/-- Every tower is at 0.50 GHz, and every tile shows the trip. -/
theorem State.tripped_shows {j : Nat} (hj : j < 64) : s.tripped.fget PWR_TOWER_CLK.TARGET 0 (j / 4) = 0 ∧
    s.tripped.fget TILE_THROTTLE.TRIP j 0 = 1 := by
  have tower : j / 4 < 16 := by omega
  have tile : 4 * (j / 4) + j % 4 = j := by omega
  refine foldl_once (P := fun t : State => t.power.rateTrip = true)
    (Q := fun t : State => t.fget PWR_TOWER_CLK.TARGET 0 (j / 4) = 0 ∧ t.fget TILE_THROTTLE.TRIP j 0 = 1)
    (List.mem_range.mpr tower) List.nodup_range (fun t u _ _ h => (t.tripTower_kept u).1.trans h) (fun t h => ?_)
    (fun t u _ hu h => ?_) rfl
  · obtain ⟨target, trip⟩ := t.tripTower_same tower (Nat.mod_lt j (show 4 > 0 by decide))
    rw [tile, h] at trip
    exact ⟨target, trip⟩
  · obtain ⟨target, trip⟩ := t.tripTower_other tower hu.symm (rfl : j / 4 = j / 4)
    exact ⟨target.trans h.1, trip.trans h.2⟩

/-- What a rate trip shows. -/
theorem State.rateTrip_shows (k : Nat) : (s.rateTrip k).power.rateTrip = true ∧ (s.rateTrip k).power.boost = false ∧
    (s.rateTrip k).fget PWR_EVENT.RATE_TRIP 0 0 = 1 ∧ (∀ u, u < 16 → (s.rateTrip k).fget PWR_TOWER_CLK.TARGET 0 u = 0) ∧
    ∀ j, j < 64 → (s.rateTrip k).fget TILE_THROTTLE.TRIP j 0 = 1 := by
  obtain ⟨trip, boost⟩ := s.tripped_power
  have towers {j : Nat} (hj : j < 64) := s.tripped_shows hj
  rw [State.rateTrip_eq]
  generalize s.tripped = w at trip boost towers ⊢
  obtain ⟨power, -, low⟩ := (w.evt PWR_EVENT.RATE_TRIP 0 0 1 none).powerRec_kept 0x63 4 (s.spotSensor k) k ((s.spot k).rate * 1000 / 16).toNat
  have shown (v : State) (g : Field) (x i : Nat) (hl : g.lo < 64) (hg : g.addr x i ≠ 0x1008) : v.showCap.alert.fget g x i = v.fget g x i :=
    (State.fget_alert ..).trans (v.showCap_alike.fget hl hg)
  refine ⟨?_, ?_, ?_, fun u hu => ?_, fun j hj => ?_⟩
  · rw [(State.displayed _).1, power]
    simpa using trip
  · rw [(State.displayed _).1, power]
    simpa using boost
  · rw [shown _ _ _ _ (by decide) (by decide), low.fget (by decide), State.fget_evt_one _ rfl]
  · obtain ⟨target, -⟩ := towers (show 4 * u < 64 by omega)
    rw [Nat.mul_div_cancel_left u (show 0 < 4 by decide)] at target
    rw [shown _ _ _ _ (by decide) (by simp only [Field.addr, PWR_TOWER_CLK.TARGET, blkBase]; omega), low.fget, State.fget_evt_ne, target]
    · simp only [Field.key, Field.addr, PWR_TOWER_CLK.TARGET, PWR_EVENT.RATE_TRIP, blkBase]
      omega
    · simp only [Field.key, Field.addr, PWR_TOWER_CLK.TARGET, blkBase, hubKeys]
      omega
  · have high := tripKey_high j
    rw [shown _ _ _ _ (by decide) (by simp only [Field.addr, TILE_THROTTLE.TRIP, blkBase]; omega)]
    have event : PWR_EVENT.RATE_TRIP.key 0 0 < hubKeys := by decide
    have before : (w.evt PWR_EVENT.RATE_TRIP 0 0 1 none).fget TILE_THROTTLE.TRIP j 0 = 1 := by
      rw [State.fget_evt_ne _ (by omega), (towers hj).2]
    exact (spared_arrayField (g := TILE_THROTTLE.TRIP) rfl (by decide) (by decide) rfl (by decide) hj 1).record before 0 _

/-- A release leaves no trip on any tile. -/
theorem State.rateRelease_shows : s.rateRelease.power.rateTrip = false ∧ ∀ j, j < 64 → s.rateRelease.fget TILE_THROTTLE.TRIP j 0 = 0 := by
  have kept : ((List.range 16).foldl State.writeDuty (s.onPower (fun w => { w with rateTrip := false, calmSince := none }))).power.rateTrip =
      false :=
    foldl_keeps_mem (fun t : State => t.power.rateTrip = false) State.writeDuty _
      (fun t u _ h => (congrArg Power.rateTrip (State.writeDuty_power u)).trans h) _ rfl
  refine ⟨kept, fun j hj => ?_⟩
  have tower : j / 4 < 16 := by omega
  have tile : 4 * (j / 4) + j % 4 = j := by omega
  unfold State.rateRelease
  refine (State.fget_alert ..).trans ((State.showCap_alike _).fget (by decide) ?_ |>.trans ?_)
  · simp only [Field.addr, TILE_THROTTLE.TRIP, blkBase]
    omega
  refine foldl_once (P := fun t : State => t.power.rateTrip = false) (Q := fun t : State => t.fget TILE_THROTTLE.TRIP j 0 = 0)
    (List.mem_range.mpr tower) List.nodup_range (fun t u _ _ h => (congrArg Power.rateTrip (State.writeDuty_power u)).trans h)
    (fun t h => ?_) (fun t u _ hu h => ?_) rfl
  · have trip := State.writeDuty_trip (t := t) (u := j / 4) (Nat.mod_lt j (show 4 > 0 by decide))
    rw [tile, h] at trip
    exact trip
  · exact (State.writeDuty_trip_other hu.symm).trans h

end Rate

end Sys2Proof.Machine
end

section
/-!
PROOF. Clock switches, the coolant and forecasts (R434, R439, R441, R467, R468), and with them all of the power manager's part.
-/

namespace Sys2Proof.Machine

section Quiet

variable {s : State}

/-- With management down or the part in HOLD the manager does nothing. -/
theorem exec_manager_none (h : s.boot.mgmtUp = false ∨ s.phase = 15) {l : List Nat} (hl : l.length = 16) :
    ∀ c ∈ [Instr.clockTargetUpdate, .powerEstimate l, .rthEstimate, .rateEvaluation], exec c s = .next s := by
  have down : (!s.boot.mgmtUp || s.phase == 15) = true := by obtain h | h := h <;> simp [h]
  have wf : (l.length == 16) = true := by simp [hl]
  intro c hc
  simp only [List.mem_cons, List.not_mem_nil, or_false] at hc
  obtain rfl | rfl | rfl | rfl := hc
  · change ok true s (if _ then _ else _) = _
    rw [if_pos down]
    exact ok_of_pending rfl
  · change ok (l.length == 16) s (if _ then _ else _) = _
    rw [wf, if_pos down]
    exact ok_of_pending rfl
  · change ok true s (if _ then _ else _) = _
    rw [if_pos down]
    exact ok_of_pending rfl
  · change ok true s (if _ then _ else _) = _
    rw [if_pos down]
    exact ok_of_pending rfl

end Quiet

section Switch

variable {s : State} {u : Nat} (hu : u < 16)
include hu

/-- CLOCK_SWITCH of a clock that falls (R434). -/
theorem exec_clockSwitch_falls (h : s.fget PWR_TOWER_CLK.TARGET 0 u < s.fget PWR_TOWER_CLK.CURRENT 0 u) :
    exec (.clockSwitch u) s = ok true s
      (let s1 := s.fset PWR_TOWER_CLK.CURRENT 0 u (s.fget PWR_TOWER_CLK.TARGET 0 u)
       if s.segFailed u then s1 else s1.fset PWR_TOWER_CLK.VT_MV 0 u (s.voltage u (s.fget PWR_TOWER_CLK.TARGET 0 u))) := by
  have wf : decide (u < 16) = true := decide_eq_true hu
  change ok (decide (u < 16)) s (if _ then _ else _) = _
  rw [wf, if_pos h]

/-- CLOCK_SWITCH of one that is at its target. -/
theorem exec_clockSwitch_none (h : s.fget PWR_TOWER_CLK.TARGET 0 u = s.fget PWR_TOWER_CLK.CURRENT 0 u) :
    exec (.clockSwitch u) s = .next s := by
  have wf : decide (u < 16) = true := decide_eq_true hu
  change ok (decide (u < 16)) s (if _ then _ else _) = _
  rw [wf, if_neg (by omega), if_pos (.inl h)]
  exact ok_of_pending rfl

/-- CLOCK_SWITCH of one that rises, whose voltage settles at a time. -/
theorem exec_clockSwitch_rises {w : Nat} (h : s.fget PWR_TOWER_CLK.CURRENT 0 u < s.fget PWR_TOWER_CLK.TARGET 0 u)
    (hf : s.segFailed u = false) (hw : Tbl.get none s.power.settleAt u = some w) : exec (.clockSwitch u) s = ok true s
      (if s.time < w then s else (s.fset PWR_TOWER_CLK.CURRENT 0 u (s.fget PWR_TOWER_CLK.TARGET 0 u)).onPower
        (fun p => { p with settleAt := Tbl.put none p.settleAt u none })) := by
  have wf : decide (u < 16) = true := decide_eq_true hu
  have risen : ¬ (s.fget PWR_TOWER_CLK.TARGET 0 u = s.fget PWR_TOWER_CLK.CURRENT 0 u ∨ s.segFailed u = true) := by
    rintro (e | e)
    · omega
    · rw [hf] at e
      cases e
  change ok (decide (u < 16)) s (if _ then _ else _) = _
  rw [wf, if_neg (by omega), if_neg risen, hw]

omit hu in
/-- A clock that falls reads so; on a failed segment the voltage stands. -/
theorem State.clockFalls_shows (s : State) {n : Nat} (hn : n < 32) {t : State}
    (ht : t = let s1 := s.fset PWR_TOWER_CLK.CURRENT 0 u n
      if s.segFailed u then s1 else s1.fset PWR_TOWER_CLK.VT_MV 0 u (s.voltage u n)) :
    t.fget PWR_TOWER_CLK.CURRENT 0 u = n ∧ t.mem = s.mem ∧
      (s.segFailed u = true → t.fget PWR_TOWER_CLK.VT_MV 0 u = s.fget PWR_TOWER_CLK.VT_MV 0 u) := by
  have shown : (s.fset PWR_TOWER_CLK.CURRENT 0 u n).fget PWR_TOWER_CLK.CURRENT 0 u = n := by
    rw [State.fget_fset_same]
    exact Nat.mod_eq_of_lt hn
  dsimp only at ht
  split at ht
  · subst ht
    exact ⟨shown, rfl, fun _ => State.fget_fset_lo (f := PWR_TOWER_CLK.CURRENT) (g := PWR_TOWER_CLK.VT_MV) _ rfl rfl rfl (by decide) 0 u⟩
  · next h =>
    subst ht
    exact ⟨(State.fget_fset_lo (f := PWR_TOWER_CLK.VT_MV) (g := PWR_TOWER_CLK.CURRENT) _ rfl rfl rfl (by decide) 0 u).trans shown, rfl,
      fun c => absurd c h⟩

end Switch

section Coolant

variable {s : State} (hm : s.boot.mgmtUp = true)
include hm

/-- INLET_READ that gives a temperature (R468). -/
theorem exec_inletRead {raw : Option (Nat × Nat)} {x : Int} (h : s.inletOf raw = some x) : exec (.inletRead raw) s = ok true s
    (((s.fset PWR_COOLANT.INLET 0 0 (tempBits x)).fset PWR_COOLANT.INLET_VALID 0 0 1).onPower (fun w =>
      { w with inletFails := 0, inletLost := false })).alert := by
  change ok true s (if _ then _ else _) = _
  rw [if_neg (by simp [hm]), h]

/-- The inlet is lost (R468). -/
def State.inletLoss (s : State) : State :=
  ((((s.onPower (fun w => { w with inletFails := w.inletFails + 1 })).fset PWR_COOLANT.INLET_VALID 0 0 0).onPower (fun w =>
    { w with inletLost := true })).evt PWR_EVENT.INLET_LOST 0 0 1 none).coolantRec 2

/-- INLET_READ that fails. -/
theorem exec_inletRead_fails {raw : Option (Nat × Nat)} (h : s.inletOf raw = none) : exec (.inletRead raw) s = ok true s
    (if s.power.inletFails + 1 < 3 ∨ s.power.inletLost = true then s.onPower (fun w => { w with inletFails := w.inletFails + 1 })
     else s.inletLoss.alert) := by
  change ok true s (if _ then _ else _) = _
  rw [if_neg (by simp [hm]), h]
  rfl

/-- FLOW_PULSE (R467). -/
theorem exec_flowPulse : exec .flowPulse s =
    ok true s (s.onPower (fun w => { w with pulses := w.pulses + 1, lastPulse := s.time, flowStop := false })).alert := by
  change ok true s (if _ then _ else _) = _
  rw [if_neg (by simp [hm])]

/-- The flow of the last 100 ms (R441). -/
def State.flowOf (s : State) : Nat := min 65535 (s.power.pulses * 600000 / max 1 (s.fget PWR_FLOW_CTL.PULSES_PER_L 0 0))

/-- A flow is shown, and pulses are counted anew; a low flow is told where it is due. -/
def State.flowShown (s : State) (f : Nat) (since : Option Nat) (due : Bool) : State :=
  (s.fset PWR_COOLANT.FLOW 0 0 f).onPower (fun w => { w with pulses := 0, lowSince := since, flowLow := due })

/-- FLOW_COUNT (R441): whatever it finds of a low flow, it shows the flow. -/
theorem exec_flowCount : ∃ since due, exec .flowCount s = ok true s
    (if due && !s.power.flowLow then (((s.flowShown s.flowOf since due).evt PWR_EVENT.FLOW_LOW 0 0 1 none).coolantRec 0).alert
     else (s.flowShown s.flowOf since due).alert) := by
  change ∃ since due, execFlowCount s = _
  unfold execFlowCount
  rw [if_neg (by simp [hm])]
  exact ⟨_, _, rfl⟩

/-- FLOW_STOP (R441). -/
theorem exec_flowStop (hf : s.power.flowStop = false) (ht : s.power.lastPulse + 200000000 ≤ s.time) : exec .flowStop s = ok true s
    (((s.onPower (fun w => { w with flowStop := true })).evt PWR_EVENT.FLOW_STOP 0 0 1 none).coolantRec 1).alert := by
  change ok true s (if _ then _ else _) = _
  rw [if_neg (by simp [hm, hf, ht])]

omit hm in
/-- FLOW_STOP otherwise. -/
theorem exec_flowStop_none (h : s.power.flowStop = true ∨ s.time < s.power.lastPulse + 200000000) : exec .flowStop s = .next s := by
  change ok true s (if _ then _ else _) = _
  rw [if_pos (by obtain h | h := h <;> simp [h])]
  exact ok_of_pending rfl

omit hm in
/-- A coolant record leaves the manager's state and the registers below the hubs'. -/
theorem State.coolantRec_kept (s : State) (k : Nat) : (s.coolantRec k).power = s.power ∧ s.LowKept (s.coolantRec k) := by
  obtain ⟨power, -, low⟩ := s.powerRec_kept 0x66 4 0 k (s.fget PWR_COOLANT.FLOW 0 0)
  exact ⟨power, low⟩

omit hm in
/-- What the loss of the inlet shows. -/
theorem State.inletLoss_shows (s : State) : s.inletLoss.power.inletFails = s.power.inletFails + 1 ∧
    s.inletLoss.power.inletLost = true ∧ s.inletLoss.fget PWR_COOLANT.INLET_VALID 0 0 = 0 ∧
    s.inletLoss.fget PWR_EVENT.INLET_LOST 0 0 = 1 := by
  obtain ⟨power, low⟩ := State.coolantRec_kept ((((s.onPower (fun w => { w with inletFails := w.inletFails + 1 })).fset
    PWR_COOLANT.INLET_VALID 0 0 0).onPower (fun w => { w with inletLost := true })).evt PWR_EVENT.INLET_LOST 0 0 1 none) 2
  unfold State.inletLoss
  refine ⟨?_, ?_, ?_, ?_⟩
  · rw [power]
    simp
  · rw [power]
    simp
  · rw [low.fget (by decide), State.fget_evt_ne _ (by decide), State.fget_onPower, State.fget_fset_same]
    rfl
  · rw [low.fget (by decide), State.fget_evt_one _ rfl]

omit hm in
/-- A failed read is counted; the third in a row loses the inlet. -/
theorem State.inletFailed_shows (s : State) {t : State} (ht : t = if s.power.inletFails + 1 < 3 ∨ s.power.inletLost = true then
      s.onPower (fun w => { w with inletFails := w.inletFails + 1 }) else s.inletLoss.alert) :
    t.power.inletFails = s.power.inletFails + 1 ∧ (s.power.inletFails < 2 → t.regs = s.regs) ∧
      (2 ≤ s.power.inletFails → s.power.inletLost = false → t.fget PWR_COOLANT.INLET_VALID 0 0 = 0 ∧
        t.fget PWR_EVENT.INLET_LOST 0 0 = 1 ∧ t.pkg.alert = true) := by
  split at ht
  · next h =>
    subst ht
    refine ⟨rfl, fun _ => rfl, fun h2 hl => ?_⟩
    rw [hl] at h
    simp at h
    omega
  · next h =>
    subst ht
    obtain ⟨fails, lost, valid, event⟩ := s.inletLoss_shows
    refine ⟨(congrArg Power.inletFails (State.alert_power _)).trans fails, fun h2 => absurd (.inl (by omega)) h, fun _ _ =>
      ⟨(State.fget_alert ..).trans valid, (State.fget_alert ..).trans event, ?_⟩⟩
    simp only [State.alert, State.withPkg, lost, Bool.or_true, Bool.true_or]

omit hm in
/-- The flow shown is what the pulses give. -/
theorem State.flowCounted_shows (s : State) (since : Option Nat) (due : Bool) {t : State} (ht : t = if due && !s.power.flowLow then
      (((s.flowShown s.flowOf since due).evt PWR_EVENT.FLOW_LOW 0 0 1 none).coolantRec 0).alert
      else (s.flowShown s.flowOf since due).alert) :
    t.power.pulses = 0 ∧ t.fget PWR_COOLANT.FLOW 0 0 = s.flowOf := by
  have shown : (s.flowShown s.flowOf since due).fget PWR_COOLANT.FLOW 0 0 = s.flowOf := by
    rw [State.flowShown, State.fget_onPower, State.fget_fset_same]
    exact Nat.mod_eq_of_lt (show min 65535 (s.power.pulses * 600000 / max 1 (s.fget PWR_FLOW_CTL.PULSES_PER_L 0 0)) < 2 ^ 16 by omega)
  have pulses : (s.flowShown s.flowOf since due).power.pulses = 0 := rfl
  split at ht
  · subst ht
    obtain ⟨power, low⟩ := State.coolantRec_kept ((s.flowShown s.flowOf since due).evt PWR_EVENT.FLOW_LOW 0 0 1 none) 0
    constructor
    · rw [State.alert_power, power]
      simpa using pulses
    · rw [State.fget_alert, low.fget (by decide), State.fget_evt_ne _ (by decide), shown]
  · subst ht
    exact ⟨(congrArg Power.pulses (State.alert_power _)).trans pulses, (State.fget_alert ..).trans shown⟩

omit hm in
/-- What a stopped flow shows. -/
theorem State.flowStopped_shows (s : State) {t : State} (ht : t = (((s.onPower (fun w => { w with flowStop := true })).evt
      PWR_EVENT.FLOW_STOP 0 0 1 none).coolantRec 1).alert) :
    t.power.flowStop = true ∧ t.fget PWR_EVENT.FLOW_STOP 0 0 = 1 ∧ t.pkg.alert = true := by
  obtain ⟨power, low⟩ := State.coolantRec_kept ((s.onPower (fun w => { w with flowStop := true })).evt PWR_EVENT.FLOW_STOP 0 0 1 none) 1
  subst ht
  have stopped : (((s.onPower (fun w => { w with flowStop := true })).evt PWR_EVENT.FLOW_STOP 0 0 1 none).coolantRec 1).power.flowStop =
      true := by
    rw [power]
    simp
  refine ⟨(congrArg Power.flowStop (State.alert_power _)).trans stopped, ?_, ?_⟩
  · rw [State.fget_alert, low.fget (by decide), State.fget_evt_one _ rfl]
  · simp only [State.alert, State.withPkg, stopped, Bool.or_true, Bool.true_or]

end Coolant

section Forecasts

variable {s : State} {p : Nat}

/-- A forecast is accepted unless a rate trip, COOLING_WARN or Quiet stands (R319). -/
def State.accepts (s : State) : Bool := !s.power.rateTrip && !s.power.cooling && s.fget PWR_MODE.MODE 0 0 != 3

/-- The partition's forecast is replaced. -/
def State.forecasted (s : State) (p : Nat) (e : Exec) : State :=
  s.onPart p (fun q => { q with forecast := e.phases, forecastAt := e.started, accepted := s.accepts })

/-- FORECAST (R319, R439). -/
theorem exec_forecast {x : Nat} {e : Exec} (hp : slotOk p x = true) (hs : s.Startable 11 p x e) : exec (.forecast p x) s =
    .next (((s.forecasted p e).endPlain p x 0 (bit s.accepts)).withQueue s.pending) :=
  ok_runCmd hp hs (fun e => (s.forecasted p e).endPlain p x 0 (bit s.accepts))

/-- What it leaves. -/
theorem State.forecasted_shows (s : State) (p x : Nat) (e : Exec) (d : Nat) : Freed s ((s.forecasted p e).endPlain p x 0 d) p x ∧
    (((s.forecasted p e).endPlain p x 0 d).part p).forecast = e.phases ∧
    (((s.forecasted p e).endPlain p x 0 d).part p).forecastAt = e.started ∧
    (((s.forecasted p e).endPlain p x 0 d).part p).accepted = s.accepts := by
  obtain ⟨phases, started, accepted⟩ := (s.forecasted p e).endPlain_forecast p x 0 d
  refine ⟨State.endPlain_frees p x 0 d rfl, ?_, ?_, ?_⟩
  · rw [phases, State.forecasted, State.part_onPart]
  · rw [started, State.forecasted, State.part_onPart]
  · rw [accepted, State.forecasted, State.part_onPart]

/-- FORECAST_PHASE without a phase (R439). -/
theorem exec_forecastPhase_none (hp : p < 16) (h : s.forecastAt p (s.time + 200000) = none) :
    exec (.forecastPhase p) s = ok true s ((s.partTowers p).foldl State.noCeil s) := by
  have wf : partOk p = true := decide_eq_true hp
  change execForecastPhase p s = _
  rw [execForecastPhase, wf]
  dsimp only
  rw [h]
  rfl

/-- FORECAST_PHASE with one. -/
theorem exec_forecastPhase (hp : p < 16) {x : Nat × Nat × Nat × Nat} (h : s.forecastAt p (s.time + 200000) = some x) :
    exec (.forecastPhase p) s = ok true s ((s.partTowers p).foldl (s.ceilStep x (s.time + 200000)) s) := by
  have wf : partOk p = true := decide_eq_true hp
  change execForecastPhase p s = _
  rw [execForecastPhase, wf]
  dsimp only
  rw [h]
  rfl

/-- Towers named by a decode phase with room for it are limited to 1.0 GHz. -/
theorem State.ceilings_decode (s : State) {x : Nat × Nat × Nat × Nat} {t0 k : Nat} {l : List Nat} (hl : l.Nodup) (hk : k ∈ l)
    (h1 : x.2.1 = 1) (hb : x.2.2.2.testBit k = true) (hr : s.expected t0 ≤ s.cap.1 - s.outside t0) :
    Tbl.get 20 (l.foldl (s.ceilStep x t0) s).power.ceil k = 10 ∧
    (l.foldl (s.ceilStep x t0) s).fget PWR_TOWER_CLK.TARGET 0 k ≤ 10 := by
  refine foldl_once (P := fun _ : State => True) (Q := fun t : State => Tbl.get 20 t.power.ceil k = 10 ∧
    t.fget PWR_TOWER_CLK.TARGET 0 k ≤ 10) hk hl (fun _ _ _ _ _ => trivial)
    (fun t _ => s.ceilStep_same x t0 t (State.phaseCeil_decode h1 hb hr) (by decide)) (fun t j _ hj h => ?_) trivial
  obtain ⟨ceil, target⟩ := s.ceilStep_other x t0 t hj.symm
  exact ⟨ceil.trans h.1, target.trans_le h.2⟩

end Forecasts

/-- Settles O54: command by command. -/
theorem clocksPowerAndCoolantAreManaged : Obligations.ClocksPowerAndCoolantAreManaged := by
  unfold Obligations.ClocksPowerAndCoolantAreManaged
  refine ⟨fun s hu h15 => ⟨?_, fun l hl => ?_, ?_, fun hr hs => ?_, fun hr hs => ?_, fun c hr hs hc ht hf => ?_⟩,
    fun s h l hl => exec_manager_none h hl, fun s u hu => ?_, fun s hm => ⟨fun raw x h => ?_, fun raw h => ?_, ?_, ?_, fun hf ht => ?_,
    exec_flowStop_none⟩, fun s p hp => ⟨fun x e ho hs => ?_, fun h => ?_, fun x h h1 hr => ?_⟩⟩
  · exact answers_with (P := fun t => t.mem = s.mem ∧
      (∀ j, j < 64 → t.fget TILE_THROTTLE.RAMP_LEN_MGMT j 0 = s.fget PWR_THR_CTL.RAMP_LEN 0 0 % 32) ∧
      t.fget PWR_CAP_STATUS.POWER_W 0 0 = min 8191 (s.packagePower / 10) ∧ ∀ u, u < 16 →
        (s.towerRuns u = true → s.segFailed u = false → t.fget PWR_TOWER_CLK.TARGET 0 u ≤ s.modeCeil ∧
          (s.power.rateTrip = true → t.fget PWR_TOWER_CLK.TARGET 0 u = 0)) ∧
        (s.towerRuns u = false ∨ s.segFailed u = true →
          t.fget PWR_TOWER_CLK.TARGET 0 u = s.fget PWR_TOWER_CLK.TARGET 0 u))
      (s.decision_shows rfl) (fun _ _ h => h) (exec_clockTargetUpdate hu h15)
  · exact answers_with (P := fun t => t.mem = s.mem ∧ (∀ k, k < 16 → Tbl.get 0 t.power.est k = l.getD k 0) ∧
      ∀ k, k < 16 →
        (s.cap.1 < l.sum + s.otherPower / 10 → s.towerBusy k = true →
          Tbl.get 0 t.power.duty k = min 6 (Tbl.get 0 s.power.duty k + 1)) ∧
        (l.sum + s.otherPower / 10 = s.cap.1 → Tbl.get 0 t.power.duty k = Tbl.get 0 s.power.duty k) ∧
        (l.sum + s.otherPower / 10 < s.cap.1 → s.power.dutyAt + 100000 ≤ s.time →
          Tbl.get 0 t.power.duty k = Tbl.get 0 s.power.duty k - 1))
      (s.estimate_shows hl rfl) (fun _ _ h => h) (exec_powerEstimate hl hu h15)
  · obtain ⟨sum, n, mem, cooling⟩ := s.rthRead_shows
    obtain ⟨est', sum', n', mem'⟩ := s.rthRead.rthWarn_kept
    obtain ⟨est'', sum'', n'', mem'', cooling'', event⟩ := s.rthRead.rthWarn.rthEnd_kept
    refine answers_with (P := fun t => t.power.powSum = 0 ∧ t.power.powN = 0 ∧ t.mem = s.mem ∧
      (s.fget PWR_COOLANT.INLET_VALID 0 0 = 0 → t.fget PWR_RTH.EST 0 0 = s.fget PWR_RTH.EST 0 0 ∧
        (s.power.cooling = false → 5 * s.fget PWR_RTH.NOM 0 0 < 4 * s.fget PWR_RTH.EST 0 0 → t.power.cooling = true ∧
          t.fget PWR_EVENT.COOLING_WARN 0 0 = 1 ∧ t.power.boost = false ∧ t.pkg.alert = true) ∧
        (s.power.cooling = true → 5 * s.fget PWR_RTH.EST 0 0 ≤ 6 * s.fget PWR_RTH.NOM 0 0 → t.power.cooling = false)))
      ⟨sum''.trans (sum'.trans sum), n''.trans (n'.trans n), mem''.trans (mem'.trans mem), fun hi => ?_⟩ (fun _ _ h => h)
      (exec_rthEstimate hu h15)
    have reads (g : Field) : s.rthRead.fget g 0 0 = s.fget g 0 0 := State.fget_congr (s.rthRead_kept hi) g 0 0
    refine ⟨est''.trans (est'.trans (reads _)), fun hc h => ?_, fun hc h => ?_⟩
    · obtain ⟨warned, told⟩ := s.rthRead.rthWarn_begins (cooling.trans hc) (by rwa [reads, reads])
      obtain ⟨boost, alert⟩ := s.rthRead.rthWarn.rthEnd_warned warned
      exact ⟨cooling''.trans warned, event.trans told, boost, alert⟩
    · exact cooling''.trans (s.rthRead.rthWarn_ends (cooling.trans hc) (by rwa [reads, reads]))
  · obtain ⟨e, he, h20⟩ := hs
    refine answers_with (P := fun t => t.power.rateTrip = true ∧ t.power.boost = false ∧ t.fget PWR_EVENT.RATE_TRIP 0 0 = 1 ∧
      (∀ u, u < 16 → t.fget PWR_TOWER_CLK.TARGET 0 u = 0) ∧ ∀ j, j < 64 → t.fget TILE_THROTTLE.TRIP j 0 = 1) ?_ (fun _ _ h => h)
      (exec_rateEvaluation hu h15)
    rw [if_neg (by simp [hr])]
    split
    · next k _ _ => exact s.evaluated.rateTrip_shows k
    · next none =>
      refine absurd (List.find?_eq_none.mp none (e.1, e.2.evaluate) (List.mem_map.mpr ⟨e, he, rfl⟩)) ?_
      simpa using h20
  · refine answers_with (P := fun t => t.power.rateTrip = false ∧ t.regs = s.regs) ?_ (fun _ _ h => h) (exec_rateEvaluation hu h15)
    have none : (s.power.spots.map (fun (e : Nat × Spot) => (e.1, e.2.evaluate))).find? (fun e => decide (e.2.high ≥ 20)) = none := by
      refine List.find?_eq_none.mpr fun d hd => ?_
      obtain ⟨e, he, rfl⟩ := List.mem_map.mp hd
      simpa using hs e he
    rw [if_neg (by simp [hr]), none]
    exact ⟨hr, rfl⟩
  · refine answers_with (P := fun t => t.power.rateTrip = false ∧ ∀ j, j < 64 → t.fget TILE_THROTTLE.TRIP j 0 = 0) ?_
      (fun _ _ h => h) (exec_rateEvaluation hu h15)
    have calm : (s.power.spots.map (fun (e : Nat × Spot) => (e.1, e.2.evaluate))).all (fun e => decide (e.2.rate < 80)) = true := by
      refine List.all_eq_true.mpr fun d hd => ?_
      obtain ⟨e, he, rfl⟩ := List.mem_map.mp hd
      exact decide_eq_true (hs e he)
    rw [if_pos hr, if_pos calm, hc, Option.getD_some]
    dsimp only
    rw [if_pos ⟨ht, hf⟩]
    exact s.evaluated.rateRelease_shows
  · dsimp only
    intro hn
    refine ⟨fun h => ?_, fun h => exec_clockSwitch_none hu h, fun w h hf hw => ⟨fun ht => ?_, fun ht => ?_⟩⟩
    · exact answers_with (P := fun t => t.fget PWR_TOWER_CLK.CURRENT 0 u = s.fget PWR_TOWER_CLK.TARGET 0 u ∧ t.mem = s.mem ∧
        (s.segFailed u = true → t.fget PWR_TOWER_CLK.VT_MV 0 u = s.fget PWR_TOWER_CLK.VT_MV 0 u))
        (s.clockFalls_shows hn rfl) (fun _ _ h => h) (exec_clockSwitch_falls hu h)
    · rw [exec_clockSwitch_rises hu h hf hw, if_pos ht]
      exact ok_of_pending rfl
    · refine answers_with (P := fun t => t.fget PWR_TOWER_CLK.CURRENT 0 u = s.fget PWR_TOWER_CLK.TARGET 0 u ∧
        Tbl.get none t.power.settleAt u = none) ?_ (fun _ _ h => h) (exec_clockSwitch_rises hu h hf hw)
      rw [if_neg (Nat.not_lt.mpr ht), State.fget_onPower, State.fget_fset_same]
      exact ⟨Nat.mod_eq_of_lt hn, Tbl.get_put_same s.power.settleAt u none⟩
  · have shown : ((((s.fset PWR_COOLANT.INLET 0 0 (tempBits x)).fset PWR_COOLANT.INLET_VALID 0 0 1).onPower (fun w =>
        { w with inletFails := 0, inletLost := false })).alert).fget PWR_COOLANT.INLET 0 0 = tempBits x := by
      have small : tempBits x < 65536 := by
        unfold tempBits
        omega
      rw [State.fget_alert, State.fget_onPower, State.fget_fset_ne _ (by decide), State.fget_fset_same]
      exact Nat.mod_eq_of_lt small
    exact answers_with (P := fun t => t.fget PWR_COOLANT.INLET_VALID 0 0 = 1 ∧ t.fget PWR_COOLANT.INLET 0 0 = tempBits x ∧
        t.power.inletFails = 0 ∧ t.power.inletLost = false)
      ⟨(State.fget_alert ..).trans ((State.fget_onPower ..).trans (State.fget_fset_same ..)), shown, rfl, rfl⟩ (fun _ _ h => h)
      (exec_inletRead hm h)
  · exact answers_with (P := fun t => t.power.inletFails = s.power.inletFails + 1 ∧
      (s.power.inletFails < 2 → t.regs = s.regs) ∧
      (2 ≤ s.power.inletFails → s.power.inletLost = false → t.fget PWR_COOLANT.INLET_VALID 0 0 = 0 ∧
        t.fget PWR_EVENT.INLET_LOST 0 0 = 1 ∧ t.pkg.alert = true))
      (s.inletFailed_shows rfl) (fun _ _ h => h) (exec_inletRead_fails hm h)
  · exact answers_with (P := fun t => t.power.pulses = s.power.pulses + 1 ∧ t.power.lastPulse = s.time ∧
      t.power.flowStop = false ∧ t.regs = s.regs) (u := (s.onPower (fun w =>
        { w with pulses := w.pulses + 1, lastPulse := s.time, flowStop := false })).alert)
      ⟨rfl, rfl, rfl, rfl⟩ (fun _ _ h => h) (exec_flowPulse hm)
  · obtain ⟨since, due, runs⟩ := exec_flowCount hm
    exact answers_with (P := fun t => t.power.pulses = 0 ∧ t.fget PWR_COOLANT.FLOW 0 0 = s.flowOf)
      (s.flowCounted_shows since due rfl) (fun _ _ h => h) runs
  · exact answers_with (P := fun t => t.power.flowStop = true ∧ t.fget PWR_EVENT.FLOW_STOP 0 0 = 1 ∧ t.pkg.alert = true)
      (s.flowStopped_shows rfl) (fun _ _ h => h) (exec_flowStop hm hf ht)
  · obtain ⟨freed, phases, started, accepted⟩ := s.forecasted_shows p x e (bit s.accepts)
    refine answers_with (P := fun t => Freed s t p x ∧ (t.part p).forecast = e.phases ∧ (t.part p).forecastAt = e.started ∧
      ((t.part p).accepted = true ↔ s.power.rateTrip = false ∧ s.power.cooling = false ∧ s.fget PWR_MODE.MODE 0 0 ≠ 3))
      ⟨freed, phases, started, ?_⟩ (fun _ _ h => h) (exec_forecast ho hs)
    rw [accepted, State.accepts]
    simp [and_assoc]
  · exact answers_with (P := fun t => t.regs = s.regs ∧ ∀ k ∈ s.partTowers p, Tbl.get 20 t.power.ceil k = 20)
      (s.noCeils_shows (s.partTowers_nodup p)) (fun _ _ h => h) (exec_forecastPhase_none hp h)
  · exact answers_with (P := fun t => ∀ k ∈ s.partTowers p, x.2.2.2.testBit k = true → Tbl.get 20 t.power.ceil k = 10 ∧
        t.fget PWR_TOWER_CLK.TARGET 0 k ≤ 10)
      (fun k hk hb => s.ceilings_decode (s.partTowers_nodup p) hk h1 hb hr) (fun _ _ h => h) (exec_forecastPhase hp h)

end Sys2Proof.Machine
end
